-- ==== Sys2Proof/Word.lean ====
section
/-!
DEFINITION. Sys2Proof/Word.lean: the word types of the TG5120 (R4: little-endian, 8-bit bytes, 32-bit register words).
-/
namespace Sys2Proof

/-- A byte of memory, of a frame, of a cell or of a record. -/
abbrev Byte := BitVec 8
/-- A 32-bit register word (R41) and an Essan integer register. -/
abbrev Word := BitVec 32
/-- A 64-bit register, an angle (R7), a floating-point register. -/
abbrev Dword := BitVec 64

/-- The two dies (R13). -/
inductive Die where
  | F | H
deriving DecidableEq, Repr

end Sys2Proof
end

