-- ==== Sys2Proof/Machine/EssanOp.lean ====
section
/-!
DEFINITION. Sys2Proof/Machine/EssanOp.lean: the syllables of the Essan instruction set (R275 to R324) as data: the
fields that every syllable has, and its operation with the fields of its format (R276).
-/
namespace Sys2Proof

/-- Bits [31:27] of a syllable (R275): stop, guard inversion, guard predicate; and what its row's operands do not say:
that the syllable holds a reserved value, or a bit set in a field that must be 0 (R322), and, of one fetched on a wrong
path, the address of its bundle, which never issues (R336). -/
structure Hdr where
  s : Bool
  gn : Bool
  gp : BitVec 3
  rsv : Bool
  wrong : Option Word
deriving DecidableEq, Repr

/-- ALU group, FN in the order of R291. -/
inductive AluFn where
  | add | sub | and | or | xor | andn | shl | shr | sar | ror | min | max | minu | maxu | adds | subs | abs | clz | popc
  | sextb | sexth | zexth
deriving DecidableEq, Repr

/-- ADDI, ANDI, ORI, XORI (R291). -/
inductive ImmFn where
  | addi | andi | ori | xori
deriving DecidableEq, Repr

/-- PRED group (R293). -/
inductive PredFn where
  | pand | por | pxor | pandn | pnot | pmovw | wmovp
deriving DecidableEq, Repr

/-- MUL group (R294). -/
inductive MulFn where
  | mul | mulh | mulhu | mulq | macq | mac
deriving DecidableEq, Repr

/-- BCD group (R317). -/
inductive BcdFn where
  | badd | baddc | bsub | bsubc | bshl | bshr | bfromb | btob
deriving DecidableEq, Repr

/-- FPS and FPD groups (R297). -/
inductive FpFn where
  | fadd | fsub | fmul | fdiv | fma | fmin | fmax | fnma
deriving DecidableEq, Repr

/-- FUN group (R297). -/
inductive FunFn where
  | sqrtS | sqrtD | negS | negD | absS | absD | mov | cvtDS | cvtSD | cvtHS | cvtSH
deriving DecidableEq, Repr

/-- FXFER group (R297). -/
inductive XferFn where
  | mvwf | mvfw | cvtws | cvtsw | cvtqs | cvtsq | cvtwd | cvtdw
deriving DecidableEq, Repr

/-- The lane types of the vector groups (R319, R320). -/
inductive QTy where
  | qf | qx | qi | qh
deriving DecidableEq, Repr

/-- QF, QX, QI and QH operations (R320); QCMP carries its condition, FN - 0x10. -/
inductive QFn where
  | add | sub | mul | mac | min | max | abs | neg | sum | cmp (c : BitVec 3) | and | or | xor
deriving DecidableEq, Repr

/-- QMOV operations (R320). -/
inductive QMovFn where
  | mov | splat | bcast | ins | ext
deriving DecidableEq, Repr

/-- CAP group operations on registers (R380). -/
inductive CapFn where
  | kmov | knarrow | ktrim | klock | kopen | kvoid | kfield | krds | kwrs
deriving DecidableEq, Repr

/-- JUMP operations (R298). -/
inductive JumpFn where
  | jr | callr | ret
deriving DecidableEq, Repr

/-- WAIT operations (R307). -/
inductive WaitFn where
  | evw | evs | wta | wtt | tend | evch
deriving DecidableEq, Repr

/-- SYS operations (R315). -/
inductive SysFn where
  | fence | syncI | rdstat | wrstat | rdsys | wrsys | csw | eret | trap | tlbi | tlbsync | setbank | getbank
deriving DecidableEq, Repr

/-- One operation with the fields of its format (R276). -/
inductive Op where
  | nop
  | alu (fn : AluFn) (d a b : BitVec 5)
  | imm (fn : ImmFn) (d a : BitVec 5) (imm : BitVec 11)
  | shi (d a : BitVec 5) (imm : BitVec 11)
  | movi (d : BitVec 5) (imm : BitVec 16)
  | movhi (d : BitVec 5) (imm : BitVec 16)
  | cmp (d a b : BitVec 5) (cond : BitVec 6)
  | cmpi (pd : BitVec 3) (cond : BitVec 4) (a : BitVec 5) (imm : BitVec 9)
  | mul (fn : MulFn) (d a b : BitVec 5)
  | div (signed : Bool) (d a b : BitVec 5)
  | bcd (fn : BcdFn) (d a b : BitVec 5)
  | pred (fn : PredFn) (d a b : BitVec 5)
  | lld (d a : BitVec 5) (sz : BitVec 3) (off : BitVec 8)
  | lst (d a : BitVec 5) (sz : BitVec 3) (off : BitVec 8)
  | gld (d : BitVec 5) (c : BitVec 4) (a : BitVec 5) (sz : BitVec 3) (off : BitVec 4)
  | gst (d : BitVec 5) (c : BitVec 4) (a : BitVec 5) (sz : BitVec 3) (off : BitVec 4)
  | lldf (d : BitVec 6) (a : BitVec 5) (sz : BitVec 2) (off : BitVec 8)
  | lstf (d : BitVec 6) (a : BitVec 5) (sz : BitVec 2) (off : BitVec 8)
  | gldf (d : BitVec 6) (c : BitVec 4) (a : BitVec 5) (sz : BitVec 2) (off : BitVec 4)
  | gstf (d : BitVec 6) (c : BitVec 4) (a : BitVec 5) (sz : BitVec 2) (off : BitVec 4)
  | kld (d a b : BitVec 5)
  | kst (d a b : BitVec 5)
  | ldw (d a : BitVec 5)
  | cap (fn : CapFn) (d a b : BitVec 5)
  | panq (d : BitVec 5) (c : BitVec 4) (a : BitVec 5)
  | br (an : Bool) (disp : BitVec 20)
  | call (an : Bool) (disp : BitVec 20)
  | jump (fn : JumpFn) (d a b : BitVec 5)
  | loop (a : BitVec 5) (off : BitVec 12)
  | loopi (count : BitVec 9) (off : BitVec 12)
  | rep (ni reg : Bool) (a : BitVec 5) (count : BitVec 8)
  | wait (fn : WaitFn) (d a b : BitVec 5)
  | sys (fn : SysFn) (d a b : BitVec 5)
  | fp (dbl : Bool) (fn : FpFn) (d a b : BitVec 6)
  | fun1 (fn : FunFn) (d a : BitVec 6)
  | fcmp (d a b : BitVec 6) (cond : BitVec 3)
  | fxfer (fn : XferFn) (d a : BitVec 6)
  | q (ty : QTy) (fn : QFn) (d a b : BitVec 5)
  | qmov (fn : QMovFn) (d a b : BitVec 5)
  | qsrch (d : BitVec 6) (w a : BitVec 5) (ty : BitVec 2) (max : Bool)
deriving DecidableEq, Repr

/-- A syllable: its guard fields and its operation. -/
structure Syl where
  hdr : Hdr
  op : Op
deriving DecidableEq, Repr

end Sys2Proof
end

