-- ==== Sys2Proof/Machine/CmdTypes.lean ====
section
/-!
DEFINITION. Sys2Proof/Machine/CmdTypes.lean: operand types of commands: what a command says of the world outside the
device (a received frame, a harvest header, an upset control-store word).
-/
namespace Sys2Proof

/-- What a received Ethernet frame is (R473). -/
inductive EthKind where
  | ptp
  | udp6 (port : BitVec 16)          -- UDP over IPv6 on another port than PTP's
  | icmp6
  | other
deriving DecidableEq, Repr

/-- A received harvest header (R479). -/
structure HgHdr where
  magic : BitVec 16
  ver : BitVec 8
  ty : BitVec 8
  group : BitVec 16
  src : BitVec 16
  dst : BitVec 16
  round : BitVec 32
  len : BitVec 16
deriving DecidableEq, Repr

/-- What an upset does to the strip of an order (R157, R201): a residue mismatch, or a control-store word or dispatch
entry (address 0x3F00 + opcode) that reads uncorrectable or corrected on the pan of stage k. -/
inductive StripFault where
  | none
  | residue
  | ctrlUe (k : Fin 4) (addr : BitVec 14) (synd : BitVec 9)
  | ctrlCe (k : Fin 4) (addr : BitVec 14) (synd : BitVec 9)
deriving DecidableEq, Repr

/-- A frame received on one Brine or pair-link lane (R230): its bytes before the CRC, its CRC, the code violations
it held, and the arrival of its first and last symbol in ns. -/
structure RxFrame where
  bytes : List Byte
  crc : Word
  cv : BitVec 8
  soft : BitVec 10
  eoft : BitVec 10
deriving DecidableEq, Repr

/-- An entry of the Rake that reads uncorrectable from now on (R271): in a physical bank, phase entry `index` or rule
`index`. -/
structure RkUpset where
  bank : BitVec 1
  phase : Bool
  index : BitVec 12
deriving DecidableEq, Repr

/-- A register of an Essan core as READREG and WRITEREG name it (R490). -/
inductive CoreReg where
  | w (i : BitVec 5)
  | f (i : BitVec 6)
  | p (i : BitVec 3)
  | c (i : BitVec 4)
  | pc
  | status
  | sys (k : BitVec 10)
deriving DecidableEq, Repr

/-- A request of a core for the fill of a line (R333 to R336): 0 a demand, 1 a prefetch, 2 a demand for a bundle that never
issues; and whether its source has accepted it. -/
structure FillReq where
  line : BitVec 26
  kind : Fin 3
  taken : Bool
deriving DecidableEq, Repr

/-- The 64-bit registers whose halves a master reads apart with a shadow (R61). -/
inductive Reg64 where
  | angle
  | tickno
deriving DecidableEq, Repr

/-- A write of ACn_CMP (R65): 64 bits at once, or one half. -/
inductive CmpPart where
  | all (v : Dword)
  | low (v : Word)
  | high (v : Word)
deriving DecidableEq, Repr

/-- An access to BAR2 (R37, R426): a write of 8 bytes to the doorbell of a queue, any other write, or a read. -/
inductive Doorbell where
  | queue (q : BitVec 16) (v : Dword)
  | other
  | read (len : BitVec 4)
deriving DecidableEq, Repr

/-- A lane pair: Sluice pair i (R455) or the pair link (R497). -/
inductive PairId where
  | sluice (i : Fin 4)
  | pairLink
deriving DecidableEq, Repr

/-- What starts a warm reset of the F-die (R518). -/
inductive WarmF where
  | pin
  | register
  | mismatch
deriving DecidableEq, Repr

/-- What starts a warm reset of the H-die (R518). -/
inductive WarmH where
  | pin
  | perst
  | register
deriving DecidableEq, Repr

end Sys2Proof
end

