-- ==== Sys2Proof/Syntax.lean ====
section
/-!
DEFINITION. Sys2Proof/Syntax.lean: the commands of the device, one constructor for each row of the table of operations
and events. A row of the Essan instruction set carries the core that receives the syllable, its guard fields and the
fields of its format (R275, R276). An event from outside carries what the outside world brings. What may come beside an event (bits
that the block sets in the same cycle, upsets of stored bits, returned requests, requests for line fills, writes of a strip
that a reset cuts) has a default, none.
-/
namespace Sys2Proof

inductive Instr where
  -- register pages
  | registerWrite (die : Die) (pg off : BitVec 12) (v : Word) (set : Word := 0)
  | pageRst (die : Die) (pg : BitVec 12)
  | pageLockSet (die : Die) (pg : BitVec 12)
  | pageFreeze (die : Die) (pg : BitVec 12) (on : Bool)
  | evPendClear (die : Die) (pg : BitVec 12) (v : Word) (set : Word := 0)
  | evEnWrite (die : Die) (pg : BitVec 12) (v : Word)
  -- the angle timebase and the angle compare units
  | tickBoundary
  | floorExit
  | tbEnable
  | tbDisable
  | tbLoadCopy
  | tbNWrite (v : BitVec 21)
  | nApplied
  | tbTickMinWrite (v : BitVec 16)
  | tbSrcWrite (v : BitVec 2)
  | gsyncEdge
  | gridSourceLost
  | fabricTimeMessage
  | fabricSourceLost
  | lowHalfRead (master : BitVec 8) (reg : Reg64)
  | highHalfRead (master : BitVec 8) (reg : Reg64)
  | acCmpWrite (n : Fin 32) (part : CmpPart)
  | acReloadWrite (n : Fin 32) (v : Dword)
  | acMatch (n : Fin 32)
  -- the Crystallizer
  | admitCtx (n : BitVec 14)
  | probe (n : BitVec 14)
  | remove (n : BitVec 14)
  | replace (n : BitVec 14)
  | suspend (n : BitVec 14)
  | resume (n : BitVec 14)
  | read (n : BitVec 14)
  | setcore
  | opDone
  | contextRelease (n : BitVec 14)
  | launchPoint (bad : List (BitVec 14) := [])
  | panDonePoint
  | taskBudgetExpiry (c : Fin 5)
  | commandExpire (e : BitVec 14)
  | acceptByTimeout (e : BitVec 14)
  | ttDataWrite (j : Fin 4) (v : Word)
  | ttCommit
  | cryEnableWrite (on : Bool)
  -- the Saltern
  | salternReadRequest (port : Fin 83) (a : BitVec 25) (len : BitVec 7) (back : List (Fin 83))
      (ups : List (BitVec 25 × Fin 13) := []) (tags : List (BitVec 15) := [])
  | salternWriteRequest (port : Fin 83) (a : BitVec 25) (bytes : List (Option Byte)) (cap : Bool)
      (back : List (Fin 83) := [])
  | rmapSet (j : Fin 16) (w : BitVec 22)
  | rmapClear (j : Fin 16) (w : BitVec 22)
  | rmapDone
  | fill
  | fillDone
  | ceclr
  -- the Pan engine
  | panq (c : Fin 5) (h : Hdr) (d : BitVec 5) (k : BitVec 4) (a : BitVec 5)
  | launchedOrderIssue
  | launchedOrderStart (p : Fin 4)
  | bgOrderStart (p : Fin 4)
  | stripCommit (p : Fin 4) (f : StripFault)
  | bgResume (p : Fin 4) (core : Fin 5)
  | skip (p : Fin 4)
  | flush (p : Fin 4)
  | ringConfigWrite (n : Fin 4) (cfg : Bool) (v : Word)
  | panEnableWrite (on : Bool)
  | patchenSet
  | quiet
  | patchenClear
  | patchWordWrite (j : Fin 4) (v : Word)
  | dispatchEntryWrite (v : Word)
  | patchidWrite (v : Word)
  | pcsCeclr
  -- Brine field links
  | brineLinkEnable (n : Fin 64) (on : Bool)
  | signalDetect (n : Fin 64) (l : Fin 2)
  | laneLock (n : Fin 64) (l : Fin 2)
  | trainingSetAnswer (n : Fin 64) (l : Fin 2) (rtd : BitVec 10) (portLane : Byte := 0) (stamp : Byte := 0)
  | laneTrainDone (n : Fin 64) (l : Fin 2)
  | trainTimeout (n : Fin 64) (l : Fin 2)
  | identityFrame (n : Fin 64) (l : Fin 2) (f : RxFrame)
  | idBad (n : Fin 64) (l : Fin 2)
  | laneSignalLoss (n : Fin 64) (l : Fin 2)
  | locklost (n : Fin 64) (l : Fin 2) (cv : BitVec 8)
  | laneFramesLost (n : Fin 64) (l : Fin 2)
  | autotrainRetry (n : Fin 64) (l : Fin 2)
  | retraina (n : Fin 64)
  | retrainb (n : Fin 64)
  | reident (n : Fin 64)
  | tickSend (n : Fin 64)
  | sampleFrameReceive (n : Fin 64) (a b : Option RxFrame) (lat : BitVec 10)
      (ups : List RkUpset := [])
  | landingNoFrame (n : Fin 64) (lat : BitVec 10 := 0) (ups : List RkUpset := [])
  | commandAreaClose
  | commandFrameSend (n : Fin 64)
  | grant (n : Fin 64) (epoch : BitVec 16)
  | release (n : Fin 64) (epoch : BitVec 16)
  -- the Rake
  | rakeEnableWrite (on : Bool)
  | emstopFall
  | eclr
  | unlatch
  | unlatchAll
  | maxclr
  | swap
  | swapped
  | ruleEntryWrite (j : Fin 4) (v : Word)
  | rkTestGo
  | testDone
  -- Essan: integer, decimal and predicate syllables
  | nop (c : Fin 5) (h : Hdr)
  | add (c : Fin 5) (h : Hdr) (d a b : BitVec 5)
  | sub (c : Fin 5) (h : Hdr) (d a b : BitVec 5)
  | and (c : Fin 5) (h : Hdr) (d a b : BitVec 5)
  | or (c : Fin 5) (h : Hdr) (d a b : BitVec 5)
  | xor (c : Fin 5) (h : Hdr) (d a b : BitVec 5)
  | andn (c : Fin 5) (h : Hdr) (d a b : BitVec 5)
  | shl (c : Fin 5) (h : Hdr) (d a b : BitVec 5)
  | shr (c : Fin 5) (h : Hdr) (d a b : BitVec 5)
  | sar (c : Fin 5) (h : Hdr) (d a b : BitVec 5)
  | ror (c : Fin 5) (h : Hdr) (d a b : BitVec 5)
  | min (c : Fin 5) (h : Hdr) (d a b : BitVec 5)
  | max (c : Fin 5) (h : Hdr) (d a b : BitVec 5)
  | minu (c : Fin 5) (h : Hdr) (d a b : BitVec 5)
  | maxu (c : Fin 5) (h : Hdr) (d a b : BitVec 5)
  | adds (c : Fin 5) (h : Hdr) (d a b : BitVec 5)
  | subs (c : Fin 5) (h : Hdr) (d a b : BitVec 5)
  | abs (c : Fin 5) (h : Hdr) (d a b : BitVec 5)
  | clz (c : Fin 5) (h : Hdr) (d a b : BitVec 5)
  | popc (c : Fin 5) (h : Hdr) (d a b : BitVec 5)
  | sextb (c : Fin 5) (h : Hdr) (d a b : BitVec 5)
  | sexth (c : Fin 5) (h : Hdr) (d a b : BitVec 5)
  | zexth (c : Fin 5) (h : Hdr) (d a b : BitVec 5)
  | addi (c : Fin 5) (h : Hdr) (d a : BitVec 5) (imm : BitVec 11)
  | andi (c : Fin 5) (h : Hdr) (d a : BitVec 5) (imm : BitVec 11)
  | ori (c : Fin 5) (h : Hdr) (d a : BitVec 5) (imm : BitVec 11)
  | xori (c : Fin 5) (h : Hdr) (d a : BitVec 5) (imm : BitVec 11)
  | shi (c : Fin 5) (h : Hdr) (d a : BitVec 5) (imm : BitVec 11)
  | movi (c : Fin 5) (h : Hdr) (d : BitVec 5) (imm : BitVec 16)
  | movhi (c : Fin 5) (h : Hdr) (d : BitVec 5) (imm : BitVec 16)
  | cmp (c : Fin 5) (h : Hdr) (d a b : BitVec 5) (cond : BitVec 6)
  | cmpi (c : Fin 5) (h : Hdr) (pd : BitVec 3) (cond : BitVec 4) (a : BitVec 5) (imm : BitVec 9)
  | mul (c : Fin 5) (h : Hdr) (d a b : BitVec 5)
  | mulh (c : Fin 5) (h : Hdr) (d a b : BitVec 5)
  | mulhu (c : Fin 5) (h : Hdr) (d a b : BitVec 5)
  | mulq (c : Fin 5) (h : Hdr) (d a b : BitVec 5)
  | macq (c : Fin 5) (h : Hdr) (d a b : BitVec 5)
  | mac (c : Fin 5) (h : Hdr) (d a b : BitVec 5)
  | divu (c : Fin 5) (h : Hdr) (d a b : BitVec 5)
  | divs (c : Fin 5) (h : Hdr) (d a b : BitVec 5)
  | divisionComplete (c : Fin 5)
  | badd (c : Fin 5) (h : Hdr) (d a b : BitVec 5)
  | baddc (c : Fin 5) (h : Hdr) (d a b : BitVec 5)
  | bsub (c : Fin 5) (h : Hdr) (d a b : BitVec 5)
  | bsubc (c : Fin 5) (h : Hdr) (d a b : BitVec 5)
  | bshl (c : Fin 5) (h : Hdr) (d a b : BitVec 5)
  | bshr (c : Fin 5) (h : Hdr) (d a b : BitVec 5)
  | bfromb (c : Fin 5) (h : Hdr) (d a b : BitVec 5)
  | btob (c : Fin 5) (h : Hdr) (d a b : BitVec 5)
  | pand (c : Fin 5) (h : Hdr) (d a b : BitVec 5)
  | por (c : Fin 5) (h : Hdr) (d a b : BitVec 5)
  | pxor (c : Fin 5) (h : Hdr) (d a b : BitVec 5)
  | pandn (c : Fin 5) (h : Hdr) (d a b : BitVec 5)
  | pnot (c : Fin 5) (h : Hdr) (d a b : BitVec 5)
  | pmovw (c : Fin 5) (h : Hdr) (d a b : BitVec 5)
  | wmovp (c : Fin 5) (h : Hdr) (d a b : BitVec 5)
  -- Essan: memory and capability syllables
  | lld (c : Fin 5) (h : Hdr) (d a : BitVec 5) (sz : BitVec 3) (off : BitVec 8)
  | lst (c : Fin 5) (h : Hdr) (d a : BitVec 5) (sz : BitVec 3) (off : BitVec 8)
  | gld (c : Fin 5) (h : Hdr) (d : BitVec 5) (k : BitVec 4) (a : BitVec 5) (sz : BitVec 3) (off : BitVec 4)
  | gst (c : Fin 5) (h : Hdr) (d : BitVec 5) (k : BitVec 4) (a : BitVec 5) (sz : BitVec 3) (off : BitVec 4)
  | lldf (c : Fin 5) (h : Hdr) (d : BitVec 6) (a : BitVec 5) (sz : BitVec 2) (off : BitVec 8)
  | lstf (c : Fin 5) (h : Hdr) (d : BitVec 6) (a : BitVec 5) (sz : BitVec 2) (off : BitVec 8)
  | gldf (c : Fin 5) (h : Hdr) (d : BitVec 6) (k : BitVec 4) (a : BitVec 5) (sz : BitVec 2) (off : BitVec 4)
  | gstf (c : Fin 5) (h : Hdr) (d : BitVec 6) (k : BitVec 4) (a : BitVec 5) (sz : BitVec 2) (off : BitVec 4)
  | globalLoadReturn (c : Fin 5) (j : BitVec 3) (ups : Option (BitVec 4 × BitVec 8))
  | kld (c : Fin 5) (h : Hdr) (d a b : BitVec 5)
  | kst (c : Fin 5) (h : Hdr) (d a b : BitVec 5)
  | kmov (c : Fin 5) (h : Hdr) (d a b : BitVec 5)
  | knarrow (c : Fin 5) (h : Hdr) (d a b : BitVec 5)
  | ktrim (c : Fin 5) (h : Hdr) (d a b : BitVec 5)
  | klock (c : Fin 5) (h : Hdr) (d a b : BitVec 5)
  | kopen (c : Fin 5) (h : Hdr) (d a b : BitVec 5)
  | kvoid (c : Fin 5) (h : Hdr) (d a b : BitVec 5)
  | kfield (c : Fin 5) (h : Hdr) (d a b : BitVec 5)
  | krds (c : Fin 5) (h : Hdr) (d a b : BitVec 5)
  | kwrs (c : Fin 5) (h : Hdr) (d a b : BitVec 5)
  | ldw (c : Fin 5) (h : Hdr) (d a : BitVec 5)
  -- Essan: transfers, loops, repetition and waits
  | br (c : Fin 5) (h : Hdr) (an : Bool) (disp : BitVec 20)
  | call (c : Fin 5) (h : Hdr) (an : Bool) (disp : BitVec 20)
  | jr (c : Fin 5) (h : Hdr) (d a b : BitVec 5)
  | callr (c : Fin 5) (h : Hdr) (d a b : BitVec 5)
  | ret (c : Fin 5) (h : Hdr) (d a b : BitVec 5)
  | loop (c : Fin 5) (h : Hdr) (a : BitVec 5) (off : BitVec 12)
  | loopi (c : Fin 5) (h : Hdr) (count : BitVec 9) (off : BitVec 12)
  | rep (c : Fin 5) (h : Hdr) (reg : Bool) (a : BitVec 5) (count : BitVec 8)
  | repn (c : Fin 5) (h : Hdr) (reg : Bool) (a : BitVec 5) (count : BitVec 8)
  | repnCut (c : Fin 5)
  | evw (c : Fin 5) (h : Hdr) (d a b : BitVec 5)
  | evwTimeout (c : Fin 5)
  | evs (c : Fin 5) (h : Hdr) (d a b : BitVec 5)
  | wta (c : Fin 5) (h : Hdr) (d a b : BitVec 5)
  | wtt (c : Fin 5) (h : Hdr) (d a b : BitVec 5)
  | waitTargetReached (c : Fin 5)
  | tend (c : Fin 5) (h : Hdr) (d a b : BitVec 5)
  | evch (c : Fin 5) (h : Hdr) (d a b : BitVec 5)
  -- Essan: system syllables and the TLB
  | fence (c : Fin 5) (h : Hdr) (d a b : BitVec 5)
  | syncI (c : Fin 5) (h : Hdr) (d a b : BitVec 5)
  | rdstat (c : Fin 5) (h : Hdr) (d a b : BitVec 5)
  | wrstat (c : Fin 5) (h : Hdr) (d a b : BitVec 5)
  | rdsys (c : Fin 5) (h : Hdr) (d a b : BitVec 5)
  | wrsys (c : Fin 5) (h : Hdr) (d a b : BitVec 5)
  | csw (c : Fin 5) (h : Hdr) (d a b : BitVec 5)
  | eret (c : Fin 5) (h : Hdr) (d a b : BitVec 5)
  | trap (c : Fin 5) (h : Hdr) (d a b : BitVec 5)
  | tlbi (c : Fin 5) (h : Hdr) (d a b : BitVec 5)
  | tlbiApply (c : Fin 4)
  | tlbsync (c : Fin 5) (h : Hdr) (d a b : BitVec 5)
  | setbank (c : Fin 5) (h : Hdr) (d a b : BitVec 5)
  | getbank (c : Fin 5) (h : Hdr) (d a b : BitVec 5)
  | tlbWrite (c : Fin 4)
  | wrnext (c : Fin 4)
  | tlbRead (c : Fin 4)
  | tlbProbe (c : Fin 4)
  -- Essan: floating point
  | faddS (c : Fin 5) (h : Hdr) (d a b : BitVec 6)
  | fsubS (c : Fin 5) (h : Hdr) (d a b : BitVec 6)
  | fmulS (c : Fin 5) (h : Hdr) (d a b : BitVec 6)
  | fdivS (c : Fin 5) (h : Hdr) (d a b : BitVec 6)
  | fmaS (c : Fin 5) (h : Hdr) (d a b : BitVec 6)
  | fminS (c : Fin 5) (h : Hdr) (d a b : BitVec 6)
  | fmaxS (c : Fin 5) (h : Hdr) (d a b : BitVec 6)
  | fnmaS (c : Fin 5) (h : Hdr) (d a b : BitVec 6)
  | faddD (c : Fin 5) (h : Hdr) (d a b : BitVec 6)
  | fsubD (c : Fin 5) (h : Hdr) (d a b : BitVec 6)
  | fmulD (c : Fin 5) (h : Hdr) (d a b : BitVec 6)
  | fdivD (c : Fin 5) (h : Hdr) (d a b : BitVec 6)
  | fmaD (c : Fin 5) (h : Hdr) (d a b : BitVec 6)
  | fminD (c : Fin 5) (h : Hdr) (d a b : BitVec 6)
  | fmaxD (c : Fin 5) (h : Hdr) (d a b : BitVec 6)
  | fnmaD (c : Fin 5) (h : Hdr) (d a b : BitVec 6)
  | fsqrtS (c : Fin 5) (h : Hdr) (d a : BitVec 6)
  | fsqrtD (c : Fin 5) (h : Hdr) (d a : BitVec 6)
  | fnegS (c : Fin 5) (h : Hdr) (d a : BitVec 6)
  | fnegD (c : Fin 5) (h : Hdr) (d a : BitVec 6)
  | fabsS (c : Fin 5) (h : Hdr) (d a : BitVec 6)
  | fabsD (c : Fin 5) (h : Hdr) (d a : BitVec 6)
  | fmov (c : Fin 5) (h : Hdr) (d a : BitVec 6)
  | fcvtDS (c : Fin 5) (h : Hdr) (d a : BitVec 6)
  | fcvtSD (c : Fin 5) (h : Hdr) (d a : BitVec 6)
  | fcvtHS (c : Fin 5) (h : Hdr) (d a : BitVec 6)
  | fcvtSH (c : Fin 5) (h : Hdr) (d a : BitVec 6)
  | fcmp (c : Fin 5) (h : Hdr) (d a b : BitVec 6) (cond : BitVec 3)
  | fmvwf (c : Fin 5) (h : Hdr) (d a : BitVec 6)
  | fmvfw (c : Fin 5) (h : Hdr) (d a : BitVec 6)
  | fcvtws (c : Fin 5) (h : Hdr) (d a : BitVec 6)
  | fcvtsw (c : Fin 5) (h : Hdr) (d a : BitVec 6)
  | fcvtqs (c : Fin 5) (h : Hdr) (d a : BitVec 6)
  | fcvtsq (c : Fin 5) (h : Hdr) (d a : BitVec 6)
  | fcvtwd (c : Fin 5) (h : Hdr) (d a : BitVec 6)
  | fcvtdw (c : Fin 5) (h : Hdr) (d a : BitVec 6)
  -- Essan: vectors
  | qadd (c : Fin 5) (h : Hdr) (ty : QTy) (d a b : BitVec 5)
  | qsub (c : Fin 5) (h : Hdr) (ty : QTy) (d a b : BitVec 5)
  | qmul (c : Fin 5) (h : Hdr) (ty : QTy) (d a b : BitVec 5)
  | qmac (c : Fin 5) (h : Hdr) (ty : QTy) (d a b : BitVec 5)
  | qmin (c : Fin 5) (h : Hdr) (ty : QTy) (d a b : BitVec 5)
  | qmax (c : Fin 5) (h : Hdr) (ty : QTy) (d a b : BitVec 5)
  | qabs (c : Fin 5) (h : Hdr) (ty : QTy) (d a b : BitVec 5)
  | qneg (c : Fin 5) (h : Hdr) (ty : QTy) (d a b : BitVec 5)
  | qsum (c : Fin 5) (h : Hdr) (ty : QTy) (d a b : BitVec 5)
  | qcmp (c : Fin 5) (h : Hdr) (ty : QTy) (cond : BitVec 3) (d a b : BitVec 5)
  | qand (c : Fin 5) (h : Hdr) (ty : QTy) (d a b : BitVec 5)
  | qor (c : Fin 5) (h : Hdr) (ty : QTy) (d a b : BitVec 5)
  | qxor (c : Fin 5) (h : Hdr) (ty : QTy) (d a b : BitVec 5)
  | qmov (c : Fin 5) (h : Hdr) (d a b : BitVec 5)
  | qsplat (c : Fin 5) (h : Hdr) (d a b : BitVec 5)
  | qbcast (c : Fin 5) (h : Hdr) (d a b : BitVec 5)
  | qins (c : Fin 5) (h : Hdr) (d a b : BitVec 5)
  | qext (c : Fin 5) (h : Hdr) (d a b : BitVec 5)
  | qsrch (c : Fin 5) (h : Hdr) (d : BitVec 6) (w a : BitVec 5) (ty : BitVec 2) (mx : Bool)
  -- events of the Essan cores
  | lineFillComplete (c : Fin 5) (line : BitVec 26) (kind : Fin 3) (reqs : List FillReq := [])
  | lbflush (c : Fin 4)
  | bpflush (c : Fin 4)
  | cntclr (c : Fin 4)
  | interruptRecognition (c : Fin 5)
  | niOverrun (c : Fin 5)
  -- timers and event channels
  | gtCompareMatch (n : Fin 32) (k : BitVec 16)
  | gtCmpWrite (n : Fin 32) (j : Fin 2) (v : Word)
  | gtCountWrite (n : Fin 32) (v : Word)
  | gtReloadWrite (n : Fin 32) (v : Word)
  | gtClr (n : Fin 32)
  | gtRunSet (n : Fin 32)
  | egSwPulse (g : Fin 16) (v : BitVec 16)
  | eventChannelDelivery (ch : BitVec 8)
  | evCfgWrite (ch : BitVec 8) (v : Word)
  | egCtrlWrite (g : Fin 16) (v : Word)
  -- host queues and the Tally journal
  | doorbellWrite (w : Doorbell)
  | createCmd
  | createEvt
  | delete
  | qopRead
  | qopDone
  | entryFetch (q : BitVec 16) (entry : List Byte)
  | fetchErr (q : BitVec 16)
  | commandSend (q : BitVec 16)
  | journalCommit
  | journalAckReceive
  | acceptNoticeReceive
  | completionReceive
  | journalRelease
  | eventRecordRoute
  | replay
  | replayDone
  | tjRelease
  -- the Sluice
  | sluiceSignalDetect (p : PairId)
  | sluicePairLock (p : PairId)
  | pairUp (p : PairId) (rtF rtH : BitVec 12)
  | pairDown (p : PairId)
  | sluicePairRelock (p : PairId)
  | sluiceCellReceive (dir : Bool) (p : Fin 4) (data : Bool) (ack : Option (Fin 8)) (ctl good : Bool)
  | sluiceRetransmit (dir : Bool) (cls : Fin 8)
  | init (fromH : Bool)
  | initAck (toH : Bool)
  | dipOn
  | dipOff
  | telemetryRead
  | telNew
  | harvestRecordReceive
  | timeMessageSend
  | timeMessageReceiveH
  | timeMessageDiscard
  -- Ethernet, PTP and the harvest
  | ptpFrameReceive (m : Fin 2) (domain : Byte) (off : Option Int)
  | ptStep (v : Word)
  | ethFrameReceive (m : Fin 2) (k : EthKind) (len : BitVec 16) (fcsOk : Bool)
  | planSend
  | aggregateSend
  | allocSend
  | planReceive (h : HgHdr) (tot : List Int) (mem : BitVec 16) (src : BitVec 128 := 0)
  | allocReceive (h : HgHdr) (src : BitVec 128) (scale : List (BitVec 16)) (mem : BitVec 16)
  | harvestRoundStart
  -- lockstep and recovery
  | lockstep (c : Fin 4) (kind : BitVec 4)
  | s0Lockstep
  | recover (c : Fin 4)
  | autoRecover (c : Fin 4)
  | recovered (c : Fin 4)
  | inject (mask : BitVec 4)
  | logicMismatch
  -- the debug agent
  | halt (c : Fin 4)
  | debugResume (c : Fin 4)
  | step (c : Fin 4)
  | readreg (c : Fin 4) (reg : CoreReg)
  | writereg (c : Fin 4) (reg : CoreReg) (v : BitVec 128)
  | readmem (a : Word) (len : BitVec 7)
  | writemem (a : Word) (bytes : List Byte)
  | reboot
  | challenge
  | unlock (scope slot : BitVec 8) (pub sig : List Byte)
  -- duplex operation
  | pairFrameSend
  | pairFrameReceive (bytes : List Byte) (sof : BitVec 12)
  | pairLost
  | join
  -- supplies, clocks and resets
  | brownoutStart
  | brownWarn (mv : BitVec 16) (ns : Word)
  | hDipStart
  | hDipRecover (mv : BitVec 16) (ns : Word)
  | tempHigh (hDie : Bool) (t : BitVec 16)
  | refLost
  | refOk
  | pwrHalt
  | pwrSleep
  | fSleep
  | wake
  | wakef
  | coldBootF (below emLow : Bool)
  | coldBootH (below : Bool)
  | fWarmReset (cause : WarmF) (cuts : List (Fin 4 × BitVec 11) := [])
  | warmDone
  | hWarmReset (cause : WarmH)
  | resyncDone
  | pcieHotReset
  | framego
  | corerunWrite (mask : BitVec 4)
  -- security
  | revoke (arg : BitVec 8)
  | drevoke (arg : BitVec 8)
  | svnbump
  | lcadv (arg : BitVec 8)
  | otpDone
  | reimageWrite (on : Bool)
  | rngrst
  | secRngRead (master : BitVec 8)
  | rngFail
  | attest (cseq : Word) (q : BitVec 16) (nonce : List Byte)
  | identity (cseq : Word) (q : BitVec 16)
  | attestationAnswer
  -- the service panel
  | btnDown
  | btnHold
  | btnUp (ms : Word)
  | latchOpen (n : Fin 4)
  | latchClose (n : Fin 4)
  | touch (e : Fin 2) (ms : Word) (base count : BitVec 16)
  | usbAttach
  | usbDetach
  | lamptest
  | lamptestEnd
  -- Essan: floating point
  | fdivComplete (c : Fin 5)
  -- host queues and the Tally journal
  | journalWriteComplete (e : BitVec 14)
  -- supplies, clocks and resets
  | pllUnlock (lpll : Bool)
  | tempHighEnd (hDie : Bool) (t : BitVec 16)
  -- the Rake
  | emstopRise
  -- the service panel
  | touchRelease (e : Fin 2) (base count : BitVec 16)
  -- Ethernet, PTP and the harvest
  | ethLinkUp (m : Fin 2)
  | ethLinkDown (m : Fin 2)
  -- host queues and the Tally journal
  | pcieLinkUp (width : BitVec 6) (speed : BitVec 4)
  | pcieD3hot (on : Bool)
  -- the Sluice
  | pairdisWrite (v : BitVec 4)
  -- Brine field links
  | lanemodeWrite (n : Fin 64) (v : BitVec 2)
  -- the angle timebase and the angle compare units
  | rateHoldWrite (v : BitVec 48)
  | tbGridSrcWrite (v : Word)
  -- security
  | rngStartUpPassed
deriving DecidableEq, Repr

end Sys2Proof
end

