-- ==== Sys2Proof/WellFormed.lean ====
section
/-!
DEFINITION. Sys2Proof/WellFormed.lean: what a command's operands must satisfy to be a command the outside world can bring:
a context number (R69), a request within one beat (R103, R106), the length of a queue entry (R429), of a harvest message
(R479), of a key, a signature or a nonce (R537, R539). A syllable is well formed whatever its fields hold: reserved
fields are the core's to judge (R322).
-/
namespace Sys2Proof

def wellFormed (i : Instr) : Bool :=
  match i with
  | .registerWrite .. => true
  | .pageRst .. => true
  | .pageLockSet .. => true
  | .pageFreeze .. => true
  | .evPendClear .. => true
  | .evEnWrite .. => true
  | .tickBoundary => true
  | .floorExit => true
  | .tbEnable => true
  | .tbDisable => true
  | .tbLoadCopy => true
  | .tbNWrite .. => true
  | .nApplied => true
  | .tbTickMinWrite .. => true
  | .tbSrcWrite .. => true
  | .gsyncEdge => true
  | .gridSourceLost => true
  | .fabricTimeMessage => true
  | .fabricSourceLost => true
  | .lowHalfRead master _ => decide (master.toNat ≤ 82)
  | .highHalfRead master _ => decide (master.toNat ≤ 82)
  | .acCmpWrite .. => true
  | .acReloadWrite .. => true
  | .acMatch .. => true
  | .admitCtx n => decide (n.toNat < 10240)
  | .probe n => decide (n.toNat < 10240)
  | .remove n => decide (n.toNat < 10240)
  | .replace n => decide (n.toNat < 10240)
  | .suspend n => decide (n.toNat < 10240)
  | .resume n => decide (n.toNat < 10240)
  | .read n => decide (n.toNat < 10240)
  | .setcore => true
  | .opDone => true
  | .contextRelease n => decide (n.toNat < 10240)
  | .launchPoint bad => bad.all fun n => decide (n.toNat < 10240)
  | .panDonePoint => true
  | .taskBudgetExpiry .. => true
  | .commandExpire .. => true
  | .acceptByTimeout .. => true
  | .ttDataWrite .. => true
  | .ttCommit => true
  | .cryEnableWrite .. => true
  | .salternReadRequest _ a len .. => decide (0 < len.toNat) && decide (a.toNat % 64 + len.toNat ≤ 64)
  | .salternWriteRequest _ a bytes cap _ =>
    decide (0 < bytes.length) && decide (a.toNat % 64 + bytes.length ≤ 64) && (!cap || (bytes.length == 16 && a.toNat % 16 == 0))
  | .rmapSet .. => true
  | .rmapClear .. => true
  | .rmapDone => true
  | .fill => true
  | .fillDone => true
  | .ceclr => true
  | .panq .. => true
  | .launchedOrderIssue => true
  | .launchedOrderStart .. => true
  | .bgOrderStart .. => true
  | .stripCommit .. => true
  | .bgResume .. => true
  | .skip .. => true
  | .flush .. => true
  | .ringConfigWrite .. => true
  | .panEnableWrite .. => true
  | .patchenSet => true
  | .quiet => true
  | .patchenClear => true
  | .patchWordWrite .. => true
  | .dispatchEntryWrite .. => true
  | .patchidWrite .. => true
  | .pcsCeclr => true
  | .brineLinkEnable .. => true
  | .signalDetect .. => true
  | .laneLock .. => true
  | .trainingSetAnswer .. => true
  | .laneTrainDone .. => true
  | .trainTimeout .. => true
  | .identityFrame .. => true
  | .idBad .. => true
  | .laneSignalLoss .. => true
  | .locklost .. => true
  | .laneFramesLost .. => true
  | .autotrainRetry .. => true
  | .retraina .. => true
  | .retrainb .. => true
  | .reident .. => true
  | .tickSend .. => true
  | .sampleFrameReceive .. => true
  | .landingNoFrame .. => true
  | .commandAreaClose => true
  | .commandFrameSend .. => true
  | .grant .. => true
  | .release .. => true
  | .rakeEnableWrite .. => true
  | .emstopFall => true
  | .eclr => true
  | .unlatch => true
  | .unlatchAll => true
  | .maxclr => true
  | .swap => true
  | .swapped => true
  | .ruleEntryWrite .. => true
  | .rkTestGo => true
  | .testDone => true
  | .nop .. => true
  | .add .. => true
  | .sub .. => true
  | .and .. => true
  | .or .. => true
  | .xor .. => true
  | .andn .. => true
  | .shl .. => true
  | .shr .. => true
  | .sar .. => true
  | .ror .. => true
  | .min .. => true
  | .max .. => true
  | .minu .. => true
  | .maxu .. => true
  | .adds .. => true
  | .subs .. => true
  | .abs .. => true
  | .clz .. => true
  | .popc .. => true
  | .sextb .. => true
  | .sexth .. => true
  | .zexth .. => true
  | .addi .. => true
  | .andi .. => true
  | .ori .. => true
  | .xori .. => true
  | .shi .. => true
  | .movi .. => true
  | .movhi .. => true
  | .cmp .. => true
  | .cmpi .. => true
  | .mul .. => true
  | .mulh .. => true
  | .mulhu .. => true
  | .mulq .. => true
  | .macq .. => true
  | .mac .. => true
  | .divu .. => true
  | .divs .. => true
  | .divisionComplete .. => true
  | .badd .. => true
  | .baddc .. => true
  | .bsub .. => true
  | .bsubc .. => true
  | .bshl .. => true
  | .bshr .. => true
  | .bfromb .. => true
  | .btob .. => true
  | .pand .. => true
  | .por .. => true
  | .pxor .. => true
  | .pandn .. => true
  | .pnot .. => true
  | .pmovw .. => true
  | .wmovp .. => true
  | .lld .. => true
  | .lst .. => true
  | .gld .. => true
  | .gst .. => true
  | .lldf .. => true
  | .lstf .. => true
  | .gldf .. => true
  | .gstf .. => true
  | .globalLoadReturn .. => true
  | .kld .. => true
  | .kst .. => true
  | .kmov .. => true
  | .knarrow .. => true
  | .ktrim .. => true
  | .klock .. => true
  | .kopen .. => true
  | .kvoid .. => true
  | .kfield .. => true
  | .krds .. => true
  | .kwrs .. => true
  | .ldw .. => true
  | .br .. => true
  | .call .. => true
  | .jr .. => true
  | .callr .. => true
  | .ret .. => true
  | .loop .. => true
  | .loopi .. => true
  | .rep .. => true
  | .repn .. => true
  | .repnCut .. => true
  | .evw .. => true
  | .evwTimeout .. => true
  | .evs .. => true
  | .wta .. => true
  | .wtt .. => true
  | .waitTargetReached .. => true
  | .tend .. => true
  | .evch .. => true
  | .fence .. => true
  | .syncI .. => true
  | .rdstat .. => true
  | .wrstat .. => true
  | .rdsys .. => true
  | .wrsys .. => true
  | .csw .. => true
  | .eret .. => true
  | .trap .. => true
  | .tlbi .. => true
  | .tlbiApply .. => true
  | .tlbsync .. => true
  | .setbank .. => true
  | .getbank .. => true
  | .tlbWrite .. => true
  | .wrnext .. => true
  | .tlbRead .. => true
  | .tlbProbe .. => true
  | .faddS .. => true
  | .fsubS .. => true
  | .fmulS .. => true
  | .fdivS .. => true
  | .fmaS .. => true
  | .fminS .. => true
  | .fmaxS .. => true
  | .fnmaS .. => true
  | .faddD .. => true
  | .fsubD .. => true
  | .fmulD .. => true
  | .fdivD .. => true
  | .fmaD .. => true
  | .fminD .. => true
  | .fmaxD .. => true
  | .fnmaD .. => true
  | .fsqrtS .. => true
  | .fsqrtD .. => true
  | .fnegS .. => true
  | .fnegD .. => true
  | .fabsS .. => true
  | .fabsD .. => true
  | .fmov .. => true
  | .fcvtDS .. => true
  | .fcvtSD .. => true
  | .fcvtHS .. => true
  | .fcvtSH .. => true
  | .fcmp .. => true
  | .fmvwf .. => true
  | .fmvfw .. => true
  | .fcvtws .. => true
  | .fcvtsw .. => true
  | .fcvtqs .. => true
  | .fcvtsq .. => true
  | .fcvtwd .. => true
  | .fcvtdw .. => true
  | .qadd .. => true
  | .qsub .. => true
  | .qmul .. => true
  | .qmac .. => true
  | .qmin .. => true
  | .qmax .. => true
  | .qabs .. => true
  | .qneg .. => true
  | .qsum .. => true
  | .qcmp .. => true
  | .qand .. => true
  | .qor .. => true
  | .qxor .. => true
  | .qmov .. => true
  | .qsplat .. => true
  | .qbcast .. => true
  | .qins .. => true
  | .qext .. => true
  | .qsrch .. => true
  | .lineFillComplete .. => true
  | .lbflush .. => true
  | .bpflush .. => true
  | .cntclr .. => true
  | .interruptRecognition .. => true
  | .niOverrun .. => true
  | .gtCompareMatch _ k => decide (0 < k.toNat)
  | .gtCmpWrite .. => true
  | .gtCountWrite .. => true
  | .gtReloadWrite .. => true
  | .gtClr .. => true
  | .gtRunSet .. => true
  | .egSwPulse .. => true
  | .eventChannelDelivery .. => true
  | .evCfgWrite .. => true
  | .egCtrlWrite .. => true
  | .doorbellWrite .. => true
  | .createCmd => true
  | .createEvt => true
  | .delete => true
  | .qopRead => true
  | .qopDone => true
  | .entryFetch _ entry => entry.length == 64
  | .fetchErr .. => true
  | .commandSend .. => true
  | .journalCommit => true
  | .journalAckReceive => true
  | .acceptNoticeReceive => true
  | .completionReceive => true
  | .journalRelease => true
  | .eventRecordRoute => true
  | .replay => true
  | .replayDone => true
  | .tjRelease => true
  | .sluiceSignalDetect .. => true
  | .sluicePairLock .. => true
  | .pairUp .. => true
  | .pairDown .. => true
  | .sluicePairRelock .. => true
  | .sluiceCellReceive .. => true
  | .sluiceRetransmit .. => true
  | .init .. => true
  | .initAck .. => true
  | .dipOn => true
  | .dipOff => true
  | .telemetryRead => true
  | .telNew => true
  | .harvestRecordReceive => true
  | .timeMessageSend => true
  | .timeMessageReceiveH => true
  | .timeMessageDiscard => true
  | .ptpFrameReceive .. => true
  | .ptStep .. => true
  | .ethFrameReceive .. => true
  | .planSend => true
  | .aggregateSend => true
  | .allocSend => true
  | .planReceive _ tot _ _ => tot.length == 16
  | .allocReceive _ _ scale _ => scale.length == 16
  | .harvestRoundStart => true
  | .lockstep .. => true
  | .s0Lockstep => true
  | .recover .. => true
  | .autoRecover .. => true
  | .recovered .. => true
  | .inject .. => true
  | .logicMismatch => true
  | .halt .. => true
  | .debugResume .. => true
  | .step .. => true
  | .readreg .. => true
  | .writereg .. => true
  | .readmem _ len => decide (0 < len.toNat)
  | .writemem _ bytes => decide (0 < bytes.length)
  | .reboot => true
  | .challenge => true
  | .unlock _ _ pub sig => pub.length == 132 && sig.length == 132
  | .pairFrameSend => true
  | .pairFrameReceive .. => true
  | .pairLost => true
  | .join => true
  | .brownoutStart => true
  | .brownWarn .. => true
  | .hDipStart => true
  | .hDipRecover .. => true
  | .tempHigh .. => true
  | .refLost => true
  | .refOk => true
  | .pwrHalt => true
  | .pwrSleep => true
  | .fSleep => true
  | .wake => true
  | .wakef => true
  | .coldBootF .. => true
  | .coldBootH .. => true
  | .fWarmReset .. => true
  | .warmDone => true
  | .hWarmReset .. => true
  | .resyncDone => true
  | .pcieHotReset => true
  | .framego => true
  | .corerunWrite .. => true
  | .revoke .. => true
  | .drevoke .. => true
  | .svnbump => true
  | .lcadv .. => true
  | .otpDone => true
  | .reimageWrite .. => true
  | .rngrst => true
  | .secRngRead .. => true
  | .rngFail => true
  | .attest _ _ nonce => nonce.length == 32
  | .identity .. => true
  | .attestationAnswer => true
  | .btnDown => true
  | .btnHold => true
  | .btnUp .. => true
  | .latchOpen .. => true
  | .latchClose .. => true
  | .touch .. => true
  | .usbAttach => true
  | .usbDetach => true
  | .lamptest => true
  | .lamptestEnd => true
  | .fdivComplete .. => true
  | .journalWriteComplete .. => true
  | .pllUnlock .. => true
  | .tempHighEnd .. => true
  | .emstopRise => true
  | .touchRelease .. => true
  | .ethLinkUp .. => true
  | .ethLinkDown .. => true
  | .pcieLinkUp width speed =>
    (width == 1 || width == 2 || width == 4) && decide (1 ≤ speed.toNat) && decide (speed.toNat ≤ 4)
  | .pcieD3hot .. => true
  | .pairdisWrite .. => true
  | .lanemodeWrite .. => true
  | .rateHoldWrite .. => true
  | .tbGridSrcWrite .. => true
  | .rngStartUpPassed => true

/-- The same as a proposition. -/
abbrev WellFormed (i : Instr) : Prop := wellFormed i = true

end Sys2Proof
end

