-- ==== Sys2Proof/Decode.lean ====
section
/-!
DEFINITION. Sys2Proof/Decode.lean: the table of operations and events gives no row any bits, so no word spells a command:
commands arrive as operands, not as encodings. The words of Essan syllables (R275, R276) are the spec's own encoding of
fields that a syllable command carries as operands.
-/
namespace Sys2Proof

/-- The command that a word spells by the table's bits: none, since the table gives none. -/
def decodeTableWord (_nbits _w : Nat) : Option Instr := none

end Sys2Proof
end

