-- ==== Sys2Proof/Config.lean ====
section
/-!
DEFINITION. Sys2Proof/Config.lean: what one implementation fixes and the spec leaves open. Every `opaque` constant here
is a free value: it has no body, so nothing can be proved about which value it holds.
-/
namespace Sys2Proof.Config

/-- DESIGN CHOICE (log 4): the stepping this manual describes (R1, R45). -/
def step : Nat := 0xB0

/-- Fused at production: the orderable code, 0 TG5120-AC, 1 TG5120-AI (R1, R45). -/
opaque grade : BitVec 1
/-- Fused: the production lot (R45), per die (0 F, 1 H). -/
opaque lot : Nat → BitVec 64
/-- Fused: banks using one and two redundant columns (R118). -/
opaque fuse1 : Nat
opaque fuse2 : Nat
/-- 0 to 512 banks each, 512 together at most (R118). -/
def banks1 : BitVec 10 := BitVec.ofNat 10 (fuse1 % 513)
def banks2 : BitVec 10 := BitVec.ofNat 10 (fuse2 % (513 - fuse1 % 513))
/-- A fresh value where the spec says a value is undefined, device-specific or not stated; the argument is the model's
plain counter (log 5). -/
opaque free : Nat → BitVec 64
/-- Where the base store holds the routine of an opcode (R198): not given by the spec. -/
opaque romStart : Nat → BitVec 14
/-- The words of the base store, read-only memory (R200): not given by the spec. -/
opaque csBase : Nat → BitVec 128
/-- The boot ROM's bytes (R31): not given by the spec. -/
opaque romByte : Nat → BitVec 8
/-- OTP contents at production (R534): lifecycle, revoked bits, SVNMIN, key hashes (0 to 3 image, 4 and 5 debug), DEVID,
DIKPUB and VSIG, all device-specific. -/
opaque otpLc : BitVec 2
opaque otpKeyRev : BitVec 4
opaque otpDbgRev : BitVec 2
opaque otpSvnMin : BitVec 7
opaque otpHash : Nat → Vector (BitVec 8) 64
opaque otpDevId : BitVec 64
opaque otpDikPub : Vector (BitVec 8) 132
opaque otpVsig : Vector (BitVec 8) 132
/-- SHA-512 of a byte string, 64 bytes (R525 to R542). -/
opaque sha512 : List Byte → Vector (BitVec 8) 64
/-- ECDSA P-521 verification of a signature over a message under a public key (R525 to R542). -/
opaque ecdsaVerify : List Byte → List Byte → List Byte → Bool
/-- ECDSA P-521 signature of a message under a device key, 132 bytes (R539). -/
opaque ecdsaSign : Nat → List Byte → Vector (BitVec 8) 132

end Sys2Proof.Config
end

