-- ==== Sys2Proof/Machine/RegTable.lean ====
section
/-!
DEFINITION. Sys2Proof/Machine/RegTable.lean: the register tables of the spec (R38, R45, R68, R101, R131, R164, R165,
R217, R255, R274, R350, R373, R401, R418, R451, R452, R483, R505, R524, R542, R551) as data: every register's page,
offset, fields, access codes and reset values, and a name for every register and field.
A page number is the F-die page, or 0x1000 plus the H-die page. A register's key is page * 1024 + offset / 4.
-/
namespace Sys2Proof.Machine

/-- One named field of a 32-bit register word: the word's key, the lowest bit, the width. -/
structure Fld where
  key : Nat
  lo : Nat
  width : Nat
deriving DecidableEq, Repr

/-- Access codes of the register tables (R6). `rwz` and `roz` are counters marked RW and RO that only a write
of 0 clears (R571). -/
inductive Acc where
  | ro | rw | rwl | w1c | w1s | wo | rwz | roz
deriving DecidableEq, Repr

/-- One field of a register table: lowest bit, width, access, reset value, and whether the table marks it Retained. -/
structure FieldD where
  lo : Nat
  width : Nat
  acc : Acc
  rst : Nat
  retained : Bool
deriving DecidableEq, Repr

/-- One register of a register table: name, first page, how many pages hold it and their spacing, offset, how many
copies the page holds and their spacing, whether it is a 64-bit register (R41), and its fields. -/
structure RegD where
  name : String
  page : Nat
  npages : Nat
  pstride : Nat
  off : Nat
  n : Nat
  stride : Nat
  w64 : Bool
  flds : List FieldD
deriving DecidableEq, Repr

/-- The header registers of a page (R38). -/
def rPAGE_ID (pg : Nat) : Nat := pg * 1024
def rPAGE_CAP (pg : Nat) : Nat := pg * 1024 + 1
def rPAGE_CTRL (pg : Nat) : Nat := pg * 1024 + 2
def rPAGE_STAT (pg : Nat) : Nat := pg * 1024 + 3
def rEV_PEND (pg : Nat) : Nat := pg * 1024 + 4
def rEV_EN (pg : Nat) : Nat := pg * 1024 + 5
def rEV_ROUTE (pg : Nat) : Nat := pg * 1024 + 6
def rPAGE_LOCK (pg : Nat) : Nat := pg * 1024 + 7
def fPAGE_CTRL_FREEZE (pg : Nat) : Fld := ⟨rPAGE_CTRL pg, 2, 1⟩
def fPAGE_CTRL_EN (pg : Nat) : Fld := ⟨rPAGE_CTRL pg, 0, 1⟩
def fPAGE_STAT_REFUSED (pg : Nat) : Fld := ⟨rPAGE_STAT pg, 3, 1⟩
def fPAGE_STAT_FROZEN (pg : Nat) : Fld := ⟨rPAGE_STAT pg, 2, 1⟩
def fPAGE_STAT_LOCKED (pg : Nat) : Fld := ⟨rPAGE_STAT pg, 1, 1⟩
def fPAGE_STAT_BUSY (pg : Nat) : Fld := ⟨rPAGE_STAT pg, 0, 1⟩
def fEV_ROUTE_DEST (pg : Nat) : Fld := ⟨rEV_ROUTE pg, 31, 1⟩
def fEV_ROUTE_TARGET (pg : Nat) : Fld := ⟨rEV_ROUTE pg, 0, 16⟩
def fPAGE_LOCK_LOCK (pg : Nat) : Fld := ⟨rPAGE_LOCK pg, 0, 1⟩

/-- SYS_ID (R45), page 0x0, offset 0x40. -/
def rSYS_ID : Nat := 0x0 * 1024 + 0x40 / 4
def fSYS_ID_PART : Fld := ⟨rSYS_ID, 16, 16⟩
def fSYS_ID_STEP : Fld := ⟨rSYS_ID, 8, 8⟩
def fSYS_ID_GRADE : Fld := ⟨rSYS_ID, 4, 4⟩
def fSYS_ID_DIE : Fld := ⟨rSYS_ID, 0, 1⟩
/-- SYS_ID (R45), page 0x0, offset 0x40. -/
def rH_SYS_ID : Nat := 0x1000 * 1024 + 0x40 / 4
def fH_SYS_ID_PART : Fld := ⟨rH_SYS_ID, 16, 16⟩
def fH_SYS_ID_STEP : Fld := ⟨rH_SYS_ID, 8, 8⟩
def fH_SYS_ID_GRADE : Fld := ⟨rH_SYS_ID, 4, 4⟩
def fH_SYS_ID_DIE : Fld := ⟨rH_SYS_ID, 0, 1⟩
/-- SYS_ROMID (R45), page 0x0, offset 0x44. -/
def rSYS_ROMID : Nat := 0x0 * 1024 + 0x44 / 4
def fSYS_ROMID : Fld := ⟨rSYS_ROMID, 0, 16⟩
/-- SYS_ROMID (R45), page 0x0, offset 0x44. -/
def rH_SYS_ROMID : Nat := 0x1000 * 1024 + 0x44 / 4
def fH_SYS_ROMID : Fld := ⟨rH_SYS_ROMID, 0, 16⟩
/-- SYS_LOT (R45), page 0x0, offset 0x48. -/
def rSYS_LOT : Nat := 0x0 * 1024 + 0x48 / 4
/-- SYS_LOT (R45), page 0x0, offset 0x48. -/
def rH_SYS_LOT : Nat := 0x1000 * 1024 + 0x48 / 4
/-- TB_CTRL (R68), page 0x10, offset 0x40. -/
def rTB_CTRL : Nat := 0x10 * 1024 + 0x40 / 4
def fTB_CTRL_LOAD : Fld := ⟨rTB_CTRL, 8, 1⟩
def fTB_CTRL_USEHOLD : Fld := ⟨rTB_CTRL, 5, 1⟩
def fTB_CTRL_AUTORET : Fld := ⟨rTB_CTRL, 4, 1⟩
def fTB_CTRL_SRC : Fld := ⟨rTB_CTRL, 0, 2⟩
/-- TB_STAT (R68), page 0x10, offset 0x44. -/
def rTB_STAT : Nat := 0x10 * 1024 + 0x44 / 4
def fTB_STAT_SLEWING : Fld := ⟨rTB_STAT, 7, 1⟩
def fTB_STAT_LFDRIFT : Fld := ⟨rTB_STAT, 6, 1⟩
def fTB_STAT_CFGREFUSED : Fld := ⟨rTB_STAT, 5, 1⟩
def fTB_STAT_FLOOR : Fld := ⟨rTB_STAT, 4, 1⟩
def fTB_STAT_LOCKED : Fld := ⟨rTB_STAT, 3, 1⟩
def fTB_STAT_SRCACT : Fld := ⟨rTB_STAT, 0, 2⟩
/-- TB_N (R68), page 0x10, offset 0x48. -/
def rTB_N : Nat := 0x10 * 1024 + 0x48 / 4
def fTB_N : Fld := ⟨rTB_N, 0, 21⟩
/-- TB_TICK_MIN (R68), page 0x10, offset 0x4C. -/
def rTB_TICK_MIN : Nat := 0x10 * 1024 + 0x4C / 4
def fTB_TICK_MIN : Fld := ⟨rTB_TICK_MIN, 0, 16⟩
/-- ANGLE (R68), page 0x10, offset 0x50. -/
def rANGLE : Nat := 0x10 * 1024 + 0x50 / 4
/-- TICKNO (R68), page 0x10, offset 0x58. -/
def rTICKNO : Nat := 0x10 * 1024 + 0x58 / 4
/-- TICK_K (R68), page 0x10, offset 0x60. -/
def rTICK_K : Nat := 0x10 * 1024 + 0x60 / 4
def fTICK_K : Fld := ⟨rTICK_K, 0, 21⟩
/-- TB_LMIN (R68), page 0x10, offset 0x64. -/
def rTB_LMIN : Nat := 0x10 * 1024 + 0x64 / 4
def fTB_LMIN : Fld := ⟨rTB_LMIN, 0, 24⟩
/-- RATE (R68), page 0x10, offset 0x68. -/
def rRATE : Nat := 0x10 * 1024 + 0x68 / 4
/-- RATE_LIMIT (R68), page 0x10, offset 0x70. -/
def rRATE_LIMIT : Nat := 0x10 * 1024 + 0x70 / 4
/-- RATE_HOLD (R68), page 0x10, offset 0x78. -/
def rRATE_HOLD : Nat := 0x10 * 1024 + 0x78 / 4
/-- TB_SLEW (R68), page 0x10, offset 0x80. -/
def rTB_SLEW : Nat := 0x10 * 1024 + 0x80 / 4
def fTB_SLEW : Fld := ⟨rTB_SLEW, 0, 32⟩
/-- TB_LOOP (R68), page 0x10, offset 0x84. -/
def rTB_LOOP : Nat := 0x10 * 1024 + 0x84 / 4
def fTB_LOOP_KPSHIFT : Fld := ⟨rTB_LOOP, 8, 5⟩
def fTB_LOOP_KISHIFT : Fld := ⟨rTB_LOOP, 0, 5⟩
/-- TB_LOCK (R68), page 0x10, offset 0x88. -/
def rTB_LOCK : Nat := 0x10 * 1024 + 0x88 / 4
def fTB_LOCK_QUAL : Fld := ⟨rTB_LOCK, 16, 16⟩
def fTB_LOCK_LOCKWIN : Fld := ⟨rTB_LOCK, 0, 16⟩
/-- TB_PHERR (R68), page 0x10, offset 0x8C. -/
def rTB_PHERR : Nat := 0x10 * 1024 + 0x8C / 4
def fTB_PHERR : Fld := ⟨rTB_PHERR, 0, 32⟩
/-- TB_GRID_SRC (R68), page 0x10, offset 0x90. -/
def rTB_GRID_SRC : Nat := 0x10 * 1024 + 0x90 / 4
def fTB_GRID_SRC_PIN : Fld := ⟨rTB_GRID_SRC, 31, 1⟩
def fTB_GRID_SRC_PORT : Fld := ⟨rTB_GRID_SRC, 16, 6⟩
def fTB_GRID_SRC_PHASE : Fld := ⟨rTB_GRID_SRC, 8, 3⟩
def fTB_GRID_SRC_FIELD : Fld := ⟨rTB_GRID_SRC, 0, 4⟩
/-- TB_GRID_OFFSET (R68), page 0x10, offset 0x94. -/
def rTB_GRID_OFFSET : Nat := 0x10 * 1024 + 0x94 / 4
def fTB_GRID_OFFSET : Fld := ⟨rTB_GRID_OFFSET, 0, 24⟩
/-- TB_GRID_WIN (R68), page 0x10, offset 0x98. -/
def rTB_GRID_WIN : Nat := 0x10 * 1024 + 0x98 / 4
def fTB_GRID_WIN_FMAX : Fld := ⟨rTB_GRID_WIN, 16, 16⟩
def fTB_GRID_WIN_FMIN : Fld := ⟨rTB_GRID_WIN, 0, 16⟩
/-- TB_LOAD (R68), page 0x10, offset 0xA0. -/
def rTB_LOAD : Nat := 0x10 * 1024 + 0xA0 / 4
/-- ACn_CTRL (R68), page 0x11, offset 0x40. -/
def rACn_CTRL (n : Nat) : Nat := (0x11 + n / 16) * 1024 + (0x40 + 0x20 * (n % 16)) / 4
def fACn_CTRL_EVOUT (n : Nat) : Fld := ⟨(rACn_CTRL n), 31, 1⟩
def fACn_CTRL_EVOUTCH (n : Nat) : Fld := ⟨(rACn_CTRL n), 16, 8⟩
def fACn_CTRL_ONESHOT (n : Nat) : Fld := ⟨(rACn_CTRL n), 3, 1⟩
def fACn_CTRL_IMM (n : Nat) : Fld := ⟨(rACn_CTRL n), 2, 1⟩
def fACn_CTRL_MODE (n : Nat) : Fld := ⟨(rACn_CTRL n), 1, 1⟩
def fACn_CTRL_EN (n : Nat) : Fld := ⟨(rACn_CTRL n), 0, 1⟩
/-- ACn_STAT (R68), page 0x11, offset 0x44. -/
def rACn_STAT (n : Nat) : Nat := (0x11 + n / 16) * 1024 + (0x44 + 0x20 * (n % 16)) / 4
def fACn_STAT_MULTI (n : Nat) : Fld := ⟨(rACn_STAT n), 3, 1⟩
def fACn_STAT_PAST (n : Nat) : Fld := ⟨(rACn_STAT n), 2, 1⟩
def fACn_STAT_CMPRANGE (n : Nat) : Fld := ⟨(rACn_STAT n), 1, 1⟩
def fACn_STAT_MATCH (n : Nat) : Fld := ⟨(rACn_STAT n), 0, 1⟩
/-- ACn_RELOAD (R68), page 0x11, offset 0x48. -/
def rACn_RELOAD (n : Nat) : Nat := (0x11 + n / 16) * 1024 + (0x48 + 0x20 * (n % 16)) / 4
/-- ACn_CMP (R68), page 0x11, offset 0x50. -/
def rACn_CMP (n : Nat) : Nat := (0x11 + n / 16) * 1024 + (0x50 + 0x20 * (n % 16)) / 4
/-- ACn_LAST (R68), page 0x11, offset 0x58. -/
def rACn_LAST (n : Nat) : Nat := (0x11 + n / 16) * 1024 + (0x58 + 0x20 * (n % 16)) / 4
/-- CRY_STAT (R101), page 0x110, offset 0x44. -/
def rCRY_STAT : Nat := 0x110 * 1024 + 0x44 / 4
def fCRY_STAT_NADMIT : Fld := ⟨rCRY_STAT, 16, 14⟩
def fCRY_STAT_CFGREFUSED : Fld := ⟨rCRY_STAT, 3, 1⟩
def fCRY_STAT_TTVALID : Fld := ⟨rCRY_STAT, 2, 1⟩
def fCRY_STAT_OPBUSY : Fld := ⟨rCRY_STAT, 0, 1⟩
/-- CRY_OP (R101), page 0x110, offset 0x48. -/
def rCRY_OP : Nat := 0x110 * 1024 + 0x48 / 4
def fCRY_OP_OP : Fld := ⟨rCRY_OP, 28, 4⟩
def fCRY_OP_CTX : Fld := ⟨rCRY_OP, 0, 14⟩
/-- CRY_RESULT (R101), page 0x110, offset 0x4C. -/
def rCRY_RESULT : Nat := 0x110 * 1024 + 0x4C / 4
def fCRY_RESULT_CODE : Fld := ⟨rCRY_RESULT, 24, 8⟩
def fCRY_RESULT_RES : Fld := ⟨rCRY_RESULT, 20, 4⟩
def fCRY_RESULT_SLOT : Fld := ⟨rCRY_RESULT, 8, 12⟩
/-- CRY_RESULT2 (R101), page 0x110, offset 0x50. -/
def rCRY_RESULT2 : Nat := 0x110 * 1024 + 0x50 / 4
def fCRY_RESULT2 : Fld := ⟨rCRY_RESULT2, 0, 32⟩
/-- CRY_EFFECT (R101), page 0x110, offset 0x58. -/
def rCRY_EFFECT : Nat := 0x110 * 1024 + 0x58 / 4
/-- CRY_ACAP (R101), page 0x110, offset 0x60. -/
def rCRY_ACAP : Nat := 0x110 * 1024 + 0x60 / 4
def fCRY_ACAP : Fld := ⟨rCRY_ACAP, 0, 32⟩
/-- CRY_SCAP (R101), page 0x110, offset 0x64. -/
def rCRY_SCAP : Nat := 0x110 * 1024 + 0x64 / 4
def fCRY_SCAP : Fld := ⟨rCRY_SCAP, 0, 32⟩
/-- CRY_PANPRE (R101), page 0x110, offset 0x68. -/
def rCRY_PANPRE : Nat := 0x110 * 1024 + 0x68 / 4
def fCRY_PANPRE : Fld := ⟨rCRY_PANPRE, 0, 16⟩
/-- CRY_GRACE (R101), page 0x110, offset 0x6C. -/
def rCRY_GRACE : Nat := 0x110 * 1024 + 0x6C / 4
def fCRY_GRACE : Fld := ⟨rCRY_GRACE, 0, 8⟩
/-- CRY_MISSED (R101), page 0x110, offset 0x70. -/
def rCRY_MISSED : Nat := 0x110 * 1024 + 0x70 / 4
def fCRY_MISSED : Fld := ⟨rCRY_MISSED, 0, 32⟩
/-- CRY_NILIM01 (R101), page 0x110, offset 0x74. -/
def rCRY_NILIM01 : Nat := 0x110 * 1024 + 0x74 / 4
def fCRY_NILIM01_E1 : Fld := ⟨rCRY_NILIM01, 16, 10⟩
def fCRY_NILIM01_E0 : Fld := ⟨rCRY_NILIM01, 0, 10⟩
/-- CRY_NILIM23 (R101), page 0x110, offset 0x78. -/
def rCRY_NILIM23 : Nat := 0x110 * 1024 + 0x78 / 4
def fCRY_NILIM23_E3 : Fld := ⟨rCRY_NILIM23, 16, 10⟩
def fCRY_NILIM23_E2 : Fld := ⟨rCRY_NILIM23, 0, 10⟩
/-- CRY_STAGEi (R101), page 0x110, offset 0x80. -/
def rCRY_STAGEi (i : Nat) : Nat := 0x110 * 1024 + (0x80 + 0x4 * i) / 4
def fCRY_STAGEi (i : Nat) : Fld := ⟨(rCRY_STAGEi i), 0, 32⟩
/-- CRY_LSEL (R101), page 0x111, offset 0x40. -/
def rCRY_LSEL : Nat := 0x111 * 1024 + 0x40 / 4
def fCRY_LSEL : Fld := ⟨rCRY_LSEL, 0, 12⟩
/-- CRY_LPANp (R101), page 0x111, offset 0x44. -/
def rCRY_LPANp (i : Nat) : Nat := 0x111 * 1024 + (0x44 + 0x4 * i) / 4
def fCRY_LPANp (i : Nat) : Fld := ⟨(rCRY_LPANp i), 0, 32⟩
/-- CRY_LCOREc (R101), page 0x111, offset 0x54. -/
def rCRY_LCOREc (i : Nat) : Nat := 0x111 * 1024 + (0x54 + 0x4 * i) / 4
def fCRY_LCOREc (i : Nat) : Fld := ⟨(rCRY_LCOREc i), 0, 32⟩
/-- CRY_LSALT (R101), page 0x111, offset 0x64. -/
def rCRY_LSALT : Nat := 0x111 * 1024 + 0x64 / 4
def fCRY_LSALT : Fld := ⟨rCRY_LSALT, 0, 32⟩
/-- CRY_LCHAIN (R101), page 0x111, offset 0x68. -/
def rCRY_LCHAIN : Nat := 0x111 * 1024 + 0x68 / 4
def fCRY_LCHAIN : Fld := ⟨rCRY_LCHAIN, 0, 32⟩
/-- CRY_TTIDX (R101), page 0x112, offset 0x40. -/
def rCRY_TTIDX : Nat := 0x112 * 1024 + 0x40 / 4
def fCRY_TTIDX : Fld := ⟨rCRY_TTIDX, 0, 8⟩
/-- CRY_TTCTRL (R101), page 0x112, offset 0x44. -/
def rCRY_TTCTRL : Nat := 0x112 * 1024 + 0x44 / 4
def fCRY_TTCTRL_COMMIT : Fld := ⟨rCRY_TTCTRL, 0, 1⟩
/-- CRY_TTDATAi (R101), page 0x112, offset 0x50. -/
def rCRY_TTDATAi (i : Nat) : Nat := 0x112 * 1024 + (0x50 + 0x4 * i) / 4
def fCRY_TTDATAi (i : Nat) : Fld := ⟨(rCRY_TTDATAi i), 0, 32⟩
/-- SAL_STAT (R131), page 0x130, offset 0x40. -/
def rSAL_STAT : Nat := 0x130 * 1024 + 0x40 / 4
def fSAL_STAT_RMAPUSED : Fld := ⟨rSAL_STAT, 8, 5⟩
def fSAL_STAT_CFGREFUSED : Fld := ⟨rSAL_STAT, 5, 1⟩
def fSAL_STAT_FILLBUSY : Fld := ⟨rSAL_STAT, 4, 1⟩
def fSAL_STAT_RMAPBUSY : Fld := ⟨rSAL_STAT, 3, 1⟩
def fSAL_STAT_TAGUE : Fld := ⟨rSAL_STAT, 2, 1⟩
def fSAL_STAT_UESEEN : Fld := ⟨rSAL_STAT, 1, 1⟩
def fSAL_STAT_CESEEN : Fld := ⟨rSAL_STAT, 0, 1⟩
/-- SAL_CTRL (R131), page 0x130, offset 0x44. -/
def rSAL_CTRL : Nat := 0x130 * 1024 + 0x44 / 4
def fSAL_CTRL_CECLR : Fld := ⟨rSAL_CTRL, 1, 1⟩
def fSAL_CTRL_FILL : Fld := ⟨rSAL_CTRL, 0, 1⟩
/-- SAL_CETHR (R131), page 0x130, offset 0x48. -/
def rSAL_CETHR : Nat := 0x130 * 1024 + 0x48 / 4
def fSAL_CETHR : Fld := ⟨rSAL_CETHR, 0, 16⟩
/-- SAL_FILL_BASE (R131), page 0x130, offset 0x50. -/
def rSAL_FILL_BASE : Nat := 0x130 * 1024 + 0x50 / 4
def fSAL_FILL_BASE : Fld := ⟨rSAL_FILL_BASE, 6, 19⟩
/-- SAL_FILL_LEN (R131), page 0x130, offset 0x58. -/
def rSAL_FILL_LEN : Nat := 0x130 * 1024 + 0x58 / 4
def fSAL_FILL_LEN : Fld := ⟨rSAL_FILL_LEN, 0, 20⟩
/-- SAL_CESEL (R131), page 0x130, offset 0x60. -/
def rSAL_CESEL : Nat := 0x130 * 1024 + 0x60 / 4
def fSAL_CESEL : Fld := ⟨rSAL_CESEL, 0, 9⟩
/-- SAL_CECNT (R131), page 0x130, offset 0x64. -/
def rSAL_CECNT : Nat := 0x130 * 1024 + 0x64 / 4
def fSAL_CECNT : Fld := ⟨rSAL_CECNT, 0, 16⟩
/-- SAL_CELOG (R131), page 0x130, offset 0x68. -/
def rSAL_CELOG : Nat := 0x130 * 1024 + 0x68 / 4
def fSAL_CELOG_SYND : Fld := ⟨(rSAL_CELOG + 1), 24, 8⟩
def fSAL_CELOG_WORD : Fld := ⟨rSAL_CELOG, 0, 22⟩
/-- SAL_UELOG (R131), page 0x130, offset 0x70. -/
def rSAL_UELOG : Nat := 0x130 * 1024 + 0x70 / 4
def fSAL_UELOG_BYTES : Fld := ⟨(rSAL_UELOG + 1), 24, 8⟩
def fSAL_UELOG_RANK : Fld := ⟨(rSAL_UELOG + 1), 16, 4⟩
def fSAL_UELOG_PORT : Fld := ⟨(rSAL_UELOG + 1), 8, 7⟩
def fSAL_UELOG_WORD : Fld := ⟨rSAL_UELOG, 0, 22⟩
/-- SAL_RMAPi (R131), page 0x130, offset 0x80. -/
def rSAL_RMAPi (i : Nat) : Nat := 0x130 * 1024 + (0x80 + 0x4 * i) / 4
def fSAL_RMAPi_VALID (i : Nat) : Fld := ⟨(rSAL_RMAPi i), 31, 1⟩
def fSAL_RMAPi_FROMUE (i : Nat) : Fld := ⟨(rSAL_RMAPi i), 30, 1⟩
def fSAL_RMAPi_WORD (i : Nat) : Fld := ⟨(rSAL_RMAPi i), 0, 22⟩
/-- SAL_COLFUSE (R131), page 0x130, offset 0xC0. -/
def rSAL_COLFUSE : Nat := 0x130 * 1024 + 0xC0 / 4
def fSAL_COLFUSE_BANKS2 : Fld := ⟨rSAL_COLFUSE, 16, 10⟩
def fSAL_COLFUSE_BANKS1 : Fld := ⟨rSAL_COLFUSE, 0, 10⟩
/-- MX_CTRL (R131), page 0x131, offset 0x40. -/
def rMX_CTRL : Nat := 0x131 * 1024 + 0x40 / 4
def fMX_CTRL_PARK : Fld := ⟨rMX_CTRL, 0, 1⟩
/-- MX_DEC_ADDR (R131), page 0x131, offset 0x48. -/
def rMX_DEC_ADDR : Nat := 0x131 * 1024 + 0x48 / 4
/-- MX_DEC_INFO (R131), page 0x131, offset 0x50. -/
def rMX_DEC_INFO : Nat := 0x131 * 1024 + 0x50 / 4
def fMX_DEC_INFO_WRITE : Fld := ⟨rMX_DEC_INFO, 16, 1⟩
def fMX_DEC_INFO_RANK : Fld := ⟨rMX_DEC_INFO, 8, 4⟩
def fMX_DEC_INFO_PORT : Fld := ⟨rMX_DEC_INFO, 0, 7⟩
/-- MX_DEC_CNT (R131), page 0x131, offset 0x54. -/
def rMX_DEC_CNT : Nat := 0x131 * 1024 + 0x54 / 4
def fMX_DEC_CNT : Fld := ⟨rMX_DEC_CNT, 0, 32⟩
/-- MX_OSEL (R131), page 0x131, offset 0x58. -/
def rMX_OSEL : Nat := 0x131 * 1024 + 0x58 / 4
def fMX_OSEL : Fld := ⟨rMX_OSEL, 0, 7⟩
/-- MX_OCNT (R131), page 0x131, offset 0x5C. -/
def rMX_OCNT : Nat := 0x131 * 1024 + 0x5C / 4
def fMX_OCNT_PEAK : Fld := ⟨rMX_OCNT, 16, 8⟩
def fMX_OCNT_NOW : Fld := ⟨rMX_OCNT, 0, 8⟩
/-- PAN_STAT (R164), page 0x120, offset 0x40. -/
def rPAN_STAT : Nat := 0x120 * 1024 + 0x40 / 4
def fPAN_STAT_BGHALT : Fld := ⟨rPAN_STAT, 4, 4⟩
def fPAN_STAT_BUSY : Fld := ⟨rPAN_STAT, 0, 4⟩
/-- PAN_QSTAT (R164), page 0x120, offset 0x44. -/
def rPAN_QSTAT : Nat := 0x120 * 1024 + 0x44 / 4
def fPAN_QSTAT_CHAINQ : Fld := ⟨rPAN_QSTAT, 16, 7⟩
def fPAN_QSTAT_LISTQ : Fld := ⟨rPAN_QSTAT, 0, 9⟩
/-- PANp_CTRL (R164), page 0x121, offset 0x40. -/
def rPANp_CTRL (n : Nat) : Nat := (0x121 + n) * 1024 + 0x40 / 4
def fPANp_CTRL_RUN (n : Nat) : Fld := ⟨(rPANp_CTRL n), 0, 1⟩
/-- PANp_BGSTAT (R164), page 0x121, offset 0x44. -/
def rPANp_BGSTAT (n : Nat) : Nat := (0x121 + n) * 1024 + 0x44 / 4
def fPANp_BGSTAT_CORE (n : Nat) : Fld := ⟨(rPANp_BGSTAT n), 16, 2⟩
def fPANp_BGSTAT_QDEPTH (n : Nat) : Fld := ⟨(rPANp_BGSTAT n), 8, 6⟩
def fPANp_BGSTAT_CAUSE (n : Nat) : Fld := ⟨(rPANp_BGSTAT n), 4, 4⟩
def fPANp_BGSTAT_ALIAS (n : Nat) : Fld := ⟨(rPANp_BGSTAT n), 3, 1⟩
def fPANp_BGSTAT_TORN (n : Nat) : Fld := ⟨(rPANp_BGSTAT n), 2, 1⟩
def fPANp_BGSTAT_HALT (n : Nat) : Fld := ⟨(rPANp_BGSTAT n), 0, 1⟩
/-- PANp_BGCMD (R164), page 0x121, offset 0x48. -/
def rPANp_BGCMD (n : Nat) : Nat := (0x121 + n) * 1024 + 0x48 / 4
def fPANp_BGCMD_CMD (n : Nat) : Fld := ⟨(rPANp_BGCMD n), 0, 2⟩
/-- PANp_RSM_DONE (R164), page 0x121, offset 0x50. -/
def rPANp_RSM_DONE (n : Nat) : Nat := (0x121 + n) * 1024 + 0x50 / 4
def fPANp_RSM_DONE (n : Nat) : Fld := ⟨(rPANp_RSM_DONE n), 0, 17⟩
/-- PANp_RSM_TICKET (R164), page 0x121, offset 0x54. -/
def rPANp_RSM_TICKET (n : Nat) : Nat := (0x121 + n) * 1024 + 0x54 / 4
def fPANp_RSM_TICKET (n : Nat) : Fld := ⟨(rPANp_RSM_TICKET n), 0, 16⟩
/-- PANp_RSM_FLAGS (R164), page 0x121, offset 0x58. -/
def rPANp_RSM_FLAGS (n : Nat) : Nat := (0x121 + n) * 1024 + 0x58 / 4
def fPANp_RSM_FLAGS (n : Nat) : Fld := ⟨(rPANp_RSM_FLAGS n), 0, 6⟩
/-- PANp_RSM_DESCi (R164), page 0x121, offset 0x60. -/
def rPANp_RSM_DESCi (n i : Nat) : Nat := (0x121 + n) * 1024 + (0x60 + 0x4 * i) / 4
def fPANp_RSM_DESCi (n i : Nat) : Fld := ⟨(rPANp_RSM_DESCi n i), 0, 32⟩
/-- PANp_LFAULT (R164), page 0x121, offset 0x80. -/
def rPANp_LFAULT (n : Nat) : Nat := (0x121 + n) * 1024 + 0x80 / 4
def fPANp_LFAULT_CAUSE (n : Nat) : Fld := ⟨(rPANp_LFAULT n), 28, 4⟩
def fPANp_LFAULT_CTX (n : Nat) : Fld := ⟨(rPANp_LFAULT n), 10, 14⟩
def fPANp_LFAULT_INDEX (n : Nat) : Fld := ⟨(rPANp_LFAULT n), 0, 10⟩
/-- PANp_LFDONE (R164), page 0x121, offset 0x84. -/
def rPANp_LFDONE (n : Nat) : Nat := (0x121 + n) * 1024 + 0x84 / 4
def fPANp_LFDONE (n : Nat) : Fld := ⟨(rPANp_LFDONE n), 0, 17⟩
/-- PANp_LFADDR (R164), page 0x121, offset 0x88. -/
def rPANp_LFADDR (n : Nat) : Nat := (0x121 + n) * 1024 + 0x88 / 4
def fPANp_LFADDR (n : Nat) : Fld := ⟨(rPANp_LFADDR n), 0, 25⟩
/-- PANp_LFLAGS (R164), page 0x121, offset 0x8C. -/
def rPANp_LFLAGS (n : Nat) : Nat := (0x121 + n) * 1024 + 0x8C / 4
def fPANp_LFLAGS (n : Nat) : Fld := ⟨(rPANp_LFLAGS n), 0, 6⟩
/-- PAN_CRBASEc (R165), page 0x125, offset 0x40. -/
def rPAN_CRBASEc (i : Nat) : Nat := 0x125 * 1024 + (0x40 + 0x10 * i) / 4
def fPAN_CRBASEc (i : Nat) : Fld := ⟨(rPAN_CRBASEc i), 4, 21⟩
/-- PAN_CRCFGc (R165), page 0x125, offset 0x44. -/
def rPAN_CRCFGc (i : Nat) : Nat := 0x125 * 1024 + (0x44 + 0x10 * i) / 4
def fPAN_CRCFGc_EVEN (i : Nat) : Fld := ⟨(rPAN_CRCFGc i), 16, 1⟩
def fPAN_CRCFGc_EVCH (i : Nat) : Fld := ⟨(rPAN_CRCFGc i), 8, 8⟩
def fPAN_CRCFGc_LOG2N (i : Nat) : Fld := ⟨(rPAN_CRCFGc i), 0, 4⟩
/-- PAN_CRHEADc (R165), page 0x125, offset 0x48. -/
def rPAN_CRHEADc (i : Nat) : Nat := 0x125 * 1024 + (0x48 + 0x10 * i) / 4
def fPAN_CRHEADc (i : Nat) : Fld := ⟨(rPAN_CRHEADc i), 0, 12⟩
/-- PAN_CRTAILc (R165), page 0x125, offset 0x4C. -/
def rPAN_CRTAILc (i : Nat) : Nat := 0x125 * 1024 + (0x4C + 0x10 * i) / 4
def fPAN_CRTAILc (i : Nat) : Fld := ⟨(rPAN_CRTAILc i), 0, 12⟩
/-- PAN_CRSTATc (R165), page 0x125, offset 0x80. -/
def rPAN_CRSTATc (i : Nat) : Nat := 0x125 * 1024 + (0x80 + 0x4 * i) / 4
def fPAN_CRSTATc_LASTZ (i : Nat) : Fld := ⟨(rPAN_CRSTATc i), 16, 3⟩
def fPAN_CRSTATc_RESV (i : Nat) : Fld := ⟨(rPAN_CRSTATc i), 0, 13⟩
/-- PCS_STAT (R217), page 0x128, offset 0x40. -/
def rPCS_STAT : Nat := 0x128 * 1024 + 0x40 / 4
def fPCS_STAT_UEPAN : Fld := ⟨rPCS_STAT, 8, 4⟩
def fPCS_STAT_CEPAN : Fld := ⟨rPCS_STAT, 4, 4⟩
def fPCS_STAT_TTREJECT : Fld := ⟨rPCS_STAT, 3, 1⟩
def fPCS_STAT_QUIET : Fld := ⟨rPCS_STAT, 2, 1⟩
def fPCS_STAT_OVLVALID : Fld := ⟨rPCS_STAT, 0, 1⟩
/-- PCS_ID (R217), page 0x128, offset 0x44. -/
def rPCS_ID : Nat := 0x128 * 1024 + 0x44 / 4
def fPCS_ID_ROMID : Fld := ⟨rPCS_ID, 16, 16⟩
def fPCS_ID_PATCHID : Fld := ⟨rPCS_ID, 0, 16⟩
/-- PCS_CECNTp (R217), page 0x128, offset 0x48. -/
def rPCS_CECNTp (i : Nat) : Nat := 0x128 * 1024 + (0x48 + 0x4 * i) / 4
def fPCS_CECNTp (i : Nat) : Fld := ⟨(rPCS_CECNTp i), 0, 16⟩
/-- PCS_ELOG (R217), page 0x128, offset 0x58. -/
def rPCS_ELOG : Nat := 0x128 * 1024 + 0x58 / 4
def fPCS_ELOG_UE : Fld := ⟨(rPCS_ELOG + 1), 31, 1⟩
def fPCS_ELOG_PAN : Fld := ⟨(rPCS_ELOG + 1), 24, 2⟩
def fPCS_ELOG_SYND : Fld := ⟨(rPCS_ELOG + 1), 8, 9⟩
def fPCS_ELOG_ADDR : Fld := ⟨rPCS_ELOG, 0, 14⟩
/-- PCS_CTRL (R217), page 0x129, offset 0x40. -/
def rPCS_CTRL : Nat := 0x129 * 1024 + 0x40 / 4
def fPCS_CTRL_CECLR : Fld := ⟨rPCS_CTRL, 1, 1⟩
def fPCS_CTRL_PATCHEN : Fld := ⟨rPCS_CTRL, 0, 1⟩
/-- PCS_PADDR (R217), page 0x129, offset 0x44. -/
def rPCS_PADDR : Nat := 0x129 * 1024 + 0x44 / 4
def fPCS_PADDR : Fld := ⟨rPCS_PADDR, 0, 10⟩
/-- PCS_PDATAi (R217), page 0x129, offset 0x50. -/
def rPCS_PDATAi (i : Nat) : Nat := 0x129 * 1024 + (0x50 + 0x4 * i) / 4
def fPCS_PDATAi (i : Nat) : Fld := ⟨(rPCS_PDATAi i), 0, 32⟩
/-- PCS_DIDX (R217), page 0x129, offset 0x60. -/
def rPCS_DIDX : Nat := 0x129 * 1024 + 0x60 / 4
def fPCS_DIDX : Fld := ⟨rPCS_DIDX, 0, 8⟩
/-- PCS_DDATA0 (R217), page 0x129, offset 0x64. -/
def rPCS_DDATA0 : Nat := 0x129 * 1024 + 0x64 / 4
def fPCS_DDATA0 : Fld := ⟨rPCS_DDATA0, 0, 32⟩
/-- PCS_DDATA1 (R217), page 0x129, offset 0x68. -/
def rPCS_DDATA1 : Nat := 0x129 * 1024 + 0x68 / 4
def fPCS_DDATA1 : Fld := ⟨rPCS_DDATA1, 0, 32⟩
/-- PCS_PATCHID (R217), page 0x129, offset 0x6C. -/
def rPCS_PATCHID : Nat := 0x129 * 1024 + 0x6C / 4
def fPCS_PATCHID : Fld := ⟨rPCS_PATCHID, 0, 16⟩
/-- BLn_CTRL (R255), page 0x80, offset 0x40. -/
def rBLn_CTRL (n : Nat) : Nat := (0x80 + 2 * n) * 1024 + 0x40 / 4
def fBLn_CTRL_REIDENT (n : Nat) : Fld := ⟨(rBLn_CTRL n), 8, 1⟩
def fBLn_CTRL_RETRAINB (n : Nat) : Fld := ⟨(rBLn_CTRL n), 7, 1⟩
def fBLn_CTRL_RETRAINA (n : Nat) : Fld := ⟨(rBLn_CTRL n), 6, 1⟩
def fBLn_CTRL_LANEMODE (n : Nat) : Fld := ⟨(rBLn_CTRL n), 4, 2⟩
def fBLn_CTRL_AUTOTRAIN (n : Nat) : Fld := ⟨(rBLn_CTRL n), 2, 1⟩
/-- BLn_LSTAT (R255), page 0x80, offset 0x44. -/
def rBLn_LSTAT (n : Nat) : Nat := (0x80 + 2 * n) * 1024 + 0x44 / 4
def fBLn_LSTAT_PRESENT (n : Nat) : Fld := ⟨(rBLn_LSTAT n), 24, 1⟩
def fBLn_LSTAT_CAUSEB (n : Nat) : Fld := ⟨(rBLn_LSTAT n), 20, 4⟩
def fBLn_LSTAT_STATEB (n : Nat) : Fld := ⟨(rBLn_LSTAT n), 16, 4⟩
def fBLn_LSTAT_CAUSEA (n : Nat) : Fld := ⟨(rBLn_LSTAT n), 4, 4⟩
def fBLn_LSTAT_STATEA (n : Nat) : Fld := ⟨(rBLn_LSTAT n), 0, 4⟩
/-- BLn_RTD (R255), page 0x80, offset 0x48. -/
def rBLn_RTD (n : Nat) : Nat := (0x80 + 2 * n) * 1024 + 0x48 / 4
def fBLn_RTD_RTDB (n : Nat) : Fld := ⟨(rBLn_RTD n), 16, 8⟩
def fBLn_RTD_RTDA (n : Nat) : Fld := ⟨(rBLn_RTD n), 0, 8⟩
/-- BLn_ERRA (R255), page 0x80, offset 0x4C. -/
def rBLn_ERRA (n : Nat) : Nat := (0x80 + 2 * n) * 1024 + 0x4C / 4
def fBLn_ERRA_CRCERR (n : Nat) : Fld := ⟨(rBLn_ERRA n), 16, 16⟩
def fBLn_ERRA_CVERR (n : Nat) : Fld := ⟨(rBLn_ERRA n), 0, 16⟩
/-- BLn_ERRB (R255), page 0x80, offset 0x50. -/
def rBLn_ERRB (n : Nat) : Nat := (0x80 + 2 * n) * 1024 + 0x50 / 4
def fBLn_ERRB_CRCERR (n : Nat) : Fld := ⟨(rBLn_ERRB n), 16, 16⟩
def fBLn_ERRB_CVERR (n : Nat) : Fld := ⟨(rBLn_ERRB n), 0, 16⟩
/-- BLn_RETRAIN (R255), page 0x80, offset 0x54. -/
def rBLn_RETRAIN (n : Nat) : Nat := (0x80 + 2 * n) * 1024 + 0x54 / 4
def fBLn_RETRAIN_B (n : Nat) : Fld := ⟨(rBLn_RETRAIN n), 8, 8⟩
def fBLn_RETRAIN_A (n : Nat) : Fld := ⟨(rBLn_RETRAIN n), 0, 8⟩
/-- BLn_IDi (R255), page 0x80, offset 0x80. -/
def rBLn_IDi (n i : Nat) : Nat := (0x80 + 2 * n) * 1024 + (0x80 + 0x4 * i) / 4
def fBLn_IDi (n i : Nat) : Fld := ⟨(rBLn_IDi n i), 0, 32⟩
/-- BLn_LEASE (R255), page 0x81, offset 0x44. -/
def rBLn_LEASE (n : Nat) : Nat := (0x81 + 2 * n) * 1024 + 0x44 / 4
def fBLn_LEASE_HELD (n : Nat) : Fld := ⟨(rBLn_LEASE n), 31, 1⟩
def fBLn_LEASE_FOREIGN (n : Nat) : Fld := ⟨(rBLn_LEASE n), 30, 1⟩
def fBLn_LEASE_STOP (n : Nat) : Fld := ⟨(rBLn_LEASE n), 29, 1⟩
def fBLn_LEASE_ARMED (n : Nat) : Fld := ⟨(rBLn_LEASE n), 28, 1⟩
def fBLn_LEASE_LOP (n : Nat) : Fld := ⟨(rBLn_LEASE n), 24, 2⟩
def fBLn_LEASE_EPOCH (n : Nat) : Fld := ⟨(rBLn_LEASE n), 0, 16⟩
/-- BLn_SBASE (R255), page 0x81, offset 0x40. -/
def rBLn_SBASE (n : Nat) : Nat := (0x81 + 2 * n) * 1024 + 0x40 / 4
def fBLn_SBASE (n : Nat) : Fld := ⟨(rBLn_SBASE n), 9, 16⟩
/-- BLn_TSTAT (R255), page 0x81, offset 0x48. -/
def rBLn_TSTAT (n : Nat) : Nat := (0x81 + 2 * n) * 1024 + 0x48 / 4
def fBLn_TSTAT_MSTAT (n : Nat) : Fld := ⟨(rBLn_TSTAT n), 24, 8⟩
def fBLn_TSTAT_PHFLT (n : Nat) : Fld := ⟨(rBLn_TSTAT n), 16, 8⟩
def fBLn_TSTAT_PHON (n : Nat) : Fld := ⟨(rBLn_TSTAT n), 8, 8⟩
def fBLn_TSTAT_LSTATUS (n : Nat) : Fld := ⟨(rBLn_TSTAT n), 0, 8⟩
/-- BLn_SMISS (R255), page 0x81, offset 0x4C. -/
def rBLn_SMISS (n : Nat) : Nat := (0x81 + 2 * n) * 1024 + 0x4C / 4
def fBLn_SMISS (n : Nat) : Fld := ⟨(rBLn_SMISS n), 0, 16⟩
/-- BLn_SMISSTOT (R255), page 0x81, offset 0x50. -/
def rBLn_SMISSTOT (n : Nat) : Nat := (0x81 + 2 * n) * 1024 + 0x50 / 4
def fBLn_SMISSTOT (n : Nat) : Fld := ⟨(rBLn_SMISSTOT n), 0, 32⟩
/-- BLn_LASTOK (R255), page 0x81, offset 0x58. -/
def rBLn_LASTOK (n : Nat) : Nat := (0x81 + 2 * n) * 1024 + 0x58 / 4
/-- BLn_ARRIVE (R255), page 0x81, offset 0x60. -/
def rBLn_ARRIVE (n : Nat) : Nat := (0x81 + 2 * n) * 1024 + 0x60 / 4
def fBLn_ARRIVE_EOFT (n : Nat) : Fld := ⟨(rBLn_ARRIVE n), 16, 9⟩
def fBLn_ARRIVE_SOFT (n : Nat) : Fld := ⟨(rBLn_ARRIVE n), 0, 8⟩
/-- RK_CTRL (R274), page 0x100, offset 0x40. -/
def rRK_CTRL : Nat := 0x100 * 1024 + 0x40 / 4
def fRK_CTRL_MAXCLR : Fld := ⟨rRK_CTRL, 4, 1⟩
def fRK_CTRL_ECLR : Fld := ⟨rRK_CTRL, 3, 1⟩
def fRK_CTRL_UNLATCHALL : Fld := ⟨rRK_CTRL, 2, 1⟩
def fRK_CTRL_UNLATCH : Fld := ⟨rRK_CTRL, 1, 1⟩
def fRK_CTRL_SWAP : Fld := ⟨rRK_CTRL, 0, 1⟩
/-- RK_STAT (R274), page 0x100, offset 0x44. -/
def rRK_STAT : Nat := 0x100 * 1024 + 0x44 / 4
def fRK_STAT_TESTBUSY : Fld := ⟨rRK_STAT, 8, 1⟩
def fRK_STAT_CFGREFUSED : Fld := ⟨rRK_STAT, 7, 1⟩
def fRK_STAT_LATE : Fld := ⟨rRK_STAT, 6, 1⟩
def fRK_STAT_UESEEN : Fld := ⟨rRK_STAT, 5, 1⟩
def fRK_STAT_BADRULE : Fld := ⟨rRK_STAT, 4, 1⟩
def fRK_STAT_EMPIN : Fld := ⟨rRK_STAT, 3, 1⟩
def fRK_STAT_EMERG : Fld := ⟨rRK_STAT, 2, 1⟩
def fRK_STAT_SWAPPEND : Fld := ⟨rRK_STAT, 1, 1⟩
def fRK_STAT_ACTBANK : Fld := ⟨rRK_STAT, 0, 1⟩
/-- RK_DBASE (R274), page 0x100, offset 0x48. -/
def rRK_DBASE : Nat := 0x100 * 1024 + 0x48 / 4
def fRK_DBASE : Fld := ⟨rRK_DBASE, 13, 12⟩
/-- RK_WSEL (R274), page 0x100, offset 0x4C. -/
def rRK_WSEL : Nat := 0x100 * 1024 + 0x4C / 4
def fRK_WSEL_ACTRD : Fld := ⟨rRK_WSEL, 16, 1⟩
def fRK_WSEL_PH : Fld := ⟨rRK_WSEL, 15, 1⟩
def fRK_WSEL_INDEX : Fld := ⟨rRK_WSEL, 0, 12⟩
/-- RK_WDATAi (R274), page 0x100, offset 0x50. -/
def rRK_WDATAi (i : Nat) : Nat := 0x100 * 1024 + (0x50 + 0x4 * i) / 4
def fRK_WDATAi (i : Nat) : Fld := ⟨(rRK_WDATAi i), 0, 32⟩
/-- RK_PSEL (R274), page 0x100, offset 0x60. -/
def rRK_PSEL : Nat := 0x100 * 1024 + 0x60 / 4
def fRK_PSEL : Fld := ⟨rRK_PSEL, 0, 9⟩
/-- RK_POVR (R274), page 0x100, offset 0x64. -/
def rRK_POVR : Nat := 0x100 * 1024 + 0x64 / 4
def fRK_POVR_SRC : Fld := ⟨rRK_POVR, 16, 3⟩
def fRK_POVR_FIELDS : Fld := ⟨rRK_POVR, 0, 16⟩
/-- RK_PLATCH (R274), page 0x100, offset 0x68. -/
def rRK_PLATCH : Nat := 0x100 * 1024 + 0x68 / 4
def fRK_PLATCH_LALT : Fld := ⟨rRK_PLATCH, 16, 16⟩
def fRK_PLATCH_LSAFE : Fld := ⟨rRK_PLATCH, 0, 16⟩
/-- RK_PLATCHM (R274), page 0x100, offset 0x6C. -/
def rRK_PLATCHM : Nat := 0x100 * 1024 + 0x6C / 4
def fRK_PLATCHM_LMIN : Fld := ⟨rRK_PLATCHM, 0, 16⟩
/-- RK_TRIPS (R274), page 0x100, offset 0x70. -/
def rRK_TRIPS : Nat := 0x100 * 1024 + 0x70 / 4
def fRK_TRIPS : Fld := ⟨rRK_TRIPS, 0, 32⟩
/-- RK_MAXLAT (R274), page 0x100, offset 0x74. -/
def rRK_MAXLAT : Nat := 0x100 * 1024 + 0x74 / 4
def fRK_MAXLAT : Fld := ⟨rRK_MAXLAT, 0, 8⟩
/-- RK_EVDROP (R274), page 0x100, offset 0x78. -/
def rRK_EVDROP : Nat := 0x100 * 1024 + 0x78 / 4
def fRK_EVDROP : Fld := ⟨rRK_EVDROP, 0, 32⟩
/-- RK_LASTTRIP (R274), page 0x100, offset 0x80. -/
def rRK_LASTTRIP : Nat := 0x100 * 1024 + 0x80 / 4
def fRK_LASTTRIP_PHASE : Fld := ⟨rRK_LASTTRIP, 16, 9⟩
def fRK_LASTTRIP_RULE : Fld := ⟨rRK_LASTTRIP, 0, 12⟩
/-- RK_LASTVAL (R274), page 0x100, offset 0x84. -/
def rRK_LASTVAL : Nat := 0x100 * 1024 + 0x84 / 4
def fRK_LASTVAL_PREV : Fld := ⟨rRK_LASTVAL, 16, 16⟩
def fRK_LASTVAL_VAL : Fld := ⟨rRK_LASTVAL, 0, 16⟩
/-- RK_TCTRL (R274), page 0x101, offset 0x40. -/
def rRK_TCTRL : Nat := 0x101 * 1024 + 0x40 / 4
def fRK_TCTRL_BANK : Fld := ⟨rRK_TCTRL, 16, 1⟩
def fRK_TCTRL_PORT : Fld := ⟨rRK_TCTRL, 8, 6⟩
def fRK_TCTRL_APPLY : Fld := ⟨rRK_TCTRL, 1, 1⟩
def fRK_TCTRL_GO : Fld := ⟨rRK_TCTRL, 0, 1⟩
/-- RK_TOVRl (R274), page 0x101, offset 0x60. -/
def rRK_TOVRl (i : Nat) : Nat := 0x101 * 1024 + (0x60 + 0x4 * i) / 4
def fRK_TOVRl_SRC (i : Nat) : Fld := ⟨(rRK_TOVRl i), 16, 3⟩
def fRK_TOVRl_FIELDS (i : Nat) : Fld := ⟨(rRK_TOVRl i), 0, 16⟩
/-- RK_TFRAMEi (R274), page 0x101, offset 0x80. -/
def rRK_TFRAMEi (i : Nat) : Nat := 0x101 * 1024 + (0x80 + 0x4 * i) / 4
def fRK_TFRAMEi (i : Nat) : Fld := ⟨(rRK_TFRAMEi i), 0, 32⟩
/-- EPn_CTRL (R350), page 0x140, offset 0x40. -/
def rEPn_CTRL (n : Nat) : Nat := (0x140 + n) * 1024 + 0x40 / 4
def fEPn_CTRL_CNTCLR (n : Nat) : Fld := ⟨(rEPn_CTRL n), 6, 1⟩
def fEPn_CTRL_LBFLUSH (n : Nat) : Fld := ⟨(rEPn_CTRL n), 5, 1⟩
def fEPn_CTRL_BPFLUSH (n : Nat) : Fld := ⟨(rEPn_CTRL n), 4, 1⟩
def fEPn_CTRL_PFEN (n : Nat) : Fld := ⟨(rEPn_CTRL n), 2, 1⟩
def fEPn_CTRL_RASEN (n : Nat) : Fld := ⟨(rEPn_CTRL n), 1, 1⟩
def fEPn_CTRL_BPEN (n : Nat) : Fld := ⟨(rEPn_CTRL n), 0, 1⟩
/-- EPn_STAT (R350), page 0x140, offset 0x44. -/
def rEPn_STAT (n : Nat) : Nat := (0x140 + n) * 1024 + 0x44 / 4
def fEPn_STAT_FILLS (n : Nat) : Fld := ⟨(rEPn_STAT n), 16, 2⟩
def fEPn_STAT_LBVALID (n : Nat) : Fld := ⟨(rEPn_STAT n), 8, 6⟩
def fEPn_STAT_RASDEPTH (n : Nat) : Fld := ⟨(rEPn_STAT n), 4, 4⟩
def fEPn_STAT_BPACT (n : Nat) : Fld := ⟨(rEPn_STAT n), 0, 1⟩
/-- EPn_BUNDLES (R350), page 0x140, offset 0x48. -/
def rEPn_BUNDLES (n : Nat) : Nat := (0x140 + n) * 1024 + 0x48 / 4
def fEPn_BUNDLES (n : Nat) : Fld := ⟨(rEPn_BUNDLES n), 0, 32⟩
/-- EPn_FSTALL (R350), page 0x140, offset 0x4C. -/
def rEPn_FSTALL (n : Nat) : Nat := (0x140 + n) * 1024 + 0x4C / 4
def fEPn_FSTALL (n : Nat) : Fld := ⟨(rEPn_FSTALL n), 0, 32⟩
/-- EPn_DSTALL (R350), page 0x140, offset 0x50. -/
def rEPn_DSTALL (n : Nat) : Nat := (0x140 + n) * 1024 + 0x50 / 4
def fEPn_DSTALL (n : Nat) : Fld := ⟨(rEPn_DSTALL n), 0, 32⟩
/-- EPn_MISPRED (R350), page 0x140, offset 0x54. -/
def rEPn_MISPRED (n : Nat) : Nat := (0x140 + n) * 1024 + 0x54 / 4
def fEPn_MISPRED (n : Nat) : Fld := ⟨(rEPn_MISPRED n), 0, 32⟩
/-- EPn_BTBHIT (R350), page 0x140, offset 0x58. -/
def rEPn_BTBHIT (n : Nat) : Nat := (0x140 + n) * 1024 + 0x58 / 4
def fEPn_BTBHIT (n : Nat) : Fld := ⟨(rEPn_BTBHIT n), 0, 32⟩
/-- EPn_DFILLS (R350), page 0x140, offset 0x5C. -/
def rEPn_DFILLS (n : Nat) : Nat := (0x140 + n) * 1024 + 0x5C / 4
def fEPn_DFILLS (n : Nat) : Fld := ⟨(rEPn_DFILLS n), 0, 32⟩
/-- EPn_PFILLS (R350), page 0x140, offset 0x60. -/
def rEPn_PFILLS (n : Nat) : Nat := (0x140 + n) * 1024 + 0x60 / 4
def fEPn_PFILLS (n : Nat) : Fld := ⟨(rEPn_PFILLS n), 0, 32⟩
/-- EPn_WPFILLS (R350), page 0x140, offset 0x64. -/
def rEPn_WPFILLS (n : Nat) : Nat := (0x140 + n) * 1024 + 0x64 / 4
def fEPn_WPFILLS (n : Nat) : Fld := ⟨(rEPn_WPFILLS n), 0, 32⟩
/-- EPn_RASMISS (R350), page 0x140, offset 0x68. -/
def rEPn_RASMISS (n : Nat) : Nat := (0x140 + n) * 1024 + 0x68 / 4
def fEPn_RASMISS (n : Nat) : Fld := ⟨(rEPn_RASMISS n), 0, 32⟩
/-- EPn_LBSTALL (R350), page 0x140, offset 0x6C. -/
def rEPn_LBSTALL (n : Nat) : Nat := (0x140 + n) * 1024 + 0x6C / 4
def fEPn_LBSTALL (n : Nat) : Fld := ⟨(rEPn_LBSTALL n), 0, 32⟩
/-- EXn_STAT (R373), page 0x140, offset 0x80. -/
def rEXn_STAT (n : Nat) : Nat := (0x140 + n) * 1024 + 0x80 / 4
def fEXn_STAT_STOPPED (n : Nat) : Fld := ⟨(rEXn_STAT n), 8, 1⟩
def fEXn_STAT_DFACT (n : Nat) : Fld := ⟨(rEXn_STAT n), 4, 1⟩
def fEXn_STAT_SBDEPTH (n : Nat) : Fld := ⟨(rEXn_STAT n), 0, 3⟩
/-- EXn_COUNT (R373), page 0x140, offset 0x84. -/
def rEXn_COUNT (n : Nat) : Nat := (0x140 + n) * 1024 + 0x84 / 4
def fEXn_COUNT (n : Nat) : Fld := ⟨(rEXn_COUNT n), 0, 32⟩
/-- EXn_MAXSPAN (R373), page 0x140, offset 0x88. -/
def rEXn_MAXSPAN (n : Nat) : Nat := (0x140 + n) * 1024 + 0x88 / 4
def fEXn_MAXSPAN (n : Nat) : Fld := ⟨(rEXn_MAXSPAN n), 0, 16⟩
/-- EXn_CUTS (R373), page 0x140, offset 0x8C. -/
def rEXn_CUTS (n : Nat) : Nat := (0x140 + n) * 1024 + 0x8C / 4
def fEXn_CUTS (n : Nat) : Fld := ⟨(rEXn_CUTS n), 0, 32⟩
/-- XVn_SEL (R401), page 0x144, offset 0x40. -/
def rXVn_SEL (n : Nat) : Nat := (0x144 + n) * 1024 + 0x40 / 4
def fXVn_SEL (n : Nat) : Fld := ⟨(rXVn_SEL n), 0, 5⟩
/-- XVn_TAG (R401), page 0x144, offset 0x44. -/
def rXVn_TAG (n : Nat) : Nat := (0x144 + n) * 1024 + 0x44 / 4
def fXVn_TAG (n : Nat) : Fld := ⟨(rXVn_TAG n), 0, 1⟩
/-- XVn_CAPi (R401), page 0x144, offset 0x50. -/
def rXVn_CAPi (n i : Nat) : Nat := (0x144 + n) * 1024 + (0x50 + 0x4 * i) / 4
def fXVn_CAPi (n i : Nat) : Fld := ⟨(rXVn_CAPi n i), 0, 32⟩
/-- XVn_TLBIPEND (R401), page 0x144, offset 0x60. -/
def rXVn_TLBIPEND (n : Nat) : Nat := (0x144 + n) * 1024 + 0x60 / 4
def fXVn_TLBIPEND (n : Nat) : Fld := ⟨(rXVn_TLBIPEND n), 0, 3⟩
/-- XVn_TLBICNT (R401), page 0x144, offset 0x64. -/
def rXVn_TLBICNT (n : Nat) : Nat := (0x144 + n) * 1024 + 0x64 / 4
def fXVn_TLBICNT (n : Nat) : Fld := ⟨(rXVn_TLBICNT n), 0, 32⟩
/-- GTn_CTRL (R418), page 0x20, offset 0x40. -/
def rGTn_CTRL (n : Nat) : Nat := (0x20 + n) * 1024 + 0x40 / 4
def fGTn_CTRL_CLR (n : Nat) : Fld := ⟨(rGTn_CTRL n), 1, 1⟩
def fGTn_CTRL_RUN (n : Nat) : Fld := ⟨(rGTn_CTRL n), 0, 1⟩
/-- GTn_STAT (R418), page 0x20, offset 0x44. -/
def rGTn_STAT (n : Nat) : Nat := (0x20 + n) * 1024 + 0x44 / 4
def fGTn_STAT_LFDRIFT (n : Nat) : Fld := ⟨(rGTn_STAT n), 3, 1⟩
def fGTn_STAT_CFGREFUSED (n : Nat) : Fld := ⟨(rGTn_STAT n), 2, 1⟩
def fGTn_STAT_CAPOVR (n : Nat) : Fld := ⟨(rGTn_STAT n), 1, 1⟩
def fGTn_STAT_CAPF (n : Nat) : Fld := ⟨(rGTn_STAT n), 0, 1⟩
/-- GTn_COUNT (R418), page 0x20, offset 0x48. -/
def rGTn_COUNT (n : Nat) : Nat := (0x20 + n) * 1024 + 0x48 / 4
def fGTn_COUNT (n : Nat) : Fld := ⟨(rGTn_COUNT n), 0, 32⟩
/-- GTn_RELOAD (R418), page 0x20, offset 0x4C. -/
def rGTn_RELOAD (n : Nat) : Nat := (0x20 + n) * 1024 + 0x4C / 4
def fGTn_RELOAD (n : Nat) : Fld := ⟨(rGTn_RELOAD n), 0, 32⟩
/-- GTn_CAP (R418), page 0x20, offset 0x50. -/
def rGTn_CAP (n : Nat) : Nat := (0x20 + n) * 1024 + 0x50 / 4
def fGTn_CAP (n : Nat) : Fld := ⟨(rGTn_CAP n), 0, 32⟩
/-- GTn_EVIN (R418), page 0x20, offset 0x54. -/
def rGTn_EVIN (n : Nat) : Nat := (0x20 + n) * 1024 + 0x54 / 4
def fGTn_EVIN_CAPEN (n : Nat) : Fld := ⟨(rGTn_EVIN n), 31, 1⟩
def fGTn_EVIN_CAPCH (n : Nat) : Fld := ⟨(rGTn_EVIN n), 16, 8⟩
def fGTn_EVIN_RSTEN (n : Nat) : Fld := ⟨(rGTn_EVIN n), 15, 1⟩
def fGTn_EVIN_RSTCH (n : Nat) : Fld := ⟨(rGTn_EVIN n), 0, 8⟩
/-- GTn_CMPk_CTRL (R418), page 0x20, offset 0x60. -/
def rGTn_CMPk_CTRL (n i : Nat) : Nat := (0x20 + n) * 1024 + (0x60 + 0x10 * i) / 4
def fGTn_CMPk_CTRL_EVOUT (n i : Nat) : Fld := ⟨(rGTn_CMPk_CTRL n i), 31, 1⟩
def fGTn_CMPk_CTRL_EVOUTCH (n i : Nat) : Fld := ⟨(rGTn_CMPk_CTRL n i), 16, 8⟩
def fGTn_CMPk_CTRL_ONESHOT (n i : Nat) : Fld := ⟨(rGTn_CMPk_CTRL n i), 3, 1⟩
def fGTn_CMPk_CTRL_IMM (n i : Nat) : Fld := ⟨(rGTn_CMPk_CTRL n i), 2, 1⟩
def fGTn_CMPk_CTRL_EN (n i : Nat) : Fld := ⟨(rGTn_CMPk_CTRL n i), 0, 1⟩
/-- GTn_CMPk_STAT (R418), page 0x20, offset 0x64. -/
def rGTn_CMPk_STAT (n i : Nat) : Nat := (0x20 + n) * 1024 + (0x64 + 0x10 * i) / 4
def fGTn_CMPk_STAT_MULTI (n i : Nat) : Fld := ⟨(rGTn_CMPk_STAT n i), 2, 1⟩
def fGTn_CMPk_STAT_CMPRANGE (n i : Nat) : Fld := ⟨(rGTn_CMPk_STAT n i), 1, 1⟩
def fGTn_CMPk_STAT_MATCH (n i : Nat) : Fld := ⟨(rGTn_CMPk_STAT n i), 0, 1⟩
/-- GTn_CMPk (R418), page 0x20, offset 0x68. -/
def rGTn_CMPk (n i : Nat) : Nat := (0x20 + n) * 1024 + (0x68 + 0x10 * i) / 4
def fGTn_CMPk_VALUE (n i : Nat) : Fld := ⟨(rGTn_CMPk n i), 0, 32⟩
/-- EGg_CTRL (R418), page 0x40, offset 0x40. -/
def rEGg_CTRL (n : Nat) : Nat := (0x40 + n) * 1024 + 0x40 / 4
def fEGg_CTRL_GEN (n : Nat) : Fld := ⟨(rEGg_CTRL n), 0, 1⟩
/-- EGg_STAT (R418), page 0x40, offset 0x44. -/
def rEGg_STAT (n : Nat) : Nat := (0x40 + n) * 1024 + 0x44 / 4
def fEGg_STAT_ACTLOST (n : Nat) : Fld := ⟨(rEGg_STAT n), 0, 1⟩
/-- EGg_DROP (R418), page 0x40, offset 0x48. -/
def rEGg_DROP (n : Nat) : Nat := (0x40 + n) * 1024 + 0x48 / 4
def fEGg_DROP (n : Nat) : Fld := ⟨(rEGg_DROP n), 0, 32⟩
/-- EGg_MERGE (R418), page 0x40, offset 0x4C. -/
def rEGg_MERGE (n : Nat) : Nat := (0x40 + n) * 1024 + 0x4C / 4
def fEGg_MERGE (n : Nat) : Fld := ⟨(rEGg_MERGE n), 0, 16⟩
/-- EGg_SW (R418), page 0x40, offset 0x50. -/
def rEGg_SW (n : Nat) : Nat := (0x40 + n) * 1024 + 0x50 / 4
def fEGg_SW (n : Nat) : Fld := ⟨(rEGg_SW n), 0, 16⟩
/-- EVc_CFG (R418), page 0x40, offset 0x80. -/
def rEVc_CFG (n : Nat) : Nat := (0x40 + n / 16) * 1024 + (0x80 + 0x4 * (n % 16)) / 4
def fEVc_CFG_EN (n : Nat) : Fld := ⟨(rEVc_CFG n), 31, 1⟩
def fEVc_CFG_DIRECT (n : Nat) : Fld := ⟨(rEVc_CFG n), 30, 1⟩
def fEVc_CFG_EVFMASK (n : Nat) : Fld := ⟨(rEVc_CFG n), 24, 4⟩
def fEVc_CFG_IRQEN (n : Nat) : Fld := ⟨(rEVc_CFG n), 23, 1⟩
def fEVc_CFG_IRQCORE (n : Nat) : Fld := ⟨(rEVc_CFG n), 21, 2⟩
def fEVc_CFG_IRQLINE (n : Nat) : Fld := ⟨(rEVc_CFG n), 16, 4⟩
def fEVc_CFG_GACT (n : Nat) : Fld := ⟨(rEVc_CFG n), 15, 1⟩
def fEVc_CFG_GOP (n : Nat) : Fld := ⟨(rEVc_CFG n), 14, 1⟩
def fEVc_CFG_GTGT (n : Nat) : Fld := ⟨(rEVc_CFG n), 8, 4⟩
/-- PX_LSTAT (R451), page 0x10, offset 0x40. -/
def rPX_LSTAT : Nat := 0x1010 * 1024 + 0x40 / 4
def fPX_LSTAT_WIDTH : Fld := ⟨rPX_LSTAT, 16, 5⟩
def fPX_LSTAT_L1 : Fld := ⟨rPX_LSTAT, 8, 1⟩
def fPX_LSTAT_SPEED : Fld := ⟨rPX_LSTAT, 0, 4⟩
/-- PX_CECNT (R451), page 0x10, offset 0x44. -/
def rPX_CECNT : Nat := 0x1010 * 1024 + 0x44 / 4
def fPX_CECNT : Fld := ⟨rPX_CECNT, 0, 32⟩
/-- PX_UECNT (R451), page 0x10, offset 0x48. -/
def rPX_UECNT : Nat := 0x1010 * 1024 + 0x48 / 4
def fPX_UECNT : Fld := ⟨rPX_UECNT, 0, 32⟩
/-- PX_RETRY (R451), page 0x10, offset 0x4C. -/
def rPX_RETRY : Nat := 0x1010 * 1024 + 0x4C / 4
def fPX_RETRY : Fld := ⟨rPX_RETRY, 0, 32⟩
/-- PX_PBAi (R451), page 0x13, offset 0x40. -/
def rPX_PBAi (i : Nat) : Nat := 0x1013 * 1024 + (0x40 + 0x4 * i) / 4
def fPX_PBAi_PEND (i : Nat) : Fld := ⟨(rPX_PBAi i), 0, 32⟩
/-- QE_STAT (R451), page 0x20, offset 0x40. -/
def rQE_STAT : Nat := 0x1020 * 1024 + 0x40 / 4
def fQE_STAT_CFGREFUSED : Fld := ⟨rQE_STAT, 4, 1⟩
def fQE_STAT_RESYNC : Fld := ⟨rQE_STAT, 2, 1⟩
def fQE_STAT_QOPBUSY : Fld := ⟨rQE_STAT, 1, 1⟩
def fQE_STAT_JFULL : Fld := ⟨rQE_STAT, 0, 1⟩
/-- QE_QOP (R451), page 0x20, offset 0x48. -/
def rQE_QOP : Nat := 0x1020 * 1024 + 0x48 / 4
def fQE_QOP_OP : Fld := ⟨rQE_QOP, 0, 4⟩
/-- QE_QCFG (R451), page 0x20, offset 0x60. -/
def rQE_QCFG : Nat := 0x1020 * 1024 + 0x60 / 4
def fQE_QCFG_VECTOR : Fld := ⟨rQE_QCFG, 24, 8⟩
def fQE_QCFG_CQLOG2 : Fld := ⟨rQE_QCFG, 16, 5⟩
def fQE_QCFG_SQLOG2 : Fld := ⟨rQE_QCFG, 8, 5⟩
/-- QE_QSEL (R451), page 0x20, offset 0x44. -/
def rQE_QSEL : Nat := 0x1020 * 1024 + 0x44 / 4
def fQE_QSEL : Fld := ⟨rQE_QSEL, 0, 16⟩
/-- QE_QRES (R451), page 0x20, offset 0x4C. -/
def rQE_QRES : Nat := 0x1020 * 1024 + 0x4C / 4
def fQE_QRES : Fld := ⟨rQE_QRES, 0, 8⟩
/-- QE_SQBASE (R451), page 0x20, offset 0x50. -/
def rQE_SQBASE : Nat := 0x1020 * 1024 + 0x50 / 4
/-- QE_CQBASE (R451), page 0x20, offset 0x58. -/
def rQE_CQBASE : Nat := 0x1020 * 1024 + 0x58 / 4
/-- QE_LASTSEQ (R451), page 0x20, offset 0x64. -/
def rQE_LASTSEQ : Nat := 0x1020 * 1024 + 0x64 / 4
def fQE_LASTSEQ : Fld := ⟨rQE_LASTSEQ, 0, 32⟩
/-- QE_QSTATE (R451), page 0x20, offset 0x68. -/
def rQE_QSTATE : Nat := 0x1020 * 1024 + 0x68 / 4
def fQE_QSTATE_STATE : Fld := ⟨rQE_QSTATE, 30, 2⟩
def fQE_QSTATE_TYPE : Fld := ⟨rQE_QSTATE, 28, 2⟩
def fQE_QSTATE_ERR : Fld := ⟨rQE_QSTATE, 24, 4⟩
def fQE_QSTATE_SQHEAD : Fld := ⟨rQE_QSTATE, 0, 16⟩
/-- QE_QHSEQ (R451), page 0x20, offset 0x6C. -/
def rQE_QHSEQ : Nat := 0x1020 * 1024 + 0x6C / 4
def fQE_QHSEQ : Fld := ⟨rQE_QHSEQ, 0, 32⟩
/-- QE_QRESV (R451), page 0x20, offset 0x70. -/
def rQE_QRESV : Nat := 0x1020 * 1024 + 0x70 / 4
def fQE_QRESV_RESV : Fld := ⟨rQE_QRESV, 16, 16⟩
def fQE_QRESV_TAIL : Fld := ⟨rQE_QRESV, 0, 16⟩
/-- QE_EQDROP (R451), page 0x20, offset 0x74. -/
def rQE_EQDROP : Nat := 0x1020 * 1024 + 0x74 / 4
def fQE_EQDROP : Fld := ⟨rQE_EQDROP, 0, 32⟩
/-- QE_DBERR (R451), page 0x20, offset 0x78. -/
def rQE_DBERR : Nat := 0x1020 * 1024 + 0x78 / 4
def fQE_DBERR : Fld := ⟨rQE_DBERR, 0, 32⟩
/-- QE_EVNOQ (R451), page 0x20, offset 0x7C. -/
def rQE_EVNOQ : Nat := 0x1020 * 1024 + 0x7C / 4
def fQE_EVNOQ : Fld := ⟨rQE_EVNOQ, 0, 32⟩
/-- QE_JFREE (R451), page 0x20, offset 0x80. -/
def rQE_JFREE : Nat := 0x1020 * 1024 + 0x80 / 4
def fQE_JFREE : Fld := ⟨rQE_JFREE, 0, 15⟩
/-- QE_ACCCNT (R451), page 0x20, offset 0x88. -/
def rQE_ACCCNT : Nat := 0x1020 * 1024 + 0x88 / 4
/-- TJ_CTRL (R452), page 0x150, offset 0x200. -/
def rTJ_CTRL : Nat := 0x150 * 1024 + 0x200 / 4
def fTJ_CTRL_RELEASE : Fld := ⟨rTJ_CTRL, 1, 1⟩
def fTJ_CTRL_REPLAY : Fld := ⟨rTJ_CTRL, 0, 1⟩
/-- TJ_STAT (R452), page 0x150, offset 0x204. -/
def rTJ_STAT : Nat := 0x150 * 1024 + 0x204 / 4
def fTJ_STAT_CFGREFUSED : Fld := ⟨rTJ_STAT, 4, 1⟩
def fTJ_STAT_HELD : Fld := ⟨rTJ_STAT, 2, 1⟩
def fTJ_STAT_REPLAYED : Fld := ⟨rTJ_STAT, 1, 1⟩
def fTJ_STAT_REPLAYING : Fld := ⟨rTJ_STAT, 0, 1⟩
/-- TJ_OCC (R452), page 0x150, offset 0x208. -/
def rTJ_OCC : Nat := 0x150 * 1024 + 0x208 / 4
def fTJ_OCC : Fld := ⟨rTJ_OCC, 0, 15⟩
/-- TJ_EXPIRED (R452), page 0x150, offset 0x20C. -/
def rTJ_EXPIRED : Nat := 0x150 * 1024 + 0x20C / 4
def fTJ_EXPIRED : Fld := ⟨rTJ_EXPIRED, 0, 32⟩
/-- TJ_MARKMAX (R452), page 0x150, offset 0x210. -/
def rTJ_MARKMAX : Nat := 0x150 * 1024 + 0x210 / 4
def fTJ_MARKMAX : Fld := ⟨rTJ_MARKMAX, 0, 16⟩
/-- TJ_HOLDS (R452), page 0x150, offset 0x214. -/
def rTJ_HOLDS : Nat := 0x150 * 1024 + 0x214 / 4
def fTJ_HOLDS : Fld := ⟨rTJ_HOLDS, 0, 32⟩
/-- TJ_UEIDX (R452), page 0x150, offset 0x218. -/
def rTJ_UEIDX : Nat := 0x150 * 1024 + 0x218 / 4
def fTJ_UEIDX : Fld := ⟨rTJ_UEIDX, 0, 14⟩
/-- SL_CTRL (R483), page 0x150, offset 0x40. -/
def rSL_CTRL : Nat := 0x150 * 1024 + 0x40 / 4
def fSL_CTRL_HRVEN : Fld := ⟨rSL_CTRL, 9, 1⟩
def fSL_CTRL_TELEN : Fld := ⟨rSL_CTRL, 8, 1⟩
def fSL_CTRL_PAIRDIS : Fld := ⟨rSL_CTRL, 0, 4⟩
/-- SL_PSTAT (R483), page 0x150, offset 0x44. -/
def rSL_PSTAT : Nat := 0x150 * 1024 + 0x44 / 4
def fSL_PSTAT_STATE : Fld := ⟨rSL_PSTAT, 0, 16⟩
/-- SL_LAT (R483), page 0x150, offset 0x48. -/
def rSL_LAT : Nat := 0x150 * 1024 + 0x48 / 4
def fSL_LAT : Fld := ⟨rSL_LAT, 0, 32⟩
/-- SL_CRCERR (R483), page 0x150, offset 0x4C. -/
def rSL_CRCERR : Nat := 0x150 * 1024 + 0x4C / 4
def fSL_CRCERR_P0 : Fld := ⟨rSL_CRCERR, 0, 8⟩
def fSL_CRCERR_P1 : Fld := ⟨rSL_CRCERR, 8, 8⟩
def fSL_CRCERR_P2 : Fld := ⟨rSL_CRCERR, 16, 8⟩
def fSL_CRCERR_P3 : Fld := ⟨rSL_CRCERR, 24, 8⟩
/-- SL_RETX (R483), page 0x150, offset 0x50. -/
def rSL_RETX : Nat := 0x150 * 1024 + 0x50 / 4
def fSL_RETX : Fld := ⟨rSL_RETX, 0, 32⟩
/-- SL_DUPDROP (R483), page 0x150, offset 0x54. -/
def rSL_DUPDROP : Nat := 0x150 * 1024 + 0x54 / 4
def fSL_DUPDROP : Fld := ⟨rSL_DUPDROP, 0, 32⟩
/-- SL_EVDROP (R483), page 0x150, offset 0x58. -/
def rSL_EVDROP : Nat := 0x150 * 1024 + 0x58 / 4
def fSL_EVDROP : Fld := ⟨rSL_EVDROP, 0, 32⟩
/-- SL_TELSKIP (R483), page 0x150, offset 0x5C. -/
def rSL_TELSKIP : Nat := 0x150 * 1024 + 0x5C / 4
def fSL_TELSKIP : Fld := ⟨rSL_TELSKIP, 0, 32⟩
/-- SL_TELBASE (R483), page 0x150, offset 0x60. -/
def rSL_TELBASE : Nat := 0x150 * 1024 + 0x60 / 4
def fSL_TELBASE : Fld := ⟨rSL_TELBASE, 6, 19⟩
/-- SL_TELLEN (R483), page 0x150, offset 0x64. -/
def rSL_TELLEN : Nat := 0x150 * 1024 + 0x64 / 4
def fSL_TELLEN : Fld := ⟨rSL_TELLEN, 0, 6⟩
/-- SL_HRVBASE (R483), page 0x150, offset 0x68. -/
def rSL_HRVBASE : Nat := 0x150 * 1024 + 0x68 / 4
def fSL_HRVBASE : Fld := ⟨rSL_HRVBASE, 7, 18⟩
/-- SL_FCYC (R483), page 0x150, offset 0x70. -/
def rSL_FCYC : Nat := 0x150 * 1024 + 0x70 / 4
/-- SH_PSTAT (R483), page 0x40, offset 0x40. -/
def rSH_PSTAT : Nat := 0x1040 * 1024 + 0x40 / 4
def fSH_PSTAT : Fld := ⟨rSH_PSTAT, 0, 16⟩
/-- SH_LAT (R483), page 0x40, offset 0x44. -/
def rSH_LAT : Nat := 0x1040 * 1024 + 0x44 / 4
def fSH_LAT : Fld := ⟨rSH_LAT, 0, 32⟩
/-- SH_CRCERR (R483), page 0x40, offset 0x48. -/
def rSH_CRCERR : Nat := 0x1040 * 1024 + 0x48 / 4
def fSH_CRCERR : Fld := ⟨rSH_CRCERR, 0, 32⟩
/-- SH_RETX (R483), page 0x40, offset 0x4C. -/
def rSH_RETX : Nat := 0x1040 * 1024 + 0x4C / 4
def fSH_RETX : Fld := ⟨rSH_RETX, 0, 32⟩
/-- SH_ANGLE (R483), page 0x40, offset 0x50. -/
def rSH_ANGLE : Nat := 0x1040 * 1024 + 0x50 / 4
/-- SH_TICKNO (R483), page 0x40, offset 0x58. -/
def rSH_TICKNO : Nat := 0x1040 * 1024 + 0x58 / 4
/-- SH_TELSEQ (R483), page 0x40, offset 0x60. -/
def rSH_TELSEQ : Nat := 0x1040 * 1024 + 0x60 / 4
def fSH_TELSEQ : Fld := ⟨rSH_TELSEQ, 0, 32⟩
/-- SH_TELANGLE (R483), page 0x40, offset 0x68. -/
def rSH_TELANGLE : Nat := 0x1040 * 1024 + 0x68 / 4
/-- ETHm_CTRL (R483), page 0x50, offset 0x40. -/
def rETHm_CTRL (n : Nat) : Nat := (0x1050 + n) * 1024 + 0x40 / 4
def fETHm_CTRL_MODE (n : Nat) : Fld := ⟨(rETHm_CTRL n), 0, 2⟩
/-- ETHm_STAT (R483), page 0x50, offset 0x44. -/
def rETHm_STAT (n : Nat) : Nat := (0x1050 + n) * 1024 + 0x44 / 4
def fETHm_STAT_ANDONE (n : Nat) : Fld := ⟨(rETHm_STAT n), 1, 1⟩
def fETHm_STAT_LINK (n : Nat) : Fld := ⟨(rETHm_STAT n), 0, 1⟩
/-- ETHm_MAC (R483), page 0x50, offset 0x48. -/
def rETHm_MAC (n : Nat) : Nat := (0x1050 + n) * 1024 + 0x48 / 4
/-- ETHm_RXFRM (R483), page 0x50, offset 0x50. -/
def rETHm_RXFRM (n : Nat) : Nat := (0x1050 + n) * 1024 + 0x50 / 4
def fETHm_RXFRM (n : Nat) : Fld := ⟨(rETHm_RXFRM n), 0, 32⟩
/-- ETHm_TXFRM (R483), page 0x50, offset 0x54. -/
def rETHm_TXFRM (n : Nat) : Nat := (0x1050 + n) * 1024 + 0x54 / 4
def fETHm_TXFRM (n : Nat) : Fld := ⟨(rETHm_TXFRM n), 0, 32⟩
/-- ETHm_DROP (R483), page 0x50, offset 0x58. -/
def rETHm_DROP (n : Nat) : Nat := (0x1050 + n) * 1024 + 0x58 / 4
def fETHm_DROP (n : Nat) : Fld := ⟨(rETHm_DROP n), 0, 32⟩
/-- ETHm_IP6i (R483), page 0x50, offset 0x60. -/
def rETHm_IP6i (n i : Nat) : Nat := (0x1050 + n) * 1024 + (0x60 + 0x4 * i) / 4
def fETHm_IP6i (n i : Nat) : Fld := ⟨(rETHm_IP6i n i), 0, 32⟩
/-- PT_CTRL (R483), page 0x58, offset 0x40. -/
def rPT_CTRL : Nat := 0x1058 * 1024 + 0x40 / 4
def fPT_CTRL_TFEN : Fld := ⟨rPT_CTRL, 16, 1⟩
def fPT_CTRL_DOMAIN : Fld := ⟨rPT_CTRL, 8, 8⟩
def fPT_CTRL_OCPORT : Fld := ⟨rPT_CTRL, 4, 1⟩
def fPT_CTRL_ROLE : Fld := ⟨rPT_CTRL, 0, 2⟩
/-- PT_SEC (R483), page 0x58, offset 0x48. -/
def rPT_SEC : Nat := 0x1058 * 1024 + 0x48 / 4
/-- PT_NS (R483), page 0x58, offset 0x50. -/
def rPT_NS : Nat := 0x1058 * 1024 + 0x50 / 4
def fPT_NS : Fld := ⟨rPT_NS, 0, 30⟩
/-- PT_ADJ (R483), page 0x58, offset 0x58. -/
def rPT_ADJ : Nat := 0x1058 * 1024 + 0x58 / 4
def fPT_ADJ : Fld := ⟨rPT_ADJ, 0, 32⟩
/-- PT_STEP (R483), page 0x58, offset 0x5C. -/
def rPT_STEP : Nat := 0x1058 * 1024 + 0x5C / 4
def fPT_STEP : Fld := ⟨rPT_STEP, 0, 32⟩
/-- TF_T0 (R483), page 0x58, offset 0x60. -/
def rTF_T0 : Nat := 0x1058 * 1024 + 0x60 / 4
/-- TF_ANGLE0 (R483), page 0x58, offset 0x68. -/
def rTF_ANGLE0 : Nat := 0x1058 * 1024 + 0x68 / 4
/-- TF_RATE (R483), page 0x58, offset 0x70. -/
def rTF_RATE : Nat := 0x1058 * 1024 + 0x70 / 4
/-- TF_LEAD (R483), page 0x58, offset 0x78. -/
def rTF_LEAD : Nat := 0x1058 * 1024 + 0x78 / 4
def fTF_LEAD : Fld := ⟨rTF_LEAD, 0, 24⟩
/-- PT_LOCKWIN (R483), page 0x58, offset 0x7C. -/
def rPT_LOCKWIN : Nat := 0x1058 * 1024 + 0x7C / 4
def fPT_LOCKWIN : Fld := ⟨rPT_LOCKWIN, 0, 16⟩
/-- PT_SERVO (R483), page 0x58, offset 0x80. -/
def rPT_SERVO : Nat := 0x1058 * 1024 + 0x80 / 4
def fPT_SERVO_LOCKED : Fld := ⟨rPT_SERVO, 31, 1⟩
def fPT_SERVO_OFFSET : Fld := ⟨rPT_SERVO, 0, 24⟩
/-- TF_SENT (R483), page 0x58, offset 0x84. -/
def rTF_SENT : Nat := 0x1058 * 1024 + 0x84 / 4
def fTF_SENT : Fld := ⟨rTF_SENT, 0, 32⟩
/-- HG_NODE (R483), page 0x60, offset 0x40. -/
def rHG_NODE : Nat := 0x1060 * 1024 + 0x40 / 4
def fHG_NODE : Fld := ⟨rHG_NODE, 0, 16⟩
/-- HG_GROUP (R483), page 0x60, offset 0x44. -/
def rHG_GROUP : Nat := 0x1060 * 1024 + 0x44 / 4
def fHG_GROUP : Fld := ⟨rHG_GROUP, 0, 16⟩
/-- HG_RTURNS (R483), page 0x60, offset 0x48. -/
def rHG_RTURNS : Nat := 0x1060 * 1024 + 0x48 / 4
def fHG_RTURNS : Fld := ⟨rHG_RTURNS, 0, 16⟩
/-- HG_PORT (R483), page 0x60, offset 0x4C. -/
def rHG_PORT : Nat := 0x1060 * 1024 + 0x4C / 4
def fHG_PORT : Fld := ⟨rHG_PORT, 0, 16⟩
/-- HG_MADDRi (R483), page 0x60, offset 0x50. -/
def rHG_MADDRi (i : Nat) : Nat := 0x1060 * 1024 + (0x50 + 0x4 * i) / 4
def fHG_MADDRi (i : Nat) : Fld := ⟨(rHG_MADDRi i), 0, 32⟩
/-- HG_AGGRi (R483), page 0x60, offset 0x60. -/
def rHG_AGGRi (i : Nat) : Nat := 0x1060 * 1024 + (0x60 + 0x4 * i) / 4
def fHG_AGGRi (i : Nat) : Fld := ⟨(rHG_AGGRi i), 0, 32⟩
/-- HG_ROOTi (R483), page 0x60, offset 0x70. -/
def rHG_ROOTi (i : Nat) : Nat := 0x1060 * 1024 + (0x70 + 0x4 * i) / 4
def fHG_ROOTi (i : Nat) : Fld := ⟨(rHG_ROOTi i), 0, 32⟩
/-- HG_CAP (R483), page 0x60, offset 0x80. -/
def rHG_CAP : Nat := 0x1060 * 1024 + 0x80 / 4
/-- HG_ROUND (R483), page 0x60, offset 0x88. -/
def rHG_ROUND : Nat := 0x1060 * 1024 + 0x88 / 4
def fHG_ROUND : Fld := ⟨rHG_ROUND, 0, 32⟩
/-- HG_MEMBERS (R483), page 0x60, offset 0x8C. -/
def rHG_MEMBERS : Nat := 0x1060 * 1024 + 0x8C / 4
def fHG_MEMBERS : Fld := ⟨rHG_MEMBERS, 0, 17⟩
/-- HG_DROP (R483), page 0x60, offset 0x90. -/
def rHG_DROP : Nat := 0x1060 * 1024 + 0x90 / 4
def fHG_DROP : Fld := ⟨rHG_DROP, 0, 32⟩
/-- HG_MISS (R483), page 0x60, offset 0x94. -/
def rHG_MISS : Nat := 0x1060 * 1024 + 0x94 / 4
def fHG_MISS : Fld := ⟨rHG_MISS, 0, 32⟩
/-- FC_CTRL (R505), page 0x16F, offset 0x40. -/
def rFC_CTRL : Nat := 0x16F * 1024 + 0x40 / 4
def fFC_CTRL_INJECT : Fld := ⟨rFC_CTRL, 16, 4⟩
def fFC_CTRL_RECOVER : Fld := ⟨rFC_CTRL, 8, 4⟩
def fFC_CTRL_AUTOREC : Fld := ⟨rFC_CTRL, 0, 4⟩
/-- FC_STAT (R505), page 0x16F, offset 0x44. -/
def rFC_STAT : Nat := 0x16F * 1024 + 0x44 / 4
def fFC_STAT_LOGIC : Fld := ⟨rFC_STAT, 16, 1⟩
def fFC_STAT_DEAD : Fld := ⟨rFC_STAT, 8, 4⟩
def fFC_STAT_RECOVERING : Fld := ⟨rFC_STAT, 4, 4⟩
def fFC_STAT_STOPPED : Fld := ⟨rFC_STAT, 0, 4⟩
/-- FC_LSCNTn (R505), page 0x16F, offset 0x48. -/
def rFC_LSCNTn (i : Nat) : Nat := 0x16F * 1024 + (0x48 + 0x4 * i) / 4
def fFC_LSCNTn (i : Nat) : Fld := ⟨(rFC_LSCNTn i), 0, 32⟩
/-- FC_LSKINDn (R505), page 0x16F, offset 0x58. -/
def rFC_LSKINDn (i : Nat) : Nat := 0x16F * 1024 + (0x58 + 0x4 * i) / 4
def fFC_LSKINDn (i : Nat) : Fld := ⟨(rFC_LSKINDn i), 0, 4⟩
/-- FC_LSFCYC (R505), page 0x16F, offset 0x68. -/
def rFC_LSFCYC : Nat := 0x16F * 1024 + 0x68 / 4
/-- FC_LOGICCNT (R505), page 0x16F, offset 0x70. -/
def rFC_LOGICCNT : Nat := 0x16F * 1024 + 0x70 / 4
def fFC_LOGICCNT : Fld := ⟨rFC_LOGICCNT, 0, 32⟩
/-- PL_CTRL (R505), page 0x180, offset 0x40. -/
def rPL_CTRL : Nat := 0x180 * 1024 + 0x40 / 4
def fPL_CTRL_JOIN : Fld := ⟨rPL_CTRL, 4, 1⟩
def fPL_CTRL_RELAYEN : Fld := ⟨rPL_CTRL, 3, 1⟩
def fPL_CTRL_TSRC : Fld := ⟨rPL_CTRL, 2, 1⟩
def fPL_CTRL_RANK : Fld := ⟨rPL_CTRL, 0, 1⟩
/-- PL_STAT (R505), page 0x180, offset 0x44. -/
def rPL_STAT : Nat := 0x180 * 1024 + 0x44 / 4
def fPL_STAT_LANE : Fld := ⟨rPL_STAT, 8, 3⟩
def fPL_STAT_ARB : Fld := ⟨rPL_STAT, 1, 2⟩
def fPL_STAT_PAIRED : Fld := ⟨rPL_STAT, 0, 1⟩
/-- PL_COUNT (R505), page 0x180, offset 0x48. -/
def rPL_COUNT : Nat := 0x180 * 1024 + 0x48 / 4
def fPL_COUNT_PHELD : Fld := ⟨rPL_COUNT, 16, 8⟩
def fPL_COUNT_HELD : Fld := ⟨rPL_COUNT, 8, 8⟩
def fPL_COUNT_PRESENT : Fld := ⟨rPL_COUNT, 0, 8⟩
/-- PL_LAT (R505), page 0x180, offset 0x4C. -/
def rPL_LAT : Nat := 0x180 * 1024 + 0x4C / 4
def fPL_LAT : Fld := ⟨rPL_LAT, 0, 8⟩
/-- PL_TL (R505), page 0x180, offset 0x50. -/
def rPL_TL : Nat := 0x180 * 1024 + 0x50 / 4
/-- PL_RELAYREQ (R505), page 0x180, offset 0x58. -/
def rPL_RELAYREQ : Nat := 0x180 * 1024 + 0x58 / 4
/-- PL_RELAYACT (R505), page 0x180, offset 0x60. -/
def rPL_RELAYACT : Nat := 0x180 * 1024 + 0x60 / 4
/-- PL_MISS (R505), page 0x180, offset 0x68. -/
def rPL_MISS : Nat := 0x180 * 1024 + 0x68 / 4
def fPL_MISS : Fld := ⟨rPL_MISS, 0, 32⟩
/-- PL_DIGERR (R505), page 0x180, offset 0x6C. -/
def rPL_DIGERR : Nat := 0x180 * 1024 + 0x6C / 4
def fPL_DIGERR : Fld := ⟨rPL_DIGERR, 0, 32⟩
/-- PL_GBLOCK (R505), page 0x180, offset 0x70. -/
def rPL_GBLOCK : Nat := 0x180 * 1024 + 0x70 / 4
def fPL_GBLOCK : Fld := ⟨rPL_GBLOCK, 0, 32⟩
/-- PWR_STAT (R524), page 0x160, offset 0x40. -/
def rPWR_STAT : Nat := 0x160 * 1024 + 0x40 / 4
def fPWR_STAT_TEMPHIGH : Fld := ⟨rPWR_STAT, 8, 1⟩
def fPWR_STAT_CFGREFUSED : Fld := ⟨rPWR_STAT, 5, 1⟩
def fPWR_STAT_HDIP : Fld := ⟨rPWR_STAT, 4, 1⟩
def fPWR_STAT_BELOW : Fld := ⟨rPWR_STAT, 3, 1⟩
/-- BWCTL (R524), page 0x160, offset 0x44. -/
def rBWCTL : Nat := 0x160 * 1024 + 0x44 / 4
def fBWCTL_HOLD : Fld := ⟨rBWCTL, 0, 1⟩
/-- PWR_MODE (R524), page 0x160, offset 0x48. -/
def rPWR_MODE : Nat := 0x160 * 1024 + 0x48 / 4
def fPWR_MODE_REFOFF : Fld := ⟨rPWR_MODE, 8, 1⟩
def fPWR_MODE_MODE : Fld := ⟨rPWR_MODE, 0, 2⟩
/-- PWR_WAKE (R524), page 0x160, offset 0x4C. -/
def rPWR_WAKE : Nat := 0x160 * 1024 + 0x4C / 4
def fPWR_WAKE_WAKEEN : Fld := ⟨rPWR_WAKE, 31, 1⟩
def fPWR_WAKE_WAKESL : Fld := ⟨rPWR_WAKE, 16, 1⟩
def fPWR_WAKE_WAKECH : Fld := ⟨rPWR_WAKE, 0, 8⟩
/-- PWR_DIPMIN (R524), page 0x160, offset 0x50. -/
def rPWR_DIPMIN : Nat := 0x160 * 1024 + 0x50 / 4
def fPWR_DIPMIN : Fld := ⟨rPWR_DIPMIN, 0, 12⟩
/-- PWR_DIPDUR (R524), page 0x160, offset 0x54. -/
def rPWR_DIPDUR : Nat := 0x160 * 1024 + 0x54 / 4
def fPWR_DIPDUR : Fld := ⟨rPWR_DIPDUR, 0, 32⟩
/-- PWR_DIPCNT (R524), page 0x160, offset 0x58. -/
def rPWR_DIPCNT : Nat := 0x160 * 1024 + 0x58 / 4
def fPWR_DIPCNT : Fld := ⟨rPWR_DIPCNT, 0, 32⟩
/-- PWR_TEMP (R524), page 0x160, offset 0x5C. -/
def rPWR_TEMP : Nat := 0x160 * 1024 + 0x5C / 4
def fPWR_TEMP : Fld := ⟨rPWR_TEMP, 0, 16⟩
/-- CK_STAT (R524), page 0x161, offset 0x40. -/
def rCK_STAT : Nat := 0x161 * 1024 + 0x40 / 4
def fCK_STAT_REFOK : Fld := ⟨rCK_STAT, 2, 1⟩
def fCK_STAT_LPLLLOCK : Fld := ⟨rCK_STAT, 1, 1⟩
def fCK_STAT_FPLLLOCK : Fld := ⟨rCK_STAT, 0, 1⟩
/-- CK_REFMISS (R524), page 0x161, offset 0x44. -/
def rCK_REFMISS : Nat := 0x161 * 1024 + 0x44 / 4
def fCK_REFMISS : Fld := ⟨rCK_REFMISS, 0, 32⟩
/-- RST_CTRL (R524), page 0x162, offset 0x40. -/
def rRST_CTRL : Nat := 0x162 * 1024 + 0x40 / 4
def fRST_CTRL_FRAMEGO : Fld := ⟨rRST_CTRL, 8, 1⟩
def fRST_CTRL_CORERUN : Fld := ⟨rRST_CTRL, 4, 4⟩
def fRST_CTRL_WARM : Fld := ⟨rRST_CTRL, 0, 1⟩
/-- RST_STAT (R524), page 0x162, offset 0x44. -/
def rRST_STAT : Nat := 0x162 * 1024 + 0x44 / 4
def fRST_STAT_FRAMEHOLD : Fld := ⟨rRST_STAT, 16, 1⟩
def fRST_STAT_CAUSE : Fld := ⟨rRST_STAT, 0, 5⟩
/-- RST_WARMCNT (R524), page 0x162, offset 0x48. -/
def rRST_WARMCNT : Nat := 0x162 * 1024 + 0x48 / 4
def fRST_WARMCNT : Fld := ⟨rRST_WARMCNT, 0, 32⟩
/-- RST_LAST (R524), page 0x162, offset 0x50. -/
def rRST_LAST : Nat := 0x162 * 1024 + 0x50 / 4
/-- HP_STAT (R524), page 0x90, offset 0x40. -/
def rHP_STAT : Nat := 0x1090 * 1024 + 0x40 / 4
def fHP_STAT_FSLEEP : Fld := ⟨rHP_STAT, 4, 1⟩
def fHP_STAT_BELOW : Fld := ⟨rHP_STAT, 3, 1⟩
/-- HP_CTRL (R524), page 0x90, offset 0x44. -/
def rHP_CTRL : Nat := 0x1090 * 1024 + 0x44 / 4
def fHP_CTRL_WAKEF : Fld := ⟨rHP_CTRL, 8, 1⟩
def fHP_CTRL_WARM : Fld := ⟨rHP_CTRL, 0, 1⟩
/-- HP_DIPMIN (R524), page 0x90, offset 0x48. -/
def rHP_DIPMIN : Nat := 0x1090 * 1024 + 0x48 / 4
def fHP_DIPMIN : Fld := ⟨rHP_DIPMIN, 0, 12⟩
/-- HP_DIPDUR (R524), page 0x90, offset 0x4C. -/
def rHP_DIPDUR : Nat := 0x1090 * 1024 + 0x4C / 4
def fHP_DIPDUR : Fld := ⟨rHP_DIPDUR, 0, 32⟩
/-- HP_CAUSE (R524), page 0x90, offset 0x50. -/
def rHP_CAUSE : Nat := 0x1090 * 1024 + 0x50 / 4
def fHP_CAUSE : Fld := ⟨rHP_CAUSE, 0, 5⟩
/-- HP_TEMP (R524), page 0x90, offset 0x54. -/
def rHP_TEMP : Nat := 0x1090 * 1024 + 0x54 / 4
def fHP_TEMP : Fld := ⟨rHP_TEMP, 0, 16⟩
/-- SEC_CTRL (R542), page 0x170, offset 0x40. -/
def rSEC_CTRL : Nat := 0x170 * 1024 + 0x40 / 4
def fSEC_CTRL_ARG : Fld := ⟨rSEC_CTRL, 24, 8⟩
def fSEC_CTRL_RNGRST : Fld := ⟨rSEC_CTRL, 5, 1⟩
def fSEC_CTRL_REIMAGE : Fld := ⟨rSEC_CTRL, 4, 1⟩
def fSEC_CTRL_LCADV : Fld := ⟨rSEC_CTRL, 3, 1⟩
def fSEC_CTRL_SVNBUMP : Fld := ⟨rSEC_CTRL, 2, 1⟩
def fSEC_CTRL_DREVOKE : Fld := ⟨rSEC_CTRL, 1, 1⟩
def fSEC_CTRL_REVOKE : Fld := ⟨rSEC_CTRL, 0, 1⟩
/-- SEC_STAT (R542), page 0x170, offset 0x44. -/
def rSEC_STAT : Nat := 0x170 * 1024 + 0x44 / 4
def fSEC_STAT_RNGFAIL : Fld := ⟨rSEC_STAT, 9, 1⟩
def fSEC_STAT_UNDERRUN : Fld := ⟨rSEC_STAT, 8, 1⟩
def fSEC_STAT_CFGREFUSED : Fld := ⟨rSEC_STAT, 7, 1⟩
def fSEC_STAT_OTPBUSY : Fld := ⟨rSEC_STAT, 6, 1⟩
def fSEC_STAT_ABUSY : Fld := ⟨rSEC_STAT, 5, 1⟩
def fSEC_STAT_DBGUNLOCKED : Fld := ⟨rSEC_STAT, 4, 1⟩
def fSEC_STAT_LC : Fld := ⟨rSEC_STAT, 2, 2⟩
def fSEC_STAT_RECOVERY : Fld := ⟨rSEC_STAT, 0, 1⟩
/-- SEC_BOOT (R542), page 0x170, offset 0x48. -/
def rSEC_BOOT : Nat := 0x170 * 1024 + 0x48 / 4
def fSEC_BOOT_SLOT : Fld := ⟨rSEC_BOOT, 1, 1⟩
def fSEC_BOOT_VALID : Fld := ⟨rSEC_BOOT, 0, 1⟩
/-- SEC_BSEQ (R542), page 0x170, offset 0x4C. -/
def rSEC_BSEQ : Nat := 0x170 * 1024 + 0x4C / 4
def fSEC_BSEQ : Fld := ⟨rSEC_BSEQ, 0, 32⟩
/-- SEC_BFAIL (R542), page 0x170, offset 0x50. -/
def rSEC_BFAIL : Nat := 0x170 * 1024 + 0x50 / 4
def fSEC_BFAIL_CAUSEB : Fld := ⟨rSEC_BFAIL, 8, 8⟩
def fSEC_BFAIL_CAUSEA : Fld := ⟨rSEC_BFAIL, 0, 8⟩
/-- SEC_OTPSTAT (R542), page 0x170, offset 0x54. -/
def rSEC_OTPSTAT : Nat := 0x170 * 1024 + 0x54 / 4
def fSEC_OTPSTAT_KEYREV : Fld := ⟨rSEC_OTPSTAT, 16, 4⟩
def fSEC_OTPSTAT_DBGREV : Fld := ⟨rSEC_OTPSTAT, 12, 2⟩
def fSEC_OTPSTAT_SVNMIN : Fld := ⟨rSEC_OTPSTAT, 0, 7⟩
/-- SEC_DEVID (R542), page 0x170, offset 0x58. -/
def rSEC_DEVID : Nat := 0x170 * 1024 + 0x58 / 4
/-- SEC_RNG (R542), page 0x170, offset 0x60. -/
def rSEC_RNG : Nat := 0x170 * 1024 + 0x60 / 4
def fSEC_RNG : Fld := ⟨rSEC_RNG, 0, 32⟩
/-- SEC_RNGAVAIL (R542), page 0x170, offset 0x64. -/
def rSEC_RNGAVAIL : Nat := 0x170 * 1024 + 0x64 / 4
def fSEC_RNGAVAIL : Fld := ⟨rSEC_RNGAVAIL, 0, 5⟩
/-- SEC_ATTCNT (R542), page 0x170, offset 0x68. -/
def rSEC_ATTCNT : Nat := 0x170 * 1024 + 0x68 / 4
def fSEC_ATTCNT : Fld := ⟨rSEC_ATTCNT, 0, 32⟩
/-- SEC_MEASi (R542), page 0x170, offset 0x80. -/
def rSEC_MEASi (i : Nat) : Nat := 0x170 * 1024 + (0x80 + 0x4 * i) / 4
def fSEC_MEASi (i : Nat) : Fld := ⟨(rSEC_MEASi i), 0, 32⟩
/-- PN_CTRL (R551), page 0x80, offset 0x40. -/
def rPN_CTRL : Nat := 0x1080 * 1024 + 0x40 / 4
def fPN_CTRL_LAMPTEST : Fld := ⟨rPN_CTRL, 1, 1⟩
def fPN_CTRL_TOUCHLOC : Fld := ⟨rPN_CTRL, 0, 1⟩
/-- PN_STAT (R551), page 0x80, offset 0x44. -/
def rPN_STAT : Nat := 0x1080 * 1024 + 0x44 / 4
def fPN_STAT_LT : Fld := ⟨rPN_STAT, 8, 1⟩
def fPN_STAT_VBUS : Fld := ⟨rPN_STAT, 7, 1⟩
def fPN_STAT_TOUCH : Fld := ⟨rPN_STAT, 5, 2⟩
def fPN_STAT_LATCH : Fld := ⟨rPN_STAT, 1, 4⟩
def fPN_STAT_BTN : Fld := ⟨rPN_STAT, 0, 1⟩
/-- PN_DEBOUNCE (R551), page 0x80, offset 0x48. -/
def rPN_DEBOUNCE : Nat := 0x1080 * 1024 + 0x48 / 4
def fPN_DEBOUNCE : Fld := ⟨rPN_DEBOUNCE, 0, 8⟩
/-- PN_HOLD (R551), page 0x80, offset 0x4C. -/
def rPN_HOLD : Nat := 0x1080 * 1024 + 0x4C / 4
def fPN_HOLD : Fld := ⟨rPN_HOLD, 0, 16⟩
/-- PN_TTHR (R551), page 0x80, offset 0x50. -/
def rPN_TTHR : Nat := 0x1080 * 1024 + 0x50 / 4
def fPN_TTHR : Fld := ⟨rPN_TTHR, 0, 16⟩
/-- PN_TCOUNTe (R551), page 0x80, offset 0x54. -/
def rPN_TCOUNTe (i : Nat) : Nat := 0x1080 * 1024 + (0x54 + 0x4 * i) / 4
def fPN_TCOUNTe_BASE (i : Nat) : Fld := ⟨(rPN_TCOUNTe i), 16, 16⟩
def fPN_TCOUNTe_COUNT (i : Nat) : Fld := ⟨(rPN_TCOUNTe i), 0, 16⟩
/-- PN_LEDn (R551), page 0x80, offset 0x60. -/
def rPN_LEDn (i : Nat) : Nat := 0x1080 * 1024 + (0x60 + 0x4 * i) / 4
def fPN_LEDn_PAT (i : Nat) : Fld := ⟨(rPN_LEDn i), 16, 16⟩
def fPN_LEDn_CUR (i : Nat) : Fld := ⟨(rPN_LEDn i), 8, 4⟩
def fPN_LEDn_MODE (i : Nat) : Fld := ⟨(rPN_LEDn i), 0, 3⟩

/-- Part 0 of the register tables. -/
def regTable0 : List RegD := [
  ⟨"SYS_ID", 0x0, 1, 1, 0x40, 1, 0x0, false, [⟨16, 16, .ro, 0x5120, false⟩, ⟨8, 8, .ro, 0x0, false⟩, ⟨4, 4, .ro, 0x0, false⟩, ⟨0, 1, .ro, 0x0, false⟩]⟩,
  ⟨"SYS_ID", 0x1000, 1, 1, 0x40, 1, 0x0, false, [⟨16, 16, .ro, 0x5120, false⟩, ⟨8, 8, .ro, 0x0, false⟩, ⟨4, 4, .ro, 0x0, false⟩, ⟨0, 1, .ro, 0x0, false⟩]⟩,
  ⟨"SYS_ROMID", 0x0, 1, 1, 0x44, 1, 0x0, false, [⟨0, 16, .ro, 0xB0, false⟩]⟩,
  ⟨"SYS_ROMID", 0x1000, 1, 1, 0x44, 1, 0x0, false, [⟨0, 16, .ro, 0xB0, false⟩]⟩,
  ⟨"SYS_LOT", 0x0, 1, 1, 0x48, 1, 0x0, true, [⟨0, 64, .ro, 0x0, false⟩]⟩,
  ⟨"SYS_LOT", 0x1000, 1, 1, 0x48, 1, 0x0, true, [⟨0, 64, .ro, 0x0, false⟩]⟩,
  ⟨"TB_CTRL", 0x10, 1, 1, 0x40, 1, 0x0, false, [⟨8, 1, .w1s, 0x0, false⟩, ⟨5, 1, .rw, 0x1, false⟩, ⟨4, 1, .rwl, 0x1, false⟩, ⟨0, 2, .rw, 0x2, false⟩]⟩,
  ⟨"TB_STAT", 0x10, 1, 1, 0x44, 1, 0x0, false, [⟨7, 1, .ro, 0x0, false⟩, ⟨6, 1, .w1c, 0x0, false⟩, ⟨5, 1, .w1c, 0x0, false⟩, ⟨4, 1, .ro, 0x0, false⟩, ⟨3, 1, .ro, 0x0, false⟩, ⟨0, 2, .ro, 0x2, false⟩]⟩,
  ⟨"TB_N", 0x10, 1, 1, 0x48, 1, 0x0, false, [⟨0, 21, .rwl, 0x4E20, false⟩]⟩,
  ⟨"TB_TICK_MIN", 0x10, 1, 1, 0x4C, 1, 0x0, false, [⟨0, 16, .rwl, 0x3E8, false⟩]⟩,
  ⟨"ANGLE", 0x10, 1, 1, 0x50, 1, 0x0, true, [⟨0, 64, .ro, 0x0, false⟩]⟩,
  ⟨"TICKNO", 0x10, 1, 1, 0x58, 1, 0x0, true, [⟨0, 64, .ro, 0x0, false⟩]⟩,
  ⟨"TICK_K", 0x10, 1, 1, 0x60, 1, 0x0, false, [⟨0, 21, .ro, 0x0, false⟩]⟩,
  ⟨"TB_LMIN", 0x10, 1, 1, 0x64, 1, 0x0, false, [⟨0, 24, .ro, 0x346, false⟩]⟩,
  ⟨"RATE", 0x10, 1, 1, 0x68, 1, 0x0, true, [⟨0, 48, .ro, 0x0, false⟩]⟩,
  ⟨"RATE_LIMIT", 0x10, 1, 1, 0x70, 1, 0x0, true, [⟨0, 48, .ro, 0x0, false⟩]⟩,
  ⟨"RATE_HOLD", 0x10, 1, 1, 0x78, 1, 0x0, true, [⟨0, 48, .rw, 0x0, false⟩]⟩,
  ⟨"TB_SLEW", 0x10, 1, 1, 0x80, 1, 0x0, false, [⟨0, 32, .rwl, 0x1000, false⟩]⟩,
  ⟨"TB_LOOP", 0x10, 1, 1, 0x84, 1, 0x0, false, [⟨8, 5, .rwl, 0x8, false⟩, ⟨0, 5, .rwl, 0x10, false⟩]⟩,
  ⟨"TB_LOCK", 0x10, 1, 1, 0x88, 1, 0x0, false, [⟨16, 16, .rwl, 0x8, false⟩, ⟨0, 16, .rwl, 0x100, false⟩]⟩,
  ⟨"TB_PHERR", 0x10, 1, 1, 0x8C, 1, 0x0, false, [⟨0, 32, .ro, 0x0, false⟩]⟩,
  ⟨"TB_GRID_SRC", 0x10, 1, 1, 0x90, 1, 0x0, false, [⟨31, 1, .rwl, 0x0, false⟩, ⟨16, 6, .rwl, 0x0, false⟩, ⟨8, 3, .rwl, 0x0, false⟩, ⟨0, 4, .rwl, 0x0, false⟩]⟩,
  ⟨"TB_GRID_OFFSET", 0x10, 1, 1, 0x94, 1, 0x0, false, [⟨0, 24, .rwl, 0x0, false⟩]⟩,
  ⟨"TB_GRID_WIN", 0x10, 1, 1, 0x98, 1, 0x0, false, [⟨16, 16, .rwl, 0x1B58, false⟩, ⟨0, 16, .rwl, 0xFA0, false⟩]⟩,
  ⟨"TB_LOAD", 0x10, 1, 1, 0xA0, 1, 0x0, true, [⟨0, 64, .rw, 0x0, false⟩]⟩,
  ⟨"ACn_CTRL", 0x11, 2, 1, 0x40, 16, 0x20, false, [⟨31, 1, .rw, 0x0, false⟩, ⟨16, 8, .rw, 0x0, false⟩, ⟨3, 1, .rw, 0x0, false⟩, ⟨2, 1, .rw, 0x0, false⟩, ⟨1, 1, .rw, 0x0, false⟩, ⟨0, 1, .rw, 0x0, false⟩]⟩,
  ⟨"ACn_STAT", 0x11, 2, 1, 0x44, 16, 0x20, false, [⟨3, 1, .w1c, 0x0, false⟩, ⟨2, 1, .w1c, 0x0, false⟩, ⟨1, 1, .w1c, 0x0, false⟩, ⟨0, 1, .w1c, 0x0, false⟩]⟩,
  ⟨"ACn_RELOAD", 0x11, 2, 1, 0x48, 16, 0x20, true, [⟨0, 64, .rw, 0xFFFFFF, false⟩]⟩,
  ⟨"ACn_CMP", 0x11, 2, 1, 0x50, 16, 0x20, true, [⟨0, 64, .rw, 0x0, false⟩]⟩,
  ⟨"ACn_LAST", 0x11, 2, 1, 0x58, 16, 0x20, true, [⟨0, 64, .ro, 0x0, false⟩]⟩]

/-- Part 1 of the register tables. -/
def regTable1 : List RegD := [
  ⟨"CRY_STAT", 0x110, 1, 1, 0x44, 1, 0x0, false, [⟨16, 14, .ro, 0x0, true⟩, ⟨3, 1, .w1c, 0x0, false⟩, ⟨2, 1, .ro, 0x0, true⟩, ⟨0, 1, .ro, 0x0, false⟩]⟩,
  ⟨"CRY_OP", 0x110, 1, 1, 0x48, 1, 0x0, false, [⟨28, 4, .wo, 0x0, false⟩, ⟨0, 14, .wo, 0x0, false⟩]⟩,
  ⟨"CRY_RESULT", 0x110, 1, 1, 0x4C, 1, 0x0, false, [⟨24, 8, .ro, 0x0, false⟩, ⟨20, 4, .ro, 0xF, false⟩, ⟨8, 12, .ro, 0x0, false⟩]⟩,
  ⟨"CRY_RESULT2", 0x110, 1, 1, 0x50, 1, 0x0, false, [⟨0, 32, .ro, 0x0, false⟩]⟩,
  ⟨"CRY_EFFECT", 0x110, 1, 1, 0x58, 1, 0x0, true, [⟨0, 64, .ro, 0x0, false⟩]⟩,
  ⟨"CRY_ACAP", 0x110, 1, 1, 0x60, 1, 0x0, false, [⟨0, 32, .ro, 0x0, false⟩]⟩,
  ⟨"CRY_SCAP", 0x110, 1, 1, 0x64, 1, 0x0, false, [⟨0, 32, .ro, 0x0, false⟩]⟩,
  ⟨"CRY_PANPRE", 0x110, 1, 1, 0x68, 1, 0x0, false, [⟨0, 16, .ro, 0x0, true⟩]⟩,
  ⟨"CRY_GRACE", 0x110, 1, 1, 0x6C, 1, 0x0, false, [⟨0, 8, .ro, 0x0, false⟩]⟩,
  ⟨"CRY_MISSED", 0x110, 1, 1, 0x70, 1, 0x0, false, [⟨0, 32, .ro, 0x0, false⟩]⟩,
  ⟨"CRY_NILIM01", 0x110, 1, 1, 0x74, 1, 0x0, false, [⟨16, 10, .ro, 0x200, true⟩, ⟨0, 10, .ro, 0x200, true⟩]⟩,
  ⟨"CRY_NILIM23", 0x110, 1, 1, 0x78, 1, 0x0, false, [⟨16, 10, .ro, 0x200, true⟩, ⟨0, 10, .ro, 0x200, true⟩]⟩,
  ⟨"CRY_STAGEi", 0x110, 1, 1, 0x80, 16, 0x4, false, [⟨0, 32, .rw, 0x0, false⟩]⟩,
  ⟨"CRY_LSEL", 0x111, 1, 1, 0x40, 1, 0x0, false, [⟨0, 12, .rw, 0x0, false⟩]⟩,
  ⟨"CRY_LPANp", 0x111, 1, 1, 0x44, 4, 0x4, false, [⟨0, 32, .ro, 0x0, false⟩]⟩,
  ⟨"CRY_LCOREc", 0x111, 1, 1, 0x54, 4, 0x4, false, [⟨0, 32, .ro, 0x0, false⟩]⟩,
  ⟨"CRY_LSALT", 0x111, 1, 1, 0x64, 1, 0x0, false, [⟨0, 32, .ro, 0x0, false⟩]⟩,
  ⟨"CRY_LCHAIN", 0x111, 1, 1, 0x68, 1, 0x0, false, [⟨0, 32, .ro, 0x0, false⟩]⟩,
  ⟨"CRY_TTIDX", 0x112, 1, 1, 0x40, 1, 0x0, false, [⟨0, 8, .rw, 0x0, false⟩]⟩,
  ⟨"CRY_TTCTRL", 0x112, 1, 1, 0x44, 1, 0x0, false, [⟨0, 1, .w1s, 0x0, false⟩]⟩,
  ⟨"CRY_TTDATAi", 0x112, 1, 1, 0x50, 4, 0x4, false, [⟨0, 32, .rw, 0x0, false⟩]⟩,
  ⟨"SAL_STAT", 0x130, 1, 1, 0x40, 1, 0x0, false, [⟨8, 5, .ro, 0x0, true⟩, ⟨5, 1, .w1c, 0x0, false⟩, ⟨4, 1, .ro, 0x0, false⟩, ⟨3, 1, .ro, 0x0, false⟩, ⟨2, 1, .w1c, 0x0, false⟩, ⟨1, 1, .w1c, 0x0, false⟩, ⟨0, 1, .w1c, 0x0, false⟩]⟩,
  ⟨"SAL_CTRL", 0x130, 1, 1, 0x44, 1, 0x0, false, [⟨1, 1, .w1s, 0x0, false⟩, ⟨0, 1, .w1s, 0x0, false⟩]⟩,
  ⟨"SAL_CETHR", 0x130, 1, 1, 0x48, 1, 0x0, false, [⟨0, 16, .rwl, 0x10, false⟩]⟩,
  ⟨"SAL_FILL_BASE", 0x130, 1, 1, 0x50, 1, 0x0, false, [⟨6, 19, .rw, 0x0, false⟩]⟩,
  ⟨"SAL_FILL_LEN", 0x130, 1, 1, 0x58, 1, 0x0, false, [⟨0, 20, .rw, 0x0, false⟩]⟩,
  ⟨"SAL_CESEL", 0x130, 1, 1, 0x60, 1, 0x0, false, [⟨0, 9, .rw, 0x0, false⟩]⟩,
  ⟨"SAL_CECNT", 0x130, 1, 1, 0x64, 1, 0x0, false, [⟨0, 16, .ro, 0x0, false⟩]⟩,
  ⟨"SAL_CELOG", 0x130, 1, 1, 0x68, 1, 0x0, true, [⟨56, 8, .ro, 0x0, false⟩, ⟨0, 22, .ro, 0x0, false⟩]⟩,
  ⟨"SAL_UELOG", 0x130, 1, 1, 0x70, 1, 0x0, true, [⟨56, 8, .ro, 0x0, false⟩, ⟨48, 4, .ro, 0x0, false⟩, ⟨40, 7, .ro, 0x0, false⟩, ⟨0, 22, .ro, 0x0, false⟩]⟩]

/-- Part 2 of the register tables. -/
def regTable2 : List RegD := [
  ⟨"SAL_RMAPi", 0x130, 1, 1, 0x80, 16, 0x4, false, [⟨31, 1, .rwl, 0x0, true⟩, ⟨30, 1, .ro, 0x0, true⟩, ⟨0, 22, .rwl, 0x0, true⟩]⟩,
  ⟨"SAL_COLFUSE", 0x130, 1, 1, 0xC0, 1, 0x0, false, [⟨16, 10, .ro, 0x0, false⟩, ⟨0, 10, .ro, 0x0, false⟩]⟩,
  ⟨"MX_CTRL", 0x131, 1, 1, 0x40, 1, 0x0, false, [⟨0, 1, .rwl, 0x1, false⟩]⟩,
  ⟨"MX_DEC_ADDR", 0x131, 1, 1, 0x48, 1, 0x0, true, [⟨0, 40, .ro, 0x0, false⟩]⟩,
  ⟨"MX_DEC_INFO", 0x131, 1, 1, 0x50, 1, 0x0, false, [⟨16, 1, .ro, 0x0, false⟩, ⟨8, 4, .ro, 0x0, false⟩, ⟨0, 7, .ro, 0x0, false⟩]⟩,
  ⟨"MX_DEC_CNT", 0x131, 1, 1, 0x54, 1, 0x0, false, [⟨0, 32, .ro, 0x0, false⟩]⟩,
  ⟨"MX_OSEL", 0x131, 1, 1, 0x58, 1, 0x0, false, [⟨0, 7, .rw, 0x0, false⟩]⟩,
  ⟨"MX_OCNT", 0x131, 1, 1, 0x5C, 1, 0x0, false, [⟨16, 8, .ro, 0x0, false⟩, ⟨0, 8, .ro, 0x0, false⟩]⟩,
  ⟨"PAN_STAT", 0x120, 1, 1, 0x40, 1, 0x0, false, [⟨4, 4, .ro, 0x0, false⟩, ⟨0, 4, .ro, 0x0, false⟩]⟩,
  ⟨"PAN_QSTAT", 0x120, 1, 1, 0x44, 1, 0x0, false, [⟨16, 7, .ro, 0x0, false⟩, ⟨0, 9, .ro, 0x0, false⟩]⟩,
  ⟨"PANp_CTRL", 0x121, 4, 1, 0x40, 1, 0x0, false, [⟨0, 1, .rw, 0x1, false⟩]⟩,
  ⟨"PANp_BGSTAT", 0x121, 4, 1, 0x44, 1, 0x0, false, [⟨16, 2, .ro, 0x0, true⟩, ⟨8, 6, .ro, 0x0, false⟩, ⟨4, 4, .ro, 0x0, true⟩, ⟨3, 1, .ro, 0x0, true⟩, ⟨2, 1, .ro, 0x0, true⟩, ⟨0, 1, .ro, 0x0, true⟩]⟩,
  ⟨"PANp_BGCMD", 0x121, 4, 1, 0x48, 1, 0x0, false, [⟨0, 2, .wo, 0x0, false⟩]⟩,
  ⟨"PANp_RSM_DONE", 0x121, 4, 1, 0x50, 1, 0x0, false, [⟨0, 17, .ro, 0x0, true⟩]⟩,
  ⟨"PANp_RSM_TICKET", 0x121, 4, 1, 0x54, 1, 0x0, false, [⟨0, 16, .ro, 0x0, true⟩]⟩,
  ⟨"PANp_RSM_FLAGS", 0x121, 4, 1, 0x58, 1, 0x0, false, [⟨0, 6, .ro, 0x0, true⟩]⟩,
  ⟨"PANp_RSM_DESCi", 0x121, 4, 1, 0x60, 8, 0x4, false, [⟨0, 32, .ro, 0x0, true⟩]⟩,
  ⟨"PANp_LFAULT", 0x121, 4, 1, 0x80, 1, 0x0, false, [⟨28, 4, .ro, 0x0, false⟩, ⟨10, 14, .ro, 0x0, false⟩, ⟨0, 10, .ro, 0x0, false⟩]⟩,
  ⟨"PANp_LFDONE", 0x121, 4, 1, 0x84, 1, 0x0, false, [⟨0, 17, .ro, 0x0, false⟩]⟩,
  ⟨"PANp_LFADDR", 0x121, 4, 1, 0x88, 1, 0x0, false, [⟨0, 25, .ro, 0x0, false⟩]⟩,
  ⟨"PANp_LFLAGS", 0x121, 4, 1, 0x8C, 1, 0x0, false, [⟨0, 6, .w1c, 0x0, false⟩]⟩,
  ⟨"PAN_CRBASEc", 0x125, 1, 1, 0x40, 4, 0x10, false, [⟨4, 21, .rw, 0x0, false⟩]⟩,
  ⟨"PAN_CRCFGc", 0x125, 1, 1, 0x44, 4, 0x10, false, [⟨16, 1, .rw, 0x0, false⟩, ⟨8, 8, .rw, 0x0, false⟩, ⟨0, 4, .rw, 0x0, false⟩]⟩,
  ⟨"PAN_CRHEADc", 0x125, 1, 1, 0x48, 4, 0x10, false, [⟨0, 12, .ro, 0x0, false⟩]⟩,
  ⟨"PAN_CRTAILc", 0x125, 1, 1, 0x4C, 4, 0x10, false, [⟨0, 12, .rw, 0x0, false⟩]⟩,
  ⟨"PAN_CRSTATc", 0x125, 1, 1, 0x80, 4, 0x4, false, [⟨16, 3, .ro, 0x0, false⟩, ⟨0, 13, .ro, 0x0, false⟩]⟩,
  ⟨"PCS_STAT", 0x128, 1, 1, 0x40, 1, 0x0, false, [⟨8, 4, .w1c, 0x0, false⟩, ⟨4, 4, .w1c, 0x0, false⟩, ⟨3, 1, .ro, 0x0, false⟩, ⟨2, 1, .ro, 0x0, false⟩, ⟨0, 1, .ro, 0x0, true⟩]⟩,
  ⟨"PCS_ID", 0x128, 1, 1, 0x44, 1, 0x0, false, [⟨16, 16, .ro, 0xB0, false⟩, ⟨0, 16, .ro, 0x0, true⟩]⟩,
  ⟨"PCS_CECNTp", 0x128, 1, 1, 0x48, 4, 0x4, false, [⟨0, 16, .ro, 0x0, false⟩]⟩,
  ⟨"PCS_ELOG", 0x128, 1, 1, 0x58, 1, 0x0, true, [⟨63, 1, .ro, 0x0, false⟩, ⟨56, 2, .ro, 0x0, false⟩, ⟨40, 9, .ro, 0x0, false⟩, ⟨0, 14, .ro, 0x0, false⟩]⟩]

/-- Part 3 of the register tables. -/
def regTable3 : List RegD := [
  ⟨"PCS_CTRL", 0x129, 1, 1, 0x40, 1, 0x0, false, [⟨1, 1, .w1s, 0x0, false⟩, ⟨0, 1, .rw, 0x0, false⟩]⟩,
  ⟨"PCS_PADDR", 0x129, 1, 1, 0x44, 1, 0x0, false, [⟨0, 10, .rw, 0x0, false⟩]⟩,
  ⟨"PCS_PDATAi", 0x129, 1, 1, 0x50, 4, 0x4, false, [⟨0, 32, .rw, 0x0, false⟩]⟩,
  ⟨"PCS_DIDX", 0x129, 1, 1, 0x60, 1, 0x0, false, [⟨0, 8, .rw, 0x0, false⟩]⟩,
  ⟨"PCS_DDATA0", 0x129, 1, 1, 0x64, 1, 0x0, false, [⟨0, 32, .rw, 0x0, false⟩]⟩,
  ⟨"PCS_DDATA1", 0x129, 1, 1, 0x68, 1, 0x0, false, [⟨0, 32, .rw, 0x0, false⟩]⟩,
  ⟨"PCS_PATCHID", 0x129, 1, 1, 0x6C, 1, 0x0, false, [⟨0, 16, .rw, 0x0, false⟩]⟩,
  ⟨"BLn_CTRL", 0x80, 64, 2, 0x40, 1, 0x0, false, [⟨8, 1, .w1s, 0x0, false⟩, ⟨7, 1, .w1s, 0x0, false⟩, ⟨6, 1, .w1s, 0x0, false⟩, ⟨4, 2, .rwl, 0x0, false⟩, ⟨2, 1, .rw, 0x1, false⟩]⟩,
  ⟨"BLn_LSTAT", 0x80, 64, 2, 0x44, 1, 0x0, false, [⟨24, 1, .ro, 0x0, false⟩, ⟨20, 4, .ro, 0x0, false⟩, ⟨16, 4, .ro, 0x0, false⟩, ⟨4, 4, .ro, 0x0, false⟩, ⟨0, 4, .ro, 0x0, false⟩]⟩,
  ⟨"BLn_RTD", 0x80, 64, 2, 0x48, 1, 0x0, false, [⟨16, 8, .ro, 0x0, false⟩, ⟨0, 8, .ro, 0x0, false⟩]⟩,
  ⟨"BLn_ERRA", 0x80, 64, 2, 0x4C, 1, 0x0, false, [⟨16, 16, .rwz, 0x0, false⟩, ⟨0, 16, .rwz, 0x0, false⟩]⟩,
  ⟨"BLn_ERRB", 0x80, 64, 2, 0x50, 1, 0x0, false, [⟨16, 16, .rwz, 0x0, false⟩, ⟨0, 16, .rwz, 0x0, false⟩]⟩,
  ⟨"BLn_RETRAIN", 0x80, 64, 2, 0x54, 1, 0x0, false, [⟨8, 8, .rwz, 0x0, false⟩, ⟨0, 8, .rwz, 0x0, false⟩]⟩,
  ⟨"BLn_IDi", 0x80, 64, 2, 0x80, 16, 0x4, false, [⟨0, 32, .ro, 0x0, false⟩]⟩,
  ⟨"BLn_LEASE", 0x81, 64, 2, 0x44, 1, 0x0, false, [⟨31, 1, .ro, 0x0, false⟩, ⟨30, 1, .ro, 0x0, false⟩, ⟨29, 1, .rw, 0x0, false⟩, ⟨28, 1, .ro, 0x0, false⟩, ⟨24, 2, .wo, 0x0, false⟩, ⟨0, 16, .rw, 0x0, false⟩]⟩,
  ⟨"BLn_SBASE", 0x81, 64, 2, 0x40, 1, 0x0, false, [⟨9, 16, .rwl, 0x0, false⟩]⟩,
  ⟨"BLn_TSTAT", 0x81, 64, 2, 0x48, 1, 0x0, false, [⟨24, 8, .ro, 0x0, false⟩, ⟨16, 8, .ro, 0x0, false⟩, ⟨8, 8, .ro, 0x0, false⟩, ⟨0, 8, .ro, 0x0, false⟩]⟩,
  ⟨"BLn_SMISS", 0x81, 64, 2, 0x4C, 1, 0x0, false, [⟨0, 16, .ro, 0x0, false⟩]⟩,
  ⟨"BLn_SMISSTOT", 0x81, 64, 2, 0x50, 1, 0x0, false, [⟨0, 32, .rwz, 0x0, false⟩]⟩,
  ⟨"BLn_LASTOK", 0x81, 64, 2, 0x58, 1, 0x0, true, [⟨0, 64, .ro, 0x0, false⟩]⟩,
  ⟨"BLn_ARRIVE", 0x81, 64, 2, 0x60, 1, 0x0, false, [⟨16, 9, .ro, 0x0, false⟩, ⟨0, 8, .ro, 0x0, false⟩]⟩,
  ⟨"RK_CTRL", 0x100, 1, 1, 0x40, 1, 0x0, false, [⟨4, 1, .w1s, 0x0, false⟩, ⟨3, 1, .w1s, 0x0, false⟩, ⟨2, 1, .w1s, 0x0, false⟩, ⟨1, 1, .w1s, 0x0, false⟩, ⟨0, 1, .w1s, 0x0, false⟩]⟩,
  ⟨"RK_STAT", 0x100, 1, 1, 0x44, 1, 0x0, false, [⟨8, 1, .ro, 0x0, false⟩, ⟨7, 1, .w1c, 0x0, false⟩, ⟨6, 1, .w1c, 0x0, false⟩, ⟨5, 1, .w1c, 0x0, false⟩, ⟨4, 1, .w1c, 0x0, false⟩, ⟨3, 1, .ro, 0x0, false⟩, ⟨2, 1, .ro, 0x0, true⟩, ⟨1, 1, .ro, 0x0, false⟩, ⟨0, 1, .ro, 0x0, true⟩]⟩,
  ⟨"RK_DBASE", 0x100, 1, 1, 0x48, 1, 0x0, false, [⟨13, 12, .rwl, 0x0, false⟩]⟩,
  ⟨"RK_WSEL", 0x100, 1, 1, 0x4C, 1, 0x0, false, [⟨16, 1, .rw, 0x0, false⟩, ⟨15, 1, .rw, 0x0, false⟩, ⟨0, 12, .rw, 0x0, false⟩]⟩,
  ⟨"RK_WDATAi", 0x100, 1, 1, 0x50, 4, 0x4, false, [⟨0, 32, .rw, 0x0, false⟩]⟩,
  ⟨"RK_PSEL", 0x100, 1, 1, 0x60, 1, 0x0, false, [⟨0, 9, .rw, 0x0, false⟩]⟩,
  ⟨"RK_POVR", 0x100, 1, 1, 0x64, 1, 0x0, false, [⟨16, 3, .ro, 0x0, false⟩, ⟨0, 16, .ro, 0x0, false⟩]⟩,
  ⟨"RK_PLATCH", 0x100, 1, 1, 0x68, 1, 0x0, false, [⟨16, 16, .ro, 0x0, true⟩, ⟨0, 16, .ro, 0x0, true⟩]⟩,
  ⟨"RK_PLATCHM", 0x100, 1, 1, 0x6C, 1, 0x0, false, [⟨0, 16, .ro, 0x0, true⟩]⟩]

/-- Part 4 of the register tables. -/
def regTable4 : List RegD := [
  ⟨"RK_TRIPS", 0x100, 1, 1, 0x70, 1, 0x0, false, [⟨0, 32, .rwz, 0x0, false⟩]⟩,
  ⟨"RK_MAXLAT", 0x100, 1, 1, 0x74, 1, 0x0, false, [⟨0, 8, .ro, 0x0, false⟩]⟩,
  ⟨"RK_EVDROP", 0x100, 1, 1, 0x78, 1, 0x0, false, [⟨0, 32, .rwz, 0x0, false⟩]⟩,
  ⟨"RK_LASTTRIP", 0x100, 1, 1, 0x80, 1, 0x0, false, [⟨16, 9, .ro, 0x0, false⟩, ⟨0, 12, .ro, 0x0, false⟩]⟩,
  ⟨"RK_LASTVAL", 0x100, 1, 1, 0x84, 1, 0x0, false, [⟨16, 16, .ro, 0x0, false⟩, ⟨0, 16, .ro, 0x0, false⟩]⟩,
  ⟨"RK_TCTRL", 0x101, 1, 1, 0x40, 1, 0x0, false, [⟨16, 1, .rw, 0x0, false⟩, ⟨8, 6, .rw, 0x0, false⟩, ⟨1, 1, .rw, 0x0, false⟩, ⟨0, 1, .w1s, 0x0, false⟩]⟩,
  ⟨"RK_TOVRl", 0x101, 1, 1, 0x60, 8, 0x4, false, [⟨16, 3, .ro, 0x0, false⟩, ⟨0, 16, .ro, 0x0, false⟩]⟩,
  ⟨"RK_TFRAMEi", 0x101, 1, 1, 0x80, 20, 0x4, false, [⟨0, 32, .rw, 0x0, false⟩]⟩,
  ⟨"EPn_CTRL", 0x140, 4, 1, 0x40, 1, 0x0, false, [⟨6, 1, .w1s, 0x0, false⟩, ⟨5, 1, .w1s, 0x0, false⟩, ⟨4, 1, .w1s, 0x0, false⟩, ⟨2, 1, .rw, 0x1, false⟩, ⟨1, 1, .rw, 0x1, false⟩, ⟨0, 1, .rw, 0x1, false⟩]⟩,
  ⟨"EPn_STAT", 0x140, 4, 1, 0x44, 1, 0x0, false, [⟨16, 2, .ro, 0x0, false⟩, ⟨8, 6, .ro, 0x0, false⟩, ⟨4, 4, .ro, 0x0, false⟩, ⟨0, 1, .ro, 0x1, false⟩]⟩,
  ⟨"EPn_BUNDLES", 0x140, 4, 1, 0x48, 1, 0x0, false, [⟨0, 32, .rwz, 0x0, false⟩]⟩,
  ⟨"EPn_FSTALL", 0x140, 4, 1, 0x4C, 1, 0x0, false, [⟨0, 32, .rwz, 0x0, false⟩]⟩,
  ⟨"EPn_DSTALL", 0x140, 4, 1, 0x50, 1, 0x0, false, [⟨0, 32, .rwz, 0x0, false⟩]⟩,
  ⟨"EPn_MISPRED", 0x140, 4, 1, 0x54, 1, 0x0, false, [⟨0, 32, .rwz, 0x0, false⟩]⟩,
  ⟨"EPn_BTBHIT", 0x140, 4, 1, 0x58, 1, 0x0, false, [⟨0, 32, .rwz, 0x0, false⟩]⟩,
  ⟨"EPn_DFILLS", 0x140, 4, 1, 0x5C, 1, 0x0, false, [⟨0, 32, .rwz, 0x0, false⟩]⟩,
  ⟨"EPn_PFILLS", 0x140, 4, 1, 0x60, 1, 0x0, false, [⟨0, 32, .rwz, 0x0, false⟩]⟩,
  ⟨"EPn_WPFILLS", 0x140, 4, 1, 0x64, 1, 0x0, false, [⟨0, 32, .rwz, 0x0, false⟩]⟩,
  ⟨"EPn_RASMISS", 0x140, 4, 1, 0x68, 1, 0x0, false, [⟨0, 32, .rwz, 0x0, false⟩]⟩,
  ⟨"EPn_LBSTALL", 0x140, 4, 1, 0x6C, 1, 0x0, false, [⟨0, 32, .rwz, 0x0, false⟩]⟩,
  ⟨"EXn_STAT", 0x140, 4, 1, 0x80, 1, 0x0, false, [⟨8, 1, .ro, 0x0, false⟩, ⟨4, 1, .ro, 0x0, false⟩, ⟨0, 3, .ro, 0x0, false⟩]⟩,
  ⟨"EXn_COUNT", 0x140, 4, 1, 0x84, 1, 0x0, false, [⟨0, 32, .rwz, 0x0, false⟩]⟩,
  ⟨"EXn_MAXSPAN", 0x140, 4, 1, 0x88, 1, 0x0, false, [⟨0, 16, .rwz, 0x0, false⟩]⟩,
  ⟨"EXn_CUTS", 0x140, 4, 1, 0x8C, 1, 0x0, false, [⟨0, 32, .rwz, 0x0, false⟩]⟩,
  ⟨"XVn_SEL", 0x144, 4, 1, 0x40, 1, 0x0, false, [⟨0, 5, .rw, 0x0, false⟩]⟩,
  ⟨"XVn_TAG", 0x144, 4, 1, 0x44, 1, 0x0, false, [⟨0, 1, .ro, 0x0, false⟩]⟩,
  ⟨"XVn_CAPi", 0x144, 4, 1, 0x50, 4, 0x4, false, [⟨0, 32, .ro, 0x0, false⟩]⟩,
  ⟨"XVn_TLBIPEND", 0x144, 4, 1, 0x60, 1, 0x0, false, [⟨0, 3, .ro, 0x0, false⟩]⟩,
  ⟨"XVn_TLBICNT", 0x144, 4, 1, 0x64, 1, 0x0, false, [⟨0, 32, .rwz, 0x0, false⟩]⟩,
  ⟨"GTn_CTRL", 0x20, 32, 1, 0x40, 1, 0x0, false, [⟨1, 1, .w1s, 0x0, false⟩, ⟨0, 1, .rw, 0x0, false⟩]⟩]

/-- Part 5 of the register tables. -/
def regTable5 : List RegD := [
  ⟨"GTn_STAT", 0x20, 32, 1, 0x44, 1, 0x0, false, [⟨3, 1, .w1c, 0x0, false⟩, ⟨2, 1, .w1c, 0x0, false⟩, ⟨1, 1, .w1c, 0x0, false⟩, ⟨0, 1, .w1c, 0x0, false⟩]⟩,
  ⟨"GTn_COUNT", 0x20, 32, 1, 0x48, 1, 0x0, false, [⟨0, 32, .rw, 0x0, false⟩]⟩,
  ⟨"GTn_RELOAD", 0x20, 32, 1, 0x4C, 1, 0x0, false, [⟨0, 32, .rw, 0xFFFFFFFF, false⟩]⟩,
  ⟨"GTn_CAP", 0x20, 32, 1, 0x50, 1, 0x0, false, [⟨0, 32, .ro, 0x0, false⟩]⟩,
  ⟨"GTn_EVIN", 0x20, 32, 1, 0x54, 1, 0x0, false, [⟨31, 1, .rw, 0x0, false⟩, ⟨16, 8, .rw, 0x0, false⟩, ⟨15, 1, .rw, 0x0, false⟩, ⟨0, 8, .rw, 0x0, false⟩]⟩,
  ⟨"GTn_CMPk_CTRL", 0x20, 32, 1, 0x60, 2, 0x10, false, [⟨31, 1, .rw, 0x0, false⟩, ⟨16, 8, .rw, 0x0, false⟩, ⟨3, 1, .rw, 0x0, false⟩, ⟨2, 1, .rw, 0x0, false⟩, ⟨0, 1, .rw, 0x0, false⟩]⟩,
  ⟨"GTn_CMPk_STAT", 0x20, 32, 1, 0x64, 2, 0x10, false, [⟨2, 1, .w1c, 0x0, false⟩, ⟨1, 1, .w1c, 0x0, false⟩, ⟨0, 1, .w1c, 0x0, false⟩]⟩,
  ⟨"GTn_CMPk", 0x20, 32, 1, 0x68, 2, 0x10, false, [⟨0, 32, .rw, 0x0, false⟩]⟩,
  ⟨"EGg_CTRL", 0x40, 16, 1, 0x40, 1, 0x0, false, [⟨0, 1, .rw, 0x1, false⟩]⟩,
  ⟨"EGg_STAT", 0x40, 16, 1, 0x44, 1, 0x0, false, [⟨0, 1, .w1c, 0x0, false⟩]⟩,
  ⟨"EGg_DROP", 0x40, 16, 1, 0x48, 1, 0x0, false, [⟨0, 32, .rwz, 0x0, false⟩]⟩,
  ⟨"EGg_MERGE", 0x40, 16, 1, 0x4C, 1, 0x0, false, [⟨0, 16, .w1c, 0x0, false⟩]⟩,
  ⟨"EGg_SW", 0x40, 16, 1, 0x50, 1, 0x0, false, [⟨0, 16, .w1s, 0x0, false⟩]⟩,
  ⟨"EVc_CFG", 0x40, 16, 1, 0x80, 16, 0x4, false, [⟨31, 1, .rw, 0x0, false⟩, ⟨30, 1, .rw, 0x0, false⟩, ⟨24, 4, .rw, 0x0, false⟩, ⟨23, 1, .rw, 0x0, false⟩, ⟨21, 2, .rw, 0x0, false⟩, ⟨16, 4, .rw, 0x0, false⟩, ⟨15, 1, .rw, 0x0, false⟩, ⟨14, 1, .rw, 0x0, false⟩, ⟨8, 4, .rw, 0x0, false⟩]⟩,
  ⟨"PX_LSTAT", 0x1010, 1, 1, 0x40, 1, 0x0, false, [⟨16, 5, .ro, 0x0, false⟩, ⟨8, 1, .ro, 0x0, false⟩, ⟨0, 4, .ro, 0x0, false⟩]⟩,
  ⟨"PX_CECNT", 0x1010, 1, 1, 0x44, 1, 0x0, false, [⟨0, 32, .rwz, 0x0, false⟩]⟩,
  ⟨"PX_UECNT", 0x1010, 1, 1, 0x48, 1, 0x0, false, [⟨0, 32, .rwz, 0x0, false⟩]⟩,
  ⟨"PX_RETRY", 0x1010, 1, 1, 0x4C, 1, 0x0, false, [⟨0, 32, .rwz, 0x0, false⟩]⟩,
  ⟨"PX_PBAi", 0x1013, 1, 1, 0x40, 8, 0x4, false, [⟨0, 32, .ro, 0x0, false⟩]⟩,
  ⟨"QE_STAT", 0x1020, 1, 1, 0x40, 1, 0x0, false, [⟨4, 1, .w1c, 0x0, false⟩, ⟨2, 1, .ro, 0x0, false⟩, ⟨1, 1, .ro, 0x0, false⟩, ⟨0, 1, .ro, 0x0, false⟩]⟩,
  ⟨"QE_QOP", 0x1020, 1, 1, 0x48, 1, 0x0, false, [⟨0, 4, .wo, 0x0, false⟩]⟩,
  ⟨"QE_QCFG", 0x1020, 1, 1, 0x60, 1, 0x0, false, [⟨24, 8, .rw, 0x0, false⟩, ⟨16, 5, .rw, 0x0, false⟩, ⟨8, 5, .rw, 0x0, false⟩]⟩,
  ⟨"QE_QSEL", 0x1020, 1, 1, 0x44, 1, 0x0, false, [⟨0, 16, .rw, 0x0, false⟩]⟩,
  ⟨"QE_QRES", 0x1020, 1, 1, 0x4C, 1, 0x0, false, [⟨0, 8, .ro, 0x0, false⟩]⟩,
  ⟨"QE_SQBASE", 0x1020, 1, 1, 0x50, 1, 0x0, true, [⟨12, 52, .rw, 0x0, false⟩]⟩,
  ⟨"QE_CQBASE", 0x1020, 1, 1, 0x58, 1, 0x0, true, [⟨12, 52, .rw, 0x0, false⟩]⟩,
  ⟨"QE_LASTSEQ", 0x1020, 1, 1, 0x64, 1, 0x0, false, [⟨0, 32, .rw, 0x0, false⟩]⟩,
  ⟨"QE_QSTATE", 0x1020, 1, 1, 0x68, 1, 0x0, false, [⟨30, 2, .ro, 0x0, false⟩, ⟨28, 2, .ro, 0x0, false⟩, ⟨24, 4, .ro, 0x0, false⟩, ⟨0, 16, .ro, 0x0, false⟩]⟩,
  ⟨"QE_QHSEQ", 0x1020, 1, 1, 0x6C, 1, 0x0, false, [⟨0, 32, .ro, 0x0, false⟩]⟩,
  ⟨"QE_QRESV", 0x1020, 1, 1, 0x70, 1, 0x0, false, [⟨16, 16, .ro, 0x0, false⟩, ⟨0, 16, .ro, 0x0, false⟩]⟩]

/-- Part 6 of the register tables. -/
def regTable6 : List RegD := [
  ⟨"QE_EQDROP", 0x1020, 1, 1, 0x74, 1, 0x0, false, [⟨0, 32, .rwz, 0x0, false⟩]⟩,
  ⟨"QE_DBERR", 0x1020, 1, 1, 0x78, 1, 0x0, false, [⟨0, 32, .rwz, 0x0, false⟩]⟩,
  ⟨"QE_EVNOQ", 0x1020, 1, 1, 0x7C, 1, 0x0, false, [⟨0, 32, .rwz, 0x0, false⟩]⟩,
  ⟨"QE_JFREE", 0x1020, 1, 1, 0x80, 1, 0x0, false, [⟨0, 15, .ro, 0x4000, false⟩]⟩,
  ⟨"QE_ACCCNT", 0x1020, 1, 1, 0x88, 1, 0x0, true, [⟨0, 64, .ro, 0x0, false⟩]⟩,
  ⟨"TJ_CTRL", 0x150, 1, 1, 0x200, 1, 0x0, false, [⟨1, 1, .w1s, 0x0, false⟩, ⟨0, 1, .w1s, 0x0, false⟩]⟩,
  ⟨"TJ_STAT", 0x150, 1, 1, 0x204, 1, 0x0, false, [⟨4, 1, .w1c, 0x0, false⟩, ⟨2, 1, .ro, 0x0, false⟩, ⟨1, 1, .ro, 0x0, false⟩, ⟨0, 1, .ro, 0x0, false⟩]⟩,
  ⟨"TJ_OCC", 0x150, 1, 1, 0x208, 1, 0x0, false, [⟨0, 15, .ro, 0x0, false⟩]⟩,
  ⟨"TJ_EXPIRED", 0x150, 1, 1, 0x20C, 1, 0x0, false, [⟨0, 32, .rwz, 0x0, false⟩]⟩,
  ⟨"TJ_MARKMAX", 0x150, 1, 1, 0x210, 1, 0x0, false, [⟨0, 16, .ro, 0x0, false⟩]⟩,
  ⟨"TJ_HOLDS", 0x150, 1, 1, 0x214, 1, 0x0, false, [⟨0, 32, .rwz, 0x0, false⟩]⟩,
  ⟨"TJ_UEIDX", 0x150, 1, 1, 0x218, 1, 0x0, false, [⟨0, 14, .ro, 0x0, false⟩]⟩,
  ⟨"SL_CTRL", 0x150, 1, 1, 0x40, 1, 0x0, false, [⟨9, 1, .rw, 0x0, false⟩, ⟨8, 1, .rw, 0x0, false⟩, ⟨0, 4, .rwl, 0x0, false⟩]⟩,
  ⟨"SL_PSTAT", 0x150, 1, 1, 0x44, 1, 0x0, false, [⟨0, 16, .ro, 0x0, false⟩]⟩,
  ⟨"SL_LAT", 0x150, 1, 1, 0x48, 1, 0x0, false, [⟨0, 32, .ro, 0x0, false⟩]⟩,
  ⟨"SL_CRCERR", 0x150, 1, 1, 0x4C, 1, 0x0, false, [⟨0, 8, .rwz, 0x0, false⟩, ⟨8, 8, .rwz, 0x0, false⟩, ⟨16, 8, .rwz, 0x0, false⟩, ⟨24, 8, .rwz, 0x0, false⟩]⟩,
  ⟨"SL_RETX", 0x150, 1, 1, 0x50, 1, 0x0, false, [⟨0, 32, .rwz, 0x0, false⟩]⟩,
  ⟨"SL_DUPDROP", 0x150, 1, 1, 0x54, 1, 0x0, false, [⟨0, 32, .rwz, 0x0, false⟩]⟩,
  ⟨"SL_EVDROP", 0x150, 1, 1, 0x58, 1, 0x0, false, [⟨0, 32, .roz, 0x0, false⟩]⟩,
  ⟨"SL_TELSKIP", 0x150, 1, 1, 0x5C, 1, 0x0, false, [⟨0, 32, .rwz, 0x0, false⟩]⟩,
  ⟨"SL_TELBASE", 0x150, 1, 1, 0x60, 1, 0x0, false, [⟨6, 19, .rwl, 0x0, false⟩]⟩,
  ⟨"SL_TELLEN", 0x150, 1, 1, 0x64, 1, 0x0, false, [⟨0, 6, .rw, 0x0, false⟩]⟩,
  ⟨"SL_HRVBASE", 0x150, 1, 1, 0x68, 1, 0x0, false, [⟨7, 18, .rwl, 0x0, false⟩]⟩,
  ⟨"SL_FCYC", 0x150, 1, 1, 0x70, 1, 0x0, true, [⟨0, 64, .ro, 0x0, false⟩]⟩,
  ⟨"SH_PSTAT", 0x1040, 1, 1, 0x40, 1, 0x0, false, [⟨0, 16, .ro, 0x0, false⟩]⟩,
  ⟨"SH_LAT", 0x1040, 1, 1, 0x44, 1, 0x0, false, [⟨0, 32, .ro, 0x0, false⟩]⟩,
  ⟨"SH_CRCERR", 0x1040, 1, 1, 0x48, 1, 0x0, false, [⟨0, 8, .roz, 0x0, false⟩, ⟨8, 8, .roz, 0x0, false⟩, ⟨16, 8, .roz, 0x0, false⟩, ⟨24, 8, .roz, 0x0, false⟩]⟩,
  ⟨"SH_RETX", 0x1040, 1, 1, 0x4C, 1, 0x0, false, [⟨0, 32, .roz, 0x0, false⟩]⟩,
  ⟨"SH_ANGLE", 0x1040, 1, 1, 0x50, 1, 0x0, true, [⟨0, 64, .ro, 0x0, false⟩]⟩,
  ⟨"SH_TICKNO", 0x1040, 1, 1, 0x58, 1, 0x0, true, [⟨0, 64, .ro, 0x0, false⟩]⟩]

/-- Part 7 of the register tables. -/
def regTable7 : List RegD := [
  ⟨"SH_TELSEQ", 0x1040, 1, 1, 0x60, 1, 0x0, false, [⟨0, 32, .ro, 0x0, false⟩]⟩,
  ⟨"SH_TELANGLE", 0x1040, 1, 1, 0x68, 1, 0x0, true, [⟨0, 64, .ro, 0x0, false⟩]⟩,
  ⟨"ETHm_CTRL", 0x1050, 2, 1, 0x40, 1, 0x0, false, [⟨0, 2, .rwl, 0x0, false⟩]⟩,
  ⟨"ETHm_STAT", 0x1050, 2, 1, 0x44, 1, 0x0, false, [⟨1, 1, .ro, 0x0, false⟩, ⟨0, 1, .ro, 0x0, false⟩]⟩,
  ⟨"ETHm_MAC", 0x1050, 2, 1, 0x48, 1, 0x0, true, [⟨0, 48, .rwl, 0x0, false⟩]⟩,
  ⟨"ETHm_RXFRM", 0x1050, 2, 1, 0x50, 1, 0x0, false, [⟨0, 32, .rwz, 0x0, false⟩]⟩,
  ⟨"ETHm_TXFRM", 0x1050, 2, 1, 0x54, 1, 0x0, false, [⟨0, 32, .rwz, 0x0, false⟩]⟩,
  ⟨"ETHm_DROP", 0x1050, 2, 1, 0x58, 1, 0x0, false, [⟨0, 32, .rwz, 0x0, false⟩]⟩,
  ⟨"ETHm_IP6i", 0x1050, 2, 1, 0x60, 4, 0x4, false, [⟨0, 32, .rwl, 0x0, false⟩]⟩,
  ⟨"PT_CTRL", 0x1058, 1, 1, 0x40, 1, 0x0, false, [⟨16, 1, .rw, 0x0, false⟩, ⟨8, 8, .rw, 0x0, false⟩, ⟨4, 1, .rw, 0x0, false⟩, ⟨0, 2, .rw, 0x0, false⟩]⟩,
  ⟨"PT_SEC", 0x1058, 1, 1, 0x48, 1, 0x0, true, [⟨0, 48, .ro, 0x0, false⟩]⟩,
  ⟨"PT_NS", 0x1058, 1, 1, 0x50, 1, 0x0, false, [⟨0, 30, .ro, 0x0, false⟩]⟩,
  ⟨"PT_ADJ", 0x1058, 1, 1, 0x58, 1, 0x0, false, [⟨0, 32, .rw, 0x0, false⟩]⟩,
  ⟨"PT_STEP", 0x1058, 1, 1, 0x5C, 1, 0x0, false, [⟨0, 32, .wo, 0x0, false⟩]⟩,
  ⟨"TF_T0", 0x1058, 1, 1, 0x60, 1, 0x0, true, [⟨0, 64, .rw, 0x0, false⟩]⟩,
  ⟨"TF_ANGLE0", 0x1058, 1, 1, 0x68, 1, 0x0, true, [⟨0, 64, .rw, 0x0, false⟩]⟩,
  ⟨"TF_RATE", 0x1058, 1, 1, 0x70, 1, 0x0, true, [⟨0, 50, .rw, 0x0, false⟩]⟩,
  ⟨"TF_LEAD", 0x1058, 1, 1, 0x78, 1, 0x0, false, [⟨0, 24, .rwl, 0x2EE00, false⟩]⟩,
  ⟨"PT_LOCKWIN", 0x1058, 1, 1, 0x7C, 1, 0x0, false, [⟨0, 16, .rw, 0x64, false⟩]⟩,
  ⟨"PT_SERVO", 0x1058, 1, 1, 0x80, 1, 0x0, false, [⟨31, 1, .ro, 0x0, false⟩, ⟨0, 24, .ro, 0x0, false⟩]⟩,
  ⟨"TF_SENT", 0x1058, 1, 1, 0x84, 1, 0x0, false, [⟨0, 32, .rwz, 0x0, false⟩]⟩,
  ⟨"HG_NODE", 0x1060, 1, 1, 0x40, 1, 0x0, false, [⟨0, 16, .rwl, 0x0, false⟩]⟩,
  ⟨"HG_GROUP", 0x1060, 1, 1, 0x44, 1, 0x0, false, [⟨0, 16, .rwl, 0x0, false⟩]⟩,
  ⟨"HG_RTURNS", 0x1060, 1, 1, 0x48, 1, 0x0, false, [⟨0, 16, .rwl, 0x1, false⟩]⟩,
  ⟨"HG_PORT", 0x1060, 1, 1, 0x4C, 1, 0x0, false, [⟨0, 16, .rwl, 0xB810, false⟩]⟩,
  ⟨"HG_MADDRi", 0x1060, 1, 1, 0x50, 4, 0x4, false, [⟨0, 32, .rwl, 0x0, false⟩]⟩,
  ⟨"HG_AGGRi", 0x1060, 1, 1, 0x60, 4, 0x4, false, [⟨0, 32, .rwl, 0x0, false⟩]⟩,
  ⟨"HG_ROOTi", 0x1060, 1, 1, 0x70, 4, 0x4, false, [⟨0, 32, .rwl, 0x0, false⟩]⟩,
  ⟨"HG_CAP", 0x1060, 1, 1, 0x80, 1, 0x0, true, [⟨0, 64, .rw, 0x0, false⟩]⟩,
  ⟨"HG_ROUND", 0x1060, 1, 1, 0x88, 1, 0x0, false, [⟨0, 32, .ro, 0x0, false⟩]⟩]

/-- Part 8 of the register tables. -/
def regTable8 : List RegD := [
  ⟨"HG_MEMBERS", 0x1060, 1, 1, 0x8C, 1, 0x0, false, [⟨0, 17, .ro, 0x0, false⟩]⟩,
  ⟨"HG_DROP", 0x1060, 1, 1, 0x90, 1, 0x0, false, [⟨0, 32, .rwz, 0x0, false⟩]⟩,
  ⟨"HG_MISS", 0x1060, 1, 1, 0x94, 1, 0x0, false, [⟨0, 32, .rwz, 0x0, false⟩]⟩,
  ⟨"FC_CTRL", 0x16F, 1, 1, 0x40, 1, 0x0, false, [⟨16, 4, .w1s, 0x0, false⟩, ⟨8, 4, .w1s, 0x0, false⟩, ⟨0, 4, .rwl, 0xF, false⟩]⟩,
  ⟨"FC_STAT", 0x16F, 1, 1, 0x44, 1, 0x0, false, [⟨16, 1, .w1c, 0x0, false⟩, ⟨8, 4, .ro, 0x0, true⟩, ⟨4, 4, .ro, 0x0, false⟩, ⟨0, 4, .ro, 0x0, false⟩]⟩,
  ⟨"FC_LSCNTn", 0x16F, 1, 1, 0x48, 4, 0x4, false, [⟨0, 32, .rwz, 0x0, false⟩]⟩,
  ⟨"FC_LSKINDn", 0x16F, 1, 1, 0x58, 4, 0x4, false, [⟨0, 4, .ro, 0x0, false⟩]⟩,
  ⟨"FC_LSFCYC", 0x16F, 1, 1, 0x68, 1, 0x0, true, [⟨0, 64, .ro, 0x0, false⟩]⟩,
  ⟨"FC_LOGICCNT", 0x16F, 1, 1, 0x70, 1, 0x0, false, [⟨0, 32, .rwz, 0x0, true⟩]⟩,
  ⟨"PL_CTRL", 0x180, 1, 1, 0x40, 1, 0x0, false, [⟨4, 1, .w1s, 0x0, false⟩, ⟨3, 1, .rw, 0x0, false⟩, ⟨2, 1, .rwl, 0x0, false⟩, ⟨0, 1, .rwl, 0x0, false⟩]⟩,
  ⟨"PL_STAT", 0x180, 1, 1, 0x44, 1, 0x0, false, [⟨8, 3, .ro, 0x0, false⟩, ⟨1, 2, .ro, 0x3, false⟩, ⟨0, 1, .ro, 0x0, false⟩]⟩,
  ⟨"PL_COUNT", 0x180, 1, 1, 0x48, 1, 0x0, false, [⟨16, 8, .ro, 0x0, false⟩, ⟨8, 8, .ro, 0x0, false⟩, ⟨0, 8, .ro, 0x0, false⟩]⟩,
  ⟨"PL_LAT", 0x180, 1, 1, 0x4C, 1, 0x0, false, [⟨0, 8, .ro, 0x0, false⟩]⟩,
  ⟨"PL_TL", 0x180, 1, 1, 0x50, 1, 0x0, true, [⟨0, 64, .ro, 0x0, false⟩]⟩,
  ⟨"PL_RELAYREQ", 0x180, 1, 1, 0x58, 1, 0x0, true, [⟨0, 64, .rw, 0x0, false⟩]⟩,
  ⟨"PL_RELAYACT", 0x180, 1, 1, 0x60, 1, 0x0, true, [⟨0, 64, .ro, 0x0, false⟩]⟩,
  ⟨"PL_MISS", 0x180, 1, 1, 0x68, 1, 0x0, false, [⟨0, 32, .rwz, 0x0, false⟩]⟩,
  ⟨"PL_DIGERR", 0x180, 1, 1, 0x6C, 1, 0x0, false, [⟨0, 32, .rwz, 0x0, false⟩]⟩,
  ⟨"PL_GBLOCK", 0x180, 1, 1, 0x70, 1, 0x0, false, [⟨0, 32, .rwz, 0x0, false⟩]⟩,
  ⟨"PWR_STAT", 0x160, 1, 1, 0x40, 1, 0x0, false, [⟨8, 1, .ro, 0x0, false⟩, ⟨5, 1, .w1c, 0x0, false⟩, ⟨4, 1, .ro, 0x0, false⟩, ⟨3, 1, .ro, 0x0, false⟩]⟩,
  ⟨"BWCTL", 0x160, 1, 1, 0x44, 1, 0x0, false, [⟨0, 1, .rw, 0x0, false⟩]⟩,
  ⟨"PWR_MODE", 0x160, 1, 1, 0x48, 1, 0x0, false, [⟨8, 1, .rw, 0x0, false⟩, ⟨0, 2, .wo, 0x0, false⟩]⟩,
  ⟨"PWR_WAKE", 0x160, 1, 1, 0x4C, 1, 0x0, false, [⟨31, 1, .rw, 0x0, false⟩, ⟨16, 1, .rw, 0x0, false⟩, ⟨0, 8, .rw, 0x0, false⟩]⟩,
  ⟨"PWR_DIPMIN", 0x160, 1, 1, 0x50, 1, 0x0, false, [⟨0, 12, .ro, 0x0, false⟩]⟩,
  ⟨"PWR_DIPDUR", 0x160, 1, 1, 0x54, 1, 0x0, false, [⟨0, 32, .ro, 0x0, false⟩]⟩,
  ⟨"PWR_DIPCNT", 0x160, 1, 1, 0x58, 1, 0x0, false, [⟨0, 32, .rwz, 0x0, false⟩]⟩,
  ⟨"PWR_TEMP", 0x160, 1, 1, 0x5C, 1, 0x0, false, [⟨0, 16, .ro, 0x0, false⟩]⟩,
  ⟨"CK_STAT", 0x161, 1, 1, 0x40, 1, 0x0, false, [⟨2, 1, .ro, 0x0, false⟩, ⟨1, 1, .ro, 0x0, false⟩, ⟨0, 1, .ro, 0x0, false⟩]⟩,
  ⟨"CK_REFMISS", 0x161, 1, 1, 0x44, 1, 0x0, false, [⟨0, 32, .rwz, 0x0, false⟩]⟩,
  ⟨"RST_CTRL", 0x162, 1, 1, 0x40, 1, 0x0, false, [⟨8, 1, .w1s, 0x0, false⟩, ⟨4, 4, .rw, 0x1, false⟩, ⟨0, 1, .w1s, 0x0, false⟩]⟩]

/-- Part 9 of the register tables. -/
def regTable9 : List RegD := [
  ⟨"RST_STAT", 0x162, 1, 1, 0x44, 1, 0x0, false, [⟨16, 1, .ro, 0x0, false⟩, ⟨0, 5, .ro, 0x1, false⟩]⟩,
  ⟨"RST_WARMCNT", 0x162, 1, 1, 0x48, 1, 0x0, false, [⟨0, 32, .rwz, 0x0, false⟩]⟩,
  ⟨"RST_LAST", 0x162, 1, 1, 0x50, 1, 0x0, true, [⟨0, 64, .ro, 0x0, false⟩]⟩,
  ⟨"HP_STAT", 0x1090, 1, 1, 0x40, 1, 0x0, false, [⟨4, 1, .ro, 0x0, false⟩, ⟨3, 1, .ro, 0x0, false⟩]⟩,
  ⟨"HP_CTRL", 0x1090, 1, 1, 0x44, 1, 0x0, false, [⟨8, 1, .w1s, 0x0, false⟩, ⟨0, 1, .w1s, 0x0, false⟩]⟩,
  ⟨"HP_DIPMIN", 0x1090, 1, 1, 0x48, 1, 0x0, false, [⟨0, 12, .ro, 0x0, false⟩]⟩,
  ⟨"HP_DIPDUR", 0x1090, 1, 1, 0x4C, 1, 0x0, false, [⟨0, 32, .ro, 0x0, false⟩]⟩,
  ⟨"HP_CAUSE", 0x1090, 1, 1, 0x50, 1, 0x0, false, [⟨0, 5, .ro, 0x1, false⟩]⟩,
  ⟨"HP_TEMP", 0x1090, 1, 1, 0x54, 1, 0x0, false, [⟨0, 16, .ro, 0x0, false⟩]⟩,
  ⟨"SEC_CTRL", 0x170, 1, 1, 0x40, 1, 0x0, false, [⟨24, 8, .rw, 0x0, false⟩, ⟨5, 1, .w1s, 0x0, false⟩, ⟨4, 1, .rw, 0x0, true⟩, ⟨3, 1, .w1s, 0x0, false⟩, ⟨2, 1, .w1s, 0x0, false⟩, ⟨1, 1, .w1s, 0x0, false⟩, ⟨0, 1, .w1s, 0x0, false⟩]⟩,
  ⟨"SEC_STAT", 0x170, 1, 1, 0x44, 1, 0x0, false, [⟨9, 1, .ro, 0x0, false⟩, ⟨8, 1, .w1c, 0x0, false⟩, ⟨7, 1, .w1c, 0x0, false⟩, ⟨6, 1, .ro, 0x0, false⟩, ⟨5, 1, .ro, 0x0, false⟩, ⟨4, 1, .ro, 0x0, false⟩, ⟨2, 2, .ro, 0x0, false⟩, ⟨0, 1, .ro, 0x0, false⟩]⟩,
  ⟨"SEC_BOOT", 0x170, 1, 1, 0x48, 1, 0x0, false, [⟨1, 1, .ro, 0x0, true⟩, ⟨0, 1, .ro, 0x0, true⟩]⟩,
  ⟨"SEC_BSEQ", 0x170, 1, 1, 0x4C, 1, 0x0, false, [⟨0, 32, .ro, 0x0, true⟩]⟩,
  ⟨"SEC_BFAIL", 0x170, 1, 1, 0x50, 1, 0x0, false, [⟨8, 8, .ro, 0x0, false⟩, ⟨0, 8, .ro, 0x0, false⟩]⟩,
  ⟨"SEC_OTPSTAT", 0x170, 1, 1, 0x54, 1, 0x0, false, [⟨16, 4, .ro, 0x0, false⟩, ⟨12, 2, .ro, 0x0, false⟩, ⟨0, 7, .ro, 0x0, false⟩]⟩,
  ⟨"SEC_DEVID", 0x170, 1, 1, 0x58, 1, 0x0, true, [⟨0, 64, .ro, 0x0, false⟩]⟩,
  ⟨"SEC_RNG", 0x170, 1, 1, 0x60, 1, 0x0, false, [⟨0, 32, .ro, 0x0, false⟩]⟩,
  ⟨"SEC_RNGAVAIL", 0x170, 1, 1, 0x64, 1, 0x0, false, [⟨0, 5, .ro, 0x0, false⟩]⟩,
  ⟨"SEC_ATTCNT", 0x170, 1, 1, 0x68, 1, 0x0, false, [⟨0, 32, .rwz, 0x0, false⟩]⟩,
  ⟨"SEC_MEASi", 0x170, 1, 1, 0x80, 16, 0x4, false, [⟨0, 32, .ro, 0x0, true⟩]⟩,
  ⟨"PN_CTRL", 0x1080, 1, 1, 0x40, 1, 0x0, false, [⟨1, 1, .w1s, 0x0, false⟩, ⟨0, 1, .rw, 0x0, false⟩]⟩,
  ⟨"PN_STAT", 0x1080, 1, 1, 0x44, 1, 0x0, false, [⟨8, 1, .ro, 0x0, false⟩, ⟨7, 1, .ro, 0x0, false⟩, ⟨5, 2, .ro, 0x0, false⟩, ⟨1, 4, .ro, 0x0, false⟩, ⟨0, 1, .ro, 0x0, false⟩]⟩,
  ⟨"PN_DEBOUNCE", 0x1080, 1, 1, 0x48, 1, 0x0, false, [⟨0, 8, .rw, 0x14, false⟩]⟩,
  ⟨"PN_HOLD", 0x1080, 1, 1, 0x4C, 1, 0x0, false, [⟨0, 16, .rw, 0xBB8, false⟩]⟩,
  ⟨"PN_TTHR", 0x1080, 1, 1, 0x50, 1, 0x0, false, [⟨0, 16, .rw, 0xC8, false⟩]⟩,
  ⟨"PN_TCOUNTe", 0x1080, 1, 1, 0x54, 2, 0x4, false, [⟨16, 16, .ro, 0x0, false⟩, ⟨0, 16, .ro, 0x0, false⟩]⟩,
  ⟨"PN_LEDn", 0x1080, 1, 1, 0x60, 4, 0x4, false, [⟨16, 16, .rw, 0x0, false⟩, ⟨8, 4, .rw, 0x0, false⟩, ⟨0, 3, .rw, 0x0, false⟩]⟩]

/-- Every register of the spec's register tables at offsets 0x040 and above (R38: block registers start at 0x040). -/
def regTable : List RegD :=
  regTable0 ++ regTable1 ++ regTable2 ++ regTable3 ++ regTable4 ++ regTable5 ++ regTable6 ++ regTable7 ++ regTable8 ++ regTable9

end Sys2Proof.Machine
end

