-- ==== Sys2Proof/Machine/Store.lean ====
section
/-!
DEFINITION. Sys2Proof/Machine/Store.lean: sparse stores in one canonical form, and bit fields.
A store is a list of (key, value) pairs, keys strictly rising, no entry equal to what an unlisted key reads as. Register
files, memories, the contexts of the Crystallizer, queues and translation entries are all held so.
-/
namespace Sys2Proof.Machine

/-- What key `k` of store `m` holds; `d` is what an unlisted key reads as. -/
def storeGet {α : Type} (d : α) (m : List (Nat × α)) (k : Nat) : α :=
  match m with
  | [] => d
  | (a, v) :: r => if k = a then v else storeGet d r k

/-- `m` with `v` at `k`. -/
def storePut {α : Type} (m : List (Nat × α)) (k : Nat) (v : α) : List (Nat × α) :=
  match m with
  | [] => [(k, v)]
  | (a, x) :: r => if k < a then (k, v) :: (a, x) :: r else if k = a then (k, v) :: r else (a, x) :: storePut r k v

/-- Store `v` at `k`, keeping the canonical form: writing what an unlisted key reads as removes the entry. -/
@[irreducible] def storeSet {α : Type} [DecidableEq α] (d : α) (m : List (Nat × α)) (k : Nat) (v : α) : List (Nat × α) :=
  if v = d then m.filter fun e => e.1 != k else storePut m k v

/-- Every key of `m` is above `k`. -/
def storeAbove {α : Type} (k : Nat) (m : List (Nat × α)) : Bool := m.all fun e => decide (k < e.1)

/-- The canonical form, for a store whose unlisted key `k` reads as `d k`. -/
def storeWf {α : Type} [DecidableEq α] (d : Nat → α) : List (Nat × α) → Bool
  | [] => true
  | (a, x) :: r => storeAbove a r && !decide (x = d a) && storeWf d r

/-- Forget every entry whose key does not satisfy `p`. -/
def storeKeep {α : Type} (p : Nat → Bool) (m : List (Nat × α)) : List (Nat × α) := m.filter fun e => p e.1

/-- Bits `[lo + width - 1 : lo]` of a word, as a number. -/
@[irreducible] def bitsGet (x : Word) (lo width : Nat) : Nat := x.toNat / 2 ^ lo % 2 ^ width

/-- `x` with bits `[lo + width - 1 : lo]` replaced by the low bits of `v`. -/
@[irreducible] def bitsSet (x : Word) (lo width v : Nat) : Word :=
  BitVec.ofNat 32 (x.toNat % 2 ^ lo + v % 2 ^ width * 2 ^ lo + x.toNat / 2 ^ (lo + width) * 2 ^ (lo + width))

/-- One bit of a number. -/
def natBit (v i : Nat) : Bool := v / 2 ^ i % 2 == 1

/-- `v` with bit `i` set or cleared. -/
def natBitSet (v i : Nat) (b : Bool) : Nat :=
  v % 2 ^ i + (if b then 2 ^ i else 0) + v / 2 ^ (i + 1) * 2 ^ (i + 1)

/-- Bits `[lo + width - 1 : lo]` of a number. -/
def natBits (v lo width : Nat) : Nat := v / 2 ^ lo % 2 ^ width

/-- A Bool as a bit. -/
def b2n (b : Bool) : Nat := if b then 1 else 0

/-- The `n` low bytes of a number, little-endian (R4). -/
def bytesOfNat : Nat → Nat → List Byte
  | 0, _ => []
  | n + 1, v => BitVec.ofNat 8 v :: bytesOfNat n (v / 256)

/-- The number a little-endian byte string spells (R4). -/
def natOfBytes : List Byte → Nat
  | [] => 0
  | b :: r => b.toNat + 256 * natOfBytes r

/-- The signed value of the low `w` bits of `v`. -/
def signedOf (w v : Nat) : Int :=
  let u := v % 2 ^ w
  if u < 2 ^ (w - 1) then (u : Int) else (u : Int) - (2 ^ w : Nat)

/-- The `w`-bit two's-complement image of an integer. -/
def wrapTo (w : Nat) (x : Int) : Nat := (x % ((2 ^ w : Nat) : Int)).toNat

/-- Add 1 to a counter of `w` bits that saturates. -/
def satInc (w v : Nat) : Nat := if v + 1 < 2 ^ w then v + 1 else 2 ^ w - 1

/-- Add `k` to a counter of `w` bits that saturates. -/
def satAdd (w v k : Nat) : Nat := min (v + k) (2 ^ w - 1)

/-- The least natural number `q` with `q * b ≥ a`. -/
def ceilDiv (a b : Nat) : Nat := (a + b - 1) / b

end Sys2Proof.Machine
end

