-- ==== Sys2Proof/Machine/RegFile.lean ====
section
/-!
DEFINITION. Sys2Proof/Machine/RegFile.lean: which register pages exist (R34, R36), what each register word resets to
(R38, R44 and the chapters' tables), and the access code of every bit.
-/
namespace Sys2Proof.Machine

/-- What a page number decodes to. Pages are F-die page numbers, or 0x1000 plus the H-die page. -/
inductive PageKind where
  | none    -- not allocated: a decode error (R32, R36)
  | zero    -- allocated; reads as zero and ignores writes
  | regs    -- header and block registers
  | msix    -- H-die page 0x12, the MSI-X table (R38, R421)
deriving DecidableEq, Repr

def pageKind (pg : Nat) : PageKind :=
  if pg < 0x1000 then
    if pg = 0x000 then .regs
    else if pg < 0x010 then .none
    else if pg ≤ 0x012 then .regs
    else if pg ≤ 0x01F then .zero
    else if pg ≤ 0x04F then .regs
    else if pg < 0x080 then .none
    else if pg ≤ 0x101 then .regs
    else if pg ≤ 0x10F then .zero
    else if pg ≤ 0x112 then .regs
    else if pg ≤ 0x11F then .zero
    else if pg ≤ 0x125 then .regs
    else if pg ≤ 0x127 then .zero
    else if pg ≤ 0x129 then .regs
    else if pg ≤ 0x12F then .zero
    else if pg ≤ 0x131 then .regs
    else if pg ≤ 0x13F then .zero
    else if pg ≤ 0x147 then .regs
    else if pg ≤ 0x14F then .zero
    else if pg = 0x150 then .regs
    else if pg < 0x160 then .none
    else if pg ≤ 0x162 then .regs
    else if pg ≤ 0x16E then .zero
    else if pg ≤ 0x170 then .regs
    else if pg ≤ 0x17F then .zero
    else if pg = 0x180 then .regs
    else .none
  else
    let h := pg - 0x1000
    if h = 0x00 then .regs
    else if h = 0x12 then .msix
    else if h = 0x11 then .zero
    else if h = 0x10 ∨ h = 0x13 then .regs
    else if h = 0x20 then .regs
    else if 0x21 ≤ h ∧ h ≤ 0x3F then .zero
    else if h = 0x40 ∨ h = 0x50 ∨ h = 0x51 ∨ h = 0x58 ∨ h = 0x60 ∨ h = 0x70 ∨ h = 0x71 ∨ h = 0x80 ∨ h = 0x90 then .regs
    else .none

/-- PAGE_ID.TYPE of a page (R34, R36). -/
def pageType (pg : Nat) : Nat :=
  if pg < 0x1000 then
    if pg = 0 then 0x0001 else if pg < 0x020 then 0x0002 else if pg < 0x040 then 0x0003 else if pg < 0x080 then 0x0004
    else if pg < 0x100 then (if pg % 2 = 0 then 0x0008 else 0x0009)
    else if pg < 0x110 then 0x0010 else if pg < 0x120 then 0x0011 else if pg < 0x130 then 0x0012
    else if pg < 0x140 then 0x0013 else if pg < 0x150 then 0x0014 else if pg < 0x160 then 0x0015
    else if pg < 0x170 then 0x0016 else if pg < 0x180 then 0x0017 else 0x0018
  else
    let h := pg - 0x1000
    if h = 0 then 0x0101 else if h < 0x20 then 0x0110 else if h < 0x40 then 0x0120 else if h < 0x50 then 0x0130
    else if h < 0x58 then 0x0140 else if h = 0x58 then 0x0141 else if h = 0x60 then 0x0150 else if h < 0x80 then 0x0160
    else if h = 0x80 then 0x0170 else 0x0180

/-- PAGE_ID.INST of a page: the page number minus the block's first page (R34). -/
def pageInst (pg : Nat) : Nat :=
  if pg < 0x1000 then
    if pg = 0 then 0 else if pg < 0x020 then pg - 0x010 else if pg < 0x040 then pg - 0x020
    else if pg < 0x080 then pg - 0x040 else if pg < 0x100 then (pg - 0x080) / 2 else pg % 0x10
  else
    let h := pg - 0x1000
    if h < 0x20 then h % 0x10 else if h < 0x40 then h - 0x20 else h % 8

/-- The register description that holds offset `off` of page `pg`, if the spec's tables give one. -/
def RegD.holds (r : RegD) (pg off : Nat) : Bool :=
  decide (r.page ≤ pg) && decide ((pg - r.page) % r.pstride = 0) && decide ((pg - r.page) / r.pstride < r.npages) &&
  decide (r.off ≤ off) &&
  (if r.n = 1 then decide (off < r.off + (if r.w64 then 8 else 4))
   else decide ((off - r.off) / r.stride < r.n) && decide ((off - r.off) % r.stride < (if r.w64 then 8 else 4)))

def regAt (pg off : Nat) : Option RegD := regTable.find? fun r => r.holds pg off

/-- The byte offset within its register (0 or 4) of a word offset. -/
def RegD.part (r : RegD) (off : Nat) : Nat := if r.n = 1 then off - r.off else (off - r.off) % r.stride

/-- The field bits of a register word as a 32-bit number: `v` gives the field's value. -/
def wordOfFields (r : RegD) (part : Nat) (v : FieldD → Nat) : Nat :=
  (r.flds.foldl (fun a f => a + v f % 2 ^ f.width * 2 ^ f.lo) 0) / 2 ^ (8 * part) % 2 ^ 32

/-- Reset value of the fused fields and of those a rule computes (R45, R58, R77, R96, R118). -/
def resetSpecial (key : Nat) : Option Word :=
  if key = rSYS_ID then some (BitVec.ofNat 32 (0x51200000 + Config.step * 2 ^ 8 + Config.grade.toNat * 2 ^ 4))
  else if key = rH_SYS_ID then some (BitVec.ofNat 32 (0x51200000 + Config.step * 2 ^ 8 + Config.grade.toNat * 2 ^ 4 + 1))
  else if key = rSYS_LOT then some (BitVec.ofNat 32 (Config.lot 0).toNat)
  else if key = rSYS_LOT + 1 then some (BitVec.ofNat 32 ((Config.lot 0).toNat / 2 ^ 32))
  else if key = rH_SYS_LOT then some (BitVec.ofNat 32 (Config.lot 1).toNat)
  else if key = rH_SYS_LOT + 1 then some (BitVec.ofNat 32 ((Config.lot 1).toNat / 2 ^ 32))
  else if key = rSAL_COLFUSE then some (BitVec.ofNat 32 (Config.banks2.toNat * 2 ^ 16 + Config.banks1.toNat))
  else if key = rRATE_LIMIT then some (BitVec.ofNat 32 2341693294)
  else if key = rCRY_ACAP then some (BitVec.ofNat 32 1440)
  else if key = rCRY_SCAP then some (BitVec.ofNat 32 20224)
  else if key = rCRY_GRACE then some (BitVec.ofNat 32 8)
  else if key = rSEC_STAT then some (BitVec.ofNat 32 (Config.otpLc.toNat * 4))
  else if key = rSEC_OTPSTAT then
    some (BitVec.ofNat 32 (Config.otpKeyRev.toNat * 2 ^ 16 + Config.otpDbgRev.toNat * 2 ^ 12 + Config.otpSvnMin.toNat))
  else if key = rSEC_DEVID then some (BitVec.ofNat 32 Config.otpDevId.toNat)
  else if key = rSEC_DEVID + 1 then some (BitVec.ofNat 32 (Config.otpDevId.toNat / 2 ^ 32))
  else none

/-- What a register word holds after a cold reset (R38, R44). -/
@[irreducible] def regDflt (key : Nat) : Word :=
  let pg := key / 1024
  let off := key % 1024 * 4
  if pageKind pg ≠ .regs then 0
  else if off = 0 then BitVec.ofNat 32 (pageType pg * 2 ^ 16 + pageInst pg * 2 ^ 8 + 1)
  else if off < 0x40 then 0
  else
    match resetSpecial key with
    | some v => v
    | none =>
      match regAt pg off with
      | some r => BitVec.ofNat 32 (wordOfFields r (r.part off) fun f => f.rst)
      | none => 0

/-- The bits of a register word whose field satisfies `p`. -/
def fieldMask (key : Nat) (p : FieldD → Bool) : Nat :=
  match regAt (key / 1024) (key % 1024 * 4) with
  | some r => wordOfFields r (r.part (key % 1024 * 4)) fun f => if p f then 2 ^ f.width - 1 else 0
  | none => 0

def isW1c (f : FieldD) : Bool := match f.acc with | .w1c => true | _ => false
def isRoz (f : FieldD) : Bool := match f.acc with | .roz => true | _ => false
/-- The bits of a word that writing 1 clears: those of the tables, EV_PEND and PAGE_STAT.REFUSED (R40). -/
def w1cMask (key : Nat) : Nat :=
  if key % 1024 = 3 then 8 else if key % 1024 = 4 then 2 ^ 32 - 1 else fieldMask key isW1c
def isWritable (f : FieldD) : Bool := match f.acc with | .rw => true | .rwl => true | _ => false

/-- A software write of `v` to a block register word holding `old`, bit by bit under the access codes of its table (R6,
R571), with the RWL fields kept when `lock` (R570). -/
def writeFields (key : Nat) (lock : Bool) (old v : Word) : Word :=
  match regAt (key / 1024) (key % 1024 * 4) with
  | none => old
  | some r =>
    let sh := 8 * r.part (key % 1024 * 4)
    r.flds.foldl (fun (w : Word) f =>
      if f.lo + f.width ≤ sh ∨ sh + 32 ≤ f.lo then w
      else
        let lo := f.lo - sh
        let wd := min f.width (if f.lo < sh then f.width - (sh - f.lo) else 32 - lo)
        let nv := bitsGet v lo wd
        let ov := bitsGet old lo wd
        match f.acc with
        | .rw => bitsSet w lo wd nv
        | .rwl => if lock then w else bitsSet w lo wd nv
        | .w1c => bitsSet w lo wd (Nat.land ov (2 ^ wd - 1 - nv))
        | .rwz => if nv = 0 then bitsSet w lo wd 0 else w
        | .roz => if nv = 0 then bitsSet w lo wd 0 else w
        | _ => w) old

/-- An RWL field of the word would be changed by the write (R570). -/
def changesLocked (key : Nat) (old v : Word) : Bool :=
  let m := fieldMask key fun f => decide (f.acc = .rwl)
  Nat.land m old.toNat != Nat.land m v.toNat

end Sys2Proof.Machine
end

