-- ==== Sys2Proof/Machine/Float.lean ====
section
/-!
DEFINITION. Sys2Proof/Machine/Float.lean: the one definition of floating point that the pans and the Essan cores share
(R174 to R185): exact integer arithmetic, then one rounding.
-/
namespace Sys2Proof.Machine

/-- A binary interchange format: exponent bits and fraction bits. -/
structure FFmt where
  eb : Nat
  mb : Nat
deriving DecidableEq, Repr

def f16 : FFmt := ⟨5, 10⟩
def f32 : FFmt := ⟨8, 23⟩
def f64 : FFmt := ⟨11, 52⟩

def FFmt.bias (f : FFmt) : Int := 2 ^ (f.eb - 1) - 1
/-- Exponent of the least bit of a subnormal. -/
def FFmt.qmin (f : FFmt) : Int := 1 - f.bias - f.mb
def FFmt.expMax (f : FFmt) : Nat := 2 ^ f.eb - 1

/-- A decoded value: a NaN (signalling or not), an infinity, or (-1)^s * m * 2^e. -/
inductive FV where
  | nan (sig : Bool)
  | inf (s : Bool)
  | fin (s : Bool) (m : Nat) (e : Int)
deriving DecidableEq, Repr

/-- The flags as the record bits order them (R156): NX 1, UF 2, OF 4, DZ 8, NV 16, SAT 32. -/
def flNX : Nat := 1
def flUF : Nat := 2
def flOF : Nat := 4
def flDZ : Nat := 8
def flNV : Nat := 16
def flSAT : Nat := 32

/-- A result encoding with the flags that its computation raises. -/
structure FR where
  bits : Nat
  fl : Nat
deriving DecidableEq, Repr

/-- Rounding directions, coded as RND (R135). -/
abbrev Rnd := Nat

/-- The number of bits of a positive number. -/
def bitLen (n : Nat) : Nat := if n = 0 then 0 else Nat.log2 n + 1

def fDecode (f : FFmt) (b : Nat) : FV :=
  let s := natBit b (f.eb + f.mb)
  let e := natBits b f.mb f.eb
  let m := b % 2 ^ f.mb
  if e = f.expMax then (if m = 0 then .inf s else .nan (!natBit m (f.mb - 1)))
  else if e = 0 then .fin s m f.qmin
  else .fin s (m + 2 ^ f.mb) (f.qmin + (e - 1 : Nat))

def fSign (f : FFmt) (s : Bool) : Nat := if s then 2 ^ (f.eb + f.mb) else 0
def fInf (f : FFmt) (s : Bool) : Nat := fSign f s + f.expMax * 2 ^ f.mb
/-- The canonical quiet NaN (R178). -/
def fNaN (f : FFmt) : Nat := f.expMax * 2 ^ f.mb + 2 ^ (f.mb - 1)
def fMaxFin (f : FFmt) (s : Bool) : Nat := fSign f s + f.expMax * 2 ^ f.mb - 1

/-- Whether a discarded tail rounds the magnitude up: `rem` of `2^sh`, `st` for a further non-zero tail (R174). -/
def roundsUp (rnd : Rnd) (s odd : Bool) (rem sh : Nat) (st : Bool) : Bool :=
  match rnd with
  | 0 => let half := 2 ^ (sh - 1)
         decide (rem > half) || (decide (rem = half) && (st || odd))
  | 1 => false
  | 2 => (decide (rem ≠ 0) || st) && !s
  | _ => (decide (rem ≠ 0) || st) && s

/-- `m * 2^e` (with a further non-zero tail below its last bit when `st`), brought to a multiple of `2^q`. The result is
the integer and whether it is inexact. -/
def roundAt (rnd : Rnd) (s : Bool) (m : Nat) (e q : Int) (st : Bool) : Nat × Bool :=
  if q ≤ e then (m * 2 ^ (e - q).toNat, st)
  else
    let sh := (q - e).toNat
    let n := m / 2 ^ sh
    let rem := m % 2 ^ sh
    (if roundsUp rnd s (n % 2 == 1) rem sh st then n + 1 else n, decide (rem ≠ 0) || st)

/-- The exact value `(-1)^s * m * 2^e` (with a tail when `st`), rounded once into format `f` with its flags (R174 to
R177): tininess after rounding, underflow only when tiny and inexact. -/
def fRound (f : FFmt) (rnd : Rnd) (s : Bool) (m : Nat) (e : Int) (st : Bool) : FR :=
  if m = 0 && !st then ⟨fSign f s, 0⟩
  else
    let top := e + bitLen m - 1 - f.mb            -- least bit's exponent with an unbounded exponent range
    let q := max top f.qmin
    let r := roundAt rnd s m e q st
    let u := roundAt rnd s m e top st
    let utop := if u.1 ≥ 2 ^ (f.mb + 1) then top + 1 else top
    let tiny := decide (utop < f.qmin)
    let n := if r.1 ≥ 2 ^ (f.mb + 1) then r.1 / 2 else r.1
    let q' := if r.1 ≥ 2 ^ (f.mb + 1) then q + 1 else q
    if q' + f.mb > f.bias then
      let toInf := match rnd with | 0 => true | 1 => false | 2 => !s | _ => s
      ⟨if toInf then fInf f s else fMaxFin f s, flOF + flNX⟩
    else
      let be := if n < 2 ^ f.mb then 0 else (q' - f.qmin + 1).toNat
      let fr := if n < 2 ^ f.mb then n else n - 2 ^ f.mb
      ⟨fSign f s + be * 2 ^ f.mb + fr, (if r.2 then flNX else 0) + (if tiny && r.2 then flUF else 0)⟩

/-- NV when either value is a signalling NaN (R178). -/
def sigFl : FV → Nat
  | .nan true => flNV
  | _ => 0

def isNaN : FV → Bool
  | .nan _ => true
  | _ => false

def fvNeg : FV → FV
  | .nan g => .nan g
  | .inf s => .inf (!s)
  | .fin s m e => .fin (!s) m e

/-- Deliver a value that is exact in the format, or the canonical NaN. -/
def fDeliver (f : FFmt) (rnd : Rnd) : FV → FR
  | .nan g => ⟨fNaN f, if g then flNV else 0⟩
  | .inf s => ⟨fInf f s, 0⟩
  | .fin s m e => fRound f rnd s m e false

/-- The signed integer of a finite value over the exponent `q`. -/
def alignTo (s : Bool) (m : Nat) (e q : Int) : Int :=
  let v : Int := (m * 2 ^ (e - q).toNat : Nat)
  if s then -v else v

/-- The sum of two finite values, rounded once; an exact zero of unlike signs is +0, or -0 toward -infinity (R175). -/
def fSumFin (f : FFmt) (rnd : Rnd) (s1 : Bool) (m1 : Nat) (e1 : Int) (s2 : Bool) (m2 : Nat) (e2 : Int) : FR :=
  let q := min e1 e2
  let v := alignTo s1 m1 e1 q + alignTo s2 m2 e2 q
  if v = 0 then
    ⟨fSign f (if m1 = 0 && m2 = 0 && s1 == s2 then s1 else rnd == 3), 0⟩
  else fRound f rnd (decide (v < 0)) v.natAbs q false

def fAddV (f : FFmt) (rnd : Rnd) (a b : FV) : FR :=
  match a, b with
  | .nan _, _ => ⟨fNaN f, sigFl a ||| sigFl b⟩
  | _, .nan _ => ⟨fNaN f, sigFl a ||| sigFl b⟩
  | .inf s, .inf t => if s = t then ⟨fInf f s, 0⟩ else ⟨fNaN f, flNV⟩
  | .inf s, _ => ⟨fInf f s, 0⟩
  | _, .inf t => ⟨fInf f t, 0⟩
  | .fin s1 m1 e1, .fin s2 m2 e2 => fSumFin f rnd s1 m1 e1 s2 m2 e2

def fMulV (f : FFmt) (rnd : Rnd) (a b : FV) : FR :=
  match a, b with
  | .nan _, _ => ⟨fNaN f, sigFl a ||| sigFl b⟩
  | _, .nan _ => ⟨fNaN f, sigFl a ||| sigFl b⟩
  | .inf s, .inf t => ⟨fInf f (s != t), 0⟩
  | .inf s, .fin t m _ => if m = 0 then ⟨fNaN f, flNV⟩ else ⟨fInf f (s != t), 0⟩
  | .fin s m _, .inf t => if m = 0 then ⟨fNaN f, flNV⟩ else ⟨fInf f (s != t), 0⟩
  | .fin s1 m1 e1, .fin s2 m2 e2 => fRound f rnd (s1 != s2) (m1 * m2) (e1 + e2) false

/-- A fused step: `a * b + c` exactly, rounded once; 0 * infinity is invalid whatever `c` holds (R175, R178). -/
def fFmaV (f : FFmt) (rnd : Rnd) (a b c : FV) : FR :=
  let sg := sigFl a ||| sigFl b ||| sigFl c
  let prod : Option FV :=
    match a, b with
    | .nan _, _ => some (.nan false)
    | _, .nan _ => some (.nan false)
    | .inf s, .inf t => some (.inf (s != t))
    | .inf s, .fin t m _ => if m = 0 then none else some (.inf (s != t))
    | .fin s m _, .inf t => if m = 0 then none else some (.inf (s != t))
    | .fin s1 m1 e1, .fin s2 m2 e2 => some (.fin (s1 != s2) (m1 * m2) (e1 + e2))
  match prod with
  | none => ⟨fNaN f, flNV ||| sg⟩
  | some p =>
    match p, c with
    | .nan _, _ => ⟨fNaN f, sg⟩
    | _, .nan _ => ⟨fNaN f, sg⟩
    | .inf s, .inf t => if s = t then ⟨fInf f s, sg⟩ else ⟨fNaN f, flNV ||| sg⟩
    | .inf s, _ => ⟨fInf f s, sg⟩
    | _, .inf t => ⟨fInf f t, sg⟩
    | .fin s1 m1 e1, .fin s2 m2 e2 => fSumFin f rnd s1 m1 e1 s2 m2 e2

def fDivV (f : FFmt) (rnd : Rnd) (a b : FV) : FR :=
  match a, b with
  | .nan _, _ => ⟨fNaN f, sigFl a ||| sigFl b⟩
  | _, .nan _ => ⟨fNaN f, sigFl a ||| sigFl b⟩
  | .inf _, .inf _ => ⟨fNaN f, flNV⟩
  | .inf s, .fin t _ _ => ⟨fInf f (s != t), 0⟩
  | .fin s _ _, .inf t => ⟨fSign f (s != t), 0⟩
  | .fin s1 m1 e1, .fin s2 m2 e2 =>
    if m2 = 0 then (if m1 = 0 then ⟨fNaN f, flNV⟩ else ⟨fInf f (s1 != s2), flDZ⟩)
    else
      let k := f.mb + 5 + bitLen m2
      let n := m1 * 2 ^ k
      fRound f rnd (s1 != s2) (n / m2) (e1 - e2 - k) (decide (n % m2 ≠ 0))

/-- The integer square root of `x`, found bit by bit from bit `n - 1` down. -/
def isqrtFrom (x : Nat) : Nat → Nat → Nat
  | 0, r => r
  | n + 1, r => if (r + 2 ^ n) * (r + 2 ^ n) ≤ x then isqrtFrom x n (r + 2 ^ n) else isqrtFrom x n r

def isqrt (x : Nat) : Nat := isqrtFrom x (bitLen x / 2 + 1) 0

def fSqrtV (f : FFmt) (rnd : Rnd) (a : FV) : FR :=
  match a with
  | .nan _ => ⟨fNaN f, sigFl a⟩
  | .inf s => if s then ⟨fNaN f, flNV⟩ else ⟨fInf f false, 0⟩
  | .fin s m e =>
    if m = 0 then ⟨fSign f s, 0⟩
    else if s then ⟨fNaN f, flNV⟩
    else
      let k := 2 * (f.mb + 4)
      let m' := if e % 2 = 0 then m * 2 ^ k else m * 2 ^ (k + 1)
      let e' := if e % 2 = 0 then e - k else e - k - 1
      let r := isqrt m'
      fRound f rnd false r (e' / 2) (decide (r * r ≠ m'))

/-- 1 / square root, correctly rounded (R175, R181). -/
def fRsqrtV (f : FFmt) (rnd : Rnd) (a : FV) : FR :=
  match a with
  | .nan _ => ⟨fNaN f, sigFl a⟩
  | .inf s => if s then ⟨fNaN f, flNV⟩ else ⟨fSign f false, 0⟩
  | .fin s m e =>
    if m = 0 then ⟨fInf f s, flDZ⟩
    else if s then ⟨fNaN f, flNV⟩
    else
      let m' := if e % 2 = 0 then m else 2 * m
      let e' := if e % 2 = 0 then e else e - 1
      let k := f.mb + 6 + bitLen m'
      let n := isqrt (2 ^ (2 * k) / m')
      fRound f rnd false n (-k - e' / 2) (decide (n * n * m' ≠ 2 ^ (2 * k)))

/-- a * 2^k, rounded once (R181). -/
def fScaleV (f : FFmt) (rnd : Rnd) (a : FV) (k : Int) : FR :=
  match a with
  | .fin s m e => fRound f rnd s m (e + k) false
  | _ => fDeliver f rnd a

/-- Compare two values that are not NaN (R183): the sign of a - b. -/
def fvCmp (a b : FV) : Int :=
  match a, b with
  | .inf s, .inf t => if s = t then 0 else if s then -1 else 1
  | .inf s, _ => if s then -1 else 1
  | _, .inf t => if t then 1 else -1
  | .fin s1 m1 e1, .fin s2 m2 e2 =>
    let q := min e1 e2
    (alignTo s1 m1 e1 q - alignTo s2 m2 e2 q).sign
  | _, _ => 0

/-- The eight conditions of R184 on a comparison without a NaN. -/
def condHolds (c : Nat) (sg : Int) : Bool :=
  match c with
  | 0 => sg == 0
  | 1 => sg != 0
  | 2 => decide (sg < 0)
  | 3 => decide (sg ≤ 0)
  | 4 => decide (sg > 0)
  | 5 => decide (sg ≥ 0)
  | 6 => false
  | _ => true

/-- CMP of R184: the outcome and the flags. -/
def fCmpV (c : Nat) (a b : FV) : Bool × Nat :=
  if isNaN a || isNaN b then
    let ordered := decide (2 ≤ c ∧ c ≤ 5)
    (c == 1 || c == 6, if ordered then flNV else sigFl a ||| sigFl b)
  else (condHolds c (fvCmp a b), 0)

/-- MIN and MAX of R185 on encodings: the first operand on a tie, the other operand beside a NaN. -/
def fMinMax (f : FFmt) (isMax : Bool) (x y : Nat) : FR :=
  let a := fDecode f x
  let b := fDecode f y
  let sg := sigFl a ||| sigFl b
  if isNaN a && isNaN b then ⟨fNaN f, sg⟩
  else if isNaN a then ⟨y, sg⟩
  else if isNaN b then ⟨x, sg⟩
  else
    let c := fvCmp a b
    if isMax then ⟨if c < 0 then y else x, sg⟩ else ⟨if c > 0 then y else x, sg⟩

/-- floor(v * 2^k + 1/2) of a finite value, and whether it differs from v * 2^k (R182). -/
def roundHalfUp (s : Bool) (m : Nat) (e : Int) : Int × Bool :=
  let v : Int := if s then -(m : Int) else m
  if 0 ≤ e then (v * 2 ^ e.toNat, false)
  else
    let d : Int := 2 ^ (-e).toNat
    ((2 * v + d) / (2 * d), decide (v % d ≠ 0))

/-- The conversions to a fixed or integer value of R182: v = a * 2^k, half up, into 32 bits. The result is a signed
integer with its flags. -/
def fToInt (a : FV) (k : Int) : Int × Nat :=
  let lo : Int := -(2 ^ 31)
  let hi : Int := 2 ^ 31 - 1
  match a with
  | .nan _ => (0, flNV)
  | .inf s => (if s then lo else hi, flNV + flSAT)
  | .fin s m e =>
    let r := roundHalfUp s m (e + k)
    if r.1 < lo then (lo, flNV + flSAT)
    else if r.1 > hi then (hi, flNV + flSAT)
    else (r.1, if r.2 then flNX else 0)

/-- r * 2^k rounded into `f` (R182). -/
def fOfInt (f : FFmt) (rnd : Rnd) (r : Int) (k : Int) : FR :=
  if r = 0 then ⟨0, 0⟩ else fRound f rnd (decide (r < 0)) r.natAbs k false

/-- A conversion between formats: exact when it widens, one rounding with flags when it narrows (R168, R176). -/
def fConvert (g f : FFmt) (rnd : Rnd) (x : Nat) : FR := fDeliver f rnd (fDecode g x)

/-- A conversion to FP16: OF is raised in every direction when the value lies beyond FP16 to nearest, as the rows of R177
and R179 for 65,520.0 give (log 143). -/
def fTo16 (f : FFmt) (rnd : Rnd) (x : Nat) : FR :=
  let r := fConvert f f16 rnd x
  ⟨r.bits, Nat.lor r.fl (Nat.land (fConvert f f16 0 x).fl flOF)⟩

/-- A widening that keeps a signalling NaN signalling and raises nothing (R166, R169). -/
def fWiden (g f : FFmt) (x : Nat) : Nat :=
  match fDecode g x with
  | .nan true => f.expMax * 2 ^ f.mb + 1
  | v => (fDeliver f 0 v).bits

end Sys2Proof.Machine
end

