-- ==== Sys2Proof/Machine/PanArith.lean ====
section
/-!
DEFINITION. Sys2Proof/Machine/PanArith.lean: the operations of the B0 control store (R166 to R195). An element is an
encoding in its stage's result type, with the flags of every operation that contributes to it (R180).
-/
namespace Sys2Proof.Machine

/-- The computing domains (R166). -/
inductive Dom where
  | sgl | dbl | fix | int
deriving DecidableEq, Repr

/-- Element size in bytes of a type code (R134). -/
def typeSize (t : Nat) : Nat := match t with | 0 => 4 | 1 => 2 | 2 => 4 | 3 => 2 | 4 => 4 | _ => 8
def typeOk (t : Nat) : Bool := decide (t ≤ 5)
def typeDom (t : Nat) : Dom := match t with | 0 => .sgl | 1 => .sgl | 2 => .fix | 3 => .fix | 4 => .int | _ => .dbl
/-- The result type of a domain (R167). -/
def domType (d : Dom) : Nat := match d with | .sgl => 0 | .dbl => 5 | .fix => 2 | .int => 4
def domFmt (d : Dom) : FFmt := match d with | .dbl => f64 | _ => f32

/-- A value read from a stream, as its domain holds it (R166). -/
def enterDom (t raw : Nat) : Nat :=
  match t with
  | 1 => fWiden f16 f32 raw
  | 3 => raw % 2 ^ 16 * 2 ^ 16
  | _ => raw

/-- An exact integer brought into the range of a signed `w`-bit type (R172). -/
def inRange (w : Nat) (sat : Bool) (x : Int) : FR :=
  let lo : Int := -(2 ^ (w - 1))
  let hi : Int := 2 ^ (w - 1) - 1
  if lo ≤ x ∧ x ≤ hi then ⟨wrapTo w x, 0⟩
  else if sat then ⟨wrapTo w (if x < lo then lo else hi), flSAT⟩
  else ⟨wrapTo w x, flSAT⟩

/-- Drop `s` fraction bits, rounding half up (R172). -/
def halfUp (x : Int) (s : Nat) : Int := if s = 0 then x else (x + 2 ^ (s - 1)) / 2 ^ s

def sx32 (b : Nat) : Int := signedOf 32 b

/-- The scalar of PARAM in a domain (R169). -/
def paramScalar (d : Dom) (param : Nat) : Nat :=
  match d with
  | .sgl => fWiden f16 f32 param
  | .dbl => fWiden f16 f64 param
  | .fix => param % 2 ^ 16 * 2 ^ 16
  | .int => wrapTo 32 (signedOf 16 param)

def isFloat (d : Dom) : Bool := match d with | .sgl => true | .dbl => true | _ => false

/-- SCALE (R173, R181). -/
def opScale (d : Dom) (rnd : Rnd) (sat : Bool) (e : Int) (a : Nat) : FR :=
  if isFloat d then fScaleV (domFmt d) rnd (fDecode (domFmt d) a) e
  else if 0 ≤ e then inRange 32 sat (sx32 a * 2 ^ e.toNat)
  else inRange 32 sat (halfUp (sx32 a) (-e).toNat)

/-- a + b. -/
def opAdd (d : Dom) (rnd : Rnd) (sat : Bool) (a b : Nat) : FR :=
  let f := domFmt d
  if isFloat d then fAddV f rnd (fDecode f a) (fDecode f b) else inRange 32 sat (sx32 a + sx32 b)

/-- a - b. -/
def opSub (d : Dom) (rnd : Rnd) (sat : Bool) (a b : Nat) : FR :=
  let f := domFmt d
  if isFloat d then fAddV f rnd (fDecode f a) (fvNeg (fDecode f b)) else inRange 32 sat (sx32 a - sx32 b)

/-- a * b (R173, R175). -/
def opMul (d : Dom) (rnd : Rnd) (sat : Bool) (a b : Nat) : FR :=
  let f := domFmt d
  match d with
  | .fix => inRange 32 sat (halfUp (sx32 a * sx32 b) 31)
  | .int => inRange 32 sat (sx32 a * sx32 b)
  | _ => fMulV f rnd (fDecode f a) (fDecode f b)

/-- a * s + b with one rounding (R173, R175). -/
def opAxpy (d : Dom) (rnd : Rnd) (sat : Bool) (a s b : Nat) : FR :=
  let f := domFmt d
  match d with
  | .fix => inRange 32 sat (halfUp (sx32 a * sx32 s + sx32 b * 2 ^ 31) 31)
  | .int => inRange 32 sat (sx32 a * sx32 s + sx32 b)
  | _ => fFmaV f rnd (fDecode f a) (fDecode f s) (fDecode f b)

/-- MIN and MAX (R183, R185). -/
def opMinMax (d : Dom) (isMax : Bool) (a b : Nat) : FR :=
  if isFloat d then fMinMax (domFmt d) isMax a b
  else if isMax then ⟨if sx32 a < sx32 b then b else a, 0⟩ else ⟨if sx32 a > sx32 b then b else a, 0⟩

/-- CMP (R184). -/
def opCmp (d : Dom) (c a b : Nat) : FR :=
  if isFloat d then
    let r := fCmpV c (fDecode (domFmt d) a) (fDecode (domFmt d) b)
    ⟨b2n r.1, r.2⟩
  else ⟨b2n (condHolds c (sx32 a - sx32 b).sign), 0⟩

/-- The element-wise opcodes of R170 on one element. -/
def elemOp (opc : Nat) (d : Dom) (rnd : Rnd) (sat : Bool) (param a b : Nat) : FR :=
  let f := domFmt d
  let e := signedOf 16 param
  match opc with
  | 0x01 => if isFloat d then fDeliver f rnd (fDecode f a) else ⟨a, 0⟩
  | 0x02 => if isFloat d then fDeliver f rnd (fvNeg (fDecode f a)) else inRange 32 sat (-(sx32 a))
  | 0x03 =>
    if isFloat d then
      (match fDecode f a with
       | .nan g => ⟨fNaN f, if g then flNV else 0⟩
       | _ => ⟨a % 2 ^ (f.eb + f.mb), 0⟩)
    else inRange 32 sat (sx32 a).natAbs
  | 0x04 => fSqrtV f rnd (fDecode f a)
  | 0x05 => fDivV f rnd (.fin false 1 0) (fDecode f a)
  | 0x06 => fRsqrtV f rnd (fDecode f a)
  | 0x07 => opScale d rnd sat e a
  | 0x08 => opMul d rnd sat a (paramScalar d param)
  | 0x09 => opAdd d rnd sat a (paramScalar d param)
  | 0x0A => let r := fToInt (fDecode f a) (e + 31); ⟨wrapTo 32 r.1, r.2⟩
  | 0x0B => let r := fToInt (fDecode f a) e; ⟨wrapTo 32 r.1, r.2⟩
  | 0x0C => fOfInt f32 rnd (sx32 a) (e - 31)
  | 0x0D => fOfInt f32 rnd (sx32 a) e
  | 0x10 => opAdd d rnd sat a b
  | 0x11 => opSub d rnd sat a b
  | 0x12 => opMul d rnd sat a b
  | 0x13 => fDivV f rnd (fDecode f a) (fDecode f b)
  | 0x14 => opMinMax d false a b
  | 0x15 => opMinMax d true a b
  | 0x16 => opAxpy d rnd sat a (paramScalar d param) b
  | 0x17 => opCmp d (param % 8) a b
  | 0x18 => ⟨Nat.land a b, 0⟩
  | 0x19 => ⟨Nat.lor a b, 0⟩
  | _ => ⟨Nat.xor a b, 0⟩

/-- An element with no value: a read outside a group. -/
def FR.none : FR := ⟨0, 0⟩

/-- An operation on elements joins the flags of its operands to its own (R180). -/
def join1 (x : FR) (r : FR) : FR := ⟨r.bits, r.fl ||| x.fl⟩
def join2 (x y : FR) (r : FR) : FR := ⟨r.bits, r.fl ||| x.fl ||| y.fl⟩
def join3 (x y z : FR) (r : FR) : FR := ⟨r.bits, r.fl ||| x.fl ||| y.fl ||| z.fl⟩

def frMul (f : FFmt) (rnd : Rnd) (x y : FR) : FR := join2 x y (fMulV f rnd (fDecode f x.bits) (fDecode f y.bits))
def frAdd (f : FFmt) (rnd : Rnd) (x y : FR) : FR := join2 x y (fAddV f rnd (fDecode f x.bits) (fDecode f y.bits))
def frSub (f : FFmt) (rnd : Rnd) (x y : FR) : FR := join2 x y (fAddV f rnd (fDecode f x.bits) (fvNeg (fDecode f y.bits)))
def frFma (f : FFmt) (rnd : Rnd) (x y z : FR) : FR :=
  join3 x y z (fFmaV f rnd (fDecode f x.bits) (fDecode f y.bits) (fDecode f z.bits))
def frFmaNeg (f : FFmt) (rnd : Rnd) (x y z : FR) : FR :=
  join3 x y z (fFmaV f rnd (fvNeg (fDecode f x.bits)) (fDecode f y.bits) (fDecode f z.bits))
/-- x * y - z with one rounding. -/
def frFms (f : FFmt) (rnd : Rnd) (x y z : FR) : FR :=
  join3 x y z (fFmaV f rnd (fDecode f x.bits) (fDecode f y.bits) (fvNeg (fDecode f z.bits)))

def frAt (l : List FR) (i : Nat) : FR := l.getD i FR.none
/-- Element (r, c) of a coefficient block of n columns (R191). -/
def coefAt (m : List Nat) (n r c : Nat) : FR := ⟨m.getD (r * n + c) 0, 0⟩

/-- One row of HMV (R192); `tr` takes M[c][r] for M[r][c]. -/
def hmvRow (f : FFmt) (rnd : Rnd) (n : Nat) (tr : Bool) (m : List Nat) (x : List FR) (r : Nat) : FR :=
  let co := fun c => if tr then coefAt m n c r else coefAt m n r c
  (List.range (n - 1)).foldl (fun acc c => frFma f rnd (co (c + 1)) (frAt x (c + 1)) acc)
    (frMul f rnd (co 0) (frAt x 0))

def hmv (f : FFmt) (rnd : Rnd) (n : Nat) (tr : Bool) (m : List Nat) (x : List FR) : List FR :=
  (List.range n).map (hmvRow f rnd n tr m x)

/-- HPOW (R192): `p` applications of HMV. -/
def hpow (f : FFmt) (rnd : Rnd) (n : Nat) (m : List Nat) : Nat → List FR → List FR
  | 0, v => v
  | p + 1, v => hpow f rnd n m p (hmv f rnd n false m v)

/-- HTRS (R192): forward substitution; `y` holds the outputs found so far. -/
def htrs (f : FFmt) (rnd : Rnd) (n : Nat) (m : List Nat) (x : List FR) : List FR :=
  (List.range n).foldl (fun y r =>
    let acc := (List.range r).foldl (fun a c => frFmaNeg f rnd (coefAt m n r c) (frAt y c) a) (frAt x r)
    let d := coefAt m n r r
    y ++ [join2 acc d (fDivV f rnd (fDecode f acc.bits) (fDecode f d.bits))]) []

/-- A complex pair. -/
structure Cx where
  re : FR
  im : FR
deriving DecidableEq, Repr

def cxAt (l : List FR) (i : Nat) : Cx := ⟨frAt l (2 * i), frAt l (2 * i + 1)⟩

/-- The complex product of R194; `cj` uses the conjugate of `w`. -/
def cxMul (f : FFmt) (rnd : Rnd) (cj : Bool) (w v : Cx) : Cx :=
  let wi : FR := if cj then ⟨(w.im.bits + 2 ^ (f.eb + f.mb)) % 2 ^ (f.eb + f.mb + 1), w.im.fl⟩ else w.im
  ⟨frFms f rnd w.re v.re (frMul f rnd wi v.im), frFma f rnd w.re v.im (frMul f rnd wi v.re)⟩

/-- The exact components of a fixed-point complex product, rounded once (R195). -/
def cxMulFix (sat cj : Bool) (w v : Cx) : Cx :=
  let wi : Int := if cj then -(sx32 w.im.bits) else sx32 w.im.bits
  let re := sx32 w.re.bits * sx32 v.re.bits - wi * sx32 v.im.bits
  let im := sx32 w.re.bits * sx32 v.im.bits + wi * sx32 v.re.bits
  let j := fun r => join2 w.re w.im (join2 v.re v.im r)
  ⟨j (inRange 32 sat (halfUp re 31)), j (inRange 32 sat (halfUp im 31))⟩

def cxAdd (f : FFmt) (rnd : Rnd) (x y : Cx) : Cx := ⟨frAdd f rnd x.re y.re, frAdd f rnd x.im y.im⟩
def cxSub (f : FFmt) (rnd : Rnd) (x y : Cx) : Cx := ⟨frSub f rnd x.re y.re, frSub f rnd x.im y.im⟩

/-- One fixed-point output: the exact signed sum of components, divided by 2^s, rounded once and brought into range under
R172 (R195). -/
def fixSum (sat : Bool) (s : Nat) (ts : List (Bool × FR)) : FR :=
  let x := ts.foldl (fun a t => if t.1 then a - sx32 t.2.bits else a + sx32 t.2.bits) (0 : Int)
  join1 ⟨0, ts.foldl (fun a t => a ||| t.2.fl) 0⟩ (inRange 32 sat (halfUp x s))

/-- BF2 and BF2I (R193 to R195). -/
def bf2 (d : Dom) (rnd : Rnd) (sat cj : Bool) (v w : List FR) : List FR :=
  match d with
  | .fix =>
    let u := fun i => cxMulFix sat cj (cxAt w i) (cxAt v i)
    [fixSum sat 1 [(false, (u 0).re), (false, (u 1).re)], fixSum sat 1 [(false, (u 0).im), (false, (u 1).im)],
     fixSum sat 1 [(false, (u 0).re), (true, (u 1).re)], fixSum sat 1 [(false, (u 0).im), (true, (u 1).im)]]
  | _ =>
    let f := domFmt d
    let u0 := cxMul f rnd cj (cxAt w 0) (cxAt v 0)
    let u1 := cxMul f rnd cj (cxAt w 1) (cxAt v 1)
    let y0 := cxAdd f rnd u0 u1
    let y1 := cxSub f rnd u0 u1
    [y0.re, y0.im, y1.re, y1.im]

/-- BF4 and BF4I (R193 to R195). -/
def bf4 (d : Dom) (rnd : Rnd) (sat inv : Bool) (v w : List FR) : List FR :=
  match d with
  | .fix =>
    let u := fun i => cxMulFix sat inv (cxAt w i) (cxAt v i)
    let re := fun i => (u i).re
    let im := fun i => (u i).im
    let y1 := [fixSum sat 2 [(false, re 0), (true, re 2), (inv, im 1), (!inv, im 3)],
               fixSum sat 2 [(false, im 0), (true, im 2), (!inv, re 1), (inv, re 3)]]
    let y3 := [fixSum sat 2 [(false, re 0), (true, re 2), (!inv, im 1), (inv, im 3)],
               fixSum sat 2 [(false, im 0), (true, im 2), (inv, re 1), (!inv, re 3)]]
    [fixSum sat 2 [(false, re 0), (false, re 2), (false, re 1), (false, re 3)],
     fixSum sat 2 [(false, im 0), (false, im 2), (false, im 1), (false, im 3)]] ++ y1 ++
    [fixSum sat 2 [(false, re 0), (false, re 2), (true, re 1), (true, re 3)],
     fixSum sat 2 [(false, im 0), (false, im 2), (true, im 1), (true, im 3)]] ++ y3
  | _ =>
    let f := domFmt d
    let u := fun i => cxMul f rnd inv (cxAt w i) (cxAt v i)
    let t0 := cxAdd f rnd (u 0) (u 2)
    let t1 := cxSub f rnd (u 0) (u 2)
    let t2 := cxAdd f rnd (u 1) (u 3)
    let t3 := cxSub f rnd (u 1) (u 3)
    let y0 := cxAdd f rnd t0 t2
    let y2 := cxSub f rnd t0 t2
    let a : Cx := ⟨frAdd f rnd t1.re t3.im, frSub f rnd t1.im t3.re⟩
    let b : Cx := ⟨frSub f rnd t1.re t3.im, frAdd f rnd t1.im t3.re⟩
    let y1 := if inv then b else a
    let y3 := if inv then a else b
    [y0.re, y0.im, y1.re, y1.im, y2.re, y2.im, y3.re, y3.im]

/-- The grouped opcodes of R170 on one group: `x` the group, `w` the group of stream B, `m` the coefficient block. -/
def groupOp (opc : Nat) (d : Dom) (rnd : Rnd) (sat : Bool) (param : Nat) (x w : List FR) (m : List Nat) : List FR :=
  let f := domFmt d
  let n := 2 ^ (opc % 4 + 1)
  let p := if param % 64 = 0 then 64 else param % 64
  if opc < 0x24 then hmv f rnd n false m x
  else if opc < 0x28 then hmv f rnd n true m x
  else if opc < 0x2C then hpow f rnd n m p x
  else if opc < 0x30 then htrs f rnd n m x
  else if opc < 0x32 then bf2 d rnd sat (opc == 0x31) x w
  else bf4 d rnd sat (opc == 0x33) x w

/-- The last stage's conversion to DTYPE (R168, R176), for element-wise and grouped outputs and value outputs. -/
def toDtype (res dt : Nat) (rnd : Rnd) (sat : Bool) (x : FR) : FR :=
  match res, dt with
  | 0, 1 => join1 x (fTo16 f32 rnd x.bits)
  | 0, 5 => join1 x (fConvert f32 f64 rnd x.bits)
  | 5, 0 => join1 x (fConvert f64 f32 rnd x.bits)
  | 5, 1 => join1 x (fTo16 f64 rnd x.bits)
  | 2, 3 => join1 x (inRange 16 sat (halfUp (sx32 x.bits) 16))
  | _, _ => x

/-- The pairings R168 permits. -/
def dtypeOk (res dt : Nat) : Bool :=
  match res, dt with
  | 0, 0 => true | 0, 1 => true | 0, 5 => true
  | 5, 5 => true | 5, 0 => true | 5, 1 => true
  | 2, 2 => true | 2, 3 => true
  | 4, 4 => true
  | _, _ => false

/-! The reducing opcodes (R186 to R190). -/

/-- The `combine` of R186. -/
def redCombine (d : Dom) (rnd : Rnd) (x y : Option FR) : Option FR :=
  match x, y with
  | none, y => y
  | x, none => x
  | some a, some b => some (frAdd (domFmt d) rnd a b)

/-- One level of the pairwise tree of R186. -/
def redPairs (d : Dom) (rnd : Rnd) : List (Option FR) → List (Option FR)
  | a :: b :: r => redCombine d rnd a b :: redPairs d rnd r
  | l => l

/-- The order of two values for a ranking: true when `a` ranks strictly before `b` (R183, R187, R188). -/
def ranksBefore (d : Dom) (desc : Bool) (a b : Nat) : Bool :=
  let c : Int := if isFloat d then fvCmp (fDecode (domFmt d) a) (fDecode (domFmt d) b) else (sx32 a - sx32 b).sign
  if desc then decide (c > 0) else decide (c < 0)

/-- Insert (value, index) after every entry it does not precede; indices arrive ascending (R188). -/
def rankInsert (d : Dom) (desc : Bool) (l : List (Nat × Nat)) (e : Nat × Nat) : List (Nat × Nat) :=
  match l with
  | [] => [e]
  | x :: r => if ranksBefore d desc e.1 x.1 then e :: x :: r else x :: rankInsert d desc r e

/-- The filler of R189. -/
def redFiller (d : Dom) (desc : Bool) : Nat :=
  match d with
  | .sgl => fNaN f32
  | .dbl => fNaN f64
  | _ => if desc then 0x80000000 else 0x7FFFFFFF

end Sys2Proof.Machine
end

