-- ==== Sys2Proof/Machine/PanOrder.lean ====
section
/-!
DEFINITION. Sys2Proof/Machine/PanOrder.lean: the Cloquel descriptor (R135), the dispatch and timing tables (R198, R208),
the validity rows of R141, the cost and demand of an order (R79, R210 to R214) and the overlap test (R152).
-/
namespace Sys2Proof.Machine

/-- A dispatch entry (R198). `start` is none for the routine of the base store. Reserved bits read 0 (R42). -/
structure DispEnt where
  valid : Bool
  cls : Nat
  ops2 : Bool
  pkind : Nat
  glog : Nat
  res : Nat
  types : Nat
  start : Option (BitVec 14)
deriving DecidableEq, Repr

def DispEnt.none : DispEnt := ⟨false, 0, false, 0, 0, 0, 0, Option.none⟩

def tyF : Nat := 0x23      -- FP32, FP16, FP64
def tyF1 : Nat := 0x03     -- FP32, FP16
def tyX : Nat := 0x0C      -- Q31, Q15
def tyI : Nat := 0x10      -- INT32

def dispE (two : Bool) (pk res types : Nat) : DispEnt := ⟨true, 1, two, pk, 0, res, types, Option.none⟩
def dispG (pk glog types : Nat) : DispEnt := ⟨true, 2, true, pk, glog, 0xF, types, Option.none⟩
def dispR (two : Bool) (pk types : Nat) : DispEnt := ⟨true, 3, two, pk, 0, 0xF, types, Option.none⟩

/-- The base store's dispatch table (R170, R199). -/
def baseDispatch (opc : Nat) : DispEnt :=
  if opc = 0 then DispEnt.none
  else if opc ≤ 0x03 then dispE false 0 0xF (tyF + tyX + tyI)
  else if opc ≤ 0x06 then dispE false 0 0xF tyF
  else if opc = 0x07 then dispE false 1 0xF (tyF + tyX + tyI)
  else if opc ≤ 0x09 then dispE false 2 0xF (tyF + tyX + tyI)
  else if opc = 0x0A then dispE false 1 2 tyF
  else if opc = 0x0B then dispE false 1 4 tyF
  else if opc = 0x0C then dispE false 1 0 tyX
  else if opc = 0x0D then dispE false 1 0 tyI
  else if opc < 0x10 then DispEnt.none
  else if opc ≤ 0x12 then dispE true 0 0xF (tyF + tyX + tyI)
  else if opc = 0x13 then dispE true 0 0xF tyF
  else if opc ≤ 0x15 then dispE true 0 0xF (tyF + tyX + tyI)
  else if opc = 0x16 then dispE true 2 0xF (tyF + tyX + tyI)
  else if opc = 0x17 then dispE true 3 4 (tyF + tyX + tyI)
  else if opc ≤ 0x1A then dispE true 0 4 tyI
  else if opc < 0x20 then DispEnt.none
  else if opc ≤ 0x2F then dispG (if 0x28 ≤ opc ∧ opc ≤ 0x2B then 4 else 0) (opc % 4 + 1) tyF
  else if opc ≤ 0x31 then dispG 0 2 (tyF1 + tyX)
  else if opc ≤ 0x33 then dispG 0 3 (tyF1 + tyX)
  else if opc < 0x40 then DispEnt.none
  else if opc ≤ 0x41 then dispR false 0 (tyF + tyX + tyI)
  else if opc = 0x42 then dispR true 0 (tyF + tyX + tyI)
  else if opc ≤ 0x44 then dispR false 0 (tyF1 + tyX + tyI)
  else if opc ≤ 0x46 then dispR false 5 (tyF1 + tyX + tyI)
  else DispEnt.none

/-- The entry's 64 bits but for its base-store START (R198). -/
def DispEnt.pack (opc : Nat) (e : DispEnt) : Nat :=
  b2n e.valid * 2 ^ 63 + e.cls % 4 * 2 ^ 60 + b2n e.ops2 * 2 ^ 59 + e.pkind % 8 * 2 ^ 56 + e.glog % 16 * 2 ^ 52 +
  e.res % 16 * 2 ^ 48 + e.types % 64 * 2 ^ 40 +
  (match e.start with | Option.none => (Config.romStart opc).toNat | some a => a.toNat)

def DispEnt.unpack (v : Nat) : DispEnt :=
  ⟨natBit v 63, natBits v 60 2, natBit v 59, natBits v 56 3, natBits v 52 4, natBits v 48 4, natBits v 40 6,
   some (BitVec.ofNat 14 v)⟩

/-- Whether the entry still runs the B0 routine of its opcode; any other routine's result is not given by the spec. -/
def DispEnt.isBase (opc : Nat) (e : DispEnt) : Bool :=
  match e.start with
  | Option.none => true
  | some a => a == Config.romStart opc

/-! Descriptor fields (R135). -/

def dW (d : List Word) (i : Nat) : Word := d.getD i 0
def dOpc (d : List Word) (k : Nat) : Nat := bitsGet (dW d 0) (8 * k) 8
def dNstg (d : List Word) : Nat := bitsGet (dW d 1) 0 2
def dPan (d : List Word) (k : Nat) : Nat := bitsGet (dW d 1) (2 + 3 * k) 3
def dBsel (d : List Word) (k : Nat) : Nat := bitsGet (dW d 1) (16 + 2 * k) 2
def dStype (d : List Word) : Nat := bitsGet (dW d 1) 24 4
def dDtype (d : List Word) : Nat := bitsGet (dW d 1) 28 4
def dLen (d : List Word) : Nat := let l := bitsGet (dW d 2) 0 16; if l = 0 then 65536 else l
def dParam (d : List Word) : Nat := bitsGet (dW d 2) 16 16
def dAaddr (d : List Word) : Nat := bitsGet (dW d 3) 0 24
def dXen (d : List Word) : Bool := bitsGet (dW d 3) 24 1 == 1
def dXsel (d : List Word) : Nat := bitsGet (dW d 3) 25 2
def dMen (d : List Word) : Bool := bitsGet (dW d 3) 27 1 == 1
def dMinv (d : List Word) : Bool := bitsGet (dW d 3) 28 1 == 1
def dRnd (d : List Word) : Nat := bitsGet (dW d 3) 29 2
def dSat (d : List Word) : Bool := bitsGet (dW d 3) 31 1 == 1
def dBaddr (d : List Word) : Nat := bitsGet (dW d 4) 0 24
def dFence (d : List Word) : Bool := bitsGet (dW d 4) 24 1 == 1
def dNotify (d : List Word) : Bool := bitsGet (dW d 4) 25 1 == 1
def dRsv (d : List Word) : Nat := bitsGet (dW d 4) 26 6
def dDaddr (d : List Word) : Nat := bitsGet (dW d 5) 0 24
def dAux (d : List Word) : Nat := bitsGet (dW d 5) 24 8 * 2 ^ 16 + bitsGet (dW d 7) 16 16
def dAstr (d : List Word) : Int := signedOf 16 (bitsGet (dW d 6) 0 16)
def dBstr (d : List Word) : Int := signedOf 16 (bitsGet (dW d 6) 16 16)
def dDstr (d : List Word) : Int := signedOf 16 (bitsGet (dW d 7) 0 16)

/-- The indices of the stages of an order. -/
def dStages (d : List Word) : List Nat := List.range (dNstg d + 1)
def dLast (d : List Word) : Nat := dNstg d
def dAIdx (d : List Word) : Bool := dXen d && (dXsel d == 0 || dXsel d == 3)
/-- A stage that names stream B as its second operand. -/
def dUsesB (d : List Word) : Bool := (dStages d).any fun k => dBsel d k == 1
def isHorizon (opc : Nat) : Bool := decide (0x20 ≤ opc ∧ opc ≤ 0x2F)
/-- The horizon stage of an order, if it has one (R191). -/
def dHorizon (d : List Word) : Option Nat := (dStages d).find? fun k => isHorizon (dOpc d k)
/-- Stream B is indexed; a horizon stage's block never is (R191). -/
def dBIdx (d : List Word) : Bool := dXen d && (dXsel d == 1 || dXsel d == 3) && (dHorizon d).isNone
def dDIdx (d : List Word) : Bool := dXen d && dXsel d == 2

/-- The result type of a stage with first-operand type `t` (R167, R198). -/
def resType (e : DispEnt) (t : Nat) : Nat := if e.res = 0xF then domType (typeDom t) else e.res

/-- The first-operand type of stage k (R167). -/
def opndType (disp : Nat → DispEnt) (d : List Word) : Nat → Nat
  | 0 => dStype d
  | k + 1 => resType (disp (dOpc d k)) (opndType disp d k)

def lastRes (disp : Nat → DispEnt) (d : List Word) : Nat :=
  resType (disp (dOpc d (dLast d))) (opndType disp d (dLast d))

def isReducing (disp : Nat → DispEnt) (d : List Word) : Bool := (disp (dOpc d (dLast d))).cls == 3

/-! The rows of R141; each is true when the row refuses. -/

def row1 (d : List Word) : Bool := dRsv d != 0 || bitsGet (dW d 1) 14 2 != 0
def row2 (d : List Word) : Bool := !typeOk (dStype d) || !typeOk (dDtype d)
def row3 (disp : Nat → DispEnt) (d : List Word) : Bool :=
  (List.range 4).any fun k =>
    if k ≤ dNstg d then !(disp (dOpc d k)).valid
    else dOpc d k != 0 || dPan d k != 0 || dBsel d k != 0
def row4 (d : List Word) : Bool := (dStages d).any fun k => decide (dPan d k > 3)
def row5 (d : List Word) : Bool :=
  (dStages d).any fun k => (dStages d).any fun j => decide (j < k) && dPan d j == dPan d k
def row6 (disp : Nat → DispEnt) (d : List Word) : Bool :=
  ((dStages d).any fun k =>
    let e := disp (dOpc d k)
    let t := opndType disp d k
    !natBit e.types t ||
    ((dBsel d k == 1 || dBsel d k == 2) &&
      (!natBit e.types (dStype d) || !decide (typeDom t = typeDom (dStype d))))) ||
  !dtypeOk (lastRes disp d) (dDtype d) ||
  (decide (0x43 ≤ dOpc d (dLast d) ∧ dOpc d (dLast d) ≤ 0x46) && typeSize (dDtype d) != 4)
def row7 (disp : Nat → DispEnt) (d : List Word) : Bool :=
  (List.range (dNstg d)).any fun k => (disp (dOpc d k)).cls == 3
def row8 (disp : Nat → DispEnt) (d : List Word) : Bool :=
  ((dStages d).any fun k =>
    dBsel d k == 3 || (dBsel d k == 2 && k != 0) ||
    ((disp (dOpc d k)).ops2 && dBsel d k == 0) || (!(disp (dOpc d k)).ops2 && dBsel d k != 0) ||
    (isHorizon (dOpc d k) && dBsel d k != 1)) ||
  decide (((dStages d).filter fun k => dBsel d k == 1).length > 1)
def row9 (disp : Nat → DispEnt) (d : List Word) : Bool :=
  dXen d && (((dXsel d == 1 || dXsel d == 3) && !dUsesB d) || (dXsel d == 2 && isReducing disp d))
def row10 (d : List Word) : Bool :=
  dAaddr d % max 1 (typeSize (dStype d) / 2) != 0 || dDaddr d % max 1 (typeSize (dDtype d) / 2) != 0 ||
  (dUsesB d && dBaddr d % max 1 (typeSize (dStype d) / 2) != 0) ||
  ((dXen d || dMen d) && dAux d % 4 != 0)
def row11 (disp : Nat → DispEnt) (d : List Word) : Bool :=
  (dStages d).any fun k => (disp (dOpc d k)).cls == 2 && dLen d % 2 ^ (disp (dOpc d k)).glog != 0
def row12 (disp : Nat → DispEnt) (d : List Word) : Bool :=
  dDstr d == 0 && !isReducing disp d && !dDIdx d
def row13 (launched : Bool) (d : List Word) : Bool := launched && dFence d

/-- Any row of R141. -/
def badOrder (disp : Nat → DispEnt) (launched : Bool) (d : List Word) : Bool :=
  row1 d || row2 d || row4 d || row5 d || row3 disp d || row6 disp d || row7 disp d || row8 disp d ||
  row9 disp d || row10 d || row11 disp d || row12 disp d || row13 launched d

/-! The timing table (R208) and the cost of an order (R210 to R213). -/

def ttWord (tt : Nat → BitVec 128) (n i : Nat) : Nat := (tt n).toNat / 2 ^ (32 * i) % 2 ^ 32
def ttValid (tt : Nat → BitVec 128) (n : Nat) : Bool := natBit (ttWord tt n 0) 31
def ttSC (tt : Nat → BitVec 128) : Nat := natBits (ttWord tt 0 0) 16 8
def ttIW (tt : Nat → BitVec 128) : Nat := natBits (ttWord tt 0 0) 8 8
def ttLAT (tt : Nat → BitVec 128) : Nat := natBits (ttWord tt 0 0) 0 8
def ttCF (tt : Nat → BitVec 128) : Nat := natBits (ttWord tt 0 1) 8 8
def ttSG (tt : Nat → BitVec 128) : Nat := natBits (ttWord tt 0 1) 0 8
def ttTypes (tt : Nat → BitVec 128) (n : Nat) : Nat := natBits (ttWord tt n 0) 24 6
def ttSETUP (tt : Nat → BitVec 128) (n : Nat) : Nat := natBits (ttWord tt n 0) 16 8
def ttCPG32 (tt : Nat → BitVec 128) (n : Nat) : Nat := natBits (ttWord tt n 0) 8 8
def ttCPG64 (tt : Nat → BitVec 128) (n : Nat) : Nat := natBits (ttWord tt n 0) 0 8
def ttCHLAT (tt : Nat → BitVec 128) (n : Nat) : Nat := natBits (ttWord tt n 1) 16 8
def ttTAIL (tt : Nat → BitVec 128) (n : Nat) : Nat := natBits (ttWord tt n 1) 8 8
def ttKT (tt : Nat → BitVec 128) (n : Nat) : Nat := natBits (ttWord tt n 1) 0 8

/-- Reserved bits of an entry that are not 0 (R208, R209). -/
def ttReserved (tt : Nat → BitVec 128) (n : Nat) : Bool :=
  if n = 0 then
    natBits (ttWord tt 0 0) 24 7 != 0 || natBits (ttWord tt 0 1) 16 16 != 0 || ttWord tt 0 3 != 0
  else
    natBit (ttWord tt n 0) 30 || natBits (ttWord tt n 1) 24 8 != 0 || ttWord tt n 2 != 0 || ttWord tt n 3 != 0

/-- A stage without timing (R78). -/
def noTiming (disp : Nat → DispEnt) (tt : Nat → BitVec 128) (d : List Word) : Bool :=
  (dStages d).any fun k =>
    let o := dOpc d k
    !ttValid tt o || !natBit (ttTypes tt o) (opndType disp d k) ||
    ((dBsel d k == 1 || dBsel d k == 2) && !natBit (ttTypes tt o) (dStype d))

def unitStride (s : Int) : Bool := s == 1 || s == -1

/-- Port cycles of a stream per group when it is contiguous, else 0 (R210). -/
def portCyc (b : Nat) (contig : Bool) : Nat := if contig then ceilDiv b 4 else 0

/-- Stage k reads element-wise stream B. -/
def readsB (d : List Word) (k : Nat) : Bool := dBsel d k == 1 && !isHorizon (dOpc d k)

/-- NOUT of R211: the outputs of a reducing last stage. -/
def nOut (d : List Word) : Nat :=
  let k := if dParam d % 512 = 0 then 512 else dParam d % 512
  let o := dOpc d (dLast d)
  if o = 0x43 ∨ o = 0x44 then 2 else if o = 0x45 ∨ o = 0x46 then 2 * k else 1

def hpowSteps (d : List Word) (k : Nat) : Nat :=
  if 0x28 ≤ dOpc d k ∧ dOpc d k ≤ 0x2B then (if dParam d % 64 = 0 then 64 else dParam d % 64) else 1

/-- T of stage k (R211, R212). -/
def stageT (disp : Nat → DispEnt) (tt : Nat → BitVec 128) (d : List Word) (k : Nat) : Nat :=
  let o := dOpc d k
  let bs := typeSize (dStype d)
  let cpg := if typeDom (opndType disp d k) = .dbl then ttCPG64 tt o else ttCPG32 tt o
  let aC := !dAIdx d && unitStride (dAstr d)
  let bC := !dBIdx d && unitStride (dBstr d)
  let rc := (if k = 0 then portCyc bs aC + (if dXen d then 1 else 0) else 0) +
            (if readsB d k then portCyc bs bC else 0)
  let rs := (if k = 0 then b2n (!aC) else 0) + (if readsB d k then b2n (!bC) else 0)
  let dC := !dDIdx d && unitStride (dDstr d)
  let w := if k = dLast d && !isReducing disp d
           then (if dC then ceilDiv (typeSize (dDtype d)) 4 else ttSC tt) else 0
  max (max (cpg * hpowSteps d k) (ceilDiv rc 2 + ttSC tt * rs)) w

/-- BLK of stage k (R211). -/
def stageBlk (tt : Nat → BitVec 128) (d : List Word) (k : Nat) : Nat :=
  if isHorizon (dOpc d k) then
    let n := 2 ^ (dOpc d k % 4 + 1)
    let w := if unitStride (dBstr d) then ceilDiv (typeSize (dStype d)) 4 else ttSC tt
    ceilDiv (n * n) 16 * w + 16
  else 0

/-- TAILc of the last stage (R211). -/
def tailCost (disp : Nat → DispEnt) (tt : Nat → BitVec 128) (d : List Word) : Nat :=
  if isReducing disp d then
    let o := dOpc d (dLast d)
    let k := if dParam d % 512 = 0 then 512 else dParam d % 512
    let wD := if unitStride (dDstr d) then ceilDiv (typeSize (dDtype d)) 4 else ttSC tt
    ttTAIL tt o + ttKT tt o * ceilDiv k 16 + ceilDiv (nOut d) 16 * wD
  else 0

/-- nC of R211 over the whole order: contiguous streams, D, index vector and mask included. -/
def nContig (d : List Word) : Nat :=
  b2n (!dAIdx d && unitStride (dAstr d)) +
  (if dUsesB d && (dHorizon d).isNone then b2n (!dBIdx d && unitStride (dBstr d)) else 0) +
  b2n (!dDIdx d && unitStride (dDstr d)) +
  b2n (dXen d) + b2n (dMen d)

/-- The per-strip term SG + CF * nC + IW * indexed (R211). -/
def stripTerm (tt : Nat → BitVec 128) (d : List Word) : Nat :=
  ttSG tt + ttCF tt * nContig d + (if dAIdx d || (dUsesB d && dBIdx d) || dDIdx d then ttIW tt else 0)

def sumOver (l : List Nat) (g : Nat → Nat) : Nat := l.foldl (fun a k => a + g k) 0
def maxOver (l : List Nat) (g : Nat → Nat) : Nat := l.foldl (fun a k => max a (g k)) 0

/-- The start terms: SETUP and BLK of every stage, LAT once, CHLAT of every stage but the first (R211, R212). -/
def startCost (tt : Nat → BitVec 128) (d : List Word) : Nat :=
  sumOver (dStages d) (fun k => ttSETUP tt (dOpc d k) + stageBlk tt d k) + ttLAT tt +
  sumOver ((dStages d).drop 1) (fun k => ttCHLAT tt (dOpc d k))

/-- The cost of an order in CCLK (R211, R212). -/
def orderCost (disp : Nat → DispEnt) (tt : Nat → BitVec 128) (d : List Word) : Nat :=
  startCost tt d + ceilDiv (dLen d) 16 * maxOver (dStages d) (stageT disp tt d) +
  ceilDiv (dLen d) 256 * stripTerm tt d + tailCost disp tt d

/-- The bound of one strip of `n` elements (R214). -/
def stripBound (disp : Nat → DispEnt) (tt : Nat → BitVec 128) (d : List Word) (n : Nat) (first last : Bool) : Nat :=
  (if first then startCost tt d else 0) + ceilDiv n 16 * maxOver (dStages d) (stageT disp tt d) +
  stripTerm tt d + (if last then tailCost disp tt d else 0)

/-- The strip time of a timing entry (R213). -/
def stripTime (tt : Nat → BitVec 128) (n : Nat) : Nat :=
  16 * (if natBit (ttTypes tt n) 5 then ttCPG64 tt n else ttCPG32 tt n) + ttLAT tt + ttSG tt + 5 * ttCF tt + ttTAIL tt n

/-- Beats of one stream of `n` elements of `b` bytes (R79). -/
def streamBeats (n b : Nat) (contig : Bool) : Nat := if contig then ceilDiv (n * b) 64 + 1 else n

/-- The Saltern demand of an order (R79); a horizon stage's block is a stream of n*n elements (R191). -/
def orderDemand (disp : Nat → DispEnt) (d : List Word) : Nat :=
  let bs := typeSize (dStype d)
  let l := dLen d
  let nb := match dHorizon d with
    | some k => 2 ^ (dOpc d k % 4 + 1) * 2 ^ (dOpc d k % 4 + 1)
    | none => l
  let nd := if isReducing disp d then nOut d else l
  streamBeats l bs (!dAIdx d && unitStride (dAstr d)) +
  (if dUsesB d then streamBeats nb bs (!dBIdx d && unitStride (dBstr d)) else 0) +
  streamBeats nd (typeSize (dDtype d)) (!dDIdx d && unitStride (dDstr d)) +
  (if dXen d then ceilDiv (l * 4) 64 + 1 else 0) +
  (if dMen d then ceilDiv l 512 + 1 else 0)

/-! Addresses (R136, R137) and the overlap test (R152). -/

def elemAddr (addr : Nat) (str : Int) (b : Nat) (i : Nat) : Int := 2 * (addr : Int) + (i : Int) * str * (b : Int)
def idxAddr (d : List Word) (i : Nat) : Nat := 2 * dAux d + 4 * i
def maskAddr (d : List Word) (i : Nat) : Nat :=
  2 * dAux d + (if dXen d then 8 * ceilDiv (dLen d) 2 else 0) + i / 8

/-- The span of a strided stream over elements lo to hi. -/
def spanOf (addr : Nat) (str : Int) (b lo hi : Nat) : Int × Int :=
  let x := elemAddr addr str b lo
  let y := elemAddr addr str b hi
  (min x y, max x y + b - 1)

def spansMeet (x y : Int × Int) : Bool := decide (x.1 ≤ y.2 ∧ y.1 ≤ x.2)

def nStrips (d : List Word) : Nat := ceilDiv (dLen d) 256
def stripHi (d : List Word) (j : Nat) : Nat := min (256 * j + 255) (dLen d - 1)

/-- D exactly aliases a source of the given address and stride (R152). -/
def aliasesD (d : List Word) (addr : Nat) (str : Int) (idx : Bool) : Bool :=
  !idx && !dDIdx d && addr == dDaddr d && str == dDstr d && typeSize (dStype d) == typeSize (dDtype d)

/-- D of the order exactly aliases a source (PANp_BGSTAT.ALIAS). -/
def dAlias (d : List Word) : Bool :=
  aliasesD d (dAaddr d) (dAstr d) (dAIdx d) ||
  (dUsesB d && aliasesD d (dBaddr d) (dBstr d) (dBIdx d))

/-- Strip j of D meets a strip j2 ≥ j of a source whose strip spans are `sp`; a source of `ns` strips. -/
def meetsSource (d : List Word) (ns : Nat) (sp : Nat → Int × Int) : Bool :=
  (List.range (nStrips d)).any fun j =>
    (List.range ns).any fun j2 =>
      decide (j ≤ j2) &&
      spansMeet (spanOf (dDaddr d) (dDstr d) (typeSize (dDtype d)) (256 * j) (stripHi d j)) (sp j2)

/-- The overlap test of R152. -/
def overlaps (disp : Nat → DispEnt) (d : List Word) : Bool :=
  if isReducing disp d || dDIdx d then false
  else
    let bs := typeSize (dStype d)
    let strip := fun addr str j => spanOf addr str bs (256 * j) (stripHi d j)
    let a := !dAIdx d && !aliasesD d (dAaddr d) (dAstr d) false &&
      meetsSource d (nStrips d) (strip (dAaddr d) (dAstr d))
    let b := dUsesB d && !aliasesD d (dBaddr d) (dBstr d) (dBIdx d) &&
      (match dHorizon d with
       | some k =>
         let n := 2 ^ (dOpc d k % 4 + 1)
         meetsSource d 1 (fun _ => spanOf (dBaddr d) (dBstr d) bs 0 (n * n - 1))
       | none => !dBIdx d &&
         meetsSource d (nStrips d) (strip (dBaddr d) (dBstr d)))
    let x := dXen d && meetsSource d (nStrips d)
      (fun j => (((idxAddr d (256 * j) : Nat) : Int), ((idxAddr d (stripHi d j) + 3 : Nat) : Int)))
    let m := dMen d && meetsSource d (nStrips d)
      (fun j => (((maskAddr d (256 * j) : Nat) : Int), ((maskAddr d (stripHi d j) : Nat) : Int)))
    a || b || x || m

end Sys2Proof.Machine
end

