-- ==== Sys2Proof/Machine/State.lean ====
section
/-!
DEFINITION. Sys2Proof/Machine/State.lean: everything the spec gives the TG5120, as plain data.
Registers the spec places on register pages (R31, R34, R36) have ONE home, the register file `regs`, with the reset
values of the tables (RegTable.lean). The structures below hold what the spec gives the blocks and no register shows.
-/
namespace Sys2Proof.Machine

/-- Why a command stops. No command of this model stops: the spec gives every row of the table an effect. -/
inductive Fault where
  /-- Raised by nobody; the type keeps the host's interface. Safe. -/
  | unreachable
deriving DecidableEq, Repr

/-- Why a command is refused. -/
inductive Refusal where
  /-- A row of the table that has no meaning yet, by its mnemonic. Safe: nothing is claimed of it. -/
  | notModelled (mnemonic : String)
deriving DecidableEq, Repr

/-- An event record before it reaches its queue (R432): everything but SEQ and PHASE. -/
structure EvRec where
  ty : Nat
  page : Nat
  sev : Nat
  die : Die
  angle : Dword
  payload : List Byte
deriving DecidableEq, Repr

/-- What a pending EV_PEND bit will post: its severity and its payload (R568, R572). -/
structure EvPay where
  sev : Nat
  payload : List Byte
  angle : Option Nat                 -- ANGLE of the event, when it is not that of the record's post
deriving DecidableEq, Repr

/-- A pulse on an event channel that its consumers have not yet received (R409, R411): the channel, the FCYC at which
its consumers act, and the EVc_CFG word it is delivered under (R415). -/
structure Pulse where
  ch : Nat
  cyc : Nat
  due : Nat
  cfg : Word
deriving DecidableEq, Repr

/-- The grid tracker's last sample: its signed value, and the ANGLE and FCYC of its tick's boundary (R53). -/
structure GridSample where
  val : Int
  angle : Nat
  fcyc : Nat
deriving DecidableEq, Repr

/-- A grid crossing: its angle and the FCYC at which ANGLE reached it (R53). -/
structure Crossing where
  angle : Nat
  fcyc : Nat
deriving DecidableEq, Repr

/-- A fabric target waiting for its cycle count (R54, R472). -/
structure FabTarget where
  fcyc : Nat
  angle : Nat
deriving DecidableEq, Repr

/-- A span in which ANGLE moves at one speed: FCYC and position (ANGLE * 2^32 + sub-au bits) at its start, and the
units of 2^-32 au per CCLK (R46, R53). -/
structure RateSeg where
  fcyc : Nat
  pos : Nat
  rate : Nat
deriving DecidableEq, Repr

/-- The angle timebase beyond its registers (R46 to R60). -/
structure TbState where
  sub : Nat                          -- the 32 sub-au bits of ANGLE (R46)
  nCur : Nat                         -- N in effect; TB_N shows the last accepted write (R52)
  nPend : Option Nat                 -- an accepted TB_N waiting for the turn boundary (R52)
  started : Bool                     -- the first boundary since the enable was recognised (R51)
  ticks : Bool                       -- a tick boundary was recognised since the last launch point (R51, R87)
  sel : Nat                          -- the source selection in effect, from the last boundary (R59)
  lost : Bool                        -- holdover because the selected source was lost (R56, R60)
  integ : Int                        -- the filter's integral term, in 2^-32 au per CCLK (R55)
  req : Int                          -- the filter's requested rate (R55)
  hold : Int                         -- the holdover value of R56 and R59 when USEHOLD does not apply
  resel : Bool                       -- a write of TB_CTRL.SRC that ends a holdover waits for the boundary (R60)
  qual : Nat                         -- consecutive measurements inside LOCK_WIN (R56)
  ret : Nat                          -- consecutive good measurements toward the return of R60
  floorTicks : Nat                   -- consecutive ticks with the request at or below RATE_LIMIT (R58)
  slewEp : Bool                      -- a SLEW_LIMIT episode runs (R57)
  grid : Option GridSample           -- predecessor sample (R53)
  cross : Option Crossing            -- predecessor crossing (R53)
  gridRef : Int                      -- ANGLE of the last crossing or of the selection (R53)
  segs : List RateSeg                -- how ANGLE moved since the samples that a crossing may lie between (R53)
  tickAngle : Nat                    -- ANGLE at the present tick's boundary
  tickFcyc : Nat                     -- FCYC at the present tick's boundary
  fabOk : Bool                       -- a valid answer arrived in this interval (R54)
  fabMiss : Nat                      -- consecutive missing intervals (R54)
  fabTgts : List FabTarget           -- targets not yet latched, in order of arrival (R54, R472)
deriving DecidableEq, Repr

def TbState.reset : TbState :=
  { sub := 0, nCur := 20000, nPend := none, started := false, ticks := false, sel := 2, lost := false, integ := 0,
    req := 0, hold := 0, resel := false, qual := 0, ret := 0, floorTicks := 0, slewEp := false, grid := none, cross := none,
    gridRef := 0, segs := [], tickAngle := 0, tickFcyc := 0, fabOk := false, fabMiss := 0, fabTgts := [] }

/-- Timers, compare units and the event router beyond their registers (R402 to R417, R63 to R66). -/
structure EvState where
  acArmed : List (Nat × Bool)        -- unit n waits for its absolute value (R64)
  acLow : List (Nat × Word)          -- staged low half of ACn_CMP (R65)
  acCyc : List (Nat × Nat)           -- unit n: 1 + FCYC of its last match (R65, R66)
  acDefer : List (Nat × Bool)        -- unit n: an immediate match due at the next CCLK step (R65, R66)
  gtClr : List (Nat × Bool)          -- timer n goes to 0 at the next TCLK edge (R403, R407)
  gtCyc : List (Nat × Nat)           -- unit i of timer n, at 2n + i: 1 + FCYC of its last match (R405, R406)
  gtDefer : List (Nat × Bool)        -- unit 2n + i: an immediate match due at the next CCLK (R404, R405)
  gtCap : List (Nat × Bool)          -- timer n: an arrival of halt or sleep to be captured at the next step (R408)
  gtDrift : List (Nat × Bool)        -- LF_DRIFT already posted in this halt or sleep (R408)
  capCyc : List (Nat × Nat)          -- 1 + FCYC of timer n's last capture (R413)
  pulses : List Pulse                -- pulses not yet delivered (R411)
  cfgOld : List (Nat × Nat)          -- channel c: old EVc_CFG + 2^32 * (1 + FCYC of its write) (R415)
  genOld : List (Nat × Nat)          -- group g: old GEN + 2 * (1 + FCYC of its change by an action) (R414)
  genOff : List (Nat × Nat)          -- group g: 1 + FCYC of its last delivered disable (R414)
  genWr : List (Nat × Nat)           -- group g: 1 + FCYC of its last EGg_CTRL write (R414)
deriving DecidableEq, Repr

def EvState.reset : EvState :=
  { acArmed := [], acLow := [], acCyc := [], acDefer := [], gtClr := [],
    gtCyc := [], gtDefer := [], gtCap := [], gtDrift := [], capCyc := [], pulses := [], cfgOld := [], genOld := [],
    genOff := [], genWr := [] }

/-- A capability: 128 bits and a tag (R374). -/
structure Cap where
  tag : Bool
  bits : BitVec 128
deriving DecidableEq, Repr

def Cap.zero : Cap := ⟨false, 0⟩

/-- What the check bits of a stored byte would report (R112, R113): a corrected bit at the location SYND[4:0] names, or
an uncorrectable error. -/
inductive ByteErr where
  | ok
  | ce (loc : Nat)
  | ue
deriving DecidableEq, Repr

/-- A running fill: first beat, beats, beats already written (R130). -/
structure Fill where
  base : Nat
  len : Nat
deriving DecidableEq, Repr

/-- The Saltern beyond its registers (R103 to R130). Bytes 0 to 0x1FFFFFF are the store; byte 0x2000000 + 8i + b is
byte b of spare word i (R115). -/
structure SalState where
  mem : List (Nat × Byte)
  err : List (Nat × ByteErr)
  tag : List (Nat × Bool)            -- tag bit per 16-byte granule (R119)
  tagUe : List (Nat × Bool)          -- granules whose tag group is uncorrectable and that are not rewritten (R120)
  ceCnt : List (Nat × Nat)           -- correctable-error counter per bank (R112)
  cePosted : List (Nat × Bool)       -- CE_THRESH posted for the bank since its CECLR (R112)
  fill : Option Fill
  inflight : List (Nat × Nat)        -- requests in flight per master port (R122)
  peak : List (Nat × Nat)            -- their peak since reset (MX_OCNT)
deriving DecidableEq, Repr

def SalState.reset : SalState :=
  { mem := [], err := [], tag := [], tagUe := [], ceCnt := [], cePosted := [], fill := none, inflight := [],
    peak := [] }

/-- The states of a loop context (R70). -/
inductive CtxSt where
  | free | admitted | suspended | draining
deriving DecidableEq, Repr

/-- What admission records of a context's order list (R91): the chain term, each pan's unchained term, and the Saltern
demand of its orders. -/
structure Cost where
  chain : Nat
  p0 : Nat
  p1 : Nat
  p2 : Nat
  p3 : Nat
  salt : Nat
deriving DecidableEq, Repr

def Cost.zero : Cost := ⟨0, 0, 0, 0, 0, 0⟩

/-- A replacement that takes over at a tick boundary (R75). -/
structure CtxNext where
  tick : Nat
  desc : List Word
  cost : Cost
deriving DecidableEq, Repr

/-- One loop context of the retained store (R69 to R76). -/
structure Ctx where
  st : CtxSt
  desc : List Word                   -- the 16 descriptor words (R72)
  cost : Cost
  next : List CtxNext                -- REPLACEs that have not taken over, oldest first (R75)
  first : Option Nat                 -- first tick that may launch (R75)
  stop : Option Nat                  -- SUSPEND: no launch in this tick or later (R75)
  last : Option Nat                  -- DRAINING: the last launch tick, or the tick of release (R75)
  fromSusp : Bool                    -- removed from SUSPENDED (R76)
  misses : Nat                       -- consecutive abandoned launches (R93)
  cause : Nat                        -- cause of the abandonment that suspended it, 0 for SUSPEND (R93)
  eccErr : Bool                      -- its entry is uncorrectable (R71)
deriving DecidableEq, Repr

def Ctx.free : Ctx :=
  { st := .free, desc := [], cost := Cost.zero, next := [], first := none, stop := none, last := none,
    fromSusp := false, misses := 0, cause := 0, eccErr := false }

/-- A Crystallizer operation in progress (R73): its code, its context and the staged words it was started with. -/
structure CryOp where
  op : Nat
  ctx : Nat
  staged : List Word
deriving DecidableEq, Repr

/-- A launch in progress: the descriptor it started under, its orders and its task (R87 to R93). -/
structure Launch where
  ctx : Nat
  tick : Nat
  desc : List Word
  limit : Cost                       -- admitted values (R91)
  sum : Cost                         -- running sums (R91)
  next : Nat                         -- next list index to issue
  live : Nat                         -- issued orders not yet ended
  stopped : Bool                     -- no further order is issued (R91, R161)
  taskLeft : Bool                    -- its task has not ended
  dead : Bool                        -- abandoned
  cyc : Nat                          -- FCYC of its launch point
deriving DecidableEq, Repr

/-- The Crystallizer beyond its registers (R69 to R102). -/
structure CryState where
  ctx : List (Nat × Ctx)
  op : Option CryOp
  tt : List (Nat × BitVec 128)       -- Pan timing table (R208)
  ttStage : List (Nat × Word)        -- staged timing words
  launches : List Launch
  lateDone : Bool                    -- the slot's pan-done point was signalled
  lastLaunch : Nat                   -- FCYC of the last launch point (R214)
  lastTick : Nat                     -- TICKNO of the last launch point (R87)
  missed : List Nat                  -- contexts whose launch fell due in a freeze, with their frame tick (R574)
  frozeAt : Bool                     -- the freeze was in effect since the last boundary (R574)
deriving DecidableEq, Repr

def CryState.reset : CryState :=
  { ctx := [], op := none, tt := [], ttStage := [], launches := [], lateDone := false, lastLaunch := 0, lastTick := 0, missed := [],
    frozeAt := false }

/-- Where an order came from (R142, R144). -/
inductive OrdSrc where
  | launched (ctx tick index : Nat)
  | bg (core ticket seq : Nat)
deriving DecidableEq, Repr

/-- The reduction state of a reducing stage (R186 to R188, R204): the 16 partial lanes of the floating domains, the
exact total of the others, the rank list, the NaN elements met, and the flags raised (R180). -/
structure RedState where
  parts : List (Option Nat)
  total : Int
  rank : List (Nat × Nat)
  nans : List Nat
  fl : Nat
deriving DecidableEq, Repr

def RedState.empty : RedState := ⟨List.replicate 16 none, 0, [], [], 0⟩

/-- A Cloquel order with the copy of its descriptor and authority (R142, R144), its committed count, the next element to
process, its flags and the state it holds between strips (R202). -/
structure Order where
  src : OrdSrc
  desc : List Word
  cap : Cap
  done : Nat
  pos : Nat
  flags : Nat
  red : RedState
  coef : List Nat
deriving DecidableEq, Repr

/-- One pan's queues and work (R141 to R163). A chained order runs on its head pan (stage 0). -/
structure Pan where
  lq : List Order
  bq : List Order
  run : Option Order
  yielded : Option Order
  held : Option Order                -- the retained resume block (R158)
  yielding : Bool                    -- a launch point came while a background order ran (R146)
  stripAt : Nat                      -- FCYC at which the strip of the running order, its setup included, began (R214)
  first : Bool                       -- no strip has committed since the order was started or continued (R214)
  go : Bool                          -- the strip has started: it passed a test of R214, or the order is a launched one
deriving DecidableEq, Repr

def Pan.empty : Pan := ⟨[], [], none, none, none, false, 0, true, false⟩

/-- A control-store word or dispatch entry that reads uncorrectable in the copy of one pan, with the opcode and the START
of the routine that reached it (R201). -/
structure CsUe where
  pan : Nat
  addr : Nat
  opc : Nat
  start : Option (BitVec 14)
  synd : Nat
deriving DecidableEq, Repr

/-- The Pan engine and its control store beyond their registers (R132 to R217). -/
structure PanState where
  pans : List (Nat × Pan)
  chainq : List Order
  ticket : List (Nat × Nat)          -- last ticket per core (R145)
  seq : List (Nat × Nat)             -- background orders issued per core (R154)
  unread : List (Nat × Nat)          -- unread records per ring (R145)
  dispatch : List (Nat × DispEnt)     -- entries that differ from the base store (R199)
  overlay : List (Nat × BitVec 128)  -- overlay words: word i of pan p's copy under 1024 p + i (R200)
  pdata : List (Nat × Word)          -- staged overlay words (R217)
  ddata0 : Word                      -- staged dispatch word (R217)
  csUe : List CsUe                   -- words that read uncorrectable until rewritten (R201)
  csPosted : Bool                    -- CS_CE posted since CECLR (R201)
deriving DecidableEq, Repr

def PanState.reset : PanState :=
  { pans := [], chainq := [], ticket := [], seq := [], unread := [], dispatch := [], overlay := [], pdata := [], ddata0 := 0,
    csUe := [], csPosted := false }
/-! The Sluice, the queue engine, the Tally journal, time fabric and harvest groups (R419 to R483). -/

/-- A request of a debugger (R490, R533, R537). -/
inductive DbgReq where
  | halt (n : Nat)
  | resume (n : Nat)
  | step (n : Nat)
  | readReg (n : Nat) (r : CoreReg)
  | writeReg (n : Nat) (r : CoreReg) (v : List Byte)
  | readMem (a len : Nat)
  | writeMem (a : Nat) (bs : List Byte)
  | reboot
  | challenge
  | unlock (scope slot : Nat) (pub sig : List Byte)
deriving DecidableEq, Repr

/-- The messages that cross the Sluice (R457); a resync request asks for the entries of one queue or of all (R446, R448),
and a report gives an entry with its outcome, if settled. -/
inductive Msg where
  | cmd (q : Nat) (entry : List Byte)
  | jack (q cseq idx ta angle : Nat)
  | notice (idx : Nat)
  | release (idx : Nat)
  | outcome (q cseq idx status angle tick : Nat)
  | event (q : Nat) (r : EvRec)
  | tel (angle tick : Nat) (bytes : List Byte)
  | harvest (bytes : List Byte)
  | timeF (fcyc angle tick rate n stat : Nat)
  | timeH (fcyc angle : Nat) (valid : Bool)
  | resyncReq (q : Option Nat)
  | report (idx q cseq ta angle : Nat) (entry : List Byte) (out : Option (Nat × Nat × Nat))
  | resyncEnd
  | debugReq (r : DbgReq)
  | debugRep (bytes : List Byte)
deriving DecidableEq, Repr

/-- A data cell: its SEQ, its place in its message, and the message it is part of (R454, R458). -/
structure SlCell where
  seq : Nat
  part : Nat
  parts : Nat
  msg : Msg
deriving DecidableEq, Repr

/-- One class in one direction at its sender: the next SEQ, and the cells not yet acknowledged, oldest first. The first
64 of them are on the lanes, the rest wait (R458). -/
structure SlTx where
  next : Nat
  cells : List SlCell
deriving DecidableEq, Repr

/-- A second copy of a cell that is still to be sent, on another pair than the first (R457); `key` is its class. -/
structure SlCopy where
  key : Nat
  cell : SlCell
  pair : Nat
deriving DecidableEq, Repr

/-- The senders of both directions (R458, R461): the data cell that each lane carries (lane p of direction dir has key
dir*4+p) with the key of its class, how many of a class's cells have been started since they were last sent from the oldest,
the copies due, and the class each rank of a direction took last. -/
structure SlLanes where
  fly : List (Nat × Option (Nat × SlCell))
  sent : List (Nat × Nat)
  again : List SlCopy
  rot : List (Nat × Nat)
deriving DecidableEq, Repr

def SlLanes.reset : SlLanes := ⟨[], [], [], []⟩

/-- One class in one direction at its receiver: the SEQ next expected and the cells held ahead of a gap (R459). -/
structure SlRx where
  exp : Nat
  held : List SlCell
deriving DecidableEq, Repr

/-- The Sluice beyond its registers. Direction 0 is F to H, 1 is H to F; a class of a direction has key dir*16+class. -/
structure SlState where
  tx : List (Nat × SlTx)
  rx : List (Nat × SlRx)
  lanes : SlLanes
  inF : List Msg                     -- messages delivered to the F side and not yet taken by their receiver
  inH : List Msg
  initF : Bool                       -- the F side has sent INIT and has no INIT_ACK
  initH : Bool
  fell : List (Nat × Nat)            -- pair i: 1 + FCYC at which it last fell to DOWN, 0 where it did not fall (R455)
  code : List (Nat × Nat)            -- link code c to die d: 1 + FCYC of the last copy acted on (R454)
  evLost : Nat                       -- records dropped since the Sluice went down (R464)
  timeWait : Option Nat              -- FCYC of a TIME message created while no pair was UP (R464)
  timeLast : Nat                     -- FCYC of the last TIME message (R468)
  shReal : Nat                       -- what the H-die's copy of ANGLE would be without the hold of R469
  shTick : Nat
  shSub : Nat
  shRate : Nat
  shN : Nat
  telBuf : List Byte                 -- SH_TELBUF
deriving DecidableEq, Repr

def SlState.reset : SlState :=
  { tx := [], rx := [], lanes := SlLanes.reset, inF := [], inH := [], initF := false, initH := false, fell := [], code := [],
    evLost := 0, timeWait := none, timeLast := 0, shReal := 0, shTick := 0, shSub := 0, shRate := 0, shN := 20000, telBuf := [] }

/-- The states of a command at the queue engine (R437); `dup` is a duplicate that waits for its original (R436). -/
inductive QSt where
  | fetched | sent | committed | accepted | completed | dup
deriving DecidableEq, Repr

/-- A command the queue engine holds. -/
structure QCmd where
  cseq : Nat
  st : QSt
  slot : Option Nat                  -- count of its SQ entry; none for one restored from the journal
  entry : List Byte
  idx : Nat                          -- journal index, once committed
  ta : Nat
  angle : Nat                        -- ANGLE at the journal commit
  cqPos : Nat                        -- count of its COMPLETE record, once completed
  rep : Nat                          -- bit 0: ACCEPT carries REPLAY; bit 1: COMPLETE does (R446, R448)
deriving DecidableEq, Repr

/-- One queue slot of the queue engine's state store (R423). -/
structure Queue where
  st : Nat                           -- 0 ABSENT, 1 ACTIVE, 2 ERROR
  ty : Nat                           -- 1 command, 2 event
  err : Nat                          -- 1 SEQ_GAP, 2 BAD_ENTRY, 3 FETCH_ERR
  sqBase : Nat
  cqBase : Nat
  sqLog : Nat
  cqLog : Nat
  vec : Nat
  fetch : Nat
  sqTail : Nat
  cqHead : Nat
  cqTail : Nat
  h : Nat
  resv : Nat
  armed : Bool
  seq : Nat
  drop : Nat                         -- the count QE_EQDROP shows
  dropSeq : Nat                      -- SEQ of the first record dropped since the last OVERFLOW record
  dropNew : Nat                      -- records dropped since the last OVERFLOW record
  cmds : List QCmd                   -- oldest first
deriving DecidableEq, Repr

def Queue.absent : Queue :=
  { st := 0, ty := 0, err := 0, sqBase := 0, cqBase := 0, sqLog := 0, cqLog := 0, vec := 0, fetch := 0, sqTail := 0,
    cqHead := 0, cqTail := 0, h := 0, resv := 0, armed := false, seq := 0, drop := 0,
    dropSeq := 0, dropNew := 0, cmds := [] }

/-- What leaves the device. -/
inductive Out where
  | hostWrite (addr : Nat) (bytes : List Byte)      -- queue records (R420)
  | msix (vec addr data : Nat)                      -- MSI-X message (R428)
  | trainSets (port lane first n : Nat)              -- n training sets, the first with STAMP first mod 256 (R222)
  | cmdFrame (port lane tick : Nat) (bytes : List Byte)  -- Brine command frame (R237)
  | tick (port lane tick : Nat)                     -- TICK symbol of tick's boundary (R227)
  | pairFrame (tick : Nat) (bytes : List Byte)      -- pair-link frame (R497)
  | eth (port dst udp : Nat) (bytes : List Byte)    -- a UDP/IPv6 datagram to an address and a UDP port (R476)
  | debug (bytes : List Byte)                       -- debug reply
  | readData (master : Nat) (bytes : List Byte)     -- data returned to a master that is no core
deriving DecidableEq, Repr

/-- A queue operation in progress (R424). -/
structure QOp where
  op : Nat
  q : Nat
  res : Nat
  new : Option Queue                 -- the queue that CREATE_CMD makes (R448)
deriving DecidableEq, Repr

/-- The queue engine and the PCIe endpoint beyond their registers. -/
structure QeState where
  queues : List (Nat × Queue)
  op : Option QOp
  msix : List (Nat × Word)           -- page 0x12, by word offset (R421)
  d3hot : Bool                       -- the function is in D3hot (R419)
  linkUp : Bool
  relSent : List Nat                 -- journal entries this queue engine released (R446 step 4)
  turn : Nat                         -- the queue of the last fetch turn (R435)
  left : Nat                         -- consecutive entries that turn may still read (R435)
deriving DecidableEq, Repr

def QeState.reset : QeState :=
  { queues := [], op := none, msix := [], d3hot := false, linkUp := false, relSent := [], turn := 65535, left := 0 }

/-- What the F-die holds of an occupied journal entry beyond the entry itself (R96, R442, R443, R447, R449). -/
structure JInfo where
  noticed : Bool
  ta : Nat
  angle : Nat                        -- ANGLE at the commit
  bound : Nat                        -- B of R439
  age : Nat                          -- counted ticks since t_a
  byDl : Bool                        -- rebuilt from the journal: its bound ends when ANGLE reaches DL * 2^16
  held : Bool                        -- held until RELEASE (R449)
  seq : Nat                          -- its place in the order of journal commits, from 1; 0: not known (R95)
  skip : Nat                         -- ticks not counted toward the bound of a rebuilt entry (R442, R449)
  verdict : Option Bool              -- at its first eligible tick its target was valid, or not (R99)
  fcyc : Nat                         -- FCYC of the commit (R100)
  oAngle : Nat                       -- ANGLE and tick of its outcome
  oTick : Nat
deriving DecidableEq, Repr

/-- An MRAM journal write in progress (R440, R441). -/
structure JWrite where
  idx : Nat
  mark : Bool                        -- a settle mark, else a commit write
  bytes : List Byte
  q : Nat
  start : Nat                        -- FCYC at its start
  tick : Nat                         -- tick of the launch point of a settle mark for APPLIED
deriving DecidableEq, Repr

/-- The Tally journal beyond its registers and its MRAM. -/
structure TjState where
  last : Nat                         -- entry last committed (R440)
  seq : Nat                          -- commits and rebuilt entries so far (R95)
  info : List (Nat × JInfo)
  writes : List JWrite
  launched : List (Nat × Nat)        -- (tick, context) launched at points whose settle marks may run (R441)
  released : Bool                    -- TJ_CTRL.RELEASE was performed since the cold power-up (R449)
  replayOk : Bool                    -- no replay since the cold power-up
  frozen : Bool                      -- the Crystallizer was frozen since the last boundary (R574)
deriving DecidableEq, Repr

def TjState.reset : TjState :=
  { last := 16383, seq := 0, info := [], writes := [], launched := [], released := false, replayOk := true, frozen := false }

/-- A PLAN a node holds (R477 to R480). -/
structure Plan where
  node : Nat
  round : Nat
  total : List Int
  members : Nat
  addr : Nat                         -- the IPv6 address it came from (R476)
deriving DecidableEq, Repr

/-- An ALLOC a node holds (R481, R482). -/
structure Alloc where
  round : Nat
  scale : List Nat
  members : Nat
deriving DecidableEq, Repr

/-- The PTP clock and the harvest node (R470 to R482). -/
structure FabState where
  time : Nat                         -- PTP time in units of 1 / (192 * 2^32) ns
  stamps : List (Nat × Nat)          -- the last 16 stamps: FCYC and PTP ns (R470)
  good : Nat                         -- consecutive offsets within PT_LOCKWIN (R475)
  answer : Bool                      -- a time message waits for its answer
  plans : List Plan
  prev : List Nat                    -- nodes that sent a PLAN in the last round
  alloc : Option Alloc
  inbox : Option Nat                 -- the last round whose inbox record was sent
deriving DecidableEq, Repr

def FabState.reset : FabState :=
  { time := 0, stamps := [], good := 0, answer := false, plans := [], prev := [], alloc := none, inbox := none }

/-! Brine ports, the Rake, the duplex pair, power, security and the service panel (R218 to R274, R484 to R551). -/

/-- One Brine lane beyond BLn_LSTAT. -/
structure Lane where
  locked : Bool                      -- entered LOCK since EN (R225 counts the later entries)
  answers : Nat                      -- training sets answered since TRAIN (R222)
  rtd : Nat                          -- largest of them, ns
  ident : Option (List Byte)         -- the last valid identity frame (R224)
  identTick : Nat                    -- TICKNO at the entry to IDENT
  miss : Nat                         -- consecutive ticks without a valid sample frame (R221)
  fell : Option Nat                  -- TICKNO of a fall for a timed cause (R225)
  down : Nat                         -- the cause it is DOWN for; 0 when EN or LANEMODE put it there
  trainAt : Nat                      -- FCYC at the entry to TRAIN
  sets : Nat                         -- training sets sent since then (R222)
deriving DecidableEq, Repr

def Lane.reset : Lane :=
  { locked := false, answers := 0, rtd := 0, ident := none, identTick := 0, miss := 0, fell := none, down := 0, trainAt := 0,
    sets := 0 }

/-- One Brine port beyond its registers and lanes. -/
structure BPort where
  lop : Nat                          -- LOP written and not yet sent: 1 GRANT, 2 RELEASE (R244)
  lopNew : Bool                      -- it was written after the last latch
  last : Option (List Byte)          -- the last judged frame (R258)
  lastTick : Nat                     -- its tick
  valid : Nat                        -- 1 + tick of the last valid frame
  noted : Nat                        -- 1 + tick whose landing has been written
  pvalid : Nat                       -- 1 + tick of the valid frame before, and that frame
  plast : Option (List Byte)
  lbits : Nat                        -- LSTATUS of a tick without a valid frame so far
  buf : Option (List Byte)           -- command buffer read at 540 ns; none if it read uncorrectable (R239)
  latched : Nat                      -- 1 + tick in which the buffer and BLn_LEASE were latched
  latLop : Nat                       -- the LOP latched
  latEpoch : Nat
  latArmed : Bool
  latStop : Bool
  sent : Nat                         -- 1 + tick of the last command frame sent
  blocks : List Nat                  -- the phase blocks of that frame
  tMask : List Nat                   -- a self-test result that acts on the next frame: masks per local phase (R273)
  tBank : Nat                        -- the bank it was judged against
  tUsed : List Nat                   -- the self-test result that acts on the frame of `sent`
  povr : List (Nat × Nat)            -- per local phase: overridden fields + 2^16 * source, of the last frame
deriving DecidableEq, Repr

def BPort.reset : BPort :=
  { lop := 0, lopNew := false, last := none, lastTick := 0, valid := 0, noted := 0, pvalid := 0, plast := none, lbits := 0, buf := none, latched := 0,
    latLop := 0, latEpoch := 0, latArmed := false, latStop := false, sent := 0, blocks := [], tMask := [], tBank := 0,
    tUsed := [], povr := [] }

structure BrineState where
  lanes : List (Nat × Lane)          -- key 2 * port + lane
  ports : List (Nat × BPort)
  closed : Nat                       -- 1 + tick of the last close of the command area (R239)
deriving DecidableEq, Repr

/-- A hold request the Rake carries out (R267): its cause, subject and context, phases lo to lo + n - 1, the fields of
`mask`, and the ticks of the first held frame and of the first frame no longer held. -/
structure Hold where
  cause : Nat
  subj : Nat
  ctx : Nat
  lo : Nat
  n : Nat
  mask : Nat
  first : Nat
  stop : Option Nat
deriving DecidableEq, Repr

/-- The Rake beyond its registers (R256 to R273). Rule entry i of physical bank b has key 4096 * b + i, phase entry p
key 512 * b + p. -/
structure RakeState where
  rules : List (Nat × BitVec 128)
  phases : List (Nat × BitVec 128)
  ueRule : List (Nat × Bool)         -- entries that read uncorrectable
  uePhase : List (Nat × Bool)
  stage : List (Nat × Word)          -- staging words (R271)
  cnt : List (Nat × Nat)             -- persistence counts of the ACTIVE bank's rules
  trip : List (Nat × Bool)           -- tripped rules
  lsafe : List (Nat × Nat)           -- latch masks per phase (R262)
  lalt : List (Nat × Nat)
  lmin : List (Nat × Nat)
  unlatch : List Nat                 -- phases whose latch masks clear at the next boundary; 512 means all
  holds : List Hold
  dyn : List (Nat × Nat)             -- dynamic word of phase p read this tick (R265)
  dynUe : List (Nat × Bool)          -- dynamic words (buffer * 512 + phase) that read uncorrectable (R266)
  enEff : Bool                       -- EN at the last boundary (R264)
  swapAt : Nat                       -- FCYC of the SWAP request
  posted : List (Nat × Nat)          -- 1 + tick of the last TRIP record per phase (R274)
  test : Option (List Nat)           -- result of a running self-test, masks per local phase (R273)
  testPort : Nat
  testBank : Nat
  testDo : Bool
deriving DecidableEq, Repr

def RakeState.reset : RakeState :=
  { rules := [], phases := [], ueRule := [], uePhase := [], stage := [], cnt := [], trip := [], lsafe := [],
    lalt := [], lmin := [], unlatch := [], holds := [], dyn := [], dynUe := [], enEff := false,
    swapAt := 0, posted := [], test := none, testPort := 0, testBank := 0, testDo := false }

/-- Lockstep pairs and the duplex pair beyond their registers (R484 to R505). -/
structure DupState where
  recTick : List (Nat × Option Nat)  -- tick of a core's last recovery (R489)
  stopCyc : List (Nat × Nat)         -- FCYC of a core's stop
  recCyc : List (Nat × Nat)          -- FCYC of its last recovery (R488)
  inject : Nat                       -- cores whose next output is inverted (R505)
  good : Nat                         -- consecutive ticks with a valid pair frame (R499)
  chk : Nat                          -- 1 + tick whose missing frame was counted
  got : Nat                          -- 1 + tick of the last valid pair frame
  sent : Nat                         -- 1 + tick of the last pair frame sent
  oDigest : Nat                      -- the DIGEST sent in it
  join : Bool                        -- JOIN waits for a frame (R500)
  pDigest : Nat                      -- partner's DIGEST of the frame of `got`, until compared
  pWait : Bool
  pRelay : Nat                       -- partner's RELAY bits
  fell : Nat                         -- 1 + FCYC at which the pair link's lane fell to DOWN (R455, R497)
deriving DecidableEq, Repr

def DupState.reset : DupState :=
  { recTick := [], stopCyc := [], recCyc := [], inject := 0, good := 0, chk := 0, got := 0, sent := 0, oDigest := 0,
    join := false, pDigest := 0, pWait := false, pRelay := 0, fell := 0 }

/-- The power states of the F-die (R516). -/
inductive PwrMode where
  | run | halt | sleep
deriving DecidableEq, Repr

/-- Supplies, power states and resets beyond their registers (R506 to R523). -/
structure PwrState where
  mode : PwrMode
  dipAngle : Nat                     -- ANGLE of the fall of VDDF (R510)
  hDipAngle : Nat
  held : Bool                        -- the dip held phases (R510)
  warm : Bool                        -- the compute section is in reset (R519)
  logic : Option Nat                 -- tick of a control-logic mismatch: no command frame after it (R494)
  woke : Bool                        -- a pulse reached WAKECH in HALT or SLEEP (R517)
  hOff : Bool                        -- the H side's Sluice transmitters are stopped (R517)
deriving DecidableEq, Repr

def PwrState.reset : PwrState :=
  { mode := .run, dipAngle := 0, hDipAngle := 0, held := false, warm := false, logic := none, woke := false, hOff := false }

/-- An OTP program in progress (R535). -/
structure OtpOp where
  what : Nat                         -- 0 REVOKE, 1 DREVOKE, 2 SVNBUMP, 3 LCADV
  arg : Nat
deriving DecidableEq, Repr

/-- An attestation request at the security block (R539). -/
structure AttReq where
  ident : Bool                       -- IDENTITY rather than ATTEST
  cseq : Nat
  nonce : List Byte
  q : Nat
deriving DecidableEq, Repr

/-- The security block beyond its registers: OTP and the debug agent's session (R526 to R541). -/
structure SecState where
  lc : Nat                           -- LC of the OTP, governing from the next cold boot
  otp : Option OtpOp
  nonce : Option (List Byte)
  fails : Nat
  scope : Nat
  att : List AttReq
  prot : Option Nat                  -- write-protected slot (R531)
  svn : Nat                          -- SVN and key slot of the running image
  key : Nat
  rngUp : Bool                       -- the start-up tests have passed
  erased : Bool                      -- DIKSEED reads all ones (R536)
deriving DecidableEq, Repr

def SecState.reset : SecState :=
  { lc := Config.otpLc.toNat, otp := none, nonce := none, fails := 0, scope := 0, att := [], prot := none, svn := 0,
    key := 0, rngUp := false, erased := false }

/-- The service panel beyond its registers (R543 to R549). -/
structure PanelState where
  held : Bool                        -- BTN_HOLD posted for this press (R544)
  touch : List (Nat × Option Nat)    -- time in ms of electrode e's last touch (R545)
  led0 : Bool                        -- IDENTIFY blinks LED0 (R545)
  toggle : Bool                      -- an IDENTIFY during a lamp test waits (R548)
  mode : List (Nat × Nat)            -- mode written during a lamp test (R548)
deriving DecidableEq, Repr

def PanelState.reset : PanelState := { held := false, touch := [], led0 := false, toggle := false, mode := [] }

/-! The Essan cores (R275 to R401). -/

/-- Where a result goes: a w register by its physical place, an f register, a predicate, a capability register, or
STATUS bits. -/
inductive Dst where
  | w (key : Nat)
  | f (i : Nat)
  | p (i : Nat)
  | c (i : Nat)
  | stat
deriving DecidableEq, Repr

/-- A result that later bundles will read (R327): the bundles still to issue before it is read, and the bits of `val`
that it writes. A capability is its 128 bits, and its tag as bit 128. -/
structure PendW where
  left : Nat
  dst : Dst
  val : Nat
  mask : Nat
deriving DecidableEq, Repr

/-- What a pending global read delivers (R286, R357). -/
inductive LKind where
  | int (sz : Nat) (k1 k2 : Nat)     -- R295
  | fp (sz : Nat) (i : Nat)          -- R296
  | cap (i : Nat)                    -- KLD
  | ldw (k1 k2 : Nat)                -- LDW
  | panq (k : Nat) (auth : Cap)      -- PANQ: ticket register, authority
deriving DecidableEq, Repr

/-- A pending global read: its physical address and size, its kind, and the bundles issued since. -/
structure PLoad where
  pa : Nat
  size : Nat
  kind : LKind
  age : Nat
  early : Option (List Byte × Bool)  -- bytes and tag as they were before a later store of the core (R279, R287)
  cuts : List (Dst × Nat)            -- bits of its destinations that a later write has taken (R279, R328)
deriving DecidableEq, Repr

/-- A division in progress (R310 to R312): its window-file entries or global registers, results and flag. -/
structure PDiv where
  k1 : Nat
  k2 : Nat
  q : Nat
  r : Nat
  flags : Nat
  due : Nat
  m1 : Nat                           -- the bits of k1 and of k2 that it still writes (R328)
  m2 : Nat
deriving DecidableEq, Repr

/-- An FDIV or FSQRT in progress (R327, R357). -/
structure PFdiv where
  i : Nat
  dbl : Bool
  sqrt : Bool
  a : Nat
  b : Nat
  rnd : Nat
  due : Nat
  age : Nat                          -- bundles issued since
  mute : Bool                        -- a later WRSTAT discards its flags (R328)
  mask : Nat                         -- the bits that it still writes (R328)
deriving DecidableEq, Repr

/-- An entry of a replay list (R357). -/
inductive Replay where
  | read (l : PLoad)
  | fdiv (d : PFdiv)
deriving DecidableEq, Repr

/-- The kinds of transfer (R298). -/
inductive XKind where
  | br | call | jr | callr | ret
deriving DecidableEq, Repr

/-- A transfer whose delay slot has not issued (R298, R370). -/
structure Xfer where
  kind : XKind
  addr : Nat                         -- the transfer bundle's address
  taken : Bool
  target : Nat
  annul : Bool                       -- the delay slot executes nothing
  again : Bool                       -- issued a second time (R370)
deriving DecidableEq, Repr

/-- The registers of the hardware loops that the end test reads (R301). -/
structure LoopRegs where
  lstart : List (Nat × Nat)
  lend : List (Nat × Nat)
  lctl : Word
deriving DecidableEq, Repr

/-- A bundle of the fetch queue; the loop registers as they were when it was fetched, where a WRSYS has changed them since
(R329). -/
structure QBundle where
  syls : List Syl
  loops : Option LoopRegs
deriving DecidableEq, Repr

/-- A line buffer (R333): the physical line and its 64 bytes, none for one that read uncorrectable. -/
structure LineBuf where
  line : Nat
  bytes : List (Option Byte)
deriving DecidableEq, Repr

/-- A line fill on its way (R333 to R336): 0 a demand, 1 a prefetch, 2 a demand of a bundle that never issues. -/
structure CoreFill where
  line : Nat
  kind : Nat
  taken : Bool                       -- accepted by the source
deriving DecidableEq, Repr

/-- A repeated bundle (R304 to R306). -/
structure Rep where
  ni : Bool
  left : Nat
  addr : Nat                         -- the REP bundle's address
  body : Option QBundle              -- none until the next bundle arrives
  bodyAt : Nat                       -- that bundle's address
deriving DecidableEq, Repr

/-- What a core waits for (R308, R309). -/
inductive Wait where
  | evw (limit : Option Nat)         -- FCYC at which the limit passes
  | angle (target addr : Nat)
  | tick (target addr : Nat)
deriving DecidableEq, Repr

/-- One level of the trap save bank (R359). -/
structure SaveLevel where
  epc : Nat
  estat : Word
  epcc : Cap
  cause : Word                       -- ECAUSE without NREPLAY
  einfo : Nat
  ebtgt : Nat
  gie : Bool
  ni : Bool                          -- the interrupted code was an NI handler
  nib : Nat
  replay : List Replay
deriving DecidableEq, Repr

/-- The double-fault slot (R367). -/
structure DfSlot where
  pc : Nat
  stat : Word
  pcc : Cap
  c15 : Cap
  cause : Nat
  info : Nat
  gie : Bool
  replay : List Replay               -- the operations abandoned at its entry (R357, log 91)
deriving DecidableEq, Repr

/-- A native translation block (R386, R401). -/
structure Blk where
  vb : Nat
  len : Nat
  pb : Nat
  attr : Word
deriving DecidableEq, Repr

/-- A TLB entry, as the window registers hold it (R390, R401). -/
structure TlbEnt where
  va : Nat
  pa : Nat
  attr : Word
deriving DecidableEq, Repr

/-- A received invalidation (R396): kind, address, ASID, and the core that issued it. -/
structure Tlbi where
  kind : Nat
  arg : Nat
  asid : Nat
  src : Nat
deriving DecidableEq, Repr

/-- An entry of the branch-target buffer (R337). -/
structure BtbEnt where
  tag : Nat
  target : Nat
  kind : Nat                         -- 0 BR or CALL, 1 JR or CALLR, 2 RET
  cnt : Nat
deriving DecidableEq, Repr

/-- A task of the running task group (R89, R362). -/
structure Task where
  ctx : Nat
  tick : Nat
  used : Nat                         -- CCLK counted against TBUDGET (R90)
  budget : Nat
  beats : Nat                        -- Saltern beats used, and admitted
  tbeats : Nat
  cap : Cap                          -- TCAP
deriving DecidableEq, Repr

/-- One Essan core: E0 to E3 are cores 0 to 3, the steward S0 is core 4. The checker of a core holds the same state
(R484), so it is held once. -/
structure Core where
  pc : Nat
  asm : List Syl                     -- syllables of the bundle that is arriving
  fq : List QBundle                  -- bundles that have arrived and wait for issue (R332)
  w : List (Nat × Word)              -- key i < 8 is wi, key 16 + e is entry e of the window file (R281)
  f : List (Nat × Dword)
  p : List (Nat × Byte)
  c : List (Nat × Cap)
  sc : List (Nat × Cap)              -- WSCAP, EXCAP, DFCAP, ESTKCAP (R378)
  pcc : Cap
  status : Word
  bank : Word
  wb : Nat
  wres : Nat
  wsoff : Nat
  lstart : List (Nat × Nat)
  lend : List (Nat × Nat)
  lcnt : List (Nat × Nat)
  lctl : Word
  tbase : Nat
  gie : Bool
  iovr : Bool
  ien : Nat
  ipend : Nat                        -- bits 15:0 IRQ lines, bit 16 LAUNCH (R354)
  ni : Bool                          -- an NI handler runs (EXS.NIACT)
  nib : Nat                          -- its budget
  span : Nat                         -- EXS.NISPAN
  dfvec : Word
  df : Option DfSlot                 -- EXS.DFACT
  dfLast : DfSlot                    -- what DFPC, DFCAUSE and DFINFO show
  sb : List SaveLevel                -- top first
  blkMode : Nat
  adtrack : Bool
  asid : Nat
  xbadva : Nat
  tlbIdx : Nat
  tlbMiss : Bool
  tlbNext : Nat
  tlbVa : Nat
  tlbPa : Nat
  tlbAttr : Word
  blk : List (Nat × Blk)
  tlb : List (Nat × TlbEnt)
  tlbq : List Tlbi
  btb : List (Nat × BtbEnt)
  ras : List (Nat × Nat)             -- the 8 entries of the return stack (R338)
  rasTop : Nat                       -- the entry on top
  rasDepth : Nat                     -- entries in use
  rasWrong : Option (Nat × Nat)      -- top and depth on the wrong path under way
  lines : List LineBuf               -- line buffers, most recently used first (R333)
  fills : List CoreFill
  pend : List PendW
  loads : List PLoad
  div : Option PDiv
  fdivs : List PFdiv
  xfer : Option Xfer
  redo : Option Xfer                 -- the recorded transfer of a resumed delay slot (R370)
  rep : Option Rep
  repOff : Option Nat                -- address of a REP bundle that issued and repeats nothing (R304)
  wait : Option Wait
  group : List Task                  -- head runs
  waiting : List Task                -- tasks of groups not yet started
  overran : Option Nat                  -- context of a task of the running group stopped under R90
  gwb : Nat                          -- window base of the handler frame of the group (R362)
  gdep : Nat                         -- levels in use when the group started, its own included
  gdf : Bool                         -- DFACT when the group started
  issued : Bool                      -- a bundle has issued since the last CCLK (R350)
  halted : Bool
  step : Bool                        -- a debug STEP lets one bundle issue (R490)
  evfCyc : Nat                       -- 1 + FCYC of the last arrival at the event flag (R413)
  irqCyc : List (Nat × Nat)          -- line j: 1 + FCYC of its last arrival (R413)
deriving DecidableEq, Repr

/-- The root capability (R379). -/
def Cap.root : Cap := ⟨true, BitVec.ofNat 128 (0xFF_FFFF_FFFF * 2 ^ 40 + 0xFFFF * 2 ^ 80)⟩

def DfSlot.zero : DfSlot := ⟨0, 0, Cap.zero, Cap.zero, 0, 0, false, []⟩
def Blk.zero : Blk := ⟨0, 0, 0, 0⟩
def TlbEnt.zero : TlbEnt := ⟨0, 0, 0⟩

/-- A core at a reset of its die (R284, R285, R379, R401, R522). The first bundle of S0 is the first of the H-die boot
ROM (R525). -/
def Core.reset (n : Nat) : Core :=
  { pc := if n = 4 then 0xFFFC_0000 else 0xFFFF_0000, asm := [], fq := [], w := [], f := [], p := [], c := [],
    sc := [], pcc := Cap.root, status := 0, bank := 0, wb := 0, wres := 1, wsoff := 0, lstart := [],
    lend := [], lcnt := [], lctl := 0,
    tbase := if n = 4 then 0xFFFF_FC00 else 0x1008_0000 + n * 0x10_0000,
    gie := false, iovr := false, ien := 0, ipend := 0, ni := false, nib := 0, span := 0, dfvec := 0, df := none,
    dfLast := DfSlot.zero, sb := [], blkMode := 0, adtrack := false, asid := 0, xbadva := 0, tlbIdx := 0,
    tlbMiss := false, tlbNext := 0, tlbVa := 0, tlbPa := 0, tlbAttr := 0, blk := [], tlb := [], tlbq := [],
    btb := [], ras := [], rasTop := 0, rasDepth := 0, rasWrong := none, lines := [], fills := [], pend := [],
    loads := [], div := none, fdivs := [], xfer := none, redo := none, rep := none, repOff := none, wait := none,
    group := [], waiting := [], overran := none, gwb := 0, gdep := 0, gdf := false, issued := false, halted := false,
    step := false,
    evfCyc := 0, irqCyc := [] }

/-- The whole device. -/
structure State where
  pending : List Instr               -- commands waiting, first in first out
  regs : List (Nat × Word)           -- every register of the register pages of both dies
  shadow : List (Nat × Option Word)  -- high halves latched per master (R61): master * 2^23 + key
  evPay : List (Nat × EvPay)         -- what pending bit b of page pg posts: key pg * 32 + b
  evHeld : List Nat                  -- events of frozen pages whose records wait (R38): pg * 32 + b
  evIn : List (Nat × EvRec)          -- records at the queue engine, with their event queue (R433)
  free : Nat                         -- the model's own counter of free values (Config.free)
  out : List Out                     -- what left the device, newest first
  mram : List (Nat × Byte)           -- code MRAM and journal, by offset from 0x4000_0000
  lmem : List (Nat × Byte)           -- local data and code memories, by address
  lmErr : List (Nat × Bool)          -- bytes of local memory or MRAM that read uncorrectable (R353)
  tb : TbState
  ev : EvState
  sal : SalState
  cry : CryState
  pan : PanState
  bl : BrineState
  rk : RakeState
  sl : SlState
  qe : QeState
  tj : TjState
  fab : FabState
  dup : DupState
  pwr : PwrState
  sec : SecState
  pn : PanelState
  cores : List (Nat × Core)          -- cores that differ from their reset state
deriving DecidableEq, Repr

def State.reset : State :=
  { pending := [], regs := [], shadow := [], evPay := [], evHeld := [], evIn := [], free := 0, out := [],
    mram := [], lmem := [], lmErr := [],
    tb := TbState.reset, ev := EvState.reset, sal := SalState.reset, cry := CryState.reset, pan := PanState.reset,
    bl := ⟨[], [], 0⟩, rk := RakeState.reset, sl := SlState.reset, qe := QeState.reset, tj := TjState.reset,
    fab := FabState.reset, dup := DupState.reset, pwr := PwrState.reset, sec := SecState.reset,
    pn := PanelState.reset, cores := [] }

end Sys2Proof.Machine
end

