-- ==== Sys2Proof/Machine/Ops.lean ====
section
/-!
DEFINITION. Sys2Proof/Machine/Ops.lean: the named operations every block uses: the register file, free values, event
bits and their records (R38 to R40, R568, R572), and the pulses of event channels (R409).
-/
namespace Sys2Proof.Machine

/-! The register file. -/

def State.rd (s : State) (k : Nat) : Word := storeGet (regDflt k) s.regs k
def State.wr (s : State) (k : Nat) (v : Word) : State := { s with regs := storeSet (regDflt k) s.regs k v }

/-- One field of a register. -/
def State.fld (s : State) (f : Fld) : Nat := bitsGet (s.rd f.key) f.lo f.width
def State.setFld (s : State) (f : Fld) (v : Nat) : State := s.wr f.key (bitsSet (s.rd f.key) f.lo f.width v)
def State.flag (s : State) (f : Fld) : Bool := s.fld f != 0
def State.setFlag (s : State) (f : Fld) (b : Bool) : State := s.setFld f (b2n b)

/-- A 64-bit register: the low word at the key, the high word after it (R61). -/
def State.rd64 (s : State) (k : Nat) : Nat := (s.rd k).toNat + (s.rd (k + 1)).toNat * 2 ^ 32
def State.wr64 (s : State) (k : Nat) (v : Nat) : State :=
  (s.wr k (BitVec.ofNat 32 v)).wr (k + 1) (BitVec.ofNat 32 (v / 2 ^ 32))

/-- A counter field that saturates (R571 and the chapters' tables). -/
def State.incFld (s : State) (f : Fld) : State := s.setFld f (satInc f.width (s.fld f))
def State.addFld (s : State) (f : Fld) (n : Nat) : State := s.setFld f (satAdd f.width (s.fld f) n)

/-- A fresh free value (log 5): the value is `Config.free` at the counter, and the counter advances. -/
def State.freeVal (s : State) : Nat := (Config.free s.free).toNat
def State.stepFree (s : State) : State := { s with free := s.free + 1 }

def angleOf (s : State) : Nat := s.rd64 rANGLE
def tickNo (s : State) : Nat := s.rd64 rTICKNO
def fcycOf (s : State) : Nat := s.rd64 rSL_FCYC
/-- ANGLE and TICKNO as a die sees them: the H-die has its copies (R469, R572). -/
def dieOfPage (pg : Nat) : Die := if pg < 0x1000 then .F else .H
def angleAt (s : State) (d : Die) : Nat := match d with | .F => angleOf s | .H => s.rd64 rSH_ANGLE
def tickAt (s : State) (d : Die) : Nat := match d with | .F => tickNo s | .H => s.rd64 rSH_TICKNO

/-! Event bits (R38, R568). -/

/-- An event of the spec's EV_PEND lists: its page, its bit and its severity (1 information, 2 warning, 3 fault). -/
structure Ev where
  pg : Nat
  bit : Nat
  sev : Nat
deriving DecidableEq, Repr

/-- The common payload of R572. -/
def commonPay (s : State) (pg subject cause detail : Nat) : List Byte :=
  bytesOfNat 2 subject ++ bytesOfNat 2 cause ++ bytesOfNat 4 detail ++ bytesOfNat 8 (tickAt s (dieOfPage pg))

/-- The pages whose FREEZE freezes the block of `pg`: any page of the Crystallizer freezes it whole (R574). -/
def freezeGroup (pg : Nat) : List Nat := if pg = 0x110 ∨ pg = 0x111 ∨ pg = 0x112 then [0x110, 0x111, 0x112] else [pg]
def frozen (s : State) (pg : Nat) : Bool := (freezeGroup pg).any fun p => s.flag (fPAGE_CTRL_FREEZE p)
/-- What a block does of itself, on a page that may be frozen (R38, log 73). -/
def unlessFrozen (pg : Nat) (f : State → State) (s : State) : State := if frozen s pg then s else f s
def pageEn (s : State) (pg : Nat) : Bool := s.flag (fPAGE_CTRL_EN pg)
def locked (s : State) (pg : Nat) : Bool := s.flag (fPAGE_LOCK_LOCK pg)

/-- Something leaves the device. -/
def State.emit (s : State) (o : Out) : State := { s with out := o :: s.out }

/-! CRC-32 of IEEE 802.3 (R230): reflected, initial value all ones, final complement. -/

def crcBit (r : Nat) : Nat := if r % 2 = 1 then Nat.xor (r / 2) 0xEDB88320 else r / 2
def crcByte (r : Nat) (b : Byte) : Nat :=
  crcBit (crcBit (crcBit (crcBit (crcBit (crcBit (crcBit (crcBit (Nat.xor r b.toNat))))))))
def crc32 (bs : List Byte) : Nat := Nat.xor (bs.foldl crcByte 0xFFFFFFFF) 0xFFFFFFFF

/-- `n` bytes of `bs` from offset `i`, zeros beyond its end. -/
def bytesAt (bs : List Byte) (i n : Nat) : List Byte := (List.range n).map fun j => bs.getD (i + j) 0
def numAt (bs : List Byte) (i n : Nat) : Nat := natOfBytes (bytesAt bs i n)

/-! Handing a message to the Sluice (R457, R458). -/

/-- The class of a message (R457). -/
def Msg.cls : Msg → Nat
  | .cmd .. => 0
  | .jack .. => 1
  | .notice _ => 1
  | .release _ => 1
  | .outcome .. => 2
  | .event .. => 3
  | .tel .. => 4
  | .harvest _ => 5
  | .timeF .. => 6
  | .timeH .. => 6
  | .resyncReq _ => 1
  | .report .. => 2
  | .resyncEnd => 2
  | .debugReq _ => 7
  | .debugRep _ => 7

/-- The bytes of a debug request: those it carries, and 16 for its operation and its operands (log 60). -/
def DbgReq.size : DbgReq → Nat
  | .writeReg _ _ v => 16 + v.length
  | .writeMem _ bs => 16 + bs.length
  | .unlock _ _ pub sig => 16 + pub.length + sig.length
  | _ => 16

/-- The data cells a message occupies, 52 bytes each (R454, R457). -/
def Msg.parts : Msg → Nat
  | .cmd .. => 2
  | .tel _ _ b => max 1 (ceilDiv (16 + b.length) 52)
  | .harvest _ => 2
  | .debugReq r => ceilDiv r.size 52
  | .debugRep b => max 1 (ceilDiv b.length 52)
  | _ => 1

def slTxOf (s : State) (key : Nat) : SlTx := storeGet ⟨0, []⟩ s.sl.tx key
def slRxOf (s : State) (key : Nat) : SlRx := storeGet ⟨0, []⟩ s.sl.rx key
def State.setTx (s : State) (key : Nat) (t : SlTx) : State :=
  { s with sl := { s.sl with tx := storeSet ⟨0, []⟩ s.sl.tx key t } }
def State.setRx (s : State) (key : Nat) (r : SlRx) : State :=
  { s with sl := { s.sl with rx := storeSet ⟨0, []⟩ s.sl.rx key r } }

/-- The state of Sluice pair i (R455): 0 DOWN, 1 LOCK, 2 LAT, 3 UP, 4 OFF. -/
def slPair (s : State) (i : Nat) : Nat := bitsGet (s.rd rSL_PSTAT) (4 * i) 4
/-- The Sluice is up while at least one pair is UP (R456). -/
def slUp (s : State) : Bool := [0, 1, 2, 3].any fun i => slPair s i == 3

/-- The pairs that are UP. -/
def slUpPairs (s : State) : List Nat := [0, 1, 2, 3].filter fun i => slPair s i == 3

/-! The choice of the next cell at a lane (R457, R458, R461, R463). -/

/-- The ranks of R461: TIME; CMD, JACK and ACC; EVENT; TEL and HARVEST; DEBUG. -/
def slRanks : List (List Nat) := [[6], [0, 1, 2], [3], [4, 5], [7]]
/-- Two copies of each cell (R457). -/
def twoCopies (cls : Nat) : Bool := decide (cls < 3) || cls == 6
/-- Classes of equal rank in rotation after the one taken last. -/
def rotated (last : Nat) (l : List Nat) : List Nat := l.filter (fun c => decide (last < c)) ++ l.filter (fun c => decide (c ≤ last))

/-- An ACC message waits for the acknowledgement of its command's JACK message (R463). -/
def accWaits (l : SlState) (m : Msg) : Bool :=
  match m with
  | .outcome q cs i _ _ _ => (storeGet ⟨0, []⟩ l.tx 1).cells.any fun c =>
      match c.msg with | .jack q' cs' i' _ _ => q' == q && cs' == cs && i' == i | _ => false
  | _ => false

/-- The cell of a class that lane p of direction dir may start: a second copy sent first on another pair, or the next
cell of the window of 64 not yet started. -/
def cellReady (l : SlState) (two : Bool) (dir p cls : Nat) : Option (SlCell × Bool) :=
  let key := dir * 16 + cls
  match l.lanes.again.find? fun c => two && c.key == key && c.pair != p with
  | some c => some (c.cell, true)
  | none =>
    match ((storeGet ⟨0, []⟩ l.tx key).cells.take 64)[storeGet 0 l.lanes.sent key]? with
    | some c => if key = 2 ∧ accWaits l c.msg then none else some (c, false)
    | none => none

/-- The rank, class and cell that the sender chooses for lane p of direction dir. -/
def chooseCell (l : SlState) (two : Bool) (dir p : Nat) : Option (Nat × Nat × SlCell × Bool) :=
  slRanks.zipIdx.findSome? fun r => (rotated (storeGet 8 l.lanes.rot (dir * 8 + r.2)) r.1).findSome? fun cls =>
    (cellReady l two dir p cls).map fun c => (r.2, cls, c)

/-- An idle lane starts the cell that its sender chooses. -/
def laneStart (two : Bool) (dir p : Nat) (l : SlState) : SlState :=
  if storeGet none l.lanes.fly (dir * 4 + p) ≠ none then l
  else
    match chooseCell l two dir p with
    | none => l
    | some (r, cls, c, copy) =>
      let key := dir * 16 + cls
      let y := l.lanes
      { l with lanes :=
        { fly := storeSet none y.fly (dir * 4 + p) (some (key, c)), rot := storeSet 8 y.rot (dir * 8 + r) cls,
          sent := if copy then y.sent else storeSet 0 y.sent key (storeGet 0 y.sent key + 1),
          again := if copy then y.again.eraseP fun a => a.key == key && a.pair != p
                   else if two && twoCopies cls then y.again ++ [⟨key, c, p⟩] else y.again } }

/-- Every idle lane of a direction whose pair is UP starts a cell. -/
def slLaunch (dir : Nat) (s : State) : State :=
  { s with sl := (slUpPairs s).foldl (fun l p => laneStart (decide (2 ≤ (slUpPairs s).length)) dir p l) s.sl }

/-- The sender splits a message into cells with consecutive SEQ values (R458). -/
def slSend (dir : Nat) (m : Msg) (s : State) : State :=
  let key := dir * 16 + m.cls
  let t := slTxOf s key
  let cells := (List.range m.parts).map fun i => (⟨(t.next + i) % 65536, i, m.parts, m⟩ : SlCell)
  slLaunch dir (s.setTx key ⟨(t.next + m.parts) % 65536, t.cells ++ cells⟩)

/-- An F-die event record crosses in the EVENT class; while the Sluice is down, 1,024 records beyond the window of 64
are held and the others are dropped and counted (R464). -/
def slSendEvent (q : Nat) (r : EvRec) (s : State) : State :=
  if slUp s = false ∧ 64 + 1024 ≤ (slTxOf s 3).cells.length then
    ({ s with sl := { s.sl with evLost := s.sl.evLost + 1 } } : State).incFld fSL_EVDROP
  else slSend 0 (.event q r) s

/-- A record goes to the event queue `q` (R432): across the Sluice from the F-die, at once on the H-die. -/
def sendRec (q : Nat) (r : EvRec) (s : State) : State :=
  match r.die with
  | .F => slSendEvent q r s
  | .H => { s with evIn := s.evIn ++ [(q, r)] }

/-! Pulses of event channels (R409, R411, R415). -/

def storeStamp (l : List (Nat × Nat)) (k : Nat) : Nat := storeGet 0 l k

/-- EVc_CFG as it governs a pulse now: a write of this CCLK governs from the next (R415). -/
def cfgNow (s : State) (ch : Nat) : Word :=
  let o := storeStamp s.ev.cfgOld ch
  if o / 2 ^ 32 = fcycOf s + 1 then BitVec.ofNat 32 o else s.rd (rEVc_CFG ch)

/-- GEN of group g as it governs a pulse now: an action of this CCLK governs from the next (R414). -/
def genNow (s : State) (g : Nat) : Bool :=
  let o := storeStamp s.ev.genOld g
  if o / 2 = fcycOf s + 1 then o % 2 == 1 else s.flag (fEGg_CTRL_GEN g)

/-- When the consumers of a pulse act (R411, R416). -/
def pulseDue (s : State) (cfg : Word) (other : Bool) : Nat :=
  match s.pwr.mode with
  | .run => if natBit cfg.toNat 30 ∧ other = false then fcycOf s else fcycOf s + (if other then 3 else 2)
  | _ => fcycOf s + 1025

/-- One pulse on channel `ch`: discarded, counted, merged or put on its way; with the event it raises on its group's
page (bit 0 DROP, bit 1 MERGE), if any (R409). -/
def pulseRaw (ch : Nat) (other : Bool) (s : State) : State × Option Nat :=
  let g := ch / 16
  let cfg := cfgNow s ch
  if natBit cfg.toNat 31 = false then (s, none)
  else if genNow s g = false then
    let was := s.fld (fEGg_DROP g)
    (s.incFld (fEGg_DROP g), if was = 0 then some 0 else none)
  else if s.ev.pulses.any fun p => p.ch == ch && p.cyc == fcycOf s then
    let was := s.fld (fEGg_MERGE g)
    (s.setFld (fEGg_MERGE g) (natBitSet was (ch % 16) true), if natBit was (ch % 16) then none else some 1)
  else
    ({ s with ev := { s.ev with pulses := s.ev.pulses ++ [⟨ch, fcycOf s, pulseDue s cfg other, cfg⟩] } }, none)

/-- Blocks whose clock is neither CCLK nor TCLK (R410). -/
def otherClock (pg : Nat) : Bool := (0x80 ≤ pg && pg < 0x100) || pg == 0x130

/-- The severity of the DROP and MERGE events of a group page (R418). -/
def egSev (bit : Nat) : Nat := if bit = 1 then 1 else 2

def evKey (pg bit : Nat) : Nat := pg * 32 + bit
def pendBit (s : State) (pg bit : Nat) : Bool := natBit (s.rd (rEV_PEND pg)).toNat bit
def enBit (s : State) (pg bit : Nat) : Bool := natBit (s.rd (rEV_EN pg)).toNat bit

def EvPay.zero : EvPay := ⟨0, [], none⟩

/-- Pending bit `bit` of page `pg` is set, with what it will post. -/
def State.setPend (s : State) (pg bit : Nat) (p : EvPay) : State :=
  ({ s with evPay := storeSet EvPay.zero s.evPay (evKey pg bit) p } : State).wr (rEV_PEND pg)
    (BitVec.ofNat 32 (natBitSet (s.rd (rEV_PEND pg)).toNat bit true))

/-- The record of pending bit `bit` of page `pg`, with ANGLE as it is now (R432, R568). -/
def recordOf (s : State) (pg bit : Nat) : EvRec :=
  let p := storeGet EvPay.zero s.evPay (evKey pg bit)
  let a := match p.angle with | some a => a | none => angleAt s (dieOfPage pg)
  ⟨bit, pg % 0x1000, p.sev, dieOfPage pg, BitVec.ofNat 64 a, p.payload⟩

/-- An episode of R568 begins: the route of the page is signalled once. The first argument bounds the chain of events
that group pages may raise on one another: each of their 32 bits is raised at most once. -/
def episode : Nat → Nat → Nat → State → State
  | 0, _, _, s => s
  | n + 1, pg, bit, s =>
    if frozen s pg then { s with evHeld := s.evHeld ++ [evKey pg bit] }
    else if s.flag (fEV_ROUTE_DEST pg) = true ∧ pg < 0x1000 then
      let ch := s.fld (fEV_ROUTE_TARGET pg) % 256
      match pulseRaw ch (otherClock pg) s with
      | (t, none) => t
      | (t, some b) =>
        let gp := 0x40 + ch / 16
        if pendBit t gp b then t
        else
          let t := t.setPend gp b ⟨egSev b, commonPay t gp ch 0 0, none⟩
          if enBit t gp b then episode n gp b t else t
    else sendRec (s.fld (fEV_ROUTE_TARGET pg)) (recordOf s pg bit) s

/-- The block of page `e.pg` sets event bit `e.bit` with a payload (R38, R568): nothing while the bit is pending;
otherwise the bit becomes pending and, with its enable at 1, an episode begins. `angle` is the record's ANGLE where it
is not that of the post. -/
def postEventAt (e : Ev) (payload : List Byte) (angle : Option Nat) (s : State) : State :=
  if pendBit s e.pg e.bit then s
  else
    let t := s.setPend e.pg e.bit ⟨e.sev, payload, angle⟩
    if enBit t e.pg e.bit then episode 34 e.pg e.bit t else t

def postEvent (e : Ev) (payload : List Byte) (s : State) : State := postEventAt e payload none s

/-- An event with the common payload of R572. -/
def post (pg bit sev subject cause detail : Nat) (s : State) : State :=
  postEvent ⟨pg, bit, sev⟩ (commonPay s pg subject cause detail) s

/-- A producer pulses channel `ch` (R409, R410). -/
def pulse (ch : Nat) (other : Bool) (s : State) : State :=
  match pulseRaw ch other s with
  | (t, none) => t
  | (t, some b) => post (0x40 + ch / 16) b (egSev b) ch 0 0 t

/-- A status flag and the event of the same occurrence. -/
def setPost (f : Fld) (pg bit sev subject cause detail : Nat) (s : State) : State :=
  post pg bit sev subject cause detail (s.setFlag f true)

/-- The records that waited for the end of a freeze are posted, those of bits cleared meanwhile excepted (R38). -/
def releaseHeld (s : State) : State :=
  let go := s.evHeld.filter fun k => !frozen s (k / 32)
  let keep := s.evHeld.filter fun k => frozen s (k / 32)
  go.foldl (fun t k => if pendBit t (k / 32) (k % 32) ∧ enBit t (k / 32) (k % 32) then episode 34 (k / 32) (k % 32) t
    else t) { s with evHeld := keep }

/-! Essan cores as other blocks see them (R308, R354, R412). -/

def State.core (s : State) (n : Nat) : Core := storeGet (Core.reset n) s.cores n
def State.setCore (s : State) (n : Nat) (c : Core) : State :=
  { s with cores := storeSet (Core.reset n) s.cores n c }

/-- An arrival at the event flag of a core: EVOVR when the flag was already 1 before this CCLK (R308, R412, R413). An
EVW that waits ends at it. -/
def evfArrive (n : Nat) (s : State) : State :=
  let c := s.core n
  let st := c.status.toNat
  let now := fcycOf s + 1
  match c.wait with
  | some (.evw _) =>
    s.setCore n { c with status := BitVec.ofNat 32 (natBitSet (natBitSet st 19 false) 9 false), wait := none, evfCyc := now }
  | _ =>
    let ovr := natBit st 19 ∧ c.evfCyc ≠ now
    s.setCore n { c with
      status := BitVec.ofNat 32 (natBitSet (natBitSet st 19 true) 18 (natBit st 18 || decide ovr)), evfCyc := now }

/-- An edge on interrupt line j of a core (R354, R412, R413). -/
def irqArrive (n j : Nat) (s : State) : State :=
  let c := s.core n
  let now := fcycOf s + 1
  let ovr := natBit c.ipend j ∧ storeStamp c.irqCyc j ≠ now
  s.setCore n { c with ipend := natBitSet c.ipend j true, iovr := c.iovr || decide ovr,
                       irqCyc := storeSet 0 c.irqCyc j now }

/-- A core is stopped by its lockstep pair or a fault under DFACT (R368, R485). -/
def coreStopped (s : State) (n : Nat) : Bool := n < 4 && natBit (s.fld fFC_STAT_STOPPED) n
/-- A core is out of reset: E0 to E3 by RST_CTRL.CORERUN, S0 always (R522). -/
def coreRunning (s : State) (n : Nat) : Bool :=
  (n == 4 || (natBit (s.fld fRST_CTRL_CORERUN) n && !s.pwr.warm)) && !coreStopped s n

/-- A core supply counts as below warning for R442: VDDF, or the span of an H-die dip (R510, R511). -/
def belowWarning (s : State) : Bool := s.flag fPWR_STAT_BELOW || s.flag fPWR_STAT_HDIP

/-! Software writes of register fields (R6, R43, R570). -/

/-- RWL fields of a page are held by its lock, and on the harvest page while the block operates (R483). -/
def lockHeld (s : State) (pg : Nat) : Bool := locked s pg || (pg == 0x1060 && pageEn s pg)

/-- A write of a register word under the access codes of its table; a change of a held RWL field is refused (R570). -/
def plainWrite (key : Nat) (v : Word) (s : State) : State :=
  let lk := lockHeld s (key / 1024)
  let t := s.wr key (writeFields key lk (s.rd key) v)
  if lk && changesLocked key (s.rd key) v then t.setFlag (fPAGE_STAT_REFUSED (key / 1024)) true else t

end Sys2Proof.Machine
end

