-- ==== Sys2Proof/Machine/Saltern.lean ====
section
/-!
DEFINITION. Sys2Proof/Machine/Saltern.lean: the Saltern central store and the field matrix (R103 to R131), the local
memories, code MRAM and boot ROM of the F-die map, and decode errors (R31, R32, R573).
-/
namespace Sys2Proof.Machine

def salSize : Nat := 0x2000000

/-- Bank of word index w (R103). -/
def bankOf (w : Nat) : Nat :=
  let r := w / 512
  Nat.xor (Nat.xor (w % 512) (r % 512)) (r / 512 % 16 * 32)

/-- Rank of a master port (R107, R122). -/
def portRank (port : Nat) : Nat :=
  if port < 64 then 1 else if port = 64 then 2 else if port < 77 then 3 else if port < 81 then 4
  else if port = 81 then 5 else 6

def rmapValid (s : State) (i : Nat) : Bool := natBit (s.rd (rSAL_RMAPi i)).toNat 31
def rmapWord (s : State) (i : Nat) : Nat := (s.rd (rSAL_RMAPi i)).toNat % 2 ^ 22
/-- The remap entry that redirects word w (R115). -/
def rmapOf (s : State) (w : Nat) : Option Nat := (List.range 16).find? fun i => rmapValid s i && rmapWord s i == w

def spareKey (i b : Nat) : Nat := salSize + 8 * i + b
/-- Where byte address a is stored: in its word, or in the spare of its word (R115). -/
def salKey (s : State) (a : Nat) : Nat :=
  match rmapOf s (a / 8) with
  | some i => spareKey i (a % 8)
  | none => a

def salByte (s : State) (a : Nat) : Byte := storeGet 0 s.sal.mem (salKey s a)
def salErr (s : State) (a : Nat) : ByteErr := storeGet .ok s.sal.err (salKey s a)
def salBytes (s : State) (a n : Nat) : List Byte := (List.range n).map fun i => salByte s (a + i)
def salNum (s : State) (a n : Nat) : Nat := natOfBytes (salBytes s a n)
/-- A read of n bytes finds an uncorrectable byte (R113). -/
def salBad (s : State) (a n : Nat) : Bool := (List.range n).any fun i => salErr s (a + i) == .ue

def State.setMem (s : State) (m : List (Nat × Byte)) : State := { s with sal := { s.sal with mem := m } }
def State.salSet (s : State) (f : SalState → SalState) : State := { s with sal := f s.sal }

/-- One byte is written with its check bits; its granule's tag clears (R111, R119, R120). -/
def salPut (a : Nat) (b : Byte) (s : State) : State :=
  let k := salKey s a
  s.salSet fun m => { m with mem := storeSet 0 m.mem k b, err := storeSet .ok m.err k .ok,
                             tag := storeSet false m.tag (a / 16) false,
                             tagUe := storeSet false m.tagUe (a / 16) false }

/-- A write of consecutive bytes; bytes beyond the Saltern are dropped. -/
def salWrite (a : Nat) (bs : List Byte) (s : State) : State :=
  match bs with
  | [] => s
  | b :: r => salWrite (a + 1) r (if a < salSize then salPut a b s else s)

/-- A capability store: the granule's bytes and its tag in the same access (R119). -/
def salWriteCap (a : Nat) (bs : List Byte) (tag : Bool) (s : State) : State :=
  (salWrite a bs s).salSet fun m => { m with tag := storeSet false m.tag (a / 16) tag }

/-- The tag a capability load returns (R120). -/
def salTag (s : State) (a : Nat) : Bool := storeGet false s.sal.tag (a / 16) && !storeGet false s.sal.tagUe (a / 16)

/-- The corrected bytes of word w that a read of [a, a+n) returns. -/
def ceBytes (s : State) (a n w : Nat) : List Nat :=
  (List.range 8).filter fun b => decide (a ≤ 8 * w + b) && decide (8 * w + b < a + n) &&
    (match salErr s (8 * w + b) with | .ce _ => true | _ => false)
def ueBytes (s : State) (a n w : Nat) : List Nat :=
  (List.range 8).filter fun b => decide (a ≤ 8 * w + b) && decide (8 * w + b < a + n) && salErr s (8 * w + b) == .ue

/-- A corrected read of word w: the bank's counter, SAL_CELOG, CE_SEEN, and CE_THRESH once per CECLR (R112). -/
def ceRead (w b loc : Nat) (s : State) : State :=
  let bk := bankOf w
  let n := satInc 16 (storeGet 0 s.sal.ceCnt bk)
  let s := s.salSet fun m => { m with ceCnt := storeSet 0 m.ceCnt bk n }
  let s := ((s.wr64 rSAL_CELOG (w + (b * 32 + loc % 32) * 2 ^ 56))).setFlag fSAL_STAT_CESEEN true
  let th := s.fld fSAL_CETHR
  if th ≠ 0 ∧ th ≤ n ∧ storeGet false s.sal.cePosted bk = false then
    post 0x130 0 2 bk 0 n (s.salSet fun m => { m with cePosted := storeSet false m.cePosted bk true })
  else s

/-- The record of an uncorrectable word (R113). -/
def uePost (w : Nat) (s : State) : State := post 0x130 1 3 (bankOf w) 0 w s
/-- An uncorrectable word: SAL_UELOG, UE_SEEN, and UE unless the read is a fetch, whose record waits for the issue of its
bundle (R113, R332). -/
def ueRead (record : Bool) (port w mask : Nat) (s : State) : State :=
  let s := (s.wr64 rSAL_UELOG (w + port * 2 ^ 40 + portRank port * 2 ^ 48 + mask * 2 ^ 56)).setFlag fSAL_STAT_UESEEN true
  if record then uePost w s else s

/-- What a read of word w within [a, a+n) does to the error state. -/
def wordReadBy (record : Bool) (port a n w : Nat) (s : State) : State :=
  match ueBytes s a n w with
  | u :: us => ueRead record port w ((u :: us).foldl (fun m b => m + 2 ^ b) 0) s
  | [] =>
    match ceBytes s a n w with
    | b :: _ => match salErr s (8 * w + b) with
      | .ce loc => ceRead w b loc s
      | _ => s
    | [] => s

def wordRead (port a n w : Nat) (s : State) : State := wordReadBy true port a n w s

/-! Requests in flight (R122). -/

/-- The ports of the master of a port, and its in-flight limit. -/
def portMaster (port : Nat) : List Nat × Nat :=
  if port < 64 then ([port], 2)
  else if port = 64 then ([port], 64)
  else if port < 77 then ((List.range 3).map (fun i => 65 + 3 * ((port - 65) / 3) + i), 96)
  else if port < 81 then ([port], 32)
  else if port = 81 then ([port], 48)
  else ([port], 16)

/-- A pending read of core n went through its matrix port: not to its own data memory or to code MRAM (R331, R348). -/
def viaMatrix (n pa : Nat) : Bool :=
  !(decide (0x10000000 + n * 0x100000 ≤ pa) && decide (pa < 0x10040000 + n * 0x100000)) &&
  !(decide (0x40000000 ≤ pa) && decide (pa < 0x41000000))
/-- Requests in flight of a master port; a core's pending reads are among them. -/
def inFlight (s : State) (port : Nat) : Nat :=
  storeGet 0 s.sal.inflight port +
    (if 77 ≤ port ∧ port ≤ 80 then ((s.core (port - 77)).loads.countP fun l => viaMatrix (port - 77) l.pa) else 0)
def masterBusy (s : State) (port : Nat) : Nat := ((portMaster port).1.map (inFlight s)).sum

def portPeak (port n : Nat) (s : State) : State :=
  s.salSet fun m => { m with peak := storeSet 0 m.peak port (max n (storeGet 0 m.peak port)) }
/-- A request that is issued and returns within one command (log 133). -/
def portTouch (port : Nat) (s : State) : State := portPeak port (inFlight s port + 1) s

/-- One request has returned on each port of the list. -/
def portReturn (l : List Nat) (s : State) : State :=
  s.salSet fun m => { m with inflight := l.foldl (fun x p => storeSet 0 x p (storeGet 0 x p - 1)) m.inflight }
/-- The k oldest requests on these ports have returned. -/
def returnOf : List Nat → Nat → List (Nat × Nat) → List (Nat × Nat)
  | [], _, x => x
  | p :: r, k, x => returnOf r (k - storeGet 0 x p) (storeSet 0 x p (storeGet 0 x p - k))
/-- A request leaves its master: at the limit it waits until one has returned. -/
def portIssue (port : Nat) (s : State) : State :=
  let excess := masterBusy s port + 1 - (portMaster port).2
  let ports := port :: (portMaster port).1.filter fun p => p != port
  let s := s.salSet fun m => { m with inflight := returnOf ports excess m.inflight }
  let s := s.salSet fun m => { m with inflight := storeSet 0 m.inflight port (storeGet 0 m.inflight port + 1) }
  portPeak port (inFlight s port) s

/-- The words of a read of n bytes (R112, R113). -/
def readFx (port a n : Nat) (s : State) : State :=
  (List.range (if n = 0 then 0 else (a + n - 1) / 8 - a / 8 + 1)).foldl (fun t i => wordRead port a n (a / 8 + i) t) s
/-- A line fill reads its line; corrections count and an error is logged as for any read (R112, R113). -/
def fillReadFx (port a : Nat) (s : State) : State :=
  (List.range 8).foldl (fun t i => wordReadBy false port a 64 (a / 8 + i) t) (portTouch port s)
/-- What a read of n bytes by a master port does (R112, R113, R122). -/
def salReadFx (port a n : Nat) (s : State) : State := readFx port a n (portTouch port s)

/-- A tag group that a capability load finds uncorrectable (R120). -/
def tagReadFx (a : Nat) (s : State) : State :=
  if storeGet false s.sal.tagUe (a / 16) then setPost fSAL_STAT_TAGUE 0x130 2 3 (bankOf (a / 8)) 0 (a / 16) s else s

/-- SYND[4:0] of the i-th of a byte's 13 stored bits: data bits 0 to 7, then check bits 0 to 4 (R112). -/
def upsetLoc (i : Nat) : Nat := if i < 8 then i else 16 + (i - 8)

/-- An upset of one stored bit: a second error in a byte makes it uncorrectable (R112). -/
def upset (a loc : Nat) (s : State) : State :=
  let k := salKey s a
  s.salSet fun m => { m with err := storeSet .ok m.err k (match storeGet .ok m.err k with | .ok => .ce loc | _ => .ue) }

/-- Upsets that make a whole tag group uncorrectable: its 64 granules, until each is rewritten (R120). -/
def tagUpset (g : Nat) (s : State) : State :=
  s.salSet fun m => { m with tagUe := (List.range 64).foldl (fun t i => storeSet false t (64 * g + i) true) m.tagUe }

/-- SALTERN_READ_REQUEST: bits and tag groups upset since, requests that have returned since, then a read of n bytes; the
data goes to its master unless uncorrectable. -/
def salReadReq (port a n : Nat) (back : List Nat) (ups : List (Nat × Nat)) (tags : List Nat) (s : State) : State :=
  let s := tags.foldl (fun t g => tagUpset g t) (ups.foldl (fun t u => upset (u.1 % salSize) u.2 t) s)
  let s := portIssue port (portReturn back s)
  let n := min n (salSize - a)
  let bad := salBad s a n
  let t := readFx port a n s
  if bad then t else t.emit (.readData port (salBytes s a n))

/-- The enabled bytes of a write (R110); bytes beyond the Saltern are dropped. -/
def salWriteEn (a : Nat) (bs : List (Option Byte)) (s : State) : State :=
  match bs with
  | [] => s
  | b :: r => salWriteEn (a + 1) r (match b with | some v => if a < salSize then salPut a v s else s | none => s)

/-- SALTERN_WRITE_REQUEST: the enabled bytes; the tag is set by a capability store of a core, of a tagged value through a
capability that holds STORECAP to an aligned granule (R119). -/
def salWriteReq (port a : Nat) (bs : List (Option Byte)) (cap : Bool) (back : List Nat) (s : State) : State :=
  let s := salWriteEn a bs (portIssue port (portReturn back s))
  if cap ∧ portRank port = 4 ∧ a % 16 = 0 ∧ a < salSize ∧ bs.length = 16 ∧ bs.all Option.isSome then
    s.salSet fun m => { m with tag := storeSet false m.tag (a / 16) true }
  else s

/-! Remap (R115 to R117). -/

def rmapRefuse (i : Nat) (s : State) : State := post 0x130 4 2 i 0 0 s
def rmapLocked (s : State) (i : Nat) (v : Nat) : Bool :=
  lockHeld s 0x130 && changesLocked (rSAL_RMAPi i) (s.rd (rSAL_RMAPi i)) (BitVec.ofNat 32 v)

def countRmap (s : State) : State :=
  s.setFld fSAL_STAT_RMAPUSED ((List.range 16).countP fun i => rmapValid s i)

/-- A write of SAL_RMAPi with VALID = 1 (R116): the word is copied to the spare, then the entry is set. -/
def rmapSet (i w : Nat) (s : State) : State :=
  if rmapLocked s i (2 ^ 31 + w) then s.setFlag (fPAGE_STAT_REFUSED 0x130) true
  else if s.flag fSAL_STAT_RMAPBUSY ∨ (List.range 16).any (fun j => j != i && rmapValid s j && rmapWord s j == w) then
    rmapRefuse i s
  else
    let bad := salBad s (8 * w) 8
    let data := if bad then List.replicate 8 0 else salBytes s (8 * w) 8
    let s := wordRead 82 (8 * w) 8 w s
    let s := (List.range 8).foldl (fun t b => t.salSet fun m =>
      { m with mem := storeSet 0 m.mem (spareKey i b) (data.getD b 0),
               err := storeSet .ok m.err (spareKey i b) .ok }) s
    (countRmap (s.wr (rSAL_RMAPi i) (BitVec.ofNat 32 (2 ^ 31 + b2n bad * 2 ^ 30 + w)))).setFlag fSAL_STAT_RMAPBUSY true

/-- A write of SAL_RMAPi with VALID = 0 (R116): the spare is copied back, then the entry is cleared. -/
def rmapClear (i w : Nat) (s : State) : State :=
  if rmapLocked s i w then s.setFlag (fPAGE_STAT_REFUSED 0x130) true
  else if s.flag fSAL_STAT_RMAPBUSY then rmapRefuse i s
  else if rmapValid s i = false then s.wr (rSAL_RMAPi i) (BitVec.ofNat 32 w)
  else
    let a := 8 * rmapWord s i
    let s := wordRead 82 a 8 (rmapWord s i) s
    let s := (List.range 8).foldl (fun t b => t.salSet fun m =>
      { m with mem := storeSet 0 m.mem (a + b) (storeGet 0 m.mem (spareKey i b)),
               err := storeSet .ok m.err (a + b) (match storeGet .ok m.err (spareKey i b) with | .ue => .ue | _ => .ok) }) s
    (countRmap (s.wr (rSAL_RMAPi i) (BitVec.ofNat 32 w))).setFlag fSAL_STAT_RMAPBUSY true

/-- RMAP_DONE: the copy has ended (R116). -/
def rmapDone (s : State) : State :=
  if s.flag fSAL_STAT_RMAPBUSY then post 0x130 3 1 0 0 0 (s.setFlag fSAL_STAT_RMAPBUSY false) else s

/-! Fill (R130). -/

def fillStart (s : State) : State :=
  let base := s.fld fSAL_FILL_BASE
  let len := s.fld fSAL_FILL_LEN
  if s.fld fCRY_STAT_NADMIT ≠ 0 ∨ s.flag fSAL_STAT_FILLBUSY ∨ len = 0 ∨ 524288 < base + len then
    s.setFlag fSAL_STAT_CFGREFUSED true
  else (s.salSet fun m => { m with fill := some ⟨base, len⟩ }).setFlag fSAL_STAT_FILLBUSY true

/-- The store key k is filled when beats base to base + len - 1 are: a remapped word in its spare. -/
def fills (s : State) (f : Fill) (k : Nat) : Bool :=
  let inside := fun (a : Nat) => decide (f.base * 64 ≤ a) && decide (a < (f.base + f.len) * 64)
  if k < salSize then inside k && (rmapOf s (k / 8)).isNone
  else rmapValid s ((k - salSize) / 8) && inside (8 * rmapWord s ((k - salSize) / 8))

/-- The beats that are filled hold zeros with valid check bits and clear tags. -/
def fillZero (f : Fill) (s : State) : State :=
  let g := fun (k : Nat) => !(decide (f.base * 4 ≤ k) && decide (k < (f.base + f.len) * 4))
  s.salSet fun m => { m with mem := storeKeep (fun k => !fills s f k) m.mem,
                             err := storeKeep (fun k => !fills s f k) m.err,
                             tag := storeKeep g m.tag, tagUe := storeKeep g m.tagUe }

def fillDone (s : State) : State :=
  match s.sal.fill with
  | none => s
  | some f => post 0x130 5 1 0 0 f.len
      (((fillZero f (portTouch 82 s)).salSet fun m => { m with fill := none }).setFlag fSAL_STAT_FILLBUSY false)

/-- A warm reset stops a running fill (R130): which of its beats are written by then the spec leaves open, as many as a
free value says. -/
def fillStop (s : State) : State :=
  match s.sal.fill with
  | none => s
  | some f => ((fillZero ⟨f.base, s.freeVal % (f.len + 1)⟩ s).stepFree).salSet fun m => { m with fill := none }

/-- SAL_CTRL.CECLR (R112). -/
def ceClr (s : State) : State :=
  let b := s.fld fSAL_CESEL
  s.salSet fun m => { m with ceCnt := storeSet 0 m.ceCnt b 0, cePosted := storeSet false m.cePosted b false }

/-! Decode errors (R32, R573). -/

def decodeErr (die : Die) (addr master : Nat) (write : Bool) (s : State) : State :=
  match die with
  | .F =>
    let s := ((s.wr64 rMX_DEC_ADDR (addr % 2 ^ 40)).wr rMX_DEC_INFO
      (BitVec.ofNat 32 (b2n write * 2 ^ 16 + portRank master * 2 ^ 8 + master))).incFld fMX_DEC_CNT
    postEvent ⟨0x131, 0, 2⟩
      (bytesOfNat 5 addr ++ bytesOfNat 1 master ++ bytesOfNat 1 (portRank master) ++ bytesOfNat 1 (b2n write) ++
        bytesOfNat 8 (tickNo s)) s
  | .H =>
    postEvent ⟨0x1020, 6, 2⟩
      (bytesOfNat 5 addr ++ bytesOfNat 1 master ++ bytesOfNat 1 0 ++ bytesOfNat 1 (b2n write) ++
        bytesOfNat 8 (s.rd64 rSH_TICKNO)) s

/-! The physical maps (R31, R35, R525). -/

inductive Region where
  | saltern (a : Nat)
  | lmem (a : Nat)                   -- local data or code memory, by physical address
  | mram (o : Nat)                   -- offset in code MRAM, the journal partition included
  | page (pg off : Nat)              -- page number with 0x1000 added on the H-die
  | rom (o : Nat)
  | none
deriving DecidableEq, Repr

def regionOf (die : Die) (a : Nat) : Region :=
  match die with
  | .F =>
    if a < salSize then .saltern a
    else if 0x10000000 ≤ a ∧ a < 0x10400000 ∧
        (a % 0x100000 < 0x40000 ∨ (0x80000 ≤ a % 0x100000 ∧ a % 0x100000 < 0x90000)) then .lmem a
    else if 0x40000000 ≤ a ∧ a < 0x41000000 then .mram (a - 0x40000000)
    else if 0xF0000000 ≤ a ∧ a < 0xF1000000 then .page ((a - 0xF0000000) / 0x1000) (a % 0x1000)
    else if 0xFFFF0000 ≤ a ∧ a < 0x100000000 then .rom (a - 0xFFFF0000)
    else .none
  | .H =>
    if 0xF0000000 ≤ a ∧ a < 0xF0100000 then .page (0x1000 + (a - 0xF0000000) / 0x1000) (a % 0x1000)
    else if 0xFFFC0000 ≤ a ∧ a < 0x100000000 then .rom (0x10000 + (a - 0xFFFC0000))
    else .none

/-- Bytes of a place that is no register page (R31). -/
def memBytes (s : State) (r : Region) (n : Nat) : List Byte :=
  match r with
  | .saltern a => (List.range n).map fun i => if a + i < salSize then salByte s (a + i) else 0
  | .lmem a => (List.range n).map fun i => storeGet 0 s.lmem (a + i)
  | .mram o => (List.range n).map fun i => storeGet 0 s.mram (o + i)
  | .rom o => (List.range n).map fun i => Config.romByte (o + i)
  | _ => List.replicate n 0

def putList (m : List (Nat × Byte)) (a : Nat) : List Byte → List (Nat × Byte)
  | [] => m
  | b :: r => putList (storeSet 0 m a b) (a + 1) r

/-- A write gives its bytes valid check bits. -/
def clearErr (a n : Nat) (s : State) : State :=
  { s with lmErr := storeKeep (fun k => decide (k < a) || decide (a + n ≤ k)) s.lmErr }
def lmWrite (a : Nat) (bs : List Byte) (s : State) : State :=
  clearErr a bs.length { s with lmem := putList s.lmem a bs }
def mramWrite (o : Nat) (bs : List Byte) (s : State) : State :=
  clearErr (0x40000000 + o) bs.length { s with mram := putList s.mram o bs }

/-- The booted slot is write-protected (R531). -/
def mramProtected (s : State) (o : Nat) : Bool :=
  match s.sec.prot with
  | some 0 => decide (o < 0x780000)
  | some _ => decide (0x780000 ≤ o) && decide (o < 0xF00000)
  | none => false

/-- A write of bytes by a master to a place that is no register page. -/
def memWrite (die : Die) (pa master : Nat) (bs : List Byte) (s : State) : State :=
  match regionOf die pa with
  | .saltern a => salWrite a bs (portTouch master s)
  | .lmem a => lmWrite a bs s
  | .mram o => if mramProtected s o then decodeErr die pa master true s else mramWrite o bs s
  | .rom _ => decodeErr die pa master true s
  | _ => decodeErr die pa master true s

end Sys2Proof.Machine
end

