-- ==== Sys2Proof/Machine/Timers.lean ====
section
/-!
DEFINITION. Sys2Proof/Machine/Timers.lean: the general timers GT0 to GT31 and the event router (R402 to R418).
-/
namespace Sys2Proof.Machine

def gtPage (n : Nat) : Nat := 0x20 + n
def egPage (g : Nat) : Nat := 0x40 + g

/-- The timer counts: EN, RUN, and no freeze (R402). -/
def gtRuns (s : State) (n : Nat) : Bool := pageEn s (gtPage n) && s.flag (fGTn_CTRL_RUN n) && !frozen s (gtPage n)

/-- A match of compare unit i of timer n (R406): MATCH and its event, a pulse in the CCLK after the step, ONESHOT. -/
def gtMatch (n i : Nat) (multi : Bool) (s : State) : State :=
  let s := s.setFlag (fGTn_CMPk_STAT_MATCH n i) true
  let s := if multi then s.setFlag (fGTn_CMPk_STAT_MULTI n i) true else s
  let s := { s with ev := { s.ev with gtCyc := storeSet 0 s.ev.gtCyc (2 * n + i) (fcycOf s + 1) } }
  let s := if s.flag (fGTn_CMPk_CTRL_ONESHOT n i) then s.setFlag (fGTn_CMPk_CTRL_EN n i) false else s
  let s := post (gtPage n) i 1 n 0 0 s
  if s.flag (fGTn_CMPk_CTRL_EVOUT n i) then
    let f := fcycOf s
    (pulse (s.fld (fGTn_CMPk_CTRL_EVOUTCH n i)) false (s.wr64 rSL_FCYC (f + 1))).wr64 rSL_FCYC f
  else s

/-- Evaluate compare unit i for a step of k values from count c under top r (R404, R406): the distance to the value,
a whole lap when it equals the count, is at most k. MULTI tells of a step of more than one lap. -/
def gtCompare (n i c k r : Nat) (s : State) : State :=
  let v := s.fld (fGTn_CMPk_VALUE n i)
  if s.flag (fGTn_CMPk_CTRL_EN n i) = false ∨ r < v then s
  else
    let d := (v + (r + 1) - c) % (r + 1)
    let d := if d = 0 then r + 1 else d
    if d ≤ k then gtMatch n i (decide (r + 1 < k)) s else s

/-- One count step of k values (R402, R408). A count above RELOAD steps to a value the spec does not state. -/
def gtStep (n k : Nat) (s : State) : State :=
  let c := s.fld (fGTn_COUNT n)
  let r := s.fld (fGTn_RELOAD n)
  if r < c then (s.setFld (fGTn_COUNT n) s.freeVal).stepFree
  else
    let s := s.setFld (fGTn_COUNT n) ((c + k) % (r + 1))
    gtCompare n 1 c k r (gtCompare n 0 c k r s)

/-- A step to 0 by CLR or a restart reaches 0 and passes no other value (R403). -/
def gtZero (n : Nat) (s : State) : State :=
  let s := { s.setFld (fGTn_COUNT n) 0 with ev := { s.ev with gtClr := storeSet false s.ev.gtClr n false } }
  let hit := fun (i : Nat) (t : State) =>
    if t.flag (fGTn_CMPk_CTRL_EN n i) ∧ t.fld (fGTn_CMPk_VALUE n i) = 0 then gtMatch n i false t else t
  if pageEn s (gtPage n) then hit 1 (hit 0 s) else s

/-- A capture by timer n (R407, R412, R413). -/
def gtCapture (n : Nat) (s : State) : State :=
  let now := fcycOf s + 1
  let stamp := storeStamp s.ev.capCyc n
  let s := { s with ev := { s.ev with capCyc := storeSet 0 s.ev.capCyc n now } }
  if s.flag (fGTn_STAT_CAPF n) = false then
    setPost (fGTn_STAT_CAPF n) (gtPage n) 2 1 n 0 (s.fld (fGTn_COUNT n)) ((s.setFld (fGTn_CAP n) (s.fld (fGTn_COUNT n))))
  else if stamp = now then s
  else setPost (fGTn_STAT_CAPOVR n) (gtPage n) 3 2 n 0 0 s

/-- A capture of an arrival of halt or sleep (R408): the count before the step. -/
def gtCaptureDue (n : Nat) (s : State) : State :=
  if storeGet false s.ev.gtCap n then
    gtCapture n { s with ev := { s.ev with gtCap := storeSet false s.ev.gtCap n false } }
  else s

/-- A TCLK edge (or an LF tick of k TCLK periods) at timer n (R402, R403, R408). -/
def gtEdge (n k : Nat) (s : State) : State :=
  if frozen s (gtPage n) then s
  else
    let s := gtCaptureDue n s
    if storeGet false s.ev.gtClr n then gtZero n s
    else if gtRuns s n then gtStep n k s
    else s

def gtEdges (k : Nat) (s : State) : State := (List.range 32).foldl (fun t n => gtEdge n k t) s

/-- GT_COMPARE_MATCH: timer n takes `k` count steps, one value each at TCLK rate, in one step in halt and sleep. -/
def gtSteps (n : Nat) : Nat → State → State
  | 0, s => s
  | k + 1, s => gtSteps n k (gtEdge n 1 s)

def gtAdvance (n k : Nat) (s : State) : State :=
  match s.pwr.mode with
  | .run => gtSteps n k s
  | _ => gtEdge n k s

/-- The range test of R404: a value above RELOAD never matches. -/
def gtRange (n i : Nat) (s : State) : State :=
  if s.flag (fGTn_CMPk_CTRL_EN n i) ∧ s.fld (fGTn_RELOAD n) < s.fld (fGTn_CMPk_VALUE n i) then
    s.setFlag (fGTn_CMPk_STAT_CMPRANGE n i) true
  else s

def State.gtPut (s : State) (n i : Nat) (b : Bool) : State :=
  { s with ev := { s.ev with gtDefer := storeSet false s.ev.gtDefer (2 * n + i) b } }
/-- The timer signals no immediate match now: its page is off or frozen, or the unit has matched in this CCLK (R405,
R406, log 158). -/
def gtHeld (s : State) (n i : Nat) : Bool :=
  !pageEn s (gtPage n) || frozen s (gtPage n) || storeStamp s.ev.gtCyc (2 * n + i) == fcycOf s + 1

/-- A write of GTn_CMPk commits (R404, R405). A value that matches at once does so in this CCLK, or in the first later
one in which nothing holds it. -/
def gtCmpWrite (n i : Nat) (v : Word) (s : State) : State :=
  let s := (gtRange n i (s.setFld (fGTn_CMPk_VALUE n i) v.toNat)).gtPut n i false
  if s.flag (fGTn_CMPk_CTRL_EN n i) ∧ s.flag (fGTn_CMPk_CTRL_IMM n i) ∧ v.toNat ≤ s.fld (fGTn_RELOAD n) ∧
      v.toNat ≤ s.fld (fGTn_COUNT n) then
    if gtHeld s n i then s.gtPut n i true else gtMatch n i false s
  else s

/-- The immediate matches that waited, where nothing holds them any more; a unit disabled meanwhile drops its own. -/
def gtDeferred (s : State) : State :=
  s.ev.gtDefer.foldl (fun t e =>
    let n := e.1 / 2
    let i := e.1 % 2
    if t.flag (fGTn_CMPk_CTRL_EN n i) = false ∨ t.fld (fGTn_RELOAD n) < t.fld (fGTn_CMPk_VALUE n i) then
      t.gtPut n i false
    else if gtHeld t n i then t else gtMatch n i false (t.gtPut n i false)) s

/-- A write refused while RUN is 1 (R403). -/
def gtRefuse (n : Nat) (s : State) : State := setPost (fGTn_STAT_CFGREFUSED n) (gtPage n) 4 1 n 0 0 s

def gtCountWrite (n : Nat) (v : Word) (s : State) : State :=
  if s.flag (fGTn_CTRL_RUN n) then gtRefuse n s else s.setFld (fGTn_COUNT n) v.toNat
def gtReloadWrite (n : Nat) (v : Word) (s : State) : State :=
  if s.flag (fGTn_CTRL_RUN n) then gtRefuse n s else s.setFld (fGTn_RELOAD n) v.toNat

/-- GTn_CTRL.CLR (R403). -/
def gtClr (n : Nat) (s : State) : State := { s with ev := { s.ev with gtClr := storeSet false s.ev.gtClr n true } }

/-- GTn_CTRL.RUN written (R402, R404). -/
def gtRun (n : Nat) (on : Bool) (s : State) : State :=
  let was := s.flag (fGTn_CTRL_RUN n)
  let s := s.setFlag (fGTn_CTRL_RUN n) on
  if on ∧ was = false then gtRange n 1 (gtRange n 0 s) else s

/-- An arrival on the capture input: in halt and sleep it takes effect at the next step (R407, R408). -/
def gtCapIn (n : Nat) (s : State) : State :=
  match s.pwr.mode with
  | .run => gtCapture n s
  | _ => { s with ev := { s.ev with gtCap := storeSet false s.ev.gtCap n true } }

/-- The timer consumers of channel ch: capture before restart (R407, R412). -/
def gtArrive (ch n : Nat) (s : State) : State :=
  let s := if s.flag (fGTn_EVIN_CAPEN n) ∧ s.fld (fGTn_EVIN_CAPCH n) = ch then gtCapIn n s else s
  if s.flag (fGTn_EVIN_RSTEN n) ∧ s.fld (fGTn_EVIN_RSTCH n) = ch then gtClr n s else s

/-- A group action in the CCLK of its delivery (R414). -/
def groupAct (t : Nat) (on : Bool) (s : State) : State :=
  let now := fcycOf s + 1
  if storeStamp s.ev.genWr t = now then setPost (fEGg_STAT_ACTLOST t) (egPage t) 2 2 t 0 0 s
  else
    let old := s.flag (fEGg_CTRL_GEN t)
    let old' := if storeStamp s.ev.genOld t / 2 = now then storeStamp s.ev.genOld t % 2 else b2n old
    let s := { s with ev := { s.ev with genOld := storeSet 0 s.ev.genOld t (old' + 2 * now),
                                        genOff := if on then s.ev.genOff else storeSet 0 s.ev.genOff t now } }
    if on ∧ storeStamp s.ev.genOff t = now then s else s.setFlag (fEGg_CTRL_GEN t) on

/-- The consumers of a pulse act (R412); one on the wake channel wakes a halted or sleeping F-die (R517). -/
def deliver (p : Pulse) (s : State) : State :=
  let c := p.cfg.toNat
  let wake := s.pwr.mode != .run && s.flag fPWR_WAKE_WAKEEN && s.fld fPWR_WAKE_WAKECH == p.ch
  let s := if wake then { s with pwr := { s.pwr with woke := true } } else s
  let s := (List.range 4).foldl (fun t n => if natBit c (24 + n) then evfArrive n t else t) s
  let s := if natBit c 23 then irqArrive (natBits c 21 2) (natBits c 16 4) s else s
  let s := (List.range 32).foldl (fun t n => gtArrive p.ch n t) s
  if natBit c 15 then groupAct (natBits c 8 4) (natBit c 14) s else s

/-- Every pulse whose time has come is delivered. -/
def deliverDue (s : State) : State :=
  let due := fun (p : Pulse) => decide (p.due ≤ fcycOf s) && !frozen s (egPage (p.ch / 16))
  (s.ev.pulses.filter due).foldl (fun t p => deliver p t)
    { s with ev := { s.ev with pulses := s.ev.pulses.filter fun p => !due p } }

/-- EVENT_CHANNEL_DELIVERY: the oldest pulse of channel ch reaches its consumers. -/
def deliverChannel (ch : Nat) (s : State) : State :=
  match s.ev.pulses.find? fun p => p.ch == ch with
  | none => s
  | some p => deliver p { s with ev := { s.ev with pulses := s.ev.pulses.erase p } }

/-- A write of EVc_CFG takes effect from the next CCLK (R415). -/
def evCfgWrite (ch : Nat) (v : Word) (s : State) : State :=
  let now := fcycOf s + 1
  let s := if storeStamp s.ev.cfgOld ch / 2 ^ 32 = now then s
    else { s with ev := { s.ev with cfgOld := storeSet 0 s.ev.cfgOld ch ((s.rd (rEVc_CFG ch)).toNat + 2 ^ 32 * now) } }
  plainWrite (rEVc_CFG ch) v s

/-- A write of EGg_CTRL prevails over an action delivered in the same CCLK (R414). -/
def egCtrlWrite (g : Nat) (v : Word) (s : State) : State :=
  let now := fcycOf s + 1
  let s := { s with ev := { s.ev with genWr := storeSet 0 s.ev.genWr g now } }
  let s := plainWrite (rEGg_CTRL g) v s
  if storeStamp s.ev.genOld g / 2 = now then setPost (fEGg_STAT_ACTLOST g) (egPage g) 2 2 g 0 0 s else s

/-- A write of EGg_SW pulses the channels of its set bits (R410). -/
def egSwPulse (g : Nat) (v : Word) (s : State) : State :=
  (List.range 16).foldl (fun t i => if natBit v.toNat i then pulse (16 * g + i) false t else t) s

end Sys2Proof.Machine
end

