-- ==== Sys2Proof/Machine/Timebase.lean ====
section
/-!
DEFINITION. Sys2Proof/Machine/Timebase.lean: the angle timebase and the angle compare units (R46 to R68).
Rates are numbers in units of 2^-32 au per CCLK (R46).
-/
namespace Sys2Proof.Machine

def State.tbSet (s : State) (f : TbState → TbState) : State := { s with tb := f s.tb }

def rateOf (s : State) : Nat := s.rd64 rRATE
def rateLimit (s : State) : Nat := s.rd64 rRATE_LIMIT
def tbPg : Nat := 0x10
def tbEn (s : State) : Bool := pageEn s tbPg
def nadmit (s : State) : Nat := s.fld fCRY_STAT_NADMIT

/-- LMIN and the tick floor rate for N and TICK_MIN (R49, R58). -/
def lminOf (n : Nat) : Nat := 16777216 / n
def floorCclk (tickMin : Nat) : Nat := ceilDiv (tickMin * 1536) 1000
def limitOf (n tickMin : Nat) : Nat := lminOf n * 2 ^ 32 / (floorCclk tickMin + 1)

/-- The number of tick boundaries at or below an ANGLE, counted from ANGLE 0 with N ticks per turn (R49). -/
def boundaryNo (n a : Nat) : Nat := a / 16777216 * n + ((a % 16777216 + 1) * n - 1) / 16777216
/-- The ANGLE at which boundary number j lies. -/
def boundaryAngle (n j : Nat) : Nat := j / n * 16777216 + j % n * 16777216 / n

/-- The boundaries that ANGLE passes on its way from a to a', with N changing at the turn boundary (R50, R52). -/
def passedOf (n : Nat) (pend : Option Nat) (a a' : Nat) : Nat :=
  match pend with
  | some m =>
    if a / 16777216 < a' / 16777216 then
      let turn := a / 16777216 + 1
      turn * n - boundaryNo n a + (boundaryNo m a' - turn * m)
    else boundaryNo n a' - boundaryNo n a
  | none => boundaryNo n a' - boundaryNo n a

/-- ANGLE and its sub-au bits after an advance of `inc` units of 2^-32 au (R46). -/
def angleAfter (s : State) (inc : Nat) : Nat := angleOf s + (s.tb.sub + inc) / 2 ^ 32

/-- ANGLE with its sub-au bits, in units of 2^-32 au, and the units it moves by per CCLK. -/
def tbPos (s : State) : Nat := angleOf s * 2 ^ 32 + s.tb.sub
def tbSpeed (s : State) : Nat := if tbEn s && !frozen s tbPg then rateOf s else 0

/-- A change of the speed of ANGLE is noted (R53). -/
def segMark (s : State) : State :=
  s.tbSet fun t => { t with segs := t.segs ++ [⟨fcycOf s, tbPos s, tbSpeed s⟩] }
/-- The spans that begin before the last one at or before cycle count `f` are dropped. -/
def segsFrom (f : Nat) : List RateSeg → List RateSeg
  | g :: h :: r => if h.fcyc ≤ f then segsFrom f (h :: r) else g :: h :: r
  | l => l
/-- The cycle count at which ANGLE reached position `x`, over the noted spans. -/
def segTime (x : Nat) : List RateSeg → Option Nat
  | [] => none
  | g :: r =>
    let t := if x ≤ g.pos ∨ g.rate = 0 then g.fcyc else g.fcyc + ceilDiv (x - g.pos) g.rate
    match r with
    | [] => some t
    | h :: _ => if x ≤ h.pos then some t else segTime x r

/-- RATE takes a value. -/
def setRate (v : Nat) (s : State) : State :=
  if v = rateOf s then s
  else if tbEn s then segMark (s.wr64 rRATE v)
  else s.wr64 rRATE v

/-- The requested rate (R55, R56, R59): of the followed source, or the holdover value, which is RATE_HOLD with
USEHOLD = 1 (log 10). -/
def requested (s : State) : Int :=
  if s.fld fTB_STAT_SRCACT = 2 then
    if s.flag fTB_CTRL_USEHOLD then (s.rd64 rRATE_HOLD : Nat) else s.tb.hold
  else s.tb.req

/-- The requested rate as RATE may take it: never negative, at most RATE_LIMIT (R48, R58). -/
def wantedRate (s : State) : Nat := min (requested s).toNat (rateLimit s)

/-- The payload of TICK_FLOOR (R58). -/
def floorPayload (s : State) : List Byte :=
  bytesOfNat 8 (if 2 ^ 48 ≤ (requested s).toNat then 0x0000_FFFF_FFFF_FFFF else (requested s).toNat) ++
  bytesOfNat 8 (rateLimit s)

/-- The tick floor is checked whenever the requested rate or RATE_LIMIT changes (R58). -/
def floorCheck (s : State) : State :=
  if (rateLimit s : Int) < requested s then
    if s.flag fTB_STAT_FLOOR then (setRate (rateLimit s) s).tbSet fun t => { t with floorTicks := 0 }
    else
      postEvent ⟨tbPg, 2, 3⟩ (floorPayload s)
        (((setRate (rateLimit s) s).setFlag fTB_STAT_FLOOR true).tbSet fun t => { t with floorTicks := 0 })
  else s

/-- What a new requested rate does before the next boundary (R58, R59): with EN = 0 RATE and the integral term follow
it at once; with RATE = 0 it is applied without the slew limit. -/
def requestChanged (s : State) : State :=
  let s := floorCheck s
  if tbEn s = false then (setRate (wantedRate s) s).tbSet fun t => { t with integ := wantedRate s }
  else if rateOf s = 0 then setRate (wantedRate s) s
  else s

/-- RATE_LIMIT and TB_LMIN follow N and TICK_MIN (R52, R58); RATE is never above RATE_LIMIT (R48). -/
def limitsChanged (s : State) : State :=
  let n := s.tb.nCur
  let l := limitOf n (s.fld fTB_TICK_MIN)
  requestChanged (setRate (min (rateOf s) l) ((s.setFld fTB_LMIN (lminOf n)).wr64 rRATE_LIMIT l))

/-- A pending or accepted N comes into effect (R52). -/
def applyN (n : Nat) (s : State) : State :=
  post tbPg 7 1 0 0 n (limitsChanged (s.tbSet fun t => { t with nCur := n, nPend := none }))

/-- RATE moves toward the requested rate by at most TB_SLEW, at a tick boundary (R57); in floor holdover it stays at
RATE_LIMIT, which clips nothing by TB_SLEW, so an episode ends. The ticks of R58 are counted by their boundaries
(log 116). -/
def slewStep (s : State) : State :=
  if s.flag fTB_STAT_FLOOR then
    let q := decide (requested s ≤ (rateLimit s : Int))
    ((setRate (rateLimit s) s).setFlag fTB_STAT_SLEWING false).tbSet fun t =>
      { t with floorTicks := if q then t.floorTicks + 1 else 0, slewEp := false }
  else
    let r := rateOf s
    let w := wantedRate s
    let d := s.fld fTB_SLEW
    if w ≤ r + d ∧ r ≤ w + d then
      ((setRate w s).setFlag fTB_STAT_SLEWING false).tbSet fun t => { t with slewEp := false }
    else
      let s' := ((setRate (if r < w then r + d else r - d) s).setFlag fTB_STAT_SLEWING true).tbSet
        fun t => { t with slewEp := true }
      if s.tb.slewEp then s' else post tbPg 5 1 0 0 0 s'

/-- The source of TB_CTRL.SRC, with 0b11 treated as holdover (R68). -/
def srcOf (s : State) : Nat := if s.fld fTB_CTRL_SRC = 3 then 2 else s.fld fTB_CTRL_SRC

/-- A write of TB_CTRL.SRC takes effect (R59, R60): the integral term carries over, and a holdover that begins now
holds RATE. LOCKED is cleared (log 117). -/
def selectSource (s : State) : State :=
  let n := srcOf s
  let held := s.fld fTB_STAT_SRCACT == 2
  let s := (s.setFld fTB_STAT_SRCACT n).setFlag fTB_STAT_LOCKED false
  s.tbSet fun t => { t with sel := n, lost := false, resel := false, req := t.integ,
                            hold := if held then t.hold else rateOf s, qual := 0,
                            ret := 0, grid := none, cross := none, gridRef := angleOf s, fabOk := false,
                            fabMiss := 0, fabTgts := [] }

/-- A source is to be selected at the next boundary: another one, or the lost one again (R59, R60). -/
def selectDue (s : State) : Bool := srcOf s != s.tb.sel || s.tb.resel

/-- The followed source is lost (R56): holdover at the integral term, LOCKED clears, SRC_LOST. -/
def sourceLost (s : State) : State :=
  let src := s.fld fTB_STAT_SRCACT
  post tbPg 0 3 src 0 0
    (requestChanged (((s.setFld fTB_STAT_SRCACT 2).setFlag fTB_STAT_LOCKED false).tbSet
      fun t => { t with lost := true, hold := t.integ, qual := 0, ret := 0 }))

/-- A valid measurement with phase error `e`, saturated to 32 bits, from the selected source (R54, R55, R56, R60). -/
def measure (e : Int) (s : State) : State :=
  let err := max (-2147483648) (min 2147483647 e)
  let s := s.setFld fTB_PHERR (wrapTo 32 err)
  let win := s.fld fTB_LOCK_LOCKWIN
  let q := s.fld fTB_LOCK_QUAL
  let inWin := decide (err.natAbs < win)
  if s.tb.lost then
    if s.flag fTB_CTRL_AUTORET then
      if q ≤ s.tb.ret + 1 then
        post tbPg 1 1 s.tb.sel 0 0 (requestChanged ((s.setFld fTB_STAT_SRCACT s.tb.sel).tbSet fun t =>
          { t with lost := false, ret := 0, req := t.integ, qual := 0 }))
      else s.tbSet fun t => { t with ret := t.ret + 1 }
    else s
  else
    let ki := s.fld fTB_LOOP_KISHIFT
    let kp := s.fld fTB_LOOP_KPSHIFT
    let integ := s.tb.integ + err / (2 ^ ki : Nat)
    let n := if inWin then s.tb.qual + 1 else 0
    let s := s.tbSet fun t => { t with integ := integ, req := integ + err / (2 ^ kp : Nat), qual := n }
    let s := if inWin = false then s.setFlag fTB_STAT_LOCKED false
      else if q ≤ n then s.setFlag fTB_STAT_LOCKED true else s
    requestChanged s

/-- The selection follows the grid tracker, in holdover after its loss included (R53). -/
def gridSelected (s : State) : Bool := s.tb.sel == 0

/-- A crossing at angle a, timed at CCLK count f (R53): the first has no predecessor and only starts the timing; a
crossing outside TB_GRID_WIN loses the source. -/
def crossing (a f : Nat) (s : State) : State :=
  if gridSelected s = false then s
  else
    let s' := s.tbSet fun t => { t with cross := some ⟨a, f⟩, gridRef := a }
    match s.tb.cross with
    | none => s'
    | some p =>
      let dt := f - p.fcyc
      let ok := decide (s.fld fTB_GRID_WIN_FMIN * dt ≤ 153600000000) && decide (153600000000 ≤ s.fld fTB_GRID_WIN_FMAX * dt)
      if ok then
        measure (signedOf 24 (wrapTo 24 ((s.fld fTB_GRID_OFFSET : Int) - (a % 16777216 : Nat)))) s'
      else if s.tb.lost then s'.tbSet fun t => { t with ret := 0 }
      else sourceLost s'

/-- The grid tracker takes the tick's sample (R53): a passage from negative to zero or positive is a crossing,
interpolated between the two samples and timed where ANGLE reached it. -/
def gridSample (v : Int) (s : State) : State :=
  let cur : GridSample := ⟨v, s.tb.tickAngle, s.tb.tickFcyc⟩
  let s' := s.tbSet fun t => { t with grid := some cur }
  if gridSelected s = false ∨ s.flag fTB_GRID_SRC_PIN then s'
  else
    match s.tb.grid with
    | none => s'
    | some p =>
      if p.val < 0 ∧ 0 ≤ v then
        let den := (v - p.val).toNat
        let num := (-p.val).toNat
        let a := p.angle + (2 * num * (cur.angle - p.angle) + den) / (2 * den)
        crossing a ((segTime (a * 2 ^ 32) s.tb.segs).getD p.fcyc) s'
      else s'

/-- A rising edge on GSYNC (R53). -/
def gsyncEdge (s : State) : State :=
  if s.flag fTB_GRID_SRC_PIN then crossing (angleOf s) (fcycOf s) s else s

/-- GRID_SOURCE_LOST: no crossing within 1.5 turns of the last crossing or of the selection (R53, R56). -/
def gridLost (s : State) : State :=
  if s.fld fTB_STAT_SRCACT = 0 ∧ s.tb.gridRef + 25165824 < (angleOf s : Int) then sourceLost s else s

/-- ANGLE at cycle count f (R54): over the noted spans, or at the present RATE beyond them. -/
def angleAtCycle (s : State) (f : Nat) : Nat :=
  if fcycOf s ≤ f then (tbPos s + (f - fcycOf s) * tbSpeed s) / 2 ^ 32
  else match (s.tb.segs.filter fun g => decide (g.fcyc ≤ f)).getLast? with
    | some g => (g.pos + (f - g.fcyc) * g.rate) / 2 ^ 32
    | none => (tbPos s - (fcycOf s - f) * rateOf s) / 2 ^ 32

/-- A fabric measurement (R54). -/
def fabricMeasure (tgtAngle atTarget : Nat) (s : State) : State :=
  if s.tb.sel ≠ 1 then s else measure ((tgtAngle : Int) - (atTarget : Int)) s

/-- Rank 1 of a duplex rack follows rank 0's angle where TSRC is 1 (R500). -/
def pairTimed (s : State) : Bool := s.fld fPL_CTRL_RANK == 1 && s.flag fPL_CTRL_TSRC

/-- FABRIC_TIME_MESSAGE: a TIME answer at the F side (R472), where R500 does not put the pair frames in its place. A valid
one waits for its cycle count; an invalid one does not count as an answer, and breaks the run of R60. -/
def fabricAnswer (fcyc angle : Nat) (valid : Bool) (s : State) : State :=
  if s.tb.sel ≠ 1 ∨ pairTimed s then s
  else if valid ∧ fcycOf s + 1536 ≤ fcyc ∧ fcyc ≤ fcycOf s + 1048576 then
    s.tbSet fun t => { t with fabOk := true, fabTgts := t.fabTgts ++ [⟨fcyc, angle⟩] }
  else s.tbSet fun t => { t with ret := 0 }

/-- The targets whose cycle count has come: ANGLE is latched and measured, in order (R54, R472). -/
def fabricDue (s : State) : State :=
  let due := s.tb.fabTgts.filter fun g => decide (g.fcyc ≤ fcycOf s)
  if due.isEmpty then s
  else due.foldl (fun t g => fabricMeasure g.angle (angleAtCycle t g.fcyc) t)
    (s.tbSet fun t => { t with fabTgts := t.fabTgts.filter fun g => decide (fcycOf s < g.fcyc) })

/-- An interval between two sendings ends (R54): without a valid answer it counts as missing. -/
def fabricInterval (s : State) : State :=
  s.tbSet fun t => { t with fabMiss := if t.fabOk then 0 else t.fabMiss + 1, fabOk := false,
                            ret := if t.fabOk ∨ t.sel ≠ 1 then t.ret else 0 }

/-- FABRIC_SOURCE_LOST: the end of the fourth consecutive missing interval (R54). -/
def fabricLost (s : State) : State :=
  if s.fld fTB_STAT_SRCACT = 1 ∧ 4 ≤ s.tb.fabMiss then sourceLost s else s

/-- FLOOR_EXIT: after 16 consecutive ticks at or below RATE_LIMIT (R58). -/
def floorExit (s : State) : State :=
  if s.flag fTB_STAT_FLOOR ∧ 16 ≤ s.tb.floorTicks then
    post tbPg 3 1 0 0 0 ((s.setFlag fTB_STAT_FLOOR false).tbSet fun t => { t with floorTicks := 0 })
  else s

/-- The timebase at a recognised boundary (R50, R57, R59): `b` boundaries were passed, with ANGLE already at its new
value. -/
def tbBoundary (b : Nat) (s : State) : State :=
  let n := s.tb.nCur
  let s := s.wr64 rTICKNO (tickNo s + b)
  let s := s.setFld fTICK_K (boundaryNo n (angleOf s) % n)
  let s := s.tbSet fun t => { t with
    started := true, ticks := true, tickAngle := angleOf s, tickFcyc := fcycOf s,
    segs := segsFrom (match t.grid with | some g => min g.fcyc t.tickFcyc | none => t.tickFcyc) t.segs }
  let s := if selectDue s then requestChanged (selectSource s) else s
  slewStep s

/-- ANGLE advances by `inc` units of 2^-32 au (R46, R50, R52). -/
def tbAdvance (inc : Nat) (s : State) : State :=
  let a := angleOf s
  let a' := angleAfter s inc
  let b := passedOf s.tb.nCur s.tb.nPend a a'
  let s := (s.wr64 rANGLE a').tbSet fun t => { t with sub := (t.sub + inc) % 2 ^ 32 }
  let s := match s.tb.nPend with
    | some m => if a / 16777216 < a' / 16777216 then applyN m s else s
    | none => s
  if b = 0 then s else tbBoundary b s

/-- The CCLK until ANGLE reaches angle `a` at the present RATE. -/
def cclkTo (s : State) (a : Nat) : Nat := ceilDiv (a * 2 ^ 32 - (angleOf s * 2 ^ 32 + s.tb.sub)) (rateOf s)

/-- The ANGLE of the next tick boundary and of the next turn boundary. -/
def nextBoundary (s : State) : Nat :=
  let t := (angleOf s / 16777216 + 1) * 16777216
  min t (boundaryAngle s.tb.nCur (boundaryNo s.tb.nCur (angleOf s) + 1))

/-- The timebase can reach a boundary. -/
def tbMoves (s : State) : Bool := tbEn s && !frozen s tbPg && decide (0 < rateOf s)

/-! Commands of page 0x010. -/

/-- A refused write (R52, R68). -/
def tbRefuse (s : State) : State := setPost fTB_STAT_CFGREFUSED tbPg 4 1 0 0 0 s

/-- PAGE_CTRL.EN of page 0x010 set (R51). -/
def tbEnable (s : State) : State :=
  if tbEn s then s
  else segMark ((s.setFlag (fPAGE_CTRL_EN tbPg) true).tbSet fun t =>
    { t with started := false, ticks := false, tickAngle := angleOf s, tickFcyc := fcycOf s })

/-- PAGE_CTRL.EN of page 0x010 cleared (R68). -/
def tbDisable (s : State) : State :=
  if tbEn s = false then s
  else if nadmit s ≠ 0 then tbRefuse s
  else
    let s := segMark ((s.setFlag (fPAGE_CTRL_EN tbPg) false).tbSet fun t => { t with started := false, ticks := false })
    requestChanged (if selectDue s then selectSource s else s)

/-- ANGLE is set while the timebase is stopped (R47, R500): the sub-au bits start at 0, the span of R53 since the last
crossing keeps its length, and the grid tracker has no predecessor sample (log 115). -/
def angleSet (a : Nat) (s : State) : State :=
  (s.wr64 rANGLE a).tbSet fun t =>
    { t with sub := 0, gridRef := t.gridRef + (a : Int) - (angleOf s : Int), grid := none, segs := [] }

/-- TB_CTRL.LOAD (R68). -/
def tbLoad (s : State) : State :=
  if tbEn s then s else (angleSet (s.rd64 rTB_LOAD) s).wr64 rTICKNO 0

/-- A write of TB_N (R52). -/
def tbNWrite (v : Nat) (s : State) : State :=
  if locked s tbPg ∧ v ≠ s.fld fTB_N then s.setFlag (fPAGE_STAT_REFUSED tbPg) true
  else if nadmit s ≠ 0 ∨ v = 0 ∨ 1048576 < v then tbRefuse s
  else
    let s := s.setFld fTB_N v
    if tbEn s then s.tbSet fun t => { t with nPend := some v } else applyN v s

/-- A write of TB_TICK_MIN (R52). -/
def tbTickMinWrite (v : Nat) (s : State) : State :=
  if locked s tbPg ∧ v ≠ s.fld fTB_TICK_MIN then s.setFlag (fPAGE_STAT_REFUSED tbPg) true
  else if nadmit s ≠ 0 ∨ v < 880 then tbRefuse s
  else limitsChanged (s.setFld fTB_TICK_MIN v)

/-- A write of TB_CTRL.SRC: at the next boundary with EN = 1, at once without ticks (R59). In a holdover after a loss
with AUTORET = 0 it selects its source again, be it the lost one (R60). -/
def tbSrcWrite (v : Nat) (s : State) : State :=
  let again := s.tb.lost && !s.flag fTB_CTRL_AUTORET
  let s := (s.setFld fTB_CTRL_SRC v).tbSet fun t => { t with resel := t.resel || again }
  if (tbEn s = true ∧ rateOf s ≠ 0) ∨ selectDue s = false then s
  else requestChanged (selectSource s)

/-- A write of RATE_HOLD (R59). -/
def rateHoldWrite (v : Nat) (s : State) : State := requestChanged (s.wr64 rRATE_HOLD (v % 2 ^ 48))

/-- A write of TB_GRID_SRC restarts crossing timing (R53). -/
def gridSrcWrite (v : Word) (s : State) : State :=
  if lockHeld s tbPg ∧ changesLocked rTB_GRID_SRC (s.rd rTB_GRID_SRC) v then s.setFlag (fPAGE_STAT_REFUSED tbPg) true
  else (plainWrite rTB_GRID_SRC v s).tbSet fun t => { t with grid := none, cross := none }

/-! Reads of ANGLE and TICKNO by halves (R61). -/

def shadowKey (master key : Nat) : Nat := master * 2 ^ 23 + key

/-- A 32-bit read of the low half latches the high half for the reading master. -/
def lowRead (master key : Nat) (s : State) : State :=
  { s with shadow := storeSet none s.shadow (shadowKey master key) (some (s.rd (key + 1))) }
/-- What a 32-bit read of the high half returns. -/
def highValue (s : State) (master key : Nat) : Word :=
  (storeGet none s.shadow (shadowKey master key)).getD (s.rd (key + 1))
/-- A 32-bit read of the high half consumes the shadow. -/
def highRead (master key : Nat) (s : State) : State :=
  { s with shadow := storeSet none s.shadow (shadowKey master key) none }

/-! Angle compare units (R63 to R66). -/

def acPage (n : Nat) : Nat := 0x11 + n / 16
/-- Unit n compares: its own EN and the freeze of its page decide, PAGE_CTRL.EN of that page does not (log 118). -/
def acRuns (s : State) (n : Nat) : Bool := s.flag (fACn_CTRL_EN n) && !frozen s (acPage n)
def acArmed (s : State) (n : Nat) : Bool := storeGet false s.ev.acArmed n
def acDefer (s : State) (n : Nat) : Bool := storeGet false s.ev.acDefer n
def State.acArm (s : State) (n : Nat) (b : Bool) : State :=
  { s with ev := { s.ev with acArmed := storeSet false s.ev.acArmed n b } }
def State.acPut (s : State) (n : Nat) (b : Bool) : State :=
  { s with ev := { s.ev with acDefer := storeSet false s.ev.acDefer n b } }
/-- Unit n has matched in this CCLK (R65, R66). -/
def acDone (s : State) (n : Nat) : Bool := storeStamp s.ev.acCyc n == fcycOf s + 1

/-- A match of unit n (R66). Its record has the severity information (log 119). -/
def acMatch (n : Nat) (multi : Bool) (s : State) : State :=
  let s := (s.setFlag (fACn_STAT_MATCH n) true).wr64 (rACn_LAST n) (angleOf s)
  let s := if multi then s.setFlag (fACn_STAT_MULTI n) true else s
  let s := if s.flag (fACn_CTRL_ONESHOT n) then s.setFlag (fACn_CTRL_EN n) false else s
  let s := { s with ev := { s.ev with acCyc := storeSet 0 s.ev.acCyc n (fcycOf s + 1) } }
  let s := post (acPage n) (n % 16) 1 n 0 0 ((s.acArm n false).acPut n false)
  if s.flag (fACn_CTRL_EVOUT n) then pulse (s.fld (fACn_CTRL_EVOUTCH n)) false s else s

/-- The distance in au from ANGLE a to the unit's next match in modulo mode: a whole lap from an equal count (R63). -/
def acDist (s : State) (n a : Nat) : Nat :=
  let r := s.rd64 (rACn_RELOAD n)
  let d := (s.rd64 (rACn_CMP n) + (r + 1) - a % (r + 1)) % (r + 1)
  if d = 0 then r + 1 else d

/-- Unit n matches at its next step whatever ANGLE does: an absolute value already reached, or an immediate match that
waits for the next CCLK (R63 to R65). -/
def acNow (s : State) (n : Nat) : Bool :=
  if s.flag (fACn_CTRL_MODE n) then acArmed s n && decide (s.rd64 (rACn_CMP n) ≤ angleOf s)
  else acDefer s n && decide (s.rd64 (rACn_CMP n) ≤ s.rd64 (rACn_RELOAD n))

/-- Unit n for a step of ANGLE from a to its present value (R63, R64, R66): a match, and MULTI when the step passes more
than one lap. -/
def acStep (n a : Nat) (s : State) : State :=
  if acRuns s n = false then s
  else
    let k := angleOf s - a
    let r := s.rd64 (rACn_RELOAD n)
    let multi := !s.flag (fACn_CTRL_MODE n) && decide (r + 1 < k)
    if acNow s n then acMatch n multi s
    else if s.flag (fACn_CTRL_MODE n) ∨ r < s.rd64 (rACn_CMP n) then s
    else if acDist s n a ≤ k then acMatch n multi s else s

def acSteps (a : Nat) (s : State) : State := (List.range 32).foldl (fun t n => acStep n a t) s

/-- ACn_CMP commits (R63 to R65). A value above RELOAD sets CMP_RANGE whatever EN holds. A value that matches at once
does so in this CCLK, or in the next one when the unit has matched in this one or its page is frozen. With EN = 0
nothing is due, and an absolute value already reached sets no PAST (log 120). -/
def acCommit (n : Nat) (s : State) : State :=
  let s := (s.acArm n true).acPut n false
  let v := s.rd64 (rACn_CMP n)
  let r := s.rd64 (rACn_RELOAD n)
  let abs := s.flag (fACn_CTRL_MODE n)
  let s := if abs = false ∧ r < v then s.setFlag (fACn_STAT_CMPRANGE n) true else s
  let due := if abs then decide (v ≤ angleOf s)
    else s.flag (fACn_CTRL_IMM n) && decide (v ≤ r) && decide (v ≤ angleOf s % (r + 1))
  if s.flag (fACn_CTRL_EN n) = false ∨ due = false then s
  else
    let s := if abs then s.setFlag (fACn_STAT_PAST n) true else s.acPut n true
    if acRuns s n = true ∧ acDone s n = false then acMatch n false s else s

/-- A write of ACn_CMP: 64 bits, or the high half with the staged low half, commit; the low half is staged (R65). -/
def acCmpWrite64 (n v : Nat) (s : State) : State :=
  acCommit n ({ s with ev := { s.ev with acLow := storeSet 0 s.ev.acLow n (BitVec.ofNat 32 v) } }.wr64 (rACn_CMP n) v)
def acCmpWriteLow (n : Nat) (v : Word) (s : State) : State :=
  { s with ev := { s.ev with acLow := storeSet 0 s.ev.acLow n v } }
def acCmpWriteHigh (n : Nat) (v : Word) (s : State) : State :=
  acCommit n ((s.wr (rACn_CMP n) (storeGet 0 s.ev.acLow n)).wr (rACn_CMP n + 1) v)

/-- A write of ACn_RELOAD, ignored while the unit is enabled (R65). -/
def acReloadWrite (n v : Nat) (s : State) : State :=
  if s.flag (fACn_CTRL_EN n) then s else s.wr64 (rACn_RELOAD n) v

/-- A write of ACn_CTRL: enabling a unit arms its absolute value. -/
def acCtrlWrite (n : Nat) (v : Word) (s : State) : State :=
  let was := s.flag (fACn_CTRL_EN n)
  let s := plainWrite (rACn_CTRL n) v s
  if s.flag (fACn_CTRL_EN n) = false then s.acPut n false
  else if was = false then s.acArm n true else s

/-- The au until unit n matches from the present ANGLE, if it will. -/
def acAhead (s : State) (n : Nat) : Option Nat :=
  if acRuns s n = false then none
  else if s.flag (fACn_CTRL_MODE n) then
    if acArmed s n then some (s.rd64 (rACn_CMP n) - angleOf s) else none
  else if s.rd64 (rACn_RELOAD n) < s.rd64 (rACn_CMP n) then none
  else some (acDist s n (angleOf s))

end Sys2Proof.Machine
end

