-- ==== Sys2Proof/Machine/Sluice.lean ====
section
/-!
DEFINITION. Sys2Proof/Machine/Sluice.lean: the Sluice's lane pairs, cells and link codes, telemetry, harvest records
and time messages (R453 to R472). Direction 0 is F to H, 1 is H to F.
-/
namespace Sys2Proof.Machine

def slPg : Nat := 0x150
def shPg : Nat := 0x1040
def State.slSet (s : State) (f : SlState → SlState) : State := { s with sl := f s.sl }

/-! Lane pairs (R455, R456). -/

def setPairState (i st : Nat) (s : State) : State :=
  (s.wr rSL_PSTAT (bitsSet (s.rd rSL_PSTAT) (4 * i) 4 st)).wr rSH_PSTAT (bitsSet (s.rd rSH_PSTAT) (4 * i) 4 st)

/-- A TIME message that waited less than 10 us for a pair starts when one is UP (R464). -/
def timeStart (s : State) : State :=
  match s.sl.timeWait with
  | none => s
  | some f =>
    let s := s.slSet fun l => { l with timeWait := none }
    if fcycOf s ≤ f + 15360 then
      slSend 0 (.timeF (fcycOf s) (angleOf s) (tickNo s) (rateOf s) (s.fld fTB_N) ((s.rd rTB_STAT).toNat % 256)) s
    else s

/-- The Sluice comes up (R456, R464): EV_LOST with the number of records dropped, and the count clears. -/
def sluiceUp (s : State) : State :=
  let s := post shPg 3 1 0 0 0 (post slPg 3 1 0 0 0 s)
  let n := s.sl.evLost
  let s := if n = 0 then s
    else (postEvent ⟨slPg, 4, 2⟩ (bytesOfNat 4 n ++ List.replicate 12 0) s).setFld fSL_EVDROP 0
  timeStart (s.slSet fun l => { l with evLost := 0 })

/-- The last pair leaves UP (R456, R511). -/
def sluiceDown (s : State) : State :=
  post shPg 2 3 0 0 0 (post slPg 2 3 0 0 0 (s.setFlag fPWR_STAT_HDIP false))

/-- A pair leaves UP: the cells on its lanes are lost, and a lone pair sends one copy (R457). -/
def lanesFall (i : Nat) (s : State) : State :=
  s.slSet fun l => { l with lanes := { l.lanes with
    fly := storeSet none (storeSet none l.lanes.fly i none) (4 + i) none,
    again := if (slUpPairs s).length < 2 then [] else l.lanes.again } }

/-- A pair changes state: PAIR_UP, PAIR_DOWN, SLUICE_UP and SLUICE_DOWN on both dies (R456). -/
def pairTo (i st : Nat) (s : State) : State :=
  let was := slPair s i
  let up := slUp s
  let s := setPairState i st s
  let s := if st = 0 ∧ was ≠ 0 then
      s.slSet fun l => { l with fell := storeSet 0 l.fell i (if was = 4 then 0 else fcycOf s + 1) }
    else s
  let s := if was = 3 ∧ st ≠ 3 then lanesFall i s else s
  let s := if st = 3 then slLaunch 1 (slLaunch 0 s) else s
  let s := if st = 3 ∧ was ≠ 3 then post shPg 1 1 i 0 0 (post slPg 1 1 i 0 0 s)
    else if was = 3 ∧ st ≠ 3 then post shPg 0 2 i 0 0 (post slPg 0 2 i 0 0 s) else s
  if up = false ∧ slUp s then sluiceUp s else if up ∧ slUp s = false then sluiceDown s else s

/-- 10 us have not passed since a fall to DOWN at the given stamp, which is 0 where there was none (R455). -/
def rests (s : State) (fell : Nat) : Bool := fell != 0 && decide (fcycOf s + 1 < fell + 15360)
def pairFell (s : State) (i : Nat) : Nat := storeGet 0 s.sl.fell i

/-- Both dies drive their lanes: the F side in RUN, the H side unless it has stopped its transmitters (R517). A pair that
fell waits 10 us (R455). -/
def pairSignal (i : Nat) (s : State) : State :=
  if slPair s i = 0 ∧ rests s (pairFell s i) = false then pairTo i 1 s else s
def pairLock (i : Nat) (s : State) : State := if slPair s i = 1 then pairTo i 2 s else s
/-- A latency is half the measured round trip, rounded up to a whole ns (R455). -/
def pairMeasure (i rtF rtH : Nat) (s : State) : State :=
  if slPair s i ≠ 2 then s
  else
    let lf := (rtF + 1) / 2
    let lh := (rtH + 1) / 2
    let s := (s.wr rSL_LAT (bitsSet (s.rd rSL_LAT) (8 * i) 8 lh)).wr rSH_LAT (bitsSet (s.rd rSH_LAT) (8 * i) 8 lf)
    if lf ≤ 40 ∧ lh ≤ 40 then pairTo i 3 s else pairTo i 0 s
def pairFall (i : Nat) (s : State) : State := if slPair s i = 3 then pairTo i 0 s else s
/-- 10 us after its fall a pair enters LOCK again (R455). -/
def pairRelock (i : Nat) (s : State) : State :=
  if slPair s i = 0 ∧ pairFell s i ≠ 0 ∧ rests s (pairFell s i) = false then pairTo i 1 s else s

/-- SL_CTRL.PAIRDIS (R455). -/
def pairDisWrite (v : Nat) (s : State) : State :=
  if lockHeld s slPg ∧ v ≠ s.fld fSL_CTRL_PAIRDIS then s.setFlag (fPAGE_STAT_REFUSED slPg) true
  else
    (List.range 4).foldl (fun t i =>
      if natBit v i then (if slPair t i = 4 then t else pairTo i 4 t)
      else if slPair t i = 4 ∧ t.pwr.mode = .run then pairTo i 0 t else t) (s.setFld fSL_CTRL_PAIRDIS v)

/-! Cells (R458 to R460). -/

/-- A delivered cell completes its message with its last part (R459). -/
def takeCell (dir : Nat) (c : SlCell) (s : State) : State :=
  if c.part + 1 = c.parts then
    s.slSet fun l => if dir = 0 then { l with inH := l.inH ++ [c.msg] } else { l with inF := l.inF ++ [c.msg] }
  else s

/-- Held cells that follow in sequence are delivered; at most 64 are held. -/
def takeHeld (dir key : Nat) : Nat → State → State
  | 0, s => s
  | n + 1, s =>
    let r := slRxOf s key
    match r.held.find? fun c => c.seq == r.exp with
    | none => s
    | some c => takeHeld dir key n (takeCell dir c (s.setRx key ⟨(r.exp + 1) % 65536, r.held.erase c⟩))

/-- A good cell at its receiver (R459): in sequence it is delivered, ahead of a gap it is held, otherwise it is a
duplicate. -/
def rxCell (dir key : Nat) (c : SlCell) (s : State) : State :=
  let r := slRxOf s key
  let d := (c.seq + 65536 - r.exp) % 65536
  if d = 0 then takeHeld dir key 64 (takeCell dir c (s.setRx key { r with exp := (r.exp + 1) % 65536 }))
  else if d < 64 ∧ r.held.all (fun x => x.seq != c.seq) then s.setRx key { r with held := r.held ++ [c] }
  else if dir = 1 then s.incFld fSL_DUPDROP
  else s

/-- The cumulative acknowledgement: every cell before the SEQ next expected leaves the sender (R454, R458), whose window
moves on. -/
def ackCells (key : Nat) (s : State) : State :=
  let e := (slRxOf s key).exp
  let t := slTxOf s key
  let cells := t.cells.filter fun c => decide (32768 ≤ (c.seq + 65536 - e) % 65536) == false
  slLaunch (key / 16) ((s.setTx key { t with cells := cells }).slSet fun l => { l with lanes := { l.lanes with
    sent := storeSet 0 l.lanes.sent key (storeGet 0 l.lanes.sent key - (t.cells.length - cells.length)) } })

/-- A cell on pair p with a code violation, a bad CRC or a reserved CTL is discarded (R459); a bad cell counts. -/
def badCell (dir p : Nat) (s : State) : State :=
  let k := if dir = 1 then rSL_CRCERR else rSH_CRCERR
  s.wr k (bitsSet (s.rd k) (8 * p) 8 (satInc 8 (bitsGet (s.rd k) (8 * p) 8)))

/-- The data cell that lane p of a direction carries arrives, good or not, and the lane starts the next (R459, R461). -/
def laneArrive (dir p : Nat) (good : Bool) (s : State) : State :=
  match storeGet none s.sl.lanes.fly (dir * 4 + p) with
  | none => s
  | some x =>
    let s := s.slSet fun l => { l with lanes := { l.lanes with fly := storeSet none l.lanes.fly (dir * 4 + p) none } }
    slLaunch dir (if good then rxCell dir x.1 x.2 s else badCell dir p s)

/-- SLUICE_CELL_RECEIVE on pair p: a data cell, an acknowledgement of a class of the other direction, or a data cell that
carries one. -/
def cellReceive (dir p : Nat) (data : Bool) (ack : Option Nat) (good : Bool) (s : State) : State :=
  if slPair s p ≠ 3 then s
  else
    let s := match ack with
      | some cls => if good then ackCells ((1 - dir) * 16 + cls) s else s
      | none => s
    if data then laneArrive dir p good s else if good then s else badCell dir p s

/-- SLUICE_RETRANSMIT: the cells of a class that have been sent go again, in SEQ order (R460). -/
def retransmit (dir cls : Nat) (s : State) : State :=
  let key := dir * 16 + cls
  if slUp s then
    slLaunch dir ((s.addFld (if dir = 0 then fSL_RETX else ⟨rSH_RETX, 0, 32⟩) (storeGet 0 s.sl.lanes.sent key)).slSet fun l =>
      { l with lanes := { l.lanes with sent := storeSet 0 l.lanes.sent key 0,
                                       again := l.lanes.again.filter fun c => c.key != key } })
  else s

/-- Every cell of one class crosses and is acknowledged; of two copies the second is a duplicate (R457, R459, R462). -/
def cross (dir cls : Nat) (s : State) : State :=
  let key := dir * 16 + cls
  let s := ackCells key s
  let n := (slTxOf s key).cells.length
  let s := if dir = 1 ∧ twoCopies cls ∧ 2 ≤ (slUpPairs s).length then s.addFld fSL_DUPDROP n else s
  let s := ackCells key ((slTxOf s key).cells.foldl (fun t c => rxCell dir key c t) s)
  slLaunch dir (s.slSet fun l => { l with lanes := { l.lanes with
    fly := l.lanes.fly.filter fun x => match x.2 with | some y => y.1 != key | none => true,
    sent := storeSet 0 l.lanes.sent key 0, again := l.lanes.again.filter fun c => c.key != key } })

/-- The classes that have crossed when every cell of class cls has: those of higher rank, for ACC the JACK messages its
own wait for, and the class (R461, R463). -/
def crossFirst (cls : Nat) : List Nat :=
  match cls with
  | 0 => [6, 0]
  | 1 => [6, 1]
  | 2 => [6, 1, 2]
  | 3 => [6, 0, 1, 2, 3]
  | 4 => [6, 0, 1, 2, 3, 4]
  | 5 => [6, 0, 1, 2, 3, 5]
  | 6 => [6]
  | _ => [6, 0, 1, 2, 3, 4, 5, 7]

/-- While a pair is UP every cell of a class crosses and is acknowledged (R462): what a receiver does that finds no
message waiting. -/
def pull (dir cls : Nat) (s : State) : State :=
  if slUp s then (crossFirst cls).foldl (fun t c => cross dir c t) s else s

/-- Take a message out of an inbox. -/
def dropF (m : Msg) (s : State) : State := s.slSet fun l => { l with inF := l.inF.erase m }
def dropH (m : Msg) (s : State) : State := s.slSet fun l => { l with inH := l.inH.erase m }

/-! Link cells (R454, R465, R511). -/

/-- A link cell with code c reaches die d: a copy within 1 us of an earlier one is ignored. -/
def linkFresh (s : State) (d c : Nat) : Bool :=
  let t := storeStamp s.sl.code (d * 16 + c)
  slUp s && (t == 0 || decide (t + 1536 < fcycOf s + 1))
def linkSeen (d c : Nat) (s : State) : State :=
  s.slSet fun l => { l with code := storeSet 0 l.code (d * 16 + c) (fcycOf s + 1) }

/-- Both sides discard every held and unacknowledged cell and restart their sequences; event records lost are counted
(R465). -/
def slRestart (s : State) : State :=
  let n := (slTxOf s 3).cells.length
  (s.addFld fSL_EVDROP n).slSet fun l => { l with tx := [], rx := [], lanes := SlLanes.reset, evLost := l.evLost + n }

/-- INIT: sent by die d, it reaches the other die, which answers (R465). -/
def initCell (fromH : Bool) (s : State) : State :=
  let d := if fromH then 0 else 1
  if linkFresh s d 1 then
    (slRestart (linkSeen d 1 s)).slSet fun l => if fromH then { l with initH := true } else { l with initF := true }
  else s
/-- INIT_ACK reaches the die that sent INIT. -/
def initAck (toH : Bool) (s : State) : State :=
  let d := if toH then 1 else 0
  if linkFresh s d 2 then
    (linkSeen d 2 s).slSet fun l => if toH then { l with initH := false } else { l with initF := false }
  else s

def dipOn (s : State) : State := if linkFresh s 0 3 then (linkSeen 0 3 s).setFlag fPWR_STAT_HDIP true else s
def dipOff (s : State) : State := if linkFresh s 0 4 then (linkSeen 0 4 s).setFlag fPWR_STAT_HDIP false else s

/-! Telemetry and harvest records (R466). -/

/-- The beats of the telemetry window; the table gives 1 to 32, and a larger value leaves the length free (log 54). -/
def telLen (s : State) : Nat := if s.fld fSL_TELLEN ≤ 32 then s.fld fSL_TELLEN else 1 + s.freeVal % 32

/-- A telemetry block is not yet fully sent: a cell of it waits or is on a lane (R466). -/
def telOpen (s : State) : Bool :=
  decide (storeGet 0 s.sl.lanes.sent 4 < (slTxOf s 4).cells.length) ||
  (List.range 4).any fun p => match storeGet none s.sl.lanes.fly p with | some x => x.1 == 4 | none => false

def telemetryRead (s : State) : State :=
  let len := telLen s
  if s.flag fSL_CTRL_TELEN = false ∨ len = 0 then s
  else if telOpen s then s.incFld fSL_TELSKIP
  else
    let a := s.fld fSL_TELBASE * 64
    let n := min (len * 64) (salSize - a)
    let bad := salBad s a n
    let data := salBytes s a n
    let t := salReadFx 81 a n (if s.fld fSL_TELLEN ≤ 32 then s else s.stepFree)
    if bad then post slPg 5 2 0 0 0 t
    else slSend 0 (.tel (angleOf s) (tickNo s) data) t

def telNew (s : State) : State :=
  let s := if s.sl.inH.any (fun m => m.cls == 4) then s else pull 0 4 s
  match s.sl.inH.find? fun m => m.cls == 4 with
  | some (.tel a t b) =>
    post shPg 4 1 0 0 0
      (((dropH (.tel a t b) s).wr64 rSH_TELANGLE a).incFld fSH_TELSEQ |>.slSet fun l => { l with telBuf := b })
  | _ => s

def harvestReceive (s : State) : State :=
  let s := if s.sl.inF.any (fun m => m.cls == 5) then s else pull 1 5 s
  match s.sl.inF.find? fun m => m.cls == 5 with
  | some (.harvest b) =>
    let s := dropF (.harvest b) s
    if s.flag fSL_CTRL_HRVEN then salWrite (s.fld fSL_HRVBASE * 128 + 64 * (numAt b 0 4 % 2)) b (portTouch 81 s)
    else s.incFld fSL_TELSKIP
  | _ => s

/-! Time messages (R464, R468 to R472). -/

/-- The PTP clock in whole ns, now and at cycle count f (R468). -/
def ptpUnit : Nat := 192 * 2 ^ 32
def ptpStep (s : State) : Nat := (125 * (2 ^ 32 + signedOf 32 (s.rd rPT_ADJ).toNat)).toNat
def ptpNow (s : State) : Nat := s.fab.time / ptpUnit
def ptpAt (s : State) (f : Nat) : Nat := (s.fab.time - (fcycOf s - f) * ptpStep s) / ptpUnit

/-- TIME_MESSAGE_SEND: every 192,000 CCLK while the timebase is enabled (R468); an interval of R54 ends. -/
def timeSend (s : State) : State :=
  if tbEn s = false then s
  else
    let s := fabricInterval (s.slSet fun l => { l with timeLast := fcycOf s })
    if slUp s then
      slSend 0 (.timeF (fcycOf s) (angleOf s) (tickNo s) (rateOf s) (s.fld fTB_N) ((s.rd rTB_STAT).toNat % 256)) s
    else s.slSet fun l => { l with timeWait := some (fcycOf s) }

/-- TIME_MESSAGE_DISCARD (R464). -/
def timeDiscard (s : State) : State := s.slSet fun l => { l with timeWait := none }

/-- The fabric angle at PTP time t + num / den ns (R471). -/
def angleFab (s : State) (t num den : Nat) : Nat :=
  let d : Int := ((t : Int) - (s.rd64 rTF_T0 : Nat)) * (den : Int) + (num : Int)
  wrapTo 64 ((s.rd64 rTF_ANGLE0 : Nat) + d * ((s.rd64 rTF_RATE % 2 ^ 50 : Nat) : Int) / ((den * 10 ^ 9 * 2 ^ 16 : Nat) : Int))

/-- PTP ns per CCLK over the last 16 stamps, as a fraction (R470): the slope from the first to the last. -/
def slopeOf (st : List (Nat × Nat)) : Nat × Nat :=
  match st.head?, st.getLast? with
  | some a, some b => if a.1 < b.1 then (b.2 - a.2, b.1 - a.1) else (125, 192)
  | _, _ => (125, 192)

/-- The H-die's copies of ANGLE and TICKNO take a message's values, without ever decreasing (R469). -/
def shTake (a t : Nat) (s : State) : State :=
  ((s.slSet fun l => { l with shReal := a, shTick := t, shSub := 0 }).wr64 rSH_ANGLE (max (s.rd64 rSH_ANGLE) a)).wr64
    rSH_TICKNO (max (s.rd64 rSH_TICKNO) t)

/-- TIME_MESSAGE_RECEIVE_H: stamp, copies and the answer (R468 to R470). -/
def timeReceiveH (s : State) : State :=
  let s := if s.sl.inH.any (fun m => m.cls == 6) then s else pull 0 6 s
  match s.sl.inH.find? fun m => m.cls == 6 with
  | some (.timeF f a t r n st) =>
    let s := dropH (.timeF f a t r n st) s
    let tp := ptpAt s f
    let stamps := (s.fab.stamps ++ [(f, tp)]).drop ((s.fab.stamps.length + 1) - 16)
    let a' := a + (fcycOf s - f) * r / 2 ^ 32
    let s := { s with fab := { s.fab with stamps := stamps } }
    let s := shTake a' (t + (boundaryNo n a' - boundaryNo n a)) (s.slSet fun l => { l with shRate := r, shN := n })
    if s.flag fPT_CTRL_TFEN ∧ slUp s then
      let lead := s.fld fTF_LEAD
      let k := slopeOf stamps
      let valid := s.flag fPT_SERVO_LOCKED && s.rd64 rTF_RATE % 2 ^ 50 != 0
      let s := if valid then s.incFld fTF_SENT else s
      slSend 1 (.timeH (f + lead) (angleFab s tp (lead * k.1) k.2) valid) s
    else s
  | _ => s

/-- FABRIC_TIME_MESSAGE: an answer at the F side (R472). -/
def timeReceiveF (s : State) : State :=
  let s := if s.sl.inF.any (fun m => m.cls == 6) then s else pull 1 6 s
  match s.sl.inF.find? fun m => m.cls == 6 with
  | some (.timeH f a v) => fabricAnswer f a v (dropF (.timeH f a v) s)
  | _ => s

/-- The H-die's copy advances by m CCLK at the last received RATE (R469). -/
def shAdvance (m : Nat) (s : State) : State :=
  let a := s.sl.shReal
  let x := s.sl.shSub + m * s.sl.shRate
  let a' := a + x / 2 ^ 32
  let t' := s.sl.shTick + (boundaryNo s.sl.shN a' - boundaryNo s.sl.shN a)
  ((s.slSet fun l => { l with shReal := a', shSub := x % 2 ^ 32, shTick := t' }).wr64 rSH_ANGLE
    (max (s.rd64 rSH_ANGLE) a')).wr64 rSH_TICKNO (max (s.rd64 rSH_TICKNO) t')

end Sys2Proof.Machine
end

