-- ==== Sys2Proof/Machine/Fabric.lean ====
section
/-!
DEFINITION. Sys2Proof/Machine/Fabric.lean: the Ethernet ports, the PTP servo and the harvest group (R473 to R483).
-/
namespace Sys2Proof.Machine

def ethPg (m : Nat) : Nat := 0x1050 + m
def ptPg : Nat := 0x1058
def hgPg : Nat := 0x1060

/-! Ethernet (R473). -/

def ethOn (s : State) (m : Nat) : Bool :=
  (s.fld (fETHm_CTRL_MODE m) == 1 || s.fld (fETHm_CTRL_MODE m) == 2) && s.flag (fETHm_STAT_LINK m)

def ethLinkUp (m : Nat) (s : State) : State :=
  if s.fld (fETHm_CTRL_MODE m) = 1 ∨ s.fld (fETHm_CTRL_MODE m) = 2 then
    let s := s.setFlag (fETHm_STAT_ANDONE m) (s.fld (fETHm_CTRL_MODE m) == 2)
    if s.flag (fETHm_STAT_LINK m) then s else setPost (fETHm_STAT_LINK m) (ethPg m) 0 1 m 0 0 s
  else s
def ethLinkDown (m : Nat) (s : State) : State :=
  if s.flag (fETHm_STAT_LINK m) then
    post (ethPg m) 1 2 m 0 0 ((s.setFlag (fETHm_STAT_LINK m) false).setFlag (fETHm_STAT_ANDONE m) false)
  else s

def ethTakes (s : State) : EthKind → Bool
  | .ptp => true
  | .udp6 p => p.toNat == s.fld fHG_PORT
  | .icmp6 => true
  | .other => false

/-- ETH_FRAME_RECEIVE: accepted by type, or dropped and counted (R473). -/
def ethReceive (m : Nat) (k : EthKind) (len : Nat) (fcsOk : Bool) (s : State) : State :=
  if ethOn s m = false then s
  else if fcsOk ∧ len ≤ 1522 ∧ ethTakes s k then s.incFld (fETHm_RXFRM m)
  else s.incFld (fETHm_DROP m)

/-- A datagram to HG_PORT of an address leaves on the first port that is on (R476). -/
def ethSend (dst : Nat) (bs : List Byte) (s : State) : State :=
  let m := if ethOn s 0 then 0 else 1
  if ethOn s m then (s.incFld (fETHm_TXFRM m)).emit (.eth m dst (s.fld fHG_PORT) bs) else s

/-! PTP (R474, R475). -/

/-- The servo takes an offset from master, in ns: LOCKED after 16 within PT_LOCKWIN, cleared by one outside. -/
def servo (off : Int) (s : State) : State :=
  let s := s.setFld fPT_SERVO_OFFSET (wrapTo 24 off)
  let ok := decide (off.natAbs ≤ s.fld fPT_LOCKWIN)
  let n := if ok then s.fab.good + 1 else 0
  let s := { s with fab := { s.fab with good := n } }
  if ok = false then
    if s.flag fPT_SERVO_LOCKED then post ptPg 1 2 0 0 0 (s.setFlag fPT_SERVO_LOCKED false) else s
  else if 16 ≤ n ∧ s.flag fPT_SERVO_LOCKED = false then setPost fPT_SERVO_LOCKED ptPg 0 1 0 0 0 s
  else s

/-- PTP_FRAME_RECEIVE on a port, of a domain, with the offset from master it completes, if any. -/
def ptpReceive (m domain : Nat) (off : Option Int) (s : State) : State :=
  if ethOn s m = false then s
  else
    let s := s.incFld (fETHm_RXFRM m)
    let role := s.fld fPT_CTRL_ROLE
    let mine := (role == 1 && s.fld fPT_CTRL_OCPORT == m) || role == 2
    match off with
    | some o => if mine ∧ s.fld fPT_CTRL_DOMAIN = domain then servo o s else s
    | none => s

/-- A write of PT_STEP steps the PTP clock (R475). -/
def ptStep (ns : Int) (s : State) : State :=
  { s with fab := { s.fab with time := ((s.fab.time : Int) + ns * (ptpUnit : Nat)).toNat } }

/-- The PTP clock advances by m CCLK of the nominal ratio, with PT_ADJ (R483). -/
def ptpAdvance (m : Nat) (s : State) : State :=
  { s with fab := { s.fab with time := s.fab.time + m * ptpStep s } }

/-! Harvest messages (R476 to R482). -/

/-- The IPv6 address that four registers hold. -/
def addrReg (s : State) (r : Nat → Nat) : Nat :=
  (List.range 4).foldl (fun a i => a + (s.rd (r i)).toNat * 2 ^ (32 * i)) 0

def hgTurn (s : State) : Nat := s.rd64 rSH_ANGLE / 16777216
def hgFrac (s : State) : Nat := s.rd64 rSH_ANGLE % 16777216
def hgR (s : State) : Nat := max 1 (s.fld fHG_RTURNS)
/-- The round being planned, from the turn before it (R477). -/
def hgNext (s : State) : Nat := hgTurn s / hgR s + 1
def isAggr (s : State) : Bool := s.fld fHG_NODE % 256 == 0
def isRoot (s : State) : Bool := s.fld fHG_NODE == 0
/-- A PLAN that an aggregator sends the root is kept under its node plus 65,536. -/
def aggrKey (node : Nat) : Nat := node + 65536

/-- A node's own TOTAL_j: max(0, P_j) of the latest telemetry block (R479). -/
def ownTotals (s : State) : List Int :=
  (List.range 16).map fun j => max 0 (signedOf 32 (numAt s.sl.telBuf (4 * j) 4))

def hgHeader (s : State) (ty dst round len : Nat) : List Byte :=
  bytesOfNat 2 0x4748 ++ bytesOfNat 1 1 ++ bytesOfNat 1 ty ++ bytesOfNat 2 (s.fld fHG_GROUP) ++
  bytesOfNat 2 (s.fld fHG_NODE) ++ bytesOfNat 2 dst ++ bytesOfNat 4 round ++ bytesOfNat 2 len
def planBytes (s : State) (dst round : Nat) (tot : List Int) (mem : Nat) : List Byte :=
  hgHeader s 1 dst round 132 ++ (tot.map fun x => bytesOfNat 8 (wrapTo 64 x)).flatten ++ bytesOfNat 4 mem
def allocBytes (s : State) (dst round : Nat) (scale : List Nat) (mem : Nat) : List Byte :=
  hgHeader s 2 dst round 36 ++ (scale.map fun x => bytesOfNat 2 x).flatten ++ bytesOfNat 4 mem

def State.fabSet (s : State) (f : FabState → FabState) : State := { s with fab := f s.fab }

/-- A PLAN is stored; a later one of the same node and round replaces it (R480). -/
def storePlan (p : Plan) (s : State) : State :=
  s.fabSet fun f => { f with plans := f.plans.filter (fun q => !(q.node == p.node)) ++ [p] }

/-- PLAN_SEND (R477, R479). -/
def planSend (s : State) : State :=
  if pageEn s hgPg = false then s
  else
    let r := hgNext s % 2 ^ 32
    let n := s.fld fHG_NODE
    if isAggr s then storePlan ⟨n, r, ownTotals s, 1, 0⟩ s
    else ethSend (addrReg s rHG_AGGRi) (planBytes s (n / 256 * 256) r (ownTotals s) 1) s

def sumTotals (ps : List Plan) : List Int := (List.range 16).map fun j => (ps.map fun p => p.total.getD j 0).sum
def sumMembers (ps : List Plan) : Nat := (ps.map fun p => p.members).sum

/-- Members that sent a PLAN in the last round and none in this one (R480). -/
def memberCheck (now : List Nat) (s : State) : State :=
  let s' := (s.fab.prev.filter fun n => !now.contains n).foldl (fun t n => post hgPg 1 2 n 0 0 t) s
  s'.fabSet fun f => { f with prev := now }

/-- AGGREGATE_SEND: one PLAN that sums those of the round (R477). -/
def aggregateSend (s : State) : State :=
  if pageEn s hgPg = false ∨ isAggr s = false then s
  else
    let r := hgNext s % 2 ^ 32
    let ps := s.fab.plans.filter fun p => p.round == r && decide (p.node < 65536)
    let s := memberCheck (ps.map fun p => p.node) s
    if isRoot s then storePlan ⟨aggrKey 0, r, sumTotals ps, sumMembers ps, 0⟩ s
    else ethSend (addrReg s rHG_ROOTi) (planBytes s 0 r (sumTotals ps) (sumMembers ps)) s

/-- SCALE_j (R481). -/
def scaleOf (cap : Nat) (total : Int) : Nat :=
  if total ≤ 0 then 0x7FFF else min 0x7FFF (cap * 32768 / total.toNat)

/-- STAGGER: the node ID with its 16 bits reversed, times 256 (R482). -/
def staggerOf (node : Nat) : Nat := ((List.range 16).foldl (fun a i => a * 2 + node / 2 ^ i % 2) 0) * 256

/-- The inbox record of round r (R482) goes to the F side; while the Sluice is down it waits there (R464). -/
def inboxSend (r : Nat) (a : Option Alloc) (s : State) : State :=
  let stg := bytesOfNat 4 (staggerOf (s.fld fHG_NODE))
  let rec' := match a with
    | some al =>
      let capped := al.scale.any fun x => decide (x < 0x7FFF)
      bytesOfNat 4 r ++ bytesOfNat 1 (1 + 2 * b2n capped) ++ bytesOfNat 3 0 ++ stg ++ bytesOfNat 4 al.members ++
      (al.scale.map fun x => bytesOfNat 2 x).flatten ++ bytesOfNat 16 0
    | none => bytesOfNat 4 r ++ bytesOfNat 4 0 ++ stg ++ bytesOfNat 36 0 ++ bytesOfNat 16 0
  let s := (s.setFld fHG_ROUND r).fabSet fun f => { f with inbox := some r }
  slSend 1 (.harvest rec') s

/-- A node takes an ALLOC: an aggregator multicasts it, and the inbox record is sent (R477, R482). -/
def allocTake (al : Alloc) (s : State) : State :=
  let s := (s.setFld fHG_MEMBERS al.members).fabSet fun f => { f with alloc := some al }
  let s := if isAggr s then ethSend (addrReg s rHG_MADDRi) (allocBytes s 0xFFFF al.round al.scale al.members) s else s
  inboxSend al.round (some al) s

/-- ALLOC_SEND: the root sums, scales and sends to each aggregator from which it holds a PLAN, at the address that PLAN
came from (R476, R477, R481, log 163). -/
def allocSend (s : State) : State :=
  if pageEn s hgPg = false ∨ isRoot s = false then s
  else
    let r := hgNext s % 2 ^ 32
    let ps := s.fab.plans.filter fun p => p.round == r && decide (65536 ≤ p.node)
    let cap := s.rd64 rHG_CAP
    let al : Alloc := ⟨r, (sumTotals ps).map (scaleOf cap), sumMembers ps⟩
    let s := (ps.filter fun p => p.node != aggrKey 0).foldl
      (fun t p => ethSend p.addr (allocBytes t (p.node - 65536) r al.scale al.members) t) s
    allocTake al s

def hgDrop (s : State) : State := s.incFld fHG_DROP

/-- The tests of R480 common to both messages: the fields match, and the round is the one being planned. -/
def hgOk (s : State) (h : HgHdr) (ty len : Nat) : Bool :=
  h.magic.toNat == 0x4748 && h.ver.toNat == 1 && h.ty.toNat == ty && h.group.toNat == s.fld fHG_GROUP &&
  h.len.toNat == len && h.round.toNat == hgNext s % 2 ^ 32

/-- The turn before the round being planned, so that the steps of R477 can be timed. -/
def inLastTurn (s : State) : Bool := (hgTurn s + 1) % hgR s == 0

/-- PLAN_RECEIVE from an IPv6 address (R480). -/
def planReceive (h : HgHdr) (tot : List Int) (mem addr : Nat) (s : State) : State :=
  if pageEn s hgPg = false then s
  else if isAggr s = false ∨ hgOk s h 1 132 = false then hgDrop s
  else
    let n := s.fld fHG_NODE
    let src := h.src.toNat
    let leaf := src / 256 == n / 256
    if leaf then
      if inLastTurn s ∧ 0x400000 ≤ hgFrac s then hgDrop s else storePlan ⟨src, h.round.toNat, tot, mem, addr⟩ s
    else if isRoot s ∧ src % 256 = 0 then
      if inLastTurn s ∧ 0x800000 ≤ hgFrac s then hgDrop s else storePlan ⟨aggrKey src, h.round.toNat, tot, mem, addr⟩ s
    else hgDrop s

/-- ALLOC_RECEIVE from an IPv6 address (R480, R482). -/
def allocReceive (h : HgHdr) (from' : Nat) (scale : List Nat) (mem : Nat) (s : State) : State :=
  if pageEn s hgPg = false then s
  else if hgOk s h 2 36 = false ∨ from' ≠ addrReg s (if isAggr s then rHG_ROOTi else rHG_AGGRi) then hgDrop s
  else allocTake ⟨h.round.toNat, scale, mem⟩ s

/-- HARVEST_ROUND_START: a node with no ALLOC for the round sends an inbox record with VALID 0 (R477). -/
def roundStart (s : State) : State :=
  if pageEn s hgPg = false then s
  else
    let r := hgTurn s / hgR s % 2 ^ 32
    let s := if s.fab.inbox = some r then s
      else post hgPg 0 2 (s.fld fHG_NODE) 0 r (inboxSend r none (s.incFld fHG_MISS))
    post hgPg 2 1 (s.fld fHG_NODE) 0 r s

end Sys2Proof.Machine
end

