-- ==== Sys2Proof/Machine/Cap.lean ====
section
/-!
DEFINITION. Sys2Proof/Machine/Cap.lean: the capability format (R374 to R376) and its tests.
-/
namespace Sys2Proof.Machine

def Cap.base (c : Cap) : Nat := natBits c.bits.toNat 0 40
def Cap.len (c : Cap) : Nat := natBits c.bits.toNat 40 40
def Cap.perms (c : Cap) : Nat := natBits c.bits.toNat 80 16
def Cap.otype (c : Cap) : Nat := natBits c.bits.toNat 96 16
def Cap.make (base len perms otype : Nat) : Cap :=
  ⟨true, BitVec.ofNat 128 (base % 2 ^ 40 + len % 2 ^ 40 * 2 ^ 40 + perms % 2 ^ 16 * 2 ^ 80 + otype % 2 ^ 16 * 2 ^ 96)⟩

/-- Treated as tagged (R374): the reserved bits are 0 and the range lies within 2^40. -/
def Cap.live (c : Cap) : Bool := c.tag && natBits c.bits.toNat 112 16 == 0 && decide (c.base + c.len ≤ 2 ^ 40)
def Cap.sealed (c : Cap) : Bool := c.otype != 0
/-- Tagged and unsealed (R376). -/
def Cap.usable (c : Cap) : Bool := c.live && !c.sealed
def Cap.perm (c : Cap) (i : Nat) : Bool := natBit c.perms i
def Cap.covers (c : Cap) (a n : Nat) : Bool := decide (c.base ≤ a) && decide (a + n ≤ c.base + c.len)

/-- The permissions of R375. -/
def pLOAD : Nat := 0
def pSTORE : Nat := 1
def pEXEC : Nat := 2
def pLOADCAP : Nat := 3
def pSTORECAP : Nat := 4
def pSYS : Nat := 5
def pMMIO : Nat := 6
def pPAN : Nat := 7
def pRAKE : Nat := 8
def pCRYSTAL : Nat := 9
def pPATCH : Nat := 10
def pJOURNAL : Nat := 11
def pUSERREACH : Nat := 12
def pSEAL : Nat := 13
def pLINK : Nat := 14
def pDEBUG : Nat := 15

/-- Keys of Core.sc (R378). -/
def scWSCAP : Nat := 0
def scEXCAP : Nat := 1
def scDFCAP : Nat := 2
def scESTKCAP : Nat := 3

/-- A capability as 129 bits, its tag on top, and back. -/
def Cap.pack (c : Cap) : Nat := c.bits.toNat + b2n c.tag * 2 ^ 128
def Cap.unpack (v : Nat) : Cap := ⟨natBit v 128, BitVec.ofNat 128 v⟩

/-- The capability in the Saltern granule at byte offset a; one beyond the Saltern or with an uncorrectable byte is
untagged. -/
def salCap (s : State) (a : Nat) : Cap :=
  if a % 16 = 0 ∧ a + 16 ≤ salSize ∧ salBad s a 16 = false then ⟨salTag s a, BitVec.ofNat 128 (salNum s a 16)⟩
  else ⟨false, 0⟩

end Sys2Proof.Machine
end

