-- ==== Sys2Proof/Machine/Rake.lean ====
section
/-!
DEFINITION. Sys2Proof/Machine/Rake.lean: the Rake reflex unit (R256 to R274): the rule and phase tables, the judgement
of a port's tick, latch masks, holds, the emergency input, bank swaps and the self-test.
-/
namespace Sys2Proof.Machine

def rkPg : Nat := 0x100
def State.rkSet (s : State) (f : RakeState → RakeState) : State := { s with rk := f s.rk }

/-- The state of a Brine port beyond its registers. -/
def State.port (s : State) (n : Nat) : BPort := storeGet BPort.reset s.bl.ports n
def State.setPort (s : State) (n : Nat) (p : BPort) : State :=
  { s with bl := { s.bl with ports := storeSet BPort.reset s.bl.ports n p } }

/-! Entries (R256, R257). -/

def actBank (s : State) : Nat := s.fld fRK_STAT_ACTBANK
/-- Rule entry i and phase entry p of physical bank b. -/
def ruleOf (s : State) (b i : Nat) : Nat := (storeGet 0 s.rk.rules (4096 * b + i)).toNat
def phaseOf (s : State) (b p : Nat) : Nat := (storeGet 0 s.rk.phases (512 * b + p)).toNat
def ruleUe (s : State) (b i : Nat) : Bool := storeGet false s.rk.ueRule (4096 * b + i)
def phaseUe (s : State) (b p : Nat) : Bool := storeGet false s.rk.uePhase (512 * b + p)

def rkValid (e : Nat) : Bool := natBit e 127
def rkScope (e : Nat) : Nat := natBits e 125 2
def rkEvt (e : Nat) : Bool := natBit e 124
def rkLatch (e : Nat) : Bool := natBit e 123
def rkAct (e : Nat) : Nat := natBits e 121 2
def rkDyn (e : Nat) : Bool := natBit e 120
def rkField (e : Nat) : Nat := natBits e 116 4
def rkCond (e : Nat) : Nat := natBits e 112 4
def rkPersist (e : Nat) : Nat := natBits e 108 4
def rkAmask (e : Nat) : Nat := natBits e 80 16

/-- A malformed entry: a reserved COND or a reserved bit (R257, R271). -/
def rkBad (ph : Bool) (e : Nat) : Bool :=
  if ph then natBits e 100 28 != 0 else natBits e 96 12 != 0 || natBits e 32 48 != 0 || decide (10 ≤ rkCond e)

/-- An entry of phase p in bank b reads uncorrectable: its phase is held with SAFE taken as zero (R271). -/
def entryUe (s : State) (b p : Nat) : Bool := phaseUe s b p || (List.range 8).any fun j => ruleUe s b (8 * p + j)
def phSafe (s : State) (b p : Nat) : Nat := if entryUe s b p then 0 else natBits (phaseOf s b p) 0 48
def phAlt (s : State) (b p : Nat) : Nat := if phaseUe s b p then 0 else natBits (phaseOf s b p) 48 48
def phGroup (s : State) (b p : Nat) : Nat := if phaseUe s b p then 0 else natBits (phaseOf s b p) 96 4

/-- Phase q receives the action of a rule of phase p (R262, R271). -/
def receives (s : State) (b e p q : Nat) : Bool :=
  match rkScope e with
  | 0 => q == p
  | 1 => q / 8 == p / 8
  | 2 => if phaseUe s b p then q == p else phGroup s b q == phGroup s b p
  | _ => true

/-! Holds (R267). -/

/-- SAFE_HOLD is posted once at the start of a hold. -/
def safeHold (cause subj tag tick : Nat) (s : State) : State :=
  postEvent ⟨rkPg, 4, 2⟩ (bytesOfNat 2 subj ++ bytesOfNat 2 cause ++ bytesOfNat 4 tag ++ bytesOfNat 8 tick) s

def addHold (h : Hold) (tag : Nat) (s : State) : State :=
  safeHold h.cause h.subj tag h.first (s.rkSet fun r => { r with holds := r.holds ++ [h] })

/-- The holds that satisfy `p` end before the frame of tick t. -/
def Hold.until (h : Hold) (t : Nat) : Hold := { h with stop := some (match h.stop with | some u => min t u | none => t) }
def endHolds (p : Hold → Bool) (t : Nat) (s : State) : State :=
  s.rkSet fun r => { r with holds := r.holds.map fun h => if p h then h.until t else h }

def Hold.active (h : Hold) (t : Nat) : Bool :=
  decide (h.first ≤ t) && (match h.stop with | some u => decide (t < u) | none => true)

def dynBase (s : State) : Nat := s.fld fRK_DBASE * 8192
def dynAddr (s : State) (b p : Nat) : Nat := dynBase s + 4096 * b + 8 * p

/-- A dynamic word of phase p was read uncorrectable and has not been rewritten (R266). -/
def dynBad (s : State) (p : Nat) : Bool :=
  [0, 1].any fun b => storeGet false s.rk.dynUe (512 * b + p) && salBad s (dynAddr s b p) 8

/-- The fields of phase p that hold requests name in the frame of tick t (R267): those under DYN_UE until the word is
rewritten; BROWNOUT names all fields of every phase. -/
def heldFields (s : State) (p t : Nat) : Nat :=
  s.rk.holds.foldl (fun m h =>
      if h.active t && decide (h.lo ≤ p) && decide (p < h.lo + h.n) && (h.cause != 4 || dynBad s h.subj) then Nat.lor m h.mask
      else m)
    (if s.flag fBWCTL_HOLD && s.flag fPWR_STAT_BELOW then 0xFFFF else 0)

/-! Judgement (R258 to R262). -/

/-- Sample field f of local phase l in the 80 bytes of a sample frame (R231, R233). -/
def sampleField (fr : List Byte) (l f : Nat) : Int :=
  if f < 4 then signedOf 16 (numAt fr (8 + 8 * l + 2 * f) 2)
  else if f < 8 then signedOf 16 (numAt fr (72 + 2 * (f - 4)) 2)
  else 0

/-- What a rule of local phase l sees of its port's tick: the used frame, the frame judged in the previous tick, and the
count of consecutive ticks without a valid frame. -/
structure Judged where
  frame : Option (List Byte)
  prev : Option (List Byte)
  miss : Nat
deriving DecidableEq, Repr

/-- The condition of a rule (R258). -/
def rkHolds (e l : Nat) (t1 t2 : Int) (v : Judged) : Bool :=
  match v.frame with
  | none => rkCond e == 9 && decide (t1 ≤ v.miss)
  | some fr =>
    let x := sampleField fr l (rkField e)
    let xp := v.prev.map fun q => sampleField q l (rkField e)
    match rkCond e with
    | 0 => decide (t1 < x)
    | 1 => decide (x < t1)
    | 2 => decide (x < t1) || decide (t2 < x)
    | 3 => decide (t1 ≤ x) && decide (x ≤ t2)
    | 4 => decide (t1 < x.natAbs)
    | 5 => match xp with | some y => decide (t1 < x - y) | none => false
    | 6 => match xp with | some y => decide (t1 < y - x) | none => false
    | 7 => natBit (numAt fr 5 1) l
    | 8 => Nat.land (numAt fr 4 1) (wrapTo 8 t1) != 0
    | _ => false

/-- The thresholds of a rule of phase p (R257, R265). -/
def rkT1 (s : State) (e p : Nat) : Int :=
  signedOf 16 (if rkDyn e then natBits (storeGet 0 s.rk.dyn p) 0 16 else natBits e 0 16)
def rkT2 (s : State) (e p : Nat) : Int :=
  signedOf 16 (if rkDyn e then natBits (storeGet 0 s.rk.dyn p) 16 16 else natBits e 16 16)

/-- This tick's dynamic read found the word of phase p uncorrectable: it has no thresholds in this tick (log 139). -/
def dynNone (s : State) (p : Nat) : Bool := storeGet false s.rk.dynUe (512 * (tickNo s % 2) + p)

/-- Rule i of the ACTIVE bank is evaluated in this tick (R259, R264, R266, R271). -/
def ruleRuns (s : State) (i : Nat) (v : Judged) : Bool :=
  let e := ruleOf s (actBank s) i
  s.rk.enEff && rkValid e && !ruleUe s (actBank s) i && !dynBad s (i / 8) && !(rkDyn e && dynNone s (i / 8)) &&
    (v.frame.isSome || rkCond e == 9)

/-- A latching rule that is tripped sets the latch masks of its receiving phases (R262). -/
def latchTrip (e p : Nat) (s : State) : State :=
  let b := actBank s
  let qs := if rkScope e = 0 then [p] else (List.range 512).filter fun q => receives s b e p q
  let put := fun (l : List (Nat × Nat)) => qs.foldl (fun m q => storeSet 0 m q (Nat.lor (storeGet 0 m q) (rkAmask e))) l
  match rkAct e with
  | 1 => s.rkSet fun r => { r with lmin := put r.lmin }
  | 2 => s.rkSet fun r => { r with lalt := put r.lalt }
  | 3 => s.rkSet fun r => { r with lsafe := put r.lsafe }
  | _ => s

/-- A value that the spec does not state is free (log 5). -/
def orFree (o : Option Int) (s : State) : Nat × State :=
  match o with
  | some x => (wrapTo 16 x, s)
  | none => (s.freeVal % 65536, s.stepFree)

/-- The first tick of a trip (R261, R274): the counters, the last trip, and a record unless the phase has posted one in
this tick. -/
def newTrip (e i l : Nat) (v : Judged) (s : State) : State :=
  let p := i / 8
  let f := orFree (v.frame.map fun fr => sampleField fr l (rkField e)) s
  let g := orFree (v.prev.map fun fr => sampleField fr l (rkField e)) f.2
  let s := (g.2.incFld fRK_TRIPS).wr rRK_LASTTRIP (BitVec.ofNat 32 (p * 2 ^ 16 + i))
  let s := s.wr rRK_LASTVAL (BitVec.ofNat 32 (g.1 * 2 ^ 16 + f.1))
  if rkEvt e = false then s
  else if storeGet 0 s.rk.posted p = tickNo s + 1 then s.incFld fRK_EVDROP
  else
    postEvent ⟨rkPg, 0, 2⟩ (bytesOfNat 2 p ++ bytesOfNat 2 i ++ bytesOfNat 2 f.1 ++ bytesOfNat 2 g.1 ++
        bytesOfNat 8 (tickNo s))
      (s.rkSet fun r => { r with posted := storeSet 0 r.posted p (tickNo s + 1) })

/-- Rule i in this tick (R260, R261). -/
def judgeRule (i : Nat) (v : Judged) (s : State) : State :=
  if ruleRuns s i v = false then s
  else
    let e := ruleOf s (actBank s) i
    let l := i / 8 % 8
    let h := rkHolds e l (rkT1 s e (i / 8)) (rkT2 s e (i / 8)) v
    let n := if h then min (storeGet 0 s.rk.cnt i + 1) (rkPersist e + 1) else 0
    let was := storeGet false s.rk.trip i
    let now := if rkCond e = 9 then h else n == rkPersist e + 1
    let s := s.rkSet fun r => { r with cnt := storeSet 0 r.cnt i n, trip := storeSet false r.trip i now }
    let s := if now && rkLatch e then latchTrip e (i / 8) s else s
    if now && !was then newTrip e i l v s else s

/-- The Rake judges port n's tick (R259); the decision took `lat` ns, counted without a valid frame from 448 ns of the
tick, the latest last symbol (R230, R268, log 138). -/
def judgePort (n : Nat) (v : Judged) (lat : Nat) (s0 : State) : State :=
  let s := if frozen s0 rkPg then s0 else (List.range 64).foldl (fun t k => judgeRule (64 * n + k) v t) s0
  if frozen s0 rkPg then s
  else
    let s := s.setFld fRK_MAXLAT (max (s.fld fRK_MAXLAT) (min 255 lat))
    if lat ≤ 96 then s
    else
      let s := setPost fRK_STAT_LATE rkPg 6 3 n 0 lat s
      if s.rk.holds.any fun h => h.cause == 8 && h.subj == n && h.stop.isNone then s
      else addHold ⟨8, n, 0, 8 * n, 8, 0xFFFF, tickNo s + 1, none⟩ 0 s

/-! The command frame (R263). -/

/-- Low bit and width of command field f in a phase block (R240). -/
def cmdSpan (f : Nat) : Nat × Nat :=
  match f with
  | 0 => (0, 12) | 1 => (12, 8) | 2 => (20, 6) | 3 => (26, 4) | 4 => (30, 1) | 5 => (31, 1) | 6 => (32, 1) | 7 => (33, 1)
  | 8 => (34, 3) | 9 => (37, 3) | 10 => (40, 1) | 11 => (41, 1) | 12 => (42, 2) | 13 => (44, 2) | 14 => (46, 1)
  | _ => (47, 1)

def cmdField (blk f : Nat) : Nat := natBits blk (cmdSpan f).1 (cmdSpan f).2

/-- A phase block whose field f is `g f`. -/
def cmdBlock (g : Nat → Nat) : Nat := (List.range 16).foldl (fun a f => a + g f % 2 ^ (cmdSpan f).2 * 2 ^ (cmdSpan f).1) 0

/-- The fields of one phase that each source of R263 names in a frame. -/
structure Ovr where
  min : Nat
  alt : Nat
  safe : Nat
  hold : Nat
  em : Bool
deriving DecidableEq, Repr

/-- AMASK of the tripped rules of the ACTIVE bank with action `act` that phase q receives. -/
def tripMask (s : State) (act q : Nat) : Nat :=
  let b := actBank s
  s.rk.trip.foldl (fun m t =>
    let e := ruleOf s b t.1
    if t.2 && rkAct e == act && receives s b e (t.1 / 8) q then Nat.lor m (rkAmask e) else m) 0

/-- The sources of phase q's block in the frame of tick t (R262 to R264, R273). A self-test's masks are min + 2^16 alt +
2^32 safe. -/
def ovrOf (s : State) (q t : Nat) (test : Nat) : Ovr :=
  let live := fun act => if s.rk.enEff then tripMask s act q else 0
  ⟨Nat.lor (Nat.lor (live 1) (storeGet 0 s.rk.lmin q)) (natBits test 0 16),
   Nat.lor (Nat.lor (live 2) (storeGet 0 s.rk.lalt q)) (natBits test 16 16),
   Nat.lor (Nat.lor (live 3) (storeGet 0 s.rk.lsafe q)) (natBits test 32 16),
   heldFields s q t, s.flag fRK_STAT_EMERG⟩

/-- The value of field f under the sources (R263). -/
def ovrField (o : Ovr) (alt safe blk f : Nat) : Nat :=
  if o.em then 0
  else if natBit o.hold f || natBit o.safe f then cmdField safe f
  else if natBit o.alt f then cmdField alt f
  else if natBit o.min f then min (cmdField blk f) (cmdField alt f)
  else cmdField blk f

def ovrBlock (o : Ovr) (alt safe blk : Nat) : Nat := cmdBlock (ovrField o alt safe blk)

/-- Overridden fields and highest source, coded as RK_POVR (R274). -/
def ovrCode (o : Ovr) : Nat :=
  if o.em then 5 * 2 ^ 16 + 0xFFFF
  else
    let m := Nat.lor (Nat.lor o.min o.alt) (Nat.lor o.safe o.hold)
    m + 2 ^ 16 * (if o.hold ≠ 0 then 4 else if o.safe ≠ 0 then 3 else if o.alt ≠ 0 then 2 else if o.min ≠ 0 then 1 else 0)

/-! Tick boundary (R262, R264 to R266, R271). -/

def rkSwapDue (s : State) : Bool := s.flag fRK_STAT_SWAPPEND && decide (s.rk.swapAt + 99 ≤ fcycOf s)

/-- The banks swap: counts go to 0, trips end, latch masks are kept (R271). -/
def rkSwap (s : State) : State :=
  let b := actBank s
  post rkPg 1 1 0 0 0
    ((((s.setFld fRK_STAT_ACTBANK (1 - b)).setFlag fRK_STAT_SWAPPEND false)).rkSet fun r => { r with cnt := [], trip := [] })

/-- Requested unlatches take effect. -/
def rkUnlatch (s : State) : State :=
  if s.rk.unlatch.contains 512 then
    s.rkSet fun r => { r with lmin := [], lalt := [], lsafe := [], unlatch := [] }
  else
    let keep := fun (q : Nat) => !s.rk.unlatch.contains q
    s.rkSet fun r => { r with lmin := storeKeep keep r.lmin, lalt := storeKeep keep r.lalt,
                              lsafe := storeKeep keep r.lsafe, unlatch := [] }

/-- A hold of one phase by the Rake itself starts or ends (R266, R271). -/
def phaseHold (cause p : Nat) (bad : Bool) (s : State) : State :=
  let on := s.rk.holds.any fun h => h.cause == cause && h.subj == p && h.stop.isNone
  if bad && !on then addHold ⟨cause, p, 0, p, 1, 0xFFFF, tickNo s, none⟩ 0 s
  else if !bad && on then endHolds (fun h => h.cause == cause && h.subj == p) (tickNo s) s
  else s

/-- The dynamic read of tick n: buffer n mod 2 (R265); words that read uncorrectable hold their phases until they are
rewritten (R266). -/
def dynRead (s : State) : State :=
  let b := tickNo s % 2
  let vals := (List.range 512).foldl (fun m p => storeSet 0 m p (salNum s (dynAddr s b p) 4)) []
  let t := salReadFx 64 (dynAddr s b 0) 4096 s
  let ue := (List.range 512).foldl (fun m p => storeSet false m (512 * b + p) (salBad s (dynAddr s b p) 8)) s.rk.dynUe
  let t := if (List.range 512).any fun p => salBad s (dynAddr s b p) 8 then t.setFlag fRK_STAT_UESEEN true else t
  t.rkSet fun r => { r with dyn := vals, dynUe := ue }

/-- Words found uncorrectable are looked at again; a rewritten word no longer holds its phase. -/
def dynCheck (s : State) : State :=
  let ue := s.rk.dynUe.filter fun e => salBad s (dynAddr s (e.1 / 512) (e.1 % 512)) 8
  let ps := ((s.rk.holds.filter fun h => h.cause == 4 && h.stop.isNone).map fun h => h.subj) ++ (ue.map fun e => e.1 % 512)
  let s := s.rkSet fun r => { r with dynUe := ue }
  ps.foldl (fun t p => phaseHold 4 p (dynBad t p) t) s

/-- Uncorrectable entries of the ACTIVE bank hold their phases (R271). -/
def entryCheck (s : State) : State :=
  let b := actBank s
  let bad := (s.rk.uePhase.map fun e => e.1 % 512) ++ (s.rk.ueRule.map fun e => e.1 % 4096 / 8)
  let ps := bad ++ (s.rk.holds.filter fun h => h.cause == 7 && h.stop.isNone).map fun h => h.subj
  ps.foldl (fun t p =>
    let on := t.rk.holds.any fun h => h.cause == 7 && h.subj == p && h.stop.isNone
    let t := if entryUe t b p && !on then setPost fRK_STAT_UESEEN rkPg 5 3 p 0 0 t else t
    phaseHold 7 p (entryUe t b p) t) s

/-- The Rake at a tick boundary. -/
def rkBoundary (s : State) : State :=
  let s := s.rkSet fun r => { r with enEff := pageEn s rkPg, holds := r.holds.filter fun h =>
    match h.stop with | some u => decide (tickNo s < u) | none => true }
  let s := rkUnlatch s
  let s := if rkSwapDue s then rkSwap s else s
  let s := if s.rk.enEff then dynRead s else s
  entryCheck (dynCheck s)

/-- Entries that read uncorrectable from now on (R271). -/
def rkUpset (u : RkUpset) (s : State) : State :=
  let i := u.index.toNat
  let b := u.bank.toNat
  if u.phase then (if i < 512 then s.rkSet fun r => { r with uePhase := storeSet false r.uePhase (512 * b + i) true } else s)
  else s.rkSet fun r => { r with ueRule := storeSet false r.ueRule (4096 * b + i) true }
def rkUpsets (us : List RkUpset) (s : State) : State :=
  if us.isEmpty ∨ frozen s rkPg then s else entryCheck (us.foldl (fun t u => rkUpset u t) s)

/-! Commands of pages 0x100 and 0x101. -/

def rkRefuse (s : State) : State := setPost fRK_STAT_CFGREFUSED rkPg 8 1 0 0 0 s

/-- PAGE_CTRL.EN of page 0x100 (R264). -/
def rkEnWrite (on : Bool) (s : State) : State :=
  if on = false ∧ pageEn s rkPg ∧ s.fld fCRY_STAT_NADMIT ≠ 0 then rkRefuse s else s.setFlag (fPAGE_CTRL_EN rkPg) on

/-- ns since the present tick's boundary. -/
def tickNs (s : State) : Nat := (fcycOf s - s.tb.tickFcyc) * 125 / 192

def rkUnlatchReq (p : Nat) (s : State) : State := s.rkSet fun r => { r with unlatch := r.unlatch ++ [p] }

/-- RK_CTRL.MAXCLR (R268). -/
def rkMaxClr (s : State) : State :=
  (s.setFld fRK_MAXLAT 0).rkSet fun r => { r with holds := r.holds.filter fun h => h.cause != 8 }

/-- RK_CTRL.SWAP (R271). -/
def rkSwapReq (s : State) : State :=
  if s.flag fRK_STAT_SWAPPEND then rkRefuse s
  else (s.setFlag fRK_STAT_SWAPPEND true).rkSet fun r => { r with swapAt := fcycOf s }

def rkWselWrite (v : Word) (s : State) : State :=
  if s.flag fRK_STAT_SWAPPEND then rkRefuse s else plainWrite rRK_WSEL v s

/-- A write of RK_WDATAi (R271). -/
def rkWdataWrite (i : Nat) (v : Word) (s : State) : State :=
  if s.flag fRK_STAT_SWAPPEND then rkRefuse s
  else if s.flag fRK_WSEL_ACTRD then s
  else
    let s := s.rkSet fun r => { r with stage := storeSet 0 r.stage i v }
    if i ≠ 3 then s
    else
      let w := fun j => (storeGet 0 s.rk.stage j).toNat
      let e := w 0 + w 1 * 2 ^ 32 + w 2 * 2 ^ 64 + v.toNat * 2 ^ 96
      let ph := s.flag fRK_WSEL_PH
      let x := s.fld fRK_WSEL_INDEX
      let b := 1 - actBank s
      if ph = true ∧ 512 ≤ x then rkRefuse s
      else
        let s := if ph then s.rkSet fun r => { r with phases := storeSet 0 r.phases (512 * b + x) (BitVec.ofNat 128 e),
                                                      uePhase := storeSet false r.uePhase (512 * b + x) false }
          else s.rkSet fun r => { r with rules := storeSet 0 r.rules (4096 * b + x) (BitVec.ofNat 128 e),
                                         ueRule := storeSet false r.ueRule (4096 * b + x) false }
        if rkBad ph e then setPost fRK_STAT_BADRULE rkPg 7 1 x 0 0 s else s

/-- What RK_WDATAi reads as (R271). -/
def rkWdataRead (s : State) (i : Nat) : Word :=
  let b := if s.flag fRK_WSEL_ACTRD then actBank s else 1 - actBank s
  let x := s.fld fRK_WSEL_INDEX
  let e := if s.flag fRK_WSEL_PH then (if 512 ≤ x then 0 else phaseOf s b x) else ruleOf s b x
  BitVec.ofNat 32 (e / 2 ^ (32 * i))

/-! Self-test (R273). -/

/-- The masks of local phase l when `fr` is judged as a frame of port n against bank b. -/
def testMasks (s : State) (b n : Nat) (fr : List Byte) (l : Nat) : Nat :=
  let prev := (s.port n).last
  let hit := fun (act k : Nat) =>
    let i := 64 * n + k
    let e := ruleOf s b i
    rkValid e && !ruleUe s b i && rkAct e == act && rkCond e != 9 && receives s b e (i / 8) (8 * n + l) &&
    rkHolds e (k / 8) (rkT1 s e (i / 8)) (rkT2 s e (i / 8)) ⟨some fr, prev, 0⟩
  let mask := fun act => (List.range 64).foldl (fun m k => if hit act k then Nat.lor m (rkAmask (ruleOf s b (64 * n + k))) else m) 0
  mask 1 + mask 2 * 2 ^ 16 + mask 3 * 2 ^ 32

def rkTestGo (s : State) : State :=
  if s.flag fRK_STAT_TESTBUSY then rkRefuse s
  else
    let b := if s.flag fRK_TCTRL_BANK then 1 - actBank s else actBank s
    let n := s.fld fRK_TCTRL_PORT
    let fr := ((List.range 20).map fun i => bytesOfNat 4 (s.rd (rRK_TFRAMEi i)).toNat).flatten
    (s.setFlag fRK_STAT_TESTBUSY true).rkSet fun r =>
      { r with test := some ((List.range 8).map fun l => testMasks s b n fr l), testPort := n, testBank := b,
               testDo := s.flag fRK_TCTRL_APPLY }

end Sys2Proof.Machine
end

