-- ==== Sys2Proof/Machine/Context.lean ====
section
/-!
DEFINITION. Sys2Proof/Machine/Context.lean: the loop contexts of the Crystallizer: the descriptor (R72), the states
(R70), when a context launches (R75), and the holds of its owned fields (R267).
-/
namespace Sys2Proof.Machine

/-! The descriptor (R72). -/

def xPlog (d : List Word) : Nat := bitsGet (dW d 0) 0 4
def xOffset (d : List Word) : Nat := bitsGet (dW d 0) 4 12
def xOvr (d : List Word) : Nat := bitsGet (dW d 0) 16 4
def xLate (d : List Word) : Bool := bitsGet (dW d 0) 20 1 == 1
def xTask (d : List Word) : Bool := bitsGet (dW d 0) 21 1 == 1
def xCore (d : List Word) : Nat := bitsGet (dW d 0) 22 2
def xNord (d : List Word) : Nat := bitsGet (dW d 1) 0 16
def xDepth (d : List Word) : Nat := bitsGet (dW d 1) 16 5
def xClasses (d : List Word) : Nat := bitsGet (dW d 1) 21 3
def xAddr (d : List Word) (i : Nat) : Nat := (dW d i).toNat + bitsGet (dW d (i + 1)) 0 8 * 2 ^ 32
def xOlist (d : List Word) : Nat := xAddr d 2
def xTcap (d : List Word) : Nat := xAddr d 4
def xOlcap (d : List Word) : Nat := xAddr d 6
def xBudget (d : List Word) : Nat := bitsGet (dW d 8) 0 16
def xBeats (d : List Word) : Nat := bitsGet (dW d 9) 0 24
def xMbox (d : List Word) : Nat := xAddr d 10
def xFphase (d : List Word) : Nat := bitsGet (dW d 12) 0 9
def xNph (d : List Word) : Nat := bitsGet (dW d 12) 16 10
def xFmask (d : List Word) : Nat := bitsGet (dW d 13) 0 16
def xTag (d : List Word) : Nat := (dW d 14).toNat

/-- The bits of a descriptor word that are not reserved (R72). -/
def xDefined (i : Nat) : Nat :=
  match i with
  | 0 => 0x00FFFFFF | 1 => 0x00FFFFFF | 3 => 0xFF | 5 => 0xFF | 7 => 0xFF | 8 => 0xFFFF | 9 => 0xFFFFFF | 11 => 0xFF
  | 12 => 0x03FF01FF | 13 => 0xFFFF | 15 => 0 | _ => 0xFFFFFFFF

/-- The context launches in ticks t with t mod 2^k = OFFSET (R72). -/
def xFalls (d : List Word) (t : Nat) : Bool := t % 2 ^ xPlog d == xOffset d
/-- The first tick from t on at which it falls. -/
def xNext (d : List Word) (t : Nat) : Nat :=
  let p := 2 ^ xPlog d
  t + (xOffset d + p - t % p) % p

/-- The phases and fields the context owns meet those of another (R85). -/
def xMeets (d e : List Word) : Bool :=
  decide (xFphase d < xFphase e + xNph e) && decide (xFphase e < xFphase d + xNph d) &&
  Nat.land (xFmask d) (xFmask e) != 0 && xNph d != 0 && xNph e != 0

/-! The retained store (R69, R70). -/

def ctxOf (s : State) (n : Nat) : Ctx := storeGet Ctx.free s.cry.ctx n
def State.crySet (s : State) (f : CryState → CryState) : State := { s with cry := f s.cry }
/-- A context changes, and CRY_STAT.NADMIT counts those not FREE. -/
def State.setCtx (s : State) (n : Nat) (c : Ctx) : State :=
  let l := storeSet Ctx.free s.cry.ctx n c
  (s.crySet fun r => { r with ctx := l }).setFld fCRY_STAT_NADMIT (l.countP fun e => e.2.st != .free)

def CtxSt.code : CtxSt → Nat
  | .free => 0
  | .admitted => 1
  | .suspended => 2
  | .draining => 3

/-- The descriptor and costs that govern a launch of tick t (R75). -/
def Ctx.descAt (c : Ctx) (t : Nat) : List Word :=
  c.next.foldl (fun d x => if x.tick ≤ t then x.desc else d) c.desc
def Ctx.costAt (c : Ctx) (t : Nat) : Cost :=
  c.next.foldl (fun d x => if x.tick ≤ t then x.cost else d) c.cost
/-- The descriptor and costs that an admission test counts: those of the last REPLACE completed (R75). -/
def Ctx.loadDesc (c : Ctx) : List Word := c.next.foldl (fun _ x => x.desc) c.desc
def Ctx.loadCost (c : Ctx) : Cost := c.next.foldl (fun _ x => x.cost) c.cost

/-- The context launches in tick t (R70, R75). -/
def Ctx.due (c : Ctx) (t : Nat) : Bool :=
  xFalls (c.descAt t) t &&
  (match c.first with | some u => decide (u ≤ t) | none => false) &&
  (match c.st with
   | .free => false
   | .admitted => true
   | .suspended => (match c.stop with | some u => decide (t < u) | none => true)
   | .draining => !c.fromSusp && (match c.last with | some u => decide (t ≤ u) | none => true))

/-! Holds of owned fields (R267). -/

def ctxHold (cause n : Nat) (d : List Word) (first : Nat) (stop : Option Nat) (s : State) : State :=
  addHold ⟨cause, n, n, xFphase d, xNph d, xFmask d, first, stop⟩ (xTag d) s

/-- A SUSPENDED context is held from the frame of tick t on (R71, R93, R267). -/
def suspHold (n t : Nat) (s : State) : State := ctxHold 2 n ((ctxOf s n).descAt t) t none s
/-- The hold of a SUSPENDED context ends (R267). -/
def suspEnd (n : Nat) (s : State) : State := endHolds (fun h => h.cause == 2 && h.ctx == n) (tickNo s + 1) s

/-- A context becomes FREE (R76). -/
def ctxRelease (n : Nat) (s : State) : State := (suspEnd n s).setCtx n Ctx.free

/-- The entry of context n is found uncorrectable (R71): SUSPENDED, CTX_ECC and the hold. -/
def ctxEcc (n : Nat) (s : State) : State :=
  let c := ctxOf s n
  match c.st with
  | .free => s
  | _ => suspHold n (tickNo s + 1)
      (post 0x110 4 3 n 0 0 (s.setCtx n { c with st := .suspended, eccErr := true, stop := some 0 }))

end Sys2Proof.Machine
end

