-- ==== Sys2Proof/Machine/Tally.lean ====
section
/-!
DEFINITION. Sys2Proof/Machine/Tally.lean: the Tally journal (R439 to R450) and the life of an accepted command on the
F-die: commit, notice, application, refusal, expiry, release, replay (R95 to R100, R442, R443).
-/
namespace Sys2Proof.Machine

def State.tjSet (s : State) (f : TjState → TjState) : State := { s with tj := f s.tj }

/-! Entries (R439). -/

def jSize : Nat := 16384
def jOff (i : Nat) : Nat := 0xF00000 + 64 * i
def jByte (s : State) (i b : Nat) : Nat := (storeGet 0 s.mram (jOff i + b)).toNat
def jBytes (s : State) (i : Nat) : List Byte := (List.range 64).map fun b => storeGet 0 s.mram (jOff i + b)
def jNum (s : State) (i b n : Nat) : Nat := natOfBytes ((List.range n).map fun k => storeGet 0 s.mram (jOff i + b + k))
def jState (s : State) (i : Nat) : Nat := natBits (jByte s i 1) 4 2
def jStatus (s : State) (i : Nat) : Nat := natBits (jByte s i 1) 2 2
def jClass (s : State) (i : Nat) : Nat := natBits (jByte s i 1) 0 2
def jTarget (s : State) (i : Nat) : Nat := jNum s i 2 2 % 16384
def jCseq (s : State) (i : Nat) : Nat := jNum s i 4 4
def jQid (s : State) (i : Nat) : Nat := jNum s i 8 2
def jDl (s : State) (i : Nat) : Nat := jNum s i 10 6
/-- An uncorrectable entry (R450). -/
def jBad (s : State) (i : Nat) : Bool := (List.range 64).any fun b => storeGet false s.lmErr (0x40000000 + jOff i + b)

def JInfo.zero : JInfo :=
  { noticed := false, ta := 0, angle := 0, bound := 0, age := 0, byDl := false, held := false, seq := 0, skip := 0,
    verdict := none, fcyc := 0, oAngle := 0, oTick := 0 }
def jInfo (s : State) (i : Nat) : JInfo := storeGet JInfo.zero s.tj.info i
def State.setInfo (s : State) (i : Nat) (x : JInfo) : State :=
  s.tjSet fun t => { t with info := storeSet JInfo.zero t.info i x }

/-- The entries whose STATE byte is listed in MRAM, by index. -/
def jListed (s : State) : List Nat :=
  (s.mram.filter fun e => decide (0xF00000 ≤ e.1) && e.1 % 64 == 1).map fun e => (e.1 - 0xF00000) / 64

/-- Entry i is committed, and no settle mark has been started for it. -/
def jPending (s : State) (i : Nat) : Bool := jState s i == 1 && !(s.tj.writes.any fun w => w.idx == i && w.mark)
/-- Insertion of an entry before the first one that `after` puts behind it. -/
def insertBy (after : Nat → Bool) (i : Nat) : List Nat → List Nat
  | [] => [i]
  | j :: r => if after j then i :: j :: r else j :: insertBy after i r
/-- The known entries in order of journal commit (R95). -/
def jOrder (s : State) : List Nat :=
  (((jListed s).filter fun i => jPending s i && (jInfo s i).seq != 0)).foldl
    (fun l i => insertBy (fun j => decide ((jInfo s i).seq < (jInfo s j).seq)) i l) []

/-- An entry is occupied from commit to release (R440). -/
def jOcc (s : State) (i : Nat) : Bool :=
  jState s i == 1 || jState s i == 2 || s.tj.writes.any fun w => w.idx == i && !w.mark

/-- The lowest FREE or RELEASED entry from i on, wrapping (R440). -/
def jFree (s : State) : Nat → Nat → Option Nat
  | 0, _ => none
  | n + 1, i => if jOcc s (i % jSize) then jFree s n (i + 1) else some (i % jSize)

/-- TJ_OCC and QE_STAT.JFULL (R440). -/
def jCount (n : Nat) (s : State) : State :=
  let s := s.setFld fTJ_OCC n
  let full := decide (jSize ≤ n)
  if full && !s.flag fQE_STAT_JFULL then setPost fQE_STAT_JFULL 0x1020 3 2 0 0 0 s
  else s.setFlag fQE_STAT_JFULL full

/-! Commit (R440). -/

/-- JOURNAL_COMMIT: the oldest arrived command starts its commit write, unless a supply is below the warning level or
the journal is full. -/
def journalCommit (s : State) : State :=
  let s := if s.sl.inF.any (fun m => m.cls == 0) then s else pull 1 0 s
  match s.sl.inF.find? fun m => m.cls == 0 with
  | some (.cmd q e) =>
    if s.flag fPWR_STAT_BELOW then s
    else
      match jFree s jSize (s.tj.last + 1) with
      | none => s
      | some i =>
        jCount (s.fld fTJ_OCC + 1) ((dropF (.cmd q e) s).tjSet fun t =>
          { t with last := i, writes := t.writes ++ [⟨i, false, bytesAt e 0 64, q, fcycOf s, 0⟩] })
  | _ => s

/-- The bound B of a class (R439). -/
def boundOf (s : State) (cls : Nat) : Nat := if cls = 0 then 16 else if cls = 1 then 256 else s.tb.nCur + 256

/-- DL of an entry committed now (R439). -/
def deadlineOf (s : State) (b : Nat) : Nat :=
  ceilDiv (boundaryAngle s.tb.nCur (boundaryNo s.tb.nCur (angleOf s) + b + 1)) (2 ^ 16)

/-- The granules of a committed entry (R439). -/
def entryBytes (cls st state q dl : Nat) (e : List Byte) : List Byte :=
  bytesAt e 0 1 ++ bytesOfNat 1 (cls + 4 * st + 16 * state) ++ bytesAt e 2 6 ++ bytesOfNat 2 q ++ bytesOfNat 6 dl ++
  bytesAt e 16 48

/-- A commit write ends: the entry is COMMITTED in this tick and its acknowledgement leaves (R96, R440). -/
def commitDone (w : JWrite) (s : State) : State :=
  let cls := numAt w.bytes 1 1 % 4
  let b := boundOf s cls
  let s := mramWrite (jOff w.idx) (entryBytes cls 0 1 w.q (deadlineOf s b) w.bytes) s
  let s := (s.setInfo w.idx { JInfo.zero with ta := tickNo s, angle := angleOf s, bound := b, seq := s.tj.seq + 1,
                                              fcyc := fcycOf s }).tjSet fun t => { t with seq := t.seq + 1 }
  slSend 0 (.jack w.q (numAt w.bytes 4 4) w.idx (tickNo s) (angleOf s)) s

/-- Byte 1 of granule 0 is rewritten. -/
def jMark (i st state : Nat) (s : State) : State :=
  mramWrite (jOff i + 1) (bytesOfNat 1 (jClass s i + 4 * st + 16 * state)) s

/-- A settle mark ends; TJ_MARKMAX keeps the longest of those for APPLIED, which a launch point starts (R441). -/
def markDone (w : JWrite) (s : State) : State :=
  let t := jMark w.idx (numAt w.bytes 0 1) 2 s
  if numAt w.bytes 0 1 = 1 then
    t.setFld fTJ_MARKMAX (max (s.fld fTJ_MARKMAX) (min 65535 (ceilDiv ((fcycOf s - w.start) * 125) 192)))
  else t

def writeDone (w : JWrite) (s : State) : State :=
  let s := s.tjSet fun t => { t with writes := t.writes.erase w }
  if w.mark then markDone w s else commitDone w s

/-- JOURNAL_WRITE_COMPLETE for entry i. -/
def journalWriteComplete (i : Nat) (s : State) : State :=
  match s.tj.writes.find? fun w => w.idx == i with
  | some w => writeDone w s
  | none => s

/-! Settlement (R440 to R443). -/

/-- Entry i is settled with a STATUS (1 APPLIED, 2 REFUSED, 3 EXPIRED): its mark starts and its outcome is sent. -/
def settle (i st angle tick : Nat) (s : State) : State :=
  let q := jQid s i
  let c := jCseq s i
  let s := s.setInfo i { jInfo s i with oAngle := angle, oTick := tick }
  slSend 0 (.outcome q c i st angle tick)
    (s.tjSet fun t => { t with writes := t.writes ++ [⟨i, true, bytesOfNat 1 st, q, fcycOf s, tick⟩] })

/-- The angle of the start of the present tick, less the ticks of entry i that do not count (R442, R443). -/
def jAngle (s : State) (i : Nat) : Nat :=
  let n := s.tb.nCur
  let j := boundaryNo n s.tb.tickAngle
  s.tb.tickAngle - (boundaryAngle n j - boundaryAngle n (j - (jInfo s i).skip))

/-- The bound of entry i has ended (R442, R443, R449): in ticks since t_a, or for an entry rebuilt from the journal by its
deadline. -/
def jDue (s : State) (i : Nat) : Bool :=
  let x := jInfo s i
  if x.byDl then decide (jDl s i * 2 ^ 16 ≤ jAngle s i) else x.bound != 0 && decide (x.bound + 1 ≤ x.age)

/-- COMMAND_EXPIRE: entry i at a tick boundary (R443), unless the Crystallizer is frozen (R574) or MRAM may start no
write (R508). -/
def expire (i : Nat) (s : State) : State :=
  if jPending s i && jDue s i && !frozen s 0x110 && !s.flag fPWR_STAT_BELOW then
    settle i 3 s.tb.tickAngle (tickNo s) (s.incFld fTJ_EXPIRED)
  else s

/-- b tick boundaries for the journal: ticks that begin below the warning level are not counted (R442). -/
def tallyBoundary (b : Nat) (s : State) : State :=
  let dip := belowWarning s
  let s := (jOrder s).foldl (fun t i =>
    let x := jInfo t i
    t.setInfo i (if dip then { x with skip := x.skip + b } else { x with age := x.age + b })) s
  (jOrder s).foldl (fun t i => expire i t) s

/-! Notices (R96, R100). -/

def noticeReceive (s : State) : State :=
  let isN := fun (m : Msg) => match m with | .notice _ => true | _ => false
  let s := if s.sl.inF.any isN then s else pull 1 1 s
  match s.sl.inF.find? isN with
  | some (.notice i) => (dropF (.notice i) s).setInfo i { jInfo s i with noticed := true }
  | _ => s

/-- ACCEPT_BY_TIMEOUT of entry i: 8,000 ns after its commit with every lane down (R100). -/
def acceptTimeout (i : Nat) (s : State) : State :=
  let x := jInfo s i
  if slUp s = false ∧ jPending s i ∧ x.byDl = false ∧ x.fcyc + 12288 ≤ fcycOf s then s.setInfo i { x with noticed := true }
  else s

/-- Entry i may be applied or refused (R96, R449). -/
def jEligible (s : State) (i : Nat) : Bool :=
  jPending s i && (jInfo s i).noticed && !(jInfo s i).held && s.tj.released && !jDue s i

/-- The command is mailbox-bound (R98, R99). -/
def mboxBound (s : State) (target cls : Nat) : Bool :=
  let c := ctxOf s target
  decide (target ≤ 10239) && (c.st == .admitted || c.st == .suspended) &&
    natBit (xClasses (c.descAt (tickNo s))) cls

/-- The commands applied at a launch of context n (R95, R96, R442): those that its first eligible tick found valid. -/
def toApply (n : Nat) (d : List Word) (s : State) : List Nat :=
  if belowWarning s then []
  else ((jOrder s).filter fun i => jEligible s i && jTarget s i == n && (jInfo s i).verdict == some true).take (xDepth d)

/-- Tick t judges command i when it is its first eligible tick (R96, R99): the target's own launch, or any launch point
for a target that cannot launch. The class must be among the target's CLASSES, and the target neither FREE nor
DRAINING. -/
def judge99 (t i : Nat) (s : State) : Option Bool :=
  let n := jTarget s i
  let c := ctxOf s n
  if (jInfo s i).verdict ≠ none then (jInfo s i).verdict
  else if 10239 < n ∨ c.st = .free then some false
  else if pageEn s 0x110 = false ∨ xFalls (c.descAt t) t = false then none
  else some (c.st != .draining && natBit (xClasses (c.descAt t)) (jClass s i))

/-- One command at the launch point of tick t: judged at its first eligible tick, and completed REFUSED when its target
was not valid there and MRAM may start the settle mark (R99, R508, log 102). -/
def refuseOne (t i : Nat) (s : State) : State :=
  if jEligible s i = false then s
  else
    let v := judge99 t i s
    let s := s.setInfo i { jInfo s i with verdict := v }
    if v = some false ∧ s.flag fPWR_STAT_BELOW = false then
      post 0x110 5 1 (jTarget s i) 0 0 (settle i 2 s.tb.tickAngle (tickNo s) s)
    else s

def refuseAll (t : Nat) (s : State) : State := (jOrder s).foldl (fun u i => refuseOne t i u) s

/-- The accepted entry as the host sent it (R95, R439). -/
def acceptedEntry (s : State) (i : Nat) : List Byte :=
  bytesAt (jBytes s i) 0 1 ++ bytesOfNat 1 (jClass s i) ++ bytesAt (jBytes s i) 2 6 ++ List.replicate 8 0 ++
  bytesAt (jBytes s i) 16 48

/-- One mailbox: the settle marks, then the header and the applied commands (R95, R441). -/
def mailbox (d : List Word) (ids : List Nat) (s : State) : State :=
  let es := (ids.map fun i => acceptedEntry s i).flatten
  let s := ids.foldl (fun t i => settle i 1 (angleOf t) (tickNo t) t) s
  salWrite (xMbox d) (bytesOfNat 4 ids.length ++ bytesOfNat 4 0 ++ bytesOfNat 8 (tickNo s) ++ bytesOfNat 8 (angleOf s) ++
    List.replicate 40 0 ++ es) (portTouch 67 s)

/-! Release, replay (R440, R449). -/

/-- JOURNAL_RELEASE: granule 0 of a settled entry is rewritten RELEASED, when MRAM may start a write (R508). -/
def journalRelease (s : State) : State :=
  let isR := fun (m : Msg) => match m with | .release _ => true | _ => false
  let s := if s.sl.inF.any isR then s else pull 1 1 s
  match s.sl.inF.find? isR with
  | some (.release i) =>
    if s.flag fPWR_STAT_BELOW then s
    else
    let s := dropF (.release i) s
    if jState s i = 2 then
      jCount (s.fld fTJ_OCC - 1) ((jMark i (jStatus s i) 3 s).setInfo i JInfo.zero)
    else s
  | _ => s

/-- An entry that reads uncorrectable is skipped (R450). -/
def jUe (i : Nat) (s : State) : State := post 0x150 17 3 i 0 0 (s.setFld fTJ_UEIDX i)

def tjRefuse (s : State) : State := s.setFlag fTJ_STAT_CFGREFUSED true

/-- The entries of the journal in the order in which the replay takes them: by index, and those of one queue in the order
of their client sequence numbers (R24, log 132). -/
def replayOrder (s : State) : List Nat :=
  (jListed s).foldl (fun l i =>
    insertBy (fun j => jQid s j == jQid s i && decide (2 ^ 31 ≤ (jCseq s i + 2 ^ 32 - jCseq s j) % 2 ^ 32)) i l) []

/-- One entry read by the replay (R449): only entries that the journal held before the power-up. -/
def replayEntry (i : Nat) (s : State) : State :=
  if jInfo s i ≠ JInfo.zero then s
  else if jBad s i then jUe i s
  else if jPending s i = false then s
  else
    let s := (s.setInfo i { JInfo.zero with byDl := true, held := true, seq := s.tj.seq + 1 }).tjSet fun t =>
      { t with seq := t.seq + 1 }
    if jDl s i * 2 ^ 16 ≤ angleOf s then settle i 3 (angleOf s) (tickNo s) (s.incFld fTJ_EXPIRED) else s

/-- TJ_CTRL.REPLAY (R449, R452). -/
def replay (s : State) : State :=
  if s.tj.replayOk = false then tjRefuse s
  else (replayOrder s).foldl (fun t i => replayEntry i t)
    ((s.setFlag fTJ_STAT_REPLAYING true).tjSet fun t => { t with replayOk := false })

/-- REPLAY_DONE: the hold lasts until RELEASE. -/
def replayDone (s : State) : State :=
  if s.flag fTJ_STAT_REPLAYING then
    post 0x150 16 1 0 0 0 (((s.setFlag fTJ_STAT_REPLAYING false).setFlag fTJ_STAT_REPLAYED true).setFlag fTJ_STAT_HELD true)
  else s

/-- TJ_CTRL.RELEASE: held entries count as accepted and noticed (R449). Before REPLAY_DONE it is refused, and a second one
finds no hold to end (R452). -/
def tjRelease (s : State) : State :=
  if s.flag fTJ_STAT_REPLAYED = false then tjRefuse s
  else if s.tj.released then s
  else
    let s := (s.setFlag fTJ_STAT_HELD false).tjSet fun t => { t with released := true }
    (jListed s).foldl (fun t i =>
      if (jInfo t i).held then t.setInfo i { jInfo t i with held := false, noticed := true } else t) s

/-! The close of the command area (R441). -/

/-- Launch ticks before tick m with a settle mark for APPLIED that has not completed. -/
def marksOpen (s : State) (m : Nat) : List Nat :=
  ((s.tj.writes.filter fun w => w.mark && decide (w.tick < m) && numAt w.bytes 0 1 == 1).map fun w => w.tick).eraseDups

/-- Context n is held in the frame of tick m: a hold of the frame before goes on, else one starts. -/
def holdFrame (n : Nat) (d : List Word) (m : Nat) (s : State) : State :=
  let same := fun (h : Hold) => h.cause == 1 && h.ctx == n && h.stop == some m
  if s.rk.holds.any same then
    s.rkSet fun r => { r with holds := r.holds.map fun h => if same h then { h with stop := some (m + 1) } else h }
  else ctxHold 1 n d m (some (m + 1)) s

/-- At the close of the command area of tick m: contexts launched with open marks are held in this frame. -/
def markClose (m : Nat) (s : State) : State :=
  let ts := marksOpen s m
  let s' := s.tjSet fun t => { t with launched := t.launched.filter fun e => ts.contains e.1 || decide (m ≤ e.1) }
  if ts.isEmpty then s'
  else
    let cs := s.tj.launched.filter fun e => ts.contains e.1
    post 0x150 18 2 0 0 0
      (cs.foldl (fun t e => holdFrame e.2 ((ctxOf t e.2).descAt e.1) m t) (s'.incFld fTJ_HOLDS))

end Sys2Proof.Machine
end

