-- ==== Sys2Proof/Machine/Crystallizer.lean ====
section
/-!
DEFINITION. Sys2Proof/Machine/Crystallizer.lean: admission, operations, launch, enforcement and the timing table of the
Crystallizer (R69 to R102, R208, R209, R574, R575).
-/
namespace Sys2Proof.Machine

def cryPg : Nat := 0x110
def dispOf (s : State) (o : Nat) : DispEnt := storeGet (baseDispatch o) s.pan.dispatch o
def ttOf (s : State) (n : Nat) : BitVec 128 := storeGet 0 s.cry.tt n

/-! What a slot offers (R77, R81, R82, R96). -/

def capT (s : State) : Nat := s.fld fTB_TICK_MIN * 192 / 125
def cryA (s : State) : Nat := capT s - ceilDiv (capT s) 16
def cryScap (s : State) : Nat := 30 * (s.fld fTB_TICK_MIN * 96 / 125) - 2816
def cryG (s : State) : Nat := 1 + ceilDiv 6520 (s.fld fTB_TICK_MIN)
def nilim (s : State) (c : Nat) : Nat :=
  match c with
  | 0 => s.fld fCRY_NILIM01_E0 | 1 => s.fld fCRY_NILIM01_E1 | 2 => s.fld fCRY_NILIM23_E2 | _ => s.fld fCRY_NILIM23_E3
def cryLat (s : State) (c : Nat) : Nat := 24 + nilim s c
def cryPre (s : State) : Nat := s.fld fCRY_PANPRE

/-! Costs of a list (R78, R79, R91). -/

def orderWords (s : State) (a : Nat) : List Word := (List.range 8).map fun i => BitVec.ofNat 32 (salNum s (a + 4 * i) 4)

def Cost.pan (c : Cost) (p : Nat) : Nat := match p with | 0 => c.p0 | 1 => c.p1 | 2 => c.p2 | _ => c.p3

/-- The cost and demand of one order are added to the term it is charged to. -/
def Cost.add (s : State) (d : List Word) (c : Cost) : Cost :=
  let k := orderCost (dispOf s) (ttOf s) d
  let c := { c with salt := c.salt + orderDemand (dispOf s) d }
  if dNstg d ≠ 0 then { c with chain := c.chain + k }
  else match dPan d 0 with
    | 0 => { c with p0 := c.p0 + k }
    | 1 => { c with p1 := c.p1 + k }
    | 2 => { c with p2 := c.p2 + k }
    | _ => { c with p3 := c.p3 + k }

/-- A running sum exceeds a recorded value (R91). -/
def Cost.exceeds (a b : Cost) : Bool :=
  decide (b.chain < a.chain) || decide (b.p0 < a.p0) || decide (b.p1 < a.p1) || decide (b.p2 < a.p2) ||
  decide (b.p3 < a.p3) || decide (b.salt < a.salt)

def listCost (s : State) (d : List Word) : Cost :=
  (List.range (xNord d)).foldl (fun c i => c.add s (orderWords s (xOlist d + 32 * i))) Cost.zero

/-- The Saltern demand of a launch beyond its orders (R79). -/
def extraDemand (d : List Word) : Nat :=
  (if xTask d then xBeats d else 0) + (if xClasses d ≠ 0 then xDepth d + 1 else 0)

/-! Admission (R83 to R86, R575). -/

/-- A refusal: CODE, RES, SLOT and CRY_RESULT2 (R86). -/
structure Fail where
  code : Nat
  res : Nat
  slot : Nat
  detail : Nat
deriving DecidableEq, Repr

def failIf (b : Bool) (code detail : Nat) : Option Fail := if b then some ⟨code, 0xF, 0, detail⟩ else none
def firstFail (l : List (Option Fail)) : Option Fail := l.findSome? id

/-- The byte of the lowest-numbered reserved bit that is 1 (R575). -/
def reservedByte (d : List Word) : Option Nat :=
  (List.range 64).find? fun b => natBits (dW d (b / 4)).toNat (8 * (b % 4)) 8 != 0 &&
    Nat.land (natBits (dW d (b / 4)).toNat (8 * (b % 4)) 8) (255 - natBits (xDefined (b / 4)) (8 * (b % 4)) 8) != 0

/-- The descriptor checks of R84 step 2. -/
def descFail (d : List Word) : Option Fail :=
  let cl := xClasses d != 0
  firstFail [
    (reservedByte d).map fun b => ⟨0x10, 0xF, 0, b⟩,
    failIf (decide (12 < xPlog d)) 0x10 0,
    failIf (decide (2 ^ xPlog d ≤ xOffset d)) 0x10 0,
    failIf (xNord d != 0 && xOlist d % 32 != 0) 0x10 0x08,
    failIf (xTask d && xTcap d % 16 != 0) 0x10 0x10,
    failIf (xNord d != 0 && xOlcap d % 16 != 0) 0x10 0x18,
    failIf (cl && xMbox d % 64 != 0) 0x10 0x28,
    failIf (xTask d && xBudget d == 0) 0x10 0x20,
    failIf (decide (1024 < xNord d)) 0x10 0x04,
    failIf (decide (512 < xFphase d + xNph d)) 0x10 0x30,
    failIf (decide (16 < xDepth d)) 0x10 0x04,
    failIf (cl && xDepth d == 0) 0x10 0x04,
    failIf (cl && decide (salSize < xMbox d + 64 + 64 * xDepth d)) 0x10 0x28,
    failIf (xNord d == 0 && !xTask d && !cl) 0x10 0x04]

/-- The capability checks of step 3. -/
def capFail (s : State) (d : List Word) : Option Fail :=
  let ol := salCap s (xOlcap d)
  let tc := salCap s (xTcap d)
  firstFail [
    failIf (xNord d != 0 && !(ol.usable && ol.perm pLOAD && ol.perm pPAN && ol.covers (xOlist d) (32 * xNord d))) 0x11 0,
    failIf (xTask d && !(tc.usable && tc.perm pEXEC)) 0x11 1]

/-- The class checks of step 4 (R97). -/
def classFail (s : State) (d : List Word) : Option Fail :=
  let w := cryG s + 2 ^ xPlog d - 1
  firstFail ((List.range 3).map fun c => failIf (natBit (xClasses d) c && decide (boundOf s c < w)) 0x12 (21 + c))

/-- One order of step 5. -/
def orderFail (s : State) (d : List Word) (i : Nat) : Option Fail :=
  let a := xOlist d + 32 * i
  let w := orderWords s a
  let bad := fun b => failIf b 0x14 i
  let disp := dispOf s
  firstFail [
    bad (decide (salSize < a + 32) || salBad s a 32), bad (row1 w), bad (row2 w),
    failIf (noTiming disp (ttOf s) w) 0x13 i,
    bad (row4 w), bad (row5 w), bad (row3 disp w), bad (row6 disp w), bad (row7 disp w), bad (row8 disp w),
    bad (row9 disp w), bad (row10 w), bad (row11 disp w), bad (row12 disp w), bad (row13 true w)]

def ordersFail (s : State) (d : List Word) : Option Fail := (List.range (xNord d)).findSome? (orderFail s d)

/-- The contexts an admission test of context n counts, with their loads (R70, R75). -/
def others (s : State) (n : Nat) : List (Nat × List Word × Cost) :=
  (s.cry.ctx.filter fun e => e.1 != n && e.2.st != .free).map fun e => (e.1, e.2.loadDesc, e.2.loadCost)

/-- Field ownership, step 6 (R85). -/
def fieldFail (s : State) (n : Nat) (d : List Word) : Option Fail :=
  ((others s n).find? fun e => xMeets d e.2.1).map fun e => ⟨0x23, 0xF, 0, e.1⟩

/-- The sums of R83 for a slot, over the descriptors and costs of the contexts that launch in it. -/
def slotF (l : List (List Word × Cost)) : Nat :=
  16 + 2 * (l.map fun e => if xClasses e.1 ≠ 0 then xDepth e.1 + 1 else 0).sum
def slotD (l : List (List Word × Cost)) : Nat := (l.map fun e => e.2.chain).sum
def slotU (l : List (List Word × Cost)) (p : Nat) : Nat := (l.map fun e => e.2.pan p).sum
def slotHas (l : List (List Word × Cost)) : Bool := l.any fun e => xNord e.1 != 0
def slotP (s : State) (l : List (List Word × Cost)) : Nat :=
  if slotHas l then cryPre s + slotD l + max (max (slotU l 0) (slotU l 1)) (max (slotU l 2) (slotU l 3)) else 0
def slotTasks (l : List (List Word × Cost)) (c : Nat) (late : Bool) : List (List Word × Cost) :=
  l.filter fun e => xTask e.1 && xCore e.1 == c && xLate e.1 == late
def slotE (s : State) (l : List (List Word × Cost)) (c : Nat) (late : Bool) : Nat :=
  let ts := slotTasks l c late
  if ts.isEmpty then 0 else cryLat s c + (ts.map fun e => xBudget e.1 + 8).sum
def slotPan (s : State) (l : List (List Word × Cost)) (p : Nat) : Nat :=
  if slotHas l then slotF l + cryPre s + slotD l + slotU l p else 0
def slotCore (s : State) (l : List (List Word × Cost)) (c : Nat) : Nat :=
  if (slotTasks l c true).isEmpty then slotF l + slotE s l c false
  else slotF l + max (slotE s l c false) (slotP s l) + slotE s l c true
def slotS (l : List (List Word × Cost)) : Nat := (l.map fun e => e.2.salt + extraDemand e.1).sum

def overIf (x lim code res slot : Nat) : Option Fail := if lim < x then some ⟨code, res, slot, x - lim⟩ else none

/-- The tests of one slot in the order of step 7. -/
def slotFail (s : State) (all : List (List Word × Cost)) (slot : Nat) : Option Fail :=
  let l := all.filter fun e => xFalls e.1 slot
  firstFail (((List.range 4).map fun p => overIf (slotPan s l p) (cryA s) 0x20 p slot) ++
    ((List.range 4).map fun c => overIf (slotCore s l c) (cryA s) 0x21 (4 + c) slot) ++
    [overIf (slotS l) (cryScap s) 0x22 8 slot])

/-- Slots in ascending order from OFFSET; beyond the longest period they repeat. -/
def slotsFail (s : State) (all : List (List Word × Cost)) (d : List Word) : Option Fail :=
  let k := (all.map fun e => xPlog e.1).foldl max 0
  (List.range (2 ^ (k - xPlog d))).findSome? fun j => slotFail s all (xOffset d + j * 2 ^ xPlog d)

/-- The admission test for a descriptor as context n (R84), with TABLE_INVALID (R575). -/
def admission (s : State) (n : Nat) (d : List Word) : Option Fail :=
  match descFail d with
  | some f => some f
  | none =>
    if s.flag fCRY_STAT_TTVALID = false then some ⟨0x03, 0xF, 0, 0⟩
    else
      match firstFail [capFail s d, classFail s d] with
      | some f => some f
      | none =>
        match ordersFail s d with
        | some f => some f
        | none =>
          match fieldFail s n d with
          | some f => some f
          | none => slotsFail s ((d, listCost s d) :: (others s n).map fun e => e.2) d

/-- What the reads of an admission test do in the Saltern (R84, R112, R113): capabilities, then the orders up to the one
that failed. -/
def admissionReads (d : List Word) (f : Option Fail) (s : State) : State :=
  let code := match f with | some x => x.code | none => 0
  let det := match f with | some x => x.detail | none => 0
  if code = 0x10 ∨ code = 0x03 then s
  else
    let s := if xNord d ≠ 0 then tagReadFx (xOlcap d) (salReadFx 65 (xOlcap d) (if xOlcap d + 16 ≤ salSize then 16 else 0) s) else s
    if code = 0x11 ∧ det = 0 then s
    else
      let s := if xTask d then tagReadFx (xTcap d) (salReadFx 65 (xTcap d) (if xTcap d + 16 ≤ salSize then 16 else 0) s) else s
      let n := if code = 0x11 ∨ code = 0x12 then 0 else if code = 0x13 ∨ code = 0x14 then det + 1 else xNord d
      (List.range n).foldl (fun t i =>
        let a := xOlist d + 32 * i
        if a + 32 ≤ salSize then salReadFx 65 a 32 t else t) s

/-! Operations (R73 to R76). -/

def stagedDesc (s : State) : List Word := (List.range 16).map fun i => s.rd (rCRY_STAGEi i)

/-- CTX_RANGE and CTX_STATE (R74, R84 step 1). -/
def stateFail (s : State) (n : Nat) (ok : CtxSt → Bool) : Option Fail :=
  if 10239 < n then some ⟨0x01, 0xF, 0, 0⟩
  else if ok (ctxOf s n).st then none
  else some ⟨0x02, 0xF, 0, (ctxOf s n).st.code⟩

def isSt (l : List CtxSt) (x : CtxSt) : Bool := l.contains x
def anySt : CtxSt → Bool := fun _ => true

def nadmitOf (s : State) : Nat := s.fld fCRY_STAT_NADMIT

/-- A CRY_OP write starts an operation (R73): with OPBUSY = 1 it is ignored and sets CFG_REFUSED. The operation takes the
staged words as they are at the write (log 125), and in a freeze OPBUSY and CRY_OP keep their state (R574, log 126). -/
def opStart (op n : Nat) (s : State) : State :=
  if s.flag fCRY_STAT_OPBUSY then s.setFlag fCRY_STAT_CFGREFUSED true
  else if frozen s cryPg then s
  else (s.setFlag fCRY_STAT_OPBUSY true).crySet fun c => { c with op := some ⟨op, n, stagedDesc s⟩ }

def opAdmit (n : Nat) : State → State := opStart 1 n
def opProbe (n : Nat) : State → State := opStart 2 n
def opRemove (n : Nat) : State → State := opStart 3 n
def opReplace (n : Nat) : State → State := opStart 4 n
def opSuspend (n : Nat) : State → State := opStart 5 n
def opResume (n : Nat) : State → State := opStart 6 n
def opRead (n : Nat) : State → State := opStart 7 n
def opSetcore : State → State := opStart 8 0

/-- A write of CRY_OP (R73, R74): other operation codes are ignored, but while an operation runs every write is refused. -/
def cryOpWrite (v : Word) (s : State) : State :=
  let n := bitsGet v 0 14
  match bitsGet v 28 4 with
  | 1 => opAdmit n s
  | 2 => opProbe n s
  | 3 => opRemove n s
  | 4 => opReplace n s
  | 5 => opSuspend n s
  | 6 => opResume n s
  | 7 => opRead n s
  | 8 => opSetcore s
  | _ => if s.flag fCRY_STAT_OPBUSY then s.setFlag fCRY_STAT_CFGREFUSED true else s

/-- A record of R93: context, cause, TAG and tick. -/
def cryRecord (bit sev n cause tag tick : Nat) (s : State) : State :=
  postEvent ⟨cryPg, bit, sev⟩ (bytesOfNat 2 n ++ bytesOfNat 2 cause ++ bytesOfNat 4 tag ++ bytesOfNat 8 tick) s

/-- What an operation answers: CODE, RES and SLOT of CRY_RESULT, CRY_RESULT2 and CRY_EFFECT. -/
structure OpAns where
  code : Nat
  res : Nat
  slot : Nat
  res2 : Nat
  effect : Nat
deriving DecidableEq, Repr

/-- A refused operation reports the tick of its completion (R75). -/
def opFail (f : Fail) (s : State) : OpAns × State := (⟨f.code, f.res, f.slot, f.detail, tickNo s⟩, s)
def opOk (res2 effect : Nat) (s : State) : OpAns × State := (⟨0, 0xF, 0, res2, effect⟩, s)

/-- ADMIT at its completion (R74, R75). -/
def admitNow (n : Nat) (d : List Word) (s : State) : OpAns × State :=
  match stateFail s n (isSt [.free]) with
  | some f => opFail f s
  | none =>
    let r := admission s n d
    let t := admissionReads d r s
    match r with
    | some f => opFail f t
    | none =>
      let u := t.setCtx n { Ctx.free with st := .admitted, desc := d, cost := listCost s d, first := some (tickNo s + 2) }
      opOk (nadmitOf u) (xNext d (tickNo s + 2)) u

def probeNow (n : Nat) (d : List Word) (s : State) : OpAns × State :=
  match stateFail s n anySt with
  | some f => opFail f s
  | none =>
    let r := admission s n d
    let t := admissionReads d r s
    match r with
    | some f => opFail f t
    | none => opOk (nadmitOf t) (tickNo s) t

def removeNow (n : Nat) (s : State) : OpAns × State :=
  match stateFail s n (isSt [.admitted, .suspended]) with
  | some f => opFail f s
  | none =>
    let c := ctxOf s n
    let u := xNext c.loadDesc (tickNo s + cryG s)
    opOk (nadmitOf s) u (s.setCtx n { c with st := .draining, fromSusp := c.st == .suspended, last := some u })

/-- REPLACE (R75): one that has not taken over yet keeps its launches, and the new one follows it. -/
def replaceNow (n : Nat) (d : List Word) (s : State) : OpAns × State :=
  match stateFail s n (isSt [.admitted, .suspended]) with
  | some f => opFail f s
  | none =>
    let r := admission s n d
    let t := admissionReads d r s
    match r with
    | some f => opFail f t
    | none =>
      let c := ctxOf t n
      opOk (nadmitOf t) (tickNo s + 2) (t.setCtx n { c with next := c.next ++ [⟨tickNo s + 2, d, listCost s d⟩] })

/-- SUSPEND. Its record's bytes 8 to 15 hold the tick of completion (log 127). -/
def suspendOp (n : Nat) (s : State) : OpAns × State :=
  match stateFail s n (isSt [.admitted]) with
  | some f => opFail f s
  | none =>
    let t := tickNo s
    let c := ctxOf s n
    opOk (nadmitOf s) (t + 2) (suspHold n (t + 3)
      (cryRecord 2 2 n 0 (xTag c.desc) t (s.setCtx n { c with st := .suspended, stop := some (t + 2), cause := 0 })))

def resumeNow (n : Nat) (s : State) : OpAns × State :=
  match stateFail s n (isSt [.suspended]) with
  | some f => opFail f s
  | none =>
    let c := ctxOf s n
    opOk (nadmitOf s) (xNext c.loadDesc (tickNo s + 2))
      (suspEnd n (s.setCtx n { c with st := .admitted, first := some (tickNo s + 2), stop := none, misses := 0, cause := 0,
                                      eccErr := false }))

/-- The words of a context's stored descriptor go to the staging registers (R74); a replacement that has not taken over
is not shown (log 128). What the entry of a FREE context holds is undefined (R69), so its words are free values
(log 81). -/
def readDesc (n : Nat) (s : State) : State :=
  if (ctxOf s n).st = .free then
    (List.range 16).foldl (fun t i => (t.wr (rCRY_STAGEi i) (BitVec.ofNat 32 t.freeVal)).stepFree) s
  else (List.range 16).foldl (fun t i => t.wr (rCRY_STAGEi i) (dW (ctxOf s n).desc i)) s

def readNow (n : Nat) (s : State) : OpAns × State :=
  match stateFail s n anySt with
  | some f => opFail f s
  | none => opOk (ctxOf s n).st.code (tickNo s) (readDesc n s)

/-- The NILIM fields staged for SETCORE, with the byte in which each begins (R74, R575). -/
def stagedNilim (d : List Word) : List (Nat × Nat) :=
  let a := dW d 0
  let b := dW d 1
  [(bitsGet a 0 10, 0), (bitsGet a 10 10, 1), (bitsGet a 20 10, 2), (bitsGet b 0 10, 4)]

def setcoreNow (d : List Word) (s : State) : OpAns × State :=
  match s.cry.ctx.find? fun e => e.2.st != .free with
  | some e => opFail ⟨0x02, 0xF, 0, e.2.st.code + e.1 * 2 ^ 16⟩ s
  | none =>
    match (stagedNilim d).find? fun x => decide (512 < x.1) with
    | some x => opFail ⟨0x10, 0xF, 0, x.2⟩ s
    | none =>
      let v := fun i => ((stagedNilim d).getD i (0, 0)).1
      opOk (nadmitOf s) (tickNo s) ((s.wr rCRY_NILIM01 (BitVec.ofNat 32 (v 1 * 2 ^ 16 + v 0))).wr rCRY_NILIM23
        (BitVec.ofNat 32 (v 3 * 2 ^ 16 + v 2)))

/-- An operation is atomic: its test and its effect happen at its completion (R73 to R75). -/
def opPerform (r : CryOp) (s : State) : OpAns × State :=
  match r.op with
  | 1 => admitNow r.ctx r.staged s
  | 2 => probeNow r.ctx r.staged s
  | 3 => removeNow r.ctx s
  | 4 => replaceNow r.ctx r.staged s
  | 5 => suspendOp r.ctx s
  | 6 => resumeNow r.ctx s
  | 7 => readNow r.ctx s
  | _ => setcoreNow r.staged s

/-- OP_DONE (R73); a freeze holds it back (R574). -/
def opDone (s : State) : State :=
  match s.cry.op with
  | none => s
  | some r =>
    if frozen s cryPg then s
    else
      let e := opPerform r s
      let s := e.2.wr rCRY_RESULT (BitVec.ofNat 32 (e.1.code * 2 ^ 24 + e.1.res * 2 ^ 20 + e.1.slot * 2 ^ 8))
      let s := (s.wr rCRY_RESULT2 (BitVec.ofNat 32 e.1.res2)).wr64 rCRY_EFFECT e.1.effect
      post cryPg 0 1 r.ctx 0 0 ((s.setFlag fCRY_STAT_OPBUSY false).crySet fun c => { c with op := none })

/-! Launches (R87 to R94). -/

def launchOf (s : State) (n tick : Nat) : Option Launch := s.cry.launches.find? fun l => l.ctx == n && l.tick == tick
def State.setLaunch (s : State) (x : Launch) : State :=
  s.crySet fun c => { c with launches := c.launches.map fun l => if l.ctx == x.ctx && l.tick == x.tick then x else l }

/-- A DRAINING context whose last launch has completed or been abandoned becomes FREE (R76). -/
def drainEnd (n tick : Nat) (s : State) : State :=
  let c := ctxOf s n
  match c.last with
  | some u => if c.st = .draining ∧ c.fromSusp = false ∧ u ≤ tick then ctxRelease n s else s
  | none => s

/-- Core c runs, and a launch made at cycle t came after its last recovery (R488). -/
def sinceRecovery (s : State) (c t : Nat) : Bool :=
  !natBit (s.fld fFC_STAT_STOPPED) c && decide (storeGet 0 s.dup.recCyc c ≤ t)

/-- No order and no task of the launch is left: it is complete unless abandoned (R93, R488). -/
def launchCheck (n tick : Nat) (s : State) : State :=
  match launchOf s n tick with
  | none => s
  | some l =>
    if l.live = 0 ∧ (l.stopped ∨ xNord l.desc ≤ l.next) ∧ l.taskLeft = false then
      let s := s.crySet fun c => { c with launches := c.launches.filter fun x => !(x.ctx == n && x.tick == tick) }
      if l.dead then s
      else
        let s := endHolds (fun h => h.cause == 5 && h.ctx == n && h.stop.isNone && sinceRecovery s h.subj l.cyc) (tick + 1) s
        drainEnd n tick (s.setCtx n { ctxOf s n with misses := 0 })
    else s

/-- The context is suspended after too many abandoned launches (R93). -/
def suspendNow (n cause tick : Nat) (s : State) : State :=
  let c := ctxOf s n
  suspHold n (tickNo s + 1)
    (cryRecord 2 2 n cause (xTag (c.descAt tick)) tick (s.setCtx n { c with st := .suspended, stop := some 0, cause := cause }))

/-- Orders of a launch that wait in the queues of the pans leave them (R91, R92). -/
def launchOrder (n tick : Nat) (o : Order) : Bool :=
  match o.src with | .launched c t _ => c == n && t == tick | _ => false
def queuedOf (n tick : Nat) (s : State) : Nat :=
  ((s.pan.chainq ++ (s.pan.pans.map fun e => e.2.lq).flatten).filter (launchOrder n tick)).length
def dropQueued (n tick : Nat) (s : State) : State :=
  { s with pan := { s.pan with
      chainq := s.pan.chainq.filter fun o => !launchOrder n tick o
      pans := (s.pan.pans.map fun e => (e.1, { e.2 with lq := e.2.lq.filter fun o => !launchOrder n tick o })).filter
        fun e => e.2 != Pan.empty } }

/-- A launch is abandoned (R91 to R93): records, counts, the hold of its frame, and no further order. A DRAINING context
is not suspended by OVR_SUSPEND (log 129). -/
def abandon (n tick cause : Nat) (s : State) : State :=
  match launchOf s n tick with
  | none => s
  | some l =>
    let s := dropQueued n tick (s.setLaunch { l with stopped := true, dead := true, live := l.live - queuedOf n tick s })
    if l.dead then launchCheck n tick s
    else
      let tag := xTag l.desc
      let s := cryRecord 1 2 n cause tag tick s
      let s := if cause = 4 then cryRecord 3 3 n cause tag tick s else s
      let s := ctxHold 1 n l.desc (tick + 1) (some (tick + 2)) (s.incFld fCRY_MISSED)
      let c := ctxOf s n
      let s := s.setCtx n { c with misses := c.misses + 1 }
      let o := xOvr (c.descAt tick)
      let s := if c.st = .admitted ∧ o ≠ 0 ∧ o ≤ c.misses + 1 then suspendNow n cause tick s else s
      drainEnd n tick (launchCheck n tick s)

/-- An order of a launch has ended (R87, R93). -/
def orderEnd (n tick : Nat) (s : State) : State :=
  match launchOf s n tick with
  | some l => launchCheck n tick (s.setLaunch { l with live := l.live - 1 })
  | none => s

/-- The task of a launch has ended, by TEND or stopped. -/
def taskEnd (n tick : Nat) (s : State) : State :=
  match launchOf s n tick with
  | some l => launchCheck n tick (s.setLaunch { l with taskLeft := false })
  | none => s

/-- A launch signal: the tasks wait at their core and LAUNCH is pending (R89, R354). -/
def signalTasks (core : Nat) (ts : List Task) (s : State) : State :=
  if ts.isEmpty then s
  else
    let c := s.core core
    s.setCore core { c with waiting := c.waiting ++ ts, ipend := natBitSet c.ipend 16 true }

def taskOf (s : State) (l : Launch) : Task :=
  ⟨l.ctx, l.tick, 0, xBudget l.desc, 0, xBeats l.desc, salCap s (xTcap l.desc)⟩

/-- The tasks of the launches of tick t on a core, early or late, in ascending context number. -/
def tasksOf (s : State) (t core : Nat) (late : Bool) : List Task :=
  (s.cry.launches.filter fun l =>
    l.tick == t && xTask l.desc && l.taskLeft && xCore l.desc == core && xLate l.desc == late).map (taskOf s)

def signalAll (t : Nat) (late : Bool) (s : State) : State :=
  (List.range 4).foldl (fun u c => signalTasks c (tasksOf u t c late) u) s

/-- The contexts that launch in tick t, ascending, with the descriptor that governs. -/
def dueList (s : State) (t : Nat) : List (Nat × List Word) :=
  (s.cry.ctx.filter fun e => e.2.due t).map fun e => (e.1, e.2.descAt t)

/-- SUSPENDED contexts whose launch would fall in tick t (R99). -/
def shadowList (s : State) (t : Nat) : List (Nat × List Word) :=
  (s.cry.ctx.filter fun e => e.2.st == .suspended && xFalls (e.2.descAt t) t && !e.2.due t).map fun e => (e.1, e.2.descAt t)

def mailboxes (t : Nat) (s : State) : State :=
  let s := (dueList s t).foldl (fun u e => if xClasses e.2 = 0 then u else mailbox e.2 (toApply e.1 e.2 u) u) s
  (shadowList s t).foldl (fun u e =>
    if xClasses e.2 = 0 ∨ toApply e.1 e.2 u = [] then u else mailbox e.2 (toApply e.1 e.2 u) u) s

/-- Launches start in ascending context number (R87). -/
def startLaunches (t : Nat) (s : State) : State :=
  let ls := (dueList s t).map fun e =>
    (⟨e.1, t, e.2, (ctxOf s e.1).costAt t, Cost.zero, 0, 0, false, xTask e.2, false, fcycOf s⟩ : Launch)
  let s := s.crySet fun c => { c with launches := c.launches ++ ls }
  s.tjSet fun j => { j with launched := j.launched ++ ls.map fun l => (t, l.ctx) }

/-- Admitted work still running at the next launch point is abandoned (R92). -/
def deadlines (t : Nat) (s : State) : State :=
  (s.cry.launches.filter fun l => decide (l.tick < t)).foldl (fun u l => abandon l.ctx l.tick 4 u) s

/-- The contexts whose entries the launch point reads as uncorrectable (R71, log 130). -/
def eccFound (bad : List Nat) (s : State) : State :=
  bad.foldl (fun t n => if n ≤ 10239 then ctxEcc n t else t) s

/-- LAUNCH_POINT of the present tick (R87, R101, R574); the entries of the contexts `bad` read uncorrectable. -/
def launchPoint (bad : List Nat) (s : State) : State :=
  if tbEn s = false ∨ s.tb.ticks = false then s
  else
    let t := tickNo s
    let s := (s.tbSet fun b => { b with ticks := false }).crySet fun c =>
      { c with lastLaunch := fcycOf s, lastTick := t, lateDone := false }
    if frozen s cryPg then
      if pageEn s cryPg then
        (dueList s t).foldl (fun u e => ctxHold 1 e.1 e.2 (t + 1) (some (t + 2)) u) s
      else s
    else
      let s := refuseAll t (deadlines t (eccFound bad s))
      if pageEn s cryPg = false then s
      else
        let s := signalAll t false (startLaunches t (mailboxes t s))
        (s.cry.launches.filter fun l => l.tick == t).foldl (fun u l => launchCheck l.ctx t u) s

/-- Every admitted order of the slot has completed or been abandoned. -/
def panIdle (s : State) : Bool := s.cry.launches.all fun l => l.live == 0 && (l.stopped || decide (xNord l.desc ≤ l.next))

/-- PAN_DONE_POINT (R87): late tasks are signalled once per slot, those of the last launch point, also after the next tick
boundary (R88). -/
def panDonePoint (s : State) : State :=
  if panIdle s ∧ s.cry.lateDone = false ∧ frozen s cryPg = false then
    (signalAll s.cry.lastTick true s).crySet fun c => { c with lateDone := true }
  else s

/-! The tick boundary (R75, R76). -/

/-- A replacement takes over, and holds of the context follow its new owned fields. -/
def takeOver (n : Nat) (x : CtxNext) (s : State) : State :=
  let c := ctxOf s n
  let s := s.setCtx n { c with desc := x.desc, cost := x.cost, next := c.next.drop 1 }
  s.rkSet fun r => { r with holds := r.holds.map fun h =>
    if (h.cause == 2 || h.cause == 5) && h.ctx == n then { h with lo := xFphase x.desc, n := xNph x.desc, mask := xFmask x.desc }
    else h }

/-- A context may be released at this boundary (R76). -/
def mayRelease (s : State) (n : Nat) : Bool :=
  let c := ctxOf s n
  c.st == .draining &&
  (match c.last with
   | some u => if c.fromSusp then decide (u ≤ tickNo s)
               else decide (u < tickNo s) && s.cry.launches.all (fun l => l.ctx != n)
   | none => false)

/-- CONTEXT_RELEASE (R76), while the Crystallizer runs. -/
def contextRelease (n : Nat) (s : State) : State :=
  if mayRelease s n && pageEn s cryPg && !frozen s cryPg then ctxRelease n s else s

def ctxBoundary (n : Nat) (s : State) : State :=
  contextRelease n (((ctxOf s n).next.filter fun x => decide (x.tick ≤ tickNo s)).foldl (fun t x => takeOver n x t) s)

def cryBoundary (s : State) : State :=
  if frozen s cryPg then s else (s.cry.ctx.map fun e => e.1).foldl (fun t n => ctxBoundary n t) s

/-! Pages 0x110 to 0x112. -/

/-- PAGE_CTRL.EN of page 0x110 (R101). -/
def cryEnWrite (on : Bool) (s : State) : State :=
  if on = false ∧ pageEn s cryPg ∧ nadmitOf s ≠ 0 then s.setFlag fCRY_STAT_CFGREFUSED true
  else s.setFlag (fPAGE_CTRL_EN cryPg) on

/-- A write of CRY_TTDATAi (R102). -/
def ttDataWrite (i : Nat) (v : Word) (s : State) : State :=
  if nadmitOf s ≠ 0 then s.setFlag fCRY_STAT_CFGREFUSED true
  else
    let s := s.crySet fun c => { c with ttStage := storeSet 0 c.ttStage i v }
    if i ≠ 3 then s
    else
      let w := fun j => (storeGet 0 s.cry.ttStage j).toNat
      let e := w 0 + w 1 * 2 ^ 32 + w 2 * 2 ^ 64 + v.toNat * 2 ^ 96
      (s.crySet fun c => { c with tt := storeSet 0 c.tt (s.fld fCRY_TTIDX) (BitVec.ofNat 128 e) }).setFlag fCRY_STAT_TTVALID false

/-- An entry of the timing table passes R209. -/
def ttEntryOk (s : State) (n : Nat) : Bool :=
  let tt := ttOf s
  !ttReserved tt n &&
  (n == 0 || !ttValid tt n ||
    ((dispOf s n).valid && Nat.land (ttTypes tt n) ((dispOf s n).types) == ttTypes tt n &&
     (ttTypes tt n % 32 == 0 || ttCPG32 tt n != 0) && (!natBit (ttTypes tt n) 5 || ttCPG64 tt n != 0)))

/-- A write of CRY_TTCTRL with COMMIT = `go` (R102, R209, R213). -/
def ttCtrlWrite (go : Bool) (s : State) : State :=
  if nadmitOf s ≠ 0 then s.setFlag fCRY_STAT_CFGREFUSED true
  else if go = false then s
  else
    let ok := ttValid (ttOf s) 0 && ttWord (ttOf s) 0 2 == (s.rd rPCS_ID).toNat && s.cry.tt.all fun e => ttEntryOk s e.1
    if ok then
      let pre := (s.cry.tt.filter fun e => e.1 != 0 && ttValid (ttOf s) e.1).foldl (fun m e => max m (stripTime (ttOf s) e.1)) 0
      ((s.setFld fCRY_PANPRE pre).setFlag fCRY_STAT_TTVALID true).setFlag fPCS_STAT_TTREJECT false
    else setPost fPCS_STAT_TTREJECT 0x128 4 2 0 0 0 (s.setFlag fCRY_STAT_TTVALID false)

def ttCommit (s : State) : State := ttCtrlWrite true s

/-- What page 0x111 shows of slot CRY_LSEL. -/
def loadList (s : State) : List (List Word × Cost) :=
  ((others s 0x4000).filter fun e => xFalls e.2.1 (s.fld fCRY_LSEL)).map fun e => e.2

/-- CRY_LCOREc: the left side of the core test, and 0 for a slot in which no context launches (log 131). -/
def loadCore (s : State) (c : Nat) : Nat :=
  let l := loadList s
  if l.isEmpty then 0 else slotCore s l c

end Sys2Proof.Machine
end

