-- ==== Sys2Proof/Machine/CoreOps.lean ====
section
/-!
DEFINITION. Sys2Proof/Machine/CoreOps.lean: the registers of an Essan core (R281 to R285), its results on the way (R327,
R328), the double-fault slot (R367), and the stop of a core (R368).
-/
namespace Sys2Proof.Machine

def State.mapCore (s : State) (n : Nat) (f : Core → Core) : State := s.setCore n (f (s.core n))
/-- The exception page of core n (R373); S0 has none. -/
def exPg (n : Nat) : Nat := 0x140 + n

/-! Registers (R281 to R284). -/

/-- The place of wi: a global register, or an entry of the window file. In the double-fault slot w8 to w31 are the 24
entries outside every resident frame (R282, R367). -/
def wKey (c : Core) (i : Nat) : Nat :=
  if i < 8 then i else 16 + (16 * c.wb + (if c.df.isSome then 24 else 0) + i - 8) % 512
def Core.rdW (c : Core) (i : Nat) : Word := if i = 0 then 0 else storeGet 0 c.w (wKey c i)
def Core.rdF (c : Core) (i : Nat) : Nat := (storeGet 0 c.f i).toNat
def Core.rdQ (c : Core) (i : Nat) : Nat := c.rdF (2 * i) + 2 ^ 64 * c.rdF (2 * i + 1)
def Core.rdP (c : Core) (i : Nat) : Nat := if i = 0 then 0xFF else (storeGet 0 c.p i).toNat
def Core.rdC (c : Core) (i : Nat) : Cap := storeGet Cap.zero c.c i
def Core.rdS (c : Core) (i : Nat) : Cap := storeGet Cap.zero c.sc i

/-- The destination that the name wi or pi stands for; w0 and p0 discard writes. -/
def wDst (c : Core) (i : Nat) : Option Dst := if i = 0 then none else some (.w (wKey c i))
def pDst (i : Nat) : Option Dst := if i = 0 then none else some (.p i)

/-- `old` with the bits of `mask` taken from `val`. -/
def blend (old val mask : Nat) : Nat := Nat.xor old (Nat.land mask (Nat.xor old val))

/-- A result reaches its destination. -/
def Core.put (c : Core) (d : Dst) (val mask : Nat) : Core :=
  match d with
  | .w k => { c with w := storeSet 0 c.w k (BitVec.ofNat 32 (blend (storeGet 0 c.w k).toNat val mask)) }
  | .f i => { c with f := storeSet 0 c.f i (BitVec.ofNat 64 (blend (storeGet 0 c.f i).toNat val mask)) }
  | .p i => { c with p := storeSet 0 c.p i (BitVec.ofNat 8 (blend (storeGet 0 c.p i).toNat val mask)) }
  | .c i => { c with c := storeSet Cap.zero c.c i (Cap.unpack (blend (c.rdC i).pack val mask)) }
  | .stat => { c with status := BitVec.ofNat 32 (blend c.status.toNat val mask) }

/-! Results on the way (R327, R328). -/

/-- The destinations of a pending read. -/
def loadDst : LKind → List Dst
  | .int sz k1 k2 => (if k1 = 0 then [] else [.w k1]) ++ (if sz = 5 ∧ k2 ≠ 0 then [.w k2] else [])
  | .fp sz i => if sz = 3 then [.f i, .f (i + 1)] else [.f i]
  | .cap i => [.c i]
  | .ldw k1 k2 => (if k1 = 0 then [] else [.w k1]) ++ (if k2 = 0 then [] else [.w k2])
  | .panq k _ => if k = 0 then [] else [.w k]

/-- The bits of `m` that `mask` does not take. -/
def lessBits (m mask : Nat) : Nat := m - Nat.land m mask
def PLoad.cut (d : Dst) (mask : Nat) (l : PLoad) : PLoad :=
  if (loadDst l.kind).contains d then { l with cuts := l.cuts ++ [(d, mask)] } else l
def PFdiv.cut (d : Dst) (mask : Nat) (x : PFdiv) : PFdiv :=
  if d = .f x.i then { x with mask := lessBits x.mask mask } else x
def PDiv.cut (d : Dst) (mask : Nat) (x : PDiv) : PDiv :=
  { x with m1 := if d = .w x.k1 then lessBits x.m1 mask else x.m1, m2 := if d = .w x.k2 then lessBits x.m2 mask else x.m2 }

/-- An older result loses the bits that a later one writes. -/
def PendW.cut (d : Dst) (mask : Nat) (p : PendW) : PendW :=
  if p.dst = d then { p with mask := p.mask - Nat.land p.mask mask } else p
/-- Every write on its way to `d` loses the bits of `mask`: those of later bundles, and of higher positions, prevail
(R279, R328). -/
def Core.cut (c : Core) (d : Dst) (mask : Nat) : Core :=
  { c with pend := (c.pend.map (PendW.cut d mask)).filter fun p => p.mask != 0, loads := c.loads.map (PLoad.cut d mask),
           fdivs := c.fdivs.map (PFdiv.cut d mask), div := c.div.map (PDiv.cut d mask) }
/-- A result that the bundle `left` bundles later is the first to read. -/
def Core.queue (c : Core) (left : Nat) (d : Dst) (val mask : Nat) : Core :=
  if mask = 0 then c else { c.cut d mask with pend := (c.cut d mask).pend ++ [⟨left, d, val, mask⟩] }
/-- A result written at once, over every older one. -/
def Core.write (c : Core) (d : Dst) (val mask : Nat) : Core := (c.cut d mask).put d val mask

def putAll (ps : List PendW) (c : Core) : Core := ps.foldl (fun x p => x.put p.dst p.val p.mask) c
/-- A bundle issues: results whose delay ends are written, and pending reads age. -/
def Core.tick (c : Core) : Core :=
  let ps := c.pend.map fun p => { p with left := p.left - 1 }
  { putAll (ps.filter fun p => p.left == 0) c with
      pend := ps.filter fun p => p.left != 0, loads := c.loads.map fun l => { l with age := l.age + 1 },
      fdivs := c.fdivs.map fun d => { d with age := d.age + 1 } }
/-- Every issued operation completes (R330). -/
def Core.settle (c : Core) : Core := { putAll c.pend c with pend := [] }

/-! STATUS (R284). -/

def stRnd (c : Core) : Nat := bitsGet c.status 10 2
def stBit (c : Core) (i : Nat) : Bool := natBit c.status.toNat i
def bNV : Nat := 4
def bEVTO : Nat := 9
def bISAT : Nat := 12
def bDZ : Nat := 13
def bDC : Nat := 14
def bBCDINV : Nat := 15
def bBCDTRAP : Nat := 16
def bCT : Nat := 17
def bEVF : Nat := 19
def bWAITPAST : Nat := 20
def bWRESUME : Nat := 21
def bRNI : Nat := 22
/-- The RW fields. -/
def stRW : Nat := 0x7FC1F
/-- RCNT, RNI and WRESUME. -/
def stResume : Nat := 0xFFE00000
def Core.setStat (c : Core) (i : Nat) (b : Bool) : Core :=
  { c with status := BitVec.ofNat 32 (natBitSet c.status.toNat i b) }

/-- FP flags as STATUS holds them; SAT is ISAT (R297). -/
def stFlags (fl : Nat) : Nat := fl % 32 + fl / 32 % 2 * 2 ^ bISAT

/-! Discards (R333, R342, R343). -/

def Core.flushFetch (c : Core) : Core := { c with asm := [], fq := [] }
/-- Fetch goes elsewhere, and nothing is left of what the running code was in the middle of. -/
def Core.redirect (c : Core) : Core :=
  { c.flushFetch with xfer := none, redo := none, rep := none, repOff := none, wait := none }
def Core.flushLines (c : Core) : Core := { c.flushFetch with lines := [] }

/-! DOUBLE_FAULT (R366, R367). -/

/-! Replay lists (R357). -/

def replayAge : Replay → Nat
  | .read l => l.age
  | .fdiv d => d.age
def replayIns (r : Replay) : List Replay → List Replay
  | [] => [r]
  | x :: xs => if replayAge x < replayAge r then r :: x :: xs else x :: replayIns r xs
/-- The operations in flight, in issue order. -/
def abandoned (c : Core) : List Replay :=
  (c.loads.map Replay.read ++ c.fdivs.map Replay.fdiv).foldl (fun l r => replayIns r l) []

/-- The state that leaves a core whose running code is left: issued operations complete, reads and FDIV are abandoned
(R330, R357). -/
def Core.leave (c : Core) : Core := { c.settle.redirect with loads := [], fdivs := [] }

/-- DOUBLE_FAULT: PC, STATUS, PCC, c15 and GIE are saved, with the operations that it abandons. -/
def Core.dfEnter (c : Core) (epc : Nat) (stat : Word) (cause info : Nat) : Core :=
  let x : DfSlot := ⟨epc, stat, c.pcc, c.settle.rdC 15, cause, info, c.gie, abandoned c⟩
  let c := c.leave
  { c with df := some x, dfLast := x, gie := false, c := storeSet Cap.zero c.c 15 (c.rdS scESTKCAP), pcc := c.rdS scDFCAP,
           pc := c.dfvec.toNat / 4 * 4, ni := false, span := 0, status := BitVec.ofNat 32 (c.status.toNat % 2 ^ 21) }

/-- An event of a core's page, counted as an exception taken if `taken`. -/
def exPost (n bit sev : Nat) (detail : Nat) (s : State) : State := if n < 4 then post (exPg n) bit sev n 0 detail s else s
def exCount (n : Nat) (s : State) : State := if n < 4 then s.incFld (fEXn_COUNT n) else s

/-- Extends the longest deferral span (R373). -/
def maxSpan (n span : Nat) (s : State) : State :=
  if n < 4 ∧ s.fld (fEXn_MAXSPAN n) < span then s.setFld (fEXn_MAXSPAN n) (min span 65535) else s

end Sys2Proof.Machine
end

