-- ==== Sys2Proof/Machine/Brine.lean ====
section
/-!
DEFINITION. Sys2Proof/Machine/Brine.lean: the Brine ports (R218 to R255): lane states and training, identity, sample
frames and their landing, command frames, and the lease register.
-/
namespace Sys2Proof.Machine

def blLink (n : Nat) : Nat := 0x80 + 2 * n
def blTrans (n : Nat) : Nat := 0x81 + 2 * n
def laneOf (s : State) (n l : Nat) : Lane := storeGet Lane.reset s.bl.lanes (2 * n + l)
def State.setLane (s : State) (n l : Nat) (x : Lane) : State :=
  { s with bl := { s.bl with lanes := storeSet Lane.reset s.bl.lanes (2 * n + l) x } }

/-- The fields of lane l (0 A, 1 B) of port n. -/
def fState (n l : Nat) : Fld := if l = 0 then fBLn_LSTAT_STATEA n else fBLn_LSTAT_STATEB n
def fCause (n l : Nat) : Fld := if l = 0 then fBLn_LSTAT_CAUSEA n else fBLn_LSTAT_CAUSEB n
def fRtd (n l : Nat) : Fld := if l = 0 then fBLn_RTD_RTDA n else fBLn_RTD_RTDB n
def fCrcErr (n l : Nat) : Fld := if l = 0 then fBLn_ERRA_CRCERR n else fBLn_ERRB_CRCERR n
def fCvErr (n l : Nat) : Fld := if l = 0 then fBLn_ERRA_CVERR n else fBLn_ERRB_CVERR n
def fRetrain (n l : Nat) : Fld := if l = 0 then fBLn_RETRAIN_A n else fBLn_RETRAIN_B n

/-- The state of a lane (R220): 0 DOWN, 1 LOCK, 2 TRAIN, 3 IDENT, 4 ACTIVE, 5 OFF. -/
def laneSt (s : State) (n l : Nat) : Nat := s.fld (fState n l)
def lanesActive (s : State) (n : Nat) : Bool := [0, 1].any fun l => laneSt s n l == 4
def linkEn (s : State) (n : Nat) : Bool := pageEn s (blLink n)
/-- A lane that LANEMODE includes (R252). -/
def laneIn (s : State) (n l : Nat) : Bool :=
  match s.fld (fBLn_CTRL_LANEMODE n) with | 1 => l == 0 | 2 => l == 1 | _ => true

/-- A lane changes state; LANE_UP, LANE_DOWN, MOD_PRESENT and MOD_LOST follow (R226). -/
def laneTo (n l st : Nat) (s : State) : State :=
  let was := laneSt s n l
  let had := lanesActive s n
  let c := s.fld (fCause n l)
  let s := s.setFld (fState n l) st
  let s := s.setFlag (fBLn_LSTAT_PRESENT n) (lanesActive s n)
  let s := if st = 4 ∧ was ≠ 4 then post (blLink n) (2 + l) 1 n 0 l s else s
  let s := if st = 4 ∧ had = false then post (blLink n) 0 1 n 0 l s else s
  let s := if st ≠ 4 ∧ was = 4 then post (blLink n) (4 + l) 2 n c l s else s
  if had && !lanesActive s n then post (blLink n) 1 3 n c l s else s

/-- A lane enters LOCK; the entries after the first are counted (R225). -/
def laneLock (n l : Nat) (s : State) : State :=
  let x := laneOf s n l
  let s := if x.locked then s.incFld (fRetrain n l) else s
  laneTo n l 1 (s.setLane n l { x with locked := true, fell := none, down := 0 })

/-- A lane falls to DOWN with a cause (R221, R225). -/
def laneFall (n l cause : Nat) (s : State) : State :=
  let fell := if 3 ≤ cause then some (tickNo s) else none
  let x := { laneOf s n l with fell := fell, down := cause, ident := none, miss := 0 }
  laneTo n l 0 ((s.setFld (fCause n l) cause).setLane n l x)

def laneEnter (n l st : Nat) (s : State) : State :=
  laneTo n l st (s.setLane n l { laneOf s n l with answers := 0, rtd := 0, ident := none, identTick := tickNo s, miss := 0,
                                                   trainAt := fcycOf s, sets := 0 })

/-- Lane l goes to DOWN, or to OFF when LANEMODE excludes it, without a cause (R220). -/
def laneRest (n l : Nat) (s : State) : State :=
  (laneTo n l (if laneIn s n l then 0 else 5) s).setLane n l
    { laneOf s n l with fell := none, down := 0, ident := none, miss := 0 }

/-- PAGE_CTRL.EN of a link page (R220, R255): the lanes rest; a port that has never had a valid frame counts its misses
from here. In recovery the page stays disabled (R533, log 164). -/
def linkEnWrite (n : Nat) (on : Bool) (s : State) : State :=
  if linkEn s n = on ∨ (on ∧ s.flag fSEC_STAT_RECOVERY) then s
  else
    let s := laneRest n 1 (laneRest n 0 (s.setFlag (fPAGE_CTRL_EN (blLink n)) on))
    if on && (s.port n).last.isNone then s.setFld (fBLn_SMISS n) 0 else s

/-- SIGNAL_DETECT (R220, R225). -/
def laneSignal (n l : Nat) (s : State) : State :=
  let x := laneOf s n l
  if linkEn s n && laneSt s n l == 0 && decide (x.down ≤ 2) then laneLock n l s else s

/-- LANE_LOCK (R220). -/
def laneTrain (n l : Nat) (s : State) : State := if laneSt s n l = 1 then laneEnter n l 2 s else s

/-- The port's training sets up to now (R222): one every 16 symbols, 64 ns, since the entry to TRAIN; set i has STAMP
i mod 256. -/
def trainSend (n l : Nat) (s : State) : State :=
  let x := laneOf s n l
  let k := (fcycOf s - x.trainAt) * 125 / 192 / 64 + 1
  if laneSt s n l = 2 ∧ x.sets < k then (s.emit (.trainSets n l x.sets (k - x.sets))).setLane n l { x with sets := k } else s

/-- The answer echoes PORTLANE and the STAMP of a set that has been sent (R222). -/
def echoes (s : State) (n l portLane stamp : Nat) : Bool :=
  portLane == n + 128 * l && (decide (256 ≤ (laneOf s n l).sets) || decide (stamp < (laneOf s n l).sets))

/-- TRAINING_SET_ANSWER (R222, R223): the largest of each 64 measurements, rounded up to 4 ns, is the RTD. -/
def trainAnswer (n l rtd portLane stamp : Nat) (s : State) : State :=
  let s := trainSend n l s
  if laneSt s n l ≠ 2 ∨ echoes s n l portLane stamp = false then s
  else
    let x := laneOf s n l
    let r := if x.answers % 64 = 0 then rtd else max x.rtd rtd
    let s := s.setLane n l { x with answers := x.answers + 1, rtd := r }
    if (x.answers + 1) % 64 = 0 then s.setFld (fRtd n l) (min 255 (ceilDiv r 4 * 4)) else s

/-- LANE_TRAIN_DONE (R222, R223). -/
def laneTrained (n l : Nat) (s : State) : State :=
  let s := trainSend n l s
  if laneSt s n l ≠ 2 ∨ (laneOf s n l).answers < 64 then s
  else if 24 < s.fld (fRtd n l) then laneFall n l 3 s
  else if pageEn s 0x10 then laneEnter n l 3 s
  else s

/-- TRAIN_TIMEOUT (R222). -/
def trainTimeout (n l : Nat) (s : State) : State :=
  let s := trainSend n l s
  if laneSt s n l = 2 ∧ (laneOf s n l).answers < 64 then laneFall n l 4 s else s

/-- The received CRC-32 is that of the bytes before it (R230). -/
def rxCrcOk (f : RxFrame) : Bool := decide (crc32 f.bytes = f.crc.toNat)

/-- A received frame is 80 bytes without a violation, with a good CRC and type `ty` (R230). -/
def rxGood (f : RxFrame) (ty : Nat) : Bool :=
  f.bytes.length == 80 && f.cv == 0 && rxCrcOk f && numAt f.bytes 0 1 == ty
def rxSeq (s : State) (f : RxFrame) : Bool := numAt f.bytes 1 1 == tickNo s % 256
def rxTime (f : RxFrame) : Bool :=
  decide (80 ≤ f.soft.toNat) && decide (f.soft.toNat ≤ 104) && decide (f.eoft.toNat ≤ 448)

/-- The CRC and violation counters of lane l see a frame (R255). -/
def rxCount (n l : Nat) (f : RxFrame) (s : State) : State :=
  let s := if rxCrcOk f then s else s.incFld (fCrcErr n l)
  s.addFld (fCvErr n l) f.cv.toNat

/-- The identity record of a frame, with a correct ICRC, PROFILE and NPH (R242). -/
def identOf (f : RxFrame) : Option (List Byte) :=
  let r := bytesAt f.bytes 8 64
  if crc32 (r.take 60) = numAt r 60 4 ∧ numAt r 13 1 = 1 ∧ 1 ≤ numAt r 14 1 ∧ numAt r 14 1 ≤ 8 then some r else none

def storedIdent (s : State) (n : Nat) : List Byte := ((List.range 16).map fun i => bytesOfNat 4 (s.rd (rBLn_IDi n i)).toNat).flatten

/-- IDENTITY_FRAME on an IDENT lane (R224): the second of two consecutive valid and identical frames decides. -/
def identFrame (n l : Nat) (f : RxFrame) (s : State) : State :=
  if laneSt s n l ≠ 3 then s
  else
    let s := rxCount n l f s
    let x := laneOf s n l
    let r := if rxGood f 0xA5 && rxSeq s f && rxTime f then identOf f else none
    if r.isSome && x.ident == r then
      if lanesActive s n then
        if r == some (storedIdent s n) then laneEnter n l 4 s
        else post (blLink n) 6 2 n 6 l (laneFall n l 6 s)
      else
        let s := (List.range 16).foldl (fun t i => t.wr (rBLn_IDi n i) (BitVec.ofNat 32 (numAt (r.getD []) (4 * i) 4))) s
        laneEnter n l 4 s
    else s.setLane n l { x with ident := r }

/-- ID_BAD (R224). -/
def identBad (n l : Nat) (s : State) : State :=
  if laneSt s n l = 3 ∧ (laneOf s n l).identTick + 64 ≤ tickNo s then laneFall n l 5 s else s

def laneRuns (s : State) (n l : Nat) : Bool := 1 ≤ laneSt s n l && laneSt s n l ≤ 4
/-- LANE_SIGNAL_LOSS (R221). -/
def laneLoss (n l : Nat) (s : State) : State := if laneRuns s n l then laneFall n l 1 s else s
/-- LOCKLOST (R221): `cv` code violations within 256 symbols. -/
def laneViolations (n l cv : Nat) (s : State) : State :=
  let s := s.addFld (fCvErr n l) cv
  if laneRuns s n l && decide (4 < cv) then laneFall n l 2 s else s
/-- LANE_FRAMES_LOST (R221). -/
def laneFramesLost (n l : Nat) (s : State) : State :=
  if laneSt s n l = 4 ∧ 16 ≤ (laneOf s n l).miss then laneFall n l 7 s else s
/-- AUTOTRAIN_RETRY (R225). -/
def laneRetry (n l : Nat) (s : State) : State :=
  match (laneOf s n l).fell with
  | some t =>
    if linkEn s n ∧ s.flag (fBLn_CTRL_AUTOTRAIN n) ∧ laneSt s n l = 0 ∧ t + 1024 ≤ tickNo s then laneLock n l s else s
  | none => s
/-- RETRAINA and RETRAINB (R225). -/
def laneRetrain (n l : Nat) (s : State) : State :=
  if linkEn s n && laneIn s n l then laneLock n l (laneTo n l 0 s) else s
/-- REIDENT (R225). -/
def reident (n : Nat) (s : State) : State :=
  [0, 1].foldl (fun t l => if laneSt t n l = 4 then laneEnter n l 3 t else t) s
/-- The lanes after a write of LANEMODE (R220, R252). -/
def laneModeApply (n : Nat) (s : State) : State :=
  [0, 1].foldl (fun t l =>
    if laneIn t n l && laneSt t n l == 5 then laneRest n l t
    else if !laneIn t n l && laneSt t n l != 5 then laneRest n l t
    else t) s
/-- A write of BLn_CTRL. -/
def blCtrlWrite (n : Nat) (v : Word) (s : State) : State :=
  let s := laneModeApply n (plainWrite (rBLn_CTRL n) v s)
  let s := if natBit v.toNat 6 then laneRetrain n 0 s else s
  let s := if natBit v.toNat 7 then laneRetrain n 1 s else s
  if natBit v.toNat 8 then reident n s else s

/-- A lane that carries TICK and frames (R220). -/
def laneUp (s : State) (n l : Nat) : Bool := laneSt s n l == 3 || laneSt s n l == 4

/-- TICK_SEND: TICK of the next boundary on each lane of port n (R227). -/
def tickSend (n : Nat) (s : State) : State :=
  if pageEn s 0x10 && linkEn s n then
    [0, 1].foldl (fun t l => if laneUp t n l then t.emit (.tick n l (tickNo t + 1)) else t) s
  else s

/-! Leases (R243 to R245, R503). -/

/-- LEASED and EPOCH of the module's last valid sample frame. -/
def modLeased (s : State) (n : Nat) : Bool := match (s.port n).last with | some f => natBit (numAt f 4 1) 0 | none => false
def modEpoch (s : State) (n : Nat) : Nat := match (s.port n).last with | some f => numAt f 2 2 | none => 0

/-- HELD after a frame or a write of EPOCH (R245). -/
def heldUpdate (n : Nat) (s : State) : State :=
  let h := modLeased s n && modEpoch s n == s.fld (fBLn_LEASE_EPOCH n)
  let was := s.flag (fBLn_LEASE_HELD n)
  let s := s.setFlag (fBLn_LEASE_HELD n) h
  if h && !was then post (blTrans n) 4 1 n 0 0 s
  else if was && !h then post (blTrans n) 5 3 n 0 0 s
  else s

def plPaired (s : State) : Bool := s.flag fPL_STAT_PAIRED
def plRank (s : State) : Nat := s.fld fPL_CTRL_RANK
/-- GRANT is refused at port n (R503). -/
def grantBlocked (s : State) (n : Nat) : Bool :=
  let yields := s.fld fPL_STAT_ARB == 2
  let wait := if plRank s = 0 then 272 else 320
  !plPaired s &&
  (modLeased s n || (yields && decide (tickNo s < s.rd64 rPL_TL + wait)) ||
   (yields && (List.range 64).any fun p => s.flag (fBLn_LSTAT_PRESENT p) && modLeased s p && modEpoch s p % 2 == 1 - plRank s))

/-- A write of BLn_LEASE (R244, R503). -/
def leaseWrite (n : Nat) (v : Word) (s : State) : State :=
  let lop := bitsGet v 24 2
  let s := heldUpdate n (plainWrite (rBLn_LEASE n) v s)
  if lop = 1 ∧ grantBlocked s n then post 0x180 3 2 n 0 0 (s.incFld fPL_GBLOCK)
  else if lop = 1 ∨ lop = 2 then s.setPort n { s.port n with lop := lop, lopNew := true }
  else s

/-! Sample frames (R230 to R236, R254). -/

def frameHold (s : State) : Bool := s.flag fRST_STAT_FRAMEHOLD
def blBase (s : State) (n : Nat) : Nat := s.fld (fBLn_SBASE n) * 512
/-- What lands in the Saltern, unless the frame hold keeps it out (R520). -/
def land (n : Nat) (bs : List Byte) (s : State) : State :=
  if frameHold s then s else salWrite (blBase s n + 0x80 * (tickNo s % 2)) bs (portTouch n s)
def landHead (s : State) (ls : Nat) : List Byte := bytesOfNat 8 (tickNo s) ++ bytesOfNat 4 ls ++ bytesOfNat 4 0

/-- Counts of consecutive ticks without a valid frame per lane (R221). -/
def laneMisses (n : Nat) (va vb : Bool) (s : State) : State :=
  let f := fun (l : Nat) (v : Bool) (t : State) =>
    if laneSt t n l = 4 then t.setLane n l { laneOf t n l with miss := if v then 0 else (laneOf t n l).miss + 1 } else t
  f 1 vb (f 0 va s)

/-- The module's status of a valid frame (R245, R254, R255): registers and the events of rising and falling bits. -/
def sampleStatus (n : Nat) (fr : List Byte) (old : Nat) (s : State) : State :=
  let ms := numAt fr 4 1
  let rise := fun b => natBit ms b && !natBit old b
  let was := s.flag (fBLn_LEASE_FOREIGN n)
  let s := if rise 2 then post (blTrans n) 2 1 n 0 ms s else s
  let s := if natBit old 2 && !natBit ms 2 then post (blTrans n) 3 1 n 0 ms s else s
  let s := if rise 3 then post (blTrans n) 7 3 n 0 ms s else s
  let s := heldUpdate n s
  let s := s.setFlag (fBLn_LEASE_FOREIGN n) (natBit ms 5)
  if natBit ms 5 && !was then post (blTrans n) 6 2 n 0 ms s else s

/-- The value the grid tracker takes when it follows port n (R53): field FIELD of local phase PHASE. -/
def gridFeed (n : Nat) (fr : List Byte) (s : State) : State :=
  if s.fld fTB_GRID_SRC_PORT = n then
    gridSample (sampleField fr (s.fld fTB_GRID_SRC_PHASE) (s.fld fTB_GRID_SRC_FIELD)) s
  else s

/-- A valid frame on one lane (R230), its error bits (R236) and the counters. -/
def laneGood (s : State) (n l : Nat) (f : Option RxFrame) : Bool :=
  match f with | some x => laneUp s n l && rxGood x 0x5A | none => false
def laneValid (s : State) (n l : Nat) (f : Option RxFrame) : Bool :=
  laneGood s n l f && (match f with | some x => rxSeq s x && rxTime x | none => false)
def laneCount (n l : Nat) (f : Option RxFrame) (s : State) : State :=
  match f with | some x => if laneUp s n l then rxCount n l x s else s | none => s

/-- SEQERR and TIMING: a lane frame correct in every other respect failed its SEQ test or its window (R236). -/
def errBits (s : State) (n : Nat) (a b : Option RxFrame) : Nat :=
  let bad := fun (q : RxFrame → Bool) => (laneGood s n 0 a && (a.any fun f => !q f)) || (laneGood s n 1 b && (b.any fun f => !q f))
  16 * b2n (bad (rxSeq s)) + 32 * b2n (bad rxTime)

/-- SAMPLE_FRAME_RECEIVE: the frames of lanes A and B in this tick (R230 to R236). `lat` is the Rake's decision time in
ns (R268). Before the first boundary nothing lands (R51). Without a valid frame the tick waits for LANDING_NO_FRAME. -/
def sampleReceive (n : Nat) (a b : Option RxFrame) (lat : Nat) (s : State) : State :=
  if linkEn s n = false ∨ s.tb.started = false ∨ (s.port n).noted = tickNo s + 1 then s
  else
    let va := laneValid s n 0 a
    let vb := laneValid s n 1 b
    let err := errBits s n a b
    let s := laneCount n 1 b (laneCount n 0 a s)
    match (if va then a else if vb then b else none) with
    | none => s.setPort n { s.port n with lbits := Nat.lor (s.port n).lbits err }
    | some f =>
      let p := s.port n
      let diff := va && vb && (a.map fun x => x.bytes) != (b.map fun x => x.bytes)
      let ls := 1 + 2 * b2n (!va) + 4 * b2n va + 8 * b2n vb + Nat.lor err p.lbits + 64 * b2n diff + 256 * (f.soft.toNat % 256) +
        65536 * (f.eoft.toNat % 512)
      let old := match p.last with | some q => numAt q 4 1 | none => 0
      let prev := if p.lastTick + 1 = tickNo s then p.last else none
      let missed := s.fld (fBLn_SMISS n) != 0
      let s := land n (landHead s ls ++ f.bytes) (laneMisses n va vb s)
      let s := s.wr (rBLn_TSTAT n) (BitVec.ofNat 32 (numAt f.bytes 4 1 * 2 ^ 24 + numAt f.bytes 5 1 * 2 ^ 16 +
        numAt f.bytes 6 1 * 2 ^ 8 + ls % 256))
      let s := (s.setFld (fBLn_SMISS n) 0).wr64 (rBLn_LASTOK n) (tickNo s)
      let s := (s.setFld (fBLn_ARRIVE_EOFT n) f.eoft.toNat).setFld (fBLn_ARRIVE_SOFT n) f.soft.toNat
      let s := s.setPort n { p with last := some f.bytes, lastTick := tickNo s, valid := tickNo s + 1,
                                    noted := tickNo s + 1, lbits := 0, pvalid := p.valid, plast := p.last }
      let s := if missed then post (blTrans n) 1 1 n 0 0 s else s
      gridFeed n f.bytes (judgePort n ⟨some f.bytes, prev, 0⟩ lat (sampleStatus n f.bytes old s))

/-- LANDING_NO_FRAME: at 452 ns of a tick without a valid frame (R235, R255). -/
def landNoFrame (n lat : Nat) (s : State) : State :=
  if linkEn s n = false ∨ s.tb.started = false ∨ (s.port n).noted = tickNo s + 1 then s
  else
    let p := s.port n
    let first := decide (p.valid ≠ 0) && s.fld (fBLn_SMISS n) == 0
    let s := land n (landHead s p.lbits) (laneMisses n false false s)
    let s := s.wr (rBLn_TSTAT n) (BitVec.ofNat 32 (p.lbits % 256))
    let s := (s.incFld (fBLn_SMISS n)).incFld (fBLn_SMISSTOT n)
    let s := s.setPort n { p with noted := tickNo s + 1, lbits := 0 }
    let s := if first then post (blTrans n) 0 2 n 0 0 s else s
    judgePort n ⟨none, none, s.fld (fBLn_SMISS n)⟩ lat s

/-! Command frames (R237 to R240, R244). -/

/-- COMMAND_AREA_CLOSE at one port (R239, R244). -/
def portLatch (n : Nat) (s : State) : State :=
  let p := s.port n
  if linkEn s n = false ∨ s.tb.started = false ∨ frameHold s ∨ frozen s (blTrans n) then s
  else
    let a := blBase s n + 0x100 + 0x40 * (tickNo s % 2)
    let bad := salBad s a 64
    let bs := salBytes s a 64
    let s := salReadFx n a 64 s
    let s := s.setPort n { p with buf := if bad then none else some bs, latched := tickNo s + 1, latLop := p.lop, lopNew := false,
                                  latEpoch := s.fld (fBLn_LEASE_EPOCH n), latArmed := s.flag (fBLn_LEASE_ARMED n),
                                  latStop := s.flag (fBLn_LEASE_STOP n) }
    if bad then addHold ⟨3, n, 0, 8 * n, 8, 0xFFFF, tickNo s, some (tickNo s + 1)⟩ 0 s else s

/-- The close of the command area at 540 ns: the marks of R441, and every port's latch. -/
def areaClose (s : State) : State :=
  if s.bl.closed = tickNo s + 1 then s
  else (List.range 64).foldl (fun t n => portLatch n t)
    (markClose (tickNo s) { s with bl := { s.bl with closed := tickNo s + 1 } })

/-- TKLEN of the present tick (R237). -/
def tkLen (s : State) : Nat :=
  if tbMoves s = false then 0xFFFF
  else
    let x := (fcycOf s + cclkTo s (nextBoundary s) - s.tb.tickFcyc) * 125
    let c := fun u => x / (192 * u)
    if c 16 < 16384 then c 16
    else if c 1024 < 16384 then 16384 + c 1024
    else if c 65536 < 16384 then 32768 + c 65536
    else if c 4194304 < 16384 then 49152 + c 4194304
    else 0xFFFF

/-- Field f of a frame's block (R263), with a self-test's masks taken against the bank it was judged in (R273). -/
def frameField (o t : Ovr) (alt safe tAlt tSafe blk f : Nat) : Nat :=
  if o.em || natBit o.hold f || natBit o.safe f then ovrField o alt safe blk f
  else if natBit t.safe f then cmdField tSafe f
  else if natBit o.alt f then cmdField alt f
  else if natBit t.alt f then cmdField tAlt f
  else
    let x := if natBit o.min f then min (cmdField blk f) (cmdField alt f) else cmdField blk f
    if natBit t.min f then min x (cmdField tAlt f) else x

/-- Local phase l's block in the frame of the present tick under a self-test's masks `m`, and its override code. -/
def frameBlock (s : State) (n l m : Nat) : Nat × Nat :=
  let q := 8 * n + l
  let p := s.port n
  let b := actBank s
  let o := ovrOf s q (tickNo s) 0
  let t : Ovr := ⟨natBits m 0 16, natBits m 16 16, natBits m 32 16, 0, false⟩
  let blk := numAt (p.buf.getD []) (6 * l) 6
  (cmdBlock (frameField o t (phAlt s b q) (phSafe s b q) (phAlt s p.tBank q) (phSafe s p.tBank q) blk),
   ovrCode ⟨Nat.lor o.min t.min, Nat.lor o.alt t.alt, Nat.lor o.safe t.safe, o.hold, o.em⟩)

/-- The port relays for the partner in this tick (R501). -/
def relaying (s : State) (n : Nat) : Bool := natBit (s.rd64 rPL_RELAYACT) n

/-- LOP and EPOCH of the frame on an ACTIVE lane (R237, R244, R501). -/
def leaseOp (s : State) (n : Nat) : Nat × Nat :=
  let p := s.port n
  if relaying s n then (0, modEpoch s n)
  else if p.latLop = 1 then (1, p.latEpoch)
  else if p.latLop = 2 then (2, if p.latArmed then p.latEpoch else 0)
  else if p.latArmed then (0, p.latEpoch)
  else (3, 0)

/-- MCMD of the frame; of a buffer that read uncorrectable no rule gives it, and it is free (R239, log 98). -/
def modeCmd (s : State) (n : Nat) : Nat := (match (s.port n).buf with | some b => numAt b 48 1 | none => s.freeVal) % 8

def frameBytes (s : State) (n lop epoch tk : Nat) (blocks : List Nat) : List Byte :=
  let body := bytesOfNat 1 0xC3 ++ bytesOfNat 1 (tickNo s) ++ bytesOfNat 2 epoch ++ bytesOfNat 1 lop ++
    bytesOfNat 1 (modeCmd s n) ++ bytesOfNat 2 tk ++ (blocks.map fun b => bytesOfNat 6 b).flatten
  body ++ bytesOfNat 4 (crc32 body)

/-- The port sends a frame in this tick (R244, R494, R501, R520). -/
def frameDue (s : State) (n : Nat) : Bool :=
  let p := s.port n
  linkEn s n && s.tb.started && p.latched == tickNo s + 1 && p.sent != tickNo s + 1 && (!p.latStop || relaying s n) && !frameHold s &&
  (match s.pwr.logic with | some t => decide (tickNo s ≤ t) | none => true) && (laneUp s n 0 || laneUp s n 1)

/-- ARMED and the pending operation after a GRANT or RELEASE has been sent on an ACTIVE lane (R244). -/
def leaseSent (n : Nat) (s : State) : State :=
  let p := s.port n
  if lanesActive s n && !relaying s n && p.latLop != 0 then
    let s := s.setFlag (fBLn_LEASE_ARMED n) (p.latLop == 1)
    s.setPort n { p with lop := if p.lopNew then p.lop else 0 }
  else s

/-- COMMAND_FRAME_SEND (R237, R239, R263). -/
def frameSend (n : Nat) (s : State) : State :=
  if frameDue s n = false then s
  else
    let m := (s.port n).tMask
    let bl := (List.range 8).map fun l => frameBlock s n l (m.getD l 0)
    let blocks := bl.map fun b => b.1
    let tk := tkLen s
    let e := leaseOp s n
    let idEpoch := if (s.port n).latArmed then (s.port n).latEpoch else 0
    let s := [0, 1].foldl (fun t l =>
      if laneSt t n l = 4 then t.emit (.cmdFrame n l (tickNo t) (frameBytes t n e.1 e.2 tk blocks))
      else if laneSt t n l = 3 then t.emit (.cmdFrame n l (tickNo t) (frameBytes t n 5 idEpoch tk blocks))
      else t) s
    let s := leaseSent n (if (s.port n).buf.isNone then s.stepFree else s)
    let povr := (List.range 8).foldl (fun m l => storeSet 0 m l (bl.getD l (0, 0)).2) []
    s.setPort n { s.port n with sent := tickNo s + 1, blocks := blocks, tMask := [], tUsed := m, povr := povr }

/-! Frames on their way (R263, R269, R270, R273): block l leaves 596 + 24l ns into the tick. -/

/-- A frame of port n that has been sent in this tick, with these phase blocks instead. -/
def withBlocks (n : Nat) (blocks : List Nat) (s : State) : State :=
  { s with out := s.out.map fun o =>
      match o with
      | .cmdFrame p l t bs =>
        if p = n ∧ t = tickNo s then
          let body := bytesAt bs 0 8 ++ (blocks.map fun b => bytesOfNat 6 b).flatten
          .cmdFrame p l t (body ++ bytesOfNat 4 (crc32 body))
        else o
      | o => o }

/-- The phase blocks of port n that `late` names, which have not left yet, take the overrides as they are now. -/
def reblock (n : Nat) (late : Nat → Bool) (s : State) : State :=
  let p := s.port n
  if p.sent ≠ tickNo s + 1 then s
  else
    let bl := (List.range 8).map fun l =>
      if late l then frameBlock s n l (p.tUsed.getD l 0) else (p.blocks.getD l 0, storeGet 0 p.povr l)
    let blocks := bl.map fun b => b.1
    (withBlocks n blocks s).setPort n { p with
      blocks := blocks, povr := (List.range 8).foldl (fun m l => storeSet 0 m l (bl.getD l (0, 0)).2) [] }

/-- Every port's frame whose first phase block has at least `ns` ns to go. -/
def reframe (ns : Nat) (s : State) : State :=
  if tickNs s + ns ≤ 596 then (List.range 64).foldl (fun t n => reblock n (fun _ => true) t) s else s

/-- The emergency is recognised: every block that leaves 8 ns later or more carries zeros, and EMERG has the ANGLE of the
recognition (R269). -/
def emRecognise (s : State) : State :=
  let s := (s.setFlag fRK_STAT_EMPIN true).setFlag fRK_STAT_EMERG true
  let s := postEventAt ⟨rkPg, 2, 3⟩ (commonPay s rkPg 0 0 0) (some (angleOf s)) s
  (List.range 64).foldl (fun t n => reblock n (fun l => decide (tickNs t + 8 ≤ 596 + 24 * l)) t) s

/-- EMSTOP_FALL (R269). -/
def emFall (s : State) : State := if s.flag fRK_STAT_EMERG then s.setFlag fRK_STAT_EMPIN true else emRecognise s
def emRise (s : State) : State := s.setFlag fRK_STAT_EMPIN false

/-- RK_CTRL.ECLR (R270). -/
def rkEclr (s : State) : State :=
  if s.flag fRK_STAT_EMPIN then rkRefuse s
  else if s.flag fRK_STAT_EMERG then reframe 8 (post rkPg 3 1 0 0 0 (s.setFlag fRK_STAT_EMERG false))
  else s

/-- TEST_DONE (R273): with APPLY the result acts on the frame of this tick while its phase blocks have not started, else
on the next. -/
def rkTestDone (s : State) : State :=
  match s.rk.test with
  | none => s
  | some ms =>
    let s := (List.range 8).foldl (fun t l =>
      let m := ms.getD l 0
      t.wr (rRK_TOVRl l) (BitVec.ofNat 32 (ovrCode ⟨natBits m 0 16, natBits m 16 16, natBits m 32 16, 0, false⟩))) s
    let n := s.rk.testPort
    let s := if s.rk.testDo = false then s
      else if (s.port n).sent = tickNo s + 1 ∧ tickNs s < 596 then
        reblock n (fun _ => true) (s.setPort n { s.port n with tUsed := ms, tBank := s.rk.testBank })
      else s.setPort n { s.port n with tMask := ms, tBank := s.rk.testBank }
    post 0x101 0 1 n 0 0 ((s.setFlag fRK_STAT_TESTBUSY false).rkSet fun r => { r with test := none })

/-- BLn_LEASE.LOP GRANT and RELEASE as writes that keep STOP (R244). -/
def leaseOpWrite (n lop epoch : Nat) (s : State) : State :=
  leaseWrite n (BitVec.ofNat 32 (epoch % 65536 + lop * 2 ^ 24 + b2n (s.flag (fBLn_LEASE_STOP n)) * 2 ^ 29)) s

end Sys2Proof.Machine
end

