-- ==== Sys2Proof/Machine/Duplex.lean ====
section
/-!
DEFINITION. Sys2Proof/Machine/Duplex.lean: the pair link of a duplex rack (R496 to R505): its lane, pair frames, relays,
the loss of the link, and JOIN.
-/
namespace Sys2Proof.Machine

def plPg : Nat := 0x180
def State.dupSet (s : State) (f : DupState → DupState) : State := { s with dup := f s.dup }
/-- The state of the pair link's lane, coded as SL_PSTAT (R497). -/
def plLane (s : State) : Nat := s.fld fPL_STAT_LANE

/-- The lane falls to DOWN, where it stays for 10 us (R455, R497). -/
def plDown (s : State) : State := (s.setFld fPL_STAT_LANE 0).dupSet fun d => { d with fell := fcycOf s + 1 }
def plSignal (s : State) : State :=
  if plLane s = 0 ∧ rests s s.dup.fell = false then s.setFld fPL_STAT_LANE 1 else s
def plLock (s : State) : State := if plLane s = 1 then s.setFld fPL_STAT_LANE 2 else s
/-- The latency limit is 200 ns (R497). -/
def plMeasure (rt : Nat) (s : State) : State :=
  if plLane s ≠ 2 then s
  else
    let s := s.setFld fPL_LAT (min 255 ((rt + 1) / 2))
    if (rt + 1) / 2 ≤ 200 then s.setFld fPL_STAT_LANE 3 else plDown s
def plFall (s : State) : State := if plLane s = 3 then plDown s else s
def plRelock (s : State) : State :=
  if plLane s = 0 ∧ s.dup.fell ≠ 0 ∧ rests s s.dup.fell = false then s.setFld fPL_STAT_LANE 1 else s

/-! Counts of modules (R498, R502). -/

def plPresent (s : State) : Nat := ((List.range 64).filter fun n => s.flag (fBLn_LSTAT_PRESENT n)).length
def ownLease (s : State) (n : Nat) : Bool := modLeased s n && modEpoch s n % 2 == plRank s
def plHeld (s : State) : Nat := ((List.range 64).filter fun n => s.flag (fBLn_LSTAT_PRESENT n) && ownLease s n).length

/-- The phase blocks port n sends in the present tick; zeros without a frame (R498). -/
def sentBlocks (s : State) (n : Nat) : List Nat :=
  if (s.port n).sent = tickNo s + 1 then (s.port n).blocks
  else if frameDue s n then (List.range 8).map fun l => (frameBlock s n l ((s.port n).tMask.getD l 0)).1
  else List.replicate 8 0

def plDigest (s : State) : Nat :=
  crc32 ((List.range 64).map fun n => ((sentBlocks s n).map fun b => bytesOfNat 6 b).flatten).flatten

def laneOk (s : State) : Nat :=
  (List.range 64).foldl (fun a n => if lanesActive s n then a + 2 ^ n else a) 0

/-- The pair frame (R498). -/
def pairFrame (s : State) (dig : Nat) : List Byte :=
  let flags := plRank s + 2 * s.fld fPL_STAT_ARB + 8 * b2n (s.flag fTB_STAT_LOCKED)
  let body := bytesOfNat 1 0x96 ++ bytesOfNat 1 flags ++ bytesOfNat 1 (plHeld s) ++ bytesOfNat 1 (plPresent s) ++
    bytesOfNat 4 dig ++ bytesOfNat 8 (tickNo s) ++ bytesOfNat 8 (angleOf s) ++ bytesOfNat 8 (laneOk s) ++
    bytesOfNat 8 (s.rd64 rPL_RELAYREQ) ++ bytesOfNat 20 0
  body ++ bytesOfNat 4 (crc32 body)

/-- Own and partner's DIGEST of one tick are compared once both are known (R501). A controller that relays and whose
DIGEST differs ends every relay from the next tick. -/
def digestCheck (s : State) : State :=
  if s.dup.pWait && s.dup.got == s.dup.sent then
    let s := s.dupSet fun d => { d with pWait := false }
    if s.dup.pDigest = s.dup.oDigest then s
    else
      let s := s.incFld fPL_DIGERR
      if s.rd64 rPL_RELAYACT = 0 then s else post plPg 4 2 0 0 0 (s.dupSet fun d => { d with pRelay := 0 })
  else s

/-- PAIR_FRAME_SEND: 560 ns into the tick while the link is UP (R497). -/
def pairSend (s : State) : State :=
  if plLane s = 3 ∧ pageEn s 0x10 ∧ s.dup.sent ≠ tickNo s + 1 then
    let dig := plDigest s
    digestCheck ((s.emit (.pairFrame (tickNo s) (pairFrame s dig))).dupSet fun d =>
      { d with sent := tickNo s + 1, oDigest := dig })
  else s

/-- A pair frame with its CRC and FTYPE correct (R499). -/
def pairGood (bs : List Byte) : Bool :=
  bs.length == 64 && crc32 (bs.take 60) == numAt bs 60 4 && numAt bs 0 1 == 0x96
/-- It belongs to the receiver's tick, or arrived before 540 ns of the next one (R499). -/
def pairTimely (s : State) (bs : List Byte) : Bool :=
  numAt bs 8 8 == tickNo s || (numAt bs 8 8 + 1 == tickNo s && decide (tickNs s < 540))

/-- JOIN (R500): ANGLE is advanced by the latency at the present RATE. The count of valid frames starts afresh in the new
numbering of the ticks. -/
def pairJoin (bs : List Byte) (s : State) : State :=
  if s.dup.join = false ∨ pageEn s 0x10 then s
  else
    let adv := s.fld fPL_LAT * 192 / 125 * rateOf s / 2 ^ 32
    ((angleSet (numAt bs 16 8 + adv) s).wr64 rTICKNO (numAt bs 8 8)).dupSet fun d =>
      { d with join := false, got := numAt bs 8 8, good := 0 }

/-- A frame measures the angle at rank 1 (R500): `sof` is the CCLK since the arrival of its first symbol. -/
def pairTime (bs : List Byte) (sof : Nat) (s : State) : State :=
  if pairTimed s then
    let was := s.flag fTB_STAT_LOCKED
    let s := if s.tb.sel = 1 then s.tbSet fun t => { t with fabOk := true } else s
    let s := fabricMeasure (numAt bs 16 8) (angleAtCycle s (fcycOf s - sof - s.fld fPL_LAT * 192 / 125)) s
    if s.flag fTB_STAT_LOCKED && !was then post plPg 5 1 0 0 0 s else s
  else s

/-- PAIR_FRAME_RECEIVE (R499 to R501, R504). -/
def pairReceive (bs : List Byte) (sof : Nat) (s : State) : State :=
  if plLane s ≠ 3 ∨ pairGood bs = false then s
  else
    let s := pairJoin bs s
    if pairTimely s bs = false ∨ numAt bs 8 8 < s.dup.got then s
    else
      let t := numAt bs 8 8
      let good := if s.dup.got = t then s.dup.good + 1 else 1
      let s := s.dupSet fun d => { d with good := good, got := t + 1, pDigest := numAt bs 4 4, pWait := true,
                                          pRelay := numAt bs 32 8 }
      let s := s.setFld fPL_COUNT_PHELD (numAt bs 2 1)
      let s := if 16 ≤ good ∧ plPaired s = false then
          post plPg 0 1 0 0 0 ((s.setFlag fPL_STAT_PAIRED true).setFld fPL_STAT_ARB 0)
        else s
      digestCheck (pairTime bs sof s)

/-- A present port with a valid frame in tick t, and the frame (R502). -/
def frameOfTick (s : State) (n t : Nat) : Option (List Byte) :=
  if s.flag (fBLn_LSTAT_PRESENT n) = false then none
  else if (s.port n).valid = t + 1 then (s.port n).last
  else if (s.port n).pvalid = t + 1 then (s.port n).plast
  else none

def ownsFrame (s : State) (f : List Byte) : Bool := natBit (numAt f 4 1) 0 && numAt f 2 2 % 2 == plRank s

/-- PAIR_LOST: the fourth consecutive tick without a valid frame has ended (R499, R502). -/
def pairLost (s : State) : State :=
  let tl := s.dup.got + 3
  if plPaired s = false ∨ tickNo s < tl + 1 then s
  else
    let fs := (List.range 64).filterMap fun n => frameOfTick s n tl
    let h := (fs.filter fun f => ownsFrame s f).length
    let s := ((s.setFlag fPL_STAT_PAIRED false).wr64 rPL_TL tl).wr64 rPL_RELAYACT 0
    let s := post plPg 1 3 0 0 0 (s.dupSet fun d => { d with good := 0, pRelay := 0 })
    if fs.length < 2 * h ∨ (2 * h = fs.length ∧ plRank s = 0) then s.setFld fPL_STAT_ARB 1
    else
      let s := (List.range 64).foldl (fun t n => t.setFlag (fBLn_LEASE_STOP n) true) (s.setFld fPL_STAT_ARB 2)
      post plPg 2 3 0 0 0 s

/-- At the close of the command area, a link that is UP counts the last tick's missing frame (R499, R505). -/
def pairMiss (s : State) : State :=
  if plLane s = 3 ∧ s.dup.chk ≠ tickNo s ∧ s.dup.got < tickNo s then
    (s.incFld fPL_MISS).dupSet fun d => { d with chk := tickNo s }
  else s

/-- The relays of the tick that begins (R501). -/
def plBoundary (s : State) : State :=
  s.wr64 rPL_RELAYACT (if plPaired s && s.flag fPL_CTRL_RELAYEN then s.dup.pRelay else 0)

/-- PL_CTRL.JOIN (R500, R505). -/
def joinWrite (s : State) : State := if pageEn s 0x10 then s else s.dupSet fun d => { d with join := true }

/-- COMMAND_AREA_CLOSE on the device: the pair link's window, then the ports. -/
def commandClose (s : State) : State := areaClose (pairMiss s)

end Sys2Proof.Machine
end

