-- ==== Sys2Proof/Machine/Queue.lean ====
section
/-!
DEFINITION. Sys2Proof/Machine/Queue.lean: the queue engine and the PCIe endpoint (R419 to R438, R445 to R448, R451):
queues, doorbells, fetch and duplicate detection, records, event queues, the resync.
-/
namespace Sys2Proof.Machine

def qePg : Nat := 0x1020
def pxPg : Nat := 0x1010
def State.qeSet (s : State) (f : QeState → QeState) : State := { s with qe := f s.qe }
def queueOf (s : State) (q : Nat) : Queue := storeGet Queue.absent s.qe.queues q
def State.setQueue (s : State) (q : Nat) (x : Queue) : State :=
  s.qeSet fun e => { e with queues := storeSet Queue.absent e.queues q x }

def Queue.isCmd (x : Queue) : Bool := x.st != 0 && x.ty == 1
def Queue.isEvt (x : Queue) : Bool := x.st != 0 && x.ty == 2
def Queue.sqSize (x : Queue) : Nat := 2 ^ x.sqLog
def Queue.cqSize (x : Queue) : Nat := 2 ^ x.cqLog
/-- Free CQ or EQ slots (R434, R435). -/
def Queue.freeSlots (x : Queue) : Nat := x.cqSize - (x.cqTail - x.cqHead) - x.resv

/-- No host-memory access starts: VDDH below warning (R511), D3hot or no link (R419), or a freeze (R38). -/
def qeBlocked (s : State) : Bool := s.flag fHP_STAT_BELOW || s.qe.d3hot || !s.qe.linkUp || frozen s qePg

/-! MSI-X (R421, R428). -/

/-- Word w of the MSI-X table; a vector resets masked (PRESUMED, PCI Express; log 42). -/
def msixDflt (w : Nat) : Word := if w % 4 = 3 then 1 else 0
def msixWord (s : State) (w : Nat) : Word := storeGet (msixDflt w) s.qe.msix w

def msixEmit (v : Nat) (s : State) : State :=
  s.emit (.msix v ((msixWord s (4 * v)).toNat + (msixWord s (4 * v + 1)).toNat * 2 ^ 32) (msixWord s (4 * v + 2)).toNat)

/-- A vector is sent, or pends while it is masked. -/
def msixSend (v : Nat) (s : State) : State :=
  if natBit (msixWord s (4 * v + 3)).toNat 0 then
    s.wr (rPX_PBAi (v / 32)) (BitVec.ofNat 32 (natBitSet (s.rd (rPX_PBAi (v / 32))).toNat (v % 32) true))
  else msixEmit v s

/-- A write of the MSI-X table; an unmasked vector that pends is sent. -/
def msixWrite (w : Nat) (x : Word) (s : State) : State :=
  let s := s.qeSet fun e => { e with msix := storeSet (msixDflt w) e.msix w x }
  let v := w / 4
  if w % 4 = 3 ∧ natBit x.toNat 0 = false ∧ natBit (s.rd (rPX_PBAi (v / 32))).toNat (v % 32) then
    msixEmit v (s.wr (rPX_PBAi (v / 32)) (BitVec.ofNat 32 (natBitSet (s.rd (rPX_PBAi (v / 32))).toNat (v % 32) false)))
  else s

/-! Records (R420, R425, R428, R430, R432). -/

/-- A record goes to the tail of queue q; `w0` is its first word without PHASE. An armed queue sends its vector once. -/
def recWrite (q w0 : Nat) (rest : List Byte) (s : State) : State :=
  let x := queueOf s q
  let ph := if x.cqTail / x.cqSize % 2 = 0 then 2 ^ 31 else 0
  let s := s.emit (.hostWrite (x.cqBase + 32 * (x.cqTail % x.cqSize)) (bytesOfNat 4 (w0 + ph) ++ rest))
  let s := s.setQueue q { x with cqTail := x.cqTail + 1, armed := false }
  if x.armed then msixSend x.vec s else s

/-- The count of the first SQ entry not yet accepted or completed as DUPLICATE (R430). -/
def Queue.sqHead (x : Queue) : Nat :=
  let open' := x.cmds.filter fun c => c.st == .fetched || c.st == .sent || c.st == .committed || c.st == .dup
  (open'.filterMap fun c => c.slot).foldl min x.fetch

/-- A CQ record spends a reserved slot (R430, R436). -/
def cqRecord (q kind status : Nat) (rep : Bool) (c : QCmd) (angle tick : Nat) (s : State) : State :=
  let x := queueOf s q
  let s := s.setQueue q { x with resv := x.resv - 1 }
  let opc := numAt c.entry 0 1 + numAt c.entry 1 1 % 4 * 2 ^ 8 + numAt c.entry 2 2 % 16384 * 2 ^ 10
  recWrite q (kind + status * 2 ^ 8 + b2n rep * 2 ^ 12)
    (bytesOfNat 4 c.cseq ++ bytesOfNat 2 (x.sqHead % x.sqSize) ++ bytesOfNat 2 0 ++ bytesOfNat 4 opc ++
      bytesOfNat 8 angle ++ bytesOfNat 8 tick) s

/-- Queue q's first command that satisfies `p` becomes `f` of it. -/
def mapFirst (p : QCmd → Bool) (f : QCmd → QCmd) : List QCmd → List QCmd
  | [] => []
  | c :: r => if p c then f c :: r else c :: mapFirst p f r

def State.setCmd (s : State) (q : Nat) (c d : QCmd) : State :=
  let x := queueOf s q
  s.setQueue q { x with cmds := mapFirst (fun e => e == c) (fun _ => d) x.cmds }
def State.delCmd (s : State) (q : Nat) (c : QCmd) : State :=
  let x := queueOf s q
  s.setQueue q { x with cmds := x.cmds.erase c }

/-- The ACCEPT record and the notice (R437). QE_ACCCNT counts it unless CREATE_CMD posts it again (log 159). -/
def postAccept (q : Nat) (c : QCmd) (s : State) : State :=
  let s := s.setCmd q c { c with st := .accepted }
  let s := cqRecord q 1 0 (natBit c.rep 0) c c.angle c.ta s
  let s := if natBit c.rep 2 then s else s.wr64 rQE_ACCCNT (s.rd64 rQE_ACCCNT + 1)
  slSend 1 (.notice c.idx) s

/-- The COMPLETE record of an outcome (R431, R437). -/
def postComplete (q : Nat) (c : QCmd) (st angle tick : Nat) (s : State) : State :=
  let code := if st = 1 then 1 else if st = 2 then 3 else 4
  let s := s.setCmd q c { c with st := .completed, cqPos := (queueOf s q).cqTail }
  cqRecord q 2 code (natBit c.rep 1) c angle tick s

def postDuplicate (q : Nat) (c : QCmd) (s : State) : State :=
  let s := s.delCmd q c
  cqRecord q 2 2 false c (s.rd64 rSH_ANGLE) (s.rd64 rSH_TICKNO) s

/-- The outcome message of a command, if it has arrived. -/
def outcomeOf (s : State) (q : Nat) (c : QCmd) : Option Msg :=
  s.sl.inH.find? fun m => match m with | .outcome q' cs i _ _ _ => q' == q && cs == c.cseq && i == c.idx | _ => false

/-- Every record that may be posted, in CSEQ order: each ACCEPT after those before it, each COMPLETE after its ACCEPT
and the COMPLETEs before it, a DUPLICATE once its original is accepted (R431, R436). -/
def postAll (q : Nat) (acc comp : Bool) (wait : List Nat) : List QCmd → State → State
  | [], s => s
  | c :: r, s =>
    match c.st with
    | .dup => if wait.contains c.cseq then postAll q acc comp wait r s else postAll q acc comp wait r (postDuplicate q c s)
    | .committed =>
      if acc then
        let s := postAccept q c s
        let c' := { c with st := .accepted }
        match outcomeOf s q c', comp with
        | some (.outcome a b i st an ti), true =>
          postAll q acc comp wait r (postComplete q c' st an ti (dropH (.outcome a b i st an ti) s))
        | _, _ => postAll q acc false wait r s
      else postAll q false false (c.cseq :: wait) r s
    | .accepted =>
      match outcomeOf s q c, comp with
      | some (.outcome a b i st an ti), true =>
        postAll q acc comp wait r (postComplete q c st an ti (dropH (.outcome a b i st an ti) s))
      | _, _ => postAll q acc false wait r s
    | .completed => postAll q acc comp wait r s
    | _ => postAll q false false (c.cseq :: wait) r s

/-- An event record in queue q (R432). -/
def eqRecord (q ty page sev die seq angle : Nat) (pay : List Byte) (s : State) : State :=
  recWrite q (ty % 65536 + page % 1024 * 2 ^ 16 + sev * 2 ^ 26 + die * 2 ^ 30)
    (bytesOfNat 4 seq ++ bytesOfNat 8 angle ++ bytesAt pay 0 16) s

/-- The OVERFLOW record, as soon as a slot is free (R434). -/
def overflowRecord (q : Nat) (s : State) : State :=
  let x := queueOf s q
  if x.dropNew = 0 ∨ x.freeSlots = 0 then s
  else eqRecord q 0x100 0x20 2 1 x.dropSeq (s.rd64 rSH_ANGLE) (bytesOfNat 4 (min x.dropNew 0xFFFFFFFF))
    (s.setQueue q { x with dropNew := 0 })

/-- Queue q posts what it may. -/
def qFlush (q : Nat) (s : State) : State :=
  if qeBlocked s then s
  else
    let x := queueOf s q
    if x.isCmd then postAll q true true [] x.cmds s else if x.isEvt then overflowRecord q s else s

def qFlushAll (s : State) : State := s.qe.queues.foldl (fun t e => qFlush e.1 t) s

/-! Doorbells (R426 to R428). -/

def dbError (q : Nat) (s : State) : State := post qePg 4 2 q 0 0 (s.incFld fQE_DBERR)

/-- The CQ head passes COMPLETE records: their journal entries are released (R437). -/
def releasePassed (q : Nat) (s : State) : State :=
  let x := queueOf s q
  let done := x.cmds.filter fun c => c.st == .completed && decide (c.cqPos < x.cqHead)
  done.foldl (fun t c => (slSend 1 (.release c.idx) (t.delCmd q c)).qeSet fun e => { e with relSent := e.relSent ++ [c.idx] }) s

/-- DOORBELL_WRITE. -/
def doorbell (q v : Nat) (s : State) : State :=
  let x := queueOf s q
  if x.st = 0 ∨ natBits v 50 14 ≠ 0 ∨ natBits v 17 15 ≠ 0 ∨ (x.ty = 2 ∧ natBits v 0 17 ≠ 0) then dbError q s
  else
    let t := natBits v 0 16
    let td := (t + x.sqSize - x.fetch % x.sqSize) % x.sqSize
    let tOk := decide (t < x.sqSize) && decide (x.sqTail - x.fetch ≤ td)
    let h := natBits v 32 16
    let hd := (h + x.cqSize - x.cqHead % x.cqSize) % x.cqSize
    let hOk := decide (h < x.cqSize) && decide (hd ≤ x.cqTail - x.cqHead)
    let s := if natBit v 16 && tOk then s.setQueue q { queueOf s q with sqTail := x.fetch + td } else s
    let s := if natBit v 48 && hOk then qFlush q (releasePassed q (s.setQueue q { queueOf s q with cqHead := x.cqHead + hd }))
      else s
    let y := queueOf s q
    let s := if natBit v 49 = false then s
      else if y.cqHead < y.cqTail then msixSend y.vec (s.setQueue q { y with armed := false })
      else s.setQueue q { y with armed := true }
    if (natBit v 16 && !tOk) || (natBit v 48 && !hOk) then dbError q s else s

/-- Any other write to BAR2 (R37). -/
def doorbellBad (s : State) : State := s.incFld fQE_DBERR

/-! Fetch (R422, R435, R436). -/

/-- Queue q has an entry that may be fetched (R435). -/
def fetchOpen (s : State) (q : Nat) : Bool :=
  let x := queueOf s q
  x.st == 1 && x.ty == 1 && decide (x.fetch < x.sqTail) && decide (2 ≤ x.freeSlots) && !s.flag fQE_STAT_JFULL &&
    !s.flag fQE_STAT_RESYNC && !qeBlocked s

/-- The queue the next fetch serves: that of the present turn while the turn lasts, else the next one in rotation by queue
number (R435). -/
def fetchTurn (s : State) : Option Nat :=
  if s.qe.left ≠ 0 ∧ fetchOpen s s.qe.turn then some s.qe.turn
  else
    let far := fun (q : Nat) => (q + 65535 - s.qe.turn) % 65536
    ((s.qe.queues.map fun e => e.1).filter fun q => fetchOpen s q).foldl (fun o q => match o with
      | some p => if far q < far p then some q else o
      | none => some q) none

/-- An entry of queue q may be read now. -/
def fetchable (s : State) (q : Nat) : Bool := fetchOpen s q && fetchTurn s == some q

/-- One entry of queue q is read: it goes on with its turn, or begins one of 4 entries (R435). -/
def takeTurn (q : Nat) (s : State) : State :=
  s.qeSet fun e => { e with turn := q, left := if e.left ≠ 0 ∧ e.turn = q then e.left - 1 else 3 }

/-- The queue enters ERROR (R422, R436). -/
def sqError (q code : Nat) (s : State) : State :=
  post qePg 1 3 q code 0 (s.setQueue q { queueOf s q with st := 2, err := code })

/-- A set reserved bit or CLASS 0b11 (R429). -/
def malformed (e : List Byte) : Bool :=
  decide (3 ≤ numAt e 1 1) || decide (64 ≤ numAt e 3 1) || numAt e 8 8 != 0

/-- ENTRY_FETCH: the entry at the fetch index has been read. -/
def entryFetch (q : Nat) (e : List Byte) (s : State) : State :=
  if fetchable s q = false then s
  else
    let s := takeTurn q s
    let x := queueOf s q
    let cs := numAt e 4 4
    let d := (cs + 2 ^ 32 - x.h) % 2 ^ 32
    let c : QCmd := { cseq := cs, st := .fetched, slot := some x.fetch, entry := bytesAt e 0 64, idx := 0, ta := 0,
                      angle := 0, cqPos := 0, rep := 0 }
    if malformed e then sqError q 2 s
    else if d = 1 then
      s.setQueue q { x with h := cs, resv := x.resv + 2, fetch := x.fetch + 1, cmds := x.cmds ++ [c] }
    else if d = 0 ∨ 2 ^ 31 ≤ d then
      qFlush q (s.setQueue q { x with resv := x.resv + 1, fetch := x.fetch + 1, cmds := x.cmds ++ [{ c with st := .dup }] })
    else sqError q 1 s

/-- FETCH_ERR: the read failed; AER reports it (R422). -/
def fetchErr (q : Nat) (s : State) : State :=
  if fetchable s q then post pxPg 2 3 q 0 0 (sqError q 3 ((takeTurn q s).incFld fPX_UECNT)) else s

/-! FETCHED to SENT (R98, R437). -/

def cmdTarget (c : QCmd) : Nat := numAt c.entry 2 2 % 16384

/-- The journal holds the command already. -/
def journaled (s : State) (q cs : Nat) : Bool :=
  (jListed s).any (fun i => jOcc s i && jQid s i == q && jCseq s i == cs) ||
  s.tj.writes.any fun w => !w.mark && w.q == q && numAt w.bytes 4 4 == cs

/-- Commands aimed at context n that are committed, or on their way, and not settled (R98). -/
def waitingFor (s : State) (n : Nat) : Nat :=
  ((jListed s).filter fun i => jPending s i && jTarget s i == n).length +
  (s.tj.writes.filter fun w => !w.mark && numAt w.bytes 2 2 % 16384 == n).length +
  (s.qe.queues.map fun e => (e.2.cmds.filter fun c =>
    c.st == .sent && cmdTarget c == n && !journaled s e.1 c.cseq).length).sum

/-- An earlier command of the queue, for another target, is not yet settled (R98). -/
def otherOpen (s : State) (c e : QCmd) : Bool :=
  cmdTarget e != cmdTarget c &&
  (e.st == .sent || ((e.st == .committed || e.st == .accepted) && jPending s e.idx))

def cmdHeld (s : State) (q : Nat) (c : QCmd) : Bool :=
  let t := cmdTarget c
  (mboxBound s t (numAt c.entry 1 1 % 4) && decide (xDepth ((ctxOf s t).descAt (tickNo s)) ≤ waitingFor s t)) ||
  (queueOf s q).cmds.any fun e => otherOpen s c e

/-- COMMAND_SEND: the oldest FETCHED command of queue q. -/
def commandSend (q : Nat) (s : State) : State :=
  match (queueOf s q).cmds.find? fun c => c.st == .fetched with
  | some c =>
    if cmdHeld s q c ∨ s.flag fQE_STAT_RESYNC then s
    else slSend 1 (.cmd q c.entry) (s.setCmd q c { c with st := .sent })
  | none => s

/-! Messages from the F-die (R437). -/

def isJack (m : Msg) : Bool := match m with | .jack .. => true | _ => false
/-- JOURNAL_ACK_RECEIVE. -/
def ackReceive (s : State) : State :=
  let s := if s.sl.inH.any isJack then s else pull 0 1 s
  match s.sl.inH.find? isJack with
  | some (.jack q cs i ta an) =>
    let s := (dropH (.jack q cs i ta an) s).qeSet fun e => { e with relSent := e.relSent.filter fun j => j != i }
    match (queueOf s q).cmds.find? fun c => c.st == .sent && c.cseq == cs with
    | some c => qFlush q (s.setCmd q c { c with st := .committed, idx := i, ta := ta, angle := an })
    | none => s
  | _ => s

/-- An outcome that no command waits for is dropped (R447). -/
def outcomeStale (s : State) : Msg → Bool
  | .outcome q cs i _ _ _ =>
    !(queueOf s q).cmds.any fun c => c.cseq == cs &&
      (c.st == .sent || ((c.st == .committed || c.st == .accepted) && c.idx == i))
  | _ => false

def isOutcome (m : Msg) : Bool := match m with | .outcome .. => true | _ => false
/-- COMPLETION_RECEIVE. -/
def completionReceive (s : State) : State :=
  let n := s.sl.inH.length
  let s := pull 0 2 s
  let s := s.slSet fun l => { l with inH := l.inH.filter fun m => !outcomeStale s m }
  if n ≤ s.sl.inH.length then qFlushAll s else s

/-! Event queues (R433, R434). -/

def isEvent (m : Msg) : Bool := match m with | .event .. => true | _ => false

/-- A record reaches its event queue, or is dropped and counted. -/
def eventIn (q : Nat) (r : EvRec) (s : State) : State :=
  let s := qFlush q s
  let x := queueOf s q
  if x.isEvt = false then s.incFld fQE_EVNOQ
  else if x.dropNew ≠ 0 ∨ x.freeSlots = 0 then
    let first := decide (x.dropNew = 0)
    let s := s.setQueue q { x with seq := (x.seq + 1) % 2 ^ 32, drop := min (x.drop + 1) 0xFFFFFFFF,
                                   dropNew := x.dropNew + 1, dropSeq := if first then x.seq else x.dropSeq }
    if first then post qePg 2 2 q 0 0 s else s
  else
    eqRecord q r.ty r.page r.sev (match r.die with | .F => 0 | .H => 1) x.seq r.angle.toNat r.payload
      (s.setQueue q { x with seq := (x.seq + 1) % 2 ^ 32 })

/-- EVENT_RECORD_ROUTE: the oldest record at the queue engine; one that waits in the Sluice is taken first. -/
def eventRoute (s : State) : State :=
  let s := if s.evIn.isEmpty && !s.sl.inH.any isEvent then pull 0 3 s else s
  let s := match s.sl.inH.find? isEvent with
    | some (.event q r) => { dropH (.event q r) s with evIn := s.evIn ++ [(q, r)] }
    | _ => s
  if qeBlocked s then s
  else
    match s.evIn with
    | [] => s
    | (q, r) :: rest => eventIn q r { s with evIn := rest }

/-! The journal as the queue engine learns it (R446, R448). -/

/-- STATUS of entry i, once settled. -/
def jOutcome (s : State) (i : Nat) : Option Nat :=
  if jState s i = 2 then some (jStatus s i)
  else (s.tj.writes.find? fun w => w.mark && w.idx == i).map fun w => numAt w.bytes 0 1

/-- The report of entry i. What the F-die no longer knows after a power loss is free (log 5). -/
def jReport (s : State) (i : Nat) : Msg :=
  let x := jInfo s i
  let known := decide (x.bound ≠ 0)
  let ta := if known then x.ta else s.freeVal
  let an := if known then x.angle else (Config.free (s.free + 1)).toNat
  let oa := if x = JInfo.zero then (Config.free (s.free + 2)).toNat else x.oAngle
  let ot := if x = JInfo.zero then (Config.free (s.free + 3)).toNat else x.oTick
  .report i (jQid s i) (jCseq s i) ta an (acceptedEntry s i) ((jOutcome s i).map fun st => (st, oa, ot))

def jOccupied (s : State) : List Nat := (jListed s).filter fun i => jState s i == 1 || jState s i == 2

/-- The F-die reports one occupied entry, or skips one that reads uncorrectable (R450). -/
def reportOne (i : Nat) (s : State) : State :=
  if jBad s i then jUe i s else { slSend 0 (jReport s i) s with free := s.free + 4 }

/-- A resync request reaches the F-die: a report of every occupied entry, or of those of one queue, and the end (R457). -/
def resyncAnswer (s : State) : State :=
  match s.sl.inF.find? fun m => match m with | .resyncReq _ => true | _ => false with
  | some (.resyncReq q) =>
    let s := dropF (.resyncReq q) s
    let es := (jOccupied s).filter fun i => match q with | some n => jQid s i == n | none => true
    slSend 0 .resyncEnd (es.foldl (fun t i => reportOne i t) s)
  | _ => s

def isReport (m : Msg) : Bool := match m with | .report .. => true | .resyncEnd => true | _ => false

/-- The queue engine asks for the journal and has the reports (R446, R448, R457). -/
def journalAsk (q : Option Nat) (s : State) : List Msg × State :=
  let s := pull 1 1 (slSend 1 (.resyncReq q) s)
  let s := pull 0 2 (resyncAnswer s)
  (s.sl.inH.filter isReport, s.slSet fun l => { l with inH := l.inH.filter fun m => !isReport m })

/-- A command restored from a report (R446, R448): COMMITTED, its reservations restored, its outcome waiting. Bits 0 and 1
of `rep` mark its ACCEPT and COMPLETE records with REPLAY, bit 2 keeps the ACCEPT out of QE_ACCCNT. -/
def restoreCmd (rep : Nat) (m : Msg) (s : State) : State :=
  match m with
  | .report i q cs ta an e out =>
    let c : QCmd := { cseq := cs, st := .committed, slot := none, entry := e, idx := i, ta := ta, angle := an, cqPos := 0,
                      rep := rep }
    let qu := queueOf s q
    let older := fun (e : QCmd) => decide ((c.cseq + 2 ^ 32 - e.cseq) % 2 ^ 32 < 2 ^ 31)
    let s := s.setQueue q { qu with resv := qu.resv + 2, cmds := qu.cmds.filter older ++ [c] ++ qu.cmds.filter fun e => !older e }
    match out with
    | some o => s.slSet fun l => { l with inH := l.inH ++ [.outcome q cs i o.1 o.2.1 o.2.2] }
    | none => s
  | _ => s

/-- CSEQ a is later than b in serial order. -/
def seqLater (a b : Nat) : Bool := let d := (a + 2 ^ 32 - b) % 2 ^ 32; decide (0 < d) && decide (d < 2 ^ 31)

def repSeq (m : Msg) : Nat := match m with | .report _ _ cs .. => cs | _ => 0
def repIdx (m : Msg) : Nat := match m with | .report i .. => i | _ => 0

/-- Insert a report in the order of CSEQ after `last`. -/
def insertSeq (last : Nat) (m : Msg) : List Msg → List Msg
  | [] => [m]
  | j :: r =>
    if (repSeq m + 2 ^ 32 - last) % 2 ^ 32 ≤ (repSeq j + 2 ^ 32 - last) % 2 ^ 32 then m :: j :: r
    else j :: insertSeq last m r

def jReleaseSend (i : Nat) (s : State) : State :=
  (slSend 1 (.release i) s).qeSet fun e => { e with relSent := (e.relSent.filter fun j => j != i) ++ [i] }

/-- One entry of a queue at CREATE_CMD (R448). -/
def createEntry (last : Nat) (m : Msg) (s : State) : State :=
  if seqLater (repSeq m) last = false then jReleaseSend (repIdx m) s else restoreCmd 7 m s

/-! Queue operations (R424). -/

/-- A queue operation starts with its result, unless one runs. -/
def qopGate (op : Nat) (f : State → Nat × State) (s : State) : State :=
  if s.flag fQE_STAT_QOPBUSY then s.setFlag fQE_STAT_CFGREFUSED true
  else
    let q := s.fld fQE_QSEL
    let r := f s
    (r.2.setFlag fQE_STAT_QOPBUSY true).qeSet fun e => { e with op := some ⟨op, q, r.1, none⟩ }

def newQueue (s : State) (ty : Nat) : Queue :=
  { Queue.absent with
    st := 1, ty := ty, sqBase := s.rd64 rQE_SQBASE / 4096 * 4096, cqBase := s.rd64 rQE_CQBASE / 4096 * 4096,
    sqLog := if ty = 1 then s.fld fQE_QCFG_SQLOG2 else 0, cqLog := s.fld fQE_QCFG_CQLOG2, vec := s.fld fQE_QCFG_VECTOR }

/-- A size out of range, or a ring that does not lie within the 64-bit address space (R424, log 160). -/
def cfgBad (s : State) (ty : Nat) : Bool :=
  let c := s.fld fQE_QCFG_CQLOG2
  let q := s.fld fQE_QCFG_SQLOG2
  let past := fun (base size : Nat) => decide (2 ^ 64 < base / 4096 * 4096 + size)
  past (s.rd64 rQE_CQBASE) (32 * 2 ^ c) || (ty == 1 && past (s.rd64 rQE_SQBASE) (64 * 2 ^ q)) ||
  decide (c < 2) || decide (16 < c) || (ty == 1 && (decide (q < 1) || decide (16 < q))) || (ty == 2 && q != 0)

/-- CREATE_CMD: the queue that is created, with H at LASTSEQ, waits for the journal's reports (R448). -/
def qopCreateCmd (s : State) : State :=
  let q := s.fld fQE_QSEL
  let new := { newQueue s 1 with h := (s.rd rQE_LASTSEQ).toNat }
  let s' := qopGate 1 (fun s => (if (queueOf s q).st ≠ 0 then 2 else if cfgBad s 1 then 4 else 0, s)) s
  if s.flag fQE_STAT_QOPBUSY then s'
  else s'.qeSet fun e => { e with op := e.op.map fun o => if o.res = 0 then { o with new := some new } else o }

/-- The queue becomes ACTIVE with what the journal holds for it (R448). -/
def createDone (q : Nat) (x : Queue) (s : State) : State :=
  let r := journalAsk (some q) s
  let es := (r.1.filter fun m => match m with | .report .. => true | _ => false).foldl (fun l m => insertSeq x.h m l) []
  let h := es.foldl (fun h m => if seqLater (repSeq m) h then repSeq m else h) x.h
  qFlush q (es.foldl (fun t m => createEntry x.h m t) (r.2.setQueue q { x with h := h }))

def qopCreateEvt : State → State := qopGate 2 fun s =>
  let q := s.fld fQE_QSEL
  if (queueOf s q).st ≠ 0 then (2, s) else if cfgBad s 2 then (4, s) else (0, s.setQueue q (newQueue s 2))

def qopDelete : State → State := qopGate 3 fun s =>
  let q := s.fld fQE_QSEL
  let x := queueOf s q
  if x.st = 0 then (3, s) else if x.resv ≠ 0 then (5, s) else (0, s.setQueue q Queue.absent)

/-- READ shows the queue in the registers. -/
def qopRead : State → State := qopGate 4 fun s =>
  let x := queueOf s (s.fld fQE_QSEL)
  if x.st = 0 then (3, s)
  else
    let s := (s.wr64 rQE_SQBASE x.sqBase).wr64 rQE_CQBASE x.cqBase
    let s := s.wr rQE_QCFG (BitVec.ofNat 32 (x.vec * 2 ^ 24 + x.cqLog * 2 ^ 16 + x.sqLog * 2 ^ 8))
    let s := s.wr rQE_QSTATE (BitVec.ofNat 32 (x.st * 2 ^ 30 + x.ty * 2 ^ 28 + x.err * 2 ^ 24 + x.sqHead % x.sqSize))
    let s := s.wr rQE_QHSEQ (BitVec.ofNat 32 x.h)
    (0, s.wr rQE_QRESV (BitVec.ofNat 32 (min x.resv 65535 * 2 ^ 16 + x.cqTail % x.cqSize)))

/-- A write of QE_QOP (R424, R451). -/
def qopWrite (v : Word) (s : State) : State :=
  match bitsGet v 0 4 with
  | 1 => qopCreateCmd s
  | 2 => qopCreateEvt s
  | 3 => qopDelete s
  | 4 => qopRead s
  | _ => if s.flag fQE_STAT_QOPBUSY then s.setFlag fQE_STAT_CFGREFUSED true else s

/-- The journal can be asked: the Sluice is up, and no restart of it is under way (R14, R465). -/
def slReady (s : State) : Bool := slUp s && !s.sl.initF && !s.sl.initH

/-- QOP_DONE: a CREATE_CMD waits for the Sluice to bring the queue's entries (R14, R448). -/
def qopDone (s : State) : State :=
  let fin := fun (o : QOp) (s : State) => post qePg 0 1 o.q 0 o.res
    (((s.setFld fQE_QRES o.res).setFlag fQE_STAT_QOPBUSY false).qeSet fun e => { e with op := none })
  match s.qe.op with
  | none => s
  | some o =>
    match o.new with
    | none => fin o s
    | some x => if slReady s then fin o (createDone o.q x s) else s

/-! Resync (R437, R445 to R447, R465). -/

/-- One queue at the start of a resync: FETCHED, SENT and duplicate commands are discarded, the fetch index goes back to
SQHEAD and H to before the first discarded command. -/
def Queue.rewind (x : Queue) (hReset : Bool) : Queue :=
  if x.isCmd = false then x
  else
    let gone := fun (c : QCmd) => c.st == .fetched || c.st == .sent
    let h := match x.cmds.find? gone with | some c => (c.cseq + 2 ^ 32 - 1) % 2 ^ 32 | none => x.h
    let spent := (x.cmds.map fun c => if gone c then 2 else if c.st == .dup then 1 else 0).sum
    let keep := (x.cmds.filter fun c => !gone c && c.st != .dup).map fun c =>
      if hReset && c.st == .committed then { c with rep := Nat.lor c.rep 1 } else c
    { x with fetch := x.sqHead, h := h, resv := x.resv - spent, cmds := keep }

/-- RESYNC begins: at an H-die warm reset, or when the F-die's INIT arrives after its own. -/
def resyncStart (hReset : Bool) (s : State) : State :=
  let s := s.qe.queues.foldl (fun t e => t.setQueue e.1 ((queueOf t e.1).rewind hReset)) s
  let keep := fun (m : Msg) => match m with | .cmd .. => false | _ => true
  (s.setFlag fQE_STAT_RESYNC true).slSet fun l => { l with inF := l.inF.filter keep }

/-- One reported entry (R446, steps 1 to 4). -/
def resyncEntry (m : Msg) (s : State) : State :=
  match m with
  | .report i q cs _ _ _ out =>
    let x := queueOf s q
    if x.isCmd = false then s
    else
      let s := if seqLater cs x.h then s.setQueue q { x with h := cs } else s
      if s.qe.relSent.contains i then jReleaseSend i s
      else
        match (queueOf s q).cmds.find? fun c => c.cseq == cs && c.idx == i && c.st != .fetched && c.st != .sent with
        | none => restoreCmd 3 m s
        | some c =>
          match out with
          | some o =>
            if c.st == .completed || (outcomeOf s q c).isSome then s
            else (s.setCmd q c { c with rep := Nat.lor c.rep 2 }).slSet fun l =>
              { l with inH := l.inH ++ [.outcome q cs i o.1 o.2.1 o.2.2] }
          | none => s
  | _ => s

def noticeAgain (s : State) : State :=
  s.qe.queues.foldl (fun t e => e.2.cmds.foldl (fun u c => if c.st == .accepted then slSend 1 (.notice c.idx) u else u) t) s

/-- RESYNC_DONE: the F-die has reported every occupied entry; every started commit write is complete. -/
def resyncDone (s : State) : State :=
  if s.flag fQE_STAT_RESYNC = false ∨ slReady s = false ∨ (s.tj.writes.any fun w => !w.mark) then s
  else
    let r := journalAsk none s
    let s := qFlushAll (r.1.foldl (fun t m => resyncEntry m t) r.2)
    noticeAgain (post qePg 5 1 0 0 0 (s.setFlag fQE_STAT_RESYNC false))

/-! The endpoint (R419, R518). -/

/-- PCIE_LINK_UP: a link trains to a width and speed. -/
def linkUp (width speed : Nat) (s : State) : State :=
  let was := s.fld fPX_LSTAT_SPEED
  let s := (s.setFld fPX_LSTAT_WIDTH width).setFld fPX_LSTAT_SPEED speed
  let s := qFlushAll (s.qeSet fun e => { e with linkUp := true })
  if was ≠ speed then post pxPg 1 2 0 0 speed s else s

/-- PCIE_D3HOT: the function enters or leaves D3hot. -/
def d3hot (on : Bool) (s : State) : State :=
  let s := s.qeSet fun e => { e with d3hot := on }
  if on then s else qFlushAll s

end Sys2Proof.Machine
end

