-- ==== Sys2Proof/Machine/Pan.lean ====
section
/-!
DEFINITION. Sys2Proof/Machine/Pan.lean: the Pan engine: queues, issue and start of orders, strips, completion records,
the resume block and the control store (R132 to R165, R198 to R207, R214).
-/
namespace Sys2Proof.Machine

def panPg (p : Nat) : Nat := 0x121 + p
def State.panSet (s : State) (f : PanState → PanState) : State := { s with pan := f s.pan }
def panOf (s : State) (p : Nat) : Pan := storeGet Pan.empty s.pan.pans p
def State.setPan (s : State) (p : Nat) (x : Pan) : State :=
  s.panSet fun r => { r with pans := storeSet Pan.empty r.pans p x }

/-- The pans an order names, and its head pan. -/
def orderPans (d : List Word) : List Nat := (dStages d).map fun k => dPan d k % 4
def headPan (d : List Word) : Nat := dPan d 0 % 4
def Order.launched (o : Order) : Bool := match o.src with | .launched .. => true | _ => false

/-- The order that occupies pan p, running on it or on another pan of its chain, with its head pan (R143). -/
def occupant (s : State) (p : Nat) : Option (Nat × Order) :=
  (List.range 4).findSome? fun h =>
    match (panOf s h).run with
    | some o => if (orderPans o.desc).contains p then some (h, o) else none
    | none => none
/-- Pan p runs an order: a background order keeps it until it has yielded or stopped (R146, R214). -/
def panBusy (s : State) (p : Nat) : Bool := (occupant s p).isSome
/-- No pan starts an order while the engine is stopped or in patch mode, nor while CCLK is gated or off (R164, R206,
R516). -/
def panStarts (s : State) : Bool := pageEn s 0x120 && !s.flag fPCS_CTRL_PATCHEN && s.pwr.mode == .run

/-! Completion rings (R145, R156, R165). -/

def ringLog (s : State) (c : Nat) : Nat :=
  let l := s.fld (fPAN_CRCFGc_LOG2N c)
  if l < 4 ∨ 12 < l then 0 else l
def ringSize (s : State) (c : Nat) : Nat := if ringLog s c = 0 then 0 else 2 ^ ringLog s c
def ringUnread (s : State) (c : Nat) : Nat := storeGet 0 s.pan.unread c
def ringResv (s : State) (c : Nat) : Nat := s.fld (fPAN_CRSTATc_RESV c)
def ringFree (s : State) (c : Nat) : Nat := ringSize s c - ringUnread s c - ringResv s c
def ringBase (s : State) (c : Nat) : Nat :=
  let b := s.fld (fPAN_CRBASEc c) * 16
  b - b % (16 * max 1 (ringSize s c))

def State.setUnread (s : State) (c n : Nat) : State := s.panSet fun r => { r with unread := storeSet 0 r.unread c n }

/-- Firmware advances a tail and frees slots (R165). -/
def ringTailWrite (c : Nat) (v : Word) (s : State) : State :=
  let n := max 1 (ringSize s c)
  let d := (v.toNat % n + n - s.fld (fPAN_CRTAILc c) % n) % n
  (s.setFld (fPAN_CRTAILc c) v.toNat).setUnread c (ringUnread s c - d)

/-- One completion record of core c's ring, written at the rank of the head pan, then the event channel (R156). -/
def ringWrite (c head status cause ticket flags done : Nat) (notify : Bool) (s : State) : State :=
  if ringSize s c = 0 then s
  else
    let h := s.fld (fPAN_CRHEADc c) % ringSize s c
    let s := portTouch (67 + 3 * head) s
    let s := salWrite (ringBase s c + 16 * h)
      (bytesOfNat 4 (ticket % 2 ^ 16 + status * 2 ^ 16 + cause * 2 ^ 20 + flags * 2 ^ 24 + head * 2 ^ 30) ++
       bytesOfNat 4 (done % 2 ^ 17) ++ bytesOfNat 8 (tickNo s)) s
    let s := (s.setFld (fPAN_CRHEADc c) ((h + 1) % ringSize s c)).setUnread c (ringUnread s c + 1)
    if notify && s.flag (fPAN_CRCFGc_EVEN c) then pulse (s.fld (fPAN_CRCFGc_EVCH c)) false s else s

def resvAdd (c : Nat) (s : State) : State := s.setFld (fPAN_CRSTATc_RESV c) (ringResv s c + 1)
def resvDrop (c : Nat) (s : State) : State := s.setFld (fPAN_CRSTATc_RESV c) (ringResv s c - 1)

/-- The record of a background order that holds a reserved slot (R145, R156). -/
def bgRecord (o : Order) (status cause : Nat) (s : State) : State :=
  match o.src with
  | .bg c t _ => resvDrop c (ringWrite c (headPan o.desc) status cause t o.flags o.done (dNotify o.desc) s)
  | _ => s

/-! Faults of launched orders (R161). -/

def lfault (p ctx idx cause done addr : Nat) (s : State) : State :=
  post (panPg p) 1 3 p cause addr
    (((s.wr (rPANp_LFAULT p) (BitVec.ofNat 32 (cause * 2 ^ 28 + ctx * 2 ^ 10 + idx))).setFld (fPANp_LFDONE p) done).setFld
      (fPANp_LFADDR p) addr)

/-- A launched order ends: its flags join the pan's (R161). -/
def launchedEnd (p ctx tick : Nat) (o : Order) (s : State) : State :=
  let s := s.setFld (fPANp_LFLAGS p) (Nat.lor (s.fld (fPANp_LFLAGS p)) o.flags)
  orderEnd ctx tick s

/-! Issue of launched orders (R91, R142). -/

/-- The checks of R140 that need no element: the permissions. -/
def authOk (c : Cap) : Bool := c.usable && c.perm pPAN && c.perm pLOAD && c.perm pSTORE

/-- The first launch that still has an order to issue. -/
def nextIssue (s : State) : Option Launch :=
  s.cry.launches.find? fun l => !l.stopped && decide (l.next < xNord l.desc)

/-- Why the order with words `d`, read through `cap` at a, may not run (R140, R141, R152, R157); 0 when it may. -/
def issueCause (s : State) (l : Launch) (cap : Cap) (a : Nat) (d : List Word) : Nat :=
  if !(cap.usable && cap.perm pPAN && cap.perm pLOAD) then 4
  else if !cap.covers a 32 then 5
  else if salSize < a + 32 then 6
  else if salBad s a 32 then 7
  else if badOrder (dispOf s) true d then 1
  else if noTiming (dispOf s) (ttOf s) d then 2
  else if (l.sum.add s d).exceeds l.limit then 0xB
  else if !authOk cap then 4
  else if overlaps (dispOf s) d then 3
  else 0

/-- LAUNCHED_ORDER_ISSUE: the list reader takes the next order, as entries free. -/
def orderIssue (s : State) : State :=
  match nextIssue s with
  | none => s
  | some l =>
    let i := l.next
    let a := xOlist l.desc + 32 * i
    let d := orderWords s a
    let chained := dNstg d != 0
    let p := headPan d
    if (if chained then decide (64 ≤ s.pan.chainq.length) else decide (64 ≤ (panOf s p).lq.length)) then s
    else
      let cap := salCap s (xOlcap l.desc)
      let k := issueCause s l cap a d
      let s := if a + 32 ≤ salSize then salReadFx 65 a 32 s else s
      if k ≠ 0 then
        abandon l.ctx l.tick (if k = 0xB then 2 else 3) (lfault p l.ctx i k 0 0 s)
      else
        let s := s.setLaunch { l with next := i + 1, live := l.live + 1, sum := l.sum.add s d }
        let o : Order := ⟨.launched l.ctx l.tick i, d, cap, 0, 0, 0, RedState.empty, []⟩
        if chained then s.panSet fun r => { r with chainq := r.chainq ++ [o] }
        else s.setPan p { panOf s p with lq := (panOf s p).lq ++ [o] }

/-! Start of launched orders (R143). -/

/-- An order that the list reader has not issued yet is chained. -/
def chainAhead (s : State) : Bool :=
  s.cry.launches.any fun l => !l.stopped && (List.range (xNord l.desc)).any fun i =>
    decide (l.next ≤ i) && dNstg (orderWords s (xOlist l.desc + 32 * i)) != 0
def chainRuns (s : State) : Bool :=
  (List.range 4).any fun p => match (panOf s p).run with | some o => o.launched && dNstg o.desc != 0 | none => false

/-- A launched order begins on head pan p. -/
def Pan.begin (s : State) (x : Pan) (o : Order) (go : Bool) : Pan :=
  { x with run := some o, yielding := false, stripAt := fcycOf s, first := true, go := go }

/-- LAUNCHED_ORDER_START on head pan p. -/
def orderStart (p : Nat) (s : State) : State :=
  if panStarts s = false then s
  else
    match s.pan.chainq with
    | o :: r =>
      if headPan o.desc = p ∧ chainRuns s = false ∧ (orderPans o.desc).all (fun q => !panBusy s q) then
        (s.panSet fun x => { x with chainq := r }).setPan p ((panOf s p).begin s o true)
      else s
    | [] =>
      match (panOf s p).lq with
      | o :: r =>
        if panBusy s p = false ∧ chainRuns s = false ∧ chainAhead s = false then
          s.setPan p (({ panOf s p with lq := r } : Pan).begin s o true)
        else s
      | [] => s

/-! Background orders (R144 to R147, R154, R157). -/

/-- A launched order is queued for pan p, or may still be issued to it. -/
def launchedWaits (s : State) (p : Nat) : Bool :=
  !(panOf s p).lq.isEmpty || (s.pan.chainq.any fun o => (orderPans o.desc).contains p) ||
  s.cry.launches.any fun l => !l.stopped && (List.range (xNord l.desc)).any fun i =>
    decide (l.next ≤ i) && (orderPans (orderWords s (xOlist l.desc + 32 * i))).contains p

/-- An earlier background order of the same core has not written its record (R154). -/
def fenceWaits (s : State) (o : Order) : Bool :=
  match o.src with
  | .bg c _ n =>
    dFence o.desc && (List.range 4).any fun p =>
      let x := panOf s p
      ((x.bq ++ x.run.toList ++ x.yielded.toList).any fun y =>
        match y.src with | .bg c' _ n' => c' == c && decide (n' < n) && n' != 0 | _ => false)
  | _ => false

/-- A background order is refused: its record, and nothing else (R157, R158). -/
def bgRefuse (o : Order) (cause : Nat) (s : State) : State := bgRecord o 2 cause s

/-- Why a background order may not start (R141, R147, R152); 0 when it may. -/
def bgCause (s : State) (o : Order) : Nat :=
  if badOrder (dispOf s) false o.desc then 1
  else if !authOk o.cap then 4
  else if overlaps (dispOf s) o.desc then 3
  else if dNstg o.desc ≠ 0 ∧ nadmitOf s ≠ 0 then 0xA
  else 0

/-- A background strip may start now, `first` after a start, a continuation or a restart (R214). -/
def bgStripOk (s : State) (o : Order) (first : Bool) : Bool :=
  let hi := min (dLen o.desc) ((o.pos / 256 + 1) * 256)
  let b := stripBound (dispOf s) (ttOf s) o.desc (hi - o.pos) first (decide (dLen o.desc ≤ hi))
  nadmitOf s == 0 || decide (b ≤ cryPre s) || decide (fcycOf s + b < s.cry.lastLaunch + capT s)

/-- The running order of a pan is still in setup (R214). -/
def inSetup (s : State) (x : Pan) (o : Order) : Bool :=
  x.first && decide (fcycOf s < x.stripAt + sumOver (dStages o.desc) fun k => ttSETUP (ttOf s) (dOpc o.desc k))

/-- An order leaves its pan and waits to be continued. -/
def Pan.setAside (x : Pan) (o : Order) : Pan :=
  { x with run := none, yielded := some { o with coef := [] }, yielding := false }

/-- A running background order is to yield: at its next strip commit, or at once while it is in setup or its strip has not
started (R146, R214). -/
def bgYield (p : Nat) (s : State) : State :=
  let x := panOf s p
  match x.run with
  | some o =>
    if o.launched then s
    else if x.go = false ∨ inSetup s x o then s.setPan p (x.setAside o)
    else s.setPan p { x with yielding := true }
  | none => s

/-- BG_ORDER_START on pan p: the order that yielded, or the head of the queue. -/
def bgStart (p : Nat) (s : State) : State :=
  let x := panOf s p
  if panStarts s = false ∨ s.flag (fPANp_CTRL_RUN p) = false ∨ s.flag (fPANp_BGSTAT_HALT p) ∨ panBusy s p ∨
      launchedWaits s p then s
  else
    match x.yielded with
    | some o =>
      if (orderPans o.desc).all fun q => !panBusy s q && !launchedWaits s q then
        s.setPan p (({ x with yielded := none } : Pan).begin s o (bgStripOk s o true))
      else s
    | none =>
      match x.bq with
      | [] => s
      | o :: r =>
        if fenceWaits s o then s
        else
          let t := s.setPan p { x with bq := r }
          if bgCause s o ≠ 0 then bgRefuse o (bgCause s o) t
          else if (orderPans o.desc).all fun q => !panBusy s q && !launchedWaits s q then
            t.setPan p ((panOf t p).begin s o (bgStripOk s o true))
          else s

/-- LAUNCH_POINT, with running background orders told to yield (R146). -/
def panLaunchPoint (bad : List Nat) (s : State) : State :=
  if tbEn s = false ∨ s.tb.ticks = false then s
  else
    (List.range 4).foldl (fun t p => bgYield p t) (launchPoint bad s)

/-- PANQ (R144, R145): a ticket, or 0 with its reason in LASTZ. -/
def panq (c : Nat) (d : List Word) (cap : Cap) (s : State) : Nat × State :=
  let p := headPan d
  if 32 ≤ (panOf s p).bq.length then (0, s.setFld (fPAN_CRSTATc_LASTZ c) 1)
  else if ringSize s c = 0 then (0, s.setFld (fPAN_CRSTATc_LASTZ c) 3)
  else if ringFree s c = 0 then (0, s.setFld (fPAN_CRSTATc_LASTZ c) 2)
  else
    let t := storeGet 0 s.pan.ticket c % 65535 + 1
    let n := storeGet 0 s.pan.seq c + 1
    let s := s.panSet fun r => { r with ticket := storeSet 0 r.ticket c t, seq := storeSet 0 r.seq c n }
    (t, resvAdd c (s.setPan p { panOf s p with bq := (panOf s p).bq ++ [⟨.bg c t n, d, cap, 0, 0, 0, RedState.empty, []⟩] }))

/-! Strips (R148 to R151, R186 to R195). -/

/-- Element i is active (R137, R138). -/
def elemActive (s : State) (d : List Word) (i : Nat) : Bool :=
  !dMen d || (natBit (salByte s (maskAddr d i)).toNat (i % 8) != dMinv d)

/-- The elements whose group holds an active element, for the largest group of the order (R138). -/
def maxGroup (disp : Nat → DispEnt) (d : List Word) : Nat :=
  (dStages d).foldl (fun m k => if (disp (dOpc d k)).cls = 2 then max m (disp (dOpc d k)).glog else m) 0
def elemNeeded (s : State) (d : List Word) (g i : Nat) : Bool :=
  (List.range (2 ^ g)).any fun j => elemActive s d (i / 2 ^ g * 2 ^ g + j)

/-- The byte offset of element i of a stream (R136). -/
def streamAddr (s : State) (d : List Word) (addr : Nat) (str : Int) (b : Nat) (idx : Bool) (i : Nat) : Int :=
  if idx then 2 * (addr : Int) + (salNum s (idxAddr d i) 4 : Nat) * str * (b : Int) else elemAddr addr str b i

def addrA (s : State) (d : List Word) (i : Nat) : Int :=
  streamAddr s d (dAaddr d) (dAstr d) (typeSize (dStype d)) (dAIdx d) i
def addrB (s : State) (d : List Word) (i : Nat) : Int :=
  streamAddr s d (dBaddr d) (dBstr d) (typeSize (dStype d)) (dBIdx d) i
def addrD (s : State) (d : List Word) (i : Nat) : Int :=
  streamAddr s d (dDaddr d) (dDstr d) (typeSize (dDtype d)) (dDIdx d) i

/-- The first fault among accesses of n bytes, with its byte offset: authority, Saltern, uncorrectable data (R140,
R157). -/
def accFault (s : State) (c : Cap) (read : Bool) (a : Int) (n : Nat) : Option (Nat × Nat) :=
  if a < 0 then some (5, 0)
  else if !c.covers a.toNat n then some (5, a.toNat)
  else if salSize < a.toNat + n then some (6, a.toNat)
  else if read && salBad s a.toNat n then some (7, a.toNat)
  else none

/-- The elements lo to hi - 1. -/
def elems (lo hi : Nat) : List Nat := (List.range (hi - lo)).map fun j => lo + j

/-- An access of a strip: master port, byte offset, bytes. -/
structure PanAcc where
  port : Nat
  addr : Int
  len : Nat
deriving DecidableEq, Repr

/-- The ports of an order (R122, R212): stream A, the mask and the index vector on the first read port of stage 0's pan,
stream B on the second read port of the pan whose stage selects it, D on the write port of the last stage's pan. -/
def portA (d : List Word) : Nat := 65 + 3 * headPan d
def portB (d : List Word) : Nat := 66 + 3 * (dPan d (((dStages d).find? fun k => dBsel d k == 1).getD 0) % 4)
def portD (d : List Word) : Nat := 67 + 3 * (dPan d (dLast d) % 4)

/-- The reads of a strip in order: mask, index entries, coefficient block, then A and B element by element. -/
def maskReads (d : List Word) (lo hi : Nat) : List PanAcc :=
  if dMen d then ((elems lo hi).map fun i => ((maskAddr d i : Nat) : Int)).eraseDups.map fun a => ⟨portA d, a, 1⟩ else []
def idxReads (d : List Word) (is : List Nat) : List PanAcc :=
  if dXen d then is.map fun i => ⟨portA d, ((idxAddr d i : Nat) : Int), 4⟩ else []
def blockReads (d : List Word) : List PanAcc :=
  match dHorizon d with
  | some k =>
    let n := 2 ^ (dOpc d k % 4 + 1)
    (List.range (n * n)).map fun i =>
      ⟨portB d, elemAddr (dBaddr d) (dBstr d) (typeSize (dStype d)) i, typeSize (dStype d)⟩
  | none => []
/-- Stream B is read element by element: a horizon stage reads its block instead (R191). -/
def streamB (d : List Word) : Bool := dUsesB d && (dHorizon d).isNone
def accA (s : State) (d : List Word) (i : Nat) : PanAcc := ⟨portA d, addrA s d i, typeSize (dStype d)⟩
def accB (s : State) (d : List Word) (i : Nat) : PanAcc := ⟨portB d, addrB s d i, typeSize (dStype d)⟩
def dataReads (s : State) (d : List Word) (is : List Nat) : List PanAcc :=
  (is.map fun i => accA s d i :: (if streamB d then [accB s d i] else [])).flatten

/-- A value of the streams' type as its domain holds it. -/
def valueAt (s : State) (d : List Word) (a : Int) : FR :=
  ⟨enterDom (dStype d) (salNum s a.toNat (typeSize (dStype d))), 0⟩

/-- Results of a routine that is not the base store's are not stated by the spec: free values (log 5). -/
def freeFR (s : State) (k j : Nat) : FR := ⟨(Config.free (s.free + 1024 * k + j)).toNat, 0⟩

/-- An element that a grouped stage reads although it is inactive (R138): no fault is raised for it, and where it may not
be read its value is a free one (log 144). `stray` is an access its index entry needs. -/
def strayFault (s : State) (c : Cap) (d : List Word) (i : Nat) (idx : Bool) (x : PanAcc) : Bool :=
  (idx && (accFault s c true ((idxAddr d i : Nat) : Int) 4).isSome) || (accFault s c true x.addr x.len).isSome
def elemValue (s : State) (c : Cap) (d : List Word) (i : Nat) (idx : Bool) (x : PanAcc) (k : Nat) : FR :=
  if elemActive s d i || !strayFault s c d i idx x then valueAt s d x.addr
  else ⟨enterDom (dStype d) ((freeFR s k (i % 256)).bits % 2 ^ (8 * x.len)), 0⟩
/-- The stray accesses that are performed: within the authority and the Saltern. -/
def strayReads (s : State) (c : Cap) (d : List Word) (is : List Nat) : List PanAcc :=
  let ok := fun x : PanAcc => (accFault s c false x.addr x.len).isNone
  let xs := if dAIdx d || dBIdx d then (idxReads d is).filter ok else []
  xs ++ (is.map fun i =>
    (if strayFault s c d i (dAIdx d) (accA s d i) then [] else [accA s d i]) ++
    (if streamB d && !strayFault s c d i (dBIdx d) (accB s d i) then [accB s d i] else [])).flatten

/-- Split a list into groups of n. -/
def chunks {α : Type} (n : Nat) : Nat → List α → List (List α)
  | 0, _ => []
  | k + 1, l => if l.isEmpty then [] else l.take n :: chunks n k (l.drop n)

/-- One stage over the elements of a strip; `need` marks those computed, `w` the second operands. -/
def stageRun (s : State) (d : List Word) (k : Nat) (need : List Bool) (x w : List FR) (m : List Nat) : List FR :=
  let o := dOpc d k
  let e := dispOf s o
  let dm := typeDom (opndType (dispOf s) d k)
  if !e.isBase o then (List.range x.length).map (freeFR s k)
  else if e.cls = 2 then
    let n := 2 ^ e.glog
    let gs := (chunks n 256 x).zip ((chunks n 256 w).zip (chunks n 256 need))
    (gs.map fun g => if g.2.2.any id then groupOp o dm (dRnd d) (dSat d) (dParam d) g.1 g.2.1 m else g.1).flatten
  else
    (x.zip (w.zip need)).map fun g =>
      if g.2.2 then
        let r := elemOp o dm (dRnd d) (dSat d) (dParam d) g.1.bits g.2.1.bits
        join2 g.1 g.2.1 r
      else FR.none

/-- Second operands of stage k: stream B, stream A, or none (R132). -/
def secondOf (d : List Word) (k : Nat) (a b : List FR) : List FR :=
  if dBsel d k = 1 then b else if dBsel d k = 2 then a else a.map fun _ => FR.none

/-- The stages from k on, `n` of them. -/
def stagesRun (s : State) (d : List Word) (need : List Bool) (a b : List FR) (m : List Nat) : Nat → Nat → List FR → List FR
  | 0, _, x => x
  | n + 1, k, x => stagesRun s d need a b m n (k + 1) (stageRun s d k need x (secondOf d k a b) m)

/-- One active element enters a reduction (R186 to R188). -/
def redStep (d : List Word) (dm : Dom) (o i : Nat) (x w : FR) (r : RedState) : RedState :=
  let rnd := dRnd d
  let f := domFmt dm
  let k := if 0x45 ≤ o then (if dParam d % 512 = 0 then 512 else dParam d % 512) else 1
  if o ≤ 0x42 then
    if isFloat dm then
      let y := if o = 0x40 then join1 x (fDeliver f rnd (fDecode f x.bits)) else if o = 0x41 then frMul f rnd x x else frMul f rnd x w
      let l := i % 16
      let z := redCombine dm rnd (((r.parts.getD l none)).map fun b => ⟨b, 0⟩) (some y)
      { r with parts := r.parts.set l (z.map fun q => q.bits), fl := Nat.lor r.fl ((z.map fun q => q.fl).getD 0) }
    else
      let y : Int := if o = 0x40 then sx32 x.bits else if o = 0x41 then sx32 x.bits * sx32 x.bits else sx32 x.bits * sx32 w.bits
      { r with total := r.total + y, fl := Nat.lor r.fl (Nat.lor x.fl (if o = 0x42 then w.fl else 0)) }
  else
    let v := fDecode f x.bits
    let r := { r with fl := Nat.lor (Nat.lor r.fl x.fl) (if isFloat dm then sigFl v else 0) }
    if isFloat dm && isNaN v then { r with nans := (r.nans ++ [i]).take k }
    else { r with rank := (rankInsert dm (o == 0x44 || o == 0x45) r.rank (x.bits, i)).take k }

/-- The outputs of a reduction: values in the domain with flags, or raw indices (R186 to R190). -/
def redOutputs (d : List Word) (dm : Dom) (o : Nat) (r : RedState) : List (Bool × FR) :=
  let rnd := dRnd d
  if o ≤ 0x42 then
    if isFloat dm then
      let t := redPairs dm rnd (redPairs dm rnd (redPairs dm rnd (redPairs dm rnd (r.parts.map fun p => p.map fun b => ⟨b, 0⟩))))
      [(true, (t.headD none).getD ⟨0, 0⟩)]
    else
      let x := if dm = .fix ∧ o ≠ 0x40 then halfUp r.total 31 else r.total
      [(true, inRange 32 (dSat d) x)]
  else
    let k := if 0x45 ≤ o then (if dParam d % 512 = 0 then 512 else dParam d % 512) else 1
    let nan := fNaN (domFmt dm)
    let l := if r.rank.isEmpty then r.nans.map fun i => (nan, i) else r.rank
    let l := l ++ List.replicate (k - l.length) (redFiller dm (o == 0x44 || o == 0x45), 0xFFFFFFFF)
    (l.map fun e => [(true, (⟨e.1, 0⟩ : FR)), (false, (⟨e.2, 0⟩ : FR))]).flatten

/-- What a strip does: its fault, or its writes, flags, reduction state and coefficient block. -/
structure Strip where
  fault : Option (Nat × Nat)
  reads : List PanAcc
  writes : List (Nat × List Byte)
  flags : Nat
  red : RedState
  coef : List Nat
deriving DecidableEq, Repr

def Strip.bad (f : Option (Nat × Nat)) (rs : List PanAcc) : Strip := ⟨f, rs, [], 0, RedState.empty, []⟩

def firstFault (s : State) (c : Cap) (read : Bool) (l : List PanAcc) : Option (Nat × Nat) :=
  l.findSome? fun x => accFault s c read x.addr x.len

/-- The D accesses of the strip: active elements, or the outputs of a reduction after its last strip (R133, R151). -/
def stripWrites (s : State) (d : List Word) (acts : List Nat) (last : Bool) : List PanAcc :=
  let db := typeSize (dDtype d)
  if isReducing (dispOf s) d then
    if last then (List.range (nOut d)).map fun j => ⟨portD d, elemAddr (dDaddr d) (dDstr d) db j, db⟩ else []
  else acts.map fun i => ⟨portD d, addrD s d i, db⟩

/-- What the stages of a strip without a fault compute (R148 to R151, R180, R186). -/
def stripCalc (s : State) (o : Order) (all : List Nat) (last : Bool) (rs ws : List PanAcc) : Strip :=
  let d := o.desc
  let disp := dispOf s
  let need := all.map (elemNeeded s d (maxGroup disp d))
  let m := if o.coef.isEmpty then (blockReads d).map fun x => (valueAt s d x.addr).bits else o.coef
  let av := (all.zip need).map fun e => if e.2 then elemValue s o.cap d e.1 (dAIdx d) (accA s d e.1) 4 else FR.none
  let bv := (all.zip need).map fun e =>
    if streamB d && e.2 then elemValue s o.cap d e.1 (dBIdx d) (accB s d e.1) 5 else FR.none
  let red := isReducing disp d
  let xs := stagesRun s d need av bv m (if red then dNstg d else dNstg d + 1) 0 av
  let store := fun (outs : List FR) => (ws.zip outs).map fun e => (e.1.addr.toNat, bytesOfNat e.1.len e.2.bits)
  let toD := toDtype (lastRes disp d) (dDtype d) (dRnd d) (dSat d)
  if red then
    let k := dLast d
    let op := dOpc d k
    let dm := typeDom (opndType disp d k)
    let q := ((all.zip (xs.zip (secondOf d k av bv))).filter fun e => elemActive s d e.1).foldl
      (fun q e => redStep d dm op e.1 e.2.1 e.2.2 q) o.red
    let outs := if last then
        (if (disp op).isBase op then redOutputs d dm op q else (List.range (nOut d)).map fun j => (true, freeFR s k j))
      else []
    let conv := outs.map fun e => if e.1 then toD e.2 else e.2
    ⟨none, rs, store conv, if last then conv.foldl (fun fl e => Nat.lor fl e.fl) q.fl else 0, q, m⟩
  else
    let outs := ((all.zip xs).filter fun e => elemActive s d e.1).map fun e => toD e.2
    ⟨none, rs, store outs, outs.foldl (fun fl e => Nat.lor fl e.fl) 0, o.red, m⟩

/-- The next strip of an order: elements pos to hi - 1. Only accesses of active elements raise a fault (R138, R148). -/
def stripOf (s : State) (o : Order) : Strip :=
  let d := o.desc
  let hi := min (dLen d) ((o.pos / 256 + 1) * 256)
  let all := elems o.pos hi
  let last := decide (dLen d ≤ hi)
  let r1 := maskReads d o.pos hi
  match firstFault s o.cap true r1 with
  | some f => Strip.bad (some f) r1
  | none =>
    let acts := all.filter (elemActive s d)
    let stray := all.filter fun i => elemNeeded s d (maxGroup (dispOf s) d) i && !elemActive s d i
    let r2 := r1 ++ idxReads d acts ++ (if o.coef.isEmpty then blockReads d else [])
    match firstFault s o.cap true r2 with
    | some f => Strip.bad (some f) r2
    | none =>
      let r3 := r2 ++ dataReads s d acts ++ strayReads s o.cap d stray
      let ws := stripWrites s d acts last
      match firstFault s o.cap true (dataReads s d acts) with
      | some f => Strip.bad (some f) r3
      | none =>
        match firstFault s o.cap false ws with
        | some f => Strip.bad (some f) r3
        | none => stripCalc s o all last r3 ws

/-- What the reads of a strip do in the Saltern (R112, R113, R122). -/
def stripReads (l : List PanAcc) (s : State) : State :=
  let s := (l.map fun x => x.port).eraseDups.foldl (fun t p => portTouch p t) s
  if s.sal.err.isEmpty then s
  else l.foldl (fun t x => if 0 ≤ x.addr ∧ x.addr.toNat + x.len ≤ salSize then readFx x.port x.addr.toNat x.len t else t) s

/-- What the writes of a strip do. -/
def stripStores (d : List Word) (l : List (Nat × List Byte)) (s : State) : State :=
  l.foldl (fun t w => salWrite w.1 w.2 t) (if l.isEmpty then s else portTouch (portD d) s)

/-- A launched order stops (R161, R162), or a background order ends with FAULT and halts its queue (R158). -/
def panHalt (p : Nat) (o : Order) (cause addr : Nat) (s : State) : State :=
  match o.src with
  | .bg c t _ =>
    let s := bgRecord o 3 cause s
    let s := s.wr (rPANp_BGSTAT p) (BitVec.ofNat 32 (c * 2 ^ 16 + cause * 2 ^ 4 + b2n (dAlias o.desc) * 8 + 1))
    let s := ((s.setFld (fPANp_RSM_DONE p) o.done).setFld (fPANp_RSM_TICKET p) t).setFld (fPANp_RSM_FLAGS p) o.flags
    let s := (List.range 8).foldl (fun t i => t.wr (rPANp_RSM_DESCi p i) (dW o.desc i)) s
    post (panPg p) 0 2 p cause addr (s.setPan p { panOf s p with run := none, yielding := false, held := some o })
  | .launched ctx tick idx =>
    let s := s.setPan p { panOf s p with run := none }
    launchedEnd p ctx tick o (abandon ctx tick 3 (lfault p ctx idx cause o.done addr s))

/-- An order ends well. -/
def orderDone (p : Nat) (o : Order) (s : State) : State :=
  let s := s.setPan p { panOf s p with run := none, yielding := false }
  match o.src with
  | .bg .. => bgRecord o 1 0 s
  | .launched ctx tick _ => launchedEnd p ctx tick o s

/-- The launch of an order has been abandoned (R161, R162). -/
def launchDead (s : State) (o : Order) : Bool :=
  match o.src with
  | .launched ctx tick _ => (match launchOf s ctx tick with | some l => l.dead | none => true)
  | _ => false

/-- Stage k of the order reads the bad word: its pan's dispatch entry of the opcode, or a word of the routine that this
opcode and START enter (R201, log 145). -/
def csReads (s : State) (d : List Word) (disp : Bool) (e : CsUe) (k : Nat) : Bool :=
  e.pan == dPan d k % 4 && e.opc == dOpc d k && disp == decide (0x3F00 ≤ e.addr) &&
    (disp || e.start == (dispOf s e.opc).start)
/-- The first uncorrectable word that a stage of the order reads: of the dispatch entries, or of the routines. -/
def csBad (s : State) (o : Order) (disp : Bool) : Option CsUe :=
  (dStages o.desc).findSome? fun k => s.pan.csUe.find? fun e => csReads s o.desc disp e k

def csLog (ue : Bool) (p synd addr : Nat) (s : State) : State :=
  s.wr64 rPCS_ELOG (b2n ue * 2 ^ 63 + p % 4 * 2 ^ 56 + synd * 2 ^ 40 + addr)

/-- An uncorrectable word is read: UEPAN, PCS_ELOG, CS_UE (R201). -/
def csUeRead (e : CsUe) (s : State) : State :=
  let s := (csLog true e.pan e.synd e.addr s).setFld fPCS_STAT_UEPAN (natBitSet (s.fld fPCS_STAT_UEPAN) e.pan true)
  post 0x128 0 3 e.pan 0 e.addr s

/-- A corrected word: the pan's counter, CEPAN, and CS_CE once per CECLR (R201). -/
def csCeRead (p synd addr : Nat) (s : State) : State :=
  let s := ((csLog false p synd addr s).incFld (fPCS_CECNTp p)).setFld fPCS_STAT_CEPAN
    (natBitSet (s.fld fPCS_STAT_CEPAN) p true)
  if s.pan.csPosted then s else post 0x128 1 2 p 0 addr (s.panSet fun r => { r with csPosted := true })

/-- Stage k of the order reads address a of the control store in this strip: a word, or, at the start of the order, the
dispatch entry of its opcode. -/
def csReached (d : List Word) (first : Bool) (k a : Nat) : Bool :=
  decide (k ≤ dNstg d) && (decide (a < 0x2400) || (first && a == 0x3F00 + dOpc d k))

/-- An upset of a word that the strip reads: corrected as it is read, or uncorrectable until it is rewritten (R201). -/
def csUpset (o : Order) (first : Bool) (f : StripFault) (s : State) : State :=
  let d := o.desc
  match f with
  | .ctrlCe k a y => if csReached d first k.val a.toNat then csCeRead (dPan d k.val % 4) y.toNat a.toNat s else s
  | .ctrlUe k a y =>
    if csReached d first k.val a.toNat then
      let e : CsUe := ⟨dPan d k.val % 4, a.toNat, dOpc d k.val, (dispOf s (dOpc d k.val)).start, y.toNat⟩
      s.panSet fun r => { r with csUe := r.csUe.filter (fun x => x != e) ++ [e] }
    else s
  | _ => s
/-- A rewritten word reads well again in all four copies. -/
def csMend (a : Nat) (s : State) : State := s.panSet fun r => { r with csUe := r.csUe.filter fun e => e.addr != a }

/-- The strip commits: its writes in ascending order, its flags and the committed count (R148 to R151). -/
def stripCommit (p : Nat) (o : Order) (x : Strip) (s : State) : State :=
  let d := o.desc
  let hi := min (dLen d) ((o.pos / 256 + 1) * 256)
  let red := isReducing (dispOf s) d
  let s := stripStores d x.writes s
  let known := (dStages d).all (fun k => (dispOf s (dOpc d k)).isBase (dOpc d k)) && !(dMen d && maxGroup (dispOf s) d != 0)
  let s := if known then s else { s with free := s.free + 8192 }
  let o' := { o with pos := hi, done := if red then (if dLen d ≤ hi then dLen d else 0) else hi,
                     flags := Nat.lor o.flags x.flags, red := x.red, coef := x.coef }
  let y := panOf s p
  if dLen d ≤ hi then orderDone p o' s
  else if launchDead s o then
    match o.src with
    | .launched ctx tick _ => launchedEnd p ctx tick o' (s.setPan p { y with run := none })
    | _ => s
  else if y.yielding && !o.launched then s.setPan p (y.setAside o')
  else s.setPan p { y with run := some o', stripAt := fcycOf s, first := false, go := o.launched || bgStripOk s o' false }

/-- STRIP_COMMIT on head pan p, with what an upset does to it. -/
def stripRun (p : Nat) (f : StripFault) (s : State) : State :=
  match (panOf s p).run with
  | none => s
  | some o =>
    let first := (panOf s p).first
    if pageEn s 0x120 = false ∨ (!(panOf s p).go && !bgStripOk s o first) then s
    else
      let s := csUpset o first f s
      match csBad s o true with
      | some e => panHalt p o 9 0 (csUeRead e s)
      | none =>
        let x := stripOf s o
        let t := stripReads x.reads s
        match csBad s o false with
        | some e => panHalt p o 9 0 (csUeRead e t)
        | none =>
          match f with
          | .residue => panHalt p o 8 0 t
          | _ =>
            match x.fault with
            | some e => panHalt p o e.1 e.2 t
            | none => stripCommit p o x t

/-- The first `cut` writes of the strip of the order that runs on head pan p, when more follow: the writes a warm reset
of the F-die cuts (R149, R163). -/
def cutWrites (s : State) (p cut : Nat) : List (Nat × List Byte) :=
  let y := panOf s p
  match y.run with
  | some o =>
    let x := stripOf s o
    if y.go && x.fault.isNone && decide (cut < x.writes.length) then x.writes.take cut else []
  | none => []

/-! The resume block (R158 to R160). -/

def rsmRefused (p : Nat) (s : State) : State := post (panPg p) 2 1 p 0 0 s

/-- The held order as the retained registers give it (R163). -/
def heldOrder (s : State) (p : Nat) : Option Order := (panOf s p).held

/-- PANp_BGCMD RESUME by core c. -/
def bgResume (p c : Nat) (s : State) : State :=
  match heldOrder s p with
  | none => rsmRefused p s
  | some o =>
    if s.flag (fPANp_BGSTAT_HALT p) = false ∨ 4 ≤ c ∨ ringFree s c = 0 ∨
        (s.flag (fPANp_BGSTAT_TORN p) ∧ dAlias o.desc) then rsmRefused p s
    else
      let t := s.fld (fPANp_RSM_TICKET p)
      let done := s.fld (fPANp_RSM_DONE p)
      let o' : Order := { o with src := .bg c t 0, done := done, pos := if isReducing (dispOf s) o.desc then 0 else done,
                                 red := RedState.empty, coef := [] }
      let s := (resvAdd c s).setFlag (fPANp_BGSTAT_HALT p) false
      s.setPan p { panOf s p with held := none, yielded := some o' }

/-- The held order completes as SKIPPED in its issuing core's ring, when that has a slot (R159). -/
def skipHeld (p : Nat) (s : State) : State :=
  match heldOrder s p with
  | none => s.setFlag (fPANp_BGSTAT_HALT p) false
  | some o =>
    let c := s.fld (fPANp_BGSTAT_CORE p)
    let s := if ringFree s c = 0 then s
      else ringWrite c p 4 0xD (s.fld (fPANp_RSM_TICKET p)) (s.fld (fPANp_RSM_FLAGS p)) (s.fld (fPANp_RSM_DONE p))
        (dNotify o.desc) s
    (s.setFlag (fPANp_BGSTAT_HALT p) false).setPan p { panOf s p with held := none }

def bgSkip (p : Nat) (s : State) : State :=
  if s.flag (fPANp_BGSTAT_HALT p) = false then rsmRefused p s else skipHeld p s

def bgFlush (p : Nat) (s : State) : State :=
  if s.flag (fPANp_BGSTAT_HALT p) = false then rsmRefused p s
  else
    let s := skipHeld p s
    (panOf s p).bq.foldl (fun t o => bgRecord o 5 0xD t) (s.setPan p { panOf s p with bq := [] })

/-- A write of PANp_BGCMD by core c (c ≥ 4: another master, which has no ring). -/
def bgCmdWrite (p c : Nat) (v : Word) (s : State) : State :=
  match bitsGet v 0 2 with
  | 1 => bgResume p c s
  | 2 => bgSkip p s
  | 3 => bgFlush p s
  | _ => s

/-! Configuration (R164, R165). -/

/-- A write of PAN_CRBASEc (`cfg` false) or PAN_CRCFGc. -/
def ringConfigWrite (c : Nat) (cfg : Bool) (v : Word) (s : State) : State :=
  if ringUnread s c ≠ 0 ∨ ringResv s c ≠ 0 then post 0x125 c 1 c 0 0 s
  else plainWrite (if cfg then rPAN_CRCFGc c else rPAN_CRBASEc c) v s

/-- PAGE_CTRL.EN of page 0x120. -/
def panEnWrite (on : Bool) (s : State) : State :=
  if on = false ∧ pageEn s 0x120 ∧ nadmitOf s ≠ 0 then s.setFlag (fPAGE_STAT_REFUSED 0x120) true
  else s.setFlag (fPAGE_CTRL_EN 0x120) on

/-! The control store (R201, R205 to R207). -/

def patchRefuse (s : State) : State := post 0x128 3 1 0 0 0 s
def patchReady (s : State) : Bool := s.flag fPCS_CTRL_PATCHEN && s.flag fPCS_STAT_QUIET

def patchSet (s : State) : State :=
  if nadmitOf s ≠ 0 then patchRefuse s else s.setFlag fPCS_CTRL_PATCHEN true

/-- QUIET: every pan has become free in patch mode. -/
def patchQuiet (s : State) : State :=
  if s.flag fPCS_CTRL_PATCHEN && (List.range 4).all fun p => !panBusy s p then s.setFlag fPCS_STAT_QUIET true else s

def patchClear (s : State) : State :=
  if s.flag fPCS_CTRL_PATCHEN = false then s
  else
    let s := (s.setFld fPCS_ID_PATCHID (s.fld fPCS_PATCHID)).setFlag fCRY_STAT_TTVALID false
    let s := if s.pan.dispatch.isEmpty then s else s.setFlag fPCS_STAT_OVLVALID true
    post 0x128 2 1 0 0 0 ((s.setFlag fPCS_CTRL_PATCHEN false).setFlag fPCS_STAT_QUIET false)

/-- Word a of pan p's control store: the base store, or its copy of the overlay (R200). -/
def csWord (s : State) (p a : Nat) : BitVec 128 :=
  if a < 0x2000 then Config.csBase a else storeGet 0 s.pan.overlay (p % 4 * 1024 + (a - 0x2000) % 1024)

/-- A write of PCS_PDATAi: word 3 stores the overlay word in all four copies, in one cycle (R200). -/
def patchWordWrite (i : Nat) (v : Word) (s : State) : State :=
  if i ≠ 3 then s.panSet fun r => { r with pdata := storeSet 0 r.pdata i v }
  else if patchReady s = false then patchRefuse s
  else
    let w := fun j => (storeGet 0 s.pan.pdata j).toNat
    let a := s.fld fPCS_PADDR
    let x := BitVec.ofNat 128 (w 0 + w 1 * 2 ^ 32 + w 2 * 2 ^ 64 + v.toNat * 2 ^ 96)
    csMend (0x2000 + a) (s.panSet fun r =>
      { r with overlay := (List.range 4).foldl (fun m p => storeSet 0 m (1024 * p + a) x) r.overlay })

/-- A write of PCS_DDATA0 is staged; one of PCS_DDATA1 stores the entry. -/
def dispatchWrite0 (v : Word) (s : State) : State := s.panSet fun r => { r with ddata0 := v }
def dispatchWrite1 (v : Word) (s : State) : State :=
  let i := s.fld fPCS_DIDX
  if patchReady s = false ∨ i = 0 then patchRefuse s
  else
    let e := DispEnt.unpack (s.pan.ddata0.toNat + v.toNat * 2 ^ 32)
    let e := if e.start = some (Config.romStart i) then { e with start := none } else e
    csMend (0x3F00 + i) (s.panSet fun r => { r with dispatch := storeSet (baseDispatch i) r.dispatch i e })

def patchIdWrite (v : Word) (s : State) : State :=
  if patchReady s = false then patchRefuse s else plainWrite rPCS_PATCHID v s

/-- PCS_CTRL.CECLR. -/
def pcsCeClr (s : State) : State :=
  ((List.range 4).foldl (fun t p => t.setFld (fPCS_CECNTp p) 0) s).panSet fun r => { r with csPosted := false }

end Sys2Proof.Machine
end

