-- ==== Sys2Proof/Machine/Security.lean ====
section
/-!
DEFINITION. Sys2Proof/Machine/Security.lean: the security block (R525 to R542): OTP, lifecycle, the debug agent's session,
entropy, attestation, and what the F-die boot ROM does on its cold and warm paths.
-/
namespace Sys2Proof.Machine

def secPg : Nat := 0x170
def State.secSet (s : State) (f : SecState → SecState) : State := { s with sec := f s.sec }
def lifecycle (s : State) : Nat := s.fld fSEC_STAT_LC
def secRefuse (s : State) : State := setPost fSEC_STAT_CFGREFUSED secPg 6 1 0 0 0 s
def keyRevoked (s : State) (k : Nat) : Bool := natBit (s.fld fSEC_OTPSTAT_KEYREV) k

/-! OTP (R534 to R536). -/

/-- A program operation starts. -/
def otpStart (o : OtpOp) (s : State) : State :=
  (s.setFlag fSEC_STAT_OTPBUSY true).secSet fun c => { c with otp := some o }

def otpBusy (s : State) : Bool := s.flag fSEC_STAT_OTPBUSY

/-- SEC_CTRL.REVOKE: not the running image's slot, and not the last unrevoked one. -/
def revoke (arg : Nat) (s : State) : State :=
  let left := (List.range 4).any fun k => k != arg && !keyRevoked s k
  if otpBusy s || decide (4 ≤ arg) || (s.flag fSEC_BOOT_VALID && s.sec.key == arg) || !left then secRefuse s
  else otpStart ⟨0, arg⟩ s
def drevoke (arg : Nat) (s : State) : State :=
  if otpBusy s || decide (2 ≤ arg) then secRefuse s else otpStart ⟨1, arg⟩ s
/-- SEC_CTRL.SVNBUMP: the running image's SVN; in recovery no image runs, and nothing is raised (log 164). -/
def svnBump (s : State) : State :=
  if otpBusy s then secRefuse s else otpStart ⟨2, if s.flag fSEC_BOOT_VALID then s.sec.svn else 0⟩ s
/-- SEC_CTRL.LCADV: to a state later than the present one; RMA needs an unlocked session with its scope. -/
def lcAdv (arg : Nat) (s : State) : State :=
  if otpBusy s || decide (arg ≤ lifecycle s) || decide (3 < arg) || (arg == 3 && !natBit s.sec.scope 2) then secRefuse s
  else otpStart ⟨3, arg⟩ s

/-- OTP_DONE: the program completes; LC governs from the next cold boot, and no programmed bit of it is taken back (R534). -/
def otpDone (s : State) : State :=
  match s.sec.otp with
  | none => s
  | some o =>
    let s := match o.what with
      | 0 => s.setFld fSEC_OTPSTAT_KEYREV (natBitSet (s.fld fSEC_OTPSTAT_KEYREV) o.arg true)
      | 1 => s.setFld fSEC_OTPSTAT_DBGREV (natBitSet (s.fld fSEC_OTPSTAT_DBGREV) o.arg true)
      | 2 => s.setFld fSEC_OTPSTAT_SVNMIN (max (s.fld fSEC_OTPSTAT_SVNMIN) o.arg)
      | _ => s.secSet fun c => { c with lc := max c.lc o.arg, erased := c.erased || o.arg == 3 }
    post secPg 4 1 o.what 0 o.arg ((s.setFlag fSEC_STAT_OTPBUSY false).secSet fun c => { c with otp := none })

/-- A write of SEC_CTRL.REIMAGE (R532). -/
def reimageWrite (on : Bool) (s : State) : State :=
  if on ∧ s.fld fCRY_STAT_NADMIT ≠ 0 then secRefuse s else s.setFlag fSEC_CTRL_REIMAGE on

/-! Entropy (R541). -/

def rngRestart (s : State) : State :=
  ((s.setFld fSEC_RNGAVAIL 0).setFlag fSEC_STAT_RNGFAIL false).secSet fun c => { c with rngUp := false }
def rngPassed (s : State) : State :=
  if s.flag fSEC_STAT_RNGFAIL then s else (s.setFld fSEC_RNGAVAIL 16).secSet fun c => { c with rngUp := true }
def rngFail (s : State) : State :=
  setPost fSEC_STAT_RNGFAIL secPg 3 3 0 0 0 ((s.setFld fSEC_RNGAVAIL 0).secSet fun c => { c with rngUp := false })
/-- A read of SEC_RNG: 32 fresh bits, or 0 and UNDERRUN. -/
def rngRead (s : State) : Word × State :=
  if s.fld fSEC_RNGAVAIL = 0 then (0, s.setFlag fSEC_STAT_UNDERRUN true)
  else (BitVec.ofNat 32 s.freeVal, (s.setFld fSEC_RNGAVAIL (s.fld fSEC_RNGAVAIL - 1)).stepFree)
/-- The source delivers a 32-bit word every 768 CCLK: 64 Mbit/s, the rate R541 guarantees. -/
def rngFill (m : Nat) (s : State) : State :=
  let k := (fcycOf s + m) / 768 - fcycOf s / 768
  if s.sec.rngUp ∧ 0 < k then s.setFld fSEC_RNGAVAIL (min 16 (s.fld fSEC_RNGAVAIL + k)) else s

/-- A write of SEC_CTRL. -/
def secCtrlWrite (v : Word) (s : State) : State :=
  let arg := bitsGet v 24 8
  let n := v.toNat
  let s := s.setFld fSEC_CTRL_ARG arg
  let s := if natBit n 4 == s.flag fSEC_CTRL_REIMAGE then s else reimageWrite (natBit n 4) s
  let s := if natBit n 0 then revoke arg s else s
  let s := if natBit n 1 then drevoke arg s else s
  let s := if natBit n 2 then svnBump s else s
  let s := if natBit n 3 then lcAdv arg s else s
  if natBit n 5 then rngRestart s else s

/-! Attestation (R539, R540). -/

/-- ATTEST and IDENTITY. -/
def attest (ident : Bool) (cseq q : Nat) (nonce : List Byte) (s : State) : State :=
  if lifecycle s = 0 ∨ lifecycle s = 3 then post secPg 5 2 1 0 0 s
  else if 4 ≤ s.sec.att.length then post secPg 5 2 0 0 0 s
  else (s.setFlag fSEC_STAT_ABUSY true).secSet fun c => { c with att := c.att ++ [⟨ident, cseq, bytesAt nonce 0 32, q⟩] }

def devIdBytes : List Byte := bytesOfNat 8 Config.otpDevId.toNat

def attestBytes (s : State) (r : AttReq) : List Byte :=
  let flags := b2n (s.flag fSEC_STAT_DBGUNLOCKED) + 2 * s.fld fSEC_BOOT_SLOT + 4 * b2n (s.flag fPCS_STAT_OVLVALID)
  let body := bytesOfNat 4 0x00015447 ++ bytesOfNat 4 r.cseq ++ r.nonce ++ devIdBytes ++ bytesOfNat 1 (lifecycle s) ++
    bytesOfNat 1 flags ++ bytesOfNat 2 s.sec.svn ++ bytesOfNat 1 s.sec.key ++ bytesOfNat 1 Config.step ++
    bytesOfNat 2 (s.rd rH_SYS_ROMID).toNat ++ ((List.range 16).map fun i => bytesOfNat 4 (s.rd (rSEC_MEASi i)).toNat).flatten ++
    bytesOfNat 4 (s.rd rPCS_ID).toNat
  body ++ (Config.ecdsaSign (b2n s.sec.erased) (Config.sha512 body).toList).toList

def identityBytes (s : State) : List Byte :=
  devIdBytes ++ bytesOfNat 1 (lifecycle s) ++ bytesOfNat 7 0 ++ Config.otpDikPub.toList ++ Config.otpVsig.toList ++
  bytesOfNat 8 0

/-- ATTESTATION_ANSWER: the oldest request's answer as event records. -/
def attestAnswer (s : State) : State :=
  match s.sec.att with
  | [] => s
  | r :: rest =>
    let bs := if r.ident then identityBytes s else attestBytes s r
    let n := if r.ident then 18 else 16
    let ty := if r.ident then 0x220 else 0x200
    let a := BitVec.ofNat 64 (angleOf s)
    let s := (List.range n).foldl (fun t i => sendRec r.q ⟨ty + i, secPg, 1, .F, a, bytesAt bs (16 * i) 16⟩ t) s
    ((s.incFld fSEC_ATTCNT).setFlag fSEC_STAT_ABUSY (!rest.isEmpty)).secSet fun c => { c with att := rest }

/-! The debug agent's session (R533, R536, R537). -/

/-- A reply to the host side of the debug path; its layout is the model's (log 60). -/
def dbgReply (bs : List Byte) (s : State) : State := slSend 0 (.debugRep bs) s

/-- The agent accepts a request that needs scope bit b: every one in TEST, DEV and RMA, in PROD after an UNLOCK. -/
def dbgAllows (s : State) (b : Nat) : Bool :=
  lifecycle s != 2 || (s.flag fSEC_STAT_DBGUNLOCKED && natBit s.sec.scope b)

/-- CHALLENGE: a fresh nonce, or RNG_FAIL. -/
def challenge (s : State) : State :=
  if s.sec.rngUp = false then dbgReply (bytesOfNat 1 1 ++ devIdBytes) (s.secSet fun c => { c with nonce := none })
  else
    let nonce := ((List.range 4).map fun i => bytesOfNat 8 (Config.free (s.free + i)).toNat).flatten
    let s := { s with free := s.free + 4 }
    dbgReply (bytesOfNat 1 0 ++ nonce ++ devIdBytes) (s.secSet fun c => { c with nonce := some nonce })

/-- UNLOCK. -/
def unlock (scope slot : Nat) (pub sig : List Byte) (s : State) : State :=
  let ok := match s.sec.nonce with
    | none => false
    | some n => decide (slot < 2) && !natBit (s.fld fSEC_OTPSTAT_DBGREV) slot && decide (s.sec.fails < 4) &&
        (Config.sha512 pub).toList == (Config.otpHash (4 + slot)).toList &&
        Config.ecdsaVerify pub (Config.sha512 (n ++ devIdBytes ++ bytesOfNat 1 scope)).toList sig
  let s := s.secSet fun c => { c with nonce := none }
  if ok then
    dbgReply (bytesOfNat 1 0) (setPost fSEC_STAT_DBGUNLOCKED secPg 1 2 0 0 scope (s.secSet fun c => { c with scope := scope }))
  else dbgReply (bytesOfNat 1 2) (post secPg 2 2 slot 0 0 (s.secSet fun c => { c with fails := c.fails + 1 }))

/-! Images (R526 to R529). -/

def slotBase (b : Nat) : Nat := if b = 0 then 0 else 0x780000
def mramBytes (s : State) (o n : Nat) : List Byte := (List.range n).map fun i => storeGet 0 s.mram (o + i)
def mramNum (s : State) (o n : Nat) : Nat := natOfBytes (mramBytes s o n)

/-- Field at offset o, n bytes, of the image header of slot b. -/
def img (s : State) (b o n : Nat) : Nat := mramNum s (slotBase b + o) n
def imgBytes (s : State) (b o n : Nat) : List Byte := mramBytes s (slotBase b + o) n

/-- A section entry (R528). -/
structure Sect where
  ty : Nat
  zero : Nat
  off : Nat
  len : Nat
  dest : Nat
deriving DecidableEq, Repr

def sectOf (s : State) (b i : Nat) : Sect :=
  let o := 0x40 + 16 * i
  ⟨img s b o 1, img s b (o + 1) 3, img s b (o + 4) 4, img s b (o + 8) 4, img s b (o + 12) 4⟩
def sects (s : State) (b : Nat) : List Sect := (List.range (img s b 0xA 2)).map (sectOf s b)

/-- A LOAD range lies in the Saltern or in one local memory. -/
def loadOk (d n : Nat) : Bool :=
  n == 0 ||
  match regionOf .F d, regionOf .F (d + n - 1) with
  | .saltern _, .saltern _ => true
  | .lmem a, .lmem c => a / 0x80000 == c / 0x80000
  | _, _ => false

def sectOk (len : Nat) (x : Sect) : Bool :=
  decide (1 ≤ x.ty) && decide (x.ty ≤ 4) && x.zero == 0 && decide (0x200 ≤ x.off) && decide (x.off + x.len ≤ 0x200 + len) &&
  (x.ty != 2 || loadOk x.dest x.len) && (x.ty != 3 || x.len == 4096) && (x.ty != 4 || x.len % 24 == 0)

def disjoint : List Sect → Bool
  | [] => true
  | x :: r => (r.all fun y => decide (x.off + x.len ≤ y.off) || decide (y.off + y.len ≤ x.off)) && disjoint r

/-- Sections, lengths and entry points of the header (R526, R528). -/
def layoutOk (s : State) (b : Nat) : Bool :=
  let n := img s b 0xA 2
  let len := img s b 0xC 4
  let l := sects s b
  let entry := img s b 0x10 4
  let code := l.filter fun x => x.ty == 1
  let base := 0x40000000 + slotBase b
  decide (1 ≤ n) && decide (n ≤ 8) && decide (1 ≤ len) && decide (len ≤ 0x77FE00) && (l.all (sectOk len)) && disjoint l &&
  !code.isEmpty && decide ((l.filter fun x => x.ty == 3).length ≤ 1) && decide ((l.filter fun x => x.ty == 4).length ≤ 1) &&
  (code.any fun x => decide (base + x.off ≤ entry) && decide (entry < base + x.off + x.len)) &&
  decide (img s b 0x18 8 ≤ img s b 0x14 4) && decide (img s b 0x14 4 < img s b 0x18 8 + img s b 0x20 8) &&
  img s b 0x3C 4 == 0 && img s b (0x40 + 16 * n) (16 * (8 - n)) == 0 && img s b 0x1C8 56 == 0

/-- The tests of R529: 0 when the slot is a candidate, else the cause code of SEC_BFAIL (R542). -/
def candidateFail (s : State) (b : Nat) : Nat :=
  let k := img s b 7 1
  if img s b 0 4 ≠ 0x31494754 ∨ img s b 4 2 ≠ 1 then 1
  else if img s b 6 1 ≠ Config.step then 2
  else if 4 ≤ k ∨ keyRevoked s k ∨ (Config.sha512 (imgBytes s b 0xC0 132)).toList ≠ (Config.otpHash k).toList then 3
  else if 64 < img s b 8 2 ∨ img s b 8 2 < s.fld fSEC_OTPSTAT_SVNMIN then 4
  else if layoutOk s b then 0 else 5

def imgDigest (s : State) (b : Nat) : List Byte :=
  (Config.sha512 (imgBytes s b 0 0xC0 ++ imgBytes s b 0x200 (img s b 0xC 4))).toList
def sigOk (s : State) (b : Nat) : Bool :=
  Config.ecdsaVerify (imgBytes s b 0xC0 132) (imgDigest s b) (imgBytes s b 0x144 132)

/-- Candidates, the newer first, slot A first when equal (R529). -/
def bootOrder (s : State) : List Nat :=
  let d := (img s 1 0x38 4 + 2 ^ 32 - img s 0 0x38 4) % 2 ^ 32
  if 1 ≤ d ∧ d < 2 ^ 31 then [1, 0] else [0, 1]

/-! Boot (R530, R532, R533). -/

def bfail (b cause : Nat) (s : State) : State := s.setFld (if b = 0 then fSEC_BFAIL_CAUSEA else fSEC_BFAIL_CAUSEB) cause

/-- One record of a PATCH section (R528): none when it is refused (R205). -/
def patchRecord (bs : List Byte) (s : State) : Option State :=
  let a := numAt bs 2 2
  if numAt bs 0 1 = 0 then
    some ((List.range 4).foldl (fun t i => patchWordWrite i (BitVec.ofNat 32 (numAt bs (8 + 4 * i) 4)) t)
      (s.wr rPCS_PADDR (writeFields rPCS_PADDR false (s.rd rPCS_PADDR) (BitVec.ofNat 32 a))))
  else if numAt bs 0 1 = 1 ∧ a % 256 ≠ 0 then
    some (dispatchWrite1 (BitVec.ofNat 32 (numAt bs 12 4)) (dispatchWrite0 (BitVec.ofNat 32 (numAt bs 8 4))
      (s.wr rPCS_DIDX (writeFields rPCS_DIDX false (s.rd rPCS_DIDX) (BitVec.ofNat 32 a)))))
  else none

def patchRecords (s0 : State) (o : Nat) : Nat → State → Option State
  | 0, s => some s
  | n + 1, s =>
    match patchRecord (mramBytes s0 o 24) s with
    | some t => patchRecords s0 (o + 24) n t
    | none => none

/-- Step 4 of R530 for a PATCH section. -/
def bootPatch (b : Nat) (x : Sect) (s : State) : Option State :=
  if s.fld fCRY_STAT_NADMIT ≠ 0 then none
  else
    let s := (patchSet s).setFlag fPCS_STAT_QUIET true
    (patchRecords s (slotBase b + x.off) (x.len / 24) s).map fun t =>
      patchClear (patchIdWrite (BitVec.ofNat 32 (x.dest % 65536)) t)

/-- Step 5 of R530 for a TTABLE section. -/
def bootTable (b : Nat) (x : Sect) (s : State) : Option State :=
  if s.fld fCRY_STAT_NADMIT ≠ 0 then none
  else
    let o := slotBase b + x.off
    let s := (List.range 256).foldl (fun t n =>
      (List.range 4).foldl (fun u i => ttDataWrite i (BitVec.ofNat 32 (mramNum u (o + 16 * n + 4 * i) 4)) u)
        (t.setFld fCRY_TTIDX n)) s
    let s := ttCommit s
    if s.flag fPCS_STAT_TTREJECT then none else some s

/-- The first section of a type, if the image has one. -/
def withSect (b ty : Nat) (f : Sect → State → Option State) (s : State) : Option State :=
  match (sects s b).find? fun x => x.ty == ty with | some x => f x s | none => some s

/-- LOAD sections are copied. -/
def bootLoad (b : Nat) (s : State) : State :=
  ((sects s b).filter fun x => x.ty == 2).foldl (fun t x =>
    match regionOf .F x.dest with
    | .saltern a => salWrite a (mramBytes t (slotBase b + x.off) x.len) (portTouch 82 t)
    | .lmem a => lmWrite a (mramBytes t (slotBase b + x.off) x.len) t
    | _ => t) s

/-- Step 6 of R530 but for the write protection, and the issue at ENTRY: the registers of E0 beyond those the boot ROM
is said to write keep their reset values (log 61). -/
def bootHand (b : Nat) (s : State) : State :=
  let c := s.core 0
  let df := Cap.make (img s b 0x18 8) (img s b 0x20 8) (2 ^ pLOAD + 2 ^ pEXEC + 2 ^ pSYS) 0
  let es := Cap.make (img s b 0x28 8) (img s b 0x30 8) (2 ^ pLOAD + 2 ^ pSTORE + 2 ^ pLOADCAP + 2 ^ pSTORECAP) 0
  s.setCore 0 { c with sc := storeSet Cap.zero (storeSet Cap.zero c.sc scDFCAP df) scESTKCAP es,
                       dfvec := BitVec.ofNat 32 (img s b 0x14 4 / 4 * 4 + 1), pc := img s b 0x10 4 }

/-- Recovery (R533). -/
def recovery (s : State) : State :=
  post secPg 0 3 0 0 (s.rd rSEC_BFAIL).toNat ((s.setFlag fSEC_STAT_RECOVERY true).setFlag fSEC_BOOT_VALID false)

/-- Steps 6 and 7 of R530. -/
def bootDone (b : Nat) (s : State) : State :=
  let dig := imgDigest s b
  let s := bootHand b (s.secSet fun c => { c with prot := some b, svn := img s b 8 2, key := img s b 7 1 })
  let s := (s.wr rSEC_BOOT (BitVec.ofNat 32 (1 + 2 * b))).wr rSEC_BSEQ (BitVec.ofNat 32 (img s b 0x38 4))
  (List.range 16).foldl (fun t i => t.wr (rSEC_MEASi i) (BitVec.ofNat 32 (numAt dig (4 * i) 4)))
    (s.setFlag fSEC_STAT_RECOVERY false)

/-- Steps 2 to 7 of R530 over the slots still to try. -/
def bootTry (fill : Bool) : List Nat → State → State
  | [], s => recovery s
  | b :: r, s =>
    let c := candidateFail s b
    if c ≠ 0 then bootTry fill r (bfail b c s)
    else if sigOk s b = false then bootTry fill r (bfail b 6 s)
    else
      let s1 := bootLoad b (if fill then fillZero ⟨0, 524288⟩ s else s)
      match withSect b 4 (bootPatch b) s1 with
      | none => bootTry fill r (bfail b 8 s1)
      | some s2 =>
        match withSect b 3 (bootTable b) s2 with
        | none => bootTry fill r (bfail b 7 s2)
        | some s3 => bootDone b s3

/-- The cold path (R530). -/
def bootCold (fill : Bool) (s : State) : State :=
  if lifecycle s = 0 then recovery s else bootTry fill (bootOrder s) s

/-- The warm path (R532): the booted slot again, or the cold path without the fill when REIMAGE is 1. -/
def bootWarm (s : State) : State :=
  if s.flag fSEC_CTRL_REIMAGE then bootCold false (s.setFlag fSEC_CTRL_REIMAGE false)
  else
    let b := s.fld fSEC_BOOT_SLOT
    if s.flag fSEC_BOOT_VALID ∧ img s b 0 4 = 0x31494754 then bootHand b s else recovery s

end Sys2Proof.Machine
end

