-- ==== Sys2Proof/Machine/Power.lean ====
section
/-!
DEFINITION. Sys2Proof/Machine/Power.lean: supplies, clocks, temperature, halt and sleep, and the resets of both dies
(R506 to R524).
-/
namespace Sys2Proof.Machine

def pwrPg : Nat := 0x160
def hpPg : Nat := 0x1090
def State.pwrSet (s : State) (f : PwrState → PwrState) : State := { s with pwr := f s.pwr }

/-! Supplies (R509 to R511). -/

/-- The tick of the first command frame whose phase blocks start from now on (R267, R229). -/
def nextFrameTick (s : State) : Nat := if tickNs s < 596 then tickNo s else tickNo s + 1

/-- The BROWNOUT hold starts: frames whose first phase block has not started carry it (R267). -/
def brownHold (s : State) : State :=
  reframe 0 (safeHold 6 0xFFFF 0 (nextFrameTick s) (s.pwrSet fun p => { p with held := true }))

/-- A write of BWCTL while VDDF is below warning starts or ends the hold (R267, R524). -/
def bwctlWrite (v : Word) (s : State) : State :=
  let was := s.flag fBWCTL_HOLD
  let t := plainWrite rBWCTL v s
  if s.flag fPWR_STAT_BELOW = false ∨ t.flag fBWCTL_HOLD = was then t
  else if was then reframe 0 t else brownHold t

/-- BROWNOUT_START: VDDF is below warning. -/
def brownoutStart (s : State) : State :=
  if s.flag fPWR_STAT_BELOW then s
  else
    let s := ((s.setFlag fPWR_STAT_BELOW true).incFld fPWR_DIPCNT).pwrSet fun p => { p with dipAngle := angleOf s }
    if s.flag fBWCTL_HOLD then brownHold s else s

/-- The payload of BROWN_WARN (R510). -/
def brownPayload (rail mv ns flags : Nat) : List Byte :=
  bytesOfNat 2 rail ++ bytesOfNat 2 mv ++ bytesOfNat 4 ns ++ bytesOfNat 8 flags

/-- BROWN_WARN: VDDF has recovered. -/
def brownWarn (mv ns : Nat) (s : State) : State :=
  if s.flag fPWR_STAT_BELOW = false then s
  else
    let h := s.pwr.held
    let s := reframe 0 (((s.setFld fPWR_DIPMIN mv).setFld fPWR_DIPDUR ns).setFlag fPWR_STAT_BELOW false)
    postEventAt ⟨pwrPg, 0, 2⟩ (brownPayload 0 mv ns (1 + 2 * b2n h)) (some s.pwr.dipAngle)
      (s.pwrSet fun p => { p with held := false })

/-- H_DIP_START: VDDH is below warning. -/
def hDipStart (s : State) : State :=
  if s.flag fHP_STAT_BELOW then s
  else (s.setFlag fHP_STAT_BELOW true).pwrSet fun p => { p with hDipAngle := angleAt s .H }

/-- H_DIP_RECOVER: what the queue engine held back goes out. -/
def hDipRecover (mv ns : Nat) (s : State) : State :=
  if s.flag fHP_STAT_BELOW = false then s
  else
    let s := ((s.setFld fHP_DIPMIN mv).setFld fHP_DIPDUR ns).setFlag fHP_STAT_BELOW false
    qFlushAll (postEventAt ⟨hpPg, 0, 2⟩ (brownPayload 1 mv ns 1) (some s.pwr.hDipAngle) s)

/-! Temperature and clocks (R513, R524). -/

/-- The junction limit of the orderable code in 1/16 degrees C (R1). -/
def tempLimit : Int := if Config.grade = 0 then 105 * 16 else 125 * 16
def tempSet (h : Bool) (t : Nat) (s : State) : State := if h then s.setFld fHP_TEMP t else s.setFld fPWR_TEMP t

/-- A reading `t` of a die's sensor, the H-die's if `h`: above the limit it posts TEMP_HIGH. -/
def tempHigh (h : Bool) (t : Nat) (s : State) : State :=
  let s := tempSet h t s
  if signedOf 16 t ≤ tempLimit then s
  else if h then post hpPg 3 3 1 0 t s
  else post pwrPg 2 3 0 0 t (s.setFlag fPWR_STAT_TEMPHIGH true)

/-- TEMP_HIGH_END: the reading has fallen 5 degrees below the limit. -/
def tempHighEnd (h : Bool) (t : Nat) (s : State) : State :=
  let s := tempSet h t s
  if signedOf 16 t ≤ tempLimit - 80 then (if h then s else s.setFlag fPWR_STAT_TEMPHIGH false) else s

def refLost (s : State) : State :=
  if s.flag fCK_STAT_REFOK then post 0x161 0 3 0 0 0 ((s.setFlag fCK_STAT_REFOK false).incFld fCK_REFMISS) else s
def refOk (s : State) : State :=
  if s.flag fCK_STAT_REFOK then s else post 0x161 2 1 0 0 0 (s.setFlag fCK_STAT_REFOK true)
/-- PLL_UNLOCK of FPLL, or of LPLL. -/
def pllUnlock (lpll : Bool) (s : State) : State :=
  let f := if lpll then fCK_STAT_LPLLLOCK else fCK_STAT_FPLLLOCK
  if s.flag f then post 0x161 1 3 (b2n lpll) 0 0 (s.setFlag f false) else s

/-! Halt and sleep (R516, R517). -/

def anyCommitted (s : State) : Bool := (jListed s).any fun i => jState s i == 1
def modeRefused (s : State) : Bool :=
  s.fld fCRY_STAT_NADMIT != 0 || ((List.range 64).any fun n => linkEn s n) || anyCommitted s

/-- Every background order that runs yields (R146). -/
def yieldAll (s : State) : State :=
  (List.range 4).foldl (fun t p => bgYield p t) s

/-- FPLL and LPLL are off in SLEEP and lock again at the wake (R516, R517, log 161). -/
def pllsLock (on : Bool) (s : State) : State := (s.setFlag fCK_STAT_FPLLLOCK on).setFlag fCK_STAT_LPLLLOCK on

/-- PWR_MODE HALT or SLEEP. -/
def pwrEnter (m : PwrMode) (s : State) : State :=
  if s.pwr.mode ≠ .run then s
  else if modeRefused s then setPost fPWR_STAT_CFGREFUSED pwrPg 3 1 0 0 0 s
  else
    let s := (yieldAll s).pwrSet fun p => { p with mode := m }
    let s := if m = .sleep then pllsLock false s else s
    (List.range 4).foldl (fun t i => if slPair t i = 4 then t else pairTo i 4 t) s

/-- F_SLEEP: the SLEEP link cell reaches the H side. -/
def fSleep (s : State) : State :=
  if s.pwr.mode = .run ∨ s.pwr.hOff then s
  else post hpPg 1 1 0 0 0 ((s.setFlag fHP_STAT_FSLEEP true).pwrSet fun p => { p with hOff := true })

/-- Pairs that only the power state held OFF are released. -/
def pairsOn (s : State) : State :=
  (List.range 4).foldl (fun t i =>
    if slPair t i = 4 ∧ natBit (t.fld fSL_CTRL_PAIRDIS) i = false then pairTo i 0 t else t) s

/-- The F-die runs again; its transmitters wake the H side. -/
def pwrRun (s : State) : State :=
  let s := if s.pwr.mode = .sleep then pllsLock true s else s
  let s := pairsOn { (s.pwrSet fun p => { p with mode := .run, woke := false }) with ev := { s.ev with gtDrift := [] } }
  if s.pwr.hOff then
    post hpPg 2 1 0 0 0 ((s.setFlag fHP_STAT_FSLEEP false).pwrSet fun p => { p with hOff := false })
  else s

/-- WAKE: a pulse has reached WAKECH, or Sluice signal detect with WAKESL. -/
def wake (s : State) : State :=
  if s.pwr.mode ≠ .run ∧ (s.pwr.woke ∨ (s.flag fPWR_WAKE_WAKESL ∧ s.pwr.hOff = false)) then
    post pwrPg 1 1 0 0 0 (pwrRun s)
  else s
/-- WAKEF: HP_CTRL.WAKEF restarts the H side's transmitters. -/
def wakeF (s : State) : State := s.pwrSet fun p => { p with hOff := false }

/-- A write of PWR_MODE. -/
def pwrModeWrite (v : Word) (s : State) : State :=
  let s := plainWrite rPWR_MODE v s
  match v.toNat % 4 with
  | 1 => pwrEnter .halt s
  | 2 => pwrEnter .sleep s
  | _ => s

/-! Resets of register files (R44, R519). -/

/-- Registers take their reset values, but for the bits `keep` names of each. -/
def resetRegs (keep : Nat → Nat) (s : State) : State :=
  { s with regs := s.regs.filterMap fun e =>
      let m := BitVec.ofNat 32 (keep e.1)
      let v := (e.2 &&& m) ||| (regDflt e.1 &&& ~~~m)
      if v = regDflt e.1 then none else some (e.1, v) }
def allBits : Nat := 0xFFFFFFFF
def fldMask (f : Fld) : Nat := (2 ^ f.width - 1) * 2 ^ f.lo
def isH (pg : Nat) : Bool := decide (0x1000 ≤ pg)

/-- Pages of the always-on section (R519). -/
def alwaysOn (pg : Nat) : Bool :=
  (0x010 ≤ pg && pg ≤ 0x012) || (0x080 ≤ pg && pg ≤ 0x0FF) || (0x160 ≤ pg && pg ≤ 0x162)

/-- What other pages keep at a warm reset of the F-die: fields marked Retained, what the rules name (R270, R441, R456,
R467, R535 to R537), and what shows a state that outlives the reset: pairs and the journal (log 124). -/
def warmKeep (key : Nat) : Nat :=
  if isH (key / 1024) || alwaysOn (key / 1024) then allBits
  else if key = rSL_PSTAT ∨ key = rSL_LAT ∨ key = rSL_FCYC ∨ key = rSL_FCYC + 1 ∨ key = rTJ_OCC ∨ key = rSEC_OTPSTAT then allBits
  else if key = rTJ_STAT then fldMask fTJ_STAT_HELD + fldMask fTJ_STAT_REPLAYED + fldMask fTJ_STAT_REPLAYING
  else if key = rRK_STAT then Nat.lor (fldMask fRK_STAT_EMPIN) (fieldMask key (·.retained))
  else if key = rSEC_STAT then fldMask fSEC_STAT_LC + fldMask fSEC_STAT_OTPBUSY + fldMask fSEC_STAT_DBGUNLOCKED
  else fieldMask key (·.retained)

/-- Events, their payloads and the shadows of pages `pg` for which `keep` fails are dropped. -/
def resetPages (keep : Nat → Bool) (s : State) : State :=
  { s with evPay := storeKeep (fun k => keep (k / 32)) s.evPay, evHeld := s.evHeld.filter (fun k => keep (k / 32)),
           shadow := storeKeep (fun k => keep (k % 2 ^ 23 / 1024)) s.shadow }

/-! The warm reset of the F-die (R163, R518 to R520, R576). -/

/-- A warm reset stops pan p: the writes of its strip end after the first `cut` of them, and its background order goes to
the retained resume block, TORN when it is the one whose writes were cut (R163). -/
def panStop (p cut : Nat) (s : State) : State :=
  let x := panOf s p
  let ws := cutWrites s p cut
  let runs := match x.run with | some o => !o.launched | none => false
  let s := match x.run with | some o => stripStores o.desc ws s | none => s
  match if runs then x.run else x.yielded with
  | some o =>
    match o.src with
    | .bg c t _ =>
      let s := s.wr (rPANp_BGSTAT p)
        (BitVec.ofNat 32 (c * 2 ^ 16 + 0xC * 2 ^ 4 + b2n (dAlias o.desc) * 8 + b2n (runs && !ws.isEmpty) * 4 + 1))
      let s := ((s.setFld (fPANp_RSM_DONE p) o.done).setFld (fPANp_RSM_TICKET p) t).setFld (fPANp_RSM_FLAGS p) o.flags
      ((List.range 8).foldl (fun t i => t.wr (rPANp_RSM_DESCi p i) (dW o.desc i)) s).setPan p
        { Pan.empty with held := some o }
    | .launched .. => s.setPan p { Pan.empty with held := x.held }
  | none => s.setPan p { Pan.empty with held := x.held }

/-- What is left of the senders when one die is reset: the lanes and the classes of the other. -/
def slHalf (lane cls : Nat → Bool) (l : SlLanes) : SlLanes :=
  { l with fly := storeKeep lane l.fly, sent := storeKeep cls l.sent, again := l.again.filter fun c => cls c.key }

/-- What the blocks of the compute section lose beyond their registers. -/
def warmBlocks (s : State) : State :=
  let e := EvState.reset
  let k := RakeState.reset
  let c := CryState.reset
  { s with
      ev := { e with acArmed := s.ev.acArmed, acLow := s.ev.acLow, acCyc := s.ev.acCyc, acDefer := s.ev.acDefer }
      sal := { s.sal with fill := none, inflight := [], peak := [], ceCnt := [], cePosted := [] }
      cry := { c with ctx := s.cry.ctx, tt := s.cry.tt }
      pan := { PanState.reset with pans := s.pan.pans, dispatch := s.pan.dispatch, overlay := s.pan.overlay,
                                   csUe := s.pan.csUe }
      rk := { k with rules := s.rk.rules, phases := s.rk.phases, ueRule := s.rk.ueRule, uePhase := s.rk.uePhase,
                     lsafe := s.rk.lsafe, lalt := s.rk.lalt, lmin := s.rk.lmin, dynUe := s.rk.dynUe,
                     holds := s.rk.holds.filter fun h => h.cause != 5 }
      sl := { s.sl with tx := storeKeep (fun k => decide (16 ≤ k)) s.sl.tx,
                        rx := storeKeep (fun k => decide (k < 16)) s.sl.rx, lanes := slHalf (fun k => decide (4 ≤ k))
                          (fun k => decide (16 ≤ k)) s.sl.lanes, inF := [], initF := true,
                        evLost := s.sl.evLost + (slTxOf s 3).cells.length, timeWait := none }
      tj := { s.tj with info := s.tj.info.map (fun e => (e.1, { e.2 with noticed := false, verdict := none })), launched := [],
                        frozen := false }
      dup := { DupState.reset with recTick := s.dup.recTick, recCyc := s.dup.recCyc }
      bl := { s.bl with ports := (s.bl.ports.map fun e => (e.1, { e.2 with povr := [] })).filter fun e => e.2 != BPort.reset }
      sec := { s.sec with nonce := none, att := [], rngUp := false }
      cores := storeKeep (fun n => decide (4 ≤ n)) s.cores }

/-- RST_STAT and its companions at a warm reset with cause bit `cause` (R518, R524). -/
def warmStat (cause : Nat) (s : State) : State :=
  let s := ((s.setFld fRST_CTRL_CORERUN 1).setFld fRST_STAT_CAUSE (2 ^ cause)).setFlag fRST_STAT_FRAMEHOLD true
  (s.incFld fRST_WARMCNT).wr64 rRST_LAST (tickNo s)

/-- F_WARM_RESET: RSTF_N (cause 2), RST_CTRL.WARM (3) or LOGIC_MISMATCH (4). `cuts` gives for a pan how many D writes of
its strip had been performed. -/
def fWarmReset (cause : Nat) (cuts : List (Nat × Nat)) (s : State) : State :=
  let s := fillStop s
  let s := if s.flag fTJ_STAT_REPLAYING then replayDone s else s
  let s := (List.range 4).foldl (fun t p => panStop p (storeGet 0 cuts p) t) s
  let s := warmBlocks (resetPages (fun pg => isH pg || alwaysOn pg) (resetRegs warmKeep s))
  let s := warmStat cause s
  let s := if s.pwr.mode = .run then s else pwrRun s
  resyncStart false (s.pwrSet fun p => { p with warm := true, logic := none, woke := false })

/-- WARM_DONE: the compute section is released and the boot ROM takes its warm path (R523, R532). -/
def warmDone (s : State) : State :=
  if s.pwr.warm = false then s
  else
    let s := post 0x162 0 2 0 (s.fld fRST_STAT_CAUSE) 0 (s.pwrSet fun p => { p with warm := false })
    bootWarm (if s.flag fRK_STAT_EMPIN then emRecognise s else s)

/-! The cold reset of the F-die (R512, R518, R522). -/

def coldFKeep (key : Nat) : Nat :=
  if isH (key / 1024) ∨ key = rSEC_OTPSTAT then allBits else 0

/-- The F-die as after power-up: MRAM, OTP and the H-die are kept. -/
def coldBlocks (s : State) : State :=
  let r := State.reset
  let l := SlState.reset
  { s with
      lmem := [], lmErr := s.lmErr.filter (fun e => decide (0x40000000 ≤ e.1)), tb := r.tb, ev := r.ev, sal := r.sal,
      cry := r.cry, pan := r.pan, bl := r.bl, rk := r.rk, dup := r.dup, tj := r.tj
      sl := { s.sl with tx := [], rx := [], inF := [], initF := true, evLost := 0, fell := [], timeWait := none,
                        timeLast := l.timeLast }
      pwr := { r.pwr with hDipAngle := s.pwr.hDipAngle }
      sec := { SecState.reset with lc := s.sec.lc, erased := s.sec.erased }
      cores := storeKeep (fun n => decide (4 ≤ n)) s.cores }

/-- COLD_BOOT_F: after power-up, or after a rail fell below its reset level (`below`); EMSTOP_N is low if `emLow`. -/
def coldBootF (below emLow : Bool) (s : State) : State :=
  let s := s.tj.writes.foldl (fun t w => writeDone w t) s
  let s := (List.range 4).foldl (fun t i => if slPair t i = 0 then t else pairTo i 0 t) s
  let s := if s.pwr.hOff then s.setFlag fHP_STAT_FSLEEP false else s
  let s := coldBlocks (resetPages isH (resetRegs coldFKeep s))
  let s := (s.setFld fSEC_STAT_LC s.sec.lc).setFld fRST_STAT_CAUSE (if below then 2 else 1)
  let s := jCount ((jListed s).countP fun i => jOcc s i) (s.wr rCK_STAT 7)
  let s := if emLow then emFall s else s
  bootCold true (resyncStart false s)

/-! Resets of the H-die (R445, R446, R512, R518, R521). -/

/-- What H-die registers keep at a warm reset: HP_CAUSE (R521), the count since cold power-up of QE_ACCCNT, and what shows
a state that outlives the reset: the pairs, which R465 has UP, the supply, and the F-die's HALT or SLEEP (log 124). -/
def hKeep (key : Nat) : Nat :=
  if isH (key / 1024) = false then allBits
  else if key = rHP_CAUSE ∨ key = rSH_PSTAT ∨ key = rSH_LAT ∨ key = rQE_ACCCNT ∨ key = rQE_ACCCNT + 1 then allBits
  else if key = rHP_STAT then fldMask fHP_STAT_BELOW + fldMask fHP_STAT_FSLEEP
  else fieldMask key (·.retained)

/-- What both resets of the H-die do beyond its registers. -/
def hBlocks (s : State) : State :=
  { s with
      fab := FabState.reset, pn := PanelState.reset, evIn := []
      cores := storeKeep (fun n => decide (n < 4)) s.cores
      sl := { s.sl with tx := storeKeep (fun k => decide (k < 16)) s.sl.tx,
                        rx := storeKeep (fun k => decide (16 ≤ k)) s.sl.rx, lanes := slHalf (fun k => decide (k < 4))
                          (fun k => decide (k < 16)) s.sl.lanes, inH := [], initH := true, shReal := 0,
                        shTick := 0, shSub := 0, shRate := 0, shN := 20000, telBuf := [] } }

/-- H_WARM_RESET: RSTH_N (cause 2), PERST_N (3), S0 lockstep or HP_CTRL.WARM (4). -/
def hWarmReset (cause : Nat) (s : State) : State :=
  let s := hBlocks (resetPages (fun pg => !isH pg) (resetRegs hKeep s))
  let s := (s.rkSet fun r => { r with cnt := [] }).setFld fHP_CAUSE (2 ^ cause)
  let s := s.qeSet fun e => { e with op := none, msix := [], d3hot := false, linkUp := false }
  resyncStart true (jCount (s.fld fTJ_OCC) s)

/-- COLD_BOOT_H: after power-up, or after a rail fell below its reset level. The queue state store is lost. -/
def coldBootH (below : Bool) (s : State) : State :=
  let s := (List.range 4).foldl (fun t i => if slPair t i = 0 ∨ slPair t i = 4 then t else pairTo i 0 t) s
  let p := s.rd rSH_PSTAT
  let s := hBlocks (resetPages (fun pg => !isH pg) (resetRegs (fun k => if isH (k / 1024) then 0 else allBits) s))
  let s := { (s.wr rSH_PSTAT p).setFld fHP_CAUSE (if below then 2 else 1) with qe := QeState.reset }
  resyncStart true (jCount (s.fld fTJ_OCC) (s.pwrSet fun x => { x with hOff := false }))

/-- INIT: a link cell from one die reaches the other; the H side also resynchronises with an F-die that was reset (R446,
R447, R465). -/
def initRow (fromH : Bool) (s : State) : State :=
  if fromH then initCell true s
  else if linkFresh s 1 1 then resyncStart false (initCell false s)
  else s

/-- PCIE_HOT_RESET or a link-down: the endpoint's configuration space and link (R518). -/
def pcieHotReset (s : State) : State :=
  let was := s.qe.linkUp
  let s := (s.qeSet fun e => { e with linkUp := false, d3hot := false }).wr rPX_LSTAT 0
  if was then post pxPg 0 3 0 0 0 s else s

/-! RST_CTRL and HP_CTRL (R520, R522, R524). -/

def frameGo (s : State) : State := s.setFlag fRST_STAT_FRAMEHOLD false

/-- A core in reset keeps DFVEC, DFLOCK, DFCAP and ESTKCAP once DFLOCK is set, until its die is reset (R369, R379). -/
def heldCore (n : Nat) (c : Core) : Core :=
  if natBit c.dfvec.toNat 0 then
    { Core.reset n with dfvec := c.dfvec, sc := storeKeep (fun i => i == scDFCAP || i == scESTKCAP) c.sc }
  else Core.reset n
/-- CORERUN_WRITE: a core whose bit is 0 is in reset; one whose bit becomes 1 starts at its reset state. -/
def coreRunWrite (v : Nat) (s : State) : State :=
  let s := s.setFld fRST_CTRL_CORERUN v
  (List.range 4).foldl (fun t n => if natBit v n then t else t.setCore n (heldCore n (t.core n))) s

def rstCtrlWrite (v : Word) (s : State) : State :=
  let s := coreRunWrite (v.toNat / 16 % 16) s
  let s := if natBit v.toNat 8 then frameGo s else s
  if natBit v.toNat 0 then fWarmReset 3 [] s else s

def hpCtrlWrite (v : Word) (s : State) : State :=
  let s := if natBit v.toNat 8 then wakeF s else s
  if natBit v.toNat 0 then hWarmReset 4 s else s

end Sys2Proof.Machine
end

