-- ==== Sys2Proof/Machine/Lockstep.lean ====
section
/-!
DEFINITION. Sys2Proof/Machine/Lockstep.lean: lockstep stops and recovery of cores (R368, R484 to R491, R576), duplicated
control logic (R494), and the end of a core's tasks from outside it (R90, R92).
-/
namespace Sys2Proof.Machine

def fcPg : Nat := 0x16F

/-- Tasks of a core that a predicate names end without TEND: they are stopped, and their launches abandoned with `cause`
(R90, R92, R485). -/
def dropTasks (n cause : Nat) (p : Task → Bool) (s : State) : State :=
  let c := s.core n
  let gone := (c.group ++ c.waiting).filter p
  let s := s.setCore n { c with group := c.group.filter fun t => !p t, waiting := c.waiting.filter fun t => !p t }
  gone.foldl (fun u t => taskEnd t.ctx t.tick (abandon t.ctx t.tick cause u)) s

/-- The contexts with a task on core n, with the descriptor that governs now. -/
def coreContexts (s : State) (n : Nat) : List (Nat × List Word) :=
  ((s.cry.ctx.filter fun e => e.2.st != .free).map fun e => (e.1, e.2.descAt (tickNo s))).filter fun e =>
    xTask e.2 && xCore e.2 == n

/-- The CORE_STOP hold of core n over the contexts with a task on it, from the next frame until R488 ends it: one record
names the core (R267). -/
def coreStopHold (n : Nat) (s : State) : State :=
  let new := (coreContexts s n).filter fun e => !s.rk.holds.any fun h => h.cause == 5 && h.ctx == e.1 && h.stop.isNone
  if new.isEmpty then s
  else
    safeHold 5 n 0 (tickNo s + 1) (s.rkSet fun r => { r with holds := r.holds ++ new.map fun e =>
      ⟨5, n, e.1, xFphase e.2, xNph e.2, xFmask e.2, tickNo s + 1, none⟩ })

/-- A second stop within 1,048,576 ticks of the last recovery marks the core DEAD (R489). -/
def deadCheck (n : Nat) (s : State) : State :=
  match storeGet none s.dup.recTick n with
  | some t =>
    if tickNo s < t + 1048576 ∧ natBit (s.fld fFC_STAT_DEAD) n = false then
      post fcPg (8 + n) 3 n 0 0 (s.setFld fFC_STAT_DEAD (natBitSet (s.fld fFC_STAT_DEAD) n true))
    else s
  | none => s

/-- Core n issues nothing more, its contexts are held and its tasks abandoned (R368, R485). -/
def stopCore (n : Nat) (s : State) : State :=
  let s := s.setFld fFC_STAT_STOPPED (natBitSet (s.fld fFC_STAT_STOPPED) n true)
  let s := s.dupSet fun d => { d with stopCyc := storeSet 0 d.stopCyc n (fcycOf s), inject := natBitSet d.inject n false }
  let s := coreStopHold n s
  deadCheck n (dropTasks n 5 (fun _ => true) s)

/-- LOCKSTEP: a comparison differs for an output of the given kind (R485). -/
def lockstep (n kind : Nat) (s : State) : State :=
  if coreRunning s n = false then s
  else
    let s := (s.incFld (fFC_LSCNTn n)).setFld (fFC_LSKINDn n) kind
    stopCore n (post fcPg n 3 n kind (fcycOf s) (s.wr64 rFC_LSFCYC (fcycOf s)))

/-- S0_LOCKSTEP (R486). -/
def s0Lockstep (s : State) : State := post 0x1070 0 3 4 0 0 (hWarmReset 4 s)

/-- A cause of R366 or a synchronous exception while DFACT is 1 (R368). -/
def coreStop (n : Nat) (s : State) : State :=
  if n = 4 then s0Lockstep s
  else stopCore n (post fcPg n 3 n 0 (fcycOf s) (exPost n 1 3 0 s))

/-! Recovery (R487 to R489). -/

/-- FC_CTRL.RECOVER for core n: ignored unless the core is stopped. -/
def recover (n : Nat) (s : State) : State :=
  if coreStopped s n then s.setFld fFC_STAT_RECOVERING (natBitSet (s.fld fFC_STAT_RECOVERING) n true) else s

/-- AUTO_RECOVER: 16 CCLK after a stop, unless the core is DEAD or AUTOREC is 0. -/
def autoRecover (n : Nat) (s : State) : State :=
  if natBit (s.fld fFC_CTRL_AUTOREC) n ∧ natBit (s.fld fFC_STAT_DEAD) n = false ∧
      storeGet 0 s.dup.stopCyc n + 16 ≤ fcycOf s then recover n s
  else s

/-- The core after recovery: everything reset but DFVEC, DFLOCK, DFCAP and ESTKCAP, entered as DOUBLE_FAULT with cause
6. The slot holds the PC and PCC at which the core stopped (log 62). -/
def recoveredCore (n : Nat) (c : Core) : Core :=
  let sc := storeSet Cap.zero (storeSet Cap.zero [] scDFCAP (c.rdS scDFCAP)) scESTKCAP (c.rdS scESTKCAP)
  { Core.reset n with dfvec := c.dfvec, sc := sc, pcc := c.pcc }.dfEnter c.pc 0 6 0

/-- RECOVERED. -/
def recovered (n : Nat) (s : State) : State :=
  if natBit (s.fld fFC_STAT_RECOVERING) n = false ∨ coreStopped s n = false then s
  else
    let s := s.mapCore n (recoveredCore n)
    let s := (s.setFld fFC_STAT_RECOVERING (natBitSet (s.fld fFC_STAT_RECOVERING) n false)).setFld fFC_STAT_STOPPED
      (natBitSet (s.fld fFC_STAT_STOPPED) n false)
    post fcPg (4 + n) 1 n 0 0 (s.dupSet fun d => { d with
      recTick := storeSet none d.recTick n (some (tickNo s)), recCyc := storeSet 0 d.recCyc n (fcycOf s) })

/-- INJECT for the cores of a mask: the next output of each is inverted (R505). -/
def inject (m : Nat) (s : State) : State := s.dupSet fun d => { d with inject := Nat.lor d.inject (m % 16) }

def fcCtrlWrite (v : Word) (s : State) : State :=
  let s := plainWrite rFC_CTRL v s
  let s := (List.range 4).foldl (fun t n => if natBit v.toNat (8 + n) then recover n t else t) s
  inject (v.toNat / 2 ^ 16) s

/-! Control logic and launches on stopped cores (R485, R494). -/

/-- LOGIC_MISMATCH: no command frame from the next tick on; the warm reset follows (F_WARM_RESET, cause 4). -/
def logicMismatch (s : State) : State :=
  let s := (setPost fFC_STAT_LOGIC fcPg 12 3 0 0 0 s).incFld fFC_LOGICCNT
  s.pwrSet fun p => { p with logic := some (match p.logic with | some t => t | none => tickNo s) }

/-- Launches of tick t with a task on a stopped core are abandoned (R485). -/
def stopLaunches (t : Nat) (s : State) : State :=
  (s.cry.launches.filter fun l => l.tick == t && xTask l.desc && coreStopped s (xCore l.desc)).foldl
    (fun u l => taskEnd l.ctx t (abandon l.ctx t 5 (dropTasks (xCore l.desc) 5 (fun k => k.ctx == l.ctx && k.tick == t) u))) s

end Sys2Proof.Machine
end

