-- ==== Sys2Proof/Machine/Panel.lean ====
section
/-!
DEFINITION. Sys2Proof/Machine/Panel.lean: the service panel (R543 to R549).
-/
namespace Sys2Proof.Machine

def pnPg : Nat := 0x1080
def State.pnSet (s : State) (f : PanelState → PanelState) : State := { s with pn := f s.pn }
/-- A record whose payload holds `n` in its low bytes. -/
def pnPost (bit sev n : Nat) (s : State) : State := postEvent ⟨pnPg, bit, sev⟩ (bytesOfNat 16 n) s

/-! The button, the latches and VBUS after debounce (R543, R544, R549). -/

def btnDown (s : State) : State :=
  if s.flag fPN_STAT_BTN then s else pnPost 0 1 0 ((s.setFlag fPN_STAT_BTN true).pnSet fun p => { p with held := false })
/-- BTN_HOLD once per press; a threshold of 0 never posts it. -/
def btnHold (s : State) : State :=
  if s.flag fPN_STAT_BTN ∧ s.pn.held = false ∧ s.fld fPN_HOLD ≠ 0 then
    pnPost 1 1 0 (s.pnSet fun p => { p with held := true })
  else s
/-- BTN_UP after a press of `ms`. -/
def btnUp (ms : Nat) (s : State) : State :=
  if s.flag fPN_STAT_BTN then
    pnPost 2 1 (ms % 2 ^ 32 + 2 ^ 32 * b2n s.pn.held) ((s.setFlag fPN_STAT_BTN false).pnSet fun p => { p with held := false })
  else s

def setBit (f : Fld) (i : Nat) (b : Bool) (s : State) : State := s.setFld f (natBitSet (s.fld f) i b)
/-- The state at reset is closed, and PN_STAT.LATCH shows 1 for an active, open latch (R547, R551). -/
def latchOpen (n : Nat) (s : State) : State :=
  if natBit (s.fld fPN_STAT_LATCH) n then s else pnPost 3 2 n (setBit fPN_STAT_LATCH n true s)
def latchClose (n : Nat) (s : State) : State :=
  if natBit (s.fld fPN_STAT_LATCH) n then pnPost 4 1 n (setBit fPN_STAT_LATCH n false s) else s
def usbAttach (s : State) : State :=
  if s.flag fPN_STAT_VBUS then s else pnPost 7 1 0 (s.setFlag fPN_STAT_VBUS true)
def usbDetach (s : State) : State :=
  if s.flag fPN_STAT_VBUS then pnPost 8 1 0 (s.setFlag fPN_STAT_VBUS false) else s

/-! The electrodes (R545). -/

def toggleLed (s : State) : State := s.pnSet fun p => { p with led0 := !p.led0 }
/-- IDENTIFY; the locate blink waits for the end of a lamp test (R548). -/
def identify (s : State) : State :=
  let s := pnPost 6 1 0 s
  if s.flag fPN_CTRL_TOUCHLOC = false then s
  else if s.flag fPN_STAT_LT then s.pnSet fun p => { p with toggle := !p.toggle }
  else toggleLed s
/-- TOUCH of electrode e at `ms`, with the baseline and count of the scan; a touch of the other within 500 ms before is
an IDENTIFY. -/
def touch (e ms base count : Nat) (s : State) : State :=
  if natBit (s.fld fPN_STAT_TOUCH) e then s
  else
    let s := (s.setFld (fPN_TCOUNTe_COUNT e) count).setFld (fPN_TCOUNTe_BASE e) base
    let other := storeGet none s.pn.touch (1 - e)
    let s := pnPost 5 1 e ((setBit fPN_STAT_TOUCH e true s).pnSet fun p => { p with touch := storeSet none p.touch e (some ms) })
    match other with
    | some t => if ms ≤ t + 500 ∧ t ≤ ms + 500 then identify s else s
    | none => s
def touchRelease (e base count : Nat) (s : State) : State :=
  ((setBit fPN_STAT_TOUCH e false s).setFld (fPN_TCOUNTe_COUNT e) count).setFld (fPN_TCOUNTe_BASE e) base

/-! LEDs (R548). -/

/-- The mode LED n shows: all are on in a lamp test, and LED0 blinks at 4 Hz while IDENTIFY has it so (R545, R548). -/
def ledShows (s : State) (n : Nat) : Nat :=
  if s.flag fPN_STAT_LT then 1 else if n = 0 ∧ s.pn.led0 then 3 else s.fld (fPN_LEDn_MODE n)
/-- LED n is lit at `ms` of the phase all LEDs share; what the modes 5 to 7 show is open (R548, log 5). -/
def ledLit (s : State) (n ms : Nat) : Bool :=
  match ledShows s n with
  | 0 => false
  | 1 => true
  | 2 => ms / 500 % 2 == 0
  | 3 => ms / 125 % 2 == 0
  | 4 => natBit (s.fld (fPN_LEDn_PAT n)) (ms % 2000 / 125)
  | _ => natBit s.freeVal 0
/-- Its current in mA (R548, R551). -/
def ledCurrent (s : State) (n : Nat) : Nat := 2 * max 1 (s.fld (fPN_LEDn_CUR n))

def lampTest (s : State) : State := s.setFlag fPN_STAT_LT true
def lampTestEnd (s : State) : State :=
  if s.flag fPN_STAT_LT then
    let s := s.pn.mode.foldl (fun t e => t.setFld (fPN_LEDn_MODE e.1) e.2) (s.setFlag fPN_STAT_LT false)
    let s := if s.pn.toggle then toggleLed s else s
    s.pnSet fun p => { p with toggle := false, mode := [] }
  else s
/-- A write of PN_LEDn: the mode waits for the end of a lamp test. -/
def ledWrite (n : Nat) (v : Word) (s : State) : State :=
  if s.flag fPN_STAT_LT then
    let m := s.fld (fPN_LEDn_MODE n)
    ((plainWrite (rPN_LEDn n) v s).setFld (fPN_LEDn_MODE n) m).pnSet fun p =>
      { p with mode := (p.mode.filter fun e => e.1 != n) ++ [(n, v.toNat % 8)] }
  else plainWrite (rPN_LEDn n) v s
def pnCtrlWrite (v : Word) (s : State) : State :=
  let s := plainWrite rPN_CTRL v s
  if natBit v.toNat 1 then lampTest s else s

end Sys2Proof.Machine
end

