-- ==== Sys2Proof/Machine/Mmio.lean ====
section
/-!
DEFINITION. Sys2Proof/Machine/Mmio.lean: reads and writes of register pages (R32, R36 to R45, R61, R568 to R571), with the
behaviour that the chapters give single registers.
-/
namespace Sys2Proof.Machine

/-! What a register word reads as. -/

/-- An RST or a block operation is in progress (R38). -/
def pageBusy (s : State) (pg : Nat) : Bool :=
  if pg = 0x110 then s.flag fCRY_STAT_OPBUSY
  else if pg = 0x101 then s.flag fRK_STAT_TESTBUSY
  else if pg = 0x130 then s.flag fSAL_STAT_RMAPBUSY || s.flag fSAL_STAT_FILLBUSY
  else if pg = 0x150 then s.flag fTJ_STAT_REPLAYING
  else if pg = 0x170 then s.flag fSEC_STAT_OTPBUSY
  else if pg = 0x1020 then s.flag fQE_STAT_QOPBUSY
  else false

def pageStat (s : State) (pg : Nat) : Word :=
  BitVec.ofNat 32 (b2n (s.flag (fPAGE_STAT_REFUSED pg)) * 8 + b2n (s.flag (fPAGE_CTRL_FREEZE pg)) * 4 +
    b2n (locked s pg) * 2 + b2n (pageBusy s pg))

/-- The capability that XVn_SEL selects, while page 0x140 + n is frozen (R401). -/
def xvCap (s : State) (n : Nat) : Cap :=
  let c := s.core n
  let i := s.fld (fXVn_SEL n)
  if s.flag (fPAGE_CTRL_FREEZE (exPg n)) = false then Cap.zero
  else if i < 16 then c.rdC i
  else if i = 16 then c.pcc
  else if i < 21 then c.rdS (i - 17)
  else Cap.zero

/-- Fills outstanding (R333): line fills, and global loads from code MRAM. -/
def fillsOut (n : Nat) (c : Core) : Nat :=
  c.fills.length + c.loads.countP fun l => n != 4 && decide (0x40000000 ≤ l.pa) && decide (l.pa < 0x41000000)
def epStat (s : State) (n : Nat) : Nat :=
  let c := s.core n
  fillsOut n c * 2 ^ 16 + c.lines.length * 2 ^ 8 + c.rasDepth * 2 ^ 4 + b2n (s.flag (fEPn_CTRL_BPEN n))
def exStat (s : State) (n : Nat) : Nat :=
  let c := s.core n
  b2n (coreStopped s n) * 2 ^ 8 + b2n c.df.isSome * 2 ^ 4 + c.sb.length

/-- Fields of an overridden phase of the last command frame (R274). -/
def povrOf (s : State) (p : Nat) : Nat := storeGet 0 (s.port (p / 8)).povr (p % 8)

/-- Registers whose value the block computes when they are read; `off` is the offset in page `pg`. -/
def viewOf (s : State) (pg off : Nat) : Option Nat :=
  let key := pg * 1024 + off / 4
  if off = 0xC then some (pageStat s pg).toNat
  else if key = rSAL_CECNT then some (storeGet 0 s.sal.ceCnt (s.fld fSAL_CESEL))
  else if key = rMX_OCNT then
    let p := s.fld fMX_OSEL
    some (max (storeGet 0 s.sal.peak p) (inFlight s p) * 2 ^ 16 + inFlight s p)
  else if key = rCRY_ACAP then some (cryA s)
  else if key = rCRY_SCAP then some (cryScap s)
  else if key = rCRY_GRACE then some (cryG s)
  else if pg = 0x111 ∧ 0x44 ≤ off ∧ off < 0x54 then some (slotPan s (loadList s) ((off - 0x44) / 4))
  else if pg = 0x111 ∧ 0x54 ≤ off ∧ off < 0x64 then some (loadCore s ((off - 0x54) / 4))
  else if key = rCRY_LSALT then some (slotS (loadList s))
  else if key = rCRY_LCHAIN then some (slotD (loadList s))
  else if pg = 0x112 ∧ 0x50 ≤ off ∧ off < 0x60 then
    some ((ttOf s (s.fld fCRY_TTIDX)).toNat / 2 ^ (8 * (off - 0x50)))
  else if key = rPAN_STAT then
    some (((List.range 4).map fun p => b2n (panBusy s p) * 2 ^ p + b2n (s.flag (fPANp_BGSTAT_HALT p)) * 2 ^ (4 + p)).sum)
  else if key = rPAN_QSTAT then
    some (s.pan.chainq.length * 2 ^ 16 + (((List.range 4).map fun p => (panOf s p).lq.length).sum))
  else if 0x121 ≤ pg ∧ pg ≤ 0x124 ∧ off = 0x44 then
    some ((s.rd key).toNat + (panOf s (pg - 0x121)).bq.length * 2 ^ 8)
  else if pg = 0x129 ∧ 0x50 ≤ off ∧ off < 0x60 then
    some ((csWord s 0 (0x2000 + s.fld fPCS_PADDR)).toNat / 2 ^ (8 * (off - 0x50)))
  else if key = rPCS_DDATA0 ∨ key = rPCS_DDATA1 then
    some (DispEnt.pack (s.fld fPCS_DIDX) (dispOf s (s.fld fPCS_DIDX)) / 2 ^ (8 * (off - 0x64)))
  else if pg = 0x100 ∧ 0x50 ≤ off ∧ off < 0x60 then some (rkWdataRead s ((off - 0x50) / 4)).toNat
  else if key = rRK_POVR then some (povrOf s (s.fld fRK_PSEL))
  else if key = rRK_PLATCH then
    some (storeGet 0 s.rk.lalt (s.fld fRK_PSEL) * 2 ^ 16 + storeGet 0 s.rk.lsafe (s.fld fRK_PSEL))
  else if key = rRK_PLATCHM then some (storeGet 0 s.rk.lmin (s.fld fRK_PSEL))
  else if 0x140 ≤ pg ∧ pg ≤ 0x143 ∧ off = 0x44 then some (epStat s (pg - 0x140))
  else if 0x140 ≤ pg ∧ pg ≤ 0x143 ∧ off = 0x80 then some (exStat s (pg - 0x140))
  else if 0x144 ≤ pg ∧ pg ≤ 0x147 ∧ off = 0x44 then some (b2n (xvCap s (pg - 0x144)).tag)
  else if 0x144 ≤ pg ∧ pg ≤ 0x147 ∧ 0x50 ≤ off ∧ off < 0x60 then
    some ((xvCap s (pg - 0x144)).bits.toNat / 2 ^ (8 * (off - 0x50)))
  else if 0x144 ≤ pg ∧ pg ≤ 0x147 ∧ off = 0x60 then some (s.core (pg - 0x144)).tlbq.length
  else if key = rQE_EQDROP then some (queueOf s (s.fld fQE_QSEL)).drop
  else if key = rQE_JFREE then some (jSize - s.fld fTJ_OCC)
  else if key = rPL_COUNT then
    some ((s.rd rPL_COUNT).toNat / 2 ^ 16 * 2 ^ 16 + plHeld s * 2 ^ 8 + plPresent s)
  else if key = rPT_NS then some (ptpNow s % 1000000000)
  else if key = rPT_SEC then some (ptpNow s / 1000000000)
  else if key = rPT_SEC + 1 then some (ptpNow s / 1000000000 / 2 ^ 32)
  else if pg = shPg ∧ 0x800 ≤ off then some (numAt s.sl.telBuf (off - 0x800) 4)
  else none

/-- The value of the word at `off` of page `pg`, side effects apart (R42, R45). -/
def wordOf (s : State) (pg off : Nat) : Word :=
  match pageKind pg with
  | .regs => match viewOf s pg off with | some v => BitVec.ofNat 32 v | none => s.rd (pg * 1024 + off / 4)
  | .msix => msixWord s (off / 4)
  | _ => 0

/-- 64-bit registers whose halves link (R61, R467, R469). -/
def linked (key : Nat) : Bool := key == rANGLE || key == rTICKNO || key == rSL_FCYC || key == rSH_ANGLE

/-- A 32-bit read by a master (R61; PT_NS latches PT_SEC). The H-die's masters are 128 (host) and 129 (S0). -/
def pageRead (master pg off : Nat) (s : State) : Word × State :=
  let key := pg * 1024 + off / 4
  if key = rSEC_RNG then rngRead s
  else if linked key then (s.rd key, lowRead master key s)
  else if linked (key - 1) then (highValue s master (key - 1), highRead master (key - 1) s)
  else if key = rPT_NS then
    (wordOf s pg off,
      { s with shadow := storeSet none (storeSet none s.shadow (shadowKey master rPT_SEC) (some (wordOf s pg 0x48)))
                 (shadowKey master (rPT_SEC + 1)) (some (wordOf s pg 0x4C)) })
  else if key = rPT_SEC ∨ key = rPT_SEC + 1 then
    ((storeGet none s.shadow (shadowKey master key)).getD (wordOf s pg off),
      { s with shadow := storeSet none s.shadow (shadowKey master key) none })
  else (wordOf s pg off, s)

/-! What a write of a register word does. -/

def tbCtrlWrite (v : Word) (s : State) : State :=
  let src := s.fld fTB_CTRL_SRC
  let s := tbSrcWrite (v.toNat % 4) (requestChanged ((plainWrite rTB_CTRL v s).setFld fTB_CTRL_SRC src))
  if natBit v.toNat 8 then tbLoad s else s

/-- A 32-bit write of half of a 64-bit register whose write acts on the whole. -/
def halfOf (s : State) (key : Nat) (high : Bool) (v : Word) : Nat :=
  if high then (s.rd key).toNat + v.toNat * 2 ^ 32 else v.toNat + (s.rd (key + 1)).toNat * 2 ^ 32

def tbWrite (off : Nat) (v : Word) (s : State) : State :=
  let key := 0x010 * 1024 + off / 4
  if key = rTB_CTRL then tbCtrlWrite v s
  else if key = rTB_N then tbNWrite (v.toNat % 2 ^ 21) s
  else if key = rTB_TICK_MIN then tbTickMinWrite (v.toNat % 2 ^ 16) s
  else if key = rRATE_HOLD then rateHoldWrite (halfOf s rRATE_HOLD false v) s
  else if key = rRATE_HOLD + 1 then rateHoldWrite (halfOf s rRATE_HOLD true v) s
  else if key = rTB_GRID_SRC then gridSrcWrite v s
  else plainWrite key v s

def acWrite (pg off : Nat) (v : Word) (s : State) : State :=
  let n := (pg - 0x011) * 16 + (off - 0x40) / 32
  let r := (off - 0x40) % 32
  if r = 0 then acCtrlWrite n v s
  else if r = 8 then acReloadWrite n (halfOf s (rACn_RELOAD n) false v) s
  else if r = 12 then acReloadWrite n (halfOf s (rACn_RELOAD n) true v) s
  else if r = 16 then acCmpWriteLow n v s
  else if r = 20 then acCmpWriteHigh n v s
  else plainWrite (pg * 1024 + off / 4) v s

def gtCtrlWrite (n : Nat) (v : Word) (s : State) : State :=
  let s := if natBit v.toNat 1 then gtClr n s else s
  gtRun n (natBit v.toNat 0) s

def gtWrite (pg off : Nat) (v : Word) (s : State) : State :=
  let n := pg - 0x020
  if off = 0x40 then gtCtrlWrite n v s
  else if off = 0x48 then gtCountWrite n v s
  else if off = 0x4C then gtReloadWrite n v s
  else if off = 0x68 then gtCmpWrite n 0 v s
  else if off = 0x78 then gtCmpWrite n 1 v s
  else plainWrite (pg * 1024 + off / 4) v s

def egWrite (pg off : Nat) (v : Word) (s : State) : State :=
  let g := pg - 0x040
  if off = 0x40 then egCtrlWrite g v s
  else if off = 0x50 then egSwPulse g v s
  else if 0x80 ≤ off ∧ off < 0xC0 then evCfgWrite (16 * g + (off - 0x80) / 4) v s
  else plainWrite (pg * 1024 + off / 4) v s

def blWrite (pg off : Nat) (v : Word) (s : State) : State :=
  let n := (pg - 0x080) / 2
  if pg % 2 = 0 ∧ off = 0x40 then blCtrlWrite n v s
  else if pg % 2 = 1 ∧ off = 0x44 then leaseWrite n v s
  else plainWrite (pg * 1024 + off / 4) v s

def rkCtrlWrite (v : Word) (s : State) : State :=
  let s := if natBit v.toNat 4 then rkMaxClr s else s
  let s := if natBit v.toNat 3 then rkEclr s else s
  let s := if natBit v.toNat 2 then rkUnlatchReq 512 s else s
  let s := if natBit v.toNat 1 then rkUnlatchReq (s.fld fRK_PSEL) s else s
  if natBit v.toNat 0 then rkSwapReq s else s

def rkWrite (pg off : Nat) (v : Word) (s : State) : State :=
  let key := pg * 1024 + off / 4
  if key = rRK_CTRL then rkCtrlWrite v s
  else if key = rRK_WSEL then rkWselWrite v s
  else if pg = 0x100 ∧ 0x50 ≤ off ∧ off < 0x60 then rkWdataWrite ((off - 0x50) / 4) v s
  else if key = rRK_TCTRL then
    let s := plainWrite key v s
    if natBit v.toNat 0 then rkTestGo s else s
  else plainWrite key v s

def cryWrite (pg off : Nat) (v : Word) (s : State) : State :=
  let key := pg * 1024 + off / 4
  if key = rCRY_OP then cryOpWrite v s
  else if key = rCRY_TTCTRL then ttCtrlWrite (natBit v.toNat 0) s
  else if pg = 0x112 ∧ 0x50 ≤ off ∧ off < 0x60 then ttDataWrite ((off - 0x50) / 4) v s
  else plainWrite key v s

/-- A write of PCS_CTRL; one that R205 refuses changes nothing. -/
def pcsCtrlWrite (v : Word) (s : State) : State :=
  let on := natBit v.toNat 0
  if on && nadmitOf s != 0 then patchRefuse s
  else
    let s := if natBit v.toNat 1 then pcsCeClr s else s
    if on then patchSet s else patchClear s

/-- Pan pages (R159, R165, R205); `core` is the core that writes, where one does. -/
def panWrite (core pg off : Nat) (v : Word) (s : State) : State :=
  let key := pg * 1024 + off / 4
  if 0x121 ≤ pg ∧ pg ≤ 0x124 ∧ off = 0x48 then bgCmdWrite (pg - 0x121) core v s
  else if pg = 0x125 ∧ 0x40 ≤ off ∧ off < 0x80 then
    let c := (off - 0x40) / 16
    if off % 16 = 0 then ringConfigWrite c false v s
    else if off % 16 = 4 then ringConfigWrite c true v s
    else if off % 16 = 12 then ringTailWrite c v s
    else plainWrite key v s
  else if key = rPCS_CTRL then pcsCtrlWrite v s
  else if pg = 0x129 ∧ 0x50 ≤ off ∧ off < 0x60 then patchWordWrite ((off - 0x50) / 4) v s
  else if key = rPCS_DDATA0 then dispatchWrite0 v s
  else if key = rPCS_DDATA1 then dispatchWrite1 v s
  else if key = rPCS_PATCHID then patchIdWrite v s
  else plainWrite key v s

def salRegWrite (pg off : Nat) (v : Word) (s : State) : State :=
  let key := pg * 1024 + off / 4
  if key = rSAL_CTRL then
    let s := if natBit v.toNat 1 then ceClr s else s
    if natBit v.toNat 0 then fillStart s else s
  else if pg = 0x130 ∧ 0x80 ≤ off ∧ off < 0xC0 then
    let i := (off - 0x80) / 4
    if natBit v.toNat 31 then rmapSet i (v.toNat % 2 ^ 22) s else rmapClear i (v.toNat % 2 ^ 22) s
  else plainWrite key v s

/-- EPn_CTRL: flushes and the counters (R343, R339, R350). -/
def lbFlush (n : Nat) (s : State) : State := s.mapCore n Core.flushLines
def bpFlush (n : Nat) (s : State) : State := s.mapCore n fun c => { c with btb := [], ras := [], rasTop := 0, rasDepth := 0, rasWrong := none }
def cntClr (n : Nat) (s : State) : State :=
  (List.range 10).foldl (fun t i => t.wr (rEPn_BUNDLES n + i) 0)
    (((s.setFld (fEXn_COUNT n) 0).setFld (fEXn_MAXSPAN n) 0).setFld (fEXn_CUTS n) 0)
def epCtrlWrite (n : Nat) (v : Word) (s : State) : State :=
  let s := plainWrite (rEPn_CTRL n) v s
  let s := if natBit v.toNat 6 then cntClr n s else s
  let s := if natBit v.toNat 5 then lbFlush n s else s
  if natBit v.toNat 4 then bpFlush n s else s

def tjCtrlWrite (v : Word) (s : State) : State :=
  let s := if natBit v.toNat 0 then replay s else s
  if natBit v.toNat 1 then tjRelease s else s

def slWrite (off : Nat) (v : Word) (s : State) : State :=
  let key := 0x150 * 1024 + off / 4
  if key = rSL_CTRL then
    let p := s.fld fSL_CTRL_PAIRDIS
    pairDisWrite (v.toNat % 16) ((plainWrite key (BitVec.ofNat 32 (v.toNat / 16 * 16 + p)) s))
  else if key = rTJ_CTRL then tjCtrlWrite v s
  else plainWrite key v s

def qeWrite (off : Nat) (v : Word) (s : State) : State :=
  let key := 0x1020 * 1024 + off / 4
  if key = rQE_QOP then qopWrite v s
  else if key = rQE_EQDROP then
    (if v = 0 then
      let q := s.fld fQE_QSEL
      s.setQueue q { queueOf s q with drop := 0 }
    else s)
  else plainWrite key v s

/-- A block register at offset 0x040 or above of an allocated page. -/
def blockWrite (core pg off : Nat) (v : Word) (s : State) : State :=
  let key := pg * 1024 + off / 4
  if pg = 0x010 then tbWrite off v s
  else if pg = 0x011 ∨ pg = 0x012 then (if 0x40 ≤ off ∧ off < 0x240 then acWrite pg off v s else s)
  else if 0x020 ≤ pg ∧ pg ≤ 0x03F then gtWrite pg off v s
  else if 0x040 ≤ pg ∧ pg ≤ 0x04F then egWrite pg off v s
  else if 0x080 ≤ pg ∧ pg ≤ 0x0FF then blWrite pg off v s
  else if pg = 0x100 ∨ pg = 0x101 then rkWrite pg off v s
  else if 0x110 ≤ pg ∧ pg ≤ 0x112 then cryWrite pg off v s
  else if 0x120 ≤ pg ∧ pg ≤ 0x129 then panWrite core pg off v s
  else if pg = 0x130 ∨ pg = 0x131 then salRegWrite pg off v s
  else if 0x140 ≤ pg ∧ pg ≤ 0x143 ∧ off = 0x40 then epCtrlWrite (pg - 0x140) v s
  else if pg = 0x150 then slWrite off v s
  else if key = rPWR_MODE then pwrModeWrite v s
  else if key = rBWCTL then bwctlWrite v s
  else if key = rRST_CTRL then rstCtrlWrite v s
  else if key = rFC_CTRL then fcCtrlWrite v s
  else if key = rSEC_CTRL then secCtrlWrite v s
  else if key = rPL_CTRL then
    (let s := plainWrite key v s
     if natBit v.toNat 4 then joinWrite s else s)
  else if pg = 0x1020 then qeWrite off v s
  else if key = rPT_STEP then ptStep (signedOf 32 v.toNat) s
  else if key = rHP_CTRL then hpCtrlWrite v s
  else if key = rPN_CTRL then pnCtrlWrite v s
  else if pg = pnPg ∧ 0x60 ≤ off ∧ off < 0x70 then ledWrite ((off - 0x60) / 4) v s
  else plainWrite key v s

/-! The page header (R38 to R40, R568 to R570). -/

/-- A W1C write of EV_PEND. -/
def evPendClear (pg : Nat) (v : Word) (s : State) : State := s.wr (rEV_PEND pg) (s.rd (rEV_PEND pg) &&& ~~~v)

/-- A write of EV_EN: an episode begins for each bit that it enables and that is already pending, one whose record an
earlier enable has posted included (log 114). All 32 bits are stored (log 122). -/
def evEnWrite (pg : Nat) (v : Word) (s : State) : State :=
  let old := s.rd (rEV_EN pg)
  (List.range 32).foldl (fun t b =>
    if natBit v.toNat b ∧ natBit old.toNat b = false ∧ pendBit t pg b then episode 34 pg b t else t) (s.wr (rEV_EN pg) v)

def evRouteWrite (pg : Nat) (v : Word) (s : State) : State :=
  let v := BitVec.ofNat 32 (Nat.land v.toNat 0x8000FFFF)
  if locked s pg then (if v = s.rd (rEV_ROUTE pg) then s else s.setFlag (fPAGE_STAT_REFUSED pg) true)
  else s.wr (rEV_ROUTE pg) v

def pageLockSet (pg : Nat) (s : State) : State := s.setFlag (fPAGE_LOCK_LOCK pg) true

/-- A change of PAGE_CTRL.EN. -/
def pageEnWrite (pg : Nat) (on : Bool) (s : State) : State :=
  if on = pageEn s pg then s
  else if locked s pg then s.setFlag (fPAGE_STAT_REFUSED pg) true
  else if pg = 0x010 then (if on then tbEnable s else tbDisable s)
  else if 0x080 ≤ pg ∧ pg ≤ 0x0FF ∧ pg % 2 = 0 then linkEnWrite ((pg - 0x080) / 2) on s
  else if pg = 0x100 then rkEnWrite on s
  else if pg = 0x110 then cryEnWrite on s
  else if pg = 0x120 then panEnWrite on s
  else s.setFlag (fPAGE_CTRL_EN pg) on

/-- PAGE_CTRL.FREEZE: records held by a freeze are posted when it ends; a core's queued invalidations are applied under
R396 by TLBI_APPLY. -/
def freezeWrite (pg : Nat) (on : Bool) (s : State) : State :=
  let s := s.setFlag (fPAGE_CTRL_FREEZE pg) on
  let s := if pg = tbPg ∧ tbEn s then segMark s else s
  if on then (if (freezeGroup pg).contains 0x110 then s.crySet fun c => { c with frozeAt := true } else s) else releaseHeld s

/-- Staging words: a write of the last one stores an entry, which RST does not do (R569). -/
def isStaging (key : Nat) : Bool :=
  (rCRY_TTDATAi 0 ≤ key && key ≤ rCRY_TTDATAi 3) || (rPCS_PDATAi 0 ≤ key && key ≤ rPCS_PDATAi 3) || key == rPCS_DDATA0 ||
  key == rPCS_DDATA1 || (rRK_WDATAi 0 ≤ key && key ≤ rRK_WDATAi 3)
/-- The staged value of a staging word; the last word of each set is written through to its entry. -/
def staged (s : State) (key : Nat) : Word :=
  if key < rRK_WDATAi 0 + 4 then storeGet 0 s.rk.stage (key - rRK_WDATAi 0)
  else if key < rCRY_TTDATAi 0 + 4 then storeGet 0 s.cry.ttStage (key - rCRY_TTDATAi 0)
  else if key = rPCS_DDATA0 then s.pan.ddata0
  else if key = rPCS_DDATA1 then 0
  else storeGet 0 s.pan.pdata (key - rPCS_PDATAi 0)
def stageReset (key : Nat) (s : State) : State :=
  if key < rRK_WDATAi 0 + 4 then s.rkSet fun r => { r with stage := storeSet 0 r.stage (key - rRK_WDATAi 0) 0 }
  else if key < rCRY_TTDATAi 0 + 4 then s.crySet fun r => { r with ttStage := storeSet 0 r.ttStage (key - rCRY_TTDATAi 0) 0 }
  else if key = rPCS_DDATA0 then s.panSet fun r => { r with ddata0 := 0 }
  else if key = rPCS_DDATA1 then s
  else s.panSet fun r => { r with pdata := storeSet 0 r.pdata (key - rPCS_PDATAi 0) 0 }

/-- Writes that the block's chapter would refuse or ignore now (R52, R65, R102, R165, R205, R271, R403). -/
def rstRefused (s : State) (pg off : Nat) : Bool :=
  let key := pg * 1024 + off / 4
  if key = rTB_N ∨ key = rTB_TICK_MIN then nadmit s != 0
  else if (pg = 0x011 ∨ pg = 0x012) ∧ 0x40 ≤ off ∧ off < 0x240 ∧ ((off - 0x40) % 32 = 8 ∨ (off - 0x40) % 32 = 12) then
    s.flag (fACn_CTRL_EN ((pg - 0x011) * 16 + (off - 0x40) / 32))
  else if 0x020 ≤ pg ∧ pg ≤ 0x03F ∧ (off = 0x48 ∨ off = 0x4C) then s.flag (fGTn_CTRL_RUN (pg - 0x020))
  else if rCRY_TTDATAi 0 ≤ key ∧ key ≤ rCRY_TTDATAi 3 then nadmit s != 0
  else if key = rRK_WSEL then s.flag fRK_STAT_SWAPPEND
  else if rRK_WDATAi 0 ≤ key ∧ key ≤ rRK_WDATAi 3 then s.flag fRK_STAT_SWAPPEND || s.flag fRK_WSEL_ACTRD
  else if pg = 0x125 ∧ 0x40 ≤ off ∧ off < 0x80 ∧ off % 16 < 8 then
    let c := (off - 0x40) / 16
    ringUnread s c != 0 || ringResv s c != 0
  else if key = rPCS_PATCHID ∨ key = rPCS_PDATAi 3 ∨ key = rPCS_DDATA1 then !patchReady s
  else false

/-- The word RST writes: the reset values of the RW, RWL and W1C fields that are not Retained. The present value of a
Retained field leaves it as it is, as a 1 does an RO counter; W1S and WO fields get nothing (R569). -/
def rstWord (s : State) (key : Nat) : Word :=
  let w := Nat.land (regDflt key).toNat (fieldMask key fun f => isWritable f && !f.retained)
  let k := Nat.land (s.rd key).toNat (fieldMask key fun f => f.retained)
  BitVec.ofNat 32 (Nat.lor (Nat.lor w k) (Nat.lor (fieldMask key isW1c) (fieldMask key isRoz)))

/-- The word has a field that RST writes. -/
def rstActs (key : Nat) : Bool :=
  fieldMask key (fun f => !f.retained && (isWritable f || isW1c f || decide (f.acc = .rwz))) != 0

/-- RST at one register word; `s0` is the state in which RST is performed, which judges refusals. A refused field that
holds its reset value sets nothing (log 121). -/
def rstOne (s0 : State) (pg off : Nat) (s : State) : State :=
  let key := pg * 1024 + off / 4
  if rstActs key = false then s
  else if rstRefused s0 pg off then
    let same := if isStaging key then staged s0 key = 0 else s0.rd key = regDflt key
    if same then s else s.setFlag (fPAGE_STAT_REFUSED pg) true
  else if isStaging key then stageReset key s
  else blockWrite 0 pg off (rstWord s0 key) s

/-- PAGE_CTRL.RST (R569). -/
def pageRst (pg : Nat) (s : State) : State :=
  if locked s pg then s.setFlag (fPAGE_STAT_REFUSED pg) true
  else ((List.range 1008).filter fun i => (regAt pg (64 + 4 * i)).isSome).foldl (fun t i => rstOne s pg (64 + 4 * i) t) s

/-- A write of PAGE_CTRL; FREEZE changes only for a master that holds DEBUG. -/
def pageCtrlWrite (dbg : Bool) (pg : Nat) (v : Word) (s : State) : State :=
  let s := pageEnWrite pg (natBit v.toNat 0) s
  let s := if dbg ∧ natBit v.toNat 2 ≠ s.flag (fPAGE_CTRL_FREEZE pg) then freezeWrite pg (natBit v.toNat 2) s else s
  if natBit v.toNat 1 then pageRst pg s else s

def headerWrite (dbg : Bool) (pg off : Nat) (v : Word) (s : State) : State :=
  if off = 0x8 then pageCtrlWrite dbg pg v s
  else if off = 0xC then (if natBit v.toNat 3 then s.setFlag (fPAGE_STAT_REFUSED pg) false else s)
  else if off = 0x10 then evPendClear pg v s
  else if off = 0x14 then evEnWrite pg v s
  else if off = 0x18 then evRouteWrite pg v s
  else if off = 0x1C then (if natBit v.toNat 0 then pageLockSet pg s else s)
  else s

/-- A 32-bit write of an allocated page. -/
def pageWrite (dbg : Bool) (core pg off : Nat) (v : Word) (s : State) : State :=
  match pageKind pg with
  | .regs => if off < 0x40 then headerWrite dbg pg off v s else blockWrite core pg off v s
  | .msix => msixWrite (off / 4) v s
  | _ => s

/-- A 64-bit write of a 64-bit register (R41). -/
def pageWrite64 (core pg off v : Nat) (s : State) : State :=
  let lo := BitVec.ofNat 32 v
  let hi := BitVec.ofNat 32 (v / 2 ^ 32)
  let key := pg * 1024 + off / 4
  if key = rRATE_HOLD then rateHoldWrite v s
  else if (pg = 0x011 ∨ pg = 0x012) ∧ 0x40 ≤ off ∧ off < 0x240 ∧ (off - 0x40) % 32 = 8 then
    acReloadWrite ((pg - 0x011) * 16 + (off - 0x40) / 32) v s
  else if (pg = 0x011 ∨ pg = 0x012) ∧ 0x40 ≤ off ∧ off < 0x240 ∧ (off - 0x40) % 32 = 16 then
    acCmpWrite64 ((pg - 0x011) * 16 + (off - 0x40) / 32) v s
  else blockWrite core pg (off + 4) hi (blockWrite core pg off lo s)

/-- The width and alignment of R41; page 0x12 takes 32-bit accesses, and reserved offsets take both (R42). -/
def pageWidthOk (pg off size : Nat) : Bool :=
  (size == 4 && off % 4 == 0) ||
  (size == 8 && off % 8 == 0 && (match regAt pg off with | some r => r.w64 && r.part off == 0 | none => false))

/-- A read by a master of `n` bytes in a register page: bytes, little-endian. -/
def busRead (die : Die) (master addr pg off n : Nat) (s : State) : List Byte × State :=
  if pageKind pg = .none ∨ pageWidthOk pg off n = false then (List.replicate n 0, decodeErr die addr master false s)
  else if n = 8 then (bytesOfNat 4 (wordOf s pg off).toNat ++ bytesOfNat 4 (wordOf s pg (off + 4)).toNat, s)
  else
    let r := pageRead master pg off s
    (bytesOfNat 4 r.1.toNat, r.2)

/-- The core number of a master port of the F-die. -/
def coreOfPort (m : Nat) : Nat := if 77 ≤ m ∧ m ≤ 80 then m - 77 else 0

def busWrite (die : Die) (dbg : Bool) (master addr pg off : Nat) (bs : List Byte) (s : State) : State :=
  let n := bs.length
  if pageKind pg = .none ∨ pageWidthOk pg off n = false then decodeErr die addr master true s
  else if n = 8 then pageWrite64 (coreOfPort master) pg off (natOfBytes bs) s
  else pageWrite dbg (coreOfPort master) pg off (BitVec.ofNat 32 (natOfBytes bs)) s

/-! Masters outside the Essan cores. -/

/-- H-die pages the host may write (R36). -/
def hostWrites (pg : Nat) : Bool :=
  let h := pg - 0x1000
  (0x10 ≤ h && h ≤ 0x13) || (0x20 ≤ h && h ≤ 0x3F) || h == 0x50 || h == 0x51 || h == 0x58 || h == 0x60

/-- The W1C bits of `set`, which the block sets in the cycle of the write, are not cleared by it (R40, log 123). -/
def sameCycle (die : Die) (pg off : Nat) (set v : Word) : Word :=
  let p := match die with | .F => pg | .H => 0x1000 + pg
  v &&& ~~~(set &&& BitVec.ofNat 32 (w1cMask (p * 1024 + off / 4)))

/-- A 32-bit write of a register page from outside the cores: on the F-die the debug agent (port 82), on the H-die the
host (R36). Addresses are as R573 reports them. -/
def regWriteRow (die : Die) (pg off : Nat) (v : Word) (s : State) : State :=
  match die with
  | .F => busWrite .F true 82 (0xF0000000 + pg * 4096 + off) pg off (bytesOfNat 4 v.toNat) s
  | .H =>
    let p := 0x1000 + pg
    if pageKind p ≠ .none ∧ hostWrites p = false then decodeErr .H (pg * 4096 + off) 0 true s
    else busWrite .H true 0 (pg * 4096 + off) p off (bytesOfNat 4 v.toNat) s

end Sys2Proof.Machine
end

