-- ==== Sys2Proof/Machine/Access.lean ====
section
/-!
DEFINITION. Sys2Proof/Machine/Access.lean: how an Essan core reaches memory: the checks of R290 through a capability, the
three translation modes (R384 to R400), and physical reads and writes (R31, R32, R43, R113).
-/
namespace Sys2Proof.Machine

/-- A synchronous exception (R353): its vector, EINFO, and the address of XBADVA where the vector writes it (R399). -/
structure Trap where
  vec : Nat
  info : Nat
  va : Option Nat
deriving DecidableEq, Repr

def trapOf (vec info : Nat) : Trap := ⟨vec, info % 2 ^ 32, none⟩

def vBUNDLE : Nat := 0x01
def vOP : Nat := 0x02
def vSYSAUTH : Nat := 0x03
def vALIGN : Nat := 0x04
def vLOCAL : Nat := 0x05
def vTAG : Nat := 0x06
def vSEAL : Nat := 0x07
def vPERM : Nat := 0x08
def vBOUND : Nat := 0x09
def vSALT : Nat := 0x0A
def vMEM : Nat := 0x0B
def vSPILL : Nat := 0x0C
def vLOOP : Nat := 0x0D
def vREP : Nat := 0x0E
def vBCD : Nat := 0x0F
def vTRAP : Nat := 0x10
def vMISS : Nat := 0x11
def vMISS2 : Nat := 0x12
def vWALK : Nat := 0x13
def vXLATE : Nat := 0x14
def vOVERRUN : Nat := 0x18
def vLAUNCH : Nat := 0x20

/-! Who accesses. -/

/-- The die, and the master number of a core (R122, R573). -/
def coreDie (n : Nat) : Die := if n = 4 then .H else .F
def coreMaster (n : Nat) : Nat := if n = 4 then 1 else 77 + n

/-- The kinds of access that the checks and the translation tell apart. -/
inductive AccKind where
  | load | store | fetch | kld | kst | panq | ldw
deriving DecidableEq, Repr

/-- KIND of EINFO (R399). -/
def AccKind.kind : AccKind → Nat
  | .store => 1
  | .kst => 1
  | .fetch => 2
  | .ldw => 3
  | _ => 0
def AccKind.writes (a : AccKind) : Bool := a == .store || a == .kst

/-! The checks of R290. -/

/-- The register page that an address names, with its offset. -/
def pageAt (die : Die) (a : Nat) : Option (Nat × Nat) :=
  match regionOf die a with
  | .page pg off => some (pg, off)
  | _ => none

/-- The permissions that register tables name (R34, R205, R401). -/
def regPerms (pg off : Nat) (write : Bool) : List Nat :=
  if pg = 0x000 ∨ pg = 0x1000 then (if write then [pSYS] else [])
  else if 0x100 ≤ pg ∧ pg ≤ 0x10F then [pRAKE]
  else if pg = 0x112 then [pCRYSTAL, pPATCH]
  else if 0x110 ≤ pg ∧ pg ≤ 0x11F then [pCRYSTAL]
  else if pg = 0x129 ∧ 0x44 ≤ off ∧ off < 0x70 then [pPAN, pPATCH]
  else if 0x120 ≤ pg ∧ pg ≤ 0x12F then [pPAN]
  else if 0x144 ≤ pg ∧ pg ≤ 0x147 then [pSYS, pDEBUG]
  else if pg = 0x180 then [pLINK]
  else [pSYS]

/-- What a store of `v` needs beyond that: DEBUG to change FREEZE (R38), PATCH to change PATCHEN (R206). -/
def storePerms (s : State) (pg off v : Nat) : List Nat :=
  (if off = 0x8 ∧ pageKind pg = .regs ∧ natBit v 2 ≠ s.flag (fPAGE_CTRL_FREEZE pg) then [pDEBUG] else []) ++
  (if pg * 1024 + off / 4 = rPCS_CTRL ∧ natBit v 0 ≠ s.flag fPCS_CTRL_PATCHEN then [pPATCH] else [])

/-- Permissions of the access itself (R290, R314, R382); `tagged` for a KST of a tagged value. -/
def accPerms (a : AccKind) (tagged : Bool) : List Nat :=
  match a with
  | .load => [pLOAD]
  | .store => [pSTORE]
  | .fetch => [pEXEC]
  | .kld => [pLOAD, pLOADCAP]
  | .kst => if tagged then [pSTORE, pSTORECAP] else [pSTORE]
  | .panq => [pLOAD, pPAN]
  | .ldw => []

/-- Permissions that step 3 of R290 asks for at address `ea`; `v` is the value of a store. -/
def needPerms (s : State) (die : Die) (a : AccKind) (tagged : Bool) (ea size v : Nat) : List Nat :=
  accPerms a tagged ++
  (match pageAt die ea with
   | some (pg, off) =>
     if pageKind pg = .none then [pMMIO]
     else pMMIO :: regPerms pg off a.writes ++ (if a.writes && size == 4 then storePerms s pg off v else [])
   | none => []) ++
  (if a.writes && decide (die = .F) && decide (0x40F00000 ≤ ea) && decide (ea < 0x41000000) then [pJOURNAL] else [])

/-- The checks of R290 in their order; EINFO is the address. -/
def capCheck (s : State) (die : Die) (a : AccKind) (tagged : Bool) (k : Cap) (ea size align v : Nat) : Option Trap :=
  if k.live = false then some (trapOf vTAG ea)
  else if k.sealed then some (trapOf vSEAL ea)
  else if (needPerms s die a tagged ea size v).all k.perm = false then some (trapOf vPERM ea)
  else if k.covers ea size = false then some (trapOf vBOUND ea)
  else if ea % align ≠ 0 then some (trapOf vALIGN ea)
  else none

/-! Translation. -/

/-- A physical address with what the later checks ask of the translation: attribute bits of R401, no U guard in OFF
mode, and the block used (R389). -/
structure Xl where
  pa : Nat
  attr : Nat
  guarded : Bool
  blk : Option Nat
deriving DecidableEq, Repr

def blkOf (c : Core) (i : Nat) : Blk := storeGet Blk.zero c.blk i
def tlbOf (c : Core) (j : Nat) : TlbEnt := storeGet TlbEnt.zero c.tlb j

/-- Block i matches a virtual address (R386). -/
def blkMatch (c : Core) (i va : Nat) : Bool :=
  let b := blkOf c i
  let at' := b.attr.toNat
  natBit at' 31 && (natBit at' 5 || natBits at' 16 12 == c.asid) &&
  decide (b.vb * 4096 ≤ va) && decide (va < b.vb * 4096 + b.len * 4096)

/-- The page bits of SZ (R390). -/
def tlbShift (attr : Nat) : Nat := match natBits attr 28 2 with | 0 => 12 | 1 => 16 | _ => 21

/-- An entry covers an address, ASID apart. -/
def tlbCovers (e : TlbEnt) (va : Nat) : Bool :=
  let at' := e.attr.toNat
  natBit at' 31 && natBits at' 28 2 != 3 && va / 2 ^ tlbShift at' == e.va * 4096 / 2 ^ tlbShift at'
def tlbMatch (asid : Nat) (e : TlbEnt) (va : Nat) : Bool :=
  tlbCovers e va && (natBit e.attr.toNat 5 || natBits e.attr.toNat 16 12 == asid)

def tlbFind (c : Core) (va : Nat) : Option Nat := (List.range 64).find? fun j => tlbMatch c.asid (tlbOf c j) va

def blkPa (c : Core) (i va : Nat) : Nat := ((blkOf c i).pb * 4096 + va - (blkOf c i).vb * 4096) % 2 ^ 40
def tlbPa (e : TlbEnt) (va : Nat) : Nat :=
  let p := 2 ^ tlbShift e.attr.toNat
  e.pa * 4096 / p * p + va % p

/-- Some level in use holds a miss (R391). -/
def missHeld (c : Core) : Bool :=
  c.sb.any fun l => natBits l.cause.toNat 0 7 == vMISS || natBits l.cause.toNat 0 7 == vMISS2

def xlFault (a : AccKind) (reason va : Nat) : Trap := ⟨vXLATE, reason * 16 + a.kind, some va⟩

/-- Lookup (R385, R386, R390, R391). S0 translates only in OFF mode (R400). -/
def lookup (n : Nat) (c : Core) (a : AccKind) (va : Nat) : Except Trap Xl :=
  if n = 4 ∨ c.blkMode = 0 then
    .ok ⟨va, 0x07 + (if 0xF0000000 ≤ va ∧ va ≤ 0xFFFEFFFF ∧ a = .ldw then 16 else 0), false, none⟩
  else if c.blkMode = 1 then
    match (List.range 16).find? fun i => blkMatch c i va with
    | some i => .ok ⟨blkPa c i va, (blkOf c i).attr.toNat % 32, true, some i⟩
    | none => .error (xlFault a 1 va)
  else if blkMatch c 0 va then .ok ⟨blkPa c 0 va, (blkOf c 0).attr.toNat % 32, true, some 0⟩
  else
    match tlbFind c va with
    | some j => .ok ⟨tlbPa (tlbOf c j) va, (tlbOf c j).attr.toNat % 32, true, none⟩
    | none => .error ⟨if missHeld c then vMISS2 else vMISS, a.kind, some va⟩

/-- R, W, X, the U guard and DEV, in this order (R387, R388, R399); `k` is the capability used. -/
def xlCheck (c : Core) (a : AccKind) (k : Cap) (va : Nat) (x : Xl) : Option Trap :=
  let sys := c.pcc.perm pSYS
  let u := natBit x.attr 3
  if a = .fetch ∧ natBit x.attr 2 = false then some (xlFault a 4 va)
  else if a.writes ∧ natBit x.attr 1 = false then some (xlFault a 3 va)
  else if a ≠ .fetch ∧ a.writes = false ∧ natBit x.attr 0 = false then some (xlFault a 2 va)
  else if x.guarded ∧ sys ∧ u ∧ a = .fetch then some (xlFault a 6 va)
  else if x.guarded ∧ sys ∧ u ∧ k.perm pUSERREACH = false then some (xlFault a 7 va)
  else if x.guarded ∧ sys = false ∧ u = false then some (xlFault a 8 va)
  else if natBit x.attr 4 ∧ (a = .fetch ∨ a = .kld ∨ a = .kst ∨ a = .panq) then some (xlFault a 5 va)
  else none

def translate (n : Nat) (c : Core) (a : AccKind) (k : Cap) (va : Nat) : Except Trap Xl :=
  match lookup n c a va with
  | .error t => .error t
  | .ok x => match xlCheck c a k va x with | some t => .error t | none => .ok x

/-- Translation of LDW (R393): R, W, X and U are ignored; a DEV translation or another place than memory is WALK_DEVICE,
with EINFO 0 when the address is not decoded. -/
def translateWalk (n : Nat) (c : Core) (va : Nat) : Except Trap Xl :=
  match lookup n c .ldw va with
  | .error t => .error t
  | .ok x =>
    let r := regionOf (coreDie n) x.pa
    let decoded : Bool := match r with | .none => false | .page pg _ => pageKind pg != .none | _ => true
    let mem : Bool := match r with | .none => false | .page _ _ => false | _ => true
    if natBit x.attr 4 ∨ mem = false then .error ⟨vWALK, if decoded then x.pa % 2 ^ 32 else 0, some va⟩ else .ok x

/-- The A and D bits that a checked access sets (R389). -/
def adSet (a : AccKind) (x : Xl) (c : Core) : Core :=
  match x.blk with
  | none => c
  | some i =>
    if c.adtrack then
      let b := blkOf c i
      { c with blk := storeSet Blk.zero c.blk i { b with attr := b.attr ||| (if a.writes then 0xC0 else 0x80) } }
    else c

/-- A data access through a capability: its checks, then its translation (R290, R399). -/
def dataAccess (s : State) (n : Nat) (c : Core) (a : AccKind) (tagged : Bool) (k : Cap) (ea size align v : Nat) :
    Except Trap Xl :=
  match capCheck s (coreDie n) a tagged k ea size align v with
  | some t => .error t
  | none => translate n c a k ea

/-! Fetch (R298, R374, R376, R399). -/

/-- PCC is checked for its tag, its seal, EXEC, and bounds. -/
def fetchCap (c : Core) (pc len : Nat) : Option Trap :=
  if c.pcc.live = false then some (trapOf vTAG pc)
  else if c.pcc.sealed then some (trapOf vSEAL pc)
  else if c.pcc.perm pEXEC = false then some (trapOf vPERM pc)
  else if pc % 4 ≠ 0 then some (trapOf vALIGN pc)
  else if c.pcc.covers pc len = false then some (trapOf vBOUND pc)
  else none

/-- The place a bundle of `len` bytes at `pc` is fetched from. -/
def fetchXl (n : Nat) (c : Core) (pc len : Nat) : Except Trap Xl :=
  match fetchCap c pc len with
  | some t => .error t
  | none => translate n c .fetch c.pcc pc

/-! Physical accesses. -/

def lmBad (s : State) (a n : Nat) : Bool := (List.range n).any fun i => storeGet false s.lmErr (a + i)

/-- The exception of an uncorrectable read (R113, R353). -/
def readFault (s : State) (die : Die) (pa size : Nat) : Option Trap :=
  match regionOf die pa with
  | .saltern a => if salBad s a (min size (salSize - a)) then some (trapOf vSALT pa) else none
  | .lmem a => if lmBad s a size then some (trapOf vMEM pa) else none
  | .mram o => if lmBad s (0x40000000 + o) size then some (trapOf vMEM pa) else none
  | _ => none

/-- A physical read by a core: its bytes, and what the read does (R32, R61, R112, R113). -/
def coreRead (n pa size : Nat) (s : State) : List Byte × State :=
  match regionOf (coreDie n) pa with
  | .page pg off => busRead (coreDie n) (coreMaster n) pa pg off size s
  | .saltern a => (memBytes s (.saltern a) size, salReadFx (coreMaster n) a (min size (salSize - a)) s)
  | .none => (List.replicate size 0, decodeErr (coreDie n) pa (coreMaster n) false s)
  | r => (memBytes s r size, s)

/-- The bytes a core would read, without what the read does. -/
def peekBytes (s : State) (n pa size : Nat) : List Byte :=
  match regionOf (coreDie n) pa with
  | .page pg off => (busRead (coreDie n) (coreMaster n) pa pg off size s).1
  | r => memBytes s r size

/-- A store invalidates the matching line in the core's own line buffers (R342). -/
def dropLine (n pa : Nat) (s : State) : State :=
  s.mapCore n fun c => { c with lines := c.lines.filter fun l => l.line != pa / 64 }

/-- The tag of the granule at a physical address; outside the Saltern there is none (R382). -/
def paTag (s : State) (n pa : Nat) : Bool := match regionOf (coreDie n) pa with | .saltern a => salTag s a | _ => false
/-- Bytes and tag of a pending read as they stand. -/
def earlyOf (s : State) (n : Nat) (pa size : Nat) : List Byte × Bool := (peekBytes s n pa size, paTag s n pa)
/-- A pending read keeps what its place held before a later store of the same core (R279, R287). -/
def holdEarly (n pa k : Nat) (s : State) : State :=
  let hold := fun (l : PLoad) =>
    if l.early.isNone && decide (l.pa < pa + k) && decide (pa < l.pa + l.size) then
      { l with early := some (earlyOf s n l.pa l.size) }
    else l
  s.mapCore n fun c => { c with loads := c.loads.map hold }

/-- A physical write by a core; a change of FREEZE has been checked for DEBUG. -/
def coreWrite (n pa : Nat) (bs : List Byte) (s : State) : State :=
  match regionOf (coreDie n) pa with
  | .page pg off => busWrite (coreDie n) true (coreMaster n) pa pg off bs s
  | _ => memWrite (coreDie n) pa (coreMaster n) bs (dropLine n pa (holdEarly n pa bs.length s))

/-- A capability store: the tag is kept within the Saltern only (R382). -/
def coreWriteCap (n pa : Nat) (k : Cap) (s : State) : State :=
  let bs := bytesOfNat 16 k.bits.toNat
  match regionOf (coreDie n) pa with
  | .saltern a => salWriteCap a bs k.tag (portTouch (coreMaster n) (dropLine n pa (holdEarly n pa 16 s)))
  | _ => coreWrite n pa bs s

/-- The capability that KLD delivers from the tag and the bytes it read (R374, R382). -/
def capOfBytes (tag : Bool) (bs : List Byte) : Cap :=
  let k : Cap := ⟨tag, BitVec.ofNat 128 (natOfBytes bs)⟩
  ⟨k.live, k.bits⟩

/-- A place whose code comes in lines (R331): not the core's own code RAM, nor a register page. -/
def lineRegion (n pa : Nat) : Bool :=
  match regionOf (coreDie n) pa with
  | .lmem a => a / 0x100000 % 4 != n || n == 4
  | .page _ _ => false
  | .none => false
  | _ => true
/-- The 64 bytes of a line as memory holds them, none for one that reads uncorrectable. -/
def lineBytes (s : State) (n line : Nat) : List (Option Byte) :=
  (List.range 64).map fun i =>
    match readFault s (coreDie n) (64 * line + i) 1 with
    | some _ => none
    | none => (memBytes s (regionOf (coreDie n) (64 * line + i)) 1).head?
/-- The four bytes of a syllable at a physical address as fetch sees them: those of its line buffer, or of memory; pages and
undecoded addresses read as zero (R331, R343). -/
def codeBytes (s : State) (n : Nat) (c : Core) (pa : Nat) : List (Option Byte) :=
  match if lineRegion n pa then c.lines.find? fun l => l.line == pa / 64 else none with
  | some l => (l.bytes.drop (pa % 64)).take 4
  | none => ((lineBytes s n (pa / 64)).drop (pa % 64)).take 4

/-- Saltern beats that an access uses (R90): 64-byte beats its bytes touch. -/
def beatsOf (n pa size : Nat) : Nat :=
  match regionOf (coreDie n) pa with
  | .saltern a => if size = 0 then 0 else (a + size - 1) / 64 - a / 64 + 1
  | _ => 0

end Sys2Proof.Machine
end

