-- ==== Sys2Proof/Machine/Flags.lean ====
section
/-!
DEFINITION. Sys2Proof/Machine/Flags.lean: the results and flags that the Essan operations compute from operand values
(R291 to R294, R297, R310, R311, R317 to R321). Operands are the numbers that the registers hold; flags are those of
Float.lean, of which SAT stands for ISAT.
-/
namespace Sys2Proof.Machine
open Sys2Proof

def w32 (x : Int) : Nat := wrapTo 32 x
def sxt (w v : Nat) : Nat := w32 (signedOf w v)

/-- Leading zeros of a 32-bit number. -/
def clz32 (a : Nat) : Nat := 32 - bitLen (a % 2 ^ 32)
/-- Ones of a 32-bit number. -/
def popc32 (a : Nat) : Nat := (List.range 32).countP fun i => natBit a i

/-- Shifts and the rotation (R291). -/
def shiftFn (k a c : Nat) : Nat :=
  match k with
  | 0 => a * 2 ^ c % 2 ^ 32
  | 1 => a / 2 ^ c
  | 2 => w32 (signedOf 32 a / 2 ^ c)
  | _ => (a / 2 ^ c + a * 2 ^ (32 - c)) % 2 ^ 32

/-- The ALU group (R291). -/
def aluRes (fn : AluFn) (a b : Nat) : FR :=
  let x := signedOf 32 a
  let y := signedOf 32 b
  match fn with
  | .add => ⟨(a + b) % 2 ^ 32, 0⟩
  | .sub => ⟨w32 ((a : Int) - b), 0⟩
  | .and => ⟨Nat.land a b, 0⟩
  | .or => ⟨Nat.lor a b, 0⟩
  | .xor => ⟨Nat.xor a b, 0⟩
  | .andn => ⟨Nat.land a (2 ^ 32 - 1 - b), 0⟩
  | .shl => ⟨shiftFn 0 a (b % 32), 0⟩
  | .shr => ⟨shiftFn 1 a (b % 32), 0⟩
  | .sar => ⟨shiftFn 2 a (b % 32), 0⟩
  | .ror => ⟨shiftFn 3 a (b % 32), 0⟩
  | .min => ⟨if x ≤ y then a else b, 0⟩
  | .max => ⟨if y ≤ x then a else b, 0⟩
  | .minu => ⟨min a b, 0⟩
  | .maxu => ⟨max a b, 0⟩
  | .adds => inRange 32 true (x + y)
  | .subs => inRange 32 true (x - y)
  | .abs => ⟨w32 x.natAbs, 0⟩
  | .clz => ⟨clz32 a, 0⟩
  | .popc => ⟨popc32 a, 0⟩
  | .sextb => ⟨sxt 8 a, 0⟩
  | .sexth => ⟨sxt 16 a, 0⟩
  | .zexth => ⟨a % 2 ^ 16, 0⟩

/-- The integer conditions (R292). -/
def condInt (c a b : Nat) : Bool :=
  let x := signedOf 32 a
  let y := signedOf 32 b
  match c with
  | 0 => a == b
  | 1 => a != b
  | 2 => decide (x < y)
  | 3 => decide (x ≤ y)
  | 4 => decide (y < x)
  | 5 => decide (y ≤ x)
  | 6 => decide (a < b)
  | 7 => decide (a ≤ b)
  | 8 => decide (b < a)
  | 9 => decide (b ≤ a)
  | _ => Nat.land a b != 0
def condByte (b : Bool) : Nat := if b then 0xFF else 0

/-- The PRED group on 8-bit predicates, PMOVW and WMOVP apart (R293). -/
def predRes (fn : PredFn) (a b : Nat) : Nat :=
  match fn with
  | .pand => Nat.land a b
  | .por => Nat.lor a b
  | .pxor => Nat.xor a b
  | .pandn => Nat.land a (255 - b)
  | .pnot => 255 - a
  | .pmovw => a % 256
  | .wmovp => a

/-- The MUL group; `d` is the destination's old value (R294). -/
def mulRes (fn : MulFn) (a b d : Nat) : FR :=
  let x := signedOf 32 a
  let y := signedOf 32 b
  match fn with
  | .mul => ⟨a * b % 2 ^ 32, 0⟩
  | .mulh => ⟨w32 (x * y / 2 ^ 32), 0⟩
  | .mulhu => ⟨a * b / 2 ^ 32, 0⟩
  | .mulq => inRange 32 true (halfUp (x * y) 31)
  | .macq => inRange 32 true (halfUp (x * y + signedOf 32 d * 2 ^ 31) 31)
  | .mac => ⟨(d + a * b) % 2 ^ 32, 0⟩

/-! Division (R310, R311). -/

structure DivRes where
  q : Nat
  r : Nat
  dz : Bool
  sat : Bool
deriving DecidableEq, Repr

def divRes (sg : Bool) (a b : Nat) : DivRes :=
  if b = 0 then ⟨0xFFFFFFFF, a, true, false⟩
  else if sg then
    (if a = 0x80000000 ∧ b = 0xFFFFFFFF then ⟨0x80000000, 0, false, true⟩
     else ⟨w32 ((signedOf 32 a).tdiv (signedOf 32 b)), w32 ((signedOf 32 a).tmod (signedOf 32 b)), false, false⟩)
  else ⟨a / b, a % b, false, false⟩

/-- CCLK from issue to readable results: 34 in constant time, else by the operands' lengths. -/
def divTime (ct sg : Bool) (a b : Nat) : Nat :=
  let m := fun (x : Nat) => bitLen (if sg then (signedOf 32 x).natAbs else x)
  if ct then 34
  else if b = 0 ∨ (sg ∧ a = 0x80000000 ∧ b = 0xFFFFFFFF) then 2
  else 2 + (m a + 1 - m b)

/-! Packed decimal (R317, R318). -/

def bcdOk (a : Nat) : Bool := (List.range 8).all fun i => decide (natBits a (4 * i) 4 < 10)
def bcdVal (a : Nat) : Nat := (List.range 8).foldl (fun n i => n + natBits a (4 * i) 4 * 10 ^ i) 0
def bcdOf (n : Nat) : Nat := (List.range 8).foldl (fun v i => v + n / 10 ^ i % 10 * 16 ^ i) 0

/-- The sources are valid. -/
def bcdValid (fn : BcdFn) (a b : Nat) : Bool :=
  match fn with
  | .badd => bcdOk a && bcdOk b
  | .baddc => bcdOk a && bcdOk b
  | .bsub => bcdOk a && bcdOk b
  | .bsubc => bcdOk a && bcdOk b
  | .bshl => bcdOk a
  | .bshr => bcdOk a
  | .bfromb => decide (a ≤ 99999999)
  | .btob => bcdOk a

/-- The result, and DC where it changes. -/
def bcdRes (fn : BcdFn) (a b dc : Nat) : Nat × Option Bool :=
  let x := bcdVal a
  let y := bcdVal b
  let p := 10 ^ 8
  match fn with
  | .badd => (bcdOf ((x + y) % p), some (decide (p ≤ x + y)))
  | .baddc => (bcdOf ((x + y + dc) % p), some (decide (p ≤ x + y + dc)))
  | .bsub => (bcdOf ((x + p - y) % p), some (decide (x < y)))
  | .bsubc => (bcdOf ((x + p - y - dc) % p), some (decide (x < y + dc)))
  | .bshl => (bcdOf (x * 10 ^ min b 8 % p), none)
  | .bshr => (bcdOf (x / 10 ^ min b 8), none)
  | .bfromb => (bcdOf a, none)
  | .btob => (x, none)

/-! Scalar floating point (R297). -/

def fmtOf (dbl : Bool) : FFmt := if dbl then f64 else f32
def lowBits (f : FFmt) (v : Nat) : Nat := v % 2 ^ (1 + f.eb + f.mb)

def fpRes (f : FFmt) (fn : FpFn) (rnd : Rnd) (a b d : Nat) : FR :=
  let x := fDecode f a
  let y := fDecode f b
  match fn with
  | .fadd => fAddV f rnd x y
  | .fsub => fAddV f rnd x (fvNeg y)
  | .fmul => fMulV f rnd x y
  | .fdiv => fDivV f rnd x y
  | .fma => fFmaV f rnd x y (fDecode f d)
  | .fmin => fMinMax f false a b
  | .fmax => fMinMax f true a b
  | .fnma => fFmaV f rnd (fvNeg x) y (fDecode f d)

/-- NEG and ABS: a NaN becomes the canonical NaN (R178). -/
def fNegRes (f : FFmt) (a : Nat) : FR :=
  match fDecode f a with
  | .nan g => ⟨fNaN f, sigFl (.nan g)⟩
  | _ => ⟨if natBit a (f.eb + f.mb) then a - fSign f true else a + fSign f true, 0⟩
def fAbsRes (f : FFmt) (a : Nat) : FR :=
  match fDecode f a with
  | .nan g => ⟨fNaN f, sigFl (.nan g)⟩
  | _ => ⟨a % 2 ^ (f.eb + f.mb), 0⟩

def fun1Res (fn : FunFn) (rnd : Rnd) (v : Nat) : FR :=
  let a := lowBits f32 v
  match fn with
  | .sqrtS => fSqrtV f32 rnd (fDecode f32 a)
  | .sqrtD => fSqrtV f64 rnd (fDecode f64 v)
  | .negS => fNegRes f32 a
  | .negD => fNegRes f64 v
  | .absS => fAbsRes f32 a
  | .absD => fAbsRes f64 v
  | .mov => ⟨v, 0⟩
  | .cvtDS => fConvert f32 f64 rnd a
  | .cvtSD => fConvert f64 f32 rnd v
  | .cvtHS => fTo16 f32 rnd a
  | .cvtSH => fConvert f16 f32 rnd (lowBits f16 v)

/-- A signed result of R182 as a register value. -/
def intFR (r : Int × Nat) : FR := ⟨w32 r.1, r.2⟩

/-- FXFER from the source's value: f[A] or w[A] (R182, R297). -/
def xferRes (fn : XferFn) (rnd : Rnd) (v : Nat) : FR :=
  let a := lowBits f32 v
  match fn with
  | .mvwf => ⟨a, 0⟩
  | .mvfw => ⟨a, 0⟩
  | .cvtws => intFR (fToInt (fDecode f32 a) 0)
  | .cvtsw => fOfInt f32 rnd (signedOf 32 v) 0
  | .cvtqs => intFR (fToInt (fDecode f32 a) 31)
  | .cvtsq => fOfInt f32 rnd (signedOf 32 v) (-31)
  | .cvtwd => intFR (fToInt (fDecode f64 v) 0)
  | .cvtdw => fOfInt f64 rnd (signedOf 32 v) 0

/-! Short vectors (R319 to R321). -/

def qLanes (t : QTy) : Nat := match t with | .qh => 8 | _ => 4
def qWidth (t : QTy) : Nat := match t with | .qh => 16 | _ => 32
def qLane (t : QTy) (v i : Nat) : Nat := natBits v (qWidth t * i) (qWidth t)
/-- The bits of the active lanes of a predicate byte `act`. -/
def laneMask (t : QTy) (act : Nat) : Nat :=
  (List.range (qLanes t)).foldl (fun m i => if natBit act i then m + (2 ^ (qWidth t) - 1) * 2 ^ (qWidth t * i) else m) 0

/-- An integer result in a lane: saturating for QX and QH, wrapping for QI. -/
def laneInt (t : QTy) (x : Int) : FR :=
  match t with
  | .qi => ⟨w32 x, 0⟩
  | _ => inRange (qWidth t) true x

/-- One lane of QADD to QNEG and the bitwise operations. -/
def laneRes (t : QTy) (fn : QFn) (rnd : Rnd) (a b d : Nat) : FR :=
  let x := signedOf (qWidth t) a
  let y := signedOf (qWidth t) b
  let z := signedOf (qWidth t) d
  let fr := qWidth t - 1
  match fn with
  | .and => ⟨Nat.land a b, 0⟩
  | .or => ⟨Nat.lor a b, 0⟩
  | .xor => ⟨Nat.xor a b, 0⟩
  | .add => if t = .qf then fpRes f32 .fadd rnd a b d else laneInt t (x + y)
  | .sub => if t = .qf then fpRes f32 .fsub rnd a b d else laneInt t (x - y)
  | .mul => if t = .qf then fpRes f32 .fmul rnd a b d else if t = .qi then laneInt t (x * y) else laneInt t (halfUp (x * y) fr)
  | .mac =>
    if t = .qf then fpRes f32 .fma rnd a b d
    else if t = .qi then laneInt t (x * y + z) else laneInt t (halfUp (x * y + z * 2 ^ fr) fr)
  | .min => if t = .qf then fMinMax f32 false a b else ⟨if x ≤ y then a else b, 0⟩
  | .max => if t = .qf then fMinMax f32 true a b else ⟨if y ≤ x then a else b, 0⟩
  | .abs => if t = .qf then fAbsRes f32 a else laneInt t x.natAbs
  | .neg => if t = .qf then fNegRes f32 a else laneInt t (-x)
  | _ => ⟨0, 0⟩

/-- The active lanes of an elementwise operation, with the flags of all of them. -/
def qRes (t : QTy) (fn : QFn) (rnd : Rnd) (act a b d : Nat) : FR :=
  (List.range (qLanes t)).foldl (fun r i =>
    if natBit act i then
      let x := laneRes t fn rnd (qLane t a i) (qLane t b i) (qLane t d i)
      ⟨r.bits + x.bits * 2 ^ (qWidth t * i), r.fl ||| x.fl⟩
    else r) ⟨0, 0⟩

/-- QSUM of QF: the combine of R186 over the active lanes in pairs; a NaN delivered is canonical (R178). -/
def qsumF (rnd : Rnd) (act a : Nat) : FR :=
  let l := fun (i : Nat) => if natBit act i then some (⟨qLane .qf a i, sigFl (fDecode f32 (qLane .qf a i))⟩ : FR) else none
  match redCombine .sgl rnd (redCombine .sgl rnd (l 0) (l 1)) (redCombine .sgl rnd (l 2) (l 3)) with
  | none => ⟨0, 0⟩
  | some r => if isNaN (fDecode f32 r.bits) then ⟨fNaN f32, r.fl⟩ else r
/-- QSUM of the integer types: the exact sum of the active lanes. -/
def qsumI (t : QTy) (act a : Nat) : FR :=
  laneInt t ((List.range (qLanes t)).foldl (fun n i => if natBit act i then n + signedOf (qWidth t) (qLane t a i) else n) 0)
def qsumRes (t : QTy) (rnd : Rnd) (act a : Nat) : FR := if t = .qf then qsumF rnd act a else qsumI t act a

/-- One lane of QCMP (R184, R320). -/
def laneCmp (t : QTy) (c a b : Nat) : Bool × Nat :=
  if t = .qf then fCmpV c (fDecode f32 a) (fDecode f32 b)
  else (condHolds c (signedOf (qWidth t) a - signedOf (qWidth t) b).sign, 0)
def qcmpRes (t : QTy) (c act a b : Nat) : FR :=
  (List.range (qLanes t)).foldl (fun r i =>
    if natBit act i then
      let x := laneCmp t c (qLane t a i) (qLane t b i)
      ⟨r.bits + b2n x.1 * 2 ^ i, r.fl ||| x.2⟩
    else r) ⟨0, 0⟩

/-- QMOV operations on 32-bit lanes: the destination's old value, the source (q[A] or w[A]), the lane number. -/
def qmovRes (fn : QMovFn) (v lane : Nat) : Nat :=
  match fn with
  | .mov => v
  | .splat => v * (1 + 2 ^ 32 + 2 ^ 64 + 2 ^ 96)
  | .bcast => natBits v (32 * lane) 32 * (1 + 2 ^ 32 + 2 ^ 64 + 2 ^ 96)
  | .ins => v * 2 ^ (32 * lane)
  | .ext => natBits v (32 * lane) 32

/-! QSRCH (R321). -/

def searchNaN (fp : Bool) (v : Nat) : Bool := fp && isNaN (fDecode f32 v)
/-- `a` is strictly better than `b`. -/
def searchBetter (fp mx : Bool) (a b : Nat) : Bool :=
  let c := if fp then fvCmp (fDecode f32 a) (fDecode f32 b) else (signedOf 32 a - signedOf 32 b).sign
  if mx then decide (c > 0) else decide (c < 0)

/-- The candidate of the active lanes: its value and lane. -/
def searchCand (fp mx : Bool) (act a : Nat) : Option (Nat × Nat) :=
  let on := (List.range 4).filter fun i => natBit act i
  let best := on.foldl (fun (r : Option (Nat × Nat)) i =>
    let v := qLane .qf a i
    if searchNaN fp v then r
    else match r with
      | none => some (v, i)
      | some x => if searchBetter fp mx v x.1 then some (v, i) else some x) none
  match best, on with
  | some x, _ => some x
  | none, i :: _ => some (fNaN f32, i)
  | none, [] => none

/-- The new value and index of a search, where it takes the candidate. -/
def searchTake (fp mx : Bool) (act a val idx base : Nat) : Option (Nat × Nat) :=
  match searchCand fp mx act a with
  | none => none
  | some (v, i) =>
    if idx = 0xFFFFFFFF ∨ (searchNaN fp val ∧ searchNaN fp v = false) ∨
        (searchNaN fp val = false ∧ searchNaN fp v = false ∧ searchBetter fp mx v val) then
      some (v, (base + i) % 2 ^ 32)
    else none
/-- A signalling NaN in an active lane. -/
def searchFlags (fp : Bool) (act a : Nat) : Nat :=
  if fp ∧ (List.range 4).any (fun i => natBit act i && sigFl (fDecode f32 (qLane .qf a i)) != 0) then flNV else 0

/-! Memory operands (R295, R296). -/

def intSize (sz : Nat) : Nat := match sz with | 0 => 1 | 1 => 1 | 2 => 2 | 3 => 2 | 4 => 4 | _ => 8
/-- What an integer load delivers into w[D], and into w[D+1] for LDD. -/
def intLoad (sz v : Nat) : Nat × Nat :=
  match sz with
  | 0 => (sxt 8 v, 0)
  | 1 => (v % 2 ^ 8, 0)
  | 2 => (sxt 16 v, 0)
  | 3 => (v % 2 ^ 16, 0)
  | 4 => (v % 2 ^ 32, 0)
  | _ => (v % 2 ^ 32, v / 2 ^ 32 % 2 ^ 32)
def fpSize (sz : Nat) : Nat := 2 * 2 ^ sz
/-- What a scalar FP load delivers: binary16 widened exactly. -/
def fpLoad (sz v : Nat) : Nat := if sz = 0 then fWiden f16 f32 v else v
/-- What a scalar FP store stores: binary32 rounded to binary16, with flags. -/
def fpStore (sz : Nat) (rnd : Rnd) (v : Nat) : FR := if sz = 0 then fTo16 f32 rnd (lowBits f32 v) else ⟨v, 0⟩

end Sys2Proof.Machine
end

