-- ==== Sys2Proof/Machine/Operands.lean ====
section
/-!
DEFINITION. Sys2Proof/Machine/Operands.lean: what the encoding of a syllable and of a bundle must satisfy (R276 to R278,
R299 to R307, R322 to R324), the guard (R280, R319), and the registers that an operation reads and writes (R312, R327).
-/
namespace Sys2Proof.Machine
open Sys2Proof

/-- The execution units (R277, R278). -/
inductive EUnit where
  | none | i | m | l | v | b
deriving DecidableEq, Repr

def unitOf : Op → EUnit
  | .nop => .none
  | .alu .. => .i
  | .imm .. => .i
  | .shi .. => .i
  | .movi .. => .i
  | .movhi .. => .i
  | .cmp .. => .i
  | .cmpi .. => .i
  | .pred .. => .i
  | .mul .. => .m
  | .div .. => .m
  | .bcd .. => .m
  | .lld .. => .l
  | .lst .. => .l
  | .gld .. => .l
  | .gst .. => .l
  | .lldf .. => .l
  | .lstf .. => .l
  | .gldf .. => .l
  | .gstf .. => .l
  | .kld .. => .l
  | .kst .. => .l
  | .ldw .. => .l
  | .cap .. => .l
  | .panq .. => .l
  | .br .. => .b
  | .call .. => .b
  | .jump .. => .b
  | .loop .. => .b
  | .loopi .. => .b
  | .rep .. => .b
  | .wait .. => .b
  | .sys .. => .b
  | .fp .. => .v
  | .fun1 .. => .v
  | .fcmp .. => .v
  | .fxfer .. => .v
  | .q .. => .v
  | .qmov .. => .v
  | .qsrch .. => .v

/-! ILLEGAL_OP (R322): fields that must be zero, reserved values, odd registers. -/

def odd5 (d : BitVec 5) : Bool := d.toNat % 2 == 1
/-- A field that names a predicate or a w register in a wider field. -/
def wide3 (d : BitVec 5) : Bool := decide (8 ≤ d.toNat)
def wide6 (d : BitVec 6) : Bool := decide (32 ≤ d.toNat)
/-- A 5-bit field that names a c register. -/
def wideC (d : BitVec 5) : Bool := decide (16 ≤ d.toNat)

/-- The number of a system register from A:B (R285). -/
def sysNum (a b : BitVec 5) : Nat := a.toNat * 32 + b.toNat

/-- Numbers that WRSYS may write (R285, R351 to R369, R401). -/
def sysWritable (k : Nat) : Bool :=
  k == 0x001 || k == 0x012 || (0x020 ≤ k && k ≤ 0x026) || (0x100 ≤ k && k ≤ 0x102) || k == 0x104 || k == 0x108 ||
  k == 0x109 || k == 0x110 || k == 0x111 || (0x114 ≤ k && k ≤ 0x119) || (0x140 ≤ k && k ≤ 0x17F)

def aluOneOperand : AluFn → Bool
  | .abs => true
  | .clz => true
  | .popc => true
  | .sextb => true
  | .sexth => true
  | .zexth => true
  | _ => false

def illegalPred (fn : PredFn) (d a b : BitVec 5) : Bool :=
  match fn with
  | .pmovw => wide3 d || wide3 b
  | .wmovp => wide3 a || wide3 b
  | _ => wide3 d || wide3 a || wide3 b

def illegalCap (fn : CapFn) (d a b : BitVec 5) : Bool :=
  match fn with
  | .kmov => wideC d || wideC a
  | .kvoid => wideC d || wideC a
  | .knarrow => wideC d || wideC a || odd5 b
  | .ktrim => wideC d || wideC a
  | .klock => wideC d || wideC a
  | .kopen => wideC d || wideC a || b != 0
  | .kfield => wideC a || decide (6 < b.toNat)
  | .krds => wideC d
  | .kwrs => wideC a || d != 0

def illegalSys (fn : SysFn) (d a b : BitVec 5) : Bool :=
  match fn with
  | .wrsys => !sysWritable (sysNum a b)
  | .csw => wideC a
  | .tlbi => d != 0 || decide (3 < b.toNat)
  | .setbank => wideC a
  | _ => false

def illegalXfer (fn : XferFn) (d a : BitVec 6) : Bool :=
  match fn with
  | .mvwf => wide6 d
  | .cvtws => wide6 d
  | .cvtqs => wide6 d
  | .cvtwd => wide6 d
  | _ => wide6 a

def illegalField : Op → Bool
  | .alu fn _ _ b => aluOneOperand fn && b != 0
  | .shi _ _ imm => decide (4 ≤ imm.toNat / 256) || decide (imm.toNat / 32 % 8 ≠ 0)
  | .cmp d _ _ cond => wide3 d || decide (0xA < cond.toNat)
  | .cmpi _ cond _ _ => decide (0xA < cond.toNat)
  | .div _ d _ _ => odd5 d
  | .pred fn d a b => illegalPred fn d a b
  | .lld d _ sz _ => decide (5 < sz.toNat) || (sz == 5 && odd5 d)
  | .gld d _ _ sz _ => decide (5 < sz.toNat) || (sz == 5 && odd5 d)
  | .lst d _ sz _ => decide (5 < sz.toNat) || sz == 1 || sz == 3 || (sz == 5 && odd5 d)
  | .gst d _ _ sz _ => decide (5 < sz.toNat) || sz == 1 || sz == 3 || (sz == 5 && odd5 d)
  | .lldf d _ sz _ => sz == 3 && decide (d.toNat % 2 = 1)
  | .lstf d _ sz _ => sz == 3 && decide (d.toNat % 2 = 1)
  | .gldf d _ _ sz _ => sz == 3 && decide (d.toNat % 2 = 1)
  | .gstf d _ _ sz _ => sz == 3 && decide (d.toNat % 2 = 1)
  | .kld d _ b => wideC d || wideC b
  | .kst d _ b => wideC d || wideC b
  | .ldw d _ => odd5 d
  | .cap fn d a b => illegalCap fn d a b
  | .jump fn _ a b => fn == .ret && (a != 0 || b != 0)
  | .loop _ off => off == 0
  | .loopi _ off => off == 0
  | .rep _ reg a _ => !reg && a != 0
  | .wait fn _ a _ => (fn == .wta || fn == .wtt) && odd5 a
  | .sys fn d a b => illegalSys fn d a b
  | .fcmp d _ _ _ => decide (d.toNat / 8 % 4 ≠ 0)
  | .fxfer fn d a => illegalXfer fn d a
  | .qsrch _ w _ ty _ => odd5 w || ty == 3
  | _ => false

/-- Operations that S0 does not have (R324). -/
def notOnS0 : Op → Bool
  | .qsrch .. => true
  | .q .. => true
  | .qmov .. => true
  | .panq .. => true
  | .lld .. => true
  | .lst .. => true
  | .lldf .. => true
  | .lstf .. => true
  | .gldf _ _ _ sz _ => sz == 3
  | .gstf _ _ _ sz _ => sz == 3
  | .wait fn _ _ _ => fn != .evw
  | .sys fn _ _ _ => fn == .setbank
  | _ => false

def illegalOp (n : Nat) (op : Op) : Bool := illegalField op || (n == 4 && notOnS0 op)
/-- A syllable with a reserved value or a bit set in a field that must be 0; NOP has the two words of R277 only. -/
def illegalSyl (n : Nat) (x : Syl) : Bool :=
  x.hdr.rsv || (x.op == .nop && (x.hdr.gn || x.hdr.gp != 0)) || illegalOp n x.op

/-- Operations marked SYS (R307, R315, R380). -/
def needsSys : Op → Bool
  | .wait fn _ _ _ => fn == .evch
  | .sys fn _ _ _ => fn == .wrsys || fn == .eret || fn == .tlbi || fn == .tlbsync
  | .cap fn _ _ _ => fn == .krds || fn == .kwrs
  | .ldw .. => true
  | _ => false

/-! ILLEGAL_BUNDLE (R278, R299, R302, R304, R307, R316, R322). -/

def unitCount (b : List Syl) (u : EUnit) : Nat := b.countP fun x => unitOf x.op == u
def unitsOk (b : List Syl) : Bool :=
  decide (unitCount b .i ≤ 2) && decide (unitCount b .m ≤ 1) && decide (unitCount b .l ≤ 2) &&
  decide (unitCount b .v ≤ 2) && decide (unitCount b .b ≤ 1)

def isRep (x : Syl) : Bool := match x.op with | .rep .. => true | _ => false
def isWait (x : Syl) : Bool := match x.op with | .wait .. => true | _ => false
def isB (x : Syl) : Bool := unitOf x.op == .b
/-- CAP group and PANQ, which may not be repeated (R304). -/
def isCapOrPanq (x : Syl) : Bool :=
  match x.op with
  | .cap .. => true
  | .kld .. => true
  | .kst .. => true
  | .ldw .. => true
  | .panq .. => true
  | _ => false

/-- The last syllable has its stop bit, within 6 syllables. -/
def stopOk (b : List Syl) : Bool := match b.getLast? with | some x => x.hdr.s | none => false

/-- Rules on a bundle as it stands: `slot` in a delay slot, `last` the last bundle of an active loop body. -/
def illegalBundle (b : List Syl) (slot last : Bool) : Bool :=
  !stopOk b || decide (6 < b.length) || !unitsOk b ||
  (slot && b.any isB) || (last && b.any isB) ||
  (decide (1 < b.length) && b.any fun x => isRep x || isWait x)
/-- Rules on the body of a repetition (R304). -/
def illegalBody (b : List Syl) : Bool := b.any fun x => isB x || isCapOrPanq x

/-- The decode fault of a bundle (R323): its vector and the position of the syllable. -/
def decodeFault (n : Nat) (sys slot last : Bool) (b : List Syl) : Option (Nat × Nat) :=
  if illegalBundle b slot last then some (vBUNDLE, 0)
  else
    match b.zipIdx.find? (fun x => illegalSyl n x.1 || (!sys && needsSys x.1.op)) with
    | some (x, i) => some (if illegalSyl n x then vOP else vSYSAUTH, i)
    | none => none

/-! The guard (R280, R319). -/

/-- The lanes that execute, as a byte; bit 0 is the guard of a scalar operation. -/
def guardByte (c : Core) (h : Hdr) : Nat := if h.gn then 255 - c.rdP h.gp.toNat else c.rdP h.gp.toNat

/-- Operations whose guard acts lane by lane. -/
def byLane : Op → Bool
  | .q .. => true
  | .qsrch .. => true
  | .qmov fn _ _ _ => fn != .ins && fn != .ext
  | _ => false
def runs (c : Core) (x : Syl) : Bool := byLane x.op || natBit (guardByte c x.hdr) 0

/-! Registers that an operation reads and writes (R286, R312, R327). -/

structure Use where
  r : List Dst
  w : List Dst
deriving DecidableEq, Repr

def uW (c : Core) (i : Nat) : List Dst := (wDst c i).toList
def uW2 (c : Core) (i : Nat) : List Dst := uW c i ++ uW c (i + 1)
def uF (i : Nat) : List Dst := [.f i]
def uQ (i : Nat) : List Dst := [.f (2 * i), .f (2 * i + 1)]
def uC (i : Nat) : List Dst := [.c i]

def useFm (c : Core) (load : Bool) (d : BitVec 6) (a : BitVec 5) (sz : BitVec 2) : Use :=
  let x := if sz = 3 then uQ (d.toNat / 2) else uF d.toNat
  if load then ⟨uW c a.toNat, x⟩ else ⟨uW c a.toNat ++ x, []⟩
def useInt (c : Core) (load : Bool) (d a : BitVec 5) (sz : BitVec 3) : Use :=
  let x := if sz = 5 then uW2 c d.toNat else uW c d.toNat
  if load then ⟨uW c a.toNat, x⟩ else ⟨uW c a.toNat ++ x, []⟩

def useCap (c : Core) (fn : CapFn) (d a b : BitVec 5) : Use :=
  match fn with
  | .kmov => ⟨uC a.toNat, uC d.toNat⟩
  | .kvoid => ⟨uC a.toNat, uC d.toNat⟩
  | .knarrow => ⟨uC a.toNat ++ uW2 c b.toNat, uC d.toNat⟩
  | .ktrim => ⟨uC a.toNat ++ uW c b.toNat, uC d.toNat⟩
  | .klock => ⟨uC a.toNat ++ uC d.toNat ++ uW c b.toNat, uC d.toNat⟩
  | .kopen => ⟨uC a.toNat ++ uC d.toNat, uC d.toNat⟩
  | .kfield => ⟨uC a.toNat, uW c d.toNat⟩
  | .krds => ⟨[], uC d.toNat⟩
  | .kwrs => ⟨uC a.toNat, []⟩

def useSys (c : Core) (fn : SysFn) (d a b : BitVec 5) : Use :=
  match fn with
  | .rdstat => ⟨[], uW c d.toNat⟩
  | .wrstat => ⟨uW c d.toNat, []⟩
  | .rdsys => ⟨[], uW c d.toNat⟩
  | .wrsys => ⟨uW c d.toNat, []⟩
  | .csw => ⟨uC a.toNat, []⟩
  | .tlbi => ⟨if b = 0 then [] else uW c a.toNat, []⟩
  | .setbank => ⟨uC a.toNat, []⟩
  | .getbank => ⟨[], uW c d.toNat⟩
  | _ => ⟨[], []⟩

def usePred (c : Core) (fn : PredFn) (d a : BitVec 5) : Use :=
  match fn with
  | .pmovw => ⟨uW c a.toNat, []⟩
  | .wmovp => ⟨[], uW c d.toNat⟩
  | _ => ⟨[], []⟩

def useXfer (c : Core) (fn : XferFn) (d a : BitVec 6) : Use :=
  match fn with
  | .mvwf => ⟨uF a.toNat, uW c d.toNat⟩
  | .cvtws => ⟨uF a.toNat, uW c d.toNat⟩
  | .cvtqs => ⟨uF a.toNat, uW c d.toNat⟩
  | .cvtwd => ⟨uF a.toNat, uW c d.toNat⟩
  | _ => ⟨uW c a.toNat, uF d.toNat⟩

def useQmov (c : Core) (fn : QMovFn) (d a : BitVec 5) : Use :=
  match fn with
  | .splat => ⟨uW c a.toNat, uQ d.toNat⟩
  | .ins => ⟨uW c a.toNat, uQ d.toNat⟩
  | .ext => ⟨uQ a.toNat, uW c d.toNat⟩
  | _ => ⟨uQ a.toNat, uQ d.toNat⟩

def useWait (c : Core) (fn : WaitFn) (a : BitVec 5) : Use :=
  match fn with
  | .wta => ⟨uW2 c a.toNat, []⟩
  | .wtt => ⟨uW2 c a.toNat, []⟩
  | .tend => ⟨[], []⟩
  | _ => ⟨uW c a.toNat, []⟩

def useJump (c : Core) (fn : JumpFn) (a : BitVec 5) : Use :=
  match fn with
  | .jr => ⟨uW c a.toNat, []⟩
  | .callr => ⟨uW c a.toNat, uW c 31⟩
  | .ret => ⟨uW c 15, []⟩

def useOf (c : Core) : Op → Use
  | .nop => ⟨[], []⟩
  | .alu _ d a b => ⟨uW c a.toNat ++ uW c b.toNat, uW c d.toNat⟩
  | .imm _ d a _ => ⟨uW c a.toNat, uW c d.toNat⟩
  | .shi d a _ => ⟨uW c a.toNat, uW c d.toNat⟩
  | .movi d _ => ⟨[], uW c d.toNat⟩
  | .movhi d _ => ⟨uW c d.toNat, uW c d.toNat⟩
  | .cmp _ a b _ => ⟨uW c a.toNat ++ uW c b.toNat, []⟩
  | .cmpi _ _ a _ => ⟨uW c a.toNat, []⟩
  | .mul _ d a b => ⟨uW c a.toNat ++ uW c b.toNat ++ uW c d.toNat, uW c d.toNat⟩
  | .div _ d a b => ⟨uW c a.toNat ++ uW c b.toNat, uW2 c d.toNat⟩
  | .bcd _ d a b => ⟨uW c a.toNat ++ uW c b.toNat, uW c d.toNat⟩
  | .pred fn d a _ => usePred c fn d a
  | .lld d a sz _ => useInt c true d a sz
  | .lst d a sz _ => useInt c false d a sz
  | .gld d k a sz _ => let u := useInt c true d a sz; ⟨u.r ++ uC k.toNat, u.w⟩
  | .gst d k a sz _ => let u := useInt c false d a sz; ⟨u.r ++ uC k.toNat, u.w⟩
  | .lldf d a sz _ => useFm c true d a sz
  | .lstf d a sz _ => useFm c false d a sz
  | .gldf d k a sz _ => let u := useFm c true d a sz; ⟨u.r ++ uC k.toNat, u.w⟩
  | .gstf d k a sz _ => let u := useFm c false d a sz; ⟨u.r ++ uC k.toNat, u.w⟩
  | .kld d a b => ⟨uW c a.toNat ++ uC b.toNat, uC d.toNat⟩
  | .kst d a b => ⟨uW c a.toNat ++ uC b.toNat ++ uC d.toNat, []⟩
  | .ldw d a => ⟨uW c a.toNat, uW2 c d.toNat⟩
  | .cap fn d a b => useCap c fn d a b
  | .panq d k a => ⟨uW c a.toNat ++ uC k.toNat, uW c d.toNat⟩
  | .br .. => ⟨[], []⟩
  | .call .. => ⟨[], uW c 31⟩
  | .jump fn _ a _ => useJump c fn a
  | .loop a _ => ⟨uW c a.toNat, []⟩
  | .loopi .. => ⟨[], []⟩
  | .rep _ reg a _ => ⟨if reg then uW c a.toNat else [], []⟩
  | .wait fn _ a _ => useWait c fn a
  | .sys fn d a b => useSys c fn d a b
  | .fp _ _ d a b => ⟨uF a.toNat ++ uF b.toNat ++ uF d.toNat, uF d.toNat⟩
  | .fun1 _ d a => ⟨uF a.toNat, uF d.toNat⟩
  | .fcmp _ a b _ => ⟨uF a.toNat ++ uF b.toNat, []⟩
  | .fxfer fn d a => useXfer c fn d a
  | .q _ fn d a b =>
    ⟨uQ a.toNat ++ uQ b.toNat ++ (if fn = .mac then uQ d.toNat else []), match fn with | .cmp _ => [] | _ => uQ d.toNat⟩
  | .qmov fn d a _ => useQmov c fn d a
  | .qsrch d w a _ _ => ⟨uF d.toNat ++ uW2 c w.toNat ++ uQ a.toNat, uF d.toNat ++ uW2 c w.toNat⟩

end Sys2Proof.Machine
end

