-- ==== Sys2Proof/Machine/Entry.lean ====
section
/-!
DEFINITION. Sys2Proof/Machine/Entry.lean: exceptions, interrupts and launches of an Essan core (R351 to R373), the return
from them, window spills and fills (R282), pending reads and divisions (R286, R310, R357), and core tasks (R89, R90, R362).
-/
namespace Sys2Proof.Machine

/-! Pending reads (R286). -/

def bits32 : Nat := 2 ^ 32 - 1
def bits64 : Nat := 2 ^ 64 - 1
def capBits : Nat := 2 ^ 129 - 1

/-- A result on its way: destination, value and the bits written. -/
structure Res where
  dst : Dst
  val : Nat
  mask : Nat
deriving DecidableEq, Repr

def wRes (key v : Nat) : List Res := if key = 0 then [] else [⟨.w key, v, bits32⟩]

/-- What the bytes and the tag of a pending read deliver, and what else the read does (R120, R144, R295, R296, R382). -/
def loadAll (n : Nat) (l : PLoad) (bs : List Byte) (tag : Bool) (s : State) : List Res × State :=
  let v := natOfBytes bs
  match l.kind with
  | .int sz k1 k2 => (wRes k1 (intLoad sz v).1 ++ (if sz = 5 then wRes k2 (intLoad sz v).2 else []), s)
  | .fp sz i =>
    (if sz = 3 then [⟨.f i, v % 2 ^ 64, bits64⟩, ⟨.f (i + 1), v / 2 ^ 64, bits64⟩] else [⟨.f i, fpLoad sz v, bits64⟩], s)
  | .cap i =>
    let s' := match regionOf (coreDie n) l.pa with | .saltern a => tagReadFx a s | _ => s
    ([⟨.c i, (capOfBytes tag bs).pack, capBits⟩], s')
  | .ldw k1 k2 => (wRes k1 (v % 2 ^ 32) ++ wRes k2 (v / 2 ^ 32), s)
  | .panq k auth =>
    let r := panq n ((List.range 8).map fun i => BitVec.ofNat 32 (v / 2 ^ (32 * i))) auth s
    (wRes k r.1, r.2)

/-- A result without the bits that later writes have taken (R279, R328). -/
def Res.less (cuts : List (Dst × Nat)) (r : Res) : Res :=
  { r with mask := cuts.foldl (fun m k => if k.1 = r.dst then lessBits m k.2 else m) r.mask }
def loadResult (n : Nat) (l : PLoad) (bs : List Byte) (tag : Bool) (s : State) : List Res × State :=
  let r := loadAll n l bs tag s
  (r.1.map (Res.less l.cuts), r.2)

/-- A read is made at its physical address: its bytes and tag, as they were before a later store of the core. -/
def loadRead (n : Nat) (l : PLoad) (s : State) : (List Byte × Bool) × State :=
  let r := coreRead n l.pa l.size s
  (l.early.getD (r.1, paTag s n l.pa), r.2)

def Core.putAll (c : Core) (rs : List Res) : Core := rs.foldl (fun x r => x.write r.dst r.val r.mask) c
def Core.queueAll (c : Core) (left : Nat) (rs : List Res) : Core := rs.foldl (fun x r => x.queue left r.dst r.val r.mask) c

/-! FDIV and FSQRT (R327), division (R310 to R312). -/

def PFdiv.res (d : PFdiv) : FR :=
  let f := fmtOf d.dbl
  if d.sqrt then fSqrtV f d.rnd (fDecode f d.a) else fDivV f d.rnd (fDecode f d.a) (fDecode f d.b)

/-- The result of an FDIV or FSQRT is written with its flags. -/
def Core.fdivDone (c : Core) (d : PFdiv) : Core :=
  let c := c.write (.f d.i) d.res.bits d.mask
  if d.mute then c else { c with status := c.status ||| BitVec.ofNat 32 (stFlags d.res.fl) }

/-- A division writes its quotient and remainder into its entries. -/
def Core.divDone (c : Core) : Core :=
  match c.div with
  | none => c
  | some d =>
    { c.putAll ((wRes d.k1 d.q).map (fun r => { r with mask := d.m1 }) ++ (wRes d.k2 d.r).map (fun r => { r with mask := d.m2 }))
      with div := none, status := c.status ||| BitVec.ofNat 32 d.flags }

/-! Saltern beats of the running task (R90). -/

def addBeats (k : Nat) (c : Core) : Core :=
  match c.group with
  | t :: r => { c with group := { t with beats := t.beats + k } :: r }
  | [] => c

/-! Spills and fills (R282). -/

/-- The file entry of w(8 + i) of the frame at window base `wb`. -/
def frameKey (wb i : Nat) : Nat := 16 + (16 * wb + i) % 512

/-- The physical places of 16 words at offset `off` of WSCAP, checked as global accesses; or the first address that
fails. -/
def frameAccess (s : State) (n : Nat) (c : Core) (a : AccKind) (off : Nat) : Except Nat (List Xl) :=
  let k := c.rdS scWSCAP
  (List.range 16).foldr (fun i r =>
    match dataAccess s n c a false k (k.base + off + 4 * i) 4 4 0 with
    | .error _ => .error (k.base + off + 4 * i)
    | .ok x => match r with | .error e => .error e | .ok l => .ok (x :: l)) (.ok [])

/-- The beats of a spill or a fill: each 64-byte beat once. -/
def winBeats (n : Nat) (xs : List Xl) : Nat :=
  (xs.filterMap fun x => match regionOf (coreDie n) x.pa with | .saltern a => some (a / 64) | _ => none).eraseDups.length
def frameBeats (s : State) (n : Nat) (a : AccKind) (off : Nat) : Nat :=
  match frameAccess s n (s.core n) a off with
  | .ok xs => winBeats n xs
  | .error _ => 0

def adAll (n : Nat) (a : AccKind) (xs : List Xl) (s : State) : State :=
  s.mapCore n fun c => xs.foldl (fun y x => adSet a x y) c

/-- A division whose entries lie in a frame completes before the frame is stored (R312). -/
def Core.divFor (c : Core) (wb : Nat) : Core :=
  match c.div with
  | none => c
  | some d => if (List.range 16).any fun i => frameKey wb i == d.k1 || frameKey wb i == d.k2 then c.divDone else c

/-- The oldest resident frame is stored. -/
def spill (n : Nat) (s : State) : Except Nat State :=
  let s := s.mapCore n fun c => c.divFor ((c.wb + 33 - c.wres) % 32)
  let c := s.core n
  let old := (c.wb + 33 - c.wres) % 32
  match frameAccess s n c .store c.wsoff with
  | .error a => .error a
  | .ok xs =>
    let t := (xs.zipIdx).foldl (fun u x =>
      coreWrite n x.1.pa (bytesOfNat 4 (storeGet 0 c.w (frameKey old x.2)).toNat) u) (adAll n .store xs s)
    .ok (t.mapCore n fun c => { c with wsoff := (c.wsoff + 64) % 2 ^ 32, wres := c.wres - 1 })

/-- Beats of the spill that a rotation to the next frame needs, and of the fill that the one back needs. -/
def spillBeats (s : State) (n : Nat) : Nat :=
  if (s.core n).wres = 30 then frameBeats s n .store (s.core n).wsoff else 0
def fillOff (c : Core) : Nat := (c.wsoff + 2 ^ 32 - 64) % 2 ^ 32
def fillBeats (s : State) (n : Nat) : Nat :=
  if (s.core n).wres = 1 then frameBeats s n .load (fillOff (s.core n)) else 0

/-- The words of a frame read back from offset `off`, or the address that fails its check or reads uncorrectable. -/
def frameLoad (n off wb : Nat) (s : State) : Except Nat State :=
  let c := s.core n
  match frameAccess s n c .load off with
  | .error a => .error a
  | .ok xs =>
    match xs.zipIdx.find? fun x => (readFault s (coreDie n) x.1.pa 4).isSome with
    | some x => .error ((c.rdS scWSCAP).base + off + 4 * x.2)
    | none => .ok ((xs.zipIdx).foldl (fun u x =>
        let r := coreRead n x.1.pa 4 u
        r.2.mapCore n fun c => { c with w := storeSet 0 c.w (frameKey wb x.2) (BitVec.ofNat 32 (natOfBytes r.1)) })
        (adAll n .load xs s))

/-- A RET or ERET with WRES = 1 loads the caller's frame. -/
def fill (n : Nat) (s : State) : Except Nat State :=
  let c := s.core n
  let off := fillOff c
  if c.wres ≠ 1 then .ok s
  else match frameLoad n off ((c.wb + 31) % 32) s with
    | .error a => .error a
    | .ok t => .ok (t.mapCore n fun c => { c with wsoff := off, wres := 2 })

/-- The spill that a rotation to the next frame needs. -/
def spillIfFull (n : Nat) (s : State) : Except Nat State := if (s.core n).wres = 30 then spill n s else .ok s
def Core.rotateIn (c : Core) : Core := { c with wb := (c.wb + 1) % 32, wres := c.wres + 1 }
def Core.rotateOut (c : Core) : Core := { c with wb := (c.wb + 31) % 32, wres := c.wres - 1 }

/-! What entry saves (R306, R308, R309, R355, R356, R370). -/

/-- The saved address and status, and the cause bits of a delay slot, as the core stands at this boundary. -/
structure Bound where
  epc : Nat
  stat : Word
  flags : Nat
  btgt : Nat
deriving DecidableEq, Repr

def slotFlags (x : Xfer) : Nat := 2 ^ 30 + b2n x.taken * 2 ^ 29

def boundaryOf (c : Core) : Bound :=
  match c.xfer, c.rep, c.redo, c.wait with
  | some x, _, _, _ => ⟨x.addr, c.status, slotFlags x, x.target⟩
  | none, some r, _, _ =>
    ⟨r.addr, BitVec.ofNat 32 (c.status.toNat % 2 ^ 22 + b2n r.ni * 2 ^ 22 + r.left % 512 * 2 ^ 23), 0, 0⟩
  | none, none, some x, _ => ⟨x.addr, c.status, slotFlags x, x.target⟩
  | none, none, none, some (.angle _ a) => ⟨a, (c.setStat bWRESUME true).status, 0, 0⟩
  | none, none, none, some (.tick _ a) => ⟨a, (c.setStat bWRESUME true).status, 0, 0⟩
  | none, none, none, _ => ⟨c.pc, c.status, 0, 0⟩

/-- A cause: vector, EINFO, and the bits INT and POS of ECAUSE. -/
structure Exc where
  vec : Nat
  info : Nat
  int : Bool
  pos : Nat
deriving DecidableEq, Repr

def causeWord (e : Exc) (b : Bound) : Word :=
  BitVec.ofNat 32 (b2n e.int * 2 ^ 31 + b.flags + e.pos % 256 * 2 ^ 8 + e.vec % 128)

/-- Entry v of the vector table: the handler, NI and its budget; none where it is malformed or uncorrectable, or the
handler lies outside the exception code capability (R351, R352, R378). -/
def vectorAt (s : State) (n v : Nat) : Option (Nat × Bool × Nat) :=
  let c := s.core n
  let a := c.tbase + 8 * v
  let e := natOfBytes (memBytes s (regionOf (coreDie n) a) 8)
  let h := natBits e 2 30 * 4
  let k := c.rdS scEXCAP
  if (readFault s (coreDie n) a 8).isSome ∨ e / 2 ^ 42 ≠ 0 ∨ e % 4 ≠ 0 ∨ k.usable = false ∨ k.perm pEXEC = false ∨
      k.covers h 4 = false then none
  else some (h, natBit e 32, if natBits e 33 9 = 0 then 512 else natBits e 33 9)

/-- DOUBLE_FAULT with a cause of R366, or the stop of the core while DFACT is 1 (R368). -/
def doubleFault (n cause info : Nat) (b : Bound) (s : State) : State :=
  let c := s.core n
  if c.df.isSome then coreStop n s
  else
    exCount n (exPost n 0 3 cause ((maxSpan n c.span s).mapCore n fun c => c.dfEnter b.epc b.stat cause info))

def levelOf (c : Core) (e : Exc) (b : Bound) : SaveLevel :=
  ⟨b.epc, b.stat, c.pcc, causeWord e b, e.info, b.btgt, c.gie, c.ni, c.nib, abandoned c⟩

/-- A level is pushed and the window rotated; GIE, RCNT, RNI and WRESUME clear (R285, R356). -/
def Core.push (c : Core) (e : Exc) (b : Bound) : Core :=
  let l := levelOf c e b
  let c := c.leave.rotateIn
  { c with sb := l :: c.sb, gie := false, status := BitVec.ofNat 32 (c.status.toNat % 2 ^ 21) }

/-- Execution goes to a handler, with its NI state (R352, R363, R365); `go` where a deferral span that is under way
goes on in an NI handler. -/
def Core.toHandler (c : Core) (h : Nat × Bool × Nat) (go : Bool) : Core :=
  { c with pc := h.1, pcc := c.rdS scEXCAP, ni := h.2.1, nib := h.2.2, span := if h.2.1 && go then c.span else 0 }

/-- The ceiling of a deferral span: NILIM of E0 to E3 (R81, R363); S0 has none. -/
def spanLimit (s : State) (n : Nat) : Nat := if n = 4 then 512 else nilim s n
/-- A REPN defers recognition (R364). -/
def deferring (s : State) (n : Nat) : Bool :=
  match (s.core n).rep with
  | some r => r.ni && decide ((s.core n).span < spanLimit s n)
  | none => false

/-- Entry on an exception or an interrupt: the one operation that all of them share (R356 to R366). The spill's beats
count for a running task (R90). -/
def enter (n : Nat) (e : Exc) (va : Option Nat) (s : State) : State :=
  let s := match va with | some a => s.mapCore n (fun c => { c with xbadva := a }) | none => s
  let c := (s.core n).settle
  let b := boundaryOf c
  if c.df.isSome ∧ e.int = false then coreStop n s
  else if c.ni then doubleFault n 4 e.info b s
  else if 4 ≤ c.sb.length then doubleFault n 2 e.info b s
  else
    match spillIfFull n (s.setCore n c) with
    | .error a => doubleFault n 1 (a % 2 ^ 32) b s
    | .ok t =>
      match vectorAt t n e.vec with
      | none => doubleFault n 5 e.info b s
      | some h => exCount n ((maxSpan n c.span t).mapCore n fun c =>
          addBeats (spillBeats (s.setCore n (s.core n).settle) n) ((c.push e b).toHandler h (deferring s n)))

/-- A synchronous exception at a syllable's position. -/
def raise (n pos : Nat) (t : Trap) (s : State) : State := enter n ⟨t.vec, t.info, false, pos⟩ t.va s

/-! Core tasks (R89, R362). -/

/-- The head of the group starts at TCAP.base with PCC = TCAP. -/
def Core.startTask (c : Core) : Core :=
  match c.group with
  | t :: _ => { c.redirect with pcc := t.cap, pc := t.cap.base % 2 ^ 32 }
  | [] => c
/-- The waiting tasks become the running group. -/
def Core.startGroup (c : Core) : Core :=
  { c with group := c.waiting, waiting := [], overran := none, ipend := natBitSet c.ipend 16 false }.startTask

/-- LAUNCH: one level for the group, and no vector (R353, R362). -/
def enterLaunch (n : Nat) (s : State) : State :=
  let c := (s.core n).settle
  let b := boundaryOf c
  let slot := match c.waiting with | t :: _ => t.tick % 4096 | [] => 0
  let e : Exc := ⟨vLAUNCH, slot, true, 0⟩
  if 4 ≤ c.sb.length then doubleFault n 2 slot b s
  else
    match spillIfFull n (s.setCore n c) with
    | .error a => doubleFault n 1 (a % 2 ^ 32) b s
    | .ok t => exCount n ((maxSpan n c.span t).mapCore n fun c =>
        let c := c.push e b
        { c with gwb := c.wb, gdep := c.sb.length, gdf := c.df.isSome, span := 0 }.startGroup)

/-! Return (R360, R367, R370). -/

/-- A replayed register-page read is performed a second time; one of memory keeps what a later store has overwritten
(R279, R287). -/
def PLoad.again (n : Nat) (l : PLoad) : PLoad :=
  match regionOf (coreDie n) l.pa with
  | .page _ _ => { l with early := none }
  | _ => l
/-- One entry of a replay list is performed: a read at its physical address, an FDIV with its operands. Flags join
ESTAT. -/
def replayOne (n : Nat) (r : Replay) (s : State) : Except Trap (Nat × State) :=
  match r with
  | .fdiv d => .ok (if d.mute then 0 else stFlags d.res.fl, s.mapCore n fun c => c.write (.f d.i) d.res.bits d.mask)
  | .read l =>
    match readFault s (coreDie n) l.pa l.size with
    | some t => .error t
    | none =>
      let r := loadRead n (l.again n) s
      let x := loadResult n l r.1.1 r.1.2 r.2
      .ok (0, x.2.mapCore n fun c => c.putAll x.1)

/-- The entries of the list in order, up to one that fails: flags raised, what is left, the exception. -/
def replayAll (n : Nat) : List Replay → State → Nat × List Replay × Option Trap × State
  | [], s => (0, [], none, s)
  | r :: rs, s =>
    match replayOne n r s with
    | .error t =>
      (0, r :: rs, some t, match r with | .read l => (coreRead n l.pa l.size s).2 | _ => s)
    | .ok (fl, t) =>
      let x := replayAll n rs t
      (Nat.lor fl x.1, x.2)

def Core.setTop (c : Core) (f : SaveLevel → SaveLevel) : Core :=
  match c.sb with
  | l :: r => { c with sb := f l :: r }
  | [] => c

/-- The recorded transfer of a resumed delay slot: it is issued again with its outcome and target. -/
def redoOf (l : SaveLevel) : Option Xfer :=
  if natBit l.cause.toNat 30 then some ⟨.br, l.epc, natBit l.cause.toNat 29, l.ebtgt, false, true⟩ else none

/-- Saltern beats of a replay list, and of the ERET that performs it (R90, R360). -/
def replayBeats (n : Nat) (l : List Replay) : Nat :=
  (l.map fun r => match r with | .read l => beatsOf n l.pa l.size | .fdiv _ => 0).sum
def eretBeats (s : State) (n : Nat) : Nat :=
  fillBeats s n + (match (s.core n).sb with | l :: _ => replayBeats n l.replay | [] => 0)

/-- The level is restored and popped. What the handler has issued stays on its way (R326). -/
def Core.pop (c : Core) : Core :=
  match c.sb with
  | [] => c
  | l :: r =>
    { c.redirect.rotateOut with
      sb := r, status := l.estat, pcc := l.epcc, gie := l.gie, ni := l.ni, nib := l.nib, span := 0, pc := l.epc,
      redo := redoOf l }

/-- ERET from a level: fill, replay, restore. With the exception that stops it, where there is one; the fill and the
entries already replayed then stay done. -/
def eretLevel (n : Nat) (s : State) : Option Trap × State :=
  match fill n s with
  | .error a => (some (trapOf vSPILL a), s)
  | .ok t =>
    let list := match (t.core n).sb with | l :: _ => l.replay | [] => []
    let x := replayAll n list t
    let u := x.2.2.2.mapCore n fun c =>
      c.setTop fun l => { l with estat := l.estat ||| BitVec.ofNat 32 x.1, replay := x.2.1 }
    match x.2.2.1 with
    | some tr => (some tr, u)
    | none => (none, (if (u.core n).ni then maxSpan n (u.core n).span u else u).mapCore n Core.pop)

/-- What the double-fault slot holds is restored, c15 over every result on its way to it. -/
def Core.unslot (x : DfSlot) (c : Core) : Core := { c.write (.c 15) x.c15.pack capBits with df := none }

/-- DERET: what the double fault abandoned is performed, and its slot is restored (R367, log 91); a read of it that fails
is an exception while DFACT is 1. -/
def deret (n : Nat) (s : State) : State :=
  match (s.core n).df with
  | none => s
  | some x =>
    let r := replayAll n x.replay s
    match r.2.2.1 with
    | some _ => coreStop n r.2.2.2
    | none => r.2.2.2.mapCore n fun c =>
      { (c.redirect.unslot x) with
        pc := x.pc, status := x.stat ||| BitVec.ofNat 32 r.1, pcc := x.pcc, gie := x.gie }

/-! The end of a task (R90, R314, R362). -/

/-- The window returns to the handler frame of the group after a task that was stopped in another frame. -/
def unwind (n : Nat) (s : State) : State :=
  let c := s.core n
  let k := (c.wb + 32 - c.gwb) % 32
  if k < c.wres then s.setCore n { c with wb := c.gwb, wres := c.wres - k }
  else
    let off := (c.wsoff + 2 ^ 32 - 64 * (k + 1 - c.wres)) % 2 ^ 32
    let t := match frameLoad n off c.gwb s with | .ok t => t | .error _ => s
    t.mapCore n fun c => { c with wb := c.gwb, wres := 1, wsoff := off }

/-- A task that ends in a handler leaves it with the levels that its group did not have, and a double fault that it took
(R89, R362; log 150). -/
def Core.taskOut (c : Core) : Core :=
  let c := { c with sb := c.sb.drop (c.sb.length - c.gdep), ni := false, span := 0 }
  match c.df with
  | some x => if c.gdf then c else c.unslot x
  | none => c
/-- The place where every task of a group starts: its level on top, in its handler frame. -/
def taskLeave (n : Nat) (s : State) : State :=
  let s := if (s.core n).ni then maxSpan n (s.core n).span s else s
  unwind n (s.mapCore n Core.taskOut)

/-- TASK_OVERRUN is raised with the level of the group (R362): its address, status and target, and the delay slot it was
in, stay; the live bits that every entry clears are cleared (R356). -/
def overrunEntry (n ctx : Nat) (s : State) : State :=
  let s := s.mapCore n fun c => { c with overran := none }
  match vectorAt s n vOVERRUN with
  | none => doubleFault n 5 ctx (match (s.core n).sb with | l :: _ => ⟨l.epc, l.estat, 0, 0⟩ | [] => boundaryOf (s.core n)) s
  | some h => exCount n (s.mapCore n fun c =>
      ({ c.settle.redirect with gie := false, status := BitVec.ofNat 32 (c.settle.status.toNat % 2 ^ 21) }.setTop fun l =>
        { l with cause := BitVec.ofNat 32 (natBits l.cause.toNat 29 2 * 2 ^ 29 + vOVERRUN), einfo := ctx }).toHandler h false)

/-- After the head of the group has ended: the next task, the next group, TASK_OVERRUN, or the return. -/
def nextTask (n : Nat) (s : State) : Option Trap × State :=
  let s := taskLeave n s
  let c := s.core n
  match c.group, c.waiting, c.overran with
  | _ :: _, _, _ => (none, s.setCore n c.startTask)
  | [], _ :: _, o => (none, s.setCore n { c.startGroup with overran := o })
  | [], [], some x => (none, overrunEntry n x s)
  | [], [], none => eretLevel n s

/-- The head task is taken off the group. -/
def Core.dropHead (c : Core) : Core := { c with group := c.group.drop 1 }

/-- A task is stopped: bundles already issued retire, and what is in progress is abandoned (R90). -/
def Core.stopTask (c : Core) : Core := { c.settle.leave with div := none }

/-- Whatever comes after a task that was stopped; an exception of the return is taken at the place where it stopped. -/
def afterStop (n : Nat) (s : State) : State :=
  match nextTask n (s.mapCore n Core.stopTask) with
  | (none, t) => t
  | (some tr, t) => raise n 0 tr t

/-- The head task overran its budget of CCLK or beats: its launch is abandoned with OVERRUN (R90). -/
def overrun (n : Nat) (s : State) : State :=
  match (s.core n).group with
  | [] => s
  | t :: _ =>
    let s := s.mapCore n fun c => { c.dropHead with overran := some (c.overran.getD t.ctx) }
    afterStop n (taskEnd t.ctx t.tick (abandon t.ctx t.tick 1 s))

/-- TEND of the running task, within its budget. -/
def tend (n : Nat) (s : State) : Option Trap × State :=
  match (s.core n).group with
  | [] => (some (trapOf vOP 0), s)
  | t :: _ =>
    if t.budget < t.used then (none, overrun n s)
    else nextTask n (taskEnd t.ctx t.tick (s.mapCore n Core.dropHead))

/-! Recognition (R354, R355, R363, R364). -/

/-- No recognisable boundary: an NI handler, a REPN within NILIM, between a transfer and its delay slot. -/
def unbroken (s : State) (n : Nat) : Bool := (s.core n).ni || (s.core n).xfer.isSome || deferring s n

/-- The interrupt that would be taken: 16 LAUNCH, else the lowest enabled line. -/
def pendingInt (c : Core) : Option Nat :=
  if natBit c.ipend 16 ∧ c.group = [] ∧ c.waiting ≠ [] then some 16
  else if c.gie then (List.range 16).find? fun j => natBit c.ipend j && natBit c.ien j
  else none

/-- A REPN that has reached its ceiling is cut (R364). -/
def cutCount (n : Nat) (c : Core) (s : State) : State :=
  match c.rep with
  | some r => if r.ni ∧ n < 4 then exPost n 2 1 0 (s.incFld (fEXn_CUTS n)) else s
  | none => s

/-- INTERRUPT_RECOGNITION, where an interrupt is pending, enabled and not deferred. -/
def recognise (n : Nat) (s : State) : Option State :=
  let c := s.core n
  if coreRunning s n = false ∨ c.halted ∨ unbroken s n then none
  else
    let s := cutCount n c s
    match pendingInt c with
    | none => none
    | some 16 => some (enterLaunch n s)
    | some j =>
      let t := enter n ⟨0x30 + j, 0, true, 0⟩ none s
      some (if (t.core n).sb.length ≤ c.sb.length then t else t.mapCore n fun c => { c with ipend := natBitSet c.ipend j false })

end Sys2Proof.Machine
end

