-- ==== Sys2Proof/Machine/SylDecode.lean ====
section
/-!
DEFINITION. Sys2Proof/Machine/SylDecode.lean: the 32-bit word of a syllable (R275 to R277, R285, R291 to R321, R380): the
formats of R276, and the operation that OP and FN select. A reserved value, or a bit set in a field that must be 0, gives a
syllable with `rsv` (R322), on the unit of its major opcode.
-/
namespace Sys2Proof.Machine
open Sys2Proof

/-- Bits [lo + n - 1 : lo] of a word. -/
def wbits (w : Word) (lo n : Nat) : BitVec n := BitVec.ofNat n (w.toNat / 2 ^ lo)

/-! The formats of R276. -/

/-- The operation that a list gives for FN; the first of its group, reserved, where the list has none. -/
def pickFn {α : Type} (l : List α) (dflt : α) (fn : Nat) : Bool × α :=
  match l[fn]? with
  | some x => (false, x)
  | none => (true, dflt)

def wD (w : Word) : BitVec 5 := wbits w 16 5
def wA (w : Word) : BitVec 5 := wbits w 11 5
def wB (w : Word) : BitVec 5 := wbits w 6 5
def wFn (w : Word) : Nat := w.toNat % 64

def aluFns : List AluFn :=
  [.add, .sub, .and, .or, .xor, .andn, .shl, .shr, .sar, .ror, .min, .max, .minu, .maxu, .adds, .subs, .abs, .clz, .popc,
   .sextb, .sexth, .zexth]
def predFns : List PredFn := [.pand, .por, .pxor, .pandn, .pnot, .pmovw, .wmovp]
def mulFns : List MulFn := [.mul, .mulh, .mulhu, .mulq, .macq, .mac]
def bcdFns : List BcdFn := [.badd, .baddc, .bsub, .bsubc, .bshl, .bshr, .bfromb, .btob]
def jumpFns : List JumpFn := [.jr, .callr, .ret]
def waitFns : List WaitFn := [.evw, .evs, .wta, .wtt, .tend, .evch]
def fpFns : List FpFn := [.fadd, .fsub, .fmul, .fdiv, .fma, .fmin, .fmax, .fnma]
def xferFns : List XferFn := [.mvwf, .mvfw, .cvtws, .cvtsw, .cvtqs, .cvtsq, .cvtwd, .cvtdw]
def qmovFns : List QMovFn := [.mov, .splat, .bcast, .ins, .ext]

/-- SYS (R315); FN 0x0B is reserved. -/
def sysFn (fn : Nat) : Bool × SysFn :=
  if fn < 0x0B then pickFn [.fence, .syncI, .rdstat, .wrstat, .rdsys, .wrsys, .csw, .eret, .trap, .tlbi, .tlbsync] .fence fn
  else pickFn [.setbank, .getbank] .fence (fn - 0x0C + (if fn = 0x0B then 2 else 0))

/-- FUN (R297): the operation is B, FN must be 0. -/
def funOp (b : Nat) : Bool × FunFn :=
  if b < 7 then pickFn [.sqrtS, .sqrtD, .negS, .negD, .absS, .absD, .mov] .mov b
  else pickFn [.cvtDS, .cvtSD, .cvtHS, .cvtSH] .mov (if b = 7 then 4 else b - 8)

/-- QF, QX, QI and QH (R320). -/
def qFn (fn : Nat) : Bool × QFn :=
  if fn < 9 then pickFn [.add, .sub, .mul, .mac, .min, .max, .abs, .neg, .sum] .add fn
  else if 0x10 ≤ fn ∧ fn < 0x18 then (false, .cmp (BitVec.ofNat 3 fn))
  else if 0x20 ≤ fn then pickFn [.and, .or, .xor] .add (fn - 0x20)
  else (true, .add)

/-- CAP (R380). -/
def capOp (w : Word) : Bool × Op :=
  let d := wD w
  let a := wA w
  let b := wB w
  match wFn w with
  | 0x00 => (false, .kld d a b)
  | 0x01 => (false, .kst d a b)
  | 0x02 => (false, .cap .kmov d a b)
  | 0x03 => (false, .cap .knarrow d a b)
  | 0x04 => (false, .cap .ktrim d a b)
  | 0x05 => (false, .cap .klock d a b)
  | 0x06 => (false, .cap .kopen d a b)
  | 0x07 => (false, .cap .kvoid d a b)
  | 0x08 => (false, .cap .kfield d a b)
  | 0x0A => (false, .cap .krds d a b)
  | 0x0B => (false, .cap .kwrs d a b)
  | 0x10 => (false, .ldw d a)
  | _ => (true, .cap .kmov d a b)

/-- The groups of format R3. -/
def r3Op (opc : Nat) (w : Word) : Bool × Op :=
  let d := wD w
  let a := wA w
  let b := wB w
  let fn := wFn w
  match opc with
  | 0x01 => let r := pickFn aluFns .add fn; (r.1, .alu r.2 d a b)
  | 0x09 => (false, .cmp d a b (wbits w 0 6))
  | 0x0B => let r := pickFn mulFns .mul fn; (r.1, .mul r.2 d a b)
  | 0x0C => (decide (1 < fn), .div (fn == 1) d a b)
  | 0x0D => let r := pickFn bcdFns .badd fn; (r.1, .bcd r.2 d a b)
  | 0x0E => let r := pickFn predFns .pand fn; (r.1, .pred r.2 d a b)
  | 0x22 => let r := pickFn jumpFns .jr fn; (r.1, .jump r.2 d a b)
  | 0x26 => let r := pickFn waitFns .evw fn; (r.1, .wait r.2 d a b)
  | 0x27 => let r := sysFn fn; (r.1, .sys r.2 d a b)
  | 0x30 => let r := qFn fn; (r.1, .q .qf r.2 d a b)
  | 0x31 => let r := qFn fn; (r.1, .q .qx r.2 d a b)
  | 0x32 => let r := qFn fn; (r.1, .q .qi r.2 d a b)
  | 0x33 => let r := qFn fn; (r.1, .q .qh r.2 d a b)
  | _ => let r := pickFn qmovFns .mov fn; (r.1, .qmov r.2 d a b)

/-- The groups of format F3. -/
def f3Op (opc : Nat) (w : Word) : Bool × Op :=
  let d := wbits w 15 6
  let a := wbits w 9 6
  let b := wbits w 3 6
  let fn := w.toNat % 8
  match opc with
  | 0x28 => let r := pickFn fpFns .fadd fn; (r.1, .fp false r.2 d a b)
  | 0x29 => let r := pickFn fpFns .fadd fn; (r.1, .fp true r.2 d a b)
  | 0x2A => let r := funOp b.toNat; (r.1 || fn != 0, .fun1 r.2 d a)
  | 0x2B => (false, .fcmp d a b (wbits w 0 3))
  | _ => let r := pickFn xferFns .mvwf fn; (r.1, .fxfer r.2 d a)

/-- The operation of a word, and whether it holds a reserved value (R277). -/
def decodeOp (w : Word) : Bool × Op :=
  let opc := w.toNat / 2 ^ 21 % 64
  match opc with
  | 0x00 => (w.toNat % 2 ^ 21 != 0, .nop)
  | 0x02 => (false, .imm .addi (wD w) (wA w) (wbits w 0 11))
  | 0x03 => (false, .imm .andi (wD w) (wA w) (wbits w 0 11))
  | 0x04 => (false, .imm .ori (wD w) (wA w) (wbits w 0 11))
  | 0x05 => (false, .imm .xori (wD w) (wA w) (wbits w 0 11))
  | 0x06 => (false, .shi (wD w) (wA w) (wbits w 0 11))
  | 0x07 => (false, .movi (wD w) (wbits w 0 16))
  | 0x08 => (false, .movhi (wD w) (wbits w 0 16))
  | 0x0A => (false, .cmpi (wbits w 18 3) (wbits w 14 4) (wbits w 9 5) (wbits w 0 9))
  | 0x0F => (w.toNat % 4 != 0, .qsrch (wbits w 15 6) (wbits w 10 5) (wbits w 5 5) (wbits w 3 2) (w.getLsbD 2))
  | 0x10 => (false, .lld (wD w) (wA w) (wbits w 8 3) (wbits w 0 8))
  | 0x11 => (false, .lst (wD w) (wA w) (wbits w 8 3) (wbits w 0 8))
  | 0x12 => (false, .gld (wD w) (wbits w 12 4) (wbits w 7 5) (wbits w 4 3) (wbits w 0 4))
  | 0x13 => (false, .gst (wD w) (wbits w 12 4) (wbits w 7 5) (wbits w 4 3) (wbits w 0 4))
  | 0x14 => (false, .lldf (wbits w 15 6) (wbits w 10 5) (wbits w 8 2) (wbits w 0 8))
  | 0x15 => (false, .lstf (wbits w 15 6) (wbits w 10 5) (wbits w 8 2) (wbits w 0 8))
  | 0x16 => (false, .gldf (wbits w 15 6) (wbits w 11 4) (wbits w 6 5) (wbits w 4 2) (wbits w 0 4))
  | 0x17 => (false, .gstf (wbits w 15 6) (wbits w 11 4) (wbits w 6 5) (wbits w 4 2) (wbits w 0 4))
  | 0x18 => capOp w
  | 0x19 => (w.toNat % 2 ^ 7 != 0, .panq (wD w) (wbits w 12 4) (wbits w 7 5))
  | 0x20 => (false, .br (w.getLsbD 20) (wbits w 0 20))
  | 0x21 => (false, .call (w.getLsbD 20) (wbits w 0 20))
  | 0x23 => (w.toNat / 2 ^ 12 % 16 != 0, .loop (wD w) (wbits w 0 12))
  | 0x24 => (false, .loopi (wbits w 12 9) (wbits w 0 12))
  | 0x25 => (w.toNat / 2 ^ 8 % 64 != 0, .rep (w.getLsbD 20) (w.getLsbD 19) (wbits w 14 5) (wbits w 0 8))
  | 0x01 | 0x09 | 0x0B | 0x0C | 0x0D | 0x0E | 0x22 | 0x26 | 0x27 | 0x30 | 0x31 | 0x32 | 0x33 | 0x34 => r3Op opc w
  | 0x28 | 0x29 | 0x2A | 0x2B | 0x2C => f3Op opc w
  | _ => (true, .nop)

/-- A word of memory as a syllable (R275). -/
def decodeSyl (w : Word) : Syl :=
  let r := decodeOp w
  ⟨⟨w.getLsbD 31, w.getLsbD 30, wbits w 27 3, r.1, none⟩, r.2⟩

end Sys2Proof.Machine
end

