-- ==== Sys2Proof/Machine/Essan.lean ====
section
/-!
DEFINITION. Sys2Proof/Machine/Essan.lean: what each Essan operation does at issue (R287 to R321, R374 to R382, R392 to R400):
its exception, or its effect, from the operands as they were before the bundle (R279).
-/
namespace Sys2Proof.Machine
open Sys2Proof

/-- What an operation does when its bundle issues: A and D bits first (R389), then effects in position order, then
control. `beats` are its Saltern beats (R90), `out` the kind of its first output (R484, R505), `st` the place it stores,
`loc` the words of the core's own data memory that it accesses (R349), `mram` whether it is a read of code MRAM (R333). -/
structure Eff where
  ad : Core → Core
  fx : State → State
  ctl : State → State
  beats : Nat
  out : Nat
  st : Option (Nat × Nat)
  loc : List Nat
  mram : Bool

def Eff.none : Eff := ⟨id, id, id, 0, 0, Option.none, [], false⟩

/-- A synchronous exception, and what stays although the bundle has no effect: BCDINV (R318), and what an ERET has
replayed (R360). -/
structure Stop where
  trap : Trap
  keep : State → State

def stop (t : Trap) : Except Stop Eff := .error ⟨t, id⟩

/-- A bundle at issue: the state and the core as its syllables read them, its address, the address after it, whether it
stores, and the guard of the syllable at hand. -/
structure Iss where
  n : Nat
  s : State
  c : Core
  addr : Nat
  next : Nat
  stores : Bool
  act : Nat

/-! Results. -/

def wR (e : Iss) (i v : Nat) : List Res := match wDst e.c i with | some d => [⟨d, v, bits32⟩] | none => []
def fR (i v : Nat) : List Res := [⟨.f i, v, bits64⟩]
def qR (i v mask : Nat) : List Res :=
  [⟨.f (2 * i), v % 2 ^ 64, mask % 2 ^ 64⟩, ⟨.f (2 * i + 1), v / 2 ^ 64, mask / 2 ^ 64⟩]
def pR (i v : Nat) : List Res := match pDst i with | some d => [⟨d, v, 255⟩] | none => []
def cR (i : Nat) (k : Cap) : List Res := [⟨.c i, k.pack, capBits⟩]
/-- Sticky flags. -/
def flR (m : Nat) : List Res := if m = 0 then [] else [⟨.stat, m, m⟩]

/-- Results that the bundle `left` bundles later reads (R327). -/
def later (e : Iss) (left : Nat) (rs : List Res) : Except Stop Eff :=
  .ok { Eff.none with fx := fun s => s.mapCore e.n fun c => c.queueAll left rs }
/-- A change of the core that the next bundle sees (R329). -/
def now (e : Iss) (f : Core → Core) : Except Stop Eff := .ok { Eff.none with fx := fun s => s.mapCore e.n f }

def rw (e : Iss) (i : BitVec 5) : Nat := (e.c.rdW i.toNat).toNat

/-! Integer operations. -/

def evAlu (e : Iss) (fn : AluFn) (d a b : BitVec 5) : Except Stop Eff :=
  let r := aluRes fn (rw e a) (rw e b)
  later e 1 (wR e d.toNat r.bits ++ flR (stFlags r.fl))

def immFn : ImmFn → AluFn
  | .addi => .add
  | .andi => .and
  | .ori => .or
  | .xori => .xor
def evImm (e : Iss) (fn : ImmFn) (d a : BitVec 5) (imm : BitVec 11) : Except Stop Eff :=
  later e 1 (wR e d.toNat (aluRes (immFn fn) (rw e a) (sxt 11 imm.toNat)).bits)
def evShi (e : Iss) (d a : BitVec 5) (imm : BitVec 11) : Except Stop Eff :=
  later e 1 (wR e d.toNat (shiftFn (imm.toNat / 256) (rw e a) (imm.toNat % 32)))
def evMovi (e : Iss) (d : BitVec 5) (imm : BitVec 16) : Except Stop Eff := later e 1 (wR e d.toNat (sxt 16 imm.toNat))
def evMovhi (e : Iss) (d : BitVec 5) (imm : BitVec 16) : Except Stop Eff :=
  later e 1 (wR e d.toNat (rw e d % 2 ^ 16 + imm.toNat * 2 ^ 16))
def evCmp (e : Iss) (d a b : BitVec 5) (cond : BitVec 6) : Except Stop Eff :=
  later e 1 (pR (d.toNat % 8) (condByte (condInt cond.toNat (rw e a) (rw e b))))
def evCmpi (e : Iss) (pd : BitVec 3) (cond : BitVec 4) (a : BitVec 5) (imm : BitVec 9) : Except Stop Eff :=
  later e 1 (pR pd.toNat (condByte (condInt cond.toNat (rw e a) (sxt 9 imm.toNat))))
def evMul (e : Iss) (fn : MulFn) (d a b : BitVec 5) : Except Stop Eff :=
  let r := mulRes fn (rw e a) (rw e b) (rw e d)
  later e 3 (wR e d.toNat r.bits ++ flR (stFlags r.fl))

/-- DIVU and DIVS start (R310, R311). -/
def evDiv (e : Iss) (sg : Bool) (d a b : BitVec 5) : Except Stop Eff :=
  let r := divRes sg (rw e a) (rw e b)
  let t := divTime (stBit e.c bCT) sg (rw e a) (rw e b)
  let key := fun (i : Nat) => if i = 0 then 0 else wKey e.c i
  let x : PDiv := ⟨key d.toNat, key (d.toNat + 1), r.q, r.r, b2n r.dz * 2 ^ bDZ + b2n r.sat * 2 ^ bISAT, fcycOf e.s + t, bits32,
    bits32⟩
  now e fun c => { ((uW2 c d.toNat).foldl (fun y k => y.cut k bits32) c) with div := some x }

/-- Packed decimal (R317, R318). -/
def evBcd (e : Iss) (fn : BcdFn) (d a b : BitVec 5) : Except Stop Eff :=
  let setInv := fun (s : State) => s.mapCore e.n fun c => c.write .stat (2 ^ bBCDINV) (2 ^ bBCDINV)
  if bcdValid fn (rw e a) (rw e b) = false then
    (if stBit e.c bBCDTRAP then .error ⟨trapOf vBCD 0, setInv⟩ else .ok { Eff.none with fx := setInv })
  else
    let r := bcdRes fn (rw e a) (rw e b) (b2n (stBit e.c bDC))
    let dc := match r.2 with | some x => [⟨.stat, b2n x * 2 ^ bDC, 2 ^ bDC⟩] | none => []
    later e 1 (wR e d.toNat r.1 ++ dc)

def evPred (e : Iss) (fn : PredFn) (d a b : BitVec 5) : Except Stop Eff :=
  match fn with
  | .pmovw => later e 1 (pR (d.toNat % 8) (rw e a % 256))
  | .wmovp => later e 1 (wR e d.toNat (e.c.rdP (a.toNat % 8)))
  | _ => later e 1 (pR (d.toNat % 8) (predRes fn (e.c.rdP (a.toNat % 8)) (e.c.rdP (b.toNat % 8))))

/-! Local memory (R288). -/

def localAddr (e : Iss) (a : BitVec 5) (off : BitVec 8) (size : Nat) : Nat := wrapTo 16 (rw e a + off.toInt * size)
def localPa (e : Iss) (sa : Nat) : Nat := 0x10000000 + e.n * 0x100000 + e.c.bank.toNat % 4 * 0x10000 + sa
/-- The 8-byte words of the core's own data memory that an access touches. -/
def ownWords (e : Iss) (pa size : Nat) : List Nat :=
  match regionOf (coreDie e.n) pa with
  | .lmem _ =>
    if pa / 0x100000 % 4 = e.n ∧ pa % 0x100000 < 0x40000 then (if size = 16 then [pa / 8, pa / 8 + 1] else [pa / 8]) else []
  | _ => []
def localCheck (e : Iss) (store : Bool) (sa size : Nat) : Option Trap :=
  if sa % size ≠ 0 then some (trapOf vALIGN sa)
  else if natBit e.c.bank.toNat 31 = false ∨ natBit e.c.bank.toNat (if store then 3 else 2) = false then
    some (trapOf vLOCAL sa)
  else none

/-- A local load: the third bundle after it reads the data (R286). -/
def evLocalLoad (e : Iss) (a : BitVec 5) (off : BitVec 8) (size : Nat) (res : Nat → List Res) : Except Stop Eff :=
  let sa := localAddr e a off size
  match localCheck e false sa size with
  | some t => stop t
  | none =>
    match readFault e.s .F (localPa e sa) size with
    | some t => stop t
    | none =>
      match later e 3 (res (natOfBytes (memBytes e.s (.lmem (localPa e sa)) size))) with
      | .ok x => .ok { x with out := 2, loc := ownWords e (localPa e sa) size }
      | .error x => .error x

def evLocalStore (e : Iss) (a : BitVec 5) (off : BitVec 8) (bs : List Byte) (fl : Nat) : Except Stop Eff :=
  let sa := localAddr e a off bs.length
  match localCheck e true sa bs.length with
  | some t => stop t
  | none => .ok { Eff.none with
      fx := fun s => (coreWrite e.n (localPa e sa) bs s).mapCore e.n (fun c => c.queueAll 1 (flR fl)), out := 2,
      loc := ownWords e (localPa e sa) bs.length }

/-- Values that stores store. -/
def intBytes (e : Iss) (d : BitVec 5) (sz : Nat) : List Byte :=
  if sz = 5 then bytesOfNat 4 (rw e d) ++ bytesOfNat 4 (e.c.rdW (d.toNat + 1)).toNat else bytesOfNat (intSize sz) (rw e d)
def fpBytes (e : Iss) (d : BitVec 6) (sz : Nat) : List Byte :=
  if sz = 3 then bytesOfNat 16 (e.c.rdQ (d.toNat / 2))
  else bytesOfNat (fpSize sz) (fpStore sz (stRnd e.c) (e.c.rdF d.toNat)).bits
def fpStFlags (e : Iss) (d : BitVec 6) (sz : Nat) : Nat :=
  if sz = 3 then 0 else stFlags (fpStore sz (stRnd e.c) (e.c.rdF d.toNat)).fl

def evLld (e : Iss) (d a : BitVec 5) (sz : BitVec 3) (off : BitVec 8) : Except Stop Eff :=
  evLocalLoad e a off (intSize sz.toNat) fun v =>
    wR e d.toNat (intLoad sz.toNat v).1 ++ (if sz = 5 then wR e (d.toNat + 1) (intLoad 5 v).2 else [])
def evLst (e : Iss) (d a : BitVec 5) (sz : BitVec 3) (off : BitVec 8) : Except Stop Eff :=
  evLocalStore e a off (intBytes e d sz.toNat) 0
def evLldf (e : Iss) (d : BitVec 6) (a : BitVec 5) (sz : BitVec 2) (off : BitVec 8) : Except Stop Eff :=
  evLocalLoad e a off (fpSize sz.toNat) fun v =>
    if sz = 3 then qR (d.toNat / 2) v (2 ^ 128 - 1) else fR d.toNat (fpLoad sz.toNat v)
def evLstf (e : Iss) (d : BitVec 6) (a : BitVec 5) (sz : BitVec 2) (off : BitVec 8) : Except Stop Eff :=
  evLocalStore e a off (fpBytes e d sz.toNat) (fpStFlags e d sz.toNat)

/-! Global memory (R290). -/

/-- The kind of output that an access is (R484). -/
def outKind (e : Iss) (pa : Nat) : Nat :=
  match regionOf (coreDie e.n) pa with
  | .page _ _ => 4
  | .lmem a => if a / 0x100000 % 4 = e.n then 2 else 3
  | _ => 3

/-- EA as a number; one below zero is beyond every capability. -/
def eaOf (k : Cap) (x : Nat) (off : BitVec 4) (size : Nat) : Nat := wrapTo 64 ((k.base + x : Nat) + off.toInt * size)

/-- Every bit of a destination. -/
def dstBits : Dst → Nat
  | .f _ => bits64
  | .c _ => capBits
  | _ => bits32
/-- A read takes the place of every earlier write on its way to its destinations (R328), and a request of the core's
matrix port (R122). -/
def Core.startLoad (l : PLoad) (c : Core) : Core :=
  let c := (loadDst l.kind).foldl (fun y d => y.cut d (dstBits d)) c
  { c with loads := c.loads ++ [l] }
def readPort (n pa : Nat) (s : State) : State :=
  if n < 4 ∧ viaMatrix n pa then portPeak (77 + n) (inFlight s (77 + n)) s else s
/-- A checked global read becomes pending (R286). -/
def pendRead (e : Iss) (pa size : Nat) (ad : Core → Core) (kind : LKind) : Eff :=
  let early := if e.stores then some (earlyOf e.s e.n pa size) else none
  { Eff.none with
    ad := ad, fx := fun s => readPort e.n pa (s.mapCore e.n (Core.startLoad ⟨pa, size, kind, 0, early, []⟩)),
    beats := beatsOf e.n pa size, out := outKind e pa, loc := ownWords e pa size,
    mram := decide (e.n < 4) && decide (0x40000000 ≤ pa) && decide (pa < 0x41000000) }

def evRead (e : Iss) (a : AccKind) (k : Cap) (ea size : Nat) (kind : LKind) : Except Stop Eff :=
  match dataAccess e.s e.n e.c a false k ea size size 0 with
  | .error t => stop t
  | .ok x => .ok (pendRead e x.pa size (adSet a x) kind)

/-- A checked global store. -/
def evWrite (e : Iss) (k : Cap) (ea : Nat) (bs : List Byte) (fl : Nat) : Except Stop Eff :=
  match dataAccess e.s e.n e.c .store false k ea bs.length bs.length (natOfBytes bs) with
  | .error t => stop t
  | .ok x => .ok { Eff.none with
      ad := adSet .store x, fx := fun s => (coreWrite e.n x.pa bs s).mapCore e.n (fun c => c.queueAll 1 (flR fl)),
      beats := beatsOf e.n x.pa bs.length, out := outKind e x.pa, st := some (x.pa, bs.length),
      loc := ownWords e x.pa bs.length }

def keyOf (e : Iss) (i : Nat) : Nat := if i = 0 then 0 else wKey e.c i

def evGld (e : Iss) (d : BitVec 5) (k : BitVec 4) (a : BitVec 5) (sz : BitVec 3) (off : BitVec 4) : Except Stop Eff :=
  let size := intSize sz.toNat
  evRead e .load (e.c.rdC k.toNat) (eaOf (e.c.rdC k.toNat) (rw e a) off size) size
    (.int sz.toNat (keyOf e d.toNat) (keyOf e (d.toNat + 1)))
def evGst (e : Iss) (d : BitVec 5) (k : BitVec 4) (a : BitVec 5) (sz : BitVec 3) (off : BitVec 4) : Except Stop Eff :=
  evWrite e (e.c.rdC k.toNat) (eaOf (e.c.rdC k.toNat) (rw e a) off (intSize sz.toNat)) (intBytes e d sz.toNat) 0
def evGldf (e : Iss) (d : BitVec 6) (k : BitVec 4) (a : BitVec 5) (sz : BitVec 2) (off : BitVec 4) : Except Stop Eff :=
  let size := fpSize sz.toNat
  evRead e .load (e.c.rdC k.toNat) (eaOf (e.c.rdC k.toNat) (rw e a) off size) size (.fp sz.toNat d.toNat)
def evGstf (e : Iss) (d : BitVec 6) (k : BitVec 4) (a : BitVec 5) (sz : BitVec 2) (off : BitVec 4) : Except Stop Eff :=
  evWrite e (e.c.rdC k.toNat) (eaOf (e.c.rdC k.toNat) (rw e a) off (fpSize sz.toNat)) (fpBytes e d sz.toNat)
    (fpStFlags e d sz.toNat)

/-- KLD and KST (R382). -/
def evKld (e : Iss) (d a b : BitVec 5) : Except Stop Eff :=
  let k := e.c.rdC b.toNat
  evRead e .kld k (k.base + rw e a) 16 (.cap d.toNat)
def evKst (e : Iss) (d a b : BitVec 5) : Except Stop Eff :=
  let k := e.c.rdC b.toNat
  let v := e.c.rdC d.toNat
  match dataAccess e.s e.n e.c .kst v.live k (k.base + rw e a) 16 16 0 with
  | .error t => stop t
  | .ok x => .ok { Eff.none with
      ad := adSet .kst x, fx := coreWriteCap e.n x.pa ⟨v.live, v.bits⟩, beats := beatsOf e.n x.pa 16,
      out := outKind e x.pa, st := some (x.pa, 16), loc := ownWords e x.pa 16 }

/-- The walk load (R393). -/
def evLdw (e : Iss) (d a : BitVec 5) : Except Stop Eff :=
  if rw e a % 8 ≠ 0 then stop (trapOf vALIGN (rw e a))
  else
    match translateWalk e.n e.c (rw e a) with
    | .error t => stop t
    | .ok x => .ok (pendRead e x.pa 8 (adSet .ldw x) (.ldw (keyOf e d.toNat) (keyOf e (d.toNat + 1))))

/-- PANQ: the descriptor is read as a load, and queued when it arrives (R144, R314). -/
def evPanq (e : Iss) (d : BitVec 5) (k : BitVec 4) (a : BitVec 5) : Except Stop Eff :=
  let q := e.c.rdC k.toNat
  match evRead e .panq q (q.base + rw e a) 32 (.panq (keyOf e d.toNat) q) with
  | .ok x => .ok { x with out := 5 }
  | .error t => .error t

/-! Capabilities (R378 to R381). -/

/-- Tag, then seal, then the permission, of a capability; EINFO is the base of the one checked first. -/
def keyCheck (k : Cap) (info : Nat) (perm : Option Nat) : Option Trap :=
  if k.live = false then some (trapOf vTAG info)
  else if k.sealed then some (trapOf vSEAL info)
  else match perm with
    | some p => if k.perm p then none else some (trapOf vPERM info)
    | none => none

def evKnarrow (e : Iss) (d a b : BitVec 5) : Except Stop Eff :=
  let k := e.c.rdC a.toNat
  let off := rw e b
  let len := (e.c.rdW (b.toNat + 1)).toNat
  match keyCheck k k.base none with
  | some t => stop t
  | none =>
    if k.len < off + len then stop (trapOf vBOUND (k.base + off))
    else later e 1 (cR d.toNat (Cap.make (k.base + off) len k.perms 0))

def evKtrim (e : Iss) (d a b : BitVec 5) : Except Stop Eff :=
  let k := e.c.rdC a.toNat
  match keyCheck k k.base none with
  | some t => stop t
  | none => later e 1 (cR d.toNat (Cap.make k.base k.len (Nat.land k.perms (rw e b % 2 ^ 16)) k.otype))

def evKlock (e : Iss) (d a b : BitVec 5) : Except Stop Eff :=
  let k := e.c.rdC d.toNat
  let y := e.c.rdC a.toNat
  let t := rw e b % 2 ^ 16
  match keyCheck k k.base none, keyCheck y k.base (some pSEAL) with
  | some x, _ => stop x
  | none, some x => stop x
  | none, none =>
    if t = 0 ∨ t < y.base ∨ y.base + y.len ≤ t then stop (trapOf vBOUND t)
    else later e 1 (cR d.toNat (Cap.make k.base k.len k.perms t))

def evKopen (e : Iss) (d a : BitVec 5) : Except Stop Eff :=
  let k := e.c.rdC d.toNat
  let y := e.c.rdC a.toNat
  if k.live = false then stop (trapOf vTAG k.base)
  else if k.sealed = false then stop (trapOf vSEAL k.base)
  else
    match keyCheck y k.base (some pSEAL) with
    | some x => stop x
    | none =>
      if k.otype < y.base ∨ y.base + y.len ≤ k.otype then stop (trapOf vBOUND k.otype)
      else later e 1 (cR d.toNat (Cap.make k.base k.len k.perms 0))

/-- A field of a capability (R380). -/
def capField (k : Cap) (sel : Nat) : Nat :=
  match sel with
  | 0 => k.base % 2 ^ 32
  | 1 => k.base / 2 ^ 32
  | 2 => k.len % 2 ^ 32
  | 3 => k.len / 2 ^ 32
  | 4 => k.perms
  | 5 => k.otype
  | _ => b2n k.tag

/-- DFCAP and ESTKCAP are held once DFLOCK is set (R379). -/
def kwrs (i : Nat) (k : Cap) (c : Core) : Core :=
  if natBit c.dfvec.toNat 0 ∧ (i = scDFCAP ∨ i = scESTKCAP) then c else { c with sc := storeSet Cap.zero c.sc i k }

def evCap (e : Iss) (fn : CapFn) (d a b : BitVec 5) : Except Stop Eff :=
  let k := e.c.rdC a.toNat
  match fn with
  | .kmov => later e 1 (cR d.toNat k)
  | .kvoid => later e 1 (cR d.toNat ⟨false, k.bits⟩)
  | .knarrow => evKnarrow e d a b
  | .ktrim => evKtrim e d a b
  | .klock => evKlock e d a b
  | .kopen => evKopen e d a
  | .kfield => later e 1 (wR e d.toNat (capField k b.toNat))
  | .krds => later e 1 (cR d.toNat (e.c.rdS (b.toNat % 4)))
  | .kwrs => now e (kwrs (b.toNat % 4) k)

/-! Transfers (R298) and prediction (R337 to R340). -/

def btbIdx (a : Nat) : Nat := a / 4 % 256
def btbTag (a : Nat) : Nat := a / 1024
def BtbEnt.zero : BtbEnt := ⟨0, 0, 0, 0⟩
/-- The entry that a transfer hits; a counter and target of an entry never written are not a hit. -/
def btbHit (c : Core) (a : Nat) : Option BtbEnt :=
  let b := storeGet BtbEnt.zero c.btb (btbIdx a)
  if b ≠ BtbEnt.zero ∧ b.tag = btbTag a + 1 then some b else none

def xKindCode : XKind → Nat
  | .br => 0
  | .call => 0
  | .jr => 1
  | .callr => 1
  | .ret => 2

/-! The return stack (R338): 8 entries in a ring. -/

/-- A push onto a full stack overwrites the oldest entry. -/
def Core.rasPush (a : Nat) (c : Core) : Core :=
  let top := (c.rasTop + 1) % 8
  { c with ras := storeSet 0 c.ras top a, rasTop := top, rasDepth := min 8 (c.rasDepth + 1) }
def Core.rasPeek (c : Core) : Option Nat := if c.rasDepth = 0 then none else some (storeGet 0 c.ras c.rasTop)
def Core.rasPop (c : Core) : Core :=
  if c.rasDepth = 0 then c else { c with rasTop := (c.rasTop + 7) % 8, rasDepth := c.rasDepth - 1 }
/-- The stack as a wrong path sees it: entries that it overwrites stay overwritten, the pointer returns. -/
def Core.rasOff (f : Core → Core) (c : Core) : Core :=
  let p := c.rasWrong.getD (c.rasTop, c.rasDepth)
  let d := f { c with rasTop := p.1, rasDepth := p.2 }
  { d with rasTop := c.rasTop, rasDepth := c.rasDepth, rasWrong := some (d.rasTop, d.rasDepth) }

/-- The predicted target of a transfer, where it is predicted taken. -/
def predicted (c : Core) (kind : XKind) (rasen : Bool) (addr : Nat) : Option Nat :=
  if kind = .ret then (if rasen then c.rasPeek else none)
  else match btbHit c addr with
    | some b => if 2 ≤ b.cnt then some b.target else none
    | none => none

/-- The buffer after an issued transfer. -/
def btbUpdate (c : Core) (x : Xfer) : Core :=
  match btbHit c x.addr, x.taken with
  | none, false => c
  | none, true => { c with btb := storeSet BtbEnt.zero c.btb (btbIdx x.addr) ⟨btbTag x.addr + 1, x.target, xKindCode x.kind, 2⟩ }
  | some b, true => { c with btb := storeSet BtbEnt.zero c.btb (btbIdx x.addr) { b with target := x.target, kind := xKindCode x.kind, cnt := min 3 (b.cnt + 1) } }
  | some b, false => { c with btb := storeSet BtbEnt.zero c.btb (btbIdx x.addr) { b with cnt := b.cnt - 1 } }

/-- What an issued transfer does to the predictor and its counters; on S0 they are not modelled. -/
def predict (n : Nat) (x : Xfer) (s : State) : State :=
  if 4 ≤ n then s
  else
    let c := s.core n
    if s.flag (fEPn_CTRL_BPEN n) = false then (if x.taken then s.incFld (fEPn_MISPRED n) else s)
    else
      let rasen := s.flag (fEPn_CTRL_RASEN n)
      let p := predicted c x.kind rasen x.addr
      let redirect := (x.taken && p != some x.target) || (!x.taken && p.isSome)
      let s := if (btbHit c x.addr).isSome then s.incFld (fEPn_BTBHIT n) else s
      let s := if redirect then s.incFld (fEPn_MISPRED n) else s
      let s := if redirect ∧ x.kind = .ret ∧ p.isSome then s.incFld (fEPn_RASMISS n) else s
      s.mapCore n fun c =>
        let c := btbUpdate c x
        if x.kind = .ret then c.rasPop else c

/-- The bits of w31 that the call's link gets: higher positions of its bundle prevail (R279). -/
def linkMask (c : Core) (k : Nat) : Nat :=
  if c.loads.any (fun l => (loadDst l.kind).contains (.w k)) ∨ c.div.any (fun d => d.k1 == k || d.k2 == k) then 0
  else (c.pend.filter fun p => p.dst == .w k).foldl (fun m p => lessBits m p.mask) bits32
/-- The delay slot of a transfer is at hand: a call's link goes to w31, once, and the address after the slot to the return
stack (R298, R338, R370). -/
def linkCall (n next : Nat) (bpen : Bool) (c : Core) : Core :=
  match c.xfer with
  | some ⟨k, _, taken, _, _, again⟩ =>
    if k = .call ∨ k = .callr then
      let c := if taken ∧ again = false then c.put (.w (wKey c 31)) next (linkMask c (wKey c 31)) else c
      if bpen ∧ n < 4 then c.rasPush next else c
    else c
  | none => c
/-- A call issues: its link takes the place of what earlier bundles and lower positions have on its way to w31. -/
def linkCut (x : Xfer) (c : Core) : Core :=
  if (x.kind = .call ∨ x.kind = .callr) ∧ x.taken ∧ x.again = false then c.cut (.w (wKey c 31)) bits32 else c

/-- The spill or fill of a taken call or return, done when it issues (R282). -/
def xferWindow (n : Nat) (x : Xfer) (s : State) : Except Nat State :=
  if x.taken = false then .ok s
  else match x.kind with
    | .call => spillIfFull n s
    | .callr => spillIfFull n s
    | .ret => fill n s
    | _ => .ok s
def xferBeats (n : Nat) (x : Xfer) (s : State) : Nat :=
  if x.taken = false then 0
  else match x.kind with
    | .call => spillBeats s n
    | .callr => spillBeats s n
    | .ret => fillBeats s n
    | _ => 0
/-- A window operation with the WSCAP that its bundle found: a KWRS beside it takes effect for the next bundle (R329). -/
def withWscap (e : Iss) (f : State → State) (s : State) : State :=
  let set := fun (k : Cap) (t : State) => t.mapCore e.n fun c => { c with sc := storeSet Cap.zero c.sc scWSCAP k }
  set ((s.core e.n).rdS scWSCAP) (f (set (e.c.rdS scWSCAP) s))
def xferGo (n : Nat) (x : Xfer) (s : State) : State :=
  let t := match xferWindow n x s with | .ok t => t | .error _ => s
  (predict n x t).mapCore n fun c => { c with xfer := some x }

def evXfer (e : Iss) (kind : XKind) (target : Nat) (an : Bool) : Except Stop Eff :=
  let taken := natBit e.act 0
  let x : Xfer := match e.c.redo with
    | some r => ⟨kind, e.addr, r.taken, r.target, false, true⟩
    | none => ⟨kind, e.addr, taken, target, an && !taken, false⟩
  match xferWindow e.n x e.s with
  | .error a => stop (trapOf vSPILL a)
  | .ok _ => .ok { Eff.none with
      fx := fun s => s.mapCore e.n (linkCut x), ctl := withWscap e (xferGo e.n x), beats := xferBeats e.n x e.s }

def dispTarget (e : Iss) (disp : BitVec 20) : Nat := wrapTo 32 (e.addr + 4 * disp.toInt)

def evJump (e : Iss) (fn : JumpFn) (a : BitVec 5) : Except Stop Eff :=
  match fn with
  | .jr => evXfer e .jr (rw e a) false
  | .callr => evXfer e .callr (rw e a) false
  | .ret => evXfer e .ret (rw e 15) false

/-! Loops and repetitions (R300 to R306). -/

/-- The syllable at a virtual address as fetch sees it: of its line buffer, or of memory (R275, R331, R343). -/
def sylAt (s : State) (n addr : Nat) : Syl :=
  let c := s.core n
  match lookup n c .fetch addr with
  | .ok x => decodeSyl (BitVec.ofNat 32 (natOfBytes ((codeBytes s n c x.pa).map fun b => b.getD 0)))
  | .error _ => decodeSyl 0
/-- The syllables at an address, up to the first with its stop bit, at most k. -/
def sylsAt (s : State) (n : Nat) : Nat → Nat → List Syl
  | 0, _ => []
  | k + 1, addr =>
    let x := sylAt s n addr
    if x.hdr.s then [x] else x :: sylsAt s n k (addr + 4)
def bundleAt (s : State) (n addr : Nat) : List Syl := sylsAt s n 6 addr
def bundleLen (s : State) (n addr : Nat) : Nat := 4 * (bundleAt s n addr).length

def loopActive (r : LoopRegs) (i : Nat) : Bool := natBit r.lctl.toNat i
def loopWb (r : LoopRegs) (i : Nat) : Nat := natBits r.lctl.toNat (8 + 8 * i) 5
def Core.loopRegs (c : Core) : LoopRegs := ⟨c.lstart, c.lend, c.lctl⟩
/-- A LOOP, or the end of one, changes the loop registers for every bundle, those in the fetch queue included (R341). -/
def Core.mapLoops (f : LoopRegs → LoopRegs) (c : Core) : Core :=
  { c with lstart := (f c.loopRegs).lstart, lend := (f c.loopRegs).lend, lctl := (f c.loopRegs).lctl,
           fq := c.fq.map fun b => { b with loops := b.loops.map f } }
/-- A WRSYS of LSTARTi, LENDi or LCTL: the bundles in the fetch queue keep the registers as they were (R329). -/
def Core.holdLoops (c : Core) : Core := { c with fq := c.fq.map fun b => { b with loops := some (b.loops.getD c.loopRegs) } }
def LoopRegs.set (wb i first last count : Nat) (r : LoopRegs) : LoopRegs :=
  let l := r.lctl.toNat
  let l := l % 2 ^ (8 + 8 * i) + wb * 2 ^ (8 + 8 * i) + l / 2 ^ (13 + 8 * i) * 2 ^ (13 + 8 * i)
  ⟨storeSet 0 r.lstart i first, storeSet 0 r.lend i last, BitVec.ofNat 32 (natBitSet l i (decide (0 < count)))⟩
def Core.loopSet (c : Core) (i first last count : Nat) : Core :=
  { c.mapLoops (LoopRegs.set c.wb i first last count) with lcnt := storeSet 0 c.lcnt i count }

def evLoop (e : Iss) (count : Nat) (off : BitVec 12) : Except Stop Eff :=
  let last := (e.addr + 4 * off.toNat) % 2 ^ 32
  let r := e.c.loopRegs
  let i := if loopActive r 0 then 1 else 0
  if loopActive r 0 ∧ loopActive r 1 then stop (trapOf vLOOP 0)
  else if count = 0 then
    .ok { Eff.none with
      fx := fun s => s.mapCore e.n fun c => c.loopSet i e.next last 0,
      ctl := fun s => s.mapCore e.n fun c => { c with pc := (last + bundleLen s e.n last) % 2 ^ 32 } }
  else now e fun c => c.loopSet i e.next last count

/-- A count of 0 skips the next bundle; any other repeats it. In an NI handler the deferral span goes on (R363). -/
def repGo (e : Iss) (ni : Bool) (k : Nat) (s : State) : State :=
  s.mapCore e.n fun c =>
    let c := { c with status := BitVec.ofNat 32 (c.status.toNat % 2 ^ 22), span := if c.ni then c.span else 0 }
    if k = 0 then { c with pc := (e.next + bundleLen s e.n e.next) % 2 ^ 32 }
    else { c with rep := some ⟨ni, k, e.addr, none, e.next⟩ }

/-- REP and REPN; a count in STATUS.RCNT resumes an interrupted repetition (R304, R305). -/
def evRep (e : Iss) (ni reg : Bool) (a : BitVec 5) (count : BitVec 8) : Except Stop Eff :=
  let r := natBits e.c.status.toNat 23 9
  let k := if r ≠ 0 then r else if reg then rw e a else if count = 0 then 256 else count.toNat
  if k = 0 ∧ illegalBody (bundleAt e.s e.n e.next) then stop (trapOf vBUNDLE 0)
  else if 256 < k ∧ r = 0 then stop (trapOf vREP k)
  else .ok { Eff.none with ctl := repGo e ni k }

/-! Events and waits (R307 to R309, R314). -/

/-- A timed wait: at once when its target is reached, else issue stops. -/
def evTimed (e : Iss) (reached : Bool) (w : Wait) : Except Stop Eff :=
  let past := reached && !stBit e.c bWRESUME
  now e fun c =>
    let c := c.setStat bWAITPAST past
    if reached then c.setStat bWRESUME false else { c with wait := some w }

def evWait (e : Iss) (fn : WaitFn) (a : BitVec 5) : Except Stop Eff :=
  let x := rw e a
  let t := x + 2 ^ 32 * (e.c.rdW (a.toNat + 1)).toNat
  match fn with
  | .evw =>
    if stBit e.c bEVF then now e fun c => (c.setStat bEVF false).setStat bEVTO false
    else now e fun c => { c with wait := some (.evw (if x = 0 then none else some (fcycOf e.s + x))) }
  | .evs => .ok { Eff.none with
      fx := fun s => (List.range 4).foldl (fun u i => if natBit x i then evfArrive i u else u) s, out := 6 }
  | .wta => evTimed e (decide (t ≤ angleOf e.s)) (.angle t e.addr)
  | .wtt => evTimed e (decide (t ≤ tickNo e.s)) (.tick t e.addr)
  | .tend =>
    match (tend e.n e.s).1, e.c.group with
    | some tr, [] => stop tr
    | some tr, _ :: _ => .error ⟨tr, fun s => (eretLevel e.n (taskLeave e.n s)).2⟩
    | none, _ => .ok { Eff.none with ctl := fun s => (tend e.n s).2, out := 5 }
  | .evch => .ok { Eff.none with fx := pulse (x % 256) false, out := 6 }

/-! System registers (R285). -/

def exsOf (c : Core) : Nat :=
  c.span % 65536 * 2 ^ 16 + b2n c.df.isSome * 2 ^ 9 + b2n c.ni * 2 ^ 8 + b2n c.iovr * 2 ^ 7 + c.sb.length * 2 ^ 4 + b2n c.gie
def topOf (c : Core) (f : SaveLevel → Nat) : Nat := match c.sb with | l :: _ => f l | [] => 0

/-- What RDSYS reads; none for a reserved number. -/
def sysRead (n : Nat) (c : Core) (k : Nat) : Option Nat :=
  match k with
  | 0x001 => some c.bank.toNat
  | 0x002 => some (if n = 4 then 4 else n)
  | 0x010 => some c.wb
  | 0x011 => some c.wres
  | 0x012 => some c.wsoff
  | 0x020 => some (storeGet 0 c.lstart 0)
  | 0x021 => some (storeGet 0 c.lstart 1)
  | 0x022 => some (storeGet 0 c.lend 0)
  | 0x023 => some (storeGet 0 c.lend 1)
  | 0x024 => some (storeGet 0 c.lcnt 0)
  | 0x025 => some (storeGet 0 c.lcnt 1)
  | 0x026 => some c.lctl.toNat
  | 0x100 => some c.tbase
  | 0x101 => some (exsOf c)
  | 0x102 => some c.ien
  | 0x103 => some c.ipend
  | 0x104 => some c.dfvec.toNat
  | 0x108 => some (topOf c fun l => l.epc)
  | 0x109 => some (topOf c fun l => l.estat.toNat)
  | 0x10A => some (topOf c fun l => l.cause.toNat + l.replay.length % 64 * 2 ^ 16)
  | 0x10B => some (topOf c fun l => l.einfo)
  | 0x10C => some c.dfLast.pc
  | 0x10D => some c.dfLast.cause
  | 0x10E => some c.dfLast.info
  | 0x10F => some (topOf c fun l => l.ebtgt)
  | 0x110 => some (c.blkMode * 2 ^ 16 + b2n c.adtrack * 2 ^ 8)
  | 0x111 => some c.asid
  | 0x112 => some (c.xbadva % 2 ^ 32)
  | 0x113 => some (c.xbadva / 2 ^ 32 % 2 ^ 8)
  | 0x114 => some (b2n c.tlbMiss * 2 ^ 31 + c.tlbIdx)
  | 0x115 => some c.tlbNext
  | 0x116 => some c.tlbVa
  | 0x117 => some c.tlbPa
  | 0x118 => some c.tlbAttr.toNat
  | 0x119 => some 0
  | k =>
    if 0x140 ≤ k ∧ k ≤ 0x17F then
      let b := blkOf c ((k - 0x140) / 4)
      match k % 4 with
      | 0 => some b.vb
      | 1 => some b.len
      | 2 => some b.pb
      | _ => some b.attr.toNat
    else none

/-- TLBCMD (R392). -/
def tlbWrite (i : Nat) (c : Core) : Core := { c with tlb := storeSet TlbEnt.zero c.tlb i ⟨c.tlbVa, c.tlbPa, c.tlbAttr⟩ }
def tlbWrNext (c : Core) : Core := { tlbWrite c.tlbNext c with tlbNext := (c.tlbNext + 1) % 64 }
def tlbRead (c : Core) : Core :=
  let x := tlbOf c c.tlbIdx
  { c with tlbVa := x.va, tlbPa := x.pa, tlbAttr := x.attr }
def tlbProbe (c : Core) : Core :=
  match tlbFind c (c.tlbVa * 4096) with
  | some j => { c with tlbIdx := j, tlbMiss := false }
  | none => { c with tlbMiss := true }
def tlbCmd (op : Nat) (c : Core) : Core :=
  match op with
  | 1 => tlbWrite c.tlbIdx c
  | 2 => tlbWrNext c
  | 3 => tlbRead c
  | 4 => tlbProbe c
  | _ => c

def blkWrite (c : Core) (k v : Nat) : Core :=
  let i := (k - 0x140) / 4
  let b := blkOf c i
  let x : Blk := match k % 4 with
    | 0 => { b with vb := v % 2 ^ 28 }
    | 1 => { b with len := min (v % 2 ^ 25) 0x1000000 }
    | 2 => { b with pb := v % 2 ^ 28 }
    | _ => { b with attr := BitVec.ofNat 32 (Nat.land v 0x8FFF00FF) }
  { c with blk := storeSet Blk.zero c.blk i x }

/-- What WRSYS writes (R285, R351 to R369, R401). -/
def sysWrite (n k v : Nat) (c : Core) : Core :=
  match k with
  | 0x001 => { c with bank := BitVec.ofNat 32 (Nat.land v 0x8000000F) }
  | 0x012 => { c with wsoff := v }
  | 0x020 => { c.holdLoops with lstart := storeSet 0 c.lstart 0 v }
  | 0x021 => { c.holdLoops with lstart := storeSet 0 c.lstart 1 v }
  | 0x022 => { c.holdLoops with lend := storeSet 0 c.lend 0 v }
  | 0x023 => { c.holdLoops with lend := storeSet 0 c.lend 1 v }
  | 0x024 => { c with lcnt := storeSet 0 c.lcnt 0 v }
  | 0x025 => { c with lcnt := storeSet 0 c.lcnt 1 v }
  | 0x026 => { c.holdLoops with lctl := BitVec.ofNat 32 (Nat.land v 0x001F1F03) }
  | 0x100 => { c with tbase := v / 1024 * 1024 }
  | 0x101 => { c with gie := natBit v 0, iovr := c.iovr && !natBit v 7 }
  | 0x102 => { c with ien := v % 2 ^ 16 }
  | 0x104 => if natBit c.dfvec.toNat 0 then c else { c with dfvec := BitVec.ofNat 32 (v / 4 * 4 + v % 2) }
  | 0x108 => c.setTop fun l => { l with epc := v }
  | 0x109 => c.setTop fun l => { l with estat := BitVec.ofNat 32 v }
  | 0x110 => { c with
      blkMode := if n = 4 ∨ natBits v 16 2 = 3 then 0 else natBits v 16 2, adtrack := natBit v 8 }
  | 0x111 => { c with asid := v % 2 ^ 12 }
  | 0x114 => { c with tlbIdx := v % 2 ^ 6 }
  | 0x115 => { c with tlbNext := v % 2 ^ 6 }
  | 0x116 => { c with tlbVa := v % 2 ^ 28 }
  | 0x117 => { c with tlbPa := v % 2 ^ 28 }
  | 0x118 => { c with tlbAttr := BitVec.ofNat 32 (Nat.land v 0xBFFF003F) }
  | 0x119 => tlbCmd (v % 8) c
  | k => if 0x140 ≤ k ∧ k ≤ 0x17F then blkWrite c k v else c

/-- The vector table must lie in the core's own code RAM, on S0 in the H-die boot ROM (R324, R351). -/
def tbaseOk (n v : Nat) : Bool :=
  if n = 4 then decide (0xFFFC0000 ≤ v) else decide (v / 0x10000 = 0x1008 + n * 0x10)

/-! TLBI (R396). -/

def tlbiHits (t : Tlbi) (e : TlbEnt) : Bool :=
  let g := natBit e.attr.toNat 5
  let as := natBits e.attr.toNat 16 12
  match t.kind with
  | 0 => true
  | 1 => !g && as == t.asid
  | 2 => tlbCovers e (t.arg * 4096) && (g || as == t.asid)
  | _ => tlbCovers e (t.arg * 4096)
def tlbDrop (t : Tlbi) (c : Core) : Core := { c with tlb := c.tlb.filter fun x => !tlbiHits t x.2 }
/-- The issuer applies it and counts it, and every other core queues it (R396, R401). -/
def tlbiGo (n : Nat) (t : Tlbi) (s : State) : State :=
  ((List.range 4).foldl (fun u i =>
    u.mapCore i fun c => if i = n then tlbDrop t c else { c with tlbq := c.tlbq ++ [t] }) s).incFld (fXVn_TLBICNT n)

/-! SYS operations (R315). -/

def wrStat (v : Nat) (c : Core) : Core :=
  let c := c.write .stat v stRW
  { c with fdivs := c.fdivs.map fun d => { d with mute := true },
           div := c.div.map fun d => { d with flags := 0 } }

/-- SETBANK (R289). -/
def bankBase (n sel : Nat) : Nat := 0x10000000 + n * 0x100000 + sel * 0x10000
def bankWord (k : Cap) (sel : Nat) : Word := BitVec.ofNat 32 (2 ^ 31 + b2n (k.perm pSTORE) * 8 + 4 + sel)
def evSetbank (e : Iss) (a b : BitVec 5) : Except Stop Eff :=
  let k := e.c.rdC a.toNat
  let sel := b.toNat % 4
  match keyCheck k (bankBase e.n sel) (some pLOAD) with
  | some t => stop t
  | none =>
    if k.covers (bankBase e.n sel) 0x10000 = false then stop (trapOf vBOUND (bankBase e.n sel))
    else now e fun c => { c with bank := bankWord k sel }

/-- CSW (R316, R376): the new PCC must be tagged, unsealed and hold EXEC. -/
def evCsw (e : Iss) (a : BitVec 5) : Except Stop Eff :=
  let k := e.c.rdC a.toNat
  match keyCheck k k.base (some pEXEC) with
  | some t => stop t
  | none => .ok { Eff.none with ctl := fun s => s.mapCore e.n fun c => { c with pcc := k } }

/-- ERET, or DERET while DFACT is 1 (R360, R367). -/
def evEret (e : Iss) : Except Stop Eff :=
  if e.c.df.isSome then .ok { Eff.none with ctl := deret e.n }
  else if e.c.sb = [] then stop (trapOf vOP 0)
  else match eretLevel e.n e.s with
    | (some tr, _) => .error ⟨tr, fun s => (eretLevel e.n s).2⟩
    | (none, _) => .ok { Eff.none with ctl := withWscap e fun s => (eretLevel e.n s).2, beats := eretBeats e.s e.n }

def evSys (e : Iss) (fn : SysFn) (d a b : BitVec 5) : Except Stop Eff :=
  match fn with
  | .fence => .ok Eff.none
  | .syncI => .ok { Eff.none with ctl := fun s => s.mapCore e.n Core.flushLines }
  | .rdstat => later e 1 (wR e d.toNat e.c.status.toNat)
  | .wrstat => now e (wrStat (rw e d))
  | .rdsys =>
    match sysRead e.n e.c (sysNum a b) with
    | some v => later e 1 (wR e d.toNat v)
    | none => .ok { Eff.none with
        fx := fun s => (s.mapCore e.n fun c => c.queueAll 1 (wR e d.toNat (s.freeVal % 2 ^ 32))).stepFree }
  | .wrsys =>
    if sysNum a b = 0x100 ∧ tbaseOk e.n (rw e d) = false then stop (trapOf vOP 0)
    else now e (sysWrite e.n (sysNum a b) (rw e d))
  | .csw => evCsw e a
  | .eret => evEret e
  | .trap => stop (trapOf vTRAP b.toNat)
  | .tlbi => if e.n = 4 then .ok Eff.none else .ok { Eff.none with
      fx := tlbiGo e.n ⟨b.toNat, if b = 1 then 0 else rw e a % 2 ^ 28, if b = 1 then rw e a % 2 ^ 12 else e.c.asid, e.n⟩,
      out := 7 }
  | .tlbsync => .ok Eff.none
  | .setbank => evSetbank e a b
  | .getbank => later e 1 (wR e d.toNat e.c.bank.toNat)

/-! Floating point (R297) and short vectors (R319 to R321). -/

/-- FDIV and FSQRT start; their destination is interlocked until they complete. -/
def startFdiv (e : Iss) (x : PFdiv) : Except Stop Eff :=
  now e fun c => { c.cut (.f x.i) bits64 with fdivs := c.fdivs ++ [x] }

def evFp (e : Iss) (dbl : Bool) (fn : FpFn) (d a b : BitVec 6) : Except Stop Eff :=
  let f := fmtOf dbl
  let v := fun (i : BitVec 6) => lowBits f (e.c.rdF i.toNat)
  if fn = .fdiv then
    startFdiv e ⟨d.toNat, dbl, false, v a, v b, stRnd e.c, fcycOf e.s + (if dbl then 28 else 14), 0, false, bits64⟩
  else
    let r := fpRes f fn (stRnd e.c) (v a) (v b) (v d)
    later e (if dbl then 6 else 4) (fR d.toNat r.bits ++ flR (stFlags r.fl))

def funDelay : FunFn → Nat
  | .negS => 2
  | .negD => 2
  | .absS => 2
  | .absD => 2
  | .mov => 2
  | _ => 4
def evFun (e : Iss) (fn : FunFn) (d a : BitVec 6) : Except Stop Eff :=
  let v := e.c.rdF a.toNat
  if fn = .sqrtS ∨ fn = .sqrtD then
    let dbl := decide (fn = .sqrtD)
    startFdiv e ⟨d.toNat, dbl, true, lowBits (fmtOf dbl) v, 0, stRnd e.c, fcycOf e.s + (if dbl then 28 else 14), 0, false, bits64⟩
  else
    let r := fun1Res fn (stRnd e.c) v
    later e (funDelay fn) (fR d.toNat r.bits ++ flR (stFlags r.fl))

def evFcmp (e : Iss) (d a b : BitVec 6) (cond : BitVec 3) : Except Stop Eff :=
  let f := fmtOf (natBit d.toNat 5)
  let r := fCmpV cond.toNat (fDecode f (lowBits f (e.c.rdF a.toNat))) (fDecode f (lowBits f (e.c.rdF b.toNat)))
  later e 2 (pR (d.toNat % 8) (condByte r.1) ++ flR (stFlags r.2))

def xferToW (fn : XferFn) : Bool := fn == .mvwf || fn == .cvtws || fn == .cvtqs || fn == .cvtwd
def evFxfer (e : Iss) (fn : XferFn) (d a : BitVec 6) : Except Stop Eff :=
  if xferToW fn then
    let r := xferRes fn (stRnd e.c) (e.c.rdF a.toNat)
    later e 4 (wR e d.toNat r.bits ++ flR (stFlags r.fl))
  else
    let r := xferRes fn (stRnd e.c) (e.c.rdW a.toNat).toNat
    later e 4 (fR d.toNat r.bits ++ flR (stFlags r.fl))

/-- Result delays of the vector groups (R327). -/
def qDelay (ty : QTy) (fn : QFn) : Nat :=
  match fn with
  | .cmp _ => 2
  | .sum => if ty = .qf then 6 else 2
  | .mul => if ty = .qf then 4 else 3
  | .mac => if ty = .qf then 4 else 3
  | _ => if ty = .qf then 4 else 2

def evQ (e : Iss) (ty : QTy) (fn : QFn) (d a b : BitVec 5) : Except Stop Eff :=
  let x := e.c.rdQ a.toNat
  let y := e.c.rdQ b.toNat
  match fn with
  | .cmp cond =>
    let r := qcmpRes ty cond.toNat e.act x y
    later e (qDelay ty fn) (pR (d.toNat % 8) r.bits ++ flR (stFlags r.fl))
  | .sum =>
    let r := qsumRes ty (stRnd e.c) e.act x
    later e (qDelay ty fn) (qR d.toNat r.bits (2 ^ (qWidth ty) - 1) ++ flR (stFlags r.fl))
  | _ =>
    let r := qRes ty fn (stRnd e.c) e.act x y (e.c.rdQ d.toNat)
    later e (qDelay ty fn) (qR d.toNat r.bits (laneMask ty e.act) ++ flR (stFlags r.fl))

def evQmov (e : Iss) (fn : QMovFn) (d a b : BitVec 5) : Except Stop Eff :=
  let lane := b.toNat % 4
  match fn with
  | .splat => later e 1 (qR d.toNat (qmovRes .splat (rw e a) 0) (laneMask .qf e.act))
  | .ins => later e 1 (qR d.toNat (qmovRes .ins (rw e a) lane) ((2 ^ 32 - 1) * 2 ^ (32 * lane)))
  | .ext => later e 1 (wR e d.toNat (qmovRes .ext (e.c.rdQ a.toNat) lane))
  | _ => later e 1 (qR d.toNat (qmovRes fn (e.c.rdQ a.toNat) lane) (laneMask .qf e.act))

def evQsrch (e : Iss) (d : BitVec 6) (w a : BitVec 5) (ty : BitVec 2) (mx : Bool) : Except Stop Eff :=
  let fp := decide (ty = 0)
  let v := e.c.rdQ a.toNat
  let base := (e.c.rdW (w.toNat + 1)).toNat
  let took := match searchTake fp mx e.act v (lowBits f32 (e.c.rdF d.toNat)) (rw e w) base with
    | some x => fR d.toNat x.1 ++ wR e w.toNat x.2
    | none => []
  later e 4 (took ++ wR e (w.toNat + 1) ((base + 4) % 2 ^ 32) ++ flR (stFlags (searchFlags fp e.act v)))

/-! One syllable. -/

/-- A transfer whose guard is false is a transfer not taken; any other syllable whose guard is false does nothing. -/
def isXfer : Op → Bool
  | .br .. => true
  | .call .. => true
  | .jump .. => true
  | _ => false

def evOp (e : Iss) : Op → Except Stop Eff
  | .nop => .ok Eff.none
  | .alu fn d a b => evAlu e fn d a b
  | .imm fn d a i => evImm e fn d a i
  | .shi d a i => evShi e d a i
  | .movi d i => evMovi e d i
  | .movhi d i => evMovhi e d i
  | .cmp d a b k => evCmp e d a b k
  | .cmpi p k a i => evCmpi e p k a i
  | .mul fn d a b => evMul e fn d a b
  | .div sg d a b => evDiv e sg d a b
  | .bcd fn d a b => evBcd e fn d a b
  | .pred fn d a b => evPred e fn d a b
  | .lld d a sz off => evLld e d a sz off
  | .lst d a sz off => evLst e d a sz off
  | .gld d k a sz off => evGld e d k a sz off
  | .gst d k a sz off => evGst e d k a sz off
  | .lldf d a sz off => evLldf e d a sz off
  | .lstf d a sz off => evLstf e d a sz off
  | .gldf d k a sz off => evGldf e d k a sz off
  | .gstf d k a sz off => evGstf e d k a sz off
  | .kld d a b => evKld e d a b
  | .kst d a b => evKst e d a b
  | .ldw d a => evLdw e d a
  | .cap fn d a b => evCap e fn d a b
  | .panq d k a => evPanq e d k a
  | .br an disp => evXfer e .br (dispTarget e disp) an
  | .call an disp => evXfer e .call (dispTarget e disp) an
  | .jump fn _ a _ => evJump e fn a
  | .loop a off => evLoop e (rw e a) off
  | .loopi n off => evLoop e (if n = 0 then 512 else n.toNat) off
  | .rep ni reg a n => evRep e ni reg a n
  | .wait fn _ a _ => evWait e fn a
  | .sys fn d a b => evSys e fn d a b
  | .fp dbl fn d a b => evFp e dbl fn d a b
  | .fun1 fn d a => evFun e fn d a
  | .fcmp d a b k => evFcmp e d a b k
  | .fxfer fn d a => evFxfer e fn d a
  | .q ty fn d a b => evQ e ty fn d a b
  | .qmov fn d a b => evQmov e fn d a b
  | .qsrch d w a ty mx => evQsrch e d w a ty mx

/-- One syllable of a bundle; a transfer issued again does only its transfer, the other syllables nothing (R370). A REP
whose guard is false repeats nothing, and what it names is still checked (R304). -/
def evSyl (e : Iss) (x : Syl) : Except Stop Eff :=
  if isXfer x.op then evOp e x.op
  else if e.c.redo.isSome then .ok Eff.none
  else if runs e.c x then evOp e x.op
  else if isRep x then .ok { Eff.none with ctl := fun s => s.mapCore e.n fun c => { c with repOff := some e.addr } }
  else .ok Eff.none

end Sys2Proof.Machine
end

