-- ==== Sys2Proof/Machine/Issue.lean ====
section
/-!
DEFINITION. Sys2Proof/Machine/Issue.lean: the arrival of syllables and the issue of bundles (R275 to R279, R298 to R306, R323 to
R333), and the events that end what a core waits for (R286, R308 to R312, R327, R333, R355, R364, R365, R396).
-/
namespace Sys2Proof.Machine
open Sys2Proof

/-! The end of a bundle. -/

/-- The levels whose end test applies to a bundle at `addr`, level 1 first, with their first bundles (R301); by the loop
registers as they were when the bundle was fetched (R329). -/
def endLevels (c : Core) (b : QBundle) (addr : Nat) : List (Nat × Nat) :=
  let r := b.loops.getD c.loopRegs
  ([1, 0].filter fun i => loopActive r i && storeGet 0 r.lend i == addr && loopWb r i == c.wb).map fun i =>
    (i, storeGet 0 r.lstart i)

def Core.loopClear (c : Core) (i : Nat) : Core :=
  c.mapLoops fun r => { r with lctl := BitVec.ofNat 32 (natBitSet r.lctl.toNat i false) }

/-- The end test (R301): level 0 is tested in the same bundle only when level 1 finishes. -/
def loopEnd : List (Nat × Nat) → Core → Core
  | [], c => c
  | (i, first) :: r, c =>
    let k := storeGet 0 c.lcnt i
    if 1 < k then { c with lcnt := storeSet 0 c.lcnt i (k - 1), pc := first }
    else if k = 1 then loopEnd r (Core.loopClear { c with lcnt := storeSet 0 c.lcnt i 0 } i)
    else c

/-- A taken BR or JR out of a loop body, and a RET, clear the levels of their frame (R302). -/
def clearLeft (x : Xfer) (i : Nat) (c : Core) : Core :=
  let out := match x.kind with
    | .br => decide (x.target < storeGet 0 c.lstart i) || decide (storeGet 0 c.lend i < x.target)
    | .jr => decide (x.target < storeGet 0 c.lstart i) || decide (storeGet 0 c.lend i < x.target)
    | .ret => true
    | _ => false
  if loopActive c.loopRegs i && loopWb c.loopRegs i == c.wb && out then c.loopClear i else c

/-- After the delay slot of a taken transfer: the loops it leaves, the window, the target (R298). -/
def takeXfer (x : Xfer) (c : Core) : Core :=
  let c := clearLeft x 0 (clearLeft x 1 c)
  let c := match x.kind with
    | .call => c.rotateIn
    | .callr => c.rotateIn
    | .ret => c.rotateOut
    | _ => c
  { c with pc := x.target }

/-- One iteration of a repeated bundle has issued (R305). -/
def repDone (n : Nat) (r : Rep) (next : Nat) (ends : List (Nat × Nat)) (s : State) : State :=
  if 1 < r.left then s.mapCore n fun c => { c with rep := some { r with left := r.left - 1 }, pc := r.bodyAt }
  else
    (if r.ni then maxSpan n (s.core n).span s else s).mapCore n fun c =>
      loopEnd ends { c with rep := none, pc := next, span := if r.ni ∧ c.ni = false then 0 else c.span }

/-- What follows a bundle that has issued: the transfer whose slot it was, the repetition, or the loop end test. -/
def finish (n : Nat) (x : Option Xfer) (r : Option Rep) (next : Nat) (ends : List (Nat × Nat)) (s : State) : State :=
  match x, r with
  | some x, _ => s.mapCore n fun c =>
      let c := { c with xfer := none }
      if x.taken then takeXfer x c else loopEnd ends c
  | none, some r => repDone n r next ends s
  | none, none => s.mapCore n (loopEnd ends)

/-! One bundle. -/

def isStore : Op → Bool
  | .lst .. => true
  | .gst .. => true
  | .lstf .. => true
  | .gstf .. => true
  | .kst .. => true
  | _ => false

/-- The effects of the syllables in position order, or the first exception with its position (R323). -/
def evAll (e : Iss) : List Syl → Nat → Except (Stop × Nat) (List Eff)
  | [], _ => .ok []
  | x :: xs, i =>
    match evSyl { e with act := guardByte e.c x.hdr } x with
    | .error t => .error (t, i)
    | .ok f => match evAll e xs (i + 1) with
      | .error t => .error t
      | .ok fs => .ok (f :: fs)

/-- EINFO holds the position for these vectors (R353). -/
def withPos (t : Trap) (i : Nat) : Trap := if t.vec = vOP ∨ t.vec = vBCD ∨ t.vec = vSYSAUTH then { t with info := i } else t

/-- Accesses of one bundle to different words of one bank of the core's data memory (R349). -/
def bankConflict (fs : List Eff) : Bool :=
  match (fs.map fun f => f.loc).filter fun l => l != [] with
  | [p, q] => p.any fun i => q.any fun j => i % 8 == j % 8 && i != j
  | _ => false

/-- Two places in one register page (R43). -/
def samePage (n pa qa : Nat) : Bool :=
  match regionOf (coreDie n) pa, regionOf (coreDie n) qa with
  | .page p _, .page q _ => p == q
  | _, _ => false
/-- A store to an 8-byte word, or to a register page, for which a read is outstanding waits (R43, R358). -/
def storeWaits (n : Nat) (c : Core) (fs : List Eff) : Bool :=
  fs.any fun f => match f.st with
    | some (pa, k) => c.loads.any fun l =>
        (decide (l.pa / 8 ≤ (pa + k - 1) / 8) && decide (pa / 8 ≤ (l.pa + l.size - 1) / 8)) || samePage n l.pa pa
    | none => false
/-- A read of code MRAM waits for a fill slot (R333). -/
def slotWaits (n : Nat) (c : Core) (fs : List Eff) : Bool :=
  let k := fs.countP fun f => f.mram
  decide (0 < k) && decide (0 < fillsOut n c) && decide (2 < fillsOut n c + k)

/-- Code at a place is at hand: in the core's own code RAM, or in a line buffer. -/
def atHand (n : Nat) (c : Core) (pa : Nat) : Bool := !lineRegion n pa || c.lines.any fun l => l.line == pa / 64
/-- The kind of the first output of a bundle: its fetch, then its syllables in order (R484, R505). -/
def firstOut (n : Nat) (c : Core) (xs : List Xl) (fs : List Eff) : Nat :=
  match xs.find? fun x => !lineRegion n x.pa || !atHand n c x.pa with
  | some x => if lineRegion n x.pa then 1 else 2
  | none => ((fs.map fun f => f.out).find? fun k => k != 0).getD 0

/-- A fetched line becomes the most recently used (R333). -/
def touchLine (pa : Nat) (c : Core) : Core :=
  match c.lines.find? fun l => l.line == pa / 64 with
  | some l => { c with lines := l :: c.lines.filter fun m => m.line != l.line }
  | none => c
def touchAll (xs : List Xl) (c : Core) : Core := xs.foldl (fun y x => adSet .fetch x (touchLine x.pa y)) c

def countBundle (n : Nat) (s : State) : State := if n < 4 then s.incFld (fEPn_BUNDLES n) else s
def countBank (n : Nat) (hit : Bool) (s : State) : State :=
  if hit ∧ n < 4 then (s.incFld (fEPn_LBSTALL n)).incFld (fEPn_DSTALL n) else s

/-- A bundle of the running task: its beats, and with its first bundle the count of CCLK (R90). -/
def useBeats (k : Nat) (c : Core) : Core :=
  match c.group with
  | t :: r => addBeats k { c with group := { t with used := max 1 t.used } :: r }
  | [] => c
def sumBeats (fs : List Eff) : Nat := (fs.map fun f => f.beats).sum

/-- The effects of a bundle: A and D bits, effects, control (R279, R316, R389). -/
def applyAll (n : Nat) (fs : List Eff) (s : State) : State :=
  let s := s.mapCore n fun c => fs.foldl (fun y f => f.ad y) c
  let s := fs.foldl (fun t f => f.fx t) s
  fs.foldl (fun t f => f.ctl t) s

/-- The core as the syllables of a bundle at `addr` read it: results whose delay ends are written, and a recorded transfer
stands only for the bundle it was recorded at. -/
def readCore (s : State) (n addr : Nat) (b : QBundle) : Core :=
  let c := (s.core n).tick
  { c with redo := match c.redo with
      | some r => if r.addr = addr ∧ b.syls.any (fun x => isXfer x.op) then some r else none
      | none => none }

/-- The fetch of one syllable at issue: its exception, and what stays of it (R32, R113, R331, R332, R399). -/
def fetchSyl (s : State) (n : Nat) (c : Core) (addr : Nat) : Except Stop Xl :=
  match translate n c .fetch c.pcc addr with
  | .error t => .error ⟨t, id⟩
  | .ok x =>
    let die := coreDie n
    let undecoded : Except Stop Xl := .error ⟨trapOf vBUNDLE 0, decodeErr die x.pa (coreMaster n) false⟩
    match regionOf die x.pa with
    | .none => undecoded
    | .page _ _ => undecoded
    | r =>
      if lineRegion n x.pa && c.lines.any (fun l => l.line == x.pa / 64) then
        if (codeBytes s n c x.pa).all Option.isSome then .ok x
        else match r with
          | .saltern a => .error ⟨trapOf vSALT x.pa, uePost (a / 8)⟩
          | _ => .error ⟨trapOf vMEM x.pa, id⟩
      else match readFault s die x.pa 4 with
        | some t => .error ⟨t, fun s => (coreRead n x.pa 4 s).2⟩
        | none => .ok x
/-- The fetch of k syllables from `addr` on, region by region. -/
def fetchSyls (s : State) (n : Nat) (c : Core) : Nat → Nat → Except Stop (List Xl)
  | 0, _ => .ok []
  | k + 1, addr =>
    match fetchSyl s n c addr with
    | .error t => .error t
    | .ok x => match fetchSyls s n c k (addr + 4) with
      | .error t => .error t
      | .ok xs => .ok (x :: xs)
/-- The fetch of a bundle of `k` syllables: PCC covers it, and each of them is there. -/
def fetchFault (s : State) (n : Nat) (c : Core) (addr k : Nat) : Except Stop (List Xl) :=
  match fetchCap c addr (4 * k) with
  | some t => .error ⟨t, id⟩
  | none => fetchSyls s n c k addr

/-- The bundle that a REP names must not hold what R304 bars, whether the REP repeats it or not; the exception is raised at
the REP bundle. -/
def bodyFault (n : Nat) (c : Core) (b : List Syl) : Option Stop :=
  if illegalBody b = false then none
  else match c.rep, c.repOff with
    | some _, _ => some ⟨trapOf vBUNDLE 0, id⟩
    | none, some a => some ⟨trapOf vBUNDLE 0, fun s => s.mapCore n fun c => { c with pc := a }⟩
    | none, none => none

/-- The effects of a bundle that issues, with the places it was fetched from, or its exception and position. -/
def judge (s : State) (n addr : Nat) (b : QBundle) : Except (Stop × Nat) (List Xl × List Eff) :=
  let next := (addr + 4 * b.syls.length) % 2 ^ 32
  let c := readCore s n addr b
  match fetchFault s n c addr b.syls.length with
  | .error t => .error (t, 0)
  | .ok xs =>
    match bodyFault n c b.syls with
    | some t => .error (t, 0)
    | none =>
      match decodeFault n (c.pcc.perm pSYS) c.xfer.isSome (endLevels c b addr != []) b.syls with
      | some (v, i) => .error (⟨trapOf v (if v = vBUNDLE then 0 else i), id⟩, i)
      | none =>
        match evAll ⟨n, s.setCore n c, c, addr, next, b.syls.any fun y => isStore y.op, 0⟩ b.syls 0 with
        | .error t => .error t
        | .ok fs => .ok (xs, fs)

/-- A bundle has passed every check and takes effect. -/
def commit (n addr : Nat) (b : QBundle) (xs : List Xl) (fs : List Eff) (s : State) : State :=
  let next := (addr + 4 * b.syls.length) % 2 ^ 32
  let c := readCore s n addr b
  let t := s.setCore n { touchAll xs (useBeats (sumBeats fs) c) with
    pc := next, redo := none, repOff := none, step := false, issued := true }
  finish n c.xfer c.rep next (endLevels c b addr) (applyAll n fs (countBank n (bankConflict fs) (countBundle n t)))

/-- A delay slot that is annulled executes nothing, counts as one bundle and has its end test (R301, R340). -/
def annulled (n addr : Nat) (b : QBundle) (x : Xfer) (s : State) : State :=
  let next := (addr + 4 * b.syls.length) % 2 ^ 32
  let c := readCore s n addr b
  finish n (some x) none next (endLevels c b addr)
    (countBundle n (s.setCore n { c with pc := next, step := false, issued := true }))

/-- The beats of a bundle exceed the budget of the running task (R90). -/
def overBeats (c : Core) (fs : List Eff) : Bool :=
  match c.group with
  | t :: _ => decide (t.tbeats < t.beats + sumBeats fs) && decide (0 < sumBeats fs)
  | [] => false

/-- A bundle whose transfer's slot it is has linked its call: it takes its effect, an exception, or waits. -/
def issueLinked (n addr : Nat) (b : QBundle) (s : State) : Option State :=
  let c := s.core n
  match c.xfer with
  | some ⟨k, a, tk, tg, true, ag⟩ => some (annulled n addr b ⟨k, a, tk, tg, true, ag⟩ s)
  | _ =>
    match judge s n addr b with
    | .error (t, i) => some (raise n i (withPos t.trap i) (t.keep (s.mapCore n fun c => { c with step := false })))
    | .ok (xs, fs) =>
      if storeWaits n c fs ∨ slotWaits n c fs then none
      else if overBeats c fs then some (overrun n s)
      else if n < 4 ∧ natBit s.dup.inject n ∧ firstOut n c xs fs ≠ 0 then some (lockstep n (firstOut n c xs fs) s)
      else some (commit n addr b xs fs s)

/-- The bundle at `addr` issues. A call whose slot it is links first, also where the slot then raises (R298, R370). -/
def issueBundle (n addr : Nat) (b : QBundle) (s : State) : Option State :=
  let next := (addr + 4 * b.syls.length) % 2 ^ 32
  issueLinked n addr b (s.mapCore n (linkCall n next (n < 4 && s.flag (fEPn_CTRL_BPEN n))))

/-! Stalls. -/

def meets (a b : List Dst) : Bool := a.any fun x => b.contains x
def divDst (d : PDiv) : List Dst := (if d.k1 = 0 then [] else [.w d.k1]) ++ (if d.k2 = 0 then [] else [.w d.k2])

/-- A syllable waits for a result that is not there yet, in the core as the bundle would read it (R286, R312, R327). -/
def sylWaits (c : Core) (x : Syl) : Bool :=
  let u := useOf c x.op
  (runs c x || isXfer x.op) &&
  (c.loads.any (fun l => meets (loadDst l.kind) u.w || (decide (3 ≤ l.age) && meets (loadDst l.kind) u.r)) ||
   c.fdivs.any (fun d => meets [.f d.i] (u.r ++ u.w)) ||
   (match c.div with
    | some d => meets (divDst d) (u.r ++ u.w) || (match x.op with | .div .. => true | _ => false)
    | none => false))

def isGlobalRead : Op → Bool
  | .gld .. => true
  | .gldf .. => true
  | .kld .. => true
  | .ldw .. => true
  | .panq .. => true
  | _ => false

/-- Waits of FENCE, SYNC.I and TEND for what is outstanding, of TLBI for room, of TLBSYNC for the others, and of a call for
a frame that awaits a read (R282, R287, R312, R314, R343, R396, R397). -/
def opWaits (s : State) (n : Nat) (c : Core) (x : Syl) : Bool :=
  match x.op with
  | .sys .fence _ _ _ => !c.loads.isEmpty
  | .sys .tlbi _ _ _ => n != 4 && (List.range 4).any fun i => i != n && decide (4 ≤ (s.core i).tlbq.length)
  | .sys .tlbsync _ _ _ => n != 4 && (List.range 4).any fun i => i != n && (s.core i).tlbq.any fun t => t.src == n
  | .call .. => c.wres == 30 && !c.loads.isEmpty
  | .jump .callr _ _ _ => c.wres == 30 && !c.loads.isEmpty
  | _ => false

def isFdiv : Op → Bool
  | .fp _ fn _ _ _ => fn == .fdiv
  | .fun1 fn _ _ => fn == .sqrtS || fn == .sqrtD
  | _ => false
/-- An annulled slot waits for nothing. -/
def slotOff (c : Core) : Bool := match c.xfer with | some x => x.annul | none => false
/-- A bundle waits for load data, a division, FDIV or FSQRT. -/
def dataWaits (s : State) (n : Nat) (b : QBundle) : Bool :=
  let c := (s.core n).tick
  !slotOff c && b.syls.any (sylWaits c)
/-- A bundle waits for room: 32 operations that a replay list can record (R359), and the port's 32 requests (R122). -/
def roomWaits (s : State) (n : Nat) (b : QBundle) : Bool :=
  let c := (s.core n).tick
  let reads := b.syls.countP fun x => runs c x && isGlobalRead x.op
  let all := reads + b.syls.countP fun x => runs c x && isFdiv x.op
  (decide (0 < all) && decide (32 < c.loads.length + c.fdivs.length + all)) ||
  (n != 4 && decide (0 < reads) && decide (32 < masterBusy s (77 + n) + reads))
def bundleWaits (s : State) (n : Nat) (b : QBundle) : Bool :=
  let c := (s.core n).tick
  dataWaits s n b || (!slotOff c && (roomWaits s n b ||
    b.syls.any fun x => natBit (guardByte c x.hdr) 0 && opWaits s n c x))

/-- The page of the core is frozen (R38, R574). -/
def coreFrozen (s : State) (n : Nat) : Bool := if n < 4 then frozen s (exPg n) else frozen s 0x1070
/-- The core's clock runs (R517). -/
def clocked (s : State) (n : Nat) : Bool := n == 4 || s.pwr.mode == .run

/-- Issue is open: nothing holds the core at this boundary. -/
def mayIssue (s : State) (n : Nat) : Bool :=
  let c := s.core n
  coreRunning s n && !coreFrozen s n && clocked s n && c.wait.isNone && (!c.halted || c.step || unbroken s n)

/-! The next thing a core does. -/

/-- The next iteration of a repeated bundle. -/
def repStep (n : Nat) (s : State) : Option State :=
  match (s.core n).rep with
  | some ⟨_, _, _, some b, at'⟩ =>
    if mayIssue s n = false ∨ bundleWaits s n b then none else issueBundle n at' b s
  | _ => none

/-- The bundle at the front of the fetch queue issues, as the body of a repetition where one waits for it. -/
def frontStep (n : Nat) (s : State) : Option State :=
  let c := s.core n
  match c.fq with
  | [] => none
  | b :: r =>
    if mayIssue s n = false ∨ bundleWaits s n b then none
    else
      let rep := match c.rep with | some x => some { x with body := some b, bodyAt := c.pc } | none => none
      issueBundle n c.pc b (s.setCore n { c with fq := r, rep := rep })

/-- NI_OVERRUN: the budget min(NIB, NILIM) of an NI handler is spent (R365). -/
def niOverrun (n : Nat) (s : State) : Option State :=
  let c := (s.core n).settle
  if c.ni ∧ min c.nib (spanLimit s n) ≤ c.span then some (doubleFault n 3 0 (boundaryOf c) s) else none

/-- EVW_TIMEOUT: the cycle limit has passed with EVF at 0 (R308). -/
def evwTimeout (n : Nat) (s : State) : Option State :=
  match (s.core n).wait with
  | some (.evw (some t)) =>
    if t ≤ fcycOf s then some (s.mapCore n fun c => { c.setStat bEVTO true with wait := none }) else none
  | _ => none

/-- WAIT_TARGET_REACHED (R309). -/
def waitReached (n : Nat) (s : State) : Option State :=
  let go := s.mapCore n fun c => { (c.setStat bWAITPAST false).setStat bWRESUME false with wait := none }
  match (s.core n).wait with
  | some (.angle t _) => if t ≤ angleOf s then some go else none
  | some (.tick t _) => if t ≤ tickNo s then some go else none
  | _ => none

/-- TASK_BUDGET_EXPIRY: the running task has not issued TEND by its TBUDGET-th CCLK, or an exception entry has spilled
beyond its TBEATS-th beat (R90). -/
def budgetExpiry (n : Nat) (s : State) : Option State :=
  match (s.core n).group with
  | t :: _ => if t.budget < t.used ∨ t.tbeats < t.beats then some (overrun n s) else none
  | [] => none

/-- What is due at a core before its next bundle: the end of a budget, an interrupt, the end of a wait. -/
def dueFirst (n : Nat) (s : State) : Option State :=
  match niOverrun n s with
  | some t => some t
  | none =>
    match budgetExpiry n s with
    | some t => some t
    | none =>
      match recognise n s with
      | some t => some t
      | none =>
        match evwTimeout n s with
        | some t => some t
        | none => waitReached n s

/-- What is due happens, a repetition goes on, or a bundle issues; iterations that are not the first wait for time or
for a bundle behind them. -/
def issueNext (n : Nat) (s : State) : Option State :=
  if coreFrozen s n ∨ clocked s n = false ∨ coreRunning s n = false then none
  else
    match dueFirst n s with
    | some t => some t
    | none =>
      match (s.core n).rep with
      | some ⟨_, _, _, some _, _⟩ => if (s.core n).fq = [] then none else repStep n s
      | _ => frontStep n s

/-- A core goes on until it waits; the number bounds one run: 16 bundles, 256 iterations of each, and entries. -/
def pump : Nat → Nat → State → State
  | 0, _, s => s
  | k + 1, n, s => match issueNext n s with | some t => pump k n t | none => s
def pumpCore (n : Nat) (s : State) : State := pump 4500 n s
def pumpAll (s : State) : State := [0, 1, 2, 3, 4].foldl (fun t n => pumpCore n t) s

/-- A bundle of a wrong path (R336, R338): it never issues; a transfer that hits the branch-target buffer counts, a CALL
pushes and a RET pops on the return stack as that path sees it. -/
def wrongPath (n addr : Nat) (b : List Syl) (s : State) : State :=
  if 4 ≤ n ∨ s.flag (fEPn_CTRL_BPEN n) = false then s
  else
    let slot := addr + 4 * b.length
    let next := (slot + bundleLen s n slot) % 2 ^ 32
    let s := if b.any (fun x => isXfer x.op) ∧ (btbHit (s.core n) addr).isSome then s.incFld (fEPn_BTBHIT n) else s
    match b.find? fun x => isXfer x.op with
    | some ⟨_, .call _ _⟩ => s.mapCore n (Core.rasOff (Core.rasPush next))
    | some ⟨_, .jump .callr _ _ _⟩ => s.mapCore n (Core.rasOff (Core.rasPush next))
    | some ⟨_, .jump .ret _ _ _⟩ => s.mapCore n (Core.rasOff Core.rasPop)
    | _ => s

/-- A bundle is complete: it joins the fetch queue, which holds 16 (R332), or was fetched on a wrong path; the right path
has its own pointer of the return stack. -/
def arrived (n : Nat) (b : List Syl) (s : State) : State :=
  let c := s.core n
  match b.head?.bind fun x => x.hdr.wrong with
  | some a => wrongPath n a.toNat b s
  | none =>
    if 16 ≤ c.fq.length then s
    else pumpCore n (s.setCore n { c with fq := c.fq ++ [⟨b, none⟩], rasWrong := none })

/-- A syllable arrives at a core: it closes its bundle with its stop bit, or as the sixth. A core in reset or stopped
fetches nothing, and one of another path than the syllables before it starts a bundle (R275, R332, R336). -/
def arrive (n : Nat) (x : Syl) (s : State) : State :=
  if coreRunning s n = false then s
  else
    let c := s.core n
    let b := (if c.asm.all fun y => y.hdr.wrong == x.hdr.wrong then c.asm else []) ++ [x]
    if x.hdr.s = false ∧ b.length < 6 then s.setCore n { c with asm := b }
    else arrived n b (s.setCore n { c with asm := [] })

/-- A command that is a syllable of core n. -/
def execSyl (n : Fin 5) (h : Hdr) (op : Op) (s : State) : State := arrive n.val ⟨h, op⟩ s

/-! Events of a core. -/

/-- The read that is performed when the i-th is due: of the reads of one register page the oldest (R43). -/
def loadPick (n i : Nat) (ls : List PLoad) : Nat :=
  match ls[i]? with
  | some l => (ls.findIdx? fun k => samePage n k.pa l.pa).getD i
  | none => i

/-- GLOBAL_LOAD_RETURN: the data of the i-th pending read arrives, with an upset of a byte of its place if any. An
uncorrectable read writes nothing and raises its exception at the next boundary (R113, R286; log 71). -/
def loadReturn (n i : Nat) (ups : Option (Nat × Nat)) (s : State) : State :=
  let i := loadPick n i (s.core n).loads
  match (s.core n).loads[i]? with
  | none => s
  | some l =>
    let s := match ups, regionOf (coreDie n) l.pa with
      | some u, .saltern a => upset (a + u.1 % l.size) u.2 s
      | _, _ => s
    let s := s.mapCore n fun c => { c with loads := c.loads.eraseIdx i }
    match readFault s (coreDie n) l.pa l.size with
    | some t => pumpCore n (raise n 0 t (coreRead n l.pa l.size s).2)
    | none =>
      let r := loadRead n l s
      let x := loadResult n l r.1.1 r.1.2 r.2
      pumpCore n (x.2.mapCore n fun c =>
        if 3 ≤ l.age then c.putAll x.1 else c.queueAll (3 - l.age) x.1)

/-- DIVISION_COMPLETE and FDIV_COMPLETE. -/
def divComplete (n : Nat) (s : State) : State := pumpCore n (s.mapCore n Core.divDone)
/-- The operation in progress that is due first, of equal ones the older (R327). -/
def firstDue : List PFdiv → Option PFdiv
  | [] => none
  | d :: r => match firstDue r with
    | some e => if e.due < d.due then some e else some d
    | none => some d
def fdivComplete (n : Nat) (s : State) : State :=
  match firstDue (s.core n).fdivs with
  | none => s
  | some d => pumpCore n (s.mapCore n fun c => { c.fdivDone d with fdivs := c.fdivs.erase d })

/-! Line fills (R333 to R336). Kinds: 0 a demand, 1 a prefetch, 2 a demand for a bundle that never issues. -/

/-- A prefetch of a line is requested: PFEN, the line before it requested or entered, the line itself in no buffer. -/
def prefetchable (s : State) (n : Nat) (c : Core) (line : Nat) : Bool :=
  decide (n < 4) && s.flag (fEPn_CTRL_PFEN n) && !(c.lines.any fun l => l.line == line) &&
  decide (0 < line) && lineRegion n (64 * (line - 1)) &&
  (c.lines.any (fun l => l.line + 1 == line) || c.fills.any fun f => f.line + 1 == line)

/-- A request for a line: a demand cancels prefetches not yet accepted, and takes one of two fill slots; a prefetch needs a
free one. -/
def fillRequest (n line kind : Nat) (s : State) : State :=
  let c := s.core n
  let keep := if kind = 1 then c.fills else c.fills.filter fun f => f.taken || f.kind != 1
  let s := s.setCore n { c with fills := keep }
  if lineRegion n (64 * line) = false ∨ keep.any (fun f => f.line == line) ∨ 2 ≤ fillsOut n (s.core n) ∨
      (kind = 1 ∧ prefetchable s n c line = false) then s
  else
    let s := s.mapCore n fun c => { c with fills := c.fills ++ [⟨line, kind, false⟩] }
    if n < 4 ∧ kind = 2 then s.incFld (fEPn_WPFILLS n) else s

/-- The source accepts the request for a line. -/
def fillAccept (n line : Nat) (s : State) : State :=
  match (s.core n).fills.find? fun f => f.line == line && !f.taken with
  | none => s
  | some f =>
    let s := s.mapCore n fun c => { c with fills := c.fills.map fun g => if g = f then { g with taken := true } else g }
    if 4 ≤ n then s else if f.kind = 1 then s.incFld (fEPn_PFILLS n) else s.incFld (fEPn_DFILLS n)

/-- A fill that has been accepted completes: its line is read, corrections and errors of it are logged (R112, R113), and it
takes a line buffer, the least recently used first. -/
def fillDone1 (n line : Nat) (s : State) : State :=
  if (s.core n).fills.any (fun f => f.line == line && f.taken) = false then s
  else
    let bs := lineBytes s n line
    let s := match regionOf (coreDie n) (64 * line) with | .saltern a => fillReadFx (coreMaster n) a s | _ => s
    s.mapCore n fun c => { c with
      fills := c.fills.filter fun f => f.line != line,
      lines := (⟨line, bs⟩ :: c.lines.filter fun l => l.line != line).take 32 }

/-- LINE_FILL_COMPLETE: requests made and accepted since, then the completion of the fill of `line`, requested and accepted
with it where it was not before. -/
def lineFill (n line kind : Nat) (reqs : List (Nat × Nat × Bool)) (s : State) : State :=
  let s := reqs.foldl (fun t r =>
    let t := fillRequest n r.1 r.2.1 t
    if r.2.2 then fillAccept n r.1 t else t) s
  fillDone1 n line (fillAccept n line (fillRequest n line kind s))

/-- INTERRUPT_RECOGNITION. -/
def interrupt (n : Nat) (s : State) : State :=
  match recognise n s with
  | some t => pumpCore n t
  | none => s

/-- REPN_CUT: NISPAN has reached NILIM during a REPN, and a pending interrupt is recognised (R364). -/
def repnCut (n : Nat) (s : State) : State :=
  let c := s.core n
  match c.rep with
  | some r =>
    if r.ni ∧ spanLimit s n ≤ c.span then interrupt n s else s
  | none => s

/-- An event of core n that a row names, and what the core goes on with. -/
def coreEvent (f : Nat → State → Option State) (n : Nat) (s : State) : State :=
  match f n s with
  | some t => pumpCore n t
  | none => s

/-- TLBI_APPLY: the oldest received invalidation is applied, on a frozen page when the freeze ends (R396). -/
def tlbiApply (n : Nat) (s : State) : State :=
  match (s.core n).tlbq with
  | [] => s
  | t :: r =>
    if coreFrozen s n then s
    else pumpAll ((s.mapCore n fun c => { tlbDrop t c with tlbq := r }).incFld (fXVn_TLBICNT n))

/-- Tasks of the running group that end from outside: where the head does, the next task starts (R92). -/
def dropAnd (n cause : Nat) (p : Task → Bool) (s : State) : State :=
  let head := match (s.core n).group with | t :: _ => p t | [] => false
  let s := dropTasks n cause p s
  if head then afterStop n s else s

end Sys2Proof.Machine
end

