-- ==== Sys2Proof/Machine/Debug.lean ====
section
/-!
DEFINITION. Sys2Proof/Machine/Debug.lean: the requests of the debug agent on cores and memory (R490, R491, R533, R537).
Replies begin with a status byte: 0 done, 3 refused, 4 the debug status error bit (log 60).
-/
namespace Sys2Proof.Machine
open Sys2Proof

def dbgDone (bs : List Byte) (s : State) : State := dbgReply (bytesOfNat 1 0 ++ bs) s
def dbgRefuse (s : State) : State := dbgReply (bytesOfNat 1 3) s

/-- A request that acts on a core, where run control and registers are permitted. -/
def dbgCore (f : State → State) (s : State) : State := if dbgAllows s 0 then f s else dbgRefuse s

/-- HALT: issue stops at the next boundary at which an interrupt could be recognised. -/
def dbgHalt (n : Nat) : State → State :=
  dbgCore fun s => dbgDone [] (s.mapCore n fun c => { c with halted := true })
/-- RESUME: the core goes on. -/
def dbgResume (n : Nat) : State → State :=
  dbgCore fun s => dbgDone [] (pumpCore n (s.mapCore n fun c => { c with halted := false, step := false }))
/-- STEP: one bundle of a halted core issues. -/
def dbgStep (n : Nat) : State → State :=
  dbgCore fun s =>
    if (s.core n).halted then dbgDone [] (pumpCore n (s.mapCore n fun c => { c with step := true })) else dbgRefuse s

/-- The bytes of a register. -/
def regBytes (n : Nat) (c : Core) (s : State) : CoreReg → List Byte
  | .w i => bytesOfNat 4 (c.rdW i.toNat).toNat
  | .f i => bytesOfNat 8 (c.rdF i.toNat)
  | .p i => bytesOfNat 1 (c.rdP i.toNat)
  | .c i => bytesOfNat 17 (c.rdC i.toNat).pack
  | .pc => bytesOfNat 4 c.pc
  | .status => bytesOfNat 4 c.status.toNat
  | .sys k => bytesOfNat 4 ((sysRead n c k.toNat).getD (s.freeVal % 2 ^ 32))

/-- READREG; a reserved system register reads a free value. -/
def dbgReadReg (n : Nat) (r : CoreReg) : State → State :=
  dbgCore fun s =>
    let t := dbgDone (regBytes n (s.core n) s r) s
    match r with
    | .sys k => if (sysRead n (s.core n) k.toNat).isNone then t.stepFree else t
    | _ => t

/-- What WRITEREG writes: an authority is never made, so a capability register loses its tag (R379). -/
def regWrite (n : Nat) (r : CoreReg) (v : Nat) (c : Core) : Core :=
  match r with
  | .w i => match wDst c i.toNat with | some d => c.write d (v % 2 ^ 32) bits32 | none => c
  | .f i => c.write (.f i.toNat) (v % 2 ^ 64) bits64
  | .p i => match pDst i.toNat with | some d => c.write d (v % 2 ^ 8) 255 | none => c
  | .c i => c.write (.c i.toNat) (v % 2 ^ 128) capBits
  | .pc => { c.flushFetch with pc := v % 2 ^ 32, redo := none }
  | .status => wrStat (v % 2 ^ 32) c
  | .sys k =>
    if sysWritable k.toNat ∧ (k.toNat ≠ 0x100 ∨ tbaseOk n (v % 2 ^ 32)) then sysWrite n k.toNat (v % 2 ^ 32) c else c
def dbgWriteReg (n : Nat) (r : CoreReg) (v : List Byte) : State → State :=
  dbgCore fun s => dbgDone [] (s.mapCore n (regWrite n r (natOfBytes v)))

/-- READMEM at debug rank; an uncorrectable read returns zeros and the error bit (R113). -/
def dbgReadMem (a len : Nat) (s : State) : State :=
  if dbgAllows s 1 = false then dbgRefuse s
  else
    match readFault s .F a len with
    | some _ =>
      let t := match regionOf .F a with | .saltern o => salReadFx 82 o (min len (salSize - o)) s | _ => s
      dbgReply (bytesOfNat 1 4 ++ List.replicate len 0) t
    | none =>
      match regionOf .F a with
      | .page pg off => let r := busRead .F 82 a pg off len s; dbgDone r.1 r.2
      | .saltern o => dbgDone (memBytes s (.saltern o) len) (salReadFx 82 o (min len (salSize - o)) s)
      | .none => dbgDone (List.replicate len 0) (decodeErr .F a 82 false s)
      | r => dbgDone (memBytes s r len) s

/-- WRITEMEM at debug rank; in recovery also to code MRAM below the journal partition, in every lifecycle state. -/
def dbgWriteMem (a : Nat) (bs : List Byte) (s : State) : State :=
  let image := s.flag fSEC_STAT_RECOVERY && decide (0x40000000 ≤ a) && decide (a + bs.length ≤ 0x40F00000)
  if dbgAllows s 1 ∨ image then
    match regionOf .F a with
    | .page pg off => dbgDone [] (busWrite .F true 82 a pg off bs s)
    | _ => dbgDone [] (memWrite .F a 82 bs s)
  else dbgRefuse s

/-- REBOOT: the cold boot from its first step, in recovery or where every request is permitted. -/
def dbgReboot (s : State) : State :=
  if s.flag fSEC_STAT_RECOVERY ∨ dbgAllows s 0 then
    bootCold true (dbgDone [] ((s.setFlag fSEC_STAT_RECOVERY false).setCore 0 (Core.reset 0)))
  else dbgRefuse s

/-- What the agent does with a request (R490). -/
def dbgDo : DbgReq → State → State
  | .halt n => dbgHalt n
  | .resume n => dbgResume n
  | .step n => dbgStep n
  | .readReg n r => dbgReadReg n r
  | .writeReg n r v => dbgWriteReg n r v
  | .readMem a len => dbgReadMem a len
  | .writeMem a bs => dbgWriteMem a bs
  | .reboot => dbgReboot
  | .challenge => challenge
  | .unlock scope slot pub sig => unlock scope slot pub sig

/-- The agent takes every request that has reached the F side, oldest first (R466). -/
def dbgServe (s : State) : State :=
  (s.sl.inF.filterMap fun m => match m with | .debugReq r => some r | _ => none).foldl (fun t r => dbgDo r t)
    (s.slSet fun l => { l with inF := l.inF.filter fun m => m.cls != 7 })

/-- A debugger's request crosses the Sluice as a DEBUG message (R13, R457, R490, R549); while no pair is UP it waits. -/
def dbgRow (r : DbgReq) (s : State) : State := dbgServe (pull 1 7 (slSend 1 (.debugReq r) s))

/-- SLUICE_CELL_RECEIVE: a DEBUG message that the cell completes reaches the agent. -/
def cellRow (dir p : Nat) (data : Bool) (ack : Option Nat) (good : Bool) (s : State) : State :=
  dbgServe (cellReceive dir p data ack good s)

end Sys2Proof.Machine
end

