-- ==== Sys2Proof/Machine/Tick.lean ====
section
/-!
DEFINITION. Sys2Proof/Machine/Tick.lean: the passage of time (R15, R46, R50, R66, R67, R402, R408, R411, R416): one CCLK in
RUN, one LF tick in HALT and SLEEP, and the rows that let time pass until something happens.
-/
namespace Sys2Proof.Machine

/-! Cores. -/

def tickSpan (c : Core) : Core :=
  let on := c.ni || (match c.rep with | some r => r.ni && r.body.isSome | none => false)
  if on then { c with span := min 65535 (c.span + 1) } else c
/-- The running task counts its CCLK from its first bundle on (R90). -/
def tickTask (c : Core) : Core :=
  match c.group with
  | t :: r => if 0 < t.used then { c with group := { t with used := t.used + 1 } :: r } else c
  | [] => c

/-- The stall counters (R350), in a CCLK in which no bundle has issued: a core without a bundle waits for fetch, one with a
bundle for data. -/
def countStall (n : Nat) (s : State) : State :=
  let c := s.core n
  if 4 ≤ n ∨ c.issued ∨ coreFrozen s n ∨ mayIssue s n = false then s
  else match c.fq with
    | b :: _ => if dataWaits s n b then s.incFld (fEPn_DSTALL n) else s
    | [] => match c.rep with
      | some ⟨_, _, _, some _, _⟩ => s
      | _ => s.incFld (fEPn_FSTALL n)

/-- One clock cycle of a core: its counts, one iteration of a repetition, and whatever is due. -/
def coreCycle (n : Nat) (s : State) : State :=
  if coreRunning s n = false ∨ clocked s n = false then s
  else
    let s := (countStall n s).mapCore n fun c => { tickTask (tickSpan c) with issued := false }
    let s := match dueFirst n s with
      | some t => t
      | none => match repStep n s with | some t => t | none => s
    pumpCore n s
def coreCycles (s : State) : State := [0, 1, 2, 3, 4].foldl (fun t n => coreCycle n t) s

/-! The timebase and what hangs on it. -/

/-- Blocks act at the tick boundaries that ANGLE has passed since TICKNO was `t0`. -/
def boundaryWork (t0 : Nat) (s : State) : State :=
  if tickNo s ≤ t0 then s else unlessFrozen plPg plBoundary (unlessFrozen rkPg rkBoundary (tallyBoundary (tickNo s - t0) (cryBoundary s)))

/-- ANGLE advances by `inc` units of 2^-32 au where the timebase runs, and the compares and blocks follow. -/
def angleStep (inc : Nat) (s : State) : State :=
  let t := acSteps (angleOf s) (if tbEn s = false ∨ frozen s tbPg then s else tbAdvance inc s)
  boundaryWork (tickNo s) t

/-- FCYC and the clocks of the H-die advance by `m` CCLK; in HALT and SLEEP these are CCLK periods (log 72). -/
def clockStep (m : Nat) (s : State) : State :=
  ptpAdvance m (shAdvance m ((rngFill m s).wr64 rSL_FCYC (fcycOf s + m)))

/-- One CCLK in RUN. -/
def cclk (s : State) : State :=
  let s := clockStep 1 s
  let s := angleStep (rateOf s) s
  let s := gtDeferred s
  let s := if fcycOf s % 16 = 0 then gtEdges 1 s else s
  coreCycles (fabricDue (deliverDue s))

/-- No reference counts in this state (R67, R408, R516). -/
def refStopped (s : State) : Bool :=
  (s.pwr.mode == .sleep && s.flag fPWR_MODE_REFOFF) || !s.flag fCK_STAT_REFOK

def gtDrift (n : Nat) (s : State) : State :=
  if gtRuns s n = false then s
  else
    let was := storeGet false s.ev.gtDrift n
    let s := { s.setFlag (fGTn_STAT_LFDRIFT n) true with ev := { s.ev with gtDrift := storeSet false s.ev.gtDrift n true } }
    if was then s else post (gtPage n) 5 2 n 0 0 s

/-- One LF tick in HALT or SLEEP: 32 reference cycles or 1,024 CCLK periods (log 72). -/
def lfTick (s : State) : State :=
  let s := clockStep 1024 s
  let s := if refStopped s then
      (List.range 32).foldl (fun t n => gtDrift n t)
        (if tbEn s then setPost fTB_STAT_LFDRIFT tbPg 6 1 0 0 0 s else s)
    else s
  let s := angleStep (rateOf s * 1024) s
  coreCycles (fabricDue (deliverDue (gtEdges 64 (gtDeferred s))))

/-- One step of time. -/
def timeStep (s : State) : State := match s.pwr.mode with | .run => cclk s | _ => lfTick s
def timeSteps : Nat → State → State
  | 0, s => s
  | k + 1, s => timeSteps k (timeStep s)

/-! Rows that end at an angle. -/

/-- The steps of time until ANGLE reaches `a` at the present RATE. -/
def stepsTo (s : State) (a : Nat) : Nat :=
  match s.pwr.mode with
  | .run => cclkTo s a
  | _ => ceilDiv (cclkTo s a) 1024

/-- Time passes until ANGLE reaches `a`, boundary by boundary, since RATE changes only there. -/
def runTo (a : Nat) : Nat → State → State
  | 0, s => s
  | k + 1, s =>
    if tbMoves s = false ∨ a ≤ angleOf s then s
    else runTo a k (timeSteps (stepsTo s (min a (nextBoundary s))) s)

/-- The boundaries up to an angle, with one step to spare. -/
def boundariesTo (s : State) (a : Nat) : Nat :=
  boundaryNo s.tb.nCur a + a / 16777216 + 2 - boundaryNo s.tb.nCur (angleOf s)

/-- TICK_BOUNDARY: time passes until the next tick boundary. -/
def tickBoundary (s : State) : State :=
  let a := boundaryAngle s.tb.nCur (boundaryNo s.tb.nCur (angleOf s) + 1)
  runTo (min a ((angleOf s / 16777216 + 1) * 16777216)) 1 s

/-- SWAPPED: time passes until the boundary at which a requested swap takes effect, the first at least 64 ns after the
request (R271). -/
def rkSwapped (s : State) : State :=
  if s.flag fRK_STAT_SWAPPEND then
    let t := tickBoundary s
    if t.flag fRK_STAT_SWAPPEND then tickBoundary t else t
  else s

/-- N_APPLIED: time passes until the next turn boundary, where a pending TB_N takes effect (R52). -/
def nApplied (s : State) : State :=
  match s.tb.nPend with
  | none => s
  | some _ =>
    let a := (angleOf s / 16777216 + 1) * 16777216
    runTo a (boundariesTo s a) s

/-- AC_MATCH: time passes until unit n matches (R66), one step when its match is due now. -/
def acMatchRow (n : Nat) (s : State) : State :=
  match acAhead s n with
  | none => s
  | some d => if acNow s n then timeStep s else runTo (angleOf s + d) (boundariesTo s (angleOf s + d)) s

/-! Launches, as far as the cores take part (R87, R92, R485). -/

/-- LAUNCH_POINT: tasks of earlier ticks end under DEADLINE_MISS, and launches on stopped cores are abandoned. -/
def launchRow (bad : List Nat) (s : State) : State :=
  if tbEn s = false ∨ s.tb.ticks = false then s
  else
    let t := tickNo s
    let u := panLaunchPoint bad s
    if frozen s cryPg then u
    else pumpAll (stopLaunches t ((List.range 4).foldl (fun v n => dropAnd n 4 (fun k => decide (k.tick < t)) v) u))

/-- PAN_DONE_POINT, with the LAUNCH signals it raises. -/
def panDoneRow (s : State) : State := pumpAll (panDonePoint s)

end Sys2Proof.Machine
end

