-- ==== Sys2Proof/Machine/Rows.lean ====
section
/-!
DEFINITION. Sys2Proof/Machine/Rows.lean: what remains between a command's operands and the operation of its block: header
writes of a page, reads by halves, the lanes of a pair, and the commands of TLBCMD.
-/
namespace Sys2Proof.Machine
open Sys2Proof

/-- A write of PAGE_CTRL that changes the bits `f` changes (R38). -/
def pageCtrlRow (die : Die) (pg : Nat) (f : Nat → Nat) (s : State) : State :=
  let p := match die with | .F => pg | .H => 0x1000 + pg
  regWriteRow die pg 8 (BitVec.ofNat 32 (f (s.rd (p * 1024 + 2)).toNat)) s

/-- The page whose freeze stops a core (R38), and the page of a lane pair. -/
def corePg (n : Nat) : Nat := if n < 4 then exPg n else 0x1070
def pairPg : PairId → Nat
  | .sluice _ => slPg
  | .pairLink => plPg

def halfKey : Reg64 → Nat
  | .angle => rANGLE
  | .tickno => rTICKNO

/-- A 32-bit read of one half of ANGLE or TICKNO by a master (R61, R62). -/
def halfRead (master : Nat) (r : Reg64) (high : Bool) (s : State) : State :=
  let key := halfKey r + b2n high
  let x := pageRead master (key / 1024) (key % 1024 * 4) s
  x.2.emit (.readData master (bytesOfNat 4 x.1.toNat))

/-- A read of SEC_RNG by a master (R541). -/
def rngReadRow (master : Nat) (s : State) : State :=
  let x := rngRead s
  x.2.emit (.readData master (bytesOfNat 4 x.1.toNat))

def acCmpRow (n : Nat) (p : CmpPart) (s : State) : State :=
  match p with
  | .all v => acCmpWrite64 n v.toNat s
  | .low v => acCmpWriteLow n v s
  | .high v => acCmpWriteHigh n v s

/-- A write of BLn_CTRL that changes LANEMODE alone (R252). -/
def laneModeRow (n v : Nat) (s : State) : State :=
  laneModeApply n (plainWrite (rBLn_CTRL n) (bitsSet (s.rd (rBLn_CTRL n)) (fBLn_CTRL_LANEMODE n).lo 2 v) s)

def doorbellRow (w : Doorbell) (s : State) : State :=
  match w with
  | .queue q v => doorbell q.toNat v.toNat s
  | .other => doorbellBad s
  | .read n => s.emit (.readData 128 (List.replicate n.toNat 0))

/-! The lanes of a pair: the pair link trains like a Sluice pair (R497). -/

def pairSignalRow (p : PairId) (s : State) : State :=
  match p with
  | .sluice i => pairSignal i.val s
  | .pairLink => plSignal s
def pairLockRow (p : PairId) (s : State) : State :=
  match p with
  | .sluice i => pairLock i.val s
  | .pairLink => plLock s
def pairUpRow (p : PairId) (rtF rtH : Nat) (s : State) : State :=
  match p with
  | .sluice i => pairMeasure i.val rtF rtH s
  | .pairLink => plMeasure rtF s
def pairDownRow (p : PairId) (s : State) : State :=
  match p with
  | .sluice i => pairFall i.val s
  | .pairLink => plFall s
def pairRelockRow (p : PairId) (s : State) : State :=
  match p with
  | .sluice i => pairRelock i.val s
  | .pairLink => plRelock s

def warmCodeF : WarmF → Nat
  | .pin => 2
  | .register => 3
  | .mismatch => 4
def warmCodeH : WarmH → Nat
  | .pin => 2
  | .perst => 3
  | .register => 4

/-- A command of TLBCMD, which a WRSYS of the core writes: SYS is its authority (R285, R392). -/
def tlbRow (n op : Nat) (s : State) : State :=
  if coreRunning s n = false ∨ coreStopped s n then s
  else if (s.core n).pcc.perm pSYS then s.mapCore n (tlbCmd op)
  else pumpCore n (raise n 0 (trapOf vSYSAUTH 0) s)

end Sys2Proof.Machine
end

