-- ==== Sys2Proof/Machine/BrineCmd.lean ====
section
/-!
DEFINITION. Sys2Proof/Machine/BrineCmd.lean: lanes, frames and leases of the Brine field links (R218 to R255).
-/
namespace Sys2Proof.Machine
open Sys2Proof

/-- BRINE_LINK_ENABLE, R220: Setting PAGE_CTRL.EN of a link page puts its lanes into DOWN; clearing it stops the
transmitters. -/
def execBrineLinkEnable (n : Fin 64) (on : Bool) (s : State) : Host.Outcome State Fault Refusal :=
  .next (pageEnWrite (0x080 + 2 * n.val) on s)
/-- SIGNAL_DETECT, R220: Signal detect moves a DOWN lane to LOCK. -/
def execSignalDetect (n : Fin 64) (l : Fin 2) (s : State) : Host.Outcome State Fault Refusal :=
  .next (unlessFrozen (0x080 + 2 * n.val) (laneSignal n.val l.val) s)
/-- LANE_LOCK, R220: 256 comma-aligned symbols without violation move a lane from LOCK to TRAIN. -/
def execLaneLock (n : Fin 64) (l : Fin 2) (s : State) : Host.Outcome State Fault Refusal :=
  .next (unlessFrozen (0x080 + 2 * n.val) (laneTrain n.val l.val) s)
/-- TRAINING_SET_ANSWER, R222: A module's answering training set gives one round-trip delay measurement. -/
def execTrainingSetAnswer (n : Fin 64) (l : Fin 2) (rtd : BitVec 10) (s : State) (portLane : Byte := 0)
    (stamp : Byte := 0) : Host.Outcome State Fault Refusal :=
  .next (unlessFrozen (0x080 + 2 * n.val) (trainAnswer n.val l.val rtd.toNat portLane.toNat stamp.toNat) s)
/-- LANE_TRAIN_DONE, R222: After 64 answers the lane takes its RTD and enters IDENT, or falls to DOWN with DELAY. -/
def execLaneTrainDone (n : Fin 64) (l : Fin 2) (s : State) : Host.Outcome State Fault Refusal :=
  .next (unlessFrozen (0x080 + 2 * n.val) (laneTrained n.val l.val) s)
/-- TRAIN_TIMEOUT, R222: A lane without 64 answers within 32 µs of TRAIN falls to DOWN. -/
def execTrainTimeout (n : Fin 64) (l : Fin 2) (s : State) : Host.Outcome State Fault Refusal :=
  .next (unlessFrozen (0x080 + 2 * n.val) (trainTimeout n.val l.val) s)
/-- IDENTITY_FRAME, R224: Two consecutive valid identical identity frames make the lane ACTIVE, or it falls with
ID_MISMATCH. -/
def execIdentityFrame (n : Fin 64) (l : Fin 2) (f : RxFrame) (s : State) : Host.Outcome State Fault Refusal :=
  .next (unlessFrozen (0x080 + 2 * n.val) (identFrame n.val l.val f) s)
/-- ID_BAD, R224: A lane that reaches no outcome within 64 ticks in IDENT falls to DOWN with ID_BAD. -/
def execIdBad (n : Fin 64) (l : Fin 2) (s : State) : Host.Outcome State Fault Refusal :=
  .next (unlessFrozen (0x080 + 2 * n.val) (identBad n.val l.val) s)
/-- LANE_SIGNAL_LOSS, R221: Signal detect lost for 100 ns drops the lane to DOWN with cause LOSS. -/
def execLaneSignalLoss (n : Fin 64) (l : Fin 2) (s : State) : Host.Outcome State Fault Refusal :=
  .next (unlessFrozen (0x080 + 2 * n.val) (laneLoss n.val l.val) s)
/-- LOCKLOST, R221: More than 4 code violations in 256 symbols drop the lane to DOWN. -/
def execLocklost (n : Fin 64) (l : Fin 2) (cv : BitVec 8) (s : State) : Host.Outcome State Fault Refusal :=
  .next (unlessFrozen (0x080 + 2 * n.val) (laneViolations n.val l.val cv.toNat) s)
/-- LANE_FRAMES_LOST, R221: 16 consecutive ticks without a valid sample frame drop an ACTIVE lane with cause FRAMES. -/
def execLaneFramesLost (n : Fin 64) (l : Fin 2) (s : State) : Host.Outcome State Fault Refusal :=
  .next (unlessFrozen (0x080 + 2 * n.val) (laneFramesLost n.val l.val) s)
/-- AUTOTRAIN_RETRY, R225: With AUTOTRAIN a lane that fell for a timed cause re-enters LOCK after 1,024 ticks. -/
def execAutotrainRetry (n : Fin 64) (l : Fin 2) (s : State) : Host.Outcome State Fault Refusal :=
  .next (unlessFrozen (0x080 + 2 * n.val) (laneRetry n.val l.val) s)
/-- RETRAINA, R225: BLn_CTRL.RETRAINA forces lane A to DOWN and then LOCK. -/
def execRetraina (n : Fin 64) (s : State) : Host.Outcome State Fault Refusal := .next (laneRetrain n.val 0 s)
/-- RETRAINB, R225: BLn_CTRL.RETRAINB forces lane B to DOWN and then LOCK. -/
def execRetrainb (n : Fin 64) (s : State) : Host.Outcome State Fault Refusal := .next (laneRetrain n.val 1 s)
/-- REIDENT, R225: BLn_CTRL.REIDENT returns each ACTIVE lane to IDENT. -/
def execReident (n : Fin 64) (s : State) : Host.Outcome State Fault Refusal := .next (reident n.val s)
/-- TICK_SEND, R227: Each port sends TICK on its lanes RTD before each tick boundary. -/
def execTickSend (n : Fin 64) (s : State) : Host.Outcome State Fault Refusal :=
  .next (unlessFrozen (0x080 + 2 * n.val) (tickSend n.val) s)
/-- SAMPLE_FRAME_RECEIVE, R230: A sample frame is validated per lane, selected under R236 and landed in the Saltern
with its record. -/
def execSampleFrameReceive (n : Fin 64) (a b : Option RxFrame) (lat : BitVec 10) (s : State)
    (ups : List RkUpset := []) : Host.Outcome State Fault Refusal :=
  .next (unlessFrozen (blTrans n.val) (fun s => sampleReceive n.val a b lat.toNat (rkUpsets ups s)) s)
/-- LANDING_NO_FRAME, R235: With no valid frame in the tick the port writes landing bytes 0 to 15 at 452 ns. -/
def execLandingNoFrame (n : Fin 64) (s : State) (lat : BitVec 10 := 0) (ups : List RkUpset := []) :
    Host.Outcome State Fault Refusal :=
  .next (unlessFrozen (blTrans n.val) (fun s => landNoFrame n.val lat.toNat (rkUpsets ups s)) s)
/-- COMMAND_AREA_CLOSE, R239: At 540 ns each port reads its command buffer and latches BLn_LEASE. -/
def execCommandAreaClose (s : State) : Host.Outcome State Fault Refusal := .next (commandClose s)
/-- COMMAND_FRAME_SEND, R237: From 560 ns each port serialises its command frame with Rake overrides applied field
by field. -/
def execCommandFrameSend (n : Fin 64) (s : State) : Host.Outcome State Fault Refusal :=
  .next (unlessFrozen (blTrans n.val) (frameSend n.val) s)
/-- GRANT, R244: BLn_LEASE LOP GRANT sends GRANT once and arms RENEW, or is refused with GRANT_BLOCKED. -/
def execGrant (n : Fin 64) (epoch : BitVec 16) (s : State) : Host.Outcome State Fault Refusal :=
  .next (leaseOpWrite n.val 1 epoch.toNat s)
/-- RELEASE, R244: BLn_LEASE LOP RELEASE sends RELEASE once and then LISTEN. -/
def execRelease (n : Fin 64) (epoch : BitVec 16) (s : State) : Host.Outcome State Fault Refusal :=
  .next (leaseOpWrite n.val 2 epoch.toNat s)
/-- LANEMODE_WRITE, R252: A write of BLn_CTRL.LANEMODE selects the lanes of a port and places an excluded lane in
OFF. -/
def execLanemodeWrite (n : Fin 64) (v : BitVec 2) (s : State) : Host.Outcome State Fault Refusal :=
  .next (laneModeRow n.val v.toNat s)

end Sys2Proof.Machine
end

