-- ==== Sys2Proof/Machine/CoreCmd.lean ====
section
/-!
DEFINITION. Sys2Proof/Machine/CoreCmd.lean: events of the Essan cores and of their pages (R331 to R373).
-/
namespace Sys2Proof.Machine
open Sys2Proof

/-- LINE_FILL_COMPLETE, R333: An accepted line fill writes its 64-byte line into the line buffers. -/
def execLineFillComplete (c : Fin 5) (line : BitVec 26) (kind : Fin 3) (s : State) (reqs : List FillReq := []) :
    Host.Outcome State Fault Refusal :=
  .next (unlessFrozen (corePg c.val) (lineFill c.val line.toNat kind.val (reqs.map fun r =>
    (r.line.toNat, r.kind.val, r.taken))) s)
/-- LBFLUSH, R350: EPn_CTRL.LBFLUSH invalidates all line buffers and the fetch queue. -/
def execLbflush (c : Fin 4) (s : State) : Host.Outcome State Fault Refusal := .next (lbFlush c.val s)
/-- BPFLUSH, R339: EPn_CTRL.BPFLUSH clears the branch-target buffer and return stack. -/
def execBpflush (c : Fin 4) (s : State) : Host.Outcome State Fault Refusal := .next (bpFlush c.val s)
/-- CNTCLR, R350: EPn_CTRL.CNTCLR clears every counter of the page. -/
def execCntclr (c : Fin 4) (s : State) : Host.Outcome State Fault Refusal := .next (cntClr c.val s)
/-- INTERRUPT_RECOGNITION, R355: A pending enabled interrupt, LAUNCH first, is recognised at an undeferred boundary
and entry begins. -/
def execInterruptRecognition (c : Fin 5) (s : State) : Host.Outcome State Fault Refusal :=
  .next (unlessFrozen (corePg c.val) (interrupt c.val) s)
/-- NI_OVERRUN, R365: An NI handler reaching its budget takes DOUBLE_FAULT. -/
def execNiOverrun (c : Fin 5) (s : State) : Host.Outcome State Fault Refusal :=
  .next (unlessFrozen (corePg c.val) (coreEvent niOverrun c.val) s)

end Sys2Proof.Machine
end

