-- ==== Sys2Proof/Machine/CryCmd.lean ====
section
/-!
DEFINITION. Sys2Proof/Machine/CryCmd.lean: admission, launch and the timing table (R69 to R102, R209).
-/
namespace Sys2Proof.Machine
open Sys2Proof

/-- ADMIT, R74: CRY_OP ADMIT starts the admission test of the staged descriptor; at OP_DONE a FREE context becomes
ADMITTED. -/
def execAdmitCtx (n : BitVec 14) (s : State) : Host.Outcome State Fault Refusal := .next (opAdmit n.toNat s)
/-- PROBE, R74: CRY_OP PROBE starts the admission test as if the context were FREE, and changes no context. -/
def execProbe (n : BitVec 14) (s : State) : Host.Outcome State Fault Refusal := .next (opProbe n.toNat s)
/-- REMOVE, R74: CRY_OP REMOVE starts the operation that makes an ADMITTED or SUSPENDED context DRAINING. -/
def execRemove (n : BitVec 14) (s : State) : Host.Outcome State Fault Refusal := .next (opRemove n.toNat s)
/-- REPLACE, R74: CRY_OP REPLACE starts the admission test of a new descriptor that takes over at tick t_d + 2. -/
def execReplace (n : BitVec 14) (s : State) : Host.Outcome State Fault Refusal := .next (opReplace n.toNat s)
/-- SUSPEND, R74: CRY_OP SUSPEND starts the operation that makes an ADMITTED context SUSPENDED. -/
def execSuspend (n : BitVec 14) (s : State) : Host.Outcome State Fault Refusal := .next (opSuspend n.toNat s)
/-- RESUME, R74: CRY_OP RESUME starts the operation that makes a SUSPENDED context ADMITTED and clears its abandonment
count. -/
def execResume (n : BitVec 14) (s : State) : Host.Outcome State Fault Refusal := .next (opResume n.toNat s)
/-- READ, R74: CRY_OP READ starts the copy of the stored descriptor into the staging registers. -/
def execRead (n : BitVec 14) (s : State) : Host.Outcome State Fault Refusal := .next (opRead n.toNat s)
/-- SETCORE, R74: CRY_OP SETCORE starts the operation that sets each core's NILIM while no context is admitted. -/
def execSetcore (s : State) : Host.Outcome State Fault Refusal := .next (opSetcore s)
/-- OP_DONE, R73: A Crystallizer operation completes, writes its results, clears OPBUSY and posts OP_DONE. -/
def execOpDone (s : State) : Host.Outcome State Fault Refusal := .next (opDone s)
/-- CONTEXT_RELEASE, R76: A DRAINING or removed SUSPENDED context releases its load, fields and mailbox and becomes
FREE. -/
def execContextRelease (n : BitVec 14) (s : State) : Host.Outcome State Fault Refusal :=
  .next (contextRelease n.toNat s)
/-- LAUNCH_POINT, R87: At 480 ns the Crystallizer writes mailboxes, enqueues the due contexts' orders and raises
early-task launch signals. `bad` are the contexts whose entries it reads as uncorrectable (R71). -/
def execLaunchPoint (s : State) (bad : List (BitVec 14) := []) : Host.Outcome State Fault Refusal :=
  .next (launchRow (bad.map fun n => n.toNat) s)
/-- PAN_DONE_POINT, R87: When every admitted order of the slot has completed or been abandoned, late-task launch
signals are raised. -/
def execPanDonePoint (s : State) : Host.Outcome State Fault Refusal := .next (panDoneRow s)
/-- TASK_BUDGET_EXPIRY, R90: A task that has not issued TEND by its TBUDGET-th CCLK is stopped and its launch
abandoned with OVERRUN. -/
def execTaskBudgetExpiry (c : Fin 5) (s : State) : Host.Outcome State Fault Refusal :=
  .next (unlessFrozen (corePg c.val) (coreEvent budgetExpiry c.val) s)
/-- COMMAND_EXPIRE, R443: At a tick boundary a committed command past its class bound is settled as EXPIRED and
completed. -/
def execCommandExpire (e : BitVec 14) (s : State) : Host.Outcome State Fault Refusal := .next (expire e.toNat s)
/-- ACCEPT_BY_TIMEOUT, R100: While the Sluice is down a committed command is treated as accepted 8,000 ns after its
commit. -/
def execAcceptByTimeout (e : BitVec 14) (s : State) : Host.Outcome State Fault Refusal :=
  .next (unlessFrozen slPg (acceptTimeout e.toNat) s)
/-- TT_DATA_WRITE, R102: A write of CRY_TTDATA3 stores the staged timing entry and clears TT_VALID, only while no
context is admitted. -/
def execTtDataWrite (j : Fin 4) (v : Word) (s : State) : Host.Outcome State Fault Refusal :=
  .next (ttDataWrite j.val v s)
/-- TT_COMMIT, R209: CRY_TTCTRL.COMMIT validates the timing table, computes PRE and sets TT_VALID or TT_REJECT. -/
def execTtCommit (s : State) : Host.Outcome State Fault Refusal := .next (ttCommit s)
/-- CRY_ENABLE_WRITE, R101: Clearing PAGE_CTRL.EN of page 0x110 stops launching, or is refused while any context is
not FREE. -/
def execCryEnableWrite (on : Bool) (s : State) : Host.Outcome State Fault Refusal := .next (pageEnWrite cryPg on s)

end Sys2Proof.Machine
end

