-- ==== Sys2Proof/Machine/DebugCmd.lean ====
section
/-!
DEFINITION. Sys2Proof/Machine/DebugCmd.lean: requests of the debug agent (R490, R491, R533, R537).
-/
namespace Sys2Proof.Machine
open Sys2Proof

/-- HALT, R490: Debug HALT stops core issue at the next recognisable boundary. -/
def execHalt (c : Fin 4) (s : State) : Host.Outcome State Fault Refusal := .next (dbgRow (.halt c.val) s)
/-- DEBUG_RESUME, R490: Debug RESUME restarts a halted core, mirrored to the checker. -/
def execDebugResume (c : Fin 4) (s : State) : Host.Outcome State Fault Refusal := .next (dbgRow (.resume c.val) s)
/-- STEP, R490: Debug STEP issues one bundle of a halted core. -/
def execStep (c : Fin 4) (s : State) : Host.Outcome State Fault Refusal := .next (dbgRow (.step c.val) s)
/-- READREG, R490: Debug READREG reads the core's register copy. -/
def execReadreg (c : Fin 4) (reg : CoreReg) (s : State) : Host.Outcome State Fault Refusal :=
  .next (dbgRow (.readReg c.val reg) s)
/-- WRITEREG, R490: Debug WRITEREG writes a core register, mirrored to the checker. -/
def execWritereg (c : Fin 4) (reg : CoreReg) (v : BitVec 128) (s : State) : Host.Outcome State Fault Refusal :=
  .next (dbgRow (.writeReg c.val reg (bytesOfNat 16 v.toNat)) s)
/-- READMEM, R490: Debug READMEM reads memory at debug rank. -/
def execReadmem (a : Word) (len : BitVec 7) (s : State) : Host.Outcome State Fault Refusal :=
  .next (dbgRow (.readMem a.toNat len.toNat) s)
/-- WRITEMEM, R533: Debug WRITEMEM writes memory at debug rank where permitted. -/
def execWritemem (a : Word) (bytes : List Byte) (s : State) : Host.Outcome State Fault Refusal :=
  .next (dbgRow (.writeMem a.toNat bytes) s)
/-- REBOOT, R533: Debug REBOOT in recovery reruns the cold boot from step 1. -/
def execReboot (s : State) : Host.Outcome State Fault Refusal := .next (dbgRow .reboot s)
/-- CHALLENGE, R537: Debug CHALLENGE returns a fresh nonce and DEVID. -/
def execChallenge (s : State) : Host.Outcome State Fault Refusal := .next (dbgRow .challenge s)
/-- UNLOCK, R537: Debug UNLOCK verifies a signed challenge and opens the debug scope. -/
def execUnlock (scope slot : BitVec 8) (pub sig : List Byte) (s : State) : Host.Outcome State Fault Refusal :=
  .next (dbgRow (.unlock scope.toNat slot.toNat pub sig) s)

end Sys2Proof.Machine
end

