-- ==== Sys2Proof/Machine/DuplexCmd.lean ====
section
/-!
DEFINITION. Sys2Proof/Machine/DuplexCmd.lean: duplex operation over the pair link (R497 to R504).
-/
namespace Sys2Proof.Machine
open Sys2Proof

/-- PAIR_FRAME_SEND, R497: Each controller sends a pair frame 560 ns into each tick. -/
def execPairFrameSend (s : State) : Host.Outcome State Fault Refusal := .next (unlessFrozen plPg (pairSend) s)
/-- PAIR_FRAME_RECEIVE, R499: A valid pair frame counts toward PAIRED, gives a time measurement and drives relays. -/
def execPairFrameReceive (bytes : List Byte) (sof : BitVec 12) (s : State) : Host.Outcome State Fault Refusal :=
  .next (unlessFrozen plPg (pairReceive bytes sof.toNat) s)
/-- PAIR_LOST, R502: The fourth tick without a valid pair frame posts PAIR_LOST and enters CONTINUE or YIELD. -/
def execPairLost (s : State) : Host.Outcome State Fault Refusal := .next (unlessFrozen plPg (pairLost) s)
/-- JOIN, R500: PL_CTRL.JOIN loads ANGLE and TICKNO from the next valid pair frame. -/
def execJoin (s : State) : Host.Outcome State Fault Refusal := .next (joinWrite s)

end Sys2Proof.Machine
end

