-- ==== Sys2Proof/Machine/FabricCmd.lean ====
section
/-!
DEFINITION. Sys2Proof/Machine/FabricCmd.lean: Ethernet, PTP and the harvest (R473 to R483).
-/
namespace Sys2Proof.Machine
open Sys2Proof

/-- PTP_FRAME_RECEIVE, R474: A PTP frame is timestamped and handed to the servo. -/
def execPtpFrameReceive (m : Fin 2) (domain : Byte) (off : Option Int) (s : State) :
    Host.Outcome State Fault Refusal :=
  .next (unlessFrozen ptPg (ptpReceive m.val domain.toNat off) s)
/-- PT_STEP, R475: A PT_STEP write steps the PTP clock and so the fabric angle. -/
def execPtStep (v : Word) (s : State) : Host.Outcome State Fault Refusal := .next (ptStep (signedOf 32 v.toNat) s)
/-- ETH_FRAME_RECEIVE, R473: An Ethernet frame is accepted by type or dropped and counted. -/
def execEthFrameReceive (m : Fin 2) (k : EthKind) (len : BitVec 16) (fcsOk : Bool) (s : State) :
    Host.Outcome State Fault Refusal :=
  .next (unlessFrozen (ethPg m.val) (ethReceive m.val k len.toNat fcsOk) s)
/-- PLAN_SEND, R477: At TURN rR - 1 each node sends its PLAN to its aggregator. -/
def execPlanSend (s : State) : Host.Outcome State Fault Refusal := .next (unlessFrozen hgPg (planSend) s)
/-- AGGREGATE_SEND, R477: Each aggregator sends the root one summed PLAN. -/
def execAggregateSend (s : State) : Host.Outcome State Fault Refusal := .next (unlessFrozen hgPg (aggregateSend) s)
/-- ALLOC_SEND, R481: The root computes SCALE_j and sends ALLOC. -/
def execAllocSend (s : State) : Host.Outcome State Fault Refusal := .next (unlessFrozen hgPg (allocSend) s)
/-- PLAN_RECEIVE, R480: A PLAN is checked, stored or dropped. -/
def execPlanReceive (h : HgHdr) (tot : List Int) (mem : BitVec 16) (s : State) (src : BitVec 128 := 0) :
    Host.Outcome State Fault Refusal :=
  .next (unlessFrozen hgPg (planReceive h tot mem.toNat src.toNat) s)
/-- ALLOC_RECEIVE, R482: An ALLOC is multicast onward and the node sends its inbox record. -/
def execAllocReceive (h : HgHdr) (src : BitVec 128) (scale : List (BitVec 16)) (mem : BitVec 16) (s : State) :
    Host.Outcome State Fault Refusal :=
  .next (unlessFrozen hgPg (allocReceive h src.toNat (scale.map fun x => x.toNat) mem.toNat) s)
/-- HARVEST_ROUND_START, R477: At the round start a node with no ALLOC sends an inbox record with VALID 0. -/
def execHarvestRoundStart (s : State) : Host.Outcome State Fault Refusal := .next (unlessFrozen hgPg (roundStart) s)
/-- ETH_LINK_UP, R473: An Ethernet port's link comes up, ETHm_STAT.LINK sets and LINK_UP is posted. -/
def execEthLinkUp (m : Fin 2) (s : State) : Host.Outcome State Fault Refusal :=
  .next (unlessFrozen (ethPg m.val) (ethLinkUp m.val) s)
/-- ETH_LINK_DOWN, R473: An Ethernet port's link goes down, ETHm_STAT.LINK clears and LINK_DOWN is posted. -/
def execEthLinkDown (m : Fin 2) (s : State) : Host.Outcome State Fault Refusal :=
  .next (unlessFrozen (ethPg m.val) (ethLinkDown m.val) s)

end Sys2Proof.Machine
end

