-- ==== Sys2Proof/Machine/FaultCmd.lean ====
section
/-!
DEFINITION. Sys2Proof/Machine/FaultCmd.lean: lockstep, recovery and duplicated control logic (R484 to R496, R505).
-/
namespace Sys2Proof.Machine
open Sys2Proof

/-- LOCKSTEP, R485: A core-checker comparison mismatch stops the pair, posts LOCKSTEP and holds its phases. -/
def execLockstep (c : Fin 4) (kind : BitVec 4) (s : State) : Host.Outcome State Fault Refusal :=
  .next (lockstep c.val kind.toNat s)
/-- S0_LOCKSTEP, R486: A steward mismatch stops S0 and warm-resets the H-die. -/
def execS0Lockstep (s : State) : Host.Outcome State Fault Refusal := .next (s0Lockstep s)
/-- RECOVER, R487: FC_CTRL.RECOVER starts recovery of a stopped core. -/
def execRecover (c : Fin 4) (s : State) : Host.Outcome State Fault Refusal := .next (recover c.val s)
/-- AUTO_RECOVER, R487: 16 CCLK after a stop with AUTOREC set, recovery starts. -/
def execAutoRecover (c : Fin 4) (s : State) : Host.Outcome State Fault Refusal := .next (autoRecover c.val s)
/-- RECOVERED, R487: Recovery completes, enters as DOUBLE_FAULT with RECOVERY and posts RECOVERED. -/
def execRecovered (c : Fin 4) (s : State) : Host.Outcome State Fault Refusal := .next (recovered c.val s)
/-- INJECT, R505: FC_CTRL.INJECT inverts a core output bit to force a lockstep stop. -/
def execInject (mask : BitVec 4) (s : State) : Host.Outcome State Fault Refusal := .next (inject mask.toNat s)
/-- LOGIC_MISMATCH, R494: Duplicated control logic differing stops command frames and warm-resets the F-die. -/
def execLogicMismatch (s : State) : Host.Outcome State Fault Refusal := .next (logicMismatch s)

end Sys2Proof.Machine
end

