-- ==== Sys2Proof/Machine/FloatCmd.lean ====
section
/-!
DEFINITION. Sys2Proof/Machine/FloatCmd.lean: Essan floating-point syllables (R297).
-/
namespace Sys2Proof.Machine
open Sys2Proof

/-- FADD_S, R297: FPS FADD adds binary32 values. -/
def execFaddS (c : Fin 5) (h : Hdr) (d a b : BitVec 6) (s : State) : Host.Outcome State Fault Refusal :=
  .next (execSyl c h (.fp false .fadd d a b) s)
/-- FSUB_S, R297: FPS FSUB subtracts binary32 values. -/
def execFsubS (c : Fin 5) (h : Hdr) (d a b : BitVec 6) (s : State) : Host.Outcome State Fault Refusal :=
  .next (execSyl c h (.fp false .fsub d a b) s)
/-- FMUL_S, R297: FPS FMUL multiplies binary32 values. -/
def execFmulS (c : Fin 5) (h : Hdr) (d a b : BitVec 6) (s : State) : Host.Outcome State Fault Refusal :=
  .next (execSyl c h (.fp false .fmul d a b) s)
/-- FDIV_S, R297: FPS FDIV divides binary32 values. -/
def execFdivS (c : Fin 5) (h : Hdr) (d a b : BitVec 6) (s : State) : Host.Outcome State Fault Refusal :=
  .next (execSyl c h (.fp false .fdiv d a b) s)
/-- FMA_S, R297: FPS FMA fuses a binary32 multiply-add. -/
def execFmaS (c : Fin 5) (h : Hdr) (d a b : BitVec 6) (s : State) : Host.Outcome State Fault Refusal :=
  .next (execSyl c h (.fp false .fma d a b) s)
/-- FMIN_S, R297: FPS FMIN writes the binary32 minimum. -/
def execFminS (c : Fin 5) (h : Hdr) (d a b : BitVec 6) (s : State) : Host.Outcome State Fault Refusal :=
  .next (execSyl c h (.fp false .fmin d a b) s)
/-- FMAX_S, R297: FPS FMAX writes the binary32 maximum. -/
def execFmaxS (c : Fin 5) (h : Hdr) (d a b : BitVec 6) (s : State) : Host.Outcome State Fault Refusal :=
  .next (execSyl c h (.fp false .fmax d a b) s)
/-- FNMA_S, R297: FPS FNMA fuses a negated binary32 multiply-add. -/
def execFnmaS (c : Fin 5) (h : Hdr) (d a b : BitVec 6) (s : State) : Host.Outcome State Fault Refusal :=
  .next (execSyl c h (.fp false .fnma d a b) s)
/-- FADD_D, R297: FPD FADD adds binary64 values. -/
def execFaddD (c : Fin 5) (h : Hdr) (d a b : BitVec 6) (s : State) : Host.Outcome State Fault Refusal :=
  .next (execSyl c h (.fp true .fadd d a b) s)
/-- FSUB_D, R297: FPD FSUB subtracts binary64 values. -/
def execFsubD (c : Fin 5) (h : Hdr) (d a b : BitVec 6) (s : State) : Host.Outcome State Fault Refusal :=
  .next (execSyl c h (.fp true .fsub d a b) s)
/-- FMUL_D, R297: FPD FMUL multiplies binary64 values. -/
def execFmulD (c : Fin 5) (h : Hdr) (d a b : BitVec 6) (s : State) : Host.Outcome State Fault Refusal :=
  .next (execSyl c h (.fp true .fmul d a b) s)
/-- FDIV_D, R297: FPD FDIV divides binary64 values. -/
def execFdivD (c : Fin 5) (h : Hdr) (d a b : BitVec 6) (s : State) : Host.Outcome State Fault Refusal :=
  .next (execSyl c h (.fp true .fdiv d a b) s)
/-- FMA_D, R297: FPD FMA fuses a binary64 multiply-add. -/
def execFmaD (c : Fin 5) (h : Hdr) (d a b : BitVec 6) (s : State) : Host.Outcome State Fault Refusal :=
  .next (execSyl c h (.fp true .fma d a b) s)
/-- FMIN_D, R297: FPD FMIN writes the binary64 minimum. -/
def execFminD (c : Fin 5) (h : Hdr) (d a b : BitVec 6) (s : State) : Host.Outcome State Fault Refusal :=
  .next (execSyl c h (.fp true .fmin d a b) s)
/-- FMAX_D, R297: FPD FMAX writes the binary64 maximum. -/
def execFmaxD (c : Fin 5) (h : Hdr) (d a b : BitVec 6) (s : State) : Host.Outcome State Fault Refusal :=
  .next (execSyl c h (.fp true .fmax d a b) s)
/-- FNMA_D, R297: FPD FNMA fuses a negated binary64 multiply-add. -/
def execFnmaD (c : Fin 5) (h : Hdr) (d a b : BitVec 6) (s : State) : Host.Outcome State Fault Refusal :=
  .next (execSyl c h (.fp true .fnma d a b) s)
/-- FSQRT_S, R297: FUN FSQRT.S takes a binary32 square root. -/
def execFsqrtS (c : Fin 5) (h : Hdr) (d a : BitVec 6) (s : State) : Host.Outcome State Fault Refusal :=
  .next (execSyl c h (.fun1 .sqrtS d a) s)
/-- FSQRT_D, R297: FUN FSQRT.D takes a binary64 square root. -/
def execFsqrtD (c : Fin 5) (h : Hdr) (d a : BitVec 6) (s : State) : Host.Outcome State Fault Refusal :=
  .next (execSyl c h (.fun1 .sqrtD d a) s)
/-- FNEG_S, R297: FUN FNEG.S negates a binary32 value. -/
def execFnegS (c : Fin 5) (h : Hdr) (d a : BitVec 6) (s : State) : Host.Outcome State Fault Refusal :=
  .next (execSyl c h (.fun1 .negS d a) s)
/-- FNEG_D, R297: FUN FNEG.D negates a binary64 value. -/
def execFnegD (c : Fin 5) (h : Hdr) (d a : BitVec 6) (s : State) : Host.Outcome State Fault Refusal :=
  .next (execSyl c h (.fun1 .negD d a) s)
/-- FABS_S, R297: FUN FABS.S takes a binary32 absolute value. -/
def execFabsS (c : Fin 5) (h : Hdr) (d a : BitVec 6) (s : State) : Host.Outcome State Fault Refusal :=
  .next (execSyl c h (.fun1 .absS d a) s)
/-- FABS_D, R297: FUN FABS.D takes a binary64 absolute value. -/
def execFabsD (c : Fin 5) (h : Hdr) (d a : BitVec 6) (s : State) : Host.Outcome State Fault Refusal :=
  .next (execSyl c h (.fun1 .absD d a) s)
/-- FMOV, R297: FUN FMOV copies 64 bits without flags. -/
def execFmov (c : Fin 5) (h : Hdr) (d a : BitVec 6) (s : State) : Host.Outcome State Fault Refusal :=
  .next (execSyl c h (.fun1 .mov d a) s)
/-- FCVT_D_S, R297: FUN FCVT.D.S widens binary32 to binary64 exactly. -/
def execFcvtDS (c : Fin 5) (h : Hdr) (d a : BitVec 6) (s : State) : Host.Outcome State Fault Refusal :=
  .next (execSyl c h (.fun1 .cvtDS d a) s)
/-- FCVT_S_D, R297: FUN FCVT.S.D rounds binary64 to binary32. -/
def execFcvtSD (c : Fin 5) (h : Hdr) (d a : BitVec 6) (s : State) : Host.Outcome State Fault Refusal :=
  .next (execSyl c h (.fun1 .cvtSD d a) s)
/-- FCVT_H_S, R297: FUN FCVT.H.S rounds binary32 to binary16. -/
def execFcvtHS (c : Fin 5) (h : Hdr) (d a : BitVec 6) (s : State) : Host.Outcome State Fault Refusal :=
  .next (execSyl c h (.fun1 .cvtHS d a) s)
/-- FCVT_S_H, R297: FUN FCVT.S.H widens binary16 to binary32. -/
def execFcvtSH (c : Fin 5) (h : Hdr) (d a : BitVec 6) (s : State) : Host.Outcome State Fault Refusal :=
  .next (execSyl c h (.fun1 .cvtSH d a) s)
/-- FCMP, R297: FCMP compares FP values and writes a predicate. -/
def execFcmp (c : Fin 5) (h : Hdr) (d a b : BitVec 6) (cond : BitVec 3) (s : State) :
    Host.Outcome State Fault Refusal :=
  .next (execSyl c h (.fcmp d a b cond) s)
/-- FMVWF, R297: FXFER FMVWF moves FP bits to an integer register. -/
def execFmvwf (c : Fin 5) (h : Hdr) (d a : BitVec 6) (s : State) : Host.Outcome State Fault Refusal :=
  .next (execSyl c h (.fxfer .mvwf d a) s)
/-- FMVFW, R297: FXFER FMVFW moves an integer register to FP bits. -/
def execFmvfw (c : Fin 5) (h : Hdr) (d a : BitVec 6) (s : State) : Host.Outcome State Fault Refusal :=
  .next (execSyl c h (.fxfer .mvfw d a) s)
/-- FCVTWS, R297: FXFER FCVTWS converts binary32 to INT32. -/
def execFcvtws (c : Fin 5) (h : Hdr) (d a : BitVec 6) (s : State) : Host.Outcome State Fault Refusal :=
  .next (execSyl c h (.fxfer .cvtws d a) s)
/-- FCVTSW, R297: FXFER FCVTSW converts INT32 to binary32. -/
def execFcvtsw (c : Fin 5) (h : Hdr) (d a : BitVec 6) (s : State) : Host.Outcome State Fault Refusal :=
  .next (execSyl c h (.fxfer .cvtsw d a) s)
/-- FCVTQS, R297: FXFER FCVTQS converts binary32 to Q31. -/
def execFcvtqs (c : Fin 5) (h : Hdr) (d a : BitVec 6) (s : State) : Host.Outcome State Fault Refusal :=
  .next (execSyl c h (.fxfer .cvtqs d a) s)
/-- FCVTSQ, R297: FXFER FCVTSQ converts Q31 to binary32. -/
def execFcvtsq (c : Fin 5) (h : Hdr) (d a : BitVec 6) (s : State) : Host.Outcome State Fault Refusal :=
  .next (execSyl c h (.fxfer .cvtsq d a) s)
/-- FCVTWD, R297: FXFER FCVTWD converts binary64 to INT32. -/
def execFcvtwd (c : Fin 5) (h : Hdr) (d a : BitVec 6) (s : State) : Host.Outcome State Fault Refusal :=
  .next (execSyl c h (.fxfer .cvtwd d a) s)
/-- FCVTDW, R297: FXFER FCVTDW converts INT32 to binary64. -/
def execFcvtdw (c : Fin 5) (h : Hdr) (d a : BitVec 6) (s : State) : Host.Outcome State Fault Refusal :=
  .next (execSyl c h (.fxfer .cvtdw d a) s)
/-- FDIV_COMPLETE, R327: An FDIV or FSQRT in either precision writes its result and flags 14 or 28 CCLK after issue. -/
def execFdivComplete (c : Fin 5) (s : State) : Host.Outcome State Fault Refusal :=
  .next (unlessFrozen (corePg c.val) (fdivComplete c.val) s)

end Sys2Proof.Machine
end

