-- ==== Sys2Proof/Machine/FlowCmd.lean ====
section
/-!
DEFINITION. Sys2Proof/Machine/FlowCmd.lean: Essan transfers, loops, repetition and waits (R298 to R309, R314).
-/
namespace Sys2Proof.Machine
open Sys2Proof

/-- BR, R298: BR branches under its guard after one delay slot. -/
def execBr (c : Fin 5) (h : Hdr) (an : Bool) (disp : BitVec 20) (s : State) : Host.Outcome State Fault Refusal :=
  .next (execSyl c h (.br an disp) s)
/-- CALL, R298: CALL branches, links w31 and rotates the window after its delay slot. -/
def execCall (c : Fin 5) (h : Hdr) (an : Bool) (disp : BitVec 20) (s : State) : Host.Outcome State Fault Refusal :=
  .next (execSyl c h (.call an disp) s)
/-- JR, R298: JR jumps to a register target after one delay slot. -/
def execJr (c : Fin 5) (h : Hdr) (d a b : BitVec 5) (s : State) : Host.Outcome State Fault Refusal :=
  .next (execSyl c h (.jump .jr d a b) s)
/-- CALLR, R298: CALLR calls a register target. -/
def execCallr (c : Fin 5) (h : Hdr) (d a b : BitVec 5) (s : State) : Host.Outcome State Fault Refusal :=
  .next (execSyl c h (.jump .callr d a b) s)
/-- RET, R298: RET returns to w15 and rotates the window back, filling when needed. -/
def execRet (c : Fin 5) (h : Hdr) (d a b : BitVec 5) (s : State) : Host.Outcome State Fault Refusal :=
  .next (execSyl c h (.jump .ret d a b) s)
/-- LOOP, R300: LOOP sets up a hardware loop with a register count. -/
def execLoop (c : Fin 5) (h : Hdr) (a : BitVec 5) (off : BitVec 12) (s : State) : Host.Outcome State Fault Refusal :=
  .next (execSyl c h (.loop a off) s)
/-- LOOPI, R300: LOOPI sets up a hardware loop with an immediate count. -/
def execLoopi (c : Fin 5) (h : Hdr) (count : BitVec 9) (off : BitVec 12) (s : State) :
    Host.Outcome State Fault Refusal :=
  .next (execSyl c h (.loopi count off) s)
/-- REP, R304: REP repeats the next bundle a counted number of times. -/
def execRep (c : Fin 5) (h : Hdr) (reg : Bool) (a : BitVec 5) (count : BitVec 8) (s : State) :
    Host.Outcome State Fault Refusal :=
  .next (execSyl c h (.rep false reg a count) s)
/-- REPN, R306: REPN repeats the next bundle with interrupt recognition deferred. -/
def execRepn (c : Fin 5) (h : Hdr) (reg : Bool) (a : BitVec 5) (count : BitVec 8) (s : State) :
    Host.Outcome State Fault Refusal :=
  .next (execSyl c h (.rep true reg a count) s)
/-- REPN_CUT, R364: NISPAN reaching NILIM during a REPN lets a pending interrupt be recognised and posts REPN_CUT. -/
def execRepnCut (c : Fin 5) (s : State) : Host.Outcome State Fault Refusal :=
  .next (unlessFrozen (corePg c.val) (repnCut c.val) s)
/-- EVW, R308: EVW waits for the event flag, optionally up to a cycle limit. -/
def execEvw (c : Fin 5) (h : Hdr) (d a b : BitVec 5) (s : State) : Host.Outcome State Fault Refusal :=
  .next (execSyl c h (.wait .evw d a b) s)
/-- EVW_TIMEOUT, R308: The EVW cycle limit passes with EVF at 0, setting EVTO. -/
def execEvwTimeout (c : Fin 5) (s : State) : Host.Outcome State Fault Refusal :=
  .next (unlessFrozen (corePg c.val) (coreEvent evwTimeout c.val) s)
/-- EVS, R307: EVS sets the event flags of the named cores. -/
def execEvs (c : Fin 5) (h : Hdr) (d a b : BitVec 5) (s : State) : Host.Outcome State Fault Refusal :=
  .next (execSyl c h (.wait .evs d a b) s)
/-- WTA, R309: WTA waits until ANGLE reaches a 64-bit target. -/
def execWta (c : Fin 5) (h : Hdr) (d a b : BitVec 5) (s : State) : Host.Outcome State Fault Refusal :=
  .next (execSyl c h (.wait .wta d a b) s)
/-- WTT, R309: WTT waits until TICKNO reaches a 64-bit target. -/
def execWtt (c : Fin 5) (h : Hdr) (d a b : BitVec 5) (s : State) : Host.Outcome State Fault Refusal :=
  .next (execSyl c h (.wait .wtt d a b) s)
/-- WAIT_TARGET_REACHED, R309: A stalled timed wait resumes issue when its target is reached. -/
def execWaitTargetReached (c : Fin 5) (s : State) : Host.Outcome State Fault Refusal :=
  .next (unlessFrozen (corePg c.val) (coreEvent waitReached c.val) s)
/-- TEND, R314: TEND ends the running core task after its stores are performed and starts the next task or returns. -/
def execTend (c : Fin 5) (h : Hdr) (d a b : BitVec 5) (s : State) : Host.Outcome State Fault Refusal :=
  .next (execSyl c h (.wait .tend d a b) s)
/-- EVCH, R307: EVCH pulses an event channel. -/
def execEvch (c : Fin 5) (h : Hdr) (d a b : BitVec 5) (s : State) : Host.Outcome State Fault Refusal :=
  .next (execSyl c h (.wait .evch d a b) s)

end Sys2Proof.Machine
end

