-- ==== Sys2Proof/Machine/IntCmd.lean ====
section
/-!
DEFINITION. Sys2Proof/Machine/IntCmd.lean: Essan integer, compare, multiply, divide, decimal and predicate syllables (R277, R291
to R294, R310 to R313, R317, R318).
-/
namespace Sys2Proof.Machine
open Sys2Proof

/-- NOP, R277: NOP executes nothing. -/
def execNop (c : Fin 5) (h : Hdr) (s : State) : Host.Outcome State Fault Refusal := .next (execSyl c h (.nop) s)
/-- ADD, R291: ALU ADD writes the wrapping sum. -/
def execAdd (c : Fin 5) (h : Hdr) (d a b : BitVec 5) (s : State) : Host.Outcome State Fault Refusal :=
  .next (execSyl c h (.alu .add d a b) s)
/-- SUB, R291: ALU SUB writes the wrapping difference. -/
def execSub (c : Fin 5) (h : Hdr) (d a b : BitVec 5) (s : State) : Host.Outcome State Fault Refusal :=
  .next (execSyl c h (.alu .sub d a b) s)
/-- AND, R291: ALU AND writes the bitwise AND. -/
def execAnd (c : Fin 5) (h : Hdr) (d a b : BitVec 5) (s : State) : Host.Outcome State Fault Refusal :=
  .next (execSyl c h (.alu .and d a b) s)
/-- OR, R291: ALU OR writes the bitwise OR. -/
def execOr (c : Fin 5) (h : Hdr) (d a b : BitVec 5) (s : State) : Host.Outcome State Fault Refusal :=
  .next (execSyl c h (.alu .or d a b) s)
/-- XOR, R291: ALU XOR writes the bitwise exclusive OR. -/
def execXor (c : Fin 5) (h : Hdr) (d a b : BitVec 5) (s : State) : Host.Outcome State Fault Refusal :=
  .next (execSyl c h (.alu .xor d a b) s)
/-- ANDN, R291: ALU ANDN writes a AND NOT b. -/
def execAndn (c : Fin 5) (h : Hdr) (d a b : BitVec 5) (s : State) : Host.Outcome State Fault Refusal :=
  .next (execSyl c h (.alu .andn d a b) s)
/-- SHL, R291: ALU SHL shifts left. -/
def execShl (c : Fin 5) (h : Hdr) (d a b : BitVec 5) (s : State) : Host.Outcome State Fault Refusal :=
  .next (execSyl c h (.alu .shl d a b) s)
/-- SHR, R291: ALU SHR shifts right logically. -/
def execShr (c : Fin 5) (h : Hdr) (d a b : BitVec 5) (s : State) : Host.Outcome State Fault Refusal :=
  .next (execSyl c h (.alu .shr d a b) s)
/-- SAR, R291: ALU SAR shifts right arithmetically. -/
def execSar (c : Fin 5) (h : Hdr) (d a b : BitVec 5) (s : State) : Host.Outcome State Fault Refusal :=
  .next (execSyl c h (.alu .sar d a b) s)
/-- ROR, R291: ALU ROR rotates right. -/
def execRor (c : Fin 5) (h : Hdr) (d a b : BitVec 5) (s : State) : Host.Outcome State Fault Refusal :=
  .next (execSyl c h (.alu .ror d a b) s)
/-- MIN, R291: ALU MIN writes the signed minimum. -/
def execMin (c : Fin 5) (h : Hdr) (d a b : BitVec 5) (s : State) : Host.Outcome State Fault Refusal :=
  .next (execSyl c h (.alu .min d a b) s)
/-- MAX, R291: ALU MAX writes the signed maximum. -/
def execMax (c : Fin 5) (h : Hdr) (d a b : BitVec 5) (s : State) : Host.Outcome State Fault Refusal :=
  .next (execSyl c h (.alu .max d a b) s)
/-- MINU, R291: ALU MINU writes the unsigned minimum. -/
def execMinu (c : Fin 5) (h : Hdr) (d a b : BitVec 5) (s : State) : Host.Outcome State Fault Refusal :=
  .next (execSyl c h (.alu .minu d a b) s)
/-- MAXU, R291: ALU MAXU writes the unsigned maximum. -/
def execMaxu (c : Fin 5) (h : Hdr) (d a b : BitVec 5) (s : State) : Host.Outcome State Fault Refusal :=
  .next (execSyl c h (.alu .maxu d a b) s)
/-- ADDS, R291: ALU ADDS writes the saturated sum and sets ISAT when out of range. -/
def execAdds (c : Fin 5) (h : Hdr) (d a b : BitVec 5) (s : State) : Host.Outcome State Fault Refusal :=
  .next (execSyl c h (.alu .adds d a b) s)
/-- SUBS, R291: ALU SUBS writes the saturated difference and sets ISAT when out of range. -/
def execSubs (c : Fin 5) (h : Hdr) (d a b : BitVec 5) (s : State) : Host.Outcome State Fault Refusal :=
  .next (execSyl c h (.alu .subs d a b) s)
/-- ABS, R291: ALU ABS writes the wrapping absolute value. -/
def execAbs (c : Fin 5) (h : Hdr) (d a b : BitVec 5) (s : State) : Host.Outcome State Fault Refusal :=
  .next (execSyl c h (.alu .abs d a b) s)
/-- CLZ, R291: ALU CLZ counts leading zeros. -/
def execClz (c : Fin 5) (h : Hdr) (d a b : BitVec 5) (s : State) : Host.Outcome State Fault Refusal :=
  .next (execSyl c h (.alu .clz d a b) s)
/-- POPC, R291: ALU POPC counts ones. -/
def execPopc (c : Fin 5) (h : Hdr) (d a b : BitVec 5) (s : State) : Host.Outcome State Fault Refusal :=
  .next (execSyl c h (.alu .popc d a b) s)
/-- SEXTB, R291: ALU SEXTB sign-extends a byte. -/
def execSextb (c : Fin 5) (h : Hdr) (d a b : BitVec 5) (s : State) : Host.Outcome State Fault Refusal :=
  .next (execSyl c h (.alu .sextb d a b) s)
/-- SEXTH, R291: ALU SEXTH sign-extends a halfword. -/
def execSexth (c : Fin 5) (h : Hdr) (d a b : BitVec 5) (s : State) : Host.Outcome State Fault Refusal :=
  .next (execSyl c h (.alu .sexth d a b) s)
/-- ZEXTH, R291: ALU ZEXTH zero-extends a halfword. -/
def execZexth (c : Fin 5) (h : Hdr) (d a b : BitVec 5) (s : State) : Host.Outcome State Fault Refusal :=
  .next (execSyl c h (.alu .zexth d a b) s)
/-- ADDI, R291: ADDI adds a sign-extended immediate. -/
def execAddi (c : Fin 5) (h : Hdr) (d a : BitVec 5) (imm : BitVec 11) (s : State) :
    Host.Outcome State Fault Refusal :=
  .next (execSyl c h (.imm .addi d a imm) s)
/-- ANDI, R291: ANDI ANDs a sign-extended immediate. -/
def execAndi (c : Fin 5) (h : Hdr) (d a : BitVec 5) (imm : BitVec 11) (s : State) :
    Host.Outcome State Fault Refusal :=
  .next (execSyl c h (.imm .andi d a imm) s)
/-- ORI, R291: ORI ORs a sign-extended immediate. -/
def execOri (c : Fin 5) (h : Hdr) (d a : BitVec 5) (imm : BitVec 11) (s : State) : Host.Outcome State Fault Refusal :=
  .next (execSyl c h (.imm .ori d a imm) s)
/-- XORI, R291: XORI exclusive-ORs a sign-extended immediate. -/
def execXori (c : Fin 5) (h : Hdr) (d a : BitVec 5) (imm : BitVec 11) (s : State) :
    Host.Outcome State Fault Refusal :=
  .next (execSyl c h (.imm .xori d a imm) s)
/-- SHI, R291: SHI shifts or rotates by an immediate count. -/
def execShi (c : Fin 5) (h : Hdr) (d a : BitVec 5) (imm : BitVec 11) (s : State) : Host.Outcome State Fault Refusal :=
  .next (execSyl c h (.shi d a imm) s)
/-- MOVI, R291: MOVI writes a sign-extended immediate. -/
def execMovi (c : Fin 5) (h : Hdr) (d : BitVec 5) (imm : BitVec 16) (s : State) : Host.Outcome State Fault Refusal :=
  .next (execSyl c h (.movi d imm) s)
/-- MOVHI, R291: MOVHI writes the immediate into bits [31:16]. -/
def execMovhi (c : Fin 5) (h : Hdr) (d : BitVec 5) (imm : BitVec 16) (s : State) : Host.Outcome State Fault Refusal :=
  .next (execSyl c h (.movhi d imm) s)
/-- CMP, R292: CMP compares two registers and writes a predicate. -/
def execCmp (c : Fin 5) (h : Hdr) (d a b : BitVec 5) (cond : BitVec 6) (s : State) :
    Host.Outcome State Fault Refusal :=
  .next (execSyl c h (.cmp d a b cond) s)
/-- CMPI, R292: CMPI compares a register with an immediate and writes a predicate. -/
def execCmpi (c : Fin 5) (h : Hdr) (pd : BitVec 3) (cond : BitVec 4) (a : BitVec 5) (imm : BitVec 9) (s : State) :
    Host.Outcome State Fault Refusal :=
  .next (execSyl c h (.cmpi pd cond a imm) s)
/-- MUL, R294: MUL writes the low 32 bits of the product. -/
def execMul (c : Fin 5) (h : Hdr) (d a b : BitVec 5) (s : State) : Host.Outcome State Fault Refusal :=
  .next (execSyl c h (.mul .mul d a b) s)
/-- MULH, R294: MULH writes the high 32 bits of the signed product. -/
def execMulh (c : Fin 5) (h : Hdr) (d a b : BitVec 5) (s : State) : Host.Outcome State Fault Refusal :=
  .next (execSyl c h (.mul .mulh d a b) s)
/-- MULHU, R294: MULHU writes the high 32 bits of the unsigned product. -/
def execMulhu (c : Fin 5) (h : Hdr) (d a b : BitVec 5) (s : State) : Host.Outcome State Fault Refusal :=
  .next (execSyl c h (.mul .mulhu d a b) s)
/-- MULQ, R294: MULQ writes the rounded saturated Q31 product. -/
def execMulq (c : Fin 5) (h : Hdr) (d a b : BitVec 5) (s : State) : Host.Outcome State Fault Refusal :=
  .next (execSyl c h (.mul .mulq d a b) s)
/-- MACQ, R294: MACQ accumulates a Q31 product with one rounding and saturation. -/
def execMacq (c : Fin 5) (h : Hdr) (d a b : BitVec 5) (s : State) : Host.Outcome State Fault Refusal :=
  .next (execSyl c h (.mul .macq d a b) s)
/-- MAC, R294: MAC accumulates the low 32 bits of the product. -/
def execMac (c : Fin 5) (h : Hdr) (d a b : BitVec 5) (s : State) : Host.Outcome State Fault Refusal :=
  .next (execSyl c h (.mul .mac d a b) s)
/-- DIVU, R310: DIVU starts an unsigned restoring division into a register pair. -/
def execDivu (c : Fin 5) (h : Hdr) (d a b : BitVec 5) (s : State) : Host.Outcome State Fault Refusal :=
  .next (execSyl c h (.div false d a b) s)
/-- DIVS, R310: DIVS starts a signed restoring division into a register pair. -/
def execDivs (c : Fin 5) (h : Hdr) (d a b : BitVec 5) (s : State) : Host.Outcome State Fault Refusal :=
  .next (execSyl c h (.div true d a b) s)
/-- DIVISION_COMPLETE, R311: A division writes its quotient and remainder after its data-dependent or constant time. -/
def execDivisionComplete (c : Fin 5) (s : State) : Host.Outcome State Fault Refusal :=
  .next (unlessFrozen (corePg c.val) (divComplete c.val) s)
/-- BADD, R317: BADD adds packed decimal words and sets DC. -/
def execBadd (c : Fin 5) (h : Hdr) (d a b : BitVec 5) (s : State) : Host.Outcome State Fault Refusal :=
  .next (execSyl c h (.bcd .badd d a b) s)
/-- BADDC, R317: BADDC adds packed decimal words with carry. -/
def execBaddc (c : Fin 5) (h : Hdr) (d a b : BitVec 5) (s : State) : Host.Outcome State Fault Refusal :=
  .next (execSyl c h (.bcd .baddc d a b) s)
/-- BSUB, R317: BSUB subtracts packed decimal words and sets DC. -/
def execBsub (c : Fin 5) (h : Hdr) (d a b : BitVec 5) (s : State) : Host.Outcome State Fault Refusal :=
  .next (execSyl c h (.bcd .bsub d a b) s)
/-- BSUBC, R317: BSUBC subtracts packed decimal words with borrow. -/
def execBsubc (c : Fin 5) (h : Hdr) (d a b : BitVec 5) (s : State) : Host.Outcome State Fault Refusal :=
  .next (execSyl c h (.bcd .bsubc d a b) s)
/-- BSHL, R317: BSHL shifts a packed decimal word left by digits. -/
def execBshl (c : Fin 5) (h : Hdr) (d a b : BitVec 5) (s : State) : Host.Outcome State Fault Refusal :=
  .next (execSyl c h (.bcd .bshl d a b) s)
/-- BSHR, R317: BSHR shifts a packed decimal word right by digits. -/
def execBshr (c : Fin 5) (h : Hdr) (d a b : BitVec 5) (s : State) : Host.Outcome State Fault Refusal :=
  .next (execSyl c h (.bcd .bshr d a b) s)
/-- BFROMB, R317: BFROMB converts binary to packed decimal. -/
def execBfromb (c : Fin 5) (h : Hdr) (d a b : BitVec 5) (s : State) : Host.Outcome State Fault Refusal :=
  .next (execSyl c h (.bcd .bfromb d a b) s)
/-- BTOB, R317: BTOB converts packed decimal to binary. -/
def execBtob (c : Fin 5) (h : Hdr) (d a b : BitVec 5) (s : State) : Host.Outcome State Fault Refusal :=
  .next (execSyl c h (.bcd .btob d a b) s)
/-- PAND, R293: PAND writes the AND of two predicates. -/
def execPand (c : Fin 5) (h : Hdr) (d a b : BitVec 5) (s : State) : Host.Outcome State Fault Refusal :=
  .next (execSyl c h (.pred .pand d a b) s)
/-- POR, R293: POR writes the OR of two predicates. -/
def execPor (c : Fin 5) (h : Hdr) (d a b : BitVec 5) (s : State) : Host.Outcome State Fault Refusal :=
  .next (execSyl c h (.pred .por d a b) s)
/-- PXOR, R293: PXOR writes the exclusive OR of two predicates. -/
def execPxor (c : Fin 5) (h : Hdr) (d a b : BitVec 5) (s : State) : Host.Outcome State Fault Refusal :=
  .next (execSyl c h (.pred .pxor d a b) s)
/-- PANDN, R293: PANDN writes p[A] AND NOT p[B]. -/
def execPandn (c : Fin 5) (h : Hdr) (d a b : BitVec 5) (s : State) : Host.Outcome State Fault Refusal :=
  .next (execSyl c h (.pred .pandn d a b) s)
/-- PNOT, R293: PNOT writes the complement of a predicate. -/
def execPnot (c : Fin 5) (h : Hdr) (d a b : BitVec 5) (s : State) : Host.Outcome State Fault Refusal :=
  .next (execSyl c h (.pred .pnot d a b) s)
/-- PMOVW, R293: PMOVW moves a register's low byte into a predicate. -/
def execPmovw (c : Fin 5) (h : Hdr) (d a b : BitVec 5) (s : State) : Host.Outcome State Fault Refusal :=
  .next (execSyl c h (.pred .pmovw d a b) s)
/-- WMOVP, R293: WMOVP moves a predicate into a register. -/
def execWmovp (c : Fin 5) (h : Hdr) (d a b : BitVec 5) (s : State) : Host.Outcome State Fault Refusal :=
  .next (execSyl c h (.pred .wmovp d a b) s)

end Sys2Proof.Machine
end

