-- ==== Sys2Proof/Machine/MemCmd.lean ====
section
/-!
DEFINITION. Sys2Proof/Machine/MemCmd.lean: Essan loads, stores and capability syllables (R286 to R290, R295, R296, R380 to R382,
R393).
-/
namespace Sys2Proof.Machine
open Sys2Proof

/-- LLD, R288: A local integer load reads the core's data memory through BANK. -/
def execLld (c : Fin 5) (h : Hdr) (d a : BitVec 5) (sz : BitVec 3) (off : BitVec 8) (s : State) :
    Host.Outcome State Fault Refusal :=
  .next (execSyl c h (.lld d a sz off) s)
/-- LST, R288: A local integer store writes the core's data memory through BANK. -/
def execLst (c : Fin 5) (h : Hdr) (d a : BitVec 5) (sz : BitVec 3) (off : BitVec 8) (s : State) :
    Host.Outcome State Fault Refusal :=
  .next (execSyl c h (.lst d a sz off) s)
/-- GLD, R290: A global integer load is checked through a capability, translated and issued. -/
def execGld (c : Fin 5) (h : Hdr) (d : BitVec 5) (k : BitVec 4) (a : BitVec 5) (sz : BitVec 3) (off : BitVec 4) (s : State) :
    Host.Outcome State Fault Refusal :=
  .next (execSyl c h (.gld d k a sz off) s)
/-- GST, R290: A global integer store is checked through a capability, translated and posted. -/
def execGst (c : Fin 5) (h : Hdr) (d : BitVec 5) (k : BitVec 4) (a : BitVec 5) (sz : BitVec 3) (off : BitVec 4) (s : State) :
    Host.Outcome State Fault Refusal :=
  .next (execSyl c h (.gst d k a sz off) s)
/-- LLDF, R296: A local FP or vector load reads data memory through BANK. -/
def execLldf (c : Fin 5) (h : Hdr) (d : BitVec 6) (a : BitVec 5) (sz : BitVec 2) (off : BitVec 8) (s : State) :
    Host.Outcome State Fault Refusal :=
  .next (execSyl c h (.lldf d a sz off) s)
/-- LSTF, R296: A local FP or vector store writes data memory through BANK. -/
def execLstf (c : Fin 5) (h : Hdr) (d : BitVec 6) (a : BitVec 5) (sz : BitVec 2) (off : BitVec 8) (s : State) :
    Host.Outcome State Fault Refusal :=
  .next (execSyl c h (.lstf d a sz off) s)
/-- GLDF, R296: A global FP or vector load is checked and issued. -/
def execGldf (c : Fin 5) (h : Hdr) (d : BitVec 6) (k : BitVec 4) (a : BitVec 5) (sz : BitVec 2) (off : BitVec 4) (s : State) :
    Host.Outcome State Fault Refusal :=
  .next (execSyl c h (.gldf d k a sz off) s)
/-- GSTF, R296: A global FP or vector store is checked and posted. -/
def execGstf (c : Fin 5) (h : Hdr) (d : BitVec 6) (k : BitVec 4) (a : BitVec 5) (sz : BitVec 2) (off : BitVec 4) (s : State) :
    Host.Outcome State Fault Refusal :=
  .next (execSyl c h (.gstf d k a sz off) s)
/-- GLOBAL_LOAD_RETURN, R286: The data of a pending global load arrives and is written to its destination. -/
def execGlobalLoadReturn (c : Fin 5) (j : BitVec 3) (ups : Option (BitVec 4 × BitVec 8)) (s : State) :
    Host.Outcome State Fault Refusal :=
  .next (unlessFrozen (corePg c.val) (loadReturn c.val j.toNat (ups.map fun u => (u.1.toNat, u.2.toNat))) s)
/-- KLD, R382: KLD loads a capability granule with its tag. -/
def execKld (c : Fin 5) (h : Hdr) (d a b : BitVec 5) (s : State) : Host.Outcome State Fault Refusal :=
  .next (execSyl c h (.kld d a b) s)
/-- KST, R382: KST stores a capability and its tag. -/
def execKst (c : Fin 5) (h : Hdr) (d a b : BitVec 5) (s : State) : Host.Outcome State Fault Refusal :=
  .next (execSyl c h (.kst d a b) s)
/-- KMOV, R380: KMOV copies a capability register. -/
def execKmov (c : Fin 5) (h : Hdr) (d a b : BitVec 5) (s : State) : Host.Outcome State Fault Refusal :=
  .next (execSyl c h (.cap .kmov d a b) s)
/-- KNARROW, R381: KNARROW derives a capability with narrowed bounds. -/
def execKnarrow (c : Fin 5) (h : Hdr) (d a b : BitVec 5) (s : State) : Host.Outcome State Fault Refusal :=
  .next (execSyl c h (.cap .knarrow d a b) s)
/-- KTRIM, R381: KTRIM derives a capability with fewer permissions. -/
def execKtrim (c : Fin 5) (h : Hdr) (d a b : BitVec 5) (s : State) : Host.Outcome State Fault Refusal :=
  .next (execSyl c h (.cap .ktrim d a b) s)
/-- KLOCK, R381: KLOCK seals a capability in place under a key. -/
def execKlock (c : Fin 5) (h : Hdr) (d a b : BitVec 5) (s : State) : Host.Outcome State Fault Refusal :=
  .next (execSyl c h (.cap .klock d a b) s)
/-- KOPEN, R381: KOPEN unseals a capability in place under a key. -/
def execKopen (c : Fin 5) (h : Hdr) (d a b : BitVec 5) (s : State) : Host.Outcome State Fault Refusal :=
  .next (execSyl c h (.cap .kopen d a b) s)
/-- KVOID, R380: KVOID copies a capability with its tag cleared. -/
def execKvoid (c : Fin 5) (h : Hdr) (d a b : BitVec 5) (s : State) : Host.Outcome State Fault Refusal :=
  .next (execSyl c h (.cap .kvoid d a b) s)
/-- KFIELD, R380: KFIELD reads one field of a capability into a register. -/
def execKfield (c : Fin 5) (h : Hdr) (d a b : BitVec 5) (s : State) : Host.Outcome State Fault Refusal :=
  .next (execSyl c h (.cap .kfield d a b) s)
/-- KRDS, R378: KRDS reads a special capability register. -/
def execKrds (c : Fin 5) (h : Hdr) (d a b : BitVec 5) (s : State) : Host.Outcome State Fault Refusal :=
  .next (execSyl c h (.cap .krds d a b) s)
/-- KWRS, R378: KWRS writes a special capability register. -/
def execKwrs (c : Fin 5) (h : Hdr) (d a b : BitVec 5) (s : State) : Host.Outcome State Fault Refusal :=
  .next (execSyl c h (.cap .kwrs d a b) s)
/-- LDW, R393: LDW loads 8 bytes through translation for a table walk. -/
def execLdw (c : Fin 5) (h : Hdr) (d a : BitVec 5) (s : State) : Host.Outcome State Fault Refusal :=
  .next (execSyl c h (.ldw d a) s)

end Sys2Proof.Machine
end

