-- ==== Sys2Proof/Machine/PageCmd.lean ====
section
/-!
DEFINITION. Sys2Proof/Machine/PageCmd.lean: writes of register pages and of page headers (R38 to R43, R568 to R571).
-/
namespace Sys2Proof.Machine
open Sys2Proof

/-- REGISTER_WRITE, R43: A write to a register page field that has no behaviour of its own takes the written value
under its access code, in issue order per master; the W1C bits of `set` are set by the block in the same cycle and stay
set (R40). -/
def execRegisterWrite (die : Die) (pg off : BitVec 12) (v : Word) (s : State) (set : Word := 0) :
    Host.Outcome State Fault Refusal :=
  .next (regWriteRow die pg.toNat off.toNat (sameCycle die pg.toNat off.toNat set v) s)
/-- PAGE_RST, R569: PAGE_CTRL.RST writes reset values to the writable block fields of the page, or is refused while
PAGE_LOCK is set. -/
def execPageRst (die : Die) (pg : BitVec 12) (s : State) : Host.Outcome State Fault Refusal :=
  .next (pageCtrlRow die pg.toNat (fun v => Nat.lor v 2) s)
/-- PAGE_LOCK_SET, R39: Writing PAGE_LOCK.LOCK makes the page's RWL fields read only and refuses RST until a reset
of the die clears it. -/
def execPageLockSet (die : Die) (pg : BitVec 12) (s : State) : Host.Outcome State Fault Refusal :=
  .next (regWriteRow die pg.toNat 0x1C 1 s)
/-- PAGE_FREEZE, R38: Writing PAGE_CTRL.FREEZE makes the block hold all internal state at its next clock edge, with
events held pending. -/
def execPageFreeze (die : Die) (pg : BitVec 12) (on : Bool) (s : State) : Host.Outcome State Fault Refusal :=
  .next (pageCtrlRow die pg.toNat (fun v => natBitSet v 2 on) s)
/-- EV_PEND_CLEAR, R40: A W1C write to EV_PEND clears pending bits, except a bit of `set`, which the block sets in the
same cycle. -/
def execEvPendClear (die : Die) (pg : BitVec 12) (v : Word) (s : State) (set : Word := 0) :
    Host.Outcome State Fault Refusal :=
  .next (regWriteRow die pg.toNat 0x10 (sameCycle die pg.toNat 0x10 set v) s)
/-- EV_EN_WRITE, R568: Writing EV_EN starts an episode for a bit already pending and posts its record at once. -/
def execEvEnWrite (die : Die) (pg : BitVec 12) (v : Word) (s : State) : Host.Outcome State Fault Refusal :=
  .next (regWriteRow die pg.toNat 0x14 v s)

end Sys2Proof.Machine
end

