-- ==== Sys2Proof/Machine/PanCmd.lean ====
section
/-!
DEFINITION. Sys2Proof/Machine/PanCmd.lean: orders, rings and patches of the Pan engine (R132 to R165, R205, R206).
-/
namespace Sys2Proof.Machine
open Sys2Proof

/-- PANQ, R144: PANQ reads a descriptor through a capability, queues it as a background order and writes a ticket. -/
def execPanq (c : Fin 5) (h : Hdr) (d : BitVec 5) (k : BitVec 4) (a : BitVec 5) (s : State) :
    Host.Outcome State Fault Refusal :=
  .next (execSyl c h (.panq d k a) s)
/-- LAUNCHED_ORDER_ISSUE, R142: The list reader reads a launched order's descriptor and places it in its pan or
chain queue as entries free. -/
def execLaunchedOrderIssue (s : State) : Host.Outcome State Fault Refusal := .next (unlessFrozen 0x120 (orderIssue) s)
/-- LAUNCHED_ORDER_START, R143: A launched order starts on its pans when they are free, chained orders first. -/
def execLaunchedOrderStart (p : Fin 4) (s : State) : Host.Outcome State Fault Refusal :=
  .next (unlessFrozen (panPg p.val) (orderStart p.val) s)
/-- BG_ORDER_START, R146: A pan starts a background order when RUN is 1 and it is free of launched work. -/
def execBgOrderStart (p : Fin 4) (s : State) : Host.Outcome State Fault Refusal :=
  .next (unlessFrozen (panPg p.val) (bgStart p.val) s)
/-- STRIP_COMMIT, R148: A strip's reads and computation complete and its D writes are performed, advancing the
committed count. -/
def execStripCommit (p : Fin 4) (f : StripFault) (s : State) : Host.Outcome State Fault Refusal :=
  .next (unlessFrozen (panPg p.val) (stripRun p.val f) s)
/-- BG_RESUME, R159: PANp_BGCMD RESUME reruns the held order from its committed count. -/
def execBgResume (p : Fin 4) (core : Fin 5) (s : State) : Host.Outcome State Fault Refusal :=
  .next (bgResume p.val core.val s)
/-- SKIP, R159: PANp_BGCMD SKIP completes the held order as SKIPPED and clears HALT. -/
def execSkip (p : Fin 4) (s : State) : Host.Outcome State Fault Refusal := .next (bgSkip p.val s)
/-- FLUSH, R159: PANp_BGCMD FLUSH skips the held order and flushes every queued background order. -/
def execFlush (p : Fin 4) (s : State) : Host.Outcome State Fault Refusal := .next (bgFlush p.val s)
/-- RING_CONFIG_WRITE, R165: A write of PAN_CRBASEc or PAN_CRCFGc is accepted only while the ring holds no unread or
reserved record. -/
def execRingConfigWrite (n : Fin 4) (cfg : Bool) (v : Word) (s : State) : Host.Outcome State Fault Refusal :=
  .next (ringConfigWrite n.val cfg v s)
/-- PAN_ENABLE_WRITE, R164: Clearing PAGE_CTRL.EN of page 0x120 stops the Pan engine, or is refused while contexts
are admitted. -/
def execPanEnableWrite (on : Bool) (s : State) : Host.Outcome State Fault Refusal := .next (pageEnWrite 0x120 on s)
/-- PATCHEN_SET, R206: Setting PCS_CTRL.PATCHEN stops pans from starting orders, or is refused while contexts are
admitted. -/
def execPatchenSet (s : State) : Host.Outcome State Fault Refusal := .next (patchSet s)
/-- QUIET, R206: QUIET sets once every pan has become free in patch mode. -/
def execQuiet (s : State) : Host.Outcome State Fault Refusal := .next (unlessFrozen 0x128 (patchQuiet) s)
/-- PATCHEN_CLEAR, R206: Clearing PATCHEN applies PATCHID, clears TT_VALID, sets OVL_VALID and posts PATCH_DONE. -/
def execPatchenClear (s : State) : Host.Outcome State Fault Refusal := .next (patchClear s)
/-- PATCH_WORD_WRITE, R205: A write of PCS_PDATA3 stores an overlay word in all four pans, or is refused outside
quiet patch mode. -/
def execPatchWordWrite (j : Fin 4) (v : Word) (s : State) : Host.Outcome State Fault Refusal :=
  .next (patchWordWrite j.val v s)
/-- DISPATCH_ENTRY_WRITE, R205: A write of PCS_DDATA1 stores a dispatch entry, or is refused. -/
def execDispatchEntryWrite (v : Word) (s : State) : Host.Outcome State Fault Refusal := .next (dispatchWrite1 v s)
/-- PATCHID_WRITE, R205: A write of PCS_PATCHID is refused outside quiet patch mode. -/
def execPatchidWrite (v : Word) (s : State) : Host.Outcome State Fault Refusal := .next (patchIdWrite v s)
/-- PCS_CECLR, R201: PCS_CTRL.CECLR clears the control-store counters and re-arms CS_CE. -/
def execPcsCeclr (s : State) : Host.Outcome State Fault Refusal := .next (pcsCeClr s)

end Sys2Proof.Machine
end

