-- ==== Sys2Proof/Machine/PanelCmd.lean ====
section
/-!
DEFINITION. Sys2Proof/Machine/PanelCmd.lean: the service panel (R543 to R551).
-/
namespace Sys2Proof.Machine
open Sys2Proof

/-- BTN_DOWN, R544: The debounced service button pressed posts BTN_DOWN. -/
def execBtnDown (s : State) : Host.Outcome State Fault Refusal := .next (unlessFrozen pnPg (btnDown) s)
/-- BTN_HOLD, R544: The button held for PN_HOLD ms posts BTN_HOLD. -/
def execBtnHold (s : State) : Host.Outcome State Fault Refusal := .next (unlessFrozen pnPg (btnHold) s)
/-- BTN_UP, R544: The debounced button released posts BTN_UP with the duration. -/
def execBtnUp (ms : Word) (s : State) : Host.Outcome State Fault Refusal :=
  .next (unlessFrozen pnPg (btnUp ms.toNat) s)
/-- LATCH_OPEN, R544: A latch debounced open posts LATCH_OPEN. -/
def execLatchOpen (n : Fin 4) (s : State) : Host.Outcome State Fault Refusal :=
  .next (unlessFrozen pnPg (latchOpen n.val) s)
/-- LATCH_CLOSE, R544: A latch debounced closed posts LATCH_CLOSE. -/
def execLatchClose (n : Fin 4) (s : State) : Host.Outcome State Fault Refusal :=
  .next (unlessFrozen pnPg (latchClose n.val) s)
/-- TOUCH, R545: An electrode counted touched for 3 scans posts TOUCH. -/
def execTouch (e : Fin 2) (ms : Word) (base count : BitVec 16) (s : State) : Host.Outcome State Fault Refusal :=
  .next (unlessFrozen pnPg (touch e.val ms.toNat base.toNat count.toNat) s)
/-- USB_ATTACH, R549: A debounced VBUS rise posts USB_ATTACH. -/
def execUsbAttach (s : State) : Host.Outcome State Fault Refusal := .next (unlessFrozen pnPg (usbAttach) s)
/-- USB_DETACH, R549: A debounced VBUS fall posts USB_DETACH. -/
def execUsbDetach (s : State) : Host.Outcome State Fault Refusal := .next (unlessFrozen pnPg (usbDetach) s)
/-- LAMPTEST, R548: PN_CTRL.LAMPTEST lights all LEDs for 2 s. -/
def execLamptest (s : State) : Host.Outcome State Fault Refusal := .next (lampTest s)
/-- LAMPTEST_END, R548: After 2 s the lamp test ends and LED modes are restored. -/
def execLamptestEnd (s : State) : Host.Outcome State Fault Refusal := .next (unlessFrozen pnPg (lampTestEnd) s)
/-- TOUCH_RELEASE, R545: An electrode counted below threshold for 3 scans is released, its PN_STAT bit clears and
its baseline resumes tracking. -/
def execTouchRelease (e : Fin 2) (base count : BitVec 16) (s : State) : Host.Outcome State Fault Refusal :=
  .next (unlessFrozen pnPg (touchRelease e.val base.toNat count.toNat) s)

end Sys2Proof.Machine
end

