-- ==== Sys2Proof/Machine/PowerCmd.lean ====
section
/-!
DEFINITION. Sys2Proof/Machine/PowerCmd.lean: supplies, temperature, clocks, power modes and resets (R446, R506 to R524).
-/
namespace Sys2Proof.Machine
open Sys2Proof

/-- BROWNOUT_START, R510: VDDF below warning for 20 ns stops MRAM writes and command application, with an optional
Rake hold. -/
def execBrownoutStart (s : State) : Host.Outcome State Fault Refusal := .next (brownoutStart s)
/-- BROWN_WARN, R510: VDDF recovered for 1 µs posts BROWN_WARN with the dip's minimum and duration. -/
def execBrownWarn (mv : BitVec 16) (ns : Word) (s : State) : Host.Outcome State Fault Refusal :=
  .next (brownWarn mv.toNat ns.toNat s)
/-- H_DIP_START, R511: VDDH below warning stops queue-engine fetches and writes and sends DIP_ON. -/
def execHDipStart (s : State) : Host.Outcome State Fault Refusal := .next (hDipStart s)
/-- H_DIP_RECOVER, R511: VDDH recovery sends DIP_OFF and posts BROWN_WARN on page 0x90. -/
def execHDipRecover (mv : BitVec 16) (ns : Word) (s : State) : Host.Outcome State Fault Refusal :=
  .next (hDipRecover mv.toNat ns.toNat s)
/-- TEMP_HIGH, R513: A junction reading above the limit posts TEMP_HIGH. -/
def execTempHigh (hDie : Bool) (t : BitVec 16) (s : State) : Host.Outcome State Fault Refusal :=
  .next (tempHigh hDie t.toNat s)
/-- REF_LOST, R513: No reference edge for 1 µs posts REF_LOST and holds the PLLs. -/
def execRefLost (s : State) : Host.Outcome State Fault Refusal := .next (refLost s)
/-- REF_OK, R513: The reference returning posts REF_OK. -/
def execRefOk (s : State) : Host.Outcome State Fault Refusal := .next (refOk s)
/-- PWR_HALT, R517: PWR_MODE HALT quiesces the F-die and gates CCLK, or is refused. -/
def execPwrHalt (s : State) : Host.Outcome State Fault Refusal := .next (pwrEnter .halt s)
/-- PWR_SLEEP, R517: PWR_MODE SLEEP quiesces the F-die and stops its PLLs, or is refused. -/
def execPwrSleep (s : State) : Host.Outcome State Fault Refusal := .next (pwrEnter .sleep s)
/-- F_SLEEP, R517: A SLEEP link cell makes the H side stop its Sluice transmitters and post F_SLEEP. -/
def execFSleep (s : State) : Host.Outcome State Fault Refusal := .next (fSleep s)
/-- WAKE, R517: A wake channel arrival or Sluice signal detect returns the F-die to RUN and posts WAKE. -/
def execWake (s : State) : Host.Outcome State Fault Refusal := .next (wake s)
/-- WAKEF, R517: HP_CTRL.WAKEF restarts the H side transmitters to wake the F-die. -/
def execWakef (s : State) : Host.Outcome State Fault Refusal := .next (wakeF s)
/-- COLD_BOOT_F, R522: F-die rails rising or falling below reset run the cold reset and boot timeline. -/
def execColdBootF (below emLow : Bool) (s : State) : Host.Outcome State Fault Refusal :=
  .next (coldBootF below emLow s)
/-- COLD_BOOT_H, R522: H-die rails rising or falling below reset cold-reset the H-die and start S0. -/
def execColdBootH (below : Bool) (s : State) : Host.Outcome State Fault Refusal := .next (coldBootH below s)
/-- F_WARM_RESET, R519: RSTF_N, RST_CTRL.WARM or LOGIC_MISMATCH resets the F-die compute section and holds frames. -/
def execFWarmReset (cause : WarmF) (s : State) (cuts : List (Fin 4 × BitVec 11) := []) :
    Host.Outcome State Fault Refusal :=
  .next (fWarmReset (warmCodeF cause) (cuts.map fun e => (e.1.val, e.2.toNat)) s)
/-- WARM_DONE, R523: The compute section is released, the boot ROM takes its warm path and WARM_DONE is posted. -/
def execWarmDone (s : State) : Host.Outcome State Fault Refusal := .next (warmDone s)
/-- H_WARM_RESET, R521: RSTH_N, PERST_N, S0 lockstep or HP_CTRL.WARM resets the H-die and starts the resync. -/
def execHWarmReset (cause : WarmH) (s : State) : Host.Outcome State Fault Refusal :=
  .next (hWarmReset (warmCodeH cause) s)
/-- RESYNC_DONE, R446: The resync ends, RESYNC clears and fetching resumes. -/
def execResyncDone (s : State) : Host.Outcome State Fault Refusal := .next (unlessFrozen qePg (resyncDone) s)
/-- PCIE_HOT_RESET, R518: A PCIe hot reset or link-down resets only the endpoint configuration and link. -/
def execPcieHotReset (s : State) : Host.Outcome State Fault Refusal := .next (pcieHotReset s)
/-- FRAMEGO, R520: RST_CTRL.FRAMEGO ends the frame hold from the next 540 ns point. -/
def execFramego (s : State) : Host.Outcome State Fault Refusal := .next (frameGo s)
/-- CORERUN_WRITE, R522: A write of RST_CTRL.CORERUN releases or holds cores E1 to E3 in reset. -/
def execCorerunWrite (mask : BitVec 4) (s : State) : Host.Outcome State Fault Refusal :=
  .next (coreRunWrite mask.toNat s)
/-- PLL_UNLOCK, R524: FPLL or LPLL loses lock, clears its CK_STAT bit and posts PLL_UNLOCK. -/
def execPllUnlock (lpll : Bool) (s : State) : Host.Outcome State Fault Refusal := .next (pllUnlock lpll s)
/-- TEMP_HIGH_END, R513: The junction reading falls 5 °C below the limit, so the TEMP_HIGH state ends and the
guarantees of R27 return. -/
def execTempHighEnd (hDie : Bool) (t : BitVec 16) (s : State) : Host.Outcome State Fault Refusal :=
  .next (tempHighEnd hDie t.toNat s)

end Sys2Proof.Machine
end

