-- ==== Sys2Proof/Machine/QueueCmd.lean ====
section
/-!
DEFINITION. Sys2Proof/Machine/QueueCmd.lean: host queues, the Tally journal and the PCIe function (R419 to R452).
-/
namespace Sys2Proof.Machine
open Sys2Proof

/-- DOORBELL_WRITE, R427: An 8-byte doorbell write moves SQTAIL, CQHEAD and ARM of a queue after validity checks; a read of
BAR2 returns zero (R37). -/
def execDoorbellWrite (w : Doorbell) (s : State) : Host.Outcome State Fault Refusal := .next (doorbellRow w s)
/-- CREATE_CMD, R424: QE_QOP CREATE_CMD makes a command queue ACTIVE from LASTSEQ and the journal. -/
def execCreateCmd (s : State) : Host.Outcome State Fault Refusal := .next (qopCreateCmd s)
/-- CREATE_EVT, R424: QE_QOP CREATE_EVT makes an event queue ACTIVE. -/
def execCreateEvt (s : State) : Host.Outcome State Fault Refusal := .next (qopCreateEvt s)
/-- DELETE, R424: QE_QOP DELETE makes a drained queue ABSENT. -/
def execDelete (s : State) : Host.Outcome State Fault Refusal := .next (qopDelete s)
/-- QOP_READ, R424: QE_QOP READ shows the selected queue's configuration. -/
def execQopRead (s : State) : Host.Outcome State Fault Refusal := .next (qopRead s)
/-- QOP_DONE, R424: A queue operation completes and posts QOP_DONE with QE_QRES. -/
def execQopDone (s : State) : Host.Outcome State Fault Refusal := .next (unlessFrozen qePg (qopDone) s)
/-- ENTRY_FETCH, R436: A fetched SQ entry is classified as new, duplicate, malformed or a sequence gap. -/
def execEntryFetch (q : BitVec 16) (entry : List Byte) (s : State) : Host.Outcome State Fault Refusal :=
  .next (entryFetch q.toNat entry s)
/-- FETCH_ERR, R422: A failed host-memory read completion puts the queue into ERROR with FETCH_ERR. -/
def execFetchErr (q : BitVec 16) (s : State) : Host.Outcome State Fault Refusal :=
  .next (unlessFrozen qePg (fetchErr q.toNat) s)
/-- COMMAND_SEND, R437: A FETCHED command not held under R98 is handed to the Sluice as SENT. -/
def execCommandSend (q : BitVec 16) (s : State) : Host.Outcome State Fault Refusal :=
  .next (unlessFrozen qePg (commandSend q.toNat) s)
/-- JOURNAL_COMMIT, R440: The F-die writes an arriving command to the lowest free journal entry and sends the
acknowledgement. -/
def execJournalCommit (s : State) : Host.Outcome State Fault Refusal := .next (unlessFrozen slPg (journalCommit) s)
/-- JOURNAL_ACK_RECEIVE, R437: The journal acknowledgement makes the command COMMITTED, posts ACCEPT and sends the
notice. -/
def execJournalAckReceive (s : State) : Host.Outcome State Fault Refusal := .next (unlessFrozen qePg (ackReceive) s)
/-- ACCEPT_NOTICE_RECEIVE, R96: The acceptance notice arrives on the F-die and makes the command eligible for
application. -/
def execAcceptNoticeReceive (s : State) : Host.Outcome State Fault Refusal :=
  .next (unlessFrozen slPg (noticeReceive) s)
/-- COMPLETION_RECEIVE, R431: An outcome message from the F-die posts the COMPLETE record to the CQ. -/
def execCompletionReceive (s : State) : Host.Outcome State Fault Refusal :=
  .next (unlessFrozen qePg (completionReceive) s)
/-- JOURNAL_RELEASE, R440: A release message rewrites the journal entry RELEASED. -/
def execJournalRelease (s : State) : Host.Outcome State Fault Refusal := .next (unlessFrozen slPg (journalRelease) s)
/-- EVENT_RECORD_ROUTE, R433: An event record is written to its event queue, or dropped and counted. -/
def execEventRecordRoute (s : State) : Host.Outcome State Fault Refusal := .next (unlessFrozen qePg (eventRoute) s)
/-- REPLAY, R449: TJ_CTRL.REPLAY reads the journal after cold power-up and expires or holds each entry. -/
def execReplay (s : State) : Host.Outcome State Fault Refusal := .next (replay s)
/-- REPLAY_DONE, R449: The replay completes and REPLAY_DONE is posted. -/
def execReplayDone (s : State) : Host.Outcome State Fault Refusal := .next (unlessFrozen slPg (replayDone) s)
/-- TJ_RELEASE, R449: TJ_CTRL.RELEASE ends the replay hold, making held entries accepted and noticed. -/
def execTjRelease (s : State) : Host.Outcome State Fault Refusal := .next (tjRelease s)
/-- JOURNAL_WRITE_COMPLETE, R441: An MRAM journal write ends: a commit write completes and lets the acknowledgement
leave, or a settle mark completes and ends MARK_HOLD. -/
def execJournalWriteComplete (e : BitVec 14) (s : State) : Host.Outcome State Fault Refusal :=
  .next (unlessFrozen slPg (journalWriteComplete e.toNat) s)
/-- PCIE_LINK_UP, R419: The PCIe link trains or retrains to a width and speed, updating PX_LSTAT and posting
SPEED_CHANGE when the speed changes. -/
def execPcieLinkUp (width : BitVec 6) (speed : BitVec 4) (s : State) : Host.Outcome State Fault Refusal :=
  .next (unlessFrozen pxPg (linkUp width.toNat speed.toNat) s)
/-- PCIE_D3HOT, R419: A host configuration write moves the function between D0 and D3hot, and in D3hot the queue
engine stops fetching and writing records. -/
def execPcieD3hot (on : Bool) (s : State) : Host.Outcome State Fault Refusal := .next (d3hot on s)

end Sys2Proof.Machine
end

