-- ==== Sys2Proof/Machine/RakeCmd.lean ====
section
/-!
DEFINITION. Sys2Proof/Machine/RakeCmd.lean: the Rake reflex unit (R256 to R274).
-/
namespace Sys2Proof.Machine
open Sys2Proof

/-- RAKE_ENABLE_WRITE, R264: A change of PAGE_CTRL.EN of page 0x100 takes effect at the next tick boundary, or is
refused. -/
def execRakeEnableWrite (on : Bool) (s : State) : Host.Outcome State Fault Refusal := .next (pageEnWrite 0x100 on s)
/-- EMSTOP_FALL, R269: EMSTOP_N low for 32 ns latches the emergency, zeroes every later phase block and posts EMERG. -/
def execEmstopFall (s : State) : Host.Outcome State Fault Refusal := .next (emFall s)
/-- ECLR, R270: RK_CTRL.ECLR ends the emergency while the pin is high and posts EMERG_CLR, else is refused. -/
def execEclr (s : State) : Host.Outcome State Fault Refusal := .next (rkEclr s)
/-- UNLATCH, R262: RK_CTRL.UNLATCH clears the latch masks of phase RK_PSEL from the next boundary. -/
def execUnlatch (s : State) : Host.Outcome State Fault Refusal := .next (rkUnlatchReq (s.fld fRK_PSEL) s)
/-- UNLATCH_ALL, R262: RK_CTRL.UNLATCH_ALL clears every latch mask from the next boundary. -/
def execUnlatchAll (s : State) : Host.Outcome State Fault Refusal := .next (rkUnlatchReq 512 s)
/-- MAXCLR, R268: RK_CTRL.MAXCLR clears RK_MAXLAT and ends LATE holds. -/
def execMaxclr (s : State) : Host.Outcome State Fault Refusal := .next (rkMaxClr s)
/-- SWAP, R271: RK_CTRL.SWAP requests a bank swap and sets SWAPPEND, or is refused while one is pending. -/
def execSwap (s : State) : Host.Outcome State Fault Refusal := .next (rkSwapReq s)
/-- SWAPPED, R271: At the first tick boundary 64 ns after the request the banks swap and SWAPPED is posted. -/
def execSwapped (s : State) : Host.Outcome State Fault Refusal := .next (unlessFrozen rkPg (rkSwapped) s)
/-- RULE_ENTRY_WRITE, R271: A write of RK_WDATA3 stores the staged entry in the SHADOW bank, flagging BADRULE if
malformed. -/
def execRuleEntryWrite (j : Fin 4) (v : Word) (s : State) : Host.Outcome State Fault Refusal :=
  .next (rkWdataWrite j.val v s)
/-- RK_TEST_GO, R273: RK_TCTRL.GO judges the test frame against a bank without changing state. -/
def execRkTestGo (s : State) : Host.Outcome State Fault Refusal := .next (rkTestGo s)
/-- TEST_DONE, R273: The Rake self-test completes within 200 ns, fills RK_TOVR and posts TEST_DONE. -/
def execTestDone (s : State) : Host.Outcome State Fault Refusal := .next (unlessFrozen 0x101 (rkTestDone) s)
/-- EMSTOP_RISE, R270: EMSTOP_N returns high, which clears RK_STAT.EMPIN and makes ECLR acceptable. -/
def execEmstopRise (s : State) : Host.Outcome State Fault Refusal := .next (emRise s)

end Sys2Proof.Machine
end

