-- ==== Sys2Proof/Machine/SalternCmd.lean ====
section
/-!
DEFINITION. Sys2Proof/Machine/SalternCmd.lean: the Saltern's reads, writes, remap and fill (R103 to R131).
-/
namespace Sys2Proof.Machine
open Sys2Proof

/-- SALTERN_READ_REQUEST, R112: A word read at a bank is checked and corrected per byte, or reported uncorrectable. -/
def execSalternReadRequest (port : Fin 83) (a : BitVec 25) (len : BitVec 7) (back : List (Fin 83)) (s : State)
    (ups : List (BitVec 25 × Fin 13) := []) (tags : List (BitVec 15) := []) : Host.Outcome State Fault Refusal :=
  .next (salReadReq port.val a.toNat len.toNat (back.map fun p => p.val) (ups.map fun u => (u.1.toNat, upsetLoc u.2.val))
    (tags.map fun g => g.toNat) s)
/-- SALTERN_WRITE_REQUEST, R110: A word write with byte enables is performed atomically and clears the granule's tag
unless it is a capability store. -/
def execSalternWriteRequest (port : Fin 83) (a : BitVec 25) (bytes : List (Option Byte)) (cap : Bool) (s : State)
    (back : List (Fin 83) := []) : Host.Outcome State Fault Refusal :=
  .next (salWriteReq port.val a.toNat bytes cap (back.map fun p => p.val) s)
/-- RMAP_SET, R116: Writing SAL_RMAPi with VALID = 1 copies the word to a spare and sets the entry. -/
def execRmapSet (j : Fin 16) (w : BitVec 22) (s : State) : Host.Outcome State Fault Refusal :=
  .next (rmapSet j.val w.toNat s)
/-- RMAP_CLEAR, R116: Writing SAL_RMAPi with VALID = 0 copies the spare back and clears the entry. -/
def execRmapClear (j : Fin 16) (w : BitVec 22) (s : State) : Host.Outcome State Fault Refusal :=
  .next (rmapClear j.val w.toNat s)
/-- RMAP_DONE, R116: A remap copy completes and RMAP_DONE is posted. -/
def execRmapDone (s : State) : Host.Outcome State Fault Refusal := .next (unlessFrozen 0x130 (rmapDone) s)
/-- FILL, R130: SAL_CTRL.FILL starts the fill engine, or is refused while a context is admitted or a fill runs. -/
def execFill (s : State) : Host.Outcome State Fault Refusal := .next (fillStart s)
/-- FILL_DONE, R130: The fill engine completes its range and posts FILL_DONE. -/
def execFillDone (s : State) : Host.Outcome State Fault Refusal := .next (unlessFrozen 0x130 (fillDone) s)
/-- CECLR, R131: SAL_CTRL.CECLR clears the selected bank's correctable-error counter and re-arms CE_THRESH. -/
def execCeclr (s : State) : Host.Outcome State Fault Refusal := .next (ceClr s)

end Sys2Proof.Machine
end

