-- ==== Sys2Proof/Machine/SecCmd.lean ====
section
/-!
DEFINITION. Sys2Proof/Machine/SecCmd.lean: keys, lifecycle, entropy and attestation (R532, R535, R536, R539 to R541).
-/
namespace Sys2Proof.Machine
open Sys2Proof

/-- REVOKE, R535: SEC_CTRL.REVOKE programs an image key slot's revoked bit, or is refused. -/
def execRevoke (arg : BitVec 8) (s : State) : Host.Outcome State Fault Refusal := .next (revoke arg.toNat s)
/-- DREVOKE, R535: SEC_CTRL.DREVOKE programs a debug key's revoked bit. -/
def execDrevoke (arg : BitVec 8) (s : State) : Host.Outcome State Fault Refusal := .next (drevoke arg.toNat s)
/-- SVNBUMP, R535: SEC_CTRL.SVNBUMP raises SVNMIN to the running image's SVN. -/
def execSvnbump (s : State) : Host.Outcome State Fault Refusal := .next (svnBump s)
/-- LCADV, R536: SEC_CTRL.LCADV advances the lifecycle for the next cold boot, or is refused. -/
def execLcadv (arg : BitVec 8) (s : State) : Host.Outcome State Fault Refusal := .next (lcAdv arg.toNat s)
/-- OTP_DONE, R535: An OTP program completes and OTP_DONE is posted. -/
def execOtpDone (s : State) : Host.Outcome State Fault Refusal := .next (unlessFrozen secPg (otpDone) s)
/-- REIMAGE_WRITE, R532: Writing SEC_CTRL.REIMAGE selects the cold path at the next warm reset, or is refused. -/
def execReimageWrite (on : Bool) (s : State) : Host.Outcome State Fault Refusal := .next (reimageWrite on s)
/-- RNGRST, R541: SEC_CTRL.RNGRST restarts the entropy source. -/
def execRngrst (s : State) : Host.Outcome State Fault Refusal := .next (rngRestart s)
/-- SEC_RNG_READ, R541: A read of SEC_RNG returns fresh entropy or 0 with UNDERRUN. -/
def execSecRngRead (master : BitVec 8) (s : State) : Host.Outcome State Fault Refusal :=
  .next (rngReadRow master.toNat s)
/-- RNG_FAIL, R541: A health-test failure stops entropy output and posts RNG_FAIL. -/
def execRngFail (s : State) : Host.Outcome State Fault Refusal := .next (unlessFrozen secPg (rngFail) s)
/-- ATTEST, R539: Command 0xF0 ATTEST requests a signed attestation report. -/
def execAttest (cseq : Word) (q : BitVec 16) (nonce : List Byte) (s : State) : Host.Outcome State Fault Refusal :=
  .next (unlessFrozen secPg (attest false cseq.toNat q.toNat nonce) s)
/-- IDENTITY, R539: Command 0xF1 IDENTITY requests the device identity answer. -/
def execIdentity (cseq : Word) (q : BitVec 16) (s : State) : Host.Outcome State Fault Refusal :=
  .next (unlessFrozen secPg (attest true cseq.toNat q.toNat []) s)
/-- ATTESTATION_ANSWER, R540: The security block posts the answer as consecutive event records. -/
def execAttestationAnswer (s : State) : Host.Outcome State Fault Refusal :=
  .next (unlessFrozen secPg (attestAnswer) s)
/-- RNG_START_UP_PASSED, R541: After RNGRST the entropy source passes its start-up tests on 1,024 samples and
delivers output again. -/
def execRngStartUpPassed (s : State) : Host.Outcome State Fault Refusal := .next (unlessFrozen secPg (rngPassed) s)

end Sys2Proof.Machine
end

