-- ==== Sys2Proof/Machine/SluiceCmd.lean ====
section
/-!
DEFINITION. Sys2Proof/Machine/SluiceCmd.lean: the Sluice and the messages that cross it (R453 to R472).
-/
namespace Sys2Proof.Machine
open Sys2Proof

/-- SLUICE_SIGNAL_DETECT, R455: Signal detect in both directions moves a pair from DOWN to LOCK. -/
def execSluiceSignalDetect (p : PairId) (s : State) : Host.Outcome State Fault Refusal :=
  .next (unlessFrozen (pairPg p) (pairSignalRow p) s)
/-- SLUICE_PAIR_LOCK, R455: 256 good symbols on both lanes move a pair to LAT. -/
def execSluicePairLock (p : PairId) (s : State) : Host.Outcome State Fault Refusal :=
  .next (unlessFrozen (pairPg p) (pairLockRow p) s)
/-- PAIR_UP, R455: A latency measurement within 40 ns makes a pair UP, or returns it to DOWN. -/
def execPairUp (p : PairId) (rtF rtH : BitVec 12) (s : State) : Host.Outcome State Fault Refusal :=
  .next (unlessFrozen (pairPg p) (pairUpRow p rtF.toNat rtH.toNat) s)
/-- PAIR_DOWN, R455: Signal loss, code violations or CRC errors drop an UP pair to DOWN. -/
def execPairDown (p : PairId) (s : State) : Host.Outcome State Fault Refusal :=
  .next (unlessFrozen (pairPg p) (pairDownRow p) s)
/-- SLUICE_PAIR_RELOCK, R455: A DOWN pair re-enters LOCK 10 µs after it fell. -/
def execSluicePairRelock (p : PairId) (s : State) : Host.Outcome State Fault Refusal :=
  .next (unlessFrozen (pairPg p) (pairRelockRow p) s)
/-- SLUICE_CELL_RECEIVE, R459: A received cell is checked, delivered in SEQ order or held, and acknowledged. `ctl`
says that its CTL value is not reserved, `good` that its CRC is right and that it has no code violation. -/
def execSluiceCellReceive (dir : Bool) (p : Fin 4) (data : Bool) (ack : Option (Fin 8)) (ctl good : Bool) (s : State) :
    Host.Outcome State Fault Refusal :=
  .next (unlessFrozen slPg (cellRow (b2n dir) p.val data (ack.map fun c => c.val) (ctl && good)) s)
/-- SLUICE_RETRANSMIT, R460: A cell unacknowledged for 4 µs is sent again with every later cell of its class. -/
def execSluiceRetransmit (dir : Bool) (cls : Fin 8) (s : State) : Host.Outcome State Fault Refusal :=
  .next (unlessFrozen slPg (retransmit (b2n dir) cls.val) s)
/-- INIT, R465: An INIT link cell discards all held cells, resets sequences and is answered with INIT_ACK. -/
def execInit (fromH : Bool) (s : State) : Host.Outcome State Fault Refusal := .next (initRow fromH s)
/-- INIT_ACK, R465: An INIT_ACK link cell completes the Sluice restart. -/
def execInitAck (toH : Bool) (s : State) : Host.Outcome State Fault Refusal := .next (initAck toH s)
/-- DIP_ON, R511: A DIP_ON link cell starts a span treated as a supply dip for class bounds. -/
def execDipOn (s : State) : Host.Outcome State Fault Refusal := .next (dipOn s)
/-- DIP_OFF, R511: A DIP_OFF link cell ends the H-die dip span. -/
def execDipOff (s : State) : Host.Outcome State Fault Refusal := .next (dipOff s)
/-- TELEMETRY_READ, R466: At each turn boundary the F side reads the telemetry window and sends a TEL message. -/
def execTelemetryRead (s : State) : Host.Outcome State Fault Refusal := .next (unlessFrozen slPg (telemetryRead) s)
/-- TEL_NEW, R466: The H side replaces its telemetry block and posts TEL_NEW. -/
def execTelNew (s : State) : Host.Outcome State Fault Refusal := .next (unlessFrozen shPg (telNew) s)
/-- HARVEST_RECORD_RECEIVE, R466: A delivered HARVEST record is written to the inbox, or discarded while HRVEN is 0. -/
def execHarvestRecordReceive (s : State) : Host.Outcome State Fault Refusal :=
  .next (unlessFrozen slPg (harvestReceive) s)
/-- TIME_MESSAGE_SEND, R468: Every 125 µs the F side sends a TIME message with FCYC, ANGLE, TICKNO and RATE. -/
def execTimeMessageSend (s : State) : Host.Outcome State Fault Refusal := .next (unlessFrozen slPg (timeSend) s)
/-- TIME_MESSAGE_RECEIVE_H, R470: The H side stamps an F-to-H time message, updates SH_ANGLE and answers with a
target. -/
def execTimeMessageReceiveH (s : State) : Host.Outcome State Fault Refusal :=
  .next (unlessFrozen shPg (timeReceiveH) s)
/-- TIME_MESSAGE_DISCARD, R464: A TIME message that cannot start within 10 µs is discarded. -/
def execTimeMessageDiscard (s : State) : Host.Outcome State Fault Refusal := .next (unlessFrozen slPg (timeDiscard) s)
/-- PAIRDIS_WRITE, R455: A write of SL_CTRL.PAIRDIS places a Sluice pair in OFF, or releases it from OFF. -/
def execPairdisWrite (v : BitVec 4) (s : State) : Host.Outcome State Fault Refusal := .next (pairDisWrite v.toNat s)

end Sys2Proof.Machine
end

