-- ==== Sys2Proof/Machine/SysCmd.lean ====
section
/-!
DEFINITION. Sys2Proof/Machine/SysCmd.lean: Essan system syllables and the commands of the TLB (R315, R316, R360, R392, R396,
R397).
-/
namespace Sys2Proof.Machine
open Sys2Proof

/-- FENCE, R287: FENCE orders all earlier memory accesses of the core before all later ones. -/
def execFence (c : Fin 5) (h : Hdr) (d a b : BitVec 5) (s : State) : Host.Outcome State Fault Refusal :=
  .next (execSyl c h (.sys .fence d a b) s)
/-- SYNC_I, R343: SYNC.I waits for earlier stores, invalidates line buffers and fetch queue, and refetches. -/
def execSyncI (c : Fin 5) (h : Hdr) (d a b : BitVec 5) (s : State) : Host.Outcome State Fault Refusal :=
  .next (execSyl c h (.sys .syncI d a b) s)
/-- RDSTAT, R315: RDSTAT reads STATUS into a register. -/
def execRdstat (c : Fin 5) (h : Hdr) (d a b : BitVec 5) (s : State) : Host.Outcome State Fault Refusal :=
  .next (execSyl c h (.sys .rdstat d a b) s)
/-- WRSTAT, R285: WRSTAT writes the RW fields of STATUS. -/
def execWrstat (c : Fin 5) (h : Hdr) (d a b : BitVec 5) (s : State) : Host.Outcome State Fault Refusal :=
  .next (execSyl c h (.sys .wrstat d a b) s)
/-- RDSYS, R315: RDSYS reads a core system register. -/
def execRdsys (c : Fin 5) (h : Hdr) (d a b : BitVec 5) (s : State) : Host.Outcome State Fault Refusal :=
  .next (execSyl c h (.sys .rdsys d a b) s)
/-- WRSYS, R285: WRSYS writes a core system register under SYS. -/
def execWrsys (c : Fin 5) (h : Hdr) (d a b : BitVec 5) (s : State) : Host.Outcome State Fault Refusal :=
  .next (execSyl c h (.sys .wrsys d a b) s)
/-- CSW, R316: CSW switches PCC at the next bundle boundary. -/
def execCsw (c : Fin 5) (h : Hdr) (d a b : BitVec 5) (s : State) : Host.Outcome State Fault Refusal :=
  .next (execSyl c h (.sys .csw d a b) s)
/-- ERET, R360: ERET rotates back, performs the replay list, restores state and returns, or DERET leaves the
double-fault slot. -/
def execEret (c : Fin 5) (h : Hdr) (d a b : BitVec 5) (s : State) : Host.Outcome State Fault Refusal :=
  .next (execSyl c h (.sys .eret d a b) s)
/-- TRAP, R315: TRAP raises the TRAP exception with a code. -/
def execTrap (c : Fin 5) (h : Hdr) (d a b : BitVec 5) (s : State) : Host.Outcome State Fault Refusal :=
  .next (execSyl c h (.sys .trap d a b) s)
/-- TLBI, R396: TLBI broadcasts a TLB invalidation to all four cores. -/
def execTlbi (c : Fin 5) (h : Hdr) (d a b : BitVec 5) (s : State) : Host.Outcome State Fault Refusal :=
  .next (execSyl c h (.sys .tlbi d a b) s)
/-- TLBI_APPLY, R396: A core applies a received invalidation between two translations within 8 CCLK. -/
def execTlbiApply (c : Fin 4) (s : State) : Host.Outcome State Fault Refusal := .next (tlbiApply c.val s)
/-- TLBSYNC, R397: TLBSYNC stalls until every core has applied the issuer's earlier TLBIs. -/
def execTlbsync (c : Fin 5) (h : Hdr) (d a b : BitVec 5) (s : State) : Host.Outcome State Fault Refusal :=
  .next (execSyl c h (.sys .tlbsync d a b) s)
/-- SETBANK, R289: SETBANK checks a capability and sets the local data window. -/
def execSetbank (c : Fin 5) (h : Hdr) (d a b : BitVec 5) (s : State) : Host.Outcome State Fault Refusal :=
  .next (execSyl c h (.sys .setbank d a b) s)
/-- GETBANK, R315: GETBANK reads BANK. -/
def execGetbank (c : Fin 5) (h : Hdr) (d a b : BitVec 5) (s : State) : Host.Outcome State Fault Refusal :=
  .next (execSyl c h (.sys .getbank d a b) s)
/-- TLB_WRITE, R392: TLBCMD WRITE loads the window into the indexed TLB entry. -/
def execTlbWrite (c : Fin 4) (s : State) : Host.Outcome State Fault Refusal := .next (tlbRow c.val 1 s)
/-- WRNEXT, R392: TLBCMD WRNEXT loads the window into entry TLBNEXT and advances it. -/
def execWrnext (c : Fin 4) (s : State) : Host.Outcome State Fault Refusal := .next (tlbRow c.val 2 s)
/-- TLB_READ, R392: TLBCMD READ copies the indexed TLB entry into the window. -/
def execTlbRead (c : Fin 4) (s : State) : Host.Outcome State Fault Refusal := .next (tlbRow c.val 3 s)
/-- TLB_PROBE, R392: TLBCMD PROBE finds the lowest matching entry or sets MISS. -/
def execTlbProbe (c : Fin 4) (s : State) : Host.Outcome State Fault Refusal := .next (tlbRow c.val 4 s)

end Sys2Proof.Machine
end

