-- ==== Sys2Proof/Machine/TimeCmd.lean ====
section
/-!
DEFINITION. Sys2Proof/Machine/TimeCmd.lean: the angle timebase and the angle compare units (R46 to R68).
-/
namespace Sys2Proof.Machine
open Sys2Proof

/-- TICK_BOUNDARY, R50: ANGLE reaching a tick boundary increments TICKNO, sets TICK_K and starts tick n with slot n
mod 4,096. -/
def execTickBoundary (s : State) : Host.Outcome State Fault Refusal := .next (tickBoundary s)
/-- FLOOR_EXIT, R58: After 16 consecutive ticks with the requested rate at or below RATE_LIMIT the timebase leaves
floor holdover. -/
def execFloorExit (s : State) : Host.Outcome State Fault Refusal := .next (unlessFrozen tbPg (floorExit) s)
/-- TB_ENABLE, R51: Setting PAGE_CTRL.EN of page 0x010 starts ANGLE from its loaded value, and only boundaries above
it are recognised. -/
def execTbEnable (s : State) : Host.Outcome State Fault Refusal := .next (pageEnWrite tbPg true s)
/-- TB_DISABLE, R68: Clearing PAGE_CTRL.EN of page 0x010 stops ANGLE, or is refused while any context is not FREE. -/
def execTbDisable (s : State) : Host.Outcome State Fault Refusal := .next (pageEnWrite tbPg false s)
/-- TB_LOAD_COPY, R68: TB_CTRL.LOAD copies TB_LOAD into ANGLE and zeroes TICKNO while the timebase is disabled. -/
def execTbLoadCopy (s : State) : Host.Outcome State Fault Refusal := .next (tbLoad s)
/-- TB_N_WRITE, R52: A write of TB_N is accepted only while every context is FREE, and takes effect at once or at
the next turn boundary. -/
def execTbNWrite (v : BitVec 21) (s : State) : Host.Outcome State Fault Refusal := .next (tbNWrite v.toNat s)
/-- N_APPLIED, R52: A pending TB_N takes effect at the next turn boundary that ANGLE reaches, and N_APPLIED is
posted. -/
def execNApplied (s : State) : Host.Outcome State Fault Refusal := .next (nApplied s)
/-- TB_TICK_MIN_WRITE, R52: A write of TB_TICK_MIN is accepted only while every context is FREE and the value is at
least 880. -/
def execTbTickMinWrite (v : BitVec 16) (s : State) : Host.Outcome State Fault Refusal :=
  .next (tbTickMinWrite v.toNat s)
/-- TB_SRC_WRITE, R59: A write of TB_CTRL.SRC changes the followed source at the next tick boundary, keeping the
integral term. -/
def execTbSrcWrite (v : BitVec 2) (s : State) : Host.Outcome State Fault Refusal := .next (tbSrcWrite v.toNat s)
/-- GSYNC_EDGE, R53: A rising edge on GSYNC latches ANGLE as the grid crossing angle. -/
def execGsyncEdge (s : State) : Host.Outcome State Fault Refusal := .next (unlessFrozen tbPg (gsyncEdge) s)
/-- GRID_SOURCE_LOST, R56: No valid crossing within 1.5 turns declares the grid source lost, switches to holdover
and posts SRC_LOST. -/
def execGridSourceLost (s : State) : Host.Outcome State Fault Refusal := .next (unlessFrozen tbPg (gridLost) s)
/-- FABRIC_TIME_MESSAGE, R472: A valid TIME answer on the F side latches ANGLE at TGT_FCYC and forms the fabric
phase error. -/
def execFabricTimeMessage (s : State) : Host.Outcome State Fault Refusal := .next (unlessFrozen tbPg (timeReceiveF) s)
/-- FABRIC_SOURCE_LOST, R54: The end of the fourth consecutive missing fabric interval declares the source lost and
posts SRC_LOST. -/
def execFabricSourceLost (s : State) : Host.Outcome State Fault Refusal := .next (unlessFrozen tbPg (fabricLost) s)
/-- LOW_HALF_READ, R61: A 32-bit read of the low half of ANGLE or TICKNO latches the high half into the master's
shadow. -/
def execLowHalfRead (master : BitVec 8) (reg : Reg64) (s : State) : Host.Outcome State Fault Refusal :=
  .next (halfRead master.toNat reg false s)
/-- HIGH_HALF_READ, R61: A 32-bit read of the high half returns and consumes the master's shadow, or the live value. -/
def execHighHalfRead (master : BitVec 8) (reg : Reg64) (s : State) : Host.Outcome State Fault Refusal :=
  .next (halfRead master.toNat reg true s)
/-- AC_CMP_WRITE, R65: A write of ACn_CMP commits on its high half and sets the match outcome of the new value. -/
def execAcCmpWrite (n : Fin 32) (part : CmpPart) (s : State) : Host.Outcome State Fault Refusal :=
  .next (acCmpRow n.val part s)
/-- AC_RELOAD_WRITE, R65: A write of ACn_RELOAD is ignored while the unit is enabled. -/
def execAcReloadWrite (n : Fin 32) (v : Dword) (s : State) : Host.Outcome State Fault Refusal :=
  .next (acReloadWrite n.val v.toNat s)
/-- AC_MATCH, R66: The count reaching or passing the compare value sets MATCH, captures ANGLE and may pulse a
channel or clear EN. -/
def execAcMatch (n : Fin 32) (s : State) : Host.Outcome State Fault Refusal := .next (acMatchRow n.val s)
/-- RATE_HOLD_WRITE, R59: A write of RATE_HOLD, with EN = 0 or RATE = 0, sets RATE and the integral term at once. -/
def execRateHoldWrite (v : BitVec 48) (s : State) : Host.Outcome State Fault Refusal :=
  .next (rateHoldWrite v.toNat s)
/-- TB_GRID_SRC_WRITE, R53: A write of TB_GRID_SRC selects the grid signal and restarts crossing timing with no
predecessor. -/
def execTbGridSrcWrite (v : Word) (s : State) : Host.Outcome State Fault Refusal := .next (gridSrcWrite v s)

end Sys2Proof.Machine
end

