-- ==== Sys2Proof/Machine/TimerCmd.lean ====
section
/-!
DEFINITION. Sys2Proof/Machine/TimerCmd.lean: general timers and event channels (R402 to R417).
-/
namespace Sys2Proof.Machine
open Sys2Proof

/-- GT_COMPARE_MATCH, R406: A timer count step reaching or passing a compare value signals a match. -/
def execGtCompareMatch (n : Fin 32) (k : BitVec 16) (s : State) : Host.Outcome State Fault Refusal :=
  .next (gtAdvance n.val k.toNat s)
/-- GT_CMP_WRITE, R405: A write of GTn_CMPk commits and sets the match outcome of the new value. -/
def execGtCmpWrite (n : Fin 32) (j : Fin 2) (v : Word) (s : State) : Host.Outcome State Fault Refusal :=
  .next (gtCmpWrite n.val j.val v s)
/-- GT_COUNT_WRITE, R403: A write of GTn_COUNT is refused while RUN is 1. -/
def execGtCountWrite (n : Fin 32) (v : Word) (s : State) : Host.Outcome State Fault Refusal :=
  .next (gtCountWrite n.val v s)
/-- GT_RELOAD_WRITE, R403: A write of GTn_RELOAD is refused while RUN is 1. -/
def execGtReloadWrite (n : Fin 32) (v : Word) (s : State) : Host.Outcome State Fault Refusal :=
  .next (gtReloadWrite n.val v s)
/-- GT_CLR, R403: GTn_CTRL.CLR sets the count to 0 at the next TCLK edge. -/
def execGtClr (n : Fin 32) (s : State) : Host.Outcome State Fault Refusal := .next (gtClr n.val s)
/-- GT_RUN_SET, R404: Setting RUN starts counting and range-tests the compare values. -/
def execGtRunSet (n : Fin 32) (s : State) : Host.Outcome State Fault Refusal := .next (gtRun n.val true s)
/-- EG_SW_PULSE, R410: Writing 1 to a bit of EGg_SW pulses that channel once. -/
def execEgSwPulse (g : Fin 16) (v : BitVec 16) (s : State) : Host.Outcome State Fault Refusal :=
  .next (egSwPulse g.val (v.setWidth 32) s)
/-- EVENT_CHANNEL_DELIVERY, R411: A channel pulse reaches every consumer it names, directly or after
resynchronisation. -/
def execEventChannelDelivery (ch : BitVec 8) (s : State) : Host.Outcome State Fault Refusal :=
  .next (unlessFrozen (egPage (ch.toNat / 16)) (deliverChannel ch.toNat) s)
/-- EV_CFG_WRITE, R415: A write of EVc_CFG takes effect from the next CCLK. -/
def execEvCfgWrite (ch : BitVec 8) (v : Word) (s : State) : Host.Outcome State Fault Refusal :=
  .next (evCfgWrite ch.toNat v s)
/-- EG_CTRL_WRITE, R414: A write of EGg_CTRL prevails over a same-cycle group action and sets ACTLOST. -/
def execEgCtrlWrite (g : Fin 16) (v : Word) (s : State) : Host.Outcome State Fault Refusal :=
  .next (egCtrlWrite g.val v s)

end Sys2Proof.Machine
end

