-- ==== Sys2Proof/Machine/VecCmd.lean ====
section
/-!
DEFINITION. Sys2Proof/Machine/VecCmd.lean: Essan vector syllables (R319 to R321).
-/
namespace Sys2Proof.Machine
open Sys2Proof

/-- QADD, R320: QADD adds vector lanes. -/
def execQadd (c : Fin 5) (h : Hdr) (ty : QTy) (d a b : BitVec 5) (s : State) : Host.Outcome State Fault Refusal :=
  .next (execSyl c h (.q ty .add d a b) s)
/-- QSUB, R320: QSUB subtracts vector lanes. -/
def execQsub (c : Fin 5) (h : Hdr) (ty : QTy) (d a b : BitVec 5) (s : State) : Host.Outcome State Fault Refusal :=
  .next (execSyl c h (.q ty .sub d a b) s)
/-- QMUL, R320: QMUL multiplies vector lanes. -/
def execQmul (c : Fin 5) (h : Hdr) (ty : QTy) (d a b : BitVec 5) (s : State) : Host.Outcome State Fault Refusal :=
  .next (execSyl c h (.q ty .mul d a b) s)
/-- QMAC, R320: QMAC multiply-accumulates vector lanes. -/
def execQmac (c : Fin 5) (h : Hdr) (ty : QTy) (d a b : BitVec 5) (s : State) : Host.Outcome State Fault Refusal :=
  .next (execSyl c h (.q ty .mac d a b) s)
/-- QMIN, R320: QMIN takes lane minima. -/
def execQmin (c : Fin 5) (h : Hdr) (ty : QTy) (d a b : BitVec 5) (s : State) : Host.Outcome State Fault Refusal :=
  .next (execSyl c h (.q ty .min d a b) s)
/-- QMAX, R320: QMAX takes lane maxima. -/
def execQmax (c : Fin 5) (h : Hdr) (ty : QTy) (d a b : BitVec 5) (s : State) : Host.Outcome State Fault Refusal :=
  .next (execSyl c h (.q ty .max d a b) s)
/-- QABS, R320: QABS takes lane absolute values. -/
def execQabs (c : Fin 5) (h : Hdr) (ty : QTy) (d a b : BitVec 5) (s : State) : Host.Outcome State Fault Refusal :=
  .next (execSyl c h (.q ty .abs d a b) s)
/-- QNEG, R320: QNEG negates lanes. -/
def execQneg (c : Fin 5) (h : Hdr) (ty : QTy) (d a b : BitVec 5) (s : State) : Host.Outcome State Fault Refusal :=
  .next (execSyl c h (.q ty .neg d a b) s)
/-- QSUM, R320: QSUM sums active lanes into lane 0. -/
def execQsum (c : Fin 5) (h : Hdr) (ty : QTy) (d a b : BitVec 5) (s : State) : Host.Outcome State Fault Refusal :=
  .next (execSyl c h (.q ty .sum d a b) s)
/-- QCMP, R320: QCMP compares lanes and writes a predicate. -/
def execQcmp (c : Fin 5) (h : Hdr) (ty : QTy) (cond : BitVec 3) (d a b : BitVec 5) (s : State) :
    Host.Outcome State Fault Refusal :=
  .next (execSyl c h (.q ty (.cmp cond) d a b) s)
/-- QAND, R320: QAND ANDs active lanes. -/
def execQand (c : Fin 5) (h : Hdr) (ty : QTy) (d a b : BitVec 5) (s : State) : Host.Outcome State Fault Refusal :=
  .next (execSyl c h (.q ty .and d a b) s)
/-- QOR, R320: QOR ORs active lanes. -/
def execQor (c : Fin 5) (h : Hdr) (ty : QTy) (d a b : BitVec 5) (s : State) : Host.Outcome State Fault Refusal :=
  .next (execSyl c h (.q ty .or d a b) s)
/-- QXOR, R320: QXOR exclusive-ORs active lanes. -/
def execQxor (c : Fin 5) (h : Hdr) (ty : QTy) (d a b : BitVec 5) (s : State) : Host.Outcome State Fault Refusal :=
  .next (execSyl c h (.q ty .xor d a b) s)
/-- QMOV, R320: QMOV copies a q register. -/
def execQmov (c : Fin 5) (h : Hdr) (d a b : BitVec 5) (s : State) : Host.Outcome State Fault Refusal :=
  .next (execSyl c h (.qmov .mov d a b) s)
/-- QSPLAT, R320: QSPLAT copies a register into every lane. -/
def execQsplat (c : Fin 5) (h : Hdr) (d a b : BitVec 5) (s : State) : Host.Outcome State Fault Refusal :=
  .next (execSyl c h (.qmov .splat d a b) s)
/-- QBCAST, R320: QBCAST copies one lane into every lane. -/
def execQbcast (c : Fin 5) (h : Hdr) (d a b : BitVec 5) (s : State) : Host.Outcome State Fault Refusal :=
  .next (execSyl c h (.qmov .bcast d a b) s)
/-- QINS, R320: QINS inserts a register into one lane. -/
def execQins (c : Fin 5) (h : Hdr) (d a b : BitVec 5) (s : State) : Host.Outcome State Fault Refusal :=
  .next (execSyl c h (.qmov .ins d a b) s)
/-- QEXT, R320: QEXT extracts one lane into a register. -/
def execQext (c : Fin 5) (h : Hdr) (d a b : BitVec 5) (s : State) : Host.Outcome State Fault Refusal :=
  .next (execSyl c h (.qmov .ext d a b) s)
/-- QSRCH, R321: QSRCH updates a running minimum or maximum search over vector lanes. -/
def execQsrch (c : Fin 5) (h : Hdr) (d : BitVec 6) (w a : BitVec 5) (ty : BitVec 2) (mx : Bool) (s : State) :
    Host.Outcome State Fault Refusal :=
  .next (execSyl c h (.qsrch d w a ty mx) s)

end Sys2Proof.Machine
end

