-- ==== Sys2Proof/Machine/Dispatch.lean ====
section
/-!
DEFINITION. Sys2Proof/Machine/Dispatch.lean: every command and its meaning.
-/
namespace Sys2Proof.Machine
open Sys2Proof

def exec (i : Instr) (s : State) : Host.Outcome State Fault Refusal :=
  match i with
  | .registerWrite die pg off v set => Sys2Proof.Machine.execRegisterWrite die pg off v s set
  | .pageRst die pg => Sys2Proof.Machine.execPageRst die pg s
  | .pageLockSet die pg => Sys2Proof.Machine.execPageLockSet die pg s
  | .pageFreeze die pg on => Sys2Proof.Machine.execPageFreeze die pg on s
  | .evPendClear die pg v set => Sys2Proof.Machine.execEvPendClear die pg v s set
  | .evEnWrite die pg v => Sys2Proof.Machine.execEvEnWrite die pg v s
  | .tickBoundary => Sys2Proof.Machine.execTickBoundary s
  | .floorExit => Sys2Proof.Machine.execFloorExit s
  | .tbEnable => Sys2Proof.Machine.execTbEnable s
  | .tbDisable => Sys2Proof.Machine.execTbDisable s
  | .tbLoadCopy => Sys2Proof.Machine.execTbLoadCopy s
  | .tbNWrite v => Sys2Proof.Machine.execTbNWrite v s
  | .nApplied => Sys2Proof.Machine.execNApplied s
  | .tbTickMinWrite v => Sys2Proof.Machine.execTbTickMinWrite v s
  | .tbSrcWrite v => Sys2Proof.Machine.execTbSrcWrite v s
  | .gsyncEdge => Sys2Proof.Machine.execGsyncEdge s
  | .gridSourceLost => Sys2Proof.Machine.execGridSourceLost s
  | .fabricTimeMessage => Sys2Proof.Machine.execFabricTimeMessage s
  | .fabricSourceLost => Sys2Proof.Machine.execFabricSourceLost s
  | .lowHalfRead master reg => Sys2Proof.Machine.execLowHalfRead master reg s
  | .highHalfRead master reg => Sys2Proof.Machine.execHighHalfRead master reg s
  | .acCmpWrite n part => Sys2Proof.Machine.execAcCmpWrite n part s
  | .acReloadWrite n v => Sys2Proof.Machine.execAcReloadWrite n v s
  | .acMatch n => Sys2Proof.Machine.execAcMatch n s
  | .admitCtx n => Sys2Proof.Machine.execAdmitCtx n s
  | .probe n => Sys2Proof.Machine.execProbe n s
  | .remove n => Sys2Proof.Machine.execRemove n s
  | .replace n => Sys2Proof.Machine.execReplace n s
  | .suspend n => Sys2Proof.Machine.execSuspend n s
  | .resume n => Sys2Proof.Machine.execResume n s
  | .read n => Sys2Proof.Machine.execRead n s
  | .setcore => Sys2Proof.Machine.execSetcore s
  | .opDone => Sys2Proof.Machine.execOpDone s
  | .contextRelease n => Sys2Proof.Machine.execContextRelease n s
  | .launchPoint bad => Sys2Proof.Machine.execLaunchPoint s bad
  | .panDonePoint => Sys2Proof.Machine.execPanDonePoint s
  | .taskBudgetExpiry c => Sys2Proof.Machine.execTaskBudgetExpiry c s
  | .commandExpire e => Sys2Proof.Machine.execCommandExpire e s
  | .acceptByTimeout e => Sys2Proof.Machine.execAcceptByTimeout e s
  | .ttDataWrite j v => Sys2Proof.Machine.execTtDataWrite j v s
  | .ttCommit => Sys2Proof.Machine.execTtCommit s
  | .cryEnableWrite on => Sys2Proof.Machine.execCryEnableWrite on s
  | .salternReadRequest port a len back ups tags => Sys2Proof.Machine.execSalternReadRequest port a len back s ups tags
  | .salternWriteRequest port a bytes cap back => Sys2Proof.Machine.execSalternWriteRequest port a bytes cap s back
  | .rmapSet j w => Sys2Proof.Machine.execRmapSet j w s
  | .rmapClear j w => Sys2Proof.Machine.execRmapClear j w s
  | .rmapDone => Sys2Proof.Machine.execRmapDone s
  | .fill => Sys2Proof.Machine.execFill s
  | .fillDone => Sys2Proof.Machine.execFillDone s
  | .ceclr => Sys2Proof.Machine.execCeclr s
  | .panq c h d k a => Sys2Proof.Machine.execPanq c h d k a s
  | .launchedOrderIssue => Sys2Proof.Machine.execLaunchedOrderIssue s
  | .launchedOrderStart p => Sys2Proof.Machine.execLaunchedOrderStart p s
  | .bgOrderStart p => Sys2Proof.Machine.execBgOrderStart p s
  | .stripCommit p f => Sys2Proof.Machine.execStripCommit p f s
  | .bgResume p core => Sys2Proof.Machine.execBgResume p core s
  | .skip p => Sys2Proof.Machine.execSkip p s
  | .flush p => Sys2Proof.Machine.execFlush p s
  | .ringConfigWrite n cfg v => Sys2Proof.Machine.execRingConfigWrite n cfg v s
  | .panEnableWrite on => Sys2Proof.Machine.execPanEnableWrite on s
  | .patchenSet => Sys2Proof.Machine.execPatchenSet s
  | .quiet => Sys2Proof.Machine.execQuiet s
  | .patchenClear => Sys2Proof.Machine.execPatchenClear s
  | .patchWordWrite j v => Sys2Proof.Machine.execPatchWordWrite j v s
  | .dispatchEntryWrite v => Sys2Proof.Machine.execDispatchEntryWrite v s
  | .patchidWrite v => Sys2Proof.Machine.execPatchidWrite v s
  | .pcsCeclr => Sys2Proof.Machine.execPcsCeclr s
  | .brineLinkEnable n on => Sys2Proof.Machine.execBrineLinkEnable n on s
  | .signalDetect n l => Sys2Proof.Machine.execSignalDetect n l s
  | .laneLock n l => Sys2Proof.Machine.execLaneLock n l s
  | .trainingSetAnswer n l rtd portLane stamp => Sys2Proof.Machine.execTrainingSetAnswer n l rtd s portLane stamp
  | .laneTrainDone n l => Sys2Proof.Machine.execLaneTrainDone n l s
  | .trainTimeout n l => Sys2Proof.Machine.execTrainTimeout n l s
  | .identityFrame n l f => Sys2Proof.Machine.execIdentityFrame n l f s
  | .idBad n l => Sys2Proof.Machine.execIdBad n l s
  | .laneSignalLoss n l => Sys2Proof.Machine.execLaneSignalLoss n l s
  | .locklost n l cv => Sys2Proof.Machine.execLocklost n l cv s
  | .laneFramesLost n l => Sys2Proof.Machine.execLaneFramesLost n l s
  | .autotrainRetry n l => Sys2Proof.Machine.execAutotrainRetry n l s
  | .retraina n => Sys2Proof.Machine.execRetraina n s
  | .retrainb n => Sys2Proof.Machine.execRetrainb n s
  | .reident n => Sys2Proof.Machine.execReident n s
  | .tickSend n => Sys2Proof.Machine.execTickSend n s
  | .sampleFrameReceive n a b lat ups => Sys2Proof.Machine.execSampleFrameReceive n a b lat s ups
  | .landingNoFrame n lat ups => Sys2Proof.Machine.execLandingNoFrame n s lat ups
  | .commandAreaClose => Sys2Proof.Machine.execCommandAreaClose s
  | .commandFrameSend n => Sys2Proof.Machine.execCommandFrameSend n s
  | .grant n epoch => Sys2Proof.Machine.execGrant n epoch s
  | .release n epoch => Sys2Proof.Machine.execRelease n epoch s
  | .rakeEnableWrite on => Sys2Proof.Machine.execRakeEnableWrite on s
  | .emstopFall => Sys2Proof.Machine.execEmstopFall s
  | .eclr => Sys2Proof.Machine.execEclr s
  | .unlatch => Sys2Proof.Machine.execUnlatch s
  | .unlatchAll => Sys2Proof.Machine.execUnlatchAll s
  | .maxclr => Sys2Proof.Machine.execMaxclr s
  | .swap => Sys2Proof.Machine.execSwap s
  | .swapped => Sys2Proof.Machine.execSwapped s
  | .ruleEntryWrite j v => Sys2Proof.Machine.execRuleEntryWrite j v s
  | .rkTestGo => Sys2Proof.Machine.execRkTestGo s
  | .testDone => Sys2Proof.Machine.execTestDone s
  | .nop c h => Sys2Proof.Machine.execNop c h s
  | .add c h d a b => Sys2Proof.Machine.execAdd c h d a b s
  | .sub c h d a b => Sys2Proof.Machine.execSub c h d a b s
  | .and c h d a b => Sys2Proof.Machine.execAnd c h d a b s
  | .or c h d a b => Sys2Proof.Machine.execOr c h d a b s
  | .xor c h d a b => Sys2Proof.Machine.execXor c h d a b s
  | .andn c h d a b => Sys2Proof.Machine.execAndn c h d a b s
  | .shl c h d a b => Sys2Proof.Machine.execShl c h d a b s
  | .shr c h d a b => Sys2Proof.Machine.execShr c h d a b s
  | .sar c h d a b => Sys2Proof.Machine.execSar c h d a b s
  | .ror c h d a b => Sys2Proof.Machine.execRor c h d a b s
  | .min c h d a b => Sys2Proof.Machine.execMin c h d a b s
  | .max c h d a b => Sys2Proof.Machine.execMax c h d a b s
  | .minu c h d a b => Sys2Proof.Machine.execMinu c h d a b s
  | .maxu c h d a b => Sys2Proof.Machine.execMaxu c h d a b s
  | .adds c h d a b => Sys2Proof.Machine.execAdds c h d a b s
  | .subs c h d a b => Sys2Proof.Machine.execSubs c h d a b s
  | .abs c h d a b => Sys2Proof.Machine.execAbs c h d a b s
  | .clz c h d a b => Sys2Proof.Machine.execClz c h d a b s
  | .popc c h d a b => Sys2Proof.Machine.execPopc c h d a b s
  | .sextb c h d a b => Sys2Proof.Machine.execSextb c h d a b s
  | .sexth c h d a b => Sys2Proof.Machine.execSexth c h d a b s
  | .zexth c h d a b => Sys2Proof.Machine.execZexth c h d a b s
  | .addi c h d a imm => Sys2Proof.Machine.execAddi c h d a imm s
  | .andi c h d a imm => Sys2Proof.Machine.execAndi c h d a imm s
  | .ori c h d a imm => Sys2Proof.Machine.execOri c h d a imm s
  | .xori c h d a imm => Sys2Proof.Machine.execXori c h d a imm s
  | .shi c h d a imm => Sys2Proof.Machine.execShi c h d a imm s
  | .movi c h d imm => Sys2Proof.Machine.execMovi c h d imm s
  | .movhi c h d imm => Sys2Proof.Machine.execMovhi c h d imm s
  | .cmp c h d a b cond => Sys2Proof.Machine.execCmp c h d a b cond s
  | .cmpi c h pd cond a imm => Sys2Proof.Machine.execCmpi c h pd cond a imm s
  | .mul c h d a b => Sys2Proof.Machine.execMul c h d a b s
  | .mulh c h d a b => Sys2Proof.Machine.execMulh c h d a b s
  | .mulhu c h d a b => Sys2Proof.Machine.execMulhu c h d a b s
  | .mulq c h d a b => Sys2Proof.Machine.execMulq c h d a b s
  | .macq c h d a b => Sys2Proof.Machine.execMacq c h d a b s
  | .mac c h d a b => Sys2Proof.Machine.execMac c h d a b s
  | .divu c h d a b => Sys2Proof.Machine.execDivu c h d a b s
  | .divs c h d a b => Sys2Proof.Machine.execDivs c h d a b s
  | .divisionComplete c => Sys2Proof.Machine.execDivisionComplete c s
  | .badd c h d a b => Sys2Proof.Machine.execBadd c h d a b s
  | .baddc c h d a b => Sys2Proof.Machine.execBaddc c h d a b s
  | .bsub c h d a b => Sys2Proof.Machine.execBsub c h d a b s
  | .bsubc c h d a b => Sys2Proof.Machine.execBsubc c h d a b s
  | .bshl c h d a b => Sys2Proof.Machine.execBshl c h d a b s
  | .bshr c h d a b => Sys2Proof.Machine.execBshr c h d a b s
  | .bfromb c h d a b => Sys2Proof.Machine.execBfromb c h d a b s
  | .btob c h d a b => Sys2Proof.Machine.execBtob c h d a b s
  | .pand c h d a b => Sys2Proof.Machine.execPand c h d a b s
  | .por c h d a b => Sys2Proof.Machine.execPor c h d a b s
  | .pxor c h d a b => Sys2Proof.Machine.execPxor c h d a b s
  | .pandn c h d a b => Sys2Proof.Machine.execPandn c h d a b s
  | .pnot c h d a b => Sys2Proof.Machine.execPnot c h d a b s
  | .pmovw c h d a b => Sys2Proof.Machine.execPmovw c h d a b s
  | .wmovp c h d a b => Sys2Proof.Machine.execWmovp c h d a b s
  | .lld c h d a sz off => Sys2Proof.Machine.execLld c h d a sz off s
  | .lst c h d a sz off => Sys2Proof.Machine.execLst c h d a sz off s
  | .gld c h d k a sz off => Sys2Proof.Machine.execGld c h d k a sz off s
  | .gst c h d k a sz off => Sys2Proof.Machine.execGst c h d k a sz off s
  | .lldf c h d a sz off => Sys2Proof.Machine.execLldf c h d a sz off s
  | .lstf c h d a sz off => Sys2Proof.Machine.execLstf c h d a sz off s
  | .gldf c h d k a sz off => Sys2Proof.Machine.execGldf c h d k a sz off s
  | .gstf c h d k a sz off => Sys2Proof.Machine.execGstf c h d k a sz off s
  | .globalLoadReturn c j ups => Sys2Proof.Machine.execGlobalLoadReturn c j ups s
  | .kld c h d a b => Sys2Proof.Machine.execKld c h d a b s
  | .kst c h d a b => Sys2Proof.Machine.execKst c h d a b s
  | .kmov c h d a b => Sys2Proof.Machine.execKmov c h d a b s
  | .knarrow c h d a b => Sys2Proof.Machine.execKnarrow c h d a b s
  | .ktrim c h d a b => Sys2Proof.Machine.execKtrim c h d a b s
  | .klock c h d a b => Sys2Proof.Machine.execKlock c h d a b s
  | .kopen c h d a b => Sys2Proof.Machine.execKopen c h d a b s
  | .kvoid c h d a b => Sys2Proof.Machine.execKvoid c h d a b s
  | .kfield c h d a b => Sys2Proof.Machine.execKfield c h d a b s
  | .krds c h d a b => Sys2Proof.Machine.execKrds c h d a b s
  | .kwrs c h d a b => Sys2Proof.Machine.execKwrs c h d a b s
  | .ldw c h d a => Sys2Proof.Machine.execLdw c h d a s
  | .br c h an disp => Sys2Proof.Machine.execBr c h an disp s
  | .call c h an disp => Sys2Proof.Machine.execCall c h an disp s
  | .jr c h d a b => Sys2Proof.Machine.execJr c h d a b s
  | .callr c h d a b => Sys2Proof.Machine.execCallr c h d a b s
  | .ret c h d a b => Sys2Proof.Machine.execRet c h d a b s
  | .loop c h a off => Sys2Proof.Machine.execLoop c h a off s
  | .loopi c h count off => Sys2Proof.Machine.execLoopi c h count off s
  | .rep c h reg a count => Sys2Proof.Machine.execRep c h reg a count s
  | .repn c h reg a count => Sys2Proof.Machine.execRepn c h reg a count s
  | .repnCut c => Sys2Proof.Machine.execRepnCut c s
  | .evw c h d a b => Sys2Proof.Machine.execEvw c h d a b s
  | .evwTimeout c => Sys2Proof.Machine.execEvwTimeout c s
  | .evs c h d a b => Sys2Proof.Machine.execEvs c h d a b s
  | .wta c h d a b => Sys2Proof.Machine.execWta c h d a b s
  | .wtt c h d a b => Sys2Proof.Machine.execWtt c h d a b s
  | .waitTargetReached c => Sys2Proof.Machine.execWaitTargetReached c s
  | .tend c h d a b => Sys2Proof.Machine.execTend c h d a b s
  | .evch c h d a b => Sys2Proof.Machine.execEvch c h d a b s
  | .fence c h d a b => Sys2Proof.Machine.execFence c h d a b s
  | .syncI c h d a b => Sys2Proof.Machine.execSyncI c h d a b s
  | .rdstat c h d a b => Sys2Proof.Machine.execRdstat c h d a b s
  | .wrstat c h d a b => Sys2Proof.Machine.execWrstat c h d a b s
  | .rdsys c h d a b => Sys2Proof.Machine.execRdsys c h d a b s
  | .wrsys c h d a b => Sys2Proof.Machine.execWrsys c h d a b s
  | .csw c h d a b => Sys2Proof.Machine.execCsw c h d a b s
  | .eret c h d a b => Sys2Proof.Machine.execEret c h d a b s
  | .trap c h d a b => Sys2Proof.Machine.execTrap c h d a b s
  | .tlbi c h d a b => Sys2Proof.Machine.execTlbi c h d a b s
  | .tlbiApply c => Sys2Proof.Machine.execTlbiApply c s
  | .tlbsync c h d a b => Sys2Proof.Machine.execTlbsync c h d a b s
  | .setbank c h d a b => Sys2Proof.Machine.execSetbank c h d a b s
  | .getbank c h d a b => Sys2Proof.Machine.execGetbank c h d a b s
  | .tlbWrite c => Sys2Proof.Machine.execTlbWrite c s
  | .wrnext c => Sys2Proof.Machine.execWrnext c s
  | .tlbRead c => Sys2Proof.Machine.execTlbRead c s
  | .tlbProbe c => Sys2Proof.Machine.execTlbProbe c s
  | .faddS c h d a b => Sys2Proof.Machine.execFaddS c h d a b s
  | .fsubS c h d a b => Sys2Proof.Machine.execFsubS c h d a b s
  | .fmulS c h d a b => Sys2Proof.Machine.execFmulS c h d a b s
  | .fdivS c h d a b => Sys2Proof.Machine.execFdivS c h d a b s
  | .fmaS c h d a b => Sys2Proof.Machine.execFmaS c h d a b s
  | .fminS c h d a b => Sys2Proof.Machine.execFminS c h d a b s
  | .fmaxS c h d a b => Sys2Proof.Machine.execFmaxS c h d a b s
  | .fnmaS c h d a b => Sys2Proof.Machine.execFnmaS c h d a b s
  | .faddD c h d a b => Sys2Proof.Machine.execFaddD c h d a b s
  | .fsubD c h d a b => Sys2Proof.Machine.execFsubD c h d a b s
  | .fmulD c h d a b => Sys2Proof.Machine.execFmulD c h d a b s
  | .fdivD c h d a b => Sys2Proof.Machine.execFdivD c h d a b s
  | .fmaD c h d a b => Sys2Proof.Machine.execFmaD c h d a b s
  | .fminD c h d a b => Sys2Proof.Machine.execFminD c h d a b s
  | .fmaxD c h d a b => Sys2Proof.Machine.execFmaxD c h d a b s
  | .fnmaD c h d a b => Sys2Proof.Machine.execFnmaD c h d a b s
  | .fsqrtS c h d a => Sys2Proof.Machine.execFsqrtS c h d a s
  | .fsqrtD c h d a => Sys2Proof.Machine.execFsqrtD c h d a s
  | .fnegS c h d a => Sys2Proof.Machine.execFnegS c h d a s
  | .fnegD c h d a => Sys2Proof.Machine.execFnegD c h d a s
  | .fabsS c h d a => Sys2Proof.Machine.execFabsS c h d a s
  | .fabsD c h d a => Sys2Proof.Machine.execFabsD c h d a s
  | .fmov c h d a => Sys2Proof.Machine.execFmov c h d a s
  | .fcvtDS c h d a => Sys2Proof.Machine.execFcvtDS c h d a s
  | .fcvtSD c h d a => Sys2Proof.Machine.execFcvtSD c h d a s
  | .fcvtHS c h d a => Sys2Proof.Machine.execFcvtHS c h d a s
  | .fcvtSH c h d a => Sys2Proof.Machine.execFcvtSH c h d a s
  | .fcmp c h d a b cond => Sys2Proof.Machine.execFcmp c h d a b cond s
  | .fmvwf c h d a => Sys2Proof.Machine.execFmvwf c h d a s
  | .fmvfw c h d a => Sys2Proof.Machine.execFmvfw c h d a s
  | .fcvtws c h d a => Sys2Proof.Machine.execFcvtws c h d a s
  | .fcvtsw c h d a => Sys2Proof.Machine.execFcvtsw c h d a s
  | .fcvtqs c h d a => Sys2Proof.Machine.execFcvtqs c h d a s
  | .fcvtsq c h d a => Sys2Proof.Machine.execFcvtsq c h d a s
  | .fcvtwd c h d a => Sys2Proof.Machine.execFcvtwd c h d a s
  | .fcvtdw c h d a => Sys2Proof.Machine.execFcvtdw c h d a s
  | .qadd c h ty d a b => Sys2Proof.Machine.execQadd c h ty d a b s
  | .qsub c h ty d a b => Sys2Proof.Machine.execQsub c h ty d a b s
  | .qmul c h ty d a b => Sys2Proof.Machine.execQmul c h ty d a b s
  | .qmac c h ty d a b => Sys2Proof.Machine.execQmac c h ty d a b s
  | .qmin c h ty d a b => Sys2Proof.Machine.execQmin c h ty d a b s
  | .qmax c h ty d a b => Sys2Proof.Machine.execQmax c h ty d a b s
  | .qabs c h ty d a b => Sys2Proof.Machine.execQabs c h ty d a b s
  | .qneg c h ty d a b => Sys2Proof.Machine.execQneg c h ty d a b s
  | .qsum c h ty d a b => Sys2Proof.Machine.execQsum c h ty d a b s
  | .qcmp c h ty cond d a b => Sys2Proof.Machine.execQcmp c h ty cond d a b s
  | .qand c h ty d a b => Sys2Proof.Machine.execQand c h ty d a b s
  | .qor c h ty d a b => Sys2Proof.Machine.execQor c h ty d a b s
  | .qxor c h ty d a b => Sys2Proof.Machine.execQxor c h ty d a b s
  | .qmov c h d a b => Sys2Proof.Machine.execQmov c h d a b s
  | .qsplat c h d a b => Sys2Proof.Machine.execQsplat c h d a b s
  | .qbcast c h d a b => Sys2Proof.Machine.execQbcast c h d a b s
  | .qins c h d a b => Sys2Proof.Machine.execQins c h d a b s
  | .qext c h d a b => Sys2Proof.Machine.execQext c h d a b s
  | .qsrch c h d w a ty mx => Sys2Proof.Machine.execQsrch c h d w a ty mx s
  | .lineFillComplete c line kind reqs => Sys2Proof.Machine.execLineFillComplete c line kind s reqs
  | .lbflush c => Sys2Proof.Machine.execLbflush c s
  | .bpflush c => Sys2Proof.Machine.execBpflush c s
  | .cntclr c => Sys2Proof.Machine.execCntclr c s
  | .interruptRecognition c => Sys2Proof.Machine.execInterruptRecognition c s
  | .niOverrun c => Sys2Proof.Machine.execNiOverrun c s
  | .gtCompareMatch n k => Sys2Proof.Machine.execGtCompareMatch n k s
  | .gtCmpWrite n j v => Sys2Proof.Machine.execGtCmpWrite n j v s
  | .gtCountWrite n v => Sys2Proof.Machine.execGtCountWrite n v s
  | .gtReloadWrite n v => Sys2Proof.Machine.execGtReloadWrite n v s
  | .gtClr n => Sys2Proof.Machine.execGtClr n s
  | .gtRunSet n => Sys2Proof.Machine.execGtRunSet n s
  | .egSwPulse g v => Sys2Proof.Machine.execEgSwPulse g v s
  | .eventChannelDelivery ch => Sys2Proof.Machine.execEventChannelDelivery ch s
  | .evCfgWrite ch v => Sys2Proof.Machine.execEvCfgWrite ch v s
  | .egCtrlWrite g v => Sys2Proof.Machine.execEgCtrlWrite g v s
  | .doorbellWrite w => Sys2Proof.Machine.execDoorbellWrite w s
  | .createCmd => Sys2Proof.Machine.execCreateCmd s
  | .createEvt => Sys2Proof.Machine.execCreateEvt s
  | .delete => Sys2Proof.Machine.execDelete s
  | .qopRead => Sys2Proof.Machine.execQopRead s
  | .qopDone => Sys2Proof.Machine.execQopDone s
  | .entryFetch q entry => Sys2Proof.Machine.execEntryFetch q entry s
  | .fetchErr q => Sys2Proof.Machine.execFetchErr q s
  | .commandSend q => Sys2Proof.Machine.execCommandSend q s
  | .journalCommit => Sys2Proof.Machine.execJournalCommit s
  | .journalAckReceive => Sys2Proof.Machine.execJournalAckReceive s
  | .acceptNoticeReceive => Sys2Proof.Machine.execAcceptNoticeReceive s
  | .completionReceive => Sys2Proof.Machine.execCompletionReceive s
  | .journalRelease => Sys2Proof.Machine.execJournalRelease s
  | .eventRecordRoute => Sys2Proof.Machine.execEventRecordRoute s
  | .replay => Sys2Proof.Machine.execReplay s
  | .replayDone => Sys2Proof.Machine.execReplayDone s
  | .tjRelease => Sys2Proof.Machine.execTjRelease s
  | .sluiceSignalDetect p => Sys2Proof.Machine.execSluiceSignalDetect p s
  | .sluicePairLock p => Sys2Proof.Machine.execSluicePairLock p s
  | .pairUp p rtF rtH => Sys2Proof.Machine.execPairUp p rtF rtH s
  | .pairDown p => Sys2Proof.Machine.execPairDown p s
  | .sluicePairRelock p => Sys2Proof.Machine.execSluicePairRelock p s
  | .sluiceCellReceive dir p data ack ctl good => Sys2Proof.Machine.execSluiceCellReceive dir p data ack ctl good s
  | .sluiceRetransmit dir cls => Sys2Proof.Machine.execSluiceRetransmit dir cls s
  | .init fromH => Sys2Proof.Machine.execInit fromH s
  | .initAck toH => Sys2Proof.Machine.execInitAck toH s
  | .dipOn => Sys2Proof.Machine.execDipOn s
  | .dipOff => Sys2Proof.Machine.execDipOff s
  | .telemetryRead => Sys2Proof.Machine.execTelemetryRead s
  | .telNew => Sys2Proof.Machine.execTelNew s
  | .harvestRecordReceive => Sys2Proof.Machine.execHarvestRecordReceive s
  | .timeMessageSend => Sys2Proof.Machine.execTimeMessageSend s
  | .timeMessageReceiveH => Sys2Proof.Machine.execTimeMessageReceiveH s
  | .timeMessageDiscard => Sys2Proof.Machine.execTimeMessageDiscard s
  | .ptpFrameReceive m domain off => Sys2Proof.Machine.execPtpFrameReceive m domain off s
  | .ptStep v => Sys2Proof.Machine.execPtStep v s
  | .ethFrameReceive m k len fcsOk => Sys2Proof.Machine.execEthFrameReceive m k len fcsOk s
  | .planSend => Sys2Proof.Machine.execPlanSend s
  | .aggregateSend => Sys2Proof.Machine.execAggregateSend s
  | .allocSend => Sys2Proof.Machine.execAllocSend s
  | .planReceive h tot mem src => Sys2Proof.Machine.execPlanReceive h tot mem s src
  | .allocReceive h src scale mem => Sys2Proof.Machine.execAllocReceive h src scale mem s
  | .harvestRoundStart => Sys2Proof.Machine.execHarvestRoundStart s
  | .lockstep c kind => Sys2Proof.Machine.execLockstep c kind s
  | .s0Lockstep => Sys2Proof.Machine.execS0Lockstep s
  | .recover c => Sys2Proof.Machine.execRecover c s
  | .autoRecover c => Sys2Proof.Machine.execAutoRecover c s
  | .recovered c => Sys2Proof.Machine.execRecovered c s
  | .inject mask => Sys2Proof.Machine.execInject mask s
  | .logicMismatch => Sys2Proof.Machine.execLogicMismatch s
  | .halt c => Sys2Proof.Machine.execHalt c s
  | .debugResume c => Sys2Proof.Machine.execDebugResume c s
  | .step c => Sys2Proof.Machine.execStep c s
  | .readreg c reg => Sys2Proof.Machine.execReadreg c reg s
  | .writereg c reg v => Sys2Proof.Machine.execWritereg c reg v s
  | .readmem a len => Sys2Proof.Machine.execReadmem a len s
  | .writemem a bytes => Sys2Proof.Machine.execWritemem a bytes s
  | .reboot => Sys2Proof.Machine.execReboot s
  | .challenge => Sys2Proof.Machine.execChallenge s
  | .unlock scope slot pub sig => Sys2Proof.Machine.execUnlock scope slot pub sig s
  | .pairFrameSend => Sys2Proof.Machine.execPairFrameSend s
  | .pairFrameReceive bytes sof => Sys2Proof.Machine.execPairFrameReceive bytes sof s
  | .pairLost => Sys2Proof.Machine.execPairLost s
  | .join => Sys2Proof.Machine.execJoin s
  | .brownoutStart => Sys2Proof.Machine.execBrownoutStart s
  | .brownWarn mv ns => Sys2Proof.Machine.execBrownWarn mv ns s
  | .hDipStart => Sys2Proof.Machine.execHDipStart s
  | .hDipRecover mv ns => Sys2Proof.Machine.execHDipRecover mv ns s
  | .tempHigh hDie t => Sys2Proof.Machine.execTempHigh hDie t s
  | .refLost => Sys2Proof.Machine.execRefLost s
  | .refOk => Sys2Proof.Machine.execRefOk s
  | .pwrHalt => Sys2Proof.Machine.execPwrHalt s
  | .pwrSleep => Sys2Proof.Machine.execPwrSleep s
  | .fSleep => Sys2Proof.Machine.execFSleep s
  | .wake => Sys2Proof.Machine.execWake s
  | .wakef => Sys2Proof.Machine.execWakef s
  | .coldBootF below emLow => Sys2Proof.Machine.execColdBootF below emLow s
  | .coldBootH below => Sys2Proof.Machine.execColdBootH below s
  | .fWarmReset cause cuts => Sys2Proof.Machine.execFWarmReset cause s cuts
  | .warmDone => Sys2Proof.Machine.execWarmDone s
  | .hWarmReset cause => Sys2Proof.Machine.execHWarmReset cause s
  | .resyncDone => Sys2Proof.Machine.execResyncDone s
  | .pcieHotReset => Sys2Proof.Machine.execPcieHotReset s
  | .framego => Sys2Proof.Machine.execFramego s
  | .corerunWrite mask => Sys2Proof.Machine.execCorerunWrite mask s
  | .revoke arg => Sys2Proof.Machine.execRevoke arg s
  | .drevoke arg => Sys2Proof.Machine.execDrevoke arg s
  | .svnbump => Sys2Proof.Machine.execSvnbump s
  | .lcadv arg => Sys2Proof.Machine.execLcadv arg s
  | .otpDone => Sys2Proof.Machine.execOtpDone s
  | .reimageWrite on => Sys2Proof.Machine.execReimageWrite on s
  | .rngrst => Sys2Proof.Machine.execRngrst s
  | .secRngRead master => Sys2Proof.Machine.execSecRngRead master s
  | .rngFail => Sys2Proof.Machine.execRngFail s
  | .attest cseq q nonce => Sys2Proof.Machine.execAttest cseq q nonce s
  | .identity cseq q => Sys2Proof.Machine.execIdentity cseq q s
  | .attestationAnswer => Sys2Proof.Machine.execAttestationAnswer s
  | .btnDown => Sys2Proof.Machine.execBtnDown s
  | .btnHold => Sys2Proof.Machine.execBtnHold s
  | .btnUp ms => Sys2Proof.Machine.execBtnUp ms s
  | .latchOpen n => Sys2Proof.Machine.execLatchOpen n s
  | .latchClose n => Sys2Proof.Machine.execLatchClose n s
  | .touch e ms base count => Sys2Proof.Machine.execTouch e ms base count s
  | .usbAttach => Sys2Proof.Machine.execUsbAttach s
  | .usbDetach => Sys2Proof.Machine.execUsbDetach s
  | .lamptest => Sys2Proof.Machine.execLamptest s
  | .lamptestEnd => Sys2Proof.Machine.execLamptestEnd s
  | .fdivComplete c => Sys2Proof.Machine.execFdivComplete c s
  | .journalWriteComplete e => Sys2Proof.Machine.execJournalWriteComplete e s
  | .pllUnlock lpll => Sys2Proof.Machine.execPllUnlock lpll s
  | .tempHighEnd hDie t => Sys2Proof.Machine.execTempHighEnd hDie t s
  | .emstopRise => Sys2Proof.Machine.execEmstopRise s
  | .touchRelease e base count => Sys2Proof.Machine.execTouchRelease e base count s
  | .ethLinkUp m => Sys2Proof.Machine.execEthLinkUp m s
  | .ethLinkDown m => Sys2Proof.Machine.execEthLinkDown m s
  | .pcieLinkUp width speed => Sys2Proof.Machine.execPcieLinkUp width speed s
  | .pcieD3hot on => Sys2Proof.Machine.execPcieD3hot on s
  | .pairdisWrite v => Sys2Proof.Machine.execPairdisWrite v s
  | .lanemodeWrite n v => Sys2Proof.Machine.execLanemodeWrite n v s
  | .rateHoldWrite v => Sys2Proof.Machine.execRateHoldWrite v s
  | .tbGridSrcWrite v => Sys2Proof.Machine.execTbGridSrcWrite v s
  | .rngStartUpPassed => Sys2Proof.Machine.execRngStartUpPassed s

end Sys2Proof.Machine
end

