-- ==== Sys2Proof/Machine/Step.lean ====
section
/-!
DEFINITION. Sys2Proof/Machine/Step.lean: one step of the device: the command at the front of the queue, or one step of time
when none waits (log 1).
-/
namespace Sys2Proof.Machine
open Sys2Proof

/-- The front command runs on the state with the queue's rest. An empty queue lets one step of time pass (log 1). -/
def step (s : State) : Host.Outcome State Fault Refusal :=
  match s.pending with
  | [] => .next (timeStep s)
  | c :: r => exec c { s with pending := r }

/-- `s` with the command that a table word spells in front of its queue. -/
def State.withFetchWord (s : State) (nbits w : Nat) : State :=
  match decodeTableWord nbits w with
  | some c => { s with pending := c :: s.pending }
  | none => s

end Sys2Proof.Machine
end

