-- ==== Sys2Proof/Safety.lean ====
section
/-!
DEFINITION. Sys2Proof/Safety.lean: what counts as a well-formed state and a safe step, in the terms the claims use.
-/
namespace Sys2Proof.Machine

/-- A byte memory in canonical form: addresses strictly rising, no listed byte equal to 0, which an unlisted address
reads as (log 2). -/
def Memory.wf (m : List Host.Cell) : Bool := storeWf (fun _ => 0) m

/-- The register file in canonical form: no listed word equal to its reset value. -/
def Regs.wf (m : List (Nat × Word)) : Bool := storeWf regDflt m

/-- Every memory of the device and its register file are in canonical form, so equal contents are equal data. -/
def State.canonical (s : State) : Bool :=
  Regs.wf s.regs && Memory.wf s.sal.mem && Memory.wf s.mram && Memory.wf s.lmem

/-- A step is safe when it answers a next state. -/
def StepSafe (s : State) : Prop := ∃ t, step s = .next t

end Sys2Proof.Machine
end

