-- ==== Sys2Proof/Certificates/Slice0/Obligations.lean ====
section
/-!
DEFINITION. Sys2Proof/Certificates/Slice0/Obligations.lean: the statements for the provers. A statement about a command says that
`exec` answers a next state and what holds of it; the conditions on the state and the operands stand before it.
-/
namespace Sys2Proof.Claims
open Sys2Proof Sys2Proof.Machine

/-- The command answers a next state, and `P` holds of it. -/
def Ends (c : Instr) (s : State) (P : State → Prop) : Prop := ∃ t, Machine.exec c s = .next t ∧ P t

/-- Everything but the registers and what events use beside them is as before. A block's own part is named by putting it
back: `Kept s { t with tb := s.tb }` lets the timebase change. -/
def Kept (s t : State) : Prop :=
  t.pending = s.pending ∧ t.shadow = s.shadow ∧ t.free = s.free ∧ t.out = s.out ∧ t.mram = s.mram ∧ t.lmem = s.lmem ∧
  t.lmErr = s.lmErr ∧ t.tb = s.tb ∧ t.sal = s.sal ∧ t.cry = s.cry ∧ t.pan = s.pan ∧ t.bl = s.bl ∧ t.rk = s.rk ∧
  t.qe = s.qe ∧ t.tj = s.tj ∧ t.fab = s.fab ∧ t.dup = s.dup ∧ t.pwr = s.pwr ∧ t.sec = s.sec ∧ t.pn = s.pn ∧
  t.cores = s.cores

/-- No event was raised, and none waits that did not wait before. -/
def NoEvents (s t : State) : Prop :=
  t.evPay = s.evPay ∧ t.evHeld = s.evHeld ∧ t.evIn = s.evIn ∧ t.ev = s.ev ∧ t.sl = s.sl

/-- Every register but those of `own` is as before. -/
def Regs (s t : State) (own : List Nat) : Prop := ∀ k, k ∉ own → t.rd k = s.rd k

/-- Every register is as before but those of `own`, the EV_PEND of the pages `pgs`, which raised events, and what their
routes may touch: the registers of the event groups and the drop counter of the Sluice. -/
def RegsEv (s t : State) (own pgs : List Nat) : Prop :=
  ∀ k, k ∉ own → (∀ p ∈ pgs, k ≠ rEV_PEND p) → (k / 1024 < 0x40 ∨ 0x50 ≤ k / 1024) → k ≠ rSL_EVDROP → t.rd k = s.rd k

end Sys2Proof.Claims

namespace Sys2Proof.Claims
open Sys2Proof Sys2Proof.Machine

/-- At `u` ANGLE has advanced by one CCLK from `w` and one tick boundary lies behind it: TICKNO, TICK_K, and RATE within the slew
limit (R46, R50, R57). -/
def TickTaken (w u : State) : Prop :=
  angleOf u = angleAfter w (rateOf w) ∧ u.tb.sub = (w.tb.sub + rateOf w) % 2 ^ 32 ∧ tickNo u = (tickNo w + 1) % 2 ^ 64 ∧
  u.fld fTICK_K = boundaryNo w.tb.nCur (angleOf u) % w.tb.nCur ∧
  (w.flag fTB_STAT_FLOOR = false → rateOf u ≤ rateOf w + w.fld fTB_SLEW ∧ rateOf w ≤ rateOf u + w.fld fTB_SLEW) ∧
  RegsEv w u [rANGLE, rANGLE + 1, rTICKNO, rTICKNO + 1, rTICK_K, rRATE, rRATE + 1, rTB_STAT] [tbPg] ∧ Kept w { u with tb := w.tb }
/-- What follows the advance of ANGLE in the same CCLK: the compare units, the blocks at a boundary, the timers, pulses and cores. -/
def followed (w u : State) : State :=
  let r := boundaryWork (tickNo w) (acSteps (angleOf w) u)
  coreCycles (fabricDue (deliverDue (if fcycOf r % 16 = 0 then gtEdges 1 r else r)))
/-- The state one CCLK before the step that brings ANGLE to `a`, its clocks advanced. -/
def lastCclk (s : State) (a : Nat) : State := clockStep 1 (timeSteps (stepsTo s a - 1) s)
/-- The step from `v`, with N as it is. -/
def EndsTick (w t : State) : Prop := ∃ u, TickTaken w u ∧ t = followed w u
/-- The same at a turn boundary where a waiting N takes effect (R52). -/
def EndsTurn (w t : State) (m : Nat) : Prop := ∃ u, u.tb.nCur = m ∧ u.tb.nPend = none ∧ pendBit u tbPg 7 = true ∧
  angleOf u = angleAfter w (rateOf w) ∧ t = followed w u
/-- Unit `n` has matched (R66), and the rest of the CCLK follows. -/
def EndsMatch (w t : State) (n : Nat) : Prop := ∃ u, angleOf u = angleAfter w (rateOf w) ∧
  (acSteps (angleOf w) u).flag (fACn_STAT_MATCH n) = true ∧ (acSteps (angleOf w) u).rd64 (rACn_LAST n) = angleOf u ∧
  (w.flag (fACn_CTRL_ONESHOT n) = true → (acSteps (angleOf w) u).flag (fACn_CTRL_EN n) = false) ∧
  pendBit (acSteps (angleOf w) u) (acPage n) (n % 16) = true ∧ t = followed w u
/-- One CCLK from `w` in RUN with the timebase moving reaches one boundary and no turn with a waiting N or source. -/
abbrev Steps (s w : State) (a : Nat) : Prop :=
  tbMoves s = true ∧ s.pwr.mode = .run ∧ angleOf s < a ∧ 0 < cclkTo s a ∧ tbEn w = true ∧ frozen w tbPg = false ∧
  (timeSteps (cclkTo s a - 1) s).pwr.mode = .run ∧ angleAfter w (rateOf w) < 2 ^ 64
/-- The next tick boundary (R49). -/
def nextTick (s : State) : Nat :=
  min (boundaryAngle s.tb.nCur (boundaryNo s.tb.nCur (angleOf s) + 1)) ((angleOf s / 16777216 + 1) * 16777216)

/-- The page number of the model: H-die pages carry 0x1000. -/
abbrev pageOf (d : Die) (pg : Nat) : Nat := match d with | .F => pg | .H => 0x1000 + pg
/-- The row's master, the debug agent or the host, may write the page (R34, R36). -/
abbrev mayWrite (d : Die) (pg : Nat) : Prop :=
  d = .F ∨ (0x10 ≤ pg ∧ pg ≤ 0x13) ∨ (0x20 ≤ pg ∧ pg ≤ 0x3F) ∨ pg = 0x50 ∨ pg = 0x51 ∨ pg = 0x58 ∨ pg = 0x60
/-- Offsets whose write has a behaviour that a chapter gives beyond the access codes. -/
abbrev ownWrite (p off : Nat) : Prop :=
  (p * 1024 + off / 4 ∈ [rTB_CTRL, rTB_N, rTB_TICK_MIN, rRATE_HOLD, rRATE_HOLD + 1, rTB_GRID_SRC, rRK_CTRL, rRK_WSEL,
    rRK_TCTRL, rCRY_OP, rCRY_TTCTRL, rPCS_CTRL, rPCS_DDATA0, rPCS_DDATA1, rPCS_PATCHID, rSAL_CTRL, rSL_CTRL, rTJ_CTRL,
    rPWR_MODE, rRST_CTRL, rFC_CTRL, rSEC_CTRL, rPL_CTRL, rQE_QOP, rQE_EQDROP, rPT_STEP, rHP_CTRL, rPN_CTRL]) ∨
  ((p = 0x011 ∨ p = 0x012) ∧ off < 0x240 ∧ (off - 0x40) % 32 ∈ [0, 8, 12, 16, 20]) ∨
  (0x020 ≤ p ∧ p ≤ 0x03F ∧ off ∈ [0x40, 0x48, 0x4C, 0x68, 0x78]) ∨
  (0x040 ≤ p ∧ p ≤ 0x04F ∧ (off = 0x40 ∨ off = 0x50 ∨ (0x80 ≤ off ∧ off < 0xC0))) ∨
  (0x080 ≤ p ∧ p ≤ 0x0FF ∧ ((p % 2 = 0 ∧ off = 0x40) ∨ (p % 2 = 1 ∧ off = 0x44))) ∨
  ((p = 0x100 ∨ p = 0x112 ∨ p = 0x129) ∧ 0x50 ≤ off ∧ off < 0x60) ∨ (0x121 ≤ p ∧ p ≤ 0x124 ∧ off = 0x48) ∨
  (p = 0x125 ∧ off < 0x80 ∧ off % 16 ∈ [0, 4, 12]) ∨ (p = 0x130 ∧ 0x80 ≤ off ∧ off < 0xC0) ∨
  (0x140 ≤ p ∧ p ≤ 0x143 ∧ off = 0x40) ∨ (p = 0x1080 ∧ 0x60 ≤ off ∧ off < 0x70)
/-- Pages with such an offset. -/
abbrev ownPage (p : Nat) : Prop :=
  (0x010 ≤ p ∧ p ≤ 0x012) ∨ (0x020 ≤ p ∧ p ≤ 0x04F) ∨ (0x080 ≤ p ∧ p ≤ 0x101) ∨ p = 0x110 ∨ p = 0x112 ∨
  (0x121 ≤ p ∧ p ≤ 0x125) ∨ p = 0x129 ∨ p = 0x130 ∨ (0x140 ≤ p ∧ p ≤ 0x143) ∨ p = 0x150 ∨ (0x160 ≤ p ∧ p ≤ 0x170) ∨
  p = 0x180 ∨ p = 0x1013 ∨ p = 0x1020 ∨ p = 0x1050 ∨ p = 0x1051 ∨ p = 0x1058 ∨ p = 0x1060 ∨ p = 0x1080 ∨ p = 0x1090
/-- What a write of `v` makes of bit `b` of a register word that holds `old`, by the access code of the bit's field (R6,
R570, R571): a bit of no field reads as before, a locked RWL field keeps its value, and a counter that writing 0 clears is
cleared by a write of 0 to its field alone; a W1C bit of `set`, which the block sets in the same cycle, stays set (R40). -/
def bitAfter (r : RegD) (sh : Nat) (lk : Bool) (old v set : Word) (b : Nat) : Bool :=
  match r.flds.find? fun f => decide (f.lo ≤ sh + b) && decide (sh + b < f.lo + f.width) with
  | none => old.getLsbD b
  | some f =>
    if f.acc = .rw then v.getLsbD b
    else if f.acc = .rwl then (if lk then old.getLsbD b else v.getLsbD b)
    else if f.acc = .w1c then old.getLsbD b && (!v.getLsbD b || set.getLsbD b)
    else if f.acc = .rwz ∨ f.acc = .roz then old.getLsbD b && bitsGet v (f.lo - sh) f.width != 0
    else old.getLsbD b
/-- Every bit of the word at `off` of page `p` is as its access code says. -/
abbrev WordWritten (s t : State) (p off : Nat) (v set : Word) : Prop :=
  ∀ b : Fin 32, (t.rd (p * 1024 + off / 4)).getLsbD b.val =
    match regAt p off with
    | some r => bitAfter r (8 * r.part off) (lockHeld s p) (s.rd (p * 1024 + off / 4)) v set b.val
    | none => (s.rd (p * 1024 + off / 4)).getLsbD b.val
/-- What RST leaves in a word: writable fields at their reset value, W1C fields and counters that a write of 0
clears cleared, a bit of a Retained or of any other field and a bit of no field as before (R569). -/
def rstBit (r : RegD) (sh : Nat) (old : Word) (b : Nat) : Bool :=
  match r.flds.find? fun f => decide (f.lo ≤ sh + b) && decide (sh + b < f.lo + f.width) with
  | none => old.getLsbD b
  | some f =>
    if f.retained then old.getLsbD b
    else if f.acc = .rw ∨ f.acc = .rwl then natBit f.rst (sh + b - f.lo)
    else if f.acc = .w1c ∨ f.acc = .rwz then false
    else old.getLsbD b
/-- A decode error of the F-die's masters (R573), and of the H-die's (R36). -/
abbrev DecodeErrF (s t : State) (addr master wr : Nat) : Prop :=
  t.rd64 rMX_DEC_ADDR = addr % 2 ^ 40 ∧ t.rd rMX_DEC_INFO = BitVec.ofNat 32 (wr * 2 ^ 16 + 6 * 2 ^ 8 + master) ∧
  t.fld fMX_DEC_CNT = satInc fMX_DEC_CNT.width (s.fld fMX_DEC_CNT) ∧ pendBit t 0x131 0 = true ∧
  RegsEv s t [rMX_DEC_ADDR, rMX_DEC_ADDR + 1, rMX_DEC_INFO, fMX_DEC_CNT.key] [0x131] ∧ Kept s t
abbrev DecodeErrH (s t : State) : Prop := pendBit t 0x1020 6 = true ∧ RegsEv s t [] [0x1020] ∧ Kept s t

/-- Every other word of the MSI-X table is as before (R421). -/
abbrev OtherVec (s t : State) (w : Nat) : Prop := ∀ v, v ≠ w → msixWord t v = msixWord s v

/-- After RST of page `p`: each word of its block registers, and nothing else. -/
abbrev PageReset (s t : State) (p : Nat) : Prop :=
  (∀ (w : Fin 1008) (b : Fin 32), (t.rd (p * 1024 + 16 + w.val)).getLsbD b.val =
    match regAt p (64 + 4 * w.val) with
    | some r => rstBit r (8 * r.part (64 + 4 * w.val)) (s.rd (p * 1024 + 16 + w.val)) b.val
    | none => (s.rd (p * 1024 + 16 + w.val)).getLsbD b.val) ∧
  (∀ k, k / 1024 ≠ p ∨ k % 1024 < 16 → t.rd k = s.rd k) ∧ NoEvents s t ∧ Kept s t

/-- The core as the `k`-th bundle after the present one reads it, when nothing else is issued. -/
def After : Nat → Core → Core
  | 0, c => c
  | k + 1, c => After k c.tick

/-- Core `n` runs, nothing is due at it, and no bundle waits in its fetch queue. -/
abbrev Idle (s : State) (n : Nat) : Prop :=
  coreRunning s n = true ∧ coreFrozen s n = false ∧ clocked s n = true ∧ (s.core n).halted = false ∧
  (s.core n).fq = [] ∧ (s.core n).group = [] ∧ (s.core n).ni = false ∧ (s.core n).rep = none ∧
  (s.core n).wait = none ∧ pendingInt (s.core n) = none

/-- Moreover it stands at a bundle boundary with nothing in flight, `xf` being the transfer whose delay slot comes next, and
the fetch of a bundle of one syllable passes its checks and translates to `x`. -/
abbrev AtBundle (s : State) (n : Nat) (xf : Option Xfer) (x : Xl) : Prop :=
  Idle s n ∧ (s.core n).asm = [] ∧ (s.core n).pend = [] ∧ (s.core n).loads = [] ∧ (s.core n).fdivs = [] ∧
  (s.core n).div = none ∧ (s.core n).xfer = xf ∧ (s.core n).redo = none ∧ natBit s.dup.inject n = false ∧
  (s.core n).repOff = none ∧ (fetchFault s n (s.core n) (s.core n).pc 1).toOption = some [x]

/-- A legal syllable of the path that the core is on closes its bundle (R275, R336). -/
abbrev Alone (h : Hdr) : Prop := h.s = true ∧ h.rsv = false ∧ h.wrong = none

/-- The syllable closes its bundle and its guard holds (R275, R280). -/
abbrev Runs (s : State) (n : Nat) (h : Hdr) : Prop := Alone h ∧ (natBit ((s.core n).rdP h.gp.toNat) 0 != h.gn) = true

/-- No loop body ends at the core's next bundle (R301). -/
abbrev NoEnd (c : Core) : Prop := endLevels c ⟨[], none⟩ c.pc = []

/-- A syllable alone in its bundle, at the end of no loop body, is about to issue and to execute. -/
abbrev Lone (s : State) (n : Nat) (h : Hdr) (x : Xl) : Prop :=
  AtBundle s n none x ∧ Runs s n h ∧ NoEnd (s.core n)

/-- The core once the bundle is fetched: its line is the most recently used, and its block is marked accessed. -/
def Fetched (x : Xl) (c : Core) : Core := adSet .fetch x (touchLine x.pa c)

/-- Of the cores only `n` changed, one bundle is counted, and nothing else of the device changed. -/
def CoreOnly (s t : State) (n : Nat) : Prop :=
  (∀ m, m ≠ n → t.core m = s.core m) ∧ Regs s t (if n < 4 then [(fEPn_BUNDLES n).key] else []) ∧
  (n < 4 → t.fld (fEPn_BUNDLES n) = satInc 32 (s.fld (fEPn_BUNDLES n))) ∧
  NoEvents s t ∧ Kept s { t with cores := s.cores }

/-- The address moves past the bundle. -/
def moved (c : Core) : Core := { c with pc := (c.pc + 4) % 2 ^ 32, step := false, issued := true, rasWrong := none }
/-- The bundle has issued: the registers are as before for the next `k - 1` bundles, the `k`-th reads the core as `f` makes
it, and the address moved past the bundle. -/
def Issued (s t : State) (n : Nat) (x : Xl) (k : Nat) (f : Core → Core) : Prop :=
  After k (t.core n) = moved (f (Fetched x (s.core n))) ∧
  (∀ j, j < k → (After j (t.core n)).w = (s.core n).w ∧ (After j (t.core n)).f = (s.core n).f ∧
    (After j (t.core n)).p = (s.core n).p ∧ (After j (t.core n)).c = (s.core n).c ∧
    (After j (t.core n)).status = (s.core n).status) ∧
  CoreOnly s t n

/-- w[d], p[d], f[d], c[d] take a value; w0 and p0 discard it. -/
def putW (d : Nat) (v : Word) (c : Core) : Core := if d = 0 then c else { c with w := storeSet 0 c.w (wKey c d) v }
def putP (d : Nat) (v : Byte) (c : Core) : Core := if d = 0 then c else { c with p := storeSet 0 c.p d v }
def putF (d : Nat) (v : Nat) (c : Core) : Core := { c with f := storeSet 0 c.f d (BitVec.ofNat 64 v) }
def putC (d : Nat) (k : Cap) (c : Core) : Core := { c with c := storeSet Cap.zero c.c d k }
/-- Sticky fields of STATUS are set. -/
def raised (m : Word) (c : Core) : Core := { c with status := c.status ||| m }
def rdB (c : Core) (i : Nat) : Byte := BitVec.ofNat 8 (c.rdP i)

/-- The entry of the vector table that an exception at core `n` takes; the core has room for a level and for a frame. -/
abbrev CanEnter (s : State) (n vec : Nat) (v : Nat × Bool × Nat) : Prop :=
  (s.core n).df = none ∧ (s.core n).sb.length < 4 ∧ (s.core n).wres ≠ 30 ∧ vectorAt s n vec = some v ∧
  0 < v.2.2 ∧ 0 < spanLimit s n

/-- A level holds the address, status, authority and cause; the handler runs in the next frame with GIE 0, NI and budget of
its vector, under EXCAP (R356 to R363). -/
def entered (c : Core) (b : Bound) (v : Nat × Bool × Nat) (cause : Word) (info : Nat) (re : List Replay) : Core :=
  { c with pc := v.1, pcc := c.rdS scEXCAP, ni := v.2.1, nib := v.2.2, span := 0, gie := false, step := false,
           sb := ⟨b.epc, b.stat, c.pcc, cause, info, b.btgt, c.gie, c.ni, c.nib, re⟩ :: c.sb, wb := (c.wb + 1) % 32,
           wres := c.wres + 1, status := c.status &&& 0x1FFFFF, asm := [], fq := [], xfer := none, rep := none, repOff := none, wait := none }

/-- Core `n` has taken a synchronous exception with vector `vec`, EINFO `info` and the syllable's position 0: nothing else
of the bundle took effect (R323, R356 to R363). -/
def Trapped (s t : State) (n vec info : Nat) (v : Nat × Bool × Nat) : Prop :=
  t.core n = { entered (s.core n) ⟨(s.core n).pc, (s.core n).status, 0, 0⟩ v (BitVec.ofNat 32 vec) info [] with
    rasWrong := none } ∧
  (∀ m, m ≠ n → t.core m = s.core m) ∧
  Regs s t (if n < 4 then [(fEXn_COUNT n).key, (fEXn_MAXSPAN n).key] else []) ∧ NoEvents s t ∧
  Kept s { t with cores := s.cores }

/-- The syllable that a row of the instruction set is, with the core that receives it. -/
def sylOf : Instr → Option (Fin 5 × Hdr × Op)
  | .nop c h => some (c, h, .nop)
  | .add c h d a b => some (c, h, .alu .add d a b)
  | .sub c h d a b => some (c, h, .alu .sub d a b)
  | .and c h d a b => some (c, h, .alu .and d a b)
  | .or c h d a b => some (c, h, .alu .or d a b)
  | .xor c h d a b => some (c, h, .alu .xor d a b)
  | .andn c h d a b => some (c, h, .alu .andn d a b)
  | .shl c h d a b => some (c, h, .alu .shl d a b)
  | .shr c h d a b => some (c, h, .alu .shr d a b)
  | .sar c h d a b => some (c, h, .alu .sar d a b)
  | .ror c h d a b => some (c, h, .alu .ror d a b)
  | .min c h d a b => some (c, h, .alu .min d a b)
  | .max c h d a b => some (c, h, .alu .max d a b)
  | .minu c h d a b => some (c, h, .alu .minu d a b)
  | .maxu c h d a b => some (c, h, .alu .maxu d a b)
  | .adds c h d a b => some (c, h, .alu .adds d a b)
  | .subs c h d a b => some (c, h, .alu .subs d a b)
  | .abs c h d a b => some (c, h, .alu .abs d a b)
  | .clz c h d a b => some (c, h, .alu .clz d a b)
  | .popc c h d a b => some (c, h, .alu .popc d a b)
  | .sextb c h d a b => some (c, h, .alu .sextb d a b)
  | .sexth c h d a b => some (c, h, .alu .sexth d a b)
  | .zexth c h d a b => some (c, h, .alu .zexth d a b)
  | .addi c h d a imm => some (c, h, .imm .addi d a imm)
  | .andi c h d a imm => some (c, h, .imm .andi d a imm)
  | .ori c h d a imm => some (c, h, .imm .ori d a imm)
  | .xori c h d a imm => some (c, h, .imm .xori d a imm)
  | .shi c h d a imm => some (c, h, .shi d a imm)
  | .movi c h d imm => some (c, h, .movi d imm)
  | .movhi c h d imm => some (c, h, .movhi d imm)
  | .cmp c h d a b cond => some (c, h, .cmp d a b cond)
  | .cmpi c h pd cond a imm => some (c, h, .cmpi pd cond a imm)
  | .mul c h d a b => some (c, h, .mul .mul d a b)
  | .mulh c h d a b => some (c, h, .mul .mulh d a b)
  | .mulhu c h d a b => some (c, h, .mul .mulhu d a b)
  | .mulq c h d a b => some (c, h, .mul .mulq d a b)
  | .macq c h d a b => some (c, h, .mul .macq d a b)
  | .mac c h d a b => some (c, h, .mul .mac d a b)
  | .divu c h d a b => some (c, h, .div false d a b)
  | .divs c h d a b => some (c, h, .div true d a b)
  | .badd c h d a b => some (c, h, .bcd .badd d a b)
  | .baddc c h d a b => some (c, h, .bcd .baddc d a b)
  | .bsub c h d a b => some (c, h, .bcd .bsub d a b)
  | .bsubc c h d a b => some (c, h, .bcd .bsubc d a b)
  | .bshl c h d a b => some (c, h, .bcd .bshl d a b)
  | .bshr c h d a b => some (c, h, .bcd .bshr d a b)
  | .bfromb c h d a b => some (c, h, .bcd .bfromb d a b)
  | .btob c h d a b => some (c, h, .bcd .btob d a b)
  | .pand c h d a b => some (c, h, .pred .pand d a b)
  | .por c h d a b => some (c, h, .pred .por d a b)
  | .pxor c h d a b => some (c, h, .pred .pxor d a b)
  | .pandn c h d a b => some (c, h, .pred .pandn d a b)
  | .pnot c h d a b => some (c, h, .pred .pnot d a b)
  | .pmovw c h d a b => some (c, h, .pred .pmovw d a b)
  | .wmovp c h d a b => some (c, h, .pred .wmovp d a b)
  | .lld c h d a sz off => some (c, h, .lld d a sz off)
  | .lst c h d a sz off => some (c, h, .lst d a sz off)
  | .gld c h d k a sz off => some (c, h, .gld d k a sz off)
  | .gst c h d k a sz off => some (c, h, .gst d k a sz off)
  | .lldf c h d a sz off => some (c, h, .lldf d a sz off)
  | .lstf c h d a sz off => some (c, h, .lstf d a sz off)
  | .gldf c h d k a sz off => some (c, h, .gldf d k a sz off)
  | .gstf c h d k a sz off => some (c, h, .gstf d k a sz off)
  | .kld c h d a b => some (c, h, .kld d a b)
  | .kst c h d a b => some (c, h, .kst d a b)
  | .kmov c h d a b => some (c, h, .cap .kmov d a b)
  | .knarrow c h d a b => some (c, h, .cap .knarrow d a b)
  | .ktrim c h d a b => some (c, h, .cap .ktrim d a b)
  | .klock c h d a b => some (c, h, .cap .klock d a b)
  | .kopen c h d a b => some (c, h, .cap .kopen d a b)
  | .kvoid c h d a b => some (c, h, .cap .kvoid d a b)
  | .kfield c h d a b => some (c, h, .cap .kfield d a b)
  | .krds c h d a b => some (c, h, .cap .krds d a b)
  | .kwrs c h d a b => some (c, h, .cap .kwrs d a b)
  | .ldw c h d a => some (c, h, .ldw d a)
  | .br c h an disp => some (c, h, .br an disp)
  | .call c h an disp => some (c, h, .call an disp)
  | .jr c h d a b => some (c, h, .jump .jr d a b)
  | .callr c h d a b => some (c, h, .jump .callr d a b)
  | .ret c h d a b => some (c, h, .jump .ret d a b)
  | .loop c h a off => some (c, h, .loop a off)
  | .loopi c h count off => some (c, h, .loopi count off)
  | .rep c h reg a count => some (c, h, .rep false reg a count)
  | .repn c h reg a count => some (c, h, .rep true reg a count)
  | .evw c h d a b => some (c, h, .wait .evw d a b)
  | .evs c h d a b => some (c, h, .wait .evs d a b)
  | .wta c h d a b => some (c, h, .wait .wta d a b)
  | .wtt c h d a b => some (c, h, .wait .wtt d a b)
  | .tend c h d a b => some (c, h, .wait .tend d a b)
  | .evch c h d a b => some (c, h, .wait .evch d a b)
  | .fence c h d a b => some (c, h, .sys .fence d a b)
  | .syncI c h d a b => some (c, h, .sys .syncI d a b)
  | .rdstat c h d a b => some (c, h, .sys .rdstat d a b)
  | .wrstat c h d a b => some (c, h, .sys .wrstat d a b)
  | .rdsys c h d a b => some (c, h, .sys .rdsys d a b)
  | .wrsys c h d a b => some (c, h, .sys .wrsys d a b)
  | .csw c h d a b => some (c, h, .sys .csw d a b)
  | .eret c h d a b => some (c, h, .sys .eret d a b)
  | .trap c h d a b => some (c, h, .sys .trap d a b)
  | .tlbi c h d a b => some (c, h, .sys .tlbi d a b)
  | .tlbsync c h d a b => some (c, h, .sys .tlbsync d a b)
  | .setbank c h d a b => some (c, h, .sys .setbank d a b)
  | .getbank c h d a b => some (c, h, .sys .getbank d a b)
  | .faddS c h d a b => some (c, h, .fp false .fadd d a b)
  | .fsubS c h d a b => some (c, h, .fp false .fsub d a b)
  | .fmulS c h d a b => some (c, h, .fp false .fmul d a b)
  | .fdivS c h d a b => some (c, h, .fp false .fdiv d a b)
  | .fmaS c h d a b => some (c, h, .fp false .fma d a b)
  | .fminS c h d a b => some (c, h, .fp false .fmin d a b)
  | .fmaxS c h d a b => some (c, h, .fp false .fmax d a b)
  | .fnmaS c h d a b => some (c, h, .fp false .fnma d a b)
  | .faddD c h d a b => some (c, h, .fp true .fadd d a b)
  | .fsubD c h d a b => some (c, h, .fp true .fsub d a b)
  | .fmulD c h d a b => some (c, h, .fp true .fmul d a b)
  | .fdivD c h d a b => some (c, h, .fp true .fdiv d a b)
  | .fmaD c h d a b => some (c, h, .fp true .fma d a b)
  | .fminD c h d a b => some (c, h, .fp true .fmin d a b)
  | .fmaxD c h d a b => some (c, h, .fp true .fmax d a b)
  | .fnmaD c h d a b => some (c, h, .fp true .fnma d a b)
  | .fsqrtS c h d a => some (c, h, .fun1 .sqrtS d a)
  | .fsqrtD c h d a => some (c, h, .fun1 .sqrtD d a)
  | .fnegS c h d a => some (c, h, .fun1 .negS d a)
  | .fnegD c h d a => some (c, h, .fun1 .negD d a)
  | .fabsS c h d a => some (c, h, .fun1 .absS d a)
  | .fabsD c h d a => some (c, h, .fun1 .absD d a)
  | .fmov c h d a => some (c, h, .fun1 .mov d a)
  | .fcvtDS c h d a => some (c, h, .fun1 .cvtDS d a)
  | .fcvtSD c h d a => some (c, h, .fun1 .cvtSD d a)
  | .fcvtHS c h d a => some (c, h, .fun1 .cvtHS d a)
  | .fcvtSH c h d a => some (c, h, .fun1 .cvtSH d a)
  | .fcmp c h d a b cond => some (c, h, .fcmp d a b cond)
  | .fmvwf c h d a => some (c, h, .fxfer .mvwf d a)
  | .fmvfw c h d a => some (c, h, .fxfer .mvfw d a)
  | .fcvtws c h d a => some (c, h, .fxfer .cvtws d a)
  | .fcvtsw c h d a => some (c, h, .fxfer .cvtsw d a)
  | .fcvtqs c h d a => some (c, h, .fxfer .cvtqs d a)
  | .fcvtsq c h d a => some (c, h, .fxfer .cvtsq d a)
  | .fcvtwd c h d a => some (c, h, .fxfer .cvtwd d a)
  | .fcvtdw c h d a => some (c, h, .fxfer .cvtdw d a)
  | .qadd c h ty d a b => some (c, h, .q ty .add d a b)
  | .qsub c h ty d a b => some (c, h, .q ty .sub d a b)
  | .qmul c h ty d a b => some (c, h, .q ty .mul d a b)
  | .qmac c h ty d a b => some (c, h, .q ty .mac d a b)
  | .qmin c h ty d a b => some (c, h, .q ty .min d a b)
  | .qmax c h ty d a b => some (c, h, .q ty .max d a b)
  | .qabs c h ty d a b => some (c, h, .q ty .abs d a b)
  | .qneg c h ty d a b => some (c, h, .q ty .neg d a b)
  | .qsum c h ty d a b => some (c, h, .q ty .sum d a b)
  | .qcmp c h ty cond d a b => some (c, h, .q ty (.cmp cond) d a b)
  | .qand c h ty d a b => some (c, h, .q ty .and d a b)
  | .qor c h ty d a b => some (c, h, .q ty .or d a b)
  | .qxor c h ty d a b => some (c, h, .q ty .xor d a b)
  | .qmov c h d a b => some (c, h, .qmov .mov d a b)
  | .qsplat c h d a b => some (c, h, .qmov .splat d a b)
  | .qbcast c h d a b => some (c, h, .qmov .bcast d a b)
  | .qins c h d a b => some (c, h, .qmov .ins d a b)
  | .qext c h d a b => some (c, h, .qmov .ext d a b)
  | .qsrch c h d w a ty mx => some (c, h, .qsrch d w a ty mx)
  | .panq c h d k a => some (c, h, .panq d k a)
  | _ => none

/-- R291. -/
def aluSpec (fn : AluFn) (a b : Word) : Word :=
  let sat := fun (x : Int) => BitVec.ofInt 32 (max (-2 ^ 31) (min x (2 ^ 31 - 1)))
  match fn with
  | .add => a + b
  | .sub => a - b
  | .and => a &&& b
  | .or => a ||| b
  | .xor => a ^^^ b
  | .andn => a &&& ~~~b
  | .shl => a <<< (b.toNat % 32)
  | .shr => a >>> (b.toNat % 32)
  | .sar => a.sshiftRight (b.toNat % 32)
  | .ror => a.rotateRight (b.toNat % 32)
  | .min => if a.sle b then a else b
  | .max => if a.sle b then b else a
  | .minu => if a.ule b then a else b
  | .maxu => if a.ule b then b else a
  | .adds => sat (a.toInt + b.toInt)
  | .subs => sat (a.toInt - b.toInt)
  | .abs => if a.msb then -a else a
  | .clz => if a = 0 then 32 else BitVec.ofNat 32 (31 - Nat.log2 a.toNat)
  | .popc => BitVec.ofNat 32 ((List.range 32).countP fun i => a.getLsbD i)
  | .sextb => (a.setWidth 8).signExtend 32
  | .sexth => (a.setWidth 16).signExtend 32
  | .zexth => (a.setWidth 16).setWidth 32
/-- ISAT of ADDS and SUBS. -/
def aluSat (fn : AluFn) (a b : Word) : Bool :=
  let out := fun (x : Int) => decide (x < -2 ^ 31) || decide (2 ^ 31 ≤ x)
  match fn with
  | .adds => out (a.toInt + b.toInt)
  | .subs => out (a.toInt - b.toInt)
  | _ => false
def isat (b : Bool) : Word := if b then 0x1000 else 0
/-- SHI (R291). -/
def shiSpec (k : Nat) (a : Word) (n : Nat) : Word :=
  match k with
  | 0 => a <<< n
  | 1 => a >>> n
  | 2 => a.sshiftRight n
  | _ => a.rotateRight n
/-- ABS to ZEXTH take no second operand. -/
def unary : AluFn → Bool
  | .abs | .clz | .popc | .sextb | .sexth | .zexth => true
  | _ => false
/-- The command of an ALU operation. -/
def aluInstr (fn : AluFn) (c : Fin 5) (h : Hdr) (d a b : BitVec 5) : Instr :=
  match fn with
  | .add => .add c h d a b
  | .sub => .sub c h d a b
  | .and => .and c h d a b
  | .or => .or c h d a b
  | .xor => .xor c h d a b
  | .andn => .andn c h d a b
  | .shl => .shl c h d a b
  | .shr => .shr c h d a b
  | .sar => .sar c h d a b
  | .ror => .ror c h d a b
  | .min => .min c h d a b
  | .max => .max c h d a b
  | .minu => .minu c h d a b
  | .maxu => .maxu c h d a b
  | .adds => .adds c h d a b
  | .subs => .subs c h d a b
  | .abs => .abs c h d a b
  | .clz => .clz c h d a b
  | .popc => .popc c h d a b
  | .sextb => .sextb c h d a b
  | .sexth => .sexth c h d a b
  | .zexth => .zexth c h d a b
def immInstr (fn : ImmFn) (c : Fin 5) (h : Hdr) (d a : BitVec 5) (imm : BitVec 11) : Instr :=
  match fn with
  | .addi => .addi c h d a imm
  | .andi => .andi c h d a imm
  | .ori => .ori c h d a imm
  | .xori => .xori c h d a imm
def immSpec (fn : ImmFn) (a b : Word) : Word :=
  match fn with
  | .addi => a + b
  | .andi => a &&& b
  | .ori => a ||| b
  | .xori => a ^^^ b

/-- R292. -/
def condSpec (k : Nat) (a b : Word) : Bool :=
  match k with
  | 0 => a == b
  | 1 => a != b
  | 2 => a.slt b
  | 3 => a.sle b
  | 4 => b.slt a
  | 5 => b.sle a
  | 6 => a.ult b
  | 7 => a.ule b
  | 8 => b.ult a
  | 9 => b.ule a
  | _ => (a &&& b) != 0
def allLanes (b : Bool) : Byte := if b then 0xFF else 0
/-- R293 on two predicates. -/
def predSpec (fn : PredFn) (a b : Byte) : Byte :=
  match fn with
  | .pand => a &&& b
  | .por => a ||| b
  | .pxor => a ^^^ b
  | .pandn => a &&& ~~~b
  | _ => ~~~a
def predInstr (fn : PredFn) (c : Fin 5) (h : Hdr) (d a b : BitVec 5) : Instr :=
  match fn with
  | .pand => .pand c h d a b
  | .por => .por c h d a b
  | .pxor => .pxor c h d a b
  | .pandn => .pandn c h d a b
  | .pnot => .pnot c h d a b
  | .pmovw => .pmovw c h d a b
  | .wmovp => .wmovp c h d a b

/-- Nothing but core `n` changed. -/
def CoreAlone (s t : State) (n : Nat) : Prop :=
  (∀ m, m ≠ n → t.core m = s.core m) ∧ Regs s t [] ∧ NoEvents s t ∧ Kept s { t with cores := s.cores }

/-- R294. -/
def satW (x : Int) : Word := BitVec.ofInt 32 (max (-2 ^ 31) (min x (2 ^ 31 - 1)))
def outW (x : Int) : Bool := decide (x < -2 ^ 31) || decide (2 ^ 31 ≤ x)
def mulExact (fn : MulFn) (a b d : Word) : Int :=
  match fn with
  | .mulq => (a.toInt * b.toInt + 2 ^ 30) / 2 ^ 31
  | .macq => (a.toInt * b.toInt + d.toInt * 2 ^ 31 + 2 ^ 30) / 2 ^ 31
  | _ => 0
def mulSpec (fn : MulFn) (a b d : Word) : Word :=
  match fn with
  | .mul => a * b
  | .mulh => BitVec.ofInt 32 (a.toInt * b.toInt / 2 ^ 32)
  | .mulhu => BitVec.ofNat 32 (a.toNat * b.toNat / 2 ^ 32)
  | .mac => d + a * b
  | f => satW (mulExact f a b d)
def mulInstr (fn : MulFn) (c : Fin 5) (h : Hdr) (d a b : BitVec 5) : Instr :=
  match fn with
  | .mul => .mul c h d a b
  | .mulh => .mulh c h d a b
  | .mulhu => .mulhu c h d a b
  | .mulq => .mulq c h d a b
  | .macq => .macq c h d a b
  | .mac => .mac c h d a b
/-- R310: quotient, remainder, and the flag DZ or ISAT. -/
def divSpec (sg : Bool) (a b : Word) : Word × Word × Word :=
  if b = 0 then (0xFFFFFFFF, a, 0x2000)
  else if sg then
    (if a = 0x80000000 ∧ b = 0xFFFFFFFF then (0x80000000, 0, 0x1000) else (a.sdiv b, a.srem b, 0))
  else (a / b, a % b, 0)
/-- R311: m(x) + 1. -/
def topBit (sg : Bool) (x : Word) : Nat :=
  let v := if sg then x.toInt.natAbs else x.toNat
  if v = 0 then 0 else Nat.log2 v + 1
def divCycles (ct sg : Bool) (a b : Word) : Nat :=
  if ct then 34
  else if b = 0 ∨ (sg ∧ a = 0x80000000 ∧ b = 0xFFFFFFFF) then 2
  else 2 + (topBit sg a + 1 - topBit sg b)
/-- A division is under way, with the entries of its results, its results and its end. -/
def dividing (n : Nat) (s : State) (sg : Bool) (d a b : Nat) (c : Core) : Core :=
  let r := divSpec sg (c.rdW a) (c.rdW b)
  let key := fun (i : Nat) => if i = 0 then 0 else wKey c i
  { c with div := some ⟨key d, key (d + 1), r.1.toNat, r.2.1.toNat, r.2.2.toNat,
      fcycOf s + divCycles (natBit (s.core n).status.toNat 17) sg (c.rdW a) (c.rdW b), 0xFFFFFFFF, 0xFFFFFFFF⟩ }
/-- A register entry takes a value; 0 stands for w0. -/
def putKey (k : Nat) (v : Word) (c : Core) : Core := if k = 0 then c else { c with w := storeSet 0 c.w k v }
/-- R317 on the numbers that valid words stand for: the result, and DC where it changes. -/
def bcdSpec (fn : BcdFn) (a b : Word) (dc : Bool) : Nat × Option Bool :=
  let x := bcdVal a.toNat
  let y := bcdVal b.toNat
  let k := 10 ^ min b.toNat 8
  match fn with
  | .badd => ((x + y) % 10 ^ 8, some (decide (10 ^ 8 ≤ x + y)))
  | .baddc => ((x + y + b2n dc) % 10 ^ 8, some (decide (10 ^ 8 ≤ x + y + b2n dc)))
  | .bsub => ((if x < y then x + 10 ^ 8 - y else x - y), some (decide (x < y)))
  | .bsubc => ((if x < y + b2n dc then x + 10 ^ 8 - (y + b2n dc) else x - (y + b2n dc)), some (decide (x < y + b2n dc)))
  | .bshl => (x * k % 10 ^ 8, none)
  | .bshr => (x / k, none)
  | .bfromb => (a.toNat, none)
  | .btob => (x, none)
/-- BTOB writes the number itself, the others its eight digits. -/
def bcdWord (fn : BcdFn) (v : Nat) : Word := if fn = .btob then BitVec.ofNat 32 v else BitVec.ofNat 32 (bcdOf v)
def putDc (b : Option Bool) (c : Core) : Core :=
  match b with
  | some true => { c with status := c.status ||| 0x4000 }
  | some false => { c with status := c.status &&& ~~~0x4000 }
  | none => c
/-- R318. -/
def bcdGood (fn : BcdFn) (a b : Word) : Bool :=
  match fn with
  | .badd | .baddc | .bsub | .bsubc => bcdOk a.toNat && bcdOk b.toNat
  | .bfromb => decide (a.toNat ≤ 99999999)
  | _ => bcdOk a.toNat
def bcdInstr (fn : BcdFn) (c : Fin 5) (h : Hdr) (d a b : BitVec 5) : Instr :=
  match fn with
  | .badd => .badd c h d a b
  | .baddc => .baddc c h d a b
  | .bsub => .bsub c h d a b
  | .bsubc => .bsubc c h d a b
  | .bshl => .bshl c h d a b
  | .bshr => .bshr c h d a b
  | .bfromb => .bfromb c h d a b
  | .btob => .btob c h d a b

/-- What an integer load of size code `sz` delivers from its bytes (R295). -/
def loadW (sz : Nat) (bs : List Byte) : Word :=
  let v := natOfBytes bs
  match sz with
  | 0 => (BitVec.ofNat 8 v).signExtend 32
  | 1 => (BitVec.ofNat 8 v).setWidth 32
  | 2 => (BitVec.ofNat 16 v).signExtend 32
  | 3 => (BitVec.ofNat 16 v).setWidth 32
  | _ => BitVec.ofNat 32 v
/-- The load writes w[d], and LDD w[d + 1] from bytes 4 to 7. -/
def putInt (sz d : Nat) (bs : List Byte) (c : Core) : Core :=
  let y := putW d (loadW sz (bs.take 4)) c
  if sz = 5 then putW (d + 1) (loadW 4 (bs.drop 4)) y else y
/-- The bytes an integer store stores. -/
def storeBytes (sz d : Nat) (c : Core) : List Byte :=
  match sz with
  | 0 => bytesOfNat 1 (c.rdW d).toNat
  | 2 => bytesOfNat 2 (c.rdW d).toNat
  | 4 => bytesOfNat 4 (c.rdW d).toNat
  | _ => bytesOfNat 4 (c.rdW d).toNat ++ bytesOfNat 4 (c.rdW (d + 1)).toNat
/-- R296: binary16 widens exactly, binary32 and binary64 are copied, 16 bytes fill a q register. -/
def putFp (sz d : Nat) (bs : List Byte) (c : Core) : Core :=
  let v := natOfBytes bs
  match sz with
  | 0 => putF d (fWiden f16 f32 v) c
  | 3 => putF (d + 1) (v / 2 ^ 64) (putF d (v % 2 ^ 64) c)
  | _ => putF d v c
def half (d : Nat) (c : Core) : FR := fConvert f32 f16 (bitsGet c.status 10 2) ((c.rdF d) % 2 ^ 32)
def fpBytesOf (sz d : Nat) (c : Core) : List Byte :=
  match sz with
  | 0 => bytesOfNat 2 (half d c).bits
  | 1 => bytesOfNat 4 (c.rdF d)
  | 2 => bytesOfNat 8 (c.rdF d)
  | _ => bytesOfNat 8 (c.rdF d) ++ bytesOfNat 8 (c.rdF (d + 1))
/-- The flags of a rounding store (R176), in STATUS. -/
def halfFlags (sz d : Nat) (c : Core) : Word := if sz = 0 then BitVec.ofNat 32 (half d c).fl else 0
/-- A legal SZ of an integer load or store, with D even for 8 bytes (R295); of the FP groups (R296). -/
abbrev legalSz (load : Bool) (sz : BitVec 3) (d : BitVec 5) : Prop :=
  sz.toNat ≤ 5 ∧ (load = false → sz ≠ 1 ∧ sz ≠ 3) ∧ (sz = 5 → d.toNat % 2 = 0)
abbrev legalFp (sz : BitVec 2) (d : BitVec 6) : Prop := sz = 3 → d.toNat % 2 = 0
/-- The bytes of an access (R295, R296). -/
def sizeW (sz : Nat) : Nat := match sz with | 0 | 1 => 1 | 2 | 3 => 2 | 4 => 4 | _ => 8
def sizeF (sz : Nat) : Nat := match sz with | 0 => 2 | 1 => 4 | 2 => 8 | _ => 16
/-- The short address of a local access, and its place (R288). -/
def shortAt (c : Core) (a : BitVec 5) (off : BitVec 8) (size : Nat) : Nat :=
  (((c.rdW a.toNat).toNat + off.toInt * size : Int) % 65536).toNat
def localAt (n : Nat) (c : Core) (e : Nat) : Nat := 0x10000000 + n * 0x100000 + c.bank.toNat % 4 * 0x10000 + e
/-- A local access is aligned, BANK allows it, and what it reads is not uncorrectable. -/
abbrev LocalOk (s : State) (n : Nat) (a : BitVec 5) (off : BitVec 8) (size bit : Nat) : Prop :=
  n < 4 ∧ shortAt (s.core n) a off size % size = 0 ∧ natBit (s.core n).bank.toNat 31 = true ∧
  natBit (s.core n).bank.toNat bit = true ∧
  (bit = 2 → readFault s .F (localAt n (s.core n) (shortAt (s.core n) a off size)) size = none)
/-- A store drops the line that holds it from the core's own line buffers (R342). -/
def dropped (pa : Nat) (c : Core) : Core := { c with lines := c.lines.filter fun l => l.line != pa / 64 }

/-- Of local memory only `bs` at `pa` changed, and of the device only that memory and core `n`, which reads the flags `fl`
with its next bundle. -/
def Stored (s t : State) (n : Nat) (x : Xl) (pa : Nat) (bs : List Byte) (fl : Word) : Prop :=
  (t.core n).tick = moved (raised fl (dropped pa (Fetched x (s.core n)))) ∧
  memBytes t (.lmem pa) bs.length = bs ∧
  (∀ a, a < pa ∨ pa + bs.length ≤ a → storeGet 0 t.lmem a = storeGet 0 s.lmem a) ∧
  (∀ m, m ≠ n → t.core m = s.core m) ∧ Regs s t (if n < 4 then [(fEPn_BUNDLES n).key] else []) ∧ NoEvents s t ∧
  Kept s { t with cores := s.cores, lmem := s.lmem, lmErr := s.lmErr }

/-- EA of a global access (R290); one below 0 lies beyond every capability. -/
def globalAt (c : Core) (k : Nat) (a : BitVec 5) (off : BitVec 4) (size : Nat) : Nat :=
  ((((c.rdC k).base + (c.rdW a.toNat).toNat : Nat) + off.toInt * size : Int) % 2 ^ 64).toNat
/-- The access passes the checks of R290 and its translation, and goes to `y`; `v` is a stored value. -/
abbrev Allowed (s : State) (n : Nat) (a : AccKind) (tagged : Bool) (k : Cap) (ea size v : Nat) (y : Xl) : Prop :=
  (dataAccess s n (s.core n) a tagged k ea size size v).toOption = some y
def keyW (c : Core) (i : Nat) : Nat := if i = 0 then 0 else wKey c i
/-- A read of `size` bytes at `y` is pending. -/
def reading (a : AccKind) (y : Xl) (size : Nat) (kind : LKind) (c : Core) : Core :=
  adSet a y { c with loads := [⟨y.pa, size, kind, 0, none, []⟩] }
/-- The byte at a physical address that is no register page. -/
def byteAt (s : State) (d : Die) (a : Nat) : Byte := (memBytes s (regionOf d a) 1).headD 0
/-- Memory that a core of the F-die may store to: not the booted slot, no ROM, no register page (R31, R531). -/
abbrev Writable (s : State) (pa : Nat) : Prop :=
  (match regionOf .F pa with
   | .saltern _ => true
   | .lmem _ => true
   | .mram o => !mramProtected s o
   | _ => false) = true
/-- Memory whose bytes read without an error (R113). -/
abbrev Readable (s : State) (n pa size : Nat) : Prop :=
  readFault s (coreDie n) pa size = none ∧
  (match regionOf (coreDie n) pa with
   | .saltern _ => s.sal.err == [] && s.sal.tagUe == []
   | .lmem _ => true
   | .mram _ => true
   | .rom _ => true
   | _ => false) = true
/-- What a read of each kind delivers (R295, R296, R382, R393). -/
def delivered (s : State) (n : Nat) (l : PLoad) (bs : List Byte) (c : Core) : Core :=
  let v := natOfBytes bs
  match l.kind with
  | .int sz k1 k2 =>
    let y := putKey k1 (loadW sz (bs.take 4)) c
    if sz = 5 then putKey k2 (loadW 4 (bs.drop 4)) y else y
  | .fp sz i => putFp sz i bs c
  | .cap i =>
    let tag := match regionOf (coreDie n) l.pa with
      | .saltern a => storeGet false s.sal.tag (a / 16)
      | _ => false
    let k : Cap := ⟨tag, BitVec.ofNat 128 v⟩
    putC i ⟨k.live, k.bits⟩ c
  | .ldw k1 k2 => putKey k2 (BitVec.ofNat 32 (v / 2 ^ 32)) (putKey k1 (BitVec.ofNat 32 v) c)
  | .panq _ _ => c
/-- A read has room: a slot for a read of code MRAM, and one of the port's 32 requests (R122, R333). -/
abbrev Room (s : State) (n : Nat) : Prop := (s.core n).fills.length ≤ 1 ∧ (n < 4 → masterBusy s (77 + n) ≤ 31)
def notPanq (l : PLoad) : Bool := match l.kind with | .panq _ _ => false | _ => true

/-- Of memory only `bs` at `pa` changed, with the tag of its granule, and of the device only memory and core `n`, which
reads the flags `fl` with its next bundle. -/
def StoredAt (s t : State) (n : Nat) (x y : Xl) (a : AccKind) (bs : List Byte) (tag : Bool) (fl : Word) : Prop :=
  (t.core n).tick = moved (raised fl (dropped y.pa (adSet a y (Fetched x (s.core n))))) ∧
  memBytes t (regionOf .F y.pa) bs.length = bs ∧
  (∀ b, b < y.pa ∨ y.pa + bs.length ≤ b → byteAt t .F b = byteAt s .F b) ∧
  (y.pa < salSize → storeGet false t.sal.tag (y.pa / 16) = tag) ∧
  (∀ g, g ≠ y.pa / 16 → storeGet false t.sal.tag g = storeGet false s.sal.tag g) ∧
  (∀ m, m ≠ n → t.core m = s.core m) ∧ Regs s t (if n < 4 then [(fEPn_BUNDLES n).key] else []) ∧ NoEvents s t ∧
  Kept s { t with cores := s.cores, lmem := s.lmem, lmErr := s.lmErr, mram := s.mram, sal :=
    { t.sal with mem := s.sal.mem, err := s.sal.err, tag := s.sal.tag, tagUe := s.sal.tagUe, peak := s.sal.peak } }

/-- The data of a read reached core `n`; the port that read the Saltern shows it was in flight. -/
def Returned (s t : State) (n : Nat) : Prop :=
  (∀ m, m ≠ n → t.core m = s.core m) ∧ Regs s t [] ∧ NoEvents s t ∧
  Kept s { t with cores := s.cores, sal := { t.sal with peak := s.sal.peak } }

/-- A field of a capability (R380). -/
def fieldOf (k : Cap) (sel : Nat) : Word :=
  match sel with
  | 0 => BitVec.ofNat 32 k.base
  | 1 => BitVec.ofNat 32 (k.base / 2 ^ 32)
  | 2 => BitVec.ofNat 32 k.len
  | 3 => BitVec.ofNat 32 (k.len / 2 ^ 32)
  | 4 => BitVec.ofNat 32 k.perms
  | 5 => BitVec.ofNat 32 k.otype
  | _ => if k.tag then 1 else 0
/-- KWRS: DFCAP and ESTKCAP are held once DFLOCK is set (R379). -/
def putSc (i : Nat) (k : Cap) (c : Core) : Core :=
  if c.dfvec.getLsbD 0 ∧ (i = 2 ∨ i = 3) then c else { c with sc := storeSet Cap.zero c.sc i k }
/-- Tagged and unsealed; a key that moreover holds SEAL (R381). -/
abbrev Open (k : Cap) : Prop := k.live = true ∧ k.sealed = false
abbrev Key (k : Cap) : Prop := Open k ∧ k.perm pSEAL = true

/-- The branch-target buffer and the return stack put back. -/
def unlearned (o c : Core) : Core := 
  { c with btb := o.btb, ras := o.ras, rasTop := o.rasTop, rasDepth := o.rasDepth }
def transfer (xf : Xfer) (c : Core) : Core := { c with xfer := some xf }
/-- The delay slot of a taken transfer has issued (R298): the call's link in the caller's frame, the window, the target. -/
def slotDone (xf : Xfer) (next : Nat) (c : Core) : Core :=
  let y := match xf.kind with
    | .call => (putW 31 (BitVec.ofNat 32 next) c).rotateIn
    | .callr => (putW 31 (BitVec.ofNat 32 next) c).rotateIn
    | .ret => c.rotateOut
    | _ => c
  { y with pc := xf.target, xfer := none, step := false, issued := true, rasWrong := none }
/-- A transfer has issued and its delay slot comes next; the predictor apart, nothing else changed. -/
def Transferred (s t : State) (n : Nat) (x : Xl) (xf : Xfer) : Prop :=
  unlearned (s.core n) (t.core n) = moved (transfer xf (Fetched x (s.core n))) ∧
  (∀ m, m ≠ n → t.core m = s.core m) ∧
  Regs s t (if n < 4 then [(fEPn_BUNDLES n).key, (fEPn_MISPRED n).key, (fEPn_BTBHIT n).key, (fEPn_RASMISS n).key] else []) ∧
  NoEvents s t ∧ Kept s { t with cores := s.cores }

/-- Level 0 when none is active, else level 1 (R300). -/
def loopLevel (c : Core) : Nat := if c.lctl.getLsbD 0 then 1 else 0
/-- The registers of a level take a loop of `count` iterations from `first` to `last`, in the present frame. -/
def looped (first last count : Nat) (c : Core) : Core :=
  let i := loopLevel c
  { c with lstart := storeSet 0 c.lstart i first, lend := storeSet 0 c.lend i last, lcnt := storeSet 0 c.lcnt i count,
           lctl := if i = 0 then (c.lctl &&& 0xFFFFE0FE) ||| BitVec.ofNat 32 (c.wb * 256 + 1)
                   else (c.lctl &&& 0xFFE0FFFD) ||| BitVec.ofNat 32 (c.wb * 65536 + 2) }
/-- The end of an iteration at level `i` (R301). -/
def loopBack (i : Nat) (c : Core) : Core :=
  { c with lcnt := storeSet 0 c.lcnt i (storeGet 0 c.lcnt i - 1), pc := storeGet 0 c.lstart i, step := false, issued := true,
           rasWrong := none }
def loopOver (i : Nat) (c : Core) : Core :=
  moved { c with lcnt := storeSet 0 c.lcnt i 0, lctl := if i = 0 then c.lctl &&& ~~~1 else c.lctl &&& ~~~2 }
/-- A repetition of the next bundle is recorded (R304); RCNT, RNI are used up. -/
def repeating (ni : Bool) (k addr : Nat) (c : Core) : Core :=
  { c with rep := some ⟨ni, k, addr, none, (addr + 4) % 2 ^ 32⟩, span := 0, status := c.status &&& 0x3FFFFF }
/-- The count of a REP: RCNT where it is not 0, else w[A] or COUNT (R304, R305). -/
def repCount (c : Core) (reg : Bool) (a : BitVec 5) (count : BitVec 8) : Nat :=
  let r := natBits c.status.toNat 23 9
  if r ≠ 0 then r else if reg then (c.rdW a.toNat).toNat else if count = 0 then 256 else count.toNat
/-- Core `c` has taken interrupt line `j` at the boundary `b` (R355, R356): the line is no longer pending. -/
def interrupted (c : Core) (b : Bound) (v : Nat × Bool × Nat) (j : Nat) : Core :=
  { entered c b v (BitVec.ofNat 32 (2 ^ 31 + b.flags + 0x30 + j)) 0 [] with ipend := natBitSet c.ipend j false, step := c.step }
/-- A REPN is under way and its deferral span has reached the ceiling of the core (R364). -/
def atCeiling (s : State) (n : Nat) : Bool :=
  match (s.core n).rep with
  | some r => r.ni && decide (spanLimit s n ≤ (s.core n).span)
  | none => false
/-- The state without the repetition that is under way. -/
def unrepeated (s : State) (n : Nat) : State := s.mapCore n fun c => { c with rep := none }

/-- STATUS of a core with some bits cleared and some set. -/
def withStat (clear set : Word) (c : Core) : Core := { c with status := (c.status &&& ~~~clear) ||| set }
/-- An arrival at the event flag (R308, R413): it ends an EVW that waits; else EVF is set, and EVOVR where EVF was already
1 before this CCLK. -/
def flagged (now : Nat) (c : Core) : Core :=
  match c.wait with
  | some (.evw _) => { withStat 0x80200 0 c with wait := none, evfCyc := now + 1 }
  | _ => { withStat 0 (if c.status.getLsbD 19 ∧ c.evfCyc ≠ now + 1 then 0xC0000 else 0x80000) c with evfCyc := now + 1 }
/-- The target of WTA and WTT. -/
def waitTarget (c : Core) (a : BitVec 5) : Nat := (c.rdW a.toNat).toNat + (c.rdW (a.toNat + 1)).toNat * 2 ^ 32
/-- WTA and WTT at issue (R309): at once when the target is reached, which sets WAITPAST at its first issue only. -/
def timedWait (reached : Bool) (w : Wait) (c : Core) : Core :=
  if reached then withStat 0x300000 (if c.status.getLsbD 21 then 0 else 0x100000) c
  else { withStat 0x100000 0 c with wait := some w }
def waiting (w : Wait) (c : Core) : Core := { c with wait := some w }
def unwaiting (c : Core) : Core := { c with wait := none }
/-- The state in which core `n` does not wait, or runs no task. -/
def unwaited (s : State) (n : Nat) : State := s.mapCore n unwaiting
def ungrouped (s : State) (n : Nat) : State := s.mapCore n fun c => { c with group := [] }
/-- Execution goes back to the code that a level interrupted (R360). -/
def returned (l : SaveLevel) (c : Core) : Core :=
  { c with sb := c.sb.drop 1, status := l.estat, pcc := l.epcc, gie := l.gie, ni := l.ni, nib := l.nib, span := 0, pc := l.epc,
           wb := (c.wb + 31) % 32, wres := c.wres - 1, step := false, issued := true, rasWrong := none }
/-- A level from which the return needs no fill and no replay, to code without a delay slot and without NI. -/
abbrev PlainLevel (c : Core) (l : SaveLevel) : Prop :=
  c.df = none ∧ c.sb.head? = some l ∧ l.replay = [] ∧ c.wres ≠ 1 ∧ l.ni = false ∧ l.cause.getLsbD 30 = false ∧ c.ipend = 0 ∧
  c.waiting = []

/-- WRSTAT keeps RCNT, RNI, WRESUME, WAITPAST, EVF, EVTO and the reserved bits (R284). -/
def statRW : Word := 0x7FC1F
/-- SETBANK's window of core `n`, and what BANK holds after it (R289). -/
def windowAt (n sel : Nat) : Nat := 0x10000000 + n * 0x100000 + sel * 0x10000
def bankOpen (k : Cap) (sel : Nat) (c : Core) : Core :=
  { c with bank := 0x80000004 ||| (if k.perm pSTORE then 8 else 0) ||| BitVec.ofNat 32 sel }
/-- The entries of the translation buffer that an invalidation removes (R396). -/
def tlbiOf (n : Nat) (c : Core) (a b : BitVec 5) : Tlbi :=
  ⟨b.toNat, if b = 1 then 0 else (c.rdW a.toNat).toNat % 2 ^ 28,
    if b = 1 then (c.rdW a.toNat).toNat % 2 ^ 12 else c.asid, n⟩
def invalidated (x : Tlbi) (e : TlbEnt) : Bool :=
  let global := natBit e.attr.toNat 5
  let sameAsid := natBits e.attr.toNat 16 12 == x.asid
  let covers := tlbCovers e (x.arg * 4096)
  match x.kind with
  | 0 => true
  | 1 => !global && sameAsid
  | 2 => covers && (global || sameAsid)
  | _ => covers
def withoutTlb (x : Tlbi) (c : Core) : Core := { c with tlb := c.tlb.filter fun e => !invalidated x e.2 }
/-- No invalidation of core `n` waits at another core, and each of them has room (R396, R397). -/
abbrev NoTlbi (s : State) (n : Nat) : Prop := ∀ i : Fin 4, i.val ≠ n → (s.core i.val).tlbq = []
def cswTo (k : Cap) (c : Core) : Core := { c with pcc := k }
def linesEmpty (c : Core) : Core := { c with lines := [] }

/-- The staged entry (R392). -/
def staged (c : Core) : TlbEnt := ⟨c.tlbVa, c.tlbPa, c.tlbAttr⟩
/-- The TLB commands on a core (R392). -/
def tlbWritten (i : Nat) (c : Core) : Core := { c with tlb := storeSet TlbEnt.zero c.tlb i (staged c) }
def tlbNextWritten (c : Core) : Core := { tlbWritten c.tlbNext c with tlbNext := (c.tlbNext + 1) % 64 }
def tlbStaged (c : Core) : Core :=
  let e := storeGet TlbEnt.zero c.tlb c.tlbIdx
  { c with tlbVa := e.va, tlbPa := e.pa, tlbAttr := e.attr }
def tlbProbed (c : Core) : Core :=
  match (List.range 64).find? fun j => tlbMatch c.asid (storeGet TlbEnt.zero c.tlb j) (c.tlbVa * 4096) with
  | some j => { c with tlbIdx := j, tlbMiss := false }
  | none => { c with tlbMiss := true }
/-- Core `n` runs with SYS. -/
abbrev SysRuns (s : State) (n : Nat) : Prop :=
  coreRunning s n = true ∧ coreStopped s n = false ∧ (s.core n).pcc.perm pSYS = true

/-- STATUS fields of floating-point flags; SAT is ISAT (R297). -/
def fpStat (fl : Nat) : Word := BitVec.ofNat 32 (fl % 32) ||| (if natBit fl 5 then 0x1000 else 0)
def fpFmt (dbl : Bool) : FFmt := if dbl then f64 else f32
/-- STATUS.RND; the low bits of f[i] that a format reads. -/
def rndOf (c : Core) : Rnd := bitsGet c.status 10 2
def fpOp (dbl : Bool) (c : Core) (i : BitVec 6) : Nat := if dbl then c.rdF i.toNat else c.rdF i.toNat % 2 ^ 32
/-- R297, FDIV apart. -/
def fpSpec (dbl : Bool) (fn : FpFn) (rnd : Rnd) (a b d : Nat) : FR :=
  let f := fpFmt dbl
  let v := fun (n : Nat) => fDecode f n
  match fn with
  | .fadd => fAddV f rnd (v a) (v b)
  | .fsub => fAddV f rnd (v a) (fvNeg (v b))
  | .fmul => fMulV f rnd (v a) (v b)
  | .fma => fFmaV f rnd (v a) (v b) (v d)
  | .fnma => fFmaV f rnd (fvNeg (v a)) (v b) (v d)
  | .fmin => fMinMax f false a b
  | .fmax => fMinMax f true a b
  | .fdiv => fDivV f rnd (v a) (v b)
def fpInstr (dbl : Bool) (fn : FpFn) (c : Fin 5) (h : Hdr) (d a b : BitVec 6) : Instr :=
  match dbl, fn with
  | false, .fadd => .faddS c h d a b
  | false, .fsub => .fsubS c h d a b
  | false, .fmul => .fmulS c h d a b
  | false, .fdiv => .fdivS c h d a b
  | false, .fma => .fmaS c h d a b
  | false, .fmin => .fminS c h d a b
  | false, .fmax => .fmaxS c h d a b
  | false, .fnma => .fnmaS c h d a b
  | true, .fadd => .faddD c h d a b
  | true, .fsub => .fsubD c h d a b
  | true, .fmul => .fmulD c h d a b
  | true, .fdiv => .fdivD c h d a b
  | true, .fma => .fmaD c h d a b
  | true, .fmin => .fminD c h d a b
  | true, .fmax => .fmaxD c h d a b
  | true, .fnma => .fnmaD c h d a b
/-- A result in f[d] with its flags. -/
def fpPut (d : Nat) (r : FR) (c : Core) : Core := raised (fpStat r.fl) (putF d r.bits c)
/-- A division or square root is under way. -/
def fpStart (x : PFdiv) (c : Core) : Core := { c with fdivs := [x] }
/-- FNEG and FABS: a NaN gives the canonical NaN (R178). -/
def fpSign (dbl neg : Bool) (a : Nat) : FR :=
  let f := fpFmt dbl
  let top := if dbl then 2 ^ 63 else 2 ^ 31
  if isNaN (fDecode f a) then ⟨fNaN f, sigFl (fDecode f a)⟩
  else ⟨if neg then (if top ≤ a then a - top else a + top) else a % top, 0⟩
/-- The FUN group, the roots apart (R297). -/
def funSpec (fn : FunFn) (rnd : Rnd) (v : Nat) : FR :=
  match fn with
  | .negS => fpSign false true (v % 2 ^ 32)
  | .negD => fpSign true true v
  | .absS => fpSign false false (v % 2 ^ 32)
  | .absD => fpSign true false v
  | .mov => ⟨v, 0⟩
  | .cvtDS => fConvert f32 f64 rnd (v % 2 ^ 32)
  | .cvtSD => fConvert f64 f32 rnd v
  | .cvtHS => fConvert f32 f16 rnd (v % 2 ^ 32)
  | .cvtSH => fConvert f16 f32 rnd (v % 2 ^ 16)
  | .sqrtS => fSqrtV f32 rnd (fDecode f32 (v % 2 ^ 32))
  | .sqrtD => fSqrtV f64 rnd (fDecode f64 v)
def funInstr (fn : FunFn) (c : Fin 5) (h : Hdr) (d a : BitVec 6) : Instr :=
  match fn with
  | .sqrtS => .fsqrtS c h d a
  | .sqrtD => .fsqrtD c h d a
  | .negS => .fnegS c h d a
  | .negD => .fnegD c h d a
  | .absS => .fabsS c h d a
  | .absD => .fabsD c h d a
  | .mov => .fmov c h d a
  | .cvtDS => .fcvtDS c h d a
  | .cvtSD => .fcvtSD c h d a
  | .cvtHS => .fcvtHS c h d a
  | .cvtSH => .fcvtSH c h d a
/-- Sign and copy operations deliver to the second bundle, conversions to the fourth (R327). -/
def funLate (fn : FunFn) : Nat := match fn with | .cvtDS | .cvtSD | .cvtHS | .cvtSH => 4 | _ => 2
/-- FXFER out of f[A] and into f[D] (R182, R297). -/
def toW (fn : XferFn) (v : Nat) : FR :=
  let int := fun (r : Int × Nat) => (⟨(r.1 % 2 ^ 32).toNat, r.2⟩ : FR)
  match fn with
  | .cvtws => int (fToInt (fDecode f32 (v % 2 ^ 32)) 0)
  | .cvtqs => int (fToInt (fDecode f32 (v % 2 ^ 32)) 31)
  | .cvtwd => int (fToInt (fDecode f64 v) 0)
  | _ => ⟨v % 2 ^ 32, 0⟩
def fromW (fn : XferFn) (rnd : Rnd) (w : Word) : FR :=
  match fn with
  | .cvtsw => fOfInt f32 rnd w.toInt 0
  | .cvtsq => fOfInt f32 rnd w.toInt (-31)
  | .cvtdw => fOfInt f64 rnd w.toInt 0
  | _ => ⟨w.toNat, 0⟩
/-- The command of each FXFER operation answers a next state of which `P` holds. -/
def EndsXfer (fn : XferFn) (c : Fin 5) (h : Hdr) (d a : BitVec 6) (s : State) (P : State → Prop) : Prop :=
  match fn with
  | .mvwf => Ends (.fmvwf c h d a) s P
  | .mvfw => Ends (.fmvfw c h d a) s P
  | .cvtws => Ends (.fcvtws c h d a) s P
  | .cvtsw => Ends (.fcvtsw c h d a) s P
  | .cvtqs => Ends (.fcvtqs c h d a) s P
  | .cvtsq => Ends (.fcvtsq c h d a) s P
  | .cvtwd => Ends (.fcvtwd c h d a) s P
  | .cvtdw => Ends (.fcvtdw c h d a) s P
def outOfF : XferFn → Bool
  | .mvwf | .cvtws | .cvtqs | .cvtwd => true
  | _ => false

/-- Lane counts and widths (R319); lane `i` of a value. -/
def lanesOf (t : QTy) : Nat := if t = .qh then 8 else 4
def laneBits (t : QTy) : Nat := if t = .qh then 16 else 32
def qElem (t : QTy) (v i : Nat) : Nat := v / 2 ^ (laneBits t * i) % 2 ^ laneBits t
def laneInt' (t : QTy) (v : Nat) : Int := if v < 2 ^ (laneBits t - 1) then v else (v : Int) - 2 ^ laneBits t
/-- The lanes that execute (R319). -/
def active (c : Core) (h : Hdr) : Byte := (rdB c h.gp.toNat) ^^^ (if h.gn then 0xFF else 0)
/-- QI wraps, QX and QH saturate with SAT (R320). -/
def laneNarrow (t : QTy) (x : Int) : FR :=
  let b := 2 ^ (laneBits t - 1)
  let bits := fun (z : Int) => (z % (2 * b : Nat)).toNat
  if t = .qi then ⟨bits x, 0⟩
  else if x < -(b : Nat) then ⟨bits (-(b : Nat)), 32⟩ else if (b : Nat) ≤ x then ⟨bits ((b : Nat) - 1), 32⟩ else ⟨bits x, 0⟩
/-- Round half up at `n` fraction bits. -/
def roundUp (x : Int) (n : Nat) : Int := (x + 2 ^ (n - 1)) / 2 ^ n
/-- One lane of an elementwise operation (R320). -/
def laneSpec (t : QTy) (fn : QFn) (rnd : Rnd) (a b d : Nat) : FR :=
  let x := laneInt' t a
  let y := laneInt' t b
  let z := laneInt' t d
  let n := laneBits t - 1
  match fn with
  | .and => ⟨a &&& b, 0⟩
  | .or => ⟨a ||| b, 0⟩
  | .xor => ⟨a ^^^ b, 0⟩
  | .add => if t = .qf then fAddV f32 rnd (fDecode f32 a) (fDecode f32 b) else laneNarrow t (x + y)
  | .sub => if t = .qf then fAddV f32 rnd (fDecode f32 a) (fvNeg (fDecode f32 b)) else laneNarrow t (x - y)
  | .mul =>
    if t = .qf then fMulV f32 rnd (fDecode f32 a) (fDecode f32 b)
    else if t = .qi then laneNarrow t (x * y) else laneNarrow t (roundUp (x * y) n)
  | .mac =>
    if t = .qf then fFmaV f32 rnd (fDecode f32 a) (fDecode f32 b) (fDecode f32 d)
    else if t = .qi then laneNarrow t (x * y + z) else laneNarrow t (roundUp (x * y + z * 2 ^ n) n)
  | .min => if t = .qf then fMinMax f32 false a b else ⟨if x ≤ y then a else b, 0⟩
  | .max => if t = .qf then fMinMax f32 true a b else ⟨if y ≤ x then a else b, 0⟩
  | .abs => if t = .qf then fpSign false false a else laneNarrow t (if x < 0 then -x else x)
  | .neg => if t = .qf then fpSign false true a else laneNarrow t (-x)
  | _ => ⟨0, 0⟩
/-- The active lanes of q[d] among `lanes` take values; a half without one stays as it is. -/
def putLanes (t : QTy) (act : Nat → Bool) (val : Nat → Nat) (d : Nat) (c : Core) : Core :=
  let h := lanesOf t / 2
  let mix := fun (k : Nat) => (List.range h).foldl (fun v i =>
    v + (if act (i + k) then val (i + k) else qElem t (c.rdQ d) (i + k)) % 2 ^ laneBits t * 2 ^ (laneBits t * i)) 0
  let lo := (List.range h).any fun i => act i
  let hi := (List.range h).any fun i => act (i + h)
  let y := if lo then putF (2 * d) (mix 0) c else c
  if hi then putF (2 * d + 1) (mix h) y else y
/-- The flags of all active lanes. -/
def laneFlags (t : QTy) (act : Nat → Bool) (fl : Nat → Nat) : Nat :=
  (List.range (lanesOf t)).foldl (fun m i => if act i then m ||| fl i else m) 0
def elem : QFn → Bool
  | .cmp _ | .sum => false
  | _ => true
/-- The command of each vector operation answers a next state of which `P` holds. -/
def EndsQ (fn : QFn) (c : Fin 5) (h : Hdr) (ty : QTy) (d a b : BitVec 5) (s : State) (P : State → Prop) : Prop :=
  match fn with
  | .add => Ends (.qadd c h ty d a b) s P
  | .sub => Ends (.qsub c h ty d a b) s P
  | .mul => Ends (.qmul c h ty d a b) s P
  | .mac => Ends (.qmac c h ty d a b) s P
  | .min => Ends (.qmin c h ty d a b) s P
  | .max => Ends (.qmax c h ty d a b) s P
  | .abs => Ends (.qabs c h ty d a b) s P
  | .neg => Ends (.qneg c h ty d a b) s P
  | .sum => Ends (.qsum c h ty d a b) s P
  | .and => Ends (.qand c h ty d a b) s P
  | .or => Ends (.qor c h ty d a b) s P
  | .xor => Ends (.qxor c h ty d a b) s P
  | .cmp cond => Ends (.qcmp c h ty cond d a b) s P
/-- Delays of the vector groups (R327). -/
def qLate (t : QTy) (fn : QFn) : Nat :=
  match fn with
  | .cmp _ => 2
  | .sum => if t = .qf then 6 else 2
  | .mul | .mac => if t = .qf then 4 else 3
  | _ => if t = .qf then 4 else 2
/-- The elementwise result. -/
def elemDone (t : QTy) (fn : QFn) (h : Hdr) (d a b : Nat) (y : Core) : Core :=
  let act := fun (i : Nat) => (active y h).getLsbD i
  let r := fun (i : Nat) => laneSpec t fn (rndOf y) (qElem t (y.rdQ a) i) (qElem t (y.rdQ b) i) (qElem t (y.rdQ d) i)
  raised (fpStat (laneFlags t act fun i => (r i).fl)) (putLanes t act (fun i => (r i).bits) d y)
/-- QCMP: the byte of its lanes, and its flags. -/
def cmpDone (t : QTy) (cond : Nat) (h : Hdr) (d a b : Nat) (y : Core) : Core :=
  let act := fun (i : Nat) => (active y h).getLsbD i
  let r := fun (i : Nat) =>
    if t = .qf then fCmpV cond (fDecode f32 (qElem t (y.rdQ a) i)) (fDecode f32 (qElem t (y.rdQ b) i))
    else
      let k := laneInt' t (qElem t (y.rdQ a) i) - laneInt' t (qElem t (y.rdQ b) i)
      (match cond with
       | 0 => k == 0
       | 1 => k != 0
       | 2 => decide (k < 0)
       | 3 => decide (k ≤ 0)
       | 4 => decide (0 < k)
       | 5 => decide (0 ≤ k)
       | 6 => false
       | _ => true, 0)
  raised (fpStat (laneFlags t act fun i => (r i).2))
    (putP d (BitVec.ofNat 8 ((List.range (lanesOf t)).foldl (fun v i => if act i && (r i).1 then v + 2 ^ i else v) 0)) y)
/-- QSUM of the integer types: the sum of the active lanes in lane 0. -/
def sumDone (t : QTy) (h : Hdr) (d a : Nat) (y : Core) : Core :=
  let act := fun (i : Nat) => (active y h).getLsbD i
  let r := laneNarrow t ((List.range (lanesOf t)).foldl (fun v i => if act i then v + laneInt' t (qElem t (y.rdQ a) i) else v) 0)
  raised (fpStat r.fl) (putLanes t (fun i => i == 0) (fun _ => r.bits) d y)
/-- QSUM of QF: the combine of R186 over pairs. -/
def sumFDone (h : Hdr) (d a : Nat) (y : Core) : Core :=
  let r := qsumF (rndOf y) (active y h).toNat (y.rdQ a)
  raised (fpStat r.fl) (putLanes .qf (fun i => i == 0) (fun _ => r.bits) d y)
/-- QSRCH (R321). -/
def searchDone (ty mx : Bool) (h : Hdr) (d w a : Nat) (y : Core) : Core :=
  let act := (active y h).toNat
  let base := (y.rdW (w + 1)).toNat
  let z := match searchTake ty mx act (y.rdQ a) (y.rdF d % 2 ^ 32) (y.rdW w).toNat base with
    | some r => putW w (BitVec.ofNat 32 r.2) (putF d r.1 y)
    | none => y
  raised (fpStat (searchFlags ty act (y.rdQ a))) (putW (w + 1) (BitVec.ofNat 32 (base + 4)) z)

/-- A line is in the line buffers, the most recently used of at most 32 (R333). -/
def filled (s : State) (n line : Nat) (c : Core) : Core :=
  { c with fills := [], lines := (⟨line, lineBytes s n line⟩ :: c.lines.filter fun l => l.line != line).take 32 }
/-- DOUBLE_FAULT: the slot holds the interrupted code and the cause, the handler runs at DFVEC under DFCAP (R366, R367). -/
def doubleFaulted (c : Core) (cause info : Nat) : Core :=
  let x : DfSlot := ⟨c.pc, c.status, c.pcc, c.rdC 15, cause, info, c.gie, abandoned c⟩
  { c with asm := [], fq := [], loads := [], fdivs := [], repOff := none, df := some x, dfLast := x, gie := false, c := storeSet Cap.zero c.c 15 (c.rdS 3),
           pcc := c.rdS 2, pc := c.dfvec.toNat / 4 * 4, ni := false, span := 0, status := c.status &&& 0x1FFFFF }

/-- Every context but `n` is as before. -/
abbrev OtherCtx (s t : State) (n : Nat) : Prop := ∀ m, m ≠ n → ctxOf t m = ctxOf s m

/-- An operation is done (R73): CRY_RESULT, CRY_RESULT2 and CRY_EFFECT hold its answer, OPBUSY is 0 and OP_DONE is pending;
of the registers these and `own` changed, and the pages of `pgs` posted. -/
abbrev Answered (s t : State) (code res slot res2 effect : Nat) (own pgs : List Nat) : Prop :=
  t.rd rCRY_RESULT = BitVec.ofNat 32 (code * 2 ^ 24 + res * 2 ^ 20 + slot * 2 ^ 8) ∧
  t.rd rCRY_RESULT2 = BitVec.ofNat 32 res2 ∧ t.rd64 rCRY_EFFECT = effect % 2 ^ 64 ∧ t.cry.op = none ∧
  t.flag fCRY_STAT_OPBUSY = false ∧ t.flag fCRY_STAT_CFGREFUSED = s.flag fCRY_STAT_CFGREFUSED ∧
  t.flag fCRY_STAT_TTVALID = s.flag fCRY_STAT_TTVALID ∧ pendBit t cryPg 0 = true ∧
  RegsEv s t ([rCRY_RESULT, rCRY_RESULT2, rCRY_EFFECT, rCRY_EFFECT + 1, rCRY_STAT] ++ own) pgs
/-- An operation that changes no context (R74): NADMIT and everything else stay, a free value apart. -/
abbrev NoContext (s t : State) : Prop :=
  t.fld fCRY_STAT_NADMIT = s.fld fCRY_STAT_NADMIT ∧
  Kept s { t with cry := { t.cry with op := s.cry.op }, sal := { t.sal with peak := s.sal.peak }, free := s.free }
/-- NADMIT counts the contexts that are not FREE (R101). -/
abbrev Counted (t : State) : Prop := t.fld fCRY_STAT_NADMIT = (t.cry.ctx.countP fun e => e.2.st != .free) % 16384
/-- The Crystallizer's other parts. -/
abbrev OnlyCtx (s t : State) : Prop := { t.cry with ctx := s.cry.ctx, op := s.cry.op } = s.cry
/-- No stored word reads with an error. -/
abbrev Clean (s : State) : Prop := s.sal.err = [] ∧ s.sal.tagUe = []

/-- The staging registers hold the words of `d`. -/
abbrev Staged (t : State) (d : List Word) : Prop := ∀ j : Fin 16, t.rd (rCRY_STAGEi j.val) = dW d j.val
/-- The staging registers. -/
def stageRegs : List Nat := (List.range 16).map rCRY_STAGEi

/-- The candidate and every other context whose load is counted, as far as they launch in a slot. -/
def together (s : State) (n : Nat) (d : List Word) (slot : Nat) : List (List Word × Cost) :=
  ((d, listCost s d) :: (others s n).map fun e => e.2).filter fun e => xFalls e.1 slot

/-- The hold of the fields that descriptor `d` of context `n` owns (R267). -/
def heldBy (cause n : Nat) (d : List Word) (first : Nat) (stop : Option Nat) : Hold :=
  ⟨cause, n, n, xFphase d, xNph d, xFmask d, first, stop⟩
/-- A SUSPENDED context's hold ends before the frame of tick `t`. -/
def released (n t : Nat) (h : Hold) : Hold := if h.cause = 2 ∧ h.ctx = n then h.until t else h

/-- The row has done `P`, and the cores go on from there. -/
def Pumped (t : State) (P : State → Prop) : Prop := ∃ u, P u ∧ t = pumpAll u
/-- A launch point of an enabled Crystallizer with nothing left over: no launch runs, no background order runs and no
command waits for an application or a refusal. -/
abbrev Fresh (s : State) : Prop :=
  tbEn s = true ∧ s.tb.ticks = true ∧ frozen s cryPg = false ∧ s.cry.launches = [] ∧ jOrder s = [] ∧
  (∀ p : Fin 4, (panOf s p.val).run = none) ∧ (∀ c : Fin 4, (s.core c.val).group = [] ∧ (s.core c.val).waiting = [] ∧
  coreStopped s c.val = false)
/-- A background order that runs on a pan yields: at once while it is in setup or its strip has not started, else at its next
strip commit (R146, R214, R517). -/
def yieldsNow (s : State) (x : Pan) : Pan :=
  match x.run with
  | some o => if o.launched then x else if x.go = false ∨ inSetup s x o then x.setAside o else { x with yielding := true }
  | none => x
abbrev AllYield (s t : State) : Prop := ∀ p : Fin 4, panOf t p.val = yieldsNow s (panOf s p.val)
/-- What every launch point leaves in the parts of the timebase and of the Crystallizer beside its launches (R87, R214). -/
abbrev Pointed (s u : State) (l : List Launch) (ids : List (Nat × Nat)) : Prop :=
  u.tb = { s.tb with ticks := false } ∧
  { u.cry with ctx := s.cry.ctx } = { s.cry with lastLaunch := fcycOf s, lastTick := tickNo s, lateDone := false, launches := l } ∧
  u.tj = { s.tj with launched := s.tj.launched ++ ids } ∧ NoEvents s u
/-- Tasks wait at a core. -/
def withTasks (ts : List Task) (c : Core) : Core :=
  { c with waiting := c.waiting ++ ts, ipend := natBitSet c.ipend 16 true }
/-- The tasks of one launch signal join core `c`, and LAUNCH is pending there (R89, R354). -/
abbrev Signalled (s u : State) (c : Nat) (ts : List Task) : Prop :=
  u.core c = withTasks ts (s.core c) ∧ (∀ m, m ≠ c → u.core m = s.core m)
/-- A launch that has just started (R91). -/
def started (s : State) (n : Nat) (d : List Word) : Launch :=
  { ctx := n, tick := tickNo s, desc := d, limit := (ctxOf s n).costAt (tickNo s), sum := Cost.zero, next := 0, live := 0,
    stopped := false, taskLeft := xTask d, dead := false, cyc := fcycOf s }
/-- The header of a mailbox to which no command is applied (R95). -/
def emptyMail (s : State) : List Byte :=
  bytesOfNat 4 0 ++ bytesOfNat 4 0 ++ bytesOfNat 8 (tickNo s) ++ bytesOfNat 8 (angleOf s) ++ List.replicate 40 0

/-- The 64 bytes at `a` of the Saltern are `bs`, and the rest of its store is as before. -/
abbrev MailWritten (s u : State) (a : Nat) (bs : List Byte) : Prop :=
  salBytes u a bs.length = bs ∧ (∀ k, k < a ∨ a + bs.length ≤ k → salByte u k = salByte s k) ∧
  { u.sal with mem := s.sal.mem, err := s.sal.err, tag := s.sal.tag, tagUe := s.sal.tagUe, peak := s.sal.peak } = s.sal

/-- A complete launch sets the count of abandonments to 0 (R93). -/
def fresh (c : Ctx) : Ctx := { c with misses := 0 }
/-- No word of the 64 bytes at `a` is remapped to a spare (R115). -/
abbrev rmapFree (s : State) (a : Nat) : Prop := ∀ i : Fin 16, rmapValid s i.val = false ∨ rmapWord s i.val < a / 8 ∨ (a + 63) / 8 < rmapWord s i.val

/-- No order waits in a queue of admitted orders (R144). -/
abbrev NoneQueued (s : State) : Prop :=
  s.pan.chainq = [] ∧ s.pan.pans.all (fun e => e.2 != Pan.empty && e.2.lq.isEmpty) = true
/-- An abandoned launch issues no further order (R92). -/
def ended (l : Launch) : Launch := { l with stopped := true, dead := true }
def missed (c : Ctx) : Ctx := { c with misses := c.misses + 1 }

/-- The entry of a context is found uncorrectable (R71). -/
def uncorrectable (c : Ctx) : Ctx := { c with st := .suspended, eccErr := true, stop := some 0 }

/-- No task runs at the core, or it is within its TBUDGET (R90). -/
def withinBudget (c : Core) : Bool := match c.group with | k :: _ => decide (k.used ≤ k.budget) | [] => true

def noTask (l : Launch) : Launch := { l with taskLeft := false }
def taskGone (k : Task) (c : Core) : Core := { c with group := [], overran := some k.ctx }

/-- The launch is abandoned and its task ended: the state after which core `n` goes on to its next task, to TASK_OVERRUN or
back (R89, R90, R93). -/
abbrev AbandonedTask (s u : State) (n : Nat) (k : Task) (l : Launch) : Prop :=
  u.core n = taskGone k (s.core n) ∧ (∀ m, m ≠ n → u.core m = s.core m) ∧ u.cry.launches = [noTask (ended l)] ∧
  ctxOf u l.ctx = missed (ctxOf s l.ctx) ∧ OtherCtx s u l.ctx ∧ u.fld fCRY_MISSED = satInc fCRY_MISSED.width (s.fld fCRY_MISSED) ∧
  pendBit u cryPg 1 = true ∧ u.rk.holds = s.rk.holds ++ [heldBy 1 l.ctx l.desc (l.tick + 1) (some (l.tick + 2))] ∧
  RegsEv s u [rCRY_STAT, fCRY_MISSED.key] [cryPg, rkPg] ∧
  Kept s { u with cry := s.cry, cores := s.cores, rk := { u.rk with holds := s.rk.holds } }
/-- The budget of the running task has ended. -/
def Stopped (s t : State) (n : Nat) (k : Task) (l : Launch) : Prop :=
  ∃ u, AbandonedTask s u n k l ∧ t = pumpCore n (afterStop n u)

/-- The angle and the tick of an outcome. -/
def outAt (angle tick : Nat) (x : JInfo) : JInfo := { x with oAngle := angle, oTick := tick }
/-- Its acceptance counts as noticed (R100). -/
def noticedAt (x : JInfo) : JInfo := { x with noticed := true }

/-- Entry `e` is settled with a status: its mark is being written and its outcome is on its way to the host (R441, R443). -/
abbrev Settled (s t : State) (e st angle tick : Nat) : Prop :=
  t.tj.writes = s.tj.writes ++ [⟨e, true, bytesOfNat 1 st, jQid s e, fcycOf s, tick⟩] ∧
  (slTxOf t 2).cells = (slTxOf s 2).cells ++ [⟨(slTxOf s 2).next % 65536, 0, 1, .outcome (jQid s e) (jCseq s e) e st angle tick⟩] ∧
  jInfo t e = outAt angle tick (jInfo s e) ∧ (∀ m, m ≠ e → jInfo t m = jInfo s m)

/-- What is held of the other journal entries is as before. -/
abbrev OtherInfo (s t : State) (e : Nat) : Prop := ∀ m, m ≠ e → jInfo t m = jInfo s m

/-- The other entries of the timing table are as before. -/
abbrev OtherTt (s t : State) (n : Nat) : Prop := ∀ m, m ≠ n → ttOf t m = ttOf s m

/-- Every byte of the Saltern reads as before. -/
abbrev SameBytes (s t : State) : Prop := ∀ a, a < salSize → salByte t a = salByte s a
/-- Every byte of the Saltern but the `n` from `a` reads as before. -/
abbrev SameBut (s t : State) (a n : Nat) : Prop := ∀ k, k < salSize → (k < a ∨ a + n ≤ k) → salByte t k = salByte s k
/-- Every granule's tag is as before but those of the `n` bytes from `a`. -/
abbrev TagsBut (s t : State) (a n : Nat) : Prop := ∀ g, (16 * g + 15 < a ∨ a + n ≤ 16 * g) → salTag t (16 * g) = salTag s (16 * g)

/-- A request has left its master through a port (R122): it is in flight, and the peak of the port counts it. -/
abbrev Requested (s t : State) (p : Nat) : Prop :=
  (∀ k : Fin 83, storeGet 0 t.sal.inflight k.val = storeGet 0 s.sal.inflight k.val + if k.val = p then 1 else 0) ∧
  t.sal.peak = storeSet 0 s.sal.peak p (max (inFlight s p + 1) (storeGet 0 s.sal.peak p))
/-- The master of the port has room for one more request (R122). -/
abbrev HasRoom (s : State) (p : Nat) : Prop := masterBusy s p < (portMaster p).2
/-- What the enabled bytes of a write make of the bytes from `a` (R110). -/
def merged (s : State) (a : Nat) (bs : List (Option Byte)) : List Byte :=
  (List.range bs.length).map fun i => (bs.getD i none).getD (salByte s (a + i))
/-- The bytes `n` from `a` read without an error. -/
abbrev GoodBytes (s : State) (a n : Nat) : Prop := ∀ i : Fin 128, i.val < n → salErr s (a + i.val) = .ok
/-- Byte `i` of the `n` from `a` alone has an error. -/
abbrev OneBad (s : State) (a n i : Nat) (e : ByteErr) : Prop :=
  i < n ∧ a % 8 + n ≤ 8 ∧ salErr s (a + i) = e ∧ ∀ k : Fin 8, k.val < n → k.val ≠ i → salErr s (a + k.val) = .ok
/-- No two valid entries of the remap name one word. -/
abbrev RmapOnce (s : State) : Prop := ∀ m k : Fin 16, m ≠ k → rmapValid s m.val = true → rmapValid s k.val = true → rmapWord s m.val ≠ rmapWord s k.val

/-- A second wrong bit in one byte cannot be corrected (R112). -/
def worse (e : ByteErr) (loc : Nat) : ByteErr := if e = .ok then .ce loc else .ue

/-- The `n` bytes from `a` read as zero without an error, and their granules are untagged. -/
abbrev Zeroed (t : State) (a n : Nat) : Prop := ∀ k, a ≤ k → k < a + n → salByte t k = 0 ∧ salErr t k = .ok ∧ salTag t k = false

/-- No command frame of port `n` has been sent in this tick. -/
abbrev NotSent (s : State) (n : Nat) : Prop := (s.port n).sent ≠ tickNo s + 1
/-- The 60 bytes of a frame of which the phase blocks that start later than 8 ns from now are zero (R263, R269). -/
def zeroedFrom (ns : Nat) (bs : List Byte) : List Byte :=
  let b := bytesAt bs 0 8 ++
    ((List.range 8).map fun i => if ns + 8 ≤ 596 + 24 * i then List.replicate 6 0 else bytesAt bs (8 + 6 * i) 6).flatten
  b ++ bytesOfNat 4 (crc32 b)
/-- The frame `bs` with other phase blocks. -/
def reblocked (bs : List Byte) (blocks : List Nat) : List Byte :=
  let b := bytesAt bs 0 8 ++ (blocks.map fun x => bytesOfNat 6 x).flatten
  b ++ bytesOfNat 4 (crc32 b)
/-- Port `n` alone has sent a frame in this tick, `bs` on lane `l`. -/
abbrev OneFrame (s : State) (n l : Nat) (bs : List Byte) : Prop :=
  (∀ m : Fin 64, m.val ≠ n → NotSent s m.val) ∧ (s.port n).sent = tickNo s + 1 ∧ bs.length = 60 ∧
  s.out = [.cmdFrame n l (tickNo s) bs] ∧ (s.port n).blocks = (List.range 8).map fun i => numAt bs (8 + 6 * i) 6

/-- In the emergency every field of every phase block is zero (R263, R269). -/
def AllZero (t : State) : Prop := ∀ (q tick test alt safe blk f : Nat), ovrField (ovrOf t q tick test) alt safe blk f = 0

/-- The FCYC of the request of a swap (R271). -/
def requestedAt (f : Nat) (r : RakeState) : RakeState := { r with swapAt := f }
/-- The persistence counts and the trips are those of no rule (R271). -/
def countsZero (r : RakeState) : RakeState := { r with cnt := [], trip := [] }

/-- The state at which the Rake takes the boundary that the CCLK from `w` brings, ANGLE having advanced to `u`, and what follows
the Rake in that CCLK (R46, R265). -/
def atRake (w u : State) : State := tallyBoundary 1 (cryBoundary (acSteps (angleOf w) u))
def afterRake (v : State) : State :=
  let r := unlessFrozen plPg plBoundary (rkBoundary v)
  coreCycles (fabricDue (deliverDue (if fcycOf r % 16 = 0 then gtEdges 1 r else r)))
/-- The banks have been exchanged (R271): counts and trips are those of no rule, the latch masks stay, SWAPPED is posted. -/
def BanksSwapped (v r : State) : Prop :=
  actBank r = 1 - actBank v ∧ r.flag fRK_STAT_SWAPPEND = false ∧ r.rk.cnt = [] ∧ r.rk.trip = [] ∧ pendBit r rkPg 1 = true ∧
  (v.rk.unlatch = [] → r.rk.lsafe = v.rk.lsafe ∧ r.rk.lalt = v.rk.lalt ∧ r.rk.lmin = v.rk.lmin)
/-- The CCLK from `w` brings a boundary at which the requested swap is due. -/
def EndsSwap (w t : State) : Prop :=
  ∃ u, TickTaken w u ∧ BanksSwapped (atRake w u) (rkBoundary (atRake w u)) ∧ t = afterRake (atRake w u)

/-- Of the tables of the Rake only rule entry `k`, or phase entry `p`, may have changed. -/
abbrev EntriesBut (s t : State) (rule phase : Option Nat) : Prop :=
  (∀ k, some k ≠ rule → storeGet 0 t.rk.rules k = storeGet 0 s.rk.rules k) ∧
  (∀ p, some p ≠ phase → storeGet 0 t.rk.phases p = storeGet 0 s.rk.phases p)

/-- The entry that word 3 completes (R271). -/
def entryOf (s : State) (v : Word) : Nat :=
  (storeGet 0 s.rk.stage 0).toNat + (storeGet 0 s.rk.stage 1).toNat * 2 ^ 32 + (storeGet 0 s.rk.stage 2).toNat * 2 ^ 64 + v.toNat * 2 ^ 96
/-- The Rake's tables, staging and uncorrectable marks put back. -/
def storesOf (s : State) (r : RakeState) : RakeState :=
  { r with rules := s.rk.rules, phases := s.rk.phases, ueRule := s.rk.ueRule, uePhase := s.rk.uePhase, stage := s.rk.stage }

/-- The frame of RK_TFRAME and the bank that RK_TCTRL names (R273). -/
def testFrame (s : State) : List Byte := ((List.range 20).map fun i => bytesOfNat 4 (s.rd (rRK_TFRAMEi i)).toNat).flatten
def testBankOf (s : State) : Nat := if s.flag fRK_TCTRL_BANK then 1 - actBank s else actBank s
/-- A self-test runs. -/
def testing (s : State) (r : RakeState) : RakeState :=
  { r with test := some ((List.range 8).map fun l => testMasks s (testBankOf s) (s.fld fRK_TCTRL_PORT) (testFrame s) l),
           testPort := s.fld fRK_TCTRL_PORT, testBank := testBankOf s, testDo := s.flag fRK_TCTRL_APPLY }
/-- The tests' masks act on the port's next frame where APPLY asked for it. -/
def testedPort (s : State) (ms : List Nat) (p : BPort) : BPort := if s.rk.testDo then { p with tMask := ms, tBank := s.rk.testBank } else p
def testOver (r : RakeState) : RakeState := { r with test := none }

/-- Every other port is as before. -/
abbrev OtherPort (s t : State) (n : Nat) : Prop := ∀ m, m ≠ n → t.port m = s.port m

/-- Of the Brine's lanes only lane `l` of port `n` may have changed, and nothing else of the Brine. -/
abbrev LaneOnly (s t : State) (n l : Nat) : Prop :=
  (∀ k, k ≠ 2 * n + l → storeGet Lane.reset t.bl.lanes k = storeGet Lane.reset s.bl.lanes k) ∧ t.bl.ports = s.bl.ports ∧
  t.bl.closed = s.bl.closed

/-- Lane `l` of port `n` is in state `st` (R220), its record is `x`, PRESENT follows (R226), and lane and module events are
posted as the states say; `own` names further registers. -/
abbrev LaneTo (s t : State) (n l st : Nat) (x : Lane) (own : List Nat) : Prop :=
  laneSt t n l = st ∧ laneSt t n (1 - l) = laneSt s n (1 - l) ∧ laneOf t n l = x ∧
  t.flag (fBLn_LSTAT_PRESENT n) = lanesActive t n ∧
  (st ≠ 4 ∨ laneSt s n l = 4 ∨ pendBit t (blLink n) (2 + l) = true) ∧
  (st ≠ 4 ∨ lanesActive s n = true ∨ pendBit t (blLink n) 0 = true) ∧
  (st = 4 ∨ laneSt s n l ≠ 4 ∨ pendBit t (blLink n) (4 + l) = true) ∧
  (lanesActive s n = false ∨ lanesActive t n = true ∨ pendBit t (blLink n) 1 = true) ∧
  (decide (st = 4) ≠ decide (laneSt s n l = 4) ∨ NoEvents s t ∧ Regs s t (rBLn_LSTAT n :: own)) ∧
  RegsEv s t (rBLn_LSTAT n :: own) [blLink n] ∧ LaneOnly s t n l ∧ Kept s { t with bl := s.bl }

/-- The record of a lane after each change (R220 to R225). -/
def locking (x : Lane) : Lane := { x with locked := true, fell := none, down := 0 }
def entering (tick cyc : Nat) (x : Lane) : Lane :=
  { x with answers := 0, rtd := 0, ident := none, identTick := tick, miss := 0, trainAt := cyc, sets := 0 }
def falling (tick cause : Nat) (x : Lane) : Lane :=
  { x with fell := if 3 ≤ cause then some tick else none, down := cause, ident := none, miss := 0 }
def resting (x : Lane) : Lane := { x with fell := none, down := 0, ident := none, miss := 0 }
def answered (rtd : Nat) (x : Lane) : Lane := { x with answers := x.answers + 1, rtd := if x.answers % 64 = 0 then rtd else max x.rtd rtd }
/-- The training sets that the lane has sent by now, one in 64 ns from its entry to TRAIN (R222), and the state once they
have left. -/
def setsBy (s : State) (x : Lane) : Nat := (fcycOf s - x.trainAt) * 125 / 192 / 64 + 1
def sent (s : State) (n l : Nat) : State :=
  let x := laneOf s n l
  if x.sets < setsBy s x then
    { s with out := .trainSets n l x.sets (setsBy s x - x.sets) :: s.out,
             bl := { s.bl with lanes := storeSet Lane.reset s.bl.lanes (2 * n + l) { x with sets := setsBy s x } } }
  else s
/-- The answer echoes the port, its lane and the STAMP of a set that has been sent (R222). -/
abbrev Echo (s : State) (n l : Nat) (pl stamp : Byte) : Prop :=
  pl.toNat = n + 128 * l ∧ (256 ≤ (laneOf (sent s n l) n l).sets ∨ stamp.toNat < (laneOf (sent s n l) n l).sets)
def idSeen (r : Option (List Byte)) (x : Lane) : Lane := { x with ident := r }
/-- A lane enters LOCK; entries after its first are counted (R225). -/
abbrev Locks (s t : State) (n l : Nat) : Prop :=
  LaneTo s t n l 1 (locking (laneOf s n l)) [rBLn_RETRAIN n] ∧
  t.fld (fRetrain n l) = (if (laneOf s n l).locked then satInc 8 (s.fld (fRetrain n l)) else s.fld (fRetrain n l))
/-- A lane falls to DOWN with a cause (R221). -/
abbrev Falls (s t : State) (n l c : Nat) (own : List Nat) : Prop :=
  LaneTo s t n l 0 (falling (tickNo s) c (laneOf s n l)) own ∧ t.fld (fCause n l) = c
/-- A received identity frame that is valid in this tick (R224, R230). -/
abbrev IdFrame (s : State) (f : RxFrame) (r : List Byte) : Prop :=
  rxGood f 0xA5 = true ∧ rxSeq s f = true ∧ rxTime f = true ∧ identOf f = some r
/-- A port with lane `l` in state `st`, its link page free to work. -/
abbrev LaneIs (s : State) (n l st : Nat) : Prop := frozen s (blLink n) = false ∧ laneSt s n l = st

/-- The words of the identity record of a port (R224). -/
abbrev IdStored (t : State) (n : Nat) (r : List Byte) : Prop := ∀ m : Fin 16, t.rd (rBLn_IDi n m.val) = BitVec.ofNat 32 (numAt r (4 * m.val) 4)
/-- The registers of the identity record. -/
def idRegs (n : Nat) : List Nat := (List.range 16).map (rBLn_IDi n)

/-- Of the Brine's lanes only those of port `n` may have changed, and nothing else of the Brine. -/
abbrev PortLanes (s t : State) (n : Nat) : Prop :=
  (∀ k, k / 2 ≠ n → storeGet Lane.reset t.bl.lanes k = storeGet Lane.reset s.bl.lanes k) ∧ t.bl.ports = s.bl.ports ∧
  t.bl.closed = s.bl.closed ∧ RegsEv s t [rBLn_LSTAT n] [blLink n] ∧ Kept s { t with bl := s.bl }

/-- The LSTATUS, SOFT and EOFT of a landing record for a frame with good lanes `va` and `vb` (R234, R236). -/
def landStatus (s : State) (n : Nat) (a b : Option RxFrame) (f : RxFrame) : Nat :=
  let va := laneValid s n 0 a
  let vb := laneValid s n 1 b
  1 + 2 * b2n (!va) + 4 * b2n va + 8 * b2n vb + Nat.lor (errBits s n a b) (s.port n).lbits +
    64 * b2n (va && vb && (a.map fun x => x.bytes) != (b.map fun x => x.bytes)) + 256 * (f.soft.toNat % 256) + 65536 * (f.eoft.toNat % 512)
/-- The port's record after a valid frame, and after a tick without one. -/
def framed (tick : Nat) (bs : List Byte) (p : BPort) : BPort :=
  { p with last := some bs, lastTick := tick, valid := tick + 1, noted := tick + 1, lbits := 0, pvalid := p.valid, plast := p.last }
def noted (tick : Nat) (p : BPort) : BPort := { p with noted := tick + 1, lbits := 0 }
def errSeen (e : Nat) (p : BPort) : BPort := { p with lbits := Nat.lor p.lbits e }
/-- The frame used: lane A's when it is valid, else lane B's (R236). -/
abbrev Used (s : State) (n : Nat) (a b : Option RxFrame) (f : RxFrame) : Prop :=
  (laneValid s n 0 a = true ∧ a = some f) ∨ (laneValid s n 0 a = false ∧ laneValid s n 1 b = true ∧ b = some f)
/-- The port is on, its pages are free to work, and no frame of this tick has been judged. -/
abbrev PortOpen (s : State) (n : Nat) : Prop :=
  frozen s (blTrans n) = false ∧ linkEn s n = true ∧ s.tb.started = true ∧ (s.port n).noted ≠ tickNo s + 1
/-- The registers of port `n` that a tick's frame writes. -/
def frameRegs (n : Nat) : List Nat :=
  [rBLn_TSTAT n, rBLn_SMISS n, rBLn_SMISSTOT n, rBLn_LASTOK n, rBLn_LASTOK n + 1, rBLn_ARRIVE n, rBLn_LEASE n, rBLn_ERRA n, rBLn_ERRB n, fRK_MAXLAT.key]
/-- A frame of the Rake's rules that none is evaluated in (R264). -/
abbrev RakeOff (s : State) : Prop := s.rk.enEff = false
/-- The first byte at which port `n`'s record of this tick lands (R234). -/
def landAt (s : State) (n : Nat) : Nat := blBase s n + 0x80 * (tickNo s % 2)
/-- No remap touches the landing area (R115). -/
abbrev PlainLand (s : State) (n len : Nat) : Prop := landAt s n + len ≤ salSize

/-- Rule `k` alone is valid in the ACTIVE bank, it belongs to port `n`, reads well and is static, acts on its own phase, and
the Rake runs (R257, R259, R264). -/
abbrev OneRule (s : State) (n k : Nat) : Prop :=
  s.rk.enEff = true ∧ frozen s rkPg = false ∧ s.rk.ueRule = [] ∧ s.rk.uePhase = [] ∧ s.rk.dynUe = [] ∧
  n * 64 ≤ k ∧ k < n * 64 + 64 ∧ s.rk.rules = [(4096 * actBank s + k, storeGet 0 s.rk.rules (4096 * actBank s + k))] ∧
  rkValid (ruleOf s (actBank s) k) = true ∧ rkDyn (ruleOf s (actBank s) k) = false ∧ rkScope (ruleOf s (actBank s) k) = 0
/-- Its count after the tick, from whether its condition holds (R260). -/
def countAfter (s : State) (k : Nat) (h : Bool) : Nat :=
  if h then min (storeGet 0 s.rk.cnt k + 1) (rkPersist (ruleOf s (actBank s) k) + 1) else 0
def mask1 (s : State) (act p k : Nat) (on : Bool) (l : List (Nat × Nat)) : Nat :=
  if on ∧ rkLatch (ruleOf s (actBank s) k) = true ∧ rkAct (ruleOf s (actBank s) k) = act then
    Nat.lor (storeGet 0 l p) (rkAmask (ruleOf s (actBank s) k)) else storeGet 0 l p

/-- What the Rake holds of the other rules and phases is as before. -/
abbrev OtherRules (s t : State) (k : Nat) : Prop :=
  (∀ m, m ≠ k → storeGet 0 t.rk.cnt m = storeGet 0 s.rk.cnt m ∧ storeGet false t.rk.trip m = storeGet false s.rk.trip m) ∧
  (∀ p, p ≠ k / 8 → storeGet 0 t.rk.lmin p = storeGet 0 s.rk.lmin p ∧ storeGet 0 t.rk.lalt p = storeGet 0 s.rk.lalt p ∧
    storeGet 0 t.rk.lsafe p = storeGet 0 s.rk.lsafe p) ∧
  { t.rk with cnt := s.rk.cnt, trip := s.rk.trip, lmin := s.rk.lmin, lalt := s.rk.lalt, lsafe := s.rk.lsafe, posted := s.rk.posted } = s.rk

/-- The port latches its buffer and lease at the close of the command area (R239, R244). -/
abbrev Latches (s : State) (n : Nat) : Prop := linkEn s n = true ∧ s.tb.started = true ∧ frozen s (blTrans n) = false
def bufAt (s : State) (n : Nat) : Nat := blBase s n + 0x100 + 0x40 * (tickNo s % 2)
def latchedPort (s : State) (n : Nat) (b : Option (List Byte)) (p : BPort) : BPort :=
  { p with buf := b, latched := tickNo s + 1, latLop := p.lop, lopNew := false, latEpoch := s.fld (fBLn_LEASE_EPOCH n),
           latArmed := s.flag (fBLn_LEASE_ARMED n), latStop := s.flag (fBLn_LEASE_STOP n) }
/-- The bytes of a command frame: type, tick, epoch, operation, the buffer's mode byte, TKLEN, the 48 bytes of the phase blocks,
and the CRC (R237). -/
def cmdBytes (s : State) (bs : List Byte) (lop epoch : Nat) (blocks : List Byte) : List Byte :=
  let body := bytesOfNat 1 0xC3 ++ bytesOfNat 1 (tickNo s) ++ bytesOfNat 2 epoch ++ bytesOfNat 1 lop ++
    bytesOfNat 1 (numAt bs 48 1 % 8) ++ bytesOfNat 2 (tkLen s) ++ blocks
  body ++ bytesOfNat 4 (crc32 body)
/-- What the two lanes send, newest first: an ACTIVE lane the operation, one in IDENT a frame with LOP 5 (R237, R244). -/
def sends (s : State) (n lop epoch : Nat) (bs blocks : List Byte) : List Out :=
  let idE := if (s.port n).latArmed then (s.port n).latEpoch else 0
  let one := fun l : Nat =>
    if laneSt s n l = 4 then [Out.cmdFrame n l (tickNo s) (cmdBytes s bs lop epoch blocks)]
    else if laneSt s n l = 3 then [Out.cmdFrame n l (tickNo s) (cmdBytes s bs 5 idE blocks)] else []
  one 1 ++ one 0
/-- A frame is due from port `n`, and its page is free to work. -/
abbrev SendDue (s : State) (n : Nat) (bs : List Byte) : Prop :=
  frozen s (blTrans n) = false ∧ linkEn s n = true ∧ s.tb.started = true ∧ (s.port n).latched = tickNo s + 1 ∧ (s.port n).sent ≠ tickNo s + 1 ∧
  s.flag fRST_STAT_FRAMEHOLD = false ∧ s.pwr.logic = none ∧ (laneUp s n 0 = true ∨ laneUp s n 1 = true) ∧
  (s.port n).buf = some bs ∧ bs.length = 64 ∧ relaying s n = false ∧ (s.port n).latStop = false
/-- No source of R263 overrides a field of the port's phases in this tick. -/
abbrev Unforced (s : State) (n : Nat) : Prop :=
  (s.port n).tMask = [] ∧ ∀ l : Fin 8, ovrOf s (8 * n + l.val) (tickNo s) 0 = ⟨0, 0, 0, 0, false⟩
/-- The port's record once the frame has left. -/
def sentPort (tick : Nat) (clear : Bool) (blocks : List Nat) (povr : List (Nat × Nat)) (p : BPort) : BPort :=
  { p with lop := if clear ∧ p.lopNew = false then 0 else p.lop, sent := tick + 1, blocks := blocks, tMask := [], tUsed := p.tMask, povr := povr }
/-- The eight phase blocks of a buffer. -/
def blocksOf (bs : List Byte) : List Nat := (List.range 8).map fun l => numAt bs (6 * l) 6

/-- The pair link's missing frame of the tick has been counted (R499). -/
def checked (tick : Nat) (d : DupState) : DupState := { d with chk := tick }
/-- The launches that later closes still look at (R441). -/
def laterLaunches (tick : Nat) (t : TjState) : TjState := { t with launched := t.launched.filter fun e => decide (tick ≤ e.1) }

/-- A lease operation waits for the next frame (R244). -/
def withLop (v : Nat) (p : BPort) : BPort := { p with lop := v, lopNew := true }

/-- The bytes of a pair frame (R498). -/
def pairBytes (s : State) (dig : Nat) : List Byte :=
  let body := bytesOfNat 1 0x96 ++ bytesOfNat 1 (s.fld fPL_CTRL_RANK + 2 * s.fld fPL_STAT_ARB + 8 * s.fld fTB_STAT_LOCKED) ++
    bytesOfNat 1 (plHeld s) ++ bytesOfNat 1 (plPresent s) ++ bytesOfNat 4 dig ++ bytesOfNat 8 (tickNo s) ++
    bytesOfNat 8 (angleOf s) ++ bytesOfNat 8 (laneOk s) ++ bytesOfNat 8 (s.rd64 rPL_RELAYREQ) ++ bytesOfNat 20 0
  body ++ bytesOfNat 4 (crc32 body)
/-- The pair link once the frame of `tick` with digest `dig` has been sent; `wait` tells whether the partner's digest still
waits (R501). -/
def sentDup (tick dig : Nat) (wait : Bool) (d : DupState) : DupState :=
  { d with sent := tick + 1, oDigest := dig, pWait := wait }
/-- A valid pair frame of tick `t` has been taken (R499, R501). -/
def takenDup (bs : List Byte) (t good : Nat) (wait : Bool) (d : DupState) : DupState :=
  { d with good := good, got := t + 1, pDigest := numAt bs 4 4, pWait := wait, pRelay := numAt bs 32 8 }
/-- Consecutive ticks with a valid frame, with one of tick `t`. -/
def goodAfter (s : State) (t : Nat) : Nat := if s.dup.got = t then s.dup.good + 1 else 1
def unjoined (d : DupState) : DupState := { d with join := false }
def noRelay (d : DupState) : DupState := { d with pRelay := 0 }
def joining (d : DupState) : DupState := { d with join := true }
def lostDup (d : DupState) : DupState := { d with good := 0, pRelay := 0 }
/-- ANGLE is set from `o` to `a` while the timebase is stopped: the span since the last crossing keeps its length, and the grid
tracker has no predecessor sample (log 115). -/
def restarted (a o : Nat) (t : TbState) : TbState :=
  { t with sub := 0, gridRef := t.gridRef + (a : Int) - (o : Int), grid := none, segs := [] }
/-- A frame of 64 bytes with its CRC and type correct, of the present tick, or of the last one before 540 ns (R499). -/
abbrev FrameGood (bs : List Byte) : Prop :=
  bs.length = 64 ∧ crc32 (bs.take 60) = numAt bs 60 4 ∧ numAt bs 0 1 = 0x96
abbrev FrameTimely (s : State) (bs : List Byte) : Prop :=
  (numAt bs 8 8 = tickNo s ∨ (numAt bs 8 8 + 1 = tickNo s ∧ tickNs s < 540)) ∧ s.dup.got ≤ numAt bs 8 8
/-- No JOIN waits, and the frame measures no time here (R500). -/
abbrev PlainRx (s : State) : Prop :=
  (s.dup.join = false ∨ pageEn s 0x10 = true) ∧ (s.fld fPL_CTRL_RANK ≠ 1 ∨ s.flag fPL_CTRL_TSRC = false)

/-- The valid frames that present modules sent in tick `t`, and how many of them name a lease of this controller (R502). -/
def framesIn (s : State) (t : Nat) : List (List Byte) := (List.range 64).filterMap fun n => frameOfTick s n t
def ownIn (s : State) (t : Nat) : Nat :=
  ((framesIn s t).filter fun f => natBit (numAt f 4 1) 0 && numAt f 2 2 % 2 == s.fld fPL_CTRL_RANK).length
/-- The majority of R502; an equal split goes to rank 0. -/
abbrev Majority (s : State) (t : Nat) : Prop :=
  (framesIn s t).length < 2 * ownIn s t ∨ (2 * ownIn s t = (framesIn s t).length ∧ s.fld fPL_CTRL_RANK = 0)

/-- Core `n` has no context with a task, and no task of a group (R485). -/
abbrev NoTasks (s : State) (n : Nat) : Prop :=
  (∀ e ∈ s.cry.ctx, e.2.st = .free ∨ xTask (e.2.descAt (tickNo s)) = false ∨ xCore (e.2.descAt (tickNo s)) ≠ n) ∧
  (s.core n).group = [] ∧ (s.core n).waiting = []
/-- A stop falls within 1,048,576 ticks of the last recovery of a core that is not yet DEAD (R489). -/
def diesNow (s : State) (n : Nat) : Bool :=
  (match storeGet none s.dup.recTick n with | some t => decide (tickNo s < t + 1048576) | none => false) &&
  !natBit (s.fld fFC_STAT_DEAD) n
/-- The pair stops at `f`, and an injected difference has been used (R485, R505). -/
def stoppedDup (n f : Nat) (d : DupState) : DupState :=
  { d with stopCyc := storeSet 0 d.stopCyc n f, inject := natBitSet d.inject n false }
def recoveredDup (n t f : Nat) (d : DupState) : DupState :=
  { d with recTick := storeSet none d.recTick n (some t), recCyc := storeSet 0 d.recCyc n f }
/-- One bit of a field is `b`, and the others are as before. -/
abbrev BitNow (s t : State) (f : Fld) (i : Nat) (b : Bool) : Prop := t.fld f = natBitSet (s.fld f) i b

/-- Of the F-die nothing changes but the registers of the Sluice and of the journal's resynchronisation and the persistence
counts of the Rake, which a warm reset of either die zeroes (R272, R486, R521). -/
abbrev FSame (s t : State) : Prop :=
  (∀ k, k / 1024 < 0x1000 → k / 1024 ≠ 0x120 → k / 1024 ≠ 0x150 → (k / 1024 < 0x40 ∨ 0x50 ≤ k / 1024) → t.rd k = s.rd k) ∧
  t.mram = s.mram ∧ t.lmem = s.lmem ∧ t.lmErr = s.lmErr ∧ t.tb = s.tb ∧ t.sal = s.sal ∧ t.cry = s.cry ∧ t.pan = s.pan ∧
  t.bl = s.bl ∧ { t.rk with cnt := s.rk.cnt } = s.rk ∧ t.dup = s.dup ∧ t.sec = s.sec ∧ t.pwr = s.pwr ∧ t.pending = s.pending

/-- What a recovered core keeps: DFVEC, DFCAP and ESTKCAP; it is entered as DOUBLE_FAULT with cause RECOVERY, and its slot
holds the PC, PCC and the reset status (R487, log 62). -/
abbrev Recovered (n : Nat) (o c : Core) : Prop :=
  c.dfvec = o.dfvec ∧ c.rdS scDFCAP = o.rdS scDFCAP ∧ c.rdS scESTKCAP = o.rdS scESTKCAP ∧
  c.pc = o.dfvec.toNat / 4 * 4 ∧ c.pcc = o.rdS scDFCAP ∧ c.rdC 15 = o.rdS scESTKCAP ∧ c.gie = false ∧
  c.df = some ⟨o.pc, 0, o.pcc, Cap.zero, 6, 0, false, []⟩ ∧ c.w = [] ∧ c.f = [] ∧ c.p = [] ∧ c.sb = [] ∧ c.status = 0 ∧
  c.group = [] ∧ c.waiting = [] ∧ c.ipend = 0 ∧ c.ien = 0 ∧ c.tbase = (Core.reset n).tbase ∧ c.halted = false

/-- The next output of each core of the mask is inverted (R505). -/
def injected (m : BitVec 4) (d : DupState) : DupState := { d with inject := Nat.lor d.inject m.toNat }
/-- No command frame leaves after tick `t` (R494); an earlier mismatch stands. -/
def logicAt (t : Nat) (p : PwrState) : PwrState := { p with logic := some (p.logic.getD t) }

/-- The reply `bs` of the debug agent waits in the DEBUG class of the Sluice, in cells of 52 bytes (R457, R490); nothing else
of the Sluice changes but what the request took to cross. -/
abbrev Replied (s t : State) (bs : List Byte) : Prop :=
  (slTxOf t 7).cells = (slTxOf s 7).cells ++ (List.range (max 1 ((bs.length + 51) / 52))).map (fun i =>
    (⟨((slTxOf s 7).next + i) % 65536, i, max 1 ((bs.length + 51) / 52), .debugRep bs⟩ : SlCell)) ∧
  (∀ k, k ≠ 7 → k ≠ 23 → slTxOf t k = slTxOf s k) ∧ (∀ k, k ≠ 23 → slRxOf t k = slRxOf s k) ∧ (slTxOf t 23).cells = [] ∧
  { t.sl with tx := s.sl.tx, rx := s.sl.rx, lanes := s.sl.lanes } = s.sl
/-- While no pair is UP the request waits in the DEBUG class (R464), and nothing else happens. -/
abbrev Asked (s t : State) (r : DbgReq) : Prop :=
  (slTxOf t 23).cells = (slTxOf s 23).cells ++ (List.range (Msg.debugReq r).parts).map (fun i =>
    (⟨((slTxOf s 23).next + i) % 65536, i, (Msg.debugReq r).parts, .debugReq r⟩ : SlCell)) ∧
  (∀ k, k ≠ 23 → slTxOf t k = slTxOf s k) ∧ { t.sl with tx := s.sl.tx } = s.sl ∧ Regs s t [] ∧
  NoEvents s { t with sl := s.sl } ∧ Kept s t

/-- A request of the debugger reaches the agent: a pair is UP, no other cell waits to cross to the F side, and no request waits
for the agent (R457, R462). -/
abbrev Reaches (s : State) : Prop :=
  slUp s = true ∧ (∀ k : Fin 8, (slTxOf s (16 + k.val)).cells = []) ∧
  slRxOf s 23 = ⟨(slTxOf s 23).next % 65536, []⟩ ∧ s.sl.inF.all (fun m => m.cls != 7) = true
/-- A request of one matrix port came and went (R122). -/
def peakWith (s : State) (p : Nat) : List (Nat × Nat) :=
  storeSet 0 s.sal.peak p (max (inFlight s p + 1) (storeGet 0 s.sal.peak p))

/-- A reply left, and nothing else happened. -/
abbrev OnlyReply (s t : State) (bs : List Byte) : Prop :=
  Replied s t bs ∧ Regs s t [] ∧ NoEvents s { t with sl := s.sl } ∧ Kept s t
/-- A reply left and core `n` changed, and nothing else happened. -/
abbrev ReplyCore (s t : State) (n : Nat) (bs : List Byte) : Prop :=
  Replied s t bs ∧ (∀ m : Fin 5, m.val ≠ n → t.core m.val = s.core m.val) ∧ Regs s t [] ∧ NoEvents s { t with sl := s.sl } ∧
  Kept s { t with cores := s.cores }
/-- What the agent accepts: every request in TEST, DEV and RMA; in PROD what the scope of an unlocked session covers
(R490, R536, R537). -/
abbrev Permitted (s : State) (b : Nat) : Prop :=
  s.fld fSEC_STAT_LC ≠ 2 ∨ (s.flag fSEC_STAT_DBGUNLOCKED = true ∧ natBit s.sec.scope b = true)
/-- Nothing is due at the core, and no bundle waits (R490). -/
abbrev NoWork (c : Core) : Prop :=
  c.fq = [] ∧ c.group = [] ∧ c.ni = false ∧ c.rep = none ∧ c.wait = none ∧ pendingInt c = none
def haltedCore (c : Core) : Core := { c with halted := true }
def goesOn (c : Core) : Core := { c with halted := false, step := false }
def oneStep (c : Core) : Core := { c with step := true }
def atPc (a : Nat) (c : Core) : Core := { c with pc := a, asm := [], fq := [], redo := none }

/-- The same state with core `n` running and no bundle in its queue. -/
def unqueued (s : State) (n : Nat) : State := s.mapCore n fun c => { c with fq := [], halted := false }

/-- The bytes `bs` stand at `g`, and every other byte of the list is as before. -/
abbrev Wrote (m m2 : List (Nat × Byte)) (g : Nat) (bs : List Byte) : Prop :=
  (List.range bs.length).map (fun i => storeGet 0 m2 (g + i)) = bs ∧
  ∀ k, (k < g ∨ g + bs.length ≤ k) → storeGet 0 m2 k = storeGet 0 m k

/-- Recovery mode: no image runs, and E0 is as after reset (R533). -/
abbrev InRecovery (s t : State) : Prop :=
  t.flag fSEC_STAT_RECOVERY = true ∧ t.flag fSEC_BOOT_VALID = false ∧ pendBit t secPg 0 = true ∧
  (∀ m : Fin 5, m.val ≠ 0 → t.core m.val = s.core m.val) ∧ t.mram = s.mram ∧ t.lmem = s.lmem ∧ t.sal = s.sal ∧ t.cry = s.cry ∧
  t.pan = s.pan ∧ t.rk = s.rk

/-- An OTP program runs (R535). -/
def programming (w a : Nat) (c : SecState) : SecState := { c with otp := some ⟨w, a⟩ }
def programmed (c : SecState) : SecState := { c with otp := none }
def lcNext (a : Nat) (c : SecState) : SecState := { c with otp := none, lc := max c.lc a, erased := c.erased || a == 3 }
def rngState (up : Bool) (c : SecState) : SecState := { c with rngUp := up }
/-- A slot other than `arg` is left unrevoked. -/
abbrev OtherKey (s : State) (arg : Nat) : Prop := ∃ k : Fin 4, k.val ≠ arg ∧ natBit (s.fld fSEC_OTPSTAT_KEYREV) k.val = false

/-- Another request waits at the security block (R539). -/
def requested (r : AttReq) (c : SecState) : SecState := { c with att := c.att ++ [r] }
def restAnswered (rest : List AttReq) (c : SecState) : SecState := { c with att := rest }

/-- The record cells of an answer that goes out with the Sluice up: `n` records from type `ty` with 16 bytes each (R540). -/
def answerCells (s : State) (q ty n : Nat) (bs : List Byte) : List SlCell :=
  (List.range n).map fun i => ⟨((slTxOf s 3).next + i) % 65536, 0, 1,
    .event q ⟨ty + i, secPg, 1, .F, BitVec.ofNat 64 (angleOf s), bytesAt bs (16 * i) 16⟩⟩
/-- The device's identity, as bytes (R534). -/
def devId : List Byte := bytesOfNat 8 Config.otpDevId.toNat
/-- The identity answer (R540). -/
def identityOf (s : State) : List Byte :=
  devId ++ bytesOfNat 1 (s.fld fSEC_STAT_LC) ++ bytesOfNat 7 0 ++ Config.otpDikPub.toList ++ Config.otpVsig.toList ++ bytesOfNat 8 0
/-- The report but for its signature (R540). -/
def reportOf (s : State) (r : AttReq) : List Byte :=
  bytesOfNat 4 0x00015447 ++ bytesOfNat 4 r.cseq ++ r.nonce ++ devId ++ bytesOfNat 1 (s.fld fSEC_STAT_LC) ++
  bytesOfNat 1 (s.fld fSEC_STAT_DBGUNLOCKED + 2 * s.fld fSEC_BOOT_SLOT + 4 * s.fld fPCS_STAT_OVLVALID) ++
  bytesOfNat 2 s.sec.svn ++ bytesOfNat 1 s.sec.key ++ bytesOfNat 1 Config.step ++ bytesOfNat 2 (s.rd rH_SYS_ROMID).toNat ++
  ((List.range 16).map fun i => bytesOfNat 4 (s.rd (rSEC_MEASi i)).toNat).flatten ++ bytesOfNat 4 (s.rd rPCS_ID).toNat

/-- The four fresh values of a nonce, as bytes (R537, R541, log 5). -/
def nonceOf (s : State) : List Byte :=
  bytesOfNat 8 (Config.free s.free).toNat ++ bytesOfNat 8 (Config.free (s.free + 1)).toNat ++
  bytesOfNat 8 (Config.free (s.free + 2)).toNat ++ bytesOfNat 8 (Config.free (s.free + 3)).toNat
/-- The public key is that of the slot, and the signature over nonce, device and scope verifies (R537). -/
def verified (scope slot : BitVec 8) (pub sig nn : List Byte) : Bool :=
  (Config.sha512 pub).toList == (Config.otpHash (4 + slot.toNat)).toList &&
  Config.ecdsaVerify pub (Config.sha512 (nn ++ devId ++ bytesOfNat 1 scope.toNat)).toList sig
def noNonce (c : SecState) : SecState := { c with nonce := none }
def withNonce (b : List Byte) (c : SecState) : SecState := { c with nonce := some b }
def opened (scope : Nat) (c : SecState) : SecState := { c with nonce := none, scope := scope }
def failed (c : SecState) : SecState := { c with nonce := none, fails := c.fails + 1 }

/-- Event bit `bit` of page `pg` is pending; where it was not, this post gave it its severity and payload (R38, R432). -/
abbrev Posted (s t : State) (pg bit sev : Nat) (payload : List Byte) : Prop :=
  pendBit t pg bit = true ∧ (pendBit s pg bit = true ∨ storeGet EvPay.zero t.evPay (evKey pg bit) = ⟨sev, payload, none⟩)
def panelHeld (b : Bool) (p : PanelState) : PanelState := { p with held := b }
def panelTouched (e ms : Nat) (p : PanelState) : PanelState := { p with touch := storeSet none p.touch e (some ms) }
def panelBlink (lt : Bool) (p : PanelState) : PanelState := if lt then { p with toggle := !p.toggle } else { p with led0 := !p.led0 }
def panelTested (p : PanelState) : PanelState :=
  { p with toggle := false, mode := [], led0 := if p.toggle then !p.led0 else p.led0 }
/-- The other electrode was touched within 500 ms (R545). -/
abbrev BothTouched (s : State) (e : Fin 2) (ms : Word) : Prop :=
  ∃ t, storeGet none s.pn.touch (1 - e.val) = some t ∧ ms.toNat ≤ t + 500 ∧ t ≤ ms.toNat + 500

/-- No mode was written during the lamp test but those of `ms`, one per LED (R548). -/
abbrev ModesBack (s t : State) (ms : List (Nat × Nat)) : Prop :=
  (∀ e ∈ ms, t.fld (fPN_LEDn_MODE e.1) = e.2 % 8) ∧ ∀ n, (∀ e ∈ ms, e.1 ≠ n) → t.fld (fPN_LEDn_MODE n) = s.fld (fPN_LEDn_MODE n)

/-- The junction limit of the orderable code, 105 or 125 degrees in sixteenths (R1, R513). -/
def junctionLimit : Int := if Config.grade = 0 then 1680 else 2000
def dipped (a : Nat) (p : PwrState) : PwrState := { p with dipAngle := a }
def dippedHeld (a : Nat) (p : PwrState) : PwrState := { p with dipAngle := a, held := true }
def hDipped (a : Nat) (p : PwrState) : PwrState := { p with hDipAngle := a }
def unheld (p : PwrState) : PwrState := { p with held := false }
def hSide (off : Bool) (p : PwrState) : PwrState := { p with hOff := off }
def inMode (m : PwrMode) (p : PwrState) : PwrState := { p with mode := m }
def awake (p : PwrState) : PwrState := { p with mode := .run, woke := false, hOff := false }
/-- HALT and SLEEP are refused: a context is admitted, a port is enabled, or a command is committed (R517). -/
abbrev Busy (s : State) : Prop :=
  s.fld fCRY_STAT_NADMIT ≠ 0 ∨ (∃ n : Fin 64, linkEn s n.val = true) ∨ (∃ i ∈ jListed s, jState s i = 1)
/-- The frame to come: this tick's if its phase blocks have not begun (R267). -/
def comingFrame (s : State) : Nat := if tickNs s < 596 then tickNo s else tickNo s + 1

/-- As `Posted`, with the ANGLE at which the occurrence began (R510). -/
abbrev PostedAt (s t : State) (pg bit sev : Nat) (payload : List Byte) (a : Nat) : Prop :=
  pendBit t pg bit = true ∧ (pendBit s pg bit = true ∨ storeGet EvPay.zero t.evPay (evKey pg bit) = ⟨sev, payload, some a⟩)

/-- What a warm reset of the F-die does to its registers (R519): the always-on section keeps them, page 0x162 apart; elsewhere
a register without a retained bit takes its reset value; those of the H-die stay, but for QE_STAT (RESYNC). -/
abbrev WarmRegs (s t : State) : Prop :=
  (∀ k, k / 1024 < 0x1000 → alwaysOn (k / 1024) = true → k / 1024 ≠ 0x162 → t.rd k = s.rd k) ∧
  (∀ k, k / 1024 < 0x1000 → alwaysOn (k / 1024) = false → warmKeep k = 0 → t.rd k = regDflt k) ∧
  (∀ k, 0x1000 ≤ k / 1024 → k ≠ rQE_STAT → t.rd k = s.rd k)
/-- What a cold reset of the F-die does to its registers (R518): every page takes its reset values but page 0x162 and what
the boot writes; the OTP's word and the H-die stay. -/
abbrev ColdRegs (s t : State) : Prop :=
  (∀ k, k / 1024 < 0x1000 → k ≠ rSEC_OTPSTAT → k ≠ rSEC_STAT → k ≠ rSEC_BFAIL → k ≠ rCK_STAT → k ≠ rTJ_OCC → k ≠ rRST_STAT →
    k ≠ rEV_PEND secPg → t.rd k = regDflt k) ∧
  t.rd rSEC_OTPSTAT = s.rd rSEC_OTPSTAT ∧ t.rd rCK_STAT = 7 ∧
  (∀ k, 0x1000 ≤ k / 1024 → k ≠ rQE_STAT → k ≠ rEV_PEND 0x1020 → k ≠ rHP_STAT → t.rd k = s.rd k)
/-- What a cold reset of the H-die does to its registers (R518): reset values, but for the state of the pairs, the cause, and
what the journal's occupancy and the resync set. -/
abbrev HColdRegs (s t : State) : Prop :=
  (∀ k, 0x1000 ≤ k / 1024 → k ≠ rSH_PSTAT → k ≠ rHP_CAUSE → k ≠ rQE_STAT → k ≠ rEV_PEND 0x1020 → t.rd k = regDflt k) ∧
  t.rd rSH_PSTAT = s.rd rSH_PSTAT ∧ (∀ k, k / 1024 < 0x1000 → k ≠ rTJ_OCC → t.rd k = s.rd k)
/-- What a warm reset of the H-die does to its registers (R521): a register of which nothing is kept takes its reset value;
the F-die keeps all of its own. -/
abbrev HWarmRegs (s t : State) : Prop :=
  (∀ k, 0x1000 ≤ k / 1024 → hKeep k = 0 → k ≠ rQE_STAT → k ≠ rEV_PEND 0x1020 → t.rd k = regDflt k) ∧
  (∀ k, 0x1000 ≤ k / 1024 → hKeep k = 0xFFFFFFFF → k ≠ rHP_CAUSE → t.rd k = s.rd k) ∧
  (∀ k, k / 1024 < 0x1000 → k ≠ rTJ_OCC → t.rd k = s.rd k)

/-- The causes of warm resets as CAUSE numbers them (R518, R524). -/
def causeF : WarmF → Nat
  | .pin => 2
  | .register => 3
  | .mismatch => 4
def causeH : WarmH → Nat
  | .pin => 2
  | .perst => 3
  | .register => 4
/-- No operation of the Crystallizer, no fill and no replay runs, the F-die is in RUN, and no journal write runs. -/
abbrev Quiet (s : State) : Prop :=
  s.cry.op = none ∧ s.sal.fill = none ∧ s.flag fTJ_STAT_REPLAYING = false ∧ s.pwr.mode = .run ∧ s.tj.writes = [] ∧
  s.qe.queues = []
abbrev CoresReset (s t : State) : Prop := (∀ n : Fin 4, t.core n.val = Core.reset n.val) ∧ t.core 4 = s.core 4
def stopped (p : PwrState) : PwrState := { p with warm := true, logic := none, woke := false }
def released' (p : PwrState) : PwrState := { p with warm := false }
/-- The ports keep their registers; RK_POVR shows no override of a frame before the reset (R274, R519). -/
def povrCleared (b : BrineState) : BrineState :=
  { b with ports := (b.ports.map fun e => (e.1, { e.2 with povr := [] })).filter fun e => e.2 != BPort.reset }
/-- A core in reset keeps DFVEC, DFCAP and ESTKCAP once DFLOCK is set (R369, R379). -/
def heldReset (n : Nat) (c : Core) : Core :=
  if natBit c.dfvec.toNat 0 then
    { Core.reset n with dfvec := c.dfvec, sc := storeKeep (fun i => i == 2 || i == 3) c.sc }
  else Core.reset n
/-- The Crystallizer keeps its contexts and its table alone (R519). -/
def cryKept (c : CryState) : CryState := { CryState.reset with ctx := c.ctx, tt := c.tt }
/-- E0 as the boot ROM hands it to the image of slot `b` (R530, log 61). -/
def handed (s : State) (b : Nat) (c : Core) : Core :=
  { c with
    sc := storeSet Cap.zero (storeSet Cap.zero c.sc scDFCAP
      (Cap.make (img s b 0x18 8) (img s b 0x20 8) (2 ^ pLOAD + 2 ^ pEXEC + 2 ^ pSYS) 0)) scESTKCAP
      (Cap.make (img s b 0x28 8) (img s b 0x30 8) (2 ^ pLOAD + 2 ^ pSTORE + 2 ^ pLOADCAP + 2 ^ pSTORECAP) 0)
    dfvec := BitVec.ofNat 32 (img s b 0x14 4 / 4 * 4 + 1), pc := img s b 0x10 4 }
/-- The H-die but for its queues' state is as after reset (R521). -/
abbrev HBlocks (t : State) : Prop :=
  t.fab = FabState.reset ∧ t.pn = PanelState.reset ∧ t.evIn = [] ∧ t.core 4 = Core.reset 4 ∧ t.sl.inH = [] ∧ t.sl.initH = true ∧
  t.sl.telBuf = []

/-- Every clause of the Rake's retained state (R270, R519): its banks and latches stay, and of its holds those of stopped
cores end. -/
abbrev RakeRetained (s t : State) : Prop :=
  t.rk.rules = s.rk.rules ∧ t.rk.phases = s.rk.phases ∧ t.rk.lsafe = s.rk.lsafe ∧ t.rk.lalt = s.rk.lalt ∧ t.rk.lmin = s.rk.lmin ∧
  t.rk.holds = s.rk.holds.filter (fun h => h.cause != 5) ∧ t.rk.stage = [] ∧ t.rk.cnt = [] ∧ t.rk.trip = []

/-- The strip of order `o` runs on pan `p` when the reset stops it, after `k` of its writes (R149, R163). -/
abbrev CutAt (s : State) (p : Nat) (o : Order) (k : Nat) : Prop :=
  (panOf s p).run = some o ∧ (panOf s p).go = true ∧ (stripOf s o).fault = none ∧ k < (stripOf s o).writes.length

/-- A request reaches the F-die and its answer comes back at once (R14, R457, R462): a pair is UP, no restart is under way,
and no other cell, request or report is on its way. -/
abbrev Through (s : State) : Prop :=
  slUp s = true ∧ s.sl.initF = false ∧ s.sl.initH = false ∧ (∀ k : Fin 32, (slTxOf s k.val).cells = []) ∧
  slRxOf s 17 = ⟨(slTxOf s 17).next % 65536, []⟩ ∧ slRxOf s 2 = ⟨(slTxOf s 2).next % 65536, []⟩ ∧
  s.sl.inF.all (fun m => m.cls != 1) = true ∧ s.sl.inH.all (fun m => m.cls != 2) = true
/-- A request and the answer to it have crossed, and nothing of either is left. -/
abbrev WentAndCame (s t : State) : Prop :=
  (∀ k : Fin 32, (slTxOf t k.val).cells = []) ∧ (∀ k : Fin 32, k.val ≠ 17 → k.val ≠ 2 → slTxOf t k.val = slTxOf s k.val) ∧
  (∀ k : Fin 32, k.val ≠ 17 → k.val ≠ 2 → slRxOf t k.val = slRxOf s k.val) ∧
  { t.sl with tx := s.sl.tx, rx := s.sl.rx, lanes := s.sl.lanes } = s.sl
/-- The second copy of the request is dropped where two pairs are UP (R462). -/
def copies (s : State) : Nat := if 2 ≤ (slUpPairs s).length then satInc 32 (s.fld fSL_DUPDROP) else s.fld fSL_DUPDROP

/-- The endpoint without its link (R518). -/
def unlinked (e : QeState) : QeState := { e with linkUp := false, d3hot := false }

/-- One step of `k` values is taken: one at a time at TCLK rate, `k` at once in HALT and SLEEP (R402, R408). -/
abbrev OneStep (s : State) (k : BitVec 16) : Prop := (s.pwr.mode = .run ∧ k = 1) ∨ s.pwr.mode ≠ .run
/-- No capture of halt or sleep waits for the step (R408). -/
abbrev NoCapture (s : State) (n : Nat) : Prop := storeGet false s.ev.gtCap n = false
/-- The timer counts: enabled, in RUN, not frozen, and neither a CLR nor a capture waits (R402, R403, R408). -/
abbrev Counts (s : State) (n : Nat) : Prop :=
  pageEn s (gtPage n) = true ∧ s.flag (fGTn_CTRL_RUN n) = true ∧ frozen s (gtPage n) = false ∧
  storeGet false s.ev.gtClr n = false ∧ NoCapture s n
/-- The count passes value `v` at its `d`-th value from `c` on under top `r`: a whole lap where `v` is the count (R406). -/
def distance (c v r : Nat) : Nat := (v + r - c) % (r + 1) + 1
/-- What a match of unit `i` of timer `n` at cycle `f`, and a write of its value, leave in the event state (R405, R406). -/
def matchedAt (n i f : Nat) (e : EvState) : EvState := { e with gtCyc := storeSet 0 e.gtCyc (2 * n + i) (f + 1) }
def deferredTo (b : Bool) (n i : Nat) (e : EvState) : EvState := { e with gtDefer := storeSet false e.gtDefer (2 * n + i) b }
def capturesLater (b : Bool) (n : Nat) (e : EvState) : EvState := { e with gtCap := storeSet false e.gtCap n b }
/-- An immediate match can be signalled now: the page is on and not frozen, and the unit has not matched in this CCLK. -/
abbrev MatchesNow (s : State) (n i : Nat) : Prop :=
  pageEn s (gtPage n) = true ∧ frozen s (gtPage n) = false ∧ storeGet 0 s.ev.gtCyc (2 * n + i) ≠ fcycOf s + 1
def clrAt (b : Bool) (n : Nat) (e : EvState) : EvState := { e with gtClr := storeSet false e.gtClr n b }
def withPulses (l : List Pulse) (e : EvState) : EvState := { e with pulses := l }
def captured (n now : Nat) (e : EvState) : EvState := { e with capCyc := storeSet 0 e.capCyc n now }
/-- When a pulse of this CCLK acts, with `cfg` the channel's configuration: at once where its direct bit allows it, else two
CCLK later, or 1,025 in HALT and SLEEP (R411, R416). -/
def dueOf (s : State) (cfg : Word) (now : Nat) : Nat :=
  if s.pwr.mode = .run then (if cfg.getLsbD 30 then now else now + 2) else now + 1025
/-- Compare unit `i` is off, or its value is not passed in a step of `k` values. -/
abbrev NotPassed (s : State) (n i k : Nat) : Prop :=
  s.flag (fGTn_CMPk_CTRL_EN n i) = false ∨ s.fld (fGTn_RELOAD n) < s.fld (fGTn_CMPk_VALUE n i) ∨
  k < distance (s.fld (fGTn_COUNT n)) (s.fld (fGTn_CMPk_VALUE n i)) (s.fld (fGTn_RELOAD n))
abbrev Passed (s : State) (n i k : Nat) : Prop :=
  s.flag (fGTn_CMPk_CTRL_EN n i) = true ∧ s.fld (fGTn_CMPk_VALUE n i) ≤ s.fld (fGTn_RELOAD n) ∧
  distance (s.fld (fGTn_COUNT n)) (s.fld (fGTn_CMPk_VALUE n i)) (s.fld (fGTn_RELOAD n)) ≤ k
/-- No timer listens to the channel (R407). -/
abbrev NoTimer (s : State) (ch : Nat) : Prop :=
  ∀ n : Fin 32, (s.flag (fGTn_EVIN_CAPEN n.val) = false ∨ s.fld (fGTn_EVIN_CAPCH n.val) ≠ ch) ∧
    (s.flag (fGTn_EVIN_RSTEN n.val) = false ∨ s.fld (fGTn_EVIN_RSTCH n.val) ≠ ch)
/-- The pulse is the oldest of its channel, and its delivery wakes nothing. -/
abbrev Oldest (s : State) (ch : Nat) (p : Pulse) : Prop :=
  (s.ev.pulses.find? fun x => x.ch == ch) = some p ∧ s.pwr.mode = .run ∧ frozen s (egPage (ch / 16)) = false
/-- The event flag of a core that does not wait for it: a second arrival in a later CCLK sets EVOVR (R308, R412, R413). -/
def flaggedAt (now : Nat) (c : Core) : Core :=
  { c with status := c.status ||| 0x80000 ||| (if c.status.getLsbD 19 ∧ c.evfCyc ≠ now + 1 then 0x40000 else 0),
           evfCyc := now + 1 }
def unwaited' (now : Nat) (c : Core) : Core :=
  { c with status := c.status &&& ~~~(0x80200 : Word), wait := none, evfCyc := now + 1 }
/-- Interrupt line `j` of a core is pending; IOVR where it was (R354, R413). -/
def interruptedAt (j now : Nat) (c : Core) : Core :=
  { c with ipend := natBitSet c.ipend j true, iovr := c.iovr || (natBit c.ipend j && decide (storeGet 0 c.irqCyc j ≠ now + 1)),
           irqCyc := storeSet 0 c.irqCyc j (now + 1) }

def wokenUp (p : PwrState) : PwrState := { p with woke := true }
/-- The configuration that governs in the CCLK of its write is the old one (R415). -/
abbrev WrittenLater (s t : State) (ch : Nat) (v : Word) : Prop :=
  t.rd (rEVc_CFG ch) = writeFields (rEVc_CFG ch) (lockHeld s (rEVc_CFG ch / 1024)) (s.rd (rEVc_CFG ch)) v ∧ cfgNow t ch = cfgNow s ch

/-- Message `m` waits in the cells of sender `key`, in sequence; an idle lane may start a cell, and nothing else of the
Sluice changes (R454, R458, R461). -/
abbrev Sends (s t : State) (key : Nat) (m : Msg) : Prop :=
  (slTxOf t key).cells = (slTxOf s key).cells ++ (List.range m.parts).map (fun i =>
    (⟨((slTxOf s key).next + i) % 65536, i, m.parts, m⟩ : SlCell)) ∧
  (∀ k, k ≠ key → slTxOf t k = slTxOf s k) ∧ { t.sl with tx := s.sl.tx, lanes := s.sl.lanes } = s.sl
/-- Of the receivers and senders none but `key` changed. -/
abbrev OtherRx (s t : State) (key : Nat) : Prop := ∀ k, k ≠ key → slRxOf t k = slRxOf s k
abbrev OtherTx (s t : State) (key : Nat) : Prop := ∀ k, k ≠ key → slTxOf t k = slTxOf s k

/-- Pair `i` is in state `st` as both dies show it, and the other pairs are as before (R455). -/
abbrev PairNow (s t : State) (i st : Nat) : Prop :=
  slPair t i = st ∧ bitsGet (t.rd rSH_PSTAT) (4 * i) 4 = st ∧
  ∀ j : Fin 4, j.val ≠ i → slPair t j.val = slPair s j.val ∧ bitsGet (t.rd rSH_PSTAT) (4 * j.val) 4 = bitsGet (s.rd rSH_PSTAT) (4 * j.val) 4
/-- A pair that fell at stamp `f` may start again: 10 us have passed, or it never fell (`f` 0) (R455). -/
abbrev Rested (s : State) (f : Nat) : Prop := f = 0 ∨ f + 15360 ≤ fcycOf s + 1
abbrev pairRegs : List Nat := [rSL_PSTAT, rSH_PSTAT]
/-- Byte `i` of a register holds `v`. -/
abbrev ByteNow (t : State) (k i v : Nat) : Prop := bitsGet (t.rd k) (8 * i) 8 = v
/-- A delivered cell completes its message with its last part: the inboxes after it (R459). -/
def inboxF (dir : Bool) (c : SlCell) (l : List Msg) : List Msg := if dir ∧ c.part + 1 = c.parts then l ++ [c.msg] else l
def inboxH (dir : Bool) (c : SlCell) (l : List Msg) : List Msg := if ¬ dir ∧ c.part + 1 = c.parts then l ++ [c.msg] else l
abbrev keyOf (dir : Bool) (cls : Fin 8) : Nat := (if dir then 16 else 0) + cls.val
/-- What lane `p` of a direction carries; its distance from the SEQ next expected (R458, R459, R461). -/
def laneFly (s : State) (dir : Bool) (p : Fin 4) : Option (Nat × SlCell) := storeGet none s.sl.lanes.fly ((if dir then 4 else 0) + p.val)
abbrev OnLane (s : State) (dir : Bool) (p : Fin 4) (cls : Fin 8) (c : SlCell) : Prop := laneFly s dir p = some (keyOf dir cls, c)
/-- No debug request waits for the agent, or is completed by what comes in (R490). -/
abbrev NoDebug (l : List Msg) : Prop := l.all (fun m => m.cls != 7) = true
/-- Pair `p` alone is UP, and no second copy is due. -/
abbrev OneLane (s : State) (p : Fin 4) : Prop := slUpPairs s = [p.val] ∧ s.sl.lanes.again = []
/-- Nothing of a class is left to send; the first cell of a class is still to be sent (R458). -/
abbrev NoCell (s : State) (dir : Bool) (cls : Fin 8) : Prop := (slTxOf s (keyOf dir cls)).cells = []
abbrev FirstCell (s : State) (dir : Bool) (cls : Fin 8) (c : SlCell) : Prop :=
  (slTxOf s (keyOf dir cls)).cells.head? = some c ∧ storeGet 0 s.sl.lanes.sent (keyOf dir cls) = 0
def ahead (s : State) (dir : Bool) (cls : Fin 8) (c : SlCell) : Nat := (c.seq + 65536 - (slRxOf s (keyOf dir cls)).exp) % 65536
/-- The cells that a cumulative acknowledgement of everything before `exp` leaves at the sender (R458). -/
def unacked (exp : Nat) (l : List SlCell) : List SlCell := l.filter fun c => decide ((c.seq + 65536 - exp) % 65536 < 32768)
/-- The Sluice restarts with nothing held, and counts the event records that were lost (R465). -/
def restartedSl (n : Nat) (l : SlState) : SlState := { l with tx := [], rx := [], lanes := SlLanes.reset, evLost := l.evLost + n }
/-- A link cell of code `c` was acted on at die `d` (R454). -/
def coded (d c f : Nat) (l : SlState) : SlState := { l with code := storeSet 0 l.code (d * 16 + c) (f + 1) }
def initSet (h b : Bool) (l : SlState) : SlState := if h then { l with initH := b } else { l with initF := b }
/-- A link cell of code `c` acts at die `d`: the Sluice is up, and no copy acted within 1,536 CCLK (R454). -/
abbrev Acts (s : State) (d c : Nat) : Prop :=
  slUp s = true ∧ (storeGet 0 s.sl.code (d * 16 + c) = 0 ∨ storeGet 0 s.sl.code (d * 16 + c) + 1536 ≤ fcycOf s)
def noLost (l : SlState) : SlState := { l with evLost := 0 }

/-- The first message of class `cls` in the inbox of the H side, or of the F side. -/
abbrev FirstH (s : State) (cls : Nat) (m : Msg) : Prop := (s.sl.inH.find? fun x => x.cls == cls) = some m
abbrev FirstF (s : State) (cls : Nat) (m : Msg) : Prop := (s.sl.inF.find? fun x => x.cls == cls) = some m
def tookH (m : Msg) (l : SlState) : SlState := { l with inH := l.inH.erase m }
def tookF (m : Msg) (l : SlState) : SlState := { l with inF := l.inF.erase m }
/-- The message waits alone, whole and in sequence in a sender's cells, the Sluice being up: its receiver takes it (R462). -/
abbrev Crossing (s : State) (key : Nat) (m : Msg) : Prop :=
  slUp s = true ∧ (slRxOf s key).held = [] ∧ m.parts = 1 ∧ (slTxOf s key).cells = [⟨(slRxOf s key).exp, 0, 1, m⟩] ∧
  (slRxOf s key).exp < 65536
abbrev Crossed (s t : State) (key : Nat) : Prop :=
  (slTxOf t key).cells = [] ∧ (slRxOf t key).exp = ((slRxOf s key).exp + 1) % 65536
def telTaken (m : Msg) (b : List Byte) (l : SlState) : SlState := { l with inH := l.inH.erase m, telBuf := b }
def noWait (l : SlState) : SlState := { l with timeWait := none }
def timeSent (f : Nat) (l : SlState) : SlState := { l with timeLast := f }
def timeWaits (f : Nat) (l : SlState) : SlState := { l with timeLast := f, timeWait := some f }
/-- An interval of R54 ends (R468). -/
def intervalEnded (t : TbState) : TbState := { t with fabMiss := if t.fabOk then 0 else t.fabMiss + 1, fabOk := false }
/-- The PTP clock in ns at cycle count `f`, a CCLK adding 125/192 ns adjusted by PT_ADJ (R468, R470). -/
def ptpThen (s : State) (f : Nat) : Nat :=
  (s.fab.time - (fcycOf s - f) * (125 * (2 ^ 32 + signedOf 32 (s.rd rPT_ADJ).toNat)).toNat) / (192 * 2 ^ 32)
def stamped (s : State) (f : Nat) : List (Nat × Nat) :=
  (s.fab.stamps ++ [(f, ptpThen s f)]).drop ((s.fab.stamps.length + 1) - 16)

/-- Cells of the last telemetry block wait or are on a lane (R466). -/
abbrev TelSending (s : State) : Prop :=
  storeGet 0 s.sl.lanes.sent 4 < (slTxOf s 4).cells.length ∨ ∃ p : Fin 4, (laneFly s false p).map (·.1) = some 4

/-- ANGLE on the H side when a message that left at cycle `f` with ANGLE `a` and RATE `r` is taken, and its tick (R469). -/
def angleNow (s : State) (f a r : Nat) : Nat := a + (fcycOf s - f) * r / 2 ^ 32
def tickNow (s : State) (f a k r n : Nat) : Nat := k + (boundaryNo n (angleNow s f a r) - boundaryNo n a)
/-- The H side's copies after a time message; they never decrease (R469). -/
abbrev CopiesTaken (s t : State) (f a k r n : Nat) : Prop :=
  t.rd64 rSH_ANGLE = max (s.rd64 rSH_ANGLE) (angleNow s f a r) % 2 ^ 64 ∧
  t.rd64 rSH_TICKNO = max (s.rd64 rSH_TICKNO) (tickNow s f a k r n) % 2 ^ 64 ∧
  t.sl.shReal = angleNow s f a r ∧ t.sl.shTick = tickNow s f a k r n ∧ t.sl.shSub = 0 ∧ t.sl.shRate = r ∧ t.sl.shN = n
/-- PTP ns per CCLK as a fraction, over the first and the last of the stamps (R470). -/
def slopeNow (l : List (Nat × Nat)) : Nat × Nat :=
  match l.head?, l.getLast? with
  | some a, some b => if a.1 < b.1 then (b.2 - a.2, b.1 - a.1) else (125, 192)
  | _, _ => (125, 192)
def stampedFab (l : List (Nat × Nat)) (x : FabState) : FabState := { x with stamps := l }

abbrev PortOn (s : State) (m : Nat) : Prop :=
  (s.fld (fETHm_CTRL_MODE m) = 1 ∨ s.fld (fETHm_CTRL_MODE m) = 2) ∧ s.flag (fETHm_STAT_LINK m) = true
/-- A frame leaves on port 0 where it is up, else on port 1 where that is up (R477). -/
abbrev SendsOn (s : State) (m : Fin 2) : Prop := PortOn s m.val ∧ (m = 0 ∨ ¬ PortOn s 0)
/-- The IPv6 address that four registers hold. -/
def address (s : State) (r : Nat → Nat) : Nat :=
  (s.rd (r 0)).toNat + (s.rd (r 1)).toNat * 2 ^ 32 + (s.rd (r 2)).toNat * 2 ^ 64 + (s.rd (r 3)).toNat * 2 ^ 96
/-- A message to HG_PORT of an address (R476). -/
def ethOuts (s : State) (d : Nat × List Byte) : List Out :=
  if PortOn s 0 then [.eth 0 d.1 (s.fld fHG_PORT) d.2] else if PortOn s 1 then [.eth 1 d.1 (s.fld fHG_PORT) d.2] else []
/-- The messages `l` left, newest first, each to its address and counted on its port. -/
abbrev Sent (s t : State) (l : List (Nat × List Byte)) : Prop :=
  t.out = (l.reverse.flatMap fun d => ethOuts s d) ++ s.out ∧
  ∀ m : Fin 2, t.fld (fETHm_TXFRM m.val) = if SendsOn s m then satAdd 32 (s.fld (fETHm_TXFRM m.val)) l.length else s.fld (fETHm_TXFRM m.val)
/-- An accepted frame: PTP, UDP to the harvest port, or ICMPv6 (R473). -/
def accepted (s : State) (k : EthKind) : Bool :=
  match k with | .ptp => true | .udp6 p => p.toNat == s.fld fHG_PORT | .icmp6 => true | .other => false
def servoGood (n : Nat) (x : FabState) : FabState := { x with good := n }
/-- The offset is this port's and this domain's to follow (R474). -/
abbrev Follows (s : State) (m : Fin 2) (d : Byte) : Prop :=
  ((s.fld fPT_CTRL_ROLE = 1 ∧ s.fld fPT_CTRL_OCPORT = m.val) ∨ s.fld fPT_CTRL_ROLE = 2) ∧ s.fld fPT_CTRL_DOMAIN = d.toNat
def stepped (ns : Int) (x : FabState) : FabState := { x with time := ((x.time : Int) + ns * (192 * 2 ^ 32)).toNat }
/-- The round being planned (R477), and the headers and bodies of R479 to R481. -/
def planRound (s : State) : Nat := (s.rd64 rSH_ANGLE / 16777216 / max 1 (s.fld fHG_RTURNS) + 1) % 2 ^ 32
def planHead (s : State) (ty dst round len : Nat) : List Byte :=
  bytesOfNat 2 0x4748 ++ bytesOfNat 1 1 ++ bytesOfNat 1 ty ++ bytesOfNat 2 (s.fld fHG_GROUP) ++ bytesOfNat 2 (s.fld fHG_NODE) ++
  bytesOfNat 2 dst ++ bytesOfNat 4 round ++ bytesOfNat 2 len
def planOf (s : State) (dst : Nat) (tot : List Int) (mem : Nat) : List Byte :=
  planHead s 1 dst (planRound s) 132 ++ (tot.map fun x => bytesOfNat 8 (wrapTo 64 x)).flatten ++ bytesOfNat 4 mem
def allocOf (s : State) (dst round : Nat) (scale : List Nat) (mem : Nat) : List Byte :=
  planHead s 2 dst round 36 ++ (scale.map fun x => bytesOfNat 2 x).flatten ++ bytesOfNat 4 mem
/-- max(0, P_j) of the latest telemetry block (R479). -/
def ownTotal (s : State) : List Int := (List.range 16).map fun j => max 0 (signedOf 32 (numAt s.sl.telBuf (4 * j) 4))
def planHeld (p : Plan) (x : FabState) : FabState := { x with plans := x.plans.filter (fun q => q.node != p.node) ++ [p] }
/-- The inbox record (R482): its round, VALID and CAPPED, the stagger, the members, the scales. -/
def inboxBytes (s : State) (r : Nat) (a : Option Alloc) : List Byte :=
  bytesOfNat 4 r ++
  (match a with
    | some x => bytesOfNat 1 (1 + 2 * (if ∃ v ∈ x.scale, v < 0x7FFF then 1 else 0)) ++ bytesOfNat 3 0 ++ bytesOfNat 4 (staggerOf (s.fld fHG_NODE)) ++
        bytesOfNat 4 x.members ++ (x.scale.map fun v => bytesOfNat 2 v).flatten
    | none => bytesOfNat 4 0 ++ bytesOfNat 4 (staggerOf (s.fld fHG_NODE)) ++ bytesOfNat 36 0) ++ bytesOfNat 16 0
def allocHeld (a : Alloc) (x : FabState) : FabState := { x with alloc := some a, inbox := some a.round }
def missNoted (r : Nat) (x : FabState) : FabState := { x with inbox := some r }
/-- The fields of a received header match, and it is of the round being planned (R480). -/
abbrev HeadOk (s : State) (h : HgHdr) (ty len : Nat) : Prop :=
  h.magic = 0x4748 ∧ h.ver = 1 ∧ h.ty.toNat = ty ∧ h.group.toNat = s.fld fHG_GROUP ∧ h.len.toNat = len ∧ h.round.toNat = planRound s
abbrev leafOf (s : State) (h : HgHdr) : Prop := h.src.toNat / 256 = s.fld fHG_NODE / 256
/-- The step of R477 by which a PLAN must have come, in the turn before the round. -/
abbrev TooLate (s : State) (frac : Nat) : Prop :=
  (s.rd64 rSH_ANGLE / 16777216 + 1) % max 1 (s.fld fHG_RTURNS) = 0 ∧ frac ≤ s.rd64 rSH_ANGLE % 16777216

/-- The PLANs of the round that an aggregator sums, and that the root sums; their totals, members and nodes (R477, R480). -/
def leafPlans (s : State) : List Plan := s.fab.plans.filter fun p => p.round == planRound s && decide (p.node < 65536)
def aggrPlans (s : State) : List Plan := s.fab.plans.filter fun p => p.round == planRound s && decide (65536 ≤ p.node)
def totals (l : List Plan) : List Int := (List.range 16).map fun j => (l.map fun p => p.total.getD j 0).sum
def members (l : List Plan) : Nat := (l.map fun p => p.members).sum
/-- The members of the last round that sent nothing in this one (R480). -/
def missing (s : State) : List Nat := s.fab.prev.filter fun n => !(leafPlans s).any fun p => p.node == n
def nodesNow (s : State) (x : FabState) : FabState := { x with prev := (leafPlans s).map fun p => p.node }
/-- SCALE_j: the cap over the total in fifteenths of bits, at most 0x7FFF (R481). -/
def scaled (cap : Nat) (tot : Int) : Nat := if tot ≤ 0 then 0x7FFF else min 0x7FFF (cap * 32768 / tot.toNat)
def allocNow (s : State) : Alloc := ⟨planRound s, (totals (aggrPlans s)).map (scaled (s.rd64 rHG_CAP)), members (aggrPlans s)⟩

/-- The address an ALLOC must come from (R480). -/
def parent (s : State) : Nat := address s (if s.fld fHG_NODE % 256 = 0 then rHG_ROOTi else rHG_AGGRi)
def allocIn (h : HgHdr) (sc : List (BitVec 16)) (mem : BitVec 16) : Alloc := ⟨h.round.toNat, sc.map fun x => x.toNat, mem.toNat⟩

/-- The queues but `q` are as before, and so is everything of the queue engine beside its queues. -/
abbrev OtherQ (s t : State) (q : Nat) : Prop :=
  (∀ k, k ≠ q → queueOf t k = queueOf s k) ∧ { t.qe with queues := s.qe.queues } = s.qe

/-- Vector `v` is masked; what leaves for it, and its pending bit (R421, R428). -/
def masked (s : State) (v : Nat) : Bool := natBit (msixWord s (4 * v + 3)).toNat 0
def msixOut (s : State) (v : Nat) : List Out :=
  if masked s v then []
  else [.msix v ((msixWord s (4 * v)).toNat + (msixWord s (4 * v + 1)).toNat * 2 ^ 32) (msixWord s (4 * v + 2)).toNat]
abbrev VectorSet (s t : State) (v : Nat) : Prop :=
  t.rd (rPX_PBAi (v / 32)) = if masked s v then s.rd (rPX_PBAi (v / 32)) ||| BitVec.ofNat 32 (2 ^ (v % 32)) else s.rd (rPX_PBAi (v / 32))
/-- A record of 32 bytes at the tail of queue `x`, PHASE in bit 31 of its first word (R420, R425). -/
def recordOut (x : Queue) (w0 : Nat) (rest : List Byte) : Out :=
  .hostWrite (x.cqBase + 32 * (x.cqTail % 2 ^ x.cqLog)) (bytesOfNat 4 (w0 + (if x.cqTail / 2 ^ x.cqLog % 2 = 0 then 2 ^ 31 else 0)) ++ rest)
/-- How far a tail or head index `i` lies ahead of count `n` in a ring of `m` slots (R426). -/
def forward (i n m : Nat) : Nat := (i + m - n % m) % m
def atTail (v : Nat) (x : Queue) : Queue := { x with sqTail := v }
def atHead (v : Nat) (x : Queue) : Queue := { x with cqHead := v }
def armedQ (b : Bool) (x : Queue) : Queue := { x with armed := b }
def withOp (o : Option QOp) (e : QeState) : QeState := { e with op := o }
def qErr (code : Nat) (x : Queue) : Queue := { x with st := 2, err := code }
/-- Entry `e` as the queue engine holds it (R429, R436). -/
def fetchedCmd (x : Queue) (e : List Byte) : QCmd :=
  { cseq := numAt e 4 4, st := .fetched, slot := some x.fetch, entry := bytesAt e 0 64, idx := 0, ta := 0, angle := 0, cqPos := 0, rep := 0 }
def takenNew (e : List Byte) (x : Queue) : Queue :=
  { x with h := numAt e 4 4, resv := x.resv + 2, fetch := x.fetch + 1, cmds := x.cmds ++ [fetchedCmd x e] }
/-- The queue has an entry that may be fetched (R422, R430, R435). -/
abbrev OpenQ (s : State) (q : Nat) : Prop :=
  (queueOf s q).st = 1 ∧ (queueOf s q).ty = 1 ∧ (queueOf s q).fetch < (queueOf s q).sqTail ∧
  2 ≤ 2 ^ (queueOf s q).cqLog - ((queueOf s q).cqTail - (queueOf s q).cqHead) - (queueOf s q).resv ∧
  s.flag fQE_STAT_JFULL = false ∧ s.flag fQE_STAT_RESYNC = false ∧ qeBlocked s = false
/-- How far queue `q` comes after the present one in the rotation (R435). -/
def turnsAway (s : State) (q : Nat) : Nat := (q + 65535 - s.qe.turn) % 65536
/-- It is the queue's turn: it has begun its turn of up to 4 entries and the turn lasts, or the present turn is over and
no open queue comes sooner in the rotation (R435). -/
abbrev ItsTurn (s : State) (q : Nat) : Prop :=
  (s.qe.left ≠ 0 ∧ s.qe.turn = q) ∨
  (¬ (s.qe.left ≠ 0 ∧ OpenQ s s.qe.turn) ∧ ∀ e ∈ s.qe.queues, OpenQ s e.1 → e.1 = q ∨ turnsAway s q < turnsAway s e.1)
/-- The engine fetches from the queue next (R422, R430, R435). -/
abbrev MayFetch (s : State) (q : Nat) : Prop := OpenQ s q ∧ ItsTurn s q
/-- The queues have 16-bit numbers. -/
abbrev QNums (s : State) : Prop := s.qe.turn < 65536 ∧ ∀ e ∈ s.qe.queues, e.1 < 65536
/-- One entry is fetched: the turn of 4 goes on, or begins (R435). -/
def turned (s : State) (q : Nat) (e : QeState) : QeState :=
  { e with turn := q, left := if s.qe.left ≠ 0 ∧ s.qe.turn = q then s.qe.left - 1 else 3 }
abbrev BadEntry (e : List Byte) : Prop := 3 ≤ numAt e 1 1 ∨ 64 ≤ numAt e 3 1 ∨ numAt e 8 8 ≠ 0
/-- The distance of an entry's CSEQ from the last accepted one (R436). -/
def gap (x : Queue) (e : List Byte) : Nat := (numAt e 4 4 + 2 ^ 32 - x.h) % 2 ^ 32

/-- A ring that passes the end of the address space, or sizes out of range: 4 to 65,536 CQ or EQ slots, 2 to 65,536 SQ slots, and none for an event queue (R424). -/
abbrev SizesBad (s : State) (ty : Nat) : Prop :=
  2 ^ 64 < s.rd64 rQE_CQBASE / 4096 * 4096 + 32 * 2 ^ s.fld fQE_QCFG_CQLOG2 ∨
  (ty = 1 ∧ 2 ^ 64 < s.rd64 rQE_SQBASE / 4096 * 4096 + 64 * 2 ^ s.fld fQE_QCFG_SQLOG2) ∨
  s.fld fQE_QCFG_CQLOG2 < 2 ∨ 16 < s.fld fQE_QCFG_CQLOG2 ∨
  (ty = 1 ∧ (s.fld fQE_QCFG_SQLOG2 < 1 ∨ 16 < s.fld fQE_QCFG_SQLOG2)) ∨ (ty = 2 ∧ s.fld fQE_QCFG_SQLOG2 ≠ 0)
/-- The queue that the registers describe (R424). -/
def described (s : State) (ty : Nat) : Queue :=
  { Queue.absent with
    st := 1, ty := ty, sqBase := s.rd64 rQE_SQBASE / 4096 * 4096, cqBase := s.rd64 rQE_CQBASE / 4096 * 4096,
    sqLog := if ty = 1 then s.fld fQE_QCFG_SQLOG2 else 0, cqLog := s.fld fQE_QCFG_CQLOG2, vec := s.fld fQE_QCFG_VECTOR }
def fromSeq (h : Nat) (x : Queue) : Queue := { x with h := h }
/-- A journal entry restored at CREATE_CMD: committed, two slots reserved, its outcome open (R446, R448). -/
def restored (s : State) (i : Nat) (x : Queue) : Queue :=
  { x with h := jCseq s i, resv := x.resv + 2, cmds := [{ cseq := jCseq s i, st := .committed, slot := none, entry := acceptedEntry s i, idx := i, ta := (jInfo s i).ta, angle := (jInfo s i).angle, cqPos := 0, rep := 7 }] }

/-- The queue waits for the journal (R448). -/
def asked (s : State) : Queue := fromSeq (s.rd rQE_LASTSEQ).toNat (described s 1)

/-- A duplicate that waits for its original, of CSEQ `c.cseq`, still open at the F-die (R436). -/
def takenDupl (e : List Byte) (x : Queue) : Queue :=
  { x with resv := x.resv + 1, fetch := x.fetch + 1, cmds := x.cmds ++ [{ fetchedCmd x e with st := .dup }] }
/-- The DUPLICATE record is written, its slot spent, and the duplicate forgotten (R430, R436). -/
def duplOut (s : State) (x : Queue) (e : List Byte) : Out :=
  recordOut x (2 + 2 * 2 ^ 8)
    (bytesOfNat 4 (numAt e 4 4) ++ bytesOfNat 2 ((x.fetch + 1) % 2 ^ x.sqLog) ++ bytesOfNat 2 0 ++
      bytesOfNat 4 (numAt (bytesAt e 0 64) 0 1 + numAt (bytesAt e 0 64) 1 1 % 4 * 2 ^ 8 + numAt (bytesAt e 0 64) 2 2 % 16384 * 2 ^ 10) ++
      bytesOfNat 8 (s.rd64 rSH_ANGLE) ++ bytesOfNat 8 (s.rd64 rSH_TICKNO))
def duplRecord (x : Queue) : Queue := { x with fetch := x.fetch + 1, cqTail := x.cqTail + 1, armed := false }

/-- The command may not go yet: its target's mailbox is full, or another target's command of the queue is open (R98). -/
abbrev HeldBack (s : State) (q : Nat) (c : QCmd) : Prop := cmdHeld s q c = true
def sentCmd (c : QCmd) (x : Queue) : Queue := { x with cmds := x.cmds.map fun e => if e = c then { c with st := .sent } else e }

/-- A record in an event queue, and one dropped (R432 to R434). -/
def eventTaken (x : Queue) : Queue := { x with seq := (x.seq + 1) % 2 ^ 32, cqTail := x.cqTail + 1, armed := false }
def eventDropped (x : Queue) : Queue :=
  { x with seq := (x.seq + 1) % 2 ^ 32, drop := min (x.drop + 1) 0xFFFFFFFF, dropNew := x.dropNew + 1,
           dropSeq := if x.dropNew = 0 then x.seq else x.dropSeq }
def dieCode (d : Die) : Nat := match d with | .F => 0 | .H => 1
def full (x : Queue) : Bool := decide (2 ^ x.cqLog ≤ (x.cqTail - x.cqHead) + x.resv)
def eventOut (x : Queue) (r : EvRec) : Out :=
  recordOut x (r.ty % 65536 + r.page % 1024 * 2 ^ 16 + r.sev * 2 ^ 26 + dieCode r.die * 2 ^ 30)
    (bytesOfNat 4 x.seq ++ bytesOfNat 8 r.angle.toNat ++ bytesAt r.payload 0 16)

/-- What the OVERFLOW record does: it takes a slot, and new records are counted afresh (R434). -/
def overflowed (x : Queue) : Queue := { x with dropNew := 0, cqTail := x.cqTail + 1, armed := false }
def overflowOut (s : State) (x : Queue) : Out :=
  recordOut x (0x100 + 0x20 * 2 ^ 16 + 2 * 2 ^ 26 + 2 ^ 30)
    (bytesOfNat 4 x.dropSeq ++ bytesOfNat 8 (s.rd64 rSH_ANGLE) ++ bytesOfNat 4 (min x.dropNew 0xFFFFFFFF) ++ bytesOfNat 12 0)
def linked (e : QeState) : QeState := { e with linkUp := true }
def inD3 (b : Bool) (e : QeState) : QeState := { e with d3hot := b }

/-- A journal entry's place in MRAM (R439). -/
def entryAt (i : Nat) : Nat := 0xF00000 + 64 * i
/-- The bound of a class, and the deadline of an entry committed now (R439). -/
def classBound (s : State) (cls : Nat) : Nat := if cls = 0 then 16 else if cls = 1 then 256 else s.tb.nCur + 256
def classDeadline (s : State) (cls : Nat) : Nat :=
  (boundaryAngle s.tb.nCur (boundaryNo s.tb.nCur (angleOf s) + classBound s cls + 1) + 65535) / 65536
/-- The 64 bytes of an entry committed now for queue `q` (R439). -/
def committedBytes (s : State) (q : Nat) (e : List Byte) : List Byte :=
  bytesAt e 0 1 ++ bytesOfNat 1 (numAt e 1 1 % 4 + 16) ++ bytesAt e 2 6 ++ bytesOfNat 2 q ++
  bytesOfNat 6 (classDeadline s (numAt e 1 1 % 4)) ++ bytesAt e 16 48
def committedInfo (s : State) (e : List Byte) : JInfo :=
  { noticed := false, ta := tickNo s, angle := angleOf s, bound := classBound s (numAt e 1 1 % 4), age := 0, byDl := false,
    held := false, seq := s.tj.seq + 1, skip := 0, verdict := none, fcyc := fcycOf s, oAngle := 0, oTick := 0 }
def writing (w : JWrite) (j : TjState) : TjState := { j with last := w.idx, writes := j.writes ++ [w] }
def replayUsed (j : TjState) : TjState := { j with replayOk := false }
def noticedInfo (x : JInfo) : JInfo := { x with noticed := true }
def heldInfo (s : State) : JInfo := { JInfo.zero with byDl := true, held := true, seq := s.tj.seq + 1 }
/-- The record of a queue's command: kind, status and REPLAY, CSEQ, SQHEAD, the command, ANGLE and tick (R430). -/
def cmdRecord (x : Queue) (kind status rep : Nat) (head : Nat) (c : QCmd) (angle tick : Nat) : Out :=
  recordOut x (kind + status * 2 ^ 8 + rep * 2 ^ 12)
    (bytesOfNat 4 c.cseq ++ bytesOfNat 2 (head % 2 ^ x.sqLog) ++ bytesOfNat 2 0 ++
      bytesOfNat 4 (numAt c.entry 0 1 + numAt c.entry 1 1 % 4 * 2 ^ 8 + numAt c.entry 2 2 % 16384 * 2 ^ 10) ++
      bytesOfNat 8 angle ++ bytesOfNat 8 tick)
def committedCmd (i ta an : Nat) (c : QCmd) : QCmd := { c with st := .committed, idx := i, ta := ta, angle := an }
def oneCmd (c : QCmd) (x : Queue) : Queue := { x with cmds := [c] }
/-- The ACCEPT record of a queue's one command has been written (R430, R437). -/
def acceptWritten (c : QCmd) (x : Queue) : Queue :=
  { x with cmds := [{ c with st := .accepted }], resv := x.resv - 1, cqTail := x.cqTail + 1, armed := false }
def completeWritten (c : QCmd) (x : Queue) : Queue :=
  { x with cmds := [{ c with st := .completed, cqPos := x.cqTail }], resv := x.resv - 1, cqTail := x.cqTail + 1, armed := false }
/-- STATUS of a COMPLETE record from that of the outcome: APPLIED 1, REFUSED 3, EXPIRED 4 (R431). -/
def outcomeCode (st : Nat) : Nat := if st = 1 then 1 else if st = 2 then 3 else 4
abbrev OtherInfos (s t : State) (i : Nat) : Prop := ∀ m, m ≠ i → jInfo t m = jInfo s m

def isNotice (m : Msg) : Bool := match m with | .notice _ => true | _ => false
def isRelease (m : Msg) : Bool := match m with | .release _ => true | _ => false

/-- Every other pan is as before. -/
abbrev OtherPan (s t : State) (p : Nat) : Prop := ∀ q, q ≠ p → panOf t q = panOf s q
/-- Of the Pan engine's own state nothing but the pans changed. -/
abbrev OnlyPans (s t : State) : Prop := { t.pan with pans := s.pan.pans } = s.pan
/-- Of the Pan engine's own state nothing but the pans and the count of unread records changed. -/
abbrev PansRing (s t : State) : Prop := { t.pan with pans := s.pan.pans, unread := s.pan.unread } = s.pan

/-- What becomes of a pan as an order joins a queue, starts, yields or leaves (R143, R146, R158). -/
def withLq (o : Order) (x : Pan) : Pan := { x with lq := x.lq ++ [o] }
def withBq (o : Order) (x : Pan) : Pan := { x with bq := x.bq ++ [o] }
def startsLq (s : State) (o : Order) (r : List Order) (x : Pan) : Pan :=
  { x with lq := r, run := some o, yielding := false, stripAt := fcycOf s, first := true, go := true }
def starts (s : State) (o : Order) (x : Pan) : Pan :=
  { x with run := some o, yielding := false, stripAt := fcycOf s, first := true, go := true }
def refusesBq (r : List Order) (x : Pan) : Pan := { x with bq := r }
/-- R214: a background strip waits while contexts are admitted, unless its bound keeps within PRE or ends before the next
launch point can come. `first`: the order has been started or continued, and no strip of it has committed since. -/
abbrev StripWaits (s : State) (o : Order) (first : Bool) : Prop :=
  let hi := min (dLen o.desc) ((o.pos / 256 + 1) * 256)
  let b := stripBound (dispOf s) (ttOf s) o.desc (hi - o.pos) first (decide (dLen o.desc ≤ hi))
  nadmit s ≠ 0 ∧ s.fld fCRY_PANPRE < b ∧ s.cry.lastLaunch + capT s ≤ fcycOf s + b
def mayStrip (s : State) (o : Order) (first : Bool) : Bool := !decide (StripWaits s o first)
def startsBq (s : State) (o : Order) (r : List Order) (x : Pan) : Pan :=
  { x with bq := r, run := some o, yielding := false, stripAt := fcycOf s, first := true, go := mayStrip s o true }
def continues (s : State) (o : Order) (x : Pan) : Pan :=
  { x with run := some o, yielded := none, yielding := false, stripAt := fcycOf s, first := true, go := mayStrip s o true }
/-- A strip has committed, and the order goes on. -/
def goesOnTo (s : State) (o : Order) (x : Pan) : Pan :=
  { x with run := some o, stripAt := fcycOf s, first := false, go := o.launched || mayStrip s o false }
def gaveWay (o : Order) (x : Pan) : Pan := { x with run := none, yielded := some { o with coef := [] }, yielding := false }
def ends (x : Pan) : Pan := { x with run := none, yielding := false }
def stops (x : Pan) : Pan := { x with run := none }
def holds (o : Order) (x : Pan) : Pan := { x with run := none, yielding := false, held := some o }
def unblocked (x : Pan) : Pan := { x with held := none }
def resumed (o : Order) (x : Pan) : Pan := { x with held := none, yielded := some o }
def flushed (x : Pan) : Pan := { x with held := none, bq := [] }
/-- An order as it is queued: nothing committed yet. -/
def newOrder (src : OrdSrc) (d : List Word) (k : Cap) : Order := ⟨src, d, k, 0, 0, 0, RedState.empty, []⟩
/-- The eight words of a descriptor. -/
def descOf (bs : List Byte) : List Word := (List.range 8).map fun i => BitVec.ofNat 32 (natOfBytes bs / 2 ^ (32 * i))
/-- PANQ changed no queue and wrote why in LASTZ. -/
abbrev NotQueued (s t : State) (c why : Nat) : Prop := t.pan = s.pan ∧ t.fld (fPAN_CRSTATc_LASTZ c) = why ∧ ringResv t c = ringResv s c
/-- The bytes of a completion record (R156). -/
def completionOf (s : State) (o : Order) (ticket status cause done : Nat) : List Byte :=
  bytesOfNat 2 ticket ++ bytesOfNat 1 (cause * 16 + status) ++ bytesOfNat 1 (headPan o.desc * 64 + o.flags) ++
  bytesOfNat 4 done ++ bytesOfNat 8 (tickNo s)
/-- Where core `c`'s next record goes. -/
def recordAt (s : State) (c : Nat) : Nat := ringBase s c + 16 * s.fld (fPAN_CRHEADc c)
/-- The ring of core `c` takes a record: it is configured and its head lies in it. -/
abbrev RingOk (s : State) (c : Nat) : Prop :=
  4 ≤ s.fld (fPAN_CRCFGc_LOG2N c) ∧ s.fld (fPAN_CRCFGc_LOG2N c) ≤ 12 ∧ s.fld (fPAN_CRHEADc c) < 2 ^ s.fld (fPAN_CRCFGc_LOG2N c) ∧
  recordAt s c + 16 ≤ salSize
/-- The head has moved to the next place of the ring, with one more unread record. -/
abbrev HeadMoved (s t : State) (c : Nat) : Prop :=
  t.fld (fPAN_CRHEADc c) = (s.fld (fPAN_CRHEADc c) + 1) % 2 ^ s.fld (fPAN_CRCFGc_LOG2N c) ∧ ringUnread t c = ringUnread s c + 1
/-- An order that fits the fields of its record. -/
abbrev OrderOk (o : Order) (t : Nat) : Prop := o.flags < 64 ∧ o.done < 2 ^ 17 ∧ t < 2 ^ 16

/-- The checks of an order at its issue, in the order R91, R140, R141, R152 and R157 give, each with its cause: the list read
through the list capability, the order's validity, its timing, the launch's running costs, the authority and the overlap. -/
def issueChecks (s : State) (l : Launch) (k : Cap) (a : Nat) (d : List Word) : List (Nat × Bool) :=
  [(4, !(k.usable && k.perm pPAN && k.perm pLOAD)), (5, !k.covers a 32), (6, decide (salSize < a + 32)), (7, salBad s a 32),
   (1, badOrder (dispOf s) true d), (2, noTiming (dispOf s) (ttOf s) d), (0xB, (l.sum.add s d).exceeds l.limit),
   (4, !(k.usable && k.perm pPAN && k.perm pLOAD && k.perm pSTORE)), (3, overlaps (dispOf s) d)]
/-- The list entry that launch `l` issues next. -/
abbrev Issues (s : State) (l : Launch) (a : Nat) (d : List Word) (k : Cap) : Prop :=
  frozen s 0x120 = false ∧ nextIssue s = some l ∧ a = xOlist l.desc + 32 * l.next ∧ d = orderWords s a ∧ k = salCap s (xOlcap l.desc)
/-- The issue of launch `l` has moved on by one order. -/
def issuedOne (s : State) (d : List Word) (l : Launch) : Launch :=
  { l with next := l.next + 1, live := l.live + 1, sum := l.sum.add s d }
/-- Of the Crystallizer only launch `l` changed. -/
abbrev OneLaunch (s t : State) (l l' : Launch) : Prop :=
  t.cry.launches = s.cry.launches.map (fun x => if x.ctx == l.ctx && x.tick == l.tick then l' else x) ∧
  { t.cry with launches := s.cry.launches } = s.cry

def chained (o : Order) (p : PanState) : PanState := { p with chainq := p.chainq ++ [o] }
/-- The launched fault of pan `p` (R161). -/
abbrev LFaulted (t : State) (p ctx idx cause done addr : Nat) : Prop :=
  t.fld (fPANp_LFAULT_CAUSE p) = cause ∧ t.fld (fPANp_LFAULT_CTX p) = ctx ∧ t.fld (fPANp_LFAULT_INDEX p) = idx ∧
  t.fld (fPANp_LFDONE p) = done ∧ t.fld (fPANp_LFADDR p) = addr
/-- The one launch, which still has another order, is abandoned: counts, records and the hold of its frame (R92, R93). -/
abbrev OnlyLaunch (s : State) (l : Launch) : Prop :=
  s.cry.launches = [l] ∧ l.dead = false ∧ queuedOf l.ctx l.tick s < l.live ∧ (s.pan.pans.map Prod.fst).Nodup ∧ l.ctx < 2 ^ 14 ∧ (ctxOf s l.ctx).st = .admitted ∧
  xOvr ((ctxOf s l.ctx).descAt l.tick) = 0 ∧ (ctxOf s l.ctx).last = none
/-- Its queued orders leave the queues of the pans (R91, R161). -/
def without (l : Launch) (x : Pan) : Pan := { x with lq := x.lq.filter fun o => !launchOrder l.ctx l.tick o }
def gone (s : State) (l : Launch) : Launch := { ended l with live := l.live - queuedOf l.ctx l.tick s }
abbrev Dropped (s t : State) (l : Launch) : Prop :=
  (∀ q, panOf t q = without l (panOf s q)) ∧ t.pan.chainq = s.pan.chainq.filter (fun o => !launchOrder l.ctx l.tick o) ∧
  { t.pan with pans := s.pan.pans, chainq := s.pan.chainq } = s.pan
abbrev AbandonedWith (s t : State) (l : Launch) (cause : Nat) : Prop :=
  ctxOf t l.ctx = missed (ctxOf s l.ctx) ∧ OtherCtx s t l.ctx ∧ t.fld fCRY_MISSED = satInc fCRY_MISSED.width (s.fld fCRY_MISSED) ∧
  Posted s t cryPg 1 2 (bytesOfNat 2 l.ctx ++ bytesOfNat 2 cause ++ bytesOfNat 4 (xTag l.desc) ++ bytesOfNat 8 l.tick) ∧
  t.rk.holds = s.rk.holds ++ [heldBy 1 l.ctx l.desc (l.tick + 1) (some (l.tick + 2))]
/-- The registers of a launched fault on pan `p`. -/
def lfRegs (p : Nat) : List Nat := [rPANp_LFAULT p, (fPANp_LFDONE p).key, (fPANp_LFADDR p).key, rCRY_STAT, fCRY_MISSED.key]
/-- The payload of an event of R572. -/
def commonly (s : State) (subject cause detail : Nat) : List Byte :=
  bytesOfNat 2 subject ++ bytesOfNat 2 cause ++ bytesOfNat 4 detail ++ bytesOfNat 8 (tickNo s)

/-- Pan `p` is idle: no order runs on it, nor on a pan of whose chain it is part. -/
abbrev IdlePan (s : State) (p : Nat) : Prop := ∀ h : Fin 4, ∀ o, (panOf s h.val).run = some o → ¬ p ∈ orderPans o.desc
/-- A launched chain runs. -/
abbrev ChainRuns (s : State) : Prop := ∃ h : Fin 4, ∃ o, (panOf s h.val).run = some o ∧ o.launched = true ∧ dNstg o.desc ≠ 0
/-- A launched chained order is still to be issued. -/
abbrev ChainToCome (s : State) : Prop :=
  ∃ l ∈ s.cry.launches, l.stopped = false ∧ ∃ i ∈ List.range (xNord l.desc), l.next ≤ i ∧ dNstg (orderWords s (xOlist l.desc + 32 * i)) ≠ 0

/-- Launched work for pan `p` is queued, or a running launch may still issue some to it (R146). -/
abbrev LaunchedWaits (s : State) (p : Nat) : Prop :=
  (panOf s p).lq ≠ [] ∨ (∃ o ∈ s.pan.chainq, p ∈ orderPans o.desc) ∨
  ∃ l ∈ s.cry.launches, l.stopped = false ∧ ∃ i ∈ List.range (xNord l.desc), l.next ≤ i ∧ p ∈ orderPans (orderWords s (xOlist l.desc + 32 * i))
/-- Pan `p` may start a background order. -/
abbrev BgMayStart (s : State) (p : Nat) : Prop :=
  frozen s (panPg p) = false ∧ pageEn s 0x120 = true ∧ s.flag fPCS_CTRL_PATCHEN = false ∧ s.pwr.mode = .run ∧ s.flag (fPANp_CTRL_RUN p) = true ∧
  s.flag (fPANp_BGSTAT_HALT p) = false ∧ IdlePan s p ∧ ¬ LaunchedWaits s p
/-- The checks of a background order at its start, each with its cause (R141, R140, R152, R147). -/
def bgChecks (s : State) (o : Order) : List (Nat × Bool) :=
  [(1, badOrder (dispOf s) false o.desc), (4, !(o.cap.usable && o.cap.perm pPAN && o.cap.perm pLOAD && o.cap.perm pSTORE)),
   (3, overlaps (dispOf s) o.desc), (0xA, dNstg o.desc != 0 && nadmit s != 0)]
/-- Every pan the order names is idle and has no launched work. -/
abbrev PansReady (s : State) (o : Order) : Prop := ∀ q ∈ orderPans o.desc, IdlePan s q ∧ ¬ LaunchedWaits s q

/-- An earlier background order of core `c` has not written its record (R154). -/
abbrev EarlierOpen (s : State) (c n : Nat) : Prop :=
  ∃ q : Fin 4, ∃ y ∈ (panOf s q.val).bq ++ (panOf s q.val).run.toList ++ (panOf s q.val).yielded.toList, (match y.src with | .bg c2 _ m => c2 == c && decide (m < n) && m != 0 | _ => false) = true

/-- The record of order `o` is in core `c`'s ring and nothing else of the Saltern changed; its slot is no longer reserved. -/
abbrev Recorded (s t : State) (o : Order) (c k status cause done : Nat) : Prop :=
  salBytes t (recordAt s c) 16 = completionOf s o k status cause done ∧ SameBut s t (recordAt s c) 16 ∧ TagsBut s t (recordAt s c) 16 ∧
  salTag t (recordAt s c) = false ∧ HeadMoved s t c ∧ ringResv t c = ringResv s c - 1
/-- The registers of core `c`'s ring that a record changes. -/
def ringRegs (c : Nat) : List Nat := [(fPAN_CRHEADc c).key, rPAN_CRSTATc c]
/-- No event channel of the ring pulses. -/
abbrev Silent (s : State) (c : Nat) (d : List Word) : Prop := dNotify d = false ∨ s.flag (fPAN_CRCFGc_EVEN c) = false
/-- Everything but the Pan engine and the bytes, tags and errors of the Saltern's store is as before. -/
abbrev PanSal (s t : State) : Prop :=
  Kept s { t with pan := s.pan, sal := { t.sal with mem := s.sal.mem, err := s.sal.err, tag := s.sal.tag, tagUe := s.sal.tagUe, peak := s.sal.peak } }

/-- The end of the strip that starts at element `pos`. -/
def stripEnd (o : Order) : Nat := min (dLen o.desc) ((o.pos / 256 + 1) * 256)
/-- The order of pan `p` runs its next strip. -/
abbrev RunsStrip (s : State) (p : Nat) (o : Order) : Prop :=
  frozen s (panPg p) = false ∧ pageEn s 0x120 = true ∧ (panOf s p).run = some o ∧ s.sal.err = [] ∧
  ((panOf s p).go = true ∨ mayStrip s o (panOf s p).first = true)

/-- The descriptor of an ADD of INT32 streams at stride 1 on pan `p` (R135, R173), of more than one strip. -/
def addDesc (p n a b d : Nat) : List Word :=
  [0x10, BitVec.ofNat 32 (4 * p + 0x44010000), BitVec.ofNat 32 (n % 2 ^ 16), BitVec.ofNat 32 a, BitVec.ofNat 32 b, BitVec.ofNat 32 d,
   0x00010001, 1]
/-- 256 elements at 2-byte address `a` lie in the Saltern and within the authority. -/
abbrev Reach (k : Cap) (a : Nat) : Prop := a < 2 ^ 24 ∧ 2 * a + 1024 ≤ salSize ∧ k.base ≤ 2 * a ∧ 2 * a + 1024 ≤ k.base + k.len
/-- The sum of the elements `i` of the two streams, and whether it leaves the range of INT32. -/
def sumAt (s : State) (a b i : Nat) : Int := (BitVec.ofNat 32 (salNum s (2 * a + 4 * i) 4)).toInt + (BitVec.ofNat 32 (salNum s (2 * b + 4 * i) 4)).toInt
def anyOver (s : State) (a b : Nat) : Bool := (List.range 256).any fun i => decide (sumAt s a b i < -2147483648) || decide (2147483647 < sumAt s a b i)
/-- The order after its first strip (R148): 256 elements are committed, with the SAT flag where a sum left the range (R172). -/
def firstStrip (fl : Nat) (x : Order) : Order := { x with pos := 256, done := 256, flags := fl, coef := [] }

def oneLess (l : Launch) : Launch := { l with live := l.live - 1 }

/-- The order as it stands when it ends: its last strip committed (R148, R151). -/
abbrev LastStrip (s : State) (o : Order) : Prop :=
  (stripOf s o).fault = none ∧ dLen o.desc ≤ stripEnd o ∧ o.desc.length = 8 ∧ csBad s o true = none ∧ csBad s o false = none ∧
  (∀ k ∈ dStages o.desc, (dispOf s (dOpc o.desc k)).isBase (dOpc o.desc k) = true) ∧
  (dMen o.desc = false ∨ maxGroup (dispOf s) o.desc = 0)
/-- The flags the order ends with. -/
def endFlags (s : State) (o : Order) : Nat := Nat.lor o.flags (stripOf s o).flags
def ended64 (fl : Nat) (o : Order) : Order := { o with flags := fl }
/-- Its writes are performed, in ascending order. -/
def written (s : State) (o : Order) : State := (stripOf s o).writes.foldl (fun t w => salWrite w.1 w.2 t) s

/-- What stops an order at a strip, with its cause and its address: a residue that differs, a control-store word that cannot be
corrected, or a fault of the strip itself (R157, R201). -/
abbrev StopsAt (s : State) (o : Order) (f : StripFault) (cause addr : Nat) : Prop :=
  (f = .residue ∧ csBad s o true = none ∧ csBad s o false = none ∧ cause = 8 ∧ addr = 0) ∨
  (f = .none ∧ csBad s o true = none ∧ csBad s o false = none ∧ (stripOf s o).fault = some (cause, addr))
/-- The resume block of pan `p` (R158, R164). -/
abbrev ResumeBlock (t : State) (p : Nat) (o : Order) (c k cause : Nat) : Prop :=
  t.rd (rPANp_BGSTAT p) = BitVec.ofNat 32 (c * 2 ^ 16 + cause * 2 ^ 4 + (if dAlias o.desc then 8 else 0) + 1) ∧
  t.fld (fPANp_RSM_DONE p) = o.done ∧ t.fld (fPANp_RSM_TICKET p) = k ∧ t.fld (fPANp_RSM_FLAGS p) = o.flags ∧
  ∀ i : Fin 8, t.rd (rPANp_RSM_DESCi p i.val) = o.desc.getD i.val 0
def rsmRegs (p c : Nat) : List Nat :=
  [rPANp_BGSTAT p, (fPANp_RSM_DONE p).key, (fPANp_RSM_TICKET p).key, (fPANp_RSM_FLAGS p).key] ++ (List.range 8).map (rPANp_RSM_DESCi p) ++ ringRegs c

/-- The log of a control-store error (R201, R217). -/
abbrev CsLogged (t : State) (ue : Bool) (p synd addr : Nat) : Prop :=
  t.flag fPCS_ELOG_UE = ue ∧ t.fld fPCS_ELOG_PAN = p ∧ t.fld fPCS_ELOG_SYND = synd ∧ t.fld fPCS_ELOG_ADDR = addr
def csRegs (p : Nat) : List Nat := [rPCS_ELOG, rPCS_ELOG + 1, rPCS_STAT, (fPCS_CECNTp p).key]

/-- Stage `k` of the order reads address `a` of its pan's control store in this strip: a word, or, when the order starts, the
dispatch entry of its opcode (R200, R201). -/
abbrev Reached (s : State) (p : Nat) (o : Order) (k a : Nat) : Prop :=
  k ≤ dNstg o.desc ∧ (a < 0x2400 ∨ ((panOf s p).first = true ∧ a = 0x3F00 + dOpc o.desc k))
/-- The bad word as it is kept until it is rewritten. -/
def badWord (s : State) (o : Order) (k a y : Nat) : CsUe :=
  ⟨dPan o.desc k % 4, a, dOpc o.desc k, (dispOf s (dOpc o.desc k)).start, y⟩
/-- What the read of an uncorrectable word does, and the halt of the queue with cause 9 (R157, R201). -/
abbrev CsHalted (s t : State) (p : Nat) (o : Order) (e : CsUe) (c k : Nat) : Prop :=
  CsLogged t true (e.pan % 4) (e.synd % 2 ^ 9) (e.addr % 2 ^ 14) ∧ t.fld fPCS_STAT_UEPAN = natBitSet (s.fld fPCS_STAT_UEPAN) e.pan true ∧
  Posted s t 0x128 0 3 (commonly s e.pan 0 e.addr) ∧ Recorded s t o c k 3 9 o.done ∧ ResumeBlock t p o c k 9 ∧
  Posted s t (panPg p) 0 2 (commonly s p 9 0) ∧ panOf t p = holds o (panOf s p) ∧ OtherPan s t p ∧
  RegsEv s t (csRegs p ++ rsmRegs p c) [panPg p, 0x128] ∧ PanSal s t

/-- The resume block holds order `o`. -/
abbrev Halted (s : State) (p : Nat) (o : Order) : Prop := s.flag (fPANp_BGSTAT_HALT p) = true ∧ (panOf s p).held = some o
/-- Core `c`'s ring is configured and has a free slot (R145). -/
abbrev RoomIn (s : State) (c : Nat) : Prop :=
  4 ≤ s.fld (fPAN_CRCFGc_LOG2N c) ∧ s.fld (fPAN_CRCFGc_LOG2N c) ≤ 12 ∧ ringUnread s c + ringResv s c < 2 ^ s.fld (fPAN_CRCFGc_LOG2N c)
/-- The held order as RESUME runs it: from its committed count, or from element 0 where its last stage reduces; for the ring of
the core that wrote the command, with its ticket (R159, R203). -/
def rerun (c k done : Nat) (red : Bool) (o : Order) : Order :=
  { o with src := .bg c k 0, done := done, pos := if red then 0 else done, red := RedState.empty, coef := [] }

/-- Core `c`'s ring holds the SKIPPED record of the held order of pan `p` (R159). -/
abbrev SkipRecorded (s t : State) (p c : Nat) : Prop :=
  salBytes t (recordAt s c) 16 = bytesOfNat 2 (s.fld (fPANp_RSM_TICKET p)) ++ bytesOfNat 1 0xD4 ++
    bytesOfNat 1 (p * 64 + s.fld (fPANp_RSM_FLAGS p)) ++ bytesOfNat 4 (s.fld (fPANp_RSM_DONE p)) ++ bytesOfNat 8 (tickNo s) ∧
  SameBut s t (recordAt s c) 16 ∧ TagsBut s t (recordAt s c) 16 ∧ HeadMoved s t c

/-- The next record after one at `a` in a ring that starts at `b` with `n` places. -/
def nextPlace (b n h : Nat) : Nat := b + 16 * ((h + 1) % n)

/-- No word of the 16 bytes at `a` or at `b` is remapped to a spare (R115). -/
abbrev salKeysApart (s : State) (a b : Nat) : Prop :=
  ∀ i : Fin 16, rmapValid s i.val = false ∨
    ((rmapWord s i.val < a / 8 ∨ (a + 15) / 8 < rmapWord s i.val) ∧ (rmapWord s i.val < b / 8 ∨ (b + 15) / 8 < rmapWord s i.val))

/-- The staged words of the patch registers (R205, R217). -/
def stagedPdata (j : Nat) (v : Word) (p : PanState) : PanState := { p with pdata := storeSet 0 p.pdata j v }
/-- The overlay word that a write of word 3 completes. -/
def overlayWord (s : State) (v : Word) : BitVec 128 :=
  v ++ storeGet 0 s.pan.pdata 2 ++ storeGet 0 s.pan.pdata 1 ++ storeGet 0 s.pan.pdata 0
/-- The dispatch table's entry for opcode `k`, as the 64 bits of R198. -/
def entryBits (s : State) (k : Nat) : Nat := DispEnt.pack k (dispOf s k)
/-- The bits of an entry that R198 does not reserve. -/
def entryMask (v : BitVec 64) : Nat := (v &&& 0xBFFF3F0000003FFF).toNat

def rearmed (p : PanState) : PanState := { p with csPosted := false }

/-- Registers and fields with the values that the register tables give after a cold reset. -/
def resetWords : List (Nat × Word) :=
  [(rH_SYS_ROMID, 0xB0), (rSYS_ROMID, 0xB0), (rTB_N, 20000), (rTB_TICK_MIN, 1000),
   (rTB_LMIN, 838), (rTB_SLEW, 0x1000), (rSAL_CETHR, 16), (rPCS_ID, 0x00B00000),
   (rTF_LEAD, 192000), (rPT_LOCKWIN, 100), (rHG_RTURNS, 1), (rHG_PORT, 47120),
   (rQE_JFREE, 16384), (rHP_CAUSE, 1), (rPN_DEBOUNCE, 20), (rPN_HOLD, 3000),
   (rPN_TTHR, 200), (rCRY_ACAP, 1440), (rCRY_SCAP, 20224)]
def resetFields : List (Fld × Nat) :=
  [(fTB_CTRL_USEHOLD, 1), (fTB_CTRL_AUTORET, 1), (fTB_CTRL_SRC, 2), (fTB_STAT_SRCACT, 2),
   (fTB_LOOP_KPSHIFT, 8), (fTB_LOOP_KISHIFT, 16), (fTB_LOCK_QUAL, 8), (fTB_LOCK_LOCKWIN, 256),
   (fTB_GRID_WIN_FMAX, 7000), (fTB_GRID_WIN_FMIN, 4000), (fCRY_RESULT_RES, 15), (fCRY_NILIM01_E0, 512),
   (fCRY_NILIM01_E1, 512), (fCRY_NILIM23_E2, 512), (fCRY_NILIM23_E3, 512), (fMX_CTRL_PARK, 1),
   (fFC_CTRL_AUTOREC, 15), (fPL_STAT_ARB, 3), (fRST_CTRL_CORERUN, 1), (fRST_STAT_CAUSE, 1)]

end Sys2Proof.Claims

open Sys2Proof Sys2Proof.Machine Sys2Proof.Claims

/-- R47, R51, R68: the timebase is enabled from its loaded ANGLE, is disabled only while no context is admitted, and
takes TB_LOAD only while it is disabled. -/
def Obligations.TimebaseSwitch : Prop := ∀ (s : State), locked s tbPg = false → 
  (tbEn s = false → Ends (.tbEnable) s fun t => tbEn t = true ∧ t.tb.started = false ∧ Regs s t [rPAGE_CTRL tbPg] ∧
    NoEvents s t ∧ Kept s { t with tb := s.tb }) ∧
  (tbEn s = true → nadmit s = 0 → Ends (.tbDisable) s fun t => tbEn t = false ∧ t.tb.started = false ∧ angleOf t =
    angleOf s ∧ tickNo t = tickNo s ∧ Kept s { t with tb := s.tb }) ∧
  (tbEn s = true → nadmit s ≠ 0 → Ends (.tbDisable) s fun t => tbEn t = true ∧ t.flag fTB_STAT_CFGREFUSED = true ∧
    pendBit t tbPg 4 = true ∧ RegsEv s t [rTB_STAT] [tbPg] ∧ Kept s t) ∧
  (tbEn s = false → Ends (.tbLoadCopy) s fun t => angleOf t = s.rd64 rTB_LOAD ∧ tickNo t = 0 ∧ t.tb.sub = 0 ∧ Regs s t
    [rANGLE, rANGLE + 1, rTICKNO, rTICKNO + 1] ∧ NoEvents s t ∧ Kept s { t with tb := s.tb }) ∧
  (tbEn s = true → Ends (.tbLoadCopy) s fun t => t = s)

/-- R52, R58: a write of TB_N is refused while a context is admitted or for a value outside 1 to 1,048,576; accepted with
the timebase disabled it governs at once, with TB_LMIN and RATE_LIMIT; accepted with it enabled it waits. -/
def Obligations.TickCountWrite : Prop := ∀ (s : State) (v : BitVec 21), locked s tbPg = false → 
  (nadmit s ≠ 0 ∨ v.toNat = 0 ∨ 1048576 < v.toNat → Ends (.tbNWrite v) s fun t => t.flag fTB_STAT_CFGREFUSED = true ∧
    pendBit t tbPg 4 = true ∧ RegsEv s t [rTB_STAT] [tbPg] ∧ Kept s t) ∧
  (nadmit s = 0 → 1 ≤ v.toNat → v.toNat ≤ 1048576 → tbEn s = true → Ends (.tbNWrite v) s fun t => t.fld fTB_N =
    v.toNat ∧ t.tb.nPend = some v.toNat ∧ t.tb.nCur = s.tb.nCur ∧ Regs s t [rTB_N] ∧ NoEvents s t ∧ Kept s
    { t with tb := s.tb }) ∧
  (nadmit s = 0 → 1 ≤ v.toNat → v.toNat ≤ 1048576 → tbEn s = false → Ends (.tbNWrite v) s fun t => t.fld fTB_N =
    v.toNat ∧ t.tb.nCur = v.toNat ∧ t.tb.nPend = none ∧ t.fld fTB_LMIN = 16777216 / v.toNat % 2 ^ 24 ∧ rateLimit t =
    16777216 / v.toNat * 2 ^ 32 / ((s.fld fTB_TICK_MIN * 1536 + 999) / 1000 + 1) % 2 ^ 64 ∧ pendBit t tbPg 7 = true ∧
    RegsEv s t [rTB_N, rTB_LMIN, rRATE_LIMIT, rRATE_LIMIT + 1, rRATE, rRATE + 1, rTB_STAT] [tbPg] ∧ Kept s
    { t with tb := s.tb })

/-- R52, R53, R59: the other writes of the timebase's page. -/
def Obligations.TimebaseWrites : Prop := ∀ (s : State), locked s tbPg = false → 
  (∀ (v : BitVec 16), nadmit s ≠ 0 ∨ v.toNat < 880 → Ends (.tbTickMinWrite v) s fun t => t.flag fTB_STAT_CFGREFUSED =
    true ∧ pendBit t tbPg 4 = true ∧ RegsEv s t [rTB_STAT] [tbPg] ∧ Kept s t) ∧
  (∀ (v : BitVec 16), nadmit s = 0 → 880 ≤ v.toNat → Ends (.tbTickMinWrite v) s fun t => t.fld fTB_TICK_MIN = v.toNat
    ∧ rateLimit t = 16777216 / s.tb.nCur * 2 ^ 32 / ((v.toNat * 1536 + 999) / 1000 + 1) % 2 ^ 64 ∧ RegsEv s t
    [rTB_TICK_MIN, rTB_LMIN, rRATE_LIMIT, rRATE_LIMIT + 1, rRATE, rRATE + 1, rTB_STAT] [tbPg] ∧ Kept s
    { t with tb := s.tb }) ∧
  (∀ (v : BitVec 2), tbEn s = true → rateOf s ≠ 0 → Ends (.tbSrcWrite v) s fun t => t.fld fTB_CTRL_SRC = v.toNat ∧
    t.tb.resel = (s.tb.resel || (s.tb.lost && !s.flag fTB_CTRL_AUTORET)) ∧ { t.tb with resel := s.tb.resel } = s.tb ∧
    Regs s t [rTB_CTRL] ∧ NoEvents s t ∧ Kept s { t with tb := s.tb }) ∧
  (∀ (v : BitVec 2), tbEn s = false → (if v.toNat = 3 then 2 else v.toNat) ≠ s.tb.sel → Ends (.tbSrcWrite v) s fun t
    => t.fld fTB_CTRL_SRC = v.toNat ∧ t.fld fTB_STAT_SRCACT = (if v.toNat = 3 then 2 else v.toNat) ∧ t.tb.sel = (if
    v.toNat = 3 then 2 else v.toNat) ∧ t.flag fTB_STAT_LOCKED = false ∧ RegsEv s t [rTB_CTRL, rTB_STAT, rRATE, rRATE +
    1] [tbPg] ∧ Kept s { t with tb := s.tb }) ∧
  (∀ (v : BitVec 48), Ends (.rateHoldWrite v) s fun t => t.rd64 rRATE_HOLD = v.toNat ∧ RegsEv s t [rRATE_HOLD,
    rRATE_HOLD + 1, rTB_STAT, rRATE, rRATE + 1] [tbPg] ∧ Kept s { t with tb := s.tb }) ∧
  (∀ (v : Word), Ends (.tbGridSrcWrite v) s fun t => t.tb.grid = none ∧ t.tb.cross = none ∧ t.flag fTB_GRID_SRC_PIN =
    natBit v.toNat 31 ∧ t.fld fTB_GRID_SRC_PORT = natBits v.toNat 16 6 ∧ t.fld fTB_GRID_SRC_PHASE = natBits v.toNat 8
    3 ∧ t.fld fTB_GRID_SRC_FIELD = natBits v.toNat 0 4 ∧ Regs s t [rTB_GRID_SRC] ∧ NoEvents s t ∧ Kept s
    { t with tb := s.tb })

/-- R53, R54, R56, R58, R60, R472: what the sources of the timebase do. -/
def Obligations.TimebaseSources : Prop := ∀ (s : State), frozen s tbPg = false → 
  (s.flag fTB_GRID_SRC_PIN = true → s.tb.sel = 0 → s.tb.cross = none → Ends (.gsyncEdge) s fun t => t.tb.cross = some
    ⟨angleOf s, fcycOf s⟩ ∧ t.tb.gridRef = angleOf s ∧ Regs s t [] ∧ NoEvents s t ∧ Kept s { t with tb := s.tb }) ∧
  (∀ (p : Crossing), s.flag fTB_GRID_SRC_PIN = true → s.tb.sel = 0 → s.tb.cross = some p → p.fcyc < fcycOf s → s.fld
    fTB_GRID_WIN_FMIN * (fcycOf s - p.fcyc) ≤ 153600000000 → 153600000000 ≤ s.fld fTB_GRID_WIN_FMAX * (fcycOf s -
    p.fcyc) → Ends (.gsyncEdge) s fun t => t.tb.cross = some ⟨angleOf s, fcycOf s⟩ ∧ t.fld fTB_PHERR = wrapTo 32
    (signedOf 24 (wrapTo 24 ((s.fld fTB_GRID_OFFSET : Int) - (angleOf s % 16777216 : Nat)))) ∧ t.cores = s.cores ∧
    t.sal = s.sal ∧ t.mram = s.mram ∧ angleOf t = angleOf s) ∧
  (s.fld fTB_STAT_SRCACT = 0 → s.tb.gridRef + 25165824 < angleOf s → Ends (.gridSourceLost) s fun t => t.fld
    fTB_STAT_SRCACT = 2 ∧ t.tb.lost = true ∧ t.flag fTB_STAT_LOCKED = false ∧ pendBit t tbPg 0 = true ∧ RegsEv s t
    [rTB_STAT, rRATE, rRATE + 1] [tbPg] ∧ Kept s { t with tb := s.tb }) ∧
  (s.fld fTB_STAT_SRCACT = 1 → 4 ≤ s.tb.fabMiss → Ends (.fabricSourceLost) s fun t => t.fld fTB_STAT_SRCACT = 2 ∧
    t.tb.lost = true ∧ t.flag fTB_STAT_LOCKED = false ∧ pendBit t tbPg 0 = true ∧ RegsEv s t [rTB_STAT, rRATE, rRATE +
    1] [tbPg] ∧ Kept s { t with tb := s.tb }) ∧
  (∀ (f a : Nat) (r : List Msg), s.sl.inF = .timeH f a true :: r → s.tb.sel = 1 → ¬ (s.fld fPL_CTRL_RANK = 1 ∧ s.flag
    fPL_CTRL_TSRC = true) → fcycOf s + 1536 ≤ f → f ≤ fcycOf s + 1048576 → Ends (.fabricTimeMessage) s fun t =>
    t.tb.fabTgts = s.tb.fabTgts ++ [⟨f, a⟩] ∧ t.tb.fabOk = true ∧ t.tb.fabMiss = s.tb.fabMiss ∧
    { t.tb with fabTgts := s.tb.fabTgts, fabOk := s.tb.fabOk } = s.tb ∧ t.sl.inF = r ∧ Regs s t [] ∧ Kept s
    { t with tb := s.tb }) ∧
  (∀ (f a : Nat) (v : Bool) (r : List Msg), s.sl.inF = .timeH f a v :: r → s.tb.sel ≠ 1 ∨ (s.fld fPL_CTRL_RANK = 1 ∧
    s.flag fPL_CTRL_TSRC = true) → Ends (.fabricTimeMessage) s fun t => t.tb = s.tb ∧ t.sl.inF = r ∧ Regs s t [] ∧
    Kept s t) ∧
  (∀ (f a : Nat) (v : Bool) (r : List Msg), s.sl.inF = .timeH f a v :: r → v = false ∨ f < fcycOf s + 1536 ∨ fcycOf s
    + 1048576 < f → Ends (.fabricTimeMessage) s fun t => { t.tb with ret := s.tb.ret } = s.tb ∧ (s.tb.sel = 1 → ¬
    (s.fld fPL_CTRL_RANK = 1 ∧ s.flag fPL_CTRL_TSRC = true) → t.tb.ret = 0) ∧ t.sl.inF = r ∧ Regs s t [] ∧ Kept s
    { t with tb := s.tb }) ∧
  (s.flag fTB_STAT_FLOOR = true → 16 ≤ s.tb.floorTicks → Ends (.floorExit) s fun t => t.flag fTB_STAT_FLOOR = false ∧
    t.tb.floorTicks = 0 ∧ pendBit t tbPg 3 = true ∧ RegsEv s t [rTB_STAT] [tbPg] ∧ Kept s { t with tb := s.tb })

/-- R61: a read of the low half of ANGLE or TICKNO latches the high half for its master; a read of the high half returns
and consumes what was latched, or reads the live value. -/
def Obligations.AngleReads : Prop := ∀ (s : State) (m : BitVec 8) (r : Reg64), 
  (Ends (.lowHalfRead m r) s fun t => t.out = .readData m.toNat (bytesOfNat 4 (s.rd (halfKey r)).toNat) :: s.out ∧
    t.shadow = storeSet none s.shadow (shadowKey m.toNat (halfKey r)) (some (s.rd (halfKey r + 1))) ∧ Regs s t [] ∧
    NoEvents s t ∧ Kept s { t with out := s.out, shadow := s.shadow }) ∧
  (Ends (.highHalfRead m r) s fun t => t.out = .readData m.toNat (bytesOfNat 4 ((storeGet none s.shadow (shadowKey
    m.toNat (halfKey r))).getD (s.rd (halfKey r + 1))).toNat) :: s.out ∧ storeGet none t.shadow (shadowKey m.toNat
    (halfKey r)) = none ∧ Regs s t [] ∧ NoEvents s t ∧ Kept s { t with out := s.out, shadow := s.shadow })

/-- R63, R64, R65: ACn_CMP is staged by its low half and commits by its high half or by 64 bits; a value above RELOAD in
modulo mode never matches and sets CMP_RANGE; an absolute value already reached matches at once with PAST, or from the next CCLK
where the unit has matched in this one; ACn_RELOAD
is ignored while the unit is enabled. -/
def Obligations.AngleCompare : Prop := ∀ (s : State) (n : Fin 32), 
  (∀ (v : Word), Ends (.acCmpWrite n (.low v)) s fun t => storeGet 0 t.ev.acLow n.val = v ∧ Regs s t [] ∧ t.ev.acArmed
    = s.ev.acArmed ∧ t.ev.pulses = s.ev.pulses ∧ t.evPay = s.evPay ∧ t.evIn = s.evIn ∧ t.sl = s.sl ∧ Kept s t) ∧
  (∀ (v : Dword), s.flag (fACn_CTRL_EN n.val) = false → s.flag (fACn_CTRL_MODE n.val) = true ∨ v.toNat ≤ s.rd64
    (rACn_RELOAD n.val) → Ends (.acCmpWrite n (.all v)) s fun t => t.rd64 (rACn_CMP n.val) = v.toNat ∧ acArmed t n.val
    = true ∧ Regs s t [rACn_CMP n.val, rACn_CMP n.val + 1] ∧ t.ev.pulses = s.ev.pulses ∧ t.evPay = s.evPay ∧ t.evIn =
    s.evIn ∧ t.sl = s.sl ∧ Kept s t) ∧
  (∀ (v : Word), s.flag (fACn_CTRL_EN n.val) = false → s.flag (fACn_CTRL_MODE n.val) = true ∨ (storeGet 0 s.ev.acLow
    n.val).toNat + v.toNat * 2 ^ 32 ≤ s.rd64 (rACn_RELOAD n.val) → Ends (.acCmpWrite n (.high v)) s fun t => t.rd64
    (rACn_CMP n.val) = (storeGet 0 s.ev.acLow n.val).toNat + v.toNat * 2 ^ 32 ∧ acArmed t n.val = true ∧ Regs s t
    [rACn_CMP n.val, rACn_CMP n.val + 1] ∧ Kept s t) ∧
  (∀ (v : Dword), s.flag (fACn_CTRL_MODE n.val) = false → s.rd64 (rACn_RELOAD n.val) < v.toNat → Ends (.acCmpWrite n
    (.all v)) s fun t => t.rd64 (rACn_CMP n.val) = v.toNat ∧ t.flag (fACn_STAT_CMPRANGE n.val) = true ∧ Regs s t
    [rACn_CMP n.val, rACn_CMP n.val + 1, rACn_STAT n.val] ∧ Kept s t) ∧
  (∀ (v : Dword), acRuns s n.val = true → acDone s n.val = false → s.flag (fACn_CTRL_MODE n.val) = true → v.toNat ≤
    angleOf s → Ends (.acCmpWrite n (.all v)) s fun t => t.rd64 (rACn_CMP n.val) = v.toNat ∧ t.flag (fACn_STAT_PAST
    n.val) = true ∧ t.flag (fACn_STAT_MATCH n.val) = true ∧ t.rd64 (rACn_LAST n.val) = angleOf s ∧ acArmed t n.val =
    false ∧ pendBit t (acPage n.val) (n.val % 16) = true ∧ Kept s t) ∧
  (∀ (v : Dword), s.flag (fACn_CTRL_EN n.val) = true → acRuns s n.val = false ∨ acDone s n.val = true → s.flag
    (fACn_CTRL_MODE n.val) = true → v.toNat ≤ angleOf s → Ends (.acCmpWrite n (.all v)) s fun t => t.rd64 (rACn_CMP
    n.val) = v.toNat ∧ t.flag (fACn_STAT_PAST n.val) = true ∧ acArmed t n.val = true ∧ acNow t n.val = true ∧ Regs s t
    [rACn_CMP n.val, rACn_CMP n.val + 1, rACn_STAT n.val] ∧ t.ev.pulses = s.ev.pulses ∧ t.evPay = s.evPay ∧ t.evIn =
    s.evIn ∧ t.sl = s.sl ∧ Kept s t) ∧
  (∀ (v : Dword), s.flag (fACn_CTRL_EN n.val) = false → Ends (.acReloadWrite n v) s fun t => t.rd64 (rACn_RELOAD
    n.val) = v.toNat ∧ Regs s t [rACn_RELOAD n.val, rACn_RELOAD n.val + 1] ∧ NoEvents s t ∧ Kept s t) ∧
  (∀ (v : Dword), s.flag (fACn_CTRL_EN n.val) = true → Ends (.acReloadWrite n v) s fun t => t = s)

/-- R46, R50, R52, R57, R66: the rows that end at an angle let time pass CCLK by CCLK. The CCLK that brings ANGLE to the
next boundary adds one to TICKNO and sets TICK_K; the one that brings it to a turn boundary applies a waiting N; the one
that brings it to a compare value matches the unit. (How much time such a row takes is the model's choice, log 44.) -/
def Obligations.TickRows : Prop := ∀ (s : State), 
  (∀ (w : State), w = lastCclk s (nextTick s) → Steps s w (nextTick s) → w.tb.nPend = none → srcOf w = w.tb.sel → 0 <
    w.tb.nCur → passedOf w.tb.nCur none (angleOf w) (angleAfter w (rateOf w)) = 1 → Ends (.tickBoundary) s fun t =>
    EndsTick w t) ∧
  (∀ (w : State) (a m : Nat), a = (angleOf s / 16777216 + 1) * 16777216 → a = nextBoundary s → w = lastCclk s a →
    Steps s w a → s.tb.nPend = some m → w.tb.nPend = some m → a ≤ angleAfter w (rateOf w) → a ≤ angleOf (timeSteps
    (cclkTo s a) s) → Ends (.nApplied) s fun t => EndsTurn w t m) ∧
  (∀ (w : State) (a : Nat) (n : Fin 32) (d : Nat), acAhead s n.val = some d → a = angleOf s + d → a ≤ nextBoundary s →
    w = lastCclk s a → Steps s w a → acRuns w n.val = true → acAhead w n.val = some (a - angleOf w) → angleOf w < a →
    a ≤ angleAfter w (rateOf w) → a ≤ angleOf (timeSteps (cclkTo s a) s) → Ends (.acMatch n) s fun t => EndsMatch w t
    n.val) ∧
  (tbMoves s = false → Ends (.tickBoundary) s fun t => t = s)

/-- R6, R32, R36, R41, R42, R570, R571: a write of a page field that has no behaviour of its own takes the written value
under its access code; a locked RWL field keeps its value; a reserved offset ignores the write; a page that is not allocated,
or that the host may not write, is a decode error. -/
def Obligations.RegisterWrites : Prop := ∀ (s : State), 
  (∀ (d : Die) (pg : BitVec 12) (off : BitVec 12) (v set : Word), mayWrite d pg.toNat → pageKind (pageOf d pg.toNat) =
    .regs → off.toNat % 4 = 0 → 0x40 ≤ off.toNat → ¬ ownWrite (pageOf d pg.toNat) off.toNat → Ends (.registerWrite d
    pg off v set) s fun t => WordWritten s t (pageOf d pg.toNat) off.toNat v set ∧ t.flag (fPAGE_STAT_REFUSED (pageOf
    d pg.toNat)) = (s.flag (fPAGE_STAT_REFUSED (pageOf d pg.toNat)) || (lockHeld s (pageOf d pg.toNat) &&
    changesLocked ((pageOf d pg.toNat) * 1024 + off.toNat / 4) (s.rd ((pageOf d pg.toNat) * 1024 + off.toNat / 4)) v))
    ∧ Regs s t [(pageOf d pg.toNat) * 1024 + off.toNat / 4, rPAGE_STAT (pageOf d pg.toNat)] ∧ NoEvents s t ∧ Kept s t) ∧
  (∀ (d : Die) (pg : BitVec 12) (off : BitVec 12) (v set : Word), mayWrite d pg.toNat → pageKind (pageOf d pg.toNat) =
    .zero → off.toNat % 4 = 0 → Ends (.registerWrite d pg off v set) s fun t => t = s) ∧
  (∀ (off : BitVec 12) (v set : Word), off.toNat % 4 = 0 → off.toNat % 16 ≠ 12 ∨ natBit (msixWord s (off.toNat /
    4)).toNat 0 = false ∨ natBit v.toNat 0 = true → Ends (.registerWrite .H 0x12 off v set) s fun t => msixWord t
    (off.toNat / 4) = v ∧ OtherVec s t (off.toNat / 4) ∧ Regs s t [] ∧ NoEvents s t ∧ Kept s { t with qe := s.qe }) ∧
  (∀ (pg off : BitVec 12) (v set : Word), pageKind pg.toNat = .none ∨ off.toNat % 4 ≠ 0 → Ends (.registerWrite .F pg
    off v set) s fun t => DecodeErrF s t (0xF0000000 + pg.toNat * 4096 + off.toNat) 82 1) ∧
  (∀ (pg off : BitVec 12) (v set : Word), ¬ mayWrite .H pg.toNat ∨ pageKind (0x1000 + pg.toNat) = .none ∨ off.toNat %
    4 ≠ 0 → Ends (.registerWrite .H pg off v set) s fun t => DecodeErrH s t)

/-- R38 to R40, R568 to R570: PAGE_LOCK, FREEZE and RST of PAGE_CTRL, EV_PEND and EV_EN of every page. -/
def Obligations.PageHeaders : Prop := ∀ (s : State), 
  (∀ (d : Die) (pg : BitVec 12) , mayWrite d pg.toNat → pageKind (pageOf d pg.toNat) = .regs → Ends (.pageLockSet d
    pg) s fun t => locked t (pageOf d pg.toNat) = true ∧ Regs s t [rPAGE_LOCK (pageOf d pg.toNat)] ∧ NoEvents s t ∧
    Kept s t) ∧
  (∀ (d : Die) (pg : BitVec 12) , mayWrite d pg.toNat → pageKind (pageOf d pg.toNat) = .regs → natBit (s.rd
    (rPAGE_CTRL (pageOf d pg.toNat))).toNat 1 = false → Ends (.pageFreeze d pg true) s fun t => t.flag
    (fPAGE_CTRL_FREEZE (pageOf d pg.toNat)) = true ∧ pageEn t (pageOf d pg.toNat) = pageEn s (pageOf d pg.toNat) ∧
    frozen t (pageOf d pg.toNat) = true ∧ Regs s t [rPAGE_CTRL (pageOf d pg.toNat)] ∧ NoEvents s t ∧ Kept s
    { t with cry := s.cry, tb := s.tb } ∧ ((pageOf d pg.toNat) ∉ [0x110, 0x111, 0x112] → t.cry = s.cry) ∧
    { t.tb with segs := s.tb.segs } = s.tb ∧ ((pageOf d pg.toNat) ≠ 0x10 → t.tb = s.tb)) ∧
  (∀ (d : Die) (pg : BitVec 12) , mayWrite d pg.toNat → pageKind (pageOf d pg.toNat) = .regs → natBit (s.rd
    (rPAGE_CTRL (pageOf d pg.toNat))).toNat 1 = false → s.evHeld = [] → Ends (.pageFreeze d pg false) s fun t =>
    t.flag (fPAGE_CTRL_FREEZE (pageOf d pg.toNat)) = false ∧ pageEn t (pageOf d pg.toNat) = pageEn s (pageOf d
    pg.toNat) ∧ Regs s t [rPAGE_CTRL (pageOf d pg.toNat)] ∧ NoEvents s t ∧ Kept s { t with tb := s.tb } ∧
    { t.tb with segs := s.tb.segs } = s.tb ∧ ((pageOf d pg.toNat) ≠ 0x10 → t.tb = s.tb)) ∧
  (∀ (d : Die) (pg : BitVec 12) , mayWrite d pg.toNat → pageKind (pageOf d pg.toNat) = .regs → locked s (pageOf d
    pg.toNat) = true → natBit (s.rd (rPAGE_CTRL (pageOf d pg.toNat))).toNat 2 = s.flag (fPAGE_CTRL_FREEZE (pageOf d
    pg.toNat)) → Ends (.pageRst d pg) s fun t => t.flag (fPAGE_STAT_REFUSED (pageOf d pg.toNat)) = true ∧ Regs s t
    [rPAGE_STAT (pageOf d pg.toNat)] ∧ NoEvents s t ∧ Kept s t) ∧
  (∀ (d : Die) (pg : BitVec 12) , mayWrite d pg.toNat → pageKind (pageOf d pg.toNat) = .regs → locked s (pageOf d
    pg.toNat) = false → lockHeld s (pageOf d pg.toNat) = false → ¬ ownPage (pageOf d pg.toNat) → Ends (.pageRst d pg)
    s fun t => PageReset s t (pageOf d pg.toNat)) ∧
  (∀ (d : Die) (pg : BitVec 12) (v set : Word), mayWrite d pg.toNat → pageKind (pageOf d pg.toNat) = .regs → Ends
    (.evPendClear d pg v set) s fun t => t.rd (rEV_PEND (pageOf d pg.toNat)) = s.rd (rEV_PEND (pageOf d pg.toNat)) &&&
    ~~~(v &&& ~~~set) ∧ Regs s t [rEV_PEND (pageOf d pg.toNat)] ∧ NoEvents s t ∧ Kept s t) ∧
  (∀ (d : Die) (pg : BitVec 12) (v : Word), mayWrite d pg.toNat → pageKind (pageOf d pg.toNat) = .regs → v &&&
    ~~~(s.rd (rEV_EN (pageOf d pg.toNat))) &&& s.rd (rEV_PEND (pageOf d pg.toNat)) = 0 → Ends (.evEnWrite d pg v) s
    fun t => t.rd (rEV_EN (pageOf d pg.toNat)) = v ∧ Regs s t [rEV_EN (pageOf d pg.toNat)] ∧ NoEvents s t ∧ Kept s t) ∧
  (∀ (pg : BitVec 12) (v : Word) (b : Fin 32), mayWrite .H pg.toNat → pageKind (0x1000 + pg.toNat) = .regs → v &&&
    ~~~(s.rd (rEV_EN (0x1000 + pg.toNat))) &&& s.rd (rEV_PEND (0x1000 + pg.toNat)) = BitVec.ofNat 32 (2 ^ b.val) →
    frozen s (0x1000 + pg.toNat) = false → Ends (.evEnWrite .H pg v) s fun t => t.rd (rEV_EN (0x1000 + pg.toNat)) = v
    ∧ t.evIn = s.evIn ++ [(s.fld (fEV_ROUTE_TARGET (0x1000 + pg.toNat)), recordOf s (0x1000 + pg.toNat) b.val)] ∧ Regs
    s t [rEV_EN (0x1000 + pg.toNat)] ∧ t.evPay = s.evPay ∧ t.evHeld = s.evHeld ∧ t.ev = s.ev ∧ t.sl = s.sl ∧ Kept s t) ∧
  (∀ (pg : BitVec 12) (v : Word) (b : Fin 32), pageKind pg.toNat = .regs → v &&& ~~~(s.rd (rEV_EN pg.toNat)) &&& s.rd
    (rEV_PEND pg.toNat) = BitVec.ofNat 32 (2 ^ b.val) → frozen s pg.toNat = false → s.flag (fEV_ROUTE_DEST pg.toNat) =
    false → slUp s = true → Ends (.evEnWrite .F pg v) s fun t => t.rd (rEV_EN pg.toNat) = v ∧ (slTxOf t 3).cells =
    (slTxOf s 3).cells ++ [⟨(slTxOf s 3).next % 65536, 0, 1, .event (s.fld (fEV_ROUTE_TARGET pg.toNat)) (recordOf s
    pg.toNat b.val)⟩] ∧ Regs s t [rEV_EN pg.toNat] ∧ t.evPay = s.evPay ∧ t.evHeld = s.evHeld ∧ t.evIn = s.evIn ∧ t.ev
    = s.ev ∧ Kept s t)

/-- R291: the ALU group, the immediate forms, SHI, MOVI and MOVHI, each alone in its bundle: the next bundle reads the result
in w[D], ADDS and SUBS raise ISAT when out of range, and nothing else changes. -/
def Obligations.IntegerGroup : Prop := ∀ (s : State), 
  (∀ (c : Fin 5) (h : Hdr) (x : Xl) (fn : AluFn) (d a b : BitVec 5), Lone s c.val h x → (unary fn = true → b = 0) →
    Ends (aluInstr fn c h d a b) s fun t => Issued s t c.val x 1 fun y => raised (isat (aluSat fn (y.rdW a.toNat)
    (y.rdW b.toNat))) (putW d.toNat (aluSpec fn (y.rdW a.toNat) (y.rdW b.toNat)) y)) ∧
  (∀ (c : Fin 5) (h : Hdr) (x : Xl) (fn : ImmFn) (d a : BitVec 5) (imm : BitVec 11), Lone s c.val h x → Ends (immInstr
    fn c h d a imm) s fun t => Issued s t c.val x 1 fun y => putW d.toNat (immSpec fn (y.rdW a.toNat) (imm.signExtend
    32)) y) ∧
  (∀ (c : Fin 5) (h : Hdr) (x : Xl) (d a : BitVec 5) (k : Fin 4) (n : Fin 32), Lone s c.val h x → Ends (.shi c h d a
    (BitVec.ofNat 11 (256 * k.val + n.val))) s fun t => Issued s t c.val x 1 fun y => putW d.toNat (shiSpec k.val
    (y.rdW a.toNat) n.val) y) ∧
  (∀ (c : Fin 5) (h : Hdr) (x : Xl) (d : BitVec 5) (imm : BitVec 16), Lone s c.val h x → Ends (.movi c h d imm) s fun
    t => Issued s t c.val x 1 fun y => putW d.toNat (imm.signExtend 32) y) ∧
  (∀ (c : Fin 5) (h : Hdr) (x : Xl) (d : BitVec 5) (imm : BitVec 16), Lone s c.val h x → Ends (.movhi c h d imm) s fun
    t => Issued s t c.val x 1 fun y => putW d.toNat (imm ++ (y.rdW d.toNat).setWidth 16 : BitVec 32) y)

/-- R292, R293: CMP and CMPI write 0xFF or 0 to a predicate by their condition; the PRED group combines predicates and moves
between a predicate and the low byte of a register. -/
def Obligations.ComparesAndPredicates : Prop := ∀ (s : State), 
  (∀ (c : Fin 5) (h : Hdr) (x : Xl) (d a b : BitVec 5) (cond : BitVec 6), Lone s c.val h x → d.toNat < 8 → cond.toNat
    ≤ 10 → Ends (.cmp c h d a b cond) s fun t => Issued s t c.val x 1 fun y => putP d.toNat (allLanes (condSpec
    cond.toNat (y.rdW a.toNat) (y.rdW b.toNat))) y) ∧
  (∀ (c : Fin 5) (h : Hdr) (x : Xl) (pd : BitVec 3) (cond : BitVec 4) (a : BitVec 5) (imm : BitVec 9), Lone s c.val h
    x → cond.toNat ≤ 10 → Ends (.cmpi c h pd cond a imm) s fun t => Issued s t c.val x 1 fun y => putP pd.toNat
    (allLanes (condSpec cond.toNat (y.rdW a.toNat) (imm.signExtend 32))) y) ∧
  (∀ (c : Fin 5) (h : Hdr) (x : Xl) (fn : PredFn) (d a b : BitVec 5), Lone s c.val h x → fn ≠ .pmovw → fn ≠ .wmovp →
    d.toNat < 8 → a.toNat < 8 → b.toNat < 8 → Ends (predInstr fn c h d a b) s fun t => Issued s t c.val x 1 fun y =>
    putP d.toNat (predSpec fn (rdB y a.toNat) (rdB y b.toNat)) y) ∧
  (∀ (c : Fin 5) (h : Hdr) (x : Xl) (d a b : BitVec 5), Lone s c.val h x → d.toNat < 8 → b.toNat < 8 → Ends (.pmovw c
    h d a b) s fun t => Issued s t c.val x 1 fun y => putP d.toNat ((y.rdW a.toNat).setWidth 8) y) ∧
  (∀ (c : Fin 5) (h : Hdr) (x : Xl) (d a b : BitVec 5), Lone s c.val h x → a.toNat < 8 → b.toNat < 8 → Ends (.wmovp c
    h d a b) s fun t => Issued s t c.val x 1 fun y => putW d.toNat ((rdB y a.toNat).setWidth 32) y)

/-- R294, R310, R311, R317, R318: MUL delivers to the third bundle; a division starts, and its end writes quotient, remainder
and flag; the decimal group works on valid words and sets BCDINV on others, with BCD_INVALID under BCDTRAP. -/
def Obligations.MultiplyDivideDecimal : Prop := ∀ (s : State), 
  (∀ (c : Fin 5) (h : Hdr) (x : Xl) (fn : MulFn) (d a b : BitVec 5), Lone s c.val h x → Ends (mulInstr fn c h d a b) s
    fun t => Issued s t c.val x 3 fun y => raised (isat (outW (mulExact fn (y.rdW a.toNat) (y.rdW b.toNat) (y.rdW
    d.toNat)))) (putW d.toNat (mulSpec fn (y.rdW a.toNat) (y.rdW b.toNat) (y.rdW d.toNat)) y)) ∧
  (∀ (c : Fin 5) (h : Hdr) (x : Xl) (d a b : BitVec 5), Lone s c.val h x → d.toNat % 2 = 0 → Ends (.divu c h d a b) s
    fun t => Issued s t c.val x 0 (dividing c.val s false d.toNat a.toNat b.toNat)) ∧
  (∀ (c : Fin 5) (h : Hdr) (x : Xl) (d a b : BitVec 5), Lone s c.val h x → d.toNat % 2 = 0 → Ends (.divs c h d a b) s
    fun t => Issued s t c.val x 0 (dividing c.val s true d.toNat a.toNat b.toNat)) ∧
  (∀ (c : Fin 5) (d : PDiv), frozen s (corePg c.val) = false → Idle s c.val → (s.core c.val).pend = [] → (s.core
    c.val).div = some d → d.m1 = 0xFFFFFFFF → d.m2 = 0xFFFFFFFF → Ends (.divisionComplete c) s fun t => t.core c.val =
    { raised (BitVec.ofNat 32 d.flags) (putKey d.k2 (BitVec.ofNat 32 d.r) (putKey d.k1 (BitVec.ofNat 32 d.q) (s.core c.val))) with div := none }
    ∧ CoreAlone s t c.val) ∧
  (∀ (c : Fin 5) (h : Hdr) (x : Xl) (fn : BcdFn) (d a b : BitVec 5), Lone s c.val h x → bcdGood fn ((s.core c.val).rdW
    a.toNat) ((s.core c.val).rdW b.toNat) = true → Ends (bcdInstr fn c h d a b) s fun t => Issued s t c.val x 1 fun y
    => putDc (bcdSpec fn (y.rdW a.toNat) (y.rdW b.toNat) (natBit y.status.toNat 14)).2 (putW d.toNat (bcdWord fn
    (bcdSpec fn (y.rdW a.toNat) (y.rdW b.toNat) (natBit y.status.toNat 14)).1) y)) ∧
  (∀ (c : Fin 5) (h : Hdr) (x : Xl) (fn : BcdFn) (d a b : BitVec 5), Lone s c.val h x → bcdGood fn ((s.core c.val).rdW
    a.toNat) ((s.core c.val).rdW b.toNat) = false → natBit (s.core c.val).status.toNat 16 = false → Ends (bcdInstr fn
    c h d a b) s fun t => Issued s t c.val x 0 (raised 0x8000)) ∧
  (∀ (c : Fin 5) (h : Hdr) (x : Xl) (fn : BcdFn) (d a b : BitVec 5) (v : Nat × Bool × Nat), Lone s c.val h x →
    CanEnter s c.val vBCD v → bcdGood fn ((s.core c.val).rdW a.toNat) ((s.core c.val).rdW b.toNat) = false → natBit
    (s.core c.val).status.toNat 16 = true → Ends (bcdInstr fn c h d a b) s fun t => Trapped (s.mapCore c.val (raised
    0x8000)) t c.val vBCD 0 v)

/-- R288, R295, R296: NOP does nothing; local loads deliver to the third bundle what they read, local stores write their bytes
and nothing else; a misaligned access raises ALIGN, one that BANK does not allow LOCAL_PERM. -/
def Obligations.LocalMemory : Prop := ∀ (s : State), 
  (∀ (c : Fin 5) (h : Hdr) (x : Xl), AtBundle s c.val none x → Alone h → h.gn = false → h.gp = 0 → NoEnd (s.core
    c.val) → Ends (.nop c h) s fun t => Issued s t c.val x 0 id) ∧
  (∀ (c : Fin 5) (h : Hdr) (x : Xl) (d a : BitVec 5) (sz : BitVec 3) (off : BitVec 8), Lone s c.val h x → legalSz true
    sz d → LocalOk s c.val a off (sizeW sz.toNat) 2 → Ends (.lld c h d a sz off) s fun t => Issued s t c.val x 3
    (putInt sz.toNat d.toNat (memBytes s (.lmem (localAt c.val (s.core c.val) (shortAt (s.core c.val) a off (sizeW
    sz.toNat)))) (sizeW sz.toNat)))) ∧
  (∀ (c : Fin 5) (h : Hdr) (x : Xl) (d a : BitVec 5) (sz : BitVec 3) (off : BitVec 8), Lone s c.val h x → legalSz
    false sz d → LocalOk s c.val a off (sizeW sz.toNat) 3 → Ends (.lst c h d a sz off) s fun t => Stored s t c.val x
    (localAt c.val (s.core c.val) (shortAt (s.core c.val) a off (sizeW sz.toNat))) (storeBytes sz.toNat d.toNat
    (s.core c.val)) 0) ∧
  (∀ (c : Fin 5) (h : Hdr) (x : Xl) (d : BitVec 6) (a : BitVec 5) (sz : BitVec 2) (off : BitVec 8), Lone s c.val h x →
    legalFp sz d → LocalOk s c.val a off (sizeF sz.toNat) 2 → Ends (.lldf c h d a sz off) s fun t => Issued s t c.val
    x 3 (putFp sz.toNat d.toNat (memBytes s (.lmem (localAt c.val (s.core c.val) (shortAt (s.core c.val) a off (sizeF
    sz.toNat)))) (sizeF sz.toNat)))) ∧
  (∀ (c : Fin 5) (h : Hdr) (x : Xl) (d : BitVec 6) (a : BitVec 5) (sz : BitVec 2) (off : BitVec 8), Lone s c.val h x →
    legalFp sz d → LocalOk s c.val a off (sizeF sz.toNat) 3 → Ends (.lstf c h d a sz off) s fun t => Stored s t c.val
    x (localAt c.val (s.core c.val) (shortAt (s.core c.val) a off (sizeF sz.toNat))) (fpBytesOf sz.toNat d.toNat
    (s.core c.val)) (halfFlags sz.toNat d.toNat (s.core c.val))) ∧
  (∀ (c : Fin 5) (h : Hdr) (x : Xl) (d a : BitVec 5) (sz : BitVec 3) (off : BitVec 8) (v : Nat × Bool × Nat), Lone s
    c.val h x → legalSz true sz d → c.val < 4 → CanEnter s c.val vALIGN v → shortAt (s.core c.val) a off (sizeW
    sz.toNat) % sizeW sz.toNat ≠ 0 → Ends (.lld c h d a sz off) s fun t => Trapped s t c.val vALIGN (shortAt (s.core
    c.val) a off (sizeW sz.toNat)) v) ∧
  (∀ (c : Fin 5) (h : Hdr) (x : Xl) (d a : BitVec 5) (sz : BitVec 3) (off : BitVec 8) (v : Nat × Bool × Nat), Lone s
    c.val h x → legalSz false sz d → c.val < 4 → CanEnter s c.val vLOCAL v → shortAt (s.core c.val) a off (sizeW
    sz.toNat) % sizeW sz.toNat = 0 → natBit (s.core c.val).bank.toNat 31 = false ∨ natBit (s.core c.val).bank.toNat 3
    = false → Ends (.lst c h d a sz off) s fun t => Trapped s t c.val vLOCAL (shortAt (s.core c.val) a off (sizeW
    sz.toNat)) v)

/-- R280, R298, R319: a syllable whose guard does not hold writes nothing, whatever it is: the bundle issues and only the
address moves. Transfers take their guard as their condition, and vector syllables apply it lane by lane. -/
def Obligations.GuardOff : Prop := ∀ (s : State) (i : Instr) (c : Fin 5) (h : Hdr) (op : Op) (x : Xl),
  sylOf i = some (c, h, op) → AtBundle s c.val none x → NoEnd (s.core c.val) →
  Alone h → natBit ((s.core c.val).rdP h.gp.toNat) 0 = h.gn →
  illegalSyl c.val ⟨h, op⟩ = false → (needsSys op = true → (s.core c.val).pcc.perm pSYS = true) →
  isXfer op = false → byLane op = false →
  Ends i s fun t => Issued s t c.val x 0 fun y => if isRep ⟨h, op⟩ then { y with repOff := some y.pc } else y


/-- R322, R323, R315, R324: a field value that the spec does not allow raises ILLEGAL_OP, an operation marked SYS without SYS
in PCC raises SYS_AUTH, whatever the guard, and nothing of the bundle takes effect. ILLEGAL_OP comes first. -/
def Obligations.DecodeFaults : Prop := ∀ (s : State) (i : Instr) (c : Fin 5) (h : Hdr) (op : Op) (x : Xl) (v : Nat × Bool × Nat),
  sylOf i = some (c, h, op) → AtBundle s c.val none x → NoEnd (s.core c.val) → h.s = true → h.wrong = none →
  (c.val < 4 → masterBusy s (77 + c.val) ≤ 31) → (∀ m : Fin 4, (s.core m.val).tlbq = []) →
  (illegalSyl c.val ⟨h, op⟩ = true → CanEnter s c.val vOP v → Ends i s fun t => Trapped s t c.val vOP 0 v) ∧
  (illegalSyl c.val ⟨h, op⟩ = false → needsSys op = true → (s.core c.val).pcc.perm pSYS = false →
    CanEnter s c.val vSYSAUTH v → Ends i s fun t => Trapped s t c.val vSYSAUTH 0 v)


/-- R286, R290, R295, R296, R382, R393: a global load, a KLD and an LDW pass their checks and become pending; the return of the
data delivers it; a global store and a KST change exactly their bytes and the tag of their granule. -/
def Obligations.GlobalMemory : Prop := ∀ (s : State), 
  (∀ (c : Fin 5) (h : Hdr) (x : Xl) (y : Xl) (d : BitVec 5) (k : BitVec 4) (a : BitVec 5) (sz : BitVec 3) (off :
    BitVec 4), Lone s c.val h x → legalSz true sz d → Allowed s c.val .load false ((s.core c.val).rdC k.toNat)
    (globalAt (s.core c.val) k.toNat a off (sizeW sz.toNat)) (sizeW sz.toNat) 0 y → Room s c.val → Ends (.gld c h d k
    a sz off) s fun t => Issued s { t with sal := { t.sal with peak := s.sal.peak } } c.val x 0 (reading .load y
    (sizeW sz.toNat) (.int sz.toNat (keyW (s.core c.val) d.toNat) (keyW (s.core c.val) (d.toNat + 1))))) ∧
  (∀ (c : Fin 5) (h : Hdr) (x : Xl) (y : Xl) (d : BitVec 5) (k : BitVec 4) (a : BitVec 5) (sz : BitVec 3) (off :
    BitVec 4), Lone s c.val h x → legalSz false sz d → Allowed s c.val .store false ((s.core c.val).rdC k.toNat)
    (globalAt (s.core c.val) k.toNat a off (sizeW sz.toNat)) (sizeW sz.toNat) (natOfBytes (storeBytes sz.toNat d.toNat
    (s.core c.val))) y → Writable s y.pa → Ends (.gst c h d k a sz off) s fun t => StoredAt s t c.val x y .store
    (storeBytes sz.toNat d.toNat (s.core c.val)) false 0) ∧
  (∀ (c : Fin 5) (h : Hdr) (x : Xl) (y : Xl) (d : BitVec 6) (k : BitVec 4) (a : BitVec 5) (sz : BitVec 2) (off :
    BitVec 4), Lone s c.val h x → legalFp sz d → (c.val = 4 → sz ≠ 3) → Allowed s c.val .load false ((s.core
    c.val).rdC k.toNat) (globalAt (s.core c.val) k.toNat a off (sizeF sz.toNat)) (sizeF sz.toNat) 0 y → Room s c.val →
    Ends (.gldf c h d k a sz off) s fun t => Issued s { t with sal := { t.sal with peak := s.sal.peak } } c.val x 0
    (reading .load y (sizeF sz.toNat) (.fp sz.toNat d.toNat))) ∧
  (∀ (c : Fin 5) (h : Hdr) (x : Xl) (y : Xl) (d : BitVec 6) (k : BitVec 4) (a : BitVec 5) (sz : BitVec 2) (off :
    BitVec 4), Lone s c.val h x → legalFp sz d → (c.val = 4 → sz ≠ 3) → Allowed s c.val .store false ((s.core
    c.val).rdC k.toNat) (globalAt (s.core c.val) k.toNat a off (sizeF sz.toNat)) (sizeF sz.toNat) (natOfBytes
    (fpBytesOf sz.toNat d.toNat (s.core c.val))) y → Writable s y.pa → Ends (.gstf c h d k a sz off) s fun t =>
    StoredAt s t c.val x y .store (fpBytesOf sz.toNat d.toNat (s.core c.val)) false (halfFlags sz.toNat d.toNat
    (s.core c.val))) ∧
  (∀ (c : Fin 5) (h : Hdr) (x : Xl) (y : Xl) (d a b : BitVec 5), Lone s c.val h x → d.toNat < 16 → b.toNat < 16 →
    Allowed s c.val .kld false ((s.core c.val).rdC b.toNat) (((s.core c.val).rdC b.toNat).base + ((s.core c.val).rdW
    a.toNat).toNat) 16 0 y → Room s c.val → Ends (.kld c h d a b) s fun t => Issued s
    { t with sal := { t.sal with peak := s.sal.peak } } c.val x 0 (reading .kld y 16 (.cap d.toNat))) ∧
  (∀ (c : Fin 5) (h : Hdr) (x : Xl) (y : Xl) (d a b : BitVec 5), Lone s c.val h x → d.toNat < 16 → b.toNat < 16 →
    Allowed s c.val .kst ((s.core c.val).rdC d.toNat).live ((s.core c.val).rdC b.toNat) (((s.core c.val).rdC
    b.toNat).base + ((s.core c.val).rdW a.toNat).toNat) 16 0 y → Writable s y.pa → Ends (.kst c h d a b) s fun t =>
    StoredAt s t c.val x y .kst (bytesOfNat 16 ((s.core c.val).rdC d.toNat).bits.toNat) ((s.core c.val).rdC
    d.toNat).live 0) ∧
  (∀ (c : Fin 5) (h : Hdr) (x : Xl) (y : Xl) (d a : BitVec 5), Lone s c.val h x → d.toNat % 2 = 0 → (s.core
    c.val).pcc.perm pSYS = true → ((s.core c.val).rdW a.toNat).toNat % 8 = 0 → (translateWalk c.val (s.core c.val)
    ((s.core c.val).rdW a.toNat).toNat).toOption = some y → Room s c.val → Ends (.ldw c h d a) s fun t => Issued s
    { t with sal := { t.sal with peak := s.sal.peak } } c.val x 0 (reading .ldw y 8 (.ldw (keyW (s.core c.val)
    d.toNat) (keyW (s.core c.val) (d.toNat + 1))))) ∧
  (∀ (c : Fin 5) (l : PLoad), frozen s (corePg c.val) = false → Idle s c.val → (s.core c.val).pend = [] → (s.core
    c.val).fdivs = [] → (s.core c.val).loads = [l] → notPanq l = true → l.early = none → l.cuts = [] → Readable s
    c.val l.pa l.size → Ends (.globalLoadReturn c 0 none) s fun t => After (3 - l.age) (t.core c.val) = delivered s
    c.val l (memBytes s (regionOf (coreDie c.val) l.pa) l.size) { s.core c.val with loads := [] } ∧ Returned s t
    c.val)

/-- R290, R399: the checks of a global access in their order, each with its exception and the address in EINFO, and a
translation that fails, with XBADVA. -/
def Obligations.AccessChecks : Prop := ∀ (s : State), 
  (∀ (c : Fin 5) (h : Hdr) (x : Xl) (d : BitVec 5) (k : BitVec 4) (a : BitVec 5) (sz : BitVec 3) (off : BitVec 4) (v :
    Nat × Bool × Nat), Lone s c.val h x → legalSz true sz d → Room s c.val → CanEnter s c.val vTAG v → ((s.core
    c.val).rdC k.toNat).live = false → Ends (.gld c h d k a sz off) s fun t => Trapped s t c.val vTAG ((globalAt
    (s.core c.val) k.toNat a off (sizeW sz.toNat)) % 2 ^ 32) v) ∧
  (∀ (c : Fin 5) (h : Hdr) (x : Xl) (d : BitVec 5) (k : BitVec 4) (a : BitVec 5) (sz : BitVec 3) (off : BitVec 4) (v :
    Nat × Bool × Nat), Lone s c.val h x → legalSz true sz d → Room s c.val → CanEnter s c.val vSEAL v → ((s.core
    c.val).rdC k.toNat).live = true → ((s.core c.val).rdC k.toNat).sealed = true → Ends (.gld c h d k a sz off) s fun
    t => Trapped s t c.val vSEAL ((globalAt (s.core c.val) k.toNat a off (sizeW sz.toNat)) % 2 ^ 32) v) ∧
  (∀ (c : Fin 5) (h : Hdr) (x : Xl) (d : BitVec 5) (k : BitVec 4) (a : BitVec 5) (sz : BitVec 3) (off : BitVec 4) (v :
    Nat × Bool × Nat), Lone s c.val h x → legalSz true sz d → Room s c.val → CanEnter s c.val vPERM v → ((s.core
    c.val).rdC k.toNat).live = true → ((s.core c.val).rdC k.toNat).sealed = false → (needPerms s (coreDie c.val) .load
    false (globalAt (s.core c.val) k.toNat a off (sizeW sz.toNat)) (sizeW sz.toNat) 0).all ((s.core c.val).rdC
    k.toNat).perm = false → Ends (.gld c h d k a sz off) s fun t => Trapped s t c.val vPERM ((globalAt (s.core c.val)
    k.toNat a off (sizeW sz.toNat)) % 2 ^ 32) v) ∧
  (∀ (c : Fin 5) (h : Hdr) (x : Xl) (d : BitVec 5) (k : BitVec 4) (a : BitVec 5) (sz : BitVec 3) (off : BitVec 4) (v :
    Nat × Bool × Nat), Lone s c.val h x → legalSz true sz d → Room s c.val → CanEnter s c.val vBOUND v → ((s.core
    c.val).rdC k.toNat).live = true → ((s.core c.val).rdC k.toNat).sealed = false → (needPerms s (coreDie c.val) .load
    false (globalAt (s.core c.val) k.toNat a off (sizeW sz.toNat)) (sizeW sz.toNat) 0).all ((s.core c.val).rdC
    k.toNat).perm = true → ((s.core c.val).rdC k.toNat).covers (globalAt (s.core c.val) k.toNat a off (sizeW
    sz.toNat)) (sizeW sz.toNat) = false → Ends (.gld c h d k a sz off) s fun t => Trapped s t c.val vBOUND ((globalAt
    (s.core c.val) k.toNat a off (sizeW sz.toNat)) % 2 ^ 32) v) ∧
  (∀ (c : Fin 5) (h : Hdr) (x : Xl) (d : BitVec 5) (k : BitVec 4) (a : BitVec 5) (sz : BitVec 3) (off : BitVec 4) (v :
    Nat × Bool × Nat), Lone s c.val h x → legalSz true sz d → Room s c.val → CanEnter s c.val vALIGN v → ((s.core
    c.val).rdC k.toNat).live = true → ((s.core c.val).rdC k.toNat).sealed = false → (needPerms s (coreDie c.val) .load
    false (globalAt (s.core c.val) k.toNat a off (sizeW sz.toNat)) (sizeW sz.toNat) 0).all ((s.core c.val).rdC
    k.toNat).perm = true → ((s.core c.val).rdC k.toNat).covers (globalAt (s.core c.val) k.toNat a off (sizeW
    sz.toNat)) (sizeW sz.toNat) = true → (globalAt (s.core c.val) k.toNat a off (sizeW sz.toNat)) % (sizeW sz.toNat) ≠
    0 → Ends (.gld c h d k a sz off) s fun t => Trapped s t c.val vALIGN ((globalAt (s.core c.val) k.toNat a off
    (sizeW sz.toNat)) % 2 ^ 32) v) ∧
  (∀ (c : Fin 5) (h : Hdr) (x : Xl) (d : BitVec 5) (k : BitVec 4) (a : BitVec 5) (sz : BitVec 3) (off : BitVec 4) (v :
    Nat × Bool × Nat), Lone s c.val h x → legalSz true sz d → Room s c.val → CanEnter s c.val vXLATE v → c.val < 4 →
    (s.core c.val).blkMode = 1 → capCheck s .F .load false ((s.core c.val).rdC k.toNat) (globalAt (s.core c.val)
    k.toNat a off (sizeW sz.toNat)) (sizeW sz.toNat) (sizeW sz.toNat) 0 = none → (∀ i : Fin 16, blkMatch (s.core
    c.val) i.val (globalAt (s.core c.val) k.toNat a off (sizeW sz.toNat)) = false) → Ends (.gld c h d k a sz off) s
    fun t => Trapped (s.mapCore c.val fun y =>
    { y with xbadva := (globalAt (s.core c.val) k.toNat a off (sizeW sz.toNat)) }) t c.val vXLATE 16 v)

/-- R379, R380, R381: the moves, narrowings, seals and reads of capabilities, each with its checks in order. -/
def Obligations.CapabilityGroup : Prop := ∀ (s : State), 
  (∀ (c : Fin 5) (h : Hdr) (x : Xl) (d a b : BitVec 5), Lone s c.val h x → d.toNat < 16 → a.toNat < 16 → Ends (.kmov c
    h d a b) s fun t => Issued s t c.val x 1 fun y => putC d.toNat (y.rdC a.toNat) y) ∧
  (∀ (c : Fin 5) (h : Hdr) (x : Xl) (d a b : BitVec 5), Lone s c.val h x → d.toNat < 16 → a.toNat < 16 → Ends (.kvoid
    c h d a b) s fun t => Issued s t c.val x 1 fun y => putC d.toNat { y.rdC a.toNat with tag := false } y) ∧
  (∀ (c : Fin 5) (h : Hdr) (x : Xl) (d a b : BitVec 5), Lone s c.val h x → a.toNat < 16 → b.toNat ≤ 6 → Ends (.kfield
    c h d a b) s fun t => Issued s t c.val x 1 fun y => putW d.toNat (fieldOf (y.rdC a.toNat) b.toNat) y) ∧
  (∀ (c : Fin 5) (h : Hdr) (x : Xl) (d a b : BitVec 5), Lone s c.val h x → (s.core c.val).pcc.perm pSYS = true →
    d.toNat < 16 → Ends (.krds c h d a b) s fun t => Issued s t c.val x 1 fun y => putC d.toNat (y.rdS (b.toNat % 4))
    y) ∧
  (∀ (c : Fin 5) (h : Hdr) (x : Xl) (d a b : BitVec 5), Lone s c.val h x → (s.core c.val).pcc.perm pSYS = true →
    a.toNat < 16 → d = 0 → Ends (.kwrs c h d a b) s fun t => Issued s t c.val x 0 fun y => putSc (b.toNat % 4) (y.rdC
    a.toNat) y) ∧
  (∀ (c : Fin 5) (h : Hdr) (x : Xl) (d a b : BitVec 5), Lone s c.val h x → d.toNat < 16 → a.toNat < 16 → b.toNat % 2 =
    0 → Open ((s.core c.val).rdC a.toNat) → ((s.core c.val).rdW b.toNat).toNat + ((s.core c.val).rdW (b.toNat +
    1)).toNat ≤ ((s.core c.val).rdC a.toNat).len → Ends (.knarrow c h d a b) s fun t => Issued s t c.val x 1 fun y =>
    putC d.toNat (Cap.make ((y.rdC a.toNat).base + (y.rdW b.toNat).toNat) (y.rdW (b.toNat + 1)).toNat (y.rdC
    a.toNat).perms 0) y) ∧
  (∀ (c : Fin 5) (h : Hdr) (x : Xl) (d a b : BitVec 5), Lone s c.val h x → d.toNat < 16 → a.toNat < 16 → Open ((s.core
    c.val).rdC a.toNat) → Ends (.ktrim c h d a b) s fun t => Issued s t c.val x 1 fun y => putC d.toNat (Cap.make
    (y.rdC a.toNat).base (y.rdC a.toNat).len ((y.rdC a.toNat).perms &&& ((y.rdW b.toNat).toNat % 2 ^ 16)) (y.rdC
    a.toNat).otype) y) ∧
  (∀ (c : Fin 5) (h : Hdr) (x : Xl) (d a b : BitVec 5), Lone s c.val h x → d.toNat < 16 → a.toNat < 16 → Open ((s.core
    c.val).rdC d.toNat) → Key ((s.core c.val).rdC a.toNat) → 0 < ((s.core c.val).rdW b.toNat).toNat % 2 ^ 16 →
    ((s.core c.val).rdC a.toNat).base ≤ ((s.core c.val).rdW b.toNat).toNat % 2 ^ 16 → ((s.core c.val).rdW
    b.toNat).toNat % 2 ^ 16 < ((s.core c.val).rdC a.toNat).base + ((s.core c.val).rdC a.toNat).len → Ends (.klock c h
    d a b) s fun t => Issued s t c.val x 1 fun y => putC d.toNat (Cap.make (y.rdC d.toNat).base (y.rdC d.toNat).len
    (y.rdC d.toNat).perms ((y.rdW b.toNat).toNat % 2 ^ 16)) y) ∧
  (∀ (c : Fin 5) (h : Hdr) (x : Xl) (d a b : BitVec 5), Lone s c.val h x → d.toNat < 16 → a.toNat < 16 → b = 0 →
    ((s.core c.val).rdC d.toNat).live = true → ((s.core c.val).rdC d.toNat).sealed = true → Key ((s.core c.val).rdC
    a.toNat) → ((s.core c.val).rdC a.toNat).base ≤ ((s.core c.val).rdC d.toNat).otype → ((s.core c.val).rdC
    d.toNat).otype < ((s.core c.val).rdC a.toNat).base + ((s.core c.val).rdC a.toNat).len → Ends (.kopen c h d a b) s
    fun t => Issued s t c.val x 1 fun y => putC d.toNat (Cap.make (y.rdC d.toNat).base (y.rdC d.toNat).len (y.rdC
    d.toNat).perms 0) y) ∧
  (∀ (c : Fin 5) (h : Hdr) (x : Xl) (d a b : BitVec 5) (v : Nat × Bool × Nat), Lone s c.val h x → d.toNat < 16 →
    a.toNat < 16 → b.toNat % 2 = 0 → CanEnter s c.val vTAG v → ((s.core c.val).rdC a.toNat).live = false → Ends
    (.knarrow c h d a b) s fun t => Trapped s t c.val vTAG (((s.core c.val).rdC a.toNat).base % 2 ^ 32) v) ∧
  (∀ (c : Fin 5) (h : Hdr) (x : Xl) (d a b : BitVec 5) (v : Nat × Bool × Nat), Lone s c.val h x → d.toNat < 16 →
    a.toNat < 16 → b.toNat % 2 = 0 → CanEnter s c.val vSEAL v → ((s.core c.val).rdC a.toNat).live = true → ((s.core
    c.val).rdC a.toNat).sealed = true → Ends (.knarrow c h d a b) s fun t => Trapped s t c.val vSEAL (((s.core
    c.val).rdC a.toNat).base % 2 ^ 32) v) ∧
  (∀ (c : Fin 5) (h : Hdr) (x : Xl) (d a b : BitVec 5) (v : Nat × Bool × Nat), Lone s c.val h x → d.toNat < 16 →
    a.toNat < 16 → b.toNat % 2 = 0 → CanEnter s c.val vBOUND v → Open ((s.core c.val).rdC a.toNat) → ((s.core
    c.val).rdC a.toNat).len < ((s.core c.val).rdW b.toNat).toNat + ((s.core c.val).rdW (b.toNat + 1)).toNat → Ends
    (.knarrow c h d a b) s fun t => Trapped s t c.val vBOUND ((((s.core c.val).rdC a.toNat).base + ((s.core c.val).rdW
    b.toNat).toNat) % 2 ^ 32) v)

/-- R282, R298: a transfer records its condition and target, its delay slot runs in the frame it was issued in, and then a taken
one goes to its target with the window rotated for a call or a return; a call that would make WRES 31 spills the oldest frame. -/
def Obligations.Transfers : Prop := ∀ (s : State), 
  (∀ (c : Fin 5) (h : Hdr) (x : Xl) (an : Bool) (disp : BitVec 20), AtBundle s c.val none x → Alone h → NoEnd (s.core
    c.val) → Ends (.br c h an disp) s fun t => Transferred s t c.val x ⟨.br, (s.core c.val).pc, (natBit ((s.core
    c.val).rdP h.gp.toNat) 0 != h.gn), (((s.core c.val).pc + 4 * disp.toInt : Int) % 2 ^ 32).toNat, an && !(natBit
    ((s.core c.val).rdP h.gp.toNat) 0 != h.gn), false⟩) ∧
  (∀ (c : Fin 5) (h : Hdr) (x : Xl) (an : Bool) (disp : BitVec 20), AtBundle s c.val none x → Alone h → NoEnd (s.core
    c.val) → ((natBit ((s.core c.val).rdP h.gp.toNat) 0 != h.gn) = true → (s.core c.val).wres ≠ 30) → Ends (.call c h
    an disp) s fun t => Transferred s t c.val x ⟨.call, (s.core c.val).pc, (natBit ((s.core c.val).rdP h.gp.toNat) 0
    != h.gn), (((s.core c.val).pc + 4 * disp.toInt : Int) % 2 ^ 32).toNat, an && !(natBit ((s.core c.val).rdP
    h.gp.toNat) 0 != h.gn), false⟩) ∧
  (∀ (c : Fin 5) (h : Hdr) (x : Xl) (d a b : BitVec 5), AtBundle s c.val none x → Alone h → NoEnd (s.core c.val) →
    Ends (.jr c h d a b) s fun t => Transferred s t c.val x ⟨.jr, (s.core c.val).pc, (natBit ((s.core c.val).rdP
    h.gp.toNat) 0 != h.gn), ((s.core c.val).rdW a.toNat).toNat, false, false⟩) ∧
  (∀ (c : Fin 5) (h : Hdr) (x : Xl) (d a b : BitVec 5), AtBundle s c.val none x → Alone h → NoEnd (s.core c.val) →
    ((natBit ((s.core c.val).rdP h.gp.toNat) 0 != h.gn) = true → (s.core c.val).wres ≠ 30) → Ends (.callr c h d a b) s
    fun t => Transferred s t c.val x ⟨.callr, (s.core c.val).pc, (natBit ((s.core c.val).rdP h.gp.toNat) 0 != h.gn),
    ((s.core c.val).rdW a.toNat).toNat, false, false⟩) ∧
  (∀ (c : Fin 5) (h : Hdr) (x : Xl) (d a b : BitVec 5), AtBundle s c.val none x → Alone h → NoEnd (s.core c.val) → a =
    0 → b = 0 → ((natBit ((s.core c.val).rdP h.gp.toNat) 0 != h.gn) = true → (s.core c.val).wres ≠ 1) → Ends (.ret c h
    d a b) s fun t => Transferred s t c.val x ⟨.ret, (s.core c.val).pc, (natBit ((s.core c.val).rdP h.gp.toNat) 0 !=
    h.gn), ((s.core c.val).rdW 15).toNat, false, false⟩) ∧
  (∀ (c : Fin 5) (h : Hdr) (x : Xl) (xf : Xfer), AtBundle s c.val (some xf) x → Alone h → h.gn = false → h.gp = 0 →
    (s.core c.val).lctl = 0 → xf.taken = true → xf.annul = false → xf.again = false → Ends (.nop c h) s fun t =>
    unlearned (s.core c.val) (t.core c.val) = slotDone xf (((s.core c.val).pc + 4) % 2 ^ 32) (Fetched x (s.core
    c.val)) ∧ CoreOnly s t c.val) ∧
  (∀ (c : Fin 5) (h : Hdr) (x : Xl) (xf : Xfer), AtBundle s c.val (some xf) x → Alone h → h.gn = false → h.gp = 0 →
    NoEnd (s.core c.val) → xf.taken = false → xf.annul = false → xf.again = false → Ends (.nop c h) s fun t =>
    unlearned (s.core c.val) (t.core c.val) = moved { Fetched x (s.core c.val) with xfer := none } ∧ CoreOnly s t
    c.val) ∧
  (∀ (c : Fin 5) (h : Hdr) (x : Xl) (xf : Xfer) (d : BitVec 5) (imm : BitVec 16), AtBundle s c.val (some xf) x → h.s =
    true → h.wrong = none → NoEnd (s.core c.val) → xf.kind = .br → xf.taken = false → xf.annul = true → Ends (.movi c
    h d imm) s fun t => t.core c.val = moved { s.core c.val with xfer := none } ∧ CoreOnly s t c.val) ∧
  (∀ (c : Fin 5) (h : Hdr) (x : Xl) (an : Bool) (disp : BitVec 20), AtBundle s c.val none x → Alone h → NoEnd (s.core
    c.val) → c.val < 4 → (natBit ((s.core c.val).rdP h.gp.toNat) 0 != h.gn) = true → (s.core c.val).wres = 30 →
    (s.core c.val).blkMode = 0 → (s.core c.val).wsoff + 64 < 2 ^ 32 → (∀ i : Fin 16, (dataAccess s c.val (s.core
    c.val) .store false ((s.core c.val).rdS 0) (((s.core c.val).rdS 0).base + (s.core c.val).wsoff + 4 * i.val) 4 4
    0).toOption.isSome = true ∧ Writable s (((s.core c.val).rdS 0).base + (s.core c.val).wsoff + 4 * i.val)) → Ends
    (.call c h an disp) s fun t => (∀ i : Fin 16, memBytes t (regionOf .F (((s.core c.val).rdS 0).base + (s.core
    c.val).wsoff + 4 * i.val)) 4 = bytesOfNat 4 (storeGet 0 (s.core c.val).w (16 + (16 * (((s.core c.val).wb + 33 -
    30) % 32) + i.val) % 512)).toNat) ∧ (t.core c.val).wsoff = (s.core c.val).wsoff + 64 ∧ (t.core c.val).wres = 29 ∧
    (t.core c.val).w = (s.core c.val).w ∧ (t.core c.val).xfer = some ⟨.call, (s.core c.val).pc, true, (((s.core
    c.val).pc + 4 * disp.toInt : Int) % 2 ^ 32).toNat, false, false⟩) ∧
  (∀ (c : Fin 5) (h : Hdr) (x : Xl) (d a b : BitVec 5), AtBundle s c.val none x → Alone h → NoEnd (s.core c.val) → a =
    0 → b = 0 → c.val < 4 → (natBit ((s.core c.val).rdP h.gp.toNat) 0 != h.gn) = true → (s.core c.val).wres = 1 →
    (s.core c.val).blkMode = 0 → 64 ≤ (s.core c.val).wsoff → (s.core c.val).wsoff < 2 ^ 32 → (∀ i : Fin 16,
    (dataAccess s c.val (s.core c.val) .load false ((s.core c.val).rdS 0) (((s.core c.val).rdS 0).base + ((s.core
    c.val).wsoff - 64) + 4 * i.val) 4 4 0).toOption.isSome = true ∧ Readable s c.val (((s.core c.val).rdS 0).base +
    ((s.core c.val).wsoff - 64) + 4 * i.val) 4) → Ends (.ret c h d a b) s fun t => (∀ i : Fin 16, storeGet 0 (t.core
    c.val).w (16 + (16 * (((s.core c.val).wb + 31) % 32) + i.val) % 512) = BitVec.ofNat 32 (natOfBytes (memBytes s
    (regionOf .F (((s.core c.val).rdS 0).base + ((s.core c.val).wsoff - 64) + 4 * i.val)) 4))) ∧ (t.core c.val).wsoff
    = ((s.core c.val).wsoff - 64) ∧ (t.core c.val).wres = 2 ∧ (t.core c.val).xfer = some ⟨.ret, (s.core c.val).pc,
    true, ((s.core c.val).rdW 15).toNat, false, false⟩)

/-- R300 to R306, R364: LOOP and LOOPI set up a level, the end test goes back or ends it, REP and REPN repeat the next bundle,
and a REPN that has reached its ceiling is cut by a pending interrupt. -/
def Obligations.LoopsAndRepeats : Prop := ∀ (s : State), 
  (∀ (c : Fin 5) (h : Hdr) (x : Xl) (a : BitVec 5) (off : BitVec 12), Lone s c.val h x → off ≠ 0 → (s.core c.val).wb <
    32 → ((s.core c.val).lctl.getLsbD 0 = false ∨ (s.core c.val).lctl.getLsbD 1 = false) → ((s.core c.val).rdW
    a.toNat) ≠ 0 → Ends (.loop c h a off) s fun t => Issued s t c.val x 0 (looped (((s.core c.val).pc + 4) % 2 ^ 32)
    (((s.core c.val).pc + 4 * off.toNat) % 2 ^ 32) ((s.core c.val).rdW a.toNat).toNat)) ∧
  (∀ (c : Fin 5) (h : Hdr) (x : Xl) (count : BitVec 9) (off : BitVec 12), Lone s c.val h x → off ≠ 0 → (s.core
    c.val).wb < 32 → ((s.core c.val).lctl.getLsbD 0 = false ∨ (s.core c.val).lctl.getLsbD 1 = false) → Ends (.loopi c
    h count off) s fun t => Issued s t c.val x 0 (looped (((s.core c.val).pc + 4) % 2 ^ 32) (((s.core c.val).pc + 4 *
    off.toNat) % 2 ^ 32) (if count = 0 then 512 else count.toNat))) ∧
  (∀ (c : Fin 5) (h : Hdr) (x : Xl) (a : BitVec 5) (off : BitVec 12), Lone s c.val h x → off ≠ 0 → ((s.core
    c.val).lctl.getLsbD 0 = false ∨ (s.core c.val).lctl.getLsbD 1 = false) → ((s.core c.val).rdW a.toNat) = 0 → Ends
    (.loop c h a off) s fun t => (t.core c.val).pc = ((((s.core c.val).pc + 4 * off.toNat) % 2 ^ 32) + bundleLen s
    c.val (((s.core c.val).pc + 4 * off.toNat) % 2 ^ 32)) % 2 ^ 32 ∧ storeGet 0 (t.core c.val).lcnt (loopLevel (s.core
    c.val)) = 0 ∧ (t.core c.val).lctl.getLsbD (loopLevel (s.core c.val)) = false ∧ (t.core c.val).w = (s.core c.val).w
    ∧ CoreOnly s t c.val) ∧
  (∀ (c : Fin 5) (h : Hdr) (x : Xl) (a : BitVec 5) (off : BitVec 12) (v : Nat × Bool × Nat), Lone s c.val h x → off ≠
    0 → CanEnter s c.val vLOOP v → (s.core c.val).lctl.getLsbD 0 = true → (s.core c.val).lctl.getLsbD 1 = true → Ends
    (.loop c h a off) s fun t => Trapped s t c.val vLOOP 0 v) ∧
  (∀ (c : Fin 5) (h : Hdr) (x : Xl) (i : Fin 2), AtBundle s c.val none x → Alone h → h.gn = false → h.gp = 0 →
    endLevels (s.core c.val) ⟨[], none⟩ (s.core c.val).pc = [(i.val, storeGet 0 (s.core c.val).lstart i.val)] → 1 <
    storeGet 0 (s.core c.val).lcnt i.val → Ends (.nop c h) s fun t => t.core c.val = loopBack i.val (Fetched x (s.core
    c.val)) ∧ CoreOnly s t c.val) ∧
  (∀ (c : Fin 5) (h : Hdr) (x : Xl) (i : Fin 2), AtBundle s c.val none x → Alone h → h.gn = false → h.gp = 0 →
    endLevels (s.core c.val) ⟨[], none⟩ (s.core c.val).pc = [(i.val, storeGet 0 (s.core c.val).lstart i.val)] →
    storeGet 0 (s.core c.val).lcnt i.val = 1 → Ends (.nop c h) s fun t => t.core c.val = loopOver i.val (Fetched x
    (s.core c.val)) ∧ CoreOnly s t c.val) ∧
  (∀ (c : Fin 5) (h : Hdr) (x : Xl) (reg : Bool) (a : BitVec 5) (count : BitVec 8), Lone s c.val h x → (reg = false →
    a = 0) → 0 < repCount (s.core c.val) reg a count → (natBits (s.core c.val).status.toNat 23 9 = 0 → repCount
    (s.core c.val) reg a count ≤ 256) → Ends (.rep c h reg a count) s fun t => Issued s t c.val x 0 (repeating false
    (repCount (s.core c.val) reg a count) (s.core c.val).pc)) ∧
  (∀ (c : Fin 5) (h : Hdr) (x : Xl) (reg : Bool) (a : BitVec 5) (count : BitVec 8), Lone s c.val h x → (reg = false →
    a = 0) → repCount (s.core c.val) reg a count = 0 → illegalBody (bundleAt s c.val (((s.core c.val).pc + 4) % 2 ^
    32)) = false → Ends (.rep c h reg a count) s fun t => (t.core c.val).pc = (((s.core c.val).pc + 4) % 2 ^ 32 +
    bundleLen s c.val (((s.core c.val).pc + 4) % 2 ^ 32)) % 2 ^ 32 ∧ (t.core c.val).rep = none ∧ (t.core c.val).w =
    (s.core c.val).w ∧ CoreOnly s t c.val) ∧
  (∀ (c : Fin 5) (h : Hdr) (x : Xl) (reg : Bool) (a : BitVec 5) (count : BitVec 8) (v : Nat × Bool × Nat), Lone s
    c.val h x → (reg = false → a = 0) → natBits (s.core c.val).status.toNat 23 9 = 0 → 256 < repCount (s.core c.val)
    reg a count → CanEnter s c.val vREP v → Ends (.rep c h reg a count) s fun t => Trapped s t c.val vREP (repCount
    (s.core c.val) reg a count) v) ∧
  (∀ (c : Fin 5) (h : Hdr) (x : Xl) (reg : Bool) (a : BitVec 5) (count : BitVec 8), Lone s c.val h x → (reg = false →
    a = 0) → 0 < repCount (s.core c.val) reg a count → (natBits (s.core c.val).status.toNat 23 9 = 0 → repCount
    (s.core c.val) reg a count ≤ 256) → Ends (.repn c h reg a count) s fun t => Issued s t c.val x 0 (repeating true
    (repCount (s.core c.val) reg a count) (s.core c.val).pc)) ∧
  (∀ (c : Fin 5) (h : Hdr) (x : Xl) (reg : Bool) (a : BitVec 5) (count : BitVec 8), Lone s c.val h x → (reg = false →
    a = 0) → repCount (s.core c.val) reg a count = 0 → illegalBody (bundleAt s c.val (((s.core c.val).pc + 4) % 2 ^
    32)) = false → Ends (.repn c h reg a count) s fun t => (t.core c.val).pc = (((s.core c.val).pc + 4) % 2 ^ 32 +
    bundleLen s c.val (((s.core c.val).pc + 4) % 2 ^ 32)) % 2 ^ 32 ∧ (t.core c.val).rep = none ∧ (t.core c.val).w =
    (s.core c.val).w ∧ CoreOnly s t c.val) ∧
  (∀ (c : Fin 5) (h : Hdr) (x : Xl) (reg : Bool) (a : BitVec 5) (count : BitVec 8) (v : Nat × Bool × Nat), Lone s
    c.val h x → (reg = false → a = 0) → natBits (s.core c.val).status.toNat 23 9 = 0 → 256 < repCount (s.core c.val)
    reg a count → CanEnter s c.val vREP v → Ends (.repn c h reg a count) s fun t => Trapped s t c.val vREP (repCount
    (s.core c.val) reg a count) v) ∧
  (∀ (c : Fin 5) (h : Hdr) (x : Xl) (r : Rep), AtBundle (unrepeated s c.val) c.val none x → Alone h → h.gn = false →
    h.gp = 0 → NoEnd (s.core c.val) → (s.core c.val).rep = some r → r.body = none → 1 < r.left → Ends (.nop c h) s fun
    t => t.core c.val =
    { Fetched x (s.core c.val) with rep := some { r with left := r.left - 1, body := some ⟨[⟨h, .nop⟩], none⟩, bodyAt := (s.core c.val).pc }, step := false, issued := true, rasWrong := none }
    ∧ CoreOnly s t c.val) ∧
  (∀ (c : Fin 5) (h : Hdr) (x : Xl) (r : Rep), AtBundle (unrepeated s c.val) c.val none x → Alone h → h.gn = false →
    h.gp = 0 → NoEnd (s.core c.val) → (s.core c.val).rep = some r → r.body = none → r.left = 1 → r.ni = false → Ends
    (.nop c h) s fun t => t.core c.val = moved { Fetched x (s.core c.val) with rep := none } ∧ CoreOnly s t c.val) ∧
  (∀ (c : Fin 5) (r : Rep) (j : Fin 16) (v : Nat × Bool × Nat), frozen s (corePg c.val) = false → coreRunning s c.val
    = true → (s.core c.val).halted = false → (s.core c.val).ni = false → (s.core c.val).xfer = none → (s.core
    c.val).rep = some r → r.ni = true → spanLimit s c.val ≤ (s.core c.val).span → clocked s c.val = true → coreFrozen
    s c.val = false → (s.core c.val).pend = [] → (s.core c.val).loads = [] → (s.core c.val).fdivs = [] → (s.core
    c.val).redo = none → (s.core c.val).group = [] → (s.core c.val).asm = [] → (s.core c.val).fq = [] → c.val < 4 →
    r.left ≤ 256 → natBit (s.core c.val).ipend 16 = false → pendingInt (s.core c.val) = some j.val → CanEnter s c.val
    (0x30 + j.val) v → Ends (.repnCut c) s fun t => t.core c.val = interrupted (s.core c.val) ⟨r.addr, (s.core
    c.val).status &&& 0x3FFFFF ||| BitVec.ofNat 32 (2 ^ 22 + r.left * 2 ^ 23), 0, 0⟩ v j.val ∧ t.fld (fEXn_CUTS c.val)
    = satInc 32 (s.fld (fEXn_CUTS c.val)) ∧ pendBit t (exPg c.val) 2 = true ∧ RegsEv s t [(fEXn_COUNT c.val).key,
    (fEXn_MAXSPAN c.val).key, (fEXn_CUTS c.val).key] [exPg c.val]) ∧
  (∀ (c : Fin 5), frozen s (corePg c.val) = false → atCeiling s c.val = false ∨ pendingInt (s.core c.val) = none →
    Ends (.repnCut c) s fun t => t = s)

/-- R307, R308, R309, R314: EVW takes the event flag or waits, EVS sets it, WTA and WTT wait for their target or go on at once,
the waits end at their limit or target, EVCH pulses its channel, and TEND ends the running task. -/
def Obligations.EventsAndWaits : Prop := ∀ (s : State), 
  (∀ (c : Fin 5) (h : Hdr) (x : Xl) (d a b : BitVec 5), Lone s c.val h x → (s.core c.val).status.getLsbD 19 = true →
    Ends (.evw c h d a b) s fun t => Issued s t c.val x 0 (withStat 0x80200 0)) ∧
  (∀ (c : Fin 5) (h : Hdr) (x : Xl) (d a b : BitVec 5), Lone s c.val h x → (s.core c.val).status.getLsbD 19 = false →
    Ends (.evw c h d a b) s fun t => Issued s t c.val x 0 (waiting (.evw (if ((s.core c.val).rdW a.toNat) = 0 then
    none else some (fcycOf s + ((s.core c.val).rdW a.toNat).toNat))))) ∧
  (∀ (c : Fin 5) (h : Hdr) (x : Xl) (d a b : BitVec 5), Lone s c.val h x → c.val < 4 → Ends (.evs c h d a b) s fun t
    => t.core c.val = (if ((s.core c.val).rdW a.toNat).getLsbD c.val then flagged (fcycOf s) (moved (Fetched x (s.core
    c.val))) else moved (Fetched x (s.core c.val))) ∧ (∀ i : Fin 5, i.val ≠ c.val → t.core i.val = if i.val < 4 ∧
    ((s.core c.val).rdW a.toNat).getLsbD i.val = true then flagged (fcycOf s) (s.core i.val) else s.core i.val) ∧ Regs
    s t [(fEPn_BUNDLES c.val).key] ∧ NoEvents s t ∧ Kept s { t with cores := s.cores }) ∧
  (∀ (c : Fin 5) (h : Hdr) (x : Xl) (d a b : BitVec 5), Lone s c.val h x → c.val < 4 → a.toNat % 2 = 0 → Ends (.wta c
    h d a b) s fun t => Issued s t c.val x 0 (timedWait (decide (waitTarget (s.core c.val) a ≤ angleOf s)) (.angle
    (waitTarget (s.core c.val) a) (s.core c.val).pc))) ∧
  (∀ (c : Fin 5) (h : Hdr) (x : Xl) (d a b : BitVec 5), Lone s c.val h x → c.val < 4 → a.toNat % 2 = 0 → Ends (.wtt c
    h d a b) s fun t => Issued s t c.val x 0 (timedWait (decide (waitTarget (s.core c.val) a ≤ tickNo s)) (.tick
    (waitTarget (s.core c.val) a) (s.core c.val).pc))) ∧
  (∀ (c : Fin 5) (l : Nat), frozen s (corePg c.val) = false → Idle (unwaited s c.val) c.val → (s.core c.val).wait =
    some (.evw (some l)) → l ≤ fcycOf s → Ends (.evwTimeout c) s fun t => t.core c.val = unwaiting (withStat 0 0x200
    (s.core c.val)) ∧ CoreAlone s t c.val) ∧
  (∀ (c : Fin 5) (g at' : Nat) (an : Bool), frozen s (corePg c.val) = false → Idle (unwaited s c.val) c.val → (s.core
    c.val).wait = some (if an then .angle g at' else .tick g at') → g ≤ (if an then angleOf s else tickNo s) → Ends
    (.waitTargetReached c) s fun t => t.core c.val = unwaiting (withStat 0x300000 0 (s.core c.val)) ∧ CoreAlone s t
    c.val) ∧
  (∀ (c : Fin 5) (h : Hdr) (x : Xl) (d a b : BitVec 5), Lone s c.val h x → c.val < 4 → (s.core c.val).pcc.perm pSYS =
    true → Ends (.evch c h d a b) s fun t => t = pulse (((s.core c.val).rdW a.toNat).toNat % 256) false ((s.setCore
    c.val (moved (Fetched x (s.core c.val)))).incFld (fEPn_BUNDLES c.val))) ∧
  (∀ (c : Fin 5) (h : Hdr) (x : Xl) (d a b : BitVec 5) (v : Nat × Bool × Nat), Lone s c.val h x → c.val < 4 → CanEnter
    s c.val vOP v → Ends (.tend c h d a b) s fun t => Trapped s t c.val vOP 0 v) ∧
  (∀ (c : Fin 5) (h : Hdr) (x : Xl) (d a b : BitVec 5) (l : SaveLevel) (k : Task) (u : Launch), AtBundle (ungrouped s
    c.val) c.val none x → Runs s c.val h → NoEnd (s.core c.val) → c.val < 4 → (s.core c.val).group = [k] → (s.core
    c.val).overran = none → (s.core c.val).gdep = (s.core c.val).sb.length → (s.core c.val).gwb = (s.core c.val).wb →
    (s.core c.val).wb < 32 → 0 < (s.core c.val).wres → max 1 k.used ≤ k.budget → PlainLevel (s.core c.val) l →
    launchOf s k.ctx k.tick = some u → u.live ≠ 0 → Ends (.tend c h d a b) s fun t => t.core c.val = returned l
    { Fetched x (s.core c.val) with group := [] } ∧ launchOf t k.ctx k.tick = some { u with taskLeft := false } ∧
    t.cry.ctx = s.cry.ctx ∧ Regs s t [(fEPn_BUNDLES c.val).key] ∧ NoEvents s t ∧ Kept s
    { t with cores := s.cores, cry := s.cry })

/-- R284, R285, R287, R289, R315, R316, R342, R356 to R360, R379, R396, R397: the system group. -/
def Obligations.SystemGroup : Prop := ∀ (s : State), 
  (∀ (c : Fin 5) (h : Hdr) (x : Xl) (d a b : BitVec 5), Lone s c.val h x → Ends (.fence c h d a b) s fun t => Issued s
    t c.val x 0 id) ∧
  (∀ (c : Fin 5) (h : Hdr) (x : Xl) (d a b : BitVec 5), Lone s c.val h x → Ends (.syncI c h d a b) s fun t => Issued s
    t c.val x 0 linesEmpty) ∧
  (∀ (c : Fin 5) (h : Hdr) (x : Xl) (d a b : BitVec 5), Lone s c.val h x → Ends (.rdstat c h d a b) s fun t => Issued
    s t c.val x 1 fun y => putW d.toNat y.status y) ∧
  (∀ (c : Fin 5) (h : Hdr) (x : Xl) (d a b : BitVec 5), Lone s c.val h x → Ends (.wrstat c h d a b) s fun t => Issued
    s t c.val x 0 (withStat statRW (((s.core c.val).rdW d.toNat) &&& statRW))) ∧
  (∀ (c : Fin 5) (h : Hdr) (x : Xl) (d a b : BitVec 5) (k : Nat), Lone s c.val h x → sysRead c.val (s.core c.val) (32
    * a.toNat + b.toNat) = some k → Ends (.rdsys c h d a b) s fun t => Issued s t c.val x 1 fun y => putW d.toNat
    (BitVec.ofNat 32 k) y) ∧
  (∀ (c : Fin 5) (h : Hdr) (x : Xl) (d a b : BitVec 5), Lone s c.val h x → (s.core c.val).pcc.perm pSYS = true →
    sysWritable (32 * a.toNat + b.toNat) = true → 32 * a.toNat + b.toNat ≠ 0x100 → (s.core c.val).ipend = 0 → Ends
    (.wrsys c h d a b) s fun t => Issued s t c.val x 0 (sysWrite c.val (32 * a.toNat + b.toNat) ((s.core c.val).rdW
    d.toNat).toNat)) ∧
  (∀ (c : Fin 5) (h : Hdr) (x : Xl) (d a b : BitVec 5), Lone s c.val h x → (s.core c.val).pcc.perm pSYS = true → 32 *
    a.toNat + b.toNat = 0x100 → (if c.val = 4 then 0xFFFC0000 ≤ ((s.core c.val).rdW d.toNat).toNat else ((s.core
    c.val).rdW d.toNat).toNat / 0x10000 = 0x1008 + c.val * 0x10) → Ends (.wrsys c h d a b) s fun t => Issued s t c.val
    x 0 fun y => { y with tbase := (y.rdW d.toNat).toNat / 1024 * 1024 }) ∧
  (∀ (c : Fin 5) (h : Hdr) (x : Xl) (d a b : BitVec 5), Lone s c.val h x → a.toNat < 16 → Open ((s.core c.val).rdC
    a.toNat) → ((s.core c.val).rdC a.toNat).perm pEXEC = true → Ends (.csw c h d a b) s fun t => Issued s t c.val x 0
    fun y => cswTo (y.rdC a.toNat) y) ∧
  (∀ (c : Fin 5) (h : Hdr) (x : Xl) (d a b : BitVec 5) (l : SaveLevel), Lone s c.val h x → (s.core c.val).pcc.perm
    pSYS = true → PlainLevel (s.core c.val) l → Ends (.eret c h d a b) s fun t => t.core c.val = returned l (Fetched x
    (s.core c.val)) ∧ CoreOnly s t c.val) ∧
  (∀ (c : Fin 5) (h : Hdr) (x : Xl) (d a b : BitVec 5) (v : Nat × Bool × Nat), Lone s c.val h x → CanEnter s c.val
    vTRAP v → Ends (.trap c h d a b) s fun t => Trapped s t c.val vTRAP b.toNat v) ∧
  (∀ (c : Fin 5) (h : Hdr) (x : Xl) (d a b : BitVec 5), Lone s c.val h x → (s.core c.val).pcc.perm pSYS = true → c.val
    < 4 → d = 0 → b.toNat ≤ 3 → NoTlbi s c.val → Ends (.tlbi c h d a b) s fun t => t.core c.val = moved (withoutTlb
    (tlbiOf c.val (s.core c.val) a b) (Fetched x (s.core c.val))) ∧ (∀ i : Fin 4, i.val ≠ c.val → t.core i.val =
    { s.core i.val with tlbq := [tlbiOf c.val (s.core c.val) a b] }) ∧ t.core 4 = s.core 4 ∧ t.fld (fXVn_TLBICNT
    c.val) = satInc 32 (s.fld (fXVn_TLBICNT c.val)) ∧ Regs s t [(fEPn_BUNDLES c.val).key, (fXVn_TLBICNT c.val).key] ∧
    NoEvents s t ∧ Kept s { t with cores := s.cores }) ∧
  (∀ (c : Fin 5) (h : Hdr) (x : Xl) (d a b : BitVec 5), Lone s c.val h x → (s.core c.val).pcc.perm pSYS = true →
    NoTlbi s c.val → Ends (.tlbsync c h d a b) s fun t => Issued s t c.val x 0 id) ∧
  (∀ (c : Fin 5) (h : Hdr) (x : Xl) (d a b : BitVec 5), Lone s c.val h x → c.val < 4 → a.toNat < 16 → Open ((s.core
    c.val).rdC a.toNat) → ((s.core c.val).rdC a.toNat).perm pLOAD = true → ((s.core c.val).rdC a.toNat).base ≤
    (windowAt c.val (b.toNat % 4)) → (windowAt c.val (b.toNat % 4)) + 0x10000 ≤ ((s.core c.val).rdC a.toNat).base +
    ((s.core c.val).rdC a.toNat).len → Ends (.setbank c h d a b) s fun t => Issued s t c.val x 0 (bankOpen ((s.core
    c.val).rdC a.toNat) (b.toNat % 4))) ∧
  (∀ (c : Fin 5) (h : Hdr) (x : Xl) (d a b : BitVec 5), Lone s c.val h x → Ends (.getbank c h d a b) s fun t => Issued
    s t c.val x 1 fun y => putW d.toNat y.bank y)

/-- R392, R396: the commands of TLBCMD, and an invalidation that another core issued. -/
def Obligations.TranslationBuffer : Prop := ∀ (s : State), 
  (∀ (c : Fin 4), SysRuns s c.val → Ends (.tlbWrite c) s fun t => t.core c.val = tlbWritten (s.core c.val).tlbIdx
    (s.core c.val) ∧ CoreAlone s t c.val) ∧
  (∀ (c : Fin 4), SysRuns s c.val → Ends (.wrnext c) s fun t => t.core c.val = tlbNextWritten (s.core c.val) ∧
    CoreAlone s t c.val) ∧
  (∀ (c : Fin 4), SysRuns s c.val → Ends (.tlbRead c) s fun t => t.core c.val = tlbStaged (s.core c.val) ∧ CoreAlone s
    t c.val) ∧
  (∀ (c : Fin 4), SysRuns s c.val → Ends (.tlbProbe c) s fun t => t.core c.val = tlbProbed (s.core c.val) ∧ CoreAlone
    s t c.val) ∧
  (∀ (c : Fin 4) (q : Tlbi) (r : List Tlbi), coreFrozen s c.val = false → (s.core c.val).tlbq = q :: r → (∀ i : Fin 5,
    (s.core i.val).fq = [] ∧ Idle s i.val) → Ends (.tlbiApply c) s fun t => t.core c.val =
    { withoutTlb q (s.core c.val) with tlbq := r } ∧ (∀ i : Fin 5, i.val ≠ c.val → t.core i.val = s.core i.val) ∧
    t.fld (fXVn_TLBICNT c.val) = satInc 32 (s.fld (fXVn_TLBICNT c.val)) ∧ Regs s t [(fXVn_TLBICNT c.val).key] ∧
    NoEvents s t ∧ Kept s { t with cores := s.cores })

/-- R297, R327: the scalar floating-point groups with their delays and flags; FDIV and FSQRT start, and FDIV_COMPLETE writes. -/
def Obligations.ScalarFloat : Prop := ∀ (s : State), 
  (∀ (c : Fin 5) (h : Hdr) (x : Xl) (dbl : Bool) (fn : FpFn) (d a b : BitVec 6), Lone s c.val h x → fn ≠ .fdiv → Ends
    (fpInstr dbl fn c h d a b) s fun t => Issued s t c.val x (if dbl then 6 else 4) fun y => fpPut d.toNat (fpSpec dbl
    fn (rndOf y) (fpOp dbl y a) (fpOp dbl y b) (fpOp dbl y d)) y) ∧
  (∀ (c : Fin 5) (h : Hdr) (x : Xl) (dbl : Bool) (d a b : BitVec 6), Lone s c.val h x → Ends (fpInstr dbl .fdiv c h d
    a b) s fun t => Issued s t c.val x 0 (fpStart ⟨d.toNat, dbl, false, fpOp dbl (s.core c.val) a, fpOp dbl (s.core
    c.val) b, rndOf (s.core c.val), fcycOf s + (if dbl then 28 else 14), 0, false, 0xFFFFFFFFFFFFFFFF⟩)) ∧
  (∀ (c : Fin 5) (h : Hdr) (x : Xl) (dbl : Bool) (d a : BitVec 6), Lone s c.val h x → Ends (funInstr (if dbl then
    .sqrtD else .sqrtS) c h d a) s fun t => Issued s t c.val x 0 (fpStart ⟨d.toNat, dbl, true, fpOp dbl (s.core c.val)
    a, 0, rndOf (s.core c.val), fcycOf s + (if dbl then 28 else 14), 0, false, 0xFFFFFFFFFFFFFFFF⟩)) ∧
  (∀ (c : Fin 5) (k : PFdiv), frozen s (corePg c.val) = false → Idle s c.val → (s.core c.val).pend = [] → (s.core
    c.val).fdivs = [k] → k.mask = 0xFFFFFFFFFFFFFFFF → Ends (.fdivComplete c) s fun t => t.core c.val =
    { raised (if k.mute then 0 else fpStat k.res.fl) (putF k.i k.res.bits (s.core c.val)) with fdivs := [] } ∧
    CoreAlone s t c.val) ∧
  (∀ (c : Fin 5) (h : Hdr) (x : Xl) (fn : FunFn) (d a : BitVec 6), Lone s c.val h x → fn ≠ .sqrtS → fn ≠ .sqrtD → Ends
    (funInstr fn c h d a) s fun t => Issued s t c.val x (funLate fn) fun y => fpPut d.toNat (funSpec fn (rndOf y)
    (y.rdF a.toNat)) y) ∧
  (∀ (c : Fin 5) (h : Hdr) (x : Xl) (dbl : Bool) (p : Fin 8) (a b : BitVec 6) (cond : BitVec 3), Lone s c.val h x →
    Ends (.fcmp c h (BitVec.ofNat 6 (p.val + if dbl then 32 else 0)) a b cond) s fun t => Issued s t c.val x 2 fun y
    => raised (fpStat (fCmpV cond.toNat (fDecode (fpFmt dbl) (fpOp dbl y a)) (fDecode (fpFmt dbl) (fpOp dbl y b))).2)
    (putP p.val (allLanes (fCmpV cond.toNat (fDecode (fpFmt dbl) (fpOp dbl y a)) (fDecode (fpFmt dbl) (fpOp dbl y
    b))).1) y)) ∧
  (∀ (c : Fin 5) (h : Hdr) (x : Xl) (fn : XferFn) (d a : BitVec 6), Lone s c.val h x → outOfF fn = true → d.toNat < 32
    → EndsXfer fn c h d a s fun t => Issued s t c.val x 4 fun y => raised (fpStat (toW fn (y.rdF a.toNat)).fl) (putW
    d.toNat (BitVec.ofNat 32 (toW fn (y.rdF a.toNat)).bits) y)) ∧
  (∀ (c : Fin 5) (h : Hdr) (x : Xl) (fn : XferFn) (d a : BitVec 6), Lone s c.val h x → outOfF fn = false → a.toNat <
    32 → EndsXfer fn c h d a s fun t => Issued s t c.val x 4 fun y => fpPut d.toNat (fromW fn (rndOf y) (y.rdW
    a.toNat)) y)

/-- R319, R320, R321, R327: the vector groups lane by lane; an inactive lane keeps its destination and raises no flag. -/
def Obligations.ShortVectors : Prop := ∀ (s : State), 
  (∀ (c : Fin 5) (h : Hdr) (x : Xl) (ty : QTy) (fn : QFn) (d a b : BitVec 5), AtBundle s c.val none x → Alone h →
    NoEnd (s.core c.val) → c.val < 4 → elem fn = true → EndsQ fn c h ty d a b s fun t => Issued s t c.val x (qLate ty
    fn) (elemDone ty fn h d.toNat a.toNat b.toNat)) ∧
  (∀ (c : Fin 5) (h : Hdr) (x : Xl) (ty : QTy) (cond : BitVec 3) (d a b : BitVec 5), AtBundle s c.val none x → Alone h
    → NoEnd (s.core c.val) → c.val < 4 → Ends (.qcmp c h ty cond d a b) s fun t => Issued s t c.val x 2 (cmpDone ty
    cond.toNat h (d.toNat % 8) a.toNat b.toNat)) ∧
  (∀ (c : Fin 5) (h : Hdr) (x : Xl) (ty : QTy) (d a b : BitVec 5), AtBundle s c.val none x → Alone h → NoEnd (s.core
    c.val) → c.val < 4 → ty ≠ .qf → Ends (.qsum c h ty d a b) s fun t => Issued s t c.val x 2 (sumDone ty h d.toNat
    a.toNat)) ∧
  (∀ (c : Fin 5) (h : Hdr) (x : Xl) (d a b : BitVec 5), AtBundle s c.val none x → Alone h → NoEnd (s.core c.val) →
    c.val < 4 → Ends (.qsum c h .qf d a b) s fun t => Issued s t c.val x 6 (sumFDone h d.toNat a.toNat)) ∧
  (∀ (c : Fin 5) (h : Hdr) (x : Xl) (d a b : BitVec 5), AtBundle s c.val none x → Alone h → NoEnd (s.core c.val) →
    c.val < 4 → Ends (.qmov c h d a b) s fun t => Issued s t c.val x 1 fun y => putLanes .qf (fun i => (active y
    h).getLsbD i) (fun i => qElem .qf (y.rdQ a.toNat) i) d.toNat y) ∧
  (∀ (c : Fin 5) (h : Hdr) (x : Xl) (d a b : BitVec 5), AtBundle s c.val none x → Alone h → NoEnd (s.core c.val) →
    c.val < 4 → Ends (.qsplat c h d a b) s fun t => Issued s t c.val x 1 fun y => putLanes .qf (fun i => (active y
    h).getLsbD i) (fun _ => (y.rdW a.toNat).toNat) d.toNat y) ∧
  (∀ (c : Fin 5) (h : Hdr) (x : Xl) (d a b : BitVec 5), AtBundle s c.val none x → Alone h → NoEnd (s.core c.val) →
    c.val < 4 → Ends (.qbcast c h d a b) s fun t => Issued s t c.val x 1 fun y => putLanes .qf (fun i => (active y
    h).getLsbD i) (fun _ => qElem .qf (y.rdQ a.toNat) (b.toNat % 4)) d.toNat y) ∧
  (∀ (c : Fin 5) (h : Hdr) (x : Xl) (d a b : BitVec 5), Lone s c.val h x → c.val < 4 → Ends (.qins c h d a b) s fun t
    => Issued s t c.val x 1 fun y => putLanes .qf (fun i => i == b.toNat % 4) (fun _ => (y.rdW a.toNat).toNat) d.toNat
    y) ∧
  (∀ (c : Fin 5) (h : Hdr) (x : Xl) (d a b : BitVec 5), Lone s c.val h x → c.val < 4 → Ends (.qext c h d a b) s fun t
    => Issued s t c.val x 1 fun y => putW d.toNat (BitVec.ofNat 32 (qElem .qf (y.rdQ a.toNat) (b.toNat % 4))) y) ∧
  (∀ (c : Fin 5) (h : Hdr) (x : Xl) (d : BitVec 6) (w a : BitVec 5) (ty : BitVec 2) (mx : Bool), AtBundle s c.val none
    x → Alone h → NoEnd (s.core c.val) → c.val < 4 → w.toNat % 2 = 0 → ty ≠ 3 → Ends (.qsrch c h d w a ty mx) s fun t
    => Issued s t c.val x 4 (searchDone (ty == 0) mx h d.toNat w.toNat a.toNat))

/-- R333, R339, R350, R355, R356, R365, R366: line fills, the flushes of EPn_CTRL, CNTCLR, the recognition of an interrupt, and the
end of the budget of an NI handler. -/
def Obligations.CoreEvents : Prop := ∀ (s : State), 
  (∀ (c : Fin 5) (line : BitVec 26) (k : Nat) (kind : Fin 3), frozen s (corePg c.val) = false → (s.core c.val).loads =
    [] → lineRegion c.val (64 * line.toNat) = true → salSize ≤ 64 * line.toNat → (s.core c.val).fills = [⟨line.toNat,
    k, true⟩] → Ends (.lineFillComplete c line kind []) s fun t => t.core c.val = filled s c.val line.toNat (s.core
    c.val) ∧ (∀ i : Fin 5, i.val ≠ c.val → t.core i.val = s.core i.val) ∧ NoEvents s t ∧ Kept s
    { t with cores := s.cores } ∧ Regs s t []) ∧
  (∀ (c : Fin 5) (line : BitVec 26), frozen s (corePg c.val) = false → (s.core c.val).loads = [] → lineRegion c.val
    (64 * line.toNat) = true → salSize ≤ 64 * line.toNat → (s.core c.val).fills = [] → Ends (.lineFillComplete c line
    0 []) s fun t => t.core c.val = filled s c.val line.toNat (s.core c.val) ∧ (∀ i : Fin 5, i.val ≠ c.val → t.core
    i.val = s.core i.val) ∧ NoEvents s t ∧ Kept s { t with cores := s.cores } ∧ Regs s t (if c.val < 4 then
    [(fEPn_DFILLS c.val).key] else []) ∧ (c.val < 4 → t.fld (fEPn_DFILLS c.val) = satInc 32 (s.fld (fEPn_DFILLS
    c.val)))) ∧
  (∀ (c : Fin 5) (line : BitVec 26), frozen s (corePg c.val) = false → (s.core c.val).loads = [] → lineRegion c.val
    (64 * line.toNat) = true → salSize ≤ 64 * line.toNat → (s.core c.val).fills = [] → Ends (.lineFillComplete c line
    2 []) s fun t => t.core c.val = filled s c.val line.toNat (s.core c.val) ∧ (∀ i : Fin 5, i.val ≠ c.val → t.core
    i.val = s.core i.val) ∧ NoEvents s t ∧ Kept s { t with cores := s.cores } ∧ Regs s t (if c.val < 4 then
    [(fEPn_WPFILLS c.val).key, (fEPn_DFILLS c.val).key] else []) ∧ (c.val < 4 → t.fld (fEPn_DFILLS c.val) = satInc 32
    (s.fld (fEPn_DFILLS c.val)) ∧ t.fld (fEPn_WPFILLS c.val) = satInc 32 (s.fld (fEPn_WPFILLS c.val)))) ∧
  (∀ (c : Fin 4) (line : BitVec 26), frozen s (corePg c.val) = false → (s.core c.val).fills = [] → (s.core
    c.val).loads = [] → s.flag (fEPn_CTRL_PFEN c.val) = false → Ends (.lineFillComplete (c.castLE (by decide)) line 1
    []) s fun t => t.core c.val = (s.core c.val) ∧ CoreAlone s t c.val) ∧
  (∀ (c : Fin 4) (line : BitVec 26), frozen s (corePg c.val) = false → (s.core c.val).loads = [] → lineRegion c.val
    (64 * line.toNat) = true → salSize ≤ 64 * line.toNat → (s.core c.val).fills = [] → s.flag (fEPn_CTRL_PFEN c.val) =
    true → 0 < line.toNat → lineRegion c.val (64 * (line.toNat - 1)) = true → ((s.core c.val).lines.any fun l =>
    l.line + 1 == line.toNat) = true → ((s.core c.val).lines.any fun l => l.line == line.toNat) = false → Ends
    (.lineFillComplete (c.castLE (by decide)) line 1 []) s fun t => t.core c.val = filled s c.val line.toNat (s.core
    c.val) ∧ (∀ i : Fin 5, i.val ≠ c.val → t.core i.val = s.core i.val) ∧ NoEvents s t ∧ Kept s
    { t with cores := s.cores } ∧ Regs s t [(fEPn_PFILLS c.val).key] ∧ t.fld (fEPn_PFILLS c.val) = satInc 32 (s.fld
    (fEPn_PFILLS c.val))) ∧
  (∀ (c : Fin 4), Ends (.lbflush c) s fun t => t.core c.val = { (s.core c.val) with asm := [], fq := [], lines := [] }
    ∧ CoreAlone s t c.val) ∧
  (∀ (c : Fin 4), Ends (.bpflush c) s fun t => t.core c.val =
    { (s.core c.val) with btb := [], ras := [], rasTop := 0, rasDepth := 0, rasWrong := none } ∧ CoreAlone s t c.val) ∧
  (∀ (c : Fin 4), Ends (.cntclr c) s fun t => t.fld (fEPn_BUNDLES c.val) = 0 ∧ t.fld (fEPn_FSTALL c.val) = 0 ∧ t.fld
    (fEPn_DSTALL c.val) = 0 ∧ t.fld (fEPn_MISPRED c.val) = 0 ∧ t.fld (fEPn_BTBHIT c.val) = 0 ∧ t.fld (fEPn_DFILLS
    c.val) = 0 ∧ t.fld (fEPn_PFILLS c.val) = 0 ∧ t.fld (fEPn_WPFILLS c.val) = 0 ∧ t.fld (fEPn_RASMISS c.val) = 0 ∧
    t.fld (fEPn_LBSTALL c.val) = 0 ∧ t.fld (fEXn_COUNT c.val) = 0 ∧ t.fld (fEXn_MAXSPAN c.val) = 0 ∧ t.fld (fEXn_CUTS
    c.val) = 0 ∧ Regs s t [(fEPn_BUNDLES c.val).key, (fEPn_FSTALL c.val).key, (fEPn_DSTALL c.val).key, (fEPn_MISPRED
    c.val).key, (fEPn_BTBHIT c.val).key, (fEPn_DFILLS c.val).key, (fEPn_PFILLS c.val).key, (fEPn_WPFILLS c.val).key,
    (fEPn_RASMISS c.val).key, (fEPn_LBSTALL c.val).key, (fEXn_COUNT c.val).key, (fEXn_MAXSPAN c.val).key, (fEXn_CUTS
    c.val).key] ∧ NoEvents s t ∧ Kept s t) ∧
  (∀ (c : Fin 5) (j : Fin 16) (v : Nat × Bool × Nat), frozen s (corePg c.val) = false → coreRunning s c.val = true →
    coreFrozen s c.val = false → clocked s c.val = true → (s.core c.val).halted = false → (s.core c.val).ni = false →
    (s.core c.val).asm = [] → (s.core c.val).fq = [] → (s.core c.val).pend = [] → (s.core c.val).loads = [] → (s.core
    c.val).fdivs = [] → (s.core c.val).xfer = none → (s.core c.val).redo = none → (s.core c.val).rep = none → (s.core
    c.val).group = [] → (s.core c.val).wait = none → natBit (s.core c.val).ipend 16 = false → pendingInt (s.core
    c.val) = some j.val → CanEnter s c.val (0x30 + j.val) v → Ends (.interruptRecognition c) s fun t => t.core c.val =
    interrupted (s.core c.val) ⟨(s.core c.val).pc, (s.core c.val).status, 0, 0⟩ v j.val ∧ (∀ i : Fin 5, i.val ≠ c.val
    → t.core i.val = s.core i.val) ∧ Regs s t (if c.val < 4 then [(fEXn_COUNT c.val).key, (fEXn_MAXSPAN c.val).key]
    else []) ∧ NoEvents s t ∧ Kept s { t with cores := s.cores }) ∧
  (∀ (c : Fin 5) (j : Fin 16) (g at' : Nat) (v : Nat × Bool × Nat), frozen s (corePg c.val) = false → coreRunning s
    c.val = true → coreFrozen s c.val = false → clocked s c.val = true → (s.core c.val).halted = false → (s.core
    c.val).ni = false → (s.core c.val).asm = [] → (s.core c.val).fq = [] → (s.core c.val).pend = [] → (s.core
    c.val).loads = [] → (s.core c.val).fdivs = [] → (s.core c.val).xfer = none → (s.core c.val).redo = none → (s.core
    c.val).rep = none → (s.core c.val).group = [] → (s.core c.val).wait = some (.angle g at') → natBit (s.core
    c.val).ipend 16 = false → pendingInt (s.core c.val) = some j.val → CanEnter s c.val (0x30 + j.val) v → Ends
    (.interruptRecognition c) s fun t => t.core c.val = interrupted (s.core c.val) ⟨at', (s.core c.val).status |||
    0x200000, 0, 0⟩ v j.val ∧ CoreAlone s { t with regs := s.regs } c.val) ∧
  (∀ (c : Fin 5), frozen s (corePg c.val) = false → pendingInt (s.core c.val) = none ∨ (s.core c.val).halted = true ∨
    coreRunning s c.val = false ∨ unbroken s c.val = true → (s.core c.val).rep = none → Ends (.interruptRecognition c)
    s fun t => t = s) ∧
  (∀ (c : Fin 4), frozen s (corePg c.val) = false → coreRunning s c.val = true → coreFrozen s c.val = false → clocked
    s c.val = true → (s.core c.val).halted = false → (s.core c.val).asm = [] → (s.core c.val).fq = [] → (s.core
    c.val).pend = [] → (s.core c.val).xfer = none → (s.core c.val).redo = none → (s.core c.val).rep = none → (s.core
    c.val).wait = none → (s.core c.val).group = [] → (s.core c.val).df = none → (s.core c.val).ni = true → min (s.core
    c.val).nib (spanLimit s c.val) ≤ (s.core c.val).span → Ends (.niOverrun (c.castLE (by decide))) s fun t => t.core
    c.val = doubleFaulted (s.core c.val) 3 0 ∧ pendBit t (exPg c.val) 0 = true ∧ (∀ i : Fin 5, i.val ≠ c.val → t.core
    i.val = s.core i.val) ∧ RegsEv s t [(fEXn_COUNT c.val).key, (fEXn_MAXSPAN c.val).key] [exPg c.val] ∧ t.mram =
    s.mram ∧ t.lmem = s.lmem ∧ t.sal = s.sal) ∧
  (∀ (c : Fin 5), frozen s (corePg c.val) = false → (s.core c.val).ni = false → Ends (.niOverrun c) s fun t => t = s)

/-- R73, R74, R84, R86, R575: a write of CRY_OP starts an operation on the staged words, and while one runs is ignored with
CFG_REFUSED; in a freeze it starts none (log 126). At OP_DONE a context number above 10,239, a state outside the From
column and a failed admission test are refused with their code; PROBE, READ and SETCORE answer. -/
def Obligations.CrystallizerOperations : Prop := ∀ (s : State), 
  (∀ (n : BitVec 14), s.flag fCRY_STAT_OPBUSY = true → Ends (.admitCtx n) s fun t => t.flag fCRY_STAT_CFGREFUSED =
    true ∧ t.flag fCRY_STAT_OPBUSY = true ∧ t.fld fCRY_STAT_NADMIT = s.fld fCRY_STAT_NADMIT ∧ Regs s t [rCRY_STAT] ∧
    NoEvents s t ∧ Kept s t) ∧
  (∀ (n : BitVec 14), s.flag fCRY_STAT_OPBUSY = false → frozen s cryPg = false → Ends (.admitCtx n) s fun t =>
    t.cry.op = some ⟨1, n.toNat, stagedDesc s⟩ ∧ t.flag fCRY_STAT_OPBUSY = true ∧ t.flag fCRY_STAT_CFGREFUSED = s.flag
    fCRY_STAT_CFGREFUSED ∧ t.flag fCRY_STAT_TTVALID = s.flag fCRY_STAT_TTVALID ∧ t.fld fCRY_STAT_NADMIT = s.fld
    fCRY_STAT_NADMIT ∧ Regs s t [rCRY_STAT] ∧ NoEvents s t ∧ Kept s { t with cry := { t.cry with op := s.cry.op } }) ∧
  (∀ (n : BitVec 14), s.flag fCRY_STAT_OPBUSY = false → frozen s cryPg = true → Ends (.admitCtx n) s fun t => t = s) ∧
  (∀ (n : BitVec 14), s.flag fCRY_STAT_OPBUSY = true → Ends (.probe n) s fun t => t.flag fCRY_STAT_CFGREFUSED = true ∧
    t.flag fCRY_STAT_OPBUSY = true ∧ t.fld fCRY_STAT_NADMIT = s.fld fCRY_STAT_NADMIT ∧ Regs s t [rCRY_STAT] ∧ NoEvents
    s t ∧ Kept s t) ∧
  (∀ (n : BitVec 14), s.flag fCRY_STAT_OPBUSY = false → frozen s cryPg = false → Ends (.probe n) s fun t => t.cry.op =
    some ⟨2, n.toNat, stagedDesc s⟩ ∧ t.flag fCRY_STAT_OPBUSY = true ∧ t.flag fCRY_STAT_CFGREFUSED = s.flag
    fCRY_STAT_CFGREFUSED ∧ t.flag fCRY_STAT_TTVALID = s.flag fCRY_STAT_TTVALID ∧ t.fld fCRY_STAT_NADMIT = s.fld
    fCRY_STAT_NADMIT ∧ Regs s t [rCRY_STAT] ∧ NoEvents s t ∧ Kept s { t with cry := { t.cry with op := s.cry.op } }) ∧
  (∀ (n : BitVec 14), s.flag fCRY_STAT_OPBUSY = false → frozen s cryPg = true → Ends (.probe n) s fun t => t = s) ∧
  (∀ (n : BitVec 14), s.flag fCRY_STAT_OPBUSY = true → Ends (.remove n) s fun t => t.flag fCRY_STAT_CFGREFUSED = true
    ∧ t.flag fCRY_STAT_OPBUSY = true ∧ t.fld fCRY_STAT_NADMIT = s.fld fCRY_STAT_NADMIT ∧ Regs s t [rCRY_STAT] ∧
    NoEvents s t ∧ Kept s t) ∧
  (∀ (n : BitVec 14), s.flag fCRY_STAT_OPBUSY = false → frozen s cryPg = false → Ends (.remove n) s fun t => t.cry.op
    = some ⟨3, n.toNat, stagedDesc s⟩ ∧ t.flag fCRY_STAT_OPBUSY = true ∧ t.flag fCRY_STAT_CFGREFUSED = s.flag
    fCRY_STAT_CFGREFUSED ∧ t.flag fCRY_STAT_TTVALID = s.flag fCRY_STAT_TTVALID ∧ t.fld fCRY_STAT_NADMIT = s.fld
    fCRY_STAT_NADMIT ∧ Regs s t [rCRY_STAT] ∧ NoEvents s t ∧ Kept s { t with cry := { t.cry with op := s.cry.op } }) ∧
  (∀ (n : BitVec 14), s.flag fCRY_STAT_OPBUSY = false → frozen s cryPg = true → Ends (.remove n) s fun t => t = s) ∧
  (∀ (n : BitVec 14), s.flag fCRY_STAT_OPBUSY = true → Ends (.replace n) s fun t => t.flag fCRY_STAT_CFGREFUSED = true
    ∧ t.flag fCRY_STAT_OPBUSY = true ∧ t.fld fCRY_STAT_NADMIT = s.fld fCRY_STAT_NADMIT ∧ Regs s t [rCRY_STAT] ∧
    NoEvents s t ∧ Kept s t) ∧
  (∀ (n : BitVec 14), s.flag fCRY_STAT_OPBUSY = false → frozen s cryPg = false → Ends (.replace n) s fun t => t.cry.op
    = some ⟨4, n.toNat, stagedDesc s⟩ ∧ t.flag fCRY_STAT_OPBUSY = true ∧ t.flag fCRY_STAT_CFGREFUSED = s.flag
    fCRY_STAT_CFGREFUSED ∧ t.flag fCRY_STAT_TTVALID = s.flag fCRY_STAT_TTVALID ∧ t.fld fCRY_STAT_NADMIT = s.fld
    fCRY_STAT_NADMIT ∧ Regs s t [rCRY_STAT] ∧ NoEvents s t ∧ Kept s { t with cry := { t.cry with op := s.cry.op } }) ∧
  (∀ (n : BitVec 14), s.flag fCRY_STAT_OPBUSY = false → frozen s cryPg = true → Ends (.replace n) s fun t => t = s) ∧
  (∀ (n : BitVec 14), s.flag fCRY_STAT_OPBUSY = true → Ends (.suspend n) s fun t => t.flag fCRY_STAT_CFGREFUSED = true
    ∧ t.flag fCRY_STAT_OPBUSY = true ∧ t.fld fCRY_STAT_NADMIT = s.fld fCRY_STAT_NADMIT ∧ Regs s t [rCRY_STAT] ∧
    NoEvents s t ∧ Kept s t) ∧
  (∀ (n : BitVec 14), s.flag fCRY_STAT_OPBUSY = false → frozen s cryPg = false → Ends (.suspend n) s fun t => t.cry.op
    = some ⟨5, n.toNat, stagedDesc s⟩ ∧ t.flag fCRY_STAT_OPBUSY = true ∧ t.flag fCRY_STAT_CFGREFUSED = s.flag
    fCRY_STAT_CFGREFUSED ∧ t.flag fCRY_STAT_TTVALID = s.flag fCRY_STAT_TTVALID ∧ t.fld fCRY_STAT_NADMIT = s.fld
    fCRY_STAT_NADMIT ∧ Regs s t [rCRY_STAT] ∧ NoEvents s t ∧ Kept s { t with cry := { t.cry with op := s.cry.op } }) ∧
  (∀ (n : BitVec 14), s.flag fCRY_STAT_OPBUSY = false → frozen s cryPg = true → Ends (.suspend n) s fun t => t = s) ∧
  (∀ (n : BitVec 14), s.flag fCRY_STAT_OPBUSY = true → Ends (.resume n) s fun t => t.flag fCRY_STAT_CFGREFUSED = true
    ∧ t.flag fCRY_STAT_OPBUSY = true ∧ t.fld fCRY_STAT_NADMIT = s.fld fCRY_STAT_NADMIT ∧ Regs s t [rCRY_STAT] ∧
    NoEvents s t ∧ Kept s t) ∧
  (∀ (n : BitVec 14), s.flag fCRY_STAT_OPBUSY = false → frozen s cryPg = false → Ends (.resume n) s fun t => t.cry.op
    = some ⟨6, n.toNat, stagedDesc s⟩ ∧ t.flag fCRY_STAT_OPBUSY = true ∧ t.flag fCRY_STAT_CFGREFUSED = s.flag
    fCRY_STAT_CFGREFUSED ∧ t.flag fCRY_STAT_TTVALID = s.flag fCRY_STAT_TTVALID ∧ t.fld fCRY_STAT_NADMIT = s.fld
    fCRY_STAT_NADMIT ∧ Regs s t [rCRY_STAT] ∧ NoEvents s t ∧ Kept s { t with cry := { t.cry with op := s.cry.op } }) ∧
  (∀ (n : BitVec 14), s.flag fCRY_STAT_OPBUSY = false → frozen s cryPg = true → Ends (.resume n) s fun t => t = s) ∧
  (∀ (n : BitVec 14), s.flag fCRY_STAT_OPBUSY = true → Ends (.read n) s fun t => t.flag fCRY_STAT_CFGREFUSED = true ∧
    t.flag fCRY_STAT_OPBUSY = true ∧ t.fld fCRY_STAT_NADMIT = s.fld fCRY_STAT_NADMIT ∧ Regs s t [rCRY_STAT] ∧ NoEvents
    s t ∧ Kept s t) ∧
  (∀ (n : BitVec 14), s.flag fCRY_STAT_OPBUSY = false → frozen s cryPg = false → Ends (.read n) s fun t => t.cry.op =
    some ⟨7, n.toNat, stagedDesc s⟩ ∧ t.flag fCRY_STAT_OPBUSY = true ∧ t.flag fCRY_STAT_CFGREFUSED = s.flag
    fCRY_STAT_CFGREFUSED ∧ t.flag fCRY_STAT_TTVALID = s.flag fCRY_STAT_TTVALID ∧ t.fld fCRY_STAT_NADMIT = s.fld
    fCRY_STAT_NADMIT ∧ Regs s t [rCRY_STAT] ∧ NoEvents s t ∧ Kept s { t with cry := { t.cry with op := s.cry.op } }) ∧
  (∀ (n : BitVec 14), s.flag fCRY_STAT_OPBUSY = false → frozen s cryPg = true → Ends (.read n) s fun t => t = s) ∧
  (s.flag fCRY_STAT_OPBUSY = true → Ends (.setcore) s fun t => t.flag fCRY_STAT_CFGREFUSED = true ∧ t.flag
    fCRY_STAT_OPBUSY = true ∧ t.fld fCRY_STAT_NADMIT = s.fld fCRY_STAT_NADMIT ∧ Regs s t [rCRY_STAT] ∧ NoEvents s t ∧
    Kept s t) ∧
  (s.flag fCRY_STAT_OPBUSY = false → frozen s cryPg = false → Ends (.setcore) s fun t => t.cry.op = some ⟨8, 0,
    stagedDesc s⟩ ∧ t.flag fCRY_STAT_OPBUSY = true ∧ t.flag fCRY_STAT_CFGREFUSED = s.flag fCRY_STAT_CFGREFUSED ∧
    t.flag fCRY_STAT_TTVALID = s.flag fCRY_STAT_TTVALID ∧ t.fld fCRY_STAT_NADMIT = s.fld fCRY_STAT_NADMIT ∧ Regs s t
    [rCRY_STAT] ∧ NoEvents s t ∧ Kept s { t with cry := { t.cry with op := s.cry.op } }) ∧
  (s.flag fCRY_STAT_OPBUSY = false → frozen s cryPg = true → Ends (.setcore) s fun t => t = s) ∧
  (s.cry.op = none ∨ frozen s cryPg = true → Ends (.opDone) s fun t => t = s) ∧
  (∀ (n : Nat) (d : List Word), frozen s cryPg = false → s.cry.op = some ⟨1, n, d⟩ → 10239 < n → Ends (.opDone) s fun
    t => Answered s t 1 0xF 0 0 (tickNo s) [] [cryPg] ∧ NoContext s t) ∧
  (∀ (n : Nat) (d : List Word), frozen s cryPg = false → s.cry.op = some ⟨2, n, d⟩ → 10239 < n → Ends (.opDone) s fun
    t => Answered s t 1 0xF 0 0 (tickNo s) [] [cryPg] ∧ NoContext s t) ∧
  (∀ (n : Nat) (d : List Word), frozen s cryPg = false → s.cry.op = some ⟨3, n, d⟩ → 10239 < n → Ends (.opDone) s fun
    t => Answered s t 1 0xF 0 0 (tickNo s) [] [cryPg] ∧ NoContext s t) ∧
  (∀ (n : Nat) (d : List Word), frozen s cryPg = false → s.cry.op = some ⟨4, n, d⟩ → 10239 < n → Ends (.opDone) s fun
    t => Answered s t 1 0xF 0 0 (tickNo s) [] [cryPg] ∧ NoContext s t) ∧
  (∀ (n : Nat) (d : List Word), frozen s cryPg = false → s.cry.op = some ⟨5, n, d⟩ → 10239 < n → Ends (.opDone) s fun
    t => Answered s t 1 0xF 0 0 (tickNo s) [] [cryPg] ∧ NoContext s t) ∧
  (∀ (n : Nat) (d : List Word), frozen s cryPg = false → s.cry.op = some ⟨6, n, d⟩ → 10239 < n → Ends (.opDone) s fun
    t => Answered s t 1 0xF 0 0 (tickNo s) [] [cryPg] ∧ NoContext s t) ∧
  (∀ (n : Nat) (d : List Word), frozen s cryPg = false → s.cry.op = some ⟨7, n, d⟩ → 10239 < n → Ends (.opDone) s fun
    t => Answered s t 1 0xF 0 0 (tickNo s) [] [cryPg] ∧ NoContext s t) ∧
  (∀ (n : Nat) (d : List Word), frozen s cryPg = false → s.cry.op = some ⟨1, n, d⟩ → n ≤ 10239 → (ctxOf s n).st ≠
    .free → Ends (.opDone) s fun t => Answered s t 2 0xF 0 (ctxOf s n).st.code (tickNo s) [] [cryPg] ∧ NoContext s t) ∧
  (∀ (n : Nat) (d : List Word), frozen s cryPg = false → s.cry.op = some ⟨3, n, d⟩ → n ≤ 10239 → (ctxOf s n).st ≠
    .admitted ∧ (ctxOf s n).st ≠ .suspended → Ends (.opDone) s fun t => Answered s t 2 0xF 0 (ctxOf s n).st.code
    (tickNo s) [] [cryPg] ∧ NoContext s t) ∧
  (∀ (n : Nat) (d : List Word), frozen s cryPg = false → s.cry.op = some ⟨4, n, d⟩ → n ≤ 10239 → (ctxOf s n).st ≠
    .admitted ∧ (ctxOf s n).st ≠ .suspended → Ends (.opDone) s fun t => Answered s t 2 0xF 0 (ctxOf s n).st.code
    (tickNo s) [] [cryPg] ∧ NoContext s t) ∧
  (∀ (n : Nat) (d : List Word), frozen s cryPg = false → s.cry.op = some ⟨5, n, d⟩ → n ≤ 10239 → (ctxOf s n).st ≠
    .admitted → Ends (.opDone) s fun t => Answered s t 2 0xF 0 (ctxOf s n).st.code (tickNo s) [] [cryPg] ∧ NoContext s
    t) ∧
  (∀ (n : Nat) (d : List Word), frozen s cryPg = false → s.cry.op = some ⟨6, n, d⟩ → n ≤ 10239 → (ctxOf s n).st ≠
    .suspended → Ends (.opDone) s fun t => Answered s t 2 0xF 0 (ctxOf s n).st.code (tickNo s) [] [cryPg] ∧ NoContext
    s t) ∧
  (∀ (n : Nat) (d : List Word) (f : Fail), frozen s cryPg = false → s.cry.op = some ⟨1, n, d⟩ → n ≤ 10239 → (ctxOf s
    n).st = .free → Clean s → admission s n d = some f → Ends (.opDone) s fun t => Answered s t f.code f.res f.slot
    f.detail (tickNo s) [] [cryPg] ∧ NoContext s t) ∧
  (∀ (n : Nat) (d : List Word) (f : Fail), frozen s cryPg = false → s.cry.op = some ⟨2, n, d⟩ → n ≤ 10239 → Clean s →
    admission s n d = some f → Ends (.opDone) s fun t => Answered s t f.code f.res f.slot f.detail (tickNo s) []
    [cryPg] ∧ NoContext s t) ∧
  (∀ (n : Nat) (d : List Word) (f : Fail), frozen s cryPg = false → s.cry.op = some ⟨4, n, d⟩ → n ≤ 10239 → (ctxOf s
    n).st = .admitted ∨ (ctxOf s n).st = .suspended → Clean s → admission s n d = some f → Ends (.opDone) s fun t =>
    Answered s t f.code f.res f.slot f.detail (tickNo s) [] [cryPg] ∧ NoContext s t) ∧
  (∀ (n : Nat) (d : List Word), frozen s cryPg = false → s.cry.op = some ⟨2, n, d⟩ → n ≤ 10239 → Clean s → admission s
    n d = none → Ends (.opDone) s fun t => Answered s t 0 0xF 0 (s.fld fCRY_STAT_NADMIT) (tickNo s) [] [cryPg] ∧
    NoContext s t) ∧
  (∀ (n : Nat) (d : List Word), frozen s cryPg = false → s.cry.op = some ⟨7, n, d⟩ → n ≤ 10239 → (ctxOf s n).st ≠
    .free → Ends (.opDone) s fun t => Staged t (ctxOf s n).desc ∧ t.free = s.free ∧ Answered s t 0 0xF 0 (ctxOf s
    n).st.code (tickNo s) stageRegs [cryPg] ∧ NoContext s t) ∧
  (∀ (n : Nat) (d : List Word), frozen s cryPg = false → s.cry.op = some ⟨7, n, d⟩ → n ≤ 10239 → (ctxOf s n).st =
    .free → Ends (.opDone) s fun t => t.free = s.free + 16 ∧ Answered s t 0 0xF 0 0 (tickNo s) stageRegs [cryPg] ∧
    NoContext s t) ∧
  (∀ (n m : Nat) (d : List Word) (x : Ctx), frozen s cryPg = false → s.cry.op = some ⟨8, n, d⟩ → s.cry.ctx.find? (fun
    e => e.2.st != .free) = some (m, x) → Ends (.opDone) s fun t => Answered s t 2 0xF 0 (x.st.code + m * 2 ^ 16)
    (tickNo s) [] [cryPg] ∧ NoContext s t) ∧
  (∀ (n : Nat) (d : List Word), frozen s cryPg = false → s.cry.op = some ⟨8, n, d⟩ → s.cry.ctx.find? (fun e => e.2.st
    != .free) = none → (bitsGet (dW d 0) 0 10) ≤ 512 → (bitsGet (dW d 0) 10 10) ≤ 512 → (bitsGet (dW d 0) 20 10) ≤ 512
    → (bitsGet (dW d 1) 0 10) ≤ 512 → Ends (.opDone) s fun t => nilim t 0 = (bitsGet (dW d 0) 0 10) ∧ nilim t 1 =
    (bitsGet (dW d 0) 10 10) ∧ nilim t 2 = (bitsGet (dW d 0) 20 10) ∧ nilim t 3 = (bitsGet (dW d 1) 0 10) ∧ Answered s
    t 0 0xF 0 (s.fld fCRY_STAT_NADMIT) (tickNo s) [rCRY_NILIM01, rCRY_NILIM23] [cryPg] ∧ NoContext s t) ∧
  (∀ (n : Nat) (d : List Word), frozen s cryPg = false → s.cry.op = some ⟨8, n, d⟩ → s.cry.ctx.find? (fun e => e.2.st
    != .free) = none → 512 < (bitsGet (dW d 0) 0 10) → Ends (.opDone) s fun t => Answered s t 0x10 0xF 0 0 (tickNo s)
    [] [cryPg] ∧ NoContext s t) ∧
  (∀ (n : Nat) (d : List Word), frozen s cryPg = false → s.cry.op = some ⟨8, n, d⟩ → s.cry.ctx.find? (fun e => e.2.st
    != .free) = none → (bitsGet (dW d 0) 0 10) ≤ 512 → 512 < (bitsGet (dW d 0) 10 10) → Ends (.opDone) s fun t =>
    Answered s t 0x10 0xF 0 1 (tickNo s) [] [cryPg] ∧ NoContext s t) ∧
  (∀ (n : Nat) (d : List Word), frozen s cryPg = false → s.cry.op = some ⟨8, n, d⟩ → s.cry.ctx.find? (fun e => e.2.st
    != .free) = none → (bitsGet (dW d 0) 0 10) ≤ 512 → (bitsGet (dW d 0) 10 10) ≤ 512 → 512 < (bitsGet (dW d 0) 20 10)
    → Ends (.opDone) s fun t => Answered s t 0x10 0xF 0 2 (tickNo s) [] [cryPg] ∧ NoContext s t) ∧
  (∀ (n : Nat) (d : List Word), frozen s cryPg = false → s.cry.op = some ⟨8, n, d⟩ → s.cry.ctx.find? (fun e => e.2.st
    != .free) = none → (bitsGet (dW d 0) 0 10) ≤ 512 → (bitsGet (dW d 0) 10 10) ≤ 512 → (bitsGet (dW d 0) 20 10) ≤ 512
    → 512 < (bitsGet (dW d 1) 0 10) → Ends (.opDone) s fun t => Answered s t 0x10 0xF 0 4 (tickNo s) [] [cryPg] ∧
    NoContext s t)

/-- R83, R84: a candidate that the admission test passes fits in every slot in which it launches, beside all contexts whose load
is counted, although only the slots up to the longest period are tested. -/
def Obligations.AdmittedFits : Prop := ∀ (s : State) (n : Nat) (d : List Word), admission s n d = none →
  ∀ slot, xFalls d slot = true →
  (∀ p, p < 4 → slotPan s (together s n d slot) p ≤ cryA s) ∧ (∀ c, c < 4 → slotCore s (together s n d slot) c ≤ cryA s) ∧
  slotS (together s n d slot) ≤ cryScap s


/-- R84, R86, R575: the first failure is reported: reserved bits, PLOG, OFFSET and the other fields with BAD_DESC, then
TABLE_INVALID, and a field owned by another context with FIELD_TAKEN only after the checks before it. -/
def Obligations.AdmissionOrder : Prop := ∀ (s : State) (n : Nat) (d : List Word),
  (∀ b, reservedByte d = some b → admission s n d = some ⟨0x10, 0xF, 0, b⟩) ∧
  (reservedByte d = none → 12 < xPlog d → admission s n d = some ⟨0x10, 0xF, 0, 0⟩) ∧
  (reservedByte d = none → xPlog d ≤ 12 → 2 ^ xPlog d ≤ xOffset d → admission s n d = some ⟨0x10, 0xF, 0, 0⟩) ∧
  (reservedByte d = none → xPlog d ≤ 12 → xOffset d < 2 ^ xPlog d → xNord d ≠ 0 → xOlist d % 32 ≠ 0 →
    admission s n d = some ⟨0x10, 0xF, 0, 8⟩) ∧
  (descFail d = none → s.flag fCRY_STAT_TTVALID = false → admission s n d = some ⟨0x03, 0xF, 0, 0⟩) ∧
  (∀ m e, (ctxOf s m).st ≠ .free → m ≠ n → (m, ctxOf s m) ∈ s.cry.ctx → (ctxOf s m).loadDesc = e → xMeets d e = true →
    admission s n d ≠ none)


/-- R73 to R76, R267: an accepted ADMIT, REMOVE, REPLACE, SUSPEND and RESUME gives the context its new state at completion,
effective in the tick that CRY_EFFECT names. -/
def Obligations.OperationDone : Prop := ∀ (s : State), 
  (∀ (n : Nat) (d : List Word), frozen s cryPg = false → s.cry.op = some ⟨1, n, d⟩ → n ≤ 10239 → (ctxOf s n).st =
    .free → Clean s → admission s n d = none → Ends (.opDone) s fun t => Answered s t 0 0xF 0 (t.fld fCRY_STAT_NADMIT)
    (xNext d (tickNo s + 2)) [] [cryPg] ∧ ctxOf t n =
    { Ctx.free with st := .admitted, desc := d, cost := listCost s d, first := some (tickNo s + 2) } ∧ OtherCtx s t n
    ∧ OnlyCtx s t ∧ Counted t ∧ Kept s { t with cry := s.cry, sal := { t.sal with peak := s.sal.peak } }) ∧
  (∀ (n : Nat) (d : List Word), frozen s cryPg = false → s.cry.op = some ⟨3, n, d⟩ → n ≤ 10239 → (ctxOf s n).st =
    .admitted ∨ (ctxOf s n).st = .suspended → Ends (.opDone) s fun t => Answered s t 0 0xF 0 (s.fld fCRY_STAT_NADMIT)
    (xNext (ctxOf s n).loadDesc (tickNo s + cryG s)) [] [cryPg] ∧ ctxOf t n =
    { ctxOf s n with st := .draining, fromSusp := (ctxOf s n).st == .suspended, last := some (xNext (ctxOf s n).loadDesc (tickNo s + cryG s)) }
    ∧ OtherCtx s t n ∧ OnlyCtx s t ∧ Counted t ∧ Kept s
    { t with cry := s.cry, sal := { t.sal with peak := s.sal.peak } }) ∧
  (∀ (n : Nat) (d : List Word), frozen s cryPg = false → s.cry.op = some ⟨4, n, d⟩ → n ≤ 10239 → (ctxOf s n).st =
    .admitted ∨ (ctxOf s n).st = .suspended → Clean s → admission s n d = none → Ends (.opDone) s fun t => Answered s
    t 0 0xF 0 (s.fld fCRY_STAT_NADMIT) (tickNo s + 2) [] [cryPg] ∧ ctxOf t n =
    { ctxOf s n with next := (ctxOf s n).next ++ [⟨tickNo s + 2, d, listCost s d⟩] } ∧ OtherCtx s t n ∧ OnlyCtx s t ∧
    Counted t ∧ Kept s { t with cry := s.cry, sal := { t.sal with peak := s.sal.peak } }) ∧
  (∀ (n : Nat) (d : List Word), frozen s cryPg = false → s.cry.op = some ⟨5, n, d⟩ → n ≤ 10239 → (ctxOf s n).st =
    .admitted → Ends (.opDone) s fun t => Answered s t 0 0xF 0 (s.fld fCRY_STAT_NADMIT) (tickNo s + 2) [] [cryPg,
    rkPg] ∧ t.rk.holds = s.rk.holds ++ [heldBy 2 n ((ctxOf s n).descAt (tickNo s + 3)) (tickNo s + 3) none] ∧ pendBit
    t cryPg 2 = true ∧ pendBit t rkPg 4 = true ∧ ctxOf t n =
    { ctxOf s n with st := .suspended, stop := some (tickNo s + 2), cause := 0 } ∧ OtherCtx s t n ∧ OnlyCtx s t ∧
    Counted t ∧ Kept s
    { t with cry := s.cry, sal := { t.sal with peak := s.sal.peak }, rk := { t.rk with holds := s.rk.holds } }) ∧
  (∀ (n : Nat) (d : List Word), frozen s cryPg = false → s.cry.op = some ⟨6, n, d⟩ → n ≤ 10239 → (ctxOf s n).st =
    .suspended → Ends (.opDone) s fun t => Answered s t 0 0xF 0 (s.fld fCRY_STAT_NADMIT) (xNext (ctxOf s n).loadDesc
    (tickNo s + 2)) [] [cryPg] ∧ t.rk.holds = s.rk.holds.map (released n (tickNo s + 1)) ∧ ctxOf t n =
    { ctxOf s n with st := .admitted, first := some (tickNo s + 2), stop := none, misses := 0, cause := 0, eccErr := false }
    ∧ OtherCtx s t n ∧ OnlyCtx s t ∧ Counted t ∧ Kept s
    { t with cry := s.cry, sal := { t.sal with peak := s.sal.peak }, rk := { t.rk with holds := s.rk.holds } })

/-- R24, R87, R89, R92, R93, R95, R101, R574: at a launch point the Crystallizer writes the mailboxes of the due contexts,
starts their launches and signals early tasks; work of an earlier launch that still runs is abandoned with DEADLINE_MISS;
without a recognised boundary there is no launch point, and a disabled Crystallizer launches nothing. -/
def Obligations.LaunchPoints : Prop := ∀ (s : State), 
  (∀ (bad : List (BitVec 14)), tbEn s = false ∨ s.tb.ticks = false → Ends (.launchPoint bad) s fun t => t = s) ∧
  (Fresh s → pageEn s cryPg = false ∨ (dueList s (tickNo s) = [] ∧ shadowList s (tickNo s) = []) → Ends (.launchPoint
    []) s fun t => Pumped t fun u => Pointed s u [] [] ∧ u.cry.ctx = s.cry.ctx ∧ u.cores = s.cores ∧ Regs s u [] ∧
    Kept s { u with cry := s.cry, tb := s.tb, tj := s.tj }) ∧
  (tbEn s = true → s.tb.ticks = true → frozen s cryPg = false → s.cry.launches = [] → jOrder s = [] → (∀ c : Fin 4,
    (s.core c.val).group = [] ∧ (s.core c.val).waiting = [] ∧ coreStopped s c.val = false) → pageEn s cryPg = false ∨
    (dueList s (tickNo s) = [] ∧ shadowList s (tickNo s) = []) → Ends (.launchPoint []) s fun t => Pumped t fun u =>
    AllYield s u ∧ { u.pan with pans := s.pan.pans } = s.pan ∧ Pointed s u [] [] ∧ u.cry.ctx = s.cry.ctx ∧ u.cores =
    s.cores ∧ Regs s u [] ∧ Kept s { u with cry := s.cry, tb := s.tb, tj := s.tj, pan := s.pan }) ∧
  (∀ (n : Nat) (d : List Word), Fresh s → pageEn s cryPg = true → dueList s (tickNo s) = [(n, d)] → shadowList s
    (tickNo s) = [] → xTask d = true → xClasses d = 0 → xLate d = true → Ends (.launchPoint []) s fun t => Pumped t
    fun u => Pointed s u [started s n d] [(tickNo s, n)] ∧ u.cry.ctx = s.cry.ctx ∧ u.cores = s.cores ∧ Regs s u [] ∧
    Kept s { u with cry := s.cry, tb := s.tb, tj := s.tj, cores := s.cores }) ∧
  (∀ (n : Nat) (d : List Word), Fresh s → pageEn s cryPg = true → dueList s (tickNo s) = [(n, d)] → shadowList s
    (tickNo s) = [] → xTask d = true → xClasses d = 0 → xLate d = false → Ends (.launchPoint []) s fun t => Pumped t
    fun u => Pointed s u [started s n d] [(tickNo s, n)] ∧ u.cry.ctx = s.cry.ctx ∧ Signalled s u (xCore d) [⟨n, tickNo
    s, 0, xBudget d, 0, xBeats d, salCap s (xTcap d)⟩] ∧ Regs s u [] ∧ Kept s
    { u with cry := s.cry, tb := s.tb, tj := s.tj, cores := s.cores }) ∧
  (∀ (n : Nat) (d : List Word), Fresh s → pageEn s cryPg = true → dueList s (tickNo s) = [(n, d)] → shadowList s
    (tickNo s) = [] → xTask d = false → xClasses d ≠ 0 → xNord d = 0 → xMbox d + 64 ≤ salSize → (ctxOf s n).last =
    none → rmapFree s (xMbox d) → Ends (.launchPoint []) s fun t => Pumped t fun u => Pointed s u [] [(tickNo s, n)] ∧
    ctxOf u n = fresh (ctxOf s n) ∧ OtherCtx s u n ∧ MailWritten s u (xMbox d) (emptyMail s) ∧ u.cores = s.cores ∧
    Regs s u [rCRY_STAT] ∧ Kept s { u with cry := s.cry, tb := s.tb, tj := s.tj, sal := s.sal, rk := s.rk } ∧
    { u.rk with holds := s.rk.holds } = s.rk) ∧
  (∀ (l : Launch), tbEn s = true → s.tb.ticks = true → frozen s cryPg = false → pageEn s cryPg = false ∨ (dueList s
    (tickNo s) = [] ∧ shadowList s (tickNo s) = []) → s.cry.launches = [l] → l.tick < tickNo s → l.dead = false →
    l.live ≠ 0 → l.taskLeft = false → NoneQueued s → jOrder s = [] → (ctxOf s l.ctx).st = .admitted → xOvr ((ctxOf s
    l.ctx).descAt l.tick) = 0 → (ctxOf s l.ctx).last = none → (∀ p : Fin 4, (panOf s p.val).run = none) → (∀ c : Fin
    4, (s.core c.val).group = [] ∧ (s.core c.val).waiting = [] ∧ coreStopped s c.val = false) → Ends (.launchPoint [])
    s fun t => Pumped t fun u => u.cry.launches = [ended l] ∧ ctxOf u l.ctx = missed (ctxOf s l.ctx) ∧ OtherCtx s u
    l.ctx ∧ u.fld fCRY_MISSED = satInc fCRY_MISSED.width (s.fld fCRY_MISSED) ∧ pendBit u cryPg 1 = true ∧ pendBit u
    cryPg 3 = true ∧ pendBit u rkPg 4 = true ∧ u.rk.holds = s.rk.holds ++ [heldBy 1 l.ctx l.desc (l.tick + 1) (some
    (l.tick + 2))] ∧ u.cores = s.cores ∧ RegsEv s u [rCRY_STAT, fCRY_MISSED.key] [cryPg, rkPg] ∧ Kept s
    { u with cry := s.cry, tb := s.tb, rk := { u.rk with holds := s.rk.holds } }) ∧
  (∀ (n : BitVec 14) (d : List Word), Fresh s → pageEn s cryPg = true → n.toNat ≤ 10239 → (ctxOf s n.toNat).st =
    .admitted → dueList s (tickNo s) = [(n.toNat, d)] → shadowList s (tickNo s) = [] → Ends (.launchPoint [n]) s fun t
    => Pumped t fun u => ctxOf u n.toNat = uncorrectable (ctxOf s n.toNat) ∧ OtherCtx s u n.toNat ∧ u.cry.launches =
    [] ∧ u.tj = s.tj ∧ u.tb = { s.tb with ticks := false } ∧ u.rk.holds = s.rk.holds ++ [heldBy 2 n.toNat ((ctxOf s
    n.toNat).descAt (tickNo s + 1)) (tickNo s + 1) none] ∧ pendBit u cryPg 4 = true ∧ pendBit u rkPg 4 = true ∧
    u.cores = s.cores ∧ RegsEv s u [rCRY_STAT] [cryPg, rkPg] ∧ Kept s
    { u with cry := s.cry, tb := s.tb, rk := { u.rk with holds := s.rk.holds } })

/-- R76, R87, R90, R93, R96, R99, R100, R443, R574: the pan-done point signals late tasks once; a task past its budget is stopped
and its launch abandoned with OVERRUN; a DRAINING context is released; a command is accepted by timeout; a command past its
bound is settled as EXPIRED. -/
def Obligations.SlotEnds : Prop := ∀ (s : State), 
  (¬ (panIdle s = true ∧ s.cry.lateDone = false ∧ frozen s cryPg = false) → Ends (.panDonePoint) s fun t => Pumped t
    fun u => u = s) ∧
  (panIdle s = true ∧ s.cry.lateDone = false ∧ frozen s cryPg = false → (∀ c : Fin 4, tasksOf s s.cry.lastTick c.val
    true = []) → Ends (.panDonePoint) s fun t => Pumped t fun u => u.cry = { s.cry with lateDone := true } ∧ Regs s u
    [] ∧ NoEvents s u ∧ Kept s { u with cry := s.cry }) ∧
  (∀ (c : Fin 4) (ts : List Task), panIdle s = true ∧ s.cry.lateDone = false ∧ frozen s cryPg = false → (tasksOf s
    s.cry.lastTick c.val true) = ts → ts ≠ [] → (∀ m : Fin 4, m ≠ c → tasksOf s s.cry.lastTick m.val true = []) → Ends
    (.panDonePoint) s fun t => Pumped t fun u => u.cry = { s.cry with lateDone := true } ∧ Signalled s u c.val ts ∧
    Regs s u [] ∧ NoEvents s u ∧ Kept s { u with cry := s.cry, cores := s.cores }) ∧
  (∀ (c : Fin 5), frozen s (corePg c.val) = true ∨ withinBudget (s.core c.val) → Ends (.taskBudgetExpiry c) s fun t =>
    t = s) ∧
  (∀ (c : Fin 5) (k : Task) (l : Launch), frozen s (corePg c.val) = false → (s.core c.val).group = [k] → k.budget <
    k.used → (s.core c.val).overran = none → s.cry.launches = [l] → l.ctx = k.ctx → l.tick = k.tick → l.dead = false →
    l.live ≠ 0 → NoneQueued s → (ctxOf s l.ctx).st = .admitted → xOvr ((ctxOf s l.ctx).descAt l.tick) = 0 → (ctxOf s
    l.ctx).last = none → Ends (.taskBudgetExpiry c) s fun t => Stopped s t c.val k l) ∧
  (∀ (n : BitVec 14), mayRelease s n.toNat = false ∨ frozen s cryPg = true ∨ pageEn s cryPg = false → Ends
    (.contextRelease n) s fun t => t = s) ∧
  (∀ (n : BitVec 14) (u : Nat), frozen s cryPg = false → pageEn s cryPg = true → (ctxOf s n.toNat).st = .draining →
    (ctxOf s n.toNat).fromSusp = false → (ctxOf s n.toNat).last = some u → u < tickNo s → s.cry.launches.all (fun l =>
    l.ctx != n.toNat) = true → Ends (.contextRelease n) s fun t => ctxOf t n.toNat = Ctx.free ∧ OtherCtx s t n.toNat ∧
    Counted t ∧ t.rk.holds = s.rk.holds.map (released n.toNat (tickNo s + 1)) ∧ Regs s t [rCRY_STAT] ∧ NoEvents s t ∧
    Kept s { t with cry := s.cry, rk := { t.rk with holds := s.rk.holds } }) ∧
  (∀ (n : BitVec 14) (u : Nat), frozen s cryPg = false → pageEn s cryPg = true → (ctxOf s n.toNat).st = .draining →
    (ctxOf s n.toNat).fromSusp = true → (ctxOf s n.toNat).last = some u → u ≤ tickNo s → Ends (.contextRelease n) s
    fun t => ctxOf t n.toNat = Ctx.free ∧ OtherCtx s t n.toNat ∧ Counted t ∧ t.rk.holds = s.rk.holds.map (released
    n.toNat (tickNo s + 1)) ∧ Regs s t [rCRY_STAT] ∧ NoEvents s t ∧ Kept s
    { t with cry := s.cry, rk := { t.rk with holds := s.rk.holds } }) ∧
  (∀ (e : BitVec 14), jPending s e.toNat = false ∨ jDue s e.toNat = false ∨ frozen s 0x110 = true ∨ s.flag
    fPWR_STAT_BELOW = true → Ends (.commandExpire e) s fun t => t = s) ∧
  (∀ (e : BitVec 14), jPending s e.toNat = true → (jInfo s e.toNat).byDl = false → (jInfo s e.toNat).bound ≠ 0 →
    (jInfo s e.toNat).bound < (jInfo s e.toNat).age → frozen s 0x110 = false → s.flag fPWR_STAT_BELOW = false → Ends
    (.commandExpire e) s fun t => Settled s t e.toNat 3 s.tb.tickAngle (tickNo s) ∧ t.fld fTJ_EXPIRED = satInc
    fTJ_EXPIRED.width (s.fld fTJ_EXPIRED) ∧ Regs s t [fTJ_EXPIRED.key] ∧ t.evPay = s.evPay ∧ t.evHeld = s.evHeld ∧
    t.evIn = s.evIn ∧ t.ev = s.ev ∧ Kept s { t with tj := s.tj }) ∧
  (∀ (e : BitVec 14), frozen s slPg = true ∨ slUp s = true ∨ jPending s e.toNat = false ∨ (jInfo s e.toNat).byDl =
    true ∨ fcycOf s < (jInfo s e.toNat).fcyc + 12288 → Ends (.acceptByTimeout e) s fun t => t = s) ∧
  (∀ (e : BitVec 14), frozen s slPg = false → slUp s = false → jPending s e.toNat = true → (jInfo s e.toNat).byDl =
    false → (jInfo s e.toNat).fcyc + 12288 ≤ fcycOf s → Ends (.acceptByTimeout e) s fun t => jInfo t e.toNat =
    noticedAt (jInfo s e.toNat) ∧ OtherInfo s t e.toNat ∧ Regs s t [] ∧ NoEvents s t ∧ Kept s { t with tj := s.tj } ∧
    { t.tj with info := s.tj.info } = s.tj)

/-- R101, R102, R209: CRY_TTDATAi are staged, and word 3 stores the entry that CRY_TTIDX selects and clears TT_VALID; COMMIT
validates the table and computes PRE; both are refused while a context is admitted, and so is clearing EN. -/
def Obligations.TimingTable : Prop := ∀ (s : State), 
  (∀ (j : Fin 4) (v : Word), nadmit s ≠ 0 → Ends (.ttDataWrite j v) s fun t => t.flag fCRY_STAT_CFGREFUSED = true ∧
    Regs s t [rCRY_STAT] ∧ t.fld fCRY_STAT_NADMIT = s.fld fCRY_STAT_NADMIT ∧ NoEvents s t ∧ Kept s t) ∧
  (∀ (j : Fin 4) (v : Word), nadmit s = 0 → j ≠ 3 → Ends (.ttDataWrite j v) s fun t => storeGet 0 t.cry.ttStage j.val
    = v ∧ (∀ m : Fin 4, m ≠ j → storeGet 0 t.cry.ttStage m.val = storeGet 0 s.cry.ttStage m.val) ∧ Regs s t [] ∧
    NoEvents s t ∧ Kept s { t with cry := s.cry } ∧ { t.cry with ttStage := s.cry.ttStage } = s.cry) ∧
  (∀ (v : Word), nadmit s = 0 → Ends (.ttDataWrite 3 v) s fun t => ttOf t (s.fld fCRY_TTIDX) = BitVec.ofNat 128
    ((storeGet 0 s.cry.ttStage 0).toNat + (storeGet 0 s.cry.ttStage 1).toNat * 2 ^ 32 + (storeGet 0 s.cry.ttStage
    2).toNat * 2 ^ 64 + v.toNat * 2 ^ 96) ∧ OtherTt s t (s.fld fCRY_TTIDX) ∧ t.flag fCRY_STAT_TTVALID = false ∧ Regs s
    t [rCRY_STAT] ∧ NoEvents s t ∧ Kept s { t with cry := s.cry } ∧
    { t.cry with ttStage := s.cry.ttStage, tt := s.cry.tt } = s.cry) ∧
  (nadmit s ≠ 0 → Ends (.ttCommit) s fun t => t.flag fCRY_STAT_CFGREFUSED = true ∧ Regs s t [rCRY_STAT] ∧ t.fld
    fCRY_STAT_NADMIT = s.fld fCRY_STAT_NADMIT ∧ NoEvents s t ∧ Kept s t) ∧
  (nadmit s = 0 → ttValid (ttOf s) 0 = true ∧ ttWord (ttOf s) 0 2 = (s.rd rPCS_ID).toNat ∧ s.cry.tt.all (fun e =>
    ttEntryOk s e.1) = true → s.cry.tt.all (fun e => decide (stripTime (ttOf s) e.1 < 65536)) = true → Ends
    (.ttCommit) s fun t => t.flag fCRY_STAT_TTVALID = true ∧ t.flag fPCS_STAT_TTREJECT = false ∧ (s.cry.tt.all fun e
    => e.1 == 0 || !ttValid (ttOf s) e.1 || decide (stripTime (ttOf s) e.1 ≤ t.fld fCRY_PANPRE)) = true ∧ Regs s t
    [rCRY_STAT, fCRY_PANPRE.key, fPCS_STAT_TTREJECT.key] ∧ NoEvents s t ∧ Kept s t) ∧
  (nadmit s = 0 → ¬ (ttValid (ttOf s) 0 = true ∧ ttWord (ttOf s) 0 2 = (s.rd rPCS_ID).toNat ∧ s.cry.tt.all (fun e =>
    ttEntryOk s e.1) = true) → Ends (.ttCommit) s fun t => t.flag fCRY_STAT_TTVALID = false ∧ t.flag
    fPCS_STAT_TTREJECT = true ∧ pendBit t 0x128 4 = true ∧ RegsEv s t [rCRY_STAT, fPCS_STAT_TTREJECT.key] [0x128] ∧
    Kept s t) ∧
  (locked s cryPg = false → pageEn s cryPg = true → nadmit s ≠ 0 → Ends (.cryEnableWrite false) s fun t => pageEn t
    cryPg = true ∧ t.flag fCRY_STAT_CFGREFUSED = true ∧ Regs s t [rCRY_STAT] ∧ t.fld fCRY_STAT_NADMIT = s.fld
    fCRY_STAT_NADMIT ∧ NoEvents s t ∧ Kept s t) ∧
  (∀ (on : Bool), locked s cryPg = false → on = true ∨ nadmit s = 0 ∨ pageEn s cryPg = false → Ends (.cryEnableWrite
    on) s fun t => pageEn t cryPg = on ∧ Regs s t [rPAGE_CTRL cryPg] ∧ NoEvents s t ∧ Kept s t) ∧
  (∀ (on : Bool), locked s cryPg = true → on ≠ pageEn s cryPg → Ends (.cryEnableWrite on) s fun t => pageEn t cryPg =
    pageEn s cryPg ∧ t.flag (fPAGE_STAT_REFUSED cryPg) = true ∧ Regs s t [rPAGE_STAT cryPg] ∧ NoEvents s t ∧ Kept s t)

/-- R110 to R113, R119, R122: a read returns its bytes, corrected where one bit of a byte is wrong, and counts in the bank; an
uncorrectable word returns nothing and posts UE; a write stores exactly its bytes and clears the tags of the granules it
touches, and a capability store of a core sets the tag. -/
def Obligations.SalternAccess : Prop := ∀ (s : State), 
  (∀ (port : Fin 83) (a : BitVec 25) (len : BitVec 7), a.toNat + len.toNat ≤ salSize → HasRoom s port.val → GoodBytes
    s a.toNat len.toNat → Ends (.salternReadRequest port a len [] [] []) s fun t => t.out = .readData port.val
    (salBytes s a.toNat len.toNat) :: s.out ∧ { t.sal with peak := s.sal.peak, inflight := s.sal.inflight } = s.sal ∧
    Requested s t port.val ∧ Regs s t [] ∧ NoEvents s t ∧ Kept s { t with sal := s.sal, out := s.out }) ∧
  (∀ (port : Fin 83) (a : BitVec 25) (len : BitVec 7) (k loc : Nat), a.toNat + len.toNat ≤ salSize → HasRoom s
    port.val → OneBad s a.toNat len.toNat k (.ce loc) → s.fld fSAL_CETHR = 0 ∨ satInc 16 (storeGet 0 s.sal.ceCnt
    (bankOf (a.toNat / 8))) < s.fld fSAL_CETHR ∨ storeGet false s.sal.cePosted (bankOf (a.toNat / 8)) = true → Ends
    (.salternReadRequest port a len [] [] []) s fun t => t.out = .readData port.val (salBytes s a.toNat len.toNat) ::
    s.out ∧ Requested s t port.val ∧ storeGet 0 t.sal.ceCnt (bankOf (a.toNat / 8)) = satInc 16 (storeGet 0 s.sal.ceCnt
    (bankOf (a.toNat / 8))) ∧ t.rd64 rSAL_CELOG = a.toNat / 8 + ((a.toNat + k) % 8 * 32 + loc % 32) * 2 ^ 56 ∧ t.flag
    fSAL_STAT_CESEEN = true ∧ t.sal.mem = s.sal.mem ∧ t.sal.err = s.sal.err ∧ t.sal.tag = s.sal.tag ∧ Regs s t
    [rSAL_CELOG, rSAL_CELOG + 1, rSAL_STAT] ∧ NoEvents s t ∧ Kept s { t with sal := s.sal, out := s.out }) ∧
  (∀ (port : Fin 83) (a : BitVec 25) (len : BitVec 7) (k loc : Nat), a.toNat + len.toNat ≤ salSize → HasRoom s
    port.val → OneBad s a.toNat len.toNat k (.ce loc) → s.fld fSAL_CETHR ≠ 0 → s.fld fSAL_CETHR ≤ satInc 16 (storeGet
    0 s.sal.ceCnt (bankOf (a.toNat / 8))) → storeGet false s.sal.cePosted (bankOf (a.toNat / 8)) = false → Ends
    (.salternReadRequest port a len [] [] []) s fun t => t.out = .readData port.val (salBytes s a.toNat len.toNat) ::
    s.out ∧ Requested s t port.val ∧ pendBit t 0x130 0 = true ∧ storeGet false t.sal.cePosted (bankOf (a.toNat / 8)) =
    true ∧ RegsEv s t [rSAL_CELOG, rSAL_CELOG + 1, rSAL_STAT] [0x130] ∧ Kept s { t with sal := s.sal, out := s.out }) ∧
  (∀ (port : Fin 83) (a : BitVec 25) (len : BitVec 7) (k : Nat), a.toNat + len.toNat ≤ salSize → HasRoom s port.val →
    OneBad s a.toNat len.toNat k .ue → Ends (.salternReadRequest port a len [] [] []) s fun t => Requested s t
    port.val ∧ t.out = s.out ∧ t.flag fSAL_STAT_UESEEN = true ∧ pendBit t 0x130 1 = true ∧ t.rd64 rSAL_UELOG = a.toNat
    / 8 + port.val * 2 ^ 40 + portRank port.val * 2 ^ 48 + 2 ^ ((a.toNat + k) % 8) * 2 ^ 56 ∧ t.sal.mem = s.sal.mem ∧
    RegsEv s t [rSAL_UELOG, rSAL_UELOG + 1, rSAL_STAT] [0x130] ∧ Kept s { t with sal := s.sal }) ∧
  (∀ (port : Fin 83) (a : BitVec 25) (len : BitVec 7) (b : BitVec 25) (loc : Fin 13), a.toNat + len.toNat ≤ salSize →
    HasRoom s port.val → len.toNat = 0 → Ends (.salternReadRequest port a len [] [(b, loc)] []) s fun t => salErr t
    b.toNat = worse (salErr s b.toNat) (upsetLoc loc.val) ∧ t.sal.mem = s.sal.mem ∧ t.sal.tag = s.sal.tag ∧ Regs s t
    [] ∧ NoEvents s t ∧ Kept s { t with sal := s.sal, out := s.out }) ∧
  (∀ (port : Fin 83) (a : BitVec 25) (len : BitVec 7) (g : BitVec 15), a.toNat + len.toNat ≤ salSize → HasRoom s
    port.val → len.toNat = 0 → Ends (.salternReadRequest port a len [] [] [g]) s fun t => (∀ i : Fin 64, salTag t (16
    * (64 * g.toNat + i.val)) = false) ∧ (∀ k : Fin 2097152, k.val / 64 ≠ g.toNat → salTag t (16 * k.val) = salTag s
    (16 * k.val)) ∧ t.sal.mem = s.sal.mem ∧ t.sal.err = s.sal.err ∧ Regs s t [] ∧ NoEvents s t ∧ Kept s
    { t with sal := s.sal, out := s.out }) ∧
  (∀ (port : Fin 83) (a : BitVec 25) (bs : List (Option Byte)) (cap : Bool), HasRoom s port.val → a.toNat + bs.length
    ≤ salSize → cap = false ∨ portRank port.val ≠ 4 ∨ a.toNat % 16 ≠ 0 ∨ bs.length ≠ 16 ∨ bs.all Option.isSome = false
    → Ends (.salternWriteRequest port a bs cap []) s fun t => salBytes t a.toNat bs.length = merged s a.toNat bs ∧
    SameBut s t a.toNat bs.length ∧ TagsBut s t a.toNat bs.length ∧ (∀ k ∈ List.range bs.length, (bs.getD k
    none).isSome → salTag t (a.toNat + k) = false ∧ salErr t (a.toNat + k) = .ok) ∧ Requested s t port.val ∧
    { t.sal with mem := s.sal.mem, err := s.sal.err, tag := s.sal.tag, tagUe := s.sal.tagUe, peak := s.sal.peak, inflight := s.sal.inflight }
    = s.sal ∧ Regs s t [] ∧ NoEvents s t ∧ Kept s { t with sal := s.sal }) ∧
  (∀ (port : Fin 83) (a : BitVec 25) (bytes : List Byte), HasRoom s port.val → portRank port.val = 4 → a.toNat % 16 =
    0 → bytes.length = 16 → Ends (.salternWriteRequest port a (bytes.map some) true []) s fun t => salBytes t a.toNat
    16 = bytes ∧ SameBut s t a.toNat 16 ∧ TagsBut s t a.toNat 16 ∧ salTag t a.toNat = true ∧ Requested s t port.val ∧
    { t.sal with mem := s.sal.mem, err := s.sal.err, tag := s.sal.tag, tagUe := s.sal.tagUe, peak := s.sal.peak, inflight := s.sal.inflight }
    = s.sal ∧ Regs s t [] ∧ NoEvents s t ∧ Kept s { t with sal := s.sal })

/-- R115, R116, R117, R130, R131: a remap copies the word to its spare and back, so that every byte reads as before; a second
remap while a copy runs, or of a word that has a spare, is refused; the fill writes zeros over its range when it ends, and
is refused while a context is admitted; CECLR clears one bank's counter. -/
def Obligations.SalternRepair : Prop := ∀ (s : State), 
  (∀ (j : Fin 16) (w : BitVec 22), lockHeld s 0x130 = false → s.flag fSAL_STAT_RMAPBUSY = false → rmapValid s j.val =
    false → (∀ m : Fin 16, m ≠ j → rmapValid s m.val = false ∨ rmapWord s m.val ≠ w.toNat) → GoodBytes s (8 * w.toNat)
    8 → Ends (.rmapSet j w) s fun t => rmapValid t j.val = true ∧ rmapWord t j.val = w.toNat ∧ natBit (t.rd
    (rSAL_RMAPi j.val)).toNat 30 = false ∧ t.flag fSAL_STAT_RMAPBUSY = true ∧ t.fld fSAL_STAT_RMAPUSED = ((List.range
    16).countP fun i => rmapValid t i) % 2 ^ fSAL_STAT_RMAPUSED.width ∧ SameBytes s t ∧ t.sal.tag = s.sal.tag ∧ Regs s
    t [rSAL_RMAPi j.val, rSAL_STAT] ∧ NoEvents s t ∧ Kept s { t with sal := s.sal }) ∧
  (∀ (j : Fin 16) (w : BitVec 22), lockHeld s 0x130 = false → s.flag fSAL_STAT_RMAPBUSY = false → rmapValid s j.val =
    false → (∀ m : Fin 16, m ≠ j → rmapValid s m.val = false ∨ rmapWord s m.val ≠ w.toNat) → salBad s (8 * w.toNat) 8
    = true → Ends (.rmapSet j w) s fun t => rmapValid t j.val = true ∧ rmapWord t j.val = w.toNat ∧ natBit (t.rd
    (rSAL_RMAPi j.val)).toNat 30 = true ∧ t.flag fSAL_STAT_RMAPBUSY = true ∧ salBytes t (8 * w.toNat) 8 =
    List.replicate 8 0 ∧ SameBut s t (8 * w.toNat) 8 ∧ t.flag fSAL_STAT_UESEEN = true ∧ pendBit t 0x130 1 = true ∧
    RegsEv s t [rSAL_RMAPi j.val, rSAL_STAT, rSAL_UELOG, rSAL_UELOG + 1] [0x130] ∧ Kept s { t with sal := s.sal }) ∧
  (∀ (j : Fin 16) (w : BitVec 22) (m : Fin 16), lockHeld s 0x130 = false → s.flag fSAL_STAT_RMAPBUSY = true ∨ (m ≠ j ∧
    rmapValid s m.val = true ∧ rmapWord s m.val = w.toNat) → Ends (.rmapSet j w) s fun t => pendBit t 0x130 4 = true ∧
    RegsEv s t [] [0x130] ∧ Kept s t) ∧
  (∀ (j : Fin 16) (w : BitVec 22), lockHeld s 0x130 = false → s.flag fSAL_STAT_RMAPBUSY = true → Ends (.rmapClear j w)
    s fun t => pendBit t 0x130 4 = true ∧ RegsEv s t [] [0x130] ∧ Kept s t) ∧
  (∀ (j : Fin 16) (w : BitVec 22), lockHeld s 0x130 = false → s.flag fSAL_STAT_RMAPBUSY = false → rmapValid s j.val =
    false → Ends (.rmapClear j w) s fun t => t.rd (rSAL_RMAPi j.val) = w.setWidth 32 ∧ SameBytes s t ∧ Regs s t
    [rSAL_RMAPi j.val] ∧ NoEvents s t ∧ Kept s t) ∧
  (∀ (j : Fin 16) (w : BitVec 22), lockHeld s 0x130 = false → s.flag fSAL_STAT_RMAPBUSY = false → rmapValid s j.val =
    true → RmapOnce s → Ends (.rmapClear j w) s fun t => rmapValid t j.val = false ∧ t.flag fSAL_STAT_RMAPBUSY = true
    ∧ t.fld fSAL_STAT_RMAPUSED = ((List.range 16).countP fun i => rmapValid t i) % 2 ^ fSAL_STAT_RMAPUSED.width ∧
    SameBytes s t ∧ t.sal.tag = s.sal.tag ∧ Regs s t [rSAL_RMAPi j.val, rSAL_STAT] ∧ NoEvents s t ∧ Kept s
    { t with sal := s.sal }) ∧
  (∀ (j : Fin 16) (w : BitVec 22), lockHeld s 0x130 = true → rmapLocked s j.val (2 ^ 31 + w.toNat) = true → Ends
    (.rmapSet j w) s fun t => t.flag (fPAGE_STAT_REFUSED 0x130) = true ∧ Regs s t [rPAGE_STAT 0x130] ∧ NoEvents s t ∧
    Kept s t) ∧
  (frozen s 0x130 = true ∨ s.flag fSAL_STAT_RMAPBUSY = false → Ends (.rmapDone) s fun t => t = s) ∧
  (frozen s 0x130 = false → s.flag fSAL_STAT_RMAPBUSY = true → Ends (.rmapDone) s fun t => t.flag fSAL_STAT_RMAPBUSY =
    false ∧ pendBit t 0x130 3 = true ∧ RegsEv s t [rSAL_STAT] [0x130] ∧ Kept s t) ∧
  (nadmit s ≠ 0 ∨ s.flag fSAL_STAT_FILLBUSY = true ∨ s.fld fSAL_FILL_LEN = 0 ∨ 524288 < s.fld fSAL_FILL_BASE + s.fld
    fSAL_FILL_LEN → Ends (.fill) s fun t => t.flag fSAL_STAT_CFGREFUSED = true ∧ Regs s t [rSAL_STAT] ∧ NoEvents s t ∧
    Kept s t) ∧
  (nadmit s = 0 → s.flag fSAL_STAT_FILLBUSY = false → s.fld fSAL_FILL_LEN ≠ 0 → s.fld fSAL_FILL_BASE + s.fld
    fSAL_FILL_LEN ≤ 524288 → Ends (.fill) s fun t => t.sal.fill = some ⟨s.fld fSAL_FILL_BASE, s.fld fSAL_FILL_LEN⟩ ∧
    t.flag fSAL_STAT_FILLBUSY = true ∧ { t.sal with fill := s.sal.fill } = s.sal ∧ Regs s t [rSAL_STAT] ∧ NoEvents s t
    ∧ Kept s { t with sal := s.sal }) ∧
  (frozen s 0x130 = true ∨ s.sal.fill = none → Ends (.fillDone) s fun t => t = s) ∧
  (∀ (f : Fill), frozen s 0x130 = false → s.sal.fill = some f → f.base + f.len ≤ 524288 → RmapOnce s → Ends
    (.fillDone) s fun t => Zeroed t (f.base * 64) (f.len * 64) ∧ SameBut s t (f.base * 64) (f.len * 64) ∧ TagsBut s t
    (f.base * 64) (f.len * 64) ∧ t.sal.fill = none ∧ t.flag fSAL_STAT_FILLBUSY = false ∧ pendBit t 0x130 5 = true ∧
    RegsEv s t [rSAL_STAT] [0x130] ∧ Kept s { t with sal := s.sal }) ∧
  (Ends (.ceclr) s fun t => storeGet 0 t.sal.ceCnt (s.fld fSAL_CESEL) = 0 ∧ storeGet false t.sal.cePosted (s.fld
    fSAL_CESEL) = false ∧ (∀ k ∈ List.range 512, k ≠ s.fld fSAL_CESEL → storeGet 0 t.sal.ceCnt k = storeGet 0
    s.sal.ceCnt k ∧ storeGet false t.sal.cePosted k = storeGet false s.sal.cePosted k) ∧
    { t.sal with ceCnt := s.sal.ceCnt, cePosted := s.sal.cePosted } = s.sal ∧ Regs s t [] ∧ NoEvents s t ∧ Kept s
    { t with sal := s.sal })

/-- R262, R264, R268 to R271: the enable of the Rake, the emergency input, the clearing of latches and of RK_MAXLAT, and the
swap of the banks. -/
def Obligations.RakeControl : Prop := ∀ (s : State), 
  (∀ (on : Bool), locked s rkPg = false → on = false → pageEn s rkPg = true → nadmit s ≠ 0 → Ends (.rakeEnableWrite
    on) s fun t => pageEn t rkPg = true ∧ t.flag fRK_STAT_CFGREFUSED = true ∧ pendBit t rkPg 8 = true ∧ RegsEv s t
    [rRK_STAT] [rkPg] ∧ Kept s t) ∧
  (∀ (on : Bool), locked s rkPg = false → on = true ∨ pageEn s rkPg = false ∨ nadmit s = 0 → Ends (.rakeEnableWrite
    on) s fun t => pageEn t rkPg = on ∧ Regs s t [rPAGE_CTRL rkPg] ∧ NoEvents s t ∧ Kept s t) ∧
  (∀ (on : Bool), locked s rkPg = true → on ≠ pageEn s rkPg → Ends (.rakeEnableWrite on) s fun t => pageEn t rkPg =
    pageEn s rkPg ∧ t.flag (fPAGE_STAT_REFUSED rkPg) = true ∧ Regs s t [rPAGE_STAT rkPg] ∧ NoEvents s t ∧ Kept s t) ∧
  (s.flag fRK_STAT_EMERG = true → Ends (.emstopFall) s fun t => t.flag fRK_STAT_EMPIN = true ∧ t.flag fRK_STAT_EMERG =
    true ∧ Regs s t [rRK_STAT] ∧ NoEvents s t ∧ Kept s t) ∧
  (s.flag fRK_STAT_EMERG = false → (∀ m : Fin 64, NotSent s m.val) → Ends (.emstopFall) s fun t => t.flag
    fRK_STAT_EMPIN = true ∧ t.flag fRK_STAT_EMERG = true ∧ pendBit t rkPg 2 = true ∧ RegsEv s t [rRK_STAT] [rkPg] ∧
    Kept s t ∧ AllZero t) ∧
  (∀ (n : Fin 64) (l : Nat) (bs : List Byte), OneFrame s n.val l bs → s.flag fRK_STAT_EMERG = false → Ends
    (.emstopFall) s fun t => t.out = [.cmdFrame n.val l (tickNo s) (zeroedFrom (tickNs s) bs)] ∧ (∀ i : Fin 8,
    storeGet 0 (t.port n.val).povr i.val = if tickNs s + 8 ≤ 596 + 24 * i.val then 0x5FFFF else storeGet 0 (s.port
    n.val).povr i.val) ∧ OtherPort s t n.val ∧ t.flag fRK_STAT_EMERG = true ∧ RegsEv s t [rRK_STAT] [rkPg] ∧ Kept s
    { t with out := s.out, bl := { t.bl with ports := s.bl.ports } }) ∧
  (Ends (.emstopRise) s fun t => t.flag fRK_STAT_EMPIN = false ∧ t.flag fRK_STAT_EMERG = s.flag fRK_STAT_EMERG ∧ Regs
    s t [rRK_STAT] ∧ NoEvents s t ∧ Kept s t) ∧
  (s.flag fRK_STAT_EMPIN = true → Ends (.eclr) s fun t => t.flag fRK_STAT_EMERG = s.flag fRK_STAT_EMERG ∧ t.flag
    fRK_STAT_CFGREFUSED = true ∧ pendBit t rkPg 8 = true ∧ RegsEv s t [rRK_STAT] [rkPg] ∧ Kept s t) ∧
  (s.flag fRK_STAT_EMPIN = false → s.flag fRK_STAT_EMERG = true → 596 < tickNs s + 8 ∨ (∀ m : Fin 64, NotSent s m.val)
    → Ends (.eclr) s fun t => t.flag fRK_STAT_EMERG = false ∧ pendBit t rkPg 3 = true ∧ RegsEv s t [rRK_STAT] [rkPg] ∧
    Kept s t) ∧
  (∀ (n : Fin 64) (l : Nat) (bs : List Byte), OneFrame s n.val l bs → s.flag fRK_STAT_EMPIN = false → s.flag
    fRK_STAT_EMERG = true → tickNs s + 8 ≤ 596 → Ends (.eclr) s fun t => t.flag fRK_STAT_EMERG = false ∧ pendBit t
    rkPg 3 = true ∧ (t.port n.val).blocks = ((List.range 8).map fun i => (frameBlock t n.val i ((s.port
    n.val).tUsed.getD i 0)).1) ∧ t.out = [.cmdFrame n.val l (tickNo s) (reblocked bs (t.port n.val).blocks)] ∧
    OtherPort s t n.val ∧ RegsEv s t [rRK_STAT] [rkPg] ∧ Kept s
    { t with out := s.out, bl := { t.bl with ports := s.bl.ports } }) ∧
  (s.flag fRK_STAT_EMPIN = false → s.flag fRK_STAT_EMERG = false → Ends (.eclr) s fun t => t = s) ∧
  (Ends (.unlatch) s fun t => t.rk.unlatch = s.rk.unlatch ++ [s.fld fRK_PSEL] ∧ { t.rk with unlatch := s.rk.unlatch }
    = s.rk ∧ Regs s t [] ∧ NoEvents s t ∧ Kept s { t with rk := s.rk }) ∧
  (Ends (.unlatchAll) s fun t => t.rk.unlatch = s.rk.unlatch ++ [512] ∧ { t.rk with unlatch := s.rk.unlatch } = s.rk ∧
    Regs s t [] ∧ NoEvents s t ∧ Kept s { t with rk := s.rk }) ∧
  (Ends (.maxclr) s fun t => t.fld fRK_MAXLAT = 0 ∧ t.rk.holds = s.rk.holds.filter (fun h => h.cause != 8) ∧
    { t.rk with holds := s.rk.holds } = s.rk ∧ Regs s t [fRK_MAXLAT.key] ∧ NoEvents s t ∧ Kept s
    { t with rk := s.rk }) ∧
  (s.flag fRK_STAT_SWAPPEND = true → Ends (.swap) s fun t => t.flag fRK_STAT_CFGREFUSED = true ∧ pendBit t rkPg 8 =
    true ∧ RegsEv s t [rRK_STAT] [rkPg] ∧ Kept s t) ∧
  (s.flag fRK_STAT_SWAPPEND = false → Ends (.swap) s fun t => t.flag fRK_STAT_SWAPPEND = true ∧ t.rk = requestedAt
    (fcycOf s) s.rk ∧ Regs s t [rRK_STAT] ∧ NoEvents s t ∧ Kept s { t with rk := s.rk }) ∧
  (frozen s rkPg = true ∨ s.flag fRK_STAT_SWAPPEND = false ∨ tbMoves s = false → Ends (.swapped) s fun t => t = s) ∧
  (∀ (w : State), frozen s rkPg = false → s.flag fRK_STAT_SWAPPEND = true → w = lastCclk s (nextTick s) → Steps s w
    (nextTick s) → w.tb.nPend = none → srcOf w = w.tb.sel → 0 < w.tb.nCur → passedOf w.tb.nCur none (angleOf w)
    (angleAfter w (rateOf w)) = 1 → (let v := atRake w (tbAdvance (rateOf w) w); tickNo w < tickNo v ∧ frozen v rkPg =
    false ∧ rkSwapDue v = true) → (tickBoundary s).flag fRK_STAT_SWAPPEND = false → Ends (.swapped) s fun t =>
    EndsSwap w t)

/-- R256, R257, R271, R273: a write of RK_WDATA3 stores the staged entry in the SHADOW bank and sets BADRULE where it is
malformed; the other words are staged; writes are refused during a pending swap. The self-test judges its frame against a
bank, changes no count, trip or latch, and shows the fields it would override. -/
def Obligations.RakeEntries : Prop := ∀ (s : State), 
  (∀ (j : Fin 4) (v : Word), s.flag fRK_STAT_SWAPPEND = true → Ends (.ruleEntryWrite j v) s fun t => t.flag
    fRK_STAT_CFGREFUSED = true ∧ pendBit t rkPg 8 = true ∧ RegsEv s t [rRK_STAT] [rkPg] ∧ Kept s t) ∧
  (∀ (j : Fin 4) (v : Word), s.flag fRK_STAT_SWAPPEND = false → s.flag fRK_WSEL_ACTRD = true → Ends (.ruleEntryWrite j
    v) s fun t => t = s) ∧
  (∀ (j : Fin 4) (v : Word), s.flag fRK_STAT_SWAPPEND = false → s.flag fRK_WSEL_ACTRD = false → j ≠ 3 → Ends
    (.ruleEntryWrite j v) s fun t => storeGet 0 t.rk.stage j.val = v ∧ (∀ m : Fin 4, m ≠ j → storeGet 0 t.rk.stage
    m.val = storeGet 0 s.rk.stage m.val) ∧ EntriesBut s t none none ∧ storesOf s t.rk = s.rk ∧ Regs s t [] ∧ NoEvents
    s t ∧ Kept s { t with rk := s.rk }) ∧
  (∀ (v : Word), s.flag fRK_STAT_SWAPPEND = false → s.flag fRK_WSEL_ACTRD = false → s.flag fRK_WSEL_PH = false → Ends
    (.ruleEntryWrite 3 v) s fun t => ruleOf t (1 - actBank s) (s.fld fRK_WSEL_INDEX) = entryOf s v ∧ ruleUe t (1 -
    actBank s) (s.fld fRK_WSEL_INDEX) = false ∧ EntriesBut s t (some (4096 * (1 - actBank s) + s.fld fRK_WSEL_INDEX))
    none ∧ (rkBad false (entryOf s v) = false ∨ t.flag fRK_STAT_BADRULE = true ∧ pendBit t rkPg 7 = true) ∧ (rkBad
    false (entryOf s v) = true ∨ Regs s t [] ∧ NoEvents s t) ∧ RegsEv s t [rRK_STAT] [rkPg] ∧ storesOf s t.rk = s.rk ∧
    Kept s { t with rk := s.rk }) ∧
  (∀ (v : Word), s.flag fRK_STAT_SWAPPEND = false → s.flag fRK_WSEL_ACTRD = false → s.flag fRK_WSEL_PH = true → s.fld
    fRK_WSEL_INDEX < 512 → Ends (.ruleEntryWrite 3 v) s fun t => phaseOf t (1 - actBank s) (s.fld fRK_WSEL_INDEX) =
    entryOf s v ∧ phaseUe t (1 - actBank s) (s.fld fRK_WSEL_INDEX) = false ∧ EntriesBut s t none (some (512 * (1 -
    actBank s) + s.fld fRK_WSEL_INDEX)) ∧ (rkBad true (entryOf s v) = false ∨ t.flag fRK_STAT_BADRULE = true ∧ pendBit
    t rkPg 7 = true) ∧ (rkBad true (entryOf s v) = true ∨ Regs s t [] ∧ NoEvents s t) ∧ RegsEv s t [rRK_STAT] [rkPg] ∧
    storesOf s t.rk = s.rk ∧ Kept s { t with rk := s.rk }) ∧
  (∀ (v : Word), s.flag fRK_STAT_SWAPPEND = false → s.flag fRK_WSEL_ACTRD = false → s.flag fRK_WSEL_PH = true → 512 ≤
    s.fld fRK_WSEL_INDEX → Ends (.ruleEntryWrite 3 v) s fun t => EntriesBut s t none none ∧ t.flag fRK_STAT_CFGREFUSED
    = true ∧ pendBit t rkPg 8 = true ∧ RegsEv s t [rRK_STAT] [rkPg] ∧ storesOf s t.rk = s.rk ∧ Kept s
    { t with rk := s.rk }) ∧
  (s.flag fRK_STAT_TESTBUSY = true → Ends (.rkTestGo) s fun t => t.flag fRK_STAT_CFGREFUSED = true ∧ pendBit t rkPg 8
    = true ∧ RegsEv s t [rRK_STAT] [rkPg] ∧ Kept s t) ∧
  (s.flag fRK_STAT_TESTBUSY = false → Ends (.rkTestGo) s fun t => t.flag fRK_STAT_TESTBUSY = true ∧ t.rk = testing s
    s.rk ∧ Regs s t [rRK_STAT] ∧ NoEvents s t ∧ Kept s { t with rk := s.rk }) ∧
  (frozen s 0x101 = true ∨ s.rk.test = none → Ends (.testDone) s fun t => t = s) ∧
  (∀ (ms : List Nat), frozen s 0x101 = false → s.rk.test = some ms → s.rk.testDo = false ∨ NotSent s s.rk.testPort ∨
    596 ≤ tickNs s → Ends (.testDone) s fun t => (∀ l : Fin 8, t.rd (rRK_TOVRl l.val) = BitVec.ofNat 32 (ovrCode
    ⟨natBits (ms.getD l.val 0) 0 16, natBits (ms.getD l.val 0) 16 16, natBits (ms.getD l.val 0) 32 16, 0, false⟩)) ∧
    t.rk = testOver s.rk ∧ t.port s.rk.testPort = testedPort s ms (s.port s.rk.testPort) ∧ OtherPort s t s.rk.testPort
    ∧ t.flag fRK_STAT_TESTBUSY = false ∧ pendBit t 0x101 0 = true ∧ RegsEv s t (rRK_STAT :: (List.range 8).map
    rRK_TOVRl) [0x101] ∧ Kept s { t with rk := s.rk, bl := { t.bl with ports := s.bl.ports } }) ∧
  (∀ (n : Fin 64) (l : Nat) (bs : List Byte) (ms : List Nat), OneFrame s n.val l bs → frozen s 0x101 = false →
    s.rk.test = some ms → s.rk.testDo = true → s.rk.testPort = n.val → tickNs s < 596 → Ends (.testDone) s fun t => (∀
    i : Fin 8, t.rd (rRK_TOVRl i.val) = BitVec.ofNat 32 (ovrCode ⟨natBits (ms.getD i.val 0) 0 16, natBits (ms.getD
    i.val 0) 16 16, natBits (ms.getD i.val 0) 32 16, 0, false⟩)) ∧ t.rk = testOver s.rk ∧ (t.port n.val).tUsed = ms ∧
    (t.port n.val).tBank = s.rk.testBank ∧ (t.port n.val).blocks = ((List.range 8).map fun i => (frameBlock t n.val i
    (ms.getD i 0)).1) ∧ t.out = [.cmdFrame n.val l (tickNo s) (reblocked bs (t.port n.val).blocks)] ∧ OtherPort s t
    n.val ∧ t.flag fRK_STAT_TESTBUSY = false ∧ pendBit t 0x101 0 = true ∧ RegsEv s t (rRK_STAT :: (List.range 8).map
    rRK_TOVRl) [0x101] ∧ Kept s { t with rk := s.rk, out := s.out, bl := { t.bl with ports := s.bl.ports } })

/-- R220 to R226: the states of a lane: DOWN, LOCK, TRAIN, IDENT, ACTIVE and OFF; what moves a lane from each to the next, and
the causes for which it falls. -/
def Obligations.BrineLanes : Prop := ∀ (s : State), 
  (∀ (n : Fin 64) (l : Fin 2), LaneIs s n.val l.val 0 → linkEn s n.val = true → (laneOf s n.val l.val).down ≤ 2 → Ends
    (.signalDetect n l) s fun t => Locks s t n.val l.val) ∧
  (∀ (n : Fin 64) (l : Fin 2), frozen s (blLink n.val) = true ∨ linkEn s n.val = false ∨ laneSt s n.val l.val ≠ 0 ∨ ¬
    (laneOf s n.val l.val).down ≤ 2 → Ends (.signalDetect n l) s fun t => t = s) ∧
  (∀ (n : Fin 64) (l : Fin 2), LaneIs s n.val l.val 1 → Ends (.laneLock n l) s fun t => LaneTo s t n.val l.val 2
    (entering (tickNo s) (fcycOf s) (laneOf s n.val l.val)) []) ∧
  (∀ (n : Fin 64) (l : Fin 2), frozen s (blLink n.val) = true ∨ laneSt s n.val l.val ≠ 1 → Ends (.laneLock n l) s fun
    t => t = s) ∧
  (∀ (n : Fin 64) (l : Fin 2) (rtd : BitVec 10) (pl stamp : Byte), LaneIs s n.val l.val 2 → Echo s n.val l.val pl
    stamp → ((laneOf s n.val l.val).answers + 1) % 64 ≠ 0 → Ends (.trainingSetAnswer n l rtd pl stamp) s fun t =>
    laneOf t n.val l.val = answered rtd.toNat (laneOf (sent s n.val l.val) n.val l.val) ∧ LaneOnly (sent s n.val
    l.val) t n.val l.val ∧ Regs s t [] ∧ NoEvents s t ∧ Kept (sent s n.val l.val)
    { t with bl := (sent s n.val l.val).bl }) ∧
  (∀ (n : Fin 64) (l : Fin 2) (rtd : BitVec 10) (pl stamp : Byte), LaneIs s n.val l.val 2 → Echo s n.val l.val pl
    stamp → ((laneOf s n.val l.val).answers + 1) % 64 = 0 → Ends (.trainingSetAnswer n l rtd pl stamp) s fun t =>
    t.fld (fRtd n.val l.val) = min 255 ((max (laneOf s n.val l.val).rtd rtd.toNat + 3) / 4 * 4) ∧ laneOf t n.val l.val
    = answered rtd.toNat (laneOf (sent s n.val l.val) n.val l.val) ∧ LaneOnly (sent s n.val l.val) t n.val l.val ∧
    Regs s t [rBLn_RTD n.val] ∧ NoEvents s t ∧ Kept (sent s n.val l.val) { t with bl := (sent s n.val l.val).bl }) ∧
  (∀ (n : Fin 64) (l : Fin 2) (rtd : BitVec 10) (pl stamp : Byte), LaneIs s n.val l.val 2 → ¬ Echo s n.val l.val pl
    stamp → Ends (.trainingSetAnswer n l rtd pl stamp) s fun t => t = (sent s n.val l.val)) ∧
  (∀ (n : Fin 64) (l : Fin 2) (rtd : BitVec 10) (pl stamp : Byte), frozen s (blLink n.val) = true ∨ laneSt s n.val
    l.val ≠ 2 → Ends (.trainingSetAnswer n l rtd pl stamp) s fun t => t = s) ∧
  (∀ (n : Fin 64) (l : Fin 2), LaneIs s n.val l.val 2 → 64 ≤ (laneOf s n.val l.val).answers → 24 < s.fld (fRtd n.val
    l.val) → Ends (.laneTrainDone n l) s fun t => Falls (sent s n.val l.val) t n.val l.val 3 []) ∧
  (∀ (n : Fin 64) (l : Fin 2), LaneIs s n.val l.val 2 → 64 ≤ (laneOf s n.val l.val).answers → s.fld (fRtd n.val l.val)
    ≤ 24 → tbEn s = true → Ends (.laneTrainDone n l) s fun t => LaneTo (sent s n.val l.val) t n.val l.val 3 (entering
    (tickNo s) (fcycOf s) (laneOf s n.val l.val)) []) ∧
  (∀ (n : Fin 64) (l : Fin 2), LaneIs s n.val l.val 2 → (laneOf s n.val l.val).answers < 64 ∨ (s.fld (fRtd n.val
    l.val) ≤ 24 ∧ tbEn s = false) → Ends (.laneTrainDone n l) s fun t => t = (sent s n.val l.val)) ∧
  (∀ (n : Fin 64) (l : Fin 2), frozen s (blLink n.val) = true ∨ laneSt s n.val l.val ≠ 2 → Ends (.laneTrainDone n l) s
    fun t => t = s) ∧
  (∀ (n : Fin 64) (l : Fin 2), LaneIs s n.val l.val 2 → (laneOf s n.val l.val).answers < 64 → Ends (.trainTimeout n l)
    s fun t => Falls (sent s n.val l.val) t n.val l.val 4 []) ∧
  (∀ (n : Fin 64) (l : Fin 2), LaneIs s n.val l.val 2 → 64 ≤ (laneOf s n.val l.val).answers → Ends (.trainTimeout n l)
    s fun t => t = (sent s n.val l.val)) ∧
  (∀ (n : Fin 64) (l : Fin 2), frozen s (blLink n.val) = true ∨ laneSt s n.val l.val ≠ 2 → Ends (.trainTimeout n l) s
    fun t => t = s) ∧
  (∀ (n : Fin 64) (l : Fin 2) (f : RxFrame) (r : List Byte), LaneIs s n.val l.val 3 → IdFrame s f r → (laneOf s n.val
    l.val).ident ≠ some r → Ends (.identityFrame n l f) s fun t => laneOf t n.val l.val = idSeen (some r) (laneOf s
    n.val l.val) ∧ LaneOnly s t n.val l.val ∧ Regs s t [] ∧ NoEvents s t ∧ Kept s { t with bl := s.bl }) ∧
  (∀ (n : Fin 64) (l : Fin 2) (f : RxFrame) (r : List Byte), LaneIs s n.val l.val 3 → IdFrame s f r → (laneOf s n.val
    l.val).ident = some r → lanesActive s n.val = false → Ends (.identityFrame n l f) s fun t => IdStored t n.val r ∧
    LaneTo s t n.val l.val 4 (entering (tickNo s) (fcycOf s) (laneOf s n.val l.val)) (idRegs n.val)) ∧
  (∀ (n : Fin 64) (l : Fin 2) (f : RxFrame) (r : List Byte), LaneIs s n.val l.val 3 → IdFrame s f r → (laneOf s n.val
    l.val).ident = some r → lanesActive s n.val = true → storedIdent s n.val ≠ r → Ends (.identityFrame n l f) s fun t
    => laneSt t n.val l.val = 0 ∧ t.fld (fCause n.val l.val) = 6 ∧ laneOf t n.val l.val = falling (tickNo s) 6 (laneOf
    s n.val l.val) ∧ pendBit t (blLink n.val) 6 = true ∧ laneSt t n.val (1 - l.val) = laneSt s n.val (1 - l.val) ∧
    RegsEv s t [rBLn_LSTAT n.val] [blLink n.val] ∧ LaneOnly s t n.val l.val ∧ Kept s { t with bl := s.bl }) ∧
  (∀ (n : Fin 64) (l : Fin 2) (f : RxFrame) (r : List Byte), LaneIs s n.val l.val 3 → IdFrame s f r → (laneOf s n.val
    l.val).ident = some r → lanesActive s n.val = true → storedIdent s n.val = r → Ends (.identityFrame n l f) s fun t
    => LaneTo s t n.val l.val 4 (entering (tickNo s) (fcycOf s) (laneOf s n.val l.val)) []) ∧
  (∀ (n : Fin 64) (l : Fin 2) (f : RxFrame), LaneIs s n.val l.val 3 → rxGood f 0xA5 = false ∨ rxSeq s f = false ∨
    rxTime f = false ∨ identOf f = none → Ends (.identityFrame n l f) s fun t => laneOf t n.val l.val = idSeen none
    (laneOf s n.val l.val) ∧ t.fld (fCrcErr n.val l.val) = (if crc32 f.bytes = f.crc.toNat then s.fld (fCrcErr n.val
    l.val) else satInc 16 (s.fld (fCrcErr n.val l.val))) ∧ t.fld (fCvErr n.val l.val) = satAdd 16 (s.fld (fCvErr n.val
    l.val)) f.cv.toNat ∧ LaneOnly s t n.val l.val ∧ Regs s t [if l.val = 0 then rBLn_ERRA n.val else rBLn_ERRB n.val]
    ∧ NoEvents s t ∧ Kept s { t with bl := s.bl }) ∧
  (∀ (n : Fin 64) (l : Fin 2) (f : RxFrame), frozen s (blLink n.val) = true ∨ laneSt s n.val l.val ≠ 3 → Ends
    (.identityFrame n l f) s fun t => t = s) ∧
  (∀ (n : Fin 64) (l : Fin 2), LaneIs s n.val l.val 3 → (laneOf s n.val l.val).identTick + 64 ≤ tickNo s → Ends
    (.idBad n l) s fun t => Falls s t n.val l.val 5 []) ∧
  (∀ (n : Fin 64) (l : Fin 2), frozen s (blLink n.val) = true ∨ laneSt s n.val l.val ≠ 3 ∨ tickNo s < (laneOf s n.val
    l.val).identTick + 64 → Ends (.idBad n l) s fun t => t = s) ∧
  (∀ (n : Fin 64) (l : Fin 2), frozen s (blLink n.val) = false → 1 ≤ laneSt s n.val l.val ∧ laneSt s n.val l.val ≤ 4 →
    Ends (.laneSignalLoss n l) s fun t => Falls s t n.val l.val 1 []) ∧
  (∀ (n : Fin 64) (l : Fin 2), frozen s (blLink n.val) = true ∨ laneSt s n.val l.val = 0 ∨ 4 < laneSt s n.val l.val →
    Ends (.laneSignalLoss n l) s fun t => t = s) ∧
  (∀ (n : Fin 64) (l : Fin 2) (cv : BitVec 8), frozen s (blLink n.val) = false → 1 ≤ laneSt s n.val l.val ∧ laneSt s
    n.val l.val ≤ 4 → 4 < cv.toNat → Ends (.locklost n l cv) s fun t => Falls s t n.val l.val 2 [(if l.val = 0 then
    rBLn_ERRA n.val else rBLn_ERRB n.val)] ∧ t.fld (fCvErr n.val l.val) = satAdd 16 (s.fld (fCvErr n.val l.val))
    cv.toNat) ∧
  (∀ (n : Fin 64) (l : Fin 2) (cv : BitVec 8), frozen s (blLink n.val) = false → cv.toNat ≤ 4 ∨ laneSt s n.val l.val =
    0 ∨ 4 < laneSt s n.val l.val → Ends (.locklost n l cv) s fun t => t.fld (fCvErr n.val l.val) = satAdd 16 (s.fld
    (fCvErr n.val l.val)) cv.toNat ∧ Regs s t [(if l.val = 0 then rBLn_ERRA n.val else rBLn_ERRB n.val)] ∧ NoEvents s
    t ∧ Kept s t) ∧
  (∀ (n : Fin 64) (l : Fin 2), LaneIs s n.val l.val 4 → 16 ≤ (laneOf s n.val l.val).miss → Ends (.laneFramesLost n l)
    s fun t => Falls s t n.val l.val 7 []) ∧
  (∀ (n : Fin 64) (l : Fin 2), frozen s (blLink n.val) = true ∨ laneSt s n.val l.val ≠ 4 ∨ (laneOf s n.val l.val).miss
    < 16 → Ends (.laneFramesLost n l) s fun t => t = s) ∧
  (∀ (n : Fin 64) (l : Fin 2) (k : Nat), LaneIs s n.val l.val 0 → linkEn s n.val = true → s.flag (fBLn_CTRL_AUTOTRAIN
    n.val) = true → (laneOf s n.val l.val).fell = some k → k + 1024 ≤ tickNo s → Ends (.autotrainRetry n l) s fun t =>
    Locks s t n.val l.val) ∧
  (∀ (n : Fin 64) (l : Fin 2), frozen s (blLink n.val) = true ∨ linkEn s n.val = false ∨ s.flag (fBLn_CTRL_AUTOTRAIN
    n.val) = false ∨ laneSt s n.val l.val ≠ 0 ∨ (laneOf s n.val l.val).fell = none → Ends (.autotrainRetry n l) s fun
    t => t = s) ∧
  (∀ (n : Fin 64), linkEn s n.val = true → laneIn s n.val 0 = true → laneSt s n.val 0 ≠ 4 → Ends (.retraina n) s fun t
    => Locks s t n.val 0) ∧
  (∀ (n : Fin 64), linkEn s n.val = true → laneIn s n.val 0 = true → laneSt s n.val 0 = 4 → Ends (.retraina n) s fun t
    => laneSt t n.val 0 = 1 ∧ laneOf t n.val 0 = locking (laneOf s n.val 0) ∧ pendBit t (blLink n.val) 4 = true ∧
    laneSt t n.val 1 = laneSt s n.val 1 ∧ RegsEv s t [rBLn_LSTAT n.val, rBLn_RETRAIN n.val] [blLink n.val] ∧ LaneOnly
    s t n.val 0 ∧ Kept s { t with bl := s.bl }) ∧
  (∀ (n : Fin 64), linkEn s n.val = false ∨ laneIn s n.val 0 = false → Ends (.retraina n) s fun t => t = s) ∧
  (∀ (n : Fin 64), linkEn s n.val = true → laneIn s n.val 1 = true → laneSt s n.val 1 ≠ 4 → Ends (.retrainb n) s fun t
    => Locks s t n.val 1) ∧
  (∀ (n : Fin 64), linkEn s n.val = true → laneIn s n.val 1 = true → laneSt s n.val 1 = 4 → Ends (.retrainb n) s fun t
    => laneSt t n.val 1 = 1 ∧ laneOf t n.val 1 = locking (laneOf s n.val 1) ∧ pendBit t (blLink n.val) 5 = true ∧
    laneSt t n.val 0 = laneSt s n.val 0 ∧ RegsEv s t [rBLn_LSTAT n.val, rBLn_RETRAIN n.val] [blLink n.val] ∧ LaneOnly
    s t n.val 1 ∧ Kept s { t with bl := s.bl }) ∧
  (∀ (n : Fin 64), linkEn s n.val = false ∨ laneIn s n.val 1 = false → Ends (.retrainb n) s fun t => t = s) ∧
  (∀ (n : Fin 64), Ends (.reident n) s fun t => (∀ l : Fin 2, laneSt t n.val l.val = (if laneSt s n.val l.val = 4 then
    3 else laneSt s n.val l.val)) ∧ (∀ l : Fin 2, laneOf t n.val l.val = (if laneSt s n.val l.val = 4 then entering
    (tickNo s) (fcycOf s) (laneOf s n.val l.val) else laneOf s n.val l.val)) ∧ PortLanes s t n.val)

/-- R220, R227, R252, R255: PAGE_CTRL.EN of a link page and BLn_CTRL.LANEMODE put the lanes of a port to DOWN or OFF; TICK of the
next boundary leaves on every lane in IDENT or ACTIVE. -/
def Obligations.BrineLinks : Prop := ∀ (s : State), 
  (∀ (n : Fin 64) (on : Bool), locked s (blLink n.val) = false → linkEn s n.val ≠ on → on = false ∨ s.flag
    fSEC_STAT_RECOVERY = false → Ends (.brineLinkEnable n on) s fun t => linkEn t n.val = on ∧ (∀ l : Fin 2, laneSt t
    n.val l.val = (if laneIn s n.val l.val then 0 else 5) ∧ laneOf t n.val l.val = resting (laneOf s n.val l.val)) ∧
    (on = false ∨ (s.port n.val).last ≠ none ∨ t.fld (fBLn_SMISS n.val) = 0) ∧ (on = true ∧ (s.port n.val).last = none
    ∨ t.fld (fBLn_SMISS n.val) = s.fld (fBLn_SMISS n.val)) ∧ (∀ k : Fin 128, k.val / 2 ≠ n.val → laneOf t (k.val / 2)
    (k.val % 2) = laneOf s (k.val / 2) (k.val % 2)) ∧ t.bl.ports = s.bl.ports ∧ RegsEv s t [rPAGE_CTRL (blLink n.val),
    rBLn_LSTAT n.val, rBLn_SMISS n.val] [blLink n.val] ∧ Kept s { t with bl := s.bl }) ∧
  (∀ (n : Fin 64) (on : Bool), linkEn s n.val = on → Ends (.brineLinkEnable n on) s fun t => t = s) ∧
  (∀ (n : Fin 64), locked s (blLink n.val) = false → s.flag fSEC_STAT_RECOVERY = true → Ends (.brineLinkEnable n true)
    s fun t => t = s) ∧
  (∀ (n : Fin 64) (on : Bool), locked s (blLink n.val) = true → linkEn s n.val ≠ on → Ends (.brineLinkEnable n on) s
    fun t => t.flag (fPAGE_STAT_REFUSED (blLink n.val)) = true ∧ Regs s t [rPAGE_STAT (blLink n.val)] ∧ NoEvents s t ∧
    Kept s t) ∧
  (∀ (n : Fin 64) (m : BitVec 2), lockHeld s (blLink n.val) = false → Ends (.lanemodeWrite n m) s fun t => t.fld
    (fBLn_CTRL_LANEMODE n.val) = m.toNat ∧ (∀ l : Fin 2, laneSt t n.val l.val = (if (m.toNat = 1 ∧ l.val ≠ 0 ∨ m.toNat
    = 2 ∧ l.val ≠ 1) then 5 else if laneSt s n.val l.val = 5 then 0 else laneSt s n.val l.val)) ∧ (∀ k : Fin 128,
    k.val / 2 ≠ n.val → laneOf t (k.val / 2) (k.val % 2) = laneOf s (k.val / 2) (k.val % 2)) ∧ t.bl.ports = s.bl.ports
    ∧ RegsEv s t [rBLn_CTRL n.val, rBLn_LSTAT n.val] [blLink n.val] ∧ Kept s { t with bl := s.bl }) ∧
  (∀ (n : Fin 64), frozen s (blLink n.val) = false → tbEn s = true → linkEn s n.val = true → Ends (.tickSend n) s fun
    t => t.out = (if laneUp s n.val 1 then [.tick n.val 1 (tickNo s + 1)] else []) ++ (if laneUp s n.val 0 then [.tick
    n.val 0 (tickNo s + 1)] else []) ++ s.out ∧ Regs s t [] ∧ NoEvents s t ∧ Kept s { t with out := s.out }) ∧
  (∀ (n : Fin 64), frozen s (blLink n.val) = true ∨ tbEn s = false ∨ linkEn s n.val = false → Ends (.tickSend n) s fun
    t => t = s)

/-- R230 to R236, R245, R254, R255, R520: a valid sample frame of the tick lands with its record, refreshes the port's registers
and is judged once; a tick without one lands its record alone and counts. -/
def Obligations.SampleFrames : Prop := ∀ (s : State), 
  (∀ (n : Fin 64) (a b : Option RxFrame) (lat : BitVec 10), frozen s (blTrans n.val) = true ∨ linkEn s n.val = false ∨
    s.tb.started = false ∨ (s.port n.val).noted = tickNo s + 1 → Ends (.sampleFrameReceive n a b lat []) s fun t => t
    = s) ∧
  (∀ (n : Fin 64) (a b : Option RxFrame) (lat : BitVec 10) (f : RxFrame), PortOpen s n.val → Used s n.val a b f →
    RakeOff s → lat.toNat ≤ 96 → s.fld fTB_GRID_SRC_PORT ≠ n.val → s.flag fRST_STAT_FRAMEHOLD = false → PlainLand s
    n.val 96 → Ends (.sampleFrameReceive n a b lat []) s fun t => (salBytes t (landAt s n.val) 96 = bytesOfNat 8
    (tickNo s) ++ bytesOfNat 4 (landStatus s n.val a b f) ++ bytesOfNat 4 0 ++ f.bytes) ∧ SameBut s t (landAt s n.val)
    96 ∧ t.port n.val = framed (tickNo s) f.bytes (s.port n.val) ∧ OtherPort s t n.val ∧ t.fld (fBLn_SMISS n.val) = 0
    ∧ (s.fld (fBLn_SMISS n.val) = 0 ∨ pendBit t (blTrans n.val) 1 = true) ∧ t.rd64 (rBLn_LASTOK n.val) = tickNo s ∧
    t.fld (fBLn_ARRIVE_EOFT n.val) = f.eoft.toNat % 512 ∧ t.fld (fBLn_ARRIVE_SOFT n.val) = f.soft.toNat % 256 ∧ t.fld
    (fBLn_TSTAT_MSTAT n.val) = numAt f.bytes 4 1 ∧ t.fld (fBLn_TSTAT_PHFLT n.val) = numAt f.bytes 5 1 ∧ t.fld
    (fBLn_TSTAT_PHON n.val) = numAt f.bytes 6 1 ∧ t.flag (fBLn_LEASE_HELD n.val) = (natBit (numAt f.bytes 4 1) 0 &&
    decide (numAt f.bytes 2 2 = s.fld (fBLn_LEASE_EPOCH n.val))) ∧ t.flag (fBLn_LEASE_FOREIGN n.val) = natBit (numAt
    f.bytes 4 1) 5 ∧ RegsEv s t (frameRegs n.val) [blTrans n.val] ∧ t.rk = s.rk ∧ t.tb = s.tb ∧ t.cores = s.cores) ∧
  (∀ (n : Fin 64) (a b : Option RxFrame) (lat : BitVec 10) (f : RxFrame), PortOpen s n.val → Used s n.val a b f →
    RakeOff s → lat.toNat ≤ 96 → s.fld fTB_GRID_SRC_PORT ≠ n.val → s.flag fRST_STAT_FRAMEHOLD = true → Ends
    (.sampleFrameReceive n a b lat []) s fun t => t.sal = s.sal ∧ t.port n.val = framed (tickNo s) f.bytes (s.port
    n.val) ∧ OtherPort s t n.val ∧ t.fld (fBLn_SMISS n.val) = 0 ∧ (s.fld (fBLn_SMISS n.val) = 0 ∨ pendBit t (blTrans
    n.val) 1 = true) ∧ t.rd64 (rBLn_LASTOK n.val) = tickNo s ∧ t.fld (fBLn_ARRIVE_EOFT n.val) = f.eoft.toNat % 512 ∧
    t.fld (fBLn_ARRIVE_SOFT n.val) = f.soft.toNat % 256 ∧ t.fld (fBLn_TSTAT_MSTAT n.val) = numAt f.bytes 4 1 ∧ t.fld
    (fBLn_TSTAT_PHFLT n.val) = numAt f.bytes 5 1 ∧ t.fld (fBLn_TSTAT_PHON n.val) = numAt f.bytes 6 1 ∧ t.flag
    (fBLn_LEASE_HELD n.val) = (natBit (numAt f.bytes 4 1) 0 && decide (numAt f.bytes 2 2 = s.fld (fBLn_LEASE_EPOCH
    n.val))) ∧ t.flag (fBLn_LEASE_FOREIGN n.val) = natBit (numAt f.bytes 4 1) 5 ∧ RegsEv s t (frameRegs n.val)
    [blTrans n.val] ∧ t.rk = s.rk ∧ t.tb = s.tb ∧ t.cores = s.cores) ∧
  (∀ (n : Fin 64) (a b : Option RxFrame) (lat : BitVec 10), PortOpen s n.val → laneValid s n.val 0 a = false →
    laneValid s n.val 1 b = false → Ends (.sampleFrameReceive n a b lat []) s fun t => t.port n.val = errSeen (errBits
    s n.val a b) (s.port n.val) ∧ OtherPort s t n.val ∧ (a.all (fun f => decide (crc32 f.bytes = f.crc.toNat)) = false
    ∨ t.fld (fCrcErr n.val 0) = s.fld (fCrcErr n.val 0)) ∧ Regs s t [rBLn_ERRA n.val, rBLn_ERRB n.val] ∧ NoEvents s t
    ∧ Kept s { t with bl := { t.bl with ports := s.bl.ports } }) ∧
  (∀ (n : Fin 64) (lat : BitVec 10), frozen s (blTrans n.val) = true ∨ linkEn s n.val = false ∨ s.tb.started = false ∨
    (s.port n.val).noted = tickNo s + 1 → Ends (.landingNoFrame n lat []) s fun t => t = s) ∧
  (∀ (n : Fin 64) (lat : BitVec 10), PortOpen s n.val → RakeOff s → lat.toNat ≤ 96 → s.flag fRST_STAT_FRAMEHOLD =
    false → PlainLand s n.val 16 → Ends (.landingNoFrame n lat []) s fun t => (salBytes t (landAt s n.val) 16 =
    bytesOfNat 8 (tickNo s) ++ bytesOfNat 4 (s.port n.val).lbits ++ bytesOfNat 4 0) ∧ SameBut s t (landAt s n.val) 16
    ∧ t.fld (fBLn_SMISS n.val) = satInc 16 (s.fld (fBLn_SMISS n.val)) ∧ t.fld (fBLn_SMISSTOT n.val) = satInc 32 (s.fld
    (fBLn_SMISSTOT n.val)) ∧ t.port n.val = noted (tickNo s) (s.port n.val) ∧ OtherPort s t n.val ∧ t.fld
    (fBLn_TSTAT_LSTATUS n.val) = (s.port n.val).lbits % 256 ∧ ((s.port n.val).valid = 0 ∨ s.fld (fBLn_SMISS n.val) ≠ 0
    ∨ pendBit t (blTrans n.val) 0 = true) ∧ RegsEv s t [rBLn_TSTAT n.val, rBLn_SMISS n.val, rBLn_SMISSTOT n.val,
    fRK_MAXLAT.key] [blTrans n.val] ∧ t.rk = s.rk ∧ t.tb = s.tb ∧ t.cores = s.cores)

/-- R258 to R262, R274: a rule that is evaluated counts the consecutive ticks in which its condition holds, is tripped when the
count passes PERSIST, and a tripped latching rule sets the latch masks of the phases that receive it. -/
def Obligations.RakeJudges : Prop := ∀ (s : State), 
  (∀ (n : Fin 64) (a b : Option RxFrame) (lat : BitVec 10) (f : RxFrame) (k : Fin 4096) (h : Bool), PortOpen s n.val →
    Used s n.val a b f → OneRule s n.val k.val → lat.toNat ≤ 96 → s.fld fTB_GRID_SRC_PORT ≠ n.val → h = (rkHolds
    (ruleOf s (actBank s) k.val) (k.val / 8 % 8) (signedOf 16 (natBits (ruleOf s (actBank s) k.val) 0 16)) (signedOf
    16 (natBits (ruleOf s (actBank s) k.val) 16 16)) ⟨some f.bytes, if (s.port n.val).lastTick + 1 = tickNo s then
    (s.port n.val).last else none, 0⟩) → rkCond (ruleOf s (actBank s) k.val) ≠ 9 → Ends (.sampleFrameReceive n a b lat
    []) s fun t => storeGet 0 t.rk.cnt k.val = countAfter s k.val h ∧ storeGet false t.rk.trip k.val = decide
    (countAfter s k.val h = rkPersist (ruleOf s (actBank s) k.val) + 1) ∧ storeGet 0 t.rk.lmin (k.val / 8) = mask1 s 1
    (k.val / 8) k.val (storeGet false t.rk.trip k.val) s.rk.lmin ∧ storeGet 0 t.rk.lalt (k.val / 8) = mask1 s 2 (k.val
    / 8) k.val (storeGet false t.rk.trip k.val) s.rk.lalt ∧ storeGet 0 t.rk.lsafe (k.val / 8) = mask1 s 3 (k.val / 8)
    k.val (storeGet false t.rk.trip k.val) s.rk.lsafe ∧ t.fld fRK_TRIPS = (if storeGet false t.rk.trip k.val ∧
    storeGet false s.rk.trip k.val = false then satInc 32 (s.fld fRK_TRIPS) else s.fld fRK_TRIPS) ∧ OtherRules s t
    k.val ∧ t.fld fRK_MAXLAT = max (s.fld fRK_MAXLAT) lat.toNat)

/-- R237 to R240, R244, R263, R269, R441, R499, R520: at the close of the command area every open port latches its buffer and
its lease; the frame of the tick then leaves on its lanes with the buffer's phase blocks, all of them zero in the emergency. -/
def Obligations.CommandFrames : Prop := ∀ (s : State), 
  (s.bl.closed = tickNo s + 1 → plLane s ≠ 3 → Ends (.commandAreaClose) s fun t => t = s) ∧
  (s.bl.closed = tickNo s + 1 → plLane s = 3 → s.dup.chk ≠ tickNo s → s.dup.got < tickNo s → Ends (.commandAreaClose)
    s fun t => t.fld fPL_MISS = satInc fPL_MISS.width (s.fld fPL_MISS) ∧ t.dup = checked (tickNo s) s.dup ∧ Regs s t
    [fPL_MISS.key] ∧ NoEvents s t ∧ Kept s { t with dup := s.dup }) ∧
  (s.bl.closed ≠ tickNo s + 1 → plLane s ≠ 3 → marksOpen s (tickNo s) = [] → Clean s → s.flag fRST_STAT_FRAMEHOLD =
    false → Ends (.commandAreaClose) s fun t => (∀ n : Fin 64, Latches s n.val → t.port n.val = latchedPort s n.val
    (some (salBytes s (bufAt s n.val) 64)) (s.port n.val)) ∧ (∀ n : Fin 64, ¬ Latches s n.val → t.port n.val = s.port
    n.val) ∧ t.bl.lanes = s.bl.lanes ∧ t.bl.closed = tickNo s + 1 ∧ t.tj = laterLaunches (tickNo s) s.tj ∧
    { t.sal with peak := s.sal.peak } = s.sal ∧ Regs s t [] ∧ NoEvents s t ∧ Kept s
    { t with bl := s.bl, tj := s.tj, sal := s.sal }) ∧
  (∀ (n : Fin 64), s.bl.closed ≠ tickNo s + 1 → plLane s ≠ 3 → marksOpen s (tickNo s) = [] → s.flag
    fRST_STAT_FRAMEHOLD = false → Latches s n.val → (∀ m : Fin 64, m ≠ n → linkEn s m.val = false) → salBad s (bufAt s
    n.val) 64 = true → Ends (.commandAreaClose) s fun t => t.port n.val = latchedPort s n.val none (s.port n.val) ∧
    t.rk.holds = s.rk.holds ++ [⟨3, n.val, 0, 8 * n.val, 8, 0xFFFF, tickNo s, some (tickNo s + 1)⟩] ∧ pendBit t rkPg 4
    = true ∧ pendBit t 0x130 1 = true ∧ t.flag fSAL_STAT_UESEEN = true ∧ t.bl.closed = tickNo s + 1 ∧ t.cores =
    s.cores ∧ t.cry = s.cry) ∧
  (s.bl.closed ≠ tickNo s + 1 → plLane s ≠ 3 → marksOpen s (tickNo s) ≠ [] → s.tj.launched = [] → (∀ m : Fin 64,
    linkEn s m.val = false) → Ends (.commandAreaClose) s fun t => t.fld fTJ_HOLDS = satInc fTJ_HOLDS.width (s.fld
    fTJ_HOLDS) ∧ pendBit t 0x150 18 = true ∧ t.bl.closed = tickNo s + 1 ∧ t.bl.ports = s.bl.ports ∧ t.tj = s.tj ∧
    RegsEv s t [fTJ_HOLDS.key] [0x150] ∧ Kept s { t with bl := s.bl }) ∧
  (∀ (n : Fin 64), frozen s (blTrans n.val) = true ∨ linkEn s n.val = false ∨ s.tb.started = false ∨ (s.port
    n.val).sent = tickNo s + 1 ∨ (s.port n.val).latched ≠ tickNo s + 1 ∨ s.flag fRST_STAT_FRAMEHOLD = true ∨ (laneUp s
    n.val 0 = false ∧ laneUp s n.val 1 = false) ∨ ((s.port n.val).latStop = true ∧ relaying s n.val = false) → Ends
    (.commandFrameSend n) s fun t => t = s) ∧
  (∀ (n : Fin 64) (bs : List Byte), SendDue s n.val bs → Unforced s n.val → (s.port n.val).latLop = 0 → (s.port
    n.val).latArmed = true → Ends (.commandFrameSend n) s fun t => t.out = sends s n.val 0 ((s.port n.val).latEpoch)
    bs (bs.take 48) ++ s.out ∧ t.port n.val = sentPort (tickNo s) false (blocksOf bs) (t.port n.val).povr (s.port
    n.val) ∧ OtherPort s t n.val ∧ t.bl.lanes = s.bl.lanes ∧ t.bl.closed = s.bl.closed ∧ Regs s t [] ∧ NoEvents s t ∧
    Kept s { t with bl := s.bl, out := s.out }) ∧
  (∀ (n : Fin 64) (bs : List Byte), SendDue s n.val bs → Unforced s n.val → (s.port n.val).latLop = 0 → (s.port
    n.val).latArmed = false → Ends (.commandFrameSend n) s fun t => t.out = sends s n.val 3 0 bs (bs.take 48) ++ s.out
    ∧ t.port n.val = sentPort (tickNo s) false (blocksOf bs) (t.port n.val).povr (s.port n.val) ∧ OtherPort s t n.val
    ∧ t.bl.lanes = s.bl.lanes ∧ t.bl.closed = s.bl.closed ∧ Regs s t [] ∧ NoEvents s t ∧ Kept s
    { t with bl := s.bl, out := s.out }) ∧
  (∀ (n : Fin 64) (bs : List Byte), SendDue s n.val bs → Unforced s n.val → (s.port n.val).latLop = 1 → lanesActive s
    n.val = true → Ends (.commandFrameSend n) s fun t => t.out = sends s n.val 1 (s.port n.val).latEpoch bs (bs.take
    48) ++ s.out ∧ t.flag (fBLn_LEASE_ARMED n.val) = true ∧ t.port n.val = sentPort (tickNo s) true (blocksOf bs)
    (t.port n.val).povr (s.port n.val) ∧ OtherPort s t n.val ∧ t.bl.lanes = s.bl.lanes ∧ t.bl.closed = s.bl.closed ∧
    Regs s t [rBLn_LEASE n.val] ∧ NoEvents s t ∧ Kept s { t with bl := s.bl, out := s.out }) ∧
  (∀ (n : Fin 64) (bs : List Byte), SendDue s n.val bs → s.flag fRK_STAT_EMERG = true → (s.port n.val).latLop = 0 →
    (s.port n.val).latArmed = true → Ends (.commandFrameSend n) s fun t => t.out = sends s n.val 0 (s.port
    n.val).latEpoch bs (List.replicate 48 0) ++ s.out ∧ t.port n.val = sentPort (tickNo s) false (List.replicate 8 0)
    (t.port n.val).povr (s.port n.val) ∧ OtherPort s t n.val ∧ t.bl.lanes = s.bl.lanes ∧ t.bl.closed = s.bl.closed ∧
    Regs s t [] ∧ NoEvents s t ∧ Kept s { t with bl := s.bl, out := s.out })

/-- R243 to R245, R503: GRANT and RELEASE write EPOCH and wait for the next frame; a GRANT that the duplex rules block is
counted and posted instead. -/
def Obligations.Leases : Prop := ∀ (s : State), 
  (∀ (n : Fin 64) (e : BitVec 16), lockHeld s (blTrans n.val) = false → plPaired s = true ∨ (modLeased s n.val = false
    ∧ s.fld fPL_STAT_ARB ≠ 2) → Ends (.grant n e) s fun t => t.port n.val = withLop 1 (s.port n.val) ∧ OtherPort s t
    n.val ∧ t.bl.lanes = s.bl.lanes ∧ t.bl.closed = s.bl.closed ∧ t.fld (fBLn_LEASE_EPOCH n.val) = e.toNat ∧ t.flag
    (fBLn_LEASE_STOP n.val) = s.flag (fBLn_LEASE_STOP n.val) ∧ t.flag (fBLn_LEASE_HELD n.val) = (modLeased s n.val &&
    decide (modEpoch s n.val = e.toNat)) ∧ RegsEv s t [rBLn_LEASE n.val] [blTrans n.val] ∧ Kept s
    { t with bl := s.bl }) ∧
  (∀ (n : Fin 64) (e : BitVec 16), lockHeld s (blTrans n.val) = false → plPaired s = false → modLeased s n.val = true
    → Ends (.grant n e) s fun t => t.fld fPL_GBLOCK = satInc fPL_GBLOCK.width (s.fld fPL_GBLOCK) ∧ pendBit t plPg 3 =
    true ∧ t.bl = s.bl ∧ t.fld (fBLn_LEASE_EPOCH n.val) = e.toNat ∧ t.flag (fBLn_LEASE_STOP n.val) = s.flag
    (fBLn_LEASE_STOP n.val) ∧ t.flag (fBLn_LEASE_HELD n.val) = (modLeased s n.val && decide (modEpoch s n.val =
    e.toNat)) ∧ RegsEv s t [rBLn_LEASE n.val, fPL_GBLOCK.key] [blTrans n.val, plPg] ∧ Kept s { t with bl := s.bl }) ∧
  (∀ (n : Fin 64) (e : BitVec 16), lockHeld s (blTrans n.val) = false → Ends (.release n e) s fun t => t.port n.val =
    withLop 2 (s.port n.val) ∧ OtherPort s t n.val ∧ t.bl.lanes = s.bl.lanes ∧ t.bl.closed = s.bl.closed ∧ t.fld
    (fBLn_LEASE_EPOCH n.val) = e.toNat ∧ t.flag (fBLn_LEASE_STOP n.val) = s.flag (fBLn_LEASE_STOP n.val) ∧ t.flag
    (fBLn_LEASE_HELD n.val) = (modLeased s n.val && decide (modEpoch s n.val = e.toNat)) ∧ RegsEv s t [rBLn_LEASE
    n.val] [blTrans n.val] ∧ Kept s { t with bl := s.bl })

/-- R497 to R502: the pair frame of a tick; what a valid one does; the loss of the link; JOIN. -/
def Obligations.PairLink : Prop := ∀ (s : State), 
  (frozen s plPg = true ∨ ¬ plLane s = 3 ∨ pageEn s 0x10 = false ∨ s.dup.sent = tickNo s + 1 → Ends (.pairFrameSend) s
    fun t => t = s) ∧
  (frozen s plPg = false → plLane s = 3 → pageEn s 0x10 = true → s.dup.sent ≠ tickNo s + 1 → s.dup.pWait = false ∨
    s.dup.got ≠ tickNo s + 1 → Ends (.pairFrameSend) s fun t => t.out = .pairFrame (tickNo s) (pairBytes s (plDigest
    s)) :: s.out ∧ t.dup = sentDup (tickNo s) (plDigest s) s.dup.pWait s.dup ∧ Regs s t [] ∧ NoEvents s t ∧ Kept s
    { t with dup := s.dup, out := s.out }) ∧
  (frozen s plPg = false → plLane s = 3 → pageEn s 0x10 = true → s.dup.sent ≠ tickNo s + 1 → s.dup.pWait = true →
    s.dup.got = tickNo s + 1 → s.dup.pDigest = plDigest s → Ends (.pairFrameSend) s fun t => t.out = .pairFrame
    (tickNo s) (pairBytes s (plDigest s)) :: s.out ∧ t.dup = sentDup (tickNo s) (plDigest s) false s.dup ∧ Regs s t []
    ∧ NoEvents s t ∧ Kept s { t with dup := s.dup, out := s.out }) ∧
  (frozen s plPg = false → plLane s = 3 → pageEn s 0x10 = true → s.dup.sent ≠ tickNo s + 1 → s.dup.pWait = true →
    s.dup.got = tickNo s + 1 → s.dup.pDigest ≠ plDigest s → s.rd64 rPL_RELAYACT = 0 → Ends (.pairFrameSend) s fun t =>
    t.out = .pairFrame (tickNo s) (pairBytes s (plDigest s)) :: s.out ∧ t.dup = sentDup (tickNo s) (plDigest s) false
    s.dup ∧ t.fld fPL_DIGERR = satInc 32 (s.fld fPL_DIGERR) ∧ Regs s t [fPL_DIGERR.key] ∧ NoEvents s t ∧ Kept s
    { t with dup := s.dup, out := s.out }) ∧
  (frozen s plPg = false → plLane s = 3 → pageEn s 0x10 = true → s.dup.sent ≠ tickNo s + 1 → s.dup.pWait = true →
    s.dup.got = tickNo s + 1 → s.dup.pDigest ≠ plDigest s → s.rd64 rPL_RELAYACT ≠ 0 → Ends (.pairFrameSend) s fun t =>
    t.out = .pairFrame (tickNo s) (pairBytes s (plDigest s)) :: s.out ∧ t.dup = noRelay (sentDup (tickNo s) (plDigest
    s) false s.dup) ∧ t.fld fPL_DIGERR = satInc 32 (s.fld fPL_DIGERR) ∧ pendBit t plPg 4 = true ∧ RegsEv s t
    [fPL_DIGERR.key] [plPg] ∧ Kept s { t with dup := s.dup, out := s.out }) ∧
  (∀ (bs : List Byte) (f : BitVec 12), frozen s plPg = true ∨ ¬ plLane s = 3 ∨ ¬ FrameGood bs → Ends
    (.pairFrameReceive bs f) s fun t => t = s) ∧
  (∀ (bs : List Byte) (f : BitVec 12), frozen s plPg = false → plLane s = 3 → FrameGood bs → ¬ FrameTimely s bs →
    s.dup.join = false ∨ pageEn s 0x10 = true → Ends (.pairFrameReceive bs f) s fun t => t = s) ∧
  (∀ (bs : List Byte) (f : BitVec 12), frozen s plPg = false → plLane s = 3 → FrameGood bs → FrameTimely s bs →
    PlainRx s → plPaired s = true ∨ goodAfter s (numAt bs 8 8) < 16 → s.dup.sent ≠ numAt bs 8 8 + 1 ∨ s.dup.oDigest =
    numAt bs 4 4 → Ends (.pairFrameReceive bs f) s fun t => t.dup = takenDup bs (numAt bs 8 8) (goodAfter s (numAt bs
    8 8)) (!decide (s.dup.sent = numAt bs 8 8 + 1)) s.dup ∧ t.fld fPL_COUNT_PHELD = numAt bs 2 1 ∧ Regs s t
    [fPL_COUNT_PHELD.key] ∧ NoEvents s t ∧ Kept s { t with dup := s.dup }) ∧
  (∀ (bs : List Byte) (f : BitVec 12), frozen s plPg = false → plLane s = 3 → FrameGood bs → FrameTimely s bs →
    PlainRx s → plPaired s = false → 16 ≤ goodAfter s (numAt bs 8 8) → s.dup.sent ≠ numAt bs 8 8 + 1 ∨ s.dup.oDigest =
    numAt bs 4 4 → Ends (.pairFrameReceive bs f) s fun t => t.dup = takenDup bs (numAt bs 8 8) (goodAfter s (numAt bs
    8 8)) (!decide (s.dup.sent = numAt bs 8 8 + 1)) s.dup ∧ t.fld fPL_COUNT_PHELD = numAt bs 2 1 ∧ t.flag
    fPL_STAT_PAIRED = true ∧ t.fld fPL_STAT_ARB = 0 ∧ t.fld fPL_STAT_LANE = 3 ∧ pendBit t plPg 0 = true ∧ RegsEv s t
    [fPL_COUNT_PHELD.key, rPL_STAT] [plPg] ∧ Kept s { t with dup := s.dup }) ∧
  (∀ (bs : List Byte) (f : BitVec 12), frozen s plPg = false → plLane s = 3 → FrameGood bs → FrameTimely s bs →
    PlainRx s → plPaired s = true → s.dup.sent = numAt bs 8 8 + 1 → s.dup.oDigest ≠ numAt bs 4 4 → s.rd64 rPL_RELAYACT
    ≠ 0 → Ends (.pairFrameReceive bs f) s fun t => t.dup = noRelay (takenDup bs (numAt bs 8 8) (goodAfter s (numAt bs
    8 8)) false s.dup) ∧ t.fld fPL_DIGERR = satInc 32 (s.fld fPL_DIGERR) ∧ pendBit t plPg 4 = true ∧ RegsEv s t
    [fPL_COUNT_PHELD.key, fPL_DIGERR.key] [plPg] ∧ Kept s { t with dup := s.dup }) ∧
  (∀ (bs : List Byte) (f : BitVec 12), frozen s plPg = false → plLane s = 3 → FrameGood bs → s.dup.join = true →
    pageEn s 0x10 = false → s.dup.got ≤ numAt bs 8 8 → s.dup.sent ≠ numAt bs 8 8 + 1 → plPaired s = true ∨ goodAfter s
    (numAt bs 8 8) < 16 → s.fld fPL_CTRL_RANK ≠ 1 ∨ s.flag fPL_CTRL_TSRC = false → Ends (.pairFrameReceive bs f) s fun
    t => angleOf t = (numAt bs 16 8 + s.fld fPL_LAT * 192 / 125 * rateOf s / 2 ^ 32) % 2 ^ 64 ∧ tickNo t = numAt bs 8
    8 ∧ t.dup = takenDup bs (numAt bs 8 8) (goodAfter s (numAt bs 8 8)) (!decide (s.dup.sent = numAt bs 8 8 + 1))
    (unjoined s.dup) ∧ t.fld fPL_COUNT_PHELD = numAt bs 2 1 ∧ t.tb = restarted (numAt bs 16 8 + s.fld fPL_LAT * 192 /
    125 * rateOf s / 2 ^ 32) (angleOf s) s.tb ∧ Regs s t [fPL_COUNT_PHELD.key, rANGLE, rANGLE + 1, rTICKNO, rTICKNO +
    1] ∧ NoEvents s t ∧ Kept s { t with dup := s.dup, tb := s.tb }) ∧
  (∀ (bs : List Byte) (f : BitVec 12), frozen s plPg = false → plLane s = 3 → FrameGood bs → FrameTimely s bs →
    s.dup.join = false → s.fld fPL_CTRL_RANK = 1 → s.flag fPL_CTRL_TSRC = true → s.tb.sel ≠ 1 → plPaired s = true ∨
    goodAfter s (numAt bs 8 8) < 16 → s.dup.sent ≠ numAt bs 8 8 + 1 ∨ s.dup.oDigest = numAt bs 4 4 → Ends
    (.pairFrameReceive bs f) s fun t => t.dup = takenDup bs (numAt bs 8 8) (goodAfter s (numAt bs 8 8)) (!decide
    (s.dup.sent = numAt bs 8 8 + 1)) s.dup ∧ t.fld fPL_COUNT_PHELD = numAt bs 2 1 ∧ Regs s t [fPL_COUNT_PHELD.key] ∧
    NoEvents s t ∧ Kept s { t with dup := s.dup }) ∧
  (frozen s plPg = true ∨ plPaired s = false ∨ tickNo s < s.dup.got + 4 → Ends (.pairLost) s fun t => t = s) ∧
  (frozen s plPg = false → plPaired s = true → s.dup.got + 4 ≤ tickNo s → Majority s (s.dup.got + 3) → Ends
    (.pairLost) s fun t => plPaired t = false ∧ t.rd64 rPL_TL = (s.dup.got + 3) % 2 ^ 64 ∧ t.rd64 rPL_RELAYACT = 0 ∧
    pendBit t plPg 1 = true ∧ t.dup = lostDup s.dup ∧ t.fld fPL_STAT_LANE = s.fld fPL_STAT_LANE ∧ t.fld fPL_STAT_ARB =
    1 ∧ RegsEv s t [rPL_STAT, rPL_TL, rPL_TL + 1, rPL_RELAYACT, rPL_RELAYACT + 1] [plPg] ∧ Kept s
    { t with dup := s.dup }) ∧
  (frozen s plPg = false → plPaired s = true → s.dup.got + 4 ≤ tickNo s → ¬ Majority s (s.dup.got + 3) → Ends
    (.pairLost) s fun t => plPaired t = false ∧ t.rd64 rPL_TL = (s.dup.got + 3) % 2 ^ 64 ∧ t.rd64 rPL_RELAYACT = 0 ∧
    pendBit t plPg 1 = true ∧ t.dup = lostDup s.dup ∧ t.fld fPL_STAT_LANE = s.fld fPL_STAT_LANE ∧ t.fld fPL_STAT_ARB =
    2 ∧ pendBit t plPg 2 = true ∧ (∀ n : Fin 64, t.flag (fBLn_LEASE_STOP n.val) = true ∧ t.fld (fBLn_LEASE_EPOCH
    n.val) = s.fld (fBLn_LEASE_EPOCH n.val)) ∧ RegsEv s t ([rPL_STAT, rPL_TL, rPL_TL + 1, rPL_RELAYACT, rPL_RELAYACT +
    1] ++ (List.range 64).map rBLn_LEASE) [plPg] ∧ Kept s { t with dup := s.dup }) ∧
  (pageEn s 0x10 = true → Ends (.join) s fun t => t = s) ∧
  (pageEn s 0x10 = false → Ends (.join) s fun t => t.dup = joining s.dup ∧ Regs s t [] ∧ NoEvents s t ∧ Kept s
    { t with dup := s.dup })

/-- R484 to R489, R494, R505: a lockstep stop and what it holds; recovery; a steward mismatch resets the H-die alone; injection;
a mismatch of the duplicated control logic stops command frames. -/
def Obligations.LockstepRecovery : Prop := ∀ (s : State), 
  (∀ (n : Fin 4) (k : BitVec 4), coreRunning s n.val = false → Ends (.lockstep n k) s fun t => t = s) ∧
  (∀ (n : Fin 4) (k : BitVec 4), coreRunning s n.val = true → NoTasks s n.val → diesNow s n.val = false → Ends
    (.lockstep n k) s fun t => t.fld (fFC_LSCNTn n.val) = satInc 32 (s.fld (fFC_LSCNTn n.val)) ∧ t.fld (fFC_LSKINDn
    n.val) = k.toNat ∧ t.rd64 rFC_LSFCYC = fcycOf s ∧ BitNow s t fFC_STAT_STOPPED n.val true ∧ t.fld
    fFC_STAT_RECOVERING = s.fld fFC_STAT_RECOVERING ∧ coreRunning t n.val = false ∧ t.dup = stoppedDup n.val (fcycOf
    s) s.dup ∧ pendBit t fcPg n.val = true ∧ t.fld fFC_STAT_DEAD = s.fld fFC_STAT_DEAD ∧ (∀ m : Fin 5, t.core m.val =
    s.core m.val) ∧ RegsEv s t [rFC_LSCNTn n.val, rFC_LSKINDn n.val, rFC_LSFCYC, rFC_LSFCYC + 1, rFC_STAT] [fcPg] ∧
    Kept s { t with dup := s.dup, cores := s.cores }) ∧
  (∀ (n : Fin 4) (k : BitVec 4), coreRunning s n.val = true → NoTasks s n.val → diesNow s n.val = true → Ends
    (.lockstep n k) s fun t => t.fld (fFC_LSCNTn n.val) = satInc 32 (s.fld (fFC_LSCNTn n.val)) ∧ t.fld (fFC_LSKINDn
    n.val) = k.toNat ∧ t.rd64 rFC_LSFCYC = fcycOf s ∧ BitNow s t fFC_STAT_STOPPED n.val true ∧ t.fld
    fFC_STAT_RECOVERING = s.fld fFC_STAT_RECOVERING ∧ coreRunning t n.val = false ∧ t.dup = stoppedDup n.val (fcycOf
    s) s.dup ∧ pendBit t fcPg n.val = true ∧ BitNow s t fFC_STAT_DEAD n.val true ∧ pendBit t fcPg (8 + n.val) = true ∧
    (∀ m : Fin 5, t.core m.val = s.core m.val) ∧ RegsEv s t [rFC_LSCNTn n.val, rFC_LSKINDn n.val, rFC_LSFCYC,
    rFC_LSFCYC + 1, rFC_STAT] [fcPg] ∧ Kept s { t with dup := s.dup, cores := s.cores }) ∧
  (∀ (n : Fin 4) (k : BitVec 4) (x : Fin 512) (e : Ctx) (r : List (Nat × Ctx)), coreRunning s n.val = true → diesNow s
    n.val = false → s.cry.ctx = (x.val, e) :: r → r = [] → e.st ≠ .free → xTask (e.descAt (tickNo s)) = true → xCore
    (e.descAt (tickNo s)) = n.val → s.rk.holds = [] → (s.core n.val).group = [] → (s.core n.val).waiting = [] → Ends
    (.lockstep n k) s fun t => t.fld (fFC_LSCNTn n.val) = satInc 32 (s.fld (fFC_LSCNTn n.val)) ∧ t.fld (fFC_LSKINDn
    n.val) = k.toNat ∧ t.rd64 rFC_LSFCYC = fcycOf s ∧ BitNow s t fFC_STAT_STOPPED n.val true ∧ t.fld
    fFC_STAT_RECOVERING = s.fld fFC_STAT_RECOVERING ∧ coreRunning t n.val = false ∧ t.dup = stoppedDup n.val (fcycOf
    s) s.dup ∧ pendBit t fcPg n.val = true ∧ t.rk.holds = [⟨5, n.val, x.val, xFphase (e.descAt (tickNo s)), xNph
    (e.descAt (tickNo s)), xFmask (e.descAt (tickNo s)), tickNo s + 1, none⟩] ∧ pendBit t rkPg 4 = true ∧ t.cry =
    s.cry ∧ t.sal = s.sal ∧ t.pan = s.pan) ∧
  (pendBit (hWarmReset 4 s) 0x1070 0 = false → s.fld fTJ_OCC = 0 → s.tj.writes = [] → Ends (.s0Lockstep) s fun t =>
    t.fld fHP_CAUSE = 16 ∧ pendBit t 0x1070 0 = true ∧ t.core 4 = Core.reset 4 ∧ (∀ m : Fin 4, t.core m.val = s.core
    m.val) ∧ t.rk.cnt = [] ∧ FSame s t) ∧
  (∀ (n : Fin 4), coreStopped s n.val = false → Ends (.recover n) s fun t => t = s) ∧
  (∀ (n : Fin 4), coreStopped s n.val = true → Ends (.recover n) s fun t => BitNow s t fFC_STAT_RECOVERING n.val true
    ∧ t.fld fFC_STAT_STOPPED = s.fld fFC_STAT_STOPPED ∧ t.fld fFC_STAT_DEAD = s.fld fFC_STAT_DEAD ∧ Regs s t
    [rFC_STAT] ∧ NoEvents s t ∧ Kept s t) ∧
  (∀ (n : Fin 4), ¬ (natBit (s.fld fFC_CTRL_AUTOREC) n.val = true ∧ natBit (s.fld fFC_STAT_DEAD) n.val = false ∧
    storeGet 0 s.dup.stopCyc n.val + 16 ≤ fcycOf s ∧ coreStopped s n.val = true) → Ends (.autoRecover n) s fun t => t
    = s) ∧
  (∀ (n : Fin 4), natBit (s.fld fFC_CTRL_AUTOREC) n.val = true → natBit (s.fld fFC_STAT_DEAD) n.val = false → storeGet
    0 s.dup.stopCyc n.val + 16 ≤ fcycOf s → coreStopped s n.val = true → Ends (.autoRecover n) s fun t => BitNow s t
    fFC_STAT_RECOVERING n.val true ∧ t.fld fFC_STAT_STOPPED = s.fld fFC_STAT_STOPPED ∧ t.fld fFC_STAT_DEAD = s.fld
    fFC_STAT_DEAD ∧ Regs s t [rFC_STAT] ∧ NoEvents s t ∧ Kept s t) ∧
  (∀ (n : Fin 4), natBit (s.fld fFC_STAT_RECOVERING) n.val = false ∨ coreStopped s n.val = false → Ends (.recovered n)
    s fun t => t = s) ∧
  (∀ (n : Fin 4), natBit (s.fld fFC_STAT_RECOVERING) n.val = true → coreStopped s n.val = true → Ends (.recovered n) s
    fun t => BitNow s t fFC_STAT_RECOVERING n.val false ∧ BitNow s t fFC_STAT_STOPPED n.val false ∧ t.fld
    fFC_STAT_DEAD = s.fld fFC_STAT_DEAD ∧ Recovered n.val (s.core n.val) (t.core n.val) ∧ (∀ m : Fin 5, m.val ≠ n.val
    → t.core m.val = s.core m.val) ∧ t.dup = recoveredDup n.val (tickNo s) (fcycOf s) s.dup ∧ pendBit t fcPg (4 +
    n.val) = true ∧ RegsEv s t [rFC_STAT] [fcPg] ∧ Kept s { t with dup := s.dup, cores := s.cores }) ∧
  (∀ (m : BitVec 4), Ends (.inject m) s fun t => t.dup = injected m s.dup ∧ Regs s t [] ∧ NoEvents s t ∧ Kept s
    { t with dup := s.dup }) ∧
  (Ends (.logicMismatch) s fun t => t.flag fFC_STAT_LOGIC = true ∧ t.fld fFC_LOGICCNT = satInc 32 (s.fld fFC_LOGICCNT)
    ∧ pendBit t fcPg 12 = true ∧ t.pwr = logicAt (tickNo s) s.pwr ∧ t.fld fFC_STAT_STOPPED = s.fld fFC_STAT_STOPPED ∧
    RegsEv s t [rFC_STAT, rFC_LOGICCNT] [fcPg] ∧ Kept s { t with pwr := s.pwr })

/-- R490, R491, R533: run control and access of the debug agent. A request that is not permitted changes nothing but the reply;
a request crosses the Sluice, and waits while
no pair is UP; the reply bytes are the model's own layout (log 60). -/
def Obligations.DebugRequests : Prop := ∀ (s : State), 
  (∀ (n : Fin 4), Reaches s → ¬ Permitted s 0 → Ends (.halt n) s fun t => OnlyReply s t [3]) ∧
  (∀ (n : Fin 4), Reaches s → ¬ Permitted s 0 → Ends (.debugResume n) s fun t => OnlyReply s t [3]) ∧
  (∀ (n : Fin 4), Reaches s → ¬ Permitted s 0 → Ends (.step n) s fun t => OnlyReply s t [3]) ∧
  (∀ (n : Fin 4) (r : CoreReg), Reaches s → ¬ Permitted s 0 → Ends (.readreg n r) s fun t => OnlyReply s t [3]) ∧
  (∀ (n : Fin 4) (r : CoreReg) (v : BitVec 128), Reaches s → ¬ Permitted s 0 → Ends (.writereg n r v) s fun t =>
    OnlyReply s t [3]) ∧
  (∀ (n : Fin 4), Reaches s → Permitted s 0 → Ends (.halt n) s fun t => t.core n.val = haltedCore (s.core n.val) ∧
    ReplyCore s t n.val [0]) ∧
  (∀ (n : Fin 4), Reaches s → Permitted s 0 → NoWork (s.core n.val) → Ends (.debugResume n) s fun t => t.core n.val =
    goesOn (s.core n.val) ∧ ReplyCore s t n.val [0]) ∧
  (∀ (n : Fin 4) (x : Xl), Reaches s → Permitted s 0 → (s.core n.val).halted = true → (s.core n.val).fq = [⟨[⟨⟨true,
    false, 0, false, none⟩, .nop⟩], none⟩, ⟨[⟨⟨true, false, 0, false, none⟩, .nop⟩], none⟩] → AtBundle (unqueued s
    n.val) n.val none x → NoEnd (s.core n.val) → (s.core n.val).step = false → Ends (.step n) s fun t => (t.core
    n.val).fq = [⟨[⟨⟨true, false, 0, false, none⟩, .nop⟩], none⟩] ∧ (t.core n.val).pc = ((s.core n.val).pc + 4) % 2 ^
    32 ∧ (t.core n.val).halted = true ∧ (t.core n.val).step = false ∧ (t.core n.val).w = (s.core n.val).w ∧ (t.core
    n.val).f = (s.core n.val).f ∧ (t.core n.val).c = (s.core n.val).c ∧ t.fld (fEPn_BUNDLES n.val) = satInc 32 (s.fld
    (fEPn_BUNDLES n.val)) ∧ Replied s t [0] ∧ (∀ m : Fin 5, m.val ≠ n.val → t.core m.val = s.core m.val) ∧ Regs s t
    [(fEPn_BUNDLES n.val).key] ∧ Kept s { t with cores := s.cores }) ∧
  (∀ (n : Fin 4), Reaches s → Permitted s 0 → (s.core n.val).halted = false → Ends (.step n) s fun t => OnlyReply s t
    [3]) ∧
  (∀ (n : Fin 4), Reaches s → Permitted s 0 → (s.core n.val).halted = true → NoWork (s.core n.val) → Ends (.step n) s
    fun t => t.core n.val = oneStep (s.core n.val) ∧ ReplyCore s t n.val [0]) ∧
  (∀ (n : Fin 4) (i : BitVec 5), Reaches s → Permitted s 0 → Ends (.readreg n (.w i)) s fun t => OnlyReply s t (0 ::
    bytesOfNat 4 ((s.core n.val).rdW i.toNat).toNat)) ∧
  (∀ (n : Fin 4) (i : BitVec 6), Reaches s → Permitted s 0 → Ends (.readreg n (.f i)) s fun t => OnlyReply s t (0 ::
    bytesOfNat 8 ((s.core n.val).rdF i.toNat))) ∧
  (∀ (n : Fin 4) (i : BitVec 3), Reaches s → Permitted s 0 → Ends (.readreg n (.p i)) s fun t => OnlyReply s t (0 ::
    bytesOfNat 1 ((s.core n.val).rdP i.toNat))) ∧
  (∀ (n : Fin 4) (i : BitVec 4), Reaches s → Permitted s 0 → Ends (.readreg n (.c i)) s fun t => OnlyReply s t (0 ::
    bytesOfNat 17 (((s.core n.val).rdC i.toNat).bits.toNat + 2 ^ 128 * (if ((s.core n.val).rdC i.toNat).tag then 1
    else 0)))) ∧
  (∀ (n : Fin 4), Reaches s → Permitted s 0 → Ends (.readreg n .pc) s fun t => OnlyReply s t (0 :: bytesOfNat 4
    (s.core n.val).pc)) ∧
  (∀ (n : Fin 4), Reaches s → Permitted s 0 → Ends (.readreg n .status) s fun t => OnlyReply s t (0 :: bytesOfNat 4
    (s.core n.val).status.toNat)) ∧
  (∀ (n : Fin 4) (k : BitVec 10) (v : Nat), Reaches s → Permitted s 0 → sysRead n.val (s.core n.val) k.toNat = some v
    → Ends (.readreg n (.sys k)) s fun t => OnlyReply s t (0 :: bytesOfNat 4 v)) ∧
  (∀ (n : Fin 4) (k : BitVec 10), Reaches s → Permitted s 0 → sysRead n.val (s.core n.val) k.toNat = none → Ends
    (.readreg n (.sys k)) s fun t => Replied s t (0 :: bytesOfNat 4 ((Config.free s.free).toNat % 2 ^ 32)) ∧ t.free =
    s.free + 1 ∧ Regs s t [] ∧ NoEvents s { t with sl := s.sl } ∧ Kept s { t with free := s.free }) ∧
  (∀ (n : Fin 4) (v : BitVec 128) (i : BitVec 5), Reaches s → Permitted s 0 → (s.core n.val).pend = [] → Ends
    (.writereg n (.w i) v) s fun t => t.core n.val = putW i.toNat (v.setWidth 32) (s.core n.val) ∧ ReplyCore s t n.val
    [0]) ∧
  (∀ (n : Fin 4) (v : BitVec 128) (i : BitVec 6), Reaches s → Permitted s 0 → (s.core n.val).pend = [] → Ends
    (.writereg n (.f i) v) s fun t => t.core n.val = putF i.toNat (v.toNat % 2 ^ 64) (s.core n.val) ∧ ReplyCore s t
    n.val [0]) ∧
  (∀ (n : Fin 4) (v : BitVec 128) (i : BitVec 3), Reaches s → Permitted s 0 → (s.core n.val).pend = [] → Ends
    (.writereg n (.p i) v) s fun t => t.core n.val = putP i.toNat (v.setWidth 8) (s.core n.val) ∧ ReplyCore s t n.val
    [0]) ∧
  (∀ (n : Fin 4) (v : BitVec 128) (i : BitVec 4), Reaches s → Permitted s 0 → (s.core n.val).pend = [] → Ends
    (.writereg n (.c i) v) s fun t => t.core n.val = putC i.toNat ⟨false, v⟩ (s.core n.val) ∧ ReplyCore s t n.val [0]) ∧
  (∀ (n : Fin 4) (v : BitVec 128), Reaches s → Permitted s 0 → Ends (.writereg n .pc v) s fun t => t.core n.val = atPc
    (v.toNat % 2 ^ 32) (s.core n.val) ∧ ReplyCore s t n.val [0]) ∧
  (∀ (n : Fin 4) (v : BitVec 128), Reaches s → Permitted s 0 → (s.core n.val).pend = [] → (s.core n.val).fdivs = [] →
    Ends (.writereg n .status v) s fun t => (t.core n.val).status = (s.core n.val).status &&& ~~~statRW ||| v.setWidth
    32 &&& statRW ∧ (t.core n.val).w = (s.core n.val).w ∧ (t.core n.val).pc = (s.core n.val).pc ∧ (t.core n.val).sb =
    (s.core n.val).sb ∧ (t.core n.val).gie = (s.core n.val).gie ∧ ReplyCore s t n.val [0]) ∧
  (∀ (n : Fin 4) (v : BitVec 128) (k : BitVec 10), Reaches s → Permitted s 0 → sysWritable k.toNat = true → (k.toNat ≠
    0x100 ∨ tbaseOk n.val (v.toNat % 2 ^ 32) = true) → Ends (.writereg n (.sys k) v) s fun t => t.core n.val =
    sysWrite n.val k.toNat (v.toNat % 2 ^ 32) (s.core n.val) ∧ ReplyCore s t n.val [0]) ∧
  (∀ (n : Fin 4) (v : BitVec 128) (k : BitVec 10), Reaches s → Permitted s 0 → ¬ (sysWritable k.toNat = true ∧
    (k.toNat ≠ 0x100 ∨ tbaseOk n.val (v.toNat % 2 ^ 32) = true)) → Ends (.writereg n (.sys k) v) s fun t => OnlyReply
    s t [0]) ∧
  (∀ (a : Word) (len : BitVec 7), Reaches s → ¬ Permitted s 1 → Ends (.readmem a len) s fun t => OnlyReply s t [3]) ∧
  (∀ (a : Word) (len : BitVec 7), Reaches s → Permitted s 1 → a.toNat + len.toNat ≤ salSize → salBad s a.toNat
    len.toNat = false → GoodBytes s a.toNat len.toNat → Ends (.readmem a len) s fun t => Replied s t (0 :: salBytes s
    a.toNat len.toNat) ∧ t.sal.peak = peakWith s 82 ∧ { t.sal with peak := s.sal.peak } = s.sal ∧ Regs s t [] ∧
    NoEvents s { t with sl := s.sl } ∧ Kept s { t with sal := s.sal }) ∧
  (∀ (a : Word) (len : BitVec 7), Reaches s → Permitted s 1 → a.toNat + len.toNat ≤ salSize → salBad s a.toNat
    len.toNat = true → Ends (.readmem a len) s fun t => Replied s t (4 :: List.replicate len.toNat 0) ∧ t.flag
    fSAL_STAT_UESEEN = true ∧ pendBit t 0x130 1 = true ∧ t.sal.mem = s.sal.mem ∧ t.cores = s.cores) ∧
  (∀ (a : Word) (len : BitVec 7) (g : Nat), Reaches s → Permitted s 1 → regionOf .F a.toNat = .lmem g → lmBad s g
    len.toNat = false → Ends (.readmem a len) s fun t => OnlyReply s t (0 :: (List.range len.toNat).map fun i =>
    storeGet 0 s.lmem (g + i))) ∧
  (∀ (a : Word) (len : BitVec 7) (g : Nat), Reaches s → Permitted s 1 → regionOf .F a.toNat = .mram g → lmBad s
    (0x40000000 + g) len.toNat = false → Ends (.readmem a len) s fun t => OnlyReply s t (0 :: (List.range
    len.toNat).map fun i => storeGet 0 s.mram (g + i))) ∧
  (∀ (a : Word) (len : BitVec 7) (g : Nat), Reaches s → Permitted s 1 → regionOf .F a.toNat = .rom g → Ends (.readmem
    a len) s fun t => OnlyReply s t (0 :: (List.range len.toNat).map fun i => Config.romByte (g + i))) ∧
  (∀ (a : Word) (len : BitVec 7) (g : Nat), Reaches s → Permitted s 1 → regionOf .F a.toNat = .lmem g ∨ (0x40000000 ≤
    g ∧ regionOf .F a.toNat = .mram (g - 0x40000000)) → lmBad s g len.toNat = true → Ends (.readmem a len) s fun t =>
    OnlyReply s t (4 :: List.replicate len.toNat 0)) ∧
  (∀ (a : Word) (len : BitVec 7), Reaches s → Permitted s 1 → regionOf .F a.toNat = .none → Ends (.readmem a len) s
    fun t => Replied s t (0 :: List.replicate len.toNat 0) ∧ t.rd64 rMX_DEC_ADDR = a.toNat ∧ t.rd rMX_DEC_INFO =
    0x0652 ∧ pendBit t 0x131 0 = true ∧ RegsEv s t [rMX_DEC_ADDR, rMX_DEC_ADDR + 1, rMX_DEC_INFO, fMX_DEC_CNT.key]
    [0x131] ∧ Kept s t) ∧
  (∀ (a : Word) (len : BitVec 7) (pg off : Nat), Reaches s → Permitted s 1 → regionOf .F a.toNat = .page pg off →
    pageKind pg ≠ .none → off % 4 = 0 → len.toNat = 4 → Ends (.readmem a len) s fun t => Replied s t (0 :: bytesOfNat
    4 (pageRead 82 pg off s).1.toNat) ∧ t.cores = s.cores ∧ Regs (pageRead 82 pg off s).2 t []) ∧
  (∀ (a : Word) (bytes : List Byte), Reaches s → bytes.length ≤ 65536 → ¬ Permitted s 1 → ¬ (s.flag fSEC_STAT_RECOVERY
    = true ∧ 0x40000000 ≤ a.toNat ∧ a.toNat + bytes.length ≤ 0x40F00000) → Ends (.writemem a bytes) s fun t =>
    OnlyReply s t [3]) ∧
  (∀ (a : Word) (bytes : List Byte), Reaches s → bytes.length ≤ 65536 → Permitted s 1 → a.toNat + bytes.length ≤
    salSize → bytes ≠ [] → Ends (.writemem a bytes) s fun t => Replied s t [0] ∧ salBytes t a.toNat bytes.length =
    bytes ∧ SameBut s t a.toNat bytes.length ∧ TagsBut s t a.toNat bytes.length ∧ (∀ k ∈ List.range bytes.length,
    salTag t (a.toNat + k) = false) ∧ Regs s t [] ∧ NoEvents s { t with sl := s.sl } ∧ Kept s { t with sal := s.sal }) ∧
  (∀ (a : Word) (bytes : List Byte) (g : Nat), Reaches s → bytes.length ≤ 65536 → Permitted s 1 → regionOf .F a.toNat
    = .lmem g → Ends (.writemem a bytes) s fun t => Replied s t [0] ∧ Wrote s.lmem t.lmem g bytes ∧ lmBad t g
    bytes.length = false ∧ Regs s t [] ∧ NoEvents s { t with sl := s.sl } ∧ Kept s
    { t with lmem := s.lmem, lmErr := s.lmErr }) ∧
  (∀ (a : Word) (bytes : List Byte) (g : Nat), Reaches s → bytes.length ≤ 65536 → Permitted s 1 ∨ (s.flag
    fSEC_STAT_RECOVERY = true ∧ 0x40000000 ≤ a.toNat ∧ a.toNat + bytes.length ≤ 0x40F00000) → regionOf .F a.toNat =
    .mram g → mramProtected s g = false → Ends (.writemem a bytes) s fun t => Replied s t [0] ∧ Wrote s.mram t.mram g
    bytes ∧ Regs s t [] ∧ NoEvents s { t with sl := s.sl } ∧ Kept s { t with mram := s.mram, lmErr := s.lmErr }) ∧
  (∀ (a : Word) (bytes : List Byte) (g : Nat), Reaches s → bytes.length ≤ 65536 → Permitted s 1 ∨ (s.flag
    fSEC_STAT_RECOVERY = true ∧ 0x40000000 ≤ a.toNat ∧ a.toNat + bytes.length ≤ 0x40F00000) → regionOf .F a.toNat =
    .mram g → mramProtected s g = true → Ends (.writemem a bytes) s fun t => Replied s t [0] ∧ t.rd64 rMX_DEC_ADDR =
    a.toNat ∧ pendBit t 0x131 0 = true ∧ RegsEv s t [rMX_DEC_ADDR, rMX_DEC_ADDR + 1, rMX_DEC_INFO, fMX_DEC_CNT.key]
    [0x131] ∧ Kept s t) ∧
  (Reaches s → s.flag fSEC_STAT_RECOVERY = false → ¬ Permitted s 0 → Ends (.reboot) s fun t => OnlyReply s t [3]) ∧
  (Reaches s → s.flag fSEC_STAT_RECOVERY = true ∨ Permitted s 0 → s.fld fSEC_STAT_LC = 0 → Ends (.reboot) s fun t =>
    InRecovery s t ∧ t.core 0 = Core.reset 0 ∧ RegsEv s t [rSEC_STAT, rSEC_BOOT] [secPg]) ∧
  (Reaches s → s.flag fSEC_STAT_RECOVERY = true ∨ Permitted s 0 → s.fld fSEC_STAT_LC ≠ 0 → candidateFail s 0 ≠ 0 →
    candidateFail s 1 ≠ 0 → Ends (.reboot) s fun t => InRecovery s t ∧ t.core 0 = Core.reset 0 ∧ t.fld
    fSEC_BFAIL_CAUSEA = candidateFail s 0 % 2 ^ fSEC_BFAIL_CAUSEA.width ∧ t.fld fSEC_BFAIL_CAUSEB = candidateFail s 1
    % 2 ^ fSEC_BFAIL_CAUSEB.width ∧ RegsEv s t [rSEC_STAT, rSEC_BOOT, rSEC_BFAIL] [secPg]) ∧
  (∀ (n : Fin 4), slUp s = false → s.sl.inF.all (fun m => m.cls != 7) = true → Ends (.halt n) s fun t => Asked s t
    (.halt n.val)) ∧
  (∀ (n : Fin 4), slUp s = false → s.sl.inF.all (fun m => m.cls != 7) = true → Ends (.debugResume n) s fun t => Asked
    s t (.resume n.val)) ∧
  (∀ (n : Fin 4), slUp s = false → s.sl.inF.all (fun m => m.cls != 7) = true → Ends (.step n) s fun t => Asked s t
    (.step n.val)) ∧
  (∀ (n : Fin 4) (r : CoreReg), slUp s = false → s.sl.inF.all (fun m => m.cls != 7) = true → Ends (.readreg n r) s fun
    t => Asked s t (.readReg n.val r)) ∧
  (∀ (n : Fin 4) (r : CoreReg) (v : BitVec 128), slUp s = false → s.sl.inF.all (fun m => m.cls != 7) = true → Ends
    (.writereg n r v) s fun t => Asked s t (.writeReg n.val r (bytesOfNat 16 v.toNat))) ∧
  (∀ (a : Word) (len : BitVec 7), slUp s = false → s.sl.inF.all (fun m => m.cls != 7) = true → Ends (.readmem a len) s
    fun t => Asked s t (.readMem a.toNat len.toNat)) ∧
  (∀ (a : Word) (bytes : List Byte), slUp s = false → s.sl.inF.all (fun m => m.cls != 7) = true → Ends (.writemem a
    bytes) s fun t => Asked s t (.writeMem a.toNat bytes)) ∧
  (slUp s = false → s.sl.inF.all (fun m => m.cls != 7) = true → Ends (.reboot) s fun t => Asked s t (.reboot))

/-- R532, R535 to R537, R539 to R541: the commands of SEC_CTRL with their refusals and the end of an OTP program; the entropy
source; attestation; the session of the debug agent. -/
def Obligations.SecurityBlock : Prop := ∀ (s : State), 
  (∀ (arg : BitVec 8), otpBusy s = true ∨ 4 ≤ arg.toNat ∨ (s.flag fSEC_BOOT_VALID = true ∧ s.sec.key = arg.toNat) ∨ ¬
    OtherKey s arg.toNat → Ends (.revoke arg) s fun t => t.flag fSEC_STAT_CFGREFUSED = true ∧ pendBit t secPg 6 = true
    ∧ t.fld fSEC_STAT_LC = s.fld fSEC_STAT_LC ∧ t.flag fSEC_STAT_OTPBUSY = s.flag fSEC_STAT_OTPBUSY ∧ RegsEv s t
    [rSEC_STAT] [secPg] ∧ Kept s t) ∧
  (∀ (arg : BitVec 8), ¬ (otpBusy s = true ∨ 4 ≤ arg.toNat ∨ (s.flag fSEC_BOOT_VALID = true ∧ s.sec.key = arg.toNat) ∨
    ¬ OtherKey s arg.toNat) → Ends (.revoke arg) s fun t => t.sec = programming 0 arg.toNat s.sec ∧ t.flag
    fSEC_STAT_OTPBUSY = true ∧ t.fld fSEC_STAT_LC = s.fld fSEC_STAT_LC ∧ Regs s t [rSEC_STAT] ∧ NoEvents s t ∧ Kept s
    { t with sec := s.sec }) ∧
  (∀ (arg : BitVec 8), otpBusy s = true ∨ 2 ≤ arg.toNat → Ends (.drevoke arg) s fun t => t.flag fSEC_STAT_CFGREFUSED =
    true ∧ pendBit t secPg 6 = true ∧ t.fld fSEC_STAT_LC = s.fld fSEC_STAT_LC ∧ t.flag fSEC_STAT_OTPBUSY = s.flag
    fSEC_STAT_OTPBUSY ∧ RegsEv s t [rSEC_STAT] [secPg] ∧ Kept s t) ∧
  (∀ (arg : BitVec 8), otpBusy s = false → arg.toNat < 2 → Ends (.drevoke arg) s fun t => t.sec = programming 1
    arg.toNat s.sec ∧ t.flag fSEC_STAT_OTPBUSY = true ∧ t.fld fSEC_STAT_LC = s.fld fSEC_STAT_LC ∧ Regs s t [rSEC_STAT]
    ∧ NoEvents s t ∧ Kept s { t with sec := s.sec }) ∧
  (otpBusy s = true → Ends (.svnbump) s fun t => t.flag fSEC_STAT_CFGREFUSED = true ∧ pendBit t secPg 6 = true ∧ t.fld
    fSEC_STAT_LC = s.fld fSEC_STAT_LC ∧ t.flag fSEC_STAT_OTPBUSY = s.flag fSEC_STAT_OTPBUSY ∧ RegsEv s t [rSEC_STAT]
    [secPg] ∧ Kept s t) ∧
  (otpBusy s = false → Ends (.svnbump) s fun t => t.sec = programming 2 (if s.flag fSEC_BOOT_VALID then s.sec.svn else
    0) s.sec ∧ t.flag fSEC_STAT_OTPBUSY = true ∧ t.fld fSEC_STAT_LC = s.fld fSEC_STAT_LC ∧ Regs s t [rSEC_STAT] ∧
    NoEvents s t ∧ Kept s { t with sec := s.sec }) ∧
  (∀ (arg : BitVec 8), otpBusy s = true ∨ arg.toNat ≤ s.fld fSEC_STAT_LC ∨ 3 < arg.toNat ∨ (arg.toNat = 3 ∧ natBit
    s.sec.scope 2 = false) → Ends (.lcadv arg) s fun t => t.flag fSEC_STAT_CFGREFUSED = true ∧ pendBit t secPg 6 =
    true ∧ t.fld fSEC_STAT_LC = s.fld fSEC_STAT_LC ∧ t.flag fSEC_STAT_OTPBUSY = s.flag fSEC_STAT_OTPBUSY ∧ RegsEv s t
    [rSEC_STAT] [secPg] ∧ Kept s t) ∧
  (∀ (arg : BitVec 8), ¬ (otpBusy s = true ∨ arg.toNat ≤ s.fld fSEC_STAT_LC ∨ 3 < arg.toNat ∨ (arg.toNat = 3 ∧ natBit
    s.sec.scope 2 = false)) → Ends (.lcadv arg) s fun t => t.sec = programming 3 arg.toNat s.sec ∧ t.flag
    fSEC_STAT_OTPBUSY = true ∧ t.fld fSEC_STAT_LC = s.fld fSEC_STAT_LC ∧ Regs s t [rSEC_STAT] ∧ NoEvents s t ∧ Kept s
    { t with sec := s.sec }) ∧
  (frozen s secPg = true ∨ s.sec.otp = none → Ends (.otpDone) s fun t => t = s) ∧
  (∀ (a : Nat), frozen s secPg = false → a < 4 → s.sec.otp = some ⟨0, a⟩ → Ends (.otpDone) s fun t => t.sec =
    programmed s.sec ∧ t.fld fSEC_OTPSTAT_KEYREV = natBitSet (s.fld fSEC_OTPSTAT_KEYREV) a true ∧ t.fld
    fSEC_OTPSTAT_DBGREV = s.fld fSEC_OTPSTAT_DBGREV ∧ t.fld fSEC_OTPSTAT_SVNMIN = s.fld fSEC_OTPSTAT_SVNMIN ∧ t.flag
    fSEC_STAT_OTPBUSY = false ∧ t.fld fSEC_STAT_LC = s.fld fSEC_STAT_LC ∧ pendBit t secPg 4 = true ∧ RegsEv s t
    [rSEC_STAT, rSEC_OTPSTAT] [secPg] ∧ Kept s { t with sec := s.sec }) ∧
  (∀ (a : Nat), frozen s secPg = false → a < 2 → s.sec.otp = some ⟨1, a⟩ → Ends (.otpDone) s fun t => t.sec =
    programmed s.sec ∧ t.fld fSEC_OTPSTAT_KEYREV = s.fld fSEC_OTPSTAT_KEYREV ∧ t.fld fSEC_OTPSTAT_DBGREV = natBitSet
    (s.fld fSEC_OTPSTAT_DBGREV) a true ∧ t.fld fSEC_OTPSTAT_SVNMIN = s.fld fSEC_OTPSTAT_SVNMIN ∧ t.flag
    fSEC_STAT_OTPBUSY = false ∧ t.fld fSEC_STAT_LC = s.fld fSEC_STAT_LC ∧ pendBit t secPg 4 = true ∧ RegsEv s t
    [rSEC_STAT, rSEC_OTPSTAT] [secPg] ∧ Kept s { t with sec := s.sec }) ∧
  (∀ (a : Nat), frozen s secPg = false → a < 128 → s.sec.otp = some ⟨2, a⟩ → Ends (.otpDone) s fun t => t.sec =
    programmed s.sec ∧ t.fld fSEC_OTPSTAT_KEYREV = s.fld fSEC_OTPSTAT_KEYREV ∧ t.fld fSEC_OTPSTAT_DBGREV = s.fld
    fSEC_OTPSTAT_DBGREV ∧ t.fld fSEC_OTPSTAT_SVNMIN = max (s.fld fSEC_OTPSTAT_SVNMIN) a ∧ t.flag fSEC_STAT_OTPBUSY =
    false ∧ t.fld fSEC_STAT_LC = s.fld fSEC_STAT_LC ∧ pendBit t secPg 4 = true ∧ RegsEv s t [rSEC_STAT, rSEC_OTPSTAT]
    [secPg] ∧ Kept s { t with sec := s.sec }) ∧
  (∀ (a : Nat), frozen s secPg = false → a < 4 → s.sec.otp = some ⟨3, a⟩ → Ends (.otpDone) s fun t => t.sec = lcNext a
    s.sec ∧ t.fld fSEC_OTPSTAT_KEYREV = s.fld fSEC_OTPSTAT_KEYREV ∧ t.fld fSEC_OTPSTAT_DBGREV = s.fld
    fSEC_OTPSTAT_DBGREV ∧ t.fld fSEC_OTPSTAT_SVNMIN = s.fld fSEC_OTPSTAT_SVNMIN ∧ t.flag fSEC_STAT_OTPBUSY = false ∧
    t.fld fSEC_STAT_LC = s.fld fSEC_STAT_LC ∧ pendBit t secPg 4 = true ∧ RegsEv s t [rSEC_STAT, rSEC_OTPSTAT] [secPg]
    ∧ Kept s { t with sec := s.sec }) ∧
  (∀ (on : Bool), on = true → s.fld fCRY_STAT_NADMIT ≠ 0 → Ends (.reimageWrite on) s fun t => t.flag
    fSEC_STAT_CFGREFUSED = true ∧ pendBit t secPg 6 = true ∧ t.fld fSEC_STAT_LC = s.fld fSEC_STAT_LC ∧ t.flag
    fSEC_STAT_OTPBUSY = s.flag fSEC_STAT_OTPBUSY ∧ RegsEv s t [rSEC_STAT] [secPg] ∧ Kept s t ∧ t.flag
    fSEC_CTRL_REIMAGE = s.flag fSEC_CTRL_REIMAGE) ∧
  (∀ (on : Bool), on = false ∨ s.fld fCRY_STAT_NADMIT = 0 → Ends (.reimageWrite on) s fun t => t.flag
    fSEC_CTRL_REIMAGE = on ∧ Regs s t [rSEC_CTRL] ∧ NoEvents s t ∧ Kept s t) ∧
  (Ends (.rngrst) s fun t => t.fld fSEC_RNGAVAIL = 0 ∧ t.flag fSEC_STAT_RNGFAIL = false ∧ t.sec = rngState false s.sec
    ∧ Regs s t [fSEC_RNGAVAIL.key, rSEC_STAT] ∧ NoEvents s t ∧ Kept s { t with sec := s.sec }) ∧
  (frozen s secPg = false → s.flag fSEC_STAT_RNGFAIL = false → Ends (.rngStartUpPassed) s fun t => t.fld fSEC_RNGAVAIL
    = 16 ∧ t.sec = rngState true s.sec ∧ Regs s t [fSEC_RNGAVAIL.key] ∧ NoEvents s t ∧ Kept s { t with sec := s.sec }) ∧
  (frozen s secPg = true ∨ s.flag fSEC_STAT_RNGFAIL = true → Ends (.rngStartUpPassed) s fun t => t = s) ∧
  (frozen s secPg = false → Ends (.rngFail) s fun t => t.flag fSEC_STAT_RNGFAIL = true ∧ t.fld fSEC_RNGAVAIL = 0 ∧
    t.sec = rngState false s.sec ∧ pendBit t secPg 3 = true ∧ t.fld fSEC_STAT_LC = s.fld fSEC_STAT_LC ∧ RegsEv s t
    [fSEC_RNGAVAIL.key, rSEC_STAT] [secPg] ∧ Kept s { t with sec := s.sec }) ∧
  (frozen s secPg = true → Ends (.rngFail) s fun t => t = s) ∧
  (∀ (m : BitVec 8), s.fld fSEC_RNGAVAIL = 0 → Ends (.secRngRead m) s fun t => t.out = .readData m.toNat [0, 0, 0, 0]
    :: s.out ∧ t.flag fSEC_STAT_UNDERRUN = true ∧ Regs s t [rSEC_STAT] ∧ NoEvents s t ∧ Kept s
    { t with out := s.out }) ∧
  (∀ (m : BitVec 8), s.fld fSEC_RNGAVAIL ≠ 0 → Ends (.secRngRead m) s fun t => t.out = .readData m.toNat (bytesOfNat 4
    ((Config.free s.free).toNat % 2 ^ 32)) :: s.out ∧ t.fld fSEC_RNGAVAIL = s.fld fSEC_RNGAVAIL - 1 ∧ t.free = s.free
    + 1 ∧ Regs s t [fSEC_RNGAVAIL.key] ∧ NoEvents s t ∧ Kept s { t with out := s.out, free := s.free }) ∧
  (∀ (cseq : Word) (q : BitVec 16) (nonce : List Byte), frozen s secPg = true → Ends (.attest cseq q nonce) s fun t =>
    t = s) ∧
  (∀ (cseq : Word) (q : BitVec 16) (nonce : List Byte), frozen s secPg = false → s.fld fSEC_STAT_LC = 0 ∨ s.fld
    fSEC_STAT_LC = 3 ∨ 4 ≤ s.sec.att.length → Ends (.attest cseq q nonce) s fun t => pendBit t secPg 5 = true ∧ t.sec
    = s.sec ∧ RegsEv s t [] [secPg] ∧ Kept s t) ∧
  (∀ (cseq : Word) (q : BitVec 16) (nonce : List Byte), frozen s secPg = false → s.fld fSEC_STAT_LC = 1 ∨ s.fld
    fSEC_STAT_LC = 2 → s.sec.att.length < 4 → Ends (.attest cseq q nonce) s fun t => t.sec = requested ⟨false,
    cseq.toNat, bytesAt nonce 0 32, q.toNat⟩ s.sec ∧ t.flag fSEC_STAT_ABUSY = true ∧ Regs s t [rSEC_STAT] ∧ NoEvents s
    t ∧ Kept s { t with sec := s.sec }) ∧
  (∀ (cseq : Word) (q : BitVec 16), frozen s secPg = true → Ends (.identity cseq q) s fun t => t = s) ∧
  (∀ (cseq : Word) (q : BitVec 16), frozen s secPg = false → s.fld fSEC_STAT_LC = 0 ∨ s.fld fSEC_STAT_LC = 3 ∨ 4 ≤
    s.sec.att.length → Ends (.identity cseq q) s fun t => pendBit t secPg 5 = true ∧ t.sec = s.sec ∧ RegsEv s t []
    [secPg] ∧ Kept s t) ∧
  (∀ (cseq : Word) (q : BitVec 16), frozen s secPg = false → s.fld fSEC_STAT_LC = 1 ∨ s.fld fSEC_STAT_LC = 2 →
    s.sec.att.length < 4 → Ends (.identity cseq q) s fun t => t.sec = requested ⟨true, cseq.toNat, bytesAt [] 0 32,
    q.toNat⟩ s.sec ∧ t.flag fSEC_STAT_ABUSY = true ∧ Regs s t [rSEC_STAT] ∧ NoEvents s t ∧ Kept s
    { t with sec := s.sec }) ∧
  (frozen s secPg = true ∨ s.sec.att = [] → Ends (.attestationAnswer) s fun t => t = s) ∧
  (∀ (r : AttReq) (rest : List AttReq), frozen s secPg = false → slUp s = true → s.sec.att = r :: rest → r.ident =
    true → Ends (.attestationAnswer) s fun t => (slTxOf t 3).cells = (slTxOf s 3).cells ++ answerCells s r.q 0x220 18
    (identityOf s) ∧ t.fld fSEC_ATTCNT = satInc fSEC_ATTCNT.width (s.fld fSEC_ATTCNT) ∧ t.flag fSEC_STAT_ABUSY =
    !rest.isEmpty ∧ t.sec = restAnswered rest s.sec ∧ Regs s t [fSEC_ATTCNT.key, rSEC_STAT] ∧ Kept s
    { t with sec := s.sec }) ∧
  (∀ (r : AttReq) (rest : List AttReq), frozen s secPg = false → slUp s = true → s.sec.att = r :: rest → r.ident =
    false → Ends (.attestationAnswer) s fun t => (slTxOf t 3).cells = (slTxOf s 3).cells ++ answerCells s r.q 0x200 16
    (reportOf s r ++ (Config.ecdsaSign (if s.sec.erased then 1 else 0) (Config.sha512 (reportOf s r)).toList).toList)
    ∧ t.fld fSEC_ATTCNT = satInc fSEC_ATTCNT.width (s.fld fSEC_ATTCNT) ∧ t.flag fSEC_STAT_ABUSY = !rest.isEmpty ∧
    t.sec = restAnswered rest s.sec ∧ Regs s t [fSEC_ATTCNT.key, rSEC_STAT] ∧ Kept s { t with sec := s.sec }) ∧
  (Reaches s → s.sec.rngUp = false → Ends (.challenge) s fun t => Replied s t (1 :: devId) ∧ t.sec = noNonce s.sec ∧
    Regs s t [] ∧ NoEvents s { t with sl := s.sl } ∧ Kept s { t with sec := s.sec }) ∧
  (Reaches s → s.sec.rngUp = true → Ends (.challenge) s fun t => Replied s t (0 :: nonceOf s ++ devId) ∧ t.sec =
    withNonce (nonceOf s) s.sec ∧ t.free = s.free + 4 ∧ Regs s t [] ∧ NoEvents s { t with sl := s.sl } ∧ Kept s
    { t with sec := s.sec, free := s.free }) ∧
  (∀ (scope slot : BitVec 8) (pub sig : List Byte), Reaches s → pub.length + sig.length ≤ 65536 → s.flag
    (fEV_ROUTE_DEST secPg) = true ∨ enBit s secPg 2 = false → s.sec.nonce = none ∨ 2 ≤ slot.toNat ∨ natBit (s.fld
    fSEC_OTPSTAT_DBGREV) slot.toNat = true ∨ 4 ≤ s.sec.fails → Ends (.unlock scope slot pub sig) s fun t => Replied s
    t [2] ∧ t.sec = failed s.sec ∧ pendBit t secPg 2 = true ∧ t.flag fSEC_STAT_DBGUNLOCKED = s.flag
    fSEC_STAT_DBGUNLOCKED ∧ RegsEv s t [] [secPg] ∧ Kept s { t with sec := s.sec }) ∧
  (∀ (scope slot : BitVec 8) (pub sig : List Byte) (nn : List Byte), Reaches s → pub.length + sig.length ≤ 65536 →
    s.flag (fEV_ROUTE_DEST secPg) = true ∨ (enBit s secPg 1 = false ∧ enBit s secPg 2 = false) → s.sec.nonce = some nn
    → slot.toNat < 2 → natBit (s.fld fSEC_OTPSTAT_DBGREV) slot.toNat = false → s.sec.fails < 4 → Ends (.unlock scope
    slot pub sig) s fun t => if verified scope slot pub sig nn then (Replied s t [0] ∧ t.sec = opened scope.toNat
    s.sec ∧ pendBit t secPg 1 = true ∧ t.flag fSEC_STAT_DBGUNLOCKED = true ∧ RegsEv s t [rSEC_STAT] [secPg] ∧ Kept s
    { t with sec := s.sec }) else (Replied s t [2] ∧ t.sec = failed s.sec ∧ pendBit t secPg 2 = true ∧ t.flag
    fSEC_STAT_DBGUNLOCKED = s.flag fSEC_STAT_DBGUNLOCKED ∧ RegsEv s t [] [secPg] ∧ Kept s { t with sec := s.sec })) ∧
  (slUp s = false → s.sl.inF.all (fun m => m.cls != 7) = true → Ends (.challenge) s fun t => Asked s t .challenge) ∧
  (∀ (scope slot : BitVec 8) (pub sig : List Byte), slUp s = false → s.sl.inF.all (fun m => m.cls != 7) = true → Ends
    (.unlock scope slot pub sig) s fun t => Asked s t (.unlock scope.toNat slot.toNat pub sig))

/-- R544, R545, R547 to R549: what the button, the latches, the electrodes, USB power and the lamp test change and post. -/
def Obligations.ServicePanel : Prop := ∀ (s : State), 
  (frozen s pnPg = true → Ends (.btnDown) s fun t => t = s) ∧
  (frozen s pnPg = true → Ends (.btnHold) s fun t => t = s) ∧
  (∀ (ms : Word), frozen s pnPg = true → Ends (.btnUp ms) s fun t => t = s) ∧
  (∀ (n : Fin 4), frozen s pnPg = true → Ends (.latchOpen n) s fun t => t = s) ∧
  (∀ (n : Fin 4), frozen s pnPg = true → Ends (.latchClose n) s fun t => t = s) ∧
  (frozen s pnPg = true → Ends (.usbAttach) s fun t => t = s) ∧
  (frozen s pnPg = true → Ends (.usbDetach) s fun t => t = s) ∧
  (frozen s pnPg = true → Ends (.lamptestEnd) s fun t => t = s) ∧
  (∀ (e : Fin 2) (ms : Word) (bl k : BitVec 16), frozen s pnPg = true → Ends (.touch e ms bl k) s fun t => t = s) ∧
  (∀ (e : Fin 2) (bl k : BitVec 16), frozen s pnPg = true → Ends (.touchRelease e bl k) s fun t => t = s) ∧
  (s.flag fPN_STAT_BTN = true → Ends (.btnDown) s fun t => t = s) ∧
  (frozen s pnPg = false → s.flag fPN_STAT_BTN = false → Ends (.btnDown) s fun t => t.flag fPN_STAT_BTN = true ∧ t.pn
    = panelHeld false s.pn ∧ Posted s t pnPg 0 1 (bytesOfNat 16 0) ∧ t.flag fPN_STAT_VBUS = s.flag fPN_STAT_VBUS ∧
    t.fld fPN_STAT_LATCH = s.fld fPN_STAT_LATCH ∧ t.fld fPN_STAT_TOUCH = s.fld fPN_STAT_TOUCH ∧ t.flag fPN_STAT_LT =
    s.flag fPN_STAT_LT ∧ RegsEv s t [rPN_STAT] [pnPg] ∧ Kept s { t with pn := s.pn }) ∧
  (s.flag fPN_STAT_BTN = false ∨ s.pn.held = true ∨ s.fld fPN_HOLD = 0 → Ends (.btnHold) s fun t => t = s) ∧
  (frozen s pnPg = false → s.flag fPN_STAT_BTN = true → s.pn.held = false → s.fld fPN_HOLD ≠ 0 → Ends (.btnHold) s fun
    t => t.pn = panelHeld true s.pn ∧ Posted s t pnPg 1 1 (bytesOfNat 16 0) ∧ RegsEv s t [] [pnPg] ∧ Kept s
    { t with pn := s.pn }) ∧
  (∀ (ms : Word), s.flag fPN_STAT_BTN = false → Ends (.btnUp ms) s fun t => t = s) ∧
  (∀ (ms : Word), frozen s pnPg = false → s.flag fPN_STAT_BTN = true → Ends (.btnUp ms) s fun t => t.flag fPN_STAT_BTN
    = false ∧ t.pn = panelHeld false s.pn ∧ Posted s t pnPg 2 1 (bytesOfNat 4 ms.toNat ++ bytesOfNat 12 (if s.pn.held
    then 1 else 0)) ∧ t.flag fPN_STAT_VBUS = s.flag fPN_STAT_VBUS ∧ t.fld fPN_STAT_LATCH = s.fld fPN_STAT_LATCH ∧
    t.fld fPN_STAT_TOUCH = s.fld fPN_STAT_TOUCH ∧ t.flag fPN_STAT_LT = s.flag fPN_STAT_LT ∧ RegsEv s t [rPN_STAT]
    [pnPg] ∧ Kept s { t with pn := s.pn }) ∧
  (∀ (n : Fin 4), natBit (s.fld fPN_STAT_LATCH) n.val = true → Ends (.latchOpen n) s fun t => t = s) ∧
  (∀ (n : Fin 4), frozen s pnPg = false → natBit (s.fld fPN_STAT_LATCH) n.val = false → Ends (.latchOpen n) s fun t =>
    t.fld fPN_STAT_LATCH = natBitSet (s.fld fPN_STAT_LATCH) n.val true ∧ Posted s t pnPg 3 2 (bytesOfNat 16 n.val) ∧
    t.flag fPN_STAT_BTN = s.flag fPN_STAT_BTN ∧ t.flag fPN_STAT_VBUS = s.flag fPN_STAT_VBUS ∧ t.fld fPN_STAT_TOUCH =
    s.fld fPN_STAT_TOUCH ∧ t.flag fPN_STAT_LT = s.flag fPN_STAT_LT ∧ RegsEv s t [rPN_STAT] [pnPg] ∧ Kept s t) ∧
  (∀ (n : Fin 4), natBit (s.fld fPN_STAT_LATCH) n.val = false → Ends (.latchClose n) s fun t => t = s) ∧
  (∀ (n : Fin 4), frozen s pnPg = false → natBit (s.fld fPN_STAT_LATCH) n.val = true → Ends (.latchClose n) s fun t =>
    t.fld fPN_STAT_LATCH = natBitSet (s.fld fPN_STAT_LATCH) n.val false ∧ Posted s t pnPg 4 1 (bytesOfNat 16 n.val) ∧
    t.flag fPN_STAT_BTN = s.flag fPN_STAT_BTN ∧ t.flag fPN_STAT_VBUS = s.flag fPN_STAT_VBUS ∧ t.fld fPN_STAT_TOUCH =
    s.fld fPN_STAT_TOUCH ∧ t.flag fPN_STAT_LT = s.flag fPN_STAT_LT ∧ RegsEv s t [rPN_STAT] [pnPg] ∧ Kept s t) ∧
  (s.flag fPN_STAT_VBUS = true → Ends (.usbAttach) s fun t => t = s) ∧
  (frozen s pnPg = false → s.flag fPN_STAT_VBUS = false → Ends (.usbAttach) s fun t => t.flag fPN_STAT_VBUS = true ∧
    Posted s t pnPg 7 1 (bytesOfNat 16 0) ∧ t.flag fPN_STAT_BTN = s.flag fPN_STAT_BTN ∧ t.fld fPN_STAT_LATCH = s.fld
    fPN_STAT_LATCH ∧ t.fld fPN_STAT_TOUCH = s.fld fPN_STAT_TOUCH ∧ t.flag fPN_STAT_LT = s.flag fPN_STAT_LT ∧ RegsEv s
    t [rPN_STAT] [pnPg] ∧ Kept s t) ∧
  (s.flag fPN_STAT_VBUS = false → Ends (.usbDetach) s fun t => t = s) ∧
  (frozen s pnPg = false → s.flag fPN_STAT_VBUS = true → Ends (.usbDetach) s fun t => t.flag fPN_STAT_VBUS = false ∧
    Posted s t pnPg 8 1 (bytesOfNat 16 0) ∧ t.flag fPN_STAT_BTN = s.flag fPN_STAT_BTN ∧ t.fld fPN_STAT_LATCH = s.fld
    fPN_STAT_LATCH ∧ t.fld fPN_STAT_TOUCH = s.fld fPN_STAT_TOUCH ∧ t.flag fPN_STAT_LT = s.flag fPN_STAT_LT ∧ RegsEv s
    t [rPN_STAT] [pnPg] ∧ Kept s t) ∧
  (∀ (e : Fin 2) (ms : Word) (bl k : BitVec 16), natBit (s.fld fPN_STAT_TOUCH) e.val = true → Ends (.touch e ms bl k)
    s fun t => t = s) ∧
  (∀ (e : Fin 2) (ms : Word) (bl k : BitVec 16), frozen s pnPg = false → natBit (s.fld fPN_STAT_TOUCH) e.val = false →
    ¬ BothTouched s e ms → Ends (.touch e ms bl k) s fun t => t.fld fPN_STAT_TOUCH = natBitSet (s.fld fPN_STAT_TOUCH)
    e.val true ∧ t.fld (fPN_TCOUNTe_COUNT e.val) = k.toNat ∧ t.fld (fPN_TCOUNTe_BASE e.val) = bl.toNat ∧ Posted s t
    pnPg 5 1 (bytesOfNat 16 e.val) ∧ t.flag fPN_STAT_BTN = s.flag fPN_STAT_BTN ∧ t.fld fPN_STAT_LATCH = s.fld
    fPN_STAT_LATCH ∧ RegsEv s t [rPN_STAT, rPN_TCOUNTe e.val] [pnPg] ∧ Kept s { t with pn := s.pn } ∧ t.pn =
    panelTouched e.val ms.toNat s.pn) ∧
  (∀ (e : Fin 2) (ms : Word) (bl k : BitVec 16), frozen s pnPg = false → natBit (s.fld fPN_STAT_TOUCH) e.val = false →
    BothTouched s e ms → s.flag fPN_CTRL_TOUCHLOC = false → Ends (.touch e ms bl k) s fun t => t.fld fPN_STAT_TOUCH =
    natBitSet (s.fld fPN_STAT_TOUCH) e.val true ∧ t.fld (fPN_TCOUNTe_COUNT e.val) = k.toNat ∧ t.fld (fPN_TCOUNTe_BASE
    e.val) = bl.toNat ∧ Posted s t pnPg 5 1 (bytesOfNat 16 e.val) ∧ t.flag fPN_STAT_BTN = s.flag fPN_STAT_BTN ∧ t.fld
    fPN_STAT_LATCH = s.fld fPN_STAT_LATCH ∧ RegsEv s t [rPN_STAT, rPN_TCOUNTe e.val] [pnPg] ∧ Kept s
    { t with pn := s.pn } ∧ t.pn = panelTouched e.val ms.toNat s.pn ∧ Posted s t pnPg 6 1 (bytesOfNat 16 0)) ∧
  (∀ (e : Fin 2) (ms : Word) (bl k : BitVec 16), frozen s pnPg = false → natBit (s.fld fPN_STAT_TOUCH) e.val = false →
    BothTouched s e ms → s.flag fPN_CTRL_TOUCHLOC = true → Ends (.touch e ms bl k) s fun t => t.fld fPN_STAT_TOUCH =
    natBitSet (s.fld fPN_STAT_TOUCH) e.val true ∧ t.fld (fPN_TCOUNTe_COUNT e.val) = k.toNat ∧ t.fld (fPN_TCOUNTe_BASE
    e.val) = bl.toNat ∧ Posted s t pnPg 5 1 (bytesOfNat 16 e.val) ∧ t.flag fPN_STAT_BTN = s.flag fPN_STAT_BTN ∧ t.fld
    fPN_STAT_LATCH = s.fld fPN_STAT_LATCH ∧ RegsEv s t [rPN_STAT, rPN_TCOUNTe e.val] [pnPg] ∧ Kept s
    { t with pn := s.pn } ∧ t.pn = panelBlink (s.flag fPN_STAT_LT) (panelTouched e.val ms.toNat s.pn) ∧ Posted s t
    pnPg 6 1 (bytesOfNat 16 0)) ∧
  (∀ (e : Fin 2) (bl k : BitVec 16), frozen s pnPg = false → Ends (.touchRelease e bl k) s fun t => t.fld
    fPN_STAT_TOUCH = natBitSet (s.fld fPN_STAT_TOUCH) e.val false ∧ t.fld (fPN_TCOUNTe_COUNT e.val) = k.toNat ∧ t.fld
    (fPN_TCOUNTe_BASE e.val) = bl.toNat ∧ t.flag fPN_STAT_BTN = s.flag fPN_STAT_BTN ∧ Regs s t [rPN_STAT, rPN_TCOUNTe
    e.val] ∧ NoEvents s t ∧ Kept s t) ∧
  (Ends (.lamptest) s fun t => t.flag fPN_STAT_LT = true ∧ (∀ (n : Fin 4) (ms : Nat), ledLit t n.val ms = true) ∧
    t.flag fPN_STAT_BTN = s.flag fPN_STAT_BTN ∧ t.fld fPN_STAT_LATCH = s.fld fPN_STAT_LATCH ∧ t.fld fPN_STAT_TOUCH =
    s.fld fPN_STAT_TOUCH ∧ Regs s t [rPN_STAT] ∧ NoEvents s t ∧ Kept s t) ∧
  (s.flag fPN_STAT_LT = false → Ends (.lamptestEnd) s fun t => t = s) ∧
  (frozen s pnPg = false → s.flag fPN_STAT_LT = true → (s.pn.mode.map (·.1)).Nodup → Ends (.lamptestEnd) s fun t =>
    t.flag fPN_STAT_LT = false ∧ t.pn = panelTested s.pn ∧ ModesBack s t s.pn.mode ∧ Regs s t (rPN_STAT ::
    s.pn.mode.map fun e => rPN_LEDn e.1) ∧ NoEvents s t ∧ Kept s { t with pn := s.pn })

/-- R510, R511, R513, R516, R517: supply dips and their records; temperature, reference and PLLs; HALT, SLEEP and the wakes. -/
def Obligations.SuppliesAndModes : Prop := ∀ (s : State), 
  (s.flag fPWR_STAT_BELOW = true → Ends (.brownoutStart) s fun t => t = s) ∧
  (s.flag fPWR_STAT_BELOW = false → s.flag fBWCTL_HOLD = false → Ends (.brownoutStart) s fun t => t.flag
    fPWR_STAT_BELOW = true ∧ t.fld fPWR_DIPCNT = satInc fPWR_DIPCNT.width (s.fld fPWR_DIPCNT) ∧ t.pwr = dipped
    (angleOf s) s.pwr ∧ t.flag fPWR_STAT_HDIP = s.flag fPWR_STAT_HDIP ∧ t.flag fPWR_STAT_TEMPHIGH = s.flag
    fPWR_STAT_TEMPHIGH ∧ Regs s t [rPWR_STAT, fPWR_DIPCNT.key] ∧ NoEvents s t ∧ Kept s { t with pwr := s.pwr }) ∧
  (s.flag fPWR_STAT_BELOW = false → s.flag fBWCTL_HOLD = true → Ends (.brownoutStart) s fun t => t.flag
    fPWR_STAT_BELOW = true ∧ t.fld fPWR_DIPCNT = satInc fPWR_DIPCNT.width (s.fld fPWR_DIPCNT) ∧ t.pwr = dippedHeld
    (angleOf s) s.pwr ∧ Posted s t rkPg 4 2 (bytesOfNat 2 0xFFFF ++ bytesOfNat 2 6 ++ bytesOfNat 4 0 ++ bytesOfNat 8
    (comingFrame s)) ∧ (∀ p : Fin 512, heldFields t p.val (tickNo s) = 0xFFFF ∨ t.rk.holds ≠ []) ∧ RegsEv s t
    [rPWR_STAT, fPWR_DIPCNT.key] [rkPg] ∧ Kept s { t with pwr := s.pwr }) ∧
  (∀ (mv : BitVec 16) (ns : Word), s.flag fPWR_STAT_BELOW = false → Ends (.brownWarn mv ns) s fun t => t = s) ∧
  (∀ (mv : BitVec 16) (ns : Word), s.flag fPWR_STAT_BELOW = true → Ends (.brownWarn mv ns) s fun t => t.flag
    fPWR_STAT_BELOW = false ∧ t.fld fPWR_DIPMIN = mv.toNat ∧ t.fld fPWR_DIPDUR = ns.toNat ∧ t.pwr = unheld s.pwr ∧
    PostedAt s t 0x160 0 2 (bytesOfNat 2 0 ++ bytesOfNat 2 mv.toNat ++ bytesOfNat 4 ns.toNat ++ bytesOfNat 8 (if
    s.pwr.held then 3 else 1)) s.pwr.dipAngle ∧ t.flag fPWR_STAT_HDIP = s.flag fPWR_STAT_HDIP ∧ t.flag
    fPWR_STAT_TEMPHIGH = s.flag fPWR_STAT_TEMPHIGH ∧ RegsEv s t [rPWR_STAT, fPWR_DIPMIN.key, fPWR_DIPDUR.key] [0x160]
    ∧ Kept s { t with pwr := s.pwr }) ∧
  (s.flag fHP_STAT_BELOW = true → Ends (.hDipStart) s fun t => t = s) ∧
  (s.flag fHP_STAT_BELOW = false → Ends (.hDipStart) s fun t => t.flag fHP_STAT_BELOW = true ∧ t.flag fHP_STAT_FSLEEP
    = s.flag fHP_STAT_FSLEEP ∧ t.pwr = hDipped (s.rd64 rSH_ANGLE) s.pwr ∧ qeBlocked t = true ∧ Regs s t [rHP_STAT] ∧
    NoEvents s t ∧ Kept s { t with pwr := s.pwr }) ∧
  (∀ (mv : BitVec 16) (ns : Word), s.flag fHP_STAT_BELOW = false → Ends (.hDipRecover mv ns) s fun t => t = s) ∧
  (∀ (mv : BitVec 16) (ns : Word), s.flag fHP_STAT_BELOW = true → s.qe.queues = [] → Ends (.hDipRecover mv ns) s fun t
    => t.flag fHP_STAT_BELOW = false ∧ t.fld fHP_DIPMIN = mv.toNat ∧ t.fld fHP_DIPDUR = ns.toNat ∧ PostedAt s t 0x1090
    0 2 (bytesOfNat 2 1 ++ bytesOfNat 2 mv.toNat ++ bytesOfNat 4 ns.toNat ++ bytesOfNat 8 1) s.pwr.hDipAngle ∧ RegsEv
    s t [rHP_STAT, fHP_DIPMIN.key, fHP_DIPDUR.key] [0x1090] ∧ Kept s t) ∧
  (∀ (h : Bool) (x : BitVec 16), signedOf 16 x.toNat ≤ junctionLimit → Ends (.tempHigh h x) s fun t => t.fld (if h
    then fHP_TEMP else fPWR_TEMP) = x.toNat ∧ Regs s t [(if h then fHP_TEMP else fPWR_TEMP).key] ∧ NoEvents s t ∧ Kept
    s t) ∧
  (∀ (x : BitVec 16), junctionLimit < signedOf 16 x.toNat → Ends (.tempHigh false x) s fun t => t.fld fPWR_TEMP =
    x.toNat ∧ t.flag fPWR_STAT_TEMPHIGH = true ∧ t.flag fPWR_STAT_BELOW = s.flag fPWR_STAT_BELOW ∧ pendBit t 0x160 2 =
    true ∧ RegsEv s t [fPWR_TEMP.key, rPWR_STAT] [0x160] ∧ Kept s t) ∧
  (∀ (x : BitVec 16), junctionLimit < signedOf 16 x.toNat → Ends (.tempHigh true x) s fun t => t.fld fHP_TEMP =
    x.toNat ∧ pendBit t 0x1090 3 = true ∧ RegsEv s t [fHP_TEMP.key] [0x1090] ∧ Kept s t) ∧
  (∀ (x : BitVec 16), signedOf 16 x.toNat ≤ junctionLimit - 80 → Ends (.tempHighEnd false x) s fun t => t.fld
    fPWR_TEMP = x.toNat ∧ t.flag fPWR_STAT_TEMPHIGH = false ∧ t.flag fPWR_STAT_BELOW = s.flag fPWR_STAT_BELOW ∧ Regs s
    t [fPWR_TEMP.key, rPWR_STAT] ∧ NoEvents s t ∧ Kept s t) ∧
  (∀ (h : Bool) (x : BitVec 16), h = true ∨ junctionLimit - 80 < signedOf 16 x.toNat → Ends (.tempHighEnd h x) s fun t
    => t.fld (if h then fHP_TEMP else fPWR_TEMP) = x.toNat ∧ Regs s t [(if h then fHP_TEMP else fPWR_TEMP).key] ∧
    NoEvents s t ∧ Kept s t) ∧
  (s.flag fCK_STAT_REFOK = false → Ends (.refLost) s fun t => t = s) ∧
  (s.flag fCK_STAT_REFOK = true → Ends (.refLost) s fun t => t.flag fCK_STAT_REFOK = false ∧ t.flag fCK_STAT_FPLLLOCK
    = s.flag fCK_STAT_FPLLLOCK ∧ t.fld fCK_REFMISS = satInc fCK_REFMISS.width (s.fld fCK_REFMISS) ∧ pendBit t 0x161 0
    = true ∧ RegsEv s t [rCK_STAT, fCK_REFMISS.key] [0x161] ∧ Kept s t) ∧
  (s.flag fCK_STAT_REFOK = true → Ends (.refOk) s fun t => t = s) ∧
  (s.flag fCK_STAT_REFOK = false → Ends (.refOk) s fun t => t.flag fCK_STAT_REFOK = true ∧ t.flag fCK_STAT_FPLLLOCK =
    s.flag fCK_STAT_FPLLLOCK ∧ pendBit t 0x161 2 = true ∧ RegsEv s t [rCK_STAT] [0x161] ∧ Kept s t) ∧
  (∀ (l : Bool), s.flag (if l then fCK_STAT_LPLLLOCK else fCK_STAT_FPLLLOCK) = false → Ends (.pllUnlock l) s fun t =>
    t = s) ∧
  (∀ (l : Bool), s.flag (if l then fCK_STAT_LPLLLOCK else fCK_STAT_FPLLLOCK) = true → Ends (.pllUnlock l) s fun t =>
    t.flag (if l then fCK_STAT_LPLLLOCK else fCK_STAT_FPLLLOCK) = false ∧ t.flag fCK_STAT_REFOK = s.flag
    fCK_STAT_REFOK ∧ Posted s t 0x161 1 3 (bytesOfNat 2 (if l then 1 else 0) ++ bytesOfNat 2 0 ++ bytesOfNat 4 0 ++
    bytesOfNat 8 (tickNo s)) ∧ RegsEv s t [rCK_STAT] [0x161] ∧ Kept s t) ∧
  (s.pwr.mode ≠ .run → Ends (.pwrHalt) s fun t => t = s) ∧
  (s.pwr.mode = .run → Busy s → Ends (.pwrHalt) s fun t => t.flag fPWR_STAT_CFGREFUSED = true ∧ pendBit t 0x160 3 =
    true ∧ t.pwr = s.pwr ∧ RegsEv s t [rPWR_STAT] [0x160] ∧ Kept s t) ∧
  (s.pwr.mode = .run → ¬ Busy s → Ends (.pwrHalt) s fun t => t.pwr = inMode .halt s.pwr ∧ (∀ i : Fin 4, slPair t i.val
    = 4 ∧ (slPair s i.val ≠ 3 ∨ (pendBit t slPg 0 = true ∧ pendBit t shPg 0 = true))) ∧ AllYield s t ∧ t.cores =
    s.cores ∧ t.sal = s.sal ∧ t.cry = s.cry ∧ t.tb = s.tb ∧ t.bl = s.bl ∧ t.rk = s.rk ∧ t.mram = s.mram ∧ t.flag
    fCK_STAT_REFOK = s.flag fCK_STAT_REFOK ∧ (.halt = PwrMode.halt → t.rd rCK_STAT = s.rd rCK_STAT) ∧ (.halt =
    PwrMode.sleep → t.flag fCK_STAT_FPLLLOCK = false ∧ t.flag fCK_STAT_LPLLLOCK = false) ∧ RegsEv s t [rSL_PSTAT,
    rSH_PSTAT, rPWR_STAT, rCK_STAT] [slPg, shPg]) ∧
  (s.pwr.mode ≠ .run → Ends (.pwrSleep) s fun t => t = s) ∧
  (s.pwr.mode = .run → Busy s → Ends (.pwrSleep) s fun t => t.flag fPWR_STAT_CFGREFUSED = true ∧ pendBit t 0x160 3 =
    true ∧ t.pwr = s.pwr ∧ RegsEv s t [rPWR_STAT] [0x160] ∧ Kept s t) ∧
  (s.pwr.mode = .run → ¬ Busy s → Ends (.pwrSleep) s fun t => t.pwr = inMode .sleep s.pwr ∧ (∀ i : Fin 4, slPair t
    i.val = 4 ∧ (slPair s i.val ≠ 3 ∨ (pendBit t slPg 0 = true ∧ pendBit t shPg 0 = true))) ∧ AllYield s t ∧ t.cores =
    s.cores ∧ t.sal = s.sal ∧ t.cry = s.cry ∧ t.tb = s.tb ∧ t.bl = s.bl ∧ t.rk = s.rk ∧ t.mram = s.mram ∧ t.flag
    fCK_STAT_REFOK = s.flag fCK_STAT_REFOK ∧ (.sleep = PwrMode.halt → t.rd rCK_STAT = s.rd rCK_STAT) ∧ (.sleep =
    PwrMode.sleep → t.flag fCK_STAT_FPLLLOCK = false ∧ t.flag fCK_STAT_LPLLLOCK = false) ∧ RegsEv s t [rSL_PSTAT,
    rSH_PSTAT, rPWR_STAT, rCK_STAT] [slPg, shPg]) ∧
  (s.pwr.mode = .run ∨ s.pwr.hOff = true → Ends (.fSleep) s fun t => t = s) ∧
  (s.pwr.mode ≠ .run → s.pwr.hOff = false → Ends (.fSleep) s fun t => t.flag fHP_STAT_FSLEEP = true ∧ t.flag
    fHP_STAT_BELOW = s.flag fHP_STAT_BELOW ∧ t.pwr = hSide true s.pwr ∧ pendBit t 0x1090 1 = true ∧ RegsEv s t
    [rHP_STAT] [0x1090] ∧ Kept s { t with pwr := s.pwr }) ∧
  (¬ (s.pwr.mode ≠ .run ∧ (s.pwr.woke = true ∨ (s.flag fPWR_WAKE_WAKESL = true ∧ s.pwr.hOff = false))) → Ends (.wake)
    s fun t => t = s) ∧
  (s.pwr.mode ≠ .run → (s.pwr.woke = true ∨ (s.flag fPWR_WAKE_WAKESL = true ∧ s.pwr.hOff = false)) → Ends (.wake) s
    fun t => t.pwr = awake s.pwr ∧ pendBit t 0x160 1 = true ∧ (∀ i : Fin 4, slPair t i.val = if slPair s i.val = 4 ∧
    natBit (s.fld fSL_CTRL_PAIRDIS) i.val = false then 0 else slPair s i.val) ∧ (s.pwr.hOff = false ∨ (t.flag
    fHP_STAT_FSLEEP = false ∧ pendBit t 0x1090 2 = true)) ∧ t.cores = s.cores ∧ t.sal = s.sal ∧ t.cry = s.cry ∧ t.tb =
    s.tb ∧ t.bl = s.bl ∧ t.pan = s.pan ∧ t.mram = s.mram ∧ t.flag fCK_STAT_REFOK = s.flag fCK_STAT_REFOK ∧ (if
    s.pwr.mode = .sleep then t.flag fCK_STAT_FPLLLOCK = true ∧ t.flag fCK_STAT_LPLLLOCK = true else t.rd rCK_STAT =
    s.rd rCK_STAT) ∧ RegsEv s t [rSL_PSTAT, rSH_PSTAT, rHP_STAT, rPWR_STAT, rSL_CTRL, rCK_STAT] [slPg, shPg, 0x1090,
    0x160]) ∧
  (Ends (.wakef) s fun t => t.pwr = hSide false s.pwr ∧ Regs s t [] ∧ NoEvents s t ∧ Kept s { t with pwr := s.pwr })

/-- R445, R446, R512, R518 to R524, R530 to R533: cold and warm resets of both dies, the release of the compute section and the
boot that follows, the resync, the reset of the endpoint, FRAMEGO and CORERUN. -/
def Obligations.Resets : Prop := ∀ (s : State), 
  (∀ (w : WarmF) (cuts : List (Fin 4 × BitVec 11)), Quiet s → cuts = [] → Ends (.fWarmReset w cuts) s fun t => t.fld
    fRST_STAT_CAUSE = 2 ^ causeF w ∧ t.flag fRST_STAT_FRAMEHOLD = true ∧ t.fld fRST_CTRL_CORERUN = 1 ∧ t.fld
    fRST_WARMCNT = satInc 32 (s.fld fRST_WARMCNT) ∧ t.rd64 rRST_LAST = tickNo s ∧ WarmRegs s t ∧ CoresReset s t ∧
    t.pwr = stopped s.pwr ∧ t.cry = cryKept s.cry ∧ t.sal.mem = s.sal.mem ∧ t.sal.tag = s.sal.tag ∧ t.sal.err =
    s.sal.err ∧ t.mram = s.mram ∧ t.lmem = s.lmem ∧ t.tb = s.tb ∧ t.bl = povrCleared s.bl ∧ t.qe = s.qe ∧ t.fab =
    s.fab ∧ t.pn = s.pn ∧ t.out = s.out ∧ t.pending = s.pending ∧ t.flag fQE_STAT_RESYNC = true ∧ t.sl.initF = true) ∧
  (∀ (w : WarmF) (cuts : List (Fin 4 × BitVec 11)), Quiet s → Ends (.fWarmReset w cuts) s fun t => RakeRetained s t ∧
    t.flag fRK_STAT_EMPIN = s.flag fRK_STAT_EMPIN ∧ t.fld fSEC_STAT_LC = s.fld fSEC_STAT_LC ∧ t.flag fSEC_STAT_OTPBUSY
    = s.flag fSEC_STAT_OTPBUSY ∧ t.flag fSEC_STAT_DBGUNLOCKED = s.flag fSEC_STAT_DBGUNLOCKED ∧ t.rd rTJ_OCC = s.rd
    rTJ_OCC ∧ t.rd rSEC_OTPSTAT = s.rd rSEC_OTPSTAT) ∧
  (∀ (w : WarmF) (cuts : List (Fin 4 × BitVec 11)) (p : Fin 4) (c k q : Nat) (x : Order), Quiet s → (panOf s
    p.val).run = some x → x.src = .bg c k q → Ends (.fWarmReset w cuts) s fun t => (panOf t p.val).held = some x ∧
    (panOf t p.val).run = none ∧ (panOf t p.val).lq = [] ∧ (panOf t p.val).bq = []) ∧
  (s.pwr.warm = false → Ends (.warmDone) s fun t => t = s) ∧
  (s.pwr.warm = true → s.flag fRK_STAT_EMPIN = false → s.flag fSEC_CTRL_REIMAGE = false → s.flag fSEC_BOOT_VALID =
    true → img s (s.fld fSEC_BOOT_SLOT) 0 4 = 0x31494754 → Ends (.warmDone) s fun t => Posted s t 0x162 0 2
    (bytesOfNat 2 0 ++ bytesOfNat 2 (s.fld fRST_STAT_CAUSE) ++ bytesOfNat 4 0 ++ bytesOfNat 8 (tickNo s)) ∧ t.pwr =
    released' s.pwr ∧ t.core 0 = handed s (s.fld fSEC_BOOT_SLOT) (s.core 0) ∧ (∀ m : Fin 5, m.val ≠ 0 → t.core m.val =
    s.core m.val) ∧ RegsEv s t [] [0x162] ∧ Kept s { t with pwr := s.pwr, cores := s.cores }) ∧
  (s.pwr.warm = true → s.flag fRK_STAT_EMPIN = false → s.flag fSEC_CTRL_REIMAGE = false → s.flag fSEC_BOOT_VALID =
    false ∨ img s (s.fld fSEC_BOOT_SLOT) 0 4 ≠ 0x31494754 → Ends (.warmDone) s fun t => Posted s t 0x162 0 2
    (bytesOfNat 2 0 ++ bytesOfNat 2 (s.fld fRST_STAT_CAUSE) ++ bytesOfNat 4 0 ++ bytesOfNat 8 (tickNo s)) ∧ t.pwr =
    released' s.pwr ∧ InRecovery s t ∧ t.core 0 = s.core 0 ∧ RegsEv s t [rSEC_STAT, rSEC_BOOT] [0x162, secPg] ∧ Kept s
    { t with pwr := s.pwr }) ∧
  (s.pwr.warm = true → s.flag fRK_STAT_EMPIN = false → s.flag fSEC_CTRL_REIMAGE = true → s.fld fSEC_STAT_LC = 0 → Ends
    (.warmDone) s fun t => Posted s t 0x162 0 2 (bytesOfNat 2 0 ++ bytesOfNat 2 (s.fld fRST_STAT_CAUSE) ++ bytesOfNat
    4 0 ++ bytesOfNat 8 (tickNo s)) ∧ t.pwr = released' s.pwr ∧ InRecovery s t ∧ t.flag fSEC_CTRL_REIMAGE = false ∧
    t.core 0 = s.core 0 ∧ RegsEv s t [rSEC_STAT, rSEC_BOOT, rSEC_CTRL] [0x162, secPg] ∧ Kept s
    { t with pwr := s.pwr }) ∧
  (s.pwr.warm = true → s.flag fRK_STAT_EMPIN = true → s.flag fSEC_CTRL_REIMAGE = false → s.flag fSEC_BOOT_VALID =
    false → Ends (.warmDone) s fun t => t.pwr = released' s.pwr ∧ t.flag fRK_STAT_EMERG = true ∧ t.flag fRK_STAT_EMPIN
    = true ∧ InRecovery s { t with rk := s.rk } ∧ t.core 0 = s.core 0) ∧
  (∀ (b e : Bool), s.sec.lc = 0 → s.tj.writes = [] → s.qe.queues = [] → (∀ i : Fin 4, slPair s i.val = 0) → s.pwr.hOff
    = false → e = false → Ends (.coldBootF b e) s fun t => ColdRegs s t ∧ CoresReset s t ∧ t.lmem = [] ∧ t.mram =
    s.mram ∧ t.tb = TbState.reset ∧ t.sal = SalState.reset ∧ t.cry = CryState.reset ∧ t.pan = PanState.reset ∧ t.bl =
    ⟨[], [], 0⟩ ∧ t.rk = RakeState.reset ∧ t.ev = EvState.reset ∧ t.dup = DupState.reset ∧ t.tj = TjState.reset ∧
    t.pwr = hDipped s.pwr.hDipAngle PwrState.reset ∧ t.fld fRST_STAT_CAUSE = (if b then 2 else 1) ∧ t.fld fSEC_STAT_LC
    = 0 ∧ t.flag fSEC_STAT_RECOVERY = true ∧ t.flag fQE_STAT_RESYNC = true ∧ t.qe = s.qe ∧ t.fab = s.fab ∧ t.pn = s.pn
    ∧ t.sl.initF = true) ∧
  (∀ (b e : Bool), s.sec.lc = 1 → s.tj.writes = [] → s.qe.queues = [] → (∀ i : Fin 4, slPair s i.val = 0) → s.pwr.hOff
    = false → e = true → candidateFail s 0 ≠ 0 → candidateFail s 1 ≠ 0 → Ends (.coldBootF b e) s fun t => t.fld
    fRST_STAT_CAUSE = (if b then 2 else 1) ∧ t.fld fSEC_STAT_LC = 1 ∧ t.flag fSEC_STAT_RECOVERY = true ∧ t.fld
    fSEC_BFAIL_CAUSEA = candidateFail s 0 % 2 ^ fSEC_BFAIL_CAUSEA.width ∧ t.fld fSEC_BFAIL_CAUSEB = candidateFail s 1
    % 2 ^ fSEC_BFAIL_CAUSEB.width ∧ t.flag fRK_STAT_EMPIN = true ∧ t.flag fRK_STAT_EMERG = true ∧ CoresReset s t ∧
    t.mram = s.mram ∧ t.lmem = []) ∧
  (∀ (w : WarmF) (p : Fin 4) (k : BitVec 11) (c t1 n : Nat) (x : Order), Quiet s → CutAt s p.val x k.toNat → 0 <
    k.toNat → x.src = .bg c t1 n → (∀ q : Fin 4, q ≠ p → (panOf s q.val).run = none ∧ (panOf s q.val).yielded = none)
    → Ends (.fWarmReset w [(p, k)]) s fun t => t.flag (fPANp_BGSTAT_TORN p.val) = true ∧ t.flag (fPANp_BGSTAT_HALT
    p.val) = true ∧ t.fld (fPANp_BGSTAT_CAUSE p.val) = 0xC ∧ (panOf t p.val).held = some x ∧ t.sal.mem = (((stripOf s
    x).writes.take k.toNat).foldl (fun u e => salWrite e.1 e.2 u) s).sal.mem) ∧
  (∀ (w : WarmF) (p : Fin 4) (k : BitVec 11) (c t1 n : Nat) (x : Order), Quiet s → CutAt s p.val x k.toNat → k.toNat =
    0 → x.src = .bg c t1 n → (∀ q : Fin 4, q ≠ p → (panOf s q.val).run = none ∧ (panOf s q.val).yielded = none) → Ends
    (.fWarmReset w [(p, k)]) s fun t => t.flag (fPANp_BGSTAT_TORN p.val) = false ∧ t.flag (fPANp_BGSTAT_HALT p.val) =
    true ∧ t.fld (fPANp_BGSTAT_CAUSE p.val) = 0xC ∧ (panOf t p.val).held = some x ∧ t.sal.mem = (((stripOf s
    x).writes.take k.toNat).foldl (fun u e => salWrite e.1 e.2 u) s).sal.mem) ∧
  (∀ (b : Bool), (∀ i : Fin 4, slPair s i.val = 0 ∨ slPair s i.val = 4) → Ends (.coldBootH b) s fun t => HColdRegs s t
    ∧ HBlocks t ∧ t.fld fHP_CAUSE = (if b then 2 else 1) ∧ t.flag fQE_STAT_RESYNC = true ∧ t.qe = QeState.reset ∧
    t.pwr = hSide false s.pwr ∧ (∀ m : Fin 4, t.core m.val = s.core m.val) ∧ t.fld fTJ_OCC = s.fld fTJ_OCC ∧ t.rk =
    s.rk ∧ FSame s { t with pwr := s.pwr }) ∧
  (∀ (w : WarmH), s.qe.queues = [] → Ends (.hWarmReset w) s fun t => HWarmRegs s t ∧ HBlocks t ∧ t.fld fHP_CAUSE = 2 ^
    causeH w ∧ t.flag fQE_STAT_RESYNC = true ∧ t.qe.linkUp = false ∧ t.qe.d3hot = false ∧ t.qe.msix = [] ∧ t.qe.op =
    none ∧ t.qe.queues = [] ∧ t.qe.relSent = s.qe.relSent ∧ (∀ m : Fin 4, t.core m.val = s.core m.val) ∧ t.rk.cnt = []
    ∧ FSame s t) ∧
  (∀ (w : WarmH) (q : Nat) (x : Queue), s.qe.queues = [(q, x)] → Ends (.hWarmReset w) s fun t => queueOf t q =
    x.rewind true ∧ t.flag fQE_STAT_RESYNC = true) ∧
  (frozen s qePg = true ∨ s.flag fQE_STAT_RESYNC = false ∨ slUp s = false ∨ s.sl.initF = true ∨ s.sl.initH = true ∨ (∃
    w ∈ s.tj.writes, w.mark = false) → Ends (.resyncDone) s fun t => t = s) ∧
  (¬ (frozen s qePg = true ∨ s.flag fQE_STAT_RESYNC = false ∨ slUp s = false ∨ s.sl.initF = true ∨ s.sl.initH = true ∨
    (∃ w ∈ s.tj.writes, w.mark = false)) → Through s → s.qe.queues = [] → jOccupied s = [] → Ends (.resyncDone) s fun
    t => t.flag fQE_STAT_RESYNC = false ∧ pendBit t qePg 5 = true ∧ t.fld fSL_DUPDROP = copies s ∧ WentAndCame s t ∧
    RegsEv s t [rQE_STAT, fSL_DUPDROP.key] [qePg] ∧ Kept s t) ∧
  (s.qe.linkUp = true → Ends (.pcieHotReset) s fun t => t.qe = unlinked s.qe ∧ t.rd rPX_LSTAT = 0 ∧ pendBit t pxPg 0 =
    true ∧ RegsEv s t [rPX_LSTAT] [pxPg] ∧ Kept s { t with qe := s.qe }) ∧
  (s.qe.linkUp = false → Ends (.pcieHotReset) s fun t => t.qe = unlinked s.qe ∧ t.rd rPX_LSTAT = 0 ∧ Regs s t
    [rPX_LSTAT] ∧ NoEvents s t ∧ Kept s { t with qe := s.qe }) ∧
  (Ends (.framego) s fun t => t.flag fRST_STAT_FRAMEHOLD = false ∧ t.fld fRST_STAT_CAUSE = s.fld fRST_STAT_CAUSE ∧
    Regs s t [rRST_STAT] ∧ NoEvents s t ∧ Kept s t) ∧
  (∀ (m : BitVec 4), Ends (.corerunWrite m) s fun t => t.fld fRST_CTRL_CORERUN = m.toNat ∧ (∀ n : Fin 4, t.core n.val
    = if natBit m.toNat n.val then s.core n.val else heldReset n.val (s.core n.val)) ∧ t.core 4 = s.core 4 ∧ Regs s t
    [rRST_CTRL] ∧ NoEvents s t ∧ Kept s { t with cores := s.cores })

/-- R402 to R418: the steps of a timer and what its compare units do; writes of its registers, CLR and RUN; pulses of event
channels, their delivery to cores, timers and groups, and writes of their configuration. -/
def Obligations.TimersAndChannels : Prop := ∀ (s : State), 
  (∀ (n : Fin 32) (k : BitVec 16), frozen s (gtPage n.val) = true ∨ k = 0 ∧ s.pwr.mode = .run ∨ storeGet false
    s.ev.gtClr n.val = false ∧ NoCapture s n.val ∧ (pageEn s (gtPage n.val) = false ∨ s.flag (fGTn_CTRL_RUN n.val) =
    false) → Ends (.gtCompareMatch n k) s fun t => t = s) ∧
  (∀ (n : Fin 32) (k : BitVec 16), Counts s n.val → OneStep s k → s.fld (fGTn_RELOAD n.val) < s.fld (fGTn_COUNT n.val)
    → Ends (.gtCompareMatch n k) s fun t => t.fld (fGTn_COUNT n.val) = (Config.free s.free).toNat % 2 ^ 32 ∧ t.free =
    s.free + 1 ∧ Regs s t [(fGTn_COUNT n.val).key] ∧ NoEvents s t ∧ Kept s { t with free := s.free }) ∧
  (∀ (n : Fin 32) (k : BitVec 16), Counts s n.val → s.flag (fGTn_CMPk_CTRL_EN n.val 0) = false → s.flag
    (fGTn_CMPk_CTRL_EN n.val 1) = false → s.fld (fGTn_COUNT n.val) ≤ s.fld (fGTn_RELOAD n.val) → Ends (.gtCompareMatch
    n k) s fun t => t.fld (fGTn_COUNT n.val) = (s.fld (fGTn_COUNT n.val) + k.toNat) % (s.fld (fGTn_RELOAD n.val) + 1)
    ∧ Regs s t [(fGTn_COUNT n.val).key] ∧ NoEvents s t ∧ Kept s t) ∧
  (∀ (n : Fin 32) (k : BitVec 16), Counts s n.val → OneStep s k → s.fld (fGTn_COUNT n.val) ≤ s.fld (fGTn_RELOAD n.val)
    → NotPassed s n.val 0 k.toNat → NotPassed s n.val 1 k.toNat → Ends (.gtCompareMatch n k) s fun t => t.fld
    (fGTn_COUNT n.val) = (s.fld (fGTn_COUNT n.val) + k.toNat) % (s.fld (fGTn_RELOAD n.val) + 1) ∧ Regs s t
    [(fGTn_COUNT n.val).key] ∧ NoEvents s t ∧ Kept s t) ∧
  (∀ (n : Fin 32) (i : Fin 2) (k : BitVec 16), Counts s n.val → OneStep s k → s.fld (fGTn_COUNT n.val) ≤ s.fld
    (fGTn_RELOAD n.val) → Passed s n.val i.val k.toNat → NotPassed s n.val (1 - i.val) k.toNat → s.flag
    (fGTn_CMPk_CTRL_EVOUT n.val i.val) = false → Ends (.gtCompareMatch n k) s fun t => t.fld (fGTn_COUNT n.val) =
    (s.fld (fGTn_COUNT n.val) + k.toNat) % (s.fld (fGTn_RELOAD n.val) + 1) ∧ t.flag (fGTn_CMPk_STAT_MATCH n.val i.val)
    = true ∧ t.flag (fGTn_CMPk_STAT_MULTI n.val i.val) = (s.flag (fGTn_CMPk_STAT_MULTI n.val i.val) || decide (s.fld
    (fGTn_RELOAD n.val) + 1 < k.toNat)) ∧ t.flag (fGTn_CMPk_CTRL_EN n.val i.val) = !s.flag (fGTn_CMPk_CTRL_ONESHOT
    n.val i.val) ∧ pendBit t (gtPage n.val) i.val = true ∧ RegsEv s t [(fGTn_COUNT n.val).key, (fGTn_CMPk_STAT_MATCH
    n.val i.val).key, (fGTn_CMPk_CTRL_EN n.val i.val).key] [gtPage n.val] ∧ Kept s t) ∧
  (∀ (n : Fin 32) (i : Fin 2) (k : BitVec 16), Counts s n.val → OneStep s k → s.fld (fGTn_COUNT n.val) ≤ s.fld
    (fGTn_RELOAD n.val) → Passed s n.val i.val k.toNat → NotPassed s n.val (1 - i.val) k.toNat → s.flag
    (fGTn_CMPk_CTRL_EVOUT n.val i.val) = true → s.ev.cfgOld = [] → s.ev.genOld = [] → s.ev.pulses = [] → natBit (s.rd
    (rEVc_CFG (s.fld (fGTn_CMPk_CTRL_EVOUTCH n.val i.val)))).toNat 31 = true → s.flag (fEGg_CTRL_GEN (s.fld
    (fGTn_CMPk_CTRL_EVOUTCH n.val i.val) / 16)) = true → s.flag (fEV_ROUTE_DEST (gtPage n.val)) = false → Ends
    (.gtCompareMatch n k) s fun t => t.fld (fGTn_COUNT n.val) = (s.fld (fGTn_COUNT n.val) + k.toNat) % (s.fld
    (fGTn_RELOAD n.val) + 1) ∧ t.flag (fGTn_CMPk_STAT_MATCH n.val i.val) = true ∧ t.flag (fGTn_CMPk_STAT_MULTI n.val
    i.val) = (s.flag (fGTn_CMPk_STAT_MULTI n.val i.val) || decide (s.fld (fGTn_RELOAD n.val) + 1 < k.toNat)) ∧ t.flag
    (fGTn_CMPk_CTRL_EN n.val i.val) = !s.flag (fGTn_CMPk_CTRL_ONESHOT n.val i.val) ∧ pendBit t (gtPage n.val) i.val =
    true ∧ t.ev = matchedAt n.val i.val (fcycOf s) (withPulses [⟨s.fld (fGTn_CMPk_CTRL_EVOUTCH n.val i.val), (fcycOf s
    + 1) % 2 ^ 64, dueOf s (s.rd (rEVc_CFG (s.fld (fGTn_CMPk_CTRL_EVOUTCH n.val i.val)))) ((fcycOf s + 1) % 2 ^ 64),
    s.rd (rEVc_CFG (s.fld (fGTn_CMPk_CTRL_EVOUTCH n.val i.val)))⟩] s.ev) ∧ fcycOf t = fcycOf s) ∧
  (∀ (n : Fin 32) (k : BitVec 16), frozen s (gtPage n.val) = false → storeGet false s.ev.gtClr n.val = true →
    NoCapture s n.val → OneStep s k → (pageEn s (gtPage n.val) = false ∨ ∀ i : Fin 2, s.flag (fGTn_CMPk_CTRL_EN n.val
    i.val) = false ∨ s.fld (fGTn_CMPk_VALUE n.val i.val) ≠ 0) → Ends (.gtCompareMatch n k) s fun t => t.fld
    (fGTn_COUNT n.val) = 0 ∧ t.ev = clrAt false n.val s.ev ∧ Regs s t [(fGTn_COUNT n.val).key] ∧ NoEvents s
    { t with ev := s.ev } ∧ Kept s { t with ev := s.ev }) ∧
  (∀ (n : Fin 32) (i : Fin 2) (k : BitVec 16), frozen s (gtPage n.val) = false → storeGet false s.ev.gtClr n.val =
    true → NoCapture s n.val → OneStep s k → pageEn s (gtPage n.val) = true → s.flag (fGTn_CMPk_CTRL_EN n.val i.val) =
    true → s.fld (fGTn_CMPk_VALUE n.val i.val) = 0 → s.flag (fGTn_CMPk_CTRL_EN n.val (1 - i.val)) = false → s.flag
    (fGTn_CMPk_CTRL_EVOUT n.val i.val) = false → s.flag (fEV_ROUTE_DEST (gtPage n.val)) = false → Ends
    (.gtCompareMatch n k) s fun t => t.fld (fGTn_COUNT n.val) = 0 ∧ t.ev = matchedAt n.val i.val (fcycOf s) (clrAt
    false n.val s.ev) ∧ t.flag (fGTn_CMPk_STAT_MATCH n.val i.val) = true ∧ t.flag (fGTn_CMPk_CTRL_EN n.val i.val) =
    !s.flag (fGTn_CMPk_CTRL_ONESHOT n.val i.val) ∧ pendBit t (gtPage n.val) i.val = true ∧ RegsEv s t [(fGTn_COUNT
    n.val).key, (fGTn_CMPk_STAT_MATCH n.val i.val).key, (fGTn_CMPk_CTRL_EN n.val i.val).key] [gtPage n.val] ∧ Kept s
    t) ∧
  (∀ (n : Fin 32) (k : BitVec 16), frozen s (gtPage n.val) = false → storeGet false s.ev.gtCap n.val = true → storeGet
    false s.ev.gtClr n.val = false → s.flag (fGTn_CTRL_RUN n.val) = false → OneStep s k → s.flag (fGTn_STAT_CAPF
    n.val) = false → s.flag (fEV_ROUTE_DEST (gtPage n.val)) = false → Ends (.gtCompareMatch n k) s fun t => t.ev =
    captured n.val (fcycOf s + 1) (capturesLater false n.val s.ev) ∧ t.flag (fGTn_STAT_CAPF n.val) = true ∧ t.fld
    (fGTn_CAP n.val) = s.fld (fGTn_COUNT n.val) ∧ pendBit t (gtPage n.val) 2 = true ∧ RegsEv s t [(fGTn_STAT_CAPF
    n.val).key, (fGTn_CAP n.val).key] [gtPage n.val] ∧ Kept s t) ∧
  (∀ (n : Fin 32) (i : Fin 2) (v : Word), ¬ (s.flag (fGTn_CMPk_CTRL_EN n.val i.val) = true ∧ s.flag
    (fGTn_CMPk_CTRL_IMM n.val i.val) = true ∧ v.toNat ≤ s.fld (fGTn_RELOAD n.val) ∧ v.toNat ≤ s.fld (fGTn_COUNT
    n.val)) → ¬ (s.flag (fGTn_CMPk_CTRL_EN n.val i.val) = true ∧ s.fld (fGTn_RELOAD n.val) < v.toNat) → Ends
    (.gtCmpWrite n i v) s fun t => t.fld (fGTn_CMPk_VALUE n.val i.val) = v.toNat ∧ t.ev = deferredTo false n.val i.val
    s.ev ∧ Regs s t [(fGTn_CMPk_VALUE n.val i.val).key] ∧ NoEvents s { t with ev := s.ev } ∧ Kept s t) ∧
  (∀ (n : Fin 32) (i : Fin 2) (v : Word), s.flag (fGTn_CMPk_CTRL_EN n.val i.val) = true → s.fld (fGTn_RELOAD n.val) <
    v.toNat → Ends (.gtCmpWrite n i v) s fun t => t.fld (fGTn_CMPk_VALUE n.val i.val) = v.toNat ∧ t.flag
    (fGTn_CMPk_STAT_CMPRANGE n.val i.val) = true ∧ t.flag (fGTn_CMPk_STAT_MATCH n.val i.val) = s.flag
    (fGTn_CMPk_STAT_MATCH n.val i.val) ∧ Regs s t [(fGTn_CMPk_VALUE n.val i.val).key, (fGTn_CMPk_STAT_CMPRANGE n.val
    i.val).key] ∧ t.ev = deferredTo false n.val i.val s.ev ∧ NoEvents s { t with ev := s.ev } ∧ Kept s t) ∧
  (∀ (n : Fin 32) (i : Fin 2) (v : Word), s.flag (fGTn_CMPk_CTRL_EN n.val i.val) = true → s.flag (fGTn_CMPk_CTRL_IMM
    n.val i.val) = true → v.toNat ≤ s.fld (fGTn_RELOAD n.val) → v.toNat ≤ s.fld (fGTn_COUNT n.val) → ¬ MatchesNow s
    n.val i.val → Ends (.gtCmpWrite n i v) s fun t => t.fld (fGTn_CMPk_VALUE n.val i.val) = v.toNat ∧ t.ev =
    deferredTo true n.val i.val (deferredTo false n.val i.val s.ev) ∧ Regs s t [(fGTn_CMPk_VALUE n.val i.val).key] ∧
    NoEvents s { t with ev := s.ev } ∧ Kept s t) ∧
  (∀ (n : Fin 32) (i : Fin 2) (v : Word), s.flag (fGTn_CMPk_CTRL_EN n.val i.val) = true → s.flag (fGTn_CMPk_CTRL_IMM
    n.val i.val) = true → v.toNat ≤ s.fld (fGTn_RELOAD n.val) → v.toNat ≤ s.fld (fGTn_COUNT n.val) → MatchesNow s
    n.val i.val → s.flag (fGTn_CMPk_CTRL_EVOUT n.val i.val) = false → Ends (.gtCmpWrite n i v) s fun t => t.fld
    (fGTn_CMPk_VALUE n.val i.val) = v.toNat ∧ t.flag (fGTn_CMPk_STAT_MATCH n.val i.val) = true ∧ t.flag
    (fGTn_CMPk_CTRL_EN n.val i.val) = !s.flag (fGTn_CMPk_CTRL_ONESHOT n.val i.val) ∧ pendBit t (gtPage n.val) i.val =
    true ∧ RegsEv s t [(fGTn_CMPk_VALUE n.val i.val).key, (fGTn_CMPk_STAT_MATCH n.val i.val).key, (fGTn_CMPk_CTRL_EN
    n.val i.val).key] [gtPage n.val] ∧ Kept s t) ∧
  (∀ (n : Fin 32) (v : Word), s.flag (fGTn_CTRL_RUN n.val) = true → Ends (.gtCountWrite n v) s fun t => t.flag
    (fGTn_STAT_CFGREFUSED n.val) = true ∧ t.fld (fGTn_COUNT n.val) = s.fld (fGTn_COUNT n.val) ∧ pendBit t (gtPage
    n.val) 4 = true ∧ RegsEv s t [(fGTn_STAT_CFGREFUSED n.val).key] [gtPage n.val] ∧ Kept s t) ∧
  (∀ (n : Fin 32) (v : Word), s.flag (fGTn_CTRL_RUN n.val) = false → Ends (.gtCountWrite n v) s fun t => t.fld
    (fGTn_COUNT n.val) = v.toNat ∧ Regs s t [(fGTn_COUNT n.val).key] ∧ NoEvents s t ∧ Kept s t) ∧
  (∀ (n : Fin 32) (v : Word), s.flag (fGTn_CTRL_RUN n.val) = true → Ends (.gtReloadWrite n v) s fun t => t.flag
    (fGTn_STAT_CFGREFUSED n.val) = true ∧ t.fld (fGTn_RELOAD n.val) = s.fld (fGTn_RELOAD n.val) ∧ pendBit t (gtPage
    n.val) 4 = true ∧ RegsEv s t [(fGTn_STAT_CFGREFUSED n.val).key] [gtPage n.val] ∧ Kept s t) ∧
  (∀ (n : Fin 32) (v : Word), s.flag (fGTn_CTRL_RUN n.val) = false → Ends (.gtReloadWrite n v) s fun t => t.fld
    (fGTn_RELOAD n.val) = v.toNat ∧ Regs s t [(fGTn_RELOAD n.val).key] ∧ NoEvents s t ∧ Kept s t) ∧
  (∀ (n : Fin 32), Ends (.gtClr n) s fun t => t.ev = clrAt true n.val s.ev ∧ Regs s t [] ∧ NoEvents s
    { t with ev := s.ev } ∧ Kept s t) ∧
  (∀ (n : Fin 32), s.flag (fGTn_CTRL_RUN n.val) = true → Ends (.gtRunSet n) s fun t => t.flag (fGTn_CTRL_RUN n.val) =
    true ∧ Regs s t [] ∧ NoEvents s t ∧ Kept s t) ∧
  (∀ (n : Fin 32), s.flag (fGTn_CTRL_RUN n.val) = false → Ends (.gtRunSet n) s fun t => t.flag (fGTn_CTRL_RUN n.val) =
    true ∧ (∀ i : Fin 2, t.flag (fGTn_CMPk_STAT_CMPRANGE n.val i.val) = (s.flag (fGTn_CMPk_STAT_CMPRANGE n.val i.val)
    || (s.flag (fGTn_CMPk_CTRL_EN n.val i.val) && decide (s.fld (fGTn_RELOAD n.val) < s.fld (fGTn_CMPk_VALUE n.val
    i.val))))) ∧ Regs s t [(fGTn_CTRL_RUN n.val).key, (fGTn_CMPk_STAT_CMPRANGE n.val 0).key, (fGTn_CMPk_STAT_CMPRANGE
    n.val 1).key] ∧ NoEvents s t ∧ Kept s t) ∧
  (∀ (g : Fin 16) (i : Fin 16), s.ev.cfgOld = [] → s.ev.genOld = [] → natBit (s.rd (rEVc_CFG (16 * g.val +
    i.val))).toNat 31 = false → Ends (.egSwPulse g (BitVec.ofNat 16 (2 ^ i.val))) s fun t => t = s) ∧
  (∀ (g : Fin 16) (i : Fin 16), s.ev.cfgOld = [] → s.ev.genOld = [] → natBit (s.rd (rEVc_CFG (16 * g.val +
    i.val))).toNat 31 = true → s.flag (fEGg_CTRL_GEN g.val) = false → Ends (.egSwPulse g (BitVec.ofNat 16 (2 ^
    i.val))) s fun t => t.fld (fEGg_DROP g.val) = satInc (fEGg_DROP g.val).width (s.fld (fEGg_DROP g.val)) ∧ (s.fld
    (fEGg_DROP g.val) ≠ 0 ∨ pendBit t (egPage g.val) 0 = true) ∧ t.ev = s.ev ∧ t.cores = s.cores) ∧
  (∀ (g : Fin 16) (i : Fin 16), s.ev.cfgOld = [] → s.ev.genOld = [] → natBit (s.rd (rEVc_CFG (16 * g.val +
    i.val))).toNat 31 = true → s.flag (fEGg_CTRL_GEN g.val) = true → (∃ p ∈ s.ev.pulses, p.ch = 16 * g.val + i.val ∧
    p.cyc = fcycOf s) → Ends (.egSwPulse g (BitVec.ofNat 16 (2 ^ i.val))) s fun t => t.fld (fEGg_MERGE g.val) =
    natBitSet (s.fld (fEGg_MERGE g.val)) i.val true ∧ (natBit (s.fld (fEGg_MERGE g.val)) i.val = true ∨ pendBit t
    (egPage g.val) 1 = true) ∧ t.ev.pulses.filter (fun p => p.ch == 16 * g.val + i.val) = s.ev.pulses.filter (fun p =>
    p.ch == 16 * g.val + i.val) ∧ t.cores = s.cores) ∧
  (∀ (g : Fin 16) (v : BitVec 16), s.ev.cfgOld = [] → s.ev.genOld = [] → s.ev.pulses = [] → s.flag (fEGg_CTRL_GEN
    g.val) = true → (∀ i : Fin 16, v.getLsbD i.val = false ∨ natBit (s.rd (rEVc_CFG (16 * g.val + i.val))).toNat 31 =
    true) → Ends (.egSwPulse g v) s fun t => t.ev = withPulses (((List.range 16).filter fun i => v.getLsbD i).map fun
    i => ⟨16 * g.val + i, fcycOf s, dueOf s (s.rd (rEVc_CFG (16 * g.val + i))) (fcycOf s), s.rd (rEVc_CFG (16 * g.val
    + i))⟩) s.ev ∧ Regs s t [] ∧ NoEvents s { t with ev := s.ev } ∧ Kept s t) ∧
  (∀ (ch : BitVec 8), frozen s (egPage (ch.toNat / 16)) = true ∨ (∀ p ∈ s.ev.pulses, p.ch ≠ ch.toNat) → Ends
    (.eventChannelDelivery ch) s fun t => t = s) ∧
  (∀ (ch : BitVec 8) (p : Pulse), Oldest s ch.toNat p → NoTimer s p.ch → (p.cfg &&& 0x0F808000) = 0 → Ends
    (.eventChannelDelivery ch) s fun t => t.ev = withPulses (s.ev.pulses.erase p) s.ev ∧ Regs s t [] ∧ NoEvents s
    { t with ev := s.ev } ∧ Kept s t) ∧
  (∀ (ch : BitVec 8) (p : Pulse), Oldest s ch.toNat p → NoTimer s p.ch → (p.cfg &&& 0x00808000) = 0 → (∀ n : Fin 4,
    p.cfg.getLsbD (24 + n.val) = false ∨ (s.core n.val).wait = none) → Ends (.eventChannelDelivery ch) s fun t => t.ev
    = withPulses (s.ev.pulses.erase p) s.ev ∧ (∀ n : Fin 4, t.core n.val = if p.cfg.getLsbD (24 + n.val) then
    flaggedAt (fcycOf s) (s.core n.val) else s.core n.val) ∧ t.core 4 = s.core 4 ∧ Regs s t [] ∧ NoEvents s
    { t with ev := s.ev } ∧ Kept s { t with cores := s.cores }) ∧
  (∀ (ch : BitVec 8) (p : Pulse) (n : Fin 4) (l : Option Nat), Oldest s ch.toNat p → NoTimer s p.ch → p.cfg &&&
    0x0F808000 = BitVec.ofNat 32 (2 ^ (24 + n.val)) → (s.core n.val).wait = some (.evw l) → Ends
    (.eventChannelDelivery ch) s fun t => t.ev = withPulses (s.ev.pulses.erase p) s.ev ∧ t.core n.val = unwaited'
    (fcycOf s) (s.core n.val) ∧ (∀ m : Fin 5, m.val ≠ n.val → t.core m.val = s.core m.val) ∧ Regs s t [] ∧ NoEvents s
    { t with ev := s.ev } ∧ Kept s { t with cores := s.cores }) ∧
  (∀ (ch : BitVec 8) (p : Pulse), Oldest s ch.toNat p → NoTimer s p.ch → p.cfg &&& 0x0F808000 = 0x00800000 → Ends
    (.eventChannelDelivery ch) s fun t => t.ev = withPulses (s.ev.pulses.erase p) s.ev ∧ t.core (bitsGet p.cfg 21 2) =
    interruptedAt (bitsGet p.cfg 16 4) (fcycOf s) (s.core (bitsGet p.cfg 21 2)) ∧ (∀ m : Fin 5, m.val ≠ bitsGet p.cfg
    21 2 → t.core m.val = s.core m.val) ∧ Regs s t [] ∧ NoEvents s { t with ev := s.ev } ∧ Kept s
    { t with cores := s.cores }) ∧
  (∀ (ch : BitVec 8) (p : Pulse) (n : Fin 32), Oldest s ch.toNat p → p.cfg &&& 0x0F808000 = 0 → (∀ m : Fin 32, m ≠ n →
    (s.flag (fGTn_EVIN_CAPEN m.val) = false ∨ s.fld (fGTn_EVIN_CAPCH m.val) ≠ p.ch) ∧ (s.flag (fGTn_EVIN_RSTEN m.val)
    = false ∨ s.fld (fGTn_EVIN_RSTCH m.val) ≠ p.ch)) → s.flag (fGTn_EVIN_CAPEN n.val) = true → s.fld (fGTn_EVIN_CAPCH
    n.val) = p.ch → s.flag (fGTn_EVIN_RSTEN n.val) = false ∨ s.fld (fGTn_EVIN_RSTCH n.val) ≠ p.ch → s.flag
    (fEV_ROUTE_DEST (gtPage n.val)) = false → s.flag (fGTn_STAT_CAPF n.val) = false → Ends (.eventChannelDelivery ch)
    s fun t => t.ev = captured n.val (fcycOf s + 1) (withPulses (s.ev.pulses.erase p) s.ev) ∧ t.flag (fGTn_STAT_CAPF
    n.val) = true ∧ t.fld (fGTn_CAP n.val) = s.fld (fGTn_COUNT n.val) ∧ pendBit t (gtPage n.val) 2 = true ∧ RegsEv s t
    [(fGTn_STAT_CAPF n.val).key, (fGTn_CAP n.val).key] [gtPage n.val] ∧ Kept s t) ∧
  (∀ (ch : BitVec 8) (p : Pulse) (n : Fin 32), Oldest s ch.toNat p → p.cfg &&& 0x0F808000 = 0 → (∀ m : Fin 32, m ≠ n →
    (s.flag (fGTn_EVIN_CAPEN m.val) = false ∨ s.fld (fGTn_EVIN_CAPCH m.val) ≠ p.ch) ∧ (s.flag (fGTn_EVIN_RSTEN m.val)
    = false ∨ s.fld (fGTn_EVIN_RSTCH m.val) ≠ p.ch)) → s.flag (fGTn_EVIN_CAPEN n.val) = true → s.fld (fGTn_EVIN_CAPCH
    n.val) = p.ch → s.flag (fGTn_EVIN_RSTEN n.val) = false ∨ s.fld (fGTn_EVIN_RSTCH n.val) ≠ p.ch → s.flag
    (fEV_ROUTE_DEST (gtPage n.val)) = false → s.flag (fGTn_STAT_CAPF n.val) = true → storeGet 0 s.ev.capCyc n.val ≠
    fcycOf s + 1 → Ends (.eventChannelDelivery ch) s fun t => t.ev = captured n.val (fcycOf s + 1) (withPulses
    (s.ev.pulses.erase p) s.ev) ∧ t.flag (fGTn_STAT_CAPOVR n.val) = true ∧ t.fld (fGTn_CAP n.val) = s.fld (fGTn_CAP
    n.val) ∧ pendBit t (gtPage n.val) 3 = true ∧ RegsEv s t [(fGTn_STAT_CAPF n.val).key] [gtPage n.val] ∧ Kept s t) ∧
  (∀ (ch : BitVec 8) (p : Pulse) (n : Fin 32), (s.ev.pulses.find? fun x => x.ch == ch.toNat) = some p → frozen s
    (egPage (ch.toNat / 16)) = false → s.pwr.mode ≠ .run → s.flag fPWR_WAKE_WAKEEN = false → p.cfg &&& 0x0F808000 = 0
    → (∀ m : Fin 32, m ≠ n → (s.flag (fGTn_EVIN_CAPEN m.val) = false ∨ s.fld (fGTn_EVIN_CAPCH m.val) ≠ p.ch) ∧ (s.flag
    (fGTn_EVIN_RSTEN m.val) = false ∨ s.fld (fGTn_EVIN_RSTCH m.val) ≠ p.ch)) → s.flag (fGTn_EVIN_CAPEN n.val) = true →
    s.fld (fGTn_EVIN_CAPCH n.val) = p.ch → s.flag (fGTn_EVIN_RSTEN n.val) = false ∨ s.fld (fGTn_EVIN_RSTCH n.val) ≠
    p.ch → Ends (.eventChannelDelivery ch) s fun t => t.ev = capturesLater true n.val (withPulses (s.ev.pulses.erase
    p) s.ev) ∧ Regs s t [] ∧ NoEvents s { t with ev := s.ev } ∧ Kept s t) ∧
  (∀ (ch : BitVec 8) (p : Pulse) (n : Fin 32), Oldest s ch.toNat p → p.cfg &&& 0x0F808000 = 0 → (∀ m : Fin 32, m ≠ n →
    (s.flag (fGTn_EVIN_CAPEN m.val) = false ∨ s.fld (fGTn_EVIN_CAPCH m.val) ≠ p.ch) ∧ (s.flag (fGTn_EVIN_RSTEN m.val)
    = false ∨ s.fld (fGTn_EVIN_RSTCH m.val) ≠ p.ch)) → s.flag (fGTn_EVIN_CAPEN n.val) = false ∨ s.fld (fGTn_EVIN_CAPCH
    n.val) ≠ p.ch → s.flag (fGTn_EVIN_RSTEN n.val) = true → s.fld (fGTn_EVIN_RSTCH n.val) = p.ch → Ends
    (.eventChannelDelivery ch) s fun t => t.ev = clrAt true n.val (withPulses (s.ev.pulses.erase p) s.ev) ∧ Regs s t
    [] ∧ NoEvents s { t with ev := s.ev } ∧ Kept s t) ∧
  (∀ (ch : BitVec 8) (p : Pulse), Oldest s ch.toNat p → NoTimer s p.ch → p.cfg &&& 0x0F808000 = 0x00008000 → storeGet
    0 s.ev.genWr (bitsGet p.cfg 8 4) ≠ fcycOf s + 1 → p.cfg.getLsbD 14 = false ∨ storeGet 0 s.ev.genOff (bitsGet p.cfg
    8 4) ≠ fcycOf s + 1 → Ends (.eventChannelDelivery ch) s fun t => t.flag (fEGg_CTRL_GEN (bitsGet p.cfg 8 4)) =
    p.cfg.getLsbD 14 ∧ t.ev.pulses = s.ev.pulses.erase p ∧ genNow t (bitsGet p.cfg 8 4) = genNow s (bitsGet p.cfg 8 4)
    ∧ Regs s t [(fEGg_CTRL_GEN (bitsGet p.cfg 8 4)).key] ∧ t.evPay = s.evPay ∧ Kept s t) ∧
  (∀ (ch : BitVec 8) (p : Pulse), Oldest s ch.toNat p → NoTimer s p.ch → p.cfg &&& 0x0F808000 = 0x00008000 → storeGet
    0 s.ev.genWr (bitsGet p.cfg 8 4) = fcycOf s + 1 → Ends (.eventChannelDelivery ch) s fun t => t.flag
    (fEGg_STAT_ACTLOST (bitsGet p.cfg 8 4)) = true ∧ t.flag (fEGg_CTRL_GEN (bitsGet p.cfg 8 4)) = s.flag
    (fEGg_CTRL_GEN (bitsGet p.cfg 8 4)) ∧ pendBit t (egPage (bitsGet p.cfg 8 4)) 2 = true ∧ t.cores = s.cores) ∧
  (∀ (ch : BitVec 8) (p : Pulse), (s.ev.pulses.find? fun x => x.ch == ch.toNat) = some p → frozen s (egPage (ch.toNat
    / 16)) = false → s.pwr.mode ≠ .run → s.flag fPWR_WAKE_WAKEEN = true → s.fld fPWR_WAKE_WAKECH = p.ch → NoTimer s
    p.ch → (p.cfg &&& 0x0F808000) = 0 → Ends (.eventChannelDelivery ch) s fun t => t.pwr = wokenUp s.pwr ∧ t.ev =
    withPulses (s.ev.pulses.erase p) s.ev ∧ Regs s t [] ∧ NoEvents s { t with ev := s.ev } ∧ Kept s
    { t with pwr := s.pwr }) ∧
  (∀ (ch : BitVec 8) (v : Word), lockHeld s (rEVc_CFG ch.toNat / 1024) = false → Ends (.evCfgWrite ch v) s fun t =>
    WrittenLater s t ch.toNat v ∧ Regs s t [rEVc_CFG ch.toNat] ∧ NoEvents s { t with ev := s.ev } ∧ t.ev.pulses =
    s.ev.pulses ∧ Kept s t) ∧
  (∀ (ch : BitVec 8) (v : Word), lockHeld s (rEVc_CFG ch.toNat / 1024) = true → Ends (.evCfgWrite ch v) s fun t =>
    WrittenLater s t ch.toNat v ∧ t.flag (fPAGE_STAT_REFUSED (rEVc_CFG ch.toNat / 1024)) = (s.flag (fPAGE_STAT_REFUSED
    (rEVc_CFG ch.toNat / 1024)) || changesLocked (rEVc_CFG ch.toNat) (s.rd (rEVc_CFG ch.toNat)) v) ∧ Regs s t
    [rEVc_CFG ch.toNat, rPAGE_STAT (rEVc_CFG ch.toNat / 1024)] ∧ Kept s t) ∧
  (∀ (g : Fin 16) (v : Word), lockHeld s (egPage g.val) = false → storeGet 0 s.ev.genOld g.val / 2 ≠ fcycOf s + 1 →
    Ends (.egCtrlWrite g v) s fun t => t.rd (rEGg_CTRL g.val) = writeFields (rEGg_CTRL g.val) false (s.rd (rEGg_CTRL
    g.val)) v ∧ storeGet 0 t.ev.genWr g.val = fcycOf s + 1 ∧ t.ev.pulses = s.ev.pulses ∧ Regs s t [rEGg_CTRL g.val] ∧
    NoEvents s { t with ev := s.ev } ∧ Kept s t) ∧
  (∀ (g : Fin 16) (v : Word), lockHeld s (egPage g.val) = false → storeGet 0 s.ev.genOld g.val / 2 = fcycOf s + 1 →
    s.flag (fEV_ROUTE_DEST (egPage g.val)) = false → Ends (.egCtrlWrite g v) s fun t => t.rd (rEGg_CTRL g.val) =
    writeFields (rEGg_CTRL g.val) false (s.rd (rEGg_CTRL g.val)) v ∧ storeGet 0 t.ev.genWr g.val = fcycOf s + 1 ∧
    t.ev.pulses = s.ev.pulses ∧ t.flag (fEGg_STAT_ACTLOST g.val) = true ∧ pendBit t (egPage g.val) 2 = true ∧ RegsEv s
    t [rEGg_CTRL g.val] [egPage g.val] ∧ Kept s t)

/-- R454 to R461, R464, R465, R497, R511: the states of the lane pairs and of the pair link; the cells of a class delivered in
sequence, held, dropped or acknowledged; retransmission; the link cells. -/
def Obligations.SluiceLink : Prop := ∀ (s : State), 
  (∀ (i : Fin 4), frozen s slPg = true ∨ slPair s i.val ≠ 0 → Ends (.sluiceSignalDetect (.sluice i)) s fun t => t = s) ∧
  (frozen s plPg = true ∨ plLane s ≠ 0 → Ends (.sluiceSignalDetect .pairLink) s fun t => t = s) ∧
  (∀ (i : Fin 4), ¬ Rested s (pairFell s i.val) → Ends (.sluiceSignalDetect (.sluice i)) s fun t => t = s) ∧
  (¬ Rested s s.dup.fell → Ends (.sluiceSignalDetect .pairLink) s fun t => t = s) ∧
  (∀ (i : Fin 4), frozen s slPg = false → slPair s i.val = 0 → Rested s (pairFell s i.val) → Ends (.sluiceSignalDetect
    (.sluice i)) s fun t => PairNow s t i.val 1 ∧ Regs s t pairRegs ∧ NoEvents s t ∧ Kept s t) ∧
  (frozen s plPg = false → plLane s = 0 → Rested s s.dup.fell → Ends (.sluiceSignalDetect .pairLink) s fun t => plLane
    t = 1 ∧ plPaired t = plPaired s ∧ t.fld fPL_STAT_ARB = s.fld fPL_STAT_ARB ∧ Regs s t [rPL_STAT] ∧ NoEvents s t ∧
    Kept s t) ∧
  (∀ (i : Fin 4), frozen s slPg = true ∨ slPair s i.val ≠ 1 → Ends (.sluicePairLock (.sluice i)) s fun t => t = s) ∧
  (frozen s plPg = true ∨ plLane s ≠ 1 → Ends (.sluicePairLock .pairLink) s fun t => t = s) ∧
  (∀ (i : Fin 4), frozen s slPg = false → slPair s i.val = 1 → Ends (.sluicePairLock (.sluice i)) s fun t => PairNow s
    t i.val 2 ∧ Regs s t pairRegs ∧ NoEvents s t ∧ Kept s t) ∧
  (frozen s plPg = false → plLane s = 1 → Ends (.sluicePairLock .pairLink) s fun t => plLane t = 2 ∧ plPaired t =
    plPaired s ∧ t.fld fPL_STAT_ARB = s.fld fPL_STAT_ARB ∧ Regs s t [rPL_STAT] ∧ NoEvents s t ∧ Kept s t) ∧
  (∀ (i : Fin 4) (rf rh : BitVec 12), frozen s slPg = true ∨ slPair s i.val ≠ 2 → Ends (.pairUp (.sluice i) rf rh) s
    fun t => t = s) ∧
  (∀ (rf rh : BitVec 12), frozen s plPg = true ∨ plLane s ≠ 2 → Ends (.pairUp .pairLink rf rh) s fun t => t = s) ∧
  (∀ (i : Fin 4), frozen s slPg = true ∨ slPair s i.val ≠ 3 → Ends (.pairDown (.sluice i)) s fun t => t = s) ∧
  (frozen s plPg = true ∨ plLane s ≠ 3 → Ends (.pairDown .pairLink) s fun t => t = s) ∧
  (frozen s plPg = false → plLane s = 3 → Ends (.pairDown .pairLink) s fun t => plLane t = 0 ∧ plPaired t = plPaired s
    ∧ t.fld fPL_STAT_ARB = s.fld fPL_STAT_ARB ∧ Regs s t [rPL_STAT] ∧ NoEvents s t ∧ Kept s { t with dup := s.dup } ∧
    t.dup = { s.dup with fell := fcycOf s + 1 }) ∧
  (∀ (i : Fin 4), frozen s slPg = true ∨ slPair s i.val ≠ 0 → Ends (.sluicePairRelock (.sluice i)) s fun t => t = s) ∧
  (frozen s plPg = true ∨ plLane s ≠ 0 → Ends (.sluicePairRelock .pairLink) s fun t => t = s) ∧
  (∀ (i : Fin 4), pairFell s i.val = 0 → Ends (.sluicePairRelock (.sluice i)) s fun t => t = s) ∧
  (s.dup.fell = 0 → Ends (.sluicePairRelock .pairLink) s fun t => t = s) ∧
  (∀ (i : Fin 4), ¬ Rested s (pairFell s i.val) → Ends (.sluicePairRelock (.sluice i)) s fun t => t = s) ∧
  (¬ Rested s s.dup.fell → Ends (.sluicePairRelock .pairLink) s fun t => t = s) ∧
  (∀ (i : Fin 4), frozen s slPg = false → slPair s i.val = 0 → pairFell s i.val ≠ 0 → Rested s (pairFell s i.val) →
    Ends (.sluicePairRelock (.sluice i)) s fun t => PairNow s t i.val 1 ∧ Regs s t pairRegs ∧ NoEvents s t ∧ Kept s t) ∧
  (frozen s plPg = false → plLane s = 0 → s.dup.fell ≠ 0 → Rested s s.dup.fell → Ends (.sluicePairRelock .pairLink) s
    fun t => plLane t = 1 ∧ plPaired t = plPaired s ∧ t.fld fPL_STAT_ARB = s.fld fPL_STAT_ARB ∧ Regs s t [rPL_STAT] ∧
    NoEvents s t ∧ Kept s t) ∧
  (∀ (rf rh : BitVec 12), frozen s plPg = false → plLane s = 2 → Ends (.pairUp .pairLink rf rh) s fun t => plLane t =
    (if ((rf.toNat + 1) / 2) ≤ 200 then 3 else 0) ∧ t.fld fPL_LAT = min 255 ((rf.toNat + 1) / 2) ∧ plPaired t =
    plPaired s ∧ t.fld fPL_STAT_ARB = s.fld fPL_STAT_ARB ∧ Regs s t [rPL_STAT, fPL_LAT.key] ∧ NoEvents s t ∧ t.dup =
    (if ((rf.toNat + 1) / 2) ≤ 200 then s.dup else { s.dup with fell := fcycOf s + 1 }) ∧ Kept s
    { t with dup := s.dup }) ∧
  (∀ (i : Fin 4) (rf rh : BitVec 12), frozen s slPg = false → slPair s i.val = 2 → 40 < ((rf.toNat + 1) / 2) ∨ 40 <
    ((rh.toNat + 1) / 2) → Ends (.pairUp (.sluice i) rf rh) s fun t => ByteNow t rSL_LAT i.val (((rh.toNat + 1) / 2) %
    256) ∧ ByteNow t rSH_LAT i.val (((rf.toNat + 1) / 2) % 256) ∧ (∀ j : Fin 4, j ≠ i → bitsGet (t.rd rSL_LAT) (8 *
    j.val) 8 = bitsGet (s.rd rSL_LAT) (8 * j.val) 8 ∧ bitsGet (t.rd rSH_LAT) (8 * j.val) 8 = bitsGet (s.rd rSH_LAT) (8
    * j.val) 8) ∧ PairNow s t i.val 0 ∧ pairFell t i.val = fcycOf s + 1 ∧ { t.sl with fell := s.sl.fell } = s.sl ∧
    Regs s t [rSL_PSTAT, rSH_PSTAT, rSL_LAT, rSH_LAT] ∧ NoEvents s { t with sl := s.sl } ∧ Kept s t) ∧
  (∀ (i : Fin 4) (rf rh : BitVec 12), frozen s slPg = false → slPair s i.val = 2 → ((rf.toNat + 1) / 2) ≤ 40 ∧
    ((rh.toNat + 1) / 2) ≤ 40 → slUp s = true → Ends (.pairUp (.sluice i) rf rh) s fun t => ByteNow t rSL_LAT i.val
    (((rh.toNat + 1) / 2) % 256) ∧ ByteNow t rSH_LAT i.val (((rf.toNat + 1) / 2) % 256) ∧ (∀ j : Fin 4, j ≠ i →
    bitsGet (t.rd rSL_LAT) (8 * j.val) 8 = bitsGet (s.rd rSL_LAT) (8 * j.val) 8 ∧ bitsGet (t.rd rSH_LAT) (8 * j.val) 8
    = bitsGet (s.rd rSH_LAT) (8 * j.val) 8) ∧ PairNow s t i.val 3 ∧ pendBit t slPg 1 = true ∧ pendBit t shPg 1 = true
    ∧ RegsEv s t [rSL_PSTAT, rSH_PSTAT, rSL_LAT, rSH_LAT] [slPg, shPg] ∧ Kept s t) ∧
  (∀ (i : Fin 4) (rf rh : BitVec 12), frozen s slPg = false → slPair s i.val = 2 → ((rf.toNat + 1) / 2) ≤ 40 ∧
    ((rh.toNat + 1) / 2) ≤ 40 → slUp s = false → s.sl.evLost = 0 → s.sl.timeWait = none → Ends (.pairUp (.sluice i) rf
    rh) s fun t => ByteNow t rSL_LAT i.val (((rh.toNat + 1) / 2) % 256) ∧ ByteNow t rSH_LAT i.val (((rf.toNat + 1) /
    2) % 256) ∧ (∀ j : Fin 4, j ≠ i → bitsGet (t.rd rSL_LAT) (8 * j.val) 8 = bitsGet (s.rd rSL_LAT) (8 * j.val) 8 ∧
    bitsGet (t.rd rSH_LAT) (8 * j.val) 8 = bitsGet (s.rd rSH_LAT) (8 * j.val) 8) ∧ PairNow s t i.val 3 ∧ pendBit t
    slPg 1 = true ∧ pendBit t shPg 1 = true ∧ pendBit t slPg 3 = true ∧ pendBit t shPg 3 = true ∧ (pendBit t slPg 4 =
    true ↔ pendBit s slPg 4 = true) ∧ RegsEv s t [rSL_PSTAT, rSH_PSTAT, rSL_LAT, rSH_LAT] [slPg, shPg] ∧ Kept s t) ∧
  (∀ (i : Fin 4) (rf rh : BitVec 12), frozen s slPg = false → slPair s i.val = 2 → ((rf.toNat + 1) / 2) ≤ 40 ∧
    ((rh.toNat + 1) / 2) ≤ 40 → slUp s = false → s.sl.evLost ≠ 0 → s.sl.timeWait = none → Ends (.pairUp (.sluice i) rf
    rh) s fun t => PairNow s t i.val 3 ∧ Posted s t slPg 4 2 (bytesOfNat 4 s.sl.evLost ++ List.replicate 12 0) ∧
    t.sl.evLost = 0 ∧ t.fld fSL_EVDROP = 0 ∧ RegsEv s t [rSL_PSTAT, rSH_PSTAT, rSL_LAT, rSH_LAT, fSL_EVDROP.key]
    [slPg, shPg] ∧ Kept s t) ∧
  (∀ (i : Fin 4) (rf rh : BitVec 12) (f : Nat), frozen s slPg = false → slPair s i.val = 2 → ((rf.toNat + 1) / 2) ≤ 40
    ∧ ((rh.toNat + 1) / 2) ≤ 40 → slUp s = false → s.sl.evLost = 0 → s.sl.timeWait = some f → fcycOf s ≤ f + 15360 →
    Ends (.pairUp (.sluice i) rf rh) s fun t => PairNow s t i.val 3 ∧ t.sl.timeWait = none ∧ (slTxOf t 6).cells =
    (slTxOf s 6).cells ++ [⟨(slTxOf s 6).next % 65536, 0, 1, .timeF (fcycOf s) (angleOf s) (tickNo s) (rateOf s)
    (s.fld fTB_N) ((s.rd rTB_STAT).toNat % 256)⟩]) ∧
  (∀ (i : Fin 4), frozen s slPg = false → slPair s i.val = 3 → (∃ j : Fin 4, j ≠ i ∧ slPair s j.val = 3) → Ends
    (.pairDown (.sluice i)) s fun t => PairNow s t i.val 0 ∧ pairFell t i.val = fcycOf s + 1 ∧ pendBit t slPg 0 = true
    ∧ pendBit t shPg 0 = true ∧ (pendBit t slPg 2 = true ↔ pendBit s slPg 2 = true) ∧ RegsEv s t pairRegs [slPg, shPg]
    ∧ Kept s t) ∧
  (∀ (i : Fin 4), frozen s slPg = false → slPair s i.val = 3 → (∀ j : Fin 4, j ≠ i → slPair s j.val ≠ 3) → Ends
    (.pairDown (.sluice i)) s fun t => PairNow s t i.val 0 ∧ pairFell t i.val = fcycOf s + 1 ∧ pendBit t slPg 0 = true
    ∧ pendBit t shPg 0 = true ∧ pendBit t slPg 2 = true ∧ pendBit t shPg 2 = true ∧ t.flag fPWR_STAT_HDIP = false ∧
    RegsEv s t (rPWR_STAT :: pairRegs) [slPg, shPg] ∧ Kept s t) ∧
  (∀ (dir : Bool) (p : Fin 4) (data : Bool) (ack : Option (Fin 8)) (ctl good : Bool), frozen s slPg = true ∨ (slPair s
    p.val ≠ 3 ∧ NoDebug s.sl.inF) → Ends (.sluiceCellReceive dir p data ack ctl good) s fun t => t = s) ∧
  (∀ (dir : Bool) (p : Fin 4) (ack : Option (Fin 8)) (ctl good : Bool), frozen s slPg = false → slPair s p.val = 3 →
    NoDebug s.sl.inF → (ctl && good) = false → Ends (.sluiceCellReceive dir p false ack ctl good) s fun t => ByteNow t
    (if dir then rSL_CRCERR else rSH_CRCERR) p.val (satInc 8 (bitsGet (s.rd (if dir then rSL_CRCERR else rSH_CRCERR))
    (8 * p.val) 8)) ∧ Regs s t [if dir then rSL_CRCERR else rSH_CRCERR] ∧ NoEvents s t ∧ Kept s t) ∧
  (∀ (dir : Bool) (p : Fin 4), frozen s slPg = false → slPair s p.val = 3 → NoDebug s.sl.inF → Ends
    (.sluiceCellReceive dir p false none true true) s fun t => t = s) ∧
  (∀ (dir : Bool) (p : Fin 4) (ack : Option (Fin 8)) (ctl good : Bool), frozen s slPg = false → slPair s p.val = 3 →
    NoDebug s.sl.inF → (ctl && good) = false → laneFly s dir p = none → Ends (.sluiceCellReceive dir p true ack ctl
    good) s fun t => t = s) ∧
  (∀ (dir : Bool) (p : Fin 4) (cls : Fin 8) (c : SlCell) (ctl good : Bool), frozen s slPg = false → slPair s p.val = 3
    → NoDebug s.sl.inF → (ctl && good) = false → OnLane s dir p cls c → Ends (.sluiceCellReceive dir p true none ctl
    good) s fun t => ByteNow t (if dir then rSL_CRCERR else rSH_CRCERR) p.val (satInc 8 (bitsGet (s.rd (if dir then
    rSL_CRCERR else rSH_CRCERR)) (8 * p.val) 8)) ∧ Regs s t [if dir then rSL_CRCERR else rSH_CRCERR] ∧
    { t.sl with lanes := s.sl.lanes } = s.sl ∧ NoEvents s { t with sl := s.sl } ∧ Kept s t) ∧
  (∀ (dir : Bool) (p : Fin 4) (cls : Fin 8) (c : SlCell), frozen s slPg = false → slPair s p.val = 3 → NoDebug
    s.sl.inF → OnLane s dir p cls c → ahead s dir cls c = 0 → (slRxOf s (keyOf dir cls)).held = [] → NoDebug (inboxF
    dir c s.sl.inF) → Ends (.sluiceCellReceive dir p true none true true) s fun t => slRxOf t (keyOf dir cls) =
    ⟨((slRxOf s (keyOf dir cls)).exp + 1) % 65536, []⟩ ∧ t.sl.inF = inboxF dir c s.sl.inF ∧ t.sl.inH = inboxH dir c
    s.sl.inH ∧ OtherRx s t (keyOf dir cls) ∧
    { t.sl with rx := s.sl.rx, inF := s.sl.inF, inH := s.sl.inH, lanes := s.sl.lanes } = s.sl ∧ Regs s t [] ∧ NoEvents
    s { t with sl := s.sl } ∧ Kept s t) ∧
  (∀ (dir : Bool) (p : Fin 4) (cls : Fin 8) (c : SlCell) (h : SlCell), frozen s slPg = false → slPair s p.val = 3 →
    NoDebug s.sl.inF → OnLane s dir p cls c → ahead s dir cls c = 0 → (slRxOf s (keyOf dir cls)).held = [h] → h.seq =
    ((slRxOf s (keyOf dir cls)).exp + 1) % 65536 → NoDebug (inboxF dir h (inboxF dir c s.sl.inF)) → Ends
    (.sluiceCellReceive dir p true none true true) s fun t => slRxOf t (keyOf dir cls) = ⟨((slRxOf s (keyOf dir
    cls)).exp + 2) % 65536, []⟩ ∧ t.sl.inF = inboxF dir h (inboxF dir c s.sl.inF) ∧ t.sl.inH = inboxH dir h (inboxH
    dir c s.sl.inH) ∧ OtherRx s t (keyOf dir cls) ∧ t.sl.tx = s.sl.tx ∧ Regs s t [] ∧ NoEvents s { t with sl := s.sl }
    ∧ Kept s t) ∧
  (∀ (dir : Bool) (p : Fin 4) (cls : Fin 8) (c : SlCell), frozen s slPg = false → slPair s p.val = 3 → NoDebug
    s.sl.inF → OnLane s dir p cls c → ahead s dir cls c ≠ 0 → ahead s dir cls c < 64 → (∀ h ∈ (slRxOf s (keyOf dir
    cls)).held, h.seq ≠ c.seq) → Ends (.sluiceCellReceive dir p true none true true) s fun t => slRxOf t (keyOf dir
    cls) = ⟨(slRxOf s (keyOf dir cls)).exp, (slRxOf s (keyOf dir cls)).held ++ [c]⟩ ∧ OtherRx s t (keyOf dir cls) ∧
    t.sl.tx = s.sl.tx ∧ t.sl.inF = s.sl.inF ∧ t.sl.inH = s.sl.inH ∧ Regs s t [] ∧ NoEvents s { t with sl := s.sl } ∧
    Kept s t) ∧
  (∀ (dir : Bool) (p : Fin 4) (cls : Fin 8) (c : SlCell), frozen s slPg = false → slPair s p.val = 3 → NoDebug
    s.sl.inF → OnLane s dir p cls c → 64 ≤ ahead s dir cls c ∨ (ahead s dir cls c ≠ 0 ∧ ∃ h ∈ (slRxOf s (keyOf dir
    cls)).held, h.seq = c.seq) → dir = true → Ends (.sluiceCellReceive dir p true none true true) s fun t => t.fld
    fSL_DUPDROP = satInc 32 (s.fld fSL_DUPDROP) ∧ Regs s t [fSL_DUPDROP.key] ∧ { t.sl with lanes := s.sl.lanes } =
    s.sl ∧ NoEvents s { t with sl := s.sl } ∧ Kept s t) ∧
  (∀ (dir : Bool) (p : Fin 4) (cls : Fin 8) (c : SlCell), frozen s slPg = false → slPair s p.val = 3 → NoDebug
    s.sl.inF → OnLane s dir p cls c → 64 ≤ ahead s dir cls c ∨ (ahead s dir cls c ≠ 0 ∧ ∃ h ∈ (slRxOf s (keyOf dir
    cls)).held, h.seq = c.seq) → dir = false → Ends (.sluiceCellReceive dir p true none true true) s fun t => Regs s t
    [] ∧ { t.sl with lanes := s.sl.lanes } = s.sl ∧ NoEvents s { t with sl := s.sl } ∧ Kept s t) ∧
  (∀ (dir : Bool) (p : Fin 4) (cls : Fin 8), frozen s slPg = false → slPair s p.val = 3 → NoDebug s.sl.inF → Ends
    (.sluiceCellReceive dir p false (some cls) true true) s fun t => (slTxOf t (keyOf (!dir) cls)).cells = unacked
    (slRxOf s (keyOf (!dir) cls)).exp (slTxOf s (keyOf (!dir) cls)).cells ∧ (slTxOf t (keyOf (!dir) cls)).next =
    (slTxOf s (keyOf (!dir) cls)).next ∧ OtherTx s t (keyOf (!dir) cls) ∧
    { t.sl with tx := s.sl.tx, lanes := s.sl.lanes } = s.sl ∧ Regs s t [] ∧ NoEvents s { t with sl := s.sl } ∧ Kept s
    t) ∧
  (∀ (dir : Bool) (p : Fin 4) (cls : Fin 8), frozen s slPg = false → slPair s p.val = 3 → NoDebug s.sl.inF → laneFly s
    dir p = none → Ends (.sluiceCellReceive dir p true (some cls) true true) s fun t => (slTxOf t (keyOf (!dir)
    cls)).cells = unacked (slRxOf s (keyOf (!dir) cls)).exp (slTxOf s (keyOf (!dir) cls)).cells ∧ (slTxOf t (keyOf
    (!dir) cls)).next = (slTxOf s (keyOf (!dir) cls)).next ∧ OtherTx s t (keyOf (!dir) cls) ∧
    { t.sl with tx := s.sl.tx, lanes := s.sl.lanes } = s.sl ∧ Regs s t [] ∧ NoEvents s { t with sl := s.sl } ∧ Kept s
    t) ∧
  (∀ (dir : Bool) (p : Fin 4) (ctl good : Bool) (c : SlCell), frozen s slPg = false → slPair s p.val = 3 → NoDebug
    s.sl.inF → (ctl && good) = false → OneLane s p → laneFly s dir p ≠ none → FirstCell s dir 6 c → Ends
    (.sluiceCellReceive dir p true none ctl good) s fun t => laneFly t dir p = some (keyOf dir 6, c)) ∧
  (∀ (dir : Bool) (p : Fin 4) (ctl good : Bool) (c : SlCell), frozen s slPg = false → slPair s p.val = 3 → NoDebug
    s.sl.inF → (ctl && good) = false → OneLane s p → laneFly s dir p ≠ none → NoCell s dir 6 → NoCell s dir 0 → NoCell
    s dir 1 → NoCell s dir 2 → FirstCell s dir 3 c → Ends (.sluiceCellReceive dir p true none ctl good) s fun t =>
    laneFly t dir p = some (keyOf dir 3, c)) ∧
  (∀ (dir : Bool) (p : Fin 4) (ctl good : Bool) (c : SlCell), frozen s slPg = false → slPair s p.val = 3 → NoDebug
    s.sl.inF → (ctl && good) = false → OneLane s p → laneFly s dir p ≠ none → NoCell s dir 6 → NoCell s dir 0 → NoCell
    s dir 1 → NoCell s dir 2 → NoCell s dir 3 → NoCell s dir 4 → NoCell s dir 5 → FirstCell s dir 7 c → Ends
    (.sluiceCellReceive dir p true none ctl good) s fun t => laneFly t dir p = some (keyOf dir 7, c)) ∧
  (∀ (dir : Bool) (p : Fin 4) (ctl good : Bool) (c : SlCell) (b : SlCell), frozen s slPg = false → slPair s p.val = 3
    → NoDebug s.sl.inF → (ctl && good) = false → OneLane s p → laneFly s dir p ≠ none → NoCell s dir 6 → NoCell s dir
    2 → NoCell s dir 3 → FirstCell s dir 0 b → FirstCell s dir 1 c → storeGet 8 s.sl.lanes.rot ((if dir then 8 else 0)
    + 1) = 0 → Ends (.sluiceCellReceive dir p true none ctl good) s fun t => laneFly t dir p = some (keyOf dir 1, c)) ∧
  (∀ (dir : Bool) (cls : Fin 8), frozen s slPg = true ∨ slUp s = false → Ends (.sluiceRetransmit dir cls) s fun t => t
    = s) ∧
  (∀ (dir : Bool) (cls : Fin 8), frozen s slPg = false → slUp s = true → Ends (.sluiceRetransmit dir cls) s fun t =>
    t.fld (if dir then (⟨rSH_RETX, 0, 32⟩ : Fld) else fSL_RETX) = satAdd 32 (s.fld (if dir then (⟨rSH_RETX, 0, 32⟩ :
    Fld) else fSL_RETX)) (storeGet 0 s.sl.lanes.sent (keyOf dir cls)) ∧ Regs s t [(if dir then (⟨rSH_RETX, 0, 32⟩ :
    Fld) else fSL_RETX).key] ∧ { t.sl with lanes := s.sl.lanes } = s.sl ∧ NoEvents s { t with sl := s.sl } ∧ Kept s t) ∧
  (¬ Acts s 0 1 → Ends (.init true) s fun t => t = s) ∧
  (¬ Acts s 1 1 → Ends (.init false) s fun t => t = s) ∧
  (Acts s 0 1 → Ends (.init true) s fun t => t.fld fSL_EVDROP = satAdd 32 (s.fld fSL_EVDROP) (slTxOf s 3).cells.length
    ∧ t.sl = initSet true true (restartedSl (slTxOf s 3).cells.length (coded 0 1 (fcycOf s) s.sl)) ∧ Regs s t
    [fSL_EVDROP.key] ∧ NoEvents s { t with sl := s.sl } ∧ Kept s t) ∧
  (Acts s 1 1 → s.qe.queues = [] → s.sl.inF = [] → Ends (.init false) s fun t => t.fld fSL_EVDROP = satAdd 32 (s.fld
    fSL_EVDROP) (slTxOf s 3).cells.length ∧ t.sl = initSet false true (restartedSl (slTxOf s 3).cells.length (coded 1
    1 (fcycOf s) s.sl)) ∧ t.flag fQE_STAT_RESYNC = true ∧ t.flag fQE_STAT_JFULL = s.flag fQE_STAT_JFULL ∧ Regs s t
    [fSL_EVDROP.key, rQE_STAT] ∧ NoEvents s { t with sl := s.sl } ∧ Kept s t) ∧
  (¬ Acts s 1 2 → Ends (.initAck true) s fun t => t = s) ∧
  (Acts s 1 2 → Ends (.initAck true) s fun t => t.sl = initSet true false (coded 1 2 (fcycOf s) s.sl) ∧ Regs s t [] ∧
    NoEvents s { t with sl := s.sl } ∧ Kept s t) ∧
  (¬ Acts s 0 2 → Ends (.initAck false) s fun t => t = s) ∧
  (Acts s 0 2 → Ends (.initAck false) s fun t => t.sl = initSet false false (coded 0 2 (fcycOf s) s.sl) ∧ Regs s t []
    ∧ NoEvents s { t with sl := s.sl } ∧ Kept s t) ∧
  (¬ Acts s 0 3 → Ends (.dipOn) s fun t => t = s) ∧
  (Acts s 0 3 → Ends (.dipOn) s fun t => t.flag fPWR_STAT_HDIP = true ∧ t.flag fPWR_STAT_BELOW = s.flag
    fPWR_STAT_BELOW ∧ t.sl = coded 0 3 (fcycOf s) s.sl ∧ Regs s t [rPWR_STAT] ∧ NoEvents s { t with sl := s.sl } ∧
    Kept s t) ∧
  (¬ Acts s 0 4 → Ends (.dipOff) s fun t => t = s) ∧
  (Acts s 0 4 → Ends (.dipOff) s fun t => t.flag fPWR_STAT_HDIP = false ∧ t.flag fPWR_STAT_BELOW = s.flag
    fPWR_STAT_BELOW ∧ t.sl = coded 0 4 (fcycOf s) s.sl ∧ Regs s t [rPWR_STAT] ∧ NoEvents s { t with sl := s.sl } ∧
    Kept s t) ∧
  (∀ (v : BitVec 4), lockHeld s slPg = true → v.toNat ≠ s.fld fSL_CTRL_PAIRDIS → Ends (.pairdisWrite v) s fun t =>
    t.flag (fPAGE_STAT_REFUSED slPg) = true ∧ Regs s t [rPAGE_STAT slPg] ∧ NoEvents s t ∧ Kept s t) ∧
  (∀ (v : BitVec 4), lockHeld s slPg = false ∨ v.toNat = s.fld fSL_CTRL_PAIRDIS → Ends (.pairdisWrite v) s fun t =>
    t.fld fSL_CTRL_PAIRDIS = v.toNat ∧ (∀ i : Fin 4, slPair t i.val = if natBit v.toNat i.val then 4 else if slPair s
    i.val = 4 ∧ s.pwr.mode = .run then 0 else slPair s i.val) ∧ (∀ i : Fin 4, natBit v.toNat i.val = false ∨ slPair s
    i.val ≠ 3 ∨ (pendBit t slPg 0 = true ∧ pendBit t shPg 0 = true)) ∧ RegsEv s t [rSL_CTRL, rSL_PSTAT, rSH_PSTAT,
    rPWR_STAT] [slPg, shPg] ∧ Kept s t)

/-- R464, R466, R468 to R470, R473 to R482: the telemetry window and its block; harvest records; the time messages of the two
dies; Ethernet, the PTP servo, and the rounds of the harvest. -/
def Obligations.MessagesAndTime : Prop := ∀ (s : State), 
  (frozen s slPg = true ∨ s.flag fSL_CTRL_TELEN = false ∨ s.fld fSL_TELLEN = 0 → Ends (.telemetryRead) s fun t => t =
    s) ∧
  (frozen s slPg = false → s.flag fSL_CTRL_TELEN = true → s.fld fSL_TELLEN ≠ 0 → TelSending s → Ends (.telemetryRead)
    s fun t => t.fld fSL_TELSKIP = satInc 32 (s.fld fSL_TELSKIP) ∧ Regs s t [fSL_TELSKIP.key] ∧ NoEvents s t ∧ Kept s
    t) ∧
  (frozen s slPg = false → s.flag fSL_CTRL_TELEN = true → s.fld fSL_TELLEN ≠ 0 → s.fld fSL_TELLEN ≤ 32 → ¬ TelSending
    s → (s.fld fSL_TELBASE * 64) + (64 * s.fld fSL_TELLEN) ≤ salSize → Clean s → Ends (.telemetryRead) s fun t =>
    Sends s t 4 (.tel (angleOf s) (tickNo s) (salBytes s (s.fld fSL_TELBASE * 64) (64 * s.fld fSL_TELLEN))) ∧
    t.sal.peak = peakWith s 81 ∧ { t.sal with peak := s.sal.peak } = s.sal ∧ Regs s t [] ∧ NoEvents s
    { t with sl := s.sl } ∧ Kept s { t with sal := s.sal }) ∧
  (frozen s slPg = false → s.flag fSL_CTRL_TELEN = true → s.fld fSL_TELLEN ≠ 0 → s.fld fSL_TELLEN ≤ 32 → ¬ TelSending
    s → (s.fld fSL_TELBASE * 64) + (64 * s.fld fSL_TELLEN) ≤ salSize → salBad s (s.fld fSL_TELBASE * 64) (64 * s.fld
    fSL_TELLEN) = true → Ends (.telemetryRead) s fun t => pendBit t slPg 5 = true ∧ (slTxOf t 4).cells = (slTxOf s
    4).cells ∧ t.flag fSAL_STAT_UESEEN = true ∧ t.sal.mem = s.sal.mem ∧ t.cores = s.cores ∧ t.cry = s.cry) ∧
  (frozen s slPg = false → s.flag fSL_CTRL_TELEN = true → s.fld fSL_TELLEN ≠ 0 → 32 < s.fld fSL_TELLEN → ¬ TelSending
    s → (s.fld fSL_TELBASE * 64) + 2048 ≤ salSize → Clean s → Ends (.telemetryRead) s fun t => (∃ k : Fin 32, Sends s
    t 4 (.tel (angleOf s) (tickNo s) (salBytes s (s.fld fSL_TELBASE * 64) (64 * (k.val + 1))))) ∧ t.free = s.free + 1
    ∧ Regs s t [] ∧ NoEvents s { t with sl := s.sl } ∧ Kept s { t with sal := s.sal, free := s.free }) ∧
  (frozen s shPg = true → Ends (.telNew) s fun t => t = s) ∧
  (slUp s = false → (∀ m ∈ s.sl.inH, m.cls ≠ 4) → Ends (.telNew) s fun t => t = s) ∧
  (∀ (a k : Nat) (b : List Byte), frozen s shPg = false → FirstH s 4 (.tel a k b) → Ends (.telNew) s fun t =>
    t.sl.telBuf = b ∧ t.sl.inH = s.sl.inH.erase (.tel a k b) ∧ t.rd64 rSH_TELANGLE = a % 2 ^ 64 ∧ t.fld fSH_TELSEQ =
    satInc 32 (s.fld fSH_TELSEQ) ∧ pendBit t shPg 4 = true ∧ RegsEv s t [rSH_TELANGLE, rSH_TELANGLE + 1,
    fSH_TELSEQ.key] [shPg] ∧ Kept s t) ∧
  (∀ (a k : Nat) (b : List Byte), frozen s shPg = false → (∀ m ∈ s.sl.inH, m.cls ≠ 4) → Crossing s 4 (.tel a k b) →
    Ends (.telNew) s fun t => t.sl.telBuf = b ∧ t.sl.inH = s.sl.inH ∧ Crossed s t 4 ∧ t.rd64 rSH_TELANGLE = a % 2 ^ 64
    ∧ pendBit t shPg 4 = true ∧ Kept s t) ∧
  (frozen s slPg = true ∨ (slUp s = false ∧ ∀ m ∈ s.sl.inF, m.cls ≠ 5) → Ends (.harvestRecordReceive) s fun t => t =
    s) ∧
  (∀ (b : List Byte), frozen s slPg = false → FirstF s 5 (.harvest b) → s.flag fSL_CTRL_HRVEN = true → (s.fld
    fSL_HRVBASE * 128 + 64 * (numAt b 0 4 % 2)) + b.length ≤ salSize → Ends (.harvestRecordReceive) s fun t =>
    salBytes t (s.fld fSL_HRVBASE * 128 + 64 * (numAt b 0 4 % 2)) b.length = b ∧ SameBut s t (s.fld fSL_HRVBASE * 128
    + 64 * (numAt b 0 4 % 2)) b.length ∧ TagsBut s t (s.fld fSL_HRVBASE * 128 + 64 * (numAt b 0 4 % 2)) b.length ∧
    t.sl = tookF (.harvest b) s.sl ∧ Regs s t [] ∧ NoEvents s { t with sl := s.sl } ∧ Kept s { t with sal := s.sal }) ∧
  (∀ (b : List Byte), frozen s slPg = false → FirstF s 5 (.harvest b) → s.flag fSL_CTRL_HRVEN = false → Ends
    (.harvestRecordReceive) s fun t => t.fld fSL_TELSKIP = satInc 32 (s.fld fSL_TELSKIP) ∧ t.sl = tookF (.harvest b)
    s.sl ∧ Regs s t [fSL_TELSKIP.key] ∧ NoEvents s { t with sl := s.sl } ∧ Kept s t) ∧
  (frozen s slPg = true ∨ pageEn s tbPg = false → Ends (.timeMessageSend) s fun t => t = s) ∧
  (frozen s slPg = false → pageEn s tbPg = true → slUp s = true → Ends (.timeMessageSend) s fun t => Sends
    { s with sl := timeSent (fcycOf s) s.sl } t 6 (.timeF (fcycOf s) (angleOf s) (tickNo s) (rateOf s) (s.fld fTB_N)
    ((s.rd rTB_STAT).toNat % 256)) ∧ t.tb = intervalEnded s.tb ∧ Regs s t [] ∧ NoEvents s { t with sl := s.sl } ∧ Kept
    s { t with tb := s.tb }) ∧
  (frozen s slPg = false → pageEn s tbPg = true → slUp s = false → Ends (.timeMessageSend) s fun t => t.sl = timeWaits
    (fcycOf s) s.sl ∧ t.tb = intervalEnded s.tb ∧ Regs s t [] ∧ NoEvents s { t with sl := s.sl } ∧ Kept s
    { t with tb := s.tb }) ∧
  (frozen s slPg = true → Ends (.timeMessageDiscard) s fun t => t = s) ∧
  (frozen s slPg = false → Ends (.timeMessageDiscard) s fun t => t.sl = noWait s.sl ∧ Regs s t [] ∧ NoEvents s
    { t with sl := s.sl } ∧ Kept s t) ∧
  (frozen s shPg = true ∨ (slUp s = false ∧ ∀ m ∈ s.sl.inH, m.cls ≠ 6) → Ends (.timeMessageReceiveH) s fun t => t = s) ∧
  (∀ (f a k r n st : Nat), frozen s shPg = false → FirstH s 6 (.timeF f a k r n st) → s.flag fPT_CTRL_TFEN = false ∨
    slUp s = false → Ends (.timeMessageReceiveH) s fun t => CopiesTaken s t f a k r n ∧ t.fab = stampedFab (stamped s
    f) s.fab ∧ t.sl.inH = s.sl.inH.erase (.timeF f a k r n st) ∧ t.sl.tx = s.sl.tx ∧ Regs s t [rSH_ANGLE, rSH_ANGLE +
    1, rSH_TICKNO, rSH_TICKNO + 1] ∧ NoEvents s { t with sl := s.sl } ∧ Kept s { t with fab := s.fab }) ∧
  (∀ (f a k r n st : Nat), frozen s shPg = false → FirstH s 6 (.timeF f a k r n st) → s.flag fPT_CTRL_TFEN = true →
    slUp s = true → Ends (.timeMessageReceiveH) s fun t => CopiesTaken s t f a k r n ∧ t.fab = stampedFab (stamped s
    f) s.fab ∧ (slTxOf t 22).cells = (slTxOf s 22).cells ++ [⟨(slTxOf s 22).next % 65536, 0, 1, .timeH (f + s.fld
    fTF_LEAD) (angleFab s (ptpThen s f) (s.fld fTF_LEAD * (slopeNow (stamped s f)).1) (slopeNow (stamped s f)).2)
    (s.flag fPT_SERVO_LOCKED && s.rd64 rTF_RATE % 2 ^ 50 != 0)⟩] ∧ t.fld fTF_SENT = (if s.flag fPT_SERVO_LOCKED = true
    ∧ s.rd64 rTF_RATE % 2 ^ 50 ≠ 0 then satInc 32 (s.fld fTF_SENT) else s.fld fTF_SENT) ∧ Regs s t [rSH_ANGLE,
    rSH_ANGLE + 1, rSH_TICKNO, rSH_TICKNO + 1, fTF_SENT.key] ∧ NoEvents s { t with sl := s.sl } ∧ Kept s
    { t with fab := s.fab }) ∧
  (∀ (m : Fin 2), frozen s (ethPg m.val) = true ∨ (s.fld (fETHm_CTRL_MODE m.val) ≠ 1 ∧ s.fld (fETHm_CTRL_MODE m.val) ≠
    2) → Ends (.ethLinkUp m) s fun t => t = s) ∧
  (∀ (m : Fin 2), frozen s (ethPg m.val) = false → s.fld (fETHm_CTRL_MODE m.val) = 1 ∨ s.fld (fETHm_CTRL_MODE m.val) =
    2 → s.flag (fETHm_STAT_LINK m.val) = false → Ends (.ethLinkUp m) s fun t => t.flag (fETHm_STAT_ANDONE m.val) =
    decide (s.fld (fETHm_CTRL_MODE m.val) = 2) ∧ t.flag (fETHm_STAT_LINK m.val) = true ∧ pendBit t (ethPg m.val) 0 =
    true ∧ RegsEv s t [(fETHm_STAT_LINK m.val).key] [ethPg m.val] ∧ Kept s t) ∧
  (∀ (m : Fin 2), frozen s (ethPg m.val) = false → s.fld (fETHm_CTRL_MODE m.val) = 1 ∨ s.fld (fETHm_CTRL_MODE m.val) =
    2 → s.flag (fETHm_STAT_LINK m.val) = true → Ends (.ethLinkUp m) s fun t => t.flag (fETHm_STAT_ANDONE m.val) =
    decide (s.fld (fETHm_CTRL_MODE m.val) = 2) ∧ t.flag (fETHm_STAT_LINK m.val) = true ∧ Regs s t [(fETHm_STAT_LINK
    m.val).key] ∧ NoEvents s t ∧ Kept s t) ∧
  (∀ (m : Fin 2), frozen s (ethPg m.val) = true ∨ s.flag (fETHm_STAT_LINK m.val) = false → Ends (.ethLinkDown m) s fun
    t => t = s) ∧
  (∀ (m : Fin 2), frozen s (ethPg m.val) = false → s.flag (fETHm_STAT_LINK m.val) = true → Ends (.ethLinkDown m) s fun
    t => t.flag (fETHm_STAT_LINK m.val) = false ∧ t.flag (fETHm_STAT_ANDONE m.val) = false ∧ pendBit t (ethPg m.val) 1
    = true ∧ RegsEv s t [(fETHm_STAT_LINK m.val).key] [ethPg m.val] ∧ Kept s t) ∧
  (∀ (m : Fin 2) (k : EthKind) (len : BitVec 16) (ok : Bool), frozen s (ethPg m.val) = true ∨ ¬ PortOn s m.val → Ends
    (.ethFrameReceive m k len ok) s fun t => t = s) ∧
  (∀ (m : Fin 2) (k : EthKind) (len : BitVec 16) (ok : Bool), frozen s (ethPg m.val) = false → PortOn s m.val → ok =
    true ∧ len.toNat ≤ 1522 ∧ accepted s k = true → Ends (.ethFrameReceive m k len ok) s fun t => t.fld (fETHm_RXFRM
    m.val) = satInc 32 (s.fld (fETHm_RXFRM m.val)) ∧ Regs s t [(fETHm_RXFRM m.val).key] ∧ NoEvents s t ∧ Kept s t) ∧
  (∀ (m : Fin 2) (k : EthKind) (len : BitVec 16) (ok : Bool), frozen s (ethPg m.val) = false → PortOn s m.val → ¬ (ok
    = true ∧ len.toNat ≤ 1522 ∧ accepted s k = true) → Ends (.ethFrameReceive m k len ok) s fun t => t.fld (fETHm_DROP
    m.val) = satInc 32 (s.fld (fETHm_DROP m.val)) ∧ Regs s t [(fETHm_DROP m.val).key] ∧ NoEvents s t ∧ Kept s t) ∧
  (∀ (m : Fin 2) (d : Byte) (off : Option Int), frozen s ptPg = true ∨ ¬ PortOn s m.val → Ends (.ptpFrameReceive m d
    off) s fun t => t = s) ∧
  (∀ (m : Fin 2) (d : Byte) (off : Option Int), frozen s ptPg = false → PortOn s m.val → off = none ∨ ¬ Follows s m d
    → Ends (.ptpFrameReceive m d off) s fun t => t.fld (fETHm_RXFRM m.val) = satInc 32 (s.fld (fETHm_RXFRM m.val)) ∧
    Regs s t [(fETHm_RXFRM m.val).key] ∧ NoEvents s t ∧ Kept s t) ∧
  (∀ (m : Fin 2) (d : Byte) (off : Int), frozen s ptPg = false → PortOn s m.val → Follows s m d → off.natAbs ≤ s.fld
    fPT_LOCKWIN → s.fab.good + 1 < 16 ∨ s.flag fPT_SERVO_LOCKED = true → Ends (.ptpFrameReceive m d (some off)) s fun
    t => t.fld fPT_SERVO_OFFSET = wrapTo 24 off ∧ t.fld (fETHm_RXFRM m.val) = satInc 32 (s.fld (fETHm_RXFRM m.val)) ∧
    t.fab = servoGood (s.fab.good + 1) s.fab ∧ t.flag fPT_SERVO_LOCKED = s.flag fPT_SERVO_LOCKED ∧ Regs s t
    [(fETHm_RXFRM m.val).key, fPT_SERVO_OFFSET.key] ∧ NoEvents s t ∧ Kept s { t with fab := s.fab }) ∧
  (∀ (m : Fin 2) (d : Byte) (off : Int), frozen s ptPg = false → PortOn s m.val → Follows s m d → off.natAbs ≤ s.fld
    fPT_LOCKWIN → 16 ≤ s.fab.good + 1 → s.flag fPT_SERVO_LOCKED = false → Ends (.ptpFrameReceive m d (some off)) s fun
    t => t.fld fPT_SERVO_OFFSET = wrapTo 24 off ∧ t.fld (fETHm_RXFRM m.val) = satInc 32 (s.fld (fETHm_RXFRM m.val)) ∧
    t.fab = servoGood (s.fab.good + 1) s.fab ∧ t.flag fPT_SERVO_LOCKED = true ∧ pendBit t ptPg 0 = true ∧ RegsEv s t
    [(fETHm_RXFRM m.val).key, fPT_SERVO_OFFSET.key] [ptPg] ∧ Kept s { t with fab := s.fab }) ∧
  (∀ (m : Fin 2) (d : Byte) (off : Int), frozen s ptPg = false → PortOn s m.val → Follows s m d → s.fld fPT_LOCKWIN <
    off.natAbs → s.flag fPT_SERVO_LOCKED = true → Ends (.ptpFrameReceive m d (some off)) s fun t => t.fld
    fPT_SERVO_OFFSET = wrapTo 24 off ∧ t.fld (fETHm_RXFRM m.val) = satInc 32 (s.fld (fETHm_RXFRM m.val)) ∧ t.fab =
    servoGood 0 s.fab ∧ t.flag fPT_SERVO_LOCKED = false ∧ pendBit t ptPg 1 = true ∧ RegsEv s t [(fETHm_RXFRM
    m.val).key, fPT_SERVO_OFFSET.key] [ptPg] ∧ Kept s { t with fab := s.fab }) ∧
  (∀ (m : Fin 2) (d : Byte) (off : Int), frozen s ptPg = false → PortOn s m.val → Follows s m d → s.fld fPT_LOCKWIN <
    off.natAbs → s.flag fPT_SERVO_LOCKED = false → Ends (.ptpFrameReceive m d (some off)) s fun t => t.fld
    fPT_SERVO_OFFSET = wrapTo 24 off ∧ t.fld (fETHm_RXFRM m.val) = satInc 32 (s.fld (fETHm_RXFRM m.val)) ∧ t.fab =
    servoGood 0 s.fab ∧ t.flag fPT_SERVO_LOCKED = false ∧ Regs s t [(fETHm_RXFRM m.val).key, fPT_SERVO_OFFSET.key] ∧
    NoEvents s t ∧ Kept s { t with fab := s.fab }) ∧
  (∀ (v : Word), Ends (.ptStep v) s fun t => t.fab = stepped v.toInt s.fab ∧ Regs s t [] ∧ NoEvents s t ∧ Kept s
    { t with fab := s.fab }) ∧
  (frozen s hgPg = true ∨ pageEn s hgPg = false → Ends (.planSend) s fun t => t = s) ∧
  (frozen s hgPg = true ∨ pageEn s hgPg = false → Ends (.aggregateSend) s fun t => t = s) ∧
  (frozen s hgPg = true ∨ pageEn s hgPg = false → Ends (.allocSend) s fun t => t = s) ∧
  (frozen s hgPg = true ∨ pageEn s hgPg = false → Ends (.harvestRoundStart) s fun t => t = s) ∧
  (frozen s hgPg = false → pageEn s hgPg = true → s.fld fHG_NODE % 256 ≠ 0 → Ends (.planSend) s fun t => Sent s t
    [(address s rHG_AGGRi, planOf s (s.fld fHG_NODE / 256 * 256) (ownTotal s) 1)] ∧ Regs s t [(fETHm_TXFRM 0).key,
    (fETHm_TXFRM 1).key] ∧ NoEvents s t ∧ Kept s { t with out := s.out }) ∧
  (frozen s hgPg = false → pageEn s hgPg = true → s.fld fHG_NODE % 256 = 0 → Ends (.planSend) s fun t => t.fab =
    planHeld ⟨s.fld fHG_NODE, planRound s, ownTotal s, 1, 0⟩ s.fab ∧ Regs s t [] ∧ NoEvents s t ∧ Kept s
    { t with fab := s.fab }) ∧
  (s.fld fHG_NODE % 256 ≠ 0 → Ends (.aggregateSend) s fun t => t = s) ∧
  (s.fld fHG_NODE ≠ 0 → Ends (.allocSend) s fun t => t = s) ∧
  (frozen s hgPg = false → pageEn s hgPg = true → s.fld fHG_NODE % 256 = 0 → missing s = [] → s.fld fHG_NODE ≠ 0 →
    Ends (.aggregateSend) s fun t => Sent s t [(address s rHG_ROOTi, planOf s 0 (totals (leafPlans s)) (members
    (leafPlans s)))] ∧ t.fab = nodesNow s s.fab ∧ Regs s t [(fETHm_TXFRM 0).key, (fETHm_TXFRM 1).key] ∧ NoEvents s t ∧
    Kept s { t with fab := s.fab, out := s.out }) ∧
  (frozen s hgPg = false → pageEn s hgPg = true → s.fld fHG_NODE % 256 = 0 → missing s = [] → s.fld fHG_NODE = 0 →
    Ends (.aggregateSend) s fun t => t.fab = planHeld ⟨65536, planRound s, totals (leafPlans s), members (leafPlans
    s), 0⟩ (nodesNow s s.fab) ∧ Regs s t [] ∧ NoEvents s t ∧ Kept s { t with fab := s.fab }) ∧
  (frozen s hgPg = false → pageEn s hgPg = true → s.fld fHG_NODE % 256 = 0 → missing s ≠ [] → Ends (.aggregateSend) s
    fun t => pendBit t hgPg 1 = true ∧ t.fab.prev = (leafPlans s).map (fun p => p.node) ∧ t.cores = s.cores ∧ t.qe =
    s.qe) ∧
  (frozen s hgPg = false → pageEn s hgPg = true → s.fld fHG_NODE = 0 → Ends (.allocSend) s fun t => Sent s t
    ((((aggrPlans s).filter fun p => p.node != 65536).map fun p => (p.addr, allocOf s (p.node - 65536) (planRound s)
    (allocNow s).scale (allocNow s).members)) ++ [(address s rHG_MADDRi, allocOf s 0xFFFF (planRound s) (allocNow
    s).scale (allocNow s).members)]) ∧ t.fab = allocHeld (allocNow s) s.fab ∧ t.fld fHG_MEMBERS = (allocNow s).members
    % 2 ^ 17 ∧ (slTxOf t 21).cells = (slTxOf s 21).cells ++ (List.range 2).map (fun i => (⟨((slTxOf s 21).next + i) %
    65536, i, 2, .harvest (inboxBytes s (planRound s) (some (allocNow s)))⟩ : SlCell)) ∧ t.fld fHG_ROUND = (planRound
    s) % 2 ^ 32 ∧ Regs s t [(fETHm_TXFRM 0).key, (fETHm_TXFRM 1).key, fHG_ROUND.key, fHG_MEMBERS.key] ∧ NoEvents s
    { t with sl := s.sl } ∧ Kept s { t with fab := s.fab, out := s.out }) ∧
  (∀ (h : HgHdr) (tot : List Int) (mem : BitVec 16) (src : BitVec 128), frozen s hgPg = true ∨ pageEn s hgPg = false →
    Ends (.planReceive h tot mem src) s fun t => t = s) ∧
  (∀ (h : HgHdr) (tot : List Int) (mem : BitVec 16) (src : BitVec 128), frozen s hgPg = false → pageEn s hgPg = true →
    ¬ (s.fld fHG_NODE % 256 = 0 ∧ HeadOk s h 1 132 ∧ ((leafOf s h ∧ ¬ TooLate s 0x400000) ∨ (¬ leafOf s h ∧ s.fld
    fHG_NODE = 0 ∧ h.src.toNat % 256 = 0 ∧ ¬ TooLate s 0x800000))) → Ends (.planReceive h tot mem src) s fun t =>
    t.fld fHG_DROP = satInc 32 (s.fld fHG_DROP) ∧ Regs s t [fHG_DROP.key] ∧ NoEvents s t ∧ Kept s t) ∧
  (∀ (h : HgHdr) (tot : List Int) (mem : BitVec 16) (src : BitVec 128), frozen s hgPg = false → pageEn s hgPg = true →
    s.fld fHG_NODE % 256 = 0 → HeadOk s h 1 132 → leafOf s h → ¬ TooLate s 0x400000 → Ends (.planReceive h tot mem
    src) s fun t => t.fab = planHeld ⟨h.src.toNat, h.round.toNat, tot, mem.toNat, src.toNat⟩ s.fab ∧ Regs s t [] ∧
    NoEvents s t ∧ Kept s { t with fab := s.fab }) ∧
  (∀ (h : HgHdr) (tot : List Int) (mem : BitVec 16) (src : BitVec 128), frozen s hgPg = false → pageEn s hgPg = true →
    s.fld fHG_NODE = 0 → HeadOk s h 1 132 → ¬ leafOf s h → h.src.toNat % 256 = 0 → ¬ TooLate s 0x800000 → Ends
    (.planReceive h tot mem src) s fun t => t.fab = planHeld ⟨h.src.toNat + 65536, h.round.toNat, tot, mem.toNat,
    src.toNat⟩ s.fab ∧ Regs s t [] ∧ NoEvents s t ∧ Kept s { t with fab := s.fab }) ∧
  (∀ (h : HgHdr) (src : BitVec 128) (sc : List (BitVec 16)) (mem : BitVec 16), frozen s hgPg = true ∨ pageEn s hgPg =
    false → Ends (.allocReceive h src sc mem) s fun t => t = s) ∧
  (∀ (h : HgHdr) (src : BitVec 128) (sc : List (BitVec 16)) (mem : BitVec 16), frozen s hgPg = false → pageEn s hgPg =
    true → ¬ HeadOk s h 2 36 ∨ src.toNat ≠ parent s → Ends (.allocReceive h src sc mem) s fun t => t.fld fHG_DROP =
    satInc 32 (s.fld fHG_DROP) ∧ Regs s t [fHG_DROP.key] ∧ NoEvents s t ∧ Kept s t) ∧
  (∀ (h : HgHdr) (src : BitVec 128) (sc : List (BitVec 16)) (mem : BitVec 16), frozen s hgPg = false → pageEn s hgPg =
    true → HeadOk s h 2 36 → src.toNat = parent s → s.fld fHG_NODE % 256 ≠ 0 → Ends (.allocReceive h src sc mem) s fun
    t => t.fab = allocHeld (allocIn h sc mem) s.fab ∧ t.fld fHG_MEMBERS = mem.toNat ∧ (slTxOf t 21).cells = (slTxOf s
    21).cells ++ (List.range 2).map (fun i => (⟨((slTxOf s 21).next + i) % 65536, i, 2, .harvest (inboxBytes s
    h.round.toNat (some (allocIn h sc mem)))⟩ : SlCell)) ∧ t.fld fHG_ROUND = h.round.toNat % 2 ^ 32 ∧ Regs s t
    [fHG_ROUND.key, fHG_MEMBERS.key] ∧ NoEvents s { t with sl := s.sl } ∧ Kept s { t with fab := s.fab, out := s.out }
    ∧ t.out = s.out) ∧
  (∀ (h : HgHdr) (src : BitVec 128) (sc : List (BitVec 16)) (mem : BitVec 16), frozen s hgPg = false → pageEn s hgPg =
    true → HeadOk s h 2 36 → src.toNat = parent s → s.fld fHG_NODE % 256 = 0 → Ends (.allocReceive h src sc mem) s fun
    t => t.fab = allocHeld (allocIn h sc mem) s.fab ∧ t.fld fHG_MEMBERS = mem.toNat ∧ (slTxOf t 21).cells = (slTxOf s
    21).cells ++ (List.range 2).map (fun i => (⟨((slTxOf s 21).next + i) % 65536, i, 2, .harvest (inboxBytes s
    h.round.toNat (some (allocIn h sc mem)))⟩ : SlCell)) ∧ t.fld fHG_ROUND = h.round.toNat % 2 ^ 32 ∧ Regs s t
    [(fETHm_TXFRM 0).key, (fETHm_TXFRM 1).key, fHG_ROUND.key, fHG_MEMBERS.key] ∧ NoEvents s { t with sl := s.sl } ∧
    Kept s { t with fab := s.fab, out := s.out } ∧ Sent s t [(address s rHG_MADDRi, allocOf s 0xFFFF h.round.toNat
    (sc.map fun x => x.toNat) mem.toNat)]) ∧
  (frozen s hgPg = false → pageEn s hgPg = true → s.fab.inbox = some (s.rd64 rSH_ANGLE / 16777216 / max 1 (s.fld
    fHG_RTURNS) % 2 ^ 32) → Ends (.harvestRoundStart) s fun t => pendBit t hgPg 2 = true ∧ t.fab = s.fab ∧ RegsEv s t
    [] [hgPg] ∧ Kept s t) ∧
  (frozen s hgPg = false → pageEn s hgPg = true → s.fab.inbox ≠ some (s.rd64 rSH_ANGLE / 16777216 / max 1 (s.fld
    fHG_RTURNS) % 2 ^ 32) → Ends (.harvestRoundStart) s fun t => pendBit t hgPg 2 = true ∧ pendBit t hgPg 0 = true ∧
    t.fab = missNoted (s.rd64 rSH_ANGLE / 16777216 / max 1 (s.fld fHG_RTURNS) % 2 ^ 32) s.fab ∧ t.fld fHG_MISS =
    satInc 32 (s.fld fHG_MISS) ∧ (slTxOf t 21).cells = (slTxOf s 21).cells ++ (List.range 2).map (fun i => (⟨((slTxOf
    s 21).next + i) % 65536, i, 2, .harvest (inboxBytes s (s.rd64 rSH_ANGLE / 16777216 / max 1 (s.fld fHG_RTURNS) % 2
    ^ 32) none)⟩ : SlCell)) ∧ t.fld fHG_ROUND = (s.rd64 rSH_ANGLE / 16777216 / max 1 (s.fld fHG_RTURNS) % 2 ^ 32) % 2
    ^ 32 ∧ RegsEv s t [fHG_ROUND.key, fHG_MISS.key] [hgPg] ∧ Kept s { t with fab := s.fab })

/-- R419 to R437: doorbells; the queue operations; the classification of fetched entries; COMMAND_SEND; event records in their
queues; the PCIe link and D3hot. -/
def Obligations.HostQueues : Prop := ∀ (s : State), 
  (Ends (.doorbellWrite .other) s fun t => t.fld fQE_DBERR = satInc 32 (s.fld fQE_DBERR) ∧ Regs s t [fQE_DBERR.key] ∧
    NoEvents s t ∧ Kept s t) ∧
  (∀ (len : BitVec 4), Ends (.doorbellWrite (.read len)) s fun t => t.out = .readData 128 (List.replicate len.toNat 0)
    :: s.out ∧ Regs s t [] ∧ NoEvents s t ∧ Kept s { t with out := s.out }) ∧
  (∀ (q : BitVec 16) (v : Dword), (queueOf s q.toNat).st = 0 ∨ v.toNat / 2 ^ 50 ≠ 0 ∨ v.toNat / 2 ^ 17 % 2 ^ 15 ≠ 0 ∨
    ((queueOf s q.toNat).ty = 2 ∧ v.toNat % 2 ^ 17 ≠ 0) → Ends (.doorbellWrite (.queue q v)) s fun t => t.fld
    fQE_DBERR = satInc 32 (s.fld fQE_DBERR) ∧ Posted s t 0x1020 4 2 (bytesOfNat 2 q.toNat ++ bytesOfNat 6 0 ++
    bytesOfNat 8 (s.rd64 rSH_TICKNO)) ∧ RegsEv s t [fQE_DBERR.key] [0x1020] ∧ Kept s t) ∧
  (∀ (q : BitVec 16) (v : Dword), ¬ ((queueOf s q.toNat).st = 0 ∨ v.toNat / 2 ^ 50 ≠ 0 ∨ v.toNat / 2 ^ 17 % 2 ^ 15 ≠ 0
    ∨ ((queueOf s q.toNat).ty = 2 ∧ v.toNat % 2 ^ 17 ≠ 0)) → v.getLsbD 16 = true → v.getLsbD 48 = false → v.getLsbD 49
    = false → (v.toNat % 2 ^ 16) < 2 ^ (queueOf s q.toNat).sqLog ∧ (queueOf s q.toNat).sqTail - (queueOf s
    q.toNat).fetch ≤ (forward (v.toNat % 2 ^ 16) (queueOf s q.toNat).fetch (2 ^ (queueOf s q.toNat).sqLog)) → Ends
    (.doorbellWrite (.queue q v)) s fun t => queueOf t q.toNat = atTail ((queueOf s q.toNat).fetch + (forward (v.toNat
    % 2 ^ 16) (queueOf s q.toNat).fetch (2 ^ (queueOf s q.toNat).sqLog))) (queueOf s q.toNat) ∧ OtherQ s t q.toNat ∧
    Regs s t [] ∧ NoEvents s t ∧ Kept s { t with qe := s.qe }) ∧
  (∀ (q : BitVec 16) (v : Dword), ¬ ((queueOf s q.toNat).st = 0 ∨ v.toNat / 2 ^ 50 ≠ 0 ∨ v.toNat / 2 ^ 17 % 2 ^ 15 ≠ 0
    ∨ ((queueOf s q.toNat).ty = 2 ∧ v.toNat % 2 ^ 17 ≠ 0)) → v.getLsbD 16 = true → v.getLsbD 48 = false → v.getLsbD 49
    = false → ¬ ((v.toNat % 2 ^ 16) < 2 ^ (queueOf s q.toNat).sqLog ∧ (queueOf s q.toNat).sqTail - (queueOf s
    q.toNat).fetch ≤ (forward (v.toNat % 2 ^ 16) (queueOf s q.toNat).fetch (2 ^ (queueOf s q.toNat).sqLog))) → Ends
    (.doorbellWrite (.queue q v)) s fun t => t.fld fQE_DBERR = satInc 32 (s.fld fQE_DBERR) ∧ t.qe = s.qe ∧ pendBit t
    0x1020 4 = true ∧ RegsEv s t [fQE_DBERR.key] [0x1020] ∧ Kept s t) ∧
  (∀ (q : BitVec 16) (v : Dword), ¬ ((queueOf s q.toNat).st = 0 ∨ v.toNat / 2 ^ 50 ≠ 0 ∨ v.toNat / 2 ^ 17 % 2 ^ 15 ≠ 0
    ∨ ((queueOf s q.toNat).ty = 2 ∧ v.toNat % 2 ^ 17 ≠ 0)) → v.getLsbD 16 = false → v.getLsbD 48 = true → v.getLsbD 49
    = false → (v.toNat / 2 ^ 32 % 2 ^ 16) < 2 ^ (queueOf s q.toNat).cqLog ∧ (forward (v.toNat / 2 ^ 32 % 2 ^ 16)
    (queueOf s q.toNat).cqHead (2 ^ (queueOf s q.toNat).cqLog)) ≤ (queueOf s q.toNat).cqTail - (queueOf s
    q.toNat).cqHead → (queueOf s q.toNat).cmds = [] → (queueOf s q.toNat).ty = 1 → Ends (.doorbellWrite (.queue q v))
    s fun t => queueOf t q.toNat = atHead ((queueOf s q.toNat).cqHead + (forward (v.toNat / 2 ^ 32 % 2 ^ 16) (queueOf
    s q.toNat).cqHead (2 ^ (queueOf s q.toNat).cqLog))) (queueOf s q.toNat) ∧ OtherQ s t q.toNat ∧ Regs s t [] ∧
    NoEvents s t ∧ Kept s { t with qe := s.qe }) ∧
  (∀ (q : BitVec 16) (v : Dword), ¬ ((queueOf s q.toNat).st = 0 ∨ v.toNat / 2 ^ 50 ≠ 0 ∨ v.toNat / 2 ^ 17 % 2 ^ 15 ≠ 0
    ∨ ((queueOf s q.toNat).ty = 2 ∧ v.toNat % 2 ^ 17 ≠ 0)) → v.getLsbD 16 = false → v.getLsbD 48 = true → v.getLsbD 49
    = false → ¬ ((v.toNat / 2 ^ 32 % 2 ^ 16) < 2 ^ (queueOf s q.toNat).cqLog ∧ (forward (v.toNat / 2 ^ 32 % 2 ^ 16)
    (queueOf s q.toNat).cqHead (2 ^ (queueOf s q.toNat).cqLog)) ≤ (queueOf s q.toNat).cqTail - (queueOf s
    q.toNat).cqHead) → Ends (.doorbellWrite (.queue q v)) s fun t => t.fld fQE_DBERR = satInc 32 (s.fld fQE_DBERR) ∧
    t.qe = s.qe ∧ pendBit t 0x1020 4 = true ∧ RegsEv s t [fQE_DBERR.key] [0x1020] ∧ Kept s t) ∧
  (∀ (q : BitVec 16) (v : Dword) (c : QCmd), ¬ ((queueOf s q.toNat).st = 0 ∨ v.toNat / 2 ^ 50 ≠ 0 ∨ v.toNat / 2 ^ 17 %
    2 ^ 15 ≠ 0 ∨ ((queueOf s q.toNat).ty = 2 ∧ v.toNat % 2 ^ 17 ≠ 0)) → v.getLsbD 16 = false → v.getLsbD 48 = true →
    v.getLsbD 49 = false → (v.toNat / 2 ^ 32 % 2 ^ 16) < 2 ^ (queueOf s q.toNat).cqLog ∧ (forward (v.toNat / 2 ^ 32 %
    2 ^ 16) (queueOf s q.toNat).cqHead (2 ^ (queueOf s q.toNat).cqLog)) ≤ (queueOf s q.toNat).cqTail - (queueOf s
    q.toNat).cqHead → (queueOf s q.toNat).cmds = [c] → (queueOf s q.toNat).ty = 1 → c.st = .completed → c.cqPos <
    (queueOf s q.toNat).cqHead + (forward (v.toNat / 2 ^ 32 % 2 ^ 16) (queueOf s q.toNat).cqHead (2 ^ (queueOf s
    q.toNat).cqLog)) → Ends (.doorbellWrite (.queue q v)) s fun t => (queueOf t q.toNat).cmds = [] ∧ (queueOf t
    q.toNat).cqHead = (queueOf s q.toNat).cqHead + (forward (v.toNat / 2 ^ 32 % 2 ^ 16) (queueOf s q.toNat).cqHead (2
    ^ (queueOf s q.toNat).cqLog)) ∧ t.qe.relSent = s.qe.relSent ++ [c.idx] ∧ Sends s t 17 (.release c.idx) ∧ Regs s t
    [] ∧ NoEvents s { t with sl := s.sl } ∧ Kept s { t with qe := s.qe }) ∧
  (∀ (q : BitVec 16) (v : Dword), ¬ ((queueOf s q.toNat).st = 0 ∨ v.toNat / 2 ^ 50 ≠ 0 ∨ v.toNat / 2 ^ 17 % 2 ^ 15 ≠ 0
    ∨ ((queueOf s q.toNat).ty = 2 ∧ v.toNat % 2 ^ 17 ≠ 0)) → v.getLsbD 16 = false → v.getLsbD 48 = false → v.getLsbD
    49 = true → (queueOf s q.toNat).cqTail ≤ (queueOf s q.toNat).cqHead → Ends (.doorbellWrite (.queue q v)) s fun t
    => queueOf t q.toNat = armedQ true (queueOf s q.toNat) ∧ OtherQ s t q.toNat ∧ Regs s t [] ∧ NoEvents s t ∧ Kept s
    { t with qe := s.qe }) ∧
  (∀ (q : BitVec 16) (v : Dword), ¬ ((queueOf s q.toNat).st = 0 ∨ v.toNat / 2 ^ 50 ≠ 0 ∨ v.toNat / 2 ^ 17 % 2 ^ 15 ≠ 0
    ∨ ((queueOf s q.toNat).ty = 2 ∧ v.toNat % 2 ^ 17 ≠ 0)) → v.getLsbD 16 = false → v.getLsbD 48 = false → v.getLsbD
    49 = true → (queueOf s q.toNat).cqHead < (queueOf s q.toNat).cqTail → (queueOf s q.toNat).vec < 256 → Ends
    (.doorbellWrite (.queue q v)) s fun t => queueOf t q.toNat = armedQ false (queueOf s q.toNat) ∧ OtherQ s t q.toNat
    ∧ t.out = msixOut s (queueOf s q.toNat).vec ++ s.out ∧ VectorSet s t (queueOf s q.toNat).vec ∧ Regs s t [rPX_PBAi
    ((queueOf s q.toNat).vec / 32)] ∧ NoEvents s t ∧ Kept s { t with qe := s.qe, out := s.out }) ∧
  (s.flag fQE_STAT_QOPBUSY = true → Ends (.createCmd) s fun t => t.flag fQE_STAT_CFGREFUSED = true ∧ t.flag
    fQE_STAT_JFULL = s.flag fQE_STAT_JFULL ∧ Regs s t [rQE_STAT] ∧ NoEvents s t ∧ Kept s t) ∧
  (s.flag fQE_STAT_QOPBUSY = true → Ends (.createEvt) s fun t => t.flag fQE_STAT_CFGREFUSED = true ∧ t.flag
    fQE_STAT_JFULL = s.flag fQE_STAT_JFULL ∧ Regs s t [rQE_STAT] ∧ NoEvents s t ∧ Kept s t) ∧
  (s.flag fQE_STAT_QOPBUSY = true → Ends (.delete) s fun t => t.flag fQE_STAT_CFGREFUSED = true ∧ t.flag
    fQE_STAT_JFULL = s.flag fQE_STAT_JFULL ∧ Regs s t [rQE_STAT] ∧ NoEvents s t ∧ Kept s t) ∧
  (s.flag fQE_STAT_QOPBUSY = true → Ends (.qopRead) s fun t => t.flag fQE_STAT_CFGREFUSED = true ∧ t.flag
    fQE_STAT_JFULL = s.flag fQE_STAT_JFULL ∧ Regs s t [rQE_STAT] ∧ NoEvents s t ∧ Kept s t) ∧
  (s.flag fQE_STAT_QOPBUSY = false → (queueOf s (s.fld fQE_QSEL)).st ≠ 0 → Ends (.createCmd) s fun t => t.qe.op = some
    ⟨1, (s.fld fQE_QSEL), 2, none⟩ ∧ t.flag fQE_STAT_QOPBUSY = true ∧ t.flag fQE_STAT_RESYNC = s.flag fQE_STAT_RESYNC
    ∧ { t.qe with op := s.qe.op } = s.qe ∧ Regs s t [rQE_STAT] ∧ NoEvents s t ∧ Kept s { t with qe := s.qe }) ∧
  (s.flag fQE_STAT_QOPBUSY = false → (queueOf s (s.fld fQE_QSEL)).st = 0 → SizesBad s 1 → Ends (.createCmd) s fun t =>
    t.qe.op = some ⟨1, (s.fld fQE_QSEL), 4, none⟩ ∧ t.flag fQE_STAT_QOPBUSY = true ∧ t.flag fQE_STAT_RESYNC = s.flag
    fQE_STAT_RESYNC ∧ { t.qe with op := s.qe.op } = s.qe ∧ Regs s t [rQE_STAT] ∧ NoEvents s t ∧ Kept s
    { t with qe := s.qe }) ∧
  (s.flag fQE_STAT_QOPBUSY = false → (queueOf s (s.fld fQE_QSEL)).st ≠ 0 → Ends (.createEvt) s fun t => t.qe.op = some
    ⟨2, (s.fld fQE_QSEL), 2, none⟩ ∧ t.flag fQE_STAT_QOPBUSY = true ∧ t.flag fQE_STAT_RESYNC = s.flag fQE_STAT_RESYNC
    ∧ { t.qe with op := s.qe.op } = s.qe ∧ Regs s t [rQE_STAT] ∧ NoEvents s t ∧ Kept s { t with qe := s.qe }) ∧
  (s.flag fQE_STAT_QOPBUSY = false → (queueOf s (s.fld fQE_QSEL)).st = 0 → SizesBad s 2 → Ends (.createEvt) s fun t =>
    t.qe.op = some ⟨2, (s.fld fQE_QSEL), 4, none⟩ ∧ t.flag fQE_STAT_QOPBUSY = true ∧ t.flag fQE_STAT_RESYNC = s.flag
    fQE_STAT_RESYNC ∧ { t.qe with op := s.qe.op } = s.qe ∧ Regs s t [rQE_STAT] ∧ NoEvents s t ∧ Kept s
    { t with qe := s.qe }) ∧
  (s.flag fQE_STAT_QOPBUSY = false → (queueOf s (s.fld fQE_QSEL)).st = 0 → ¬ SizesBad s 1 → Ends (.createCmd) s fun t
    => t.qe.op = some ⟨1, (s.fld fQE_QSEL), 0, some (asked s)⟩ ∧ t.flag fQE_STAT_QOPBUSY = true ∧ t.flag
    fQE_STAT_RESYNC = s.flag fQE_STAT_RESYNC ∧ { t.qe with op := s.qe.op } = s.qe ∧ Regs s t [rQE_STAT] ∧ NoEvents s t
    ∧ Kept s { t with qe := s.qe }) ∧
  (s.flag fQE_STAT_QOPBUSY = false → (queueOf s (s.fld fQE_QSEL)).st = 0 → ¬ SizesBad s 2 → Ends (.createEvt) s fun t
    => t.qe.op = some ⟨2, (s.fld fQE_QSEL), 0, none⟩ ∧ t.flag fQE_STAT_QOPBUSY = true ∧ t.flag fQE_STAT_RESYNC =
    s.flag fQE_STAT_RESYNC ∧ queueOf t (s.fld fQE_QSEL) = described s 2 ∧ OtherQ s
    { t with qe := withOp s.qe.op t.qe } (s.fld fQE_QSEL) ∧ Regs s t [rQE_STAT] ∧ NoEvents s t ∧ Kept s
    { t with qe := s.qe }) ∧
  (s.flag fQE_STAT_QOPBUSY = false → (queueOf s (s.fld fQE_QSEL)).st = 0 → Ends (.delete) s fun t => t.qe.op = some
    ⟨3, (s.fld fQE_QSEL), 3, none⟩ ∧ t.flag fQE_STAT_QOPBUSY = true ∧ t.flag fQE_STAT_RESYNC = s.flag fQE_STAT_RESYNC
    ∧ { t.qe with op := s.qe.op } = s.qe ∧ Regs s t [rQE_STAT] ∧ NoEvents s t ∧ Kept s { t with qe := s.qe }) ∧
  (s.flag fQE_STAT_QOPBUSY = false → (queueOf s (s.fld fQE_QSEL)).st ≠ 0 → (queueOf s (s.fld fQE_QSEL)).resv ≠ 0 →
    Ends (.delete) s fun t => t.qe.op = some ⟨3, (s.fld fQE_QSEL), 5, none⟩ ∧ t.flag fQE_STAT_QOPBUSY = true ∧ t.flag
    fQE_STAT_RESYNC = s.flag fQE_STAT_RESYNC ∧ { t.qe with op := s.qe.op } = s.qe ∧ Regs s t [rQE_STAT] ∧ NoEvents s t
    ∧ Kept s { t with qe := s.qe }) ∧
  (s.flag fQE_STAT_QOPBUSY = false → (queueOf s (s.fld fQE_QSEL)).st ≠ 0 → (queueOf s (s.fld fQE_QSEL)).resv = 0 →
    Ends (.delete) s fun t => t.qe.op = some ⟨3, (s.fld fQE_QSEL), 0, none⟩ ∧ t.flag fQE_STAT_QOPBUSY = true ∧ t.flag
    fQE_STAT_RESYNC = s.flag fQE_STAT_RESYNC ∧ queueOf t (s.fld fQE_QSEL) = Queue.absent ∧ OtherQ s
    { t with qe := withOp s.qe.op t.qe } (s.fld fQE_QSEL) ∧ Regs s t [rQE_STAT] ∧ NoEvents s t ∧ Kept s
    { t with qe := s.qe }) ∧
  (s.flag fQE_STAT_QOPBUSY = false → (queueOf s (s.fld fQE_QSEL)).st = 0 → Ends (.qopRead) s fun t => t.qe.op = some
    ⟨4, (s.fld fQE_QSEL), 3, none⟩ ∧ t.flag fQE_STAT_QOPBUSY = true ∧ t.flag fQE_STAT_RESYNC = s.flag fQE_STAT_RESYNC
    ∧ { t.qe with op := s.qe.op } = s.qe ∧ Regs s t [rQE_STAT] ∧ NoEvents s t ∧ Kept s { t with qe := s.qe }) ∧
  (∀ (x : Queue), s.flag fQE_STAT_QOPBUSY = false → (queueOf s (s.fld fQE_QSEL)) = x → x.st ≠ 0 → x.st < 4 → x.ty < 4
    → x.err < 16 → x.vec < 256 → x.cqLog < 32 → x.sqLog ≤ 16 → Ends (.qopRead) s fun t => t.qe.op = some ⟨4, (s.fld
    fQE_QSEL), 0, none⟩ ∧ t.flag fQE_STAT_QOPBUSY = true ∧ t.flag fQE_STAT_RESYNC = s.flag fQE_STAT_RESYNC ∧
    { t.qe with op := s.qe.op } = s.qe ∧ t.rd64 rQE_SQBASE = x.sqBase % 2 ^ 64 ∧ t.rd64 rQE_CQBASE = x.cqBase % 2 ^ 64
    ∧ t.fld fQE_QCFG_VECTOR = x.vec ∧ t.fld fQE_QCFG_CQLOG2 = x.cqLog ∧ t.fld fQE_QCFG_SQLOG2 = x.sqLog ∧ t.fld
    fQE_QSTATE_STATE = x.st ∧ t.fld fQE_QSTATE_TYPE = x.ty ∧ t.fld fQE_QSTATE_ERR = x.err ∧ t.fld fQE_QSTATE_SQHEAD =
    x.sqHead % 2 ^ x.sqLog ∧ (t.rd rQE_QHSEQ).toNat = x.h % 2 ^ 32 ∧ Regs s t [rQE_STAT, rQE_SQBASE, rQE_SQBASE + 1,
    rQE_CQBASE, rQE_CQBASE + 1, rQE_QCFG, rQE_QSTATE, rQE_QHSEQ, rQE_QRESV] ∧ NoEvents s t ∧ Kept s
    { t with qe := s.qe }) ∧
  (frozen s qePg = true ∨ s.qe.op = none → Ends (.qopDone) s fun t => t = s) ∧
  (∀ (op : QOp), frozen s qePg = false → s.qe.op = some op → op.new = none → Ends (.qopDone) s fun t => t.qe = withOp
    none s.qe ∧ t.flag fQE_STAT_QOPBUSY = false ∧ t.fld fQE_QRES = op.res % 256 ∧ t.flag fQE_STAT_RESYNC = s.flag
    fQE_STAT_RESYNC ∧ Posted s t 0x1020 0 1 (bytesOfNat 2 op.q ++ bytesOfNat 2 0 ++ bytesOfNat 4 op.res ++ bytesOfNat
    8 (s.rd64 rSH_TICKNO)) ∧ RegsEv s t [rQE_STAT, fQE_QRES.key] [0x1020] ∧ Kept s { t with qe := s.qe }) ∧
  (∀ (op : QOp) (x : Queue), frozen s qePg = false → s.qe.op = some op → op.new = some x → slUp s = false ∨ s.sl.initF
    = true ∨ s.sl.initH = true → Ends (.qopDone) s fun t => t = s) ∧
  (∀ (op : QOp) (x : Queue), frozen s qePg = false → s.qe.op = some op → op.new = some x → Through s → x.cmds = [] →
    x.ty = 1 → (∀ i ∈ jOccupied s, jQid s i ≠ op.q) → Ends (.qopDone) s fun t => queueOf t op.q = x ∧ OtherQ s
    { t with qe := withOp s.qe.op t.qe } op.q ∧ t.qe.op = none ∧ t.fld fSL_DUPDROP = copies s ∧ t.flag
    fQE_STAT_QOPBUSY = false ∧ t.fld fQE_QRES = op.res % 256 ∧ t.flag fQE_STAT_RESYNC = s.flag fQE_STAT_RESYNC ∧
    Posted s t 0x1020 0 1 (bytesOfNat 2 op.q ++ bytesOfNat 2 0 ++ bytesOfNat 4 op.res ++ bytesOfNat 8 (s.rd64
    rSH_TICKNO)) ∧ RegsEv s t [rQE_STAT, fQE_QRES.key, fSL_DUPDROP.key] [0x1020] ∧ WentAndCame s t ∧ Kept s
    { t with qe := s.qe }) ∧
  (∀ (op : QOp) (x : Queue) (i : Nat), frozen s qePg = false → s.qe.op = some op → op.new = some x → Through s →
    x.cmds = [] → x.ty = 1 → x.h < 2 ^ 32 → jOccupied s = [i] → jQid s i = op.q → jState s i = 1 → s.tj.writes = [] →
    jBad s i = false → 0 < (jCseq s i + 2 ^ 32 - x.h) % 2 ^ 32 → (jCseq s i + 2 ^ 32 - x.h) % 2 ^ 32 < 2 ^ 31 → (jInfo
    s i).bound ≠ 0 → qeBlocked s = true → Ends (.qopDone) s fun t => queueOf t op.q = restored s i x ∧ OtherQ s
    { t with qe := withOp s.qe.op t.qe } op.q ∧ t.qe.op = none ∧ t.mram = s.mram ∧ t.tj = s.tj ∧ t.out = s.out ∧ t.fld
    fSL_DUPDROP = copies s ∧ t.flag fQE_STAT_QOPBUSY = false ∧ t.fld fQE_QRES = op.res % 256 ∧ t.flag fQE_STAT_RESYNC
    = s.flag fQE_STAT_RESYNC ∧ Posted s t 0x1020 0 1 (bytesOfNat 2 op.q ++ bytesOfNat 2 0 ++ bytesOfNat 4 op.res ++
    bytesOfNat 8 (s.rd64 rSH_TICKNO)) ∧ RegsEv s t [rQE_STAT, fQE_QRES.key, fSL_DUPDROP.key] [0x1020] ∧ WentAndCame s
    t) ∧
  (∀ (op : QOp) (x : Queue) (i : Nat), frozen s qePg = false → s.qe.op = some op → op.new = some x → Through s →
    x.cmds = [] → x.ty = 1 → x.h < 2 ^ 32 → jOccupied s = [i] → jQid s i = op.q → s.tj.writes = [] → jBad s i = false
    → (jCseq s i + 2 ^ 32 - x.h) % 2 ^ 32 = 0 ∨ 2 ^ 31 ≤ (jCseq s i + 2 ^ 32 - x.h) % 2 ^ 32 → Ends (.qopDone) s fun t
    => queueOf t op.q = x ∧ OtherQ s { t with qe := { t.qe with op := s.qe.op, relSent := s.qe.relSent } } op.q ∧
    t.qe.op = none ∧ t.qe.relSent = (s.qe.relSent.filter fun j => j != i) ++ [i] ∧ (slTxOf t 17).cells = [⟨((slTxOf s
    17).next + 1) % 65536, 0, 1, .release i⟩] ∧ t.mram = s.mram ∧ t.tj = s.tj ∧ t.out = s.out ∧ t.fld fSL_DUPDROP =
    copies s ∧ t.flag fQE_STAT_QOPBUSY = false ∧ t.fld fQE_QRES = op.res % 256 ∧ t.flag fQE_STAT_RESYNC = s.flag
    fQE_STAT_RESYNC ∧ Posted s t 0x1020 0 1 (bytesOfNat 2 op.q ++ bytesOfNat 2 0 ++ bytesOfNat 4 op.res ++ bytesOfNat
    8 (s.rd64 rSH_TICKNO)) ∧ RegsEv s t [rQE_STAT, fQE_QRES.key, fSL_DUPDROP.key] [0x1020]) ∧
  (∀ (q : BitVec 16) (e : List Byte), QNums s → ¬ MayFetch s q.toNat → Ends (.entryFetch q e) s fun t => t = s) ∧
  (∀ (q : BitVec 16) (e : List Byte), MayFetch s q.toNat → BadEntry e → Ends (.entryFetch q e) s fun t => queueOf t
    q.toNat = qErr 2 (queueOf s q.toNat) ∧ pendBit t 0x1020 1 = true ∧ OtherQ s
    { t with qe := { t.qe with turn := s.qe.turn, left := s.qe.left } } q.toNat ∧ t.qe = turned s q.toNat t.qe ∧
    RegsEv s t [] [0x1020] ∧ Kept s { t with qe := s.qe }) ∧
  (∀ (q : BitVec 16) (e : List Byte), MayFetch s q.toNat → ¬ BadEntry e → gap (queueOf s q.toNat) e = 1 → Ends
    (.entryFetch q e) s fun t => queueOf t q.toNat = takenNew e (queueOf s q.toNat) ∧ OtherQ s
    { t with qe := { t.qe with turn := s.qe.turn, left := s.qe.left } } q.toNat ∧ t.qe = turned s q.toNat t.qe ∧ Regs
    s t [] ∧ NoEvents s t ∧ Kept s { t with qe := s.qe }) ∧
  (∀ (q : BitVec 16) (e : List Byte), OpenQ s q.toNat → s.qe.left ≠ 0 → s.qe.turn ≠ q.toNat → OpenQ s s.qe.turn → Ends
    (.entryFetch q e) s fun t => t = s) ∧
  (∀ (q : BitVec 16) (e : List Byte), MayFetch s q.toNat → ¬ BadEntry e → 1 < gap (queueOf s q.toNat) e → gap (queueOf
    s q.toNat) e < 2 ^ 31 → Ends (.entryFetch q e) s fun t => queueOf t q.toNat = qErr 1 (queueOf s q.toNat) ∧ pendBit
    t 0x1020 1 = true ∧ OtherQ s { t with qe := { t.qe with turn := s.qe.turn, left := s.qe.left } } q.toNat ∧ t.qe =
    turned s q.toNat t.qe ∧ RegsEv s t [] [0x1020] ∧ Kept s { t with qe := s.qe }) ∧
  (∀ (q : BitVec 16) (e : List Byte) (c : QCmd), MayFetch s q.toNat → ¬ BadEntry e → gap (queueOf s q.toNat) e = 0 ∨ 2
    ^ 31 ≤ gap (queueOf s q.toNat) e → (queueOf s q.toNat).cmds = [c] → c.cseq = numAt e 4 4 → c.st = .fetched ∨ c.st
    = .sent → Ends (.entryFetch q e) s fun t => queueOf t q.toNat = takenDupl e (queueOf s q.toNat) ∧ OtherQ s
    { t with qe := { t.qe with turn := s.qe.turn, left := s.qe.left } } q.toNat ∧ t.qe = turned s q.toNat t.qe ∧ Regs
    s t [] ∧ NoEvents s t ∧ Kept s { t with qe := s.qe }) ∧
  (∀ (q : BitVec 16) (e : List Byte), MayFetch s q.toNat → ¬ BadEntry e → gap (queueOf s q.toNat) e = 0 ∨ 2 ^ 31 ≤ gap
    (queueOf s q.toNat) e → (queueOf s q.toNat).cmds = [] → (queueOf s q.toNat).armed = false → Ends (.entryFetch q e)
    s fun t => queueOf t q.toNat = duplRecord (queueOf s q.toNat) ∧ t.out = duplOut s (queueOf s q.toNat) e :: s.out ∧
    OtherQ s { t with qe := { t.qe with turn := s.qe.turn, left := s.qe.left } } q.toNat ∧ t.qe = turned s q.toNat
    t.qe ∧ Regs s t [] ∧ NoEvents s t ∧ Kept s { t with qe := s.qe, out := s.out }) ∧
  (∀ (q : BitVec 16), QNums s → frozen s qePg = true ∨ ¬ MayFetch s q.toNat → Ends (.fetchErr q) s fun t => t = s) ∧
  (∀ (q : BitVec 16), frozen s qePg = false → MayFetch s q.toNat → Ends (.fetchErr q) s fun t => queueOf t q.toNat =
    qErr 3 (queueOf s q.toNat) ∧ t.fld fPX_UECNT = satInc 32 (s.fld fPX_UECNT) ∧ pendBit t 0x1020 1 = true ∧ pendBit t
    0x1010 2 = true ∧ OtherQ s { t with qe := { t.qe with turn := s.qe.turn, left := s.qe.left } } q.toNat ∧ t.qe =
    turned s q.toNat t.qe ∧ RegsEv s t [fPX_UECNT.key] [0x1020, 0x1010] ∧ Kept s { t with qe := s.qe }) ∧
  (∀ (q : BitVec 16), (frozen s qePg = true ∨ s.flag fQE_STAT_RESYNC = true ∨ ∀ c ∈ (queueOf s q.toNat).cmds, c.st ≠
    .fetched) → Ends (.commandSend q) s fun t => t = s) ∧
  (∀ (q : BitVec 16) (c : QCmd), ((queueOf s q.toNat).cmds.find? fun x => x.st == .fetched) = some c → HeldBack s
    q.toNat c → Ends (.commandSend q) s fun t => t = s) ∧
  (∀ (q : BitVec 16) (c : QCmd), frozen s qePg = false → s.flag fQE_STAT_RESYNC = false → ((queueOf s
    q.toNat).cmds.find? fun x => x.st == .fetched) = some c → ¬ HeldBack s q.toNat c → (queueOf s q.toNat).cmds.Nodup
    → Ends (.commandSend q) s fun t => Sends s t 16 (.cmd q.toNat c.entry) ∧ queueOf t q.toNat = sentCmd c (queueOf s
    q.toNat) ∧ OtherQ s t q.toNat ∧ Regs s t [] ∧ NoEvents s { t with sl := s.sl } ∧ Kept s { t with qe := s.qe }) ∧
  (frozen s qePg = true ∨ (s.evIn = [] ∧ slUp s = false ∧ (∀ m ∈ s.sl.inH, isEvent m = false))  → Ends
    (.eventRecordRoute) s fun t => t = s) ∧
  (∀ (q : Nat) (r : EvRec) (rest : List (Nat × EvRec)), frozen s qePg = false → s.evIn = (q, r) :: rest → (∀ m ∈
    s.sl.inH, isEvent m = false) → qeBlocked s = true → Ends (.eventRecordRoute) s fun t => t = s) ∧
  (∀ (q : Nat) (r : EvRec) (rest : List (Nat × EvRec)), frozen s qePg = false → s.evIn = (q, r) :: rest → (∀ m ∈
    s.sl.inH, isEvent m = false) → qeBlocked s = false → (queueOf s q).st = 0 ∨ (queueOf s q).ty ≠ 2 → (queueOf s
    q).st = 0 ∨ (queueOf s q).cmds = [] → Ends (.eventRecordRoute) s fun t => t.fld fQE_EVNOQ = satInc 32 (s.fld
    fQE_EVNOQ) ∧ t.evIn = rest ∧ t.qe = s.qe ∧ t.sl = s.sl ∧ Regs s t [fQE_EVNOQ.key] ∧ Kept s t) ∧
  (∀ (q : Nat) (r : EvRec) (rest : List (Nat × EvRec)), frozen s qePg = false → s.evIn = (q, r) :: rest → (∀ m ∈
    s.sl.inH, isEvent m = false) → qeBlocked s = false → (queueOf s q).st ≠ 0 → (queueOf s q).ty = 2 → (queueOf s
    q).dropNew = 0 → full (queueOf s q) = false → (queueOf s q).armed = false ∨ (queueOf s q).vec < 256 → Ends
    (.eventRecordRoute) s fun t => queueOf t q = eventTaken (queueOf s q) ∧ t.out = (if (queueOf s q).armed then
    msixOut s (queueOf s q).vec else []) ++ (eventOut (queueOf s q) r :: s.out) ∧ ((queueOf s q).armed = false ∨
    VectorSet s t (queueOf s q).vec) ∧ t.evIn = rest ∧ OtherQ s t q ∧ Regs s t [rPX_PBAi ((queueOf s q).vec / 32)] ∧
    Kept s { t with qe := s.qe, out := s.out }) ∧
  (∀ (q : Nat) (r : EvRec) (rest : List (Nat × EvRec)), frozen s qePg = false → s.evIn = (q, r) :: rest → (∀ m ∈
    s.sl.inH, isEvent m = false) → qeBlocked s = false → (queueOf s q).st ≠ 0 → (queueOf s q).ty = 2 → (queueOf s
    q).dropNew = 0 → full (queueOf s q) = true → Ends (.eventRecordRoute) s fun t => queueOf t q = eventDropped
    (queueOf s q) ∧ pendBit t 0x1020 2 = true ∧ OtherQ s t q ∧ t.out = s.out ∧ RegsEv s t [] [0x1020] ∧ Kept s
    { t with qe := s.qe }) ∧
  (∀ (q : Nat) (r : EvRec) (rest : List (Nat × EvRec)), frozen s qePg = false → s.evIn = (q, r) :: rest → (∀ m ∈
    s.sl.inH, isEvent m = false) → qeBlocked s = false → (queueOf s q).st ≠ 0 → (queueOf s q).ty = 2 → (queueOf s
    q).dropNew ≠ 0 → full (queueOf s q) = true → Ends (.eventRecordRoute) s fun t => queueOf t q = eventDropped
    (queueOf s q) ∧ t.evIn = rest ∧ OtherQ s t q ∧ t.out = s.out ∧ Regs s t [] ∧ Kept s { t with qe := s.qe }) ∧
  (∀ (q : Nat) (r : EvRec) (rest : List (Nat × EvRec)), frozen s qePg = false → s.evIn = (q, r) :: rest → (∀ m ∈
    s.sl.inH, isEvent m = false) → qeBlocked s = false → (queueOf s q).st ≠ 0 → (queueOf s q).ty = 2 → (queueOf s
    q).dropNew ≠ 0 → (queueOf s q).armed = false → ((queueOf s q).cqTail - (queueOf s q).cqHead) + (queueOf s q).resv
    + 2 ≤ 2 ^ (queueOf s q).cqLog → Ends (.eventRecordRoute) s fun t => queueOf t q = eventTaken (overflowed (queueOf
    s q)) ∧ t.out = eventOut (overflowed (queueOf s q)) r :: overflowOut s (queueOf s q) :: s.out ∧ t.evIn = rest ∧
    OtherQ s t q ∧ Regs s t [] ∧ Kept s { t with qe := s.qe, out := s.out }) ∧
  (∀ (w : BitVec 6) (v : BitVec 4), frozen s pxPg = true → Ends (.pcieLinkUp w v) s fun t => t = s) ∧
  (∀ (w : BitVec 6) (v : BitVec 4), frozen s pxPg = false → s.qe.queues = [] → s.fld fPX_LSTAT_SPEED = v.toNat → Ends
    (.pcieLinkUp w v) s fun t => t.fld fPX_LSTAT_WIDTH = w.toNat % 32 ∧ t.fld fPX_LSTAT_SPEED = v.toNat ∧ t.flag
    fPX_LSTAT_L1 = s.flag fPX_LSTAT_L1 ∧ t.qe = linked s.qe ∧ Regs s t [rPX_LSTAT] ∧ NoEvents s t ∧ Kept s
    { t with qe := s.qe }) ∧
  (∀ (w : BitVec 6) (v : BitVec 4), frozen s pxPg = false → s.qe.queues = [] → s.fld fPX_LSTAT_SPEED ≠ v.toNat → Ends
    (.pcieLinkUp w v) s fun t => t.fld fPX_LSTAT_WIDTH = w.toNat % 32 ∧ t.fld fPX_LSTAT_SPEED = v.toNat ∧ t.flag
    fPX_LSTAT_L1 = s.flag fPX_LSTAT_L1 ∧ t.qe = linked s.qe ∧ pendBit t 0x1010 1 = true ∧ RegsEv s t [rPX_LSTAT]
    [0x1010] ∧ Kept s { t with qe := s.qe }) ∧
  (∀ (on : Bool), on = true ∨ s.qe.queues = [] → Ends (.pcieD3hot on) s fun t => t.qe = inD3 on s.qe ∧ Regs s t [] ∧
    NoEvents s t ∧ Kept s { t with qe := s.qe })

/-- R95, R96, R431, R437, R439 to R441, R449, R450: an entry's way from its commit write over the acknowledgement, the notice and
the outcome to its release; the replay after a power-up. -/
def Obligations.Journal : Prop := ∀ (s : State), 
  (frozen s slPg = true ∨ (slUp s = false ∧ ∀ m ∈ s.sl.inF, m.cls ≠ 0) → Ends (.journalCommit) s fun t => t = s) ∧
  (∀ (q : Nat) (e : List Byte), frozen s slPg = false → FirstF s 0 (.cmd q e) → s.flag fPWR_STAT_BELOW = true → Ends
    (.journalCommit) s fun t => t = s) ∧
  (∀ (q : Nat) (e : List Byte), frozen s slPg = false → FirstF s 0 (.cmd q e) → s.flag fPWR_STAT_BELOW = false → jOcc
    s ((s.tj.last + 1) % 16384) = false → s.fld fTJ_OCC + 1 < 16384 → Ends (.journalCommit) s fun t => t.tj = writing
    ⟨((s.tj.last + 1) % 16384), false, bytesAt e 0 64, q, fcycOf s, 0⟩ s.tj ∧ t.sl = tookF (.cmd q e) s.sl ∧ t.fld
    fTJ_OCC = s.fld fTJ_OCC + 1 ∧ t.flag fQE_STAT_JFULL = false ∧ t.flag fQE_STAT_RESYNC = s.flag fQE_STAT_RESYNC ∧
    Regs s t [rTJ_OCC, rQE_STAT] ∧ NoEvents s { t with sl := s.sl } ∧ Kept s { t with tj := s.tj }) ∧
  (∀ (q : Nat) (e : List Byte), frozen s slPg = false → FirstF s 0 (.cmd q e) → s.flag fPWR_STAT_BELOW = false → jOcc
    s ((s.tj.last + 1) % 16384) = false → s.fld fTJ_OCC = 16383 → s.flag fQE_STAT_JFULL = false → Ends
    (.journalCommit) s fun t => t.tj = writing ⟨((s.tj.last + 1) % 16384), false, bytesAt e 0 64, q, fcycOf s, 0⟩ s.tj
    ∧ t.sl = tookF (.cmd q e) s.sl ∧ t.fld fTJ_OCC = 16384 ∧ t.flag fQE_STAT_JFULL = true ∧ pendBit t 0x1020 3 = true
    ∧ RegsEv s t [rTJ_OCC, rQE_STAT] [0x1020] ∧ Kept s { t with tj := s.tj }) ∧
  (∀ (i : BitVec 14), (frozen s slPg = true ∨ ∀ w ∈ s.tj.writes, w.idx ≠ i.toNat) → Ends (.journalWriteComplete i) s
    fun t => t = s) ∧
  (∀ (i : BitVec 14) (w : JWrite), frozen s slPg = false → (s.tj.writes.find? fun w => w.idx == i.toNat) = some w →
    w.mark = false → Ends (.journalWriteComplete i) s fun t => Wrote s.mram t.mram (entryAt i.toNat) (committedBytes s
    w.q w.bytes) ∧ jInfo t i.toNat = committedInfo s w.bytes ∧ OtherInfos s t i.toNat ∧ t.tj.writes =
    s.tj.writes.erase w ∧ t.tj.last = s.tj.last ∧ t.tj.seq = s.tj.seq + 1 ∧ Sends s t 1 (.jack w.q (numAt w.bytes 4 4)
    i.toNat (tickNo s) (angleOf s)) ∧ Regs s t [] ∧ NoEvents s { t with sl := s.sl } ∧ Kept s
    { t with tj := s.tj, mram := s.mram, lmErr := s.lmErr }) ∧
  (∀ (i : BitVec 14) (w : JWrite), frozen s slPg = false → (s.tj.writes.find? fun w => w.idx == i.toNat) = some w →
    w.mark = true → numAt w.bytes 0 1 < 4 → Ends (.journalWriteComplete i) s fun t => jState t i.toNat = 2 ∧ jStatus t
    i.toNat = numAt w.bytes 0 1 ∧ jClass t i.toNat = jClass s i.toNat ∧ (∀ k, k ≠ entryAt i.toNat + 1 → storeGet 0
    t.mram k = storeGet 0 s.mram k) ∧ t.tj.info = s.tj.info ∧ t.tj.writes = s.tj.writes.erase w ∧ t.fld fTJ_MARKMAX =
    (if numAt w.bytes 0 1 = 1 then max (s.fld fTJ_MARKMAX) (min 65535 (((fcycOf s - w.start) * 125 + 191) / 192)) else
    s.fld fTJ_MARKMAX) % 65536 ∧ Regs s t [fTJ_MARKMAX.key] ∧ NoEvents s t ∧ Kept s
    { t with tj := s.tj, mram := s.mram, lmErr := s.lmErr }) ∧
  (frozen s qePg = true ∨ (slUp s = false ∧ ∀ m ∈ s.sl.inH, isJack m = false) → Ends (.journalAckReceive) s fun t => t
    = s) ∧
  (∀ (q cs i ta an : Nat), frozen s qePg = false → (s.sl.inH.find? isJack) = some (.jack q cs i ta an) → (∀ c ∈
    (queueOf s q).cmds, c.st ≠ .sent ∨ c.cseq ≠ cs) → Ends (.journalAckReceive) s fun t => t.sl = tookH (.jack q cs i
    ta an) s.sl ∧ t.qe.queues = s.qe.queues ∧ t.qe.relSent = s.qe.relSent.filter (fun j => j != i) ∧ Regs s t [] ∧
    NoEvents s { t with sl := s.sl } ∧ Kept s { t with qe := s.qe }) ∧
  (∀ (q cs i ta an : Nat) (c : QCmd), frozen s qePg = false → (s.sl.inH.find? isJack) = some (.jack q cs i ta an) →
    (queueOf s q).cmds = [c] → c.st = .sent → c.cseq = cs → qeBlocked s = true → Ends (.journalAckReceive) s fun t =>
    queueOf t q = oneCmd (committedCmd i ta an c) (queueOf s q) ∧ t.sl = tookH (.jack q cs i ta an) s.sl ∧
    t.qe.relSent = s.qe.relSent.filter (fun j => j != i) ∧ Regs s t [] ∧ NoEvents s { t with sl := s.sl } ∧ Kept s
    { t with qe := s.qe }) ∧
  (∀ (q cs i ta an : Nat) (c : QCmd) (k : Nat), frozen s qePg = false → (s.sl.inH.find? isJack) = some (.jack q cs i
    ta an) → (queueOf s q).cmds = [c] → c.st = .sent → c.cseq = cs → qeBlocked s = false → (queueOf s q).st = 1 →
    (queueOf s q).ty = 1 → (queueOf s q).armed = false → (∀ m ∈ s.sl.inH, isOutcome m = false) → c.rep = 0 → c.slot =
    some k → k ≤ (queueOf s q).fetch → Ends (.journalAckReceive) s fun t => queueOf t q = acceptWritten (committedCmd
    i ta an c) (queueOf s q) ∧ t.out = cmdRecord (queueOf s q) 1 0 0 (queueOf s q).fetch (committedCmd i ta an c) an
    ta :: s.out ∧ t.rd64 rQE_ACCCNT = (s.rd64 rQE_ACCCNT + 1) % 2 ^ 64 ∧ (slTxOf t 17).cells = (slTxOf s 17).cells ++
    [⟨(slTxOf s 17).next % 65536, 0, 1, .notice i⟩] ∧ t.sl.inH = s.sl.inH.erase (.jack q cs i ta an) ∧ Regs s t
    [rQE_ACCCNT, rQE_ACCCNT + 1] ∧ NoEvents s { t with sl := s.sl } ∧ Kept s { t with qe := s.qe, out := s.out }) ∧
  (frozen s slPg = true ∨ (slUp s = false ∧ ∀ m ∈ s.sl.inF, isNotice m = false) → Ends (.acceptNoticeReceive) s fun t
    => t = s) ∧
  (∀ (i : Nat), frozen s slPg = false → (s.sl.inF.find? isNotice) = some (.notice i) → Ends (.acceptNoticeReceive) s
    fun t => jInfo t i = noticedInfo (jInfo s i) ∧ t.sl = tookF (.notice i) s.sl ∧ OtherInfos s t i ∧ t.tj.writes =
    s.tj.writes ∧ Regs s t [] ∧ NoEvents s { t with sl := s.sl } ∧ Kept s { t with tj := s.tj }) ∧
  (∀ (i : Nat), frozen s slPg = false → (∀ m ∈ s.sl.inF, isNotice m = false) → Crossing s 17 (.notice i) → Ends
    (.acceptNoticeReceive) s fun t => jInfo t i = noticedInfo (jInfo s i) ∧ Crossed s t 17 ∧ t.sl.inF = s.sl.inF ∧
    t.fld fSL_DUPDROP = copies s ∧ OtherInfos s t i ∧ t.tj.writes = s.tj.writes ∧ Regs s t [fSL_DUPDROP.key] ∧
    NoEvents s { t with sl := s.sl } ∧ Kept s { t with tj := s.tj }) ∧
  (frozen s qePg = true ∨ (slUp s = false ∧ ∀ m ∈ s.sl.inH, outcomeStale s m = false) ∧ s.qe.queues = [] → Ends
    (.completionReceive) s fun t => t = s) ∧
  (∀ (q cs i st an ti : Nat), frozen s qePg = false → slUp s = false → s.sl.inH = [(.outcome q cs i st an ti)] → (∀ c
    ∈ (queueOf s q).cmds, c.cseq ≠ cs ∨ c.st = .fetched ∨ c.st = .completed ∨ c.st = .dup) → Ends (.completionReceive)
    s fun t => t.sl = tookH (.outcome q cs i st an ti) s.sl ∧ t.qe = s.qe ∧ Regs s t [] ∧ NoEvents s
    { t with sl := s.sl } ∧ Kept s t) ∧
  (∀ (q cs i st an ti : Nat) (c : QCmd), frozen s qePg = false → slUp s = false → s.sl.inH = [(.outcome q cs i st an
    ti)] → qeBlocked s = false → s.qe.queues = [(q, (queueOf s q))] → (queueOf s q).st = 1 → (queueOf s q).ty = 1 →
    (queueOf s q).armed = false → (queueOf s q).cmds = [c] → c.st = .accepted → c.cseq = cs → c.idx = i → c.rep = 0 →
    Ends (.completionReceive) s fun t => queueOf t q = completeWritten c (queueOf s q) ∧ t.out = cmdRecord (queueOf s
    q) 2 (outcomeCode st) 0 (queueOf s q).fetch c an ti :: s.out ∧ t.sl = tookH (.outcome q cs i st an ti) s.sl ∧ Regs
    s t [] ∧ NoEvents s { t with sl := s.sl } ∧ Kept s { t with qe := s.qe, out := s.out }) ∧
  (frozen s slPg = true ∨ (slUp s = false ∧ ∀ m ∈ s.sl.inF, isRelease m = false) → Ends (.journalRelease) s fun t => t
    = s) ∧
  (∀ (i : Nat), frozen s slPg = false → (s.sl.inF.find? isRelease) = some (.release i) → s.flag fPWR_STAT_BELOW = true
    → Ends (.journalRelease) s fun t => t = s) ∧
  (∀ (i : Nat), frozen s slPg = false → (s.sl.inF.find? isRelease) = some (.release i) → s.flag fPWR_STAT_BELOW =
    false → jState s i ≠ 2 → Ends (.journalRelease) s fun t => t.sl = tookF (.release i) s.sl ∧ Regs s t [] ∧ NoEvents
    s { t with sl := s.sl } ∧ Kept s t) ∧
  (∀ (i : Nat), frozen s slPg = false → (s.sl.inF.find? isRelease) = some (.release i) → s.flag fPWR_STAT_BELOW =
    false → jState s i = 2 → s.fld fTJ_OCC ≤ 16384 → Ends (.journalRelease) s fun t => jState t i = 3 ∧ jStatus t i =
    jStatus s i ∧ jClass t i = jClass s i ∧ (∀ k, k ≠ entryAt i + 1 → storeGet 0 t.mram k = storeGet 0 s.mram k) ∧
    jInfo t i = JInfo.zero ∧ OtherInfos s t i ∧ t.tj.writes = s.tj.writes ∧ t.fld fTJ_OCC = s.fld fTJ_OCC - 1 ∧ t.flag
    fQE_STAT_JFULL = false ∧ t.sl = tookF (.release i) s.sl ∧ Regs s t [rTJ_OCC, rQE_STAT] ∧ NoEvents s
    { t with sl := s.sl } ∧ Kept s { t with tj := s.tj, mram := s.mram, lmErr := s.lmErr }) ∧
  (s.tj.replayOk = false → Ends (.replay) s fun t => t.flag fTJ_STAT_CFGREFUSED = true ∧ t.tj = s.tj ∧ t.flag
    fTJ_STAT_HELD = s.flag fTJ_STAT_HELD ∧ Regs s t [rTJ_STAT] ∧ NoEvents s t ∧ Kept s t) ∧
  (s.tj.replayOk = true → jListed s = [] → Ends (.replay) s fun t => t.flag fTJ_STAT_REPLAYING = true ∧ t.flag
    fTJ_STAT_HELD = s.flag fTJ_STAT_HELD ∧ t.tj = replayUsed s.tj ∧ Regs s t [rTJ_STAT] ∧ NoEvents s t ∧ Kept s
    { t with tj := s.tj }) ∧
  (∀ (i : Nat), s.tj.replayOk = true → jListed s = [i] → jInfo s i = JInfo.zero → jBad s i = true → Ends (.replay) s
    fun t => t.flag fTJ_STAT_REPLAYING = true ∧ t.flag fTJ_STAT_HELD = s.flag fTJ_STAT_HELD ∧ t.fld fTJ_UEIDX = i % 2
    ^ fTJ_UEIDX.width ∧ pendBit t 0x150 17 = true ∧ t.tj = replayUsed s.tj ∧ RegsEv s t [rTJ_STAT, fTJ_UEIDX.key]
    [0x150] ∧ Kept s { t with tj := s.tj }) ∧
  (∀ (i : Nat), s.tj.replayOk = true → jListed s = [i] → jInfo s i = JInfo.zero → jBad s i = false → jPending s i =
    true → angleOf s < jDl s i * 65536 → Ends (.replay) s fun t => t.flag fTJ_STAT_REPLAYING = true ∧ t.flag
    fTJ_STAT_HELD = s.flag fTJ_STAT_HELD ∧ jInfo t i = heldInfo s ∧ t.tj.seq = s.tj.seq + 1 ∧ OtherInfos s t i ∧
    t.tj.writes = s.tj.writes ∧ t.tj.replayOk = false ∧ t.mram = s.mram ∧ Regs s t [rTJ_STAT] ∧ NoEvents s t ∧ Kept s
    { t with tj := s.tj }) ∧
  (∀ (i : Nat), s.tj.replayOk = true → jListed s = [i] → jInfo s i = JInfo.zero → jBad s i = false → jPending s i =
    true → jDl s i * 65536 ≤ angleOf s → Ends (.replay) s fun t => t.flag fTJ_STAT_REPLAYING = true ∧ t.flag
    fTJ_STAT_HELD = s.flag fTJ_STAT_HELD ∧ t.tj.writes = s.tj.writes ++ [⟨i, true, bytesOfNat 1 3, jQid s i, fcycOf s,
    tickNo s⟩] ∧ Sends s t 2 (.outcome (jQid s i) (jCseq s i) i 3 (angleOf s) (tickNo s)) ∧ jInfo t i = outAt (angleOf
    s) (tickNo s) (heldInfo s) ∧ t.tj.seq = s.tj.seq + 1 ∧ OtherInfos s t i ∧ t.fld fTJ_EXPIRED = satInc
    fTJ_EXPIRED.width (s.fld fTJ_EXPIRED) ∧ t.tj.replayOk = false ∧ t.mram = s.mram ∧ Regs s t [rTJ_STAT,
    fTJ_EXPIRED.key] ∧ Kept s { t with tj := s.tj }) ∧
  (frozen s slPg = true ∨ s.flag fTJ_STAT_REPLAYING = false → Ends (.replayDone) s fun t => t = s) ∧
  (frozen s slPg = false → s.flag fTJ_STAT_REPLAYING = true → Ends (.replayDone) s fun t => t.flag fTJ_STAT_REPLAYING
    = false ∧ t.flag fTJ_STAT_REPLAYED = true ∧ t.flag fTJ_STAT_HELD = true ∧ pendBit t 0x150 16 = true ∧ RegsEv s t
    [rTJ_STAT] [0x150] ∧ Kept s t) ∧
  (s.flag fTJ_STAT_REPLAYED = false → Ends (.tjRelease) s fun t => t.flag fTJ_STAT_CFGREFUSED = true ∧ t.tj = s.tj ∧
    t.flag fTJ_STAT_HELD = s.flag fTJ_STAT_HELD ∧ Regs s t [rTJ_STAT] ∧ NoEvents s t ∧ Kept s t) ∧
  (s.flag fTJ_STAT_REPLAYED = true → s.tj.released = true → Ends (.tjRelease) s fun t => t = s) ∧
  (s.flag fTJ_STAT_REPLAYED = true → s.tj.released = false → Ends (.tjRelease) s fun t => t.flag fTJ_STAT_HELD = false
    ∧ t.tj.released = true ∧ (∀ i ∈ jListed s, (jInfo s i).held = false ∨ ((jInfo t i).held = false ∧ (jInfo t
    i).noticed = true ∧ (jInfo t i).bound = (jInfo s i).bound ∧ (jInfo t i).byDl = (jInfo s i).byDl)) ∧ (∀ i ∈ jListed
    s, (jInfo s i).held = true ∨ jInfo t i = jInfo s i) ∧ t.tj.writes = s.tj.writes ∧ t.mram = s.mram ∧ Regs s t
    [rTJ_STAT] ∧ NoEvents s t ∧ Kept s { t with tj := s.tj })

/-- R142 to R151, R156 to R158, R161: PANQ queues a background order with a ticket or refuses it with 0; the list reader issues
orders into the queues; launched and background orders start when their pans are free; a strip commits the elements it
computes; an order that ends or faults leaves its record, its resume block or its launched fault. -/
def Obligations.PanOrders : Prop := ∀ (s : State), 
  (∀ (c : Fin 5) (h : Hdr) (x : Xl) (y : Xl) (d : BitVec 5) (k : BitVec 4) (a : BitVec 5), Lone s c.val h x → c.val ≠
    4 → Allowed s c.val .panq false ((s.core c.val).rdC k.toNat) (((s.core c.val).rdC k.toNat).base + ((s.core
    c.val).rdW a.toNat).toNat) 32 0 y → Room s c.val → Ends (.panq c h d k a) s fun t => Issued s
    { t with sal := { t.sal with peak := s.sal.peak } } c.val x 0 (reading .panq y 32 (.panq (keyW (s.core c.val)
    d.toNat) ((s.core c.val).rdC k.toNat)))) ∧
  (∀ (c : Fin 5) (l : PLoad) (k : Nat) (q : Cap) (p : Nat), frozen s (corePg c.val) = false → c.val < 4 → Idle s c.val
    → (s.core c.val).pend = [] → (s.core c.val).fdivs = [] → (s.core c.val).loads = [l] → l.kind = .panq k q → l.size
    = 32 → l.early = none → l.cuts = [] → Readable s c.val l.pa 32 → headPan (descOf (memBytes s (regionOf (coreDie
    c.val) l.pa) 32)) = p → 32 ≤ (panOf s p).bq.length → Ends (.globalLoadReturn c 0 none) s fun t => After (3 -
    l.age) (t.core c.val) = putKey k (BitVec.ofNat 32 0) { s.core c.val with loads := [] } ∧ NotQueued s t c.val 1 ∧
    (∀ m, m ≠ c.val → t.core m = s.core m) ∧ Regs s t [rPAN_CRSTATc c.val] ∧ NoEvents s t ∧ Kept s
    { t with cores := s.cores, sal := { t.sal with peak := s.sal.peak }, pan := s.pan }) ∧
  (∀ (c : Fin 5) (l : PLoad) (k : Nat) (q : Cap) (p : Nat), frozen s (corePg c.val) = false → c.val < 4 → Idle s c.val
    → (s.core c.val).pend = [] → (s.core c.val).fdivs = [] → (s.core c.val).loads = [l] → l.kind = .panq k q → l.size
    = 32 → l.early = none → l.cuts = [] → Readable s c.val l.pa 32 → headPan (descOf (memBytes s (regionOf (coreDie
    c.val) l.pa) 32)) = p → (panOf s p).bq.length < 32 → s.fld (fPAN_CRCFGc_LOG2N c.val) < 4 ∨ 12 < s.fld
    (fPAN_CRCFGc_LOG2N c.val) → Ends (.globalLoadReturn c 0 none) s fun t => After (3 - l.age) (t.core c.val) = putKey
    k (BitVec.ofNat 32 0) { s.core c.val with loads := [] } ∧ NotQueued s t c.val 3 ∧ (∀ m, m ≠ c.val → t.core m =
    s.core m) ∧ Regs s t [rPAN_CRSTATc c.val] ∧ NoEvents s t ∧ Kept s
    { t with cores := s.cores, sal := { t.sal with peak := s.sal.peak }, pan := s.pan }) ∧
  (∀ (c : Fin 5) (l : PLoad) (k : Nat) (q : Cap) (p : Nat), frozen s (corePg c.val) = false → c.val < 4 → Idle s c.val
    → (s.core c.val).pend = [] → (s.core c.val).fdivs = [] → (s.core c.val).loads = [l] → l.kind = .panq k q → l.size
    = 32 → l.early = none → l.cuts = [] → Readable s c.val l.pa 32 → headPan (descOf (memBytes s (regionOf (coreDie
    c.val) l.pa) 32)) = p → (panOf s p).bq.length < 32 → 4 ≤ s.fld (fPAN_CRCFGc_LOG2N c.val) ∧ s.fld
    (fPAN_CRCFGc_LOG2N c.val) ≤ 12 → 2 ^ s.fld (fPAN_CRCFGc_LOG2N c.val) ≤ ringUnread s c.val + ringResv s c.val →
    Ends (.globalLoadReturn c 0 none) s fun t => After (3 - l.age) (t.core c.val) = putKey k (BitVec.ofNat 32 0)
    { s.core c.val with loads := [] } ∧ NotQueued s t c.val 2 ∧ (∀ m, m ≠ c.val → t.core m = s.core m) ∧ Regs s t
    [rPAN_CRSTATc c.val] ∧ NoEvents s t ∧ Kept s
    { t with cores := s.cores, sal := { t.sal with peak := s.sal.peak }, pan := s.pan }) ∧
  (∀ (c : Fin 5) (l : PLoad) (k : Nat) (q : Cap) (p : Nat), frozen s (corePg c.val) = false → c.val < 4 → Idle s c.val
    → (s.core c.val).pend = [] → (s.core c.val).fdivs = [] → (s.core c.val).loads = [l] → l.kind = .panq k q → l.size
    = 32 → l.early = none → l.cuts = [] → Readable s c.val l.pa 32 → headPan (descOf (memBytes s (regionOf (coreDie
    c.val) l.pa) 32)) = p → (panOf s p).bq.length < 32 → 4 ≤ s.fld (fPAN_CRCFGc_LOG2N c.val) ∧ s.fld
    (fPAN_CRCFGc_LOG2N c.val) ≤ 12 → ringUnread s c.val + ringResv s c.val < 2 ^ s.fld (fPAN_CRCFGc_LOG2N c.val) →
    Ends (.globalLoadReturn c 0 none) s fun t => After (3 - l.age) (t.core c.val) = putKey k (BitVec.ofNat 32
    (storeGet 0 s.pan.ticket c.val % 65535 + 1)) { s.core c.val with loads := [] } ∧ panOf t p = withBq (newOrder (.bg
    c.val (storeGet 0 s.pan.ticket c.val % 65535 + 1) (storeGet 0 s.pan.seq c.val + 1)) (descOf (memBytes s (regionOf
    (coreDie c.val) l.pa) 32)) q) (panOf s p) ∧ OtherPan s t p ∧ storeGet 0 t.pan.ticket c.val = (storeGet 0
    s.pan.ticket c.val % 65535 + 1) ∧ storeGet 0 t.pan.seq c.val = storeGet 0 s.pan.seq c.val + 1 ∧ ringResv t c.val =
    ringResv s c.val + 1 ∧ { t.pan with pans := s.pan.pans, ticket := s.pan.ticket, seq := s.pan.seq } = s.pan ∧ t.fld
    (fPAN_CRSTATc_LASTZ c.val) = s.fld (fPAN_CRSTATc_LASTZ c.val) ∧ (∀ m, m ≠ c.val → t.core m = s.core m) ∧ Regs s t
    [rPAN_CRSTATc c.val] ∧ NoEvents s t ∧ Kept s
    { t with cores := s.cores, sal := { t.sal with peak := s.sal.peak }, pan := s.pan }) ∧
  (frozen s 0x120 = true ∨ nextIssue s = none → Ends (.launchedOrderIssue) s fun t => t = s) ∧
  (∀ (l : Launch) (a : Nat) (d : List Word) (k : Cap), Issues s l a d k → (dNstg d = 0 ∧ 64 ≤ (panOf s (headPan
    d)).lq.length) ∨ (dNstg d ≠ 0 ∧ 64 ≤ s.pan.chainq.length) → Ends (.launchedOrderIssue) s fun t => t = s) ∧
  (∀ (l : Launch) (a : Nat) (d : List Word) (k : Cap), Issues s l a d k → s.sal.err = [] → (issueChecks s l k a
    d).find? (·.2) = none → dNstg d = 0 → (panOf s (headPan d)).lq.length < 64 → Ends (.launchedOrderIssue) s fun t =>
    panOf t (headPan d) = withLq (newOrder (.launched l.ctx l.tick l.next) d k) (panOf s (headPan d)) ∧ OtherPan s t
    (headPan d) ∧ OnlyPans s t ∧ OneLaunch s t l (issuedOne s d l) ∧ Regs s t [] ∧ NoEvents s t ∧ Kept s
    { t with pan := s.pan, cry := s.cry, sal := { t.sal with peak := s.sal.peak } }) ∧
  (∀ (l : Launch) (a : Nat) (d : List Word) (k : Cap), Issues s l a d k → s.sal.err = [] → (issueChecks s l k a
    d).find? (·.2) = none → dNstg d ≠ 0 → s.pan.chainq.length < 64 → Ends (.launchedOrderIssue) s fun t => t.pan =
    chained (newOrder (.launched l.ctx l.tick l.next) d k) s.pan ∧ OneLaunch s t l (issuedOne s d l) ∧ Regs s t [] ∧
    NoEvents s t ∧ Kept s { t with pan := s.pan, cry := s.cry, sal := { t.sal with peak := s.sal.peak } }) ∧
  (∀ (l : Launch) (a : Nat) (d : List Word) (k : Cap) (p cause : Nat), Issues s l a d k → OnlyLaunch s l → s.sal.err =
    [] → p = headPan d → l.next < 1024 → (dNstg d ≠ 0 ∨ (panOf s (headPan d)).lq.length < 64) → (dNstg d = 0 ∨
    s.pan.chainq.length < 64) → ((issueChecks s l k a d).find? (·.2)).map (·.1) = some cause → Ends
    (.launchedOrderIssue) s fun t => Dropped s t l ∧ LFaulted t p l.ctx l.next cause 0 0 ∧ Posted s t (panPg p) 1 3
    (commonly s p cause 0) ∧ AbandonedWith s t l (if cause = 0xB then 2 else 3) ∧ t.cry.launches = [gone s l] ∧ RegsEv
    s t (lfRegs p) [panPg p, cryPg, rkPg] ∧ Kept s
    { t with pan := s.pan, cry := s.cry, sal := { t.sal with peak := s.sal.peak }, rk := { t.rk with holds := s.rk.holds } }) ∧
  (∀ (p : Fin 4), frozen s (panPg p.val) = true ∨ pageEn s 0x120 = false ∨ s.flag fPCS_CTRL_PATCHEN = true ∨
    s.pwr.mode ≠ .run → Ends (.launchedOrderStart p) s fun t => t = s) ∧
  (∀ (p : Fin 4) (o : Order) (r : List Order), frozen s (panPg p.val) = false ∧ pageEn s 0x120 = true ∧ s.flag
    fPCS_CTRL_PATCHEN = false ∧ s.pwr.mode = .run → s.pan.chainq = o :: r → headPan o.desc ≠ p.val ∨ ChainRuns s ∨ (∃
    q : Fin 4, q.val ∈ orderPans o.desc ∧ ¬ IdlePan s q.val) → Ends (.launchedOrderStart p) s fun t => t = s) ∧
  (∀ (p : Fin 4) (o : Order) (r : List Order), frozen s (panPg p.val) = false ∧ pageEn s 0x120 = true ∧ s.flag
    fPCS_CTRL_PATCHEN = false ∧ s.pwr.mode = .run → s.pan.chainq = o :: r → headPan o.desc = p.val → ¬ ChainRuns s →
    (∀ q ∈ orderPans o.desc, IdlePan s q) → Ends (.launchedOrderStart p) s fun t => panOf t p.val = starts s o (panOf
    s p.val) ∧ OtherPan s t p.val ∧ t.pan.chainq = r ∧ { t.pan with pans := s.pan.pans, chainq := s.pan.chainq } =
    s.pan ∧ Regs s t [] ∧ NoEvents s t ∧ Kept s { t with pan := s.pan }) ∧
  (∀ (p : Fin 4), frozen s (panPg p.val) = false ∧ pageEn s 0x120 = true ∧ s.flag fPCS_CTRL_PATCHEN = false ∧
    s.pwr.mode = .run → s.pan.chainq = [] → (panOf s p.val).lq = [] ∨ ¬ IdlePan s p.val ∨ ChainRuns s ∨ ChainToCome s
    → Ends (.launchedOrderStart p) s fun t => t = s) ∧
  (∀ (p : Fin 4) (o : Order) (r : List Order), frozen s (panPg p.val) = false ∧ pageEn s 0x120 = true ∧ s.flag
    fPCS_CTRL_PATCHEN = false ∧ s.pwr.mode = .run → s.pan.chainq = [] → (panOf s p.val).lq = o :: r → IdlePan s p.val
    → ¬ ChainRuns s → ¬ ChainToCome s → Ends (.launchedOrderStart p) s fun t => panOf t p.val = startsLq s o r (panOf
    s p.val) ∧ OtherPan s t p.val ∧ OnlyPans s t ∧ Regs s t [] ∧ NoEvents s t ∧ Kept s { t with pan := s.pan }) ∧
  (∀ (p : Fin 4), ¬ BgMayStart s p.val ∨ ((panOf s p.val).yielded = none ∧ (panOf s p.val).bq = []) → Ends
    (.bgOrderStart p) s fun t => t = s) ∧
  (∀ (p : Fin 4) (o : Order), BgMayStart s p.val → (panOf s p.val).yielded = some o → PansReady s o → Ends
    (.bgOrderStart p) s fun t => panOf t p.val = continues s o (panOf s p.val) ∧ OtherPan s t p.val ∧ OnlyPans s t ∧
    Regs s t [] ∧ NoEvents s t ∧ Kept s { t with pan := s.pan }) ∧
  (∀ (p : Fin 4) (o : Order), BgMayStart s p.val → (panOf s p.val).yielded = some o → ¬ PansReady s o → Ends
    (.bgOrderStart p) s fun t => t = s) ∧
  (∀ (p : Fin 4) (o : Order) (r : List Order) (c k n : Nat), BgMayStart s p.val → (panOf s p.val).yielded = none →
    (panOf s p.val).bq = o :: r → o.src = .bg c k n → dFence o.desc = true → EarlierOpen s c n → Ends (.bgOrderStart
    p) s fun t => t = s) ∧
  (∀ (p : Fin 4) (o : Order) (r : List Order) (c k n : Nat), BgMayStart s p.val → (panOf s p.val).yielded = none →
    (panOf s p.val).bq = o :: r → o.src = .bg c k n → (dFence o.desc = false ∨ ¬ EarlierOpen s c n) → (bgChecks s
    o).find? (·.2) = none → PansReady s o → Ends (.bgOrderStart p) s fun t => panOf t p.val = startsBq s o r (panOf s
    p.val) ∧ OtherPan s t p.val ∧ OnlyPans s t ∧ Regs s t [] ∧ NoEvents s t ∧ Kept s { t with pan := s.pan }) ∧
  (∀ (p : Fin 4) (o : Order) (r : List Order) (c k n cause : Nat), BgMayStart s p.val → (panOf s p.val).yielded = none
    → (panOf s p.val).bq = o :: r → o.src = .bg c k n → (dFence o.desc = false ∨ ¬ EarlierOpen s c n) → ((bgChecks s
    o).find? (·.2)).map (·.1) = some cause → RingOk s c → Silent s c o.desc → OrderOk o k → Ends (.bgOrderStart p) s
    fun t => panOf t p.val = refusesBq r (panOf s p.val) ∧ OtherPan s t p.val ∧ PansRing s t ∧ Recorded s t o c k 2
    cause o.done ∧ Regs s t (ringRegs c) ∧ NoEvents s t ∧ PanSal s t) ∧
  (∀ (p : Fin 4) (f : StripFault), frozen s (panPg p.val) = true ∨ pageEn s 0x120 = false ∨ (panOf s p.val).run = none
    → Ends (.stripCommit p f) s fun t => t = s) ∧
  (∀ (p : Fin 4) (o : Order) (f : StripFault), frozen s (panPg p.val) = false → pageEn s 0x120 = true → (panOf s
    p.val).run = some o → (panOf s p.val).go = false → StripWaits s o (panOf s p.val).first → Ends (.stripCommit p f)
    s fun t => t = s) ∧
  (∀ (p : Fin 4) (o : Order) (n a b d : Nat), RunsStrip s p.val o → o.desc = addDesc p.val n a b d → 256 < n → n ≤
    65536 → a % 2 = 0 → b % 2 = 0 → d % 2 = 0 → o.pos = 0 → o.done = 0 → o.coef = [] → o.cap.usable = true →
    o.cap.perm pPAN = true → Reach o.cap a → Reach o.cap b → Reach o.cap d → storeGet (baseDispatch 0x10)
    s.pan.dispatch 0x10 = baseDispatch 0x10 → s.pan.csUe = [] → launchDead s o = false → (panOf s p.val).yielding =
    false → Ends (.stripCommit p .none) s fun t => (∀ i ∈ List.range 256, salNum t (2 * d + 4 * i) 4 = (sumAt s a b i
    % 2 ^ 32).toNat) ∧ SameBut s t (2 * d) 1024 ∧ TagsBut s t (2 * d) 1024 ∧ panOf t p.val = goesOnTo s (firstStrip
    (Nat.lor o.flags (if anyOver s a b then 32 else 0)) o) (panOf s p.val) ∧ OtherPan s t p.val ∧ OnlyPans s t ∧ Regs
    s t [] ∧ NoEvents s t ∧ PanSal s t) ∧
  (∀ (p : Fin 4) (o : Order) (n a b d : Nat), RunsStrip s p.val o → o.desc = addDesc p.val n a b d → 256 < n → n ≤
    65536 → a % 2 = 0 → b % 2 = 0 → d % 2 = 0 → o.pos = 0 → o.done = 0 → o.coef = [] → o.cap.usable = true →
    o.cap.perm pPAN = true → Reach o.cap a → Reach o.cap b → Reach o.cap d → storeGet (baseDispatch 0x10)
    s.pan.dispatch 0x10 = baseDispatch 0x10 → s.pan.csUe = [] → o.launched = false → (panOf s p.val).yielding = true →
    Ends (.stripCommit p .none) s fun t => (∀ i ∈ List.range 256, salNum t (2 * d + 4 * i) 4 = (sumAt s a b i % 2 ^
    32).toNat) ∧ SameBut s t (2 * d) 1024 ∧ TagsBut s t (2 * d) 1024 ∧ panOf t p.val = gaveWay (firstStrip (Nat.lor
    o.flags (if anyOver s a b then 32 else 0)) o) (panOf s p.val) ∧ OtherPan s t p.val ∧ OnlyPans s t ∧ Regs s t [] ∧
    NoEvents s t ∧ PanSal s t) ∧
  (∀ (p : Fin 4) (o : Order) (n a b d : Nat) (l : Launch) (idx : Nat), RunsStrip s p.val o → o.desc = addDesc p.val n
    a b d → 256 < n → n ≤ 65536 → a % 2 = 0 → b % 2 = 0 → d % 2 = 0 → o.pos = 0 → o.done = 0 → o.coef = [] →
    o.cap.usable = true → o.cap.perm pPAN = true → Reach o.cap a → Reach o.cap b → Reach o.cap d → storeGet
    (baseDispatch 0x10) s.pan.dispatch 0x10 = baseDispatch 0x10 → s.pan.csUe = [] → o.src = .launched l.ctx l.tick idx
    → s.cry.launches = [l] → l.dead = true → 1 < l.live → o.flags < 64 → Ends (.stripCommit p .none) s fun t => (∀ i ∈
    List.range 256, salNum t (2 * d + 4 * i) 4 = (sumAt s a b i % 2 ^ 32).toNat) ∧ SameBut s t (2 * d) 1024 ∧ TagsBut
    s t (2 * d) 1024 ∧ panOf t p.val = stops (panOf s p.val) ∧ OtherPan s t p.val ∧ OnlyPans s t ∧ t.cry.launches =
    [oneLess l] ∧ { t.cry with launches := s.cry.launches } = s.cry ∧ t.fld (fPANp_LFLAGS p.val) = Nat.lor (s.fld
    (fPANp_LFLAGS p.val)) (Nat.lor o.flags (if anyOver s a b then 32 else 0)) ∧ Regs s t [(fPANp_LFLAGS p.val).key] ∧
    NoEvents s t ∧ PanSal s { t with cry := s.cry }) ∧
  (∀ (p : Fin 4) (o : Order) (c k n : Nat), RunsStrip s p.val o → LastStrip s o → o.src = .bg c k n → RingOk s c →
    Silent s c o.desc → endFlags s o < 64 → k < 2 ^ 16 → Ends (.stripCommit p .none) s fun t => Recorded (written s o)
    t (ended64 (endFlags s o) o) c k 1 0 (dLen o.desc) ∧ panOf t p.val = ends (panOf s p.val) ∧ OtherPan s t p.val ∧
    PansRing s t ∧ Regs s t (ringRegs c) ∧ NoEvents s t ∧ PanSal s t) ∧
  (∀ (p : Fin 4) (o : Order) (l : Launch) (idx : Nat), RunsStrip s p.val o → LastStrip s o → o.src = .launched l.ctx
    l.tick idx → s.cry.launches = [l] → 1 < l.live → endFlags s o < 64 → Ends (.stripCommit p .none) s fun t => t.fld
    (fPANp_LFLAGS p.val) = Nat.lor (s.fld (fPANp_LFLAGS p.val)) (endFlags s o) ∧ t.cry.launches = [oneLess l] ∧
    { t.cry with launches := s.cry.launches } = s.cry ∧ panOf t p.val = ends (panOf s p.val) ∧ OtherPan s t p.val ∧
    OnlyPans s t ∧ SameBytes (written s o) t ∧ Regs s t [(fPANp_LFLAGS p.val).key] ∧ NoEvents s t ∧ PanSal s
    { t with cry := s.cry }) ∧
  (∀ (p : Fin 4) (o : Order) (f : StripFault) (cause addr c k n : Nat), RunsStrip s p.val o → StopsAt s o f cause addr
    → o.src = .bg c k n → c < 4 → RingOk s c → Silent s c o.desc → OrderOk o k → Ends (.stripCommit p f) s fun t =>
    Recorded s t o c k 3 cause o.done ∧ ResumeBlock t p.val o c k cause ∧ Posted s t (panPg p.val) 0 2 (commonly s
    p.val cause addr) ∧ panOf t p.val = holds o (panOf s p.val) ∧ OtherPan s t p.val ∧ PansRing s t ∧ RegsEv s t
    (rsmRegs p.val c) [panPg p.val] ∧ PanSal s t) ∧
  (∀ (p : Fin 4) (o : Order) (f : StripFault) (l : Launch) (idx cause addr : Nat), RunsStrip s p.val o → StopsAt s o f
    cause addr → o.src = .launched l.ctx l.tick idx → idx < 1024 → OnlyLaunch s l → queuedOf l.ctx l.tick s + 1 <
    l.live → OrderOk o 0 → addr < 2 ^ 25 → Ends (.stripCommit p f) s fun t => LFaulted t p.val l.ctx idx cause o.done
    addr ∧ t.fld (fPANp_LFLAGS p.val) = Nat.lor (s.fld (fPANp_LFLAGS p.val)) o.flags ∧ Posted s t (panPg p.val) 1 3
    (commonly s p.val cause addr) ∧ AbandonedWith s t l 3 ∧ t.cry.launches = [oneLess (gone s l)] ∧ Dropped (s.setPan
    p.val (stops (panOf s p.val))) t l ∧ RegsEv s t ((fPANp_LFLAGS p.val).key :: lfRegs p.val) [panPg p.val, cryPg,
    rkPg] ∧ PanSal s { t with cry := s.cry, rk := { t.rk with holds := s.rk.holds } }) ∧
  (∀ (p : Fin 4) (o : Order) (k : Fin 4) (a : BitVec 14) (y : BitVec 9) (c m n : Nat), RunsStrip s p.val o → o.src =
    .bg c m n → c < 4 → RingOk s c → Silent s c o.desc → OrderOk o m → s.pan.csUe = [] → Reached s p.val o k.val
    a.toNat → Ends (.stripCommit p (.ctrlUe k a y)) s fun t => t.pan.csUe = [badWord s o k.val a.toNat y.toNat] ∧
    CsHalted s t p.val o (badWord s o k.val a.toNat y.toNat) c m) ∧
  (∀ (p : Fin 4) (o : Order) (e : CsUe) (c m n : Nat), RunsStrip s p.val o → o.src = .bg c m n → c < 4 → RingOk s c →
    Silent s c o.desc → OrderOk o m → csBad s o true = some e ∨ (csBad s o true = none ∧ csBad s o false = some e) →
    e.pan < 4 → e.addr < 2 ^ 14 → e.synd < 2 ^ 9 → Ends (.stripCommit p .none) s fun t => t.pan.csUe = s.pan.csUe ∧
    CsHalted s t p.val o e c m) ∧
  (∀ (p : Fin 4) (o : Order) (k : Fin 4) (a : BitVec 14) (y : BitVec 9), RunsStrip s p.val o → ¬ Reached s p.val o
    k.val a.toNat → Ends (.stripCommit p (.ctrlUe k a y)) s fun t => Machine.execStripCommit p .none s = .next t) ∧
  (∀ (p : Fin 4) (o : Order) (k : Fin 4) (a : BitVec 14) (y : BitVec 9), RunsStrip s p.val o → ¬ Reached s p.val o
    k.val a.toNat → Ends (.stripCommit p (.ctrlCe k a y)) s fun t => Machine.execStripCommit p .none s = .next t) ∧
  (∀ (p : Fin 4) (o : Order) (k : Fin 4) (a : BitVec 14) (y : BitVec 9), RunsStrip s p.val o → o.launched = true →
    launchDead s o = false → (stripOf s o).fault = none → (stripOf s o).writes = [] → stripEnd o < dLen o.desc → csBad
    s o true = none → csBad s o false = none → (∀ k ∈ dStages o.desc, (dispOf s (dOpc o.desc k)).isBase (dOpc o.desc
    k) = true) → dMen o.desc = false ∨ maxGroup (dispOf s) o.desc = 0 → Reached s p.val o k.val a.toNat → Ends
    (.stripCommit p (.ctrlCe k a y)) s fun t => CsLogged t false (dPan o.desc k.val % 4) y.toNat a.toNat ∧ t.fld
    fPCS_STAT_CEPAN = natBitSet (s.fld fPCS_STAT_CEPAN) (dPan o.desc k.val % 4) true ∧ t.fld (fPCS_CECNTp (dPan o.desc
    k.val % 4)) = satInc 16 (s.fld (fPCS_CECNTp (dPan o.desc k.val % 4))) ∧ (s.pan.csPosted = true ∨ Posted s t 0x128
    1 2 (commonly s (dPan o.desc k.val % 4) 0 a.toNat)) ∧ t.pan.csPosted = true ∧ (panOf t p.val).run ≠ none ∧
    OtherPan s t p.val ∧ t.pan.csUe = s.pan.csUe ∧ { t.sal with peak := s.sal.peak } = s.sal ∧ RegsEv s t (csRegs
    (dPan o.desc k.val % 4)) [0x128] ∧ PanSal s t)

/-- R159, R160, R164, R165, R201, R205, R206: RESUME, SKIP and FLUSH of a halted queue; the rings; the enable of the engine; patch
mode, its words, its entries and its end. -/
def Obligations.PanControl : Prop := ∀ (s : State), 
  (∀ (p : Fin 4) (c : Fin 5), s.flag (fPANp_BGSTAT_HALT p.val) = false → Ends (.bgResume p c) s fun t => t.pan = s.pan
    ∧ Posted s t (panPg p.val) 2 1 (commonly s p.val 0 0) ∧ RegsEv s t [] [panPg p.val] ∧ Kept s t) ∧
  (∀ (p : Fin 4), s.flag (fPANp_BGSTAT_HALT p.val) = false → Ends (.skip p) s fun t => t.pan = s.pan ∧ Posted s t
    (panPg p.val) 2 1 (commonly s p.val 0 0) ∧ RegsEv s t [] [panPg p.val] ∧ Kept s t) ∧
  (∀ (p : Fin 4), s.flag (fPANp_BGSTAT_HALT p.val) = false → Ends (.flush p) s fun t => t.pan = s.pan ∧ Posted s t
    (panPg p.val) 2 1 (commonly s p.val 0 0) ∧ RegsEv s t [] [panPg p.val] ∧ Kept s t) ∧
  (∀ (p : Fin 4) (c : Fin 5) (o : Order), Halted s p.val o → c.val = 4 ∨ ¬ RoomIn s c.val ∨ (s.flag (fPANp_BGSTAT_TORN
    p.val) = true ∧ dAlias o.desc = true) → Ends (.bgResume p c) s fun t => t.pan = s.pan ∧ Posted s t (panPg p.val) 2
    1 (commonly s p.val 0 0) ∧ RegsEv s t [] [panPg p.val] ∧ Kept s t) ∧
  (∀ (p : Fin 4) (c : Fin 5) (o : Order), Halted s p.val o → c.val < 4 → RoomIn s c.val → s.flag (fPANp_BGSTAT_TORN
    p.val) = false ∨ dAlias o.desc = false → Ends (.bgResume p c) s fun t => panOf t p.val = resumed (rerun c.val
    (s.fld (fPANp_RSM_TICKET p.val)) (s.fld (fPANp_RSM_DONE p.val)) (isReducing (dispOf s) o.desc) o) (panOf s p.val)
    ∧ OtherPan s t p.val ∧ OnlyPans s t ∧ ringResv t c.val = ringResv s c.val + 1 ∧ t.fld (fPAN_CRSTATc_LASTZ c.val) =
    s.fld (fPAN_CRSTATc_LASTZ c.val) ∧ t.flag (fPANp_BGSTAT_HALT p.val) = false ∧ t.flag (fPANp_BGSTAT_TORN p.val) =
    s.flag (fPANp_BGSTAT_TORN p.val) ∧ Regs s t [rPANp_BGSTAT p.val, rPAN_CRSTATc c.val] ∧ NoEvents s t ∧ Kept s
    { t with pan := s.pan }) ∧
  (∀ (p : Fin 4) (c : Fin 4) (o : Order), Halted s p.val o → s.fld (fPANp_BGSTAT_CORE p.val) = c.val → RoomIn s c.val
    → RingOk s c.val → Silent s c.val o.desc → Ends (.skip p) s fun t => SkipRecorded s t p.val c.val ∧ panOf t p.val
    = unblocked (panOf s p.val) ∧ OtherPan s t p.val ∧ PansRing s t ∧ ringResv t c.val = ringResv s c.val ∧ t.flag
    (fPANp_BGSTAT_HALT p.val) = false ∧ t.flag (fPANp_BGSTAT_TORN p.val) = s.flag (fPANp_BGSTAT_TORN p.val) ∧ Regs s t
    [rPANp_BGSTAT p.val, (fPAN_CRHEADc c.val).key] ∧ NoEvents s t ∧ PanSal s t) ∧
  (∀ (p : Fin 4) (c : Fin 4) (o : Order), Halted s p.val o → s.fld (fPANp_BGSTAT_CORE p.val) = c.val → ¬ RoomIn s
    c.val → Ends (.skip p) s fun t => panOf t p.val = unblocked (panOf s p.val) ∧ OtherPan s t p.val ∧ OnlyPans s t ∧
    t.flag (fPANp_BGSTAT_HALT p.val) = false ∧ t.flag (fPANp_BGSTAT_TORN p.val) = s.flag (fPANp_BGSTAT_TORN p.val) ∧
    Regs s t [rPANp_BGSTAT p.val] ∧ NoEvents s t ∧ Kept s { t with pan := s.pan }) ∧
  (∀ (p c m : Fin 4) (o x : Order) (k n : Nat), Halted s p.val o → s.fld (fPANp_BGSTAT_CORE p.val) = c.val → RoomIn s
    c.val → RingOk s c.val → recordAt s c.val + 32 ≤ salSize → Silent s c.val o.desc → (panOf s p.val).bq = [x] →
    x.src = .bg m.val k n → m ≠ c → RingOk s m.val → Silent s m.val x.desc → OrderOk x k → recordAt s c.val + 16 ≤
    recordAt s m.val ∨ recordAt s m.val + 16 ≤ recordAt s c.val → salKeysApart s (recordAt s c.val) (recordAt s m.val)
    → Ends (.flush p) s fun t => (salBytes t (recordAt s c.val) 16).take 4 = bytesOfNat 2 (s.fld (fPANp_RSM_TICKET
    p.val)) ++ bytesOfNat 1 0xD4 ++ bytesOfNat 1 (p.val * 64 + s.fld (fPANp_RSM_FLAGS p.val)) ∧ salBytes t (recordAt s
    m.val) 16 = completionOf s x k 5 0xD x.done ∧ HeadMoved s t c.val ∧ HeadMoved s t m.val ∧ ringResv t m.val =
    ringResv s m.val - 1 ∧ panOf t p.val = flushed (panOf s p.val) ∧ OtherPan s t p.val ∧ PansRing s t ∧ t.flag
    (fPANp_BGSTAT_HALT p.val) = false ∧ t.flag (fPANp_BGSTAT_TORN p.val) = s.flag (fPANp_BGSTAT_TORN p.val) ∧ Regs s t
    [rPANp_BGSTAT p.val, (fPAN_CRHEADc c.val).key, (fPAN_CRHEADc m.val).key, rPAN_CRSTATc m.val] ∧ NoEvents s t ∧
    PanSal s t) ∧
  (∀ (p : Fin 4) (o : Order), Halted s p.val o → (panOf s p.val).bq = [] → ¬ RoomIn s (s.fld (fPANp_BGSTAT_CORE
    p.val)) → Ends (.flush p) s fun t => panOf t p.val = unblocked (panOf s p.val) ∧ OtherPan s t p.val ∧ OnlyPans s t
    ∧ t.flag (fPANp_BGSTAT_HALT p.val) = false ∧ t.flag (fPANp_BGSTAT_TORN p.val) = s.flag (fPANp_BGSTAT_TORN p.val) ∧
    Regs s t [rPANp_BGSTAT p.val] ∧ NoEvents s t ∧ Kept s { t with pan := s.pan }) ∧
  (∀ (n : Fin 4) (cfg : Bool) (v : Word), ringUnread s n.val ≠ 0 ∨ ringResv s n.val ≠ 0 → Ends (.ringConfigWrite n cfg
    v) s fun t => t.pan = s.pan ∧ Posted s t 0x125 n.val 1 (commonly s n.val 0 0) ∧ RegsEv s t [] [0x125] ∧ Kept s t) ∧
  (∀ (n : Fin 4) (v : Word), ringUnread s n.val = 0 → ringResv s n.val = 0 → Ends (.ringConfigWrite n true v) s fun t
    => t.rd (rPAN_CRCFGc n.val) = v &&& 0x1FF0F ∧ Regs s t [rPAN_CRCFGc n.val] ∧ NoEvents s t ∧ Kept s t) ∧
  (∀ (n : Fin 4) (v : Word), ringUnread s n.val = 0 → ringResv s n.val = 0 → Ends (.ringConfigWrite n false v) s fun t
    => t.rd (rPAN_CRBASEc n.val) = v &&& 0x1FFFFF0 ∧ Regs s t [rPAN_CRBASEc n.val] ∧ NoEvents s t ∧ Kept s t) ∧
  (locked s 0x120 = false → pageEn s 0x120 = true → nadmit s ≠ 0 → Ends (.panEnableWrite false) s fun t => pageEn t
    0x120 = true ∧ t.flag (fPAGE_STAT_REFUSED 0x120) = true ∧ Regs s t [rPAGE_STAT 0x120] ∧ NoEvents s t ∧ Kept s t) ∧
  (∀ (on : Bool), locked s 0x120 = false → on = true ∨ pageEn s 0x120 = false ∨ nadmit s = 0 → Ends (.panEnableWrite
    on) s fun t => pageEn t 0x120 = on ∧ Regs s t [rPAGE_CTRL 0x120] ∧ NoEvents s t ∧ Kept s t) ∧
  (∀ (on : Bool), locked s 0x120 = true → on ≠ pageEn s 0x120 → Ends (.panEnableWrite on) s fun t => pageEn t 0x120 =
    pageEn s 0x120 ∧ t.flag (fPAGE_STAT_REFUSED 0x120) = true ∧ Regs s t [rPAGE_STAT 0x120] ∧ NoEvents s t ∧ Kept s t) ∧
  (nadmit s ≠ 0 → Ends (.patchenSet) s fun t => t.pan = s.pan ∧ Posted s t 0x128 3 1 (commonly s 0 0 0) ∧ RegsEv s t
    [] [0x128] ∧ Kept s t) ∧
  (nadmit s = 0 → Ends (.patchenSet) s fun t => t.flag fPCS_CTRL_PATCHEN = true ∧ Regs s t [rPCS_CTRL] ∧ NoEvents s t
    ∧ Kept s t) ∧
  (frozen s 0x128 = true ∨ s.flag fPCS_CTRL_PATCHEN = false ∨ (∃ q : Fin 4, ¬ IdlePan s q.val) → Ends (.quiet) s fun t
    => t = s) ∧
  (frozen s 0x128 = false → s.flag fPCS_CTRL_PATCHEN = true → (∀ q : Fin 4, IdlePan s q.val) → Ends (.quiet) s fun t
    => t.flag fPCS_STAT_QUIET = true ∧ t.fld fPCS_STAT_UEPAN = s.fld fPCS_STAT_UEPAN ∧ t.fld fPCS_STAT_CEPAN = s.fld
    fPCS_STAT_CEPAN ∧ t.flag fPCS_STAT_OVLVALID = s.flag fPCS_STAT_OVLVALID ∧ Regs s t [rPCS_STAT] ∧ NoEvents s t ∧
    Kept s t) ∧
  (s.flag fPCS_CTRL_PATCHEN = false → Ends (.patchenClear) s fun t => t = s) ∧
  (s.flag fPCS_CTRL_PATCHEN = true → Ends (.patchenClear) s fun t => t.flag fPCS_CTRL_PATCHEN = false ∧ t.flag
    fPCS_STAT_QUIET = false ∧ t.fld fPCS_ID_PATCHID = s.fld fPCS_PATCHID ∧ t.fld fPCS_ID_ROMID = s.fld fPCS_ID_ROMID ∧
    t.flag fCRY_STAT_TTVALID = false ∧ t.fld fCRY_STAT_NADMIT = s.fld fCRY_STAT_NADMIT ∧ t.flag fPCS_STAT_OVLVALID =
    (s.flag fPCS_STAT_OVLVALID || !s.pan.dispatch.isEmpty) ∧ Posted s t 0x128 2 1 (commonly s 0 0 0) ∧ RegsEv s t
    [rPCS_CTRL, rPCS_STAT, rPCS_ID, rCRY_STAT] [0x128] ∧ Kept s t) ∧
  (∀ (j : Fin 4) (v : Word), j ≠ 3 → Ends (.patchWordWrite j v) s fun t => t.pan = stagedPdata j.val v s.pan ∧ Regs s
    t [] ∧ NoEvents s t ∧ Kept s { t with pan := s.pan }) ∧
  (∀ (v : Word), ¬ (s.flag fPCS_CTRL_PATCHEN = true ∧ s.flag fPCS_STAT_QUIET = true) → Ends (.patchWordWrite 3 v) s
    fun t => t.pan = s.pan ∧ Posted s t 0x128 3 1 (commonly s 0 0 0) ∧ RegsEv s t [] [0x128] ∧ Kept s t) ∧
  (∀ (v : Word), s.flag fPCS_CTRL_PATCHEN = true ∧ s.flag fPCS_STAT_QUIET = true → Ends (.patchWordWrite 3 v) s fun t
    => (∀ p : Fin 4, csWord t p.val (0x2000 + s.fld fPCS_PADDR) = overlayWord s v) ∧ (∀ p : Fin 4, ∀ k ∈ List.range
    1024, k ≠ s.fld fPCS_PADDR → csWord t p.val (0x2000 + k) = csWord s p.val (0x2000 + k)) ∧ t.pan.csUe =
    s.pan.csUe.filter (fun e => e.addr != 0x2000 + s.fld fPCS_PADDR) ∧
    { t.pan with overlay := s.pan.overlay, csUe := s.pan.csUe } = s.pan ∧ Regs s t [] ∧ NoEvents s t ∧ Kept s
    { t with pan := s.pan }) ∧
  (∀ (v : Word), ¬ (s.flag fPCS_CTRL_PATCHEN = true ∧ s.flag fPCS_STAT_QUIET = true) ∨ s.fld fPCS_DIDX = 0 → Ends
    (.dispatchEntryWrite v) s fun t => t.pan = s.pan ∧ Posted s t 0x128 3 1 (commonly s 0 0 0) ∧ RegsEv s t [] [0x128]
    ∧ Kept s t) ∧
  (∀ (v : Word), s.flag fPCS_CTRL_PATCHEN = true ∧ s.flag fPCS_STAT_QUIET = true → s.fld fPCS_DIDX ≠ 0 → Ends
    (.dispatchEntryWrite v) s fun t => entryBits t (s.fld fPCS_DIDX) = entryMask (v ++ s.pan.ddata0) ∧ (∀ k ∈
    List.range 256, k ≠ s.fld fPCS_DIDX → dispOf t k = dispOf s k) ∧ t.pan.csUe = s.pan.csUe.filter (fun e => e.addr
    != 0x3F00 + s.fld fPCS_DIDX) ∧ { t.pan with dispatch := s.pan.dispatch, csUe := s.pan.csUe } = s.pan ∧ Regs s t []
    ∧ NoEvents s t ∧ Kept s { t with pan := s.pan }) ∧
  (∀ (v : Word), ¬ (s.flag fPCS_CTRL_PATCHEN = true ∧ s.flag fPCS_STAT_QUIET = true) → Ends (.patchidWrite v) s fun t
    => t.pan = s.pan ∧ Posted s t 0x128 3 1 (commonly s 0 0 0) ∧ RegsEv s t [] [0x128] ∧ Kept s t) ∧
  (∀ (v : Word), s.flag fPCS_CTRL_PATCHEN = true ∧ s.flag fPCS_STAT_QUIET = true → Ends (.patchidWrite v) s fun t =>
    t.fld fPCS_PATCHID = v.toNat % 2 ^ 16 ∧ Regs s t [rPCS_PATCHID] ∧ NoEvents s t ∧ Kept s t) ∧
  (Ends (.pcsCeclr) s fun t => (∀ p : Fin 4, t.fld (fPCS_CECNTp p.val) = 0) ∧ t.pan = rearmed s.pan ∧ Regs s t
    ((List.range 4).map fun p => (fPCS_CECNTp p).key) ∧ NoEvents s t ∧ Kept s { t with pan := s.pan })

/-- A step runs the command at the front of the queue on the state with the queue's rest; every command answers a next state. With
no command waiting a step lets time pass (the model's choice, log 1). -/
def Obligations.StepRunsFront : Prop := 
  (∀ (c : Instr) (r : List Instr) (s : State), step { s with pending := c :: r } = Machine.exec c { s with pending := r }) ∧
  (∀ (c : Instr) (s : State), ∃ t, Machine.exec c s = .next t) ∧
  (∀ s : State, s.pending = [] → step s = .next (timeStep s))

/-- What reset leaves (R44, R68, R101, R131, R164, R217, R255, R418, R451, R483, R505, R524, R551): the registers at the values their
tables give, no command waiting, no context in use, every lane DOWN, no order queued, and every memory in its canonical form. That
an unlisted byte of memory reads 0 is the model's choice (log 2). -/
def Obligations.ResetValues : Prop := 
  (∀ e ∈ resetWords, State.reset.rd e.1 = e.2) ∧ (∀ e ∈ resetFields, State.reset.fld e.1 = e.2) ∧
  (∀ n : Fin 32, State.reset.rd (rGTn_RELOAD n.val) = 0xFFFFFFFF) ∧ (∀ g : Fin 16, State.reset.flag (fEGg_CTRL_GEN g.val) = true) ∧
  (∀ p : Fin 4, State.reset.flag (fPANp_CTRL_RUN p.val) = true ∧ panOf State.reset p.val = Pan.empty) ∧
  (∀ n : Fin 64, State.reset.flag (fBLn_CTRL_AUTOTRAIN n.val) = true) ∧
  (∀ n : Fin 4, State.reset.rd (rEPn_CTRL n.val) = 7) ∧
  (∀ n : Nat, ctxOf State.reset n = Ctx.free) ∧ State.reset.pending = [] ∧ State.reset.canonical = true

/-- The register file and every memory stay in their one canonical form, so that equal contents are equal data: whatever the command
at the front of the queue, and for the step of time (logs 1 and 2). -/
def Obligations.CanonicalKept : Prop := 
  ∀ s t : State, s.canonical = true → step s = .next t → t.canonical = true
end

