-- ==== Sys2Proof/Laws/Bits.lean ====
section
/-!
SUPPORT. Sys2Proof/Laws/Bits.lean: fields of a word that were just set, and fields beside them.
-/
namespace Sys2Proof.Machine
open Sys2Proof

/-- Three adjacent parts of a number, the middle one read back. -/
theorem parts_mid (lo w a v c : Nat) (ha : a < 2 ^ lo) (hv : v < 2 ^ w) :
    (a + v * 2 ^ lo + c * 2 ^ (lo + w)) / 2 ^ lo % 2 ^ w = v := by
  have h1 : a + v * 2 ^ lo + c * 2 ^ (lo + w) = a + 2 ^ lo * (v + 2 ^ w * c) := by rw [pow_add]; ring
  rw [h1, Nat.add_mul_div_left _ _ (Nat.two_pow_pos lo), Nat.div_eq_of_lt ha, Nat.zero_add, Nat.add_mul_mod_self_left,
    Nat.mod_eq_of_lt hv]

/-- A number in three parts is its own sum. -/
theorem parts_sum (x lo w : Nat) : x % 2 ^ lo + x / 2 ^ lo % 2 ^ w * 2 ^ lo + x / 2 ^ (lo + w) * 2 ^ (lo + w) = x := by
  have h2 := Nat.div_add_mod (x / 2 ^ lo) (2 ^ w)
  have h1 := Nat.div_add_mod x (2 ^ lo)
  have h3 : x / 2 ^ (lo + w) = x / 2 ^ lo / 2 ^ w := by rw [pow_add, Nat.div_div_eq_div_mul]
  calc x % 2 ^ lo + x / 2 ^ lo % 2 ^ w * 2 ^ lo + x / 2 ^ (lo + w) * 2 ^ (lo + w)
      = 2 ^ lo * (2 ^ w * (x / 2 ^ lo / 2 ^ w) + x / 2 ^ lo % 2 ^ w) + x % 2 ^ lo := by rw [h3, pow_add]; ring
    _ = x := by rw [h2, h1]

theorem bitsSet_toNat (x : Word) (lo w v : Nat) (h : lo + w ≤ 32) :
    (bitsSet x lo w v).toNat =
      x.toNat % 2 ^ lo + v % 2 ^ w * 2 ^ lo + x.toNat / 2 ^ (lo + w) * 2 ^ (lo + w) := by
  have hx := x.isLt
  have hs := parts_sum x.toNat lo w
  have hv : v % 2 ^ w < 2 ^ w := Nat.mod_lt _ (Nat.two_pow_pos w)
  have ha : x.toNat % 2 ^ lo < 2 ^ lo := Nat.mod_lt _ (Nat.two_pow_pos lo)
  simp only [bitsSet, BitVec.toNat_ofNat]
  apply Nat.mod_eq_of_lt
  have h1 : x.toNat / 2 ^ (lo + w) < 2 ^ (32 - (lo + w)) := by
    rw [Nat.div_lt_iff_lt_mul (Nat.two_pow_pos _), ← pow_add]
    rwa [Nat.sub_add_cancel h]
  have h2 : (v % 2 ^ w + 1) * 2 ^ lo ≤ 2 ^ (lo + w) := by
    rw [pow_add, Nat.mul_comm (2 ^ lo)]; exact Nat.mul_le_mul_right _ hv
  have h3 : (x.toNat / 2 ^ (lo + w) + 1) * 2 ^ (lo + w) ≤ 2 ^ 32 := by
    calc _ ≤ 2 ^ (32 - (lo + w)) * 2 ^ (lo + w) := Nat.mul_le_mul_right _ h1
      _ = 2 ^ 32 := by rw [← pow_add, Nat.sub_add_cancel h]
  have h4 : v % 2 ^ w * 2 ^ lo + 2 ^ lo ≤ 2 ^ (lo + w) := by linarith
  have h5 : x.toNat / 2 ^ (lo + w) * 2 ^ (lo + w) + 2 ^ (lo + w) ≤ 2 ^ 32 := by linarith
  omega

/-- A field reads as it was set. -/
theorem bitsGet_bitsSet_self (x : Word) (lo w v : Nat) (h : lo + w ≤ 32) :
    bitsGet (bitsSet x lo w v) lo w = v % 2 ^ w := by
  rw [bitsGet, bitsSet_toNat x lo w v h]
  exact parts_mid _ _ _ _ _ (Nat.mod_lt _ (Nat.two_pow_pos lo)) (Nat.mod_lt _ (Nat.two_pow_pos w))

theorem testBit_bitsGet (x : Word) (lo w i : Nat) :
    (bitsGet x lo w).testBit i = (decide (i < w) && x.toNat.testBit (lo + i)) := by
  simp only [bitsGet, Nat.testBit_mod_two_pow, Nat.testBit_div_two_pow]
  rw [Nat.add_comm]

theorem testBit_bitsSet (x : Word) (lo w v i : Nat) (h : lo + w ≤ 32) (hi : i < lo ∨ lo + w ≤ i) :
    (bitsSet x lo w v).toNat.testBit i = x.toNat.testBit i := by
  rw [bitsSet_toNat x lo w v h]
  rcases hi with hi | hi
  · have e : x.toNat % 2 ^ lo + v % 2 ^ w * 2 ^ lo + x.toNat / 2 ^ (lo + w) * 2 ^ (lo + w) =
        2 ^ lo * (v % 2 ^ w + x.toNat / 2 ^ (lo + w) * 2 ^ w) + x.toNat % 2 ^ lo := by rw [pow_add]; ring
    rw [e, Nat.testBit_two_pow_mul_add _ (Nat.mod_lt _ (Nat.two_pow_pos lo)), if_pos hi, Nat.testBit_mod_two_pow]
    simp [hi]
  · have hv : v % 2 ^ w < 2 ^ w := Nat.mod_lt _ (Nat.two_pow_pos w)
    have ha : x.toNat % 2 ^ lo < 2 ^ lo := Nat.mod_lt _ (Nat.two_pow_pos lo)
    have hb : x.toNat % 2 ^ lo + v % 2 ^ w * 2 ^ lo < 2 ^ (lo + w) := by
      have h2 : (v % 2 ^ w + 1) * 2 ^ lo ≤ 2 ^ (lo + w) := by
        rw [pow_add, Nat.mul_comm (2 ^ lo)]; exact Nat.mul_le_mul_right _ hv
      have h4 : v % 2 ^ w * 2 ^ lo + 2 ^ lo ≤ 2 ^ (lo + w) := by linarith
      omega
    have e : x.toNat % 2 ^ lo + v % 2 ^ w * 2 ^ lo + x.toNat / 2 ^ (lo + w) * 2 ^ (lo + w) =
        2 ^ (lo + w) * (x.toNat / 2 ^ (lo + w)) + (x.toNat % 2 ^ lo + v % 2 ^ w * 2 ^ lo) := by ring
    rw [e, Nat.testBit_two_pow_mul_add _ hb, if_neg (by omega), Nat.testBit_div_two_pow]
    congr 1; omega

/-- A field beside the one that was set reads as before. -/
theorem bitsGet_bitsSet_ne (x : Word) (lo w v lo' w' : Nat) (h : lo + w ≤ 32) (hd : lo' + w' ≤ lo ∨ lo + w ≤ lo') :
    bitsGet (bitsSet x lo w v) lo' w' = bitsGet x lo' w' := by
  apply Nat.eq_of_testBit_eq
  intro i
  rw [testBit_bitsGet, testBit_bitsGet]
  by_cases hi : i < w'
  · rw [testBit_bitsSet x lo w v (lo' + i) h (by omega)]
  · simp [hi]

theorem natBit_eq_testBit (v i : Nat) : natBit v i = v.testBit i := by
  simp only [natBit, Nat.testBit_eq_decide_div_mod_eq, beq_eq_decide]

theorem natBitSet_testBit (v i j : Nat) (b : Bool) :
    (natBitSet v i b).testBit j = if j = i then b else v.testBit j := by
  have e : natBitSet v i b = 2 ^ (i + 1) * (v / 2 ^ (i + 1)) + ((if b then 2 ^ i else 0) + v % 2 ^ i) := by
    simp only [natBitSet]; ring
  have ha : v % 2 ^ i < 2 ^ i := Nat.mod_lt _ (Nat.two_pow_pos i)
  have hb : (if b then 2 ^ i else 0) + v % 2 ^ i < 2 ^ (i + 1) := by
    rw [pow_succ]; split <;> omega
  rw [e, Nat.testBit_two_pow_mul_add _ hb]
  by_cases hj : j < i + 1
  · rw [if_pos hj]
    by_cases hji : j = i
    · subst hji
      rw [if_pos rfl]
      cases b
      · simp [Nat.testBit_mod_two_pow]
      · simp only [if_true]
        rw [Nat.testBit_two_pow_add_eq]
        simp [Nat.testBit_mod_two_pow]
    · rw [if_neg hji]
      have hlt : j < i := by omega
      cases b
      · simp [Nat.testBit_mod_two_pow, hlt]
      · simp only [if_true]
        rw [Nat.testBit_two_pow_add_gt hlt]
        simp [Nat.testBit_mod_two_pow, hlt]
  · rw [if_neg hj, if_neg (by omega), Nat.testBit_div_two_pow]
    congr 1; omega

/-- A bit reads as it was set, and every other bit as before. -/
theorem natBit_natBitSet (v i j : Nat) (b : Bool) : natBit (natBitSet v i b) j = if j = i then b else natBit v j := by
  simp only [natBit_eq_testBit, natBitSet_testBit]

theorem b2n_lt (b : Bool) : b2n b < 2 := by cases b <;> decide
@[simp] theorem b2n_mod (b : Bool) : b2n b % 2 = b2n b := by cases b <;> decide
@[simp] theorem b2n_ne_zero (b : Bool) : (b2n b != 0) = b := by cases b <;> decide

end Sys2Proof.Machine
end

