-- ==== Sys2Proof/Laws/State.lean ====
section
/-!
SUPPORT. Sys2Proof/Laws/State.lean: what each named update of State leaves and changes, one lemma for each field and update.
-/
namespace Sys2Proof.Machine
open Sys2Proof

@[simp] theorem State.wr_pending (s : State) (k : Nat) (v : Word) : (s.wr k v).pending = s.pending := (rfl)
@[simp] theorem State.wr_shadow (s : State) (k : Nat) (v : Word) : (s.wr k v).shadow = s.shadow := (rfl)
@[simp] theorem State.wr_evPay (s : State) (k : Nat) (v : Word) : (s.wr k v).evPay = s.evPay := (rfl)
@[simp] theorem State.wr_evHeld (s : State) (k : Nat) (v : Word) : (s.wr k v).evHeld = s.evHeld := (rfl)
@[simp] theorem State.wr_evIn (s : State) (k : Nat) (v : Word) : (s.wr k v).evIn = s.evIn := (rfl)
@[simp] theorem State.wr_free (s : State) (k : Nat) (v : Word) : (s.wr k v).free = s.free := (rfl)
@[simp] theorem State.wr_out (s : State) (k : Nat) (v : Word) : (s.wr k v).out = s.out := (rfl)
@[simp] theorem State.wr_mram (s : State) (k : Nat) (v : Word) : (s.wr k v).mram = s.mram := (rfl)
@[simp] theorem State.wr_lmem (s : State) (k : Nat) (v : Word) : (s.wr k v).lmem = s.lmem := (rfl)
@[simp] theorem State.wr_lmErr (s : State) (k : Nat) (v : Word) : (s.wr k v).lmErr = s.lmErr := (rfl)
@[simp] theorem State.wr_tb (s : State) (k : Nat) (v : Word) : (s.wr k v).tb = s.tb := (rfl)
@[simp] theorem State.wr_ev (s : State) (k : Nat) (v : Word) : (s.wr k v).ev = s.ev := (rfl)
@[simp] theorem State.wr_sal (s : State) (k : Nat) (v : Word) : (s.wr k v).sal = s.sal := (rfl)
@[simp] theorem State.wr_cry (s : State) (k : Nat) (v : Word) : (s.wr k v).cry = s.cry := (rfl)
@[simp] theorem State.wr_pan (s : State) (k : Nat) (v : Word) : (s.wr k v).pan = s.pan := (rfl)
@[simp] theorem State.wr_bl (s : State) (k : Nat) (v : Word) : (s.wr k v).bl = s.bl := (rfl)
@[simp] theorem State.wr_rk (s : State) (k : Nat) (v : Word) : (s.wr k v).rk = s.rk := (rfl)
@[simp] theorem State.wr_sl (s : State) (k : Nat) (v : Word) : (s.wr k v).sl = s.sl := (rfl)
@[simp] theorem State.wr_qe (s : State) (k : Nat) (v : Word) : (s.wr k v).qe = s.qe := (rfl)
@[simp] theorem State.wr_tj (s : State) (k : Nat) (v : Word) : (s.wr k v).tj = s.tj := (rfl)
@[simp] theorem State.wr_fab (s : State) (k : Nat) (v : Word) : (s.wr k v).fab = s.fab := (rfl)
@[simp] theorem State.wr_dup (s : State) (k : Nat) (v : Word) : (s.wr k v).dup = s.dup := (rfl)
@[simp] theorem State.wr_pwr (s : State) (k : Nat) (v : Word) : (s.wr k v).pwr = s.pwr := (rfl)
@[simp] theorem State.wr_sec (s : State) (k : Nat) (v : Word) : (s.wr k v).sec = s.sec := (rfl)
@[simp] theorem State.wr_pn (s : State) (k : Nat) (v : Word) : (s.wr k v).pn = s.pn := (rfl)
@[simp] theorem State.wr_cores (s : State) (k : Nat) (v : Word) : (s.wr k v).cores = s.cores := (rfl)

@[simp] theorem State.setFld_pending (s : State) (f : Fld) (v : Nat) : (s.setFld f v).pending = s.pending := (rfl)
@[simp] theorem State.setFld_shadow (s : State) (f : Fld) (v : Nat) : (s.setFld f v).shadow = s.shadow := (rfl)
@[simp] theorem State.setFld_evPay (s : State) (f : Fld) (v : Nat) : (s.setFld f v).evPay = s.evPay := (rfl)
@[simp] theorem State.setFld_evHeld (s : State) (f : Fld) (v : Nat) : (s.setFld f v).evHeld = s.evHeld := (rfl)
@[simp] theorem State.setFld_evIn (s : State) (f : Fld) (v : Nat) : (s.setFld f v).evIn = s.evIn := (rfl)
@[simp] theorem State.setFld_free (s : State) (f : Fld) (v : Nat) : (s.setFld f v).free = s.free := (rfl)
@[simp] theorem State.setFld_out (s : State) (f : Fld) (v : Nat) : (s.setFld f v).out = s.out := (rfl)
@[simp] theorem State.setFld_mram (s : State) (f : Fld) (v : Nat) : (s.setFld f v).mram = s.mram := (rfl)
@[simp] theorem State.setFld_lmem (s : State) (f : Fld) (v : Nat) : (s.setFld f v).lmem = s.lmem := (rfl)
@[simp] theorem State.setFld_lmErr (s : State) (f : Fld) (v : Nat) : (s.setFld f v).lmErr = s.lmErr := (rfl)
@[simp] theorem State.setFld_tb (s : State) (f : Fld) (v : Nat) : (s.setFld f v).tb = s.tb := (rfl)
@[simp] theorem State.setFld_ev (s : State) (f : Fld) (v : Nat) : (s.setFld f v).ev = s.ev := (rfl)
@[simp] theorem State.setFld_sal (s : State) (f : Fld) (v : Nat) : (s.setFld f v).sal = s.sal := (rfl)
@[simp] theorem State.setFld_cry (s : State) (f : Fld) (v : Nat) : (s.setFld f v).cry = s.cry := (rfl)
@[simp] theorem State.setFld_pan (s : State) (f : Fld) (v : Nat) : (s.setFld f v).pan = s.pan := (rfl)
@[simp] theorem State.setFld_bl (s : State) (f : Fld) (v : Nat) : (s.setFld f v).bl = s.bl := (rfl)
@[simp] theorem State.setFld_rk (s : State) (f : Fld) (v : Nat) : (s.setFld f v).rk = s.rk := (rfl)
@[simp] theorem State.setFld_sl (s : State) (f : Fld) (v : Nat) : (s.setFld f v).sl = s.sl := (rfl)
@[simp] theorem State.setFld_qe (s : State) (f : Fld) (v : Nat) : (s.setFld f v).qe = s.qe := (rfl)
@[simp] theorem State.setFld_tj (s : State) (f : Fld) (v : Nat) : (s.setFld f v).tj = s.tj := (rfl)
@[simp] theorem State.setFld_fab (s : State) (f : Fld) (v : Nat) : (s.setFld f v).fab = s.fab := (rfl)
@[simp] theorem State.setFld_dup (s : State) (f : Fld) (v : Nat) : (s.setFld f v).dup = s.dup := (rfl)
@[simp] theorem State.setFld_pwr (s : State) (f : Fld) (v : Nat) : (s.setFld f v).pwr = s.pwr := (rfl)
@[simp] theorem State.setFld_sec (s : State) (f : Fld) (v : Nat) : (s.setFld f v).sec = s.sec := (rfl)
@[simp] theorem State.setFld_pn (s : State) (f : Fld) (v : Nat) : (s.setFld f v).pn = s.pn := (rfl)
@[simp] theorem State.setFld_cores (s : State) (f : Fld) (v : Nat) : (s.setFld f v).cores = s.cores := (rfl)

@[simp] theorem State.setFlag_pending (s : State) (f : Fld) (b : Bool) : (s.setFlag f b).pending = s.pending := (rfl)
@[simp] theorem State.setFlag_shadow (s : State) (f : Fld) (b : Bool) : (s.setFlag f b).shadow = s.shadow := (rfl)
@[simp] theorem State.setFlag_evPay (s : State) (f : Fld) (b : Bool) : (s.setFlag f b).evPay = s.evPay := (rfl)
@[simp] theorem State.setFlag_evHeld (s : State) (f : Fld) (b : Bool) : (s.setFlag f b).evHeld = s.evHeld := (rfl)
@[simp] theorem State.setFlag_evIn (s : State) (f : Fld) (b : Bool) : (s.setFlag f b).evIn = s.evIn := (rfl)
@[simp] theorem State.setFlag_free (s : State) (f : Fld) (b : Bool) : (s.setFlag f b).free = s.free := (rfl)
@[simp] theorem State.setFlag_out (s : State) (f : Fld) (b : Bool) : (s.setFlag f b).out = s.out := (rfl)
@[simp] theorem State.setFlag_mram (s : State) (f : Fld) (b : Bool) : (s.setFlag f b).mram = s.mram := (rfl)
@[simp] theorem State.setFlag_lmem (s : State) (f : Fld) (b : Bool) : (s.setFlag f b).lmem = s.lmem := (rfl)
@[simp] theorem State.setFlag_lmErr (s : State) (f : Fld) (b : Bool) : (s.setFlag f b).lmErr = s.lmErr := (rfl)
@[simp] theorem State.setFlag_tb (s : State) (f : Fld) (b : Bool) : (s.setFlag f b).tb = s.tb := (rfl)
@[simp] theorem State.setFlag_ev (s : State) (f : Fld) (b : Bool) : (s.setFlag f b).ev = s.ev := (rfl)
@[simp] theorem State.setFlag_sal (s : State) (f : Fld) (b : Bool) : (s.setFlag f b).sal = s.sal := (rfl)
@[simp] theorem State.setFlag_cry (s : State) (f : Fld) (b : Bool) : (s.setFlag f b).cry = s.cry := (rfl)
@[simp] theorem State.setFlag_pan (s : State) (f : Fld) (b : Bool) : (s.setFlag f b).pan = s.pan := (rfl)
@[simp] theorem State.setFlag_bl (s : State) (f : Fld) (b : Bool) : (s.setFlag f b).bl = s.bl := (rfl)
@[simp] theorem State.setFlag_rk (s : State) (f : Fld) (b : Bool) : (s.setFlag f b).rk = s.rk := (rfl)
@[simp] theorem State.setFlag_sl (s : State) (f : Fld) (b : Bool) : (s.setFlag f b).sl = s.sl := (rfl)
@[simp] theorem State.setFlag_qe (s : State) (f : Fld) (b : Bool) : (s.setFlag f b).qe = s.qe := (rfl)
@[simp] theorem State.setFlag_tj (s : State) (f : Fld) (b : Bool) : (s.setFlag f b).tj = s.tj := (rfl)
@[simp] theorem State.setFlag_fab (s : State) (f : Fld) (b : Bool) : (s.setFlag f b).fab = s.fab := (rfl)
@[simp] theorem State.setFlag_dup (s : State) (f : Fld) (b : Bool) : (s.setFlag f b).dup = s.dup := (rfl)
@[simp] theorem State.setFlag_pwr (s : State) (f : Fld) (b : Bool) : (s.setFlag f b).pwr = s.pwr := (rfl)
@[simp] theorem State.setFlag_sec (s : State) (f : Fld) (b : Bool) : (s.setFlag f b).sec = s.sec := (rfl)
@[simp] theorem State.setFlag_pn (s : State) (f : Fld) (b : Bool) : (s.setFlag f b).pn = s.pn := (rfl)
@[simp] theorem State.setFlag_cores (s : State) (f : Fld) (b : Bool) : (s.setFlag f b).cores = s.cores := (rfl)

@[simp] theorem State.wr64_pending (s : State) (k v : Nat) : (s.wr64 k v).pending = s.pending := (rfl)
@[simp] theorem State.wr64_shadow (s : State) (k v : Nat) : (s.wr64 k v).shadow = s.shadow := (rfl)
@[simp] theorem State.wr64_evPay (s : State) (k v : Nat) : (s.wr64 k v).evPay = s.evPay := (rfl)
@[simp] theorem State.wr64_evHeld (s : State) (k v : Nat) : (s.wr64 k v).evHeld = s.evHeld := (rfl)
@[simp] theorem State.wr64_evIn (s : State) (k v : Nat) : (s.wr64 k v).evIn = s.evIn := (rfl)
@[simp] theorem State.wr64_free (s : State) (k v : Nat) : (s.wr64 k v).free = s.free := (rfl)
@[simp] theorem State.wr64_out (s : State) (k v : Nat) : (s.wr64 k v).out = s.out := (rfl)
@[simp] theorem State.wr64_mram (s : State) (k v : Nat) : (s.wr64 k v).mram = s.mram := (rfl)
@[simp] theorem State.wr64_lmem (s : State) (k v : Nat) : (s.wr64 k v).lmem = s.lmem := (rfl)
@[simp] theorem State.wr64_lmErr (s : State) (k v : Nat) : (s.wr64 k v).lmErr = s.lmErr := (rfl)
@[simp] theorem State.wr64_tb (s : State) (k v : Nat) : (s.wr64 k v).tb = s.tb := (rfl)
@[simp] theorem State.wr64_ev (s : State) (k v : Nat) : (s.wr64 k v).ev = s.ev := (rfl)
@[simp] theorem State.wr64_sal (s : State) (k v : Nat) : (s.wr64 k v).sal = s.sal := (rfl)
@[simp] theorem State.wr64_cry (s : State) (k v : Nat) : (s.wr64 k v).cry = s.cry := (rfl)
@[simp] theorem State.wr64_pan (s : State) (k v : Nat) : (s.wr64 k v).pan = s.pan := (rfl)
@[simp] theorem State.wr64_bl (s : State) (k v : Nat) : (s.wr64 k v).bl = s.bl := (rfl)
@[simp] theorem State.wr64_rk (s : State) (k v : Nat) : (s.wr64 k v).rk = s.rk := (rfl)
@[simp] theorem State.wr64_sl (s : State) (k v : Nat) : (s.wr64 k v).sl = s.sl := (rfl)
@[simp] theorem State.wr64_qe (s : State) (k v : Nat) : (s.wr64 k v).qe = s.qe := (rfl)
@[simp] theorem State.wr64_tj (s : State) (k v : Nat) : (s.wr64 k v).tj = s.tj := (rfl)
@[simp] theorem State.wr64_fab (s : State) (k v : Nat) : (s.wr64 k v).fab = s.fab := (rfl)
@[simp] theorem State.wr64_dup (s : State) (k v : Nat) : (s.wr64 k v).dup = s.dup := (rfl)
@[simp] theorem State.wr64_pwr (s : State) (k v : Nat) : (s.wr64 k v).pwr = s.pwr := (rfl)
@[simp] theorem State.wr64_sec (s : State) (k v : Nat) : (s.wr64 k v).sec = s.sec := (rfl)
@[simp] theorem State.wr64_pn (s : State) (k v : Nat) : (s.wr64 k v).pn = s.pn := (rfl)
@[simp] theorem State.wr64_cores (s : State) (k v : Nat) : (s.wr64 k v).cores = s.cores := (rfl)

@[simp] theorem State.incFld_pending (s : State) (f : Fld) : (s.incFld f).pending = s.pending := (rfl)
@[simp] theorem State.incFld_shadow (s : State) (f : Fld) : (s.incFld f).shadow = s.shadow := (rfl)
@[simp] theorem State.incFld_evPay (s : State) (f : Fld) : (s.incFld f).evPay = s.evPay := (rfl)
@[simp] theorem State.incFld_evHeld (s : State) (f : Fld) : (s.incFld f).evHeld = s.evHeld := (rfl)
@[simp] theorem State.incFld_evIn (s : State) (f : Fld) : (s.incFld f).evIn = s.evIn := (rfl)
@[simp] theorem State.incFld_free (s : State) (f : Fld) : (s.incFld f).free = s.free := (rfl)
@[simp] theorem State.incFld_out (s : State) (f : Fld) : (s.incFld f).out = s.out := (rfl)
@[simp] theorem State.incFld_mram (s : State) (f : Fld) : (s.incFld f).mram = s.mram := (rfl)
@[simp] theorem State.incFld_lmem (s : State) (f : Fld) : (s.incFld f).lmem = s.lmem := (rfl)
@[simp] theorem State.incFld_lmErr (s : State) (f : Fld) : (s.incFld f).lmErr = s.lmErr := (rfl)
@[simp] theorem State.incFld_tb (s : State) (f : Fld) : (s.incFld f).tb = s.tb := (rfl)
@[simp] theorem State.incFld_ev (s : State) (f : Fld) : (s.incFld f).ev = s.ev := (rfl)
@[simp] theorem State.incFld_sal (s : State) (f : Fld) : (s.incFld f).sal = s.sal := (rfl)
@[simp] theorem State.incFld_cry (s : State) (f : Fld) : (s.incFld f).cry = s.cry := (rfl)
@[simp] theorem State.incFld_pan (s : State) (f : Fld) : (s.incFld f).pan = s.pan := (rfl)
@[simp] theorem State.incFld_bl (s : State) (f : Fld) : (s.incFld f).bl = s.bl := (rfl)
@[simp] theorem State.incFld_rk (s : State) (f : Fld) : (s.incFld f).rk = s.rk := (rfl)
@[simp] theorem State.incFld_sl (s : State) (f : Fld) : (s.incFld f).sl = s.sl := (rfl)
@[simp] theorem State.incFld_qe (s : State) (f : Fld) : (s.incFld f).qe = s.qe := (rfl)
@[simp] theorem State.incFld_tj (s : State) (f : Fld) : (s.incFld f).tj = s.tj := (rfl)
@[simp] theorem State.incFld_fab (s : State) (f : Fld) : (s.incFld f).fab = s.fab := (rfl)
@[simp] theorem State.incFld_dup (s : State) (f : Fld) : (s.incFld f).dup = s.dup := (rfl)
@[simp] theorem State.incFld_pwr (s : State) (f : Fld) : (s.incFld f).pwr = s.pwr := (rfl)
@[simp] theorem State.incFld_sec (s : State) (f : Fld) : (s.incFld f).sec = s.sec := (rfl)
@[simp] theorem State.incFld_pn (s : State) (f : Fld) : (s.incFld f).pn = s.pn := (rfl)
@[simp] theorem State.incFld_cores (s : State) (f : Fld) : (s.incFld f).cores = s.cores := (rfl)

@[simp] theorem State.addFld_pending (s : State) (f : Fld) (n : Nat) : (s.addFld f n).pending = s.pending := (rfl)
@[simp] theorem State.addFld_shadow (s : State) (f : Fld) (n : Nat) : (s.addFld f n).shadow = s.shadow := (rfl)
@[simp] theorem State.addFld_evPay (s : State) (f : Fld) (n : Nat) : (s.addFld f n).evPay = s.evPay := (rfl)
@[simp] theorem State.addFld_evHeld (s : State) (f : Fld) (n : Nat) : (s.addFld f n).evHeld = s.evHeld := (rfl)
@[simp] theorem State.addFld_evIn (s : State) (f : Fld) (n : Nat) : (s.addFld f n).evIn = s.evIn := (rfl)
@[simp] theorem State.addFld_free (s : State) (f : Fld) (n : Nat) : (s.addFld f n).free = s.free := (rfl)
@[simp] theorem State.addFld_out (s : State) (f : Fld) (n : Nat) : (s.addFld f n).out = s.out := (rfl)
@[simp] theorem State.addFld_mram (s : State) (f : Fld) (n : Nat) : (s.addFld f n).mram = s.mram := (rfl)
@[simp] theorem State.addFld_lmem (s : State) (f : Fld) (n : Nat) : (s.addFld f n).lmem = s.lmem := (rfl)
@[simp] theorem State.addFld_lmErr (s : State) (f : Fld) (n : Nat) : (s.addFld f n).lmErr = s.lmErr := (rfl)
@[simp] theorem State.addFld_tb (s : State) (f : Fld) (n : Nat) : (s.addFld f n).tb = s.tb := (rfl)
@[simp] theorem State.addFld_ev (s : State) (f : Fld) (n : Nat) : (s.addFld f n).ev = s.ev := (rfl)
@[simp] theorem State.addFld_sal (s : State) (f : Fld) (n : Nat) : (s.addFld f n).sal = s.sal := (rfl)
@[simp] theorem State.addFld_cry (s : State) (f : Fld) (n : Nat) : (s.addFld f n).cry = s.cry := (rfl)
@[simp] theorem State.addFld_pan (s : State) (f : Fld) (n : Nat) : (s.addFld f n).pan = s.pan := (rfl)
@[simp] theorem State.addFld_bl (s : State) (f : Fld) (n : Nat) : (s.addFld f n).bl = s.bl := (rfl)
@[simp] theorem State.addFld_rk (s : State) (f : Fld) (n : Nat) : (s.addFld f n).rk = s.rk := (rfl)
@[simp] theorem State.addFld_sl (s : State) (f : Fld) (n : Nat) : (s.addFld f n).sl = s.sl := (rfl)
@[simp] theorem State.addFld_qe (s : State) (f : Fld) (n : Nat) : (s.addFld f n).qe = s.qe := (rfl)
@[simp] theorem State.addFld_tj (s : State) (f : Fld) (n : Nat) : (s.addFld f n).tj = s.tj := (rfl)
@[simp] theorem State.addFld_fab (s : State) (f : Fld) (n : Nat) : (s.addFld f n).fab = s.fab := (rfl)
@[simp] theorem State.addFld_dup (s : State) (f : Fld) (n : Nat) : (s.addFld f n).dup = s.dup := (rfl)
@[simp] theorem State.addFld_pwr (s : State) (f : Fld) (n : Nat) : (s.addFld f n).pwr = s.pwr := (rfl)
@[simp] theorem State.addFld_sec (s : State) (f : Fld) (n : Nat) : (s.addFld f n).sec = s.sec := (rfl)
@[simp] theorem State.addFld_pn (s : State) (f : Fld) (n : Nat) : (s.addFld f n).pn = s.pn := (rfl)
@[simp] theorem State.addFld_cores (s : State) (f : Fld) (n : Nat) : (s.addFld f n).cores = s.cores := (rfl)

@[simp] theorem State.emit_pending (s : State) (o : Out) : (s.emit o).pending = s.pending := (rfl)
@[simp] theorem State.emit_regs (s : State) (o : Out) : (s.emit o).regs = s.regs := (rfl)
@[simp] theorem State.emit_shadow (s : State) (o : Out) : (s.emit o).shadow = s.shadow := (rfl)
@[simp] theorem State.emit_evPay (s : State) (o : Out) : (s.emit o).evPay = s.evPay := (rfl)
@[simp] theorem State.emit_evHeld (s : State) (o : Out) : (s.emit o).evHeld = s.evHeld := (rfl)
@[simp] theorem State.emit_evIn (s : State) (o : Out) : (s.emit o).evIn = s.evIn := (rfl)
@[simp] theorem State.emit_free (s : State) (o : Out) : (s.emit o).free = s.free := (rfl)
@[simp] theorem State.emit_mram (s : State) (o : Out) : (s.emit o).mram = s.mram := (rfl)
@[simp] theorem State.emit_lmem (s : State) (o : Out) : (s.emit o).lmem = s.lmem := (rfl)
@[simp] theorem State.emit_lmErr (s : State) (o : Out) : (s.emit o).lmErr = s.lmErr := (rfl)
@[simp] theorem State.emit_tb (s : State) (o : Out) : (s.emit o).tb = s.tb := (rfl)
@[simp] theorem State.emit_ev (s : State) (o : Out) : (s.emit o).ev = s.ev := (rfl)
@[simp] theorem State.emit_sal (s : State) (o : Out) : (s.emit o).sal = s.sal := (rfl)
@[simp] theorem State.emit_cry (s : State) (o : Out) : (s.emit o).cry = s.cry := (rfl)
@[simp] theorem State.emit_pan (s : State) (o : Out) : (s.emit o).pan = s.pan := (rfl)
@[simp] theorem State.emit_bl (s : State) (o : Out) : (s.emit o).bl = s.bl := (rfl)
@[simp] theorem State.emit_rk (s : State) (o : Out) : (s.emit o).rk = s.rk := (rfl)
@[simp] theorem State.emit_sl (s : State) (o : Out) : (s.emit o).sl = s.sl := (rfl)
@[simp] theorem State.emit_qe (s : State) (o : Out) : (s.emit o).qe = s.qe := (rfl)
@[simp] theorem State.emit_tj (s : State) (o : Out) : (s.emit o).tj = s.tj := (rfl)
@[simp] theorem State.emit_fab (s : State) (o : Out) : (s.emit o).fab = s.fab := (rfl)
@[simp] theorem State.emit_dup (s : State) (o : Out) : (s.emit o).dup = s.dup := (rfl)
@[simp] theorem State.emit_pwr (s : State) (o : Out) : (s.emit o).pwr = s.pwr := (rfl)
@[simp] theorem State.emit_sec (s : State) (o : Out) : (s.emit o).sec = s.sec := (rfl)
@[simp] theorem State.emit_pn (s : State) (o : Out) : (s.emit o).pn = s.pn := (rfl)
@[simp] theorem State.emit_cores (s : State) (o : Out) : (s.emit o).cores = s.cores := (rfl)

@[simp] theorem State.stepFree_pending (s : State) : (s.stepFree).pending = s.pending := (rfl)
@[simp] theorem State.stepFree_regs (s : State) : (s.stepFree).regs = s.regs := (rfl)
@[simp] theorem State.stepFree_shadow (s : State) : (s.stepFree).shadow = s.shadow := (rfl)
@[simp] theorem State.stepFree_evPay (s : State) : (s.stepFree).evPay = s.evPay := (rfl)
@[simp] theorem State.stepFree_evHeld (s : State) : (s.stepFree).evHeld = s.evHeld := (rfl)
@[simp] theorem State.stepFree_evIn (s : State) : (s.stepFree).evIn = s.evIn := (rfl)
@[simp] theorem State.stepFree_out (s : State) : (s.stepFree).out = s.out := (rfl)
@[simp] theorem State.stepFree_mram (s : State) : (s.stepFree).mram = s.mram := (rfl)
@[simp] theorem State.stepFree_lmem (s : State) : (s.stepFree).lmem = s.lmem := (rfl)
@[simp] theorem State.stepFree_lmErr (s : State) : (s.stepFree).lmErr = s.lmErr := (rfl)
@[simp] theorem State.stepFree_tb (s : State) : (s.stepFree).tb = s.tb := (rfl)
@[simp] theorem State.stepFree_ev (s : State) : (s.stepFree).ev = s.ev := (rfl)
@[simp] theorem State.stepFree_sal (s : State) : (s.stepFree).sal = s.sal := (rfl)
@[simp] theorem State.stepFree_cry (s : State) : (s.stepFree).cry = s.cry := (rfl)
@[simp] theorem State.stepFree_pan (s : State) : (s.stepFree).pan = s.pan := (rfl)
@[simp] theorem State.stepFree_bl (s : State) : (s.stepFree).bl = s.bl := (rfl)
@[simp] theorem State.stepFree_rk (s : State) : (s.stepFree).rk = s.rk := (rfl)
@[simp] theorem State.stepFree_sl (s : State) : (s.stepFree).sl = s.sl := (rfl)
@[simp] theorem State.stepFree_qe (s : State) : (s.stepFree).qe = s.qe := (rfl)
@[simp] theorem State.stepFree_tj (s : State) : (s.stepFree).tj = s.tj := (rfl)
@[simp] theorem State.stepFree_fab (s : State) : (s.stepFree).fab = s.fab := (rfl)
@[simp] theorem State.stepFree_dup (s : State) : (s.stepFree).dup = s.dup := (rfl)
@[simp] theorem State.stepFree_pwr (s : State) : (s.stepFree).pwr = s.pwr := (rfl)
@[simp] theorem State.stepFree_sec (s : State) : (s.stepFree).sec = s.sec := (rfl)
@[simp] theorem State.stepFree_pn (s : State) : (s.stepFree).pn = s.pn := (rfl)
@[simp] theorem State.stepFree_cores (s : State) : (s.stepFree).cores = s.cores := (rfl)

@[simp] theorem State.setPend_pending (s : State) (pg b : Nat) (p : EvPay) : (s.setPend pg b p).pending = s.pending := (rfl)
@[simp] theorem State.setPend_shadow (s : State) (pg b : Nat) (p : EvPay) : (s.setPend pg b p).shadow = s.shadow := (rfl)
@[simp] theorem State.setPend_evHeld (s : State) (pg b : Nat) (p : EvPay) : (s.setPend pg b p).evHeld = s.evHeld := (rfl)
@[simp] theorem State.setPend_evIn (s : State) (pg b : Nat) (p : EvPay) : (s.setPend pg b p).evIn = s.evIn := (rfl)
@[simp] theorem State.setPend_free (s : State) (pg b : Nat) (p : EvPay) : (s.setPend pg b p).free = s.free := (rfl)
@[simp] theorem State.setPend_out (s : State) (pg b : Nat) (p : EvPay) : (s.setPend pg b p).out = s.out := (rfl)
@[simp] theorem State.setPend_mram (s : State) (pg b : Nat) (p : EvPay) : (s.setPend pg b p).mram = s.mram := (rfl)
@[simp] theorem State.setPend_lmem (s : State) (pg b : Nat) (p : EvPay) : (s.setPend pg b p).lmem = s.lmem := (rfl)
@[simp] theorem State.setPend_lmErr (s : State) (pg b : Nat) (p : EvPay) : (s.setPend pg b p).lmErr = s.lmErr := (rfl)
@[simp] theorem State.setPend_tb (s : State) (pg b : Nat) (p : EvPay) : (s.setPend pg b p).tb = s.tb := (rfl)
@[simp] theorem State.setPend_ev (s : State) (pg b : Nat) (p : EvPay) : (s.setPend pg b p).ev = s.ev := (rfl)
@[simp] theorem State.setPend_sal (s : State) (pg b : Nat) (p : EvPay) : (s.setPend pg b p).sal = s.sal := (rfl)
@[simp] theorem State.setPend_cry (s : State) (pg b : Nat) (p : EvPay) : (s.setPend pg b p).cry = s.cry := (rfl)
@[simp] theorem State.setPend_pan (s : State) (pg b : Nat) (p : EvPay) : (s.setPend pg b p).pan = s.pan := (rfl)
@[simp] theorem State.setPend_bl (s : State) (pg b : Nat) (p : EvPay) : (s.setPend pg b p).bl = s.bl := (rfl)
@[simp] theorem State.setPend_rk (s : State) (pg b : Nat) (p : EvPay) : (s.setPend pg b p).rk = s.rk := (rfl)
@[simp] theorem State.setPend_sl (s : State) (pg b : Nat) (p : EvPay) : (s.setPend pg b p).sl = s.sl := (rfl)
@[simp] theorem State.setPend_qe (s : State) (pg b : Nat) (p : EvPay) : (s.setPend pg b p).qe = s.qe := (rfl)
@[simp] theorem State.setPend_tj (s : State) (pg b : Nat) (p : EvPay) : (s.setPend pg b p).tj = s.tj := (rfl)
@[simp] theorem State.setPend_fab (s : State) (pg b : Nat) (p : EvPay) : (s.setPend pg b p).fab = s.fab := (rfl)
@[simp] theorem State.setPend_dup (s : State) (pg b : Nat) (p : EvPay) : (s.setPend pg b p).dup = s.dup := (rfl)
@[simp] theorem State.setPend_pwr (s : State) (pg b : Nat) (p : EvPay) : (s.setPend pg b p).pwr = s.pwr := (rfl)
@[simp] theorem State.setPend_sec (s : State) (pg b : Nat) (p : EvPay) : (s.setPend pg b p).sec = s.sec := (rfl)
@[simp] theorem State.setPend_pn (s : State) (pg b : Nat) (p : EvPay) : (s.setPend pg b p).pn = s.pn := (rfl)
@[simp] theorem State.setPend_cores (s : State) (pg b : Nat) (p : EvPay) : (s.setPend pg b p).cores = s.cores := (rfl)

@[simp] theorem State.setTx_pending (s : State) (k : Nat) (t : SlTx) : (s.setTx k t).pending = s.pending := (rfl)
@[simp] theorem State.setTx_regs (s : State) (k : Nat) (t : SlTx) : (s.setTx k t).regs = s.regs := (rfl)
@[simp] theorem State.setTx_shadow (s : State) (k : Nat) (t : SlTx) : (s.setTx k t).shadow = s.shadow := (rfl)
@[simp] theorem State.setTx_evPay (s : State) (k : Nat) (t : SlTx) : (s.setTx k t).evPay = s.evPay := (rfl)
@[simp] theorem State.setTx_evHeld (s : State) (k : Nat) (t : SlTx) : (s.setTx k t).evHeld = s.evHeld := (rfl)
@[simp] theorem State.setTx_evIn (s : State) (k : Nat) (t : SlTx) : (s.setTx k t).evIn = s.evIn := (rfl)
@[simp] theorem State.setTx_free (s : State) (k : Nat) (t : SlTx) : (s.setTx k t).free = s.free := (rfl)
@[simp] theorem State.setTx_out (s : State) (k : Nat) (t : SlTx) : (s.setTx k t).out = s.out := (rfl)
@[simp] theorem State.setTx_mram (s : State) (k : Nat) (t : SlTx) : (s.setTx k t).mram = s.mram := (rfl)
@[simp] theorem State.setTx_lmem (s : State) (k : Nat) (t : SlTx) : (s.setTx k t).lmem = s.lmem := (rfl)
@[simp] theorem State.setTx_lmErr (s : State) (k : Nat) (t : SlTx) : (s.setTx k t).lmErr = s.lmErr := (rfl)
@[simp] theorem State.setTx_tb (s : State) (k : Nat) (t : SlTx) : (s.setTx k t).tb = s.tb := (rfl)
@[simp] theorem State.setTx_ev (s : State) (k : Nat) (t : SlTx) : (s.setTx k t).ev = s.ev := (rfl)
@[simp] theorem State.setTx_sal (s : State) (k : Nat) (t : SlTx) : (s.setTx k t).sal = s.sal := (rfl)
@[simp] theorem State.setTx_cry (s : State) (k : Nat) (t : SlTx) : (s.setTx k t).cry = s.cry := (rfl)
@[simp] theorem State.setTx_pan (s : State) (k : Nat) (t : SlTx) : (s.setTx k t).pan = s.pan := (rfl)
@[simp] theorem State.setTx_bl (s : State) (k : Nat) (t : SlTx) : (s.setTx k t).bl = s.bl := (rfl)
@[simp] theorem State.setTx_rk (s : State) (k : Nat) (t : SlTx) : (s.setTx k t).rk = s.rk := (rfl)
@[simp] theorem State.setTx_qe (s : State) (k : Nat) (t : SlTx) : (s.setTx k t).qe = s.qe := (rfl)
@[simp] theorem State.setTx_tj (s : State) (k : Nat) (t : SlTx) : (s.setTx k t).tj = s.tj := (rfl)
@[simp] theorem State.setTx_fab (s : State) (k : Nat) (t : SlTx) : (s.setTx k t).fab = s.fab := (rfl)
@[simp] theorem State.setTx_dup (s : State) (k : Nat) (t : SlTx) : (s.setTx k t).dup = s.dup := (rfl)
@[simp] theorem State.setTx_pwr (s : State) (k : Nat) (t : SlTx) : (s.setTx k t).pwr = s.pwr := (rfl)
@[simp] theorem State.setTx_sec (s : State) (k : Nat) (t : SlTx) : (s.setTx k t).sec = s.sec := (rfl)
@[simp] theorem State.setTx_pn (s : State) (k : Nat) (t : SlTx) : (s.setTx k t).pn = s.pn := (rfl)
@[simp] theorem State.setTx_cores (s : State) (k : Nat) (t : SlTx) : (s.setTx k t).cores = s.cores := (rfl)

@[simp] theorem State.setRx_pending (s : State) (k : Nat) (t : SlRx) : (s.setRx k t).pending = s.pending := (rfl)
@[simp] theorem State.setRx_regs (s : State) (k : Nat) (t : SlRx) : (s.setRx k t).regs = s.regs := (rfl)
@[simp] theorem State.setRx_shadow (s : State) (k : Nat) (t : SlRx) : (s.setRx k t).shadow = s.shadow := (rfl)
@[simp] theorem State.setRx_evPay (s : State) (k : Nat) (t : SlRx) : (s.setRx k t).evPay = s.evPay := (rfl)
@[simp] theorem State.setRx_evHeld (s : State) (k : Nat) (t : SlRx) : (s.setRx k t).evHeld = s.evHeld := (rfl)
@[simp] theorem State.setRx_evIn (s : State) (k : Nat) (t : SlRx) : (s.setRx k t).evIn = s.evIn := (rfl)
@[simp] theorem State.setRx_free (s : State) (k : Nat) (t : SlRx) : (s.setRx k t).free = s.free := (rfl)
@[simp] theorem State.setRx_out (s : State) (k : Nat) (t : SlRx) : (s.setRx k t).out = s.out := (rfl)
@[simp] theorem State.setRx_mram (s : State) (k : Nat) (t : SlRx) : (s.setRx k t).mram = s.mram := (rfl)
@[simp] theorem State.setRx_lmem (s : State) (k : Nat) (t : SlRx) : (s.setRx k t).lmem = s.lmem := (rfl)
@[simp] theorem State.setRx_lmErr (s : State) (k : Nat) (t : SlRx) : (s.setRx k t).lmErr = s.lmErr := (rfl)
@[simp] theorem State.setRx_tb (s : State) (k : Nat) (t : SlRx) : (s.setRx k t).tb = s.tb := (rfl)
@[simp] theorem State.setRx_ev (s : State) (k : Nat) (t : SlRx) : (s.setRx k t).ev = s.ev := (rfl)
@[simp] theorem State.setRx_sal (s : State) (k : Nat) (t : SlRx) : (s.setRx k t).sal = s.sal := (rfl)
@[simp] theorem State.setRx_cry (s : State) (k : Nat) (t : SlRx) : (s.setRx k t).cry = s.cry := (rfl)
@[simp] theorem State.setRx_pan (s : State) (k : Nat) (t : SlRx) : (s.setRx k t).pan = s.pan := (rfl)
@[simp] theorem State.setRx_bl (s : State) (k : Nat) (t : SlRx) : (s.setRx k t).bl = s.bl := (rfl)
@[simp] theorem State.setRx_rk (s : State) (k : Nat) (t : SlRx) : (s.setRx k t).rk = s.rk := (rfl)
@[simp] theorem State.setRx_qe (s : State) (k : Nat) (t : SlRx) : (s.setRx k t).qe = s.qe := (rfl)
@[simp] theorem State.setRx_tj (s : State) (k : Nat) (t : SlRx) : (s.setRx k t).tj = s.tj := (rfl)
@[simp] theorem State.setRx_fab (s : State) (k : Nat) (t : SlRx) : (s.setRx k t).fab = s.fab := (rfl)
@[simp] theorem State.setRx_dup (s : State) (k : Nat) (t : SlRx) : (s.setRx k t).dup = s.dup := (rfl)
@[simp] theorem State.setRx_pwr (s : State) (k : Nat) (t : SlRx) : (s.setRx k t).pwr = s.pwr := (rfl)
@[simp] theorem State.setRx_sec (s : State) (k : Nat) (t : SlRx) : (s.setRx k t).sec = s.sec := (rfl)
@[simp] theorem State.setRx_pn (s : State) (k : Nat) (t : SlRx) : (s.setRx k t).pn = s.pn := (rfl)
@[simp] theorem State.setRx_cores (s : State) (k : Nat) (t : SlRx) : (s.setRx k t).cores = s.cores := (rfl)

@[simp] theorem State.setCore_pending (s : State) (n : Nat) (c : Core) : (s.setCore n c).pending = s.pending := (rfl)
@[simp] theorem State.setCore_regs (s : State) (n : Nat) (c : Core) : (s.setCore n c).regs = s.regs := (rfl)
@[simp] theorem State.setCore_shadow (s : State) (n : Nat) (c : Core) : (s.setCore n c).shadow = s.shadow := (rfl)
@[simp] theorem State.setCore_evPay (s : State) (n : Nat) (c : Core) : (s.setCore n c).evPay = s.evPay := (rfl)
@[simp] theorem State.setCore_evHeld (s : State) (n : Nat) (c : Core) : (s.setCore n c).evHeld = s.evHeld := (rfl)
@[simp] theorem State.setCore_evIn (s : State) (n : Nat) (c : Core) : (s.setCore n c).evIn = s.evIn := (rfl)
@[simp] theorem State.setCore_free (s : State) (n : Nat) (c : Core) : (s.setCore n c).free = s.free := (rfl)
@[simp] theorem State.setCore_out (s : State) (n : Nat) (c : Core) : (s.setCore n c).out = s.out := (rfl)
@[simp] theorem State.setCore_mram (s : State) (n : Nat) (c : Core) : (s.setCore n c).mram = s.mram := (rfl)
@[simp] theorem State.setCore_lmem (s : State) (n : Nat) (c : Core) : (s.setCore n c).lmem = s.lmem := (rfl)
@[simp] theorem State.setCore_lmErr (s : State) (n : Nat) (c : Core) : (s.setCore n c).lmErr = s.lmErr := (rfl)
@[simp] theorem State.setCore_tb (s : State) (n : Nat) (c : Core) : (s.setCore n c).tb = s.tb := (rfl)
@[simp] theorem State.setCore_ev (s : State) (n : Nat) (c : Core) : (s.setCore n c).ev = s.ev := (rfl)
@[simp] theorem State.setCore_sal (s : State) (n : Nat) (c : Core) : (s.setCore n c).sal = s.sal := (rfl)
@[simp] theorem State.setCore_cry (s : State) (n : Nat) (c : Core) : (s.setCore n c).cry = s.cry := (rfl)
@[simp] theorem State.setCore_pan (s : State) (n : Nat) (c : Core) : (s.setCore n c).pan = s.pan := (rfl)
@[simp] theorem State.setCore_bl (s : State) (n : Nat) (c : Core) : (s.setCore n c).bl = s.bl := (rfl)
@[simp] theorem State.setCore_rk (s : State) (n : Nat) (c : Core) : (s.setCore n c).rk = s.rk := (rfl)
@[simp] theorem State.setCore_sl (s : State) (n : Nat) (c : Core) : (s.setCore n c).sl = s.sl := (rfl)
@[simp] theorem State.setCore_qe (s : State) (n : Nat) (c : Core) : (s.setCore n c).qe = s.qe := (rfl)
@[simp] theorem State.setCore_tj (s : State) (n : Nat) (c : Core) : (s.setCore n c).tj = s.tj := (rfl)
@[simp] theorem State.setCore_fab (s : State) (n : Nat) (c : Core) : (s.setCore n c).fab = s.fab := (rfl)
@[simp] theorem State.setCore_dup (s : State) (n : Nat) (c : Core) : (s.setCore n c).dup = s.dup := (rfl)
@[simp] theorem State.setCore_pwr (s : State) (n : Nat) (c : Core) : (s.setCore n c).pwr = s.pwr := (rfl)
@[simp] theorem State.setCore_sec (s : State) (n : Nat) (c : Core) : (s.setCore n c).sec = s.sec := (rfl)
@[simp] theorem State.setCore_pn (s : State) (n : Nat) (c : Core) : (s.setCore n c).pn = s.pn := (rfl)

@[simp] theorem State.mapCore_pending (s : State) (n : Nat) (f : Core → Core) : (s.mapCore n f).pending = s.pending := (rfl)
@[simp] theorem State.mapCore_regs (s : State) (n : Nat) (f : Core → Core) : (s.mapCore n f).regs = s.regs := (rfl)
@[simp] theorem State.mapCore_shadow (s : State) (n : Nat) (f : Core → Core) : (s.mapCore n f).shadow = s.shadow := (rfl)
@[simp] theorem State.mapCore_evPay (s : State) (n : Nat) (f : Core → Core) : (s.mapCore n f).evPay = s.evPay := (rfl)
@[simp] theorem State.mapCore_evHeld (s : State) (n : Nat) (f : Core → Core) : (s.mapCore n f).evHeld = s.evHeld := (rfl)
@[simp] theorem State.mapCore_evIn (s : State) (n : Nat) (f : Core → Core) : (s.mapCore n f).evIn = s.evIn := (rfl)
@[simp] theorem State.mapCore_free (s : State) (n : Nat) (f : Core → Core) : (s.mapCore n f).free = s.free := (rfl)
@[simp] theorem State.mapCore_out (s : State) (n : Nat) (f : Core → Core) : (s.mapCore n f).out = s.out := (rfl)
@[simp] theorem State.mapCore_mram (s : State) (n : Nat) (f : Core → Core) : (s.mapCore n f).mram = s.mram := (rfl)
@[simp] theorem State.mapCore_lmem (s : State) (n : Nat) (f : Core → Core) : (s.mapCore n f).lmem = s.lmem := (rfl)
@[simp] theorem State.mapCore_lmErr (s : State) (n : Nat) (f : Core → Core) : (s.mapCore n f).lmErr = s.lmErr := (rfl)
@[simp] theorem State.mapCore_tb (s : State) (n : Nat) (f : Core → Core) : (s.mapCore n f).tb = s.tb := (rfl)
@[simp] theorem State.mapCore_ev (s : State) (n : Nat) (f : Core → Core) : (s.mapCore n f).ev = s.ev := (rfl)
@[simp] theorem State.mapCore_sal (s : State) (n : Nat) (f : Core → Core) : (s.mapCore n f).sal = s.sal := (rfl)
@[simp] theorem State.mapCore_cry (s : State) (n : Nat) (f : Core → Core) : (s.mapCore n f).cry = s.cry := (rfl)
@[simp] theorem State.mapCore_pan (s : State) (n : Nat) (f : Core → Core) : (s.mapCore n f).pan = s.pan := (rfl)
@[simp] theorem State.mapCore_bl (s : State) (n : Nat) (f : Core → Core) : (s.mapCore n f).bl = s.bl := (rfl)
@[simp] theorem State.mapCore_rk (s : State) (n : Nat) (f : Core → Core) : (s.mapCore n f).rk = s.rk := (rfl)
@[simp] theorem State.mapCore_sl (s : State) (n : Nat) (f : Core → Core) : (s.mapCore n f).sl = s.sl := (rfl)
@[simp] theorem State.mapCore_qe (s : State) (n : Nat) (f : Core → Core) : (s.mapCore n f).qe = s.qe := (rfl)
@[simp] theorem State.mapCore_tj (s : State) (n : Nat) (f : Core → Core) : (s.mapCore n f).tj = s.tj := (rfl)
@[simp] theorem State.mapCore_fab (s : State) (n : Nat) (f : Core → Core) : (s.mapCore n f).fab = s.fab := (rfl)
@[simp] theorem State.mapCore_dup (s : State) (n : Nat) (f : Core → Core) : (s.mapCore n f).dup = s.dup := (rfl)
@[simp] theorem State.mapCore_pwr (s : State) (n : Nat) (f : Core → Core) : (s.mapCore n f).pwr = s.pwr := (rfl)
@[simp] theorem State.mapCore_sec (s : State) (n : Nat) (f : Core → Core) : (s.mapCore n f).sec = s.sec := (rfl)
@[simp] theorem State.mapCore_pn (s : State) (n : Nat) (f : Core → Core) : (s.mapCore n f).pn = s.pn := (rfl)

@[simp] theorem State.tbSet_pending (s : State) (f : TbState → TbState) : (s.tbSet f).pending = s.pending := (rfl)
@[simp] theorem State.tbSet_regs (s : State) (f : TbState → TbState) : (s.tbSet f).regs = s.regs := (rfl)
@[simp] theorem State.tbSet_shadow (s : State) (f : TbState → TbState) : (s.tbSet f).shadow = s.shadow := (rfl)
@[simp] theorem State.tbSet_evPay (s : State) (f : TbState → TbState) : (s.tbSet f).evPay = s.evPay := (rfl)
@[simp] theorem State.tbSet_evHeld (s : State) (f : TbState → TbState) : (s.tbSet f).evHeld = s.evHeld := (rfl)
@[simp] theorem State.tbSet_evIn (s : State) (f : TbState → TbState) : (s.tbSet f).evIn = s.evIn := (rfl)
@[simp] theorem State.tbSet_free (s : State) (f : TbState → TbState) : (s.tbSet f).free = s.free := (rfl)
@[simp] theorem State.tbSet_out (s : State) (f : TbState → TbState) : (s.tbSet f).out = s.out := (rfl)
@[simp] theorem State.tbSet_mram (s : State) (f : TbState → TbState) : (s.tbSet f).mram = s.mram := (rfl)
@[simp] theorem State.tbSet_lmem (s : State) (f : TbState → TbState) : (s.tbSet f).lmem = s.lmem := (rfl)
@[simp] theorem State.tbSet_lmErr (s : State) (f : TbState → TbState) : (s.tbSet f).lmErr = s.lmErr := (rfl)
@[simp] theorem State.tbSet_ev (s : State) (f : TbState → TbState) : (s.tbSet f).ev = s.ev := (rfl)
@[simp] theorem State.tbSet_sal (s : State) (f : TbState → TbState) : (s.tbSet f).sal = s.sal := (rfl)
@[simp] theorem State.tbSet_cry (s : State) (f : TbState → TbState) : (s.tbSet f).cry = s.cry := (rfl)
@[simp] theorem State.tbSet_pan (s : State) (f : TbState → TbState) : (s.tbSet f).pan = s.pan := (rfl)
@[simp] theorem State.tbSet_bl (s : State) (f : TbState → TbState) : (s.tbSet f).bl = s.bl := (rfl)
@[simp] theorem State.tbSet_rk (s : State) (f : TbState → TbState) : (s.tbSet f).rk = s.rk := (rfl)
@[simp] theorem State.tbSet_sl (s : State) (f : TbState → TbState) : (s.tbSet f).sl = s.sl := (rfl)
@[simp] theorem State.tbSet_qe (s : State) (f : TbState → TbState) : (s.tbSet f).qe = s.qe := (rfl)
@[simp] theorem State.tbSet_tj (s : State) (f : TbState → TbState) : (s.tbSet f).tj = s.tj := (rfl)
@[simp] theorem State.tbSet_fab (s : State) (f : TbState → TbState) : (s.tbSet f).fab = s.fab := (rfl)
@[simp] theorem State.tbSet_dup (s : State) (f : TbState → TbState) : (s.tbSet f).dup = s.dup := (rfl)
@[simp] theorem State.tbSet_pwr (s : State) (f : TbState → TbState) : (s.tbSet f).pwr = s.pwr := (rfl)
@[simp] theorem State.tbSet_sec (s : State) (f : TbState → TbState) : (s.tbSet f).sec = s.sec := (rfl)
@[simp] theorem State.tbSet_pn (s : State) (f : TbState → TbState) : (s.tbSet f).pn = s.pn := (rfl)
@[simp] theorem State.tbSet_cores (s : State) (f : TbState → TbState) : (s.tbSet f).cores = s.cores := (rfl)
@[simp] theorem State.tbSet_tb (s : State) (f : TbState → TbState) : (s.tbSet f).tb = f s.tb := (rfl)

@[simp] theorem State.salSet_pending (s : State) (f : SalState → SalState) : (s.salSet f).pending = s.pending := (rfl)
@[simp] theorem State.salSet_regs (s : State) (f : SalState → SalState) : (s.salSet f).regs = s.regs := (rfl)
@[simp] theorem State.salSet_shadow (s : State) (f : SalState → SalState) : (s.salSet f).shadow = s.shadow := (rfl)
@[simp] theorem State.salSet_evPay (s : State) (f : SalState → SalState) : (s.salSet f).evPay = s.evPay := (rfl)
@[simp] theorem State.salSet_evHeld (s : State) (f : SalState → SalState) : (s.salSet f).evHeld = s.evHeld := (rfl)
@[simp] theorem State.salSet_evIn (s : State) (f : SalState → SalState) : (s.salSet f).evIn = s.evIn := (rfl)
@[simp] theorem State.salSet_free (s : State) (f : SalState → SalState) : (s.salSet f).free = s.free := (rfl)
@[simp] theorem State.salSet_out (s : State) (f : SalState → SalState) : (s.salSet f).out = s.out := (rfl)
@[simp] theorem State.salSet_mram (s : State) (f : SalState → SalState) : (s.salSet f).mram = s.mram := (rfl)
@[simp] theorem State.salSet_lmem (s : State) (f : SalState → SalState) : (s.salSet f).lmem = s.lmem := (rfl)
@[simp] theorem State.salSet_lmErr (s : State) (f : SalState → SalState) : (s.salSet f).lmErr = s.lmErr := (rfl)
@[simp] theorem State.salSet_tb (s : State) (f : SalState → SalState) : (s.salSet f).tb = s.tb := (rfl)
@[simp] theorem State.salSet_ev (s : State) (f : SalState → SalState) : (s.salSet f).ev = s.ev := (rfl)
@[simp] theorem State.salSet_cry (s : State) (f : SalState → SalState) : (s.salSet f).cry = s.cry := (rfl)
@[simp] theorem State.salSet_pan (s : State) (f : SalState → SalState) : (s.salSet f).pan = s.pan := (rfl)
@[simp] theorem State.salSet_bl (s : State) (f : SalState → SalState) : (s.salSet f).bl = s.bl := (rfl)
@[simp] theorem State.salSet_rk (s : State) (f : SalState → SalState) : (s.salSet f).rk = s.rk := (rfl)
@[simp] theorem State.salSet_sl (s : State) (f : SalState → SalState) : (s.salSet f).sl = s.sl := (rfl)
@[simp] theorem State.salSet_qe (s : State) (f : SalState → SalState) : (s.salSet f).qe = s.qe := (rfl)
@[simp] theorem State.salSet_tj (s : State) (f : SalState → SalState) : (s.salSet f).tj = s.tj := (rfl)
@[simp] theorem State.salSet_fab (s : State) (f : SalState → SalState) : (s.salSet f).fab = s.fab := (rfl)
@[simp] theorem State.salSet_dup (s : State) (f : SalState → SalState) : (s.salSet f).dup = s.dup := (rfl)
@[simp] theorem State.salSet_pwr (s : State) (f : SalState → SalState) : (s.salSet f).pwr = s.pwr := (rfl)
@[simp] theorem State.salSet_sec (s : State) (f : SalState → SalState) : (s.salSet f).sec = s.sec := (rfl)
@[simp] theorem State.salSet_pn (s : State) (f : SalState → SalState) : (s.salSet f).pn = s.pn := (rfl)
@[simp] theorem State.salSet_cores (s : State) (f : SalState → SalState) : (s.salSet f).cores = s.cores := (rfl)
@[simp] theorem State.salSet_sal (s : State) (f : SalState → SalState) : (s.salSet f).sal = f s.sal := (rfl)

@[simp] theorem State.crySet_pending (s : State) (f : CryState → CryState) : (s.crySet f).pending = s.pending := (rfl)
@[simp] theorem State.crySet_regs (s : State) (f : CryState → CryState) : (s.crySet f).regs = s.regs := (rfl)
@[simp] theorem State.crySet_shadow (s : State) (f : CryState → CryState) : (s.crySet f).shadow = s.shadow := (rfl)
@[simp] theorem State.crySet_evPay (s : State) (f : CryState → CryState) : (s.crySet f).evPay = s.evPay := (rfl)
@[simp] theorem State.crySet_evHeld (s : State) (f : CryState → CryState) : (s.crySet f).evHeld = s.evHeld := (rfl)
@[simp] theorem State.crySet_evIn (s : State) (f : CryState → CryState) : (s.crySet f).evIn = s.evIn := (rfl)
@[simp] theorem State.crySet_free (s : State) (f : CryState → CryState) : (s.crySet f).free = s.free := (rfl)
@[simp] theorem State.crySet_out (s : State) (f : CryState → CryState) : (s.crySet f).out = s.out := (rfl)
@[simp] theorem State.crySet_mram (s : State) (f : CryState → CryState) : (s.crySet f).mram = s.mram := (rfl)
@[simp] theorem State.crySet_lmem (s : State) (f : CryState → CryState) : (s.crySet f).lmem = s.lmem := (rfl)
@[simp] theorem State.crySet_lmErr (s : State) (f : CryState → CryState) : (s.crySet f).lmErr = s.lmErr := (rfl)
@[simp] theorem State.crySet_tb (s : State) (f : CryState → CryState) : (s.crySet f).tb = s.tb := (rfl)
@[simp] theorem State.crySet_ev (s : State) (f : CryState → CryState) : (s.crySet f).ev = s.ev := (rfl)
@[simp] theorem State.crySet_sal (s : State) (f : CryState → CryState) : (s.crySet f).sal = s.sal := (rfl)
@[simp] theorem State.crySet_pan (s : State) (f : CryState → CryState) : (s.crySet f).pan = s.pan := (rfl)
@[simp] theorem State.crySet_bl (s : State) (f : CryState → CryState) : (s.crySet f).bl = s.bl := (rfl)
@[simp] theorem State.crySet_rk (s : State) (f : CryState → CryState) : (s.crySet f).rk = s.rk := (rfl)
@[simp] theorem State.crySet_sl (s : State) (f : CryState → CryState) : (s.crySet f).sl = s.sl := (rfl)
@[simp] theorem State.crySet_qe (s : State) (f : CryState → CryState) : (s.crySet f).qe = s.qe := (rfl)
@[simp] theorem State.crySet_tj (s : State) (f : CryState → CryState) : (s.crySet f).tj = s.tj := (rfl)
@[simp] theorem State.crySet_fab (s : State) (f : CryState → CryState) : (s.crySet f).fab = s.fab := (rfl)
@[simp] theorem State.crySet_dup (s : State) (f : CryState → CryState) : (s.crySet f).dup = s.dup := (rfl)
@[simp] theorem State.crySet_pwr (s : State) (f : CryState → CryState) : (s.crySet f).pwr = s.pwr := (rfl)
@[simp] theorem State.crySet_sec (s : State) (f : CryState → CryState) : (s.crySet f).sec = s.sec := (rfl)
@[simp] theorem State.crySet_pn (s : State) (f : CryState → CryState) : (s.crySet f).pn = s.pn := (rfl)
@[simp] theorem State.crySet_cores (s : State) (f : CryState → CryState) : (s.crySet f).cores = s.cores := (rfl)
@[simp] theorem State.crySet_cry (s : State) (f : CryState → CryState) : (s.crySet f).cry = f s.cry := (rfl)

@[simp] theorem State.panSet_pending (s : State) (f : PanState → PanState) : (s.panSet f).pending = s.pending := (rfl)
@[simp] theorem State.panSet_regs (s : State) (f : PanState → PanState) : (s.panSet f).regs = s.regs := (rfl)
@[simp] theorem State.panSet_shadow (s : State) (f : PanState → PanState) : (s.panSet f).shadow = s.shadow := (rfl)
@[simp] theorem State.panSet_evPay (s : State) (f : PanState → PanState) : (s.panSet f).evPay = s.evPay := (rfl)
@[simp] theorem State.panSet_evHeld (s : State) (f : PanState → PanState) : (s.panSet f).evHeld = s.evHeld := (rfl)
@[simp] theorem State.panSet_evIn (s : State) (f : PanState → PanState) : (s.panSet f).evIn = s.evIn := (rfl)
@[simp] theorem State.panSet_free (s : State) (f : PanState → PanState) : (s.panSet f).free = s.free := (rfl)
@[simp] theorem State.panSet_out (s : State) (f : PanState → PanState) : (s.panSet f).out = s.out := (rfl)
@[simp] theorem State.panSet_mram (s : State) (f : PanState → PanState) : (s.panSet f).mram = s.mram := (rfl)
@[simp] theorem State.panSet_lmem (s : State) (f : PanState → PanState) : (s.panSet f).lmem = s.lmem := (rfl)
@[simp] theorem State.panSet_lmErr (s : State) (f : PanState → PanState) : (s.panSet f).lmErr = s.lmErr := (rfl)
@[simp] theorem State.panSet_tb (s : State) (f : PanState → PanState) : (s.panSet f).tb = s.tb := (rfl)
@[simp] theorem State.panSet_ev (s : State) (f : PanState → PanState) : (s.panSet f).ev = s.ev := (rfl)
@[simp] theorem State.panSet_sal (s : State) (f : PanState → PanState) : (s.panSet f).sal = s.sal := (rfl)
@[simp] theorem State.panSet_cry (s : State) (f : PanState → PanState) : (s.panSet f).cry = s.cry := (rfl)
@[simp] theorem State.panSet_bl (s : State) (f : PanState → PanState) : (s.panSet f).bl = s.bl := (rfl)
@[simp] theorem State.panSet_rk (s : State) (f : PanState → PanState) : (s.panSet f).rk = s.rk := (rfl)
@[simp] theorem State.panSet_sl (s : State) (f : PanState → PanState) : (s.panSet f).sl = s.sl := (rfl)
@[simp] theorem State.panSet_qe (s : State) (f : PanState → PanState) : (s.panSet f).qe = s.qe := (rfl)
@[simp] theorem State.panSet_tj (s : State) (f : PanState → PanState) : (s.panSet f).tj = s.tj := (rfl)
@[simp] theorem State.panSet_fab (s : State) (f : PanState → PanState) : (s.panSet f).fab = s.fab := (rfl)
@[simp] theorem State.panSet_dup (s : State) (f : PanState → PanState) : (s.panSet f).dup = s.dup := (rfl)
@[simp] theorem State.panSet_pwr (s : State) (f : PanState → PanState) : (s.panSet f).pwr = s.pwr := (rfl)
@[simp] theorem State.panSet_sec (s : State) (f : PanState → PanState) : (s.panSet f).sec = s.sec := (rfl)
@[simp] theorem State.panSet_pn (s : State) (f : PanState → PanState) : (s.panSet f).pn = s.pn := (rfl)
@[simp] theorem State.panSet_cores (s : State) (f : PanState → PanState) : (s.panSet f).cores = s.cores := (rfl)
@[simp] theorem State.panSet_pan (s : State) (f : PanState → PanState) : (s.panSet f).pan = f s.pan := (rfl)

@[simp] theorem State.rkSet_pending (s : State) (f : RakeState → RakeState) : (s.rkSet f).pending = s.pending := (rfl)
@[simp] theorem State.rkSet_regs (s : State) (f : RakeState → RakeState) : (s.rkSet f).regs = s.regs := (rfl)
@[simp] theorem State.rkSet_shadow (s : State) (f : RakeState → RakeState) : (s.rkSet f).shadow = s.shadow := (rfl)
@[simp] theorem State.rkSet_evPay (s : State) (f : RakeState → RakeState) : (s.rkSet f).evPay = s.evPay := (rfl)
@[simp] theorem State.rkSet_evHeld (s : State) (f : RakeState → RakeState) : (s.rkSet f).evHeld = s.evHeld := (rfl)
@[simp] theorem State.rkSet_evIn (s : State) (f : RakeState → RakeState) : (s.rkSet f).evIn = s.evIn := (rfl)
@[simp] theorem State.rkSet_free (s : State) (f : RakeState → RakeState) : (s.rkSet f).free = s.free := (rfl)
@[simp] theorem State.rkSet_out (s : State) (f : RakeState → RakeState) : (s.rkSet f).out = s.out := (rfl)
@[simp] theorem State.rkSet_mram (s : State) (f : RakeState → RakeState) : (s.rkSet f).mram = s.mram := (rfl)
@[simp] theorem State.rkSet_lmem (s : State) (f : RakeState → RakeState) : (s.rkSet f).lmem = s.lmem := (rfl)
@[simp] theorem State.rkSet_lmErr (s : State) (f : RakeState → RakeState) : (s.rkSet f).lmErr = s.lmErr := (rfl)
@[simp] theorem State.rkSet_tb (s : State) (f : RakeState → RakeState) : (s.rkSet f).tb = s.tb := (rfl)
@[simp] theorem State.rkSet_ev (s : State) (f : RakeState → RakeState) : (s.rkSet f).ev = s.ev := (rfl)
@[simp] theorem State.rkSet_sal (s : State) (f : RakeState → RakeState) : (s.rkSet f).sal = s.sal := (rfl)
@[simp] theorem State.rkSet_cry (s : State) (f : RakeState → RakeState) : (s.rkSet f).cry = s.cry := (rfl)
@[simp] theorem State.rkSet_pan (s : State) (f : RakeState → RakeState) : (s.rkSet f).pan = s.pan := (rfl)
@[simp] theorem State.rkSet_bl (s : State) (f : RakeState → RakeState) : (s.rkSet f).bl = s.bl := (rfl)
@[simp] theorem State.rkSet_sl (s : State) (f : RakeState → RakeState) : (s.rkSet f).sl = s.sl := (rfl)
@[simp] theorem State.rkSet_qe (s : State) (f : RakeState → RakeState) : (s.rkSet f).qe = s.qe := (rfl)
@[simp] theorem State.rkSet_tj (s : State) (f : RakeState → RakeState) : (s.rkSet f).tj = s.tj := (rfl)
@[simp] theorem State.rkSet_fab (s : State) (f : RakeState → RakeState) : (s.rkSet f).fab = s.fab := (rfl)
@[simp] theorem State.rkSet_dup (s : State) (f : RakeState → RakeState) : (s.rkSet f).dup = s.dup := (rfl)
@[simp] theorem State.rkSet_pwr (s : State) (f : RakeState → RakeState) : (s.rkSet f).pwr = s.pwr := (rfl)
@[simp] theorem State.rkSet_sec (s : State) (f : RakeState → RakeState) : (s.rkSet f).sec = s.sec := (rfl)
@[simp] theorem State.rkSet_pn (s : State) (f : RakeState → RakeState) : (s.rkSet f).pn = s.pn := (rfl)
@[simp] theorem State.rkSet_cores (s : State) (f : RakeState → RakeState) : (s.rkSet f).cores = s.cores := (rfl)
@[simp] theorem State.rkSet_rk (s : State) (f : RakeState → RakeState) : (s.rkSet f).rk = f s.rk := (rfl)

@[simp] theorem State.slSet_pending (s : State) (f : SlState → SlState) : (s.slSet f).pending = s.pending := (rfl)
@[simp] theorem State.slSet_regs (s : State) (f : SlState → SlState) : (s.slSet f).regs = s.regs := (rfl)
@[simp] theorem State.slSet_shadow (s : State) (f : SlState → SlState) : (s.slSet f).shadow = s.shadow := (rfl)
@[simp] theorem State.slSet_evPay (s : State) (f : SlState → SlState) : (s.slSet f).evPay = s.evPay := (rfl)
@[simp] theorem State.slSet_evHeld (s : State) (f : SlState → SlState) : (s.slSet f).evHeld = s.evHeld := (rfl)
@[simp] theorem State.slSet_evIn (s : State) (f : SlState → SlState) : (s.slSet f).evIn = s.evIn := (rfl)
@[simp] theorem State.slSet_free (s : State) (f : SlState → SlState) : (s.slSet f).free = s.free := (rfl)
@[simp] theorem State.slSet_out (s : State) (f : SlState → SlState) : (s.slSet f).out = s.out := (rfl)
@[simp] theorem State.slSet_mram (s : State) (f : SlState → SlState) : (s.slSet f).mram = s.mram := (rfl)
@[simp] theorem State.slSet_lmem (s : State) (f : SlState → SlState) : (s.slSet f).lmem = s.lmem := (rfl)
@[simp] theorem State.slSet_lmErr (s : State) (f : SlState → SlState) : (s.slSet f).lmErr = s.lmErr := (rfl)
@[simp] theorem State.slSet_tb (s : State) (f : SlState → SlState) : (s.slSet f).tb = s.tb := (rfl)
@[simp] theorem State.slSet_ev (s : State) (f : SlState → SlState) : (s.slSet f).ev = s.ev := (rfl)
@[simp] theorem State.slSet_sal (s : State) (f : SlState → SlState) : (s.slSet f).sal = s.sal := (rfl)
@[simp] theorem State.slSet_cry (s : State) (f : SlState → SlState) : (s.slSet f).cry = s.cry := (rfl)
@[simp] theorem State.slSet_pan (s : State) (f : SlState → SlState) : (s.slSet f).pan = s.pan := (rfl)
@[simp] theorem State.slSet_bl (s : State) (f : SlState → SlState) : (s.slSet f).bl = s.bl := (rfl)
@[simp] theorem State.slSet_rk (s : State) (f : SlState → SlState) : (s.slSet f).rk = s.rk := (rfl)
@[simp] theorem State.slSet_qe (s : State) (f : SlState → SlState) : (s.slSet f).qe = s.qe := (rfl)
@[simp] theorem State.slSet_tj (s : State) (f : SlState → SlState) : (s.slSet f).tj = s.tj := (rfl)
@[simp] theorem State.slSet_fab (s : State) (f : SlState → SlState) : (s.slSet f).fab = s.fab := (rfl)
@[simp] theorem State.slSet_dup (s : State) (f : SlState → SlState) : (s.slSet f).dup = s.dup := (rfl)
@[simp] theorem State.slSet_pwr (s : State) (f : SlState → SlState) : (s.slSet f).pwr = s.pwr := (rfl)
@[simp] theorem State.slSet_sec (s : State) (f : SlState → SlState) : (s.slSet f).sec = s.sec := (rfl)
@[simp] theorem State.slSet_pn (s : State) (f : SlState → SlState) : (s.slSet f).pn = s.pn := (rfl)
@[simp] theorem State.slSet_cores (s : State) (f : SlState → SlState) : (s.slSet f).cores = s.cores := (rfl)
@[simp] theorem State.slSet_sl (s : State) (f : SlState → SlState) : (s.slSet f).sl = f s.sl := (rfl)

@[simp] theorem State.qeSet_pending (s : State) (f : QeState → QeState) : (s.qeSet f).pending = s.pending := (rfl)
@[simp] theorem State.qeSet_regs (s : State) (f : QeState → QeState) : (s.qeSet f).regs = s.regs := (rfl)
@[simp] theorem State.qeSet_shadow (s : State) (f : QeState → QeState) : (s.qeSet f).shadow = s.shadow := (rfl)
@[simp] theorem State.qeSet_evPay (s : State) (f : QeState → QeState) : (s.qeSet f).evPay = s.evPay := (rfl)
@[simp] theorem State.qeSet_evHeld (s : State) (f : QeState → QeState) : (s.qeSet f).evHeld = s.evHeld := (rfl)
@[simp] theorem State.qeSet_evIn (s : State) (f : QeState → QeState) : (s.qeSet f).evIn = s.evIn := (rfl)
@[simp] theorem State.qeSet_free (s : State) (f : QeState → QeState) : (s.qeSet f).free = s.free := (rfl)
@[simp] theorem State.qeSet_out (s : State) (f : QeState → QeState) : (s.qeSet f).out = s.out := (rfl)
@[simp] theorem State.qeSet_mram (s : State) (f : QeState → QeState) : (s.qeSet f).mram = s.mram := (rfl)
@[simp] theorem State.qeSet_lmem (s : State) (f : QeState → QeState) : (s.qeSet f).lmem = s.lmem := (rfl)
@[simp] theorem State.qeSet_lmErr (s : State) (f : QeState → QeState) : (s.qeSet f).lmErr = s.lmErr := (rfl)
@[simp] theorem State.qeSet_tb (s : State) (f : QeState → QeState) : (s.qeSet f).tb = s.tb := (rfl)
@[simp] theorem State.qeSet_ev (s : State) (f : QeState → QeState) : (s.qeSet f).ev = s.ev := (rfl)
@[simp] theorem State.qeSet_sal (s : State) (f : QeState → QeState) : (s.qeSet f).sal = s.sal := (rfl)
@[simp] theorem State.qeSet_cry (s : State) (f : QeState → QeState) : (s.qeSet f).cry = s.cry := (rfl)
@[simp] theorem State.qeSet_pan (s : State) (f : QeState → QeState) : (s.qeSet f).pan = s.pan := (rfl)
@[simp] theorem State.qeSet_bl (s : State) (f : QeState → QeState) : (s.qeSet f).bl = s.bl := (rfl)
@[simp] theorem State.qeSet_rk (s : State) (f : QeState → QeState) : (s.qeSet f).rk = s.rk := (rfl)
@[simp] theorem State.qeSet_sl (s : State) (f : QeState → QeState) : (s.qeSet f).sl = s.sl := (rfl)
@[simp] theorem State.qeSet_tj (s : State) (f : QeState → QeState) : (s.qeSet f).tj = s.tj := (rfl)
@[simp] theorem State.qeSet_fab (s : State) (f : QeState → QeState) : (s.qeSet f).fab = s.fab := (rfl)
@[simp] theorem State.qeSet_dup (s : State) (f : QeState → QeState) : (s.qeSet f).dup = s.dup := (rfl)
@[simp] theorem State.qeSet_pwr (s : State) (f : QeState → QeState) : (s.qeSet f).pwr = s.pwr := (rfl)
@[simp] theorem State.qeSet_sec (s : State) (f : QeState → QeState) : (s.qeSet f).sec = s.sec := (rfl)
@[simp] theorem State.qeSet_pn (s : State) (f : QeState → QeState) : (s.qeSet f).pn = s.pn := (rfl)
@[simp] theorem State.qeSet_cores (s : State) (f : QeState → QeState) : (s.qeSet f).cores = s.cores := (rfl)
@[simp] theorem State.qeSet_qe (s : State) (f : QeState → QeState) : (s.qeSet f).qe = f s.qe := (rfl)

@[simp] theorem State.tjSet_pending (s : State) (f : TjState → TjState) : (s.tjSet f).pending = s.pending := (rfl)
@[simp] theorem State.tjSet_regs (s : State) (f : TjState → TjState) : (s.tjSet f).regs = s.regs := (rfl)
@[simp] theorem State.tjSet_shadow (s : State) (f : TjState → TjState) : (s.tjSet f).shadow = s.shadow := (rfl)
@[simp] theorem State.tjSet_evPay (s : State) (f : TjState → TjState) : (s.tjSet f).evPay = s.evPay := (rfl)
@[simp] theorem State.tjSet_evHeld (s : State) (f : TjState → TjState) : (s.tjSet f).evHeld = s.evHeld := (rfl)
@[simp] theorem State.tjSet_evIn (s : State) (f : TjState → TjState) : (s.tjSet f).evIn = s.evIn := (rfl)
@[simp] theorem State.tjSet_free (s : State) (f : TjState → TjState) : (s.tjSet f).free = s.free := (rfl)
@[simp] theorem State.tjSet_out (s : State) (f : TjState → TjState) : (s.tjSet f).out = s.out := (rfl)
@[simp] theorem State.tjSet_mram (s : State) (f : TjState → TjState) : (s.tjSet f).mram = s.mram := (rfl)
@[simp] theorem State.tjSet_lmem (s : State) (f : TjState → TjState) : (s.tjSet f).lmem = s.lmem := (rfl)
@[simp] theorem State.tjSet_lmErr (s : State) (f : TjState → TjState) : (s.tjSet f).lmErr = s.lmErr := (rfl)
@[simp] theorem State.tjSet_tb (s : State) (f : TjState → TjState) : (s.tjSet f).tb = s.tb := (rfl)
@[simp] theorem State.tjSet_ev (s : State) (f : TjState → TjState) : (s.tjSet f).ev = s.ev := (rfl)
@[simp] theorem State.tjSet_sal (s : State) (f : TjState → TjState) : (s.tjSet f).sal = s.sal := (rfl)
@[simp] theorem State.tjSet_cry (s : State) (f : TjState → TjState) : (s.tjSet f).cry = s.cry := (rfl)
@[simp] theorem State.tjSet_pan (s : State) (f : TjState → TjState) : (s.tjSet f).pan = s.pan := (rfl)
@[simp] theorem State.tjSet_bl (s : State) (f : TjState → TjState) : (s.tjSet f).bl = s.bl := (rfl)
@[simp] theorem State.tjSet_rk (s : State) (f : TjState → TjState) : (s.tjSet f).rk = s.rk := (rfl)
@[simp] theorem State.tjSet_sl (s : State) (f : TjState → TjState) : (s.tjSet f).sl = s.sl := (rfl)
@[simp] theorem State.tjSet_qe (s : State) (f : TjState → TjState) : (s.tjSet f).qe = s.qe := (rfl)
@[simp] theorem State.tjSet_fab (s : State) (f : TjState → TjState) : (s.tjSet f).fab = s.fab := (rfl)
@[simp] theorem State.tjSet_dup (s : State) (f : TjState → TjState) : (s.tjSet f).dup = s.dup := (rfl)
@[simp] theorem State.tjSet_pwr (s : State) (f : TjState → TjState) : (s.tjSet f).pwr = s.pwr := (rfl)
@[simp] theorem State.tjSet_sec (s : State) (f : TjState → TjState) : (s.tjSet f).sec = s.sec := (rfl)
@[simp] theorem State.tjSet_pn (s : State) (f : TjState → TjState) : (s.tjSet f).pn = s.pn := (rfl)
@[simp] theorem State.tjSet_cores (s : State) (f : TjState → TjState) : (s.tjSet f).cores = s.cores := (rfl)
@[simp] theorem State.tjSet_tj (s : State) (f : TjState → TjState) : (s.tjSet f).tj = f s.tj := (rfl)

@[simp] theorem State.fabSet_pending (s : State) (f : FabState → FabState) : (s.fabSet f).pending = s.pending := (rfl)
@[simp] theorem State.fabSet_regs (s : State) (f : FabState → FabState) : (s.fabSet f).regs = s.regs := (rfl)
@[simp] theorem State.fabSet_shadow (s : State) (f : FabState → FabState) : (s.fabSet f).shadow = s.shadow := (rfl)
@[simp] theorem State.fabSet_evPay (s : State) (f : FabState → FabState) : (s.fabSet f).evPay = s.evPay := (rfl)
@[simp] theorem State.fabSet_evHeld (s : State) (f : FabState → FabState) : (s.fabSet f).evHeld = s.evHeld := (rfl)
@[simp] theorem State.fabSet_evIn (s : State) (f : FabState → FabState) : (s.fabSet f).evIn = s.evIn := (rfl)
@[simp] theorem State.fabSet_free (s : State) (f : FabState → FabState) : (s.fabSet f).free = s.free := (rfl)
@[simp] theorem State.fabSet_out (s : State) (f : FabState → FabState) : (s.fabSet f).out = s.out := (rfl)
@[simp] theorem State.fabSet_mram (s : State) (f : FabState → FabState) : (s.fabSet f).mram = s.mram := (rfl)
@[simp] theorem State.fabSet_lmem (s : State) (f : FabState → FabState) : (s.fabSet f).lmem = s.lmem := (rfl)
@[simp] theorem State.fabSet_lmErr (s : State) (f : FabState → FabState) : (s.fabSet f).lmErr = s.lmErr := (rfl)
@[simp] theorem State.fabSet_tb (s : State) (f : FabState → FabState) : (s.fabSet f).tb = s.tb := (rfl)
@[simp] theorem State.fabSet_ev (s : State) (f : FabState → FabState) : (s.fabSet f).ev = s.ev := (rfl)
@[simp] theorem State.fabSet_sal (s : State) (f : FabState → FabState) : (s.fabSet f).sal = s.sal := (rfl)
@[simp] theorem State.fabSet_cry (s : State) (f : FabState → FabState) : (s.fabSet f).cry = s.cry := (rfl)
@[simp] theorem State.fabSet_pan (s : State) (f : FabState → FabState) : (s.fabSet f).pan = s.pan := (rfl)
@[simp] theorem State.fabSet_bl (s : State) (f : FabState → FabState) : (s.fabSet f).bl = s.bl := (rfl)
@[simp] theorem State.fabSet_rk (s : State) (f : FabState → FabState) : (s.fabSet f).rk = s.rk := (rfl)
@[simp] theorem State.fabSet_sl (s : State) (f : FabState → FabState) : (s.fabSet f).sl = s.sl := (rfl)
@[simp] theorem State.fabSet_qe (s : State) (f : FabState → FabState) : (s.fabSet f).qe = s.qe := (rfl)
@[simp] theorem State.fabSet_tj (s : State) (f : FabState → FabState) : (s.fabSet f).tj = s.tj := (rfl)
@[simp] theorem State.fabSet_dup (s : State) (f : FabState → FabState) : (s.fabSet f).dup = s.dup := (rfl)
@[simp] theorem State.fabSet_pwr (s : State) (f : FabState → FabState) : (s.fabSet f).pwr = s.pwr := (rfl)
@[simp] theorem State.fabSet_sec (s : State) (f : FabState → FabState) : (s.fabSet f).sec = s.sec := (rfl)
@[simp] theorem State.fabSet_pn (s : State) (f : FabState → FabState) : (s.fabSet f).pn = s.pn := (rfl)
@[simp] theorem State.fabSet_cores (s : State) (f : FabState → FabState) : (s.fabSet f).cores = s.cores := (rfl)
@[simp] theorem State.fabSet_fab (s : State) (f : FabState → FabState) : (s.fabSet f).fab = f s.fab := (rfl)

@[simp] theorem State.dupSet_pending (s : State) (f : DupState → DupState) : (s.dupSet f).pending = s.pending := (rfl)
@[simp] theorem State.dupSet_regs (s : State) (f : DupState → DupState) : (s.dupSet f).regs = s.regs := (rfl)
@[simp] theorem State.dupSet_shadow (s : State) (f : DupState → DupState) : (s.dupSet f).shadow = s.shadow := (rfl)
@[simp] theorem State.dupSet_evPay (s : State) (f : DupState → DupState) : (s.dupSet f).evPay = s.evPay := (rfl)
@[simp] theorem State.dupSet_evHeld (s : State) (f : DupState → DupState) : (s.dupSet f).evHeld = s.evHeld := (rfl)
@[simp] theorem State.dupSet_evIn (s : State) (f : DupState → DupState) : (s.dupSet f).evIn = s.evIn := (rfl)
@[simp] theorem State.dupSet_free (s : State) (f : DupState → DupState) : (s.dupSet f).free = s.free := (rfl)
@[simp] theorem State.dupSet_out (s : State) (f : DupState → DupState) : (s.dupSet f).out = s.out := (rfl)
@[simp] theorem State.dupSet_mram (s : State) (f : DupState → DupState) : (s.dupSet f).mram = s.mram := (rfl)
@[simp] theorem State.dupSet_lmem (s : State) (f : DupState → DupState) : (s.dupSet f).lmem = s.lmem := (rfl)
@[simp] theorem State.dupSet_lmErr (s : State) (f : DupState → DupState) : (s.dupSet f).lmErr = s.lmErr := (rfl)
@[simp] theorem State.dupSet_tb (s : State) (f : DupState → DupState) : (s.dupSet f).tb = s.tb := (rfl)
@[simp] theorem State.dupSet_ev (s : State) (f : DupState → DupState) : (s.dupSet f).ev = s.ev := (rfl)
@[simp] theorem State.dupSet_sal (s : State) (f : DupState → DupState) : (s.dupSet f).sal = s.sal := (rfl)
@[simp] theorem State.dupSet_cry (s : State) (f : DupState → DupState) : (s.dupSet f).cry = s.cry := (rfl)
@[simp] theorem State.dupSet_pan (s : State) (f : DupState → DupState) : (s.dupSet f).pan = s.pan := (rfl)
@[simp] theorem State.dupSet_bl (s : State) (f : DupState → DupState) : (s.dupSet f).bl = s.bl := (rfl)
@[simp] theorem State.dupSet_rk (s : State) (f : DupState → DupState) : (s.dupSet f).rk = s.rk := (rfl)
@[simp] theorem State.dupSet_sl (s : State) (f : DupState → DupState) : (s.dupSet f).sl = s.sl := (rfl)
@[simp] theorem State.dupSet_qe (s : State) (f : DupState → DupState) : (s.dupSet f).qe = s.qe := (rfl)
@[simp] theorem State.dupSet_tj (s : State) (f : DupState → DupState) : (s.dupSet f).tj = s.tj := (rfl)
@[simp] theorem State.dupSet_fab (s : State) (f : DupState → DupState) : (s.dupSet f).fab = s.fab := (rfl)
@[simp] theorem State.dupSet_pwr (s : State) (f : DupState → DupState) : (s.dupSet f).pwr = s.pwr := (rfl)
@[simp] theorem State.dupSet_sec (s : State) (f : DupState → DupState) : (s.dupSet f).sec = s.sec := (rfl)
@[simp] theorem State.dupSet_pn (s : State) (f : DupState → DupState) : (s.dupSet f).pn = s.pn := (rfl)
@[simp] theorem State.dupSet_cores (s : State) (f : DupState → DupState) : (s.dupSet f).cores = s.cores := (rfl)
@[simp] theorem State.dupSet_dup (s : State) (f : DupState → DupState) : (s.dupSet f).dup = f s.dup := (rfl)

@[simp] theorem State.pwrSet_pending (s : State) (f : PwrState → PwrState) : (s.pwrSet f).pending = s.pending := (rfl)
@[simp] theorem State.pwrSet_regs (s : State) (f : PwrState → PwrState) : (s.pwrSet f).regs = s.regs := (rfl)
@[simp] theorem State.pwrSet_shadow (s : State) (f : PwrState → PwrState) : (s.pwrSet f).shadow = s.shadow := (rfl)
@[simp] theorem State.pwrSet_evPay (s : State) (f : PwrState → PwrState) : (s.pwrSet f).evPay = s.evPay := (rfl)
@[simp] theorem State.pwrSet_evHeld (s : State) (f : PwrState → PwrState) : (s.pwrSet f).evHeld = s.evHeld := (rfl)
@[simp] theorem State.pwrSet_evIn (s : State) (f : PwrState → PwrState) : (s.pwrSet f).evIn = s.evIn := (rfl)
@[simp] theorem State.pwrSet_free (s : State) (f : PwrState → PwrState) : (s.pwrSet f).free = s.free := (rfl)
@[simp] theorem State.pwrSet_out (s : State) (f : PwrState → PwrState) : (s.pwrSet f).out = s.out := (rfl)
@[simp] theorem State.pwrSet_mram (s : State) (f : PwrState → PwrState) : (s.pwrSet f).mram = s.mram := (rfl)
@[simp] theorem State.pwrSet_lmem (s : State) (f : PwrState → PwrState) : (s.pwrSet f).lmem = s.lmem := (rfl)
@[simp] theorem State.pwrSet_lmErr (s : State) (f : PwrState → PwrState) : (s.pwrSet f).lmErr = s.lmErr := (rfl)
@[simp] theorem State.pwrSet_tb (s : State) (f : PwrState → PwrState) : (s.pwrSet f).tb = s.tb := (rfl)
@[simp] theorem State.pwrSet_ev (s : State) (f : PwrState → PwrState) : (s.pwrSet f).ev = s.ev := (rfl)
@[simp] theorem State.pwrSet_sal (s : State) (f : PwrState → PwrState) : (s.pwrSet f).sal = s.sal := (rfl)
@[simp] theorem State.pwrSet_cry (s : State) (f : PwrState → PwrState) : (s.pwrSet f).cry = s.cry := (rfl)
@[simp] theorem State.pwrSet_pan (s : State) (f : PwrState → PwrState) : (s.pwrSet f).pan = s.pan := (rfl)
@[simp] theorem State.pwrSet_bl (s : State) (f : PwrState → PwrState) : (s.pwrSet f).bl = s.bl := (rfl)
@[simp] theorem State.pwrSet_rk (s : State) (f : PwrState → PwrState) : (s.pwrSet f).rk = s.rk := (rfl)
@[simp] theorem State.pwrSet_sl (s : State) (f : PwrState → PwrState) : (s.pwrSet f).sl = s.sl := (rfl)
@[simp] theorem State.pwrSet_qe (s : State) (f : PwrState → PwrState) : (s.pwrSet f).qe = s.qe := (rfl)
@[simp] theorem State.pwrSet_tj (s : State) (f : PwrState → PwrState) : (s.pwrSet f).tj = s.tj := (rfl)
@[simp] theorem State.pwrSet_fab (s : State) (f : PwrState → PwrState) : (s.pwrSet f).fab = s.fab := (rfl)
@[simp] theorem State.pwrSet_dup (s : State) (f : PwrState → PwrState) : (s.pwrSet f).dup = s.dup := (rfl)
@[simp] theorem State.pwrSet_sec (s : State) (f : PwrState → PwrState) : (s.pwrSet f).sec = s.sec := (rfl)
@[simp] theorem State.pwrSet_pn (s : State) (f : PwrState → PwrState) : (s.pwrSet f).pn = s.pn := (rfl)
@[simp] theorem State.pwrSet_cores (s : State) (f : PwrState → PwrState) : (s.pwrSet f).cores = s.cores := (rfl)
@[simp] theorem State.pwrSet_pwr (s : State) (f : PwrState → PwrState) : (s.pwrSet f).pwr = f s.pwr := (rfl)

@[simp] theorem State.secSet_pending (s : State) (f : SecState → SecState) : (s.secSet f).pending = s.pending := (rfl)
@[simp] theorem State.secSet_regs (s : State) (f : SecState → SecState) : (s.secSet f).regs = s.regs := (rfl)
@[simp] theorem State.secSet_shadow (s : State) (f : SecState → SecState) : (s.secSet f).shadow = s.shadow := (rfl)
@[simp] theorem State.secSet_evPay (s : State) (f : SecState → SecState) : (s.secSet f).evPay = s.evPay := (rfl)
@[simp] theorem State.secSet_evHeld (s : State) (f : SecState → SecState) : (s.secSet f).evHeld = s.evHeld := (rfl)
@[simp] theorem State.secSet_evIn (s : State) (f : SecState → SecState) : (s.secSet f).evIn = s.evIn := (rfl)
@[simp] theorem State.secSet_free (s : State) (f : SecState → SecState) : (s.secSet f).free = s.free := (rfl)
@[simp] theorem State.secSet_out (s : State) (f : SecState → SecState) : (s.secSet f).out = s.out := (rfl)
@[simp] theorem State.secSet_mram (s : State) (f : SecState → SecState) : (s.secSet f).mram = s.mram := (rfl)
@[simp] theorem State.secSet_lmem (s : State) (f : SecState → SecState) : (s.secSet f).lmem = s.lmem := (rfl)
@[simp] theorem State.secSet_lmErr (s : State) (f : SecState → SecState) : (s.secSet f).lmErr = s.lmErr := (rfl)
@[simp] theorem State.secSet_tb (s : State) (f : SecState → SecState) : (s.secSet f).tb = s.tb := (rfl)
@[simp] theorem State.secSet_ev (s : State) (f : SecState → SecState) : (s.secSet f).ev = s.ev := (rfl)
@[simp] theorem State.secSet_sal (s : State) (f : SecState → SecState) : (s.secSet f).sal = s.sal := (rfl)
@[simp] theorem State.secSet_cry (s : State) (f : SecState → SecState) : (s.secSet f).cry = s.cry := (rfl)
@[simp] theorem State.secSet_pan (s : State) (f : SecState → SecState) : (s.secSet f).pan = s.pan := (rfl)
@[simp] theorem State.secSet_bl (s : State) (f : SecState → SecState) : (s.secSet f).bl = s.bl := (rfl)
@[simp] theorem State.secSet_rk (s : State) (f : SecState → SecState) : (s.secSet f).rk = s.rk := (rfl)
@[simp] theorem State.secSet_sl (s : State) (f : SecState → SecState) : (s.secSet f).sl = s.sl := (rfl)
@[simp] theorem State.secSet_qe (s : State) (f : SecState → SecState) : (s.secSet f).qe = s.qe := (rfl)
@[simp] theorem State.secSet_tj (s : State) (f : SecState → SecState) : (s.secSet f).tj = s.tj := (rfl)
@[simp] theorem State.secSet_fab (s : State) (f : SecState → SecState) : (s.secSet f).fab = s.fab := (rfl)
@[simp] theorem State.secSet_dup (s : State) (f : SecState → SecState) : (s.secSet f).dup = s.dup := (rfl)
@[simp] theorem State.secSet_pwr (s : State) (f : SecState → SecState) : (s.secSet f).pwr = s.pwr := (rfl)
@[simp] theorem State.secSet_pn (s : State) (f : SecState → SecState) : (s.secSet f).pn = s.pn := (rfl)
@[simp] theorem State.secSet_cores (s : State) (f : SecState → SecState) : (s.secSet f).cores = s.cores := (rfl)
@[simp] theorem State.secSet_sec (s : State) (f : SecState → SecState) : (s.secSet f).sec = f s.sec := (rfl)

@[simp] theorem State.pnSet_pending (s : State) (f : PanelState → PanelState) : (s.pnSet f).pending = s.pending := (rfl)
@[simp] theorem State.pnSet_regs (s : State) (f : PanelState → PanelState) : (s.pnSet f).regs = s.regs := (rfl)
@[simp] theorem State.pnSet_shadow (s : State) (f : PanelState → PanelState) : (s.pnSet f).shadow = s.shadow := (rfl)
@[simp] theorem State.pnSet_evPay (s : State) (f : PanelState → PanelState) : (s.pnSet f).evPay = s.evPay := (rfl)
@[simp] theorem State.pnSet_evHeld (s : State) (f : PanelState → PanelState) : (s.pnSet f).evHeld = s.evHeld := (rfl)
@[simp] theorem State.pnSet_evIn (s : State) (f : PanelState → PanelState) : (s.pnSet f).evIn = s.evIn := (rfl)
@[simp] theorem State.pnSet_free (s : State) (f : PanelState → PanelState) : (s.pnSet f).free = s.free := (rfl)
@[simp] theorem State.pnSet_out (s : State) (f : PanelState → PanelState) : (s.pnSet f).out = s.out := (rfl)
@[simp] theorem State.pnSet_mram (s : State) (f : PanelState → PanelState) : (s.pnSet f).mram = s.mram := (rfl)
@[simp] theorem State.pnSet_lmem (s : State) (f : PanelState → PanelState) : (s.pnSet f).lmem = s.lmem := (rfl)
@[simp] theorem State.pnSet_lmErr (s : State) (f : PanelState → PanelState) : (s.pnSet f).lmErr = s.lmErr := (rfl)
@[simp] theorem State.pnSet_tb (s : State) (f : PanelState → PanelState) : (s.pnSet f).tb = s.tb := (rfl)
@[simp] theorem State.pnSet_ev (s : State) (f : PanelState → PanelState) : (s.pnSet f).ev = s.ev := (rfl)
@[simp] theorem State.pnSet_sal (s : State) (f : PanelState → PanelState) : (s.pnSet f).sal = s.sal := (rfl)
@[simp] theorem State.pnSet_cry (s : State) (f : PanelState → PanelState) : (s.pnSet f).cry = s.cry := (rfl)
@[simp] theorem State.pnSet_pan (s : State) (f : PanelState → PanelState) : (s.pnSet f).pan = s.pan := (rfl)
@[simp] theorem State.pnSet_bl (s : State) (f : PanelState → PanelState) : (s.pnSet f).bl = s.bl := (rfl)
@[simp] theorem State.pnSet_rk (s : State) (f : PanelState → PanelState) : (s.pnSet f).rk = s.rk := (rfl)
@[simp] theorem State.pnSet_sl (s : State) (f : PanelState → PanelState) : (s.pnSet f).sl = s.sl := (rfl)
@[simp] theorem State.pnSet_qe (s : State) (f : PanelState → PanelState) : (s.pnSet f).qe = s.qe := (rfl)
@[simp] theorem State.pnSet_tj (s : State) (f : PanelState → PanelState) : (s.pnSet f).tj = s.tj := (rfl)
@[simp] theorem State.pnSet_fab (s : State) (f : PanelState → PanelState) : (s.pnSet f).fab = s.fab := (rfl)
@[simp] theorem State.pnSet_dup (s : State) (f : PanelState → PanelState) : (s.pnSet f).dup = s.dup := (rfl)
@[simp] theorem State.pnSet_pwr (s : State) (f : PanelState → PanelState) : (s.pnSet f).pwr = s.pwr := (rfl)
@[simp] theorem State.pnSet_sec (s : State) (f : PanelState → PanelState) : (s.pnSet f).sec = s.sec := (rfl)
@[simp] theorem State.pnSet_cores (s : State) (f : PanelState → PanelState) : (s.pnSet f).cores = s.cores := (rfl)
@[simp] theorem State.pnSet_pn (s : State) (f : PanelState → PanelState) : (s.pnSet f).pn = f s.pn := (rfl)

@[simp] theorem State.setLane_pending (s : State) (n l : Nat) (x : Lane) : (s.setLane n l x).pending = s.pending := (rfl)
@[simp] theorem State.setLane_regs (s : State) (n l : Nat) (x : Lane) : (s.setLane n l x).regs = s.regs := (rfl)
@[simp] theorem State.setLane_shadow (s : State) (n l : Nat) (x : Lane) : (s.setLane n l x).shadow = s.shadow := (rfl)
@[simp] theorem State.setLane_evPay (s : State) (n l : Nat) (x : Lane) : (s.setLane n l x).evPay = s.evPay := (rfl)
@[simp] theorem State.setLane_evHeld (s : State) (n l : Nat) (x : Lane) : (s.setLane n l x).evHeld = s.evHeld := (rfl)
@[simp] theorem State.setLane_evIn (s : State) (n l : Nat) (x : Lane) : (s.setLane n l x).evIn = s.evIn := (rfl)
@[simp] theorem State.setLane_free (s : State) (n l : Nat) (x : Lane) : (s.setLane n l x).free = s.free := (rfl)
@[simp] theorem State.setLane_out (s : State) (n l : Nat) (x : Lane) : (s.setLane n l x).out = s.out := (rfl)
@[simp] theorem State.setLane_mram (s : State) (n l : Nat) (x : Lane) : (s.setLane n l x).mram = s.mram := (rfl)
@[simp] theorem State.setLane_lmem (s : State) (n l : Nat) (x : Lane) : (s.setLane n l x).lmem = s.lmem := (rfl)
@[simp] theorem State.setLane_lmErr (s : State) (n l : Nat) (x : Lane) : (s.setLane n l x).lmErr = s.lmErr := (rfl)
@[simp] theorem State.setLane_tb (s : State) (n l : Nat) (x : Lane) : (s.setLane n l x).tb = s.tb := (rfl)
@[simp] theorem State.setLane_ev (s : State) (n l : Nat) (x : Lane) : (s.setLane n l x).ev = s.ev := (rfl)
@[simp] theorem State.setLane_sal (s : State) (n l : Nat) (x : Lane) : (s.setLane n l x).sal = s.sal := (rfl)
@[simp] theorem State.setLane_cry (s : State) (n l : Nat) (x : Lane) : (s.setLane n l x).cry = s.cry := (rfl)
@[simp] theorem State.setLane_pan (s : State) (n l : Nat) (x : Lane) : (s.setLane n l x).pan = s.pan := (rfl)
@[simp] theorem State.setLane_rk (s : State) (n l : Nat) (x : Lane) : (s.setLane n l x).rk = s.rk := (rfl)
@[simp] theorem State.setLane_sl (s : State) (n l : Nat) (x : Lane) : (s.setLane n l x).sl = s.sl := (rfl)
@[simp] theorem State.setLane_qe (s : State) (n l : Nat) (x : Lane) : (s.setLane n l x).qe = s.qe := (rfl)
@[simp] theorem State.setLane_tj (s : State) (n l : Nat) (x : Lane) : (s.setLane n l x).tj = s.tj := (rfl)
@[simp] theorem State.setLane_fab (s : State) (n l : Nat) (x : Lane) : (s.setLane n l x).fab = s.fab := (rfl)
@[simp] theorem State.setLane_dup (s : State) (n l : Nat) (x : Lane) : (s.setLane n l x).dup = s.dup := (rfl)
@[simp] theorem State.setLane_pwr (s : State) (n l : Nat) (x : Lane) : (s.setLane n l x).pwr = s.pwr := (rfl)
@[simp] theorem State.setLane_sec (s : State) (n l : Nat) (x : Lane) : (s.setLane n l x).sec = s.sec := (rfl)
@[simp] theorem State.setLane_pn (s : State) (n l : Nat) (x : Lane) : (s.setLane n l x).pn = s.pn := (rfl)
@[simp] theorem State.setLane_cores (s : State) (n l : Nat) (x : Lane) : (s.setLane n l x).cores = s.cores := (rfl)

@[simp] theorem State.setPort_pending (s : State) (n : Nat) (x : BPort) : (s.setPort n x).pending = s.pending := (rfl)
@[simp] theorem State.setPort_regs (s : State) (n : Nat) (x : BPort) : (s.setPort n x).regs = s.regs := (rfl)
@[simp] theorem State.setPort_shadow (s : State) (n : Nat) (x : BPort) : (s.setPort n x).shadow = s.shadow := (rfl)
@[simp] theorem State.setPort_evPay (s : State) (n : Nat) (x : BPort) : (s.setPort n x).evPay = s.evPay := (rfl)
@[simp] theorem State.setPort_evHeld (s : State) (n : Nat) (x : BPort) : (s.setPort n x).evHeld = s.evHeld := (rfl)
@[simp] theorem State.setPort_evIn (s : State) (n : Nat) (x : BPort) : (s.setPort n x).evIn = s.evIn := (rfl)
@[simp] theorem State.setPort_free (s : State) (n : Nat) (x : BPort) : (s.setPort n x).free = s.free := (rfl)
@[simp] theorem State.setPort_out (s : State) (n : Nat) (x : BPort) : (s.setPort n x).out = s.out := (rfl)
@[simp] theorem State.setPort_mram (s : State) (n : Nat) (x : BPort) : (s.setPort n x).mram = s.mram := (rfl)
@[simp] theorem State.setPort_lmem (s : State) (n : Nat) (x : BPort) : (s.setPort n x).lmem = s.lmem := (rfl)
@[simp] theorem State.setPort_lmErr (s : State) (n : Nat) (x : BPort) : (s.setPort n x).lmErr = s.lmErr := (rfl)
@[simp] theorem State.setPort_tb (s : State) (n : Nat) (x : BPort) : (s.setPort n x).tb = s.tb := (rfl)
@[simp] theorem State.setPort_ev (s : State) (n : Nat) (x : BPort) : (s.setPort n x).ev = s.ev := (rfl)
@[simp] theorem State.setPort_sal (s : State) (n : Nat) (x : BPort) : (s.setPort n x).sal = s.sal := (rfl)
@[simp] theorem State.setPort_cry (s : State) (n : Nat) (x : BPort) : (s.setPort n x).cry = s.cry := (rfl)
@[simp] theorem State.setPort_pan (s : State) (n : Nat) (x : BPort) : (s.setPort n x).pan = s.pan := (rfl)
@[simp] theorem State.setPort_rk (s : State) (n : Nat) (x : BPort) : (s.setPort n x).rk = s.rk := (rfl)
@[simp] theorem State.setPort_sl (s : State) (n : Nat) (x : BPort) : (s.setPort n x).sl = s.sl := (rfl)
@[simp] theorem State.setPort_qe (s : State) (n : Nat) (x : BPort) : (s.setPort n x).qe = s.qe := (rfl)
@[simp] theorem State.setPort_tj (s : State) (n : Nat) (x : BPort) : (s.setPort n x).tj = s.tj := (rfl)
@[simp] theorem State.setPort_fab (s : State) (n : Nat) (x : BPort) : (s.setPort n x).fab = s.fab := (rfl)
@[simp] theorem State.setPort_dup (s : State) (n : Nat) (x : BPort) : (s.setPort n x).dup = s.dup := (rfl)
@[simp] theorem State.setPort_pwr (s : State) (n : Nat) (x : BPort) : (s.setPort n x).pwr = s.pwr := (rfl)
@[simp] theorem State.setPort_sec (s : State) (n : Nat) (x : BPort) : (s.setPort n x).sec = s.sec := (rfl)
@[simp] theorem State.setPort_pn (s : State) (n : Nat) (x : BPort) : (s.setPort n x).pn = s.pn := (rfl)
@[simp] theorem State.setPort_cores (s : State) (n : Nat) (x : BPort) : (s.setPort n x).cores = s.cores := (rfl)

@[simp] theorem State.setQueue_pending (s : State) (q : Nat) (x : Queue) : (s.setQueue q x).pending = s.pending := (rfl)
@[simp] theorem State.setQueue_regs (s : State) (q : Nat) (x : Queue) : (s.setQueue q x).regs = s.regs := (rfl)
@[simp] theorem State.setQueue_shadow (s : State) (q : Nat) (x : Queue) : (s.setQueue q x).shadow = s.shadow := (rfl)
@[simp] theorem State.setQueue_evPay (s : State) (q : Nat) (x : Queue) : (s.setQueue q x).evPay = s.evPay := (rfl)
@[simp] theorem State.setQueue_evHeld (s : State) (q : Nat) (x : Queue) : (s.setQueue q x).evHeld = s.evHeld := (rfl)
@[simp] theorem State.setQueue_evIn (s : State) (q : Nat) (x : Queue) : (s.setQueue q x).evIn = s.evIn := (rfl)
@[simp] theorem State.setQueue_free (s : State) (q : Nat) (x : Queue) : (s.setQueue q x).free = s.free := (rfl)
@[simp] theorem State.setQueue_out (s : State) (q : Nat) (x : Queue) : (s.setQueue q x).out = s.out := (rfl)
@[simp] theorem State.setQueue_mram (s : State) (q : Nat) (x : Queue) : (s.setQueue q x).mram = s.mram := (rfl)
@[simp] theorem State.setQueue_lmem (s : State) (q : Nat) (x : Queue) : (s.setQueue q x).lmem = s.lmem := (rfl)
@[simp] theorem State.setQueue_lmErr (s : State) (q : Nat) (x : Queue) : (s.setQueue q x).lmErr = s.lmErr := (rfl)
@[simp] theorem State.setQueue_tb (s : State) (q : Nat) (x : Queue) : (s.setQueue q x).tb = s.tb := (rfl)
@[simp] theorem State.setQueue_ev (s : State) (q : Nat) (x : Queue) : (s.setQueue q x).ev = s.ev := (rfl)
@[simp] theorem State.setQueue_sal (s : State) (q : Nat) (x : Queue) : (s.setQueue q x).sal = s.sal := (rfl)
@[simp] theorem State.setQueue_cry (s : State) (q : Nat) (x : Queue) : (s.setQueue q x).cry = s.cry := (rfl)
@[simp] theorem State.setQueue_pan (s : State) (q : Nat) (x : Queue) : (s.setQueue q x).pan = s.pan := (rfl)
@[simp] theorem State.setQueue_bl (s : State) (q : Nat) (x : Queue) : (s.setQueue q x).bl = s.bl := (rfl)
@[simp] theorem State.setQueue_rk (s : State) (q : Nat) (x : Queue) : (s.setQueue q x).rk = s.rk := (rfl)
@[simp] theorem State.setQueue_sl (s : State) (q : Nat) (x : Queue) : (s.setQueue q x).sl = s.sl := (rfl)
@[simp] theorem State.setQueue_tj (s : State) (q : Nat) (x : Queue) : (s.setQueue q x).tj = s.tj := (rfl)
@[simp] theorem State.setQueue_fab (s : State) (q : Nat) (x : Queue) : (s.setQueue q x).fab = s.fab := (rfl)
@[simp] theorem State.setQueue_dup (s : State) (q : Nat) (x : Queue) : (s.setQueue q x).dup = s.dup := (rfl)
@[simp] theorem State.setQueue_pwr (s : State) (q : Nat) (x : Queue) : (s.setQueue q x).pwr = s.pwr := (rfl)
@[simp] theorem State.setQueue_sec (s : State) (q : Nat) (x : Queue) : (s.setQueue q x).sec = s.sec := (rfl)
@[simp] theorem State.setQueue_pn (s : State) (q : Nat) (x : Queue) : (s.setQueue q x).pn = s.pn := (rfl)
@[simp] theorem State.setQueue_cores (s : State) (q : Nat) (x : Queue) : (s.setQueue q x).cores = s.cores := (rfl)

@[simp] theorem State.setPan_pending (s : State) (p : Nat) (x : Pan) : (s.setPan p x).pending = s.pending := (rfl)
@[simp] theorem State.setPan_regs (s : State) (p : Nat) (x : Pan) : (s.setPan p x).regs = s.regs := (rfl)
@[simp] theorem State.setPan_shadow (s : State) (p : Nat) (x : Pan) : (s.setPan p x).shadow = s.shadow := (rfl)
@[simp] theorem State.setPan_evPay (s : State) (p : Nat) (x : Pan) : (s.setPan p x).evPay = s.evPay := (rfl)
@[simp] theorem State.setPan_evHeld (s : State) (p : Nat) (x : Pan) : (s.setPan p x).evHeld = s.evHeld := (rfl)
@[simp] theorem State.setPan_evIn (s : State) (p : Nat) (x : Pan) : (s.setPan p x).evIn = s.evIn := (rfl)
@[simp] theorem State.setPan_free (s : State) (p : Nat) (x : Pan) : (s.setPan p x).free = s.free := (rfl)
@[simp] theorem State.setPan_out (s : State) (p : Nat) (x : Pan) : (s.setPan p x).out = s.out := (rfl)
@[simp] theorem State.setPan_mram (s : State) (p : Nat) (x : Pan) : (s.setPan p x).mram = s.mram := (rfl)
@[simp] theorem State.setPan_lmem (s : State) (p : Nat) (x : Pan) : (s.setPan p x).lmem = s.lmem := (rfl)
@[simp] theorem State.setPan_lmErr (s : State) (p : Nat) (x : Pan) : (s.setPan p x).lmErr = s.lmErr := (rfl)
@[simp] theorem State.setPan_tb (s : State) (p : Nat) (x : Pan) : (s.setPan p x).tb = s.tb := (rfl)
@[simp] theorem State.setPan_ev (s : State) (p : Nat) (x : Pan) : (s.setPan p x).ev = s.ev := (rfl)
@[simp] theorem State.setPan_sal (s : State) (p : Nat) (x : Pan) : (s.setPan p x).sal = s.sal := (rfl)
@[simp] theorem State.setPan_cry (s : State) (p : Nat) (x : Pan) : (s.setPan p x).cry = s.cry := (rfl)
@[simp] theorem State.setPan_bl (s : State) (p : Nat) (x : Pan) : (s.setPan p x).bl = s.bl := (rfl)
@[simp] theorem State.setPan_rk (s : State) (p : Nat) (x : Pan) : (s.setPan p x).rk = s.rk := (rfl)
@[simp] theorem State.setPan_sl (s : State) (p : Nat) (x : Pan) : (s.setPan p x).sl = s.sl := (rfl)
@[simp] theorem State.setPan_qe (s : State) (p : Nat) (x : Pan) : (s.setPan p x).qe = s.qe := (rfl)
@[simp] theorem State.setPan_tj (s : State) (p : Nat) (x : Pan) : (s.setPan p x).tj = s.tj := (rfl)
@[simp] theorem State.setPan_fab (s : State) (p : Nat) (x : Pan) : (s.setPan p x).fab = s.fab := (rfl)
@[simp] theorem State.setPan_dup (s : State) (p : Nat) (x : Pan) : (s.setPan p x).dup = s.dup := (rfl)
@[simp] theorem State.setPan_pwr (s : State) (p : Nat) (x : Pan) : (s.setPan p x).pwr = s.pwr := (rfl)
@[simp] theorem State.setPan_sec (s : State) (p : Nat) (x : Pan) : (s.setPan p x).sec = s.sec := (rfl)
@[simp] theorem State.setPan_pn (s : State) (p : Nat) (x : Pan) : (s.setPan p x).pn = s.pn := (rfl)
@[simp] theorem State.setPan_cores (s : State) (p : Nat) (x : Pan) : (s.setPan p x).cores = s.cores := (rfl)

@[simp] theorem State.setInfo_pending (s : State) (i : Nat) (x : JInfo) : (s.setInfo i x).pending = s.pending := (rfl)
@[simp] theorem State.setInfo_regs (s : State) (i : Nat) (x : JInfo) : (s.setInfo i x).regs = s.regs := (rfl)
@[simp] theorem State.setInfo_shadow (s : State) (i : Nat) (x : JInfo) : (s.setInfo i x).shadow = s.shadow := (rfl)
@[simp] theorem State.setInfo_evPay (s : State) (i : Nat) (x : JInfo) : (s.setInfo i x).evPay = s.evPay := (rfl)
@[simp] theorem State.setInfo_evHeld (s : State) (i : Nat) (x : JInfo) : (s.setInfo i x).evHeld = s.evHeld := (rfl)
@[simp] theorem State.setInfo_evIn (s : State) (i : Nat) (x : JInfo) : (s.setInfo i x).evIn = s.evIn := (rfl)
@[simp] theorem State.setInfo_free (s : State) (i : Nat) (x : JInfo) : (s.setInfo i x).free = s.free := (rfl)
@[simp] theorem State.setInfo_out (s : State) (i : Nat) (x : JInfo) : (s.setInfo i x).out = s.out := (rfl)
@[simp] theorem State.setInfo_mram (s : State) (i : Nat) (x : JInfo) : (s.setInfo i x).mram = s.mram := (rfl)
@[simp] theorem State.setInfo_lmem (s : State) (i : Nat) (x : JInfo) : (s.setInfo i x).lmem = s.lmem := (rfl)
@[simp] theorem State.setInfo_lmErr (s : State) (i : Nat) (x : JInfo) : (s.setInfo i x).lmErr = s.lmErr := (rfl)
@[simp] theorem State.setInfo_tb (s : State) (i : Nat) (x : JInfo) : (s.setInfo i x).tb = s.tb := (rfl)
@[simp] theorem State.setInfo_ev (s : State) (i : Nat) (x : JInfo) : (s.setInfo i x).ev = s.ev := (rfl)
@[simp] theorem State.setInfo_sal (s : State) (i : Nat) (x : JInfo) : (s.setInfo i x).sal = s.sal := (rfl)
@[simp] theorem State.setInfo_cry (s : State) (i : Nat) (x : JInfo) : (s.setInfo i x).cry = s.cry := (rfl)
@[simp] theorem State.setInfo_pan (s : State) (i : Nat) (x : JInfo) : (s.setInfo i x).pan = s.pan := (rfl)
@[simp] theorem State.setInfo_bl (s : State) (i : Nat) (x : JInfo) : (s.setInfo i x).bl = s.bl := (rfl)
@[simp] theorem State.setInfo_rk (s : State) (i : Nat) (x : JInfo) : (s.setInfo i x).rk = s.rk := (rfl)
@[simp] theorem State.setInfo_sl (s : State) (i : Nat) (x : JInfo) : (s.setInfo i x).sl = s.sl := (rfl)
@[simp] theorem State.setInfo_qe (s : State) (i : Nat) (x : JInfo) : (s.setInfo i x).qe = s.qe := (rfl)
@[simp] theorem State.setInfo_fab (s : State) (i : Nat) (x : JInfo) : (s.setInfo i x).fab = s.fab := (rfl)
@[simp] theorem State.setInfo_dup (s : State) (i : Nat) (x : JInfo) : (s.setInfo i x).dup = s.dup := (rfl)
@[simp] theorem State.setInfo_pwr (s : State) (i : Nat) (x : JInfo) : (s.setInfo i x).pwr = s.pwr := (rfl)
@[simp] theorem State.setInfo_sec (s : State) (i : Nat) (x : JInfo) : (s.setInfo i x).sec = s.sec := (rfl)
@[simp] theorem State.setInfo_pn (s : State) (i : Nat) (x : JInfo) : (s.setInfo i x).pn = s.pn := (rfl)
@[simp] theorem State.setInfo_cores (s : State) (i : Nat) (x : JInfo) : (s.setInfo i x).cores = s.cores := (rfl)

end Sys2Proof.Machine
end

