-- ==== Sys2Proof/Laws/Store.lean ====
section
/-!
SUPPORT. Sys2Proof/Laws/Store.lean: sparse stores: reading what was written, and the canonical form.
-/
namespace Sys2Proof.Machine
open Sys2Proof

@[simp] theorem storeGet_nil {α : Type} (d : α) (k : Nat) : storeGet d [] k = d := rfl

theorem storeGet_storePut_self {α : Type} (d : α) (m : List (Nat × α)) (k : Nat) (v : α) :
    storeGet d (storePut m k v) k = v := by
  induction m with
  | nil => simp [storePut, storeGet]
  | cons e r ih =>
    obtain ⟨a, x⟩ := e
    simp only [storePut]
    split
    · simp [storeGet]
    · split
      · simp [storeGet]
      · rename_i hn
        simp only [storeGet, if_neg hn, ih]

theorem storeGet_filter_self {α : Type} (d : α) (m : List (Nat × α)) (k : Nat) :
    storeGet d (m.filter fun e => e.1 != k) k = d := by
  induction m with
  | nil => rfl
  | cons e r ih =>
    obtain ⟨a, x⟩ := e
    by_cases h : a = k
    · simp [h, ih]
    · simp [List.filter_cons, h, storeGet, Ne.symm h, ih]

/-- Reading a key that was just written gives the value written. -/
@[simp] theorem storeGet_storeSet_self {α : Type} [DecidableEq α] (d : α) (m : List (Nat × α)) (k : Nat) (v : α) :
    storeGet d (storeSet d m k v) k = v := by
  simp only [storeSet]
  split
  · rename_i h; rw [h]; exact storeGet_filter_self d m k
  · exact storeGet_storePut_self d m k v

theorem storeGet_storePut_ne {α : Type} (d : α) (m : List (Nat × α)) {k j : Nat} (v : α) (hj : j ≠ k) :
    storeGet d (storePut m k v) j = storeGet d m j := by
  induction m with
  | nil => simp [storePut, storeGet, hj]
  | cons e r ih =>
    obtain ⟨a, x⟩ := e
    simp only [storePut]
    split
    · simp [storeGet, hj]
    · split
      · rename_i hka; subst hka; simp [storeGet, hj]
      · simp only [storeGet]; split <;> simp [ih]

theorem storeGet_filter_ne {α : Type} (d : α) (m : List (Nat × α)) {k j : Nat} (hj : j ≠ k) :
    storeGet d (m.filter fun e => e.1 != k) j = storeGet d m j := by
  induction m with
  | nil => rfl
  | cons e r ih =>
    obtain ⟨a, x⟩ := e
    by_cases h : a = k
    · subst h; simp [storeGet, hj, ih]
    · simp [List.filter_cons, h, storeGet, ih]

/-- Writing a key leaves every other key alone. -/
theorem storeGet_storeSet_ne {α : Type} [DecidableEq α] (d d' : α) (m : List (Nat × α)) {k j : Nat} (v : α)
    (hj : j ≠ k) : storeGet d (storeSet d' m k v) j = storeGet d m j := by
  simp only [storeSet]
  split
  · exact storeGet_filter_ne d m hj
  · exact storeGet_storePut_ne d m v hj

/-- What a store holds after a write. -/
theorem storeGet_storeSet {α : Type} [DecidableEq α] (d : α) (m : List (Nat × α)) (k j : Nat) (v : α) :
    storeGet d (storeSet d m k v) j = if j = k then v else storeGet d m j := by
  split
  · rename_i h; subst h; exact storeGet_storeSet_self d m j v
  · rename_i h; exact storeGet_storeSet_ne d d m v h

theorem storeAbove_cons {α : Type} (a : Nat) (e : Nat × α) (r : List (Nat × α)) :
    storeAbove a (e :: r) = (decide (a < e.1) && storeAbove a r) := rfl

theorem storeAbove_storePut {α : Type} {m : List (Nat × α)} {a k : Nat} (v : α)
    (h : storeAbove a m = true) (hk : a < k) : storeAbove a (storePut m k v) = true := by
  induction m with
  | nil => simp [storePut, storeAbove, hk]
  | cons e r ih =>
    obtain ⟨b, x⟩ := e
    simp only [storeAbove_cons, Bool.and_eq_true, decide_eq_true_eq] at h
    simp only [storePut]
    split
    · simp [storeAbove_cons, hk, h]
    · split
      · simp [storeAbove_cons, hk, h]
      · simp [storeAbove_cons, h.1, ih h.2]

theorem storeAbove_mono {α : Type} {m : List (Nat × α)} {a b : Nat} (h : storeAbove b m = true) (hab : a ≤ b) :
    storeAbove a m = true := by
  simp only [storeAbove, List.all_eq_true, decide_eq_true_eq] at h ⊢
  intro e he; have := h e he; omega

theorem storeAbove_filter {α : Type} (p : Nat × α → Bool) {m : List (Nat × α)} {a : Nat} (h : storeAbove a m = true) :
    storeAbove a (m.filter p) = true := by
  simp only [storeAbove, List.all_eq_true] at h ⊢
  intro e he
  exact h e (List.mem_filter.1 he).1

theorem storeWf_storePut {α : Type} [DecidableEq α] (d : Nat → α) (m : List (Nat × α)) (k : Nat) (v : α)
    (hv : v ≠ d k) (h : storeWf d m = true) : storeWf d (storePut m k v) = true := by
  induction m with
  | nil => simp [storePut, storeWf, storeAbove, hv]
  | cons e r ih =>
    obtain ⟨a, x⟩ := e
    have h0 := h
    simp only [storeWf, Bool.and_eq_true] at h
    obtain ⟨⟨ha, hx⟩, hr⟩ := h
    simp only [storePut]
    split
    · rename_i hlt
      simp only [storeWf, Bool.and_eq_true]
      refine ⟨⟨?_, by simp [hv]⟩, ⟨ha, hx⟩, hr⟩
      simp [storeAbove_cons, hlt, storeAbove_mono ha (Nat.le_of_lt hlt)]
    · split
      · rename_i hka
        subst hka
        simp only [storeWf, Bool.and_eq_true]
        exact ⟨⟨ha, by simp [hv]⟩, hr⟩
      · simp only [storeWf, Bool.and_eq_true]
        exact ⟨⟨storeAbove_storePut _ ha (by omega), hx⟩, ih hr⟩

/-- Forgetting entries keeps the canonical form. -/
theorem storeWf_filter {α : Type} [DecidableEq α] (d : Nat → α) (p : Nat × α → Bool) {m : List (Nat × α)}
    (h : storeWf d m = true) : storeWf d (m.filter p) = true := by
  induction m with
  | nil => rfl
  | cons e r ih =>
    obtain ⟨a, x⟩ := e
    simp only [storeWf, Bool.and_eq_true] at h
    simp only [List.filter_cons]
    split
    · simp only [storeWf, Bool.and_eq_true]
      exact ⟨⟨storeAbove_filter p h.1.1, h.1.2⟩, ih h.2⟩
    · exact ih h.2

/-- Writing keeps the canonical form. -/
theorem storeWf_storeSet {α : Type} [DecidableEq α] (d : Nat → α) (m : List (Nat × α)) (k : Nat) (v : α)
    (h : storeWf d m = true) : storeWf d (storeSet (d k) m k v) = true := by
  simp only [storeSet]
  split
  · exact storeWf_filter d _ h
  · rename_i hv; exact storeWf_storePut d m k v hv h

theorem storeWf_storeKeep {α : Type} [DecidableEq α] (d : Nat → α) (p : Nat → Bool) {m : List (Nat × α)}
    (h : storeWf d m = true) : storeWf d (storeKeep p m) = true := storeWf_filter d _ h

end Sys2Proof.Machine
end

