-- ==== Sys2Proof/Laws/Regs.lean ====
section
/-!
SUPPORT. Sys2Proof/Laws/Regs.lean: reading registers and fields after they are written, and after any update of other state.
-/
namespace Sys2Proof.Machine
open Sys2Proof

theorem rd_of_regs {s t : State} (h : t.regs = s.regs) (k : Nat) : t.rd k = s.rd k := by simp only [State.rd, h]

/-- What a register reads as after a write. -/
theorem rd_wr (s : State) (k j : Nat) (v : Word) : (s.wr k v).rd j = if j = k then v else s.rd j := by
  simp only [State.rd, State.wr]
  split
  · rename_i h; subst h; exact storeGet_storeSet_self _ _ _ _
  · rename_i h; exact storeGet_storeSet_ne _ _ _ _ h
@[simp] theorem rd_wr_self (s : State) (k : Nat) (v : Word) : (s.wr k v).rd k = v := by rw [rd_wr, if_pos rfl]
theorem rd_wr_ne (s : State) {k j : Nat} (v : Word) (h : j ≠ k) : (s.wr k v).rd j = s.rd j := by rw [rd_wr, if_neg h]

theorem rd_setFld_ne (s : State) (f : Fld) (v : Nat) {j : Nat} (h : j ≠ f.key) : (s.setFld f v).rd j = s.rd j :=
  rd_wr_ne s _ h
theorem rd_setFlag_ne (s : State) (f : Fld) (b : Bool) {j : Nat} (h : j ≠ f.key) : (s.setFlag f b).rd j = s.rd j :=
  rd_wr_ne s _ h
theorem rd_incFld_ne (s : State) (f : Fld) {j : Nat} (h : j ≠ f.key) : (s.incFld f).rd j = s.rd j := rd_wr_ne s _ h
theorem rd_addFld_ne (s : State) (f : Fld) (n : Nat) {j : Nat} (h : j ≠ f.key) : (s.addFld f n).rd j = s.rd j :=
  rd_wr_ne s _ h
theorem rd_wr64_ne (s : State) (k v : Nat) {j : Nat} (h : j ≠ k) (h' : j ≠ k + 1) : (s.wr64 k v).rd j = s.rd j := by
  rw [State.wr64, rd_wr_ne _ _ h', rd_wr_ne _ _ h]

/-- A field reads as it was set. -/
theorem fld_setFld_self (s : State) (f : Fld) (v : Nat) (h : f.lo + f.width ≤ 32) :
    (s.setFld f v).fld f = v % 2 ^ f.width := by
  simp only [State.fld, State.setFld, rd_wr_self]
  exact bitsGet_bitsSet_self _ _ _ _ h

/-- Two fields share no bit. -/
def Fld.apart (f g : Fld) : Prop := f.key ≠ g.key ∨ f.lo + f.width ≤ g.lo ∨ g.lo + g.width ≤ f.lo

/-- A field apart from the one that was set reads as before. -/
theorem fld_setFld_ne (s : State) (f g : Fld) (v : Nat) (h : f.lo + f.width ≤ 32) (hd : g.apart f) :
    (s.setFld f v).fld g = s.fld g := by
  simp only [State.fld, State.setFld]
  by_cases hk : g.key = f.key
  · rw [hk, rd_wr_self]
    have := hd.resolve_left (fun hn => hn hk)
    exact bitsGet_bitsSet_ne _ _ _ _ _ _ h (by omega)
  · rw [rd_wr_ne _ _ hk]

theorem flag_setFlag_self (s : State) (f : Fld) (b : Bool) (h : f.lo + 1 ≤ 32) (hw : f.width = 1) :
    (s.setFlag f b).flag f = b := by
  simp only [State.flag, State.setFlag]
  rw [fld_setFld_self s f _ (by omega), hw]
  cases b <;> rfl

theorem flag_setFlag_ne (s : State) (f g : Fld) (b : Bool) (h : f.lo + f.width ≤ 32) (hd : g.apart f) :
    (s.setFlag f b).flag g = s.flag g := by
  simp only [State.flag, State.setFlag]; rw [fld_setFld_ne s f g _ h hd]
theorem fld_setFlag_ne (s : State) (f g : Fld) (b : Bool) (h : f.lo + f.width ≤ 32) (hd : g.apart f) :
    (s.setFlag f b).fld g = s.fld g := fld_setFld_ne s f g _ h hd
theorem flag_setFld_ne (s : State) (f g : Fld) (v : Nat) (h : f.lo + f.width ≤ 32) (hd : g.apart f) :
    (s.setFld f v).flag g = s.flag g := by simp only [State.flag]; rw [fld_setFld_ne s f g _ h hd]

theorem fld_incFld_self (s : State) (f : Fld) (h : f.lo + f.width ≤ 32) :
    (s.incFld f).fld f = satInc f.width (s.fld f) % 2 ^ f.width := fld_setFld_self s f _ h

/-- A 64-bit register reads as it was written. -/
theorem rd64_wr64_self (s : State) (k v : Nat) : (s.wr64 k v).rd64 k = v % 2 ^ 64 := by
  simp only [State.rd64, State.wr64, rd_wr_self]
  rw [rd_wr_ne _ _ (by omega : k ≠ k + 1), rd_wr_self]
  simp only [BitVec.toNat_ofNat]
  omega
theorem rd64_wr64_ne (s : State) {k j : Nat} (v : Nat) (h : j + 1 < k ∨ k + 1 < j) :
    (s.wr64 k v).rd64 j = s.rd64 j := by
  simp only [State.rd64]
  rw [rd_wr64_ne _ _ _ (by omega) (by omega), rd_wr64_ne _ _ _ (by omega) (by omega)]

theorem fld_of_rd {s t : State} (f : Fld) (h : t.rd f.key = s.rd f.key) : t.fld f = s.fld f := by
  simp only [State.fld, h]
theorem flag_of_rd {s t : State} (f : Fld) (h : t.rd f.key = s.rd f.key) : t.flag f = s.flag f := by
  simp only [State.flag, fld_of_rd f h]
theorem rd64_of_rd {s t : State} (k : Nat) (h : t.rd k = s.rd k) (h' : t.rd (k + 1) = s.rd (k + 1)) :
    t.rd64 k = s.rd64 k := by simp only [State.rd64, h, h']

/-! Updates of other state leave the registers. -/

@[simp] theorem rd_emit (s : State) (o : Out) (k : Nat) : (s.emit o).rd k = s.rd k := (rfl)
@[simp] theorem fld_emit (s : State) (o : Out) (g : Fld) : (s.emit o).fld g = s.fld g := (rfl)
@[simp] theorem flag_emit (s : State) (o : Out) (g : Fld) : (s.emit o).flag g = s.flag g := (rfl)
@[simp] theorem rd64_emit (s : State) (o : Out) (k : Nat) : (s.emit o).rd64 k = s.rd64 k := (rfl)
@[simp] theorem rd_stepFree (s : State) (k : Nat) : (s.stepFree).rd k = s.rd k := (rfl)
@[simp] theorem fld_stepFree (s : State) (g : Fld) : (s.stepFree).fld g = s.fld g := (rfl)
@[simp] theorem flag_stepFree (s : State) (g : Fld) : (s.stepFree).flag g = s.flag g := (rfl)
@[simp] theorem rd64_stepFree (s : State) (k : Nat) : (s.stepFree).rd64 k = s.rd64 k := (rfl)
@[simp] theorem rd_setTx (s : State) (i : Nat) (t : SlTx) (k : Nat) : (s.setTx i t).rd k = s.rd k := (rfl)
@[simp] theorem fld_setTx (s : State) (i : Nat) (t : SlTx) (g : Fld) : (s.setTx i t).fld g = s.fld g := (rfl)
@[simp] theorem flag_setTx (s : State) (i : Nat) (t : SlTx) (g : Fld) : (s.setTx i t).flag g = s.flag g := (rfl)
@[simp] theorem rd64_setTx (s : State) (i : Nat) (t : SlTx) (k : Nat) : (s.setTx i t).rd64 k = s.rd64 k := (rfl)
@[simp] theorem rd_setRx (s : State) (i : Nat) (t : SlRx) (k : Nat) : (s.setRx i t).rd k = s.rd k := (rfl)
@[simp] theorem fld_setRx (s : State) (i : Nat) (t : SlRx) (g : Fld) : (s.setRx i t).fld g = s.fld g := (rfl)
@[simp] theorem flag_setRx (s : State) (i : Nat) (t : SlRx) (g : Fld) : (s.setRx i t).flag g = s.flag g := (rfl)
@[simp] theorem rd64_setRx (s : State) (i : Nat) (t : SlRx) (k : Nat) : (s.setRx i t).rd64 k = s.rd64 k := (rfl)
@[simp] theorem rd_setCore (s : State) (n : Nat) (c : Core) (k : Nat) : (s.setCore n c).rd k = s.rd k := (rfl)
@[simp] theorem fld_setCore (s : State) (n : Nat) (c : Core) (g : Fld) : (s.setCore n c).fld g = s.fld g := (rfl)
@[simp] theorem flag_setCore (s : State) (n : Nat) (c : Core) (g : Fld) : (s.setCore n c).flag g = s.flag g := (rfl)
@[simp] theorem rd64_setCore (s : State) (n : Nat) (c : Core) (k : Nat) : (s.setCore n c).rd64 k = s.rd64 k := (rfl)
@[simp] theorem rd_mapCore (s : State) (n : Nat) (f : Core → Core) (k : Nat) : (s.mapCore n f).rd k = s.rd k := (rfl)
@[simp] theorem fld_mapCore (s : State) (n : Nat) (f : Core → Core) (g : Fld) : (s.mapCore n f).fld g = s.fld g := (rfl)
@[simp] theorem flag_mapCore (s : State) (n : Nat) (f : Core → Core) (g : Fld) : (s.mapCore n f).flag g = s.flag g := (rfl)
@[simp] theorem rd64_mapCore (s : State) (n : Nat) (f : Core → Core) (k : Nat) : (s.mapCore n f).rd64 k = s.rd64 k := (rfl)
@[simp] theorem rd_tbSet (s : State) (f : TbState → TbState) (k : Nat) : (s.tbSet f).rd k = s.rd k := (rfl)
@[simp] theorem fld_tbSet (s : State) (f : TbState → TbState) (g : Fld) : (s.tbSet f).fld g = s.fld g := (rfl)
@[simp] theorem flag_tbSet (s : State) (f : TbState → TbState) (g : Fld) : (s.tbSet f).flag g = s.flag g := (rfl)
@[simp] theorem rd64_tbSet (s : State) (f : TbState → TbState) (k : Nat) : (s.tbSet f).rd64 k = s.rd64 k := (rfl)
@[simp] theorem rd_salSet (s : State) (f : SalState → SalState) (k : Nat) : (s.salSet f).rd k = s.rd k := (rfl)
@[simp] theorem fld_salSet (s : State) (f : SalState → SalState) (g : Fld) : (s.salSet f).fld g = s.fld g := (rfl)
@[simp] theorem flag_salSet (s : State) (f : SalState → SalState) (g : Fld) : (s.salSet f).flag g = s.flag g := (rfl)
@[simp] theorem rd64_salSet (s : State) (f : SalState → SalState) (k : Nat) : (s.salSet f).rd64 k = s.rd64 k := (rfl)
@[simp] theorem rd_crySet (s : State) (f : CryState → CryState) (k : Nat) : (s.crySet f).rd k = s.rd k := (rfl)
@[simp] theorem fld_crySet (s : State) (f : CryState → CryState) (g : Fld) : (s.crySet f).fld g = s.fld g := (rfl)
@[simp] theorem flag_crySet (s : State) (f : CryState → CryState) (g : Fld) : (s.crySet f).flag g = s.flag g := (rfl)
@[simp] theorem rd64_crySet (s : State) (f : CryState → CryState) (k : Nat) : (s.crySet f).rd64 k = s.rd64 k := (rfl)
@[simp] theorem rd_panSet (s : State) (f : PanState → PanState) (k : Nat) : (s.panSet f).rd k = s.rd k := (rfl)
@[simp] theorem fld_panSet (s : State) (f : PanState → PanState) (g : Fld) : (s.panSet f).fld g = s.fld g := (rfl)
@[simp] theorem flag_panSet (s : State) (f : PanState → PanState) (g : Fld) : (s.panSet f).flag g = s.flag g := (rfl)
@[simp] theorem rd64_panSet (s : State) (f : PanState → PanState) (k : Nat) : (s.panSet f).rd64 k = s.rd64 k := (rfl)
@[simp] theorem rd_rkSet (s : State) (f : RakeState → RakeState) (k : Nat) : (s.rkSet f).rd k = s.rd k := (rfl)
@[simp] theorem fld_rkSet (s : State) (f : RakeState → RakeState) (g : Fld) : (s.rkSet f).fld g = s.fld g := (rfl)
@[simp] theorem flag_rkSet (s : State) (f : RakeState → RakeState) (g : Fld) : (s.rkSet f).flag g = s.flag g := (rfl)
@[simp] theorem rd64_rkSet (s : State) (f : RakeState → RakeState) (k : Nat) : (s.rkSet f).rd64 k = s.rd64 k := (rfl)
@[simp] theorem rd_slSet (s : State) (f : SlState → SlState) (k : Nat) : (s.slSet f).rd k = s.rd k := (rfl)
@[simp] theorem fld_slSet (s : State) (f : SlState → SlState) (g : Fld) : (s.slSet f).fld g = s.fld g := (rfl)
@[simp] theorem flag_slSet (s : State) (f : SlState → SlState) (g : Fld) : (s.slSet f).flag g = s.flag g := (rfl)
@[simp] theorem rd64_slSet (s : State) (f : SlState → SlState) (k : Nat) : (s.slSet f).rd64 k = s.rd64 k := (rfl)
@[simp] theorem rd_qeSet (s : State) (f : QeState → QeState) (k : Nat) : (s.qeSet f).rd k = s.rd k := (rfl)
@[simp] theorem fld_qeSet (s : State) (f : QeState → QeState) (g : Fld) : (s.qeSet f).fld g = s.fld g := (rfl)
@[simp] theorem flag_qeSet (s : State) (f : QeState → QeState) (g : Fld) : (s.qeSet f).flag g = s.flag g := (rfl)
@[simp] theorem rd64_qeSet (s : State) (f : QeState → QeState) (k : Nat) : (s.qeSet f).rd64 k = s.rd64 k := (rfl)
@[simp] theorem rd_tjSet (s : State) (f : TjState → TjState) (k : Nat) : (s.tjSet f).rd k = s.rd k := (rfl)
@[simp] theorem fld_tjSet (s : State) (f : TjState → TjState) (g : Fld) : (s.tjSet f).fld g = s.fld g := (rfl)
@[simp] theorem flag_tjSet (s : State) (f : TjState → TjState) (g : Fld) : (s.tjSet f).flag g = s.flag g := (rfl)
@[simp] theorem rd64_tjSet (s : State) (f : TjState → TjState) (k : Nat) : (s.tjSet f).rd64 k = s.rd64 k := (rfl)
@[simp] theorem rd_fabSet (s : State) (f : FabState → FabState) (k : Nat) : (s.fabSet f).rd k = s.rd k := (rfl)
@[simp] theorem fld_fabSet (s : State) (f : FabState → FabState) (g : Fld) : (s.fabSet f).fld g = s.fld g := (rfl)
@[simp] theorem flag_fabSet (s : State) (f : FabState → FabState) (g : Fld) : (s.fabSet f).flag g = s.flag g := (rfl)
@[simp] theorem rd64_fabSet (s : State) (f : FabState → FabState) (k : Nat) : (s.fabSet f).rd64 k = s.rd64 k := (rfl)
@[simp] theorem rd_dupSet (s : State) (f : DupState → DupState) (k : Nat) : (s.dupSet f).rd k = s.rd k := (rfl)
@[simp] theorem fld_dupSet (s : State) (f : DupState → DupState) (g : Fld) : (s.dupSet f).fld g = s.fld g := (rfl)
@[simp] theorem flag_dupSet (s : State) (f : DupState → DupState) (g : Fld) : (s.dupSet f).flag g = s.flag g := (rfl)
@[simp] theorem rd64_dupSet (s : State) (f : DupState → DupState) (k : Nat) : (s.dupSet f).rd64 k = s.rd64 k := (rfl)
@[simp] theorem rd_pwrSet (s : State) (f : PwrState → PwrState) (k : Nat) : (s.pwrSet f).rd k = s.rd k := (rfl)
@[simp] theorem fld_pwrSet (s : State) (f : PwrState → PwrState) (g : Fld) : (s.pwrSet f).fld g = s.fld g := (rfl)
@[simp] theorem flag_pwrSet (s : State) (f : PwrState → PwrState) (g : Fld) : (s.pwrSet f).flag g = s.flag g := (rfl)
@[simp] theorem rd64_pwrSet (s : State) (f : PwrState → PwrState) (k : Nat) : (s.pwrSet f).rd64 k = s.rd64 k := (rfl)
@[simp] theorem rd_secSet (s : State) (f : SecState → SecState) (k : Nat) : (s.secSet f).rd k = s.rd k := (rfl)
@[simp] theorem fld_secSet (s : State) (f : SecState → SecState) (g : Fld) : (s.secSet f).fld g = s.fld g := (rfl)
@[simp] theorem flag_secSet (s : State) (f : SecState → SecState) (g : Fld) : (s.secSet f).flag g = s.flag g := (rfl)
@[simp] theorem rd64_secSet (s : State) (f : SecState → SecState) (k : Nat) : (s.secSet f).rd64 k = s.rd64 k := (rfl)
@[simp] theorem rd_pnSet (s : State) (f : PanelState → PanelState) (k : Nat) : (s.pnSet f).rd k = s.rd k := (rfl)
@[simp] theorem fld_pnSet (s : State) (f : PanelState → PanelState) (g : Fld) : (s.pnSet f).fld g = s.fld g := (rfl)
@[simp] theorem flag_pnSet (s : State) (f : PanelState → PanelState) (g : Fld) : (s.pnSet f).flag g = s.flag g := (rfl)
@[simp] theorem rd64_pnSet (s : State) (f : PanelState → PanelState) (k : Nat) : (s.pnSet f).rd64 k = s.rd64 k := (rfl)
@[simp] theorem rd_setLane (s : State) (n l : Nat) (x : Lane) (k : Nat) : (s.setLane n l x).rd k = s.rd k := (rfl)
@[simp] theorem fld_setLane (s : State) (n l : Nat) (x : Lane) (g : Fld) : (s.setLane n l x).fld g = s.fld g := (rfl)
@[simp] theorem flag_setLane (s : State) (n l : Nat) (x : Lane) (g : Fld) : (s.setLane n l x).flag g = s.flag g := (rfl)
@[simp] theorem rd64_setLane (s : State) (n l : Nat) (x : Lane) (k : Nat) : (s.setLane n l x).rd64 k = s.rd64 k := (rfl)
@[simp] theorem rd_setPort (s : State) (n : Nat) (x : BPort) (k : Nat) : (s.setPort n x).rd k = s.rd k := (rfl)
@[simp] theorem fld_setPort (s : State) (n : Nat) (x : BPort) (g : Fld) : (s.setPort n x).fld g = s.fld g := (rfl)
@[simp] theorem flag_setPort (s : State) (n : Nat) (x : BPort) (g : Fld) : (s.setPort n x).flag g = s.flag g := (rfl)
@[simp] theorem rd64_setPort (s : State) (n : Nat) (x : BPort) (k : Nat) : (s.setPort n x).rd64 k = s.rd64 k := (rfl)
@[simp] theorem rd_setQueue (s : State) (q : Nat) (x : Queue) (k : Nat) : (s.setQueue q x).rd k = s.rd k := (rfl)
@[simp] theorem fld_setQueue (s : State) (q : Nat) (x : Queue) (g : Fld) : (s.setQueue q x).fld g = s.fld g := (rfl)
@[simp] theorem flag_setQueue (s : State) (q : Nat) (x : Queue) (g : Fld) : (s.setQueue q x).flag g = s.flag g := (rfl)
@[simp] theorem rd64_setQueue (s : State) (q : Nat) (x : Queue) (k : Nat) : (s.setQueue q x).rd64 k = s.rd64 k := (rfl)
@[simp] theorem rd_setPan (s : State) (p : Nat) (x : Pan) (k : Nat) : (s.setPan p x).rd k = s.rd k := (rfl)
@[simp] theorem fld_setPan (s : State) (p : Nat) (x : Pan) (g : Fld) : (s.setPan p x).fld g = s.fld g := (rfl)
@[simp] theorem flag_setPan (s : State) (p : Nat) (x : Pan) (g : Fld) : (s.setPan p x).flag g = s.flag g := (rfl)
@[simp] theorem rd64_setPan (s : State) (p : Nat) (x : Pan) (k : Nat) : (s.setPan p x).rd64 k = s.rd64 k := (rfl)
@[simp] theorem rd_setInfo (s : State) (i : Nat) (x : JInfo) (k : Nat) : (s.setInfo i x).rd k = s.rd k := (rfl)
@[simp] theorem fld_setInfo (s : State) (i : Nat) (x : JInfo) (g : Fld) : (s.setInfo i x).fld g = s.fld g := (rfl)
@[simp] theorem flag_setInfo (s : State) (i : Nat) (x : JInfo) (g : Fld) : (s.setInfo i x).flag g = s.flag g := (rfl)
@[simp] theorem rd64_setInfo (s : State) (i : Nat) (x : JInfo) (k : Nat) : (s.setInfo i x).rd64 k = s.rd64 k := (rfl)

end Sys2Proof.Machine
end

