-- ==== Sys2Proof/Laws/Event.lean ====
section
/-!
SUPPORT. Sys2Proof/Laws/Event.lean: what raising an event changes (R38, R409, R432, R464, R568): the pending bit and the
payload of its page, the registers of the event groups and their pulses, and what waits for the event queues; nothing else.
-/
namespace Sys2Proof.Machine
open Sys2Proof

/-- The key of a register of an event group's page. -/
def groupKey (k : Nat) : Prop := 0x40 ≤ k / 1024 ∧ k / 1024 < 0x50

/-- The key is one that raising an event of page `pg` may not touch. -/
def evFree (pg k : Nat) : Prop := k ≠ rEV_PEND pg ∧ ¬ groupKey k ∧ k ≠ rSL_EVDROP

/-- What no event touches. -/
structure EvFrame (s t : State) : Prop where
  rd : ∀ k, ¬ groupKey k → k ≠ rSL_EVDROP → k % 1024 ≠ 4 → t.rd k = s.rd k
  pending : t.pending = s.pending
  shadow : t.shadow = s.shadow
  free : t.free = s.free
  out : t.out = s.out
  mram : t.mram = s.mram
  lmem : t.lmem = s.lmem
  lmErr : t.lmErr = s.lmErr
  tb : t.tb = s.tb
  sal : t.sal = s.sal
  cry : t.cry = s.cry
  pan : t.pan = s.pan
  bl : t.bl = s.bl
  rk : t.rk = s.rk
  qe : t.qe = s.qe
  tj : t.tj = s.tj
  fab : t.fab = s.fab
  dup : t.dup = s.dup
  pwr : t.pwr = s.pwr
  sec : t.sec = s.sec
  pn : t.pn = s.pn
  cores : t.cores = s.cores

theorem EvFrame.refl (s : State) : EvFrame s s := by constructor <;> intros <;> rfl
theorem EvFrame.trans {s t u : State} (h : EvFrame s t) (g : EvFrame t u) : EvFrame s u where
  rd := fun k a b c => (g.rd k a b c).trans (h.rd k a b c)
  pending := g.pending.trans h.pending
  shadow := g.shadow.trans h.shadow
  free := g.free.trans h.free
  out := g.out.trans h.out
  mram := g.mram.trans h.mram
  lmem := g.lmem.trans h.lmem
  lmErr := g.lmErr.trans h.lmErr
  tb := g.tb.trans h.tb
  sal := g.sal.trans h.sal
  cry := g.cry.trans h.cry
  pan := g.pan.trans h.pan
  bl := g.bl.trans h.bl
  rk := g.rk.trans h.rk
  qe := g.qe.trans h.qe
  tj := g.tj.trans h.tj
  fab := g.fab.trans h.fab
  dup := g.dup.trans h.dup
  pwr := g.pwr.trans h.pwr
  sec := g.sec.trans h.sec
  pn := g.pn.trans h.pn
  cores := g.cores.trans h.cores

theorem rEV_PEND_page (pg : Nat) : rEV_PEND pg / 1024 = pg := by simp only [rEV_PEND]; omega
theorem rEV_PEND_mod (pg : Nat) : rEV_PEND pg % 1024 = 4 := by simp only [rEV_PEND]; omega
theorem groupKey_pend {gp : Nat} (h : gp < 16) : groupKey (rEV_PEND (0x40 + gp)) := by
  rw [groupKey, rEV_PEND_page]; omega
theorem groupKey_drop {g : Nat} (h : g < 16) : groupKey (fEGg_DROP g).key := by
  simp only [groupKey, fEGg_DROP, rEGg_DROP]; omega
theorem groupKey_merge {g : Nat} (h : g < 16) : groupKey (fEGg_MERGE g).key := by
  simp only [groupKey, fEGg_MERGE, rEGg_MERGE]; omega
theorem rEV_PEND_ne_drop (pg g : Nat) : rEV_PEND pg ≠ (fEGg_DROP g).key := by
  simp only [rEV_PEND, fEGg_DROP, rEGg_DROP]; omega
theorem rEV_PEND_ne_merge (pg g : Nat) : rEV_PEND pg ≠ (fEGg_MERGE g).key := by
  simp only [rEV_PEND, fEGg_MERGE, rEGg_MERGE]; omega
theorem rEV_PEND_ne_evdrop (pg : Nat) : rEV_PEND pg ≠ rSL_EVDROP := by simp only [rEV_PEND, rSL_EVDROP]; omega
theorem rd_setPend_ne (s : State) {pg : Nat} (b : Nat) (p : EvPay) {k : Nat} (h : k ≠ rEV_PEND pg) :
    (s.setPend pg b p).rd k = s.rd k := rd_wr_ne _ _ h

/-- A register write of a key that events may touch. -/
theorem evFrame_wr (s : State) (k : Nat) (v : Word) (h : groupKey k ∨ k = rSL_EVDROP ∨ k % 1024 = 4) :
    EvFrame s (s.wr k v) where
  rd := fun j a b c => rd_wr_ne s v (by rintro rfl; rcases h with h | h | h; exacts [a h, b h, c h])
  pending := rfl
  shadow := rfl
  free := rfl
  out := rfl
  mram := rfl
  lmem := rfl
  lmErr := rfl
  tb := rfl
  sal := rfl
  cry := rfl
  pan := rfl
  bl := rfl
  rk := rfl
  qe := rfl
  tj := rfl
  fab := rfl
  dup := rfl
  pwr := rfl
  sec := rfl
  pn := rfl
  cores := rfl

/-- An update of what events use beside the registers. -/
theorem evFrame_upd (s : State) (a : List (Nat × EvPay)) (b : List Nat) (c : List (Nat × EvRec)) (d : EvState) (e : SlState) :
    EvFrame s { s with evPay := a, evHeld := b, evIn := c, ev := d, sl := e } := by constructor <;> intros <;> rfl

theorem slSend_frame (d : Nat) (m : Msg) (s : State) : EvFrame s (slSend d m s) := by
  constructor <;> intros <;> rfl

theorem slSendEvent_frame (q : Nat) (r : EvRec) (s : State) : EvFrame s (slSendEvent q r s) := by
  simp only [slSendEvent]
  split
  · exact (evFrame_upd s s.evPay s.evHeld s.evIn s.ev _).trans (evFrame_wr _ _ _ (Or.inr (Or.inl rfl)))
  · exact slSend_frame _ _ _

theorem sendRec_frame (q : Nat) (r : EvRec) (s : State) : EvFrame s (sendRec q r s) := by
  simp only [sendRec]
  split
  · exact slSendEvent_frame _ _ _
  · exact evFrame_upd s s.evPay s.evHeld _ s.ev s.sl

theorem pulseRaw_frame (ch : Nat) (x : Bool) (s : State) (hc : ch < 256) : EvFrame s (pulseRaw ch x s).1 := by
  have hg : ch / 16 < 16 := by omega
  unfold pulseRaw
  dsimp only
  split
  · exact EvFrame.refl s
  · split
    · exact evFrame_wr _ _ _ (Or.inl (groupKey_drop hg))
    · split
      · exact evFrame_wr _ _ _ (Or.inl (groupKey_merge hg))
      · exact evFrame_upd s s.evPay s.evHeld s.evIn _ s.sl

theorem setPend_frame (s : State) (pg b : Nat) (p : EvPay) : EvFrame s (s.setPend pg b p) :=
  (evFrame_upd s _ s.evHeld s.evIn s.ev s.sl).trans (evFrame_wr _ _ _ (Or.inr (Or.inr (rEV_PEND_mod pg))))

/-- An episode touches nothing but what events use. -/
theorem episode_frame (n pg bit : Nat) (s : State) : EvFrame s (episode n pg bit s) := by
  induction n generalizing pg bit s with
  | zero => exact EvFrame.refl s
  | succ n ih =>
    unfold episode
    dsimp only
    split
    · exact evFrame_upd s s.evPay _ s.evIn s.ev s.sl
    · split
      · have hp := pulseRaw_frame (s.fld (fEV_ROUTE_TARGET pg) % 256) (otherClock pg) s (Nat.mod_lt _ (by decide))
        split
        · rename_i t heq; rw [heq] at hp; exact hp
        · rename_i t b heq
          rw [heq] at hp
          split
          · exact hp
          · split
            · exact (hp.trans (setPend_frame _ _ _ _)).trans (ih _ _ _)
            · exact hp.trans (setPend_frame _ _ _ _)
      · exact sendRec_frame _ _ _

/-- The registers that an episode leaves alone: those of the group pages and one counter of the Sluice excepted. -/
theorem rd_episode (n pg bit : Nat) (s : State) {k : Nat} (hg : ¬ groupKey k) (hd : k ≠ rSL_EVDROP) :
    (episode n pg bit s).rd k = s.rd k := by
  induction n generalizing pg bit s with
  | zero => rfl
  | succ n ih =>
    unfold episode
    dsimp only
    split
    · rfl
    · split
      · have hlt : s.fld (fEV_ROUTE_TARGET pg) % 256 < 256 := Nat.mod_lt _ (by decide)
        have hp : (pulseRaw (s.fld (fEV_ROUTE_TARGET pg) % 256) (otherClock pg) s).1.rd k = s.rd k := by
          unfold pulseRaw
          dsimp only
          split
          · rfl
          · split
            · exact rd_incFld_ne s _ (fun e => hg (e ▸ groupKey_drop (by omega)))
            · split
              · exact rd_setFld_ne s _ _ (fun e => hg (e ▸ groupKey_merge (by omega)))
              · rfl
        split
        · rename_i t heq; rw [heq] at hp; exact hp
        · rename_i t b heq
          rw [heq] at hp
          have hk : k ≠ rEV_PEND (0x40 + s.fld (fEV_ROUTE_TARGET pg) % 256 / 16) :=
            fun e => hg (by rw [e]; exact groupKey_pend (by omega))
          split
          · exact hp
          · split
            · rw [ih]; exact (rd_setPend_ne _ _ _ hk).trans hp
            · exact (rd_setPend_ne _ _ _ hk).trans hp
      · simp only [sendRec]
        split
        · simp only [slSendEvent]
          split
          · exact rd_incFld_ne _ _ hd
          · rfl
        · rfl

/-! Setting an event bit. -/

theorem postEventAt_frame (e : Ev) (p : List Byte) (a : Option Nat) (s : State) : EvFrame s (postEventAt e p a s) := by
  unfold postEventAt
  dsimp only
  split
  · exact EvFrame.refl s
  · split
    · exact (setPend_frame _ _ _ _).trans (episode_frame _ _ _ _)
    · exact setPend_frame _ _ _ _

/-- Raising an event of a page leaves every register but those of `evFree`. -/
theorem rd_postEventAt (e : Ev) (p : List Byte) (a : Option Nat) (s : State) {k : Nat} (h : evFree e.pg k) :
    (postEventAt e p a s).rd k = s.rd k := by
  unfold postEventAt
  dsimp only
  split
  · rfl
  · split
    · rw [rd_episode _ _ _ _ h.2.1 h.2.2]; exact rd_setPend_ne s _ _ h.1
    · exact rd_setPend_ne s _ _ h.1

theorem postEvent_frame (e : Ev) (p : List Byte) (s : State) : EvFrame s (postEvent e p s) := postEventAt_frame e p none s
theorem post_frame (pg b sev u c d : Nat) (s : State) : EvFrame s (post pg b sev u c d s) := postEventAt_frame _ _ none s
theorem pulse_frame (ch : Nat) (x : Bool) (s : State) (hc : ch < 256) : EvFrame s (pulse ch x s) := by
  have hp := pulseRaw_frame ch x s hc
  unfold pulse
  split
  · rename_i t heq; rw [heq] at hp; exact hp
  · rename_i t b heq; rw [heq] at hp; exact hp.trans (post_frame _ _ _ _ _ _ _)

@[simp] theorem postEventAt_pending (e : Ev) (p : List Byte) (a : Option Nat) (s : State) :
    (postEventAt e p a s).pending = s.pending := (postEventAt_frame e p a s).pending
@[simp] theorem postEventAt_shadow (e : Ev) (p : List Byte) (a : Option Nat) (s : State) :
    (postEventAt e p a s).shadow = s.shadow := (postEventAt_frame e p a s).shadow
@[simp] theorem postEventAt_free (e : Ev) (p : List Byte) (a : Option Nat) (s : State) :
    (postEventAt e p a s).free = s.free := (postEventAt_frame e p a s).free
@[simp] theorem postEventAt_out (e : Ev) (p : List Byte) (a : Option Nat) (s : State) :
    (postEventAt e p a s).out = s.out := (postEventAt_frame e p a s).out
@[simp] theorem postEventAt_mram (e : Ev) (p : List Byte) (a : Option Nat) (s : State) :
    (postEventAt e p a s).mram = s.mram := (postEventAt_frame e p a s).mram
@[simp] theorem postEventAt_lmem (e : Ev) (p : List Byte) (a : Option Nat) (s : State) :
    (postEventAt e p a s).lmem = s.lmem := (postEventAt_frame e p a s).lmem
@[simp] theorem postEventAt_lmErr (e : Ev) (p : List Byte) (a : Option Nat) (s : State) :
    (postEventAt e p a s).lmErr = s.lmErr := (postEventAt_frame e p a s).lmErr
@[simp] theorem postEventAt_tb (e : Ev) (p : List Byte) (a : Option Nat) (s : State) :
    (postEventAt e p a s).tb = s.tb := (postEventAt_frame e p a s).tb
@[simp] theorem postEventAt_sal (e : Ev) (p : List Byte) (a : Option Nat) (s : State) :
    (postEventAt e p a s).sal = s.sal := (postEventAt_frame e p a s).sal
@[simp] theorem postEventAt_cry (e : Ev) (p : List Byte) (a : Option Nat) (s : State) :
    (postEventAt e p a s).cry = s.cry := (postEventAt_frame e p a s).cry
@[simp] theorem postEventAt_pan (e : Ev) (p : List Byte) (a : Option Nat) (s : State) :
    (postEventAt e p a s).pan = s.pan := (postEventAt_frame e p a s).pan
@[simp] theorem postEventAt_bl (e : Ev) (p : List Byte) (a : Option Nat) (s : State) :
    (postEventAt e p a s).bl = s.bl := (postEventAt_frame e p a s).bl
@[simp] theorem postEventAt_rk (e : Ev) (p : List Byte) (a : Option Nat) (s : State) :
    (postEventAt e p a s).rk = s.rk := (postEventAt_frame e p a s).rk
@[simp] theorem postEventAt_qe (e : Ev) (p : List Byte) (a : Option Nat) (s : State) :
    (postEventAt e p a s).qe = s.qe := (postEventAt_frame e p a s).qe
@[simp] theorem postEventAt_tj (e : Ev) (p : List Byte) (a : Option Nat) (s : State) :
    (postEventAt e p a s).tj = s.tj := (postEventAt_frame e p a s).tj
@[simp] theorem postEventAt_fab (e : Ev) (p : List Byte) (a : Option Nat) (s : State) :
    (postEventAt e p a s).fab = s.fab := (postEventAt_frame e p a s).fab
@[simp] theorem postEventAt_dup (e : Ev) (p : List Byte) (a : Option Nat) (s : State) :
    (postEventAt e p a s).dup = s.dup := (postEventAt_frame e p a s).dup
@[simp] theorem postEventAt_pwr (e : Ev) (p : List Byte) (a : Option Nat) (s : State) :
    (postEventAt e p a s).pwr = s.pwr := (postEventAt_frame e p a s).pwr
@[simp] theorem postEventAt_sec (e : Ev) (p : List Byte) (a : Option Nat) (s : State) :
    (postEventAt e p a s).sec = s.sec := (postEventAt_frame e p a s).sec
@[simp] theorem postEventAt_pn (e : Ev) (p : List Byte) (a : Option Nat) (s : State) :
    (postEventAt e p a s).pn = s.pn := (postEventAt_frame e p a s).pn
@[simp] theorem postEventAt_cores (e : Ev) (p : List Byte) (a : Option Nat) (s : State) :
    (postEventAt e p a s).cores = s.cores := (postEventAt_frame e p a s).cores
@[simp] theorem postEvent_pending (e : Ev) (p : List Byte) (s : State) : (postEvent e p s).pending = s.pending :=
  postEventAt_pending e p none s
@[simp] theorem postEvent_shadow (e : Ev) (p : List Byte) (s : State) : (postEvent e p s).shadow = s.shadow :=
  postEventAt_shadow e p none s
@[simp] theorem postEvent_free (e : Ev) (p : List Byte) (s : State) : (postEvent e p s).free = s.free :=
  postEventAt_free e p none s
@[simp] theorem postEvent_out (e : Ev) (p : List Byte) (s : State) : (postEvent e p s).out = s.out :=
  postEventAt_out e p none s
@[simp] theorem postEvent_mram (e : Ev) (p : List Byte) (s : State) : (postEvent e p s).mram = s.mram :=
  postEventAt_mram e p none s
@[simp] theorem postEvent_lmem (e : Ev) (p : List Byte) (s : State) : (postEvent e p s).lmem = s.lmem :=
  postEventAt_lmem e p none s
@[simp] theorem postEvent_lmErr (e : Ev) (p : List Byte) (s : State) : (postEvent e p s).lmErr = s.lmErr :=
  postEventAt_lmErr e p none s
@[simp] theorem postEvent_tb (e : Ev) (p : List Byte) (s : State) : (postEvent e p s).tb = s.tb :=
  postEventAt_tb e p none s
@[simp] theorem postEvent_sal (e : Ev) (p : List Byte) (s : State) : (postEvent e p s).sal = s.sal :=
  postEventAt_sal e p none s
@[simp] theorem postEvent_cry (e : Ev) (p : List Byte) (s : State) : (postEvent e p s).cry = s.cry :=
  postEventAt_cry e p none s
@[simp] theorem postEvent_pan (e : Ev) (p : List Byte) (s : State) : (postEvent e p s).pan = s.pan :=
  postEventAt_pan e p none s
@[simp] theorem postEvent_bl (e : Ev) (p : List Byte) (s : State) : (postEvent e p s).bl = s.bl :=
  postEventAt_bl e p none s
@[simp] theorem postEvent_rk (e : Ev) (p : List Byte) (s : State) : (postEvent e p s).rk = s.rk :=
  postEventAt_rk e p none s
@[simp] theorem postEvent_qe (e : Ev) (p : List Byte) (s : State) : (postEvent e p s).qe = s.qe :=
  postEventAt_qe e p none s
@[simp] theorem postEvent_tj (e : Ev) (p : List Byte) (s : State) : (postEvent e p s).tj = s.tj :=
  postEventAt_tj e p none s
@[simp] theorem postEvent_fab (e : Ev) (p : List Byte) (s : State) : (postEvent e p s).fab = s.fab :=
  postEventAt_fab e p none s
@[simp] theorem postEvent_dup (e : Ev) (p : List Byte) (s : State) : (postEvent e p s).dup = s.dup :=
  postEventAt_dup e p none s
@[simp] theorem postEvent_pwr (e : Ev) (p : List Byte) (s : State) : (postEvent e p s).pwr = s.pwr :=
  postEventAt_pwr e p none s
@[simp] theorem postEvent_sec (e : Ev) (p : List Byte) (s : State) : (postEvent e p s).sec = s.sec :=
  postEventAt_sec e p none s
@[simp] theorem postEvent_pn (e : Ev) (p : List Byte) (s : State) : (postEvent e p s).pn = s.pn :=
  postEventAt_pn e p none s
@[simp] theorem postEvent_cores (e : Ev) (p : List Byte) (s : State) : (postEvent e p s).cores = s.cores :=
  postEventAt_cores e p none s
@[simp] theorem post_pending (pg b sev u c d : Nat) (s : State) : (post pg b sev u c d s).pending = s.pending :=
  postEventAt_pending _ _ none s
@[simp] theorem post_shadow (pg b sev u c d : Nat) (s : State) : (post pg b sev u c d s).shadow = s.shadow :=
  postEventAt_shadow _ _ none s
@[simp] theorem post_free (pg b sev u c d : Nat) (s : State) : (post pg b sev u c d s).free = s.free :=
  postEventAt_free _ _ none s
@[simp] theorem post_out (pg b sev u c d : Nat) (s : State) : (post pg b sev u c d s).out = s.out :=
  postEventAt_out _ _ none s
@[simp] theorem post_mram (pg b sev u c d : Nat) (s : State) : (post pg b sev u c d s).mram = s.mram :=
  postEventAt_mram _ _ none s
@[simp] theorem post_lmem (pg b sev u c d : Nat) (s : State) : (post pg b sev u c d s).lmem = s.lmem :=
  postEventAt_lmem _ _ none s
@[simp] theorem post_lmErr (pg b sev u c d : Nat) (s : State) : (post pg b sev u c d s).lmErr = s.lmErr :=
  postEventAt_lmErr _ _ none s
@[simp] theorem post_tb (pg b sev u c d : Nat) (s : State) : (post pg b sev u c d s).tb = s.tb :=
  postEventAt_tb _ _ none s
@[simp] theorem post_sal (pg b sev u c d : Nat) (s : State) : (post pg b sev u c d s).sal = s.sal :=
  postEventAt_sal _ _ none s
@[simp] theorem post_cry (pg b sev u c d : Nat) (s : State) : (post pg b sev u c d s).cry = s.cry :=
  postEventAt_cry _ _ none s
@[simp] theorem post_pan (pg b sev u c d : Nat) (s : State) : (post pg b sev u c d s).pan = s.pan :=
  postEventAt_pan _ _ none s
@[simp] theorem post_bl (pg b sev u c d : Nat) (s : State) : (post pg b sev u c d s).bl = s.bl :=
  postEventAt_bl _ _ none s
@[simp] theorem post_rk (pg b sev u c d : Nat) (s : State) : (post pg b sev u c d s).rk = s.rk :=
  postEventAt_rk _ _ none s
@[simp] theorem post_qe (pg b sev u c d : Nat) (s : State) : (post pg b sev u c d s).qe = s.qe :=
  postEventAt_qe _ _ none s
@[simp] theorem post_tj (pg b sev u c d : Nat) (s : State) : (post pg b sev u c d s).tj = s.tj :=
  postEventAt_tj _ _ none s
@[simp] theorem post_fab (pg b sev u c d : Nat) (s : State) : (post pg b sev u c d s).fab = s.fab :=
  postEventAt_fab _ _ none s
@[simp] theorem post_dup (pg b sev u c d : Nat) (s : State) : (post pg b sev u c d s).dup = s.dup :=
  postEventAt_dup _ _ none s
@[simp] theorem post_pwr (pg b sev u c d : Nat) (s : State) : (post pg b sev u c d s).pwr = s.pwr :=
  postEventAt_pwr _ _ none s
@[simp] theorem post_sec (pg b sev u c d : Nat) (s : State) : (post pg b sev u c d s).sec = s.sec :=
  postEventAt_sec _ _ none s
@[simp] theorem post_pn (pg b sev u c d : Nat) (s : State) : (post pg b sev u c d s).pn = s.pn :=
  postEventAt_pn _ _ none s
@[simp] theorem post_cores (pg b sev u c d : Nat) (s : State) : (post pg b sev u c d s).cores = s.cores :=
  postEventAt_cores _ _ none s
@[simp] theorem setPost_pending (f : Fld) (pg b sev u c d : Nat) (s : State) :
    (setPost f pg b sev u c d s).pending = s.pending :=
  (post_pending _ _ _ _ _ _ _).trans (State.setFlag_pending s f true)
@[simp] theorem setPost_shadow (f : Fld) (pg b sev u c d : Nat) (s : State) :
    (setPost f pg b sev u c d s).shadow = s.shadow :=
  (post_shadow _ _ _ _ _ _ _).trans (State.setFlag_shadow s f true)
@[simp] theorem setPost_free (f : Fld) (pg b sev u c d : Nat) (s : State) :
    (setPost f pg b sev u c d s).free = s.free :=
  (post_free _ _ _ _ _ _ _).trans (State.setFlag_free s f true)
@[simp] theorem setPost_out (f : Fld) (pg b sev u c d : Nat) (s : State) :
    (setPost f pg b sev u c d s).out = s.out :=
  (post_out _ _ _ _ _ _ _).trans (State.setFlag_out s f true)
@[simp] theorem setPost_mram (f : Fld) (pg b sev u c d : Nat) (s : State) :
    (setPost f pg b sev u c d s).mram = s.mram :=
  (post_mram _ _ _ _ _ _ _).trans (State.setFlag_mram s f true)
@[simp] theorem setPost_lmem (f : Fld) (pg b sev u c d : Nat) (s : State) :
    (setPost f pg b sev u c d s).lmem = s.lmem :=
  (post_lmem _ _ _ _ _ _ _).trans (State.setFlag_lmem s f true)
@[simp] theorem setPost_lmErr (f : Fld) (pg b sev u c d : Nat) (s : State) :
    (setPost f pg b sev u c d s).lmErr = s.lmErr :=
  (post_lmErr _ _ _ _ _ _ _).trans (State.setFlag_lmErr s f true)
@[simp] theorem setPost_tb (f : Fld) (pg b sev u c d : Nat) (s : State) :
    (setPost f pg b sev u c d s).tb = s.tb :=
  (post_tb _ _ _ _ _ _ _).trans (State.setFlag_tb s f true)
@[simp] theorem setPost_sal (f : Fld) (pg b sev u c d : Nat) (s : State) :
    (setPost f pg b sev u c d s).sal = s.sal :=
  (post_sal _ _ _ _ _ _ _).trans (State.setFlag_sal s f true)
@[simp] theorem setPost_cry (f : Fld) (pg b sev u c d : Nat) (s : State) :
    (setPost f pg b sev u c d s).cry = s.cry :=
  (post_cry _ _ _ _ _ _ _).trans (State.setFlag_cry s f true)
@[simp] theorem setPost_pan (f : Fld) (pg b sev u c d : Nat) (s : State) :
    (setPost f pg b sev u c d s).pan = s.pan :=
  (post_pan _ _ _ _ _ _ _).trans (State.setFlag_pan s f true)
@[simp] theorem setPost_bl (f : Fld) (pg b sev u c d : Nat) (s : State) :
    (setPost f pg b sev u c d s).bl = s.bl :=
  (post_bl _ _ _ _ _ _ _).trans (State.setFlag_bl s f true)
@[simp] theorem setPost_rk (f : Fld) (pg b sev u c d : Nat) (s : State) :
    (setPost f pg b sev u c d s).rk = s.rk :=
  (post_rk _ _ _ _ _ _ _).trans (State.setFlag_rk s f true)
@[simp] theorem setPost_qe (f : Fld) (pg b sev u c d : Nat) (s : State) :
    (setPost f pg b sev u c d s).qe = s.qe :=
  (post_qe _ _ _ _ _ _ _).trans (State.setFlag_qe s f true)
@[simp] theorem setPost_tj (f : Fld) (pg b sev u c d : Nat) (s : State) :
    (setPost f pg b sev u c d s).tj = s.tj :=
  (post_tj _ _ _ _ _ _ _).trans (State.setFlag_tj s f true)
@[simp] theorem setPost_fab (f : Fld) (pg b sev u c d : Nat) (s : State) :
    (setPost f pg b sev u c d s).fab = s.fab :=
  (post_fab _ _ _ _ _ _ _).trans (State.setFlag_fab s f true)
@[simp] theorem setPost_dup (f : Fld) (pg b sev u c d : Nat) (s : State) :
    (setPost f pg b sev u c d s).dup = s.dup :=
  (post_dup _ _ _ _ _ _ _).trans (State.setFlag_dup s f true)
@[simp] theorem setPost_pwr (f : Fld) (pg b sev u c d : Nat) (s : State) :
    (setPost f pg b sev u c d s).pwr = s.pwr :=
  (post_pwr _ _ _ _ _ _ _).trans (State.setFlag_pwr s f true)
@[simp] theorem setPost_sec (f : Fld) (pg b sev u c d : Nat) (s : State) :
    (setPost f pg b sev u c d s).sec = s.sec :=
  (post_sec _ _ _ _ _ _ _).trans (State.setFlag_sec s f true)
@[simp] theorem setPost_pn (f : Fld) (pg b sev u c d : Nat) (s : State) :
    (setPost f pg b sev u c d s).pn = s.pn :=
  (post_pn _ _ _ _ _ _ _).trans (State.setFlag_pn s f true)
@[simp] theorem setPost_cores (f : Fld) (pg b sev u c d : Nat) (s : State) :
    (setPost f pg b sev u c d s).cores = s.cores :=
  (post_cores _ _ _ _ _ _ _).trans (State.setFlag_cores s f true)

theorem rd_postEvent (e : Ev) (p : List Byte) (s : State) {k : Nat} (h : evFree e.pg k) :
    (postEvent e p s).rd k = s.rd k := rd_postEventAt e p none s h
theorem rd_post (pg b sev u c d : Nat) (s : State) {k : Nat} (h : evFree pg k) :
    (post pg b sev u c d s).rd k = s.rd k := rd_postEventAt _ _ none s h
theorem fld_post (pg b sev u c d : Nat) (s : State) (f : Fld) (h : evFree pg f.key) :
    (post pg b sev u c d s).fld f = s.fld f := fld_of_rd f (rd_post pg b sev u c d s h)
theorem flag_post (pg b sev u c d : Nat) (s : State) (f : Fld) (h : evFree pg f.key) :
    (post pg b sev u c d s).flag f = s.flag f := flag_of_rd f (rd_post pg b sev u c d s h)
theorem rd_pulse (ch : Nat) (x : Bool) (s : State) {k : Nat} (hc : ch < 256) (hg : ¬ groupKey k) (hd : k ≠ rSL_EVDROP) :
    (pulse ch x s).rd k = s.rd k := by
  by_cases h4 : k % 1024 = 4
  · have hp : (pulseRaw ch x s).1.rd k = s.rd k := by
      unfold pulseRaw
      dsimp only
      split
      · rfl
      · split
        · exact rd_incFld_ne s _ (fun e => hg (e ▸ groupKey_drop (by omega)))
        · split
          · exact rd_setFld_ne s _ _ (fun e => hg (e ▸ groupKey_merge (by omega)))
          · rfl
    unfold pulse
    split
    · rename_i t heq; rw [heq] at hp; exact hp
    · rename_i t b heq
      rw [heq] at hp
      rw [rd_post _ _ _ _ _ _ _ ⟨fun e => hg (by rw [e]; exact groupKey_pend (by omega)), hg, hd⟩]; exact hp
  · exact (pulse_frame ch x s hc).rd k hg hd h4

/-! The pending bit. -/

theorem natBit_ofNat (w v i : Nat) (h : i < w) : natBit (BitVec.ofNat w v).toNat i = natBit v i := by
  simp only [natBit_eq_testBit, BitVec.toNat_ofNat, Nat.testBit_mod_two_pow, h, decide_true, Bool.true_and]

/-- One more pending bit is set and the others keep their value. -/
theorem pendBit_setPend (s : State) (pg b j : Nat) (p : EvPay) (hj : j < 32) :
    pendBit (s.setPend pg b p) pg j = if j = b then true else pendBit s pg j := by
  simp only [pendBit, State.setPend, rd_wr_self, natBit_ofNat _ _ _ hj, natBit_natBitSet]

theorem pendBit_setPend_ne (s : State) {pg gp : Nat} (b j : Nat) (p : EvPay) (h : pg ≠ gp) :
    pendBit (s.setPend gp b p) pg j = pendBit s pg j := by
  simp only [pendBit]
  rw [rd_setPend_ne s _ _ (by simp only [rEV_PEND]; omega)]

theorem pendBit_setPend_mono (s : State) (gp b : Nat) (x : EvPay) (p j : Nat) (hj : j < 32)
    (h : pendBit s p j = true) : pendBit (s.setPend gp b x) p j = true := by
  by_cases hpc : p = gp
  · subst hpc; rw [pendBit_setPend _ _ _ _ _ hj]; split <;> simp [h]
  · rw [pendBit_setPend_ne _ _ _ _ hpc]; exact h

theorem pendBit_pulseRaw (ch : Nat) (x : Bool) (s : State) (pg j : Nat) :
    pendBit (pulseRaw ch x s).1 pg j = pendBit s pg j := by
  simp only [pendBit]
  unfold pulseRaw
  dsimp only
  split
  · rfl
  · split
    · rw [rd_incFld_ne s _ (rEV_PEND_ne_drop pg _)]
    · split
      · rw [rd_setFld_ne s _ _ (rEV_PEND_ne_merge pg _)]
      · rfl

/-- A chain of events clears no pending bit. -/
theorem pendBit_episode (n pg bit : Nat) (s : State) (p j : Nat) (hj : j < 32) (h : pendBit s p j = true) :
    pendBit (episode n pg bit s) p j = true := by
  induction n generalizing pg bit s with
  | zero => exact h
  | succ n ih =>
    unfold episode
    dsimp only
    split
    · exact h
    · split
      · have hp := pendBit_pulseRaw (s.fld (fEV_ROUTE_TARGET pg) % 256) (otherClock pg) s p j
        rw [h] at hp
        split
        · rename_i t heq; rw [heq] at hp; exact hp
        · rename_i t b heq
          rw [heq] at hp
          dsimp only at hp
          split
          · exact hp
          · split
            · exact ih _ _ _ (pendBit_setPend_mono _ _ _ _ _ _ hj hp)
            · exact pendBit_setPend_mono _ _ _ _ _ _ hj hp
      · simp only [sendRec]
        split
        · simp only [slSendEvent]
          split
          · simp only [pendBit]; rw [rd_incFld_ne _ _ (rEV_PEND_ne_evdrop p)]; exact h
          · exact h
        · exact h

/-- Raising an event clears no pending bit. -/
theorem pendBit_postEventAt_mono (e : Ev) (p : List Byte) (a : Option Nat) (s : State) (q j : Nat) (hj : j < 32)
    (h : pendBit s q j = true) : pendBit (postEventAt e p a s) q j = true := by
  unfold postEventAt
  dsimp only
  have hw := pendBit_setPend_mono s e.pg e.bit ⟨e.sev, p, a⟩ q j hj h
  split
  · exact h
  · split
    · exact pendBit_episode _ _ _ _ _ _ hj hw
    · exact hw

/-- An event that is raised is pending after. -/
theorem pendBit_postEventAt_self (e : Ev) (p : List Byte) (a : Option Nat) (s : State) (h : e.bit < 32) :
    pendBit (postEventAt e p a s) e.pg e.bit = true := by
  unfold postEventAt
  dsimp only
  have hw : pendBit (s.setPend e.pg e.bit ⟨e.sev, p, a⟩) e.pg e.bit = true := by
    rw [pendBit_setPend _ _ _ _ _ h, if_pos rfl]
  split
  · assumption
  · split
    · exact pendBit_episode _ _ _ _ _ _ h hw
    · exact hw

theorem pendBit_postEvent (e : Ev) (p : List Byte) (s : State) (h : e.bit < 32) :
    pendBit (postEvent e p s) e.pg e.bit = true := pendBit_postEventAt_self e p none s h
theorem pendBit_post (pg b sev u c d : Nat) (s : State) (h : b < 32) : pendBit (post pg b sev u c d s) pg b = true :=
  pendBit_postEventAt_self ⟨pg, b, sev⟩ _ none s h
theorem pendBit_post_mono (pg b sev u c d : Nat) (s : State) (q j : Nat) (hj : j < 32) (h : pendBit s q j = true) :
    pendBit (post pg b sev u c d s) q j = true := pendBit_postEventAt_mono _ _ none s q j hj h
theorem pendBit_setPost (f : Fld) (pg b sev u c d : Nat) (s : State) (h : b < 32) :
    pendBit (setPost f pg b sev u c d s) pg b = true := pendBit_post pg b sev u c d _ h

theorem pulse_pending (ch : Nat) (x : Bool) (s : State) (h : ch < 256) : (pulse ch x s).pending = s.pending :=
  (pulse_frame ch x s h).pending
theorem pulse_shadow (ch : Nat) (x : Bool) (s : State) (h : ch < 256) : (pulse ch x s).shadow = s.shadow :=
  (pulse_frame ch x s h).shadow
theorem pulse_free (ch : Nat) (x : Bool) (s : State) (h : ch < 256) : (pulse ch x s).free = s.free :=
  (pulse_frame ch x s h).free
theorem pulse_out (ch : Nat) (x : Bool) (s : State) (h : ch < 256) : (pulse ch x s).out = s.out :=
  (pulse_frame ch x s h).out
theorem pulse_mram (ch : Nat) (x : Bool) (s : State) (h : ch < 256) : (pulse ch x s).mram = s.mram :=
  (pulse_frame ch x s h).mram
theorem pulse_lmem (ch : Nat) (x : Bool) (s : State) (h : ch < 256) : (pulse ch x s).lmem = s.lmem :=
  (pulse_frame ch x s h).lmem
theorem pulse_lmErr (ch : Nat) (x : Bool) (s : State) (h : ch < 256) : (pulse ch x s).lmErr = s.lmErr :=
  (pulse_frame ch x s h).lmErr
theorem pulse_tb (ch : Nat) (x : Bool) (s : State) (h : ch < 256) : (pulse ch x s).tb = s.tb :=
  (pulse_frame ch x s h).tb
theorem pulse_sal (ch : Nat) (x : Bool) (s : State) (h : ch < 256) : (pulse ch x s).sal = s.sal :=
  (pulse_frame ch x s h).sal
theorem pulse_cry (ch : Nat) (x : Bool) (s : State) (h : ch < 256) : (pulse ch x s).cry = s.cry :=
  (pulse_frame ch x s h).cry
theorem pulse_pan (ch : Nat) (x : Bool) (s : State) (h : ch < 256) : (pulse ch x s).pan = s.pan :=
  (pulse_frame ch x s h).pan
theorem pulse_bl (ch : Nat) (x : Bool) (s : State) (h : ch < 256) : (pulse ch x s).bl = s.bl :=
  (pulse_frame ch x s h).bl
theorem pulse_rk (ch : Nat) (x : Bool) (s : State) (h : ch < 256) : (pulse ch x s).rk = s.rk :=
  (pulse_frame ch x s h).rk
theorem pulse_qe (ch : Nat) (x : Bool) (s : State) (h : ch < 256) : (pulse ch x s).qe = s.qe :=
  (pulse_frame ch x s h).qe
theorem pulse_tj (ch : Nat) (x : Bool) (s : State) (h : ch < 256) : (pulse ch x s).tj = s.tj :=
  (pulse_frame ch x s h).tj
theorem pulse_fab (ch : Nat) (x : Bool) (s : State) (h : ch < 256) : (pulse ch x s).fab = s.fab :=
  (pulse_frame ch x s h).fab
theorem pulse_dup (ch : Nat) (x : Bool) (s : State) (h : ch < 256) : (pulse ch x s).dup = s.dup :=
  (pulse_frame ch x s h).dup
theorem pulse_pwr (ch : Nat) (x : Bool) (s : State) (h : ch < 256) : (pulse ch x s).pwr = s.pwr :=
  (pulse_frame ch x s h).pwr
theorem pulse_sec (ch : Nat) (x : Bool) (s : State) (h : ch < 256) : (pulse ch x s).sec = s.sec :=
  (pulse_frame ch x s h).sec
theorem pulse_pn (ch : Nat) (x : Bool) (s : State) (h : ch < 256) : (pulse ch x s).pn = s.pn :=
  (pulse_frame ch x s h).pn
theorem pulse_cores (ch : Nat) (x : Bool) (s : State) (h : ch < 256) : (pulse ch x s).cores = s.cores :=
  (pulse_frame ch x s h).cores

end Sys2Proof.Machine
end

