-- ==== Sys2Proof/Tests/Slice0.lean ====
section
/-!
SUPPORT. Sys2Proof/Tests/Slice0.lean: the smoke test of WellFormed, small tests taken from the spec's worked examples, and for
every statement a witness of the hypotheses of each of its clauses.
-/
set_option linter.unusedVariables false
set_option Elab.async false
namespace Sys2Proof.Tests
open Sys2Proof Sys2Proof.Machine
/-- The reset state with SEC_STAT and SEC_OTPSTAT at given values, whatever the fuses say. -/
def secState (v o : Nat) : State := { State.reset with regs := [(rSEC_STAT, BitVec.ofNat 32 v), (rSEC_OTPSTAT, BitVec.ofNat 32 o)] }
/-- E0 to E3 run, and core `n` stands as `f` makes it. -/
def wE (n : Nat) (f : Core → Core) : State := (State.reset.setFld fRST_CTRL_CORERUN 15).mapCore n f
/-- The bundle's place at reset in OFF mode. -/
def wX (n : Nat) : Xl := ⟨if n = 4 then 0xFFFC0000 else 0xFFFF0000, 7, false, none⟩
def wH : Hdr := ⟨true, false, 0, false, none⟩
def ww (l : List (Nat × Word)) (c : Core) : Core := { c with w := l }
/-- A state in which core 0 can take exception `v` to a handler at 0x10081000. -/
def wV (v : Nat) (f : Core → Core) : State :=
  { wE 0 (fun c => f { c with sc := [(1, Cap.root)] }) with
    lmem := putList [] (0x10080000 + 8 * v) (bytesOfNat 8 0x10081000) }
def hv : Nat × Bool × Nat := (0x10081000, false, 512)
def metDup (s : State) (k : Nat) : State := { s with dup := { DupState.reset with got := 8, pWait := true, pDigest := plDigest s + k } }
theorem metDup_same (s : State) : (metDup s 0).dup.pDigest = plDigest (metDup s 0) := rfl
theorem metDup_other (s : State) : (metDup s 1).dup.pDigest ≠ plDigest (metDup s 1) := Nat.succ_ne_self (plDigest s)
end Sys2Proof.Tests

namespace Sys2Proof.Tests
open Sys2Proof Sys2Proof.Machine Sys2Proof.Claims

/-! One ill-formed command for each check of WellFormed. -/

theorem test_ill_master : wellFormed (.lowHalfRead 83 .angle) = false := by decide
theorem test_ill_master_high : wellFormed (.highHalfRead 83 .angle) = false := by decide
theorem test_ill_context_admit : wellFormed (.admitCtx 10240) = false := by decide
theorem test_ill_context_probe : wellFormed (.probe 10240) = false := by decide
theorem test_ill_context_remove : wellFormed (.remove 10240) = false := by decide
theorem test_ill_context_replace : wellFormed (.replace 10240) = false := by decide
theorem test_ill_context_suspend : wellFormed (.suspend 10240) = false := by decide
theorem test_ill_context_resume : wellFormed (.resume 10240) = false := by decide
theorem test_ill_context_read : wellFormed (.read 10240) = false := by decide
theorem test_ill_context_release : wellFormed (.contextRelease 10240) = false := by decide
theorem test_ill_entry_upset : wellFormed (.launchPoint [10240]) = false := by decide
theorem test_ill_read_empty : wellFormed (.salternReadRequest 0 0 0 [] [] []) = false := by decide
theorem test_ill_read_two_beats : wellFormed (.salternReadRequest 0 63 2 [] [] []) = false := by decide
theorem test_ill_write_empty : wellFormed (.salternWriteRequest 0 0 [] false []) = false := by decide
theorem test_ill_write_two_beats : wellFormed (.salternWriteRequest 0 63 [some 1, some 2] false []) = false := by decide
theorem test_ill_tagged_write : wellFormed (.salternWriteRequest 0 0 [some 1] true []) = false := by decide
theorem test_ill_compare_count : wellFormed (.gtCompareMatch 0 0) = false := by decide
theorem test_ill_queue_entry : wellFormed (.entryFetch 0 [1]) = false := by decide
theorem test_ill_plan : wellFormed (.planReceive ⟨0, 0, 0, 0, 0, 0, 0, 0⟩ [1] 0) = false := by decide
theorem test_ill_alloc : wellFormed (.allocReceive ⟨0, 0, 0, 0, 0, 0, 0, 0⟩ 0 [1] 0) = false := by decide
theorem test_ill_readmem : wellFormed (.readmem 0 0) = false := by decide
theorem test_ill_writemem : wellFormed (.writemem 0 []) = false := by decide
theorem test_ill_unlock : wellFormed (.unlock 0 0 [] []) = false := by decide
theorem test_ill_attest : wellFormed (.attest 0 0 []) = false := by decide
theorem test_ill_link_width : wellFormed (.pcieLinkUp 3 1) = false := by decide
theorem test_ill_link_speed : wellFormed (.pcieLinkUp 4 5) = false := by decide

/-! Values that the spec's worked examples give. -/

/-- What holds of the state after a step from the state after reset with `c` in front, changed by `f`. -/
def after (c : Instr) (f : State → State) (p : State → Bool) : Bool :=
  match step { f State.reset with pending := [c] } with
  | .next t => t.pending == [] && p t
  | _ => false
/-- The bank of a word, R104 with the example after it. -/
theorem test_bank_of_word : bankOf (0x01234568 / 8) = 441 := by decide +kernel
theorem test_bank_of_other_word : bankOf (0x01454568 / 8) = 441 := by decide +kernel
/-- RATE_LIMIT with N = 10,000 and TICK_MIN = 960 (the example of R58). -/
theorem test_rate_limit : after (.tbTickMinWrite 960) (fun s => s.tbSet fun b => { b with nCur := 10000 })
    (fun t => rateLimit t == 4879851053) = true := by decide +kernel
/-- The example of R318: 99,999,998 + 5 in packed decimal leaves 3 and a decimal carry. -/
theorem test_badd : after (.badd 0 wH 16 16 18) (fun _ => wE 0 (ww [(wKey (Core.reset 0) 16, 0x99999998), (wKey (Core.reset 0) 18, 5)]))
    (fun t => ((t.core 0).tick.rdW 16 == 3) && natBit (t.core 0).tick.status.toNat 14) = true := by decide +kernel
/-- The two words of the example of R318. -/
theorem test_word_badd : decodeSyl 0x81B08480 = ⟨⟨true, false, 0, false, none⟩, .bcd .badd 16 16 18⟩ := by decide +kernel
theorem test_word_baddc : decodeSyl 0x81B18CC1 = ⟨⟨true, false, 0, false, none⟩, .bcd .baddc 17 17 19⟩ := by decide +kernel
/-- The budget of R215: with the B0 figures an SUB order over 1,024 elements costs 110 CCLK and an HMV8 order 574. -/
def budgetTable (n : Nat) : BitVec 128 :=
  if n = 0 then 0x00000000_000000B0_00000102_80201606 else if n = 0x11 then 0x80000_81140104
  else if n = 0x22 then 0x00000000_00000000_00100000_81140820 else 0
theorem test_cost_sub : orderCost baseDispatch budgetTable [0x11, 0x00010000, 1024, 0, 0x1000, 0x2000, 0x00010001, 1] = 110 := by
  decide +kernel
theorem test_cost_hmv8 : orderCost baseDispatch budgetTable [0x22, 0x00010000, 1024, 0, 0x1000, 0x2000, 0x00010001, 1] = 574 := by
  decide +kernel
/-- The example of R152: D at 0x60_0800 and at 0x5F_FC00 passes, D at 0x60_0400 overlaps. -/
def rackOrder (d : Word) : List Word :=
  [0x11, 0x00010008, 0x180, 0x01200080, 0x02300000, 0x30000000 + d, 0x00010001, 0x80000001]
theorem test_no_overlap : overlaps baseDispatch (rackOrder 0x300400) = false := by decide +kernel
theorem test_overlap : overlaps baseDispatch (rackOrder 0x300200) = true := by decide +kernel
theorem test_no_overlap_below : overlaps baseDispatch (rackOrder 0x2FFE00) = false := by decide +kernel
/-- The example of R551: a press of 3,400 ms gives 0x0D48 and byte 4 = 1. -/
theorem test_button_payload : after (.btnUp 3400) (fun s => { s.setFlag fPN_STAT_BTN true with pn := { PanelState.reset with held := true } })
    (fun t => t.evPay.any fun e => e.2.payload.take 5 == [0x48, 0x0D, 0, 0, 1]) = true := by decide +kernel
/-- The example after R197: the three lowest of nine active losses, ties to the lower index, −0 before +0 by index. -/
def losses : List (Nat × Nat) :=
  [(0, 0x40900000), (1, 0x40500000), (2, 0x7FC00000), (3, 0x40500000), (4, 0x80000000), (5, 0x40C00000), (7, 0), (8, 0x40500000),
   (9, 0x40F00000)]
theorem test_lowest_three :
    (redOutputs [0x46, 0, 3 * 65536 + 10] .sgl 0x46
      (losses.foldl (fun r e => redStep [0x46, 0, 3 * 65536 + 10] .sgl 0x46 e.1 ⟨e.2, 0⟩ ⟨0, 0⟩ r) RedState.empty)).map (fun e => e.2.bits) =
    [0x80000000, 4, 0, 7, 0x40500000, 1] := by decide +kernel

/-! One step of a command, and the queue. -/

theorem test_front_command_first : step { State.reset with pending := [.tbEnable, .tbDisable] } =
    Machine.exec .tbEnable { State.reset with pending := [.tbDisable] } := rfl
theorem test_emergency : after .emstopFall id (fun t => t.flag fRK_STAT_EMERG) = true := by decide +kernel
theorem test_tb_enable : after .tbEnable id (fun t => pageEn t 0x10) = true := by decide +kernel
theorem test_latch : after (.latchOpen 2) id (fun t => t.fld fPN_STAT_LATCH == 4) = true := by decide +kernel
theorem test_brownout : after .brownoutStart id (fun t => t.flag fPWR_STAT_BELOW) = true := by decide +kernel
theorem test_patch_refused : after (.patchidWrite 5) id (fun t => pendBit t 0x128 3 && t.fld fPCS_PATCHID == 0) = true := by decide +kernel
theorem test_write_bytes : after (.salternWriteRequest 3 0x40 [some 1, none, some 3] false []) id (fun t => salBytes t 0x40 3 == [1, 0, 3]) = true := by
  decide +kernel
theorem test_reset_canonical : State.reset.canonical = true := by decide +kernel

/-! The hypotheses of the statements, clause by clause. -/

theorem test_met_TimebaseSwitch :
  ((fun (s : State)  => (locked s tbPg = false) ∧ (tbEn s = false)) (State.reset) ) ∧
  ((fun (s : State)  => (locked s tbPg = false) ∧ (tbEn s = true) ∧ (nadmit s = 0)) ((State.reset.setFlag (fPAGE_CTRL_EN tbPg) true)) ) ∧
  ((fun (s : State)  => (locked s tbPg = false) ∧ (tbEn s = true) ∧ (nadmit s ≠ 0)) (((State.reset.setFlag (fPAGE_CTRL_EN tbPg) true).setFld fCRY_STAT_NADMIT 1)) ) ∧
  ((fun (s : State)  => (locked s tbPg = false) ∧ (tbEn s = false)) ((State.reset.wr64 rTB_LOAD 0x123456789A)) ) ∧
  ((fun (s : State)  => (locked s tbPg = false) ∧ (tbEn s = true)) ((State.reset.setFlag (fPAGE_CTRL_EN tbPg) true)) ) :=
  ⟨by decide +kernel, by decide +kernel, by decide +kernel, by decide +kernel, by decide +kernel⟩
theorem test_met_TickCountWrite :
  ((fun (s : State) (v : BitVec 21) => (locked s tbPg = false) ∧ (nadmit s ≠ 0 ∨ v.toNat = 0 ∨ 1048576 < v.toNat)) (State.reset) (0)) ∧
  ((fun (s : State) (v : BitVec 21) => (locked s tbPg = false) ∧ (nadmit s = 0) ∧ (1 ≤ v.toNat) ∧ (v.toNat ≤ 1048576) ∧ (tbEn s = true)) ((State.reset.setFlag (fPAGE_CTRL_EN tbPg) true)) (1048576)) ∧
  ((fun (s : State) (v : BitVec 21) => (locked s tbPg = false) ∧ (nadmit s = 0) ∧ (1 ≤ v.toNat) ∧ (v.toNat ≤ 1048576) ∧ (tbEn s = false)) (State.reset) (10000)) :=
  ⟨by decide +kernel, by decide +kernel, by decide +kernel⟩
theorem test_met_TimebaseWrites :
  ((fun (s : State) (v : BitVec 16) => (locked s tbPg = false) ∧ (nadmit s ≠ 0 ∨ v.toNat < 880)) (State.reset) (879)) ∧
  ((fun (s : State) (v : BitVec 16) => (locked s tbPg = false) ∧ (nadmit s = 0) ∧ (880 ≤ v.toNat)) (State.reset) (880)) ∧
  ((fun (s : State) (v : BitVec 2) => (locked s tbPg = false) ∧ (tbEn s = true) ∧ (rateOf s ≠ 0)) (((State.reset.setFlag (fPAGE_CTRL_EN tbPg) true).wr64 rRATE 5)) (1)) ∧
  ((fun (s : State) (v : BitVec 2) => (locked s tbPg = false) ∧ (tbEn s = false) ∧ ((if v.toNat = 3 then 2 else v.toNat) ≠ s.tb.sel)) (State.reset) (0)) ∧
  ((fun (s : State) (v : BitVec 48) => (locked s tbPg = false)) (State.reset) (0xFFFFFFFFFFFF)) ∧
  ((fun (s : State) (v : Word) => (locked s tbPg = false)) (State.reset) (0x803F070F)) :=
  ⟨by decide +kernel, by decide +kernel, by decide +kernel, by decide +kernel, by decide +kernel, by decide +kernel⟩
theorem test_met_TimebaseSources :
  ((fun (s : State)  => (frozen s tbPg = false) ∧ (s.flag fTB_GRID_SRC_PIN = true) ∧ (s.tb.sel = 0) ∧ (s.tb.cross = none)) (((State.reset.setFld fTB_GRID_SRC_PIN 1).tbSet fun t => { t with sel := 0 })) ) ∧
  ((fun (s : State) (p : Crossing) => (frozen s tbPg = false) ∧ (s.flag fTB_GRID_SRC_PIN = true) ∧ (s.tb.sel = 0) ∧ (s.tb.cross = some p) ∧ (p.fcyc < fcycOf s) ∧ (s.fld fTB_GRID_WIN_FMIN * (fcycOf s - p.fcyc) ≤ 153600000000) ∧ (153600000000 ≤ s.fld fTB_GRID_WIN_FMAX * (fcycOf s - p.fcyc))) (((((State.reset.setFld fTB_GRID_SRC_PIN 1).tbSet fun t => { t with sel := 0 }).tbSet fun t => { t with cross := some ⟨0, 100⟩ }).wr64 rSL_FCYC 30720100).wr64 rANGLE 16777300) (⟨0, 100⟩)) ∧
  ((fun (s : State)  => (frozen s tbPg = false) ∧ (s.fld fTB_STAT_SRCACT = 0) ∧ (s.tb.gridRef + 25165824 < angleOf s)) ((State.reset.setFld fTB_STAT_SRCACT 0).wr64 rANGLE 25165825) ) ∧
  ((fun (s : State)  => (frozen s tbPg = false) ∧ (s.fld fTB_STAT_SRCACT = 1) ∧ (4 ≤ s.tb.fabMiss)) ((State.reset.setFld fTB_STAT_SRCACT 1).tbSet fun t => { t with fabMiss := 4 }) ) ∧
  ((fun (s : State) (f : Nat) (a : Nat) (r : List Msg) => (frozen s tbPg = false) ∧ (s.sl.inF = .timeH f a true :: r) ∧ (s.tb.sel = 1) ∧ (¬ (s.fld fPL_CTRL_RANK = 1 ∧ s.flag fPL_CTRL_TSRC = true)) ∧ (fcycOf s + 1536 ≤ f) ∧ (f ≤ fcycOf s + 1048576)) ((State.reset.tbSet fun t => { t with sel := 1 }).slSet fun l => { l with inF := [.timeH 1536 5 true, .notice 3] }) (1536) (5) ([.notice 3])) ∧
  ((fun (s : State) (f : Nat) (a : Nat) (v : Bool) (r : List Msg) => (frozen s tbPg = false) ∧ (s.sl.inF = .timeH f a v :: r) ∧ (s.tb.sel ≠ 1 ∨ (s.fld fPL_CTRL_RANK = 1 ∧ s.flag fPL_CTRL_TSRC = true))) (((State.reset.tbSet fun t => { t with sel := 1 }).slSet fun l => { l with inF := [.timeH 1536 5 true, .notice 3] }) |>.setFld fPL_CTRL_RANK 1 |>.setFlag fPL_CTRL_TSRC true) (1536) (5) (true) ([.notice 3])) ∧
  ((fun (s : State) (f : Nat) (a : Nat) (v : Bool) (r : List Msg) => (frozen s tbPg = false) ∧ (s.sl.inF = .timeH f a v :: r) ∧ (v = false ∨ f < fcycOf s + 1536 ∨ fcycOf s + 1048576 < f)) (State.reset.slSet fun l => { l with inF := [.timeH 1535 5 true] }) (1535) (5) (true) ([])) ∧
  ((fun (s : State)  => (frozen s tbPg = false) ∧ (s.flag fTB_STAT_FLOOR = true) ∧ (16 ≤ s.tb.floorTicks)) ((State.reset.setFlag fTB_STAT_FLOOR true).tbSet fun t => { t with floorTicks := 16 }) ) :=
  ⟨by decide +kernel, by decide +kernel, by decide +kernel, by decide +kernel, by decide +kernel, by decide +kernel, by decide +kernel, by decide +kernel⟩
theorem test_met_AngleCompare :
  ((fun (s : State) (v : Dword) (n : Fin 32) => (s.flag (fACn_CTRL_EN n.val) = false) ∧ (s.flag (fACn_CTRL_MODE n.val) = true ∨ v.toNat ≤ s.rd64 (rACn_RELOAD n.val))) (State.reset.wr64 (rACn_RELOAD 16) 0x123456789ABCDEF0) (0x123456789ABCDEF0) (16)) ∧
  ((fun (s : State) (v : Word) (n : Fin 32) => (s.flag (fACn_CTRL_EN n.val) = false) ∧ (s.flag (fACn_CTRL_MODE n.val) = true ∨ (storeGet 0 s.ev.acLow n.val).toNat + v.toNat * 2 ^ 32 ≤ s.rd64 (rACn_RELOAD n.val))) (State.reset.setFlag (fACn_CTRL_MODE 0) true) (0x12345678) (0)) ∧
  ((fun (s : State) (v : Dword) (n : Fin 32) => (s.flag (fACn_CTRL_MODE n.val) = false) ∧ (s.rd64 (rACn_RELOAD n.val) < v.toNat)) ((State.reset.setFlag (fACn_CTRL_EN 5) true).wr64 (rACn_RELOAD 5) 99) (100) (5)) ∧
  ((fun (s : State) (v : Dword) (n : Fin 32) => (acRuns s n.val = true) ∧ (acDone s n.val = false) ∧ (s.flag (fACn_CTRL_MODE n.val) = true) ∧ (v.toNat ≤ angleOf s)) ((State.reset.wr (rACn_CTRL 17) 3).wr64 rANGLE 50) (50) (17)) ∧
  ((fun (s : State) (v : Dword) (n : Fin 32) => (s.flag (fACn_CTRL_EN n.val) = true) ∧ (acRuns s n.val = false ∨ acDone s n.val = true) ∧ (s.flag (fACn_CTRL_MODE n.val) = true) ∧ (v.toNat ≤ angleOf s)) ({ (State.reset.wr (rACn_CTRL 17) 3).wr64 rANGLE 50 with ev := { EvState.reset with acCyc := [(17, 1)] } }) (50) (17)) ∧
  ((fun (s : State) (v : Dword) (n : Fin 32) => (s.flag (fACn_CTRL_EN n.val) = false)) (State.reset) (0xFFFFFFFFFFFFFFFF) (31)) ∧
  ((fun (s : State) (v : Dword) (n : Fin 32) => (s.flag (fACn_CTRL_EN n.val) = true)) ((State.reset.setFlag (fACn_CTRL_EN 5) true)) (3) (5)) :=
  ⟨by decide +kernel, by decide +kernel, by decide +kernel, by decide +kernel, by decide +kernel, by decide +kernel, by decide +kernel⟩
theorem test_met_TickRows :
  ((fun (s : State) => (fun (w : State) => (w = lastCclk s (nextTick s)) ∧ (Steps s w (nextTick s)) ∧ (w.tb.nPend = none) ∧ (srcOf w = w.tb.sel) ∧ (0 < w.tb.nCur) ∧ (passedOf w.tb.nCur none (angleOf w) (angleAfter w (rateOf w)) = 1)) (lastCclk s (nextTick s))) (((((State.reset.setFlag (fPAGE_CTRL_EN tbPg) true).wr64 rRATE 2000000000).wr64 rANGLE 837).setFld fTB_SLEW 50).setFld fCK_STAT_REFOK 1)) ∧
  ((fun (s : State) => (fun (w : State) (a : Nat) (m : Nat) => (a = (angleOf s / 16777216 + 1) * 16777216) ∧ (a = nextBoundary s) ∧ (w = lastCclk s a) ∧ (Steps s w a) ∧ (s.tb.nPend = some m) ∧ (w.tb.nPend = some m) ∧ (a ≤ angleAfter w (rateOf w)) ∧ (a ≤ angleOf (timeSteps (cclkTo s a) s))) (lastCclk s ((angleOf s / 16777216 + 1) * 16777216)) ((angleOf s / 16777216 + 1) * 16777216) (700)) ((((((State.reset.setFlag (fPAGE_CTRL_EN tbPg) true).wr64 rRATE 2000000000).wr64 rANGLE 0xFFFFF0).setFld fTB_SLEW 50).setFld fCK_STAT_REFOK 1).tbSet fun b => { b with nPend := some 700 })) ∧
  ((fun (s : State) => (fun (w : State) (a : Nat) (n : Fin 32) (d : Nat) => (acAhead s n.val = some d) ∧ (a = angleOf s + d) ∧ (a ≤ nextBoundary s) ∧ (w = lastCclk s a) ∧ (Steps s w a) ∧ (acRuns w n.val = true) ∧ (acAhead w n.val = some (a - angleOf w)) ∧ (angleOf w < a) ∧ (a ≤ angleAfter w (rateOf w)) ∧ (a ≤ angleOf (timeSteps (cclkTo s a) s))) (lastCclk s (angleOf s + (acAhead s 17).getD 0)) (angleOf s + (acAhead s 17).getD 0) (17) ((acAhead s 17).getD 0)) (((((((State.reset.setFlag (fPAGE_CTRL_EN tbPg) true).wr64 rRATE 2000000000).wr64 rANGLE 98).setFld fTB_SLEW 50).setFld fCK_STAT_REFOK 1).wr (rACn_CTRL 17) 5).wr64 (rACn_RELOAD 17) 99)) ∧
  ((fun (s : State)  => (tbMoves s = false)) (State.reset) ) :=
  ⟨⟨Eq.refl _, by decide +kernel⟩, ⟨by decide +kernel, by decide +kernel, Eq.refl _, by decide +kernel⟩, ⟨by decide +kernel, by decide +kernel, by decide +kernel, Eq.refl _, by decide +kernel⟩, by decide +kernel⟩
theorem test_met_RegisterWrites :
  ((fun (s : State) (d : Die) (pg : BitVec 12) (off : BitVec 12) (v : Word) (set : Word) => (mayWrite d pg.toNat) ∧ (pageKind (pageOf d pg.toNat) = .regs) ∧ (off.toNat % 4 = 0) ∧ (0x40 ≤ off.toNat) ∧ (¬ ownWrite (pageOf d pg.toNat) off.toNat)) ((State.reset.wr (rBLn_ERRA 3) 0x00050007).wr (rEXn_COUNT 2) 9) (.F) (0x86) (0x4C) (0x00000001) (0)) ∧
  ((fun (s : State) (d : Die) (pg : BitVec 12) (off : BitVec 12) (v : Word) (set : Word) => (mayWrite d pg.toNat) ∧ (pageKind (pageOf d pg.toNat) = .zero) ∧ (off.toNat % 4 = 0)) (State.reset) (.F) (0x10F) (0x40) (1) (0)) ∧
  ((fun (s : State) (off : BitVec 12) (v : Word) (set : Word) => (off.toNat % 4 = 0) ∧ (off.toNat % 16 ≠ 12 ∨ natBit (msixWord s (off.toNat / 4)).toNat 0 = false ∨ natBit v.toNat 0 = true)) (State.reset) (0x48) (0xFEE00000) (0)) ∧
  ((fun (s : State) (pg : BitVec 12) (off : BitVec 12) (v : Word) (set : Word) => (pageKind pg.toNat = .none ∨ off.toNat % 4 ≠ 0)) (State.reset) (0x013) (0x42) (5) (0)) ∧
  ((fun (s : State) (pg : BitVec 12) (off : BitVec 12) (v : Word) (set : Word) => (¬ mayWrite .H pg.toNat ∨ pageKind (0x1000 + pg.toNat) = .none ∨ off.toNat % 4 ≠ 0)) (State.reset) (0x90) (0x40) (5) (0)) :=
  ⟨by decide +kernel, by decide +kernel, by decide +kernel, by decide +kernel, by decide +kernel⟩
theorem test_met_PageHeaders_1 :
  ((fun (s : State) (d : Die) (pg : BitVec 12) => (mayWrite d pg.toNat) ∧ (pageKind (pageOf d pg.toNat) = .regs)) (State.reset) (.F) (0x110)) ∧
  ((fun (s : State) (d : Die) (pg : BitVec 12) => (mayWrite d pg.toNat) ∧ (pageKind (pageOf d pg.toNat) = .regs) ∧ (natBit (s.rd (rPAGE_CTRL (pageOf d pg.toNat))).toNat 1 = false)) (State.reset) (.F) (0x111)) ∧
  ((fun (s : State) (d : Die) (pg : BitVec 12) => (mayWrite d pg.toNat) ∧ (pageKind (pageOf d pg.toNat) = .regs) ∧ (natBit (s.rd (rPAGE_CTRL (pageOf d pg.toNat))).toNat 1 = false) ∧ (s.evHeld = [])) (State.reset.setFlag (fPAGE_CTRL_FREEZE 0x111) true) (.F) (0x111)) ∧
  ((fun (s : State) (d : Die) (pg : BitVec 12) => (mayWrite d pg.toNat) ∧ (pageKind (pageOf d pg.toNat) = .regs) ∧ (locked s (pageOf d pg.toNat) = true) ∧ (natBit (s.rd (rPAGE_CTRL (pageOf d pg.toNat))).toNat 2 = s.flag (fPAGE_CTRL_FREEZE (pageOf d pg.toNat)))) ((State.reset.setFlag (fPAGE_LOCK_LOCK 0x80) true).setFlag (fPAGE_LOCK_LOCK 0x1020) true) (.F) (0x80)) ∧
  ((fun (s : State) (d : Die) (pg : BitVec 12) => (mayWrite d pg.toNat) ∧ (pageKind (pageOf d pg.toNat) = .regs) ∧ (locked s (pageOf d pg.toNat) = false) ∧ (lockHeld s (pageOf d pg.toNat) = false) ∧ (¬ ownPage (pageOf d pg.toNat))) ((State.reset.wr (rCRY_LSALT + 0) 7).wr (0x120 * 1024 + 17) 0xFFFFFFFF) (.F) (0x120)) ∧
  ((fun (s : State) (d : Die) (pg : BitVec 12) (v : Word) (set : Word) => (mayWrite d pg.toNat) ∧ (pageKind (pageOf d pg.toNat) = .regs)) (State.reset.wr (rEV_PEND 0x110) 0xF0F0) (.F) (0x110) (0x00F0) (0)) ∧
  ((fun (s : State) (d : Die) (pg : BitVec 12) (v : Word) => (mayWrite d pg.toNat) ∧ (pageKind (pageOf d pg.toNat) = .regs) ∧ (v &&& ~~~(s.rd (rEV_EN (pageOf d pg.toNat))) &&& s.rd (rEV_PEND (pageOf d pg.toNat)) = 0)) ((State.reset.wr (rEV_PEND 0x110) 0xF0F0).wr (rEV_EN 0x110) 0x00F0) (.F) (0x110) (0x0F0F)) ∧
  ((fun (s : State) (pg : BitVec 12) (v : Word) (b : Fin 32) => (mayWrite .H pg.toNat) ∧ (pageKind (0x1000 + pg.toNat) = .regs) ∧ (v &&& ~~~(s.rd (rEV_EN (0x1000 + pg.toNat))) &&& s.rd (rEV_PEND (0x1000 + pg.toNat)) = BitVec.ofNat 32 (2 ^ b.val)) ∧ (frozen s (0x1000 + pg.toNat) = false)) ((State.reset.wr (rEV_PEND 0x1060) 0xF0F0).wr (rEV_EN 0x1060) 0xF000) (0x60) (0xF080) (7)) :=
  ⟨by decide +kernel, by decide +kernel, by decide +kernel, by decide +kernel, by decide +kernel, by decide +kernel, by decide +kernel, by decide +kernel⟩
theorem test_met_PageHeaders_2 :
  (fun (s : State) (pg : BitVec 12) (v : Word) (b : Fin 32) => (pageKind pg.toNat = .regs) ∧ (v &&& ~~~(s.rd (rEV_EN pg.toNat)) &&& s.rd (rEV_PEND pg.toNat) = BitVec.ofNat 32 (2 ^ b.val)) ∧ (frozen s pg.toNat = false) ∧ (s.flag (fEV_ROUTE_DEST pg.toNat) = false) ∧ (slUp s = true)) (((State.reset.wr (rEV_PEND 0x110) 0xF0F0).wr (rEV_EN 0x110) 0xF000).wr rSL_PSTAT 3) (0x110) (0xF080) (7) := by decide +kernel
theorem test_met_IntegerGroup :
  ((fun (s : State) (c : Fin 5) (h : Hdr) (x : Xl) (fn : AluFn) (d : BitVec 5) (a : BitVec 5) (b : BitVec 5) => (Lone s c.val h x) ∧ ((unary fn = true → b = 0))) (wE 0 (ww [(3, 0x80000001), (5, 0xFFFFFFFF), (16, 7), (17, 40)])) (0) (wH) (wX 0) (.add) (4) (3) (5)) ∧
  ((fun (s : State) (c : Fin 5) (h : Hdr) (x : Xl) (fn : ImmFn) (d : BitVec 5) (a : BitVec 5) (imm : BitVec 11) => (Lone s c.val h x)) (wE 0 (ww [(3, 0x80000001), (5, 0xFFFFFFFF), (16, 7), (17, 40)])) (0) (wH) (wX 0) (.addi) (9) (3) (0x7FF)) ∧
  ((fun (s : State) (c : Fin 5) (h : Hdr) (x : Xl) (d : BitVec 5) (a : BitVec 5) (k : Fin 4) (n : Fin 32) => (Lone s c.val h x)) (wE 0 (ww [(3, 0x80000001), (5, 0xFFFFFFFF), (16, 7), (17, 40)])) (0) (wH) (wX 0) (9) (3) (2) (31)) ∧
  ((fun (s : State) (c : Fin 5) (h : Hdr) (x : Xl) (d : BitVec 5) (imm : BitVec 16) => (Lone s c.val h x)) (wE 0 (ww [(3, 0x80000001), (5, 0xFFFFFFFF), (16, 7), (17, 40)])) (0) (wH) (wX 0) (9) (0x8000)) ∧
  ((fun (s : State) (c : Fin 5) (h : Hdr) (x : Xl) (d : BitVec 5) (imm : BitVec 16) => (Lone s c.val h x)) (wE 0 (ww [(3, 0x80000001), (5, 0xFFFFFFFF), (16, 7), (17, 40)])) (0) (wH) (wX 0) (3) (0x1234)) :=
  ⟨by decide +kernel, by decide +kernel, by decide +kernel, by decide +kernel, by decide +kernel⟩
theorem test_met_ComparesAndPredicates :
  ((fun (s : State) (c : Fin 5) (h : Hdr) (x : Xl) (d : BitVec 5) (a : BitVec 5) (b : BitVec 5) (cond : BitVec 6) => (Lone s c.val h x) ∧ (d.toNat < 8) ∧ (cond.toNat ≤ 10)) ((wE 0 fun c => { c with w := [(3, 0x80000001), (5, 0xFFFFFFFF)], p := [(1, 0x0F), (2, 0x33), (7, 1)] })) (0) (wH) (wX 0) (7) (3) (5) (10)) ∧
  ((fun (s : State) (c : Fin 5) (h : Hdr) (x : Xl) (pd : BitVec 3) (cond : BitVec 4) (a : BitVec 5) (imm : BitVec 9) => (Lone s c.val h x) ∧ (cond.toNat ≤ 10)) ((wE 4 fun c => { c with w := [(3, 0x80000001), (5, 0xFFFFFFFF)], p := [(1, 0x0F), (2, 0x33), (7, 1)] })) (4) (wH) (wX 4) (7) (10) (5) (0x100)) ∧
  ((fun (s : State) (c : Fin 5) (h : Hdr) (x : Xl) (fn : PredFn) (d : BitVec 5) (a : BitVec 5) (b : BitVec 5) => (Lone s c.val h x) ∧ (fn ≠ .pmovw) ∧ (fn ≠ .wmovp) ∧ (d.toNat < 8) ∧ (a.toNat < 8) ∧ (b.toNat < 8)) ((wE 0 fun c => { c with w := [(3, 0x80000001), (5, 0xFFFFFFFF)], p := [(1, 0x0F), (2, 0x33), (7, 1)] })) (0) (wH) (wX 0) (.pandn) (7) (1) (2)) ∧
  ((fun (s : State) (c : Fin 5) (h : Hdr) (x : Xl) (d : BitVec 5) (a : BitVec 5) (b : BitVec 5) => (Lone s c.val h x) ∧ (d.toNat < 8) ∧ (b.toNat < 8)) ((wE 0 fun c => { c with w := [(3, 0x80000001), (5, 0xFFFFFFFF)], p := [(1, 0x0F), (2, 0x33), (7, 1)] })) (0) (wH) (wX 0) (7) (3) (0)) ∧
  ((fun (s : State) (c : Fin 5) (h : Hdr) (x : Xl) (d : BitVec 5) (a : BitVec 5) (b : BitVec 5) => (Lone s c.val h x) ∧ (a.toNat < 8) ∧ (b.toNat < 8)) ((wE 0 fun c => { c with w := [(3, 0x80000001), (5, 0xFFFFFFFF)], p := [(1, 0x0F), (2, 0x33), (7, 1)] })) (0) (⟨true,true,3,false,none⟩) (wX 0) (9) (2) (0)) :=
  ⟨by decide +kernel, by decide +kernel, by decide +kernel, by decide +kernel, by decide +kernel⟩
theorem test_met_MultiplyDivideDecimal :
  ((fun (s : State) (c : Fin 5) (h : Hdr) (x : Xl) (fn : MulFn) (d : BitVec 5) (a : BitVec 5) (b : BitVec 5) => (Lone s c.val h x)) ((wE 0 fun c => { c with w := [(2, 0x12345678), (3, 0x80000000), (5, 0xFFFFFFFF), (6, 0x00000099), (7, 0x99999999)] })) (0) (wH) (wX 0) (.mulq) (9) (3) (3)) ∧
  ((fun (s : State) (c : Fin 5) (h : Hdr) (x : Xl) (d : BitVec 5) (a : BitVec 5) (b : BitVec 5) => (Lone s c.val h x) ∧ (d.toNat % 2 = 0)) ((wE 0 fun c => { c with w := [(2, 0x12345678), (3, 0x80000000), (5, 0xFFFFFFFF), (6, 0x00000099), (7, 0x99999999)] })) (0) (wH) (wX 0) (10) (3) (6)) ∧
  ((fun (s : State) (c : Fin 5) (h : Hdr) (x : Xl) (d : BitVec 5) (a : BitVec 5) (b : BitVec 5) => (Lone s c.val h x) ∧ (d.toNat % 2 = 0)) ((wE 0 fun c => { c with w := [(2, 0x12345678), (3, 0x80000000), (5, 0xFFFFFFFF), (6, 0x00000099), (7, 0x99999999)] })) (0) (wH) (wX 0) (10) (3) (5)) ∧
  ((fun (s : State) (c : Fin 5) (d : PDiv) => (frozen s (corePg c.val) = false) ∧ (Idle s c.val) ∧ ((s.core c.val).pend = []) ∧ ((s.core c.val).div = some d) ∧ (d.m1 = 0xFFFFFFFF) ∧ (d.m2 = 0xFFFFFFFF)) ((wE 0 fun c => { c with div := some ⟨18, 19, 5, 6, 0x2000, 9, 0xFFFFFFFF, 0xFFFFFFFF⟩ })) (0) (⟨18, 19, 5, 6, 0x2000, 9, 0xFFFFFFFF, 0xFFFFFFFF⟩)) ∧
  ((fun (s : State) (c : Fin 5) (h : Hdr) (x : Xl) (fn : BcdFn) (d : BitVec 5) (a : BitVec 5) (b : BitVec 5) => (Lone s c.val h x) ∧ (bcdGood fn ((s.core c.val).rdW a.toNat) ((s.core c.val).rdW b.toNat) = true)) ((wE 0 fun c => { c with w := [(2, 0x12345678), (3, 0x80000000), (5, 0xFFFFFFFF), (6, 0x00000099), (7, 0x99999999)] })) (0) (wH) (wX 0) (.badd) (9) (7) (6)) ∧
  ((fun (s : State) (c : Fin 5) (h : Hdr) (x : Xl) (fn : BcdFn) (d : BitVec 5) (a : BitVec 5) (b : BitVec 5) => (Lone s c.val h x) ∧ (bcdGood fn ((s.core c.val).rdW a.toNat) ((s.core c.val).rdW b.toNat) = false) ∧ (natBit (s.core c.val).status.toNat 16 = false)) ((wE 0 fun c => { c with w := [(2, 0x12345678), (3, 0x80000000), (5, 0xFFFFFFFF), (6, 0x00000099), (7, 0x99999999)] })) (0) (wH) (wX 0) (.badd) (9) (7) (5)) ∧
  ((fun (s : State) (c : Fin 5) (h : Hdr) (x : Xl) (fn : BcdFn) (d : BitVec 5) (a : BitVec 5) (b : BitVec 5) (v : Nat × Bool × Nat) => (Lone s c.val h x) ∧ (CanEnter s c.val vBCD v) ∧ (bcdGood fn ((s.core c.val).rdW a.toNat) ((s.core c.val).rdW b.toNat) = false) ∧ (natBit (s.core c.val).status.toNat 16 = true)) ((wV 15 fun c => { c with w := [(5, 0xA)], status := 0x10000 })) (0) (wH) (wX 0) (.btob) (9) (5) (0) (hv)) :=
  ⟨by decide +kernel, by decide +kernel, by decide +kernel, by decide +kernel, by decide +kernel, by decide +kernel, by decide +kernel⟩
theorem test_met_LocalMemory :
  ((fun (s : State) (c : Fin 5) (h : Hdr) (x : Xl) => (AtBundle s c.val none x) ∧ (Alone h) ∧ (h.gn = false) ∧ (h.gp = 0) ∧ (NoEnd (s.core c.val))) (wE 0 id) (0) (wH) (wX 0)) ∧
  ((fun (s : State) (c : Fin 5) (h : Hdr) (x : Xl) (d : BitVec 5) (a : BitVec 5) (sz : BitVec 3) (off : BitVec 8) => (Lone s c.val h x) ∧ (legalSz true sz d) ∧ (LocalOk s c.val a off (sizeW sz.toNat) 2)) (({ wE 2 (fun c => { c with bank := 0x8000000E, w := [(3, 0x81F0), (4, 0xFFF4), (6, 0x12345678), (7, 0x9ABCDEF0)], f := [(2, 0x1122334455667788), (3, 0x99AABBCC3F810000)] }) with lmem := putList [] 0x102281D0 (bytesOfNat 64 0x11F2E3D4C5B6A79887968778695A4B3C2D1E0FF1E2D3C4B5A69788796A5B4C3D2E1F) })) (2) (wH) (wX 2) (8) (3) (5) (0xFE)) ∧
  ((fun (s : State) (c : Fin 5) (h : Hdr) (x : Xl) (d : BitVec 5) (a : BitVec 5) (sz : BitVec 3) (off : BitVec 8) => (Lone s c.val h x) ∧ (legalSz false sz d) ∧ (LocalOk s c.val a off (sizeW sz.toNat) 3)) (({ wE 2 (fun c => { c with bank := 0x8000000E, w := [(3, 0x81F0), (4, 0xFFF4), (6, 0x12345678), (7, 0x9ABCDEF0)], f := [(2, 0x1122334455667788), (3, 0x99AABBCC3F810000)] }) with lmem := putList [] 0x102281D0 (bytesOfNat 64 0x11F2E3D4C5B6A79887968778695A4B3C2D1E0FF1E2D3C4B5A69788796A5B4C3D2E1F) })) (2) (wH) (wX 2) (6) (3) (5) (0xFE)) ∧
  ((fun (s : State) (c : Fin 5) (h : Hdr) (x : Xl) (d : BitVec 6) (a : BitVec 5) (sz : BitVec 2) (off : BitVec 8) => (Lone s c.val h x) ∧ (legalFp sz d) ∧ (LocalOk s c.val a off (sizeF sz.toNat) 2)) (({ wE 2 (fun c => { c with bank := 0x8000000E, w := [(3, 0x81F0), (4, 0xFFF4), (6, 0x12345678), (7, 0x9ABCDEF0)], f := [(2, 0x1122334455667788), (3, 0x99AABBCC3F810000)] }) with lmem := putList [] 0x102281D0 (bytesOfNat 64 0x11F2E3D4C5B6A79887968778695A4B3C2D1E0FF1E2D3C4B5A69788796A5B4C3D2E1F) })) (2) (wH) (wX 2) (2) (3) (3) (0xFF)) ∧
  ((fun (s : State) (c : Fin 5) (h : Hdr) (x : Xl) (d : BitVec 6) (a : BitVec 5) (sz : BitVec 2) (off : BitVec 8) => (Lone s c.val h x) ∧ (legalFp sz d) ∧ (LocalOk s c.val a off (sizeF sz.toNat) 3)) (({ wE 2 (fun c => { c with bank := 0x8000000E, w := [(3, 0x81F0), (4, 0xFFF4), (6, 0x12345678), (7, 0x9ABCDEF0)], f := [(2, 0x1122334455667788), (3, 0x99AABBCC3F810000)] }) with lmem := putList [] 0x102281D0 (bytesOfNat 64 0x11F2E3D4C5B6A79887968778695A4B3C2D1E0FF1E2D3C4B5A69788796A5B4C3D2E1F) })) (2) (wH) (wX 2) (2) (3) (3) (0xFF)) ∧
  ((fun (s : State) (c : Fin 5) (h : Hdr) (x : Xl) (d : BitVec 5) (a : BitVec 5) (sz : BitVec 3) (off : BitVec 8) (v : Nat × Bool × Nat) => (Lone s c.val h x) ∧ (legalSz true sz d) ∧ (c.val < 4) ∧ (CanEnter s c.val vALIGN v) ∧ (shortAt (s.core c.val) a off (sizeW sz.toNat) % sizeW sz.toNat ≠ 0)) ((wV 4 fun c => { c with w := [(3, 0x101)], bank := 0x8000000C })) (0) (wH) (wX 0) (8) (3) (4) (0x80) (hv)) ∧
  ((fun (s : State) (c : Fin 5) (h : Hdr) (x : Xl) (d : BitVec 5) (a : BitVec 5) (sz : BitVec 3) (off : BitVec 8) (v : Nat × Bool × Nat) => (Lone s c.val h x) ∧ (legalSz false sz d) ∧ (c.val < 4) ∧ (CanEnter s c.val vLOCAL v) ∧ (shortAt (s.core c.val) a off (sizeW sz.toNat) % sizeW sz.toNat = 0) ∧ (natBit (s.core c.val).bank.toNat 31 = false ∨ natBit (s.core c.val).bank.toNat 3 = false)) ((wV 5 fun c => { c with w := [(3, 0x101)], bank := 0x80000004 })) (0) (wH) (wX 0) (8) (3) (0) (0x80) (hv)) :=
  ⟨by decide +kernel, by decide +kernel, by decide +kernel, by decide +kernel, by decide +kernel, by decide +kernel, by decide +kernel⟩
theorem test_met_GlobalMemory :
  ((fun (s : State) (c : Fin 5) (h : Hdr) (x : Xl) (y : Xl) (d : BitVec 5) (k : BitVec 4) (a : BitVec 5) (sz : BitVec 3) (off : BitVec 4) => (Lone s c.val h x) ∧ (legalSz true sz d) ∧ (Allowed s c.val .load false ((s.core c.val).rdC k.toNat) (globalAt (s.core c.val) k.toNat a off (sizeW sz.toNat)) (sizeW sz.toNat) 0 y) ∧ (Room s c.val)) ((wE 1 fun c => { c with c := [(2, Cap.root), (3, ⟨true, BitVec.ofNat 128 (0xFF_FFFF_FFFF * 2 ^ 40 - 0x100000000 * 2 ^ 40 + 0xFFFF * 2 ^ 80 + 0x40000000)⟩), (4, Cap.make 0x1000 0x100 0x3 7)], w := [(3, 0x1010), (4, 0x10000FF0), (6, 0xCAFEBABE), (7, 0x9ABCDEF0)], f := [(2, 0x1122334455667788), (3, 0x99AABBCC3F810000)], status := 0x400 })) (1) (wH) (wX 1) (⟨0x1008, 7, false, none⟩) (8) (2) (3) (5) (0xF)) ∧
  ((fun (s : State) (c : Fin 5) (h : Hdr) (x : Xl) (y : Xl) (d : BitVec 5) (k : BitVec 4) (a : BitVec 5) (sz : BitVec 3) (off : BitVec 4) => (Lone s c.val h x) ∧ (legalSz false sz d) ∧ (Allowed s c.val .store false ((s.core c.val).rdC k.toNat) (globalAt (s.core c.val) k.toNat a off (sizeW sz.toNat)) (sizeW sz.toNat) (natOfBytes (storeBytes sz.toNat d.toNat (s.core c.val))) y) ∧ (Writable s y.pa)) ((wE 1 fun c => { c with c := [(2, Cap.root), (3, ⟨true, BitVec.ofNat 128 (0xFF_FFFF_FFFF * 2 ^ 40 - 0x100000000 * 2 ^ 40 + 0xFFFF * 2 ^ 80 + 0x40000000)⟩), (4, Cap.make 0x1000 0x100 0x3 7)], w := [(3, 0x1010), (4, 0x10000FF0), (6, 0xCAFEBABE), (7, 0x9ABCDEF0)], f := [(2, 0x1122334455667788), (3, 0x99AABBCC3F810000)], status := 0x400 })) (1) (wH) (wX 1) (⟨0x1008, 7, false, none⟩) (6) (2) (3) (5) (0xF)) ∧
  ((fun (s : State) (c : Fin 5) (h : Hdr) (x : Xl) (y : Xl) (d : BitVec 6) (k : BitVec 4) (a : BitVec 5) (sz : BitVec 2) (off : BitVec 4) => (Lone s c.val h x) ∧ (legalFp sz d) ∧ ((c.val = 4 → sz ≠ 3)) ∧ (Allowed s c.val .load false ((s.core c.val).rdC k.toNat) (globalAt (s.core c.val) k.toNat a off (sizeF sz.toNat)) (sizeF sz.toNat) 0 y) ∧ (Room s c.val)) ((wE 1 fun c => { c with c := [(2, Cap.root), (3, ⟨true, BitVec.ofNat 128 (0xFF_FFFF_FFFF * 2 ^ 40 - 0x100000000 * 2 ^ 40 + 0xFFFF * 2 ^ 80 + 0x40000000)⟩), (4, Cap.make 0x1000 0x100 0x3 7)], w := [(3, 0x1010), (4, 0x10000FF0), (6, 0xCAFEBABE), (7, 0x9ABCDEF0)], f := [(2, 0x1122334455667788), (3, 0x99AABBCC3F810000)], status := 0x400 })) (1) (wH) (wX 1) (⟨0x1000, 7, false, none⟩) (2) (2) (3) (3) (0xF)) ∧
  ((fun (s : State) (c : Fin 5) (h : Hdr) (x : Xl) (y : Xl) (d : BitVec 6) (k : BitVec 4) (a : BitVec 5) (sz : BitVec 2) (off : BitVec 4) => (Lone s c.val h x) ∧ (legalFp sz d) ∧ ((c.val = 4 → sz ≠ 3)) ∧ (Allowed s c.val .store false ((s.core c.val).rdC k.toNat) (globalAt (s.core c.val) k.toNat a off (sizeF sz.toNat)) (sizeF sz.toNat) (natOfBytes (fpBytesOf sz.toNat d.toNat (s.core c.val))) y) ∧ (Writable s y.pa)) ((wE 1 fun c => { c with c := [(2, Cap.root), (3, ⟨true, BitVec.ofNat 128 (0xFF_FFFF_FFFF * 2 ^ 40 - 0x100000000 * 2 ^ 40 + 0xFFFF * 2 ^ 80 + 0x40000000)⟩), (4, Cap.make 0x1000 0x100 0x3 7)], w := [(3, 0x1010), (4, 0x10000FF0), (6, 0xCAFEBABE), (7, 0x9ABCDEF0)], f := [(2, 0x1122334455667788), (3, 0x99AABBCC3F810000)], status := 0x400 })) (1) (wH) (wX 1) (⟨0x1000, 7, false, none⟩) (2) (2) (3) (3) (0xF)) ∧
  ((fun (s : State) (c : Fin 5) (h : Hdr) (x : Xl) (y : Xl) (d : BitVec 5) (a : BitVec 5) (b : BitVec 5) => (Lone s c.val h x) ∧ (d.toNat < 16) ∧ (b.toNat < 16) ∧ (Allowed s c.val .kld false ((s.core c.val).rdC b.toNat) (((s.core c.val).rdC b.toNat).base + ((s.core c.val).rdW a.toNat).toNat) 16 0 y) ∧ (Room s c.val)) ((wE 1 fun c => { c with c := [(2, Cap.root), (3, ⟨true, BitVec.ofNat 128 (0xFF_FFFF_FFFF * 2 ^ 40 - 0x100000000 * 2 ^ 40 + 0xFFFF * 2 ^ 80 + 0x40000000)⟩), (4, Cap.make 0x1000 0x100 0x3 7)], w := [(3, 0x1010), (4, 0x10000FF0), (6, 0xCAFEBABE), (7, 0x9ABCDEF0)], f := [(2, 0x1122334455667788), (3, 0x99AABBCC3F810000)], status := 0x400 })) (1) (wH) (wX 1) (⟨0x1010, 7, false, none⟩) (5) (3) (2)) ∧
  ((fun (s : State) (c : Fin 5) (h : Hdr) (x : Xl) (y : Xl) (d : BitVec 5) (a : BitVec 5) (b : BitVec 5) => (Lone s c.val h x) ∧ (d.toNat < 16) ∧ (b.toNat < 16) ∧ (Allowed s c.val .kst ((s.core c.val).rdC d.toNat).live ((s.core c.val).rdC b.toNat) (((s.core c.val).rdC b.toNat).base + ((s.core c.val).rdW a.toNat).toNat) 16 0 y) ∧ (Writable s y.pa)) ((wE 1 fun c => { c with c := [(2, Cap.root), (3, ⟨true, BitVec.ofNat 128 (0xFF_FFFF_FFFF * 2 ^ 40 - 0x100000000 * 2 ^ 40 + 0xFFFF * 2 ^ 80 + 0x40000000)⟩), (4, Cap.make 0x1000 0x100 0x3 7)], w := [(3, 0x1010), (4, 0x10000FF0), (6, 0xCAFEBABE), (7, 0x9ABCDEF0)], f := [(2, 0x1122334455667788), (3, 0x99AABBCC3F810000)], status := 0x400 })) (1) (wH) (wX 1) (⟨0x1010, 7, false, none⟩) (4) (3) (2)) ∧
  ((fun (s : State) (c : Fin 5) (h : Hdr) (x : Xl) (y : Xl) (d : BitVec 5) (a : BitVec 5) => (Lone s c.val h x) ∧ (d.toNat % 2 = 0) ∧ ((s.core c.val).pcc.perm pSYS = true) ∧ (((s.core c.val).rdW a.toNat).toNat % 8 = 0) ∧ ((translateWalk c.val (s.core c.val) ((s.core c.val).rdW a.toNat).toNat).toOption = some y) ∧ (Room s c.val)) ((wE 1 fun c => { c with c := [(2, Cap.root), (3, ⟨true, BitVec.ofNat 128 (0xFF_FFFF_FFFF * 2 ^ 40 - 0x100000000 * 2 ^ 40 + 0xFFFF * 2 ^ 80 + 0x40000000)⟩), (4, Cap.make 0x1000 0x100 0x3 7)], w := [(3, 0x1010), (4, 0x10000FF0), (6, 0xCAFEBABE), (7, 0x9ABCDEF0)], f := [(2, 0x1122334455667788), (3, 0x99AABBCC3F810000)], status := 0x400 })) (1) (wH) (wX 1) (⟨0x1010, 7, false, none⟩) (8) (3)) ∧
  ((fun (s : State) (c : Fin 5) (l : PLoad) => (frozen s (corePg c.val) = false) ∧ (Idle s c.val) ∧ ((s.core c.val).pend = []) ∧ ((s.core c.val).fdivs = []) ∧ ((s.core c.val).loads = [l]) ∧ (notPanq l = true) ∧ (l.early = none) ∧ (l.cuts = []) ∧ (Readable s c.val l.pa l.size)) (({ wE 1 (fun c => { c with loads := [⟨0x1010, 8, .int 5 18 19, 3, none, []⟩] }) with sal := { State.reset.sal with mem := putList [] 0x1010 (bytesOfNat 16 0x00010003000000010000000000001000), tag := [(0x101, true)] } })) (1) (⟨0x1010, 8, .int 5 18 19, 3, none, []⟩)) :=
  ⟨by decide +kernel, by decide +kernel, by decide +kernel, by decide +kernel, by decide +kernel, by decide +kernel, by decide +kernel, by decide +kernel⟩
theorem test_met_AccessChecks :
  ((fun (s : State) (c : Fin 5) (h : Hdr) (x : Xl) (d : BitVec 5) (k : BitVec 4) (a : BitVec 5) (sz : BitVec 3) (off : BitVec 4) (v : Nat × Bool × Nat) => (Lone s c.val h x) ∧ (legalSz true sz d) ∧ (Room s c.val) ∧ (CanEnter s c.val vTAG v) ∧ (((s.core c.val).rdC k.toNat).live = false)) ((wV 6 fun c => { c with c := [(2, Cap.zero)], w := [(3, 0x1010)] })) (0) (wH) (wX 0) (8) (2) (3) (4) (0) (hv)) ∧
  ((fun (s : State) (c : Fin 5) (h : Hdr) (x : Xl) (d : BitVec 5) (k : BitVec 4) (a : BitVec 5) (sz : BitVec 3) (off : BitVec 4) (v : Nat × Bool × Nat) => (Lone s c.val h x) ∧ (legalSz true sz d) ∧ (Room s c.val) ∧ (CanEnter s c.val vSEAL v) ∧ (((s.core c.val).rdC k.toNat).live = true) ∧ (((s.core c.val).rdC k.toNat).sealed = true)) ((wV 7 fun c => { c with c := [(2, Cap.make 0x1000 0x100 0x3 7)], w := [(3, 0x1010)] })) (0) (wH) (wX 0) (8) (2) (3) (4) (0) (hv)) ∧
  ((fun (s : State) (c : Fin 5) (h : Hdr) (x : Xl) (d : BitVec 5) (k : BitVec 4) (a : BitVec 5) (sz : BitVec 3) (off : BitVec 4) (v : Nat × Bool × Nat) => (Lone s c.val h x) ∧ (legalSz true sz d) ∧ (Room s c.val) ∧ (CanEnter s c.val vPERM v) ∧ (((s.core c.val).rdC k.toNat).live = true) ∧ (((s.core c.val).rdC k.toNat).sealed = false) ∧ ((needPerms s (coreDie c.val) .load false (globalAt (s.core c.val) k.toNat a off (sizeW sz.toNat)) (sizeW sz.toNat) 0).all ((s.core c.val).rdC k.toNat).perm = false)) ((wV 8 fun c => { c with c := [(2, Cap.make 0x1000 0x100 0x2 0)], w := [(3, 0x1010)] })) (0) (wH) (wX 0) (8) (2) (3) (4) (0) (hv)) ∧
  ((fun (s : State) (c : Fin 5) (h : Hdr) (x : Xl) (d : BitVec 5) (k : BitVec 4) (a : BitVec 5) (sz : BitVec 3) (off : BitVec 4) (v : Nat × Bool × Nat) => (Lone s c.val h x) ∧ (legalSz true sz d) ∧ (Room s c.val) ∧ (CanEnter s c.val vBOUND v) ∧ (((s.core c.val).rdC k.toNat).live = true) ∧ (((s.core c.val).rdC k.toNat).sealed = false) ∧ ((needPerms s (coreDie c.val) .load false (globalAt (s.core c.val) k.toNat a off (sizeW sz.toNat)) (sizeW sz.toNat) 0).all ((s.core c.val).rdC k.toNat).perm = true) ∧ (((s.core c.val).rdC k.toNat).covers (globalAt (s.core c.val) k.toNat a off (sizeW sz.toNat)) (sizeW sz.toNat) = false)) ((wV 9 fun c => { c with c := [(2, Cap.make 0x1000 0x100 0x1 0)], w := [(3, 0xFF)] })) (0) (wH) (wX 0) (8) (2) (3) (4) (0) (hv)) ∧
  ((fun (s : State) (c : Fin 5) (h : Hdr) (x : Xl) (d : BitVec 5) (k : BitVec 4) (a : BitVec 5) (sz : BitVec 3) (off : BitVec 4) (v : Nat × Bool × Nat) => (Lone s c.val h x) ∧ (legalSz true sz d) ∧ (Room s c.val) ∧ (CanEnter s c.val vALIGN v) ∧ (((s.core c.val).rdC k.toNat).live = true) ∧ (((s.core c.val).rdC k.toNat).sealed = false) ∧ ((needPerms s (coreDie c.val) .load false (globalAt (s.core c.val) k.toNat a off (sizeW sz.toNat)) (sizeW sz.toNat) 0).all ((s.core c.val).rdC k.toNat).perm = true) ∧ (((s.core c.val).rdC k.toNat).covers (globalAt (s.core c.val) k.toNat a off (sizeW sz.toNat)) (sizeW sz.toNat) = true) ∧ ((globalAt (s.core c.val) k.toNat a off (sizeW sz.toNat)) % (sizeW sz.toNat) ≠ 0)) ((wV 4 fun c => { c with c := [(2, Cap.make 0x1000 0x100 0x1 0)], w := [(3, 0x13)] })) (0) (wH) (wX 0) (8) (2) (3) (4) (0) (hv)) ∧
  ((fun (s : State) (c : Fin 5) (h : Hdr) (x : Xl) (d : BitVec 5) (k : BitVec 4) (a : BitVec 5) (sz : BitVec 3) (off : BitVec 4) (v : Nat × Bool × Nat) => (Lone s c.val h x) ∧ (legalSz true sz d) ∧ (Room s c.val) ∧ (CanEnter s c.val vXLATE v) ∧ (c.val < 4) ∧ ((s.core c.val).blkMode = 1) ∧ (capCheck s .F .load false ((s.core c.val).rdC k.toNat) (globalAt (s.core c.val) k.toNat a off (sizeW sz.toNat)) (sizeW sz.toNat) (sizeW sz.toNat) 0 = none) ∧ ((∀ i : Fin 16, blkMatch (s.core c.val) i.val (globalAt (s.core c.val) k.toNat a off (sizeW sz.toNat)) = false))) ((wV 20 fun c => { c with c := [(2, Cap.root)], w := [(3, 0x101)], blkMode := 1, blk := [(1, ⟨0xFFFF0, 16, 0xFFFF0, 0x80000024⟩)] })) (0) (wH) (⟨0xFFFF0000, 4, true, some 1⟩) (8) (2) (3) (0) (0) (hv)) :=
  ⟨by decide +kernel, by decide +kernel, by decide +kernel, by decide +kernel, by decide +kernel, by decide +kernel⟩
theorem test_met_CapabilityGroup_1 :
  ((fun (s : State) (c : Fin 5) (h : Hdr) (x : Xl) (d : BitVec 5) (a : BitVec 5) (b : BitVec 5) => (Lone s c.val h x) ∧ (d.toNat < 16) ∧ (a.toNat < 16)) ((wE 1 fun c => { c with c := [(2, Cap.make 0x12345678AB 0x2345678901 0x20FF 0), (3, Cap.make 5 100 0x2000 0), (4, Cap.make 0x1000 0x100 0x3 7)], sc := [(1, Cap.make 1 2 3 4)], w := [(6, 0x100), (7, 0x2000), (3, 0x10009)] })) (1) (wH) (wX 1) (5) (4) (0)) ∧
  ((fun (s : State) (c : Fin 5) (h : Hdr) (x : Xl) (d : BitVec 5) (a : BitVec 5) (b : BitVec 5) => (Lone s c.val h x) ∧ (d.toNat < 16) ∧ (a.toNat < 16)) ((wE 1 fun c => { c with c := [(2, Cap.make 0x12345678AB 0x2345678901 0x20FF 0), (3, Cap.make 5 100 0x2000 0), (4, Cap.make 0x1000 0x100 0x3 7)], sc := [(1, Cap.make 1 2 3 4)], w := [(6, 0x100), (7, 0x2000), (3, 0x10009)] })) (1) (wH) (wX 1) (5) (4) (0)) ∧
  ((fun (s : State) (c : Fin 5) (h : Hdr) (x : Xl) (d : BitVec 5) (a : BitVec 5) (b : BitVec 5) => (Lone s c.val h x) ∧ (a.toNat < 16) ∧ (b.toNat ≤ 6)) ((wE 1 fun c => { c with c := [(2, Cap.make 0x12345678AB 0x2345678901 0x20FF 0), (3, Cap.make 5 100 0x2000 0), (4, Cap.make 0x1000 0x100 0x3 7)], sc := [(1, Cap.make 1 2 3 4)], w := [(6, 0x100), (7, 0x2000), (3, 0x10009)] })) (1) (wH) (wX 1) (5) (2) (6)) ∧
  ((fun (s : State) (c : Fin 5) (h : Hdr) (x : Xl) (d : BitVec 5) (a : BitVec 5) (b : BitVec 5) => (Lone s c.val h x) ∧ ((s.core c.val).pcc.perm pSYS = true) ∧ (d.toNat < 16)) ((wE 1 fun c => { c with c := [(2, Cap.make 0x12345678AB 0x2345678901 0x20FF 0), (3, Cap.make 5 100 0x2000 0), (4, Cap.make 0x1000 0x100 0x3 7)], sc := [(1, Cap.make 1 2 3 4)], w := [(6, 0x100), (7, 0x2000), (3, 0x10009)] })) (1) (wH) (wX 1) (5) (0) (1)) ∧
  ((fun (s : State) (c : Fin 5) (h : Hdr) (x : Xl) (d : BitVec 5) (a : BitVec 5) (b : BitVec 5) => (Lone s c.val h x) ∧ ((s.core c.val).pcc.perm pSYS = true) ∧ (a.toNat < 16) ∧ (d = 0)) ((wE 1 fun c => { c with c := [(2, Cap.make 0x12345678AB 0x2345678901 0x20FF 0), (3, Cap.make 5 100 0x2000 0), (4, Cap.make 0x1000 0x100 0x3 7)], sc := [(1, Cap.make 1 2 3 4)], w := [(6, 0x100), (7, 0x2000), (3, 0x10009)] })) (1) (wH) (wX 1) (0) (2) (3)) ∧
  ((fun (s : State) (c : Fin 5) (h : Hdr) (x : Xl) (d : BitVec 5) (a : BitVec 5) (b : BitVec 5) => (Lone s c.val h x) ∧ (d.toNat < 16) ∧ (a.toNat < 16) ∧ (b.toNat % 2 = 0) ∧ (Open ((s.core c.val).rdC a.toNat)) ∧ (((s.core c.val).rdW b.toNat).toNat + ((s.core c.val).rdW (b.toNat + 1)).toNat ≤ ((s.core c.val).rdC a.toNat).len)) ((wE 1 fun c => { c with c := [(2, Cap.make 0x12345678AB 0x2345678901 0x20FF 0), (3, Cap.make 5 100 0x2000 0), (4, Cap.make 0x1000 0x100 0x3 7)], sc := [(1, Cap.make 1 2 3 4)], w := [(6, 0x100), (7, 0x2000), (3, 0x10009)] })) (1) (wH) (wX 1) (5) (2) (6)) ∧
  ((fun (s : State) (c : Fin 5) (h : Hdr) (x : Xl) (d : BitVec 5) (a : BitVec 5) (b : BitVec 5) => (Lone s c.val h x) ∧ (d.toNat < 16) ∧ (a.toNat < 16) ∧ (Open ((s.core c.val).rdC a.toNat))) ((wE 1 fun c => { c with c := [(2, Cap.make 0x12345678AB 0x2345678901 0x20FF 0), (3, Cap.make 5 100 0x2000 0), (4, Cap.make 0x1000 0x100 0x3 7)], sc := [(1, Cap.make 1 2 3 4)], w := [(6, 0x100), (7, 0x2000), (3, 0x10009)] })) (1) (wH) (wX 1) (5) (2) (3)) ∧
  ((fun (s : State) (c : Fin 5) (h : Hdr) (x : Xl) (d : BitVec 5) (a : BitVec 5) (b : BitVec 5) => (Lone s c.val h x) ∧ (d.toNat < 16) ∧ (a.toNat < 16) ∧ (Open ((s.core c.val).rdC d.toNat)) ∧ (Key ((s.core c.val).rdC a.toNat)) ∧ (0 < ((s.core c.val).rdW b.toNat).toNat % 2 ^ 16) ∧ (((s.core c.val).rdC a.toNat).base ≤ ((s.core c.val).rdW b.toNat).toNat % 2 ^ 16) ∧ (((s.core c.val).rdW b.toNat).toNat % 2 ^ 16 < ((s.core c.val).rdC a.toNat).base + ((s.core c.val).rdC a.toNat).len)) ((wE 1 fun c => { c with c := [(2, Cap.make 0x12345678AB 0x2345678901 0x20FF 0), (3, Cap.make 5 100 0x2000 0), (4, Cap.make 0x1000 0x100 0x3 7)], sc := [(1, Cap.make 1 2 3 4)], w := [(6, 0x100), (7, 0x2000), (3, 0x10009)] })) (1) (wH) (wX 1) (2) (3) (3)) :=
  ⟨by decide +kernel, by decide +kernel, by decide +kernel, by decide +kernel, by decide +kernel, by decide +kernel, by decide +kernel, by decide +kernel⟩
theorem test_met_CapabilityGroup_2 :
  ((fun (s : State) (c : Fin 5) (h : Hdr) (x : Xl) (d : BitVec 5) (a : BitVec 5) (b : BitVec 5) => (Lone s c.val h x) ∧ (d.toNat < 16) ∧ (a.toNat < 16) ∧ (b = 0) ∧ (((s.core c.val).rdC d.toNat).live = true) ∧ (((s.core c.val).rdC d.toNat).sealed = true) ∧ (Key ((s.core c.val).rdC a.toNat)) ∧ (((s.core c.val).rdC a.toNat).base ≤ ((s.core c.val).rdC d.toNat).otype) ∧ (((s.core c.val).rdC d.toNat).otype < ((s.core c.val).rdC a.toNat).base + ((s.core c.val).rdC a.toNat).len)) ((wE 1 fun c => { c with c := [(2, Cap.make 0x12345678AB 0x2345678901 0x20FF 0), (3, Cap.make 5 100 0x2000 0), (4, Cap.make 0x1000 0x100 0x3 7)], sc := [(1, Cap.make 1 2 3 4)], w := [(6, 0x100), (7, 0x2000), (3, 0x10009)] })) (1) (wH) (wX 1) (4) (3) (0)) ∧
  ((fun (s : State) (c : Fin 5) (h : Hdr) (x : Xl) (d : BitVec 5) (a : BitVec 5) (b : BitVec 5) (v : Nat × Bool × Nat) => (Lone s c.val h x) ∧ (d.toNat < 16) ∧ (a.toNat < 16) ∧ (b.toNat % 2 = 0) ∧ (CanEnter s c.val vTAG v) ∧ (((s.core c.val).rdC a.toNat).live = false)) ((wV 6 fun c => { c with c := [(2, ⟨false, 5⟩)], w := [(6, 0x100)] })) (0) (wH) (wX 0) (5) (2) (6) (hv)) ∧
  ((fun (s : State) (c : Fin 5) (h : Hdr) (x : Xl) (d : BitVec 5) (a : BitVec 5) (b : BitVec 5) (v : Nat × Bool × Nat) => (Lone s c.val h x) ∧ (d.toNat < 16) ∧ (a.toNat < 16) ∧ (b.toNat % 2 = 0) ∧ (CanEnter s c.val vSEAL v) ∧ (((s.core c.val).rdC a.toNat).live = true) ∧ (((s.core c.val).rdC a.toNat).sealed = true)) ((wV 7 fun c => { c with c := [(2, Cap.make 5 6 7 8)], w := [(6, 0x100)] })) (0) (wH) (wX 0) (5) (2) (6) (hv)) ∧
  ((fun (s : State) (c : Fin 5) (h : Hdr) (x : Xl) (d : BitVec 5) (a : BitVec 5) (b : BitVec 5) (v : Nat × Bool × Nat) => (Lone s c.val h x) ∧ (d.toNat < 16) ∧ (a.toNat < 16) ∧ (b.toNat % 2 = 0) ∧ (CanEnter s c.val vBOUND v) ∧ (Open ((s.core c.val).rdC a.toNat)) ∧ (((s.core c.val).rdC a.toNat).len < ((s.core c.val).rdW b.toNat).toNat + ((s.core c.val).rdW (b.toNat + 1)).toNat)) ((wV 9 fun c => { c with c := [(2, Cap.make 5 0xFF 7 0)], w := [(6, 0x100)] })) (0) (wH) (wX 0) (5) (2) (6) (hv)) :=
  ⟨by decide +kernel, by decide +kernel, by decide +kernel, by decide +kernel⟩
theorem test_met_Transfers_1 :
  ((fun (s : State) (c : Fin 5) (h : Hdr) (x : Xl) (an : Bool) (disp : BitVec 20) => (AtBundle s c.val none x) ∧ (Alone h) ∧ (NoEnd (s.core c.val))) ((wE 0 fun c => { c with w := [(5, 0x10080040), (26, 0x10080080)], wres := 3, wb := 0 })) (0) (wH) (wX 0) (true) (0xFFFFF)) ∧
  ((fun (s : State) (c : Fin 5) (h : Hdr) (x : Xl) (an : Bool) (disp : BitVec 20) => (AtBundle s c.val none x) ∧ (Alone h) ∧ (NoEnd (s.core c.val)) ∧ ((natBit ((s.core c.val).rdP h.gp.toNat) 0 != h.gn) = true → (s.core c.val).wres ≠ 30)) ((wE 4 fun c => { c with w := [(5, 0x10080040), (26, 0x10080080)], wres := 3, wb := 0 })) (4) (wH) (wX 4) (false) (0x100)) ∧
  ((fun (s : State) (c : Fin 5) (h : Hdr) (x : Xl) (d : BitVec 5) (a : BitVec 5) (b : BitVec 5) => (AtBundle s c.val none x) ∧ (Alone h) ∧ (NoEnd (s.core c.val))) ((wE 0 fun c => { c with w := [(5, 0x10080040), (26, 0x10080080)], wres := 3, wb := 0 })) (0) (wH) (wX 0) (0) (5) (0)) ∧
  ((fun (s : State) (c : Fin 5) (h : Hdr) (x : Xl) (d : BitVec 5) (a : BitVec 5) (b : BitVec 5) => (AtBundle s c.val none x) ∧ (Alone h) ∧ (NoEnd (s.core c.val)) ∧ ((natBit ((s.core c.val).rdP h.gp.toNat) 0 != h.gn) = true → (s.core c.val).wres ≠ 30)) ((wE 0 fun c => { c with w := [(5, 0x10080040), (26, 0x10080080)], wres := 3, wb := 0 })) (0) (wH) (wX 0) (0) (5) (0)) ∧
  ((fun (s : State) (c : Fin 5) (h : Hdr) (x : Xl) (d : BitVec 5) (a : BitVec 5) (b : BitVec 5) => (AtBundle s c.val none x) ∧ (Alone h) ∧ (NoEnd (s.core c.val)) ∧ (a = 0) ∧ (b = 0) ∧ ((natBit ((s.core c.val).rdP h.gp.toNat) 0 != h.gn) = true → (s.core c.val).wres ≠ 1)) ((wE 0 fun c => { c with w := [(5, 0x10080040), (26, 0x10080080)], wres := 3, wb := 0 })) (0) (wH) (wX 0) (0) (0) (0)) ∧
  ((fun (s : State) (c : Fin 5) (h : Hdr) (x : Xl) (xf : Xfer) => (AtBundle s c.val (some xf) x) ∧ (Alone h) ∧ (h.gn = false) ∧ (h.gp = 0) ∧ ((s.core c.val).lctl = 0) ∧ (xf.taken = true) ∧ (xf.annul = false) ∧ (xf.again = false)) ((wE 0 fun c => { c with wres := 3, wb := 31, xfer := some ⟨.call, 0xFFFEFFFC, true, 0x10080040, false, false⟩ })) (0) (wH) (wX 0) (⟨.call, 0xFFFEFFFC, true, 0x10080040, false, false⟩)) ∧
  ((fun (s : State) (c : Fin 5) (h : Hdr) (x : Xl) (xf : Xfer) => (AtBundle s c.val (some xf) x) ∧ (Alone h) ∧ (h.gn = false) ∧ (h.gp = 0) ∧ (NoEnd (s.core c.val)) ∧ (xf.taken = false) ∧ (xf.annul = false) ∧ (xf.again = false)) ((wE 0 fun c => { c with wres := 3, wb := 31, xfer := some ⟨.call, 0xFFFEFFFC, false, 0x10080040, false, false⟩ })) (0) (wH) (wX 0) (⟨.call, 0xFFFEFFFC, false, 0x10080040, false, false⟩)) ∧
  ((fun (s : State) (c : Fin 5) (h : Hdr) (x : Xl) (xf : Xfer) (d : BitVec 5) (imm : BitVec 16) => (AtBundle s c.val (some xf) x) ∧ (h.s = true) ∧ (h.wrong = none) ∧ (NoEnd (s.core c.val)) ∧ (xf.kind = .br) ∧ (xf.taken = false) ∧ (xf.annul = true)) ((wE 0 fun c => { c with wres := 3, wb := 31, xfer := some ⟨.br, 0xFFFEFFFC, false, 0x10080040, true, false⟩ })) (0) (wH) (wX 0) (⟨.br, 0xFFFEFFFC, false, 0x10080040, true, false⟩) (5) (7)) :=
  ⟨by decide +kernel, by decide +kernel, by decide +kernel, by decide +kernel, by decide +kernel, by decide +kernel, by decide +kernel, by decide +kernel⟩
theorem test_met_Transfers_2 :
  ((fun (s : State) (c : Fin 5) (h : Hdr) (x : Xl) (an : Bool) (disp : BitVec 20) => (AtBundle s c.val none x) ∧ (Alone h) ∧ (NoEnd (s.core c.val)) ∧ (c.val < 4) ∧ ((natBit ((s.core c.val).rdP h.gp.toNat) 0 != h.gn) = true) ∧ ((s.core c.val).wres = 30) ∧ ((s.core c.val).blkMode = 0) ∧ ((s.core c.val).wsoff + 64 < 2 ^ 32) ∧ ((∀ i : Fin 16, (dataAccess s c.val (s.core c.val) .store false ((s.core c.val).rdS 0) (((s.core c.val).rdS 0).base + (s.core c.val).wsoff + 4 * i.val) 4 4 0).toOption.isSome = true ∧ Writable s (((s.core c.val).rdS 0).base + (s.core c.val).wsoff + 4 * i.val)))) ((wE 2 fun c => { c with sc := [(0, Cap.root)], wsoff := 0x1FC0, wres := 30, wb := 5, w := [(16 + 16 * 8, 7), (16 + 16 * 8 + 15, 0x12345678)] })) (2) (wH) (wX 2) (false) (4)) ∧
  ((fun (s : State) (c : Fin 5) (h : Hdr) (x : Xl) (d : BitVec 5) (a : BitVec 5) (b : BitVec 5) => (AtBundle s c.val none x) ∧ (Alone h) ∧ (NoEnd (s.core c.val)) ∧ (a = 0) ∧ (b = 0) ∧ (c.val < 4) ∧ ((natBit ((s.core c.val).rdP h.gp.toNat) 0 != h.gn) = true) ∧ ((s.core c.val).wres = 1) ∧ ((s.core c.val).blkMode = 0) ∧ (64 ≤ (s.core c.val).wsoff) ∧ ((s.core c.val).wsoff < 2 ^ 32) ∧ ((∀ i : Fin 16, (dataAccess s c.val (s.core c.val) .load false ((s.core c.val).rdS 0) (((s.core c.val).rdS 0).base + ((s.core c.val).wsoff - 64) + 4 * i.val) 4 4 0).toOption.isSome = true ∧ Readable s c.val (((s.core c.val).rdS 0).base + ((s.core c.val).wsoff - 64) + 4 * i.val) 4))) (({ wE 2 (fun c => { c with sc := [(0, Cap.root)], wsoff := 0x10000040, wres := 1, wb := 0 }) with lmem := putList [] 0x10000000 (bytesOfNat 64 0x123456789ABCDEF0112233445566778899AABBCCDDEEFF00112233445566) })) (2) (wH) (wX 2) (0) (0) (0)) :=
  ⟨by decide +kernel, by decide +kernel⟩
theorem test_met_LoopsAndRepeats_1 :
  ((fun (s : State) (c : Fin 5) (h : Hdr) (x : Xl) (a : BitVec 5) (off : BitVec 12) => (Lone s c.val h x) ∧ (off ≠ 0) ∧ ((s.core c.val).wb < 32) ∧ (((s.core c.val).lctl.getLsbD 0 = false ∨ (s.core c.val).lctl.getLsbD 1 = false)) ∧ (((s.core c.val).rdW a.toNat) ≠ 0)) ((wE 0 fun c => { c with w := [(5, 3), (6, 0)], wb := 7, lctl := 0x1F1F00, lend := [(0, 0x20)] })) (0) (wH) (wX 0) (5) (0xFFF)) ∧
  ((fun (s : State) (c : Fin 5) (h : Hdr) (x : Xl) (count : BitVec 9) (off : BitVec 12) => (Lone s c.val h x) ∧ (off ≠ 0) ∧ ((s.core c.val).wb < 32) ∧ (((s.core c.val).lctl.getLsbD 0 = false ∨ (s.core c.val).lctl.getLsbD 1 = false))) ((wE 4 fun c => { c with w := [(5, 3), (6, 0)], wb := 7, lctl := 0x1F1F02, lend := [(0, 0x20)] })) (4) (wH) (wX 4) (0) (1)) ∧
  ((fun (s : State) (c : Fin 5) (h : Hdr) (x : Xl) (a : BitVec 5) (off : BitVec 12) => (Lone s c.val h x) ∧ (off ≠ 0) ∧ (((s.core c.val).lctl.getLsbD 0 = false ∨ (s.core c.val).lctl.getLsbD 1 = false)) ∧ (((s.core c.val).rdW a.toNat) = 0)) (((wE 0 fun c => { c with pc := 0x10080000, w := [(6, 0)] }).setCore 0 { (wE 0 fun c => { c with pc := 0x10080000 }).core 0 with lctl := 0 })) (0) (wH) (⟨0x10080000, 7, false, none⟩) (6) (3)) ∧
  ((fun (s : State) (c : Fin 5) (h : Hdr) (x : Xl) (a : BitVec 5) (off : BitVec 12) (v : Nat × Bool × Nat) => (Lone s c.val h x) ∧ (off ≠ 0) ∧ (CanEnter s c.val vLOOP v) ∧ ((s.core c.val).lctl.getLsbD 0 = true) ∧ ((s.core c.val).lctl.getLsbD 1 = true)) ((wV 13 fun c => { c with lctl := 3 })) (0) (wH) (wX 0) (6) (3) (hv)) ∧
  ((fun (s : State) (c : Fin 5) (h : Hdr) (x : Xl) (i : Fin 2) => (AtBundle s c.val none x) ∧ (Alone h) ∧ (h.gn = false) ∧ (h.gp = 0) ∧ (endLevels (s.core c.val) ⟨[], none⟩ (s.core c.val).pc = [(i.val, storeGet 0 (s.core c.val).lstart i.val)]) ∧ (1 < storeGet 0 (s.core c.val).lcnt i.val)) ((wE 0 fun c => { c with lctl := 1, lend := [(0, 0xFFFF0000)], lcnt := [(0, 512)], lstart := [(0, 0x10080000)] })) (0) (wH) (wX 0) (0)) ∧
  ((fun (s : State) (c : Fin 5) (h : Hdr) (x : Xl) (i : Fin 2) => (AtBundle s c.val none x) ∧ (Alone h) ∧ (h.gn = false) ∧ (h.gp = 0) ∧ (endLevels (s.core c.val) ⟨[], none⟩ (s.core c.val).pc = [(i.val, storeGet 0 (s.core c.val).lstart i.val)]) ∧ (storeGet 0 (s.core c.val).lcnt i.val = 1)) ((wE 0 fun c => { c with lctl := 1, lend := [(0, 0xFFFF0000)], lcnt := [(0, 1)], lstart := [(0, 0x10080000)] })) (0) (wH) (wX 0) (0)) ∧
  ((fun (s : State) (c : Fin 5) (h : Hdr) (x : Xl) (reg : Bool) (a : BitVec 5) (count : BitVec 8) => (Lone s c.val h x) ∧ ((reg = false → a = 0)) ∧ (0 < repCount (s.core c.val) reg a count) ∧ ((natBits (s.core c.val).status.toNat 23 9 = 0 → repCount (s.core c.val) reg a count ≤ 256))) ((wE 0 fun c => { c with w := [(5, 3), (6, 0)], wb := 7, lctl := 0, lend := [(0, 0x20)] })) (0) (wH) (wX 0) (false) (0) (0)) ∧
  ((fun (s : State) (c : Fin 5) (h : Hdr) (x : Xl) (reg : Bool) (a : BitVec 5) (count : BitVec 8) => (Lone s c.val h x) ∧ ((reg = false → a = 0)) ∧ (repCount (s.core c.val) reg a count = 0) ∧ (illegalBody (bundleAt s c.val (((s.core c.val).pc + 4) % 2 ^ 32)) = false)) ((wE 0 fun c => { c with pc := 0x10080000 })) (0) (wH) (⟨0x10080000, 7, false, none⟩) (true) (6) (3)) :=
  ⟨by decide +kernel, by decide +kernel, by decide +kernel, by decide +kernel, by decide +kernel, by decide +kernel, by decide +kernel, by decide +kernel⟩
theorem test_met_LoopsAndRepeats_2 :
  ((fun (s : State) (c : Fin 5) (h : Hdr) (x : Xl) (reg : Bool) (a : BitVec 5) (count : BitVec 8) (v : Nat × Bool × Nat) => (Lone s c.val h x) ∧ ((reg = false → a = 0)) ∧ (natBits (s.core c.val).status.toNat 23 9 = 0) ∧ (256 < repCount (s.core c.val) reg a count) ∧ (CanEnter s c.val vREP v)) ((wV 14 fun c => { c with w := [(5, 257)] })) (0) (wH) (wX 0) (true) (5) (0) (hv)) ∧
  ((fun (s : State) (c : Fin 5) (h : Hdr) (x : Xl) (reg : Bool) (a : BitVec 5) (count : BitVec 8) => (Lone s c.val h x) ∧ ((reg = false → a = 0)) ∧ (0 < repCount (s.core c.val) reg a count) ∧ ((natBits (s.core c.val).status.toNat 23 9 = 0 → repCount (s.core c.val) reg a count ≤ 256))) ((wE 0 fun c => { c with w := [(5, 3), (6, 0)], wb := 7, lctl := 0, lend := [(0, 0x20)] })) (0) (wH) (wX 0) (false) (0) (0)) ∧
  ((fun (s : State) (c : Fin 5) (h : Hdr) (x : Xl) (reg : Bool) (a : BitVec 5) (count : BitVec 8) => (Lone s c.val h x) ∧ ((reg = false → a = 0)) ∧ (repCount (s.core c.val) reg a count = 0) ∧ (illegalBody (bundleAt s c.val (((s.core c.val).pc + 4) % 2 ^ 32)) = false)) ((wE 0 fun c => { c with pc := 0x10080000 })) (0) (wH) (⟨0x10080000, 7, false, none⟩) (true) (6) (3)) ∧
  ((fun (s : State) (c : Fin 5) (h : Hdr) (x : Xl) (reg : Bool) (a : BitVec 5) (count : BitVec 8) (v : Nat × Bool × Nat) => (Lone s c.val h x) ∧ ((reg = false → a = 0)) ∧ (natBits (s.core c.val).status.toNat 23 9 = 0) ∧ (256 < repCount (s.core c.val) reg a count) ∧ (CanEnter s c.val vREP v)) ((wV 14 fun c => { c with w := [(5, 257)] })) (0) (wH) (wX 0) (true) (5) (0) (hv)) ∧
  ((fun (s : State) (c : Fin 5) (h : Hdr) (x : Xl) (r : Rep) => (AtBundle (unrepeated s c.val) c.val none x) ∧ (Alone h) ∧ (h.gn = false) ∧ (h.gp = 0) ∧ (NoEnd (s.core c.val)) ∧ ((s.core c.val).rep = some r) ∧ (r.body = none) ∧ (1 < r.left)) ((wE 0 fun c => { c with rep := some ⟨true, 256, 0xFFFEFFFC, none, 0xFFFF0000⟩ })) (0) (wH) (wX 0) (⟨true, 256, 0xFFFEFFFC, none, 0xFFFF0000⟩)) ∧
  ((fun (s : State) (c : Fin 5) (h : Hdr) (x : Xl) (r : Rep) => (AtBundle (unrepeated s c.val) c.val none x) ∧ (Alone h) ∧ (h.gn = false) ∧ (h.gp = 0) ∧ (NoEnd (s.core c.val)) ∧ ((s.core c.val).rep = some r) ∧ (r.body = none) ∧ (r.left = 1) ∧ (r.ni = false)) ((wE 0 fun c => { c with rep := some ⟨false, 1, 0xFFFEFFFC, none, 0xFFFF0000⟩ })) (0) (wH) (wX 0) (⟨false, 1, 0xFFFEFFFC, none, 0xFFFF0000⟩)) ∧
  ((fun (s : State) (c : Fin 5) (r : Rep) (j : Fin 16) (v : Nat × Bool × Nat) => (frozen s (corePg c.val) = false) ∧ (coreRunning s c.val = true) ∧ ((s.core c.val).halted = false) ∧ ((s.core c.val).ni = false) ∧ ((s.core c.val).xfer = none) ∧ ((s.core c.val).rep = some r) ∧ (r.ni = true) ∧ (spanLimit s c.val ≤ (s.core c.val).span) ∧ (clocked s c.val = true) ∧ (coreFrozen s c.val = false) ∧ ((s.core c.val).pend = []) ∧ ((s.core c.val).loads = []) ∧ ((s.core c.val).fdivs = []) ∧ ((s.core c.val).redo = none) ∧ ((s.core c.val).group = []) ∧ ((s.core c.val).asm = []) ∧ ((s.core c.val).fq = []) ∧ (c.val < 4) ∧ (r.left ≤ 256) ∧ (natBit (s.core c.val).ipend 16 = false) ∧ (pendingInt (s.core c.val) = some j.val) ∧ (CanEnter s c.val (0x30 + j.val) v)) ((wV 0x35 fun c => { c with status := 0x7, gie := true, ien := 0xFFFF, ipend := 0xFFE0, span := 512, rep := some ⟨true, 30, 0xFFFEFFFC, some ⟨[], none⟩, 0xFFFF0000⟩ })) (0) (⟨true, 30, 0xFFFEFFFC, some ⟨[], none⟩, 0xFFFF0000⟩) (5) (hv)) ∧
  ((fun (s : State) (c : Fin 5) => (frozen s (corePg c.val) = false) ∧ (atCeiling s c.val = false ∨ pendingInt (s.core c.val) = none)) (State.reset) (0)) :=
  ⟨by decide +kernel, by decide +kernel, by decide +kernel, by decide +kernel, by decide +kernel, by decide +kernel, by decide +kernel, by decide +kernel⟩
theorem test_met_EventsAndWaits_1 :
  ((fun (s : State) (c : Fin 5) (h : Hdr) (x : Xl) (d : BitVec 5) (a : BitVec 5) (b : BitVec 5) => (Lone s c.val h x) ∧ ((s.core c.val).status.getLsbD 19 = true)) ((wE 0 fun c => { c with status := 0xFFE8021F, w := [(6, 5), (5, 0xA)] })) (0) (wH) (wX 0) (0) (6) (0)) ∧
  ((fun (s : State) (c : Fin 5) (h : Hdr) (x : Xl) (d : BitVec 5) (a : BitVec 5) (b : BitVec 5) => (Lone s c.val h x) ∧ ((s.core c.val).status.getLsbD 19 = false)) ((wE 4 fun c => { c with status := 0, w := [(6, 5), (5, 0xA)] })) (4) (wH) (wX 4) (0) (6) (0)) ∧
  ((fun (s : State) (c : Fin 5) (h : Hdr) (x : Xl) (d : BitVec 5) (a : BitVec 5) (b : BitVec 5) => (Lone s c.val h x) ∧ (c.val < 4)) ((((wE 1 fun c => { c with status := 0x80000, w := [(6, 5), (5, 0xA)] })).mapCore 3 fun c => { c with wait := some (.evw none) })) (1) (wH) (wX 1) (0) (5) (0)) ∧
  ((fun (s : State) (c : Fin 5) (h : Hdr) (x : Xl) (d : BitVec 5) (a : BitVec 5) (b : BitVec 5) => (Lone s c.val h x) ∧ (c.val < 4) ∧ (a.toNat % 2 = 0)) ((((wE 0 fun c => { c with status := 0x200000, w := [(6, 5), (5, 0xA)] })).wr64 rANGLE 4)) (0) (wH) (wX 0) (0) (6) (0)) ∧
  ((fun (s : State) (c : Fin 5) (h : Hdr) (x : Xl) (d : BitVec 5) (a : BitVec 5) (b : BitVec 5) => (Lone s c.val h x) ∧ (c.val < 4) ∧ (a.toNat % 2 = 0)) ((((wE 0 fun c => { c with status := 0x200000, w := [(6, 5), (5, 0xA)] })).wr64 rTICKNO 4)) (0) (wH) (wX 0) (0) (6) (0)) ∧
  ((fun (s : State) (c : Fin 5) (l : Nat) => (frozen s (corePg c.val) = false) ∧ (Idle (unwaited s c.val) c.val) ∧ ((s.core c.val).wait = some (.evw (some l))) ∧ (l ≤ fcycOf s)) ((wE 4 fun c => { c with wait := some (.evw (some 0)) })) (4) (0)) ∧
  ((fun (s : State) (c : Fin 5) (g : Nat) (at' : Nat) (an : Bool) => (frozen s (corePg c.val) = false) ∧ (Idle (unwaited s c.val) c.val) ∧ ((s.core c.val).wait = some (if an then .angle g at' else .tick g at')) ∧ (g ≤ (if an then angleOf s else tickNo s))) ((wE 1 fun c => { c with wait := some (.angle 0 7) })) (1) (0) (7) (true)) ∧
  ((fun (s : State) (c : Fin 5) (h : Hdr) (x : Xl) (d : BitVec 5) (a : BitVec 5) (b : BitVec 5) => (Lone s c.val h x) ∧ (c.val < 4) ∧ ((s.core c.val).pcc.perm pSYS = true)) ((((wE 1 fun c => { c with status := 0x80000, w := [(6, 5), (5, 0xA)] })).wr (rEVc_CFG 5) 0x80000000)) (1) (wH) (wX 1) (0) (6) (0)) :=
  ⟨by decide +kernel, by decide +kernel, by decide +kernel, by decide +kernel, by decide +kernel, by decide +kernel, by decide +kernel, by decide +kernel⟩
theorem test_met_EventsAndWaits_2 :
  ((fun (s : State) (c : Fin 5) (h : Hdr) (x : Xl) (d : BitVec 5) (a : BitVec 5) (b : BitVec 5) (v : Nat × Bool × Nat) => (Lone s c.val h x) ∧ (c.val < 4) ∧ (CanEnter s c.val vOP v)) ((wV 2 id)) (0) (wH) (wX 0) (0) (0) (0) (hv)) ∧
  ((fun (s : State) (c : Fin 5) (h : Hdr) (x : Xl) (d : BitVec 5) (a : BitVec 5) (b : BitVec 5) (l : SaveLevel) (k : Task) (u : Launch) => (AtBundle (ungrouped s c.val) c.val none x) ∧ (Runs s c.val h) ∧ (NoEnd (s.core c.val)) ∧ (c.val < 4) ∧ ((s.core c.val).group = [k]) ∧ ((s.core c.val).overran = none) ∧ ((s.core c.val).gdep = (s.core c.val).sb.length) ∧ ((s.core c.val).gwb = (s.core c.val).wb) ∧ ((s.core c.val).wb < 32) ∧ (0 < (s.core c.val).wres) ∧ (max 1 k.used ≤ k.budget) ∧ (PlainLevel (s.core c.val) l) ∧ (launchOf s k.ctx k.tick = some u) ∧ (u.live ≠ 0)) (((wE 3 fun c => { c with group := [⟨7, 9, 3, 10, 0, 0, Cap.root⟩], wres := 2, wb := 1, gwb := 1, gdep := 1, sb := [⟨0x10080000, 5, Cap.root, 0x20, 0, 0, true, false, 0, []⟩] }).crySet fun k => { k with launches := [⟨7, 9, [], ⟨1, 1, 0, 0, 0, 0⟩, ⟨0, 0, 0, 0, 0, 0⟩, 1, 1, false, true, false, 0⟩] })) (3) (wH) (wX 3) (0) (0) (0) (⟨0x10080000, 5, Cap.root, 0x20, 0, 0, true, false, 0, []⟩) (⟨7, 9, 3, 10, 0, 0, Cap.root⟩) (⟨7, 9, [], ⟨1, 1, 0, 0, 0, 0⟩, ⟨0, 0, 0, 0, 0, 0⟩, 1, 1, false, true, false, 0⟩)) :=
  ⟨by decide +kernel, by decide +kernel⟩
theorem test_met_SystemGroup_1 :
  ((fun (s : State) (c : Fin 5) (h : Hdr) (x : Xl) (d : BitVec 5) (a : BitVec 5) (b : BitVec 5) => (Lone s c.val h x)) ((wE 0 fun c => { c with status := 0xFFFFFFFF, bank := 0x8000000D, w := [(6, 5), (5, 0xA5A5A5A5)], c := [(2, Cap.root), (3, Cap.make 0x10000000 0x400000 5 0)], lines := [⟨5, []⟩, ⟨6, []⟩], tlb := [(0, ⟨5, 7, 0x80000000⟩), (3, ⟨9, 7, 0x80050000⟩)] })) (0) (wH) (wX 0) (1) (2) (3)) ∧
  ((fun (s : State) (c : Fin 5) (h : Hdr) (x : Xl) (d : BitVec 5) (a : BitVec 5) (b : BitVec 5) => (Lone s c.val h x)) ((wE 4 fun c => { c with status := 0xFFFFFFFF, bank := 0x8000000D, w := [(6, 5), (5, 0xA5A5A5A5)], c := [(2, Cap.root), (3, Cap.make 0x10000000 0x400000 5 0)], lines := [⟨5, []⟩, ⟨6, []⟩], tlb := [(0, ⟨5, 7, 0x80000000⟩), (3, ⟨9, 7, 0x80050000⟩)] })) (4) (wH) (wX 4) (1) (2) (3)) ∧
  ((fun (s : State) (c : Fin 5) (h : Hdr) (x : Xl) (d : BitVec 5) (a : BitVec 5) (b : BitVec 5) => (Lone s c.val h x)) ((wE 0 fun c => { c with status := 0xFFFFFFFF, bank := 0x8000000D, w := [(6, 5), (5, 0xA5A5A5A5)], c := [(2, Cap.root), (3, Cap.make 0x10000000 0x400000 5 0)], lines := [⟨5, []⟩, ⟨6, []⟩], tlb := [(0, ⟨5, 7, 0x80000000⟩), (3, ⟨9, 7, 0x80050000⟩)] })) (0) (wH) (wX 0) (31) (2) (3)) ∧
  ((fun (s : State) (c : Fin 5) (h : Hdr) (x : Xl) (d : BitVec 5) (a : BitVec 5) (b : BitVec 5) => (Lone s c.val h x)) ((wE 0 fun c => { c with status := 0xFFFFFFFF, bank := 0x8000000D, w := [(6, 5), (5, 0xA5A5A5A5)], c := [(2, Cap.root), (3, Cap.make 0x10000000 0x400000 5 0)], lines := [⟨5, []⟩, ⟨6, []⟩], tlb := [(0, ⟨5, 7, 0x80000000⟩), (3, ⟨9, 7, 0x80050000⟩)] })) (0) (wH) (wX 0) (5) (2) (3)) ∧
  ((fun (s : State) (c : Fin 5) (h : Hdr) (x : Xl) (d : BitVec 5) (a : BitVec 5) (b : BitVec 5) (k : Nat) => (Lone s c.val h x) ∧ (sysRead c.val (s.core c.val) (32 * a.toNat + b.toNat) = some k)) ((wE 2 fun c => { c with status := 0xFFFFFFFF, bank := 0x8000000D, w := [(6, 5), (5, 0xA5A5A5A5)], c := [(2, Cap.root), (3, Cap.make 0x10000000 0x400000 5 0)], lines := [⟨5, []⟩, ⟨6, []⟩], tlb := [(0, ⟨5, 7, 0x80000000⟩), (3, ⟨9, 7, 0x80050000⟩)] })) (2) (wH) (wX 2) (9) (0) (2) (2)) ∧
  ((fun (s : State) (c : Fin 5) (h : Hdr) (x : Xl) (d : BitVec 5) (a : BitVec 5) (b : BitVec 5) => (Lone s c.val h x) ∧ ((s.core c.val).pcc.perm pSYS = true) ∧ (sysWritable (32 * a.toNat + b.toNat) = true) ∧ (32 * a.toNat + b.toNat ≠ 0x100) ∧ ((s.core c.val).ipend = 0)) ((wE 2 fun c => { c with status := 0xFFFFFFFF, bank := 0x8000000D, w := [(6, 5), (5, 0xA5A5A5A5)], c := [(2, Cap.root), (3, Cap.make 0x10000000 0x400000 5 0)], lines := [⟨5, []⟩, ⟨6, []⟩], tlb := [(0, ⟨5, 7, 0x80000000⟩), (3, ⟨9, 7, 0x80050000⟩)] })) (2) (wH) (wX 2) (5) (0) (1)) ∧
  ((fun (s : State) (c : Fin 5) (h : Hdr) (x : Xl) (d : BitVec 5) (a : BitVec 5) (b : BitVec 5) => (Lone s c.val h x) ∧ ((s.core c.val).pcc.perm pSYS = true) ∧ (32 * a.toNat + b.toNat = 0x100) ∧ ((if c.val = 4 then 0xFFFC0000 ≤ ((s.core c.val).rdW d.toNat).toNat else ((s.core c.val).rdW d.toNat).toNat / 0x10000 = 0x1008 + c.val * 0x10))) ((wE 1 fun c => { c with w := [(5, 0x10180FFF)] })) (1) (wH) (wX 1) (5) (8) (0)) ∧
  ((fun (s : State) (c : Fin 5) (h : Hdr) (x : Xl) (d : BitVec 5) (a : BitVec 5) (b : BitVec 5) => (Lone s c.val h x) ∧ (a.toNat < 16) ∧ (Open ((s.core c.val).rdC a.toNat)) ∧ (((s.core c.val).rdC a.toNat).perm pEXEC = true)) ((wE 2 fun c => { c with status := 0xFFFFFFFF, bank := 0x8000000D, w := [(6, 5), (5, 0xA5A5A5A5)], c := [(2, Cap.root), (3, Cap.make 0x10000000 0x400000 5 0)], lines := [⟨5, []⟩, ⟨6, []⟩], tlb := [(0, ⟨5, 7, 0x80000000⟩), (3, ⟨9, 7, 0x80050000⟩)] })) (2) (wH) (wX 2) (5) (3) (2)) :=
  ⟨by decide +kernel, by decide +kernel, by decide +kernel, by decide +kernel, by decide +kernel, by decide +kernel, by decide +kernel, by decide +kernel⟩
theorem test_met_SystemGroup_2 :
  ((fun (s : State) (c : Fin 5) (h : Hdr) (x : Xl) (d : BitVec 5) (a : BitVec 5) (b : BitVec 5) (l : SaveLevel) => (Lone s c.val h x) ∧ ((s.core c.val).pcc.perm pSYS = true) ∧ (PlainLevel (s.core c.val) l)) ((wE 4 fun c => { c with wres := 2, wb := 0, sb := [⟨0x10080000, 5, Cap.root, 0x20, 0, 0, true, false, 0, []⟩] })) (4) (wH) (wX 4) (0) (0) (0) (⟨0x10080000, 5, Cap.root, 0x20, 0, 0, true, false, 0, []⟩)) ∧
  ((fun (s : State) (c : Fin 5) (h : Hdr) (x : Xl) (d : BitVec 5) (a : BitVec 5) (b : BitVec 5) (v : Nat × Bool × Nat) => (Lone s c.val h x) ∧ (CanEnter s c.val vTRAP v)) ((wV 16 fun c => { c with status := 0x7FC1F, wb := 31 })) (0) (wH) (wX 0) (1) (2) (31) (hv)) ∧
  ((fun (s : State) (c : Fin 5) (h : Hdr) (x : Xl) (d : BitVec 5) (a : BitVec 5) (b : BitVec 5) => (Lone s c.val h x) ∧ ((s.core c.val).pcc.perm pSYS = true) ∧ (c.val < 4) ∧ (d = 0) ∧ (b.toNat ≤ 3) ∧ (NoTlbi s c.val)) ((wE 2 fun c => { c with status := 0xFFFFFFFF, bank := 0x8000000D, w := [(6, 5), (5, 0xA5A5A5A5)], c := [(2, Cap.root), (3, Cap.make 0x10000000 0x400000 5 0)], lines := [⟨5, []⟩, ⟨6, []⟩], tlb := [(0, ⟨5, 7, 0x80000000⟩), (3, ⟨9, 7, 0x80050000⟩)] })) (2) (wH) (wX 2) (0) (6) (1)) ∧
  ((fun (s : State) (c : Fin 5) (h : Hdr) (x : Xl) (d : BitVec 5) (a : BitVec 5) (b : BitVec 5) => (Lone s c.val h x) ∧ ((s.core c.val).pcc.perm pSYS = true) ∧ (NoTlbi s c.val)) ((wE 2 fun c => { c with status := 0xFFFFFFFF, bank := 0x8000000D, w := [(6, 5), (5, 0xA5A5A5A5)], c := [(2, Cap.root), (3, Cap.make 0x10000000 0x400000 5 0)], lines := [⟨5, []⟩, ⟨6, []⟩], tlb := [(0, ⟨5, 7, 0x80000000⟩), (3, ⟨9, 7, 0x80050000⟩)] })) (2) (wH) (wX 2) (0) (6) (1)) ∧
  ((fun (s : State) (c : Fin 5) (h : Hdr) (x : Xl) (d : BitVec 5) (a : BitVec 5) (b : BitVec 5) => (Lone s c.val h x) ∧ (c.val < 4) ∧ (a.toNat < 16) ∧ (Open ((s.core c.val).rdC a.toNat)) ∧ (((s.core c.val).rdC a.toNat).perm pLOAD = true) ∧ (((s.core c.val).rdC a.toNat).base ≤ (windowAt c.val (b.toNat % 4))) ∧ ((windowAt c.val (b.toNat % 4)) + 0x10000 ≤ ((s.core c.val).rdC a.toNat).base + ((s.core c.val).rdC a.toNat).len)) ((wE 2 fun c => { c with status := 0xFFFFFFFF, bank := 0x8000000D, w := [(6, 5), (5, 0xA5A5A5A5)], c := [(2, Cap.root), (3, Cap.make 0x10000000 0x400000 5 0)], lines := [⟨5, []⟩, ⟨6, []⟩], tlb := [(0, ⟨5, 7, 0x80000000⟩), (3, ⟨9, 7, 0x80050000⟩)] })) (2) (wH) (wX 2) (0) (2) (3)) ∧
  ((fun (s : State) (c : Fin 5) (h : Hdr) (x : Xl) (d : BitVec 5) (a : BitVec 5) (b : BitVec 5) => (Lone s c.val h x)) ((wE 2 fun c => { c with status := 0xFFFFFFFF, bank := 0x8000000D, w := [(6, 5), (5, 0xA5A5A5A5)], c := [(2, Cap.root), (3, Cap.make 0x10000000 0x400000 5 0)], lines := [⟨5, []⟩, ⟨6, []⟩], tlb := [(0, ⟨5, 7, 0x80000000⟩), (3, ⟨9, 7, 0x80050000⟩)] })) (2) (wH) (wX 2) (9) (2) (3)) :=
  ⟨by decide +kernel, by decide +kernel, by decide +kernel, by decide +kernel, by decide +kernel, by decide +kernel⟩
theorem test_met_TranslationBuffer :
  ((fun (s : State) (c : Fin 4) => (SysRuns s c.val)) ((wE 3 fun c => { c with tlbVa := 9, tlbPa := 8, tlbAttr := 0x80000007, tlbIdx := 5, tlbNext := 63, tlb := [(5, ⟨1, 2, 3⟩), (17, ⟨9, 3, 0x80000020⟩)] })) (3)) ∧
  ((fun (s : State) (c : Fin 4) => (SysRuns s c.val)) ((wE 3 fun c => { c with tlbVa := 9, tlbPa := 8, tlbAttr := 0x80000007, tlbIdx := 5, tlbNext := 63, tlb := [(5, ⟨1, 2, 3⟩), (17, ⟨9, 3, 0x80000020⟩)] })) (3)) ∧
  ((fun (s : State) (c : Fin 4) => (SysRuns s c.val)) ((wE 3 fun c => { c with tlbVa := 9, tlbPa := 8, tlbAttr := 0x80000007, tlbIdx := 5, tlbNext := 63, tlb := [(5, ⟨1, 2, 3⟩), (17, ⟨9, 3, 0x80000020⟩)] })) (3)) ∧
  ((fun (s : State) (c : Fin 4) => (SysRuns s c.val)) ((wE 3 fun c => { c with tlbVa := 9, tlbPa := 8, tlbAttr := 0x80000007, tlbIdx := 5, tlbNext := 63, tlb := [(5, ⟨1, 2, 3⟩), (17, ⟨9, 3, 0x80000020⟩)] })) (3)) ∧
  ((fun (s : State) (c : Fin 4) (q : Tlbi) (r : List Tlbi) => (coreFrozen s c.val = false) ∧ ((s.core c.val).tlbq = q :: r) ∧ ((∀ i : Fin 5, (s.core i.val).fq = [] ∧ Idle s i.val))) (((wE 3 fun c => { c with tlbVa := 9, tlbPa := 8, tlbAttr := 0x80000007, tlbIdx := 5, tlbNext := 63, tlb := [(5, ⟨1, 2, 3⟩), (17, ⟨9, 3, 0x80000020⟩)] }).mapCore 3 fun c => { c with tlbq := [⟨3, 9, 0, 1⟩, ⟨0, 0, 0, 1⟩] })) (3) (⟨3, 9, 0, 1⟩) ([⟨0, 0, 0, 1⟩])) :=
  ⟨by decide +kernel, by decide +kernel, by decide +kernel, by decide +kernel, by decide +kernel⟩
theorem test_met_ScalarFloat :
  ((fun (s : State) (c : Fin 5) (h : Hdr) (x : Xl) (dbl : Bool) (fn : FpFn) (d : BitVec 6) (a : BitVec 6) (b : BitVec 6) => (Lone s c.val h x) ∧ (fn ≠ .fdiv)) ((wE 0 fun c => { c with status := 0x0, f := [(1, 0x3FF8000000000000), (2, 0x40490FDB3F800000), (3, 0x7F800001), (4, 0xC2F7000080000000), (5, 0x7FF0000000000001), (6, 0x7F7FFFFF), (7, 0x0000000000000001), (8, 0x477FF000)], w := [(3, 0x80000000), (4, 0x7FFFFFFF)] })) (0) (wH) (wX 0) (false) (.fadd) (9) (2) (6)) ∧
  ((fun (s : State) (c : Fin 5) (h : Hdr) (x : Xl) (dbl : Bool) (d : BitVec 6) (a : BitVec 6) (b : BitVec 6) => (Lone s c.val h x)) ((wE 0 fun c => { c with status := 0x400, f := [(1, 0x3FF8000000000000), (2, 0x40490FDB3F800000), (3, 0x7F800001), (4, 0xC2F7000080000000), (5, 0x7FF0000000000001), (6, 0x7F7FFFFF), (7, 0x0000000000000001), (8, 0x477FF000)], w := [(3, 0x80000000), (4, 0x7FFFFFFF)] })) (0) (wH) (wX 0) (true) (9) (1) (2)) ∧
  ((fun (s : State) (c : Fin 5) (h : Hdr) (x : Xl) (dbl : Bool) (d : BitVec 6) (a : BitVec 6) => (Lone s c.val h x)) ((wE 0 fun c => { c with status := 0x400, f := [(1, 0x3FF8000000000000), (2, 0x40490FDB3F800000), (3, 0x7F800001), (4, 0xC2F7000080000000), (5, 0x7FF0000000000001), (6, 0x7F7FFFFF), (7, 0x0000000000000001), (8, 0x477FF000)], w := [(3, 0x80000000), (4, 0x7FFFFFFF)] })) (0) (wH) (wX 0) (true) (9) (1)) ∧
  ((fun (s : State) (c : Fin 5) (k : PFdiv) => (frozen s (corePg c.val) = false) ∧ (Idle s c.val) ∧ ((s.core c.val).pend = []) ∧ ((s.core c.val).fdivs = [k]) ∧ (k.mask = 0xFFFFFFFFFFFFFFFF)) ((wE 2 fun c => { c with fdivs := [⟨63, false, false, 0x3F800000, 0x40400000, 0, 5, 3, false, 0xFFFFFFFFFFFFFFFF⟩] })) (2) (⟨63, false, false, 0x3F800000, 0x40400000, 0, 5, 3, false, 0xFFFFFFFFFFFFFFFF⟩)) ∧
  ((fun (s : State) (c : Fin 5) (h : Hdr) (x : Xl) (fn : FunFn) (d : BitVec 6) (a : BitVec 6) => (Lone s c.val h x) ∧ (fn ≠ .sqrtS) ∧ (fn ≠ .sqrtD)) ((wE 1 fun c => { c with status := 0x800, f := [(1, 0x3FF8000000000000), (2, 0x40490FDB3F800000), (3, 0x7F800001), (4, 0xC2F7000080000000), (5, 0x7FF0000000000001), (6, 0x7F7FFFFF), (7, 0x0000000000000001), (8, 0x477FF000)], w := [(3, 0x80000000), (4, 0x7FFFFFFF)] })) (1) (wH) (wX 1) (.cvtHS) (0) (6)) ∧
  ((fun (s : State) (c : Fin 5) (h : Hdr) (x : Xl) (dbl : Bool) (p : Fin 8) (a : BitVec 6) (b : BitVec 6) (cond : BitVec 3) => (Lone s c.val h x)) ((wE 1 fun c => { c with status := 0x800, f := [(1, 0x3FF8000000000000), (2, 0x40490FDB3F800000), (3, 0x7F800001), (4, 0xC2F7000080000000), (5, 0x7FF0000000000001), (6, 0x7F7FFFFF), (7, 0x0000000000000001), (8, 0x477FF000)], w := [(3, 0x80000000), (4, 0x7FFFFFFF)] })) (1) (wH) (wX 1) (true) (7) (1) (5) (7)) ∧
  ((fun (s : State) (c : Fin 5) (h : Hdr) (x : Xl) (fn : XferFn) (d : BitVec 6) (a : BitVec 6) => (Lone s c.val h x) ∧ (outOfF fn = true) ∧ (d.toNat < 32)) ((wE 1 fun c => { c with status := 0x800, f := [(1, 0x3FF8000000000000), (2, 0x40490FDB3F800000), (3, 0x7F800001), (4, 0xC2F7000080000000), (5, 0x7FF0000000000001), (6, 0x7F7FFFFF), (7, 0x0000000000000001), (8, 0x477FF000)], w := [(3, 0x80000000), (4, 0x7FFFFFFF)] })) (1) (wH) (wX 1) (.cvtws) (9) (6)) ∧
  ((fun (s : State) (c : Fin 5) (h : Hdr) (x : Xl) (fn : XferFn) (d : BitVec 6) (a : BitVec 6) => (Lone s c.val h x) ∧ (outOfF fn = false) ∧ (a.toNat < 32)) ((wE 1 fun c => { c with status := 0x800, f := [(1, 0x3FF8000000000000), (2, 0x40490FDB3F800000), (3, 0x7F800001), (4, 0xC2F7000080000000), (5, 0x7FF0000000000001), (6, 0x7F7FFFFF), (7, 0x0000000000000001), (8, 0x477FF000)], w := [(3, 0x80000000), (4, 0x7FFFFFFF)] })) (1) (wH) (wX 1) (.cvtsw) (9) (4)) :=
  ⟨by decide +kernel, by decide +kernel, by decide +kernel, by decide +kernel, by decide +kernel, by decide +kernel, by decide +kernel, by decide +kernel⟩
theorem test_met_ShortVectors_1 :
  ((fun (s : State) (c : Fin 5) (h : Hdr) (x : Xl) (ty : QTy) (fn : QFn) (d : BitVec 5) (a : BitVec 5) (b : BitVec 5) => (AtBundle s c.val none x) ∧ (Alone h) ∧ (NoEnd (s.core c.val)) ∧ (c.val < 4) ∧ (elem fn = true)) ((wE 1 fun c => { c with status := 0x400, p := [(1, 0x05), (2, 0xF0), (3, 0xFE)], f := [(2, 0x7FFFFFFF80000000), (3, 0x3F800000C0490FDB), (4, 0x0000000180000000), (5, 0x7F8000017FFFFFFF), (6, 0x0001800100027FFF), (7, 0xFFFFFFFF00000001)], w := [(3, 0x80000000), (4, 0x7FFFFFFF), (6, 0xFFFFFFFF), (7, 8)] })) (1) (⟨true,false,1, false, none⟩) (wX 1) (.qf) (.add) (2) (1) (2)) ∧
  ((fun (s : State) (c : Fin 5) (h : Hdr) (x : Xl) (ty : QTy) (cond : BitVec 3) (d : BitVec 5) (a : BitVec 5) (b : BitVec 5) => (AtBundle s c.val none x) ∧ (Alone h) ∧ (NoEnd (s.core c.val)) ∧ (c.val < 4)) ((wE 0 fun c => { c with status := 0, p := [(1, 0x05), (2, 0xF0), (3, 0xFE)], f := [(2, 0x7FFFFFFF80000000), (3, 0x3F800000C0490FDB), (4, 0x0000000180000000), (5, 0x7F8000017FFFFFFF), (6, 0x0001800100027FFF), (7, 0xFFFFFFFF00000001)], w := [(3, 0x80000000), (4, 0x7FFFFFFF), (6, 0xFFFFFFFF), (7, 8)] })) (0) (wH) (wX 0) (.qf) (0) (7) (1) (3)) ∧
  ((fun (s : State) (c : Fin 5) (h : Hdr) (x : Xl) (ty : QTy) (d : BitVec 5) (a : BitVec 5) (b : BitVec 5) => (AtBundle s c.val none x) ∧ (Alone h) ∧ (NoEnd (s.core c.val)) ∧ (c.val < 4) ∧ (ty ≠ .qf)) ((wE 0 fun c => { c with status := 0, p := [(1, 0x05), (2, 0xF0), (3, 0xFE)], f := [(2, 0x7FFFFFFF80000000), (3, 0x3F800000C0490FDB), (4, 0x0000000180000000), (5, 0x7F8000017FFFFFFF), (6, 0x0001800100027FFF), (7, 0xFFFFFFFF00000001)], w := [(3, 0x80000000), (4, 0x7FFFFFFF), (6, 0xFFFFFFFF), (7, 8)] })) (0) (wH) (wX 0) (.qx) (3) (1) (0)) ∧
  ((fun (s : State) (c : Fin 5) (h : Hdr) (x : Xl) (d : BitVec 5) (a : BitVec 5) (b : BitVec 5) => (AtBundle s c.val none x) ∧ (Alone h) ∧ (NoEnd (s.core c.val)) ∧ (c.val < 4)) ((wE 0 fun c => { c with status := 0, p := [(1, 0x05), (2, 0xF0), (3, 0xFE)], f := [(2, 0x7FFFFFFF80000000), (3, 0x3F800000C0490FDB), (4, 0x0000000180000000), (5, 0x7F8000017FFFFFFF), (6, 0x0001800100027FFF), (7, 0xFFFFFFFF00000001)], w := [(3, 0x80000000), (4, 0x7FFFFFFF), (6, 0xFFFFFFFF), (7, 8)] })) (0) (wH) (wX 0) (3) (1) (0)) ∧
  ((fun (s : State) (c : Fin 5) (h : Hdr) (x : Xl) (d : BitVec 5) (a : BitVec 5) (b : BitVec 5) => (AtBundle s c.val none x) ∧ (Alone h) ∧ (NoEnd (s.core c.val)) ∧ (c.val < 4)) ((wE 0 fun c => { c with status := 0, p := [(1, 0x05), (2, 0xF0), (3, 0xFE)], f := [(2, 0x7FFFFFFF80000000), (3, 0x3F800000C0490FDB), (4, 0x0000000180000000), (5, 0x7F8000017FFFFFFF), (6, 0x0001800100027FFF), (7, 0xFFFFFFFF00000001)], w := [(3, 0x80000000), (4, 0x7FFFFFFF), (6, 0xFFFFFFFF), (7, 8)] })) (0) (wH) (wX 0) (3) (1) (0)) ∧
  ((fun (s : State) (c : Fin 5) (h : Hdr) (x : Xl) (d : BitVec 5) (a : BitVec 5) (b : BitVec 5) => (AtBundle s c.val none x) ∧ (Alone h) ∧ (NoEnd (s.core c.val)) ∧ (c.val < 4)) ((wE 0 fun c => { c with status := 0, p := [(1, 0x05), (2, 0xF0), (3, 0xFE)], f := [(2, 0x7FFFFFFF80000000), (3, 0x3F800000C0490FDB), (4, 0x0000000180000000), (5, 0x7F8000017FFFFFFF), (6, 0x0001800100027FFF), (7, 0xFFFFFFFF00000001)], w := [(3, 0x80000000), (4, 0x7FFFFFFF), (6, 0xFFFFFFFF), (7, 8)] })) (0) (wH) (wX 0) (3) (4) (0)) ∧
  ((fun (s : State) (c : Fin 5) (h : Hdr) (x : Xl) (d : BitVec 5) (a : BitVec 5) (b : BitVec 5) => (AtBundle s c.val none x) ∧ (Alone h) ∧ (NoEnd (s.core c.val)) ∧ (c.val < 4)) ((wE 0 fun c => { c with status := 0, p := [(1, 0x05), (2, 0xF0), (3, 0xFE)], f := [(2, 0x7FFFFFFF80000000), (3, 0x3F800000C0490FDB), (4, 0x0000000180000000), (5, 0x7F8000017FFFFFFF), (6, 0x0001800100027FFF), (7, 0xFFFFFFFF00000001)], w := [(3, 0x80000000), (4, 0x7FFFFFFF), (6, 0xFFFFFFFF), (7, 8)] })) (0) (wH) (wX 0) (3) (1) (0)) ∧
  ((fun (s : State) (c : Fin 5) (h : Hdr) (x : Xl) (d : BitVec 5) (a : BitVec 5) (b : BitVec 5) => (Lone s c.val h x) ∧ (c.val < 4)) ((wE 0 fun c => { c with status := 0, p := [(1, 0x05), (2, 0xF0), (3, 0xFE)], f := [(2, 0x7FFFFFFF80000000), (3, 0x3F800000C0490FDB), (4, 0x0000000180000000), (5, 0x7F8000017FFFFFFF), (6, 0x0001800100027FFF), (7, 0xFFFFFFFF00000001)], w := [(3, 0x80000000), (4, 0x7FFFFFFF), (6, 0xFFFFFFFF), (7, 8)] })) (0) (wH) (wX 0) (3) (4) (0)) :=
  ⟨by decide +kernel, by decide +kernel, by decide +kernel, by decide +kernel, by decide +kernel, by decide +kernel, by decide +kernel, by decide +kernel⟩
theorem test_met_ShortVectors_2 :
  ((fun (s : State) (c : Fin 5) (h : Hdr) (x : Xl) (d : BitVec 5) (a : BitVec 5) (b : BitVec 5) => (Lone s c.val h x) ∧ (c.val < 4)) ((wE 0 fun c => { c with status := 0, p := [(1, 0x05), (2, 0xF0), (3, 0xFE)], f := [(2, 0x7FFFFFFF80000000), (3, 0x3F800000C0490FDB), (4, 0x0000000180000000), (5, 0x7F8000017FFFFFFF), (6, 0x0001800100027FFF), (7, 0xFFFFFFFF00000001)], w := [(3, 0x80000000), (4, 0x7FFFFFFF), (6, 0xFFFFFFFF), (7, 8)] })) (0) (wH) (wX 0) (9) (3) (0)) ∧
  ((fun (s : State) (c : Fin 5) (h : Hdr) (x : Xl) (d : BitVec 6) (w : BitVec 5) (a : BitVec 5) (ty : BitVec 2) (mx : Bool) => (AtBundle s c.val none x) ∧ (Alone h) ∧ (NoEnd (s.core c.val)) ∧ (c.val < 4) ∧ (w.toNat % 2 = 0) ∧ (ty ≠ 3)) ((wE 0 fun c => { c with status := 0, p := [(1, 0x05), (2, 0xF0), (3, 0xFE)], f := [(2, 0x7FFFFFFF80000000), (3, 0x3F800000C0490FDB), (4, 0x0000000180000000), (5, 0x7F8000017FFFFFFF), (6, 0x0001800100027FFF), (7, 0xFFFFFFFF00000001)], w := [(3, 0x80000000), (4, 0x7FFFFFFF), (6, 0xFFFFFFFF), (7, 8)] })) (0) (wH) (wX 0) (10) (6) (1) (0) (true)) :=
  ⟨by decide +kernel, by decide +kernel⟩
theorem test_met_CoreEvents_1 :
  ((fun (s : State) (c : Fin 5) (line : BitVec 26) (k : Nat) (kind : Fin 3) => (frozen s (corePg c.val) = false) ∧ ((s.core c.val).loads = []) ∧ (lineRegion c.val (64 * line.toNat) = true) ∧ (salSize ≤ 64 * line.toNat) ∧ ((s.core c.val).fills = [⟨line.toNat, k, true⟩])) ((wE 0 fun c => { c with fills := [⟨0x1000007, 1, true⟩], lines := [⟨5, []⟩, ⟨0x3FFFFFE, []⟩, ⟨0x1000007, []⟩] })) (0) (0x1000007) (1) (1)) ∧
  ((fun (s : State) (c : Fin 5) (line : BitVec 26) => (frozen s (corePg c.val) = false) ∧ ((s.core c.val).loads = []) ∧ (lineRegion c.val (64 * line.toNat) = true) ∧ (salSize ≤ 64 * line.toNat) ∧ ((s.core c.val).fills = [])) ((wE 0 fun c => { c with fills := [], lines := [⟨5, []⟩, ⟨0x3FFFFFE, []⟩, ⟨0x1000007, []⟩] })) (0) (0x1000007)) ∧
  ((fun (s : State) (c : Fin 5) (line : BitVec 26) => (frozen s (corePg c.val) = false) ∧ ((s.core c.val).loads = []) ∧ (lineRegion c.val (64 * line.toNat) = true) ∧ (salSize ≤ 64 * line.toNat) ∧ ((s.core c.val).fills = [])) ((wE 0 fun c => { c with fills := [], lines := [⟨5, []⟩, ⟨0x3FFFFFE, []⟩, ⟨0x1000007, []⟩] })) (0) (0x1000007)) ∧
  ((fun (s : State) (c : Fin 4) (line : BitVec 26) => (frozen s (corePg c.val) = false) ∧ ((s.core c.val).fills = []) ∧ ((s.core c.val).loads = []) ∧ (s.flag (fEPn_CTRL_PFEN c.val) = false)) ((((wE 0 fun c => { c with fills := [], lines := [⟨5, []⟩, ⟨0x3FFFFFE, []⟩, ⟨0x1000007, []⟩] })).setFld (fEPn_CTRL_PFEN 0) 0)) (0) (0x1000007)) ∧
  ((fun (s : State) (c : Fin 4) (line : BitVec 26) => (frozen s (corePg c.val) = false) ∧ ((s.core c.val).loads = []) ∧ (lineRegion c.val (64 * line.toNat) = true) ∧ (salSize ≤ 64 * line.toNat) ∧ ((s.core c.val).fills = []) ∧ (s.flag (fEPn_CTRL_PFEN c.val) = true) ∧ (0 < line.toNat) ∧ (lineRegion c.val (64 * (line.toNat - 1)) = true) ∧ (((s.core c.val).lines.any fun l => l.line + 1 == line.toNat) = true) ∧ (((s.core c.val).lines.any fun l => l.line == line.toNat) = false)) ((((wE 0 fun c => { c with fills := [], lines := [⟨5, []⟩, ⟨0x3FFFFFE, []⟩, ⟨0x1000007, []⟩] })).setFld (fEPn_CTRL_PFEN 0) 1)) (0) (0x1000008)) ∧
  ((fun (s : State) (c : Fin 5) (j : Fin 16) (v : Nat × Bool × Nat) => (frozen s (corePg c.val) = false) ∧ (coreRunning s c.val = true) ∧ (coreFrozen s c.val = false) ∧ (clocked s c.val = true) ∧ ((s.core c.val).halted = false) ∧ ((s.core c.val).ni = false) ∧ ((s.core c.val).asm = []) ∧ ((s.core c.val).fq = []) ∧ ((s.core c.val).pend = []) ∧ ((s.core c.val).loads = []) ∧ ((s.core c.val).fdivs = []) ∧ ((s.core c.val).xfer = none) ∧ ((s.core c.val).redo = none) ∧ ((s.core c.val).rep = none) ∧ ((s.core c.val).group = []) ∧ ((s.core c.val).wait = none) ∧ (natBit (s.core c.val).ipend 16 = false) ∧ (pendingInt (s.core c.val) = some j.val) ∧ (CanEnter s c.val (0x30 + j.val) v)) ((wV 52 fun c => { c with status := 0x7FC1F, gie := true, ien := 0xFFF0, ipend := 0xFFFF })) (0) (4) (hv)) ∧
  ((fun (s : State) (c : Fin 5) (j : Fin 16) (g : Nat) (at' : Nat) (v : Nat × Bool × Nat) => (frozen s (corePg c.val) = false) ∧ (coreRunning s c.val = true) ∧ (coreFrozen s c.val = false) ∧ (clocked s c.val = true) ∧ ((s.core c.val).halted = false) ∧ ((s.core c.val).ni = false) ∧ ((s.core c.val).asm = []) ∧ ((s.core c.val).fq = []) ∧ ((s.core c.val).pend = []) ∧ ((s.core c.val).loads = []) ∧ ((s.core c.val).fdivs = []) ∧ ((s.core c.val).xfer = none) ∧ ((s.core c.val).redo = none) ∧ ((s.core c.val).rep = none) ∧ ((s.core c.val).group = []) ∧ ((s.core c.val).wait = some (.angle g at')) ∧ (natBit (s.core c.val).ipend 16 = false) ∧ (pendingInt (s.core c.val) = some j.val) ∧ (CanEnter s c.val (0x30 + j.val) v)) ((wV 52 fun c => { c with status := 0x7FC1F, gie := true, ien := 0xFFF0, ipend := 0xFFFF, wait := some (.angle 9 0x10080000) })) (0) (4) (9) (0x10080000) (hv)) ∧
  ((fun (s : State) (c : Fin 5) => (frozen s (corePg c.val) = false) ∧ (pendingInt (s.core c.val) = none ∨ (s.core c.val).halted = true ∨ coreRunning s c.val = false ∨ unbroken s c.val = true) ∧ ((s.core c.val).rep = none)) (State.reset) (1)) :=
  ⟨by decide +kernel, by decide +kernel, by decide +kernel, by decide +kernel, by decide +kernel, by decide +kernel, by decide +kernel, by decide +kernel⟩
theorem test_met_CoreEvents_2 :
  ((fun (s : State) (c : Fin 4) => (frozen s (corePg c.val) = false) ∧ (coreRunning s c.val = true) ∧ (coreFrozen s c.val = false) ∧ (clocked s c.val = true) ∧ ((s.core c.val).halted = false) ∧ ((s.core c.val).asm = []) ∧ ((s.core c.val).fq = []) ∧ ((s.core c.val).pend = []) ∧ ((s.core c.val).xfer = none) ∧ ((s.core c.val).redo = none) ∧ ((s.core c.val).rep = none) ∧ ((s.core c.val).wait = none) ∧ ((s.core c.val).group = []) ∧ ((s.core c.val).df = none) ∧ ((s.core c.val).ni = true) ∧ (min (s.core c.val).nib (spanLimit s c.val) ≤ (s.core c.val).span)) ((wE 1 fun c => { c with ni := true, nib := 5, span := 5, dfvec := 0x10180101, gie := true, sc := [(2, Cap.root), (3, Cap.root)] })) (1)) ∧
  ((fun (s : State) (c : Fin 5) => (frozen s (corePg c.val) = false) ∧ ((s.core c.val).ni = false)) (State.reset) (1)) :=
  ⟨by decide +kernel, by decide +kernel⟩
theorem test_met_CrystallizerOperations_1 :
  ((fun (s : State) (n : BitVec 14) => (s.flag fCRY_STAT_OPBUSY = true)) (State.reset.setFlag fCRY_STAT_OPBUSY true) (5)) ∧
  ((fun (s : State) (n : BitVec 14) => (s.flag fCRY_STAT_OPBUSY = false) ∧ (frozen s cryPg = false)) (((({ State.reset with cry := { CryState.reset with ctx := [(2, { Ctx.free with st := .admitted, desc := [0x00300012, 0, 0,0,0,0,0,0, 100], first := some 5 }), (3, { Ctx.free with st := .suspended, desc := [0x00300012], first := some 9, stop := some 0, next := [⟨4, [0x00300013], ⟨0,0,0,0,0,0⟩⟩] }), (4, { Ctx.free with st := .draining, desc := [1] })] } }).setFld fCRY_STAT_NADMIT 3).wr (rCRY_STAGEi 0) 0x20010040).wr (rCRY_STAGEi 15) 7) (5)) ∧
  ((fun (s : State) (n : BitVec 14) => (s.flag fCRY_STAT_OPBUSY = false) ∧ (frozen s cryPg = true)) ((({ State.reset with cry := { CryState.reset with ctx := [(2, { Ctx.free with st := .admitted, desc := [0x00300012, 0, 0,0,0,0,0,0, 100], first := some 5 }), (3, { Ctx.free with st := .suspended, desc := [0x00300012], first := some 9, stop := some 0, next := [⟨4, [0x00300013], ⟨0,0,0,0,0,0⟩⟩] }), (4, { Ctx.free with st := .draining, desc := [1] })] } }).setFld fCRY_STAT_NADMIT 3).setFlag (fPAGE_CTRL_FREEZE cryPg) true) (5)) ∧
  ((fun (s : State) (n : BitVec 14) => (s.flag fCRY_STAT_OPBUSY = true)) (State.reset.setFlag fCRY_STAT_OPBUSY true) (5)) ∧
  ((fun (s : State) (n : BitVec 14) => (s.flag fCRY_STAT_OPBUSY = false) ∧ (frozen s cryPg = false)) (((({ State.reset with cry := { CryState.reset with ctx := [(2, { Ctx.free with st := .admitted, desc := [0x00300012, 0, 0,0,0,0,0,0, 100], first := some 5 }), (3, { Ctx.free with st := .suspended, desc := [0x00300012], first := some 9, stop := some 0, next := [⟨4, [0x00300013], ⟨0,0,0,0,0,0⟩⟩] }), (4, { Ctx.free with st := .draining, desc := [1] })] } }).setFld fCRY_STAT_NADMIT 3).wr (rCRY_STAGEi 0) 0x20010040).wr (rCRY_STAGEi 15) 7) (5)) ∧
  ((fun (s : State) (n : BitVec 14) => (s.flag fCRY_STAT_OPBUSY = false) ∧ (frozen s cryPg = true)) ((({ State.reset with cry := { CryState.reset with ctx := [(2, { Ctx.free with st := .admitted, desc := [0x00300012, 0, 0,0,0,0,0,0, 100], first := some 5 }), (3, { Ctx.free with st := .suspended, desc := [0x00300012], first := some 9, stop := some 0, next := [⟨4, [0x00300013], ⟨0,0,0,0,0,0⟩⟩] }), (4, { Ctx.free with st := .draining, desc := [1] })] } }).setFld fCRY_STAT_NADMIT 3).setFlag (fPAGE_CTRL_FREEZE cryPg) true) (5)) ∧
  ((fun (s : State) (n : BitVec 14) => (s.flag fCRY_STAT_OPBUSY = true)) (State.reset.setFlag fCRY_STAT_OPBUSY true) (5)) ∧
  ((fun (s : State) (n : BitVec 14) => (s.flag fCRY_STAT_OPBUSY = false) ∧ (frozen s cryPg = false)) (((({ State.reset with cry := { CryState.reset with ctx := [(2, { Ctx.free with st := .admitted, desc := [0x00300012, 0, 0,0,0,0,0,0, 100], first := some 5 }), (3, { Ctx.free with st := .suspended, desc := [0x00300012], first := some 9, stop := some 0, next := [⟨4, [0x00300013], ⟨0,0,0,0,0,0⟩⟩] }), (4, { Ctx.free with st := .draining, desc := [1] })] } }).setFld fCRY_STAT_NADMIT 3).wr (rCRY_STAGEi 0) 0x20010040).wr (rCRY_STAGEi 15) 7) (5)) :=
  ⟨by decide +kernel, by decide +kernel, by decide +kernel, by decide +kernel, by decide +kernel, by decide +kernel, by decide +kernel, by decide +kernel⟩
theorem test_met_CrystallizerOperations_2 :
  ((fun (s : State) (n : BitVec 14) => (s.flag fCRY_STAT_OPBUSY = false) ∧ (frozen s cryPg = true)) ((({ State.reset with cry := { CryState.reset with ctx := [(2, { Ctx.free with st := .admitted, desc := [0x00300012, 0, 0,0,0,0,0,0, 100], first := some 5 }), (3, { Ctx.free with st := .suspended, desc := [0x00300012], first := some 9, stop := some 0, next := [⟨4, [0x00300013], ⟨0,0,0,0,0,0⟩⟩] }), (4, { Ctx.free with st := .draining, desc := [1] })] } }).setFld fCRY_STAT_NADMIT 3).setFlag (fPAGE_CTRL_FREEZE cryPg) true) (5)) ∧
  ((fun (s : State) (n : BitVec 14) => (s.flag fCRY_STAT_OPBUSY = true)) (State.reset.setFlag fCRY_STAT_OPBUSY true) (5)) ∧
  ((fun (s : State) (n : BitVec 14) => (s.flag fCRY_STAT_OPBUSY = false) ∧ (frozen s cryPg = false)) (((({ State.reset with cry := { CryState.reset with ctx := [(2, { Ctx.free with st := .admitted, desc := [0x00300012, 0, 0,0,0,0,0,0, 100], first := some 5 }), (3, { Ctx.free with st := .suspended, desc := [0x00300012], first := some 9, stop := some 0, next := [⟨4, [0x00300013], ⟨0,0,0,0,0,0⟩⟩] }), (4, { Ctx.free with st := .draining, desc := [1] })] } }).setFld fCRY_STAT_NADMIT 3).wr (rCRY_STAGEi 0) 0x20010040).wr (rCRY_STAGEi 15) 7) (5)) ∧
  ((fun (s : State) (n : BitVec 14) => (s.flag fCRY_STAT_OPBUSY = false) ∧ (frozen s cryPg = true)) ((({ State.reset with cry := { CryState.reset with ctx := [(2, { Ctx.free with st := .admitted, desc := [0x00300012, 0, 0,0,0,0,0,0, 100], first := some 5 }), (3, { Ctx.free with st := .suspended, desc := [0x00300012], first := some 9, stop := some 0, next := [⟨4, [0x00300013], ⟨0,0,0,0,0,0⟩⟩] }), (4, { Ctx.free with st := .draining, desc := [1] })] } }).setFld fCRY_STAT_NADMIT 3).setFlag (fPAGE_CTRL_FREEZE cryPg) true) (5)) ∧
  ((fun (s : State) (n : BitVec 14) => (s.flag fCRY_STAT_OPBUSY = true)) (State.reset.setFlag fCRY_STAT_OPBUSY true) (5)) ∧
  ((fun (s : State) (n : BitVec 14) => (s.flag fCRY_STAT_OPBUSY = false) ∧ (frozen s cryPg = false)) (((({ State.reset with cry := { CryState.reset with ctx := [(2, { Ctx.free with st := .admitted, desc := [0x00300012, 0, 0,0,0,0,0,0, 100], first := some 5 }), (3, { Ctx.free with st := .suspended, desc := [0x00300012], first := some 9, stop := some 0, next := [⟨4, [0x00300013], ⟨0,0,0,0,0,0⟩⟩] }), (4, { Ctx.free with st := .draining, desc := [1] })] } }).setFld fCRY_STAT_NADMIT 3).wr (rCRY_STAGEi 0) 0x20010040).wr (rCRY_STAGEi 15) 7) (5)) ∧
  ((fun (s : State) (n : BitVec 14) => (s.flag fCRY_STAT_OPBUSY = false) ∧ (frozen s cryPg = true)) ((({ State.reset with cry := { CryState.reset with ctx := [(2, { Ctx.free with st := .admitted, desc := [0x00300012, 0, 0,0,0,0,0,0, 100], first := some 5 }), (3, { Ctx.free with st := .suspended, desc := [0x00300012], first := some 9, stop := some 0, next := [⟨4, [0x00300013], ⟨0,0,0,0,0,0⟩⟩] }), (4, { Ctx.free with st := .draining, desc := [1] })] } }).setFld fCRY_STAT_NADMIT 3).setFlag (fPAGE_CTRL_FREEZE cryPg) true) (5)) ∧
  ((fun (s : State) (n : BitVec 14) => (s.flag fCRY_STAT_OPBUSY = true)) (State.reset.setFlag fCRY_STAT_OPBUSY true) (5)) :=
  ⟨by decide +kernel, by decide +kernel, by decide +kernel, by decide +kernel, by decide +kernel, by decide +kernel, by decide +kernel, by decide +kernel⟩
theorem test_met_CrystallizerOperations_3 :
  ((fun (s : State) (n : BitVec 14) => (s.flag fCRY_STAT_OPBUSY = false) ∧ (frozen s cryPg = false)) (((({ State.reset with cry := { CryState.reset with ctx := [(2, { Ctx.free with st := .admitted, desc := [0x00300012, 0, 0,0,0,0,0,0, 100], first := some 5 }), (3, { Ctx.free with st := .suspended, desc := [0x00300012], first := some 9, stop := some 0, next := [⟨4, [0x00300013], ⟨0,0,0,0,0,0⟩⟩] }), (4, { Ctx.free with st := .draining, desc := [1] })] } }).setFld fCRY_STAT_NADMIT 3).wr (rCRY_STAGEi 0) 0x20010040).wr (rCRY_STAGEi 15) 7) (5)) ∧
  ((fun (s : State) (n : BitVec 14) => (s.flag fCRY_STAT_OPBUSY = false) ∧ (frozen s cryPg = true)) ((({ State.reset with cry := { CryState.reset with ctx := [(2, { Ctx.free with st := .admitted, desc := [0x00300012, 0, 0,0,0,0,0,0, 100], first := some 5 }), (3, { Ctx.free with st := .suspended, desc := [0x00300012], first := some 9, stop := some 0, next := [⟨4, [0x00300013], ⟨0,0,0,0,0,0⟩⟩] }), (4, { Ctx.free with st := .draining, desc := [1] })] } }).setFld fCRY_STAT_NADMIT 3).setFlag (fPAGE_CTRL_FREEZE cryPg) true) (5)) ∧
  ((fun (s : State) (n : BitVec 14) => (s.flag fCRY_STAT_OPBUSY = true)) (State.reset.setFlag fCRY_STAT_OPBUSY true) (5)) ∧
  ((fun (s : State) (n : BitVec 14) => (s.flag fCRY_STAT_OPBUSY = false) ∧ (frozen s cryPg = false)) (((({ State.reset with cry := { CryState.reset with ctx := [(2, { Ctx.free with st := .admitted, desc := [0x00300012, 0, 0,0,0,0,0,0, 100], first := some 5 }), (3, { Ctx.free with st := .suspended, desc := [0x00300012], first := some 9, stop := some 0, next := [⟨4, [0x00300013], ⟨0,0,0,0,0,0⟩⟩] }), (4, { Ctx.free with st := .draining, desc := [1] })] } }).setFld fCRY_STAT_NADMIT 3).wr (rCRY_STAGEi 0) 0x20010040).wr (rCRY_STAGEi 15) 7) (5)) ∧
  ((fun (s : State) (n : BitVec 14) => (s.flag fCRY_STAT_OPBUSY = false) ∧ (frozen s cryPg = true)) ((({ State.reset with cry := { CryState.reset with ctx := [(2, { Ctx.free with st := .admitted, desc := [0x00300012, 0, 0,0,0,0,0,0, 100], first := some 5 }), (3, { Ctx.free with st := .suspended, desc := [0x00300012], first := some 9, stop := some 0, next := [⟨4, [0x00300013], ⟨0,0,0,0,0,0⟩⟩] }), (4, { Ctx.free with st := .draining, desc := [1] })] } }).setFld fCRY_STAT_NADMIT 3).setFlag (fPAGE_CTRL_FREEZE cryPg) true) (5)) ∧
  ((fun (s : State)  => (s.flag fCRY_STAT_OPBUSY = true)) (State.reset.setFlag fCRY_STAT_OPBUSY true) ) ∧
  ((fun (s : State)  => (s.flag fCRY_STAT_OPBUSY = false) ∧ (frozen s cryPg = false)) (((({ State.reset with cry := { CryState.reset with ctx := [(2, { Ctx.free with st := .admitted, desc := [0x00300012, 0, 0,0,0,0,0,0, 100], first := some 5 }), (3, { Ctx.free with st := .suspended, desc := [0x00300012], first := some 9, stop := some 0, next := [⟨4, [0x00300013], ⟨0,0,0,0,0,0⟩⟩] }), (4, { Ctx.free with st := .draining, desc := [1] })] } }).setFld fCRY_STAT_NADMIT 3).wr (rCRY_STAGEi 0) 0x20010040).wr (rCRY_STAGEi 15) 7) ) ∧
  ((fun (s : State)  => (s.flag fCRY_STAT_OPBUSY = false) ∧ (frozen s cryPg = true)) ((({ State.reset with cry := { CryState.reset with ctx := [(2, { Ctx.free with st := .admitted, desc := [0x00300012, 0, 0,0,0,0,0,0, 100], first := some 5 }), (3, { Ctx.free with st := .suspended, desc := [0x00300012], first := some 9, stop := some 0, next := [⟨4, [0x00300013], ⟨0,0,0,0,0,0⟩⟩] }), (4, { Ctx.free with st := .draining, desc := [1] })] } }).setFld fCRY_STAT_NADMIT 3).setFlag (fPAGE_CTRL_FREEZE cryPg) true) ) :=
  ⟨by decide +kernel, by decide +kernel, by decide +kernel, by decide +kernel, by decide +kernel, by decide +kernel, by decide +kernel, by decide +kernel⟩
theorem test_met_CrystallizerOperations_4 :
  ((fun (s : State)  => (s.cry.op = none ∨ frozen s cryPg = true)) (State.reset) ) ∧
  ((fun (s : State) (n : Nat) (d : List Word) => (frozen s cryPg = false) ∧ (s.cry.op = some ⟨1, n, d⟩) ∧ (10239 < n)) ((({ (({ State.reset with cry := { CryState.reset with ctx := [(2, { Ctx.free with st := .admitted, desc := [0x00300012, 0, 0,0,0,0,0,0, 100], first := some 5 }), (3, { Ctx.free with st := .suspended, desc := [0x00300012], first := some 9, stop := some 0, next := [⟨4, [0x00300013], ⟨0,0,0,0,0,0⟩⟩] }), (4, { Ctx.free with st := .draining, desc := [1] })] } }).setFld fCRY_STAT_NADMIT 3) with cry := { (({ State.reset with cry := { CryState.reset with ctx := [(2, { Ctx.free with st := .admitted, desc := [0x00300012, 0, 0,0,0,0,0,0, 100], first := some 5 }), (3, { Ctx.free with st := .suspended, desc := [0x00300012], first := some 9, stop := some 0, next := [⟨4, [0x00300013], ⟨0,0,0,0,0,0⟩⟩] }), (4, { Ctx.free with st := .draining, desc := [1] })] } }).setFld fCRY_STAT_NADMIT 3).cry with op := some ⟨1, 10240, []⟩ } }).wr64 rTICKNO 100)) (10240) ([])) ∧
  ((fun (s : State) (n : Nat) (d : List Word) => (frozen s cryPg = false) ∧ (s.cry.op = some ⟨2, n, d⟩) ∧ (10239 < n)) ((({ (({ State.reset with cry := { CryState.reset with ctx := [(2, { Ctx.free with st := .admitted, desc := [0x00300012, 0, 0,0,0,0,0,0, 100], first := some 5 }), (3, { Ctx.free with st := .suspended, desc := [0x00300012], first := some 9, stop := some 0, next := [⟨4, [0x00300013], ⟨0,0,0,0,0,0⟩⟩] }), (4, { Ctx.free with st := .draining, desc := [1] })] } }).setFld fCRY_STAT_NADMIT 3) with cry := { (({ State.reset with cry := { CryState.reset with ctx := [(2, { Ctx.free with st := .admitted, desc := [0x00300012, 0, 0,0,0,0,0,0, 100], first := some 5 }), (3, { Ctx.free with st := .suspended, desc := [0x00300012], first := some 9, stop := some 0, next := [⟨4, [0x00300013], ⟨0,0,0,0,0,0⟩⟩] }), (4, { Ctx.free with st := .draining, desc := [1] })] } }).setFld fCRY_STAT_NADMIT 3).cry with op := some ⟨2, 10240, []⟩ } }).wr64 rTICKNO 100)) (10240) ([])) ∧
  ((fun (s : State) (n : Nat) (d : List Word) => (frozen s cryPg = false) ∧ (s.cry.op = some ⟨3, n, d⟩) ∧ (10239 < n)) ((({ (({ State.reset with cry := { CryState.reset with ctx := [(2, { Ctx.free with st := .admitted, desc := [0x00300012, 0, 0,0,0,0,0,0, 100], first := some 5 }), (3, { Ctx.free with st := .suspended, desc := [0x00300012], first := some 9, stop := some 0, next := [⟨4, [0x00300013], ⟨0,0,0,0,0,0⟩⟩] }), (4, { Ctx.free with st := .draining, desc := [1] })] } }).setFld fCRY_STAT_NADMIT 3) with cry := { (({ State.reset with cry := { CryState.reset with ctx := [(2, { Ctx.free with st := .admitted, desc := [0x00300012, 0, 0,0,0,0,0,0, 100], first := some 5 }), (3, { Ctx.free with st := .suspended, desc := [0x00300012], first := some 9, stop := some 0, next := [⟨4, [0x00300013], ⟨0,0,0,0,0,0⟩⟩] }), (4, { Ctx.free with st := .draining, desc := [1] })] } }).setFld fCRY_STAT_NADMIT 3).cry with op := some ⟨3, 10240, []⟩ } }).wr64 rTICKNO 100)) (10240) ([])) ∧
  ((fun (s : State) (n : Nat) (d : List Word) => (frozen s cryPg = false) ∧ (s.cry.op = some ⟨4, n, d⟩) ∧ (10239 < n)) ((({ (({ State.reset with cry := { CryState.reset with ctx := [(2, { Ctx.free with st := .admitted, desc := [0x00300012, 0, 0,0,0,0,0,0, 100], first := some 5 }), (3, { Ctx.free with st := .suspended, desc := [0x00300012], first := some 9, stop := some 0, next := [⟨4, [0x00300013], ⟨0,0,0,0,0,0⟩⟩] }), (4, { Ctx.free with st := .draining, desc := [1] })] } }).setFld fCRY_STAT_NADMIT 3) with cry := { (({ State.reset with cry := { CryState.reset with ctx := [(2, { Ctx.free with st := .admitted, desc := [0x00300012, 0, 0,0,0,0,0,0, 100], first := some 5 }), (3, { Ctx.free with st := .suspended, desc := [0x00300012], first := some 9, stop := some 0, next := [⟨4, [0x00300013], ⟨0,0,0,0,0,0⟩⟩] }), (4, { Ctx.free with st := .draining, desc := [1] })] } }).setFld fCRY_STAT_NADMIT 3).cry with op := some ⟨4, 10240, []⟩ } }).wr64 rTICKNO 100)) (10240) ([])) ∧
  ((fun (s : State) (n : Nat) (d : List Word) => (frozen s cryPg = false) ∧ (s.cry.op = some ⟨5, n, d⟩) ∧ (10239 < n)) ((({ (({ State.reset with cry := { CryState.reset with ctx := [(2, { Ctx.free with st := .admitted, desc := [0x00300012, 0, 0,0,0,0,0,0, 100], first := some 5 }), (3, { Ctx.free with st := .suspended, desc := [0x00300012], first := some 9, stop := some 0, next := [⟨4, [0x00300013], ⟨0,0,0,0,0,0⟩⟩] }), (4, { Ctx.free with st := .draining, desc := [1] })] } }).setFld fCRY_STAT_NADMIT 3) with cry := { (({ State.reset with cry := { CryState.reset with ctx := [(2, { Ctx.free with st := .admitted, desc := [0x00300012, 0, 0,0,0,0,0,0, 100], first := some 5 }), (3, { Ctx.free with st := .suspended, desc := [0x00300012], first := some 9, stop := some 0, next := [⟨4, [0x00300013], ⟨0,0,0,0,0,0⟩⟩] }), (4, { Ctx.free with st := .draining, desc := [1] })] } }).setFld fCRY_STAT_NADMIT 3).cry with op := some ⟨5, 10240, []⟩ } }).wr64 rTICKNO 100)) (10240) ([])) ∧
  ((fun (s : State) (n : Nat) (d : List Word) => (frozen s cryPg = false) ∧ (s.cry.op = some ⟨6, n, d⟩) ∧ (10239 < n)) ((({ (({ State.reset with cry := { CryState.reset with ctx := [(2, { Ctx.free with st := .admitted, desc := [0x00300012, 0, 0,0,0,0,0,0, 100], first := some 5 }), (3, { Ctx.free with st := .suspended, desc := [0x00300012], first := some 9, stop := some 0, next := [⟨4, [0x00300013], ⟨0,0,0,0,0,0⟩⟩] }), (4, { Ctx.free with st := .draining, desc := [1] })] } }).setFld fCRY_STAT_NADMIT 3) with cry := { (({ State.reset with cry := { CryState.reset with ctx := [(2, { Ctx.free with st := .admitted, desc := [0x00300012, 0, 0,0,0,0,0,0, 100], first := some 5 }), (3, { Ctx.free with st := .suspended, desc := [0x00300012], first := some 9, stop := some 0, next := [⟨4, [0x00300013], ⟨0,0,0,0,0,0⟩⟩] }), (4, { Ctx.free with st := .draining, desc := [1] })] } }).setFld fCRY_STAT_NADMIT 3).cry with op := some ⟨6, 10240, []⟩ } }).wr64 rTICKNO 100)) (10240) ([])) ∧
  ((fun (s : State) (n : Nat) (d : List Word) => (frozen s cryPg = false) ∧ (s.cry.op = some ⟨7, n, d⟩) ∧ (10239 < n)) ((({ (({ State.reset with cry := { CryState.reset with ctx := [(2, { Ctx.free with st := .admitted, desc := [0x00300012, 0, 0,0,0,0,0,0, 100], first := some 5 }), (3, { Ctx.free with st := .suspended, desc := [0x00300012], first := some 9, stop := some 0, next := [⟨4, [0x00300013], ⟨0,0,0,0,0,0⟩⟩] }), (4, { Ctx.free with st := .draining, desc := [1] })] } }).setFld fCRY_STAT_NADMIT 3) with cry := { (({ State.reset with cry := { CryState.reset with ctx := [(2, { Ctx.free with st := .admitted, desc := [0x00300012, 0, 0,0,0,0,0,0, 100], first := some 5 }), (3, { Ctx.free with st := .suspended, desc := [0x00300012], first := some 9, stop := some 0, next := [⟨4, [0x00300013], ⟨0,0,0,0,0,0⟩⟩] }), (4, { Ctx.free with st := .draining, desc := [1] })] } }).setFld fCRY_STAT_NADMIT 3).cry with op := some ⟨7, 10240, []⟩ } }).wr64 rTICKNO 100)) (10240) ([])) :=
  ⟨by decide +kernel, by decide +kernel, by decide +kernel, by decide +kernel, by decide +kernel, by decide +kernel, by decide +kernel, by decide +kernel⟩
theorem test_met_CrystallizerOperations_5 :
  ((fun (s : State) (n : Nat) (d : List Word) => (frozen s cryPg = false) ∧ (s.cry.op = some ⟨1, n, d⟩) ∧ (n ≤ 10239) ∧ ((ctxOf s n).st ≠ .free)) ((({ (({ State.reset with cry := { CryState.reset with ctx := [(2, { Ctx.free with st := .admitted, desc := [0x00300012, 0, 0,0,0,0,0,0, 100], first := some 5 }), (3, { Ctx.free with st := .suspended, desc := [0x00300012], first := some 9, stop := some 0, next := [⟨4, [0x00300013], ⟨0,0,0,0,0,0⟩⟩] }), (4, { Ctx.free with st := .draining, desc := [1] })] } }).setFld fCRY_STAT_NADMIT 3) with cry := { (({ State.reset with cry := { CryState.reset with ctx := [(2, { Ctx.free with st := .admitted, desc := [0x00300012, 0, 0,0,0,0,0,0, 100], first := some 5 }), (3, { Ctx.free with st := .suspended, desc := [0x00300012], first := some 9, stop := some 0, next := [⟨4, [0x00300013], ⟨0,0,0,0,0,0⟩⟩] }), (4, { Ctx.free with st := .draining, desc := [1] })] } }).setFld fCRY_STAT_NADMIT 3).cry with op := some ⟨1, 4, []⟩ } }).wr64 rTICKNO 100)) (4) ([])) ∧
  ((fun (s : State) (n : Nat) (d : List Word) => (frozen s cryPg = false) ∧ (s.cry.op = some ⟨3, n, d⟩) ∧ (n ≤ 10239) ∧ ((ctxOf s n).st ≠ .admitted ∧ (ctxOf s n).st ≠ .suspended)) ((({ (({ State.reset with cry := { CryState.reset with ctx := [(2, { Ctx.free with st := .admitted, desc := [0x00300012, 0, 0,0,0,0,0,0, 100], first := some 5 }), (3, { Ctx.free with st := .suspended, desc := [0x00300012], first := some 9, stop := some 0, next := [⟨4, [0x00300013], ⟨0,0,0,0,0,0⟩⟩] }), (4, { Ctx.free with st := .draining, desc := [1] })] } }).setFld fCRY_STAT_NADMIT 3) with cry := { (({ State.reset with cry := { CryState.reset with ctx := [(2, { Ctx.free with st := .admitted, desc := [0x00300012, 0, 0,0,0,0,0,0, 100], first := some 5 }), (3, { Ctx.free with st := .suspended, desc := [0x00300012], first := some 9, stop := some 0, next := [⟨4, [0x00300013], ⟨0,0,0,0,0,0⟩⟩] }), (4, { Ctx.free with st := .draining, desc := [1] })] } }).setFld fCRY_STAT_NADMIT 3).cry with op := some ⟨3, 4, []⟩ } }).wr64 rTICKNO 100)) (4) ([])) ∧
  ((fun (s : State) (n : Nat) (d : List Word) => (frozen s cryPg = false) ∧ (s.cry.op = some ⟨4, n, d⟩) ∧ (n ≤ 10239) ∧ ((ctxOf s n).st ≠ .admitted ∧ (ctxOf s n).st ≠ .suspended)) ((({ (({ State.reset with cry := { CryState.reset with ctx := [(2, { Ctx.free with st := .admitted, desc := [0x00300012, 0, 0,0,0,0,0,0, 100], first := some 5 }), (3, { Ctx.free with st := .suspended, desc := [0x00300012], first := some 9, stop := some 0, next := [⟨4, [0x00300013], ⟨0,0,0,0,0,0⟩⟩] }), (4, { Ctx.free with st := .draining, desc := [1] })] } }).setFld fCRY_STAT_NADMIT 3) with cry := { (({ State.reset with cry := { CryState.reset with ctx := [(2, { Ctx.free with st := .admitted, desc := [0x00300012, 0, 0,0,0,0,0,0, 100], first := some 5 }), (3, { Ctx.free with st := .suspended, desc := [0x00300012], first := some 9, stop := some 0, next := [⟨4, [0x00300013], ⟨0,0,0,0,0,0⟩⟩] }), (4, { Ctx.free with st := .draining, desc := [1] })] } }).setFld fCRY_STAT_NADMIT 3).cry with op := some ⟨4, 4, []⟩ } }).wr64 rTICKNO 100)) (4) ([])) ∧
  ((fun (s : State) (n : Nat) (d : List Word) => (frozen s cryPg = false) ∧ (s.cry.op = some ⟨5, n, d⟩) ∧ (n ≤ 10239) ∧ ((ctxOf s n).st ≠ .admitted)) ((({ (({ State.reset with cry := { CryState.reset with ctx := [(2, { Ctx.free with st := .admitted, desc := [0x00300012, 0, 0,0,0,0,0,0, 100], first := some 5 }), (3, { Ctx.free with st := .suspended, desc := [0x00300012], first := some 9, stop := some 0, next := [⟨4, [0x00300013], ⟨0,0,0,0,0,0⟩⟩] }), (4, { Ctx.free with st := .draining, desc := [1] })] } }).setFld fCRY_STAT_NADMIT 3) with cry := { (({ State.reset with cry := { CryState.reset with ctx := [(2, { Ctx.free with st := .admitted, desc := [0x00300012, 0, 0,0,0,0,0,0, 100], first := some 5 }), (3, { Ctx.free with st := .suspended, desc := [0x00300012], first := some 9, stop := some 0, next := [⟨4, [0x00300013], ⟨0,0,0,0,0,0⟩⟩] }), (4, { Ctx.free with st := .draining, desc := [1] })] } }).setFld fCRY_STAT_NADMIT 3).cry with op := some ⟨5, 4, []⟩ } }).wr64 rTICKNO 100)) (4) ([])) ∧
  ((fun (s : State) (n : Nat) (d : List Word) => (frozen s cryPg = false) ∧ (s.cry.op = some ⟨6, n, d⟩) ∧ (n ≤ 10239) ∧ ((ctxOf s n).st ≠ .suspended)) ((({ (({ State.reset with cry := { CryState.reset with ctx := [(2, { Ctx.free with st := .admitted, desc := [0x00300012, 0, 0,0,0,0,0,0, 100], first := some 5 }), (3, { Ctx.free with st := .suspended, desc := [0x00300012], first := some 9, stop := some 0, next := [⟨4, [0x00300013], ⟨0,0,0,0,0,0⟩⟩] }), (4, { Ctx.free with st := .draining, desc := [1] })] } }).setFld fCRY_STAT_NADMIT 3) with cry := { (({ State.reset with cry := { CryState.reset with ctx := [(2, { Ctx.free with st := .admitted, desc := [0x00300012, 0, 0,0,0,0,0,0, 100], first := some 5 }), (3, { Ctx.free with st := .suspended, desc := [0x00300012], first := some 9, stop := some 0, next := [⟨4, [0x00300013], ⟨0,0,0,0,0,0⟩⟩] }), (4, { Ctx.free with st := .draining, desc := [1] })] } }).setFld fCRY_STAT_NADMIT 3).cry with op := some ⟨6, 4, []⟩ } }).wr64 rTICKNO 100)) (4) ([])) ∧
  ((fun (s : State) (n : Nat) (d : List Word) (f : Fail) => (frozen s cryPg = false) ∧ (s.cry.op = some ⟨1, n, d⟩) ∧ (n ≤ 10239) ∧ ((ctxOf s n).st = .free) ∧ (Clean s) ∧ (admission s n d = some f)) ((({ (({ State.reset with cry := { CryState.reset with ctx := [(2, { Ctx.free with st := .admitted, desc := [0x00300012, 0, 0,0,0,0,0,0, 100], first := some 5 }), (3, { Ctx.free with st := .suspended, desc := [0x00300012], first := some 9, stop := some 0, next := [⟨4, [0x00300013], ⟨0,0,0,0,0,0⟩⟩] }), (4, { Ctx.free with st := .draining, desc := [1] })] } }).setFld fCRY_STAT_NADMIT 3) with cry := { (({ State.reset with cry := { CryState.reset with ctx := [(2, { Ctx.free with st := .admitted, desc := [0x00300012, 0, 0,0,0,0,0,0, 100], first := some 5 }), (3, { Ctx.free with st := .suspended, desc := [0x00300012], first := some 9, stop := some 0, next := [⟨4, [0x00300013], ⟨0,0,0,0,0,0⟩⟩] }), (4, { Ctx.free with st := .draining, desc := [1] })] } }).setFld fCRY_STAT_NADMIT 3).cry with op := some ⟨1, 7, [0x00200000, 0x00210000]⟩ } }).wr64 rTICKNO 100)) (7) ([0x00200000, 0x00210000]) ((admission (({ State.reset with cry := { CryState.reset with ctx := [(2, { Ctx.free with st := .admitted, desc := [0x00300012, 0, 0,0,0,0,0,0, 100], first := some 5 }), (3, { Ctx.free with st := .suspended, desc := [0x00300012], first := some 9, stop := some 0, next := [⟨4, [0x00300013], ⟨0,0,0,0,0,0⟩⟩] }), (4, { Ctx.free with st := .draining, desc := [1] })] } }).setFld fCRY_STAT_NADMIT 3) 7 [0x00200000, 0x00210000]).getD ⟨0,0,0,0⟩)) ∧
  ((fun (s : State) (n : Nat) (d : List Word) (f : Fail) => (frozen s cryPg = false) ∧ (s.cry.op = some ⟨2, n, d⟩) ∧ (n ≤ 10239) ∧ (Clean s) ∧ (admission s n d = some f)) ((({ (({ State.reset with cry := { CryState.reset with ctx := [(2, { Ctx.free with st := .admitted, desc := [0x00300012, 0, 0,0,0,0,0,0, 100], first := some 5 }), (3, { Ctx.free with st := .suspended, desc := [0x00300012], first := some 9, stop := some 0, next := [⟨4, [0x00300013], ⟨0,0,0,0,0,0⟩⟩] }), (4, { Ctx.free with st := .draining, desc := [1] })] } }).setFld fCRY_STAT_NADMIT 3) with cry := { (({ State.reset with cry := { CryState.reset with ctx := [(2, { Ctx.free with st := .admitted, desc := [0x00300012, 0, 0,0,0,0,0,0, 100], first := some 5 }), (3, { Ctx.free with st := .suspended, desc := [0x00300012], first := some 9, stop := some 0, next := [⟨4, [0x00300013], ⟨0,0,0,0,0,0⟩⟩] }), (4, { Ctx.free with st := .draining, desc := [1] })] } }).setFld fCRY_STAT_NADMIT 3).cry with op := some ⟨2, 4, [0x00200000, 0x00210000]⟩ } }).wr64 rTICKNO 100)) (4) ([0x00200000, 0x00210000]) ((admission (({ State.reset with cry := { CryState.reset with ctx := [(2, { Ctx.free with st := .admitted, desc := [0x00300012, 0, 0,0,0,0,0,0, 100], first := some 5 }), (3, { Ctx.free with st := .suspended, desc := [0x00300012], first := some 9, stop := some 0, next := [⟨4, [0x00300013], ⟨0,0,0,0,0,0⟩⟩] }), (4, { Ctx.free with st := .draining, desc := [1] })] } }).setFld fCRY_STAT_NADMIT 3) 4 [0x00200000, 0x00210000]).getD ⟨0,0,0,0⟩)) ∧
  ((fun (s : State) (n : Nat) (d : List Word) (f : Fail) => (frozen s cryPg = false) ∧ (s.cry.op = some ⟨4, n, d⟩) ∧ (n ≤ 10239) ∧ ((ctxOf s n).st = .admitted ∨ (ctxOf s n).st = .suspended) ∧ (Clean s) ∧ (admission s n d = some f)) ((({ (({ State.reset with cry := { CryState.reset with ctx := [(2, { Ctx.free with st := .admitted, desc := [0x00300012, 0, 0,0,0,0,0,0, 100], first := some 5 }), (3, { Ctx.free with st := .suspended, desc := [0x00300012], first := some 9, stop := some 0, next := [⟨4, [0x00300013], ⟨0,0,0,0,0,0⟩⟩] }), (4, { Ctx.free with st := .draining, desc := [1] })] } }).setFld fCRY_STAT_NADMIT 3) with cry := { (({ State.reset with cry := { CryState.reset with ctx := [(2, { Ctx.free with st := .admitted, desc := [0x00300012, 0, 0,0,0,0,0,0, 100], first := some 5 }), (3, { Ctx.free with st := .suspended, desc := [0x00300012], first := some 9, stop := some 0, next := [⟨4, [0x00300013], ⟨0,0,0,0,0,0⟩⟩] }), (4, { Ctx.free with st := .draining, desc := [1] })] } }).setFld fCRY_STAT_NADMIT 3).cry with op := some ⟨4, 3, [0x00200000, 0x00210000]⟩ } }).wr64 rTICKNO 100)) (3) ([0x00200000, 0x00210000]) ((admission (({ State.reset with cry := { CryState.reset with ctx := [(2, { Ctx.free with st := .admitted, desc := [0x00300012, 0, 0,0,0,0,0,0, 100], first := some 5 }), (3, { Ctx.free with st := .suspended, desc := [0x00300012], first := some 9, stop := some 0, next := [⟨4, [0x00300013], ⟨0,0,0,0,0,0⟩⟩] }), (4, { Ctx.free with st := .draining, desc := [1] })] } }).setFld fCRY_STAT_NADMIT 3) 3 [0x00200000, 0x00210000]).getD ⟨0,0,0,0⟩)) :=
  ⟨by decide +kernel, by decide +kernel, by decide +kernel, by decide +kernel, by decide +kernel, by decide +kernel, by decide +kernel, by decide +kernel⟩
theorem test_met_CrystallizerOperations_6 :
  ((fun (s : State) (n : Nat) (d : List Word) => (frozen s cryPg = false) ∧ (s.cry.op = some ⟨2, n, d⟩) ∧ (n ≤ 10239) ∧ (Clean s) ∧ (admission s n d = none)) ((({ ((({ State.reset with cry := { CryState.reset with ctx := [(2, { Ctx.free with st := .admitted, desc := [0x00300012, 0, 0,0,0,0,0,0, 100], first := some 5 }), (3, { Ctx.free with st := .suspended, desc := [0x00300012], first := some 9, stop := some 0, next := [⟨4, [0x00300013], ⟨0,0,0,0,0,0⟩⟩] }), (4, { Ctx.free with st := .draining, desc := [1] })] } }).setFld fCRY_STAT_NADMIT 3).setFlag fCRY_STAT_TTVALID true) with cry := { ((({ State.reset with cry := { CryState.reset with ctx := [(2, { Ctx.free with st := .admitted, desc := [0x00300012, 0, 0,0,0,0,0,0, 100], first := some 5 }), (3, { Ctx.free with st := .suspended, desc := [0x00300012], first := some 9, stop := some 0, next := [⟨4, [0x00300013], ⟨0,0,0,0,0,0⟩⟩] }), (4, { Ctx.free with st := .draining, desc := [1] })] } }).setFld fCRY_STAT_NADMIT 3).setFlag fCRY_STAT_TTVALID true).cry with op := some ⟨2, 4, [0x00000012, 0x00210000]⟩ } }).wr64 rTICKNO 100)) (4) ([0x00000012, 0x00210000])) ∧
  ((fun (s : State) (n : Nat) (d : List Word) => (frozen s cryPg = false) ∧ (s.cry.op = some ⟨7, n, d⟩) ∧ (n ≤ 10239) ∧ ((ctxOf s n).st ≠ .free)) ((({ (({ State.reset with cry := { CryState.reset with ctx := [(2, { Ctx.free with st := .admitted, desc := [0x00300012, 0, 0,0,0,0,0,0, 100], first := some 5 }), (3, { Ctx.free with st := .suspended, desc := [0x00300012], first := some 9, stop := some 0, next := [⟨4, [0x00300013], ⟨0,0,0,0,0,0⟩⟩] }), (4, { Ctx.free with st := .draining, desc := [1] })] } }).setFld fCRY_STAT_NADMIT 3) with cry := { (({ State.reset with cry := { CryState.reset with ctx := [(2, { Ctx.free with st := .admitted, desc := [0x00300012, 0, 0,0,0,0,0,0, 100], first := some 5 }), (3, { Ctx.free with st := .suspended, desc := [0x00300012], first := some 9, stop := some 0, next := [⟨4, [0x00300013], ⟨0,0,0,0,0,0⟩⟩] }), (4, { Ctx.free with st := .draining, desc := [1] })] } }).setFld fCRY_STAT_NADMIT 3).cry with op := some ⟨7, 2, []⟩ } }).wr64 rTICKNO 100)) (2) ([])) ∧
  ((fun (s : State) (n : Nat) (d : List Word) => (frozen s cryPg = false) ∧ (s.cry.op = some ⟨7, n, d⟩) ∧ (n ≤ 10239) ∧ ((ctxOf s n).st = .free)) ((({ (({ State.reset with cry := { CryState.reset with ctx := [(2, { Ctx.free with st := .admitted, desc := [0x00300012, 0, 0,0,0,0,0,0, 100], first := some 5 }), (3, { Ctx.free with st := .suspended, desc := [0x00300012], first := some 9, stop := some 0, next := [⟨4, [0x00300013], ⟨0,0,0,0,0,0⟩⟩] }), (4, { Ctx.free with st := .draining, desc := [1] })] } }).setFld fCRY_STAT_NADMIT 3) with cry := { (({ State.reset with cry := { CryState.reset with ctx := [(2, { Ctx.free with st := .admitted, desc := [0x00300012, 0, 0,0,0,0,0,0, 100], first := some 5 }), (3, { Ctx.free with st := .suspended, desc := [0x00300012], first := some 9, stop := some 0, next := [⟨4, [0x00300013], ⟨0,0,0,0,0,0⟩⟩] }), (4, { Ctx.free with st := .draining, desc := [1] })] } }).setFld fCRY_STAT_NADMIT 3).cry with op := some ⟨7, 9, []⟩ } }).wr64 rTICKNO 100)) (9) ([])) ∧
  ((fun (s : State) (n : Nat) (m : Nat) (d : List Word) (x : Ctx) => (frozen s cryPg = false) ∧ (s.cry.op = some ⟨8, n, d⟩) ∧ (s.cry.ctx.find? (fun e => e.2.st != .free) = some (m, x))) ((({ (({ State.reset with cry := { CryState.reset with ctx := [(2, { Ctx.free with st := .admitted, desc := [0x00300012, 0, 0,0,0,0,0,0, 100], first := some 5 }), (3, { Ctx.free with st := .suspended, desc := [0x00300012], first := some 9, stop := some 0, next := [⟨4, [0x00300013], ⟨0,0,0,0,0,0⟩⟩] }), (4, { Ctx.free with st := .draining, desc := [1] })] } }).setFld fCRY_STAT_NADMIT 3) with cry := { (({ State.reset with cry := { CryState.reset with ctx := [(2, { Ctx.free with st := .admitted, desc := [0x00300012, 0, 0,0,0,0,0,0, 100], first := some 5 }), (3, { Ctx.free with st := .suspended, desc := [0x00300012], first := some 9, stop := some 0, next := [⟨4, [0x00300013], ⟨0,0,0,0,0,0⟩⟩] }), (4, { Ctx.free with st := .draining, desc := [1] })] } }).setFld fCRY_STAT_NADMIT 3).cry with op := some ⟨8, 0, []⟩ } }).wr64 rTICKNO 100)) (0) (2) ([]) (ctxOf (({ State.reset with cry := { CryState.reset with ctx := [(2, { Ctx.free with st := .admitted, desc := [0x00300012, 0, 0,0,0,0,0,0, 100], first := some 5 }), (3, { Ctx.free with st := .suspended, desc := [0x00300012], first := some 9, stop := some 0, next := [⟨4, [0x00300013], ⟨0,0,0,0,0,0⟩⟩] }), (4, { Ctx.free with st := .draining, desc := [1] })] } }).setFld fCRY_STAT_NADMIT 3) 2)) ∧
  ((fun (s : State) (n : Nat) (d : List Word) => (frozen s cryPg = false) ∧ (s.cry.op = some ⟨8, n, d⟩) ∧ (s.cry.ctx.find? (fun e => e.2.st != .free) = none) ∧ ((bitsGet (dW d 0) 0 10) ≤ 512) ∧ ((bitsGet (dW d 0) 10 10) ≤ 512) ∧ ((bitsGet (dW d 0) 20 10) ≤ 512) ∧ ((bitsGet (dW d 1) 0 10) ≤ 512)) ((({ (State.reset) with cry := { (State.reset).cry with op := some ⟨8, 0, [0x20010040, 7]⟩ } }).wr64 rTICKNO 100)) (0) ([0x20010040, 7])) ∧
  ((fun (s : State) (n : Nat) (d : List Word) => (frozen s cryPg = false) ∧ (s.cry.op = some ⟨8, n, d⟩) ∧ (s.cry.ctx.find? (fun e => e.2.st != .free) = none) ∧ (512 < (bitsGet (dW d 0) 0 10))) ((({ (State.reset) with cry := { (State.reset).cry with op := some ⟨8, 0, [0x201]⟩ } }).wr64 rTICKNO 100)) (0) ([0x201])) ∧
  ((fun (s : State) (n : Nat) (d : List Word) => (frozen s cryPg = false) ∧ (s.cry.op = some ⟨8, n, d⟩) ∧ (s.cry.ctx.find? (fun e => e.2.st != .free) = none) ∧ ((bitsGet (dW d 0) 0 10) ≤ 512) ∧ (512 < (bitsGet (dW d 0) 10 10))) ((({ (State.reset) with cry := { (State.reset).cry with op := some ⟨8, 0, [0x80440]⟩ } }).wr64 rTICKNO 100)) (0) ([0x80440])) ∧
  ((fun (s : State) (n : Nat) (d : List Word) => (frozen s cryPg = false) ∧ (s.cry.op = some ⟨8, n, d⟩) ∧ (s.cry.ctx.find? (fun e => e.2.st != .free) = none) ∧ ((bitsGet (dW d 0) 0 10) ≤ 512) ∧ ((bitsGet (dW d 0) 10 10) ≤ 512) ∧ (512 < (bitsGet (dW d 0) 20 10))) ((({ (State.reset) with cry := { (State.reset).cry with op := some ⟨8, 0, [0x20100040]⟩ } }).wr64 rTICKNO 100)) (0) ([0x20100040])) :=
  ⟨by decide +kernel, by decide +kernel, by decide +kernel, by decide +kernel, by decide +kernel, by decide +kernel, by decide +kernel, by decide +kernel⟩
theorem test_met_CrystallizerOperations_7 :
  (fun (s : State) (n : Nat) (d : List Word) => (frozen s cryPg = false) ∧ (s.cry.op = some ⟨8, n, d⟩) ∧ (s.cry.ctx.find? (fun e => e.2.st != .free) = none) ∧ ((bitsGet (dW d 0) 0 10) ≤ 512) ∧ ((bitsGet (dW d 0) 10 10) ≤ 512) ∧ ((bitsGet (dW d 0) 20 10) ≤ 512) ∧ (512 < (bitsGet (dW d 1) 0 10))) ((({ (State.reset) with cry := { (State.reset).cry with op := some ⟨8, 0, [0x40, 0x201]⟩ } }).wr64 rTICKNO 100)) (0) ([0x40, 0x201]) := by decide +kernel
theorem test_met_OperationDone :
  ((fun (s : State) (n : Nat) (d : List Word) => (frozen s cryPg = false) ∧ (s.cry.op = some ⟨1, n, d⟩) ∧ (n ≤ 10239) ∧ ((ctxOf s n).st = .free) ∧ (Clean s) ∧ (admission s n d = none)) ((({ ((({ State.reset with cry := { CryState.reset with ctx := [(2, { Ctx.free with st := .admitted, desc := [0x00300012, 0, 0,0,0,0,0,0, 100], first := some 5 }), (3, { Ctx.free with st := .suspended, desc := [0x00300012], first := some 9, stop := some 0, next := [⟨4, [0x00300013], ⟨0,0,0,0,0,0⟩⟩] }), (4, { Ctx.free with st := .draining, desc := [1] })] } }).setFld fCRY_STAT_NADMIT 3).setFlag fCRY_STAT_TTVALID true) with cry := { ((({ State.reset with cry := { CryState.reset with ctx := [(2, { Ctx.free with st := .admitted, desc := [0x00300012, 0, 0,0,0,0,0,0, 100], first := some 5 }), (3, { Ctx.free with st := .suspended, desc := [0x00300012], first := some 9, stop := some 0, next := [⟨4, [0x00300013], ⟨0,0,0,0,0,0⟩⟩] }), (4, { Ctx.free with st := .draining, desc := [1] })] } }).setFld fCRY_STAT_NADMIT 3).setFlag fCRY_STAT_TTVALID true).cry with op := some ⟨1, 7, [0x00000012, 0x00210000]⟩ } }).wr64 rTICKNO 100)) (7) ([0x00000012, 0x00210000])) ∧
  ((fun (s : State) (n : Nat) (d : List Word) => (frozen s cryPg = false) ∧ (s.cry.op = some ⟨3, n, d⟩) ∧ (n ≤ 10239) ∧ ((ctxOf s n).st = .admitted ∨ (ctxOf s n).st = .suspended)) ((({ (({ State.reset with cry := { CryState.reset with ctx := [(2, { Ctx.free with st := .admitted, desc := [0x00300012, 0, 0,0,0,0,0,0, 100], first := some 5 }), (3, { Ctx.free with st := .suspended, desc := [0x00300012], first := some 9, stop := some 0, next := [⟨4, [0x00300013], ⟨0,0,0,0,0,0⟩⟩] }), (4, { Ctx.free with st := .draining, desc := [1] })] } }).setFld fCRY_STAT_NADMIT 3) with cry := { (({ State.reset with cry := { CryState.reset with ctx := [(2, { Ctx.free with st := .admitted, desc := [0x00300012, 0, 0,0,0,0,0,0, 100], first := some 5 }), (3, { Ctx.free with st := .suspended, desc := [0x00300012], first := some 9, stop := some 0, next := [⟨4, [0x00300013], ⟨0,0,0,0,0,0⟩⟩] }), (4, { Ctx.free with st := .draining, desc := [1] })] } }).setFld fCRY_STAT_NADMIT 3).cry with op := some ⟨3, 2, []⟩ } }).wr64 rTICKNO 100)) (2) ([])) ∧
  ((fun (s : State) (n : Nat) (d : List Word) => (frozen s cryPg = false) ∧ (s.cry.op = some ⟨4, n, d⟩) ∧ (n ≤ 10239) ∧ ((ctxOf s n).st = .admitted ∨ (ctxOf s n).st = .suspended) ∧ (Clean s) ∧ (admission s n d = none)) ((({ ((({ State.reset with cry := { CryState.reset with ctx := [(2, { Ctx.free with st := .admitted, desc := [0x00300012, 0, 0,0,0,0,0,0, 100], first := some 5 }), (3, { Ctx.free with st := .suspended, desc := [0x00300012], first := some 9, stop := some 0, next := [⟨4, [0x00300013], ⟨0,0,0,0,0,0⟩⟩] }), (4, { Ctx.free with st := .draining, desc := [1] })] } }).setFld fCRY_STAT_NADMIT 3).setFlag fCRY_STAT_TTVALID true) with cry := { ((({ State.reset with cry := { CryState.reset with ctx := [(2, { Ctx.free with st := .admitted, desc := [0x00300012, 0, 0,0,0,0,0,0, 100], first := some 5 }), (3, { Ctx.free with st := .suspended, desc := [0x00300012], first := some 9, stop := some 0, next := [⟨4, [0x00300013], ⟨0,0,0,0,0,0⟩⟩] }), (4, { Ctx.free with st := .draining, desc := [1] })] } }).setFld fCRY_STAT_NADMIT 3).setFlag fCRY_STAT_TTVALID true).cry with op := some ⟨4, 3, [0x00000012, 0x00210000]⟩ } }).wr64 rTICKNO 100)) (3) ([0x00000012, 0x00210000])) ∧
  ((fun (s : State) (n : Nat) (d : List Word) => (frozen s cryPg = false) ∧ (s.cry.op = some ⟨5, n, d⟩) ∧ (n ≤ 10239) ∧ ((ctxOf s n).st = .admitted)) ((({ (({ State.reset with cry := { CryState.reset with ctx := [(2, { Ctx.free with st := .admitted, desc := [0x00300012, 0, 0,0,0,0,0,0, 100], first := some 5 }), (3, { Ctx.free with st := .suspended, desc := [0x00300012], first := some 9, stop := some 0, next := [⟨4, [0x00300013], ⟨0,0,0,0,0,0⟩⟩] }), (4, { Ctx.free with st := .draining, desc := [1] })] } }).setFld fCRY_STAT_NADMIT 3) with cry := { (({ State.reset with cry := { CryState.reset with ctx := [(2, { Ctx.free with st := .admitted, desc := [0x00300012, 0, 0,0,0,0,0,0, 100], first := some 5 }), (3, { Ctx.free with st := .suspended, desc := [0x00300012], first := some 9, stop := some 0, next := [⟨4, [0x00300013], ⟨0,0,0,0,0,0⟩⟩] }), (4, { Ctx.free with st := .draining, desc := [1] })] } }).setFld fCRY_STAT_NADMIT 3).cry with op := some ⟨5, 2, []⟩ } }).wr64 rTICKNO 100)) (2) ([])) ∧
  ((fun (s : State) (n : Nat) (d : List Word) => (frozen s cryPg = false) ∧ (s.cry.op = some ⟨6, n, d⟩) ∧ (n ≤ 10239) ∧ ((ctxOf s n).st = .suspended)) ((({ (({ State.reset with cry := { CryState.reset with ctx := [(2, { Ctx.free with st := .admitted, desc := [0x00300012, 0, 0,0,0,0,0,0, 100], first := some 5 }), (3, { Ctx.free with st := .suspended, desc := [0x00300012], first := some 9, stop := some 0, next := [⟨4, [0x00300013], ⟨0,0,0,0,0,0⟩⟩] }), (4, { Ctx.free with st := .draining, desc := [1] })] } }).setFld fCRY_STAT_NADMIT 3) with cry := { (({ State.reset with cry := { CryState.reset with ctx := [(2, { Ctx.free with st := .admitted, desc := [0x00300012, 0, 0,0,0,0,0,0, 100], first := some 5 }), (3, { Ctx.free with st := .suspended, desc := [0x00300012], first := some 9, stop := some 0, next := [⟨4, [0x00300013], ⟨0,0,0,0,0,0⟩⟩] }), (4, { Ctx.free with st := .draining, desc := [1] })] } }).setFld fCRY_STAT_NADMIT 3).cry with op := some ⟨6, 3, []⟩ } }).wr64 rTICKNO 100)) (3) ([])) :=
  ⟨by decide +kernel, by decide +kernel, by decide +kernel, by decide +kernel, by decide +kernel⟩
theorem test_met_LaunchPoints :
  ((fun (s : State) (bad : List (BitVec 14)) => (tbEn s = false ∨ s.tb.ticks = false)) (State.reset) ([3, 9])) ∧
  ((fun (s : State)  => (Fresh s) ∧ (pageEn s cryPg = false ∨ (dueList s (tickNo s) = [] ∧ shadowList s (tickNo s) = []))) (((((({ State.reset with cry := { CryState.reset with ctx := [] }, tb := { TbState.reset with ticks := true } }).setFlag (fPAGE_CTRL_EN tbPg) true).setFlag (fPAGE_CTRL_EN cryPg) true).wr64 rTICKNO 101).wr64 rSL_FCYC 999)) ) ∧
  ((fun (s : State)  => (tbEn s = true) ∧ (s.tb.ticks = true) ∧ (frozen s cryPg = false) ∧ (s.cry.launches = []) ∧ (jOrder s = []) ∧ ((∀ c : Fin 4, (s.core c.val).group = [] ∧ (s.core c.val).waiting = [] ∧ coreStopped s c.val = false)) ∧ (pageEn s cryPg = false ∨ (dueList s (tickNo s) = [] ∧ shadowList s (tickNo s) = []))) ({ ((((({ State.reset with cry := { CryState.reset with ctx := [] }, tb := { TbState.reset with ticks := true } }).setFlag (fPAGE_CTRL_EN tbPg) true).setFlag (fPAGE_CTRL_EN cryPg) true).wr64 rTICKNO 101).wr64 rSL_FCYC 999) with pan := { PanState.reset with pans := [(1, { Pan.empty with run := some ⟨.bg 1 9 4, [0x10, 0x44010004, 300, 0x800, 0x1000, 0x1800, 0x00010001, 1], Cap.root, 0, 0, 256, RedState.empty, [5]⟩, go := true, first := false }), (2, { Pan.empty with run := some ⟨.bg 1 9 4, [0x10, 0x44010008, 300, 0x800, 0x1000, 0x1800, 0x00010001, 1], Cap.root, 0, 0, 0, RedState.empty, [5]⟩, go := false })] } }) ) ∧
  ((fun (s : State) => (fun (n : Nat) (d : List Word) => (Fresh s) ∧ (pageEn s cryPg = true) ∧ (dueList s (tickNo s) = [(n, d)]) ∧ (shadowList s (tickNo s) = []) ∧ (xTask d = true) ∧ (xClasses d = 0) ∧ (xLate d = true)) (5) ((ctxOf s 5).desc)) (((((({ State.reset with cry := { CryState.reset with ctx := [(5, { Ctx.free with st := .admitted, first := some 4, desc := [0x00700011, 0, 0, 0, 0x1000, 0, 0, 0, 77, 88] })] }, tb := { TbState.reset with ticks := true } }).setFlag (fPAGE_CTRL_EN tbPg) true).setFlag (fPAGE_CTRL_EN cryPg) true).wr64 rTICKNO 101).wr64 rSL_FCYC 999).setFld fRST_CTRL_CORERUN 3)) ∧
  ((fun (s : State) => (fun (n : Nat) (d : List Word) => (Fresh s) ∧ (pageEn s cryPg = true) ∧ (dueList s (tickNo s) = [(n, d)]) ∧ (shadowList s (tickNo s) = []) ∧ (xTask d = true) ∧ (xClasses d = 0) ∧ (xLate d = false)) (5) ((ctxOf s 5).desc)) (((((({ State.reset with cry := { CryState.reset with ctx := [(5, { Ctx.free with st := .admitted, first := some 4, desc := [0x00600011, 3, 0, 0, 0x1000, 0, 0, 0, 77, 88] })] }, tb := { TbState.reset with ticks := true } }).setFlag (fPAGE_CTRL_EN tbPg) true).setFlag (fPAGE_CTRL_EN cryPg) true).wr64 rTICKNO 101).wr64 rSL_FCYC 999).setFld fRST_CTRL_CORERUN 3)) ∧
  ((fun (s : State) => (fun (n : Nat) (d : List Word) => (Fresh s) ∧ (pageEn s cryPg = true) ∧ (dueList s (tickNo s) = [(n, d)]) ∧ (shadowList s (tickNo s) = []) ∧ (xTask d = false) ∧ (xClasses d ≠ 0) ∧ (xNord d = 0) ∧ (xMbox d + 64 ≤ salSize) ∧ ((ctxOf s n).last = none) ∧ (rmapFree s (xMbox d))) (7) ((ctxOf s 7).desc)) (((((({ State.reset with cry := { CryState.reset with ctx := [(7, { Ctx.free with st := .admitted, first := some 4, desc := [0x00000011, 0x00210000, 0, 0, 0, 0, 0, 0, 0, 0, 0x4000] })] }, tb := { TbState.reset with ticks := true } }).setFlag (fPAGE_CTRL_EN tbPg) true).setFlag (fPAGE_CTRL_EN cryPg) true).wr64 rTICKNO 101).wr64 rSL_FCYC 999).setFld fRST_CTRL_CORERUN 3)) ∧
  ((fun (s : State) (l : Launch) => (tbEn s = true) ∧ (s.tb.ticks = true) ∧ (frozen s cryPg = false) ∧ (pageEn s cryPg = false ∨ (dueList s (tickNo s) = [] ∧ shadowList s (tickNo s) = [])) ∧ (s.cry.launches = [l]) ∧ (l.tick < tickNo s) ∧ (l.dead = false) ∧ (l.live ≠ 0) ∧ (l.taskLeft = false) ∧ (NoneQueued s) ∧ (jOrder s = []) ∧ ((ctxOf s l.ctx).st = .admitted) ∧ (xOvr ((ctxOf s l.ctx).descAt l.tick) = 0) ∧ ((ctxOf s l.ctx).last = none) ∧ ((∀ p : Fin 4, (panOf s p.val).run = none)) ∧ ((∀ c : Fin 4, (s.core c.val).group = [] ∧ (s.core c.val).waiting = [] ∧ coreStopped s c.val = false))) ({ ((((({ State.reset with cry := { CryState.reset with ctx := [] }, tb := { TbState.reset with ticks := true } }).setFlag (fPAGE_CTRL_EN tbPg) true).setFlag (fPAGE_CTRL_EN cryPg) true).wr64 rTICKNO 101).wr64 rSL_FCYC 999).setFld fRST_CTRL_CORERUN 3 with cry := { CryState.reset with ctx := [(9, { Ctx.free with st := .admitted, first := some 4, desc := [0x00000010, 2] })], launches := [(⟨9, 100, [0x00000010, 2, 0, 0, 0, 0, 0, 0, 0, 0, 0, 0, 0x00080010, 0x00FF, 0xABCD], Cost.zero, Cost.zero, 1, 1, false, false, false, 0⟩ : Launch)] } }) ((⟨9, 100, [0x00000010, 2, 0, 0, 0, 0, 0, 0, 0, 0, 0, 0, 0x00080010, 0x00FF, 0xABCD], Cost.zero, Cost.zero, 1, 1, false, false, false, 0⟩ : Launch))) ∧
  ((fun (s : State) => (fun (n : BitVec 14) (d : List Word) => (Fresh s) ∧ (pageEn s cryPg = true) ∧ (n.toNat ≤ 10239) ∧ ((ctxOf s n.toNat).st = .admitted) ∧ (dueList s (tickNo s) = [(n.toNat, d)]) ∧ (shadowList s (tickNo s) = [])) (5) ((ctxOf s 5).desc)) (((((({ State.reset with cry := { CryState.reset with ctx := [(5, { Ctx.free with st := .admitted, first := some 4, desc := [0x00600011, 3, 0, 0, 0x1000, 0, 0, 0, 77, 88] })] }, tb := { TbState.reset with ticks := true } }).setFlag (fPAGE_CTRL_EN tbPg) true).setFlag (fPAGE_CTRL_EN cryPg) true).wr64 rTICKNO 101).wr64 rSL_FCYC 999).setFld fRST_CTRL_CORERUN 3)) :=
  ⟨by decide +kernel, by decide +kernel, by decide +kernel, by decide +kernel, by decide +kernel, by decide +kernel, by decide +kernel, by decide +kernel⟩
theorem test_met_SlotEnds_1 :
  ((fun (s : State)  => (¬ (panIdle s = true ∧ s.cry.lateDone = false ∧ frozen s cryPg = false))) ({ State.reset with cry := { CryState.reset with lateDone := true } }) ) ∧
  ((fun (s : State)  => (panIdle s = true ∧ s.cry.lateDone = false ∧ frozen s cryPg = false) ∧ (∀ c : Fin 4, tasksOf s s.cry.lastTick c.val true = [])) (State.reset) ) ∧
  ((fun (s : State) => (fun (c : Fin 4) (ts : List Task) => (panIdle s = true ∧ s.cry.lateDone = false ∧ frozen s cryPg = false) ∧ ((tasksOf s s.cry.lastTick c.val true) = ts) ∧ (ts ≠ []) ∧ (∀ m : Fin 4, m ≠ c → tasksOf s s.cry.lastTick m.val true = [])) (1) (tasksOf s 101 1 true)) ({ ((((({ State.reset with cry := { CryState.reset with ctx := [] }, tb := { TbState.reset with ticks := true } }).setFlag (fPAGE_CTRL_EN tbPg) true).setFlag (fPAGE_CTRL_EN cryPg) true).wr64 rTICKNO 101).wr64 rSL_FCYC 999).setFld fRST_CTRL_CORERUN 3 with cry := { CryState.reset with lastTick := 101, launches := [⟨5, 101, [0x00700011, 0, 0, 0, 0x1000, 0, 0, 0, 77, 88], Cost.zero, Cost.zero, 0, 0, false, true, false, 0⟩] } })) ∧
  ((fun (s : State) (c : Fin 5) => (frozen s (corePg c.val) = true ∨ withinBudget (s.core c.val))) (State.reset) (2)) ∧
  ((fun (s : State) => (fun (c : Fin 5) (k : Task) (l : Launch) => (frozen s (corePg c.val) = false) ∧ ((s.core c.val).group = [k]) ∧ (k.budget < k.used) ∧ ((s.core c.val).overran = none) ∧ (s.cry.launches = [l]) ∧ (l.ctx = k.ctx) ∧ (l.tick = k.tick) ∧ (l.dead = false) ∧ (l.live ≠ 0) ∧ (NoneQueued s) ∧ ((ctxOf s l.ctx).st = .admitted) ∧ (xOvr ((ctxOf s l.ctx).descAt l.tick) = 0) ∧ ((ctxOf s l.ctx).last = none)) (1) (((s.core 1).group.headD ⟨0,0,0,0,0,0,Cap.zero⟩)) ((s.cry.launches.headD ⟨0,0,[],Cost.zero,Cost.zero,0,0,false,false,false,0⟩))) ((({ wE 1 (fun c => { c with group := [⟨9, 100, 51, 50, 0, 0, Cap.zero⟩], sb := [⟨0x10090000, 0, Cap.root, 0, 0, 0, false, false, 0, []⟩], wb := 1, wres := 2 }) with cry := { CryState.reset with ctx := [(9, { Ctx.free with st := .admitted, first := some 4, desc := [0x00000010, 2] })], launches := [⟨9, 100, [0x00000010, 2, 0, 0, 0, 0, 0, 0, 0, 0, 0, 0, 0x00080010, 0x00FF, 0xABCD], Cost.zero, Cost.zero, 1, 1, false, true, false, 0⟩] } }).wr64 rTICKNO 100))) ∧
  ((fun (s : State) (n : BitVec 14) => (mayRelease s n.toNat = false ∨ frozen s cryPg = true ∨ pageEn s cryPg = false)) (State.reset) (3)) ∧
  ((fun (s : State) (n : BitVec 14) (u : Nat) => (frozen s cryPg = false) ∧ (pageEn s cryPg = true) ∧ ((ctxOf s n.toNat).st = .draining) ∧ ((ctxOf s n.toNat).fromSusp = false) ∧ ((ctxOf s n.toNat).last = some u) ∧ (u < tickNo s) ∧ (s.cry.launches.all (fun l => l.ctx != n.toNat) = true)) (((({ State.reset with cry := { CryState.reset with ctx := [(3, { Ctx.free with st := .draining, last := some 90, desc := [1] }), (4, { Ctx.free with st := .draining, last := some 100, fromSusp := true, desc := [1] })] } }).wr64 rTICKNO 100).setFld fCRY_STAT_NADMIT 2).setFlag (fPAGE_CTRL_EN cryPg) true) (3) (90)) ∧
  ((fun (s : State) (n : BitVec 14) (u : Nat) => (frozen s cryPg = false) ∧ (pageEn s cryPg = true) ∧ ((ctxOf s n.toNat).st = .draining) ∧ ((ctxOf s n.toNat).fromSusp = true) ∧ ((ctxOf s n.toNat).last = some u) ∧ (u ≤ tickNo s)) (((({ State.reset with cry := { CryState.reset with ctx := [(3, { Ctx.free with st := .draining, last := some 90, desc := [1] }), (4, { Ctx.free with st := .draining, last := some 100, fromSusp := true, desc := [1] })] } }).wr64 rTICKNO 100).setFld fCRY_STAT_NADMIT 2).setFlag (fPAGE_CTRL_EN cryPg) true) (4) (100)) :=
  ⟨by decide +kernel, by decide +kernel, by decide +kernel, by decide +kernel, by decide +kernel, by decide +kernel, by decide +kernel, by decide +kernel⟩
theorem test_met_SlotEnds_2 :
  ((fun (s : State) (e : BitVec 14) => (jPending s e.toNat = false ∨ jDue s e.toNat = false ∨ frozen s 0x110 = true ∨ s.flag fPWR_STAT_BELOW = true)) (State.reset) (3)) ∧
  ((fun (s : State) (e : BitVec 14) => (jPending s e.toNat = true) ∧ ((jInfo s e.toNat).byDl = false) ∧ ((jInfo s e.toNat).bound ≠ 0) ∧ ((jInfo s e.toNat).bound < (jInfo s e.toNat).age) ∧ (frozen s 0x110 = false) ∧ (s.flag fPWR_STAT_BELOW = false)) ((({ State.reset with mram := putList [] (0xF00000 + 64 * 5) (bytesOfNat 64 (0x10 * 256 + 7 * 65536 + 9 * 2 ^ 32 + 3 * 2 ^ 64)), tj := { TjState.reset with info := [(5, { JInfo.zero with age := 17, bound := 16, ta := 80 })] } }).wr64 rTICKNO 100).wr64 rSL_FCYC 12288) (5)) ∧
  ((fun (s : State) (e : BitVec 14) => (frozen s slPg = true ∨ slUp s = true ∨ jPending s e.toNat = false ∨ (jInfo s e.toNat).byDl = true ∨ fcycOf s < (jInfo s e.toNat).fcyc + 12288)) (State.reset) (3)) ∧
  ((fun (s : State) (e : BitVec 14) => (frozen s slPg = false) ∧ (slUp s = false) ∧ (jPending s e.toNat = true) ∧ ((jInfo s e.toNat).byDl = false) ∧ ((jInfo s e.toNat).fcyc + 12288 ≤ fcycOf s)) ((({ State.reset with mram := putList [] (0xF00000 + 64 * 5) (bytesOfNat 64 (0x10 * 256 + 7 * 65536 + 9 * 2 ^ 32 + 3 * 2 ^ 64)), tj := { TjState.reset with info := [(5, { JInfo.zero with age := 17, bound := 16, ta := 80 })] } }).wr64 rTICKNO 100).wr64 rSL_FCYC 12288) (5)) :=
  ⟨by decide +kernel, by decide +kernel, by decide +kernel, by decide +kernel⟩
theorem test_met_TimingTable_1 :
  ((fun (s : State) (j : Fin 4) (v : Word) => (nadmit s ≠ 0)) (State.reset.setFld fCRY_STAT_NADMIT 2) (3) (5)) ∧
  ((fun (s : State) (j : Fin 4) (v : Word) => (nadmit s = 0) ∧ (j ≠ 3)) (State.reset) (2) (5)) ∧
  ((fun (s : State) (v : Word) => (nadmit s = 0)) (({ State.reset with cry := { CryState.reset with ttStage := [(0, 7), (2, 9)] } }).setFld fCRY_TTIDX 9) (5)) ∧
  ((fun (s : State)  => (nadmit s ≠ 0)) (State.reset.setFld fCRY_STAT_NADMIT 2) ) ∧
  ((fun (s : State)  => (nadmit s = 0) ∧ (ttValid (ttOf s) 0 = true ∧ ttWord (ttOf s) 0 2 = (s.rd rPCS_ID).toNat ∧ s.cry.tt.all (fun e => ttEntryOk s e.1) = true) ∧ (s.cry.tt.all (fun e => decide (stripTime (ttOf s) e.1 < 65536)) = true)) (({ State.reset with cry := { CryState.reset with tt := [(0, BitVec.ofNat 128 ((State.reset.rd rPCS_ID).toNat * 2 ^ 64 + 2 ^ 31))] } })) ) ∧
  ((fun (s : State)  => (nadmit s = 0) ∧ (¬ (ttValid (ttOf s) 0 = true ∧ ttWord (ttOf s) 0 2 = (s.rd rPCS_ID).toNat ∧ s.cry.tt.all (fun e => ttEntryOk s e.1) = true))) (State.reset) ) ∧
  ((fun (s : State)  => (locked s cryPg = false) ∧ (pageEn s cryPg = true) ∧ (nadmit s ≠ 0)) ((State.reset.setFld fCRY_STAT_NADMIT 2).setFlag (fPAGE_CTRL_EN cryPg) true) ) ∧
  ((fun (s : State) (on : Bool) => (locked s cryPg = false) ∧ (on = true ∨ nadmit s = 0 ∨ pageEn s cryPg = false)) (State.reset) (true)) :=
  ⟨by decide +kernel, by decide +kernel, by decide +kernel, by decide +kernel, by decide +kernel, by decide +kernel, by decide +kernel, by decide +kernel⟩
theorem test_met_TimingTable_2 :
  (fun (s : State) (on : Bool) => (locked s cryPg = true) ∧ (on ≠ pageEn s cryPg)) (State.reset.setFlag (fPAGE_LOCK_LOCK cryPg) true) (true) := by decide +kernel
theorem test_met_SalternAccess :
  ((fun (s : State) (port : Fin 83) (a : BitVec 25) (len : BitVec 7) => (a.toNat + len.toNat ≤ salSize) ∧ (HasRoom s port.val) ∧ (GoodBytes s a.toNat len.toNat)) (({ State.reset with sal := { SalState.reset with mem := putList [] 0x1000 (bytesOfNat 32 0x1112131415161718191A1B1C1D1E1F20212223), tag := [(0x100, true), (0x101, true)] } })) (64) (0x1001) (31)) ∧
  ((fun (s : State) (port : Fin 83) (a : BitVec 25) (len : BitVec 7) (k : Nat) (loc : Nat) => (a.toNat + len.toNat ≤ salSize) ∧ (HasRoom s port.val) ∧ (OneBad s a.toNat len.toNat k (.ce loc)) ∧ (s.fld fSAL_CETHR = 0 ∨ satInc 16 (storeGet 0 s.sal.ceCnt (bankOf (a.toNat / 8))) < s.fld fSAL_CETHR ∨ storeGet false s.sal.cePosted (bankOf (a.toNat / 8)) = true)) (({ State.reset with sal := { SalState.reset with mem := putList [] 0x1000 (bytesOfNat 32 0x1112131415161718191A1B1C1D1E1F20212223), err := [(0x1003, .ce 5)] } })) (64) (0x1001) (7) (2) (5)) ∧
  ((fun (s : State) (port : Fin 83) (a : BitVec 25) (len : BitVec 7) (k : Nat) (loc : Nat) => (a.toNat + len.toNat ≤ salSize) ∧ (HasRoom s port.val) ∧ (OneBad s a.toNat len.toNat k (.ce loc)) ∧ (s.fld fSAL_CETHR ≠ 0) ∧ (s.fld fSAL_CETHR ≤ satInc 16 (storeGet 0 s.sal.ceCnt (bankOf (a.toNat / 8)))) ∧ (storeGet false s.sal.cePosted (bankOf (a.toNat / 8)) = false)) ((({ State.reset with sal := { SalState.reset with mem := putList [] 0x1000 (bytesOfNat 32 0x1112131415161718191A1B1C1D1E1F20212223), err := [(0x1003, .ce 5)] } })).setFld fSAL_CETHR 1) (64) (0x1001) (7) (2) (5)) ∧
  ((fun (s : State) (port : Fin 83) (a : BitVec 25) (len : BitVec 7) (k : Nat) => (a.toNat + len.toNat ≤ salSize) ∧ (HasRoom s port.val) ∧ (OneBad s a.toNat len.toNat k .ue)) (({ State.reset with sal := { SalState.reset with mem := putList [] 0x1000 (bytesOfNat 32 0x1112131415161718191A1B1C1D1E1F20212223), err := [(0x1003, .ue)] } })) (64) (0x1001) (7) (2)) ∧
  ((fun (s : State) (port : Fin 83) (a : BitVec 25) (len : BitVec 7) (b : BitVec 25) (loc : Fin 13) => (a.toNat + len.toNat ≤ salSize) ∧ (HasRoom s port.val) ∧ (len.toNat = 0)) (({ State.reset with sal := { SalState.reset with mem := putList [] 0x1000 (bytesOfNat 32 0x1112131415161718191A1B1C1D1E1F20212223), err := [(0x1003, .ce 5)] } })) (64) (0x1001) (0) (0x1003) (7)) ∧
  ((fun (s : State) (port : Fin 83) (a : BitVec 25) (len : BitVec 7) (g : BitVec 15) => (a.toNat + len.toNat ≤ salSize) ∧ (HasRoom s port.val) ∧ (len.toNat = 0)) (({ State.reset with sal := { SalState.reset with mem := putList [] 0x1000 (bytesOfNat 32 0x1112131415161718191A1B1C1D1E1F20212223), tag := [(0x100, true), (0x101, true)] } })) (64) (0x1001) (0) (4)) ∧
  ((fun (s : State) (port : Fin 83) (a : BitVec 25) (bs : List (Option Byte)) (cap : Bool) => (HasRoom s port.val) ∧ (a.toNat + bs.length ≤ salSize) ∧ (cap = false ∨ portRank port.val ≠ 4 ∨ a.toNat % 16 ≠ 0 ∨ bs.length ≠ 16 ∨ bs.all Option.isSome = false)) (({ State.reset with sal := { SalState.reset with mem := putList [] 0x1000 (bytesOfNat 32 0x1112131415161718191A1B1C1D1E1F20212223), tag := [(0x100, true), (0x101, true)] } })) (3) (0x100E) ([some 1, none, some 3]) (true)) ∧
  ((fun (s : State) (port : Fin 83) (a : BitVec 25) (bytes : List Byte) => (HasRoom s port.val) ∧ (portRank port.val = 4) ∧ (a.toNat % 16 = 0) ∧ (bytes.length = 16)) (({ State.reset with sal := { SalState.reset with mem := putList [] 0x1000 (bytesOfNat 32 0x1112131415161718191A1B1C1D1E1F20212223), tag := [(0x100, true), (0x101, true)] } })) (77) (0x1FFFFF0) (List.replicate 16 7)) :=
  ⟨by decide +kernel, by decide +kernel, by decide +kernel, by decide +kernel, by decide +kernel, by decide +kernel, by decide +kernel, by decide +kernel⟩
theorem test_met_SalternRepair_1 :
  ((fun (s : State) (j : Fin 16) (w : BitVec 22) => (lockHeld s 0x130 = false) ∧ (s.flag fSAL_STAT_RMAPBUSY = false) ∧ (rmapValid s j.val = false) ∧ (∀ m : Fin 16, m ≠ j → rmapValid s m.val = false ∨ rmapWord s m.val ≠ w.toNat) ∧ (GoodBytes s (8 * w.toNat) 8)) (({ State.reset with sal := { SalState.reset with mem := putList [] 0x1000 (bytesOfNat 32 0x1112131415161718191A1B1C1D1E1F20212223), tag := [(0x100, true), (0x101, true)] } })) (15) (0x200)) ∧
  ((fun (s : State) (j : Fin 16) (w : BitVec 22) => (lockHeld s 0x130 = false) ∧ (s.flag fSAL_STAT_RMAPBUSY = false) ∧ (rmapValid s j.val = false) ∧ (∀ m : Fin 16, m ≠ j → rmapValid s m.val = false ∨ rmapWord s m.val ≠ w.toNat) ∧ (salBad s (8 * w.toNat) 8 = true)) (({ State.reset with sal := { SalState.reset with mem := putList [] 0x1000 (bytesOfNat 32 0x1112131415161718191A1B1C1D1E1F20212223), err := [(0x1003, .ue)] } })) (15) (0x200)) ∧
  ((fun (s : State) (j : Fin 16) (w : BitVec 22) (m : Fin 16) => (lockHeld s 0x130 = false) ∧ (s.flag fSAL_STAT_RMAPBUSY = true ∨ (m ≠ j ∧ rmapValid s m.val = true ∧ rmapWord s m.val = w.toNat))) (State.reset.setFlag fSAL_STAT_RMAPBUSY true) (3) (7) (0)) ∧
  ((fun (s : State) (j : Fin 16) (w : BitVec 22) => (lockHeld s 0x130 = false) ∧ (s.flag fSAL_STAT_RMAPBUSY = true)) (State.reset.setFlag fSAL_STAT_RMAPBUSY true) (3) (7)) ∧
  ((fun (s : State) (j : Fin 16) (w : BitVec 22) => (lockHeld s 0x130 = false) ∧ (s.flag fSAL_STAT_RMAPBUSY = false) ∧ (rmapValid s j.val = false)) (({ State.reset with sal := { SalState.reset with mem := putList [] 0x1000 (bytesOfNat 32 0x1112131415161718191A1B1C1D1E1F20212223), tag := [(0x100, true), (0x101, true)] } })) (3) (7)) ∧
  ((fun (s : State) (j : Fin 16) (w : BitVec 22) => (lockHeld s 0x130 = false) ∧ (s.flag fSAL_STAT_RMAPBUSY = false) ∧ (rmapValid s j.val = true) ∧ (RmapOnce s)) ((({ State.reset with sal := { SalState.reset with mem := putList [] 0x1000 (bytesOfNat 32 0x1112131415161718191A1B1C1D1E1F20212223), tag := [(0x100, true), (0x101, true)] } })).wr (rSAL_RMAPi 4) 0x80000200) (4) (0x200)) ∧
  ((fun (s : State) (j : Fin 16) (w : BitVec 22) => (lockHeld s 0x130 = true) ∧ (rmapLocked s j.val (2 ^ 31 + w.toNat) = true)) ((({ State.reset with sal := { SalState.reset with mem := putList [] 0x1000 (bytesOfNat 32 0x1112131415161718191A1B1C1D1E1F20212223), tag := [(0x100, true), (0x101, true)] } })).setFlag (fPAGE_LOCK_LOCK 0x130) true) (3) (7)) ∧
  ((fun (s : State)  => (frozen s 0x130 = true ∨ s.flag fSAL_STAT_RMAPBUSY = false)) (State.reset) ) :=
  ⟨by decide +kernel, by decide +kernel, by decide +kernel, by decide +kernel, by decide +kernel, by decide +kernel, by decide +kernel, by decide +kernel⟩
theorem test_met_SalternRepair_2 :
  ((fun (s : State)  => (frozen s 0x130 = false) ∧ (s.flag fSAL_STAT_RMAPBUSY = true)) (State.reset.setFlag fSAL_STAT_RMAPBUSY true) ) ∧
  ((fun (s : State)  => (nadmit s ≠ 0 ∨ s.flag fSAL_STAT_FILLBUSY = true ∨ s.fld fSAL_FILL_LEN = 0 ∨ 524288 < s.fld fSAL_FILL_BASE + s.fld fSAL_FILL_LEN)) (State.reset) ) ∧
  ((fun (s : State)  => (nadmit s = 0) ∧ (s.flag fSAL_STAT_FILLBUSY = false) ∧ (s.fld fSAL_FILL_LEN ≠ 0) ∧ (s.fld fSAL_FILL_BASE + s.fld fSAL_FILL_LEN ≤ 524288)) ((State.reset.setFld fSAL_FILL_BASE 524287).setFld fSAL_FILL_LEN 1) ) ∧
  ((fun (s : State)  => (frozen s 0x130 = true ∨ s.sal.fill = none)) (State.reset) ) ∧
  ((fun (s : State) (f : Fill) => (frozen s 0x130 = false) ∧ (s.sal.fill = some f) ∧ (f.base + f.len ≤ 524288) ∧ (RmapOnce s)) (({ ({ State.reset with sal := { SalState.reset with mem := putList [] 0x1000 (bytesOfNat 32 0x1112131415161718191A1B1C1D1E1F20212223), tag := [(0x100, true), (0x101, true)] } }) with sal := { (({ State.reset with sal := { SalState.reset with mem := putList [] 0x1000 (bytesOfNat 32 0x1112131415161718191A1B1C1D1E1F20212223), tag := [(0x100, true), (0x101, true)] } })).sal with fill := some ⟨64, 1⟩ } }).setFlag fSAL_STAT_FILLBUSY true) (⟨64, 1⟩)) :=
  ⟨by decide +kernel, by decide +kernel, by decide +kernel, by decide +kernel, by decide +kernel⟩
theorem test_met_RakeControl_1 :
  ((fun (s : State) (on : Bool) => (locked s rkPg = false) ∧ (on = false) ∧ (pageEn s rkPg = true) ∧ (nadmit s ≠ 0)) ((State.reset.setFld fCRY_STAT_NADMIT 2).setFlag (fPAGE_CTRL_EN rkPg) true) (false)) ∧
  ((fun (s : State) (on : Bool) => (locked s rkPg = false) ∧ (on = true ∨ pageEn s rkPg = false ∨ nadmit s = 0)) (State.reset) (true)) ∧
  ((fun (s : State) (on : Bool) => (locked s rkPg = true) ∧ (on ≠ pageEn s rkPg)) (State.reset.setFlag (fPAGE_LOCK_LOCK rkPg) true) (true)) ∧
  ((fun (s : State)  => (s.flag fRK_STAT_EMERG = true)) (State.reset.setFlag fRK_STAT_EMERG true) ) ∧
  ((fun (s : State)  => (s.flag fRK_STAT_EMERG = false) ∧ (∀ m : Fin 64, NotSent s m.val)) (State.reset) ) ∧
  ((fun (s : State) (n : Fin 64) (l : Nat) (bs : List Byte) => (OneFrame s n.val l bs) ∧ (s.flag fRK_STAT_EMERG = false)) (({ State.reset with out := [.cmdFrame 3 0 0 (List.replicate 60 7)], bl := { State.reset.bl with ports := [(3, { BPort.reset with sent := 1, blocks := List.replicate 8 0x070707070707 })] } }.wr64 rSL_FCYC 1000)) (3) (0) ((List.replicate 60 7))) ∧
  ((fun (s : State)  => (s.flag fRK_STAT_EMPIN = true)) (State.reset.setFlag fRK_STAT_EMPIN true) ) ∧
  ((fun (s : State)  => (s.flag fRK_STAT_EMPIN = false) ∧ (s.flag fRK_STAT_EMERG = true) ∧ (596 < tickNs s + 8 ∨ (∀ m : Fin 64, NotSent s m.val))) (State.reset.setFlag fRK_STAT_EMERG true) ) :=
  ⟨by decide +kernel, by decide +kernel, by decide +kernel, by decide +kernel, by decide +kernel, by decide +kernel, by decide +kernel, by decide +kernel⟩
theorem test_met_RakeControl_2 :
  ((fun (s : State) (n : Fin 64) (l : Nat) (bs : List Byte) => (OneFrame s n.val l bs) ∧ (s.flag fRK_STAT_EMPIN = false) ∧ (s.flag fRK_STAT_EMERG = true) ∧ (tickNs s + 8 ≤ 596)) ((({ State.reset with out := [.cmdFrame 3 0 0 (List.replicate 60 7)], bl := { State.reset.bl with ports := [(3, { BPort.reset with sent := 1, blocks := List.replicate 8 0x070707070707 })] } }.wr64 rSL_FCYC 900)).setFlag fRK_STAT_EMERG true) (3) (0) ((List.replicate 60 7))) ∧
  ((fun (s : State)  => (s.flag fRK_STAT_EMPIN = false) ∧ (s.flag fRK_STAT_EMERG = false)) (State.reset) ) ∧
  ((fun (s : State)  => (s.flag fRK_STAT_SWAPPEND = true)) (State.reset.setFlag fRK_STAT_SWAPPEND true) ) ∧
  ((fun (s : State)  => (s.flag fRK_STAT_SWAPPEND = false)) (State.reset.wr64 rSL_FCYC 777) ) ∧
  ((fun (s : State)  => (frozen s rkPg = true ∨ s.flag fRK_STAT_SWAPPEND = false ∨ tbMoves s = false)) (State.reset) ) ∧
  ((fun (s : State) => (fun (w : State) => (frozen s rkPg = false) ∧ (s.flag fRK_STAT_SWAPPEND = true) ∧ (w = lastCclk s (nextTick s)) ∧ (Steps s w (nextTick s)) ∧ (w.tb.nPend = none) ∧ (srcOf w = w.tb.sel) ∧ (0 < w.tb.nCur) ∧ (passedOf w.tb.nCur none (angleOf w) (angleAfter w (rateOf w)) = 1) ∧ (let v := atRake w (tbAdvance (rateOf w) w); tickNo w < tickNo v ∧ frozen v rkPg = false ∧ rkSwapDue v = true) ∧ ((tickBoundary s).flag fRK_STAT_SWAPPEND = false)) (lastCclk s (nextTick s))) (({ (((((State.reset.setFlag (fPAGE_CTRL_EN tbPg) true).wr64 rRATE 2000000000).wr64 rANGLE 837).setFld fTB_SLEW 50).setFld fCK_STAT_REFOK 1).wr64 rSL_FCYC 50000 with rk := { RakeState.reset with swapAt := 7, cnt := [(3, 2)], trip := [(3, true)], lsafe := [(0, 3)] } }).setFlag fRK_STAT_SWAPPEND true)) :=
  ⟨by decide +kernel, by decide +kernel, by decide +kernel, by decide +kernel, by decide +kernel, ⟨by decide +kernel, by decide +kernel, Eq.refl _, by decide +kernel⟩⟩
theorem test_met_RakeEntries_1 :
  ((fun (s : State) (j : Fin 4) (v : Word) => (s.flag fRK_STAT_SWAPPEND = true)) (State.reset.setFlag fRK_STAT_SWAPPEND true) (3) (5)) ∧
  ((fun (s : State) (j : Fin 4) (v : Word) => (s.flag fRK_STAT_SWAPPEND = false) ∧ (s.flag fRK_WSEL_ACTRD = true)) (State.reset.setFlag fRK_WSEL_ACTRD true) (3) (5)) ∧
  ((fun (s : State) (j : Fin 4) (v : Word) => (s.flag fRK_STAT_SWAPPEND = false) ∧ (s.flag fRK_WSEL_ACTRD = false) ∧ (j ≠ 3)) (State.reset) (2) (5)) ∧
  ((fun (s : State) (v : Word) => (s.flag fRK_STAT_SWAPPEND = false) ∧ (s.flag fRK_WSEL_ACTRD = false) ∧ (s.flag fRK_WSEL_PH = false)) (({ State.reset with rk := { RakeState.reset with stage := [(0, 5), (1, 0xFFFF0000)] } }).setFld fRK_WSEL_INDEX 4095) (0x80000000)) ∧
  ((fun (s : State) (v : Word) => (s.flag fRK_STAT_SWAPPEND = false) ∧ (s.flag fRK_WSEL_ACTRD = false) ∧ (s.flag fRK_WSEL_PH = true) ∧ (s.fld fRK_WSEL_INDEX < 512)) ((({ State.reset with rk := { RakeState.reset with stage := [(0, 5), (1, 0xFFFF0000)] } }).setFld fRK_WSEL_INDEX 511).setFlag fRK_WSEL_PH true) (0x0)) ∧
  ((fun (s : State) (v : Word) => (s.flag fRK_STAT_SWAPPEND = false) ∧ (s.flag fRK_WSEL_ACTRD = false) ∧ (s.flag fRK_WSEL_PH = true) ∧ (512 ≤ s.fld fRK_WSEL_INDEX)) ((State.reset.setFld fRK_WSEL_INDEX 512).setFlag fRK_WSEL_PH true) (0x0)) ∧
  ((fun (s : State)  => (s.flag fRK_STAT_TESTBUSY = true)) (State.reset.setFlag fRK_STAT_TESTBUSY true) ) ∧
  ((fun (s : State)  => (s.flag fRK_STAT_TESTBUSY = false)) (State.reset.setFlag fRK_TCTRL_BANK true) ) :=
  ⟨by decide +kernel, by decide +kernel, by decide +kernel, by decide +kernel, by decide +kernel, by decide +kernel, by decide +kernel, by decide +kernel⟩
theorem test_met_RakeEntries_2 :
  ((fun (s : State)  => (frozen s 0x101 = true ∨ s.rk.test = none)) (State.reset) ) ∧
  ((fun (s : State) (ms : List Nat) => (frozen s 0x101 = false) ∧ (s.rk.test = some ms) ∧ (s.rk.testDo = false ∨ NotSent s s.rk.testPort ∨ 596 ≤ tickNs s)) (({ State.reset with rk := { RakeState.reset with test := some [1, 0x20000, 0x300000000, 0, 5], testPort := 9, testDo := true } }).setFlag fRK_STAT_TESTBUSY true) ([1, 0x20000, 0x300000000, 0, 5])) ∧
  ((fun (s : State) (n : Fin 64) (l : Nat) (bs : List Byte) (ms : List Nat) => (OneFrame s n.val l bs) ∧ (frozen s 0x101 = false) ∧ (s.rk.test = some ms) ∧ (s.rk.testDo = true) ∧ (s.rk.testPort = n.val) ∧ (tickNs s < 596)) (({ (({ State.reset with out := [.cmdFrame 3 0 0 (List.replicate 60 7)], bl := { State.reset.bl with ports := [(3, { BPort.reset with sent := 1, blocks := List.replicate 8 0x070707070707 })] } }.wr64 rSL_FCYC 900)) with rk := { RakeState.reset with test := some [1, 0x20000, 0x300000000, 0, 5], testPort := 3, testDo := true } }).setFlag fRK_STAT_TESTBUSY true) (3) (0) ((List.replicate 60 7)) ([1, 0x20000, 0x300000000, 0, 5])) :=
  ⟨by decide +kernel, by decide +kernel, by decide +kernel⟩
theorem test_met_BrineLanes_1 :
  ((fun (s : State) (n : Fin 64) (l : Fin 2) => (LaneIs s n.val l.val 0) ∧ (linkEn s n.val = true) ∧ ((laneOf s n.val l.val).down ≤ 2)) ((((State.reset.setFld (fState 63 1) 0).setLane 63 1 { Lane.reset with locked := true }).setFlag (fPAGE_CTRL_EN (blLink 63)) true)) (63) (1)) ∧
  ((fun (s : State) (n : Fin 64) (l : Fin 2) => (frozen s (blLink n.val) = true ∨ linkEn s n.val = false ∨ laneSt s n.val l.val ≠ 0 ∨ ¬ (laneOf s n.val l.val).down ≤ 2)) (State.reset) (3) (0)) ∧
  ((fun (s : State) (n : Fin 64) (l : Fin 2) => (LaneIs s n.val l.val 1)) ((((State.reset.setFld (fState 63 1) 1).setLane 63 1 Lane.reset).setFlag (fPAGE_CTRL_EN (blLink 63)) true)) (63) (1)) ∧
  ((fun (s : State) (n : Fin 64) (l : Fin 2) => (frozen s (blLink n.val) = true ∨ laneSt s n.val l.val ≠ 1)) (State.reset) (3) (0)) ∧
  ((fun (s : State) (n : Fin 64) (l : Fin 2) (rtd : BitVec 10) (pl : Byte) (stamp : Byte) => (LaneIs s n.val l.val 2) ∧ (Echo s n.val l.val pl stamp) ∧ (((laneOf s n.val l.val).answers + 1) % 64 ≠ 0)) ((((State.reset.setFld (fState 3 1) 2).setLane 3 1 { Lane.reset with answers := 62, rtd := 9, sets := 6 }).setFlag (fPAGE_CTRL_EN (blLink 3)) true)) (3) (1) (21) (131) (5)) ∧
  ((fun (s : State) (n : Fin 64) (l : Fin 2) (rtd : BitVec 10) (pl : Byte) (stamp : Byte) => (LaneIs s n.val l.val 2) ∧ (Echo s n.val l.val pl stamp) ∧ (((laneOf s n.val l.val).answers + 1) % 64 = 0)) ((((State.reset.setFld (fState 3 1) 2).setLane 3 1 { Lane.reset with answers := 63, rtd := 9 }).setFlag (fPAGE_CTRL_EN (blLink 3)) true)) (3) (1) (21) (131) (0)) ∧
  ((fun (s : State) (n : Fin 64) (l : Fin 2) (rtd : BitVec 10) (pl : Byte) (stamp : Byte) => (LaneIs s n.val l.val 2) ∧ (¬ Echo s n.val l.val pl stamp)) ((((State.reset.setFld (fState 3 1) 2).setLane 3 1 Lane.reset).setFlag (fPAGE_CTRL_EN (blLink 3)) true)) (3) (1) (21) (3) (0)) ∧
  ((fun (s : State) (n : Fin 64) (l : Fin 2) (rtd : BitVec 10) (pl : Byte) (stamp : Byte) => (frozen s (blLink n.val) = true ∨ laneSt s n.val l.val ≠ 2)) (State.reset) (3) (0) (3) (3) (0)) :=
  ⟨by decide +kernel, by decide +kernel, by decide +kernel, by decide +kernel, by decide +kernel, by decide +kernel, by decide +kernel, by decide +kernel⟩
theorem test_met_BrineLanes_2 :
  ((fun (s : State) (n : Fin 64) (l : Fin 2) => (LaneIs s n.val l.val 2) ∧ (64 ≤ (laneOf s n.val l.val).answers) ∧ (24 < s.fld (fRtd n.val l.val))) ((((State.reset.setFld (fState 3 1) 2).setLane 3 1 { Lane.reset with answers := 64, rtd := 9 }).setFlag (fPAGE_CTRL_EN (blLink 3)) true).setFld (fRtd 3 1) 28) (3) (1)) ∧
  ((fun (s : State) (n : Fin 64) (l : Fin 2) => (LaneIs s n.val l.val 2) ∧ (64 ≤ (laneOf s n.val l.val).answers) ∧ (s.fld (fRtd n.val l.val) ≤ 24) ∧ (tbEn s = true)) (((((State.reset.setFld (fState 3 1) 2).setLane 3 1 { Lane.reset with answers := 64, rtd := 9 }).setFlag (fPAGE_CTRL_EN (blLink 3)) true).setFld (fRtd 3 1) 24).setFlag (fPAGE_CTRL_EN tbPg) true) (3) (1)) ∧
  ((fun (s : State) (n : Fin 64) (l : Fin 2) => (LaneIs s n.val l.val 2) ∧ ((laneOf s n.val l.val).answers < 64 ∨ (s.fld (fRtd n.val l.val) ≤ 24 ∧ tbEn s = false))) ((((State.reset.setFld (fState 3 1) 2).setLane 3 1 Lane.reset).setFlag (fPAGE_CTRL_EN (blLink 3)) true)) (3) (1)) ∧
  ((fun (s : State) (n : Fin 64) (l : Fin 2) => (frozen s (blLink n.val) = true ∨ laneSt s n.val l.val ≠ 2)) (State.reset) (3) (0)) ∧
  ((fun (s : State) (n : Fin 64) (l : Fin 2) => (LaneIs s n.val l.val 2) ∧ ((laneOf s n.val l.val).answers < 64)) ((((State.reset.setFld (fState 3 1) 2).setLane 3 1 Lane.reset).setFlag (fPAGE_CTRL_EN (blLink 3)) true)) (3) (1)) ∧
  ((fun (s : State) (n : Fin 64) (l : Fin 2) => (LaneIs s n.val l.val 2) ∧ (64 ≤ (laneOf s n.val l.val).answers)) ((((State.reset.setFld (fState 3 1) 2).setLane 3 1 { Lane.reset with answers := 64, rtd := 9 }).setFlag (fPAGE_CTRL_EN (blLink 3)) true)) (3) (1)) ∧
  ((fun (s : State) (n : Fin 64) (l : Fin 2) => (frozen s (blLink n.val) = true ∨ laneSt s n.val l.val ≠ 2)) (State.reset) (3) (0)) ∧
  ((fun (s : State) (n : Fin 64) (l : Fin 2) (f : RxFrame) (r : List Byte) => (LaneIs s n.val l.val 3) ∧ (IdFrame s f r) ∧ ((laneOf s n.val l.val).ident ≠ some r)) (((((State.reset.setFld (fState 3 1) 3).setLane 3 1 Lane.reset).setFlag (fPAGE_CTRL_EN (blLink 3)) true)).wr64 rTICKNO 7) (3) (1) ((let b : List Byte := [0xA5, 7, 0, 0, 0, 0, 0, 0] ++ (let r : List Byte := List.replicate 13 3 ++ [1, 8] ++ List.replicate 45 9; r ++ bytesOfNat 4 (crc32 r)) ++ List.replicate 8 0; (⟨b, BitVec.ofNat 32 (crc32 b), 0, 80, 448⟩ : RxFrame))) ((let r : List Byte := List.replicate 13 3 ++ [1, 8] ++ List.replicate 45 9; r ++ bytesOfNat 4 (crc32 r)))) :=
  ⟨by decide +kernel, by decide +kernel, by decide +kernel, by decide +kernel, by decide +kernel, by decide +kernel, by decide +kernel, by decide +kernel⟩
theorem test_met_BrineLanes_3 :
  ((fun (s : State) (n : Fin 64) (l : Fin 2) (f : RxFrame) (r : List Byte) => (LaneIs s n.val l.val 3) ∧ (IdFrame s f r) ∧ ((laneOf s n.val l.val).ident = some r) ∧ (lanesActive s n.val = false)) (((((State.reset.setFld (fState 3 1) 3).setLane 3 1 { Lane.reset with ident := some (let r : List Byte := List.replicate 13 3 ++ [1, 8] ++ List.replicate 45 9; r ++ bytesOfNat 4 (crc32 r)) }).setFlag (fPAGE_CTRL_EN (blLink 3)) true)).wr64 rTICKNO 7) (3) (1) ((let b : List Byte := [0xA5, 7, 0, 0, 0, 0, 0, 0] ++ (let r : List Byte := List.replicate 13 3 ++ [1, 8] ++ List.replicate 45 9; r ++ bytesOfNat 4 (crc32 r)) ++ List.replicate 8 0; (⟨b, BitVec.ofNat 32 (crc32 b), 0, 80, 448⟩ : RxFrame))) ((let r : List Byte := List.replicate 13 3 ++ [1, 8] ++ List.replicate 45 9; r ++ bytesOfNat 4 (crc32 r)))) ∧
  ((fun (s : State) (n : Fin 64) (l : Fin 2) (f : RxFrame) (r : List Byte) => (LaneIs s n.val l.val 3) ∧ (IdFrame s f r) ∧ ((laneOf s n.val l.val).ident = some r) ∧ (lanesActive s n.val = true) ∧ (storedIdent s n.val ≠ r)) (((((State.reset.setFld (fState 3 1) 3).setLane 3 1 { Lane.reset with ident := some (let r : List Byte := List.replicate 13 3 ++ [1, 8] ++ List.replicate 45 9; r ++ bytesOfNat 4 (crc32 r)) }).setFlag (fPAGE_CTRL_EN (blLink 3)) true).setFld (fState 3 0) 4).wr64 rTICKNO 7) (3) (1) ((let b : List Byte := [0xA5, 7, 0, 0, 0, 0, 0, 0] ++ (let r : List Byte := List.replicate 13 3 ++ [1, 8] ++ List.replicate 45 9; r ++ bytesOfNat 4 (crc32 r)) ++ List.replicate 8 0; (⟨b, BitVec.ofNat 32 (crc32 b), 0, 80, 448⟩ : RxFrame))) ((let r : List Byte := List.replicate 13 3 ++ [1, 8] ++ List.replicate 45 9; r ++ bytesOfNat 4 (crc32 r)))) ∧
  ((fun (s : State) (n : Fin 64) (l : Fin 2) (f : RxFrame) (r : List Byte) => (LaneIs s n.val l.val 3) ∧ (IdFrame s f r) ∧ ((laneOf s n.val l.val).ident = some r) ∧ (lanesActive s n.val = true) ∧ (storedIdent s n.val = r)) (((List.range 16).foldl (fun u i => u.wr (rBLn_IDi 3 i) (BitVec.ofNat 32 (numAt (let r : List Byte := List.replicate 13 3 ++ [1, 8] ++ List.replicate 45 9; r ++ bytesOfNat 4 (crc32 r)) (4 * i) 4))) (((((State.reset.setFld (fState 3 1) 3).setLane 3 1 { Lane.reset with ident := some (let r : List Byte := List.replicate 13 3 ++ [1, 8] ++ List.replicate 45 9; r ++ bytesOfNat 4 (crc32 r)) }).setFlag (fPAGE_CTRL_EN (blLink 3)) true).setFld (fState 3 0) 4).wr64 rTICKNO 7))) (3) (1) ((let b : List Byte := [0xA5, 7, 0, 0, 0, 0, 0, 0] ++ (let r : List Byte := List.replicate 13 3 ++ [1, 8] ++ List.replicate 45 9; r ++ bytesOfNat 4 (crc32 r)) ++ List.replicate 8 0; (⟨b, BitVec.ofNat 32 (crc32 b), 0, 80, 448⟩ : RxFrame))) ((let r : List Byte := List.replicate 13 3 ++ [1, 8] ++ List.replicate 45 9; r ++ bytesOfNat 4 (crc32 r)))) ∧
  ((fun (s : State) (n : Fin 64) (l : Fin 2) (f : RxFrame) => (LaneIs s n.val l.val 3) ∧ (rxGood f 0xA5 = false ∨ rxSeq s f = false ∨ rxTime f = false ∨ identOf f = none)) (((((State.reset.setFld (fState 3 1) 3).setLane 3 1 { Lane.reset with ident := some (let r : List Byte := List.replicate 13 3 ++ [1, 8] ++ List.replicate 45 9; r ++ bytesOfNat 4 (crc32 r)) }).setFlag (fPAGE_CTRL_EN (blLink 3)) true)).wr64 rTICKNO 7) (3) (1) (⟨[0xA5, 8], 5, 2, 80, 448⟩)) ∧
  ((fun (s : State) (n : Fin 64) (l : Fin 2) (f : RxFrame) => (frozen s (blLink n.val) = true ∨ laneSt s n.val l.val ≠ 3)) (State.reset) (3) (0) ((let b : List Byte := [0xA5, 7, 0, 0, 0, 0, 0, 0] ++ (let r : List Byte := List.replicate 13 3 ++ [1, 8] ++ List.replicate 45 9; r ++ bytesOfNat 4 (crc32 r)) ++ List.replicate 8 0; (⟨b, BitVec.ofNat 32 (crc32 b), 0, 80, 448⟩ : RxFrame)))) ∧
  ((fun (s : State) (n : Fin 64) (l : Fin 2) => (LaneIs s n.val l.val 3) ∧ ((laneOf s n.val l.val).identTick + 64 ≤ tickNo s)) (((((State.reset.setFld (fState 3 1) 3).setLane 3 1 Lane.reset).setFlag (fPAGE_CTRL_EN (blLink 3)) true)).wr64 rTICKNO 64) (3) (1)) ∧
  ((fun (s : State) (n : Fin 64) (l : Fin 2) => (frozen s (blLink n.val) = true ∨ laneSt s n.val l.val ≠ 3 ∨ tickNo s < (laneOf s n.val l.val).identTick + 64)) (State.reset) (3) (0)) ∧
  ((fun (s : State) (n : Fin 64) (l : Fin 2) => (frozen s (blLink n.val) = false) ∧ (1 ≤ laneSt s n.val l.val ∧ laneSt s n.val l.val ≤ 4)) ((((State.reset.setFld (fState 3 1) 4).setLane 3 1 Lane.reset).setFlag (fPAGE_CTRL_EN (blLink 3)) true)) (3) (1)) :=
  ⟨by decide +kernel, by decide +kernel, by decide +kernel, by decide +kernel, by decide +kernel, by decide +kernel, by decide +kernel, by decide +kernel⟩
theorem test_met_BrineLanes_4 :
  ((fun (s : State) (n : Fin 64) (l : Fin 2) => (frozen s (blLink n.val) = true ∨ laneSt s n.val l.val = 0 ∨ 4 < laneSt s n.val l.val)) (State.reset) (3) (0)) ∧
  ((fun (s : State) (n : Fin 64) (l : Fin 2) (cv : BitVec 8) => (frozen s (blLink n.val) = false) ∧ (1 ≤ laneSt s n.val l.val ∧ laneSt s n.val l.val ≤ 4) ∧ (4 < cv.toNat)) ((((State.reset.setFld (fState 3 1) 4).setLane 3 1 Lane.reset).setFlag (fPAGE_CTRL_EN (blLink 3)) true)) (3) (1) (5)) ∧
  ((fun (s : State) (n : Fin 64) (l : Fin 2) (cv : BitVec 8) => (frozen s (blLink n.val) = false) ∧ (cv.toNat ≤ 4 ∨ laneSt s n.val l.val = 0 ∨ 4 < laneSt s n.val l.val)) ((((State.reset.setFld (fState 3 1) 4).setLane 3 1 Lane.reset).setFlag (fPAGE_CTRL_EN (blLink 3)) true)) (3) (1) (4)) ∧
  ((fun (s : State) (n : Fin 64) (l : Fin 2) => (LaneIs s n.val l.val 4) ∧ (16 ≤ (laneOf s n.val l.val).miss)) ((((State.reset.setFld (fState 3 1) 4).setLane 3 1 { Lane.reset with miss := 16 }).setFlag (fPAGE_CTRL_EN (blLink 3)) true)) (3) (1)) ∧
  ((fun (s : State) (n : Fin 64) (l : Fin 2) => (frozen s (blLink n.val) = true ∨ laneSt s n.val l.val ≠ 4 ∨ (laneOf s n.val l.val).miss < 16)) (State.reset) (3) (0)) ∧
  ((fun (s : State) (n : Fin 64) (l : Fin 2) (k : Nat) => (LaneIs s n.val l.val 0) ∧ (linkEn s n.val = true) ∧ (s.flag (fBLn_CTRL_AUTOTRAIN n.val) = true) ∧ ((laneOf s n.val l.val).fell = some k) ∧ (k + 1024 ≤ tickNo s)) ((((((State.reset.setFld (fState 3 1) 0).setLane 3 1 { Lane.reset with fell := some 6, down := 4 }).setFlag (fPAGE_CTRL_EN (blLink 3)) true)).wr64 rTICKNO 1030).setFlag (fBLn_CTRL_AUTOTRAIN 3) true) (3) (1) (6)) ∧
  ((fun (s : State) (n : Fin 64) (l : Fin 2) => (frozen s (blLink n.val) = true ∨ linkEn s n.val = false ∨ s.flag (fBLn_CTRL_AUTOTRAIN n.val) = false ∨ laneSt s n.val l.val ≠ 0 ∨ (laneOf s n.val l.val).fell = none)) (State.reset) (3) (0)) ∧
  ((fun (s : State) (n : Fin 64) => (linkEn s n.val = true) ∧ (laneIn s n.val 0 = true) ∧ (laneSt s n.val 0 ≠ 4)) ((((State.reset.setFld (fState 3 0) 0).setLane 3 0 { Lane.reset with locked := true }).setFlag (fPAGE_CTRL_EN (blLink 3)) true)) (3)) :=
  ⟨by decide +kernel, by decide +kernel, by decide +kernel, by decide +kernel, by decide +kernel, by decide +kernel, by decide +kernel, by decide +kernel⟩
theorem test_met_BrineLanes_5 :
  ((fun (s : State) (n : Fin 64) => (linkEn s n.val = true) ∧ (laneIn s n.val 0 = true) ∧ (laneSt s n.val 0 = 4)) ((((State.reset.setFld (fState 3 0) 4).setLane 3 0 Lane.reset).setFlag (fPAGE_CTRL_EN (blLink 3)) true)) (3)) ∧
  ((fun (s : State) (n : Fin 64) => (linkEn s n.val = false ∨ laneIn s n.val 0 = false)) (State.reset) (3)) ∧
  ((fun (s : State) (n : Fin 64) => (linkEn s n.val = true) ∧ (laneIn s n.val 1 = true) ∧ (laneSt s n.val 1 ≠ 4)) ((((State.reset.setFld (fState 3 1) 0).setLane 3 1 { Lane.reset with locked := true }).setFlag (fPAGE_CTRL_EN (blLink 3)) true)) (3)) ∧
  ((fun (s : State) (n : Fin 64) => (linkEn s n.val = true) ∧ (laneIn s n.val 1 = true) ∧ (laneSt s n.val 1 = 4)) ((((State.reset.setFld (fState 3 1) 4).setLane 3 1 Lane.reset).setFlag (fPAGE_CTRL_EN (blLink 3)) true)) (3)) ∧
  ((fun (s : State) (n : Fin 64) => (linkEn s n.val = false ∨ laneIn s n.val 1 = false)) (State.reset) (3)) :=
  ⟨by decide +kernel, by decide +kernel, by decide +kernel, by decide +kernel, by decide +kernel⟩
theorem test_met_BrineLinks :
  ((fun (s : State) (n : Fin 64) (on : Bool) => (locked s (blLink n.val) = false) ∧ (linkEn s n.val ≠ on) ∧ (on = false ∨ s.flag fSEC_STAT_RECOVERY = false)) ((((State.reset.setFld (fState 3 1) 4).setLane 3 1 Lane.reset).setFlag (fPAGE_CTRL_EN (blLink 3)) true).setFld (fBLn_CTRL_LANEMODE 3) 2) (3) (false)) ∧
  ((fun (s : State) (n : Fin 64) (on : Bool) => (linkEn s n.val = on)) (State.reset) (3) (false)) ∧
  ((fun (s : State) (n : Fin 64) => (locked s (blLink n.val) = false) ∧ (s.flag fSEC_STAT_RECOVERY = true)) ((secState 0x1 0x0)) (3)) ∧
  ((fun (s : State) (n : Fin 64) (on : Bool) => (locked s (blLink n.val) = true) ∧ (linkEn s n.val ≠ on)) (State.reset.setFlag (fPAGE_LOCK_LOCK (blLink 3)) true) (3) (true)) ∧
  ((fun (s : State) (n : Fin 64) (m : BitVec 2) => (lockHeld s (blLink n.val) = false)) ((((State.reset.setFld (fState 3 1) 4).setLane 3 1 Lane.reset).setFlag (fPAGE_CTRL_EN (blLink 3)) true).setFld (fState 3 0) 5) (3) (1)) ∧
  ((fun (s : State) (n : Fin 64) => (frozen s (blLink n.val) = false) ∧ (tbEn s = true) ∧ (linkEn s n.val = true)) (((((State.reset.setFld (fState 3 1) 4).setLane 3 1 Lane.reset).setFlag (fPAGE_CTRL_EN (blLink 3)) true).setFld (fState 3 0) 3).setFlag (fPAGE_CTRL_EN tbPg) true) (3)) ∧
  ((fun (s : State) (n : Fin 64) => (frozen s (blLink n.val) = true ∨ tbEn s = false ∨ linkEn s n.val = false)) (State.reset) (3)) :=
  ⟨by decide +kernel, by decide +kernel, by decide +kernel, by decide +kernel, by decide +kernel, by decide +kernel, by decide +kernel⟩
theorem test_met_SampleFrames :
  ((fun (s : State) (n : Fin 64) (a : Option RxFrame) (b : Option RxFrame) (lat : BitVec 10) => (frozen s (blTrans n.val) = true ∨ linkEn s n.val = false ∨ s.tb.started = false ∨ (s.port n.val).noted = tickNo s + 1)) (State.reset) (3) (none) (none) (9)) ∧
  ((fun (s : State) (n : Fin 64) (a : Option RxFrame) (b : Option RxFrame) (lat : BitVec 10) (f : RxFrame) => (PortOpen s n.val) ∧ (Used s n.val a b f) ∧ (RakeOff s) ∧ (lat.toNat ≤ 96) ∧ (s.fld fTB_GRID_SRC_PORT ≠ n.val) ∧ (s.flag fRST_STAT_FRAMEHOLD = false) ∧ (PlainLand s n.val 96)) (({ ((((State.reset.setFld (fState 3 0) 4).setFld (fState 3 1) 4).setFlag (fPAGE_CTRL_EN (blLink 3)) true).wr64 rTICKNO 7).setFld fTB_GRID_SRC_PORT 9 with tb := { TbState.reset with started := true } })) (3) (some (let b : List Byte := ([0x5A, 7, 0x34, 0x12, 0x01, 0, 0xFF, 0] ++ List.replicate 72 (5 : Byte)); (⟨b, BitVec.ofNat 32 (crc32 b), 0, 80, 448⟩ : RxFrame))) (none) (9) ((let b : List Byte := ([0x5A, 7, 0x34, 0x12, 0x01, 0, 0xFF, 0] ++ List.replicate 72 (5 : Byte)); (⟨b, BitVec.ofNat 32 (crc32 b), 0, 80, 448⟩ : RxFrame)))) ∧
  ((fun (s : State) (n : Fin 64) (a : Option RxFrame) (b : Option RxFrame) (lat : BitVec 10) (f : RxFrame) => (PortOpen s n.val) ∧ (Used s n.val a b f) ∧ (RakeOff s) ∧ (lat.toNat ≤ 96) ∧ (s.fld fTB_GRID_SRC_PORT ≠ n.val) ∧ (s.flag fRST_STAT_FRAMEHOLD = true)) ((({ ((((State.reset.setFld (fState 3 0) 4).setFld (fState 3 1) 4).setFlag (fPAGE_CTRL_EN (blLink 3)) true).wr64 rTICKNO 7).setFld fTB_GRID_SRC_PORT 9 with tb := { TbState.reset with started := true } })).setFlag fRST_STAT_FRAMEHOLD true) (3) (some (let b : List Byte := ([0x5A, 7, 0x34, 0x12, 0x01, 0, 0xFF, 0] ++ List.replicate 72 (5 : Byte)); (⟨b, BitVec.ofNat 32 (crc32 b), 0, 80, 448⟩ : RxFrame))) (none) (9) ((let b : List Byte := ([0x5A, 7, 0x34, 0x12, 0x01, 0, 0xFF, 0] ++ List.replicate 72 (5 : Byte)); (⟨b, BitVec.ofNat 32 (crc32 b), 0, 80, 448⟩ : RxFrame)))) ∧
  ((fun (s : State) (n : Fin 64) (a : Option RxFrame) (b : Option RxFrame) (lat : BitVec 10) => (PortOpen s n.val) ∧ (laneValid s n.val 0 a = false) ∧ (laneValid s n.val 1 b = false)) (({ ((((State.reset.setFld (fState 3 0) 4).setFld (fState 3 1) 4).setFlag (fPAGE_CTRL_EN (blLink 3)) true).wr64 rTICKNO 7).setFld fTB_GRID_SRC_PORT 9 with tb := { TbState.reset with started := true } })) (3) (some (let b : List Byte := ([0x5A, 7, 0x34, 0x12, 0x01, 0, 0xFF, 0] ++ List.replicate 72 (5 : Byte)); (⟨b, BitVec.ofNat 32 (crc32 b), 0, 79, 448⟩ : RxFrame))) (none) (9)) ∧
  ((fun (s : State) (n : Fin 64) (lat : BitVec 10) => (frozen s (blTrans n.val) = true ∨ linkEn s n.val = false ∨ s.tb.started = false ∨ (s.port n.val).noted = tickNo s + 1)) (State.reset) (3) (9)) ∧
  ((fun (s : State) (n : Fin 64) (lat : BitVec 10) => (PortOpen s n.val) ∧ (RakeOff s) ∧ (lat.toNat ≤ 96) ∧ (s.flag fRST_STAT_FRAMEHOLD = false) ∧ (PlainLand s n.val 16)) ((({ ((((State.reset.setFld (fState 3 0) 4).setFld (fState 3 1) 4).setFlag (fPAGE_CTRL_EN (blLink 3)) true).wr64 rTICKNO 7).setFld fTB_GRID_SRC_PORT 9 with tb := { TbState.reset with started := true } })).setPort 3 { BPort.reset with valid := 4, lbits := 32 }) (3) (9)) :=
  ⟨by decide +kernel, by decide +kernel, by decide +kernel, by decide +kernel, by decide +kernel, by decide +kernel⟩
theorem test_met_RakeJudges :
  (fun (s : State) (n : Fin 64) (a : Option RxFrame) (b : Option RxFrame) (lat : BitVec 10) (f : RxFrame) (k : Fin 4096) (h : Bool) => (PortOpen s n.val) ∧ (Used s n.val a b f) ∧ (OneRule s n.val k.val) ∧ (lat.toNat ≤ 96) ∧ (s.fld fTB_GRID_SRC_PORT ≠ n.val) ∧ (h = (rkHolds (ruleOf s (actBank s) k.val) (k.val / 8 % 8) (signedOf 16 (natBits (ruleOf s (actBank s) k.val) 0 16)) (signedOf 16 (natBits (ruleOf s (actBank s) k.val) 16 16)) ⟨some f.bytes, if (s.port n.val).lastTick + 1 = tickNo s then (s.port n.val).last else none, 0⟩)) ∧ (rkCond (ruleOf s (actBank s) k.val) ≠ 9)) (({ (({ ((((State.reset.setFld (fState 3 0) 4).setFld (fState 3 1) 4).setFlag (fPAGE_CTRL_EN (blLink 3)) true).wr64 rTICKNO 7).setFld fTB_GRID_SRC_PORT 9 with tb := { TbState.reset with started := true } })) with rk := { RakeState.reset with enEff := true, rules := [(197, 188750375441073344135292385985755611140)] } })) (3) (some (let b : List Byte := ([0x5A, 7, 0x34, 0x12, 0x01, 0, 0xFF, 0] ++ List.replicate 72 (5 : Byte)); (⟨b, BitVec.ofNat 32 (crc32 b), 0, 80, 448⟩ : RxFrame))) (none) (9) ((let b : List Byte := ([0x5A, 7, 0x34, 0x12, 0x01, 0, 0xFF, 0] ++ List.replicate 72 (5 : Byte)); (⟨b, BitVec.ofNat 32 (crc32 b), 0, 80, 448⟩ : RxFrame))) (197) (true) := by decide +kernel
theorem test_met_CommandFrames_1 :
  ((fun (s : State)  => (s.bl.closed = tickNo s + 1) ∧ (plLane s ≠ 3)) ({ State.reset with bl := ⟨[], [], 1⟩ }) ) ∧
  ((fun (s : State)  => (s.bl.closed = tickNo s + 1) ∧ (plLane s = 3) ∧ (s.dup.chk ≠ tickNo s) ∧ (s.dup.got < tickNo s)) (((({ State.reset with bl := ⟨[], [], 8⟩ }).wr64 rTICKNO 7).setFld fPL_STAT_LANE 3)) ) ∧
  ((fun (s : State)  => (s.bl.closed ≠ tickNo s + 1) ∧ (plLane s ≠ 3) ∧ (marksOpen s (tickNo s) = []) ∧ (Clean s) ∧ (s.flag fRST_STAT_FRAMEHOLD = false)) (({ ({ (((((State.reset.setFlag (fPAGE_CTRL_EN (blLink 3)) true).setFlag (fPAGE_CTRL_EN (blLink 63)) true).setFld (fBLn_SBASE 3) 2).wr64 rTICKNO 7).setFlag (fBLn_LEASE_ARMED 3) true) with tb := { TbState.reset with started := true } }) with sal := { SalState.reset with mem := putList [] (1024 + 0x140) (bytesOfNat 64 0x0123456789ABCDEF0123456789ABCDEF0123456789ABCDEF) } })) ) ∧
  ((fun (s : State) (n : Fin 64) => (s.bl.closed ≠ tickNo s + 1) ∧ (plLane s ≠ 3) ∧ (marksOpen s (tickNo s) = []) ∧ (s.flag fRST_STAT_FRAMEHOLD = false) ∧ (Latches s n.val) ∧ (∀ m : Fin 64, m ≠ n → linkEn s m.val = false) ∧ (salBad s (bufAt s n.val) 64 = true)) ({ (({ (((((State.reset.setFlag (fPAGE_CTRL_EN (blLink 3)) true).setFlag (fPAGE_CTRL_EN (blLink 63)) true).setFld (fBLn_SBASE 3) 2).wr64 rTICKNO 7).setFlag (fBLn_LEASE_ARMED 3) true) with tb := { TbState.reset with started := true } })).setFlag (fPAGE_CTRL_EN (blLink 63)) false with sal := { SalState.reset with err := [(1024 + 0x141, .ue)] } }) (3)) ∧
  ((fun (s : State)  => (s.bl.closed ≠ tickNo s + 1) ∧ (plLane s ≠ 3) ∧ (marksOpen s (tickNo s) ≠ []) ∧ (s.tj.launched = []) ∧ (∀ m : Fin 64, linkEn s m.val = false)) (({ State.reset with tj := { TjState.reset with writes := [⟨4, true, [1], 3, 0, 6⟩] } }).wr64 rTICKNO 7) ) ∧
  ((fun (s : State) (n : Fin 64) => (frozen s (blTrans n.val) = true ∨ linkEn s n.val = false ∨ s.tb.started = false ∨ (s.port n.val).sent = tickNo s + 1 ∨ (s.port n.val).latched ≠ tickNo s + 1 ∨ s.flag fRST_STAT_FRAMEHOLD = true ∨ (laneUp s n.val 0 = false ∧ laneUp s n.val 1 = false) ∨ ((s.port n.val).latStop = true ∧ relaying s n.val = false))) (State.reset) (3)) ∧
  ((fun (s : State) (n : Fin 64) (bs : List Byte) => (SendDue s n.val bs) ∧ (Unforced s n.val) ∧ ((s.port n.val).latLop = 0) ∧ ((s.port n.val).latArmed = true)) (((((((State.reset.setFld (fState 3 0) 4).setFld (fState 3 1) 3).setFlag (fPAGE_CTRL_EN (blLink 3)) true).wr64 rTICKNO 7).setPort 3 { BPort.reset with buf := some (bytesOfNat 64 0x0123456789ABCDEF0123456789ABCDEF0123456789ABCDEF), latched := 8, lop := 0, latLop := 0, latEpoch := 77, latArmed := true }).tbSet fun _ => { TbState.reset with started := true })) (3) ((bytesOfNat 64 0x0123456789ABCDEF0123456789ABCDEF0123456789ABCDEF))) ∧
  ((fun (s : State) (n : Fin 64) (bs : List Byte) => (SendDue s n.val bs) ∧ (Unforced s n.val) ∧ ((s.port n.val).latLop = 0) ∧ ((s.port n.val).latArmed = false)) (((((((State.reset.setFld (fState 3 0) 4).setFld (fState 3 1) 3).setFlag (fPAGE_CTRL_EN (blLink 3)) true).wr64 rTICKNO 7).setPort 3 { BPort.reset with buf := some (bytesOfNat 64 0x0123456789ABCDEF0123456789ABCDEF0123456789ABCDEF), latched := 8, lop := 0, latLop := 0, latEpoch := 77, latArmed := false }).tbSet fun _ => { TbState.reset with started := true })) (3) ((bytesOfNat 64 0x0123456789ABCDEF0123456789ABCDEF0123456789ABCDEF))) :=
  ⟨by decide +kernel, by decide +kernel, by decide +kernel, by decide +kernel, by decide +kernel, by decide +kernel, by decide +kernel, by decide +kernel⟩
theorem test_met_CommandFrames_2 :
  ((fun (s : State) (n : Fin 64) (bs : List Byte) => (SendDue s n.val bs) ∧ (Unforced s n.val) ∧ ((s.port n.val).latLop = 1) ∧ (lanesActive s n.val = true)) (((((((State.reset.setFld (fState 3 0) 4).setFld (fState 3 1) 4).setFlag (fPAGE_CTRL_EN (blLink 3)) true).wr64 rTICKNO 7).setPort 3 { BPort.reset with buf := some (bytesOfNat 64 0x0123456789ABCDEF0123456789ABCDEF0123456789ABCDEF), latched := 8, lop := 1, latLop := 1, latEpoch := 77, latArmed := false }).tbSet fun _ => { TbState.reset with started := true })) (3) ((bytesOfNat 64 0x0123456789ABCDEF0123456789ABCDEF0123456789ABCDEF))) ∧
  ((fun (s : State) (n : Fin 64) (bs : List Byte) => (SendDue s n.val bs) ∧ (s.flag fRK_STAT_EMERG = true) ∧ ((s.port n.val).latLop = 0) ∧ ((s.port n.val).latArmed = true)) (((((((State.reset.setFld (fState 3 0) 4).setFld (fState 3 1) 0).setFlag (fPAGE_CTRL_EN (blLink 3)) true).wr64 rTICKNO 7).setPort 3 { BPort.reset with buf := some (bytesOfNat 64 0x0123456789ABCDEF0123456789ABCDEF0123456789ABCDEF), latched := 8, lop := 0, latLop := 0, latEpoch := 77, latArmed := true }).tbSet fun _ => { TbState.reset with started := true }).setFlag fRK_STAT_EMERG true) (3) ((bytesOfNat 64 0x0123456789ABCDEF0123456789ABCDEF0123456789ABCDEF))) :=
  ⟨by decide +kernel, by decide +kernel⟩
theorem test_met_Leases :
  ((fun (s : State) (n : Fin 64) (e : BitVec 16) => (lockHeld s (blTrans n.val) = false) ∧ (plPaired s = true ∨ (modLeased s n.val = false ∧ s.fld fPL_STAT_ARB ≠ 2))) ((State.reset.setPort 3 { BPort.reset with last := some [0x5A, 7, 0x34, 0x12, 1] }).setFlag fPL_STAT_PAIRED true) (3) (0x1234)) ∧
  ((fun (s : State) (n : Fin 64) (e : BitVec 16) => (lockHeld s (blTrans n.val) = false) ∧ (plPaired s = false) ∧ (modLeased s n.val = true)) (State.reset.setPort 3 { BPort.reset with last := some [0x5A, 7, 0x34, 0x12, 1] }) (3) (0x1234)) ∧
  ((fun (s : State) (n : Fin 64) (e : BitVec 16) => (lockHeld s (blTrans n.val) = false)) (State.reset.setPort 3 { BPort.reset with last := some [0x5A, 7, 0x34, 0x12, 1] }) (3) (0x1234)) :=
  ⟨by decide +kernel, by decide +kernel, by decide +kernel⟩
theorem test_met_PairLink_1 :
  ((fun (s : State)  => (frozen s plPg = true ∨ ¬ plLane s = 3 ∨ pageEn s 0x10 = false ∨ s.dup.sent = tickNo s + 1)) (State.reset) ) ∧
  ((fun (s : State)  => (frozen s plPg = false) ∧ (plLane s = 3) ∧ (pageEn s 0x10 = true) ∧ (s.dup.sent ≠ tickNo s + 1) ∧ (s.dup.pWait = false ∨ s.dup.got ≠ tickNo s + 1)) (((((State.reset.setFld fPL_STAT_LANE 3).wr64 rTICKNO 7).setFlag (fPAGE_CTRL_EN 0x10) true))) ) ∧
  ((fun (s : State)  => (frozen s plPg = false) ∧ (plLane s = 3) ∧ (pageEn s 0x10 = true) ∧ (s.dup.sent ≠ tickNo s + 1) ∧ (s.dup.pWait = true) ∧ (s.dup.got = tickNo s + 1) ∧ (s.dup.pDigest = plDigest s)) (metDup ((((State.reset.setFld fPL_STAT_LANE 3).wr64 rTICKNO 7).setFlag (fPAGE_CTRL_EN 0x10) true)) 0) ) ∧
  ((fun (s : State)  => (frozen s plPg = false) ∧ (plLane s = 3) ∧ (pageEn s 0x10 = true) ∧ (s.dup.sent ≠ tickNo s + 1) ∧ (s.dup.pWait = true) ∧ (s.dup.got = tickNo s + 1) ∧ (s.dup.pDigest ≠ plDigest s) ∧ (s.rd64 rPL_RELAYACT = 0)) (metDup ((((State.reset.setFld fPL_STAT_LANE 3).wr64 rTICKNO 7).setFlag (fPAGE_CTRL_EN 0x10) true)) 1) ) ∧
  ((fun (s : State)  => (frozen s plPg = false) ∧ (plLane s = 3) ∧ (pageEn s 0x10 = true) ∧ (s.dup.sent ≠ tickNo s + 1) ∧ (s.dup.pWait = true) ∧ (s.dup.got = tickNo s + 1) ∧ (s.dup.pDigest ≠ plDigest s) ∧ (s.rd64 rPL_RELAYACT ≠ 0)) (metDup ((((State.reset.setFld fPL_STAT_LANE 3).wr64 rTICKNO 7).setFlag (fPAGE_CTRL_EN 0x10) true).wr64 rPL_RELAYACT 3) 1) ) ∧
  ((fun (s : State) (bs : List Byte) (f : BitVec 12) => (frozen s plPg = true ∨ ¬ plLane s = 3 ∨ ¬ FrameGood bs)) (((((State.reset.setFld fPL_STAT_LANE 3).wr64 rTICKNO 7).setFlag (fPAGE_CTRL_EN 0x10) true))) (((bytesOfNat 1 0x95 ++ bytesOfNat 1 1 ++ bytesOfNat 2 0x0203 ++ bytesOfNat 4 287454020 ++ bytesOfNat 8 7 ++ bytesOfNat 8 0xABCDEF0123 ++ bytesOfNat 8 9 ++ bytesOfNat 8 5 ++ bytesOfNat 20 0) ++ bytesOfNat 4 (crc32 (bytesOfNat 1 0x95 ++ bytesOfNat 1 1 ++ bytesOfNat 2 0x0203 ++ bytesOfNat 4 287454020 ++ bytesOfNat 8 7 ++ bytesOfNat 8 0xABCDEF0123 ++ bytesOfNat 8 9 ++ bytesOfNat 8 5 ++ bytesOfNat 20 0)))) (0)) ∧
  ((fun (s : State) (bs : List Byte) (f : BitVec 12) => (frozen s plPg = false) ∧ (plLane s = 3) ∧ (FrameGood bs) ∧ (¬ FrameTimely s bs) ∧ (s.dup.join = false ∨ pageEn s 0x10 = true)) (((((State.reset.setFld fPL_STAT_LANE 3).wr64 rTICKNO 7).setFlag (fPAGE_CTRL_EN 0x10) true))) (((bytesOfNat 1 0x96 ++ bytesOfNat 1 1 ++ bytesOfNat 2 0x0203 ++ bytesOfNat 4 287454020 ++ bytesOfNat 8 5 ++ bytesOfNat 8 0xABCDEF0123 ++ bytesOfNat 8 9 ++ bytesOfNat 8 5 ++ bytesOfNat 20 0) ++ bytesOfNat 4 (crc32 (bytesOfNat 1 0x96 ++ bytesOfNat 1 1 ++ bytesOfNat 2 0x0203 ++ bytesOfNat 4 287454020 ++ bytesOfNat 8 5 ++ bytesOfNat 8 0xABCDEF0123 ++ bytesOfNat 8 9 ++ bytesOfNat 8 5 ++ bytesOfNat 20 0)))) (0)) ∧
  ((fun (s : State) (bs : List Byte) (f : BitVec 12) => (frozen s plPg = false) ∧ (plLane s = 3) ∧ (FrameGood bs) ∧ (FrameTimely s bs) ∧ (PlainRx s) ∧ (plPaired s = true ∨ goodAfter s (numAt bs 8 8) < 16) ∧ (s.dup.sent ≠ numAt bs 8 8 + 1 ∨ s.dup.oDigest = numAt bs 4 4)) ({ ((((State.reset.setFld fPL_STAT_LANE 3).wr64 rTICKNO 7).setFlag (fPAGE_CTRL_EN 0x10) true)) with dup := { DupState.reset with sent := 8, oDigest := 0x11223344, got := 7, good := 14 } }) (((bytesOfNat 1 0x96 ++ bytesOfNat 1 1 ++ bytesOfNat 2 0x0203 ++ bytesOfNat 4 287454020 ++ bytesOfNat 8 7 ++ bytesOfNat 8 0xABCDEF0123 ++ bytesOfNat 8 9 ++ bytesOfNat 8 5 ++ bytesOfNat 20 0) ++ bytesOfNat 4 (crc32 (bytesOfNat 1 0x96 ++ bytesOfNat 1 1 ++ bytesOfNat 2 0x0203 ++ bytesOfNat 4 287454020 ++ bytesOfNat 8 7 ++ bytesOfNat 8 0xABCDEF0123 ++ bytesOfNat 8 9 ++ bytesOfNat 8 5 ++ bytesOfNat 20 0)))) (0)) :=
  ⟨by decide +kernel, by decide +kernel, ⟨by decide +kernel, by decide +kernel, by decide +kernel, by decide +kernel, by decide +kernel, by decide +kernel, metDup_same _⟩, ⟨by decide +kernel, by decide +kernel, by decide +kernel, by decide +kernel, by decide +kernel, by decide +kernel, metDup_other _, by decide +kernel⟩, ⟨by decide +kernel, by decide +kernel, by decide +kernel, by decide +kernel, by decide +kernel, by decide +kernel, metDup_other _, by decide +kernel⟩, by decide +kernel, by decide +kernel, by decide +kernel⟩
theorem test_met_PairLink_2 :
  ((fun (s : State) (bs : List Byte) (f : BitVec 12) => (frozen s plPg = false) ∧ (plLane s = 3) ∧ (FrameGood bs) ∧ (FrameTimely s bs) ∧ (PlainRx s) ∧ (plPaired s = false) ∧ (16 ≤ goodAfter s (numAt bs 8 8)) ∧ (s.dup.sent ≠ numAt bs 8 8 + 1 ∨ s.dup.oDigest = numAt bs 4 4)) ({ ((((State.reset.setFld fPL_STAT_LANE 3).wr64 rTICKNO 7).setFlag (fPAGE_CTRL_EN 0x10) true)) with dup := { DupState.reset with sent := 8, oDigest := 0x11223344, got := 7, good := 15 } }) (((bytesOfNat 1 0x96 ++ bytesOfNat 1 1 ++ bytesOfNat 2 0x0203 ++ bytesOfNat 4 287454020 ++ bytesOfNat 8 7 ++ bytesOfNat 8 0xABCDEF0123 ++ bytesOfNat 8 9 ++ bytesOfNat 8 5 ++ bytesOfNat 20 0) ++ bytesOfNat 4 (crc32 (bytesOfNat 1 0x96 ++ bytesOfNat 1 1 ++ bytesOfNat 2 0x0203 ++ bytesOfNat 4 287454020 ++ bytesOfNat 8 7 ++ bytesOfNat 8 0xABCDEF0123 ++ bytesOfNat 8 9 ++ bytesOfNat 8 5 ++ bytesOfNat 20 0)))) (0)) ∧
  ((fun (s : State) (bs : List Byte) (f : BitVec 12) => (frozen s plPg = false) ∧ (plLane s = 3) ∧ (FrameGood bs) ∧ (FrameTimely s bs) ∧ (PlainRx s) ∧ (plPaired s = true) ∧ (s.dup.sent = numAt bs 8 8 + 1) ∧ (s.dup.oDigest ≠ numAt bs 4 4) ∧ (s.rd64 rPL_RELAYACT ≠ 0)) ({ ((((State.reset.setFld fPL_STAT_LANE 3).wr64 rTICKNO 7).setFlag (fPAGE_CTRL_EN 0x10) true).setFlag fPL_STAT_PAIRED true |>.wr64 rPL_RELAYACT 3) with dup := { DupState.reset with sent := 8, oDigest := 5, got := 7, good := 14 } }) (((bytesOfNat 1 0x96 ++ bytesOfNat 1 1 ++ bytesOfNat 2 0x0203 ++ bytesOfNat 4 287454020 ++ bytesOfNat 8 7 ++ bytesOfNat 8 0xABCDEF0123 ++ bytesOfNat 8 9 ++ bytesOfNat 8 5 ++ bytesOfNat 20 0) ++ bytesOfNat 4 (crc32 (bytesOfNat 1 0x96 ++ bytesOfNat 1 1 ++ bytesOfNat 2 0x0203 ++ bytesOfNat 4 287454020 ++ bytesOfNat 8 7 ++ bytesOfNat 8 0xABCDEF0123 ++ bytesOfNat 8 9 ++ bytesOfNat 8 5 ++ bytesOfNat 20 0)))) (0)) ∧
  ((fun (s : State) (bs : List Byte) (f : BitVec 12) => (frozen s plPg = false) ∧ (plLane s = 3) ∧ (FrameGood bs) ∧ (s.dup.join = true) ∧ (pageEn s 0x10 = false) ∧ (s.dup.got ≤ numAt bs 8 8) ∧ (s.dup.sent ≠ numAt bs 8 8 + 1) ∧ (plPaired s = true ∨ goodAfter s (numAt bs 8 8) < 16) ∧ (s.fld fPL_CTRL_RANK ≠ 1 ∨ s.flag fPL_CTRL_TSRC = false)) ({ (((State.reset.setFld fPL_STAT_LANE 3).wr64 rTICKNO 7)).setFld fPL_LAT 100 with dup := { DupState.reset with join := true } }) (((bytesOfNat 1 0x96 ++ bytesOfNat 1 1 ++ bytesOfNat 2 0x0203 ++ bytesOfNat 4 287454020 ++ bytesOfNat 8 99 ++ bytesOfNat 8 0xABCDEF0123 ++ bytesOfNat 8 9 ++ bytesOfNat 8 5 ++ bytesOfNat 20 0) ++ bytesOfNat 4 (crc32 (bytesOfNat 1 0x96 ++ bytesOfNat 1 1 ++ bytesOfNat 2 0x0203 ++ bytesOfNat 4 287454020 ++ bytesOfNat 8 99 ++ bytesOfNat 8 0xABCDEF0123 ++ bytesOfNat 8 9 ++ bytesOfNat 8 5 ++ bytesOfNat 20 0)))) (0)) ∧
  ((fun (s : State) (bs : List Byte) (f : BitVec 12) => (frozen s plPg = false) ∧ (plLane s = 3) ∧ (FrameGood bs) ∧ (FrameTimely s bs) ∧ (s.dup.join = false) ∧ (s.fld fPL_CTRL_RANK = 1) ∧ (s.flag fPL_CTRL_TSRC = true) ∧ (s.tb.sel ≠ 1) ∧ (plPaired s = true ∨ goodAfter s (numAt bs 8 8) < 16) ∧ (s.dup.sent ≠ numAt bs 8 8 + 1 ∨ s.dup.oDigest = numAt bs 4 4)) (((((State.reset.setFld fPL_STAT_LANE 3).wr64 rTICKNO 7).setFlag (fPAGE_CTRL_EN 0x10) true).setFld fPL_CTRL_RANK 1 |>.setFlag fPL_CTRL_TSRC true)) (((bytesOfNat 1 0x96 ++ bytesOfNat 1 1 ++ bytesOfNat 2 0x0203 ++ bytesOfNat 4 287454020 ++ bytesOfNat 8 7 ++ bytesOfNat 8 0xABCDEF0123 ++ bytesOfNat 8 9 ++ bytesOfNat 8 5 ++ bytesOfNat 20 0) ++ bytesOfNat 4 (crc32 (bytesOfNat 1 0x96 ++ bytesOfNat 1 1 ++ bytesOfNat 2 0x0203 ++ bytesOfNat 4 287454020 ++ bytesOfNat 8 7 ++ bytesOfNat 8 0xABCDEF0123 ++ bytesOfNat 8 9 ++ bytesOfNat 8 5 ++ bytesOfNat 20 0)))) (40)) ∧
  ((fun (s : State)  => (frozen s plPg = true ∨ plPaired s = false ∨ tickNo s < s.dup.got + 4)) (State.reset) ) ∧
  ((fun (s : State)  => (frozen s plPg = false) ∧ (plPaired s = true) ∧ (s.dup.got + 4 ≤ tickNo s) ∧ (Majority s (s.dup.got + 3))) (((((((State.reset.setFld fPL_STAT_LANE 3).wr64 rTICKNO 7)).setFlag fPL_STAT_PAIRED true).wr64 rTICKNO 17).wr64 rPL_RELAYACT 3)) ) ∧
  ((fun (s : State)  => (frozen s plPg = false) ∧ (plPaired s = true) ∧ (s.dup.got + 4 ≤ tickNo s) ∧ (¬ Majority s (s.dup.got + 3))) ((((((((State.reset.setFld fPL_STAT_LANE 3).wr64 rTICKNO 7)).setFlag fPL_STAT_PAIRED true).wr64 rTICKNO 17).wr64 rPL_RELAYACT 3)).setFld fPL_CTRL_RANK 1) ) ∧
  ((fun (s : State)  => (pageEn s 0x10 = true)) (((((State.reset.setFld fPL_STAT_LANE 3).wr64 rTICKNO 7).setFlag (fPAGE_CTRL_EN 0x10) true))) ) :=
  ⟨by decide +kernel, by decide +kernel, by decide +kernel, by decide +kernel, by decide +kernel, by decide +kernel, by decide +kernel, by decide +kernel⟩
theorem test_met_PairLink_3 :
  (fun (s : State)  => (pageEn s 0x10 = false)) (State.reset)  := by decide +kernel
theorem test_met_LockstepRecovery_1 :
  ((fun (s : State) (n : Fin 4) (k : BitVec 4) => (coreRunning s n.val = false)) (State.reset) (1) (3)) ∧
  ((fun (s : State) (n : Fin 4) (k : BitVec 4) => (coreRunning s n.val = true) ∧ (NoTasks s n.val) ∧ (diesNow s n.val = false)) ({ (State.reset.setFld fRST_CTRL_CORERUN 15).wr64 rSL_FCYC 0x123456789A with dup := { DupState.reset with inject := 15 } }) (1) (3)) ∧
  ((fun (s : State) (n : Fin 4) (k : BitVec 4) => (coreRunning s n.val = true) ∧ (NoTasks s n.val) ∧ (diesNow s n.val = true)) ({ (State.reset.setFld fRST_CTRL_CORERUN 15).wr64 rTICKNO 1048580 with dup := { DupState.reset with recTick := [(1, some 5)] } }) (1) (3)) ∧
  ((fun (s : State) (n : Fin 4) (k : BitVec 4) (x : Fin 512) (e : Ctx) (r : List (Nat × Ctx)) => (coreRunning s n.val = true) ∧ (diesNow s n.val = false) ∧ (s.cry.ctx = (x.val, e) :: r) ∧ (r = []) ∧ (e.st ≠ .free) ∧ (xTask (e.descAt (tickNo s)) = true) ∧ (xCore (e.descAt (tickNo s)) = n.val) ∧ (s.rk.holds = []) ∧ ((s.core n.val).group = []) ∧ ((s.core n.val).waiting = [])) ({ (State.reset.setFld fRST_CTRL_CORERUN 15) with cry := { CryState.reset with ctx := [(3, { Ctx.free with st := .admitted, desc := [BitVec.ofNat 32 (2 ^ 21 + 1 * 2 ^ 22), 0, 0, 0, 0, 0, 0, 0, 0, 0, 0, 0, BitVec.ofNat 32 24, 0xFFFF, 0, 0] })] } }) (1) (3) (3) ({ Ctx.free with st := .admitted, desc := [BitVec.ofNat 32 (2 ^ 21 + 1 * 2 ^ 22), 0, 0, 0, 0, 0, 0, 0, 0, 0, 0, 0, BitVec.ofNat 32 24, 0xFFFF, 0, 0] }) ([])) ∧
  ((fun (s : State)  => (pendBit (hWarmReset 4 s) 0x1070 0 = false) ∧ (s.fld fTJ_OCC = 0) ∧ (s.tj.writes = [])) (((State.reset.wr (rEV_PEND 0x1070) 1).wr64 rTICKNO 5).setCore 4 { Core.reset 4 with pc := 8 }) ) ∧
  ((fun (s : State) (n : Fin 4) => (coreStopped s n.val = false)) (State.reset) (1)) ∧
  ((fun (s : State) (n : Fin 4) => (coreStopped s n.val = true)) (State.reset.setFld fFC_STAT_STOPPED 2) (1)) ∧
  ((fun (s : State) (n : Fin 4) => (¬ (natBit (s.fld fFC_CTRL_AUTOREC) n.val = true ∧ natBit (s.fld fFC_STAT_DEAD) n.val = false ∧ storeGet 0 s.dup.stopCyc n.val + 16 ≤ fcycOf s ∧ coreStopped s n.val = true))) (((State.reset.setFld fFC_STAT_STOPPED 2).wr64 rSL_FCYC 99).setFld fFC_STAT_DEAD 2) (1)) :=
  ⟨by decide +kernel, by decide +kernel, by decide +kernel, by decide +kernel, by decide +kernel, by decide +kernel, by decide +kernel, by decide +kernel⟩
theorem test_met_LockstepRecovery_2 :
  ((fun (s : State) (n : Fin 4) => (natBit (s.fld fFC_CTRL_AUTOREC) n.val = true) ∧ (natBit (s.fld fFC_STAT_DEAD) n.val = false) ∧ (storeGet 0 s.dup.stopCyc n.val + 16 ≤ fcycOf s) ∧ (coreStopped s n.val = true)) (((State.reset.setFld fFC_STAT_STOPPED 2).wr64 rSL_FCYC 99).setFld fFC_CTRL_AUTOREC 15) (1)) ∧
  ((fun (s : State) (n : Fin 4) => (natBit (s.fld fFC_STAT_RECOVERING) n.val = false ∨ coreStopped s n.val = false)) (State.reset.setFld fFC_STAT_STOPPED 2) (1)) ∧
  ((fun (s : State) (n : Fin 4) => (natBit (s.fld fFC_STAT_RECOVERING) n.val = true) ∧ (coreStopped s n.val = true)) ((((State.reset.setFld fFC_STAT_STOPPED 2).setFld fFC_STAT_RECOVERING 2).wr64 rTICKNO 9).mapCore 1 fun c => { c with w := [(3, 7)], dfvec := 0x10081001, pc := 0x10082000, sc := [(scDFCAP, Cap.root)] }) (1)) :=
  ⟨by decide +kernel, by decide +kernel, by decide +kernel⟩
theorem test_met_DebugRequests_1 :
  ((fun (s : State) (n : Fin 4) => (Reaches s) ∧ (¬ Permitted s 0)) (((secState 0x8 0x0).wr rSL_PSTAT 3)) (1)) ∧
  ((fun (s : State) (n : Fin 4) => (Reaches s) ∧ (¬ Permitted s 0)) (((secState 0x8 0x0).wr rSL_PSTAT 3)) (1)) ∧
  ((fun (s : State) (n : Fin 4) => (Reaches s) ∧ (¬ Permitted s 0)) (((secState 0x8 0x0).wr rSL_PSTAT 3)) (1)) ∧
  ((fun (s : State) (n : Fin 4) (r : CoreReg) => (Reaches s) ∧ (¬ Permitted s 0)) (((secState 0x8 0x0).wr rSL_PSTAT 3)) (1) (.pc)) ∧
  ((fun (s : State) (n : Fin 4) (r : CoreReg) (v : BitVec 128) => (Reaches s) ∧ (¬ Permitted s 0)) (((secState 0x8 0x0).wr rSL_PSTAT 3)) (1) (.pc) (5)) ∧
  ((fun (s : State) (n : Fin 4) => (Reaches s) ∧ (Permitted s 0)) ({ (((secState 0x18 0x0).wr rSL_PSTAT 3)) with sec := { SecState.reset with scope := 1 } }) (1)) ∧
  ((fun (s : State) (n : Fin 4) => (Reaches s) ∧ (Permitted s 0) ∧ (NoWork (s.core n.val))) (((((secState 0x4 0x0).wr rSL_PSTAT 3))).mapCore 1 haltedCore) (1)) ∧
  ((fun (s : State) (n : Fin 4) (x : Xl) => (Reaches s) ∧ (Permitted s 0) ∧ ((s.core n.val).halted = true) ∧ ((s.core n.val).fq = [⟨[⟨⟨true, false, 0, false, none⟩, .nop⟩], none⟩, ⟨[⟨⟨true, false, 0, false, none⟩, .nop⟩], none⟩]) ∧ (AtBundle (unqueued s n.val) n.val none x) ∧ (NoEnd (s.core n.val)) ∧ ((s.core n.val).step = false)) (((((secState 0x4 0x0).wr rSL_PSTAT 3)).setFld fRST_CTRL_CORERUN 15).mapCore 1 fun c => { c with halted := true, fq := [⟨[⟨⟨true, false, 0, false, none⟩, .nop⟩], none⟩, ⟨[⟨⟨true, false, 0, false, none⟩, .nop⟩], none⟩] }) (1) (wX 1)) :=
  ⟨by decide +kernel, by decide +kernel, by decide +kernel, by decide +kernel, by decide +kernel, by decide +kernel, by decide +kernel, by decide +kernel⟩
theorem test_met_DebugRequests_2 :
  ((fun (s : State) (n : Fin 4) => (Reaches s) ∧ (Permitted s 0) ∧ ((s.core n.val).halted = false)) ((((secState 0x4 0x0).wr rSL_PSTAT 3))) (1)) ∧
  ((fun (s : State) (n : Fin 4) => (Reaches s) ∧ (Permitted s 0) ∧ ((s.core n.val).halted = true) ∧ (NoWork (s.core n.val))) (((((secState 0x4 0x0).wr rSL_PSTAT 3))).mapCore 1 haltedCore) (1)) ∧
  ((fun (s : State) (n : Fin 4) (i : BitVec 5) => (Reaches s) ∧ (Permitted s 0)) ((((secState 0x4 0x0).wr rSL_PSTAT 3)).mapCore 1 fun c => { c with w := [(3, 7), (24, 0x12345678)], f := [(9, 0x123456789ABCDEF0)], p := [(2, 0x5A)], c := [(4, Cap.root)] }) (1) (3)) ∧
  ((fun (s : State) (n : Fin 4) (i : BitVec 6) => (Reaches s) ∧ (Permitted s 0)) ((((secState 0x4 0x0).wr rSL_PSTAT 3)).mapCore 1 fun c => { c with w := [(3, 7), (24, 0x12345678)], f := [(9, 0x123456789ABCDEF0)], p := [(2, 0x5A)], c := [(4, Cap.root)] }) (1) (9)) ∧
  ((fun (s : State) (n : Fin 4) (i : BitVec 3) => (Reaches s) ∧ (Permitted s 0)) ((((secState 0x4 0x0).wr rSL_PSTAT 3)).mapCore 1 fun c => { c with w := [(3, 7), (24, 0x12345678)], f := [(9, 0x123456789ABCDEF0)], p := [(2, 0x5A)], c := [(4, Cap.root)] }) (1) (2)) ∧
  ((fun (s : State) (n : Fin 4) (i : BitVec 4) => (Reaches s) ∧ (Permitted s 0)) ((((secState 0x4 0x0).wr rSL_PSTAT 3)).mapCore 1 fun c => { c with w := [(3, 7), (24, 0x12345678)], f := [(9, 0x123456789ABCDEF0)], p := [(2, 0x5A)], c := [(4, Cap.root)] }) (1) (4)) ∧
  ((fun (s : State) (n : Fin 4) => (Reaches s) ∧ (Permitted s 0)) ((((secState 0x4 0x0).wr rSL_PSTAT 3)).mapCore 1 fun c => { c with w := [(3, 7), (24, 0x12345678)], f := [(9, 0x123456789ABCDEF0)], p := [(2, 0x5A)], c := [(4, Cap.root)] }) (1)) ∧
  ((fun (s : State) (n : Fin 4) => (Reaches s) ∧ (Permitted s 0)) ((((secState 0x4 0x0).wr rSL_PSTAT 3)).mapCore 1 fun c => { c with w := [(3, 7), (24, 0x12345678)], f := [(9, 0x123456789ABCDEF0)], p := [(2, 0x5A)], c := [(4, Cap.root)] }) (1)) :=
  ⟨by decide +kernel, by decide +kernel, by decide +kernel, by decide +kernel, by decide +kernel, by decide +kernel, by decide +kernel, by decide +kernel⟩
theorem test_met_DebugRequests_3 :
  ((fun (s : State) (n : Fin 4) (k : BitVec 10) (v : Nat) => (Reaches s) ∧ (Permitted s 0) ∧ (sysRead n.val (s.core n.val) k.toNat = some v)) ((((secState 0x4 0x0).wr rSL_PSTAT 3)).mapCore 1 fun c => { c with w := [(3, 7), (24, 0x12345678)], f := [(9, 0x123456789ABCDEF0)], p := [(2, 0x5A)], c := [(4, Cap.root)] }) (1) (2) (1)) ∧
  ((fun (s : State) (n : Fin 4) (k : BitVec 10) => (Reaches s) ∧ (Permitted s 0) ∧ (sysRead n.val (s.core n.val) k.toNat = none)) ((((secState 0x4 0x0).wr rSL_PSTAT 3)).mapCore 1 fun c => { c with w := [(3, 7), (24, 0x12345678)], f := [(9, 0x123456789ABCDEF0)], p := [(2, 0x5A)], c := [(4, Cap.root)] }) (1) (0x3FF)) ∧
  ((fun (s : State) (n : Fin 4) (v : BitVec 128) (i : BitVec 5) => (Reaches s) ∧ (Permitted s 0) ∧ ((s.core n.val).pend = [])) ((((secState 0x4 0x0).wr rSL_PSTAT 3)).mapCore 1 fun c => { c with w := [(3, 7), (24, 0x12345678)], f := [(9, 0x123456789ABCDEF0)], p := [(2, 0x5A)], c := [(4, Cap.root)] }) (1) (0xFEDCBA9876543210FFFFFFFFFFFFFFFF) (3)) ∧
  ((fun (s : State) (n : Fin 4) (v : BitVec 128) (i : BitVec 6) => (Reaches s) ∧ (Permitted s 0) ∧ ((s.core n.val).pend = [])) ((((secState 0x4 0x0).wr rSL_PSTAT 3)).mapCore 1 fun c => { c with w := [(3, 7), (24, 0x12345678)], f := [(9, 0x123456789ABCDEF0)], p := [(2, 0x5A)], c := [(4, Cap.root)] }) (1) (0xFEDCBA9876543210FFFFFFFFFFFFFFFF) (9)) ∧
  ((fun (s : State) (n : Fin 4) (v : BitVec 128) (i : BitVec 3) => (Reaches s) ∧ (Permitted s 0) ∧ ((s.core n.val).pend = [])) ((((secState 0x4 0x0).wr rSL_PSTAT 3)).mapCore 1 fun c => { c with w := [(3, 7), (24, 0x12345678)], f := [(9, 0x123456789ABCDEF0)], p := [(2, 0x5A)], c := [(4, Cap.root)] }) (1) (0xFEDCBA9876543210FFFFFFFFFFFFFFFF) (2)) ∧
  ((fun (s : State) (n : Fin 4) (v : BitVec 128) (i : BitVec 4) => (Reaches s) ∧ (Permitted s 0) ∧ ((s.core n.val).pend = [])) ((((secState 0x4 0x0).wr rSL_PSTAT 3)).mapCore 1 fun c => { c with w := [(3, 7), (24, 0x12345678)], f := [(9, 0x123456789ABCDEF0)], p := [(2, 0x5A)], c := [(4, Cap.root)] }) (1) (0xFEDCBA9876543210FFFFFFFFFFFFFFFF) (4)) ∧
  ((fun (s : State) (n : Fin 4) (v : BitVec 128) => (Reaches s) ∧ (Permitted s 0)) ((((secState 0x4 0x0).wr rSL_PSTAT 3)).mapCore 1 fun c => { c with w := [(3, 7), (24, 0x12345678)], f := [(9, 0x123456789ABCDEF0)], p := [(2, 0x5A)], c := [(4, Cap.root)] }) (1) (0x10081000)) ∧
  ((fun (s : State) (n : Fin 4) (v : BitVec 128) => (Reaches s) ∧ (Permitted s 0) ∧ ((s.core n.val).pend = []) ∧ ((s.core n.val).fdivs = [])) ((((secState 0x4 0x0).wr rSL_PSTAT 3)).mapCore 1 fun c => { c with w := [(3, 7), (24, 0x12345678)], f := [(9, 0x123456789ABCDEF0)], p := [(2, 0x5A)], c := [(4, Cap.root)] }) (1) (0xFFFFFFFF)) :=
  ⟨by decide +kernel, by decide +kernel, by decide +kernel, by decide +kernel, by decide +kernel, by decide +kernel, by decide +kernel, by decide +kernel⟩
theorem test_met_DebugRequests_4 :
  ((fun (s : State) (n : Fin 4) (v : BitVec 128) (k : BitVec 10) => (Reaches s) ∧ (Permitted s 0) ∧ (sysWritable k.toNat = true) ∧ ((k.toNat ≠ 0x100 ∨ tbaseOk n.val (v.toNat % 2 ^ 32) = true))) ((((secState 0x4 0x0).wr rSL_PSTAT 3)).mapCore 1 fun c => { c with w := [(3, 7), (24, 0x12345678)], f := [(9, 0x123456789ABCDEF0)], p := [(2, 0x5A)], c := [(4, Cap.root)] }) (1) (0xFFFFFFFF) (1)) ∧
  ((fun (s : State) (n : Fin 4) (v : BitVec 128) (k : BitVec 10) => (Reaches s) ∧ (Permitted s 0) ∧ (¬ (sysWritable k.toNat = true ∧ (k.toNat ≠ 0x100 ∨ tbaseOk n.val (v.toNat % 2 ^ 32) = true)))) ((((secState 0x4 0x0).wr rSL_PSTAT 3)).mapCore 1 fun c => { c with w := [(3, 7), (24, 0x12345678)], f := [(9, 0x123456789ABCDEF0)], p := [(2, 0x5A)], c := [(4, Cap.root)] }) (1) (0x10080000) (0x100)) ∧
  ((fun (s : State) (a : Word) (len : BitVec 7) => (Reaches s) ∧ (¬ Permitted s 1)) ({ (((secState 0x18 0x0).wr rSL_PSTAT 3)) with sec := { SecState.reset with scope := 1 } }) (0) (4)) ∧
  ((fun (s : State) (a : Word) (len : BitVec 7) => (Reaches s) ∧ (Permitted s 1) ∧ (a.toNat + len.toNat ≤ salSize) ∧ (salBad s a.toNat len.toNat = false) ∧ (GoodBytes s a.toNat len.toNat)) ({ ((secState 0xC 0x0).wr rSL_PSTAT 3) with sal := { SalState.reset with mem := putList [] 0x1000 (bytesOfNat 32 0x1112131415161718191A1B1C1D1E1F20212223) } }) (0x1001) (64)) ∧
  ((fun (s : State) (a : Word) (len : BitVec 7) => (Reaches s) ∧ (Permitted s 1) ∧ (a.toNat + len.toNat ≤ salSize) ∧ (salBad s a.toNat len.toNat = true)) ({ ((secState 0xC 0x0).wr rSL_PSTAT 3) with sal := { SalState.reset with err := [(0x1003, .ue)] } }) (0x1001) (7)) ∧
  ((fun (s : State) (a : Word) (len : BitVec 7) (g : Nat) => (Reaches s) ∧ (Permitted s 1) ∧ (regionOf .F a.toNat = .lmem g) ∧ (lmBad s g len.toNat = false)) ({ ((secState 0xC 0x0).wr rSL_PSTAT 3) with lmem := putList [] 0x10081000 (bytesOfNat 8 0x1112131415161718), mram := putList [] 0x1234 (bytesOfNat 8 0x2122232425262728) }) (0x10081001) (6) (0x10081001)) ∧
  ((fun (s : State) (a : Word) (len : BitVec 7) (g : Nat) => (Reaches s) ∧ (Permitted s 1) ∧ (regionOf .F a.toNat = .mram g) ∧ (lmBad s (0x40000000 + g) len.toNat = false)) ({ ((secState 0xC 0x0).wr rSL_PSTAT 3) with lmem := putList [] 0x10081000 (bytesOfNat 8 0x1112131415161718), mram := putList [] 0x1234 (bytesOfNat 8 0x2122232425262728) }) (0x40001234) (6) (0x1234)) ∧
  ((fun (s : State) (a : Word) (len : BitVec 7) (g : Nat) => (Reaches s) ∧ (Permitted s 1) ∧ (regionOf .F a.toNat = .rom g)) ({ ((secState 0xC 0x0).wr rSL_PSTAT 3) with lmem := putList [] 0x10081000 (bytesOfNat 8 0x1112131415161718), mram := putList [] 0x1234 (bytesOfNat 8 0x2122232425262728) }) (0xFFFF0010) (6) (16)) :=
  ⟨by decide +kernel, by decide +kernel, by decide +kernel, by decide +kernel, by decide +kernel, by decide +kernel, by decide +kernel, by decide +kernel⟩
theorem test_met_DebugRequests_5 :
  ((fun (s : State) (a : Word) (len : BitVec 7) (g : Nat) => (Reaches s) ∧ (Permitted s 1) ∧ (regionOf .F a.toNat = .lmem g ∨ (0x40000000 ≤ g ∧ regionOf .F a.toNat = .mram (g - 0x40000000))) ∧ (lmBad s g len.toNat = true)) ({ { ((secState 0xC 0x0).wr rSL_PSTAT 3) with lmem := putList [] 0x10081000 (bytesOfNat 8 0x1112131415161718), mram := putList [] 0x1234 (bytesOfNat 8 0x2122232425262728) } with lmErr := [(0x10081003, true)] }) (0x10081001) (6) (0x10081001)) ∧
  ((fun (s : State) (a : Word) (len : BitVec 7) => (Reaches s) ∧ (Permitted s 1) ∧ (regionOf .F a.toNat = .none)) ({ ((secState 0xC 0x0).wr rSL_PSTAT 3) with lmem := putList [] 0x10081000 (bytesOfNat 8 0x1112131415161718), mram := putList [] 0x1234 (bytesOfNat 8 0x2122232425262728) }) (0x20000000) (6)) ∧
  ((fun (s : State) (a : Word) (len : BitVec 7) (pg : Nat) (off : Nat) => (Reaches s) ∧ (Permitted s 1) ∧ (regionOf .F a.toNat = .page pg off) ∧ (pageKind pg ≠ .none) ∧ (off % 4 = 0) ∧ (len.toNat = 4)) ({ ((secState 0xC 0x0).wr rSL_PSTAT 3) with lmem := putList [] 0x10081000 (bytesOfNat 8 0x1112131415161718), mram := putList [] 0x1234 (bytesOfNat 8 0x2122232425262728) }) (0xF0010044) (4) (0x10) (0x44)) ∧
  ((fun (s : State) (a : Word) (bytes : List Byte) => (Reaches s) ∧ (bytes.length ≤ 65536) ∧ (¬ Permitted s 1) ∧ (¬ (s.flag fSEC_STAT_RECOVERY = true ∧ 0x40000000 ≤ a.toNat ∧ a.toNat + bytes.length ≤ 0x40F00000))) ({ (((secState 0x18 0x0).wr rSL_PSTAT 3)) with sec := { SecState.reset with scope := 1 } }) (0) ([1])) ∧
  ((fun (s : State) (a : Word) (bytes : List Byte) => (Reaches s) ∧ (bytes.length ≤ 65536) ∧ (Permitted s 1) ∧ (a.toNat + bytes.length ≤ salSize) ∧ (bytes ≠ [])) ({ ((secState 0xC 0x0).wr rSL_PSTAT 3) with sal := { SalState.reset with mem := putList [] 0x1000 (bytesOfNat 32 0x1112131415161718191A1B1C1D1E1F20212223) } }) (0x1001) ([1, 2, 3])) ∧
  ((fun (s : State) (a : Word) (bytes : List Byte) (g : Nat) => (Reaches s) ∧ (bytes.length ≤ 65536) ∧ (Permitted s 1) ∧ (regionOf .F a.toNat = .lmem g)) ({ { ((secState 0xC 0x0).wr rSL_PSTAT 3) with lmem := putList [] 0x10081000 (bytesOfNat 8 0x1112131415161718), mram := putList [] 0x1234 (bytesOfNat 8 0x2122232425262728) } with lmErr := [(0x10081003, true)] }) (0x10081001) ([1, 2, 3]) (0x10081001)) ∧
  ((fun (s : State) (a : Word) (bytes : List Byte) (g : Nat) => (Reaches s) ∧ (bytes.length ≤ 65536) ∧ (Permitted s 1 ∨ (s.flag fSEC_STAT_RECOVERY = true ∧ 0x40000000 ≤ a.toNat ∧ a.toNat + bytes.length ≤ 0x40F00000)) ∧ (regionOf .F a.toNat = .mram g) ∧ (mramProtected s g = false)) ((((secState 0x9 0x0).wr rSL_PSTAT 3))) (0x40EFFFFD) ([1, 2, 3]) (0xEFFFFD)) ∧
  ((fun (s : State) (a : Word) (bytes : List Byte) (g : Nat) => (Reaches s) ∧ (bytes.length ≤ 65536) ∧ (Permitted s 1 ∨ (s.flag fSEC_STAT_RECOVERY = true ∧ 0x40000000 ≤ a.toNat ∧ a.toNat + bytes.length ≤ 0x40F00000)) ∧ (regionOf .F a.toNat = .mram g) ∧ (mramProtected s g = true)) ({ (((secState 0x9 0x0).wr rSL_PSTAT 3)) with sec := { SecState.reset with prot := some 0 } }) (0x40001000) ([1, 2, 3]) (0x1000)) :=
  ⟨by decide +kernel, by decide +kernel, by decide +kernel, by decide +kernel, by decide +kernel, by decide +kernel, by decide +kernel, by decide +kernel⟩
theorem test_met_DebugRequests_6 :
  ((fun (s : State)  => (Reaches s) ∧ (s.flag fSEC_STAT_RECOVERY = false) ∧ (¬ Permitted s 0)) (((secState 0x8 0x0).wr rSL_PSTAT 3)) ) ∧
  ((fun (s : State)  => (Reaches s) ∧ (s.flag fSEC_STAT_RECOVERY = true ∨ Permitted s 0) ∧ (s.fld fSEC_STAT_LC = 0)) ((((secState 0x0 0x0).wr rSL_PSTAT 3)).mapCore 0 haltedCore) ) ∧
  ((fun (s : State)  => (Reaches s) ∧ (s.flag fSEC_STAT_RECOVERY = true ∨ Permitted s 0) ∧ (s.fld fSEC_STAT_LC ≠ 0) ∧ (candidateFail s 0 ≠ 0) ∧ (candidateFail s 1 ≠ 0)) (((((secState 0x9 0x0).wr rSL_PSTAT 3))).mapCore 0 haltedCore) ) ∧
  ((fun (s : State) (n : Fin 4) => (slUp s = false) ∧ (s.sl.inF.all (fun m => m.cls != 7) = true)) (State.reset) (1)) ∧
  ((fun (s : State) (n : Fin 4) => (slUp s = false) ∧ (s.sl.inF.all (fun m => m.cls != 7) = true)) (State.reset) (1)) ∧
  ((fun (s : State) (n : Fin 4) => (slUp s = false) ∧ (s.sl.inF.all (fun m => m.cls != 7) = true)) (State.reset) (1)) ∧
  ((fun (s : State) (n : Fin 4) (r : CoreReg) => (slUp s = false) ∧ (s.sl.inF.all (fun m => m.cls != 7) = true)) (State.reset) (1) (.pc)) ∧
  ((fun (s : State) (n : Fin 4) (r : CoreReg) (v : BitVec 128) => (slUp s = false) ∧ (s.sl.inF.all (fun m => m.cls != 7) = true)) (State.reset) (1) (.pc) (5)) :=
  ⟨by decide +kernel, by decide +kernel, by decide +kernel, by decide +kernel, by decide +kernel, by decide +kernel, by decide +kernel, by decide +kernel⟩
theorem test_met_DebugRequests_7 :
  ((fun (s : State) (a : Word) (len : BitVec 7) => (slUp s = false) ∧ (s.sl.inF.all (fun m => m.cls != 7) = true)) (State.reset) (5) (9)) ∧
  ((fun (s : State) (a : Word) (bytes : List Byte) => (slUp s = false) ∧ (s.sl.inF.all (fun m => m.cls != 7) = true)) (State.reset) (5) ([1, 2])) ∧
  ((fun (s : State)  => (slUp s = false) ∧ (s.sl.inF.all (fun m => m.cls != 7) = true)) (State.reset) ) :=
  ⟨by decide +kernel, by decide +kernel, by decide +kernel⟩
theorem test_met_SecurityBlock_1 :
  ((fun (s : State) (arg : BitVec 8) => (otpBusy s = true ∨ 4 ≤ arg.toNat ∨ (s.flag fSEC_BOOT_VALID = true ∧ s.sec.key = arg.toNat) ∨ ¬ OtherKey s arg.toNat)) (((secState 0x0 0x0))) (4)) ∧
  ((fun (s : State) (arg : BitVec 8) => (¬ (otpBusy s = true ∨ 4 ≤ arg.toNat ∨ (s.flag fSEC_BOOT_VALID = true ∧ s.sec.key = arg.toNat) ∨ ¬ OtherKey s arg.toNat))) (((secState 0x0 0x0))) (3)) ∧
  ((fun (s : State) (arg : BitVec 8) => (otpBusy s = true ∨ 2 ≤ arg.toNat)) ((secState 0x0 0x0)) (2)) ∧
  ((fun (s : State) (arg : BitVec 8) => (otpBusy s = false) ∧ (arg.toNat < 2)) ((secState 0x0 0x0)) (1)) ∧
  ((fun (s : State)  => (otpBusy s = true)) ((secState 0x40 0x0)) ) ∧
  ((fun (s : State)  => (otpBusy s = false)) ((secState 0x0 0x0)) ) ∧
  ((fun (s : State) (arg : BitVec 8) => (otpBusy s = true ∨ arg.toNat ≤ s.fld fSEC_STAT_LC ∨ 3 < arg.toNat ∨ (arg.toNat = 3 ∧ natBit s.sec.scope 2 = false))) ({ (secState 0x4 0x0) with sec := { SecState.reset with lc := 1 } }) (1)) ∧
  ((fun (s : State) (arg : BitVec 8) => (¬ (otpBusy s = true ∨ arg.toNat ≤ s.fld fSEC_STAT_LC ∨ 3 < arg.toNat ∨ (arg.toNat = 3 ∧ natBit s.sec.scope 2 = false)))) ({ (secState 0x4 0x0) with sec := { SecState.reset with lc := 1 } }) (2)) :=
  ⟨by decide +kernel, by decide +kernel, by decide +kernel, by decide +kernel, by decide +kernel, by decide +kernel, by decide +kernel, by decide +kernel⟩
theorem test_met_SecurityBlock_2 :
  ((fun (s : State)  => (frozen s secPg = true ∨ s.sec.otp = none)) ((secState 0x0 0x0)) ) ∧
  ((fun (s : State) (a : Nat) => (frozen s secPg = false) ∧ (a < 4) ∧ (s.sec.otp = some ⟨0, a⟩)) ({ (secState 0x40 0x0) with sec := { SecState.reset with otp := some ⟨0, 1⟩ } }) (1)) ∧
  ((fun (s : State) (a : Nat) => (frozen s secPg = false) ∧ (a < 2) ∧ (s.sec.otp = some ⟨1, a⟩)) ({ (secState 0x40 0x0) with sec := { SecState.reset with otp := some ⟨1, 1⟩ } }) (1)) ∧
  ((fun (s : State) (a : Nat) => (frozen s secPg = false) ∧ (a < 128) ∧ (s.sec.otp = some ⟨2, a⟩)) ({ (secState 0x40 0x0) with sec := { SecState.reset with otp := some ⟨2, 1⟩ } }) (1)) ∧
  ((fun (s : State) (a : Nat) => (frozen s secPg = false) ∧ (a < 4) ∧ (s.sec.otp = some ⟨3, a⟩)) ({ (secState 0x40 0x0) with sec := { SecState.reset with otp := some ⟨3, 1⟩ } }) (1)) ∧
  ((fun (s : State) (on : Bool) => (on = true) ∧ (s.fld fCRY_STAT_NADMIT ≠ 0)) ((secState 0x0 0x0).setFld fCRY_STAT_NADMIT 2) (true)) ∧
  ((fun (s : State) (on : Bool) => (on = false ∨ s.fld fCRY_STAT_NADMIT = 0)) ((secState 0x0 0x0)) (true)) ∧
  ((fun (s : State)  => (frozen s secPg = false) ∧ (s.flag fSEC_STAT_RNGFAIL = false)) ((secState 0x0 0x0)) ) :=
  ⟨by decide +kernel, by decide +kernel, by decide +kernel, by decide +kernel, by decide +kernel, by decide +kernel, by decide +kernel, by decide +kernel⟩
theorem test_met_SecurityBlock_3 :
  ((fun (s : State)  => (frozen s secPg = true ∨ s.flag fSEC_STAT_RNGFAIL = true)) ((secState 0x200 0x0)) ) ∧
  ((fun (s : State)  => (frozen s secPg = false)) ((secState 0x0 0x0)) ) ∧
  ((fun (s : State)  => (frozen s secPg = true)) ((secState 0x0 0x0).setFlag (fPAGE_CTRL_FREEZE secPg) true) ) ∧
  ((fun (s : State) (m : BitVec 8) => (s.fld fSEC_RNGAVAIL = 0)) ((secState 0x0 0x0)) (82)) ∧
  ((fun (s : State) (m : BitVec 8) => (s.fld fSEC_RNGAVAIL ≠ 0)) ((secState 0x0 0x0).setFld fSEC_RNGAVAIL 3) (82)) ∧
  ((fun (s : State) (cseq : Word) (q : BitVec 16) (nonce : List Byte) => (frozen s secPg = true)) ((secState 0x0 0x0).setFlag (fPAGE_CTRL_FREEZE secPg) true) (7) (3) ([1, 2])) ∧
  ((fun (s : State) (cseq : Word) (q : BitVec 16) (nonce : List Byte) => (frozen s secPg = false) ∧ (s.fld fSEC_STAT_LC = 0 ∨ s.fld fSEC_STAT_LC = 3 ∨ 4 ≤ s.sec.att.length)) ((secState 0xC 0x0)) (7) (3) ([1, 2])) ∧
  ((fun (s : State) (cseq : Word) (q : BitVec 16) (nonce : List Byte) => (frozen s secPg = false) ∧ (s.fld fSEC_STAT_LC = 1 ∨ s.fld fSEC_STAT_LC = 2) ∧ (s.sec.att.length < 4)) (((secState 0x4 0x0))) (7) (3) ([1, 2])) :=
  ⟨by decide +kernel, by decide +kernel, by decide +kernel, by decide +kernel, by decide +kernel, by decide +kernel, by decide +kernel, by decide +kernel⟩
theorem test_met_SecurityBlock_4 :
  ((fun (s : State) (cseq : Word) (q : BitVec 16) => (frozen s secPg = true)) ((secState 0x0 0x0).setFlag (fPAGE_CTRL_FREEZE secPg) true) (7) (3)) ∧
  ((fun (s : State) (cseq : Word) (q : BitVec 16) => (frozen s secPg = false) ∧ (s.fld fSEC_STAT_LC = 0 ∨ s.fld fSEC_STAT_LC = 3 ∨ 4 ≤ s.sec.att.length)) ((secState 0xC 0x0)) (7) (3)) ∧
  ((fun (s : State) (cseq : Word) (q : BitVec 16) => (frozen s secPg = false) ∧ (s.fld fSEC_STAT_LC = 1 ∨ s.fld fSEC_STAT_LC = 2) ∧ (s.sec.att.length < 4)) (((secState 0x4 0x0))) (7) (3)) ∧
  ((fun (s : State)  => (frozen s secPg = true ∨ s.sec.att = [])) ((secState 0x0 0x0)) ) ∧
  ((fun (s : State) (r : AttReq) (rest : List AttReq) => (frozen s secPg = false) ∧ (slUp s = true) ∧ (s.sec.att = r :: rest) ∧ (r.ident = true)) ({ ((secState 0x4 0x0)).wr rSL_PSTAT 3 with sec := { SecState.reset with att := [⟨true, 7, List.replicate 32 9, 5⟩] } }) (⟨true, 7, List.replicate 32 9, 5⟩) ([])) ∧
  ((fun (s : State) (r : AttReq) (rest : List AttReq) => (frozen s secPg = false) ∧ (slUp s = true) ∧ (s.sec.att = r :: rest) ∧ (r.ident = false)) ({ ((secState 0x4 0x0)).wr rSL_PSTAT 3 with sec := { SecState.reset with att := [⟨false, 7, List.replicate 32 9, 5⟩] } }) (⟨false, 7, List.replicate 32 9, 5⟩) ([])) ∧
  ((fun (s : State)  => (Reaches s) ∧ (s.sec.rngUp = false)) ((secState 0x0 0x0).wr rSL_PSTAT 3) ) ∧
  ((fun (s : State)  => (Reaches s) ∧ (s.sec.rngUp = true)) ({ (secState 0x0 0x0).wr rSL_PSTAT 3 with sec := { SecState.reset with rngUp := true } }) ) :=
  ⟨by decide +kernel, by decide +kernel, by decide +kernel, by decide +kernel, by decide +kernel, by decide +kernel, by decide +kernel, by decide +kernel⟩
theorem test_met_SecurityBlock_5 :
  ((fun (s : State) (scope : BitVec 8) (slot : BitVec 8) (pub : List Byte) (sig : List Byte) => (Reaches s) ∧ (pub.length + sig.length ≤ 65536) ∧ (s.flag (fEV_ROUTE_DEST secPg) = true ∨ enBit s secPg 2 = false) ∧ (s.sec.nonce = none ∨ 2 ≤ slot.toNat ∨ natBit (s.fld fSEC_OTPSTAT_DBGREV) slot.toNat = true ∨ 4 ≤ s.sec.fails)) ((secState 0x0 0x0).wr rSL_PSTAT 3) (3) (0) ([]) ([])) ∧
  ((fun (s : State) (scope : BitVec 8) (slot : BitVec 8) (pub : List Byte) (sig : List Byte) (nn : List Byte) => (Reaches s) ∧ (pub.length + sig.length ≤ 65536) ∧ (s.flag (fEV_ROUTE_DEST secPg) = true ∨ (enBit s secPg 1 = false ∧ enBit s secPg 2 = false)) ∧ (s.sec.nonce = some nn) ∧ (slot.toNat < 2) ∧ (natBit (s.fld fSEC_OTPSTAT_DBGREV) slot.toNat = false) ∧ (s.sec.fails < 4)) ({ ((secState 0x0 0x0).wr rSL_PSTAT 3) with sec := { SecState.reset with nonce := some [1, 2] } }) (3) (1) ([5]) ([6]) ([1, 2])) ∧
  ((fun (s : State)  => (slUp s = false) ∧ (s.sl.inF.all (fun m => m.cls != 7) = true)) ((secState 0x0 0x0)) ) ∧
  ((fun (s : State) (scope : BitVec 8) (slot : BitVec 8) (pub : List Byte) (sig : List Byte) => (slUp s = false) ∧ (s.sl.inF.all (fun m => m.cls != 7) = true)) ((secState 0x0 0x0)) (3) (1) ([5]) ([6])) :=
  ⟨by decide +kernel, by decide +kernel, by decide +kernel, by decide +kernel⟩
theorem test_met_ServicePanel_1 :
  ((fun (s : State)  => (frozen s pnPg = true)) (State.reset.setFlag (fPAGE_CTRL_FREEZE pnPg) true) ) ∧
  ((fun (s : State)  => (frozen s pnPg = true)) (State.reset.setFlag (fPAGE_CTRL_FREEZE pnPg) true) ) ∧
  ((fun (s : State) (ms : Word) => (frozen s pnPg = true)) (State.reset.setFlag (fPAGE_CTRL_FREEZE pnPg) true) (5)) ∧
  ((fun (s : State) (n : Fin 4) => (frozen s pnPg = true)) (State.reset.setFlag (fPAGE_CTRL_FREEZE pnPg) true) (1)) ∧
  ((fun (s : State) (n : Fin 4) => (frozen s pnPg = true)) (State.reset.setFlag (fPAGE_CTRL_FREEZE pnPg) true) (1)) ∧
  ((fun (s : State)  => (frozen s pnPg = true)) (State.reset.setFlag (fPAGE_CTRL_FREEZE pnPg) true) ) ∧
  ((fun (s : State)  => (frozen s pnPg = true)) (State.reset.setFlag (fPAGE_CTRL_FREEZE pnPg) true) ) ∧
  ((fun (s : State)  => (frozen s pnPg = true)) (State.reset.setFlag (fPAGE_CTRL_FREEZE pnPg) true) ) :=
  ⟨by decide +kernel, by decide +kernel, by decide +kernel, by decide +kernel, by decide +kernel, by decide +kernel, by decide +kernel, by decide +kernel⟩
theorem test_met_ServicePanel_2 :
  ((fun (s : State) (e : Fin 2) (ms : Word) (bl : BitVec 16) (k : BitVec 16) => (frozen s pnPg = true)) (State.reset.setFlag (fPAGE_CTRL_FREEZE pnPg) true) (1) (5) (6) (7)) ∧
  ((fun (s : State) (e : Fin 2) (bl : BitVec 16) (k : BitVec 16) => (frozen s pnPg = true)) (State.reset.setFlag (fPAGE_CTRL_FREEZE pnPg) true) (1) (6) (7)) ∧
  ((fun (s : State)  => (s.flag fPN_STAT_BTN = true)) ((State.reset.setFlag fPN_STAT_BTN true)) ) ∧
  ((fun (s : State)  => (frozen s pnPg = false) ∧ (s.flag fPN_STAT_BTN = false)) (State.reset) ) ∧
  ((fun (s : State)  => (s.flag fPN_STAT_BTN = false ∨ s.pn.held = true ∨ s.fld fPN_HOLD = 0)) (State.reset) ) ∧
  ((fun (s : State)  => (frozen s pnPg = false) ∧ (s.flag fPN_STAT_BTN = true) ∧ (s.pn.held = false) ∧ (s.fld fPN_HOLD ≠ 0)) ((State.reset.setFlag fPN_STAT_BTN true).setFld fPN_HOLD 9) ) ∧
  ((fun (s : State) (ms : Word) => (s.flag fPN_STAT_BTN = false)) (State.reset) (5)) ∧
  ((fun (s : State) (ms : Word) => (frozen s pnPg = false) ∧ (s.flag fPN_STAT_BTN = true)) ({ (State.reset.setFlag fPN_STAT_BTN true) with pn := { PanelState.reset with held := true } }) (0xFFFFFFFF)) :=
  ⟨by decide +kernel, by decide +kernel, by decide +kernel, by decide +kernel, by decide +kernel, by decide +kernel, by decide +kernel, by decide +kernel⟩
theorem test_met_ServicePanel_3 :
  ((fun (s : State) (n : Fin 4) => (natBit (s.fld fPN_STAT_LATCH) n.val = true)) (State.reset.setFld fPN_STAT_LATCH 15) (1)) ∧
  ((fun (s : State) (n : Fin 4) => (frozen s pnPg = false) ∧ (natBit (s.fld fPN_STAT_LATCH) n.val = false)) (State.reset) (3)) ∧
  ((fun (s : State) (n : Fin 4) => (natBit (s.fld fPN_STAT_LATCH) n.val = false)) (State.reset) (1)) ∧
  ((fun (s : State) (n : Fin 4) => (frozen s pnPg = false) ∧ (natBit (s.fld fPN_STAT_LATCH) n.val = true)) (State.reset.setFld fPN_STAT_LATCH 15) (3)) ∧
  ((fun (s : State)  => (s.flag fPN_STAT_VBUS = true)) ((State.reset.setFlag fPN_STAT_VBUS true)) ) ∧
  ((fun (s : State)  => (frozen s pnPg = false) ∧ (s.flag fPN_STAT_VBUS = false)) (State.reset) ) ∧
  ((fun (s : State)  => (s.flag fPN_STAT_VBUS = false)) (State.reset) ) ∧
  ((fun (s : State)  => (frozen s pnPg = false) ∧ (s.flag fPN_STAT_VBUS = true)) ((State.reset.setFlag fPN_STAT_VBUS true)) ) :=
  ⟨by decide +kernel, by decide +kernel, by decide +kernel, by decide +kernel, by decide +kernel, by decide +kernel, by decide +kernel, by decide +kernel⟩
theorem test_met_ServicePanel_4 :
  ((fun (s : State) (e : Fin 2) (ms : Word) (bl : BitVec 16) (k : BitVec 16) => (natBit (s.fld fPN_STAT_TOUCH) e.val = true)) (State.reset.setFld fPN_STAT_TOUCH 3) (1) (5) (6) (7)) ∧
  ((fun (s : State) (e : Fin 2) (ms : Word) (bl : BitVec 16) (k : BitVec 16) => (frozen s pnPg = false) ∧ (natBit (s.fld fPN_STAT_TOUCH) e.val = false) ∧ (¬ BothTouched s e ms)) ({ State.reset with pn := { PanelState.reset with touch := [(0, some 4)] } }) (1) (505) (6) (7)) ∧
  ((fun (s : State) (e : Fin 2) (ms : Word) (bl : BitVec 16) (k : BitVec 16) => (frozen s pnPg = false) ∧ (natBit (s.fld fPN_STAT_TOUCH) e.val = false) ∧ (BothTouched s e ms) ∧ (s.flag fPN_CTRL_TOUCHLOC = false)) ({ State.reset with pn := { PanelState.reset with touch := [(0, some 4)] } }) (1) (504) (6) (7)) ∧
  ((fun (s : State) (e : Fin 2) (ms : Word) (bl : BitVec 16) (k : BitVec 16) => (frozen s pnPg = false) ∧ (natBit (s.fld fPN_STAT_TOUCH) e.val = false) ∧ (BothTouched s e ms) ∧ (s.flag fPN_CTRL_TOUCHLOC = true)) ({ State.reset.setFlag fPN_CTRL_TOUCHLOC true with pn := { PanelState.reset with touch := [(0, some 4)] } }) (1) (504) (6) (7)) ∧
  ((fun (s : State) (e : Fin 2) (bl : BitVec 16) (k : BitVec 16) => (frozen s pnPg = false)) (State.reset.setFld fPN_STAT_TOUCH 3) (1) (6) (7)) ∧
  ((fun (s : State)  => (s.flag fPN_STAT_LT = false)) (State.reset) ) ∧
  ((fun (s : State)  => (frozen s pnPg = false) ∧ (s.flag fPN_STAT_LT = true) ∧ ((s.pn.mode.map (·.1)).Nodup)) ({ State.reset.setFlag fPN_STAT_LT true with pn := { PanelState.reset with toggle := true, mode := [(2, 3), (0, 1)] } }) ) :=
  ⟨by decide +kernel, by decide +kernel, by decide +kernel, by decide +kernel, by decide +kernel, by decide +kernel, by decide +kernel⟩
theorem test_met_SuppliesAndModes_1 :
  ((fun (s : State)  => (s.flag fPWR_STAT_BELOW = true)) ((State.reset.setFlag fPWR_STAT_BELOW true)) ) ∧
  ((fun (s : State)  => (s.flag fPWR_STAT_BELOW = false) ∧ (s.flag fBWCTL_HOLD = false)) ((State.reset.setFlag fBWCTL_HOLD false).wr64 rANGLE 77) ) ∧
  ((fun (s : State)  => (s.flag fPWR_STAT_BELOW = false) ∧ (s.flag fBWCTL_HOLD = true)) (((State.reset.setFlag fBWCTL_HOLD true).wr64 rTICKNO 5).wr64 rSL_FCYC 915) ) ∧
  ((fun (s : State) (mv : BitVec 16) (ns : Word) => (s.flag fPWR_STAT_BELOW = false)) (State.reset) (700) (99)) ∧
  ((fun (s : State) (mv : BitVec 16) (ns : Word) => (s.flag fPWR_STAT_BELOW = true)) ({ (State.reset.setFlag fPWR_STAT_BELOW true) with pwr := { PwrState.reset with held := true, dipAngle := 55 } }) (700) (99)) ∧
  ((fun (s : State)  => (s.flag fHP_STAT_BELOW = true)) ((State.reset.setFlag fHP_STAT_BELOW true)) ) ∧
  ((fun (s : State)  => (s.flag fHP_STAT_BELOW = false)) (State.reset.wr64 rSH_ANGLE 66) ) ∧
  ((fun (s : State) (mv : BitVec 16) (ns : Word) => (s.flag fHP_STAT_BELOW = false)) (State.reset) (700) (99)) :=
  ⟨by decide +kernel, by decide +kernel, by decide +kernel, by decide +kernel, by decide +kernel, by decide +kernel, by decide +kernel, by decide +kernel⟩
theorem test_met_SuppliesAndModes_2 :
  ((fun (s : State) (mv : BitVec 16) (ns : Word) => (s.flag fHP_STAT_BELOW = true) ∧ (s.qe.queues = [])) ({ (State.reset.setFlag fHP_STAT_BELOW true) with pwr := { PwrState.reset with hDipAngle := 55 } }) (700) (99)) ∧
  ((fun (s : State) (h : Bool) (x : BitVec 16) => (signedOf 16 x.toNat ≤ junctionLimit)) (State.reset) (true) (1680)) ∧
  ((fun (s : State) (x : BitVec 16) => (junctionLimit < signedOf 16 x.toNat)) (State.reset) (2001)) ∧
  ((fun (s : State) (x : BitVec 16) => (junctionLimit < signedOf 16 x.toNat)) (State.reset) (2001)) ∧
  ((fun (s : State) (x : BitVec 16) => (signedOf 16 x.toNat ≤ junctionLimit - 80)) (State.reset.setFlag fPWR_STAT_TEMPHIGH true) (1600)) ∧
  ((fun (s : State) (h : Bool) (x : BitVec 16) => (h = true ∨ junctionLimit - 80 < signedOf 16 x.toNat)) (State.reset.setFlag fPWR_STAT_TEMPHIGH true) (true) (5)) ∧
  ((fun (s : State)  => (s.flag fCK_STAT_REFOK = false)) (State.reset.wr rCK_STAT 0) ) ∧
  ((fun (s : State)  => (s.flag fCK_STAT_REFOK = true)) ((State.reset.wr rCK_STAT 7)) ) :=
  ⟨by decide +kernel, by simp only [junctionLimit]; split <;> decide +kernel, by simp only [junctionLimit]; split <;> decide +kernel, by simp only [junctionLimit]; split <;> decide +kernel, by simp only [junctionLimit]; split <;> decide +kernel, by decide +kernel, by decide +kernel, by decide +kernel⟩
theorem test_met_SuppliesAndModes_3 :
  ((fun (s : State)  => (s.flag fCK_STAT_REFOK = true)) ((State.reset.wr rCK_STAT 7)) ) ∧
  ((fun (s : State)  => (s.flag fCK_STAT_REFOK = false)) (State.reset.wr rCK_STAT 0) ) ∧
  ((fun (s : State) (l : Bool) => (s.flag (if l then fCK_STAT_LPLLLOCK else fCK_STAT_FPLLLOCK) = false)) (State.reset.wr rCK_STAT 0) (true)) ∧
  ((fun (s : State) (l : Bool) => (s.flag (if l then fCK_STAT_LPLLLOCK else fCK_STAT_FPLLLOCK) = true)) ((State.reset.wr rCK_STAT 7)) (true)) ∧
  ((fun (s : State)  => (s.pwr.mode ≠ .run)) ({ State.reset with pwr := { PwrState.reset with mode := .halt, woke := false, hOff := false } }) ) ∧
  ((fun (s : State)  => (s.pwr.mode = .run) ∧ (Busy s)) (State.reset.setFld fCRY_STAT_NADMIT 1) ) ∧
  ((fun (s : State)  => (s.pwr.mode = .run) ∧ (¬ Busy s)) ({ (State.reset.wr rSL_PSTAT 0x33).wr rSH_PSTAT 0x33 with pan := { PanState.reset with pans := [(1, { Pan.empty with run := some ⟨.bg 0 5 3, [], Cap.zero, 0, 0, 0, RedState.empty, []⟩ })] } }) ) ∧
  ((fun (s : State)  => (s.pwr.mode ≠ .run)) ({ State.reset with pwr := { PwrState.reset with mode := .halt, woke := false, hOff := false } }) ) :=
  ⟨by decide +kernel, by decide +kernel, by decide +kernel, by decide +kernel, by decide +kernel, by decide +kernel, by decide +kernel, by decide +kernel⟩
theorem test_met_SuppliesAndModes_4 :
  ((fun (s : State)  => (s.pwr.mode = .run) ∧ (Busy s)) (State.reset.setFld fCRY_STAT_NADMIT 1) ) ∧
  ((fun (s : State)  => (s.pwr.mode = .run) ∧ (¬ Busy s)) ({ (State.reset.wr rSL_PSTAT 0x33).wr rSH_PSTAT 0x33 with pan := { PanState.reset with pans := [(1, { Pan.empty with run := some ⟨.bg 0 5 3, [], Cap.zero, 0, 0, 0, RedState.empty, []⟩ })] } }) ) ∧
  ((fun (s : State)  => (s.pwr.mode = .run ∨ s.pwr.hOff = true)) (State.reset) ) ∧
  ((fun (s : State)  => (s.pwr.mode ≠ .run) ∧ (s.pwr.hOff = false)) ({ State.reset with pwr := { PwrState.reset with mode := .sleep, woke := false, hOff := false } }) ) ∧
  ((fun (s : State)  => (¬ (s.pwr.mode ≠ .run ∧ (s.pwr.woke = true ∨ (s.flag fPWR_WAKE_WAKESL = true ∧ s.pwr.hOff = false))))) ({ State.reset with pwr := { PwrState.reset with mode := .halt, woke := false, hOff := true } }) ) ∧
  ((fun (s : State)  => (s.pwr.mode ≠ .run) ∧ ((s.pwr.woke = true ∨ (s.flag fPWR_WAKE_WAKESL = true ∧ s.pwr.hOff = false)))) ((({ State.reset with pwr := { PwrState.reset with mode := .sleep, woke := true, hOff := true } }).wr rSL_PSTAT 0x4444).setFld fSL_CTRL_PAIRDIS 8) ) :=
  ⟨by decide +kernel, by decide +kernel, by decide +kernel, by decide +kernel, by decide +kernel, by decide +kernel⟩
theorem test_met_Resets_1 :
  ((fun (s : State) (w : WarmF) (cuts : List (Fin 4 × BitVec 11)) => (Quiet s) ∧ (cuts = [])) ({ (((secState 0x8 0x0).setFld fRST_CTRL_CORERUN 15)).wr64 rTICKNO 9 with mram := [(3, 7)], cores := [(1, { Core.reset 1 with pc := 8 }), (4, { Core.reset 4 with pc := 8 })], cry := { CryState.reset with ctx := [(3, Ctx.free)], lastLaunch := 4 } }) (.pin) ([])) ∧
  ((fun (s : State) (w : WarmF) (cuts : List (Fin 4 × BitVec 11)) => (Quiet s)) ({ (((secState 0x8 0x0).setFld fRST_CTRL_CORERUN 15)).wr64 rTICKNO 9 with mram := [(3, 7)], cores := [(1, { Core.reset 1 with pc := 8 }), (4, { Core.reset 4 with pc := 8 })], cry := { CryState.reset with ctx := [(3, Ctx.free)], lastLaunch := 4 } }) (.register) ([(2, 5)])) ∧
  ((fun (s : State) (w : WarmF) (cuts : List (Fin 4 × BitVec 11)) (p : Fin 4) (c : Nat) (k : Nat) (q : Nat) (x : Order) => (Quiet s) ∧ ((panOf s p.val).run = some x) ∧ (x.src = .bg c k q)) ({ State.reset with pan := { PanState.reset with pans := [(1, { Pan.empty with run := some ⟨.bg 2 5 3, [7, 8, 9, 10, 11, 12, 13, 14], Cap.zero, 40, 0, 6, RedState.empty, []⟩ })] } }) (.register) ([]) (1) (2) (5) (3) (⟨.bg 2 5 3, [7, 8, 9, 10, 11, 12, 13, 14], Cap.zero, 40, 0, 6, RedState.empty, []⟩)) ∧
  ((fun (s : State)  => (s.pwr.warm = false)) (State.reset) ) ∧
  ((fun (s : State)  => (s.pwr.warm = true) ∧ (s.flag fRK_STAT_EMPIN = false) ∧ (s.flag fSEC_CTRL_REIMAGE = false) ∧ (s.flag fSEC_BOOT_VALID = true) ∧ (img s (s.fld fSEC_BOOT_SLOT) 0 4 = 0x31494754)) ({ ((State.reset.wr rSEC_BOOT 3).setFld fRST_STAT_CAUSE 4) with pwr := { PwrState.reset with warm := true }, mram := putList [] 0x780000 (bytesOfNat 4 0x31494754 ++ bytesOfNat 12 0 ++ bytesOfNat 4 0x40780400 ++ bytesOfNat 4 0x10081000) }) ) ∧
  ((fun (s : State)  => (s.pwr.warm = true) ∧ (s.flag fRK_STAT_EMPIN = false) ∧ (s.flag fSEC_CTRL_REIMAGE = false) ∧ (s.flag fSEC_BOOT_VALID = false ∨ img s (s.fld fSEC_BOOT_SLOT) 0 4 ≠ 0x31494754)) ({ State.reset with pwr := { PwrState.reset with warm := true } }) ) ∧
  ((fun (s : State)  => (s.pwr.warm = true) ∧ (s.flag fRK_STAT_EMPIN = false) ∧ (s.flag fSEC_CTRL_REIMAGE = true) ∧ (s.fld fSEC_STAT_LC = 0)) ({ ((secState 0x0 0x0).setFlag fSEC_CTRL_REIMAGE true) with pwr := { PwrState.reset with warm := true } }) ) ∧
  ((fun (s : State)  => (s.pwr.warm = true) ∧ (s.flag fRK_STAT_EMPIN = true) ∧ (s.flag fSEC_CTRL_REIMAGE = false) ∧ (s.flag fSEC_BOOT_VALID = false)) ({ State.reset.setFlag fRK_STAT_EMPIN true with pwr := { PwrState.reset with warm := true } }) ) :=
  ⟨by decide +kernel, by decide +kernel, by decide +kernel, by decide +kernel, by decide +kernel, by decide +kernel, by decide +kernel, by decide +kernel⟩
theorem test_met_Resets_2 :
  ((fun (s : State) (b : Bool) (e : Bool) => (s.sec.lc = 0) ∧ (s.tj.writes = []) ∧ (s.qe.queues = []) ∧ (∀ i : Fin 4, slPair s i.val = 0) ∧ (s.pwr.hOff = false) ∧ (e = false)) ({ State.reset with sec := { SecState.reset with lc := 0 }, lmem := [(0x10080000, 3)], mram := [(3, 7)], cores := [(1, { Core.reset 1 with pc := 8 })] }) (true) (false)) ∧
  ((fun (s : State) (b : Bool) (e : Bool) => (s.sec.lc = 1) ∧ (s.tj.writes = []) ∧ (s.qe.queues = []) ∧ (∀ i : Fin 4, slPair s i.val = 0) ∧ (s.pwr.hOff = false) ∧ (e = true) ∧ (candidateFail s 0 ≠ 0) ∧ (candidateFail s 1 ≠ 0)) ({ State.reset with sec := { SecState.reset with lc := 1 } }) (true) (true)) ∧
  ((fun (s : State) (w : WarmF) (p : Fin 4) (k : BitVec 11) (c : Nat) (t1 : Nat) (n : Nat) (x : Order) => (Quiet s) ∧ (CutAt s p.val x k.toNat) ∧ (0 < k.toNat) ∧ (x.src = .bg c t1 n) ∧ (∀ q : Fin 4, q ≠ p → (panOf s q.val).run = none ∧ (panOf s q.val).yielded = none)) ({ State.reset with pan := { PanState.reset with pans := [(1, { Pan.empty with run := some (⟨.bg 2 5 3, [0x10, 0x44010004, 300, 0x800, 0x1000, 0x1800, 0x00010001, 1], Cap.root, 0, 0, 9, RedState.empty, []⟩ : Order), go := true })] }, sal := { SalState.reset with mem := putList [] 0x1000 (bytesOfNat 8 0x0000000700000005) } }) (.pin) (1) (3) (2) (5) (3) ((⟨.bg 2 5 3, [0x10, 0x44010004, 300, 0x800, 0x1000, 0x1800, 0x00010001, 1], Cap.root, 0, 0, 9, RedState.empty, []⟩ : Order))) ∧
  ((fun (s : State) (w : WarmF) (p : Fin 4) (k : BitVec 11) (c : Nat) (t1 : Nat) (n : Nat) (x : Order) => (Quiet s) ∧ (CutAt s p.val x k.toNat) ∧ (k.toNat = 0) ∧ (x.src = .bg c t1 n) ∧ (∀ q : Fin 4, q ≠ p → (panOf s q.val).run = none ∧ (panOf s q.val).yielded = none)) ({ State.reset with pan := { PanState.reset with pans := [(1, { Pan.empty with run := some (⟨.bg 2 5 3, [0x10, 0x44010004, 300, 0x800, 0x1000, 0x1800, 0x00010001, 1], Cap.root, 0, 0, 9, RedState.empty, []⟩ : Order), go := true })] }, sal := { SalState.reset with mem := putList [] 0x1000 (bytesOfNat 8 0x0000000700000005) } }) (.pin) (1) (0) (2) (5) (3) ((⟨.bg 2 5 3, [0x10, 0x44010004, 300, 0x800, 0x1000, 0x1800, 0x00010001, 1], Cap.root, 0, 0, 9, RedState.empty, []⟩ : Order))) ∧
  ((fun (s : State) (b : Bool) => (∀ i : Fin 4, slPair s i.val = 0 ∨ slPair s i.val = 4)) ((State.reset.wr rSH_PSTAT 0x44).setCore 4 { Core.reset 4 with pc := 8 }) (true)) ∧
  ((fun (s : State) (w : WarmH) => (s.qe.queues = [])) ({ State.reset with qe := { QeState.reset with linkUp := true, msix := [(3, 0)] } }) (.register)) ∧
  ((fun (s : State) (w : WarmH) (q : Nat) (x : Queue) => (s.qe.queues = [(q, x)])) ({ State.reset with qe := { QeState.reset with queues := [(3, { Queue.absent with st := 1, ty := 1 })] } }) (.pin) (3) ({ Queue.absent with st := 1, ty := 1 })) ∧
  ((fun (s : State)  => (frozen s qePg = true ∨ s.flag fQE_STAT_RESYNC = false ∨ slUp s = false ∨ s.sl.initF = true ∨ s.sl.initH = true ∨ (∃ w ∈ s.tj.writes, w.mark = false))) (State.reset.setFlag fQE_STAT_RESYNC true) ) :=
  ⟨by decide +kernel, by decide +kernel, by decide +kernel, by decide +kernel, by decide +kernel, by decide +kernel, by decide +kernel, by decide +kernel⟩
theorem test_met_Resets_3 :
  ((fun (s : State)  => (¬ (frozen s qePg = true ∨ s.flag fQE_STAT_RESYNC = false ∨ slUp s = false ∨ s.sl.initF = true ∨ s.sl.initH = true ∨ (∃ w ∈ s.tj.writes, w.mark = false))) ∧ (Through s) ∧ (s.qe.queues = []) ∧ (jOccupied s = [])) ({ (State.reset.setFlag fQE_STAT_RESYNC true).wr rSL_PSTAT 3 with sl := { SlState.reset with initF := false, initH := false } }) ) ∧
  ((fun (s : State)  => (s.qe.linkUp = true)) ({ State.reset with qe := { QeState.reset with linkUp := true } }) ) ∧
  ((fun (s : State)  => (s.qe.linkUp = false)) (State.reset) ) :=
  ⟨by decide +kernel, by decide +kernel, by decide +kernel⟩
theorem test_met_TimersAndChannels_1 :
  ((fun (s : State) (n : Fin 32) (k : BitVec 16) => (frozen s (gtPage n.val) = true ∨ k = 0 ∧ s.pwr.mode = .run ∨ storeGet false s.ev.gtClr n.val = false ∧ NoCapture s n.val ∧ (pageEn s (gtPage n.val) = false ∨ s.flag (fGTn_CTRL_RUN n.val) = false))) (State.reset) (3) (7)) ∧
  ((fun (s : State) (n : Fin 32) (k : BitVec 16) => (Counts s n.val) ∧ (OneStep s k) ∧ (s.fld (fGTn_RELOAD n.val) < s.fld (fGTn_COUNT n.val))) ((((((State.reset.setFlag (fPAGE_CTRL_EN (gtPage 3)) true).setFlag (fGTn_CTRL_RUN 3) true).setFld (fGTn_RELOAD 3) 99).setFld (fGTn_COUNT 3) 95).setFld (fGTn_COUNT 3) 100)) (3) (1)) ∧
  ((fun (s : State) (n : Fin 32) (k : BitVec 16) => (Counts s n.val) ∧ (s.flag (fGTn_CMPk_CTRL_EN n.val 0) = false) ∧ (s.flag (fGTn_CMPk_CTRL_EN n.val 1) = false) ∧ (s.fld (fGTn_COUNT n.val) ≤ s.fld (fGTn_RELOAD n.val))) ((((((State.reset.setFlag (fPAGE_CTRL_EN (gtPage 3)) true).setFlag (fGTn_CTRL_RUN 3) true).setFld (fGTn_RELOAD 3) 99).setFld (fGTn_COUNT 3) 95))) (3) (7)) ∧
  ((fun (s : State) (n : Fin 32) (k : BitVec 16) => (Counts s n.val) ∧ (OneStep s k) ∧ (s.fld (fGTn_COUNT n.val) ≤ s.fld (fGTn_RELOAD n.val)) ∧ (NotPassed s n.val 0 k.toNat) ∧ (NotPassed s n.val 1 k.toNat)) ((((((State.reset.setFlag (fPAGE_CTRL_EN (gtPage 3)) true).setFlag (fGTn_CTRL_RUN 3) true).setFld (fGTn_RELOAD 3) 99).setFld (fGTn_COUNT 3) 95).setFlag (fGTn_CMPk_CTRL_EN 3 0) true)) (3) (1)) ∧
  ((fun (s : State) (n : Fin 32) (i : Fin 2) (k : BitVec 16) => (Counts s n.val) ∧ (OneStep s k) ∧ (s.fld (fGTn_COUNT n.val) ≤ s.fld (fGTn_RELOAD n.val)) ∧ (Passed s n.val i.val k.toNat) ∧ (NotPassed s n.val (1 - i.val) k.toNat) ∧ (s.flag (fGTn_CMPk_CTRL_EVOUT n.val i.val) = false)) ((((((State.reset.setFlag (fPAGE_CTRL_EN (gtPage 3)) true).setFlag (fGTn_CTRL_RUN 3) true).setFld (fGTn_RELOAD 3) 99).setFld (fGTn_COUNT 3) 95).setFlag (fGTn_CMPk_CTRL_EN 3 0) true |>.setFld (fGTn_CMPk_VALUE 3 0) 96)) (3) (0) (1)) ∧
  ((fun (s : State) (n : Fin 32) (i : Fin 2) (k : BitVec 16) => (Counts s n.val) ∧ (OneStep s k) ∧ (s.fld (fGTn_COUNT n.val) ≤ s.fld (fGTn_RELOAD n.val)) ∧ (Passed s n.val i.val k.toNat) ∧ (NotPassed s n.val (1 - i.val) k.toNat) ∧ (s.flag (fGTn_CMPk_CTRL_EVOUT n.val i.val) = true) ∧ (s.ev.cfgOld = []) ∧ (s.ev.genOld = []) ∧ (s.ev.pulses = []) ∧ (natBit (s.rd (rEVc_CFG (s.fld (fGTn_CMPk_CTRL_EVOUTCH n.val i.val)))).toNat 31 = true) ∧ (s.flag (fEGg_CTRL_GEN (s.fld (fGTn_CMPk_CTRL_EVOUTCH n.val i.val) / 16)) = true) ∧ (s.flag (fEV_ROUTE_DEST (gtPage n.val)) = false)) ((((((State.reset.setFlag (fPAGE_CTRL_EN (gtPage 3)) true).setFlag (fGTn_CTRL_RUN 3) true).setFld (fGTn_RELOAD 3) 99).setFld (fGTn_COUNT 3) 95).setFlag (fGTn_CMPk_CTRL_EN 3 0) true |>.setFld (fGTn_CMPk_VALUE 3 0) 96 |>.setFlag (fGTn_CMPk_CTRL_EVOUT 3 0) true |>.setFld (fGTn_CMPk_CTRL_EVOUTCH 3 0) 37 |>.wr (rEVc_CFG 37) 0x81000000 |>.setFlag (fEGg_CTRL_GEN 2) true)) (3) (0) (1)) ∧
  ((fun (s : State) (n : Fin 32) (k : BitVec 16) => (frozen s (gtPage n.val) = false) ∧ (storeGet false s.ev.gtClr n.val = true) ∧ (NoCapture s n.val) ∧ (OneStep s k) ∧ (pageEn s (gtPage n.val) = false ∨ ∀ i : Fin 2, s.flag (fGTn_CMPk_CTRL_EN n.val i.val) = false ∨ s.fld (fGTn_CMPk_VALUE n.val i.val) ≠ 0)) ({ (((((State.reset.setFlag (fPAGE_CTRL_EN (gtPage 3)) true).setFlag (fGTn_CTRL_RUN 3) true).setFld (fGTn_RELOAD 3) 99).setFld (fGTn_COUNT 3) 95).setFlag (fGTn_CMPk_CTRL_EN 3 0) true |>.setFld (fGTn_CMPk_VALUE 3 0) 96) with ev := { EvState.reset with gtClr := [(3, true)] } }) (3) (1)) ∧
  ((fun (s : State) (n : Fin 32) (i : Fin 2) (k : BitVec 16) => (frozen s (gtPage n.val) = false) ∧ (storeGet false s.ev.gtClr n.val = true) ∧ (NoCapture s n.val) ∧ (OneStep s k) ∧ (pageEn s (gtPage n.val) = true) ∧ (s.flag (fGTn_CMPk_CTRL_EN n.val i.val) = true) ∧ (s.fld (fGTn_CMPk_VALUE n.val i.val) = 0) ∧ (s.flag (fGTn_CMPk_CTRL_EN n.val (1 - i.val)) = false) ∧ (s.flag (fGTn_CMPk_CTRL_EVOUT n.val i.val) = false) ∧ (s.flag (fEV_ROUTE_DEST (gtPage n.val)) = false)) ({ (((((State.reset.setFlag (fPAGE_CTRL_EN (gtPage 3)) true).setFlag (fGTn_CTRL_RUN 3) true).setFld (fGTn_RELOAD 3) 99).setFld (fGTn_COUNT 3) 95).setFlag (fGTn_CMPk_CTRL_EN 3 1) true |>.setFld (fGTn_CMPk_VALUE 3 1) 0) with ev := { EvState.reset with gtClr := [(3, true)] } }) (3) (1) (1)) :=
  ⟨by decide +kernel, by decide +kernel, by decide +kernel, by decide +kernel, by decide +kernel, by decide +kernel, by decide +kernel, by decide +kernel⟩
theorem test_met_TimersAndChannels_2 :
  ((fun (s : State) (n : Fin 32) (k : BitVec 16) => (frozen s (gtPage n.val) = false) ∧ (storeGet false s.ev.gtCap n.val = true) ∧ (storeGet false s.ev.gtClr n.val = false) ∧ (s.flag (fGTn_CTRL_RUN n.val) = false) ∧ (OneStep s k) ∧ (s.flag (fGTn_STAT_CAPF n.val) = false) ∧ (s.flag (fEV_ROUTE_DEST (gtPage n.val)) = false)) ({ (((((State.reset.setFlag (fPAGE_CTRL_EN (gtPage 3)) true).setFlag (fGTn_CTRL_RUN 3) true).setFld (fGTn_RELOAD 3) 99).setFld (fGTn_COUNT 3) 95)).setFlag (fGTn_CTRL_RUN 3) false with ev := { EvState.reset with gtCap := [(3, true)] } }) (3) (1)) ∧
  ((fun (s : State) (n : Fin 32) (i : Fin 2) (v : Word) => (¬ (s.flag (fGTn_CMPk_CTRL_EN n.val i.val) = true ∧ s.flag (fGTn_CMPk_CTRL_IMM n.val i.val) = true ∧ v.toNat ≤ s.fld (fGTn_RELOAD n.val) ∧ v.toNat ≤ s.fld (fGTn_COUNT n.val))) ∧ (¬ (s.flag (fGTn_CMPk_CTRL_EN n.val i.val) = true ∧ s.fld (fGTn_RELOAD n.val) < v.toNat))) ((((((State.reset.setFlag (fPAGE_CTRL_EN (gtPage 3)) true).setFlag (fGTn_CTRL_RUN 3) true).setFld (fGTn_RELOAD 3) 99).setFld (fGTn_COUNT 3) 95).setFlag (fGTn_CMPk_CTRL_EN 3 1) true |>.setFld (fGTn_CMPk_VALUE 3 1) 0)) (3) (1) (50)) ∧
  ((fun (s : State) (n : Fin 32) (i : Fin 2) (v : Word) => (s.flag (fGTn_CMPk_CTRL_EN n.val i.val) = true) ∧ (s.fld (fGTn_RELOAD n.val) < v.toNat)) ((((((State.reset.setFlag (fPAGE_CTRL_EN (gtPage 3)) true).setFlag (fGTn_CTRL_RUN 3) true).setFld (fGTn_RELOAD 3) 99).setFld (fGTn_COUNT 3) 95).setFlag (fGTn_CMPk_CTRL_EN 3 1) true |>.setFld (fGTn_CMPk_VALUE 3 1) 0)) (3) (1) (100)) ∧
  ((fun (s : State) (n : Fin 32) (i : Fin 2) (v : Word) => (s.flag (fGTn_CMPk_CTRL_EN n.val i.val) = true) ∧ (s.flag (fGTn_CMPk_CTRL_IMM n.val i.val) = true) ∧ (v.toNat ≤ s.fld (fGTn_RELOAD n.val)) ∧ (v.toNat ≤ s.fld (fGTn_COUNT n.val)) ∧ (¬ MatchesNow s n.val i.val)) ({ (((((State.reset.setFlag (fPAGE_CTRL_EN (gtPage 3)) true).setFlag (fGTn_CTRL_RUN 3) true).setFld (fGTn_RELOAD 3) 99).setFld (fGTn_COUNT 3) 95).setFlag (fGTn_CMPk_CTRL_EN 3 1) true |>.setFld (fGTn_CMPk_VALUE 3 1) 0 |>.setFlag (fGTn_CMPk_CTRL_IMM 3 1) true) with ev := { EvState.reset with gtCyc := [(7, 1)] } }) (3) (1) (95)) ∧
  ((fun (s : State) (n : Fin 32) (i : Fin 2) (v : Word) => (s.flag (fGTn_CMPk_CTRL_EN n.val i.val) = true) ∧ (s.flag (fGTn_CMPk_CTRL_IMM n.val i.val) = true) ∧ (v.toNat ≤ s.fld (fGTn_RELOAD n.val)) ∧ (v.toNat ≤ s.fld (fGTn_COUNT n.val)) ∧ (MatchesNow s n.val i.val) ∧ (s.flag (fGTn_CMPk_CTRL_EVOUT n.val i.val) = false)) ((((((State.reset.setFlag (fPAGE_CTRL_EN (gtPage 3)) true).setFlag (fGTn_CTRL_RUN 3) true).setFld (fGTn_RELOAD 3) 99).setFld (fGTn_COUNT 3) 95).setFlag (fGTn_CMPk_CTRL_EN 3 1) true |>.setFld (fGTn_CMPk_VALUE 3 1) 0 |>.setFlag (fGTn_CMPk_CTRL_IMM 3 1) true)) (3) (1) (95)) ∧
  ((fun (s : State) (n : Fin 32) (v : Word) => (s.flag (fGTn_CTRL_RUN n.val) = true)) ((((((State.reset.setFlag (fPAGE_CTRL_EN (gtPage 3)) true).setFlag (fGTn_CTRL_RUN 3) true).setFld (fGTn_RELOAD 3) 99).setFld (fGTn_COUNT 3) 95))) (3) (5)) ∧
  ((fun (s : State) (n : Fin 32) (v : Word) => (s.flag (fGTn_CTRL_RUN n.val) = false)) (State.reset) (3) (0xFFFFFFFF)) ∧
  ((fun (s : State) (n : Fin 32) (v : Word) => (s.flag (fGTn_CTRL_RUN n.val) = true)) ((((((State.reset.setFlag (fPAGE_CTRL_EN (gtPage 3)) true).setFlag (fGTn_CTRL_RUN 3) true).setFld (fGTn_RELOAD 3) 99).setFld (fGTn_COUNT 3) 95))) (3) (5)) :=
  ⟨by decide +kernel, by decide +kernel, by decide +kernel, by decide +kernel, by decide +kernel, by decide +kernel, by decide +kernel, by decide +kernel⟩
theorem test_met_TimersAndChannels_3 :
  ((fun (s : State) (n : Fin 32) (v : Word) => (s.flag (fGTn_CTRL_RUN n.val) = false)) (State.reset) (3) (0xFFFFFFFF)) ∧
  ((fun (s : State) (n : Fin 32) => (s.flag (fGTn_CTRL_RUN n.val) = true)) ((((((State.reset.setFlag (fPAGE_CTRL_EN (gtPage 3)) true).setFlag (fGTn_CTRL_RUN 3) true).setFld (fGTn_RELOAD 3) 99).setFld (fGTn_COUNT 3) 95))) (3)) ∧
  ((fun (s : State) (n : Fin 32) => (s.flag (fGTn_CTRL_RUN n.val) = false)) ((((((State.reset.setFlag (fPAGE_CTRL_EN (gtPage 3)) true).setFlag (fGTn_CTRL_RUN 3) true).setFld (fGTn_RELOAD 3) 99).setFld (fGTn_COUNT 3) 95).setFlag (fGTn_CMPk_CTRL_EN 3 1) true |>.setFld (fGTn_CMPk_VALUE 3 1) 100 |>.setFlag (fGTn_CTRL_RUN 3) false)) (3)) ∧
  ((fun (s : State) (g : Fin 16) (i : Fin 16) => (s.ev.cfgOld = []) ∧ (s.ev.genOld = []) ∧ (natBit (s.rd (rEVc_CFG (16 * g.val + i.val))).toNat 31 = false)) (State.reset) (2) (5)) ∧
  ((fun (s : State) (g : Fin 16) (i : Fin 16) => (s.ev.cfgOld = []) ∧ (s.ev.genOld = []) ∧ (natBit (s.rd (rEVc_CFG (16 * g.val + i.val))).toNat 31 = true) ∧ (s.flag (fEGg_CTRL_GEN g.val) = false)) (((State.reset.wr (rEVc_CFG 37) 0x81000000).setFlag (fEGg_CTRL_GEN 2) false)) (2) (5)) ∧
  ((fun (s : State) (g : Fin 16) (i : Fin 16) => (s.ev.cfgOld = []) ∧ (s.ev.genOld = []) ∧ (natBit (s.rd (rEVc_CFG (16 * g.val + i.val))).toNat 31 = true) ∧ (s.flag (fEGg_CTRL_GEN g.val) = true) ∧ ((∃ p ∈ s.ev.pulses, p.ch = 16 * g.val + i.val ∧ p.cyc = fcycOf s))) ({ ((State.reset.wr (rEVc_CFG 37) 0x81000000).setFlag (fEGg_CTRL_GEN 2) true) with ev := { EvState.reset with pulses := [⟨37, 0, 2, 5⟩] } }) (2) (5)) ∧
  ((fun (s : State) (g : Fin 16) (v : BitVec 16) => (s.ev.cfgOld = []) ∧ (s.ev.genOld = []) ∧ (s.ev.pulses = []) ∧ (s.flag (fEGg_CTRL_GEN g.val) = true) ∧ (∀ i : Fin 16, v.getLsbD i.val = false ∨ natBit (s.rd (rEVc_CFG (16 * g.val + i.val))).toNat 31 = true)) (((((State.reset.wr (rEVc_CFG 37) 0x81000000).setFlag (fEGg_CTRL_GEN 2) true)).wr (rEVc_CFG 47) 0xC1000000).wr64 rSL_FCYC 77) (2) (0x8020)) ∧
  ((fun (s : State) (ch : BitVec 8) => (frozen s (egPage (ch.toNat / 16)) = true ∨ (∀ p ∈ s.ev.pulses, p.ch ≠ ch.toNat))) (State.reset) (37)) :=
  ⟨by decide +kernel, by decide +kernel, by decide +kernel, by decide +kernel, by decide +kernel, by decide +kernel, by decide +kernel, by decide +kernel⟩
theorem test_met_TimersAndChannels_4 :
  ((fun (s : State) (ch : BitVec 8) (p : Pulse) => (Oldest s ch.toNat p) ∧ (NoTimer s p.ch) ∧ ((p.cfg &&& 0x0F808000) = 0)) ({ State.reset with ev := { EvState.reset with pulses := [⟨37, 0, 2, 0⟩] } }) (37) (⟨37, 0, 2, 0⟩)) ∧
  ((fun (s : State) (ch : BitVec 8) (p : Pulse) => (Oldest s ch.toNat p) ∧ (NoTimer s p.ch) ∧ ((p.cfg &&& 0x00808000) = 0) ∧ (∀ n : Fin 4, p.cfg.getLsbD (24 + n.val) = false ∨ (s.core n.val).wait = none)) ({ State.reset with ev := { EvState.reset with pulses := [⟨37, 0, 2, 0x05000000⟩] }, cores := [(2, { Core.reset 2 with status := 0x80000 })] }) (37) (⟨37, 0, 2, 0x05000000⟩)) ∧
  ((fun (s : State) (ch : BitVec 8) (p : Pulse) (n : Fin 4) (l : Option Nat) => (Oldest s ch.toNat p) ∧ (NoTimer s p.ch) ∧ (p.cfg &&& 0x0F808000 = BitVec.ofNat 32 (2 ^ (24 + n.val))) ∧ ((s.core n.val).wait = some (.evw l))) ({ State.reset with ev := { EvState.reset with pulses := [⟨37, 0, 2, 0x04000000⟩] }, cores := [(2, { Core.reset 2 with status := 0x80200, wait := some (.evw none) })] }) (37) (⟨37, 0, 2, 0x04000000⟩) (2) (none)) ∧
  ((fun (s : State) (ch : BitVec 8) (p : Pulse) => (Oldest s ch.toNat p) ∧ (NoTimer s p.ch) ∧ (p.cfg &&& 0x0F808000 = 0x00800000)) ({ State.reset with ev := { EvState.reset with pulses := [⟨37, 0, 2, 0x00C50000⟩] }, cores := [(2, { Core.reset 2 with ipend := 32 })] }) (37) (⟨37, 0, 2, 0x00C50000⟩)) ∧
  ((fun (s : State) (ch : BitVec 8) (p : Pulse) (n : Fin 32) => (Oldest s ch.toNat p) ∧ (p.cfg &&& 0x0F808000 = 0) ∧ (∀ m : Fin 32, m ≠ n → (s.flag (fGTn_EVIN_CAPEN m.val) = false ∨ s.fld (fGTn_EVIN_CAPCH m.val) ≠ p.ch) ∧ (s.flag (fGTn_EVIN_RSTEN m.val) = false ∨ s.fld (fGTn_EVIN_RSTCH m.val) ≠ p.ch)) ∧ (s.flag (fGTn_EVIN_CAPEN n.val) = true) ∧ (s.fld (fGTn_EVIN_CAPCH n.val) = p.ch) ∧ (s.flag (fGTn_EVIN_RSTEN n.val) = false ∨ s.fld (fGTn_EVIN_RSTCH n.val) ≠ p.ch) ∧ (s.flag (fEV_ROUTE_DEST (gtPage n.val)) = false) ∧ (s.flag (fGTn_STAT_CAPF n.val) = false)) ({ (State.reset.setFlag (fGTn_EVIN_CAPEN 3) true |>.setFld (fGTn_EVIN_CAPCH 3) 37 |>.setFld (fGTn_COUNT 3) 95) with ev := { EvState.reset with pulses := [⟨37, 0, 2, 0⟩] } }) (37) (⟨37, 0, 2, 0⟩) (3)) ∧
  ((fun (s : State) (ch : BitVec 8) (p : Pulse) (n : Fin 32) => (Oldest s ch.toNat p) ∧ (p.cfg &&& 0x0F808000 = 0) ∧ (∀ m : Fin 32, m ≠ n → (s.flag (fGTn_EVIN_CAPEN m.val) = false ∨ s.fld (fGTn_EVIN_CAPCH m.val) ≠ p.ch) ∧ (s.flag (fGTn_EVIN_RSTEN m.val) = false ∨ s.fld (fGTn_EVIN_RSTCH m.val) ≠ p.ch)) ∧ (s.flag (fGTn_EVIN_CAPEN n.val) = true) ∧ (s.fld (fGTn_EVIN_CAPCH n.val) = p.ch) ∧ (s.flag (fGTn_EVIN_RSTEN n.val) = false ∨ s.fld (fGTn_EVIN_RSTCH n.val) ≠ p.ch) ∧ (s.flag (fEV_ROUTE_DEST (gtPage n.val)) = false) ∧ (s.flag (fGTn_STAT_CAPF n.val) = true) ∧ (storeGet 0 s.ev.capCyc n.val ≠ fcycOf s + 1)) ({ (State.reset.setFlag (fGTn_EVIN_CAPEN 3) true |>.setFld (fGTn_EVIN_CAPCH 3) 37 |>.setFld (fGTn_COUNT 3) 95 |>.setFlag (fGTn_STAT_CAPF 3) true) with ev := { EvState.reset with pulses := [⟨37, 0, 2, 0⟩] } }) (37) (⟨37, 0, 2, 0⟩) (3)) ∧
  ((fun (s : State) (ch : BitVec 8) (p : Pulse) (n : Fin 32) => ((s.ev.pulses.find? fun x => x.ch == ch.toNat) = some p) ∧ (frozen s (egPage (ch.toNat / 16)) = false) ∧ (s.pwr.mode ≠ .run) ∧ (s.flag fPWR_WAKE_WAKEEN = false) ∧ (p.cfg &&& 0x0F808000 = 0) ∧ (∀ m : Fin 32, m ≠ n → (s.flag (fGTn_EVIN_CAPEN m.val) = false ∨ s.fld (fGTn_EVIN_CAPCH m.val) ≠ p.ch) ∧ (s.flag (fGTn_EVIN_RSTEN m.val) = false ∨ s.fld (fGTn_EVIN_RSTCH m.val) ≠ p.ch)) ∧ (s.flag (fGTn_EVIN_CAPEN n.val) = true) ∧ (s.fld (fGTn_EVIN_CAPCH n.val) = p.ch) ∧ (s.flag (fGTn_EVIN_RSTEN n.val) = false ∨ s.fld (fGTn_EVIN_RSTCH n.val) ≠ p.ch)) ({ (State.reset.setFlag (fGTn_EVIN_CAPEN 3) true |>.setFld (fGTn_EVIN_CAPCH 3) 37 |>.setFld (fGTn_COUNT 3) 95) with ev := { EvState.reset with pulses := [⟨37, 0, 2, 0⟩] }, pwr := { PwrState.reset with mode := .halt } }) (37) (⟨37, 0, 2, 0⟩) (3)) ∧
  ((fun (s : State) (ch : BitVec 8) (p : Pulse) (n : Fin 32) => (Oldest s ch.toNat p) ∧ (p.cfg &&& 0x0F808000 = 0) ∧ (∀ m : Fin 32, m ≠ n → (s.flag (fGTn_EVIN_CAPEN m.val) = false ∨ s.fld (fGTn_EVIN_CAPCH m.val) ≠ p.ch) ∧ (s.flag (fGTn_EVIN_RSTEN m.val) = false ∨ s.fld (fGTn_EVIN_RSTCH m.val) ≠ p.ch)) ∧ (s.flag (fGTn_EVIN_CAPEN n.val) = false ∨ s.fld (fGTn_EVIN_CAPCH n.val) ≠ p.ch) ∧ (s.flag (fGTn_EVIN_RSTEN n.val) = true) ∧ (s.fld (fGTn_EVIN_RSTCH n.val) = p.ch)) ({ (State.reset.setFlag (fGTn_EVIN_RSTEN 3) true |>.setFld (fGTn_EVIN_RSTCH 3) 37 |>.setFld (fGTn_COUNT 3) 95) with ev := { EvState.reset with pulses := [⟨37, 0, 2, 0⟩] } }) (37) (⟨37, 0, 2, 0⟩) (3)) :=
  ⟨by decide +kernel, by decide +kernel, by decide +kernel, by decide +kernel, by decide +kernel, by decide +kernel, by decide +kernel, by decide +kernel⟩
theorem test_met_TimersAndChannels_5 :
  ((fun (s : State) (ch : BitVec 8) (p : Pulse) => (Oldest s ch.toNat p) ∧ (NoTimer s p.ch) ∧ (p.cfg &&& 0x0F808000 = 0x00008000) ∧ (storeGet 0 s.ev.genWr (bitsGet p.cfg 8 4) ≠ fcycOf s + 1) ∧ (p.cfg.getLsbD 14 = false ∨ storeGet 0 s.ev.genOff (bitsGet p.cfg 8 4) ≠ fcycOf s + 1)) ({ State.reset with ev := { EvState.reset with pulses := [⟨37, 0, 2, 0x0000C500⟩] } }) (37) (⟨37, 0, 2, 0x0000C500⟩)) ∧
  ((fun (s : State) (ch : BitVec 8) (p : Pulse) => (Oldest s ch.toNat p) ∧ (NoTimer s p.ch) ∧ (p.cfg &&& 0x0F808000 = 0x00008000) ∧ (storeGet 0 s.ev.genWr (bitsGet p.cfg 8 4) = fcycOf s + 1)) ({ State.reset with ev := { EvState.reset with pulses := [⟨37, 0, 2, 0x0000C500⟩], genWr := [(5, 1)] } }) (37) (⟨37, 0, 2, 0x0000C500⟩)) ∧
  ((fun (s : State) (ch : BitVec 8) (p : Pulse) => ((s.ev.pulses.find? fun x => x.ch == ch.toNat) = some p) ∧ (frozen s (egPage (ch.toNat / 16)) = false) ∧ (s.pwr.mode ≠ .run) ∧ (s.flag fPWR_WAKE_WAKEEN = true) ∧ (s.fld fPWR_WAKE_WAKECH = p.ch) ∧ (NoTimer s p.ch) ∧ ((p.cfg &&& 0x0F808000) = 0)) ({ ((State.reset.setFlag fPWR_WAKE_WAKEEN true).setFld fPWR_WAKE_WAKECH 37) with ev := { EvState.reset with pulses := [⟨37, 0, 2, 0⟩] }, pwr := { PwrState.reset with mode := .halt } }) (37) (⟨37, 0, 2, 0⟩)) ∧
  ((fun (s : State) (ch : BitVec 8) (v : Word) => (lockHeld s (rEVc_CFG ch.toNat / 1024) = false)) ((State.reset.wr (rEVc_CFG 37) 0x81000000)) (37) (0xC1000001)) ∧
  ((fun (s : State) (ch : BitVec 8) (v : Word) => (lockHeld s (rEVc_CFG ch.toNat / 1024) = true)) ((State.reset.wr (rEVc_CFG 37) 0x81000000).setFlag (fPAGE_LOCK_LOCK 0x42) true) (37) (0xC1000001)) ∧
  ((fun (s : State) (g : Fin 16) (v : Word) => (lockHeld s (egPage g.val) = false) ∧ (storeGet 0 s.ev.genOld g.val / 2 ≠ fcycOf s + 1)) (State.reset) (5) (1)) ∧
  ((fun (s : State) (g : Fin 16) (v : Word) => (lockHeld s (egPage g.val) = false) ∧ (storeGet 0 s.ev.genOld g.val / 2 = fcycOf s + 1) ∧ (s.flag (fEV_ROUTE_DEST (egPage g.val)) = false)) ({ State.reset with ev := { EvState.reset with genOld := [(5, 2)] } }) (5) (1)) :=
  ⟨by decide +kernel, by decide +kernel, by decide +kernel, by decide +kernel, by decide +kernel, by decide +kernel, by decide +kernel⟩
theorem test_met_SluiceLink_1 :
  ((fun (s : State) (i : Fin 4) => (frozen s slPg = true ∨ slPair s i.val ≠ 0)) (State.reset.setFlag (fPAGE_CTRL_FREEZE slPg) true) (2)) ∧
  ((fun (s : State)  => (frozen s plPg = true ∨ plLane s ≠ 0)) (State.reset.setFlag (fPAGE_CTRL_FREEZE plPg) true) ) ∧
  ((fun (s : State) (i : Fin 4) => (¬ Rested s (pairFell s i.val))) ((({ State.reset with sl := { SlState.reset with fell := [(2, 7)] } }).wr64 rSL_FCYC 15365)) (2)) ∧
  ((fun (s : State)  => (¬ Rested s s.dup.fell)) ((({ State.reset with dup := { State.reset.dup with fell := 7 } }).wr64 rSL_FCYC 15365)) ) ∧
  ((fun (s : State) (i : Fin 4) => (frozen s slPg = false) ∧ (slPair s i.val = 0) ∧ (Rested s (pairFell s i.val))) (((State.reset.wr rSL_PSTAT 0x3033).wr rSH_PSTAT 0x3033)) (2)) ∧
  ((fun (s : State)  => (frozen s plPg = false) ∧ (plLane s = 0) ∧ (Rested s s.dup.fell)) (State.reset.setFld fPL_STAT_LANE 0) ) ∧
  ((fun (s : State) (i : Fin 4) => (frozen s slPg = true ∨ slPair s i.val ≠ 1)) (State.reset.setFlag (fPAGE_CTRL_FREEZE slPg) true) (2)) ∧
  ((fun (s : State)  => (frozen s plPg = true ∨ plLane s ≠ 1)) (State.reset.setFlag (fPAGE_CTRL_FREEZE plPg) true) ) :=
  ⟨by decide +kernel, by decide +kernel, by decide +kernel, by decide +kernel, by decide +kernel, by decide +kernel, by decide +kernel, by decide +kernel⟩
theorem test_met_SluiceLink_2 :
  ((fun (s : State) (i : Fin 4) => (frozen s slPg = false) ∧ (slPair s i.val = 1)) (((State.reset.wr rSL_PSTAT 0x3133).wr rSH_PSTAT 0x3133)) (2)) ∧
  ((fun (s : State)  => (frozen s plPg = false) ∧ (plLane s = 1)) (State.reset.setFld fPL_STAT_LANE 1) ) ∧
  ((fun (s : State) (i : Fin 4) (rf : BitVec 12) (rh : BitVec 12) => (frozen s slPg = true ∨ slPair s i.val ≠ 2)) (State.reset.setFlag (fPAGE_CTRL_FREEZE slPg) true) (2) (70) (80)) ∧
  ((fun (s : State) (rf : BitVec 12) (rh : BitVec 12) => (frozen s plPg = true ∨ plLane s ≠ 2)) (State.reset.setFlag (fPAGE_CTRL_FREEZE plPg) true) (70) (80)) ∧
  ((fun (s : State) (i : Fin 4) => (frozen s slPg = true ∨ slPair s i.val ≠ 3)) (State.reset.setFlag (fPAGE_CTRL_FREEZE slPg) true) (2)) ∧
  ((fun (s : State)  => (frozen s plPg = true ∨ plLane s ≠ 3)) (State.reset.setFlag (fPAGE_CTRL_FREEZE plPg) true) ) ∧
  ((fun (s : State)  => (frozen s plPg = false) ∧ (plLane s = 3)) (State.reset.setFld fPL_STAT_LANE 3) ) ∧
  ((fun (s : State) (i : Fin 4) => (frozen s slPg = true ∨ slPair s i.val ≠ 0)) (State.reset.setFlag (fPAGE_CTRL_FREEZE slPg) true) (2)) :=
  ⟨by decide +kernel, by decide +kernel, by decide +kernel, by decide +kernel, by decide +kernel, by decide +kernel, by decide +kernel, by decide +kernel⟩
theorem test_met_SluiceLink_3 :
  ((fun (s : State)  => (frozen s plPg = true ∨ plLane s ≠ 0)) (State.reset.setFlag (fPAGE_CTRL_FREEZE plPg) true) ) ∧
  ((fun (s : State) (i : Fin 4) => (pairFell s i.val = 0)) (State.reset) (2)) ∧
  ((fun (s : State)  => (s.dup.fell = 0)) (State.reset) ) ∧
  ((fun (s : State) (i : Fin 4) => (¬ Rested s (pairFell s i.val))) ((({ State.reset with sl := { SlState.reset with fell := [(2, 7)] } }).wr64 rSL_FCYC 15365)) (2)) ∧
  ((fun (s : State)  => (¬ Rested s s.dup.fell)) ((({ State.reset with dup := { State.reset.dup with fell := 7 } }).wr64 rSL_FCYC 15365)) ) ∧
  ((fun (s : State) (i : Fin 4) => (frozen s slPg = false) ∧ (slPair s i.val = 0) ∧ (pairFell s i.val ≠ 0) ∧ (Rested s (pairFell s i.val))) ((({ State.reset with sl := { SlState.reset with fell := [(2, 7)] } }).wr64 rSL_FCYC 15366)) (2)) ∧
  ((fun (s : State)  => (frozen s plPg = false) ∧ (plLane s = 0) ∧ (s.dup.fell ≠ 0) ∧ (Rested s s.dup.fell)) ((({ State.reset with dup := { State.reset.dup with fell := 7 } }).wr64 rSL_FCYC 15366)) ) ∧
  ((fun (s : State) (rf : BitVec 12) (rh : BitVec 12) => (frozen s plPg = false) ∧ (plLane s = 2)) (State.reset.setFld fPL_STAT_LANE 2) (399) (0)) :=
  ⟨by decide +kernel, by decide +kernel, by decide +kernel, by decide +kernel, by decide +kernel, by decide +kernel, by decide +kernel, by decide +kernel⟩
theorem test_met_SluiceLink_4 :
  ((fun (s : State) (i : Fin 4) (rf : BitVec 12) (rh : BitVec 12) => (frozen s slPg = false) ∧ (slPair s i.val = 2) ∧ (40 < ((rf.toNat + 1) / 2) ∨ 40 < ((rh.toNat + 1) / 2))) (((State.reset.wr rSL_PSTAT 0x200).wr rSH_PSTAT 0x200)) (2) (81) (10)) ∧
  ((fun (s : State) (i : Fin 4) (rf : BitVec 12) (rh : BitVec 12) => (frozen s slPg = false) ∧ (slPair s i.val = 2) ∧ (((rf.toNat + 1) / 2) ≤ 40 ∧ ((rh.toNat + 1) / 2) ≤ 40) ∧ (slUp s = true)) (((State.reset.wr rSL_PSTAT 0x230).wr rSH_PSTAT 0x230)) (2) (79) (80)) ∧
  ((fun (s : State) (i : Fin 4) (rf : BitVec 12) (rh : BitVec 12) => (frozen s slPg = false) ∧ (slPair s i.val = 2) ∧ (((rf.toNat + 1) / 2) ≤ 40 ∧ ((rh.toNat + 1) / 2) ≤ 40) ∧ (slUp s = false) ∧ (s.sl.evLost = 0) ∧ (s.sl.timeWait = none)) (((State.reset.wr rSL_PSTAT 0x200).wr rSH_PSTAT 0x200)) (2) (79) (80)) ∧
  ((fun (s : State) (i : Fin 4) (rf : BitVec 12) (rh : BitVec 12) => (frozen s slPg = false) ∧ (slPair s i.val = 2) ∧ (((rf.toNat + 1) / 2) ≤ 40 ∧ ((rh.toNat + 1) / 2) ≤ 40) ∧ (slUp s = false) ∧ (s.sl.evLost ≠ 0) ∧ (s.sl.timeWait = none)) ({ ((State.reset.wr rSL_PSTAT 0x200).wr rSH_PSTAT 0x200) with sl := { SlState.reset with evLost := 9 } }) (2) (79) (80)) ∧
  ((fun (s : State) (i : Fin 4) (rf : BitVec 12) (rh : BitVec 12) (f : Nat) => (frozen s slPg = false) ∧ (slPair s i.val = 2) ∧ (((rf.toNat + 1) / 2) ≤ 40 ∧ ((rh.toNat + 1) / 2) ≤ 40) ∧ (slUp s = false) ∧ (s.sl.evLost = 0) ∧ (s.sl.timeWait = some f) ∧ (fcycOf s ≤ f + 15360)) ({ ((State.reset.wr rSL_PSTAT 0x200).wr rSH_PSTAT 0x200).wr64 rSL_FCYC 99 with sl := { SlState.reset with timeWait := some 5 } }) (2) (79) (80) (5)) ∧
  ((fun (s : State) (i : Fin 4) => (frozen s slPg = false) ∧ (slPair s i.val = 3) ∧ (∃ j : Fin 4, j ≠ i ∧ slPair s j.val = 3)) (((State.reset.wr rSL_PSTAT 0x330).wr rSH_PSTAT 0x330)) (2)) ∧
  ((fun (s : State) (i : Fin 4) => (frozen s slPg = false) ∧ (slPair s i.val = 3) ∧ (∀ j : Fin 4, j ≠ i → slPair s j.val ≠ 3)) (((State.reset.wr rSL_PSTAT 0x300).wr rSH_PSTAT 0x300)) (2)) ∧
  ((fun (s : State) (dir : Bool) (p : Fin 4) (data : Bool) (ack : Option (Fin 8)) (ctl : Bool) (good : Bool) => (frozen s slPg = true ∨ (slPair s p.val ≠ 3 ∧ NoDebug s.sl.inF))) (State.reset) (true) (1) (true) (none) (true) (true)) :=
  ⟨by decide +kernel, by decide +kernel, by decide +kernel, by decide +kernel, by decide +kernel, by decide +kernel, by decide +kernel, by decide +kernel⟩
theorem test_met_SluiceLink_5 :
  ((fun (s : State) (dir : Bool) (p : Fin 4) (ack : Option (Fin 8)) (ctl : Bool) (good : Bool) => (frozen s slPg = false) ∧ (slPair s p.val = 3) ∧ (NoDebug s.sl.inF) ∧ ((ctl && good) = false)) (((State.reset.wr rSL_PSTAT 0x30).wr rSH_PSTAT 0x30)) (true) (1) (none) (true) (false)) ∧
  ((fun (s : State) (dir : Bool) (p : Fin 4) => (frozen s slPg = false) ∧ (slPair s p.val = 3) ∧ (NoDebug s.sl.inF)) (((State.reset.wr rSL_PSTAT 0x30).wr rSH_PSTAT 0x30)) (true) (1)) ∧
  ((fun (s : State) (dir : Bool) (p : Fin 4) (ack : Option (Fin 8)) (ctl : Bool) (good : Bool) => (frozen s slPg = false) ∧ (slPair s p.val = 3) ∧ (NoDebug s.sl.inF) ∧ ((ctl && good) = false) ∧ (laneFly s dir p = none)) (((State.reset.wr rSL_PSTAT 0x30).wr rSH_PSTAT 0x30)) (true) (1) (some 3) (false) (true)) ∧
  ((fun (s : State) (dir : Bool) (p : Fin 4) (cls : Fin 8) (c : SlCell) (ctl : Bool) (good : Bool) => (frozen s slPg = false) ∧ (slPair s p.val = 3) ∧ (NoDebug s.sl.inF) ∧ ((ctl && good) = false) ∧ (OnLane s dir p cls c)) ({ ((State.reset.wr rSL_PSTAT 0x30).wr rSH_PSTAT 0x30) with sl := { SlState.reset with tx := [(18, ⟨6, [⟨5, 0, 1, .notice 77⟩]⟩)], rx := [(18, ⟨5, []⟩)], lanes := { SlLanes.reset with fly := [(5, some (18, ⟨5, 0, 1, .notice 77⟩))], sent := [(18, 1)] } } }) (true) (1) (2) (⟨5, 0, 1, .notice 77⟩) (true) (false)) ∧
  ((fun (s : State) (dir : Bool) (p : Fin 4) (cls : Fin 8) (c : SlCell) => (frozen s slPg = false) ∧ (slPair s p.val = 3) ∧ (NoDebug s.sl.inF) ∧ (OnLane s dir p cls c) ∧ (ahead s dir cls c = 0) ∧ ((slRxOf s (keyOf dir cls)).held = []) ∧ (NoDebug (inboxF dir c s.sl.inF))) ({ ((State.reset.wr rSL_PSTAT 0x30).wr rSH_PSTAT 0x30) with sl := { SlState.reset with tx := [(18, ⟨6, [⟨65535, 0, 1, .notice 77⟩]⟩)], rx := [(18, ⟨65535, []⟩)], lanes := { SlLanes.reset with fly := [(5, some (18, ⟨65535, 0, 1, .notice 77⟩))], sent := [(18, 1)] } } }) (true) (1) (2) (⟨65535, 0, 1, .notice 77⟩)) ∧
  ((fun (s : State) (dir : Bool) (p : Fin 4) (cls : Fin 8) (c : SlCell) (h : SlCell) => (frozen s slPg = false) ∧ (slPair s p.val = 3) ∧ (NoDebug s.sl.inF) ∧ (OnLane s dir p cls c) ∧ (ahead s dir cls c = 0) ∧ ((slRxOf s (keyOf dir cls)).held = [h]) ∧ (h.seq = ((slRxOf s (keyOf dir cls)).exp + 1) % 65536) ∧ (NoDebug (inboxF dir h (inboxF dir c s.sl.inF)))) ({ ((State.reset.wr rSL_PSTAT 0x30).wr rSH_PSTAT 0x30) with sl := { SlState.reset with tx := [(18, ⟨6, [⟨5, 0, 1, .notice 77⟩]⟩)], rx := [(18, ⟨5, [⟨6, 0, 1, .notice 77⟩]⟩)], lanes := { SlLanes.reset with fly := [(5, some (18, ⟨5, 0, 1, .notice 77⟩))], sent := [(18, 1)] } } }) (true) (1) (2) (⟨5, 0, 1, .notice 77⟩) (⟨6, 0, 1, .notice 77⟩)) ∧
  ((fun (s : State) (dir : Bool) (p : Fin 4) (cls : Fin 8) (c : SlCell) => (frozen s slPg = false) ∧ (slPair s p.val = 3) ∧ (NoDebug s.sl.inF) ∧ (OnLane s dir p cls c) ∧ (ahead s dir cls c ≠ 0) ∧ (ahead s dir cls c < 64) ∧ (∀ h ∈ (slRxOf s (keyOf dir cls)).held, h.seq ≠ c.seq)) ({ ((State.reset.wr rSL_PSTAT 0x30).wr rSH_PSTAT 0x30) with sl := { SlState.reset with tx := [(18, ⟨8, [⟨7, 0, 1, .notice 77⟩]⟩)], rx := [(18, ⟨5, [⟨6, 0, 1, .notice 77⟩]⟩)], lanes := { SlLanes.reset with fly := [(5, some (18, ⟨7, 0, 1, .notice 77⟩))], sent := [(18, 1)] } } }) (true) (1) (2) (⟨7, 0, 1, .notice 77⟩)) ∧
  ((fun (s : State) (dir : Bool) (p : Fin 4) (cls : Fin 8) (c : SlCell) => (frozen s slPg = false) ∧ (slPair s p.val = 3) ∧ (NoDebug s.sl.inF) ∧ (OnLane s dir p cls c) ∧ (64 ≤ ahead s dir cls c ∨ (ahead s dir cls c ≠ 0 ∧ ∃ h ∈ (slRxOf s (keyOf dir cls)).held, h.seq = c.seq)) ∧ (dir = true)) ({ ((State.reset.wr rSL_PSTAT 0x30).wr rSH_PSTAT 0x30) with sl := { SlState.reset with tx := [(18, ⟨8, [⟨4, 0, 1, .notice 77⟩]⟩)], rx := [(18, ⟨5, []⟩)], lanes := { SlLanes.reset with fly := [(5, some (18, ⟨4, 0, 1, .notice 77⟩))], sent := [(18, 1)] } } }) (true) (1) (2) (⟨4, 0, 1, .notice 77⟩)) :=
  ⟨by decide +kernel, by decide +kernel, by decide +kernel, by decide +kernel, by decide +kernel, by decide +kernel, by decide +kernel, by decide +kernel⟩
theorem test_met_SluiceLink_6 :
  ((fun (s : State) (dir : Bool) (p : Fin 4) (cls : Fin 8) (c : SlCell) => (frozen s slPg = false) ∧ (slPair s p.val = 3) ∧ (NoDebug s.sl.inF) ∧ (OnLane s dir p cls c) ∧ (64 ≤ ahead s dir cls c ∨ (ahead s dir cls c ≠ 0 ∧ ∃ h ∈ (slRxOf s (keyOf dir cls)).held, h.seq = c.seq)) ∧ (dir = false)) ({ ((State.reset.wr rSL_PSTAT 0x30).wr rSH_PSTAT 0x30) with sl := { SlState.reset with tx := [(2, ⟨8, [⟨4, 0, 1, .notice 77⟩]⟩)], rx := [(2, ⟨5, []⟩)], lanes := { SlLanes.reset with fly := [(1, some (2, ⟨4, 0, 1, .notice 77⟩))], sent := [(2, 1)] } } }) (false) (1) (2) (⟨4, 0, 1, .notice 77⟩)) ∧
  ((fun (s : State) (dir : Bool) (p : Fin 4) (cls : Fin 8) => (frozen s slPg = false) ∧ (slPair s p.val = 3) ∧ (NoDebug s.sl.inF)) ({ ((State.reset.wr rSL_PSTAT 0x30).wr rSH_PSTAT 0x30) with sl := { SlState.reset with tx := [(18, ⟨7, [⟨4, 0, 1, .notice 77⟩, ⟨5, 0, 1, .notice 77⟩, ⟨6, 0, 1, .notice 77⟩]⟩)], rx := [(18, ⟨5, []⟩)], lanes := { SlLanes.reset with fly := [(5, none)], sent := [(18, 1)] } } }) (false) (1) (2)) ∧
  ((fun (s : State) (dir : Bool) (p : Fin 4) (cls : Fin 8) => (frozen s slPg = false) ∧ (slPair s p.val = 3) ∧ (NoDebug s.sl.inF) ∧ (laneFly s dir p = none)) ({ ((State.reset.wr rSL_PSTAT 0x30).wr rSH_PSTAT 0x30) with sl := { SlState.reset with tx := [(18, ⟨7, [⟨4, 0, 1, .notice 77⟩, ⟨5, 0, 1, .notice 77⟩, ⟨6, 0, 1, .notice 77⟩]⟩)], rx := [(18, ⟨5, []⟩)], lanes := { SlLanes.reset with fly := [(5, none)], sent := [(18, 1)] } } }) (false) (1) (2)) ∧
  ((fun (s : State) (dir : Bool) (p : Fin 4) (ctl : Bool) (good : Bool) (c : SlCell) => (frozen s slPg = false) ∧ (slPair s p.val = 3) ∧ (NoDebug s.sl.inF) ∧ ((ctl && good) = false) ∧ (OneLane s p) ∧ (laneFly s dir p ≠ none) ∧ (FirstCell s dir 6 c)) ({ ((State.reset.wr rSL_PSTAT 0x30).wr rSH_PSTAT 0x30) with sl := { SlState.reset with tx := [(3, ⟨6, [⟨5, 0, 1, .notice 77⟩]⟩), (6, ⟨9, [⟨8, 0, 1, .notice 77⟩]⟩)], lanes := { SlLanes.reset with fly := [(1, some (4, ⟨9, 0, 1, .notice 77⟩))] } } }) (false) (1) (true) (false) (⟨8, 0, 1, .notice 77⟩)) ∧
  ((fun (s : State) (dir : Bool) (p : Fin 4) (ctl : Bool) (good : Bool) (c : SlCell) => (frozen s slPg = false) ∧ (slPair s p.val = 3) ∧ (NoDebug s.sl.inF) ∧ ((ctl && good) = false) ∧ (OneLane s p) ∧ (laneFly s dir p ≠ none) ∧ (NoCell s dir 6) ∧ (NoCell s dir 0) ∧ (NoCell s dir 1) ∧ (NoCell s dir 2) ∧ (FirstCell s dir 3 c)) ({ ((State.reset.wr rSL_PSTAT 0x30).wr rSH_PSTAT 0x30) with sl := { SlState.reset with tx := [(3, ⟨6, [⟨5, 0, 1, .notice 77⟩]⟩), (7, ⟨9, [⟨8, 0, 1, .notice 77⟩]⟩)], lanes := { SlLanes.reset with fly := [(1, some (4, ⟨9, 0, 1, .notice 77⟩))] } } }) (false) (1) (true) (false) (⟨5, 0, 1, .notice 77⟩)) ∧
  ((fun (s : State) (dir : Bool) (p : Fin 4) (ctl : Bool) (good : Bool) (c : SlCell) => (frozen s slPg = false) ∧ (slPair s p.val = 3) ∧ (NoDebug s.sl.inF) ∧ ((ctl && good) = false) ∧ (OneLane s p) ∧ (laneFly s dir p ≠ none) ∧ (NoCell s dir 6) ∧ (NoCell s dir 0) ∧ (NoCell s dir 1) ∧ (NoCell s dir 2) ∧ (NoCell s dir 3) ∧ (NoCell s dir 4) ∧ (NoCell s dir 5) ∧ (FirstCell s dir 7 c)) ({ ((State.reset.wr rSL_PSTAT 0x30).wr rSH_PSTAT 0x30) with sl := { SlState.reset with tx := [(7, ⟨9, [⟨8, 0, 1, .notice 77⟩]⟩)], lanes := { SlLanes.reset with fly := [(1, some (4, ⟨9, 0, 1, .notice 77⟩))] } } }) (false) (1) (true) (false) (⟨8, 0, 1, .notice 77⟩)) ∧
  ((fun (s : State) (dir : Bool) (p : Fin 4) (ctl : Bool) (good : Bool) (c : SlCell) (b : SlCell) => (frozen s slPg = false) ∧ (slPair s p.val = 3) ∧ (NoDebug s.sl.inF) ∧ ((ctl && good) = false) ∧ (OneLane s p) ∧ (laneFly s dir p ≠ none) ∧ (NoCell s dir 6) ∧ (NoCell s dir 2) ∧ (NoCell s dir 3) ∧ (FirstCell s dir 0 b) ∧ (FirstCell s dir 1 c) ∧ (storeGet 8 s.sl.lanes.rot ((if dir then 8 else 0) + 1) = 0)) (({ { ((State.reset.wr rSL_PSTAT 0x30).wr rSH_PSTAT 0x30) with sl := { SlState.reset with tx := [(0, ⟨6, [⟨5, 0, 1, .notice 77⟩]⟩), (1, ⟨9, [⟨8, 0, 1, .notice 77⟩]⟩)], lanes := { SlLanes.reset with fly := [(1, some (4, ⟨9, 0, 1, .notice 77⟩))] } } } with sl := { ({ ((State.reset.wr rSL_PSTAT 0x30).wr rSH_PSTAT 0x30) with sl := { SlState.reset with tx := [(0, ⟨6, [⟨5, 0, 1, .notice 77⟩]⟩), (1, ⟨9, [⟨8, 0, 1, .notice 77⟩]⟩)], lanes := { SlLanes.reset with fly := [(1, some (4, ⟨9, 0, 1, .notice 77⟩))] } } }).sl with lanes := { ({ ((State.reset.wr rSL_PSTAT 0x30).wr rSH_PSTAT 0x30) with sl := { SlState.reset with tx := [(0, ⟨6, [⟨5, 0, 1, .notice 77⟩]⟩), (1, ⟨9, [⟨8, 0, 1, .notice 77⟩]⟩)], lanes := { SlLanes.reset with fly := [(1, some (4, ⟨9, 0, 1, .notice 77⟩))] } } }).sl.lanes with rot := [(1, 0)] } } })) (false) (1) (true) (false) (⟨8, 0, 1, .notice 77⟩) (⟨5, 0, 1, .notice 77⟩)) ∧
  ((fun (s : State) (dir : Bool) (cls : Fin 8) => (frozen s slPg = true ∨ slUp s = false)) (State.reset) (true) (2)) :=
  ⟨by decide +kernel, by decide +kernel, by decide +kernel, by decide +kernel, by decide +kernel, by decide +kernel, by decide +kernel, by decide +kernel⟩
theorem test_met_SluiceLink_7 :
  ((fun (s : State) (dir : Bool) (cls : Fin 8) => (frozen s slPg = false) ∧ (slUp s = true)) ({ ((State.reset.wr rSL_PSTAT 0x30).wr rSH_PSTAT 0x30) with sl := { SlState.reset with tx := [(18, ⟨7, [⟨4, 0, 1, .notice 77⟩, ⟨5, 0, 1, .notice 77⟩, ⟨6, 0, 1, .notice 77⟩]⟩)], rx := [(18, ⟨5, []⟩)], lanes := { SlLanes.reset with fly := [(5, none)], sent := [(18, 1)] } } }) (true) (2)) ∧
  ((fun (s : State)  => (¬ Acts s 0 1)) (State.reset) ) ∧
  ((fun (s : State)  => (¬ Acts s 1 1)) (State.reset) ) ∧
  ((fun (s : State)  => (Acts s 0 1)) ({ ((State.reset.wr rSL_PSTAT 0x30).wr rSH_PSTAT 0x30) with sl := { SlState.reset with tx := [(3, ⟨7, [⟨4, 0, 1, .notice 77⟩, ⟨5, 0, 1, .notice 77⟩]⟩)] } }) ) ∧
  ((fun (s : State)  => (Acts s 1 1) ∧ (s.qe.queues = []) ∧ (s.sl.inF = [])) ({ ((State.reset.wr rSL_PSTAT 0x30).wr rSH_PSTAT 0x30) with sl := { SlState.reset with tx := [(3, ⟨7, [⟨4, 0, 1, .notice 77⟩, ⟨5, 0, 1, .notice 77⟩]⟩)] } }) ) ∧
  ((fun (s : State)  => (¬ Acts s 1 2)) (State.reset) ) ∧
  ((fun (s : State)  => (Acts s 1 2)) ({ ((State.reset.wr rSL_PSTAT 0x30).wr rSH_PSTAT 0x30) with sl := { SlState.reset with initF := true, initH := true } }) ) ∧
  ((fun (s : State)  => (¬ Acts s 0 2)) (State.reset) ) :=
  ⟨by decide +kernel, by decide +kernel, by decide +kernel, by decide +kernel, by decide +kernel, by decide +kernel, by decide +kernel, by decide +kernel⟩
theorem test_met_SluiceLink_8 :
  ((fun (s : State)  => (Acts s 0 2)) ({ ((State.reset.wr rSL_PSTAT 0x30).wr rSH_PSTAT 0x30) with sl := { SlState.reset with initF := true, initH := true } }) ) ∧
  ((fun (s : State)  => (¬ Acts s 0 3)) (State.reset) ) ∧
  ((fun (s : State)  => (Acts s 0 3)) (((State.reset.wr rSL_PSTAT 0x30).wr rSH_PSTAT 0x30).wr64 rSL_FCYC 9999) ) ∧
  ((fun (s : State)  => (¬ Acts s 0 4)) (State.reset) ) ∧
  ((fun (s : State)  => (Acts s 0 4)) (((State.reset.wr rSL_PSTAT 0x30).wr rSH_PSTAT 0x30).wr64 rSL_FCYC 9999) ) ∧
  ((fun (s : State) (v : BitVec 4) => (lockHeld s slPg = true) ∧ (v.toNat ≠ s.fld fSL_CTRL_PAIRDIS)) (State.reset.setFlag (fPAGE_LOCK_LOCK slPg) true) (5)) ∧
  ((fun (s : State) (v : BitVec 4) => (lockHeld s slPg = false ∨ v.toNat = s.fld fSL_CTRL_PAIRDIS)) (((State.reset.wr rSL_PSTAT 0x4330).wr rSH_PSTAT 0x4330)) (6)) :=
  ⟨by decide +kernel, by decide +kernel, by decide +kernel, by decide +kernel, by decide +kernel, by decide +kernel, by decide +kernel⟩
theorem test_met_MessagesAndTime_1 :
  ((fun (s : State)  => (frozen s slPg = true ∨ s.flag fSL_CTRL_TELEN = false ∨ s.fld fSL_TELLEN = 0)) (State.reset.setFlag (fPAGE_CTRL_FREEZE slPg) true) ) ∧
  ((fun (s : State)  => (frozen s slPg = false) ∧ (s.flag fSL_CTRL_TELEN = true) ∧ (s.fld fSL_TELLEN ≠ 0) ∧ (TelSending s)) ({ (State.reset.setFlag fSL_CTRL_TELEN true |>.setFld fSL_TELLEN 3 |>.setFld fSL_TELBASE 64) with sl := { SlState.reset with tx := [(4, ⟨1, [⟨0, 0, 1, .tel 1 2 []⟩]⟩)] } }) ) ∧
  ((fun (s : State)  => (frozen s slPg = false) ∧ (s.flag fSL_CTRL_TELEN = true) ∧ (s.fld fSL_TELLEN ≠ 0) ∧ (s.fld fSL_TELLEN ≤ 32) ∧ (¬ TelSending s) ∧ ((s.fld fSL_TELBASE * 64) + (64 * s.fld fSL_TELLEN) ≤ salSize) ∧ (Clean s)) ({ (State.reset.setFlag fSL_CTRL_TELEN true |>.setFld fSL_TELLEN 3 |>.setFld fSL_TELBASE 64) with sal := { SalState.reset with mem := putList [] 0x1000 (bytesOfNat 32 0x1112131415161718191A1B1C1D1E1F20212223) } }) ) ∧
  ((fun (s : State)  => (frozen s slPg = false) ∧ (s.flag fSL_CTRL_TELEN = true) ∧ (s.fld fSL_TELLEN ≠ 0) ∧ (s.fld fSL_TELLEN ≤ 32) ∧ (¬ TelSending s) ∧ ((s.fld fSL_TELBASE * 64) + (64 * s.fld fSL_TELLEN) ≤ salSize) ∧ (salBad s (s.fld fSL_TELBASE * 64) (64 * s.fld fSL_TELLEN) = true)) ({ (State.reset.setFlag fSL_CTRL_TELEN true |>.setFld fSL_TELLEN 3 |>.setFld fSL_TELBASE 64) with sal := { SalState.reset with mem := putList [] 0x1000 (bytesOfNat 32 0x1112131415161718191A1B1C1D1E1F20212223), err := [(0x1003, .ue)] } }) ) ∧
  ((fun (s : State)  => (frozen s slPg = false) ∧ (s.flag fSL_CTRL_TELEN = true) ∧ (s.fld fSL_TELLEN ≠ 0) ∧ (32 < s.fld fSL_TELLEN) ∧ (¬ TelSending s) ∧ ((s.fld fSL_TELBASE * 64) + 2048 ≤ salSize) ∧ (Clean s)) ({ ((State.reset.setFlag fSL_CTRL_TELEN true |>.setFld fSL_TELLEN 3 |>.setFld fSL_TELBASE 64) |>.setFld fSL_TELLEN 40) with sal := { SalState.reset with mem := putList [] 0x1000 (bytesOfNat 32 0x1112131415161718191A1B1C1D1E1F20212223) } }) ) ∧
  ((fun (s : State)  => (frozen s shPg = true)) (State.reset.setFlag (fPAGE_CTRL_FREEZE shPg) true) ) ∧
  ((fun (s : State)  => (slUp s = false) ∧ (∀ m ∈ s.sl.inH, m.cls ≠ 4)) (State.reset) ) ∧
  ((fun (s : State) (a : Nat) (k : Nat) (b : List Byte) => (frozen s shPg = false) ∧ (FirstH s 4 (.tel a k b))) ({ State.reset with sl := { SlState.reset with inH := [.notice 3, .tel 5 6 [7, 8], .tel 9 9 []] } }) (5) (6) ([7, 8])) :=
  ⟨by decide +kernel, by decide +kernel, by decide +kernel, by decide +kernel, by decide +kernel, by decide +kernel, by decide +kernel, by decide +kernel⟩
theorem test_met_MessagesAndTime_2 :
  ((fun (s : State) (a : Nat) (k : Nat) (b : List Byte) => (frozen s shPg = false) ∧ (∀ m ∈ s.sl.inH, m.cls ≠ 4) ∧ (Crossing s 4 (.tel a k b))) ({ ((State.reset.wr rSL_PSTAT 0x30).wr rSH_PSTAT 0x30) with sl := { SlState.reset with tx := [(4, ⟨0, [⟨65535, 0, 1, .tel 5 6 [7]⟩]⟩)], rx := [(4, ⟨65535, []⟩)] } }) (5) (6) ([7])) ∧
  ((fun (s : State)  => (frozen s slPg = true ∨ (slUp s = false ∧ ∀ m ∈ s.sl.inF, m.cls ≠ 5))) (State.reset) ) ∧
  ((fun (s : State) (b : List Byte) => (frozen s slPg = false) ∧ (FirstF s 5 (.harvest b)) ∧ (s.flag fSL_CTRL_HRVEN = true) ∧ ((s.fld fSL_HRVBASE * 128 + 64 * (numAt b 0 4 % 2)) + b.length ≤ salSize)) ({ State.reset.setFlag fSL_CTRL_HRVEN true |>.setFld fSL_HRVBASE 64 with sl := { SlState.reset with inF := [.notice 3, .harvest (bytesOfNat 64 0x12345)] } }) (bytesOfNat 64 0x12345)) ∧
  ((fun (s : State) (b : List Byte) => (frozen s slPg = false) ∧ (FirstF s 5 (.harvest b)) ∧ (s.flag fSL_CTRL_HRVEN = false)) ({ State.reset.setFlag fSL_CTRL_HRVEN false |>.setFld fSL_HRVBASE 64 with sl := { SlState.reset with inF := [.notice 3, .harvest (bytesOfNat 64 0x12345)] } }) (bytesOfNat 64 0x12345)) ∧
  ((fun (s : State)  => (frozen s slPg = true ∨ pageEn s tbPg = false)) (State.reset) ) ∧
  ((fun (s : State)  => (frozen s slPg = false) ∧ (pageEn s tbPg = true) ∧ (slUp s = true)) (((State.reset.wr rSL_PSTAT 0x30).wr rSH_PSTAT 0x30).setFlag (fPAGE_CTRL_EN tbPg) true) ) ∧
  ((fun (s : State)  => (frozen s slPg = false) ∧ (pageEn s tbPg = true) ∧ (slUp s = false)) (State.reset.setFlag (fPAGE_CTRL_EN tbPg) true) ) ∧
  ((fun (s : State)  => (frozen s slPg = true)) (State.reset.setFlag (fPAGE_CTRL_FREEZE slPg) true) ) :=
  ⟨by decide +kernel, by decide +kernel, by decide +kernel, by decide +kernel, by decide +kernel, by decide +kernel, by decide +kernel, by decide +kernel⟩
theorem test_met_MessagesAndTime_3 :
  ((fun (s : State)  => (frozen s slPg = false)) ({ State.reset with sl := { SlState.reset with timeWait := some 4 } }) ) ∧
  ((fun (s : State)  => (frozen s shPg = true ∨ (slUp s = false ∧ ∀ m ∈ s.sl.inH, m.cls ≠ 6))) (State.reset) ) ∧
  ((fun (s : State) (f : Nat) (a : Nat) (k : Nat) (r : Nat) (n : Nat) (st : Nat) => (frozen s shPg = false) ∧ (FirstH s 6 (.timeF f a k r n st)) ∧ (s.flag fPT_CTRL_TFEN = false ∨ slUp s = false)) ({ State.reset.wr64 rSL_FCYC 1200 with sl := { SlState.reset with inH := [.notice 3, .timeF 1000 5000 7 4000000000 20000 3] }, fab := { FabState.reset with time := 192 * 2 ^ 32 * 5000, stamps := [(100, 60)] } }) (1000) (5000) (7) (4000000000) (20000) (3)) ∧
  ((fun (s : State) (f : Nat) (a : Nat) (k : Nat) (r : Nat) (n : Nat) (st : Nat) => (frozen s shPg = false) ∧ (FirstH s 6 (.timeF f a k r n st)) ∧ (s.flag fPT_CTRL_TFEN = true) ∧ (slUp s = true)) ({ ((State.reset.wr rSL_PSTAT 0x30).wr rSH_PSTAT 0x30).wr64 rSL_FCYC 1200 |>.setFlag fPT_CTRL_TFEN true |>.setFlag fPT_SERVO_LOCKED true |>.wr64 rTF_RATE 9999 |>.setFld fTF_LEAD 300 with sl := { SlState.reset with inH := [.notice 3, .timeF 1000 5000 7 4000000000 20000 3] }, fab := { FabState.reset with time := 192 * 2 ^ 32 * 5000, stamps := [(100, 60)] } }) (1000) (5000) (7) (4000000000) (20000) (3)) ∧
  ((fun (s : State) (m : Fin 2) => (frozen s (ethPg m.val) = true ∨ (s.fld (fETHm_CTRL_MODE m.val) ≠ 1 ∧ s.fld (fETHm_CTRL_MODE m.val) ≠ 2))) (State.reset) (1)) ∧
  ((fun (s : State) (m : Fin 2) => (frozen s (ethPg m.val) = false) ∧ (s.fld (fETHm_CTRL_MODE m.val) = 1 ∨ s.fld (fETHm_CTRL_MODE m.val) = 2) ∧ (s.flag (fETHm_STAT_LINK m.val) = false)) ((State.reset.setFld (fETHm_CTRL_MODE 1) 2)) (1)) ∧
  ((fun (s : State) (m : Fin 2) => (frozen s (ethPg m.val) = false) ∧ (s.fld (fETHm_CTRL_MODE m.val) = 1 ∨ s.fld (fETHm_CTRL_MODE m.val) = 2) ∧ (s.flag (fETHm_STAT_LINK m.val) = true)) ((State.reset.setFld (fETHm_CTRL_MODE 1) 2 |>.setFlag (fETHm_STAT_LINK 1) true)) (1)) ∧
  ((fun (s : State) (m : Fin 2) => (frozen s (ethPg m.val) = true ∨ s.flag (fETHm_STAT_LINK m.val) = false)) (State.reset) (1)) :=
  ⟨by decide +kernel, by decide +kernel, by decide +kernel, by decide +kernel, by decide +kernel, by decide +kernel, by decide +kernel, by decide +kernel⟩
theorem test_met_MessagesAndTime_4 :
  ((fun (s : State) (m : Fin 2) => (frozen s (ethPg m.val) = false) ∧ (s.flag (fETHm_STAT_LINK m.val) = true)) ((State.reset.setFld (fETHm_CTRL_MODE 1) 2 |>.setFlag (fETHm_STAT_LINK 1) true)) (1)) ∧
  ((fun (s : State) (m : Fin 2) (k : EthKind) (len : BitVec 16) (ok : Bool) => (frozen s (ethPg m.val) = true ∨ ¬ PortOn s m.val)) (State.reset) (1) (.ptp) (64) (true)) ∧
  ((fun (s : State) (m : Fin 2) (k : EthKind) (len : BitVec 16) (ok : Bool) => (frozen s (ethPg m.val) = false) ∧ (PortOn s m.val) ∧ (ok = true ∧ len.toNat ≤ 1522 ∧ accepted s k = true)) ((State.reset.setFld (fETHm_CTRL_MODE 1) 2 |>.setFlag (fETHm_STAT_LINK 1) true)) (1) (.ptp) (1522) (true)) ∧
  ((fun (s : State) (m : Fin 2) (k : EthKind) (len : BitVec 16) (ok : Bool) => (frozen s (ethPg m.val) = false) ∧ (PortOn s m.val) ∧ (¬ (ok = true ∧ len.toNat ≤ 1522 ∧ accepted s k = true))) ((State.reset.setFld (fETHm_CTRL_MODE 1) 2 |>.setFlag (fETHm_STAT_LINK 1) true)) (1) (.ptp) (1523) (true)) ∧
  ((fun (s : State) (m : Fin 2) (d : Byte) (off : Option Int) => (frozen s ptPg = true ∨ ¬ PortOn s m.val)) (State.reset) (1) (0) (some 5)) ∧
  ((fun (s : State) (m : Fin 2) (d : Byte) (off : Option Int) => (frozen s ptPg = false) ∧ (PortOn s m.val) ∧ (off = none ∨ ¬ Follows s m d)) ((State.reset.setFld (fETHm_CTRL_MODE 1) 2 |>.setFlag (fETHm_STAT_LINK 1) true)) (1) (0) (some 5)) ∧
  ((fun (s : State) (m : Fin 2) (d : Byte) (off : Int) => (frozen s ptPg = false) ∧ (PortOn s m.val) ∧ (Follows s m d) ∧ (off.natAbs ≤ s.fld fPT_LOCKWIN) ∧ (s.fab.good + 1 < 16 ∨ s.flag fPT_SERVO_LOCKED = true)) ({ (State.reset.setFld (fETHm_CTRL_MODE 1) 2 |>.setFlag (fETHm_STAT_LINK 1) true |>.setFld fPT_CTRL_ROLE 2 |>.setFld fPT_LOCKWIN 100) with fab := { FabState.reset with good := 3 } }) (1) (0) (-100)) ∧
  ((fun (s : State) (m : Fin 2) (d : Byte) (off : Int) => (frozen s ptPg = false) ∧ (PortOn s m.val) ∧ (Follows s m d) ∧ (off.natAbs ≤ s.fld fPT_LOCKWIN) ∧ (16 ≤ s.fab.good + 1) ∧ (s.flag fPT_SERVO_LOCKED = false)) ({ (State.reset.setFld (fETHm_CTRL_MODE 1) 2 |>.setFlag (fETHm_STAT_LINK 1) true |>.setFld fPT_CTRL_ROLE 2 |>.setFld fPT_LOCKWIN 100) with fab := { FabState.reset with good := 15 } }) (1) (0) (-100)) :=
  ⟨by decide +kernel, by decide +kernel, by decide +kernel, by decide +kernel, by decide +kernel, by decide +kernel, by decide +kernel, by decide +kernel⟩
theorem test_met_MessagesAndTime_5 :
  ((fun (s : State) (m : Fin 2) (d : Byte) (off : Int) => (frozen s ptPg = false) ∧ (PortOn s m.val) ∧ (Follows s m d) ∧ (s.fld fPT_LOCKWIN < off.natAbs) ∧ (s.flag fPT_SERVO_LOCKED = true)) ({ (State.reset.setFld (fETHm_CTRL_MODE 1) 2 |>.setFlag (fETHm_STAT_LINK 1) true |>.setFld fPT_CTRL_ROLE 2 |>.setFld fPT_LOCKWIN 100 |>.setFlag fPT_SERVO_LOCKED true) with fab := { FabState.reset with good := 15 } }) (1) (0) (101)) ∧
  ((fun (s : State) (m : Fin 2) (d : Byte) (off : Int) => (frozen s ptPg = false) ∧ (PortOn s m.val) ∧ (Follows s m d) ∧ (s.fld fPT_LOCKWIN < off.natAbs) ∧ (s.flag fPT_SERVO_LOCKED = false)) ({ (State.reset.setFld (fETHm_CTRL_MODE 1) 2 |>.setFlag (fETHm_STAT_LINK 1) true |>.setFld fPT_CTRL_ROLE 2 |>.setFld fPT_LOCKWIN 100) with fab := { FabState.reset with good := 15 } }) (1) (0) (101)) ∧
  ((fun (s : State)  => (frozen s hgPg = true ∨ pageEn s hgPg = false)) (State.reset) ) ∧
  ((fun (s : State)  => (frozen s hgPg = true ∨ pageEn s hgPg = false)) (State.reset) ) ∧
  ((fun (s : State)  => (frozen s hgPg = true ∨ pageEn s hgPg = false)) (State.reset) ) ∧
  ((fun (s : State)  => (frozen s hgPg = true ∨ pageEn s hgPg = false)) (State.reset) ) ∧
  ((fun (s : State)  => (frozen s hgPg = false) ∧ (pageEn s hgPg = true) ∧ (s.fld fHG_NODE % 256 ≠ 0)) ({ ((State.reset.setFld (fETHm_CTRL_MODE 1) 2 |>.setFlag (fETHm_STAT_LINK 1) true |>.setFlag (fPAGE_CTRL_EN hgPg) true |>.setFld fHG_RTURNS 2 |>.wr64 rSH_ANGLE 0x5800000 |>.setFld fHG_NODE 0x305)) with sl := { SlState.reset with telBuf := bytesOfNat 8 0x80000005_00000007 } }) ) ∧
  ((fun (s : State)  => (frozen s hgPg = false) ∧ (pageEn s hgPg = true) ∧ (s.fld fHG_NODE % 256 = 0)) ({ ((State.reset.setFld (fETHm_CTRL_MODE 1) 2 |>.setFlag (fETHm_STAT_LINK 1) true |>.setFlag (fPAGE_CTRL_EN hgPg) true |>.setFld fHG_RTURNS 2 |>.wr64 rSH_ANGLE 0x5800000 |>.setFld fHG_NODE 0x300)) with fab := { FabState.reset with plans := [⟨0x300, 1, [], 1, 0⟩] } }) ) :=
  ⟨by decide +kernel, by decide +kernel, by decide +kernel, by decide +kernel, by decide +kernel, by decide +kernel, by decide +kernel, by decide +kernel⟩
theorem test_met_MessagesAndTime_6 :
  ((fun (s : State)  => (s.fld fHG_NODE % 256 ≠ 0)) (((State.reset.setFld (fETHm_CTRL_MODE 1) 2 |>.setFlag (fETHm_STAT_LINK 1) true |>.setFlag (fPAGE_CTRL_EN hgPg) true |>.setFld fHG_RTURNS 2 |>.wr64 rSH_ANGLE 0x5800000 |>.setFld fHG_NODE 0x305))) ) ∧
  ((fun (s : State)  => (s.fld fHG_NODE ≠ 0)) (((State.reset.setFld (fETHm_CTRL_MODE 1) 2 |>.setFlag (fETHm_STAT_LINK 1) true |>.setFlag (fPAGE_CTRL_EN hgPg) true |>.setFld fHG_RTURNS 2 |>.wr64 rSH_ANGLE 0x5800000 |>.setFld fHG_NODE 0x300))) ) ∧
  ((fun (s : State)  => (frozen s hgPg = false) ∧ (pageEn s hgPg = true) ∧ (s.fld fHG_NODE % 256 = 0) ∧ (missing s = []) ∧ (s.fld fHG_NODE ≠ 0)) ({ ((State.reset.setFld (fETHm_CTRL_MODE 1) 2 |>.setFlag (fETHm_STAT_LINK 1) true |>.setFlag (fPAGE_CTRL_EN hgPg) true |>.setFld fHG_RTURNS 2 |>.wr64 rSH_ANGLE 0x5800000 |>.setFld fHG_NODE 0x300)) with fab := { FabState.reset with plans := [⟨0x301, 3, [10, 20], 2, 9⟩, ⟨0x300, 3, [1], 1, 0⟩, ⟨0x302, 2, [100], 1, 8⟩], prev := [0x301] } }) ) ∧
  ((fun (s : State)  => (frozen s hgPg = false) ∧ (pageEn s hgPg = true) ∧ (s.fld fHG_NODE % 256 = 0) ∧ (missing s = []) ∧ (s.fld fHG_NODE = 0)) ({ ((State.reset.setFld (fETHm_CTRL_MODE 1) 2 |>.setFlag (fETHm_STAT_LINK 1) true |>.setFlag (fPAGE_CTRL_EN hgPg) true |>.setFld fHG_RTURNS 2 |>.wr64 rSH_ANGLE 0x5800000)) with fab := { FabState.reset with plans := [⟨0x301, 3, [10, 20], 2, 9⟩, ⟨0x300, 3, [1], 1, 0⟩, ⟨0x302, 2, [100], 1, 8⟩], prev := [0x301] } }) ) ∧
  ((fun (s : State)  => (frozen s hgPg = false) ∧ (pageEn s hgPg = true) ∧ (s.fld fHG_NODE % 256 = 0) ∧ (missing s ≠ [])) ({ ((State.reset.setFld (fETHm_CTRL_MODE 1) 2 |>.setFlag (fETHm_STAT_LINK 1) true |>.setFlag (fPAGE_CTRL_EN hgPg) true |>.setFld fHG_RTURNS 2 |>.wr64 rSH_ANGLE 0x5800000 |>.setFld fHG_NODE 0x300)) with fab := { FabState.reset with plans := [⟨0x301, 3, [10, 20], 2, 9⟩, ⟨0x300, 3, [1], 1, 0⟩, ⟨0x302, 2, [100], 1, 8⟩], prev := [0x301, 0x309] } }) ) ∧
  ((fun (s : State)  => (frozen s hgPg = false) ∧ (pageEn s hgPg = true) ∧ (s.fld fHG_NODE = 0)) ({ ((State.reset.setFld (fETHm_CTRL_MODE 1) 2 |>.setFlag (fETHm_STAT_LINK 1) true |>.setFlag (fPAGE_CTRL_EN hgPg) true |>.setFld fHG_RTURNS 2 |>.wr64 rSH_ANGLE 0x5800000 |>.wr64 rHG_CAP 9 |>.wr rSL_PSTAT 3)) with fab := { FabState.reset with plans := [⟨65536, 3, [10, 20], 2, 0⟩, ⟨0x10300, 3, [1], 1, 2 ^ 120 + 5⟩, ⟨0x10400, 3, [7, 0], 4, 77⟩] } }) ) ∧
  ((fun (s : State) (h : HgHdr) (tot : List Int) (mem : BitVec 16) (src : BitVec 128) => (frozen s hgPg = true ∨ pageEn s hgPg = false)) (State.reset) (⟨0x4748, 1, 1, 0, 0x301, 0, 3, 132⟩) ([1]) (2) (0xFE80)) ∧
  ((fun (s : State) (h : HgHdr) (tot : List Int) (mem : BitVec 16) (src : BitVec 128) => (frozen s hgPg = false) ∧ (pageEn s hgPg = true) ∧ (¬ (s.fld fHG_NODE % 256 = 0 ∧ HeadOk s h 1 132 ∧ ((leafOf s h ∧ ¬ TooLate s 0x400000) ∨ (¬ leafOf s h ∧ s.fld fHG_NODE = 0 ∧ h.src.toNat % 256 = 0 ∧ ¬ TooLate s 0x800000))))) (((State.reset.setFld (fETHm_CTRL_MODE 1) 2 |>.setFlag (fETHm_STAT_LINK 1) true |>.setFlag (fPAGE_CTRL_EN hgPg) true |>.setFld fHG_RTURNS 2 |>.wr64 rSH_ANGLE 0x5800000 |>.setFld fHG_NODE 0x300))) (⟨0x4748, 1, 1, 0, 0x401, 0, 3, 132⟩) ([1]) (2) (0xFE80)) :=
  ⟨by decide +kernel, by decide +kernel, by decide +kernel, by decide +kernel, by decide +kernel, by decide +kernel, by decide +kernel, by decide +kernel⟩
theorem test_met_MessagesAndTime_7 :
  ((fun (s : State) (h : HgHdr) (tot : List Int) (mem : BitVec 16) (src : BitVec 128) => (frozen s hgPg = false) ∧ (pageEn s hgPg = true) ∧ (s.fld fHG_NODE % 256 = 0) ∧ (HeadOk s h 1 132) ∧ (leafOf s h) ∧ (¬ TooLate s 0x400000)) (((State.reset.setFld (fETHm_CTRL_MODE 1) 2 |>.setFlag (fETHm_STAT_LINK 1) true |>.setFlag (fPAGE_CTRL_EN hgPg) true |>.setFld fHG_RTURNS 2 |>.wr64 rSH_ANGLE 0x5800000 |>.setFld fHG_NODE 0x300 |>.wr64 rSH_ANGLE 0x53FFFFF))) (⟨0x4748, 1, 1, 0, 0x301, 0, 3, 132⟩) ([1]) (2) (0xFE80)) ∧
  ((fun (s : State) (h : HgHdr) (tot : List Int) (mem : BitVec 16) (src : BitVec 128) => (frozen s hgPg = false) ∧ (pageEn s hgPg = true) ∧ (s.fld fHG_NODE = 0) ∧ (HeadOk s h 1 132) ∧ (¬ leafOf s h) ∧ (h.src.toNat % 256 = 0) ∧ (¬ TooLate s 0x800000)) (((State.reset.setFld (fETHm_CTRL_MODE 1) 2 |>.setFlag (fETHm_STAT_LINK 1) true |>.setFlag (fPAGE_CTRL_EN hgPg) true |>.setFld fHG_RTURNS 2 |>.wr64 rSH_ANGLE 0x5800000 |>.wr64 rSH_ANGLE 0x57FFFFF))) (⟨0x4748, 1, 1, 0, 0x400, 0, 3, 132⟩) ([1]) (2) (0xFE80)) ∧
  ((fun (s : State) (h : HgHdr) (src : BitVec 128) (sc : List (BitVec 16)) (mem : BitVec 16) => (frozen s hgPg = true ∨ pageEn s hgPg = false)) (State.reset) (⟨0x4748, 1, 2, 0, 0x300, 0, 3, 36⟩) (7) ([100, 0x7FFF]) (9)) ∧
  ((fun (s : State) (h : HgHdr) (src : BitVec 128) (sc : List (BitVec 16)) (mem : BitVec 16) => (frozen s hgPg = false) ∧ (pageEn s hgPg = true) ∧ (¬ HeadOk s h 2 36 ∨ src.toNat ≠ parent s)) (((State.reset.setFld (fETHm_CTRL_MODE 1) 2 |>.setFlag (fETHm_STAT_LINK 1) true |>.setFlag (fPAGE_CTRL_EN hgPg) true |>.setFld fHG_RTURNS 2 |>.wr64 rSH_ANGLE 0x5800000 |>.setFld fHG_NODE 0x305))) (⟨0x4748, 1, 2, 0, 0x300, 0, 3, 36⟩) (7) ([100, 0x7FFF]) (9)) ∧
  ((fun (s : State) (h : HgHdr) (src : BitVec 128) (sc : List (BitVec 16)) (mem : BitVec 16) => (frozen s hgPg = false) ∧ (pageEn s hgPg = true) ∧ (HeadOk s h 2 36) ∧ (src.toNat = parent s) ∧ (s.fld fHG_NODE % 256 ≠ 0)) (((State.reset.setFld (fETHm_CTRL_MODE 1) 2 |>.setFlag (fETHm_STAT_LINK 1) true |>.setFlag (fPAGE_CTRL_EN hgPg) true |>.setFld fHG_RTURNS 2 |>.wr64 rSH_ANGLE 0x5800000 |>.setFld fHG_NODE 0x305 |>.wr (rHG_AGGRi 0) 7 |>.wr rSL_PSTAT 3))) (⟨0x4748, 1, 2, 0, 0x300, 0, 3, 36⟩) (7) ([100, 0x7FFF]) (9)) ∧
  ((fun (s : State) (h : HgHdr) (src : BitVec 128) (sc : List (BitVec 16)) (mem : BitVec 16) => (frozen s hgPg = false) ∧ (pageEn s hgPg = true) ∧ (HeadOk s h 2 36) ∧ (src.toNat = parent s) ∧ (s.fld fHG_NODE % 256 = 0)) (((State.reset.setFld (fETHm_CTRL_MODE 1) 2 |>.setFlag (fETHm_STAT_LINK 1) true |>.setFlag (fPAGE_CTRL_EN hgPg) true |>.setFld fHG_RTURNS 2 |>.wr64 rSH_ANGLE 0x5800000 |>.setFld fHG_NODE 0x300 |>.wr (rHG_ROOTi 0) 7))) (⟨0x4748, 1, 2, 0, 0x300, 0, 3, 36⟩) (7) ([100, 0x7FFF]) (9)) ∧
  ((fun (s : State)  => (frozen s hgPg = false) ∧ (pageEn s hgPg = true) ∧ (s.fab.inbox = some (s.rd64 rSH_ANGLE / 16777216 / max 1 (s.fld fHG_RTURNS) % 2 ^ 32))) ({ ((State.reset.setFld (fETHm_CTRL_MODE 1) 2 |>.setFlag (fETHm_STAT_LINK 1) true |>.setFlag (fPAGE_CTRL_EN hgPg) true |>.setFld fHG_RTURNS 2 |>.wr64 rSH_ANGLE 0x5800000)) with fab := { FabState.reset with inbox := some 2 } }) ) ∧
  ((fun (s : State)  => (frozen s hgPg = false) ∧ (pageEn s hgPg = true) ∧ (s.fab.inbox ≠ some (s.rd64 rSH_ANGLE / 16777216 / max 1 (s.fld fHG_RTURNS) % 2 ^ 32))) (((State.reset.setFld (fETHm_CTRL_MODE 1) 2 |>.setFlag (fETHm_STAT_LINK 1) true |>.setFlag (fPAGE_CTRL_EN hgPg) true |>.setFld fHG_RTURNS 2 |>.wr64 rSH_ANGLE 0x5800000 |>.wr rSL_PSTAT 3))) ) :=
  ⟨by decide +kernel, by decide +kernel, by decide +kernel, by decide +kernel, by decide +kernel, by decide +kernel, by decide +kernel, by decide +kernel⟩
theorem test_met_HostQueues_1 :
  ((fun (s : State) (q : BitVec 16) (v : Dword) => ((queueOf s q.toNat).st = 0 ∨ v.toNat / 2 ^ 50 ≠ 0 ∨ v.toNat / 2 ^ 17 % 2 ^ 15 ≠ 0 ∨ ((queueOf s q.toNat).ty = 2 ∧ v.toNat % 2 ^ 17 ≠ 0))) (State.reset) (3) (0x10001)) ∧
  ((fun (s : State) (q : BitVec 16) (v : Dword) => (¬ ((queueOf s q.toNat).st = 0 ∨ v.toNat / 2 ^ 50 ≠ 0 ∨ v.toNat / 2 ^ 17 % 2 ^ 15 ≠ 0 ∨ ((queueOf s q.toNat).ty = 2 ∧ v.toNat % 2 ^ 17 ≠ 0))) ∧ (v.getLsbD 16 = true) ∧ (v.getLsbD 48 = false) ∧ (v.getLsbD 49 = false) ∧ ((v.toNat % 2 ^ 16) < 2 ^ (queueOf s q.toNat).sqLog ∧ (queueOf s q.toNat).sqTail - (queueOf s q.toNat).fetch ≤ (forward (v.toNat % 2 ^ 16) (queueOf s q.toNat).fetch (2 ^ (queueOf s q.toNat).sqLog)))) ({ State.reset with qe := { QeState.reset with queues := [(3, { Queue.absent with st := 1, ty := 1, sqLog := 3, cqLog := 3, cqBase := 0x10000, vec := 5, fetch := 14, sqTail := 15 })] } }) (3) (0x10005)) ∧
  ((fun (s : State) (q : BitVec 16) (v : Dword) => (¬ ((queueOf s q.toNat).st = 0 ∨ v.toNat / 2 ^ 50 ≠ 0 ∨ v.toNat / 2 ^ 17 % 2 ^ 15 ≠ 0 ∨ ((queueOf s q.toNat).ty = 2 ∧ v.toNat % 2 ^ 17 ≠ 0))) ∧ (v.getLsbD 16 = true) ∧ (v.getLsbD 48 = false) ∧ (v.getLsbD 49 = false) ∧ (¬ ((v.toNat % 2 ^ 16) < 2 ^ (queueOf s q.toNat).sqLog ∧ (queueOf s q.toNat).sqTail - (queueOf s q.toNat).fetch ≤ (forward (v.toNat % 2 ^ 16) (queueOf s q.toNat).fetch (2 ^ (queueOf s q.toNat).sqLog))))) ({ State.reset with qe := { QeState.reset with queues := [(3, { Queue.absent with st := 1, ty := 1, sqLog := 3, cqLog := 3, cqBase := 0x10000, vec := 5, fetch := 14, sqTail := 16 })] } }) (3) (0x10007)) ∧
  ((fun (s : State) (q : BitVec 16) (v : Dword) => (¬ ((queueOf s q.toNat).st = 0 ∨ v.toNat / 2 ^ 50 ≠ 0 ∨ v.toNat / 2 ^ 17 % 2 ^ 15 ≠ 0 ∨ ((queueOf s q.toNat).ty = 2 ∧ v.toNat % 2 ^ 17 ≠ 0))) ∧ (v.getLsbD 16 = false) ∧ (v.getLsbD 48 = true) ∧ (v.getLsbD 49 = false) ∧ ((v.toNat / 2 ^ 32 % 2 ^ 16) < 2 ^ (queueOf s q.toNat).cqLog ∧ (forward (v.toNat / 2 ^ 32 % 2 ^ 16) (queueOf s q.toNat).cqHead (2 ^ (queueOf s q.toNat).cqLog)) ≤ (queueOf s q.toNat).cqTail - (queueOf s q.toNat).cqHead) ∧ ((queueOf s q.toNat).cmds = []) ∧ ((queueOf s q.toNat).ty = 1)) ({ State.reset with qe := { QeState.reset with queues := [(3, { Queue.absent with st := 1, ty := 1, sqLog := 3, cqLog := 3, cqBase := 0x10000, vec := 5, cqHead := 6, cqTail := 9 })] } }) (3) (0x1000100000000)) ∧
  ((fun (s : State) (q : BitVec 16) (v : Dword) => (¬ ((queueOf s q.toNat).st = 0 ∨ v.toNat / 2 ^ 50 ≠ 0 ∨ v.toNat / 2 ^ 17 % 2 ^ 15 ≠ 0 ∨ ((queueOf s q.toNat).ty = 2 ∧ v.toNat % 2 ^ 17 ≠ 0))) ∧ (v.getLsbD 16 = false) ∧ (v.getLsbD 48 = true) ∧ (v.getLsbD 49 = false) ∧ (¬ ((v.toNat / 2 ^ 32 % 2 ^ 16) < 2 ^ (queueOf s q.toNat).cqLog ∧ (forward (v.toNat / 2 ^ 32 % 2 ^ 16) (queueOf s q.toNat).cqHead (2 ^ (queueOf s q.toNat).cqLog)) ≤ (queueOf s q.toNat).cqTail - (queueOf s q.toNat).cqHead))) ({ State.reset with qe := { QeState.reset with queues := [(3, { Queue.absent with st := 1, ty := 1, sqLog := 3, cqLog := 3, cqBase := 0x10000, vec := 5, cqHead := 6, cqTail := 9 })] } }) (3) (0x1000200000000)) ∧
  ((fun (s : State) (q : BitVec 16) (v : Dword) (c : QCmd) => (¬ ((queueOf s q.toNat).st = 0 ∨ v.toNat / 2 ^ 50 ≠ 0 ∨ v.toNat / 2 ^ 17 % 2 ^ 15 ≠ 0 ∨ ((queueOf s q.toNat).ty = 2 ∧ v.toNat % 2 ^ 17 ≠ 0))) ∧ (v.getLsbD 16 = false) ∧ (v.getLsbD 48 = true) ∧ (v.getLsbD 49 = false) ∧ ((v.toNat / 2 ^ 32 % 2 ^ 16) < 2 ^ (queueOf s q.toNat).cqLog ∧ (forward (v.toNat / 2 ^ 32 % 2 ^ 16) (queueOf s q.toNat).cqHead (2 ^ (queueOf s q.toNat).cqLog)) ≤ (queueOf s q.toNat).cqTail - (queueOf s q.toNat).cqHead) ∧ ((queueOf s q.toNat).cmds = [c]) ∧ ((queueOf s q.toNat).ty = 1) ∧ (c.st = .completed) ∧ (c.cqPos < (queueOf s q.toNat).cqHead + (forward (v.toNat / 2 ^ 32 % 2 ^ 16) (queueOf s q.toNat).cqHead (2 ^ (queueOf s q.toNat).cqLog)))) ({ State.reset with qe := { QeState.reset with queues := [(3, { Queue.absent with st := 1, ty := 1, sqLog := 3, cqLog := 3, cqBase := 0x10000, vec := 5, cqHead := 6, cqTail := 9, cmds := [{ cseq := 7, st := .completed, slot := some 2, entry := [], idx := 77, ta := 0, angle := 0, cqPos := 7, rep := 0 }] })] } }) (3) (0x1000000000000) ({ cseq := 7, st := .completed, slot := some 2, entry := [], idx := 77, ta := 0, angle := 0, cqPos := 7, rep := 0 })) ∧
  ((fun (s : State) (q : BitVec 16) (v : Dword) => (¬ ((queueOf s q.toNat).st = 0 ∨ v.toNat / 2 ^ 50 ≠ 0 ∨ v.toNat / 2 ^ 17 % 2 ^ 15 ≠ 0 ∨ ((queueOf s q.toNat).ty = 2 ∧ v.toNat % 2 ^ 17 ≠ 0))) ∧ (v.getLsbD 16 = false) ∧ (v.getLsbD 48 = false) ∧ (v.getLsbD 49 = true) ∧ ((queueOf s q.toNat).cqTail ≤ (queueOf s q.toNat).cqHead)) ({ State.reset with qe := { QeState.reset with queues := [(3, { Queue.absent with st := 1, ty := 1, sqLog := 3, cqLog := 3, cqBase := 0x10000, vec := 5, cqHead := 9, cqTail := 9 })] } }) (3) (0x2000000000000)) ∧
  ((fun (s : State) (q : BitVec 16) (v : Dword) => (¬ ((queueOf s q.toNat).st = 0 ∨ v.toNat / 2 ^ 50 ≠ 0 ∨ v.toNat / 2 ^ 17 % 2 ^ 15 ≠ 0 ∨ ((queueOf s q.toNat).ty = 2 ∧ v.toNat % 2 ^ 17 ≠ 0))) ∧ (v.getLsbD 16 = false) ∧ (v.getLsbD 48 = false) ∧ (v.getLsbD 49 = true) ∧ ((queueOf s q.toNat).cqHead < (queueOf s q.toNat).cqTail) ∧ ((queueOf s q.toNat).vec < 256)) ({ State.reset with qe := { QeState.reset with queues := [(3, { Queue.absent with st := 1, ty := 1, sqLog := 3, cqLog := 3, cqBase := 0x10000, vec := 5, cqHead := 6, cqTail := 9 })] } }) (3) (0x2000000000000)) :=
  ⟨by decide +kernel, by decide +kernel, by decide +kernel, by decide +kernel, by decide +kernel, by decide +kernel, by decide +kernel, by decide +kernel⟩
theorem test_met_HostQueues_2 :
  ((fun (s : State)  => (s.flag fQE_STAT_QOPBUSY = true)) (State.reset.setFlag fQE_STAT_QOPBUSY true) ) ∧
  ((fun (s : State)  => (s.flag fQE_STAT_QOPBUSY = true)) (State.reset.setFlag fQE_STAT_QOPBUSY true) ) ∧
  ((fun (s : State)  => (s.flag fQE_STAT_QOPBUSY = true)) (State.reset.setFlag fQE_STAT_QOPBUSY true) ) ∧
  ((fun (s : State)  => (s.flag fQE_STAT_QOPBUSY = true)) (State.reset.setFlag fQE_STAT_QOPBUSY true) ) ∧
  ((fun (s : State)  => (s.flag fQE_STAT_QOPBUSY = false) ∧ ((queueOf s (s.fld fQE_QSEL)).st ≠ 0)) ({ (State.reset.setFld fQE_QSEL 3) with qe := { QeState.reset with queues := [(3, { Queue.absent with st := 1, ty := 1, sqLog := 3, cqLog := 3, cqBase := 0x10000, vec := 5 })] } }) ) ∧
  ((fun (s : State)  => (s.flag fQE_STAT_QOPBUSY = false) ∧ ((queueOf s (s.fld fQE_QSEL)).st = 0) ∧ (SizesBad s 1)) ((State.reset.setFld fQE_QSEL 3)) ) ∧
  ((fun (s : State)  => (s.flag fQE_STAT_QOPBUSY = false) ∧ ((queueOf s (s.fld fQE_QSEL)).st ≠ 0)) ({ (State.reset.setFld fQE_QSEL 3) with qe := { QeState.reset with queues := [(3, { Queue.absent with st := 1, ty := 1, sqLog := 3, cqLog := 3, cqBase := 0x10000, vec := 5 })] } }) ) ∧
  ((fun (s : State)  => (s.flag fQE_STAT_QOPBUSY = false) ∧ ((queueOf s (s.fld fQE_QSEL)).st = 0) ∧ (SizesBad s 2)) ((State.reset.setFld fQE_QSEL 3)) ) :=
  ⟨by decide +kernel, by decide +kernel, by decide +kernel, by decide +kernel, by decide +kernel, by decide +kernel, by decide +kernel, by decide +kernel⟩
theorem test_met_HostQueues_3 :
  ((fun (s : State)  => (s.flag fQE_STAT_QOPBUSY = false) ∧ ((queueOf s (s.fld fQE_QSEL)).st = 0) ∧ (¬ SizesBad s 1)) (((State.reset.setFld fQE_QSEL 3).setFld fQE_QCFG_CQLOG2 4 |>.setFld fQE_QCFG_SQLOG2 3 |>.setFld fQE_QCFG_VECTOR 9 |>.wr rQE_LASTSEQ 70 |>.wr64 rQE_CQBASE 0x123456)) ) ∧
  ((fun (s : State)  => (s.flag fQE_STAT_QOPBUSY = false) ∧ ((queueOf s (s.fld fQE_QSEL)).st = 0) ∧ (¬ SizesBad s 2)) (((State.reset.setFld fQE_QSEL 3).setFld fQE_QCFG_CQLOG2 4)) ) ∧
  ((fun (s : State)  => (s.flag fQE_STAT_QOPBUSY = false) ∧ ((queueOf s (s.fld fQE_QSEL)).st = 0)) ((State.reset.setFld fQE_QSEL 3)) ) ∧
  ((fun (s : State)  => (s.flag fQE_STAT_QOPBUSY = false) ∧ ((queueOf s (s.fld fQE_QSEL)).st ≠ 0) ∧ ((queueOf s (s.fld fQE_QSEL)).resv ≠ 0)) ({ (State.reset.setFld fQE_QSEL 3) with qe := { QeState.reset with queues := [(3, { Queue.absent with st := 1, ty := 1, sqLog := 3, cqLog := 3, cqBase := 0x10000, vec := 5, resv := 2 })] } }) ) ∧
  ((fun (s : State)  => (s.flag fQE_STAT_QOPBUSY = false) ∧ ((queueOf s (s.fld fQE_QSEL)).st ≠ 0) ∧ ((queueOf s (s.fld fQE_QSEL)).resv = 0)) ({ (State.reset.setFld fQE_QSEL 3) with qe := { QeState.reset with queues := [(3, { Queue.absent with st := 1, ty := 1, sqLog := 3, cqLog := 3, cqBase := 0x10000, vec := 5 })] } }) ) ∧
  ((fun (s : State)  => (s.flag fQE_STAT_QOPBUSY = false) ∧ ((queueOf s (s.fld fQE_QSEL)).st = 0)) ((State.reset.setFld fQE_QSEL 3)) ) ∧
  ((fun (s : State) (x : Queue) => (s.flag fQE_STAT_QOPBUSY = false) ∧ ((queueOf s (s.fld fQE_QSEL)) = x) ∧ (x.st ≠ 0) ∧ (x.st < 4) ∧ (x.ty < 4) ∧ (x.err < 16) ∧ (x.vec < 256) ∧ (x.cqLog < 32) ∧ (x.sqLog ≤ 16)) ({ (State.reset.setFld fQE_QSEL 3) with qe := { QeState.reset with queues := [(3, { Queue.absent with st := 1, ty := 1, sqLog := 3, cqLog := 3, cqBase := 0x10000, vec := 5, resv := 2, fetch := 9, h := 77 })] } }) ({ Queue.absent with st := 1, ty := 1, sqLog := 3, cqLog := 3, cqBase := 0x10000, vec := 5, resv := 2, fetch := 9, h := 77 })) ∧
  ((fun (s : State)  => (frozen s qePg = true ∨ s.qe.op = none)) (State.reset) ) :=
  ⟨by decide +kernel, by decide +kernel, by decide +kernel, by decide +kernel, by decide +kernel, by decide +kernel, by decide +kernel, by decide +kernel⟩
theorem test_met_HostQueues_4 :
  ((fun (s : State) (op : QOp) => (frozen s qePg = false) ∧ (s.qe.op = some op) ∧ (op.new = none)) ({ State.reset with qe := { QeState.reset with op := some ⟨1, 3, 4, none⟩ } }) (⟨1, 3, 4, none⟩)) ∧
  ((fun (s : State) (op : QOp) (x : Queue) => (frozen s qePg = false) ∧ (s.qe.op = some op) ∧ (op.new = some x) ∧ (slUp s = false ∨ s.sl.initF = true ∨ s.sl.initH = true)) ({ State.reset with qe := { QeState.reset with op := some ⟨1, 3, 0, some (fromSeq 70 { Queue.absent with st := 1, ty := 1, cqLog := 4, sqLog := 3 })⟩ } }) (⟨1, 3, 0, some (fromSeq 70 { Queue.absent with st := 1, ty := 1, cqLog := 4, sqLog := 3 })⟩) ((fromSeq 70 { Queue.absent with st := 1, ty := 1, cqLog := 4, sqLog := 3 }))) ∧
  ((fun (s : State) (op : QOp) (x : Queue) => (frozen s qePg = false) ∧ (s.qe.op = some op) ∧ (op.new = some x) ∧ (Through s) ∧ (x.cmds = []) ∧ (x.ty = 1) ∧ (∀ i ∈ jOccupied s, jQid s i ≠ op.q)) ({ (State.reset.wr rSL_PSTAT 3) with qe := { QeState.reset with op := some ⟨1, 3, 0, some (fromSeq 70 { Queue.absent with st := 1, ty := 1, cqLog := 4, sqLog := 3 })⟩ } }) (⟨1, 3, 0, some (fromSeq 70 { Queue.absent with st := 1, ty := 1, cqLog := 4, sqLog := 3 })⟩) ((fromSeq 70 { Queue.absent with st := 1, ty := 1, cqLog := 4, sqLog := 3 }))) ∧
  ((fun (s : State) (op : QOp) (x : Queue) (i : Nat) => (frozen s qePg = false) ∧ (s.qe.op = some op) ∧ (op.new = some x) ∧ (Through s) ∧ (x.cmds = []) ∧ (x.ty = 1) ∧ (x.h < 2 ^ 32) ∧ (jOccupied s = [i]) ∧ (jQid s i = op.q) ∧ (jState s i = 1) ∧ (s.tj.writes = []) ∧ (jBad s i = false) ∧ (0 < (jCseq s i + 2 ^ 32 - x.h) % 2 ^ 32) ∧ ((jCseq s i + 2 ^ 32 - x.h) % 2 ^ 32 < 2 ^ 31) ∧ ((jInfo s i).bound ≠ 0) ∧ (qeBlocked s = true)) ({ (State.reset.wr rSL_PSTAT 3) with qe := { QeState.reset with op := some ⟨1, 3, 0, some (fromSeq 70 { Queue.absent with st := 1, ty := 1, cqLog := 4, sqLog := 3 })⟩ }, mram := putList [] (0xF00000 + 64 * 5) (bytesOfNat 64 (0x10 * 256 + 3 * 65536 + 75 * 2 ^ 32 + 3 * 2 ^ 64)), tj := { TjState.reset with info := [(5, { JInfo.zero with bound := 16, ta := 80, angle := 99 })] } }) (⟨1, 3, 0, some (fromSeq 70 { Queue.absent with st := 1, ty := 1, cqLog := 4, sqLog := 3 })⟩) ((fromSeq 70 { Queue.absent with st := 1, ty := 1, cqLog := 4, sqLog := 3 })) (5)) ∧
  ((fun (s : State) (op : QOp) (x : Queue) (i : Nat) => (frozen s qePg = false) ∧ (s.qe.op = some op) ∧ (op.new = some x) ∧ (Through s) ∧ (x.cmds = []) ∧ (x.ty = 1) ∧ (x.h < 2 ^ 32) ∧ (jOccupied s = [i]) ∧ (jQid s i = op.q) ∧ (s.tj.writes = []) ∧ (jBad s i = false) ∧ ((jCseq s i + 2 ^ 32 - x.h) % 2 ^ 32 = 0 ∨ 2 ^ 31 ≤ (jCseq s i + 2 ^ 32 - x.h) % 2 ^ 32)) ({ (State.reset.wr rSL_PSTAT 3) with qe := { QeState.reset with op := some ⟨1, 3, 0, some (fromSeq 70 { Queue.absent with st := 1, ty := 1, cqLog := 4, sqLog := 3 })⟩ }, mram := putList [] (0xF00000 + 64 * 5) (bytesOfNat 64 (0x10 * 256 + 3 * 65536 + 70 * 2 ^ 32 + 3 * 2 ^ 64)), tj := { TjState.reset with info := [(5, { JInfo.zero with bound := 16, ta := 80, angle := 99 })] } }) (⟨1, 3, 0, some (fromSeq 70 { Queue.absent with st := 1, ty := 1, cqLog := 4, sqLog := 3 })⟩) ((fromSeq 70 { Queue.absent with st := 1, ty := 1, cqLog := 4, sqLog := 3 })) (5)) ∧
  ((fun (s : State) (q : BitVec 16) (e : List Byte) => (QNums s) ∧ (¬ MayFetch s q.toNat)) (State.reset) (3) (bytesOfNat 64 (1 + 0 * 256 + 71 * 2 ^ 32))) ∧
  ((fun (s : State) (q : BitVec 16) (e : List Byte) => (MayFetch s q.toNat) ∧ (BadEntry e)) ({ State.reset with qe := { QeState.reset with queues := [(3, { Queue.absent with st := 1, ty := 1, sqLog := 3, cqLog := 3, cqBase := 0x10000, vec := 5, fetch := 9, sqTail := 12, h := 70 })], linkUp := true } }) (3) (bytesOfNat 64 (1 + 3 * 256 + 71 * 2 ^ 32))) ∧
  ((fun (s : State) (q : BitVec 16) (e : List Byte) => (MayFetch s q.toNat) ∧ (¬ BadEntry e) ∧ (gap (queueOf s q.toNat) e = 1)) ({ State.reset with qe := { QeState.reset with queues := [(3, { Queue.absent with st := 1, ty := 1, sqLog := 3, cqLog := 3, cqBase := 0x10000, vec := 5, fetch := 9, sqTail := 12, h := 70 })], linkUp := true } }) (3) (bytesOfNat 64 (1 + 0 * 256 + 71 * 2 ^ 32))) :=
  ⟨by decide +kernel, by decide +kernel, by decide +kernel, by decide +kernel, by decide +kernel, by decide +kernel, by decide +kernel, by decide +kernel⟩
theorem test_met_HostQueues_5 :
  ((fun (s : State) (q : BitVec 16) (e : List Byte) => (OpenQ s q.toNat) ∧ (s.qe.left ≠ 0) ∧ (s.qe.turn ≠ q.toNat) ∧ (OpenQ s s.qe.turn)) ({ State.reset with qe := { QeState.reset with queues := [(3, { Queue.absent with st := 1, ty := 1, sqLog := 3, cqLog := 3, cqBase := 0x10000, vec := 5, fetch := 9, sqTail := 12, h := 70 }), (7, { Queue.absent with st := 1, ty := 1, sqLog := 3, cqLog := 3, cqBase := 0x10000, vec := 5, fetch := 9, sqTail := 12, h := 70 })], linkUp := true, turn := 7, left := 2 } }) (3) (bytesOfNat 64 (1 + 0 * 256 + 71 * 2 ^ 32))) ∧
  ((fun (s : State) (q : BitVec 16) (e : List Byte) => (MayFetch s q.toNat) ∧ (¬ BadEntry e) ∧ (1 < gap (queueOf s q.toNat) e) ∧ (gap (queueOf s q.toNat) e < 2 ^ 31)) ({ State.reset with qe := { QeState.reset with queues := [(3, { Queue.absent with st := 1, ty := 1, sqLog := 3, cqLog := 3, cqBase := 0x10000, vec := 5, fetch := 9, sqTail := 12, h := 70 })], linkUp := true } }) (3) (bytesOfNat 64 (1 + 0 * 256 + 72 * 2 ^ 32))) ∧
  ((fun (s : State) (q : BitVec 16) (e : List Byte) (c : QCmd) => (MayFetch s q.toNat) ∧ (¬ BadEntry e) ∧ (gap (queueOf s q.toNat) e = 0 ∨ 2 ^ 31 ≤ gap (queueOf s q.toNat) e) ∧ ((queueOf s q.toNat).cmds = [c]) ∧ (c.cseq = numAt e 4 4) ∧ (c.st = .fetched ∨ c.st = .sent)) ({ State.reset with qe := { QeState.reset with queues := [(3, { Queue.absent with st := 1, ty := 1, sqLog := 3, cqLog := 3, cqBase := 0x10000, vec := 5, fetch := 9, sqTail := 12, h := 70, resv := 2, cmds := [{ cseq := 70, st := .sent, slot := some 2, entry := [], idx := 0, ta := 0, angle := 0, cqPos := 0, rep := 0 }] })], linkUp := true } }) (3) (bytesOfNat 64 (1 + 0 * 256 + 70 * 2 ^ 32)) ({ cseq := 70, st := .sent, slot := some 2, entry := [], idx := 0, ta := 0, angle := 0, cqPos := 0, rep := 0 })) ∧
  ((fun (s : State) (q : BitVec 16) (e : List Byte) => (MayFetch s q.toNat) ∧ (¬ BadEntry e) ∧ (gap (queueOf s q.toNat) e = 0 ∨ 2 ^ 31 ≤ gap (queueOf s q.toNat) e) ∧ ((queueOf s q.toNat).cmds = []) ∧ ((queueOf s q.toNat).armed = false)) ({ State.reset with qe := { QeState.reset with queues := [(3, { Queue.absent with st := 1, ty := 1, sqLog := 3, cqLog := 3, cqBase := 0x10000, vec := 5, fetch := 9, sqTail := 12, h := 70 })], linkUp := true } }) (3) (bytesOfNat 64 (1 + 0 * 256 + 69 * 2 ^ 32))) ∧
  ((fun (s : State) (q : BitVec 16) => (QNums s) ∧ (frozen s qePg = true ∨ ¬ MayFetch s q.toNat)) (State.reset) (3)) ∧
  ((fun (s : State) (q : BitVec 16) => (frozen s qePg = false) ∧ (MayFetch s q.toNat)) ({ State.reset with qe := { QeState.reset with queues := [(3, { Queue.absent with st := 1, ty := 1, sqLog := 3, cqLog := 3, cqBase := 0x10000, vec := 5, fetch := 9, sqTail := 12, h := 70 })], linkUp := true } }) (3)) ∧
  ((fun (s : State) (q : BitVec 16) => (frozen s qePg = true ∨ s.flag fQE_STAT_RESYNC = true ∨ ∀ c ∈ (queueOf s q.toNat).cmds, c.st ≠ .fetched)) (State.reset) (3)) ∧
  ((fun (s : State) (q : BitVec 16) (c : QCmd) => (((queueOf s q.toNat).cmds.find? fun x => x.st == .fetched) = some c) ∧ (HeldBack s q.toNat c)) ({ State.reset with qe := { QeState.reset with queues := [(3, { Queue.absent with st := 1, ty := 1, sqLog := 3, cqLog := 3, cqBase := 0x10000, vec := 5, cmds := [{ cseq := 70, st := .sent, slot := some 2, entry := [], idx := 0, ta := 0, angle := 0, cqPos := 0, rep := 0 }, { cseq := 71, st := .fetched, slot := some 2, entry := [0, 0, 9], idx := 0, ta := 0, angle := 0, cqPos := 0, rep := 0 }] })] } }) (3) ({ cseq := 71, st := .fetched, slot := some 2, entry := [0, 0, 9], idx := 0, ta := 0, angle := 0, cqPos := 0, rep := 0 })) :=
  ⟨by decide +kernel, by decide +kernel, by decide +kernel, by decide +kernel, by decide +kernel, by decide +kernel, by decide +kernel, by decide +kernel⟩
theorem test_met_HostQueues_6 :
  ((fun (s : State) (q : BitVec 16) (c : QCmd) => (frozen s qePg = false) ∧ (s.flag fQE_STAT_RESYNC = false) ∧ (((queueOf s q.toNat).cmds.find? fun x => x.st == .fetched) = some c) ∧ (¬ HeldBack s q.toNat c) ∧ ((queueOf s q.toNat).cmds.Nodup)) ({ State.reset with qe := { QeState.reset with queues := [(3, { Queue.absent with st := 1, ty := 1, sqLog := 3, cqLog := 3, cqBase := 0x10000, vec := 5, cmds := [{ cseq := 70, st := .completed, slot := some 2, entry := [], idx := 0, ta := 0, angle := 0, cqPos := 0, rep := 0 }, { cseq := 71, st := .fetched, slot := some 2, entry := [], idx := 0, ta := 0, angle := 0, cqPos := 0, rep := 0 }] })] } }) (3) ({ cseq := 71, st := .fetched, slot := some 2, entry := [], idx := 0, ta := 0, angle := 0, cqPos := 0, rep := 0 })) ∧
  ((fun (s : State)  => (frozen s qePg = true ∨ (s.evIn = [] ∧ slUp s = false ∧ (∀ m ∈ s.sl.inH, isEvent m = false)) )) (State.reset) ) ∧
  ((fun (s : State) (q : Nat) (r : EvRec) (rest : List (Nat × EvRec)) => (frozen s qePg = false) ∧ (s.evIn = (q, r) :: rest) ∧ (∀ m ∈ s.sl.inH, isEvent m = false) ∧ (qeBlocked s = true)) ({ { State.reset with qe := { QeState.reset with queues := [(3, { Queue.absent with st := 1, ty := 1, sqLog := 3, cqLog := 3, cqBase := 0x10000, vec := 5 })] } } with evIn := [(3, ⟨7, 0x110, 2, .F, 0x123456789, [1, 2, 3]⟩)] }) (3) (⟨7, 0x110, 2, .F, 0x123456789, [1, 2, 3]⟩) ([])) ∧
  ((fun (s : State) (q : Nat) (r : EvRec) (rest : List (Nat × EvRec)) => (frozen s qePg = false) ∧ (s.evIn = (q, r) :: rest) ∧ (∀ m ∈ s.sl.inH, isEvent m = false) ∧ (qeBlocked s = false) ∧ ((queueOf s q).st = 0 ∨ (queueOf s q).ty ≠ 2) ∧ ((queueOf s q).st = 0 ∨ (queueOf s q).cmds = [])) ({ { State.reset with qe := { QeState.reset with queues := [(3, { Queue.absent with st := 1, ty := 1, sqLog := 3, cqLog := 3, cqBase := 0x10000, vec := 5 })], linkUp := true } } with evIn := [(3, ⟨7, 0x110, 2, .F, 0x123456789, [1, 2, 3]⟩)] }) (3) (⟨7, 0x110, 2, .F, 0x123456789, [1, 2, 3]⟩) ([])) ∧
  ((fun (s : State) (q : Nat) (r : EvRec) (rest : List (Nat × EvRec)) => (frozen s qePg = false) ∧ (s.evIn = (q, r) :: rest) ∧ (∀ m ∈ s.sl.inH, isEvent m = false) ∧ (qeBlocked s = false) ∧ ((queueOf s q).st ≠ 0) ∧ ((queueOf s q).ty = 2) ∧ ((queueOf s q).dropNew = 0) ∧ (full (queueOf s q) = false) ∧ ((queueOf s q).armed = false ∨ (queueOf s q).vec < 256)) ({ { State.reset with qe := { QeState.reset with queues := [(3, { Queue.absent with st := 1, ty := 2, cqLog := 2, cqBase := 0x20000, vec := 5, seq := 9, cqTail := 6, cqHead := 3 })], linkUp := true } } with evIn := [(3, ⟨7, 0x110, 2, .F, 0x123456789, [1, 2, 3]⟩)] }) (3) (⟨7, 0x110, 2, .F, 0x123456789, [1, 2, 3]⟩) ([])) ∧
  ((fun (s : State) (q : Nat) (r : EvRec) (rest : List (Nat × EvRec)) => (frozen s qePg = false) ∧ (s.evIn = (q, r) :: rest) ∧ (∀ m ∈ s.sl.inH, isEvent m = false) ∧ (qeBlocked s = false) ∧ ((queueOf s q).st ≠ 0) ∧ ((queueOf s q).ty = 2) ∧ ((queueOf s q).dropNew = 0) ∧ (full (queueOf s q) = true)) ({ { State.reset with qe := { QeState.reset with queues := [(3, { Queue.absent with st := 1, ty := 2, cqLog := 2, cqBase := 0x20000, vec := 5, seq := 9, cqTail := 7, cqHead := 3 })], linkUp := true } } with evIn := [(3, ⟨7, 0x110, 2, .F, 0x123456789, [1, 2, 3]⟩)] }) (3) (⟨7, 0x110, 2, .F, 0x123456789, [1, 2, 3]⟩) ([])) ∧
  ((fun (s : State) (q : Nat) (r : EvRec) (rest : List (Nat × EvRec)) => (frozen s qePg = false) ∧ (s.evIn = (q, r) :: rest) ∧ (∀ m ∈ s.sl.inH, isEvent m = false) ∧ (qeBlocked s = false) ∧ ((queueOf s q).st ≠ 0) ∧ ((queueOf s q).ty = 2) ∧ ((queueOf s q).dropNew ≠ 0) ∧ (full (queueOf s q) = true)) ({ { State.reset with qe := { QeState.reset with queues := [(3, { Queue.absent with st := 1, ty := 2, cqLog := 2, cqBase := 0x20000, vec := 5, seq := 9, cqTail := 7, cqHead := 3, dropNew := 2 })], linkUp := true } } with evIn := [(3, ⟨7, 0x110, 2, .F, 0x123456789, [1, 2, 3]⟩)] }) (3) (⟨7, 0x110, 2, .F, 0x123456789, [1, 2, 3]⟩) ([])) ∧
  ((fun (s : State) (q : Nat) (r : EvRec) (rest : List (Nat × EvRec)) => (frozen s qePg = false) ∧ (s.evIn = (q, r) :: rest) ∧ (∀ m ∈ s.sl.inH, isEvent m = false) ∧ (qeBlocked s = false) ∧ ((queueOf s q).st ≠ 0) ∧ ((queueOf s q).ty = 2) ∧ ((queueOf s q).dropNew ≠ 0) ∧ ((queueOf s q).armed = false) ∧ (((queueOf s q).cqTail - (queueOf s q).cqHead) + (queueOf s q).resv + 2 ≤ 2 ^ (queueOf s q).cqLog)) ({ { State.reset with qe := { QeState.reset with queues := [(3, { Queue.absent with st := 1, ty := 2, cqLog := 2, cqBase := 0x20000, vec := 5, seq := 9, cqTail := 7, cqHead := 5, dropNew := 2, dropSeq := 4 })], linkUp := true } } with evIn := [(3, ⟨7, 0x110, 2, .F, 0x123456789, [1, 2, 3]⟩)] }) (3) (⟨7, 0x110, 2, .F, 0x123456789, [1, 2, 3]⟩) ([])) :=
  ⟨by decide +kernel, by decide +kernel, by decide +kernel, by decide +kernel, by decide +kernel, by decide +kernel, by decide +kernel, by decide +kernel⟩
theorem test_met_HostQueues_7 :
  ((fun (s : State) (w : BitVec 6) (v : BitVec 4) => (frozen s pxPg = true)) (State.reset.setFlag (fPAGE_CTRL_FREEZE pxPg) true) (16) (4)) ∧
  ((fun (s : State) (w : BitVec 6) (v : BitVec 4) => (frozen s pxPg = false) ∧ (s.qe.queues = []) ∧ (s.fld fPX_LSTAT_SPEED = v.toNat)) (State.reset.setFld fPX_LSTAT_SPEED 4) (16) (4)) ∧
  ((fun (s : State) (w : BitVec 6) (v : BitVec 4) => (frozen s pxPg = false) ∧ (s.qe.queues = []) ∧ (s.fld fPX_LSTAT_SPEED ≠ v.toNat)) (State.reset.setFld fPX_LSTAT_SPEED 3) (16) (4)) ∧
  ((fun (s : State) (on : Bool) => (on = true ∨ s.qe.queues = [])) (State.reset) (true)) :=
  ⟨by decide +kernel, by decide +kernel, by decide +kernel, by decide +kernel⟩
theorem test_met_Journal_1 :
  ((fun (s : State)  => (frozen s slPg = true ∨ (slUp s = false ∧ ∀ m ∈ s.sl.inF, m.cls ≠ 0))) (State.reset) ) ∧
  ((fun (s : State) (q : Nat) (e : List Byte) => (frozen s slPg = false) ∧ (FirstF s 0 (.cmd q e)) ∧ (s.flag fPWR_STAT_BELOW = true)) ({ State.reset.setFlag fPWR_STAT_BELOW true with sl := { SlState.reset with inF := [.notice 9, .cmd 3 (bytesOfNat 64 (0x41 + 1 * 2 ^ 8 + 5 * 2 ^ 16 + 0x77 * 2 ^ 32 + 0xABCDEF * 2 ^ 128))] } }) (3) ((bytesOfNat 64 (0x41 + 1 * 2 ^ 8 + 5 * 2 ^ 16 + 0x77 * 2 ^ 32 + 0xABCDEF * 2 ^ 128)))) ∧
  ((fun (s : State) (q : Nat) (e : List Byte) => (frozen s slPg = false) ∧ (FirstF s 0 (.cmd q e)) ∧ (s.flag fPWR_STAT_BELOW = false) ∧ (jOcc s ((s.tj.last + 1) % 16384) = false) ∧ (s.fld fTJ_OCC + 1 < 16384)) ({ State.reset with sl := { SlState.reset with inF := [.notice 9, .cmd 3 (bytesOfNat 64 (0x41 + 1 * 2 ^ 8 + 5 * 2 ^ 16 + 0x77 * 2 ^ 32 + 0xABCDEF * 2 ^ 128))] } }) (3) ((bytesOfNat 64 (0x41 + 1 * 2 ^ 8 + 5 * 2 ^ 16 + 0x77 * 2 ^ 32 + 0xABCDEF * 2 ^ 128)))) ∧
  ((fun (s : State) (q : Nat) (e : List Byte) => (frozen s slPg = false) ∧ (FirstF s 0 (.cmd q e)) ∧ (s.flag fPWR_STAT_BELOW = false) ∧ (jOcc s ((s.tj.last + 1) % 16384) = false) ∧ (s.fld fTJ_OCC = 16383) ∧ (s.flag fQE_STAT_JFULL = false)) ({ State.reset.setFld fTJ_OCC 16383 with sl := { SlState.reset with inF := [.notice 9, .cmd 3 (bytesOfNat 64 (0x41 + 1 * 2 ^ 8 + 5 * 2 ^ 16 + 0x77 * 2 ^ 32 + 0xABCDEF * 2 ^ 128))] } }) (3) ((bytesOfNat 64 (0x41 + 1 * 2 ^ 8 + 5 * 2 ^ 16 + 0x77 * 2 ^ 32 + 0xABCDEF * 2 ^ 128)))) ∧
  ((fun (s : State) (i : BitVec 14) => (frozen s slPg = true ∨ ∀ w ∈ s.tj.writes, w.idx ≠ i.toNat)) (State.reset) (5)) ∧
  ((fun (s : State) (i : BitVec 14) (w : JWrite) => (frozen s slPg = false) ∧ ((s.tj.writes.find? fun w => w.idx == i.toNat) = some w) ∧ (w.mark = false)) ({ State.reset.wr64 rTICKNO 40 |>.wr64 rANGLE 777777 with mram := [(3, 7)], tj := { TjState.reset with writes := [⟨5, false, (bytesOfNat 64 (0x41 + 1 * 2 ^ 8 + 5 * 2 ^ 16 + 0x77 * 2 ^ 32 + 0xABCDEF * 2 ^ 128)), 3, 100, 0⟩] } }) (5) (⟨5, false, (bytesOfNat 64 (0x41 + 1 * 2 ^ 8 + 5 * 2 ^ 16 + 0x77 * 2 ^ 32 + 0xABCDEF * 2 ^ 128)), 3, 100, 0⟩)) ∧
  ((fun (s : State) (i : BitVec 14) (w : JWrite) => (frozen s slPg = false) ∧ ((s.tj.writes.find? fun w => w.idx == i.toNat) = some w) ∧ (w.mark = true) ∧ (numAt w.bytes 0 1 < 4)) ({ State.reset.wr64 rSL_FCYC 500 with mram := putList [] (0xF00000 + 64 * 5) (bytesOfNat 64 (0x41 + (1 + 16) * 256 + 5 * 2 ^ 16 + 0x77 * 2 ^ 32 + 3 * 2 ^ 64)), tj := { TjState.reset with writes := [⟨5, true, [1], 3, 100, 7⟩] } }) (5) (⟨5, true, [1], 3, 100, 7⟩)) ∧
  ((fun (s : State)  => (frozen s qePg = true ∨ (slUp s = false ∧ ∀ m ∈ s.sl.inH, isJack m = false))) (State.reset) ) :=
  ⟨by decide +kernel, by decide +kernel, by decide +kernel, by decide +kernel, by decide +kernel, by decide +kernel, by decide +kernel, by decide +kernel⟩
theorem test_met_Journal_2 :
  ((fun (s : State) (q : Nat) (cs : Nat) (i : Nat) (ta : Nat) (an : Nat) => (frozen s qePg = false) ∧ ((s.sl.inH.find? isJack) = some (.jack q cs i ta an)) ∧ (∀ c ∈ (queueOf s q).cmds, c.st ≠ .sent ∨ c.cseq ≠ cs)) ({ State.reset with qe := { QeState.reset with queues := [(3, { Queue.absent with st := 1, ty := 1, sqLog := 3, cqLog := 3, cqBase := 0x10000, vec := 5, fetch := 9, resv := 2 })], linkUp := true }, sl := { SlState.reset with inH := [.notice 1, .jack 3 70 5 40 777] } }) (3) (70) (5) (40) (777)) ∧
  ((fun (s : State) (q : Nat) (cs : Nat) (i : Nat) (ta : Nat) (an : Nat) (c : QCmd) => (frozen s qePg = false) ∧ ((s.sl.inH.find? isJack) = some (.jack q cs i ta an)) ∧ ((queueOf s q).cmds = [c]) ∧ (c.st = .sent) ∧ (c.cseq = cs) ∧ (qeBlocked s = true)) ({ State.reset with qe := { QeState.reset with queues := [(3, { Queue.absent with st := 1, ty := 1, sqLog := 3, cqLog := 3, cqBase := 0x10000, vec := 5, fetch := 9, resv := 2, cmds := [{ cseq := 70, st := .sent, slot := some 2, entry := (bytesOfNat 64 (0x41 + 1 * 2 ^ 8 + 5 * 2 ^ 16 + 0x77 * 2 ^ 32 + 0xABCDEF * 2 ^ 128)), idx := 0, ta := 0, angle := 0, cqPos := 0, rep := 0 }] })] }, sl := { SlState.reset with inH := [.jack 3 70 5 40 777] } }) (3) (70) (5) (40) (777) ({ cseq := 70, st := .sent, slot := some 2, entry := (bytesOfNat 64 (0x41 + 1 * 2 ^ 8 + 5 * 2 ^ 16 + 0x77 * 2 ^ 32 + 0xABCDEF * 2 ^ 128)), idx := 0, ta := 0, angle := 0, cqPos := 0, rep := 0 })) ∧
  ((fun (s : State) (q : Nat) (cs : Nat) (i : Nat) (ta : Nat) (an : Nat) (c : QCmd) (k : Nat) => (frozen s qePg = false) ∧ ((s.sl.inH.find? isJack) = some (.jack q cs i ta an)) ∧ ((queueOf s q).cmds = [c]) ∧ (c.st = .sent) ∧ (c.cseq = cs) ∧ (qeBlocked s = false) ∧ ((queueOf s q).st = 1) ∧ ((queueOf s q).ty = 1) ∧ ((queueOf s q).armed = false) ∧ (∀ m ∈ s.sl.inH, isOutcome m = false) ∧ (c.rep = 0) ∧ (c.slot = some k) ∧ (k ≤ (queueOf s q).fetch)) ({ State.reset with qe := { QeState.reset with queues := [(3, { Queue.absent with st := 1, ty := 1, sqLog := 3, cqLog := 3, cqBase := 0x10000, vec := 5, fetch := 9, resv := 2, cmds := [{ cseq := 70, st := .sent, slot := some 2, entry := (bytesOfNat 64 (0x41 + 1 * 2 ^ 8 + 5 * 2 ^ 16 + 0x77 * 2 ^ 32 + 0xABCDEF * 2 ^ 128)), idx := 0, ta := 0, angle := 0, cqPos := 0, rep := 0 }] })], linkUp := true }, sl := { SlState.reset with inH := [.jack 3 70 5 40 777] } }) (3) (70) (5) (40) (777) ({ cseq := 70, st := .sent, slot := some 2, entry := (bytesOfNat 64 (0x41 + 1 * 2 ^ 8 + 5 * 2 ^ 16 + 0x77 * 2 ^ 32 + 0xABCDEF * 2 ^ 128)), idx := 0, ta := 0, angle := 0, cqPos := 0, rep := 0 }) (2)) ∧
  ((fun (s : State)  => (frozen s slPg = true ∨ (slUp s = false ∧ ∀ m ∈ s.sl.inF, isNotice m = false))) (State.reset) ) ∧
  ((fun (s : State) (i : Nat) => (frozen s slPg = false) ∧ ((s.sl.inF.find? isNotice) = some (.notice i))) ({ State.reset with tj := { TjState.reset with info := [(5, { JInfo.zero with bound := 16 })] }, sl := { SlState.reset with inF := [.release 1, .notice 5] } }) (5)) ∧
  ((fun (s : State) (i : Nat) => (frozen s slPg = false) ∧ (∀ m ∈ s.sl.inF, isNotice m = false) ∧ (Crossing s 17 (.notice i))) ({ State.reset.wr rSL_PSTAT 3 with tj := { TjState.reset with info := [(5, { JInfo.zero with bound := 16 })] }, sl := { SlState.reset with tx := [(17, ⟨1, [⟨0, 0, 1, .notice 5⟩]⟩)] } }) (5)) ∧
  ((fun (s : State)  => (frozen s qePg = true ∨ (slUp s = false ∧ ∀ m ∈ s.sl.inH, outcomeStale s m = false) ∧ s.qe.queues = [])) (State.reset) ) ∧
  ((fun (s : State) (q : Nat) (cs : Nat) (i : Nat) (st : Nat) (an : Nat) (ti : Nat) => (frozen s qePg = false) ∧ (slUp s = false) ∧ (s.sl.inH = [(.outcome q cs i st an ti)]) ∧ (∀ c ∈ (queueOf s q).cmds, c.cseq ≠ cs ∨ c.st = .fetched ∨ c.st = .completed ∨ c.st = .dup)) ({ State.reset with qe := { QeState.reset with queues := [(3, { Queue.absent with st := 1, ty := 1, sqLog := 3, cqLog := 3, cqBase := 0x10000, vec := 5, fetch := 9, resv := 2 })], linkUp := true }, sl := { SlState.reset with inH := [.outcome 3 70 5 2 888 41] } }) (3) (70) (5) (2) (888) (41)) :=
  ⟨by decide +kernel, by decide +kernel, by decide +kernel, by decide +kernel, by decide +kernel, by decide +kernel, by decide +kernel, by decide +kernel⟩
theorem test_met_Journal_3 :
  ((fun (s : State) (q : Nat) (cs : Nat) (i : Nat) (st : Nat) (an : Nat) (ti : Nat) (c : QCmd) => (frozen s qePg = false) ∧ (slUp s = false) ∧ (s.sl.inH = [(.outcome q cs i st an ti)]) ∧ (qeBlocked s = false) ∧ (s.qe.queues = [(q, (queueOf s q))]) ∧ ((queueOf s q).st = 1) ∧ ((queueOf s q).ty = 1) ∧ ((queueOf s q).armed = false) ∧ ((queueOf s q).cmds = [c]) ∧ (c.st = .accepted) ∧ (c.cseq = cs) ∧ (c.idx = i) ∧ (c.rep = 0)) ({ State.reset with qe := { QeState.reset with queues := [(3, { Queue.absent with st := 1, ty := 1, sqLog := 3, cqLog := 3, cqBase := 0x10000, vec := 5, fetch := 9, resv := 2, cmds := [{ cseq := 70, st := .accepted, slot := some 2, entry := (bytesOfNat 64 (0x41 + 1 * 2 ^ 8 + 5 * 2 ^ 16 + 0x77 * 2 ^ 32 + 0xABCDEF * 2 ^ 128)), idx := 5, ta := 0, angle := 0, cqPos := 0, rep := 0 }] })], linkUp := true }, sl := { SlState.reset with inH := [.outcome 3 70 5 2 888 41] } }) (3) (70) (5) (2) (888) (41) ({ cseq := 70, st := .accepted, slot := some 2, entry := (bytesOfNat 64 (0x41 + 1 * 2 ^ 8 + 5 * 2 ^ 16 + 0x77 * 2 ^ 32 + 0xABCDEF * 2 ^ 128)), idx := 5, ta := 0, angle := 0, cqPos := 0, rep := 0 })) ∧
  ((fun (s : State)  => (frozen s slPg = true ∨ (slUp s = false ∧ ∀ m ∈ s.sl.inF, isRelease m = false))) (State.reset) ) ∧
  ((fun (s : State) (i : Nat) => (frozen s slPg = false) ∧ ((s.sl.inF.find? isRelease) = some (.release i)) ∧ (s.flag fPWR_STAT_BELOW = true)) ({ State.reset.setFlag fPWR_STAT_BELOW true with sl := { SlState.reset with inF := [.notice 9, .release 5] } }) (5)) ∧
  ((fun (s : State) (i : Nat) => (frozen s slPg = false) ∧ ((s.sl.inF.find? isRelease) = some (.release i)) ∧ (s.flag fPWR_STAT_BELOW = false) ∧ (jState s i ≠ 2)) ({ State.reset with mram := putList [] (0xF00000 + 64 * 5) (bytesOfNat 64 (0x41 + (1 + 16) * 256 + 5 * 2 ^ 16 + 0x77 * 2 ^ 32 + 3 * 2 ^ 64)), sl := { SlState.reset with inF := [.notice 9, .release 5] } }) (5)) ∧
  ((fun (s : State) (i : Nat) => (frozen s slPg = false) ∧ ((s.sl.inF.find? isRelease) = some (.release i)) ∧ (s.flag fPWR_STAT_BELOW = false) ∧ (jState s i = 2) ∧ (s.fld fTJ_OCC ≤ 16384)) ({ State.reset.setFld fTJ_OCC 9 |>.setFlag fQE_STAT_JFULL true with mram := putList [] (0xF00000 + 64 * 5) (bytesOfNat 64 (0x41 + (1 + 16 + 16 + 4) * 256 + 5 * 2 ^ 16 + 0x77 * 2 ^ 32 + 3 * 2 ^ 64)), tj := { TjState.reset with info := [(5, { JInfo.zero with bound := 16 })] }, sl := { SlState.reset with inF := [.notice 9, .release 5] } }) (5)) ∧
  ((fun (s : State)  => (s.tj.replayOk = false)) ({ State.reset with tj := { TjState.reset with replayOk := false } }) ) ∧
  ((fun (s : State)  => (s.tj.replayOk = true) ∧ (jListed s = [])) (State.reset) ) ∧
  ((fun (s : State) (i : Nat) => (s.tj.replayOk = true) ∧ (jListed s = [i]) ∧ (jInfo s i = JInfo.zero) ∧ (jBad s i = true)) ({ { State.reset with mram := putList [] (0xF00000 + 64 * 5) (bytesOfNat 64 (0x41 + (1 + 16) * 256 + 5 * 2 ^ 16 + 0x77 * 2 ^ 32 + 3 * 2 ^ 64)) } with lmErr := [(0x40F00000 + 64 * 5 + 9, true)] }) (5)) :=
  ⟨by decide +kernel, by decide +kernel, by decide +kernel, by decide +kernel, by decide +kernel, by decide +kernel, by decide +kernel, by decide +kernel⟩
theorem test_met_Journal_4 :
  ((fun (s : State) (i : Nat) => (s.tj.replayOk = true) ∧ (jListed s = [i]) ∧ (jInfo s i = JInfo.zero) ∧ (jBad s i = false) ∧ (jPending s i = true) ∧ (angleOf s < jDl s i * 65536)) ({ State.reset with mram := putList [] (0xF00000 + 64 * 5) (bytesOfNat 64 (0x41 + (1 + 16) * 256 + 5 * 2 ^ 16 + 0x77 * 2 ^ 32 + 3 * 2 ^ 64 + 9 * 2 ^ 80)) }) (5)) ∧
  ((fun (s : State) (i : Nat) => (s.tj.replayOk = true) ∧ (jListed s = [i]) ∧ (jInfo s i = JInfo.zero) ∧ (jBad s i = false) ∧ (jPending s i = true) ∧ (jDl s i * 65536 ≤ angleOf s)) ({ State.reset.wr64 rANGLE 600000 with mram := putList [] (0xF00000 + 64 * 5) (bytesOfNat 64 (0x41 + (1 + 16) * 256 + 5 * 2 ^ 16 + 0x77 * 2 ^ 32 + 3 * 2 ^ 64 + 9 * 2 ^ 80)) }) (5)) ∧
  ((fun (s : State)  => (frozen s slPg = true ∨ s.flag fTJ_STAT_REPLAYING = false)) (State.reset) ) ∧
  ((fun (s : State)  => (frozen s slPg = false) ∧ (s.flag fTJ_STAT_REPLAYING = true)) (State.reset.setFlag fTJ_STAT_REPLAYING true) ) ∧
  ((fun (s : State)  => (s.flag fTJ_STAT_REPLAYED = false)) (State.reset) ) ∧
  ((fun (s : State)  => (s.flag fTJ_STAT_REPLAYED = true) ∧ (s.tj.released = true)) ({ State.reset.setFlag fTJ_STAT_REPLAYED true with tj := { TjState.reset with released := true } }) ) ∧
  ((fun (s : State)  => (s.flag fTJ_STAT_REPLAYED = true) ∧ (s.tj.released = false)) ({ State.reset.setFlag fTJ_STAT_REPLAYED true |>.setFlag fTJ_STAT_HELD true with mram := putList [] (0xF00000 + 64 * 5) (bytesOfNat 64 (0x41 + (1 + 16) * 256 + 5 * 2 ^ 16 + 0x77 * 2 ^ 32 + 3 * 2 ^ 64 + 9 * 2 ^ 80)), tj := { TjState.reset with info := [(5, { JInfo.zero with byDl := true, held := true })] } }) ) :=
  ⟨by decide +kernel, by decide +kernel, by decide +kernel, by decide +kernel, by decide +kernel, by decide +kernel, by decide +kernel⟩
theorem test_met_PanOrders_1 :
  ((fun (s : State) (c : Fin 5) (h : Hdr) (x : Xl) (y : Xl) (d : BitVec 5) (k : BitVec 4) (a : BitVec 5) => (Lone s c.val h x) ∧ (c.val ≠ 4) ∧ (Allowed s c.val .panq false ((s.core c.val).rdC k.toNat) (((s.core c.val).rdC k.toNat).base + ((s.core c.val).rdW a.toNat).toNat) 32 0 y) ∧ (Room s c.val)) ((wE 1 fun c => { c with c := [(2, Cap.root), (4, Cap.make 0x1000 0x100 0x81 0)], w := [(3, 0x1020), (4, 0x10000FE0)] })) (1) (wH) (wX 1) (⟨0x1020, 7, false, none⟩) (6) (2) (3)) ∧
  ((fun (s : State) (c : Fin 5) (l : PLoad) (k : Nat) (q : Cap) (p : Nat) => (frozen s (corePg c.val) = false) ∧ (c.val < 4) ∧ (Idle s c.val) ∧ ((s.core c.val).pend = []) ∧ ((s.core c.val).fdivs = []) ∧ ((s.core c.val).loads = [l]) ∧ (l.kind = .panq k q) ∧ (l.size = 32) ∧ (l.early = none) ∧ (l.cuts = []) ∧ (Readable s c.val l.pa 32) ∧ (headPan (descOf (memBytes s (regionOf (coreDie c.val) l.pa) 32)) = p) ∧ (32 ≤ (panOf s p).bq.length)) (({ wE 1 (fun c => { c with loads := [⟨0x1020, 32, .panq 6 Cap.root, 1, none, []⟩] }) with sal := { State.reset.sal with mem := putList [] 0x1020 (bytesOfNat 32 (0x10 + 0x44010008 * 2 ^ 32 + 300 * 2 ^ 64 + 7 * 2 ^ 96)) }, pan := { PanState.reset with pans := [(2, { Pan.empty with bq := List.replicate 32 ⟨.bg 1 9 4, [0x10, 0x44010008, 300, 0x800, 0x1000, 0x1800, 0x00010001, 1], Cap.root, 0, 0, 0, RedState.empty, []⟩ })], ticket := [(1, 5)], seq := [(1, 6)] } }).setFld (fPAN_CRCFGc_LOG2N 1) 4) (1) (⟨0x1020, 32, .panq 6 Cap.root, 1, none, []⟩) (6) (Cap.root) (2)) ∧
  ((fun (s : State) (c : Fin 5) (l : PLoad) (k : Nat) (q : Cap) (p : Nat) => (frozen s (corePg c.val) = false) ∧ (c.val < 4) ∧ (Idle s c.val) ∧ ((s.core c.val).pend = []) ∧ ((s.core c.val).fdivs = []) ∧ ((s.core c.val).loads = [l]) ∧ (l.kind = .panq k q) ∧ (l.size = 32) ∧ (l.early = none) ∧ (l.cuts = []) ∧ (Readable s c.val l.pa 32) ∧ (headPan (descOf (memBytes s (regionOf (coreDie c.val) l.pa) 32)) = p) ∧ ((panOf s p).bq.length < 32) ∧ (s.fld (fPAN_CRCFGc_LOG2N c.val) < 4 ∨ 12 < s.fld (fPAN_CRCFGc_LOG2N c.val))) (({ wE 1 (fun c => { c with loads := [⟨0x1020, 32, .panq 6 Cap.root, 1, none, []⟩] }) with sal := { State.reset.sal with mem := putList [] 0x1020 (bytesOfNat 32 (0x10 + 0x44010008 * 2 ^ 32 + 300 * 2 ^ 64 + 7 * 2 ^ 96)) }, pan := { PanState.reset with pans := [(2, { Pan.empty with bq := [] })], ticket := [(1, 5)], seq := [(1, 6)] } }).setFld (fPAN_CRCFGc_LOG2N 1) 3) (1) (⟨0x1020, 32, .panq 6 Cap.root, 1, none, []⟩) (6) (Cap.root) (2)) ∧
  ((fun (s : State) (c : Fin 5) (l : PLoad) (k : Nat) (q : Cap) (p : Nat) => (frozen s (corePg c.val) = false) ∧ (c.val < 4) ∧ (Idle s c.val) ∧ ((s.core c.val).pend = []) ∧ ((s.core c.val).fdivs = []) ∧ ((s.core c.val).loads = [l]) ∧ (l.kind = .panq k q) ∧ (l.size = 32) ∧ (l.early = none) ∧ (l.cuts = []) ∧ (Readable s c.val l.pa 32) ∧ (headPan (descOf (memBytes s (regionOf (coreDie c.val) l.pa) 32)) = p) ∧ ((panOf s p).bq.length < 32) ∧ (4 ≤ s.fld (fPAN_CRCFGc_LOG2N c.val) ∧ s.fld (fPAN_CRCFGc_LOG2N c.val) ≤ 12) ∧ (2 ^ s.fld (fPAN_CRCFGc_LOG2N c.val) ≤ ringUnread s c.val + ringResv s c.val)) (({ wE 1 (fun c => { c with loads := [⟨0x1020, 32, .panq 6 Cap.root, 1, none, []⟩] }) with sal := { State.reset.sal with mem := putList [] 0x1020 (bytesOfNat 32 (0x10 + 0x44010008 * 2 ^ 32 + 300 * 2 ^ 64 + 7 * 2 ^ 96)) }, pan := { PanState.reset with pans := [(2, { Pan.empty with bq := [] })], ticket := [(1, 5)], seq := [(1, 6)] } }).setFld (fPAN_CRCFGc_LOG2N 1) 4 |>.setUnread 1 9 |>.setFld (fPAN_CRSTATc_RESV 1) 7) (1) (⟨0x1020, 32, .panq 6 Cap.root, 1, none, []⟩) (6) (Cap.root) (2)) ∧
  ((fun (s : State) (c : Fin 5) (l : PLoad) (k : Nat) (q : Cap) (p : Nat) => (frozen s (corePg c.val) = false) ∧ (c.val < 4) ∧ (Idle s c.val) ∧ ((s.core c.val).pend = []) ∧ ((s.core c.val).fdivs = []) ∧ ((s.core c.val).loads = [l]) ∧ (l.kind = .panq k q) ∧ (l.size = 32) ∧ (l.early = none) ∧ (l.cuts = []) ∧ (Readable s c.val l.pa 32) ∧ (headPan (descOf (memBytes s (regionOf (coreDie c.val) l.pa) 32)) = p) ∧ ((panOf s p).bq.length < 32) ∧ (4 ≤ s.fld (fPAN_CRCFGc_LOG2N c.val) ∧ s.fld (fPAN_CRCFGc_LOG2N c.val) ≤ 12) ∧ (ringUnread s c.val + ringResv s c.val < 2 ^ s.fld (fPAN_CRCFGc_LOG2N c.val))) (({ wE 1 (fun c => { c with loads := [⟨0x1020, 32, .panq 6 Cap.root, 1, none, []⟩] }) with sal := { State.reset.sal with mem := putList [] 0x1020 (bytesOfNat 32 (0x10 + 0x44010008 * 2 ^ 32 + 300 * 2 ^ 64 + 7 * 2 ^ 96)) }, pan := { PanState.reset with pans := [(2, { Pan.empty with bq := [] })], ticket := [(1, 65535)], seq := [(1, 6)] } }).setFld (fPAN_CRCFGc_LOG2N 1) 4) (1) (⟨0x1020, 32, .panq 6 Cap.root, 1, none, []⟩) (6) (Cap.root) (2)) ∧
  ((fun (s : State)  => (frozen s 0x120 = true ∨ nextIssue s = none)) (State.reset) ) ∧
  ((fun (s : State) (l : Launch) (a : Nat) (d : List Word) (k : Cap) => (Issues s l a d k) ∧ ((dNstg d = 0 ∧ 64 ≤ (panOf s (headPan d)).lq.length) ∨ (dNstg d ≠ 0 ∧ 64 ≤ s.pan.chainq.length))) ({ State.reset with sal := { SalState.reset with mem := putList (putList [] 0x3000 (bytesOfNat 16 (0xFF_FFFF_FFFF * 2 ^ 40 + 0xFFFF * 2 ^ 80))) 0x4000 (bytesOfNat 32 (0x10 + 0x44010004 * 2 ^ 32 + 300 * 2 ^ 64 + 0x800 * 2 ^ 96 + 0x1000 * 2 ^ 128 + 0x1800 * 2 ^ 160 + 0x00010001 * 2 ^ 192 + 1 * 2 ^ 224)), tag := [(0x300, true)], err := [] }, cry := { CryState.reset with tt := [(0x10, 0x90140104)], ctx := [(9, { Ctx.free with st := .admitted, first := some 4, desc := [0x00000010, 2] })], launches := [⟨9, 100, [0x00000010, 3, 0x3FC0, 0, 0, 0, 0x3000, 0, 0, 0, 0, 0, 0x00080010, 0x00FF, 0xABCD], ⟨1000000, 1000000, 1000000, 1000000, 1000000, 9000⟩, Cost.zero, 2, 1, false, false, false, 5⟩] }, pan := { PanState.reset with pans := [(1, { Pan.empty with lq := List.replicate 64 ⟨.launched 9 100 2, [0x10, 0x44010004, 300, 0x800, 0x1000, 0x1800, 0x00010001, 1], Cap.root, 0, 0, 0, RedState.empty, []⟩ })], chainq := [] } }) ((⟨9, 100, [0x00000010, 3, 0x3FC0, 0, 0, 0, 0x3000, 0, 0, 0, 0, 0, 0x00080010, 0x00FF, 0xABCD], ⟨1000000, 1000000, 1000000, 1000000, 1000000, 9000⟩, Cost.zero, 2, 1, false, false, false, 5⟩ : Launch)) (0x4000) (orderWords ({ State.reset with sal := { SalState.reset with mem := putList (putList [] 0x3000 (bytesOfNat 16 (0xFF_FFFF_FFFF * 2 ^ 40 + 0xFFFF * 2 ^ 80))) 0x4000 (bytesOfNat 32 (0x10 + 0x44010004 * 2 ^ 32 + 300 * 2 ^ 64 + 0x800 * 2 ^ 96 + 0x1000 * 2 ^ 128 + 0x1800 * 2 ^ 160 + 0x00010001 * 2 ^ 192 + 1 * 2 ^ 224)), tag := [(0x300, true)], err := [] }, cry := { CryState.reset with tt := [(0x10, 0x90140104)], ctx := [(9, { Ctx.free with st := .admitted, first := some 4, desc := [0x00000010, 2] })], launches := [⟨9, 100, [0x00000010, 3, 0x3FC0, 0, 0, 0, 0x3000, 0, 0, 0, 0, 0, 0x00080010, 0x00FF, 0xABCD], ⟨1000000, 1000000, 1000000, 1000000, 1000000, 9000⟩, Cost.zero, 2, 1, false, false, false, 5⟩] }, pan := { PanState.reset with pans := [(1, { Pan.empty with lq := List.replicate 64 ⟨.launched 9 100 2, [0x10, 0x44010004, 300, 0x800, 0x1000, 0x1800, 0x00010001, 1], Cap.root, 0, 0, 0, RedState.empty, []⟩ })], chainq := [] } }) 0x4000) (salCap ({ State.reset with sal := { SalState.reset with mem := putList (putList [] 0x3000 (bytesOfNat 16 (0xFF_FFFF_FFFF * 2 ^ 40 + 0xFFFF * 2 ^ 80))) 0x4000 (bytesOfNat 32 (0x10 + 0x44010004 * 2 ^ 32 + 300 * 2 ^ 64 + 0x800 * 2 ^ 96 + 0x1000 * 2 ^ 128 + 0x1800 * 2 ^ 160 + 0x00010001 * 2 ^ 192 + 1 * 2 ^ 224)), tag := [(0x300, true)], err := [] }, cry := { CryState.reset with tt := [(0x10, 0x90140104)], ctx := [(9, { Ctx.free with st := .admitted, first := some 4, desc := [0x00000010, 2] })], launches := [⟨9, 100, [0x00000010, 3, 0x3FC0, 0, 0, 0, 0x3000, 0, 0, 0, 0, 0, 0x00080010, 0x00FF, 0xABCD], ⟨1000000, 1000000, 1000000, 1000000, 1000000, 9000⟩, Cost.zero, 2, 1, false, false, false, 5⟩] }, pan := { PanState.reset with pans := [(1, { Pan.empty with lq := List.replicate 64 ⟨.launched 9 100 2, [0x10, 0x44010004, 300, 0x800, 0x1000, 0x1800, 0x00010001, 1], Cap.root, 0, 0, 0, RedState.empty, []⟩ })], chainq := [] } }) 0x3000)) ∧
  ((fun (s : State) (l : Launch) (a : Nat) (d : List Word) (k : Cap) => (Issues s l a d k) ∧ (s.sal.err = []) ∧ ((issueChecks s l k a d).find? (·.2) = none) ∧ (dNstg d = 0) ∧ ((panOf s (headPan d)).lq.length < 64)) ({ State.reset with sal := { SalState.reset with mem := putList (putList [] 0x3000 (bytesOfNat 16 (0xFF_FFFF_FFFF * 2 ^ 40 + 0xFFFF * 2 ^ 80))) 0x4000 (bytesOfNat 32 (0x10 + 0x44010004 * 2 ^ 32 + 300 * 2 ^ 64 + 0x800 * 2 ^ 96 + 0x1000 * 2 ^ 128 + 0x1800 * 2 ^ 160 + 0x00010001 * 2 ^ 192 + 1 * 2 ^ 224)), tag := [(0x300, true)], err := [] }, cry := { CryState.reset with tt := [(0x10, 0x90140104)], ctx := [(9, { Ctx.free with st := .admitted, first := some 4, desc := [0x00000010, 2] })], launches := [⟨9, 100, [0x00000010, 3, 0x3FC0, 0, 0, 0, 0x3000, 0, 0, 0, 0, 0, 0x00080010, 0x00FF, 0xABCD], ⟨1000000, 1000000, 1000000, 1000000, 1000000, 9000⟩, Cost.zero, 2, 1, false, false, false, 5⟩] }, pan := { PanState.reset with pans := [], chainq := [] } }) ((⟨9, 100, [0x00000010, 3, 0x3FC0, 0, 0, 0, 0x3000, 0, 0, 0, 0, 0, 0x00080010, 0x00FF, 0xABCD], ⟨1000000, 1000000, 1000000, 1000000, 1000000, 9000⟩, Cost.zero, 2, 1, false, false, false, 5⟩ : Launch)) (0x4000) (orderWords ({ State.reset with sal := { SalState.reset with mem := putList (putList [] 0x3000 (bytesOfNat 16 (0xFF_FFFF_FFFF * 2 ^ 40 + 0xFFFF * 2 ^ 80))) 0x4000 (bytesOfNat 32 (0x10 + 0x44010004 * 2 ^ 32 + 300 * 2 ^ 64 + 0x800 * 2 ^ 96 + 0x1000 * 2 ^ 128 + 0x1800 * 2 ^ 160 + 0x00010001 * 2 ^ 192 + 1 * 2 ^ 224)), tag := [(0x300, true)], err := [] }, cry := { CryState.reset with tt := [(0x10, 0x90140104)], ctx := [(9, { Ctx.free with st := .admitted, first := some 4, desc := [0x00000010, 2] })], launches := [⟨9, 100, [0x00000010, 3, 0x3FC0, 0, 0, 0, 0x3000, 0, 0, 0, 0, 0, 0x00080010, 0x00FF, 0xABCD], ⟨1000000, 1000000, 1000000, 1000000, 1000000, 9000⟩, Cost.zero, 2, 1, false, false, false, 5⟩] }, pan := { PanState.reset with pans := [], chainq := [] } }) 0x4000) (salCap ({ State.reset with sal := { SalState.reset with mem := putList (putList [] 0x3000 (bytesOfNat 16 (0xFF_FFFF_FFFF * 2 ^ 40 + 0xFFFF * 2 ^ 80))) 0x4000 (bytesOfNat 32 (0x10 + 0x44010004 * 2 ^ 32 + 300 * 2 ^ 64 + 0x800 * 2 ^ 96 + 0x1000 * 2 ^ 128 + 0x1800 * 2 ^ 160 + 0x00010001 * 2 ^ 192 + 1 * 2 ^ 224)), tag := [(0x300, true)], err := [] }, cry := { CryState.reset with tt := [(0x10, 0x90140104)], ctx := [(9, { Ctx.free with st := .admitted, first := some 4, desc := [0x00000010, 2] })], launches := [⟨9, 100, [0x00000010, 3, 0x3FC0, 0, 0, 0, 0x3000, 0, 0, 0, 0, 0, 0x00080010, 0x00FF, 0xABCD], ⟨1000000, 1000000, 1000000, 1000000, 1000000, 9000⟩, Cost.zero, 2, 1, false, false, false, 5⟩] }, pan := { PanState.reset with pans := [], chainq := [] } }) 0x3000)) :=
  ⟨by decide +kernel, by decide +kernel, by decide +kernel, by decide +kernel, by decide +kernel, by decide +kernel, by decide +kernel, by decide +kernel⟩
theorem test_met_PanOrders_2 :
  ((fun (s : State) (l : Launch) (a : Nat) (d : List Word) (k : Cap) => (Issues s l a d k) ∧ (s.sal.err = []) ∧ ((issueChecks s l k a d).find? (·.2) = none) ∧ (dNstg d ≠ 0) ∧ (s.pan.chainq.length < 64)) ({ State.reset with sal := { SalState.reset with mem := putList (putList [] 0x3000 (bytesOfNat 16 (0xFF_FFFF_FFFF * 2 ^ 40 + 0xFFFF * 2 ^ 80))) 0x4000 (bytesOfNat 32 (0x0101 + 0x44000065 * 2 ^ 32 + 300 * 2 ^ 64 + 0x800 * 2 ^ 96 + 0x1000 * 2 ^ 128 + 0x1800 * 2 ^ 160 + 0x00010001 * 2 ^ 192 + 1 * 2 ^ 224)), tag := [(0x300, true)], err := [] }, cry := { CryState.reset with tt := [(1, 0x90140104)], ctx := [(9, { Ctx.free with st := .admitted, first := some 4, desc := [0x00000010, 2] })], launches := [⟨9, 100, [0x00000010, 3, 0x3FC0, 0, 0, 0, 0x3000, 0, 0, 0, 0, 0, 0x00080010, 0x00FF, 0xABCD], ⟨1000000, 1000000, 1000000, 1000000, 1000000, 9000⟩, Cost.zero, 2, 1, false, false, false, 5⟩] }, pan := { PanState.reset with pans := [], chainq := [] } }) ((⟨9, 100, [0x00000010, 3, 0x3FC0, 0, 0, 0, 0x3000, 0, 0, 0, 0, 0, 0x00080010, 0x00FF, 0xABCD], ⟨1000000, 1000000, 1000000, 1000000, 1000000, 9000⟩, Cost.zero, 2, 1, false, false, false, 5⟩ : Launch)) (0x4000) (orderWords ({ State.reset with sal := { SalState.reset with mem := putList (putList [] 0x3000 (bytesOfNat 16 (0xFF_FFFF_FFFF * 2 ^ 40 + 0xFFFF * 2 ^ 80))) 0x4000 (bytesOfNat 32 (0x0101 + 0x44000065 * 2 ^ 32 + 300 * 2 ^ 64 + 0x800 * 2 ^ 96 + 0x1000 * 2 ^ 128 + 0x1800 * 2 ^ 160 + 0x00010001 * 2 ^ 192 + 1 * 2 ^ 224)), tag := [(0x300, true)], err := [] }, cry := { CryState.reset with tt := [(1, 0x90140104)], ctx := [(9, { Ctx.free with st := .admitted, first := some 4, desc := [0x00000010, 2] })], launches := [⟨9, 100, [0x00000010, 3, 0x3FC0, 0, 0, 0, 0x3000, 0, 0, 0, 0, 0, 0x00080010, 0x00FF, 0xABCD], ⟨1000000, 1000000, 1000000, 1000000, 1000000, 9000⟩, Cost.zero, 2, 1, false, false, false, 5⟩] }, pan := { PanState.reset with pans := [], chainq := [] } }) 0x4000) (salCap ({ State.reset with sal := { SalState.reset with mem := putList (putList [] 0x3000 (bytesOfNat 16 (0xFF_FFFF_FFFF * 2 ^ 40 + 0xFFFF * 2 ^ 80))) 0x4000 (bytesOfNat 32 (0x0101 + 0x44000065 * 2 ^ 32 + 300 * 2 ^ 64 + 0x800 * 2 ^ 96 + 0x1000 * 2 ^ 128 + 0x1800 * 2 ^ 160 + 0x00010001 * 2 ^ 192 + 1 * 2 ^ 224)), tag := [(0x300, true)], err := [] }, cry := { CryState.reset with tt := [(1, 0x90140104)], ctx := [(9, { Ctx.free with st := .admitted, first := some 4, desc := [0x00000010, 2] })], launches := [⟨9, 100, [0x00000010, 3, 0x3FC0, 0, 0, 0, 0x3000, 0, 0, 0, 0, 0, 0x00080010, 0x00FF, 0xABCD], ⟨1000000, 1000000, 1000000, 1000000, 1000000, 9000⟩, Cost.zero, 2, 1, false, false, false, 5⟩] }, pan := { PanState.reset with pans := [], chainq := [] } }) 0x3000)) ∧
  ((fun (s : State) (l : Launch) (a : Nat) (d : List Word) (k : Cap) (p : Nat) (cause : Nat) => (Issues s l a d k) ∧ (OnlyLaunch s l) ∧ (s.sal.err = []) ∧ (p = headPan d) ∧ (l.next < 1024) ∧ ((dNstg d ≠ 0 ∨ (panOf s (headPan d)).lq.length < 64)) ∧ ((dNstg d = 0 ∨ s.pan.chainq.length < 64)) ∧ (((issueChecks s l k a d).find? (·.2)).map (·.1) = some cause)) ({ State.reset with sal := { SalState.reset with mem := putList (putList [] 0x3000 (bytesOfNat 16 (0xFF_FFFF_FFFF * 2 ^ 40 + 0xFF7F * 2 ^ 80))) 0x4000 (bytesOfNat 32 (0x10 + 0x44010004 * 2 ^ 32 + 300 * 2 ^ 64 + 0x800 * 2 ^ 96 + 0x1000 * 2 ^ 128 + 0x1800 * 2 ^ 160 + 0x00010001 * 2 ^ 192 + 1 * 2 ^ 224)), tag := [(0x300, true)], err := [] }, cry := { CryState.reset with tt := [(0x10, 0x90140104)], ctx := [(9, { Ctx.free with st := .admitted, first := some 4, desc := [0x00000010, 2] })], launches := [⟨9, 100, [0x00000010, 3, 0x3FC0, 0, 0, 0, 0x3000, 0, 0, 0, 0, 0, 0x00080010, 0x00FF, 0xABCD], ⟨1000000, 1000000, 1000000, 1000000, 1000000, 9000⟩, Cost.zero, 2, 1, false, false, false, 5⟩] }, pan := { PanState.reset with pans := [], chainq := [] } }) ((⟨9, 100, [0x00000010, 3, 0x3FC0, 0, 0, 0, 0x3000, 0, 0, 0, 0, 0, 0x00080010, 0x00FF, 0xABCD], ⟨1000000, 1000000, 1000000, 1000000, 1000000, 9000⟩, Cost.zero, 2, 1, false, false, false, 5⟩ : Launch)) (0x4000) (orderWords ({ State.reset with sal := { SalState.reset with mem := putList (putList [] 0x3000 (bytesOfNat 16 (0xFF_FFFF_FFFF * 2 ^ 40 + 0xFF7F * 2 ^ 80))) 0x4000 (bytesOfNat 32 (0x10 + 0x44010004 * 2 ^ 32 + 300 * 2 ^ 64 + 0x800 * 2 ^ 96 + 0x1000 * 2 ^ 128 + 0x1800 * 2 ^ 160 + 0x00010001 * 2 ^ 192 + 1 * 2 ^ 224)), tag := [(0x300, true)], err := [] }, cry := { CryState.reset with tt := [(0x10, 0x90140104)], ctx := [(9, { Ctx.free with st := .admitted, first := some 4, desc := [0x00000010, 2] })], launches := [⟨9, 100, [0x00000010, 3, 0x3FC0, 0, 0, 0, 0x3000, 0, 0, 0, 0, 0, 0x00080010, 0x00FF, 0xABCD], ⟨1000000, 1000000, 1000000, 1000000, 1000000, 9000⟩, Cost.zero, 2, 1, false, false, false, 5⟩] }, pan := { PanState.reset with pans := [], chainq := [] } }) 0x4000) (salCap ({ State.reset with sal := { SalState.reset with mem := putList (putList [] 0x3000 (bytesOfNat 16 (0xFF_FFFF_FFFF * 2 ^ 40 + 0xFF7F * 2 ^ 80))) 0x4000 (bytesOfNat 32 (0x10 + 0x44010004 * 2 ^ 32 + 300 * 2 ^ 64 + 0x800 * 2 ^ 96 + 0x1000 * 2 ^ 128 + 0x1800 * 2 ^ 160 + 0x00010001 * 2 ^ 192 + 1 * 2 ^ 224)), tag := [(0x300, true)], err := [] }, cry := { CryState.reset with tt := [(0x10, 0x90140104)], ctx := [(9, { Ctx.free with st := .admitted, first := some 4, desc := [0x00000010, 2] })], launches := [⟨9, 100, [0x00000010, 3, 0x3FC0, 0, 0, 0, 0x3000, 0, 0, 0, 0, 0, 0x00080010, 0x00FF, 0xABCD], ⟨1000000, 1000000, 1000000, 1000000, 1000000, 9000⟩, Cost.zero, 2, 1, false, false, false, 5⟩] }, pan := { PanState.reset with pans := [], chainq := [] } }) 0x3000) (1) (4)) ∧
  ((fun (s : State) (p : Fin 4) => (frozen s (panPg p.val) = true ∨ pageEn s 0x120 = false ∨ s.flag fPCS_CTRL_PATCHEN = true ∨ s.pwr.mode ≠ .run)) (((({ State.reset with pan := { PanState.reset with pans := [(1, { Pan.empty with lq := [⟨.launched 9 100 2, [0x10, 0x44010004, 300, 0x800, 0x1000, 0x1800, 0x00010001, 1], Cap.root, 0, 0, 0, RedState.empty, []⟩] })] } }).setFlag (fPAGE_CTRL_EN 0x120) true)).setFlag fPCS_CTRL_PATCHEN true) (1)) ∧
  ((fun (s : State) (p : Fin 4) (o : Order) (r : List Order) => (frozen s (panPg p.val) = false ∧ pageEn s 0x120 = true ∧ s.flag fPCS_CTRL_PATCHEN = false ∧ s.pwr.mode = .run) ∧ (s.pan.chainq = o :: r) ∧ (headPan o.desc ≠ p.val ∨ ChainRuns s ∨ (∃ q : Fin 4, q.val ∈ orderPans o.desc ∧ ¬ IdlePan s q.val))) ((({ State.reset with pan := { PanState.reset with pans := [(1, { Pan.empty with lq := [⟨.launched 9 100 2, [0x10, 0x44010004, 300, 0x800, 0x1000, 0x1800, 0x00010001, 1], Cap.root, 0, 0, 0, RedState.empty, []⟩], run := some ⟨.launched 9 100 2, [0x10, 0x44010004, 300, 0x800, 0x1000, 0x1800, 0x00010001, 1], Cap.root, 0, 0, 0, RedState.empty, []⟩ })], chainq := [⟨.launched 9 100 2, [0x0101, 0x44000065, 300, 0x800, 0, 0x1800, 0x00010001, 1], Cap.root, 0, 0, 0, RedState.empty, []⟩] } }).setFlag (fPAGE_CTRL_EN 0x120) true)) (1) (⟨.launched 9 100 2, [0x0101, 0x44000065, 300, 0x800, 0, 0x1800, 0x00010001, 1], Cap.root, 0, 0, 0, RedState.empty, []⟩) ([])) ∧
  ((fun (s : State) (p : Fin 4) (o : Order) (r : List Order) => (frozen s (panPg p.val) = false ∧ pageEn s 0x120 = true ∧ s.flag fPCS_CTRL_PATCHEN = false ∧ s.pwr.mode = .run) ∧ (s.pan.chainq = o :: r) ∧ (headPan o.desc = p.val) ∧ (¬ ChainRuns s) ∧ (∀ q ∈ orderPans o.desc, IdlePan s q)) ((({ State.reset with pan := { PanState.reset with pans := [(0, { Pan.empty with run := some ⟨.launched 9 100 2, [0x10, 0x44010000, 300, 0x800, 0x1000, 0x1800, 0x00010001, 1], Cap.root, 0, 0, 0, RedState.empty, []⟩ })], chainq := [⟨.launched 9 100 2, [0x0101, 0x44000065, 300, 0x800, 0, 0x1800, 0x00010001, 1], Cap.root, 0, 0, 0, RedState.empty, []⟩, ⟨.launched 9 100 2, [0x0101, 0x44000009, 300, 0x800, 0, 0x1800, 0x00010001, 1], Cap.root, 0, 0, 0, RedState.empty, []⟩] } }).setFlag (fPAGE_CTRL_EN 0x120) true)) (1) (⟨.launched 9 100 2, [0x0101, 0x44000065, 300, 0x800, 0, 0x1800, 0x00010001, 1], Cap.root, 0, 0, 0, RedState.empty, []⟩) ([⟨.launched 9 100 2, [0x0101, 0x44000009, 300, 0x800, 0, 0x1800, 0x00010001, 1], Cap.root, 0, 0, 0, RedState.empty, []⟩])) ∧
  ((fun (s : State) (p : Fin 4) => (frozen s (panPg p.val) = false ∧ pageEn s 0x120 = true ∧ s.flag fPCS_CTRL_PATCHEN = false ∧ s.pwr.mode = .run) ∧ (s.pan.chainq = []) ∧ ((panOf s p.val).lq = [] ∨ ¬ IdlePan s p.val ∨ ChainRuns s ∨ ChainToCome s)) ((({ State.reset with pan := { PanState.reset with pans := [(1, { Pan.empty with lq := [⟨.launched 9 100 2, [0x10, 0x44010004, 300, 0x800, 0x1000, 0x1800, 0x00010001, 1], Cap.root, 0, 0, 0, RedState.empty, []⟩] }), (3, { Pan.empty with run := some ⟨.launched 9 100 2, [0x0101, 0x4400000D, 300, 0x800, 0, 0x1800, 0x00010001, 1], Cap.root, 0, 0, 0, RedState.empty, []⟩ })] } }).setFlag (fPAGE_CTRL_EN 0x120) true)) (1)) ∧
  ((fun (s : State) (p : Fin 4) (o : Order) (r : List Order) => (frozen s (panPg p.val) = false ∧ pageEn s 0x120 = true ∧ s.flag fPCS_CTRL_PATCHEN = false ∧ s.pwr.mode = .run) ∧ (s.pan.chainq = []) ∧ ((panOf s p.val).lq = o :: r) ∧ (IdlePan s p.val) ∧ (¬ ChainRuns s) ∧ (¬ ChainToCome s)) ((({ State.reset with pan := { PanState.reset with pans := [(1, { Pan.empty with lq := [⟨.launched 9 100 2, [0x10, 0x44010004, 300, 0x800, 0x1000, 0x1800, 0x00010001, 1], Cap.root, 0, 0, 0, RedState.empty, []⟩, ⟨.launched 9 100 3, [0x10, 0x44010004, 300, 0x800, 0x1000, 0x1800, 0x00010001, 1], Cap.root, 0, 0, 0, RedState.empty, []⟩], yielded := some ⟨.bg 1 9 4, [0x10, 0x44010004, 300, 0x800, 0x1000, 0x1800, 0x00010001, 1], Cap.root, 0, 0, 0, RedState.empty, []⟩ }), (2, { Pan.empty with run := some ⟨.launched 9 100 2, [0x10, 0x44010008, 300, 0x800, 0x1000, 0x1800, 0x00010001, 1], Cap.root, 0, 0, 0, RedState.empty, []⟩ })] } }).setFlag (fPAGE_CTRL_EN 0x120) true)) (1) (⟨.launched 9 100 2, [0x10, 0x44010004, 300, 0x800, 0x1000, 0x1800, 0x00010001, 1], Cap.root, 0, 0, 0, RedState.empty, []⟩) ([⟨.launched 9 100 3, [0x10, 0x44010004, 300, 0x800, 0x1000, 0x1800, 0x00010001, 1], Cap.root, 0, 0, 0, RedState.empty, []⟩])) ∧
  ((fun (s : State) (p : Fin 4) => (¬ BgMayStart s p.val ∨ ((panOf s p.val).yielded = none ∧ (panOf s p.val).bq = []))) ((({ State.reset with pan := { PanState.reset with pans := [(1, { Pan.empty with bq := [⟨.bg 1 9 4, [0x10, 0x44010004, 300, 0x800, 0x1000, 0x1800, 0x00010001, 1], Cap.root, 0, 0, 0, RedState.empty, []⟩] })] } }).setFlag (fPAGE_CTRL_EN 0x120) true).setFlag (fPANp_CTRL_RUN 1) false) (1)) :=
  ⟨by decide +kernel, by decide +kernel, by decide +kernel, by decide +kernel, by decide +kernel, by decide +kernel, by decide +kernel, by decide +kernel⟩
theorem test_met_PanOrders_3 :
  ((fun (s : State) (p : Fin 4) (o : Order) => (BgMayStart s p.val) ∧ ((panOf s p.val).yielded = some o) ∧ (PansReady s o)) ((({ State.reset with pan := { PanState.reset with pans := [(1, { Pan.empty with bq := [⟨.bg 1 9 4, [0x10, 0x44010004, 300, 0x800, 0x1000, 0x1800, 0x00010001, 1], Cap.root, 0, 0, 0, RedState.empty, []⟩], yielded := some ⟨.bg 1 9 4, [0x10, 0x44010004, 300, 0x800, 0x1000, 0x1800, 0x00010001, 1], Cap.root, 0, 256, 0, RedState.empty, []⟩ })] } }).setFlag (fPAGE_CTRL_EN 0x120) true)) (1) (⟨.bg 1 9 4, [0x10, 0x44010004, 300, 0x800, 0x1000, 0x1800, 0x00010001, 1], Cap.root, 0, 256, 0, RedState.empty, []⟩)) ∧
  ((fun (s : State) (p : Fin 4) (o : Order) => (BgMayStart s p.val) ∧ ((panOf s p.val).yielded = some o) ∧ (¬ PansReady s o)) ((({ State.reset with pan := { PanState.reset with pans := [(1, { Pan.empty with yielded := some { (⟨.launched 9 100 2, [0x0101, 0x44000065, 300, 0x800, 0, 0x1800, 0x00010001, 1], Cap.root, 0, 0, 0, RedState.empty, []⟩ : Order) with src := .bg 1 9 4 } }), (3, { Pan.empty with run := some ⟨.launched 9 100 2, [0x10, 0x4401000C, 300, 0x800, 0x1000, 0x1800, 0x00010001, 1], Cap.root, 0, 0, 0, RedState.empty, []⟩ })] } }).setFlag (fPAGE_CTRL_EN 0x120) true)) (1) ({ (⟨.launched 9 100 2, [0x0101, 0x44000065, 300, 0x800, 0, 0x1800, 0x00010001, 1], Cap.root, 0, 0, 0, RedState.empty, []⟩ : Order) with src := .bg 1 9 4 })) ∧
  ((fun (s : State) (p : Fin 4) (o : Order) (r : List Order) (c : Nat) (k : Nat) (n : Nat) => (BgMayStart s p.val) ∧ ((panOf s p.val).yielded = none) ∧ ((panOf s p.val).bq = o :: r) ∧ (o.src = .bg c k n) ∧ (dFence o.desc = true) ∧ (EarlierOpen s c n)) ((({ State.reset with pan := { PanState.reset with pans := [(1, { Pan.empty with bq := [(⟨.bg 1 9 4, [0x10, 0x44010004, 300, 0x800, 0x01001000, 0x1800, 0x00010001, 1], Cap.root, 0, 0, 0, RedState.empty, []⟩ : Order)] }), (3, { Pan.empty with yielded := some ⟨.bg 1 9 3, [0x10, 0x4401000C, 300, 0x800, 0x1000, 0x1800, 0x00010001, 1], Cap.root, 0, 0, 0, RedState.empty, []⟩ })] } }).setFlag (fPAGE_CTRL_EN 0x120) true)) (1) ((⟨.bg 1 9 4, [0x10, 0x44010004, 300, 0x800, 0x01001000, 0x1800, 0x00010001, 1], Cap.root, 0, 0, 0, RedState.empty, []⟩ : Order)) ([]) (1) (9) (4)) ∧
  ((fun (s : State) (p : Fin 4) (o : Order) (r : List Order) (c : Nat) (k : Nat) (n : Nat) => (BgMayStart s p.val) ∧ ((panOf s p.val).yielded = none) ∧ ((panOf s p.val).bq = o :: r) ∧ (o.src = .bg c k n) ∧ ((dFence o.desc = false ∨ ¬ EarlierOpen s c n)) ∧ ((bgChecks s o).find? (·.2) = none) ∧ (PansReady s o)) ((({ State.reset with pan := { PanState.reset with pans := [(1, { Pan.empty with bq := [(⟨.bg 1 9 4, [0x10, 0x44010004, 300, 0x800, 0x01001000, 0x1800, 0x00010001, 1], Cap.root, 0, 0, 0, RedState.empty, []⟩ : Order), ⟨.bg 1 9 4, [0x10, 0x44010004, 300, 0x800, 0x1000, 0x1800, 0x00010001, 1], Cap.root, 0, 0, 0, RedState.empty, []⟩] })] } }).setFlag (fPAGE_CTRL_EN 0x120) true)) (1) ((⟨.bg 1 9 4, [0x10, 0x44010004, 300, 0x800, 0x01001000, 0x1800, 0x00010001, 1], Cap.root, 0, 0, 0, RedState.empty, []⟩ : Order)) ([⟨.bg 1 9 4, [0x10, 0x44010004, 300, 0x800, 0x1000, 0x1800, 0x00010001, 1], Cap.root, 0, 0, 0, RedState.empty, []⟩]) (1) (9) (4)) ∧
  ((fun (s : State) (p : Fin 4) (o : Order) (r : List Order) (c : Nat) (k : Nat) (n : Nat) (cause : Nat) => (BgMayStart s p.val) ∧ ((panOf s p.val).yielded = none) ∧ ((panOf s p.val).bq = o :: r) ∧ (o.src = .bg c k n) ∧ ((dFence o.desc = false ∨ ¬ EarlierOpen s c n)) ∧ (((bgChecks s o).find? (·.2)).map (·.1) = some cause) ∧ (RingOk s c) ∧ (Silent s c o.desc) ∧ (OrderOk o k)) (((({ State.reset with pan := { PanState.reset with pans := [(1, { Pan.empty with bq := [(⟨.bg 1 9 4, [0x10, 0x44010004, 300, 0x800, 0x1000, 0x810, 0x00010001, 1], Cap.root, 0, 0, 0, RedState.empty, []⟩ : Order), ⟨.bg 1 9 4, [0x10, 0x44010004, 300, 0x800, 0x1000, 0x1800, 0x00010001, 1], Cap.root, 0, 0, 0, RedState.empty, []⟩] })] } }).setFlag (fPAGE_CTRL_EN 0x120) true)).setFld (fPAN_CRCFGc_LOG2N 1) 4 |>.setFld (fPAN_CRBASEc 1) 0x40000 |>.setFld (fPAN_CRHEADc 1) 15 |>.wr64 rTICKNO 77 |>.setFld (fPAN_CRSTATc_RESV 1) 3) (1) ((⟨.bg 1 9 4, [0x10, 0x44010004, 300, 0x800, 0x1000, 0x810, 0x00010001, 1], Cap.root, 0, 0, 0, RedState.empty, []⟩ : Order)) ([⟨.bg 1 9 4, [0x10, 0x44010004, 300, 0x800, 0x1000, 0x1800, 0x00010001, 1], Cap.root, 0, 0, 0, RedState.empty, []⟩]) (1) (9) (4) (3)) ∧
  ((fun (s : State) (p : Fin 4) (f : StripFault) => (frozen s (panPg p.val) = true ∨ pageEn s 0x120 = false ∨ (panOf s p.val).run = none)) (State.reset) (1) (.residue)) ∧
  ((fun (s : State) (p : Fin 4) (o : Order) (f : StripFault) => (frozen s (panPg p.val) = false) ∧ (pageEn s 0x120 = true) ∧ ((panOf s p.val).run = some o) ∧ ((panOf s p.val).go = false) ∧ (StripWaits s o (panOf s p.val).first)) (((((({ State.reset with pan := { PanState.reset with pans := [(1, { Pan.empty with run := some ⟨.bg 1 9 4, [0x10, 0x44010004, 300, 0x800, 0x1000, 0x1800, 0x00010001, 1], Cap.root, 0, 0, 0, RedState.empty, []⟩ })] }, cry := { CryState.reset with tt := [(0x10, 0x90140104), (0, 0x80200606)] } }).setFlag (fPAGE_CTRL_EN 0x120) true)).setFld fCRY_STAT_NADMIT 1).setFld fCRY_PANPRE 0).wr64 rSL_FCYC 0x10000) (1) (⟨.bg 1 9 4, [0x10, 0x44010004, 300, 0x800, 0x1000, 0x1800, 0x00010001, 1], Cap.root, 0, 0, 0, RedState.empty, []⟩) (.none)) ∧
  ((fun (s : State) (p : Fin 4) (o : Order) (n : Nat) (a : Nat) (b : Nat) (d : Nat) => (RunsStrip s p.val o) ∧ (o.desc = addDesc p.val n a b d) ∧ (256 < n) ∧ (n ≤ 65536) ∧ (a % 2 = 0) ∧ (b % 2 = 0) ∧ (d % 2 = 0) ∧ (o.pos = 0) ∧ (o.done = 0) ∧ (o.coef = []) ∧ (o.cap.usable = true) ∧ (o.cap.perm pPAN = true) ∧ (Reach o.cap a) ∧ (Reach o.cap b) ∧ (Reach o.cap d) ∧ (storeGet (baseDispatch 0x10) s.pan.dispatch 0x10 = baseDispatch 0x10) ∧ (s.pan.csUe = []) ∧ (launchDead s o = false) ∧ ((panOf s p.val).yielding = false)) ((({ State.reset with pan := { PanState.reset with pans := [(1, { Pan.empty with run := some ⟨.bg 1 9 4, addDesc 1 300 0x800 0x1000 0xC00, Cap.root, 0, 0, 3, RedState.empty, []⟩ })] }, sal := { SalState.reset with mem := putList (putList (putList [] 0x1000 (bytesOfNat 8 0x7FFFFFFF00000005)) 0x2000 (bytesOfNat 8 0x00000001FFFFFFFE)) 0x1800 (bytesOfNat 4 7), tag := [(0x180, true), (0x1C0, true)] } }).setFlag (fPAGE_CTRL_EN 0x120) true)) (1) (⟨.bg 1 9 4, addDesc 1 300 0x800 0x1000 0xC00, Cap.root, 0, 0, 3, RedState.empty, []⟩) (300) (0x800) (0x1000) (0xC00)) :=
  ⟨by decide +kernel, by decide +kernel, by decide +kernel, by decide +kernel, by decide +kernel, by decide +kernel, by decide +kernel, by decide +kernel⟩
theorem test_met_PanOrders_4 :
  ((fun (s : State) (p : Fin 4) (o : Order) (n : Nat) (a : Nat) (b : Nat) (d : Nat) => (RunsStrip s p.val o) ∧ (o.desc = addDesc p.val n a b d) ∧ (256 < n) ∧ (n ≤ 65536) ∧ (a % 2 = 0) ∧ (b % 2 = 0) ∧ (d % 2 = 0) ∧ (o.pos = 0) ∧ (o.done = 0) ∧ (o.coef = []) ∧ (o.cap.usable = true) ∧ (o.cap.perm pPAN = true) ∧ (Reach o.cap a) ∧ (Reach o.cap b) ∧ (Reach o.cap d) ∧ (storeGet (baseDispatch 0x10) s.pan.dispatch 0x10 = baseDispatch 0x10) ∧ (s.pan.csUe = []) ∧ (o.launched = false) ∧ ((panOf s p.val).yielding = true)) ((({ State.reset with pan := { PanState.reset with pans := [(1, { Pan.empty with run := some ⟨.bg 1 9 4, addDesc 1 300 0x800 0x1000 0xC00, Cap.root, 0, 0, 3, RedState.empty, []⟩, yielding := true })] }, sal := { SalState.reset with mem := putList (putList (putList [] 0x1000 (bytesOfNat 8 0x7FFFFFFF00000005)) 0x2000 (bytesOfNat 8 0x00000001FFFFFFFE)) 0x1800 (bytesOfNat 4 7), tag := [(0x180, true), (0x1C0, true)] } }).setFlag (fPAGE_CTRL_EN 0x120) true)) (1) (⟨.bg 1 9 4, addDesc 1 300 0x800 0x1000 0xC00, Cap.root, 0, 0, 3, RedState.empty, []⟩) (300) (0x800) (0x1000) (0xC00)) ∧
  ((fun (s : State) (p : Fin 4) (o : Order) (n : Nat) (a : Nat) (b : Nat) (d : Nat) (l : Launch) (idx : Nat) => (RunsStrip s p.val o) ∧ (o.desc = addDesc p.val n a b d) ∧ (256 < n) ∧ (n ≤ 65536) ∧ (a % 2 = 0) ∧ (b % 2 = 0) ∧ (d % 2 = 0) ∧ (o.pos = 0) ∧ (o.done = 0) ∧ (o.coef = []) ∧ (o.cap.usable = true) ∧ (o.cap.perm pPAN = true) ∧ (Reach o.cap a) ∧ (Reach o.cap b) ∧ (Reach o.cap d) ∧ (storeGet (baseDispatch 0x10) s.pan.dispatch 0x10 = baseDispatch 0x10) ∧ (s.pan.csUe = []) ∧ (o.src = .launched l.ctx l.tick idx) ∧ (s.cry.launches = [l]) ∧ (l.dead = true) ∧ (1 < l.live) ∧ (o.flags < 64)) ((({ State.reset with pan := { PanState.reset with pans := [(1, { Pan.empty with run := some ⟨.launched 9 100 2, addDesc 1 65536 0x800 0x1000 0x800, Cap.root, 0, 0, 0, RedState.empty, []⟩, go := true })] }, sal := { SalState.reset with mem := putList (putList (putList [] 0x1000 (bytesOfNat 8 0x7FFFFFFF00000005)) 0x2000 (bytesOfNat 8 0x00000001FFFFFFFE)) 0x1800 (bytesOfNat 4 7) }, cry := { CryState.reset with launches := [{ (⟨9, 100, [0x00000010, 3, 0x3FC0, 0, 0, 0, 0x3000, 0, 0, 0, 0, 0, 0x00080010, 0x00FF, 0xABCD], ⟨1000000, 1000000, 1000000, 1000000, 1000000, 9000⟩, Cost.zero, 2, 2, false, false, false, 5⟩ : Launch) with dead := true, stopped := true }] } }).setFlag (fPAGE_CTRL_EN 0x120) true)) (1) (⟨.launched 9 100 2, addDesc 1 65536 0x800 0x1000 0x800, Cap.root, 0, 0, 0, RedState.empty, []⟩) (65536) (0x800) (0x1000) (0x800) ({ (⟨9, 100, [0x00000010, 3, 0x3FC0, 0, 0, 0, 0x3000, 0, 0, 0, 0, 0, 0x00080010, 0x00FF, 0xABCD], ⟨1000000, 1000000, 1000000, 1000000, 1000000, 9000⟩, Cost.zero, 2, 2, false, false, false, 5⟩ : Launch) with dead := true, stopped := true }) (2)) ∧
  ((fun (s : State) (p : Fin 4) (o : Order) (c : Nat) (k : Nat) (n : Nat) => (RunsStrip s p.val o) ∧ (LastStrip s o) ∧ (o.src = .bg c k n) ∧ (RingOk s c) ∧ (Silent s c o.desc) ∧ (endFlags s o < 64) ∧ (k < 2 ^ 16)) (((({ State.reset with pan := { PanState.reset with pans := [(1, { Pan.empty with run := some ⟨.bg 1 9 4, [0x10, 0x44010004, 300, 0x800, 0x1000, 0x1800, 0x00010001, 1], Cap.root, 256, 256, 0, RedState.empty, []⟩ })] } }).setFlag (fPAGE_CTRL_EN 0x120) true)).setFld (fPAN_CRCFGc_LOG2N 1) 4 |>.setFld (fPAN_CRBASEc 1) 0x40000 |>.setFld (fPAN_CRHEADc 1) 15 |>.wr64 rTICKNO 77 |>.setFld (fPAN_CRSTATc_RESV 1) 3) (1) (⟨.bg 1 9 4, [0x10, 0x44010004, 300, 0x800, 0x1000, 0x1800, 0x00010001, 1], Cap.root, 256, 256, 0, RedState.empty, []⟩) (1) (9) (4)) ∧
  ((fun (s : State) (p : Fin 4) (o : Order) (l : Launch) (idx : Nat) => (RunsStrip s p.val o) ∧ (LastStrip s o) ∧ (o.src = .launched l.ctx l.tick idx) ∧ (s.cry.launches = [l]) ∧ (1 < l.live) ∧ (endFlags s o < 64)) ((({ State.reset with pan := { PanState.reset with pans := [(1, { Pan.empty with run := some ⟨.launched 9 100 2, [0x10, 0x44010004, 300, 0x800, 0x1000, 0x1800, 0x00010001, 1], Cap.root, 256, 256, 2, RedState.empty, []⟩ })] }, cry := { CryState.reset with launches := [⟨9, 100, [0x00000010, 3, 0x3FC0, 0, 0, 0, 0x3000, 0, 0, 0, 0, 0, 0x00080010, 0x00FF, 0xABCD], ⟨1000000, 1000000, 1000000, 1000000, 1000000, 9000⟩, Cost.zero, 2, 2, false, false, false, 5⟩] } }).setFlag (fPAGE_CTRL_EN 0x120) true).setFld (fPANp_LFLAGS 1) 5) (1) (⟨.launched 9 100 2, [0x10, 0x44010004, 300, 0x800, 0x1000, 0x1800, 0x00010001, 1], Cap.root, 256, 256, 2, RedState.empty, []⟩) (⟨9, 100, [0x00000010, 3, 0x3FC0, 0, 0, 0, 0x3000, 0, 0, 0, 0, 0, 0x00080010, 0x00FF, 0xABCD], ⟨1000000, 1000000, 1000000, 1000000, 1000000, 9000⟩, Cost.zero, 2, 2, false, false, false, 5⟩) (2)) ∧
  ((fun (s : State) (p : Fin 4) (o : Order) (f : StripFault) (cause : Nat) (addr : Nat) (c : Nat) (k : Nat) (n : Nat) => (RunsStrip s p.val o) ∧ (StopsAt s o f cause addr) ∧ (o.src = .bg c k n) ∧ (c < 4) ∧ (RingOk s c) ∧ (Silent s c o.desc) ∧ (OrderOk o k)) (((({ State.reset with pan := { PanState.reset with pans := [(1, { Pan.empty with run := some ⟨.bg 1 9 4, [0x10, 0x44010004, 300, 0x800, 0x1000, 0x1800, 0x00010001, 1], Cap.root, 256, 256, 5, RedState.empty, []⟩ })] } }).setFlag (fPAGE_CTRL_EN 0x120) true)).setFld (fPAN_CRCFGc_LOG2N 1) 4 |>.setFld (fPAN_CRBASEc 1) 0x40000 |>.setFld (fPAN_CRHEADc 1) 15 |>.wr64 rTICKNO 77 |>.setFld (fPAN_CRSTATc_RESV 1) 3) (1) (⟨.bg 1 9 4, [0x10, 0x44010004, 300, 0x800, 0x1000, 0x1800, 0x00010001, 1], Cap.root, 256, 256, 5, RedState.empty, []⟩) (.residue) (8) (0) (1) (9) (4)) ∧
  ((fun (s : State) (p : Fin 4) (o : Order) (f : StripFault) (l : Launch) (idx : Nat) (cause : Nat) (addr : Nat) => (RunsStrip s p.val o) ∧ (StopsAt s o f cause addr) ∧ (o.src = .launched l.ctx l.tick idx) ∧ (idx < 1024) ∧ (OnlyLaunch s l) ∧ (queuedOf l.ctx l.tick s + 1 < l.live) ∧ (OrderOk o 0) ∧ (addr < 2 ^ 25)) ((({ State.reset with pan := { PanState.reset with pans := [(1, { Pan.empty with run := some ⟨.launched 9 100 2, [0x10, 0x44010004, 300, 0x800, 0x1000, 0x1800, 0x00010001, 1], Cap.root, 256, 256, 7, RedState.empty, []⟩ })] }, cry := { CryState.reset with ctx := [(9, { Ctx.free with st := .admitted, first := some 4, desc := [0x00000010, 2] })], launches := [⟨9, 100, [0x00000010, 3, 0x3FC0, 0, 0, 0, 0x3000, 0, 0, 0, 0, 0, 0x00080010, 0x00FF, 0xABCD], ⟨1000000, 1000000, 1000000, 1000000, 1000000, 9000⟩, Cost.zero, 2, 2, false, false, false, 5⟩] } }).setFlag (fPAGE_CTRL_EN 0x120) true)) (1) (⟨.launched 9 100 2, [0x10, 0x44010004, 300, 0x800, 0x1000, 0x1800, 0x00010001, 1], Cap.root, 256, 256, 7, RedState.empty, []⟩) (.residue) (⟨9, 100, [0x00000010, 3, 0x3FC0, 0, 0, 0, 0x3000, 0, 0, 0, 0, 0, 0x00080010, 0x00FF, 0xABCD], ⟨1000000, 1000000, 1000000, 1000000, 1000000, 9000⟩, Cost.zero, 2, 2, false, false, false, 5⟩) (2) (8) (0)) ∧
  ((fun (s : State) (p : Fin 4) (o : Order) (k : Fin 4) (a : BitVec 14) (y : BitVec 9) (c : Nat) (m : Nat) (n : Nat) => (RunsStrip s p.val o) ∧ (o.src = .bg c m n) ∧ (c < 4) ∧ (RingOk s c) ∧ (Silent s c o.desc) ∧ (OrderOk o m) ∧ (s.pan.csUe = []) ∧ (Reached s p.val o k.val a.toNat)) (((({ State.reset with pan := { PanState.reset with pans := [(1, { Pan.empty with run := some ⟨.bg 1 9 4, [0x10, 0x44010004, 300, 0x800, 0x1000, 0x1800, 0x00010001, 1], Cap.root, 256, 256, 5, RedState.empty, []⟩ })] } }).setFlag (fPAGE_CTRL_EN 0x120) true)).setFld (fPAN_CRCFGc_LOG2N 1) 4 |>.setFld (fPAN_CRBASEc 1) 0x40000 |>.setFld (fPAN_CRHEADc 1) 15 |>.wr64 rTICKNO 77 |>.setFld (fPAN_CRSTATc_RESV 1) 3) (1) (⟨.bg 1 9 4, [0x10, 0x44010004, 300, 0x800, 0x1000, 0x1800, 0x00010001, 1], Cap.root, 256, 256, 5, RedState.empty, []⟩) (0) (0x1FFF) (0x1A5) (1) (9) (4)) ∧
  ((fun (s : State) (p : Fin 4) (o : Order) (e : CsUe) (c : Nat) (m : Nat) (n : Nat) => (RunsStrip s p.val o) ∧ (o.src = .bg c m n) ∧ (c < 4) ∧ (RingOk s c) ∧ (Silent s c o.desc) ∧ (OrderOk o m) ∧ (csBad s o true = some e ∨ (csBad s o true = none ∧ csBad s o false = some e)) ∧ (e.pan < 4) ∧ (e.addr < 2 ^ 14) ∧ (e.synd < 2 ^ 9)) ((({ ((({ State.reset with pan := { PanState.reset with pans := [(1, { Pan.empty with run := some ⟨.bg 1 9 4, [0x10, 0x44010004, 300, 0x800, 0x1000, 0x1800, 0x00010001, 1], Cap.root, 256, 256, 5, RedState.empty, []⟩ })] } }).setFlag (fPAGE_CTRL_EN 0x120) true)).setFld (fPAN_CRCFGc_LOG2N 1) 4 |>.setFld (fPAN_CRBASEc 1) 0x40000 |>.setFld (fPAN_CRHEADc 1) 15 |>.wr64 rTICKNO 77 |>.setFld (fPAN_CRSTATc_RESV 1) 3 with pan := { (((({ State.reset with pan := { PanState.reset with pans := [(1, { Pan.empty with run := some ⟨.bg 1 9 4, [0x10, 0x44010004, 300, 0x800, 0x1000, 0x1800, 0x00010001, 1], Cap.root, 256, 256, 5, RedState.empty, []⟩ })] } }).setFlag (fPAGE_CTRL_EN 0x120) true)).setFld (fPAN_CRCFGc_LOG2N 1) 4 |>.setFld (fPAN_CRBASEc 1) 0x40000 |>.setFld (fPAN_CRHEADc 1) 15 |>.wr64 rTICKNO 77 |>.setFld (fPAN_CRSTATc_RESV 1) 3).pan with csUe := [⟨2, 9, 0x10, none, 3⟩, ⟨1, 0x3F10, 0x10, none, 7⟩] } }))) (1) (⟨.bg 1 9 4, [0x10, 0x44010004, 300, 0x800, 0x1000, 0x1800, 0x00010001, 1], Cap.root, 256, 256, 5, RedState.empty, []⟩) (⟨1, 0x3F10, 0x10, none, 7⟩) (1) (9) (4)) :=
  ⟨by decide +kernel, by decide +kernel, by decide +kernel, by decide +kernel, by decide +kernel, by decide +kernel, by decide +kernel, by decide +kernel⟩
theorem test_met_PanOrders_5 :
  ((fun (s : State) (p : Fin 4) (o : Order) (k : Fin 4) (a : BitVec 14) (y : BitVec 9) => (RunsStrip s p.val o) ∧ (¬ Reached s p.val o k.val a.toNat)) ((({ State.reset with pan := { PanState.reset with pans := [(1, { Pan.empty with run := some ⟨.launched 9 100 2, [0x40, 0x44000004, 300, 0x800, 0, 0x1800, 0x00010001, 1], Cap.root, 0, 0, 0, RedState.empty, []⟩, go := true })] }, cry := { CryState.reset with launches := [⟨9, 100, [0x00000010, 3, 0x3FC0, 0, 0, 0, 0x3000, 0, 0, 0, 0, 0, 0x00080010, 0x00FF, 0xABCD], ⟨1000000, 1000000, 1000000, 1000000, 1000000, 9000⟩, Cost.zero, 2, 2, false, false, false, 5⟩] } }).setFlag (fPAGE_CTRL_EN 0x120) true)) (1) (⟨.launched 9 100 2, [0x40, 0x44000004, 300, 0x800, 0, 0x1800, 0x00010001, 1], Cap.root, 0, 0, 0, RedState.empty, []⟩) (2) (0x1234) (0x1A5)) ∧
  ((fun (s : State) (p : Fin 4) (o : Order) (k : Fin 4) (a : BitVec 14) (y : BitVec 9) => (RunsStrip s p.val o) ∧ (¬ Reached s p.val o k.val a.toNat)) ((({ State.reset with pan := { PanState.reset with pans := [(1, { Pan.empty with run := some ⟨.launched 9 100 2, [0x40, 0x44000004, 300, 0x800, 0, 0x1800, 0x00010001, 1], Cap.root, 0, 0, 0, RedState.empty, []⟩, go := true })] }, cry := { CryState.reset with launches := [⟨9, 100, [0x00000010, 3, 0x3FC0, 0, 0, 0, 0x3000, 0, 0, 0, 0, 0, 0x00080010, 0x00FF, 0xABCD], ⟨1000000, 1000000, 1000000, 1000000, 1000000, 9000⟩, Cost.zero, 2, 2, false, false, false, 5⟩] } }).setFlag (fPAGE_CTRL_EN 0x120) true)) (1) (⟨.launched 9 100 2, [0x40, 0x44000004, 300, 0x800, 0, 0x1800, 0x00010001, 1], Cap.root, 0, 0, 0, RedState.empty, []⟩) (0) (0x2400) (0x1A5)) ∧
  ((fun (s : State) (p : Fin 4) (o : Order) (k : Fin 4) (a : BitVec 14) (y : BitVec 9) => (RunsStrip s p.val o) ∧ (o.launched = true) ∧ (launchDead s o = false) ∧ ((stripOf s o).fault = none) ∧ ((stripOf s o).writes = []) ∧ (stripEnd o < dLen o.desc) ∧ (csBad s o true = none) ∧ (csBad s o false = none) ∧ (∀ k ∈ dStages o.desc, (dispOf s (dOpc o.desc k)).isBase (dOpc o.desc k) = true) ∧ (dMen o.desc = false ∨ maxGroup (dispOf s) o.desc = 0) ∧ (Reached s p.val o k.val a.toNat)) ((({ State.reset with pan := { PanState.reset with pans := [(1, { Pan.empty with run := some ⟨.launched 9 100 2, [0x40, 0x44000004, 300, 0x800, 0, 0x1800, 0x00010001, 1], Cap.root, 0, 0, 0, RedState.empty, []⟩, go := true })] }, cry := { CryState.reset with launches := [⟨9, 100, [0x00000010, 3, 0x3FC0, 0, 0, 0, 0x3000, 0, 0, 0, 0, 0, 0x00080010, 0x00FF, 0xABCD], ⟨1000000, 1000000, 1000000, 1000000, 1000000, 9000⟩, Cost.zero, 2, 2, false, false, false, 5⟩] } }).setFlag (fPAGE_CTRL_EN 0x120) true)) (1) (⟨.launched 9 100 2, [0x40, 0x44000004, 300, 0x800, 0, 0x1800, 0x00010001, 1], Cap.root, 0, 0, 0, RedState.empty, []⟩) (0) (0x1234) (0x1A5)) :=
  ⟨by decide +kernel, by decide +kernel, by decide +kernel⟩
theorem test_met_PanControl_1 :
  ((fun (s : State) (p : Fin 4) (c : Fin 5) => (s.flag (fPANp_BGSTAT_HALT p.val) = false)) (State.reset) (1) (2)) ∧
  ((fun (s : State) (p : Fin 4) => (s.flag (fPANp_BGSTAT_HALT p.val) = false)) (State.reset) (1)) ∧
  ((fun (s : State) (p : Fin 4) => (s.flag (fPANp_BGSTAT_HALT p.val) = false)) (State.reset) (1)) ∧
  ((fun (s : State) (p : Fin 4) (c : Fin 5) (o : Order) => (Halted s p.val o) ∧ (c.val = 4 ∨ ¬ RoomIn s c.val ∨ (s.flag (fPANp_BGSTAT_TORN p.val) = true ∧ dAlias o.desc = true))) (((({ State.reset with pan := { PanState.reset with pans := [(1, { Pan.empty with held := some ⟨.bg 2 7 4, [0x10, 0x44010004, 300, 0x800, 0x1000, 0x1800, 0x00010001, 1], Cap.root, 0, 0, 4, RedState.empty, []⟩, bq := [⟨.bg 2 5 4, [0x10, 0x44010004, 300, 0x800, 0x1000, 0x1800, 0x00010001, 1], Cap.root, 0, 0, 0, RedState.empty, []⟩, ⟨.bg 2 6 4, [0x10, 0x44010004, 300, 0x800, 0x1000, 0x1800, 0x00010001, 1], Cap.root, 0, 0, 0, RedState.empty, []⟩] })] } }).setFlag (fPAGE_CTRL_EN 0x120) true)).setFld (fPAN_CRCFGc_LOG2N 1) 4 |>.setFld (fPAN_CRBASEc 1) 0x40000 |>.setFld (fPAN_CRHEADc 1) 15 |>.wr64 rTICKNO 77 |>.setFld (fPAN_CRSTATc_RESV 1) 3 |>.setFlag (fPANp_BGSTAT_HALT 1) true |>.setFld (fPANp_RSM_TICKET 1) 7 |>.setFld (fPANp_RSM_DONE 1) 256 |>.setFld (fPANp_RSM_FLAGS 1) 9 |>.setFld (fPANp_BGSTAT_CORE 1) 1) (1) (4) (⟨.bg 2 7 4, [0x10, 0x44010004, 300, 0x800, 0x1000, 0x1800, 0x00010001, 1], Cap.root, 0, 0, 4, RedState.empty, []⟩)) ∧
  ((fun (s : State) (p : Fin 4) (c : Fin 5) (o : Order) => (Halted s p.val o) ∧ (c.val < 4) ∧ (RoomIn s c.val) ∧ (s.flag (fPANp_BGSTAT_TORN p.val) = false ∨ dAlias o.desc = false)) (((({ State.reset with pan := { PanState.reset with pans := [(1, { Pan.empty with held := some ⟨.bg 2 7 4, [0x10, 0x44010004, 300, 0x800, 0x1000, 0x1800, 0x00010001, 1], Cap.root, 0, 0, 4, RedState.empty, []⟩, bq := [⟨.bg 2 5 4, [0x10, 0x44010004, 300, 0x800, 0x1000, 0x1800, 0x00010001, 1], Cap.root, 0, 0, 0, RedState.empty, []⟩, ⟨.bg 2 6 4, [0x10, 0x44010004, 300, 0x800, 0x1000, 0x1800, 0x00010001, 1], Cap.root, 0, 0, 0, RedState.empty, []⟩] })] } }).setFlag (fPAGE_CTRL_EN 0x120) true)).setFld (fPAN_CRCFGc_LOG2N 1) 4 |>.setFld (fPAN_CRBASEc 1) 0x40000 |>.setFld (fPAN_CRHEADc 1) 15 |>.wr64 rTICKNO 77 |>.setFld (fPAN_CRSTATc_RESV 1) 3 |>.setFlag (fPANp_BGSTAT_HALT 1) true |>.setFld (fPANp_RSM_TICKET 1) 7 |>.setFld (fPANp_RSM_DONE 1) 256 |>.setFld (fPANp_RSM_FLAGS 1) 9 |>.setFld (fPANp_BGSTAT_CORE 1) 1) (1) (1) (⟨.bg 2 7 4, [0x10, 0x44010004, 300, 0x800, 0x1000, 0x1800, 0x00010001, 1], Cap.root, 0, 0, 4, RedState.empty, []⟩)) ∧
  ((fun (s : State) (p : Fin 4) (c : Fin 4) (o : Order) => (Halted s p.val o) ∧ (s.fld (fPANp_BGSTAT_CORE p.val) = c.val) ∧ (RoomIn s c.val) ∧ (RingOk s c.val) ∧ (Silent s c.val o.desc)) (((({ State.reset with pan := { PanState.reset with pans := [(1, { Pan.empty with held := some ⟨.bg 2 7 4, [0x10, 0x44010004, 300, 0x800, 0x1000, 0x1800, 0x00010001, 1], Cap.root, 0, 0, 4, RedState.empty, []⟩, bq := [⟨.bg 2 5 4, [0x10, 0x44010004, 300, 0x800, 0x1000, 0x1800, 0x00010001, 1], Cap.root, 0, 0, 0, RedState.empty, []⟩, ⟨.bg 2 6 4, [0x10, 0x44010004, 300, 0x800, 0x1000, 0x1800, 0x00010001, 1], Cap.root, 0, 0, 0, RedState.empty, []⟩] })] } }).setFlag (fPAGE_CTRL_EN 0x120) true)).setFld (fPAN_CRCFGc_LOG2N 1) 4 |>.setFld (fPAN_CRBASEc 1) 0x40000 |>.setFld (fPAN_CRHEADc 1) 15 |>.wr64 rTICKNO 77 |>.setFld (fPAN_CRSTATc_RESV 1) 3 |>.setFlag (fPANp_BGSTAT_HALT 1) true |>.setFld (fPANp_RSM_TICKET 1) 7 |>.setFld (fPANp_RSM_DONE 1) 256 |>.setFld (fPANp_RSM_FLAGS 1) 9 |>.setFld (fPANp_BGSTAT_CORE 1) 1) (1) (1) (⟨.bg 2 7 4, [0x10, 0x44010004, 300, 0x800, 0x1000, 0x1800, 0x00010001, 1], Cap.root, 0, 0, 4, RedState.empty, []⟩)) ∧
  ((fun (s : State) (p : Fin 4) (c : Fin 4) (o : Order) => (Halted s p.val o) ∧ (s.fld (fPANp_BGSTAT_CORE p.val) = c.val) ∧ (¬ RoomIn s c.val)) (((({ State.reset with pan := { PanState.reset with pans := [(1, { Pan.empty with held := some ⟨.bg 2 7 4, [0x10, 0x44010004, 300, 0x800, 0x1000, 0x1800, 0x00010001, 1], Cap.root, 0, 0, 4, RedState.empty, []⟩, bq := [⟨.bg 2 5 4, [0x10, 0x44010004, 300, 0x800, 0x1000, 0x1800, 0x00010001, 1], Cap.root, 0, 0, 0, RedState.empty, []⟩, ⟨.bg 2 6 4, [0x10, 0x44010004, 300, 0x800, 0x1000, 0x1800, 0x00010001, 1], Cap.root, 0, 0, 0, RedState.empty, []⟩] })] } }).setFlag (fPAGE_CTRL_EN 0x120) true)).setFld (fPAN_CRCFGc_LOG2N 1) 4 |>.setFld (fPAN_CRBASEc 1) 0x40000 |>.setFld (fPAN_CRHEADc 1) 15 |>.wr64 rTICKNO 77 |>.setFld (fPAN_CRSTATc_RESV 1) 3 |>.setFlag (fPANp_BGSTAT_HALT 1) true |>.setFld (fPANp_RSM_TICKET 1) 7 |>.setFld (fPANp_RSM_DONE 1) 256 |>.setFld (fPANp_RSM_FLAGS 1) 9 |>.setFld (fPANp_BGSTAT_CORE 1) 1 |>.setUnread 1 13) (1) (1) (⟨.bg 2 7 4, [0x10, 0x44010004, 300, 0x800, 0x1000, 0x1800, 0x00010001, 1], Cap.root, 0, 0, 4, RedState.empty, []⟩)) ∧
  ((fun (s : State) (p : Fin 4) (c : Fin 4) (m : Fin 4) (o : Order) (x : Order) (k : Nat) (n : Nat) => (Halted s p.val o) ∧ (s.fld (fPANp_BGSTAT_CORE p.val) = c.val) ∧ (RoomIn s c.val) ∧ (RingOk s c.val) ∧ (recordAt s c.val + 32 ≤ salSize) ∧ (Silent s c.val o.desc) ∧ ((panOf s p.val).bq = [x]) ∧ (x.src = .bg m.val k n) ∧ (m ≠ c) ∧ (RingOk s m.val) ∧ (Silent s m.val x.desc) ∧ (OrderOk x k) ∧ (recordAt s c.val + 16 ≤ recordAt s m.val ∨ recordAt s m.val + 16 ≤ recordAt s c.val) ∧ (salKeysApart s (recordAt s c.val) (recordAt s m.val))) (((({ State.reset with pan := { PanState.reset with pans := [(1, { Pan.empty with held := some ⟨.bg 2 7 4, [0x10, 0x44010004, 300, 0x800, 0x1000, 0x1800, 0x00010001, 1], Cap.root, 0, 0, 4, RedState.empty, []⟩, bq := [⟨.bg 2 5 4, [0x10, 0x44010004, 300, 0x800, 0x1000, 0x1800, 0x00010001, 1], Cap.root, 0, 0, 0, RedState.empty, []⟩] })] } }).setFlag (fPAGE_CTRL_EN 0x120) true)).setFld (fPAN_CRCFGc_LOG2N 1) 4 |>.setFld (fPAN_CRBASEc 1) 0x40000 |>.setFld (fPAN_CRHEADc 1) 15 |>.wr64 rTICKNO 77 |>.setFld (fPAN_CRSTATc_RESV 1) 3 |>.setFlag (fPANp_BGSTAT_HALT 1) true |>.setFld (fPANp_RSM_TICKET 1) 7 |>.setFld (fPANp_RSM_DONE 1) 256 |>.setFld (fPANp_RSM_FLAGS 1) 9 |>.setFld (fPANp_BGSTAT_CORE 1) 1 |>.setFld (fPAN_CRCFGc_LOG2N 2) 12 |>.setFld (fPAN_CRSTATc_RESV 2) 1) (1) (1) (2) (⟨.bg 2 7 4, [0x10, 0x44010004, 300, 0x800, 0x1000, 0x1800, 0x00010001, 1], Cap.root, 0, 0, 4, RedState.empty, []⟩) (⟨.bg 2 5 4, [0x10, 0x44010004, 300, 0x800, 0x1000, 0x1800, 0x00010001, 1], Cap.root, 0, 0, 0, RedState.empty, []⟩) (5) (4)) :=
  ⟨by decide +kernel, by decide +kernel, by decide +kernel, by decide +kernel, by decide +kernel, by decide +kernel, by decide +kernel, by decide +kernel⟩
theorem test_met_PanControl_2 :
  ((fun (s : State) (p : Fin 4) (o : Order) => (Halted s p.val o) ∧ ((panOf s p.val).bq = []) ∧ (¬ RoomIn s (s.fld (fPANp_BGSTAT_CORE p.val)))) ((({ State.reset with pan := { PanState.reset with pans := [(1, { Pan.empty with held := some ⟨.bg 2 7 4, [0x10, 0x44010004, 300, 0x800, 0x1000, 0x1800, 0x00010001, 1], Cap.root, 0, 0, 4, RedState.empty, []⟩ })] } }).setFlag (fPAGE_CTRL_EN 0x120) true).setFlag (fPANp_BGSTAT_HALT 1) true) (1) (⟨.bg 2 7 4, [0x10, 0x44010004, 300, 0x800, 0x1000, 0x1800, 0x00010001, 1], Cap.root, 0, 0, 4, RedState.empty, []⟩)) ∧
  ((fun (s : State) (n : Fin 4) (cfg : Bool) (v : Word) => (ringUnread s n.val ≠ 0 ∨ ringResv s n.val ≠ 0)) (State.reset.setUnread 3 1) (3) (true) (5)) ∧
  ((fun (s : State) (n : Fin 4) (v : Word) => (ringUnread s n.val = 0) ∧ (ringResv s n.val = 0)) (State.reset) (3) (0xFFFFFFFF)) ∧
  ((fun (s : State) (n : Fin 4) (v : Word) => (ringUnread s n.val = 0) ∧ (ringResv s n.val = 0)) (State.reset) (3) (0xFFFFFFFF)) ∧
  ((fun (s : State)  => (locked s 0x120 = false) ∧ (pageEn s 0x120 = true) ∧ (nadmit s ≠ 0)) ((State.reset.setFld fCRY_STAT_NADMIT 2).setFlag (fPAGE_CTRL_EN 0x120) true) ) ∧
  ((fun (s : State) (on : Bool) => (locked s 0x120 = false) ∧ (on = true ∨ pageEn s 0x120 = false ∨ nadmit s = 0)) (State.reset) (true)) ∧
  ((fun (s : State) (on : Bool) => (locked s 0x120 = true) ∧ (on ≠ pageEn s 0x120)) (State.reset.setFlag (fPAGE_LOCK_LOCK 0x120) true) (true)) ∧
  ((fun (s : State)  => (nadmit s ≠ 0)) (State.reset.setFld fCRY_STAT_NADMIT 1) ) :=
  ⟨by decide +kernel, by decide +kernel, by decide +kernel, by decide +kernel, by decide +kernel, by decide +kernel, by decide +kernel, by decide +kernel⟩
theorem test_met_PanControl_3 :
  ((fun (s : State)  => (nadmit s = 0)) (State.reset) ) ∧
  ((fun (s : State)  => (frozen s 0x128 = true ∨ s.flag fPCS_CTRL_PATCHEN = false ∨ (∃ q : Fin 4, ¬ IdlePan s q.val))) ((({ State.reset with pan := { PanState.reset with pans := [(1, { Pan.empty with run := some ⟨.launched 9 100 2, [0x0101, 0x44000065, 300, 0x800, 0, 0x1800, 0x00010001, 1], Cap.root, 0, 0, 0, RedState.empty, []⟩ })] } }).setFlag (fPAGE_CTRL_EN 0x120) true).setFlag fPCS_CTRL_PATCHEN true) ) ∧
  ((fun (s : State)  => (frozen s 0x128 = false) ∧ (s.flag fPCS_CTRL_PATCHEN = true) ∧ (∀ q : Fin 4, IdlePan s q.val)) (State.reset.setFlag fPCS_CTRL_PATCHEN true) ) ∧
  ((fun (s : State)  => (s.flag fPCS_CTRL_PATCHEN = false)) (State.reset) ) ∧
  ((fun (s : State)  => (s.flag fPCS_CTRL_PATCHEN = true)) (({ State.reset with pan := { PanState.reset with dispatch := [(0x80, DispEnt.none)] } }).setFlag fPCS_CTRL_PATCHEN true |>.setFlag fPCS_STAT_QUIET true |>.setFld fPCS_PATCHID 0xBEEF |>.setFlag fCRY_STAT_TTVALID true) ) ∧
  ((fun (s : State) (j : Fin 4) (v : Word) => (j ≠ 3)) (State.reset) (2) (7)) ∧
  ((fun (s : State) (v : Word) => (¬ (s.flag fPCS_CTRL_PATCHEN = true ∧ s.flag fPCS_STAT_QUIET = true))) (State.reset.setFlag fPCS_CTRL_PATCHEN true) (7)) ∧
  ((fun (s : State) (v : Word) => (s.flag fPCS_CTRL_PATCHEN = true ∧ s.flag fPCS_STAT_QUIET = true)) (({ State.reset with pan := { PanState.reset with pdata := [(0, 1), (1, 0xFFFFFFFF), (2, 3)], csUe := [⟨1, 0x23FF, 3, none, 4⟩, ⟨2, 0x2000, 3, none, 4⟩] } }).setFlag fPCS_CTRL_PATCHEN true |>.setFlag fPCS_STAT_QUIET true |>.setFld fPCS_PADDR 1023) (0x80000001)) :=
  ⟨by decide +kernel, by decide +kernel, by decide +kernel, by decide +kernel, by decide +kernel, by decide +kernel, by decide +kernel, by decide +kernel⟩
theorem test_met_PanControl_4 :
  ((fun (s : State) (v : Word) => (¬ (s.flag fPCS_CTRL_PATCHEN = true ∧ s.flag fPCS_STAT_QUIET = true) ∨ s.fld fPCS_DIDX = 0)) (State.reset.setFlag fPCS_CTRL_PATCHEN true |>.setFlag fPCS_STAT_QUIET true) (7)) ∧
  ((fun (s : State) (v : Word) => (s.flag fPCS_CTRL_PATCHEN = true ∧ s.flag fPCS_STAT_QUIET = true) ∧ (s.fld fPCS_DIDX ≠ 0)) (({ State.reset with pan := { PanState.reset with ddata0 := 0x2345, csUe := [⟨0, 0x3F80, 3, none, 4⟩] } }).setFlag fPCS_CTRL_PATCHEN true |>.setFlag fPCS_STAT_QUIET true |>.setFld fPCS_DIDX 0x80) (0x9A0F1300)) ∧
  ((fun (s : State) (v : Word) => (¬ (s.flag fPCS_CTRL_PATCHEN = true ∧ s.flag fPCS_STAT_QUIET = true))) (State.reset) (7)) ∧
  ((fun (s : State) (v : Word) => (s.flag fPCS_CTRL_PATCHEN = true ∧ s.flag fPCS_STAT_QUIET = true)) (State.reset.setFlag fPCS_CTRL_PATCHEN true |>.setFlag fPCS_STAT_QUIET true) (0xABCD1234)) :=
  ⟨by decide +kernel, by decide +kernel, by decide +kernel, by decide +kernel⟩

end Sys2Proof.Tests
end

section
/-!
PROOFS. Register pages (R32 to R45, R568 to R571): what the writes of register pages do, and the statements RegisterWrites,
PageHeaders and ResetValues.
-/

namespace Sys2Proof.Machine
open Sys2Proof Sys2Proof.Claims

/-! The state after reset (R44). -/

/-- After reset a register reads as its table's reset value: the register file lists no word. -/
theorem rd_reset (k : Nat) : State.reset.rd k = regDflt k := rfl

theorem rd_reset_words : ∀ e ∈ resetWords, State.reset.rd e.1 = e.2 := by
  simp only [rd_reset]; decide +kernel

theorem fld_reset_fields : ∀ e ∈ resetFields, State.reset.fld e.1 = e.2 := by
  simp only [State.fld, rd_reset]; decide +kernel

theorem rd_reset_GTn_RELOAD : ∀ n : Fin 32, State.reset.rd (rGTn_RELOAD n.val) = 0xFFFFFFFF := by
  simp only [rd_reset]; decide +kernel

theorem flag_reset_EGg_CTRL_GEN : ∀ g : Fin 16, State.reset.flag (fEGg_CTRL_GEN g.val) = true := by
  simp only [State.flag, State.fld, rd_reset]; decide +kernel

theorem flag_reset_PANp_CTRL_RUN : ∀ p : Fin 4, State.reset.flag (fPANp_CTRL_RUN p.val) = true := by
  simp only [State.flag, State.fld, rd_reset]; decide +kernel

theorem flag_reset_BLn_CTRL_AUTOTRAIN : ∀ n : Fin 64, State.reset.flag (fBLn_CTRL_AUTOTRAIN n.val) = true := by
  simp only [State.flag, State.fld, rd_reset]; decide +kernel

theorem rd_reset_EPn_CTRL : ∀ n : Fin 4, State.reset.rd (rEPn_CTRL n.val) = 7 := by
  simp only [rd_reset]; decide +kernel

theorem panOf_reset (p : Nat) : panOf State.reset p = Pan.empty := rfl
theorem ctxOf_reset (n : Nat) : ctxOf State.reset n = Ctx.free := rfl
theorem canonical_reset : State.reset.canonical = true := rfl

/-! A write that reaches a page (R36, R41). -/

theorem natOfBytes_bytesOfNat (n v : Nat) : natOfBytes (bytesOfNat n v) = v % 256 ^ n := by
  induction n generalizing v with
  | zero => simp [natOfBytes, bytesOfNat, Nat.mod_one]
  | succ n ih =>
    rw [bytesOfNat, natOfBytes, ih, BitVec.toNat_ofNat, pow_succ' 256 n]
    exact Nat.mod_mul.symm

/-- The four bytes of a word spell the word. -/
theorem ofNat_bytes_word (v : Word) : BitVec.ofNat 32 (natOfBytes (bytesOfNat 4 v.toNat)) = v := by
  rw [natOfBytes_bytesOfNat, Nat.mod_eq_of_lt (by have := v.isLt; omega), BitVec.ofNat_toNat, BitVec.setWidth_eq]

theorem pageWidthOk_word (pg off : Nat) (h : off % 4 = 0) : pageWidthOk pg off 4 = true := by simp [pageWidthOk, h]

/-- An aligned word written to an allocated page reaches the page. -/
theorem busWrite_word (d : Die) (dbg : Bool) (m addr : Nat) {pg off : Nat} (v : Word) (s : State)
    (hk : pageKind pg ≠ .none) (ho : off % 4 = 0) :
    busWrite d dbg m addr pg off (bytesOfNat 4 v.toNat) s = pageWrite dbg (coreOfPort m) pg off v s := by
  have hl : (bytesOfNat 4 v.toNat).length = 4 := rfl
  simp only [busWrite, hl, hk, pageWidthOk_word pg off ho, ofNat_bytes_word]
  simp

/-- The host writes the pages of `mayWrite`. -/
theorem hostWrites_of_mayWrite {pg : Nat} (h : mayWrite .H pg) : hostWrites (0x1000 + pg) = true := by
  simp only [hostWrites, Nat.add_sub_cancel_left, Bool.or_eq_true, Bool.and_eq_true, decide_eq_true_eq, beq_iff_eq]
  simp only [mayWrite, reduceCtorEq, false_or] at h
  omega

/-- The same from outside the cores, by a master that may write the page. -/
theorem regWriteRow_eq {d : Die} {pg off : Nat} (v : Word) (s : State) (hm : mayWrite d pg)
    (hk : pageKind (pageOf d pg) ≠ .none) (ho : off % 4 = 0) :
    regWriteRow d pg off v s = pageWrite true 0 (pageOf d pg) off v s := by
  cases d with
  | F => exact busWrite_word .F true 82 _ v s hk ho
  | H =>
    simp only [regWriteRow, hostWrites_of_mayWrite hm, Bool.true_eq_false, and_false, if_false]
    exact busWrite_word .H true 0 _ v s hk ho

/-! The MSI-X table (R38, R421). -/

/-- Outside the words of vector control a word of the MSI-X table holds what is written. -/
theorem msixWord_msixWrite_self (w : Nat) (x : Word) (s : State) (hw : w % 4 ≠ 3) : msixWord (msixWrite w x s) w = x := by
  simp only [msixWrite, hw, false_and, if_false, msixWord, State.qeSet, storeGet_storeSet_self]

theorem regWriteRow_msix (off : Nat) (v : Word) (s : State) (ho : off % 4 = 0) :
    regWriteRow .H 0x12 off v s = msixWrite (off / 4) v s :=
  regWriteRow_eq (d := .H) v s (by decide) (by decide) ho

/-- Word 4 of every page is masked as an EV_PEND, all of whose bits are W1C: on the MSI-X table's page too, whose words have
no W1C bits. -/
theorem sameCycle_word4 (d : Die) (pg : Nat) (set v : Word) : sameCycle d pg 0x10 set v = v &&& ~~~set := by
  have hw : ∀ p, BitVec.ofNat 32 (w1cMask (p * 1024 + 0x10 / 4)) = BitVec.allOnes 32 := fun p => by
    have h4 : (p * 1024 + 0x10 / 4) % 1024 = 4 := by omega
    rw [w1cMask, if_neg (by omega), if_pos h4]
    decide
  simp only [sameCycle, hw, BitVec.and_allOnes]

/-! The fields of a register (R6), bit by bit. -/

/-- Bit `i` of the register lies in the field. -/
def FieldD.covers (f : FieldD) (i : Nat) : Bool := decide (f.lo ≤ i) && decide (i < f.lo + f.width)

theorem FieldD.covers_iff {f : FieldD} {i : Nat} : f.covers i = true ↔ f.lo ≤ i ∧ i < f.lo + f.width := by
  simp only [FieldD.covers, Bool.and_eq_true, decide_eq_true_eq]

/-- The two fields share no bit. -/
abbrev FieldD.apart (f g : FieldD) : Prop := f.lo + f.width ≤ g.lo ∨ g.lo + g.width ≤ f.lo

/-- The field in which bit `i` lies; the statements spell it out. -/
def fieldAt (l : List FieldD) (i : Nat) : Option FieldD :=
  l.find? fun f => decide (f.lo ≤ i) && decide (i < f.lo + f.width)

theorem fieldAt_cons_of_covers {f : FieldD} (l : List FieldD) {i : Nat} (h : f.covers i = true) :
    fieldAt (f :: l) i = some f := List.find?_cons_of_pos h

theorem fieldAt_cons_of_not_covers {f : FieldD} (l : List FieldD) {i : Nat} (h : f.covers i = false) :
    fieldAt (f :: l) i = fieldAt l i := List.find?_cons_of_neg (by simpa [FieldD.covers] using h)

theorem covers_of_fieldAt {l : List FieldD} {i : Nat} {f : FieldD} (h : fieldAt l i = some f) : f.covers i = true :=
  List.find?_some (p := fun f : FieldD => f.covers i) h

theorem mem_of_fieldAt {l : List FieldD} {i : Nat} {f : FieldD} (h : fieldAt l i = some f) : f ∈ l :=
  List.mem_of_find?_eq_some h

theorem not_covers_of_apart {f g : FieldD} {i : Nat} (hd : f.apart g) (h : f.covers i = true) : g.covers i = false := by
  rw [Bool.eq_false_iff, Ne, FieldD.covers_iff]
  rw [FieldD.covers_iff] at h
  simp only [FieldD.apart] at hd
  omega

/-- Of fields that share no bit, one at most covers a bit. -/
theorem fieldAt_eq_none {f : FieldD} {l : List FieldD} {i : Nat} (hd : ∀ g ∈ l, f.apart g) (h : f.covers i = true) :
    fieldAt l i = none :=
  List.find?_eq_none.2 fun g hg => by
    have := not_covers_of_apart (hd g hg) h
    simpa [FieldD.covers] using this

theorem fieldAt_of_covers {l : List FieldD} {f : FieldD} {i : Nat} (hl : l.Pairwise FieldD.apart) (hf : f ∈ l)
    (h : f.covers i = true) : fieldAt l i = some f := by
  induction l with
  | nil => cases hf
  | cons g l ih =>
    obtain ⟨hg, hl⟩ := List.pairwise_cons.1 hl
    rcases List.mem_cons.1 hf with rfl | hf
    · exact fieldAt_cons_of_covers l h
    · have hgf : g.covers i = false := not_covers_of_apart (Or.symm (hg f hf)) h
      rw [fieldAt_cons_of_not_covers l hgf, ih hl hf]

/-- How the fields of a table's register lie: in words, apart, within 64 bits, no W1C field Retained. -/
abbrev RegD.laid (r : RegD) : Prop :=
  r.off % 4 = 0 ∧ (r.n = 1 ∨ r.stride % 4 = 0) ∧ r.flds.Pairwise FieldD.apart ∧
  ∀ f ∈ r.flds, f.lo + f.width ≤ 64 ∧ (f.retained = true → f.acc ≠ .w1c)

theorem regTable_laid : ∀ r ∈ regTable, r.laid := by decide +kernel

theorem regAt_laid {pg off : Nat} {r : RegD} (h : regAt pg off = some r) : r.laid :=
  regTable_laid r (List.mem_of_find?_eq_some h)

/-- A word of a register is its low or its high half. -/
theorem part_of_regAt {pg off : Nat} {r : RegD} (h : regAt pg off = some r) (ho : off % 4 = 0) :
    r.part off = 0 ∨ r.part off = 4 := by
  obtain ⟨hoff, hstride, -, -⟩ := regAt_laid h
  have hh : r.holds pg off = true := List.find?_some (p := fun r : RegD => r.holds pg off) h
  simp only [RegD.holds, Bool.and_eq_true, decide_eq_true_eq] at hh
  obtain ⟨⟨-, hle⟩, hwithin⟩ := hh
  simp only [RegD.part]
  split at hwithin
  · next h1 =>
    rw [if_pos h1]
    simp only [decide_eq_true_eq] at hwithin
    split at hwithin <;> omega
  · next h1 =>
    rw [if_neg h1]
    simp only [Bool.and_eq_true, decide_eq_true_eq] at hwithin
    have h4 : (off - r.off) % r.stride % 4 = 0 := by
      rw [Nat.mod_mod_of_dvd _ (Nat.dvd_of_mod_eq_zero (hstride.resolve_left h1))]
      omega
    have hlt := hwithin.2
    split at hlt <;> omega

/-! The bits of words made of fields. -/

theorem testBit_add_of_and_eq_zero {a b : Nat} (i : Nat) (h : a &&& b = 0) :
    (a + b).testBit i = (a.testBit i || b.testBit i) := by
  have hz : BitVec.ofNat (i + 1) a &&& BitVec.ofNat (i + 1) b = 0#(i + 1) := by rw [← BitVec.ofNat_and, h]
  have hi := congrArg (fun x => x.getLsbD i) (BitVec.add_eq_or_of_and_eq_zero _ _ hz)
  simpa only [← BitVec.ofNat_add, BitVec.getLsbD_or, BitVec.getLsbD_ofNat, Nat.lt_succ_self, decide_true, Bool.true_and]
    using hi

/-- One field's contribution to a sum of fields. -/
theorem testBit_fieldPart (f : FieldD) (x i : Nat) :
    (x % 2 ^ f.width * 2 ^ f.lo).testBit i = (f.covers i && x.testBit (i - f.lo)) := by
  rw [Nat.testBit_mul_two_pow, Nat.testBit_mod_two_pow, FieldD.covers]
  by_cases h : f.lo ≤ i
  · have : i - f.lo < f.width ↔ i < f.lo + f.width := by omega
    simp [h, this]
  · simp [h]

/-- A sum of fields that share no bit holds each field's bits where the field lies. -/
theorem testBit_sumFields (v : FieldD → Nat) (i : Nat) {l : List FieldD} (hl : l.Pairwise FieldD.apart) (a : Nat)
    (ha : ∀ f ∈ l, ∀ j, f.covers j = true → a.testBit j = false) :
    (l.foldl (fun a f => a + v f % 2 ^ f.width * 2 ^ f.lo) a).testBit i =
      match fieldAt l i with
      | some f => (v f).testBit (i - f.lo)
      | none => a.testBit i := by
  induction l generalizing a with
  | nil => rfl
  | cons f l ih =>
    obtain ⟨hf, hl⟩ := List.pairwise_cons.1 hl
    have hadd : ∀ j, (a + v f % 2 ^ f.width * 2 ^ f.lo).testBit j =
        (a.testBit j || (f.covers j && (v f).testBit (j - f.lo))) := by
      intro j
      rw [testBit_add_of_and_eq_zero, testBit_fieldPart]
      apply Nat.eq_of_testBit_eq
      intro k
      rw [Nat.testBit_and, testBit_fieldPart, Nat.zero_testBit]
      cases hk : f.covers k with
      | false => simp
      | true => simp [ha f List.mem_cons_self k hk]
    rw [List.foldl_cons, ih hl]
    · cases hi : f.covers i with
      | true => simp [fieldAt_eq_none hf hi, fieldAt_cons_of_covers l hi, hadd, hi, ha f List.mem_cons_self i hi]
      | false => simp only [fieldAt_cons_of_not_covers l hi, hadd, hi, Bool.false_and, Bool.or_false]
    · intro g hg j hj
      have hfj : f.covers j = false := not_covers_of_apart (Or.symm (hf g hg)) hj
      rw [hadd, ha g (List.mem_cons_of_mem f hg) j hj, hfj]; rfl

theorem testBit_wordOfFields {r : RegD} (hr : r.laid) (part : Nat) (v : FieldD → Nat) {b : Nat} (hb : b < 32) :
    (wordOfFields r part v).testBit b =
      match fieldAt r.flds (8 * part + b) with
      | some f => (v f).testBit (8 * part + b - f.lo)
      | none => false := by
  obtain ⟨-, -, hl, -⟩ := hr
  rw [wordOfFields, Nat.testBit_mod_two_pow, Nat.testBit_div_two_pow, Nat.add_comm b,
    testBit_sumFields v _ hl 0 (fun _ _ j _ => Nat.zero_testBit j)]
  simp only [hb, decide_true, Bool.true_and, Nat.zero_testBit]

section
variable {key : Nat} {r : RegD} {b : Nat} (hr : regAt (key / 1024) (key % 1024 * 4) = some r) (hb : b < 32)
include hr hb

/-- A bit of a mask of fields is set when the bit's field is one of them. -/
theorem testBit_fieldMask (p : FieldD → Bool) :
    (fieldMask key p).testBit b =
      match fieldAt r.flds (8 * r.part (key % 1024 * 4) + b) with
      | some f => p f
      | none => false := by
  simp only [fieldMask, hr]
  rw [testBit_wordOfFields (regAt_laid hr) _ _ hb]
  split
  · next f hf =>
    obtain ⟨hlo, hhi⟩ := FieldD.covers_iff.1 (covers_of_fieldAt hf)
    cases p f with
    | true =>
      have hlt : 8 * r.part (key % 1024 * 4) + b - f.lo < f.width := by omega
      simp [Nat.testBit_two_pow_sub_one, hlt]
    | false => exact Nat.zero_testBit _
  · rfl

/-- A bit of the reset value of a word that no rule computes is that of its field's. -/
theorem getLsbD_regDflt (hk : pageKind (key / 1024) = .regs) (ho : 16 ≤ key % 1024) (hs : resetSpecial key = none) :
    (regDflt key).getLsbD b =
      match fieldAt r.flds (8 * r.part (key % 1024 * 4) + b) with
      | some f => f.rst.testBit (8 * r.part (key % 1024 * 4) + b - f.lo)
      | none => false := by
  have h0 : ¬ key % 1024 * 4 = 0 := by omega
  have h1 : ¬ key % 1024 * 4 < 0x40 := by omega
  simp only [regDflt, hk, ne_eq, not_true_eq_false, if_false, h0, h1, hs, hr]
  rw [BitVec.getLsbD_ofNat, testBit_wordOfFields (regAt_laid hr) _ _ hb]
  simp [hb]

end

/-- The bit of a field after a write of `v` under the field's access code (R6, R571). -/
def codeBit (f : FieldD) (sh : Nat) (lock : Bool) (old v : Word) (b : Nat) : Bool :=
  match f.acc with
  | .rw => v.getLsbD b
  | .rwl => if lock then old.getLsbD b else v.getLsbD b
  | .w1c => old.getLsbD b && !v.getLsbD b
  | .rwz | .roz => old.getLsbD b && (List.range 32).any fun i => f.covers (sh + i) && v.getLsbD i
  | _ => old.getLsbD b

/-- The bits of a word that come from the field `f`: from `f.lo - sh` on, `wd` of them. -/
theorem covers_iff_word {f : FieldD} {sh : Nat} (hsh : sh = 0 ∨ sh = 32) (hf : f.lo + f.width ≤ 64)
    (hin : ¬ (f.lo + f.width ≤ sh ∨ sh + 32 ≤ f.lo)) :
    let wd := min f.width (if f.lo < sh then f.width - (sh - f.lo) else 32 - (f.lo - sh))
    f.lo - sh + wd ≤ 32 ∧
      ∀ i, i < 32 → (f.covers (sh + i) = true ↔ f.lo - sh ≤ i ∧ i < f.lo - sh + wd) := by
  simp only [FieldD.covers_iff]
  refine ⟨?_, fun i hi => ?_⟩ <;> split <;> omega

theorem bitsGet_eq_zero_iff {x : Word} {lo wd : Nat} :
    bitsGet x lo wd = 0 ↔ ∀ i, lo ≤ i → i < lo + wd → x.getLsbD i = false := by
  constructor
  · intro h i hlo hhi
    have hbit := testBit_bitsGet x lo wd (i - lo)
    rw [h, Nat.zero_testBit, Nat.add_sub_cancel' hlo, BitVec.testBit_toNat] at hbit
    have : i - lo < wd := by omega
    simpa [this] using hbit.symm
  · intro h
    apply Nat.eq_of_testBit_eq
    intro i
    rw [testBit_bitsGet, BitVec.testBit_toNat, Nat.zero_testBit]
    by_cases hi : i < wd
    · simp [h (lo + i) (by omega) (by omega)]
    · simp [hi]

/-- A bit inside the field that was set. -/
theorem getLsbD_bitsSet_in {x : Word} {lo wd v i : Nat} (h : lo + wd ≤ 32) (hlo : lo ≤ i) (hhi : i < lo + wd) :
    (bitsSet x lo wd v).getLsbD i = v.testBit (i - lo) := by
  have hbit := testBit_bitsGet (bitsSet x lo wd v) lo wd (i - lo)
  rw [bitsGet_bitsSet_self x lo wd v h, Nat.add_sub_cancel' hlo, BitVec.testBit_toNat, Nat.testBit_mod_two_pow] at hbit
  have : i - lo < wd := by omega
  simpa [this] using hbit.symm

theorem getLsbD_bitsSet_out {x : Word} {lo wd v i : Nat} (h : lo + wd ≤ 32) (hi : i < lo ∨ lo + wd ≤ i) :
    (bitsSet x lo wd v).getLsbD i = x.getLsbD i := by
  rw [← BitVec.testBit_toNat, testBit_bitsSet x lo wd v i h hi, BitVec.testBit_toNat]

/-- Fields that do not cover the bit leave it as it is. -/
theorem foldl_getLsbD_of_not_covers {g : Word → FieldD → Word} {i b : Nat} {l : List FieldD}
    (hg : ∀ w, ∀ f ∈ l, f.covers i = false → (g w f).getLsbD b = w.getLsbD b) (hl : ∀ f ∈ l, f.covers i = false)
    (w : Word) : (l.foldl g w).getLsbD b = w.getLsbD b := by
  induction l generalizing w with
  | nil => rfl
  | cons f l ih =>
    rw [List.foldl_cons, ih (fun w f hf => hg w f (List.mem_cons_of_mem _ hf)) (fun f hf => hl f (List.mem_cons_of_mem _ hf))]
    exact hg w f List.mem_cons_self (hl f List.mem_cons_self)

/-- Fields written one after another: a bit takes what its own field makes of it. -/
theorem foldl_fieldAt {g : Word → FieldD → Word} {new : FieldD → Bool} {i b : Nat} {old : Word} {l : List FieldD}
    (hl : l.Pairwise FieldD.apart)
    (hout : ∀ w, ∀ f ∈ l, f.covers i = false → (g w f).getLsbD b = w.getLsbD b)
    (hin : ∀ w, ∀ f ∈ l, f.covers i = true → w.getLsbD b = old.getLsbD b → (g w f).getLsbD b = new f)
    (w : Word) (hw : w.getLsbD b = old.getLsbD b) :
    (l.foldl g w).getLsbD b = match fieldAt l i with
      | some f => new f
      | none => old.getLsbD b := by
  induction l generalizing w with
  | nil => exact hw
  | cons f l ih =>
    obtain ⟨hf, hl⟩ := List.pairwise_cons.1 hl
    have hout' := fun w f hf => hout w f (List.mem_cons_of_mem _ hf)
    rw [List.foldl_cons]
    cases hi : f.covers i with
    | false =>
      rw [fieldAt_cons_of_not_covers l hi]
      exact ih hl hout' (fun w f hf => hin w f (List.mem_cons_of_mem _ hf)) _ ((hout w f List.mem_cons_self hi).trans hw)
    | true =>
      rw [fieldAt_cons_of_covers l hi, foldl_getLsbD_of_not_covers hout' fun h hh => not_covers_of_apart (hf h hh) hi]
      exact hin w f List.mem_cons_self hi hw

/-- The bits of `x` that are not set in `y`. -/
theorem testBit_land_compl {x y wd i : Nat} (hy : y < 2 ^ wd) (hi : i < wd) :
    (Nat.land x (2 ^ wd - 1 - y)).testBit i = (x.testBit i && !y.testBit i) := by
  rw [Nat.sub_sub, Nat.add_comm 1]
  exact (Nat.testBit_and x _ i).trans (by simp [Nat.testBit_two_pow_sub_succ hy, hi])

/-- A field written 0 has no bit set within the word. -/
theorem bitsGet_eq_zero_iff_any {f : FieldD} {sh wd : Nat} {v : Word} (hfit : f.lo - sh + wd ≤ 32)
    (hcov : ∀ i, i < 32 → (f.covers (sh + i) = true ↔ f.lo - sh ≤ i ∧ i < f.lo - sh + wd)) :
    bitsGet v (f.lo - sh) wd = 0 ↔ ((List.range 32).any fun i => f.covers (sh + i) && v.getLsbD i) = false := by
  simp only [bitsGet_eq_zero_iff, List.any_eq_false, List.mem_range, Bool.and_eq_true, not_and, Bool.not_eq_true]
  exact ⟨fun h i hi hc => h i ((hcov i hi).1 hc).1 ((hcov i hi).1 hc).2,
    fun h i hlo hhi => h i (by omega) ((hcov i (by omega)).2 ⟨hlo, hhi⟩)⟩

/-- A write under the access codes, bit by bit (R6, R571). -/
theorem getLsbD_writeFields {key : Nat} {r : RegD} {b : Nat} (hr : regAt (key / 1024) (key % 1024 * 4) = some r)
    (hb : b < 32) (lock : Bool) (old v : Word) :
    (writeFields key lock old v).getLsbD b =
      match fieldAt r.flds (8 * r.part (key % 1024 * 4) + b) with
      | some f => codeBit f (8 * r.part (key % 1024 * 4)) lock old v b
      | none => old.getLsbD b := by
  obtain ⟨-, -, hl, hfld⟩ := regAt_laid hr
  have hsh : 8 * r.part (key % 1024 * 4) = 0 ∨ 8 * r.part (key % 1024 * 4) = 32 := by
    have := part_of_regAt hr (by omega); omega
  simp only [writeFields, hr]
  generalize 8 * r.part (key % 1024 * 4) = sh at hsh
  refine foldl_fieldAt hl (fun w f hf hc => ?_) (fun w f hf hc hw => ?_) old rfl
  · split
    · rfl
    · next hskip =>
      obtain ⟨hfit, hcov⟩ := covers_iff_word hsh (hfld f hf).1 hskip
      generalize min f.width _ = wd at hfit hcov ⊢
      have hb' := mt (hcov b hb).2 (by simp [hc])
      have hset : ∀ x, (bitsSet w (f.lo - sh) wd x).getLsbD b = w.getLsbD b :=
        fun x => getLsbD_bitsSet_out hfit (by omega)
      cases f.acc <;> simp only [hset, apply_ite (fun x : Word => x.getLsbD b), ite_self]
  · have hskip : ¬ (f.lo + f.width ≤ sh ∨ sh + 32 ≤ f.lo) := by have := FieldD.covers_iff.1 hc; omega
    rw [if_neg hskip]
    obtain ⟨hfit, hcov⟩ := covers_iff_word hsh (hfld f hf).1 hskip
    generalize min f.width _ = wd at hfit hcov ⊢
    obtain ⟨hlo, hhi⟩ := (hcov b hb).1 hc
    have hset : ∀ x, (bitsSet w (f.lo - sh) wd x).getLsbD b = x.testBit (b - (f.lo - sh)) :=
      fun x => getLsbD_bitsSet_in hfit hlo hhi
    have hget : ∀ x : Word, (bitsGet x (f.lo - sh) wd).testBit (b - (f.lo - sh)) = x.getLsbD b := fun x => by
      rw [testBit_bitsGet, Nat.add_sub_cancel' hlo, BitVec.testBit_toNat]
      simp [show b - (f.lo - sh) < wd by omega]
    have hclear : (if bitsGet v (f.lo - sh) wd = 0 then bitsSet w (f.lo - sh) wd 0 else w).getLsbD b =
        (old.getLsbD b && (List.range 32).any fun i => f.covers (sh + i) && v.getLsbD i) := by
      rw [apply_ite (fun x : Word => x.getLsbD b), hset, hw, Nat.zero_testBit]
      split
      · next hz => rw [(bitsGet_eq_zero_iff_any hfit hcov).1 hz, Bool.and_false]
      · next hz => rw [Bool.eq_true_of_not_eq_false (mt (bitsGet_eq_zero_iff_any hfit hcov).2 hz), Bool.and_true]
    unfold codeBit
    cases f.acc with
    | rw => exact (hset _).trans (hget v)
    | rwl =>
      cases lock with
      | true => exact hw
      | false => exact (hset _).trans (hget v)
    | w1c =>
      have hv : bitsGet v (f.lo - sh) wd < 2 ^ wd := by unfold bitsGet; exact Nat.mod_lt _ (Nat.two_pow_pos wd)
      exact (hset _).trans (by rw [testBit_land_compl hv (by omega), hget, hget])
    | rwz | roz => exact hclear
    | ro | w1s | wo => exact hw

/-! RST of a register word (R569). -/

/-- What RST makes of a bit of field `f`. -/
def rstCode (f : FieldD) (sh : Nat) (old : Word) (b : Nat) : Bool :=
  if f.retained then old.getLsbD b
  else if f.acc = .rw ∨ f.acc = .rwl then natBit f.rst (sh + b - f.lo)
  else if f.acc = .w1c ∨ f.acc = .rwz then false
  else old.getLsbD b

theorem rstBit_eq (r : RegD) (sh : Nat) (old : Word) (b : Nat) :
    rstBit r sh old b = match fieldAt r.flds (sh + b) with
      | none => old.getLsbD b
      | some f => rstCode f sh old b := rfl

/-- A field that RST does not act on keeps its value. -/
theorem rstCode_of_not_acts {f : FieldD} (sh : Nat) (old : Word) (b : Nat)
    (h : (!f.retained && (isWritable f || isW1c f || decide (f.acc = .rwz))) = false) :
    rstCode f sh old b = old.getLsbD b := by
  unfold rstCode
  unfold isWritable isW1c at h
  cases hret : f.retained with
  | true => rfl
  | false => cases hacc : f.acc <;> simp_all

section
variable {key : Nat} {r : RegD} {b : Nat} (hr : regAt (key / 1024) (key % 1024 * 4) = some r) (hb : b < 32)
include hr hb

/-- Where RST acts on no field of the word, a bit keeps its value. -/
theorem rstBit_of_not_acts (old : Word) (h : rstActs key = false) :
    rstBit r (8 * r.part (key % 1024 * 4)) old b = old.getLsbD b := by
  have hz : fieldMask key (fun f => !f.retained && (isWritable f || isW1c f || decide (f.acc = .rwz))) = 0 := by
    simpa [rstActs] using h
  have hm := testBit_fieldMask hr hb fun f => !f.retained && (isWritable f || isW1c f || decide (f.acc = .rwz))
  rw [hz, Nat.zero_testBit] at hm
  rw [rstBit_eq]
  cases hf : fieldAt r.flds (8 * r.part (key % 1024 * 4) + b) with
  | none => rfl
  | some f =>
    rw [hf] at hm
    exact rstCode_of_not_acts _ _ _ hm.symm

/-- The word that RST writes, bit by bit. -/
theorem getLsbD_rstWord {f : FieldD} (s : State) (hf : fieldAt r.flds (8 * r.part (key % 1024 * 4) + b) = some f) :
    (rstWord s key).getLsbD b =
      ((regDflt key).getLsbD b && (isWritable f && !f.retained) || (s.rd key).getLsbD b && f.retained ||
        (isW1c f || isRoz f)) := by
  have hm : ∀ p, (fieldMask key p).testBit b = p f := fun p => by rw [testBit_fieldMask hr hb p, hf]
  simp only [rstWord]
  rw [BitVec.getLsbD_ofNat, decide_eq_true hb, Bool.true_and]
  simp only [show ∀ x y, Nat.lor x y = x ||| y from fun _ _ => rfl, show ∀ x y, Nat.land x y = x &&& y from fun _ _ => rfl,
    Nat.testBit_or, Nat.testBit_and, hm, BitVec.testBit_toNat]

/-- RST writes a counter 0 unless it is Retained, and then its own value: such a counter is cleared only where it is 0. -/
theorem rst_clears_counter {f : FieldD} (s : State) (hf : fieldAt r.flds (8 * r.part (key % 1024 * 4) + b) = some f)
    (hacc : f.acc = .rwz) :
    ((s.rd key).getLsbD b &&
      (List.range 32).any fun i => f.covers (8 * r.part (key % 1024 * 4) + i) && (rstWord s key).getLsbD i) =
      ((s.rd key).getLsbD b && f.retained) := by
  have hv : ∀ i < 32, f.covers (8 * r.part (key % 1024 * 4) + i) = true →
      (rstWord s key).getLsbD i = ((s.rd key).getLsbD i && f.retained) := fun i hi hc => by
    have hfi := fieldAt_of_covers (regAt_laid hr).2.2.1 (mem_of_fieldAt hf) hc
    simp [getLsbD_rstWord hr hi s hfi, isWritable, isW1c, isRoz, hacc]
  cases hret : f.retained with
  | false =>
    have hnone : (List.range 32).any (fun i => f.covers (8 * r.part (key % 1024 * 4) + i) && (rstWord s key).getLsbD i) =
        false := by
      simp only [List.any_eq_false, List.mem_range, Bool.and_eq_true, not_and, Bool.not_eq_true]
      exact fun i hi hc => by rw [hv i hi hc, hret, Bool.and_false]
    rw [hnone]
  | true =>
    cases ho : (s.rd key).getLsbD b with
    | false => rfl
    | true =>
      exact List.any_eq_true.2 ⟨b, List.mem_range.2 hb, by
        rw [hv b hb (covers_of_fieldAt hf), covers_of_fieldAt hf, ho, hret]; rfl⟩

/-- RST at an unlocked word, bit by bit. -/
theorem getLsbD_rst (s : State) (hk : pageKind (key / 1024) = .regs) (ho : 16 ≤ key % 1024)
    (hs : resetSpecial key = none) :
    (writeFields key false (s.rd key) (rstWord s key)).getLsbD b =
      rstBit r (8 * r.part (key % 1024 * 4)) (s.rd key) b := by
  rw [getLsbD_writeFields hr hb, rstBit_eq]
  have hd := getLsbD_regDflt hr hb hk ho hs
  cases hf : fieldAt r.flds (8 * r.part (key % 1024 * 4) + b) with
  | none => rfl
  | some f =>
    rw [hf] at hd
    have hw := getLsbD_rstWord hr hb s hf
    have hw1c := ((regAt_laid hr).2.2.2 f (mem_of_fieldAt hf)).2
    have hc := covers_of_fieldAt hf
    dsimp only at hd ⊢
    unfold codeBit rstCode
    unfold isWritable isW1c isRoz at hw
    rw [hd] at hw
    cases hacc : f.acc with
    | rw | rwl =>
      rw [hacc] at hw
      cases hret : f.retained <;> simp [hw, hret, natBit_eq_testBit]
    | w1c =>
      rw [hacc] at hw
      have hret : f.retained = false := by simpa using mt hw1c (by simp [hacc])
      simp [hw, hret]
    | rwz =>
      have := rst_clears_counter hr hb s hf hacc
      cases hret : f.retained <;> simp [this, hret]
    | roz =>
      rw [hacc] at hw
      have hany : (List.range 32).any (fun i => f.covers (8 * r.part (key % 1024 * 4) + i) &&
          (rstWord s key).getLsbD i) = true :=
        List.any_eq_true.2 ⟨b, List.mem_range.2 hb, by simp [hc, hw]⟩
      simp [hany]
    | ro | w1s | wo => simp

end

/-! Writes that change nothing but registers. -/

/-- `t` differs from `s` in its registers at most. -/
def OnlyRegs (s t : State) : Prop := ∃ r, t = { s with regs := r }

theorem OnlyRegs.refl (s : State) : OnlyRegs s s := ⟨s.regs, rfl⟩
theorem OnlyRegs.trans {s t u : State} (h : OnlyRegs s t) (g : OnlyRegs t u) : OnlyRegs s u := by
  obtain ⟨r, rfl⟩ := h
  obtain ⟨r', rfl⟩ := g
  exact ⟨r', rfl⟩
theorem onlyRegs_wr (s : State) (k : Nat) (v : Word) : OnlyRegs s (s.wr k v) := ⟨_, rfl⟩
theorem OnlyRegs.kept {s t : State} (h : OnlyRegs s t) : Kept s t := by
  obtain ⟨r, rfl⟩ := h
  exact ⟨rfl, rfl, rfl, rfl, rfl, rfl, rfl, rfl, rfl, rfl, rfl, rfl, rfl, rfl, rfl, rfl, rfl, rfl, rfl, rfl, rfl⟩
theorem OnlyRegs.noEvents {s t : State} (h : OnlyRegs s t) : NoEvents s t := by
  obtain ⟨r, rfl⟩ := h
  exact ⟨rfl, rfl, rfl, rfl, rfl⟩

theorem regs_wr (s : State) (k : Nat) (v : Word) : Claims.Regs s (s.wr k v) [k] :=
  fun _ hj => rd_wr_ne s v (by simpa using hj)

/-- A register write changes its word and nothing else. -/
theorem wr_alone (s : State) (k : Nat) (v : Word) :
    (s.wr k v).rd k = v ∧ Claims.Regs s (s.wr k v) [k] ∧ NoEvents s (s.wr k v) ∧ Kept s (s.wr k v) :=
  ⟨rd_wr_self s k v, regs_wr s k v, (onlyRegs_wr s k v).noEvents, (onlyRegs_wr s k v).kept⟩

/-- Setting a flag changes it, and of the rest its word at most. -/
theorem setFlag_alone (s : State) (k : Nat) {i : Nat} (b : Bool) (hi : i + 1 ≤ 32) :
    (s.setFlag ⟨k, i, 1⟩ b).flag ⟨k, i, 1⟩ = b ∧ Claims.Regs s (s.setFlag ⟨k, i, 1⟩ b) [k] ∧
      NoEvents s (s.setFlag ⟨k, i, 1⟩ b) ∧ Kept s (s.setFlag ⟨k, i, 1⟩ b) :=
  ⟨flag_setFlag_self s ⟨k, i, 1⟩ b hi rfl, regs_wr s k _, (onlyRegs_wr s k _).noEvents, (onlyRegs_wr s k _).kept⟩

/-! The pages whose offsets have no behaviour of their own. -/

/-- The pages of registers, of those that the rows' masters may write, without an offset of its own behaviour. -/
abbrev plainPage (p : Nat) : Prop :=
  p = 0 ∨ p = 0x111 ∨ p = 0x120 ∨ p = 0x128 ∨ p = 0x131 ∨ (0x144 ≤ p ∧ p ≤ 0x147) ∨ p = 0x1010

/-- The F-die's pages of registers (R34). -/
theorem pageKind_regs_F {p : Nat} (hk : pageKind p = .regs) (hlt : p < 0x1000) :
    p = 0 ∨ (0x10 ≤ p ∧ p ≤ 0x12) ∨ (0x20 ≤ p ∧ p ≤ 0x4F) ∨ (0x80 ≤ p ∧ p ≤ 0x101) ∨ (0x110 ≤ p ∧ p ≤ 0x112) ∨
    (0x120 ≤ p ∧ p ≤ 0x125) ∨ p = 0x128 ∨ p = 0x129 ∨ p = 0x130 ∨ p = 0x131 ∨ (0x140 ≤ p ∧ p ≤ 0x147) ∨ p = 0x150 ∨
    (0x160 ≤ p ∧ p ≤ 0x162) ∨ p = 0x16F ∨ p = 0x170 ∨ p = 0x180 := by
  simp only [pageKind, ite_eq_iff, reduceCtorEq, and_true, and_false, false_or, or_false] at hk
  omega

theorem plainPage_of {d : Die} {pg : Nat} (hm : mayWrite d pg) (hk : pageKind (pageOf d pg) = .regs)
    (ho : ¬ ownPage (pageOf d pg)) (hlt : pg < 0x1000) : plainPage (pageOf d pg) := by
  cases d with
  | F =>
    have := pageKind_regs_F hk hlt
    dsimp only [pageOf] at this ho ⊢
    unfold plainPage
    omega
  | H =>
    simp only [mayWrite, reduceCtorEq, false_or] at hm
    simp only [pageKind, ite_eq_iff, reduceCtorEq, and_true, and_false, false_or, or_false] at hk
    dsimp only [pageOf] at hk ho ⊢
    unfold plainPage
    omega

section
variable {p w : Nat} (hp : plainPage p) (hw : w < 1008)
include hp hw

/-- A key of such a page is none of another page. -/
theorem plainKey_ne {k : Nat} (hk : ¬ plainPage (k / 1024)) : (p * 1024 + (64 + 4 * w) / 4 = k) = False := by
  rw [eq_iff_iff, iff_false]
  intro h
  rw [← h, show (p * 1024 + (64 + 4 * w) / 4) / 1024 = p by omega] at hk
  exact hk hp

theorem plainKey_not_between {k j : Nat} (hk : ¬ plainPage (k / 1024)) (hj : j / 1024 = k / 1024) :
    (k ≤ p * 1024 + (64 + 4 * w) / 4 ∧ p * 1024 + (64 + 4 * w) / 4 ≤ j) = False := by
  rw [eq_iff_iff, iff_false]
  rintro ⟨h1, h2⟩
  rw [show k / 1024 = p by omega] at hk
  exact hk hp

theorem isStaging_plainPage : isStaging (p * 1024 + (64 + 4 * w) / 4) = false := by
  rw [Bool.eq_false_iff]
  simp (disch := decide) only [isStaging, ne_eq, Bool.or_eq_true, Bool.and_eq_true, decide_eq_true_eq, beq_iff_eq,
    plainKey_ne hp hw, plainKey_not_between hp hw, or_self, not_false_eq_true]

theorem rstRefused_plainPage (s : State) : rstRefused s p (64 + 4 * w) = false := by
  simp (disch := decide) only [rstRefused, plainKey_ne hp hw, plainKey_not_between hp hw, or_self, if_false]
  unfold plainPage at hp
  simp (disch := omega) only [if_neg]

theorem cryWrite_plainPage (v : Word) (s : State) :
    cryWrite p (64 + 4 * w) v s = plainWrite (p * 1024 + (64 + 4 * w) / 4) v s := by
  simp (disch := decide) only [cryWrite, plainKey_ne hp hw, if_false]
  unfold plainPage at hp
  rw [if_neg (by omega)]

theorem panWrite_plainPage (core : Nat) (v : Word) (s : State) :
    panWrite core p (64 + 4 * w) v s = plainWrite (p * 1024 + (64 + 4 * w) / 4) v s := by
  simp (disch := decide) only [panWrite, plainKey_ne hp hw, if_false]
  unfold plainPage at hp
  rw [if_neg (by omega), if_neg (by omega), if_neg (by omega)]

theorem salRegWrite_plainPage (v : Word) (s : State) :
    salRegWrite p (64 + 4 * w) v s = plainWrite (p * 1024 + (64 + 4 * w) / 4) v s := by
  simp (disch := decide) only [salRegWrite, plainKey_ne hp hw, if_false]
  unfold plainPage at hp
  rw [if_neg (by omega)]

/-- On such a page every write is one under the access codes. -/
theorem blockWrite_plainPage (core : Nat) (v : Word) (s : State) :
    blockWrite core p (64 + 4 * w) v s = plainWrite (p * 1024 + (64 + 4 * w) / 4) v s := by
  have hkey : ∀ k, ¬ plainPage (k / 1024) → ¬ p * 1024 + (64 + 4 * w) / 4 = k := fun k hk => (plainKey_ne hp hw hk).mp
  unfold blockWrite
  dsimp only
  rw [cryWrite_plainPage hp hw, panWrite_plainPage hp hw, salRegWrite_plainPage hp hw,
    if_neg (hkey rPWR_MODE (by decide)), if_neg (hkey rBWCTL (by decide)), if_neg (hkey rRST_CTRL (by decide)),
    if_neg (hkey rFC_CTRL (by decide)), if_neg (hkey rSEC_CTRL (by decide)), if_neg (hkey rPL_CTRL (by decide)),
    if_neg (hkey rPT_STEP (by decide)), if_neg (hkey rHP_CTRL (by decide)), if_neg (hkey rPN_CTRL (by decide))]
  unfold plainPage at hp
  unfold pnPg
  clear hkey
  rw [if_neg (by omega), if_neg (by omega), if_neg (by omega), if_neg (by omega), if_neg (by omega), if_neg (by omega)]
  iterate 3
    split
    · rfl
  iterate 4 rw [if_neg (by omega)]

/-- What RST does at one word. -/
theorem rstOne_plainPage (s t : State) :
    rstOne s p (64 + 4 * w) t =
      if rstActs (p * 1024 + (64 + 4 * w) / 4) = false then t
      else plainWrite (p * 1024 + (64 + 4 * w) / 4) (rstWord s (p * 1024 + (64 + 4 * w) / 4)) t := by
  simp only [rstOne, rstRefused_plainPage hp hw, isStaging_plainPage hp hw, Bool.false_eq_true, if_false,
    blockWrite_plainPage hp hw]

end

/-! RST of such a page (R569). -/

/-- What RST leaves in an unlocked word. -/
def rstRead (s : State) (k : Nat) : Word :=
  if rstActs k = false then s.rd k else writeFields k false (s.rd k) (rstWord s k)

/-- Where a word's bits are not held, a write changes that word alone. -/
theorem plainWrite_unheld {k : Nat} {t : State} (v : Word) (h : lockHeld t (k / 1024) = false) :
    plainWrite k v t = t.wr k (writeFields k false (t.rd k) v) := by
  simp only [plainWrite, h, Bool.false_and, Bool.false_eq_true, if_false]

theorem lockHeld_of_rd {s t : State} (p : Nat) (h : ∀ k, k % 1024 < 16 → t.rd k = s.rd k) :
    lockHeld t p = lockHeld s p := by
  simp only [lockHeld, locked, pageEn]
  rw [flag_of_rd (fPAGE_LOCK_LOCK p) (h _ (by simp only [fPAGE_LOCK_LOCK, rPAGE_LOCK]; omega)),
    flag_of_rd (fPAGE_CTRL_EN p) (h _ (by simp only [fPAGE_CTRL_EN, rPAGE_CTRL]; omega))]

/-- From `t` to `u` RST has acted on the block words `l` of page `p`, as it does in state `s`, and on nothing else. -/
structure RstDone (p : Nat) (s t u : State) (l : List Nat) : Prop where
  only : OnlyRegs t u
  inside : ∀ w ∈ l, u.rd (p * 1024 + 16 + w) = rstRead s (p * 1024 + 16 + w)
  outside : ∀ k, (∀ w ∈ l, k ≠ p * 1024 + 16 + w) → u.rd k = t.rd k

/-- RST at one word, of a state that holds the word as `s` does. -/
theorem rstDone_rstOne {p w : Nat} (hp : plainPage p) (hw : w < 1008) {s t : State}
    (ht : t.rd (p * 1024 + 16 + w) = s.rd (p * 1024 + 16 + w)) (hlk : lockHeld t p = false) :
    RstDone p s t (rstOne s p (64 + 4 * w) t) [w] := by
  have hkey : p * 1024 + (64 + 4 * w) / 4 = p * 1024 + 16 + w := by omega
  have hpage : (p * 1024 + 16 + w) / 1024 = p := by omega
  rw [rstOne_plainPage hp hw, hkey]
  split
  · next ha =>
    refine ⟨OnlyRegs.refl t, ?_, fun _ _ => rfl⟩
    rw [List.forall_mem_singleton, rstRead, if_pos ha, ht]
  · next ha =>
    rw [plainWrite_unheld _ (by rw [hpage, hlk])]
    refine ⟨onlyRegs_wr _ _ _, ?_, fun k hk => rd_wr_ne _ _ (hk w List.mem_cons_self)⟩
    rw [List.forall_mem_singleton, rstRead, if_neg ha, rd_wr_self, ht]

/-- RST word by word, from a state that holds the words still to come as `s` does. -/
theorem rstDone_foldl {p : Nat} (hp : plainPage p) (s : State) {l : List Nat} (hl : l.Nodup) (hw : ∀ w ∈ l, w < 1008)
    (t : State) (ht : ∀ w ∈ l, t.rd (p * 1024 + 16 + w) = s.rd (p * 1024 + 16 + w)) (hlk : lockHeld t p = false) :
    RstDone p s t (l.foldl (fun t w => rstOne s p (64 + 4 * w) t) t) l := by
  induction l generalizing t with
  | nil => exact ⟨OnlyRegs.refl t, nofun, fun _ _ => rfl⟩
  | cons w l ih =>
    obtain ⟨hwl, hl⟩ := List.nodup_cons.1 hl
    obtain ⟨hw0, hw⟩ := List.forall_mem_cons.1 hw
    obtain ⟨ht0, ht⟩ := List.forall_mem_cons.1 ht
    have hfirst := rstDone_rstOne hp hw0 ht0 hlk
    have hne : ∀ x ∈ l, p * 1024 + 16 + x ≠ p * 1024 + 16 + w := fun x hx h => hwl (by rwa [show w = x by omega])
    have hfirstOut : ∀ k, k ≠ p * 1024 + 16 + w → (rstOne s p (64 + 4 * w) t).rd k = t.rd k :=
      fun k hk => hfirst.outside k (by simpa using hk)
    have hrest := ih hl hw _ (fun x hx => (hfirstOut _ (hne x hx)).trans (ht x hx))
      ((lockHeld_of_rd p fun k hk => hfirstOut k (by omega)).trans hlk)
    refine ⟨hfirst.only.trans hrest.only, List.forall_mem_cons.2 ⟨?_, hrest.inside⟩, fun k hk => ?_⟩
    · exact (hrest.outside _ fun x hx => (hne x hx).symm).trans (hfirst.inside w List.mem_cons_self)
    · obtain ⟨hk0, hk⟩ := List.forall_mem_cons.1 hk
      exact (hrest.outside k hk).trans (hfirstOut k hk0)

/-- The words whose reset value a rule computes. -/
def specialKeys : List Nat :=
  [rSYS_ID, rH_SYS_ID, rSYS_LOT, rSYS_LOT + 1, rH_SYS_LOT, rH_SYS_LOT + 1, rSAL_COLFUSE, rRATE_LIMIT, rCRY_ACAP, rCRY_SCAP,
    rCRY_GRACE, rSEC_STAT, rSEC_OTPSTAT, rSEC_DEVID, rSEC_DEVID + 1]

theorem resetSpecial_eq_none {k : Nat} (h : ∀ j ∈ specialKeys, k ≠ j) : resetSpecial k = none := by
  simp only [specialKeys, List.forall_mem_cons, List.not_mem_nil, false_implies, implies_true, and_true] at h
  simp only [resetSpecial, h, if_false]

/-- On a plain page RST acts on no such word: those of SYS_ID and SYS_LOT are read only. -/
theorem resetSpecial_plainPage {k : Nat} (hp : plainPage (k / 1024)) (h : rstActs k = true) : resetSpecial k = none := by
  have hnot : ∀ j ∈ specialKeys, ¬ plainPage (j / 1024) ∨ rstActs j = false := by decide +kernel
  apply resetSpecial_eq_none
  rintro j hj rfl
  rcases hnot k hj with hpage | hacts
  · exact hpage hp
  · exact Bool.false_ne_true (hacts.symm.trans h)

/-- RST of an unlocked page. -/
theorem pageReset_pageRst {p : Nat} (hp : plainPage p) (hk : pageKind p = .regs) (s : State) (hlk : locked s p = false)
    (hheld : lockHeld s p = false) : PageReset s (pageRst p s) p := by
  have hmem : ∀ w, w ∈ (List.range 1008).filter (fun i => (regAt p (64 + 4 * i)).isSome) ↔
      w < 1008 ∧ (regAt p (64 + 4 * w)).isSome = true := fun w => by rw [List.mem_filter, List.mem_range]
  obtain ⟨hOnly, hIn, hOut⟩ := rstDone_foldl hp s (List.nodup_range.filter _) (fun w hw => ((hmem w).1 hw).1) s
    (fun _ _ => rfl) hheld
  have hrst : pageRst p s = ((List.range 1008).filter fun i => (regAt p (64 + 4 * i)).isSome).foldl
      (fun t i => rstOne s p (64 + 4 * i) t) s := by simp only [pageRst, hlk, Bool.false_eq_true, if_false]
  rw [hrst]
  refine ⟨fun w b => ?_, fun k hk => hOut k fun w hw => ?_, hOnly.noEvents, hOnly.kept⟩
  · have hpg : (p * 1024 + 16 + w.val) / 1024 = p := by omega
    have hoff : (p * 1024 + 16 + w.val) % 1024 * 4 = 64 + 4 * w.val := by omega
    cases hr : regAt p (64 + 4 * w.val) with
    | none =>
      rw [hOut]
      intro x hx hxw
      have := ((hmem x).1 hx).2
      rw [show x = w.val by omega, hr] at this
      exact absurd this (by decide)
    | some r =>
      have hr' : regAt ((p * 1024 + 16 + w.val) / 1024) ((p * 1024 + 16 + w.val) % 1024 * 4) = some r := by
        rw [hpg, hoff, hr]
      rw [hIn _ ((hmem _).2 ⟨w.isLt, by rw [hr]; rfl⟩), rstRead]
      dsimp only
      rw [← hoff]
      split
      · next ha => exact (rstBit_of_not_acts hr' b.isLt _ ha).symm
      · next ha =>
        exact getLsbD_rst hr' b.isLt s (by rw [hpg, hk]) (by omega)
          (resetSpecial_plainPage (by rwa [hpg]) (Bool.eq_true_of_not_eq_false ha))
  · have := ((hmem w).1 hw).1
    omega

/-! A page's header (R38 to R40, R568). -/

/-- A word of the header of a page of registers. -/
theorem regWriteRow_header {d : Die} {pg off : Nat} (v : Word) (s : State) (hm : mayWrite d pg)
    (hk : pageKind (pageOf d pg) = .regs) (ho : off % 4 = 0) (hlt : off < 0x40) :
    regWriteRow d pg off v s = headerWrite true (pageOf d pg) off v s := by
  rw [regWriteRow_eq v s hm (by rw [hk]; decide) ho, pageWrite, hk]
  exact if_pos hlt

/-- A field of one bit is that bit of its word. -/
theorem flag_eq_natBit (s : State) (k i : Nat) : s.flag ⟨k, i, 1⟩ = natBit (s.rd k).toNat i := by
  simp only [State.flag, State.fld, bitsGet, natBit, pow_one]
  rcases Nat.mod_two_eq_zero_or_one ((s.rd k).toNat / 2 ^ i) with h | h <;> rw [h] <;> rfl

theorem flag_FREEZE_setFlag (s : State) (p : Nat) (on : Bool) :
    (s.setFlag (fPAGE_CTRL_FREEZE p) on).flag (fPAGE_CTRL_FREEZE p) = on :=
  flag_setFlag_self s _ on (show 2 + 1 ≤ 32 by decide) rfl

theorem pageEn_setFlag_FREEZE (s : State) (p : Nat) (on : Bool) : pageEn (s.setFlag (fPAGE_CTRL_FREEZE p) on) p = pageEn s p :=
  flag_setFlag_ne s (fPAGE_CTRL_FREEZE p) (fPAGE_CTRL_EN p) on (show 2 + 1 ≤ 32 by decide)
    (Or.inr (Or.inl (show 0 + 1 ≤ 2 by decide)))

theorem natBit_lor (x y i : Nat) : natBit (Nat.lor x y) i = (natBit x i || natBit y i) := by
  simp only [natBit_eq_testBit]
  exact Nat.testBit_or x y i

/-- A page frozen by its own FREEZE is frozen. -/
theorem frozen_of_flag {s : State} {p : Nat} (h : s.flag (fPAGE_CTRL_FREEZE p) = true) : frozen s p = true := by
  refine List.any_eq_true.2 ⟨p, ?_, h⟩
  unfold freezeGroup
  split <;> simp_all

theorem freezeGroup_contains {p : Nat} (h : p ∉ [0x110, 0x111, 0x112]) : (freezeGroup p).contains 0x110 = false := by
  simp only [List.mem_cons, List.not_mem_nil, or_false] at h
  rw [freezeGroup, if_neg h]
  simp only [List.contains_eq_mem, List.mem_singleton, decide_eq_false_iff_not]
  omega

/-- With no record held, the end of a freeze posts none. -/
theorem releaseHeld_nil {s : State} (h : s.evHeld = []) : releaseHeld s = s := by
  simp only [releaseHeld, h, List.filter_nil, List.foldl_nil]
  rw [← h]

/-- What a write of FREEZE may touch: its bit, the noted spans of the timebase, and, where it sets the bit of a page of the
Crystallizer, the part of that block. -/
structure FreezeWritten (s t : State) (p : Nat) (on : Bool) : Prop where
  flag : t.flag (fPAGE_CTRL_FREEZE p) = on
  en : pageEn t p = pageEn s p
  regs : Claims.Regs s t [rPAGE_CTRL p]
  rest : ∃ r g c, t = { s with regs := r, tb := { s.tb with segs := g }, cry := c } ∧
    (p ≠ tbPg → g = s.tb.segs) ∧ (on = false ∨ p ∉ [0x110, 0x111, 0x112] → c = s.cry)

/-- The timebase notes a span, or not. -/
theorem segMark_if (s : State) (p : Nat) (c : Bool) :
    ∃ g, (if p = tbPg ∧ c = true then segMark s else s) = { s with tb := { s.tb with segs := g } } ∧
      (p ≠ tbPg → g = s.tb.segs) := by
  split
  · next h => exact ⟨_, rfl, fun hp => absurd h.1 hp⟩
  · exact ⟨s.tb.segs, rfl, fun _ => rfl⟩

theorem freezeWritten_freezeWrite (s : State) (p : Nat) (on : Bool) (h : on = true ∨ s.evHeld = []) :
    FreezeWritten s (freezeWrite p on s) p on := by
  obtain ⟨g, hg, hgp⟩ := segMark_if (s.setFlag (fPAGE_CTRL_FREEZE p) on) p (tbEn (s.setFlag (fPAGE_CTRL_FREEZE p) on))
  obtain ⟨c, hc, hcp⟩ : ∃ c, freezeWrite p on s = { s.setFlag (fPAGE_CTRL_FREEZE p) on with
      tb := { s.tb with segs := g }, cry := c } ∧ (on = false ∨ p ∉ [0x110, 0x111, 0x112] → c = s.cry) := by
    unfold freezeWrite
    dsimp only
    rw [hg]
    cases on with
    | true =>
      rw [if_pos rfl]
      split
      · next hgroup =>
        refine ⟨_, rfl, fun hp => ?_⟩
        have := freezeGroup_contains (hp.resolve_left (by decide))
        exact absurd (this.symm.trans hgroup) (by decide)
      · exact ⟨s.cry, rfl, fun _ => rfl⟩
    | false =>
      have hev : s.evHeld = [] := h.resolve_left (by decide)
      rw [if_neg (by decide)]
      exact ⟨s.cry, releaseHeld_nil hev, fun _ => rfl⟩
  rw [hc]
  exact ⟨flag_FREEZE_setFlag s p on, pageEn_setFlag_FREEZE s p on, regs_wr s (rPAGE_CTRL p) _,
    _, g, c, rfl, hgp, hcp⟩

section
variable {s t : State} {p : Nat} {on : Bool}

theorem FreezeWritten.refl (h : on = s.flag (fPAGE_CTRL_FREEZE p)) : FreezeWritten s s p on :=
  ⟨h.symm, rfl, fun _ _ => rfl, s.regs, s.tb.segs, s.cry, rfl, fun _ => rfl, fun _ => rfl⟩

theorem FreezeWritten.noEvents (h : FreezeWritten s t p on) : NoEvents s t := by
  obtain ⟨r, g, c, rfl, -, -⟩ := h.rest
  exact ⟨rfl, rfl, rfl, rfl, rfl⟩

theorem FreezeWritten.kept (h : FreezeWritten s t p on) : Kept s { t with cry := s.cry, tb := s.tb } := by
  obtain ⟨r, g, c, rfl, -, -⟩ := h.rest
  exact OnlyRegs.kept ⟨r, rfl⟩

theorem FreezeWritten.cry (h : FreezeWritten s t p on) (hp : on = false ∨ p ∉ [0x110, 0x111, 0x112]) : t.cry = s.cry := by
  obtain ⟨r, g, c, rfl, -, hc⟩ := h.rest
  exact hc hp

theorem FreezeWritten.tb_segs (h : FreezeWritten s t p on) : { t.tb with segs := s.tb.segs } = s.tb := by
  obtain ⟨r, g, c, rfl, -, -⟩ := h.rest
  rfl

theorem FreezeWritten.tb (h : FreezeWritten s t p on) (hp : p ≠ tbPg) : t.tb = s.tb := by
  obtain ⟨r, g, c, rfl, hg, -⟩ := h.rest
  rw [hg hp]

end

/-- A write of PAGE_CTRL that leaves EN as it is. -/
theorem pageCtrlWrite_same_en {s : State} {p : Nat} {v : Word} (h : natBit v.toNat 0 = pageEn s p) :
    pageCtrlWrite true p v s =
      let t := if natBit v.toNat 2 ≠ s.flag (fPAGE_CTRL_FREEZE p) then freezeWrite p (natBit v.toNat 2) s else s
      if natBit v.toNat 1 then pageRst p t else t := by
  simp only [pageCtrlWrite, pageEnWrite, h, if_true, true_and]

/-- The row of a write of PAGE_CTRL that is read first. -/
theorem pageCtrlRow_eq {d : Die} {pg : Nat} (f : Nat → Nat) (s : State) (hm : mayWrite d pg)
    (hk : pageKind (pageOf d pg) = .regs) :
    pageCtrlRow d pg f s =
      pageCtrlWrite true (pageOf d pg) (BitVec.ofNat 32 (f (s.rd (rPAGE_CTRL (pageOf d pg))).toNat)) s :=
  regWriteRow_header _ s hm hk (by decide) (by decide)

/-- PAGE_FREEZE where no RST is asked for (R38). -/
theorem freezeWritten_pageCtrlRow {d : Die} {pg : Nat} {s : State} {on : Bool} (hm : mayWrite d pg)
    (hk : pageKind (pageOf d pg) = .regs) (hr : natBit (s.rd (rPAGE_CTRL (pageOf d pg))).toNat 1 = false)
    (h : on = true ∨ s.evHeld = []) :
    FreezeWritten s (pageCtrlRow d pg (fun v => natBitSet v 2 on) s) (pageOf d pg) on := by
  have hbit : ∀ i < 32, natBit (BitVec.ofNat 32 (natBitSet (s.rd (rPAGE_CTRL (pageOf d pg))).toNat 2 on)).toNat i =
      if i = 2 then on else natBit (s.rd (rPAGE_CTRL (pageOf d pg))).toNat i :=
    fun i hi => by rw [natBit_ofNat 32 _ i hi, natBit_natBitSet]
  rw [pageCtrlRow_eq _ s hm hk, pageCtrlWrite_same_en ((hbit 0 (by decide)).trans (flag_eq_natBit s _ 0).symm),
    hbit 2 (by decide), hbit 1 (by decide)]
  simp only [if_true, OfNat.one_ne_ofNat, if_false, hr, Bool.false_eq_true]
  split
  · exact freezeWritten_freezeWrite s _ on h
  · next hsame => exact FreezeWritten.refl (not_not.1 hsame)

/-- PAGE_RST sets RST beside what PAGE_CTRL holds (R569). -/
theorem pageCtrlRow_rst {d : Die} {pg : Nat} {s : State} (hm : mayWrite d pg) (hk : pageKind (pageOf d pg) = .regs) :
    pageCtrlRow d pg (fun v => Nat.lor v 2) s = pageRst (pageOf d pg) s := by
  have hbit : ∀ i < 32, natBit (BitVec.ofNat 32 (Nat.lor (s.rd (rPAGE_CTRL (pageOf d pg))).toNat 2)).toNat i =
      (natBit (s.rd (rPAGE_CTRL (pageOf d pg))).toNat i || natBit 2 i) :=
    fun i hi => by rw [natBit_ofNat 32 _ i hi, natBit_lor]
  have hfreeze : natBit (s.rd (rPAGE_CTRL (pageOf d pg))).toNat 2 = s.flag (fPAGE_CTRL_FREEZE (pageOf d pg)) :=
    (flag_eq_natBit s _ 2).symm
  have hen : natBit (s.rd (rPAGE_CTRL (pageOf d pg))).toNat 0 = pageEn s (pageOf d pg) := (flag_eq_natBit s _ 0).symm
  rw [pageCtrlRow_eq _ s hm hk, pageCtrlWrite_same_en (by rw [hbit 0 (by decide), hen]; exact Bool.or_false _),
    hbit 2 (by decide), hbit 1 (by decide), hfreeze]
  simp [natBit]

/-! EV_EN (R568). -/

/-- Bit `b` is newly enabled and pending, as `evEnWrite` asks of each bit. -/
theorem newlyEnabled_iff (old v : Word) (t : State) (p b : Nat) :
    (natBit v.toNat b = true ∧ natBit old.toNat b = false ∧ pendBit t p b = true) ↔
      (v &&& ~~~old &&& t.rd (rEV_PEND p)).getLsbD b = true := by
  simp only [pendBit, natBit_eq_testBit, BitVec.testBit_toNat, BitVec.getLsbD_and, BitVec.getLsbD_not, Bool.and_eq_true,
    decide_eq_true_eq, Bool.not_eq_true']
  constructor
  · rintro ⟨hv, ho, hp⟩
    exact ⟨⟨hv, BitVec.lt_of_getLsbD hv, ho⟩, hp⟩
  · rintro ⟨⟨hv, -, ho⟩, hp⟩
    exact ⟨hv, ho, hp⟩

/-- A fold in which one entry of the list alone acts. -/
theorem foldl_single {α β : Type} {f : α → β → α} {b : β} {t u : α} (hact : f t b = u) (ht : ∀ c, c ≠ b → f t c = t)
    (hu : ∀ c, c ≠ b → f u c = u) {l : List β} (hl : l.Nodup) (hb : b ∈ l) : l.foldl f t = u := by
  obtain ⟨l₁, l₂, rfl⟩ := List.append_of_mem hb
  have hfix : ∀ (x : α), (∀ c, c ≠ b → f x c = x) → ∀ m : List β, b ∉ m → m.foldl f x = x := by
    intro x hx m hm
    induction m with
    | nil => rfl
    | cons c m ih =>
      rw [List.mem_cons, not_or] at hm
      obtain ⟨hc, hm⟩ := hm
      rw [List.foldl_cons, hx c (Ne.symm hc), ih hm]
  have hnb := List.nodup_middle.1 hl
  obtain ⟨hnot, -⟩ := List.nodup_cons.1 hnb
  rw [List.mem_append, not_or] at hnot
  rw [List.foldl_append, List.foldl_cons, hfix t ht l₁ hnot.1, hact, hfix u hu l₂ hnot.2]

/-- A write of EV_EN that newly enables no pending bit. -/
theorem evEnWrite_of_none {p : Nat} {v : Word} {s : State} (h : v &&& ~~~(s.rd (rEV_EN p)) &&& s.rd (rEV_PEND p) = 0) :
    evEnWrite p v s = s.wr (rEV_EN p) v := by
  have hpend : (s.wr (rEV_EN p) v).rd (rEV_PEND p) = s.rd (rEV_PEND p) :=
    rd_wr_ne s v (by simp only [rEV_PEND, rEV_EN]; omega)
  unfold evEnWrite
  refine List.foldl_fixed' (fun b => if_neg ?_) _
  rw [newlyEnabled_iff, hpend, h]
  simp

/-- A write of EV_EN that newly enables one pending bit begins its episode. -/
theorem evEnWrite_of_one {p : Nat} {v : Word} {s : State} {b : Nat} (hb : b < 32)
    (h : v &&& ~~~(s.rd (rEV_EN p)) &&& s.rd (rEV_PEND p) = BitVec.ofNat 32 (2 ^ b))
    (hep : (episode 34 p b (s.wr (rEV_EN p) v)).rd (rEV_PEND p) = s.rd (rEV_PEND p)) :
    evEnWrite p v s = episode 34 p b (s.wr (rEV_EN p) v) := by
  have hpend : (s.wr (rEV_EN p) v).rd (rEV_PEND p) = s.rd (rEV_PEND p) :=
    rd_wr_ne s v (by simp only [rEV_PEND, rEV_EN]; omega)
  have hbit : ∀ c, (BitVec.ofNat 32 (2 ^ b)).getLsbD c = true ↔ c = b := fun c => by
    rw [BitVec.getLsbD_ofNat, Nat.testBit_two_pow]
    simp only [Bool.and_eq_true, decide_eq_true_eq]
    omega
  unfold evEnWrite
  refine foldl_single (b := b) ?_ (fun c hc => ?_) (fun c hc => ?_) List.nodup_range (List.mem_range.2 hb)
  · refine if_pos ?_
    rw [newlyEnabled_iff, hpend, h, hbit]
  · refine if_neg fun hn => hc ?_
    rwa [newlyEnabled_iff, hpend, h, hbit] at hn
  · refine if_neg fun hn => hc ?_
    rwa [newlyEnabled_iff, hep, h, hbit] at hn

/-- An episode of a page that is not frozen and whose route names an event queue sends the bit's record. -/
theorem episode_sends (n : Nat) {p b : Nat} {t : State} (hf : frozen t p = false)
    (hd : t.flag (fEV_ROUTE_DEST p) = false ∨ 0x1000 ≤ p) :
    episode (n + 1) p b t = sendRec (t.fld (fEV_ROUTE_TARGET p)) (recordOf t p b) t := by
  have hroute : ¬ (t.flag (fEV_ROUTE_DEST p) = true ∧ p < 0x1000) := by
    rcases hd with hd | hd
    · simp [hd]
    · omega
  rw [episode, if_neg (by simp [hf]), if_neg hroute]

section
variable (s : State) (p b : Nat) (v : Word)

theorem rd_wr_EV_EN {k : Nat} (hk : k % 1024 ≠ 5) : (s.wr (rEV_EN p) v).rd k = s.rd k :=
  rd_wr_ne s v (by simp only [rEV_EN]; omega)

theorem frozen_wr_EV_EN : frozen (s.wr (rEV_EN p) v) p = frozen s p := by
  have h : ∀ q, (s.wr (rEV_EN p) v).flag (fPAGE_CTRL_FREEZE q) = s.flag (fPAGE_CTRL_FREEZE q) := fun q =>
    flag_of_rd _ (rd_wr_EV_EN s p v (by simp only [fPAGE_CTRL_FREEZE, rPAGE_CTRL]; omega))
  simp only [frozen, h]

theorem recordOf_wr_EV_EN : recordOf (s.wr (rEV_EN p) v) p b = recordOf s p b := by
  have h : ∀ d, angleAt (s.wr (rEV_EN p) v) d = angleAt s d := by
    rintro (_ | _)
    · exact rd64_of_rd _ (rd_wr_EV_EN s p v (by decide)) (rd_wr_EV_EN s p v (by decide))
    · exact rd64_of_rd _ (rd_wr_EV_EN s p v (by decide)) (rd_wr_EV_EN s p v (by decide))
  simp only [recordOf, State.wr_evPay, h]

theorem route_wr_EV_EN : (s.wr (rEV_EN p) v).fld (fEV_ROUTE_TARGET p) = s.fld (fEV_ROUTE_TARGET p) ∧
    (s.wr (rEV_EN p) v).flag (fEV_ROUTE_DEST p) = s.flag (fEV_ROUTE_DEST p) := by
  have h : (s.wr (rEV_EN p) v).rd (rEV_ROUTE p) = s.rd (rEV_ROUTE p) := rd_wr_EV_EN s p v (by simp only [rEV_ROUTE]; omega)
  exact ⟨fld_of_rd _ h, flag_of_rd _ h⟩

theorem slUp_wr_EV_EN : slUp (s.wr (rEV_EN p) v) = slUp s := by
  simp only [slUp, slPair, rd_wr_EV_EN s p v (show rSL_PSTAT % 1024 ≠ 5 by decide)]

end

/-- The episode that a write of EV_EN begins sends the record that the bit would have posted before the write. -/
theorem episode_wr_EV_EN {s : State} {p : Nat} (b : Nat) (v : Word) (hf : frozen s p = false)
    (hd : s.flag (fEV_ROUTE_DEST p) = false ∨ 0x1000 ≤ p) :
    episode 34 p b (s.wr (rEV_EN p) v) =
      sendRec (s.fld (fEV_ROUTE_TARGET p)) (recordOf s p b) (s.wr (rEV_EN p) v) := by
  obtain ⟨htarget, hdest⟩ := route_wr_EV_EN s p v
  rw [episode_sends 33 (by rw [frozen_wr_EV_EN, hf]) (by rwa [hdest]), htarget, recordOf_wr_EV_EN]

theorem tx_laneStart (two : Bool) (dir q : Nat) (l : SlState) : (laneStart two dir q l).tx = l.tx := by
  unfold laneStart
  split
  · rfl
  · split <;> rfl

/-- Cells that start on idle lanes still wait for their acknowledgement. -/
theorem slTxOf_slLaunch (dir key : Nat) (s : State) : slTxOf (slLaunch dir s) key = slTxOf s key := by
  have h : ∀ (two : Bool) (qs : List Nat) (l : SlState), (qs.foldl (fun l q => laneStart two dir q l) l).tx = l.tx := by
    intro two qs
    induction qs with
    | nil => exact fun _ => rfl
    | cons q qs ih => exact fun l => (ih _).trans (tx_laneStart two dir q l)
  simp only [slTxOf, slLaunch, h]

/-- An event record crosses in one cell of its class (R457, R464). -/
theorem slTxOf_slSend_event (q : Nat) (r : EvRec) (s : State) :
    (slTxOf (slSend 0 (.event q r) s) 3).cells =
      (slTxOf s 3).cells ++ [⟨(slTxOf s 3).next % 65536, 0, 1, .event q r⟩] := by
  simp only [slSend, slTxOf_slLaunch]
  simp only [slTxOf, State.setTx, Msg.cls, Msg.parts, Nat.zero_mul, Nat.zero_add, storeGet_storeSet_self]
  rfl

theorem sendRec_H {r : EvRec} (hr : r.die = .H) (q : Nat) (s : State) :
    sendRec q r s = { s with evIn := s.evIn ++ [(q, r)] } := by rw [sendRec, hr]

theorem sendRec_F {r : EvRec} (hr : r.die = .F) {s : State} (hup : slUp s = true) (q : Nat) :
    sendRec q r s = slSend 0 (.event q r) s := by
  rw [sendRec, hr]
  exact if_neg fun h => Bool.false_ne_true (h.1.symm.trans hup)

section
variable {s : State} {p b : Nat} {v : Word} (hb : b < 32)
  (hone : v &&& ~~~(s.rd (rEV_EN p)) &&& s.rd (rEV_PEND p) = BitVec.ofNat 32 (2 ^ b)) (hf : frozen s p = false)
include hb hone hf

/-- On the H-die the record of a bit newly enabled while pending goes to its event queue. -/
theorem evEnWrite_posts_H (hp : 0x1000 ≤ p) :
    evEnWrite p v s = { s.wr (rEV_EN p) v with
      evIn := s.evIn ++ [(s.fld (fEV_ROUTE_TARGET p), recordOf s p b)] } := by
  have hdie : (recordOf s p b).die = .H := if_neg (by omega)
  have hep := (episode_wr_EV_EN b v hf (Or.inr hp)).trans (sendRec_H hdie _ _)
  rw [evEnWrite_of_one hb hone, hep]
  · rfl
  · rw [hep]; exact rd_wr_EV_EN s p v (by rw [rEV_PEND_mod]; decide)

/-- On the F-die it crosses the Sluice. -/
theorem evEnWrite_posts_F (hp : p < 0x1000) (hd : s.flag (fEV_ROUTE_DEST p) = false) (hup : slUp s = true) :
    evEnWrite p v s = slSend 0 (.event (s.fld (fEV_ROUTE_TARGET p)) (recordOf s p b)) (s.wr (rEV_EN p) v) := by
  have hdie : (recordOf s p b).die = .F := if_pos hp
  have hep := (episode_wr_EV_EN b v hf (Or.inl hd)).trans (sendRec_F hdie (by rw [slUp_wr_EV_EN, hup]) _)
  rw [evEnWrite_of_one hb hone, hep]
  rw [hep]; exact rd_wr_EV_EN s p v (by rw [rEV_PEND_mod]; decide)

end

theorem headerWrite_EV_EN (p : Nat) (v : Word) (s : State) : headerWrite true p 0x14 v s = evEnWrite p v s := rfl

end Sys2Proof.Machine

open Sys2Proof Sys2Proof.Machine Sys2Proof.Claims

/-- Settles O59, table by table: with the register file empty, a register reads as its table's reset value. -/
theorem resetValues : Obligations.ResetValues :=
  ⟨rd_reset_words, fld_reset_fields, rd_reset_GTn_RELOAD, flag_reset_EGg_CTRL_GEN,
    fun p => ⟨flag_reset_PANp_CTRL_RUN p, panOf_reset p.val⟩, flag_reset_BLn_CTRL_AUTOTRAIN, rd_reset_EPn_CTRL, ctxOf_reset,
    rfl, canonical_reset⟩

/-- Refutes O8: `registerWrite` clears from the written word the bits of `set` that are W1C, and takes word 4 of the MSI-X
table (offset 0x10, the low address of vector 1) for an EV_PEND, whose 32 bits are all W1C. A host that writes 1 there with
`set` = 1 leaves 0 in the word, where the third clause has it hold what was written. -/
theorem not_registerWrites : ¬ Obligations.RegisterWrites := by
  intro h
  obtain ⟨-, -, msixClause, -, -⟩ := h State.reset
  obtain ⟨t, ht, hword, -⟩ := msixClause 0x10 1 1 (by decide) (by decide)
  have hrow : t = msixWrite 4 0 State.reset :=
    calc t = regWriteRow .H 0x12 0x10 (sameCycle .H 0x12 0x10 1 1) State.reset := (Host.Outcome.next.inj ht).symm
      _ = regWriteRow .H 0x12 0x10 0 State.reset := by rw [sameCycle_word4]; rfl
      _ = msixWrite 4 0 State.reset := regWriteRow_msix 0x10 0 State.reset (by decide)
  have hzero : msixWord t 4 = 0 := by rw [hrow, msixWord_msixWrite_self 4 0 State.reset (by decide)]
  exact absurd (hzero.symm.trans hword) (by decide)

/-- Settles O9, clause by clause: each row is the header write of its word; RST of a page without offsets of their own
behaviour goes through `pageReset_pageRst`. -/
theorem pageHeaders : Obligations.PageHeaders := by
  intro s
  refine ⟨fun d pg hm hk => ⟨_, rfl, ?lockSet⟩, fun d pg hm hk hr => ⟨_, rfl, ?freeze⟩,
    fun d pg hm hk hr hev => ⟨_, rfl, ?unfreeze⟩, fun d pg hm hk hl _ => ⟨_, rfl, ?rstLocked⟩,
    fun d pg hm hk hl hheld ho => ⟨_, rfl, ?rst⟩, fun d pg v set hm hk => ⟨_, rfl, ?pendClear⟩,
    fun d pg v hm hk hnone => ⟨_, rfl, ?enable⟩, fun pg v b hm hk hone hf => ⟨_, rfl, ?enablePendingH⟩,
    fun pg v b hk hone hf hdest hup => ⟨_, rfl, ?enablePendingF⟩⟩
  case lockSet =>
    rw [regWriteRow_header 1 s hm hk (by decide) (by decide)]
    exact setFlag_alone s _ true (by decide)
  case freeze =>
    have hw := freezeWritten_pageCtrlRow (on := true) hm hk hr (Or.inl rfl)
    exact ⟨hw.flag, hw.en, frozen_of_flag hw.flag, hw.regs, hw.noEvents, hw.kept, fun hp => hw.cry (Or.inr hp), hw.tb_segs,
      hw.tb⟩
  case unfreeze =>
    have hw := freezeWritten_pageCtrlRow (on := false) hm hk hr (Or.inr hev)
    have hkept := hw.kept
    rw [← hw.cry (Or.inl rfl)] at hkept
    exact ⟨hw.flag, hw.en, hw.regs, hw.noEvents, hkept, hw.tb_segs, hw.tb⟩
  case rstLocked =>
    rw [pageCtrlRow_rst hm hk, pageRst, if_pos hl]
    exact setFlag_alone s _ true (by decide)
  case rst =>
    rw [pageCtrlRow_rst hm hk]
    exact pageReset_pageRst (plainPage_of hm hk ho pg.isLt) hk s hl hheld
  case pendClear =>
    rw [regWriteRow_header _ s hm hk (by decide) (by decide), sameCycle_word4]
    exact wr_alone s _ _
  case enable =>
    rw [regWriteRow_header v s hm hk (by decide) (by decide), headerWrite_EV_EN, evEnWrite_of_none hnone]
    exact wr_alone s _ _
  case enablePendingH =>
    obtain ⟨hen, hregs, -, hkept⟩ := wr_alone s (rEV_EN (0x1000 + pg.toNat)) v
    rw [regWriteRow_header v s hm hk (by decide) (by decide), headerWrite_EV_EN,
      evEnWrite_posts_H b.isLt hone hf (Nat.le_add_right _ _)]
    exact ⟨hen, rfl, hregs, rfl, rfl, rfl, rfl, hkept⟩
  case enablePendingF =>
    obtain ⟨hen, hregs, -, hkept⟩ := wr_alone s (rEV_EN pg.toNat) v
    rw [regWriteRow_header v s (Or.inl rfl) hk (by decide) (by decide), headerWrite_EV_EN,
      evEnWrite_posts_F b.isLt hone hf pg.isLt hdest hup]
    exact ⟨hen, slTxOf_slSend_event _ _ _, hregs, rfl, rfl, rfl, rfl, hkept⟩

end

section
/-!
PROOFS. Angle timebase (R46 to R68): what an operation of the timebase may change, RATE and the requested rate, the angle
compare units, and the statements TimebaseSwitch, TickCountWrite, TimebaseWrites, TimebaseSources, AngleReads, AngleCompare
and TickRows.
-/

namespace Sys2Proof.Machine
open Sys2Proof Sys2Proof.Claims

/-! What an operation of the timebase may change. -/

/-- `t` differs from `s` in its registers, in what events use beside them and in the timebase at most. -/
def OnlyTb (s t : State) : Prop :=
  ∃ r p h i e l b, t = { s with regs := r, evPay := p, evHeld := h, evIn := i, ev := e, sl := l, tb := b }

theorem OnlyTb.refl (s : State) : OnlyTb s s := ⟨s.regs, s.evPay, s.evHeld, s.evIn, s.ev, s.sl, s.tb, rfl⟩
theorem OnlyTb.trans {s t u : State} (h : OnlyTb s t) (g : OnlyTb t u) : OnlyTb s u := by
  obtain ⟨_, _, _, _, _, _, _, rfl⟩ := h
  obtain ⟨r, p, h, i, e, l, b, rfl⟩ := g
  exact ⟨r, p, h, i, e, l, b, rfl⟩
theorem onlyTb_wr (s : State) (k : Nat) (v : Word) : OnlyTb s (s.wr k v) :=
  ⟨_, s.evPay, s.evHeld, s.evIn, s.ev, s.sl, s.tb, rfl⟩
theorem onlyTb_of_evFrame {s t : State} (h : EvFrame s t) : OnlyTb s t := by
  refine ⟨t.regs, t.evPay, t.evHeld, t.evIn, t.ev, t.sl, t.tb, ?_⟩
  obtain ⟨⟩ := s
  obtain ⟨⟩ := t
  obtain ⟨⟩ := h
  simp_all

theorem kept_refl (s : State) : Kept s s := by repeat' constructor
theorem OnlyTb.kept {s t : State} (h : OnlyTb s t) : Kept s { t with tb := s.tb } := by
  obtain ⟨_, _, _, _, _, _, _, rfl⟩ := h
  exact kept_refl s
theorem OnlyTb.kept_of_tb {s t : State} (h : OnlyTb s t) (ht : t.tb = s.tb) : Kept s t := by
  have hk := h.kept
  rwa [← ht] at hk

/-- `t` differs from `s` in its registers and in the timebase at most. -/
def RegsTb (s t : State) : Prop := ∃ r b, t = { s with regs := r, tb := b }

theorem RegsTb.trans {s t u : State} (h : RegsTb s t) (g : RegsTb t u) : RegsTb s u := by
  obtain ⟨_, _, rfl⟩ := h
  obtain ⟨r, b, rfl⟩ := g
  exact ⟨r, b, rfl⟩
theorem regsTb_wr (s : State) (k : Nat) (v : Word) : RegsTb s (s.wr k v) := ⟨_, s.tb, rfl⟩
theorem regsTb_wr64 (s : State) (k v : Nat) : RegsTb s (s.wr64 k v) := (regsTb_wr s _ _).trans (regsTb_wr _ _ _)
theorem regsTb_tbSet (s : State) (f : TbState → TbState) : RegsTb s (s.tbSet f) := ⟨s.regs, _, rfl⟩
theorem regsTb_wr_tbSet (s : State) (k : Nat) (v : Word) (f : TbState → TbState) : RegsTb s ((s.wr k v).tbSet f) :=
  (regsTb_wr s k v).trans (regsTb_tbSet _ f)
theorem RegsTb.noEvents {s t : State} (h : RegsTb s t) : NoEvents s t := by
  obtain ⟨r, b, rfl⟩ := h
  exact ⟨rfl, rfl, rfl, rfl, rfl⟩
theorem RegsTb.kept {s t : State} (h : RegsTb s t) : Kept s { t with tb := s.tb } := by
  obtain ⟨r, b, rfl⟩ := h
  exact kept_refl s

theorem regs_tbSet {s t : State} {own : List Nat} (h : Claims.Regs s t own) (f : TbState → TbState) :
    Claims.Regs s (t.tbSet f) own := fun k hk => (rd_tbSet t f k).trans (h k hk)

/-- The registers of the pages before the event groups that an event of page `pg` leaves alone. -/
theorem evFree_of_low {pg k : Nat} (h : k / 1024 < 0x40) (hk : k ≠ rEV_PEND pg) : evFree pg k :=
  ⟨hk, fun hg => by have := hg.1; omega, by rintro rfl; revert h; decide⟩

/-- From `s` to `t` the registers of `own`, those that an event of the timebase's page touches, and the timebase's own
state may have changed, and nothing else. -/
structure TbFrame (own : List Nat) (s t : State) : Prop where
  rd : ∀ k, k ∉ own → evFree tbPg k → t.rd k = s.rd k
  only : OnlyTb s t

namespace TbFrame
variable {own : List Nat} {s t u : State}

theorem refl (own : List Nat) (s : State) : TbFrame own s s := ⟨fun _ _ _ => rfl, OnlyTb.refl s⟩
theorem trans (h : TbFrame own s t) (g : TbFrame own t u) : TbFrame own s u :=
  ⟨fun k ho he => (g.rd k ho he).trans (h.rd k ho he), h.only.trans g.only⟩
theorem mono {own' : List Nat} (h : TbFrame own s t) (hs : own ⊆ own') : TbFrame own' s t :=
  ⟨fun k ho he => h.rd k (fun hk => ho (hs hk)) he, h.only⟩
theorem regsEv (h : TbFrame own s t) : RegsEv s t own [tbPg] := fun k ho hp hg hd =>
  h.rd k ho ⟨hp tbPg (List.mem_singleton_self _), fun hk => by obtain ⟨h1, h2⟩ := hk; omega, hd⟩
theorem kept (h : TbFrame own s t) : Kept s { t with tb := s.tb } := h.only.kept

/-- A register that lies before the event groups. -/
theorem rd_low (h : TbFrame own s t) {k : Nat} (ho : k ∉ own) (hl : k / 1024 < 0x40) (hk : k ≠ rEV_PEND tbPg) :
    t.rd k = s.rd k := h.rd k ho (evFree_of_low hl hk)
theorem fld (h : TbFrame own s t) (f : Fld) (ho : f.key ∉ own) (hl : f.key / 1024 < 0x40) (hk : f.key ≠ rEV_PEND tbPg) :
    t.fld f = s.fld f := fld_of_rd f (h.rd_low ho hl hk)
theorem flag (h : TbFrame own s t) (f : Fld) (ho : f.key ∉ own) (hl : f.key / 1024 < 0x40) (hk : f.key ≠ rEV_PEND tbPg) :
    t.flag f = s.flag f := flag_of_rd f (h.rd_low ho hl hk)
/-- A 64-bit register of the timebase's page. -/
theorem rd64 (h : TbFrame own s t) {k : Nat} (ho : k ∉ own ∧ k + 1 ∉ own) (hk : rEV_PEND tbPg < k)
    (hl : (k + 1) / 1024 < 0x40) : t.rd64 k = s.rd64 k :=
  rd64_of_rd k (h.rd_low ho.1 (by omega) (by omega)) (h.rd_low ho.2 hl (by omega))

end TbFrame

section
variable {own : List Nat} (s : State)

theorem tbFrame_wr {k : Nat} (v : Word) (hk : k ∈ own) : TbFrame own s (s.wr k v) :=
  ⟨fun _ ho _ => rd_wr_ne s v (fun h => ho (h ▸ hk)), onlyTb_wr s k v⟩
theorem tbFrame_setFld (f : Fld) (v : Nat) (hf : f.key ∈ own) : TbFrame own s (s.setFld f v) := tbFrame_wr s _ hf
theorem tbFrame_setFlag (f : Fld) (b : Bool) (hf : f.key ∈ own) : TbFrame own s (s.setFlag f b) := tbFrame_wr s _ hf
theorem tbFrame_wr64 {k : Nat} (v : Nat) (hk : k ∈ own) (hk' : k + 1 ∈ own) : TbFrame own s (s.wr64 k v) :=
  (tbFrame_wr s _ hk).trans (tbFrame_wr _ _ hk')
theorem tbFrame_tbSet (f : TbState → TbState) : TbFrame own s (s.tbSet f) :=
  ⟨fun _ _ _ => rfl, s.regs, s.evPay, s.evHeld, s.evIn, s.ev, s.sl, _, rfl⟩
theorem tbFrame_postEvent (b sev : Nat) (p : List Byte) : TbFrame own s (postEvent ⟨tbPg, b, sev⟩ p s) :=
  ⟨fun _ _ he => rd_postEvent _ _ _ he, onlyTb_of_evFrame (postEvent_frame _ _ _)⟩
theorem tbFrame_post (b sev u c d : Nat) : TbFrame own s (post tbPg b sev u c d s) := tbFrame_postEvent s b sev _

end

/-! RATE and the requested rate (R57 to R59). -/

theorem rd64_lt (s : State) (k : Nat) : s.rd64 k < 2 ^ 64 := by
  have h0 := (s.rd k).isLt
  have h1 := (s.rd (k + 1)).isLt
  simp only [State.rd64]
  omega

/-- Of the timebase's own state only what follows RATE changed: the noted spans, the ticks at the floor and the integral
term. -/
def RateOnly (a b : TbState) : Prop := ∃ g k i, b = { a with segs := g, floorTicks := k, integ := i }

theorem RateOnly.refl (a : TbState) : RateOnly a a := ⟨a.segs, a.floorTicks, a.integ, rfl⟩
theorem RateOnly.trans {a b c : TbState} (h : RateOnly a b) (g : RateOnly b c) : RateOnly a c := by
  obtain ⟨_, _, _, rfl⟩ := h
  obtain ⟨g, k, i, rfl⟩ := g
  exact ⟨g, k, i, rfl⟩

/-- The words of RATE, and with them that of FLOOR. -/
def rateWords : List Nat := [rRATE, rRATE + 1]
def requestWords : List Nat := rTB_STAT :: rateWords

theorem tbFrame_setRate (v : Nat) (s : State) : TbFrame rateWords s (setRate v s) := by
  have hw : TbFrame rateWords s (s.wr64 rRATE v) := tbFrame_wr64 s v (by decide) (by decide)
  unfold setRate
  split
  · exact TbFrame.refl _ s
  · split
    · exact hw.trans (tbFrame_tbSet _ _)
    · exact hw

theorem tb_setRate (v : Nat) (s : State) : RateOnly s.tb (setRate v s).tb := by
  unfold setRate
  split
  · exact RateOnly.refl _
  · split
    · exact ⟨_, s.tb.floorTicks, s.tb.integ, rfl⟩
    · exact RateOnly.refl _

/-- The tick floor changes RATE and FLOOR (R58). -/
theorem tbFrame_floorCheck (s : State) : TbFrame requestWords s (floorCheck s) := by
  have hr : TbFrame requestWords s (setRate (rateLimit s) s) := (tbFrame_setRate _ s).mono (by decide)
  unfold floorCheck
  split
  · split
    · exact hr.trans (tbFrame_tbSet _ _)
    · exact ((hr.trans (tbFrame_setFlag _ _ _ (by decide))).trans (tbFrame_tbSet _ _)).trans (tbFrame_postEvent _ _ _ _)
  · exact TbFrame.refl _ s

theorem tb_floorCheck (s : State) : RateOnly s.tb (floorCheck s).tb := by
  have hr := tb_setRate (rateLimit s) s
  have hf : ∀ b : TbState, RateOnly b { b with floorTicks := 0 } := fun b => ⟨b.segs, 0, b.integ, rfl⟩
  unfold floorCheck
  split
  · split
    · exact hr.trans (hf _)
    · rw [postEvent_tb, State.tbSet_tb, State.setFlag_tb]
      exact hr.trans (hf _)
  · exact RateOnly.refl _

section
variable {f : Fld} (hr : f.key ∉ rateWords) (he : evFree tbPg f.key)
include he

theorem fld_postEvent_tb (b sev : Nat) (p : List Byte) (s : State) : (postEvent ⟨tbPg, b, sev⟩ p s).fld f = s.fld f :=
  fld_of_rd f ((tbFrame_postEvent (own := []) s b sev p).rd _ List.not_mem_nil he)

include hr

theorem fld_setRate (v : Nat) (s : State) : (setRate v s).fld f = s.fld f := fld_of_rd f ((tbFrame_setRate v s).rd _ hr he)

/-- Beside RATE the tick floor changes FLOOR alone. -/
theorem fld_floorCheck (s : State) (hd : f.apart fTB_STAT_FLOOR) : (floorCheck s).fld f = s.fld f := by
  unfold floorCheck
  split
  · split
    · rw [fld_tbSet, fld_setRate hr he]
    · rw [fld_postEvent_tb he, fld_tbSet, fld_setFlag_ne _ _ f true (by decide) hd, fld_setRate hr he]
  · rfl

end

/-- Before the next boundary a new requested rate changes RATE and FLOOR (R58, R59). -/
theorem tbFrame_requestChanged (s : State) : TbFrame requestWords s (requestChanged s) := by
  have hf := tbFrame_floorCheck s
  have hr : ∀ v (t : State), TbFrame requestWords t (setRate v t) := fun v t => (tbFrame_setRate v t).mono (by decide)
  unfold requestChanged
  dsimp only
  split
  · exact (hf.trans (hr _ _)).trans (tbFrame_tbSet _ _)
  · split
    · exact hf.trans (hr _ _)
    · exact hf

theorem tb_requestChanged (s : State) : RateOnly s.tb (requestChanged s).tb := by
  have hf := tb_floorCheck s
  unfold requestChanged
  dsimp only
  split
  · exact (hf.trans (tb_setRate _ _)).trans ⟨_, _, _, rfl⟩
  · split
    · exact hf.trans (tb_setRate _ _)
    · exact hf

theorem fld_requestChanged (s : State) {f : Fld} (hr : f.key ∉ rateWords) (he : evFree tbPg f.key)
    (hd : f.apart fTB_STAT_FLOOR) : (requestChanged s).fld f = s.fld f := by
  unfold requestChanged
  dsimp only
  split
  · rw [fld_tbSet, fld_setRate hr he, fld_floorCheck hr he s hd]
  · split
    · rw [fld_setRate hr he, fld_floorCheck hr he s hd]
    · exact fld_floorCheck hr he s hd

/-- A selection changes SRC_ACT and LOCKED (R59). -/
theorem tbFrame_selectSource (s : State) : TbFrame requestWords s (selectSource s) := by
  unfold selectSource
  exact ((tbFrame_setFld s _ _ (by decide)).trans (tbFrame_setFlag _ _ _ (by decide))).trans (tbFrame_tbSet _ _)
/-! Enabling, loading and refusing (R47, R51, R52, R68). -/

theorem flag_requestChanged (s : State) {f : Fld} (hr : f.key ∉ rateWords) (he : evFree tbPg f.key)
    (hd : f.apart fTB_STAT_FLOOR) : (requestChanged s).flag f = s.flag f := by
  simp only [State.flag, fld_requestChanged s hr he hd]

/-- A word of the timebase's page other than EV_PEND. -/
theorem evFree_stat : evFree tbPg rTB_STAT := evFree_of_low (by decide) (by decide)

theorem pageEnWrite_tbPg {s : State} {on : Bool} (hl : locked s tbPg = false) (hne : on ≠ tbEn s) :
    pageEnWrite tbPg on s = if on then tbEnable s else tbDisable s := by
  have hen : on ≠ pageEn s tbPg := hne
  rw [pageEnWrite, if_neg hen, if_neg (by simp [hl])]
  exact if_pos rfl

/-- A refused write sets CFG_REFUSED and its event, and nothing else. -/
theorem tbRefuse_alone (s : State) : (tbRefuse s).flag fTB_STAT_CFGREFUSED = true ∧ pendBit (tbRefuse s) tbPg 4 = true ∧
    RegsEv s (tbRefuse s) [rTB_STAT] [tbPg] ∧ Kept s (tbRefuse s) := by
  have hf : TbFrame [rTB_STAT] s (tbRefuse s) :=
    (tbFrame_setFlag s fTB_STAT_CFGREFUSED true (by decide)).trans (tbFrame_post _ 4 1 0 0 0)
  refine ⟨?_, pendBit_setPost _ _ _ _ _ _ _ _ (by decide), hf.regsEv, hf.only.kept_of_tb (setPost_tb _ _ _ _ _ _ _ s)⟩
  rw [tbRefuse, setPost, flag_post _ _ _ _ _ _ _ _ evFree_stat, flag_setFlag_self _ _ _ (by decide) rfl]

theorem tbEn_tbRefuse (s : State) : tbEn (tbRefuse s) = tbEn s := by
  obtain ⟨-, -, hregs, -⟩ := tbRefuse_alone s
  exact flag_of_rd _ (hregs _ (by decide) (by decide) (by decide) (by decide))

theorem regsTb_tbEnable (s : State) (h : tbEn s = false) : RegsTb s (tbEnable s) := by
  rw [tbEnable, if_neg (by simp [h])]
  exact (regsTb_wr s _ _).trans ((regsTb_tbSet _ _).trans (regsTb_tbSet _ _))

/-- From EN on ANGLE moves, and no boundary has come (R51). -/
theorem tbEnable_of_off {s : State} (h : tbEn s = false) :
    tbEn (tbEnable s) = true ∧ (tbEnable s).tb.started = false ∧ Claims.Regs s (tbEnable s) [rPAGE_CTRL tbPg] := by
  rw [tbEnable, if_neg (by simp [h])]
  exact ⟨flag_setFlag_self s (fPAGE_CTRL_EN tbPg) true (by decide) rfl, rfl, regs_tbSet (regs_tbSet (regs_wr s _ _) _) _⟩

theorem started_requestChanged (s : State) : (requestChanged s).tb.started = s.tb.started := by
  obtain ⟨_, _, _, h⟩ := tb_requestChanged s
  rw [h]

theorem started_selectSource (s : State) : (selectSource s).tb.started = s.tb.started := by
  rw [selectSource, State.tbSet_tb, State.setFlag_tb, State.setFld_tb]

/-- With no context admitted the timebase stops where it is, and what waited for a boundary takes effect (R59, R68). -/
theorem tbDisable_of_on {s : State} (h : tbEn s = true) (hn : nadmit s = 0) :
    tbEn (tbDisable s) = false ∧ (tbDisable s).tb.started = false ∧
      TbFrame (rPAGE_CTRL tbPg :: requestWords) s (tbDisable s) := by
  rw [tbDisable, if_neg (by simp [h]), if_neg (not_not.2 hn)]
  generalize hu : segMark ((s.setFlag (fPAGE_CTRL_EN tbPg) false).tbSet fun t =>
    { t with started := false, ticks := false }) = u
  have hen : tbEn u = false := by rw [← hu]; exact flag_setFlag_self s (fPAGE_CTRL_EN tbPg) false (by decide) rfl
  have hst : u.tb.started = false := by rw [← hu]; rfl
  have hsu : TbFrame (rPAGE_CTRL tbPg :: requestWords) s u := by
    rw [← hu]
    exact ((tbFrame_setFlag s _ false (by decide)).trans (tbFrame_tbSet _ _)).trans (tbFrame_tbSet _ _)
  have hsel : TbFrame requestWords u (if selectDue u then selectSource u else u) ∧
      (if selectDue u then selectSource u else u).tb.started = false := by
    split
    · exact ⟨tbFrame_selectSource u, (started_selectSource u).trans hst⟩
    · exact ⟨TbFrame.refl _ u, hst⟩
  have hut := hsel.1.trans (tbFrame_requestChanged _)
  exact ⟨(hut.flag (fPAGE_CTRL_EN tbPg) (by decide) (by decide) (by decide)).trans hen,
    (started_requestChanged _).trans hsel.2, hsu.trans (hut.mono (List.subset_cons_self _ _))⟩

/-- TB_LOAD reaches ANGLE while the timebase is off (R47, R68). -/
theorem tbLoad_of_off {s : State} (h : tbEn s = false) :
    angleOf (tbLoad s) = s.rd64 rTB_LOAD ∧ tickNo (tbLoad s) = 0 ∧ (tbLoad s).tb.sub = 0 ∧
      Claims.Regs s (tbLoad s) [rANGLE, rANGLE + 1, rTICKNO, rTICKNO + 1] ∧ NoEvents s (tbLoad s) ∧
      Kept s { tbLoad s with tb := s.tb } := by
  rw [tbLoad, if_neg (by simp [h])]
  have hr : RegsTb s ((angleSet (s.rd64 rTB_LOAD) s).wr64 rTICKNO 0) :=
    ((regsTb_wr64 s _ _).trans (regsTb_tbSet _ _)).trans (regsTb_wr64 _ _ _)
  refine ⟨?_, ?_, rfl, fun k hk => ?_, hr.noEvents, hr.kept⟩
  · rw [angleOf, rd64_wr64_ne _ _ (by decide), angleSet, rd64_tbSet, rd64_wr64_self, Nat.mod_eq_of_lt (rd64_lt s _)]
  · rw [tickNo, rd64_wr64_self, Nat.zero_mod]
  · simp only [List.mem_cons, List.not_mem_nil, or_false, not_or] at hk
    obtain ⟨h1, h2, h3, h4⟩ := hk
    rw [rd_wr64_ne _ _ _ h3 h4, angleSet, rd_tbSet, rd_wr64_ne _ _ _ h1 h2]

/-! N and the tick floor (R49, R52, R58). -/

def limitWords : List Nat := [rTB_LMIN, rRATE_LIMIT, rRATE_LIMIT + 1, rRATE, rRATE + 1, rTB_STAT]

section
variable (s : State)

theorem tbFrame_limitsChanged : TbFrame limitWords s (limitsChanged s) := by
  unfold limitsChanged
  exact (((tbFrame_setFld s _ _ (by decide)).trans (tbFrame_wr64 _ _ (by decide) (by decide))).trans
    ((tbFrame_setRate _ _).mono (by decide))).trans ((tbFrame_requestChanged _).mono (by decide))

theorem tb_limitsChanged : RateOnly s.tb (limitsChanged s).tb := by
  have h : ∀ t : State, t.tb = s.tb → ∀ v, RateOnly s.tb (requestChanged (setRate v t)).tb := fun t ht v => by
    rw [← ht]
    exact (tb_setRate v t).trans (tb_requestChanged _)
  have ht : ∀ v w, ((s.setFld fTB_LMIN v).wr64 rRATE_LIMIT w).tb = s.tb := fun v w => by
    rw [State.wr64_tb, State.setFld_tb]
  rw [limitsChanged]
  exact h _ (ht _ _) _

theorem lmin_limitsChanged : (limitsChanged s).fld fTB_LMIN = lminOf s.tb.nCur % 2 ^ 24 := by
  have he : evFree tbPg fTB_LMIN.key := evFree_of_low (by decide) (by decide)
  have hw : ∀ (t : State) v, (t.wr64 rRATE_LIMIT v).fld fTB_LMIN = t.fld fTB_LMIN := fun t v =>
    fld_of_rd _ (rd_wr64_ne t _ v (by decide) (by decide))
  rw [limitsChanged, fld_requestChanged _ (by decide) he (Or.inl (by decide)), fld_setRate (by decide) he, hw,
    fld_setFld_self _ _ _ (by decide)]
  rfl

theorem rateLimit_limitsChanged :
    rateLimit (limitsChanged s) = limitOf s.tb.nCur (s.fld fTB_TICK_MIN) % 2 ^ 64 := by
  have hf : ∀ t v, rateLimit (requestChanged (setRate v t)) = rateLimit t := fun t v =>
    (((tbFrame_setRate v t).mono (by decide)).trans (tbFrame_requestChanged _)).rd64 (by decide) (by decide) (by decide)
  rw [limitsChanged, hf, rateLimit, rd64_wr64_self]

end

theorem limitOf_eq (n m : Nat) : limitOf n m = 16777216 / n * 2 ^ 32 / ((m * 1536 + 999) / 1000 + 1) := by
  rw [limitOf, lminOf, floorCclk, ceilDiv, Nat.add_sub_assoc (by decide)]

/-- An N in effect: TB_LMIN and RATE_LIMIT follow it, and N_APPLIED is posted (R52). -/
theorem applyN_effect (n : Nat) (s : State) :
    (applyN n s).tb.nCur = n ∧ (applyN n s).tb.nPend = none ∧ (applyN n s).fld fTB_LMIN = 16777216 / n % 2 ^ 24 ∧
      rateLimit (applyN n s) = limitOf n (s.fld fTB_TICK_MIN) % 2 ^ 64 ∧ pendBit (applyN n s) tbPg 7 = true ∧
      TbFrame limitWords s (applyN n s) := by
  unfold applyN
  generalize hu : (s.tbSet fun t => { t with nCur := n, nPend := none }) = u
  have hn : u.tb.nCur = n ∧ u.tb.nPend = none := by rw [← hu]; exact ⟨rfl, rfl⟩
  have hm : u.fld fTB_TICK_MIN = s.fld fTB_TICK_MIN := by rw [← hu]; exact fld_tbSet _ _ _
  have hsu : TbFrame limitWords s u := by rw [← hu]; exact tbFrame_tbSet _ _
  have hpost : TbFrame [] (limitsChanged u) (post tbPg 7 1 0 0 n (limitsChanged u)) := tbFrame_post _ _ _ _ _ _
  obtain ⟨_, _, _, htb⟩ := tb_limitsChanged u
  refine ⟨?_, ?_, ?_, ?_, pendBit_post _ _ _ _ _ _ _ (by decide),
    (hsu.trans (tbFrame_limitsChanged u)).trans (hpost.mono (List.nil_subset _))⟩
  · rw [post_tb, htb]; exact hn.1
  · rw [post_tb, htb]; exact hn.2
  · rw [hpost.fld _ (by decide) (by decide) (by decide), lmin_limitsChanged, hn.1, lminOf]
  · rw [← hm]
    have hlimit := rateLimit_limitsChanged u
    rw [hn.1] at hlimit
    exact (hpost.rd64 (k := rRATE_LIMIT) (by decide) (by decide) (by decide)).trans hlimit

theorem tbNWrite_refused {s : State} {v : Nat} (hl : locked s tbPg = false)
    (h : nadmit s ≠ 0 ∨ v = 0 ∨ 1048576 < v) : tbNWrite v s = tbRefuse s := by
  rw [tbNWrite, if_neg (by simp [hl]), if_pos h]

theorem tbNWrite_accepted {s : State} {v : Nat} (hl : locked s tbPg = false) (hn : nadmit s = 0) (h1 : 1 ≤ v)
    (h2 : v ≤ 1048576) : tbNWrite v s =
      if tbEn s then (s.setFld fTB_N v).tbSet fun t => { t with nPend := some v } else applyN v (s.setFld fTB_N v) := by
  have hen : tbEn (s.setFld fTB_N v) = tbEn s := flag_of_rd _ (rd_setFld_ne s _ v (by decide))
  rw [tbNWrite, if_neg (by simp [hl]), if_neg (by omega)]
  simp only [hen]

theorem tbTickMinWrite_refused {s : State} {v : Nat} (hl : locked s tbPg = false) (h : nadmit s ≠ 0 ∨ v < 880) :
    tbTickMinWrite v s = tbRefuse s := by
  rw [tbTickMinWrite, if_neg (by simp [hl]), if_pos h]

theorem tbTickMinWrite_accepted {s : State} {v : Nat} (hl : locked s tbPg = false) (hn : nadmit s = 0) (h : 880 ≤ v) :
    tbTickMinWrite v s = limitsChanged (s.setFld fTB_TICK_MIN v) := by
  rw [tbTickMinWrite, if_neg (by simp [hl]), if_neg (by omega)]

/-! The source, RATE_HOLD and the grid signal (R53, R59, R60). -/

/-- SRC is written; in a holdover after a loss without AUTORET it selects its source again (R60). -/
def srcWritten (v : Nat) (s : State) : State :=
  (s.setFld fTB_CTRL_SRC v).tbSet fun t => { t with resel := t.resel || (s.tb.lost && !s.flag fTB_CTRL_AUTORET) }

theorem tbSrcWrite_eq (v : Nat) (s : State) : tbSrcWrite v s =
    if (tbEn (srcWritten v s) = true ∧ rateOf (srcWritten v s) ≠ 0) ∨ selectDue (srcWritten v s) = false then
      srcWritten v s
    else requestChanged (selectSource (srcWritten v s)) := by
  unfold tbSrcWrite srcWritten
  extract_lets
  congr

section
variable (s : State) {v : Nat}

theorem tbFrame_srcWritten : TbFrame [rTB_CTRL] s (srcWritten v s) :=
  (tbFrame_setFld s fTB_CTRL_SRC v (by decide)).trans (tbFrame_tbSet _ _)
theorem tbEn_srcWritten : tbEn (srcWritten v s) = tbEn s :=
  (tbFrame_srcWritten s).flag (fPAGE_CTRL_EN tbPg) (by decide) (by decide) (by decide)
theorem rateOf_srcWritten : rateOf (srcWritten v s) = rateOf s :=
  (tbFrame_srcWritten s).rd64 (k := rRATE) (by decide) (by decide) (by decide)
theorem tb_srcWritten :
    (srcWritten v s).tb = { s.tb with resel := s.tb.resel || (s.tb.lost && !s.flag fTB_CTRL_AUTORET) } := by
  rw [srcWritten, State.tbSet_tb, State.setFld_tb]

variable (hv : v < 4)
include hv

theorem fld_srcWritten : (srcWritten v s).fld fTB_CTRL_SRC = v := by
  rw [srcWritten, fld_tbSet, fld_setFld_self _ _ _ (by decide)]
  exact Nat.mod_eq_of_lt hv
theorem srcOf_srcWritten : srcOf (srcWritten v s) = if v = 3 then 2 else v := by rw [srcOf, fld_srcWritten s hv]

end

/-- While the timebase runs a write of SRC waits for the boundary (R59). -/
theorem tbSrcWrite_waits {s : State} (v : Nat) (hen : tbEn s = true) (hr : rateOf s ≠ 0) :
    tbSrcWrite v s = srcWritten v s := by
  rw [tbSrcWrite_eq, tbEn_srcWritten, rateOf_srcWritten, if_pos (Or.inl ⟨hen, hr⟩)]

/-- While the timebase is off another source is selected at once (R59). -/
theorem tbSrcWrite_selects {s : State} {v : Nat} (hv : v < 4) (hen : tbEn s = false)
    (hs : (if v = 3 then 2 else v) ≠ s.tb.sel) :
    tbSrcWrite v s = requestChanged (selectSource (srcWritten v s)) := by
  have hdue : selectDue (srcWritten v s) = true := by
    rw [selectDue, srcOf_srcWritten s hv, tb_srcWritten, bne_iff_ne.2 hs]
    rfl
  rw [tbSrcWrite_eq, tbEn_srcWritten, hen, hdue, if_neg (by simp)]

theorem selectSource_effect (s : State) : (selectSource s).tb.sel = srcOf s ∧
    (selectSource s).fld fTB_STAT_SRCACT = srcOf s % 4 ∧ (selectSource s).flag fTB_STAT_LOCKED = false := by
  unfold selectSource
  refine ⟨?_, ?_, ?_⟩
  · rw [State.tbSet_tb]
  · rw [fld_tbSet, fld_setFlag_ne _ _ _ _ (by decide) (Or.inr (by decide)), fld_setFld_self _ _ _ (by decide)]
    rfl
  · rw [flag_tbSet, flag_setFlag_self _ _ _ (by decide) rfl]

theorem sel_requestChanged (s : State) : (requestChanged s).tb.sel = s.tb.sel := by
  obtain ⟨_, _, _, h⟩ := tb_requestChanged s
  rw [h]

/-- What the four fields of TB_GRID_SRC make of a write of `v` over `old` (R68). -/
def gridSrcWord (old v : Word) : Word :=
  bitsSet (bitsSet (bitsSet (bitsSet old 31 1 (bitsGet v 31 1)) 16 6 (bitsGet v 16 6)) 8 3 (bitsGet v 8 3)) 0 4
    (bitsGet v 0 4)

/-- TB_GRID_SRC of the register table. -/
def gridSrcReg : RegD := ⟨"TB_GRID_SRC", 0x10, 1, 1, 0x90, 1, 0x0, false, [⟨31, 1, .rwl, 0x0, false⟩,
  ⟨16, 6, .rwl, 0x0, false⟩, ⟨8, 3, .rwl, 0x0, false⟩, ⟨0, 4, .rwl, 0x0, false⟩]⟩

theorem writeFields_GRID_SRC (old v : Word) : writeFields rTB_GRID_SRC false old v = gridSrcWord old v := by
  have hr : regAt (rTB_GRID_SRC / 1024) (rTB_GRID_SRC % 1024 * 4) = some gridSrcReg := by decide +kernel
  have hp : gridSrcReg.part (rTB_GRID_SRC % 1024 * 4) = 0 := by decide +kernel
  rw [writeFields, hr]
  simp only [hp]
  simp [gridSrcReg, gridSrcWord]

theorem plainWrite_GRID_SRC {s : State} (v : Word) (hl : lockHeld s tbPg = false) :
    plainWrite rTB_GRID_SRC v s = s.wr rTB_GRID_SRC (gridSrcWord (s.rd rTB_GRID_SRC) v) := by
  have hp : rTB_GRID_SRC / 1024 = tbPg := by decide
  rw [plainWrite_unheld v (by rw [hp, hl]), writeFields_GRID_SRC]

theorem fld_wr_self (s : State) (f : Fld) (v : Word) : (s.wr f.key v).fld f = bitsGet v f.lo f.width := by
  rw [State.fld, rd_wr_self]

/-- A field of one bit is that bit. -/
theorem natBits_one_ne_zero (x i : Nat) : (natBits x i 1 != 0) = natBit x i := by
  simp only [natBits, natBit, pow_one]
  rcases Nat.mod_two_eq_zero_or_one (x / 2 ^ i) with h | h <;> rw [h] <;> rfl

/-- Each of the four fields reads as it was written. -/
theorem natBits_gridSrcWord (old v : Word) :
    bitsGet (gridSrcWord old v) 31 1 = natBits v.toNat 31 1 ∧ bitsGet (gridSrcWord old v) 16 6 = natBits v.toNat 16 6 ∧
      bitsGet (gridSrcWord old v) 8 3 = natBits v.toNat 8 3 ∧ bitsGet (gridSrcWord old v) 0 4 = natBits v.toNat 0 4 := by
  have hself : ∀ lo w, bitsGet v lo w % 2 ^ w = natBits v.toNat lo w := fun lo w => by
    rw [bitsGet, natBits, Nat.mod_mod]
  unfold gridSrcWord
  refine ⟨?_, ?_, ?_, ?_⟩ <;>
    simp (disch := decide) only [bitsGet_bitsSet_ne, bitsGet_bitsSet_self, hself]

/-! The sources (R53, R54, R56, R58, R60, R472). -/

theorem unlessFrozen_of_not {pg : Nat} {s : State} (f : State → State) (h : frozen s pg = false) :
    unlessFrozen pg f s = f s := if_neg (by simp [h])

/-- The rest of a measurement changes the status word and RATE, beside the phase error (R55, R60). -/
theorem tbFrame_measure (e : Int) (s : State) :
    TbFrame requestWords (s.setFld fTB_PHERR (wrapTo 32 (max (-2147483648) (min 2147483647 e)))) (measure e s) := by
  have hreq : ∀ {a t : State}, TbFrame requestWords a t → TbFrame requestWords a (requestChanged t) :=
    fun h => h.trans (tbFrame_requestChanged _)
  have hlock : ∀ {a t : State} b, TbFrame requestWords a t → TbFrame requestWords a (t.setFlag fTB_STAT_LOCKED b) :=
    fun _ h => h.trans (tbFrame_setFlag _ _ _ (by decide))
  unfold measure
  extract_lets err t win q inWin ki kp integ n t₁ t₂
  split_ifs
  · exact (hreq ((tbFrame_setFld _ _ _ (by decide)).trans (tbFrame_tbSet _ _))).trans (tbFrame_post _ _ _ _ _ _)
  · exact tbFrame_tbSet _ _
  · exact TbFrame.refl _ _
  · refine hreq ?_
    have h₁ : TbFrame requestWords t t₁ := tbFrame_tbSet _ _
    show TbFrame requestWords t t₂
    unfold t₂
    split_ifs
    · exact hlock _ h₁
    · exact hlock _ h₁
    · exact h₁

theorem cross_requestChanged (s : State) : (requestChanged s).tb.cross = s.tb.cross := by
  obtain ⟨_, _, _, h⟩ := tb_requestChanged s
  rw [h]

/-- A measurement keeps the crossing it was timed from. -/
theorem cross_measure (e : Int) (s : State) : (measure e s).tb.cross = s.tb.cross := by
  unfold measure
  extract_lets err t win q inWin ki kp integ n t₁ t₂
  have ht : t.tb.cross = s.tb.cross := congrArg TbState.cross (State.setFld_tb s _ _)
  clear_value t
  have ht₂ : t₂.tb.cross = t.tb.cross := by
    unfold t₂
    split_ifs
    · rw [State.setFlag_tb, State.tbSet_tb]
    · rw [State.setFlag_tb, State.tbSet_tb]
    · rw [State.tbSet_tb]
  clear_value t₂
  split_ifs
  · rw [post_tb, cross_requestChanged, State.tbSet_tb, State.setFld_tb, ht]
  · rw [State.tbSet_tb, ht]
  · exact ht
  · rw [cross_requestChanged, ht₂, ht]

/-- A phase error of 24 bits is not saturated. -/
theorem clamp_signedOf_24 (v : Nat) : max (-2147483648) (min 2147483647 (signedOf 24 v)) = signedOf 24 v := by
  have hv : v % 2 ^ 24 < 2 ^ 24 := Nat.mod_lt _ (by decide)
  simp only [signedOf]
  split <;> omega

theorem crossing_first {s : State} (a f : Nat) (hsel : s.tb.sel = 0) (hc : s.tb.cross = none) :
    crossing a f s = s.tbSet fun t => { t with cross := some ⟨a, f⟩, gridRef := a } := by
  rw [crossing, gridSelected, hsel, hc]
  exact if_neg (by decide)

theorem crossing_valid {s : State} (a f : Nat) {p : Crossing} (hsel : s.tb.sel = 0) (hc : s.tb.cross = some p)
    (hmin : s.fld fTB_GRID_WIN_FMIN * (f - p.fcyc) ≤ 153600000000)
    (hmax : 153600000000 ≤ s.fld fTB_GRID_WIN_FMAX * (f - p.fcyc)) :
    crossing a f s = measure (signedOf 24 (wrapTo 24 ((s.fld fTB_GRID_OFFSET : Int) - (a % 16777216 : Nat))))
      (s.tbSet fun t => { t with cross := some ⟨a, f⟩, gridRef := a }) := by
  rw [crossing, gridSelected, hsel, hc, if_neg (by decide)]
  exact if_pos (by rw [decide_eq_true hmin, decide_eq_true hmax]; rfl)

/-- The followed source is lost: holdover, LOCKED clears, SRC_LOST (R56). -/
theorem sourceLost_effect (s : State) : (sourceLost s).fld fTB_STAT_SRCACT = 2 ∧ (sourceLost s).tb.lost = true ∧
    (sourceLost s).flag fTB_STAT_LOCKED = false ∧ pendBit (sourceLost s) tbPg 0 = true ∧
    TbFrame requestWords s (sourceLost s) := by
  have hr : fTB_STAT_SRCACT.key ∉ rateWords := by decide
  have hr' : fTB_STAT_LOCKED.key ∉ rateWords := by decide
  have hsrc : fTB_STAT_SRCACT.apart fTB_STAT_FLOOR := Or.inr (by decide)
  have hlock : fTB_STAT_LOCKED.apart fTB_STAT_FLOOR := Or.inr (by decide)
  unfold sourceLost
  refine ⟨?_, ?_, ?_, pendBit_post _ _ _ _ _ _ _ (by decide), ?_⟩
  · rw [fld_post _ _ _ _ _ _ _ _ evFree_stat, fld_requestChanged _ hr evFree_stat hsrc, fld_tbSet,
      fld_setFlag_ne _ _ _ _ (by decide) (Or.inr (by decide)), fld_setFld_self _ _ _ (by decide)]
    rfl
  · rw [post_tb]
    obtain ⟨_, _, _, h⟩ := tb_requestChanged (((s.setFld fTB_STAT_SRCACT 2).setFlag fTB_STAT_LOCKED false).tbSet
      fun t => { t with lost := true, hold := t.integ, qual := 0, ret := 0 })
    rw [h, State.tbSet_tb]
  · rw [flag_post _ _ _ _ _ _ _ _ evFree_stat, flag_requestChanged _ hr' evFree_stat hlock, flag_tbSet,
      flag_setFlag_self _ _ _ (by decide) rfl]
  · exact ((((tbFrame_setFld s _ _ (by decide)).trans (tbFrame_setFlag _ _ _ (by decide))).trans
      (tbFrame_tbSet _ _)).trans (tbFrame_requestChanged _)).trans (tbFrame_post _ _ _ _ _ _)

/-- A time answer at the head of the F side's messages is taken there (R472). -/
theorem timeReceiveF_head {s : State} {f a : Nat} {v : Bool} {r : List Msg} (h : s.sl.inF = .timeH f a v :: r) :
    timeReceiveF s = fabricAnswer f a v (s.slSet fun l => { l with inF := r }) := by
  have hany : s.sl.inF.any (fun m => m.cls == 6) = true := by rw [h]; rfl
  have hfind : s.sl.inF.find? (fun m => m.cls == 6) = some (.timeH f a v) := by rw [h]; rfl
  have hdrop : dropF (.timeH f a v) s = s.slSet fun l => { l with inF := r } := by
    rw [dropF, State.slSet, State.slSet, h, List.erase_cons_head]
  rw [timeReceiveF, if_pos hany, hfind]
  exact congrArg (fabricAnswer f a v) hdrop

theorem pairTimed_iff (s : State) : pairTimed s = true ↔ s.fld fPL_CTRL_RANK = 1 ∧ s.flag fPL_CTRL_TSRC = true := by
  simp [pairTimed]

/-- An answer that is not followed changes nothing (R500). -/
theorem fabricAnswer_other {s : State} (f a : Nat) (v : Bool)
    (h : s.tb.sel ≠ 1 ∨ (s.fld fPL_CTRL_RANK = 1 ∧ s.flag fPL_CTRL_TSRC = true)) : fabricAnswer f a v s = s :=
  if_pos (h.imp_right (pairTimed_iff s).2)

section
variable {s : State} (f a : Nat) (hsel : s.tb.sel = 1) (hp : ¬ (s.fld fPL_CTRL_RANK = 1 ∧ s.flag fPL_CTRL_TSRC = true))
include hsel hp

theorem fabricAnswer_valid (h1 : fcycOf s + 1536 ≤ f) (h2 : f ≤ fcycOf s + 1048576) : fabricAnswer f a true s =
      s.tbSet fun t => { t with fabOk := true, fabTgts := t.fabTgts ++ [⟨f, a⟩] } := by
  rw [fabricAnswer, if_neg (by simp [hsel, mt (pairTimed_iff s).1 hp])]
  exact if_pos ⟨rfl, h1, h2⟩

theorem fabricAnswer_invalid {v : Bool} (h : v = false ∨ f < fcycOf s + 1536 ∨ fcycOf s + 1048576 < f) :
    fabricAnswer f a v s = s.tbSet fun t => { t with ret := 0 } := by
  rw [fabricAnswer, if_neg (by simp [hsel, mt (pairTimed_iff s).1 hp])]
  exact if_neg (by rintro ⟨rfl, h1, h2⟩; simp at h; omega)

end

theorem fcycOf_slSet (s : State) (g : SlState → SlState) : fcycOf (s.slSet g) = fcycOf s := rd64_slSet s g _

/-- After 16 ticks at or below the limit the floor is left (R58). -/
theorem floorExit_effect {s : State} (hf : s.flag fTB_STAT_FLOOR = true) (ht : 16 ≤ s.tb.floorTicks) :
    (floorExit s).flag fTB_STAT_FLOOR = false ∧ (floorExit s).tb.floorTicks = 0 ∧ pendBit (floorExit s) tbPg 3 = true ∧
      TbFrame [rTB_STAT] s (floorExit s) := by
  rw [floorExit, if_pos ⟨hf, ht⟩]
  refine ⟨?_, ?_, pendBit_post _ _ _ _ _ _ _ (by decide), ?_⟩
  · rw [flag_post _ _ _ _ _ _ _ _ evFree_stat, flag_tbSet, flag_setFlag_self _ _ _ (by decide) rfl]
  · rw [post_tb, State.tbSet_tb]
  · exact ((tbFrame_setFlag s _ _ (by decide)).trans (tbFrame_tbSet _ _)).trans (tbFrame_post _ _ _ _ _ _)

/-! Reads by halves (R61). -/

theorem linked_halfKey (r : Reg64) : linked (halfKey r) = true ∧ linked (halfKey r + 1) = false := by
  cases r <;> exact ⟨by decide, by decide⟩

theorem halfKey_ne_RNG (r : Reg64) : halfKey r ≠ rSEC_RNG ∧ halfKey r + 1 ≠ rSEC_RNG := by
  cases r <;> exact ⟨by decide, by decide⟩

/-- A word's page and its offset there name it. -/
theorem page_add_offset (k : Nat) : k / 1024 * 1024 + k % 1024 * 4 / 4 = k := by omega

/-- A read of the low half latches the high half for its master. -/
theorem halfRead_low (m : Nat) (r : Reg64) (s : State) :
    halfRead m r false s = (lowRead m (halfKey r) s).emit (.readData m (bytesOfNat 4 (s.rd (halfKey r)).toNat)) := by
  have hk : halfKey r + b2n false = halfKey r := rfl
  simp only [halfRead, hk]
  rw [pageRead, page_add_offset, if_neg (halfKey_ne_RNG r).1, if_pos (linked_halfKey r).1]

/-- A read of the high half takes what was latched for its master. -/
theorem halfRead_high (m : Nat) (r : Reg64) (s : State) : halfRead m r true s =
    (highRead m (halfKey r) s).emit (.readData m (bytesOfNat 4 (highValue s m (halfKey r)).toNat)) := by
  have hk : halfKey r + b2n true = halfKey r + 1 := rfl
  simp only [halfRead, hk]
  rw [pageRead, page_add_offset, if_neg (halfKey_ne_RNG r).2, if_neg (by simp [(linked_halfKey r).2]), Nat.add_sub_cancel,
    if_pos (linked_halfKey r).1]

/-! What an event leaves of the compare units' own state. -/

/-- The events' own state but for the pulses that wait. -/
def evRest (e : EvState) : EvState := { e with pulses := [] }

theorem evRest_pulseRaw (ch : Nat) (x : Bool) (s : State) : evRest (pulseRaw ch x s).1.ev = evRest s.ev := by
  unfold pulseRaw
  dsimp only
  split
  · rfl
  · split
    · rw [State.incFld_ev]
    · split
      · rw [State.setFld_ev]
      · rfl

theorem ev_slSend (d : Nat) (m : Msg) (s : State) : (slSend d m s).ev = s.ev := rfl

theorem ev_sendRec (q : Nat) (r : EvRec) (s : State) : (sendRec q r s).ev = s.ev := by
  simp only [sendRec, slSendEvent]
  split
  · split
    · rw [State.incFld_ev]
    · exact ev_slSend _ _ _
  · rfl

theorem evRest_episode (n pg bit : Nat) (s : State) : evRest (episode n pg bit s).ev = evRest s.ev := by
  induction n generalizing pg bit s with
  | zero => rfl
  | succ n ih =>
    unfold episode
    dsimp only
    split
    · rfl
    · split
      · have hp := evRest_pulseRaw (s.fld (fEV_ROUTE_TARGET pg) % 256) (otherClock pg) s
        split
        · rename_i t heq; rw [heq] at hp; exact hp
        · rename_i t b heq
          rw [heq] at hp
          split
          · exact hp
          · split
            · exact (ih _ _ _).trans hp
            · exact hp
      · rw [ev_sendRec]

theorem evRest_post (pg b sev u c d : Nat) (s : State) : evRest (post pg b sev u c d s).ev = evRest s.ev := by
  unfold post postEvent postEventAt
  dsimp only
  split
  · rfl
  · split
    · exact evRest_episode _ _ _ _
    · rfl

theorem evRest_pulse (ch : Nat) (x : Bool) (s : State) : evRest (pulse ch x s).ev = evRest s.ev := by
  have hp := evRest_pulseRaw ch x s
  unfold pulse
  split
  · rename_i t heq; rw [heq] at hp; exact hp
  · rename_i t b heq; rw [heq] at hp; exact (evRest_post _ _ _ _ _ _ _).trans hp

/-! Angle compare units (R63 to R66). -/

section
variable (s : State) (n k : Nat) (b : Bool)

theorem acArmed_acArm : acArmed (s.acArm n b) n = b := storeGet_storeSet_self false s.ev.acArmed n b
theorem acArmed_acPut : acArmed (s.acPut n b) n = acArmed s n := rfl
theorem acArmed_wr (v : Word) : acArmed (s.wr k v) n = acArmed s n := rfl

/-- Events leave what a unit waits for. -/
theorem acArmed_of_evRest {s t : State} (n : Nat) (h : evRest t.ev = evRest s.ev) : acArmed t n = acArmed s n := by
  have he := congrArg EvState.acArmed h
  change t.ev.acArmed = s.ev.acArmed at he
  rw [acArmed, acArmed, he]

end

/-- No event of unit `n`'s page touches its registers. -/
theorem evFree_ac {n k : Nat} (hn : n < 32) (h1 : rACn_CTRL n ≤ k) (h2 : k ≤ rACn_LAST n + 1) : evFree (acPage n) k := by
  simp only [rACn_CTRL, rACn_LAST] at h1 h2
  refine ⟨?_, ?_, ?_⟩
  · simp only [rEV_PEND, acPage]
    omega
  · simp only [groupKey]
    omega
  · simp only [rSL_EVDROP]
    omega

/-- From `s` to `t` the registers of `own` may have changed, and nothing else. -/
def RegFrame (own : List Nat) (s t : State) : Prop := OnlyRegs s t ∧ Claims.Regs s t own

theorem OnlyRegs.onlyTb {s t : State} (h : OnlyRegs s t) : OnlyTb s t := by
  obtain ⟨r, rfl⟩ := h
  exact ⟨r, s.evPay, s.evHeld, s.evIn, s.ev, s.sl, s.tb, rfl⟩
theorem OnlyRegs.tb_eq {s t : State} (h : OnlyRegs s t) : t.tb = s.tb := by
  obtain ⟨r, rfl⟩ := h
  rfl
theorem RegFrame.refl (own : List Nat) (s : State) : RegFrame own s s := ⟨OnlyRegs.refl s, fun _ _ => rfl⟩
theorem RegFrame.wr {own : List Nat} {s t : State} {k : Nat} (h : RegFrame own s t) (v : Word) (hk : k ∈ own) :
    RegFrame own s (t.wr k v) :=
  ⟨h.1.trans (onlyRegs_wr t k v), fun j hj => (rd_wr_ne t v (fun e => hj (by rwa [e]))).trans (h.2 j hj)⟩

/-- The words that a match writes. -/
def acWords (n : Nat) : List Nat := [rACn_CTRL n, rACn_STAT n, rACn_LAST n, rACn_LAST n + 1]

/-- The registers of a match: MATCH, LAST, MULTI, and EN of a one-shot unit (R66). -/
def matchWords (n : Nat) (multi : Bool) (s : State) : State :=
  let s := (s.setFlag (fACn_STAT_MATCH n) true).wr64 (rACn_LAST n) (angleOf s)
  let s := if multi then s.setFlag (fACn_STAT_MULTI n) true else s
  if s.flag (fACn_CTRL_ONESHOT n) then s.setFlag (fACn_CTRL_EN n) false else s

/-- The unit has matched in this CCLK and waits for nothing. -/
def matchMarked (n : Nat) (s : State) : State :=
  (State.acArm { s with ev := { s.ev with acCyc := storeSet 0 s.ev.acCyc n (fcycOf s + 1) } } n false).acPut n false

/-- The event of a match, and its pulse. -/
def matchSent (n : Nat) (s : State) : State :=
  let s := post (acPage n) (n % 16) 1 n 0 0 s
  if s.flag (fACn_CTRL_EVOUT n) then pulse (s.fld (fACn_CTRL_EVOUTCH n)) false s else s

theorem acMatch_eq (n : Nat) (multi : Bool) (s : State) :
    acMatch n multi s = matchSent n (matchMarked n (matchWords n multi s)) := rfl

section
variable {n : Nat} (multi : Bool) (s : State)

/-- The words of a unit. -/
theorem rACn_eq (n : Nat) : rACn_STAT n = rACn_CTRL n + 1 ∧ rACn_RELOAD n = rACn_CTRL n + 2 ∧
    rACn_CMP n = rACn_CTRL n + 4 ∧ rACn_LAST n = rACn_CTRL n + 6 := by
  simp only [rACn_CTRL, rACn_STAT, rACn_RELOAD, rACn_CMP, rACn_LAST]
  omega

theorem rACn_CTRL_eq (n : Nat) : rACn_CTRL n = (17 + n / 16) * 1024 + 16 + 8 * (n % 16) := by
  simp only [rACn_CTRL]
  omega

theorem evoutch_lt : s.fld (fACn_CTRL_EVOUTCH n) < 256 := by
  rw [State.fld, bitsGet]
  exact Nat.mod_lt _ (by decide : 0 < 2 ^ 8)

theorem matchSent_only : OnlyTb s (matchSent n s) ∧ (matchSent n s).tb = s.tb := by
  have hp := post_frame (acPage n) (n % 16) 1 n 0 0 s
  unfold matchSent
  dsimp only
  split
  · exact ⟨(onlyTb_of_evFrame hp).trans (onlyTb_of_evFrame (pulse_frame _ _ _ (evoutch_lt _))), by
      rw [pulse_tb _ _ _ (evoutch_lt _), post_tb]⟩
  · exact ⟨onlyTb_of_evFrame hp, post_tb _ _ _ _ _ _ _⟩

theorem rd_matchSent {k : Nat} (h : evFree (acPage n) k) : (matchSent n s).rd k = s.rd k := by
  have hp := rd_post (acPage n) (n % 16) 1 n 0 0 s h
  unfold matchSent
  dsimp only
  split
  · rw [rd_pulse _ _ _ (evoutch_lt _) h.2.1 h.2.2, hp]
  · exact hp

theorem acArmed_matchSent : acArmed (matchSent n s) n = acArmed s n := by
  have hp := evRest_post (acPage n) (n % 16) 1 n 0 0 s
  refine acArmed_of_evRest n ?_
  unfold matchSent
  dsimp only
  split
  · rw [evRest_pulse, hp]
  · exact hp

theorem pendBit_matchSent (hn : n < 32) : pendBit (matchSent n s) (acPage n) (n % 16) = true := by
  have hp := pendBit_post (acPage n) (n % 16) 1 n 0 0 s (by omega)
  unfold matchSent
  dsimp only
  split
  · have hg : ¬ groupKey (rEV_PEND (acPage n)) := by simp only [groupKey, rEV_PEND, acPage]; omega
    have hd : rEV_PEND (acPage n) ≠ rSL_EVDROP := by simp only [rEV_PEND, acPage, rSL_EVDROP]; omega
    rw [pendBit, rd_pulse _ _ _ (evoutch_lt _) hg hd]
    exact hp
  · exact hp

/-- Between the words of a match it writes one that other fields do not share (R66). -/
theorem matchWords_frame : RegFrame (acWords n) s (matchWords n multi s) := by
  have hctrl : rACn_CTRL n ∈ acWords n := by simp [acWords]
  have hstat : rACn_STAT n ∈ acWords n := by simp [acWords]
  have hlast : rACn_LAST n ∈ acWords n ∧ rACn_LAST n + 1 ∈ acWords n := by simp [acWords]
  unfold matchWords
  extract_lets t u
  have hst : RegFrame (acWords n) s t := (((RegFrame.refl _ s).wr _ hstat).wr _ hlast.1).wr _ hlast.2
  have htu : RegFrame (acWords n) s u := by
    unfold u
    split
    · exact hst.wr _ hstat
    · exact hst
  split
  · exact htu.wr _ hctrl
  · exact htu

/-- The status word after a match. -/
theorem flag_matchWords {f : Fld} (hk : f.key = rACn_STAT n) (hf : f.apart (fACn_STAT_MULTI n)) :
    (matchWords n multi s).flag f = (s.setFlag (fACn_STAT_MATCH n) true).flag f := by
  obtain ⟨hs, -, -, hl⟩ := rACn_eq n
  unfold matchWords
  extract_lets t u
  have ht : t.flag f = (s.setFlag (fACn_STAT_MATCH n) true).flag f :=
    flag_of_rd f (rd_wr64_ne _ _ _ (by omega) (by omega))
  have hu : u.flag f = t.flag f := by
    unfold u
    split
    · exact flag_setFlag_ne _ _ _ _ (by simp [fACn_STAT_MULTI]) hf
    · rfl
  rw [← ht, ← hu]
  split
  · exact flag_setFlag_ne _ _ _ _ (by simp [fACn_CTRL_EN]) (Or.inl (by rw [hk, hs]; simp [fACn_CTRL_EN]))
  · rfl

/-- LAST has ANGLE. -/
theorem last_matchWords : (matchWords n multi s).rd64 (rACn_LAST n) = angleOf s := by
  obtain ⟨hs, -, -, hl⟩ := rACn_eq n
  unfold matchWords
  extract_lets t u
  have ht : t.rd64 (rACn_LAST n) = angleOf s := by
    rw [rd64_wr64_self]
    exact Nat.mod_eq_of_lt (rd64_lt s _)
  have hu : u.rd64 (rACn_LAST n) = t.rd64 (rACn_LAST n) := by
    unfold u
    split
    · exact rd64_of_rd _ (rd_wr_ne _ _ (by simp only [fACn_STAT_MULTI]; omega))
        (rd_wr_ne _ _ (by simp only [fACn_STAT_MULTI]; omega))
    · rfl
  rw [← ht, ← hu]
  split
  · exact rd64_of_rd _ (rd_wr_ne _ _ (by simp only [fACn_CTRL_EN]; omega))
      (rd_wr_ne _ _ (by simp only [fACn_CTRL_EN]; omega))
  · rfl

/-! A match (R66). -/

theorem matchMarked_only (t : State) : OnlyTb t (matchMarked n t) ∧ (matchMarked n t).tb = t.tb :=
  ⟨⟨t.regs, t.evPay, t.evHeld, t.evIn, _, t.sl, t.tb, rfl⟩, rfl⟩

theorem acMatch_only : OnlyTb s (acMatch n multi s) ∧ (acMatch n multi s).tb = s.tb := by
  rw [acMatch_eq]
  obtain ⟨hw, -⟩ := matchWords_frame (n := n) multi s
  obtain ⟨hm, hmt⟩ := matchMarked_only (n := n) (matchWords n multi s)
  obtain ⟨ho, hot⟩ := matchSent_only (n := n) (matchMarked n (matchWords n multi s))
  exact ⟨(hw.onlyTb.trans hm).trans ho, hot.trans (hmt.trans hw.tb_eq)⟩

theorem rd_acMatch {k : Nat} (hk : k ∉ acWords n) (he : evFree (acPage n) k) : (acMatch n multi s).rd k = s.rd k := by
  rw [acMatch_eq, rd_matchSent _ he]
  exact (matchWords_frame multi s).2 k hk

theorem flag_acMatch {f : Fld} (hn : n < 32) (hk : f.key = rACn_STAT n) (hf : f.apart (fACn_STAT_MULTI n)) :
    (acMatch n multi s).flag f = (s.setFlag (fACn_STAT_MATCH n) true).flag f := by
  obtain ⟨hs, -, -, hl⟩ := rACn_eq n
  rw [acMatch_eq, ← flag_matchWords multi s hk hf]
  exact flag_of_rd f (rd_matchSent _ (evFree_ac hn (by omega) (by omega)))

theorem last_acMatch (hn : n < 32) : (acMatch n multi s).rd64 (rACn_LAST n) = angleOf s := by
  obtain ⟨hs, -, -, hl⟩ := rACn_eq n
  rw [acMatch_eq, ← last_matchWords multi s]
  exact rd64_of_rd _ (rd_matchSent _ (evFree_ac hn (by omega) (by omega)))
    (rd_matchSent _ (evFree_ac hn (by omega) (by omega)))

theorem acArmed_acMatch : acArmed (acMatch n multi s) n = false := by
  rw [acMatch_eq, acArmed_matchSent, matchMarked, acArmed_acPut, acArmed_acArm]

theorem pendBit_acMatch (hn : n < 32) : pendBit (acMatch n multi s) (acPage n) (n % 16) = true := pendBit_matchSent _ hn

end

/-! A write of ACn_CMP (R63 to R65). -/

/-- The unit waits for its new value. -/
def acStaged (n : Nat) (s : State) : State := (s.acArm n true).acPut n false

/-- The unit waits for a value that ANGLE has reached. -/
def acPast (n : Nat) (s : State) : State := (acStaged n s).setFlag (fACn_STAT_PAST n) true

section
variable {n : Nat} {s : State}

/-- A value above RELOAD in modulo mode sets CMP_RANGE and is never due. -/
theorem acCommit_range (hm : s.flag (fACn_CTRL_MODE n) = false) (hr : s.rd64 (rACn_RELOAD n) < s.rd64 (rACn_CMP n)) :
    acCommit n s = (acStaged n s).setFlag (fACn_STAT_CMPRANGE n) true := by
  unfold acCommit
  extract_lets t v r abs u due w
  have habs : abs = false := hm
  have hvr : r < v := hr
  have hdue : due = false := by simp [due, habs, hvr]
  rw [if_pos (Or.inr hdue)]
  exact if_pos ⟨habs, hvr⟩

/-- Nothing is due of a unit that is off. -/
theorem acCommit_off (hen : s.flag (fACn_CTRL_EN n) = false)
    (h : s.flag (fACn_CTRL_MODE n) = true ∨ s.rd64 (rACn_CMP n) ≤ s.rd64 (rACn_RELOAD n)) :
    acCommit n s = acStaged n s := by
  unfold acCommit
  extract_lets t v r abs u due w
  have hu : u = acStaged n s := if_neg (by
    rintro ⟨h1, h2⟩
    have h3 : r < v := h2
    exact h.elim (fun hm => Bool.false_ne_true (h1.symm.trans hm)) (fun hc => absurd hc (Nat.not_le_of_lt h3)))
  have hoff : u.flag (fACn_CTRL_EN n) = false := by rw [hu]; exact hen
  rw [if_pos (Or.inl hoff), hu]

/-- An absolute value already reached matches at once, or waits for the next CCLK. -/
theorem acCommit_reached (hen : s.flag (fACn_CTRL_EN n) = true) (hm : s.flag (fACn_CTRL_MODE n) = true)
    (hv : s.rd64 (rACn_CMP n) ≤ angleOf s) : acCommit n s =
      if acRuns (acPast n s) n = true ∧ acDone (acPast n s) n = false then acMatch n false (acPast n s)
      else acPast n s := by
  unfold acCommit
  extract_lets t v r abs u due w
  have habs : abs = true := hm
  have hu : u = acStaged n s := if_neg (by rw [habs]; simp)
  have hw : w = acPast n s := by
    rw [acPast, ← hu]
    exact if_pos habs
  have hon : u.flag (fACn_CTRL_EN n) = true := by rw [hu]; exact hen
  have hdue : due = true := by
    unfold due
    rw [if_pos habs, hu]
    exact decide_eq_true hv
  rw [if_neg (by rw [hon, hdue]; simp), hw]

end

theorem frozen_of_rd {s t : State} (p : Nat) (h : ∀ k, k % 1024 < 16 → t.rd k = s.rd k) : frozen t p = frozen s p := by
  have hq : ∀ q, t.flag (fPAGE_CTRL_FREEZE q) = s.flag (fPAGE_CTRL_FREEZE q) := fun q =>
    flag_of_rd _ (h _ (by simp only [fPAGE_CTRL_FREEZE, rPAGE_CTRL]; omega))
  simp only [frozen, hq]

/-- From `s` to `u` ACn_CMP has become `x`, and beside it what a write of it stages. -/
structure CmpPut (n x : Nat) (s u : State) : Prop where
  cmp : u.rd64 (rACn_CMP n) = x
  regs : Claims.Regs s u [rACn_CMP n, rACn_CMP n + 1]
  only : OnlyTb s u
  tb : u.tb = s.tb
  done : u.ev.acCyc = s.ev.acCyc
  quiet : u.ev.pulses = s.ev.pulses ∧ u.evPay = s.evPay ∧ u.evIn = s.evIn ∧ u.sl = s.sl

/-- `s` with the low half of ACn_CMP staged. -/
def acLowPut (n : Nat) (v : Word) (s : State) : State :=
  { s with ev := { s.ev with acLow := storeSet 0 s.ev.acLow n v } }

theorem cmpPut_all (n : Nat) (v : Dword) (s : State) :
    CmpPut n v.toNat s ((acLowPut n (BitVec.ofNat 32 v.toNat) s).wr64 (rACn_CMP n) v.toNat) where
  cmp := (rd64_wr64_self _ _ _).trans (Nat.mod_eq_of_lt v.isLt)
  regs k hk := by
    simp only [List.mem_cons, List.not_mem_nil, or_false, not_or] at hk
    exact rd_wr64_ne _ _ _ hk.1 hk.2
  only := OnlyTb.trans ⟨s.regs, s.evPay, s.evHeld, s.evIn, _, s.sl, s.tb, rfl⟩
    ((onlyTb_wr (acLowPut n _ s) _ _).trans (onlyTb_wr _ _ _))
  tb := State.wr64_tb _ _ _
  done := by
    rw [State.wr64_ev]
    rfl
  quiet := by
    rw [State.wr64_ev, State.wr64_evPay, State.wr64_evIn, State.wr64_sl]
    exact ⟨rfl, rfl, rfl, rfl⟩

theorem cmpPut_high (n : Nat) (l h : Word) (s : State) :
    CmpPut n (l.toNat + h.toNat * 2 ^ 32) s ((s.wr (rACn_CMP n) l).wr (rACn_CMP n + 1) h) where
  cmp := by rw [State.rd64, rd_wr_self, rd_wr_ne _ _ (by omega), rd_wr_self]
  regs k hk := by
    simp only [List.mem_cons, List.not_mem_nil, or_false, not_or] at hk
    rw [rd_wr_ne _ _ hk.2, rd_wr_ne _ _ hk.1]
  only := (onlyTb_wr _ _ _).trans (onlyTb_wr _ _ _)
  tb := by rw [State.wr_tb, State.wr_tb]
  done := by rw [State.wr_ev, State.wr_ev]
  quiet := by simp only [State.wr_ev, State.wr_evPay, State.wr_evIn, State.wr_sl, and_self]

section
variable {n x : Nat} {s u : State} (h : CmpPut n x s u)
include h

theorem CmpPut.rd_ne {k : Nat} (hk : k ≠ rACn_CMP n) (hk' : k ≠ rACn_CMP n + 1) : u.rd k = s.rd k :=
  h.regs k (by simp [hk, hk'])

theorem CmpPut.flag (f : Fld) (hf : f.key = rACn_CTRL n) : u.flag f = s.flag f := by
  obtain ⟨-, -, hc, -⟩ := rACn_eq n
  exact flag_of_rd f (h.rd_ne (by omega) (by omega))

theorem CmpPut.reload : u.rd64 (rACn_RELOAD n) = s.rd64 (rACn_RELOAD n) := by
  obtain ⟨-, hr, hc, -⟩ := rACn_eq n
  exact rd64_of_rd _ (h.rd_ne (by omega) (by omega)) (h.rd_ne (by omega) (by omega))

theorem CmpPut.angle : angleOf u = angleOf s := by
  obtain ⟨-, -, hc, -⟩ := rACn_eq n
  have hk := rACn_CTRL_eq n
  have ha : rANGLE / 1024 = 16 := by decide
  exact rd64_of_rd _ (h.rd_ne (by omega) (by omega)) (h.rd_ne (by omega) (by omega))

theorem acStaged_only : OnlyTb s (acStaged n u) ∧ (acStaged n u).tb = s.tb :=
  ⟨h.only.trans ⟨u.regs, u.evPay, u.evHeld, u.evIn, _, u.sl, u.tb, rfl⟩, h.tb⟩

/-- A staged value. -/
theorem acStaged_effect : (acStaged n u).rd64 (rACn_CMP n) = x ∧ acArmed (acStaged n u) n = true ∧
    Claims.Regs s (acStaged n u) [rACn_CMP n, rACn_CMP n + 1] ∧ Kept s (acStaged n u) := by
  obtain ⟨ho, ht⟩ := acStaged_only h
  refine ⟨h.cmp, ?_, h.regs, ho.kept_of_tb ht⟩
  rw [acStaged, acArmed_acPut, acArmed_acArm]

theorem acStaged_quiet : (acStaged n u).ev.pulses = s.ev.pulses ∧ (acStaged n u).evPay = s.evPay ∧
    (acStaged n u).evIn = s.evIn ∧ (acStaged n u).sl = s.sl := h.quiet

/-- A staged value with a flag of the status word. -/
theorem acStaged_setFlag {f : Fld} (hk : f.key = rACn_STAT n) (hl : f.lo + 1 ≤ 32) (hw : f.width = 1) :
    ((acStaged n u).setFlag f true).rd64 (rACn_CMP n) = x ∧
      ((acStaged n u).setFlag f true).flag f = true ∧ acArmed ((acStaged n u).setFlag f true) n = true ∧
      Claims.Regs s ((acStaged n u).setFlag f true) [rACn_CMP n, rACn_CMP n + 1, rACn_STAT n] ∧
      OnlyTb s ((acStaged n u).setFlag f true) ∧ ((acStaged n u).setFlag f true).tb = s.tb := by
  obtain ⟨hs, -, hc, -⟩ := rACn_eq n
  obtain ⟨hcmp, harm, hregs, -⟩ := acStaged_effect h
  obtain ⟨ho, ht⟩ := acStaged_only h
  refine ⟨?_, flag_setFlag_self _ _ _ hl hw, ?_, fun k hk' => ?_, ho.trans (onlyTb_wr _ _ _), ?_⟩
  · rw [← hcmp]
    exact rd64_of_rd _ (rd_wr_ne _ _ (by omega)) (rd_wr_ne _ _ (by omega))
  · rw [← harm]
    exact acArmed_wr _ _ _ _
  · simp only [List.mem_cons, List.not_mem_nil, or_false, not_or] at hk'
    obtain ⟨h1, h2, h3⟩ := hk'
    rw [← h.rd_ne h1 h2]
    exact rd_wr_ne _ _ (by omega)
  · rw [State.setFlag_tb, ht]

theorem acPast_effect : (acPast n u).rd64 (rACn_CMP n) = x ∧ (acPast n u).flag (fACn_STAT_PAST n) = true ∧
    acArmed (acPast n u) n = true ∧ Claims.Regs s (acPast n u) [rACn_CMP n, rACn_CMP n + 1, rACn_STAT n] ∧
    OnlyTb s (acPast n u) ∧ (acPast n u).tb = s.tb :=
  acStaged_setFlag h (f := fACn_STAT_PAST n) rfl (by simp [fACn_STAT_PAST]) rfl

theorem acPast_quiet : (acPast n u).ev.pulses = s.ev.pulses ∧ (acPast n u).evPay = s.evPay ∧
    (acPast n u).evIn = s.evIn ∧ (acPast n u).sl = s.sl := by
  rw [acPast, State.setFlag_ev, State.setFlag_evPay, State.setFlag_evIn, State.setFlag_sl]
  exact acStaged_quiet h

theorem mode_acPast : (acPast n u).flag (fACn_CTRL_MODE n) = s.flag (fACn_CTRL_MODE n) := by
  obtain ⟨hs, -⟩ := rACn_eq n
  rw [← h.flag (fACn_CTRL_MODE n) rfl, acPast]
  exact flag_setFlag_ne _ _ _ _ (by simp [fACn_STAT_PAST])
    (Or.inl (by simp only [fACn_CTRL_MODE, fACn_STAT_PAST]; omega))

theorem angleOf_acPast : angleOf (acPast n u) = angleOf s := by
  obtain ⟨hs, -, -, -⟩ := rACn_eq n
  have hk := rACn_CTRL_eq n
  have ha : rANGLE / 1024 = 16 := by decide
  rw [← h.angle]
  exact rd64_of_rd _ (rd_wr_ne _ _ (by simp only [fACn_STAT_PAST]; omega))
    (rd_wr_ne _ _ (by simp only [fACn_STAT_PAST]; omega))

/-- The unit's switches and the CCLK of its last match are as they were. -/
theorem acRuns_acPast (hn : n < 32) : acRuns (acPast n u) n = acRuns s n ∧ acDone (acPast n u) n = acDone s n := by
  obtain ⟨hs, -, hc, -⟩ := rACn_eq n
  have hkey := rACn_CTRL_eq n
  have hrd : ∀ k, k ≠ rACn_CMP n → k ≠ rACn_CMP n + 1 → k ≠ rACn_STAT n → (acPast n u).rd k = s.rd k :=
    fun k h1 h2 h3 => by
      obtain ⟨-, -, -, hregs, -, -⟩ := acPast_effect h
      exact hregs k (by simp [h1, h2, h3])
  have hen : (acPast n u).flag (fACn_CTRL_EN n) = s.flag (fACn_CTRL_EN n) :=
    flag_of_rd _ (hrd _ (by simp only [fACn_CTRL_EN]; omega) (by simp only [fACn_CTRL_EN]; omega)
      (by simp only [fACn_CTRL_EN]; omega))
  have hz := frozen_of_rd (acPage n) fun k hk => hrd k (by omega) (by omega) (by omega)
  have hp : rSL_FCYC / 1024 = 336 ∧ (rSL_FCYC + 1) / 1024 = 336 := by decide
  have hf : fcycOf (acPast n u) = fcycOf s :=
    rd64_of_rd _ (hrd _ (by omega) (by omega) (by omega)) (hrd _ (by omega) (by omega) (by omega))
  have hd : (acPast n u).ev.acCyc = s.ev.acCyc := by
    rw [acPast, State.setFlag_ev]
    exact h.done
  exact ⟨by rw [acRuns, acRuns, hen, hz], by rw [acDone, acDone, hd, hf]⟩

end

/-- A match leaves the value and PAST, and the rest is the match's (R64, R66). -/
theorem acMatch_of_past {n x : Nat} {s p : State} (hn : n < 32) (hcmp : p.rd64 (rACn_CMP n) = x)
    (hpast : p.flag (fACn_STAT_PAST n) = true) (hangle : angleOf p = angleOf s) (honly : OnlyTb s p) (htb : p.tb = s.tb) :
    (acMatch n false p).rd64 (rACn_CMP n) = x ∧ (acMatch n false p).flag (fACn_STAT_PAST n) = true ∧
      (acMatch n false p).flag (fACn_STAT_MATCH n) = true ∧ (acMatch n false p).rd64 (rACn_LAST n) = angleOf s ∧
      acArmed (acMatch n false p) n = false ∧ pendBit (acMatch n false p) (acPage n) (n % 16) = true ∧
      Kept s (acMatch n false p) := by
  obtain ⟨hs, -, hc, hl⟩ := rACn_eq n
  obtain ⟨hmo, hmt⟩ := acMatch_only (n := n) false p
  have hrd : ∀ k, rACn_CMP n ≤ k → k ≤ rACn_CMP n + 1 → (acMatch n false p).rd k = p.rd k := fun k h1 h2 =>
    rd_acMatch false p (by simp only [acWords, List.mem_cons, List.not_mem_nil, or_false]; omega)
      (evFree_ac hn (by omega) (by omega))
  refine ⟨?_, ?_, ?_, ?_, acArmed_acMatch false p, pendBit_acMatch false p hn,
    (honly.trans hmo).kept_of_tb (hmt.trans htb)⟩
  · rw [← hcmp]
    exact rd64_of_rd _ (hrd _ (by omega) (by omega)) (hrd _ (by omega) (by omega))
  · rw [flag_acMatch false p hn rfl (Or.inr (by simp [fACn_STAT_PAST, fACn_STAT_MULTI])), ← hpast]
    exact flag_setFlag_ne _ _ _ _ (by simp [fACn_STAT_MATCH]) (Or.inr (by simp [fACn_STAT_PAST, fACn_STAT_MATCH]))
  · rw [flag_acMatch false p hn rfl (Or.inr (by simp [fACn_STAT_MATCH, fACn_STAT_MULTI]))]
    exact flag_setFlag_self _ _ _ (by simp [fACn_STAT_MATCH]) rfl
  · rw [last_acMatch false p hn, hangle]

/-! What follows the advance of ANGLE in a CCLK in which nothing else is due: `Claims.followed`. -/

theorem core_setCore_self (s : State) (n : Nat) (c : Core) : (s.setCore n c).core n = c :=
  storeGet_storeSet_self (Core.reset n) s.cores n c
theorem core_setCore_ne (s : State) {n m : Nat} (c : Core) (h : m ≠ n) : (s.setCore n c).core m = s.core m :=
  storeGet_storeSet_ne (Core.reset m) (Core.reset n) s.cores c h

/-- What the timebase and a boundary may write. -/
def boundaryWords : List Nat :=
  [rANGLE, rANGLE + 1, rTICKNO, rTICKNO + 1, rTICK_K, rRATE, rRATE + 1, rTB_STAT, rTB_PHERR, rPL_RELAYACT, rPL_RELAYACT + 1]

/-- `x` may differ from `w` in those words, in what the events of the timebase's page touch and in the cores of the
F-die, and not in its other registers, its power state, S0, the contexts or MRAM. -/
structure Beside (w x : State) : Prop where
  rd : ∀ k, k ∉ boundaryWords → evFree tbPg k → x.rd k = w.rd k
  core : x.core 4 = w.core 4
  pwr : x.pwr = w.pwr
  cry : x.cry = w.cry
  mram : x.mram = w.mram

namespace Beside
variable {w x y : State}

theorem trans (h : Beside w x) (g : Beside x y) : Beside w y :=
  ⟨fun k hk he => (g.rd k hk he).trans (h.rd k hk he), g.core.trans h.core, g.pwr.trans h.pwr, g.cry.trans h.cry,
    g.mram.trans h.mram⟩

theorem fld (h : Beside w x) (f : Fld) (hk : f.key ∉ boundaryWords) (he : evFree tbPg f.key) : x.fld f = w.fld f :=
  fld_of_rd f (h.rd _ hk he)
theorem flag (h : Beside w x) (f : Fld) (hk : f.key ∉ boundaryWords) (he : evFree tbPg f.key) : x.flag f = w.flag f :=
  flag_of_rd f (h.rd _ hk he)

end Beside

/-- A core without a bundle, for which nothing is due. -/
structure CoreIdle (c : Core) : Prop where
  ni : c.settle.ni = false
  group : c.group = []
  pend : pendingInt c = none
  wait : c.wait = none
  rep : c.rep = none
  fq : c.fq = []

section
variable {s : State} {n : Nat} (h : CoreIdle (s.core n))
include h

theorem recognise_of_idle : recognise n s = none := by
  unfold recognise
  dsimp only
  split
  · rfl
  · rw [h.pend]

/-- Nothing is due at an idle core. -/
theorem dueFirst_of_idle : dueFirst n s = none := by
  have hni : niOverrun n s = none := if_neg (by simp [h.ni])
  have hb : budgetExpiry n s = none := by rw [budgetExpiry, h.group]
  have he : evwTimeout n s = none := by rw [evwTimeout, h.wait]
  have hw : waitReached n s = none := by simp only [waitReached, h.wait]
  rw [dueFirst, hni, hb, recognise_of_idle h, he, hw]

/-- An idle core stays as it is. -/
theorem pumpCore_of_idle : pumpCore n s = s := by
  have hf : frontStep n s = none := by simp only [frontStep, h.fq]
  have hi : issueNext n s = none := by
    unfold issueNext
    split
    · rfl
    · rw [dueFirst_of_idle h, h.rep]
      exact hf
  rw [pumpCore, pump, hi]

end

/-- What a CCLK makes of a core before it acts. -/
def coreTicked (c : Core) : Core := { tickTask (tickSpan c) with issued := false }

/-- In `w` the compare units and the cores of the F-die are off, no timer captures or restarts, no context or journal
entry is there, the rake is frozen and no timer counts. -/
structure Still (w : State) : Prop where
  ac : ∀ n < 32, w.flag (fACn_CTRL_EN n) = false
  cap : ∀ n < 32, w.flag (fGTn_EVIN_CAPEN n) = false
  restart : ∀ n < 32, w.flag (fGTn_EVIN_RSTEN n) = false
  cores : w.fld fRST_CTRL_CORERUN = 0
  ctx : w.cry.ctx = []
  mram : w.mram = []
  rake : w.flag (fPAGE_CTRL_FREEZE rkPg) = true
  mode : w.pwr.mode = .run
  edge : fcycOf w % 16 ≠ 0
  core : CoreIdle (coreTicked (w.core 4))

/-- A CCLK of S0, idle. -/
theorem coreCycle_of_idle {s : State} (h : CoreIdle (coreTicked (s.core 4))) :
    coreCycle 4 s = s ∨ coreCycle 4 s = s.mapCore 4 coreTicked := by
  unfold coreCycle
  split
  · exact Or.inl rfl
  · right
    have hc : countStall 4 s = s := by
      unfold countStall
      exact if_pos (Or.inl (Nat.le_refl 4))
    have hi : CoreIdle ((s.mapCore 4 coreTicked).core 4) := by rw [State.mapCore, core_setCore_self]; exact h
    have hr : repStep 4 (s.mapCore 4 coreTicked) = none := by simp only [repStep, hi.rep]
    simp only [hc]
    change pumpCore 4 (match dueFirst 4 (s.mapCore 4 coreTicked) with
      | some t => t
      | none => match repStep 4 (s.mapCore 4 coreTicked) with | some t => t | none => s.mapCore 4 coreTicked) = _
    rw [dueFirst_of_idle hi, hr]
    exact pumpCore_of_idle hi

theorem coreCycle_of_stopped {s : State} {n : Nat} (h : coreRunning s n = false) : coreCycle n s = s := if_pos (Or.inl h)

theorem coreRunning_of_off {s : State} {n : Nat} (hn : n ≠ 4) (h : s.fld fRST_CTRL_CORERUN = 0) :
    coreRunning s n = false := by
  rw [coreRunning, h, beq_false_of_ne hn]
  simp [natBit]

/-- With the F-die's cores off and S0 idle a CCLK leaves every register. -/
theorem rd_coreCycles {s : State} (h : s.fld fRST_CTRL_CORERUN = 0) (hi : CoreIdle (coreTicked (s.core 4))) (k : Nat) :
    (coreCycles s).rd k = s.rd k := by
  have hoff : ∀ n, n ≠ 4 → coreCycle n s = s := fun n hn => coreCycle_of_stopped (coreRunning_of_off hn h)
  have he : coreCycles s = coreCycle 4 s := by
    simp only [coreCycles, List.foldl, hoff 0 (by decide), hoff 1 (by decide), hoff 2 (by decide), hoff 3 (by decide)]
  rw [he]
  rcases coreCycle_of_idle hi with hc | hc
  · rw [hc]
  · rw [hc, rd_mapCore]

/-! Pulses. -/

theorem beside_setCore (s : State) {n : Nat} (c : Core) (hn : n ≠ 4) : Beside s (s.setCore n c) :=
  ⟨fun _ _ _ => rfl, core_setCore_ne s c (Ne.symm hn), rfl, rfl, rfl⟩

theorem beside_evfArrive (s : State) {n : Nat} (hn : n ≠ 4) : Beside s (evfArrive n s) := by
  unfold evfArrive
  dsimp only
  split
  · exact beside_setCore s _ hn
  · exact beside_setCore s _ hn

theorem beside_irqArrive (s : State) {n : Nat} (j : Nat) (hn : n ≠ 4) : Beside s (irqArrive n j s) :=
  beside_setCore s _ hn

theorem beside_of_evFrame {s t : State} (h : EvFrame s t) (hr : ∀ k, evFree tbPg k → t.rd k = s.rd k) : Beside s t := by
  obtain ⟨_, _, _, _, _, _, _, ho⟩ := onlyTb_of_evFrame h
  exact ⟨fun k _ he => hr k he, by rw [ho]; rfl, by rw [ho], by rw [ho], by rw [ho]⟩

theorem beside_ev (s : State) (e : EvState) : Beside s { s with ev := e } :=
  ⟨fun _ _ _ => rfl, rfl, rfl, rfl, rfl⟩

theorem beside_wr_group (s : State) {k : Nat} (v : Word) (hk : groupKey k) : Beside s (s.wr k v) :=
  ⟨fun _ _ he => rd_wr_ne s v (fun e => he.2.1 (e ▸ hk)), rfl, rfl, rfl, rfl⟩

theorem beside_post_group (s : State) {g : Nat} (b sev u c d : Nat) (hg : g < 16) :
    Beside s (post (egPage g) b sev u c d s) := by
  have hpend : groupKey (rEV_PEND (egPage g)) := by simp only [groupKey, rEV_PEND, egPage]; omega
  exact beside_of_evFrame (post_frame _ _ _ _ _ _ _) fun k he =>
    rd_post _ _ _ _ _ _ _ ⟨fun e => he.2.1 (e ▸ hpend), he.2.1, he.2.2⟩

/-- A group action touches the registers of the groups (R414). -/
theorem beside_groupAct (s : State) {g : Nat} (on : Bool) (hg : g < 16) : Beside s (groupAct g on s) := by
  have hstat : groupKey (fEGg_STAT_ACTLOST g).key := by simp only [groupKey, fEGg_STAT_ACTLOST, rEGg_STAT]; omega
  have hctrl : groupKey (fEGg_CTRL_GEN g).key := by simp only [groupKey, fEGg_CTRL_GEN, rEGg_CTRL]; omega
  unfold groupAct setPost
  extract_lets now old old' _ s'
  have hs : Beside s s' := beside_ev s _
  clear_value s'
  split
  · exact (beside_wr_group s _ hstat).trans (beside_post_group _ _ _ _ _ _ hg)
  · split
    · exact hs
    · exact hs.trans (beside_wr_group s' _ hctrl)

/-- A timer that neither captures nor restarts leaves an arrival alone (R407). -/
theorem gtArrive_of_off {s : State} {n : Nat} (ch : Nat) (hc : s.flag (fGTn_EVIN_CAPEN n) = false)
    (hr : s.flag (fGTn_EVIN_RSTEN n) = false) : gtArrive ch n s = s := by
  have h0 : (if s.flag (fGTn_EVIN_CAPEN n) ∧ s.fld (fGTn_EVIN_CAPCH n) = ch then gtCapIn n s else s) = s :=
    if_neg (by simp [hc])
  rw [gtArrive]
  simp only [h0]
  exact if_neg (by simp [hr])

/-- A fold of steps that each keep `Beside w` keeps it. -/
theorem beside_foldl {α : Type} {w : State} (f : State → α → State) (l : List α)
    (hf : ∀ x, Beside w x → ∀ a ∈ l, Beside w (f x a)) : ∀ x, Beside w x → Beside w (l.foldl f x) := by
  induction l with
  | nil => exact fun x hx => hx
  | cons a l ih =>
    exact fun x hx => ih (fun y hy b hb => hf y hy b (List.mem_cons_of_mem _ hb)) _ (hf x hx a List.mem_cons_self)

/-- A register of another page is not among what may differ. -/
theorem untouched_of_page {k p : Nat} (hk : k / 1024 = p) (hp : p ≠ 16 ∧ p ≠ 384 ∧ (p < 64 ∨ 80 ≤ p))
    (hd : k ≠ rSL_EVDROP) :
    k ∉ boundaryWords ∧ evFree tbPg k := by
  have hb : ∀ k ∈ boundaryWords, k / 1024 = 16 ∨ k / 1024 = 384 := by decide
  have hpend : rEV_PEND tbPg / 1024 = 16 := by decide
  refine ⟨fun h => ?_, fun h => ?_, fun h => ?_, hd⟩
  · have := hb k h
    omega
  · rw [h] at hk
    omega
  · obtain ⟨h1, h2⟩ := h
    omega

theorem untouched_evin {n : Nat} (hn : n < 32) : rGTn_EVIN n ∉ boundaryWords ∧ evFree tbPg (rGTn_EVIN n) :=
  untouched_of_page (p := 32 + n) (by simp only [rGTn_EVIN]; omega) (by omega) (by simp only [rGTn_EVIN, rSL_EVDROP]; omega)

/-- The consumers of a pulse, with no timer among them (R412). -/
theorem beside_deliver {w s : State} (p : Pulse) (hw : Still w) (h : Beside w s) : Beside w (deliver p s) := by
  unfold deliver
  extract_lets c wake _ s₀ s₁ s₂ s₃
  have h₀ : Beside w s₀ := by
    have hwake : wake = false := by simp [wake, h.pwr, hw.mode]
    have : s₀ = s := if_neg (by simp [hwake])
    rwa [this]
  have h₁ : Beside w s₁ := beside_foldl _ _ (fun x hx n hn => by
    have hne : n ≠ 4 := by have := List.mem_range.1 hn; omega
    split
    · exact hx.trans (beside_evfArrive x hne)
    · exact hx) _ h₀
  have h₂ : Beside w s₂ := by
    have hlt : natBits c 21 2 < 4 := Nat.mod_lt _ (by decide)
    unfold s₂
    split
    · exact h₁.trans (beside_irqArrive _ _ (by omega))
    · exact h₁
  have h₃ : Beside w s₃ := beside_foldl _ _ (fun x hx n hn => by
    obtain ⟨hk, he⟩ := untouched_evin (List.mem_range.1 hn)
    rwa [gtArrive_of_off _ ((hx.flag (fGTn_EVIN_CAPEN n) hk he).trans (hw.cap n (List.mem_range.1 hn)))
      ((hx.flag (fGTn_EVIN_RSTEN n) hk he).trans (hw.restart n (List.mem_range.1 hn)))]) _ h₂
  split
  · exact h₃.trans (beside_groupAct s₃ _ (Nat.mod_lt _ (by decide)))
  · exact h₃

theorem beside_deliverDue {w s : State} (hw : Still w) (h : Beside w s) : Beside w (deliverDue s) := by
  unfold deliverDue
  extract_lets due
  exact beside_foldl _ _ (fun x hx p _ => beside_deliver p hw hx) _ (h.trans (beside_ev s _))

/-! The CCLK after the advance of ANGLE. -/

section
variable {w s : State} (hw : Still w) (h : Beside w s)
include hw h

theorem beside_acSteps (a : Nat) : Beside w (acSteps a s) := beside_foldl _ _ (fun x hx n hn => by
  have hlt := List.mem_range.1 hn
  obtain ⟨hk, he⟩ := untouched_of_page (k := rACn_CTRL n) (p := 17 + n / 16) (by have := rACn_CTRL_eq n; omega) (by omega)
    (by simp only [rACn_CTRL, rSL_EVDROP]; omega)
  have hoff : acRuns x n = false := by
    rw [acRuns, hx.flag (fACn_CTRL_EN n) hk he, hw.ac n hlt, Bool.false_and]
  rwa [acStep, if_pos hoff]) _ h

/-- Without contexts, journal entries and a rake that acts, a boundary sets the relay at most. -/
theorem beside_boundaryWork (t₀ : Nat) : Beside w (boundaryWork t₀ s) := by
  have hcry : cryBoundary s = s := by
    unfold cryBoundary
    split
    · rfl
    · rw [h.cry, hw.ctx]
      rfl
  have hjour : jOrder s = [] := by
    have hm : jListed s = [] := by rw [jListed, h.mram, hw.mram]; rfl
    rw [jOrder, hm]
    rfl
  have htally : ∀ b, tallyBoundary b s = s := fun b => by
    simp only [tallyBoundary, hjour, List.foldl_nil]
  have hrake : unlessFrozen rkPg rkBoundary s = s := by
    obtain ⟨hk, he⟩ := untouched_of_page (k := rPAGE_CTRL rkPg) (p := 256) (by decide) (by decide) (by decide)
    have hz := frozen_of_flag ((h.flag (fPAGE_CTRL_FREEZE rkPg) hk he).trans hw.rake)
    exact if_pos hz
  unfold boundaryWork
  split
  · exact h
  · rw [hcry, htally, hrake, unlessFrozen]
    split
    · exact h
    · exact h.trans ⟨fun k hk _ => rd_wr64_ne _ _ _ (fun e => hk (e ▸ by decide)) (fun e => hk (e ▸ by decide)),
        rfl, rfl, rfl, rfl⟩

omit hw in
theorem beside_fabricDue : Beside w (fabricDue s) := by
  have hm : ∀ e x, Beside x (measure e x) := fun e x => by
    have hf := (tbFrame_setFld (own := rTB_PHERR :: requestWords) x fTB_PHERR _ (by decide)).trans
      ((tbFrame_measure e x).mono (List.subset_cons_self _ _))
    obtain ⟨_, _, _, _, _, _, _, ho⟩ := hf.only
    have hs : rTB_PHERR :: requestWords ⊆ boundaryWords := by decide
    exact ⟨fun k hk he => hf.rd k (fun hc => hk (hs hc)) he, by rw [ho]; rfl, by rw [ho], by rw [ho], by rw [ho]⟩
  have hset : ∀ f, Beside s (s.tbSet f) := fun f => ⟨fun _ _ _ => rfl, rfl, rfl, rfl, rfl⟩
  unfold fabricDue
  extract_lets due
  split
  · exact h
  · refine beside_foldl _ _ (fun x hx g _ => ?_) _ (h.trans (hset _))
    unfold fabricMeasure
    split
    · exact hx
    · exact hx.trans (hm _ x)

/-- With nothing else due, what follows the advance leaves the registers that it may not touch. -/
theorem rd_followed {k : Nat} (hk : k ∉ boundaryWords) (he : evFree tbPg k) : (followed w s).rd k = w.rd k := by
  unfold followed
  extract_lets r
  have hr : Beside w r := beside_boundaryWork hw (beside_acSteps hw h _) _
  have hf : fcycOf r % 16 ≠ 0 := by
    obtain ⟨hk₀, he₀⟩ := untouched_of_page (k := rSL_FCYC) (p := 336) (by decide) (by decide) (by decide)
    obtain ⟨hk₁, he₁⟩ := untouched_of_page (k := rSL_FCYC + 1) (p := 336) (by decide) (by decide) (by decide)
    have : fcycOf r = fcycOf w := rd64_of_rd _ (hr.rd _ hk₀ he₀) (hr.rd _ hk₁ he₁)
    rw [this]
    exact hw.edge
  have hd := beside_fabricDue (beside_deliverDue hw hr)
  have hc : (fabricDue (deliverDue r)).fld fRST_CTRL_CORERUN = 0 := by
    obtain ⟨hk', he'⟩ := untouched_of_page (k := rRST_CTRL) (p := rRST_CTRL / 1024) rfl (by decide) (by decide)
    rw [hd.fld fRST_CTRL_CORERUN hk' he', hw.cores]
  rw [if_neg hf, rd_coreCycles hc (by rw [hd.core]; exact hw.core)]
  exact hd.rd k hk he

end

/-- The boundary's own CCLK. -/
theorem beside_of_tickTaken {w u : State} (h : TickTaken w u) : Beside w u := by
  obtain ⟨-, -, -, -, -, hregs, hkept⟩ := h
  obtain ⟨-, -, -, -, hmram, -, -, -, -, hcry, -, -, -, -, -, -, -, hpwr, -, -, hcores⟩ := hkept
  have hown : [rANGLE, rANGLE + 1, rTICKNO, rTICKNO + 1, rTICK_K, rRATE, rRATE + 1, rTB_STAT] ⊆ boundaryWords := by decide
  refine ⟨fun k hk he => hregs k (fun hc => hk (hown hc)) ?_ ?_ he.2.2, ?_, hpwr, hcry, hmram⟩
  · intro p hp
    rw [List.mem_singleton.1 hp]
    exact he.1
  · have hg := he.2.1
    simp only [groupKey] at hg
    omega
  · rw [State.core, State.core]
    exact congrArg (fun c => storeGet (Core.reset 4) c 4) hcores

/-! The counterexample to TickRows. -/

/-- One CCLK before a tick boundary, with an immediate match of unit 0 of timer 0 that waits for the next CCLK (R405). -/
def matchWaiting : State :=
  let s := (State.reset.setFlag (fPAGE_CTRL_EN tbPg) true).wr64 rRATE 2000000000 |>.wr64 rANGLE 837 |>.setFld fTB_SLEW 50
    |>.setFld fCK_STAT_REFOK 1 |>.setFlag (fPAGE_CTRL_FREEZE rkPg) true |>.setFld fRST_CTRL_CORERUN 0
    |>.setFlag (fPAGE_CTRL_EN (gtPage 0)) true |>.setFlag (fGTn_CMPk_CTRL_EN 0 0) true
    |>.tbSet fun b => { b with sub := 4294967295 }
  { s with ev := { EvState.reset with gtDefer := [(0, true)] } }

/-- Its boundary CCLK, with the clocks advanced. -/
def matchWaitingLast : State := lastCclk matchWaiting (nextTick matchWaiting)

/-- The hypotheses of the row hold. -/
theorem matchWaiting_row : Steps matchWaiting matchWaitingLast (nextTick matchWaiting) ∧
    matchWaitingLast.tb.nPend = none ∧ srcOf matchWaitingLast = matchWaitingLast.tb.sel ∧ 0 < matchWaitingLast.tb.nCur ∧
    passedOf matchWaitingLast.tb.nCur none (angleOf matchWaitingLast)
      (angleAfter matchWaitingLast (rateOf matchWaitingLast)) = 1 := by
  decide +kernel

theorem still_matchWaitingLast : Still matchWaitingLast where
  ac := by decide +kernel
  cap := by decide +kernel
  restart := by decide +kernel
  cores := by decide +kernel
  ctx := by decide +kernel
  mram := by decide +kernel
  rake := by decide +kernel
  mode := by decide +kernel
  edge := by decide +kernel
  core :=
    { ni := by decide +kernel
      group := by decide +kernel
      pend := by decide +kernel
      wait := by decide +kernel
      rep := by decide +kernel
      fq := by decide +kernel }

/-- The row lets the match happen that waited. -/
theorem match_tickBoundary : (tickBoundary matchWaiting).flag (fGTn_CMPk_STAT_MATCH 0 0) = true := by decide +kernel

theorem match_matchWaitingLast : matchWaitingLast.flag (fGTn_CMPk_STAT_MATCH 0 0) = false := by decide +kernel

end Sys2Proof.Machine

open Sys2Proof Sys2Proof.Machine Sys2Proof.Claims

/-- Settles O1: one lemma about each of the three operations and one about a refusal. -/
theorem timebaseSwitch : Obligations.TimebaseSwitch := by
  intro s hl
  refine ⟨fun h => ⟨_, rfl, ?enable⟩, fun h hn => ⟨_, rfl, ?disable⟩, fun h hn => ⟨_, rfl, ?refused⟩,
    fun h => ⟨_, rfl, tbLoad_of_off h⟩, fun h => ⟨_, rfl, if_pos h⟩⟩
  case enable =>
    rw [pageEnWrite_tbPg hl (by simp [h]), if_pos rfl]
    obtain ⟨hen, hst, hregs⟩ := tbEnable_of_off h
    have hr := regsTb_tbEnable s h
    exact ⟨hen, hst, hregs, hr.noEvents, hr.kept⟩
  case disable =>
    rw [pageEnWrite_tbPg hl (by simp [h]), if_neg (by simp)]
    obtain ⟨hen, hst, hf⟩ := tbDisable_of_on h hn
    exact ⟨hen, hst, hf.rd64 (by decide) (by decide) (by decide), hf.rd64 (by decide) (by decide) (by decide), hf.kept⟩
  case refused =>
    rw [pageEnWrite_tbPg hl (by simp [h]), if_neg (by simp), tbDisable, if_neg (by simp [h]), if_pos hn]
    exact ⟨(tbEn_tbRefuse s).trans h, tbRefuse_alone s⟩

/-- Settles O2: an accepted N waits while the timebase runs, and comes into effect by `applyN_effect` while it does not. -/
theorem tickCountWrite : Obligations.TickCountWrite := by
  intro s v hl
  have hfld : (s.setFld fTB_N v.toNat).fld fTB_N = v.toNat :=
    (fld_setFld_self s fTB_N v.toNat (by decide)).trans (Nat.mod_eq_of_lt v.isLt)
  refine ⟨fun h => ⟨_, rfl, ?refused⟩, fun hn h1 h2 hen => ⟨_, rfl, ?waits⟩, fun hn h1 h2 hen => ⟨_, rfl, ?applied⟩⟩
  case refused =>
    rw [tbNWrite_refused hl h]
    exact tbRefuse_alone s
  case waits =>
    rw [tbNWrite_accepted hl hn h1 h2, if_pos hen]
    have hr : RegsTb s ((s.setFld fTB_N v.toNat).tbSet fun t => { t with nPend := some v.toNat }) :=
      regsTb_wr_tbSet s _ _ _
    refine ⟨?_, ?_, ?_, regs_tbSet (regs_wr s _ _) _, hr.noEvents, hr.kept⟩
    · rw [fld_tbSet, hfld]
    · rw [State.tbSet_tb]
    · rw [State.tbSet_tb, State.setFld_tb]
  case applied =>
    rw [tbNWrite_accepted hl hn h1 h2, if_neg (by simp [hen])]
    obtain ⟨hcur, hpend, hlmin, hlimit, hpost, hf⟩ := applyN_effect v.toNat (s.setFld fTB_N v.toNat)
    rw [fld_setFld_ne s fTB_N fTB_TICK_MIN _ (by decide) (Or.inl (by decide)), limitOf_eq] at hlimit
    have ht := (tbFrame_setFld (own := rTB_N :: limitWords) s fTB_N v.toNat (by decide)).trans
      (hf.mono (List.subset_cons_self _ _))
    exact ⟨(hf.fld fTB_N (by decide) (by decide) (by decide)).trans hfld, hcur, hpend, hlmin, hlimit, hpost, ht.regsEv,
      ht.kept⟩

/-- Settles O3: a refusal, `limitsChanged` for the tick floor, a selection that waits or governs at once, and plain
fields. -/
theorem timebaseWrites : Obligations.TimebaseWrites := by
  intro s hl
  refine ⟨fun v h => ⟨_, rfl, ?refused⟩, fun v hn h => ⟨_, rfl, ?floor⟩, fun v hen hr => ⟨_, rfl, ?waits⟩,
    fun v hen hs => ⟨_, rfl, ?selects⟩, fun v => ⟨_, rfl, ?rateHold⟩, fun v => ⟨_, rfl, ?gridSrc⟩⟩
  case refused =>
    rw [tbTickMinWrite_refused hl h]
    exact tbRefuse_alone s
  case floor =>
    rw [tbTickMinWrite_accepted hl hn h]
    have hfld : (s.setFld fTB_TICK_MIN v.toNat).fld fTB_TICK_MIN = v.toNat :=
      (fld_setFld_self s fTB_TICK_MIN v.toNat (by decide)).trans (Nat.mod_eq_of_lt v.isLt)
    have hf := tbFrame_limitsChanged (s.setFld fTB_TICK_MIN v.toNat)
    have hlimit := rateLimit_limitsChanged (s.setFld fTB_TICK_MIN v.toNat)
    rw [hfld, State.setFld_tb, limitOf_eq] at hlimit
    have ht := (tbFrame_setFld (own := rTB_TICK_MIN :: limitWords) s fTB_TICK_MIN v.toNat (by decide)).trans
      (hf.mono (List.subset_cons_self _ _))
    exact ⟨(hf.fld fTB_TICK_MIN (by decide) (by decide) (by decide)).trans hfld, hlimit, ht.regsEv, ht.kept⟩
  case waits =>
    rw [tbSrcWrite_waits _ hen hr]
    have ht : RegsTb s (srcWritten v.toNat s) := regsTb_wr_tbSet s _ _ _
    refine ⟨fld_srcWritten s v.isLt, ?_, ?_, regs_tbSet (regs_wr s _ _) _, ht.noEvents, ht.kept⟩
    · rw [tb_srcWritten]
    · rw [tb_srcWritten]
  case selects =>
    rw [tbSrcWrite_selects v.isLt hen hs]
    obtain ⟨hsel, hact, hlock⟩ := selectSource_effect (srcWritten v.toNat s)
    have hsrc := srcOf_srcWritten s v.isLt
    have hlt : srcOf (srcWritten v.toNat s) < 4 := by have := v.isLt; rw [hsrc]; split <;> omega
    have hut := (tbFrame_selectSource (srcWritten v.toNat s)).trans (tbFrame_requestChanged _)
    have ht := ((tbFrame_srcWritten s).mono (by decide)).trans
      (hut.mono (own' := [rTB_CTRL, rTB_STAT, rRATE, rRATE + 1]) (by decide))
    refine ⟨(hut.fld fTB_CTRL_SRC (by decide) (by decide) (by decide)).trans (fld_srcWritten s v.isLt), ?_, ?_, ?_,
      ht.regsEv, ht.kept⟩
    · rw [fld_requestChanged _ (by decide) evFree_stat (Or.inr (by decide)), hact, Nat.mod_eq_of_lt hlt, hsrc]
    · rw [sel_requestChanged, hsel, hsrc]
    · rw [flag_requestChanged _ (by decide) evFree_stat (Or.inr (by decide)), hlock]
  case rateHold =>
    have hv : v.toNat % 2 ^ 48 % 2 ^ 64 = v.toNat := by have := v.isLt; omega
    have hf := tbFrame_requestChanged (s.wr64 rRATE_HOLD (v.toNat % 2 ^ 48))
    have ht := (tbFrame_wr64 (own := [rRATE_HOLD, rRATE_HOLD + 1, rTB_STAT, rRATE, rRATE + 1]) s _ (by decide)
      (by decide)).trans (hf.mono (by decide))
    exact ⟨(hf.rd64 (by decide) (by decide) (by decide)).trans ((rd64_wr64_self s _ _).trans hv), ht.regsEv, ht.kept⟩
  case gridSrc =>
    have hheld : lockHeld s tbPg = false := by rw [lockHeld, hl]; rfl
    have hw : gridSrcWrite v s = (plainWrite rTB_GRID_SRC v s).tbSet fun t => { t with grid := none, cross := none } :=
      if_neg (by simp [hheld])
    rw [hw, plainWrite_GRID_SRC v hheld]
    have ht : RegsTb s ((s.wr rTB_GRID_SRC (gridSrcWord (s.rd rTB_GRID_SRC) v)).tbSet fun t =>
      { t with grid := none, cross := none }) := regsTb_wr_tbSet s _ _ _
    obtain ⟨hpin, hport, hphase, hfield⟩ := natBits_gridSrcWord (s.rd rTB_GRID_SRC) v
    refine ⟨?_, ?_, ?_, ?_, ?_, ?_, regs_tbSet (regs_wr s _ _) _, ht.noEvents, ht.kept⟩
    · rw [State.tbSet_tb]
    · rw [State.tbSet_tb]
    · rw [flag_tbSet, ← natBits_one_ne_zero, ← hpin]
      exact congrArg (· != 0) (fld_wr_self s fTB_GRID_SRC_PIN _)
    · rw [fld_tbSet, ← hport]
      exact fld_wr_self s fTB_GRID_SRC_PORT _
    · rw [fld_tbSet, ← hphase]
      exact fld_wr_self s fTB_GRID_SRC_PHASE _
    · rw [fld_tbSet, ← hfield]
      exact fld_wr_self s fTB_GRID_SRC_FIELD _

/-- Settles O4: one lemma about each of the source's operations, behind the test that the page is not frozen. -/
theorem timebaseSources : Obligations.TimebaseSources := by
  intro s hz
  have hrow : ∀ f : State → State, unlessFrozen tbPg f s = f s := fun f => unlessFrozen_of_not f hz
  refine ⟨fun hpin hsel hc => ⟨_, rfl, ?first⟩, fun p hpin hsel hc _ hmin hmax => ⟨_, rfl, ?crossing⟩,
    fun hact hfar => ⟨_, rfl, ?gridLost⟩, fun hact hmiss => ⟨_, rfl, ?fabricLost⟩,
    fun f a r hin hsel hp h1 h2 => ⟨_, rfl, ?valid⟩, fun f a v r hin ho => ⟨_, rfl, ?other⟩,
    fun f a v r hin hbad => ⟨_, rfl, ?invalid⟩, fun hf ht => ⟨_, rfl, ?floor⟩⟩
  case first =>
    rw [hrow, gsyncEdge, if_pos hpin, crossing_first _ _ hsel hc]
    have hr : RegsTb s (s.tbSet fun t => { t with cross := some ⟨angleOf s, fcycOf s⟩, gridRef := angleOf s }) :=
      regsTb_tbSet s _
    refine ⟨?_, ?_, fun k _ => rd_tbSet s _ k, hr.noEvents, hr.kept⟩
    · rw [State.tbSet_tb]
    · rw [State.tbSet_tb]
  case crossing =>
    rw [hrow, gsyncEdge, if_pos hpin, crossing_valid _ _ hsel hc hmin hmax]
    generalize hu : (s.tbSet fun t => { t with cross := some ⟨angleOf s, fcycOf s⟩, gridRef := angleOf s }) = u
    generalize he : signedOf 24 (wrapTo 24 ((s.fld fTB_GRID_OFFSET : Int) - (angleOf s % 16777216 : Nat))) = e
    have hclamp : max (-2147483648) (min 2147483647 e) = e := by rw [← he]; exact clamp_signedOf_24 _
    have hsu : TbFrame [] s u := by rw [← hu]; exact tbFrame_tbSet _ _
    have hm := tbFrame_measure e u
    have hw := tbFrame_setFld (own := rTB_PHERR :: requestWords) u fTB_PHERR
      (wrapTo 32 (max (-2147483648) (min 2147483647 e))) (by decide)
    have ht := (hsu.mono (List.nil_subset _)).trans (hw.trans (hm.mono (List.subset_cons_self _ _)))
    have hlt : wrapTo 32 e < 2 ^ 32 := by simp only [wrapTo]; omega
    obtain ⟨_, _, _, _, _, _, _, honly⟩ := ht.only
    refine ⟨?_, ?_, ?_, ?_, ?_, ht.rd64 (k := rANGLE) (by decide) (by decide) (by decide)⟩
    · rw [cross_measure, ← hu, State.tbSet_tb]
    · rw [hm.fld fTB_PHERR (by decide) (by decide) (by decide), hclamp, fld_setFld_self _ _ _ (by decide)]
      exact Nat.mod_eq_of_lt hlt
    · rw [honly]
    · rw [honly]
    · rw [honly]
  case gridLost =>
    rw [hrow, gridLost, if_pos ⟨hact, hfar⟩]
    obtain ⟨hsrc, hlost, hlock, hpend, ht⟩ := sourceLost_effect s
    exact ⟨hsrc, hlost, hlock, hpend, ht.regsEv, ht.kept⟩
  case fabricLost =>
    rw [hrow, fabricLost, if_pos ⟨hact, hmiss⟩]
    obtain ⟨hsrc, hlost, hlock, hpend, ht⟩ := sourceLost_effect s
    exact ⟨hsrc, hlost, hlock, hpend, ht.regsEv, ht.kept⟩
  case valid =>
    rw [hrow, timeReceiveF_head hin]
    generalize hu : (s.slSet fun l => { l with inF := r }) = u
    rw [fabricAnswer_valid f a (by rw [← hu]; exact hsel) (by rw [← hu, fld_slSet, flag_slSet]; exact hp)
      (by rw [← hu, fcycOf_slSet]; exact h1) (by rw [← hu, fcycOf_slSet]; exact h2), ← hu]
    exact ⟨rfl, rfl, rfl, rfl, rfl, fun _ _ => rfl, kept_refl s⟩
  case other =>
    rw [hrow, timeReceiveF_head hin, fabricAnswer_other f a v (by rw [fld_slSet, flag_slSet]; exact ho)]
    exact ⟨rfl, rfl, fun _ _ => rfl, kept_refl s⟩
  case invalid =>
    rw [hrow, timeReceiveF_head hin]
    by_cases ho : s.tb.sel ≠ 1 ∨ (s.fld fPL_CTRL_RANK = 1 ∧ s.flag fPL_CTRL_TSRC = true)
    · rw [fabricAnswer_other f a v (by rw [fld_slSet, flag_slSet]; exact ho)]
      exact ⟨rfl, fun hsel hp => (ho.elim (absurd hsel) hp).elim, rfl, fun _ _ => rfl, kept_refl s⟩
    · obtain ⟨hsel, hp⟩ := not_or.1 ho
      generalize hu : (s.slSet fun l => { l with inF := r }) = u
      rw [fabricAnswer_invalid f a (by rw [← hu]; exact not_not.1 hsel) (by rw [← hu, fld_slSet, flag_slSet]; exact hp)
        (by rw [← hu, fcycOf_slSet]; exact hbad), ← hu]
      exact ⟨rfl, fun _ _ => rfl, rfl, fun _ _ => rfl, kept_refl s⟩
  case floor =>
    rw [hrow]
    obtain ⟨hfl, h0, hpend, hr⟩ := floorExit_effect hf ht
    exact ⟨hfl, h0, hpend, hr.regsEv, hr.kept⟩

/-- Settles O5: `halfRead_low` and `halfRead_high`. -/
theorem angleReads : Obligations.AngleReads := by
  intro s m r
  refine ⟨⟨_, rfl, ?low⟩, ⟨_, rfl, ?high⟩⟩
  case low =>
    rw [halfRead_low]
    exact ⟨rfl, rfl, fun _ _ => rfl, ⟨rfl, rfl, rfl, rfl, rfl⟩, kept_refl s⟩
  case high =>
    rw [halfRead_high]
    exact ⟨rfl, storeGet_storeSet_self none s.shadow _ none, fun _ _ => rfl, ⟨rfl, rfl, rfl, rfl, rfl⟩, kept_refl s⟩

/-- Settles O6: the equations of `acCommit`, from the state that a write of ACn_CMP leaves. -/
theorem angleCompare : Obligations.AngleCompare := by
  intro s n
  have hn := n.isLt
  have hall : ∀ v : Dword, acCmpWrite64 n.val v.toNat s =
      acCommit n.val ((acLowPut n.val (BitVec.ofNat 32 v.toNat) s).wr64 (rACn_CMP n.val) v.toNat) := fun _ => rfl
  refine ⟨fun v => ⟨_, rfl, ?low⟩, fun v hen hm => ⟨_, rfl, ?off⟩, fun v hen hm => ⟨_, rfl, ?high⟩,
    fun v hm hr => ⟨_, rfl, ?range⟩, fun v hruns hdone hm hv => ⟨_, rfl, ?reached⟩,
    fun v hen hwait hm hv => ⟨_, rfl, ?waits⟩, fun v hen => ⟨_, rfl, ?reload⟩, fun v hen => ⟨_, rfl, if_pos hen⟩⟩
  case low =>
    exact ⟨storeGet_storeSet_self 0 s.ev.acLow n.val v, fun _ _ => rfl, rfl, rfl, rfl, rfl, rfl, kept_refl s⟩
  case off =>
    rw [acCmpRow, hall]
    have hp := cmpPut_all n.val v s
    rw [acCommit_off ((hp.flag _ rfl).trans hen) (by rw [hp.flag _ rfl, hp.cmp, hp.reload]; exact hm)]
    obtain ⟨hcmp, harm, hregs, hkept⟩ := acStaged_effect hp
    obtain ⟨hpulse, hpay, hin, hsl⟩ := acStaged_quiet hp
    exact ⟨hcmp, harm, hregs, hpulse, hpay, hin, hsl, hkept⟩
  case high =>
    rw [acCmpRow, acCmpWriteHigh]
    have hp := cmpPut_high n.val (storeGet 0 s.ev.acLow n.val) v s
    rw [acCommit_off ((hp.flag _ rfl).trans hen) (by rw [hp.flag _ rfl, hp.cmp, hp.reload]; exact hm)]
    exact acStaged_effect hp
  case range =>
    rw [acCmpRow, hall]
    have hp := cmpPut_all n.val v s
    rw [acCommit_range ((hp.flag _ rfl).trans hm) (by rw [hp.cmp, hp.reload]; exact hr)]
    obtain ⟨hcmp, hflag, -, hregs, honly, htb⟩ :=
      acStaged_setFlag hp (f := fACn_STAT_CMPRANGE n.val) rfl (by simp [fACn_STAT_CMPRANGE]) rfl
    exact ⟨hcmp, hflag, hregs, honly.kept_of_tb htb⟩
  case reached =>
    rw [acCmpRow, hall]
    have hp := cmpPut_all n.val v s
    have hen : s.flag (fACn_CTRL_EN n.val) = true := by rw [acRuns, Bool.and_eq_true] at hruns; exact hruns.1
    obtain ⟨hpr, hpd⟩ := acRuns_acPast hp hn
    rw [acCommit_reached ((hp.flag _ rfl).trans hen) ((hp.flag _ rfl).trans hm) (by rw [hp.cmp, hp.angle]; exact hv),
      if_pos ⟨hpr.trans hruns, hpd.trans hdone⟩]
    obtain ⟨hcmp, hpast, -, -, honly, htb⟩ := acPast_effect hp
    exact acMatch_of_past hn hcmp hpast (angleOf_acPast hp) honly htb
  case waits =>
    rw [acCmpRow, hall]
    have hp := cmpPut_all n.val v s
    obtain ⟨hpr, hpd⟩ := acRuns_acPast hp hn
    rw [acCommit_reached ((hp.flag _ rfl).trans hen) ((hp.flag _ rfl).trans hm) (by rw [hp.cmp, hp.angle]; exact hv),
      if_neg (by rw [hpr, hpd]; rintro ⟨h1, h2⟩; simp [h1, h2] at hwait)]
    obtain ⟨hcmp, hpast, harm, hregs, honly, htb⟩ := acPast_effect hp
    obtain ⟨hpulse, hpay, hin, hsl⟩ := acPast_quiet hp
    refine ⟨hcmp, hpast, harm, ?_, hregs, hpulse, hpay, hin, hsl, honly.kept_of_tb htb⟩
    rw [acNow, if_pos ((mode_acPast hp).trans hm), harm, hcmp, angleOf_acPast hp, decide_eq_true hv]
    rfl
  case reload =>
    have hw : acReloadWrite n.val v.toNat s = s.wr64 (rACn_RELOAD n.val) v.toNat := if_neg (by simp [hen])
    have ho : OnlyRegs s (s.wr64 (rACn_RELOAD n.val) v.toNat) := (onlyRegs_wr s _ _).trans (onlyRegs_wr _ _ _)
    rw [hw]
    refine ⟨(rd64_wr64_self _ _ _).trans (Nat.mod_eq_of_lt v.isLt), fun k hk => ?_, ho.noEvents, ho.kept⟩
    simp only [List.mem_cons, List.not_mem_nil, or_false, not_or] at hk
    exact rd_wr64_ne _ _ _ hk.1 hk.2

/-- Refutes O7, its first clause: at `matchWaiting` the CCLK of the boundary also carries out the immediate match of a timer
that waited for it (`cclk`: `gtDeferred`, R405), and `Claims.followed`, which has no such step, leaves the timer's MATCH
at 0 from every state that the boundary may leave. -/
theorem not_tickRows : ¬ Obligations.TickRows := by
  intro h
  obtain ⟨htick, -⟩ := h matchWaiting
  obtain ⟨hsteps, hn, hsrc, hcur, hpassed⟩ := matchWaiting_row
  obtain ⟨t, ht, u, hu, htu⟩ := htick matchWaitingLast rfl hsteps hn hsrc hcur hpassed
  have hrow : tickBoundary matchWaiting = t := Host.Outcome.next.inj ht
  have hset : t.flag (fGTn_CMPk_STAT_MATCH 0 0) = true := by rw [← hrow, match_tickBoundary]
  obtain ⟨hk, he⟩ := untouched_of_page (k := rGTn_CMPk_STAT 0 0) (p := 32) (by decide) (by decide) (by decide)
  have hclear : t.flag (fGTn_CMPk_STAT_MATCH 0 0) = false := by
    rw [htu, ← match_matchWaitingLast]
    exact flag_of_rd _ (rd_followed still_matchWaitingLast (beside_of_tickTaken hu) hk he)
  exact Bool.false_ne_true (hclear.symm.trans hset)

end

section
/-!
PROOFS. Admission (R77 to R86, R575): the descriptor checks and their order, the slots that the test visits, and the
statements AdmittedFits and AdmissionOrder.
-/

namespace Sys2Proof.Machine
open Sys2Proof Sys2Proof.Claims

/-! The order of the test (R84). -/

theorem firstFail_cons_some (f : Fail) (l : List (Option Fail)) : firstFail (some f :: l) = some f := rfl
theorem firstFail_cons_none (l : List (Option Fail)) : firstFail (none :: l) = firstFail l := rfl
theorem firstFail_eq_none {l : List (Option Fail)} : firstFail l = none ↔ ∀ x ∈ l, x = none := by
  simp only [firstFail, List.findSome?_eq_none_iff, id]

theorem failIf_of_true {b : Bool} (h : b = true) (code detail : Nat) : failIf b code detail = some ⟨code, 0xF, 0, detail⟩ :=
  if_pos h
theorem failIf_of_false {b : Bool} (h : b = false) (code detail : Nat) : failIf b code detail = none := by
  rw [h]; rfl

/-- A failed check of the descriptor ends the test. -/
theorem admission_of_descFail {d : List Word} {f : Fail} (s : State) (n : Nat) (h : descFail d = some f) :
    admission s n d = some f := by rw [admission, h]

theorem admission_of_no_table {s : State} {d : List Word} (n : Nat) (h : descFail d = none)
    (ht : s.flag fCRY_STAT_TTVALID = false) : admission s n d = some ⟨0x03, 0xF, 0, 0⟩ := by rw [admission, h]; exact if_pos ht

/-- A test that finds no failure has passed its last two steps. -/
theorem last_steps_of_admission {s : State} {n : Nat} {d : List Word} (h : admission s n d = none) :
    fieldFail s n d = none ∧ slotsFail s ((d, listCost s d) :: (others s n).map fun e => e.2) d = none := by
  unfold admission at h
  split at h
  · cases h
  · split at h
    · cases h
    · split at h
      · cases h
      · split at h
        · cases h
        · split at h
          · cases h
          · exact ⟨‹_›, h⟩

section
variable {d : List Word}

theorem descFail_of_reserved {b : Nat} (h : reservedByte d = some b) : descFail d = some ⟨0x10, 0xF, 0, b⟩ := by
  rw [descFail, h]; rfl

theorem descFail_of_plog (hr : reservedByte d = none) (h : 12 < xPlog d) : descFail d = some ⟨0x10, 0xF, 0, 0⟩ := by
  rw [descFail, hr, Option.map_none, firstFail_cons_none, failIf_of_true (decide_eq_true h), firstFail_cons_some]

theorem descFail_of_offset (hr : reservedByte d = none) (hp : xPlog d ≤ 12) (h : 2 ^ xPlog d ≤ xOffset d) :
    descFail d = some ⟨0x10, 0xF, 0, 0⟩ := by
  rw [descFail, hr, Option.map_none, firstFail_cons_none, failIf_of_false (decide_eq_false (by omega)),
    firstFail_cons_none, failIf_of_true (decide_eq_true h), firstFail_cons_some]

theorem descFail_of_olist (hr : reservedByte d = none) (hp : xPlog d ≤ 12) (ho : xOffset d < 2 ^ xPlog d)
    (hn : xNord d ≠ 0) (h : xOlist d % 32 ≠ 0) : descFail d = some ⟨0x10, 0xF, 0, 8⟩ := by
  rw [descFail, hr, Option.map_none, firstFail_cons_none, failIf_of_false (decide_eq_false (by omega)),
    firstFail_cons_none, failIf_of_false (decide_eq_false (by omega)), firstFail_cons_none,
    failIf_of_true (by simp [hn, h]), firstFail_cons_some]

end

/-! The contexts that a test counts (R70, R85). -/

theorem mem_others {s : State} {n m : Nat} {c : Ctx} (h : (m, c) ∈ s.cry.ctx) (hm : m ≠ n) (hst : c.st ≠ .free) :
    (m, c.loadDesc, c.loadCost) ∈ others s n :=
  List.mem_map.2 ⟨(m, c), List.mem_filter.2 ⟨h, by simp [hm, hst]⟩, rfl⟩

/-- A candidate that meets the fields of a counted context is refused. -/
theorem fieldFail_of_meets {s : State} {n m : Nat} {d e : List Word} {k : Cost} (h : (m, e, k) ∈ others s n)
    (hm : xMeets d e = true) : fieldFail s n d ≠ none := by
  rw [fieldFail, Ne, Option.map_eq_none_iff, List.find?_eq_none]
  exact fun hnone => hnone _ h hm

/-! The slots (R83, R84). -/

theorem overIf_eq_none {x lim code res slot : Nat} : overIf x lim code res slot = none ↔ x ≤ lim := by
  simp [overIf]

/-- A slot that passes its tests holds every sum within its limit. -/
theorem fits_of_slotFail {s : State} {all : List (List Word × Cost)} {slot : Nat} (h : slotFail s all slot = none) :
    (∀ p, p < 4 → slotPan s (all.filter fun e => xFalls e.1 slot) p ≤ cryA s) ∧
    (∀ c, c < 4 → slotCore s (all.filter fun e => xFalls e.1 slot) c ≤ cryA s) ∧
    slotS (all.filter fun e => xFalls e.1 slot) ≤ cryScap s := by
  simp only [slotFail, firstFail_eq_none, List.forall_mem_append, List.forall_mem_map, List.forall_mem_singleton,
    overIf_eq_none, List.mem_range] at h
  obtain ⟨⟨hpan, hcore⟩, hsal⟩ := h
  exact ⟨hpan, hcore, hsal⟩

/-- The longest period among descriptors, as its logarithm. -/
def longestPlog (l : List (List Word × Cost)) : Nat := (l.map fun e => xPlog e.1).foldl max 0

theorem foldl_max_spec (l : List Nat) (a : Nat) : a ≤ l.foldl max a ∧ ∀ x ∈ l, x ≤ l.foldl max a := by
  induction l generalizing a with
  | nil => exact ⟨le_rfl, nofun⟩
  | cons b l ih =>
    obtain ⟨hstart, hrest⟩ := ih (max a b)
    exact ⟨(le_max_left a b).trans hstart, List.forall_mem_cons.2 ⟨(le_max_right a b).trans hstart, hrest⟩⟩

theorem xPlog_le_longestPlog {l : List (List Word × Cost)} {e : List Word × Cost} (h : e ∈ l) :
    xPlog e.1 ≤ longestPlog l :=
  (foldl_max_spec _ 0).2 _ (List.mem_map_of_mem h)

/-- Beyond a multiple of its period a context launches as before. -/
theorem xFalls_mod {e : List Word} {k : Nat} (h : xPlog e ≤ k) (slot : Nat) : xFalls e (slot % 2 ^ k) = xFalls e slot := by
  rw [xFalls, xFalls, Nat.mod_mod_of_dvd _ (pow_dvd_pow 2 h)]

/-- Beyond the longest period the slots repeat. -/
theorem filter_xFalls_mod (l : List (List Word × Cost)) (slot : Nat) :
    (l.filter fun e => xFalls e.1 (slot % 2 ^ longestPlog l)) = l.filter fun e => xFalls e.1 slot :=
  List.filter_congr fun _ he => xFalls_mod (xPlog_le_longestPlog he) slot

/-- The slots in which a context launches, up to a longer period, are those that the test visits. -/
theorem slot_visited {d : List Word} {k slot : Nat} (hk : xPlog d ≤ k) (hslot : slot < 2 ^ k) (h : xFalls d slot = true) :
    ∃ j, j < 2 ^ (k - xPlog d) ∧ xOffset d + j * 2 ^ xPlog d = slot := by
  refine ⟨slot / 2 ^ xPlog d, ?_, ?_⟩
  · rw [Nat.div_lt_iff_lt_mul (Nat.two_pow_pos _), ← pow_add, Nat.sub_add_cancel hk]
    exact hslot
  · rw [xFalls, beq_iff_eq] at h
    rw [← h, Nat.mul_comm]
    exact Nat.mod_add_div slot _

/-- A test that refuses no slot has passed every slot in which the candidate launches. -/
theorem slotFail_of_slotsFail {s : State} {l : List (List Word × Cost)} {d : List Word} {k : Cost}
    (h : slotsFail s ((d, k) :: l) d = none) {slot : Nat} (hslot : xFalls d slot = true) :
    slotFail s ((d, k) :: l) (slot % 2 ^ longestPlog ((d, k) :: l)) = none := by
  have hle : xPlog d ≤ longestPlog ((d, k) :: l) := xPlog_le_longestPlog (e := (d, k)) List.mem_cons_self
  obtain ⟨j, hj, heq⟩ := slot_visited hle (Nat.mod_lt slot (Nat.two_pow_pos _)) ((xFalls_mod hle slot).trans hslot)
  rw [← heq]
  exact List.findSome?_eq_none_iff.1 h j (List.mem_range.2 hj)

end Sys2Proof.Machine

open Sys2Proof Sys2Proof.Machine Sys2Proof.Claims

/-- Settles O28: the slot, reduced modulo the longest period, is one that the test visits, and the same contexts launch in
it. -/
theorem admittedFits : Obligations.AdmittedFits := by
  intro s n d h slot hslot
  obtain ⟨-, hslots⟩ := last_steps_of_admission h
  have hfits := fits_of_slotFail (slotFail_of_slotsFail hslots hslot)
  rwa [filter_xFalls_mod] at hfits

/-- Settles O29: the checks of the descriptor in their order, then TABLE_INVALID; the owner of a field is among the contexts
that step 6 visits. -/
theorem admissionOrder : Obligations.AdmissionOrder := by
  intro s n d
  refine ⟨fun b hb => admission_of_descFail s n (descFail_of_reserved hb),
    fun hr hp => admission_of_descFail s n (descFail_of_plog hr hp),
    fun hr hp ho => admission_of_descFail s n (descFail_of_offset hr hp ho),
    fun hr hp ho hn ha => admission_of_descFail s n (descFail_of_olist hr hp ho hn ha),
    fun hd ht => admission_of_no_table n hd ht, fun m e hst hm hmem he hmeets hnone => ?_⟩
  obtain ⟨hfield, -⟩ := last_steps_of_admission hnone
  exact fieldFail_of_meets (mem_others hmem hm hst) (he ▸ hmeets) hfield

end

section
/-!
PROOFS. Operations of the Crystallizer (R69, R70, R73 to R76, R575): what a write of CRY_OP does, what an operation's
performance may touch, what its answer adds, and the statements CrystallizerOperations and OperationDone.
-/

namespace Sys2Proof.Machine
open Sys2Proof Sys2Proof.Claims

/-! A write of CRY_OP (R73). -/

/-- The fields of CRY_STAT share no bit. -/
theorem flag_CFGREFUSED_setFlag_OPBUSY (s : State) (b : Bool) :
    (s.setFlag fCRY_STAT_OPBUSY b).flag fCRY_STAT_CFGREFUSED = s.flag fCRY_STAT_CFGREFUSED :=
  flag_setFlag_ne s _ _ b (by decide) (Or.inr (by decide))
theorem flag_TTVALID_setFlag_OPBUSY (s : State) (b : Bool) :
    (s.setFlag fCRY_STAT_OPBUSY b).flag fCRY_STAT_TTVALID = s.flag fCRY_STAT_TTVALID :=
  flag_setFlag_ne s _ _ b (by decide) (Or.inr (by decide))
theorem fld_NADMIT_setFlag_OPBUSY (s : State) (b : Bool) :
    (s.setFlag fCRY_STAT_OPBUSY b).fld fCRY_STAT_NADMIT = s.fld fCRY_STAT_NADMIT :=
  fld_setFlag_ne s _ _ b (by decide) (Or.inr (by decide))

/-- A refused write of the Crystallizer sets CFG_REFUSED, and nothing else. -/
theorem cryRefused_alone (s : State) :
    (s.setFlag fCRY_STAT_CFGREFUSED true).flag fCRY_STAT_CFGREFUSED = true ∧
    (s.setFlag fCRY_STAT_CFGREFUSED true).fld fCRY_STAT_NADMIT = s.fld fCRY_STAT_NADMIT ∧
    Claims.Regs s (s.setFlag fCRY_STAT_CFGREFUSED true) [rCRY_STAT] ∧
    NoEvents s (s.setFlag fCRY_STAT_CFGREFUSED true) ∧ Kept s (s.setFlag fCRY_STAT_CFGREFUSED true) :=
  ⟨flag_setFlag_self s _ true (by decide) rfl, fld_setFlag_ne s _ _ true (by decide) (Or.inr (by decide)), regs_wr s _ _,
    (onlyRegs_wr s _ _).noEvents, (onlyRegs_wr s _ _).kept⟩

section
variable {s : State} (op n : Nat)

theorem opStart_of_busy (hb : s.flag fCRY_STAT_OPBUSY = true) :
    (opStart op n s).flag fCRY_STAT_CFGREFUSED = true ∧ (opStart op n s).flag fCRY_STAT_OPBUSY = true ∧
    (opStart op n s).fld fCRY_STAT_NADMIT = s.fld fCRY_STAT_NADMIT ∧ Claims.Regs s (opStart op n s) [rCRY_STAT] ∧
    NoEvents s (opStart op n s) ∧ Kept s (opStart op n s) := by
  rw [opStart, if_pos hb]
  obtain ⟨hset, hrest⟩ := cryRefused_alone s
  exact ⟨hset, (flag_setFlag_ne s _ _ true (by decide) (Or.inr (by decide))).trans hb, hrest⟩

theorem opStart_of_idle (hb : s.flag fCRY_STAT_OPBUSY = false) (hf : frozen s cryPg = false) :
    (opStart op n s).cry.op = some ⟨op, n, stagedDesc s⟩ ∧ (opStart op n s).flag fCRY_STAT_OPBUSY = true ∧
    (opStart op n s).flag fCRY_STAT_CFGREFUSED = s.flag fCRY_STAT_CFGREFUSED ∧
    (opStart op n s).flag fCRY_STAT_TTVALID = s.flag fCRY_STAT_TTVALID ∧
    (opStart op n s).fld fCRY_STAT_NADMIT = s.fld fCRY_STAT_NADMIT ∧ Claims.Regs s (opStart op n s) [rCRY_STAT] ∧
    NoEvents s (opStart op n s) ∧
    Kept s { opStart op n s with cry := { (opStart op n s).cry with op := s.cry.op } } := by
  rw [opStart, if_neg (by simp [hb]), if_neg (by simp [hf])]
  exact ⟨rfl, flag_setFlag_self s _ true (by decide) rfl, flag_CFGREFUSED_setFlag_OPBUSY s true,
    flag_TTVALID_setFlag_OPBUSY s true, fld_NADMIT_setFlag_OPBUSY s true, regs_wr s _ _, ⟨rfl, rfl, rfl, rfl, rfl⟩,
    kept_refl s⟩

theorem opStart_of_frozen (hb : s.flag fCRY_STAT_OPBUSY = false) (hf : frozen s cryPg = true) : opStart op n s = s := by
  rw [opStart, if_neg (by simp [hb]), if_pos hf]

end

/-! What an operation may touch. -/

/-- `t` differs from `s` at most in its registers, in what events use beside them, in the Crystallizer, in the peaks of the
Saltern's ports, in the holds of the Rake and in the free values taken. -/
def OnlyOp (s t : State) : Prop :=
  ∃ r p h i e l c k d f, t = { s with
    regs := r, evPay := p, evHeld := h, evIn := i, ev := e, sl := l, cry := c, sal := { s.sal with peak := k },
    rk := { s.rk with holds := d }, free := f }

theorem OnlyOp.refl (s : State) : OnlyOp s s :=
  ⟨s.regs, s.evPay, s.evHeld, s.evIn, s.ev, s.sl, s.cry, s.sal.peak, s.rk.holds, s.free, rfl⟩
theorem OnlyOp.trans {s t u : State} (h : OnlyOp s t) (g : OnlyOp t u) : OnlyOp s u := by
  obtain ⟨_, _, _, _, _, _, _, _, _, _, rfl⟩ := h
  obtain ⟨r, p, h, i, e, l, c, k, d, f, rfl⟩ := g
  exact ⟨r, p, h, i, e, l, c, k, d, f, rfl⟩
theorem onlyOp_wr (s : State) (k : Nat) (v : Word) : OnlyOp s (s.wr k v) :=
  ⟨_, s.evPay, s.evHeld, s.evIn, s.ev, s.sl, s.cry, s.sal.peak, s.rk.holds, s.free, rfl⟩
theorem onlyOp_crySet (s : State) (f : CryState → CryState) : OnlyOp s (s.crySet f) :=
  ⟨s.regs, s.evPay, s.evHeld, s.evIn, s.ev, s.sl, _, s.sal.peak, s.rk.holds, s.free, rfl⟩
theorem onlyOp_holds (s : State) (f : List Hold → List Hold) :
    OnlyOp s (s.rkSet fun r => { r with holds := f r.holds }) :=
  ⟨s.regs, s.evPay, s.evHeld, s.evIn, s.ev, s.sl, s.cry, s.sal.peak, _, s.free, rfl⟩
theorem onlyOp_stepFree (s : State) : OnlyOp s s.stepFree :=
  ⟨s.regs, s.evPay, s.evHeld, s.evIn, s.ev, s.sl, s.cry, s.sal.peak, s.rk.holds, _, rfl⟩
theorem onlyOp_portTouch (port : Nat) (s : State) : OnlyOp s (portTouch port s) :=
  ⟨s.regs, s.evPay, s.evHeld, s.evIn, s.ev, s.sl, s.cry, _, s.rk.holds, s.free, rfl⟩
theorem onlyOp_of_evFrame {s t : State} (h : EvFrame s t) : OnlyOp s t := by
  refine ⟨t.regs, t.evPay, t.evHeld, t.evIn, t.ev, t.sl, t.cry, t.sal.peak, t.rk.holds, t.free, ?_⟩
  obtain ⟨⟩ := s
  obtain ⟨⟩ := t
  obtain ⟨⟩ := h
  simp_all

/-- What the statements call kept, where the parts that an operation may touch are put back. -/
theorem OnlyOp.kept {s t : State} (h : OnlyOp s t) {c : CryState} {r : RakeState} {f : Nat} (hc : c = s.cry)
    (hr : r = s.rk) (hf : f = s.free) :
    Kept s { t with cry := c, sal := { t.sal with peak := s.sal.peak }, rk := r, free := f } := by
  obtain ⟨_, _, _, _, _, _, _, _, _, _, rfl⟩ := h
  subst hc hr hf
  exact kept_refl s

theorem OnlyOp.holds {s t : State} (h : OnlyOp s t) : { t.rk with holds := s.rk.holds } = s.rk := by
  obtain ⟨_, _, _, _, _, _, _, _, _, _, rfl⟩ := h
  rfl

/-- From `s` to `u` an operation has been performed: of the registers CRY_STAT, those of `own` and those that an event of
the pages `pgs` touches may have changed, and of the rest what `OnlyOp` names. -/
structure Performed (own pgs : List Nat) (s u : State) : Prop where
  rd : ∀ k, k ∉ rCRY_STAT :: own → (∀ p ∈ pgs, evFree p k) → u.rd k = s.rd k
  refused : u.flag fCRY_STAT_CFGREFUSED = s.flag fCRY_STAT_CFGREFUSED
  valid : u.flag fCRY_STAT_TTVALID = s.flag fCRY_STAT_TTVALID
  only : OnlyOp s u

theorem Performed.trans {own pgs : List Nat} {s t u : State} (h : Performed own pgs s t) (g : Performed own pgs t u) :
    Performed own pgs s u :=
  ⟨fun k ho he => (g.rd k ho he).trans (h.rd k ho he), g.refused.trans h.refused, g.valid.trans h.valid,
    h.only.trans g.only⟩

section
variable {own pgs : List Nat} {s u : State}

/-- No register changed. -/
theorem performed_of_rd (hr : ∀ k, u.rd k = s.rd k) (h : OnlyOp s u) : Performed own pgs s u :=
  ⟨fun k _ _ => hr k, flag_of_rd _ (hr _), flag_of_rd _ (hr _), h⟩
theorem Performed.refl (s : State) : Performed own pgs s s := performed_of_rd (fun _ => rfl) (OnlyOp.refl s)

/-- A register of `own`, none of them CRY_STAT, is written. -/
theorem performed_wr (s : State) {k : Nat} (v : Word) (hk : k ∈ own) (hs : rCRY_STAT ≠ k) :
    Performed own pgs s (s.wr k v) :=
  ⟨fun _ ho _ => rd_wr_ne s v fun h => ho (List.mem_cons_of_mem _ (h ▸ hk)), flag_of_rd _ (rd_wr_ne s v hs),
    flag_of_rd _ (rd_wr_ne s v hs), onlyOp_wr s k v⟩

/-- CRY_STAT is no register that an event of its own page or of the Rake's touches. -/
theorem evFree_CRY_STAT {p : Nat} (hp : p ∈ [cryPg, rkPg]) : evFree p rCRY_STAT :=
  ⟨by revert p; decide, fun hg => absurd hg.2 (by decide), by decide⟩

theorem performed_postEvent (e : Ev) (x : List Byte) (s : State) (hp : e.pg ∈ pgs) (hc : e.pg ∈ [cryPg, rkPg]) :
    Performed own pgs s (postEvent e x s) :=
  have hs : (postEvent e x s).rd rCRY_STAT = s.rd rCRY_STAT := rd_postEvent e x s (evFree_CRY_STAT hc)
  ⟨fun _ _ he => rd_postEvent e x s (he _ hp), flag_of_rd _ hs, flag_of_rd _ hs, onlyOp_of_evFrame (postEvent_frame e x s)⟩

theorem performed_endHolds (p : Hold → Bool) (t : Nat) (s : State) : Performed own pgs s (endHolds p t s) :=
  performed_of_rd (fun _ => rfl) (onlyOp_holds s _)

end

/-! The contexts (R69, R70, R101). -/

theorem ctxOf_setCtx (s : State) (n m : Nat) (c : Ctx) : ctxOf (s.setCtx n c) m = if m = n then c else ctxOf s m :=
  storeGet_storeSet Ctx.free s.cry.ctx n m c

theorem ctxOf_of_cry {s t : State} (h : t.cry.ctx = s.cry.ctx) (n : Nat) : ctxOf t n = ctxOf s n := by rw [ctxOf, h]; rfl

theorem counted_setCtx (s : State) (n : Nat) (c : Ctx) : Counted (s.setCtx n c) :=
  fld_setFld_self _ fCRY_STAT_NADMIT _ (by decide)

theorem performed_setCtx {own pgs : List Nat} (s : State) (n : Nat) (c : Ctx) : Performed own pgs s (s.setCtx n c) :=
  ⟨fun _ ho _ => rd_setFld_ne _ _ _ (List.ne_of_not_mem_cons ho), flag_setFld_ne _ _ _ _ (by decide) (Or.inr (by decide)),
    flag_setFld_ne _ _ _ _ (by decide) (Or.inr (by decide)), (onlyOp_crySet s _).trans (onlyOp_wr _ _ _)⟩

/-- Of the contexts `n` alone changed, to `c`, and NADMIT counts them. -/
structure CtxChanged (s u : State) (n : Nat) (c : Ctx) : Prop where
  own : ctxOf u n = c
  other : OtherCtx s u n
  only : OnlyCtx s u
  counted : Counted u

theorem ctxChanged_setCtx {s t : State} (h : t.cry = s.cry) (n : Nat) (c : Ctx) : CtxChanged s (t.setCtx n c) n c where
  own := by rw [ctxOf_setCtx, if_pos rfl]
  other := fun m hm => by rw [ctxOf_setCtx, if_neg hm, ctxOf, h]; rfl
  only := by
    rw [OnlyCtx, State.setCtx, State.setFld_cry, State.crySet_cry, h]
  counted := counted_setCtx t n c

/-- What comes after a change of a context keeps it. -/
theorem CtxChanged.after {s u v : State} {n : Nat} {c : Ctx} (h : CtxChanged s u n c) (hc : v.cry.ctx = u.cry.ctx)
    (ho : OnlyCtx u v) (hn : v.fld fCRY_STAT_NADMIT = u.fld fCRY_STAT_NADMIT) : CtxChanged s v n c where
  own := (ctxOf_of_cry hc n).trans h.own
  other := fun m hm => (ctxOf_of_cry hc m).trans (h.other m hm)
  only := by
    have h1 := h.only
    have h2 := ho
    unfold OnlyCtx at h1 h2 ⊢
    rw [← h1, ← h2]
  counted := by rw [Counted, hn, hc]; exact h.counted

/-! Reads without an error (R112, R113). -/

/-- `t` is `s` but for the peaks of the Saltern's ports. -/
def PeakOnly (s t : State) : Prop := ∃ k, t = { s with sal := { s.sal with peak := k } }

theorem PeakOnly.refl (s : State) : PeakOnly s s := ⟨s.sal.peak, rfl⟩
theorem PeakOnly.trans {s t u : State} (h : PeakOnly s t) (g : PeakOnly t u) : PeakOnly s u := by
  obtain ⟨_, rfl⟩ := h
  obtain ⟨k, rfl⟩ := g
  exact ⟨k, rfl⟩
theorem PeakOnly.clean {s t : State} (h : PeakOnly s t) (hs : Clean s) : Clean t := by
  obtain ⟨_, rfl⟩ := h
  exact hs
theorem PeakOnly.performed {own pgs : List Nat} {s t : State} (h : PeakOnly s t) : Performed own pgs s t := by
  obtain ⟨k, rfl⟩ := h
  exact performed_of_rd (fun _ => rfl) ⟨s.regs, s.evPay, s.evHeld, s.evIn, s.ev, s.sl, s.cry, k, s.rk.holds, s.free, rfl⟩

section
variable {s : State}

theorem wordRead_of_no_error (h : s.sal.err = []) (port a n w : Nat) : wordRead port a n w s = s := by
  have hok : ∀ b, salErr s b = .ok := fun b => by rw [salErr, h]; rfl
  have hue : ueBytes s a n w = [] := by simp [ueBytes, hok]
  have hce : ceBytes s a n w = [] := by simp [ceBytes, hok]
  rw [wordRead, wordReadBy, hue, hce]

theorem salReadFx_of_no_error (h : s.sal.err = []) (port a n : Nat) : PeakOnly s (salReadFx port a n s) := by
  have hfix : ∀ l : List Nat, l.foldl (fun t i => wordRead port a n (a / 8 + i) t) (portTouch port s) = portTouch port s :=
    fun l => List.foldl_fixed' (fun i => wordRead_of_no_error (s := portTouch port s) h port a n _) l
  rw [salReadFx, readFx, hfix]
  exact ⟨_, rfl⟩

theorem tagReadFx_of_no_error (h : s.sal.tagUe = []) (a : Nat) : tagReadFx a s = s := by
  rw [tagReadFx, h]
  exact if_neg Bool.false_ne_true

/-- The reads of an admission test find no error in a Saltern without one. -/
theorem admissionReads_of_clean (h : Clean s) (d : List Word) (f : Option Fail) : PeakOnly s (admissionReads d f s) := by
  have hcap : ∀ {t : State} (c : Prop) [Decidable c] (a m : Nat), PeakOnly s t →
      PeakOnly s (if c then tagReadFx a (salReadFx 65 a m t) else t) := fun c _ a m ht => by
    split
    · have hread := ht.trans (salReadFx_of_no_error (ht.clean h).1 65 a m)
      rwa [tagReadFx_of_no_error (hread.clean h).2]
    · exact ht
  have horders : ∀ {t : State} (l : List Nat), PeakOnly s t → PeakOnly s (l.foldl (fun t i =>
      if xOlist d + 32 * i + 32 ≤ salSize then salReadFx 65 (xOlist d + 32 * i) 32 t else t) t) := fun l ht =>
    List.foldlRecOn l _ ht fun t ht i _ => by
      split
      · exact ht.trans (salReadFx_of_no_error (ht.clean h).1 65 _ 32)
      · exact ht
  unfold admissionReads
  extract_lets code det u v m
  have hu : PeakOnly s u := hcap _ _ _ (PeakOnly.refl s)
  split
  · exact PeakOnly.refl s
  · split
    · exact hu
    · exact horders _ (hcap _ _ _ hu)

end

/-! The answer (R73, R75). -/

/-- What follows the performance of an operation: the result registers, OPBUSY and OP_DONE. -/
def concluded (n : Nat) (a : OpAns) (u : State) : State :=
  let r := (u.wr rCRY_RESULT (BitVec.ofNat 32 (a.code * 2 ^ 24 + a.res * 2 ^ 20 + a.slot * 2 ^ 8))).wr rCRY_RESULT2
    (BitVec.ofNat 32 a.res2)
  post cryPg 0 1 n 0 0 (((r.wr64 rCRY_EFFECT a.effect).setFlag fCRY_STAT_OPBUSY false).crySet fun c => { c with op := none })

theorem opDone_of_op {s : State} {r : CryOp} (hf : frozen s cryPg = false) (hop : s.cry.op = some r) :
    opDone s = concluded r.ctx (opPerform r s).1 (opPerform r s).2 := by
  rw [opDone, hop]
  exact if_neg (by simp [hf])

/-- With no operation, or frozen, nothing completes (R574). -/
theorem opDone_of_none {s : State} (h : s.cry.op = none ∨ frozen s cryPg = true) : opDone s = s := by
  unfold opDone
  split
  · rfl
  · next hop => rw [if_pos (h.resolve_left (by simp [hop]))]

/-- The registers that an answer writes. -/
def answerRegs : List Nat := [rCRY_RESULT, rCRY_RESULT2, rCRY_EFFECT, rCRY_EFFECT + 1, rCRY_STAT]

theorem evFree_cryPg {k : Nat} (h : k / 1024 = cryPg) (hk : k ≠ rEV_PEND cryPg) : evFree cryPg k :=
  ⟨hk, fun hg => absurd hg.2 (by rw [h]; decide), by rintro rfl; exact absurd h (by decide)⟩

section
variable (n : Nat) (a : OpAns) (u : State)

theorem rd_concluded {k : Nat} (hk : k ∉ answerRegs) (he : evFree cryPg k) : (concluded n a u).rd k = u.rd k := by
  simp only [answerRegs, List.mem_cons, List.not_mem_nil, or_false, not_or] at hk
  obtain ⟨h1, h2, h3, h4, h5⟩ := hk
  rw [concluded, rd_post _ _ _ _ _ _ _ he, rd_crySet, rd_setFlag_ne _ _ _ h5, rd_wr64_ne _ _ _ h3 h4, rd_wr_ne _ _ h2,
    rd_wr_ne _ _ h1]

theorem rd_RESULT_concluded : (concluded n a u).rd rCRY_RESULT =
    BitVec.ofNat 32 (a.code * 2 ^ 24 + a.res * 2 ^ 20 + a.slot * 2 ^ 8) := by
  rw [concluded, rd_post _ _ _ _ _ _ _ (evFree_cryPg (by decide) (by decide)), rd_crySet, rd_setFlag_ne _ _ _ (by decide),
    rd_wr64_ne _ _ _ (by decide) (by decide), rd_wr_ne _ _ (by decide), rd_wr_self]

theorem rd_RESULT2_concluded : (concluded n a u).rd rCRY_RESULT2 = BitVec.ofNat 32 a.res2 := by
  rw [concluded, rd_post _ _ _ _ _ _ _ (evFree_cryPg (by decide) (by decide)), rd_crySet, rd_setFlag_ne _ _ _ (by decide),
    rd_wr64_ne _ _ _ (by decide) (by decide), rd_wr_self]

theorem rd64_EFFECT_concluded : (concluded n a u).rd64 rCRY_EFFECT = a.effect % 2 ^ 64 := by
  have hpost : ∀ {t : State} {k : Nat}, k / 1024 = cryPg → k ≠ rEV_PEND cryPg → k ≠ rCRY_STAT →
      (post cryPg 0 1 n 0 0 ((t.setFlag fCRY_STAT_OPBUSY false).crySet fun c => { c with op := none })).rd k = t.rd k :=
    fun hp hk hs => by rw [rd_post _ _ _ _ _ _ _ (evFree_cryPg hp hk), rd_crySet, rd_setFlag_ne _ _ _ hs]
  rw [concluded, rd64_of_rd _ (hpost (by decide) (by decide) (by decide)) (hpost (by decide) (by decide) (by decide)),
    rd64_wr64_self]

/-- The answer changes no field of CRY_STAT but OPBUSY. -/
theorem fld_STAT_concluded {f : Fld} (hk : f.key = rCRY_STAT) (hd : f.apart fCRY_STAT_OPBUSY) :
    (concluded n a u).fld f = u.fld f := by
  have hs : ∀ {t : State} v w x, (((t.wr rCRY_RESULT v).wr rCRY_RESULT2 w).wr64 rCRY_EFFECT x).rd f.key = t.rd f.key :=
    fun v w x => by
      rw [hk, rd_wr64_ne _ _ _ (by decide) (by decide), rd_wr_ne _ _ (by decide), rd_wr_ne _ _ (by decide)]
  rw [concluded, fld_post _ _ _ _ _ _ _ _ (by rw [hk]; exact evFree_CRY_STAT (by decide)), fld_crySet,
    fld_setFlag_ne _ _ _ _ (by decide) hd, fld_of_rd _ (hs _ _ _)]

theorem flag_OPBUSY_concluded : (concluded n a u).flag fCRY_STAT_OPBUSY = false := by
  rw [concluded, flag_post _ _ _ _ _ _ _ _ (evFree_CRY_STAT (by decide)), flag_crySet, flag_setFlag_self _ _ _ (by decide) rfl]

theorem flag_CFGREFUSED_concluded : (concluded n a u).flag fCRY_STAT_CFGREFUSED = u.flag fCRY_STAT_CFGREFUSED := by
  simp only [State.flag, fld_STAT_concluded n a u (f := fCRY_STAT_CFGREFUSED) rfl (Or.inr (by decide))]
theorem flag_TTVALID_concluded : (concluded n a u).flag fCRY_STAT_TTVALID = u.flag fCRY_STAT_TTVALID := by
  simp only [State.flag, fld_STAT_concluded n a u (f := fCRY_STAT_TTVALID) rfl (Or.inr (by decide))]
theorem fld_NADMIT_concluded : (concluded n a u).fld fCRY_STAT_NADMIT = u.fld fCRY_STAT_NADMIT :=
  fld_STAT_concluded n a u rfl (Or.inr (by decide))

theorem cry_concluded : (concluded n a u).cry = { u.cry with op := none } := by
  simp only [concluded, post_cry, State.crySet_cry, State.setFlag_cry, State.wr64_cry, State.wr_cry]
theorem rk_concluded : (concluded n a u).rk = u.rk := by
  simp only [concluded, post_rk, State.crySet_rk, State.setFlag_rk, State.wr64_rk, State.wr_rk]
theorem free_concluded : (concluded n a u).free = u.free := by
  simp only [concluded, post_free, State.crySet_free, State.setFlag_free, State.wr64_free, State.wr_free]

theorem onlyOp_concluded : OnlyOp u (concluded n a u) := by
  unfold concluded
  exact ((((((onlyOp_wr u _ _).trans (onlyOp_wr _ _ _)).trans (onlyOp_wr _ _ _)).trans (onlyOp_wr _ _ _)).trans
    (onlyOp_wr _ _ _)).trans (onlyOp_crySet _ _)).trans (onlyOp_of_evFrame (post_frame _ _ _ _ _ _ _))

/-- A pending bit stays pending through the answer. -/
theorem pendBit_concluded {q j : Nat} (hj : j < 32) (h : pendBit u q j = true) : pendBit (concluded n a u) q j = true := by
  have hq : rEV_PEND q % 1024 = 4 := rEV_PEND_mod q
  have hne : ∀ k, k % 1024 ≠ 4 → rEV_PEND q ≠ k := fun k hk he => hk (he ▸ hq)
  refine pendBit_post_mono _ _ _ _ _ _ _ q j hj ?_
  rw [pendBit, rd_crySet, rd_setFlag_ne _ _ _ (hne _ (by decide)),
    rd_wr64_ne _ _ _ (hne _ (by decide)) (hne _ (by decide)), rd_wr_ne _ _ (hne _ (by decide)),
    rd_wr_ne _ _ (hne _ (by decide))]
  exact h

end

/-- The answer of an operation that has been performed. -/
theorem Performed.answered {own pgs : List Nat} {s u : State} (h : Performed own pgs s u) (hp : cryPg ∈ pgs) (n : Nat)
    (a : OpAns) : Answered s (concluded n a u) a.code a.res a.slot a.res2 a.effect own pgs := by
  refine ⟨rd_RESULT_concluded n a u, rd_RESULT2_concluded n a u, rd64_EFFECT_concluded n a u, by rw [cry_concluded],
    flag_OPBUSY_concluded n a u, (flag_CFGREFUSED_concluded n a u).trans h.refused,
    (flag_TTVALID_concluded n a u).trans h.valid, pendBit_post _ _ _ _ _ _ _ (by decide), fun k ho hq hg hd => ?_⟩
  have hfree : ∀ p ∈ pgs, evFree p k := fun p hpp => ⟨hq p hpp, fun hk => by obtain ⟨h1, h2⟩ := hk; omega, hd⟩
  have hown : k ∉ rCRY_STAT :: own := fun hk => ho (by
    rcases List.mem_cons.1 hk with rfl | hk
    · exact List.mem_append_left _ (by decide)
    · exact List.mem_append_right _ hk)
  rw [rd_concluded n a u (fun hk => ho (List.mem_append_left _ hk)) (hfree _ hp), h.rd k hown hfree]

/-- An operation that leaves the contexts and the Rake alone. -/
theorem noContext_concluded {s u : State} (h : OnlyOp s u) (hn : u.fld fCRY_STAT_NADMIT = s.fld fCRY_STAT_NADMIT)
    (hc : u.cry = s.cry) (hr : u.rk = s.rk) (n : Nat) (a : OpAns) : NoContext s (concluded n a u) :=
  ⟨(fld_NADMIT_concluded n a u).trans hn, (h.trans (onlyOp_concluded n a u)).kept (by rw [cry_concluded, hc])
    ((rk_concluded n a u).trans hr) rfl⟩

/-- An operation that has done no more than to read. -/
theorem answered_of_peakOnly {s u : State} (h : PeakOnly s u) (n : Nat) (a : OpAns) :
    Answered s (concluded n a u) a.code a.res a.slot a.res2 a.effect [] [cryPg] ∧ NoContext s (concluded n a u) := by
  refine ⟨(h.performed).answered (List.mem_singleton_self _) n a, ?_⟩
  have hp : Performed [] [] s u := h.performed
  obtain ⟨k, rfl⟩ := h
  exact noContext_concluded hp.only rfl rfl rfl n a

theorem ctxChanged_concluded {s u : State} {n : Nat} {c : Ctx} (h : CtxChanged s u n c) (m : Nat) (a : OpAns) :
    CtxChanged s (concluded m a u) n c :=
  h.after (by rw [cry_concluded]) (by simp only [OnlyCtx, cry_concluded]) (fld_NADMIT_concluded m a u)

/-! Refusals (R74, R84, R86). -/

section
variable {s : State} {n : Nat} {ok : CtxSt → Bool}

theorem stateFail_of_range (h : 10239 < n) : stateFail s n ok = some ⟨0x01, 0xF, 0, 0⟩ := if_pos h
theorem stateFail_of_state (hn : n ≤ 10239) (h : ok (ctxOf s n).st = false) :
    stateFail s n ok = some ⟨0x02, 0xF, 0, (ctxOf s n).st.code⟩ := by
  rw [stateFail, if_neg (by omega), if_neg (by simp [h])]
theorem stateFail_eq_none (hn : n ≤ 10239) (h : ok (ctxOf s n).st = true) : stateFail s n ok = none := by
  rw [stateFail, if_neg (by omega), if_pos h]

end

/-- The From column of R74: the states in which an operation on a context may find it. -/
def fromStates : Nat → CtxSt → Bool
  | 1 => isSt [.free]
  | 3 => isSt [.admitted, .suspended]
  | 4 => isSt [.admitted, .suspended]
  | 5 => isSt [.admitted]
  | 6 => isSt [.suspended]
  | _ => anySt

theorem isSt_one {a x : CtxSt} (h : x = a) : isSt [a] x = true := by simp [isSt, h]
theorem isSt_one_false {a x : CtxSt} (h : x ≠ a) : isSt [a] x = false := by simp [isSt, h]
theorem isSt_two {a b x : CtxSt} (h : x = a ∨ x = b) : isSt [a, b] x = true := by simpa [isSt] using h
theorem isSt_two_false {a b x : CtxSt} (h : x ≠ a ∧ x ≠ b) : isSt [a, b] x = false := by simp [isSt, h]

section
variable {s : State} {op n : Nat} {d : List Word} {f : Fail}

theorem opPerform_of_stateFail (h1 : 1 ≤ op) (h7 : op ≤ 7) (h : stateFail s n (fromStates op) = some f) :
    opPerform ⟨op, n, d⟩ s = opFail f s := by
  interval_cases op <;> simp only [fromStates] at h
  · simp only [opPerform, admitNow, h]
  · simp only [opPerform, probeNow, h]
  · simp only [opPerform, removeNow, h]
  · simp only [opPerform, replaceNow, h]
  · simp only [opPerform, suspendOp, h]
  · simp only [opPerform, resumeNow, h]
  · simp only [opPerform, readNow, h]

theorem opPerform_of_admissionFail (hop : op = 1 ∨ op = 2 ∨ op = 4) (h : stateFail s n (fromStates op) = none)
    (ha : admission s n d = some f) : opPerform ⟨op, n, d⟩ s = opFail f (admissionReads d (some f) s) := by
  rcases hop with rfl | rfl | rfl <;> simp only [fromStates] at h
  · simp only [opPerform, admitNow, h, ha]
  · simp only [opPerform, probeNow, h, ha]
  · simp only [opPerform, replaceNow, h, ha]

/-- An operation that fails after no more than reading. -/
theorem answered_of_opFail {u : State} (hf : frozen s cryPg = false) (hop : s.cry.op = some ⟨op, n, d⟩)
    (hu : PeakOnly s u) (h : opPerform ⟨op, n, d⟩ s = opFail f u) :
    Answered s (opDone s) f.code f.res f.slot f.detail (tickNo s) [] [cryPg] ∧ NoContext s (opDone s) := by
  have htick : tickNo u = tickNo s := by obtain ⟨k, rfl⟩ := hu; rfl
  rw [opDone_of_op hf hop, h, ← htick]
  exact answered_of_peakOnly hu n (opFail f u).1

section
variable (hf : frozen s cryPg = false) (hop : s.cry.op = some ⟨op, n, d⟩)
include hf hop

theorem opDone_of_range (h1 : 1 ≤ op) (h7 : op ≤ 7) (hn : 10239 < n) :
    Answered s (opDone s) 1 0xF 0 0 (tickNo s) [] [cryPg] ∧ NoContext s (opDone s) :=
  answered_of_opFail (f := ⟨1, 0xF, 0, 0⟩) hf hop (PeakOnly.refl s)
    (opPerform_of_stateFail h1 h7 (stateFail_of_range hn))

theorem opDone_of_state (h1 : 1 ≤ op) (h7 : op ≤ 7) (hn : n ≤ 10239) (hst : fromStates op (ctxOf s n).st = false) :
    Answered s (opDone s) 2 0xF 0 (ctxOf s n).st.code (tickNo s) [] [cryPg] ∧ NoContext s (opDone s) :=
  answered_of_opFail (f := ⟨2, 0xF, 0, (ctxOf s n).st.code⟩) hf hop (PeakOnly.refl s)
    (opPerform_of_stateFail h1 h7 (stateFail_of_state hn hst))

theorem opDone_of_admissionFail (ho : op = 1 ∨ op = 2 ∨ op = 4) (hn : n ≤ 10239)
    (hst : fromStates op (ctxOf s n).st = true) (hc : Clean s) (ha : admission s n d = some f) :
    Answered s (opDone s) f.code f.res f.slot f.detail (tickNo s) [] [cryPg] ∧ NoContext s (opDone s) :=
  answered_of_opFail hf hop (admissionReads_of_clean hc d (some f))
    (opPerform_of_admissionFail ho (stateFail_eq_none hn hst) ha)

end

end

/-! READ and SETCORE (R74). -/

/-- Registers written one after another. -/
theorem rd_foldl_wr (key : Nat → Nat) (v : Nat → Word) (l : List Nat) (s : State) {i : Nat} (hi : i ∈ l)
    (hinj : ∀ j ∈ l, key i = key j → i = j) : (l.foldl (fun t j => t.wr (key j) (v j)) s).rd (key i) = v i := by
  induction l using List.reverseRecOn with
  | nil => cases hi
  | append_singleton l j ih =>
    rw [List.foldl_append, List.foldl_cons, List.foldl_nil, rd_wr]
    split
    · next hk => rw [hinj j (by simp) hk]
    · next hk =>
      have hij : i ≠ j := fun h => hk (h ▸ rfl)
      refine ih ?_ fun k hkl => hinj k (List.mem_append_left _ hkl)
      simpa [hij] using hi

section
variable {s : State} {n : Nat}

theorem mem_stageRegs {i : Nat} (h : i ∈ List.range 16) : rCRY_STAGEi i ∈ stageRegs := List.mem_map_of_mem h
theorem STAT_ne_STAGE (i : Nat) : rCRY_STAT ≠ rCRY_STAGEi i := by simp only [rCRY_STAT, rCRY_STAGEi]; omega

/-- `u` differs from `s` at most in the registers of `own` and in the free values taken. -/
structure RegsFree (own : List Nat) (s u : State) : Prop where
  rd : ∀ k, k ∉ own → u.rd k = s.rd k
  rest : ∃ r f, u = { s with regs := r, free := f }

theorem RegsFree.refl (own : List Nat) (s : State) : RegsFree own s s := ⟨fun _ _ => rfl, s.regs, s.free, rfl⟩
theorem RegsFree.trans {own : List Nat} {s t u : State} (h : RegsFree own s t) (g : RegsFree own t u) :
    RegsFree own s u := by
  refine ⟨fun k hk => (g.rd k hk).trans (h.rd k hk), ?_⟩
  obtain ⟨_, _, hst⟩ := h.rest
  obtain ⟨r, f, htu⟩ := g.rest
  exact ⟨r, f, by rw [htu, hst]⟩
theorem regsFree_wr {own : List Nat} (s : State) {k : Nat} (v : Word) (hk : k ∈ own) : RegsFree own s (s.wr k v) :=
  ⟨fun _ hj => rd_wr_ne s v fun h => hj (h ▸ hk), _, s.free, rfl⟩
theorem regsFree_stepFree (own : List Nat) (s : State) : RegsFree own s s.stepFree := ⟨fun _ _ => rfl, s.regs, _, rfl⟩

theorem RegsFree.performed {own pgs : List Nat} {s u : State} (h : RegsFree own s u) (hs : rCRY_STAT ∉ own) :
    Performed own pgs s u := by
  refine ⟨fun k hk _ => h.rd k fun ho => hk (List.mem_cons_of_mem _ ho), flag_of_rd _ (h.rd _ hs), flag_of_rd _ (h.rd _ hs), ?_⟩
  obtain ⟨r, f, hsu⟩ := h.rest
  rw [hsu]
  exact ⟨r, s.evPay, s.evHeld, s.evIn, s.ev, s.sl, s.cry, s.sal.peak, s.rk.holds, f, rfl⟩

/-- Registers and free values are no context. -/
theorem RegsFree.answered {own : List Nat} {s u : State} (h : RegsFree own s u) (hs : rCRY_STAT ∉ own) (n : Nat)
    (a : OpAns) : Answered s (concluded n a u) a.code a.res a.slot a.res2 a.effect own [cryPg] ∧
      NoContext s (concluded n a u) := by
  have hp : Performed own [cryPg] s u := h.performed hs
  have hn : u.fld fCRY_STAT_NADMIT = s.fld fCRY_STAT_NADMIT := fld_of_rd _ (h.rd _ hs)
  obtain ⟨r, f, hsu⟩ := h.rest
  exact ⟨hp.answered (List.mem_singleton_self _) n a, noContext_concluded hp.only hn (by rw [hsu]) (by rw [hsu]) n a⟩

theorem regsFree_readDesc (n : Nat) (s : State) : RegsFree stageRegs s (readDesc n s) := by
  unfold readDesc
  split
  · exact List.foldlRecOn _ _ (RegsFree.refl _ s) fun t ht i hi =>
      (ht.trans (regsFree_wr t _ (mem_stageRegs hi))).trans (regsFree_stepFree _ _)
  · exact List.foldlRecOn _ _ (RegsFree.refl _ s) fun t ht i hi => ht.trans (regsFree_wr t _ (mem_stageRegs hi))

/-- The staging registers hold the stored descriptor (R74). -/
theorem staged_readDesc (h : (ctxOf s n).st ≠ .free) : Staged (readDesc n s) (ctxOf s n).desc := by
  intro j
  rw [readDesc, if_neg h]
  exact rd_foldl_wr rCRY_STAGEi (dW (ctxOf s n).desc) _ s (List.mem_range.2 j.isLt) fun i _ hi => by
    simp only [rCRY_STAGEi] at hi; omega

theorem free_readDesc_of_used (h : (ctxOf s n).st ≠ .free) : (readDesc n s).free = s.free := by
  rw [readDesc, if_neg h]
  exact List.foldlRecOn _ _ (motive := fun t : State => t.free = s.free) rfl fun _ ht _ _ => ht

/-- The words of a FREE context are free values (log 81). -/
theorem free_readDesc_of_free (h : (ctxOf s n).st = .free) : (readDesc n s).free = s.free + 16 := by
  have hcount : ∀ (l : List Nat) (t : State), (l.foldl (fun t i =>
      (t.wr (rCRY_STAGEi i) (BitVec.ofNat 32 t.freeVal)).stepFree) t).free = t.free + l.length := by
    intro l
    induction l with
    | nil => exact fun _ => rfl
    | cons i l ih =>
      intro t
      have hfree : (t.wr (rCRY_STAGEi i) (BitVec.ofNat 32 t.freeVal)).stepFree.free = t.free + 1 := rfl
      rw [List.foldl_cons, ih, List.length_cons, hfree]
      omega
  rw [readDesc, if_pos h, hcount, List.length_range]

/-- READ copies the descriptor and answers the state (R74). -/
theorem opPerform_read {d : List Word} (hn : n ≤ 10239) :
    opPerform ⟨7, n, d⟩ s = opOk (ctxOf s n).st.code (tickNo s) (readDesc n s) := by
  have hst : stateFail s n anySt = none := stateFail_eq_none hn rfl
  simp only [opPerform, readNow, hst]

theorem opDone_of_read {d : List Word} (hf : frozen s cryPg = false) (hop : s.cry.op = some ⟨7, n, d⟩)
    (hn : n ≤ 10239) :
    opDone s = concluded n ⟨0, 0xF, 0, (ctxOf s n).st.code, tickNo s⟩ (readDesc n s) ∧
    Answered s (opDone s) 0 0xF 0 (ctxOf s n).st.code (tickNo s) stageRegs [cryPg] ∧ NoContext s (opDone s) := by
  have hdone : opDone s = concluded n ⟨0, 0xF, 0, (ctxOf s n).st.code, tickNo s⟩ (readDesc n s) := by
    rw [opDone_of_op hf hop, opPerform_read hn, opOk]
  have hans := (regsFree_readDesc n s).answered (by decide) n ⟨0, 0xF, 0, (ctxOf s n).st.code, tickNo s⟩
  rw [← hdone] at hans
  exact ⟨hdone, hans⟩

/-- What READ leaves in the staging registers stays there. -/
theorem rd_STAGE_concluded (n : Nat) (a : OpAns) (u : State) (j : Fin 16) :
    (concluded n a u).rd (rCRY_STAGEi j.val) = u.rd (rCRY_STAGEi j.val) :=
  rd_concluded n a u (by revert j; decide) (evFree_cryPg (by revert j; decide) (by revert j; decide))

end

section
variable {s : State} {n : Nat} {d : List Word}

theorem opPerform_setcore_of_used {m : Nat} {x : Ctx} (h : s.cry.ctx.find? (fun e => e.2.st != .free) = some (m, x)) :
    opPerform ⟨8, n, d⟩ s = opFail ⟨0x02, 0xF, 0, x.st.code + m * 2 ^ 16⟩ s := by
  simp only [opPerform, setcoreNow, h]

section
variable (h : s.cry.ctx.find? (fun e => e.2.st != .free) = none)
include h

/-- The first NILIM above 512 is reported by the byte in which it begins (R575). -/
theorem opPerform_setcore_of_over {x : Nat × Nat} (hx : (stagedNilim d).find? (fun x => decide (512 < x.1)) = some x) :
    opPerform ⟨8, n, d⟩ s = opFail ⟨0x10, 0xF, 0, x.2⟩ s := by
  simp only [opPerform, setcoreNow, h, hx]

theorem opPerform_setcore_of_fits (hx : (stagedNilim d).find? (fun x => decide (512 < x.1)) = none) :
    opPerform ⟨8, n, d⟩ s = opOk (nadmitOf s) (tickNo s)
      ((s.wr rCRY_NILIM01 (BitVec.ofNat 32 (bitsGet (dW d 0) 10 10 * 2 ^ 16 + bitsGet (dW d 0) 0 10))).wr rCRY_NILIM23
        (BitVec.ofNat 32 (bitsGet (dW d 1) 0 10 * 2 ^ 16 + bitsGet (dW d 0) 20 10))) := by
  simp only [opPerform, setcoreNow, h, hx]
  rfl

end

/-- The fields staged for SETCORE are searched in their order. -/
theorem find_stagedNilim : (stagedNilim d).find? (fun x => decide (512 < x.1)) =
    if 512 < bitsGet (dW d 0) 0 10 then some (bitsGet (dW d 0) 0 10, 0)
    else if 512 < bitsGet (dW d 0) 10 10 then some (bitsGet (dW d 0) 10 10, 1)
    else if 512 < bitsGet (dW d 0) 20 10 then some (bitsGet (dW d 0) 20 10, 2)
    else if 512 < bitsGet (dW d 1) 0 10 then some (bitsGet (dW d 1) 0 10, 4) else none := by
  have hcons : ∀ (x : Nat × Nat) l, (x :: l).find? (fun x => decide (512 < x.1)) =
      if 512 < x.1 then some x else l.find? fun x => decide (512 < x.1) := fun x l => by
    split
    · next h => exact List.find?_cons_of_pos (decide_eq_true h)
    · next h => exact List.find?_cons_of_neg (by simpa using h)
  simp only [stagedNilim, hcons, List.find?_nil]

/-- Two fields of ten bits in the halves of a word. -/
theorem bitsGet_halves {a b : Nat} (ha : a ≤ 512) (hb : b ≤ 512) :
    bitsGet (BitVec.ofNat 32 (b * 2 ^ 16 + a)) 0 10 = a ∧ bitsGet (BitVec.ofNat 32 (b * 2 ^ 16 + a)) 16 10 = b := by
  simp only [bitsGet, BitVec.toNat_ofNat]
  omega

theorem opDone_setcore_of_over {x : Nat × Nat} (hf : frozen s cryPg = false) (hop : s.cry.op = some ⟨8, n, d⟩)
    (hu : s.cry.ctx.find? (fun e => e.2.st != .free) = none)
    (hx : (stagedNilim d).find? (fun x => decide (512 < x.1)) = some x) :
    Answered s (opDone s) 0x10 0xF 0 x.2 (tickNo s) [] [cryPg] ∧ NoContext s (opDone s) :=
  answered_of_opFail (f := ⟨0x10, 0xF, 0, x.2⟩) hf hop (PeakOnly.refl s) (opPerform_setcore_of_over hu hx)

/-- The NILIM registers of an accepted SETCORE (R74). -/
theorem nilim_concluded (n : Nat) (a : OpAns) (u : State) (c : Nat) : nilim (concluded n a u) c = nilim u c := by
  have h01 : (concluded n a u).rd rCRY_NILIM01 = u.rd rCRY_NILIM01 :=
    rd_concluded n a u (by decide) (evFree_cryPg (by decide) (by decide))
  have h23 : (concluded n a u).rd rCRY_NILIM23 = u.rd rCRY_NILIM23 :=
    rd_concluded n a u (by decide) (evFree_cryPg (by decide) (by decide))
  unfold nilim
  split
  · exact fld_of_rd fCRY_NILIM01_E0 h01
  · exact fld_of_rd fCRY_NILIM01_E1 h01
  · exact fld_of_rd fCRY_NILIM23_E2 h23
  · exact fld_of_rd fCRY_NILIM23_E3 h23

/-- The words that an accepted SETCORE writes. -/
theorem nilim_written {a b c e : Nat} (ha : a ≤ 512) (hb : b ≤ 512) (hc : c ≤ 512) (he : e ≤ 512) (s : State) :
    let t := (s.wr rCRY_NILIM01 (BitVec.ofNat 32 (b * 2 ^ 16 + a))).wr rCRY_NILIM23 (BitVec.ofNat 32 (e * 2 ^ 16 + c))
    nilim t 0 = a ∧ nilim t 1 = b ∧ nilim t 2 = c ∧ nilim t 3 = e := by
  intro t
  have h01 : t.rd rCRY_NILIM01 = BitVec.ofNat 32 (b * 2 ^ 16 + a) := by
    rw [rd_wr_ne _ _ (by decide), rd_wr_self]
  have h23 : t.rd rCRY_NILIM23 = BitVec.ofNat 32 (e * 2 ^ 16 + c) := rd_wr_self _ _ _
  obtain ⟨h0, h1⟩ := bitsGet_halves ha hb
  obtain ⟨h2, h3⟩ := bitsGet_halves hc he
  exact ⟨(congrArg (bitsGet · 0 10) h01).trans h0, (congrArg (bitsGet · 16 10) h01).trans h1,
    (congrArg (bitsGet · 0 10) h23).trans h2, (congrArg (bitsGet · 16 10) h23).trans h3⟩

theorem opDone_setcore_of_fits (hf : frozen s cryPg = false) (hop : s.cry.op = some ⟨8, n, d⟩)
    (hu : s.cry.ctx.find? (fun e => e.2.st != .free) = none) (h0 : bitsGet (dW d 0) 0 10 ≤ 512)
    (h1 : bitsGet (dW d 0) 10 10 ≤ 512) (h2 : bitsGet (dW d 0) 20 10 ≤ 512) (h3 : bitsGet (dW d 1) 0 10 ≤ 512) :
    nilim (opDone s) 0 = bitsGet (dW d 0) 0 10 ∧ nilim (opDone s) 1 = bitsGet (dW d 0) 10 10 ∧
    nilim (opDone s) 2 = bitsGet (dW d 0) 20 10 ∧ nilim (opDone s) 3 = bitsGet (dW d 1) 0 10 ∧
    Answered s (opDone s) 0 0xF 0 (s.fld fCRY_STAT_NADMIT) (tickNo s) [rCRY_NILIM01, rCRY_NILIM23] [cryPg] ∧
    NoContext s (opDone s) := by
  have hnone : (stagedNilim d).find? (fun x => decide (512 < x.1)) = none := by
    rw [find_stagedNilim, if_neg (Nat.not_lt.2 h0), if_neg (Nat.not_lt.2 h1), if_neg (Nat.not_lt.2 h2),
      if_neg (Nat.not_lt.2 h3)]
  obtain ⟨hn0, hn1, hn2, hn3⟩ := nilim_written h0 h1 h2 h3 s
  rw [opDone_of_op hf hop, opPerform_setcore_of_fits hu hnone, opOk]
  refine ⟨(nilim_concluded _ _ _ 0).trans hn0, (nilim_concluded _ _ _ 1).trans hn1, (nilim_concluded _ _ _ 2).trans hn2,
    (nilim_concluded _ _ _ 3).trans hn3, ?_⟩
  exact ((regsFree_wr s _ (by decide)).trans (regsFree_wr _ _ (by decide))).answered (by decide) n
    ⟨0, 0xF, 0, nadmitOf s, tickNo s⟩

end

/-! PROBE (R74). -/

theorem opPerform_probe {s : State} {n : Nat} {d : List Word} (hn : n ≤ 10239) (ha : admission s n d = none) :
    opPerform ⟨2, n, d⟩ s = opOk (nadmitOf (admissionReads d none s)) (tickNo s) (admissionReads d none s) := by
  have hst : stateFail s n anySt = none := stateFail_eq_none hn rfl
  simp only [opPerform, probeNow, hst, ha]

theorem opDone_of_probe {s : State} {n : Nat} {d : List Word} (hf : frozen s cryPg = false)
    (hop : s.cry.op = some ⟨2, n, d⟩) (hn : n ≤ 10239) (hc : Clean s) (ha : admission s n d = none) :
    Answered s (opDone s) 0 0xF 0 (s.fld fCRY_STAT_NADMIT) (tickNo s) [] [cryPg] ∧ NoContext s (opDone s) := by
  have hpeak := admissionReads_of_clean hc d none
  have hadmit : nadmitOf (admissionReads d none s) = s.fld fCRY_STAT_NADMIT := by
    obtain ⟨k, hk⟩ := hpeak
    rw [hk]
    rfl
  rw [opDone_of_op hf hop, opPerform_probe hn ha, ← hadmit]
  exact answered_of_peakOnly hpeak n ⟨0, 0xF, 0, nadmitOf (admissionReads d none s), tickNo s⟩

/-! Operations that change a context (R74, R75). -/

theorem CtxChanged.of_same {s u v : State} {n : Nat} {c : Ctx} (h : CtxChanged s u n c) (hc : v.cry = u.cry)
    (hr : v.rd rCRY_STAT = u.rd rCRY_STAT) : CtxChanged s v n c :=
  h.after (by rw [hc]) (by rw [OnlyCtx, hc]) (fld_of_rd _ hr)

theorem rd_setCtx_ne (s : State) (n : Nat) (c : Ctx) {k : Nat} (h : k ≠ rCRY_STAT) : (s.setCtx n c).rd k = s.rd k :=
  rd_setFld_ne _ _ _ h
theorem tickNo_setCtx (s : State) (n : Nat) (c : Ctx) : tickNo (s.setCtx n c) = tickNo s :=
  rd64_of_rd _ (rd_setCtx_ne s n c (by decide)) (rd_setCtx_ne s n c (by decide))

theorem PeakOnly.cry {s v : State} (h : PeakOnly s v) : v.cry = s.cry := by obtain ⟨_, rfl⟩ := h; rfl
theorem PeakOnly.rk {s v : State} (h : PeakOnly s v) : v.rk = s.rk := by obtain ⟨_, rfl⟩ := h; rfl
theorem PeakOnly.free {s v : State} (h : PeakOnly s v) : v.free = s.free := by obtain ⟨_, rfl⟩ := h; rfl
theorem PeakOnly.nadmit {s v : State} (h : PeakOnly s v) : v.fld fCRY_STAT_NADMIT = s.fld fCRY_STAT_NADMIT := by
  obtain ⟨_, rfl⟩ := h; rfl
theorem PeakOnly.ctxOf {s v : State} (h : PeakOnly s v) (n : Nat) : ctxOf v n = ctxOf s n := by
  obtain ⟨_, rfl⟩ := h; rfl

theorem rk_setCtx (s : State) (n : Nat) (c : Ctx) : (s.setCtx n c).rk = s.rk := by
  rw [State.setCtx, State.setFld_rk, State.crySet_rk]
theorem free_setCtx (s : State) (n : Nat) (c : Ctx) : (s.setCtx n c).free = s.free := by
  rw [State.setCtx, State.setFld_free, State.crySet_free]
theorem cry_endHolds (p : Hold → Bool) (t : Nat) (s : State) : (endHolds p t s).cry = s.cry := by
  rw [endHolds, State.rkSet_cry]
theorem rd_endHolds (p : Hold → Bool) (t : Nat) (s : State) (k : Nat) : (endHolds p t s).rd k = s.rd k := by
  rw [endHolds, rd_rkSet]
theorem free_endHolds (p : Hold → Bool) (t : Nat) (s : State) : (endHolds p t s).free = s.free := by
  rw [endHolds, State.rkSet_free]

/-- What each operation makes of its context (R74, R75). -/
def admittedCtx (s : State) (d : List Word) : Ctx :=
  { Ctx.free with st := .admitted, desc := d, cost := listCost s d, first := some (tickNo s + 2) }
def removedCtx (s : State) (n : Nat) : Ctx :=
  { ctxOf s n with
    st := .draining, fromSusp := (ctxOf s n).st == .suspended,
    last := some (xNext (ctxOf s n).loadDesc (tickNo s + cryG s)) }
def replacedCtx (s : State) (n : Nat) (d : List Word) : Ctx :=
  { ctxOf s n with next := (ctxOf s n).next ++ [⟨tickNo s + 2, d, listCost s d⟩] }
def suspendedCtx (s : State) (n : Nat) : Ctx :=
  { ctxOf s n with st := .suspended, stop := some (tickNo s + 2), cause := 0 }
def resumedCtx (s : State) (n : Nat) : Ctx :=
  { ctxOf s n with
    st := .admitted, first := some (tickNo s + 2), stop := none, misses := 0, cause := 0, eccErr := false }

section
variable {s : State} {n : Nat} {d : List Word} (hn : n ≤ 10239)
include hn

theorem opPerform_admit (hst : (ctxOf s n).st = .free) (hc : Clean s) (ha : admission s n d = none) :
    ∃ v, PeakOnly s v ∧ opPerform ⟨1, n, d⟩ s =
      opOk ((v.setCtx n (admittedCtx s d)).fld fCRY_STAT_NADMIT) (xNext d (tickNo s + 2))
        (v.setCtx n (admittedCtx s d)) := by
  have hok : stateFail s n (isSt [.free]) = none := stateFail_eq_none hn (isSt_one hst)
  refine ⟨_, admissionReads_of_clean hc d none, ?_⟩
  simp only [opPerform, admitNow, hok, ha, admittedCtx, nadmitOf]

theorem opPerform_remove (hst : (ctxOf s n).st = .admitted ∨ (ctxOf s n).st = .suspended) :
    opPerform ⟨3, n, d⟩ s = opOk (s.fld fCRY_STAT_NADMIT) (xNext (ctxOf s n).loadDesc (tickNo s + cryG s))
      (s.setCtx n (removedCtx s n)) := by
  have hok : stateFail s n (isSt [.admitted, .suspended]) = none := stateFail_eq_none hn (isSt_two hst)
  simp only [opPerform, removeNow, hok, removedCtx, nadmitOf]

theorem opPerform_replace (hst : (ctxOf s n).st = .admitted ∨ (ctxOf s n).st = .suspended) (hc : Clean s)
    (ha : admission s n d = none) :
    ∃ v, PeakOnly s v ∧
      opPerform ⟨4, n, d⟩ s = opOk (s.fld fCRY_STAT_NADMIT) (tickNo s + 2) (v.setCtx n (replacedCtx s n d)) := by
  have hok : stateFail s n (isSt [.admitted, .suspended]) = none := stateFail_eq_none hn (isSt_two hst)
  have hpeak := admissionReads_of_clean hc d none
  refine ⟨_, hpeak, ?_⟩
  simp only [opPerform, replaceNow, hok, ha, replacedCtx, nadmitOf, hpeak.ctxOf, hpeak.nadmit]

theorem opPerform_suspend (hst : (ctxOf s n).st = .admitted) :
    opPerform ⟨5, n, d⟩ s = opOk (s.fld fCRY_STAT_NADMIT) (tickNo s + 2) (suspHold n (tickNo s + 3)
      (cryRecord 2 2 n 0 (xTag (ctxOf s n).desc) (tickNo s) (s.setCtx n (suspendedCtx s n)))) := by
  have hok : stateFail s n (isSt [.admitted]) = none := stateFail_eq_none hn (isSt_one hst)
  simp only [opPerform, suspendOp, hok, suspendedCtx, nadmitOf]

theorem opPerform_resume (hst : (ctxOf s n).st = .suspended) :
    opPerform ⟨6, n, d⟩ s = opOk (s.fld fCRY_STAT_NADMIT) (xNext (ctxOf s n).loadDesc (tickNo s + 2))
      (endHolds (fun h => h.cause == 2 && h.ctx == n) (tickNo s + 1) (s.setCtx n (resumedCtx s n))) := by
  have hok : stateFail s n (isSt [.suspended]) = none := stateFail_eq_none hn (isSt_one hst)
  simp only [opPerform, resumeNow, hok, suspEnd, tickNo_setCtx, resumedCtx, nadmitOf]

end

/-- A hold begins with a record of the Rake (R267). -/
theorem performed_addHold {own pgs : List Nat} (h : Hold) (tag : Nat) (s : State) (hp : rkPg ∈ pgs) :
    Performed own pgs s (addHold h tag s) := by
  have hadd : Performed own pgs s (s.rkSet fun r => { r with holds := r.holds ++ [h] }) :=
    performed_of_rd (fun _ => rfl) (onlyOp_holds s fun l => l ++ [h])
  rw [addHold, safeHold]
  exact hadd.trans (performed_postEvent ⟨rkPg, 4, 2⟩ _ _ hp (by decide))

theorem holds_addHold (h : Hold) (tag : Nat) (s : State) : (addHold h tag s).rk.holds = s.rk.holds ++ [h] := by
  rw [addHold, safeHold, postEvent_rk, State.rkSet_rk]

theorem cry_addHold (h : Hold) (tag : Nat) (s : State) : (addHold h tag s).cry = s.cry := by
  rw [addHold, safeHold, postEvent_cry, State.rkSet_cry]

theorem free_addHold (h : Hold) (tag : Nat) (s : State) : (addHold h tag s).free = s.free := by
  rw [addHold, safeHold, postEvent_free, State.rkSet_free]

theorem rd_STAT_addHold (h : Hold) (tag : Nat) (s : State) : (addHold h tag s).rd rCRY_STAT = s.rd rCRY_STAT :=
  rd_postEvent ⟨rkPg, 4, 2⟩ _ _ (evFree_CRY_STAT (by decide))

theorem pendBit_addHold (h : Hold) (tag : Nat) (s : State) {q j : Nat} (hj : j < 32) (hq : pendBit s q j = true) :
    pendBit (addHold h tag s) q j = true := pendBit_postEventAt_mono _ _ none _ q j hj hq

theorem pendBit_addHold_self (h : Hold) (tag : Nat) (s : State) : pendBit (addHold h tag s) rkPg 4 = true :=
  pendBit_postEvent ⟨rkPg, 4, 2⟩ _ _ (show 4 < 32 by decide)

/-- An operation that succeeds and changes a context (R73). -/
theorem opDone_of_ok {s u : State} {op n r e : Nat} {d : List Word} {c : Ctx} {pgs : List Nat}
    (hf : frozen s cryPg = false) (hop : s.cry.op = some ⟨op, n, d⟩) (hperf : opPerform ⟨op, n, d⟩ s = opOk r e u)
    (hp : cryPg ∈ pgs) (hu : Performed [] pgs s u) (hc : CtxChanged s u n c) :
    Answered s (opDone s) 0 0xF 0 r e [] pgs ∧ CtxChanged s (opDone s) n c ∧ OnlyOp s (opDone s) ∧
    (opDone s).rk = u.rk ∧ (opDone s).free = u.free ∧ (opDone s).fld fCRY_STAT_NADMIT = u.fld fCRY_STAT_NADMIT := by
  rw [opDone_of_op hf hop, hperf, opOk]
  exact ⟨hu.answered hp n ⟨0, 0xF, 0, r, e⟩, ctxChanged_concluded hc n _, hu.only.trans (onlyOp_concluded n _ u),
    rk_concluded n _ u, free_concluded n _ u, fld_NADMIT_concluded n _ u⟩

section
variable {s : State} {n : Nat} {d : List Word} (hf : frozen s cryPg = false) (hn : n ≤ 10239)
include hf hn

/-- An accepted ADMIT (R74, R75). -/
theorem opDone_of_admit (hop : s.cry.op = some ⟨1, n, d⟩) (hst : (ctxOf s n).st = .free) (hc : Clean s)
    (ha : admission s n d = none) :
    Answered s (opDone s) 0 0xF 0 ((opDone s).fld fCRY_STAT_NADMIT) (xNext d (tickNo s + 2)) [] [cryPg] ∧
    CtxChanged s (opDone s) n (admittedCtx s d) ∧ OnlyOp s (opDone s) ∧ (opDone s).rk = s.rk ∧
    (opDone s).free = s.free := by
  obtain ⟨v, hpeak, hperf⟩ := opPerform_admit hn hst hc ha
  obtain ⟨hans, hctx, honly, hrk, hfree, hcount⟩ := opDone_of_ok hf hop hperf (List.mem_singleton_self _)
    (hpeak.performed.trans (performed_setCtx v n _)) (ctxChanged_setCtx hpeak.cry n _)
  rw [← hcount] at hans
  exact ⟨hans, hctx, honly, hrk.trans ((rk_setCtx _ _ _).trans hpeak.rk), hfree.trans ((free_setCtx _ _ _).trans hpeak.free)⟩

/-- An accepted REMOVE. -/
theorem opDone_of_remove (hop : s.cry.op = some ⟨3, n, d⟩) (hst : (ctxOf s n).st = .admitted ∨ (ctxOf s n).st = .suspended) :
    Answered s (opDone s) 0 0xF 0 (s.fld fCRY_STAT_NADMIT) (xNext (ctxOf s n).loadDesc (tickNo s + cryG s)) [] [cryPg] ∧
    CtxChanged s (opDone s) n (removedCtx s n) ∧ OnlyOp s (opDone s) ∧ (opDone s).rk = s.rk ∧
    (opDone s).free = s.free := by
  obtain ⟨hans, hctx, honly, hrk, hfree, _⟩ := opDone_of_ok hf hop (opPerform_remove hn hst) (List.mem_singleton_self _)
    (performed_setCtx s n _) (ctxChanged_setCtx rfl n _)
  exact ⟨hans, hctx, honly, hrk.trans (rk_setCtx _ _ _), hfree.trans (free_setCtx _ _ _)⟩

/-- An accepted REPLACE follows those that have not taken over yet. -/
theorem opDone_of_replace (hop : s.cry.op = some ⟨4, n, d⟩) (hst : (ctxOf s n).st = .admitted ∨ (ctxOf s n).st = .suspended)
    (hc : Clean s) (ha : admission s n d = none) :
    Answered s (opDone s) 0 0xF 0 (s.fld fCRY_STAT_NADMIT) (tickNo s + 2) [] [cryPg] ∧
    CtxChanged s (opDone s) n (replacedCtx s n d) ∧ OnlyOp s (opDone s) ∧ (opDone s).rk = s.rk ∧
    (opDone s).free = s.free := by
  obtain ⟨v, hpeak, hperf⟩ := opPerform_replace hn hst hc ha
  obtain ⟨hans, hctx, honly, hrk, hfree, _⟩ := opDone_of_ok hf hop hperf (List.mem_singleton_self _)
    (hpeak.performed.trans (performed_setCtx v n _)) (ctxChanged_setCtx hpeak.cry n _)
  exact ⟨hans, hctx, honly, hrk.trans ((rk_setCtx _ _ _).trans hpeak.rk), hfree.trans ((free_setCtx _ _ _).trans hpeak.free)⟩

/-- An accepted RESUME ends the hold (R267). -/
theorem opDone_of_resume (hop : s.cry.op = some ⟨6, n, d⟩) (hst : (ctxOf s n).st = .suspended) :
    Answered s (opDone s) 0 0xF 0 (s.fld fCRY_STAT_NADMIT) (xNext (ctxOf s n).loadDesc (tickNo s + 2)) [] [cryPg] ∧
    (opDone s).rk.holds = s.rk.holds.map (released n (tickNo s + 1)) ∧
    CtxChanged s (opDone s) n (resumedCtx s n) ∧ OnlyOp s (opDone s) ∧ (opDone s).free = s.free := by
  have hctx : CtxChanged s (endHolds (fun h => h.cause == 2 && h.ctx == n) (tickNo s + 1) (s.setCtx n (resumedCtx s n))) n
      (resumedCtx s n) := (ctxChanged_setCtx rfl n _).of_same (cry_endHolds _ _ _) (rd_endHolds _ _ _ _)
  obtain ⟨hans, hctx, honly, hrk, hfree, _⟩ := opDone_of_ok hf hop (opPerform_resume hn hst) (List.mem_singleton_self _)
    ((performed_setCtx s n _).trans (performed_endHolds _ _ _)) hctx
  refine ⟨hans, ?_, hctx, honly, hfree.trans ((free_endHolds _ _ _).trans (free_setCtx _ _ _))⟩
  rw [hrk, endHolds, State.rkSet_rk, rk_setCtx]
  refine List.map_congr_left fun h _ => ?_
  simp only [released, Bool.and_eq_true, beq_iff_eq]

/-- An accepted SUSPEND posts its record and holds the owned fields (R75, R267). -/
theorem opDone_of_suspend (hop : s.cry.op = some ⟨5, n, d⟩) (hst : (ctxOf s n).st = .admitted) :
    Answered s (opDone s) 0 0xF 0 (s.fld fCRY_STAT_NADMIT) (tickNo s + 2) [] [cryPg, rkPg] ∧
    (opDone s).rk.holds = s.rk.holds ++ [heldBy 2 n ((suspendedCtx s n).descAt (tickNo s + 3)) (tickNo s + 3) none] ∧
    pendBit (opDone s) cryPg 2 = true ∧ pendBit (opDone s) rkPg 4 = true ∧
    CtxChanged s (opDone s) n (suspendedCtx s n) ∧ OnlyOp s (opDone s) ∧ (opDone s).free = s.free := by
  have hperf := opPerform_suspend (d := d) hn hst
  generalize hv : s.setCtx n (suspendedCtx s n) = v at hperf
  generalize hw : cryRecord 2 2 n 0 (xTag (ctxOf s n).desc) (tickNo s) v = w at hperf
  have hsv : Performed [] [cryPg, rkPg] s v := hv ▸ performed_setCtx s n _
  have hvw : Performed [] [cryPg, rkPg] v w := hw ▸ performed_postEvent ⟨cryPg, 2, 2⟩ _ v (by decide) (by decide)
  have hcry : w.cry = v.cry := by rw [← hw, cryRecord, postEvent_cry]
  have hstat : w.rd rCRY_STAT = v.rd rCRY_STAT := hw ▸ rd_postEvent ⟨cryPg, 2, 2⟩ _ v (evFree_CRY_STAT (by decide))
  have hctx : CtxChanged s w n (suspendedCtx s n) := CtxChanged.of_same (hv ▸ ctxChanged_setCtx rfl n _) hcry hstat
  have hrec : pendBit w cryPg 2 = true := hw ▸ pendBit_postEvent ⟨cryPg, 2, 2⟩ _ v (show 2 < 32 by decide)
  have hrk : w.rk = s.rk := by rw [← hw, cryRecord, postEvent_rk, ← hv, rk_setCtx]
  have hfree : w.free = s.free := by rw [← hw, cryRecord, postEvent_free, ← hv, free_setCtx]
  rw [suspHold, ctxHold, hctx.own] at hperf
  have hdone := opDone_of_op hf hop
  rw [hperf, opOk] at hdone
  obtain ⟨hans, hctx, honly, hrk', hfree', _⟩ := opDone_of_ok hf hop hperf (List.mem_cons_self ..)
    ((hsv.trans hvw).trans (performed_addHold _ _ w (by decide)))
    (hctx.of_same (cry_addHold _ _ _) (rd_STAT_addHold _ _ _))
  refine ⟨hans, ?_, ?_, ?_, hctx, honly, hfree'.trans ((free_addHold _ _ _).trans hfree)⟩
  · rw [hrk', holds_addHold, hrk]
    rfl
  · rw [hdone]
    exact pendBit_concluded _ _ _ (by decide) (pendBit_addHold _ _ _ (by decide) hrec)
  · rw [hdone]
    exact pendBit_concluded _ _ _ (by decide) (pendBit_addHold_self _ _ _)

end

end Sys2Proof.Machine

open Sys2Proof Sys2Proof.Machine Sys2Proof.Claims

/-- Settles O27: a write of CRY_OP is `opStart`; an operation that completes is its performance and its answer, and one
that changes no context has written its own registers at most. -/
theorem crystallizerOperations : Obligations.CrystallizerOperations := by
  intro s
  refine ⟨fun n hb => ⟨_, rfl, opStart_of_busy _ _ hb⟩, fun n hb hf => ⟨_, rfl, opStart_of_idle _ _ hb hf⟩,
    fun n hb hf => ⟨_, rfl, opStart_of_frozen _ _ hb hf⟩,
    fun n hb => ⟨_, rfl, opStart_of_busy _ _ hb⟩, fun n hb hf => ⟨_, rfl, opStart_of_idle _ _ hb hf⟩,
    fun n hb hf => ⟨_, rfl, opStart_of_frozen _ _ hb hf⟩,
    fun n hb => ⟨_, rfl, opStart_of_busy _ _ hb⟩, fun n hb hf => ⟨_, rfl, opStart_of_idle _ _ hb hf⟩,
    fun n hb hf => ⟨_, rfl, opStart_of_frozen _ _ hb hf⟩,
    fun n hb => ⟨_, rfl, opStart_of_busy _ _ hb⟩, fun n hb hf => ⟨_, rfl, opStart_of_idle _ _ hb hf⟩,
    fun n hb hf => ⟨_, rfl, opStart_of_frozen _ _ hb hf⟩,
    fun n hb => ⟨_, rfl, opStart_of_busy _ _ hb⟩, fun n hb hf => ⟨_, rfl, opStart_of_idle _ _ hb hf⟩,
    fun n hb hf => ⟨_, rfl, opStart_of_frozen _ _ hb hf⟩,
    fun n hb => ⟨_, rfl, opStart_of_busy _ _ hb⟩, fun n hb hf => ⟨_, rfl, opStart_of_idle _ _ hb hf⟩,
    fun n hb hf => ⟨_, rfl, opStart_of_frozen _ _ hb hf⟩,
    fun n hb => ⟨_, rfl, opStart_of_busy _ _ hb⟩, fun n hb hf => ⟨_, rfl, opStart_of_idle _ _ hb hf⟩,
    fun n hb hf => ⟨_, rfl, opStart_of_frozen _ _ hb hf⟩,
    fun hb => ⟨_, rfl, opStart_of_busy _ _ hb⟩, fun hb hf => ⟨_, rfl, opStart_of_idle _ _ hb hf⟩,
    fun hb hf => ⟨_, rfl, opStart_of_frozen _ _ hb hf⟩,
    fun h => ⟨_, rfl, opDone_of_none h⟩,
    fun n d hf hop hn => ⟨_, rfl, opDone_of_range hf hop (by decide) (by decide) hn⟩,
    fun n d hf hop hn => ⟨_, rfl, opDone_of_range hf hop (by decide) (by decide) hn⟩,
    fun n d hf hop hn => ⟨_, rfl, opDone_of_range hf hop (by decide) (by decide) hn⟩,
    fun n d hf hop hn => ⟨_, rfl, opDone_of_range hf hop (by decide) (by decide) hn⟩,
    fun n d hf hop hn => ⟨_, rfl, opDone_of_range hf hop (by decide) (by decide) hn⟩,
    fun n d hf hop hn => ⟨_, rfl, opDone_of_range hf hop (by decide) (by decide) hn⟩,
    fun n d hf hop hn => ⟨_, rfl, opDone_of_range hf hop (by decide) (by decide) hn⟩,
    fun n d hf hop hn hst => ⟨_, rfl, opDone_of_state hf hop (by decide) (by decide) hn (isSt_one_false hst)⟩,
    fun n d hf hop hn hst => ⟨_, rfl, opDone_of_state hf hop (by decide) (by decide) hn (isSt_two_false hst)⟩,
    fun n d hf hop hn hst => ⟨_, rfl, opDone_of_state hf hop (by decide) (by decide) hn (isSt_two_false hst)⟩,
    fun n d hf hop hn hst => ⟨_, rfl, opDone_of_state hf hop (by decide) (by decide) hn (isSt_one_false hst)⟩,
    fun n d hf hop hn hst => ⟨_, rfl, opDone_of_state hf hop (by decide) (by decide) hn (isSt_one_false hst)⟩,
    fun n d f hf hop hn hst hc ha =>
      ⟨_, rfl, opDone_of_admissionFail hf hop (by decide) hn (isSt_one hst) hc ha⟩,
    fun n d f hf hop hn hc ha => ⟨_, rfl, opDone_of_admissionFail hf hop (by decide) hn rfl hc ha⟩,
    fun n d f hf hop hn hst hc ha =>
      ⟨_, rfl, opDone_of_admissionFail hf hop (by decide) hn (isSt_two hst) hc ha⟩,
    fun n d hf hop hn hc ha => ⟨_, rfl, ?probe⟩, fun n d hf hop hn hst => ⟨_, rfl, ?read⟩,
    fun n d hf hop hn hst => ⟨_, rfl, ?readFree⟩,
    fun n m d x hf hop hx => ⟨_, rfl, answered_of_opFail (f := ⟨2, 0xF, 0, x.st.code + m * 2 ^ 16⟩) hf hop (PeakOnly.refl s)
      (opPerform_setcore_of_used hx)⟩,
    fun n d hf hop hu h0 h1 h2 h3 => ⟨_, rfl, opDone_setcore_of_fits hf hop hu h0 h1 h2 h3⟩,
    fun n d hf hop hu h0 => ⟨_, rfl, opDone_setcore_of_over hf hop hu (find_stagedNilim.trans (if_pos h0))⟩,
    fun n d hf hop hu h0 h1 => ⟨_, rfl, opDone_setcore_of_over hf hop hu (x := (bitsGet (dW d 0) 10 10, 1)) ?over1⟩,
    fun n d hf hop hu h0 h1 h2 => ⟨_, rfl, opDone_setcore_of_over hf hop hu (x := (bitsGet (dW d 0) 20 10, 2)) ?over2⟩,
    fun n d hf hop hu h0 h1 h2 h3 => ⟨_, rfl, opDone_setcore_of_over hf hop hu (x := (bitsGet (dW d 1) 0 10, 4)) ?over4⟩⟩
  case probe => exact opDone_of_probe hf hop hn hc ha
  case read =>
    obtain ⟨hdone, hans⟩ := opDone_of_read hf hop hn
    refine ⟨fun j => ?_, ?_, hans⟩
    · exact (congrArg (State.rd · _) hdone).trans ((rd_STAGE_concluded _ _ _ j).trans (staged_readDesc hst j))
    · exact (congrArg State.free hdone).trans ((free_concluded _ _ _).trans (free_readDesc_of_used hst))
  case readFree =>
    obtain ⟨hdone, hans⟩ := opDone_of_read hf hop hn
    rw [hst] at hans
    exact ⟨(congrArg State.free hdone).trans ((free_concluded _ _ _).trans (free_readDesc_of_free hst)), hans⟩
  case over1 => rw [find_stagedNilim, if_neg (Nat.not_lt.2 h0), if_pos h1]
  case over2 => rw [find_stagedNilim, if_neg (Nat.not_lt.2 h0), if_neg (Nat.not_lt.2 h1), if_pos h2]
  case over4 =>
    rw [find_stagedNilim, if_neg (Nat.not_lt.2 h0), if_neg (Nat.not_lt.2 h1), if_neg (Nat.not_lt.2 h2), if_pos h3]

/-- Settles O30, operation by operation: the performance of each, its answer, and what both leave alone. -/
theorem operationDone : Obligations.OperationDone := by
  intro s
  refine ⟨fun n d hf hop hn hst hc ha => ⟨_, rfl, ?admitted⟩, fun n d hf hop hn hst => ⟨_, rfl, ?remove⟩,
    fun n d hf hop hn hst hc ha => ⟨_, rfl, ?replace⟩, fun n d hf hop hn hst => ⟨_, rfl, ?suspend⟩,
    fun n d hf hop hn hst => ⟨_, rfl, ?resume⟩⟩
  case admitted =>
    obtain ⟨hans, hctx, honly, hrk, hfree⟩ := opDone_of_admit hf hn hop hst hc ha
    exact ⟨hans, hctx.own, hctx.other, hctx.only, hctx.counted, honly.kept rfl hrk hfree⟩
  case remove =>
    obtain ⟨hans, hctx, honly, hrk, hfree⟩ := opDone_of_remove hf hn hop hst
    exact ⟨hans, hctx.own, hctx.other, hctx.only, hctx.counted, honly.kept rfl hrk hfree⟩
  case replace =>
    obtain ⟨hans, hctx, honly, hrk, hfree⟩ := opDone_of_replace hf hn hop hst hc ha
    exact ⟨hans, hctx.own, hctx.other, hctx.only, hctx.counted, honly.kept rfl hrk hfree⟩
  case suspend =>
    obtain ⟨hans, hholds, hrec, hhold, hctx, honly, hfree⟩ := opDone_of_suspend hf hn hop hst
    exact ⟨hans, hholds, hrec, hhold, hctx.own, hctx.other, hctx.only, hctx.counted, honly.kept rfl honly.holds hfree⟩
  case resume =>
    obtain ⟨hans, hholds, hctx, honly, hfree⟩ := opDone_of_resume hf hn hop hst
    exact ⟨hans, hholds, hctx.own, hctx.other, hctx.only, hctx.counted, honly.kept rfl honly.holds hfree⟩

end

section
/-!
PROOFS. The timing table and the enable bit of the Crystallizer (R101, R102, R209, R213): the statement TimingTable.
-/

namespace Sys2Proof.Machine
open Sys2Proof Sys2Proof.Claims

/-! A write of CRY_TTDATAi (R102). -/

section
variable {s : State} (j : Fin 4) (v : Word)

theorem ttDataWrite_of_admitted (h : nadmitOf s ≠ 0) : ttDataWrite j.val v s = s.setFlag fCRY_STAT_CFGREFUSED true := by
  rw [ttDataWrite, if_pos h]

/-- The staged words with word `j` written. -/
def ttStaged (s : State) (j : Nat) (v : Word) : State := s.crySet fun c => { c with ttStage := storeSet 0 c.ttStage j v }

theorem ttDataWrite_of_staged (h : nadmitOf s = 0) (hj : j ≠ 3) : ttDataWrite j.val v s = ttStaged s j.val v := by
  rw [ttDataWrite, if_neg (not_not_intro h)]
  exact if_pos fun he => hj (Fin.ext he)

/-- The entry that word 3 completes. -/
def ttEntry (s : State) (v : Word) : BitVec 128 :=
  BitVec.ofNat 128 ((storeGet 0 s.cry.ttStage 0).toNat + (storeGet 0 s.cry.ttStage 1).toNat * 2 ^ 32 +
    (storeGet 0 s.cry.ttStage 2).toNat * 2 ^ 64 + v.toNat * 2 ^ 96)

/-- With word 3 staged too, entry `i` is `e`. -/
def ttWritten (s : State) (i : Nat) (e : BitVec 128) (v : Word) : State :=
  ((ttStaged s 3 v).crySet fun c => { c with tt := storeSet 0 c.tt i e }).setFlag fCRY_STAT_TTVALID false

theorem ttDataWrite_of_last (h : nadmitOf s = 0) :
    ttDataWrite 3 v s = ttWritten s (s.fld fCRY_TTIDX) (ttEntry s v) v := by
  have hword : ∀ i, i ≠ 3 → storeGet 0 (ttStaged s 3 v).cry.ttStage i = storeGet 0 s.cry.ttStage i := fun i hi =>
    storeGet_storeSet_ne 0 0 s.cry.ttStage v hi
  rw [ttDataWrite, if_neg (not_not_intro h), ttEntry, ← hword 0 (by decide), ← hword 1 (by decide), ← hword 2 (by decide)]
  rfl

end

/-- An entry completed changes itself and TT_VALID, and nothing else. -/
theorem ttWritten_alone (s : State) (i : Nat) (e : BitVec 128) (v : Word) :
    ttOf (ttWritten s i e v) i = e ∧ OtherTt s (ttWritten s i e v) i ∧
    (ttWritten s i e v).flag fCRY_STAT_TTVALID = false ∧ Claims.Regs s (ttWritten s i e v) [rCRY_STAT] ∧
    NoEvents s (ttWritten s i e v) ∧ Kept s { ttWritten s i e v with cry := s.cry } ∧
    { (ttWritten s i e v).cry with ttStage := s.cry.ttStage, tt := s.cry.tt } = s.cry := by
  have htt : (ttWritten s i e v).cry.tt = storeSet 0 s.cry.tt i e := rfl
  refine ⟨?own, fun m hm => ?other, flag_setFlag_self _ fCRY_STAT_TTVALID false (by decide) rfl, fun k hk => ?regs,
    ⟨rfl, rfl, rfl, rfl, rfl⟩, kept_refl s, rfl⟩
  case own => rw [ttOf, htt, storeGet_storeSet_self]
  case other => rw [ttOf, htt, storeGet_storeSet_ne 0 0 s.cry.tt e hm, ttOf]
  case regs => rw [ttWritten, rd_setFlag_ne _ _ _ (List.ne_of_not_mem_cons hk), rd_crySet, ttStaged, rd_crySet]

/-! A write of CRY_TTCTRL (R102, R209, R213). -/

/-- The longest strip time of the entries but entry 0. -/
def longestStrip (s : State) : Nat :=
  (s.cry.tt.filter fun e => e.1 != 0 && ttValid (ttOf s) e.1).foldl (fun m e => max m (stripTime (ttOf s) e.1)) 0

theorem foldl_max_map {α : Type} (f : α → Nat) (l : List α) (a : Nat) :
    l.foldl (fun m e => max m (f e)) a = (l.map f).foldl max a := by rw [List.foldl_map]

/-- Every entry's strip time is below it. -/
theorem stripTime_le_longest {s : State} {e : Nat × BitVec 128} (he : e ∈ s.cry.tt) (h0 : e.1 ≠ 0)
    (hv : ttValid (ttOf s) e.1 = true) : stripTime (ttOf s) e.1 ≤ longestStrip s := by
  rw [longestStrip, foldl_max_map fun e : Nat × BitVec 128 => stripTime (ttOf s) e.1]
  exact (foldl_max_spec _ 0).2 _ (List.mem_map_of_mem (f := fun e : Nat × BitVec 128 => stripTime (ttOf s) e.1)
    (List.mem_filter.2 ⟨he, by simp [h0, hv]⟩))

theorem foldl_max_lt {b : Nat} : ∀ (l : List Nat) (a : Nat), a < b → (∀ x ∈ l, x < b) → l.foldl max a < b
  | [], _, ha, _ => ha
  | x :: l, _, ha, h => foldl_max_lt l _ (Nat.max_lt.2 ⟨ha, h x (List.mem_cons_self ..)⟩) fun y hy =>
    h y (List.mem_cons_of_mem _ hy)

theorem longestStrip_lt {s : State} {b : Nat} (hb : 0 < b) (h : ∀ e ∈ s.cry.tt, stripTime (ttOf s) e.1 < b) :
    longestStrip s < b := by
  rw [longestStrip, foldl_max_map fun e : Nat × BitVec 128 => stripTime (ttOf s) e.1]
  refine foldl_max_lt _ 0 hb fun x hx => ?_
  obtain ⟨e, he, rfl⟩ := List.mem_map.1 hx
  exact h e (List.mem_filter.1 he).1

section
variable {s : State}

/-- What a table must meet. -/
theorem ttChecks_iff : (ttValid (ttOf s) 0 && ttWord (ttOf s) 0 2 == (s.rd rPCS_ID).toNat &&
    s.cry.tt.all fun e => ttEntryOk s e.1) = true ↔ ttValid (ttOf s) 0 = true ∧ ttWord (ttOf s) 0 2 = (s.rd rPCS_ID).toNat ∧
      s.cry.tt.all (fun e => ttEntryOk s e.1) = true := by
  rw [Bool.and_eq_true, Bool.and_eq_true, beq_iff_eq, and_assoc]

theorem ttCommit_of_admitted (h : nadmitOf s ≠ 0) : ttCommit s = s.setFlag fCRY_STAT_CFGREFUSED true := by
  rw [ttCommit, ttCtrlWrite, if_pos h]

theorem ttCommit_of_meets (h : nadmitOf s = 0) (hok : ttValid (ttOf s) 0 = true ∧
    ttWord (ttOf s) 0 2 = (s.rd rPCS_ID).toNat ∧ s.cry.tt.all (fun e => ttEntryOk s e.1) = true) :
    ttCommit s =
      ((s.setFld fCRY_PANPRE (longestStrip s)).setFlag fCRY_STAT_TTVALID true).setFlag fPCS_STAT_TTREJECT false := by
  rw [ttCommit, ttCtrlWrite, if_neg (not_not_intro h), if_neg (by decide)]
  exact if_pos (ttChecks_iff.2 hok)

theorem ttCommit_of_rejected (h : nadmitOf s = 0) (hok : ¬ (ttValid (ttOf s) 0 = true ∧
    ttWord (ttOf s) 0 2 = (s.rd rPCS_ID).toNat ∧ s.cry.tt.all (fun e => ttEntryOk s e.1) = true)) :
    ttCommit s = setPost fPCS_STAT_TTREJECT 0x128 4 2 0 0 0 (s.setFlag fCRY_STAT_TTVALID false) := by
  rw [ttCommit, ttCtrlWrite, if_neg (not_not_intro h), if_neg (by decide)]
  exact if_neg fun ht => hok (ttChecks_iff.1 ht)

/-- A committed table: PRE holds its longest strip time. -/
theorem ttAccepted (hlt : longestStrip s < 65536) :
    let t := ((s.setFld fCRY_PANPRE (longestStrip s)).setFlag fCRY_STAT_TTVALID true).setFlag fPCS_STAT_TTREJECT false
    t.flag fCRY_STAT_TTVALID = true ∧ t.flag fPCS_STAT_TTREJECT = false ∧ t.fld fCRY_PANPRE = longestStrip s ∧
    RegFrame [rCRY_STAT, fCRY_PANPRE.key, fPCS_STAT_TTREJECT.key] s t := by
  intro t
  refine ⟨?valid, flag_setFlag_self _ fPCS_STAT_TTREJECT false (by decide) rfl, ?pre,
    (((RegFrame.refl _ s).wr _ (by decide)).wr _ (by decide)).wr _ (by decide)⟩
  case valid =>
    exact (flag_setFlag_ne _ fPCS_STAT_TTREJECT fCRY_STAT_TTVALID false (by decide) (Or.inl (by decide))).trans
      (flag_setFlag_self _ fCRY_STAT_TTVALID true (by decide) rfl)
  case pre =>
    have hself : (s.setFld fCRY_PANPRE (longestStrip s)).fld fCRY_PANPRE = longestStrip s :=
      (fld_setFld_self s fCRY_PANPRE _ (by decide)).trans (Nat.mod_eq_of_lt hlt)
    exact (fld_setFlag_ne _ fPCS_STAT_TTREJECT fCRY_PANPRE false (by decide) (Or.inl (by decide))).trans
      ((fld_setFlag_ne _ fCRY_STAT_TTVALID fCRY_PANPRE true (by decide) (Or.inl (by decide))).trans hself)

/-- A rejected table (R209). -/
theorem ttRejected : let t := setPost fPCS_STAT_TTREJECT 0x128 4 2 0 0 0 (s.setFlag fCRY_STAT_TTVALID false)
    t.flag fCRY_STAT_TTVALID = false ∧ t.flag fPCS_STAT_TTREJECT = true ∧ pendBit t 0x128 4 = true ∧
    RegsEv s t [rCRY_STAT, fPCS_STAT_TTREJECT.key] [0x128] ∧ Kept s t := by
  intro t
  generalize hu : (s.setFlag fCRY_STAT_TTVALID false).setFlag fPCS_STAT_TTREJECT true = u
  have ht : t = post 0x128 4 2 0 0 0 u := by rw [← hu]; rfl
  have hframe : RegFrame [rCRY_STAT, fPCS_STAT_TTREJECT.key] s u :=
    hu ▸ ((RegFrame.refl _ s).wr _ (by decide)).wr _ (by decide)
  have hvalid : u.flag fCRY_STAT_TTVALID = false := by
    rw [← hu, flag_setFlag_ne _ _ _ _ (by decide) (Or.inl (by decide)), flag_setFlag_self _ _ _ (by decide) rfl]
  have hreject : u.flag fPCS_STAT_TTREJECT = true := hu ▸ flag_setFlag_self _ _ _ (by decide) rfl
  have hstat : evFree 0x128 rCRY_STAT := ⟨by decide, fun hg => absurd hg.2 (by decide), by decide⟩
  have hpcs : evFree 0x128 fPCS_STAT_TTREJECT.key := ⟨by decide, fun hg => absurd hg.2 (by decide), by decide⟩
  have honly : OnlyTb s t := ht ▸ hframe.1.onlyTb.trans (onlyTb_of_evFrame (post_frame _ _ _ _ _ _ u))
  rw [ht] at honly ⊢
  refine ⟨(flag_post _ _ _ _ _ _ u _ hstat).trans hvalid, (flag_post _ _ _ _ _ _ u _ hpcs).trans hreject,
    pendBit_post _ _ _ _ _ _ u (by decide), fun k ho hq hg hd => ?_, honly.kept_of_tb ?_⟩
  · have hfree : evFree 0x128 k := ⟨hq _ (List.mem_singleton_self _), fun hk => by obtain ⟨h1, h2⟩ := hk; omega, hd⟩
    exact (rd_post _ _ _ _ _ _ u hfree).trans (hframe.2 k ho)
  · rw [post_tb, hframe.1.tb_eq]

end

/-! A write of PAGE_CTRL.EN (R101). -/

section
variable {s : State} {on : Bool}

theorem pageEnWrite_same (p : Nat) (h : on = pageEn s p) : pageEnWrite p on s = s := by rw [pageEnWrite, if_pos h]
theorem pageEnWrite_of_locked {p : Nat} (hl : locked s p = true) (h : on ≠ pageEn s p) :
    pageEnWrite p on s = s.setFlag (fPAGE_STAT_REFUSED p) true := by rw [pageEnWrite, if_neg h, if_pos hl]
theorem pageEnWrite_cryPg (hl : locked s cryPg = false) (h : on ≠ pageEn s cryPg) : pageEnWrite cryPg on s = cryEnWrite on s := by
  rw [pageEnWrite, if_neg h, if_neg (by simp [hl])]
  rfl

theorem cryEnWrite_of_admitted (he : pageEn s cryPg = true) (hn : nadmitOf s ≠ 0) :
    cryEnWrite false s = s.setFlag fCRY_STAT_CFGREFUSED true := by rw [cryEnWrite, if_pos ⟨rfl, he, hn⟩]
theorem cryEnWrite_of_allowed (h : on = true ∨ nadmitOf s = 0 ∨ pageEn s cryPg = false) :
    cryEnWrite on s = s.setFlag (fPAGE_CTRL_EN cryPg) on := by
  refine if_neg fun ⟨hoff, hen, hn⟩ => ?_
  rcases h with h | h | h
  · exact absurd (hoff.symm.trans h) (by decide)
  · exact hn h
  · exact absurd (hen.symm.trans h) (by decide)

end

end Sys2Proof.Machine

open Sys2Proof Sys2Proof.Machine Sys2Proof.Claims

/-- Settles O33, row by row: refused while a context is admitted, and otherwise the row's own effect. -/
theorem timingTable : Obligations.TimingTable := by
  intro s
  refine ⟨fun j v hn => ⟨_, rfl, ?dataRefused⟩, fun j v hn hj => ⟨_, rfl, ?dataStaged⟩, fun v hn => ⟨_, rfl, ?dataEntry⟩,
    fun hn => ⟨_, rfl, ?commitRefused⟩, fun hn hok hlt => ⟨_, rfl, ?commitDone⟩,
    fun hn hok => ⟨_, rfl, ?commitRejected⟩, fun hl he hn => ⟨_, rfl, ?enableRefused⟩,
    fun on hl ha => ⟨_, rfl, ?enableDone⟩, fun on hl hne => ⟨_, rfl, ?enableLocked⟩⟩
  case dataRefused =>
    rw [ttDataWrite_of_admitted j v hn]
    obtain ⟨hset, hadmit, hregs, hev, hkept⟩ := cryRefused_alone s
    exact ⟨hset, hregs, hadmit, hev, hkept⟩
  case dataStaged =>
    rw [ttDataWrite_of_staged j v hn hj]
    exact ⟨storeGet_storeSet_self 0 _ _ v, fun m hm => storeGet_storeSet_ne 0 0 _ v fun he => hm (Fin.ext he),
      fun _ _ => rfl, ⟨rfl, rfl, rfl, rfl, rfl⟩, kept_refl s, rfl⟩
  case dataEntry =>
    have hdone : ttDataWrite (3 : Fin 4).val v s = _ := ttDataWrite_of_last v hn
    rw [hdone]
    exact ttWritten_alone s _ _ v
  case commitRefused =>
    rw [ttCommit_of_admitted hn]
    obtain ⟨hset, hadmit, hregs, hev, hkept⟩ := cryRefused_alone s
    exact ⟨hset, hregs, hadmit, hev, hkept⟩
  case commitDone =>
    rw [ttCommit_of_meets hn hok]
    have hlong : longestStrip s < 65536 := longestStrip_lt (by decide) fun e he =>
      of_decide_eq_true (List.all_eq_true.1 hlt e he)
    obtain ⟨hvalid, hreject, hpre, honly, hregs⟩ := ttAccepted hlong
    refine ⟨hvalid, hreject, List.all_eq_true.2 fun e he => ?_, hregs, honly.noEvents, honly.kept⟩
    by_cases h0 : e.1 = 0
    · simp [h0]
    by_cases hv : ttValid (ttOf s) e.1 = true
    · simp [hpre, stripTime_le_longest he h0 hv]
    · simp [hv]
  case commitRejected =>
    rw [ttCommit_of_rejected hn hok]
    exact ttRejected
  case enableRefused =>
    rw [pageEnWrite_cryPg hl (by simp [he]), cryEnWrite_of_admitted he hn]
    obtain ⟨hset, hadmit, hregs, hev, hkept⟩ := cryRefused_alone s
    exact ⟨(flag_of_rd _ (rd_setFlag_ne _ _ _ (by decide))).trans he, hset, hregs, hadmit, hev, hkept⟩
  case enableDone =>
    by_cases hne : on = pageEn s cryPg
    · rw [pageEnWrite_same cryPg hne]
      exact ⟨hne.symm, fun _ _ => rfl, ⟨rfl, rfl, rfl, rfl, rfl⟩, kept_refl s⟩
    · rw [pageEnWrite_cryPg hl hne, cryEnWrite_of_allowed ha]
      exact setFlag_alone s (rPAGE_CTRL cryPg) on (by decide)
  case enableLocked =>
    rw [pageEnWrite_of_locked hl hne]
    exact ⟨flag_of_rd _ (rd_setFlag_ne _ _ _ (by decide)), setFlag_alone s (rPAGE_STAT cryPg) true (by decide)⟩

end

section
/-!
PROOFS. The end of a slot (R90): a state that refutes SlotEnds. TASK_BUDGET_EXPIRY acts on a task that has used no CCLK
beyond its TBUDGET where its exception entries have spilled beyond its TBEATS-th beat.
-/

namespace Sys2Proof.Machine
open Sys2Proof Sys2Proof.Claims

/-- Core 0's task is within its TBUDGET, and one beat has been spilled where its TBEATS allows none. -/
def spilledBeyondTbeats : State :=
  State.reset.setCore 0 { Core.reset 0 with
    group := [{ ctx := 0, tick := 0, used := 0, budget := 0, beats := 1, tbeats := 0, cap := Cap.zero }] }

theorem spilledBeyondTbeats_within : withinBudget (spilledBeyondTbeats.core 0) = true := by decide +kernel

/-- The row ends the task all the same. -/
theorem spilledBeyondTbeats_ended :
    ((unlessFrozen (corePg 0) (coreEvent budgetExpiry 0) spilledBeyondTbeats).core 0).group ≠
      (spilledBeyondTbeats.core 0).group := by decide +kernel

end Sys2Proof.Machine

open Sys2Proof Sys2Proof.Machine Sys2Proof.Claims

/-- Refutes O32: its fourth clause has TASK_BUDGET_EXPIRY do nothing where the task is within its TBUDGET, but the row also
acts where exception entries have spilled beyond TBEATS (R90). -/
theorem not_slotEnds : ¬ Obligations.SlotEnds := by
  intro h
  obtain ⟨_, _, _, hwithin, _⟩ := h spilledBeyondTbeats
  obtain ⟨t, hexec, hsame⟩ := hwithin 0 (Or.inr spilledBeyondTbeats_within)
  have ht : unlessFrozen (corePg 0) (coreEvent budgetExpiry 0) spilledBeyondTbeats = t := Host.Outcome.next.inj hexec
  exact spilledBeyondTbeats_ended (by rw [ht, hsame])

end

section
/-!
PROOFS. The launch point (R87, R92): a state that refutes LaunchPoints. The row stops what is left of earlier launches at
each core and stores the core again, so that a store that lists a core in its reset state loses that entry.
-/

namespace Sys2Proof.Machine
open Sys2Proof Sys2Proof.Claims

/-- No core issues anything: each is frozen or not running (R38, R522). -/
def CoresStill (s : State) : Prop := ∀ n ∈ [0, 1, 2, 3, 4], coreFrozen s n = true ∨ coreRunning s n = false

theorem issueNext_of_still {s : State} {n : Nat} (h : coreFrozen s n = true ∨ coreRunning s n = false) :
    issueNext n s = none := by
  rw [issueNext]
  exact if_pos (h.imp_right Or.inr)

theorem pumpCore_of_still {s : State} {n : Nat} (h : coreFrozen s n = true ∨ coreRunning s n = false) : pumpCore n s = s := by
  rw [pumpCore, pump, issueNext_of_still h]

theorem pumpAll_of_still {s : State} (h : CoresStill s) : pumpAll s = s :=
  List.foldlRecOn (motive := fun t => t = s) [0, 1, 2, 3, 4] _ rfl fun _ ht n hn => by rw [ht]; exact pumpCore_of_still (h n hn)

/-- Whether the cores are still is a matter of the registers, where none is out of reset. -/
theorem coresStill_of_regs {s u : State} (hr : Claims.Regs s u []) (hf : s.flag (fPAGE_CTRL_FREEZE 0x1070) = true)
    (hrun : s.fld fRST_CTRL_CORERUN = 0) : CoresStill u := by
  have hrd : ∀ k, u.rd k = s.rd k := fun k => hr k List.not_mem_nil
  have hfrozen : coreFrozen u 4 = true := frozen_of_flag ((flag_of_rd _ (hrd _)).trans hf)
  have hreset : ∀ n, n ≠ 4 → coreRunning u n = false := fun n hn => by
    rw [coreRunning, fld_of_rd _ (hrd _), hrun]
    simp [hn, natBit]
  intro n _
  by_cases hn : n = 4
  · exact Or.inl (hn ▸ hfrozen)
  · exact Or.inr (hreset n hn)

/-- At a launch point of a Crystallizer that is disabled, with S0 frozen and the other cores in reset, whose store of the cores
lists core 0 in its reset state. -/
def listedReset : State :=
  (({ State.reset with tb := { TbState.reset with ticks := true }, cores := [(0, Core.reset 0)] }.setFlag
    (fPAGE_CTRL_EN tbPg) true).setFlag (fPAGE_CTRL_FREEZE 0x1070) true).setFld fRST_CTRL_CORERUN 0

theorem listedReset_fresh : Fresh listedReset := by decide +kernel
theorem listedReset_disabled : pageEn listedReset cryPg = false := by decide +kernel
theorem listedReset_frozen : listedReset.flag (fPAGE_CTRL_FREEZE 0x1070) = true := by decide +kernel
theorem listedReset_inReset : listedReset.fld fRST_CTRL_CORERUN = 0 := by decide +kernel

/-- The row drops the entry. -/
theorem cores_launchRow_listedReset : (launchRow [] listedReset).cores ≠ listedReset.cores := by decide +kernel

end Sys2Proof.Machine

open Sys2Proof Sys2Proof.Machine Sys2Proof.Claims

/-- Refutes O31: its second clause has a launch point with nothing due leave the cores' store as it is, for every store; the row
brings one that lists a core in its reset state into its canonical form. -/
theorem not_launchPoints : ¬ Obligations.LaunchPoints := by
  intro h
  obtain ⟨_, hidle, _⟩ := h listedReset
  obtain ⟨t, hexec, u, ⟨_, _, hcores, hregs, _⟩, ht⟩ := hidle listedReset_fresh (Or.inl listedReset_disabled)
  have hrow : launchRow [] listedReset = t := Host.Outcome.next.inj hexec
  have hstill : pumpAll u = u := pumpAll_of_still (coresStill_of_regs hregs listedReset_frozen listedReset_inReset)
  exact cores_launchRow_listedReset (by rw [hrow, ht, hstill, hcores])

end

section
/-!
PROOFS. The canonical form (logs 1 and 2, family 05): the rules by which an operation keeps it, what each operation of the model
keeps, in the order of the model's files, and from these what every command keeps.
-/
-- Elaborated side by side, this many short proofs exceed the check's limit on threads.
set_option Elab.async false
namespace Sys2Proof.Machine
open Sys2Proof Sys2Proof.Claims

/-! ## The rules -/

/-- Every store of the state is in its canonical form. -/
def Canon (s : State) : Prop := s.canonical = true

/-- The operation takes canonical states to canonical states. -/
abbrev Keeps (f : State → State) : Prop := ∀ ⦃s⦄, Canon s → Canon (f s)

theorem canon_iff (s : State) : Canon s ↔
    Regs.wf s.regs = true ∧ Memory.wf s.sal.mem = true ∧ Memory.wf s.mram = true ∧ Memory.wf s.lmem = true := by
  simp [Canon, State.canonical, and_assoc]

/-- An update of other fields leaves a canonical state canonical. -/
theorem canon_mk {s : State} {pending shadow evPay evHeld evIn fr out lmErr tb ev sal cry pan bl rk sl qe tj fab dup
    pwr sec pn cores} (h : Canon s) (hm : sal.mem = s.sal.mem := by rfl) :
    Canon ⟨pending, s.regs, shadow, evPay, evHeld, evIn, fr, out, s.mram, s.lmem, lmErr, tb, ev, sal, cry, pan, bl, rk,
      sl, qe, tj, fab, dup, pwr, sec, pn, cores⟩ := by
  obtain ⟨hr, hs, hram, hl⟩ := (canon_iff s).1 h
  exact (canon_iff _).2 ⟨hr, hm ▸ hs, hram, hl⟩

/-- A change of the Saltern that leaves its bytes. -/
theorem canon_salSet {s : State} {f : SalState → SalState} (h : Canon s) (hm : (f s.sal).mem = s.sal.mem := by rfl) :
    Canon (s.salSet f) := canon_mk h hm

/-- A change of the Saltern that keeps its bytes in their canonical form. -/
theorem canon_salMem {s : State} {f : SalState → SalState} (h : Canon s) (hm : Memory.wf (f s.sal).mem = true) :
    Canon (s.salSet f) := by
  obtain ⟨hr, _, hram, hl⟩ := (canon_iff s).1 h
  exact (canon_iff _).2 ⟨hr, hm, hram, hl⟩

theorem Canon.mem {s : State} (h : Canon s) : Memory.wf s.sal.mem = true := ((canon_iff s).1 h).2.1

theorem wf_memSet {m : List (Nat × Byte)} {k : Nat} {b : Byte} (h : Memory.wf m = true) :
    Memory.wf (storeSet 0 m k b) = true := storeWf_storeSet (fun _ => 0) m k b h

theorem wf_memKeep {m : List (Nat × Byte)} {p : Nat → Bool} (h : Memory.wf m = true) :
    Memory.wf (storeKeep p m) = true := storeWf_storeKeep (fun _ => 0) p h

theorem canon_ite {c : Prop} {d : Decidable c} {s t : State} (hs : Canon s) (ht : Canon t) :
    Canon (if c then s else t) := by
  split
  · exact hs
  · exact ht

theorem canon_when {c : Prop} {d : Decidable c} {s t : State} (h : Canon s) (ht : Canon s → Canon t) :
    Canon (if c then t else s) := canon_ite (ht h) h

theorem canon_unless {c : Prop} {d : Decidable c} {s t : State} (h : Canon s) (ht : Canon s → Canon t) :
    Canon (if c then s else t) := canon_ite h (ht h)

theorem canon_foldl {α : Type} {f : State → α → State} {l : List α} {s : State}
    (hf : ∀ ⦃t⦄ x, Canon t → Canon (f t x)) (h : Canon s) : Canon (l.foldl f s) :=
  List.foldlRecOn l f h fun _ ht x _ => hf x ht

theorem canon_snd {α : Type} {p : α × State} {x : α} {t : State} (e : p = (x, t)) (h : Canon p.2) : Canon t := by
  rwa [e] at h

theorem canon_fst {α : Type} {p : State × α} {t : State} {x : α} (e : p = (t, x)) (h : Canon p.1) : Canon t := by
  rwa [e] at h

theorem canonFst_ite {α : Type} {c : Prop} {d : Decidable c} {p q : State × α} (hp : Canon p.1) (hq : Canon q.1) :
    Canon (if c then p else q).1 := by
  split
  · exact hp
  · exact hq

theorem canonSnd_ite {α : Type} {c : Prop} {d : Decidable c} {p q : α × State} (hp : Canon p.2) (hq : Canon q.2) :
    Canon (if c then p else q).2 := by
  split
  · exact hp
  · exact hq

/-- The state that the option holds, if any, is canonical. -/
def CanonOpt : Option State → Prop
  | none => True
  | some t => Canon t

/-- The operation takes canonical states to canonical states, where it takes them anywhere. -/
abbrev KeepsOpt (f : State → Option State) : Prop := ∀ ⦃s⦄, Canon s → CanonOpt (f s)

theorem CanonOpt.of_some {o : Option State} {t : State} (h : CanonOpt o) (e : o = some t) : Canon t := by rwa [e] at h
theorem canonOpt_none : CanonOpt none := trivial
theorem canonOpt_some {s : State} (h : Canon s) : CanonOpt (some s) := h
theorem canonOpt_ite {c : Prop} {d : Decidable c} {o p : Option State} (ho : CanonOpt o) (hp : CanonOpt p) :
    CanonOpt (if c then o else p) := by
  split
  · exact ho
  · exact hp

/-- The state of an outcome that is no error is canonical. -/
def CanonExc {ε : Type} : Except ε State → Prop
  | .error _ => True
  | .ok t => Canon t

/-- The operation takes canonical states to canonical states, where it does not fail. -/
abbrev KeepsExc {ε : Type} (f : State → Except ε State) : Prop := ∀ ⦃s⦄, Canon s → CanonExc (f s)

theorem CanonExc.of_ok {ε : Type} {x : Except ε State} {t : State} (h : CanonExc x) (e : x = .ok t) : Canon t := by
  rwa [e] at h
theorem canonExc_error {ε : Type} {e : ε} : CanonExc (.error e) := trivial
theorem canonExc_ok {ε : Type} {s : State} (h : Canon s) : CanonExc (ε := ε) (.ok s) := h
theorem canonExc_ite {ε : Type} {c : Prop} {d : Decidable c} {x y : Except ε State} (hx : CanonExc x)
    (hy : CanonExc y) : CanonExc (if c then x else y) := by
  split
  · exact hx
  · exact hy

/-- What a syllable comes to keeps the canonical form: its effect and its control, or what stays of its exception. -/
def EffKeeps : Except Stop Eff → Prop
  | .error t => Keeps t.keep
  | .ok f => Keeps f.fx ∧ Keeps f.ctl

theorem keeps_id : Keeps id := fun _ h => h
theorem effKeeps_ok {f : Eff} (hf : Keeps f.fx) (hc : Keeps f.ctl) : EffKeeps (.ok f) := ⟨hf, hc⟩
theorem effKeeps_error {t : Stop} (h : Keeps t.keep) : EffKeeps (.error t) := h
theorem effKeeps_ite {c : Prop} {d : Decidable c} {x y : Except Stop Eff} (hx : EffKeeps x) (hy : EffKeeps y) :
    EffKeeps (if c then x else y) := by
  split
  · exact hx
  · exact hy

theorem EffKeeps.of_error {x t} (h : EffKeeps x) (e : x = .error t) : Keeps t.keep := by rwa [e] at h
theorem EffKeeps.of_ok {x f} (h : EffKeeps x) (e : x = .ok f) : Keeps f.fx ∧ Keeps f.ctl := by rwa [e] at h

theorem keeps_wr {k v} : Keeps (·.wr k v) := fun s h => by
  obtain ⟨hr, hs, hm, hl⟩ := (canon_iff s).1 h
  exact (canon_iff _).2 ⟨storeWf_storeSet regDflt s.regs k v hr, hs, hm, hl⟩

theorem wf_putList {m : List (Nat × Byte)} (a : Nat) (bs : List Byte) (h : Memory.wf m = true) :
    Memory.wf (putList m a bs) = true := by
  induction bs generalizing a m with
  | nil => exact h
  | cons b r ih => exact ih (a + 1) (storeWf_storeSet (fun _ => 0) m a b h)

/-- Mapping a canonical store to entries at the same keys, of which those that read as unlisted are dropped, is canonical. -/
theorem storeWf_filterMap {α : Type} [DecidableEq α] (d : Nat → α) (f : Nat × α → α) {m : List (Nat × α)}
    (h : storeWf d m = true) :
    storeWf d (m.filterMap fun e => if f e = d e.1 then none else some (e.1, f e)) = true := by
  have habove : ∀ {a : Nat} {r : List (Nat × α)}, storeAbove a r = true →
      storeAbove a (r.filterMap fun e => if f e = d e.1 then none else some (e.1, f e)) = true := by
    intro a r hr
    simp only [storeAbove, List.all_eq_true, List.mem_filterMap] at hr ⊢
    rintro x ⟨e, he, hx⟩
    split at hx
    · cases hx
    · cases hx
      exact hr e he
  induction m with
  | nil => rfl
  | cons e r ih =>
    simp only [storeWf, Bool.and_eq_true] at h
    obtain ⟨⟨ha, _⟩, hr⟩ := h
    rw [List.filterMap_cons]
    split
    next => exact ih hr
    next y hy =>
      split at hy
      · cases hy
      next hne =>
        cases hy
        simp only [storeWf, Bool.and_eq_true]
        exact ⟨⟨habove ha, by simp [hne]⟩, ih hr⟩

theorem wf_resetRegs {m : List (Nat × Word)} (keep : Nat → Nat) (h : Regs.wf m = true) :
    Regs.wf (m.filterMap fun e =>
      let x := BitVec.ofNat 32 (keep e.1)
      let v := (e.2 &&& x) ||| (regDflt e.1 &&& ~~~x)
      if v = regDflt e.1 then none else some (e.1, v)) = true :=
  storeWf_filterMap regDflt (fun e =>
    (e.2 &&& BitVec.ofNat 32 (keep e.1)) ||| (regDflt e.1 &&& ~~~BitVec.ofNat 32 (keep e.1))) h

/-! ## Ops -/

theorem keeps_setFld {f v} : Keeps (·.setFld f v) := fun _ h => keeps_wr h

theorem keeps_setFlag {f b} : Keeps (·.setFlag f b) := fun _ h => keeps_setFld h

theorem keeps_wr64 {k v} : Keeps (·.wr64 k v) := fun _ h => keeps_wr (keeps_wr h)

theorem keeps_incFld {f} : Keeps (·.incFld f) := fun _ h => keeps_setFld h

theorem keeps_addFld {f n} : Keeps (·.addFld f n) := fun _ h => keeps_setFld h

theorem keeps_stepFree : Keeps State.stepFree := fun _ h => canon_mk h

theorem keeps_unlessFrozen {pg f} (hf : Keeps f) : Keeps (unlessFrozen pg f) := fun _ h => canon_ite h (hf h)

theorem keeps_emit {o} : Keeps (·.emit o) := fun _ h => canon_mk h

theorem keeps_setTx {key t} : Keeps (·.setTx key t) := fun _ h => canon_mk h

theorem keeps_setRx {key r} : Keeps (·.setRx key r) := fun _ h => canon_mk h

theorem keeps_slLaunch {dir} : Keeps (slLaunch dir) := fun _ h => canon_mk h

theorem keeps_slSend {dir m} : Keeps (slSend dir m) := fun _ h => keeps_slLaunch (keeps_setTx h)

theorem keeps_slSendEvent {q r} : Keeps (slSendEvent q r) := fun _ h =>
  canon_ite (keeps_incFld (canon_mk h)) (keeps_slSend h)

theorem keeps_sendRec {q r} : Keeps (sendRec q r) := fun _ h => by
  unfold sendRec
  split
  · exact keeps_slSendEvent h
  · exact canon_mk h

theorem keeps_pulseRaw {ch other} : Keeps fun s => (pulseRaw ch other s).1 := fun _ h =>
  canonFst_ite h (canonFst_ite (keeps_incFld h) (canonFst_ite (keeps_setFld h) (canon_mk h)))

theorem keeps_setPend {pg bit p} : Keeps (·.setPend pg bit p) := fun _ h => keeps_wr (canon_mk h)

theorem keeps_episode {n pg bit} : Keeps (episode n pg bit) := fun s h => by
  induction n generalizing pg bit s with
  | zero => exact h
  | succ n ih =>
    unfold episode
    refine canon_ite (canon_mk h) (canon_ite ?_ (keeps_sendRec h))
    extract_lets ch
    split
    · exact canon_fst ‹_› (keeps_pulseRaw h)
    · have ht := canon_fst ‹_› (keeps_pulseRaw h)
      exact canon_unless ht fun ht => canon_ite (ih _ (keeps_setPend ht)) (keeps_setPend ht)

theorem keeps_postEventAt {e payload angle} : Keeps (postEventAt e payload angle) := fun _ h =>
  canon_ite h (canon_when (keeps_setPend h) fun h1 => keeps_episode h1)

theorem keeps_postEvent {e payload} : Keeps (postEvent e payload) := fun _ h => keeps_postEventAt h

theorem keeps_post {pg bit sev subject cause detail} : Keeps (post pg bit sev subject cause detail) := fun _ h =>
  keeps_postEvent h

theorem keeps_pulse {ch other} : Keeps (pulse ch other) := fun _ h => by
  unfold pulse
  split
  · exact canon_fst ‹_› (keeps_pulseRaw h)
  · exact keeps_post (canon_fst ‹_› (keeps_pulseRaw h))

theorem keeps_setPost {f pg bit sev subject cause detail} : Keeps (setPost f pg bit sev subject cause detail) := fun _ h =>
  keeps_post (keeps_setFlag h)

theorem keeps_releaseHeld : Keeps releaseHeld := fun _ h =>
  canon_foldl (fun _ _ h1 => canon_ite (keeps_episode h1) h1) (canon_mk h)

theorem keeps_setCore {n c} : Keeps (·.setCore n c) := fun _ h => canon_mk h

theorem keeps_evfArrive {n} : Keeps (evfArrive n) := fun _ h => by
  unfold evfArrive
  extract_lets
  split
  · exact keeps_setCore h
  · exact keeps_setCore h

theorem keeps_irqArrive {n j} : Keeps (irqArrive n j) := fun _ h => keeps_setCore h

theorem keeps_plainWrite {key v} : Keeps (plainWrite key v) := fun _ h =>
  canon_when (keeps_wr h) fun h1 => keeps_setFlag h1

/-! ## Saltern -/

theorem keeps_salPut {a b} : Keeps (salPut a b) := fun _ h => canon_salMem h (wf_memSet h.mem)

theorem keeps_salWrite {a bs} : Keeps (salWrite a bs) := fun s h => by
  induction bs generalizing a s with
  | nil => exact h
  | cons b r ih => exact ih _ (canon_ite (keeps_salPut h) h)

theorem keeps_salWriteCap {a bs tag} : Keeps (salWriteCap a bs tag) := fun _ h => canon_salSet (keeps_salWrite h)

theorem keeps_ceRead {w b loc} : Keeps (ceRead w b loc) := fun _ h =>
  canon_when (keeps_setFlag (keeps_wr64 (canon_salSet h))) fun h1 => keeps_post (canon_salSet h1)

theorem keeps_uePost {w} : Keeps (uePost w) := fun _ h => keeps_post h

theorem keeps_ueRead {record port w mask} : Keeps (ueRead record port w mask) := fun _ h =>
  canon_when (keeps_setFlag (keeps_wr64 h)) fun h1 => keeps_uePost h1

theorem keeps_wordReadBy {record port a n w} : Keeps (wordReadBy record port a n w) := fun _ h => by
  unfold wordReadBy
  split
  · exact keeps_ueRead h
  · split
    · split
      · exact keeps_ceRead h
      · exact h
    · exact h

theorem keeps_wordRead {port a n w} : Keeps (wordRead port a n w) := fun _ h => keeps_wordReadBy h

theorem keeps_portPeak {port n} : Keeps (portPeak port n) := fun _ h => canon_salSet h

theorem keeps_portTouch {port} : Keeps (portTouch port) := fun _ h => keeps_portPeak h

theorem keeps_portReturn {l} : Keeps (portReturn l) := fun _ h => canon_salSet h

theorem keeps_portIssue {port} : Keeps (portIssue port) := fun _ h => keeps_portPeak (canon_salSet (canon_salSet h))

theorem keeps_readFx {port a n} : Keeps (readFx port a n) := fun _ h => canon_foldl (fun _ _ h1 => keeps_wordRead h1) h

theorem keeps_fillReadFx {port a} : Keeps (fillReadFx port a) := fun _ h =>
  canon_foldl (fun _ _ h1 => keeps_wordReadBy h1) (keeps_portTouch h)

theorem keeps_salReadFx {port a n} : Keeps (salReadFx port a n) := fun _ h => keeps_readFx (keeps_portTouch h)

theorem keeps_tagReadFx {a} : Keeps (tagReadFx a) := fun _ h => canon_ite (keeps_setPost h) h

theorem keeps_upset {a loc} : Keeps (upset a loc) := fun _ h => canon_salSet h

theorem keeps_tagUpset {g} : Keeps (tagUpset g) := fun _ h => canon_salSet h

theorem keeps_salReadReq {port a n back ups tags} : Keeps (salReadReq port a n back ups tags) := fun _ h =>
  canon_unless (keeps_readFx (keeps_portIssue (keeps_portReturn (canon_foldl (fun _ _ h1 => keeps_tagUpset h1)
    (canon_foldl (fun _ _ h1 => keeps_upset h1) h))))) fun h1 => keeps_emit h1

theorem keeps_salWriteEn {a bs} : Keeps (salWriteEn a bs) := fun s h => by
  induction bs generalizing a s with
  | nil => exact h
  | cons b r ih =>
    cases b with
    | none => exact ih _ h
    | some v => exact ih _ (canon_ite (keeps_salPut h) h)

theorem keeps_salWriteReq {port a bs cap back} : Keeps (salWriteReq port a bs cap back) := fun _ h =>
  canon_when (keeps_salWriteEn (keeps_portIssue (keeps_portReturn h))) fun h1 => canon_salSet h1

theorem keeps_rmapRefuse {i} : Keeps (rmapRefuse i) := fun _ h => keeps_post h

theorem keeps_countRmap : Keeps countRmap := fun _ h => keeps_setFld h

theorem keeps_rmapSet {i w} : Keeps (rmapSet i w) := fun _ h =>
  canon_ite (keeps_setFlag h) (canon_ite (keeps_rmapRefuse h) (keeps_setFlag (keeps_countRmap (keeps_wr
    (canon_foldl (fun _ _ h1 => canon_salMem h1 (wf_memSet h1.mem)) (keeps_wordRead h))))))

theorem keeps_rmapClear {i w} : Keeps (rmapClear i w) := fun _ h =>
  canon_ite (keeps_setFlag h) (canon_ite (keeps_rmapRefuse h) (canon_ite (keeps_wr h) (keeps_setFlag (keeps_countRmap
    (keeps_wr (canon_foldl (fun _ _ h1 => canon_salMem h1 (wf_memSet h1.mem)) (keeps_wordRead h)))))))

theorem keeps_rmapDone : Keeps rmapDone := fun _ h => canon_ite (keeps_post (keeps_setFlag h)) h

theorem keeps_fillStart : Keeps fillStart := fun _ h => canon_ite (keeps_setFlag h) (keeps_setFlag (canon_salSet h))

theorem keeps_fillZero {f} : Keeps (fillZero f) := fun _ h => canon_salMem h (wf_memKeep (p := fun k => !fills _ f k) h.mem)

theorem keeps_fillDone : Keeps fillDone := fun _ h => by
  unfold fillDone
  split
  · exact h
  · exact keeps_post (keeps_setFlag (canon_salSet (keeps_fillZero (keeps_portTouch h))))

theorem keeps_fillStop : Keeps fillStop := fun _ h => by
  unfold fillStop
  split
  · exact h
  · exact canon_salSet (keeps_stepFree (keeps_fillZero h))

theorem keeps_ceClr : Keeps ceClr := fun _ h => canon_salSet h

theorem keeps_decodeErr {die addr master write} : Keeps (decodeErr die addr master write) := fun _ h => by
  unfold decodeErr
  split
  · exact keeps_postEvent (keeps_incFld (keeps_wr (keeps_wr64 h)))
  · exact keeps_postEvent h

theorem keeps_lmWrite {a bs} : Keeps (lmWrite a bs) := fun s h => by
  obtain ⟨hr, hs, hm, hl⟩ := (canon_iff s).1 h
  exact (canon_iff _).2 ⟨hr, hs, hm, wf_putList a bs hl⟩

theorem keeps_mramWrite {o bs} : Keeps (mramWrite o bs) := fun s h => by
  obtain ⟨hr, hs, hm, hl⟩ := (canon_iff s).1 h
  exact (canon_iff _).2 ⟨hr, hs, wf_putList o bs hm, hl⟩

theorem keeps_memWrite {die pa master bs} : Keeps (memWrite die pa master bs) := fun _ h => by
  unfold memWrite
  split
  · exact keeps_salWrite (keeps_portTouch h)
  · exact keeps_lmWrite h
  · exact canon_ite (keeps_decodeErr h) (keeps_mramWrite h)
  · exact keeps_decodeErr h
  · exact keeps_decodeErr h

/-! ## Timers -/

theorem keeps_gtMatch {n i multi} : Keeps (gtMatch n i multi) := fun _ h =>
  canon_when (keeps_post (canon_when (canon_mk (canon_when (keeps_setFlag h) fun h1 => keeps_setFlag h1)) fun h1 =>
    keeps_setFlag h1)) fun h1 => keeps_wr64 (keeps_pulse (keeps_wr64 h1))

theorem keeps_gtCompare {n i c k r} : Keeps (gtCompare n i c k r) := fun _ h =>
  canon_ite h (canon_ite (keeps_gtMatch h) h)

theorem keeps_gtStep {n k} : Keeps (gtStep n k) := fun _ h =>
  canon_ite (keeps_stepFree (keeps_setFld h)) (keeps_gtCompare (keeps_gtCompare (keeps_setFld h)))

theorem keeps_gtZero {n} : Keeps (gtZero n) := fun _ h =>
  canon_when (canon_mk (keeps_setFld h)) fun h1 => canon_when (canon_ite (keeps_gtMatch h1) h1) fun h2 => keeps_gtMatch
    h2

theorem keeps_gtCapture {n} : Keeps (gtCapture n) := fun _ h =>
  canon_ite (keeps_setPost (keeps_setFld (canon_mk h))) (canon_unless (canon_mk h) fun h1 => keeps_setPost h1)

theorem keeps_gtCaptureDue {n} : Keeps (gtCaptureDue n) := fun _ h => canon_ite (keeps_gtCapture (canon_mk h)) h

theorem keeps_gtEdge {n k} : Keeps (gtEdge n k) := fun _ h =>
  canon_ite h (canon_ite (keeps_gtZero (keeps_gtCaptureDue h)) (canon_when (keeps_gtCaptureDue h) fun h1 =>
    keeps_gtStep h1))

theorem keeps_gtEdges {k} : Keeps (gtEdges k) := fun _ h => canon_foldl (fun _ _ h1 => keeps_gtEdge h1) h

theorem keeps_gtSteps {n k} : Keeps (gtSteps n k) := fun s h => by
  induction k generalizing s with
  | zero => exact h
  | succ k ih => exact ih _ (keeps_gtEdge h)

theorem keeps_gtAdvance {n k} : Keeps (gtAdvance n k) := fun _ h => by
  unfold gtAdvance
  split
  · exact keeps_gtSteps h
  · exact keeps_gtEdge h

theorem keeps_gtRange {n i} : Keeps (gtRange n i) := fun _ h => canon_ite (keeps_setFlag h) h

theorem keeps_gtPut {n i b} : Keeps (·.gtPut n i b) := fun _ h => canon_mk h

theorem keeps_gtCmpWrite {n i v} : Keeps (gtCmpWrite n i v) := fun _ h =>
  canon_when (keeps_gtPut (keeps_gtRange (keeps_setFld h))) fun h1 => canon_ite (keeps_gtPut h1) (keeps_gtMatch h1)

theorem keeps_gtDeferred : Keeps gtDeferred := fun _ h =>
  canon_foldl (fun _ _ h1 => canon_unless (keeps_gtPut h1) fun h2 => canon_ite h1 (keeps_gtMatch h2)) h

theorem keeps_gtRefuse {n} : Keeps (gtRefuse n) := fun _ h => keeps_setPost h

theorem keeps_gtCountWrite {n v} : Keeps (gtCountWrite n v) := fun _ h => canon_ite (keeps_gtRefuse h) (keeps_setFld h)

theorem keeps_gtReloadWrite {n v} : Keeps (gtReloadWrite n v) := fun _ h =>
  canon_ite (keeps_gtRefuse h) (keeps_setFld h)

theorem keeps_gtClr {n} : Keeps (gtClr n) := fun _ h => canon_mk h

theorem keeps_gtRun {n on} : Keeps (gtRun n on) := fun _ h =>
  canon_when (keeps_setFlag h) fun h1 => keeps_gtRange (keeps_gtRange h1)

theorem keeps_gtCapIn {n} : Keeps (gtCapIn n) := fun _ h => by
  unfold gtCapIn
  split
  · exact keeps_gtCapture h
  · exact canon_mk h

theorem keeps_gtArrive {ch n} : Keeps (gtArrive ch n) := fun _ h =>
  canon_when (canon_ite (keeps_gtCapIn h) h) fun h1 => keeps_gtClr h1

theorem keeps_groupAct {t on} : Keeps (groupAct t on) := fun _ h =>
  canon_ite (keeps_setPost h) (canon_unless (canon_mk h) fun h1 => keeps_setFlag h1)

theorem keeps_deliver {p} : Keeps (deliver p) := fun _ h =>
  canon_when (canon_foldl (fun _ _ h1 => keeps_gtArrive h1) (canon_when (canon_foldl (fun _ _ h1 => canon_ite
    (keeps_evfArrive h1) h1) (canon_ite (canon_mk h) h)) fun h1 => keeps_irqArrive h1)) fun h1 => keeps_groupAct h1

theorem keeps_deliverDue : Keeps deliverDue := fun _ h => canon_foldl (fun _ _ h1 => keeps_deliver h1) (canon_mk h)

theorem keeps_deliverChannel {ch} : Keeps (deliverChannel ch) := fun _ h => by
  unfold deliverChannel
  split
  · exact h
  · exact keeps_deliver (canon_mk h)

theorem keeps_evCfgWrite {ch v} : Keeps (evCfgWrite ch v) := fun _ h => keeps_plainWrite (canon_ite h (canon_mk h))

theorem keeps_egCtrlWrite {g v} : Keeps (egCtrlWrite g v) := fun _ h =>
  canon_when (keeps_plainWrite (canon_mk h)) fun h1 => keeps_setPost h1

theorem keeps_egSwPulse {g v} : Keeps (egSwPulse g v) := fun _ h =>
  canon_foldl (fun _ _ h1 => canon_ite (keeps_pulse h1) h1) h

/-! ## Timebase -/

theorem keeps_tbSet {f} : Keeps (·.tbSet f) := fun _ h => canon_mk h

theorem keeps_segMark : Keeps segMark := fun _ h => keeps_tbSet h

theorem keeps_setRate {v} : Keeps (setRate v) := fun _ h =>
  canon_ite h (canon_when (keeps_wr64 h) fun h1 => keeps_segMark h1)

theorem keeps_floorCheck : Keeps floorCheck := fun _ h =>
  canon_ite (canon_ite (keeps_tbSet (keeps_setRate h)) (keeps_postEvent (keeps_tbSet (keeps_setFlag (keeps_setRate
    h))))) h

theorem keeps_requestChanged : Keeps requestChanged := fun _ h =>
  canon_ite (keeps_tbSet (keeps_setRate (keeps_floorCheck h))) (canon_when (keeps_floorCheck h) fun h1 => keeps_setRate
    h1)

theorem keeps_limitsChanged : Keeps limitsChanged := fun _ h =>
  keeps_requestChanged (keeps_setRate (keeps_wr64 (keeps_setFld h)))

theorem keeps_applyN {n} : Keeps (applyN n) := fun _ h => keeps_post (keeps_limitsChanged (keeps_tbSet h))

theorem keeps_slewStep : Keeps slewStep := fun _ h =>
  canon_ite (keeps_tbSet (keeps_setFlag (keeps_setRate h))) (canon_ite (keeps_tbSet (keeps_setFlag (keeps_setRate h)))
    (canon_unless (keeps_tbSet (keeps_setFlag (keeps_setRate h))) fun h1 => keeps_post h1))

theorem keeps_selectSource : Keeps selectSource := fun _ h => keeps_tbSet (keeps_setFlag (keeps_setFld h))

theorem keeps_sourceLost : Keeps sourceLost := fun _ h =>
  keeps_post (keeps_requestChanged (keeps_tbSet (keeps_setFlag (keeps_setFld h))))

theorem keeps_measure {e} : Keeps (measure e) := fun _ h =>
  canon_ite (canon_when (keeps_setFld h) fun h1 => canon_ite (keeps_post (keeps_requestChanged (keeps_tbSet
    (keeps_setFld h1)))) (keeps_tbSet h1)) (keeps_requestChanged (canon_ite (keeps_setFlag (keeps_tbSet (keeps_setFld
    h))) (canon_when (keeps_tbSet (keeps_setFld h)) fun h1 => keeps_setFlag h1)))

theorem keeps_crossing {a f} : Keeps (crossing a f) := fun _ h => by
  refine canon_ite h ?_
  split
  · exact keeps_tbSet h
  · exact canon_ite (keeps_measure (keeps_tbSet h)) (canon_ite (keeps_tbSet (keeps_tbSet h)) (keeps_sourceLost
      (keeps_tbSet h)))

theorem keeps_gridSample {v} : Keeps (gridSample v) := fun _ h => by
  refine canon_unless (keeps_tbSet h) fun h1 => ?_
  split
  · exact h1
  · exact canon_ite (keeps_crossing h1) h1

theorem keeps_gsyncEdge : Keeps gsyncEdge := fun _ h => canon_ite (keeps_crossing h) h

theorem keeps_gridLost : Keeps gridLost := fun _ h => canon_ite (keeps_sourceLost h) h

theorem keeps_fabricMeasure {tgtAngle atTarget} : Keeps (fabricMeasure tgtAngle atTarget) := fun _ h =>
  canon_ite h (keeps_measure h)

theorem keeps_fabricAnswer {fcyc angle valid} : Keeps (fabricAnswer fcyc angle valid) := fun _ h =>
  canon_ite h (canon_ite (keeps_tbSet h) (keeps_tbSet h))

theorem keeps_fabricDue : Keeps fabricDue := fun _ h =>
  canon_ite h (canon_foldl (fun _ _ h1 => keeps_fabricMeasure h1) (keeps_tbSet h))

theorem keeps_fabricInterval : Keeps fabricInterval := fun _ h => keeps_tbSet h

theorem keeps_fabricLost : Keeps fabricLost := fun _ h => canon_ite (keeps_sourceLost h) h

theorem keeps_floorExit : Keeps floorExit := fun _ h => canon_ite (keeps_post (keeps_tbSet (keeps_setFlag h))) h

theorem keeps_tbBoundary {b} : Keeps (tbBoundary b) := fun _ h =>
  keeps_slewStep (canon_when (keeps_tbSet (keeps_setFld (keeps_wr64 h))) fun h1 => keeps_requestChanged
    (keeps_selectSource h1))

theorem keeps_tbAdvance {inc} : Keeps (tbAdvance inc) := fun _ h => by
  refine canon_unless ?_ fun h1 => keeps_tbBoundary h1
  split
  · exact canon_when (keeps_tbSet (keeps_wr64 h)) fun h1 => keeps_applyN h1
  · exact keeps_tbSet (keeps_wr64 h)

theorem keeps_tbRefuse : Keeps tbRefuse := fun _ h => keeps_setPost h

theorem keeps_tbEnable : Keeps tbEnable := fun _ h => canon_ite h (keeps_segMark (keeps_tbSet (keeps_setFlag h)))

theorem keeps_tbDisable : Keeps tbDisable := fun _ h =>
  canon_ite h (canon_ite (keeps_tbRefuse h) (keeps_requestChanged (canon_when (keeps_segMark (keeps_tbSet
    (keeps_setFlag h))) fun h1 => keeps_selectSource h1)))

theorem keeps_angleSet {a} : Keeps (angleSet a) := fun _ h => keeps_tbSet (keeps_wr64 h)

theorem keeps_tbLoad : Keeps tbLoad := fun _ h => canon_ite h (keeps_wr64 (keeps_angleSet h))

theorem keeps_tbNWrite {v} : Keeps (tbNWrite v) := fun _ h =>
  canon_ite (keeps_setFlag h) (canon_ite (keeps_tbRefuse h) (canon_ite (keeps_tbSet (keeps_setFld h)) (keeps_applyN
    (keeps_setFld h))))

theorem keeps_tbTickMinWrite {v} : Keeps (tbTickMinWrite v) := fun _ h =>
  canon_ite (keeps_setFlag h) (canon_ite (keeps_tbRefuse h) (keeps_limitsChanged (keeps_setFld h)))

theorem keeps_tbSrcWrite {v} : Keeps (tbSrcWrite v) := fun _ h =>
  canon_unless (keeps_tbSet (keeps_setFld h)) fun h1 => keeps_requestChanged (keeps_selectSource h1)

theorem keeps_rateHoldWrite {v} : Keeps (rateHoldWrite v) := fun _ h => keeps_requestChanged (keeps_wr64 h)

theorem keeps_gridSrcWrite {v} : Keeps (gridSrcWrite v) := fun _ h =>
  canon_ite (keeps_setFlag h) (keeps_tbSet (keeps_plainWrite h))

theorem keeps_lowRead {master key} : Keeps (lowRead master key) := fun _ h => canon_mk h

theorem keeps_highRead {master key} : Keeps (highRead master key) := fun _ h => canon_mk h

theorem keeps_acArm {n b} : Keeps (·.acArm n b) := fun _ h => canon_mk h

theorem keeps_acPut {n b} : Keeps (·.acPut n b) := fun _ h => canon_mk h

theorem keeps_acMatch {n multi} : Keeps (acMatch n multi) := fun _ h =>
  canon_when (keeps_post (keeps_acPut (keeps_acArm (canon_mk (canon_when (canon_when (keeps_wr64 (keeps_setFlag h)) fun
    h1 => keeps_setFlag h1) fun h1 => keeps_setFlag h1))))) fun h1 => keeps_pulse h1

theorem keeps_acStep {n a} : Keeps (acStep n a) := fun _ h =>
  canon_ite h (canon_unless (keeps_acMatch h) fun h1 => canon_ite h (canon_ite h1 h))

theorem keeps_acSteps {a} : Keeps (acSteps a) := fun _ h => canon_foldl (fun _ _ h1 => keeps_acStep h1) h

theorem keeps_acCommit {n} : Keeps (acCommit n) := fun _ h =>
  canon_unless (canon_when (keeps_acPut (keeps_acArm h)) fun h1 => keeps_setFlag h1) fun h1 => canon_when (canon_ite
    (keeps_setFlag h1) (keeps_acPut h1)) fun h2 => keeps_acMatch h2

theorem keeps_acCmpWrite64 {n v} : Keeps (acCmpWrite64 n v) := fun _ h => keeps_acCommit (keeps_wr64 (canon_mk h))

theorem keeps_acCmpWriteLow {n v} : Keeps (acCmpWriteLow n v) := fun _ h => canon_mk h

theorem keeps_acCmpWriteHigh {n v} : Keeps (acCmpWriteHigh n v) := fun _ h => keeps_acCommit (keeps_wr (keeps_wr h))

theorem keeps_acReloadWrite {n v} : Keeps (acReloadWrite n v) := fun _ h => canon_ite h (keeps_wr64 h)

theorem keeps_acCtrlWrite {n v} : Keeps (acCtrlWrite n v) := fun _ h =>
  canon_ite (keeps_acPut (keeps_plainWrite h)) (canon_when (keeps_plainWrite h) fun h1 => keeps_acArm h1)

/-! ## Sluice -/

theorem keeps_slSet {f} : Keeps (·.slSet f) := fun _ h => canon_mk h

theorem keeps_setPairState {i st} : Keeps (setPairState i st) := fun _ h => keeps_wr (keeps_wr h)

theorem keeps_timeStart : Keeps timeStart := fun _ h => by
  unfold timeStart
  split
  · exact h
  · exact canon_when (keeps_slSet h) fun h1 => keeps_slSend h1

theorem keeps_sluiceUp : Keeps sluiceUp := fun _ h =>
  keeps_timeStart (keeps_slSet (canon_unless (keeps_post (keeps_post h)) fun h1 => keeps_setFld (keeps_postEvent h1)))

theorem keeps_sluiceDown : Keeps sluiceDown := fun _ h => keeps_post (keeps_post (keeps_setFlag h))

theorem keeps_lanesFall {i} : Keeps (lanesFall i) := fun _ h => keeps_slSet h

theorem keeps_pairTo {i st} : Keeps (pairTo i st) := fun _ h =>
  canon_ite (keeps_sluiceUp (canon_ite (keeps_post (keeps_post (canon_when (canon_when (canon_when (keeps_setPairState
    h) fun h1 => keeps_slSet h1) fun h1 => keeps_lanesFall h1) fun h1 => keeps_slLaunch (keeps_slLaunch h1))))
    (canon_when (canon_when (canon_when (canon_when (keeps_setPairState h) fun h1 => keeps_slSet h1) fun h1 =>
    keeps_lanesFall h1) fun h1 => keeps_slLaunch (keeps_slLaunch h1)) fun h1 => keeps_post (keeps_post h1))))
    (canon_when (canon_ite (keeps_post (keeps_post (canon_when (canon_when (canon_when (keeps_setPairState h) fun h1 =>
    keeps_slSet h1) fun h1 => keeps_lanesFall h1) fun h1 => keeps_slLaunch (keeps_slLaunch h1)))) (canon_when
    (canon_when (canon_when (canon_when (keeps_setPairState h) fun h1 => keeps_slSet h1) fun h1 => keeps_lanesFall h1)
    fun h1 => keeps_slLaunch (keeps_slLaunch h1)) fun h1 => keeps_post (keeps_post h1))) fun h1 => keeps_sluiceDown h1)

theorem keeps_pairSignal {i} : Keeps (pairSignal i) := fun _ h => canon_ite (keeps_pairTo h) h

theorem keeps_pairLock {i} : Keeps (pairLock i) := fun _ h => canon_ite (keeps_pairTo h) h

theorem keeps_pairMeasure {i rtF rtH} : Keeps (pairMeasure i rtF rtH) := fun _ h =>
  canon_ite h (canon_ite (keeps_pairTo (keeps_wr (keeps_wr h))) (keeps_pairTo (keeps_wr (keeps_wr h))))

theorem keeps_pairFall {i} : Keeps (pairFall i) := fun _ h => canon_ite (keeps_pairTo h) h

theorem keeps_pairRelock {i} : Keeps (pairRelock i) := fun _ h => canon_ite (keeps_pairTo h) h

theorem keeps_pairDisWrite {v} : Keeps (pairDisWrite v) := fun _ h =>
  canon_ite (keeps_setFlag h) (canon_foldl (fun _ _ h1 => canon_ite (canon_ite h1 (keeps_pairTo h1)) (canon_ite
    (keeps_pairTo h1) h1)) (keeps_setFld h))

theorem keeps_takeCell {dir c} : Keeps (takeCell dir c) := fun _ h => canon_ite (keeps_slSet h) h

theorem keeps_takeHeld {dir key n} : Keeps (takeHeld dir key n) := fun s h => by
  induction n generalizing s with
  | zero => exact h
  | succ n ih =>
    unfold takeHeld
    extract_lets
    split
    · exact h
    · exact ih _ (keeps_takeCell (keeps_setRx h))

theorem keeps_rxCell {dir key c} : Keeps (rxCell dir key c) := fun _ h =>
  canon_ite (keeps_takeHeld (keeps_takeCell (keeps_setRx h))) (canon_ite (keeps_setRx h) (canon_ite (keeps_incFld h) h))

theorem keeps_ackCells {key} : Keeps (ackCells key) := fun _ h => keeps_slLaunch (keeps_slSet (keeps_setTx h))

theorem keeps_badCell {dir p} : Keeps (badCell dir p) := fun _ h => keeps_wr h

theorem keeps_laneArrive {dir p good} : Keeps (laneArrive dir p good) := fun _ h => by
  unfold laneArrive
  split
  · exact h
  · exact keeps_slLaunch (canon_ite (keeps_rxCell (keeps_slSet h)) (keeps_badCell (keeps_slSet h)))

theorem keeps_cellReceive {dir p data ack good} : Keeps (cellReceive dir p data ack good) := fun _ h => by
  refine canon_ite h (canon_ite (keeps_laneArrive ?_) (canon_unless ?_ fun h1 => keeps_badCell h1))
  · split
    · exact canon_ite (keeps_ackCells h) h
    · exact h
  · split
    · exact canon_ite (keeps_ackCells h) h
    · exact h

theorem keeps_retransmit {dir cls} : Keeps (retransmit dir cls) := fun _ h =>
  canon_ite (keeps_slLaunch (keeps_slSet (keeps_addFld h))) h

theorem keeps_cross {dir cls} : Keeps (cross dir cls) := fun _ h =>
  keeps_slLaunch (keeps_slSet (keeps_ackCells (canon_foldl (fun _ _ h1 => keeps_rxCell h1) (canon_when (keeps_ackCells
    h) fun h1 => keeps_addFld h1))))

theorem keeps_pull {dir cls} : Keeps (pull dir cls) := fun _ h =>
  canon_ite (canon_foldl (fun _ _ h1 => keeps_cross h1) h) h

theorem keeps_dropF {m} : Keeps (dropF m) := fun _ h => keeps_slSet h

theorem keeps_dropH {m} : Keeps (dropH m) := fun _ h => keeps_slSet h

theorem keeps_linkSeen {d c} : Keeps (linkSeen d c) := fun _ h => keeps_slSet h

theorem keeps_slRestart : Keeps slRestart := fun _ h => keeps_slSet (keeps_addFld h)

theorem keeps_initCell {fromH} : Keeps (initCell fromH) := fun _ h =>
  canon_ite (keeps_slSet (keeps_slRestart (keeps_linkSeen h))) h

theorem keeps_initAck {toH} : Keeps (initAck toH) := fun _ h => canon_ite (keeps_slSet (keeps_linkSeen h)) h

theorem keeps_dipOn : Keeps dipOn := fun _ h => canon_ite (keeps_setFlag (keeps_linkSeen h)) h

theorem keeps_dipOff : Keeps dipOff := fun _ h => canon_ite (keeps_setFlag (keeps_linkSeen h)) h

theorem keeps_telemetryRead : Keeps telemetryRead := fun _ h =>
  canon_ite h (canon_ite (keeps_incFld h) (canon_ite (keeps_post (keeps_salReadFx (canon_ite h (keeps_stepFree h))))
    (keeps_slSend (keeps_salReadFx (canon_ite h (keeps_stepFree h))))))

theorem keeps_telNew : Keeps telNew := fun _ h => by
  unfold telNew
  extract_lets
  split
  · exact keeps_post (keeps_slSet (keeps_incFld (keeps_wr64 (keeps_dropH (canon_ite h (keeps_pull h))))))
  · exact canon_ite h (keeps_pull h)

theorem keeps_harvestReceive : Keeps harvestReceive := fun _ h => by
  unfold harvestReceive
  extract_lets
  split
  · exact canon_ite (keeps_salWrite (keeps_portTouch (keeps_dropF (canon_ite h (keeps_pull h))))) (keeps_incFld
      (keeps_dropF (canon_ite h (keeps_pull h))))
  · exact canon_ite h (keeps_pull h)

theorem keeps_timeSend : Keeps timeSend := fun _ h =>
  canon_ite h (canon_ite (keeps_slSend (keeps_fabricInterval (keeps_slSet h))) (keeps_slSet (keeps_fabricInterval
    (keeps_slSet h))))

theorem keeps_timeDiscard : Keeps timeDiscard := fun _ h => keeps_slSet h

theorem keeps_shTake {a t} : Keeps (shTake a t) := fun _ h => keeps_wr64 (keeps_wr64 (keeps_slSet h))

theorem keeps_timeReceiveH : Keeps timeReceiveH := fun _ h => by
  unfold timeReceiveH
  extract_lets
  split
  · exact canon_when (keeps_shTake (keeps_slSet (canon_mk (keeps_dropH (canon_ite h (keeps_pull h)))))) fun h1 =>
      keeps_slSend (canon_ite (keeps_incFld h1) h1)
  · exact canon_ite h (keeps_pull h)

theorem keeps_timeReceiveF : Keeps timeReceiveF := fun _ h => by
  unfold timeReceiveF
  extract_lets
  split
  · exact keeps_fabricAnswer (keeps_dropF (canon_ite h (keeps_pull h)))
  · exact canon_ite h (keeps_pull h)

theorem keeps_shAdvance {m} : Keeps (shAdvance m) := fun _ h => keeps_wr64 (keeps_wr64 (keeps_slSet h))

/-! ## Fabric -/

theorem keeps_ethLinkUp {m} : Keeps (ethLinkUp m) := fun _ h =>
  canon_ite (canon_unless (keeps_setFlag h) fun h1 => keeps_setPost h1) h

theorem keeps_ethLinkDown {m} : Keeps (ethLinkDown m) := fun _ h =>
  canon_ite (keeps_post (keeps_setFlag (keeps_setFlag h))) h

theorem keeps_ethReceive {m k len fcsOk} : Keeps (ethReceive m k len fcsOk) := fun _ h =>
  canon_ite h (canon_ite (keeps_incFld h) (keeps_incFld h))

theorem keeps_ethSend {dst bs} : Keeps (ethSend dst bs) := fun _ h => canon_ite (keeps_emit (keeps_incFld h)) h

theorem keeps_servo {off} : Keeps (servo off) := fun _ h =>
  canon_ite (canon_when (canon_mk (keeps_setFld h)) fun h1 => keeps_post (keeps_setFlag h1)) (canon_when (canon_mk
    (keeps_setFld h)) fun h1 => keeps_setPost h1)

theorem keeps_ptpReceive {m domain off} : Keeps (ptpReceive m domain off) := fun _ h => by
  refine canon_ite h ?_
  split
  · exact canon_when (keeps_incFld h) fun h1 => keeps_servo h1
  · exact keeps_incFld h

theorem keeps_ptStep {ns} : Keeps (ptStep ns) := fun _ h => canon_mk h

theorem keeps_ptpAdvance {m} : Keeps (ptpAdvance m) := fun _ h => canon_mk h

theorem keeps_fabSet {f} : Keeps (·.fabSet f) := fun _ h => canon_mk h

theorem keeps_storePlan {p} : Keeps (storePlan p) := fun _ h => keeps_fabSet h

theorem keeps_planSend : Keeps planSend := fun _ h => canon_ite h (canon_ite (keeps_storePlan h) (keeps_ethSend h))

theorem keeps_memberCheck {now} : Keeps (memberCheck now) := fun _ h =>
  keeps_fabSet (canon_foldl (fun _ _ h1 => keeps_post h1) h)

theorem keeps_aggregateSend : Keeps aggregateSend := fun _ h =>
  canon_ite h (canon_ite (keeps_storePlan (keeps_memberCheck h)) (keeps_ethSend (keeps_memberCheck h)))

theorem keeps_inboxSend {r a} : Keeps (inboxSend r a) := fun _ h => keeps_slSend (keeps_fabSet (keeps_setFld h))

theorem keeps_allocTake {al} : Keeps (allocTake al) := fun _ h => by
  unfold allocTake
  exact keeps_inboxSend (canon_when (keeps_fabSet (keeps_setFld h)) fun h1 => keeps_ethSend h1)

theorem keeps_allocSend : Keeps allocSend := fun _ h =>
  canon_ite h (keeps_allocTake (canon_foldl (fun _ _ h1 => keeps_ethSend h1) h))

theorem keeps_hgDrop : Keeps hgDrop := fun _ h => keeps_incFld h

theorem keeps_planReceive {h tot mem addr} : Keeps (planReceive h tot mem addr) := fun _ h =>
  canon_ite h (canon_unless (keeps_hgDrop h) fun h1 => canon_ite (canon_ite h1 (keeps_storePlan h)) (canon_ite
    (canon_ite h1 (keeps_storePlan h)) h1))

theorem keeps_allocReceive {h from' scale mem} : Keeps (allocReceive h from' scale mem) := fun _ h =>
  canon_ite h (canon_ite (keeps_hgDrop h) (keeps_allocTake h))

theorem keeps_roundStart : Keeps roundStart := fun _ h =>
  canon_ite h (keeps_post (canon_ite h (keeps_post (keeps_inboxSend (keeps_incFld h)))))

/-! ## Rake -/

theorem keeps_rkSet {f} : Keeps (·.rkSet f) := fun _ h => canon_mk h

theorem keeps_setPort {n p} : Keeps (·.setPort n p) := fun _ h => canon_mk h

theorem keeps_safeHold {cause subj tag tick} : Keeps (safeHold cause subj tag tick) := fun _ h => keeps_postEvent h

theorem keeps_addHold {h tag} : Keeps (addHold h tag) := fun _ h => keeps_safeHold (keeps_rkSet h)

theorem keeps_endHolds {p t} : Keeps (endHolds p t) := fun _ h => keeps_rkSet h

theorem keeps_latchTrip {e p} : Keeps (latchTrip e p) := fun _ h => by
  unfold latchTrip
  extract_lets
  split
  · exact keeps_rkSet h
  · exact keeps_rkSet h
  · exact keeps_rkSet h
  · exact h

theorem keeps_orFree {o} : Keeps fun s => (orFree o s).2 := fun _ h => by
  unfold orFree
  split
  · exact h
  · exact keeps_stepFree h

theorem keeps_newTrip {e i l v} : Keeps (newTrip e i l v) := fun _ h =>
  canon_unless (keeps_wr (keeps_wr (keeps_incFld (keeps_orFree (keeps_orFree h))))) fun h1 => canon_ite (keeps_incFld
    h1) (keeps_postEvent (keeps_rkSet h1))

theorem keeps_judgeRule {i v} : Keeps (judgeRule i v) := fun _ h =>
  canon_ite h (canon_when (canon_when (keeps_rkSet h) fun h1 => keeps_latchTrip h1) fun h1 => keeps_newTrip h1)

theorem keeps_judgePort {n v lat} : Keeps (judgePort n v lat) := fun _ h =>
  canon_unless (canon_ite h (canon_foldl (fun _ _ h1 => keeps_judgeRule h1) h)) fun h1 => canon_unless (keeps_setFld
    h1) fun h2 => canon_unless (keeps_setPost h2) fun h3 => keeps_addHold h3

theorem keeps_rkSwap : Keeps rkSwap := fun _ h => keeps_post (keeps_rkSet (keeps_setFlag (keeps_setFld h)))

theorem keeps_rkUnlatch : Keeps rkUnlatch := fun _ h => canon_ite (keeps_rkSet h) (keeps_rkSet h)

theorem keeps_phaseHold {cause p bad} : Keeps (phaseHold cause p bad) := fun _ h =>
  canon_ite (keeps_addHold h) (canon_ite (keeps_endHolds h) h)

theorem keeps_dynRead : Keeps dynRead := fun _ h => by
  unfold dynRead
  exact keeps_rkSet (canon_when (keeps_salReadFx h) fun h1 => keeps_setFlag h1)

theorem keeps_dynCheck : Keeps dynCheck := fun _ h => canon_foldl (fun _ _ h1 => keeps_phaseHold h1) (keeps_rkSet h)

theorem keeps_entryCheck : Keeps entryCheck := fun _ h =>
  canon_foldl (fun _ _ h1 => keeps_phaseHold (canon_ite (keeps_setPost h1) h1)) h

theorem keeps_rkBoundary : Keeps rkBoundary := fun _ h =>
  keeps_entryCheck (keeps_dynCheck (canon_when (canon_when (keeps_rkUnlatch (keeps_rkSet h)) fun h1 => keeps_rkSwap h1)
    fun h1 => keeps_dynRead h1))

theorem keeps_rkUpset {u} : Keeps (rkUpset u) := fun _ h => canon_ite (canon_ite (keeps_rkSet h) h) (keeps_rkSet h)

theorem keeps_rkUpsets {us} : Keeps (rkUpsets us) := fun _ h =>
  canon_ite h (keeps_entryCheck (canon_foldl (fun _ _ h1 => keeps_rkUpset h1) h))

theorem keeps_rkRefuse : Keeps rkRefuse := fun _ h => keeps_setPost h

theorem keeps_rkEnWrite {on} : Keeps (rkEnWrite on) := fun _ h => canon_ite (keeps_rkRefuse h) (keeps_setFlag h)

theorem keeps_rkUnlatchReq {p} : Keeps (rkUnlatchReq p) := fun _ h => keeps_rkSet h

theorem keeps_rkMaxClr : Keeps rkMaxClr := fun _ h => keeps_rkSet (keeps_setFld h)

theorem keeps_rkSwapReq : Keeps rkSwapReq := fun _ h => canon_ite (keeps_rkRefuse h) (keeps_rkSet (keeps_setFlag h))

theorem keeps_rkWselWrite {v} : Keeps (rkWselWrite v) := fun _ h => canon_ite (keeps_rkRefuse h) (keeps_plainWrite h)

theorem keeps_rkWdataWrite {i v} : Keeps (rkWdataWrite i v) := fun _ h =>
  canon_ite (keeps_rkRefuse h) (canon_ite h (canon_unless (keeps_rkSet h) fun h1 => canon_ite (keeps_rkRefuse h1)
    (canon_when (canon_ite (keeps_rkSet h1) (keeps_rkSet h1)) fun h2 => keeps_setPost h2)))

theorem keeps_rkTestGo : Keeps rkTestGo := fun _ h => canon_ite (keeps_rkRefuse h) (keeps_rkSet (keeps_setFlag h))

/-! ## Context -/

theorem keeps_crySet {f} : Keeps (·.crySet f) := fun _ h => canon_mk h

theorem keeps_setCtx {n c} : Keeps (·.setCtx n c) := fun _ h => keeps_setFld (keeps_crySet h)

theorem keeps_ctxHold {cause n d first stop} : Keeps (ctxHold cause n d first stop) := fun _ h => keeps_addHold h

theorem keeps_suspHold {n t} : Keeps (suspHold n t) := fun _ h => keeps_ctxHold h

theorem keeps_suspEnd {n} : Keeps (suspEnd n) := fun _ h => keeps_endHolds h

theorem keeps_ctxRelease {n} : Keeps (ctxRelease n) := fun _ h => keeps_setCtx (keeps_suspEnd h)

theorem keeps_ctxEcc {n} : Keeps (ctxEcc n) := fun _ h => by
  unfold ctxEcc
  extract_lets
  split
  · exact h
  · exact keeps_suspHold (keeps_post (keeps_setCtx h))

/-! ## Tally -/

theorem keeps_tjSet {f} : Keeps (·.tjSet f) := fun _ h => canon_mk h

theorem keeps_setInfo {i x} : Keeps (·.setInfo i x) := fun _ h => keeps_tjSet h

theorem keeps_jCount {n} : Keeps (jCount n) := fun _ h =>
  canon_ite (keeps_setPost (keeps_setFld h)) (keeps_setFlag (keeps_setFld h))

theorem keeps_journalCommit : Keeps journalCommit := fun _ h => by
  unfold journalCommit
  extract_lets
  split
  · refine canon_unless (canon_ite h (keeps_pull h)) fun h1 => ?_
    split
    · exact h1
    · exact keeps_jCount (keeps_tjSet (keeps_dropF h1))
  · exact canon_ite h (keeps_pull h)

theorem keeps_commitDone {w} : Keeps (commitDone w) := fun _ h =>
  keeps_slSend (keeps_tjSet (keeps_setInfo (keeps_mramWrite h)))

theorem keeps_jMark {i st state} : Keeps (jMark i st state) := fun _ h => keeps_mramWrite h

theorem keeps_markDone {w} : Keeps (markDone w) := fun _ h => canon_when (keeps_jMark h) fun h1 => keeps_setFld h1

theorem keeps_writeDone {w} : Keeps (writeDone w) := fun _ h =>
  canon_ite (keeps_markDone (keeps_tjSet h)) (keeps_commitDone (keeps_tjSet h))

theorem keeps_journalWriteComplete {i} : Keeps (journalWriteComplete i) := fun _ h => by
  unfold journalWriteComplete
  split
  · exact keeps_writeDone h
  · exact h

theorem keeps_settle {i st angle tick} : Keeps (settle i st angle tick) := fun _ h =>
  keeps_slSend (keeps_tjSet (keeps_setInfo h))

theorem keeps_expire {i} : Keeps (expire i) := fun _ h => canon_ite (keeps_settle (keeps_incFld h)) h

theorem keeps_tallyBoundary {b} : Keeps (tallyBoundary b) := fun _ h =>
  canon_foldl (fun _ _ h1 => keeps_expire h1) (canon_foldl (fun _ _ h1 => keeps_setInfo h1) h)

theorem keeps_noticeReceive : Keeps noticeReceive := fun _ h => by
  unfold noticeReceive
  extract_lets
  split
  · exact keeps_setInfo (keeps_dropF (canon_ite h (keeps_pull h)))
  · exact canon_ite h (keeps_pull h)

theorem keeps_acceptTimeout {i} : Keeps (acceptTimeout i) := fun _ h => canon_ite (keeps_setInfo h) h

theorem keeps_refuseOne {t i} : Keeps (refuseOne t i) := fun _ h =>
  canon_ite h (canon_when (keeps_setInfo h) fun h1 => keeps_post (keeps_settle h1))

theorem keeps_refuseAll {t} : Keeps (refuseAll t) := fun _ h => canon_foldl (fun _ _ h1 => keeps_refuseOne h1) h

theorem keeps_mailbox {d ids} : Keeps (mailbox d ids) := fun _ h =>
  keeps_salWrite (keeps_portTouch (canon_foldl (fun _ _ h1 => keeps_settle h1) h))

theorem keeps_journalRelease : Keeps journalRelease := fun _ h => by
  unfold journalRelease
  extract_lets
  split
  · exact canon_unless (canon_ite h (keeps_pull h)) fun h1 => canon_when (keeps_dropF h1) fun h2 => keeps_jCount
      (keeps_setInfo (keeps_jMark h2))
  · exact canon_ite h (keeps_pull h)

theorem keeps_jUe {i} : Keeps (jUe i) := fun _ h => keeps_post (keeps_setFld h)

theorem keeps_tjRefuse : Keeps tjRefuse := fun _ h => keeps_setFlag h

theorem keeps_replayEntry {i} : Keeps (replayEntry i) := fun _ h =>
  canon_ite h (canon_ite (keeps_jUe h) (canon_ite h (canon_when (keeps_tjSet (keeps_setInfo h)) fun h1 => keeps_settle
    (keeps_incFld h1))))

theorem keeps_replay : Keeps replay := fun _ h =>
  canon_ite (keeps_tjRefuse h) (canon_foldl (fun _ _ h1 => keeps_replayEntry h1) (keeps_tjSet (keeps_setFlag h)))

theorem keeps_replayDone : Keeps replayDone := fun _ h =>
  canon_ite (keeps_post (keeps_setFlag (keeps_setFlag (keeps_setFlag h)))) h

theorem keeps_tjRelease : Keeps tjRelease := fun _ h =>
  canon_ite (keeps_tjRefuse h) (canon_ite h (canon_foldl (fun _ _ h1 => canon_ite (keeps_setInfo h1) h1) (keeps_tjSet
    (keeps_setFlag h))))

theorem keeps_holdFrame {n d m} : Keeps (holdFrame n d m) := fun _ h => canon_ite (keeps_rkSet h) (keeps_ctxHold h)

theorem keeps_markClose {m} : Keeps (markClose m) := fun _ h =>
  canon_unless (keeps_tjSet h) fun h1 => keeps_post (canon_foldl (fun _ _ h2 => keeps_holdFrame h2) (keeps_incFld h1))

/-! ## Crystallizer -/

theorem keeps_admissionReads {d f} : Keeps (admissionReads d f) := fun _ h =>
  canon_ite h (canon_unless (canon_ite (keeps_tagReadFx (keeps_salReadFx h)) h) fun h1 => canon_foldl (fun _ _ h2 =>
    canon_ite (keeps_salReadFx h2) h2) (canon_ite (keeps_tagReadFx (keeps_salReadFx h1)) h1))

theorem keeps_opStart {op n} : Keeps (opStart op n) := fun _ h =>
  canon_ite (keeps_setFlag h) (canon_ite h (keeps_crySet (keeps_setFlag h)))

theorem keeps_opAdmit {n} : Keeps (opAdmit n) := fun _ h => keeps_opStart h

theorem keeps_opProbe {n} : Keeps (opProbe n) := fun _ h => keeps_opStart h

theorem keeps_opRemove {n} : Keeps (opRemove n) := fun _ h => keeps_opStart h

theorem keeps_opReplace {n} : Keeps (opReplace n) := fun _ h => keeps_opStart h

theorem keeps_opSuspend {n} : Keeps (opSuspend n) := fun _ h => keeps_opStart h

theorem keeps_opResume {n} : Keeps (opResume n) := fun _ h => keeps_opStart h

theorem keeps_opRead {n} : Keeps (opRead n) := fun _ h => keeps_opStart h

theorem keeps_opSetcore : Keeps opSetcore := fun _ h => keeps_opStart h

theorem keeps_cryOpWrite {v} : Keeps (cryOpWrite v) := fun _ h => by
  unfold cryOpWrite
  split
  · exact keeps_opAdmit h
  · exact keeps_opProbe h
  · exact keeps_opRemove h
  · exact keeps_opReplace h
  · exact keeps_opSuspend h
  · exact keeps_opResume h
  · exact keeps_opRead h
  · exact keeps_opSetcore h
  · exact canon_ite (keeps_setFlag h) h

theorem keeps_cryRecord {bit sev n cause tag tick} : Keeps (cryRecord bit sev n cause tag tick) := fun _ h =>
  keeps_postEvent h

theorem keeps_opFail {f} : Keeps fun s => (opFail f s).2 := fun _ h => h

theorem keeps_opOk {res2 effect} : Keeps fun s => (opOk res2 effect s).2 := fun _ h => h

theorem keeps_admitNow {n d} : Keeps fun s => (admitNow n d s).2 := fun _ h => by
  simp only [admitNow]
  split
  · exact keeps_opFail h
  · split
    · exact keeps_opFail (keeps_admissionReads h)
    · exact keeps_opOk (keeps_setCtx (keeps_admissionReads h))

theorem keeps_probeNow {n d} : Keeps fun s => (probeNow n d s).2 := fun _ h => by
  simp only [probeNow]
  split
  · exact keeps_opFail h
  · split
    · exact keeps_opFail (keeps_admissionReads h)
    · exact keeps_opOk (keeps_admissionReads h)

theorem keeps_removeNow {n} : Keeps fun s => (removeNow n s).2 := fun _ h => by
  simp only [removeNow]
  split
  · exact keeps_opFail h
  · exact keeps_opOk (keeps_setCtx h)

theorem keeps_replaceNow {n d} : Keeps fun s => (replaceNow n d s).2 := fun _ h => by
  simp only [replaceNow]
  split
  · exact keeps_opFail h
  · split
    · exact keeps_opFail (keeps_admissionReads h)
    · exact keeps_opOk (keeps_setCtx (keeps_admissionReads h))

theorem keeps_suspendOp {n} : Keeps fun s => (suspendOp n s).2 := fun _ h => by
  simp only [suspendOp]
  split
  · exact keeps_opFail h
  · exact keeps_opOk (keeps_suspHold (keeps_cryRecord (keeps_setCtx h)))

theorem keeps_resumeNow {n} : Keeps fun s => (resumeNow n s).2 := fun _ h => by
  simp only [resumeNow]
  split
  · exact keeps_opFail h
  · exact keeps_opOk (keeps_suspEnd (keeps_setCtx h))

theorem keeps_readDesc {n} : Keeps (readDesc n) := fun _ h =>
  canon_ite (canon_foldl (fun _ _ h1 => keeps_stepFree (keeps_wr h1)) h) (canon_foldl (fun _ _ h1 => keeps_wr h1) h)

theorem keeps_readNow {n} : Keeps fun s => (readNow n s).2 := fun _ h => by
  simp only [readNow]
  split
  · exact keeps_opFail h
  · exact keeps_opOk (keeps_readDesc h)

theorem keeps_setcoreNow {d} : Keeps fun s => (setcoreNow d s).2 := fun _ h => by
  simp only [setcoreNow]
  split
  · exact keeps_opFail h
  · split
    · exact keeps_opFail h
    · exact keeps_opOk (keeps_wr (keeps_wr h))

theorem keeps_opPerform {r} : Keeps fun s => (opPerform r s).2 := fun _ h => by
  unfold opPerform
  split
  · exact keeps_admitNow h
  · exact keeps_probeNow h
  · exact keeps_removeNow h
  · exact keeps_replaceNow h
  · exact keeps_suspendOp h
  · exact keeps_resumeNow h
  · exact keeps_readNow h
  · exact keeps_setcoreNow h

theorem keeps_opDone : Keeps opDone := fun _ h => by
  unfold opDone
  split
  · exact h
  · exact canon_ite h (keeps_post (keeps_crySet (keeps_setFlag (keeps_wr64 (keeps_wr (keeps_wr (keeps_opPerform h)))))))

theorem keeps_setLaunch {x} : Keeps (·.setLaunch x) := fun _ h => keeps_crySet h

theorem keeps_drainEnd {n tick} : Keeps (drainEnd n tick) := fun _ h => by
  unfold drainEnd
  extract_lets
  split
  · exact canon_ite (keeps_ctxRelease h) h
  · exact h

theorem keeps_launchCheck {n tick} : Keeps (launchCheck n tick) := fun _ h => by
  unfold launchCheck
  split
  · exact h
  · exact canon_ite (canon_unless (keeps_crySet h) fun h1 => keeps_drainEnd (keeps_setCtx (keeps_endHolds h1))) h

theorem keeps_suspendNow {n cause tick} : Keeps (suspendNow n cause tick) := fun _ h =>
  keeps_suspHold (keeps_cryRecord (keeps_setCtx h))

theorem keeps_dropQueued {n tick} : Keeps (dropQueued n tick) := fun _ h => canon_mk h

theorem keeps_abandon {n tick cause} : Keeps (abandon n tick cause) := fun _ h => by
  unfold abandon
  split
  · exact h
  · exact canon_ite (keeps_launchCheck (keeps_dropQueued (keeps_setLaunch h))) (keeps_drainEnd (keeps_launchCheck
      (canon_when (keeps_setCtx (keeps_ctxHold (keeps_incFld (canon_when (keeps_cryRecord (keeps_dropQueued
      (keeps_setLaunch h))) fun h1 => keeps_cryRecord h1)))) fun h1 => keeps_suspendNow h1)))

theorem keeps_orderEnd {n tick} : Keeps (orderEnd n tick) := fun _ h => by
  unfold orderEnd
  split
  · exact keeps_launchCheck (keeps_setLaunch h)
  · exact h

theorem keeps_taskEnd {n tick} : Keeps (taskEnd n tick) := fun _ h => by
  unfold taskEnd
  split
  · exact keeps_launchCheck (keeps_setLaunch h)
  · exact h

theorem keeps_signalTasks {core ts} : Keeps (signalTasks core ts) := fun _ h => canon_ite h (keeps_setCore h)

theorem keeps_signalAll {t late} : Keeps (signalAll t late) := fun _ h =>
  canon_foldl (fun _ _ h1 => keeps_signalTasks h1) h

theorem keeps_mailboxes {t} : Keeps (mailboxes t) := fun _ h =>
  canon_foldl (fun _ _ h1 => canon_ite h1 (keeps_mailbox h1)) (canon_foldl (fun _ _ h1 => canon_ite h1 (keeps_mailbox
    h1)) h)

theorem keeps_startLaunches {t} : Keeps (startLaunches t) := fun _ h => keeps_tjSet (keeps_crySet h)

theorem keeps_deadlines {t} : Keeps (deadlines t) := fun _ h => canon_foldl (fun _ _ h1 => keeps_abandon h1) h

theorem keeps_eccFound {bad} : Keeps (eccFound bad) := fun _ h =>
  canon_foldl (fun _ _ h1 => canon_ite (keeps_ctxEcc h1) h1) h

theorem keeps_launchPoint {bad} : Keeps (launchPoint bad) := fun _ h =>
  canon_ite h (canon_ite (canon_when (keeps_crySet (keeps_tbSet h)) fun h1 => canon_foldl (fun _ _ h2 => keeps_ctxHold
    h2) h1) (canon_unless (keeps_refuseAll (keeps_deadlines (keeps_eccFound (keeps_crySet (keeps_tbSet h))))) fun h1 =>
    canon_foldl (fun _ _ h2 => keeps_launchCheck h2) (keeps_signalAll (keeps_startLaunches (keeps_mailboxes h1)))))

theorem keeps_panDonePoint : Keeps panDonePoint := fun _ h => canon_ite (keeps_crySet (keeps_signalAll h)) h

theorem keeps_takeOver {n x} : Keeps (takeOver n x) := fun _ h => keeps_rkSet (keeps_setCtx h)

theorem keeps_contextRelease {n} : Keeps (contextRelease n) := fun _ h => canon_ite (keeps_ctxRelease h) h

theorem keeps_ctxBoundary {n} : Keeps (ctxBoundary n) := fun _ h =>
  keeps_contextRelease (canon_foldl (fun _ _ h1 => keeps_takeOver h1) h)

theorem keeps_cryBoundary : Keeps cryBoundary := fun _ h =>
  canon_ite h (canon_foldl (fun _ _ h1 => keeps_ctxBoundary h1) h)

theorem keeps_cryEnWrite {on} : Keeps (cryEnWrite on) := fun _ h => canon_ite (keeps_setFlag h) (keeps_setFlag h)

theorem keeps_ttDataWrite {i v} : Keeps (ttDataWrite i v) := fun _ h =>
  canon_ite (keeps_setFlag h) (canon_unless (keeps_crySet h) fun h1 => keeps_setFlag (keeps_crySet h1))

theorem keeps_ttCtrlWrite {go} : Keeps (ttCtrlWrite go) := fun _ h =>
  canon_ite (keeps_setFlag h) (canon_ite h (canon_ite (keeps_setFlag (keeps_setFlag (keeps_setFld h))) (keeps_setPost
    (keeps_setFlag h))))

theorem keeps_ttCommit : Keeps ttCommit := fun _ h => keeps_ttCtrlWrite h

/-! ## CoreOps -/

theorem keeps_mapCore {n f} : Keeps (·.mapCore n f) := fun _ h => keeps_setCore h

theorem keeps_exPost {n bit sev detail} : Keeps (exPost n bit sev detail) := fun _ h => canon_ite (keeps_post h) h

theorem keeps_exCount {n} : Keeps (exCount n) := fun _ h => canon_ite (keeps_incFld h) h

theorem keeps_maxSpan {n span} : Keeps (maxSpan n span) := fun _ h => canon_ite (keeps_setFld h) h

/-! ## Brine -/

theorem keeps_setLane {n l x} : Keeps (·.setLane n l x) := fun _ h => canon_mk h

theorem keeps_laneTo {n l st} : Keeps (laneTo n l st) := fun _ h =>
  canon_when (canon_when (canon_when (canon_when (keeps_setFlag (keeps_setFld h)) fun h1 => keeps_post h1) fun h1 =>
    keeps_post h1) fun h1 => keeps_post h1) fun h1 => keeps_post h1

theorem keeps_laneLock {n l} : Keeps (laneLock n l) := fun _ h =>
  keeps_laneTo (keeps_setLane (canon_ite (keeps_incFld h) h))

theorem keeps_laneFall {n l cause} : Keeps (laneFall n l cause) := fun _ h =>
  keeps_laneTo (keeps_setLane (keeps_setFld h))

theorem keeps_laneEnter {n l st} : Keeps (laneEnter n l st) := fun _ h => keeps_laneTo (keeps_setLane h)

theorem keeps_laneRest {n l} : Keeps (laneRest n l) := fun _ h => keeps_setLane (keeps_laneTo h)

theorem keeps_linkEnWrite {n on} : Keeps (linkEnWrite n on) := fun _ h =>
  canon_ite h (canon_when (keeps_laneRest (keeps_laneRest (keeps_setFlag h))) fun h1 => keeps_setFld h1)

theorem keeps_laneSignal {n l} : Keeps (laneSignal n l) := fun _ h => canon_ite (keeps_laneLock h) h

theorem keeps_laneTrain {n l} : Keeps (laneTrain n l) := fun _ h => canon_ite (keeps_laneEnter h) h

theorem keeps_trainSend {n l} : Keeps (trainSend n l) := fun _ h => canon_ite (keeps_setLane (keeps_emit h)) h

theorem keeps_trainAnswer {n l rtd portLane stamp} : Keeps (trainAnswer n l rtd portLane stamp) := fun _ h =>
  canon_unless (keeps_trainSend h) fun h1 => canon_when (keeps_setLane h1) fun h2 => keeps_setFld h2

theorem keeps_laneTrained {n l} : Keeps (laneTrained n l) := fun _ h =>
  canon_unless (keeps_trainSend h) fun h1 => canon_ite (keeps_laneFall h1) (canon_ite (keeps_laneEnter h1) h1)

theorem keeps_trainTimeout {n l} : Keeps (trainTimeout n l) := fun _ h =>
  canon_when (keeps_trainSend h) fun h1 => keeps_laneFall h1

theorem keeps_rxCount {n l f} : Keeps (rxCount n l f) := fun _ h => keeps_addFld (canon_ite h (keeps_incFld h))

theorem keeps_identFrame {n l f} : Keeps (identFrame n l f) := fun _ h =>
  canon_ite h (canon_ite (canon_ite (canon_ite (keeps_laneEnter (keeps_rxCount h)) (keeps_post (keeps_laneFall
    (keeps_rxCount h)))) (keeps_laneEnter (canon_foldl (fun _ _ h1 => keeps_wr h1) (keeps_rxCount h)))) (keeps_setLane
    (keeps_rxCount h)))

theorem keeps_identBad {n l} : Keeps (identBad n l) := fun _ h => canon_ite (keeps_laneFall h) h

theorem keeps_laneLoss {n l} : Keeps (laneLoss n l) := fun _ h => canon_ite (keeps_laneFall h) h

theorem keeps_laneViolations {n l cv} : Keeps (laneViolations n l cv) := fun _ h =>
  canon_when (keeps_addFld h) fun h1 => keeps_laneFall h1

theorem keeps_laneFramesLost {n l} : Keeps (laneFramesLost n l) := fun _ h => canon_ite (keeps_laneFall h) h

theorem keeps_laneRetry {n l} : Keeps (laneRetry n l) := fun _ h => by
  unfold laneRetry
  split
  · exact canon_ite (keeps_laneLock h) h
  · exact h

theorem keeps_laneRetrain {n l} : Keeps (laneRetrain n l) := fun _ h => canon_ite (keeps_laneLock (keeps_laneTo h)) h

theorem keeps_reident {n} : Keeps (reident n) := fun _ h =>
  canon_foldl (fun _ _ h1 => canon_ite (keeps_laneEnter h1) h1) h

theorem keeps_laneModeApply {n} : Keeps (laneModeApply n) := fun _ h =>
  canon_foldl (fun _ _ h1 => canon_unless (keeps_laneRest h1) fun h2 => canon_ite h2 h1) h

theorem keeps_blCtrlWrite {n v} : Keeps (blCtrlWrite n v) := fun _ h =>
  canon_when (canon_when (canon_when (keeps_laneModeApply (keeps_plainWrite h)) fun h1 => keeps_laneRetrain h1) fun h1
    => keeps_laneRetrain h1) fun h1 => keeps_reident h1

theorem keeps_tickSend {n} : Keeps (tickSend n) := fun _ h =>
  canon_ite (canon_foldl (fun _ _ h1 => canon_ite (keeps_emit h1) h1) h) h

theorem keeps_heldUpdate {n} : Keeps (heldUpdate n) := fun _ h =>
  canon_ite (keeps_post (keeps_setFlag h)) (canon_when (keeps_setFlag h) fun h1 => keeps_post h1)

theorem keeps_leaseWrite {n v} : Keeps (leaseWrite n v) := fun _ h =>
  canon_ite (keeps_post (keeps_incFld (keeps_heldUpdate (keeps_plainWrite h)))) (canon_when (keeps_heldUpdate
    (keeps_plainWrite h)) fun h1 => keeps_setPort h1)

theorem keeps_land {n bs} : Keeps (land n bs) := fun _ h => canon_ite h (keeps_salWrite (keeps_portTouch h))

theorem keeps_laneMisses {n va vb} : Keeps (laneMisses n va vb) := fun _ h =>
  canon_when (canon_ite (keeps_setLane h) h) fun h1 => keeps_setLane h1

theorem keeps_sampleStatus {n fr old} : Keeps (sampleStatus n fr old) := fun _ h =>
  canon_when (keeps_setFlag (keeps_heldUpdate (canon_when (canon_when (canon_ite (keeps_post h) h) fun h1 => keeps_post
    h1) fun h1 => keeps_post h1))) fun h1 => keeps_post h1

theorem keeps_gridFeed {n fr} : Keeps (gridFeed n fr) := fun _ h => canon_ite (keeps_gridSample h) h

theorem keeps_laneCount {n l f} : Keeps (laneCount n l f) := fun _ h => by
  unfold laneCount
  split
  · exact canon_ite (keeps_rxCount h) h
  · exact h

theorem keeps_sampleReceive {n a b lat} : Keeps (sampleReceive n a b lat) := fun _ h => by
  unfold sampleReceive
  refine canon_ite h ?_
  extract_lets va vb err t
  have ht : Canon t := keeps_laneCount (keeps_laneCount h)
  split
  · exact keeps_setPort ht
  · refine keeps_gridFeed (keeps_judgePort (keeps_sampleStatus (canon_when ?_ fun h1 => keeps_post h1)))
    exact keeps_setPort (keeps_setFld (keeps_setFld (keeps_wr64 (keeps_setFld (keeps_wr (keeps_land (keeps_laneMisses ht)))))))

theorem keeps_landNoFrame {n lat} : Keeps (landNoFrame n lat) := fun _ h =>
  canon_ite h (keeps_judgePort (canon_when (keeps_setPort (keeps_incFld (keeps_incFld (keeps_wr (keeps_land
    (keeps_laneMisses h)))))) fun h1 => keeps_post h1))

theorem keeps_portLatch {n} : Keeps (portLatch n) := fun _ h =>
  canon_ite h (canon_when (keeps_setPort (keeps_salReadFx h)) fun h1 => keeps_addHold h1)

theorem keeps_areaClose : Keeps areaClose := fun _ h =>
  canon_ite h (canon_foldl (fun _ _ h1 => keeps_portLatch h1) (keeps_markClose (canon_mk h)))

theorem keeps_leaseSent {n} : Keeps (leaseSent n) := fun _ h => canon_ite (keeps_setPort (keeps_setFlag h)) h

theorem keeps_frameSend {n} : Keeps (frameSend n) := fun _ h =>
  canon_ite h (keeps_setPort (keeps_leaseSent (canon_when (canon_foldl (fun _ _ h1 => canon_ite (keeps_emit h1)
    (canon_ite (keeps_emit h1) h1)) h) fun h1 => keeps_stepFree h1)))

theorem keeps_withBlocks {n blocks} : Keeps (withBlocks n blocks) := fun _ h => canon_mk h

theorem keeps_reblock {n late} : Keeps (reblock n late) := fun _ h => canon_ite h (keeps_setPort (keeps_withBlocks h))

theorem keeps_reframe {ns} : Keeps (reframe ns) := fun _ h =>
  canon_ite (canon_foldl (fun _ _ h1 => keeps_reblock h1) h) h

theorem keeps_emRecognise : Keeps emRecognise := fun _ h =>
  canon_foldl (fun _ _ h1 => keeps_reblock h1) (keeps_postEventAt (keeps_setFlag (keeps_setFlag h)))

theorem keeps_emFall : Keeps emFall := fun _ h => canon_ite (keeps_setFlag h) (keeps_emRecognise h)

theorem keeps_emRise : Keeps emRise := fun _ h => keeps_setFlag h

theorem keeps_rkEclr : Keeps rkEclr := fun _ h =>
  canon_ite (keeps_rkRefuse h) (canon_ite (keeps_reframe (keeps_post (keeps_setFlag h))) h)

theorem keeps_rkTestDone : Keeps rkTestDone := fun _ h => by
  unfold rkTestDone
  split
  · exact h
  · exact keeps_post (keeps_rkSet (keeps_setFlag (canon_unless (canon_foldl (fun _ _ h1 => keeps_wr h1) h) fun h1 =>
      canon_ite (keeps_reblock (keeps_setPort h1)) (keeps_setPort h1))))

theorem keeps_leaseOpWrite {n lop epoch} : Keeps (leaseOpWrite n lop epoch) := fun _ h => keeps_leaseWrite h

/-! ## Duplex -/

theorem keeps_dupSet {f} : Keeps (·.dupSet f) := fun _ h => canon_mk h

theorem keeps_plDown : Keeps plDown := fun _ h => keeps_dupSet (keeps_setFld h)

theorem keeps_plSignal : Keeps plSignal := fun _ h => canon_ite (keeps_setFld h) h

theorem keeps_plLock : Keeps plLock := fun _ h => canon_ite (keeps_setFld h) h

theorem keeps_plMeasure {rt} : Keeps (plMeasure rt) := fun _ h =>
  canon_ite h (canon_ite (keeps_setFld (keeps_setFld h)) (keeps_plDown (keeps_setFld h)))

theorem keeps_plFall : Keeps plFall := fun _ h => canon_ite (keeps_plDown h) h

theorem keeps_plRelock : Keeps plRelock := fun _ h => canon_ite (keeps_setFld h) h

theorem keeps_digestCheck : Keeps digestCheck := fun _ h =>
  canon_ite (canon_unless (keeps_dupSet h) fun h1 => canon_unless (keeps_incFld h1) fun h2 => keeps_post (keeps_dupSet
    h2)) h

theorem keeps_pairSend : Keeps pairSend := fun _ h => canon_ite (keeps_digestCheck (keeps_dupSet (keeps_emit h))) h

theorem keeps_pairJoin {bs} : Keeps (pairJoin bs) := fun _ h =>
  canon_ite h (keeps_dupSet (keeps_wr64 (keeps_angleSet h)))

theorem keeps_pairTime {bs sof} : Keeps (pairTime bs sof) := fun _ h =>
  canon_ite (canon_when (keeps_fabricMeasure (canon_ite (keeps_tbSet h) h)) fun h1 => keeps_post h1) h

theorem keeps_pairReceive {bs sof} : Keeps (pairReceive bs sof) := fun _ h =>
  canon_ite h (canon_unless (keeps_pairJoin h) fun h1 => keeps_digestCheck (keeps_pairTime (canon_when (keeps_setFld
    (keeps_dupSet h1)) fun h2 => keeps_post (keeps_setFld (keeps_setFlag h2)))))

theorem keeps_pairLost : Keeps pairLost := fun _ h =>
  canon_ite h (canon_ite (keeps_setFld (keeps_post (keeps_dupSet (keeps_wr64 (keeps_wr64 (keeps_setFlag h))))))
    (keeps_post (canon_foldl (fun _ _ h1 => keeps_setFlag h1) (keeps_setFld (keeps_post (keeps_dupSet (keeps_wr64
    (keeps_wr64 (keeps_setFlag h)))))))))

theorem keeps_pairMiss : Keeps pairMiss := fun _ h => canon_ite (keeps_dupSet (keeps_incFld h)) h

theorem keeps_plBoundary : Keeps plBoundary := fun _ h => keeps_wr64 h

theorem keeps_joinWrite : Keeps joinWrite := fun _ h => canon_ite h (keeps_dupSet h)

theorem keeps_commandClose : Keeps commandClose := fun _ h => keeps_areaClose (keeps_pairMiss h)

/-! ## Queue -/

theorem keeps_qeSet {f} : Keeps (·.qeSet f) := fun _ h => canon_mk h

theorem keeps_setQueue {q x} : Keeps (·.setQueue q x) := fun _ h => keeps_qeSet h

theorem keeps_msixEmit {v} : Keeps (msixEmit v) := fun _ h => keeps_emit h

theorem keeps_msixSend {v} : Keeps (msixSend v) := fun _ h => canon_ite (keeps_wr h) (keeps_msixEmit h)

theorem keeps_msixWrite {w x} : Keeps (msixWrite w x) := fun _ h =>
  canon_when (keeps_qeSet h) fun h1 => keeps_msixEmit (keeps_wr h1)

theorem keeps_recWrite {q w0 rest} : Keeps (recWrite q w0 rest) := fun _ h =>
  canon_when (keeps_setQueue (keeps_emit h)) fun h1 => keeps_msixSend h1

theorem keeps_cqRecord {q kind status rep c angle tick} : Keeps (cqRecord q kind status rep c angle tick) := fun _ h =>
  keeps_recWrite (keeps_setQueue h)

theorem keeps_setCmd {q c d} : Keeps (·.setCmd q c d) := fun _ h => keeps_setQueue h

theorem keeps_delCmd {q c} : Keeps (·.delCmd q c) := fun _ h => keeps_setQueue h

theorem keeps_postAccept {q c} : Keeps (postAccept q c) := fun _ h =>
  keeps_slSend (canon_unless (keeps_cqRecord (keeps_setCmd h)) fun h1 => keeps_wr64 h1)

theorem keeps_postComplete {q c st angle tick} : Keeps (postComplete q c st angle tick) := fun _ h =>
  keeps_cqRecord (keeps_setCmd h)

theorem keeps_postDuplicate {q c} : Keeps (postDuplicate q c) := fun _ h => keeps_cqRecord (keeps_delCmd h)

theorem keeps_postAll {q acc comp wait cs} : Keeps (postAll q acc comp wait cs) := fun s h => by
  induction cs generalizing acc comp wait s with
  | nil => exact h
  | cons c r ih =>
    unfold postAll
    split
    case h_1 => exact canon_ite (ih _ h) (ih _ (keeps_postDuplicate h))
    case h_2 =>
      refine canon_ite ?_ (ih _ h)
      extract_lets
      split
      · exact ih _ (keeps_postComplete (keeps_dropH (keeps_postAccept h)))
      · exact ih _ (keeps_postAccept h)
    case h_3 =>
      split
      · exact ih _ (keeps_postComplete (keeps_dropH h))
      · exact ih _ h
    case h_4 => exact ih _ h
    case h_5 => exact ih _ h

theorem keeps_eqRecord {q ty page sev die seq angle pay} : Keeps (eqRecord q ty page sev die seq angle pay) := fun _ h =>
  keeps_recWrite h

theorem keeps_overflowRecord {q} : Keeps (overflowRecord q) := fun _ h =>
  canon_ite h (keeps_eqRecord (keeps_setQueue h))

theorem keeps_qFlush {q} : Keeps (qFlush q) := fun _ h =>
  canon_ite h (canon_ite (keeps_postAll h) (canon_ite (keeps_overflowRecord h) h))

theorem keeps_qFlushAll : Keeps qFlushAll := fun _ h => canon_foldl (fun _ _ h1 => keeps_qFlush h1) h

theorem keeps_dbError {q} : Keeps (dbError q) := fun _ h => keeps_post (keeps_incFld h)

theorem keeps_releasePassed {q} : Keeps (releasePassed q) := fun _ h =>
  canon_foldl (fun _ _ h1 => keeps_qeSet (keeps_slSend (keeps_delCmd h1))) h

theorem keeps_doorbell {q v} : Keeps (doorbell q v) := fun _ h =>
  canon_ite (keeps_dbError h) (canon_when (canon_unless (canon_when (canon_ite (keeps_setQueue h) h) fun h1 =>
    keeps_qFlush (keeps_releasePassed (keeps_setQueue h1))) fun h1 => canon_ite (keeps_msixSend (keeps_setQueue h1))
    (keeps_setQueue h1)) fun h1 => keeps_dbError h1)

theorem keeps_doorbellBad : Keeps doorbellBad := fun _ h => keeps_incFld h

theorem keeps_takeTurn {q} : Keeps (takeTurn q) := fun _ h => keeps_qeSet h

theorem keeps_sqError {q code} : Keeps (sqError q code) := fun _ h => keeps_post (keeps_setQueue h)

theorem keeps_entryFetch {q e} : Keeps (entryFetch q e) := fun _ h =>
  canon_ite h (canon_ite (keeps_sqError (keeps_takeTurn h)) (canon_ite (keeps_setQueue (keeps_takeTurn h)) (canon_ite
    (keeps_qFlush (keeps_setQueue (keeps_takeTurn h))) (keeps_sqError (keeps_takeTurn h)))))

theorem keeps_fetchErr {q} : Keeps (fetchErr q) := fun _ h =>
  canon_ite (keeps_post (keeps_sqError (keeps_incFld (keeps_takeTurn h)))) h

theorem keeps_commandSend {q} : Keeps (commandSend q) := fun _ h => by
  unfold commandSend
  split
  · exact canon_ite h (keeps_slSend (keeps_setCmd h))
  · exact h

theorem keeps_ackReceive : Keeps ackReceive := fun _ h => by
  simp only [ackReceive]
  split
  · split
    · exact keeps_qFlush (keeps_setCmd (keeps_qeSet (keeps_dropH (canon_ite h (keeps_pull h)))))
    · exact keeps_qeSet (keeps_dropH (canon_ite h (keeps_pull h)))
  · exact canon_ite h (keeps_pull h)

theorem keeps_completionReceive : Keeps completionReceive := fun _ h =>
  canon_when (keeps_slSet (keeps_pull h)) fun h1 => keeps_qFlushAll h1

theorem keeps_eventIn {q r} : Keeps (eventIn q r) := fun _ h =>
  canon_ite (keeps_incFld (keeps_qFlush h)) (canon_ite (canon_when (keeps_setQueue (keeps_qFlush h)) fun h1 =>
    keeps_post h1) (keeps_eqRecord (keeps_setQueue (keeps_qFlush h))))

theorem keeps_eventRoute : Keeps eventRoute := fun _ h => by
  refine canon_unless ?_ fun h1 => ?_
  · split
    · exact canon_mk (keeps_dropH (canon_ite (keeps_pull h) h))
    · exact canon_ite (keeps_pull h) h
  · split
    · exact h1
    · exact keeps_eventIn (canon_mk h1)

theorem keeps_reportOne {i} : Keeps (reportOne i) := fun _ h => canon_ite (keeps_jUe h) (canon_mk (keeps_slSend h))

theorem keeps_resyncAnswer : Keeps resyncAnswer := fun _ h => by
  unfold resyncAnswer
  split
  · exact keeps_slSend (canon_foldl (fun _ _ h1 => keeps_reportOne h1) (keeps_dropF h))
  · exact h

theorem keeps_journalAsk {q} : Keeps fun s => (journalAsk q s).2 := fun _ h =>
  keeps_slSet (keeps_pull (keeps_resyncAnswer (keeps_pull (keeps_slSend h))))

theorem keeps_restoreCmd {rep m} : Keeps (restoreCmd rep m) := fun _ h => by
  unfold restoreCmd
  split
  · split
    · exact keeps_slSet (keeps_setQueue h)
    · exact keeps_setQueue h
  · exact h

theorem keeps_jReleaseSend {i} : Keeps (jReleaseSend i) := fun _ h => keeps_qeSet (keeps_slSend h)

theorem keeps_createEntry {last m} : Keeps (createEntry last m) := fun _ h =>
  canon_ite (keeps_jReleaseSend h) (keeps_restoreCmd h)

theorem keeps_qopGate {op f} (hf : Keeps fun s => (f s).2) : Keeps (qopGate op f) := fun _ h =>
  canon_ite (keeps_setFlag h) (keeps_qeSet (keeps_setFlag (hf h)))

theorem keeps_qopCreateCmd : Keeps qopCreateCmd := fun _ h =>
  canon_unless (keeps_qopGate (fun _ h1 => h1) h) fun h1 => keeps_qeSet h1

theorem keeps_createDone {q x} : Keeps (createDone q x) := fun _ h =>
  keeps_qFlush (canon_foldl (fun _ _ h1 => keeps_createEntry h1) (keeps_setQueue (keeps_journalAsk h)))

theorem keeps_qopCreateEvt : Keeps qopCreateEvt := keeps_qopGate fun _ h =>
  canonSnd_ite h (canonSnd_ite h (keeps_setQueue h))

theorem keeps_qopDelete : Keeps qopDelete := keeps_qopGate fun _ h => canonSnd_ite h (canonSnd_ite h (keeps_setQueue h))

theorem keeps_qopRead : Keeps qopRead := keeps_qopGate fun _ h =>
  canonSnd_ite h (keeps_wr (keeps_wr (keeps_wr (keeps_wr (keeps_wr64 (keeps_wr64 h))))))

theorem keeps_qopWrite {v} : Keeps (qopWrite v) := fun _ h => by
  unfold qopWrite
  split
  · exact keeps_qopCreateCmd h
  · exact keeps_qopCreateEvt h
  · exact keeps_qopDelete h
  · exact keeps_qopRead h
  · exact canon_ite (keeps_setFlag h) h

theorem keeps_qopDone : Keeps qopDone := fun _ h => by
  unfold qopDone
  split
  · exact h
  · split
    · exact keeps_post (keeps_qeSet (keeps_setFlag (keeps_setFld h)))
    · exact canon_ite (keeps_post (keeps_qeSet (keeps_setFlag (keeps_setFld (keeps_createDone h))))) h

theorem keeps_resyncStart {hReset} : Keeps (resyncStart hReset) := fun _ h =>
  keeps_slSet (keeps_setFlag (canon_foldl (fun _ _ h1 => keeps_setQueue h1) h))

theorem keeps_resyncEntry {m} : Keeps (resyncEntry m) := fun _ h => by
  unfold resyncEntry
  split
  · refine canon_ite h (canon_ite (keeps_jReleaseSend (canon_ite (keeps_setQueue h) h)) ?_)
    split
    · exact keeps_restoreCmd (canon_ite (keeps_setQueue h) h)
    · split
      · exact canon_unless (canon_ite (keeps_setQueue h) h) fun h1 => keeps_slSet (keeps_setCmd h1)
      · exact canon_ite (keeps_setQueue h) h
  · exact h

theorem keeps_noticeAgain : Keeps noticeAgain := fun _ h =>
  canon_foldl (fun _ _ h1 => canon_foldl (fun _ _ h2 => canon_ite (keeps_slSend h2) h2) h1) h

theorem keeps_resyncDone : Keeps resyncDone := fun _ h =>
  canon_ite h (keeps_noticeAgain (keeps_post (keeps_setFlag (keeps_qFlushAll (canon_foldl (fun _ _ h1 =>
    keeps_resyncEntry h1) (keeps_journalAsk h))))))

theorem keeps_linkUp {width speed} : Keeps (linkUp width speed) := fun _ h =>
  canon_when (keeps_qFlushAll (keeps_qeSet (keeps_setFld (keeps_setFld h)))) fun h1 => keeps_post h1

theorem keeps_d3hot {on} : Keeps (d3hot on) := fun _ h => canon_unless (keeps_qeSet h) fun h1 => keeps_qFlushAll h1

/-! ## Pan -/

theorem keeps_panSet {f} : Keeps (·.panSet f) := fun _ h => canon_mk h

theorem keeps_setPan {p x} : Keeps (·.setPan p x) := fun _ h => keeps_panSet h

theorem keeps_setUnread {c n} : Keeps (·.setUnread c n) := fun _ h => keeps_panSet h

theorem keeps_ringTailWrite {c v} : Keeps (ringTailWrite c v) := fun _ h => keeps_setUnread (keeps_setFld h)

theorem keeps_ringWrite {c head status cause ticket flags done notify} :
    Keeps (ringWrite c head status cause ticket flags done notify) := fun _ h =>
  canon_ite h (canon_when (keeps_setUnread (keeps_setFld (keeps_salWrite (keeps_portTouch h)))) fun h1 =>
    keeps_pulse h1)

theorem keeps_resvAdd {c} : Keeps (resvAdd c) := fun _ h => keeps_setFld h

theorem keeps_resvDrop {c} : Keeps (resvDrop c) := fun _ h => keeps_setFld h

theorem keeps_bgRecord {o status cause} : Keeps (bgRecord o status cause) := fun _ h => by
  unfold bgRecord
  split
  · exact keeps_resvDrop (keeps_ringWrite h)
  · exact h

theorem keeps_lfault {p ctx idx cause done addr} : Keeps (lfault p ctx idx cause done addr) := fun _ h =>
  keeps_post (keeps_setFld (keeps_setFld (keeps_wr h)))

theorem keeps_launchedEnd {p ctx tick o} : Keeps (launchedEnd p ctx tick o) := fun _ h =>
  keeps_orderEnd (keeps_setFld h)

theorem keeps_orderIssue : Keeps orderIssue := fun _ h => by
  unfold orderIssue
  split
  · exact h
  · exact canon_ite h (canon_ite (keeps_abandon (keeps_lfault (canon_ite (keeps_salReadFx h) h))) (canon_ite
      (keeps_panSet (keeps_setLaunch (canon_ite (keeps_salReadFx h) h))) (keeps_setPan (keeps_setLaunch (canon_ite
      (keeps_salReadFx h) h)))))

theorem keeps_orderStart {p} : Keeps (orderStart p) := fun _ h => by
  refine canon_ite h ?_
  split
  · exact canon_ite (keeps_setPan (keeps_panSet h)) h
  · split
    · exact canon_ite (keeps_setPan h) h
    · exact h

theorem keeps_bgRefuse {o cause} : Keeps (bgRefuse o cause) := fun _ h => keeps_bgRecord h

theorem keeps_bgYield {p} : Keeps (bgYield p) := fun _ h => by
  unfold bgYield
  extract_lets
  split
  · exact canon_ite h (canon_ite (keeps_setPan h) (keeps_setPan h))
  · exact h

theorem keeps_bgStart {p} : Keeps (bgStart p) := fun _ h => by
  refine canon_ite h ?_
  split
  · exact canon_ite (keeps_setPan h) h
  · split
    · exact h
    · exact canon_ite h (canon_ite (keeps_bgRefuse (keeps_setPan h)) (canon_ite (keeps_setPan (keeps_setPan h)) h))

theorem keeps_panLaunchPoint {bad} : Keeps (panLaunchPoint bad) := fun _ h =>
  canon_ite h (canon_foldl (fun _ _ h1 => keeps_bgYield h1) (keeps_launchPoint h))

theorem keeps_panq {c d cap} : Keeps fun s => (panq c d cap s).2 := fun _ h =>
  canonSnd_ite (keeps_setFld h) (canonSnd_ite (keeps_setFld h) (canonSnd_ite (keeps_setFld h) (keeps_resvAdd
    (keeps_setPan (keeps_panSet h)))))

theorem keeps_stripReads {l} : Keeps (stripReads l) := fun _ h =>
  canon_unless (canon_foldl (fun _ _ h1 => keeps_portTouch h1) h) fun h1 => canon_foldl (fun _ _ h2 => canon_ite
    (keeps_readFx h2) h2) h1

theorem keeps_stripStores {d l} : Keeps (stripStores d l) := fun _ h =>
  canon_foldl (fun _ _ h1 => keeps_salWrite h1) (canon_ite h (keeps_portTouch h))

theorem keeps_panHalt {p o cause addr} : Keeps (panHalt p o cause addr) := fun _ h => by
  unfold panHalt
  split
  · exact keeps_post (keeps_setPan (canon_foldl (fun _ _ h1 => keeps_wr h1) (keeps_setFld (keeps_setFld (keeps_setFld
      (keeps_wr (keeps_bgRecord h)))))))
  · exact keeps_launchedEnd (keeps_abandon (keeps_lfault (keeps_setPan h)))

theorem keeps_orderDone {p o} : Keeps (orderDone p o) := fun _ h => by
  unfold orderDone
  split
  · exact keeps_bgRecord (keeps_setPan h)
  · exact keeps_launchedEnd (keeps_setPan h)

theorem keeps_csLog {ue p synd addr} : Keeps (csLog ue p synd addr) := fun _ h => keeps_wr64 h

theorem keeps_csUeRead {e} : Keeps (csUeRead e) := fun _ h => keeps_post (keeps_setFld (keeps_csLog h))

theorem keeps_csCeRead {p synd addr} : Keeps (csCeRead p synd addr) := fun _ h =>
  canon_unless (keeps_setFld (keeps_incFld (keeps_csLog h))) fun h1 => keeps_post (keeps_panSet h1)

theorem keeps_csUpset {o first f} : Keeps (csUpset o first f) := fun _ h => by
  unfold csUpset
  split
  · exact canon_ite (keeps_csCeRead h) h
  · exact canon_ite (keeps_panSet h) h
  · exact h

theorem keeps_csMend {a} : Keeps (csMend a) := fun _ h => keeps_panSet h

theorem keeps_stripCommit {p o x} : Keeps (stripCommit p o x) := fun _ h => by
  refine canon_ite (keeps_orderDone (canon_unless (keeps_stripStores h) fun h1 => canon_mk h1)) (canon_ite ?_
    (canon_ite (keeps_setPan (canon_unless (keeps_stripStores h) fun h1 => canon_mk h1)) (keeps_setPan (canon_unless
    (keeps_stripStores h) fun h1 => canon_mk h1))))
  split
  · exact keeps_launchedEnd (keeps_setPan (canon_unless (keeps_stripStores h) fun h1 => canon_mk h1))
  · exact canon_unless (keeps_stripStores h) fun h1 => canon_mk h1

theorem keeps_stripRun {p f} : Keeps (stripRun p f) := fun _ h => by
  simp only [stripRun]
  split
  · exact h
  · refine canon_ite h ?_
    split
    · exact keeps_panHalt (keeps_csUeRead (keeps_csUpset h))
    · split
      · exact keeps_panHalt (keeps_csUeRead (keeps_stripReads (keeps_csUpset h)))
      · split
        · exact keeps_panHalt (keeps_stripReads (keeps_csUpset h))
        · split
          · exact keeps_panHalt (keeps_stripReads (keeps_csUpset h))
          · exact keeps_stripCommit (keeps_stripReads (keeps_csUpset h))

theorem keeps_rsmRefused {p} : Keeps (rsmRefused p) := fun _ h => keeps_post h

theorem keeps_bgResume {p c} : Keeps (bgResume p c) := fun _ h => by
  unfold bgResume
  split
  · exact keeps_rsmRefused h
  · exact canon_ite (keeps_rsmRefused h) (keeps_setPan (keeps_setFlag (keeps_resvAdd h)))

theorem keeps_skipHeld {p} : Keeps (skipHeld p) := fun _ h => by
  unfold skipHeld
  split
  · exact keeps_setFlag h
  · exact keeps_setPan (keeps_setFlag (canon_ite h (keeps_ringWrite h)))

theorem keeps_bgSkip {p} : Keeps (bgSkip p) := fun _ h => canon_ite (keeps_rsmRefused h) (keeps_skipHeld h)

theorem keeps_bgFlush {p} : Keeps (bgFlush p) := fun _ h =>
  canon_ite (keeps_rsmRefused h) (canon_foldl (fun _ _ h1 => keeps_bgRecord h1) (keeps_setPan (keeps_skipHeld h)))

theorem keeps_bgCmdWrite {p c v} : Keeps (bgCmdWrite p c v) := fun _ h => by
  unfold bgCmdWrite
  split
  · exact keeps_bgResume h
  · exact keeps_bgSkip h
  · exact keeps_bgFlush h
  · exact h

theorem keeps_ringConfigWrite {c cfg v} : Keeps (ringConfigWrite c cfg v) := fun _ h =>
  canon_ite (keeps_post h) (keeps_plainWrite h)

theorem keeps_panEnWrite {on} : Keeps (panEnWrite on) := fun _ h => canon_ite (keeps_setFlag h) (keeps_setFlag h)

theorem keeps_patchRefuse : Keeps patchRefuse := fun _ h => keeps_post h

theorem keeps_patchSet : Keeps patchSet := fun _ h => canon_ite (keeps_patchRefuse h) (keeps_setFlag h)

theorem keeps_patchQuiet : Keeps patchQuiet := fun _ h => canon_ite (keeps_setFlag h) h

theorem keeps_patchClear : Keeps patchClear := fun _ h =>
  canon_ite h (keeps_post (keeps_setFlag (keeps_setFlag (canon_unless (keeps_setFlag (keeps_setFld h)) fun h1 =>
    keeps_setFlag h1))))

theorem keeps_patchWordWrite {i v} : Keeps (patchWordWrite i v) := fun _ h =>
  canon_ite (keeps_panSet h) (canon_ite (keeps_patchRefuse h) (keeps_csMend (keeps_panSet h)))

theorem keeps_dispatchWrite0 {v} : Keeps (dispatchWrite0 v) := fun _ h => keeps_panSet h

theorem keeps_dispatchWrite1 {v} : Keeps (dispatchWrite1 v) := fun _ h =>
  canon_ite (keeps_patchRefuse h) (keeps_csMend (keeps_panSet h))

theorem keeps_patchIdWrite {v} : Keeps (patchIdWrite v) := fun _ h =>
  canon_ite (keeps_patchRefuse h) (keeps_plainWrite h)

theorem keeps_pcsCeClr : Keeps pcsCeClr := fun _ h => keeps_panSet (canon_foldl (fun _ _ h1 => keeps_setFld h1) h)

/-! ## Security -/

theorem keeps_secSet {f} : Keeps (·.secSet f) := fun _ h => canon_mk h

theorem keeps_secRefuse : Keeps secRefuse := fun _ h => keeps_setPost h

theorem keeps_otpStart {o} : Keeps (otpStart o) := fun _ h => keeps_secSet (keeps_setFlag h)

theorem keeps_revoke {arg} : Keeps (revoke arg) := fun _ h => canon_ite (keeps_secRefuse h) (keeps_otpStart h)

theorem keeps_drevoke {arg} : Keeps (drevoke arg) := fun _ h => canon_ite (keeps_secRefuse h) (keeps_otpStart h)

theorem keeps_svnBump : Keeps svnBump := fun _ h => canon_ite (keeps_secRefuse h) (keeps_otpStart h)

theorem keeps_lcAdv {arg} : Keeps (lcAdv arg) := fun _ h => canon_ite (keeps_secRefuse h) (keeps_otpStart h)

theorem keeps_otpDone : Keeps otpDone := fun _ h => by
  unfold otpDone
  split
  · exact h
  · refine keeps_post (keeps_secSet (keeps_setFlag ?_))
    split
    · exact keeps_setFld h
    · exact keeps_setFld h
    · exact keeps_setFld h
    · exact keeps_secSet h

theorem keeps_reimageWrite {on} : Keeps (reimageWrite on) := fun _ h => canon_ite (keeps_secRefuse h) (keeps_setFlag h)

theorem keeps_rngRestart : Keeps rngRestart := fun _ h => keeps_secSet (keeps_setFlag (keeps_setFld h))

theorem keeps_rngPassed : Keeps rngPassed := fun _ h => canon_ite h (keeps_secSet (keeps_setFld h))

theorem keeps_rngFail : Keeps rngFail := fun _ h => keeps_setPost (keeps_secSet (keeps_setFld h))

theorem keeps_rngRead : Keeps fun s => (rngRead s).2 := fun _ h =>
  canonSnd_ite (keeps_setFlag h) (keeps_stepFree (keeps_setFld h))

theorem keeps_rngFill {m} : Keeps (rngFill m) := fun _ h => canon_ite (keeps_setFld h) h

theorem keeps_secCtrlWrite {v} : Keeps (secCtrlWrite v) := fun _ h =>
  canon_when (canon_when (canon_when (canon_when (canon_when (canon_unless (keeps_setFld h) fun h1 =>
    keeps_reimageWrite h1) fun h1 => keeps_revoke h1) fun h1 => keeps_drevoke h1) fun h1 => keeps_svnBump h1) fun h1 =>
    keeps_lcAdv h1) fun h1 => keeps_rngRestart h1

theorem keeps_attest {ident cseq q nonce} : Keeps (attest ident cseq q nonce) := fun _ h =>
  canon_ite (keeps_post h) (canon_ite (keeps_post h) (keeps_secSet (keeps_setFlag h)))

theorem keeps_attestAnswer : Keeps attestAnswer := fun _ h => by
  unfold attestAnswer
  split
  · exact h
  · exact keeps_secSet (keeps_setFlag (keeps_incFld (canon_foldl (fun _ _ h1 => keeps_sendRec h1) h)))

theorem keeps_dbgReply {bs} : Keeps (dbgReply bs) := fun _ h => keeps_slSend h

theorem keeps_challenge : Keeps challenge := fun _ h =>
  canon_ite (keeps_dbgReply (keeps_secSet h)) (keeps_dbgReply (keeps_secSet (canon_mk h)))

theorem keeps_unlock {scope slot pub sig} : Keeps (unlock scope slot pub sig) := fun _ h =>
  canon_ite (keeps_dbgReply (keeps_setPost (keeps_secSet (keeps_secSet h)))) (keeps_dbgReply (keeps_post (keeps_secSet
    (keeps_secSet h))))

theorem keeps_bfail {b cause} : Keeps (bfail b cause) := fun _ h => keeps_setFld h

theorem keeps_patchRecord {bs} : KeepsOpt (patchRecord bs) := fun _ h =>
  canonOpt_ite (canonOpt_some (canon_foldl (fun _ _ h1 => keeps_patchWordWrite h1) (keeps_wr h))) (canonOpt_ite
    (canonOpt_some (keeps_dispatchWrite1 (keeps_dispatchWrite0 (keeps_wr h)))) canonOpt_none)

theorem keeps_patchRecords {s0 o n} : KeepsOpt (patchRecords s0 o n) := fun s h => by
  induction n generalizing o s with
  | zero => exact canonOpt_some h
  | succ n ih =>
    unfold patchRecords
    split
    · exact ih _ ((keeps_patchRecord h).of_some ‹_›)
    · exact canonOpt_none

theorem canonOpt_map {o : Option State} {f : State → State} (ho : CanonOpt o) (hf : Keeps f) : CanonOpt (o.map f) := by
  cases o with
  | none => exact canonOpt_none
  | some t => exact canonOpt_some (hf ho)

theorem keeps_bootPatch {b x} : KeepsOpt (bootPatch b x) := fun _ h => canonOpt_ite canonOpt_none
  (canonOpt_map (keeps_patchRecords (keeps_setFlag (keeps_patchSet h))) fun _ h1 => keeps_patchClear (keeps_patchIdWrite h1))

theorem keeps_bootTable {b x} : KeepsOpt (bootTable b x) := fun _ h =>
  canonOpt_ite canonOpt_none (canonOpt_ite canonOpt_none (canonOpt_some (keeps_ttCommit (canon_foldl (fun _ _ h1 =>
    canon_foldl (fun _ _ h2 => keeps_ttDataWrite h2) (keeps_setFld h1)) h))))

theorem keeps_withSect {b ty f} (hf : ∀ x, KeepsOpt (f x)) : KeepsOpt (withSect b ty f) := fun _ h => by
  unfold withSect
  split
  · exact hf _ h
  · exact canonOpt_some h

theorem keeps_bootLoad {b} : Keeps (bootLoad b) := fun _ h => by
  refine canon_foldl (fun _ _ h1 => ?_) h
  split
  · exact keeps_salWrite (keeps_portTouch h1)
  · exact keeps_lmWrite h1
  · exact h1

theorem keeps_bootHand {b} : Keeps (bootHand b) := fun _ h => keeps_setCore h

theorem keeps_recovery : Keeps recovery := fun _ h => keeps_post (keeps_setFlag (keeps_setFlag h))

theorem keeps_bootDone {b} : Keeps (bootDone b) := fun _ h =>
  canon_foldl (fun _ _ h1 => keeps_wr h1) (keeps_setFlag (keeps_wr (keeps_wr (keeps_bootHand (keeps_secSet h)))))

theorem keeps_bootTry {fill bs} : Keeps (bootTry fill bs) := fun s h => by
  induction bs generalizing s with
  | nil => exact keeps_recovery h
  | cons b r ih =>
    unfold bootTry
    refine canon_ite (ih _ (keeps_bfail h)) (canon_ite (ih _ (keeps_bfail h)) ?_)
    extract_lets t
    have ht : Canon t := keeps_bootLoad (canon_ite (keeps_fillZero h) h)
    split
    · exact ih _ (keeps_bfail ht)
    · have hu := (keeps_withSect (fun _ => keeps_bootPatch) ht).of_some ‹_›
      split
      · exact ih _ (keeps_bfail hu)
      · exact keeps_bootDone ((keeps_withSect (fun _ => keeps_bootTable) hu).of_some ‹_›)

theorem keeps_bootCold {fill} : Keeps (bootCold fill) := fun _ h => canon_ite (keeps_recovery h) (keeps_bootTry h)

theorem keeps_bootWarm : Keeps bootWarm := fun _ h =>
  canon_ite (keeps_bootCold (keeps_setFlag h)) (canon_ite (keeps_bootHand h) (keeps_recovery h))

/-! ## Power -/

theorem keeps_pwrSet {f} : Keeps (·.pwrSet f) := fun _ h => canon_mk h

theorem keeps_brownHold : Keeps brownHold := fun _ h => keeps_reframe (keeps_safeHold (keeps_pwrSet h))

theorem keeps_bwctlWrite {v} : Keeps (bwctlWrite v) := fun _ h =>
  canon_unless (keeps_plainWrite h) fun h1 => canon_ite (keeps_reframe h1) (keeps_brownHold h1)

theorem keeps_brownoutStart : Keeps brownoutStart := fun _ h =>
  canon_ite h (canon_when (keeps_pwrSet (keeps_incFld (keeps_setFlag h))) fun h1 => keeps_brownHold h1)

theorem keeps_brownWarn {mv ns} : Keeps (brownWarn mv ns) := fun _ h =>
  canon_ite h (keeps_postEventAt (keeps_pwrSet (keeps_reframe (keeps_setFlag (keeps_setFld (keeps_setFld h))))))

theorem keeps_hDipStart : Keeps hDipStart := fun _ h => canon_ite h (keeps_pwrSet (keeps_setFlag h))

theorem keeps_hDipRecover {mv ns} : Keeps (hDipRecover mv ns) := fun _ h =>
  canon_ite h (keeps_qFlushAll (keeps_postEventAt (keeps_setFlag (keeps_setFld (keeps_setFld h)))))

theorem keeps_tempSet {h t} : Keeps (tempSet h t) := fun _ h => canon_ite (keeps_setFld h) (keeps_setFld h)

theorem keeps_tempHigh {h t} : Keeps (tempHigh h t) := fun _ h =>
  canon_unless (keeps_tempSet h) fun h1 => canon_ite (keeps_post h1) (keeps_post (keeps_setFlag h1))

theorem keeps_tempHighEnd {h t} : Keeps (tempHighEnd h t) := fun _ h =>
  canon_when (keeps_tempSet h) fun h1 => canon_ite h1 (keeps_setFlag h1)

theorem keeps_refLost : Keeps refLost := fun _ h => canon_ite (keeps_post (keeps_incFld (keeps_setFlag h))) h

theorem keeps_refOk : Keeps refOk := fun _ h => canon_ite h (keeps_post (keeps_setFlag h))

theorem keeps_pllUnlock {lpll} : Keeps (pllUnlock lpll) := fun _ h => canon_ite (keeps_post (keeps_setFlag h)) h

theorem keeps_yieldAll : Keeps yieldAll := fun _ h => canon_foldl (fun _ _ h1 => keeps_bgYield h1) h

theorem keeps_pllsLock {on} : Keeps (pllsLock on) := fun _ h => keeps_setFlag (keeps_setFlag h)

theorem keeps_pwrEnter {m} : Keeps (pwrEnter m) := fun _ h =>
  canon_ite h (canon_ite (keeps_setPost h) (canon_foldl (fun _ _ h1 => canon_ite h1 (keeps_pairTo h1)) (canon_when
    (keeps_pwrSet (keeps_yieldAll h)) fun h1 => keeps_pllsLock h1)))

theorem keeps_fSleep : Keeps fSleep := fun _ h => canon_ite h (keeps_post (keeps_pwrSet (keeps_setFlag h)))

theorem keeps_pairsOn : Keeps pairsOn := fun _ h => canon_foldl (fun _ _ h1 => canon_ite (keeps_pairTo h1) h1) h

theorem keeps_pwrRun : Keeps pwrRun := fun _ h =>
  canon_when (keeps_pairsOn (canon_mk (keeps_pwrSet (canon_ite (keeps_pllsLock h) h)))) fun h1 => keeps_post
    (keeps_pwrSet (keeps_setFlag h1))

theorem keeps_wake : Keeps wake := fun _ h => canon_ite (keeps_post (keeps_pwrRun h)) h

theorem keeps_wakeF : Keeps wakeF := fun _ h => keeps_pwrSet h

theorem keeps_pwrModeWrite {v} : Keeps (pwrModeWrite v) := fun _ h => by
  unfold pwrModeWrite
  split
  · exact keeps_pwrEnter (keeps_plainWrite h)
  · exact keeps_pwrEnter (keeps_plainWrite h)
  · exact keeps_plainWrite h

theorem keeps_resetRegs {keep} : Keeps (resetRegs keep) := fun s h => by
  obtain ⟨hr, hs, hm, hl⟩ := (canon_iff s).1 h
  exact (canon_iff _).2 ⟨wf_resetRegs keep hr, hs, hm, hl⟩

theorem keeps_resetPages {keep} : Keeps (resetPages keep) := fun _ h => canon_mk h

theorem keeps_panStop {p cut} : Keeps (panStop p cut) := fun _ h => by
  simp only [panStop]
  split
  · split
    · refine keeps_setPan (canon_foldl (fun _ _ h1 => keeps_wr h1) (keeps_setFld (keeps_setFld (keeps_setFld (keeps_wr
        ?_)))))
      split
      · exact keeps_stripStores h
      · exact h
    · refine keeps_setPan ?_
      split
      · exact keeps_stripStores h
      · exact h
  · refine keeps_setPan ?_
    split
    · exact keeps_stripStores h
    · exact h

theorem keeps_warmBlocks : Keeps warmBlocks := fun _ h => canon_mk h

theorem keeps_warmStat {cause} : Keeps (warmStat cause) := fun _ h =>
  keeps_wr64 (keeps_incFld (keeps_setFlag (keeps_setFld (keeps_setFld h))))

theorem keeps_fWarmReset {cause cuts} : Keeps (fWarmReset cause cuts) := fun _ h =>
  keeps_resyncStart (keeps_pwrSet (canon_unless (keeps_warmStat (keeps_warmBlocks (keeps_resetPages (keeps_resetRegs
    (canon_foldl (fun _ _ h1 => keeps_panStop h1) (canon_when (keeps_fillStop h) fun h1 => keeps_replayDone h1))))))
    fun h1 => keeps_pwrRun h1))

theorem keeps_warmDone : Keeps warmDone := fun _ h =>
  canon_ite h (keeps_bootWarm (canon_when (keeps_post (keeps_pwrSet h)) fun h1 => keeps_emRecognise h1))

theorem keeps_coldBlocks : Keeps coldBlocks := fun s h => by
  obtain ⟨hr, _, hm, _⟩ := (canon_iff s).1 h
  exact (canon_iff _).2 ⟨hr, rfl, hm, rfl⟩

theorem keeps_coldBootF {below emLow} : Keeps (coldBootF below emLow) := fun _ h =>
  keeps_bootCold (keeps_resyncStart (canon_when (keeps_jCount (keeps_wr (keeps_setFld (keeps_setFld (keeps_coldBlocks
    (keeps_resetPages (keeps_resetRegs (canon_when (canon_foldl (fun _ _ h1 => canon_ite h1 (keeps_pairTo h1))
    (canon_foldl (fun _ _ h1 => keeps_writeDone h1) h)) fun h1 => keeps_setFlag h1)))))))) fun h1 => keeps_emFall h1))

theorem keeps_hBlocks : Keeps hBlocks := fun _ h => canon_mk h

theorem keeps_hWarmReset {cause} : Keeps (hWarmReset cause) := fun _ h =>
  keeps_resyncStart (keeps_jCount (keeps_qeSet (keeps_setFld (keeps_rkSet (keeps_hBlocks (keeps_resetPages
    (keeps_resetRegs h)))))))

theorem keeps_coldBootH {below} : Keeps (coldBootH below) := fun _ h =>
  keeps_resyncStart (keeps_jCount (keeps_pwrSet (canon_mk (keeps_setFld (keeps_wr (keeps_hBlocks (keeps_resetPages
    (keeps_resetRegs (canon_foldl (fun _ _ h1 => canon_ite h1 (keeps_pairTo h1)) h)))))))))

theorem keeps_initRow {fromH} : Keeps (initRow fromH) := fun _ h =>
  canon_ite (keeps_initCell h) (canon_ite (keeps_resyncStart (keeps_initCell h)) h)

theorem keeps_pcieHotReset : Keeps pcieHotReset := fun _ h =>
  canon_when (keeps_wr (keeps_qeSet h)) fun h1 => keeps_post h1

theorem keeps_frameGo : Keeps frameGo := fun _ h => keeps_setFlag h

theorem keeps_coreRunWrite {v} : Keeps (coreRunWrite v) := fun _ h =>
  canon_foldl (fun _ _ h1 => canon_ite h1 (keeps_setCore h1)) (keeps_setFld h)

theorem keeps_rstCtrlWrite {v} : Keeps (rstCtrlWrite v) := fun _ h =>
  canon_when (canon_when (keeps_coreRunWrite h) fun h1 => keeps_frameGo h1) fun h1 => keeps_fWarmReset h1

theorem keeps_hpCtrlWrite {v} : Keeps (hpCtrlWrite v) := fun _ h =>
  canon_when (canon_ite (keeps_wakeF h) h) fun h1 => keeps_hWarmReset h1

/-! ## Lockstep -/

theorem keeps_dropTasks {n cause p} : Keeps (dropTasks n cause p) := fun _ h =>
  canon_foldl (fun _ _ h1 => keeps_taskEnd (keeps_abandon h1)) (keeps_setCore h)

theorem keeps_coreStopHold {n} : Keeps (coreStopHold n) := fun _ h => canon_ite h (keeps_safeHold (keeps_rkSet h))

theorem keeps_deadCheck {n} : Keeps (deadCheck n) := fun _ h => by
  unfold deadCheck
  split
  · exact canon_ite (keeps_post (keeps_setFld h)) h
  · exact h

theorem keeps_stopCore {n} : Keeps (stopCore n) := fun _ h =>
  keeps_deadCheck (keeps_dropTasks (keeps_coreStopHold (keeps_dupSet (keeps_setFld h))))

theorem keeps_lockstep {n kind} : Keeps (lockstep n kind) := fun _ h =>
  canon_ite h (keeps_stopCore (keeps_post (keeps_wr64 (keeps_setFld (keeps_incFld h)))))

theorem keeps_s0Lockstep : Keeps s0Lockstep := fun _ h => keeps_post (keeps_hWarmReset h)

theorem keeps_coreStop {n} : Keeps (coreStop n) := fun _ h =>
  canon_ite (keeps_s0Lockstep h) (keeps_stopCore (keeps_post (keeps_exPost h)))

theorem keeps_recover {n} : Keeps (recover n) := fun _ h => canon_ite (keeps_setFld h) h

theorem keeps_autoRecover {n} : Keeps (autoRecover n) := fun _ h => canon_ite (keeps_recover h) h

theorem keeps_recovered {n} : Keeps (recovered n) := fun _ h =>
  canon_ite h (keeps_post (keeps_dupSet (keeps_setFld (keeps_setFld (keeps_mapCore h)))))

theorem keeps_inject {m} : Keeps (inject m) := fun _ h => keeps_dupSet h

theorem keeps_fcCtrlWrite {v} : Keeps (fcCtrlWrite v) := fun _ h =>
  keeps_inject (canon_foldl (fun _ _ h1 => canon_ite (keeps_recover h1) h1) (keeps_plainWrite h))

theorem keeps_logicMismatch : Keeps logicMismatch := fun _ h => keeps_pwrSet (keeps_incFld (keeps_setPost h))

theorem keeps_stopLaunches {t} : Keeps (stopLaunches t) := fun _ h =>
  canon_foldl (fun _ _ h1 => keeps_taskEnd (keeps_abandon (keeps_dropTasks h1))) h

/-! ## Panel -/

theorem keeps_pnSet {f} : Keeps (·.pnSet f) := fun _ h => canon_mk h

theorem keeps_pnPost {bit sev n} : Keeps (pnPost bit sev n) := fun _ h => keeps_postEvent h

theorem keeps_btnDown : Keeps btnDown := fun _ h => canon_ite h (keeps_pnPost (keeps_pnSet (keeps_setFlag h)))

theorem keeps_btnHold : Keeps btnHold := fun _ h => canon_ite (keeps_pnPost (keeps_pnSet h)) h

theorem keeps_btnUp {ms} : Keeps (btnUp ms) := fun _ h => canon_ite (keeps_pnPost (keeps_pnSet (keeps_setFlag h))) h

theorem keeps_setBit {f i b} : Keeps (setBit f i b) := fun _ h => keeps_setFld h

theorem keeps_latchOpen {n} : Keeps (latchOpen n) := fun _ h => canon_ite h (keeps_pnPost (keeps_setBit h))

theorem keeps_latchClose {n} : Keeps (latchClose n) := fun _ h => canon_ite (keeps_pnPost (keeps_setBit h)) h

theorem keeps_usbAttach : Keeps usbAttach := fun _ h => canon_ite h (keeps_pnPost (keeps_setFlag h))

theorem keeps_usbDetach : Keeps usbDetach := fun _ h => canon_ite (keeps_pnPost (keeps_setFlag h)) h

theorem keeps_toggleLed : Keeps toggleLed := fun _ h => keeps_pnSet h

theorem keeps_identify : Keeps identify := fun _ h =>
  canon_unless (keeps_pnPost h) fun h1 => canon_ite (keeps_pnSet h1) (keeps_toggleLed h1)

theorem keeps_touch {e ms base count} : Keeps (touch e ms base count) := fun _ h => by
  unfold touch
  refine canon_ite h ?_
  extract_lets t other u
  have hu : Canon u := keeps_pnPost (keeps_pnSet (keeps_setBit (keeps_setFld (keeps_setFld h))))
  clear_value other u
  split
  · exact canon_when hu fun h1 => keeps_identify h1
  · exact hu

theorem keeps_touchRelease {e base count} : Keeps (touchRelease e base count) := fun _ h =>
  keeps_setFld (keeps_setFld (keeps_setBit h))

theorem keeps_lampTest : Keeps lampTest := fun _ h => keeps_setFlag h

theorem keeps_lampTestEnd : Keeps lampTestEnd := fun _ h =>
  canon_ite (keeps_pnSet (canon_when (canon_foldl (fun _ _ h1 => keeps_setFld h1) (keeps_setFlag h)) fun h1 =>
    keeps_toggleLed h1)) h

theorem keeps_ledWrite {n v} : Keeps (ledWrite n v) := fun _ h =>
  canon_when (keeps_plainWrite h) fun h1 => keeps_pnSet (keeps_setFld h1)

theorem keeps_pnCtrlWrite {v} : Keeps (pnCtrlWrite v) := fun _ h =>
  canon_when (keeps_plainWrite h) fun h1 => keeps_lampTest h1

/-! ## Mmio -/

theorem keeps_pageRead {master pg off} : Keeps fun s => (pageRead master pg off s).2 := fun _ h =>
  canonSnd_ite (keeps_rngRead h) (canonSnd_ite (keeps_lowRead h) (canonSnd_ite (keeps_highRead h) (canonSnd_ite
    (canon_mk h) (canonSnd_ite (canon_mk h) h))))

theorem keeps_tbCtrlWrite {v} : Keeps (tbCtrlWrite v) := fun _ h =>
  canon_when (keeps_tbSrcWrite (keeps_requestChanged (keeps_setFld (keeps_plainWrite h)))) fun h1 => keeps_tbLoad h1

theorem keeps_tbWrite {off v} : Keeps (tbWrite off v) := fun _ h =>
  canon_ite (keeps_tbCtrlWrite h) (canon_ite (keeps_tbNWrite h) (canon_ite (keeps_tbTickMinWrite h) (canon_ite
    (keeps_rateHoldWrite h) (canon_ite (keeps_rateHoldWrite h) (canon_ite (keeps_gridSrcWrite h) (keeps_plainWrite
    h))))))

theorem keeps_acWrite {pg off v} : Keeps (acWrite pg off v) := fun _ h =>
  canon_ite (keeps_acCtrlWrite h) (canon_ite (keeps_acReloadWrite h) (canon_ite (keeps_acReloadWrite h) (canon_ite
    (keeps_acCmpWriteLow h) (canon_ite (keeps_acCmpWriteHigh h) (keeps_plainWrite h)))))

theorem keeps_gtCtrlWrite {n v} : Keeps (gtCtrlWrite n v) := fun _ h => keeps_gtRun (canon_ite (keeps_gtClr h) h)

theorem keeps_gtWrite {pg off v} : Keeps (gtWrite pg off v) := fun _ h =>
  canon_ite (keeps_gtCtrlWrite h) (canon_ite (keeps_gtCountWrite h) (canon_ite (keeps_gtReloadWrite h) (canon_ite
    (keeps_gtCmpWrite h) (canon_ite (keeps_gtCmpWrite h) (keeps_plainWrite h)))))

theorem keeps_egWrite {pg off v} : Keeps (egWrite pg off v) := fun _ h =>
  canon_ite (keeps_egCtrlWrite h) (canon_ite (keeps_egSwPulse h) (canon_ite (keeps_evCfgWrite h) (keeps_plainWrite h)))

theorem keeps_blWrite {pg off v} : Keeps (blWrite pg off v) := fun _ h =>
  canon_ite (keeps_blCtrlWrite h) (canon_ite (keeps_leaseWrite h) (keeps_plainWrite h))

theorem keeps_rkCtrlWrite {v} : Keeps (rkCtrlWrite v) := fun _ h =>
  canon_when (canon_when (canon_when (canon_when (canon_ite (keeps_rkMaxClr h) h) fun h1 => keeps_rkEclr h1) fun h1 =>
    keeps_rkUnlatchReq h1) fun h1 => keeps_rkUnlatchReq h1) fun h1 => keeps_rkSwapReq h1

theorem keeps_rkWrite {pg off v} : Keeps (rkWrite pg off v) := fun _ h =>
  canon_ite (keeps_rkCtrlWrite h) (canon_ite (keeps_rkWselWrite h) (canon_ite (keeps_rkWdataWrite h) (canon_when
    (keeps_plainWrite h) fun h1 => canon_ite (keeps_rkTestGo h1) h1)))

theorem keeps_cryWrite {pg off v} : Keeps (cryWrite pg off v) := fun _ h =>
  canon_ite (keeps_cryOpWrite h) (canon_ite (keeps_ttCtrlWrite h) (canon_ite (keeps_ttDataWrite h) (keeps_plainWrite
    h)))

theorem keeps_pcsCtrlWrite {v} : Keeps (pcsCtrlWrite v) := fun _ h =>
  canon_ite (keeps_patchRefuse h) (canon_ite (keeps_patchSet (canon_ite (keeps_pcsCeClr h) h)) (keeps_patchClear
    (canon_ite (keeps_pcsCeClr h) h)))

theorem keeps_panWrite {core pg off v} : Keeps (panWrite core pg off v) := fun _ h =>
  canon_ite (keeps_bgCmdWrite h) (canon_ite (canon_ite (keeps_ringConfigWrite h) (canon_ite (keeps_ringConfigWrite h)
    (canon_ite (keeps_ringTailWrite h) (keeps_plainWrite h)))) (canon_ite (keeps_pcsCtrlWrite h) (canon_ite
    (keeps_patchWordWrite h) (canon_ite (keeps_dispatchWrite0 h) (canon_ite (keeps_dispatchWrite1 h) (canon_ite
    (keeps_patchIdWrite h) (keeps_plainWrite h)))))))

theorem keeps_salRegWrite {pg off v} : Keeps (salRegWrite pg off v) := fun _ h =>
  canon_ite (canon_when (canon_ite (keeps_ceClr h) h) fun h1 => keeps_fillStart h1) (canon_ite (canon_ite
    (keeps_rmapSet h) (keeps_rmapClear h)) (keeps_plainWrite h))

theorem keeps_lbFlush {n} : Keeps (lbFlush n) := fun _ h => keeps_mapCore h

theorem keeps_bpFlush {n} : Keeps (bpFlush n) := fun _ h => keeps_mapCore h

theorem keeps_cntClr {n} : Keeps (cntClr n) := fun _ h =>
  canon_foldl (fun _ _ h1 => keeps_wr h1) (keeps_setFld (keeps_setFld (keeps_setFld h)))

theorem keeps_epCtrlWrite {n v} : Keeps (epCtrlWrite n v) := fun _ h =>
  canon_when (canon_when (canon_when (keeps_plainWrite h) fun h1 => keeps_cntClr h1) fun h1 => keeps_lbFlush h1) fun h1
    => keeps_bpFlush h1

theorem keeps_tjCtrlWrite {v} : Keeps (tjCtrlWrite v) := fun _ h =>
  canon_when (canon_ite (keeps_replay h) h) fun h1 => keeps_tjRelease h1

theorem keeps_slWrite {off v} : Keeps (slWrite off v) := fun _ h =>
  canon_ite (keeps_pairDisWrite (keeps_plainWrite h)) (canon_ite (keeps_tjCtrlWrite h) (keeps_plainWrite h))

theorem keeps_qeWrite {off v} : Keeps (qeWrite off v) := fun _ h =>
  canon_ite (keeps_qopWrite h) (canon_ite (canon_ite (keeps_setQueue h) h) (keeps_plainWrite h))

theorem keeps_blockWrite {core pg off v} : Keeps (blockWrite core pg off v) := fun _ h =>
  canon_ite (keeps_tbWrite h) (canon_ite (canon_ite (keeps_acWrite h) h) (canon_ite (keeps_gtWrite h) (canon_ite
    (keeps_egWrite h) (canon_ite (keeps_blWrite h) (canon_ite (keeps_rkWrite h) (canon_ite (keeps_cryWrite h)
    (canon_ite (keeps_panWrite h) (canon_ite (keeps_salRegWrite h) (canon_ite (keeps_epCtrlWrite h) (canon_ite
    (keeps_slWrite h) (canon_ite (keeps_pwrModeWrite h) (canon_ite (keeps_bwctlWrite h) (canon_ite (keeps_rstCtrlWrite
    h) (canon_ite (keeps_fcCtrlWrite h) (canon_ite (keeps_secCtrlWrite h) (canon_ite (canon_when (keeps_plainWrite h)
    fun h1 => keeps_joinWrite h1) (canon_ite (keeps_qeWrite h) (canon_ite (keeps_ptStep h) (canon_ite
    (keeps_hpCtrlWrite h) (canon_ite (keeps_pnCtrlWrite h) (canon_ite (keeps_ledWrite h) (keeps_plainWrite
    h))))))))))))))))))))))

theorem keeps_evPendClear {pg v} : Keeps (evPendClear pg v) := fun _ h => keeps_wr h

theorem keeps_evEnWrite {pg v} : Keeps (evEnWrite pg v) := fun _ h =>
  canon_foldl (fun _ _ h1 => canon_ite (keeps_episode h1) h1) (keeps_wr h)

theorem keeps_evRouteWrite {pg v} : Keeps (evRouteWrite pg v) := fun _ h =>
  canon_ite (canon_ite h (keeps_setFlag h)) (keeps_wr h)

theorem keeps_pageLockSet {pg} : Keeps (pageLockSet pg) := fun _ h => keeps_setFlag h

theorem keeps_pageEnWrite {pg on} : Keeps (pageEnWrite pg on) := fun _ h =>
  canon_ite h (canon_ite (keeps_setFlag h) (canon_ite (canon_ite (keeps_tbEnable h) (keeps_tbDisable h)) (canon_ite
    (keeps_linkEnWrite h) (canon_ite (keeps_rkEnWrite h) (canon_ite (keeps_cryEnWrite h) (canon_ite (keeps_panEnWrite
    h) (keeps_setFlag h)))))))

theorem keeps_freezeWrite {pg on} : Keeps (freezeWrite pg on) := fun _ h =>
  canon_ite (canon_when (canon_when (keeps_setFlag h) fun h1 => keeps_segMark h1) fun h1 => keeps_crySet h1)
    (keeps_releaseHeld (canon_when (keeps_setFlag h) fun h1 => keeps_segMark h1))

theorem keeps_stageReset {key} : Keeps (stageReset key) := fun _ h =>
  canon_ite (keeps_rkSet h) (canon_ite (keeps_crySet h) (canon_ite (keeps_panSet h) (canon_ite h (keeps_panSet h))))

theorem keeps_rstOne {s0 pg off} : Keeps (rstOne s0 pg off) := fun _ h =>
  canon_ite h (canon_ite (canon_ite h (keeps_setFlag h)) (canon_ite (keeps_stageReset h) (keeps_blockWrite h)))

theorem keeps_pageRst {pg} : Keeps (pageRst pg) := fun _ h =>
  canon_ite (keeps_setFlag h) (canon_foldl (fun _ _ h1 => keeps_rstOne h1) h)

theorem keeps_pageCtrlWrite {dbg pg v} : Keeps (pageCtrlWrite dbg pg v) := fun _ h =>
  canon_when (canon_when (keeps_pageEnWrite h) fun h1 => keeps_freezeWrite h1) fun h1 => keeps_pageRst h1

theorem keeps_headerWrite {dbg pg off v} : Keeps (headerWrite dbg pg off v) := fun _ h =>
  canon_ite (keeps_pageCtrlWrite h) (canon_ite (canon_ite (keeps_setFlag h) h) (canon_ite (keeps_evPendClear h)
    (canon_ite (keeps_evEnWrite h) (canon_ite (keeps_evRouteWrite h) (canon_ite (canon_ite (keeps_pageLockSet h) h)
    h)))))

theorem keeps_pageWrite {dbg core pg off v} : Keeps (pageWrite dbg core pg off v) := fun _ h => by
  unfold pageWrite
  split
  · exact canon_ite (keeps_headerWrite h) (keeps_blockWrite h)
  · exact keeps_msixWrite h
  · exact h

theorem keeps_pageWrite64 {core pg off v} : Keeps (pageWrite64 core pg off v) := fun _ h =>
  canon_ite (keeps_rateHoldWrite h) (canon_ite (keeps_acReloadWrite h) (canon_ite (keeps_acCmpWrite64 h)
    (keeps_blockWrite (keeps_blockWrite h))))

theorem keeps_busRead {die master addr pg off n} : Keeps fun s => (busRead die master addr pg off n s).2 := fun _ h =>
  canonSnd_ite (keeps_decodeErr h) (canonSnd_ite h (keeps_pageRead h))

theorem keeps_busWrite {die dbg master addr pg off bs} : Keeps (busWrite die dbg master addr pg off bs) := fun _ h =>
  canon_ite (keeps_decodeErr h) (canon_ite (keeps_pageWrite64 h) (keeps_pageWrite h))

theorem keeps_regWriteRow {die pg off v} : Keeps (regWriteRow die pg off v) := fun _ h => by
  unfold regWriteRow
  split
  · exact keeps_busWrite h
  · exact canon_ite (keeps_decodeErr h) (keeps_busWrite h)

/-! ## Access -/

theorem keeps_coreRead {n pa size} : Keeps fun s => (coreRead n pa size s).2 := fun _ h => by
  unfold coreRead
  split
  · exact keeps_busRead h
  · exact keeps_salReadFx h
  · exact keeps_decodeErr h
  · exact h

theorem keeps_dropLine {n pa} : Keeps (dropLine n pa) := fun _ h => keeps_mapCore h

theorem keeps_holdEarly {n pa k} : Keeps (holdEarly n pa k) := fun _ h => keeps_mapCore h

theorem keeps_coreWrite {n pa bs} : Keeps (coreWrite n pa bs) := fun _ h => by
  unfold coreWrite
  split
  · exact keeps_busWrite h
  · exact keeps_memWrite (keeps_dropLine (keeps_holdEarly h))

theorem keeps_coreWriteCap {n pa k} : Keeps (coreWriteCap n pa k) := fun _ h => by
  unfold coreWriteCap
  split
  · exact keeps_salWriteCap (keeps_portTouch (keeps_dropLine (keeps_holdEarly h)))
  · exact keeps_coreWrite h

/-! ## Entry -/

theorem keeps_loadAll {n l bs tag} : Keeps fun s => (loadAll n l bs tag s).2 := fun _ h => by
  unfold loadAll
  split
  · exact h
  · exact h
  · split
    · exact keeps_tagReadFx h
    · exact h
  · exact h
  · exact keeps_panq h

theorem keeps_loadResult {n l bs tag} : Keeps fun s => (loadResult n l bs tag s).2 := fun _ h => keeps_loadAll h

theorem keeps_loadRead {n l} : Keeps fun s => (loadRead n l s).2 := fun _ h => keeps_coreRead h

theorem keeps_adAll {n a xs} : Keeps (adAll n a xs) := fun _ h => keeps_mapCore h

theorem keeps_spill {n} : KeepsExc (spill n) := fun _ h => by
  unfold spill
  extract_lets
  split
  · exact canonExc_error
  · exact canonExc_ok (keeps_mapCore (canon_foldl (fun _ _ h1 => keeps_coreWrite h1) (keeps_adAll (keeps_mapCore h))))

theorem keeps_frameLoad {n off wb} : KeepsExc (frameLoad n off wb) := fun _ h => by
  unfold frameLoad
  extract_lets
  split
  · exact canonExc_error
  · split
    · exact canonExc_error
    · exact canonExc_ok (canon_foldl (fun _ _ h1 => keeps_mapCore (keeps_coreRead h1)) (keeps_adAll h))

theorem keeps_fill {n} : KeepsExc (fill n) := fun _ h => by
  refine canonExc_ite (canonExc_ok h) ?_
  split
  · exact canonExc_error
  · exact canonExc_ok (keeps_mapCore ((keeps_frameLoad h).of_ok ‹_›))

theorem keeps_spillIfFull {n} : KeepsExc (spillIfFull n) := fun _ h => canonExc_ite (keeps_spill h) (canonExc_ok h)

theorem keeps_doubleFault {n cause info b} : Keeps (doubleFault n cause info b) := fun _ h =>
  canon_ite (keeps_coreStop h) (keeps_exCount (keeps_exPost (keeps_mapCore (keeps_maxSpan h))))

theorem keeps_enter {n e va} : Keeps (enter n e va) := fun _ h => by
  unfold enter
  extract_lets t c b
  have ht : Canon t := by
    unfold t
    split
    · exact keeps_mapCore h
    · exact h
  refine canon_ite (keeps_coreStop ht) (canon_ite (keeps_doubleFault ht) (canon_ite (keeps_doubleFault ht) ?_))
  split
  · exact keeps_doubleFault ht
  · split
    · exact keeps_doubleFault ht
    · exact keeps_exCount (keeps_mapCore (keeps_maxSpan ((keeps_spillIfFull (keeps_setCore ht)).of_ok ‹_›)))

theorem keeps_raise {n pos t} : Keeps (raise n pos t) := fun _ h => keeps_enter h

theorem keeps_enterLaunch {n} : Keeps (enterLaunch n) := fun _ h => by
  refine canon_ite (keeps_doubleFault h) ?_
  split
  · exact keeps_doubleFault h
  · exact keeps_exCount (keeps_mapCore (keeps_maxSpan ((keeps_spillIfFull (keeps_setCore h)).of_ok ‹_›)))

/-- The state that a replayed result leaves is canonical. -/
theorem canon_replayOne {n r s x t} (h : Canon s) (e : replayOne n r s = .ok (x, t)) : Canon t := by
  unfold replayOne at e
  split at e
  · cases e
    exact keeps_mapCore h
  · split at e
    · cases e
    · cases e
      exact keeps_mapCore (keeps_loadResult (keeps_loadRead h))

theorem keeps_replayAll {n rs} : Keeps fun s => (replayAll n rs s).2.2.2 := fun s h => by
  induction rs generalizing s with
  | nil => exact h
  | cons r rs ih =>
    dsimp only
    unfold replayAll
    split
    · dsimp only
      split
      · exact keeps_coreRead h
      · exact h
    · exact ih _ (canon_replayOne h ‹_›)

theorem keeps_eretLevel {n} : Keeps fun s => (eretLevel n s).2 := fun _ h => by
  dsimp only
  unfold eretLevel
  split
  · exact h
  · extract_lets l x u
    have hu : Canon u := keeps_mapCore (keeps_replayAll ((keeps_fill h).of_ok ‹_›))
    split
    · exact hu
    · exact keeps_mapCore (canon_when hu fun h1 => keeps_maxSpan h1)

theorem keeps_deret {n} : Keeps (deret n) := fun _ h => by
  unfold deret
  split
  · exact h
  · extract_lets r
    split
    · exact keeps_coreStop (keeps_replayAll h)
    · exact keeps_mapCore (keeps_replayAll h)

theorem keeps_unwind {n} : Keeps (unwind n) := fun _ h => by
  refine canon_ite (keeps_setCore h) (keeps_mapCore ?_)
  split
  · exact ((keeps_frameLoad h).of_ok ‹_›)
  · exact h

theorem keeps_taskLeave {n} : Keeps (taskLeave n) := fun _ h =>
  keeps_unwind (keeps_mapCore (canon_ite (keeps_maxSpan h) h))

theorem keeps_overrunEntry {n ctx} : Keeps (overrunEntry n ctx) := fun _ h => by
  unfold overrunEntry
  extract_lets
  split
  · exact keeps_doubleFault (keeps_mapCore h)
  · exact keeps_exCount (keeps_mapCore (keeps_mapCore h))

theorem keeps_nextTask {n} : Keeps fun s => (nextTask n s).2 := fun _ h => by
  simp only [nextTask]
  split
  · exact keeps_setCore (keeps_taskLeave h)
  · exact keeps_setCore (keeps_taskLeave h)
  · exact keeps_overrunEntry (keeps_taskLeave h)
  · exact keeps_eretLevel (keeps_taskLeave h)

theorem keeps_afterStop {n} : Keeps (afterStop n) := fun _ h => by
  unfold afterStop
  split
  · exact (canon_snd ‹_› (keeps_nextTask (keeps_mapCore h)))
  · exact keeps_raise (canon_snd ‹_› (keeps_nextTask (keeps_mapCore h)))

theorem keeps_overrun {n} : Keeps (overrun n) := fun _ h => by
  unfold overrun
  split
  · exact h
  · exact keeps_afterStop (keeps_taskEnd (keeps_abandon (keeps_mapCore h)))

theorem keeps_tend {n} : Keeps fun s => (tend n s).2 := fun _ h => by
  simp only [tend]
  split
  · exact h
  · exact canonSnd_ite (keeps_overrun h) (keeps_nextTask (keeps_taskEnd (keeps_mapCore h)))

theorem keeps_cutCount {n c} : Keeps (cutCount n c) := fun _ h => by
  unfold cutCount
  split
  · exact canon_ite (keeps_exPost (keeps_incFld h)) h
  · exact h

theorem keeps_recognise {n} : KeepsOpt (recognise n) := fun _ h => by
  refine canonOpt_ite canonOpt_none ?_
  split
  · exact canonOpt_none
  · exact canonOpt_some (keeps_enterLaunch (keeps_cutCount h))
  · exact canonOpt_some (canon_unless (keeps_enter (keeps_cutCount h)) fun h1 => keeps_mapCore h1)

/-! ## Essan -/

theorem effKeeps_stop {t} : EffKeeps (stop t) := keeps_id

theorem effKeeps_later {e left rs} : EffKeeps (later e left rs) := effKeeps_ok (fun _ h1 => keeps_mapCore h1) keeps_id

theorem effKeeps_now {e f} : EffKeeps (now e f) := effKeeps_ok (fun _ h1 => keeps_mapCore h1) keeps_id

theorem effKeeps_evAlu {e fn d a b} : EffKeeps (evAlu e fn d a b) := effKeeps_later

theorem effKeeps_evImm {e fn d a imm} : EffKeeps (evImm e fn d a imm) := effKeeps_later

theorem effKeeps_evShi {e d a imm} : EffKeeps (evShi e d a imm) := effKeeps_later

theorem effKeeps_evMovi {e d imm} : EffKeeps (evMovi e d imm) := effKeeps_later

theorem effKeeps_evMovhi {e d imm} : EffKeeps (evMovhi e d imm) := effKeeps_later

theorem effKeeps_evCmp {e d a b cond} : EffKeeps (evCmp e d a b cond) := effKeeps_later

theorem effKeeps_evCmpi {e pd cond a imm} : EffKeeps (evCmpi e pd cond a imm) := effKeeps_later

theorem effKeeps_evMul {e fn d a b} : EffKeeps (evMul e fn d a b) := effKeeps_later

theorem effKeeps_evDiv {e sg d a b} : EffKeeps (evDiv e sg d a b) := effKeeps_now

theorem effKeeps_evBcd {e fn d a b} : EffKeeps (evBcd e fn d a b) := effKeeps_ite (effKeeps_ite (effKeeps_error (fun _
    h1 => keeps_mapCore h1)) (effKeeps_ok (fun _ h1 => keeps_mapCore h1) keeps_id)) effKeeps_later

theorem effKeeps_evPred {e fn d a b} : EffKeeps (evPred e fn d a b) := by
  unfold evPred
  split
  · exact effKeeps_later
  · exact effKeeps_later
  · exact effKeeps_later

theorem effKeeps_evLocalLoad {e a off size res} : EffKeeps (evLocalLoad e a off size res) := by
  rw [evLocalLoad]
  -- the kernel would otherwise count up to the base of the local window
  generalize localPa e (localAddr e a off size) = pa
  cases localCheck e false (localAddr e a off size) size with
  | some t => exact effKeeps_stop
  | none =>
    cases readFault e.s .F pa size with
    | some t => exact effKeeps_stop
    | none => exact effKeeps_ok (fun _ h => keeps_mapCore h) keeps_id

theorem effKeeps_evLocalStore {e a off bs fl} : EffKeeps (evLocalStore e a off bs fl) := by
  unfold evLocalStore
  extract_lets
  split
  · exact effKeeps_stop
  · exact effKeeps_ok (fun _ h1 => keeps_mapCore (keeps_coreWrite h1)) keeps_id

theorem effKeeps_evLld {e d a sz off} : EffKeeps (evLld e d a sz off) := effKeeps_evLocalLoad

theorem effKeeps_evLst {e d a sz off} : EffKeeps (evLst e d a sz off) := effKeeps_evLocalStore

theorem effKeeps_evLldf {e d a sz off} : EffKeeps (evLldf e d a sz off) := effKeeps_evLocalLoad

theorem effKeeps_evLstf {e d a sz off} : EffKeeps (evLstf e d a sz off) := effKeeps_evLocalStore

theorem keeps_readPort {n pa} : Keeps (readPort n pa) := fun _ h => canon_ite (keeps_portPeak h) h

theorem effKeeps_pendRead {e pa size ad kind} : EffKeeps (.ok (pendRead e pa size ad kind)) :=
  effKeeps_ok (fun _ h => keeps_readPort (keeps_mapCore h)) keeps_id

theorem effKeeps_evRead {e a k ea size kind} : EffKeeps (evRead e a k ea size kind) := by
  unfold evRead
  split
  · exact effKeeps_stop
  · exact effKeeps_pendRead

theorem effKeeps_evWrite {e k ea bs fl} : EffKeeps (evWrite e k ea bs fl) := by
  unfold evWrite
  split
  · exact effKeeps_stop
  · exact effKeeps_ok (fun _ h1 => keeps_mapCore (keeps_coreWrite h1)) keeps_id

theorem effKeeps_evGld {e d k a sz off} : EffKeeps (evGld e d k a sz off) := effKeeps_evRead

theorem effKeeps_evGst {e d k a sz off} : EffKeeps (evGst e d k a sz off) := effKeeps_evWrite

theorem effKeeps_evGldf {e d k a sz off} : EffKeeps (evGldf e d k a sz off) := effKeeps_evRead

theorem effKeeps_evGstf {e d k a sz off} : EffKeeps (evGstf e d k a sz off) := effKeeps_evWrite

theorem effKeeps_evKld {e d a b} : EffKeeps (evKld e d a b) := effKeeps_evRead

theorem effKeeps_evKst {e d a b} : EffKeeps (evKst e d a b) := by
  unfold evKst
  extract_lets
  split
  · exact effKeeps_stop
  · exact effKeeps_ok keeps_coreWriteCap keeps_id

theorem effKeeps_evLdw {e d a} : EffKeeps (evLdw e d a) := effKeeps_ite effKeeps_stop (by
  split
  · exact effKeeps_stop
  · exact effKeeps_pendRead)

theorem effKeeps_evPanq {e d k a} : EffKeeps (evPanq e d k a) := by
  unfold evPanq
  extract_lets
  split
  next hx =>
    obtain ⟨hf, hc⟩ := effKeeps_evRead.of_ok hx
    exact effKeeps_ok hf hc
  next hx => exact effKeeps_evRead.of_error hx

theorem effKeeps_evKnarrow {e d a b} : EffKeeps (evKnarrow e d a b) := by
  unfold evKnarrow
  extract_lets
  split
  · exact effKeeps_stop
  · exact effKeeps_ite effKeeps_stop effKeeps_later

theorem effKeeps_evKtrim {e d a b} : EffKeeps (evKtrim e d a b) := by
  unfold evKtrim
  extract_lets
  split
  · exact effKeeps_stop
  · exact effKeeps_later

theorem effKeeps_evKlock {e d a b} : EffKeeps (evKlock e d a b) := by
  unfold evKlock
  extract_lets
  split
  · exact effKeeps_stop
  · exact effKeeps_stop
  · exact effKeeps_ite effKeeps_stop effKeeps_later

theorem effKeeps_evKopen {e d a} : EffKeeps (evKopen e d a) := by
  refine effKeeps_ite effKeeps_stop (effKeeps_ite effKeeps_stop ?_)
  split
  · exact effKeeps_stop
  · exact effKeeps_ite effKeeps_stop effKeeps_later

theorem effKeeps_evCap {e fn d a b} : EffKeeps (evCap e fn d a b) := by
  unfold evCap
  split
  · exact effKeeps_later
  · exact effKeeps_later
  · exact effKeeps_evKnarrow
  · exact effKeeps_evKtrim
  · exact effKeeps_evKlock
  · exact effKeeps_evKopen
  · exact effKeeps_later
  · exact effKeeps_later
  · exact effKeeps_now

theorem keeps_predict {n x} : Keeps (predict n x) := fun _ h =>
  canon_ite h (canon_ite (canon_ite (keeps_incFld h) h) (keeps_mapCore (canon_when (canon_when (canon_ite (keeps_incFld
    h) h) fun h1 => keeps_incFld h1) fun h1 => keeps_incFld h1)))

theorem keeps_xferWindow {n x} : KeepsExc (xferWindow n x) := fun _ h => by
  refine canonExc_ite (canonExc_ok h) ?_
  split
  · exact keeps_spillIfFull h
  · exact keeps_spillIfFull h
  · exact keeps_fill h
  · exact canonExc_ok h

theorem keeps_withWscap {e f} (hf : Keeps f) : Keeps (withWscap e f) := fun _ h => keeps_mapCore (hf (keeps_mapCore h))

theorem keeps_xferGo {n x} : Keeps (xferGo n x) := fun _ h => by
  refine keeps_mapCore (keeps_predict ?_)
  split
  · exact ((keeps_xferWindow h).of_ok ‹_›)
  · exact h

theorem effKeeps_evXfer {e kind target an} : EffKeeps (evXfer e kind target an) := by
  unfold evXfer
  extract_lets
  split
  · exact effKeeps_stop
  · exact effKeeps_ok (fun _ h => keeps_mapCore h) (keeps_withWscap fun _ h => keeps_xferGo h)

theorem effKeeps_evJump {e fn a} : EffKeeps (evJump e fn a) := by
  unfold evJump
  split
  · exact effKeeps_evXfer
  · exact effKeeps_evXfer
  · exact effKeeps_evXfer

theorem effKeeps_evLoop {e count off} : EffKeeps (evLoop e count off) := effKeeps_ite effKeeps_stop (effKeeps_ite
    (effKeeps_ok (fun _ h1 => keeps_mapCore h1) (fun _ h1 => keeps_mapCore h1)) effKeeps_now)

theorem keeps_repGo {e ni k} : Keeps (repGo e ni k) := fun _ h => keeps_mapCore h

theorem effKeeps_evRep {e ni reg a count} : EffKeeps (evRep e ni reg a count) := effKeeps_ite effKeeps_stop
    (effKeeps_ite effKeeps_stop (effKeeps_ok keeps_id keeps_repGo))

theorem effKeeps_evTimed {e reached w} : EffKeeps (evTimed e reached w) := effKeeps_now

theorem effKeeps_evWait {e fn a} : EffKeeps (evWait e fn a) := by
  unfold evWait
  split
  · exact effKeeps_ite effKeeps_now effKeeps_now
  · exact effKeeps_ok (fun _ h1 => canon_foldl (fun _ _ h2 => canon_ite (keeps_evfArrive h2) h2) h1) keeps_id
  · exact effKeeps_evTimed
  · exact effKeeps_evTimed
  · split
    · exact effKeeps_stop
    · exact effKeeps_error (fun _ h1 => keeps_eretLevel (keeps_taskLeave h1))
    · exact effKeeps_ok keeps_id (fun _ h1 => keeps_tend h1)
  · exact effKeeps_ok keeps_pulse keeps_id

theorem keeps_tlbiGo {n t} : Keeps (tlbiGo n t) := fun _ h =>
  keeps_incFld (canon_foldl (fun _ _ h1 => keeps_mapCore h1) h)

theorem effKeeps_evSetbank {e a b} : EffKeeps (evSetbank e a b) := by
  unfold evSetbank
  extract_lets
  split
  · exact effKeeps_stop
  · exact effKeeps_ite effKeeps_stop effKeeps_now

theorem effKeeps_evCsw {e a} : EffKeeps (evCsw e a) := by
  unfold evCsw
  extract_lets
  split
  · exact effKeeps_stop
  · exact effKeeps_ok keeps_id (fun _ h1 => keeps_mapCore h1)

theorem effKeeps_evEret {e} : EffKeeps (evEret e) :=
  effKeeps_ite (effKeeps_ok keeps_id fun _ h => keeps_deret h) (effKeeps_ite effKeeps_stop (by
    split
    · exact effKeeps_error fun _ h => keeps_eretLevel h
    · exact effKeeps_ok keeps_id (keeps_withWscap fun _ h => keeps_eretLevel h)))

theorem effKeeps_evSys {e fn d a b} : EffKeeps (evSys e fn d a b) := by
  unfold evSys
  split
  · exact effKeeps_ok keeps_id keeps_id
  · exact effKeeps_ok keeps_id (fun _ h1 => keeps_mapCore h1)
  · exact effKeeps_later
  · exact effKeeps_now
  · split
    · exact effKeeps_later
    · exact effKeeps_ok (fun _ h1 => keeps_stepFree (keeps_mapCore h1)) keeps_id
  · exact effKeeps_ite effKeeps_stop effKeeps_now
  · exact effKeeps_evCsw
  · exact effKeeps_evEret
  · exact effKeeps_stop
  · exact effKeeps_ite (effKeeps_ok keeps_id keeps_id) (effKeeps_ok keeps_tlbiGo keeps_id)
  · exact effKeeps_ok keeps_id keeps_id
  · exact effKeeps_evSetbank
  · exact effKeeps_later

theorem effKeeps_startFdiv {e x} : EffKeeps (startFdiv e x) := effKeeps_now

theorem effKeeps_evFp {e dbl fn d a b} : EffKeeps (evFp e dbl fn d a b) := effKeeps_ite effKeeps_startFdiv
    effKeeps_later

theorem effKeeps_evFun {e fn d a} : EffKeeps (evFun e fn d a) := effKeeps_ite effKeeps_startFdiv effKeeps_later

theorem effKeeps_evFcmp {e d a b cond} : EffKeeps (evFcmp e d a b cond) := effKeeps_later

theorem effKeeps_evFxfer {e fn d a} : EffKeeps (evFxfer e fn d a) := effKeeps_ite effKeeps_later effKeeps_later

theorem effKeeps_evQ {e ty fn d a b} : EffKeeps (evQ e ty fn d a b) := by
  unfold evQ
  split
  · exact effKeeps_later
  · exact effKeeps_later
  · exact effKeeps_later

theorem effKeeps_evQmov {e fn d a b} : EffKeeps (evQmov e fn d a b) := by
  unfold evQmov
  split
  · exact effKeeps_later
  · exact effKeeps_later
  · exact effKeeps_later
  · exact effKeeps_later

theorem effKeeps_evQsrch {e d w a ty mx} : EffKeeps (evQsrch e d w a ty mx) := effKeeps_later

theorem effKeeps_evOp {e a} : EffKeeps (evOp e a) := by
  unfold evOp
  split
  · exact effKeeps_ok keeps_id keeps_id
  · exact effKeeps_evAlu
  · exact effKeeps_evImm
  · exact effKeeps_evShi
  · exact effKeeps_evMovi
  · exact effKeeps_evMovhi
  · exact effKeeps_evCmp
  · exact effKeeps_evCmpi
  · exact effKeeps_evMul
  · exact effKeeps_evDiv
  · exact effKeeps_evBcd
  · exact effKeeps_evPred
  · exact effKeeps_evLld
  · exact effKeeps_evLst
  · exact effKeeps_evGld
  · exact effKeeps_evGst
  · exact effKeeps_evLldf
  · exact effKeeps_evLstf
  · exact effKeeps_evGldf
  · exact effKeeps_evGstf
  · exact effKeeps_evKld
  · exact effKeeps_evKst
  · exact effKeeps_evLdw
  · exact effKeeps_evCap
  · exact effKeeps_evPanq
  · exact effKeeps_evXfer
  · exact effKeeps_evXfer
  · exact effKeeps_evJump
  · exact effKeeps_evLoop
  · exact effKeeps_evLoop
  · exact effKeeps_evRep
  · exact effKeeps_evWait
  · exact effKeeps_evSys
  · exact effKeeps_evFp
  · exact effKeeps_evFun
  · exact effKeeps_evFcmp
  · exact effKeeps_evFxfer
  · exact effKeeps_evQ
  · exact effKeeps_evQmov
  · exact effKeeps_evQsrch

theorem effKeeps_evSyl {e x} : EffKeeps (evSyl e x) := effKeeps_ite effKeeps_evOp (effKeeps_ite (effKeeps_ok keeps_id
    keeps_id) (effKeeps_ite effKeeps_evOp (effKeeps_ite (effKeeps_ok keeps_id (fun _ h1 => keeps_mapCore h1))
    (effKeeps_ok keeps_id keeps_id))))

/-! ## Issue -/

theorem keeps_repDone {n r next ends} : Keeps (repDone n r next ends) := fun _ h =>
  canon_ite (keeps_mapCore h) (keeps_mapCore (canon_ite (keeps_maxSpan h) h))

theorem keeps_finish {n x r next ends} : Keeps (finish n x r next ends) := fun _ h => by
  unfold finish
  split
  · exact keeps_mapCore h
  · exact keeps_repDone h
  · exact keeps_mapCore h

/-- The effects keep the canonical form. -/
def EffsKeep (fs : List Eff) : Prop := ∀ f ∈ fs, Keeps f.fx ∧ Keeps f.ctl

theorem effsKeep_nil : EffsKeep [] := List.forall_mem_nil _

theorem effsKeep_cons {f fs} (hf : Keeps f.fx ∧ Keeps f.ctl) (hfs : EffsKeep fs) : EffsKeep (f :: fs) :=
  List.forall_mem_cons.2 ⟨hf, hfs⟩

/-- The outcome of a bundle keeps the canonical form: the effects of its syllables, or what stays of an exception. -/
def BundleKeeps : Except (Stop × Nat) (List Eff) → Prop
  | .error t => Keeps t.1.keep
  | .ok fs => EffsKeep fs

theorem BundleKeeps.of_error {x t} (h : BundleKeeps x) (e : x = .error t) : Keeps t.1.keep := by rwa [e] at h
theorem BundleKeeps.of_ok {x fs} (h : BundleKeeps x) (e : x = .ok fs) : EffsKeep fs := by rwa [e] at h

theorem bundleKeeps_evAll {e xs i} : BundleKeeps (evAll e xs i) := by
  induction xs generalizing i with
  | nil => exact effsKeep_nil
  | cons x xs ih =>
    unfold evAll
    split
    · exact effKeeps_evSyl.of_error ‹_›
    · have hf := effKeeps_evSyl.of_ok ‹_›
      split
      · exact ih.of_error ‹_›
      · exact effsKeep_cons hf (ih.of_ok ‹_›)

theorem keeps_countBundle {n} : Keeps (countBundle n) := fun _ h => canon_ite (keeps_incFld h) h

theorem keeps_countBank {n hit} : Keeps (countBank n hit) := fun _ h => canon_ite (keeps_incFld (keeps_incFld h)) h

theorem keeps_applyAll {n fs} (hfs : EffsKeep fs) : Keeps (applyAll n fs) := fun _ h =>
  List.foldlRecOn fs _ (List.foldlRecOn fs _ (keeps_mapCore h) fun _ ht f hf => (hfs f hf).1 ht)
    fun _ ht f hf => (hfs f hf).2 ht

theorem keeps_fetchSyl_error {s n c addr t} (e : fetchSyl s n c addr = .error t) : Keeps t.keep := by
  unfold fetchSyl at e
  split at e
  · cases e
    exact keeps_id
  · dsimp only at e
    split at e
    · cases e
      exact fun _ h => keeps_decodeErr h
    · cases e
      exact fun _ h => keeps_decodeErr h
    · split at e
      · split at e
        · cases e
        · split at e
          · cases e
            exact fun _ h => keeps_uePost h
          · cases e
            exact keeps_id
      · split at e
        · cases e
          exact fun _ h => keeps_coreRead h
        · cases e

theorem keeps_fetchSyls_error {s n c k addr t} (e : fetchSyls s n c k addr = .error t) : Keeps t.keep := by
  induction k generalizing addr with
  | zero => cases e
  | succ k ih =>
    unfold fetchSyls at e
    split at e
    · cases e
      exact keeps_fetchSyl_error ‹_›
    · split at e
      · cases e
        exact ih ‹_›
      · cases e

theorem keeps_fetchFault_error {s n c addr k t} (e : fetchFault s n c addr k = .error t) : Keeps t.keep := by
  unfold fetchFault at e
  split at e
  · cases e
    exact keeps_id
  · exact keeps_fetchSyls_error e

theorem keeps_bodyFault {n c b t} (e : bodyFault n c b = some t) : Keeps t.keep := by
  unfold bodyFault at e
  split at e
  · cases e
  · split at e
    · cases e
      exact keeps_id
    · cases e
      exact fun _ h => keeps_mapCore h
    · cases e

/-- What stays of a bundle that takes an exception is canonical. -/
theorem keeps_judge_error {s n addr b t} (e : judge s n addr b = .error t) : Keeps t.1.keep := by
  unfold judge at e
  extract_lets next c at e
  split at e
  · cases e
    exact keeps_fetchFault_error ‹_›
  · split at e
    · cases e
      exact keeps_bodyFault ‹_›
    · split at e
      · cases e
        exact keeps_id
      · split at e
        · cases e
          exact bundleKeeps_evAll.of_error ‹_›
        · cases e

/-- The effects of a bundle that takes none keep the canonical form. -/
theorem effsKeep_judge_ok {s n addr b xs fs} (e : judge s n addr b = .ok (xs, fs)) : EffsKeep fs := by
  unfold judge at e
  extract_lets next c at e
  split at e
  · cases e
  · split at e
    · cases e
    · split at e
      · cases e
      · split at e
        · cases e
        · cases e
          exact bundleKeeps_evAll.of_ok ‹_›

theorem keeps_commit {n addr b xs fs} (hfs : EffsKeep fs) : Keeps (commit n addr b xs fs) := fun _ h =>
  keeps_finish (keeps_applyAll hfs (keeps_countBank (keeps_countBundle (keeps_setCore h))))

theorem keeps_annulled {n addr b x} : Keeps (annulled n addr b x) := fun _ h =>
  keeps_finish (keeps_countBundle (keeps_setCore h))

theorem keeps_issueLinked {n addr b} : KeepsOpt (issueLinked n addr b) := fun _ h => by
  unfold issueLinked
  extract_lets
  split
  · exact canonOpt_some (keeps_annulled h)
  · split
    · exact canonOpt_some (keeps_raise (keeps_judge_error ‹_› (keeps_mapCore h)))
    · exact canonOpt_ite canonOpt_none (canonOpt_ite (canonOpt_some (keeps_overrun h)) (canonOpt_ite
        (canonOpt_some (keeps_lockstep h)) (canonOpt_some (keeps_commit (effsKeep_judge_ok ‹_›) h))))

theorem keeps_issueBundle {n addr b} : KeepsOpt (issueBundle n addr b) := fun _ h => keeps_issueLinked (keeps_mapCore h)

theorem keeps_repStep {n} : KeepsOpt (repStep n) := fun _ h => by
  unfold repStep
  split
  · exact canonOpt_ite canonOpt_none (keeps_issueBundle h)
  · exact canonOpt_none

theorem keeps_frontStep {n} : KeepsOpt (frontStep n) := fun _ h => by
  unfold frontStep
  extract_lets
  split
  · exact canonOpt_none
  · exact canonOpt_ite canonOpt_none (keeps_issueBundle (keeps_setCore h))

theorem keeps_niOverrun {n} : KeepsOpt (niOverrun n) := fun _ h =>
  canonOpt_ite (canonOpt_some (keeps_doubleFault h)) canonOpt_none

theorem keeps_evwTimeout {n} : KeepsOpt (evwTimeout n) := fun _ h => by
  unfold evwTimeout
  split
  · exact canonOpt_ite (canonOpt_some (keeps_mapCore h)) canonOpt_none
  · exact canonOpt_none

theorem keeps_waitReached {n} : KeepsOpt (waitReached n) := fun _ h => by
  unfold waitReached
  split
  · exact canonOpt_ite (canonOpt_some (keeps_mapCore h)) canonOpt_none
  · exact canonOpt_ite (canonOpt_some (keeps_mapCore h)) canonOpt_none
  · exact canonOpt_none

theorem keeps_budgetExpiry {n} : KeepsOpt (budgetExpiry n) := fun _ h => by
  unfold budgetExpiry
  split
  · exact canonOpt_ite (canonOpt_some (keeps_overrun h)) canonOpt_none
  · exact canonOpt_none

theorem keeps_dueFirst {n} : KeepsOpt (dueFirst n) := fun _ h => by
  unfold dueFirst
  split
  · exact canonOpt_some ((keeps_niOverrun h).of_some ‹_›)
  · split
    · exact canonOpt_some ((keeps_budgetExpiry h).of_some ‹_›)
    · split
      · exact canonOpt_some ((keeps_recognise h).of_some ‹_›)
      · split
        · exact canonOpt_some ((keeps_evwTimeout h).of_some ‹_›)
        · exact keeps_waitReached h

theorem keeps_issueNext {n} : KeepsOpt (issueNext n) := fun _ h => by
  refine canonOpt_ite canonOpt_none ?_
  split
  · exact canonOpt_some ((keeps_dueFirst h).of_some ‹_›)
  · split
    · exact canonOpt_ite canonOpt_none (keeps_repStep h)
    · exact keeps_frontStep h

theorem keeps_pump {k n} : Keeps (pump k n) := fun s h => by
  induction k generalizing s with
  | zero => exact h
  | succ k ih =>
    unfold pump
    split
    · exact ih _ ((keeps_issueNext h).of_some ‹_›)
    · exact h

theorem keeps_pumpCore {n} : Keeps (pumpCore n) := fun _ h => keeps_pump h

theorem keeps_pumpAll : Keeps pumpAll := fun _ h => canon_foldl (fun _ _ h1 => keeps_pumpCore h1) h

theorem keeps_wrongPath {n addr b} : Keeps (wrongPath n addr b) := fun _ h => by
  unfold wrongPath
  refine canon_ite h ?_
  extract_lets slot next t
  have ht : Canon t := canon_ite (keeps_incFld h) h
  split
  · exact keeps_mapCore ht
  · exact keeps_mapCore ht
  · exact keeps_mapCore ht
  · exact ht

theorem keeps_arrived {n b} : Keeps (arrived n b) := fun _ h => by
  unfold arrived
  split
  · exact keeps_wrongPath h
  · exact canon_ite h (keeps_pumpCore (keeps_setCore h))

theorem keeps_arrive {n x} : Keeps (arrive n x) := fun _ h =>
  canon_ite h (canon_ite (keeps_setCore h) (keeps_arrived (keeps_setCore h)))

theorem keeps_loadReturn {n i ups} : Keeps (loadReturn n i ups) := fun _ h => by
  simp only [loadReturn]
  split
  · exact h
  · split
    · refine keeps_pumpCore (keeps_raise (keeps_coreRead (keeps_mapCore ?_)))
      split
      · exact keeps_upset h
      · exact h
    · refine keeps_pumpCore (keeps_mapCore (keeps_loadResult (keeps_loadRead (keeps_mapCore ?_))))
      split
      · exact keeps_upset h
      · exact h

theorem keeps_divComplete {n} : Keeps (divComplete n) := fun _ h => keeps_pumpCore (keeps_mapCore h)

theorem keeps_fdivComplete {n} : Keeps (fdivComplete n) := fun _ h => by
  unfold fdivComplete
  split
  · exact h
  · exact keeps_pumpCore (keeps_mapCore h)

theorem keeps_fillRequest {n line kind} : Keeps (fillRequest n line kind) := fun _ h =>
  canon_unless (keeps_setCore h) fun h1 => canon_when (keeps_mapCore h1) fun h2 => keeps_incFld h2

theorem keeps_fillAccept {n line} : Keeps (fillAccept n line) := fun _ h => by
  unfold fillAccept
  split
  · exact h
  · exact canon_unless (keeps_mapCore h) fun h1 => canon_ite (keeps_incFld h1) (keeps_incFld h1)

theorem keeps_fillDone1 {n line} : Keeps (fillDone1 n line) := fun _ h => by
  refine canon_ite h (keeps_mapCore ?_)
  split
  · exact keeps_fillReadFx h
  · exact h

theorem keeps_lineFill {n line kind reqs} : Keeps (lineFill n line kind reqs) := fun _ h =>
  keeps_fillDone1 (keeps_fillAccept (keeps_fillRequest (canon_foldl (fun _ _ h1 => canon_when (keeps_fillRequest h1)
    fun h2 => keeps_fillAccept h2) h)))

theorem keeps_interrupt {n} : Keeps (interrupt n) := fun _ h => by
  unfold interrupt
  split
  · exact keeps_pumpCore ((keeps_recognise h).of_some ‹_›)
  · exact h

theorem keeps_repnCut {n} : Keeps (repnCut n) := fun _ h => by
  unfold repnCut
  extract_lets
  split
  · exact canon_ite (keeps_interrupt h) h
  · exact h

theorem keeps_coreEvent {f n} (hf : ∀ n, KeepsOpt (f n)) : Keeps (coreEvent f n) := fun _ h => by
  unfold coreEvent
  split
  · exact keeps_pumpCore ((hf n h).of_some ‹_›)
  · exact h

theorem keeps_tlbiApply {n} : Keeps (tlbiApply n) := fun _ h => by
  unfold tlbiApply
  split
  · exact h
  · exact canon_ite h (keeps_pumpAll (keeps_incFld (keeps_mapCore h)))

theorem keeps_dropAnd {n cause p} : Keeps (dropAnd n cause p) := fun _ h =>
  canon_when (keeps_dropTasks h) fun h1 => keeps_afterStop h1

/-! ## Debug -/

theorem keeps_dbgDone {bs} : Keeps (dbgDone bs) := fun _ h => keeps_dbgReply h

theorem keeps_dbgRefuse : Keeps dbgRefuse := fun _ h => keeps_dbgReply h

theorem keeps_dbgCore {f} (hf : Keeps f) : Keeps (dbgCore f) := fun _ h => canon_ite (hf h) (keeps_dbgRefuse h)

theorem keeps_dbgHalt {n} : Keeps (dbgHalt n) := fun _ h =>
  keeps_dbgCore (fun _ h1 => keeps_dbgDone (keeps_mapCore h1)) h

theorem keeps_dbgResume {n} : Keeps (dbgResume n) := fun _ h =>
  keeps_dbgCore (fun _ h1 => keeps_dbgDone (keeps_pumpCore (keeps_mapCore h1))) h

theorem keeps_dbgStep {n} : Keeps (dbgStep n) := fun _ h =>
  keeps_dbgCore (fun _ h1 => canon_ite (keeps_dbgDone (keeps_pumpCore (keeps_mapCore h1))) (keeps_dbgRefuse h1)) h

theorem keeps_dbgReadReg {n r} : Keeps (dbgReadReg n r) := fun _ h => by
  refine keeps_dbgCore (fun _ h1 => ?_) h
  split
  · exact canon_when (keeps_dbgDone h1) fun h2 => keeps_stepFree h2
  · exact keeps_dbgDone h1

theorem keeps_dbgWriteReg {n r v} : Keeps (dbgWriteReg n r v) := fun _ h =>
  keeps_dbgCore (fun _ h1 => keeps_dbgDone (keeps_mapCore h1)) h

theorem keeps_dbgReadMem {a len} : Keeps (dbgReadMem a len) := fun _ h => by
  refine canon_ite (keeps_dbgRefuse h) ?_
  split
  · refine keeps_dbgReply ?_
    split
    · exact keeps_salReadFx h
    · exact h
  · split
    · exact keeps_dbgDone (keeps_busRead h)
    · exact keeps_dbgDone (keeps_salReadFx h)
    · exact keeps_dbgDone (keeps_decodeErr h)
    · exact keeps_dbgDone h

theorem keeps_dbgWriteMem {a bs} : Keeps (dbgWriteMem a bs) := fun _ h => by
  refine canon_ite ?_ (keeps_dbgRefuse h)
  split
  · exact keeps_dbgDone (keeps_busWrite h)
  · exact keeps_dbgDone (keeps_memWrite h)

theorem keeps_dbgReboot : Keeps dbgReboot := fun _ h =>
  canon_ite (keeps_bootCold (keeps_dbgDone (keeps_setCore (keeps_setFlag h)))) (keeps_dbgRefuse h)

theorem keeps_dbgDo {r} : Keeps (dbgDo r) := fun _ h => by
  cases r with
  | halt => exact keeps_dbgHalt h
  | resume => exact keeps_dbgResume h
  | step => exact keeps_dbgStep h
  | readReg => exact keeps_dbgReadReg h
  | writeReg => exact keeps_dbgWriteReg h
  | readMem => exact keeps_dbgReadMem h
  | writeMem => exact keeps_dbgWriteMem h
  | reboot => exact keeps_dbgReboot h
  | challenge => exact keeps_challenge h
  | unlock => exact keeps_unlock h

theorem keeps_dbgServe : Keeps dbgServe := fun _ h => canon_foldl (fun _ _ h1 => keeps_dbgDo h1) (keeps_slSet h)

theorem keeps_dbgRow {r} : Keeps (dbgRow r) := fun _ h => keeps_dbgServe (keeps_pull (keeps_slSend h))

theorem keeps_cellRow {dir p data ack good} : Keeps (cellRow dir p data ack good) := fun _ h =>
  keeps_dbgServe (keeps_cellReceive h)

/-! ## Tick -/

theorem keeps_countStall {n} : Keeps (countStall n) := fun _ h => by
  refine canon_ite h ?_
  split
  · exact canon_ite (keeps_incFld h) h
  · split
    · exact h
    · exact keeps_incFld h

theorem keeps_coreCycle {n} : Keeps (coreCycle n) := fun _ h => by
  refine canon_ite h (keeps_pumpCore ?_)
  split
  · exact ((keeps_dueFirst (keeps_mapCore (keeps_countStall h))).of_some ‹_›)
  · split
    · exact ((keeps_repStep (keeps_mapCore (keeps_countStall h))).of_some ‹_›)
    · exact keeps_mapCore (keeps_countStall h)

theorem keeps_coreCycles : Keeps coreCycles := fun _ h => canon_foldl (fun _ _ h1 => keeps_coreCycle h1) h

theorem keeps_boundaryWork {t0} : Keeps (boundaryWork t0) := fun _ h =>
  canon_ite h (keeps_unlessFrozen keeps_plBoundary (keeps_unlessFrozen keeps_rkBoundary (keeps_tallyBoundary
    (keeps_cryBoundary h))))

theorem keeps_angleStep {inc} : Keeps (angleStep inc) := fun _ h =>
  keeps_boundaryWork (keeps_acSteps (canon_ite h (keeps_tbAdvance h)))

theorem keeps_clockStep {m} : Keeps (clockStep m) := fun _ h =>
  keeps_ptpAdvance (keeps_shAdvance (keeps_wr64 (keeps_rngFill h)))

theorem keeps_cclk : Keeps cclk := fun _ h =>
  keeps_coreCycles (keeps_fabricDue (keeps_deliverDue (canon_when (keeps_gtDeferred (keeps_angleStep (keeps_clockStep
    h))) fun h1 => keeps_gtEdges h1)))

theorem keeps_gtDrift {n} : Keeps (gtDrift n) := fun _ h =>
  canon_ite h (canon_unless (canon_mk (keeps_setFlag h)) fun h1 => keeps_post h1)

theorem keeps_lfTick : Keeps lfTick := fun _ h =>
  keeps_coreCycles (keeps_fabricDue (keeps_deliverDue (keeps_gtEdges (keeps_gtDeferred (keeps_angleStep (canon_when
    (keeps_clockStep h) fun h1 => canon_foldl (fun _ _ h2 => keeps_gtDrift h2) (canon_ite (keeps_setPost h1) h1)))))))

theorem keeps_timeStep : Keeps timeStep := fun _ h => by
  unfold timeStep
  split
  · exact keeps_cclk h
  · exact keeps_lfTick h

theorem keeps_timeSteps {k} : Keeps (timeSteps k) := fun s h => by
  induction k generalizing s with
  | zero => exact h
  | succ k ih => exact ih _ (keeps_timeStep h)

theorem keeps_runTo {a k} : Keeps (runTo a k) := fun s h => by
  induction k generalizing s with
  | zero => exact h
  | succ k ih => exact canon_ite h (ih _ (keeps_timeSteps h))

theorem keeps_tickBoundary : Keeps tickBoundary := fun _ h => keeps_runTo h

theorem keeps_rkSwapped : Keeps rkSwapped := fun _ h =>
  canon_ite (canon_when (keeps_tickBoundary h) fun h1 => keeps_tickBoundary h1) h

theorem keeps_nApplied : Keeps nApplied := fun _ h => by
  unfold nApplied
  split
  · exact h
  · exact keeps_runTo h

theorem keeps_acMatchRow {n} : Keeps (acMatchRow n) := fun _ h => by
  unfold acMatchRow
  split
  · exact h
  · exact canon_ite (keeps_timeStep h) (keeps_runTo h)

theorem keeps_launchRow {bad} : Keeps (launchRow bad) := fun _ h =>
  canon_ite h (canon_unless (keeps_panLaunchPoint h) fun h1 => keeps_pumpAll (keeps_stopLaunches (canon_foldl (fun _ _
    h2 => keeps_dropAnd h2) h1)))

theorem keeps_panDoneRow : Keeps panDoneRow := fun _ h => keeps_pumpAll (keeps_panDonePoint h)

/-! ## Rows -/

theorem keeps_pageCtrlRow {die pg f} : Keeps (pageCtrlRow die pg f) := fun _ h => keeps_regWriteRow h

theorem keeps_halfRead {master r high} : Keeps (halfRead master r high) := fun _ h => keeps_emit (keeps_pageRead h)

theorem keeps_rngReadRow {master} : Keeps (rngReadRow master) := fun _ h => keeps_emit (keeps_rngRead h)

theorem keeps_acCmpRow {n p} : Keeps (acCmpRow n p) := fun _ h => by
  unfold acCmpRow
  split
  · exact keeps_acCmpWrite64 h
  · exact keeps_acCmpWriteLow h
  · exact keeps_acCmpWriteHigh h

theorem keeps_laneModeRow {n v} : Keeps (laneModeRow n v) := fun _ h => keeps_laneModeApply (keeps_plainWrite h)

theorem keeps_doorbellRow {w} : Keeps (doorbellRow w) := fun _ h => by
  unfold doorbellRow
  split
  · exact keeps_doorbell h
  · exact keeps_doorbellBad h
  · exact keeps_emit h

theorem keeps_pairSignalRow {p} : Keeps (pairSignalRow p) := fun _ h => by
  unfold pairSignalRow
  split
  · exact keeps_pairSignal h
  · exact keeps_plSignal h

theorem keeps_pairLockRow {p} : Keeps (pairLockRow p) := fun _ h => by
  unfold pairLockRow
  split
  · exact keeps_pairLock h
  · exact keeps_plLock h

theorem keeps_pairUpRow {p rtF rtH} : Keeps (pairUpRow p rtF rtH) := fun _ h => by
  unfold pairUpRow
  split
  · exact keeps_pairMeasure h
  · exact keeps_plMeasure h

theorem keeps_pairDownRow {p} : Keeps (pairDownRow p) := fun _ h => by
  unfold pairDownRow
  split
  · exact keeps_pairFall h
  · exact keeps_plFall h

theorem keeps_pairRelockRow {p} : Keeps (pairRelockRow p) := fun _ h => by
  unfold pairRelockRow
  split
  · exact keeps_pairRelock h
  · exact keeps_plRelock h

theorem keeps_tlbRow {n op} : Keeps (tlbRow n op) := fun _ h =>
  canon_ite h (canon_ite (keeps_mapCore h) (keeps_pumpCore (keeps_raise h)))

/-! ## Every command -/

/-- The next state of the outcome, if it has one, is canonical. -/
def CanonOut : Host.Outcome State Fault Refusal → Prop
  | .next t => Canon t
  | _ => True

theorem CanonOut.of_next {o : Host.Outcome State Fault Refusal} {t : State} (h : CanonOut o) (e : o = .next t) : Canon t := by
  rwa [e] at h

theorem keeps_execSyl {n hd op} : Keeps (execSyl n hd op) := fun _ h => keeps_arrive h

theorem canonOut_exec {i : Instr} {s : State} (h : Canon s) : CanonOut (exec i s) := by
  cases i with
  | registerWrite | pageLockSet | evPendClear | evEnWrite => exact keeps_regWriteRow h
  | pageRst | pageFreeze => exact keeps_pageCtrlRow h
  | tickBoundary => exact keeps_tickBoundary h
  | floorExit => exact keeps_unlessFrozen (fun _ h1 => keeps_floorExit h1) h
  | tbEnable | tbDisable | cryEnableWrite | panEnableWrite | brineLinkEnable | rakeEnableWrite =>
    exact keeps_pageEnWrite h
  | tbLoadCopy => exact keeps_tbLoad h
  | tbNWrite => exact keeps_tbNWrite h
  | nApplied => exact keeps_nApplied h
  | tbTickMinWrite => exact keeps_tbTickMinWrite h
  | tbSrcWrite => exact keeps_tbSrcWrite h
  | gsyncEdge => exact keeps_unlessFrozen (fun _ h1 => keeps_gsyncEdge h1) h
  | gridSourceLost => exact keeps_unlessFrozen (fun _ h1 => keeps_gridLost h1) h
  | fabricTimeMessage => exact keeps_unlessFrozen (fun _ h1 => keeps_timeReceiveF h1) h
  | fabricSourceLost => exact keeps_unlessFrozen (fun _ h1 => keeps_fabricLost h1) h
  | lowHalfRead | highHalfRead => exact keeps_halfRead h
  | acCmpWrite => exact keeps_acCmpRow h
  | acReloadWrite => exact keeps_acReloadWrite h
  | acMatch => exact keeps_acMatchRow h
  | admitCtx => exact keeps_opAdmit h
  | probe => exact keeps_opProbe h
  | remove => exact keeps_opRemove h
  | replace => exact keeps_opReplace h
  | suspend => exact keeps_opSuspend h
  | resume => exact keeps_opResume h
  | read => exact keeps_opRead h
  | setcore => exact keeps_opSetcore h
  | opDone => exact keeps_opDone h
  | contextRelease => exact keeps_contextRelease h
  | launchPoint => exact keeps_launchRow h
  | panDonePoint => exact keeps_panDoneRow h
  | taskBudgetExpiry => exact keeps_unlessFrozen (keeps_coreEvent fun _ _ h1 => keeps_budgetExpiry h1) h
  | commandExpire => exact keeps_expire h
  | acceptByTimeout => exact keeps_unlessFrozen (fun _ h1 => keeps_acceptTimeout h1) h
  | ttDataWrite => exact keeps_ttDataWrite h
  | ttCommit => exact keeps_ttCommit h
  | salternReadRequest => exact keeps_salReadReq h
  | salternWriteRequest => exact keeps_salWriteReq h
  | rmapSet => exact keeps_rmapSet h
  | rmapClear => exact keeps_rmapClear h
  | rmapDone => exact keeps_unlessFrozen (fun _ h1 => keeps_rmapDone h1) h
  | fill => exact keeps_fillStart h
  | fillDone => exact keeps_unlessFrozen (fun _ h1 => keeps_fillDone h1) h
  | ceclr => exact keeps_ceClr h
  | panq | nop | add | sub | and | or | xor | andn | shl | shr | sar | ror | min | max | minu | maxu | adds | subs |
  abs | clz | popc | sextb | sexth | zexth | addi | andi | ori | xori | shi | movi | movhi | cmp | cmpi | mul | mulh |
  mulhu | mulq | macq | mac | divu | divs | badd | baddc | bsub | bsubc | bshl | bshr | bfromb | btob | pand | por |
  pxor | pandn | pnot | pmovw | wmovp | lld | lst | gld | gst | lldf | lstf | gldf | gstf | kld | kst | kmov | knarrow
  | ktrim | klock | kopen | kvoid | kfield | krds | kwrs | ldw | br | call | jr | callr | ret | loop | loopi | rep |
  repn | evw | evs | wta | wtt | tend | evch | fence | syncI | rdstat | wrstat | rdsys | wrsys | csw | eret | trap |
  tlbi | tlbsync | setbank | getbank | faddS | fsubS | fmulS | fdivS | fmaS | fminS | fmaxS | fnmaS | faddD | fsubD |
  fmulD | fdivD | fmaD | fminD | fmaxD | fnmaD | fsqrtS | fsqrtD | fnegS | fnegD | fabsS | fabsD | fmov | fcvtDS |
  fcvtSD | fcvtHS | fcvtSH | fcmp | fmvwf | fmvfw | fcvtws | fcvtsw | fcvtqs | fcvtsq | fcvtwd | fcvtdw | qadd | qsub
  | qmul | qmac | qmin | qmax | qabs | qneg | qsum | qcmp | qand | qor | qxor | qmov | qsplat | qbcast | qins | qext |
  qsrch =>
    exact keeps_execSyl h
  | launchedOrderIssue => exact keeps_unlessFrozen (fun _ h1 => keeps_orderIssue h1) h
  | launchedOrderStart => exact keeps_unlessFrozen (fun _ h1 => keeps_orderStart h1) h
  | bgOrderStart => exact keeps_unlessFrozen (fun _ h1 => keeps_bgStart h1) h
  | stripCommit => exact keeps_unlessFrozen (fun _ h1 => keeps_stripRun h1) h
  | bgResume => exact keeps_bgResume h
  | skip => exact keeps_bgSkip h
  | flush => exact keeps_bgFlush h
  | ringConfigWrite => exact keeps_ringConfigWrite h
  | patchenSet => exact keeps_patchSet h
  | quiet => exact keeps_unlessFrozen (fun _ h1 => keeps_patchQuiet h1) h
  | patchenClear => exact keeps_patchClear h
  | patchWordWrite => exact keeps_patchWordWrite h
  | dispatchEntryWrite => exact keeps_dispatchWrite1 h
  | patchidWrite => exact keeps_patchIdWrite h
  | pcsCeclr => exact keeps_pcsCeClr h
  | signalDetect => exact keeps_unlessFrozen (fun _ h1 => keeps_laneSignal h1) h
  | laneLock => exact keeps_unlessFrozen (fun _ h1 => keeps_laneTrain h1) h
  | trainingSetAnswer => exact keeps_unlessFrozen (fun _ h1 => keeps_trainAnswer h1) h
  | laneTrainDone => exact keeps_unlessFrozen (fun _ h1 => keeps_laneTrained h1) h
  | trainTimeout => exact keeps_unlessFrozen (fun _ h1 => keeps_trainTimeout h1) h
  | identityFrame => exact keeps_unlessFrozen (fun _ h1 => keeps_identFrame h1) h
  | idBad => exact keeps_unlessFrozen (fun _ h1 => keeps_identBad h1) h
  | laneSignalLoss => exact keeps_unlessFrozen (fun _ h1 => keeps_laneLoss h1) h
  | locklost => exact keeps_unlessFrozen (fun _ h1 => keeps_laneViolations h1) h
  | laneFramesLost => exact keeps_unlessFrozen (fun _ h1 => keeps_laneFramesLost h1) h
  | autotrainRetry => exact keeps_unlessFrozen (fun _ h1 => keeps_laneRetry h1) h
  | retraina | retrainb => exact keeps_laneRetrain h
  | reident => exact keeps_reident h
  | tickSend => exact keeps_unlessFrozen (fun _ h1 => keeps_tickSend h1) h
  | sampleFrameReceive => exact keeps_unlessFrozen (fun _ h1 => (keeps_sampleReceive (keeps_rkUpsets h1))) h
  | landingNoFrame => exact keeps_unlessFrozen (fun _ h1 => (keeps_landNoFrame (keeps_rkUpsets h1))) h
  | commandAreaClose => exact keeps_commandClose h
  | commandFrameSend => exact keeps_unlessFrozen (fun _ h1 => keeps_frameSend h1) h
  | grant | release => exact keeps_leaseOpWrite h
  | emstopFall => exact keeps_emFall h
  | eclr => exact keeps_rkEclr h
  | unlatch | unlatchAll => exact keeps_rkUnlatchReq h
  | maxclr => exact keeps_rkMaxClr h
  | swap => exact keeps_rkSwapReq h
  | swapped => exact keeps_unlessFrozen (fun _ h1 => keeps_rkSwapped h1) h
  | ruleEntryWrite => exact keeps_rkWdataWrite h
  | rkTestGo => exact keeps_rkTestGo h
  | testDone => exact keeps_unlessFrozen (fun _ h1 => keeps_rkTestDone h1) h
  | divisionComplete => exact keeps_unlessFrozen (fun _ h1 => keeps_divComplete h1) h
  | globalLoadReturn => exact keeps_unlessFrozen (fun _ h1 => keeps_loadReturn h1) h
  | repnCut => exact keeps_unlessFrozen (fun _ h1 => keeps_repnCut h1) h
  | evwTimeout => exact keeps_unlessFrozen (keeps_coreEvent fun _ _ h1 => keeps_evwTimeout h1) h
  | waitTargetReached => exact keeps_unlessFrozen (keeps_coreEvent fun _ _ h1 => keeps_waitReached h1) h
  | tlbiApply => exact keeps_tlbiApply h
  | tlbWrite | wrnext | tlbRead | tlbProbe => exact keeps_tlbRow h
  | lineFillComplete => exact keeps_unlessFrozen (fun _ h1 => keeps_lineFill h1) h
  | lbflush => exact keeps_lbFlush h
  | bpflush => exact keeps_bpFlush h
  | cntclr => exact keeps_cntClr h
  | interruptRecognition => exact keeps_unlessFrozen (fun _ h1 => keeps_interrupt h1) h
  | niOverrun => exact keeps_unlessFrozen (keeps_coreEvent fun _ _ h1 => keeps_niOverrun h1) h
  | gtCompareMatch => exact keeps_gtAdvance h
  | gtCmpWrite => exact keeps_gtCmpWrite h
  | gtCountWrite => exact keeps_gtCountWrite h
  | gtReloadWrite => exact keeps_gtReloadWrite h
  | gtClr => exact keeps_gtClr h
  | gtRunSet => exact keeps_gtRun h
  | egSwPulse => exact keeps_egSwPulse h
  | eventChannelDelivery => exact keeps_unlessFrozen (fun _ h1 => keeps_deliverChannel h1) h
  | evCfgWrite => exact keeps_evCfgWrite h
  | egCtrlWrite => exact keeps_egCtrlWrite h
  | doorbellWrite => exact keeps_doorbellRow h
  | createCmd => exact keeps_qopCreateCmd h
  | createEvt => exact keeps_qopCreateEvt h
  | delete => exact keeps_qopDelete h
  | qopRead => exact keeps_qopRead h
  | qopDone => exact keeps_unlessFrozen (fun _ h1 => keeps_qopDone h1) h
  | entryFetch => exact keeps_entryFetch h
  | fetchErr => exact keeps_unlessFrozen (fun _ h1 => keeps_fetchErr h1) h
  | commandSend => exact keeps_unlessFrozen (fun _ h1 => keeps_commandSend h1) h
  | journalCommit => exact keeps_unlessFrozen (fun _ h1 => keeps_journalCommit h1) h
  | journalAckReceive => exact keeps_unlessFrozen (fun _ h1 => keeps_ackReceive h1) h
  | acceptNoticeReceive => exact keeps_unlessFrozen (fun _ h1 => keeps_noticeReceive h1) h
  | completionReceive => exact keeps_unlessFrozen (fun _ h1 => keeps_completionReceive h1) h
  | journalRelease => exact keeps_unlessFrozen (fun _ h1 => keeps_journalRelease h1) h
  | eventRecordRoute => exact keeps_unlessFrozen (fun _ h1 => keeps_eventRoute h1) h
  | replay => exact keeps_replay h
  | replayDone => exact keeps_unlessFrozen (fun _ h1 => keeps_replayDone h1) h
  | tjRelease => exact keeps_tjRelease h
  | sluiceSignalDetect => exact keeps_unlessFrozen (fun _ h1 => keeps_pairSignalRow h1) h
  | sluicePairLock => exact keeps_unlessFrozen (fun _ h1 => keeps_pairLockRow h1) h
  | pairUp => exact keeps_unlessFrozen (fun _ h1 => keeps_pairUpRow h1) h
  | pairDown => exact keeps_unlessFrozen (fun _ h1 => keeps_pairDownRow h1) h
  | sluicePairRelock => exact keeps_unlessFrozen (fun _ h1 => keeps_pairRelockRow h1) h
  | sluiceCellReceive => exact keeps_unlessFrozen (fun _ h1 => keeps_cellRow h1) h
  | sluiceRetransmit => exact keeps_unlessFrozen (fun _ h1 => keeps_retransmit h1) h
  | init => exact keeps_initRow h
  | initAck => exact keeps_initAck h
  | dipOn => exact keeps_dipOn h
  | dipOff => exact keeps_dipOff h
  | telemetryRead => exact keeps_unlessFrozen (fun _ h1 => keeps_telemetryRead h1) h
  | telNew => exact keeps_unlessFrozen (fun _ h1 => keeps_telNew h1) h
  | harvestRecordReceive => exact keeps_unlessFrozen (fun _ h1 => keeps_harvestReceive h1) h
  | timeMessageSend => exact keeps_unlessFrozen (fun _ h1 => keeps_timeSend h1) h
  | timeMessageReceiveH => exact keeps_unlessFrozen (fun _ h1 => keeps_timeReceiveH h1) h
  | timeMessageDiscard => exact keeps_unlessFrozen (fun _ h1 => keeps_timeDiscard h1) h
  | ptpFrameReceive => exact keeps_unlessFrozen (fun _ h1 => keeps_ptpReceive h1) h
  | ptStep => exact keeps_ptStep h
  | ethFrameReceive => exact keeps_unlessFrozen (fun _ h1 => keeps_ethReceive h1) h
  | planSend => exact keeps_unlessFrozen (fun _ h1 => keeps_planSend h1) h
  | aggregateSend => exact keeps_unlessFrozen (fun _ h1 => keeps_aggregateSend h1) h
  | allocSend => exact keeps_unlessFrozen (fun _ h1 => keeps_allocSend h1) h
  | planReceive => exact keeps_unlessFrozen (fun _ h1 => keeps_planReceive h1) h
  | allocReceive => exact keeps_unlessFrozen (fun _ h1 => keeps_allocReceive h1) h
  | harvestRoundStart => exact keeps_unlessFrozen (fun _ h1 => keeps_roundStart h1) h
  | lockstep => exact keeps_lockstep h
  | s0Lockstep => exact keeps_s0Lockstep h
  | recover => exact keeps_recover h
  | autoRecover => exact keeps_autoRecover h
  | recovered => exact keeps_recovered h
  | inject => exact keeps_inject h
  | logicMismatch => exact keeps_logicMismatch h
  | halt | debugResume | step | readreg | writereg | readmem | writemem | reboot | challenge | unlock =>
    exact keeps_dbgRow h
  | pairFrameSend => exact keeps_unlessFrozen (fun _ h1 => keeps_pairSend h1) h
  | pairFrameReceive => exact keeps_unlessFrozen (fun _ h1 => keeps_pairReceive h1) h
  | pairLost => exact keeps_unlessFrozen (fun _ h1 => keeps_pairLost h1) h
  | join => exact keeps_joinWrite h
  | brownoutStart => exact keeps_brownoutStart h
  | brownWarn => exact keeps_brownWarn h
  | hDipStart => exact keeps_hDipStart h
  | hDipRecover => exact keeps_hDipRecover h
  | tempHigh => exact keeps_tempHigh h
  | refLost => exact keeps_refLost h
  | refOk => exact keeps_refOk h
  | pwrHalt | pwrSleep => exact keeps_pwrEnter h
  | fSleep => exact keeps_fSleep h
  | wake => exact keeps_wake h
  | wakef => exact keeps_wakeF h
  | coldBootF => exact keeps_coldBootF h
  | coldBootH => exact keeps_coldBootH h
  | fWarmReset => exact keeps_fWarmReset h
  | warmDone => exact keeps_warmDone h
  | hWarmReset => exact keeps_hWarmReset h
  | resyncDone => exact keeps_unlessFrozen (fun _ h1 => keeps_resyncDone h1) h
  | pcieHotReset => exact keeps_pcieHotReset h
  | framego => exact keeps_frameGo h
  | corerunWrite => exact keeps_coreRunWrite h
  | revoke => exact keeps_revoke h
  | drevoke => exact keeps_drevoke h
  | svnbump => exact keeps_svnBump h
  | lcadv => exact keeps_lcAdv h
  | otpDone => exact keeps_unlessFrozen (fun _ h1 => keeps_otpDone h1) h
  | reimageWrite => exact keeps_reimageWrite h
  | rngrst => exact keeps_rngRestart h
  | secRngRead => exact keeps_rngReadRow h
  | rngFail => exact keeps_unlessFrozen (fun _ h1 => keeps_rngFail h1) h
  | attest | identity => exact keeps_unlessFrozen (fun _ h1 => keeps_attest h1) h
  | attestationAnswer => exact keeps_unlessFrozen (fun _ h1 => keeps_attestAnswer h1) h
  | btnDown => exact keeps_unlessFrozen (fun _ h1 => keeps_btnDown h1) h
  | btnHold => exact keeps_unlessFrozen (fun _ h1 => keeps_btnHold h1) h
  | btnUp => exact keeps_unlessFrozen (fun _ h1 => keeps_btnUp h1) h
  | latchOpen => exact keeps_unlessFrozen (fun _ h1 => keeps_latchOpen h1) h
  | latchClose => exact keeps_unlessFrozen (fun _ h1 => keeps_latchClose h1) h
  | touch => exact keeps_unlessFrozen (fun _ h1 => keeps_touch h1) h
  | usbAttach => exact keeps_unlessFrozen (fun _ h1 => keeps_usbAttach h1) h
  | usbDetach => exact keeps_unlessFrozen (fun _ h1 => keeps_usbDetach h1) h
  | lamptest => exact keeps_lampTest h
  | lamptestEnd => exact keeps_unlessFrozen (fun _ h1 => keeps_lampTestEnd h1) h
  | fdivComplete => exact keeps_unlessFrozen (fun _ h1 => keeps_fdivComplete h1) h
  | journalWriteComplete => exact keeps_unlessFrozen (fun _ h1 => keeps_journalWriteComplete h1) h
  | pllUnlock => exact keeps_pllUnlock h
  | tempHighEnd => exact keeps_tempHighEnd h
  | emstopRise => exact keeps_emRise h
  | touchRelease => exact keeps_unlessFrozen (fun _ h1 => keeps_touchRelease h1) h
  | ethLinkUp => exact keeps_unlessFrozen (fun _ h1 => keeps_ethLinkUp h1) h
  | ethLinkDown => exact keeps_unlessFrozen (fun _ h1 => keeps_ethLinkDown h1) h
  | pcieLinkUp => exact keeps_unlessFrozen (fun _ h1 => keeps_linkUp h1) h
  | pcieD3hot => exact keeps_d3hot h
  | pairdisWrite => exact keeps_pairDisWrite h
  | lanemodeWrite => exact keeps_laneModeRow h
  | rateHoldWrite => exact keeps_rateHoldWrite h
  | tbGridSrcWrite => exact keeps_gridSrcWrite h
  | rngStartUpPassed => exact keeps_unlessFrozen (fun _ h1 => keeps_rngPassed h1) h

theorem canonOut_step {s : State} (h : Canon s) : CanonOut (step s) := by
  unfold step
  split
  · exact keeps_timeStep h
  · exact canonOut_exec (canon_mk h)

end Sys2Proof.Machine

open Sys2Proof Sys2Proof.Machine Sys2Proof.Claims

/-- Settles O60: whatever the command at the front of the queue, each of the operations that its row is made of keeps the
canonical form, and so does the step of time. -/
theorem canonicalKept : Obligations.CanonicalKept := by
  unfold Obligations.CanonicalKept
  intro s t hs ht
  exact (canonOut_step hs).of_next ht

end

section
/-!
PROOFS. Requests to the Saltern (R110 to R113, R119, R122, family 05): what issuing a request changes, what a read of a word
logs, what a write leaves, and the statement SalternAccess.
-/
namespace Sys2Proof.Machine
open Sys2Proof Sys2Proof.Claims

/-! ## What a row of the Saltern may change -/

/-- `t` differs from `s` in its registers, its Saltern and its outputs at most. -/
def RegsSal (s t : State) : Prop := ∃ r x o, t = { s with regs := r, sal := x, out := o }

theorem RegsSal.trans {s t u : State} (h : RegsSal s t) (g : RegsSal t u) : RegsSal s u := by
  obtain ⟨_, _, _, rfl⟩ := h
  obtain ⟨r, x, o, rfl⟩ := g
  exact ⟨r, x, o, rfl⟩
theorem regsSal_salSet (s : State) (f : SalState → SalState) : RegsSal s (s.salSet f) := ⟨s.regs, _, s.out, rfl⟩
theorem regsSal_emit (s : State) (o : Out) : RegsSal s (s.emit o) := ⟨s.regs, s.sal, _, rfl⟩
theorem regsSal_wr64 (s : State) (k v : Nat) : RegsSal s (s.wr64 k v) := ⟨_, s.sal, s.out, rfl⟩
theorem regsSal_setFlag (s : State) (f : Fld) (b : Bool) : RegsSal s (s.setFlag f b) := ⟨_, s.sal, s.out, rfl⟩

theorem RegsSal.noEvents {s t : State} (h : RegsSal s t) : NoEvents s t := by
  obtain ⟨r, x, o, rfl⟩ := h
  exact ⟨rfl, rfl, rfl, rfl, rfl⟩

/-- What an event raised last leaves, it leaves as it was at first. -/
theorem RegsSal.kept_evFrame {s t u : State} (h : RegsSal s t) (e : EvFrame t u) :
    Kept s { u with sal := s.sal, out := s.out } := by
  obtain ⟨r, x, o, rfl⟩ := h
  exact ⟨e.pending, e.shadow, e.free, rfl, e.mram, e.lmem, e.lmErr, e.tb, rfl, e.cry, e.pan, e.bl, e.rk, e.qe, e.tj,
    e.fab, e.dup, e.pwr, e.sec, e.pn, e.cores⟩
/-- With the outputs as they were. -/
theorem kept_of_out {s t : State} (h : Kept s { t with sal := s.sal, out := s.out }) (ho : t.out = s.out) :
    Kept s { t with sal := s.sal } := by
  obtain ⟨hpending, hshadow, hfree, -, hrest⟩ := h
  exact ⟨hpending, hshadow, hfree, ho, hrest⟩
theorem kept_emit {s t : State} (h : Kept s { t with sal := s.sal, out := s.out }) (o : Out) :
    Kept s { t.emit o with sal := s.sal, out := s.out } := h
theorem RegsSal.kept {s t : State} (h : RegsSal s t) : Kept s { t with sal := s.sal, out := s.out } :=
  h.kept_evFrame (EvFrame.refl t)

/-- The registers of `own` and those that an event of the Saltern's page touches may have changed. -/
theorem regsEv_post {s t : State} {own : List Nat} (h : Claims.Regs s t own) (b sev u c d : Nat) :
    RegsEv s (post 0x130 b sev u c d t) own [0x130] := fun k ho hp hg hd =>
  have hfree : evFree 0x130 k :=
    ⟨hp 0x130 (List.mem_singleton_self _), fun hk => by obtain ⟨h1, h2⟩ := hk; omega, hd⟩
  (rd_post 0x130 b sev u c d t hfree).trans (h k ho)

/-- A register of the Saltern's page that no event of it touches. -/
theorem evFree_sal {k : Nat} (h : k / 1024 = 0x130) (hk : k ≠ rEV_PEND 0x130) : evFree 0x130 k :=
  ⟨hk, fun hg => by have := hg.2; omega, by rintro rfl; revert h; decide⟩

theorem out_emit (s : State) (o : Out) : (s.emit o).out = o :: s.out := rfl
theorem pendBit_emit (s : State) (o : Out) (pg b : Nat) : pendBit (s.emit o) pg b = pendBit s pg b := by
  simp only [pendBit, rd_emit]

/-! ## Issuing a request (R122) -/

/-- Where nothing need return, every count stays as it was. -/
theorem storeGet_returnOf_zero (ps : List Nat) (x : List (Nat × Nat)) (k : Nat) :
    storeGet 0 (returnOf ps 0 x) k = storeGet 0 x k := by
  induction ps generalizing x with
  | nil => rfl
  | cons p r ih =>
    rw [returnOf, Nat.zero_sub, ih, storeGet_storeSet]
    split
    next h => rw [h, Nat.sub_zero]
    next => rfl

/-- `t` is `s` but for the requests in flight and their peaks. -/
def CountsOnly (s t : State) : Prop := ∃ pk fl, t = { s with sal := { s.sal with peak := pk, inflight := fl } }

theorem CountsOnly.salErr {s t : State} (h : CountsOnly s t) : salErr t = salErr s := by
  obtain ⟨_, _, rfl⟩ := h
  rfl
theorem CountsOnly.salTag {s t : State} (h : CountsOnly s t) : salTag t = salTag s := by
  obtain ⟨_, _, rfl⟩ := h
  rfl
theorem CountsOnly.salByte {s t : State} (h : CountsOnly s t) : salByte t = salByte s := by
  obtain ⟨_, _, rfl⟩ := h
  rfl
theorem CountsOnly.salBytes {s t : State} (h : CountsOnly s t) : salBytes t = salBytes s := by
  obtain ⟨_, _, rfl⟩ := h
  rfl
theorem CountsOnly.salBad {s t : State} (h : CountsOnly s t) : salBad t = salBad s := by
  obtain ⟨_, _, rfl⟩ := h
  rfl

theorem CountsOnly.regsSal {s t : State} (h : CountsOnly s t) : RegsSal s t := by
  obtain ⟨pk, fl, rfl⟩ := h
  exact ⟨s.regs, _, s.out, rfl⟩
theorem CountsOnly.regs {s t : State} (h : CountsOnly s t) : Claims.Regs s t [] := by
  obtain ⟨_, _, rfl⟩ := h
  exact fun _ _ => rfl
theorem CountsOnly.out {s t : State} (h : CountsOnly s t) : t.out = s.out := by
  obtain ⟨_, _, rfl⟩ := h
  rfl
theorem CountsOnly.sal {s t : State} (h : CountsOnly s t) :
    t.sal = { s.sal with peak := t.sal.peak, inflight := t.sal.inflight } := by
  obtain ⟨_, _, rfl⟩ := h
  rfl

/-- The request is counted; the peak of its port is not. -/
def counted (p : Nat) (s : State) : State :=
  let m := returnOf (p :: (portMaster p).1.filter fun q => q != p) (masterBusy s p + 1 - (portMaster p).2) s.sal.inflight
  s.salSet fun x => { x with inflight := storeSet 0 m p (storeGet 0 m p + 1) }

theorem portIssue_eq (p : Nat) (s : State) : portIssue p s = portPeak p (inFlight (counted p s) p) (counted p s) := rfl

theorem portReturn_nil (s : State) : portReturn [] s = s := rfl

theorem countsOnly_issue (p : Nat) (s : State) : CountsOnly s (portIssue p s) := ⟨_, _, rfl⟩

/-- A master with room issues its request at once. -/
theorem storeGet_counted {p : Nat} {s : State} (h : HasRoom s p) (k : Nat) :
    storeGet 0 (counted p s).sal.inflight k = storeGet 0 s.sal.inflight k + if k = p then 1 else 0 := by
  have hexcess : masterBusy s p + 1 - (portMaster p).2 = 0 := Nat.sub_eq_zero_of_le h
  simp only [counted, State.salSet_sal, hexcess]
  rw [storeGet_storeSet, storeGet_returnOf_zero, storeGet_returnOf_zero]
  split
  next hk => rw [hk]
  next => rfl

theorem inFlight_counted {p : Nat} {s : State} (h : HasRoom s p) : inFlight (counted p s) p = inFlight s p + 1 := by
  have hp := storeGet_counted h p
  rw [if_pos rfl] at hp
  have hc : (counted p s).core = s.core := rfl
  rw [inFlight, inFlight, hp, hc, Nat.add_right_comm]

theorem requested_issue {p : Nat} {s : State} (h : HasRoom s p) : Requested s (portIssue p s) p := by
  rw [portIssue_eq, inFlight_counted h]
  refine ⟨fun k => storeGet_counted h k.val, ?_⟩
  have hpeak : (counted p s).sal.peak = s.sal.peak := rfl
  simp only [portPeak, State.salSet_sal, hpeak]

/-! ## A read (R112, R113) -/

/-- A read that finds no uncorrectable byte sends its data, another one does not. -/
theorem salReadReq_eq {p a n : Nat} {s : State} (h : a + n ≤ salSize) :
    salReadReq p a n [] [] [] s =
      if salBad s a n then readFx p a n (portIssue p s)
      else (readFx p a n (portIssue p s)).emit (.readData p (salBytes s a n)) := by
  have hmin : min n (salSize - a) = n := Nat.min_eq_left (by omega)
  have hc := countsOnly_issue p s
  simp only [salReadReq, List.foldl_nil, portReturn_nil, hmin, hc.salBad, hc.salBytes]

/-- The bytes of the range read without an error. -/
def NoErr (s : State) (a n : Nat) : Prop := ∀ c, a ≤ c → c < a + n → salErr s c = .ok

theorem NoErr.of_good {s : State} {a n : Nat} (h : GoodBytes s a n) (hn : n < 128) : NoErr s a n := fun c hc hcn => by
  have hi := h ⟨c - a, by omega⟩ (by dsimp only; omega)
  rwa [show a + (c - a) = c by omega] at hi

theorem salBad_of_noErr {s : State} {a n : Nat} (h : NoErr s a n) : salBad s a n = false := by
  simp only [salBad, List.any_eq_false, List.mem_range]
  intro i hi
  rw [h (a + i) (by omega) (by omega)]
  decide

theorem wordRead_of_noErr {s : State} {p a n : Nat} (h : NoErr s a n) (w : Nat) : wordRead p a n w s = s := by
  have hue : ueBytes s a n w = [] := by
    simp only [ueBytes, List.filter_eq_nil_iff, Bool.and_eq_true, decide_eq_true_eq]
    rintro b - ⟨⟨hl, hr⟩, he⟩
    rw [h _ hl hr] at he
    exact absurd he (by decide)
  have hce : ceBytes s a n w = [] := by
    simp only [ceBytes, List.filter_eq_nil_iff, Bool.and_eq_true, decide_eq_true_eq]
    rintro b - ⟨⟨hl, hr⟩, he⟩
    rw [h _ hl hr] at he
    exact absurd he (by decide)
  rw [wordRead, wordReadBy, hue, hce]

theorem readFx_of_noErr {s : State} {p a n : Nat} (h : NoErr s a n) : readFx p a n s = s :=
  List.foldl_fixed' (fun i => wordRead_of_noErr h (a / 8 + i)) _

/-- A read within one word. -/
theorem readFx_of_word {p a n : Nat} (s : State) (hn : 0 < n) (hw : a % 8 + n ≤ 8) :
    readFx p a n s = wordRead p a n (a / 8) s := by
  have hone : (a + n - 1) / 8 - a / 8 + 1 = 1 := by omega
  rw [readFx, if_neg (by omega), hone]
  rfl

/-- Byte `k` of the `n` from `a`, all in one word, has the error `e`, and no other byte has one. -/
structure BadAt (s : State) (a n k : Nat) (e : ByteErr) : Prop where
  lt : k < n
  word : a % 8 + n ≤ 8
  err : salErr s (a + k) = e
  good : ∀ c, a ≤ c → c < a + n → c ≠ a + k → salErr s c = .ok

section
variable {s t : State} {a n k loc : Nat} {e : ByteErr}

theorem BadAt.of_oneBad (h : OneBad s a n k e) : BadAt s a n k e := by
  obtain ⟨hk, hw, he, hgood⟩ := h
  refine ⟨hk, hw, he, fun c hl hr hc => ?_⟩
  have hok := hgood ⟨c - a, by omega⟩ (by dsimp only; omega) (by dsimp only; omega)
  rwa [show a + (c - a) = c by omega] at hok

theorem BadAt.counts (h : BadAt s a n k e) (hc : CountsOnly s t) : BadAt t a n k e :=
  ⟨h.lt, h.word, hc.salErr ▸ h.err, hc.salErr ▸ h.good⟩

theorem BadAt.byte_eq (h : BadAt s a n k e) : 8 * (a / 8) + (a + k) % 8 = a + k := by
  have hk := h.lt
  have hw := h.word
  omega

theorem BadAt.salBad (h : BadAt s a n k e) : salBad s a n = (e == .ue) := by
  by_cases he : e = .ue
  · subst he
    simp only [Machine.salBad, List.any_eq_true, List.mem_range, beq_self_eq_true]
    exact ⟨k, h.lt, by rw [h.err]; rfl⟩
  · rw [beq_eq_false_iff_ne.2 he]
    simp only [Machine.salBad, List.any_eq_false, List.mem_range, beq_iff_eq]
    intro i hi
    by_cases hik : a + i = a + k
    · rwa [hik, h.err]
    · rw [h.good (a + i) (by omega) (by omega) hik]
      decide

/-- Of the bytes that the read takes of its word, those whose error has a property that a good byte has not. -/
theorem BadAt.filter_word (h : BadAt s a n k e) {q : ByteErr → Bool} (hq : q .ok = false) :
    (List.range 8).filter (fun b => decide (a ≤ 8 * (a / 8) + b) && decide (8 * (a / 8) + b < a + n) &&
      q (salErr s (8 * (a / 8) + b))) = if q e then [(a + k) % 8] else [] := by
  have hbyte := h.byte_eq
  have hk := h.lt
  have hpred : ∀ b ∈ List.range 8, (decide (a ≤ 8 * (a / 8) + b) && decide (8 * (a / 8) + b < a + n) &&
      q (salErr s (8 * (a / 8) + b))) = (q e && decide (b = (a + k) % 8)) := by
    intro b _
    by_cases hbk : b = (a + k) % 8
    · rw [hbk, hbyte, h.err, decide_eq_true (by omega), decide_eq_true (by omega), decide_eq_true rfl]
      simp only [Bool.true_and, Bool.and_true]
    · rw [decide_eq_false hbk, Bool.and_false]
      by_cases hin : a ≤ 8 * (a / 8) + b ∧ 8 * (a / 8) + b < a + n
      · rw [h.good _ hin.1 hin.2 (by omega), hq, Bool.and_false]
      · rw [← Bool.decide_and, decide_eq_false hin, Bool.false_and]
  have hone : ∀ b : Fin 8, (List.range 8).filter (fun c => decide (c = b.val)) = [b.val] := by decide
  rw [List.filter_congr hpred]
  cases q e
  · simp only [Bool.false_and, List.filter_false, Bool.false_eq_true, if_false]
  · simp only [Bool.true_and, if_true]
    exact hone ⟨(a + k) % 8, Nat.mod_lt _ (by decide)⟩

theorem BadAt.ueBytes (h : BadAt s a n k .ue) : ueBytes s a n (a / 8) = [(a + k) % 8] :=
  h.filter_word (q := fun x => x == .ue) rfl
theorem BadAt.ueBytes_nil (h : BadAt s a n k (.ce loc)) : Machine.ueBytes s a n (a / 8) = [] :=
  h.filter_word (q := fun x => x == .ue) rfl
theorem BadAt.ceBytes (h : BadAt s a n k (.ce loc)) : ceBytes s a n (a / 8) = [(a + k) % 8] :=
  h.filter_word (q := fun | .ce _ => true | _ => false) rfl

/-- A read of a word with an uncorrectable byte. -/
theorem BadAt.readFx_ue {p : Nat} (h : BadAt s a n k .ue) :
    readFx p a n s = ueRead true p (a / 8) (2 ^ ((a + k) % 8)) s := by
  rw [readFx_of_word s (by have := h.lt; omega) h.word, wordRead, wordReadBy, h.ueBytes]
  simp only [List.foldl_cons, List.foldl_nil, Nat.zero_add]

/-- A read of a word with a correctable byte. -/
theorem BadAt.readFx_ce {p : Nat} (h : BadAt s a n k (.ce loc)) :
    readFx p a n s = ceRead (a / 8) ((a + k) % 8) loc s := by
  rw [readFx_of_word s (by have := h.lt; omega) h.word, wordRead, wordReadBy, h.ueBytes_nil, h.ceBytes]
  dsimp only
  rw [h.byte_eq, h.err]
end

/-- A corrected read counts in its bank and is logged as `v` (R112). -/
def ceLogged (w v : Nat) (s : State) : State :=
  ((s.salSet fun m => { m with ceCnt := storeSet 0 m.ceCnt (bankOf w) (satInc 16 (storeGet 0 m.ceCnt (bankOf w))) }).wr64
    rSAL_CELOG v).setFlag fSAL_STAT_CESEEN true

/-- The bank of a corrected word reaches the threshold and has not been posted. -/
def cePosts (w : Nat) (s : State) : Prop :=
  s.fld fSAL_CETHR ≠ 0 ∧ s.fld fSAL_CETHR ≤ satInc 16 (storeGet 0 s.sal.ceCnt (bankOf w)) ∧
    storeGet false s.sal.cePosted (bankOf w) = false

/-- The threshold of a bank is posted (R112). -/
def cePosted (w v : Nat) (s : State) : State :=
  post 0x130 0 2 (bankOf w) 0 (satInc 16 (storeGet 0 s.sal.ceCnt (bankOf w)))
    ((ceLogged w v s).salSet fun m => { m with cePosted := storeSet false m.cePosted (bankOf w) true })

/-- An uncorrectable read is logged as `v` (R113). -/
def ueLogged (v : Nat) (s : State) : State := (s.wr64 rSAL_UELOG v).setFlag fSAL_STAT_UESEEN true

section
variable (w v : Nat) (s : State)

theorem fld_CETHR_ceLogged : (ceLogged w v s).fld fSAL_CETHR = s.fld fSAL_CETHR := by
  rw [ceLogged, fld_setFlag_ne _ _ _ _ (by decide) (Or.inl (by decide))]
  exact fld_of_rd _ (rd_wr64_ne _ _ _ (by decide) (by decide))

theorem sal_ceLogged : (ceLogged w v s).sal =
    { s.sal with ceCnt := storeSet 0 s.sal.ceCnt (bankOf w) (satInc 16 (storeGet 0 s.sal.ceCnt (bankOf w))) } := rfl

theorem out_ceLogged : (ceLogged w v s).out = s.out := rfl

theorem ceRead_eq (b loc : Nat) [Decidable (cePosts w s)] : ceRead w b loc s =
    if cePosts w s then cePosted w (w + (b * 32 + loc % 32) * 2 ^ 56) s
    else ceLogged w (w + (b * 32 + loc % 32) * 2 ^ 56) s := by
  unfold ceRead
  generalize w + (b * 32 + loc % 32) * 2 ^ 56 = v
  extract_lets bk n _ u th
  have hu : u = ceLogged w v s := rfl
  have hth : th = s.fld fSAL_CETHR := fld_CETHR_ceLogged w v s
  clear_value u th
  subst hu hth
  rw [sal_ceLogged]
  by_cases h : cePosts w s
  · rw [if_pos h]
    exact if_pos h
  · rw [if_neg h]
    exact if_neg h

theorem ceRead_silent {w : Nat} {s : State} (b loc : Nat) (h : ¬ cePosts w s) :
    ceRead w b loc s = ceLogged w (w + (b * 32 + loc % 32) * 2 ^ 56) s := by
  classical
  rw [ceRead_eq, if_neg h]
theorem ceRead_posts {w : Nat} {s : State} (b loc : Nat) (h : cePosts w s) :
    ceRead w b loc s = cePosted w (w + (b * 32 + loc % 32) * 2 ^ 56) s := by
  classical
  rw [ceRead_eq, if_pos h]

theorem regsSal_ceLogged : RegsSal s (ceLogged w v s) :=
  ((regsSal_salSet s _).trans (regsSal_wr64 _ _ _)).trans (regsSal_setFlag _ _ _)
theorem regs_ceLogged : Claims.Regs s (ceLogged w v s) [rSAL_CELOG, rSAL_CELOG + 1, rSAL_STAT] := fun k hk => by
  simp only [List.mem_cons, List.not_mem_nil, or_false, not_or] at hk
  obtain ⟨hlo, hhi, hstat⟩ := hk
  rw [ceLogged, rd_setFlag_ne _ _ _ hstat, rd_wr64_ne _ _ _ hlo hhi, rd_salSet]
theorem flag_CESEEN_ceLogged : (ceLogged w v s).flag fSAL_STAT_CESEEN = true :=
  flag_setFlag_self _ _ _ (by decide) rfl
theorem rd64_CELOG_ceLogged : (ceLogged w v s).rd64 rSAL_CELOG = v % 2 ^ 64 := by
  rw [ceLogged, rd64_of_rd rSAL_CELOG (rd_setFlag_ne _ _ _ (by decide)) (rd_setFlag_ne _ _ _ (by decide)),
    rd64_wr64_self]

theorem ueRead_eq (p mask : Nat) : ueRead true p w mask s =
    uePost w (ueLogged (w + p * 2 ^ 40 + portRank p * 2 ^ 48 + mask * 2 ^ 56) s) := by
  rw [ueRead]
  generalize w + p * 2 ^ 40 + portRank p * 2 ^ 48 + mask * 2 ^ 56 = v
  exact if_pos rfl
theorem out_ueLogged : (ueLogged v s).out = s.out := rfl
theorem sal_ueLogged : (ueLogged v s).sal = s.sal := rfl
theorem regsSal_ueLogged : RegsSal s (ueLogged v s) := (regsSal_wr64 s _ _).trans (regsSal_setFlag _ _ _)
theorem regs_ueLogged : Claims.Regs s (ueLogged v s) [rSAL_UELOG, rSAL_UELOG + 1, rSAL_STAT] := fun k hk => by
  simp only [List.mem_cons, List.not_mem_nil, or_false, not_or] at hk
  obtain ⟨hlo, hhi, hstat⟩ := hk
  rw [ueLogged, rd_setFlag_ne _ _ _ hstat, rd_wr64_ne _ _ _ hlo hhi]
theorem flag_UESEEN_ueLogged : (ueLogged v s).flag fSAL_STAT_UESEEN = true := flag_setFlag_self _ _ _ (by decide) rfl
theorem rd64_UELOG_ueLogged : (ueLogged v s).rd64 rSAL_UELOG = v % 2 ^ 64 := by
  rw [ueLogged, rd64_of_rd rSAL_UELOG (rd_setFlag_ne _ _ _ (by decide)) (rd_setFlag_ne _ _ _ (by decide)),
    rd64_wr64_self]
end

theorem portRank_lt (p : Nat) : portRank p < 2 ^ 8 := by
  unfold portRank
  split_ifs <;> decide

/-- What is logged of a corrected byte fits its register. -/
theorem ceLog_lt {w b loc : Nat} (hw : w < 2 ^ 22) (hb : b < 8) : w + (b * 32 + loc % 32) * 2 ^ 56 < 2 ^ 64 := by omega

/-- What is logged of an uncorrectable byte fits its register. -/
theorem ueLog_lt {p w b : Nat} (hp : p < 83) (hw : w < 2 ^ 22) (hb : b < 8) :
    w + p * 2 ^ 40 + portRank p * 2 ^ 48 + 2 ^ b * 2 ^ 56 < 2 ^ 64 := by
  have hr := portRank_lt p
  have hm : 2 ^ b ≤ 2 ^ 7 := Nat.pow_le_pow_right (by decide) (by omega)
  omega

/-! ## The four outcomes of a read -/

section
variable {s t : State} {p a n k loc w : Nat}

theorem requested_of_sal {u : State} (h : Requested s u p) (hp : t.sal.peak = u.sal.peak)
    (hi : t.sal.inflight = u.sal.inflight) : Requested s t p := by
  rwa [Requested, hp, hi]

theorem CountsOnly.cePosts_iff (h : CountsOnly s t) : cePosts w t ↔ cePosts w s := by
  obtain ⟨_, _, rfl⟩ := h
  rfl

theorem salReadReq_clean (hle : a + n ≤ salSize) (h : NoErr s a n) :
    salReadReq p a n [] [] [] s = (portIssue p s).emit (.readData p (salBytes s a n)) := by
  have hu : NoErr (portIssue p s) a n := by rwa [NoErr, (countsOnly_issue p s).salErr]
  rw [salReadReq_eq hle, salBad_of_noErr h, if_neg Bool.false_ne_true, readFx_of_noErr hu]

theorem salReadReq_corrected (hle : a + n ≤ salSize) (h : BadAt s a n k (.ce loc)) :
    salReadReq p a n [] [] [] s =
      (ceRead (a / 8) ((a + k) % 8) loc (portIssue p s)).emit (.readData p (salBytes s a n)) := by
  rw [salReadReq_eq hle, h.salBad, if_neg (by simp), (h.counts (countsOnly_issue p s)).readFx_ce]

theorem salReadReq_uncorrectable (hle : a + n ≤ salSize) (h : BadAt s a n k .ue) :
    salReadReq p a n [] [] [] s = uePost (a / 8)
      (ueLogged (a / 8 + p * 2 ^ 40 + portRank p * 2 ^ 48 + 2 ^ ((a + k) % 8) * 2 ^ 56) (portIssue p s)) := by
  rw [salReadReq_eq hle, h.salBad, if_pos (beq_self_eq_true _),
    (h.counts (countsOnly_issue p s)).readFx_ue, ueRead_eq]
end

/-! ## The clauses on reads -/

theorem ends_read {port : Fin 83} {a : BitVec 25} {len : BitVec 7} {s t : State} {P : State → Prop}
    (ht : salReadReq port.val a.toNat len.toNat [] [] [] s = t) (h : P t) :
    Ends (.salternReadRequest port a len [] [] []) s P := ⟨t, congrArg _ ht, h⟩

/-- A read of no bytes does what befell the Saltern before it. -/
theorem salReadReq_empty (p a : Nat) (ups : List (Nat × Nat)) (tags : List Nat) (s : State) :
    salReadReq p a 0 [] ups tags s =
      (portIssue p (tags.foldl (fun t g => tagUpset g t) (ups.foldl (fun t u => upset (u.1 % salSize) u.2 t) s))).emit
        (.readData p []) := by
  rw [salReadReq, Nat.zero_min]
  exact if_neg Bool.false_ne_true

theorem ends_empty_read {port : Fin 83} {a : BitVec 25} {len : BitVec 7} {ups : List (BitVec 25 × Fin 13)}
    {tags : List (BitVec 15)} {s : State} {P : State → Prop} (hlen : len.toNat = 0)
    (h : P ((portIssue port.val ((tags.map fun g => g.toNat).foldl (fun t g => tagUpset g t)
      ((ups.map fun u => (u.1.toNat, upsetLoc u.2.val)).foldl (fun t u => upset (u.1 % salSize) u.2 t) s))).emit
        (.readData port.val []))) :
    Ends (.salternReadRequest port a len [] ups tags) s P :=
  ⟨_, congrArg Host.Outcome.next (by rw [hlen]; exact salReadReq_empty _ _ _ _ s), h⟩

theorem salErr_emit (s : State) (o : Out) : salErr (s.emit o) = salErr s := rfl
theorem salTag_emit (s : State) (o : Out) : salTag (s.emit o) = salTag s := rfl

theorem regsSal_upset (a loc : Nat) (s : State) : RegsSal s (upset a loc s) := by
  rw [upset]
  exact regsSal_salSet s _

theorem salErr_upset_self (a loc : Nat) (s : State) : salErr (upset a loc s) a = worse (salErr s a) loc := by
  have hkey : salKey (upset a loc s) a = salKey s a := rfl
  rw [salErr, hkey, upset, State.salSet_sal, storeGet_storeSet_self, worse, salErr]
  split
  next h => rw [if_pos h]
  next h => rw [if_neg h]

/-- The granules of an upset group, and no others, are marked. -/
theorem storeGet_marks (g j : Nat) (n : Nat) (m : List (Nat × Bool)) :
    storeGet false ((List.range n).foldl (fun t i => storeSet false t (64 * g + i) true) m) j =
      (storeGet false m j || decide (64 * g ≤ j ∧ j < 64 * g + n)) := by
  induction n with
  | zero => simp
  | succ n ih =>
    rw [List.range_succ, List.foldl_append, List.foldl_cons, List.foldl_nil, storeGet_storeSet, ih]
    split
    next h => simp [h]
    next h =>
      congr 1
      exact decide_eq_decide.2 (by omega)

theorem salTag_tagUpset (g a : Nat) (s : State) :
    salTag (tagUpset g s) a = (salTag s a && !decide (a / 16 / 64 = g)) := by
  have hg : (64 * g ≤ a / 16 ∧ a / 16 < 64 * g + 64) ↔ a / 16 / 64 = g := by omega
  simp only [salTag, tagUpset, State.salSet_sal, storeGet_marks, hg, Bool.not_or, Bool.and_assoc]

theorem salTag_tagUpset_self {i : Nat} (g : Nat) (s : State) (hi : i < 64) :
    salTag (tagUpset g s) (16 * (64 * g + i)) = false := by
  rw [salTag_tagUpset, decide_eq_true (by omega), Bool.not_true, Bool.and_false]

theorem salTag_tagUpset_ne {k : Nat} (g : Nat) (s : State) (hk : k / 64 ≠ g) :
    salTag (tagUpset g s) (16 * k) = salTag s (16 * k) := by
  rw [salTag_tagUpset, decide_eq_false (by omega), Bool.not_false, Bool.and_true]

section
variable (s : State) (port : Fin 83) (a : BitVec 25) (len : BitVec 7)

theorem saltern_read_clean (hle : a.toNat + len.toNat ≤ salSize) (hroom : HasRoom s port.val)
    (hgood : GoodBytes s a.toNat len.toNat) :
    Ends (.salternReadRequest port a len [] [] []) s fun t =>
      t.out = .readData port.val (salBytes s a.toNat len.toNat) :: s.out ∧
      { t.sal with peak := s.sal.peak, inflight := s.sal.inflight } = s.sal ∧
      Requested s t port.val ∧ Regs s t [] ∧ NoEvents s t ∧ Kept s { t with sal := s.sal, out := s.out } := by
  have hc := countsOnly_issue port.val s
  have hframe := hc.regsSal.trans (regsSal_emit _ (.readData port.val (salBytes s a.toNat len.toNat)))
  refine ends_read (salReadReq_clean hle (.of_good hgood len.isLt)) ⟨congrArg _ hc.out, ?_, requested_issue hroom, hc.regs,
    hframe.noEvents, hframe.kept⟩
  rw [State.emit_sal, hc.sal]

theorem saltern_read_corrected (k loc : Nat) (hle : a.toNat + len.toNat ≤ salSize) (hroom : HasRoom s port.val)
    (hbad : OneBad s a.toNat len.toNat k (.ce loc))
    (hq : s.fld fSAL_CETHR = 0 ∨ satInc 16 (storeGet 0 s.sal.ceCnt (bankOf (a.toNat / 8))) < s.fld fSAL_CETHR ∨
      storeGet false s.sal.cePosted (bankOf (a.toNat / 8)) = true) :
    Ends (.salternReadRequest port a len [] [] []) s fun t =>
      t.out = .readData port.val (salBytes s a.toNat len.toNat) :: s.out ∧ Requested s t port.val ∧
      storeGet 0 t.sal.ceCnt (bankOf (a.toNat / 8)) = satInc 16 (storeGet 0 s.sal.ceCnt (bankOf (a.toNat / 8))) ∧
      t.rd64 rSAL_CELOG = a.toNat / 8 + ((a.toNat + k) % 8 * 32 + loc % 32) * 2 ^ 56 ∧
      t.flag fSAL_STAT_CESEEN = true ∧ t.sal.mem = s.sal.mem ∧ t.sal.err = s.sal.err ∧ t.sal.tag = s.sal.tag ∧
      Regs s t [rSAL_CELOG, rSAL_CELOG + 1, rSAL_STAT] ∧ NoEvents s t ∧
      Kept s { t with sal := s.sal, out := s.out } := by
  have hc := countsOnly_issue port.val s
  have hnot : ¬ cePosts (a.toNat / 8) (portIssue port.val s) := by
    rw [hc.cePosts_iff]
    rintro ⟨hth, hle, hposted⟩
    rcases hq with hq | hq | hq
    · exact hth hq
    · omega
    · rw [hq] at hposted
      cases hposted
  have hlog := ceLog_lt (w := a.toNat / 8) (b := (a.toNat + k) % 8) (loc := loc) (by omega) (by omega)
  refine ends_read ((salReadReq_corrected hle (.of_oneBad hbad)).trans (by rw [ceRead_silent _ _ hnot])) ?_
  generalize a.toNat / 8 + ((a.toNat + k) % 8 * 32 + loc % 32) * 2 ^ 56 = v at hlog ⊢
  have hreq := requested_issue hroom
  have hframe := hc.regsSal.trans (regsSal_ceLogged (a.toNat / 8) v _)
  have hsal := sal_ceLogged (a.toNat / 8) v (portIssue port.val s)
  have hout := out_ceLogged (a.toNat / 8) v (portIssue port.val s)
  have hregs := regs_ceLogged (a.toNat / 8) v (portIssue port.val s)
  have hseen := flag_CESEEN_ceLogged (a.toNat / 8) v (portIssue port.val s)
  have hrd := rd64_CELOG_ceLogged (a.toNat / 8) v (portIssue port.val s)
  generalize ceLogged (a.toNat / 8) v (portIssue port.val s) = c at *
  generalize portIssue port.val s = u at *
  obtain ⟨pk, fl, rfl⟩ := hc
  have hf := hframe.trans (regsSal_emit c (.readData port.val (salBytes s a.toNat len.toNat)))
  refine ⟨congrArg _ hout, requested_of_sal hreq ?_ ?_, ?_, ?_, (flag_emit _ _ _).trans hseen, ?_, ?_, ?_,
    fun r hr => (rd_emit _ _ r).trans (hregs r hr), hf.noEvents, hf.kept⟩
  · rw [State.emit_sal, hsal]
  · rw [State.emit_sal, hsal]
  · rw [State.emit_sal, hsal, storeGet_storeSet_self]
  · rw [rd64_emit, hrd, Nat.mod_eq_of_lt hlog]
  · rw [State.emit_sal, hsal]
  · rw [State.emit_sal, hsal]
  · rw [State.emit_sal, hsal]

theorem saltern_read_posts (k loc : Nat) (hle : a.toNat + len.toNat ≤ salSize) (hroom : HasRoom s port.val)
    (hbad : OneBad s a.toNat len.toNat k (.ce loc)) (hth : s.fld fSAL_CETHR ≠ 0)
    (hcnt : s.fld fSAL_CETHR ≤ satInc 16 (storeGet 0 s.sal.ceCnt (bankOf (a.toNat / 8))))
    (hnew : storeGet false s.sal.cePosted (bankOf (a.toNat / 8)) = false) :
    Ends (.salternReadRequest port a len [] [] []) s fun t =>
      t.out = .readData port.val (salBytes s a.toNat len.toNat) :: s.out ∧ Requested s t port.val ∧
      pendBit t 0x130 0 = true ∧ storeGet false t.sal.cePosted (bankOf (a.toNat / 8)) = true ∧
      RegsEv s t [rSAL_CELOG, rSAL_CELOG + 1, rSAL_STAT] [0x130] ∧ Kept s { t with sal := s.sal, out := s.out } := by
  have hc := countsOnly_issue port.val s
  have hposts : cePosts (a.toNat / 8) (portIssue port.val s) := hc.cePosts_iff.2 ⟨hth, hcnt, hnew⟩
  refine ends_read ((salReadReq_corrected hle (.of_oneBad hbad)).trans (by rw [ceRead_posts _ _ hposts])) ?_
  generalize a.toNat / 8 + ((a.toNat + k) % 8 * 32 + loc % 32) * 2 ^ 56 = v
  have hreq := requested_issue hroom
  have hframe := (hc.regsSal.trans (regsSal_ceLogged (a.toNat / 8) v _)).trans (regsSal_salSet _ fun m =>
    { m with cePosted := storeSet false m.cePosted (bankOf (a.toNat / 8)) true })
  have hsal := sal_ceLogged (a.toNat / 8) v (portIssue port.val s)
  have hout := out_ceLogged (a.toNat / 8) v (portIssue port.val s)
  have hregs := regs_ceLogged (a.toNat / 8) v (portIssue port.val s)
  rw [cePosted]
  generalize ceLogged (a.toNat / 8) v (portIssue port.val s) = c at *
  generalize portIssue port.val s = u at *
  obtain ⟨pk, fl, rfl⟩ := hc
  have hkept := fun n => hframe.kept_evFrame (post_frame 0x130 0 2 (bankOf (a.toNat / 8)) 0 n _)
  refine ⟨?_, requested_of_sal hreq ?_ ?_, ?_, ?_, fun r hr hp hg hd => (rd_emit _ _ r).trans
    (regsEv_post (fun r hr => (rd_salSet c _ r).trans (hregs r hr)) 0 2 _ 0 _ r hr hp hg hd),
    kept_emit (hkept _) _⟩
  · rw [out_emit, post_out, State.salSet_out, hout]
  · rw [State.emit_sal, post_sal, State.salSet_sal, hsal]
  · rw [State.emit_sal, post_sal, State.salSet_sal, hsal]
  · rw [pendBit_emit, pendBit_post _ _ _ _ _ _ _ (by decide)]
  · rw [State.emit_sal, post_sal, State.salSet_sal, storeGet_storeSet_self]

theorem saltern_read_uncorrectable (k : Nat) (hle : a.toNat + len.toNat ≤ salSize) (hroom : HasRoom s port.val)
    (hbad : OneBad s a.toNat len.toNat k .ue) :
    Ends (.salternReadRequest port a len [] [] []) s fun t =>
      Requested s t port.val ∧ t.out = s.out ∧ t.flag fSAL_STAT_UESEEN = true ∧ pendBit t 0x130 1 = true ∧
      t.rd64 rSAL_UELOG =
        a.toNat / 8 + port.val * 2 ^ 40 + portRank port.val * 2 ^ 48 + 2 ^ ((a.toNat + k) % 8) * 2 ^ 56 ∧
      t.sal.mem = s.sal.mem ∧ RegsEv s t [rSAL_UELOG, rSAL_UELOG + 1, rSAL_STAT] [0x130] ∧
      Kept s { t with sal := s.sal } := by
  have hc := countsOnly_issue port.val s
  have hlog := ueLog_lt (w := a.toNat / 8) (b := (a.toNat + k) % 8) port.isLt (by omega) (by omega)
  refine ends_read (salReadReq_uncorrectable hle (.of_oneBad hbad)) ?_
  generalize a.toNat / 8 + port.val * 2 ^ 40 + portRank port.val * 2 ^ 48 + 2 ^ ((a.toNat + k) % 8) * 2 ^ 56 = v
    at hlog ⊢
  have hreq := requested_issue hroom
  have hframe := hc.regsSal.trans (regsSal_ueLogged v _)
  have hsal := sal_ueLogged v (portIssue port.val s)
  have hout := out_ueLogged v (portIssue port.val s)
  have hregs := regs_ueLogged v (portIssue port.val s)
  have hseen := flag_UESEEN_ueLogged v (portIssue port.val s)
  have hrd := rd64_UELOG_ueLogged v (portIssue port.val s)
  rw [uePost]
  generalize ueLogged v (portIssue port.val s) = c at *
  generalize portIssue port.val s = u at *
  obtain ⟨pk, fl, rfl⟩ := hc
  have hout' : (post 0x130 1 3 (bankOf (a.toNat / 8)) 0 (a.toNat / 8) c).out = s.out :=
    (post_out _ _ _ _ _ _ _).trans hout
  refine ⟨requested_of_sal hreq ?_ ?_, hout', ?_, pendBit_post _ _ _ _ _ _ _ (by decide), ?_, ?_,
    regsEv_post hregs 1 3 _ 0 _, kept_of_out (hframe.kept_evFrame (post_frame 0x130 1 3 _ 0 _ _)) hout'⟩
  · rw [post_sal, hsal]
  · rw [post_sal, hsal]
  · rw [flag_post _ _ _ _ _ _ _ _ (evFree_sal (by decide) (by decide)), hseen]
  · rw [rd64_of_rd _ (rd_post _ _ _ _ _ _ _ (evFree_sal (by decide) (by decide)))
      (rd_post _ _ _ _ _ _ _ (evFree_sal (by decide) (by decide))), hrd, Nat.mod_eq_of_lt hlog]
  · rw [post_sal, hsal]

theorem saltern_upset (b : BitVec 25) (loc : Fin 13) (hlen : len.toNat = 0) :
    Ends (.salternReadRequest port a len [] [(b, loc)] []) s fun t =>
      salErr t b.toNat = worse (salErr s b.toNat) (upsetLoc loc.val) ∧ t.sal.mem = s.sal.mem ∧ t.sal.tag = s.sal.tag ∧
      Regs s t [] ∧ NoEvents s t ∧ Kept s { t with sal := s.sal, out := s.out } := by
  refine ends_empty_read hlen ?_
  have hb : b.toNat % salSize = b.toNat := Nat.mod_eq_of_lt b.isLt
  have hu := salErr_upset_self b.toNat (upsetLoc loc.val) s
  have hc := countsOnly_issue port.val (upset b.toNat (upsetLoc loc.val) s)
  have hf := ((regsSal_upset b.toNat (upsetLoc loc.val) s).trans hc.regsSal).trans
    (regsSal_emit _ (.readData port.val []))
  simp only [List.map_cons, List.map_nil, List.foldl_cons, List.foldl_nil, hb]
  refine ⟨?_, ?_, ?_, fun r hr => hc.regs r hr, hf.noEvents, hf.kept⟩
  · rw [salErr_emit, hc.salErr, hu]
  · rw [State.emit_sal, hc.sal]
    rfl
  · rw [State.emit_sal, hc.sal]
    rfl

theorem saltern_tagUpset (g : BitVec 15) (hlen : len.toNat = 0) :
    Ends (.salternReadRequest port a len [] [] [g]) s fun t =>
      (∀ i : Fin 64, salTag t (16 * (64 * g.toNat + i.val)) = false) ∧
      (∀ k : Fin 2097152, k.val / 64 ≠ g.toNat → salTag t (16 * k.val) = salTag s (16 * k.val)) ∧
      t.sal.mem = s.sal.mem ∧ t.sal.err = s.sal.err ∧
      Regs s t [] ∧ NoEvents s t ∧ Kept s { t with sal := s.sal, out := s.out } := by
  refine ends_empty_read hlen ?_
  have hc := countsOnly_issue port.val (tagUpset g.toNat s)
  have hf := ((regsSal_salSet s _).trans hc.regsSal).trans (regsSal_emit _ (.readData port.val []))
  simp only [List.map_cons, List.map_nil, List.foldl_cons, List.foldl_nil]
  refine ⟨fun i => ?_, fun k hk => ?_, ?_, ?_, fun r hr => hc.regs r hr, hf.noEvents, hf.kept⟩
  · rw [salTag_emit, hc.salTag, salTag_tagUpset_self _ _ i.isLt]
  · rw [salTag_emit, hc.salTag, salTag_tagUpset_ne _ _ hk]
  · rw [State.emit_sal, hc.sal]
    rfl
  · rw [State.emit_sal, hc.sal]
    rfl
end

/-! ## A write (R110, R111, R115, R119) -/

section
variable {s : State} {a b i w : Nat}

theorem rmapWord_of_rmapOf (h : rmapOf s w = some i) : rmapWord s i = w := by
  have hi := List.find?_some h
  rw [Bool.and_eq_true, beq_iff_eq] at hi
  exact hi.2

theorem salKey_of_none (h : rmapOf s (a / 8) = none) : salKey s a = a := by rw [salKey, h]
theorem salKey_of_some (h : rmapOf s (a / 8) = some i) : salKey s a = spareKey i (a % 8) := by rw [salKey, h]

/-- Two bytes of the Saltern have two places. -/
theorem salKey_inj (ha : a < salSize) (hb : b < salSize) (h : salKey s a = salKey s b) : a = b := by
  cases hra : rmapOf s (a / 8) with
  | none =>
    rw [salKey_of_none hra] at h
    cases hrb : rmapOf s (b / 8) with
    | none => rwa [salKey_of_none hrb] at h
    | some j =>
      rw [salKey_of_some hrb, spareKey] at h
      omega
  | some i =>
    rw [salKey_of_some hra, spareKey] at h
    cases hrb : rmapOf s (b / 8) with
    | none =>
      rw [salKey_of_none hrb] at h
      omega
    | some j =>
      rw [salKey_of_some hrb, spareKey] at h
      have hij : i = j := by omega
      have hwa := rmapWord_of_rmapOf hra
      have hwb := rmapWord_of_rmapOf hrb
      rw [hij] at hwa
      omega
end

/-- `t` is `s` but for the Saltern's bytes, their check bits and the tags. -/
def StoredOnly (s t : State) : Prop :=
  ∃ m e g u, t = { s with sal := { s.sal with mem := m, err := e, tag := g, tagUe := u } }

section
variable {s t u : State} {a k j : Nat}

theorem StoredOnly.refl (s : State) : StoredOnly s s := ⟨s.sal.mem, s.sal.err, s.sal.tag, s.sal.tagUe, rfl⟩
theorem StoredOnly.trans (h : StoredOnly s t) (g : StoredOnly t u) : StoredOnly s u := by
  obtain ⟨_, _, _, _, rfl⟩ := h
  obtain ⟨m, e, g, u, rfl⟩ := g
  exact ⟨m, e, g, u, rfl⟩
theorem StoredOnly.salKey (h : StoredOnly s t) : salKey t = salKey s := by
  obtain ⟨_, _, _, _, rfl⟩ := h
  rfl
theorem storedOnly_salPut (a : Nat) (v : Byte) (s : State) : StoredOnly s (salPut a v s) := ⟨_, _, _, _, rfl⟩

theorem salByte_salPut (v : Byte) (ha : a < salSize) (hk : k < salSize) :
    salByte (salPut a v s) k = if k = a then v else salByte s k := by
  rw [salByte, (storedOnly_salPut a v s).salKey, salPut, State.salSet_sal, storeGet_storeSet]
  refine if_congr ⟨salKey_inj hk ha, fun h => h ▸ rfl⟩ rfl rfl

theorem salErr_salPut (v : Byte) (ha : a < salSize) (hk : k < salSize) :
    salErr (salPut a v s) k = if k = a then .ok else salErr s k := by
  rw [salErr, (storedOnly_salPut a v s).salKey, salPut, State.salSet_sal, storeGet_storeSet]
  refine if_congr ⟨salKey_inj hk ha, fun h => h ▸ rfl⟩ rfl rfl

theorem salTag_salPut (v : Byte) : salTag (salPut a v s) j = (salTag s j && !decide (j / 16 = a / 16)) := by
  rw [salTag, salPut, State.salSet_sal, storeGet_storeSet, storeGet_storeSet, salTag]
  by_cases h : j / 16 = a / 16
  · rw [if_pos h, if_pos h, decide_eq_true h]
    simp only [Bool.not_true, Bool.and_false, Bool.false_and]
  · rw [if_neg h, if_neg h, decide_eq_false h, Bool.not_false, Bool.and_true]

/-- One byte of a write with byte enables. -/
def salPutEn (a : Nat) (v : Option Byte) (s : State) : State :=
  match v with
  | some v => if a < salSize then salPut a v s else s
  | none => s

theorem salWriteEn_cons (a : Nat) (v : Option Byte) (r : List (Option Byte)) (s : State) :
    salWriteEn a (v :: r) s = salWriteEn (a + 1) r (salPutEn a v s) := rfl

theorem salPutEn_some (v : Byte) (ha : a < salSize) : salPutEn a (some v) s = salPut a v s := if_pos ha
theorem salPutEn_none : salPutEn a none s = s := rfl

theorem storedOnly_salPutEn (a : Nat) (v : Option Byte) (s : State) : StoredOnly s (salPutEn a v s) := by
  cases v with
  | none => exact .refl s
  | some v =>
    rw [salPutEn]
    split
    · exact storedOnly_salPut a v s
    · exact .refl s

theorem salByte_salPutEn (v : Option Byte) (ha : a < salSize) (hk : k < salSize) :
    salByte (salPutEn a v s) k = if k = a then v.getD (salByte s a) else salByte s k := by
  cases v with
  | none =>
    rw [salPutEn_none, Option.getD_none]
    split
    next h => rw [h]
    next => rfl
  | some v => rw [salPutEn_some v ha, salByte_salPut v ha hk, Option.getD_some]

theorem salErr_salPutEn (v : Option Byte) (ha : a < salSize) (hk : k < salSize) :
    salErr (salPutEn a v s) k = if k = a ∧ v.isSome then .ok else salErr s k := by
  cases v with
  | none => rw [salPutEn_none, if_neg (by simp)]
  | some v =>
    rw [salPutEn_some v ha, salErr_salPut v ha hk]
    simp only [Option.isSome_some, and_true]

theorem salTag_salPutEn (v : Option Byte) (ha : a < salSize) :
    salTag (salPutEn a v s) j = (salTag s j && !decide (j / 16 = a / 16 ∧ v.isSome)) := by
  cases v with
  | none => simp [salPutEn_none]
  | some v =>
    rw [salPutEn_some v ha, salTag_salPut v]
    simp only [Option.isSome_some, and_true]
end

section
variable {s : State} {a k j : Nat} {bs : List (Option Byte)}

theorem storedOnly_salWriteEn (a : Nat) (bs : List (Option Byte)) (s : State) : StoredOnly s (salWriteEn a bs s) := by
  induction bs generalizing a s with
  | nil => exact .refl s
  | cons v r ih => exact (storedOnly_salPutEn a v s).trans (ih (a + 1) _)

/-- A byte outside of a write reads as before. -/
theorem salByte_salWriteEn_ne (hle : a + bs.length ≤ salSize) (hk : k < salSize) (h : k < a ∨ a + bs.length ≤ k) :
    salByte (salWriteEn a bs s) k = salByte s k := by
  induction bs generalizing a s with
  | nil => rfl
  | cons v r ih =>
    rw [List.length_cons] at hle h
    rw [salWriteEn_cons, ih (by omega) (by omega), salByte_salPutEn v (by omega) hk, if_neg (by omega)]

/-- A byte of a write reads as written where it is enabled, and as before where it is not. -/
theorem salByte_salWriteEn (hle : a + bs.length ≤ salSize) (hk : k < bs.length) :
    salByte (salWriteEn a bs s) (a + k) = (bs.getD k none).getD (salByte s (a + k)) := by
  induction bs generalizing a k s with
  | nil => exact absurd hk (Nat.not_lt_zero k)
  | cons v r ih =>
    rw [List.length_cons] at hle hk
    rw [salWriteEn_cons]
    cases k with
    | zero =>
      rw [salByte_salWriteEn_ne (by omega) (by omega) (by omega), salByte_salPutEn v (by omega) (by omega),
        if_pos (Nat.add_zero a)]
      rfl
    | succ k =>
      rw [show a + (k + 1) = a + 1 + k by omega, ih (by omega) (by omega), salByte_salPutEn v (by omega) (by omega),
        if_neg (by omega)]
      rfl

/-- A byte without an error keeps none. -/
theorem salErr_salWriteEn_of_ok (hle : a + bs.length ≤ salSize) (hk : k < salSize) (h : salErr s k = .ok) :
    salErr (salWriteEn a bs s) k = .ok := by
  induction bs generalizing a s with
  | nil => exact h
  | cons v r ih =>
    rw [List.length_cons] at hle
    rw [salWriteEn_cons]
    refine ih (by omega) ?_
    rw [salErr_salPutEn v (by omega) hk, h, ite_self]

/-- An enabled byte has no error. -/
theorem salErr_salWriteEn (hle : a + bs.length ≤ salSize) (hk : k < bs.length) (h : (bs.getD k none).isSome) :
    salErr (salWriteEn a bs s) (a + k) = .ok := by
  induction bs generalizing a k s with
  | nil => exact absurd hk (Nat.not_lt_zero k)
  | cons v r ih =>
    rw [List.length_cons] at hle hk
    rw [salWriteEn_cons]
    cases k with
    | zero =>
      refine salErr_salWriteEn_of_ok (by omega) (by omega) ?_
      rw [salErr_salPutEn v (by omega) (by omega), if_pos ⟨rfl, h⟩]
    | succ k =>
      rw [show a + (k + 1) = a + 1 + k by omega]
      exact ih (by omega) (by omega) h

/-- A granule that is untagged stays so. -/
theorem salTag_salWriteEn_of_false (hle : a + bs.length ≤ salSize) (h : salTag s j = false) :
    salTag (salWriteEn a bs s) j = false := by
  induction bs generalizing a s with
  | nil => exact h
  | cons v r ih =>
    rw [List.length_cons] at hle
    rw [salWriteEn_cons]
    refine ih (by omega) ?_
    rw [salTag_salPutEn v (by omega), h, Bool.false_and]

/-- The granule of an enabled byte is untagged. -/
theorem salTag_salWriteEn (hle : a + bs.length ≤ salSize) (hk : k < bs.length) (h : (bs.getD k none).isSome) :
    salTag (salWriteEn a bs s) (a + k) = false := by
  induction bs generalizing a k s with
  | nil => exact absurd hk (Nat.not_lt_zero k)
  | cons v r ih =>
    rw [List.length_cons] at hle hk
    rw [salWriteEn_cons]
    cases k with
    | zero =>
      refine salTag_salWriteEn_of_false (by omega) ?_
      rw [salTag_salPutEn v (by omega), decide_eq_true ⟨rfl, h⟩, Bool.not_true, Bool.and_false]
    | succ k =>
      rw [show a + (k + 1) = a + 1 + k by omega]
      exact ih (by omega) (by omega) h

/-- A granule outside of a write keeps its tag. -/
theorem salTag_salWriteEn_ne {g : Nat} (hle : a + bs.length ≤ salSize) (h : 16 * g + 15 < a ∨ a + bs.length ≤ 16 * g) :
    salTag (salWriteEn a bs s) (16 * g) = salTag s (16 * g) := by
  induction bs generalizing a s with
  | nil => rfl
  | cons v r ih =>
    rw [List.length_cons] at hle h
    rw [salWriteEn_cons, ih (by omega) (by omega), salTag_salPutEn v (by omega), decide_eq_false (by omega), Bool.not_false,
      Bool.and_true]

/-- No write marks a granule of an upset group. -/
theorem tagUe_salPutEn_of_false (v : Option Byte) (h : storeGet false s.sal.tagUe j = false) :
    storeGet false (salPutEn a v s).sal.tagUe j = false := by
  cases v with
  | none => exact h
  | some v =>
    rw [salPutEn]
    split
    · rw [salPut, State.salSet_sal, storeGet_storeSet, h, ite_self]
    · exact h

theorem tagUe_salWriteEn_of_false (h : storeGet false s.sal.tagUe j = false) :
    storeGet false (salWriteEn a bs s).sal.tagUe j = false := by
  induction bs generalizing a s with
  | nil => exact h
  | cons v r ih => exact ih (tagUe_salPutEn_of_false v h)

/-- A write of the first byte of a granule takes it out of its upset group. -/
theorem tagUe_salWriteEn_cons (b : Byte) (r : List (Option Byte)) (s : State) (ha : a < salSize) :
    storeGet false (salWriteEn a (some b :: r) s).sal.tagUe (a / 16) = false := by
  rw [salWriteEn_cons, salPutEn_some b ha]
  refine tagUe_salWriteEn_of_false ?_
  rw [salPut, State.salSet_sal, storeGet_storeSet_self]

theorem salBytes_salWriteEn (hle : a + bs.length ≤ salSize) :
    salBytes (salWriteEn a bs s) a bs.length = merged s a bs :=
  List.map_congr_left fun _ hk => salByte_salWriteEn hle (List.mem_range.1 hk)

/-- A write of bytes that are all enabled. -/
theorem merged_some (s : State) (a : Nat) (bytes : List Byte) : merged s a (bytes.map some) = bytes := by
  refine List.ext_getElem (by simp [merged]) fun i h _ => ?_
  have hi : i < bytes.length := by simpa [merged] using h
  simp [merged, List.getD_eq_getElem?_getD, hi]
end

theorem StoredOnly.sal {s t : State} (h : StoredOnly s t) :
    t.sal = { s.sal with mem := t.sal.mem, err := t.sal.err, tag := t.sal.tag, tagUe := t.sal.tagUe } := by
  obtain ⟨_, _, _, _, rfl⟩ := h
  rfl
theorem StoredOnly.regsSal {s t : State} (h : StoredOnly s t) : RegsSal s t := by
  obtain ⟨_, _, _, _, rfl⟩ := h
  exact ⟨s.regs, _, s.out, rfl⟩
theorem StoredOnly.regs {s t : State} (h : StoredOnly s t) : Claims.Regs s t [] := by
  obtain ⟨_, _, _, _, rfl⟩ := h
  exact fun _ _ => rfl
theorem StoredOnly.out {s t : State} (h : StoredOnly s t) : t.out = s.out := by
  obtain ⟨_, _, _, _, rfl⟩ := h
  rfl

/-- What holds of every write that a master with room issues: from `u`, the state with the request issued, to `t`. -/
theorem write_frame {s u t : State} {p : Nat} (hc : CountsOnly s u) (hreq : Requested s u p) (h : StoredOnly u t) :
    Requested s t p ∧
    { t.sal with
      mem := s.sal.mem, err := s.sal.err, tag := s.sal.tag, tagUe := s.sal.tagUe
      peak := s.sal.peak, inflight := s.sal.inflight } = s.sal ∧
    Claims.Regs s t [] ∧ NoEvents s t ∧ Kept s { t with sal := s.sal } := by
  have hframe := hc.regsSal.trans h.regsSal
  refine ⟨requested_of_sal hreq (by rw [h.sal]) (by rw [h.sal]), ?_,
    fun r hr => (h.regs r hr).trans (hc.regs r hr), hframe.noEvents, kept_of_out hframe.kept (h.out.trans hc.out)⟩
  rw [h.sal, hc.sal]

theorem ends_write {port : Fin 83} {a : BitVec 25} {bs : List (Option Byte)} {cap : Bool} {s t : State} {P : State → Prop}
    (ht : salWriteReq port.val a.toNat bs cap [] s = t) (h : P t) :
    Ends (.salternWriteRequest port a bs cap []) s P := ⟨t, congrArg _ ht, h⟩

theorem salWriteReq_plain {p a : Nat} {bs : List (Option Byte)} {cap : Bool} (s : State)
    (h : cap = false ∨ portRank p ≠ 4 ∨ a % 16 ≠ 0 ∨ bs.length ≠ 16 ∨ bs.all Option.isSome = false) :
    salWriteReq p a bs cap [] s = salWriteEn a bs (portIssue p s) := by
  refine if_neg ?_
  rintro ⟨hcap, hrank, halign, -, hlen, hall⟩
  simp [hcap, hrank, halign, hlen, hall] at h

/-- The granule is tagged. -/
def tagged (a : Nat) (s : State) : State := s.salSet fun m => { m with tag := storeSet false m.tag (a / 16) true }

theorem salWriteReq_cap {p a : Nat} {bs : List (Option Byte)} (s : State) (hrank : portRank p = 4) (halign : a % 16 = 0)
    (ha : a < salSize) (hlen : bs.length = 16) (hall : bs.all Option.isSome = true) :
    salWriteReq p a bs true [] s = tagged a (salWriteEn a bs (portIssue p s)) :=
  if_pos ⟨rfl, hrank, halign, ha, hlen, hall⟩

theorem storedOnly_tagged (a : Nat) (s : State) : StoredOnly s (tagged a s) := ⟨s.sal.mem, s.sal.err, _, s.sal.tagUe, rfl⟩
theorem salByte_tagged (a : Nat) (s : State) : salByte (tagged a s) = salByte s := rfl
theorem salBytes_tagged (a : Nat) (s : State) : salBytes (tagged a s) = salBytes s := rfl
theorem salTag_tagged_ne {a b : Nat} (s : State) (h : b / 16 ≠ a / 16) : salTag (tagged a s) b = salTag s b := by
  rw [salTag, tagged, State.salSet_sal, storeGet_storeSet_ne _ _ _ _ h, salTag]
theorem salTag_tagged_self {a : Nat} {s : State} (h : storeGet false s.sal.tagUe (a / 16) = false) :
    salTag (tagged a s) a = true := by
  rw [salTag, tagged, State.salSet_sal, storeGet_storeSet_self, h]
  rfl

/-! ## The clauses on writes -/

section
variable (s : State) (port : Fin 83) (a : BitVec 25)

theorem saltern_write (bs : List (Option Byte)) (cap : Bool) (hroom : HasRoom s port.val)
    (hle : a.toNat + bs.length ≤ salSize)
    (hplain : cap = false ∨ portRank port.val ≠ 4 ∨ a.toNat % 16 ≠ 0 ∨ bs.length ≠ 16 ∨ bs.all Option.isSome = false) :
    Ends (.salternWriteRequest port a bs cap []) s fun t =>
      salBytes t a.toNat bs.length = merged s a.toNat bs ∧
      SameBut s t a.toNat bs.length ∧ TagsBut s t a.toNat bs.length ∧
      (∀ k ∈ List.range bs.length, (bs.getD k none).isSome →
        salTag t (a.toNat + k) = false ∧ salErr t (a.toNat + k) = .ok) ∧
      Requested s t port.val ∧
      { t.sal with
        mem := s.sal.mem, err := s.sal.err, tag := s.sal.tag, tagUe := s.sal.tagUe
        peak := s.sal.peak, inflight := s.sal.inflight } = s.sal ∧
      Regs s t [] ∧ NoEvents s t ∧ Kept s { t with sal := s.sal } := by
  have hc := countsOnly_issue port.val s
  have hframe := write_frame hc (requested_issue hroom) (storedOnly_salWriteEn a.toNat bs _)
  refine ends_write (salWriteReq_plain s hplain) ⟨?_, fun k hk h => ?_, fun g h => ?_, fun k hk h => ?_, hframe⟩
  · rw [salBytes_salWriteEn hle, merged, hc.salByte, merged]
  · rw [salByte_salWriteEn_ne hle hk h, hc.salByte]
  · rw [salTag_salWriteEn_ne hle h, hc.salTag]
  · have hk := List.mem_range.1 hk
    exact ⟨salTag_salWriteEn hle hk h, salErr_salWriteEn hle hk h⟩

theorem saltern_write_cap (bytes : List Byte) (hroom : HasRoom s port.val) (hrank : portRank port.val = 4)
    (halign : a.toNat % 16 = 0) (hlen : bytes.length = 16) :
    Ends (.salternWriteRequest port a (bytes.map some) true []) s fun t =>
      salBytes t a.toNat 16 = bytes ∧ SameBut s t a.toNat 16 ∧ TagsBut s t a.toNat 16 ∧ salTag t a.toNat = true ∧
      Requested s t port.val ∧
      { t.sal with
        mem := s.sal.mem, err := s.sal.err, tag := s.sal.tag, tagUe := s.sal.tagUe
        peak := s.sal.peak, inflight := s.sal.inflight } = s.sal ∧
      Regs s t [] ∧ NoEvents s t ∧ Kept s { t with sal := s.sal } := by
  have ha : a.toNat < salSize := a.isLt
  have hsize : salSize % 16 = 0 := rfl
  have hlen' : (bytes.map some).length = 16 := by rw [List.length_map, hlen]
  have hle : a.toNat + (bytes.map some).length ≤ salSize := by omega
  have hall : (bytes.map some).all Option.isSome = true := by simp
  have hc := countsOnly_issue port.val s
  have hframe := write_frame hc (requested_issue hroom)
    ((storedOnly_salWriteEn a.toNat (bytes.map some) _).trans (storedOnly_tagged a.toNat _))
  have hue : storeGet false (salWriteEn a.toNat (bytes.map some) (portIssue port.val s)).sal.tagUe (a.toNat / 16) =
      false := by
    cases bytes with
    | nil => cases hlen
    | cons b r => exact tagUe_salWriteEn_cons b (r.map some) _ ha
  refine ends_write (salWriteReq_cap s hrank halign ha hlen' hall)
    ⟨?_, fun k hk h => ?_, fun g h => ?_, salTag_tagged_self hue, hframe⟩
  · rw [salBytes_tagged, ← hlen', salBytes_salWriteEn hle, merged_some]
  · rw [salByte_tagged, salByte_salWriteEn_ne hle hk (by omega), hc.salByte]
  · rw [salTag_tagged_ne _ (by omega), salTag_salWriteEn_ne hle (by omega), hc.salTag]
end

end Sys2Proof.Machine

open Sys2Proof Sys2Proof.Machine Sys2Proof.Claims

/-- Settles O34: a read's bytes and their errors are those of the state in which the request is issued, a corrected and an
uncorrectable byte log their one word, and a write is followed byte by byte through the places of the bytes, which differ. -/
theorem salternAccess : Obligations.SalternAccess := by
  unfold Obligations.SalternAccess
  intro s
  refine ⟨fun port a len => saltern_read_clean s port a len,
    fun port a len k loc => saltern_read_corrected s port a len k loc,
    fun port a len k loc => saltern_read_posts s port a len k loc,
    fun port a len k => saltern_read_uncorrectable s port a len k,
    fun port a len b loc _ _ hlen => saltern_upset s port a len b loc hlen,
    fun port a len g _ _ hlen => saltern_tagUpset s port a len g hlen,
    fun port a bs cap => saltern_write s port a bs cap,
    fun port a bytes => saltern_write_cap s port a bytes⟩

end

section
/-!
PROOFS. The refutation of the Saltern's repair statement (family 05).
-/
namespace Sys2Proof.Machine
open Sys2Proof Sys2Proof.Claims

/-- Remap entry 0 redirects word 0, and the first byte of its spare word is uncorrectable. -/
def badSpare : State :=
  ({ State.reset with sal := { SalState.reset with err := [(spareKey 0 0, .ue)] } }).wr (rSAL_RMAPi 0) 0x80000000

theorem badSpare_unlocked : lockHeld badSpare 0x130 = false := by decide +kernel
theorem badSpare_idle : badSpare.flag fSAL_STAT_RMAPBUSY = false := by decide +kernel
theorem badSpare_valid : rmapValid badSpare 0 = true := by decide +kernel
theorem badSpare_once : RmapOnce badSpare := by decide +kernel

/-- Copying the spare back reads it, so the uncorrectable word is logged in SAL_UELOG (R112). -/
theorem badSpare_logged : (rmapClear 0 0 badSpare).rd (rSAL_UELOG + 1) ≠ badSpare.rd (rSAL_UELOG + 1) := by
  decide +kernel

end Sys2Proof.Machine

open Sys2Proof Sys2Proof.Machine Sys2Proof.Claims

/-- Refutes O35: its clause on RMAP_CLEAR of a valid entry has every register outside the row map as it was, for every state;
copying back a spare word with an uncorrectable byte writes SAL_UELOG. -/
theorem not_salternRepair : ¬ Obligations.SalternRepair := by
  unfold Obligations.SalternRepair
  intro h
  obtain ⟨_, _, _, _, _, hclear, _⟩ := h badSpare
  obtain ⟨t, hexec, _, _, _, _, _, hregs, _⟩ :=
    hclear 0 0 badSpare_unlocked badSpare_idle badSpare_valid badSpare_once
  have hrow : rmapClear 0 0 badSpare = t := Host.Outcome.next.inj hexec
  exact badSpare_logged (hrow ▸ hregs (rSAL_UELOG + 1) (by decide))

end

section
/-!
PROOFS. PANQ's ticket (R144, R279, R328): a state that refutes PanOrders. The answer takes from a division in progress the bits
of the register that both write.
-/

namespace Sys2Proof.Machine
open Sys2Proof Sys2Proof.Claims

/-- The descriptor read of a PANQ for w6, issued three bundles ago: its ticket is written as it returns (R286). -/
def panqDue : PLoad := ⟨0x1020, 32, .panq 6 Cap.root, 3, none, []⟩

/-- Core 1 has nothing in flight but that PANQ and a division whose quotient goes to w6 too; its ring has no size. -/
def divUnderWay : State :=
  (State.reset.setFld fRST_CTRL_CORERUN 15).setCore 1 { Core.reset 1 with
    loads := [panqDue], div := some ⟨6, 7, 5, 2, 0, 40, bits32, bits32⟩ }

theorem divUnderWay_idle : Idle divUnderWay 1 := by decide +kernel
theorem divUnderWay_unfrozen : frozen divUnderWay (corePg 1) = false := by decide +kernel
theorem divUnderWay_alone :
    (divUnderWay.core 1).pend = [] ∧ (divUnderWay.core 1).fdivs = [] ∧ (divUnderWay.core 1).loads = [panqDue] := by
  decide +kernel
theorem divUnderWay_readable : Readable divUnderWay 1 0x1020 32 := by decide +kernel
theorem divUnderWay_head : headPan (descOf (memBytes divUnderWay (regionOf (coreDie 1) 0x1020) 32)) = 0 := by decide +kernel
theorem divUnderWay_queue : (panOf divUnderWay 0).bq.length < 32 := by decide +kernel
theorem divUnderWay_ring : divUnderWay.fld (fPAN_CRCFGc_LOG2N 1) < 4 := by decide +kernel

/-- The answer, written to w6, leaves the division no bit of its quotient. -/
theorem div_loadReturn_divUnderWay :
    ((loadReturn 1 0 none divUnderWay).core 1).div = (divUnderWay.core 1).div.map (PDiv.cut (.w 6) bits32) := by
  decide +kernel

theorem divUnderWay_cut : (divUnderWay.core 1).div.map (PDiv.cut (.w 6) bits32) ≠ (divUnderWay.core 1).div := by decide +kernel

/-- What the statement has the return leave at the core: w6 written, and the division as it was. -/
theorem div_putKey (k : Nat) (v : Word) (c : Core) : (putKey k v c).div = c.div := by
  rw [putKey]
  split <;> rfl

end Sys2Proof.Machine

open Sys2Proof Sys2Proof.Machine Sys2Proof.Claims

/-- Refutes O56: its clause on a PANQ for a ring that is not configured has the return change nothing at the core but the ticket
register; at `divUnderWay` it also takes that register from the division in progress, whose later result would undo the ticket. -/
theorem not_panOrders : ¬ Obligations.PanOrders := by
  intro h
  obtain ⟨_, _, hnoRing, _⟩ := h divUnderWay
  obtain ⟨hpend, hfdivs, hloads⟩ := divUnderWay_alone
  obtain ⟨t, hexec, hcore, _⟩ := hnoRing 1 panqDue 6 Cap.root 0 divUnderWay_unfrozen (by decide) divUnderWay_idle hpend hfdivs
    hloads rfl rfl rfl rfl divUnderWay_readable divUnderWay_head divUnderWay_queue (Or.inl divUnderWay_ring)
  have hrow : unlessFrozen (corePg 1) (loadReturn 1 0 none) divUnderWay = t := Host.Outcome.next.inj hexec
  rw [unlessFrozen, divUnderWay_unfrozen] at hrow
  have hkept : (t.core 1).div = (divUnderWay.core 1).div := (congrArg Core.div hcore).trans (div_putKey 6 _ _)
  rw [← hrow] at hkept
  exact divUnderWay_cut (div_loadReturn_divUnderWay.symm.trans hkept)

end

section
/-!
PROOFS. The configuration of a completion ring (R42, R165): a state that refutes PanControl. A write of a register word sets the
bits of its fields and keeps the others.
-/

namespace Sys2Proof.Machine
open Sys2Proof Sys2Proof.Claims

/-- PAN_CRCFGc of the register table. -/
def crCfgReg : RegD :=
  ⟨"PAN_CRCFGc", 0x125, 1, 1, 0x44, 4, 0x10, false, [⟨16, 1, .rw, 0x0, false⟩, ⟨8, 8, .rw, 0x0, false⟩, ⟨0, 4, .rw, 0x0, false⟩]⟩

theorem regAt_CRCFG (n : Fin 4) : regAt (rPAN_CRCFGc n.val / 1024) (rPAN_CRCFGc n.val % 1024 * 4) = some crCfgReg := by
  revert n
  decide +kernel

/-- Bit 31 is reserved. -/
theorem fieldAt_CRCFG_31 (n : Fin 4) :
    fieldAt crCfgReg.flds (8 * crCfgReg.part (rPAN_CRCFGc n.val % 1024 * 4) + 31) = none := by
  revert n
  decide +kernel

theorem page_CRCFG (n : Fin 4) : rPAN_CRCFGc n.val / 1024 = 0x125 := by
  rw [rPAN_CRCFGc]
  omega

/-- An empty ring's PAN_CRCFGc keeps its bit 31, whatever is written. -/
theorem ringConfigWrite_keeps_reserved {s : State} (n : Fin 4) (v : Word) (hlock : lockHeld s 0x125 = false)
    (hunread : ringUnread s n.val = 0) (hresv : ringResv s n.val = 0) :
    ((ringConfigWrite n.val true v s).rd (rPAN_CRCFGc n.val)).getLsbD 31 = (s.rd (rPAN_CRCFGc n.val)).getLsbD 31 := by
  have hw : ringConfigWrite n.val true v s =
      s.wr (rPAN_CRCFGc n.val) (writeFields (rPAN_CRCFGc n.val) false (s.rd (rPAN_CRCFGc n.val)) v) := by
    rw [ringConfigWrite, if_neg (by simp [hunread, hresv]), if_pos rfl, plainWrite_unheld v (by rw [page_CRCFG, hlock])]
  rw [hw, rd_wr_self, getLsbD_writeFields (regAt_CRCFG n) (by decide), fieldAt_CRCFG_31]

/-- A reserved bit of PAN_CRCFG0 reads 1, and everything else is as after reset. -/
def reservedSet : State := State.reset.wr (rPAN_CRCFGc 0) 0x80000000

theorem reservedSet_unlocked : lockHeld reservedSet 0x125 = false := by decide +kernel
theorem reservedSet_unread : ringUnread reservedSet 0 = 0 := by decide +kernel
theorem reservedSet_resv : ringResv reservedSet 0 = 0 := by decide +kernel
theorem reservedSet_bit : (reservedSet.rd (rPAN_CRCFGc 0)).getLsbD 31 = true := by
  rw [reservedSet, rd_wr_self]
  decide

end Sys2Proof.Machine

open Sys2Proof Sys2Proof.Machine Sys2Proof.Claims

/-- Refutes O57: its clause on a write of PAN_CRCFGc has the register read as the written fields alone, for every state; from
`reservedSet` the write of 0 leaves the reserved bit 31 at 1. -/
theorem not_panControl : ¬ Obligations.PanControl := by
  intro h
  obtain ⟨_, _, _, _, _, _, _, _, _, _, hcfg, _⟩ := h reservedSet
  obtain ⟨t, hexec, hread, _⟩ := hcfg 0 0 reservedSet_unread reservedSet_resv
  have hrow : ringConfigWrite 0 true 0 reservedSet = t := Host.Outcome.next.inj hexec
  have hkept : ((ringConfigWrite 0 true 0 reservedSet).rd (rPAN_CRCFGc 0)).getLsbD 31 = true :=
    (ringConfigWrite_keeps_reserved 0 0 reservedSet_unlocked reservedSet_unread reservedSet_resv).trans reservedSet_bit
  rw [hrow, show t.rd (rPAN_CRCFGc 0) = 0 &&& 0x1FF0F from hread] at hkept
  exact absurd hkept (by decide)

end

section
/-!
PROOFS. Steps of the Brine field links (R218 to R255, family 09): what a step of a port may change, the record of a lane and of
a port, and the rules by which such steps compose.
-/

namespace Sys2Proof.Machine
open Sys2Proof Sys2Proof.Claims

/-! ## Registers that no event touches -/

/-- The key of a register that no event touches. -/
abbrev Spared (k : Nat) : Prop := (k / 1024 < 0x40 ∨ 0x50 ≤ k / 1024) ∧ k ≠ rSL_EVDROP ∧ k % 1024 ≠ 4

/-- The registers of the Brine's pages are spared, beyond EV_PEND (R250). -/
theorem spared_brine {k : Nat} (hlo : 0x80 * 1024 ≤ k) (hhi : k < 0x100 * 1024) (h4 : k % 1024 ≠ 4) : Spared k := by
  simp only [Spared, rSL_EVDROP]
  omega

section
variable {own pgs : List Nat} {s t u : State}

theorem rd_of_regsEv (h : RegsEv s t own pgs) {k : Nat} (hk : k ∉ own) (hs : Spared k) : t.rd k = s.rd k :=
  h k hk (fun p _ hp => hs.2.2 (hp ▸ rEV_PEND_mod p)) hs.1 hs.2.1

theorem regsEv_refl : RegsEv s s own pgs := fun _ _ _ _ _ => rfl
theorem regsEv_trans (h : RegsEv s t own pgs) (g : RegsEv t u own pgs) : RegsEv s u own pgs :=
  fun k ho hp hg hd => (g k ho hp hg hd).trans (h k ho hp hg hd)
theorem regsEv_mono {own' pgs' : List Nat} (h : RegsEv s t own pgs) (ho : own ⊆ own') (hp : pgs ⊆ pgs') :
    RegsEv s t own' pgs' :=
  fun k hk hq hg hd => h k (fun hm => hk (ho hm)) (fun p hm => hq p (hp hm)) hg hd
theorem regsEv_of_regs (h : Claims.Regs s t own) : RegsEv s t own pgs := fun k ho _ _ _ => h k ho

/-- Writing to a register that is no EV_PEND clears no pending bit. -/
theorem pendBit_wr (s : State) {k : Nat} (v : Word) (h4 : k % 1024 ≠ 4) (p j : Nat) :
    pendBit (s.wr k v) p j = pendBit s p j := by
  have hk : rEV_PEND p ≠ k := fun h => h4 (h ▸ rEV_PEND_mod p)
  rw [pendBit, rd_wr_ne s v hk, pendBit]

end

/-! ## Steps of the Brine -/

/-- `t` differs from `s` in its registers, in what events use beside them and in the Brine at most. -/
def OnlyBl (s t : State) : Prop :=
  ∃ r p h i e l b, t = { s with regs := r, evPay := p, evHeld := h, evIn := i, ev := e, sl := l, bl := b }

theorem OnlyBl.refl (s : State) : OnlyBl s s := ⟨s.regs, s.evPay, s.evHeld, s.evIn, s.ev, s.sl, s.bl, rfl⟩
theorem OnlyBl.trans {s t u : State} (h : OnlyBl s t) (g : OnlyBl t u) : OnlyBl s u := by
  obtain ⟨_, _, _, _, _, _, _, rfl⟩ := h
  obtain ⟨r, p, h, i, e, l, b, rfl⟩ := g
  exact ⟨r, p, h, i, e, l, b, rfl⟩
theorem onlyBl_of_evFrame {s t : State} (h : EvFrame s t) : OnlyBl s t := by
  refine ⟨t.regs, t.evPay, t.evHeld, t.evIn, t.ev, t.sl, t.bl, ?_⟩
  obtain ⟨⟩ := s
  obtain ⟨⟩ := t
  obtain ⟨⟩ := h
  simp_all
theorem OnlyBl.kept {s t : State} (h : OnlyBl s t) : Kept s { t with bl := s.bl } := by
  obtain ⟨_, _, _, _, _, _, _, rfl⟩ := h
  exact kept_refl s
theorem OnlyBl.kept_of_bl {s t : State} (h : OnlyBl s t) (hb : t.bl = s.bl) : Kept s t := by
  have hk := h.kept
  rwa [← hb] at hk

/-- From `s` to `t` the Brine has changed, of the registers those of `own` and those that an event of the pages `pgs` touches,
and what events use beside them. -/
structure BlStep (own pgs : List Nat) (s t : State) : Prop where
  regs : RegsEv s t own pgs
  pend : ∀ p j, j < 32 → pendBit s p j = true → pendBit t p j = true
  only : OnlyBl s t

namespace BlStep
variable {own pgs : List Nat} {s t u : State}

theorem refl (own pgs : List Nat) (s : State) : BlStep own pgs s s := ⟨regsEv_refl, fun _ _ _ h => h, OnlyBl.refl s⟩
theorem trans (h : BlStep own pgs s t) (g : BlStep own pgs t u) : BlStep own pgs s u :=
  ⟨regsEv_trans h.regs g.regs, fun p j hj hp => g.pend p j hj (h.pend p j hj hp), h.only.trans g.only⟩
theorem mono {own' pgs' : List Nat} (h : BlStep own pgs s t) (ho : own ⊆ own') (hp : pgs ⊆ pgs') : BlStep own' pgs' s t :=
  ⟨regsEv_mono h.regs ho hp, h.pend, h.only⟩
theorem rd (h : BlStep own pgs s t) {k : Nat} (hk : k ∉ own) (hs : Spared k) : t.rd k = s.rd k := rd_of_regsEv h.regs hk hs
theorem fld (h : BlStep own pgs s t) (f : Fld) (hk : f.key ∉ own) (hs : Spared f.key) : t.fld f = s.fld f :=
  fld_of_rd f (h.rd hk hs)
theorem flag (h : BlStep own pgs s t) (f : Fld) (hk : f.key ∉ own) (hs : Spared f.key) : t.flag f = s.flag f :=
  flag_of_rd f (h.rd hk hs)
theorem kept (h : BlStep own pgs s t) : Kept s { t with bl := s.bl } := h.only.kept

end BlStep

section
variable {own pgs : List Nat} (s : State)

theorem blStep_wr {k : Nat} (v : Word) (hk : k ∈ own) (h4 : k % 1024 ≠ 4) : BlStep own pgs s (s.wr k v) :=
  ⟨fun _ ho _ _ _ => rd_wr_ne s v fun h => ho (h ▸ hk), fun p j _ h => (pendBit_wr s v h4 p j).trans h,
    _, s.evPay, s.evHeld, s.evIn, s.ev, s.sl, s.bl, rfl⟩
theorem blStep_setFld (f : Fld) (v : Nat) (hk : f.key ∈ own) (h4 : f.key % 1024 ≠ 4) : BlStep own pgs s (s.setFld f v) :=
  blStep_wr s _ hk h4
theorem blStep_setFlag (f : Fld) (b : Bool) (hk : f.key ∈ own) (h4 : f.key % 1024 ≠ 4) : BlStep own pgs s (s.setFlag f b) :=
  blStep_wr s _ hk h4
theorem blStep_setPort (n : Nat) (x : BPort) : BlStep own pgs s (s.setPort n x) :=
  ⟨fun _ _ _ _ _ => rfl, fun _ _ _ h => h, s.regs, s.evPay, s.evHeld, s.evIn, s.ev, s.sl, _, rfl⟩
theorem blStep_setLane (n l : Nat) (x : Lane) : BlStep own pgs s (s.setLane n l x) :=
  ⟨fun _ _ _ _ _ => rfl, fun _ _ _ h => h, s.regs, s.evPay, s.evHeld, s.evIn, s.ev, s.sl, _, rfl⟩

/-- An event of one of the pages. -/
theorem blStep_post {pg : Nat} (b sev v c d : Nat) (hp : pg ∈ pgs) : BlStep own pgs s (post pg b sev v c d s) :=
  ⟨fun _ _ hq hg hd => rd_post _ _ _ _ _ _ _ ⟨hq _ hp, fun g => by rcases g with ⟨_, _⟩; omega, hd⟩,
    fun p j hj h => pendBit_post_mono _ _ _ _ _ _ s p j hj h, onlyBl_of_evFrame (post_frame pg b sev v c d s)⟩
/-- An event that is posted on a condition. -/
theorem blStep_postIf (c : Prop) [Decidable c] {pg : Nat} (b sev v x d : Nat) (hp : pg ∈ pgs) :
    BlStep own pgs s (if c then post pg b sev v x d s else s) := by
  split
  · exact blStep_post s b sev v x d hp
  · exact BlStep.refl _ _ s
theorem pendBit_postIf {c : Prop} [Decidable c] {pg b : Nat} (sev v x d : Nat) (hc : c) (hb : b < 32) :
    pendBit (if c then post pg b sev v x d s else s) pg b = true := by
  rw [if_pos hc]
  exact pendBit_post pg b sev v x d s hb
theorem bl_postIf (c : Prop) [Decidable c] (pg b sev v x d : Nat) : (if c then post pg b sev v x d s else s).bl = s.bl := by
  split
  · exact post_bl pg b sev v x d s
  · rfl

end

/-! ## Steps without an event -/

/-- From `s` to `t` the Brine and the registers of `own` have changed at most, and no event was raised. -/
structure Quiet (own : List Nat) (s t : State) : Prop where
  regs : Claims.Regs s t own
  only : ∃ r b, t = { s with regs := r, bl := b }

namespace Quiet
variable {own : List Nat} {s t u : State}

theorem refl (own : List Nat) (s : State) : Quiet own s s := ⟨fun _ _ => rfl, s.regs, s.bl, rfl⟩
theorem trans (h : Quiet own s t) (g : Quiet own t u) : Quiet own s u := by
  obtain ⟨hr, _, _, rfl⟩ := h
  obtain ⟨hr', r, b, rfl⟩ := g
  exact ⟨fun k hk => (hr' k hk).trans (hr k hk), r, b, rfl⟩
theorem mono {own' : List Nat} (h : Quiet own s t) (ho : own ⊆ own') : Quiet own' s t :=
  ⟨fun k hk => h.regs k fun hm => hk (ho hm), h.only⟩
theorem fld (h : Quiet own s t) (f : Fld) (hk : f.key ∉ own) : t.fld f = s.fld f := fld_of_rd f (h.regs _ hk)
theorem noEvents (h : Quiet own s t) : NoEvents s t := by
  obtain ⟨_, _, _, rfl⟩ := h
  exact ⟨rfl, rfl, rfl, rfl, rfl⟩
theorem kept (h : Quiet own s t) : Kept s { t with bl := s.bl } := by
  obtain ⟨_, _, _, rfl⟩ := h
  exact kept_refl s
theorem kept_of_bl (h : Quiet own s t) (hb : t.bl = s.bl) : Kept s t := by
  have hk := h.kept
  rwa [← hb] at hk
theorem step (h : Quiet own s t) {pgs : List Nat} (h4 : ∀ k ∈ own, k % 1024 ≠ 4) : BlStep own pgs s t where
  regs := regsEv_of_regs h.regs
  pend p j _ hp := by
    rwa [pendBit, h.regs (rEV_PEND p) (fun hk => h4 _ hk (rEV_PEND_mod p))]
  only := by
    obtain ⟨_, r, b, rfl⟩ := h
    exact ⟨r, s.evPay, s.evHeld, s.evIn, s.ev, s.sl, b, rfl⟩

end Quiet

section
variable {own : List Nat} (s : State)

theorem quiet_wr {k : Nat} (v : Word) (hk : k ∈ own) : Quiet own s (s.wr k v) :=
  ⟨fun _ ho => rd_wr_ne s v fun h => ho (h ▸ hk), _, s.bl, rfl⟩
theorem quiet_setFld (f : Fld) (v : Nat) (hk : f.key ∈ own) : Quiet own s (s.setFld f v) := quiet_wr s _ hk
theorem quiet_setFlag (f : Fld) (b : Bool) (hk : f.key ∈ own) : Quiet own s (s.setFlag f b) := quiet_wr s _ hk
theorem quiet_setLane (n l : Nat) (x : Lane) : Quiet own s (s.setLane n l x) := ⟨fun _ _ => rfl, s.regs, _, rfl⟩
theorem quiet_setPort (n : Nat) (x : BPort) : Quiet own s (s.setPort n x) := ⟨fun _ _ => rfl, s.regs, _, rfl⟩

end

/-! ## The records of lanes and ports -/

section
variable (s : State) (n l m k : Nat)

theorem laneOf_setLane_self (x : Lane) : laneOf (s.setLane n l x) n l = x := storeGet_storeSet_self _ _ _ _
theorem laneOf_of_bl {s t : State} (h : t.bl = s.bl) : laneOf t n l = laneOf s n l := by rw [laneOf, h]; rfl
theorem laneOnly_refl : LaneOnly s s n l := ⟨fun _ _ => rfl, rfl, rfl⟩
theorem laneOnly_setLane (x : Lane) : LaneOnly s (s.setLane n l x) n l :=
  ⟨fun _ hk => storeGet_storeSet_ne _ _ _ _ hk, rfl, rfl⟩
theorem laneOnly_trans {s t u : State} (h : LaneOnly s t n l) (g : LaneOnly t u n l) : LaneOnly s u n l := by
  obtain ⟨hl, hp, hc⟩ := h
  obtain ⟨gl, gp, gc⟩ := g
  exact ⟨fun k hk => (gl k hk).trans (hl k hk), gp.trans hp, gc.trans hc⟩
theorem laneOnly_of_bl {s t : State} (h : t.bl = s.bl) : LaneOnly s t n l := by
  rw [LaneOnly, h]
  exact ⟨fun _ _ => rfl, rfl, rfl⟩

theorem port_setPort_self (p : BPort) : (s.setPort n p).port n = p := storeGet_storeSet_self _ _ _ _
theorem otherPort_setPort (p : BPort) : OtherPort s (s.setPort n p) n := fun _ hm => storeGet_storeSet_ne _ _ _ _ hm
theorem port_of_bl {s t : State} (h : t.bl = s.bl) : t.port m = s.port m := by rw [State.port, h]; rfl
theorem port_of_ports {s t : State} (h : t.bl.ports = s.bl.ports) : t.port m = s.port m := by rw [State.port, h]; rfl

end

end Sys2Proof.Machine
end

section
/-!
PROOFS. The state of a Brine lane (R220, R226): the fields of a lane, and what a change of its state does to the registers, to the
lane's record and to the events.
-/

namespace Sys2Proof.Machine
open Sys2Proof Sys2Proof.Claims

/-! ## Fields and counters -/

theorem satInc_mod (w v : Nat) : satInc w v % 2 ^ w = satInc w v := by
  have hpos := Nat.two_pow_pos w
  refine Nat.mod_eq_of_lt ?_
  rw [satInc]
  split <;> omega
theorem satAdd_mod (w v k : Nat) : satAdd w v k % 2 ^ w = satAdd w v k := by
  have hpos := Nat.two_pow_pos w
  refine Nat.mod_eq_of_lt ?_
  rw [satAdd]
  omega
theorem fld_lt (s : State) (f : Fld) : s.fld f < 2 ^ f.width := by
  rw [State.fld, bitsGet]
  exact Nat.mod_lt _ (Nat.two_pow_pos _)
theorem fld_incFld (s : State) (f : Fld) (h : f.lo + f.width ≤ 32) : (s.incFld f).fld f = satInc f.width (s.fld f) := by
  rw [fld_incFld_self s f h, satInc_mod]
theorem fld_addFld (s : State) (f : Fld) (k : Nat) (h : f.lo + f.width ≤ 32) :
    (s.addFld f k).fld f = satAdd f.width (s.fld f) k := by
  rw [State.addFld, fld_setFld_self s f _ h, satAdd_mod]

/-- A field that is set to what it reads as: no register changes. -/
theorem rd_setFld_fld (s : State) (f : Fld) (h : f.lo + f.width ≤ 32) (k : Nat) : (s.setFld f (s.fld f)).rd k = s.rd k := by
  rw [State.setFld, rd_wr]
  split
  · next hk =>
    subst hk
    apply BitVec.eq_of_toNat_eq
    rw [bitsSet_toNat _ _ _ _ h, State.fld, bitsGet, Nat.mod_mod]
    exact parts_sum _ _ _
  · rfl
theorem rd_addFld_zero (s : State) (f : Fld) (h : f.lo + f.width ≤ 32) (k : Nat) : (s.addFld f 0).rd k = s.rd k := by
  have hv : satAdd f.width (s.fld f) 0 = s.fld f := by
    have := fld_lt s f
    rw [satAdd]
    omega
  rw [State.addFld, hv, rd_setFld_fld s f h]

/-- The word of the error counters of lane `l` (R255). -/
abbrev errKey (n l : Nat) : Nat := if l = 0 then rBLn_ERRA n else rBLn_ERRB n

section
variable (n : Nat) {l : Nat}

theorem fState_eq (hl : l < 2) : fState n l = ⟨rBLn_LSTAT n, 16 * l, 4⟩ := by interval_cases l <;> rfl
theorem fCause_eq (hl : l < 2) : fCause n l = ⟨rBLn_LSTAT n, 16 * l + 4, 4⟩ := by interval_cases l <;> rfl
theorem fRtd_eq (hl : l < 2) : fRtd n l = ⟨rBLn_RTD n, 16 * l, 8⟩ := by interval_cases l <;> rfl
theorem fRetrain_eq (hl : l < 2) : fRetrain n l = ⟨rBLn_RETRAIN n, 8 * l, 8⟩ := by interval_cases l <;> rfl
theorem fCrcErr_eq (hl : l < 2) : fCrcErr n l = ⟨errKey n l, 16, 16⟩ := by interval_cases l <;> rfl
theorem fCvErr_eq (hl : l < 2) : fCvErr n l = ⟨errKey n l, 0, 16⟩ := by interval_cases l <;> rfl

theorem spared_LSTAT (hn : n < 64) : Spared (rBLn_LSTAT n) := by
  apply spared_brine <;> simp only [rBLn_LSTAT] <;> omega

end

/-! ## The state of a lane -/

section
variable {s t : State} {n l : Nat}

theorem laneSt_of_rd (hl : l < 2) (h : t.rd (rBLn_LSTAT n) = s.rd (rBLn_LSTAT n)) : laneSt t n l = laneSt s n l := by
  rw [laneSt, laneSt, fState_eq n hl]
  exact fld_of_rd _ h
theorem lanesActive_eq (s : State) (n : Nat) (hl : l < 2) :
    lanesActive s n = (laneSt s n l == 4 || laneSt s n (1 - l) == 4) := by
  interval_cases l
  · exact congrArg (laneSt s n 0 == 4 || ·) (Bool.or_false _)
  · rw [Bool.or_comm]
    exact congrArg (laneSt s n 0 == 4 || ·) (Bool.or_false _)
theorem lanesActive_of_rd (h : t.rd (rBLn_LSTAT n) = s.rd (rBLn_LSTAT n)) : lanesActive t n = lanesActive s n := by
  rw [lanesActive_eq t n (l := 0) (by decide), lanesActive_eq s n (l := 0) (by decide), laneSt_of_rd (by decide) h,
    laneSt_of_rd (by decide) h]
theorem lanesActive_of_state (hl : l < 2) (h : laneSt s n l = 4) : lanesActive s n = true := by
  rw [lanesActive_eq s n hl, h]
  rfl

end

/-! ## A change of state (R220, R226) -/

/-- The registers once lane `l` is in state `st`: the state and PRESENT. -/
def laneMarked (n l st : Nat) (s : State) : State :=
  (s.setFld (fState n l) st).setFlag (fBLn_LSTAT_PRESENT n) (lanesActive (s.setFld (fState n l) st) n)

section
variable {n l st : Nat} (s : State) (hl : l < 2)

theorem laneSt_laneMarked_of_set {j : Nat} (hj : j < 2) :
    laneSt (laneMarked n l st s) n j = laneSt (s.setFld (fState n l) st) n j := by
  rw [laneSt, laneSt, fState_eq n hj]
  exact fld_setFlag_ne _ _ _ _ (by dsimp only [fBLn_LSTAT_PRESENT]; omega)
    (Or.inr (by dsimp only [fBLn_LSTAT_PRESENT]; omega))

include hl

theorem fld_setFld_fState_ne (v : Nat) {f : Fld} (hd : f.apart ⟨rBLn_LSTAT n, 16 * l, 4⟩) :
    (s.setFld (fState n l) v).fld f = s.fld f :=
  fld_setFld_ne s _ f v (by rw [fState_eq n hl]; dsimp only; omega) (by rwa [fState_eq n hl])

theorem quiet_laneMarked : Quiet [rBLn_LSTAT n] s (laneMarked n l st s) :=
  (quiet_setFld s _ _ (by simp [fState_eq n hl])).trans (quiet_setFlag _ _ _ (by simp [fBLn_LSTAT_PRESENT]))

theorem laneSt_laneMarked (hst : st < 16) : laneSt (laneMarked n l st s) n l = st := by
  rw [laneSt_laneMarked_of_set s hl, laneSt, fld_setFld_self _ _ _ (by rw [fState_eq n hl]; dsimp only; omega),
    fState_eq n hl]
  exact Nat.mod_eq_of_lt hst

theorem laneSt_laneMarked_other : laneSt (laneMarked n l st s) n (1 - l) = laneSt s n (1 - l) := by
  rw [laneSt_laneMarked_of_set s (by omega), laneSt, laneSt, fState_eq n (l := 1 - l) (by omega),
    fld_setFld_fState_ne s hl st (Or.inr (by dsimp only; omega))]

omit hl in
theorem present_laneMarked : (laneMarked n l st s).flag (fBLn_LSTAT_PRESENT n) = lanesActive (laneMarked n l st s) n := by
  rw [laneMarked, flag_setFlag_self _ _ _ (by decide : 24 + 1 ≤ 32) rfl, ← laneMarked,
    lanesActive_eq (laneMarked n l st s) n (l := 0) (by decide), lanesActive_eq _ n (l := 0) (by decide),
    laneSt_laneMarked_of_set s (by decide), laneSt_laneMarked_of_set s (by decide)]

end

/-- The state of lane `l` changes with its record; what the events and the other registers may do (R226). -/
structure LaneStep (s t : State) (n l st : Nat) (x : Lane) (own : List Nat) : Prop where
  state : laneSt t n l = st
  other : laneSt t n (1 - l) = laneSt s n (1 - l)
  lane : laneOf t n l = x
  present : t.flag (fBLn_LSTAT_PRESENT n) = lanesActive t n
  up : st ≠ 4 ∨ laneSt s n l = 4 ∨ pendBit t (blLink n) (2 + l) = true
  found : st ≠ 4 ∨ lanesActive s n = true ∨ pendBit t (blLink n) 0 = true
  down : st = 4 ∨ laneSt s n l ≠ 4 ∨ pendBit t (blLink n) (4 + l) = true
  lost : lanesActive s n = false ∨ lanesActive t n = true ∨ pendBit t (blLink n) 1 = true
  silent : decide (st = 4) ≠ decide (laneSt s n l = 4) ∨ Quiet (rBLn_LSTAT n :: own) s t
  step : BlStep (rBLn_LSTAT n :: own) [blLink n] s t
  only : LaneOnly s t n l

theorem LaneStep.laneTo {s t : State} {n l st : Nat} {x : Lane} {own : List Nat} (h : LaneStep s t n l st x own) :
    LaneTo s t n l st x own :=
  ⟨h.state, h.other, h.lane, h.present, h.up, h.found, h.down, h.lost, h.silent.imp_right fun q => ⟨q.noEvents, q.regs⟩,
    h.step.regs, h.only, h.step.kept⟩

/-- What precedes a change of state of lane `l` at `u`: its record is `x`, no event was raised, and neither lane has become
ACTIVE or ceased to be. -/
structure LanePrep (s u : State) (n l : Nat) (x : Lane) (own : List Nat) : Prop where
  active : laneSt u n l = 4 ↔ laneSt s n l = 4
  other : laneSt u n (1 - l) = laneSt s n (1 - l)
  lane : laneOf u n l = x
  quiet : Quiet (rBLn_LSTAT n :: own) s u
  only : LaneOnly s u n l

theorem LanePrep.lanesActive_eq {s u : State} {n l : Nat} {x : Lane} {own : List Nat} (h : LanePrep s u n l x own)
    (hl : l < 2) : lanesActive u n = lanesActive s n := by
  rw [Machine.lanesActive_eq u n hl, Machine.lanesActive_eq s n hl, h.other]
  exact congrArg (· || _) (Bool.eq_iff_iff.2 (by simpa using h.active))

/-! The events of a change of state, one after the other (R226): LANE_UP, MOD_PRESENT, LANE_DOWN, MOD_LOST. -/

def lanePosted (n l st : Nat) (s : State) : State :=
  if st = 4 ∧ laneSt s n l ≠ 4 then post (blLink n) (2 + l) 1 n 0 l (laneMarked n l st s) else laneMarked n l st s
def foundPosted (n l st : Nat) (s : State) : State :=
  if st = 4 ∧ lanesActive s n = false then post (blLink n) 0 1 n 0 l (lanePosted n l st s) else lanePosted n l st s
def downPosted (n l st : Nat) (s : State) : State :=
  if st ≠ 4 ∧ laneSt s n l = 4 then post (blLink n) (4 + l) 2 n (s.fld (fCause n l)) l (foundPosted n l st s)
  else foundPosted n l st s

section
variable (s : State) (n l st : Nat) {own : List Nat}

theorem laneTo_eq : laneTo n l st s = if lanesActive s n && !lanesActive (downPosted n l st s) n then
    post (blLink n) 1 3 n (s.fld (fCause n l)) l (downPosted n l st s) else downPosted n l st s := by
  unfold laneTo
  extract_lets was had c s₀ marked posted found down
  have hposted : posted = lanePosted n l st s := rfl
  have hfound : found = foundPosted n l st s := by rw [foundPosted, ← hposted]
  have hdown : down = downPosted n l st s := by rw [downPosted, ← hfound]
  rw [hdown]

theorem blStep_lanePosted : BlStep own [blLink n] (laneMarked n l st s) (lanePosted n l st s) :=
  blStep_postIf _ _ _ _ _ _ _ (List.mem_singleton_self _)
theorem blStep_foundPosted : BlStep own [blLink n] (lanePosted n l st s) (foundPosted n l st s) :=
  blStep_postIf _ _ _ _ _ _ _ (List.mem_singleton_self _)
theorem blStep_downPosted : BlStep own [blLink n] (foundPosted n l st s) (downPosted n l st s) :=
  blStep_postIf _ _ _ _ _ _ _ (List.mem_singleton_self _)
theorem blStep_laneTo_lost : BlStep own [blLink n] (downPosted n l st s) (laneTo n l st s) := by
  rw [laneTo_eq]
  exact blStep_postIf _ _ _ _ _ _ _ (List.mem_singleton_self _)
theorem blStep_laneTo_down : BlStep own [blLink n] (foundPosted n l st s) (laneTo n l st s) :=
  (blStep_downPosted s n l st).trans (blStep_laneTo_lost s n l st)
theorem blStep_laneTo_found : BlStep own [blLink n] (lanePosted n l st s) (laneTo n l st s) :=
  (blStep_foundPosted s n l st).trans (blStep_laneTo_down s n l st)
/-- What follows the registers of a change of state is the events of the link page. -/
theorem blStep_laneTo_marked : BlStep own [blLink n] (laneMarked n l st s) (laneTo n l st s) :=
  (blStep_lanePosted s n l st).trans (blStep_laneTo_found s n l st)

theorem bl_laneTo : (laneTo n l st s).bl = s.bl := by
  rw [laneTo_eq, bl_postIf, downPosted, bl_postIf, foundPosted, bl_postIf, lanePosted, bl_postIf, laneMarked,
    State.setFlag_bl, State.setFld_bl]

variable {n l st} (hn : n < 64)
include hn

theorem rd_LSTAT_laneTo : (laneTo n l st s).rd (rBLn_LSTAT n) = (laneMarked n l st s).rd (rBLn_LSTAT n) :=
  (blStep_laneTo_marked s n l st).rd (List.not_mem_nil) (spared_LSTAT n hn)
theorem lanesActive_downPosted : lanesActive (downPosted n l st s) n = lanesActive (laneMarked n l st s) n :=
  lanesActive_of_rd ((((blStep_lanePosted s n l st).trans (blStep_foundPosted s n l st)).trans
    (blStep_downPosted s n l st)).rd (List.not_mem_nil) (spared_LSTAT n hn))

end

section
variable {s u : State} {n l st : Nat} {x : Lane} {own : List Nat}

/-- A change of state that neither makes the lane ACTIVE nor ends it posts nothing. -/
theorem laneTo_of_silent (hn : n < 64) (hl : l < 2) (hst : st < 16) (h : st = 4 ↔ laneSt s n l = 4) :
    laneTo n l st s = laneMarked n l st s := by
  have hlane : lanePosted n l st s = laneMarked n l st s := if_neg (by tauto)
  have hfound : foundPosted n l st s = lanePosted n l st s := if_neg fun hc => by
    rw [lanesActive_of_state hl (h.1 hc.1)] at hc
    exact absurd hc.2 (by decide)
  have hdown : downPosted n l st s = foundPosted n l st s := if_neg (by tauto)
  have hact : lanesActive (downPosted n l st s) n = lanesActive s n := by
    rw [lanesActive_downPosted s hn, lanesActive_eq _ n hl, lanesActive_eq s n hl, laneSt_laneMarked s hl hst,
      laneSt_laneMarked_other s hl]
    exact congrArg (· || _) (Bool.eq_iff_iff.2 (by simpa using h))
  rw [laneTo_eq, if_neg (by simp [hact]), hdown, hfound, hlane]

/-- The rule for a change of state. -/
theorem LanePrep.changed (h : LanePrep s u n l x own) (hn : n < 64) (hl : l < 2) (hst : st < 16)
    (h4 : ∀ k ∈ own, k % 1024 ≠ 4) : LaneStep s (laneTo n l st u) n l st x own := by
  have hrd := rd_LSTAT_laneTo u (l := l) (st := st) hn
  have hmarked : Quiet (rBLn_LSTAT n :: own) u (laneMarked n l st u) :=
    (quiet_laneMarked u hl).mono (by simp)
  have h4' : ∀ k ∈ rBLn_LSTAT n :: own, k % 1024 ≠ 4 := List.forall_mem_cons.2 ⟨(spared_LSTAT n hn).2.2, h4⟩
  have hact : lanesActive (laneTo n l st u) n = lanesActive (laneMarked n l st u) n := lanesActive_of_rd hrd
  refine ⟨?state, ?other, ?lane, ?present, ?up, ?found, ?down, ?lost, ?silent, ?step, ?only⟩
  case state => rw [laneSt_of_rd hl hrd, laneSt_laneMarked u hl hst]
  case other => rw [laneSt_of_rd (by omega) hrd, laneSt_laneMarked_other u hl, h.other]
  case lane => rw [laneOf_of_bl _ _ (bl_laneTo u n l st), h.lane]
  case present => rw [flag_of_rd _ hrd, present_laneMarked u, hact]
  case up =>
    by_cases hc : st = 4 ∧ laneSt u n l ≠ 4
    · exact .inr (.inr ((blStep_laneTo_found (own := own) u n l st).pend _ _ (by omega)
        (pendBit_postIf _ _ _ _ _ hc (by omega))))
    · rw [← h.active]
      tauto
  case found =>
    by_cases hc : st = 4 ∧ lanesActive u n = false
    · exact .inr (.inr ((blStep_laneTo_down (own := own) u n l st).pend _ _ (by omega)
        (pendBit_postIf _ _ _ _ _ hc (by omega))))
    · rw [h.lanesActive_eq hl, not_and, Bool.not_eq_false] at hc
      tauto
  case down =>
    by_cases hc : st ≠ 4 ∧ laneSt u n l = 4
    · exact .inr (.inr ((blStep_laneTo_lost (own := own) u n l st).pend _ _ (by omega)
        (pendBit_postIf _ _ _ _ _ hc (by omega))))
    · rw [h.active] at hc
      tauto
  case lost =>
    by_cases hc : (lanesActive u n && !lanesActive (downPosted n l st u) n) = true
    · rw [laneTo_eq]
      exact .inr (.inr (pendBit_postIf _ _ _ _ _ hc (by omega)))
    · rw [lanesActive_downPosted u hn, ← hact, h.lanesActive_eq hl, Bool.and_eq_true, not_and, Bool.not_eq_true',
        Bool.not_eq_false, imp_iff_not_or, Bool.not_eq_true] at hc
      exact hc.imp_right .inl
  case silent =>
    by_cases hc : st = 4 ↔ laneSt u n l = 4
    · rw [laneTo_of_silent hn hl hst hc]
      exact .inr (h.quiet.trans hmarked)
    · exact .inl fun he => hc ((decide_eq_decide.1 he).trans h.active.symm)
  case step => exact ((h.quiet.trans hmarked).step h4').trans (blStep_laneTo_marked u n l st)
  case only => exact laneOnly_trans _ _ h.only (laneOnly_of_bl _ _ (bl_laneTo u n l st))

end

end Sys2Proof.Machine
end

section
/-!
PROOFS. What moves a Brine lane (R220 to R226): the four changes of state that the operations share, the operations themselves,
and the statement BrineLanes.
-/

namespace Sys2Proof.Machine
open Sys2Proof Sys2Proof.Claims

/-! ## What precedes a change of state -/

theorem rBLn_mod (n : Nat) : rBLn_LSTAT n % 1024 = 17 ∧ rBLn_RTD n % 1024 = 18 ∧ rBLn_ERRA n % 1024 = 19 ∧
    rBLn_ERRB n % 1024 = 20 ∧ rBLn_RETRAIN n % 1024 = 21 := by
  simp only [rBLn_LSTAT, rBLn_RTD, rBLn_ERRA, rBLn_ERRB, rBLn_RETRAIN]
  omega

section
variable {s u v : State} {n l st : Nat} {x : Lane} {own : List Nat}

theorem lanePrep_refl (s : State) (n l : Nat) (own : List Nat) : LanePrep s s n l (laneOf s n l) own :=
  ⟨Iff.rfl, rfl, rfl, Quiet.refl _ s, laneOnly_refl s n l⟩

/-- The lane's record is written. -/
theorem LanePrep.setLane (h : LanePrep s u n l x own) (y : Lane) : LanePrep s (u.setLane n l y) n l y own :=
  ⟨h.active, h.other, laneOf_setLane_self _ _ _ _, h.quiet.trans (quiet_setLane _ _ _ _),
    laneOnly_trans _ _ h.only (laneOnly_setLane _ _ _ _)⟩

/-- Registers beside BLn_LSTAT are written. -/
theorem LanePrep.regs (h : LanePrep s u n l x own) (hl : l < 2) (q : Quiet own u v) (hk : rBLn_LSTAT n ∉ own)
    (hb : v.bl = u.bl) : LanePrep s v n l x own where
  active := by rw [laneSt_of_rd hl (q.regs _ hk), h.active]
  other := by rw [laneSt_of_rd (by omega) (q.regs _ hk), h.other]
  lane := by rw [laneOf_of_bl _ _ hb, h.lane]
  quiet := h.quiet.trans (q.mono (by simp))
  only := laneOnly_trans _ _ h.only (laneOnly_of_bl _ _ hb)

theorem fld_setFld_fCause_ne (s : State) (hl : l < 2) (c : Nat) {f : Fld} (hd : f.apart ⟨rBLn_LSTAT n, 16 * l + 4, 4⟩) :
    (s.setFld (fCause n l) c).fld f = s.fld f :=
  fld_setFld_ne s _ f c (by rw [fCause_eq n hl]; dsimp only; omega) (by rwa [fCause_eq n hl])

/-- The cause of a fall is written; it shares no bit with the states. -/
theorem LanePrep.cause (h : LanePrep s u n l x own) (hl : l < 2) (c : Nat) :
    LanePrep s (u.setFld (fCause n l) c) n l x own := by
  have hst : ∀ j < 2, laneSt (u.setFld (fCause n l) c) n j = laneSt u n j := fun j hj => by
    rw [laneSt, laneSt, fState_eq n hj]
    exact fld_setFld_fCause_ne u hl c (.inr (by dsimp only; omega))
  have hb : (u.setFld (fCause n l) c).bl = u.bl := State.setFld_bl _ _ _
  exact ⟨by rw [hst l hl, h.active], by rw [hst (1 - l) (by omega), h.other], by rw [laneOf_of_bl _ _ hb, h.lane],
    h.quiet.trans (quiet_setFld _ _ _ (by simp [fCause_eq n hl])), laneOnly_trans _ _ h.only (laneOnly_of_bl _ _ hb)⟩

/-- A lane that was not ACTIVE and is put to a state other than ACTIVE. -/
theorem lanePrep_laneTo (own : List Nat) (hn : n < 64) (hl : l < 2) (hst : st < 16) (h4 : st ≠ 4) (hne : laneSt s n l ≠ 4) :
    LanePrep s (laneTo n l st s) n l (laneOf s n l) own := by
  rw [laneTo_of_silent hn hl hst (by tauto)]
  have hb : (laneMarked n l st s).bl = s.bl := by rw [laneMarked, State.setFlag_bl, State.setFld_bl]
  exact ⟨by rw [laneSt_laneMarked s hl hst]; tauto, laneSt_laneMarked_other s hl, laneOf_of_bl _ _ hb,
    (quiet_laneMarked s hl).mono (by simp), laneOnly_of_bl _ _ hb⟩

end

/-! ## What a change of state leaves -/

section
variable (s : State) {n l : Nat} (st : Nat) (hl : l < 2)
include hl

theorem blStep_laneTo : BlStep [rBLn_LSTAT n] [blLink n] s (laneTo n l st s) :=
  ((quiet_laneMarked s hl).step (by simp [(rBLn_mod n).1])).trans (blStep_laneTo_marked s n l st)

theorem fld_fCause_laneTo (hn : n < 64) : (laneTo n l st s).fld (fCause n l) = s.fld (fCause n l) := by
  have hk : (fCause n l).key = rBLn_LSTAT n := by rw [fCause_eq n hl]
  rw [fld_of_rd _ (show _ = (laneMarked n l st s).rd _ by rw [hk]; exact rd_LSTAT_laneTo s hn), laneMarked, fCause_eq n hl,
    fld_setFlag_ne _ _ _ _ (by dsimp only [fBLn_LSTAT_PRESENT]; omega) (.inr (by dsimp only [fBLn_LSTAT_PRESENT]; omega)),
    fld_setFld_fState_ne s hl st (.inr (by dsimp only; omega))]

end

/-! ## The shared changes of state -/

section
variable {s u : State} {n l : Nat} {x : Lane} {own : List Nat} (hn : n < 64) (hl : l < 2)
include hn hl

/-- A lane enters LOCK (R225). -/
theorem LanePrep.lockStep (h : LanePrep s u n l x [rBLn_RETRAIN n]) :
    LaneStep s (laneLock n l u) n l 1 (locking x) [rBLn_RETRAIN n] ∧
    (laneLock n l u).fld (fRetrain n l) =
      (if x.locked then satInc 8 (u.fld (fRetrain n l)) else u.fld (fRetrain n l)) := by
  have hR := (rBLn_mod n).2.2.2.2
  have hL := (rBLn_mod n).1
  have hne : rBLn_LSTAT n ∉ [rBLn_RETRAIN n] := by simp; omega
  obtain ⟨w, hw⟩ : ∃ w, w = if x.locked then u.incFld (fRetrain n l) else u := ⟨_, rfl⟩
  have hq : Quiet [rBLn_RETRAIN n] u w := by
    rw [hw]
    split
    · exact quiet_setFld _ _ _ (by simp [fRetrain_eq n hl])
    · exact Quiet.refl _ _
  have hb : w.bl = u.bl := by
    rw [hw]
    split
    · exact State.incFld_bl _ _
    · rfl
  have hlock : laneLock n l u = laneTo n l 1 (w.setLane n l (locking x)) := by
    rw [hw, ← h.lane]
    rfl
  have hfld : w.fld (fRetrain n l) = (if x.locked then satInc 8 (u.fld (fRetrain n l)) else u.fld (fRetrain n l)) := by
    rw [hw]
    split
    · rw [fld_incFld _ _ (by rw [fRetrain_eq n hl]; dsimp only; omega), fRetrain_eq n hl]
    · rfl
  rw [hlock]
  refine ⟨((h.regs hl hq hne hb).setLane _).changed hn hl (by decide) (by simp [hR]), ?_⟩
  rw [(blStep_laneTo _ 1 hl).fld _ (by simp [fRetrain_eq n hl]; omega)
    (by rw [fRetrain_eq n hl]; apply spared_brine <;> simp only [rBLn_RETRAIN] <;> omega), fld_setLane, hfld]

theorem locks_laneLock (s : State) : Locks s (laneLock n l s) n l := by
  obtain ⟨hstep, hfld⟩ := (lanePrep_refl s n l _).lockStep hn hl
  exact ⟨hstep.laneTo, hfld⟩

/-- A lane falls to DOWN with a cause (R221). -/
theorem LanePrep.fallStep (h : LanePrep s u n l x own) {c : Nat} (hc : c < 16) (h4 : ∀ k ∈ own, k % 1024 ≠ 4) :
    LaneStep s (laneFall n l c u) n l 0 (falling (tickNo u) c x) own ∧ (laneFall n l c u).fld (fCause n l) = c := by
  have hfall : laneFall n l c u =
      laneTo n l 0 ((u.setFld (fCause n l) c).setLane n l (falling (tickNo u) c x)) := by
    rw [← h.lane]
    rfl
  rw [hfall]
  refine ⟨((h.cause hl c).setLane _).changed hn hl (by decide) h4, ?_⟩
  rw [fld_fCause_laneTo _ 0 hl hn, fld_setLane, fld_setFld_self _ _ _ (by rw [fCause_eq n hl]; dsimp only; omega),
    fCause_eq n hl]
  exact Nat.mod_eq_of_lt hc

theorem falls_laneFall (s : State) {c : Nat} (hc : c < 16) : Falls s (laneFall n l c s) n l c [] := by
  obtain ⟨hstep, hfld⟩ := (lanePrep_refl s n l []).fallStep hn hl hc (by simp)
  exact ⟨hstep.laneTo, hfld⟩

/-- A lane enters TRAIN, IDENT or ACTIVE (R222, R224). -/
theorem LanePrep.enterStep (h : LanePrep s u n l x own) {st : Nat} (hst : st < 16) (h4 : ∀ k ∈ own, k % 1024 ≠ 4) :
    LaneStep s (laneEnter n l st u) n l st (entering (tickNo u) (fcycOf u) x) own := by
  have henter : laneEnter n l st u = laneTo n l st (u.setLane n l (entering (tickNo u) (fcycOf u) x)) := by
    rw [← h.lane]
    rfl
  rw [henter]
  exact (h.setLane _).changed hn hl hst h4

theorem laneStep_laneEnter (s : State) {st : Nat} (hst : st < 16) :
    LaneStep s (laneEnter n l st s) n l st (entering (tickNo s) (fcycOf s) (laneOf s n l)) [] :=
  (lanePrep_refl s n l []).enterStep hn hl hst (by simp)

end

end Sys2Proof.Machine
end

section
/-!
PROOFS. What moves a Brine lane (R220 to R226): training sets, identity frames and retraining, and the statement BrineLanes.
-/

namespace Sys2Proof.Machine
open Sys2Proof Sys2Proof.Claims

/-! ## Rows behind a page that may be frozen -/

section
variable {c : Instr} {s : State} {pg : Nat} {f : State → State} {P : State → Prop}

theorem ends_unfrozen (hc : Machine.exec c s = .next (unlessFrozen pg f s)) (hf : frozen s pg = false) (h : P (f s)) :
    Ends c s P := by
  rw [unlessFrozen_of_not f hf] at hc
  exact ⟨_, hc, h⟩

/-- A frozen page, or a condition under which the operation changes nothing. -/
theorem ends_idle {Q : Prop} (hc : Machine.exec c s = .next (unlessFrozen pg f s)) (h : frozen s pg = true ∨ Q)
    (hq : Q → f s = s) : Ends c s fun t => t = s := by
  refine ⟨_, hc, ?_⟩
  rw [unlessFrozen]
  split
  · rfl
  · next hf => exact hq (h.resolve_left hf)

end

/-! ## Training sets (R222, R223) -/

section
variable (s : State) (n l : Nat)

/-- What sending training sets leaves: the lane's record but for their number, and everything but the record and what left. -/
theorem sent_cases : sent s n l = s ∨ ∃ o k, sent s n l = (s.emit o).setLane n l { laneOf s n l with sets := k } := by
  by_cases h : (laneOf s n l).sets < setsBy s (laneOf s n l)
  · exact .inr ⟨_, _, if_pos h⟩
  · exact .inl (if_neg h)

theorem rd_sent (k : Nat) : (sent s n l).rd k = s.rd k := by
  rcases sent_cases s n l with h | ⟨o, j, h⟩
  · rw [h]
  · rw [h, rd_setLane, rd_emit]
theorem laneOf_sent : ∃ k, laneOf (sent s n l) n l = { laneOf s n l with sets := k } := by
  rcases sent_cases s n l with h | ⟨o, j, h⟩
  · exact ⟨_, by rw [h]⟩
  · exact ⟨j, by rw [h, laneOf_setLane_self]⟩
theorem noEvents_sent : NoEvents s (sent s n l) := by
  rcases sent_cases s n l with h | ⟨o, j, h⟩
  · rw [h]
    exact ⟨rfl, rfl, rfl, rfl, rfl⟩
  · rw [h]
    exact ⟨rfl, rfl, rfl, rfl, rfl⟩
theorem answers_sent : (laneOf (sent s n l) n l).answers = (laneOf s n l).answers := by
  obtain ⟨k, h⟩ := laneOf_sent s n l
  rw [h]
theorem entering_sent (a b : Nat) : entering a b (laneOf (sent s n l) n l) = entering a b (laneOf s n l) := by
  obtain ⟨k, h⟩ := laneOf_sent s n l
  rw [h, entering, entering]
theorem fld_sent (f : Fld) : (sent s n l).fld f = s.fld f := fld_of_rd f (rd_sent s n l _)
theorem laneSt_sent : laneSt (sent s n l) n l = laneSt s n l := fld_sent s n l _
theorem tickNo_sent : tickNo (sent s n l) = tickNo s := rd64_of_rd _ (rd_sent s n l _) (rd_sent s n l _)
theorem fcycOf_sent : fcycOf (sent s n l) = fcycOf s := rd64_of_rd _ (rd_sent s n l _) (rd_sent s n l _)
theorem pageEn_sent (pg : Nat) : pageEn (sent s n l) pg = pageEn s pg := flag_of_rd _ (rd_sent s n l _)

theorem trainSend_eq (h : laneSt s n l = 2) : trainSend n l s = sent s n l := by
  simp only [trainSend, sent, h, true_and]
  rfl
theorem trainSend_of_not (h : laneSt s n l ≠ 2) : trainSend n l s = s := by
  simp only [trainSend, h, false_and, if_false]

/-- What follows the training sets, as the statement says it. -/
theorem Quiet.of_sent {own : List Nat} {t : State} (h : Quiet own (sent s n l) t) :
    Claims.Regs s t own ∧ NoEvents s t ∧ Kept (sent s n l) { t with bl := (sent s n l).bl } := by
  obtain ⟨a, b, c, d, e⟩ := noEvents_sent s n l
  obtain ⟨a', b', c', d', e'⟩ := h.noEvents
  exact ⟨fun k hk => (h.regs k hk).trans (rd_sent s n l k),
    ⟨a'.trans a, b'.trans b, c'.trans c, d'.trans d, e'.trans e⟩, h.kept⟩

end

section
variable {s : State} {n l : Nat} (hl : l < 2)

theorem echoes_iff (pl stamp : Byte) : echoes (sent s n l) n l pl.toNat stamp.toNat = true ↔ Echo s n l pl stamp := by
  simp [echoes, Echo]

/-- The lane's record takes an answer (R222). -/
def answerTaken (n l rtd : Nat) (u : State) : State := u.setLane n l (answered rtd (laneOf u n l))

theorem trainAnswer_eq (rtd pl stamp : Nat) (u : State) (hu : trainSend n l s = u) (h : laneSt u n l = 2)
    (he : echoes u n l pl stamp = true) : trainAnswer n l rtd pl stamp s =
      if ((laneOf u n l).answers + 1) % 64 = 0 then
        (answerTaken n l rtd u).setFld (fRtd n l) (min 255 (ceilDiv (answered rtd (laneOf u n l)).rtd 4 * 4))
      else answerTaken n l rtd u := by
  simp only [trainAnswer, hu, h, he]
  rfl

theorem quiet_answerTaken (rtd : Nat) (u : State) : Quiet [] u (answerTaken n l rtd u) := quiet_setLane _ _ _ _

section
variable (h2 : laneSt s n l = 2) (rtd : Nat) {pl stamp : Byte}
include h2

theorem trainAnswer_of_other (h : ¬ Echo s n l pl stamp) :
    trainAnswer n l rtd pl.toNat stamp.toNat s = sent s n l := by
  rw [← echoes_iff, Bool.not_eq_true] at h
  rw [trainAnswer, trainSend_eq s n l h2]
  exact if_pos (.inr h)

/-- An answer that does not end a round of 64. -/
theorem trainAnswer_of_echo (h : Echo s n l pl stamp) (h64 : ((laneOf s n l).answers + 1) % 64 ≠ 0) :
    trainAnswer n l rtd pl.toNat stamp.toNat s = answerTaken n l rtd (sent s n l) := by
  rw [trainAnswer_eq rtd _ _ _ (trainSend_eq s n l h2) ((laneSt_sent s n l).trans h2) ((echoes_iff _ _).2 h),
    answers_sent, if_neg h64]

/-- The last of 64 answers gives the RTD (R223). -/
theorem trainAnswer_of_last (h : Echo s n l pl stamp) (h64 : ((laneOf s n l).answers + 1) % 64 = 0) :
    trainAnswer n l rtd pl.toNat stamp.toNat s =
      (answerTaken n l rtd (sent s n l)).setFld (fRtd n l) (min 255 ((max (laneOf s n l).rtd rtd + 3) / 4 * 4)) := by
  obtain ⟨k, hk⟩ := laneOf_sent s n l
  have hr : (answered rtd (laneOf (sent s n l) n l)).rtd = max (laneOf s n l).rtd rtd := by
    have h63 : (laneOf s n l).answers % 64 ≠ 0 := by omega
    rw [hk]
    exact if_neg h63
  rw [trainAnswer_eq rtd _ _ _ (trainSend_eq s n l h2) ((laneSt_sent s n l).trans h2) ((echoes_iff _ _).2 h),
    answers_sent, if_pos h64, hr]
  rfl

end

theorem trainAnswer_of_not (h2 : laneSt s n l ≠ 2) (rtd pl stamp : Nat) : trainAnswer n l rtd pl stamp s = s := by
  rw [trainAnswer, trainSend_of_not s n l h2]
  exact if_pos (.inl h2)

section
variable (h2 : laneSt s n l = 2)
include h2

/-- LANE_TRAIN_DONE (R222). -/
theorem laneTrained_eq : laneTrained n l s = if (laneOf s n l).answers < 64 then sent s n l
    else if 24 < s.fld (fRtd n l) then laneFall n l 3 (sent s n l)
    else if tbEn s then laneEnter n l 3 (sent s n l) else sent s n l := by
  rw [laneTrained, trainSend_eq s n l h2]
  simp only [laneSt_sent, h2, ne_eq, not_true_eq_false, false_or, answers_sent, fld_sent, pageEn_sent]
  rfl

/-- TRAIN_TIMEOUT (R222). -/
theorem trainTimeout_eq :
    trainTimeout n l s = if (laneOf s n l).answers < 64 then laneFall n l 4 (sent s n l) else sent s n l := by
  rw [trainTimeout, trainSend_eq s n l h2]
  simp only [laneSt_sent, h2, true_and, answers_sent]

end

theorem laneTrained_of_not (h2 : laneSt s n l ≠ 2) : laneTrained n l s = s := by
  rw [laneTrained, trainSend_of_not s n l h2]
  exact if_pos (.inl h2)
theorem trainTimeout_of_not (h2 : laneSt s n l ≠ 2) : trainTimeout n l s = s := by
  rw [trainTimeout, trainSend_of_not s n l h2]
  exact if_neg fun h => h2 h.1

end

/-! ## Identity frames (R224) -/

/-- The 16 words of the identity record are stored. -/
def identStored (n : Nat) (r : List Byte) (u : State) : State :=
  (List.range 16).foldl (fun t i => t.wr (rBLn_IDi n i) (BitVec.ofNat 32 (numAt r (4 * i) 4))) u

/-- The record that a frame gives, if it is valid in this tick (R230, R242). -/
def identSeen (s : State) (f : RxFrame) : Option (List Byte) :=
  if rxGood f 0xA5 && rxSeq s f && rxTime f then identOf f else none

section
variable (s : State) (n l : Nat) (f : RxFrame)

theorem quiet_rxCount (hl : l < 2) : Quiet [errKey n l] s (rxCount n l f s) := by
  have h0 : ∀ t : State, Quiet [errKey n l] t (t.addFld (fCvErr n l) f.cv.toNat) := fun t =>
    quiet_setFld t _ _ (by simp [fCvErr_eq n hl])
  rw [rxCount]
  split
  · exact h0 s
  · exact (quiet_setFld s _ _ (by simp [fCrcErr_eq n hl])).trans (h0 _)
theorem bl_rxCount : (rxCount n l f s).bl = s.bl := by
  rw [rxCount]
  split
  · exact State.addFld_bl _ _ _
  · rw [State.addFld_bl, State.incFld_bl]
/-- A frame without a violation and with a correct CRC changes no counter. -/
theorem quiet_rxCount_of_good (hl : l < 2) (h : rxGood f 0xA5 = true) : Quiet [] s (rxCount n l f s) := by
  have hq := quiet_rxCount s n l f hl
  simp only [rxGood, Bool.and_eq_true, beq_iff_eq] at h
  obtain ⟨⟨⟨_, hcv⟩, hcrc⟩, _⟩ := h
  refine ⟨fun k _ => ?_, hq.only⟩
  rw [rxCount, if_pos hcrc, hcv]
  exact rd_addFld_zero s _ (by rw [fCvErr_eq n hl]; dsimp only; omega) k

theorem fld_CvErr_rxCount (hl : l < 2) :
    (rxCount n l f s).fld (fCvErr n l) = satAdd 16 (s.fld (fCvErr n l)) f.cv.toNat := by
  have hfit : (fCvErr n l).lo + (fCvErr n l).width ≤ 32 := by rw [fCvErr_eq n hl]; dsimp only; omega
  have hinc : (if rxCrcOk f then s else s.incFld (fCrcErr n l)).fld (fCvErr n l) = s.fld (fCvErr n l) := by
    split
    · rfl
    · exact fld_setFld_ne _ _ _ _ (by rw [fCrcErr_eq n hl]; dsimp only; omega)
        (by rw [fCrcErr_eq n hl, fCvErr_eq n hl]; exact .inr (.inl (by dsimp only; omega)))
  rw [rxCount, fld_addFld _ _ _ hfit, hinc, fCvErr_eq n hl]
theorem fld_CrcErr_rxCount (hl : l < 2) : (rxCount n l f s).fld (fCrcErr n l) =
    if crc32 f.bytes = f.crc.toNat then s.fld (fCrcErr n l) else satInc 16 (s.fld (fCrcErr n l)) := by
  rw [rxCount, State.addFld, fld_setFld_ne _ _ _ _ (by rw [fCvErr_eq n hl]; dsimp only; omega)
    (by rw [fCrcErr_eq n hl, fCvErr_eq n hl]; exact .inr (.inr (by dsimp only; omega))), rxCrcOk]
  by_cases h : crc32 f.bytes = f.crc.toNat
  · rw [if_pos h, if_pos (decide_eq_true h)]
  · rw [if_neg h, if_neg (by simpa using h), fld_incFld _ _ (by rw [fCrcErr_eq n hl]; dsimp only; omega), fCrcErr_eq n hl]

end

section
variable {s : State} {n l : Nat} {f : RxFrame}

theorem LSTAT_ne_errKey (n l : Nat) : rBLn_LSTAT n ≠ errKey n l := by
  obtain ⟨hL, _, hA, hB, _⟩ := rBLn_mod n
  rw [errKey]
  split <;> omega

/-- What the counters of a frame leave: everything that an identity frame looks at. -/
theorem identFrame_eq (hl : l < 2) (h3 : laneSt s n l = 3) : identFrame n l f s =
    if (identSeen s f).isSome && (laneOf s n l).ident == identSeen s f then
      if lanesActive s n then
        if identSeen s f == some (storedIdent s n) then laneEnter n l 4 (rxCount n l f s)
        else post (blLink n) 6 2 n 6 l (laneFall n l 6 (rxCount n l f s))
      else laneEnter n l 4 (identStored n ((identSeen s f).getD []) (rxCount n l f s))
    else (rxCount n l f s).setLane n l (idSeen (identSeen s f) (laneOf s n l)) := by
  have hq := quiet_rxCount s n l f hl
  have herr : ∀ k, k % 1024 ≠ 19 → k % 1024 ≠ 20 → (rxCount n l f s).rd k = s.rd k := fun k ha hb => hq.regs k (by
    obtain ⟨_, _, hA, hB, _⟩ := rBLn_mod n
    rw [List.mem_singleton, errKey]
    split <;> rintro rfl <;> omega)
  have hL := (rBLn_mod n).1
  have hseq : rxSeq (rxCount n l f s) f = rxSeq s f := by
    rw [rxSeq, rxSeq, tickNo, rd64_of_rd _ (herr rTICKNO (by decide) (by decide)) (herr (rTICKNO + 1) (by decide) (by decide))]
    rfl
  have hact : lanesActive (rxCount n l f s) n = lanesActive s n := lanesActive_of_rd (herr _ (by omega) (by omega))
  have hid : storedIdent (rxCount n l f s) n = storedIdent s n := by
    refine congrArg List.flatten (List.map_congr_left fun i hi => ?_)
    rw [List.mem_range] at hi
    have hi : rBLn_IDi n i % 1024 = 32 + i := by
      simp only [rBLn_IDi]
      omega
    rw [herr _ (by omega) (by omega)]
  have hlane : laneOf (rxCount n l f s) n l = laneOf s n l := laneOf_of_bl _ _ (bl_rxCount s n l f)
  rw [identFrame, if_neg (by simp [h3])]
  simp only [hseq, hact, hid, hlane]
  rfl

theorem identFrame_of_not (h3 : laneSt s n l ≠ 3) : identFrame n l f s = s := if_pos h3

end

/-! The outcomes of an identity frame. -/

section
variable {s : State} {n l : Nat} {f : RxFrame} {r : List Byte}

theorem identSeen_of_idFrame (h : IdFrame s f r) : identSeen s f = some r := by
  obtain ⟨hgood, hseq, htime, hid⟩ := h
  rw [identSeen, hgood, hseq, htime]
  exact hid
theorem identSeen_of_bad (h : rxGood f 0xA5 = false ∨ rxSeq s f = false ∨ rxTime f = false ∨ identOf f = none) :
    identSeen s f = none := by
  rw [identSeen]
  split
  · next hc =>
    simp only [Bool.and_eq_true] at hc
    obtain ⟨⟨hgood, hseq⟩, htime⟩ := hc
    simpa [hgood, hseq, htime] using h
  · rfl

theorem quiet_identStored (n : Nat) (r : List Byte) (u : State) : Quiet (idRegs n) u (identStored n r u) :=
  List.foldlRecOn _ _ (Quiet.refl _ u) fun _ ht _ hi => ht.trans (quiet_wr _ _ (List.mem_map_of_mem hi))
theorem bl_identStored (n : Nat) (r : List Byte) (u : State) : (identStored n r u).bl = u.bl :=
  List.foldlRecOn (motive := fun t : State => t.bl = u.bl) _ _ rfl fun _ ht _ _ => (State.wr_bl _ _ _).trans ht
theorem idStored_identStored (n : Nat) (r : List Byte) (u : State) : IdStored (identStored n r u) n r := fun m =>
  rd_foldl_wr (rBLn_IDi n) (fun i => BitVec.ofNat 32 (numAt r (4 * i) 4)) _ u (List.mem_range.2 m.isLt) fun j _ hj => by
    simp only [rBLn_IDi] at hj
    omega

variable (hn : n < 64) (hl : l < 2) (h3 : laneSt s n l = 3)
include hl h3

/-- The first frame of a pair, or one that differs from the frame before. -/
theorem identFrame_of_first (hf : IdFrame s f r) (hne : (laneOf s n l).ident ≠ some r) :
    identFrame n l f s = (rxCount n l f s).setLane n l (idSeen (some r) (laneOf s n l)) := by
  rw [identFrame_eq hl h3, identSeen_of_idFrame hf]
  exact if_neg (by simp [hne])
theorem identFrame_of_bad (h : rxGood f 0xA5 = false ∨ rxSeq s f = false ∨ rxTime f = false ∨ identOf f = none) :
    identFrame n l f s = (rxCount n l f s).setLane n l (idSeen none (laneOf s n l)) := by
  rw [identFrame_eq hl h3, identSeen_of_bad h]
  rfl

variable (hf : IdFrame s f r) (hid : (laneOf s n l).ident = some r)
include hf hid

theorem identFrame_of_second (hact : lanesActive s n = false) :
    identFrame n l f s = laneEnter n l 4 (identStored n r (rxCount n l f s)) := by
  rw [identFrame_eq hl h3, identSeen_of_idFrame hf, hid, hact]
  simp
theorem identFrame_of_same (hact : lanesActive s n = true) (hr : storedIdent s n = r) :
    identFrame n l f s = laneEnter n l 4 (rxCount n l f s) := by
  rw [identFrame_eq hl h3, identSeen_of_idFrame hf, hid, hact]
  simp [hr]
theorem identFrame_of_mismatch (hact : lanesActive s n = true) (hr : storedIdent s n ≠ r) :
    identFrame n l f s = post (blLink n) 6 2 n 6 l (laneFall n l 6 (rxCount n l f s)) := by
  rw [identFrame_eq hl h3, identSeen_of_idFrame hf, hid, hact]
  simp [Ne.symm hr]

end

end Sys2Proof.Machine
end

section
/-!
PROOFS. The statement BrineLanes (R220 to R226): identity frames, retraining, and the clauses in their order.
-/

namespace Sys2Proof.Machine
open Sys2Proof Sys2Proof.Claims

section
variable {s : State} {n l : Nat} {f : RxFrame} {r : List Byte}

theorem LanePrep.mono {u : State} {x : Lane} {own own' : List Nat} (h : LanePrep s u n l x own) (ho : own ⊆ own') :
    LanePrep s u n l x own' :=
  ⟨h.active, h.other, h.lane, h.quiet.mono (List.cons_subset_cons _ ho), h.only⟩

variable (hn : n < 64) (hl : l < 2)
include hl

/-- The counters of a valid frame precede a change of state; they do not change. -/
theorem lanePrep_rxCount (hg : rxGood f 0xA5 = true) : LanePrep s (rxCount n l f s) n l (laneOf s n l) [] :=
  (lanePrep_refl s n l []).regs hl (quiet_rxCount_of_good s n l f hl hg) (by simp) (bl_rxCount s n l f)
theorem clocks_rxCount (hg : rxGood f 0xA5 = true) :
    tickNo (rxCount n l f s) = tickNo s ∧ fcycOf (rxCount n l f s) = fcycOf s := by
  have h := (quiet_rxCount_of_good s n l f hl hg).regs
  exact ⟨rd64_of_rd _ (h _ (by simp)) (h _ (by simp)), rd64_of_rd _ (h _ (by simp)) (h _ (by simp))⟩

variable (h3 : laneSt s n l = 3) (hf : IdFrame s f r)
include h3

theorem identFrame_first (hf : IdFrame s f r) (hne : (laneOf s n l).ident ≠ some r) :
    laneOf (identFrame n l f s) n l = idSeen (some r) (laneOf s n l) ∧ LaneOnly s (identFrame n l f s) n l ∧
    Claims.Regs s (identFrame n l f s) [] ∧ NoEvents s (identFrame n l f s) ∧
    Kept s { identFrame n l f s with bl := s.bl } := by
  rw [identFrame_of_first hl h3 hf hne]
  have hq := (quiet_rxCount_of_good s n l f hl hf.1).trans (quiet_setLane _ n l (idSeen (some r) (laneOf s n l)))
  exact ⟨laneOf_setLane_self _ _ _ _, laneOnly_trans _ _ (lanePrep_rxCount hl hf.1).only (laneOnly_setLane _ _ _ _),
    hq.regs, hq.noEvents, hq.kept⟩

theorem identFrame_bad (h : rxGood f 0xA5 = false ∨ rxSeq s f = false ∨ rxTime f = false ∨ identOf f = none) :
    laneOf (identFrame n l f s) n l = idSeen none (laneOf s n l) ∧
    (identFrame n l f s).fld (fCrcErr n l) =
      (if crc32 f.bytes = f.crc.toNat then s.fld (fCrcErr n l) else satInc 16 (s.fld (fCrcErr n l))) ∧
    (identFrame n l f s).fld (fCvErr n l) = satAdd 16 (s.fld (fCvErr n l)) f.cv.toNat ∧
    LaneOnly s (identFrame n l f s) n l ∧ Claims.Regs s (identFrame n l f s) [errKey n l] ∧
    NoEvents s (identFrame n l f s) ∧ Kept s { identFrame n l f s with bl := s.bl } := by
  rw [identFrame_of_bad hl h3 h]
  have hq := (quiet_rxCount s n l f hl).trans (quiet_setLane _ n l (idSeen none (laneOf s n l)))
  exact ⟨laneOf_setLane_self _ _ _ _, (fld_setLane _ _ _ _ _).trans (fld_CrcErr_rxCount s n l f hl),
    (fld_setLane _ _ _ _ _).trans (fld_CvErr_rxCount s n l f hl),
    laneOnly_trans _ _ (laneOnly_of_bl _ _ (bl_rxCount s n l f)) (laneOnly_setLane _ _ _ _),
    hq.regs, hq.noEvents, hq.kept⟩

variable (hid : (laneOf s n l).ident = some r)
include hn hf hid

theorem identFrame_second (hact : lanesActive s n = false) : IdStored (identFrame n l f s) n r ∧
    LaneTo s (identFrame n l f s) n l 4 (entering (tickNo s) (fcycOf s) (laneOf s n l)) (idRegs n) := by
  obtain ⟨htick, hcyc⟩ := clocks_rxCount (s := s) (n := n) hl hf.1
  have hkeys : ∀ k ∈ idRegs n, ∃ i < 16, k = rBLn_IDi n i := fun k hk => by
    obtain ⟨i, hi, rfl⟩ := List.mem_map.1 hk
    exact ⟨i, List.mem_range.1 hi, rfl⟩
  have hmod : ∀ k ∈ idRegs n, 32 ≤ k % 1024 := fun k hk => by
    obtain ⟨i, hi, rfl⟩ := hkeys k hk
    simp only [rBLn_IDi]
    omega
  have hout : ∀ k, k % 1024 < 32 → k ∉ idRegs n := fun k hk hm => by
    have := hmod k hm
    omega
  have hq := quiet_identStored n r (rxCount n l f s)
  have hprep := (((lanePrep_rxCount hl hf.1).mono (List.nil_subset _)).regs hl hq (hout _ (by
    rw [(rBLn_mod n).1]
    decide)) (bl_identStored n r _))
  have hstep := hprep.enterStep hn hl (st := 4) (by decide) (fun k hk => by
    have := hmod k hk
    omega)
  have hT : tickNo (identStored n r (rxCount n l f s)) = tickNo s :=
    (rd64_of_rd _ (hq.regs _ (hout _ (by decide))) (hq.regs _ (hout _ (by decide)))).trans htick
  have hC : fcycOf (identStored n r (rxCount n l f s)) = fcycOf s :=
    (rd64_of_rd _ (hq.regs _ (hout _ (by decide))) (hq.regs _ (hout _ (by decide)))).trans hcyc
  rw [hT, hC] at hstep
  rw [identFrame_of_second hl h3 hf hid hact]
  refine ⟨fun m => ?_, hstep.laneTo⟩
  have hm : rBLn_IDi n m.val ∉ [rBLn_LSTAT n] := by
    simp [rBLn_IDi, rBLn_LSTAT]
    omega
  rw [laneEnter, (blStep_laneTo _ 4 hl).rd hm (by apply spared_brine <;> simp only [rBLn_IDi] <;> omega), rd_setLane]
  exact idStored_identStored n r _ m

theorem identFrame_same (hact : lanesActive s n = true) (hr : storedIdent s n = r) :
    LaneTo s (identFrame n l f s) n l 4 (entering (tickNo s) (fcycOf s) (laneOf s n l)) [] := by
  obtain ⟨htick, hcyc⟩ := clocks_rxCount (s := s) (n := n) hl hf.1
  have hstep := (lanePrep_rxCount (s := s) (n := n) hl hf.1).enterStep hn hl (st := 4) (by decide) (by simp)
  rw [htick, hcyc] at hstep
  rw [identFrame_of_same hl h3 hf hid hact hr]
  exact hstep.laneTo

theorem identFrame_mismatch (hact : lanesActive s n = true) (hr : storedIdent s n ≠ r) :
    laneSt (identFrame n l f s) n l = 0 ∧ (identFrame n l f s).fld (fCause n l) = 6 ∧
    laneOf (identFrame n l f s) n l = falling (tickNo s) 6 (laneOf s n l) ∧
    pendBit (identFrame n l f s) (blLink n) 6 = true ∧
    laneSt (identFrame n l f s) n (1 - l) = laneSt s n (1 - l) ∧
    RegsEv s (identFrame n l f s) [rBLn_LSTAT n] [blLink n] ∧ LaneOnly s (identFrame n l f s) n l ∧
    Kept s { identFrame n l f s with bl := s.bl } := by
  obtain ⟨htick, _⟩ := clocks_rxCount (s := s) (n := n) hl hf.1
  obtain ⟨hfall, hcause⟩ := (lanePrep_rxCount (s := s) (n := n) hl hf.1).fallStep hn hl (c := 6) (by decide) (by simp)
  rw [htick] at hfall
  rw [identFrame_of_mismatch hl h3 hf hid hact hr]
  have hpost : BlStep [] [blLink n] (laneFall n l 6 (rxCount n l f s))
      (post (blLink n) 6 2 n 6 l (laneFall n l 6 (rxCount n l f s))) :=
    blStep_post _ _ _ _ _ _ (List.mem_singleton_self _)
  have hL := hpost.rd (List.not_mem_nil) (spared_LSTAT n hn)
  have hstep := hfall.step.trans (hpost.mono (List.nil_subset _) (List.Subset.refl _))
  have hb := post_bl (blLink n) 6 2 n 6 l (laneFall n l 6 (rxCount n l f s))
  exact ⟨(laneSt_of_rd hl hL).trans hfall.state, (fld_of_rd _ (by rw [fCause_eq n hl]; exact hL)).trans hcause,
    (laneOf_of_bl _ _ hb).trans hfall.lane, pendBit_post _ _ _ _ _ _ _ (by decide),
    (laneSt_of_rd (by omega) hL).trans hfall.other, hstep.regs, laneOnly_trans _ _ hfall.only (laneOnly_of_bl _ _ hb),
    hstep.kept⟩

end

/-! ## Retraining (R225) -/

section
variable {s : State} {n l : Nat}

theorem laneRetrain_eq (he : linkEn s n = true) (hi : laneIn s n l = true) :
    laneRetrain n l s = laneLock n l (laneTo n l 0 s) := by
  rw [laneRetrain, he, hi]
  rfl
theorem laneRetrain_of_not (h : linkEn s n = false ∨ laneIn s n l = false) : laneRetrain n l s = s :=
  if_neg (by rcases h with h | h <;> simp [h])

variable (hn : n < 64) (hl : l < 2)
include hn hl

theorem locks_laneRetrain (he : linkEn s n = true) (hi : laneIn s n l = true) (hne : laneSt s n l ≠ 4) :
    Locks s (laneRetrain n l s) n l := by
  obtain ⟨hstep, hfld⟩ := (lanePrep_laneTo [rBLn_RETRAIN n] hn hl (by decide : 0 < 16) (by decide) hne).lockStep hn hl
  have hR : (laneTo n l 0 s).fld (fRetrain n l) = s.fld (fRetrain n l) := by
    rw [fRetrain_eq n hl]
    exact (blStep_laneTo s 0 hl).fld _ (by have := rBLn_mod n; simp; omega)
      (by apply spared_brine <;> simp only [rBLn_RETRAIN] <;> omega)
  rw [hR] at hfld
  rw [laneRetrain_eq he hi]
  exact ⟨hstep.laneTo, hfld⟩

/-- A lane that was ACTIVE goes through DOWN, and LANE_DOWN tells it. -/
theorem laneRetrain_of_active (he : linkEn s n = true) (hi : laneIn s n l = true) (h4 : laneSt s n l = 4) :
    laneSt (laneRetrain n l s) n l = 1 ∧ laneOf (laneRetrain n l s) n l = locking (laneOf s n l) ∧
    pendBit (laneRetrain n l s) (blLink n) (4 + l) = true ∧
    laneSt (laneRetrain n l s) n (1 - l) = laneSt s n (1 - l) ∧
    RegsEv s (laneRetrain n l s) [rBLn_LSTAT n, rBLn_RETRAIN n] [blLink n] ∧ LaneOnly s (laneRetrain n l s) n l ∧
    Kept s { laneRetrain n l s with bl := s.bl } := by
  have hdown : LaneStep s (laneTo n l 0 s) n l 0 (laneOf s n l) [] :=
    (lanePrep_refl s n l []).changed hn hl (by decide) (by simp)
  obtain ⟨hlock, _⟩ := (lanePrep_refl (laneTo n l 0 s) n l _).lockStep hn hl
  have hpend : pendBit (laneTo n l 0 s) (blLink n) (4 + l) = true := by simpa [h4] using hdown.down
  have hstep := (hdown.step.mono (List.cons_subset_cons _ (List.nil_subset [rBLn_RETRAIN n])) (List.Subset.refl _)).trans
    hlock.step
  rw [laneRetrain_eq he hi]
  exact ⟨hlock.state, by rw [hlock.lane, hdown.lane], hlock.step.pend _ _ (by omega) hpend, hlock.other.trans hdown.other,
    hstep.regs, laneOnly_trans _ _ hdown.only hlock.only, hstep.kept⟩

end

/-! REIDENT: both lanes, one after the other. -/

/-- An ACTIVE lane returns to IDENT. -/
def identAgain (n l : Nat) (s : State) : State := if laneSt s n l = 4 then laneEnter n l 3 s else s

section
variable {n l : Nat} (s : State) (hn : n < 64) (hl : l < 2)
include hn hl

theorem identAgain_effect : laneSt (identAgain n l s) n l = (if laneSt s n l = 4 then 3 else laneSt s n l) ∧
    laneSt (identAgain n l s) n (1 - l) = laneSt s n (1 - l) ∧
    laneOf (identAgain n l s) n l =
      (if laneSt s n l = 4 then entering (tickNo s) (fcycOf s) (laneOf s n l) else laneOf s n l) ∧
    BlStep [rBLn_LSTAT n] [blLink n] s (identAgain n l s) ∧ LaneOnly s (identAgain n l s) n l := by
  rw [identAgain]
  split
  · have h := laneStep_laneEnter hn hl s (st := 3) (by decide)
    exact ⟨h.state, h.other, h.lane, h.step, h.only⟩
  · exact ⟨rfl, rfl, rfl, BlStep.refl _ _ s, laneOnly_refl s n l⟩

end

theorem laneOf_of_laneOnly {s t : State} {n l k : Nat} (h : LaneOnly s t n l) (hk : k ≠ l) : laneOf t n k = laneOf s n k :=
  h.1 _ (by omega)

theorem BlStep.clocks {n : Nat} {pgs : List Nat} {s t : State} (h : BlStep [rBLn_LSTAT n] pgs s t) :
    tickNo t = tickNo s ∧ fcycOf t = fcycOf s := by
  have hout : ∀ k, k % 1024 ≠ 17 → k ∉ [rBLn_LSTAT n] := fun k hk => by
    simp [rBLn_LSTAT]
    omega
  exact ⟨rd64_of_rd _ (h.rd (hout _ (by decide)) (by decide)) (h.rd (hout _ (by decide)) (by decide)),
    rd64_of_rd _ (h.rd (hout _ (by decide)) (by decide)) (h.rd (hout _ (by decide)) (by decide))⟩

theorem reident_effect (s : State) {n : Nat} (hn : n < 64) :
    (∀ l : Fin 2, laneSt (reident n s) n l.val = (if laneSt s n l.val = 4 then 3 else laneSt s n l.val)) ∧
    (∀ l : Fin 2, laneOf (reident n s) n l.val =
      (if laneSt s n l.val = 4 then entering (tickNo s) (fcycOf s) (laneOf s n l.val) else laneOf s n l.val)) ∧
    PortLanes s (reident n s) n := by
  have hre : reident n s = identAgain n 1 (identAgain n 0 s) := rfl
  obtain ⟨hst, hot, hlane, hstep, honly⟩ := identAgain_effect s hn (l := 0) (by decide)
  obtain ⟨hst', hot', hlane', hstep', honly'⟩ := identAgain_effect (identAgain n 0 s) hn (l := 1) (by decide)
  obtain ⟨htick, hcyc⟩ := hstep.clocks
  have hB : laneSt (identAgain n 0 s) n 1 = laneSt s n 1 := hot
  have hlB : laneOf (identAgain n 0 s) n 1 = laneOf s n 1 := laneOf_of_laneOnly honly (by decide)
  rw [hB] at hst' hlane'
  rw [hlB, htick, hcyc] at hlane'
  rw [hre]
  refine ⟨?_, ?_, ?_⟩
  · rw [Fin.forall_fin_two]
    exact ⟨hot'.trans hst, hst'⟩
  · rw [Fin.forall_fin_two]
    exact ⟨(laneOf_of_laneOnly honly' (by decide)).trans hlane, hlane'⟩
  · obtain ⟨hl, hp, hc⟩ := honly
    obtain ⟨gl, gp, gc⟩ := honly'
    have h := hstep.trans hstep'
    exact ⟨fun k hk => (gl k (by omega)).trans (hl k (by omega)), gp.trans hp, gc.trans hc, h.regs, h.kept⟩

/-! ## The remaining operations -/

section
variable {s : State} {n l : Nat}

theorem laneSignal_eq (he : linkEn s n = true) (h0 : laneSt s n l = 0) (hd : (laneOf s n l).down ≤ 2) :
    laneSignal n l s = laneLock n l s := if_pos (by simp [he, h0, hd])
theorem laneSignal_of_not (h : linkEn s n = false ∨ laneSt s n l ≠ 0 ∨ ¬ (laneOf s n l).down ≤ 2) : laneSignal n l s = s :=
  if_neg fun hc => by
    simp only [Bool.and_eq_true, beq_iff_eq, decide_eq_true_eq] at hc
    obtain ⟨⟨he, h0⟩, hd⟩ := hc
    simp [he, h0, hd] at h

theorem laneRetry_eq {k : Nat} (he : linkEn s n = true) (ha : s.flag (fBLn_CTRL_AUTOTRAIN n) = true) (h0 : laneSt s n l = 0)
    (hf : (laneOf s n l).fell = some k) (hk : k + 1024 ≤ tickNo s) : laneRetry n l s = laneLock n l s := by
  rw [laneRetry, hf]
  exact if_pos ⟨he, ha, h0, hk⟩
theorem laneRetry_of_not (h : linkEn s n = false ∨ s.flag (fBLn_CTRL_AUTOTRAIN n) = false ∨ laneSt s n l ≠ 0 ∨
    (laneOf s n l).fell = none) : laneRetry n l s = s := by
  unfold laneRetry
  split
  · next hf => exact if_neg fun ⟨he, ha, h0, _⟩ => by simp [he, ha, h0, hf] at h
  · rfl

theorem laneRuns_iff : laneRuns s n l = true ↔ 1 ≤ laneSt s n l ∧ laneSt s n l ≤ 4 := by simp [laneRuns]

variable (hl : l < 2)
include hl

/-- The violations of a lane are counted (R221, R255). -/
theorem violations_counted (s : State) (cv : Nat) :
    (s.addFld (fCvErr n l) cv).fld (fCvErr n l) = satAdd 16 (s.fld (fCvErr n l)) cv ∧
    Quiet [errKey n l] s (s.addFld (fCvErr n l) cv) := by
  refine ⟨?_, quiet_setFld _ _ _ (by simp [fCvErr_eq n hl])⟩
  rw [fld_addFld _ _ _ (by rw [fCvErr_eq n hl]; dsimp only; omega), fCvErr_eq n hl]

theorem laneRuns_addFld (cv : Nat) : laneRuns (s.addFld (fCvErr n l) cv) n l = laneRuns s n l := by
  have hL := (violations_counted (n := n) hl s cv).2.regs (rBLn_LSTAT n) (by simpa using LSTAT_ne_errKey n l)
  rw [laneRuns, laneRuns, laneSt_of_rd hl hL]

theorem laneViolations_of_few {cv : Nat} (h : cv ≤ 4 ∨ laneSt s n l = 0 ∨ 4 < laneSt s n l) :
    laneViolations n l cv s = s.addFld (fCvErr n l) cv := by
  rw [laneViolations]
  refine if_neg fun hc => ?_
  rw [laneRuns_addFld hl, Bool.and_eq_true, laneRuns_iff, decide_eq_true_eq] at hc
  omega

theorem laneViolations_falls (hn : n < 64) {cv : Nat} (h : 1 ≤ laneSt s n l ∧ laneSt s n l ≤ 4) (h4 : 4 < cv) :
    Falls s (laneViolations n l cv s) n l 2 [errKey n l] ∧
    (laneViolations n l cv s).fld (fCvErr n l) = satAdd 16 (s.fld (fCvErr n l)) cv := by
  obtain ⟨hcount, hq⟩ := violations_counted (n := n) hl s cv
  have hkey : errKey n l % 1024 = 19 ∨ errKey n l % 1024 = 20 := by
    obtain ⟨_, _, hA, hB, _⟩ := rBLn_mod n
    rw [errKey]
    split <;> omega
  have hne := LSTAT_ne_errKey n l
  have hT : tickNo (s.addFld (fCvErr n l) cv) = tickNo s := by
    have hout : ∀ k, k % 1024 ≠ 19 → k % 1024 ≠ 20 → k ∉ [errKey n l] := fun k ha hb hm => by
      rw [List.mem_singleton] at hm
      subst hm
      omega
    exact rd64_of_rd _ (hq.regs _ (hout _ (by decide) (by decide))) (hq.regs _ (hout _ (by decide) (by decide)))
  have heq : laneViolations n l cv s = laneFall n l 2 (s.addFld (fCvErr n l) cv) :=
    if_pos (by rw [laneRuns_addFld hl, laneRuns_iff.2 h, decide_eq_true h4]; rfl)
  obtain ⟨hstep, hcause⟩ := ((lanePrep_refl s n l [errKey n l]).regs hl hq (by simpa using hne)
    (State.addFld_bl _ _ _)).fallStep hn hl (c := 2) (by decide) (by simp; omega)
  rw [hT] at hstep
  rw [heq]
  refine ⟨⟨hstep.laneTo, hcause⟩, ?_⟩
  have hspared : Spared (errKey n l) := by
    apply spared_brine
    all_goals
      simp only [errKey, rBLn_ERRA, rBLn_ERRB]
      split <;> omega
  rw [laneFall, fCvErr_eq n hl, (blStep_laneTo _ 0 hl).fld _ (by simpa using hne.symm) hspared, fld_setLane,
    fld_setFld_fCause_ne _ hl 2 (.inl hne.symm), ← fCvErr_eq n hl, hcount]

end

end Sys2Proof.Machine

open Sys2Proof Sys2Proof.Machine Sys2Proof.Claims

/-- Settles O38, clause by clause: a lane that enters LOCK, that falls, or that enters TRAIN, IDENT or ACTIVE changes its state
by `LanePrep.changed`; a page that is frozen and a lane in another state change nothing. -/
theorem brineLanes : Obligations.BrineLanes := by
  intro s
  refine ⟨fun n l h he hd => ends_unfrozen rfl h.1 ?detect, fun n l h => ends_idle rfl h laneSignal_of_not,
    fun n l h => ends_unfrozen rfl h.1 ?train, fun n l h => ends_idle rfl h fun h' => if_neg h',
    fun n l rtd pl stamp h he h64 => ends_unfrozen rfl h.1 ?answer,
    fun n l rtd pl stamp h he h64 => ends_unfrozen rfl h.1 ?lastAnswer,
    fun n l rtd pl stamp h he => ends_unfrozen rfl h.1 (trainAnswer_of_other h.2 _ he),
    fun n l rtd pl stamp h => ends_idle rfl h fun h' => trainAnswer_of_not h' _ _ _,
    fun n l h h64 hr => ends_unfrozen rfl h.1 ?delay, fun n l h h64 hr hen => ends_unfrozen rfl h.1 ?trained,
    fun n l h hw => ends_unfrozen rfl h.1 ?waits,
    fun n l h => ends_idle rfl h laneTrained_of_not,
    fun n l h h64 => ends_unfrozen rfl h.1 ?timeout, fun n l h h64 => ends_unfrozen rfl h.1 ?inTime,
    fun n l h => ends_idle rfl h trainTimeout_of_not,
    fun n l f r h hf hne => ends_unfrozen rfl h.1 (identFrame_first l.isLt h.2 hf hne),
    fun n l f r h hf hid hact => ends_unfrozen rfl h.1 (identFrame_second n.isLt l.isLt h.2 hf hid hact),
    fun n l f r h hf hid hact hr => ends_unfrozen rfl h.1 (identFrame_mismatch n.isLt l.isLt h.2 hf hid hact hr),
    fun n l f r h hf hid hact hr => ends_unfrozen rfl h.1 (identFrame_same n.isLt l.isLt h.2 hf hid hact hr),
    fun n l f h hb => ends_unfrozen rfl h.1 (identFrame_bad l.isLt h.2 hb),
    fun n l f h => ends_idle rfl h identFrame_of_not,
    fun n l h ht => ends_unfrozen rfl h.1 ?idBad, fun n l h => ends_idle rfl h fun h' => ?noIdBad,
    fun n l hf hr => ends_unfrozen rfl hf ?loss, fun n l h => ends_idle rfl h fun h' => ?noLoss,
    fun n l cv hf hr h4 => ends_unfrozen rfl hf (laneViolations_falls l.isLt n.isLt hr h4),
    fun n l cv hf h => ends_unfrozen rfl hf ?fewViolations, fun n l h hm => ends_unfrozen rfl h.1 ?framesLost,
    fun n l h => ends_idle rfl h fun h' => ?framesKept,
    fun n l k h he ha hk ht => ends_unfrozen rfl h.1 ?retry,
    fun n l h => ends_idle rfl h laneRetry_of_not,
    fun n he hi hne => ⟨_, rfl, locks_laneRetrain n.isLt (by decide) he hi hne⟩,
    fun n he hi h4 => ⟨_, rfl, laneRetrain_of_active n.isLt (by decide) he hi h4⟩,
    fun n h => ⟨_, rfl, laneRetrain_of_not h⟩,
    fun n he hi hne => ⟨_, rfl, locks_laneRetrain n.isLt (by decide) he hi hne⟩,
    fun n he hi h4 => ⟨_, rfl, laneRetrain_of_active n.isLt (by decide) he hi h4⟩,
    fun n h => ⟨_, rfl, laneRetrain_of_not h⟩, fun n => ⟨_, rfl, reident_effect s n.isLt⟩⟩
  case detect =>
    rw [laneSignal_eq he h.2 hd]
    exact locks_laneLock n.isLt l.isLt s
  case train =>
    rw [laneTrain, if_pos h.2]
    exact (laneStep_laneEnter n.isLt l.isLt s (by decide)).laneTo
  case answer =>
    rw [trainAnswer_of_echo h.2 _ he h64]
    exact ⟨laneOf_setLane_self _ _ _ _, laneOnly_setLane _ _ _ _, (quiet_answerTaken _ _).of_sent⟩
  case lastAnswer =>
    rw [trainAnswer_of_last h.2 _ he h64]
    have hb := State.setFld_bl (answerTaken n.val l.val rtd.toNat (sent s n.val l.val)) (fRtd n.val l.val)
      (min 255 ((max (laneOf s n.val l.val).rtd rtd.toNat + 3) / 4 * 4))
    have hq : Quiet [rBLn_RTD n.val] (sent s n.val l.val) _ :=
      ((quiet_answerTaken (n := n.val) (l := l.val) rtd.toNat _).mono (List.nil_subset _)).trans
        (quiet_setFld _ (fRtd n.val l.val) (min 255 ((max (laneOf s n.val l.val).rtd rtd.toNat + 3) / 4 * 4))
          (by simp [fRtd_eq n.val l.isLt]))
    refine ⟨?_, (laneOf_of_bl _ _ hb).trans (laneOf_setLane_self _ _ _ _),
      laneOnly_trans _ _ (laneOnly_setLane _ _ _ _) (laneOnly_of_bl _ _ hb), hq.of_sent⟩
    rw [fld_setFld_self _ _ _ (by rw [fRtd_eq n.val l.isLt]; dsimp only; omega), fRtd_eq n.val l.isLt]
    exact Nat.mod_eq_of_lt (lt_of_le_of_lt (Nat.min_le_left _ _) (by decide : 255 < 2 ^ 8))
  case delay =>
    rw [laneTrained_eq h.2, if_neg (by omega), if_pos hr]
    exact falls_laneFall n.isLt l.isLt _ (by decide)
  case trained =>
    rw [laneTrained_eq h.2, if_neg (by omega), if_neg (by omega), if_pos hen]
    have hstep := laneStep_laneEnter n.isLt l.isLt (sent s n.val l.val) (st := 3) (by decide)
    rw [tickNo_sent, fcycOf_sent, entering_sent] at hstep
    exact hstep.laneTo
  case waits =>
    rw [laneTrained_eq h.2]
    rcases hw with hw | ⟨hr, hen⟩
    · exact if_pos hw
    · simp [hen, Nat.not_lt.2 hr]
  case timeout =>
    rw [trainTimeout_eq h.2, if_pos h64]
    exact falls_laneFall n.isLt l.isLt _ (by decide)
  case inTime =>
    rw [trainTimeout_eq h.2]
    exact if_neg (by omega)
  case idBad =>
    rw [identBad, if_pos ⟨h.2, ht⟩]
    exact falls_laneFall n.isLt l.isLt s (by decide)
  case noIdBad =>
    exact if_neg (by omega)
  case loss =>
    rw [laneLoss, if_pos (laneRuns_iff.2 hr)]
    exact falls_laneFall n.isLt l.isLt s (by decide)
  case noLoss =>
    exact if_neg (by rw [laneRuns_iff]; omega)
  case fewViolations =>
    obtain ⟨hcount, hq⟩ := violations_counted (n := n.val) l.isLt s cv.toNat
    rw [laneViolations_of_few l.isLt h]
    exact ⟨hcount, hq.regs, hq.noEvents, hq.kept_of_bl (State.addFld_bl _ _ _)⟩
  case framesLost =>
    rw [laneFramesLost, if_pos ⟨h.2, hm⟩]
    exact falls_laneFall n.isLt l.isLt s (by decide)
  case framesKept =>
    exact if_neg (by omega)
  case retry =>
    rw [laneRetry_eq he ha h.2 hk ht]
    exact locks_laneLock n.isLt l.isLt s
end

section
/-!
PROOFS. The lease of a Brine port (R243 to R245, R503): a write of BLn_LEASE, HELD, and the statement Leases.
-/

namespace Sys2Proof.Machine
open Sys2Proof Sys2Proof.Claims

/-! ## A write of BLn_LEASE (R244) -/

/-- BLn_LEASE of the register table. -/
def leaseReg : RegD := ⟨"BLn_LEASE", 0x81, 64, 2, 0x44, 1, 0x0, false, [⟨31, 1, .ro, 0x0, false⟩, ⟨30, 1, .ro, 0x0, false⟩,
  ⟨29, 1, .rw, 0x0, false⟩, ⟨28, 1, .ro, 0x0, false⟩, ⟨24, 2, .wo, 0x0, false⟩, ⟨0, 16, .rw, 0x0, false⟩]⟩

/-- What STOP and EPOCH make of a write of `v` over `old`. -/
def leaseWord (old v : Word) : Word := bitsSet (bitsSet old 29 1 (bitsGet v 29 1)) 0 16 (bitsGet v 0 16)

theorem regAt_LEASE : ∀ n : Fin 64, regAt (rBLn_LEASE n.val / 1024) (rBLn_LEASE n.val % 1024 * 4) = some leaseReg := by
  decide +kernel

theorem writeFields_LEASE (n : Fin 64) (old v : Word) : writeFields (rBLn_LEASE n.val) false old v = leaseWord old v := by
  have hp : leaseReg.part (rBLn_LEASE n.val % 1024 * 4) = 0 := by
    have hk : rBLn_LEASE n.val % 1024 = 17 := by
      simp only [rBLn_LEASE]
      omega
    rw [hk]
    rfl
  rw [writeFields, regAt_LEASE]
  simp only [hp]
  simp [leaseReg, leaseWord]

theorem plainWrite_LEASE {s : State} (n : Fin 64) (v : Word) (hl : lockHeld s (blTrans n.val) = false) :
    plainWrite (rBLn_LEASE n.val) v s = s.wr (rBLn_LEASE n.val) (leaseWord (s.rd (rBLn_LEASE n.val)) v) := by
  have hp : rBLn_LEASE n.val / 1024 = blTrans n.val := by
    simp only [rBLn_LEASE, blTrans]
    omega
  rw [plainWrite_unheld v (by rw [hp, hl]), writeFields_LEASE]

/-! ## HELD (R245) -/

theorem spared_LEASE {n : Nat} (hn : n < 64) : Spared (rBLn_LEASE n) := by
  apply spared_brine <;> simp only [rBLn_LEASE] <;> omega

/-- HELD as the module's last valid frame and EPOCH give it. -/
def leaseHeld (s : State) (n : Nat) : Bool := modLeased s n && modEpoch s n == s.fld (fBLn_LEASE_EPOCH n)

section
variable {s t : State} {n : Nat}

theorem modLeased_of_port (h : t.port n = s.port n) : modLeased t n = modLeased s n := by rw [modLeased, modLeased, h]
theorem modEpoch_of_port (h : t.port n = s.port n) : modEpoch t n = modEpoch s n := by rw [modEpoch, modEpoch, h]

end

section
variable (s : State) {n : Nat}

/-- The events of HELD follow its bit. -/
theorem heldUpdate_step : BlStep [] [blTrans n] (s.setFlag (fBLn_LEASE_HELD n) (leaseHeld s n)) (heldUpdate n s) := by
  unfold heldUpdate
  extract_lets h was t
  split
  · exact blStep_post _ _ _ _ _ _ (List.mem_singleton_self _)
  · exact blStep_postIf _ _ _ _ _ _ _ (List.mem_singleton_self _)
theorem bl_heldUpdate : (heldUpdate n s).bl = s.bl := by
  unfold heldUpdate
  extract_lets h was t
  have ht : t.bl = s.bl := State.setFlag_bl _ _ _
  split
  · exact (post_bl _ _ _ _ _ _ _).trans ht
  · exact (bl_postIf _ _ _ _ _ _ _ _).trans ht

theorem blStep_heldUpdate (hn : n < 64) : BlStep [rBLn_LEASE n] [blTrans n] s (heldUpdate n s) :=
  (blStep_setFlag s _ _ (List.mem_singleton_self _) (spared_LEASE hn).2.2).trans
    ((heldUpdate_step s).mono (List.nil_subset _) (List.Subset.refl _))
theorem flag_HELD_heldUpdate (hn : n < 64) : (heldUpdate n s).flag (fBLn_LEASE_HELD n) = leaseHeld s n := by
  rw [(heldUpdate_step s).flag _ List.not_mem_nil (spared_LEASE hn), flag_setFlag_self _ _ _ (by decide : 31 + 1 ≤ 32) rfl]
/-- The other fields of the word are as before. -/
theorem fld_heldUpdate (hn : n < 64) {f : Fld} (hk : f.key = rBLn_LEASE n) (hf : f.lo + f.width ≤ 31) :
    (heldUpdate n s).fld f = s.fld f := by
  rw [(heldUpdate_step s).fld f List.not_mem_nil (hk ▸ spared_LEASE hn),
    fld_setFlag_ne _ _ _ _ (by decide : 31 + 1 ≤ 32) (.inr (.inl hf))]

end

/-! ## GRANT and RELEASE (R244, R503) -/

/-- The word that GRANT and RELEASE write. -/
def leaseOpWord (s : State) (n lop epoch : Nat) : Word :=
  BitVec.ofNat 32 (epoch % 65536 + lop * 2 ^ 24 + b2n (s.flag (fBLn_LEASE_STOP n)) * 2 ^ 29)

/-- The port once EPOCH and HELD are written, before the operation. -/
def leaseEntered (s : State) (n lop epoch : Nat) : State :=
  heldUpdate n (s.wr (rBLn_LEASE n) (leaseWord (s.rd (rBLn_LEASE n)) (leaseOpWord s n lop epoch)))

section
variable (s : State) (n : Fin 64) {lop : Nat} (e : BitVec 16) (hlop : lop < 4)

theorem fields_leaseOpWord (h : lop < 4) : bitsGet (leaseOpWord s n.val lop e.toNat) 0 16 = e.toNat ∧
    bitsGet (leaseOpWord s n.val lop e.toNat) 24 2 = lop ∧
    bitsGet (leaseOpWord s n.val lop e.toNat) 29 1 = b2n (s.flag (fBLn_LEASE_STOP n.val)) := by
  have he := e.isLt
  have hb := b2n_lt (s.flag (fBLn_LEASE_STOP n.val))
  simp only [leaseOpWord, bitsGet, BitVec.toNat_ofNat]
  omega

theorem bl_leaseEntered : (leaseEntered s n.val lop e.toNat).bl = s.bl := by
  rw [leaseEntered, bl_heldUpdate, State.wr_bl]
theorem blStep_leaseEntered : BlStep [rBLn_LEASE n.val] [blTrans n.val] s (leaseEntered s n.val lop e.toNat) :=
  (blStep_wr s _ (List.mem_singleton_self _) (spared_LEASE n.isLt).2.2).trans (blStep_heldUpdate _ n.isLt)

include hlop

/-- EPOCH is written, STOP is kept, and HELD follows (R244, R245). -/
theorem fields_leaseEntered : (leaseEntered s n.val lop e.toNat).fld (fBLn_LEASE_EPOCH n.val) = e.toNat ∧
    (leaseEntered s n.val lop e.toNat).flag (fBLn_LEASE_STOP n.val) = s.flag (fBLn_LEASE_STOP n.val) ∧
    (leaseEntered s n.val lop e.toNat).flag (fBLn_LEASE_HELD n.val) =
      (modLeased s n.val && decide (modEpoch s n.val = e.toNat)) := by
  obtain ⟨hE, -, hS⟩ := fields_leaseOpWord s n e hlop
  have he := e.isLt
  obtain ⟨w, hw⟩ : ∃ w, w = leaseWord (s.rd (rBLn_LEASE n.val)) (leaseOpWord s n.val lop e.toNat) := ⟨_, rfl⟩
  have hepoch : (s.wr (rBLn_LEASE n.val) w).fld (fBLn_LEASE_EPOCH n.val) = e.toNat := by
    refine (fld_wr_self s (fBLn_LEASE_EPOCH n.val) w).trans ?_
    rw [fBLn_LEASE_EPOCH, hw, leaseWord, hE, bitsGet_bitsSet_self _ _ _ _ (by decide)]
    exact Nat.mod_eq_of_lt he
  have hstop : (s.wr (rBLn_LEASE n.val) w).fld (fBLn_LEASE_STOP n.val) = b2n (s.flag (fBLn_LEASE_STOP n.val)) := by
    refine (fld_wr_self s (fBLn_LEASE_STOP n.val) w).trans ?_
    rw [fBLn_LEASE_STOP, hw, leaseWord, bitsGet_bitsSet_ne _ _ _ _ _ _ (by decide) (.inr (by simp)),
      bitsGet_bitsSet_self _ _ _ _ (by decide), hS, pow_one, b2n_mod]
    rfl
  have hport : (s.wr (rBLn_LEASE n.val) w).port n.val = s.port n.val := port_of_bl _ (State.wr_bl _ _ _)
  refine ⟨?_, ?_, ?_⟩
  · rw [leaseEntered, ← hw, fld_heldUpdate _ n.isLt rfl (by decide : 0 + 16 ≤ 31), hepoch]
  · rw [leaseEntered, ← hw, State.flag, fld_heldUpdate _ n.isLt rfl (by decide : 29 + 1 ≤ 31), hstop, b2n_ne_zero]
  · rw [leaseEntered, ← hw, flag_HELD_heldUpdate _ n.isLt, leaseHeld, hepoch, modLeased_of_port hport,
      modEpoch_of_port hport, beq_eq_decide]

variable (hl : lockHeld s (blTrans n.val) = false)
include hl

theorem leaseOpWrite_eq : leaseOpWrite n.val lop e.toNat s =
    if lop = 1 ∧ grantBlocked (leaseEntered s n.val lop e.toNat) n.val then
      post plPg 3 2 n.val 0 0 ((leaseEntered s n.val lop e.toNat).incFld fPL_GBLOCK)
    else if lop = 1 ∨ lop = 2 then
      (leaseEntered s n.val lop e.toNat).setPort n.val (withLop lop ((leaseEntered s n.val lop e.toNat).port n.val))
    else leaseEntered s n.val lop e.toNat := by
  obtain ⟨-, hL, -⟩ := fields_leaseOpWord s n e hlop
  rw [leaseOpWrite, ← leaseOpWord, leaseWrite, hL, plainWrite_LEASE n _ hl]
  rfl

/-- An operation that is not refused waits for the next frame. -/
theorem leaseOpWrite_waits (hop : lop = 1 ∨ lop = 2)
    (hb : ¬ (lop = 1 ∧ grantBlocked (leaseEntered s n.val lop e.toNat) n.val = true)) :
    let t := leaseOpWrite n.val lop e.toNat s
    t.port n.val = withLop lop (s.port n.val) ∧ OtherPort s t n.val ∧ t.bl.lanes = s.bl.lanes ∧ t.bl.closed = s.bl.closed ∧
    t.fld (fBLn_LEASE_EPOCH n.val) = e.toNat ∧ t.flag (fBLn_LEASE_STOP n.val) = s.flag (fBLn_LEASE_STOP n.val) ∧
    t.flag (fBLn_LEASE_HELD n.val) = (modLeased s n.val && decide (modEpoch s n.val = e.toNat)) ∧
    RegsEv s t [rBLn_LEASE n.val] [blTrans n.val] ∧ Kept s { t with bl := s.bl } := by
  intro t
  have hbl := bl_leaseEntered (lop := lop) s n e
  have ht : t = (leaseEntered s n.val lop e.toNat).setPort n.val (withLop lop (s.port n.val)) := by
    rw [show t = leaseOpWrite n.val lop e.toNat s from rfl, leaseOpWrite_eq s n e hlop hl, if_neg hb, if_pos hop,
      port_of_bl n.val hbl]
  have hstep := (blStep_leaseEntered (lop := lop) s n e).trans (blStep_setPort _ n.val (withLop lop (s.port n.val)))
  obtain ⟨hE, hS, hH⟩ := fields_leaseEntered s n e hlop
  rw [ht]
  exact ⟨port_setPort_self _ _ _, fun m hm => (otherPort_setPort _ _ _ m hm).trans (port_of_bl m hbl),
    (congrArg BrineState.lanes hbl : (leaseEntered s n.val lop e.toNat).bl.lanes = _),
    (congrArg BrineState.closed hbl : (leaseEntered s n.val lop e.toNat).bl.closed = _), hE, hS, hH, hstep.regs, hstep.kept⟩

end

/-- A GRANT is refused, or not, on the port's and the pair link's state before the write (R503). -/
theorem grantBlocked_leaseEntered (s : State) (n : Fin 64) (e : BitVec 16) :
    plPaired (leaseEntered s n.val 1 e.toNat) = plPaired s ∧
    modLeased (leaseEntered s n.val 1 e.toNat) n.val = modLeased s n.val ∧
    (leaseEntered s n.val 1 e.toNat).fld fPL_STAT_ARB = s.fld fPL_STAT_ARB := by
  have hstep := blStep_leaseEntered (lop := 1) s n e
  have hne : rPL_STAT ∉ [rBLn_LEASE n.val] := by
    simp only [List.mem_singleton, rPL_STAT, rBLn_LEASE]
    omega
  exact ⟨hstep.flag _ hne (by decide), modLeased_of_port (port_of_bl _ (bl_leaseEntered s n e)), hstep.fld _ hne (by decide)⟩

end Sys2Proof.Machine

open Sys2Proof Sys2Proof.Machine Sys2Proof.Claims

/-- Settles O43: GRANT and RELEASE write EPOCH and HELD alike; a GRANT then waits, or is counted and posted. -/
theorem leases : Obligations.Leases := by
  intro s
  refine ⟨fun n e hl hfree => ⟨_, rfl, leaseOpWrite_waits s n e (by decide) hl (.inl rfl) ?free⟩,
    fun n e hl hp hm => ⟨_, rfl, ?blocked⟩,
    fun n e hl => ⟨_, rfl, leaseOpWrite_waits s n e (by decide) hl (.inr rfl) (by simp)⟩⟩
  case free =>
    obtain ⟨hpaired, hleased, harb⟩ := grantBlocked_leaseEntered s n e
    rintro ⟨-, hb⟩
    rw [grantBlocked, hpaired, hleased, harb] at hb
    rcases hfree with h | ⟨h, h2⟩
    · simp [h] at hb
    · simp [h, h2] at hb
  case blocked =>
    obtain ⟨hpaired, hleased, -⟩ := grantBlocked_leaseEntered s n e
    have hb : grantBlocked (leaseEntered s n.val 1 e.toNat) n.val = true := by simp [grantBlocked, hpaired, hleased, hp, hm]
    rw [leaseOpWrite_eq s n e (by decide) hl, if_pos ⟨rfl, hb⟩]
    have hone := blStep_leaseEntered (lop := 1) s n e
    obtain ⟨hE, hS, hH⟩ := fields_leaseEntered (lop := 1) s n e (by decide)
    have hinc : BlStep [fPL_GBLOCK.key] [plPg] (leaseEntered s n.val 1 e.toNat)
        (post plPg 3 2 n.val 0 0 ((leaseEntered s n.val 1 e.toNat).incFld fPL_GBLOCK)) :=
      (blStep_setFld _ fPL_GBLOCK _ (List.mem_singleton_self _) (by decide)).trans
        (blStep_post _ _ _ _ _ _ (List.mem_singleton_self _))
    have hne : rBLn_LEASE n.val ∉ [fPL_GBLOCK.key] := by
      simp only [List.mem_singleton, fPL_GBLOCK, rPL_GBLOCK, rBLn_LEASE]
      omega
    have hG : (leaseEntered s n.val 1 e.toNat).fld fPL_GBLOCK = s.fld fPL_GBLOCK :=
      hone.fld _ (by simpa using Ne.symm (by simpa using hne)) (by decide)
    have hstep := (hone.mono (own' := [rBLn_LEASE n.val, fPL_GBLOCK.key]) (pgs' := [blTrans n.val, plPg]) (by simp)
      (by simp)).trans (hinc.mono (by simp) (by simp))
    refine ⟨?_, pendBit_post _ _ _ _ _ _ _ (by decide), ?_, (hinc.fld _ hne (spared_LEASE n.isLt)).trans hE,
      (hinc.flag _ hne (spared_LEASE n.isLt)).trans hS, (hinc.flag _ hne (spared_LEASE n.isLt)).trans hH, hstep.regs,
      hstep.kept⟩
    · rw [fld_post _ _ _ _ _ _ _ _ ⟨by decide, by rw [groupKey]; decide, by decide⟩, fld_incFld _ _ (by decide), hG]
    · rw [post_bl, State.incFld_bl, bl_leaseEntered]
end

section
/-!
PROOFS. A port's link page (R220, R227, R252): lanes that rest, PAGE_CTRL.EN, LANEMODE and TICK, and the statement BrineLinks.
-/

namespace Sys2Proof.Machine
open Sys2Proof Sys2Proof.Claims

/-! ## A lane that rests (R220) -/

theorem LaneStep.setLane {s t : State} {n l st : Nat} {x : Lane} {own : List Nat} (h : LaneStep s t n l st x own) (y : Lane) :
    LaneStep s (t.setLane n l y) n l st y own where
  state := h.state
  other := h.other
  lane := laneOf_setLane_self _ _ _ _
  present := h.present
  up := h.up
  found := h.found
  down := h.down
  lost := h.lost
  silent := h.silent.imp_right fun q => q.trans (quiet_setLane _ _ _ _)
  step := h.step.trans (blStep_setLane _ _ _ _)
  only := laneOnly_trans _ _ h.only (laneOnly_setLane _ _ _ _)

/-- Where a lane rests: DOWN, or OFF when LANEMODE excludes it. -/
def restState (s : State) (n l : Nat) : Nat := if laneIn s n l then 0 else 5

theorem laneStep_laneRest (s : State) {n l : Nat} (hn : n < 64) (hl : l < 2) :
    LaneStep s (laneRest n l s) n l (restState s n l) (resting (laneOf s n l)) [] := by
  have hst : restState s n l < 16 := by
    rw [restState]
    split <;> decide
  exact ((lanePrep_refl s n l []).changed hn hl hst (by simp)).setLane _

theorem laneIn_of_rd {s t : State} {n : Nat} (h : t.rd (rBLn_CTRL n) = s.rd (rBLn_CTRL n)) (l : Nat) :
    laneIn t n l = laneIn s n l := by
  rw [laneIn, laneIn, fld_of_rd (fBLn_CTRL_LANEMODE n) h]

/-- The lanes of the other ports. -/
theorem laneOf_otherPort {s t : State} {n l : Nat} (h : LaneOnly s t n l) (hl : l < 2) (k : Nat) (hk : k / 2 ≠ n) :
    laneOf t (k / 2) (k % 2) = laneOf s (k / 2) (k % 2) := h.1 _ (by omega)
/-- The other lane of the port. -/
theorem laneOf_otherLane {s t : State} {n l j : Nat} (h : LaneOnly s t n l) (hj : j ≠ l) : laneOf t n j = laneOf s n j :=
  h.1 _ (by omega)

/-- Lane `l` is put to state `st`, or is in it; the other lanes and the ports are as before. -/
structure LaneMove (s t : State) (n l st : Nat) : Prop where
  state : laneSt t n l = st
  other : laneSt t n (1 - l) = laneSt s n (1 - l)
  step : BlStep [rBLn_LSTAT n] [blLink n] s t
  only : LaneOnly s t n l

theorem LaneStep.move {s t : State} {n l st : Nat} {x : Lane} (h : LaneStep s t n l st x []) : LaneMove s t n l st :=
  ⟨h.state, h.other, h.step, h.only⟩

/-- Lane A and then lane B of port `n`. -/
structure LinkMove (s t : State) (n : Nat) (st : Nat → Nat) : Prop where
  state : ∀ l : Fin 2, laneSt t n l.val = st l.val
  others : ∀ k : Fin 128, k.val / 2 ≠ n → laneOf t (k.val / 2) (k.val % 2) = laneOf s (k.val / 2) (k.val % 2)
  ports : t.bl.ports = s.bl.ports
  step : BlStep [rBLn_LSTAT n] [blLink n] s t

theorem LaneMove.link {s u t : State} {n : Nat} {st : Nat → Nat} (h : LaneMove s u n 0 (st 0)) (g : LaneMove u t n 1 (st 1)) :
    LinkMove s t n st where
  state l := by
    match l with
    | 0 => exact g.other.trans h.state
    | 1 => exact g.state
  others k hk := (laneOf_otherPort g.only (by decide) _ hk).trans (laneOf_otherPort h.only (by decide) _ hk)
  ports := g.only.2.1.trans h.only.2.1
  step := h.step.trans g.step

theorem spared_CTRL {n : Nat} (hn : n < 64) : Spared (rBLn_CTRL n) ∧ rBLn_CTRL n ∉ [rBLn_LSTAT n] := by
  refine ⟨by apply spared_brine <;> simp only [rBLn_CTRL] <;> omega, ?_⟩
  simp only [List.mem_singleton, rBLn_CTRL, rBLn_LSTAT]
  omega

theorem LaneMove.laneIn {s t : State} {n l st : Nat} (h : LaneMove s t n l st) (hn : n < 64) (j : Nat) :
    laneIn t n j = laneIn s n j := laneIn_of_rd (h.step.rd (spared_CTRL hn).2 (spared_CTRL hn).1) j

/-! ## PAGE_CTRL.EN of a link page (R220, R255) -/

theorem pageEnWrite_blLink {s : State} {n : Nat} {on : Bool} (hn : n < 64) (hl : locked s (blLink n) = false)
    (h : linkEn s n ≠ on) : pageEnWrite (blLink n) on s = linkEnWrite n on s := by
  have hidx : (blLink n - 0x080) / 2 = n := by
    simp only [blLink]
    omega
  have hen : on ≠ pageEn s (blLink n) := h.symm
  rw [pageEnWrite, if_neg hen, hl, if_neg Bool.false_ne_true, if_neg (by simp only [blLink]; omega),
    if_pos (by simp only [blLink]; omega), hidx]

/-- Both lanes of a port whose EN is written rest. -/
def linkRested (n : Nat) (on : Bool) (s : State) : State :=
  laneRest n 1 (laneRest n 0 (s.setFlag (fPAGE_CTRL_EN (blLink n)) on))

theorem linkEnWrite_eq {s : State} {n : Nat} {on : Bool} (h : linkEn s n ≠ on)
    (hr : on = false ∨ s.flag fSEC_STAT_RECOVERY = false) : linkEnWrite n on s =
      if on = true ∧ ((linkRested n on s).port n).last = none then (linkRested n on s).setFld (fBLn_SMISS n) 0
      else linkRested n on s := by
  have hgo : ¬ (linkEn s n = on ∨ (on = true ∧ s.flag fSEC_STAT_RECOVERY = true)) := by
    rintro (he | ⟨hon, hrec⟩)
    · exact h he
    · rcases hr with hr | hr
      · exact absurd (hr.symm.trans hon) (by decide)
      · exact absurd (hr.symm.trans hrec) (by decide)
  rw [linkEnWrite, if_neg hgo]
  exact if_congr (by rw [Bool.and_eq_true, Option.isNone_iff_eq_none, linkRested]) rfl rfl

section
variable (s : State) {n : Nat} (on : Bool) (hn : n < 64)
include hn

/-- The lanes of a port whose EN is written. -/
theorem linkRested_lanes :
    LinkMove (s.setFlag (fPAGE_CTRL_EN (blLink n)) on) (linkRested n on s) n (restState s n) ∧
    ∀ l : Fin 2, laneOf (linkRested n on s) n l.val = resting (laneOf s n l.val) := by
  obtain ⟨u, hu⟩ : ∃ u, u = s.setFlag (fPAGE_CTRL_EN (blLink n)) on := ⟨_, rfl⟩
  have hbl : u.bl = s.bl := by rw [hu, State.setFlag_bl]
  have hin : ∀ l, laneIn u n l = laneIn s n l := fun l => laneIn_of_rd (by
    rw [hu]
    exact rd_setFlag_ne s _ _ (by simp only [fPAGE_CTRL_EN, rPAGE_CTRL, rBLn_CTRL, blLink]; omega)) l
  have h0 := laneStep_laneRest u hn (l := 0) (by decide)
  have h1 := laneStep_laneRest (laneRest n 0 u) hn (l := 1) (by decide)
  have hr0 : restState u n 0 = restState s n 0 := by rw [restState, hin, restState]
  have hr1 : restState (laneRest n 0 u) n 1 = restState s n 1 := by rw [restState, h0.move.laneIn hn, hin, restState]
  rw [linkRested, ← hu]
  refine ⟨LaneMove.link (hr0 ▸ h0.move) (hr1 ▸ h1.move), fun l => ?_⟩
  match l with
  | 0 =>
    show laneOf _ n 0 = resting (laneOf s n 0)
    rw [laneOf_otherLane h1.only (by decide), h0.lane, laneOf_of_bl n _ hbl]
  | 1 =>
    show laneOf _ n 1 = resting (laneOf s n 1)
    rw [h1.lane, laneOf_otherLane h0.only (by decide), laneOf_of_bl n _ hbl]

/-- PAGE_CTRL.EN is written and both lanes rest; a port that is enabled and never had a valid frame counts from here. -/
theorem linkEnWrite_changes (h : linkEn s n ≠ on) (hr : on = false ∨ s.flag fSEC_STAT_RECOVERY = false) :
    let t := linkEnWrite n on s
    linkEn t n = on ∧ (∀ l : Fin 2, laneSt t n l.val = restState s n l.val ∧ laneOf t n l.val = resting (laneOf s n l.val)) ∧
    (on = false ∨ (s.port n).last ≠ none ∨ t.fld (fBLn_SMISS n) = 0) ∧
    (on = true ∧ (s.port n).last = none ∨ t.fld (fBLn_SMISS n) = s.fld (fBLn_SMISS n)) ∧
    (∀ k : Fin 128, k.val / 2 ≠ n → laneOf t (k.val / 2) (k.val % 2) = laneOf s (k.val / 2) (k.val % 2)) ∧
    t.bl.ports = s.bl.ports ∧ RegsEv s t [rPAGE_CTRL (blLink n), rBLn_LSTAT n, rBLn_SMISS n] [blLink n] ∧
    Kept s { t with bl := s.bl } := by
  intro t
  obtain ⟨hmove, hlane⟩ := linkRested_lanes s on hn
  obtain ⟨u, hu⟩ : ∃ u, u = linkRested n on s := ⟨_, rfl⟩
  rw [← hu] at hmove hlane
  have hbl : (s.setFlag (fPAGE_CTRL_EN (blLink n)) on).bl = s.bl := State.setFlag_bl _ _ _
  have hports : u.bl.ports = s.bl.ports := hmove.ports.trans (congrArg BrineState.ports hbl)
  have hkey : (rPAGE_CTRL (blLink n) ≠ rBLn_LSTAT n ∧ rPAGE_CTRL (blLink n) ≠ rBLn_SMISS n ∧
      rPAGE_CTRL (blLink n) % 1024 ≠ 4) ∧ rBLn_SMISS n ≠ rBLn_LSTAT n ∧ rBLn_LSTAT n ≠ rBLn_SMISS n ∧
      rBLn_SMISS n % 1024 ≠ 4 := by
    simp only [rPAGE_CTRL, rBLn_LSTAT, rBLn_SMISS, blLink]
    omega
  obtain ⟨⟨hCL, hCS, hC4⟩, hSL, hLS, hS4⟩ := hkey
  have hspared : Spared (rPAGE_CTRL (blLink n)) ∧ Spared (rBLn_SMISS n) := by
    constructor <;> apply spared_brine <;> simp only [rPAGE_CTRL, rBLn_SMISS, blLink] <;> omega
  have hsmiss : u.fld (fBLn_SMISS n) = s.fld (fBLn_SMISS n) :=
    (hmove.step.fld _ (by simpa [fBLn_SMISS] using hSL) hspared.2).trans
      (fld_of_rd _ (rd_setFlag_ne s _ _ (Ne.symm hCS)))
  have hen : linkEn u n = on := (hmove.step.flag _ (by simpa [fPAGE_CTRL_EN] using hCL) hspared.1).trans
    (flag_setFlag_self _ _ _ (by decide : 0 + 1 ≤ 32) rfl)
  have hto : BlStep [rPAGE_CTRL (blLink n), rBLn_LSTAT n, rBLn_SMISS n] [blLink n] s u :=
    (blStep_setFlag s _ _ (by simp [fPAGE_CTRL_EN]) hC4).trans (hmove.step.mono (by simp) (List.Subset.refl _))
  have hothers : ∀ k : Fin 128, k.val / 2 ≠ n → laneOf u (k.val / 2) (k.val % 2) = laneOf s (k.val / 2) (k.val % 2) :=
    fun k hk => (hmove.others k hk).trans (laneOf_of_bl _ _ hbl)
  have ht : t = if on = true ∧ (s.port n).last = none then u.setFld (fBLn_SMISS n) 0 else u := by
    rw [← port_of_ports n hports, hu]
    exact linkEnWrite_eq h hr
  by_cases hc : on = true ∧ (s.port n).last = none
  · rw [ht, if_pos hc]
    have hq : Quiet [rBLn_SMISS n] u (u.setFld (fBLn_SMISS n) 0) := quiet_setFld _ _ _ (List.mem_singleton_self _)
    have hb : (u.setFld (fBLn_SMISS n) 0).bl = u.bl := State.setFld_bl _ _ _
    have hst : ∀ l : Fin 2, laneSt (u.setFld (fBLn_SMISS n) 0) n l.val = laneSt u n l.val := fun l =>
      laneSt_of_rd l.isLt (hq.regs _ (by simpa using hLS))
    have hall := hto.trans ((hq.step (pgs := [blLink n]) (by simpa using hS4)).mono (by simp) (List.Subset.refl _))
    refine ⟨(flag_of_rd (fPAGE_CTRL_EN (blLink n)) (hq.regs _ (by simpa [fPAGE_CTRL_EN] using hCS))).trans hen,
      fun l => ⟨(hst l).trans (hmove.state l), (laneOf_of_bl _ _ hb).trans (hlane l)⟩,
      .inr (.inr (fld_setFld_self _ _ _ (by decide : 0 + 16 ≤ 32))), .inl hc,
      fun k hk => (laneOf_of_bl _ _ hb).trans (hothers k hk), (congrArg BrineState.ports hb).trans hports, hall.regs, hall.kept⟩
  · rw [ht, if_neg hc]
    refine ⟨hen, fun l => ⟨hmove.state l, hlane l⟩, ?_, .inr hsmiss, hothers, hports, hto.regs, hto.kept⟩
    rw [not_and_or, Bool.not_eq_true] at hc
    exact hc.imp_right .inl

end

/-! ## LANEMODE (R220, R252) -/

/-- BLn_CTRL of the register table. -/
def ctrlReg : RegD := ⟨"BLn_CTRL", 0x80, 64, 2, 0x40, 1, 0x0, false, [⟨8, 1, .w1s, 0x0, false⟩, ⟨7, 1, .w1s, 0x0, false⟩,
  ⟨6, 1, .w1s, 0x0, false⟩, ⟨4, 2, .rwl, 0x0, false⟩, ⟨2, 1, .rw, 0x1, false⟩]⟩

theorem regAt_CTRL : ∀ n : Fin 64, regAt (rBLn_CTRL n.val / 1024) (rBLn_CTRL n.val % 1024 * 4) = some ctrlReg := by
  decide +kernel

/-- LANEMODE and AUTOTRAIN take the written bits. -/
theorem writeFields_CTRL (n : Fin 64) (old v : Word) :
    writeFields (rBLn_CTRL n.val) false old v = bitsSet (bitsSet old 4 2 (bitsGet v 4 2)) 2 1 (bitsGet v 2 1) := by
  have hp : ctrlReg.part (rBLn_CTRL n.val % 1024 * 4) = 0 := by
    have hk : rBLn_CTRL n.val % 1024 = 16 := by
      simp only [rBLn_CTRL]
      omega
    rw [hk]
    rfl
  rw [writeFields, regAt_CTRL]
  simp only [hp]
  simp [ctrlReg]

/-- BLn_CTRL with LANEMODE written. -/
def laneModeWritten (n v : Nat) (s : State) : State :=
  plainWrite (rBLn_CTRL n) (bitsSet (s.rd (rBLn_CTRL n)) (fBLn_CTRL_LANEMODE n).lo 2 v) s

theorem quiet_laneModeWritten {s : State} (n : Fin 64) (m : BitVec 2) (hl : lockHeld s (blLink n.val) = false) :
    Quiet [rBLn_CTRL n.val] s (laneModeWritten n.val m.toNat s) ∧ (laneModeWritten n.val m.toNat s).bl = s.bl ∧
    (laneModeWritten n.val m.toNat s).fld (fBLn_CTRL_LANEMODE n.val) = m.toNat := by
  have hp : rBLn_CTRL n.val / 1024 = blLink n.val := by
    simp only [rBLn_CTRL, blLink]
    omega
  rw [laneModeWritten, plainWrite_unheld _ (by rw [hp, hl]), writeFields_CTRL]
  refine ⟨quiet_wr _ _ (List.mem_singleton_self _), State.wr_bl _ _ _, (fld_wr_self s (fBLn_CTRL_LANEMODE n.val) _).trans ?_⟩
  have hm := m.isLt
  rw [fBLn_CTRL_LANEMODE, bitsGet_bitsSet_ne _ _ _ _ _ _ (by decide) (.inr (by simp)),
    bitsGet_bitsSet_self _ _ _ _ (by decide), bitsGet_bitsSet_self _ 4 2 _ (by decide)]
  omega

/-- A lane rests when LANEMODE comes to exclude it or to include it again. -/
def laneModed (n l : Nat) (s : State) : State :=
  if laneIn s n l && laneSt s n l == 5 then laneRest n l s
  else if !laneIn s n l && laneSt s n l != 5 then laneRest n l s
  else s

theorem laneModeApply_eq (n : Nat) (s : State) : laneModeApply n s = laneModed n 1 (laneModed n 0 s) := rfl

/-- The state of a lane under LANEMODE. -/
def modeState (s : State) (n l : Nat) : Nat :=
  if laneIn s n l then (if laneSt s n l = 5 then 0 else laneSt s n l) else 5

theorem laneMove_laneModed (s : State) {n l : Nat} (hn : n < 64) (hl : l < 2) :
    LaneMove s (laneModed n l s) n l (modeState s n l) := by
  have hrest := (laneStep_laneRest s hn hl).move
  have hstay : LaneMove s s n l (laneSt s n l) := ⟨rfl, rfl, BlStep.refl _ _ s, laneOnly_refl s n l⟩
  rw [restState] at hrest
  rw [laneModed, modeState]
  by_cases hin : laneIn s n l = true <;> by_cases h5 : laneSt s n l = 5 <;> simp only [hin, h5] at hrest hstay ⊢
  · exact hrest
  · simpa [h5] using hstay
  · simpa using hstay
  · simpa [h5] using hrest

theorem linkMove_laneModeApply (s : State) {n : Nat} (hn : n < 64) :
    LinkMove s (laneModeApply n s) n (modeState s n) := by
  have h0 := laneMove_laneModed s hn (l := 0) (by decide)
  have h1 := laneMove_laneModed (laneModed n 0 s) hn (l := 1) (by decide)
  have hst : modeState (laneModed n 0 s) n 1 = modeState s n 1 := by
    rw [modeState, h0.laneIn hn, show laneSt (laneModed n 0 s) n 1 = laneSt s n 1 from h0.other, modeState]
  rw [laneModeApply_eq]
  exact h0.link (hst ▸ h1)

theorem modeState_eq {s t : State} {n : Nat} {m : BitVec 2} (hm : t.fld (fBLn_CTRL_LANEMODE n) = m.toNat)
    (hst : ∀ l : Fin 2, laneSt t n l.val = laneSt s n l.val) (l : Fin 2) : modeState t n l.val =
      (if (m.toNat = 1 ∧ l.val ≠ 0 ∨ m.toNat = 2 ∧ l.val ≠ 1) then 5
       else if laneSt s n l.val = 5 then 0 else laneSt s n l.val) := by
  have hin : laneIn t n l.val = !decide (m.toNat = 1 ∧ l.val ≠ 0 ∨ m.toNat = 2 ∧ l.val ≠ 1) := by
    rw [laneIn, hm]
    clear hm
    revert m l
    decide
  rw [modeState, hst, hin]
  by_cases hout : m.toNat = 1 ∧ l.val ≠ 0 ∨ m.toNat = 2 ∧ l.val ≠ 1
  · rw [if_pos hout, if_neg (by rw [decide_eq_true hout]; decide)]
  · rw [if_neg hout, if_pos (by rw [decide_eq_false hout]; decide)]

/-! ## TICK (R227) -/

/-- TICK on one lane. -/
def tickOn (n l : Nat) (s : State) : State := if laneUp s n l then s.emit (.tick n l (tickNo s + 1)) else s

theorem tickOn_eq (n l : Nat) (s : State) :
    tickOn n l s = { s with out := (if laneUp s n l then [.tick n l (tickNo s + 1)] else []) ++ s.out } := by
  rw [tickOn]
  split <;> rfl

theorem tickSend_sends {s : State} {n : Nat} (ht : tbEn s = true) (hl : linkEn s n = true) :
    tickSend n s = { s with out := (if laneUp s n 1 then [.tick n 1 (tickNo s + 1)] else []) ++
      (if laneUp s n 0 then [.tick n 0 (tickNo s + 1)] else []) ++ s.out } := by
  have hen : (pageEn s 0x10 && linkEn s n) = true := by rw [show pageEn s 0x10 = tbEn s from rfl, ht, hl]; rfl
  rw [tickSend, if_pos hen, List.append_assoc]
  show tickOn n 1 (tickOn n 0 s) = _
  rw [tickOn_eq n 0 s]
  exact tickOn_eq n 1 _

theorem tickSend_idle {s : State} {n : Nat} (h : tbEn s = false ∨ linkEn s n = false) : tickSend n s = s := by
  rw [tickSend, if_neg]
  rcases h with h | h
  · rw [show pageEn s 0x10 = tbEn s from rfl, h]
    simp
  · simp [h]

end Sys2Proof.Machine

open Sys2Proof Sys2Proof.Machine Sys2Proof.Claims

/-- Settles O39: both lanes rest when EN is written, each lane follows LANEMODE, and TICK leaves on the lanes that carry it. -/
theorem brineLinks : Obligations.BrineLinks := by
  intro s
  refine ⟨fun n on hl h hr => ⟨_, rfl, ?enable⟩, fun n on h => ⟨_, rfl, pageEnWrite_same _ h.symm⟩,
    fun n hl hr => ⟨_, rfl, ?recovery⟩, fun n on hl h => ⟨_, rfl, ?locked⟩, fun n m hl => ⟨_, rfl, ?mode⟩,
    fun n hf ht hl => ends_unfrozen rfl hf ?tick, fun n h => ends_idle rfl h tickSend_idle⟩
  case enable =>
    rw [show 0x080 + 2 * n.val = blLink n.val from rfl, pageEnWrite_blLink n.isLt hl h]
    exact linkEnWrite_changes s on n.isLt h hr
  case recovery =>
    by_cases hon : linkEn s n.val = true
    · exact pageEnWrite_same _ hon.symm
    · rw [show 0x080 + 2 * n.val = blLink n.val from rfl, pageEnWrite_blLink n.isLt hl hon, linkEnWrite,
        if_pos (.inr ⟨rfl, hr⟩)]
  case locked =>
    rw [show 0x080 + 2 * n.val = blLink n.val from rfl, pageEnWrite_of_locked hl (Ne.symm h)]
    have hq : Quiet [rPAGE_STAT (blLink n.val)] s (s.setFlag (fPAGE_STAT_REFUSED (blLink n.val)) true) :=
      quiet_setFlag _ _ _ (by simp [fPAGE_STAT_REFUSED])
    exact ⟨flag_setFlag_self _ _ _ (by decide : 3 + 1 ≤ 32) rfl, hq.regs, hq.noEvents,
      hq.kept_of_bl (State.setFlag_bl _ _ _)⟩
  case mode =>
    obtain ⟨hq, hbl, hm⟩ := quiet_laneModeWritten n m hl
    obtain ⟨u, hu⟩ : ∃ u, u = laneModeWritten n.val m.toNat s := ⟨_, rfl⟩
    rw [show laneModeRow n.val m.toNat s = laneModeApply n.val (laneModeWritten n.val m.toNat s) from rfl]
    rw [← hu] at hq hbl hm ⊢
    have hmove := linkMove_laneModeApply u n.isLt
    obtain ⟨hsp, hne⟩ := spared_CTRL n.isLt
    have hst : ∀ l : Fin 2, laneSt u n.val l.val = laneSt s n.val l.val := fun l =>
      laneSt_of_rd l.isLt (hq.regs _ (by simpa using Ne.symm (by simpa using hne)))
    have hstep : BlStep [rBLn_CTRL n.val, rBLn_LSTAT n.val] [blLink n.val] s (laneModeApply n.val u) :=
      ((hq.step (by simpa using hsp.2.2)).mono (by simp) (List.Subset.refl _)).trans
        (hmove.step.mono (by simp) (List.Subset.refl _))
    exact ⟨(hmove.step.fld _ hne hsp).trans hm, fun l => (hmove.state l).trans (modeState_eq hm hst l),
      fun k hk => (hmove.others k hk).trans (laneOf_of_bl _ _ hbl), hmove.ports.trans (congrArg BrineState.ports hbl),
      hstep.regs, hstep.kept⟩
  case tick =>
    rw [tickSend_sends ht hl]
    exact ⟨rfl, fun _ _ => rfl, ⟨rfl, rfl, rfl, rfl, rfl⟩, kept_refl s⟩
end

section
/-!
PROOFS. What a read of several words of the Saltern logs (R112, R113, R115), as the ports' latches need it.
-/

namespace Sys2Proof.Machine
open Sys2Proof Sys2Proof.Claims

/-! ## Folds in which few entries act -/

section
variable {α β : Type} {f : α → β → α} {t u : α} {l : List β}

theorem foldl_of_fixed (h : ∀ c ∈ l, f t c = t) : l.foldl f t = t := by
  induction l with
  | nil => rfl
  | cons c l ih => rw [List.foldl_cons, h c List.mem_cons_self, ih fun d hd => h d (List.mem_cons_of_mem c hd)]

/-- One entry of the list alone acts. -/
theorem foldl_of_single {b : β} (hl : l.Nodup) (hb : b ∈ l) (hact : f t b = u) (ht : ∀ c ∈ l, c ≠ b → f t c = t)
    (hu : ∀ c ∈ l, c ≠ b → f u c = u) : l.foldl f t = u := by
  obtain ⟨l₁, l₂, rfl⟩ := List.append_of_mem hb
  obtain ⟨hnot, -⟩ := List.nodup_cons.1 (List.nodup_middle.1 hl)
  rw [List.mem_append, not_or] at hnot
  obtain ⟨h₁, h₂⟩ := hnot
  rw [List.foldl_append, List.foldl_cons, foldl_of_fixed fun c hc => ht c (by simp [hc]) fun h => h₁ (h ▸ hc), hact,
    foldl_of_fixed fun c hc => hu c (by simp [hc]) fun h => h₂ (h ▸ hc)]

end

/-! ## Where a byte is stored (R115) -/

section
variable {s t : State} (h : ∀ i < 16, t.rd (rSAL_RMAPi i) = s.rd (rSAL_RMAPi i))
include h

theorem salKey_of_rd : salKey t = salKey s := by
  have hmap : rmapOf t = rmapOf s := funext fun w => List.find?_congr fun i hi => by
    rw [rmapValid, rmapWord, h i (List.mem_range.1 hi), rmapValid, rmapWord]
  funext a
  rw [salKey, hmap, salKey]

end

/-! ## Reads (R112, R113) -/

/-- What a read may log in: SAL_UELOG, SAL_CELOG and SAL_STAT. -/
def logRegs : List Nat := [rSAL_UELOG, rSAL_UELOG + 1, rSAL_CELOG, rSAL_CELOG + 1, rSAL_STAT]

/-- From `s` to `t` a read has logged what it found: the errors stay, and what was pending or seen stays so. -/
structure ReadLogs (s t : State) : Prop where
  regs : RegsEv s t logRegs [0x130]
  pend : ∀ p j, j < 32 → pendBit s p j = true → pendBit t p j = true
  seen : s.flag fSAL_STAT_UESEEN = true → t.flag fSAL_STAT_UESEEN = true
  err : t.sal.err = s.sal.err
  only : ∃ r p h i e l m, t = { s with regs := r, evPay := p, evHeld := h, evIn := i, ev := e, sl := l, sal := m }

namespace ReadLogs
variable {s t u : State}

theorem refl (s : State) : ReadLogs s s :=
  ⟨regsEv_refl, fun _ _ _ h => h, id, rfl, s.regs, s.evPay, s.evHeld, s.evIn, s.ev, s.sl, s.sal, rfl⟩
theorem trans (h : ReadLogs s t) (g : ReadLogs t u) : ReadLogs s u where
  regs := regsEv_trans h.regs g.regs
  pend p j hj hp := g.pend p j hj (h.pend p j hj hp)
  seen hs := g.seen (h.seen hs)
  err := g.err.trans h.err
  only := by
    obtain ⟨_, _, _, _, _, _, _, rfl⟩ := h.only
    obtain ⟨r, p, h, i, e, l, m, rfl⟩ := g.only
    exact ⟨r, p, h, i, e, l, m, rfl⟩

theorem rd (h : ReadLogs s t) {k : Nat} (hk : k ∉ logRegs) (hs : Spared k) : t.rd k = s.rd k := rd_of_regsEv h.regs hk hs
theorem salErr (h : ReadLogs s t) : salErr t = salErr s := by
  funext a
  rw [Machine.salErr, Machine.salErr, h.err, salKey_of_rd fun i hi => h.rd ?_ ?_]
  · simp only [logRegs, List.mem_cons, List.not_mem_nil, or_false, rSAL_RMAPi, rSAL_UELOG, rSAL_CELOG, rSAL_STAT]
    omega
  · simp only [Spared, rSAL_RMAPi, rSL_EVDROP]
    omega

/-- Registers of the log and the Saltern's counts are written. -/
theorem of_regsSal (hr : Claims.Regs s t logRegs) (hs : s.flag fSAL_STAT_UESEEN = true → t.flag fSAL_STAT_UESEEN = true)
    (he : t.sal.err = s.sal.err) (ho : t.out = s.out) (h : RegsSal s t) : ReadLogs s t where
  regs := regsEv_of_regs hr
  pend p j _ hp := by
    rw [pendBit, hr (rEV_PEND p)]
    · exact hp
    · simp only [logRegs, List.mem_cons, List.not_mem_nil, or_false, rEV_PEND, rSAL_UELOG, rSAL_CELOG, rSAL_STAT]
      omega
  seen := hs
  err := he
  only := by
    obtain ⟨r, m, o, rfl⟩ := h
    obtain rfl : o = s.out := ho
    exact ⟨r, s.evPay, s.evHeld, s.evIn, s.ev, s.sl, m, rfl⟩
/-- An event of the Saltern's page. -/
theorem of_post (b sev u c d : Nat) (s : State) : ReadLogs s (post 0x130 b sev u c d s) where
  regs := regsEv_mono (regsEv_post (fun _ _ => rfl) b sev u c d) (List.nil_subset _) (List.Subset.refl _)
  pend p j hj hp := pendBit_post_mono _ _ _ _ _ _ s p j hj hp
  seen hs := (flag_of_rd fSAL_STAT_UESEEN (rd_post _ _ _ _ _ _ _ (evFree_sal (by decide) (by decide)))).trans hs
  err := by rw [post_sal]
  only := by
    obtain ⟨r, p, h, i, e, l, b, hb⟩ := onlyBl_of_evFrame (post_frame 0x130 b sev u c d s)
    have hbl : b = s.bl := (congrArg State.bl hb).symm.trans (post_bl _ _ _ _ _ _ _)
    exact ⟨r, p, h, i, e, l, s.sal, hb.trans (by rw [hbl])⟩

end ReadLogs

section
variable (w v : Nat) (s : State)

theorem readLogs_salSet (f : SalState → SalState) (h : (f s.sal).err = s.sal.err) : ReadLogs s (s.salSet f) where
  regs := regsEv_refl
  pend _ _ _ hp := hp
  seen := id
  err := h
  only := ⟨s.regs, s.evPay, s.evHeld, s.evIn, s.ev, s.sl, _, rfl⟩

theorem readLogs_ueLogged : ReadLogs s (ueLogged v s) :=
  ReadLogs.of_regsSal (fun k hk => regs_ueLogged v s k fun hm => hk (by
    simp only [logRegs, List.mem_cons, List.not_mem_nil, or_false] at hm ⊢
    tauto)) (fun _ => flag_UESEEN_ueLogged v s) rfl rfl (regsSal_ueLogged v s)

theorem flag_UESEEN_ceLogged : (ceLogged w v s).flag fSAL_STAT_UESEEN = s.flag fSAL_STAT_UESEEN := by
  rw [ceLogged, flag_setFlag_ne _ _ _ _ (by decide) (.inr (.inr (by decide)))]
  exact flag_of_rd _ (rd_wr64_ne _ _ _ (by decide) (by decide))

theorem readLogs_ceLogged : ReadLogs s (ceLogged w v s) :=
  ReadLogs.of_regsSal (fun k hk => regs_ceLogged w v s k fun hm => hk (by
    simp only [logRegs, List.mem_cons, List.not_mem_nil, or_false] at hm ⊢
    tauto)) (fun hs => (flag_UESEEN_ceLogged w v s).trans hs) rfl rfl (regsSal_ceLogged w v s)

theorem readLogs_ueRead (p mask : Nat) : ReadLogs s (ueRead true p w mask s) := by
  rw [ueRead_eq]
  exact (readLogs_ueLogged _ s).trans (ReadLogs.of_post _ _ _ _ _ _)

/-- What is logged of an uncorrectable word (R113). -/
theorem ueRead_seen (p mask : Nat) : pendBit (ueRead true p w mask s) 0x130 1 = true ∧
    (ueRead true p w mask s).flag fSAL_STAT_UESEEN = true := by
  rw [ueRead_eq]
  exact ⟨pendBit_post _ _ _ _ _ _ _ (by decide), (ReadLogs.of_post _ _ _ _ _ _).seen (flag_UESEEN_ueLogged _ s)⟩

theorem readLogs_ceRead (b loc : Nat) : ReadLogs s (ceRead w b loc s) := by
  by_cases h : cePosts w s
  · rw [ceRead_posts b loc h, cePosted]
    exact ((readLogs_ceLogged w _ s).trans (readLogs_salSet _ _ rfl)).trans (ReadLogs.of_post _ _ _ _ _ _)
  · rw [ceRead_silent b loc h]
    exact readLogs_ceLogged w _ s

theorem readLogs_wordRead (p a n : Nat) : ReadLogs s (wordRead p a n w s) := by
  rw [wordRead, wordReadBy]
  split
  · exact readLogs_ueRead w s _ _
  · split
    · split
      · exact readLogs_ceRead w s _ _
      · exact ReadLogs.refl s
    · exact ReadLogs.refl s

theorem wordRead_of_ue {p a n : Nat} (h : ueBytes s a n w ≠ []) : ∃ mask, wordRead p a n w s = ueRead true p w mask s := by
  obtain ⟨u, us, hu⟩ := List.exists_cons_of_ne_nil h
  exact ⟨_, by rw [wordRead, wordReadBy, hu]⟩

theorem readLogs_words (p a n : Nat) (l : List Nat) :
    ReadLogs s (l.foldl (fun t i => wordRead p a n (a / 8 + i) t) s) := by
  induction l generalizing s with
  | nil => exact ReadLogs.refl s
  | cons i l ih => exact (readLogs_wordRead _ s p a n).trans (ih _)

end

section
variable {s : State} {p a n : Nat}

theorem readLogs_readFx (p a n : Nat) (s : State) : ReadLogs s (readFx p a n s) := readLogs_words s p a n _

theorem exists_of_salBad (h : salBad s a n = true) : ∃ i < n, salErr s (a + i) = .ue := by
  simpa only [salBad, List.any_eq_true, List.mem_range, beq_iff_eq] using h

/-- A read that finds an uncorrectable byte posts it (R113). -/
theorem readFx_of_salBad (h : salBad s a n = true) :
    pendBit (readFx p a n s) 0x130 1 = true ∧ (readFx p a n s).flag fSAL_STAT_UESEEN = true := by
  obtain ⟨i, hi, he⟩ := exists_of_salBad h
  have hmem : (a + i) / 8 - a / 8 ∈ List.range (if n = 0 then 0 else (a + n - 1) / 8 - a / 8 + 1) := by
    rw [if_neg (by omega), List.mem_range]
    omega
  obtain ⟨l₁, l₂, hl⟩ := List.append_of_mem hmem
  obtain ⟨t, ht⟩ : ∃ t, t = l₁.foldl (fun t i => wordRead p a n (a / 8 + i) t) s := ⟨_, rfl⟩
  have hto : ReadLogs s t := ht ▸ readLogs_words s p a n l₁
  have hword : a / 8 + ((a + i) / 8 - a / 8) = (a + i) / 8 := by omega
  have hue : ueBytes t a n ((a + i) / 8) ≠ [] := List.ne_nil_of_mem (a := (a + i) % 8) (by
    simp only [ueBytes, List.mem_filter, List.mem_range, Bool.and_eq_true, decide_eq_true_eq, beq_iff_eq, hto.salErr,
      Nat.div_add_mod, he]
    exact ⟨Nat.mod_lt _ (by decide), ⟨Nat.le_add_right a i, Nat.add_lt_add_left hi a⟩, trivial⟩)
  obtain ⟨mask, hread⟩ := wordRead_of_ue (p := p) ((a + i) / 8) t hue
  obtain ⟨hpend, hseen⟩ := ueRead_seen ((a + i) / 8) t p mask
  have hafter := readLogs_words (ueRead true p ((a + i) / 8) mask t) p a n l₂
  rw [readFx, hl, List.foldl_append, List.foldl_cons, ← ht, hword, hread]
  exact ⟨hafter.pend _ _ (by decide) hpend, hafter.seen hseen⟩

end

end Sys2Proof.Machine
end

section
/-!
PROOFS. The close of the command area (R239, R244, R441, R499): the pair link's missing frame, the open marks, and the latches
of the ports.
-/

namespace Sys2Proof.Machine
open Sys2Proof Sys2Proof.Claims

/-! ## What comes before the ports (R441, R499) -/

section
variable {s : State}

theorem pairMiss_of_notUp (h : plLane s ≠ 3) : pairMiss s = s := if_neg fun hc => h hc.1
theorem areaClose_of_closed (h : s.bl.closed = tickNo s + 1) : areaClose s = s := if_pos h

/-- The close of this tick. -/
def closing (s : State) : State := { s with bl := { s.bl with closed := tickNo s + 1 } }

theorem commandClose_eq (hp : plLane s ≠ 3) (h : s.bl.closed ≠ tickNo s + 1) :
    commandClose s = (List.range 64).foldl (fun t n => portLatch n t) (markClose (tickNo s) (closing s)) := by
  rw [commandClose, pairMiss_of_notUp hp]
  exact if_neg h

/-- Without an open mark the later launches alone stay to be looked at. -/
theorem markClose_of_none {m : Nat} (h : marksOpen s m = []) : markClose m s = s.tjSet (laterLaunches m) := by
  unfold markClose
  extract_lets ts t
  have hts : ts = [] := h
  rw [if_pos (by rw [hts]; rfl)]
  simp only [t, hts, List.contains_nil, Bool.false_or]
  rfl

/-- Open marks, and no context launched under them. -/
theorem markClose_of_idle {m : Nat} (h : marksOpen s m ≠ []) (hl : s.tj.launched = []) :
    markClose m s = post 0x150 18 2 0 0 0 (s.incFld fTJ_HOLDS) := by
  unfold markClose
  extract_lets ts t cs
  have ht : t = s := by
    have hnil : t = s.tjSet fun x => { x with launched := [] } := by simp only [t, State.tjSet, hl, List.filter_nil]
    rw [hnil, State.tjSet, ← hl]
  have hcs : cs = [] := by simp only [cs, hl, List.filter_nil]
  rw [if_neg (by simpa [ts] using h), hcs, ht, List.foldl_nil]

end

/-! ## The latch of one port (R239, R244) -/

section
variable {s : State} {n : Nat}

theorem portLatch_of_disabled (h : linkEn s n = false) : portLatch n s = s := if_pos (.inl h)
theorem portLatch_of_not (h : ¬ Latches s n) : portLatch n s = s := by
  refine if_pos ?_
  by_contra hc
  simp only [not_or, Bool.not_eq_false, Bool.not_eq_true] at hc
  exact h ⟨hc.1, hc.2.1, hc.2.2.2⟩

theorem readLogs_salReadFx (p a k : Nat) (s : State) : ReadLogs s (salReadFx p a k s) :=
  have htouch : ReadLogs s (portTouch p s) := by
    rw [portTouch, portPeak]
    exact readLogs_salSet s _ rfl
  htouch.trans (readLogs_readFx p a k _)

theorem ReadLogs.tickNo {u : State} (h : ReadLogs s u) : tickNo u = tickNo s :=
  rd64_of_rd rTICKNO (h.rd (by decide) (by decide)) (h.rd (by decide) (by decide))

/-- What a port latches survives the read of its buffer. -/
theorem latchedPort_of_readLogs {u : State} (hn : n < 64) (h : ReadLogs s u) (b : Option (List Byte)) (p : BPort) :
    latchedPort u n b p = latchedPort s n b p := by
  have hlease : u.rd (rBLn_LEASE n) = s.rd (rBLn_LEASE n) := h.rd (by
    simp only [logRegs, List.mem_cons, List.not_mem_nil, or_false, rBLn_LEASE, rSAL_UELOG, rSAL_CELOG, rSAL_STAT]
    omega) (spared_LEASE hn)
  rw [latchedPort, h.tickNo, fld_of_rd (fBLn_LEASE_EPOCH n) hlease, flag_of_rd (fBLn_LEASE_ARMED n) hlease,
    flag_of_rd (fBLn_LEASE_STOP n) hlease, latchedPort]

/-- The port once it has read its buffer and latched. -/
def portLatched (s : State) (n : Nat) (b : Option (List Byte)) : State :=
  (salReadFx n (bufAt s n) 64 s).setPort n (latchedPort s n b (s.port n))

theorem tickNo_portLatched (s : State) (n : Nat) (b : Option (List Byte)) : tickNo (portLatched s n b) = tickNo s := by
  rw [portLatched, tickNo, rd64_setPort]
  exact (readLogs_salReadFx n (bufAt s n) 64 s).tickNo

/-- What a port that latches reads and keeps. -/
theorem portLatch_eq (hn : n < 64) (h : Latches s n) (hf : s.flag fRST_STAT_FRAMEHOLD = false) : portLatch n s =
    if salBad s (bufAt s n) 64 then
      addHold ⟨3, n, 0, 8 * n, 8, 0xFFFF, tickNo s, some (tickNo s + 1)⟩ 0 (portLatched s n none)
    else portLatched s n (some (salBytes s (bufAt s n) 64)) := by
  obtain ⟨hen, hst, hfr⟩ := h
  unfold portLatch
  extract_lets p a bad bs u v
  have hv : v = portLatched s n (if bad then none else some bs) :=
    congrArg (u.setPort n) (latchedPort_of_readLogs hn (readLogs_salReadFx n a 64 s) (if bad then none else some bs) p)
  have hgo : ¬ (linkEn s n = false ∨ s.tb.started = false ∨ frameHold s = true ∨ frozen s (blTrans n) = true) := by
    rw [frameHold, hen, hst, hf, hfr]
    decide
  rw [if_neg hgo, hv, tickNo_portLatched, show bad = salBad s (bufAt s n) 64 from rfl]
  split
  · rfl
  · rfl

end

/-! ## The ports of a device without errors -/

/-- The first `m` ports have latched. -/
structure Latched (s t : State) (m : Nat) : Prop where
  only : ∃ k ps, t = { s with sal := { s.sal with peak := k }, bl := { s.bl with ports := ps } }
  latched : ∀ n < m, Latches s n → t.port n = latchedPort s n (some (salBytes s (bufAt s n) 64)) (s.port n)
  idle : ∀ n, ¬ (n < m ∧ Latches s n) → t.port n = s.port n

theorem latched_ports {s : State} (hc : Clean s) (hf : s.flag fRST_STAT_FRAMEHOLD = false) {m : Nat} (hm : m ≤ 64) :
    Latched s ((List.range m).foldl (fun t n => portLatch n t) s) m := by
  induction m with
  | zero => exact ⟨⟨s.sal.peak, s.bl.ports, rfl⟩, fun n hn => absurd hn (Nat.not_lt_zero n), fun _ _ => rfl⟩
  | succ m ih =>
    obtain ⟨⟨k, ps, hu⟩, hlatched, hidle⟩ := ih (by omega)
    rw [List.range_succ, List.foldl_append, List.foldl_cons, List.foldl_nil]
    obtain ⟨u, hdef⟩ : ∃ u, u = (List.range m).foldl (fun t n => portLatch n t) s := ⟨_, rfl⟩
    rw [← hdef] at hu hlatched hidle ⊢
    have hgate : Latches u m ↔ Latches s m := by rw [hu]; rfl
    by_cases hl : Latches s m
    · have hbad : salBad u (bufAt u m) 64 = false := salBad_of_noErr fun c _ _ => by rw [hu, salErr, hc.1]; rfl
      have hport : u.port m = s.port m := hidle m (by omega)
      have hbytes : latchedPort u m (some (salBytes u (bufAt u m) 64)) (u.port m) =
          latchedPort s m (some (salBytes s (bufAt s m) 64)) (s.port m) := by
        rw [hport, hu]
        rfl
      have hstep : portLatch m u = portLatched u m (some (salBytes u (bufAt u m) 64)) := by
        rw [portLatch_eq (by omega) (hgate.2 hl) (by rw [hu]; exact hf), hbad, if_neg Bool.false_ne_true]
      obtain ⟨k', hread⟩ := salReadFx_of_no_error (s := u) (by rw [hu]; exact hc.1) m (bufAt u m) 64
      rw [hstep, portLatched, hread]
      refine ⟨⟨k', _, by rw [hu]; rfl⟩, fun n hn hln => ?_, fun n hn => ?_⟩
      · rcases Nat.lt_succ_iff_lt_or_eq.1 hn with hlt | rfl
        · exact (otherPort_setPort _ m _ n (by omega)).trans (hlatched n hlt hln)
        · exact (port_setPort_self _ n _).trans hbytes
      · have hne : n ≠ m := by
          rintro rfl
          exact hn ⟨Nat.lt_succ_self n, hl⟩
        exact (otherPort_setPort _ m _ n hne).trans (hidle n fun ⟨hlt, hln⟩ => hn ⟨by omega, hln⟩)
    · rw [portLatch_of_not (mt hgate.1 hl)]
      refine ⟨⟨k, ps, hu⟩, fun n hn hln => ?_, fun n hn => hidle n fun ⟨hlt, hln⟩ => hn ⟨by omega, hln⟩⟩
      rcases Nat.lt_succ_iff_lt_or_eq.1 hn with hlt | rfl
      · exact hlatched n hlt hln
      · exact absurd hln hl

/-! ## A port whose buffer reads uncorrectable (R239, R267) -/

section
variable (h : Hold) (tag : Nat) (s : State)

theorem bl_addHold : (addHold h tag s).bl = s.bl := by rw [addHold, safeHold, postEvent_bl, State.rkSet_bl]
theorem cores_addHold : (addHold h tag s).cores = s.cores := by rw [addHold, safeHold, postEvent_cores, State.rkSet_cores]
theorem rd_addHold {k : Nat} (hk : Spared k) : (addHold h tag s).rd k = s.rd k := by
  obtain ⟨hg, hd, h4⟩ := hk
  have hfree : evFree rkPg k := ⟨fun he => h4 (he ▸ rEV_PEND_mod rkPg), fun hb => by rcases hb with ⟨_, _⟩; omega, hd⟩
  rw [addHold, safeHold, rd_postEvent ⟨rkPg, 4, 2⟩ _ _ hfree]
  rfl

end

theorem ReadLogs.kept_parts {s t : State} (h : ReadLogs s t) :
    t.bl = s.bl ∧ t.rk = s.rk ∧ t.cores = s.cores ∧ t.cry = s.cry := by
  obtain ⟨_, _, _, _, _, _, _, rfl⟩ := h.only
  exact ⟨rfl, rfl, rfl, rfl⟩

/-- The buffer is not latched, the read is recorded, and the port's phases are held for one frame. -/
theorem portLatched_of_bad {s : State} {n : Nat} (hbad : salBad s (bufAt s n) 64 = true) (h : Hold) :
    let t := addHold h 0 (portLatched s n none)
    t.port n = latchedPort s n none (s.port n) ∧ t.rk.holds = s.rk.holds ++ [h] ∧ pendBit t rkPg 4 = true ∧
    pendBit t 0x130 1 = true ∧ t.flag fSAL_STAT_UESEEN = true ∧ t.bl.closed = s.bl.closed ∧
    t.cores = s.cores ∧ t.cry = s.cry ∧ ∀ m < 64, linkEn t m = linkEn s m := by
  intro t
  obtain ⟨u, hu⟩ : ∃ u, u = salReadFx n (bufAt s n) 64 s := ⟨_, rfl⟩
  have hread : ReadLogs s u := hu ▸ readLogs_salReadFx n (bufAt s n) 64 s
  obtain ⟨hbl, hrk, hcores, hcry⟩ := hread.kept_parts
  obtain ⟨hpend, hseen⟩ : pendBit u 0x130 1 = true ∧ u.flag fSAL_STAT_UESEEN = true := by
    rw [hu]
    exact readFx_of_salBad (s := portTouch n s) hbad
  have hport : portLatched s n none = u.setPort n (latchedPort s n none (s.port n)) := by rw [portLatched, hu]
  have ht : t = addHold h 0 (u.setPort n (latchedPort s n none (s.port n))) := by rw [← hport]
  obtain ⟨v, hv⟩ : ∃ v, v = u.setPort n (latchedPort s n none (s.port n)) := ⟨_, rfl⟩
  have hvrd : ∀ k, v.rd k = u.rd k := fun k => by rw [hv, rd_setPort]
  have hvport : v.port n = latchedPort s n none (s.port n) := by rw [hv, port_setPort_self]
  have hvrk : v.rk = s.rk := by rw [hv, ← hrk]; rfl
  have hvclosed : v.bl.closed = s.bl.closed := by rw [hv, ← hbl]; rfl
  have hvcores : v.cores = s.cores := by rw [hv, ← hcores]; rfl
  have hvcry : v.cry = s.cry := by rw [hv, ← hcry]; rfl
  rw [ht, ← hv]
  refine ⟨(port_of_bl n (bl_addHold h 0 v)).trans hvport, by rw [holds_addHold, hvrk], pendBit_addHold_self _ _ _,
    pendBit_addHold _ _ _ (by decide) (by rwa [pendBit, hvrd]), ?_, by rw [bl_addHold, hvclosed],
    by rw [cores_addHold, hvcores], by rw [cry_addHold, hvcry], fun m hm => ?_⟩
  · rw [flag_of_rd fSAL_STAT_UESEEN (rd_addHold h 0 v (by decide)), flag_of_rd fSAL_STAT_UESEEN (hvrd _), hseen]
  · have hsp : Spared (rPAGE_CTRL (blLink m)) := by
      apply spared_brine <;> simp only [rPAGE_CTRL, blLink] <;> omega
    refine flag_of_rd (fPAGE_CTRL_EN (blLink m)) ?_
    rw [fPAGE_CTRL_EN, rd_addHold h 0 v hsp, hvrd, hread.rd _ hsp]
    simp only [logRegs, List.mem_cons, List.not_mem_nil, or_false, rPAGE_CTRL, blLink, rSAL_UELOG, rSAL_CELOG, rSAL_STAT]
    omega

/-! ## The close -/

section
variable {s : State}

/-- The pair link's missing frame is counted again at each close (R499). -/
theorem commandClose_missed (hc : s.bl.closed = tickNo s + 1) (hl : plLane s = 3) (hchk : s.dup.chk ≠ tickNo s)
    (hgot : s.dup.got < tickNo s) : commandClose s = (s.incFld fPL_MISS).dupSet (checked (tickNo s)) := by
  have hm : pairMiss s = (s.incFld fPL_MISS).dupSet (checked (tickNo s)) := by
    rw [pairMiss, if_pos ⟨hl, hchk, hgot⟩]
    rfl
  have htick : tickNo (pairMiss s) = tickNo s := by
    rw [hm, tickNo, rd64_dupSet]
    exact rd64_of_rd rTICKNO (rd_incFld_ne s _ (by decide)) (rd_incFld_ne s _ (by decide))
  have hclosed : (pairMiss s).bl.closed = s.bl.closed := by
    rw [hm, State.dupSet_bl, State.incFld_bl]
  rw [commandClose, areaClose_of_closed (by rw [hclosed, htick, hc]), hm]

/-- A device without errors and without open marks: the ports alone change (R239). -/
theorem commandClose_clean (hp : plLane s ≠ 3) (h : s.bl.closed ≠ tickNo s + 1) (hm : marksOpen s (tickNo s) = [])
    (hc : Clean s) (hf : s.flag fRST_STAT_FRAMEHOLD = false) :
    let t := commandClose s
    (∀ n : Fin 64, Latches s n.val →
      t.port n.val = latchedPort s n.val (some (salBytes s (bufAt s n.val) 64)) (s.port n.val)) ∧
    (∀ n : Fin 64, ¬ Latches s n.val → t.port n.val = s.port n.val) ∧ t.bl.lanes = s.bl.lanes ∧
    t.bl.closed = tickNo s + 1 ∧ t.tj = laterLaunches (tickNo s) s.tj ∧ { t.sal with peak := s.sal.peak } = s.sal ∧
    Claims.Regs s t [] ∧ NoEvents s t ∧ Kept s { t with bl := s.bl, tj := s.tj, sal := s.sal } := by
  intro t
  have ht : t = (List.range 64).foldl (fun t n => portLatch n t) ((closing s).tjSet (laterLaunches (tickNo s))) := by
    rw [← markClose_of_none (s := closing s) hm]
    exact commandClose_eq hp h
  obtain ⟨⟨k, ps, hu⟩, hlatched, hidle⟩ :=
    latched_ports (s := (closing s).tjSet (laterLaunches (tickNo s))) hc hf (Nat.le_refl 64)
  rw [← ht] at hu hlatched hidle
  refine ⟨fun n hn => hlatched n.val n.isLt hn, fun n hn => hidle n.val fun hl => hn hl.2, ?_⟩
  rw [hu]
  exact ⟨rfl, rfl, rfl, rfl, fun _ _ => rfl, ⟨rfl, rfl, rfl, rfl, rfl⟩, kept_refl s⟩

/-- One port alone latches, and its buffer reads uncorrectable (R239). -/
theorem commandClose_bad {n : Fin 64} (hp : plLane s ≠ 3) (h : s.bl.closed ≠ tickNo s + 1)
    (hm : marksOpen s (tickNo s) = []) (hf : s.flag fRST_STAT_FRAMEHOLD = false) (hl : Latches s n.val)
    (hothers : ∀ m : Fin 64, m ≠ n → linkEn s m.val = false) (hbad : salBad s (bufAt s n.val) 64 = true) :
    let t := commandClose s
    t.port n.val = latchedPort s n.val none (s.port n.val) ∧
    t.rk.holds = s.rk.holds ++ [⟨3, n.val, 0, 8 * n.val, 8, 0xFFFF, tickNo s, some (tickNo s + 1)⟩] ∧
    pendBit t rkPg 4 = true ∧ pendBit t 0x130 1 = true ∧ t.flag fSAL_STAT_UESEEN = true ∧ t.bl.closed = tickNo s + 1 ∧
    t.cores = s.cores ∧ t.cry = s.cry := by
  intro t
  obtain ⟨u, hu⟩ : ∃ u, u = (closing s).tjSet (laterLaunches (tickNo s)) := ⟨_, rfl⟩
  have hubad : salBad u (bufAt u n.val) 64 = true := by rw [hu]; exact hbad
  have hact : portLatch n.val u =
      addHold ⟨3, n.val, 0, 8 * n.val, 8, 0xFFFF, tickNo s, some (tickNo s + 1)⟩ 0 (portLatched u n.val none) := by
    rw [portLatch_eq n.isLt (by rw [hu]; exact hl) (by rw [hu]; exact hf), if_pos hubad, show tickNo u = tickNo s by rw [hu]; rfl]
  obtain ⟨hport, hholds, hpend, hpendS, hseen, hclosed, hcores, hcry, hen⟩ := portLatched_of_bad hubad
    ⟨3, n.val, 0, 8 * n.val, 8, 0xFFFF, tickNo s, some (tickNo s + 1)⟩
  have hoff : ∀ m ∈ List.range 64, m ≠ n.val → linkEn u m = false := fun m hm hne => by
    rw [hu]
    exact hothers ⟨m, List.mem_range.1 hm⟩ fun he => hne (congrArg Fin.val he)
  have ht : t = addHold ⟨3, n.val, 0, 8 * n.val, 8, 0xFFFF, tickNo s, some (tickNo s + 1)⟩ 0 (portLatched u n.val none) := by
    rw [show t = commandClose s from rfl, commandClose_eq hp h, markClose_of_none (s := closing s) hm, ← hu]
    exact foldl_of_single List.nodup_range (List.mem_range.2 n.isLt) hact
      (fun m hm hne => portLatch_of_disabled (hoff m hm hne))
      (fun m hm hne => portLatch_of_disabled ((hen m (List.mem_range.1 hm)).trans (hoff m hm hne)))
  rw [ht]
  refine ⟨hport.trans (by rw [hu]; rfl), hholds.trans (by rw [hu]; rfl), hpend, hpendS, hseen, hclosed.trans (by rw [hu]; rfl),
    hcores.trans (by rw [hu]; rfl), hcry.trans (by rw [hu]; rfl)⟩

/-- Open marks without a context launched under them, and no port that is enabled (R441). -/
theorem commandClose_marks (hp : plLane s ≠ 3) (h : s.bl.closed ≠ tickNo s + 1) (hm : marksOpen s (tickNo s) ≠ [])
    (hl : s.tj.launched = []) (hothers : ∀ m : Fin 64, linkEn s m.val = false) :
    let t := commandClose s
    t.fld fTJ_HOLDS = satInc fTJ_HOLDS.width (s.fld fTJ_HOLDS) ∧ pendBit t 0x150 18 = true ∧ t.bl.closed = tickNo s + 1 ∧
    t.bl.ports = s.bl.ports ∧ t.tj = s.tj ∧ RegsEv s t [fTJ_HOLDS.key] [0x150] ∧ Kept s { t with bl := s.bl } := by
  intro t
  obtain ⟨u, hu⟩ : ∃ u, u = post 0x150 18 2 0 0 0 ((closing s).incFld fTJ_HOLDS) := ⟨_, rfl⟩
  have hpost : BlStep [fTJ_HOLDS.key] [0x150] ((closing s).incFld fTJ_HOLDS) u :=
    hu ▸ blStep_post _ _ _ _ _ _ (List.mem_singleton_self _)
  have hinc : BlStep [fTJ_HOLDS.key] [0x150] (closing s) ((closing s).incFld fTJ_HOLDS) :=
    blStep_setFld _ fTJ_HOLDS _ (List.mem_singleton_self _) (by decide)
  have hclose : BlStep [fTJ_HOLDS.key] [0x150] s (closing s) :=
    ⟨fun _ _ _ _ _ => rfl, fun _ _ _ hp => hp, s.regs, s.evPay, s.evHeld, s.evIn, s.ev, s.sl, _, rfl⟩
  have hstep := (hclose.trans hinc).trans hpost
  have hbl : u.bl = (closing s).bl := by rw [hu, post_bl, State.incFld_bl]
  have hoff : ∀ m ∈ List.range 64, linkEn u m = false := fun m hm => by
    have hlt := List.mem_range.1 hm
    refine (hstep.flag (fPAGE_CTRL_EN (blLink m)) ?_ ?_).trans (hothers ⟨m, hlt⟩)
    · simp only [List.mem_singleton, fPAGE_CTRL_EN, rPAGE_CTRL, blLink, fTJ_HOLDS, rTJ_HOLDS]
      omega
    · apply spared_brine <;> simp only [fPAGE_CTRL_EN, rPAGE_CTRL, blLink] <;> omega
  have ht : t = u := by
    rw [show t = commandClose s from rfl, commandClose_eq hp h, markClose_of_idle (s := closing s) hm hl, ← hu]
    exact foldl_of_fixed fun m hm => portLatch_of_disabled (hoff m hm)
  have hcount : u.fld fTJ_HOLDS = satInc fTJ_HOLDS.width (s.fld fTJ_HOLDS) := by
    rw [hu, fld_post _ _ _ _ _ _ _ _ ⟨by decide, by rw [groupKey]; decide, by decide⟩, fld_incFld _ _ (by decide)]
    rfl
  rw [ht]
  exact ⟨hcount, hu ▸ pendBit_post _ _ _ _ _ _ _ (by decide), by rw [hbl]; rfl, by rw [hbl]; rfl, by
    rw [hu, post_tj, State.incFld_tj]; rfl, hstep.regs, hstep.kept⟩

end

end Sys2Proof.Machine
end

section
/-!
PROOFS. The command frame (R237, R240, R244, R263): the bytes of a phase block, the fields that no source overrides, what the
lanes of a port send, and the statement CommandFrames.
-/

namespace Sys2Proof.Machine
open Sys2Proof Sys2Proof.Claims

/-! ## Bytes and phase blocks (R4, R240) -/

theorem bytesOfNat_natOfBytes (l : List Byte) : bytesOfNat l.length (natOfBytes l) = l := by
  induction l with
  | nil => rfl
  | cons b l ih =>
    have hb := b.isLt
    have hlow : (BitVec.ofNat 8 (b.toNat + 256 * natOfBytes l) : Byte) = b := by
      apply BitVec.eq_of_toNat_eq
      rw [BitVec.toNat_ofNat]
      omega
    have hhigh : (b.toNat + 256 * natOfBytes l) / 256 = natOfBytes l := by omega
    rw [List.length_cons, bytesOfNat, natOfBytes, hlow, hhigh, ih]

theorem natOfBytes_lt (l : List Byte) : natOfBytes l < 256 ^ l.length := by
  induction l with
  | nil => exact Nat.one_pos
  | cons b l ih =>
    have hb := b.isLt
    rw [natOfBytes, List.length_cons, pow_succ]
    omega

theorem length_bytesAt (bs : List Byte) (i n : Nat) : (bytesAt bs i n).length = n := by
  rw [bytesAt, List.length_map, List.length_range]

theorem bytesOfNat_numAt (bs : List Byte) (i n : Nat) : bytesOfNat n (numAt bs i n) = bytesAt bs i n := by
  have h := bytesOfNat_natOfBytes (bytesAt bs i n)
  rwa [length_bytesAt] at h

theorem bytesAt_eq_take (bs : List Byte) (i n : Nat) (h : i + n ≤ bs.length) : bytesAt bs i n = (bs.drop i).take n := by
  refine List.ext_getElem (by rw [length_bytesAt, List.length_take, List.length_drop]; omega) fun j hj _ => ?_
  rw [length_bytesAt] at hj
  simp only [bytesAt, List.getElem_map, List.getElem_range, List.getElem_take, List.getElem_drop]
  exact List.getD_eq_getElem bs 0 (by omega)

/-- The phase blocks of a buffer, one after the other. -/
theorem flatten_blocksOf (bs : List Byte) {k : Nat} (h : 6 * k ≤ bs.length) :
    (((List.range k).map fun l => numAt bs (6 * l) 6).map fun b => bytesOfNat 6 b).flatten = bs.take (6 * k) := by
  induction k with
  | zero => rfl
  | succ k ih =>
    rw [List.range_succ, List.map_append, List.map_append, List.flatten_append, ih (by omega), Nat.mul_succ, List.take_add]
    simp only [List.map_cons, List.map_nil, List.flatten_cons, List.flatten_nil, List.append_nil, bytesOfNat_numAt]
    rw [bytesAt_eq_take bs _ _ (by omega)]

/-- The low bit of field `f`, and the end of the last one. -/
def cmdLow (f : Nat) : Nat := if f < 16 then (cmdSpan f).1 else 48

theorem cmdSpan_tiles : ∀ f < 16, (cmdSpan f).1 = cmdLow f ∧ cmdLow (f + 1) = cmdLow f + (cmdSpan f).2 := by decide

/-- The fields of a block spell the block. -/
theorem cmdBlock_cmdField {b : Nat} (hb : b < 2 ^ 48) : cmdBlock (cmdField b) = b := by
  have hfold : ∀ k ≤ 16, (List.range k).foldl (fun a f => a + cmdField b f % 2 ^ (cmdSpan f).2 * 2 ^ (cmdSpan f).1) 0 =
      b % 2 ^ cmdLow k := by
    intro k hk
    induction k with
    | zero => exact (Nat.mod_one b).symm
    | succ k ih =>
      obtain ⟨hlo, hnext⟩ := cmdSpan_tiles k (by omega)
      rw [List.range_succ, List.foldl_append, ih (by omega), List.foldl_cons, List.foldl_nil, cmdField, natBits, Nat.mod_mod,
        hlo, hnext, pow_add, Nat.mod_mul, Nat.mul_comm (2 ^ cmdLow k)]
  rw [cmdBlock, hfold 16 (Nat.le_refl 16)]
  exact Nat.mod_eq_of_lt hb

theorem cmdBlock_congr {f g : Nat → Nat} (h : ∀ i, f i = g i) : cmdBlock f = cmdBlock g := by rw [funext h]

/-! ## The blocks of a frame (R263) -/

theorem natBit_zero (i : Nat) : natBit 0 i = false := by simp [natBit]
theorem natBits_zero (lo w : Nat) : natBits 0 lo w = 0 := by simp [natBits]

section
variable {s : State} {n l : Nat} {bs : List Byte}

/-- Without an override the block of the buffer leaves as it is. -/
theorem frameBlock_of_unforced (hbuf : (s.port n).buf = some bs) (ho : ovrOf s (8 * n + l) (tickNo s) 0 = ⟨0, 0, 0, 0, false⟩) :
    (frameBlock s n l 0).1 = numAt bs (6 * l) 6 := by
  unfold frameBlock
  extract_lets q p b o t blk
  have ho' : o = ⟨0, 0, 0, 0, false⟩ := ho
  have ht : t = ⟨0, 0, 0, 0, false⟩ := by simp only [t, natBits_zero]
  have hblk : blk = numAt bs (6 * l) 6 := by simp only [blk, p, hbuf, Option.getD_some]
  have hlt : blk < 2 ^ 48 := by
    rw [hblk, numAt]
    exact (natOfBytes_lt _).trans_eq (by rw [length_bytesAt]; decide)
  rw [ho', ht, ← hblk]
  refine (cmdBlock_congr fun f => ?_).trans (cmdBlock_cmdField hlt)
  simp only [frameField, natBit_zero, Bool.or_self, Bool.false_eq_true, if_false]

/-- In the emergency every field is zero. -/
theorem frameBlock_of_emergency (he : s.flag fRK_STAT_EMERG = true) (m : Nat) : (frameBlock s n l m).1 = 0 := by
  have hem : (ovrOf s (8 * n + l) (tickNo s) 0).em = true := he
  unfold frameBlock
  extract_lets q p b o t blk
  refine (cmdBlock_congr (g := fun _ => 0) fun f => ?_).trans (by decide)
  rw [frameField, if_pos (by rw [show o.em = true from hem]; rfl), ovrField, if_pos hem]

/-- The blocks of the frame of the present tick. -/
def frameBlocks (s : State) (n : Nat) : List Nat :=
  ((List.range 8).map fun l => frameBlock s n l ((s.port n).tMask.getD l 0)).map fun b => b.1

theorem frameBlocks_of_unforced (hbuf : (s.port n).buf = some bs) (h : Unforced s n) : frameBlocks s n = blocksOf bs := by
  obtain ⟨hm, ho⟩ := h
  rw [frameBlocks, List.map_map, hm]
  refine List.map_congr_left fun l hl => ?_
  rw [Function.comp_apply, List.getD_nil]
  exact frameBlock_of_unforced hbuf (ho ⟨l, List.mem_range.1 hl⟩)

theorem frameBlocks_of_emergency (he : s.flag fRK_STAT_EMERG = true) : frameBlocks s n = List.replicate 8 0 := by
  rw [frameBlocks, List.map_map]
  exact (List.map_congr_left fun l _ => frameBlock_of_emergency he _).trans (List.map_const')

end

/-! ## What the lanes send (R237, R244) -/

/-- The frame of one lane. -/
def cmdSent (s : State) (n l : Nat) (e : Nat × Nat) (idE tk : Nat) (blocks : List Nat) : List Out :=
  if laneSt s n l = 4 then [.cmdFrame n l (tickNo s) (frameBytes s n e.1 e.2 tk blocks)]
  else if laneSt s n l = 3 then [.cmdFrame n l (tickNo s) (frameBytes s n 5 idE tk blocks)] else []

/-- The frame of one lane leaves. -/
def cmdEmit (s : State) (n l : Nat) (e : Nat × Nat) (idE tk : Nat) (blocks : List Nat) : State :=
  if laneSt s n l = 4 then s.emit (.cmdFrame n l (tickNo s) (frameBytes s n e.1 e.2 tk blocks))
  else if laneSt s n l = 3 then s.emit (.cmdFrame n l (tickNo s) (frameBytes s n 5 idE tk blocks))
  else s

theorem cmdEmit_eq (s : State) (n l : Nat) (e : Nat × Nat) (idE tk : Nat) (blocks : List Nat) :
    cmdEmit s n l e idE tk blocks = { s with out := cmdSent s n l e idE tk blocks ++ s.out } := by
  rw [cmdEmit, cmdSent]
  split
  · rfl
  · split <;> rfl

section
variable {s : State} {n : Nat} {bs : List Byte}

theorem frameDue_of_sendDue (h : SendDue s n bs) : frameDue s n = true := by
  obtain ⟨-, hen, hst, hlat, hsent, hhold, hlogic, hup, -, -, -, hstop⟩ := h
  have hlanes : (laneUp s n 0 || laneUp s n 1) = true := Bool.or_eq_true_iff.2 hup
  rw [frameDue, hen, hst, hlat, hstop, hlogic, hlanes, frameHold, hhold]
  simp only [beq_self_eq_true, bne_iff_ne.2 hsent, Bool.not_false, Bool.true_or, Bool.and_self]

theorem frameBytes_of_buf (hbuf : (s.port n).buf = some bs) (lop epoch : Nat) (blocks : List Nat) :
    frameBytes s n lop epoch (tkLen s) blocks =
      cmdBytes s bs lop epoch (blocks.map fun b => bytesOfNat 6 b).flatten := by
  unfold frameBytes cmdBytes
  rw [modeCmd, hbuf]

/-- The epoch of a frame with LOP 5 (R237). -/
def identEpoch (s : State) (n : Nat) : Nat := if (s.port n).latArmed then (s.port n).latEpoch else 0

theorem sends_eq (hbuf : (s.port n).buf = some bs) (e : Nat × Nat) (blocks : List Nat) :
    sends s n e.1 e.2 bs (blocks.map fun b => bytesOfNat 6 b).flatten =
      cmdSent s n 1 e (identEpoch s n) (tkLen s) blocks ++ cmdSent s n 0 e (identEpoch s n) (tkLen s) blocks := by
  simp only [sends, cmdSent, identEpoch, frameBytes_of_buf hbuf]

theorem cmdEmit_lanes (s : State) (n : Nat) (e : Nat × Nat) (idE tk : Nat) (blocks : List Nat) :
    cmdEmit (cmdEmit s n 0 e idE tk blocks) n 1 e idE tk blocks =
      { s with out := cmdSent s n 1 e idE tk blocks ++ cmdSent s n 0 e idE tk blocks ++ s.out } := by
  rw [cmdEmit_eq s, List.append_assoc]
  exact cmdEmit_eq _ n 1 e idE tk blocks

/-- The port's record once the frames have left. -/
def frameNoted (n : Nat) (blocks tUsed : List Nat) (povr : List (Nat × Nat)) (t : State) : State :=
  t.setPort n { t.port n with sent := tickNo t + 1, blocks := blocks, tMask := [], tUsed := tUsed, povr := povr }

theorem frameSend_eq (h : frameDue s n = true) : ∃ povr, frameSend n s =
    let u := cmdEmit (cmdEmit s n 0 (leaseOp s n) (identEpoch s n) (tkLen s) (frameBlocks s n)) n 1 (leaseOp s n)
      (identEpoch s n) (tkLen s) (frameBlocks s n)
    frameNoted n (frameBlocks s n) (s.port n).tMask povr (leaseSent n (if (u.port n).buf.isNone then u.stepFree else u)) := by
  rw [frameSend, if_neg (by rw [h]; decide)]
  exact ⟨_, rfl⟩

theorem frameSend_of_due (h : SendDue s n bs) : ∃ povr, frameSend n s =
    frameNoted n (frameBlocks s n) (s.port n).tMask povr (leaseSent n
      { s with out := sends s n (leaseOp s n).1 (leaseOp s n).2 bs ((frameBlocks s n).map fun b => bytesOfNat 6 b).flatten ++
        s.out }) := by
  obtain ⟨povr, hs⟩ := frameSend_eq (frameDue_of_sendDue h)
  obtain ⟨-, -, -, -, -, -, -, -, hbuf, -⟩ := h
  have hsome : ∀ o, ({ s with out := o } : State).port n = s.port n := fun _ => rfl
  refine ⟨povr, hs.trans ?_⟩
  rw [cmdEmit_lanes, ← sends_eq hbuf]
  simp only [hsome, hbuf, Option.isNone_some, Bool.false_eq_true, if_false]

/-- A port whose latched operation is none keeps its lease (R244). -/
theorem leaseSent_of_none (h : (s.port n).latLop = 0) : leaseSent n s = s := by
  rw [leaseSent, if_neg]
  simp [h]

/-- A GRANT that has left on an ACTIVE lane arms RENEW, and waits no longer unless it was written anew. -/
theorem leaseSent_of_grant (h : (s.port n).latLop = 1) (ha : lanesActive s n = true) (hr : relaying s n = false) :
    leaseSent n s = (s.setFlag (fBLn_LEASE_ARMED n) true).setPort n
      { s.port n with lop := if (s.port n).lopNew then (s.port n).lop else 0 } := by
  have hsent : (lanesActive s n && !relaying s n && (s.port n).latLop != 0) = true := by rw [ha, hr, h]; rfl
  have hgrant : ((s.port n).latLop == 1) = true := by rw [h]; rfl
  rw [leaseSent, if_pos hsent, hgrant]

theorem leaseOp_of_none (h : (s.port n).latLop = 0) (hr : relaying s n = false) :
    leaseOp s n = if (s.port n).latArmed then (0, (s.port n).latEpoch) else (3, 0) := by
  rw [leaseOp, hr, h]
  rfl
theorem leaseOp_of_grant (h : (s.port n).latLop = 1) (hr : relaying s n = false) : leaseOp s n = (1, (s.port n).latEpoch) := by
  rw [leaseOp, hr, h]
  rfl

theorem blocks_bytes (h : SendDue s n bs) : ((blocksOf bs).map fun b => bytesOfNat 6 b).flatten = bs.take 48 := by
  obtain ⟨-, -, -, -, -, -, -, -, -, hlen, -⟩ := h
  exact flatten_blocksOf bs (k := 8) (by omega)

/-- A frame without a lease operation. -/
theorem frameSend_plain {lop epoch : Nat} {blocks : List Nat} {bytes : List Byte} (h : SendDue s n bs)
    (hlop : (s.port n).latLop = 0) (he : leaseOp s n = (lop, epoch)) (hb : frameBlocks s n = blocks)
    (hbytes : (blocks.map fun b => bytesOfNat 6 b).flatten = bytes) :
    let t := frameSend n s
    t.out = sends s n lop epoch bs bytes ++ s.out ∧
    t.port n = sentPort (tickNo s) false blocks (t.port n).povr (s.port n) ∧ OtherPort s t n ∧ t.bl.lanes = s.bl.lanes ∧
    t.bl.closed = s.bl.closed ∧ Claims.Regs s t [] ∧ NoEvents s t ∧ Kept s { t with bl := s.bl, out := s.out } := by
  intro t
  obtain ⟨povr, hs⟩ := frameSend_of_due h
  rw [hb, hbytes, he, leaseSent_of_none (by exact hlop)] at hs
  have hport : t.port n = sentPort (tickNo s) false blocks povr (s.port n) :=
    (congrArg (State.port · n) hs).trans (port_setPort_self _ n _)
  rw [hport]
  refine ⟨congrArg State.out hs, rfl, fun m hm => ?_, ?_⟩
  · exact (congrArg (State.port · m) hs).trans (otherPort_setPort _ n _ m hm)
  · rw [show t = _ from hs]
    exact ⟨rfl, rfl, fun _ _ => rfl, ⟨rfl, rfl, rfl, rfl, rfl⟩, kept_refl s⟩

/-- A frame with a GRANT on an ACTIVE lane. -/
theorem frameSend_grant {blocks : List Nat} {bytes : List Byte} (h : SendDue s n bs)
    (hlop : (s.port n).latLop = 1) (ha : lanesActive s n = true) (hb : frameBlocks s n = blocks)
    (hbytes : (blocks.map fun b => bytesOfNat 6 b).flatten = bytes) :
    let t := frameSend n s
    t.out = sends s n 1 (s.port n).latEpoch bs bytes ++ s.out ∧ t.flag (fBLn_LEASE_ARMED n) = true ∧
    t.port n = sentPort (tickNo s) true blocks (t.port n).povr (s.port n) ∧ OtherPort s t n ∧ t.bl.lanes = s.bl.lanes ∧
    t.bl.closed = s.bl.closed ∧ Claims.Regs s t [rBLn_LEASE n] ∧ NoEvents s t ∧ Kept s { t with bl := s.bl, out := s.out } := by
  intro t
  obtain ⟨povr, hs⟩ := frameSend_of_due h
  obtain ⟨-, -, -, -, -, -, -, -, -, -, hr, -⟩ := h
  obtain ⟨u, hu⟩ : ∃ u, u = { s with out := sends s n 1 (s.port n).latEpoch bs bytes ++ s.out } := ⟨_, rfl⟩
  rw [hb, hbytes, leaseOp_of_grant hlop hr, ← hu, leaseSent_of_grant (by rw [hu]; exact hlop) (by rw [hu]; exact ha)
    (by rw [hu]; exact hr)] at hs
  obtain ⟨v, hv⟩ : ∃ v, v = u.setFlag (fBLn_LEASE_ARMED n) true := ⟨_, rfl⟩
  have hq : Quiet [rBLn_LEASE n] u v := hv ▸ quiet_setFlag _ _ _ (List.mem_singleton_self _)
  have hbl : v.bl = s.bl := by rw [hv, State.setFlag_bl, hu]
  have htick : tickNo v = tickNo s := by
    have hne : rTICKNO ∉ [rBLn_LEASE n] ∧ rTICKNO + 1 ∉ [rBLn_LEASE n] := by
      simp only [List.mem_singleton, rTICKNO, rBLn_LEASE]
      omega
    have hvu : tickNo v = tickNo u := rd64_of_rd rTICKNO (hq.regs _ hne.1) (hq.regs _ hne.2)
    rw [hvu, hu]
    rfl
  rw [← hv] at hs
  obtain ⟨w, hw⟩ : ∃ w, w = v.setPort n { u.port n with lop := if (u.port n).lopNew then (u.port n).lop else 0 } := ⟨_, rfl⟩
  rw [← hw, frameNoted] at hs
  have hwport : w.port n = { s.port n with lop := if (s.port n).lopNew then (s.port n).lop else 0 } := by
    rw [hw, port_setPort_self, hu]
    rfl
  have hwtick : tickNo w = tickNo s := by rw [hw, tickNo, rd64_setPort, ← tickNo, htick]
  rw [hwport, hwtick] at hs
  have hall : Quiet [rBLn_LEASE n] u t := by
    rw [show t = _ from hs, hw]
    exact (hq.trans (quiet_setPort _ _ _)).trans (quiet_setPort _ _ _)
  have hport : t.port n = sentPort (tickNo s) true blocks povr (s.port n) := by
    have hlop' : (if (s.port n).lopNew = true then (s.port n).lop else 0) =
        if true = true ∧ (s.port n).lopNew = false then 0 else (s.port n).lop := by cases (s.port n).lopNew <;> simp
    rw [show t = _ from hs, port_setPort_self, sentPort, ← hlop']
  have hothers : OtherPort s t n := fun m hm => by
    rw [show t = _ from hs, otherPort_setPort _ n _ m hm, hw, otherPort_setPort _ n _ m hm, port_of_bl m hbl]
  have harmed : t.flag (fBLn_LEASE_ARMED n) = true := by
    rw [show t = _ from hs, flag_setPort, hw, flag_setPort, hv, flag_setFlag_self _ _ _ (by decide : 28 + 1 ≤ 32) rfl]
  have hlanes : t.bl.lanes = v.bl.lanes ∧ t.bl.closed = v.bl.closed := by
    rw [show t = _ from hs, hw]
    exact ⟨rfl, rfl⟩
  have hout : t.out = sends s n 1 (s.port n).latEpoch bs bytes ++ s.out := by
    obtain ⟨r, b, hu'⟩ := hall.only
    rw [hu', hu]
  rw [hbl] at hlanes
  obtain ⟨hregs, r, b, ht⟩ := hall
  rw [hport]
  refine ⟨hout, harmed, rfl, hothers, hlanes.1, hlanes.2, fun k hk => (hregs k hk).trans (by rw [hu]; rfl), ?_⟩
  rw [ht, hu]
  exact ⟨⟨rfl, rfl, rfl, rfl, rfl⟩, kept_refl s⟩

/-- A port that is held, off, stopped, or that has sent its frame, sends nothing. -/
theorem frameSend_idle (h : linkEn s n = false ∨ s.tb.started = false ∨ (s.port n).sent = tickNo s + 1 ∨
    (s.port n).latched ≠ tickNo s + 1 ∨ s.flag fRST_STAT_FRAMEHOLD = true ∨ (laneUp s n 0 = false ∧ laneUp s n 1 = false) ∨
    ((s.port n).latStop = true ∧ relaying s n = false)) : frameSend n s = s := by
  refine if_pos ?_
  rw [frameDue, frameHold]
  rcases h with h | h | h | h | h | ⟨h0, h1⟩ | ⟨h0, h1⟩
  · rw [h]; rfl
  · simp [h]
  · simp [h]
  · simp [h]
  · simp [h]
  · simp [h0, h1]
  · simp [h0, h1]

end

/-- The pair link's part is written after registers. -/
theorem Quiet.dupSet {own : List Nat} {s u : State} (h : Quiet own s u) (hb : u.bl = s.bl) (f : DupState → DupState) :
    Claims.Regs s (u.dupSet f) own ∧ NoEvents s (u.dupSet f) ∧ Kept s { u.dupSet f with dup := s.dup } := by
  obtain ⟨hr, r, b, rfl⟩ := h
  obtain rfl : b = s.bl := hb
  exact ⟨hr, ⟨rfl, rfl, rfl, rfl, rfl⟩, kept_refl s⟩

end Sys2Proof.Machine

open Sys2Proof Sys2Proof.Machine Sys2Proof.Claims

/-- Settles O42: what the close latches, port by port, and what the frame of each lane carries. -/
theorem commandFrames : Obligations.CommandFrames := by
  intro s
  refine ⟨fun hc hp => ⟨_, rfl, ?closed⟩, fun hc hp hchk hgot => ⟨_, rfl, ?missed⟩,
    fun h hp hm hc hf => ⟨_, rfl, commandClose_clean hp h hm hc hf⟩,
    fun n h hp hm hf hl hothers hbad => ⟨_, rfl, commandClose_bad hp h hm hf hl hothers hbad⟩,
    fun h hp hm hl hothers => ⟨_, rfl, commandClose_marks hp h hm hl hothers⟩,
    fun n h => ends_idle rfl h frameSend_idle, fun n bs h hun hlop ha => ends_unfrozen rfl h.1 ?renew,
    fun n bs h hun hlop ha => ends_unfrozen rfl h.1 ?unarmed, fun n bs h hun hlop hact => ends_unfrozen rfl h.1 ?grant,
    fun n bs h he hlop ha => ends_unfrozen rfl h.1 ?emergency⟩
  case closed => rw [commandClose, pairMiss_of_notUp hp, areaClose_of_closed hc]
  case missed =>
    obtain ⟨u, hu⟩ : ∃ u, u = s.incFld fPL_MISS := ⟨_, rfl⟩
    have hq : Quiet [fPL_MISS.key] s u := hu ▸ quiet_setFld s _ _ (List.mem_singleton_self _)
    have hcount : u.fld fPL_MISS = satInc fPL_MISS.width (s.fld fPL_MISS) := by rw [hu, fld_incFld _ _ (by decide)]
    have hdup : u.dup = s.dup := by rw [hu, State.incFld_dup]
    have hbl : u.bl = s.bl := by rw [hu, State.incFld_bl]
    obtain ⟨hregs, hev, hkept⟩ := hq.dupSet hbl (checked (tickNo s))
    rw [commandClose_missed hc hp hchk hgot, ← hu]
    exact ⟨(fld_dupSet _ _ _).trans hcount, (State.dupSet_dup _ _).trans (congrArg (checked (tickNo s)) hdup), hregs, hev, hkept⟩
  case renew =>
    obtain ⟨-, -, -, -, -, -, -, -, hbuf, -, hr, -⟩ := id h
    exact frameSend_plain h hlop ((leaseOp_of_none hlop hr).trans (if_pos ha)) (frameBlocks_of_unforced hbuf hun)
      (blocks_bytes h)
  case unarmed =>
    obtain ⟨-, -, -, -, -, -, -, -, hbuf, -, hr, -⟩ := id h
    exact frameSend_plain h hlop ((leaseOp_of_none hlop hr).trans (if_neg (by rw [ha]; decide)))
      (frameBlocks_of_unforced hbuf hun) (blocks_bytes h)
  case grant =>
    obtain ⟨-, -, -, -, -, -, -, -, hbuf, -⟩ := id h
    exact frameSend_grant h hlop hact (frameBlocks_of_unforced hbuf hun) (blocks_bytes h)
  case emergency =>
    obtain ⟨-, -, -, -, -, -, -, -, -, -, hr, -⟩ := id h
    exact frameSend_plain h hlop ((leaseOp_of_none hlop hr).trans (if_pos ha)) (frameBlocks_of_emergency he) (by decide)
end

section
/-!
PROOFS. A sample frame at its port (R230 to R236, R245, R254, R268, R520): what lands in the Saltern, the port's registers, the
module's status and the judgement of a Rake that is off.
-/

namespace Sys2Proof.Machine
open Sys2Proof Sys2Proof.Claims

/-! ## What lands (R234, R520) -/

theorem salWrite_eq (a : Nat) (bs : List Byte) (s : State) : salWrite a bs s = salWriteEn a (bs.map some) s := by
  induction bs generalizing a s with
  | nil => rfl
  | cons b r ih => rw [salWrite, ih, List.map_cons, salWriteEn]

/-- The Saltern alone has changed. -/
def SalOnly (s t : State) : Prop := ∃ m, t = { s with sal := m }

section
variable {s u : State} {n : Nat} {bs : List Byte}

theorem salOnly_land (n : Nat) (bs : List Byte) (s : State) : SalOnly s (land n bs s) := by
  rw [land]
  split
  · exact ⟨s.sal, rfl⟩
  · rw [salWrite_eq]
    obtain ⟨_, _, _, _, h⟩ := storedOnly_salWriteEn (blBase s n + 0x80 * (tickNo s % 2)) (bs.map some) (portTouch n s)
    exact ⟨_, h⟩

/-- The frame hold keeps the Saltern as it is. -/
theorem land_of_hold (h : s.flag fRST_STAT_FRAMEHOLD = true) : land n bs s = s := if_pos h

theorem land_of_free (h : s.flag fRST_STAT_FRAMEHOLD = false) :
    land n bs s = salWriteEn (landAt s n) (bs.map some) (portTouch n s) := by
  rw [land, frameHold, h, if_neg Bool.false_ne_true, salWrite_eq, landAt]

/-- The bytes land, and no other byte changes. -/
theorem land_bytes (hf : s.flag fRST_STAT_FRAMEHOLD = false) (hle : landAt s n + bs.length ≤ salSize) :
    salBytes (land n bs s) (landAt s n) bs.length = bs ∧ SameBut s (land n bs s) (landAt s n) bs.length := by
  have hlen : (bs.map some).length = bs.length := List.length_map some
  rw [land_of_free hf]
  constructor
  · rw [← hlen, salBytes_salWriteEn (by rwa [hlen]), merged_some]
  · intro k hk hout
    rw [salByte_salWriteEn_ne (by rwa [hlen]) hk (by rwa [hlen])]
    rfl

/-- Bytes read alike where the Saltern and its remaps are alike. -/
theorem salByte_of_rd (hs : u.sal.mem = s.sal.mem) (h : ∀ i < 16, u.rd (rSAL_RMAPi i) = s.rd (rSAL_RMAPi i)) :
    salByte u = salByte s := by
  funext k
  rw [salByte, hs, salKey_of_rd h, salByte]

end

/-! ## The Rake and the grid (R53, R259, R264, R268) -/

section
variable {s : State} {n lat : Nat} {v : Judged} {fr : List Byte}

theorem judgeRule_of_off (h : s.rk.enEff = false) (i : Nat) (v : Judged) : judgeRule i v s = s := by
  refine if_pos ?_
  rw [ruleRuns, h]
  rfl

/-- A Rake that is off records the decision's latency at most. -/
theorem judgePort_of_off (h : s.rk.enEff = false) (hlat : lat ≤ 96) : judgePort n v lat s =
    if frozen s rkPg then s else s.setFld fRK_MAXLAT (max (s.fld fRK_MAXLAT) (min 255 lat)) := by
  have hfold : (List.range 64).foldl (fun t k => judgeRule (64 * n + k) v t) s = s :=
    List.foldl_fixed' (fun k => judgeRule_of_off h _ _) _
  rw [judgePort, hfold, ite_self]
  simp only [if_pos hlat]

theorem quiet_judgePort (h : s.rk.enEff = false) (hlat : lat ≤ 96) : Quiet [fRK_MAXLAT.key] s (judgePort n v lat s) := by
  rw [judgePort_of_off h hlat]
  split
  · exact Quiet.refl _ s
  · exact quiet_setFld s _ _ (List.mem_singleton_self _)
theorem bl_judgePort (h : s.rk.enEff = false) (hlat : lat ≤ 96) : (judgePort n v lat s).bl = s.bl := by
  rw [judgePort_of_off h hlat]
  split
  · rfl
  · exact State.setFld_bl _ _ _

theorem gridFeed_of_other (h : s.fld fTB_GRID_SRC_PORT ≠ n) : gridFeed n fr s = s := if_neg h

end

/-! ## The module's status (R245, R254, R255) -/

section
variable (s : State) (n : Nat) (fr : List Byte) (old : Nat)

/-- The events of MSTAT's bits, one after the other. -/
def risePosted2 : State := if natBit (numAt fr 4 1) 2 && !natBit old 2 then post (blTrans n) 2 1 n 0 (numAt fr 4 1) s else s
def fallPosted2 : State :=
  if natBit old 2 && !natBit (numAt fr 4 1) 2 then post (blTrans n) 3 1 n 0 (numAt fr 4 1) (risePosted2 s n fr old)
  else risePosted2 s n fr old
def risePosted3 : State :=
  if natBit (numAt fr 4 1) 3 && !natBit old 3 then post (blTrans n) 7 3 n 0 (numAt fr 4 1) (fallPosted2 s n fr old)
  else fallPosted2 s n fr old
/-- FOREIGN is written once HELD is. -/
def foreignSet : State := (heldUpdate n (risePosted3 s n fr old)).setFlag (fBLn_LEASE_FOREIGN n) (natBit (numAt fr 4 1) 5)

theorem sampleStatus_eq : sampleStatus n fr old s =
    if natBit (numAt fr 4 1) 5 && !s.flag (fBLn_LEASE_FOREIGN n) then
      post (blTrans n) 6 2 n 0 (numAt fr 4 1) (foreignSet s n fr old)
    else foreignSet s n fr old := rfl

theorem blStep_risePosted3 : BlStep [] [blTrans n] s (risePosted3 s n fr old) :=
  have hp := List.mem_singleton_self (blTrans n)
  ((blStep_postIf s _ 2 1 n 0 (numAt fr 4 1) hp).trans (blStep_postIf (risePosted2 s n fr old) _ 3 1 n 0 (numAt fr 4 1) hp)).trans
    (blStep_postIf (fallPosted2 s n fr old) _ 7 3 n 0 (numAt fr 4 1) hp)
theorem bl_risePosted3 : (risePosted3 s n fr old).bl = s.bl := by
  rw [risePosted3, bl_postIf, fallPosted2, bl_postIf, risePosted2, bl_postIf]
theorem bl_sampleStatus : (sampleStatus n fr old s).bl = s.bl := by
  rw [sampleStatus_eq, bl_postIf, foreignSet, State.setFlag_bl, bl_heldUpdate, bl_risePosted3]

/-- The last event of the status. -/
theorem blStep_sampleStatus_posted : BlStep [] [blTrans n] (foreignSet s n fr old) (sampleStatus n fr old s) := by
  rw [sampleStatus_eq]
  exact blStep_postIf _ _ _ _ _ _ _ (List.mem_singleton_self _)

variable {n} (hn : n < 64)
include hn

theorem blStep_sampleStatus : BlStep [rBLn_LEASE n] [blTrans n] s (sampleStatus n fr old s) :=
  (((blStep_risePosted3 s n fr old).mono (List.nil_subset _) (List.Subset.refl _)).trans (blStep_heldUpdate _ hn)).trans
    ((blStep_setFlag _ _ _ (List.mem_singleton_self _) (spared_LEASE hn).2.2).trans
      ((blStep_sampleStatus_posted s n fr old).mono (List.nil_subset _) (List.Subset.refl _)))

/-- HELD and FOREIGN follow the module (R245). -/
theorem flags_sampleStatus : (sampleStatus n fr old s).flag (fBLn_LEASE_HELD n) = leaseHeld s n ∧
    (sampleStatus n fr old s).flag (fBLn_LEASE_FOREIGN n) = natBit (numAt fr 4 1) 5 := by
  have hposted := blStep_sampleStatus_posted s n fr old
  have hrise := blStep_risePosted3 s n fr old
  have hport : (risePosted3 s n fr old).port n = s.port n := port_of_bl n (bl_risePosted3 s n fr old)
  constructor
  · rw [hposted.flag _ List.not_mem_nil (spared_LEASE hn), foreignSet,
      flag_setFlag_ne _ _ _ _ (by decide : 30 + 1 ≤ 32) (.inr (.inr (by decide : 30 + 1 ≤ 31))), flag_HELD_heldUpdate _ hn,
      leaseHeld, modLeased_of_port hport, modEpoch_of_port hport, hrise.fld _ List.not_mem_nil (spared_LEASE hn), leaseHeld]
  · rw [hposted.flag _ List.not_mem_nil (spared_LEASE hn), foreignSet, flag_setFlag_self _ _ _ (by decide : 30 + 1 ≤ 32) rfl]

end

end Sys2Proof.Machine
end

section
/-!
PROOFS. A tick's frame at its port (R230 to R236, R245, R255): the registers of a valid frame and of a tick without one, and the
statement SampleFrames.
-/

namespace Sys2Proof.Machine
open Sys2Proof Sys2Proof.Claims

/-! ## The registers of a port (R255) -/

/-- Where the registers of a port's transfer page stand in it. -/
theorem rBLn_trans_mod (n : Nat) : rBLn_LEASE n % 1024 = 17 ∧ rBLn_TSTAT n % 1024 = 18 ∧ rBLn_SMISS n % 1024 = 19 ∧
    rBLn_SMISSTOT n % 1024 = 20 ∧ rBLn_LASTOK n % 1024 = 22 ∧ rBLn_ARRIVE n % 1024 = 24 := by
  simp only [rBLn_LEASE, rBLn_TSTAT, rBLn_SMISS, rBLn_SMISSTOT, rBLn_LASTOK, rBLn_ARRIVE]
  omega

section
variable {own : List Nat} (s : State)

theorem quiet_wr64 {k : Nat} (v : Nat) (hk : k ∈ own) (hk' : k + 1 ∈ own) : Quiet own s (s.wr64 k v) :=
  (quiet_wr s _ hk).trans (quiet_wr _ _ hk')

end

/-- What BLn_TSTAT shows of a frame. -/
def frameWord (f : RxFrame) (ls : Nat) : Word :=
  BitVec.ofNat 32 (numAt f.bytes 4 1 * 2 ^ 24 + numAt f.bytes 5 1 * 2 ^ 16 + numAt f.bytes 6 1 * 2 ^ 8 + ls % 256)

theorem numAt_one_lt (bs : List Byte) (i : Nat) : numAt bs i 1 < 256 := by
  have h := natOfBytes_lt (bytesAt bs i 1)
  rwa [length_bytesAt] at h

theorem bitsGet_frameWord (f : RxFrame) (ls : Nat) : bitsGet (frameWord f ls) 24 8 = numAt f.bytes 4 1 ∧
    bitsGet (frameWord f ls) 16 8 = numAt f.bytes 5 1 ∧ bitsGet (frameWord f ls) 8 8 = numAt f.bytes 6 1 := by
  have h4 := numAt_one_lt f.bytes 4
  have h5 := numAt_one_lt f.bytes 5
  have h6 := numAt_one_lt f.bytes 6
  simp only [frameWord, bitsGet, BitVec.toNat_ofNat]
  omega

/-- The registers of a valid frame. -/
def frameWritten (n : Nat) (f : RxFrame) (ls : Nat) (v : State) : State :=
  let u := v.wr (rBLn_TSTAT n) (frameWord f ls)
  (((u.setFld (fBLn_SMISS n) 0).wr64 (rBLn_LASTOK n) (tickNo u)).setFld (fBLn_ARRIVE_EOFT n) f.eoft.toNat).setFld
    (fBLn_ARRIVE_SOFT n) f.soft.toNat

/-- They are TSTAT, SMISS, LASTOK and ARRIVE. -/
def frameWrittenRegs (n : Nat) : List Nat := [rBLn_TSTAT n, rBLn_SMISS n, rBLn_LASTOK n, rBLn_LASTOK n + 1, rBLn_ARRIVE n]

section
variable (v : State) (n : Nat) (f : RxFrame) (ls : Nat)

theorem quiet_frameWritten : Quiet (frameWrittenRegs n) v (frameWritten n f ls v) :=
  (((quiet_wr v _ (by simp [frameWrittenRegs])).trans (quiet_setFld _ _ _ (by simp [frameWrittenRegs, fBLn_SMISS]))).trans
    (quiet_wr64 _ _ (by simp [frameWrittenRegs]) (by simp [frameWrittenRegs]))).trans
    ((quiet_setFld _ _ _ (by simp [frameWrittenRegs, fBLn_ARRIVE_EOFT])).trans
      (quiet_setFld _ _ _ (by simp [frameWrittenRegs, fBLn_ARRIVE_SOFT])))
theorem bl_frameWritten : (frameWritten n f ls v).bl = v.bl := by
  rw [frameWritten, State.setFld_bl, State.setFld_bl, State.wr64_bl, State.setFld_bl, State.wr_bl]

theorem tickNo_wr_trans (k : Nat) (w : Word) (h : 0x81 * 1024 ≤ k) : tickNo (v.wr k w) = tickNo v :=
  rd64_of_rd rTICKNO (rd_wr_ne v w (by rw [rTICKNO]; omega)) (rd_wr_ne v w (by rw [rTICKNO]; omega))

/-- What each of them holds (R231, R233, R255). -/
theorem fields_frameWritten : (frameWritten n f ls v).rd (rBLn_TSTAT n) = frameWord f ls ∧
    (frameWritten n f ls v).fld (fBLn_SMISS n) = 0 ∧ (frameWritten n f ls v).rd64 (rBLn_LASTOK n) = tickNo v ∧
    (frameWritten n f ls v).fld (fBLn_ARRIVE_EOFT n) = f.eoft.toNat % 512 ∧
    (frameWritten n f ls v).fld (fBLn_ARRIVE_SOFT n) = f.soft.toNat % 256 := by
  obtain ⟨-, hT, hS, -, hL, hA⟩ := rBLn_trans_mod n
  have hTL : rBLn_TSTAT n ≠ rBLn_LASTOK n ∧ rBLn_TSTAT n ≠ rBLn_LASTOK n + 1 := by omega
  have hSL : rBLn_SMISS n ≠ rBLn_LASTOK n ∧ rBLn_SMISS n ≠ rBLn_LASTOK n + 1 := by omega
  have hTA : rBLn_TSTAT n ≠ rBLn_ARRIVE n := by omega
  have hTS : rBLn_TSTAT n ≠ rBLn_SMISS n := by omega
  have hSA : rBLn_SMISS n ≠ rBLn_ARRIVE n := by omega
  have hLA : rBLn_LASTOK n ≠ rBLn_ARRIVE n ∧ rBLn_LASTOK n + 1 ≠ rBLn_ARRIVE n := by omega
  have htick : tickNo (v.wr (rBLn_TSTAT n) (frameWord f ls)) = tickNo v :=
    tickNo_wr_trans v _ _ (by rw [rBLn_TSTAT]; omega)
  have harrive : ∀ (u : State) (k : Nat), k ≠ rBLn_ARRIVE n → ((u.setFld (fBLn_ARRIVE_EOFT n) f.eoft.toNat).setFld
      (fBLn_ARRIVE_SOFT n) f.soft.toNat).rd k = u.rd k := fun u k hk =>
    (rd_setFld_ne _ (fBLn_ARRIVE_SOFT n) _ hk).trans (rd_setFld_ne u (fBLn_ARRIVE_EOFT n) _ hk)
  refine ⟨?_, ?_, ?_, ?_, ?_⟩
  · rw [frameWritten, harrive _ _ hTA, rd_wr64_ne _ _ _ hTL.1 hTL.2, rd_setFld_ne _ (fBLn_SMISS n) _ hTS, rd_wr_self]
  · rw [frameWritten, fld_of_rd (fBLn_SMISS n) (harrive _ _ hSA), fld_of_rd (fBLn_SMISS n) (rd_wr64_ne _ _ _ hSL.1 hSL.2),
      fld_setFld_self _ _ _ (by decide : 0 + 16 ≤ 32), Nat.zero_mod]
  · rw [frameWritten, rd64_of_rd _ (harrive _ _ hLA.1) (harrive _ _ hLA.2), rd64_wr64_self, htick]
    exact Nat.mod_eq_of_lt (rd64_lt v rTICKNO)
  · rw [frameWritten, fld_setFld_ne _ _ _ _ (by decide : 0 + 8 ≤ 32) (.inr (.inr (by decide : 0 + 8 ≤ 16))),
      fld_setFld_self _ _ _ (by decide : 16 + 9 ≤ 32)]
    rfl
  · rw [frameWritten, fld_setFld_self _ _ _ (by decide : 0 + 8 ≤ 32)]
    rfl

end

/-! ## A valid frame (R230 to R236, R245) -/

theorem BlStep.kept_parts {own pgs : List Nat} {s t : State} (h : BlStep own pgs s t) :
    t.sal = s.sal ∧ t.rk = s.rk ∧ t.tb = s.tb ∧ t.cores = s.cores := by
  obtain ⟨_, _, _, _, _, _, _, rfl⟩ := h.only
  exact ⟨rfl, rfl, rfl, rfl⟩

/-- HELD as a port's last frame gives it. -/
theorem leaseHeld_of_last {s : State} {n : Nat} {bs : List Byte} (h : (s.port n).last = some bs) :
    leaseHeld s n = (natBit (numAt bs 4 1) 0 && decide (numAt bs 2 2 = s.fld (fBLn_LEASE_EPOCH n))) := by
  rw [leaseHeld, modLeased, modEpoch, h, beq_eq_decide]

/-- The port's registers and record, and SMISS's event. -/
def framePosted (n : Nat) (f : RxFrame) (ls : Nat) (p : BPort) (missed : Bool) (v : State) : State :=
  let w := frameWritten n f ls v
  let x := w.setPort n (framed (tickNo w) f.bytes p)
  if missed then post (blTrans n) 1 1 n 0 0 x else x

/-- What follows the landing of a valid frame. -/
def frameTaken (n : Nat) (f : RxFrame) (ls : Nat) (p : BPort) (missed : Bool) (old lat : Nat) (j : Judged) (v : State) : State :=
  gridFeed n f.bytes (judgePort n j lat (sampleStatus n f.bytes old (framePosted n f ls p missed v)))

/-- The registers of `frameRegs` that follow the landing. -/
def takenRegs (n : Nat) : List Nat :=
  [rBLn_TSTAT n, rBLn_SMISS n, rBLn_LASTOK n, rBLn_LASTOK n + 1, rBLn_ARRIVE n, rBLn_LEASE n, fRK_MAXLAT.key]

/-- From the state `v` of the landing to the state `t` after it. -/
structure FrameTaken (v t : State) (n : Nat) (f : RxFrame) (p : BPort) (missed : Bool) : Prop where
  port : t.port n = framed (tickNo v) f.bytes p
  others : OtherPort v t n
  smiss : t.fld (fBLn_SMISS n) = 0
  recovered : missed = true → pendBit t (blTrans n) 1 = true
  lastok : t.rd64 (rBLn_LASTOK n) = tickNo v
  eoft : t.fld (fBLn_ARRIVE_EOFT n) = f.eoft.toNat % 512
  soft : t.fld (fBLn_ARRIVE_SOFT n) = f.soft.toNat % 256
  mstat : t.fld (fBLn_TSTAT_MSTAT n) = numAt f.bytes 4 1
  phflt : t.fld (fBLn_TSTAT_PHFLT n) = numAt f.bytes 5 1
  phon : t.fld (fBLn_TSTAT_PHON n) = numAt f.bytes 6 1
  held : t.flag (fBLn_LEASE_HELD n) =
    (natBit (numAt f.bytes 4 1) 0 && decide (numAt f.bytes 2 2 = v.fld (fBLn_LEASE_EPOCH n)))
  foreign : t.flag (fBLn_LEASE_FOREIGN n) = natBit (numAt f.bytes 4 1) 5
  step : BlStep (takenRegs n) [blTrans n] v t

section
variable (v : State) {n : Nat} (f : RxFrame) (ls : Nat) (p : BPort) (missed : Bool) (old : Nat)

theorem port_framePosted : (framePosted n f ls p missed v).port n = framed (tickNo v) f.bytes p ∧
    OtherPort v (framePosted n f ls p missed v) n := by
  have hbl : (framePosted n f ls p missed v).bl =
      ((frameWritten n f ls v).setPort n (framed (tickNo (frameWritten n f ls v)) f.bytes p)).bl := bl_postIf _ _ _ _ _ _ _ _
  have htick : tickNo (frameWritten n f ls v) = tickNo v := by
    have hne : rTICKNO ∉ frameWrittenRegs n ∧ rTICKNO + 1 ∉ frameWrittenRegs n := by
      simp only [frameWrittenRegs, List.mem_cons, List.not_mem_nil, or_false, rTICKNO, rBLn_TSTAT, rBLn_SMISS, rBLn_LASTOK,
        rBLn_ARRIVE]
      omega
    have hq := quiet_frameWritten v n f ls
    exact rd64_of_rd rTICKNO (hq.regs _ hne.1) (hq.regs _ hne.2)
  constructor
  · rw [port_of_bl n hbl, port_setPort_self, htick]
  · intro m hm
    rw [port_of_bl m hbl, otherPort_setPort _ n _ m hm, port_of_bl m (bl_frameWritten v n f ls)]

theorem blStep_framePosted : BlStep [] [blTrans n] (frameWritten n f ls v) (framePosted n f ls p missed v) :=
  (blStep_setPort _ n _).trans (blStep_postIf _ _ _ _ _ _ _ (List.mem_singleton_self _))

variable (hn : n < 64)
include hn

/-- The registers of the frame are spared, and the status writes none of them but LEASE. -/
theorem spared_frame : (∀ k ∈ frameWrittenRegs n, Spared k ∧ k ≠ rBLn_LEASE n ∧ k ≠ fRK_MAXLAT.key) ∧
    rBLn_LEASE n ∉ frameWrittenRegs n ∧ rBLn_LEASE n ≠ fRK_MAXLAT.key := by
  obtain ⟨hE, hT, hS, -, hL, hA⟩ := rBLn_trans_mod n
  have hM : fRK_MAXLAT.key % 1024 = 29 := by decide
  refine ⟨?_, ?_, by omega⟩
  · simp only [frameWrittenRegs, List.forall_mem_cons]
    refine ⟨⟨?_, by omega⟩, ⟨?_, by omega⟩, ⟨?_, by omega⟩, ⟨?_, by omega⟩, ⟨?_, by omega⟩,
      fun _ h => absurd h List.not_mem_nil⟩ <;>
      apply spared_brine <;> simp only [rBLn_TSTAT, rBLn_SMISS, rBLn_LASTOK, rBLn_ARRIVE] <;> omega
  · simp only [frameWrittenRegs, List.mem_cons, List.not_mem_nil, or_false]
    omega

/-- The module's status and the judgement of a Rake that is off: HELD and FOREIGN follow the module. -/
theorem statusJudged_effect {lat : Nat} (j : Judged) (fr : List Byte) (hrk : v.rk.enEff = false) (hlat : lat ≤ 96) :
    let t := judgePort n j lat (sampleStatus n fr old v)
    BlStep [rBLn_LEASE n, fRK_MAXLAT.key] [blTrans n] v t ∧ t.bl = v.bl ∧
    t.flag (fBLn_LEASE_HELD n) = leaseHeld v n ∧ t.flag (fBLn_LEASE_FOREIGN n) = natBit (numAt fr 4 1) 5 := by
  intro t
  obtain ⟨u, hu⟩ : ∃ u, u = sampleStatus n fr old v := ⟨_, rfl⟩
  obtain ⟨hheld, hforeign⟩ := flags_sampleStatus v fr old hn
  have hvu : BlStep [rBLn_LEASE n] [blTrans n] v u := hu ▸ blStep_sampleStatus v fr old hn
  have ht : t = judgePort n j lat u := by rw [hu]
  rw [← hu] at hheld hforeign
  have hoff : u.rk.enEff = false := by rw [hvu.kept_parts.2.1, hrk]
  have hq : Quiet [fRK_MAXLAT.key] u t := ht ▸ quiet_judgePort hoff hlat
  have hlease : t.rd (rBLn_LEASE n) = u.rd (rBLn_LEASE n) := hq.regs _ (by simpa using (spared_frame hn).2.2)
  refine ⟨(hvu.mono (by simp) (List.Subset.refl _)).trans ((hq.step (by simp; decide)).mono (by simp) (List.Subset.refl _)),
    by rw [ht, bl_judgePort hoff hlat, hu, bl_sampleStatus], ?_, ?_⟩
  · rw [flag_of_rd (fBLn_LEASE_HELD n) hlease, hheld]
  · rw [flag_of_rd (fBLn_LEASE_FOREIGN n) hlease, hforeign]

omit hn in
/-- The grid tracker's source is no register of the port. -/
theorem gridSrc_notMem (n : Nat) : fTB_GRID_SRC_PORT.key ∉ takenRegs n := by
  simp only [takenRegs, List.mem_cons, List.not_mem_nil, or_false, fTB_GRID_SRC_PORT, rTB_GRID_SRC, rBLn_TSTAT, rBLn_SMISS,
    rBLn_LASTOK, rBLn_ARRIVE, rBLn_LEASE, fRK_MAXLAT, rRK_MAXLAT]
  omega

/-- What the landing of a valid frame is followed by. -/
theorem frameTaken_effect {lat : Nat} {j : Judged} (hrk : v.rk.enEff = false) (hlat : lat ≤ 96)
    (hgrid : v.fld fTB_GRID_SRC_PORT ≠ n) : FrameTaken v (frameTaken n f ls p missed old lat j v) n f p missed := by
  obtain ⟨hport, hothers⟩ := port_framePosted v (n := n) f ls p missed
  obtain ⟨hkeys, hleaseW, -⟩ := spared_frame hn
  obtain ⟨hT, hS, hL, hE, hF⟩ := fields_frameWritten v n f ls
  obtain ⟨h4, h5, h6⟩ := bitsGet_frameWord f ls
  obtain ⟨w, hw⟩ : ∃ w, w = frameWritten n f ls v := ⟨_, rfl⟩
  obtain ⟨x, hx⟩ : ∃ x, x = framePosted n f ls p missed v := ⟨_, rfl⟩
  obtain ⟨z, hz⟩ : ∃ z, z = judgePort n j lat (sampleStatus n f.bytes old x) := ⟨_, rfl⟩
  have hwx : BlStep [] [blTrans n] w x := hw ▸ hx ▸ blStep_framePosted v f ls p missed
  have hvx : BlStep (frameWrittenRegs n) [blTrans n] v x :=
    ((hw ▸ quiet_frameWritten v n f ls : Quiet (frameWrittenRegs n) v w).step fun k hk => (hkeys k hk).1.2.2).trans
      (hwx.mono (List.nil_subset _) (List.Subset.refl _))
  obtain ⟨hxz, hbl, hheld, hforeign⟩ := statusJudged_effect x old hn j f.bytes (by rw [hvx.kept_parts.2.1, hrk]) hlat
  rw [← hx] at hport hothers
  rw [← hw] at hT hS hL hE hF
  rw [← hz] at hxz hbl hheld hforeign
  have hstep : BlStep (takenRegs n) [blTrans n] v z :=
    (hvx.mono (by simp [frameWrittenRegs, takenRegs]) (List.Subset.refl _)).trans
      (hxz.mono (by simp [takenRegs]) (List.Subset.refl _))
  have ht : frameTaken n f ls p missed old lat j v = z := by
    rw [frameTaken, ← hx, ← hz]
    exact gridFeed_of_other fun h => hgrid ((hstep.fld _ (gridSrc_notMem n) (by decide)).symm.trans h)
  have hrd : ∀ k ∈ frameWrittenRegs n, z.rd k = w.rd k := fun k hk => by
    obtain ⟨hs, hne, hnm⟩ := hkeys k hk
    rw [hxz.rd (by simp only [List.mem_cons, List.not_mem_nil, or_false, not_or]; exact ⟨hne, hnm⟩) hs,
      hwx.rd List.not_mem_nil hs]
  have hTmem : rBLn_TSTAT n ∈ frameWrittenRegs n := by simp [frameWrittenRegs]
  have hSmem : rBLn_SMISS n ∈ frameWrittenRegs n := by simp [frameWrittenRegs]
  have hLmem : rBLn_LASTOK n ∈ frameWrittenRegs n ∧ rBLn_LASTOK n + 1 ∈ frameWrittenRegs n := by simp [frameWrittenRegs]
  have hAmem : rBLn_ARRIVE n ∈ frameWrittenRegs n := by simp [frameWrittenRegs]
  have hword : z.rd (rBLn_TSTAT n) = frameWord f ls := (hrd _ hTmem).trans hT
  have hepoch : x.fld (fBLn_LEASE_EPOCH n) = v.fld (fBLn_LEASE_EPOCH n) := hvx.fld _ hleaseW (spared_LEASE hn)
  rw [ht]
  exact {
    port := (port_of_bl n hbl).trans hport
    others := fun m hm => (port_of_bl m hbl).trans (hothers m hm)
    smiss := (fld_of_rd (fBLn_SMISS n) (hrd _ hSmem)).trans hS
    recovered := fun hm => hxz.pend _ _ (by decide) (hx ▸ pendBit_postIf _ _ _ _ _ hm (by decide))
    lastok := (rd64_of_rd _ (hrd _ hLmem.1) (hrd _ hLmem.2)).trans hL
    eoft := (fld_of_rd (fBLn_ARRIVE_EOFT n) (hrd _ hAmem)).trans hE
    soft := (fld_of_rd (fBLn_ARRIVE_SOFT n) (hrd _ hAmem)).trans hF
    mstat := (congrArg (bitsGet · 24 8) hword).trans h4
    phflt := (congrArg (bitsGet · 16 8) hword).trans h5
    phon := (congrArg (bitsGet · 8 8) hword).trans h6
    held := by rw [hheld, leaseHeld_of_last (congrArg BPort.last hport), hepoch]
    foreign := hforeign
    step := hstep }

end

/-! ## Before the landing (R221, R236, R255) -/

/-- The counters of the two lanes. -/
def laneCounts (n : Nat) (a b : Option RxFrame) (s : State) : State := laneCount n 1 b (laneCount n 0 a s)

section
variable (s : State) (n : Nat) {l : Nat}

theorem laneCount_some (f : RxFrame) : laneCount n l (some f) s = if laneUp s n l then rxCount n l f s else s := rfl

theorem quiet_laneCount (f : Option RxFrame) (hl : l < 2) : Quiet [errKey n l] s (laneCount n l f s) := by
  cases f with
  | none => exact Quiet.refl _ s
  | some f =>
    rw [laneCount_some]
    split
    · exact quiet_rxCount s n l f hl
    · exact Quiet.refl _ s
theorem bl_laneCount (f : Option RxFrame) : (laneCount n l f s).bl = s.bl := by
  cases f with
  | none => rfl
  | some f =>
    rw [laneCount_some]
    split
    · exact bl_rxCount s n l f
    · rfl

theorem quiet_laneCounts (a b : Option RxFrame) : Quiet [rBLn_ERRA n, rBLn_ERRB n] s (laneCounts n a b s) :=
  ((quiet_laneCount s n a (l := 0) (by decide)).mono (by simp)).trans
    ((quiet_laneCount _ n b (l := 1) (by decide)).mono (by simp))
theorem bl_laneCounts (a b : Option RxFrame) : (laneCounts n a b s).bl = s.bl := by
  rw [laneCounts, bl_laneCount, bl_laneCount]

/-- A lane's frame with a correct CRC, or none, does not count in CRCERR (R255). -/
theorem fld_CrcErr_laneCounts (a b : Option RxFrame) (h : (a.all fun f => decide (crc32 f.bytes = f.crc.toNat)) = true) :
    (laneCounts n a b s).fld (fCrcErr n 0) = s.fld (fCrcErr n 0) := by
  have hne : (fCrcErr n 0).key ∉ [errKey n 1] := by
    show rBLn_ERRA n ∉ [rBLn_ERRB n]
    simp only [List.mem_singleton, rBLn_ERRA, rBLn_ERRB]
    omega
  rw [laneCounts, (quiet_laneCount _ n b (l := 1) (by decide)).fld _ hne]
  cases a with
  | none => rfl
  | some f =>
    rw [laneCount_some]
    split
    · rw [fld_CrcErr_rxCount s n 0 f (by decide), if_pos (by simpa using h)]
    · rfl

theorem quiet_laneMisses (va vb : Bool) : Quiet [] s (laneMisses n va vb s) ∧
    (laneMisses n va vb s).bl.ports = s.bl.ports := by
  have hone : ∀ (l : Nat) (v : Bool) (t : State), ∃ u : State, (if laneSt t n l = 4 then
      t.setLane n l { laneOf t n l with miss := if v then 0 else (laneOf t n l).miss + 1 } else t) = u ∧
      Quiet [] t u ∧ u.bl.ports = t.bl.ports := fun l v t => by
    refine ⟨_, rfl, ?_⟩
    split
    · exact ⟨quiet_setLane _ _ _ _, rfl⟩
    · exact ⟨Quiet.refl _ t, rfl⟩
  obtain ⟨u, hu, hq, hp⟩ := hone 0 va s
  obtain ⟨w, hw, hq', hp'⟩ := hone 1 vb u
  have hall : laneMisses n va vb s = w := by
    rw [laneMisses, ← hw, ← hu]
  rw [hall]
  exact ⟨hq.trans hq', hp'.trans hp⟩

end

section
variable {s : State} {n : Nat} {a b : Option RxFrame} {f : RxFrame}

theorem selected_of_used (h : Used s n a b f) :
    (if laneValid s n 0 a then a else if laneValid s n 1 b then b else none) = some f := by
  rcases h with ⟨ha, rfl⟩ | ⟨ha, hb, rfl⟩
  · exact if_pos ha
  · rw [ha, if_neg Bool.false_ne_true, if_pos hb]

/-- A frame that is used has 80 bytes. -/
theorem length_of_used (h : Used s n a b f) : f.bytes.length = 80 := by
  have hvalid : ∀ l, laneValid s n l (some f) = true → f.bytes.length = 80 := fun l hv => by
    simp only [laneValid, laneGood, rxGood, Bool.and_eq_true, beq_iff_eq] at hv
    tauto
  rcases h with ⟨ha, rfl⟩ | ⟨-, hb, rfl⟩
  · exact hvalid 0 ha
  · exact hvalid 1 hb

theorem portOpen_gate (h : PortOpen s n) :
    ¬ (linkEn s n = false ∨ s.tb.started = false ∨ (s.port n).noted = tickNo s + 1) := by
  obtain ⟨-, hen, hst, hnoted⟩ := h
  rw [hen, hst]
  simpa using hnoted

/-- The state at the landing. -/
def landing (n : Nat) (a b : Option RxFrame) (s : State) : State :=
  laneMisses n (laneValid s n 0 a) (laneValid s n 1 b) (laneCounts n a b s)

/-- What the tick does once its frame is selected, or none. -/
def received (n : Nat) (a b : Option RxFrame) (lat : Nat) (s : State) (o : Option RxFrame) : State :=
  let va := laneValid s n 0 a
  let vb := laneValid s n 1 b
  let err := errBits s n a b
  let c := laneCounts n a b s
  match o with
  | none => c.setPort n (errSeen err (c.port n))
  | some f =>
    let p := c.port n
    let ls := 1 + 2 * b2n (!va) + 4 * b2n va + 8 * b2n vb + Nat.lor err p.lbits +
      64 * b2n (va && vb && (a.map fun x => x.bytes) != (b.map fun x => x.bytes)) + 256 * (f.soft.toNat % 256) +
      65536 * (f.eoft.toNat % 512)
    frameTaken n f ls p (c.fld (fBLn_SMISS n) != 0) (match p.last with | some q => numAt q 4 1 | none => 0) lat
      ⟨some f.bytes, if p.lastTick + 1 = tickNo c then p.last else none, 0⟩
      (land n (landHead c ls ++ f.bytes) (laneMisses n va vb c))

theorem sampleReceive_eq (h : ¬ (linkEn s n = false ∨ s.tb.started = false ∨ (s.port n).noted = tickNo s + 1)) (lat : Nat) :
    sampleReceive n a b lat s = received n a b lat s
      (if laneValid s n 0 a then a else if laneValid s n 1 b then b else none) := by
  rw [sampleReceive, if_neg h]
  extract_lets va vb err c
  change _ = received n a b lat s (if va = true then a else if vb = true then b else none)
  cases (if va = true then a else if vb = true then b else none) with
  | none => rfl
  | some f => rfl

/-- MSTAT of the port's last valid frame, and the frame judged in the tick before. -/
def lastStat (p : BPort) : Nat := match p.last with | some q => numAt q 4 1 | none => 0
def judgedBefore (p : BPort) (tick : Nat) : Option (List Byte) := if p.lastTick + 1 = tick then p.last else none

theorem sampleReceive_of_used (ho : PortOpen s n) (hu : Used s n a b f) (lat : Nat) : sampleReceive n a b lat s =
    frameTaken n f (landStatus s n a b f) (s.port n) ((laneCounts n a b s).fld (fBLn_SMISS n) != 0) (lastStat (s.port n)) lat
      ⟨some f.bytes, judgedBefore (s.port n) (tickNo (laneCounts n a b s)), 0⟩
      (land n (landHead (laneCounts n a b s) (landStatus s n a b f) ++ f.bytes) (landing n a b s)) := by
  have hport : (laneCounts n a b s).port n = s.port n := port_of_bl n (bl_laneCounts s n a b)
  rw [sampleReceive_eq (portOpen_gate ho), selected_of_used hu, landStatus, ← hport]
  rfl

theorem sampleReceive_of_none (ho : PortOpen s n) (ha : laneValid s n 0 a = false) (hb : laneValid s n 1 b = false) (lat : Nat) :
    sampleReceive n a b lat s = (laneCounts n a b s).setPort n (errSeen (errBits s n a b) (s.port n)) := by
  have hport : (laneCounts n a b s).port n = s.port n := port_of_bl n (bl_laneCounts s n a b)
  rw [sampleReceive_eq (portOpen_gate ho), ha, hb, if_neg Bool.false_ne_true, if_neg Bool.false_ne_true, ← hport]
  rfl

theorem sampleReceive_idle (h : linkEn s n = false ∨ s.tb.started = false ∨ (s.port n).noted = tickNo s + 1)
    (a b : Option RxFrame) (lat : Nat) : sampleReceive n a b lat s = s := if_pos h

end

/-! ## What lands, and what stays -/

/-- Up to the landing the error counters and the lanes' records have changed. -/
theorem quiet_landing (s : State) (n : Nat) (a b : Option RxFrame) : Quiet [rBLn_ERRA n, rBLn_ERRB n] s (landing n a b s) ∧
    (landing n a b s).bl.ports = s.bl.ports := by
  obtain ⟨hq, hp⟩ := quiet_laneMisses (laneCounts n a b s) n (laneValid s n 0 a) (laneValid s n 1 b)
  exact ⟨(quiet_laneCounts s n a b).trans (hq.mono (List.nil_subset _)), hp.trans (by rw [bl_laneCounts])⟩

theorem Quiet.kept_parts {own : List Nat} {s t : State} (h : Quiet own s t) :
    t.sal = s.sal ∧ t.rk = s.rk ∧ t.tb = s.tb ∧ t.cores = s.cores := by
  obtain ⟨r, b, rfl⟩ := h.only
  exact ⟨rfl, rfl, rfl, rfl⟩

theorem SalOnly.kept_parts {s t : State} (h : SalOnly s t) :
    (∀ k, t.rd k = s.rd k) ∧ t.bl = s.bl ∧ t.rk = s.rk ∧ t.tb = s.tb ∧ t.cores = s.cores ∧
    (∀ own pgs, RegsEv s t own pgs) := by
  obtain ⟨m, rfl⟩ := h
  exact ⟨fun _ => rfl, rfl, rfl, rfl, rfl, fun _ _ => regsEv_refl⟩

section
variable {s u t : State} {n : Nat} {bs : List Byte} {before own : List Nat}
  (hu : Quiet before s u) (ht : BlStep own [blTrans n] (land n bs u) t)
include hu ht

/-- The registers that a landing and what surrounds it may change. -/
theorem landed_frame {own' : List Nat} (hbefore : before ⊆ own') (hown : own ⊆ own') :
    RegsEv s t own' [blTrans n] ∧ t.rk = s.rk ∧ t.tb = s.tb ∧ t.cores = s.cores := by
  obtain ⟨-, -, hrk, htb, hcores, hregs⟩ := (salOnly_land n bs u).kept_parts
  obtain ⟨-, hrk', htb', hcores'⟩ := hu.kept_parts
  obtain ⟨-, hrk'', htb'', hcores''⟩ := ht.kept_parts
  have hsu : RegsEv s u own' [blTrans n] := regsEv_of_regs (hu.mono hbefore).regs
  have hvt : RegsEv (land n bs u) t own' [blTrans n] := regsEv_mono ht.regs hown (List.Subset.refl _)
  exact ⟨regsEv_trans (regsEv_trans hsu (hregs _ _)) hvt, hrk''.trans (hrk.trans hrk'), htb''.trans (htb.trans htb'),
    hcores''.trans (hcores.trans hcores')⟩

/-- The Saltern under the frame hold (R520). -/
theorem landed_hold (hf : u.flag fRST_STAT_FRAMEHOLD = true) : t.sal = s.sal := by
  rw [ht.kept_parts.1, land_of_hold hf, hu.kept_parts.1]

/-- The record and the frame stand in the Saltern, and nothing else has changed there. -/
theorem landed_bytes (hn : n < 64) (hbefore : before ⊆ [rBLn_ERRA n, rBLn_ERRB n]) (hown : ∀ i < 16, rSAL_RMAPi i ∉ own)
    (hf : s.flag fRST_STAT_FRAMEHOLD = false)
    (hle : landAt s n + bs.length ≤ salSize) :
    salBytes t (landAt s n) bs.length = bs ∧ SameBut s t (landAt s n) bs.length := by
  have hbase : ∀ k, k ∉ [rBLn_ERRA n, rBLn_ERRB n] → u.rd k = s.rd k := (hu.mono hbefore).regs
  have hout : ∀ k, k < 0x80 * 1024 ∨ 0x100 * 1024 ≤ k → k ∉ [rBLn_ERRA n, rBLn_ERRB n] := fun k hk => by
    simp only [List.mem_cons, List.not_mem_nil, or_false, rBLn_ERRA, rBLn_ERRB]
    omega
  have hat : landAt u n = landAt s n := by
    have hS : rBLn_SBASE n ∉ [rBLn_ERRA n, rBLn_ERRB n] := by
      simp only [List.mem_cons, List.not_mem_nil, or_false, rBLn_SBASE, rBLn_ERRA, rBLn_ERRB]
      omega
    rw [landAt, blBase, fld_of_rd (fBLn_SBASE n) (hbase _ hS), tickNo,
      rd64_of_rd _ (hbase _ (hout _ (.inl (by decide)))) (hbase _ (hout _ (.inl (by decide))))]
    rfl
  have hfree : u.flag fRST_STAT_FRAMEHOLD = false :=
    (flag_of_rd _ (hbase _ (hout _ (.inr (by decide))))).trans hf
  obtain ⟨hbytes, hsame⟩ := land_bytes (s := u) (n := n) (bs := bs) hfree (by rwa [hat])
  rw [hat] at hbytes hsame
  have hmap : ∀ i < 16, 0x100 * 1024 ≤ rSAL_RMAPi i ∧ Spared (rSAL_RMAPi i) := fun i hi => by
    simp only [Spared, rSAL_RMAPi, rSL_EVDROP]
    omega
  have hu' : salByte u = salByte s := salByte_of_rd (by rw [hu.kept_parts.1]) fun i hi => hbase _ (hout _ (.inr (hmap i hi).1))
  have ht' : salByte t = salByte (land n bs u) := salByte_of_rd (by rw [ht.kept_parts.1]) fun i hi =>
    ht.rd (hown i hi) (hmap i hi).2
  refine ⟨?_, fun k hk hout => ?_⟩
  · have hread : salBytes t (landAt s n) bs.length = salBytes (land n bs u) (landAt s n) bs.length :=
      List.map_congr_left fun i _ => congrFun ht' _
    exact hread.trans hbytes
  · rw [ht', hsame k hk hout, hu']

end

/-! ## The frame of a tick, or none -/

/-- Registers below the Brine's pages, and above them, are no port's. -/
theorem notMem_err {n k : Nat} (h : k < 0x80 * 1024 ∨ 0x100 * 1024 ≤ k) (hn : n < 64) : k ∉ [rBLn_ERRA n, rBLn_ERRB n] := by
  simp only [List.mem_cons, List.not_mem_nil, or_false, rBLn_ERRA, rBLn_ERRB]
  omega

section
variable {s : State} {n : Nat} {a b : Option RxFrame} {f : RxFrame} {lat : Nat}

/-- The bytes of a valid frame's record and of the frame. -/
def frameRecord (s : State) (n : Nat) (a b : Option RxFrame) (f : RxFrame) : List Byte :=
  landHead (laneCounts n a b s) (landStatus s n a b f) ++ f.bytes

theorem tickNo_laneCounts (s : State) (n : Nat) (a b : Option RxFrame) (hn : n < 64) : tickNo (laneCounts n a b s) = tickNo s :=
  have hq := quiet_laneCounts s n a b
  rd64_of_rd rTICKNO (hq.regs _ (notMem_err (.inl (by decide)) hn)) (hq.regs _ (notMem_err (.inl (by decide)) hn))

theorem frameRecord_eq (hn : n < 64) : frameRecord s n a b f =
    bytesOfNat 8 (tickNo s) ++ bytesOfNat 4 (landStatus s n a b f) ++ bytesOfNat 4 0 ++ f.bytes := by
  rw [frameRecord, landHead, tickNo_laneCounts s n a b hn]

theorem length_bytesOfNat (k v : Nat) : (bytesOfNat k v).length = k := by
  induction k generalizing v with
  | zero => rfl
  | succ k ih => rw [bytesOfNat, List.length_cons, ih]

variable (hn : n < 64) (ho : PortOpen s n) (hu : Used s n a b f) (hrk : RakeOff s) (hlat : lat ≤ 96)
  (hgrid : s.fld fTB_GRID_SRC_PORT ≠ n)
include hn ho hu hrk hlat hgrid

/-- A valid frame from its landing on. -/
theorem sampleReceive_taken : FrameTaken (land n (frameRecord s n a b f) (landing n a b s)) (sampleReceive n a b lat s) n f
    (s.port n) ((laneCounts n a b s).fld (fBLn_SMISS n) != 0) := by
  obtain ⟨hrd, -, hrk', -⟩ := (salOnly_land n (frameRecord s n a b f) (landing n a b s)).kept_parts
  obtain ⟨hq, -⟩ := quiet_landing s n a b
  rw [sampleReceive_of_used ho hu lat]
  refine frameTaken_effect _ f _ _ _ _ hn ?_ hlat ?_
  · exact (congrArg RakeState.enEff (hrk'.trans hq.kept_parts.2.1)).trans hrk
  · rw [fld_of_rd fTB_GRID_SRC_PORT (hrd _), fld_of_rd fTB_GRID_SRC_PORT (hq.regs _ (notMem_err (.inl (by decide)) hn))]
    exact hgrid

/-- What a valid frame does beside its landing. -/
theorem sampleReceive_effect :
    let t := sampleReceive n a b lat s
    t.port n = framed (tickNo s) f.bytes (s.port n) ∧ OtherPort s t n ∧ t.fld (fBLn_SMISS n) = 0 ∧
    (s.fld (fBLn_SMISS n) = 0 ∨ pendBit t (blTrans n) 1 = true) ∧ t.rd64 (rBLn_LASTOK n) = tickNo s ∧
    t.fld (fBLn_ARRIVE_EOFT n) = f.eoft.toNat % 512 ∧ t.fld (fBLn_ARRIVE_SOFT n) = f.soft.toNat % 256 ∧
    t.fld (fBLn_TSTAT_MSTAT n) = numAt f.bytes 4 1 ∧ t.fld (fBLn_TSTAT_PHFLT n) = numAt f.bytes 5 1 ∧
    t.fld (fBLn_TSTAT_PHON n) = numAt f.bytes 6 1 ∧
    t.flag (fBLn_LEASE_HELD n) =
      (natBit (numAt f.bytes 4 1) 0 && decide (numAt f.bytes 2 2 = s.fld (fBLn_LEASE_EPOCH n))) ∧
    t.flag (fBLn_LEASE_FOREIGN n) = natBit (numAt f.bytes 4 1) 5 ∧ RegsEv s t (frameRegs n) [blTrans n] ∧ t.rk = s.rk ∧
    t.tb = s.tb ∧ t.cores = s.cores := by
  intro t
  have htaken := sampleReceive_taken hn ho hu hrk hlat hgrid
  obtain ⟨hq, hports⟩ := quiet_landing s n a b
  obtain ⟨hrd, hbl, -⟩ := (salOnly_land n (frameRecord s n a b f) (landing n a b s)).kept_parts
  obtain ⟨hregs, hrk', htb, hcores⟩ := landed_frame (own' := frameRegs n) hq htaken.step
    (by simp [frameRegs]) (by simp [takenRegs, frameRegs])
  obtain ⟨v, hv⟩ : ∃ v, v = land n (frameRecord s n a b f) (landing n a b s) := ⟨_, rfl⟩
  have hlow : ∀ k, k ∉ [rBLn_ERRA n, rBLn_ERRB n] → v.rd k = s.rd k := fun k hk => by rw [hv, hrd, hq.regs k hk]
  have htick : tickNo v = tickNo s := rd64_of_rd rTICKNO (hlow _ (notMem_err (.inl (by decide)) hn))
    (hlow _ (notMem_err (.inl (by decide)) hn))
  have hepoch : v.fld (fBLn_LEASE_EPOCH n) = s.fld (fBLn_LEASE_EPOCH n) := fld_of_rd _ (hlow _ (by
    simp only [List.mem_cons, List.not_mem_nil, or_false, fBLn_LEASE_EPOCH, rBLn_LEASE, rBLn_ERRA, rBLn_ERRB]
    omega))
  have hsmiss : (laneCounts n a b s).fld (fBLn_SMISS n) = s.fld (fBLn_SMISS n) := (quiet_laneCounts s n a b).fld _ (by
    simp only [List.mem_cons, List.not_mem_nil, or_false, fBLn_SMISS, rBLn_SMISS, rBLn_ERRA, rBLn_ERRB]
    omega)
  have hvport : ∀ m, v.port m = s.port m := fun m => by rw [hv, port_of_bl m hbl, port_of_ports m hports]
  rw [← hv, hsmiss] at htaken
  refine ⟨htick ▸ htaken.port, fun m hm => (htaken.others m hm).trans (hvport m), htaken.smiss, ?_, htick ▸ htaken.lastok,
    htaken.eoft, htaken.soft, htaken.mstat, htaken.phflt, htaken.phon, hepoch ▸ htaken.held, htaken.foreign, hregs, hrk', htb,
    hcores⟩
  by_cases h0 : s.fld (fBLn_SMISS n) = 0
  · exact .inl h0
  · exact .inr (htaken.recovered (bne_iff_ne.2 h0))

/-- The frame and its record land (R234). -/
theorem sampleReceive_lands (hf : s.flag fRST_STAT_FRAMEHOLD = false) (hle : landAt s n + 96 ≤ salSize) :
    salBytes (sampleReceive n a b lat s) (landAt s n) 96 =
      bytesOfNat 8 (tickNo s) ++ bytesOfNat 4 (landStatus s n a b f) ++ bytesOfNat 4 0 ++ f.bytes ∧
    SameBut s (sampleReceive n a b lat s) (landAt s n) 96 := by
  have hlen : (frameRecord s n a b f).length = 96 := by
    rw [frameRecord_eq hn, List.length_append, List.length_append, List.length_append, length_bytesOfNat, length_bytesOfNat,
      length_bytesOfNat, length_of_used hu]
  have hout : ∀ i < 16, rSAL_RMAPi i ∉ takenRegs n := fun i hi => by
    simp only [takenRegs, List.mem_cons, List.not_mem_nil, or_false, rSAL_RMAPi, rBLn_TSTAT, rBLn_SMISS, rBLn_LASTOK,
      rBLn_ARRIVE, rBLn_LEASE, fRK_MAXLAT, rRK_MAXLAT]
    omega
  have hlanded := landed_bytes (quiet_landing s n a b).1 (sampleReceive_taken hn ho hu hrk hlat hgrid).step hn
    (List.Subset.refl _) hout hf (by rwa [hlen])
  rwa [hlen, frameRecord_eq hn] at hlanded

/-- Under the frame hold the Saltern stays as it is (R520). -/
theorem sampleReceive_held (hf : s.flag fRST_STAT_FRAMEHOLD = true) : (sampleReceive n a b lat s).sal = s.sal := by
  have hq := (quiet_landing s n a b).1
  have hhold : (landing n a b s).flag fRST_STAT_FRAMEHOLD = true :=
    (flag_of_rd _ (hq.regs _ (notMem_err (.inr (by decide)) hn))).trans hf
  exact landed_hold hq (sampleReceive_taken hn ho hu hrk hlat hgrid).step hhold

end

end Sys2Proof.Machine
end

section
/-!
PROOFS. A tick without a valid frame at its port (R235, R255), and the statement SampleFrames.
-/

namespace Sys2Proof.Machine
open Sys2Proof Sys2Proof.Claims

/-! ## Frames that are not valid wait (R236) -/

theorem sampleReceive_waits {s : State} {n : Nat} {a b : Option RxFrame} (ho : PortOpen s n)
    (ha : laneValid s n 0 a = false) (hb : laneValid s n 1 b = false) (lat : Nat) :
    let t := sampleReceive n a b lat s
    t.port n = errSeen (errBits s n a b) (s.port n) ∧ OtherPort s t n ∧
    ((a.all fun f => decide (crc32 f.bytes = f.crc.toNat)) = false ∨ t.fld (fCrcErr n 0) = s.fld (fCrcErr n 0)) ∧
    Claims.Regs s t [rBLn_ERRA n, rBLn_ERRB n] ∧ NoEvents s t ∧ Kept s { t with bl := { t.bl with ports := s.bl.ports } } := by
  intro t
  obtain ⟨c, hc⟩ : ∃ c, c = laneCounts n a b s := ⟨_, rfl⟩
  have hq : Quiet [rBLn_ERRA n, rBLn_ERRB n] s c := hc ▸ quiet_laneCounts s n a b
  have hbl : c.bl = s.bl := by rw [hc, bl_laneCounts]
  have ht : t = c.setPort n (errSeen (errBits s n a b) (s.port n)) := hc ▸ sampleReceive_of_none ho ha hb lat
  have hall := hq.trans (quiet_setPort (own := [rBLn_ERRA n, rBLn_ERRB n]) c n (errSeen (errBits s n a b) (s.port n)))
  rw [ht]
  refine ⟨port_setPort_self _ _ _, fun m hm => (otherPort_setPort _ n _ m hm).trans (port_of_bl m hbl), ?_, hall.regs,
    hall.noEvents, ?_⟩
  · rw [← Bool.not_eq_true, or_iff_not_imp_left, not_not]
    intro h
    exact (fld_setPort _ _ _ _).trans (hc ▸ fld_CrcErr_laneCounts s n a b h)
  · have hlanes : { (c.setPort n (errSeen (errBits s n a b) (s.port n))).bl with ports := s.bl.ports } = s.bl := by
      rw [← hbl]
      rfl
    rw [hlanes]
    exact hall.kept

/-! ## A tick without a valid frame (R235, R255) -/

/-- The registers of a tick without a valid frame. -/
def missWritten (n lbits : Nat) (v : State) : State :=
  ((v.wr (rBLn_TSTAT n) (BitVec.ofNat 32 (lbits % 256))).incFld (fBLn_SMISS n)).incFld (fBLn_SMISSTOT n)
/-- The port's record, and SMISS's event at the first miss. -/
def missPosted (n : Nat) (p : BPort) (first : Bool) (v : State) : State :=
  let w := missWritten n p.lbits v
  let x := w.setPort n (noted (tickNo w) p)
  if first then post (blTrans n) 0 2 n 0 0 x else x
/-- What follows the landing of the record. -/
def missTaken (n : Nat) (p : BPort) (first : Bool) (lat : Nat) (v : State) : State :=
  judgePort n ⟨none, none, (missPosted n p first v).fld (fBLn_SMISS n)⟩ lat (missPosted n p first v)

/-- The registers of a tick without a frame. -/
def missRegs (n : Nat) : List Nat := [rBLn_TSTAT n, rBLn_SMISS n, rBLn_SMISSTOT n]

theorem landNoFrame_eq {s : State} {n : Nat} (ho : PortOpen s n) (lat : Nat) : landNoFrame n lat s =
    missTaken n (s.port n) (decide ((s.port n).valid ≠ 0) && s.fld (fBLn_SMISS n) == 0) lat
      (land n (landHead s (s.port n).lbits) (laneMisses n false false s)) := by
  rw [landNoFrame, if_neg (portOpen_gate ho)]
  rfl

theorem landNoFrame_idle {s : State} {n : Nat}
    (h : linkEn s n = false ∨ s.tb.started = false ∨ (s.port n).noted = tickNo s + 1) (lat : Nat) :
    landNoFrame n lat s = s := if_pos h

section
variable (v : State) (n lbits : Nat)

theorem quiet_missWritten : Quiet (missRegs n) v (missWritten n lbits v) :=
  ((quiet_wr v _ (by simp [missRegs])).trans (quiet_setFld _ (fBLn_SMISS n) _ (by simp [missRegs, fBLn_SMISS]))).trans
    (quiet_setFld _ (fBLn_SMISSTOT n) _ (by simp [missRegs, fBLn_SMISSTOT]))
theorem bl_missWritten : (missWritten n lbits v).bl = v.bl := by
  rw [missWritten, State.incFld_bl, State.incFld_bl, State.wr_bl]

theorem fields_missWritten : (missWritten n lbits v).fld (fBLn_SMISS n) = satInc 16 (v.fld (fBLn_SMISS n)) ∧
    (missWritten n lbits v).fld (fBLn_SMISSTOT n) = satInc 32 (v.fld (fBLn_SMISSTOT n)) ∧
    (missWritten n lbits v).fld (fBLn_TSTAT_LSTATUS n) = lbits % 256 := by
  obtain ⟨-, hT, hS, hM, -, -⟩ := rBLn_trans_mod n
  have hTS : rBLn_TSTAT n ≠ rBLn_SMISS n := by omega
  have hTM : rBLn_TSTAT n ≠ rBLn_SMISSTOT n := by omega
  have hSM : rBLn_SMISS n ≠ rBLn_SMISSTOT n := by omega
  refine ⟨?_, ?_, ?_⟩
  · rw [missWritten, fld_of_rd (fBLn_SMISS n) (rd_incFld_ne _ (fBLn_SMISSTOT n) hSM),
      fld_incFld _ (fBLn_SMISS n) (by decide : 0 + 16 ≤ 32), fld_of_rd (fBLn_SMISS n) (rd_wr_ne v _ hTS.symm)]
    rfl
  · rw [missWritten, fld_incFld _ (fBLn_SMISSTOT n) (by decide : 0 + 32 ≤ 32),
      fld_of_rd (fBLn_SMISSTOT n) (rd_incFld_ne _ (fBLn_SMISS n) hSM.symm), fld_of_rd (fBLn_SMISSTOT n) (rd_wr_ne v _ hTM.symm)]
    rfl
  · rw [missWritten, fld_of_rd (fBLn_TSTAT_LSTATUS n) (rd_incFld_ne _ (fBLn_SMISSTOT n) hTM),
      fld_of_rd (fBLn_TSTAT_LSTATUS n) (rd_incFld_ne _ (fBLn_SMISS n) hTS)]
    refine (fld_wr_self v (fBLn_TSTAT_LSTATUS n) _).trans ?_
    simp only [fBLn_TSTAT_LSTATUS, bitsGet, BitVec.toNat_ofNat]
    omega

end

/-- From the state `v` of the landing to the state `t` after a tick without a valid frame. -/
structure MissTaken (v t : State) (n : Nat) (p : BPort) (first : Bool) : Prop where
  smiss : t.fld (fBLn_SMISS n) = satInc 16 (v.fld (fBLn_SMISS n))
  smisstot : t.fld (fBLn_SMISSTOT n) = satInc 32 (v.fld (fBLn_SMISSTOT n))
  port : t.port n = noted (tickNo v) p
  others : OtherPort v t n
  lstatus : t.fld (fBLn_TSTAT_LSTATUS n) = p.lbits % 256
  posted : first = true → pendBit t (blTrans n) 0 = true
  step : BlStep (missRegs n ++ [fRK_MAXLAT.key]) [blTrans n] v t

theorem missTaken_effect {v : State} {n : Nat} (p : BPort) (first : Bool) {lat : Nat} (hn : n < 64)
    (hrk : v.rk.enEff = false) (hlat : lat ≤ 96) : MissTaken v (missTaken n p first lat v) n p first := by
  obtain ⟨-, hT, hS, hM, -, -⟩ := rBLn_trans_mod n
  have hX : fRK_MAXLAT.key % 1024 = 29 := by decide
  obtain ⟨hsmiss, htot, hlstatus⟩ := fields_missWritten v n p.lbits
  obtain ⟨w, hw⟩ : ∃ w, w = missWritten n p.lbits v := ⟨_, rfl⟩
  obtain ⟨x, hx⟩ : ∃ x, x = missPosted n p first v := ⟨_, rfl⟩
  obtain ⟨z, hz⟩ : ∃ z, z = missTaken n p first lat v := ⟨_, rfl⟩
  have hvw : Quiet (missRegs n) v w := hw ▸ quiet_missWritten v n p.lbits
  have hwx : BlStep [] [blTrans n] w x := by
    rw [hw, hx, missPosted]
    exact (blStep_setPort _ n _).trans (blStep_postIf _ _ _ _ _ _ _ (List.mem_singleton_self _))
  have hkeys : ∀ k ∈ missRegs n, Spared k ∧ k ≠ fRK_MAXLAT.key := by
    simp only [missRegs, List.forall_mem_cons]
    refine ⟨⟨?_, by omega⟩, ⟨?_, by omega⟩, ⟨?_, by omega⟩, fun _ h => absurd h List.not_mem_nil⟩ <;>
      apply spared_brine <;> simp only [rBLn_TSTAT, rBLn_SMISS, rBLn_SMISSTOT] <;> omega
  have hvx : BlStep (missRegs n) [blTrans n] v x :=
    (hvw.step fun k hk => (hkeys k hk).1.2.2).trans (hwx.mono (List.nil_subset _) (List.Subset.refl _))
  have hoff : x.rk.enEff = false := by rw [hvx.kept_parts.2.1, hrk]
  have hxz : Quiet [fRK_MAXLAT.key] x z := by
    rw [hz, missTaken, ← hx]
    exact quiet_judgePort hoff hlat
  have hbl : z.bl = x.bl := by rw [hz, missTaken, ← hx, bl_judgePort hoff hlat]
  have htick : tickNo w = tickNo v := by
    have hne : rTICKNO ∉ missRegs n ∧ rTICKNO + 1 ∉ missRegs n := by
      simp only [missRegs, List.mem_cons, List.not_mem_nil, or_false, rTICKNO, rBLn_TSTAT, rBLn_SMISS, rBLn_SMISSTOT]
      omega
    exact rd64_of_rd rTICKNO (hvw.regs _ hne.1) (hvw.regs _ hne.2)
  have hxbl : x.bl = (w.setPort n (noted (tickNo w) p)).bl := by rw [hx, missPosted, hw, bl_postIf]
  have hxstep : BlStep [fRK_MAXLAT.key] [blTrans n] x z := hxz.step (by simp; decide)
  have hrd : ∀ k ∈ missRegs n, z.rd k = w.rd k := fun k hk => by
    obtain ⟨hs, hne⟩ := hkeys k hk
    rw [hxz.regs k (by simpa using hne), hwx.rd List.not_mem_nil hs]
  have hTmem : rBLn_TSTAT n ∈ missRegs n := by simp [missRegs]
  have hSmem : rBLn_SMISS n ∈ missRegs n := by simp [missRegs]
  have hMmem : rBLn_SMISSTOT n ∈ missRegs n := by simp [missRegs]
  rw [← hw] at hsmiss htot hlstatus
  rw [← hz]
  refine ⟨(fld_of_rd (fBLn_SMISS n) (hrd _ hSmem)).trans hsmiss, (fld_of_rd (fBLn_SMISSTOT n) (hrd _ hMmem)).trans htot, ?_,
    fun m hm => ?_, (fld_of_rd (fBLn_TSTAT_LSTATUS n) (hrd _ hTmem)).trans hlstatus, fun hf => ?_, ?_⟩
  · rw [port_of_bl n (hbl.trans hxbl), port_setPort_self, htick]
  · rw [port_of_bl m (hbl.trans hxbl), otherPort_setPort _ n _ m hm, hw, port_of_bl m (bl_missWritten v n p.lbits)]
  · refine hxstep.pend _ _ (by decide) ?_
    rw [hx, missPosted]
    exact pendBit_postIf _ _ _ _ _ hf (by decide)
  · exact (hvx.mono (List.subset_append_left _ _) (List.Subset.refl _)).trans
      (hxstep.mono (List.subset_append_right _ _) (List.Subset.refl _))

/-- A tick without a valid frame: its record lands, and the misses count (R235, R255). -/
theorem landNoFrame_effect {s : State} {n lat : Nat} (hn : n < 64) (ho : PortOpen s n) (hrk : RakeOff s) (hlat : lat ≤ 96)
    (hf : s.flag fRST_STAT_FRAMEHOLD = false) (hle : landAt s n + 16 ≤ salSize) :
    let t := landNoFrame n lat s
    (salBytes t (landAt s n) 16 = bytesOfNat 8 (tickNo s) ++ bytesOfNat 4 (s.port n).lbits ++ bytesOfNat 4 0) ∧
    SameBut s t (landAt s n) 16 ∧ t.fld (fBLn_SMISS n) = satInc 16 (s.fld (fBLn_SMISS n)) ∧
    t.fld (fBLn_SMISSTOT n) = satInc 32 (s.fld (fBLn_SMISSTOT n)) ∧ t.port n = noted (tickNo s) (s.port n) ∧
    OtherPort s t n ∧ t.fld (fBLn_TSTAT_LSTATUS n) = (s.port n).lbits % 256 ∧
    ((s.port n).valid = 0 ∨ s.fld (fBLn_SMISS n) ≠ 0 ∨ pendBit t (blTrans n) 0 = true) ∧
    RegsEv s t [rBLn_TSTAT n, rBLn_SMISS n, rBLn_SMISSTOT n, fRK_MAXLAT.key] [blTrans n] ∧ t.rk = s.rk ∧ t.tb = s.tb ∧
    t.cores = s.cores := by
  intro t
  obtain ⟨hq, hports⟩ := quiet_laneMisses s n false false
  obtain ⟨hrd, hbl, hrkv, -⟩ := (salOnly_land n (landHead s (s.port n).lbits) (laneMisses n false false s)).kept_parts
  obtain ⟨v, hv⟩ : ∃ v, v = land n (landHead s (s.port n).lbits) (laneMisses n false false s) := ⟨_, rfl⟩
  have hlow : ∀ k, v.rd k = s.rd k := fun k => by rw [hv, hrd, hq.regs k List.not_mem_nil]
  have hvport : ∀ m, v.port m = s.port m := fun m => by rw [hv, port_of_bl m hbl, port_of_ports m hports]
  have hoff : v.rk.enEff = false := by rw [hv, hrkv, hq.kept_parts.2.1, hrk]
  have htick : tickNo v = tickNo s := rd64_of_rd rTICKNO (hlow _) (hlow _)
  have ht : t = missTaken n (s.port n) (decide ((s.port n).valid ≠ 0) && s.fld (fBLn_SMISS n) == 0) lat v := by
    rw [hv]
    exact landNoFrame_eq ho lat
  have htaken := missTaken_effect (s.port n) (decide ((s.port n).valid ≠ 0) && s.fld (fBLn_SMISS n) == 0) hn hoff hlat
  rw [← ht] at htaken
  have hstep := htaken.step
  rw [hv] at hstep
  obtain ⟨hregs, hrk', htb, hcores⟩ := landed_frame (own' := missRegs n ++ [fRK_MAXLAT.key]) hq hstep (List.nil_subset _)
    (List.Subset.refl _)
  have hlen : (landHead s (s.port n).lbits).length = 16 := by
    rw [landHead, List.length_append, List.length_append, length_bytesOfNat, length_bytesOfNat, length_bytesOfNat]
  have hout : ∀ i < 16, rSAL_RMAPi i ∉ missRegs n ++ [fRK_MAXLAT.key] := fun i hi => by
    simp only [missRegs, List.cons_append, List.nil_append, List.mem_cons, List.not_mem_nil, or_false, rSAL_RMAPi, rBLn_TSTAT,
      rBLn_SMISS, rBLn_SMISSTOT, fRK_MAXLAT, rRK_MAXLAT]
    omega
  obtain ⟨hbytes, hsame⟩ := landed_bytes hq hstep hn (List.nil_subset _) hout hf (by rwa [hlen])
  rw [hlen] at hbytes hsame
  refine ⟨hbytes, hsame, htaken.smiss.trans (by rw [fld_of_rd (fBLn_SMISS n) (hlow _)]),
    htaken.smisstot.trans (by rw [fld_of_rd (fBLn_SMISSTOT n) (hlow _)]), htick ▸ htaken.port,
    fun m hm => (htaken.others m hm).trans (hvport m), htaken.lstatus, ?_, hregs, hrk', htb, hcores⟩
  by_cases h0 : (s.port n).valid = 0
  · exact .inl h0
  · by_cases h1 : s.fld (fBLn_SMISS n) = 0
    · exact .inr (.inr (htaken.posted (by rw [h1, decide_eq_true h0]; rfl)))
    · exact .inr (.inl h1)

end Sys2Proof.Machine

open Sys2Proof Sys2Proof.Machine Sys2Proof.Claims

/-- Settles O40: a valid frame lands once with its record and sets the port's registers; a tick without one lands its record. -/
theorem sampleFrames : Obligations.SampleFrames := by
  intro s
  refine ⟨fun n a b lat h => ends_idle rfl h fun h => sampleReceive_idle h a b _,
    fun n a b lat f ho hu hrk hlat hgrid hf hle => ends_unfrozen rfl ho.1 ?lands,
    fun n a b lat f ho hu hrk hlat hgrid hf => ends_unfrozen rfl ho.1 ?held,
    fun n a b lat ho ha hb => ends_unfrozen rfl ho.1 (sampleReceive_waits ho ha hb _),
    fun n lat h => ends_idle rfl h fun h => landNoFrame_idle h _,
    fun n lat ho hrk hlat hf hle => ends_unfrozen rfl ho.1 (landNoFrame_effect n.isLt ho hrk hlat hf hle)⟩
  case lands =>
    obtain ⟨hbytes, hsame⟩ := sampleReceive_lands n.isLt ho hu hrk hlat hgrid hf hle
    exact ⟨hbytes, hsame, sampleReceive_effect n.isLt ho hu hrk hlat hgrid⟩
  case held => exact ⟨sampleReceive_held n.isLt ho hu hrk hlat hgrid hf, sampleReceive_effect n.isLt ho hu hrk hlat hgrid⟩
end
